-- ==== Sys2Proof/Word.lean ====
section
/-!
DEFINITION. The words of the DW9648: 32-bit registers and memory words, bytes, 64-bit counts (00_scope.md R3).
-/
namespace Sys2Proof

/-- A register or a word of memory (R3). -/
abbrev Word := BitVec 32

/-- A byte of memory or of a frame. -/
abbrev Byte := BitVec 8

/-- SYSCNT (R46): 64 bits. -/
abbrev Count := BitVec 64

end Sys2Proof
end

