-- ==== Sys2Proof/Syntax.lean ====
section
/-!
DEFINITION. The commands of the block, one constructor for each row of spec/opcode_table.json, and what they carry.
-/
namespace Sys2Proof

/-- A register of a serial audio port held under 03_serial_audio_ports.md R72 (AES_CFG: 04_aes3_ports.md Table 4.6). -/
inductive SapReg where
  | fmt | clkcfg | line | zc | aesCfg
deriving DecidableEq, Repr

/-- A register of an alignment group held under 05_alignment_and_rate_conversion.md R106. -/
inductive GrpReg where
  | ctrl | membersLo | membersHi | delay | snow
deriving DecidableEq, Repr

/-- A configuration register of a check-value engine (12_crc_engines.md Table 12.4). -/
inductive CrcReg where
  | cfg | poly | init | xorout
deriving DecidableEq, Repr

/-- Who uses a check-value engine: a host on a control port, or the service image (12_crc_engines.md R299). -/
inductive CrcParty where
  | host (p : Fin 4) | service
deriving DecidableEq, Repr

/-- One received slot of a data line.  In a word-select format: the bits that the rising edges of BCLK sample, first bit highest,
from where the format puts the first bit of the slot (its first BCLK period, or its second in format 0: 03_serial_audio_ports.md
Table 3.2), and those that the falling edges sample.  In AES3 mode: the audio bits left-justified, the validity, user and
channel-status bits and what was wrong with the subframe (04_aes3_ports.md R95, R96, R102). -/
structure RxSub where
  data : BitVec 32
  v : Bool
  u : Bool
  c : Bool
  parityErr : Bool
  codeErr : Bool
  alt : BitVec 32
deriving DecidableEq, Repr

/-- A frame that arrives at the pins of a port: on each of its two lines the slot `a` while WS is low and the slot `b` while it is
high (03_serial_audio_ports.md R58, R59), in AES3 mode subframes A and B of line 0; a wrong WS length (R64), and in AES3 mode a Z
preamble. -/
structure RxFrame where
  a0 : RxSub
  b0 : RxSub
  a1 : RxSub
  b1 : RxSub
  framing : Bool
  z : Bool
deriving DecidableEq, Repr

/-- A cause of an automatic mute of an input (06_microphone_and_line_inputs.md R139). -/
inductive MuteCause where
  | phantom | mode | diag | cm
deriving DecidableEq, Repr

/-- What a diagnosis window measured: whether the phantom limiter acted, and the resistances in ohms, leg P to ground,
leg N to ground and leg P to leg N (06_microphone_and_line_inputs.md R151, R152). -/
structure DiagReading where
  limiting : Bool
  rp : Nat
  rn : Nat
  rd : Nat
deriving DecidableEq, Repr

/-- An analogue output: a line output or a headphone output pair (09_line_headphone_jacks.md). -/
inductive OutId where
  | line (n : Fin 16) | hp (n : Fin 4)
deriving DecidableEq, Repr

/-- A connector-facing pin, named by the block that it belongs to (19_electrical_and_package.md R426); `port n` is a data pin of
SAP24 + n. -/
inductive EsdPin where
  | mic (n : Fin 16) | lineOut (n : Fin 16) | headphone (h : Fin 4) | speaker (n : Fin 4) | jack (j : Fin 20) | aux (i : Fin 8)
  | port (n : Fin 8) | wordClock | sync
deriving DecidableEq, Repr

/-- What the pole test of a classification measured, in ohms: between the two pole pins, and from the candidate microphone
pole to the candidate ground pole with `HPn_RET` and with `HPn_MIC` as ground (09_line_headphone_jacks.md R232). -/
structure PoleReading where
  poles : Nat
  retGround : Nat
  micGround : Nat
deriving DecidableEq, Repr

/-- What the load test of a classification measured (09_line_headphone_jacks.md R232). -/
structure LoadReading where
  l : Nat
  r : Nat
deriving DecidableEq, Repr

/-- What the check before a start of an amplifier measured at its two pins, in 10 mV (10_speaker_amplifier.md R253). -/
structure PrecheckReading where
  p : Int
  n : Int
deriving DecidableEq, Repr

/-- The 28 readings of the fixed scan, channels 0x00 to 0x1B, as values of R264 (11_housekeeping_converter.md R275). -/
structure ScanReading where
  v : Vector Int 28
deriving DecidableEq, Repr

/-- Who asked for a conversion (11_housekeeping_converter.md R274). -/
inductive Requester where
  | seq (x : Fin 3) | urgent | other
deriving DecidableEq, Repr

/-- The address that a controller sends on CP2, of 7 or of 10 bits (14_control_ports.md R328). -/
inductive TargetAddr where
  | seven (a : BitVec 7) | ten (a : BitVec 10)
deriving DecidableEq, Repr

/-- The address that CP2 answers after reset (14_control_ports.md Table 14.12), and the period of 50 Hz mains in µs: what the rows
that take one stand for where none is given. -/
abbrev cp2Address : TargetAddr := .seven 0x4C
abbrev mainsPeriod : BitVec 16 := 20000

/-- A value that a conversion delivered, with an over-range flag (11_housekeeping_converter.md R264). -/
structure ConvReading where
  v : Int
  ovr : Bool
deriving DecidableEq, Repr

/-- What an input's modulators deliver in one tick: the samples of both paths after their filters, the envelope of the
signal in Q1.31 codes, and whether the low-gain modulator overloads (06_microphone_and_line_inputs.md R140, R147–R149). -/
structure AinIn where
  high : BitVec 32
  low : BitVec 32
  env : Nat
  overload : Bool
deriving DecidableEq, Repr

/-- A tick in which lanes are stopped at the gate: the cause, the lane that missed, and the sinks and generators whose
programs have not completed, the first one first (07_fabric_schedule.md R186, R188). -/
structure GateMiss where
  cause : Fin 16
  lane : Fin 16
  sinks : List Nat
  gens : List Nat
deriving DecidableEq, Repr

/-- What a PDM microphone input gives at a tick: the ones among the 3,072 bits of its last whole millisecond at 3.072 MHz, and its
bitstream decimated to 48 kHz (17_boot_images_recovery.md R394). -/
structure PdmIn where
  ones : BitVec 12
  v : BitVec 32
deriving DecidableEq, Repr

/-- What the outside and the other die deliver in one tick; `edges` are the clock monitors whose source has shown an edge since the tick
before (02_clocks_and_time.md R35), and `averages` what the averages of monitors in PRESENT have become, in ppm from the nominal (R33). -/
structure TickIn where
  ain : Vector AinIn 16
  sense : Vector (BitVec 32) 4
  linkLost : List Nat
  gate : Option GateMiss
  pdm : Vector PdmIn 8
  ratioDev : List (Fin 64)
  edges : List (Fin 43)
  averages : List (Fin 43 × Int) := []
deriving DecidableEq, Repr


/-- The commands of the block: one constructor for each row of spec/opcode_table.json. -/
inductive Instr where
  /-- `TICK`, R11: At each tick boundary the fabric runs the running piste once, and ports, converters, glides and staged work advance. -/
  | tick (i : TickIn)
  /-- `CLK_CORE_WRITE`, R28: A write to CLK.CORE sets Fc and puts the PLL in ACQUIRE while the fabric is stopped; otherwise it sets RATE_BUSY. -/
  | clkCoreWrite (v : Word)
  /-- `REF_SEL_WRITE`, R30: A write to CLK.REF_SEL selects the PLL reference, may start a relock, or is discarded with BAD_REF. -/
  | refSelWrite (v : Word)
  /-- `MON_LOSS`, R34: A clock monitor sees no edge for 4 nominal periods, enters LOST and declares LOSS. -/
  | monLoss (m : Fin 43)
  /-- `MON_GLITCH`, R34: A monitored period lies outside 6 % of the average, is left out, and may escalate to LOSS. -/
  | monGlitch (m : Fin 43) (gap : Nat)
  /-- `MON_RATE_CHANGE`, R34: 64 consecutive periods lie at another nominal rate, and the monitor adopts it. -/
  | monRateChange (m : Fin 43) (code : Fin 18) (ppm : Int)
  /-- `MON_PRESENT`, R34: After ABSENT or LOST, 64 periods lie at one nominal rate, and the monitor enters PRESENT. -/
  | monPresent (m : Fin 43) (code : Fin 18) (ppm : Int)
  /-- `MON_ACQUIRE_TIMEOUT`, R35: An ACQUIRING monitor sees no edge in time and returns to ABSENT or LOST without an event. -/
  | monAcquireTimeout (m : Fin 43)
  /-- `PLL_ACQUIRE_DONE`, R37: ACQUIRE ends in FREE, LOCKED or HOLDOVER after a change of Fc. -/
  | pllAcquireDone
  /-- `PLL_SLEW_DONE`, R41: A slewing PLL matches the reference, pulls in its phase and enters LOCKED. -/
  | pllSlewDone
  /-- `SNAP_MUTE_DONE`, R42: The SNAP_MUTE glide ends and the PLL enters SNAP_RELOCK with silent sinks. -/
  | snapMuteDone
  /-- `SNAP_RELOCK_DONE`, R42: The fast relock completes and sinks glide back in under SNAP_RETURN. -/
  | snapRelockDone
  /-- `SNAP_RETURN_DONE`, R42: The return glide ends, the PLL enters LOCKED and raises RELOCKED. -/
  | snapReturnDone
  /-- `COARSE_EXIT`, R46: After the timebase restarts, fine counting resumes at the next sleep-tick edge and COARSE clears. -/
  | coarseExit
  /-- `SYSCNT_LO_READ`, R47: A read of TIME.SYSCNT_LO latches SYSCNT_HI. -/
  | syscntLoRead
  /-- `TICKCNT_LO_READ`, R47: A read of TIME.TICKCNT_LO latches TICKCNT_HI and the tick's SYSCNT pair. -/
  | tickcntLoRead
  /-- `EPOCH_FRAME_SEND`, R48: The leader sends an epoch frame on SYNC_OUT each time SYSCNT reaches a multiple of 2^20. -/
  | epochFrameSend
  /-- `EPOCH_FRAME_RECEIVE`, R51: A member takes a valid epoch frame and joins, steers or steps its SYSCNT, or rejects the frame. -/
  | epochFrameReceive (f : BitVec 64)
  /-- `EPOCH_FRAME_REPEAT`, R49: A repeater resends a received frame on SYNC_OUT after 64 counts with HOP incremented. -/
  | epochFrameRepeat
  /-- `ENS_LOST`, R51: After 3 missing epochs a member sets ENS_LOST, clears AGREE and runs SYSCNT free. -/
  | ensLost
  /-- `ENS_REJOIN`, R48: A write of REJOIN on the leader makes its next frame carry CMD = JOIN. -/
  | ensRejoin
  /-- `SAP_RUN_START`, R79: RUN = 1 on a port checks its configuration and starts it as in Table 3.6. -/
  | sapRunStart (n : Fin 32)
  /-- `SAP_RUN_STOP`, R80: RUN = 0 on a port enters STOPPING, or STOPPED at once from STARTING or HELD. -/
  | sapRunStop (n : Fin 32)
  /-- `SAP_MUTE_REQUEST`, R78: A write of SAPn.CTRL.MUTE requests zero-crossing mute or unmute of channels. -/
  | sapMuteRequest (n : Fin 32) (mask : BitVec 4)
  /-- `SAP_CONFIG_WRITE`, R72: A write to FMT, CLKCFG, LINE or ZC applies while STOPPED, or is held pending. -/
  | sapConfigWrite (n : Fin 32) (r : SapReg) (v : Word)
  /-- `SAP_FRAME_RECEIVED`, R82: A frame arriving at a port's pins enters its FIFO, or overruns, and is counted. -/
  | sapFrameReceived (n : Fin 32) (f : RxFrame)
  /-- `SAP_FRAME_TRANSMIT`, R82: The transmitter takes the next frame from the FIFO, or meets an output underrun. -/
  | sapFrameTransmit (n : Fin 32)
  /-- `SAP_DELIVERY_START`, R79: After its first block, a port begins delivery from the FIFO and enters RUNNING. -/
  | sapDeliveryStart (n : Fin 32)
  /-- `ZC_TIMEOUT`, R76: No crossing within TIMEOUT ms, and the channel switches with a 32-tick glide. -/
  | zcTimeout (n : Fin 32) (ch : Fin 4)
  /-- `ZC_GLIDE_DONE`, R77: The fallback glide ends, and ZC_DONE is raised when every channel has switched. -/
  | zcGlideDone (n : Fin 32) (ch : Fin 4)
  /-- `SAP_STOPPED`, R80: A stopping port finishes draining, stops its clocks and enters STOPPED, applying pending configuration. -/
  | sapStopped (n : Fin 32)
  /-- `SAP_CNT_CLEAR`, R85: CNT_CTRL.CLEAR clears the line counts while STOPPED, or sets CLEAR_DENIED. -/
  | sapCntClear (n : Fin 32)
  /-- `FRAMES_IN_READ`, R84: A read of Lk_FRAMES_IN latches the other four counts of the line. -/
  | framesInRead (n : Fin 32) (k : Fin 2)
  /-- `STAMP_LO_READ`, R69: A read of SAPn.STAMP_LO latches STAMP_HI and BLOCK_CNT. -/
  | stampLoRead (n : Fin 32)
  /-- `AES_RX_LOCKED`, R93: The receiver finds 8 frames with correct preambles, enters LOCKED and starts its frame clock. -/
  | aesRxLocked (k : Fin 8)
  /-- `AES_RX_LOCK_LOST`, R93: A frame position without a valid preamble returns the receiver to ACQUIRING and stops its clock. -/
  | aesRxLockLost (k : Fin 8)
  /-- `AES_RX_CS_READ`, R98: A read of AES_RX_CS_A word 0 latches all 48 received channel-status bytes. -/
  | aesRxCsRead (k : Fin 8) (b : Bool)
  /-- `AES_TX_SWAP`, R99: AES_TX_CTRL.SWAP = 1 requests a copy of the next channel-status buffer. -/
  | aesTxSwap (k : Fin 8)
  /-- `AES_CS_SWAP_COPY`, R99: At the first Z frame after the request the next buffer is copied to active, SWAP clears and CS_SWAPPED is raised. -/
  | aesCsSwapCopy (k : Fin 8)
  /-- `GRP_CONFIG_WRITE`, R106: A write to a group's registers applies while its ports are stopped, or is held pending. -/
  | grpConfigWrite (g : Fin 8) (r : GrpReg) (v : Word)
  /-- `MEMBER_DELIVERY_START`, R110: At its anchor tick a member begins presenting frame 0. -/
  | memberDeliveryStart (n : Fin 32) (k : Fin 2)
  /-- `MEMBER_STARVED`, R113: No frame has entered a member for 3 nominal periods and it is starved. -/
  | memberStarved (n : Fin 32) (k : Fin 2)
  /-- `SNOWPLOUGH_SILENT`, R115: The snowplough fade ends and the member delivers inserted silence. -/
  | snowploughSilent (n : Fin 32) (k : Fin 2)
  /-- `MEMBER_REJOIN`, R118: A silent member again holds one block, drops passed frames and glides back in at its position. -/
  | memberRejoin (n : Fin 32) (k : Fin 2)
  /-- `REJOIN_GLIDE_DONE`, R118: The glide back in ends after TICKS ticks. -/
  | rejoinGlideDone (n : Fin 32) (k : Fin 2)
  /-- `ASRC_CONFIG_WRITE`, R124: A write to ASRC.CHi_CFG applies while disabled, or is held pending. -/
  | asrcConfigWrite (i : Fin 64) (v : Word)
  /-- `ASRC_ENABLE`, R124: ENABLE = 1 on a converter checks its attachment and enters ACQUIRING, OUT_OF_RANGE or INVALID. -/
  | asrcEnable (i : Fin 64)
  /-- `ASRC_DISABLE`, R126: ENABLE = 0 glides the converter output to mute. -/
  | asrcDisable (i : Fin 64)
  /-- `ASRC_OFF`, R126: The disable glide ends and the converter enters OFF. -/
  | asrcOff (i : Fin 64)
  /-- `ASRC_LOCKED`, R125: A converter's ratio estimate locks and its output glides in from mute. -/
  | asrcLocked (i : Fin 64)
  /-- `AIN_ENABLE`, R155: ENABLE = 1 on an input starts its modulators and enters STARTING. -/
  | ainEnable (n : Fin 16)
  /-- `AIN_DISABLE`, R155: ENABLE = 0 on an input enters STOPPING, or OFF at once from STARTING. -/
  | ainDisable (n : Fin 16)
  /-- `AIN_MODE_CHANGE`, R132: A change of MODE on a READY input starts an auto-mute and switches the pad in the silence. -/
  | ainModeChange (n : Fin 16)
  /-- `SERVO_SETTLED`, R129: The common-mode servo settles 10 ms after the input's domain reaches ON. -/
  | servoSettled (n : Fin 16)
  /-- `AIN_READY`, R155: A starting input reaches READY after 20 ms and glides in unless auto-muted. -/
  | ainReady (n : Fin 16)
  /-- `AIN_OFF`, R155: The stop fade of an input ends and it enters OFF. -/
  | ainOff (n : Fin 16)
  /-- `CM_EXCURSION_START`, R130: The servo error exceeds 2 V and the input enters CM excursion. -/
  | cmExcursionStart (n : Fin 16)
  /-- `CM_EXCURSION_END`, R130: The servo error has stayed below 0.2 V for 2 ms and the excursion ends. -/
  | cmExcursionEnd (n : Fin 16)
  /-- `PHANTOM_ENABLE`, R133: PH_EN = 1 reserves phantom current and ramps up, or enters DENIED. -/
  | phantomEnable (n : Fin 16)
  /-- `PHANTOM_DISABLE`, R136: PH_EN = 0 ramps phantom down, or enters OFF at once from DENIED, OVERLOAD or FOLDED. -/
  | phantomDisable (n : Fin 16)
  /-- `PH_RAMP_DONE`, R136: A phantom ramp ends and its settle time begins. -/
  | phRampDone (n : Fin 16)
  /-- `PH_SETTLE_DONE`, R136: The phantom settle ends in ON or OFF, releasing or keeping the reservation. -/
  | phSettleDone (n : Fin 16)
  /-- `PH_LIMIT_TIMEOUT`, R134: The phantom limiter has acted for 100 ms and the input enters OVERLOAD. -/
  | phLimitTimeout (n : Fin 16)
  /-- `PH_FOLDBACK`, R135: The rail has stayed below 44 V and one input's phantom is removed, repeating every 20 ms. -/
  | phFoldback
  /-- `AUTOMUTE_FADE_DONE`, R139: The 32-tick auto-mute fade ends and the channel delivers silence. -/
  | automuteFadeDone (n : Fin 16)
  /-- `AUTOMUTE_CAUSE_END`, R139: A mode change or diagnosis cause ends 10 ms after its switch or release. -/
  | automuteCauseEnd (n : Fin 16) (c : MuteCause)
  /-- `AUTOMUTE_GLIDE_DONE`, R139: The 32-tick glide back in after an auto-mute ends. -/
  | automuteGlideDone (n : Fin 16)
  /-- `PATH_RETURN`, R140: After 50 ms below −33 dBFS the channel crossfades back to the high-gain path. -/
  | pathReturn (n : Fin 16)
  /-- `CAL_RESTART`, R142: A write of AINn.DIAG.CAL = 1 restarts the dual-path calibration. -/
  | calRestart (n : Fin 16)
  /-- `PREAMP_GAIN_WRITE`, R143: A new PREAMP value starts a gain glide toward it. -/
  | preampGainWrite (n : Fin 16) (v : Word)
  /-- `STEP_FORCE_TIMEOUT`, R145: No crossing within TIMEOUT ms forces the pending analogue step. -/
  | stepForceTimeout (n : Fin 16)
  /-- `DIAG_START`, R151: A write of DIAG.START = 1 queues a diagnosis for the test DAC. -/
  | diagStart (n : Fin 16) (legs : BitVec 2)
  /-- `DIAG_BEGIN`, R151: The test DAC becomes free and a queued diagnosis begins. -/
  | diagBegin (n : Fin 16)
  /-- `DIAG_PHASE_DONE`, R151: A baseline or injection window of a diagnosis ends and the next step begins. -/
  | diagPhaseDone (n : Fin 16) (r : DiagReading)
  /-- `FABRIC_RUN`, R161: FAB.CTRL.RUN = 1 admits the start piste and enters STARTING, or is refused. -/
  | fabricRun (p : Fin 4) (piste : Bool)
  /-- `FABRIC_FIRST_TICK`, R161: After ACQUIRE ends the fabric starts at the next Fc boundary with TICKCNT = 0 and glides sinks in. -/
  | fabricFirstTick (i : TickIn)
  /-- `FABRIC_STOP`, R162: RUN = 0 glides every sink out at the next tick boundary. -/
  | fabricStop (p : Fin 4)
  /-- `FABRIC_STOPPED`, R162: The stop glide ends, the fabric enters STOPPED and every delay line returns to free. -/
  | fabricStopped
  /-- `PISTE_WRITE`, R165: A host write to piste memory lands in the idle piste, or is refused. -/
  | pisteWrite (p : Fin 4) (addr : Word) (v : Word)
  /-- `PISTE_COPY`, R169: FAB.COPY = 1 starts copying the running piste into the idle piste. -/
  | pisteCopy (p : Fin 4)
  /-- `COPY_DONE`, R169: The piste copy ends and COPY_DONE is raised. -/
  | copyDone
  /-- `PISTE_SWAP`, R176: FAB.SWAP = 1 requests a swap, admitted at validation. -/
  | pisteSwap (p : Fin 4)
  /-- `XOVER_END`, R178: The crossover ends, the old piste becomes idle and draining granules are freed. -/
  | xoverEnd
  /-- `ADMISSION_CHECK`, R185: FAB.CHECK.START = 1 admits the idle piste on request without swapping. -/
  | admissionCheck (p : Fin 4)
  /-- `CHECK_DONE`, R185: The requested admission ends, writes its results and raises CHECK_DONE. -/
  | checkDone
  /-- `PARAM_WRITE`, R192: A write to coefficient and object parameter memory applies at the next tick or is staged. -/
  | paramWrite (p : Fin 4) (addr : Word) (v : Word)
  /-- `GAIN_TARGET_WRITE`, R195: A new gain slot TARGET starts a glide from the previous tick's gain. -/
  | gainTargetWrite (slot : Fin 4096) (v : Word)
  /-- `OBJECT_WRITE`, R205: An applied object write changes its parameters and starts its SETTLING mark. -/
  | objectWrite (addr : Word) (v : Word)
  /-- `OBJECT_RESET`, R206: RESET = 1 clears an object's state in the tick of its apply. -/
  | objectReset (addr : Word)
  /-- `DELAY_CHANGE`, R213: A new DELAY crossfades the read point over XFADE ticks. -/
  | delayChange (l : Fin 512) (v : Word)
  /-- `GENERATOR_RESTART`, R214: RESTART = 1 resets a generator's phase, seed and sweep. -/
  | generatorRestart (g : Fin 16)
  /-- `LINE_FILLED`, R212: A new delay line delivers its first written sample. -/
  | lineFilled (l : Fin 512)
  /-- `SWEEP_END`, R214: A generator sweep reaches its end, holds or restarts, and raises SWEEP_DONE. -/
  | sweepEnd (g : Fin 16)
  /-- `OUTPUT_ENABLE`, R226: ENABLE = 1 on a line or headphone output enters STARTING. -/
  | outputEnable (o : OutId)
  /-- `OUTPUT_DISABLE`, R226: ENABLE = 0 enters STOPPING, or closes the clamps at once from STARTING, or leaves FAULT for OFF. -/
  | outputDisable (o : OutId)
  /-- `LINE_RAIL_RAMP_DONE`, R226: The line output rails reach ±12 V, the clamps release and the servo trims. -/
  | lineRailRampDone (n : Fin 16)
  /-- `CHARGE_PUMP_READY`, R226: The charge pump rails reach range and the headphone amplifier turns on. -/
  | chargePumpReady
  /-- `OUTPUT_SETTLE_DONE`, R226: The output settle ends, the output enters READY and its gain glides in. -/
  | outputSettleDone (o : OutId)
  /-- `OUTPUT_STOP_GLIDE_DONE`, R226: The 32-tick stop glide ends and the clamps close. -/
  | outputStopGlideDone (o : OutId)
  /-- `LINE_RAIL_DOWN_DONE`, R226: The line output rails reach 0 V and the output enters OFF. -/
  | lineRailDownDone (n : Fin 16)
  /-- `CHARGE_PUMP_STOP`, R226: 1 ms after every headphone output is OFF the charge pump stops. -/
  | chargePumpStop
  /-- `OUTPUT_CURRENT_LIMIT`, R220: An output's current limit first acts and OVERCURRENT is raised. -/
  | outputCurrentLimit (o : OutId)
  /-- `OUTPUT_LIMIT_TIMEOUT`, R220: The current limit has acted for 100 ms and the output enters FAULT. -/
  | outputLimitTimeout (o : OutId)
  /-- `SERVO_LIMIT`, R219: The DC servo reaches its ±50 mV limit and raises SERVO_LIMIT. -/
  | servoLimit (n : Fin 16)
  /-- `CP_RAIL_FAULT`, R223: A charge-pump rail stays out of range for 1 ms and every active headphone output enters FAULT. -/
  | cpRailFault
  /-- `INTERNAL_FADE_DONE`, R222: An internal fade reaches silence or finishes fading back in. -/
  | internalFadeDone (h : Fin 4)
  /-- `HP_MIC_ROUTE`, R224: A change of MIC_EN or MIC_IN reroutes the headset microphone under an auto-mute, or is held pending. -/
  | hpMicRoute (h : Fin 4) (on : Bool) (input : Fin 16)
  /-- `BUTTON_PRESS`, R225: The microphone-pole resistance stays in one band for 20 ms and a press is declared. -/
  | buttonPress (h : Fin 4) (b : Fin 4)
  /-- `BUTTON_RELEASE`, R225: The resistance stays above 1 kΩ for 20 ms and a release is declared. -/
  | buttonRelease (h : Fin 4)
  /-- `JACK_LEVEL_CHANGE`, R228: A level change on JDj restarts its debounce timer. -/
  | jackLevelChange (j : Fin 20) (high : Bool)
  /-- `JACK_INSERT`, R228: The level stays present for INS_DEB ms and the jack becomes INSERTED. -/
  | jackInsert (j : Fin 20)
  /-- `JACK_REMOVE`, R228: The level stays absent for REM_DEB ms, the jack becomes REMOVED and CLASS takes EMPTY. -/
  | jackRemove (j : Fin 20)
  /-- `CLASSIFY_POLE_TEST_DONE`, R232: The headphone pole test ends and the load test is queued. -/
  | classifyPoleTestDone (j : Fin 20) (r : PoleReading)
  /-- `CLASSIFY_LOAD_TEST_DONE`, R232: The headphone load test ends and the class is written. -/
  | classifyLoadTestDone (j : Fin 20) (r : LoadReading)
  /-- `JACK_RULE_FIRE`, R236: In the first tick after its trigger a jack rule writes its gain target. -/
  | jackRuleFire (r : Fin 64)
  /-- `AMP_ENABLE`, R248: ENABLE = 1 on an amplifier channel starts its pre-check, or enters SUSPENDED. -/
  | ampEnable (n : Fin 4)
  /-- `AMP_DISABLE`, R248: ENABLE = 0 glides the channel out, or enters OFF at once from a waiting or latched state. -/
  | ampDisable (n : Fin 4)
  /-- `AMP_PRECHECK_DONE`, R253: The 1 ms pre-check ends, passing or failing with SHORT_GND or SHORT_PVDD. -/
  | ampPrecheckDone (n : Fin 4) (r : PrecheckReading)
  /-- `AMP_RELEASE`, R248: At the next start of its phase both halves are released at 50 % duty. -/
  | ampRelease (n : Fin 4)
  /-- `AMP_RUNNING`, R248: START_IDLE ends, the channel enters RUNNING and its gain glides in. -/
  | ampRunning (n : Fin 4)
  /-- `AMP_STOP_GLIDE_DONE`, R248: The stop glide ends and both halves run at 50 % duty for 1 ms. -/
  | ampStopGlideDone (n : Fin 4)
  /-- `AMP_OFF`, R248: Both halves go to high impedance and the channel enters OFF. -/
  | ampOff (n : Fin 4)
  /-- `PWM_CYCLE`, R250: A PWM cycle ends with each half's current compared with PEAK and the limited cycles counted. -/
  | pwmCycle (n : Fin 4) (pos : Nat) (neg : Nat)
  /-- `AMP_RETRY`, R252: The retry delay expires and the channel reruns its start with pre-check. -/
  | ampRetry (n : Fin 4)
  /-- `AMP_RETRIES_CLEAR`, R252: After 5 s in RUNNING the failed retry count returns to 0. -/
  | ampRetriesClear (n : Fin 4)
  /-- `AMP_DC_FAULT`, R254: Output DC above 2 V for 200 ms stops switching and latches the channel. -/
  | ampDcFault (n : Fin 4)
  /-- `FIXED_SCAN`, R275: Every 1 ms the HKA scans channels 0x00 to 0x1B and updates block registers. -/
  | fixedScan (r : ScanReading)
  /-- `SAG_SAMPLE`, R256: At the selected mid-cycle the HKA samples PVDD and the sag ceiling is updated. -/
  | sagSample (raw : Nat)
  /-- `PVDD_HW_STOP`, R258: The hardware comparator turns every stage off at once below 8.0 V. -/
  | pvddHwStop
  /-- `SUPPLY_OK`, R258: PVDD has stayed in range for 100 ms and suspended channels start again. -/
  | supplyOk
  /-- `HKA_READY`, R285: The HKA finishes its start calibration, sets READY and serves waiting work. -/
  | hkaReady
  /-- `CONVERSION_DONE`, R266: A pipeline conversion delivers its value to its requester. -/
  | conversionDone (q : Requester) (v : ConvReading)
  /-- `INTEGRATION_DONE`, R268: An integrating conversion ends after T + 100 µs and delivers its 24-bit value. -/
  | integrationDone (v : ConvReading)
  /-- `CAL_STAGE_DONE`, R267: A pipeline stage ends its 1 ms calibration and the rotation moves on, or stops on failure. -/
  | calStageDone (ok : Bool)
  /-- `MAINS_LOST`, R269: No crossing for 100 ms, or a frequency out of range, sets MAINS_LOST. -/
  | mainsLost
  /-- `HKA_TIMER_FIRE`, R271: An HKA timer reaches its period and triggers its sequences. -/
  | hkaTimerFire (k : Fin 4)
  /-- `PWM_TRIGGER`, R271: Every PWM_DIV cycles of the chosen channel's edge triggers a sequence. -/
  | pwmTrigger (x : Fin 3)
  /-- `SEQ_GO`, R271: A write of HKSEQ.SEQ_GO triggers the named sequences. -/
  | seqGo (mask : BitVec 3)
  /-- `SEQ_ENABLE`, R270: ENABLE = 1 on a sequence checks its range and arms it, or sets CFG_INVALID. -/
  | seqEnable (x : Fin 3)
  /-- `SEQ_DISABLE`, R272: ENABLE = 0 stops a run after its current entry and the sequence enters OFF. -/
  | seqDisable (x : Fin 3)
  /-- `SEQ_DELAY_END`, R272: A waiting sequence's DELAY ends and its run starts when the core is free. -/
  | seqDelayEnd (x : Fin 3)
  /-- `URGENT_START`, R276: HKA.URGENT.START = 1 queues one host urgent request, or sets URG_BUSY or BAD_CHAN. -/
  | urgentStart (p : Fin 4) (v : Word)
  /-- `HKA_POP`, R280: A read of POPq_LO returns the head record of ring 20 + q and advances it. -/
  | hkaPop (q : Fin 4)
  /-- `HKA_PEEK`, R280: A read of PEEKq_LO returns the head record without advancing. -/
  | hkaPeek (q : Fin 4)
  /-- `TDAC_HOST_REQUEST`, R283: HOST_REQ = 1 queues the writing port for the test DAC, or sets BUSY. -/
  | tdacHostRequest (p : Fin 4)
  /-- `TDAC_GRANT`, R283: The test DAC falls free and the next queued owner is granted it. -/
  | tdacGrant
  /-- `TDAC_HOST_RELEASE`, R283: HOST_REQ = 0 releases the test DAC, ramping it to 0 V. -/
  | tdacHostRelease (p : Fin 4)
  /-- `TDAC_ROUTE`, R282: A write of ROUTE by the owner ramps to 0 V, switches and ramps to CODE. -/
  | tdacRoute (p : Fin 4) (v : Word)
  /-- `TDAC_CODE`, R282: A write of CODE by the owner changes the test DAC output. -/
  | tdacCode (p : Fin 4) (v : Word)
  /-- `TDAC_RAMP_DONE`, R282: A 100 µs test DAC ramp ends. -/
  | tdacRampDone
  /-- `CRC_DATA8`, R296: A write to DATA8 feeds one byte to an engine. -/
  | crcData8 (a : CrcParty) (i : Fin 26) (v : Byte)
  /-- `CRC_DATA16`, R296: A write to DATA16 feeds two bytes, low byte first. -/
  | crcData16 (a : CrcParty) (i : Fin 26) (v : BitVec 16)
  /-- `CRC_DATA32`, R296: A write to DATA32 feeds four bytes, low byte first. -/
  | crcData32 (a : CrcParty) (i : Fin 26) (v : Word)
  /-- `CRC_RESET`, R295: CTRL.RESET loads the running register with INIT and clears COUNT. -/
  | crcReset (a : CrcParty) (i : Fin 26)
  /-- `CRC_CONFIG_WRITE`, R295: A write to CFG, POLY or INIT takes effect at once and resets the engine. -/
  | crcConfigWrite (a : CrcParty) (i : Fin 26) (r : CrcReg) (v : Word)
  /-- `CRC_RESULT_READ`, R297: A read of RESULT waits for accepted feeds and returns the formed result. -/
  | crcResultRead (i : Fin 26)
  /-- `CRC_RAW_READ`, R297: A read of RAW waits for accepted feeds and returns the running register. -/
  | crcRawRead (i : Fin 26)
  /-- `CRC_OWN_REQUEST`, R299: OWN.REQ = 1 grants CRC25 and resets it, or sets BUSY. -/
  | crcOwnRequest (a : CrcParty)
  /-- `CRC_OWN_RELEASE`, R299: OWN.REQ = 0 by the owner frees CRC25. -/
  | crcOwnRelease (a : CrcParty)
  /-- `POWER_CHANGE`, R305: An applied change of domain TARGET runs the power checks and the vote. -/
  | powerChange (p : Fin 4) (ws : List (Fin 27 × Word))
  /-- `VOTE_ANSWER`, R307: A voter answers within 20 µs, agreeing and stopping, or refusing. -/
  | voteAnswer (arriving : Bool := false)
  /-- `VOTE_TIMEOUT`, R307: A voter silent for 100 µs, or a vote lasting 1 ms, refuses with TIMEOUT. -/
  | voteTimeout
  /-- `DOMAIN_WAKE_DONE`, R310: A woken domain reaches ON and the next domain starts waking. -/
  | domainWakeDone
  /-- `POWER_APPLY`, R310: In the first tick after every woken domain is ON the staged writes apply and lowering begins. -/
  | powerApply
  /-- `DOMAIN_LOWER_DONE`, R310: A lowered domain reaches its state, the next goes down, and CHANGE_DONE follows the last. -/
  | domainLowerDone
  /-- `AUTOWAKE_TIMEOUT`, R313: A held access not served within 2 ms fails with DOMAIN_DOWN while the wake continues. -/
  | autowakeTimeout (p : Fin 4)
  /-- `PAD_RELEASE`, R314: A write of PWR.PAD_RELEASE releases the pad groups of ON domains, or sets PAD_NOT_ON. -/
  | padRelease (p : Fin 4) (v : Word)
  /-- `LP_BROWNOUT`, R317: Retention current above 4 mA in low-power mode returns the regulator to full mode and may lose domains. -/
  | lpBrownout (lost : List (Fin 27))
  /-- `LIFT_MATCH`, R318: The CP2 address watch matches an address while CORE is down, stretches SCL and wakes CMEM and CORE. -/
  | liftMatch (target : TargetAddr := cp2Address)
  /-- `LIFT_READY`, R318: CP2 becomes ready, SCL is released and the address acknowledged. -/
  | liftReady
  /-- `LIFT_TIMEOUT`, R318: CP2 is not ready 400 µs after a match, and the address is not acknowledged. -/
  | liftTimeout
  /-- `POWER_ON_RESET`, R320: PVDD rises through 7.5 V and every domain resets. -/
  | powerOnReset
  /-- `SUPPLY_LOSS`, R320: PVDD below 7.0 V for 10 µs resets the device and holds it. -/
  | supplyLoss
  /-- `RST_N_ASSERT`, R425: A low on RST_N of 1 µs or longer resets the device and holds it. -/
  | rstNAssert
  /-- `HOST_RESET`, R320: AON.RESET.KEY = 0xA5 resets every domain except AON, or sets BAD_KEY. -/
  | hostReset (key : Byte)
  /-- `WATCHDOG_RESET`, R320: The supervisor stops responding for 100 ms and every domain except AON resets. -/
  | watchdogReset
  /-- `RESET_RELEASE`, R385: A reset ends and the device starts and boots as in Table 17.1. -/
  | resetRelease
  /-- `VIO_SELECT`, R414: 0.3 ms after reset the device selects VIO from the level of VIO_EXT. -/
  | vioSelect (mv : Nat)
  /-- `VIO_DROP`, R414: An external VIO below 1.4 V puts VIO pins at high impedance until it recovers. -/
  | vioDrop
  /-- `ESD_DISCHARGE`, R427: A contact discharge to a connector pin may disturb samples for up to 1 ms. -/
  | esdDischarge (pin : EsdPin := .mic 0)
  /-- `COMMAND_FRAME`, R339: A received command frame is checked in order and accepted, replayed or refused. -/
  | commandFrame (p : Fin 4) (bytes : List Byte) (target : TargetAddr := cp2Address)
  /-- `UART_OVERLENGTH`, R329: More than 1,041 bytes without a delimiter are discarded and answered BAD_LEN. -/
  | uartOverlength
  /-- `RESPONSE_FORMED`, R333: A frame's last operation completes and its counted response is formed. -/
  | responseFormed (p : Fin 4)
  /-- `RESPONSE_DELIVERED`, R327: A response's last byte is sent to the host and applies any pending XPORT write. -/
  | responseDelivered (p : Fin 4) (target : TargetAddr := cp2Address)
  /-- `NOP`, R331: A NOP operation does nothing and yields an empty result. -/
  | nop (p : Fin 4)
  /-- `HELLO`, R343: HELLO opens or reopens the port's session and sets NEXT and the lease. -/
  | hello (p : Fin 4) (seq : BitVec 16) (leaseMs : Word) (hostId : Word)
  /-- `LEASE`, R344: LEASE sets a new lease period, or closes the session with 0. -/
  | lease (p : Fin 4) (leaseMs : Word)
  /-- `RD`, R334: RD reads COUNT bytes word by word. -/
  | rd (p : Fin 4) (addr : Word) (count : BitVec 16)
  /-- `WR`, R335: WR checks and writes words directly, or stages them in a transaction. -/
  | wr (p : Fin 4) (addr : Word) (bib : BitVec 16) (data : List Byte)
  /-- `RMW`, R335: RMW writes one word under a mask and returns its previous value. -/
  | rmw (p : Fin 4) (addr : Word) (bib : BitVec 16) (mask : Word) (value : Word)
  /-- `TXN_OPEN`, R346: TXN_OPEN takes a bib from the pool, or returns STAGING_FULL. -/
  | txnOpen (p : Fin 4)
  /-- `TXN_COMMIT`, R357: TXN_COMMIT validates at once or schedules validation for a tick or SYSCNT time. -/
  | txnCommit (p : Fin 4) (bib : BitVec 16) (mode : Byte) (time : Count)
  /-- `TXN_ABORT`, R363: TXN_ABORT aborts an OPEN or SCHEDULED bib and frees its entries. -/
  | txnAbort (p : Fin 4) (bib : BitVec 16)
  /-- `TXN_STATUS`, R348: TXN_STATUS reports a bib's status and retires it with RETIRE. -/
  | txnStatus (p : Fin 4) (bib : BitVec 16) (retire : Bool)
  /-- `CLAIM`, R365: CLAIM grants the port the claim on a page, or refuses. -/
  | claim (p : Fin 4) (page : BitVec 16)
  /-- `RELEASE`, R365: RELEASE ends the port's claim on a page. -/
  | release (p : Fin 4) (page : BitVec 16)
  /-- `RING_PULL`, R374: RING_PULL returns and consumes up to MAX entries of a ring. -/
  | ringPull (p : Fin 4) (ring : Byte) (max : BitVec 16)
  /-- `RING_PUSH`, R374: RING_PUSH writes up to COUNT entries into a host-produced ring. -/
  | ringPush (p : Fin 4) (ring : Byte) (entries : List Byte)
  /-- `LEASE_WARNING`, R344: Less than a quarter of the lease remains and IRQ_STAT.LEASE is set. -/
  | leaseWarning (p : Fin 4)
  /-- `LEASE_EXPIRY`, R344: The lease timer reaches its period, transactions abort and the session enters GRACE. -/
  | leaseExpiry (p : Fin 4)
  /-- `GRACE_END`, R342: The grace period ends, claims are released and the session becomes NONE. -/
  | graceEnd (p : Fin 4)
  /-- `TIMED_VALIDATION`, R357: A SCHEDULED transaction reaches its validation time and is validated. -/
  | timedValidation (bib : BitVec 16)
  /-- `TXN_APPLY`, R361: An IN_FLIGHT transaction applies its entries in its apply tick, or aborts. -/
  | txnApply (bib : BitVec 16)
  /-- `RING_CONFIG_WRITE`, R372: A write of RINGr_CFG enables, disables or reconfigures a ring. -/
  | ringConfigWrite (p : Fin 4) (r : Fin 32) (v : Word)
  /-- `RING_INDEX_WRITE`, R373: A write of RINGr_PROD or RINGr_CONS advances an index or sets INDEX. -/
  | ringIndexWrite (p : Fin 4) (r : Fin 32) (producer : Bool) (v : Word)
  /-- `EVT_FORCE_WRITE`, R376: A write of 1 to EVT_FORCE sets the status bit and raises a FORCED record. -/
  | evtForceWrite (p : Fin 4) (page : Fin 108) (v : Word)
  /-- `EVT_ENABLE_WRITE`, R376: Setting an enable whose status bit is already 1 raises the event at once. -/
  | evtEnableWrite (p : Fin 4) (page : Fin 108) (v : Word)
  /-- `GRAN_A_READ`, R381: A read of RING.GRAN_A returns the last tick's granule counts and latches GRAN_B and GRAN_C. -/
  | granARead
  /-- `IMAGE_LOAD_OPEN`, R387: LOAD_CTRL.OPEN opens an image load for the writing port, or sets LOAD_BUSY. -/
  | imageLoadOpen (p : Fin 4) (kind : Fin 4)
  /-- `IMAGE_WINDOW_WRITE`, R387: A write to the load window by the owner lands in the image region. -/
  | imageWindowWrite (p : Fin 4) (off : Fin 512) (v : Word)
  /-- `IMAGE_CHECK`, R387: LOAD_CTRL.CHECK runs the image checks and waits for their outcome. -/
  | imageCheck (p : Fin 4)
  /-- `IMAGE_START`, R387: LOAD_CTRL.START checks and starts an image. -/
  | imageStart (p : Fin 4)
  /-- `IMAGE_LOAD_ABORT`, R388: LOAD_CTRL.ABORT ends an open load and leaves the region unchecked. -/
  | imageLoadAbort (p : Fin 4)
  /-- `IMAGE_CHECK_DONE`, R390: The image checks end in acceptance, untested acceptance or refusal with a reason. -/
  | imageCheckDone
  /-- `SVC_STARTED`, R387: An accepted service image reaches RUNNING and the device enters SERVICE. -/
  | svcStarted
  /-- `SUPP_APPLIED`, R387: An accepted supervisor patch is applied at the supervisor's next idle point. -/
  | suppApplied
  /-- `SVC_FATAL_ERROR`, R386: An exception or failed assertion halts the service image, enters BARE and writes a dump. -/
  | svcFatalError (reason : Byte)
  /-- `SVC_HEARTBEAT_TIMEOUT`, R386: 500 ms without the image's heartbeat is a fatal error. -/
  | svcHeartbeatTimeout
  /-- `SVC_STOP`, R386: BOOT.CTRL.SVC_STOP stops the service image without a dump. -/
  | svcStop
  /-- `RECOVER`, R393: BOOT.CTRL.RECOVER with the key enters RECOVERY and stops the fabric. -/
  | recover
  /-- `SCHUSS_STOP`, R383: BOOT.CTRL.SCHUSS_STOP ends the boot phase. -/
  | schussStop
  /-- `SCHUSS_END`, R395: The schuss path finishes gliding out and SCHUSS_END is raised. -/
  | schussEnd
  /-- `FUSE_PROG`, R397: A write of FUSE.PROG with the key starts blowing one fuse bit, or is refused. -/
  | fuseProg (p : Fin 4) (v : Word)
  /-- `FUSE_BLOW_DONE`, R397: A fuse blow ends after 100 µs and BUSY clears. -/
  | fuseBlowDone
  /-- `PDM_TEST_WRITE`, R398: A write of DBG.CTRL.PDM_TEST selects production-test PDM, or is denied. -/
  | pdmTestWrite (p : Fin 4) (on : Bool)
  /-- `DUMP_WRITTEN`, R399: The crash dump is complete, STATE becomes READY and READY is raised. -/
  | dumpWritten
  /-- `DUMP_RELEASE`, R400: DUMP.CTRL.RELEASE returns the dump area to EMPTY. -/
  | dumpRelease
  /-- `DUMP_STREAM`, R402: DUMP.CTRL.STREAM starts writing the dump to ring 27 from offset 0. -/
  | dumpStream (p : Fin 4)
  /-- `DUMP_CHUNK`, R402: When ring 27 has room the supervisor writes the next dump chunk. -/
  | dumpChunk
  /-- `SERVICE_VERSION`, R403: The service image answers VERSION with its version and epochs. -/
  | serviceVersion
  /-- `SERVICE_RECLASSIFY`, R403: The service image restarts classification of a jack. -/
  | serviceReclassify
  /-- `SERVICE_THERMAL`, R403: The service image answers with its predicted temperatures. -/
  | serviceThermal
  /-- `SERVICE_CALIBRATE`, R403: The service image restarts the dual-path calibration of the named inputs. -/
  | serviceCalibrate
  /-- `SERVICE_REFUSED`, R403: An unknown service, or any service in BARE or RECOVERY, is answered BAD_OP. -/
  | serviceRefused
  /-- `REGISTER_WRITE`, R4: A write to a register field without a row of its own takes effect by its access type. -/
  | registerWrite (p : Fin 4) (addr : Word) (v : Word)
  /-- `AES_RX_ACQUIRING`, R93: Transitions appear on the AES3 input of an UNLOCKED receiver, and it enters ACQUIRING. -/
  | aesRxAcquiring (k : Fin 8)
  /-- `AES_RX_UNLOCKED`, R93: Transitions stop on the AES3 input and the receiver returns to UNLOCKED, raising UNLOCKED. -/
  | aesRxUnlocked (k : Fin 8)
  /-- `REF_UNUSABLE`, R36: The average of a PRESENT selected reference drifts beyond 2,000 ppm of its nominal, the reference is treated as lost and the PLL enters HOLDOVER with REF_UNUSABLE. -/
  | refUnusable (ppm : Int)
  /-- `REF_USABLE`, R41: The average of the selected reference returns within 2,000 ppm of its nominal, it becomes usable again and a relock starts by policy. -/
  | refUsable (ppm : Int)
  /-- `MAINS_MEASUREMENT_VALID`, R269: Rising crossings on the selected AUXIN pin again give a period within 40–70 Hz, MAINS_LOST clears and the measured T is used again. -/
  | mainsMeasurementValid (us : BitVec 16 := mainsPeriod)
  /-- `VIO_RESTORED`, R414: An external VIO rises above 1.5 V again and the VIO-referenced pins leave high impedance and take their inputs again. -/
  | vioRestored
deriving DecidableEq, Repr

end Sys2Proof
end

