-- ==== Sys2Proof/Decode.lean ====
section
/-!
DEFINITION. The command that a word of the opcode table spells.  No row of spec/opcode_table.json gives bits: its rows are
operations of a protocol and events, which have no encoding of their own, so no word spells one.
-/
namespace Sys2Proof

/-- The command that the low `nbits` bits of `w` spell by the table: none, for no row gives bits. -/
def decodeTableWord (_nbits _w : Nat) : Option Instr := none

end Sys2Proof
end

