-- ==== Sys2Proof/Config.lean ====
section
/-!
DEFINITION. What one device fixes and the manual leaves open: opaque constants without a body, so that no proof can
see their values.  A fresh free value is `Config.free` applied to the counter `State.fresh`.
-/
namespace Sys2Proof.Config

/-- The next free value: nothing constrains it (notes/assumptions/12.md). -/
opaque free : Nat → Nat

/-- The stepping of the silicon (17_boot_images_recovery.md Table 17.9): 0 A0, 1 B0, 2 B1 and so on
(DESIGN CHOICE, notes/assumptions/9.md). -/
opaque stepping : Nat

/-- The linear factor, in units of 2^-48, of a gain of `num / (den * 128)` dB, before it is held to what R194 allows
(notes/assumptions/20.md). -/
opaque linearGain (num : Int) (den : Nat) : Int

/-- The product of a sample code and a gain of `num / (den * 128)` dB in a fade, before it is held to what that factor allows
(notes/assumptions/20.md). -/
opaque faded (num : Int) (den : Nat) (v : Int) : Int

/-- The magnitude, in Q1.31 codes, of a level of `num / (den * 128)` dBFS: which neighbour of the exact one
(notes/assumptions/20.md). -/
opaque levelOf (num : Int) (den : Nat) : Int

/-- SYNTH on the output of a rate converter in OFF, on which 05_alignment_and_rate_conversion.md R124 and Table 5.3
differ (notes/assumptions/22.md). -/
opaque asrcOffSynth : Bool

/-- The level in units of 2^-16 / 128 dB of a magnitude of `m` Q1.31 codes, or of a mean square of `m` codes squared: which
neighbour of the exact one (08_mixing_and_processing.md R208; notes/assumptions/23.md). -/
opaque levelDb (square : Bool) (m : Nat) : Int

/-- The next value of a one-pole approach of `x` to `t` with a time constant of `n` ticks: which neighbour of the exact one
(08_mixing_and_processing.md R208; notes/assumptions/23.md). -/
opaque onePole (n : Nat) (x t : Int) : Int

/-- The equal-power mix of an old and a new result in step `i` of a crossover of `l` ticks: which neighbour of the exact one
(07_fabric_schedule.md R178; notes/assumptions/23.md). -/
opaque equalPower (i l : Nat) (a b : Int) : Int

/-- The sample of a sine at a phase and a level of `num / (den * 128)` dB: which neighbour of the exact one
(08_mixing_and_processing.md Table 8.8; notes/assumptions/23.md). -/
opaque wave (phase : Nat) (num : Int) (den : Nat) : Int

/-- Sample `i` of the noise that the 32-bit generator of `seed` makes, white or pink, at a level whose peak code is `peak`, before it is
held to that level (Table 8.8; notes/assumptions/23.md). -/
opaque noise (pink : Bool) (seed i : Nat) (peak : Int) : Int

/-- The phase increment of a sweep from `f` to `e` over `n` ticks in its tick `i`: which neighbour of the exact one
(Table 8.8; notes/assumptions/23.md). -/
opaque sweepInc (f e n i : Nat) : Nat

/-- The 3 Hz high-pass of an amplifier channel at a rate of `fc` Hz: from its memory and a sample, its result and its new
memory (10_speaker_amplifier.md R245; notes/assumptions/24.md). -/
opaque highPass (fc : Nat) (mem : Int × Int) (x : Int) : Int × (Int × Int)

/-- High-pass filter `hpf` of an input at a rate of `fc` Hz: from its memory and a sample, its result and its new memory
(06_microphone_and_line_inputs.md R149; notes/assumptions/24.md). -/
opaque inputHighPass (hpf fc : Nat) (mem : Int × Int) (x : Int) : Int × (Int × Int)

end Sys2Proof.Config
end

