-- ==== Sys2Proof/Machine/Operands.lean ====
section
/-!
DEFINITION. The operand forms: bit fields of registers, signed fields, byte order, gain codes, rates.
-/
namespace Sys2Proof.Machine

/-- A field of a register: its address and its bit range (00_scope.md, How tables are read). -/
structure Fld where
  addr : Nat
  hi : Nat
  lo : Nat
deriving DecidableEq, Repr

/-- The number of bits of a field. -/
abbrev Fld.width (f : Fld) : Nat := f.hi + 1 - f.lo

/-- Bits `[lo + w - 1 : lo]` of `x`. -/
def bitsAt (x lo w : Nat) : Nat := x / 2 ^ lo % 2 ^ w

/-- `x` with bits `[lo + w - 1 : lo]` replaced by the low `w` bits of `v`. -/
def putBits (x lo w v : Nat) : Nat :=
  x / 2 ^ (lo + w) * 2 ^ (lo + w) + v % 2 ^ w * 2 ^ lo + x % 2 ^ lo

/-- A word from a number, modulo 2^32. -/
abbrev word (n : Nat) : Word := BitVec.ofNat 32 n

/-- The two's complement reading of the low `w` bits of `x`. -/
def signed (w x : Nat) : Int :=
  if x % 2 ^ w < 2 ^ (w - 1) then (x % 2 ^ w : Nat) else (x % 2 ^ w : Nat) - (2 ^ w : Nat)

/-- The `w`-bit two's complement code of `i`. -/
def unsigned (w : Nat) (i : Int) : Nat := (i % (2 ^ w : Nat)).toNat

/-- `x` limited to `lo … hi`. -/
def clampInt (lo hi x : Int) : Int := if x < lo then lo else if hi < x then hi else x

/-- A count of `w` bits that stops at its largest value, `k` more. -/
def satAdd (w x k : Nat) : Nat := min (x + k) (2 ^ w - 1)

/-- Bit `k` of `x`. -/
def bitOf (x k : Nat) : Bool := x / 2 ^ k % 2 == 1

/-- `x` with bit `k` set. -/
def withBit (x k : Nat) : Nat := putBits x k 1 1

/-- `x` with bit `k` clear. -/
def withoutBit (x k : Nat) : Nat := putBits x k 1 0

/-- The number of set bits among the low `w`. -/
def onesCount (w x : Nat) : Nat := ((List.range w).filter (bitOf x)).length

/-- The `n` bytes of `x`, lowest first (little-endian, R3). -/
def bytesLE (n x : Nat) : List Byte := (List.range n).map fun i => BitVec.ofNat 8 (x / 2 ^ (8 * i))

/-- The number whose bytes are `bs`, lowest first. -/
def ofBytesLE : List Byte → Nat
  | [] => 0
  | b :: bs => b.toNat + 256 * ofBytesLE bs

/-- `b` as a bit. -/
abbrev bit (b : Bool) : Nat := if b then 1 else 0

/-- A quotient rounded up. -/
def ceilDiv (a b : Nat) : Nat := (a + b - 1) / b

/-- The gain code stored for a written 16-bit code (R6): mute 0x8000 is kept, others are held to −120.00 … +24.00 dB. -/
def gainStore (v : Nat) : Nat :=
  if v % 65536 = 0x8000 then 0x8000 else unsigned 16 (clampInt (-15360) 3072 (signed 16 v))

/-- A glide field acts as 1 when it holds 0 (R7). -/
abbrev glideTicks (n : Nat) : Nat := max n 1

/-- The word rates of 02_clocks_and_time.md Table 2.2 by code, in Hz. -/
def rateHz (code : Nat) : Nat :=
  [8000, 11025, 12000, 16000, 22050, 24000, 32000, 44100, 48000, 64000, 88200, 96000, 128000, 176400, 192000, 256000,
   352800, 384000].getD code 0

/-- The family of a nominal rate code (Table 2.2): true for 44.1 kHz. -/
def rate441 (code : Nat) : Bool := [1, 4, 7, 10, 13, 16].contains code

/-- Whether a code names a rate of Table 2.2. -/
abbrev rateKnown (code : Nat) : Bool := code ≤ 0x11

end Sys2Proof.Machine
end

