-- ==== Sys2Proof/Machine/RegNames.lean ====
section
/-!
DEFINITION. The addresses of the registers and the places of their fields, one name each, as the field tables of
spec/ give them (18_register_pages.md Table 18.1 for the pages).  `Adr.PAGE_REGISTER` is an address and
`Fd.PAGE_REGISTER_FIELD` a field; `n` is the unit of a block with several pages, `k` the index of a repeated register.
-/
namespace Sys2Proof.Machine

/-! SYS: 17_boot_images_recovery.md -/
abbrev Adr.SYS_ID : Nat := 0x40000040
abbrev Adr.SYS_MODE : Nat := 0x40000044
abbrev Adr.SYS_ACCESS_ERR : Nat := 0x40000048
abbrev Adr.SYS_ACCESS_ADDR : Nat := 0x4000004C
/-! AON: 13_power_domains.md -/
abbrev Adr.AON_RESET_CAUSE : Nat := 0x40001040
abbrev Adr.AON_RESET : Nat := 0x40001044
abbrev Adr.AON_IRQ_WAKE : Nat := 0x40001048
abbrev Adr.AON_LIFT_CNT : Nat := 0x4000104C
abbrev Adr.AON_SCRATCH (k : Nat) : Nat := 0x40001050 + 4 * k
/-! PWR: 13_power_domains.md -/
abbrev Adr.PWR_DOM_CTRL (k : Nat) : Nat := 0x40002040 + 4 * k
abbrev Adr.PWR_DOM_STAT (k : Nat) : Nat := 0x40002100 + 8 * k
abbrev Adr.PWR_DOM_REFUSE (k : Nat) : Nat := 0x40002104 + 8 * k
abbrev Adr.PWR_PAD_HELD : Nat := 0x40002200
abbrev Adr.PWR_PAD_RELEASE : Nat := 0x40002204
abbrev Adr.PWR_CHANGE : Nat := 0x40002208
abbrev Adr.PWR_ABORTS : Nat := 0x4000220C
abbrev Adr.PWR_REG : Nat := 0x40002210
abbrev Adr.PWR_REG_STAT : Nat := 0x40002214
/-! CLK: 02_clocks_and_time.md -/
abbrev Adr.CLK_CORE : Nat := 0x40003040
abbrev Adr.CLK_REF_SEL : Nat := 0x40003044
abbrev Adr.CLK_PLL_STAT : Nat := 0x40003048
abbrev Adr.CLK_RELOCK : Nat := 0x4000304C
abbrev Adr.CLK_SNAP_MUTE : Nat := 0x40003050
abbrev Adr.CLK_SNAP_RETURN : Nat := 0x40003054
abbrev Adr.CLK_WCLK_OUT : Nat := 0x40003058
abbrev Adr.CLK_HOLD_CNT : Nat := 0x4000305C
abbrev Adr.CLK_HOLD_TIME : Nat := 0x40003060
abbrev Adr.CLK_MON_CFG (k : Nat) : Nat := 0x40003100 + 8 * k
abbrev Adr.CLK_MON_STAT (k : Nat) : Nat := 0x40003104 + 8 * k
abbrev Adr.CLK_MON_CNT (k : Nat) : Nat := 0x40003300 + 4 * k
/-! TIME: 02_clocks_and_time.md -/
abbrev Adr.TIME_SYSCNT_LO : Nat := 0x40004040
abbrev Adr.TIME_SYSCNT_HI : Nat := 0x40004044
abbrev Adr.TIME_TICKCNT_LO : Nat := 0x40004048
abbrev Adr.TIME_TICKCNT_HI : Nat := 0x4000404C
abbrev Adr.TIME_TICK_SYSCNT_LO : Nat := 0x40004050
abbrev Adr.TIME_TICK_SYSCNT_HI : Nat := 0x40004054
abbrev Adr.TIME_STATUS : Nat := 0x40004058
abbrev Adr.TIME_ENS_CTRL : Nat := 0x4000405C
abbrev Adr.TIME_ENS_COMP : Nat := 0x40004060
abbrev Adr.TIME_ENS_STAT : Nat := 0x40004064
abbrev Adr.TIME_ENS_INDEX : Nat := 0x40004068
/-! TIME: 05_alignment_and_rate_conversion.md -/
abbrev Adr.TIME_GRP_CTRL (k : Nat) : Nat := 0x40004100 + 64 * k
abbrev Adr.TIME_GRP_MEMBERS_LO (k : Nat) : Nat := 0x40004104 + 64 * k
abbrev Adr.TIME_GRP_MEMBERS_HI (k : Nat) : Nat := 0x40004108 + 64 * k
abbrev Adr.TIME_GRP_DELAY (k : Nat) : Nat := 0x4000410C + 64 * k
abbrev Adr.TIME_GRP_SNOW (k : Nat) : Nat := 0x40004110 + 64 * k
abbrev Adr.TIME_GRP_STAT (k : Nat) : Nat := 0x40004114 + 64 * k
abbrev Adr.TIME_GRP_LATE_CNT (k : Nat) : Nat := 0x40004118 + 64 * k
abbrev Adr.TIME_GRP_TS_LOST (k : Nat) : Nat := 0x4000411C + 64 * k
abbrev Adr.TIME_GRP_ERR (k : Nat) : Nat := 0x40004120 + 64 * k
abbrev Adr.TIME_GRP_EVT_STATUS (k : Nat) : Nat := 0x40004124 + 64 * k
abbrev Adr.TIME_GRP_EVT_ENABLE (k : Nat) : Nat := 0x40004128 + 64 * k
/-! FUSE: 17_boot_images_recovery.md -/
abbrev Adr.FUSE_LIFE : Nat := 0x40005040
abbrev Adr.FUSE_OPTS : Nat := 0x40005044
abbrev Adr.FUSE_KEY_HASH (k : Nat) : Nat := 0x40005048 + 4 * k
abbrev Adr.FUSE_PROG : Nat := 0x40005068
abbrev Adr.FUSE_PROG_STAT : Nat := 0x4000506C
abbrev Adr.FUSE_RAW (k : Nat) : Nat := 0x40005080 + 4 * k
/-! BOOT: 17_boot_images_recovery.md -/
abbrev Adr.BOOT_CFG : Nat := 0x40006040
abbrev Adr.BOOT_LOAD_CTRL : Nat := 0x40006044
abbrev Adr.BOOT_CTRL : Nat := 0x40006048
abbrev Adr.BOOT_LOAD_PAGE : Nat := 0x4000604C
abbrev Adr.BOOT_LOAD_STAT : Nat := 0x40006050
abbrev Adr.BOOT_SUPP_VER : Nat := 0x40006054
abbrev Adr.BOOT_SVC_VER : Nat := 0x40006058
abbrev Adr.BOOT_EPOCHS : Nat := 0x4000605C
abbrev Adr.BOOT_SVC_STAT : Nat := 0x40006060
abbrev Adr.BOOT_WINDOW (k : Nat) : Nat := 0x40006800 + 4 * k
/-! DBG: 17_boot_images_recovery.md -/
abbrev Adr.DBG_CTRL : Nat := 0x40007040
abbrev Adr.DBG_STATUS : Nat := 0x40007044
/-! CP: 14_control_ports.md -/
abbrev Adr.CP_IRQ_CFG (n : Nat) : Nat := 0x40008040 + 0x1000 * n
abbrev Adr.CP_IRQ_STAT (n : Nat) : Nat := 0x40008044 + 0x1000 * n
abbrev Adr.CP_SESSION (n : Nat) : Nat := 0x40008048 + 0x1000 * n
abbrev Adr.CP_HOST_ID (n : Nat) : Nat := 0x4000804C + 0x1000 * n
abbrev Adr.CP_LEASE (n : Nat) : Nat := 0x40008050 + 0x1000 * n
abbrev Adr.CP_SEQ (n : Nat) : Nat := 0x40008054 + 0x1000 * n
abbrev Adr.CP_CREDITS (n : Nat) : Nat := 0x40008058 + 0x1000 * n
abbrev Adr.CP_RX_CNT (n : Nat) : Nat := 0x4000805C + 0x1000 * n
abbrev Adr.CP_ERR_CNT0 (n : Nat) : Nat := 0x40008060 + 0x1000 * n
abbrev Adr.CP_ERR_CNT1 (n : Nat) : Nat := 0x40008064 + 0x1000 * n
abbrev Adr.CP_ERR_CNT2 (n : Nat) : Nat := 0x40008068 + 0x1000 * n
abbrev Adr.CP_SES_CNT (n : Nat) : Nat := 0x4000806C + 0x1000 * n
abbrev Adr.CP_XPORT (n : Nat) : Nat := 0x40008070 + 0x1000 * n
/-! RING: 16_rings_events_books.md -/
abbrev Adr.RING_GRAN_A : Nat := 0x4000C040
abbrev Adr.RING_GRAN_B : Nat := 0x4000C044
abbrev Adr.RING_CAP_T0 (k : Nat) : Nat := 0x4000C048 + 4 * k
abbrev Adr.RING_CAP_LOSTTICK (k : Nat) : Nat := 0x4000C050 + 4 * k
abbrev Adr.RING_INJ_CFG : Nat := 0x4000C058
abbrev Adr.RING_INJ_CNT : Nat := 0x4000C05C
abbrev Adr.RING_WM_STATUS : Nat := 0x4000C060
abbrev Adr.RING_WM_ENABLE : Nat := 0x4000C064
abbrev Adr.RING_GRAN_C : Nat := 0x4000C068
abbrev Adr.RING_RING_CFG (k : Nat) : Nat := 0x4000C100 + 16 * k
abbrev Adr.RING_RING_PROD (k : Nat) : Nat := 0x4000C104 + 16 * k
abbrev Adr.RING_RING_CONS (k : Nat) : Nat := 0x4000C108 + 16 * k
abbrev Adr.RING_RING_WM (k : Nat) : Nat := 0x4000C10C + 16 * k
/-! TXN: 15_transactions_and_hosts.md -/
abbrev Adr.TXN_CFG : Nat := 0x4000D040
abbrev Adr.TXN_BIBS : Nat := 0x4000D044
abbrev Adr.TXN_STAGING : Nat := 0x4000D048
abbrev Adr.TXN_COMMIT_CNT : Nat := 0x4000D04C
abbrev Adr.TXN_ABORT_CNT : Nat := 0x4000D050
abbrev Adr.TXN_LAST_ABORT : Nat := 0x4000D054
abbrev Adr.TXN_LAST_PAGE : Nat := 0x4000D058
abbrev Adr.TXN_SLOT_A (k : Nat) : Nat := 0x4000D100 + 8 * k
abbrev Adr.TXN_SLOT_B (k : Nat) : Nat := 0x4000D104 + 8 * k
/-! CRC: 12_crc_engines.md -/
abbrev Adr.CRC_CFG (k : Nat) : Nat := 0x4000E040 + 128 * k
abbrev Adr.CRC_POLY (k : Nat) : Nat := 0x4000E044 + 128 * k
abbrev Adr.CRC_INIT (k : Nat) : Nat := 0x4000E048 + 128 * k
abbrev Adr.CRC_XOROUT (k : Nat) : Nat := 0x4000E04C + 128 * k
abbrev Adr.CRC_CTRL (k : Nat) : Nat := 0x4000E050 + 128 * k
abbrev Adr.CRC_STATUS (k : Nat) : Nat := 0x4000E054 + 128 * k
abbrev Adr.CRC_COUNT (k : Nat) : Nat := 0x4000E058 + 128 * k
abbrev Adr.CRC_RESULT (k : Nat) : Nat := 0x4000E05C + 128 * k
abbrev Adr.CRC_RAW (k : Nat) : Nat := 0x4000E060 + 128 * k
abbrev Adr.CRC_DATA8 (k : Nat) : Nat := 0x4000E064 + 128 * k
abbrev Adr.CRC_DATA16 (k : Nat) : Nat := 0x4000E068 + 128 * k
abbrev Adr.CRC_DATA32 (k : Nat) : Nat := 0x4000E06C + 128 * k
abbrev Adr.CRC_OWN (k : Nat) : Nat := 0x4000E070 + 128 * k
/-! DUMP: 17_boot_images_recovery.md -/
abbrev Adr.DUMP_CTRL : Nat := 0x4000F040
abbrev Adr.DUMP_STATUS : Nat := 0x4000F044
abbrev Adr.DUMP_LEN : Nat := 0x4000F048
abbrev Adr.DUMP_LOST_CNT : Nat := 0x4000F04C
/-! FAB: 07_fabric_schedule.md -/
abbrev Adr.FAB_CTRL : Nat := 0x40010040
abbrev Adr.FAB_SWAP : Nat := 0x40010044
abbrev Adr.FAB_XOVER : Nat := 0x40010048
abbrev Adr.FAB_START_GLIDE : Nat := 0x4001004C
abbrev Adr.FAB_STAT : Nat := 0x40010050
abbrev Adr.FAB_COPY : Nat := 0x40010054
abbrev Adr.FAB_CHECK : Nat := 0x40010058
abbrev Adr.FAB_LIMIT : Nat := 0x4001005C
abbrev Adr.FAB_CHECK_COST : Nat := 0x40010060
abbrev Adr.FAB_CROSSING : Nat := 0x40010064
abbrev Adr.FAB_RUN_COST : Nat := 0x40010068
abbrev Adr.FAB_GATE_MISS_CNT : Nat := 0x40010070
abbrev Adr.FAB_GATE_LAST : Nat := 0x40010074
abbrev Adr.FAB_GATE_INFO : Nat := 0x40010078
abbrev Adr.FAB_MAX_LOAD : Nat := 0x4001007C
abbrev Adr.FAB_STAGE_COST (k : Nat) : Nat := 0x40010080 + 4 * k
/-! MIX: 08_mixing_and_processing.md -/
abbrev Adr.MIX_DEF_GLIDE : Nat := 0x40011040
abbrev Adr.MIX_BUS_CFG (k : Nat) : Nat := 0x40011100 + 8 * k
abbrev Adr.MIX_BUS_STAT (k : Nat) : Nat := 0x40011104 + 8 * k
/-! PROC: 08_mixing_and_processing.md -/
abbrev Adr.PROC_POOL_A : Nat := 0x40012040
abbrev Adr.PROC_POOL_B : Nat := 0x40012044
abbrev Adr.PROC_DLY_GRAN : Nat := 0x40012048
abbrev Adr.PROC_DLY_LINES : Nat := 0x4001204C
/-! ASRC: 05_alignment_and_rate_conversion.md -/
abbrev Adr.ASRC_GLIDE_IN : Nat := 0x40013040
abbrev Adr.ASRC_LOCKED (k : Nat) : Nat := 0x40013044 + 4 * k
abbrev Adr.ASRC_CH_CFG (k : Nat) : Nat := 0x40013100 + 16 * k
abbrev Adr.ASRC_CH_STAT (k : Nat) : Nat := 0x40013104 + 16 * k
abbrev Adr.ASRC_CH_RATIO (k : Nat) : Nat := 0x40013108 + 16 * k
abbrev Adr.ASRC_CH_CNT (k : Nat) : Nat := 0x4001310C + 16 * k
/-! JACK: 09_line_headphone_jacks.md -/
abbrev Adr.JACK_LEVELS : Nat := 0x40014040
abbrev Adr.JACK_CNT : Nat := 0x40014044
abbrev Adr.JACK_CHANGED : Nat := 0x40014048
abbrev Adr.JACK_JCFG (k : Nat) : Nat := 0x40014100 + 8 * k
abbrev Adr.JACK_JSTAT (k : Nat) : Nat := 0x40014104 + 8 * k
abbrev Adr.JACK_RULE_A (k : Nat) : Nat := 0x40014200 + 8 * k
abbrev Adr.JACK_RULE_B (k : Nat) : Nat := 0x40014204 + 8 * k
/-! AMPSYS: 10_speaker_amplifier.md -/
abbrev Adr.AMPSYS_CFG : Nat := 0x40015040
abbrev Adr.AMPSYS_SAG : Nat := 0x40015044
abbrev Adr.AMPSYS_PVDD : Nat := 0x40015048
abbrev Adr.AMPSYS_STATUS : Nat := 0x4001504C
/-! HKA: 11_housekeeping_converter.md -/
abbrev Adr.HKA_MAINS : Nat := 0x40016040
abbrev Adr.HKA_TIMER (k : Nat) : Nat := 0x40016044 + 4 * k
abbrev Adr.HKA_URGENT : Nat := 0x40016054
abbrev Adr.HKA_STATUS : Nat := 0x40016058
abbrev Adr.HKA_WIN_STATE : Nat := 0x4001605C
abbrev Adr.HKA_WIN_CFG (k : Nat) : Nat := 0x40016100 + 16 * k
abbrev Adr.HKA_WIN_LOW (k : Nat) : Nat := 0x40016104 + 16 * k
abbrev Adr.HKA_WIN_HIGH (k : Nat) : Nat := 0x40016108 + 16 * k
abbrev Adr.HKA_WIN_HYST (k : Nat) : Nat := 0x4001610C + 16 * k
abbrev Adr.HKA_LAST (k : Nat) : Nat := 0x40016200 + 4 * k
/-! HKSEQ: 11_housekeeping_converter.md -/
abbrev Adr.HKSEQ_SEQ_CFG (k : Nat) : Nat := 0x40017040 + 16 * k
abbrev Adr.HKSEQ_SEQ_TRIG (k : Nat) : Nat := 0x40017044 + 16 * k
abbrev Adr.HKSEQ_SEQ_STAT (k : Nat) : Nat := 0x40017048 + 16 * k
abbrev Adr.HKSEQ_SEQ_CNT (k : Nat) : Nat := 0x4001704C + 16 * k
abbrev Adr.HKSEQ_SEQ_GO : Nat := 0x40017070
abbrev Adr.HKSEQ_POP_LO (k : Nat) : Nat := 0x40017080 + 16 * k
abbrev Adr.HKSEQ_POP_HI (k : Nat) : Nat := 0x40017084 + 16 * k
abbrev Adr.HKSEQ_PEEK_LO (k : Nat) : Nat := 0x40017088 + 16 * k
abbrev Adr.HKSEQ_PEEK_HI (k : Nat) : Nat := 0x4001708C + 16 * k
abbrev Adr.HKSEQ_LOST (k : Nat) : Nat := 0x400170C0 + 4 * k
abbrev Adr.HKSEQ_ENTRY (k : Nat) : Nat := 0x40017100 + 4 * k
/-! TDAC: 11_housekeeping_converter.md -/
abbrev Adr.TDAC_CTRL : Nat := 0x40018040
abbrev Adr.TDAC_CODE : Nat := 0x40018044
abbrev Adr.TDAC_STATUS : Nat := 0x40018048
/-! SAP: 03_serial_audio_ports.md -/
abbrev Adr.SAP_CTRL (n : Nat) : Nat := 0x40020040 + 0x1000 * n
abbrev Adr.SAP_FMT (n : Nat) : Nat := 0x40020044 + 0x1000 * n
abbrev Adr.SAP_CLKCFG (n : Nat) : Nat := 0x40020048 + 0x1000 * n
abbrev Adr.SAP_LINE (n : Nat) : Nat := 0x4002004C + 0x1000 * n
abbrev Adr.SAP_ZC (n : Nat) : Nat := 0x40020050 + 0x1000 * n
abbrev Adr.SAP_STATE (n : Nat) : Nat := 0x40020054 + 0x1000 * n
abbrev Adr.SAP_STAMP_LO (n : Nat) : Nat := 0x40020058 + 0x1000 * n
abbrev Adr.SAP_STAMP_HI (n : Nat) : Nat := 0x4002005C + 0x1000 * n
abbrev Adr.SAP_BLOCK_CNT (n : Nat) : Nat := 0x40020060 + 0x1000 * n
abbrev Adr.SAP_FRAMING_CNT (n : Nat) : Nat := 0x40020064 + 0x1000 * n
abbrev Adr.SAP_PDM (n : Nat) : Nat := 0x40020068 + 0x1000 * n
abbrev Adr.SAP_CNT_CTRL (n : Nat) : Nat := 0x4002006C + 0x1000 * n
abbrev Adr.SAP_FRAMES_IN (n k : Nat) : Nat := 0x40020080 + 0x1000 * n + 32 * k
abbrev Adr.SAP_FRAMES_OUT (n k : Nat) : Nat := 0x40020084 + 0x1000 * n + 32 * k
abbrev Adr.SAP_FILL (n k : Nat) : Nat := 0x40020088 + 0x1000 * n + 32 * k
abbrev Adr.SAP_DROPPED (n k : Nat) : Nat := 0x4002008C + 0x1000 * n + 32 * k
abbrev Adr.SAP_INSERTED (n k : Nat) : Nat := 0x40020090 + 0x1000 * n + 32 * k
/-! SAP: 04_aes3_ports.md -/
abbrev Adr.SAP_AES_CFG (n : Nat) : Nat := 0x40020100 + 0x1000 * n
abbrev Adr.SAP_AES_RX_STAT (n : Nat) : Nat := 0x40020104 + 0x1000 * n
abbrev Adr.SAP_AES_TX_CTRL (n : Nat) : Nat := 0x40020108 + 0x1000 * n
abbrev Adr.SAP_AES_ERR_CNT (n : Nat) : Nat := 0x4002010C + 0x1000 * n
abbrev Adr.SAP_AES_CS_CNT (n : Nat) : Nat := 0x40020110 + 0x1000 * n
abbrev Adr.SAP_AES_EVT_STATUS (n : Nat) : Nat := 0x40020114 + 0x1000 * n
abbrev Adr.SAP_AES_EVT_ENABLE (n : Nat) : Nat := 0x40020118 + 0x1000 * n
abbrev Adr.SAP_AES_RX_CS_A (n k : Nat) : Nat := 0x40020120 + 0x1000 * n + 4 * k
abbrev Adr.SAP_AES_RX_CS_B (n k : Nat) : Nat := 0x40020140 + 0x1000 * n + 4 * k
abbrev Adr.SAP_AES_TX_CS_A (n k : Nat) : Nat := 0x40020160 + 0x1000 * n + 4 * k
abbrev Adr.SAP_AES_TX_CS_B (n k : Nat) : Nat := 0x40020180 + 0x1000 * n + 4 * k
/-! AIN: 06_microphone_and_line_inputs.md -/
abbrev Adr.AIN_CTRL (n : Nat) : Nat := 0x40040040 + 0x1000 * n
abbrev Adr.AIN_GAIN (n : Nat) : Nat := 0x40040044 + 0x1000 * n
abbrev Adr.AIN_GAIN_GLIDE (n : Nat) : Nat := 0x40040048 + 0x1000 * n
abbrev Adr.AIN_FILTER (n : Nat) : Nat := 0x4004004C + 0x1000 * n
abbrev Adr.AIN_ZC (n : Nat) : Nat := 0x40040050 + 0x1000 * n
abbrev Adr.AIN_PHANTOM (n : Nat) : Nat := 0x40040054 + 0x1000 * n
abbrev Adr.AIN_PH_TIME (n : Nat) : Nat := 0x40040058 + 0x1000 * n
abbrev Adr.AIN_STATUS (n : Nat) : Nat := 0x4004005C + 0x1000 * n
abbrev Adr.AIN_PH_CURRENT (n : Nat) : Nat := 0x40040060 + 0x1000 * n
abbrev Adr.AIN_APPLIED_GAIN (n : Nat) : Nat := 0x40040064 + 0x1000 * n
abbrev Adr.AIN_DIAG (n : Nat) : Nat := 0x40040068 + 0x1000 * n
abbrev Adr.AIN_DIAG_RES (n : Nat) : Nat := 0x4004006C + 0x1000 * n
abbrev Adr.AIN_DIAG_RP (n : Nat) : Nat := 0x40040070 + 0x1000 * n
abbrev Adr.AIN_DIAG_RN (n : Nat) : Nat := 0x40040074 + 0x1000 * n
abbrev Adr.AIN_DIAG_RD (n : Nat) : Nat := 0x40040078 + 0x1000 * n
abbrev Adr.AIN_CNT (n : Nat) : Nat := 0x4004007C + 0x1000 * n
abbrev Adr.AIN_PHM_STAT (n : Nat) : Nat := 0x40040100 + 0x1000 * n
abbrev Adr.AIN_PHM_CNT (n : Nat) : Nat := 0x40040104 + 0x1000 * n
/-! AOUT: 09_line_headphone_jacks.md -/
abbrev Adr.AOUT_CTRL (n : Nat) : Nat := 0x40050040 + 0x1000 * n
abbrev Adr.AOUT_GAIN (n : Nat) : Nat := 0x40050044 + 0x1000 * n
abbrev Adr.AOUT_GLIDE (n : Nat) : Nat := 0x40050048 + 0x1000 * n
abbrev Adr.AOUT_START (n : Nat) : Nat := 0x4005004C + 0x1000 * n
abbrev Adr.AOUT_STATUS (n : Nat) : Nat := 0x40050050 + 0x1000 * n
/-! HP: 09_line_headphone_jacks.md -/
abbrev Adr.HP_CTRL (n : Nat) : Nat := 0x40060040 + 0x1000 * n
abbrev Adr.HP_GAIN (n k : Nat) : Nat := 0x40060044 + 0x1000 * n + 4 * k
abbrev Adr.HP_GLIDE (n : Nat) : Nat := 0x4006004C + 0x1000 * n
abbrev Adr.HP_STATUS (n : Nat) : Nat := 0x40060050 + 0x1000 * n
abbrev Adr.HP_LOAD (n k : Nat) : Nat := 0x40060054 + 0x1000 * n + 4 * k
/-! AMP: 10_speaker_amplifier.md -/
abbrev Adr.AMP_CTRL (n : Nat) : Nat := 0x40068040 + 0x1000 * n
abbrev Adr.AMP_GAIN (n : Nat) : Nat := 0x40068044 + 0x1000 * n
abbrev Adr.AMP_GLIDE (n : Nat) : Nat := 0x40068048 + 0x1000 * n
abbrev Adr.AMP_CFG (n : Nat) : Nat := 0x4006804C + 0x1000 * n
abbrev Adr.AMP_OCP (n : Nat) : Nat := 0x40068050 + 0x1000 * n
abbrev Adr.AMP_STATUS (n : Nat) : Nat := 0x40068054 + 0x1000 * n
abbrev Adr.AMP_LIMIT (n : Nat) : Nat := 0x40068058 + 0x1000 * n
abbrev Adr.AMP_TEMP (n : Nat) : Nat := 0x4006805C + 0x1000 * n
abbrev Adr.AMP_DC (n : Nat) : Nat := 0x40068060 + 0x1000 * n
abbrev Adr.AMP_CNT (n : Nat) : Nat := 0x40068064 + 0x1000 * n
/-! GSLOT: 08_mixing_and_processing.md -/
abbrev Adr.GSLOT_SLOT0 (n : Nat) : Nat := 0x50040000 + 8 * n
abbrev Adr.GSLOT_SLOT1 (n : Nat) : Nat := 0x50040004 + 8 * n
/-! BIQUAD: 08_mixing_and_processing.md -/
abbrev Adr.BIQUAD_B0 (n : Nat) : Nat := 0x50048000 + 32 * n
abbrev Adr.BIQUAD_B1 (n : Nat) : Nat := 0x50048004 + 32 * n
abbrev Adr.BIQUAD_B2 (n : Nat) : Nat := 0x50048008 + 32 * n
abbrev Adr.BIQUAD_A1 (n : Nat) : Nat := 0x5004800C + 32 * n
abbrev Adr.BIQUAD_A2 (n : Nat) : Nat := 0x50048010 + 32 * n
abbrev Adr.BIQUAD_CTL (n : Nat) : Nat := 0x50048014 + 32 * n
/-! DYN: 08_mixing_and_processing.md -/
abbrev Adr.DYN_CTL (n : Nat) : Nat := 0x50050000 + 64 * n
abbrev Adr.DYN_THRESH (n : Nat) : Nat := 0x50050004 + 64 * n
abbrev Adr.DYN_RATIO (n : Nat) : Nat := 0x50050008 + 64 * n
abbrev Adr.DYN_KNEE (n : Nat) : Nat := 0x5005000C + 64 * n
abbrev Adr.DYN_ATTACK (n : Nat) : Nat := 0x50050010 + 64 * n
abbrev Adr.DYN_RELEASE (n : Nat) : Nat := 0x50050014 + 64 * n
abbrev Adr.DYN_HOLD (n : Nat) : Nat := 0x50050018 + 64 * n
abbrev Adr.DYN_RANGE (n : Nat) : Nat := 0x5005001C + 64 * n
abbrev Adr.DYN_MAKEUP (n : Nat) : Nat := 0x50050020 + 64 * n
abbrev Adr.DYN_GR (n : Nat) : Nat := 0x5005003C + 64 * n
/-! DELAY: 08_mixing_and_processing.md -/
abbrev Adr.DELAY_CTL (n : Nat) : Nat := 0x50054000 + 16 * n
abbrev Adr.DELAY_DELAY (n : Nat) : Nat := 0x50054004 + 16 * n
abbrev Adr.DELAY_MAXLEN (n : Nat) : Nat := 0x50054008 + 16 * n
abbrev Adr.DELAY_STAT (n : Nat) : Nat := 0x5005400C + 16 * n
/-! GEN: 08_mixing_and_processing.md -/
abbrev Adr.GEN_CTL (n : Nat) : Nat := 0x50056000 + 64 * n
abbrev Adr.GEN_LEVEL (n : Nat) : Nat := 0x50056004 + 64 * n
abbrev Adr.GEN_GLIDE (n : Nat) : Nat := 0x50056008 + 64 * n
abbrev Adr.GEN_FREQ (n : Nat) : Nat := 0x5005600C + 64 * n
abbrev Adr.GEN_FREQ_END (n : Nat) : Nat := 0x50056010 + 64 * n
abbrev Adr.GEN_SWEEP (n : Nat) : Nat := 0x50056014 + 64 * n
abbrev Adr.GEN_SEED (n : Nat) : Nat := 0x50056018 + 64 * n

/-! SYS: 17_boot_images_recovery.md -/
abbrev Fd.SYS_ID_PART : Fld := ⟨Adr.SYS_ID, 31, 16⟩
abbrev Fd.SYS_ID_STEPPING : Fld := ⟨Adr.SYS_ID, 7, 0⟩
abbrev Fd.SYS_MODE_MODE : Fld := ⟨Adr.SYS_MODE, 31, 30⟩
abbrev Fd.SYS_MODE_BOOT_PHASE : Fld := ⟨Adr.SYS_MODE, 29, 29⟩
abbrev Fd.SYS_MODE_UNTESTED : Fld := ⟨Adr.SYS_MODE, 28, 28⟩
abbrev Fd.SYS_ACCESS_ERR_COUNT : Fld := ⟨Adr.SYS_ACCESS_ERR, 31, 16⟩
abbrev Fd.SYS_ACCESS_ERR_KIND : Fld := ⟨Adr.SYS_ACCESS_ERR, 15, 14⟩
abbrev Fd.SYS_ACCESS_ERR_PORT : Fld := ⟨Adr.SYS_ACCESS_ERR, 13, 12⟩
abbrev Fd.SYS_ACCESS_ERR_WRITE : Fld := ⟨Adr.SYS_ACCESS_ERR, 11, 11⟩
abbrev Fd.SYS_ACCESS_ADDR_ADDR : Fld := ⟨Adr.SYS_ACCESS_ADDR, 31, 0⟩
/-! AON: 13_power_domains.md -/
abbrev Fd.AON_RESET_CAUSE_CAUSE : Fld := ⟨Adr.AON_RESET_CAUSE, 4, 0⟩
abbrev Fd.AON_RESET_KEY : Fld := ⟨Adr.AON_RESET, 7, 0⟩
abbrev Fd.AON_IRQ_WAKE_PORTS : Fld := ⟨Adr.AON_IRQ_WAKE, 3, 0⟩
abbrev Fd.AON_LIFT_CNT_NACK : Fld := ⟨Adr.AON_LIFT_CNT, 31, 16⟩
abbrev Fd.AON_LIFT_CNT_COUNT : Fld := ⟨Adr.AON_LIFT_CNT, 15, 0⟩
abbrev Fd.AON_SCRATCH_DATA (k : Nat) : Fld := ⟨(Adr.AON_SCRATCH k), 31, 0⟩
/-! PWR: 13_power_domains.md -/
abbrev Fd.PWR_DOM_CTRL_AUTOWAKE (k : Nat) : Fld := ⟨(Adr.PWR_DOM_CTRL k), 2, 2⟩
abbrev Fd.PWR_DOM_CTRL_TARGET (k : Nat) : Fld := ⟨(Adr.PWR_DOM_CTRL k), 1, 0⟩
abbrev Fd.PWR_DOM_STAT_STATE (k : Nat) : Fld := ⟨(Adr.PWR_DOM_STAT k), 31, 29⟩
abbrev Fd.PWR_DOM_STAT_RET_LOST (k : Nat) : Fld := ⟨(Adr.PWR_DOM_STAT k), 28, 28⟩
abbrev Fd.PWR_DOM_STAT_PAD_HELD (k : Nat) : Fld := ⟨(Adr.PWR_DOM_STAT k), 27, 27⟩
abbrev Fd.PWR_DOM_REFUSE_CAUSE (k : Nat) : Fld := ⟨(Adr.PWR_DOM_REFUSE k), 31, 28⟩
abbrev Fd.PWR_DOM_REFUSE_REFUSER (k : Nat) : Fld := ⟨(Adr.PWR_DOM_REFUSE k), 25, 16⟩
abbrev Fd.PWR_DOM_REFUSE_COUNT (k : Nat) : Fld := ⟨(Adr.PWR_DOM_REFUSE k), 15, 0⟩
abbrev Fd.PWR_PAD_HELD_GROUPS : Fld := ⟨Adr.PWR_PAD_HELD, 26, 0⟩
abbrev Fd.PWR_PAD_RELEASE_GROUPS : Fld := ⟨Adr.PWR_PAD_RELEASE, 26, 0⟩
abbrev Fd.PWR_CHANGE_PHASE : Fld := ⟨Adr.PWR_CHANGE, 31, 30⟩
abbrev Fd.PWR_CHANGE_DOMAIN : Fld := ⟨Adr.PWR_CHANGE, 20, 16⟩
abbrev Fd.PWR_CHANGE_BIB : Fld := ⟨Adr.PWR_CHANGE, 15, 0⟩
abbrev Fd.PWR_ABORTS_COUNT : Fld := ⟨Adr.PWR_ABORTS, 31, 16⟩
abbrev Fd.PWR_ABORTS_CAUSE : Fld := ⟨Adr.PWR_ABORTS, 15, 12⟩
abbrev Fd.PWR_ABORTS_DOMAIN : Fld := ⟨Adr.PWR_ABORTS, 4, 0⟩
abbrev Fd.PWR_REG_LP_ACTIVE : Fld := ⟨Adr.PWR_REG, 1, 1⟩
abbrev Fd.PWR_REG_LP_EN : Fld := ⟨Adr.PWR_REG, 0, 0⟩
abbrev Fd.PWR_REG_STAT_BROWNOUT_CNT : Fld := ⟨Adr.PWR_REG_STAT, 31, 16⟩
abbrev Fd.PWR_REG_STAT_RAIL : Fld := ⟨Adr.PWR_REG_STAT, 15, 0⟩
/-! CLK: 02_clocks_and_time.md -/
abbrev Fd.CLK_CORE_FAMILY : Fld := ⟨Adr.CLK_CORE, 2, 2⟩
abbrev Fd.CLK_CORE_MULT : Fld := ⟨Adr.CLK_CORE, 1, 0⟩
abbrev Fd.CLK_REF_SEL_SRC : Fld := ⟨Adr.CLK_REF_SEL, 6, 0⟩
abbrev Fd.CLK_PLL_STAT_STATE : Fld := ⟨Adr.CLK_PLL_STAT, 31, 29⟩
abbrev Fd.CLK_PLL_STAT_FREQ_OFFSET : Fld := ⟨Adr.CLK_PLL_STAT, 15, 0⟩
abbrev Fd.CLK_RELOCK_SLEW_MAX : Fld := ⟨Adr.CLK_RELOCK, 15, 4⟩
abbrev Fd.CLK_RELOCK_POLICY : Fld := ⟨Adr.CLK_RELOCK, 0, 0⟩
abbrev Fd.CLK_SNAP_MUTE_TICKS : Fld := ⟨Adr.CLK_SNAP_MUTE, 19, 0⟩
abbrev Fd.CLK_SNAP_RETURN_TICKS : Fld := ⟨Adr.CLK_SNAP_RETURN, 19, 0⟩
abbrev Fd.CLK_WCLK_OUT_INVERT : Fld := ⟨Adr.CLK_WCLK_OUT, 2, 2⟩
abbrev Fd.CLK_WCLK_OUT_RATE : Fld := ⟨Adr.CLK_WCLK_OUT, 1, 0⟩
abbrev Fd.CLK_HOLD_CNT_COUNT : Fld := ⟨Adr.CLK_HOLD_CNT, 15, 0⟩
abbrev Fd.CLK_HOLD_TIME_MS : Fld := ⟨Adr.CLK_HOLD_TIME, 31, 0⟩
abbrev Fd.CLK_MON_CFG_GLITCH_LIMIT (k : Nat) : Fld := ⟨(Adr.CLK_MON_CFG k), 15, 12⟩
abbrev Fd.CLK_MON_CFG_RATIO (k : Nat) : Fld := ⟨(Adr.CLK_MON_CFG k), 3, 1⟩
abbrev Fd.CLK_MON_CFG_ENABLE (k : Nat) : Fld := ⟨(Adr.CLK_MON_CFG k), 0, 0⟩
abbrev Fd.CLK_MON_STAT_STATE (k : Nat) : Fld := ⟨(Adr.CLK_MON_STAT k), 31, 30⟩
abbrev Fd.CLK_MON_STAT_NOMINAL (k : Nat) : Fld := ⟨(Adr.CLK_MON_STAT k), 29, 25⟩
abbrev Fd.CLK_MON_STAT_OFFSET_PPM (k : Nat) : Fld := ⟨(Adr.CLK_MON_STAT k), 15, 0⟩
abbrev Fd.CLK_MON_CNT_LOSS_CNT (k : Nat) : Fld := ⟨(Adr.CLK_MON_CNT k), 31, 16⟩
abbrev Fd.CLK_MON_CNT_GLITCH_CNT (k : Nat) : Fld := ⟨(Adr.CLK_MON_CNT k), 15, 0⟩
/-! TIME: 02_clocks_and_time.md -/
abbrev Fd.TIME_SYSCNT_LO_SYSCNT : Fld := ⟨Adr.TIME_SYSCNT_LO, 31, 0⟩
abbrev Fd.TIME_SYSCNT_HI_SYSCNT : Fld := ⟨Adr.TIME_SYSCNT_HI, 31, 0⟩
abbrev Fd.TIME_TICKCNT_LO_TICKCNT : Fld := ⟨Adr.TIME_TICKCNT_LO, 31, 0⟩
abbrev Fd.TIME_TICKCNT_HI_TICKCNT : Fld := ⟨Adr.TIME_TICKCNT_HI, 15, 0⟩
abbrev Fd.TIME_TICK_SYSCNT_LO_SYSCNT : Fld := ⟨Adr.TIME_TICK_SYSCNT_LO, 31, 0⟩
abbrev Fd.TIME_TICK_SYSCNT_HI_SYSCNT : Fld := ⟨Adr.TIME_TICK_SYSCNT_HI, 31, 0⟩
abbrev Fd.TIME_STATUS_HOP : Fld := ⟨Adr.TIME_STATUS, 12, 4⟩
abbrev Fd.TIME_STATUS_ENS_LOST : Fld := ⟨Adr.TIME_STATUS, 3, 3⟩
abbrev Fd.TIME_STATUS_JOINED : Fld := ⟨Adr.TIME_STATUS, 2, 2⟩
abbrev Fd.TIME_STATUS_AGREE : Fld := ⟨Adr.TIME_STATUS, 1, 1⟩
abbrev Fd.TIME_STATUS_COARSE : Fld := ⟨Adr.TIME_STATUS, 0, 0⟩
abbrev Fd.TIME_ENS_CTRL_REJOIN : Fld := ⟨Adr.TIME_ENS_CTRL, 3, 3⟩
abbrev Fd.TIME_ENS_CTRL_REPEAT : Fld := ⟨Adr.TIME_ENS_CTRL, 2, 2⟩
abbrev Fd.TIME_ENS_CTRL_ROLE : Fld := ⟨Adr.TIME_ENS_CTRL, 1, 0⟩
abbrev Fd.TIME_ENS_COMP_COMP : Fld := ⟨Adr.TIME_ENS_COMP, 19, 0⟩
abbrev Fd.TIME_ENS_STAT_PARITY_CNT : Fld := ⟨Adr.TIME_ENS_STAT, 31, 16⟩
abbrev Fd.TIME_ENS_STAT_ERROR : Fld := ⟨Adr.TIME_ENS_STAT, 15, 0⟩
abbrev Fd.TIME_ENS_INDEX_SOURCE : Fld := ⟨Adr.TIME_ENS_INDEX, 9, 9⟩
abbrev Fd.TIME_ENS_INDEX_INDEX : Fld := ⟨Adr.TIME_ENS_INDEX, 8, 0⟩
/-! TIME: 05_alignment_and_rate_conversion.md -/
abbrev Fd.TIME_GRP_CTRL_TS_EN (k : Nat) : Fld := ⟨(Adr.TIME_GRP_CTRL k), 2, 2⟩
abbrev Fd.TIME_GRP_CTRL_POLICY (k : Nat) : Fld := ⟨(Adr.TIME_GRP_CTRL k), 1, 1⟩
abbrev Fd.TIME_GRP_CTRL_ENABLE (k : Nat) : Fld := ⟨(Adr.TIME_GRP_CTRL k), 0, 0⟩
abbrev Fd.TIME_GRP_MEMBERS_LO_LINES (k : Nat) : Fld := ⟨(Adr.TIME_GRP_MEMBERS_LO k), 31, 0⟩
abbrev Fd.TIME_GRP_MEMBERS_HI_LINES (k : Nat) : Fld := ⟨(Adr.TIME_GRP_MEMBERS_HI k), 31, 0⟩
abbrev Fd.TIME_GRP_DELAY_PRES_DELAY (k : Nat) : Fld := ⟨(Adr.TIME_GRP_DELAY k), 23, 0⟩
abbrev Fd.TIME_GRP_SNOW_TICKS (k : Nat) : Fld := ⟨(Adr.TIME_GRP_SNOW k), 19, 0⟩
abbrev Fd.TIME_GRP_STAT_CFG_PEND (k : Nat) : Fld := ⟨(Adr.TIME_GRP_STAT k), 31, 31⟩
abbrev Fd.TIME_GRP_STAT_STATE (k : Nat) : Fld := ⟨(Adr.TIME_GRP_STAT k), 30, 28⟩
abbrev Fd.TIME_GRP_STAT_GRANULES (k : Nat) : Fld := ⟨(Adr.TIME_GRP_STAT k), 27, 16⟩
abbrev Fd.TIME_GRP_STAT_SNOW (k : Nat) : Fld := ⟨(Adr.TIME_GRP_STAT k), 15, 0⟩
abbrev Fd.TIME_GRP_LATE_CNT_COUNT (k : Nat) : Fld := ⟨(Adr.TIME_GRP_LATE_CNT k), 31, 0⟩
abbrev Fd.TIME_GRP_TS_LOST_COUNT (k : Nat) : Fld := ⟨(Adr.TIME_GRP_TS_LOST k), 15, 0⟩
abbrev Fd.TIME_GRP_ERR_NO_GRANULES (k : Nat) : Fld := ⟨(Adr.TIME_GRP_ERR k), 2, 2⟩
abbrev Fd.TIME_GRP_ERR_DELAY_SHORT (k : Nat) : Fld := ⟨(Adr.TIME_GRP_ERR k), 1, 1⟩
abbrev Fd.TIME_GRP_ERR_MEMBER_INVALID (k : Nat) : Fld := ⟨(Adr.TIME_GRP_ERR k), 0, 0⟩
abbrev Fd.TIME_GRP_EVT_STATUS_BITS (k : Nat) : Fld := ⟨(Adr.TIME_GRP_EVT_STATUS k), 6, 0⟩
abbrev Fd.TIME_GRP_EVT_ENABLE_BITS (k : Nat) : Fld := ⟨(Adr.TIME_GRP_EVT_ENABLE k), 6, 0⟩
/-! FUSE: 17_boot_images_recovery.md -/
abbrev Fd.FUSE_LIFE_DEBUG_KILL : Fld := ⟨Adr.FUSE_LIFE, 1, 1⟩
abbrev Fd.FUSE_LIFE_SEALED : Fld := ⟨Adr.FUSE_LIFE, 0, 0⟩
abbrev Fd.FUSE_OPTS_ENS_OVR : Fld := ⟨Adr.FUSE_OPTS, 31, 31⟩
abbrev Fd.FUSE_OPTS_ENS_INDEX : Fld := ⟨Adr.FUSE_OPTS, 24, 16⟩
abbrev Fd.FUSE_OPTS_STRICT : Fld := ⟨Adr.FUSE_OPTS, 8, 8⟩
abbrev Fd.FUSE_OPTS_SCHUSS_GAIN : Fld := ⟨Adr.FUSE_OPTS, 5, 4⟩
abbrev Fd.FUSE_OPTS_SCHUSS_EN : Fld := ⟨Adr.FUSE_OPTS, 3, 3⟩
abbrev Fd.FUSE_KEY_HASH_HASH (k : Nat) : Fld := ⟨(Adr.FUSE_KEY_HASH k), 31, 0⟩
abbrev Fd.FUSE_PROG_KEY : Fld := ⟨Adr.FUSE_PROG, 31, 24⟩
abbrev Fd.FUSE_PROG_BIT : Fld := ⟨Adr.FUSE_PROG, 8, 0⟩
abbrev Fd.FUSE_PROG_STAT_BUSY : Fld := ⟨Adr.FUSE_PROG_STAT, 31, 31⟩
abbrev Fd.FUSE_RAW_BITS (k : Nat) : Fld := ⟨(Adr.FUSE_RAW k), 31, 0⟩
/-! BOOT: 17_boot_images_recovery.md -/
abbrev Fd.BOOT_CFG_STRICT : Fld := ⟨Adr.BOOT_CFG, 0, 0⟩
abbrev Fd.BOOT_LOAD_CTRL_ABORT : Fld := ⟨Adr.BOOT_LOAD_CTRL, 7, 7⟩
abbrev Fd.BOOT_LOAD_CTRL_START : Fld := ⟨Adr.BOOT_LOAD_CTRL, 6, 6⟩
abbrev Fd.BOOT_LOAD_CTRL_CHECK : Fld := ⟨Adr.BOOT_LOAD_CTRL, 5, 5⟩
abbrev Fd.BOOT_LOAD_CTRL_OPEN : Fld := ⟨Adr.BOOT_LOAD_CTRL, 4, 4⟩
abbrev Fd.BOOT_LOAD_CTRL_KIND : Fld := ⟨Adr.BOOT_LOAD_CTRL, 1, 0⟩
abbrev Fd.BOOT_CTRL_KEY : Fld := ⟨Adr.BOOT_CTRL, 31, 24⟩
abbrev Fd.BOOT_CTRL_RECOVER : Fld := ⟨Adr.BOOT_CTRL, 2, 2⟩
abbrev Fd.BOOT_CTRL_SCHUSS_STOP : Fld := ⟨Adr.BOOT_CTRL, 1, 1⟩
abbrev Fd.BOOT_CTRL_SVC_STOP : Fld := ⟨Adr.BOOT_CTRL, 0, 0⟩
abbrev Fd.BOOT_LOAD_PAGE_PAGE : Fld := ⟨Adr.BOOT_LOAD_PAGE, 6, 0⟩
abbrev Fd.BOOT_LOAD_STAT_STATE : Fld := ⟨Adr.BOOT_LOAD_STAT, 31, 29⟩
abbrev Fd.BOOT_LOAD_STAT_PORT : Fld := ⟨Adr.BOOT_LOAD_STAT, 28, 27⟩
abbrev Fd.BOOT_LOAD_STAT_UNTESTED : Fld := ⟨Adr.BOOT_LOAD_STAT, 26, 26⟩
abbrev Fd.BOOT_LOAD_STAT_KIND : Fld := ⟨Adr.BOOT_LOAD_STAT, 25, 24⟩
abbrev Fd.BOOT_LOAD_STAT_REASON : Fld := ⟨Adr.BOOT_LOAD_STAT, 23, 16⟩
abbrev Fd.BOOT_SUPP_VER_VERSION : Fld := ⟨Adr.BOOT_SUPP_VER, 31, 0⟩
abbrev Fd.BOOT_SVC_VER_VERSION : Fld := ⟨Adr.BOOT_SVC_VER, 31, 0⟩
abbrev Fd.BOOT_EPOCHS_SUP : Fld := ⟨Adr.BOOT_EPOCHS, 31, 16⟩
abbrev Fd.BOOT_EPOCHS_SVC : Fld := ⟨Adr.BOOT_EPOCHS, 15, 0⟩
abbrev Fd.BOOT_SVC_STAT_STATE : Fld := ⟨Adr.BOOT_SVC_STAT, 31, 30⟩
abbrev Fd.BOOT_WINDOW_WINDOW (k : Nat) : Fld := ⟨(Adr.BOOT_WINDOW k), 31, 0⟩
/-! DBG: 17_boot_images_recovery.md -/
abbrev Fd.DBG_CTRL_PDM_TEST : Fld := ⟨Adr.DBG_CTRL, 0, 0⟩
abbrev Fd.DBG_STATUS_KILLED : Fld := ⟨Adr.DBG_STATUS, 2, 2⟩
abbrev Fd.DBG_STATUS_ATTACHED : Fld := ⟨Adr.DBG_STATUS, 1, 1⟩
abbrev Fd.DBG_STATUS_PDM_ACTIVE : Fld := ⟨Adr.DBG_STATUS, 0, 0⟩
/-! CP: 14_control_ports.md -/
abbrev Fd.CP_IRQ_CFG_LEASE_EN (n : Nat) : Fld := ⟨(Adr.CP_IRQ_CFG n), 4, 4⟩
abbrev Fd.CP_IRQ_CFG_EVT_EN (n : Nat) : Fld := ⟨(Adr.CP_IRQ_CFG n), 3, 3⟩
abbrev Fd.CP_IRQ_CFG_RESP_EN (n : Nat) : Fld := ⟨(Adr.CP_IRQ_CFG n), 2, 2⟩
abbrev Fd.CP_IRQ_CFG_OD (n : Nat) : Fld := ⟨(Adr.CP_IRQ_CFG n), 1, 1⟩
abbrev Fd.CP_IRQ_CFG_POL (n : Nat) : Fld := ⟨(Adr.CP_IRQ_CFG n), 0, 0⟩
abbrev Fd.CP_IRQ_STAT_LEASE (n : Nat) : Fld := ⟨(Adr.CP_IRQ_STAT n), 2, 2⟩
abbrev Fd.CP_IRQ_STAT_EVT (n : Nat) : Fld := ⟨(Adr.CP_IRQ_STAT n), 1, 1⟩
abbrev Fd.CP_IRQ_STAT_RESP (n : Nat) : Fld := ⟨(Adr.CP_IRQ_STAT n), 0, 0⟩
abbrev Fd.CP_SESSION_STATE (n : Nat) : Fld := ⟨(Adr.CP_SESSION n), 31, 30⟩
abbrev Fd.CP_SESSION_RESUMED (n : Nat) : Fld := ⟨(Adr.CP_SESSION n), 29, 29⟩
abbrev Fd.CP_HOST_ID_ID (n : Nat) : Fld := ⟨(Adr.CP_HOST_ID n), 31, 0⟩
abbrev Fd.CP_LEASE_PERIOD (n : Nat) : Fld := ⟨(Adr.CP_LEASE n), 31, 16⟩
abbrev Fd.CP_LEASE_REMAIN (n : Nat) : Fld := ⟨(Adr.CP_LEASE n), 15, 0⟩
abbrev Fd.CP_SEQ_NEXT (n : Nat) : Fld := ⟨(Adr.CP_SEQ n), 31, 16⟩
abbrev Fd.CP_SEQ_ACKED (n : Nat) : Fld := ⟨(Adr.CP_SEQ n), 15, 0⟩
abbrev Fd.CP_CREDITS_HELD (n : Nat) : Fld := ⟨(Adr.CP_CREDITS n), 20, 16⟩
abbrev Fd.CP_CREDITS_QUEUED (n : Nat) : Fld := ⟨(Adr.CP_CREDITS n), 12, 8⟩
abbrev Fd.CP_CREDITS_INFLIGHT (n : Nat) : Fld := ⟨(Adr.CP_CREDITS n), 4, 0⟩
abbrev Fd.CP_RX_CNT_FRAMES (n : Nat) : Fld := ⟨(Adr.CP_RX_CNT n), 31, 0⟩
abbrev Fd.CP_ERR_CNT0_BAD_CRC (n : Nat) : Fld := ⟨(Adr.CP_ERR_CNT0 n), 31, 16⟩
abbrev Fd.CP_ERR_CNT0_BAD_SEQ (n : Nat) : Fld := ⟨(Adr.CP_ERR_CNT0 n), 15, 0⟩
abbrev Fd.CP_ERR_CNT1_STALE (n : Nat) : Fld := ⟨(Adr.CP_ERR_CNT1 n), 31, 16⟩
abbrev Fd.CP_ERR_CNT1_BUSY (n : Nat) : Fld := ⟨(Adr.CP_ERR_CNT1 n), 15, 0⟩
abbrev Fd.CP_ERR_CNT2_REPLAY (n : Nat) : Fld := ⟨(Adr.CP_ERR_CNT2 n), 31, 16⟩
abbrev Fd.CP_ERR_CNT2_BAD_LEN (n : Nat) : Fld := ⟨(Adr.CP_ERR_CNT2 n), 15, 8⟩
abbrev Fd.CP_ERR_CNT2_BAD_OP (n : Nat) : Fld := ⟨(Adr.CP_ERR_CNT2 n), 7, 0⟩
abbrev Fd.CP_SES_CNT_NO_SESSION (n : Nat) : Fld := ⟨(Adr.CP_SES_CNT n), 31, 16⟩
abbrev Fd.CP_SES_CNT_EXPIRED (n : Nat) : Fld := ⟨(Adr.CP_SES_CNT n), 15, 0⟩
abbrev Fd.CP_XPORT_BASE10 (n : Nat) : Fld := ⟨(Adr.CP_XPORT n), 10, 10⟩
abbrev Fd.CP_XPORT_ADDR7_EN (n : Nat) : Fld := ⟨(Adr.CP_XPORT n), 7, 7⟩
abbrev Fd.CP_XPORT_ADDR7 (n : Nat) : Fld := ⟨(Adr.CP_XPORT n), 6, 0⟩
abbrev Fd.CP_XPORT_RATE (n : Nat) : Fld := ⟨(Adr.CP_XPORT n), 3, 0⟩
/-! RING: 16_rings_events_books.md -/
abbrev Fd.RING_GRAN_A_FREE : Fld := ⟨Adr.RING_GRAN_A, 28, 16⟩
abbrev Fd.RING_GRAN_A_CUSHION : Fld := ⟨Adr.RING_GRAN_A, 12, 0⟩
abbrev Fd.RING_GRAN_B_DELAY : Fld := ⟨Adr.RING_GRAN_B, 25, 13⟩
abbrev Fd.RING_GRAN_B_DRAINING : Fld := ⟨Adr.RING_GRAN_B, 12, 0⟩
abbrev Fd.RING_CAP_T0_TICK (k : Nat) : Fld := ⟨(Adr.RING_CAP_T0 k), 31, 0⟩
abbrev Fd.RING_CAP_LOSTTICK_TICK (k : Nat) : Fld := ⟨(Adr.RING_CAP_LOSTTICK k), 31, 0⟩
abbrev Fd.RING_INJ_CFG_PRIME1 : Fld := ⟨Adr.RING_INJ_CFG, 27, 16⟩
abbrev Fd.RING_INJ_CFG_PRIME0 : Fld := ⟨Adr.RING_INJ_CFG, 11, 0⟩
abbrev Fd.RING_INJ_CNT_UNDER1 : Fld := ⟨Adr.RING_INJ_CNT, 31, 16⟩
abbrev Fd.RING_INJ_CNT_UNDER0 : Fld := ⟨Adr.RING_INJ_CNT, 15, 0⟩
abbrev Fd.RING_WM_STATUS_RINGS : Fld := ⟨Adr.RING_WM_STATUS, 31, 0⟩
abbrev Fd.RING_WM_ENABLE_RINGS : Fld := ⟨Adr.RING_WM_ENABLE, 31, 0⟩
abbrev Fd.RING_GRAN_C_RESERVED : Fld := ⟨Adr.RING_GRAN_C, 12, 0⟩
abbrev Fd.RING_RING_CFG_ENABLE (k : Nat) : Fld := ⟨(Adr.RING_RING_CFG k), 31, 31⟩
abbrev Fd.RING_RING_CFG_PACK (k : Nat) : Fld := ⟨(Adr.RING_RING_CFG k), 30, 30⟩
abbrev Fd.RING_RING_CFG_LOG2N (k : Nat) : Fld := ⟨(Adr.RING_RING_CFG k), 23, 20⟩
abbrev Fd.RING_RING_CFG_BASE (k : Nat) : Fld := ⟨(Adr.RING_RING_CFG k), 16, 8⟩
abbrev Fd.RING_RING_CFG_ESIZE (k : Nat) : Fld := ⟨(Adr.RING_RING_CFG k), 7, 0⟩
abbrev Fd.RING_RING_PROD_INDEX (k : Nat) : Fld := ⟨(Adr.RING_RING_PROD k), 31, 0⟩
abbrev Fd.RING_RING_CONS_INDEX (k : Nat) : Fld := ⟨(Adr.RING_RING_CONS k), 31, 0⟩
abbrev Fd.RING_RING_WM_LOST (k : Nat) : Fld := ⟨(Adr.RING_RING_WM k), 31, 16⟩
abbrev Fd.RING_RING_WM_WM (k : Nat) : Fld := ⟨(Adr.RING_RING_WM k), 15, 0⟩
/-! TXN: 15_transactions_and_hosts.md -/
abbrev Fd.TXN_CFG_LEAD : Fld := ⟨Adr.TXN_CFG, 15, 0⟩
abbrev Fd.TXN_BIBS_FREE : Fld := ⟨Adr.TXN_BIBS, 22, 16⟩
abbrev Fd.TXN_BIBS_OPEN : Fld := ⟨Adr.TXN_BIBS, 15, 8⟩
abbrev Fd.TXN_BIBS_RETAINED : Fld := ⟨Adr.TXN_BIBS, 7, 0⟩
abbrev Fd.TXN_STAGING_FREE : Fld := ⟨Adr.TXN_STAGING, 31, 16⟩
abbrev Fd.TXN_STAGING_USED : Fld := ⟨Adr.TXN_STAGING, 15, 0⟩
abbrev Fd.TXN_COMMIT_CNT_COUNT : Fld := ⟨Adr.TXN_COMMIT_CNT, 31, 0⟩
abbrev Fd.TXN_ABORT_CNT_CONFLICT : Fld := ⟨Adr.TXN_ABORT_CNT, 31, 16⟩
abbrev Fd.TXN_ABORT_CNT_ALL : Fld := ⟨Adr.TXN_ABORT_CNT, 15, 0⟩
abbrev Fd.TXN_LAST_ABORT_BIB : Fld := ⟨Adr.TXN_LAST_ABORT, 31, 16⟩
abbrev Fd.TXN_LAST_ABORT_STATUS : Fld := ⟨Adr.TXN_LAST_ABORT, 15, 8⟩
abbrev Fd.TXN_LAST_ABORT_PORT : Fld := ⟨Adr.TXN_LAST_ABORT, 5, 4⟩
abbrev Fd.TXN_LAST_PAGE_PAGE : Fld := ⟨Adr.TXN_LAST_PAGE, 9, 0⟩
abbrev Fd.TXN_SLOT_A_BIB (k : Nat) : Fld := ⟨(Adr.TXN_SLOT_A k), 31, 16⟩
abbrev Fd.TXN_SLOT_A_STATE (k : Nat) : Fld := ⟨(Adr.TXN_SLOT_A k), 15, 13⟩
abbrev Fd.TXN_SLOT_A_PORT (k : Nat) : Fld := ⟨(Adr.TXN_SLOT_A k), 9, 8⟩
abbrev Fd.TXN_SLOT_A_MODE (k : Nat) : Fld := ⟨(Adr.TXN_SLOT_A k), 7, 6⟩
abbrev Fd.TXN_SLOT_B_STATUS (k : Nat) : Fld := ⟨(Adr.TXN_SLOT_B k), 31, 24⟩
abbrev Fd.TXN_SLOT_B_ENTRIES (k : Nat) : Fld := ⟨(Adr.TXN_SLOT_B k), 13, 0⟩
/-! CRC: 12_crc_engines.md -/
abbrev Fd.CRC_CFG_REFOUT (k : Nat) : Fld := ⟨(Adr.CRC_CFG k), 9, 9⟩
abbrev Fd.CRC_CFG_REFIN (k : Nat) : Fld := ⟨(Adr.CRC_CFG k), 8, 8⟩
abbrev Fd.CRC_CFG_WIDTH (k : Nat) : Fld := ⟨(Adr.CRC_CFG k), 5, 0⟩
abbrev Fd.CRC_POLY_POLY (k : Nat) : Fld := ⟨(Adr.CRC_POLY k), 31, 0⟩
abbrev Fd.CRC_INIT_INIT (k : Nat) : Fld := ⟨(Adr.CRC_INIT k), 31, 0⟩
abbrev Fd.CRC_XOROUT_XOROUT (k : Nat) : Fld := ⟨(Adr.CRC_XOROUT k), 31, 0⟩
abbrev Fd.CRC_CTRL_RESET (k : Nat) : Fld := ⟨(Adr.CRC_CTRL k), 0, 0⟩
abbrev Fd.CRC_STATUS_BUSY (k : Nat) : Fld := ⟨(Adr.CRC_STATUS k), 31, 31⟩
abbrev Fd.CRC_COUNT_COUNT (k : Nat) : Fld := ⟨(Adr.CRC_COUNT k), 31, 0⟩
abbrev Fd.CRC_RESULT_RESULT (k : Nat) : Fld := ⟨(Adr.CRC_RESULT k), 31, 0⟩
abbrev Fd.CRC_RAW_RAW (k : Nat) : Fld := ⟨(Adr.CRC_RAW k), 31, 0⟩
abbrev Fd.CRC_DATA8_BYTE (k : Nat) : Fld := ⟨(Adr.CRC_DATA8 k), 7, 0⟩
abbrev Fd.CRC_DATA16_HALF (k : Nat) : Fld := ⟨(Adr.CRC_DATA16 k), 15, 0⟩
abbrev Fd.CRC_DATA32_WORD (k : Nat) : Fld := ⟨(Adr.CRC_DATA32 k), 31, 0⟩
abbrev Fd.CRC_OWN_REQ (k : Nat) : Fld := ⟨(Adr.CRC_OWN k), 31, 31⟩
abbrev Fd.CRC_OWN_OWNER (k : Nat) : Fld := ⟨(Adr.CRC_OWN k), 30, 28⟩
abbrev Fd.CRC_OWN_PORT (k : Nat) : Fld := ⟨(Adr.CRC_OWN k), 1, 0⟩
/-! DUMP: 17_boot_images_recovery.md -/
abbrev Fd.DUMP_CTRL_RELEASE : Fld := ⟨Adr.DUMP_CTRL, 1, 1⟩
abbrev Fd.DUMP_CTRL_STREAM : Fld := ⟨Adr.DUMP_CTRL, 0, 0⟩
abbrev Fd.DUMP_STATUS_STATE : Fld := ⟨Adr.DUMP_STATUS, 31, 30⟩
abbrev Fd.DUMP_STATUS_REASON : Fld := ⟨Adr.DUMP_STATUS, 23, 16⟩
abbrev Fd.DUMP_STATUS_SEQ : Fld := ⟨Adr.DUMP_STATUS, 15, 0⟩
abbrev Fd.DUMP_LEN_BYTES : Fld := ⟨Adr.DUMP_LEN, 31, 0⟩
abbrev Fd.DUMP_LOST_CNT_COUNT : Fld := ⟨Adr.DUMP_LOST_CNT, 15, 0⟩
/-! FAB: 07_fabric_schedule.md -/
abbrev Fd.FAB_CTRL_START_PISTE : Fld := ⟨Adr.FAB_CTRL, 4, 4⟩
abbrev Fd.FAB_CTRL_RUN : Fld := ⟨Adr.FAB_CTRL, 0, 0⟩
abbrev Fd.FAB_SWAP_SWAP : Fld := ⟨Adr.FAB_SWAP, 0, 0⟩
abbrev Fd.FAB_XOVER_LAW : Fld := ⟨Adr.FAB_XOVER, 16, 16⟩
abbrev Fd.FAB_XOVER_TICKS : Fld := ⟨Adr.FAB_XOVER, 11, 0⟩
abbrev Fd.FAB_START_GLIDE_TICKS : Fld := ⟨Adr.FAB_START_GLIDE, 19, 0⟩
abbrev Fd.FAB_STAT_STATE : Fld := ⟨Adr.FAB_STAT, 31, 30⟩
abbrev Fd.FAB_STAT_RUN_PISTE : Fld := ⟨Adr.FAB_STAT, 29, 29⟩
abbrev Fd.FAB_STAT_XOVER_ACTIVE : Fld := ⟨Adr.FAB_STAT, 28, 28⟩
abbrev Fd.FAB_STAT_COPY_BUSY : Fld := ⟨Adr.FAB_STAT, 27, 27⟩
abbrev Fd.FAB_STAT_IDLE_LOCK : Fld := ⟨Adr.FAB_STAT, 26, 26⟩
abbrev Fd.FAB_STAT_SWAP_PEND : Fld := ⟨Adr.FAB_STAT, 25, 25⟩
abbrev Fd.FAB_STAT_CHECK_BUSY : Fld := ⟨Adr.FAB_STAT, 24, 24⟩
abbrev Fd.FAB_STAT_XOVER_REMAIN : Fld := ⟨Adr.FAB_STAT, 11, 0⟩
abbrev Fd.FAB_COPY_COPY : Fld := ⟨Adr.FAB_COPY, 0, 0⟩
abbrev Fd.FAB_CHECK_START : Fld := ⟨Adr.FAB_CHECK, 0, 0⟩
abbrev Fd.FAB_LIMIT_CYCLES : Fld := ⟨Adr.FAB_LIMIT, 15, 0⟩
abbrev Fd.FAB_CHECK_COST_OVER : Fld := ⟨Adr.FAB_CHECK_COST, 31, 31⟩
abbrev Fd.FAB_CHECK_COST_INVALID : Fld := ⟨Adr.FAB_CHECK_COST, 30, 30⟩
abbrev Fd.FAB_CHECK_COST_COST : Fld := ⟨Adr.FAB_CHECK_COST, 15, 0⟩
abbrev Fd.FAB_CROSSING_COUNT : Fld := ⟨Adr.FAB_CROSSING, 8, 0⟩
abbrev Fd.FAB_RUN_COST_COST : Fld := ⟨Adr.FAB_RUN_COST, 15, 0⟩
abbrev Fd.FAB_GATE_MISS_CNT_COUNT : Fld := ⟨Adr.FAB_GATE_MISS_CNT, 15, 0⟩
abbrev Fd.FAB_GATE_LAST_TICK : Fld := ⟨Adr.FAB_GATE_LAST, 31, 0⟩
abbrev Fd.FAB_GATE_INFO_CAUSE : Fld := ⟨Adr.FAB_GATE_INFO, 31, 28⟩
abbrev Fd.FAB_GATE_INFO_LANE : Fld := ⟨Adr.FAB_GATE_INFO, 19, 16⟩
abbrev Fd.FAB_GATE_INFO_SINK : Fld := ⟨Adr.FAB_GATE_INFO, 9, 0⟩
abbrev Fd.FAB_MAX_LOAD_CYCLES : Fld := ⟨Adr.FAB_MAX_LOAD, 15, 0⟩
abbrev Fd.FAB_STAGE_COST_LANE (k : Nat) : Fld := ⟨(Adr.FAB_STAGE_COST k), 19, 16⟩
abbrev Fd.FAB_STAGE_COST_COST (k : Nat) : Fld := ⟨(Adr.FAB_STAGE_COST k), 15, 0⟩
/-! MIX: 08_mixing_and_processing.md -/
abbrev Fd.MIX_DEF_GLIDE_TICKS : Fld := ⟨Adr.MIX_DEF_GLIDE, 19, 0⟩
abbrev Fd.MIX_BUS_CFG_LAW (k : Nat) : Fld := ⟨(Adr.MIX_BUS_CFG k), 31, 30⟩
abbrev Fd.MIX_BUS_CFG_EVT (k : Nat) : Fld := ⟨(Adr.MIX_BUS_CFG k), 29, 29⟩
abbrev Fd.MIX_BUS_CFG_HOLD (k : Nat) : Fld := ⟨(Adr.MIX_BUS_CFG k), 28, 20⟩
abbrev Fd.MIX_BUS_CFG_GLIDE (k : Nat) : Fld := ⟨(Adr.MIX_BUS_CFG k), 19, 0⟩
abbrev Fd.MIX_BUS_STAT_N_USED (k : Nat) : Fld := ⟨(Adr.MIX_BUS_STAT k), 27, 16⟩
abbrev Fd.MIX_BUS_STAT_FACTOR (k : Nat) : Fld := ⟨(Adr.MIX_BUS_STAT k), 15, 0⟩
/-! PROC: 08_mixing_and_processing.md -/
abbrev Fd.PROC_POOL_A_GAIN_SLOTS : Fld := ⟨Adr.PROC_POOL_A, 31, 16⟩
abbrev Fd.PROC_POOL_A_BIQUADS : Fld := ⟨Adr.PROC_POOL_A, 15, 0⟩
abbrev Fd.PROC_POOL_B_DYNAMICS : Fld := ⟨Adr.PROC_POOL_B, 31, 16⟩
abbrev Fd.PROC_POOL_B_DELAYS : Fld := ⟨Adr.PROC_POOL_B, 15, 0⟩
abbrev Fd.PROC_DLY_GRAN_DRAINING : Fld := ⟨Adr.PROC_DLY_GRAN, 28, 16⟩
abbrev Fd.PROC_DLY_GRAN_ALLOCATED : Fld := ⟨Adr.PROC_DLY_GRAN, 12, 0⟩
abbrev Fd.PROC_DLY_LINES_COUNT : Fld := ⟨Adr.PROC_DLY_LINES, 9, 0⟩
/-! ASRC: 05_alignment_and_rate_conversion.md -/
abbrev Fd.ASRC_GLIDE_IN_TICKS : Fld := ⟨Adr.ASRC_GLIDE_IN, 19, 0⟩
abbrev Fd.ASRC_LOCKED_MASK (k : Nat) : Fld := ⟨(Adr.ASRC_LOCKED k), 31, 0⟩
abbrev Fd.ASRC_CH_CFG_PORT (k : Nat) : Fld := ⟨(Adr.ASRC_CH_CFG k), 12, 8⟩
abbrev Fd.ASRC_CH_CFG_LINE (k : Nat) : Fld := ⟨(Adr.ASRC_CH_CFG k), 6, 6⟩
abbrev Fd.ASRC_CH_CFG_CHAN (k : Nat) : Fld := ⟨(Adr.ASRC_CH_CFG k), 5, 5⟩
abbrev Fd.ASRC_CH_CFG_DIR (k : Nat) : Fld := ⟨(Adr.ASRC_CH_CFG k), 4, 4⟩
abbrev Fd.ASRC_CH_CFG_ENABLE (k : Nat) : Fld := ⟨(Adr.ASRC_CH_CFG k), 0, 0⟩
abbrev Fd.ASRC_CH_STAT_STATE (k : Nat) : Fld := ⟨(Adr.ASRC_CH_STAT k), 31, 29⟩
abbrev Fd.ASRC_CH_STAT_CFG_PEND (k : Nat) : Fld := ⟨(Adr.ASRC_CH_STAT k), 28, 28⟩
abbrev Fd.ASRC_CH_STAT_RATE (k : Nat) : Fld := ⟨(Adr.ASRC_CH_STAT k), 24, 20⟩
abbrev Fd.ASRC_CH_RATIO_RATIO (k : Nat) : Fld := ⟨(Adr.ASRC_CH_RATIO k), 31, 0⟩
abbrev Fd.ASRC_CH_CNT_RELOCK (k : Nat) : Fld := ⟨(Adr.ASRC_CH_CNT k), 31, 16⟩
abbrev Fd.ASRC_CH_CNT_HOLD (k : Nat) : Fld := ⟨(Adr.ASRC_CH_CNT k), 15, 0⟩
/-! JACK: 09_line_headphone_jacks.md -/
abbrev Fd.JACK_LEVELS_INSERTED : Fld := ⟨Adr.JACK_LEVELS, 19, 0⟩
abbrev Fd.JACK_CNT_FIRED : Fld := ⟨Adr.JACK_CNT, 31, 16⟩
abbrev Fd.JACK_CNT_SKIPPED : Fld := ⟨Adr.JACK_CNT, 15, 0⟩
abbrev Fd.JACK_CHANGED_JACKS : Fld := ⟨Adr.JACK_CHANGED, 19, 0⟩
abbrev Fd.JACK_JCFG_CLS_EN (k : Nat) : Fld := ⟨(Adr.JACK_JCFG k), 24, 24⟩
abbrev Fd.JACK_JCFG_POLARITY (k : Nat) : Fld := ⟨(Adr.JACK_JCFG k), 16, 16⟩
abbrev Fd.JACK_JCFG_INS_DEB (k : Nat) : Fld := ⟨(Adr.JACK_JCFG k), 15, 8⟩
abbrev Fd.JACK_JCFG_REM_DEB (k : Nat) : Fld := ⟨(Adr.JACK_JCFG k), 7, 0⟩
abbrev Fd.JACK_JSTAT_CLASS (k : Nat) : Fld := ⟨(Adr.JACK_JSTAT k), 31, 28⟩
abbrev Fd.JACK_JSTAT_INSERTED (k : Nat) : Fld := ⟨(Adr.JACK_JSTAT k), 27, 27⟩
abbrev Fd.JACK_JSTAT_SEQ (k : Nat) : Fld := ⟨(Adr.JACK_JSTAT k), 15, 0⟩
abbrev Fd.JACK_RULE_A_ENABLE (k : Nat) : Fld := ⟨(Adr.JACK_RULE_A k), 31, 31⟩
abbrev Fd.JACK_RULE_A_TRIGGER (k : Nat) : Fld := ⟨(Adr.JACK_RULE_A k), 30, 28⟩
abbrev Fd.JACK_RULE_A_JACK (k : Nat) : Fld := ⟨(Adr.JACK_RULE_A k), 20, 16⟩
abbrev Fd.JACK_RULE_A_MASK (k : Nat) : Fld := ⟨(Adr.JACK_RULE_A k), 15, 0⟩
abbrev Fd.JACK_RULE_B_KIND (k : Nat) : Fld := ⟨(Adr.JACK_RULE_B k), 31, 31⟩
abbrev Fd.JACK_RULE_B_TARGET (k : Nat) : Fld := ⟨(Adr.JACK_RULE_B k), 27, 16⟩
abbrev Fd.JACK_RULE_B_GAIN (k : Nat) : Fld := ⟨(Adr.JACK_RULE_B k), 15, 0⟩
/-! AMPSYS: 10_speaker_amplifier.md -/
abbrev Fd.AMPSYS_CFG_PAR23 : Fld := ⟨Adr.AMPSYS_CFG, 5, 5⟩
abbrev Fd.AMPSYS_CFG_PAR01 : Fld := ⟨Adr.AMPSYS_CFG, 4, 4⟩
abbrev Fd.AMPSYS_CFG_STAGGER : Fld := ⟨Adr.AMPSYS_CFG, 2, 2⟩
abbrev Fd.AMPSYS_CFG_SPREAD : Fld := ⟨Adr.AMPSYS_CFG, 1, 1⟩
abbrev Fd.AMPSYS_CFG_PWM_RATE : Fld := ⟨Adr.AMPSYS_CFG, 0, 0⟩
abbrev Fd.AMPSYS_SAG_PHASE_CH : Fld := ⟨Adr.AMPSYS_SAG, 29, 28⟩
abbrev Fd.AMPSYS_SAG_INTERVAL : Fld := ⟨Adr.AMPSYS_SAG, 27, 26⟩
abbrev Fd.AMPSYS_SAG_EN : Fld := ⟨Adr.AMPSYS_SAG, 24, 24⟩
abbrev Fd.AMPSYS_SAG_SLOPE : Fld := ⟨Adr.AMPSYS_SAG, 19, 16⟩
abbrev Fd.AMPSYS_SAG_KNEE : Fld := ⟨Adr.AMPSYS_SAG, 8, 0⟩
abbrev Fd.AMPSYS_PVDD_CEILING : Fld := ⟨Adr.AMPSYS_PVDD, 31, 16⟩
abbrev Fd.AMPSYS_PVDD_V10MV : Fld := ⟨Adr.AMPSYS_PVDD, 15, 0⟩
abbrev Fd.AMPSYS_STATUS_CFG_PEND : Fld := ⟨Adr.AMPSYS_STATUS, 3, 3⟩
abbrev Fd.AMPSYS_STATUS_OV : Fld := ⟨Adr.AMPSYS_STATUS, 2, 2⟩
abbrev Fd.AMPSYS_STATUS_UV : Fld := ⟨Adr.AMPSYS_STATUS, 1, 1⟩
abbrev Fd.AMPSYS_STATUS_SAG : Fld := ⟨Adr.AMPSYS_STATUS, 0, 0⟩
/-! HKA: 11_housekeeping_converter.md -/
abbrev Fd.HKA_MAINS_PERIOD : Fld := ⟨Adr.HKA_MAINS, 31, 16⟩
abbrev Fd.HKA_MAINS_SRC : Fld := ⟨Adr.HKA_MAINS, 6, 4⟩
abbrev Fd.HKA_MAINS_SEL : Fld := ⟨Adr.HKA_MAINS, 1, 0⟩
abbrev Fd.HKA_TIMER_PERIOD (k : Nat) : Fld := ⟨(Adr.HKA_TIMER k), 19, 0⟩
abbrev Fd.HKA_URGENT_START : Fld := ⟨Adr.HKA_URGENT, 31, 31⟩
abbrev Fd.HKA_URGENT_AVG : Fld := ⟨Adr.HKA_URGENT, 15, 12⟩
abbrev Fd.HKA_URGENT_SKIP : Fld := ⟨Adr.HKA_URGENT, 8, 8⟩
abbrev Fd.HKA_URGENT_CHAN : Fld := ⟨Adr.HKA_URGENT, 5, 0⟩
abbrev Fd.HKA_STATUS_URG_PEND : Fld := ⟨Adr.HKA_STATUS, 9, 9⟩
abbrev Fd.HKA_STATUS_MAINS_LOST : Fld := ⟨Adr.HKA_STATUS, 8, 8⟩
abbrev Fd.HKA_STATUS_CAL_STAGE : Fld := ⟨Adr.HKA_STATUS, 7, 4⟩
abbrev Fd.HKA_STATUS_CAL_FAIL : Fld := ⟨Adr.HKA_STATUS, 3, 3⟩
abbrev Fd.HKA_STATUS_READY : Fld := ⟨Adr.HKA_STATUS, 2, 2⟩
abbrev Fd.HKA_WIN_STATE_OUTSIDE : Fld := ⟨Adr.HKA_WIN_STATE, 15, 0⟩
abbrev Fd.HKA_WIN_CFG_EN (k : Nat) : Fld := ⟨(Adr.HKA_WIN_CFG k), 31, 31⟩
abbrev Fd.HKA_WIN_CFG_CHAN (k : Nat) : Fld := ⟨(Adr.HKA_WIN_CFG k), 5, 0⟩
abbrev Fd.HKA_WIN_LOW_LIMIT (k : Nat) : Fld := ⟨(Adr.HKA_WIN_LOW k), 23, 0⟩
abbrev Fd.HKA_WIN_HIGH_LIMIT (k : Nat) : Fld := ⟨(Adr.HKA_WIN_HIGH k), 23, 0⟩
abbrev Fd.HKA_WIN_HYST_HYST (k : Nat) : Fld := ⟨(Adr.HKA_WIN_HYST k), 23, 0⟩
abbrev Fd.HKA_LAST_VALID (k : Nat) : Fld := ⟨(Adr.HKA_LAST k), 31, 31⟩
abbrev Fd.HKA_LAST_OVR (k : Nat) : Fld := ⟨(Adr.HKA_LAST k), 30, 30⟩
abbrev Fd.HKA_LAST_SETTLING (k : Nat) : Fld := ⟨(Adr.HKA_LAST k), 29, 29⟩
abbrev Fd.HKA_LAST_VALUE (k : Nat) : Fld := ⟨(Adr.HKA_LAST k), 23, 0⟩
/-! HKSEQ: 11_housekeeping_converter.md -/
abbrev Fd.HKSEQ_SEQ_CFG_ENABLE (k : Nat) : Fld := ⟨(Adr.HKSEQ_SEQ_CFG k), 31, 31⟩
abbrev Fd.HKSEQ_SEQ_CFG_MODE (k : Nat) : Fld := ⟨(Adr.HKSEQ_SEQ_CFG k), 30, 30⟩
abbrev Fd.HKSEQ_SEQ_CFG_COUNT (k : Nat) : Fld := ⟨(Adr.HKSEQ_SEQ_CFG k), 14, 8⟩
abbrev Fd.HKSEQ_SEQ_CFG_FIRST (k : Nat) : Fld := ⟨(Adr.HKSEQ_SEQ_CFG k), 5, 0⟩
abbrev Fd.HKSEQ_SEQ_TRIG_SRC (k : Nat) : Fld := ⟨(Adr.HKSEQ_SEQ_TRIG k), 31, 29⟩
abbrev Fd.HKSEQ_SEQ_TRIG_PWM_CH (k : Nat) : Fld := ⟨(Adr.HKSEQ_SEQ_TRIG k), 28, 27⟩
abbrev Fd.HKSEQ_SEQ_TRIG_PWM_EDGE (k : Nat) : Fld := ⟨(Adr.HKSEQ_SEQ_TRIG k), 26, 26⟩
abbrev Fd.HKSEQ_SEQ_TRIG_PWM_DIV (k : Nat) : Fld := ⟨(Adr.HKSEQ_SEQ_TRIG k), 25, 16⟩
abbrev Fd.HKSEQ_SEQ_TRIG_DELAY (k : Nat) : Fld := ⟨(Adr.HKSEQ_SEQ_TRIG k), 11, 0⟩
abbrev Fd.HKSEQ_SEQ_STAT_STATE (k : Nat) : Fld := ⟨(Adr.HKSEQ_SEQ_STAT k), 31, 30⟩
abbrev Fd.HKSEQ_SEQ_STAT_ENTRY (k : Nat) : Fld := ⟨(Adr.HKSEQ_SEQ_STAT k), 21, 16⟩
abbrev Fd.HKSEQ_SEQ_STAT_RUNS (k : Nat) : Fld := ⟨(Adr.HKSEQ_SEQ_STAT k), 15, 0⟩
abbrev Fd.HKSEQ_SEQ_CNT_TRIG_LOST (k : Nat) : Fld := ⟨(Adr.HKSEQ_SEQ_CNT k), 31, 16⟩
abbrev Fd.HKSEQ_SEQ_CNT_PREEMPT (k : Nat) : Fld := ⟨(Adr.HKSEQ_SEQ_CNT k), 15, 0⟩
abbrev Fd.HKSEQ_SEQ_GO_GO : Fld := ⟨Adr.HKSEQ_SEQ_GO, 2, 0⟩
abbrev Fd.HKSEQ_POP_LO_BYTES (k : Nat) : Fld := ⟨(Adr.HKSEQ_POP_LO k), 31, 0⟩
abbrev Fd.HKSEQ_POP_HI_BYTES (k : Nat) : Fld := ⟨(Adr.HKSEQ_POP_HI k), 31, 0⟩
abbrev Fd.HKSEQ_PEEK_LO_BYTES (k : Nat) : Fld := ⟨(Adr.HKSEQ_PEEK_LO k), 31, 0⟩
abbrev Fd.HKSEQ_PEEK_HI_BYTES (k : Nat) : Fld := ⟨(Adr.HKSEQ_PEEK_HI k), 31, 0⟩
abbrev Fd.HKSEQ_LOST_COUNT (k : Nat) : Fld := ⟨(Adr.HKSEQ_LOST k), 15, 0⟩
abbrev Fd.HKSEQ_ENTRY_AVG (k : Nat) : Fld := ⟨(Adr.HKSEQ_ENTRY k), 15, 12⟩
abbrev Fd.HKSEQ_ENTRY_SKIP (k : Nat) : Fld := ⟨(Adr.HKSEQ_ENTRY k), 8, 8⟩
abbrev Fd.HKSEQ_ENTRY_CHAN (k : Nat) : Fld := ⟨(Adr.HKSEQ_ENTRY k), 5, 0⟩
/-! TDAC: 11_housekeeping_converter.md -/
abbrev Fd.TDAC_CTRL_HOST_REQ : Fld := ⟨Adr.TDAC_CTRL, 31, 31⟩
abbrev Fd.TDAC_CTRL_ROUTE : Fld := ⟨Adr.TDAC_CTRL, 5, 0⟩
abbrev Fd.TDAC_CODE_CODE : Fld := ⟨Adr.TDAC_CODE, 15, 0⟩
abbrev Fd.TDAC_STATUS_OWNER : Fld := ⟨Adr.TDAC_STATUS, 31, 30⟩
abbrev Fd.TDAC_STATUS_PORT : Fld := ⟨Adr.TDAC_STATUS, 29, 28⟩
abbrev Fd.TDAC_STATUS_ROUTE : Fld := ⟨Adr.TDAC_STATUS, 21, 16⟩
abbrev Fd.TDAC_STATUS_QUEUE : Fld := ⟨Adr.TDAC_STATUS, 7, 0⟩
/-! SAP: 03_serial_audio_ports.md -/
abbrev Fd.SAP_CTRL_MUTE (n : Nat) : Fld := ⟨(Adr.SAP_CTRL n), 5, 2⟩
abbrev Fd.SAP_CTRL_RUN (n : Nat) : Fld := ⟨(Adr.SAP_CTRL n), 0, 0⟩
abbrev Fd.SAP_FMT_DITHER (n : Nat) : Fld := ⟨(Adr.SAP_FMT n), 11, 11⟩
abbrev Fd.SAP_FMT_WS_INV (n : Nat) : Fld := ⟨(Adr.SAP_FMT n), 10, 10⟩
abbrev Fd.SAP_FMT_BCLK_INV (n : Nat) : Fld := ⟨(Adr.SAP_FMT n), 9, 9⟩
abbrev Fd.SAP_FMT_SLOT (n : Nat) : Fld := ⟨(Adr.SAP_FMT n), 7, 6⟩
abbrev Fd.SAP_FMT_WORD (n : Nat) : Fld := ⟨(Adr.SAP_FMT n), 5, 4⟩
abbrev Fd.SAP_FMT_FORMAT (n : Nat) : Fld := ⟨(Adr.SAP_FMT n), 1, 0⟩
abbrev Fd.SAP_CLKCFG_ROLE (n : Nat) : Fld := ⟨(Adr.SAP_CLKCFG n), 8, 8⟩
abbrev Fd.SAP_CLKCFG_RATE (n : Nat) : Fld := ⟨(Adr.SAP_CLKCFG n), 4, 0⟩
abbrev Fd.SAP_LINE_BLOCK_FRAMES (n : Nat) : Fld := ⟨(Adr.SAP_LINE n), 24, 16⟩
abbrev Fd.SAP_LINE_PACK (n : Nat) : Fld := ⟨(Adr.SAP_LINE n), 8, 8⟩
abbrev Fd.SAP_LINE_D1_DIR (n : Nat) : Fld := ⟨(Adr.SAP_LINE n), 3, 2⟩
abbrev Fd.SAP_LINE_D0_DIR (n : Nat) : Fld := ⟨(Adr.SAP_LINE n), 1, 0⟩
abbrev Fd.SAP_ZC_TIMEOUT (n : Nat) : Fld := ⟨(Adr.SAP_ZC n), 15, 8⟩
abbrev Fd.SAP_ZC_THRESH (n : Nat) : Fld := ⟨(Adr.SAP_ZC n), 6, 0⟩
abbrev Fd.SAP_STATE_CFG_PEND (n : Nat) : Fld := ⟨(Adr.SAP_STATE n), 12, 12⟩
abbrev Fd.SAP_STATE_ZC_PEND (n : Nat) : Fld := ⟨(Adr.SAP_STATE n), 11, 8⟩
abbrev Fd.SAP_STATE_MUTED (n : Nat) : Fld := ⟨(Adr.SAP_STATE n), 7, 4⟩
abbrev Fd.SAP_STATE_STATE (n : Nat) : Fld := ⟨(Adr.SAP_STATE n), 2, 0⟩
abbrev Fd.SAP_STAMP_LO_STAMP (n : Nat) : Fld := ⟨(Adr.SAP_STAMP_LO n), 31, 0⟩
abbrev Fd.SAP_STAMP_HI_STAMP (n : Nat) : Fld := ⟨(Adr.SAP_STAMP_HI n), 31, 0⟩
abbrev Fd.SAP_BLOCK_CNT_COUNT (n : Nat) : Fld := ⟨(Adr.SAP_BLOCK_CNT n), 31, 0⟩
abbrev Fd.SAP_FRAMING_CNT_COUNT (n : Nat) : Fld := ⟨(Adr.SAP_FRAMING_CNT n), 15, 0⟩
abbrev Fd.SAP_PDM_MODE (n : Nat) : Fld := ⟨(Adr.SAP_PDM n), 1, 1⟩
abbrev Fd.SAP_PDM_ACTIVE (n : Nat) : Fld := ⟨(Adr.SAP_PDM n), 0, 0⟩
abbrev Fd.SAP_CNT_CTRL_CLEAR (n : Nat) : Fld := ⟨(Adr.SAP_CNT_CTRL n), 0, 0⟩
abbrev Fd.SAP_FRAMES_IN_COUNT (n k : Nat) : Fld := ⟨(Adr.SAP_FRAMES_IN n k), 31, 0⟩
abbrev Fd.SAP_FRAMES_OUT_COUNT (n k : Nat) : Fld := ⟨(Adr.SAP_FRAMES_OUT n k), 31, 0⟩
abbrev Fd.SAP_FILL_COUNT (n k : Nat) : Fld := ⟨(Adr.SAP_FILL n k), 31, 0⟩
abbrev Fd.SAP_DROPPED_COUNT (n k : Nat) : Fld := ⟨(Adr.SAP_DROPPED n k), 31, 0⟩
abbrev Fd.SAP_INSERTED_COUNT (n k : Nat) : Fld := ⟨(Adr.SAP_INSERTED n k), 31, 0⟩
/-! SAP: 04_aes3_ports.md -/
abbrev Fd.SAP_AES_CFG_V_IGNORE (n : Nat) : Fld := ⟨(Adr.SAP_AES_CFG n), 11, 11⟩
abbrev Fd.SAP_AES_CFG_CRCC_CHECK (n : Nat) : Fld := ⟨(Adr.SAP_AES_CFG n), 10, 10⟩
abbrev Fd.SAP_AES_CFG_CRCC_GEN (n : Nat) : Fld := ⟨(Adr.SAP_AES_CFG n), 9, 9⟩
abbrev Fd.SAP_AES_CFG_WS_OUT (n : Nat) : Fld := ⟨(Adr.SAP_AES_CFG n), 7, 6⟩
abbrev Fd.SAP_AES_CFG_TX_WORD20 (n : Nat) : Fld := ⟨(Adr.SAP_AES_CFG n), 5, 5⟩
abbrev Fd.SAP_AES_CFG_U_SRC (n : Nat) : Fld := ⟨(Adr.SAP_AES_CFG n), 4, 4⟩
abbrev Fd.SAP_AES_CFG_CS_SRC (n : Nat) : Fld := ⟨(Adr.SAP_AES_CFG n), 3, 3⟩
abbrev Fd.SAP_AES_RX_STAT_LOCK (n : Nat) : Fld := ⟨(Adr.SAP_AES_RX_STAT n), 31, 30⟩
abbrev Fd.SAP_AES_RX_STAT_PRO (n : Nat) : Fld := ⟨(Adr.SAP_AES_RX_STAT n), 29, 29⟩
abbrev Fd.SAP_AES_RX_STAT_NONAUDIO (n : Nat) : Fld := ⟨(Adr.SAP_AES_RX_STAT n), 28, 28⟩
abbrev Fd.SAP_AES_RX_STAT_CS_STALE (n : Nat) : Fld := ⟨(Adr.SAP_AES_RX_STAT n), 27, 27⟩
abbrev Fd.SAP_AES_RX_STAT_CRCC_OK_A (n : Nat) : Fld := ⟨(Adr.SAP_AES_RX_STAT n), 26, 26⟩
abbrev Fd.SAP_AES_RX_STAT_CRCC_OK_B (n : Nat) : Fld := ⟨(Adr.SAP_AES_RX_STAT n), 25, 25⟩
abbrev Fd.SAP_AES_RX_STAT_BLOCKS (n : Nat) : Fld := ⟨(Adr.SAP_AES_RX_STAT n), 15, 0⟩
abbrev Fd.SAP_AES_TX_CTRL_V_FORCE (n : Nat) : Fld := ⟨(Adr.SAP_AES_TX_CTRL n), 1, 1⟩
abbrev Fd.SAP_AES_TX_CTRL_SWAP (n : Nat) : Fld := ⟨(Adr.SAP_AES_TX_CTRL n), 0, 0⟩
abbrev Fd.SAP_AES_ERR_CNT_PARITY (n : Nat) : Fld := ⟨(Adr.SAP_AES_ERR_CNT n), 31, 16⟩
abbrev Fd.SAP_AES_ERR_CNT_CODE (n : Nat) : Fld := ⟨(Adr.SAP_AES_ERR_CNT n), 15, 0⟩
abbrev Fd.SAP_AES_CS_CNT_CRCC_ERR (n : Nat) : Fld := ⟨(Adr.SAP_AES_CS_CNT n), 31, 16⟩
abbrev Fd.SAP_AES_CS_CNT_BLOCK_ERR (n : Nat) : Fld := ⟨(Adr.SAP_AES_CS_CNT n), 15, 0⟩
abbrev Fd.SAP_AES_EVT_STATUS_BITS (n : Nat) : Fld := ⟨(Adr.SAP_AES_EVT_STATUS n), 7, 0⟩
abbrev Fd.SAP_AES_EVT_ENABLE_BITS (n : Nat) : Fld := ⟨(Adr.SAP_AES_EVT_ENABLE n), 7, 0⟩
abbrev Fd.SAP_AES_RX_CS_A_BYTES (n k : Nat) : Fld := ⟨(Adr.SAP_AES_RX_CS_A n k), 31, 0⟩
abbrev Fd.SAP_AES_RX_CS_B_BYTES (n k : Nat) : Fld := ⟨(Adr.SAP_AES_RX_CS_B n k), 31, 0⟩
abbrev Fd.SAP_AES_TX_CS_A_BYTES (n k : Nat) : Fld := ⟨(Adr.SAP_AES_TX_CS_A n k), 31, 0⟩
abbrev Fd.SAP_AES_TX_CS_B_BYTES (n k : Nat) : Fld := ⟨(Adr.SAP_AES_TX_CS_B n k), 31, 0⟩
/-! AIN: 06_microphone_and_line_inputs.md -/
abbrev Fd.AIN_CTRL_CM_MUTE (n : Nat) : Fld := ⟨(Adr.AIN_CTRL n), 4, 4⟩
abbrev Fd.AIN_CTRL_INVERT (n : Nat) : Fld := ⟨(Adr.AIN_CTRL n), 3, 3⟩
abbrev Fd.AIN_CTRL_LG_ONLY (n : Nat) : Fld := ⟨(Adr.AIN_CTRL n), 2, 2⟩
abbrev Fd.AIN_CTRL_MODE (n : Nat) : Fld := ⟨(Adr.AIN_CTRL n), 1, 1⟩
abbrev Fd.AIN_CTRL_ENABLE (n : Nat) : Fld := ⟨(Adr.AIN_CTRL n), 0, 0⟩
abbrev Fd.AIN_GAIN_PREAMP (n : Nat) : Fld := ⟨(Adr.AIN_GAIN n), 7, 0⟩
abbrev Fd.AIN_GAIN_GLIDE_TICKS (n : Nat) : Fld := ⟨(Adr.AIN_GAIN_GLIDE n), 19, 0⟩
abbrev Fd.AIN_FILTER_HPF (n : Nat) : Fld := ⟨(Adr.AIN_FILTER n), 6, 4⟩
abbrev Fd.AIN_FILTER_DECIM (n : Nat) : Fld := ⟨(Adr.AIN_FILTER n), 1, 0⟩
abbrev Fd.AIN_ZC_TIMEOUT (n : Nat) : Fld := ⟨(Adr.AIN_ZC n), 15, 8⟩
abbrev Fd.AIN_ZC_THRESH (n : Nat) : Fld := ⟨(Adr.AIN_ZC n), 6, 0⟩
abbrev Fd.AIN_PHANTOM_RESERVE (n : Nat) : Fld := ⟨(Adr.AIN_PHANTOM n), 11, 8⟩
abbrev Fd.AIN_PHANTOM_PRIO (n : Nat) : Fld := ⟨(Adr.AIN_PHANTOM n), 5, 4⟩
abbrev Fd.AIN_PHANTOM_AUTO_MUTE (n : Nat) : Fld := ⟨(Adr.AIN_PHANTOM n), 1, 1⟩
abbrev Fd.AIN_PHANTOM_PH_EN (n : Nat) : Fld := ⟨(Adr.AIN_PHANTOM n), 0, 0⟩
abbrev Fd.AIN_PH_TIME_RAMP (n : Nat) : Fld := ⟨(Adr.AIN_PH_TIME n), 23, 16⟩
abbrev Fd.AIN_PH_TIME_SETTLE (n : Nat) : Fld := ⟨(Adr.AIN_PH_TIME n), 15, 0⟩
abbrev Fd.AIN_STATUS_STATE (n : Nat) : Fld := ⟨(Adr.AIN_STATUS n), 31, 28⟩
abbrev Fd.AIN_STATUS_PH_STATE (n : Nat) : Fld := ⟨(Adr.AIN_STATUS n), 27, 24⟩
abbrev Fd.AIN_STATUS_COARSE (n : Nat) : Fld := ⟨(Adr.AIN_STATUS n), 23, 20⟩
abbrev Fd.AIN_STATUS_STEP_PEND (n : Nat) : Fld := ⟨(Adr.AIN_STATUS n), 19, 19⟩
abbrev Fd.AIN_STATUS_PATH (n : Nat) : Fld := ⟨(Adr.AIN_STATUS n), 18, 18⟩
abbrev Fd.AIN_STATUS_CM_EXC (n : Nat) : Fld := ⟨(Adr.AIN_STATUS n), 17, 17⟩
abbrev Fd.AIN_STATUS_MUTED_AUTO (n : Nat) : Fld := ⟨(Adr.AIN_STATUS n), 16, 16⟩
abbrev Fd.AIN_STATUS_CFG_PEND (n : Nat) : Fld := ⟨(Adr.AIN_STATUS n), 15, 15⟩
abbrev Fd.AIN_PH_CURRENT_UA (n : Nat) : Fld := ⟨(Adr.AIN_PH_CURRENT n), 15, 0⟩
abbrev Fd.AIN_APPLIED_GAIN_GAIN (n : Nat) : Fld := ⟨(Adr.AIN_APPLIED_GAIN n), 15, 0⟩
abbrev Fd.AIN_DIAG_CAL (n : Nat) : Fld := ⟨(Adr.AIN_DIAG n), 3, 3⟩
abbrev Fd.AIN_DIAG_LEGS (n : Nat) : Fld := ⟨(Adr.AIN_DIAG n), 2, 1⟩
abbrev Fd.AIN_DIAG_START (n : Nat) : Fld := ⟨(Adr.AIN_DIAG n), 0, 0⟩
abbrev Fd.AIN_DIAG_RES_SEQ (n : Nat) : Fld := ⟨(Adr.AIN_DIAG_RES n), 31, 16⟩
abbrev Fd.AIN_DIAG_RES_CODE (n : Nat) : Fld := ⟨(Adr.AIN_DIAG_RES n), 3, 0⟩
abbrev Fd.AIN_DIAG_RP_OHMS (n : Nat) : Fld := ⟨(Adr.AIN_DIAG_RP n), 19, 0⟩
abbrev Fd.AIN_DIAG_RN_OHMS (n : Nat) : Fld := ⟨(Adr.AIN_DIAG_RN n), 19, 0⟩
abbrev Fd.AIN_DIAG_RD_OHMS (n : Nat) : Fld := ⟨(Adr.AIN_DIAG_RD n), 19, 0⟩
abbrev Fd.AIN_CNT_CLIP (n : Nat) : Fld := ⟨(Adr.AIN_CNT n), 31, 16⟩
abbrev Fd.AIN_CNT_FORCED (n : Nat) : Fld := ⟨(Adr.AIN_CNT n), 15, 8⟩
abbrev Fd.AIN_PHM_STAT_RAIL (n : Nat) : Fld := ⟨(Adr.AIN_PHM_STAT n), 31, 16⟩
abbrev Fd.AIN_PHM_STAT_RESERVED_MA (n : Nat) : Fld := ⟨(Adr.AIN_PHM_STAT n), 15, 8⟩
abbrev Fd.AIN_PHM_STAT_CAPACITY_MA (n : Nat) : Fld := ⟨(Adr.AIN_PHM_STAT n), 7, 0⟩
abbrev Fd.AIN_PHM_CNT_FOLD (n : Nat) : Fld := ⟨(Adr.AIN_PHM_CNT n), 31, 16⟩
abbrev Fd.AIN_PHM_CNT_DENIED (n : Nat) : Fld := ⟨(Adr.AIN_PHM_CNT n), 15, 0⟩
/-! AOUT: 09_line_headphone_jacks.md -/
abbrev Fd.AOUT_CTRL_UNBAL (n : Nat) : Fld := ⟨(Adr.AOUT_CTRL n), 2, 2⟩
abbrev Fd.AOUT_CTRL_INVERT (n : Nat) : Fld := ⟨(Adr.AOUT_CTRL n), 1, 1⟩
abbrev Fd.AOUT_CTRL_ENABLE (n : Nat) : Fld := ⟨(Adr.AOUT_CTRL n), 0, 0⟩
abbrev Fd.AOUT_GAIN_PRESENT (n : Nat) : Fld := ⟨(Adr.AOUT_GAIN n), 31, 16⟩
abbrev Fd.AOUT_GAIN_TARGET (n : Nat) : Fld := ⟨(Adr.AOUT_GAIN n), 15, 0⟩
abbrev Fd.AOUT_GLIDE_TICKS (n : Nat) : Fld := ⟨(Adr.AOUT_GLIDE n), 19, 0⟩
abbrev Fd.AOUT_START_CM_RAMP (n : Nat) : Fld := ⟨(Adr.AOUT_START n), 15, 8⟩
abbrev Fd.AOUT_START_SETTLE (n : Nat) : Fld := ⟨(Adr.AOUT_START n), 7, 0⟩
abbrev Fd.AOUT_STATUS_STATE (n : Nat) : Fld := ⟨(Adr.AOUT_STATUS n), 31, 29⟩
abbrev Fd.AOUT_STATUS_CFG_PEND (n : Nat) : Fld := ⟨(Adr.AOUT_STATUS n), 28, 28⟩
abbrev Fd.AOUT_STATUS_SERVO (n : Nat) : Fld := ⟨(Adr.AOUT_STATUS n), 15, 0⟩
/-! HP: 09_line_headphone_jacks.md -/
abbrev Fd.HP_CTRL_MIC_IN (n : Nat) : Fld := ⟨(Adr.HP_CTRL n), 11, 8⟩
abbrev Fd.HP_CTRL_MIC_EN (n : Nat) : Fld := ⟨(Adr.HP_CTRL n), 4, 4⟩
abbrev Fd.HP_CTRL_GND_POLE (n : Nat) : Fld := ⟨(Adr.HP_CTRL n), 3, 2⟩
abbrev Fd.HP_CTRL_MIC_BIAS (n : Nat) : Fld := ⟨(Adr.HP_CTRL n), 1, 1⟩
abbrev Fd.HP_CTRL_ENABLE (n : Nat) : Fld := ⟨(Adr.HP_CTRL n), 0, 0⟩
abbrev Fd.HP_GAIN_PRESENT (n k : Nat) : Fld := ⟨(Adr.HP_GAIN n k), 31, 16⟩
abbrev Fd.HP_GAIN_TARGET (n k : Nat) : Fld := ⟨(Adr.HP_GAIN n k), 15, 0⟩
abbrev Fd.HP_GLIDE_TICKS (n : Nat) : Fld := ⟨(Adr.HP_GLIDE n), 19, 0⟩
abbrev Fd.HP_STATUS_STATE (n : Nat) : Fld := ⟨(Adr.HP_STATUS n), 31, 29⟩
abbrev Fd.HP_STATUS_CP_OK (n : Nat) : Fld := ⟨(Adr.HP_STATUS n), 28, 28⟩
abbrev Fd.HP_STATUS_POLE (n : Nat) : Fld := ⟨(Adr.HP_STATUS n), 27, 27⟩
abbrev Fd.HP_STATUS_MIC_PEND (n : Nat) : Fld := ⟨(Adr.HP_STATUS n), 26, 26⟩
abbrev Fd.HP_STATUS_BUTTON (n : Nat) : Fld := ⟨(Adr.HP_STATUS n), 25, 22⟩
abbrev Fd.HP_LOAD_OHMS (n k : Nat) : Fld := ⟨(Adr.HP_LOAD n k), 19, 0⟩
/-! AMP: 10_speaker_amplifier.md -/
abbrev Fd.AMP_CTRL_HPF (n : Nat) : Fld := ⟨(Adr.AMP_CTRL n), 2, 2⟩
abbrev Fd.AMP_CTRL_INVERT (n : Nat) : Fld := ⟨(Adr.AMP_CTRL n), 1, 1⟩
abbrev Fd.AMP_CTRL_ENABLE (n : Nat) : Fld := ⟨(Adr.AMP_CTRL n), 0, 0⟩
abbrev Fd.AMP_GAIN_PRESENT (n : Nat) : Fld := ⟨(Adr.AMP_GAIN n), 31, 16⟩
abbrev Fd.AMP_GAIN_TARGET (n : Nat) : Fld := ⟨(Adr.AMP_GAIN n), 15, 0⟩
abbrev Fd.AMP_GLIDE_TICKS (n : Nat) : Fld := ⟨(Adr.AMP_GLIDE n), 19, 0⟩
abbrev Fd.AMP_CFG_START_IDLE (n : Nat) : Fld := ⟨(Adr.AMP_CFG n), 15, 12⟩
abbrev Fd.AMP_CFG_VFS (n : Nat) : Fld := ⟨(Adr.AMP_CFG n), 8, 0⟩
abbrev Fd.AMP_OCP_RETRY_MAX (n : Nat) : Fld := ⟨(Adr.AMP_OCP n), 27, 24⟩
abbrev Fd.AMP_OCP_RETRY_DELAY (n : Nat) : Fld := ⟨(Adr.AMP_OCP n), 23, 16⟩
abbrev Fd.AMP_OCP_PEAK (n : Nat) : Fld := ⟨(Adr.AMP_OCP n), 4, 0⟩
abbrev Fd.AMP_STATUS_STATE (n : Nat) : Fld := ⟨(Adr.AMP_STATUS n), 31, 29⟩
abbrev Fd.AMP_STATUS_CAUSE (n : Nat) : Fld := ⟨(Adr.AMP_STATUS n), 28, 25⟩
abbrev Fd.AMP_STATUS_RETRIES (n : Nat) : Fld := ⟨(Adr.AMP_STATUS n), 24, 21⟩
abbrev Fd.AMP_STATUS_PHASE (n : Nat) : Fld := ⟨(Adr.AMP_STATUS n), 20, 19⟩
abbrev Fd.AMP_STATUS_PAIRED (n : Nat) : Fld := ⟨(Adr.AMP_STATUS n), 18, 18⟩
abbrev Fd.AMP_STATUS_CFG_PEND (n : Nat) : Fld := ⟨(Adr.AMP_STATUS n), 17, 17⟩
abbrev Fd.AMP_STATUS_LIMITING (n : Nat) : Fld := ⟨(Adr.AMP_STATUS n), 16, 16⟩
abbrev Fd.AMP_LIMIT_CEILING (n : Nat) : Fld := ⟨(Adr.AMP_LIMIT n), 31, 16⟩
abbrev Fd.AMP_LIMIT_GR (n : Nat) : Fld := ⟨(Adr.AMP_LIMIT n), 15, 0⟩
abbrev Fd.AMP_TEMP_DEGC (n : Nat) : Fld := ⟨(Adr.AMP_TEMP n), 15, 0⟩
abbrev Fd.AMP_DC_V10MV (n : Nat) : Fld := ⟨(Adr.AMP_DC n), 15, 0⟩
abbrev Fd.AMP_CNT_CLIP (n : Nat) : Fld := ⟨(Adr.AMP_CNT n), 31, 16⟩
abbrev Fd.AMP_CNT_SHUTDOWNS (n : Nat) : Fld := ⟨(Adr.AMP_CNT n), 15, 8⟩
abbrev Fd.AMP_CNT_THERMAL (n : Nat) : Fld := ⟨(Adr.AMP_CNT n), 7, 0⟩
/-! GSLOT: 08_mixing_and_processing.md -/
abbrev Fd.GSLOT_SLOT0_PRESENT (n : Nat) : Fld := ⟨(Adr.GSLOT_SLOT0 n), 31, 16⟩
abbrev Fd.GSLOT_SLOT0_TARGET (n : Nat) : Fld := ⟨(Adr.GSLOT_SLOT0 n), 15, 0⟩
abbrev Fd.GSLOT_SLOT1_INVERT (n : Nat) : Fld := ⟨(Adr.GSLOT_SLOT1 n), 31, 31⟩
abbrev Fd.GSLOT_SLOT1_USE_DEF (n : Nat) : Fld := ⟨(Adr.GSLOT_SLOT1 n), 30, 30⟩
abbrev Fd.GSLOT_SLOT1_GLIDE (n : Nat) : Fld := ⟨(Adr.GSLOT_SLOT1 n), 19, 0⟩
/-! BIQUAD: 08_mixing_and_processing.md -/
abbrev Fd.BIQUAD_B0_B0 (n : Nat) : Fld := ⟨(Adr.BIQUAD_B0 n), 31, 0⟩
abbrev Fd.BIQUAD_B1_B1 (n : Nat) : Fld := ⟨(Adr.BIQUAD_B1 n), 31, 0⟩
abbrev Fd.BIQUAD_B2_B2 (n : Nat) : Fld := ⟨(Adr.BIQUAD_B2 n), 31, 0⟩
abbrev Fd.BIQUAD_A1_A1 (n : Nat) : Fld := ⟨(Adr.BIQUAD_A1 n), 31, 0⟩
abbrev Fd.BIQUAD_A2_A2 (n : Nat) : Fld := ⟨(Adr.BIQUAD_A2 n), 31, 0⟩
abbrev Fd.BIQUAD_CTL_BYPASS (n : Nat) : Fld := ⟨(Adr.BIQUAD_CTL n), 31, 31⟩
abbrev Fd.BIQUAD_CTL_RESET (n : Nat) : Fld := ⟨(Adr.BIQUAD_CTL n), 30, 30⟩
abbrev Fd.BIQUAD_CTL_MARK (n : Nat) : Fld := ⟨(Adr.BIQUAD_CTL n), 11, 0⟩
/-! DYN: 08_mixing_and_processing.md -/
abbrev Fd.DYN_CTL_BYPASS (n : Nat) : Fld := ⟨(Adr.DYN_CTL n), 31, 31⟩
abbrev Fd.DYN_CTL_RESET (n : Nat) : Fld := ⟨(Adr.DYN_CTL n), 30, 30⟩
abbrev Fd.DYN_CTL_MODE (n : Nat) : Fld := ⟨(Adr.DYN_CTL n), 29, 28⟩
abbrev Fd.DYN_CTL_DETECT (n : Nat) : Fld := ⟨(Adr.DYN_CTL n), 27, 27⟩
abbrev Fd.DYN_CTL_SC_EN (n : Nat) : Fld := ⟨(Adr.DYN_CTL n), 26, 26⟩
abbrev Fd.DYN_CTL_SC_SRC (n : Nat) : Fld := ⟨(Adr.DYN_CTL n), 25, 16⟩
abbrev Fd.DYN_CTL_MARK (n : Nat) : Fld := ⟨(Adr.DYN_CTL n), 11, 0⟩
abbrev Fd.DYN_THRESH_THRESH (n : Nat) : Fld := ⟨(Adr.DYN_THRESH n), 15, 0⟩
abbrev Fd.DYN_RATIO_RATIO (n : Nat) : Fld := ⟨(Adr.DYN_RATIO n), 11, 0⟩
abbrev Fd.DYN_KNEE_KNEE (n : Nat) : Fld := ⟨(Adr.DYN_KNEE n), 15, 0⟩
abbrev Fd.DYN_ATTACK_ATTACK (n : Nat) : Fld := ⟨(Adr.DYN_ATTACK n), 19, 0⟩
abbrev Fd.DYN_RELEASE_RELEASE (n : Nat) : Fld := ⟨(Adr.DYN_RELEASE n), 19, 0⟩
abbrev Fd.DYN_HOLD_HOLD (n : Nat) : Fld := ⟨(Adr.DYN_HOLD n), 19, 0⟩
abbrev Fd.DYN_RANGE_RANGE (n : Nat) : Fld := ⟨(Adr.DYN_RANGE n), 15, 0⟩
abbrev Fd.DYN_MAKEUP_MAKEUP (n : Nat) : Fld := ⟨(Adr.DYN_MAKEUP n), 15, 0⟩
abbrev Fd.DYN_GR_GR (n : Nat) : Fld := ⟨(Adr.DYN_GR n), 15, 0⟩
/-! DELAY: 08_mixing_and_processing.md -/
abbrev Fd.DELAY_CTL_XFADE (n : Nat) : Fld := ⟨(Adr.DELAY_CTL n), 23, 12⟩
abbrev Fd.DELAY_CTL_MARK (n : Nat) : Fld := ⟨(Adr.DELAY_CTL n), 11, 0⟩
abbrev Fd.DELAY_DELAY_DELAY (n : Nat) : Fld := ⟨(Adr.DELAY_DELAY n), 17, 0⟩
abbrev Fd.DELAY_MAXLEN_MAXLEN (n : Nat) : Fld := ⟨(Adr.DELAY_MAXLEN n), 17, 0⟩
abbrev Fd.DELAY_STAT_ALLOC (n : Nat) : Fld := ⟨(Adr.DELAY_STAT n), 31, 31⟩
abbrev Fd.DELAY_STAT_DRAIN (n : Nat) : Fld := ⟨(Adr.DELAY_STAT n), 30, 30⟩
abbrev Fd.DELAY_STAT_FILLING (n : Nat) : Fld := ⟨(Adr.DELAY_STAT n), 29, 29⟩
abbrev Fd.DELAY_STAT_GRANULES (n : Nat) : Fld := ⟨(Adr.DELAY_STAT n), 11, 0⟩
/-! GEN: 08_mixing_and_processing.md -/
abbrev Fd.GEN_CTL_LOOP (n : Nat) : Fld := ⟨(Adr.GEN_CTL n), 5, 5⟩
abbrev Fd.GEN_CTL_RESTART (n : Nat) : Fld := ⟨(Adr.GEN_CTL n), 4, 4⟩
abbrev Fd.GEN_CTL_KIND (n : Nat) : Fld := ⟨(Adr.GEN_CTL n), 3, 0⟩
abbrev Fd.GEN_LEVEL_PRESENT (n : Nat) : Fld := ⟨(Adr.GEN_LEVEL n), 31, 16⟩
abbrev Fd.GEN_LEVEL_LEVEL (n : Nat) : Fld := ⟨(Adr.GEN_LEVEL n), 15, 0⟩
abbrev Fd.GEN_GLIDE_GLIDE (n : Nat) : Fld := ⟨(Adr.GEN_GLIDE n), 19, 0⟩
abbrev Fd.GEN_FREQ_FREQ (n : Nat) : Fld := ⟨(Adr.GEN_FREQ n), 31, 0⟩
abbrev Fd.GEN_FREQ_END_FREQ_END (n : Nat) : Fld := ⟨(Adr.GEN_FREQ_END n), 31, 0⟩
abbrev Fd.GEN_SWEEP_SWEEP (n : Nat) : Fld := ⟨(Adr.GEN_SWEEP n), 19, 0⟩
abbrev Fd.GEN_SEED_SEED (n : Nat) : Fld := ⟨(Adr.GEN_SEED n), 31, 0⟩

end Sys2Proof.Machine
end

