-- ==== Sys2Proof/Machine/RegTable.lean ====
section
/-!
DEFINITION. The register table: for every page and every parameter pool, each register with its fields, their access
types (00_scope.md Table 0.2), their values after reset and the rule by which a written value is stored, as the field
tables of spec/ give them.  A field marked as a view has its home elsewhere in State (or is a constant) and holds 0 here.
-/
namespace Sys2Proof.Machine

/-- The access types of 00_scope.md Table 0.2 (R4). -/
inductive Access where
  | ro | rw | rws | w1c | wo | rc
deriving DecidableEq, Repr

/-- What a field holds after reset: a number of its table, the target of a domain (13_power_domains.md Table 13.1), or
the ratio of a clock monitor (02_clocks_and_time.md Table 2.15). -/
inductive ResetRule where
  | num (n : Nat) | domTarget | monRatio
deriving DecidableEq, Repr

/-- How a written value is stored in a field: as written; listed codes stored as others; values above a limit, or
outside a range, stored as the limit; a gain code (R6); the thresholds and codes that a table's text names. -/
inductive StoreRule where
  | plain | recode (cs : List (Nat × Nat)) | atMost (n : Nat) | between (lo hi : Nat)
  | gain | thresh | kind | route | pulse
deriving DecidableEq, Repr

/-- One field of a field table. -/
structure FieldRow where
  hi : Nat
  lo : Nat
  acc : Access
  reset : ResetRule
  store : StoreRule
  view : Bool
deriving DecidableEq, Repr

/-- One register: its offset in its page (or entry), the step and number of its copies, and its fields. -/
structure RegRow where
  off : Nat
  stride : Nat
  count : Nat
  fields : List FieldRow
deriving DecidableEq, Repr

/-- One block: its first page, its number of pages, the defined bits of EVT_STATUS and ERR, and its registers. -/
structure PageBlock where
  first : Nat
  units : Nat
  evt : Nat
  err : Nat
  regs : List RegRow
deriving DecidableEq, Repr

/-- One pool of the coefficient and object parameter memory (08_mixing_and_processing.md). -/
structure PoolRow where
  base : Nat
  size : Nat
  count : Nat
  regs : List RegRow
deriving DecidableEq, Repr

abbrev FieldRow.of (hi lo : Nat) (acc : Access) (n : Nat) (st : StoreRule := .plain) : FieldRow :=
  ⟨hi, lo, acc, .num n, st, false⟩
abbrev FieldRow.ofRule (hi lo : Nat) (acc : Access) (r : ResetRule) (st : StoreRule := .plain) : FieldRow :=
  ⟨hi, lo, acc, r, st, false⟩
abbrev FieldRow.viewOf (hi lo : Nat) (acc : Access) (st : StoreRule := .plain) : FieldRow :=
  ⟨hi, lo, acc, .num 0, st, true⟩

def sysTabRegs0 : List RegRow := [
  ⟨0x040, 0, 1, [.viewOf 31 16 .ro, .viewOf 7 0 .ro]⟩, -- ID, Table 17.9
  ⟨0x044, 0, 1, [.of 31 30 .ro 0x0, .of 29 29 .ro 1, .of 28 28 .ro 0]⟩, -- MODE, Table 17.9
  ⟨0x048, 0, 1, [.of 31 16 .rc 0, .of 15 14 .ro 0, .of 13 12 .ro 0, .of 11 11 .ro 0]⟩, -- ACCESS_ERR, Table 17.9
  ⟨0x04C, 0, 1, [.of 31 0 .ro 0]⟩ -- ACCESS_ADDR, Table 17.9
  ]
/-- Pages of `SYS` (17_boot_images_recovery.md). -/
def sysTab : PageBlock := ⟨0x000, 1, 0x7, 0x0, sysTabRegs0⟩

def aonTabRegs0 : List RegRow := [
  ⟨0x040, 0, 1, [.of 4 0 .w1c 1]⟩, -- RESET_CAUSE, Table 13.12
  ⟨0x044, 0, 1, [.of 7 0 .wo 0]⟩, -- RESET, Table 13.12
  ⟨0x048, 0, 1, [.of 3 0 .rw 4]⟩, -- IRQ_WAKE, Table 13.12
  ⟨0x04C, 0, 1, [.of 31 16 .rc 0, .of 15 0 .rc 0]⟩, -- LIFT_CNT, Table 13.12
  ⟨0x050, 4, 4, [.of 31 0 .rw 0]⟩ -- SCRATCH, Table 13.12
  ]
/-- Pages of `AON` (13_power_domains.md). -/
def aonTab : PageBlock := ⟨0x001, 1, 0x3, 0x1, aonTabRegs0⟩

def pwrTabRegs0 : List RegRow := [
  ⟨0x040, 4, 27, [.of 2 2 .rws 0, .ofRule 1 0 .rws .domTarget (.recode [(3, 2)])]⟩, -- DOM_CTRL, Table 13.9
  ⟨0x100, 8, 27, [.viewOf 31 29 .ro, .of 28 28 .w1c 0, .viewOf 27 27 .ro]⟩, -- DOM_STAT, Table 13.9
  ⟨0x104, 8, 27, [.of 31 28 .ro 0, .of 25 16 .ro 0, .of 15 0 .rc 0]⟩, -- DOM_REFUSE, Table 13.9
  ⟨0x200, 0, 1, [.viewOf 26 0 .ro]⟩, -- PAD_HELD, Table 13.10
  ⟨0x204, 0, 1, [.of 26 0 .wo 0]⟩, -- PAD_RELEASE, Table 13.10
  ⟨0x208, 0, 1, [.viewOf 31 30 .ro, .viewOf 20 16 .ro, .viewOf 15 0 .ro]⟩, -- CHANGE, Table 13.10
  ⟨0x20C, 0, 1, [.of 31 16 .rc 0, .of 15 12 .ro 0, .of 4 0 .ro 0]⟩, -- ABORTS, Table 13.10
  ⟨0x210, 0, 1, [.viewOf 1 1 .ro, .of 0 0 .rws 0]⟩, -- REG, Table 13.10
  ⟨0x214, 0, 1, [.of 31 16 .rc 0, .viewOf 15 0 .ro]⟩ -- REG_STAT, Table 13.10
  ]
/-- Pages of `PWR` (13_power_domains.md). -/
def pwrTab : PageBlock := ⟨0x002, 1, 0x1F, 0x1, pwrTabRegs0⟩

def clkTabRegs0 : List RegRow := [
  ⟨0x040, 0, 1, [.of 2 2 .rw 0, .of 1 0 .rw 0 (.recode [(3, 2)])]⟩, -- CORE, Table 2.8
  ⟨0x044, 0, 1, [.of 6 0 .rws 0]⟩, -- REF_SEL, Table 2.9
  ⟨0x048, 0, 1, [.of 31 29 .ro 0, .of 15 0 .ro 0]⟩, -- PLL_STAT, Table 2.10
  ⟨0x04C, 0, 1, [.of 15 4 .rws 0x064, .of 0 0 .rws 0]⟩, -- RELOCK, Table 2.11
  ⟨0x050, 0, 1, [.of 19 0 .rws 0x00020]⟩, -- SNAP_MUTE, Table 2.12
  ⟨0x054, 0, 1, [.of 19 0 .rws 0x001e0]⟩, -- SNAP_RETURN, Table 2.12
  ⟨0x058, 0, 1, [.of 2 2 .rws 0, .of 1 0 .rws 0]⟩, -- WCLK_OUT, Table 2.13
  ⟨0x05C, 0, 1, [.of 15 0 .rc 0]⟩, -- HOLD_CNT, Table 2.14
  ⟨0x060, 0, 1, [.of 31 0 .ro 0]⟩, -- HOLD_TIME, Table 2.14
  ⟨0x100, 8, 43, [.of 15 12 .rw 8, .ofRule 3 1 .rw .monRatio (.recode [(7, 6)]), .of 0 0 .rw 1]⟩, -- MON_CFG, Table 2.15
  ⟨0x104, 8, 43, [.of 31 30 .ro 0, .of 29 25 .ro 0x1f, .of 15 0 .ro 0]⟩, -- MON_STAT, Table 2.16
  ⟨0x300, 4, 43, [.of 31 16 .rc 0, .of 15 0 .rc 0]⟩ -- MON_CNT, Table 2.17
  ]
/-- Pages of `CLK` (02_clocks_and_time.md). -/
def clkTab : PageBlock := ⟨0x003, 1, 0xFF, 0x3, clkTabRegs0⟩

def timeTabRegs0 : List RegRow := [
  ⟨0x040, 0, 1, [.viewOf 31 0 .ro]⟩, -- SYSCNT_LO, Table 2.19
  ⟨0x044, 0, 1, [.of 31 0 .ro 0]⟩, -- SYSCNT_HI, Table 2.19
  ⟨0x048, 0, 1, [.viewOf 31 0 .ro]⟩, -- TICKCNT_LO, Table 2.19
  ⟨0x04C, 0, 1, [.of 15 0 .ro 0]⟩, -- TICKCNT_HI, Table 2.19
  ⟨0x050, 0, 1, [.of 31 0 .ro 0]⟩, -- TICK_SYSCNT_LO, Table 2.19
  ⟨0x054, 0, 1, [.of 31 0 .ro 0]⟩, -- TICK_SYSCNT_HI, Table 2.19
  ⟨0x058, 0, 1, [.of 12 4 .ro 0, .of 3 3 .ro 0, .of 2 2 .ro 0, .of 1 1 .ro 0, .viewOf 0 0 .ro]⟩, -- STATUS, Table 2.20
  ⟨0x05C, 0, 1, [.of 3 3 .wo 0, .of 2 2 .rw 1, .of 1 0 .rw 0 (.recode [(3, 0)])]⟩, -- ENS_CTRL, Table 2.21
  ⟨0x060, 0, 1, [.of 19 0 .rw 0]⟩, -- ENS_COMP, Table 2.22
  ⟨0x064, 0, 1, [.of 31 16 .rc 0, .of 15 0 .ro 0]⟩, -- ENS_STAT, Table 2.22
  ⟨0x068, 0, 1, [.viewOf 9 9 .ro, .viewOf 8 0 .ro]⟩, -- ENS_INDEX, Table 2.22
  ⟨0x100, 64, 8, [.of 2 2 .rws 0, .of 1 1 .rws 0, .of 0 0 .rws 0]⟩ -- GRP_CTRL, Table 5.5
  ]
def timeTabRegs1 : List RegRow := [
  ⟨0x104, 64, 8, [.of 31 0 .rws 0]⟩, -- GRP_MEMBERS_LO, Table 5.6
  ⟨0x108, 64, 8, [.of 31 0 .rws 0]⟩, -- GRP_MEMBERS_HI, Table 5.6
  ⟨0x10C, 64, 8, [.of 23 0 .rws 0x030000]⟩, -- GRP_DELAY, Table 5.6
  ⟨0x110, 64, 8, [.of 19 0 .rws 0x00030]⟩, -- GRP_SNOW, Table 5.6
  ⟨0x114, 64, 8, [.viewOf 31 31 .ro, .viewOf 30 28 .ro, .viewOf 27 16 .ro, .viewOf 15 0 .ro]⟩, -- GRP_STAT, Table 5.7
  ⟨0x118, 64, 8, [.of 31 0 .rc 0]⟩, -- GRP_LATE_CNT, Table 5.7
  ⟨0x11C, 64, 8, [.of 15 0 .rc 0]⟩, -- GRP_TS_LOST, Table 5.7
  ⟨0x120, 64, 8, [.of 2 2 .w1c 0, .of 1 1 .w1c 0, .of 0 0 .w1c 0]⟩, -- GRP_ERR, Table 5.8
  ⟨0x124, 64, 8, [.of 6 0 .w1c 0]⟩, -- GRP_EVT_STATUS, R127
  ⟨0x128, 64, 8, [.of 6 0 .rw 0]⟩ -- GRP_EVT_ENABLE, R127
  ]
/-- Pages of `TIME` (02_clocks_and_time.md). -/
def timeTab : PageBlock := ⟨0x004, 1, 0x3F, 0x1, timeTabRegs0 ++ timeTabRegs1⟩

def fuseTabRegs0 : List RegRow := [
  ⟨0x040, 0, 1, [.viewOf 1 1 .ro, .viewOf 0 0 .ro]⟩, -- LIFE, Table 17.11
  ⟨0x044, 0, 1, [.viewOf 31 31 .ro, .viewOf 24 16 .ro, .viewOf 8 8 .ro, .viewOf 5 4 .ro, .viewOf 3 3 .ro]⟩, -- OPTS, Table 17.11
  ⟨0x048, 4, 8, [.viewOf 31 0 .ro]⟩, -- KEY_HASH, Table 17.11
  ⟨0x068, 0, 1, [.of 31 24 .wo 0, .of 8 0 .wo 0]⟩, -- PROG, Table 17.11
  ⟨0x06C, 0, 1, [.of 31 31 .ro 0]⟩, -- PROG_STAT, Table 17.11
  ⟨0x080, 4, 16, [.viewOf 31 0 .ro]⟩ -- RAW, Table 17.11
  ]
/-- Pages of `FUSE` (17_boot_images_recovery.md). -/
def fuseTab : PageBlock := ⟨0x005, 1, 0x0, 0x7, fuseTabRegs0⟩

def bootTabRegs0 : List RegRow := [
  ⟨0x040, 0, 1, [.of 0 0 .rw 0]⟩, -- CFG, Table 17.10
  ⟨0x044, 0, 1, [.of 7 7 .wo 0, .of 6 6 .wo 0, .of 5 5 .wo 0, .of 4 4 .wo 0, .of 1 0 .rw 2 (.recode [(0, 2), (3, 2)])]⟩, -- LOAD_CTRL, Table 17.10
  ⟨0x048, 0, 1, [.of 31 24 .wo 0, .of 2 2 .wo 0, .of 1 1 .wo 0, .of 0 0 .wo 0]⟩, -- CTRL, Table 17.10
  ⟨0x04C, 0, 1, [.of 6 0 .rw 0]⟩, -- LOAD_PAGE, Table 17.10
  ⟨0x050, 0, 1, [.of 31 29 .ro 0, .of 28 27 .ro 0, .of 26 26 .ro 0, .of 25 24 .ro 0, .of 23 16 .ro 0]⟩, -- LOAD_STAT, Table 17.10
  ⟨0x054, 0, 1, [.of 31 0 .ro 0]⟩, -- SUPP_VER, Table 17.10
  ⟨0x058, 0, 1, [.of 31 0 .ro 0]⟩, -- SVC_VER, Table 17.10
  ⟨0x05C, 0, 1, [.viewOf 31 16 .ro, .of 15 0 .ro 0]⟩, -- EPOCHS, Table 17.10
  ⟨0x060, 0, 1, [.of 31 30 .ro 0]⟩, -- SVC_STAT, Table 17.10
  ⟨0x800, 4, 512, [.of 31 0 .wo 0]⟩ -- WINDOW, Table 17.10
  ]
/-- Pages of `BOOT` (17_boot_images_recovery.md). -/
def bootTab : PageBlock := ⟨0x006, 1, 0x3F, 0xF, bootTabRegs0⟩

def dbgTabRegs0 : List RegRow := [
  ⟨0x040, 0, 1, [.of 0 0 .rw 0]⟩, -- CTRL, Table 17.11
  ⟨0x044, 0, 1, [.viewOf 2 2 .ro, .of 1 1 .ro 0, .of 0 0 .ro 0]⟩ -- STATUS, Table 17.11
  ]
/-- Pages of `DBG` (17_boot_images_recovery.md). -/
def dbgTab : PageBlock := ⟨0x007, 1, 0x0, 0x1, dbgTabRegs0⟩

def cpTabRegs0 : List RegRow := [
  ⟨0x040, 0, 1, [.of 4 4 .rw 0, .of 3 3 .rw 1, .of 2 2 .rw 1, .of 1 1 .rw 0, .of 0 0 .rw 0]⟩, -- IRQ_CFG, Table 14.12
  ⟨0x044, 0, 1, [.viewOf 2 2 .ro, .viewOf 1 1 .ro, .viewOf 0 0 .ro]⟩, -- IRQ_STAT, Table 14.12
  ⟨0x048, 0, 1, [.viewOf 31 30 .ro, .viewOf 29 29 .ro]⟩, -- SESSION, Table 14.12
  ⟨0x04C, 0, 1, [.viewOf 31 0 .ro]⟩, -- HOST_ID, Table 14.12
  ⟨0x050, 0, 1, [.viewOf 31 16 .ro, .viewOf 15 0 .ro]⟩, -- LEASE, Table 14.12
  ⟨0x054, 0, 1, [.viewOf 31 16 .ro, .viewOf 15 0 .ro]⟩, -- SEQ, Table 14.12
  ⟨0x058, 0, 1, [.viewOf 20 16 .ro, .viewOf 12 8 .ro, .viewOf 4 0 .ro]⟩, -- CREDITS, Table 14.12
  ⟨0x05C, 0, 1, [.of 31 0 .ro 0]⟩, -- RX_CNT, Table 14.12
  ⟨0x060, 0, 1, [.of 31 16 .rc 0, .of 15 0 .rc 0]⟩, -- ERR_CNT0, Table 14.12
  ⟨0x064, 0, 1, [.of 31 16 .rc 0, .of 15 0 .rc 0]⟩, -- ERR_CNT1, Table 14.12
  ⟨0x068, 0, 1, [.of 31 16 .rc 0, .of 15 8 .rc 0, .of 7 0 .rc 0]⟩, -- ERR_CNT2, Table 14.12
  ⟨0x06C, 0, 1, [.of 31 16 .rc 0, .of 15 0 .rc 0]⟩ -- SES_CNT, Table 14.12
  ]
def cpTabRegs1 : List RegRow := [
  ⟨0x070, 0, 1, [.viewOf 10 10 .rw, .viewOf 7 7 .rw, .viewOf 6 0 .rw]⟩ -- XPORT, Table 14.12
  ]
/-- Pages of `CP` (14_control_ports.md). -/
def cpTab : PageBlock := ⟨0x008, 4, 0x1F, 0x0, cpTabRegs0 ++ cpTabRegs1⟩

def ringTabRegs0 : List RegRow := [
  ⟨0x040, 0, 1, [.viewOf 28 16 .ro, .viewOf 12 0 .ro]⟩, -- GRAN_A, Table 16.6
  ⟨0x044, 0, 1, [.of 25 13 .ro 0, .of 12 0 .ro 0]⟩, -- GRAN_B, Table 16.6
  ⟨0x048, 4, 2, [.of 31 0 .ro 0]⟩, -- CAP_T0, Table 16.6
  ⟨0x050, 4, 2, [.of 31 0 .ro 0]⟩, -- CAP_LOSTTICK, Table 16.6
  ⟨0x058, 0, 1, [.of 27 16 .rw 0x100, .of 11 0 .rw 0x100]⟩, -- INJ_CFG, Table 16.6
  ⟨0x05C, 0, 1, [.of 31 16 .rc 0, .of 15 0 .rc 0]⟩, -- INJ_CNT, Table 16.6
  ⟨0x060, 0, 1, [.of 31 0 .w1c 0]⟩, -- WM_STATUS, Table 16.6
  ⟨0x064, 0, 1, [.of 31 0 .rw 0]⟩, -- WM_ENABLE, Table 16.6
  ⟨0x068, 0, 1, [.of 12 0 .ro 0]⟩, -- GRAN_C, Table 16.6
  ⟨0x100, 16, 32, [.viewOf 31 31 .rw, .viewOf 30 30 .rw, .viewOf 23 20 .rw, .viewOf 16 8 .rw, .viewOf 7 0 .ro]⟩, -- RING_CFG, Table 16.6
  ⟨0x104, 16, 32, [.viewOf 31 0 .rw]⟩, -- RING_PROD, Table 16.6
  ⟨0x108, 16, 32, [.viewOf 31 0 .rw]⟩ -- RING_CONS, Table 16.6
  ]
def ringTabRegs1 : List RegRow := [
  ⟨0x10C, 16, 32, [.viewOf 31 16 .rc, .viewOf 15 0 .rw]⟩ -- RING_WM, Table 16.6
  ]
/-- Pages of `RING` (16_rings_events_books.md). -/
def ringTab : PageBlock := ⟨0x00C, 1, 0x7, 0x3, ringTabRegs0 ++ ringTabRegs1⟩

def txnTabRegs0 : List RegRow := [
  ⟨0x040, 0, 1, [.of 15 0 .rw 0x03e8]⟩, -- CFG, Table 15.9
  ⟨0x044, 0, 1, [.viewOf 22 16 .ro, .viewOf 15 8 .ro, .viewOf 7 0 .ro]⟩, -- BIBS, Table 15.9
  ⟨0x048, 0, 1, [.viewOf 31 16 .ro, .viewOf 15 0 .ro]⟩, -- STAGING, Table 15.9
  ⟨0x04C, 0, 1, [.of 31 0 .ro 0]⟩, -- COMMIT_CNT, Table 15.9
  ⟨0x050, 0, 1, [.of 31 16 .rc 0, .of 15 0 .rc 0]⟩, -- ABORT_CNT, Table 15.9
  ⟨0x054, 0, 1, [.of 31 16 .ro 0, .of 15 8 .ro 0, .of 5 4 .ro 0]⟩, -- LAST_ABORT, Table 15.9
  ⟨0x058, 0, 1, [.of 9 0 .ro 0]⟩, -- LAST_PAGE, Table 15.9
  ⟨0x100, 8, 64, [.viewOf 31 16 .ro, .viewOf 15 13 .ro, .viewOf 9 8 .ro, .viewOf 7 6 .ro]⟩, -- SLOT_A, Table 15.9
  ⟨0x104, 8, 64, [.viewOf 31 24 .ro, .viewOf 13 0 .ro]⟩ -- SLOT_B, Table 15.9
  ]
/-- Pages of `TXN` (15_transactions_and_hosts.md). -/
def txnTab : PageBlock := ⟨0x00D, 1, 0x7, 0x0, txnTabRegs0⟩

def crcTabRegs0 : List RegRow := [
  ⟨0x040, 128, 26, [.viewOf 9 9 .rw, .viewOf 8 8 .rw, .viewOf 5 0 .rw]⟩, -- CFG, Table 12.4
  ⟨0x044, 128, 26, [.viewOf 31 0 .rw]⟩, -- POLY, Table 12.4
  ⟨0x048, 128, 26, [.viewOf 31 0 .rw]⟩, -- INIT, Table 12.4
  ⟨0x04C, 128, 26, [.viewOf 31 0 .rw]⟩, -- XOROUT, Table 12.4
  ⟨0x050, 128, 26, [.of 0 0 .wo 0]⟩, -- CTRL, Table 12.4
  ⟨0x054, 128, 26, [.viewOf 31 31 .ro]⟩, -- STATUS, Table 12.4
  ⟨0x058, 128, 26, [.viewOf 31 0 .ro]⟩, -- COUNT, Table 12.4
  ⟨0x05C, 128, 26, [.viewOf 31 0 .ro]⟩, -- RESULT, Table 12.4
  ⟨0x060, 128, 26, [.viewOf 31 0 .ro]⟩, -- RAW, Table 12.4
  ⟨0x064, 128, 26, [.of 7 0 .wo 0]⟩, -- DATA8, Table 12.4
  ⟨0x068, 128, 26, [.of 15 0 .wo 0]⟩, -- DATA16, Table 12.4
  ⟨0x06C, 128, 26, [.of 31 0 .wo 0]⟩ -- DATA32, Table 12.4
  ]
def crcTabRegs1 : List RegRow := [
  ⟨0x070, 128, 26, [.viewOf 31 31 .rw, .viewOf 30 28 .ro, .viewOf 1 0 .ro]⟩ -- OWN, Table 12.4
  ]
/-- Pages of `CRC` (12_crc_engines.md). -/
def crcTab : PageBlock := ⟨0x00E, 1, 0x0, 0x3, crcTabRegs0 ++ crcTabRegs1⟩

def dumpTabRegs0 : List RegRow := [
  ⟨0x040, 0, 1, [.of 1 1 .wo 0, .of 0 0 .wo 0]⟩, -- CTRL, Table 17.11
  ⟨0x044, 0, 1, [.of 31 30 .ro 0, .of 23 16 .ro 0, .of 15 0 .ro 0]⟩, -- STATUS, Table 17.11
  ⟨0x048, 0, 1, [.of 31 0 .ro 0]⟩, -- LEN, Table 17.11
  ⟨0x04C, 0, 1, [.of 15 0 .rc 0]⟩ -- LOST_CNT, Table 17.11
  ]
/-- Pages of `DUMP` (17_boot_images_recovery.md). -/
def dumpTab : PageBlock := ⟨0x00F, 1, 0x3, 0x0, dumpTabRegs0⟩

def fabTabRegs0 : List RegRow := [
  ⟨0x040, 0, 1, [.of 4 4 .rw 0, .of 0 0 .rws 0]⟩, -- CTRL, Table 7.8
  ⟨0x044, 0, 1, [.of 0 0 .rws 0]⟩, -- SWAP, Table 7.8
  ⟨0x048, 0, 1, [.of 16 16 .rws 0, .of 11 0 .rws 0x040]⟩, -- XOVER, Table 7.8
  ⟨0x04C, 0, 1, [.of 19 0 .rws 0x00020]⟩, -- START_GLIDE, Table 7.8
  ⟨0x050, 0, 1, [.of 31 30 .ro 0, .of 29 29 .ro 0, .of 28 28 .ro 0, .of 27 27 .ro 0, .of 26 26 .ro 0, .of 25 25 .ro 0, .of 24 24 .ro 0, .of 11 0 .ro 0]⟩, -- STAT, Table 7.9
  ⟨0x054, 0, 1, [.of 0 0 .wo 0]⟩, -- COPY, Table 7.9
  ⟨0x058, 0, 1, [.of 0 0 .wo 0]⟩, -- CHECK, Table 7.9
  ⟨0x05C, 0, 1, [.viewOf 15 0 .ro]⟩, -- LIMIT, Table 7.10
  ⟨0x060, 0, 1, [.of 31 31 .ro 0, .of 30 30 .ro 0, .of 15 0 .ro 0]⟩, -- CHECK_COST, Table 7.10
  ⟨0x064, 0, 1, [.of 8 0 .ro 0]⟩, -- CROSSING, Table 7.10
  ⟨0x068, 0, 1, [.of 15 0 .ro 0]⟩, -- RUN_COST, Table 7.10
  ⟨0x070, 0, 1, [.of 15 0 .rc 0]⟩ -- GATE_MISS_CNT, Table 7.11
  ]
def fabTabRegs1 : List RegRow := [
  ⟨0x074, 0, 1, [.of 31 0 .ro 0]⟩, -- GATE_LAST, Table 7.11
  ⟨0x078, 0, 1, [.of 31 28 .ro 0, .of 19 16 .ro 0, .of 9 0 .ro 0]⟩, -- GATE_INFO, Table 7.11
  ⟨0x07C, 0, 1, [.of 15 0 .rc 0]⟩, -- MAX_LOAD, Table 7.11
  ⟨0x080, 4, 8, [.of 19 16 .ro 0, .of 15 0 .ro 0]⟩ -- STAGE_COST, Table 7.10
  ]
/-- Pages of `FAB` (07_fabric_schedule.md). -/
def fabTab : PageBlock := ⟨0x010, 1, 0x7F, 0xF, fabTabRegs0 ++ fabTabRegs1⟩

def mixTabRegs0 : List RegRow := [
  ⟨0x040, 0, 1, [.of 19 0 .rws 0x00030]⟩, -- DEF_GLIDE, Table 8.12
  ⟨0x100, 8, 64, [.of 31 30 .rws 0 (.recode [(3, 0)]), .of 29 29 .rws 0, .of 28 20 .rws 0x030 (.recode [(0, 1)]), .of 19 0 .rws 0x00030]⟩, -- BUS_CFG, Table 8.12
  ⟨0x104, 8, 64, [.viewOf 27 16 .ro, .viewOf 15 0 .ro]⟩ -- BUS_STAT, Table 8.12
  ]
/-- Pages of `MIX` (08_mixing_and_processing.md). -/
def mixTab : PageBlock := ⟨0x011, 1, 0x3, 0x0, mixTabRegs0⟩

def procTabRegs0 : List RegRow := [
  ⟨0x040, 0, 1, [.of 31 16 .ro 0x1000, .of 15 0 .ro 0x0400]⟩, -- POOL_A, Table 8.15
  ⟨0x044, 0, 1, [.of 31 16 .ro 0x0100, .of 15 0 .ro 0x0200]⟩, -- POOL_B, Table 8.15
  ⟨0x048, 0, 1, [.viewOf 28 16 .ro, .viewOf 12 0 .ro]⟩, -- DLY_GRAN, Table 8.15
  ⟨0x04C, 0, 1, [.viewOf 9 0 .ro]⟩ -- DLY_LINES, Table 8.15
  ]
/-- Pages of `PROC` (08_mixing_and_processing.md). -/
def procTab : PageBlock := ⟨0x012, 1, 0x3, 0x1, procTabRegs0⟩

def asrcTabRegs0 : List RegRow := [
  ⟨0x040, 0, 1, [.of 19 0 .rws 0x00030]⟩, -- GLIDE_IN, Table 5.10
  ⟨0x044, 4, 2, [.viewOf 31 0 .ro]⟩, -- LOCKED, Table 5.10
  ⟨0x100, 16, 64, [.of 12 8 .rws 0, .of 6 6 .rws 0, .of 5 5 .rws 0, .of 4 4 .rws 0, .of 0 0 .rws 0]⟩, -- CH_CFG, Table 5.11
  ⟨0x104, 16, 64, [.of 31 29 .ro 0, .viewOf 28 28 .ro, .of 24 20 .ro 0x1f]⟩, -- CH_STAT, Table 5.12
  ⟨0x108, 16, 64, [.of 31 0 .ro 0]⟩, -- CH_RATIO, Table 5.12
  ⟨0x10C, 16, 64, [.of 31 16 .rc 0, .of 15 0 .rc 0]⟩ -- CH_CNT, Table 5.12
  ]
/-- Pages of `ASRC` (05_alignment_and_rate_conversion.md). -/
def asrcTab : PageBlock := ⟨0x013, 1, 0xF, 0x0, asrcTabRegs0⟩

def jackTabRegs0 : List RegRow := [
  ⟨0x040, 0, 1, [.viewOf 19 0 .ro]⟩, -- LEVELS, Table 9.12
  ⟨0x044, 0, 1, [.of 31 16 .rc 0, .of 15 0 .rc 0]⟩, -- CNT, Table 9.12
  ⟨0x048, 0, 1, [.of 19 0 .w1c 0]⟩, -- CHANGED, Table 9.12
  ⟨0x100, 8, 20, [.of 24 24 .rws 1, .of 16 16 .rws 0, .of 15 8 .rws 0x64 (.recode [(0, 1)]), .of 7 0 .rws 0x02 (.recode [(0, 1)])]⟩, -- JCFG, Table 9.12
  ⟨0x104, 8, 20, [.of 31 28 .ro 0, .of 27 27 .ro 0, .of 15 0 .ro 0]⟩, -- JSTAT, Table 9.12
  ⟨0x200, 8, 64, [.of 31 31 .rws 0, .of 30 28 .rws 0 (.recode [(5, 0), (6, 0), (7, 0)]), .of 20 16 .rws 0 (.atMost 19), .of 15 0 .rws 0]⟩, -- RULE_A, Table 9.12
  ⟨0x204, 8, 64, [.of 31 31 .rws 0, .of 27 16 .rws 0, .of 15 0 .rws 0x8000 .gain]⟩ -- RULE_B, Table 9.12
  ]
/-- Pages of `JACK` (09_line_headphone_jacks.md). -/
def jackTab : PageBlock := ⟨0x014, 1, 0xF, 0x0, jackTabRegs0⟩

def ampsysTabRegs0 : List RegRow := [
  ⟨0x040, 0, 1, [.of 5 5 .rws 0, .of 4 4 .rws 0, .of 2 2 .rws 1, .of 1 1 .rws 0, .of 0 0 .rws 0]⟩, -- CFG, Table 10.9
  ⟨0x044, 0, 1, [.of 29 28 .rws 0, .of 27 26 .rws 1, .of 24 24 .rws 1, .of 19 16 .rws 2, .of 8 0 .rws 0x0dc (.between 90 260)]⟩, -- SAG, Table 10.9
  ⟨0x048, 0, 1, [.of 31 16 .ro 0, .of 15 0 .ro 0]⟩, -- PVDD, Table 10.9
  ⟨0x04C, 0, 1, [.viewOf 3 3 .ro, .of 2 2 .ro 0, .of 1 1 .ro 0, .of 0 0 .ro 0]⟩ -- STATUS, Table 10.9
  ]
/-- Pages of `AMPSYS` (10_speaker_amplifier.md). -/
def ampsysTab : PageBlock := ⟨0x015, 1, 0x3F, 0x0, ampsysTabRegs0⟩

def hkaTabRegs0 : List RegRow := [
  ⟨0x040, 0, 1, [.of 31 16 .ro 0, .of 6 4 .rws 0, .of 1 0 .rws 0 (.recode [(3, 0)])]⟩, -- MAINS, Table 11.7
  ⟨0x044, 4, 4, [.of 19 0 .rws 0]⟩, -- TIMER, Table 11.7
  ⟨0x054, 0, 1, [.of 31 31 .wo 0, .of 15 12 .rw 0 (.atMost 8), .of 8 8 .rw 1, .of 5 0 .rw 0]⟩, -- URGENT, Table 11.7
  ⟨0x058, 0, 1, [.viewOf 9 9 .ro, .of 8 8 .ro 0, .of 7 4 .ro 0xf, .of 3 3 .ro 0, .of 2 2 .ro 0]⟩, -- STATUS, Table 11.7
  ⟨0x05C, 0, 1, [.of 15 0 .ro 0]⟩, -- WIN_STATE, Table 11.8
  ⟨0x100, 16, 16, [.of 31 31 .rws 0, .of 5 0 .rws 0]⟩, -- WIN_CFG, Table 11.8
  ⟨0x104, 16, 16, [.of 23 0 .rws 0x800000]⟩, -- WIN_LOW, Table 11.8
  ⟨0x108, 16, 16, [.of 23 0 .rws 0x7fffff]⟩, -- WIN_HIGH, Table 11.8
  ⟨0x10C, 16, 16, [.of 23 0 .rws 0]⟩, -- WIN_HYST, Table 11.8
  ⟨0x200, 4, 61, [.of 31 31 .ro 0, .of 30 30 .ro 0, .of 29 29 .ro 0, .of 23 0 .ro 0]⟩ -- LAST, Table 11.8
  ]
/-- Pages of `HKA` (11_housekeeping_converter.md). -/
def hkaTab : PageBlock := ⟨0x016, 1, 0xFFFF0007, 0x3, hkaTabRegs0⟩

def hkseqTabRegs0 : List RegRow := [
  ⟨0x040, 16, 3, [.of 31 31 .rws 0, .of 30 30 .rws 0, .of 14 8 .rws 1 (.recode [(0, 1)]), .of 5 0 .rws 0]⟩, -- SEQ_CFG, Table 11.11
  ⟨0x044, 16, 3, [.of 31 29 .rws 5 (.recode [(6, 5), (7, 5)]), .of 28 27 .rws 0, .of 26 26 .rws 0, .of 25 16 .rws 1 (.recode [(0, 1)]), .of 11 0 .rws 0]⟩, -- SEQ_TRIG, Table 11.11
  ⟨0x048, 16, 3, [.of 31 30 .ro 0, .of 21 16 .ro 0, .of 15 0 .ro 0]⟩, -- SEQ_STAT, Table 11.11
  ⟨0x04C, 16, 3, [.of 31 16 .rc 0, .of 15 0 .rc 0]⟩, -- SEQ_CNT, Table 11.11
  ⟨0x070, 0, 1, [.of 2 0 .wo 0]⟩, -- SEQ_GO, Table 11.11
  ⟨0x080, 16, 4, [.viewOf 31 0 .ro]⟩, -- POP_LO, Table 11.11
  ⟨0x084, 16, 4, [.of 31 0 .ro 0]⟩, -- POP_HI, Table 11.11
  ⟨0x088, 16, 4, [.viewOf 31 0 .ro]⟩, -- PEEK_LO, Table 11.11
  ⟨0x08C, 16, 4, [.of 31 0 .ro 0]⟩, -- PEEK_HI, Table 11.11
  ⟨0x0C0, 4, 4, [.of 15 0 .rc 0]⟩, -- LOST, Table 11.11
  ⟨0x100, 4, 64, [.of 15 12 .rws 0 (.atMost 8), .of 8 8 .rws 1, .of 5 0 .rws 0]⟩ -- ENTRY, Table 11.11
  ]
/-- Pages of `HKSEQ` (11_housekeeping_converter.md). -/
def hkseqTab : PageBlock := ⟨0x017, 1, 0xF077, 0x7, hkseqTabRegs0⟩

def tdacTabRegs0 : List RegRow := [
  ⟨0x040, 0, 1, [.of 31 31 .rw 0, .of 5 0 .rw 0 .route]⟩, -- CTRL, Table 11.13
  ⟨0x044, 0, 1, [.of 15 0 .rw 0]⟩, -- CODE, Table 11.13
  ⟨0x048, 0, 1, [.viewOf 31 30 .ro, .viewOf 29 28 .ro, .of 21 16 .ro 0, .viewOf 7 0 .ro]⟩ -- STATUS, Table 11.13
  ]
/-- Pages of `TDAC` (11_housekeeping_converter.md). -/
def tdacTab : PageBlock := ⟨0x018, 1, 0x1, 0x3, tdacTabRegs0⟩

def sapTabRegs0 : List RegRow := [
  ⟨0x040, 0, 1, [.of 5 2 .rws 0, .of 0 0 .rws 0]⟩, -- CTRL, Table 3.9
  ⟨0x044, 0, 1, [.of 11 11 .rws 0, .of 10 10 .rws 0, .of 9 9 .rws 0, .of 7 6 .rws 2 (.recode [(3, 2)]), .of 5 4 .rws 2, .of 1 0 .rws 0]⟩, -- FMT, Table 3.10
  ⟨0x048, 0, 1, [.of 8 8 .rws 0, .of 4 0 .rws 8]⟩, -- CLKCFG, Table 3.11
  ⟨0x04C, 0, 1, [.of 24 16 .rws 0x20 (.between 8 256), .of 8 8 .rws 0, .of 3 2 .rws 0 (.recode [(3, 0)]), .of 1 0 .rws 0 (.recode [(3, 0)])]⟩, -- LINE, Table 3.12
  ⟨0x050, 0, 1, [.of 15 8 .rws 0x14, .of 6 0 .rws 0x3c]⟩, -- ZC, Table 3.13
  ⟨0x054, 0, 1, [.viewOf 12 12 .ro, .of 11 8 .ro 0, .of 7 4 .ro 0, .of 2 0 .ro 0]⟩, -- STATE, Table 3.14
  ⟨0x058, 0, 1, [.viewOf 31 0 .ro]⟩, -- STAMP_LO, Table 3.15
  ⟨0x05C, 0, 1, [.of 31 0 .ro 0]⟩, -- STAMP_HI, Table 3.15
  ⟨0x060, 0, 1, [.of 31 0 .ro 0]⟩, -- BLOCK_CNT, Table 3.15
  ⟨0x064, 0, 1, [.of 15 0 .rc 0]⟩, -- FRAMING_CNT, Table 3.15
  ⟨0x068, 0, 1, [.of 1 1 .ro 0, .of 0 0 .ro 0]⟩, -- PDM, Table 3.16
  ⟨0x06C, 0, 1, [.of 0 0 .wo 0]⟩ -- CNT_CTRL, Table 3.16
  ]
def sapTabRegs1 : List RegRow := [
  ⟨0x080, 32, 2, [.viewOf 31 0 .ro]⟩, -- FRAMES_IN, Table 3.17
  ⟨0x084, 32, 2, [.of 31 0 .ro 0]⟩, -- FRAMES_OUT, Table 3.17
  ⟨0x088, 32, 2, [.of 31 0 .ro 0]⟩, -- FILL, Table 3.17
  ⟨0x08C, 32, 2, [.of 31 0 .ro 0]⟩, -- DROPPED, Table 3.17
  ⟨0x090, 32, 2, [.of 31 0 .ro 0]⟩, -- INSERTED, Table 3.17
  ⟨0x100, 0, 1, [.of 11 11 .rws 0, .of 10 10 .rws 1, .of 9 9 .rws 1, .of 7 6 .rws 0 (.recode [(3, 0)]), .of 5 5 .rws 0, .of 4 4 .rws 0, .of 3 3 .rws 0]⟩, -- AES_CFG, Table 4.6
  ⟨0x104, 0, 1, [.of 31 30 .ro 0, .of 29 29 .ro 0, .of 28 28 .ro 0, .of 27 27 .ro 0, .of 26 26 .ro 0, .of 25 25 .ro 0, .of 15 0 .ro 0]⟩, -- AES_RX_STAT, Table 4.7
  ⟨0x108, 0, 1, [.of 1 1 .rws 0, .of 0 0 .rws 0]⟩, -- AES_TX_CTRL, Table 4.8
  ⟨0x10C, 0, 1, [.of 31 16 .rc 0, .of 15 0 .rc 0]⟩, -- AES_ERR_CNT, Table 4.9
  ⟨0x110, 0, 1, [.of 31 16 .rc 0, .of 15 0 .rc 0]⟩, -- AES_CS_CNT, Table 4.9
  ⟨0x114, 0, 1, [.of 7 0 .w1c 0]⟩, -- AES_EVT_STATUS, R103
  ⟨0x118, 0, 1, [.of 7 0 .rw 0]⟩ -- AES_EVT_ENABLE, R103
  ]
def sapTabRegs2 : List RegRow := [
  ⟨0x120, 4, 6, [.of 31 0 .ro 0]⟩, -- AES_RX_CS_A, Table 4.5
  ⟨0x140, 4, 6, [.of 31 0 .ro 0]⟩, -- AES_RX_CS_B, Table 4.5
  ⟨0x160, 4, 6, [.of 31 0 .rws 0]⟩, -- AES_TX_CS_A, Table 4.5
  ⟨0x180, 4, 6, [.of 31 0 .rws 0]⟩ -- AES_TX_CS_B, Table 4.5
  ]
/-- Pages of `SAP` (03_serial_audio_ports.md). -/
def sapTab : PageBlock := ⟨0x020, 32, 0x1FF, 0x3, sapTabRegs0 ++ sapTabRegs1 ++ sapTabRegs2⟩

def ainTabRegs0 : List RegRow := [
  ⟨0x040, 0, 1, [.of 4 4 .rws 0, .of 3 3 .rws 0, .of 2 2 .rws 0, .of 1 1 .rws 0, .of 0 0 .rws 0]⟩, -- CTRL, Table 6.7
  ⟨0x044, 0, 1, [.of 7 0 .rws 0 (.atMost 144)]⟩, -- GAIN, Table 6.8
  ⟨0x048, 0, 1, [.of 19 0 .rws 0x000f0]⟩, -- GAIN_GLIDE, Table 6.8
  ⟨0x04C, 0, 1, [.of 6 4 .rws 1 (.recode [(6, 5), (7, 5)]), .of 1 0 .rws 0 (.recode [(3, 0)])]⟩, -- FILTER, Table 6.8
  ⟨0x050, 0, 1, [.of 15 8 .rws 0x14, .of 6 0 .rws 0x3c]⟩, -- ZC, Table 6.9
  ⟨0x054, 0, 1, [.of 11 8 .rws 0xa (.between 1 12), .of 5 4 .rws 0, .of 1 1 .rws 1, .of 0 0 .rws 0]⟩, -- PHANTOM, Table 6.10
  ⟨0x058, 0, 1, [.of 23 16 .rws 0x14 (.recode [(0, 1)]), .of 15 0 .rws 0x01f4]⟩, -- PH_TIME, Table 6.10
  ⟨0x05C, 0, 1, [.of 31 28 .ro 0, .of 27 24 .ro 0, .of 23 20 .ro 0, .of 19 19 .ro 0, .of 18 18 .ro 0, .of 17 17 .ro 0, .of 16 16 .ro 0, .viewOf 15 15 .ro]⟩, -- STATUS, Table 6.11
  ⟨0x060, 0, 1, [.of 15 0 .ro 0]⟩, -- PH_CURRENT, Table 6.12
  ⟨0x064, 0, 1, [.of 15 0 .ro 0]⟩, -- APPLIED_GAIN, Table 6.12
  ⟨0x068, 0, 1, [.of 3 3 .rws 0, .of 2 1 .rws 3 (.recode [(0, 3)]), .of 0 0 .rws 0]⟩, -- DIAG, Table 6.13
  ⟨0x06C, 0, 1, [.of 31 16 .ro 0, .of 3 0 .ro 0]⟩ -- DIAG_RES, Table 6.13
  ]
def ainTabRegs1 : List RegRow := [
  ⟨0x070, 0, 1, [.of 19 0 .ro 0xfffff]⟩, -- DIAG_RP, Table 6.13
  ⟨0x074, 0, 1, [.of 19 0 .ro 0xfffff]⟩, -- DIAG_RN, Table 6.13
  ⟨0x078, 0, 1, [.of 19 0 .ro 0xfffff]⟩, -- DIAG_RD, Table 6.13
  ⟨0x07C, 0, 1, [.of 31 16 .rc 0, .of 15 8 .rc 0]⟩, -- CNT, Table 6.12
  ⟨0x100, 0, 1, [.of 31 16 .ro 0, .viewOf 15 8 .ro, .of 7 0 .ro 0]⟩, -- PHM_STAT, Table 6.14
  ⟨0x104, 0, 1, [.of 31 16 .rc 0, .of 15 0 .rc 0]⟩ -- PHM_CNT, Table 6.14
  ]
/-- Pages of `AIN` (06_microphone_and_line_inputs.md). -/
def ainTab : PageBlock := ⟨0x040, 16, 0x3FF, 0x0, ainTabRegs0 ++ ainTabRegs1⟩

def aoutTabRegs0 : List RegRow := [
  ⟨0x040, 0, 1, [.of 2 2 .rws 0, .of 1 1 .rws 0, .of 0 0 .rws 0]⟩, -- CTRL, Table 9.6
  ⟨0x044, 0, 1, [.viewOf 31 16 .ro, .of 15 0 .rws 0x0000 .gain]⟩, -- GAIN, Table 9.6
  ⟨0x048, 0, 1, [.of 19 0 .rws 0x00030]⟩, -- GLIDE, Table 9.6
  ⟨0x04C, 0, 1, [.of 15 8 .rws 0x0a (.recode [(0, 1)]), .of 7 0 .rws 0x14]⟩, -- START, Table 9.6
  ⟨0x050, 0, 1, [.of 31 29 .ro 0, .viewOf 28 28 .ro, .of 15 0 .ro 0]⟩ -- STATUS, Table 9.6
  ]
/-- Pages of `AOUT` (09_line_headphone_jacks.md). -/
def aoutTab : PageBlock := ⟨0x050, 16, 0x3F, 0x0, aoutTabRegs0⟩

def hpTabRegs0 : List RegRow := [
  ⟨0x040, 0, 1, [.of 11 8 .rws 0, .of 4 4 .rws 0, .of 3 2 .rws 0 (.recode [(3, 0)]), .of 1 1 .rws 0, .of 0 0 .rws 0]⟩, -- CTRL, Table 9.9
  ⟨0x044, 4, 2, [.viewOf 31 16 .ro, .of 15 0 .rws 0x0000 .gain]⟩, -- GAIN, Table 9.9
  ⟨0x04C, 0, 1, [.of 19 0 .rws 0x00030]⟩, -- GLIDE, Table 9.9
  ⟨0x050, 0, 1, [.of 31 29 .ro 0, .of 28 28 .ro 0, .of 27 27 .ro 0, .of 26 26 .ro 0, .of 25 22 .ro 0]⟩, -- STATUS, Table 9.9
  ⟨0x054, 4, 2, [.of 19 0 .ro 0xfffff]⟩ -- LOAD, Table 9.9
  ]
/-- Pages of `HP` (09_line_headphone_jacks.md). -/
def hpTab : PageBlock := ⟨0x060, 4, 0xFF, 0x0, hpTabRegs0⟩

def ampTabRegs0 : List RegRow := [
  ⟨0x040, 0, 1, [.of 2 2 .rws 1, .of 1 1 .rws 0, .of 0 0 .rws 0]⟩, -- CTRL, Table 10.12
  ⟨0x044, 0, 1, [.viewOf 31 16 .ro, .of 15 0 .rws 0x0000 .gain]⟩, -- GAIN, Table 10.12
  ⟨0x048, 0, 1, [.of 19 0 .rws 0x00030]⟩, -- GLIDE, Table 10.12
  ⟨0x04C, 0, 1, [.of 15 12 .rws 2 (.recode [(0, 1)]), .of 8 0 .rws 0x0b3 (.between 50 300)]⟩, -- CFG, Table 10.12
  ⟨0x050, 0, 1, [.of 27 24 .rws 8, .of 23 16 .rws 0x14 (.between 1 160), .of 4 0 .rws 0x10 (.between 4 20)]⟩, -- OCP, Table 10.12
  ⟨0x054, 0, 1, [.of 31 29 .ro 0, .of 28 25 .ro 0, .of 24 21 .ro 0, .viewOf 20 19 .ro, .viewOf 18 18 .ro, .viewOf 17 17 .ro, .of 16 16 .ro 0]⟩, -- STATUS, Table 10.13
  ⟨0x058, 0, 1, [.of 31 16 .ro 0, .of 15 0 .ro 0]⟩, -- LIMIT, Table 10.13
  ⟨0x05C, 0, 1, [.of 15 0 .ro 0]⟩, -- TEMP, Table 10.13
  ⟨0x060, 0, 1, [.of 15 0 .ro 0]⟩, -- DC, Table 10.13
  ⟨0x064, 0, 1, [.of 31 16 .rc 0, .of 15 8 .rc 0, .of 7 0 .rc 0]⟩ -- CNT, Table 10.13
  ]
/-- Pages of `AMP` (10_speaker_amplifier.md). -/
def ampTab : PageBlock := ⟨0x068, 4, 0x3FF, 0x0, ampTabRegs0⟩

def gslotRowsRegs0 : List RegRow := [
  ⟨0x000, 0, 1, [.viewOf 31 16 .ro, .of 15 0 .rws 0x8000 .gain]⟩, -- SLOT0, Table 8.2
  ⟨0x004, 0, 1, [.of 31 31 .rws 0, .of 30 30 .rws 0, .of 19 0 .rws 0x00030]⟩ -- SLOT1, Table 8.3
  ]
/-- Parameter pool (08_mixing_and_processing.md). -/
def gslotRows : PoolRow := ⟨0x50040000, 8, 4096, gslotRowsRegs0⟩

def biquadRowsRegs0 : List RegRow := [
  ⟨0x000, 0, 1, [.of 31 0 .rws 0x10000000]⟩, -- B0, Table 8.5
  ⟨0x004, 0, 1, [.of 31 0 .rws 0]⟩, -- B1, Table 8.5
  ⟨0x008, 0, 1, [.of 31 0 .rws 0]⟩, -- B2, Table 8.5
  ⟨0x00C, 0, 1, [.of 31 0 .rws 0]⟩, -- A1, Table 8.5
  ⟨0x010, 0, 1, [.of 31 0 .rws 0]⟩, -- A2, Table 8.5
  ⟨0x014, 0, 1, [.of 31 31 .rws 0, .of 30 30 .rws 0 .pulse, .of 11 0 .rws 0]⟩ -- CTL, Table 8.5
  ]
/-- Parameter pool (08_mixing_and_processing.md). -/
def biquadRows : PoolRow := ⟨0x50048000, 32, 1024, biquadRowsRegs0⟩

def dynRowsRegs0 : List RegRow := [
  ⟨0x000, 0, 1, [.of 31 31 .rws 0, .of 30 30 .rws 0 .pulse, .of 29 28 .rws 0, .of 27 27 .rws 0, .of 26 26 .rws 0, .of 25 16 .rws 0, .of 11 0 .rws 0]⟩, -- CTL, Table 8.6
  ⟨0x004, 0, 1, [.of 15 0 .rws 0 .thresh]⟩, -- THRESH, Table 8.6
  ⟨0x008, 0, 1, [.of 11 0 .rws 0x010 (.between 16 1600)]⟩, -- RATIO, Table 8.6
  ⟨0x00C, 0, 1, [.of 15 0 .rws 0 (.atMost 0xc00)]⟩, -- KNEE, Table 8.6
  ⟨0x010, 0, 1, [.of 19 0 .rws 0x30]⟩, -- ATTACK, Table 8.6
  ⟨0x014, 0, 1, [.of 19 0 .rws 0x1770]⟩, -- RELEASE, Table 8.6
  ⟨0x018, 0, 1, [.of 19 0 .rws 0]⟩, -- HOLD, Table 8.6
  ⟨0x01C, 0, 1, [.of 15 0 .rws 0xd800 .gain]⟩, -- RANGE, Table 8.6
  ⟨0x020, 0, 1, [.of 15 0 .rws 0 .gain]⟩, -- MAKEUP, Table 8.6
  ⟨0x03C, 0, 1, [.viewOf 15 0 .ro]⟩ -- GR, Table 8.6
  ]
/-- Parameter pool (08_mixing_and_processing.md). -/
def dynRows : PoolRow := ⟨0x50050000, 64, 256, dynRowsRegs0⟩

def delayRowsRegs0 : List RegRow := [
  ⟨0x000, 0, 1, [.of 23 12 .rws 0x040, .of 11 0 .rws 0]⟩, -- CTL, Table 8.7
  ⟨0x004, 0, 1, [.of 17 0 .rws 0]⟩, -- DELAY, Table 8.7
  ⟨0x008, 0, 1, [.of 17 0 .rws 0 (.atMost 192000)]⟩, -- MAXLEN, Table 8.7
  ⟨0x00C, 0, 1, [.viewOf 31 31 .ro, .viewOf 30 30 .ro, .viewOf 29 29 .ro, .viewOf 11 0 .ro]⟩ -- STAT, Table 8.7
  ]
/-- Parameter pool (08_mixing_and_processing.md). -/
def delayRows : PoolRow := ⟨0x50054000, 16, 512, delayRowsRegs0⟩

def genRowsRegs0 : List RegRow := [
  ⟨0x000, 0, 1, [.of 5 5 .rws 0, .of 4 4 .rws 0 .pulse, .of 3 0 .rws 0 .kind]⟩, -- CTL, Table 8.9
  ⟨0x004, 0, 1, [.viewOf 31 16 .ro, .of 15 0 .rws 0x8000 .gain]⟩, -- LEVEL, Table 8.9
  ⟨0x008, 0, 1, [.of 19 0 .rws 0x30]⟩, -- GLIDE, Table 8.9
  ⟨0x00C, 0, 1, [.of 31 0 .rws 0x05555555]⟩, -- FREQ, Table 8.9
  ⟨0x010, 0, 1, [.of 31 0 .rws 0x05555555]⟩, -- FREQ_END, Table 8.9
  ⟨0x014, 0, 1, [.of 19 0 .rws 0x0bb80]⟩, -- SWEEP, Table 8.9
  ⟨0x018, 0, 1, [.of 31 0 .rws 1 (.recode [(0, 1)])]⟩ -- SEED, Table 8.9
  ]
/-- Parameter pool (08_mixing_and_processing.md). -/
def genRows : PoolRow := ⟨0x50056000, 64, 16, genRowsRegs0⟩

/-- Every block, in page order (Table 18.1). -/
def pageBlocks : List PageBlock := [
  sysTab, aonTab, pwrTab, clkTab, timeTab, fuseTab, bootTab, dbgTab,
  cpTab, ringTab, txnTab, crcTab, dumpTab, fabTab, mixTab, procTab,
  asrcTab, jackTab, ampsysTab, hkaTab, hkseqTab, tdacTab, sapTab, ainTab,
  aoutTab, hpTab, ampTab]

/-- Every pool of the parameter memory. -/
def paramPools : List PoolRow := [gslotRows, biquadRows, dynRows, delayRows, genRows]

end Sys2Proof.Machine
end

