-- ==== Sys2Proof/Machine/Sparse.lean ====
section
/-!
DEFINITION. Sparse data by key: a list of key and value pairs, keys strictly rising, no entry equal to what an unlisted
key reads as.  Registers, memory and gains are held in this form.
-/
namespace Sys2Proof.Machine

/-- The value at key `a`, or `d` where the list has none. -/
def sparseGet {β : Type} (d : β) : List (Nat × β) → Nat → β
  | [], _ => d
  | (k, v) :: l, a => if k = a then v else sparseGet d l a

/-- Puts an entry before the first greater key. -/
def sparseInsert {β : Type} (a : Nat) (v : β) : List (Nat × β) → List (Nat × β)
  | [] => [(a, v)]
  | (k, w) :: l => if a < k then (a, v) :: (k, w) :: l else (k, w) :: sparseInsert a v l

/-- Every entry but those of key `a`. -/
def sparseErase {β : Type} (a : Nat) : List (Nat × β) → List (Nat × β)
  | [] => []
  | (k, w) :: l => if k = a then sparseErase a l else (k, w) :: sparseErase a l

/-- Stores `v` at key `a`, where `d` is what the key reads as when unlisted. -/
def sparseSet {β : Type} [DecidableEq β] (d : β) (l : List (Nat × β)) (a : Nat) (v : β) : List (Nat × β) :=
  if v = d then sparseErase a l else sparseInsert a v (sparseErase a l)

/-- The canonical form: keys strictly rising, no entry at its default. -/
abbrev sparseWf {β : Type} (d : Nat → β) (l : List (Nat × β)) : Prop :=
  l.Pairwise (fun x y => x.1 < y.1) ∧ ∀ x ∈ l, x.2 ≠ d x.1

end Sys2Proof.Machine
end

