-- ==== Sys2Proof/Machine/State.lean ====
section
/-!
DEFINITION. The state of the block as plain data, its reasons to stop, and the state after reset.

Host-visible registers have one home: `State.regs`, by address, except those whose home is a typed field below (their
registers are composed when read).  Memory is one list of bytes by address.
-/
namespace Sys2Proof.Machine

/-! ## Samples and gains -/

/-- The tag of a sample (01_architecture.md Table 1.3, R13). -/
structure Tag where
  valid : Bool
  settling : Bool
  synth : Bool
  xover : Bool
  clipped : Bool
  u : Bool
  c : Bool
  blockStart : Bool
deriving DecidableEq, Repr

/-- A sample of the fabric: its Q1.31 code (R8) and its tag. -/
structure Sample where
  v : Int
  tag : Tag
deriving DecidableEq, Repr

/-- A gain in dB: mute, or `num / den` units of 1/128 dB (00_scope.md R6). -/
inductive Gain where
  | mute | db (num : Int) (den : Nat)
deriving DecidableEq, Repr

/-- A glide (08_mixing_and_processing.md R195–R197): the present gain, its target, the ticks left of a glide under way
and its whole length, and the gain it began from. -/
structure Glide where
  now : Gain
  target : Gain
  left : Nat
  total : Nat
  start : Gain
deriving DecidableEq, Repr

/-! ## Rings and events -/

/-- A ring (16_rings_events_books.md R371–R375).  `lost` is the LOST count of RINGr_WM, `lostBefore` whether a record
was lost since the last one written. -/
structure Ring where
  enable : Bool
  pack : Bool
  log2n : Nat
  base : Nat
  prod : Word
  cons : Word
  wm : Nat
  lost : Nat
  lostBefore : Bool
deriving DecidableEq, Repr

/-- An event record (16_rings_events_books.md Table 16.2). -/
structure EvtRec where
  stamp : Nat
  coarse : Bool
  forced : Bool
  reg : Nat
  page : Nat
  bitNo : Nat
  detail : Nat
deriving DecidableEq, Repr

/-! ## Power domains -/

/-- The state of a domain (13_power_domains.md R301, R311); a domain on its way carries where it came from or goes. -/
inductive DomPhase where
  | off | ret | on
  | waking (fromOff : Bool)
  | lowering (toOff : Bool)
deriving DecidableEq, Repr

/-- A power domain: its phase, and whether its pad group is held (R314). -/
structure Dom where
  phase : DomPhase
  padHeld : Bool
deriving DecidableEq, Repr

/-- Who asked for a power change: a transaction, a direct write of a port, an access of a port held for a wake, or the
lift (R305, R313, R318). -/
inductive ChangeBy where
  | txn (bib : Nat) | direct (port : Nat) (bib : Nat) | access (port : Nat) (bib : Nat) | lift
deriving DecidableEq, Repr

/-- Where a power change stands (R310): asking the voters, waking, waiting for its tick, lowering. -/
inductive ChangePhase where
  | vote | wake | wait | lower
deriving DecidableEq, Repr

/-- A power change under way (R305–R310): its cause and phase, the TARGETs it writes, the voters still to answer and those that
agreed (domain and page), the domains still to wake, those still to lower and those woken (each with whether OFF is its other
state), the port and SEQ of the response that the lowering of CORE waits for, and whether it restores woken domains. -/
structure Change where
  cause : ChangeBy
  phase : ChangePhase
  writes : List (Nat × Nat)
  voters : List (Nat × Nat)
  agreed : List (Nat × Nat)
  wakes : List Nat
  lowers : List (Nat × Bool)
  woken : List (Nat × Bool)
  coreAfter : Option (Fin 4 × Nat)
  restoring : Bool
deriving DecidableEq, Repr

/-- What resets the device (R320, R425). -/
inductive ResetSource where
  | powerOn | supply | pin | host | watchdog
deriving DecidableEq, Repr

/-! ## Control ports -/

/-- The session of a port (14_control_ports.md R342). -/
inductive Session where
  | none | opened | grace
deriving DecidableEq, Repr

/-- The result of one operation (R331). -/
structure OpResult where
  op : Nat
  status : Nat
  data : List Byte
deriving DecidableEq, Repr

/-- An accepted frame whose response is not formed: its SEQ, its operations, whether a later HELLO or the end of its session has
cancelled its response, and its place in the order of acceptance (R333). -/
structure CmdFrame where
  seq : Nat
  ops : List Instr
  void : Bool
  turn : Nat
deriving DecidableEq, Repr

/-- What an operation of a port waits for (R333): the outcome of its commit; the end of an in-flight page or of a vote;
its implicit transaction, with the data of its result; a wake (R313); the end of an image check (17_boot_images_recovery.md
R387), with the data of its result; a result that has come; or the operations before it. -/
inductive Wait where
  | outcome (bib : Nat)
  | retry
  | power (data : List Byte)
  | wake
  | image (data : List Byte)
  | ready (r : OpResult)
  | behind
deriving DecidableEq, Repr

/-- A waiting operation of a port: whether it is one of the port's oldest frame, and its place in the order of acceptance (R333). -/
structure WaitOp where
  op : Instr
  wait : Wait
  framed : Bool
  turn : Nat
deriving DecidableEq, Repr

/-- A formed response (R325, R339, R341): its bytes, its SEQ, and whether it is counted. -/
structure Response where
  seq : Nat
  bytes : List Byte
  counted : Bool
deriving DecidableEq, Repr

/-- The identity of the last accepted frame (Table 14.7 step 5). -/
structure LastFrame where
  seq : Nat
  body : List Byte
deriving DecidableEq, Repr

/-- A control port (14_control_ports.md): its session and lease (R342–R344; `leaseMark` SYSCNT when the timer last began from
`leaseLeft`), its counts (R339) with the SEQs of the responses in flight, NEXT and ACKED, the accepted frames without a response
and the results of their operations, the last accepted frame with its kept response (R340), the responses to deliver, the
operations still to run (R333), and XPORT with a written value that waits, by the SEQ of the frame that wrote it (none: for
whichever response is delivered next). -/
structure Port where
  session : Session
  resumed : Bool
  hostId : Nat
  lease : Nat
  leaseMark : Nat
  leaseLeft : Nat
  leaseLow : Bool
  held : Nat
  queued : Nat
  inflight : Nat
  next : Nat
  acked : Nat
  frames : List CmdFrame
  results : List OpResult
  last : Option LastFrame
  kept : Option Response
  replayDue : Bool
  flying : List Nat
  out : List Response
  waiting : List WaitOp
  xport : Nat
  xportPend : Option (Nat × Option Nat)
deriving DecidableEq, Repr

/-! ## Transactions -/

/-- The state of a bib (15_transactions_and_hosts.md Table 15.1); `ending` is IMPLICIT from its apply to the end of that tick. -/
inductive BibState where
  | free | opened | scheduled | inFlight | committed | aborted | implicit | ending
deriving DecidableEq, Repr

/-- A bib slot (R346–R363).  `later` counts the bibs opened later on its port that have ended (R349); `versions` are
the page versions recorded at staging (R356); `reserved` the granules held until the apply tick (R381); `waitsPage` whether
its validation waits (R309, R360); `orphan` whether a HELLO of another host came during its vote (R363). -/
structure Bib where
  value : Nat
  state : BibState
  port : Nat
  mode : Nat
  status : Nat
  time : Nat
  page : Nat
  tick : Nat
  sys : Nat
  serial : Nat
  later : Nat
  validated : Nat
  versions : List (Nat × Nat)
  reserved : Nat
  waitsPage : Bool
  orphan : Bool
deriving DecidableEq, Repr

/-- A staging entry (Table 15.2): its place, its bib, and the word it holds. -/
structure Entry where
  place : Nat
  bib : Nat
  addr : Nat
  kind : Nat
  data : Nat
deriving DecidableEq, Repr

/-- The transaction logic.  `applied` holds the entries of the transactions that applied in the present tick, which
stay USED to its end (R352). -/
structure Txn where
  counter : Nat
  serial : Nat
  order : Nat
  bibs : Vector Bib 64
  staging : List Entry
  applied : List Entry
  flightEnd : List Nat
  lastCommitted : Option Nat
  lastAborted : Option Nat
deriving DecidableEq, Repr

/-! ## Clocks -/

/-- A clock monitor beside its registers (02_clocks_and_time.md R34, R35): whether ACQUIRING was entered from LOST,
the ages in periods of its glitches, and the nominal rate it holds (0x1F: none yet). -/
structure Mon where
  fromLost : Bool
  glitches : List Nat
  nominal : Nat
deriving DecidableEq, Repr

/-- The PLL beside its registers (R36–R43): the frequency word held before a relock, whether it locks to a reference
from FREE, the level of a SNAP glide, when a holdover began, the nominal rate of a reference before its loss (R40;
0x1F: none), whether the word follows the reference, the words before the present one with the SYSCNT at which each ended (R39), and of
SLEWING (R41) the frequency where it was last taken, in units of which 983,040 make 0.1 ppm, the SYSCNT of that moment, and whether
it has met the reference. -/
structure Pll where
  heldWord : Int
  locking : Bool
  snap : Glide
  holdMark : Nat
  former : Nat
  follow : Bool
  past : List (Int × Nat)
  slewFrom : Int
  slewMark : Nat
  matched : Bool
deriving DecidableEq, Repr

/-- The ensemble logic beside its registers (R48–R52): whether the next valid frame joins, the frames in agreement, the
counts still to trim and where the next trim lies, a REJOIN to send, the last valid frame, and the frame on `SYNC_OUT`. -/
structure Ens where
  join : Bool
  run : Nat
  steer : Int
  steerAt : Nat
  rejoin : Bool
  last : Option (BitVec 64)
  out : Option (BitVec 64)
deriving DecidableEq, Repr

/-! ## Serial audio ports -/

/-- How a channel of a port is switched (03_serial_audio_ports.md R75–R78): silent; waiting to switch in or out, with
the ticks waited; in a fallback glide, with the ticks left; or open. -/
inductive ChSwitch where
  | silent | waitIn (ticks : Nat) | glideIn (left : Nat) | opened | waitOut (ticks : Nat) | glideOut (left : Nat)
deriving DecidableEq, Repr

/-- A channel of a port: its switch, and the previous sample of its stream, where one has passed since the start. -/
structure SapChan where
  sw : ChSwitch
  prev : Int
  seen : Bool
deriving DecidableEq, Repr

/-- A run of stored frames of one block: the stamp of its first frame and whether it was COARSE, the frames of the block
already gone, those still stored, the timeline position of its first frame, and the distance from there to the first frame of the
next block, once that is stamped, both in units of which 65,536 make a frame (05_alignment_and_rate_conversion.md R111). -/
structure Seg where
  stamp : Nat
  coarse : Bool
  used : Nat
  left : Nat
  pos : Int
  span : Option Int
deriving DecidableEq, Repr

/-- The snowplough of a stream (05_alignment_and_rate_conversion.md R113–R120). -/
inductive Snow where
  | none | fade (left : Nat) | silent | waitPos | glide (left : Nat)
deriving DecidableEq, Repr

/-- A splice under way (R121): frames still to fade out, then frames still to fade in. -/
inductive Splice where
  | none | out (left : Nat) | into (left : Nat)
deriving DecidableEq, Repr

/-- One data line of a port: its FIFO and cushion with the runs of blocks in them; the frames of the block under way and those that
may move to the cushion; its counts (R83); its anchor and the stamp and position of its newest block (05_alignment_and_rate_conversion.md
R110, R111), the position in units of which 65,536 make a frame; its delivery and its snowplough; flags of the next record, and whether
the last record has said that the line rejoins, or re-anchors (Table 5.1); episodes (R82); the last samples; and for an output
line which samples of its FIFO the port made itself (04_aes3_ports.md R100). -/
structure SapLine where
  head : Nat
  fill : Nat
  cushHead : Nat
  cush : Nat
  segs : List Seg
  partialFrames : Nat
  movable : Nat
  fin : Nat
  fout : Nat
  dropped : Nat
  inserted : Nat
  anchorStamp : Nat
  anchorTick : Int
  anchorSys : Int
  blockStamp : Nat
  blockPos : Int
  anchored : Bool
  delivering : Bool
  live : Bool
  startTick : Nat
  nextPos : Int
  acc : Nat
  snow : Snow
  level : Glide
  starved : Bool
  ratePend : Bool
  rejoinRec : Bool
  reanchorRec : Bool
  spliceRec : Bool
  lateRec : Bool
  backRec : Option Bool
  splice : Splice
  underEp : Bool
  overEp : Bool
  lastA : Sample
  lastB : Sample
  rxA : Int
  rxB : Int
  made : List (Bool × Bool)
deriving DecidableEq, Repr

/-- The word a transmitter last sent on a channel: the sample bits and, in AES3 mode, validity, user, channel-status
bits and parity (03_serial_audio_ports.md R60, 04_aes3_ports.md Table 4.2). -/
structure TxSub where
  data : Nat
  v : Bool
  u : Bool
  c : Bool
  parity : Bool
deriving DecidableEq, Repr

/-- The AES3 receiver and transmitter of a port beside its registers (04_aes3_ports.md). -/
structure Aes where
  rxPos : Option Nat
  rxA : List Bool
  rxB : List Bool
  okA : Bool
  okB : Bool
  heldA : List Byte
  heldB : List Byte
  txPos : Nat
  txA : List Byte
  txB : List Byte
  crcA : Nat
  crcB : Nat
  tagA : List Bool
  tagB : List Bool
  swapTick : Option Nat
  started : Bool
  dLow : Bool
deriving DecidableEq, Repr

/-- A serial audio port: its channels and lines; a request whose channels still switch (R77); the words last sent; and what the last
frame put on each data line (one bit for each BCLK period from the WS edge that starts it), the bit of its last slot that falls into
the next frame, the level of WS in its first slot, whether data changed on rising edges of BCLK (R58, R59), whether a WS edge cut it
(R64), and the ticks in which frames last passed each way. -/
structure Sap where
  chans : Vector SapChan 4
  lines : Vector SapLine 2
  zcBusy : Bool
  stopping : Bool
  runAfter : Bool
  glitch : Bool
  firstDone : Bool
  sentA : Vector TxSub 2
  sentB : Vector TxSub 2
  sentZ : Bool
  clocksOn : Bool
  stampNow : Nat
  blocks : Nat
  wire : Vector (List Bool) 2
  carry : Vector Bool 2
  wsFirst : Bool
  onRise : Bool
  cut : Bool
  lastRx : Nat
  lastTx : Nat
  aes : Aes
deriving DecidableEq, Repr

/-- An alignment group beside its registers (05_alignment_and_rate_conversion.md R105–R118): whether it is on, the
granules it holds for each member line (2 × port + line), those reserved for an enable that is held, those that return to free at the
end of this tick, and a LOCKSTEP silence. -/
structure Grp where
  on : Bool
  parts : List (Nat × List Nat)
  next : List (Nat × List Nat)
  leaving : List Nat
  silent : Bool
deriving DecidableEq, Repr

/-- A rate converter beside its registers (R123–R126): its input and output sample, the gain of its glide, whether it is
going off, the tags of its last inputs, and the channel (4 × port + 2 × line + channel) and direction (true: out of the fabric) it was
enabled with. -/
structure Asrc where
  input : Sample
  output : Sample
  glide : Glide
  stopping : Bool
  hist : List Tag
  node : Nat
  outward : Bool
deriving DecidableEq, Repr

/-! ## Delay lines -/

/-- A delay line in audio memory (08_mixing_and_processing.md R209–R213): its tap, MAXLEN, granules, the slot written
next and the samples written, whether it drains, the DELAY it reads, the read points a crossfade comes from (each with
the frozen weight, as a fraction, that newer ones had over it), the ticks left and length of a crossfade, and whether LINE_FILLED was raised. -/
structure DLine where
  tap : Nat
  maxlen : Nat
  granules : List Nat
  wpos : Nat
  filled : Nat
  draining : Bool
  delay : Nat
  olds : List (Nat × Nat × Nat)
  left : Nat
  total : Nat
  told : Bool
deriving DecidableEq, Repr

/-! ## Check-value engines -/

/-- A check-value engine (12_crc_engines.md R294): its settings, the running register, the bytes fed, and for a bound
engine the RESULT and RAW of the last frame or block (R293). -/
structure Crc where
  width : Nat
  refin : Bool
  refout : Bool
  poly : Nat
  init : Nat
  xorout : Nat
  r : Nat
  count : Nat
  result : Nat
  raw : Nat
deriving DecidableEq, Repr


/-! ## Housekeeping converter and amplifier -/

/-- A sequence of the HKA beside its registers (11_housekeeping_converter.md R266–R274): the word of the entry in progress,
whether its input switched at its start, whether an urgent request has preempted it, the T in µs of an integration (none
where the manual gives none), whether the run is on the integrating core, whether it stops after its entry and may arm again then
(R272), whether its next entry waits for urgent work, and the SYSCNT at which the delay of its run ended. -/
structure Seq where
  word : Nat
  switched : Bool
  preempted : Bool
  t : Option Nat
  integ : Bool
  ending : Bool
  rearm : Bool
  due : Bool
  delayEnd : Nat
deriving DecidableEq, Repr

/-- The HKA beside its registers: its sequences, those whose delay has ended with the SYSCNT of it (R272), the host urgent request
with its port, its word and whether its input switched (R276), and the channel at the input of the pipeline core (none: an internal reading). -/
structure Hka where
  seqs : Vector Seq 3
  ready : List (Fin 3 × Nat)
  urg : Option (Fin 4 × Nat × Bool)
  pipe : Option Nat
deriving DecidableEq, Repr

/-- The step of a start or stop of an amplifier channel (10_speaker_amplifier.md Table 10.4): none, the pre-check, the wait for
its phase, 50 % duty before RUNNING, gliding out, 50 % duty before OFF. -/
inductive AmpStep where
  | none | precheck | release | idle | glide | half
deriving DecidableEq, Repr

/-- An amplifier channel beside its registers: its step, the last 32 cycles (true: limited), the cycles left of a supply stop
and whether it is for overvoltage, whether this start is a retry not yet proven, whether a retry waits in SUSPENDED, whether the
suspension waits for the supply, the thermal ceiling in 1/128 dB, the peak envelope and the ticks it still holds, the applied
reduction in units of 2^-16 / 128 dB, the memory of the high-pass, the filtered DC as a sample code, the code it drives, whether a sample of
this tick saturated or a cycle of it was limited, and the last value of its stage sensor. -/
structure Amp where
  step : AmpStep
  hist : List Bool
  stopLeft : Nat
  stopOver : Bool
  retry : Bool
  due : Bool
  supplyWait : Bool
  thermal : Int
  env : Nat
  hold : Nat
  gr : Int
  mem : Int × Int
  dc : Int
  out : Int
  limited : Bool
  temp : Int
deriving DecidableEq, Repr

/-- The supply logic beside its registers (R256, R258): whether PVDD has been sampled since the HKA came ON, the samples in
a row below 8.5 V and above 27.5 V, and the last value. -/
structure Sag where
  seen : Bool
  below : Nat
  above : Nat
  raw : Int
deriving DecidableEq, Repr

/-! ## Microphone and line inputs -/

/-- Where the fade of a channel stands (06_microphone_and_line_inputs.md R139, R155): open, fading out with the ticks left,
silent, or fading in. -/
inductive FadePhase where
  | opened | out (left : Nat) | silent | into (left : Nat)
deriving DecidableEq, Repr

/-- A diagnosis under way (R151): whether it is the classifier's (09_line_headphone_jacks.md R231), its legs, its next window
(0 baseline, 1 leg P, 2 leg N), and whether the phantom limiter acted during the baseline. -/
structure Diag where
  cls : Bool
  legs : Nat
  step : Nat
  limiting : Bool
deriving DecidableEq, Repr

/-- An input beside its registers: whether its servo has settled, its fade, the causes of its auto-mute, the pad, whether
its phantom goes up, whether an enable waits for the tick that takes enables by input number (R133), whether a removal ramps,
whether a phantom change marks samples instead of muting, the gain glide,
the ticks a pending step has waited, marks left of a step and of a filter change, the previous sample, the samples left of
the path crossfade and the path it comes from, its diagnosis, the ticks towards matched paths since a calibration restarted (R142), and
the memory of its high-pass (R149), and the code that DIAG_RES held before a diagnosis was requested (R154). -/
structure Ain where
  servo : Bool
  phase : FadePhase
  level : Glide
  causes : List MuteCause
  pad : Bool
  phUp : Bool
  phAsk : Bool
  removing : Bool
  phMark : Bool
  gain : Glide
  waited : Nat
  stepMark : Nat
  hpfMark : Nat
  prev : Int
  wasValid : Bool
  xfade : Nat
  xfrom : Bool
  diag : Option Diag
  matched : Nat
  filter : Int × Int
  resBefore : Nat
deriving DecidableEq, Repr

/-- What waits for or holds the test DAC (11_housekeeping_converter.md R283): a diagnosis of an input (with `cls`, the
classifier's), a test of a jack, or a host. -/
inductive TdacUser where
  | diag (n : Fin 16) (cls : Bool) | jack (j : Fin 20) | host (p : Fin 4)
deriving DecidableEq, Repr

/-- The test DAC beside its registers (R282, R283): the route it goes to, a ramp under way (down or up), the code at its
output, and whether a release ends with the ramp. -/
structure Tdac where
  goal : Nat
  ramp : Option Bool
  out : Int
  releasing : Bool
deriving DecidableEq, Repr

/-! ## Outputs and jacks -/

/-- The step of a start or stop of an output (09_line_headphone_jacks.md R226): none, rails ramping up, settling, gliding out,
rails ramping down. -/
inductive OutStep where
  | none | ramp | settle | glide | down
deriving DecidableEq, Repr

/-- A line or headphone output beside its registers: its step, the internal fade with its level (R222), the ground pole it
goes to, the microphone route in force (R224), and what it drives: the two legs of a line output in units where their
difference is twice the sample code, or the left and right codes of a headphone output; the DC that the servo of a line output tracks
and the correction at which it holds (0: none; R219), and the DC that the test DAC drives into the left and the right channel of a
headphone output, in steps of 125 µV (11_housekeeping_converter.md R282); and the ticks of a load test so far (R232). -/
structure Out where
  step : OutStep
  phase : FadePhase
  level : Glide
  pole : Bool
  mic : Option (Fin 16)
  a : Int
  b : Int
  dc : Int
  servo : Int
  ia : Int
  ib : Int
  loadTicks : Nat
deriving DecidableEq, Repr

/-- What the pole test of a headphone jack found (R232). -/
inductive PoleKind where
  | three | omtp | ctia
deriving DecidableEq, Repr

/-- Where a classification stands (R230–R233). -/
inductive ClassStep where
  | idle | svcWait | diag | poleWait | poleTest | loadHold (k : PoleKind) | loadWait (k : PoleKind) | loadTest (k : PoleKind)
deriving DecidableEq, Repr

/-- A jack beside its registers: the level of its pin, its classification, and a test that still runs for an insertion that has
ended (R233; true: the load test). -/
structure Jack where
  high : Bool
  step : ClassStep
  stale : Option Bool
deriving DecidableEq, Repr

/-- What may trigger a jack rule (R234). -/
inductive TrigKind where
  | insert | remove | classified (code : Nat) | press (b : Nat) | release (b : Nat)
deriving DecidableEq, Repr

/-! ## Fabric -/

/-- An item of a program (07_fabric_schedule.md Table 7.3). -/
inductive Item where
  | term (src slot : Nat) | biquad (i : Nat) | dynamics (i : Nat) | delay (i : Nat) | scale
deriving DecidableEq, Repr

/-- A program of a piste (Table 7.2). -/
structure Prog where
  gen : Bool
  stage : Nat
  id : Nat
  items : List Item
deriving DecidableEq, Repr

/-- A valid piste: its number of stages less one, and its programs. -/
structure Piste where
  stages : Nat
  progs : List Prog
deriving DecidableEq, Repr

/-- The outcome of an admission (07_fabric_schedule.md R184, R185): the crossing sinks, the piste cost, that without old
programs under the same lanes, and M_s with its lane for each stage. -/
structure Admission where
  crossing : List Nat
  cost : Nat
  after : Nat
  stages : List (Nat × Nat)
deriving DecidableEq, Repr

/-- The state of a biquad (08_mixing_and_processing.md R207): two inputs in Q1.31 and two outputs in Q9.39. -/
structure Biquad where
  x1 : Int
  x2 : Int
  y1 : Int
  y2 : Int
deriving DecidableEq, Repr

/-- The state of a dynamics processor (R208): its mean square, its applied reduction in units of 2^-16 / 128 dB, and the
ticks a gate has held. -/
structure Dyn where
  square : Nat
  gr : Int
  held : Nat
deriving DecidableEq, Repr

/-- The scale state of a bus (R199–R204): the counts of earlier ticks, newest first, its factor, and whether its program
ran a SCALE item in the last tick. -/
structure BusScale where
  counts : List Nat
  used : Nat
  factor : Glide
  scaled : Bool
deriving DecidableEq, Repr

/-- The state of a generator (R214): its phase, the ticks of its sweep, whether the end of a sweep waits to be raised and whether the
sweep has come to its end, the seed of its noise and the noise samples drawn since RESTART. -/
structure Gen where
  phase : Nat
  swept : Nat
  atEnd : Bool
  ended : Bool
  seed : Nat
  drawn : Nat
deriving DecidableEq, Repr

/-- The fabric beside its registers: the running piste, the old one of a crossover, the crossing sinks, a crossover's
length, law and ticks done, a validated swap, the outcome of a check
under way, the cost after a crossover, the start and stop glide, whether a stop runs, a write of RUN that waits for the boundary (R162), a
copy and a check that end, the samples that the buses and generators deliver, the last sample of each sink, the gate misses
in a row of each sink, the sinks that take one SETTLING sample, and the states of objects, with the shadows of a crossover
(R180, R204). -/
structure Fab where
  run : Option Piste
  old : Option Piste
  crossing : List Nat
  xLen : Nat
  xLaw : Bool
  xDone : Nat
  pend : Option (Piste × Admission)
  check : Option (Option Admission)
  costAfter : Nat
  glide : Glide
  ending : Bool
  runNext : Option Bool
  busOut : Vector Sample 64
  genOut : Vector Sample 16
  sinks : List (Nat × Sample)
  misses : List (Nat × Nat)
  hard : List Nat
  biquads : List (Nat × Biquad)
  biquadsOld : List (Nat × Biquad)
  dyns : List (Nat × Dyn)
  dynsOld : List (Nat × Dyn)
  buses : Vector BusScale 64
  busesOld : Vector BusScale 64
  gens : Vector Gen 16
  marks : List (Nat × Nat)
  markPend : List Nat
deriving DecidableEq, Repr

/-! ## Images, fuses and the schuss path (17_boot_images_recovery.md) -/

/-- What the supervisor keeps of an image that it runs or has applied (Table 17.2): its version word, its epoch, the epochs it
tolerates and has tested, and whether it was accepted as untested (R392). -/
structure Image where
  version : Nat
  epoch : Nat
  peerMin : Nat
  peerMax : Nat
  tested : List Nat
  untested : Bool
deriving DecidableEq, Repr

/-- The schuss path (R394, R395): off; in place of the sinks; gliding out beside them. -/
inductive SchussPhase where
  | off | active | ending
deriving DecidableEq, Repr

/-- The supervisor beside its registers: the port that owns an open load (R387), a check under way with the port whose write
waits and whether it was START, the applied SUPP and one that waits for the idle point, the running service image, the next
offset of a dump stream (R402), and the schuss path with its glide and the sample it delivers. -/
structure Boot where
  owner : Option (Fin 4)
  check : Option (Fin 4 × Bool)
  supp : Option Image
  suppDue : Option Image
  svc : Option Image
  stream : Option Nat
  path : SchussPhase
  glide : Glide
  mix : Int
deriving DecidableEq, Repr

/-! ## Injection rings and the supply of the pins -/

/-- An injection ring (16_rings_events_books.md R379): not yet primed since its enable; delivering; waiting for PRIME after it
ran empty. -/
inductive InjPhase where
  | fresh | running | starved
deriving DecidableEq, Repr

/-- The supply of the VIO pins (19_electrical_and_package.md R414): not yet selected; generated inside at 1.8 V or 3.3 V; from
outside; from outside and fallen below 1.4 V. -/
inductive Vio where
  | unselected | inside18 | inside33 | outside | dropped
deriving DecidableEq, Repr

/-! ## Reasons to stop -/

/-- The machine stops with a fault.  No rule of spec/ stops the block: the one constructor is raised by no command whose
operands are well formed. -/
inductive Fault where
  /-- Raised by no meaning: kept so that the type has a value.  Safe. -/
  | none_
deriving DecidableEq, Repr

/-- A command has no meaning in this model. -/
inductive Refusal where
  /-- Raised by an arm of `exec` whose command has no meaning yet.  Safe. -/
  | notModelled (mnemonic : String)
deriving DecidableEq, Repr

/-! ## The state -/

/-- The state of the block. -/
structure State where
  /-- Commands that wait, first in first out (the block's queue). -/
  pending : List Instr
  /-- The index of the next free value: the model's own field (notes/assumptions/12.md). -/
  fresh : Nat
  /-- The word that the last register-read command returned: the model's own field. -/
  bus : Word
  /-- Registers by address; an unlisted one holds its reset value. -/
  regs : List (Nat × Word)
  /-- Memory bytes by address; an unlisted one reads 0. -/
  mem : List Host.Cell
  /-- Page versions (15_transactions_and_hosts.md R355); an unlisted page is at 0. -/
  pageVers : List (Nat × Nat)
  /-- Configuration writes held until their block stops: address and word, oldest first. -/
  cfgPend : List (Nat × Nat)
  /-- Direct writes of fabric parameters due at the next tick (08_mixing_and_processing.md R192, R193). -/
  tickWrites : List (Nat × Nat)
  /-- SYSCNT (02_clocks_and_time.md R46). -/
  syscnt : Nat
  coarse : Bool
  /-- Counts for which SYSCNT stands still (R51 Step). -/
  sysHold : Nat
  /-- TICKCNT (R29), and SYSCNT at the start of the tick. -/
  tickcnt : Nat
  tickSys : Nat
  /-- Boundaries of Fc since reset, whether or not the fabric runs (15_transactions_and_hosts.md R358), and SYSCNT at the last
  one. -/
  ticks : Nat
  boundary : Nat
  mons : Vector Mon 43
  pll : Pll
  ens : Ens
  /-- The pins ADDR0 to ADDR5, and the index they gave (R50). -/
  addrPins : Vector (Fin 3) 6
  index : Nat
  rings : Vector Ring 32
  /-- Events that arose while CORE was not ON (13_power_domains.md R319), oldest first, and the ports whose IRQn they
  assert. -/
  evtHeld : List EvtRec
  /-- The records of the engine cycle that is being worked out (16_rings_events_books.md R376); none between commands. -/
  evtNow : Option (List EvtRec)
  irqHeld : BitVec 4
  /-- Records written to the event log (17_boot_images_recovery.md). -/
  evtLog : Nat
  doms : Vector Dom 27
  change : Option Change
  /-- Whether the CP2 address watch holds a transfer (R318). -/
  lift : Bool
  /-- PVDD in units of 10 mV, as the supply stands. -/
  pvdd : Nat
  resetHold : Option ResetSource
  ports : Vector Port 4
  /-- Claims: page and port (R365). -/
  claims : List (Nat × Nat)
  txn : Txn
  saps : Vector Sap 32
  grps : Vector Grp 8
  /-- The samples that the port sources deliver in this tick (Table 1.4), and those that the sinks deliver to the ports. -/
  portSrc : Vector Sample 128
  portSink : Vector Sample 128
  asrcs : Vector Asrc 64
  /-- The delay lines allocated, and the granules each holds. -/
  dlines : List DLine
  crcs : Vector Crc 26
  /-- The owner of CRC25 (12_crc_engines.md R299). -/
  crcOwner : Option CrcParty
  ains : Vector Ain 16
  /-- The samples that the inputs deliver in this tick. -/
  ainOut : Vector Sample 16
  /-- The queue of the test DAC, each with the tick it joined in, and what holds it (11_housekeeping_converter.md R283). -/
  tdacQ : List (Nat × TdacUser)
  tdacOwner : Option TdacUser
  tdac : Tdac
  fab : Fab
  /-- Gain slots and generator levels by the address of their target; an unlisted one is mute (Table 8.2). -/
  gains : List (Nat × Glide)
  /-- The samples of the amplifier sense returns and of the injection rings in this tick (Table 1.4). -/
  senseOut : Vector Sample 4
  injOut : Vector Sample 2
  /-- Line outputs 0 to 15, then headphone outputs 0 to 3, and whether the charge pump runs (R226). -/
  outs : Vector Out 20
  cpOn : Bool
  jacks : Vector Jack 20
  /-- Rule triggers since the last tick, the rules that fired in this tick, and the pages whose versions they have
  incremented (R236). -/
  jackTrig : List (Fin 20 × TrigKind)
  jackFired : List Nat
  jackPages : List Nat
  hka : Hka
  amps : Vector Amp 4
  sag : Sag
  boot : Boot
  /-- The fuse array as it stands, and as it was read into the page (17_boot_images_recovery.md R396). -/
  fuses : BitVec 512
  fusesRead : BitVec 512
  /-- The fuses that are being blown (R397). -/
  blow : List Nat
  injs : Vector InjPhase 2
  /-- For each capture ring since its enable: whether an entry was written, and whether one was lost (R378). -/
  caps : Vector (Bool × Bool) 2
  /-- Granules free, in cushions, in delay lines, draining and reserved, at the last tick boundary (R381). -/
  book : Nat × Nat × Nat × Nat × Nat
  /-- The copies in AON of POL and OD of each control port, and of the CP2 addresses (14_control_ports.md R324, R328). -/
  irqCopy : Vector Nat 4
  xportCopy : Nat
  vio : Vio
  /-- The pins that took a discharge, with the ticks in which the samples of their blocks may still be disturbed
  (19_electrical_and_package.md R427). -/
  esd : List (EsdPin × Nat)
deriving DecidableEq, Repr

/-! ## After reset (notes/assumptions/8.md, 9.md, 10.md, 11.md) -/

/-- A glide at rest at mute, and at 0 dB. -/
abbrev Glide.quiet : Glide := ⟨.mute, .mute, 0, 0, .mute⟩
abbrev Glide.open : Glide := ⟨.db 0 1, .db 0 1, 0, 0, .db 0 1⟩

/-- 0 with every tag bit clear. -/
abbrev Sample.rest : Sample := ⟨0, ⟨false, false, false, false, false, false, false, false⟩⟩

/-- The reset layout of ring `i` (16_rings_events_books.md Table 16.1): LOG2N, the offset of BASE in 256 bytes, WM. -/
def Ring.layout (i : Nat) : Nat × Nat × Nat :=
  if i < 8 then (4, i, 0)
  else if i < 12 then (8, 0x08 + 0x10 * (i - 8), 1)
  else if i < 20 then (8, 0x48 + 0x10 * (i - 12), 128)
  else if i < 24 then (8, 0xC8 + 0x08 * (i - 20), 128)
  else if i = 24 then (6, 0xE8, 0)
  else if i = 25 then (6, 0xF8, 1)
  else if i = 26 then (7, 0x108, 64)
  else if i = 27 then (4, 0x118, 1)
  else if i < 30 then (12, 0x128 + 0x40 * (i - 28), 2048)
  else (11, 0x1A8 + 0x20 * (i - 30), 512)

/-- Ring `i` after reset. -/
def Ring.atReset (i : Nat) : Ring :=
  let (l, b, w) := Ring.layout i
  ⟨i < 28, true, l, b, 0, 0, w, 0, false⟩

/-- Whether domain `d` is ON after reset (13_power_domains.md Table 13.1). -/
abbrev Dom.onAtReset (d : Nat) : Bool := [0, 1, 2, 4, 25, 26].contains d

/-- A control port after reset (14_control_ports.md Table 14.12); CP2 answers its 7-bit address at ensemble index 0. -/
def Port.atReset (i : Nat) : Port :=
  ⟨.none, false, 0, 2000, 0, 0, false, 16, 0, 0, 0, 0, [], [], none, none, false, [], [], [],
   if i = 2 then 0x4CC else 0, none⟩

/-- A free bib. -/
abbrev Bib.none_ : Bib := ⟨0, .free, 0, 0, 0, 0, 0, 0, 0, 0, 0, 0, [], 0, false, false⟩

/-- A serial audio port that has not run. -/
def Sap.atReset : Sap :=
  let line : SapLine := ⟨0, 0, 0, 0, [], 0, 0, 0, 0, 0, 0, 0, 0, 0, 0, 0, false, false, false, 0, 0, 0, .none, Glide.open,
    false, false, false, false, false, false, none, .none, false, false, Sample.rest, Sample.rest, 0, 0, []⟩
  let sub : TxSub := ⟨0, false, false, false, false⟩
  ⟨Vector.replicate 4 ⟨.silent, 0, false⟩, Vector.replicate 2 line, false, false, false, false, false, Vector.replicate 2 sub,
   Vector.replicate 2 sub, false, false, 0, 0, Vector.replicate 2 [], Vector.replicate 2 false, false, false, false, 0, 0,
   ⟨none, [], [], false, false, List.replicate 24 0, List.replicate 24 0, 0, List.replicate 24 0, List.replicate 24 0, 0xFF, 0xFF,
    [], [], none, false, false⟩⟩

/-- A rate converter that is OFF. -/
abbrev Asrc.atReset : Asrc := ⟨Sample.rest, Sample.rest, Glide.quiet, false, [], 0, false⟩

/-- A check-value engine before its first frame (12_crc_engines.md Tables 12.1, 12.2; 04_aes3_ports.md Table 4.3). -/
def Crc.atReset (i : Nat) : Crc :=
  if 8 ≤ i ∧ i < 24 then ⟨8, true, true, 0x1D, 0xFF, 0, 0xFF, 0, 0xFFFF, 0xFF⟩
  else if i = 2 ∨ i = 6 then ⟨16, false, false, 0x1021, 0xFFFF, 0, 0xFFFF, 0, 0xFFFF, 0xFFFF⟩
  else ⟨32, true, true, 0x04C11DB7, 0xFFFFFFFF, 0xFFFFFFFF, 0xFFFFFFFF, 0, 0, 0xFFFFFFFF⟩

/-- An input that is OFF, its servo not yet settled. -/
abbrev Ain.atReset : Ain :=
  ⟨false, .silent, Glide.quiet, [], false, false, false, false, false, Glide.open, 0, 0, 0, 0, false, 0, false, none, 0, (0, 0), 0⟩

/-- A generator after RESTART, at the reset SEED (08_mixing_and_processing.md R214, Table 8.9). -/
abbrev Gen.fresh : Gen := ⟨0, 0, false, false, 1, 0⟩

/-- The fabric, STOPPED. -/
def Fab.atReset : Fab :=
  let bus : BusScale := ⟨[], 0, Glide.open, false⟩
  ⟨none, none, [], 0, false, 0, none, none, 0, Glide.quiet, false, none, Vector.replicate 64 Sample.rest,
   Vector.replicate 16 Sample.rest, [], [], [], [], [], [], [], Vector.replicate 64 bus, Vector.replicate 64 bus,
   Vector.replicate 16 Gen.fresh, [], []⟩

/-- An output that is OFF. -/
abbrev Out.atReset : Out := ⟨.none, .opened, Glide.open, false, none, 0, 0, 0, 0, 0, 0, 0⟩

/-- The HKA before its start, and its test DAC. -/
def Hka.atReset : Hka := ⟨Vector.replicate 3 ⟨0, false, false, none, false, false, false, false, 0⟩, [], none, none⟩
abbrev Tdac.atReset : Tdac := ⟨0, none, 0, false⟩

/-- An amplifier channel that is OFF. -/
abbrev Amp.atReset : Amp := ⟨.none, [], 0, false, false, false, false, 0, 0, 0, 0, (0, 0), 0, 0, false, 0⟩

/-- The main PLL, FREE. -/
abbrev Pll.atReset : Pll := ⟨0, false, Glide.open, 0, 0x1F, false, [], 0, 0, false⟩

/-- The supervisor as it starts from ROM. -/
abbrev Boot.atReset : Boot := ⟨none, none, none, none, none, none, .off, Glide.quiet, 0⟩

/-- The machine right after a power-on reset, when Table 17.1 has run and the control ports accept frames. -/
def State.reset : State where
  pending := []
  fresh := 0
  bus := 0
  regs := []
  mem := []
  pageVers := []
  cfgPend := []
  tickWrites := []
  syscnt := 0
  coarse := false
  sysHold := 0
  tickcnt := 0
  tickSys := 0
  ticks := 0
  boundary := 0
  mons := Vector.replicate 43 ⟨false, [], 0x1F⟩
  pll := Pll.atReset
  ens := ⟨false, 0, 0, 0, false, none, none⟩
  addrPins := Vector.replicate 6 0
  index := 0
  rings := Vector.ofFn fun (i : Fin 32) => Ring.atReset i
  evtHeld := []
  evtNow := none
  irqHeld := 0
  evtLog := 0
  doms := Vector.ofFn fun (d : Fin 27) => ⟨if Dom.onAtReset d then .on else .off, false⟩
  change := none
  lift := false
  pvdd := 2400
  resetHold := none
  ports := Vector.ofFn fun (i : Fin 4) => Port.atReset i
  claims := []
  txn := ⟨1, 0, 0, Vector.replicate 64 Bib.none_, [], [], [], none, none⟩
  saps := Vector.replicate 32 Sap.atReset
  grps := Vector.replicate 8 ⟨false, [], [], [], false⟩
  portSrc := Vector.replicate 128 Sample.rest
  portSink := Vector.replicate 128 Sample.rest
  asrcs := Vector.replicate 64 Asrc.atReset
  dlines := []
  crcs := Vector.ofFn fun (i : Fin 26) => Crc.atReset i
  crcOwner := none
  ains := Vector.replicate 16 Ain.atReset
  ainOut := Vector.replicate 16 Sample.rest
  tdacQ := []
  tdacOwner := none
  tdac := Tdac.atReset
  fab := Fab.atReset
  gains := []
  senseOut := Vector.replicate 4 Sample.rest
  injOut := Vector.replicate 2 Sample.rest
  outs := Vector.replicate 20 Out.atReset
  cpOn := false
  jacks := Vector.replicate 20 ⟨true, .idle, none⟩
  jackTrig := []
  jackFired := []
  jackPages := []
  hka := Hka.atReset
  amps := Vector.replicate 4 Amp.atReset
  sag := ⟨false, 0, 0, 0⟩
  boot := Boot.atReset
  fuses := 0
  fusesRead := 0
  blow := []
  injs := Vector.replicate 2 .fresh
  caps := Vector.replicate 2 (false, false)
  book := (4096, 0, 0, 0, 0)
  irqCopy := Vector.replicate 4 0
  xportCopy := 0x4CC
  vio := .inside18
  esd := []

end Sys2Proof.Machine
end

