-- ==== Sys2Proof/Machine/Ops.lean ====
section
/-!
DEFINITION. The named operations over registers, memory, free values, domains and pages.
-/
namespace Sys2Proof.Machine

/-- The result of a meaning. -/
abbrev Result := Host.Outcome State Fault Refusal

/-! ## The register table -/

/-- The value after reset of a field of copy `k` of its register. -/
def ResetRule.value (r : ResetRule) (k : Nat) : Nat :=
  match r with
  | .num n => n
  | .domTarget => if [0, 1, 2, 4, 25, 26].contains k then 2 else 0
  | .monRatio => if k ≤ 1 then 2 else 0

/-- Whether a register has a copy at offset `o`. -/
def RegRow.hits (r : RegRow) (o : Nat) : Bool :=
  if r.stride = 0 then o == r.off
  else r.off ≤ o && (o - r.off) % r.stride == 0 && (o - r.off) / r.stride < r.count

/-- Which copy of a register lies at offset `o`. -/
def RegRow.copyAt (r : RegRow) (o : Nat) : Nat := if r.stride = 0 then 0 else (o - r.off) / r.stride

/-- The word of a register after reset. -/
def RegRow.resetWord (r : RegRow) (k : Nat) : Nat :=
  (r.fields.map fun f => f.reset.value k * 2 ^ f.lo).sum

/-- The block whose pages hold page `p` (Table 18.1). -/
def blockOf (p : Nat) : Option PageBlock :=
  pageBlocks.find? fun b => b.first ≤ p && p < b.first + b.units

/-- The page of a register address, and the offset in it. -/
abbrev pageOf (a : Nat) : Nat := (a - 0x40000000) / 0x1000
abbrev pageOff (a : Nat) : Nat := a % 0x1000
/-- The address of an offset of a page. -/
abbrev pageAddr (p o : Nat) : Nat := 0x40000000 + 0x1000 * p + o

/-- The register of a page at an offset from 0x040. -/
def pageReg (p o : Nat) : Option RegRow :=
  match blockOf p with
  | none => none
  | some b => b.regs.find? (·.hits o)

/-- The pool and register of an address of the parameter memory (DESIGN CHOICE, notes/assumptions/79.md). -/
def poolReg (a : Nat) : Option (PoolRow × RegRow) :=
  match paramPools.find? fun q => q.base ≤ a && a < q.base + q.size * q.count with
  | none => none
  | some q => (q.regs.find? fun r => r.off == (a - q.base) % q.size).map fun r => (q, r)

/-- Whether an address lies in the register pages of Table 1.6. -/
abbrev inPages (a : Nat) : Bool := 0x40000000 ≤ a && a < 0x4006C000
/-- Whether an address lies in the coefficient and object parameter memory. -/
abbrev inParams (a : Nat) : Bool := 0x50040000 ≤ a && a < 0x50060000

/-- What a register holds after reset: the Reset column of its table. -/
def regReset (a : Nat) : Word :=
  if inPages a then
    match pageReg (pageOf a) (pageOff a) with
    | some r => word (r.resetWord (r.copyAt (pageOff a)))
    | none => 0
  else if inParams a then
    match poolReg a with
    | some (_, r) => word (r.resetWord 0)
    | none => 0
  else 0

/-! ## Registers -/

/-- The word held for the register at `a`. -/
def State.reg (s : State) (a : Nat) : Word := sparseGet (regReset a) s.regs a

/-- `s` with word `w` held for the register at `a`. -/
def State.setReg (s : State) (a : Nat) (w : Word) : State :=
  { s with regs := sparseSet (regReset a) s.regs a w }

/-- The value of a field. -/
def State.fld (s : State) (f : Fld) : Nat := bitsAt (s.reg f.addr).toNat f.lo f.width

/-- `s` with a field set. -/
def State.setFld (s : State) (f : Fld) (v : Nat) : State :=
  s.setReg f.addr (word (putBits (s.reg f.addr).toNat f.lo f.width v))

/-- Whether a one-bit field is 1. -/
abbrev State.flag (s : State) (f : Fld) : Bool := s.fld f == 1

/-- A field read as a signed number. -/
abbrev State.sfld (s : State) (f : Fld) : Int := signed f.width (s.fld f)

/-- A field set to a signed number. -/
abbrev State.setSfld (s : State) (f : Fld) (i : Int) : State := s.setFld f (unsigned f.width i)

/-- A counting field, `k` more, stopping at its largest value. -/
def State.countSat (s : State) (f : Fld) (k : Nat) : State := s.setFld f (satAdd f.width (s.fld f) k)

/-- A counting field, `k` more, wrapping. -/
def State.countWrap (s : State) (f : Fld) (k : Nat) : State := s.setFld f (s.fld f + k)

/-- Bit `k` of a field set or cleared. -/
def State.setBit (s : State) (f : Fld) (k : Nat) (b : Bool) : State := s.setFld f (putBits (s.fld f) k 1 (bit b))

/-- Every register of a page (from 0x010 in it) back at its reset value. -/
def State.resetPage (s : State) (p : Nat) : State :=
  { s with regs := s.regs.filter fun e => !(pageAddr p 0 ≤ e.1 && e.1 < pageAddr p 0x1000) }

/-- Every register in an address range back at its reset value. -/
def State.resetRegs (s : State) (lo hi : Nat) : State :=
  { s with regs := s.regs.filter fun e => !(lo ≤ e.1 && e.1 < hi) }

/-! ## Memory (01_architecture.md R20, R21; 00_scope.md R3) -/

/-- What a byte of memory that nothing has written reads as (Table 17.1, R302) (DEDUCED, notes/assumptions/7.md). -/
abbrev memDefault : Byte := 0

/-- The canonical form of memory. -/
abbrev Memory.wf (m : List Host.Cell) : Prop := sparseWf (fun _ => memDefault) m

/-- The byte at `a`. -/
def State.byte (s : State) (a : Nat) : Byte := sparseGet memDefault s.mem a

/-- `s` with the byte at `a` written. -/
def State.setByte (s : State) (a : Nat) (b : Byte) : State := { s with mem := sparseSet memDefault s.mem a b }

/-- The `n` bytes from `a` upwards. -/
def State.bytesAt (s : State) (a n : Nat) : List Byte := (List.range n).map fun i => s.byte (a + i)

/-- `s` with bytes written from `a` upwards. -/
def State.setBytes (s : State) (a : Nat) : List Byte → State
  | [] => s
  | b :: bs => (s.setByte a b).setBytes (a + 1) bs

/-- The word at `a`: the lowest address holds bits [7:0]. -/
def State.memWord (s : State) (a : Nat) : Word := word (ofBytesLE (s.bytesAt a 4))

/-- `s` with a word written at `a`. -/
def State.setMemWord (s : State) (a : Nat) (w : Word) : State := s.setBytes a (bytesLE 4 w.toNat)

/-- Every byte of a range reads 0. -/
def State.clearMem (s : State) (lo hi : Nat) : State :=
  { s with mem := s.mem.filter fun e => !(lo ≤ e.1 && e.1 < hi) }

/-! ## Free values -/

/-- The next free value below `n` (0 when `n` is 0 or 1), and the state that has used it
(DESIGN CHOICE, notes/assumptions/12.md). -/
def State.free (s : State) (n : Nat) : Nat × State := (Config.free s.fresh % n, { s with fresh := s.fresh + 1 })

/-- The next free value from `lo` to `hi` (DESIGN CHOICE, notes/assumptions/12.md). -/
def State.freeInt (s : State) (lo hi : Int) : Int × State :=
  (lo + ((Config.free s.fresh : Int) % (hi - lo + 1)), { s with fresh := s.fresh + 1 })

/-- `n` free bytes (DESIGN CHOICE, notes/assumptions/12.md). -/
def State.freeBytes (s : State) (n : Nat) : List Byte × State :=
  ((List.range n).map fun i => BitVec.ofNat 8 (Config.free (s.fresh + i)), { s with fresh := s.fresh + n })

/-- A quotient whose rounding the manual leaves open: either neighbour of the exact value, which itself is exact
(DESIGN CHOICE, notes/assumptions/19.md). -/
def State.divFree (s : State) (a b : Int) : Int × State :=
  if a % b = 0 then (a / b, s) else (a / b + (Config.free s.fresh % 2 : Nat), { s with fresh := s.fresh + 1 })

/-! ## Domains and pages -/

namespace Dm
abbrev AON := 0
abbrev SUP := 1
abbrev CORE := 2
abbrev FAB := 3
abbrev CMEM := 4
abbrev AMEM (k : Nat) := 5 + k
abbrev PORTG (k : Nat) := 9 + k
abbrev ASRC := 13
abbrev AIN (k : Nat) := 14 + k
abbrev AOUT (k : Nat) := 18 + k
abbrev HP := 20
abbrev AMP (k : Nat) := 21 + k
abbrev HKA := 25
abbrev PLL := 26
end Dm

/-- The phase of domain `d`; a number above 26 names none. -/
def State.dom (s : State) (d : Nat) : DomPhase := if h : d < 27 then s.doms[d].phase else .off

/-- Whether domain `d` is ON (13_power_domains.md R301). -/
abbrev State.domOn (s : State) (d : Nat) : Bool := s.dom d == .on

/-- Whether the pads of domain `d` are held (R314). -/
def State.padHeld (s : State) (d : Nat) : Bool := if h : d < 27 then s.doms[d].padHeld else false

/-- Whether the I/O supply is there: without it the VIO-referenced pins are at high impedance and their inputs ignored
(19_electrical_and_package.md R414). -/
def State.vioUp (s : State) : Bool :=
  match s.vio with
  | .unselected | .dropped => false
  | .inside18 | .inside33 | .outside => true

/-- What a pad does whose group is held (13_power_domains.md R314). -/
inductive HeldPad where
  | keepsLevel | ignored | ground | highZ
deriving DecidableEq, Repr

/-- The kinds of pads: digital outputs and inputs; line and headphone outputs; their returns and microphones; speaker outputs,
microphone inputs and `AUXINn`. -/
inductive PadKind where
  | digitalOut | digitalIn | lout | hpOut | hpRet | hpMic | spk | mic | aux
deriving DecidableEq, Repr

/-- A held pad: `ground` is through 10 kΩ and with no bias (R314). -/
def PadKind.held : PadKind → HeldPad
  | .digitalOut => .keepsLevel
  | .digitalIn => .ignored
  | .lout | .hpOut | .hpRet | .hpMic => .ground
  | .spk | .mic | .aux => .highZ

/-- What a pad of domain `d` does beside its block: none while the group is not held. -/
def State.padState (s : State) (d : Nat) (k : PadKind) : Option HeldPad := if s.padHeld d then some k.held else none

/-- The domain of a defined page (18_register_pages.md Table 18.1); none for a page that is not defined. -/
def pageDomain (p : Nat) : Option Nat :=
  if p = 0x000 then some Dm.SUP
  else if p = 0x001 || p = 0x002 || p = 0x004 || p = 0x014 then some Dm.AON
  else if p = 0x003 then some Dm.PLL
  else if 0x005 ≤ p ∧ p ≤ 0x007 || p = 0x00F then some Dm.SUP
  else if 0x008 ≤ p ∧ p ≤ 0x00E then some Dm.CORE
  else if 0x010 ≤ p ∧ p ≤ 0x012 then some Dm.FAB
  else if p = 0x013 then some Dm.ASRC
  else if 0x015 ≤ p ∧ p ≤ 0x018 then some Dm.HKA
  else if 0x020 ≤ p ∧ p ≤ 0x03F then some (Dm.PORTG ((p - 0x020) / 8))
  else if 0x040 ≤ p ∧ p ≤ 0x04F then some (Dm.AIN ((p - 0x040) / 4))
  else if 0x050 ≤ p ∧ p ≤ 0x05F then some (Dm.AOUT ((p - 0x050) / 8))
  else if 0x060 ≤ p ∧ p ≤ 0x063 then some Dm.HP
  else if 0x068 ≤ p ∧ p ≤ 0x06B then some (Dm.AMP (p - 0x068))
  else none

/-- Whether a page is defined (R404). -/
abbrev pageDefined (p : Nat) : Bool := (pageDomain p).isSome

/-- The version of a page (15_transactions_and_hosts.md R355). -/
def State.pageVer (s : State) (p : Nat) : Nat := sparseGet 0 s.pageVers p

/-- The version of a page, one more, modulo 2^32. -/
def State.bumpVer (s : State) (p : Nat) : State :=
  { s with pageVers := sparseSet 0 s.pageVers p ((s.pageVer p + 1) % 2 ^ 32) }

/-- The port that holds the claim on a page. -/
def State.claimOf (s : State) (p : Nat) : Option Nat := (s.claims.find? (·.1 == p)).map (·.2)

/-! ## Rates (02_clocks_and_time.md R28) -/

/-- Fb in Hz. -/
def State.fb (s : State) : Nat := if s.flag Fd.CLK_CORE_FAMILY then 44100 else 48000

/-- Fc in Hz. -/
def State.fc (s : State) : Nat := s.fb * 2 ^ s.fld Fd.CLK_CORE_MULT

/-- The ticks that `ms` milliseconds last, rounded up (03_serial_audio_ports.md R76). -/
def State.msTicks (s : State) (ms : Nat) : Nat := ceilDiv (ms * s.fc) 1000

/-- SYSCNT counts from milliseconds (98.304 MHz, R46). -/
abbrev msCounts (ms : Nat) : Nat := ms * 98304

/-! ## The addresses of CP2 (14_control_ports.md R328) -/

/-- Whether an address is one that settings `x` of CP2.XPORT answer: the 7-bit address while ADDR7_EN = 1, and the 10-bit address
0x200 × BASE10 + the ensemble index (01_architecture.md R27). -/
def targetHits (a : TargetAddr) (x index : Nat) : Bool :=
  match a with
  | .seven v => bitOf x 7 && v.toNat == x % 128
  | .ten v => v.toNat == 0x200 * bit (bitOf x 10) + index

/-- Whether port `p` answers a transfer to `a`; the other ports have no address. -/
def State.answersTo (s : State) (p : Fin 4) (a : TargetAddr) : Bool := p != 2 || targetHits a s.ports[p].xport s.index

/-! ## Vectors by plain index -/

/-- Element `i`, or `d` beyond the end. -/
def at_ {α : Type} {n : Nat} (v : Vector α n) (i : Nat) (d : α) : α := if h : i < n then v[i] else d

/-- `v` with element `i` changed by `f`. -/
def upd {α : Type} {n : Nat} (v : Vector α n) (i : Nat) (f : α → α) : Vector α n :=
  if h : i < n then v.set i (f v[i]) else v

/-! ## Control ports and their operations -/

/-- `s` with a port changed. -/
def State.updPort (s : State) (p : Fin 4) (f : Port → Port) : State := { s with ports := s.ports.set p (f s.ports[p]) }

/-- The OP code of an operation (14_control_ports.md Table 14.4). -/
def opCode : Instr → Nat
  | .hello _ _ _ _ => 0x01
  | .lease _ _ => 0x02
  | .rd _ _ _ => 0x10
  | .wr _ _ _ _ => 0x11
  | .rmw _ _ _ _ _ => 0x12
  | .txnOpen _ => 0x20
  | .txnCommit _ _ _ _ => 0x21
  | .txnAbort _ _ => 0x22
  | .txnStatus _ _ _ => 0x23
  | .claim _ _ => 0x30
  | .release _ _ => 0x31
  | .ringPull _ _ _ => 0x40
  | .ringPush _ _ _ => 0x41
  | .powerChange _ _ => 0x11
  | _ => 0x00

/-- A waiting operation of port `p` that waits for `w` has its result. -/
def State.waitOver (s : State) (p : Fin 4) (w : Wait → Option OpResult) : State :=
  s.updPort p fun q => { q with waiting := q.waiting.map fun (x : WaitOp) => match w x.wait with
    | some r => { x with wait := .ready { r with op := opCode x.op } }
    | none => x }

/-! ## Discharges (19_electrical_and_package.md R427) -/

/-- Whether the block of a pin may deliver disturbed samples in this tick. -/
def State.esdAt (s : State) (p : EsdPin) : Bool := s.esd.any (·.1 == p)

/-- The pins of a port that a connector faces. -/
def State.esdPort (s : State) (n : Nat) : Bool := 24 ≤ n && s.esdAt (.port (Fin.ofNat 8 (n - 24)))

end Sys2Proof.Machine
end

