-- ==== Sys2Proof/Machine/Flags.lean ====
section
/-!
DEFINITION. Event and error flags: raising an event and its records (16_rings_events_books.md R375–R377,
13_power_domains.md R319), error bits, and writing entries to rings.
-/
namespace Sys2Proof.Machine

/-! ## Rings -/

/-- The number of entries of a ring (R371). -/
abbrev Ring.size (r : Ring) : Nat := 2 ^ r.log2n

/-- The fill of a ring: P − C modulo 2^32 (R371). -/
abbrev Ring.fill (r : Ring) : Nat := (r.prod - r.cons).toNat

/-- The bytes of one entry of ring `i` (Table 16.1, R378). -/
def ringEsize (i : Nat) (pack : Bool) : Nat :=
  if i < 20 then 16 else if i < 24 then 8 else if i < 26 then 64 else if i = 26 then 32 else if i = 27 then 256
  else if pack then 4 else 3

/-- Whether the device produces ring `i`, so that a host consumes it (Table 16.1). -/
abbrev ringDeviceProduced (i : Nat) : Bool := 8 ≤ i && i ≤ 29 && i != 24

/-- The ring `i`. -/
abbrev State.ring (s : State) (i : Nat) : Ring := at_ s.rings i ⟨false, false, 2, 0, 0, 0, 0, 0, false⟩

/-- The address of the entry of index `x` of ring `i` (R371). -/
def Ring.entryAddr (r : Ring) (i : Nat) (x : Word) : Nat :=
  0x20000000 + r.base * 256 + x.toNat % r.size * ringEsize i r.pack

/-- `s` with ring `i` changed. -/
def State.updRing (s : State) (i : Nat) (f : Ring → Ring) : State := { s with rings := upd s.rings i f }

/-! ## Event bits -/

/-- A register of event status bits: EVT_STATUS of a page, or one that R103 or R127 equates with it (Table 16.2 REG). -/
inductive EvtReg where
  | page | aes | grp (g : Nat)
deriving DecidableEq, Repr

/-- The REG code of an event record. -/
def EvtReg.code : EvtReg → Nat
  | .page => 0
  | .aes => 1
  | .grp g => 0x10 + g

/-- The address of the status bits. -/
def EvtReg.statusAddr (p : Nat) : EvtReg → Nat
  | .page => pageAddr p 0x010
  | .aes => pageAddr p 0x114
  | .grp g => pageAddr p (0x124 + 0x40 * g)

/-- The address of the enable bits. -/
def EvtReg.enableAddr (p : Nat) : EvtReg → Nat
  | .page => pageAddr p 0x014
  | .aes => pageAddr p 0x118
  | .grp g => pageAddr p (0x128 + 0x40 * g)

/-- The 16 bytes of an event record (Table 16.2). -/
def EvtRec.bytes (e : EvtRec) (lostBefore : Bool) : List Byte :=
  bytesLE 6 e.stamp ++ [BitVec.ofNat 8 (bit e.coarse + 2 * bit lostBefore + 4 * bit e.forced), BitVec.ofNat 8 e.reg]
    ++ bytesLE 2 (e.page % 1024) ++ [BitVec.ofNat 8 e.bitNo, 0] ++ bytesLE 4 e.detail

/-- Whether a port has a session that receives events (R376). -/
def Port.hears (p : Port) : Bool := p.session == .opened || p.session == .grace

/-- `k` entries of ring `i` count as lost: in HKSEQ.LOST for rings 20–23 (R375), else in RINGi_WM.LOST. -/
def State.countLost (s : State) (i : Nat) (k : Nat := 1) : State :=
  if 20 ≤ i ∧ i ≤ 23 then (s.countSat (Fd.HKSEQ_LOST_COUNT (i - 20)) k).updRing i fun r => { r with lostBefore := true }
  else s.updRing i fun r => { r with lost := satAdd 16 r.lost k, lostBefore := true }

/-- Whether the ring logic runs: CORE and CMEM are ON (01_architecture.md Table 1.9). -/
abbrev State.ringsUp (s : State) : Bool := s.domOn Dm.CORE && s.domOn Dm.CMEM

/-- Sets a watermark bit of ring `i`; where that bit is new and enabled, WM is to be raised (R375). -/
def State.markWater (s : State) (i : Nat) : State × List Nat :=
  (s.setBit Fd.RING_WM_STATUS_RINGS i true,
    if !bitOf (s.fld Fd.RING_WM_STATUS_RINGS) i && bitOf (s.fld Fd.RING_WM_ENABLE_RINGS) i then [0] else [])

/-- Raises the events of page RING that serving a ring has caused. -/
def raiseAll (raise : Nat → State → State) (x : State × List Nat) : State := x.2.foldl (fun t b => raise b t) x.1

/-- One entry enters device-produced ring `i`, or counts as lost, with the events of page RING to raise (R371, R372, R375); while the
ring logic does not run it is gone (DEDUCED, notes/assumptions/62.md). -/
def ringEnter (i : Nat) (entry : Bool → List Byte) (s : State) : State × List Nat :=
  let r := s.ring i
  if !s.ringsUp then (s, [])
  else if !r.enable || r.fill = r.size then (s.countLost i, [1])
  else
    let s1 := (s.setBytes (r.entryAddr i r.prod) (entry r.lostBefore)).updRing i
      fun q => { q with prod := q.prod + 1, lostBefore := false }
    if r.wm ≠ 0 ∧ r.fill < r.wm ∧ r.wm ≤ r.fill + 1 then s1.markWater i else (s1, [])

/-- Writes one entry to device-produced ring `i` and raises by `raise` what follows. -/
def ringPutWith (raise : Nat → State → State) (i : Nat) (entry : Bool → List Byte) (s : State) : State :=
  raiseAll raise (ringEnter i entry s)

/-- The record of port `p` enters its event ring, after those of the ports before. -/
def hearRecord (e : EvtRec) (x : State × List Nat) (p : Fin 4) : State × List Nat :=
  if x.1.ports[p].hears then
    let y := ringEnter (8 + p) e.bytes x.1
    (y.1, x.2 ++ y.2)
  else x

/-- Writes a record to the event log and the event ring of each port that hears events; what follows of it is raised after it (R376). -/
def recordWith (raise : Nat → State → State) (e : EvtRec) (s : State) : State :=
  let s1 := (s.setBytes (0x20078000 + s.evtLog % 1024 * 16) (e.bytes false))
  raiseAll raise (([0, 1, 2, 3] : List (Fin 4)).foldl (hearRecord e) ({ s1 with evtLog := s1.evtLog + 1 }, []))

/-- Whether one record comes before another of the same engine cycle: by page, register and bit (R376). -/
def EvtRec.before (x y : EvtRec) : Bool :=
  x.page < y.page || (x.page == y.page && (x.reg < y.reg || (x.reg == y.reg && x.bitNo < y.bitNo)))

/-- Inserts a record behind those that do not come after it. -/
def insertRec (x : EvtRec) : List EvtRec → List EvtRec
  | [] => [x]
  | y :: l => if x.before y then x :: y :: l else y :: insertRec x l

/-- Delivers a record: at once while CORE is ON, else when CORE is ON (R377), asserting the IRQn of R319 meanwhile;
with others of one engine cycle, after all of them are known. -/
def deliverWith (raise : Nat → State → State) (e : EvtRec) (s : State) : State :=
  match s.evtNow with
  | some l => { s with evtNow := some (l ++ [e]) }
  | none =>
  if s.ringsUp then recordWith raise e s
  else
    let wakes := e.page == 0x001 || e.page == 0x002 || e.page == 0x004 || e.page == 0x014
    { s with evtHeld := s.evtHeld ++ [e],
             irqHeld := if wakes then s.irqHeld ||| BitVec.ofNat 4 (s.fld Fd.AON_IRQ_WAKE_PORTS) else s.irqHeld }

/-- Sets a status bit; where it goes from 0 to 1 while enabled, delivers its record (R376).  The fuel bounds the events
of page RING that a record's own ring may raise: each of its bits can go from 0 to 1 once. -/
def raiseFuel : Nat → Nat → EvtReg → Nat → Nat → Bool → State → State
  | 0, _, _, _, _, _, s => s
  | fuel + 1, p, r, b, detail, forced, s =>
    let st := (s.reg (r.statusAddr p)).toNat
    let en := (s.reg (r.enableAddr p)).toNat
    let s1 := s.setReg (r.statusAddr p) (word (withBit st b))
    if !bitOf st b && bitOf en b then
      deliverWith (fun k t => raiseFuel fuel 0x00C .page k t.tickcnt false t)
        ⟨s.syscnt, s.coarse, forced, r.code, p, b, detail⟩ s1
    else s1

/-- Raises event bit `b` of page `p`; the record carries TICKCNT (R376). -/
def State.raise (s : State) (p b : Nat) : State := raiseFuel 4 p .page b s.tickcnt false s

/-- Raises an AES3 event of port `n` (04_aes3_ports.md R103). -/
def State.raiseAes (s : State) (n b : Nat) : State := raiseFuel 4 (0x020 + n) .aes b s.tickcnt false s

/-- Raises an event of alignment group `g` (05_alignment_and_rate_conversion.md R127). -/
def State.raiseGrp (s : State) (g b : Nat) : State := raiseFuel 4 0x004 (.grp g) b s.tickcnt false s

/-- Raises an event bit with a given DETAIL (DEDUCED, notes/assumptions/63.md). -/
def State.raiseWith (s : State) (p b detail : Nat) : State := raiseFuel 4 p .page b detail false s

/-- Raises every bit of `bits` from `b` upwards (Within one cycle records enter in ascending bit order, R376). -/
def State.raiseBits (s : State) (p : Nat) (bits : List Nat) : State := bits.foldl (fun t b => t.raise p b) s

/-- An event of page RING raised while a ring is served. -/
abbrev raiseRing (b : Nat) (s : State) : State := s.raise 0x00C b

/-- Writes one entry to device-produced ring `i`. -/
def State.ringPut (s : State) (i : Nat) (entry : Bool → List Byte) : State := ringPutWith raiseRing i entry s

/-- The records held while CORE was down are written, now that CORE is ON, and the pins of R319 are let go (R377)
(DEDUCED, notes/assumptions/63.md). -/
def State.flushEvents (s : State) : State :=
  s.evtHeld.foldl (fun t e => recordWith raiseRing e t) { s with evtHeld := [], irqHeld := 0 }

/-- `f` as the work of one engine cycle: the records of its events enter in ascending page, register and bit order (R376)
(DEDUCED, notes/assumptions/63.md). -/
def State.inOneCycle (s : State) (f : State → State) : State :=
  match s.evtNow with
  | some _ => f s
  | none =>
    let t := f { s with evtNow := some [] }
    ((t.evtNow.getD []).foldl (fun l e => insertRec e l) []).foldl (fun u e => deliverWith raiseRing e u) { t with evtNow := none }

/-- Sets bit `b` of the ERR register of page `p`. -/
def State.setErr (s : State) (p b : Nat) : State :=
  s.setReg (pageAddr p 0x01C) (word (withBit (s.reg (pageAddr p 0x01C)).toNat b))

/-! ## Consuming and producing by a host (R373–R375) -/

/-- Ring `i` gives up `k` entries; a host-produced ring that falls to its watermark says so (R375). -/
def State.ringTake (s : State) (i k : Nat) : State :=
  let r := s.ring i
  let s1 := s.updRing i fun q => { q with cons := q.cons + BitVec.ofNat 32 k }
  if !ringDeviceProduced i && r.wm ≠ 0 && r.wm < r.fill && r.fill - k ≤ r.wm then raiseAll raiseRing (s1.markWater i) else s1

/-- `k` entries that the producer of ring `i` had for it are lost (R372, R375). -/
def State.ringLose (s : State) (i k : Nat) : State := if k = 0 then s else raiseRing 1 (s.countLost i k)

/-- Ring `i` gains `k` entries already in its storage; a device-produced ring never takes this way. -/
def State.ringGive (s : State) (i k : Nat) : State := s.updRing i fun q => { q with prod := q.prod + BitVec.ofNat 32 k }

/-- The bytes of the `k` oldest entries of ring `i`. -/
def State.ringEntries (s : State) (i k : Nat) : List Byte :=
  let r := s.ring i
  (List.range k).flatMap fun j => s.bytesAt (r.entryAddr i (r.cons + BitVec.ofNat 32 j)) (ringEsize i r.pack)

end Sys2Proof.Machine
end

