-- ==== Sys2Proof/Machine/Numeric.lean ====
section
/-!
DEFINITION. The numbers behind the formulas of the manual: powers and logarithms, sines and exponentials in fixed point, and
the bounds that they put on what one device may round (notes/assumptions/20.md, 23.md).
-/
namespace Sys2Proof.Machine

/-! ## Fixed point: units of 2^-60 -/

/-- One. -/
abbrev fxOne : Nat := 2 ^ 60

/-- ln 2, log2 10 and π/2 in units of 2^-60 (notes/assumptions/23.md). -/
abbrev fxLn2 : Nat := 799144290325165978
abbrev fxLog10 : Nat := 3829922337353294527
abbrev fxHalfPi : Nat := 1811004864519280710

/-- The terms of the exponential series of `x` from the one after `k` on, whose last term is `term`. -/
def expTerms : Nat → Nat → Nat → Int → Int → Int
  | 0, _, _, _, _ => 0
  | fuel + 1, step, k, x, term =>
    let t := term * x / (fxOne * (k + 1 : Nat))
    let u := if step = 1 then t else -(t * x / (fxOne * (k + 2 : Nat)))
    u + expTerms fuel step (k + step) x u

/-- e^x for `x` in −1 … 1, in fixed point. -/
def fxExp (x : Int) : Int := fxOne + expTerms 30 1 0 x fxOne

/-- cos x for `x` in 0 … π/2, in fixed point. -/
def fxCos (x : Int) : Int := fxOne + expTerms 15 2 0 x fxOne

/-- sin x for `x` in 0 … π/2, in fixed point. -/
def fxSin (x : Int) : Int := x + expTerms 15 2 1 x x

/-- `m` × 2^(x) in fixed point, rounded down. -/
def fxScale2 (m : Int) (x : Int) : Int :=
  let e := x / (fxOne : Int)
  let f := fxExp (x % (fxOne : Int) * fxLn2 / fxOne)
  if 0 ≤ e then m * f * 2 ^ e.toNat / fxOne else m * f / (fxOne * 2 ^ (-e).toNat)

/-- The fractional bits of the binary logarithm of `m` × 2^-126 in [1, 2). -/
def log2Bits : Nat → Nat → Nat → Nat
  | 0, _, acc => acc
  | k + 1, m, acc =>
    let q := m * m / 2 ^ 126
    if 2 ^ 127 ≤ q then log2Bits k (q / 2) (2 * acc + 1) else log2Bits k q (2 * acc)

/-- The power of two at or below `n`, among those up to 2^69. -/
def pow2Below (n : Nat) : Nat := ((List.range 70).filter fun e => 2 ^ e ≤ n).length - 1

/-- log2 n in fixed point, for `n` from 1. -/
def fxLog2 (n : Nat) : Nat :=
  let e := pow2Below n
  e * fxOne + log2Bits 60 (n * 2 ^ (126 - e)) 0

/-! ## Gains and levels -/

/-- A gain of `num / (den × 128)` dB as an exponent of two, in fixed point: 20 dB are log2 10. -/
def dbExponent (num : Int) (den : Nat) : Int := num * fxLog10 / (2560 * den : Nat)

/-- `m` times the linear factor of a gain, in fixed point (DESIGN CHOICE, notes/assumptions/20.md). -/
def dbScale (m num : Int) (den : Nat) : Int := fxScale2 m (dbExponent num den)

/-- The least and the greatest factor, in units of 2^-48, that R194 allows for a gain: 0.001 dB about it. -/
def gainBand (num : Int) (den : Nat) : Int × Int :=
  (dbScale (2 ^ 48) (125 * num - 16 * den) (125 * den), dbScale (2 ^ 48) (125 * num + 16 * den) (125 * den))

/-- The linear factor of a gain in units of 2^-48, within 0.001 dB (08_mixing_and_processing.md R194)
(DESIGN CHOICE, notes/assumptions/20.md). -/
def gainFactor (num : Int) (den : Nat) : Int :=
  let (lo, hi) := gainBand num den
  clampInt lo hi (Config.linearGain num den)

/-- A choice between two neighbours: `c` held to `lo … lo + 1`. -/
abbrev neighbour (lo c : Int) : Int := clampInt lo (lo + 1) c

/-- The magnitude in Q1.31 codes of a level of `num / den` units of 1/128 dB relative to full scale, a neighbour of the exact one
(00_scope.md, dBFS) (DESIGN CHOICE, notes/assumptions/20.md). -/
def levelCode (num : Int) (den : Nat) : Int :=
  if num = 0 then 2147483647 else neighbour (dbScale 2147483647 num den) (Config.levelOf num den)

/-- The level of a magnitude `m` of Q1.31 codes (20 log10) or of a mean square `m` (10 log10, 0 dB for a sine at full scale:
00_scope.md, dBFS), in units of 2^-16 / 128 dB, a neighbour of the exact one; that of 0 is any below that of 1
(DESIGN CHOICE, notes/assumptions/23.md). -/
def levelDb (square : Bool) (m : Nat) : Int :=
  -- 20 log10 2 = 20 / log2 10 dB; a unit is 2^-23 dB
  let units (x : Int) : Int := x * (20 * 2 ^ 23) / fxLog10
  let lo (n : Nat) : Int :=
    if square then units ((fxLog2 n : Int) + fxOne - 2 * fxLog2 2147483647) / 2 else units ((fxLog2 n : Int) - fxLog2 2147483647)
  if m = 0 then min (lo 1) (Config.levelDb square 0) else neighbour (lo m) (Config.levelDb square m)

/-- The next value of a one-pole approach of `x` to `t` with a time constant of `n` ticks: the part 1 − e^(−1/n) of the way, a
neighbour of the exact one (08_mixing_and_processing.md R208) (DESIGN CHOICE, notes/assumptions/23.md). -/
def onePole (n : Nat) (x t : Int) : Int :=
  let k := fxOne - fxExp (-((fxOne / glideTicks n : Nat) : Int))
  if x = t then x else neighbour (x + (t - x) * k / fxOne) (Config.onePole n x t)

/-- The equal-power mix of an old and a new result in step `i` of a crossover of `l` ticks (07_fabric_schedule.md R178), a
neighbour of the exact one (DESIGN CHOICE, notes/assumptions/23.md). -/
def equalPower (i l : Nat) (a b : Int) : Int :=
  let x : Int := (fxHalfPi * (i + 1) / (l + 1) : Nat)
  neighbour ((fxCos x * a + fxSin x * b) / fxOne) (Config.equalPower i l a b)

/-- sin of a phase of 32 bits, in fixed point. -/
def phaseSin (p : Nat) : Int :=
  let q : Nat := p % 2 ^ 30
  let x : Int := (fxHalfPi * q / 2 ^ 30 : Nat)
  match p / 2 ^ 30 % 4 with
  | 0 => fxSin x
  | 1 => fxCos x
  | 2 => -fxSin x
  | _ => -fxCos x

/-- The sample of a sine (1), square (2) or DC (5) at a phase and a level of `num / (den × 128)` dB, before saturation
(08_mixing_and_processing.md Table 8.8); a square begins positive (DESIGN CHOICE, notes/assumptions/23.md). -/
def waveCode (kind phase : Nat) (num : Int) (den : Nat) : Int :=
  let peak := levelCode num den
  if kind = 1 then neighbour (phaseSin phase * peak / fxOne) (Config.wave phase num den)
  else if kind = 2 then (if phase < 2 ^ 31 then peak else -peak)
  else if kind = 5 then peak
  else 0

/-- The increment of a logarithmic sweep from `f` to `e` over `n` ticks in its tick `i` (Table 8.8): f × (e / f)^(i / n), a
neighbour of the exact one; from or to 0 the manual gives none, and every one is allowed
(DESIGN CHOICE, notes/assumptions/23.md). -/
def sweepInc (f e n i : Nat) : Nat :=
  if f = e ∨ i = 0 then f
  else if f = 0 ∨ e = 0 then Config.sweepInc f e n i % 2 ^ 32
  else
    let x : Int := (fxLog2 f : Int) + ((fxLog2 e : Int) - fxLog2 f) * i / max 1 n
    (neighbour (fxScale2 1 x) (Config.sweepInc f e n i)).toNat

end Sys2Proof.Machine
end

