-- ==== Sys2Proof/Machine/Glides.lean ====
section
/-!
DEFINITION. Tags, gains, glides and fades (01_architecture.md R13, R14; 08_mixing_and_processing.md R195–R197).
-/
namespace Sys2Proof.Machine

/-! ## Tags -/

/-- Every tag bit clear. -/
abbrev Tag.clear : Tag := ⟨false, false, false, false, false, false, false, false⟩
/-- VALID alone. -/
abbrev Tag.genuine : Tag := { Tag.clear with valid := true }
/-- SYNTH with VALID clear: silence and fade tails. -/
abbrev Tag.made : Tag := { Tag.clear with synth := true }

/-- The tag as a byte (Table 1.3). -/
def Tag.code (t : Tag) : Nat :=
  bit t.valid + 2 * bit t.settling + 4 * bit t.synth + 8 * bit t.xover + 16 * bit t.clipped + 32 * bit t.u
    + 64 * bit t.c + 128 * bit t.blockStart

/-- The tag of a byte. -/
def Tag.ofCode (n : Nat) : Tag :=
  ⟨bitOf n 0, bitOf n 1, bitOf n 2, bitOf n 3, bitOf n 4, bitOf n 5, bitOf n 6, bitOf n 7⟩

/-- The largest and smallest sample codes (R8). -/
abbrev sampleMax : Int := 2147483647
abbrev sampleMin : Int := -2147483648

/-- 0 with every tag bit clear (R14, R19). -/
abbrev Sample.zero : Sample := ⟨0, Tag.clear⟩
/-- 0 tagged SYNTH with VALID clear. -/
abbrev Sample.silence : Sample := ⟨0, Tag.made⟩

/-! ## Gains (R6, R194) -/

/-- −120 dB in units of 1/128 dB. -/
abbrev minGain : Int := -15360

/-- The gain of a stored code (R6). -/
def Gain.ofCode (c : Nat) : Gain := if c % 65536 = 0x8000 then .mute else .db (signed 16 c) 1

/-- The code of a gain: the nearest 1/128 dB, 0x8000 when mute (Table 8.2). -/
def Gain.code : Gain → Nat
  | .mute => 0x8000
  | .db n d => unsigned 16 ((2 * n + d) / (2 * d))

/-- Whether a gain is above −120 dB and not mute (R13). -/
def Gain.active : Gain → Bool
  | .mute => false
  | .db n d => minGain * d < n

/-- Whether a gain is exactly 0 dB. -/
def Gain.isUnity : Gain → Bool
  | .mute => false
  | .db n _ => n == 0

/-- A gain in lowest terms. -/
def Gain.norm : Gain → Gain
  | .mute => .mute
  | .db n d => let g := Nat.gcd n.natAbs d; .db (n / g) (d / g)

/-- A gain as a fraction: its numerator and denominator, −120 dB for mute (R197). -/
def Gain.frac : Gain → Int × Nat
  | .mute => (minGain, 1)
  | .db n d => (n, d)

/-- The gain of step `i` of a glide of `l` ticks from `a` to `b` (R195, R197). -/
def Gain.between (a b : Gain) (i l : Nat) : Gain :=
  if l ≤ i + 1 then b
  else
    let (an, ad) := a.frac
    let (bn, bd) := b.frac
    Gain.norm (.db (an * (bd * l) + (bn * ad - an * bd) * (i + 1)) (ad * bd * l))

/-- The product of a code and a gain of `n / (d × 128)` dB before saturation: what a factor within 0.001 dB of the gain gives,
rounded either way (DESIGN CHOICE, notes/assumptions/20.md). -/
def fadeProduct (n : Int) (d : Nat) (v : Int) : Int :=
  let (lo, hi) := gainBand n d
  clampInt (min (v * lo) (v * hi) / 2 ^ 48) (max (v * lo) (v * hi) / 2 ^ 48 + 1) (Config.faded n d v)

/-- A sample code under a fade gain before saturation: exact at 0 dB, 0 when mute, never louder than the sample below 0 dB
(DESIGN CHOICE, notes/assumptions/20.md). -/
def fadeRaw (g : Gain) (v : Int) : Int :=
  match g with
  | .mute => 0
  | .db n d =>
    if n = 0 then v else if n < 0 then clampInt (-v.natAbs) v.natAbs (fadeProduct n d v) else fadeProduct n d v

/-- A sample code under a fade gain, saturated (DESIGN CHOICE, notes/assumptions/20.md). -/
def fadeCode (g : Gain) (v : Int) : Int :=
  match g with
  | .mute => 0
  | .db n d =>
    if n = 0 then v
    else if n < 0 then clampInt (-v.natAbs) v.natAbs (fadeProduct n d v)
    else clampInt sampleMin sampleMax (fadeProduct n d v)

/-! ## Glides -/

/-- A gain at rest. -/
abbrev Glide.at (g : Gain) : Glide := ⟨g, g, 0, 0, g⟩

/-- A new target over `l` ticks, from the present gain (R195, R196). -/
def Glide.aim (g : Glide) (t : Gain) (l : Nat) : Glide := ⟨g.now, t, glideTicks l, glideTicks l, g.now⟩

/-- A target written: one equal to the current target starts nothing (R196). -/
def Glide.retarget (g : Glide) (t : Gain) (l : Nat) : Glide := if t = g.target then g else g.aim t l

/-- A target that applies: one equal to the current target starts nothing; another begins its glide in this tick, over the length
that is in force when every word of the tick has applied (R195, R196). -/
def Glide.request (g : Glide) (t : Gain) : Glide := if t = g.target then g else ⟨g.now, t, 0, 0, g.now⟩

/-- A requested glide begins over `l` ticks. -/
def Glide.begin_ (g : Glide) (l : Nat) : Glide := if g.left = 0 ∧ g.now ≠ g.target then g.aim g.target l else g

/-- The gain of the next tick. -/
def Glide.step (g : Glide) : Glide :=
  if g.left = 0 then { g with now := g.target }
  else { g with now := Gain.between g.start g.target (g.total - g.left) g.total, left := g.left - 1 }

/-- Whether a glide is under way. -/
abbrev Glide.moving (g : Glide) : Bool := g.left != 0

end Sys2Proof.Machine
end

