-- ==== Sys2Proof/Machine/Store.lean ====
section
/-!
DEFINITION. How a written word is stored: the access types of 00_scope.md Table 0.2 and the store rules of the field
tables; configuration writes held until their block stops.
-/
namespace Sys2Proof.Machine

/-- The value a field stores for a written value. -/
def StoreRule.apply (r : StoreRule) (v : Nat) : Nat :=
  match r with
  | .plain => v
  | .recode cs => ((cs.find? (·.1 == v)).map (·.2)).getD v
  | .atMost n => min v n
  | .between lo hi => max lo (min v hi)
  | .gain => gainStore v
  | .thresh => if v = 0x8000 then 0xC400 else gainStore v
  | .kind => if v ≤ 7 then v else 0
  | .route => if v ≤ 0x2C then v else 0
  | .pulse => 0

/-- Whether a host may write the field (Table 0.2). -/
def Access.writable : Access → Bool
  | .rw | .rws | .w1c | .wo => true
  | .ro | .rc => false

/-- A field of a word after a write (Table 0.2): RW and RWS store, W1C clears the ones, others keep. -/
def FieldRow.write (f : FieldRow) (old new : Nat) : Nat :=
  let w := f.hi + 1 - f.lo
  let v := bitsAt new f.lo w
  match f.acc with
  | .rw | .rws => putBits old f.lo w (f.store.apply v)
  | .w1c => putBits old f.lo w (bitsAt old f.lo w - (bitsAt old f.lo w &&& v))
  | .ro | .wo | .rc => old

/-- A word of a register after a write; fields whose home is elsewhere are not held here. -/
def RegRow.write (r : RegRow) (old new : Nat) : Nat :=
  r.fields.foldl (fun w f => if f.view then w else f.write w new) old

/-- Whether a register holds a writable field. -/
def RegRow.writable (r : RegRow) : Bool := r.fields.any (·.acc.writable)

/-- Whether a register holds an RWS field (R351). -/
def RegRow.stageable (r : RegRow) : Bool := r.fields.any (·.acc == .rws)

/-- A register after a read: RC fields clear (Table 0.2). -/
def RegRow.readClear (r : RegRow) (old : Nat) : Nat :=
  r.fields.foldl (fun w f => if f.acc == .rc && !f.view then putBits w f.lo (f.hi + 1 - f.lo) 0 else w) old

/-- The register of an address, in a page or in a pool. -/
def regRow (a : Nat) : Option RegRow :=
  if inPages a then pageReg (pageOf a) (pageOff a) else if inParams a then (poolReg a).map (·.2) else none

/-- The word that the register at `a` holds after a write of `v`. -/
def State.stored (s : State) (a v : Nat) : Word :=
  match regRow a with
  | some r => word (r.write (s.reg a).toNat v)
  | none => s.reg a

/-- Stores a written word in the fields of the register at `a`. -/
def State.store (s : State) (a v : Nat) : State := s.setReg a (s.stored a v)

/-- The word that a register-read command leaves on `bus`: `w`, or what R312 gives while the page's domain is not ON
(DESIGN CHOICE, notes/assumptions/16.md). -/
def State.answer (s : State) (p : Nat) (w : Word) : State :=
  { s with bus := match pageDomain p with
      | some d => if s.domOn d then w else word (0xD0FF0000 + p)
      | none => 0 }

/-- Whether page `p` is reachable: its domain is ON (18_register_pages.md R405). -/
def State.pageOn (s : State) (p : Nat) : Bool :=
  match pageDomain p with
  | some d => s.domOn d
  | none => false

/-! ## Held configuration writes -/

/-- Whether a write in domain `d`, to page `g` where it is one of a page, waits for a power change: the domain is to go down and has
not yet, or the page is a voter that has agreed and starts nothing until the change ends (13_power_domains.md R307, R309); writes of
the port whose response CORE waits for do not (DEDUCED, notes/assumptions/61.md). -/
def State.heldFor (s : State) (p : Option (Fin 4)) (d g : Option Nat) : Bool :=
  match s.change with
  | none => false
  | some c =>
    let mine := c.lowers.any fun e => d == some e.1
    let agreed := g.isSome && c.agreed.any fun e => some e.2 == g
    match c.phase with
    | .vote | .wake | .wait => mine || agreed
    | .lower => !(c.coreAfter.any fun x => some x.1 == p) && (if mine then d.any s.domOn else agreed)

/-- Whether a write of a register of page `g` by itself is carried out: its domain is ON, no reset holds the device
(19_electrical_and_package.md R425) and no power change makes it wait
(DESIGN CHOICE, notes/assumptions/17.md). -/
def State.pageTakes (s : State) (g : Nat) : Bool := s.pageOn g && s.resetHold.isNone && !s.heldFor none (pageDomain g) (some g)

/-- Holds a configuration write until its block stops. -/
def State.hold (s : State) (a v : Nat) : State := { s with cfgPend := s.cfgPend ++ [(a, v)] }

/-- Whether a write of an address that `sel` picks is held. -/
def State.holds (s : State) (sel : Nat → Bool) : Bool := s.cfgPend.any fun e => sel e.1

/-- Applies, oldest first, the held writes of the addresses that `sel` picks. -/
def State.applyHeld (s : State) (sel : Nat → Bool) : State :=
  (s.cfgPend.filter fun e => sel e.1).foldl (fun t e => t.store e.1 e.2)
    { s with cfgPend := s.cfgPend.filter fun e => !sel e.1 }

/-- Forgets the held writes of the addresses that `sel` picks. -/
def State.dropHeld (s : State) (sel : Nat → Bool) : State :=
  { s with cfgPend := s.cfgPend.filter fun e => !sel e.1 }

end Sys2Proof.Machine
end

