-- ==== Sys2Proof/Machine/SapOps.lean ====
section
/-!
DEFINITION. Shared operations of the serial audio ports, their AES3 side and their alignment: configuration, FIFO and
cushion, blocks and stamps, zero-crossing switching, the snowplough, starts and stops (03_serial_audio_ports.md,
04_aes3_ports.md, 05_alignment_and_rate_conversion.md).
-/
namespace Sys2Proof.Machine

/-! ## Access -/

/-- The page of port `n`. -/
abbrev sapPage (n : Nat) : Nat := 0x020 + n

/-- `s` with port `n` changed. -/
def State.updSap (s : State) (n : Fin 32) (f : Sap → Sap) : State := { s with saps := s.saps.set n (f s.saps[n]) }

/-- Line `k` of port `n`. -/
abbrev State.line (s : State) (n : Fin 32) (k : Fin 2) : SapLine := s.saps[n].lines[k]

/-- `s` with line `k` of port `n` changed. -/
def State.updLine (s : State) (n : Fin 32) (k : Fin 2) (f : SapLine → SapLine) : State :=
  s.updSap n fun p => { p with lines := p.lines.set k (f p.lines[k]) }

/-- `s` with channel `c` (2 × line + channel) of port `n` changed. -/
def State.updChan (s : State) (n : Fin 32) (c : Fin 4) (f : SapChan → SapChan) : State :=
  s.updSap n fun p => { p with chans := p.chans.set c (f p.chans[c]) }

/-- The channel number of channel `b` (0 or 1) of line `k`. -/
abbrev chanNo (k : Fin 2) (b : Fin 2) : Fin 4 := ⟨2 * k.val + b.val, by omega⟩

/-- The states of a port (Table 3.4). -/
inductive SapState where
  | stopped | starting | running | stopping | held | pdm
deriving DecidableEq, Repr

/-- The code of a port state (Table 3.4). -/
def SapState.code : SapState → Nat
  | .stopped => 0
  | .starting => 1
  | .running => 2
  | .stopping => 3
  | .held => 4
  | .pdm => 5

/-- The port state of a code. -/
def SapState.ofCode : Nat → SapState
  | 1 => .starting
  | 2 => .running
  | 3 => .stopping
  | 4 => .held
  | 5 => .pdm
  | _ => .stopped

/-- The state of port `n`. -/
def State.sapState (s : State) (n : Fin 32) : SapState := SapState.ofCode (s.fld (Fd.SAP_STATE_STATE n))

/-- `s` with port `n` in a state. -/
def State.setSapState (s : State) (n : Fin 32) (t : SapState) : State := s.setFld (Fd.SAP_STATE_STATE n) t.code

/-! ## Event bits of a SAP page (Table 3.18) -/

namespace SapEv
abbrev STARTED := 0
abbrev STOPPED := 1
abbrev ZC_DONE := 2
abbrev ZC_TIMEOUT := 3
abbrev UNDERRUN := 4
abbrev OVERRUN := 5
abbrev FRAMING := 6
abbrev RATE_MISMATCH := 7
abbrev HELD := 8
end SapEv

/-! Event bits of a group (R127). -/

namespace GrpEv
abbrev ANCHORED := 0
abbrev SNOW_START := 1
abbrev SILENT := 2
abbrev REJOIN := 3
abbrev LATE_DROP := 4
abbrev SPLICE := 5
abbrev REANCHOR := 6
end GrpEv

/-! ## Configuration of a port -/

/-- The direction field of line `k`: 0 off, 1 input, 2 output (Table 3.12). -/
def State.dir (s : State) (n : Fin 32) (k : Fin 2) : Nat :=
  if k = 0 then s.fld (Fd.SAP_LINE_D0_DIR n) else s.fld (Fd.SAP_LINE_D1_DIR n)

/-- Whether the port runs in AES3 mode (R89). -/
abbrev State.isAes (s : State) (n : Fin 32) : Bool := s.fld (Fd.SAP_FMT_FORMAT n) == 3

/-- Whether the port is clock master. -/
abbrev State.isMaster (s : State) (n : Fin 32) : Bool := s.flag (Fd.SAP_CLKCFG_ROLE n)

/-- The word rate of the port in Hz. -/
abbrev State.sapHz (s : State) (n : Fin 32) : Nat := rateHz (s.fld (Fd.SAP_CLKCFG_RATE n))

/-- BLOCK_FRAMES of the port. -/
abbrev State.blockFrames (s : State) (n : Fin 32) : Nat := s.fld (Fd.SAP_LINE_BLOCK_FRAMES n)

/-- Whether the port stores PACK4 images. -/
abbrev State.pack4 (s : State) (n : Fin 32) : Bool := s.flag (Fd.SAP_LINE_PACK n)

/-- The number of lines in use. -/
def State.linesUsed (s : State) (n : Fin 32) : Nat :=
  (if s.dir n 0 = 0 then 0 else 1) + (if s.dir n 1 = 0 then 0 else 1)

/-- The bytes of one frame in the FIFO (R66). -/
def State.frameBytes (s : State) (n : Fin 32) : Nat := if s.pack4 n then 8 else 6

/-- The FIFO capacity of a line in frames (Table 3.3). -/
def State.fifoCap (s : State) (n : Fin 32) : Nat :=
  (if s.linesUsed n = 2 then 2048 else 4096) / s.frameBytes n

/-- The FIFO region of a line (R65). -/
def State.fifoBase (s : State) (n : Fin 32) (k : Fin 2) : Nat :=
  0x58000000 + 0x1000 * n.val + (if s.linesUsed n = 2 ∧ k = 1 then 2048 else 0)

/-- The monitor that watches the clock of a line: the port's pins (R62), or the recovered clock in AES3 mode (R91). -/
def State.lineMon (s : State) (n : Fin 32) : Nat := if s.isAes n then 35 + n.val - 24 else 3 + n.val

/-- Whether monitor `m` is PRESENT at rate code `c`. -/
def State.monAt (s : State) (m c : Nat) : Bool :=
  s.fld (Fd.CLK_MON_STAT_STATE m) == 2 && s.fld (Fd.CLK_MON_STAT_NOMINAL m) == c

/-- Whether a rate converter is attached to a line in a direction (0 into the fabric, 1 out of it). -/
def State.converterOn (s : State) (n : Fin 32) (k : Fin 2) (dir : Nat) : Bool :=
  (List.range 64).any fun i => s.flag (Fd.ASRC_CH_CFG_ENABLE i) && s.fld (Fd.ASRC_CH_CFG_PORT i) == n.val
    && s.fld (Fd.ASRC_CH_CFG_LINE i) == k.val && s.fld (Fd.ASRC_CH_CFG_DIR i) == dir

/-- Whether any line in use of the port has a converter (R64) (DEDUCED, notes/assumptions/21.md). -/
def State.portConverted (s : State) (n : Fin 32) : Bool :=
  (List.finRange 2).any fun k => s.dir n k != 0 && s.converterOn n k (s.dir n k - 1)

/-- Whether the new nominal over Fc lies within 1:8 to 8:1 (R124) (DEDUCED, notes/assumptions/21.md). -/
def State.ratioOk (s : State) (code : Nat) : Bool := s.fc ≤ 8 * rateHz code && rateHz code ≤ 8 * s.fc

/-- Whether a running port with a converter goes on at a new rate of its clock (Table 2.5 RATE_CHANGE,
notes/assumptions/21.md). -/
def State.otherRate (s : State) (n : Fin 32) : Bool :=
  let m := s.lineMon n
  (s.sapState n == .running || s.sapState n == .stopping) && s.portConverted n && s.fld (Fd.CLK_MON_STAT_STATE m) == 2
    && rateKnown (s.fld (Fd.CLK_MON_STAT_NOMINAL m)) && s.ratioOk (s.fld (Fd.CLK_MON_STAT_NOMINAL m))

/-- Whether line `k` takes its clock from outside: both lines of a follower, and in AES3 mode the receive line whatever ROLE says
(R61, R62; 04_aes3_ports.md R91). -/
def State.lineFollows (s : State) (n : Fin 32) (k : Fin 2) : Bool := !s.isMaster n || (s.isAes n && k == 0)

/-- The word rate at which the frames of line `k` come and go, in Hz; an AES3 transmitter sends at RATE alone (04_aes3_ports.md R92)
(DEDUCED, notes/assumptions/21.md). -/
def State.lineHz (s : State) (n : Fin 32) (k : Fin 2) : Nat :=
  if s.lineFollows n k && !(s.isAes n && k == 1) && s.otherRate n then rateHz (s.fld (Fd.CLK_MON_STAT_NOMINAL (s.lineMon n))) else s.sapHz n

/-- Whether the rate of line `k` equals Fc (R63). -/
abbrev State.atFc (s : State) (n : Fin 32) (k : Fin 2) : Bool := s.lineHz n k == s.fc

/-- Whether the port is clock master and its clock runs: the PLL makes it (01_architecture.md R22). -/
def State.masterRuns (s : State) (n : Fin 32) : Bool := s.isMaster n && s.domOn Dm.PLL

/-- Whether the clock of an input line is present (R62, R91). -/
def State.rxClock (s : State) (n : Fin 32) : Bool :=
  (!s.isAes n && s.masterRuns n) || s.monAt (s.lineMon n) (s.fld (Fd.SAP_CLKCFG_RATE n)) || s.otherRate n

/-- Whether the clock of an output line is present (R62, R91, R92). -/
def State.txClock (s : State) (n : Fin 32) : Bool :=
  s.masterRuns n
    || (!s.isMaster n && (s.monAt (s.lineMon n) (s.fld (Fd.SAP_CLKCFG_RATE n)) || (!s.isAes n && s.otherRate n)))

/-- SYSCNT at the edge that starts the frame that passes now: WS of a word-select master at rate Fc changes at the tick boundary
(R61, R69). -/
def State.edgeSys (s : State) (n : Fin 32) (k : Fin 2) : Nat :=
  if s.isMaster n && !s.isAes n && s.atFc n k then s.boundary else s.syscnt

/-- Whether the frames of line `k` pass at tick boundaries, one in each tick: a master at rate Fc (R61). -/
def State.tickAligned (s : State) (n : Fin 32) (k : Fin 2) : Bool := !s.lineFollows n k && s.isMaster n && s.atFc n k

/-- Whether the pads of the port are held (R315). -/
abbrev State.sapPads (s : State) (n : Fin 32) : Bool := s.padHeld (Dm.PORTG (n.val / 8))

/-- Whether the inputs of a port are ignored: its pads are held, or VIO is not there (19_electrical_and_package.md R414). -/
abbrev State.sapDeaf (s : State) (n : Fin 32) : Bool := s.sapPads n || !s.vioUp

/-! ## Alignment groups (R105–R108) -/

/-- The member lines of group `g`, each as 2 × port + line. -/
def State.grpLines (s : State) (g : Fin 8) : List Nat :=
  (List.range 64).filter fun i =>
    if i < 32 then bitOf (s.fld (Fd.TIME_GRP_MEMBERS_LO_LINES g)) i
    else bitOf (s.fld (Fd.TIME_GRP_MEMBERS_HI_LINES g)) (i - 32)

/-- The port and line of a member number. -/
def lineOf (i : Nat) : Fin 32 × Fin 2 := (Fin.ofNat 32 (i / 2), Fin.ofNat 2 i)

/-- The number of line `k` of port `n` among the lines. -/
abbrev lineNo (n : Fin 32) (k : Fin 2) : Nat := 2 * n.val + k.val

/-- The enabled group of an input line (R105). -/
def State.groupOf (s : State) (n : Fin 32) (k : Fin 2) : Option (Fin 8) :=
  (List.finRange 8).find? fun g => s.grps[g].on && (s.grpLines g).contains (lineNo n k)

/-- The index of a member in its group (R105). -/
def State.memberIndex (s : State) (g : Fin 8) (i : Nat) : Nat := (s.grpLines g).findIdx (· == i)

/-- D of R105: the presentation delay in frames. -/
def State.grpD (s : State) (g : Fin 8) (n : Fin 32) : Nat :=
  s.fld (Fd.TIME_GRP_DELAY_PRES_DELAY g) * s.sapHz n / 98304000

/-- TICKS of a line: its group's snowplough length, 48 for a line in no group (R104). -/
def State.snowTicks (s : State) (n : Fin 32) (k : Fin 2) : Nat :=
  match s.groupOf n k with
  | some g => glideTicks (s.fld (Fd.TIME_GRP_SNOW_TICKS g))
  | none => 48

/-- L of R105 for TICKS `t`. -/
def State.framesIn (s : State) (n : Fin 32) (t : Nat) : Nat := ceilDiv (t * s.sapHz n) s.fc

/-- The cushion of a member in frames (R107). -/
def State.cushCap (s : State) (g : Fin 8) (n : Fin 32) : Nat := s.grpD g n + 2 * s.blockFrames n

/-- The granules that a member needs (R107). -/
def State.cushNeed (s : State) (g : Fin 8) (n : Fin 32) : Nat := ceilDiv (s.cushCap g n) 32

/-- The granules that a group holds for a member line (R108). -/
def Grp.held (q : Grp) (i : Nat) : List Nat := ((q.parts.find? (·.1 == i)).map (·.2)).getD []

/-- Why the configuration of a group is invalid (R105): 0 MEMBER_INVALID, 1 DELAY_SHORT; every cause that holds. -/
def State.grpFaults (s : State) (g : Fin 8) : List Nat :=
  let ls := s.grpLines g
  let member := ls.isEmpty || 16 < ls.length
      || ls.any (fun i => s.dir (lineOf i).1 (lineOf i).2 != 1)
      || (List.finRange 8).any (fun h => h != g && s.grps[h].on && ls.any fun i => (s.grpLines h).contains i)
  let short := ls.any fun i => s.grpD g (lineOf i).1
      < s.blockFrames (lineOf i).1 + s.framesIn (lineOf i).1 (glideTicks (s.fld (Fd.TIME_GRP_SNOW_TICKS g))) + 1
  (if member then [0] else []) ++ (if short then [1] else [])

/-- Error bits of a group are set. -/
def State.grpErrs (s : State) (g : Fin 8) (bits : List Nat) : State :=
  s.setReg (Adr.TIME_GRP_ERR g) (word (bits.foldl withBit (s.reg (Adr.TIME_GRP_ERR g)).toNat))

/-- Whether every granule of a list lies in an AMEM domain that is ON (01_architecture.md Table 1.9). -/
def State.granulesOn (s : State) (gs : List Nat) : Bool := gs.all fun g => s.domOn (Dm.AMEM (g / 1024))

/-- Whether a group runs its cushion for a member: the AMEM domains that hold it are ON (01_architecture.md Table 1.9). -/
def State.cushOn (s : State) (g : Fin 8) (n : Fin 32) (k : Fin 2) : Bool := s.granulesOn (s.grps[g].held (lineNo n k))

/-! ## FIFO and cushion (R65–R67, R107, R109) -/

/-- The 24-bit word that a sample leaves in the FIFO: sample bits [31:8]. -/
def word24 (v : Int) : Nat := unsigned 32 v / 256

/-- The bytes of a frame in a PACK3 or PACK4 image (R66). -/
def frameImage (pack4 : Bool) (a b : Sample) : List Byte :=
  if pack4 then bytesLE 4 (word24 a.v * 256 + a.tag.code) ++ bytesLE 4 (word24 b.v * 256 + b.tag.code)
  else bytesLE 3 (word24 a.v) ++ bytesLE 3 (word24 b.v)

/-- The sample of one image (R66); one read from a PACK3 image is VALID alone (R16). -/
def sampleImage (pack4 : Bool) (bs : List Byte) : Sample :=
  if pack4 then
    let w := ofBytesLE bs
    ⟨signed 32 (w / 256 * 256), Tag.ofCode w⟩
  else ⟨signed 32 (ofBytesLE bs * 256), Tag.genuine⟩

/-- The address of slot `j` of the FIFO of a line. -/
def State.fifoAddr (s : State) (n : Fin 32) (k : Fin 2) (j : Nat) : Nat :=
  s.fifoBase n k + j % s.fifoCap n * s.frameBytes n

/-- The address of slot `j` of the cushion of a member (R107: 32 frames of 8 bytes in a granule). -/
def State.cushAddr (s : State) (g : Fin 8) (n : Fin 32) (k : Fin 2) (j : Nat) : Nat :=
  let c := s.cushCap g n
  let i := j % c
  0x60000000 + ((s.grps[g].held (lineNo n k)).getD (i / 32) 0) * 256 + i % 32 * 8

/-- The frames that a line has in store: FIFO and cushion (R109). -/
abbrev SapLine.store (l : SapLine) : Nat := l.cush + l.fill

/-- Writes a frame at the end of the FIFO of a line. -/
def State.fifoPut (s : State) (n : Fin 32) (k : Fin 2) (a b : Sample) : State :=
  let l := s.line n k
  (s.setBytes (s.fifoAddr n k (l.head + l.fill)) (frameImage (s.pack4 n) a b)).updLine n k
    fun q => { q with fill := q.fill + 1 }

/-- The oldest frame in the FIFO of a line. -/
def State.fifoFront (s : State) (n : Fin 32) (k : Fin 2) : Sample × Sample :=
  let a := s.fifoAddr n k (s.line n k).head
  let h := s.frameBytes n / 2
  (sampleImage (s.pack4 n) (s.bytesAt a h), sampleImage (s.pack4 n) (s.bytesAt (a + h) h))

/-- The FIFO of a line without its oldest frame. -/
def State.fifoDrop (s : State) (n : Fin 32) (k : Fin 2) : State :=
  let c := s.fifoCap n
  s.updLine n k fun q => { q with head := (q.head + 1) % c, fill := q.fill - 1, made := q.made.tail }

/-- Moves the oldest frame of the FIFO to the end of the cushion. -/
def State.moveOne (s : State) (g : Fin 8) (n : Fin 32) (k : Fin 2) : State :=
  let (a, b) := s.fifoFront n k
  let l := s.line n k
  let t := (s.setBytes (s.cushAddr g n k (l.cushHead + l.cush)) (frameImage true a b)).fifoDrop n k
  t.updLine n k fun q => { q with cush := q.cush + 1, movable := q.movable - 1 }

/-- The oldest frame in store: from the cushion while it holds any, else from the FIFO. -/
def State.front (s : State) (n : Fin 32) (k : Fin 2) : Sample × Sample :=
  let l := s.line n k
  match s.groupOf n k with
  | some g =>
    if l.cush = 0 then s.fifoFront n k
    else
      let a := s.cushAddr g n k l.cushHead
      (sampleImage true (s.bytesAt a 4), sampleImage true (s.bytesAt (a + 4) 4))
  | none => s.fifoFront n k

/-- The runs of blocks without their first frame. -/
def Seg.dropOne : List Seg → List Seg
  | [] => []
  | g :: l =>
    if g.left = 0 then Seg.dropOne l
    else if g.left = 1 ∧ l ≠ [] then l else { g with used := g.used + 1, left := g.left - 1 } :: l

/-- The store without its oldest frame. -/
def State.dropFront (s : State) (n : Fin 32) (k : Fin 2) : State :=
  let l := s.line n k
  let t := match s.groupOf n k with
    | some g =>
      if l.cush = 0 then (s.fifoDrop n k).updLine n k fun q => { q with movable := q.movable - 1 }
      else
        let c := s.cushCap g n
        s.updLine n k fun q => { q with cushHead := (q.cushHead + 1) % c, cush := q.cush - 1 }
    | none => s.fifoDrop n k
  t.updLine n k fun q => { q with segs := Seg.dropOne q.segs }

/-- The store without its `j` oldest frames. -/
def State.dropFronts (s : State) (n : Fin 32) (k : Fin 2) : Nat → State
  | 0 => s
  | j + 1 => (s.dropFront n k).dropFronts n k j

/-- Puts a frame back before the oldest one in the FIFO. -/
def State.fifoBack (s : State) (n : Fin 32) (k : Fin 2) (a b : Sample) : State :=
  let c := s.fifoCap n
  let h := ((s.line n k).head + c - 1) % c
  (s.setBytes (s.fifoAddr n k h) (frameImage (s.pack4 n) a b)).updLine n k fun q => { q with head := h, fill := q.fill + 1 }

/-- Puts a frame back before the oldest one in store. -/
def State.pushFront (s : State) (n : Fin 32) (k : Fin 2) (a b : Sample) : State :=
  match s.groupOf n k with
  | some g =>
    if s.cushOn g n k then
      let c := s.cushCap g n
      let h := ((s.line n k).cushHead + c - 1) % c
      (s.setBytes (s.cushAddr g n k h) (frameImage true a b)).updLine n k fun q => { q with cushHead := h, cush := q.cush + 1 }
    else s.fifoBack n k a b
  | none => s.fifoBack n k a b

/-- Whether a member's cushion takes another frame. -/
def State.cushTakes (s : State) (g : Fin 8) (n : Fin 32) (k : Fin 2) : Bool :=
  s.cushOn g n k && decide ((s.line n k).cush < s.cushCap g n)

/-- Whether the store of a line is full: the FIFO, and for a group member the cushion as well (R121). -/
def State.storeFull (s : State) (n : Fin 32) (k : Fin 2) : Bool :=
  s.fifoCap n ≤ (s.line n k).fill && (match s.groupOf n k with
    | some g => !s.cushTakes g n k
    | none => true)

/-- The `j` oldest frames in store, oldest first. -/
def State.fronts (s : State) (n : Fin 32) (k : Fin 2) : Nat → List (Sample × Sample)
  | 0 => []
  | j + 1 => s.front n k :: (s.dropFront n k).fronts n k j

/-- The first `j` frames of runs of blocks. -/
def Seg.upTo : List Seg → Nat → List Seg
  | [], _ => []
  | g :: l, j => if j = 0 then [] else if j ≤ g.left then [{ g with left := j }] else g :: Seg.upTo l (j - g.left)

/-- The splice of R121: the 8 oldest frames stay and fade out, the block after them is dropped, the next 8 fade in. -/
def State.splice (s : State) (n : Fin 32) (k : Fin 2) : State :=
  let b := s.blockFrames n
  let keep := s.fronts n k 8
  let l := s.line n k
  let t := s.dropFronts n k (8 + b)
  let u := keep.reverse.foldl (fun x f => x.pushFront n k f.1 f.2) t
  let v := u.updLine n k fun q =>
    { q with segs := Seg.upTo l.segs 8 ++ q.segs, made := l.made.take 8 ++ q.made, dropped := q.dropped + b, splice := .out 8,
             spliceRec := true }
  match s.groupOf n k with
  | some g => v.raiseGrp g.val GrpEv.SPLICE
  | none => v

/-! ## Zero-crossing switching (R75–R78) -/

/-- Whether a channel has been asked to switch and has not switched. -/
def ChSwitch.moves : ChSwitch → Bool
  | .waitIn _ | .waitOut _ | .glideIn _ | .glideOut _ => true
  | .silent | .opened => false

/-- Whether channel `c` of a port that starts still waits for its start switch: its line does not yet deliver, and MUTE does not keep
it muted (R78, R79). -/
def State.startWaits (s : State) (n : Fin 32) (c : Fin 4) : Bool :=
  let k := Fin.ofNat 2 (c.val / 2)
  let l := s.line n k
  let due := s.sapState n == .starting || s.sapState n == .running
  due && !bitOf (s.fld (Fd.SAP_CTRL_MUTE n)) c.val
    && ((s.dir n k == 1 && !l.delivering) || (s.dir n k == 2 && !l.live)) && s.saps[n].chans[c].sw == .silent

/-- Sets MUTED and ZC_PEND of a port from its channels, and raises ZC_DONE when every channel of a request has switched (R77); a
channel in its fallback glide counts as waiting, and MUTED reads 0 while STOPPED (DESIGN CHOICE, notes/assumptions/83.md). -/
def State.syncZc (s : State) (n : Fin 32) : State :=
  let p := s.saps[n]
  let used (c : Fin 4) : Bool := s.dir n (Fin.ofNat 2 (c.val / 2)) != 0 && s.sapState n != .stopped
  let muted := ((List.finRange 4).map fun c => if used c && p.chans[c].sw == .silent then 2 ^ c.val else 0).sum
  let pend := ((List.finRange 4).map fun c => if p.chans[c].sw.moves then 2 ^ c.val else 0).sum
  let t := (s.setFld (Fd.SAP_STATE_MUTED n) muted).setFld (Fd.SAP_STATE_ZC_PEND n) pend
  if p.zcBusy && pend = 0 && !(List.finRange 4).any (s.startWaits n) then
    (t.updSap n fun q => { q with zcBusy := false }).raise (sapPage n) SapEv.ZC_DONE
  else t

/-- The gain of a rising 32-tick glide with `left` ticks to go (R76). -/
def riseGain (left : Nat) : Gain := Gain.between .mute (.db 0 1) (32 - left) 32
/-- The gain of a falling 32-tick glide. -/
def fallGain (left : Nat) : Gain := Gain.between (.db 0 1) .mute (32 - left) 32

/-- Whether a channel finds a zero crossing at a sample: a change of sign from the sample before, or a magnitude below the threshold;
0 lies below every threshold (R75, R77). -/
def crossing (thresh : Nat) (c : SapChan) (x : Sample) : Bool :=
  x.v == 0 || (c.seen && ((c.prev < 0) != (x.v < 0)))
    || decide ((x.v.natAbs : Int) < levelCode (-(128 * thresh : Nat)) 1)

/-- A channel given the next sample of its stream: what it passes on, and the channel after it (Table 3.5). -/
def SapChan.pass (thresh : Nat) (c : SapChan) (x : Sample) : Sample × SapChan :=
  let after : SapChan := { c with prev := x.v, seen := true }
  let glideTag : Tag := { x.tag with valid := true, settling := true }
  match c.sw with
  | .silent => (Sample.silence, after)
  | .opened => (x, after)
  | .waitIn _ => if crossing thresh c x then (x, { after with sw := .opened }) else (Sample.silence, after)
  | .waitOut _ => if crossing thresh c x then (Sample.silence, { after with sw := .silent }) else (x, after)
  | .glideIn l => (⟨fadeCode (riseGain l) x.v, glideTag⟩, after)
  | .glideOut l => (⟨fadeCode (fallGain l) x.v, glideTag⟩, after)

/-- A channel after one more tick: waits grow and fallback glides run. -/
def SapChan.tick (c : SapChan) : SapChan :=
  match c.sw with
  | .waitIn w => { c with sw := .waitIn (w + 1) }
  | .waitOut w => { c with sw := .waitOut (w + 1) }
  | .glideIn l => { c with sw := .glideIn (l - 1) }
  | .glideOut l => { c with sw := .glideOut (l - 1) }
  | .silent | .opened => c

/-- Passes a frame of a line through its two channels. -/
def State.passLine (s : State) (n : Fin 32) (k : Fin 2) (a b : Sample) : Sample × Sample × State :=
  let th := s.fld (Fd.SAP_ZC_THRESH n)
  let ra := s.saps[n].chans[chanNo k 0].pass th a
  let rb := s.saps[n].chans[chanNo k 1].pass th b
  (ra.1, rb.1, (s.updChan n (chanNo k 0) fun _ => ra.2).updChan n (chanNo k 1) fun _ => rb.2)

/-- Asks a channel to switch in or out (R78): one that has switched waits for a new crossing; a request that still waits is replaced, so
that the channel stays as it was; a fallback glide turns back from its level (DESIGN CHOICE, notes/assumptions/83.md). -/
def SapChan.ask (c : SapChan) (on : Bool) : SapChan :=
  match c.sw, on with
  | .silent, true => { c with sw := .waitIn 0 }
  | .waitOut _, true => { c with sw := .opened }
  | .glideOut l, true => { c with sw := .glideIn (32 - l) }
  | .opened, false => { c with sw := .waitOut 0 }
  | .waitIn _, false => { c with sw := .silent }
  | .glideIn l, false => { c with sw := .glideOut (32 - l) }
  | .silent, false | .waitIn _, true | .glideIn _, true | .opened, true | .waitOut _, false | .glideOut _, false => c

/-! ## Underrun and overrun episodes (R82) -/

/-- An underrun of a line: its event once per episode. -/
def State.underrun (s : State) (n : Fin 32) (k : Fin 2) : State :=
  if (s.line n k).underEp then s
  else (s.updLine n k fun q => { q with underEp := true }).raise (sapPage n) SapEv.UNDERRUN

/-- An overrun of a line: its event once per episode, and the splice (R121). -/
def State.overrun (s : State) (n : Fin 32) (k : Fin 2) : State :=
  let t := if (s.line n k).overEp then s
    else (s.updLine n k fun q => { q with overEp := true }).raise (sapPage n) SapEv.OVERRUN
  t.splice n k

/-- Ends the episodes of a line whose FIFO holds one block again: an underrun's once it has risen to one, an overrun's once it has
fallen to one (R82) (DEDUCED, notes/assumptions/87.md). -/
def State.endEpisodes (s : State) (n : Fin 32) (k : Fin 2) : State :=
  let b := s.blockFrames n
  s.updLine n k fun q =>
    { q with underEp := q.underEp && q.store < b, overEp := q.overEp && b < q.store }

/-! ## The snowplough (R113–R119) -/

/-- Begins the snowplough of one line from its present level (R115, R119). -/
def State.beginSnow (s : State) (n : Fin 32) (k : Fin 2) : State :=
  let ticks := s.snowTicks n k
  s.updLine n k fun q => { q with snow := .fade ticks, level := q.level.aim .mute ticks }

/-- Whether a line's snowplough may begin: it delivers and is neither fading nor silent. -/
def SapLine.plays (l : SapLine) : Bool :=
  l.delivering && (match l.snow with
    | .none | .glide _ => true
    | .fade _ | .silent | .waitPos => false)

/-- What the snowplough of a LOCKSTEP group does to a member: one that plays fades, one that waits for its position is silent again
(R117). -/
def State.snowMember (s : State) (n : Fin 32) (k : Fin 2) : State :=
  if (s.line n k).plays then s.beginSnow n k
  else if (s.line n k).snow = .waitPos then s.updLine n k fun q => { q with snow := .silent }
  else s

/-- Begins the snowplough of a line, with its event; under LOCKSTEP every RUNNING member past its anchor fades in the
same tick (R114, R117). -/
def State.startSnow (s : State) (n : Fin 32) (k : Fin 2) : State :=
  let t := s.beginSnow n k
  match s.groupOf n k with
  | none => t
  | some g =>
    let u :=
      if s.flag (Fd.TIME_GRP_CTRL_POLICY g) && s.sapState n == .running then
        let v := (s.grpLines g).foldl (fun x i =>
          let (m, j) := lineOf i
          if x.sapState m == .running then x.snowMember m j else x) t
        { v with grps := v.grps.set g { v.grps[g] with silent := true } }
      else t
    u.raiseGrp g.val GrpEv.SNOW_START

/-! ## Timeline positions (R111) -/

/-- The average frame period of a line in SYSCNT counts as a fraction: as its monitor measures it, or from the PLL for a master. -/
def State.framePeriod (s : State) (n : Fin 32) (k : Fin 2) : Int × Int :=
  let off : Int := if s.lineFollows n k then 10 * s.sfld (Fd.CLK_MON_STAT_OFFSET_PPM (s.lineMon n)) else s.sfld Fd.CLK_PLL_STAT_FREQ_OFFSET
  (98304000 * 10000000, (s.lineHz n k : Int) * (10000000 + off))

/-- The quotient nearest to `a / b`. -/
abbrev nearest (a b : Int) : Int := (2 * a + b) / (2 * b)

/-- The units of a position that make one frame. -/
abbrev posUnit : Int := 65536

/-- The timeline position of a block stamped `stamp`, in units: the periods from the newest block's stamp to it, a whole block of them
where the frames came without a break (R111; DEDUCED, notes/assumptions/84.md). -/
def State.position (s : State) (n : Fin 32) (k : Fin 2) (stamp : Nat) : Int :=
  let (pn, pd) := s.framePeriod n k
  let l := s.line n k
  let gap := nearest (((stamp : Int) - l.blockStamp) * pd * posUnit) pn
  let block := s.blockFrames n * posUnit
  if l.anchored then l.blockPos + (if 2 * (gap - block).natAbs < posUnit then block else gap) else 0

/-- The position of frame `j` of the block of a run: between the stamps of the block and the next one, or one period after another where
there is no next one; rounded once, to the nearest (R111). -/
def Seg.framePos (g : Seg) (b j : Nat) : Int :=
  match g.span with
  | some d => nearest (g.pos * b + d * j) (b * posUnit)
  | none => nearest (g.pos + j * posUnit) posUnit

/-- The position of the oldest frame in store. -/
def State.headPos (s : State) (n : Fin 32) (k : Fin 2) : Int :=
  match (s.line n k).segs.find? (·.left != 0) with
  | some g => g.framePos (s.blockFrames n) g.used
  | none => (s.line n k).nextPos

/-- The position of the newest frame in store. -/
def State.tailPos (s : State) (n : Fin 32) (k : Fin 2) : Int :=
  match (s.line n k).segs.getLast? with
  | some g => g.framePos (s.blockFrames n) (g.used + g.left - 1)
  | none => (s.line n k).nextPos

/-! ## Presentation of input frames -/

/-- Puts what a line presents into its two source nodes. -/
def State.putSrc (s : State) (n : Fin 32) (k : Fin 2) (a b : Sample) : State :=
  let i := 4 * n.val + 2 * k.val
  { s with portSrc := upd (upd s.portSrc i fun _ => a) (i + 1) fun _ => b }

/-- Counts a frame that leaves without having been in the FIFO (R83). -/
def State.countInserted (s : State) (n : Fin 32) (k : Fin 2) : State :=
  s.updLine n k fun q => { q with fout := q.fout + 1, inserted := q.inserted + 1 }

/-- An inserted silent frame. -/
def State.insertSilence (s : State) (n : Fin 32) (k : Fin 2) : State :=
  (s.countInserted n k).putSrc n k Sample.silence Sample.silence

/-- A fade tail frame: the last presented samples held under the fade (R115). -/
def State.insertTail (s : State) (n : Fin 32) (k : Fin 2) : State :=
  let l := s.line n k
  (s.countInserted n k).putSrc n k ⟨fadeCode l.level.now l.lastA.v, Tag.made⟩ ⟨fadeCode l.level.now l.lastB.v, Tag.made⟩

/-- The gain and the mark of a splice on the next frame, and the splice after it (R121). -/
def Splice.next : Splice → Gain × Bool × Splice
  | .none => (.db 0 1, false, .none)
  | .out l => (Gain.between (.db 0 1) .mute (8 - l) 8, true, if l ≤ 1 then .into 8 else .out (l - 1))
  | .into l => (Gain.between .mute (.db 0 1) (8 - l) 8, true, if l ≤ 1 then .none else .into (l - 1))

/-- Takes the oldest frame of a line through the switches and its splice; what it presents before any fade. -/
def State.takeFrame (s : State) (n : Fin 32) (k : Fin 2) : Sample × Sample × State :=
  let (a, b) := s.front n k
  let (pa, pb, t) := (s.dropFront n k).passLine n k a b
  let (g, mark, nx) := (s.line n k).splice.next
  let cut (x : Sample) : Sample :=
    if mark then ⟨fadeCode g x.v, { x.tag with valid := true, settling := true }⟩ else x
  let endOut : Bool := match (s.line n k).splice, nx with
    | .out _, .into _ => true
    | _, _ => false
  let b := s.blockFrames n
  let p := s.framePeriod n k
  (cut pa, cut pb, t.updLine n k fun q =>
    { q with fout := q.fout + 1, splice := nx, lastA := cut pa, lastB := cut pb,
             nextPos := if endOut then q.nextPos + b else q.nextPos,
             anchorTick := if endOut then q.anchorTick - b else q.anchorTick,
             anchorSys := if endOut then q.anchorSys - b * p.1 / p.2 else q.anchorSys })

/-- Presents the oldest frame under the fade of its line, adding tag bits. -/
def State.present (s : State) (n : Fin 32) (k : Fin 2) (mark : Tag → Tag) : State :=
  let (a, b, t) := s.takeFrame n k
  let g := (s.line n k).level.now
  t.putSrc n k ⟨fadeCode g a.v, mark a.tag⟩ ⟨fadeCode g b.v, mark b.tag⟩

/-- The tag of a snowplough sample from the cushion: VALID kept, SYNTH added (R115), U, C and BLOCKSTART clear
(04_aes3_ports.md Table 4.4). -/
def Tag.faded (t : Tag) : Tag := { t with synth := true, u := false, c := false, blockStart := false }

/-- The tag of a sample of a glide back in (R118). -/
def Tag.returning (t : Tag) : Tag := { t with settling := true, valid := true }

/-- Whether the LOCKSTEP group of a line is silent as a whole (R117). -/
def State.lockSilent (s : State) (n : Fin 32) (k : Fin 2) : Bool := (s.groupOf n k).any fun g => s.grps[g].silent

/-- The frame due at a silent member: a LOCKSTEP member removes the one it holds (R117); every one is silence. -/
def State.silentDue (s : State) (n : Fin 32) (k : Fin 2) : State :=
  let l := s.line n k
  if l.store = 0 then (s.insertSilence n k).underrun n k
  else if s.lockSilent n k && s.headPos n k ≤ l.nextPos then
    let u := ((s.dropFront n k).insertSilence n k).updLine n k fun q => { q with dropped := q.dropped + 1, lateRec := true }
    match s.groupOf n k with
    | some g => (u.countSat (Fd.TIME_GRP_LATE_CNT_COUNT g) 1).raiseGrp g.val GrpEv.LATE_DROP
    | none => u
  else s.insertSilence n k

/-- The frame due at a line that plays: the oldest one in store under the tag `mark`; silence while its position lies ahead; the
snowplough where there is none (R111, R114; DEDUCED, notes/assumptions/84.md). -/
def State.playDue (s : State) (n : Fin 32) (k : Fin 2) (mark : Tag → Tag) : State :=
  let l := s.line n k
  if l.store = 0 then
    let u := (s.startSnow n k).underrun n k
    (u.updLine n k fun q => { q with level := q.level.step }).insertTail n k
  else if l.nextPos < s.headPos n k then s.insertSilence n k
  else s.present n k mark

/-- What falls due at the next position of a delivering input line (R110–R118). -/
def State.presentDue (s : State) (n : Fin 32) (k : Fin 2) : State :=
  let l := s.line n k
  let t := match l.snow with
    | .silent => s.silentDue n k
    | .waitPos =>
      if s.lockSilent n k then
        (if l.store = 0 then s.updLine n k fun q => { q with snow := .silent } else s).silentDue n k
      else if l.store ≠ 0 ∧ s.headPos n k ≤ l.nextPos then
        let ticks := s.snowTicks n k
        let u := s.updLine n k fun q =>
          { q with snow := .glide ticks, level := (q.level.aim (.db 0 1) ticks).step }
        u.present n k Tag.returning
      else s.insertSilence n k
    | .fade left =>
      if left = 0 then s.silentDue n k
      else if l.store = 0 then (s.insertTail n k).underrun n k
      else if l.nextPos < s.headPos n k then s.insertTail n k
      else s.present n k Tag.faded
    | .none => s.playDue n k id
    | .glide left => s.playDue n k fun g => if left = 0 then g else g.returning
  t.updLine n k fun q => { q with nextPos := q.nextPos + 1 }

/-- Presents what falls due at `j` positions. -/
def State.presentMany (s : State) (n : Fin 32) (k : Fin 2) : Nat → State
  | 0 => s
  | j + 1 => (s.presentDue n k).presentMany n k j

/-- The frames that pass in one tick at the port's rate, and the state with the remainder kept. -/
def State.framesDue (s : State) (n : Fin 32) (k : Fin 2) : Nat × State :=
  if s.atFc n k then (1, s)
  else
    let a := (s.line n k).acc + s.lineHz n k
    (a / s.fc, s.updLine n k fun q => { q with acc := a % s.fc })

/-- The positions that fall due in this tick on a delivering input line: one at rate Fc (R111), else those whose time
TA + n × P has come. -/
def State.positionsDue (s : State) (n : Fin 32) (k : Fin 2) : Nat :=
  if s.atFc n k then 1
  else
    let (pn, pd) := s.framePeriod n k
    let l := s.line n k
    (((s.boundary : Int) - l.anchorSys) * pd / pn + 1 - l.nextPos).toNat

/-- A fade or a glide back in after one more tick. -/
def SapLine.stepFade (l : SapLine) : SapLine :=
  match l.snow with
  | .fade left => if left = 0 then l else { l with level := l.level.step, snow := .fade left }
  | .glide _ => { l with level := l.level.step }
  | .none | .silent | .waitPos => l

/-- The ticks left of a fade or a glide after the tick's presentation. -/
def SapLine.countFade (l : SapLine) : SapLine :=
  match l.snow with
  | .fade _ => { l with snow := .fade l.level.left }
  | .glide _ => { l with snow := .glide l.level.left }
  | .none | .silent | .waitPos => l

/-- Whether both channels of a line are silent. -/
def State.lineSilent (s : State) (n : Fin 32) (k : Fin 2) : Bool :=
  s.saps[n].chans[chanNo k 0].sw == .silent && s.saps[n].chans[chanNo k 1].sw == .silent

/-- Whether every input channel of a port is silent. -/
def State.inputsSilent (s : State) (n : Fin 32) : Bool := (List.finRange 2).all fun k => s.dir n k != 1 || s.lineSilent n k

/-- Whether the input frames of a port are discarded: it is HELD, or STOPPING with every input channel switched (R64, R80). -/
def State.inputShut (s : State) (n : Fin 32) : Bool :=
  s.sapState n == .held || (s.sapState n == .stopping && s.inputsSilent n)

/-- Whether an input line takes part in this tick: its transfer runs and its first tick has passed. -/
def State.lineRuns (s : State) (n : Fin 32) (k : Fin 2) : Bool :=
  (match s.sapState n with
    | .starting | .running | .stopping => true
    | .stopped | .held | .pdm => false) && (s.line n k).live && decide ((s.line n k).startTick < s.ticks)

/-- Before the lines present: the first tick of a timeline is this one, and a line that cannot give every frame due in this tick
begins its snowplough, with the members of a LOCKSTEP group, before any of them presents (R111, R114, R117). -/
def State.readyInput (s : State) (n : Fin 32) (k : Fin 2) : State :=
  if s.lineRuns n k && (s.line n k).delivering && !s.inputShut n then
    let t := if (s.line n k).nextPos = 0 then s.updLine n k fun q => { q with anchorSys := s.boundary } else s
    if (t.line n k).plays && decide ((t.line n k).store < t.positionsDue n k) then t.startSnow n k else t
  else s

/-- Silent frames take the place of those that are not delivered, as many as pass in a tick. -/
def State.insertMany (s : State) (n : Fin 32) (k : Fin 2) : State :=
  let (d, t) := s.framesDue n k
  (List.range d).foldl (fun u _ => u.insertSilence n k) (t.putSrc n k Sample.silence Sample.silence)

/-- What is in store is dropped and counted (R78, R80). -/
def State.dropStore (s : State) (n : Fin 32) (k : Fin 2) : State :=
  s.updLine n k fun q => { q with dropped := q.dropped + q.store, fill := 0, cush := 0, segs := [], movable := 0, made := [] }

/-- One tick of the fabric side of an input line (R79, R80, R104–R118). -/
def State.tickInput (s : State) (n : Fin 32) (k : Fin 2) : State :=
  match s.sapState n with
  | .stopped | .pdm => s.putSrc n k Sample.zero Sample.zero
  | .held => s.insertMany n k
  | .starting | .running | .stopping =>
    if !s.lineRuns n k then s.putSrc n k Sample.silence Sample.silence
    else if s.inputShut n then (s.dropStore n k).insertMany n k
    else if !(s.line n k).delivering then s.insertMany n k
    else
      let t := s.updLine n k SapLine.stepFade
      ((t.presentMany n k (t.positionsDue n k)).updLine n k SapLine.countFade).endEpisodes n k

/-! ## Output lines (R79, R80, R120) -/

/-- Whether the transmitter of a port sends zero words in HELD: the lines of a word-select follower (R64).  The transmitter of an
AES3 port is silent only while it has no clock (04_aes3_ports.md R92; DEDUCED, notes/assumptions/84.md). -/
def State.txHeld (s : State) (n : Fin 32) : Bool := s.sapState n == .held && !s.isAes n

/-- Whether a channel's sample is silence that the port makes. -/
def ChSwitch.quiet : ChSwitch → Bool
  | .silent | .waitIn _ => true
  | .opened | .waitOut _ | .glideIn _ | .glideOut _ => false

/-- One frame that the sinks of an output line deliver: into the FIFO, or discarded and counted. -/
def State.sinkFrame (s : State) (n : Fin 32) (k : Fin 2) : State :=
  let i := 4 * n.val + 2 * k.val
  let (a, b, t) := s.passLine n k (at_ s.portSink i Sample.zero) (at_ s.portSink (i + 1) Sample.zero)
  let u := t.updLine n k fun q => { q with fin := q.fin + 1 }
  if s.txHeld n || !s.txClock n then u.updLine n k fun q => { q with dropped := q.dropped + 1 }
  else
    let v := if u.fifoCap n ≤ (u.line n k).fill then u.overrun n k else u
    let p := v.saps[n]
    (v.fifoPut n k a b).updLine n k fun q =>
      { q with made := q.made ++ [(p.chans[chanNo k 0].sw.quiet, p.chans[chanNo k 1].sw.quiet)] }

/-- One tick of the fabric side of an output line. -/
def State.tickOutput (s : State) (n : Fin 32) (k : Fin 2) : State :=
  let l := s.line n k
  match s.sapState n with
  | .stopped | .pdm => s
  | .starting | .running | .stopping | .held =>
    if !l.live || s.ticks ≤ l.startTick then s
    else
      let s1 := s.updLine n k fun q => q.countFade.stepFade
      if s.sapState n == .stopping && s.lineSilent n k then s1
      else
        let (d, t) := s1.framesDue n k
        (List.range d).foldl (fun u _ => u.sinkFrame n k) t

/-- An underrun output line that holds one block again glides back in (R120). -/
def State.outputRejoin (s : State) (n : Fin 32) (k : Fin 2) : State :=
  let l := s.line n k
  let ended : Bool := match l.snow with
    | .silent => true
    | .fade left => left == 0
    | .none | .waitPos | .glide _ => false
  if ended && s.blockFrames n ≤ l.fill then
    s.updLine n k fun q => { q with snow := .glide 48, level := (q.level.aim (.db 0 1) 48).step }
  else s

/-! ## Blocks and stamps (R69, R110, R112) -/

/-- Whether a line is the first in use, whose blocks the port registers count (R69: both lines share frame boundaries)
(DESIGN CHOICE, notes/assumptions/83.md). -/
def State.leads (s : State) (n : Fin 32) (k : Fin 2) : Bool := k == 0 || s.dir n 0 == 0

/-- Stamps the first frame of a block of a line with SYSCNT. -/
def State.stampBlock (s : State) (n : Fin 32) (k : Fin 2) : State :=
  if s.leads n k then s.updSap n fun p => { p with stampNow := s.edgeSys n k, blocks := (p.blocks + 1) % 2 ^ 32 } else s

/-- Whether a line is silent and holds one block again (R118). -/
def State.canRejoin (s : State) (n : Fin 32) (k : Fin 2) : Bool :=
  let l := s.line n k
  s.dir n k == 1 && l.delivering && l.snow == .silent && s.blockFrames n ≤ l.store

/-- Whether a rejoin of a line is a new anchor: its port met RATE_CHANGE, or every frame it holds has been passed (R118). -/
def State.mustReanchor (s : State) (n : Fin 32) (k : Fin 2) : Bool :=
  (s.line n k).ratePend || decide (s.tailPos n k < (s.line n k).nextPos)

/-- What the block that completes now lets a silent line do on its own: rejoin, or with true re-anchor (R118). -/
def State.backBlock (s : State) (n : Fin 32) (k : Fin 2) : Option Bool :=
  if s.canRejoin n k && !s.lockSilent n k then some (s.mustReanchor n k) else none

/-- The timestamp record of a completed block (Table 5.1); REJOIN and REANCHOR stand in the record of the block that lets a silent
line rejoin, else in the next one, and LATE in the next record after the frames were dropped (DEDUCED, notes/assumptions/84.md). -/
def State.tsRecord (s : State) (g : Fin 8) (n : Fin 32) (k : Fin 2) (stamp : Nat) (coarse : Bool) : List Byte :=
  let l := s.line n k
  let snow : Bool := match l.snow with
    | .fade _ | .silent | .waitPos => true
    | .none | .glide _ => false
  let back := s.backBlock n k
  let flags := bit coarse + 2 * bit snow + 4 * bit (l.rejoinRec || back == some false)
    + 8 * bit (l.reanchorRec || back == some true) + 16 * bit l.spliceRec + 32 * bit l.lateRec
  bytesLE 8 stamp ++ bytesLE 4 s.saps[n].blocks ++ [BitVec.ofNat 8 (s.memberIndex g (lineNo n k) % 16)]
    ++ [BitVec.ofNat 8 flags] ++ bytesLE 2 (min l.store 65535)

/-- A block of a member is complete: its timestamp record, or its loss (R112). -/
def State.writeTs (s : State) (g : Fin 8) (n : Fin 32) (k : Fin 2) (stamp : Nat) (coarse : Bool) : State :=
  if s.flag (Fd.TIME_GRP_CTRL_TS_EN g) then
    let r := s.ring (12 + g.val)
    let t := if !r.enable || r.fill = r.size then s.countSat (Fd.TIME_GRP_TS_LOST_COUNT g) 1 else s
    (t.ringPut (12 + g.val) fun _ => s.tsRecord g n k stamp coarse).updLine n k
      fun q => { q with rejoinRec := false, reanchorRec := false, spliceRec := false, lateRec := false, backRec := s.backBlock n k }
  else s

/-- A completed block of an input line: it may move to the cushion at the end of the tick; the first one fixes the
anchor (R110) and makes the port RUNNING (Table 3.6). -/
def State.blockDone (s : State) (n : Fin 32) (k : Fin 2) : State :=
  let l := s.line n k
  let (stamp, coarse) := match l.segs.getLast? with
    | some g => (g.stamp, g.coarse)
    | none => (s.syscnt, s.coarse)
  let b := s.blockFrames n
  let t := s.updLine n k fun q =>
    { q with partialFrames := 0, movable := q.movable + b,
             anchored := true, anchorStamp := if q.anchored then q.anchorStamp else stamp }
  let u := match s.groupOf n k with
    | none => t
    | some g =>
      let v := if l.anchored then t else t.raiseGrp g.val GrpEv.ANCHORED
      v.writeTs g n k stamp coarse
  if u.sapState n == .starting then (u.setSapState n .running).raise (sapPage n) SapEv.STARTED else u

/-- The runs of a line with a further frame: the first of a block stamped `stamp` at position `pos`, or one more of the newest. -/
def Seg.add (l : List Seg) (first : Bool) (stamp : Nat) (coarse : Bool) (pos : Int) : List Seg :=
  match first, l.getLast? with
  | true, some g => ((l.dropLast ++ [{ g with span := some (pos - g.pos) }]).filter (·.left != 0)) ++ [⟨stamp, coarse, 0, 1, pos, none⟩]
  | false, some g => l.dropLast ++ [{ g with left := g.left + 1 }]
  | _, none => [⟨stamp, coarse, 0, 1, pos, none⟩]

/-- A frame enters the store of an input line (R69, R82, R121). -/
def State.enter (s : State) (n : Fin 32) (k : Fin 2) (a b : Sample) : State :=
  let s0 := s.updLine n k fun q => { q with fin := q.fin + 1, starved := false }
  let sp := if s0.storeFull n k then s0.overrun n k else s0
  let s1 := match sp.groupOf n k with
    | some g => if sp.fifoCap n ≤ (sp.line n k).fill then sp.moveOne g n k else sp
    | none => sp
  let first := (s1.line n k).partialFrames == 0
  let stamp := s.edgeSys n k
  let pos := if first then s1.position n k stamp else (s1.line n k).blockPos
  let s2 := if first then s1.stampBlock n k else s1
  let s3 := (s2.fifoPut n k a b).updLine n k fun q =>
    { q with partialFrames := q.partialFrames + 1, segs := Seg.add q.segs first stamp s.coarse pos,
             blockStamp := if first then stamp else q.blockStamp, blockPos := pos }
  let s4 := if (s3.line n k).partialFrames = s3.blockFrames n then s3.blockDone n k else s3
  s4.endEpisodes n k

/-- Moves completed blocks to the cushion at the end of the tick (R109). -/
def State.moveBlocks (s : State) (g : Fin 8) (n : Fin 32) (k : Fin 2) : Nat → State
  | 0 => s
  | j + 1 =>
    let l := s.line n k
    if l.movable = 0 || l.fill = 0 || !s.cushTakes g n k then s else (s.moveOne g n k).moveBlocks g n k j

/-- The end of a tick for an input line: blocks move, and a starved line at fill L or below begins its snowplough
(R109, R114). -/
def State.endInput (s : State) (n : Fin 32) (k : Fin 2) : State :=
  let t := match s.groupOf n k with
    | some g => s.moveBlocks g n k (s.line n k).movable
    | none => s
  let l := t.line n k
  if s.lineRuns n k && l.starved && l.plays && !s.inputShut n && l.store ≤ t.framesIn n (t.snowTicks n k) then t.startSnow n k else t

/-! ## Starting and stopping (R73, R78–R81, R90) -/

/-- Whether the configuration of a port is valid (R73, R90). -/
def State.sapValid (s : State) (n : Fin 32) : Bool :=
  let fmt := s.fld (Fd.SAP_FMT_FORMAT n)
  let rate := s.fld (Fd.SAP_CLKCFG_RATE n)
  let wordBits := [16, 20, 24, 32].getD (s.fld (Fd.SAP_FMT_WORD n)) 32
  let slotBits := [16, 24, 32].getD (s.fld (Fd.SAP_FMT_SLOT n)) 32
  let d0 := s.dir n 0
  let d1 := s.dir n 1
  (fmt = 3 || wordBits ≤ slotBits)
    && rateKnown rate
    && (!s.isMaster n || rate441 rate == s.flag Fd.CLK_CORE_FAMILY)
    && (fmt ≠ 3 || 24 ≤ n.val)
    && (d0 ≠ 0 || d1 ≠ 0)
    && 2 * s.blockFrames n ≤ s.fifoCap n
    && (fmt ≠ 3 || (d0 ≠ 2 && d1 ≠ 1 && s.pack4 n && 6 ≤ rate && rate ≤ 0x0E
        && !(!s.isMaster n && d1 = 2 && d0 = 0)))

/-- The groups that refuse the start of a port: those named in R106, or short of granules (R108).  Each comes with its error bits. -/
def State.groupRefusals (s : State) (n : Fin 32) : List (Fin 8 × List Nat) :=
  (List.finRange 8).filterMap fun g =>
    let mine := (s.grpLines g).filter fun i => (lineOf i).1 == n
    if !s.grps[g].on || mine.isEmpty then none
    else
      let short := mine.any fun i => (s.grps[g].held i).length < s.cushNeed g n
      let es := s.grpFaults g ++ (if short then [2] else [])
      if es.isEmpty then none else some (g, es)

/-- A line as it stands after a start. -/
def SapLine.fresh (l : SapLine) : SapLine :=
  { l with head := 0, fill := 0, cushHead := 0, cush := 0, segs := [], partialFrames := 0, movable := 0,
           anchored := false, delivering := false, live := false, nextPos := 0, acc := 0, snow := .none,
           level := Glide.at (.db 0 1), starved := false, ratePend := false, splice := .none,
           underEp := false, overEp := false, lastA := Sample.silence, lastB := Sample.silence,
           rxA := 0, rxB := 0, made := [],
           rejoinRec := false, reanchorRec := false, spliceRec := false, lateRec := false, backRec := none }

/-- Lines whose clock is present come to life: their tick T is this one (R79). -/
def State.wakeLines (s : State) (n : Fin 32) : State :=
  (List.finRange 2).foldl (fun t k =>
    let ok := if t.dir n k = 1 then t.rxClock n else t.dir n k == 2 && t.txClock n
    if ok && !(t.line n k).live && (!t.lineFollows n k || !t.sapDeaf n) then
      let v := t.updLine n k fun q => { q with live := true, startTick := t.ticks }
      if t.dir n k = 2 then
        (v.updChan n (chanNo k 0) fun c =>
            if bitOf (t.fld (Fd.SAP_CTRL_MUTE n)) (2 * k.val) then c else { c with sw := .waitIn 0 }).updChan n (chanNo k 1)
          fun c => if bitOf (t.fld (Fd.SAP_CTRL_MUTE n)) (2 * k.val + 1) then c else { c with sw := .waitIn 0 }
      else v
    else t) s

/-- The end of a tick for a port: a master that starts goes on once the PLL makes its clock (01_architecture.md R22); its lines, the waits and glides of its channels, and what their switches show
(R76, R77, R109, R114). -/
def State.portEnd (s : State) (n : Fin 32) : State :=
  match s.sapState n with
  | .stopped | .pdm => s
  | .starting | .running | .stopping | .held =>
    let a := if s.sapState n == .starting && s.isMaster n then s.wakeLines n else s
    let t := (List.finRange 2).foldl (fun (u : State) k => if u.dir n k = 1 then u.endInput n k else u) a
    (t.updSap n fun p => { p with chans := p.chans.map SapChan.tick }).syncZc n

/-- A follower that finds its clock at another nominal while STARTING (R79, R92). -/
def State.checkMismatch (s : State) (n : Fin 32) : State :=
  let m := s.lineMon n
  let follows := !s.isMaster n || (s.isAes n && s.dir n 0 == 1)
  if follows && s.sapState n == .starting && s.fld (Fd.CLK_MON_STAT_STATE m) == 2
      && s.fld (Fd.CLK_MON_STAT_NOMINAL m) != s.fld (Fd.SAP_CLKCFG_RATE n)
  then s.raise (sapPage n) SapEv.RATE_MISMATCH else s

/-- The AES3 transmitter and receiver as a start leaves them (R99). -/
def State.startAes (s : State) (n : Fin 32) : State :=
  if s.isAes n then
    let bytesOf (base : Nat) : List Byte := (List.range 6).flatMap fun i => bytesLE 4 (s.reg (base + 4 * i)).toNat
    let t := s.updSap n fun p => { p with aes := { p.aes with
      rxPos := none, rxA := [], rxB := [], okA := true, okB := true, txPos := 0, started := false,
      txA := bytesOf (pageAddr (sapPage n) 0x160), txB := bytesOf (pageAddr (sapPage n) 0x180), tagA := [], tagB := [],
      crcA := 0xFF, crcB := 0xFF, dLow := !s.txClock n,
      swapTick := if s.flag (Fd.SAP_AES_TX_CTRL_SWAP n) then some (p.aes.swapTick.getD s.ticks) else none } }
    t.setFld (Fd.SAP_AES_RX_STAT_BLOCKS n) 0
  else s

/-- Enters STARTING after the checks of R73 have passed (Table 3.6, tick T). -/
def State.enterStarting (s : State) (n : Fin 32) : State :=
  let t := s.updSap n fun p =>
    { p with lines := p.lines.map SapLine.fresh, chans := p.chans.map fun c => { c with sw := .silent, seen := false },
             zcBusy := true, stopping := false, runAfter := false, glitch := false, firstDone := false, blocks := 0,
             cut := false, lastRx := 0, lastTx := 0, clocksOn := s.isMaster n && !s.isAes n }
  (((t.setSapState n .starting).startAes n).wakeLines n).checkMismatch n |>.syncZc n

/-- RUN goes from 0 to 1 on a STOPPED port (R73, R79, R106, R108). -/
def State.startPort (s : State) (n : Fin 32) : State :=
  if !s.sapValid n then (s.setErr (sapPage n) 0).setFld (Fd.SAP_CTRL_RUN n) 0
  else match s.groupRefusals n with
    | [] => s.enterStarting n
    | es => es.foldl (fun t e => t.grpErrs e.1 e.2) ((s.setErr (sapPage n) 0).setFld (Fd.SAP_CTRL_RUN n) 0)

/-! ## Granules and held group configuration (R106–R108) -/

/-- The granules allocated to a group: those of its members, those reserved for an enable that is held, and those that return to free
at the end of this tick (R108). -/
def Grp.granules (q : Grp) : List Nat := q.parts.flatMap (·.2) ++ q.next.flatMap (·.2) ++ q.leaving

/-- The granules in use: cushions and delay lines. -/
def State.usedGranules (s : State) : List Nat := s.grps.toList.flatMap Grp.granules ++ s.dlines.flatMap (·.granules)

/-- The `k` lowest-numbered free granules from `i` on, searching at most `fuel` granules. -/
def freeGranulesFrom (used : List Nat) : Nat → Nat → Nat → List Nat
  | 0, _, _ => []
  | fuel + 1, i, k =>
    if k = 0 then []
    else if used.contains i then freeGranulesFrom used fuel (i + 1) k
    else i :: freeGranulesFrom used fuel (i + 1) (k - 1)

/-- The `k` lowest-numbered free granules (fewer where there are not so many) (DESIGN CHOICE, notes/assumptions/47.md). -/
def State.takeGranules (s : State) (k : Nat) : List Nat := freeGranulesFrom s.usedGranules 4096 0 k

/-- The granules that are free and not held for a transaction (16_rings_events_books.md R381). -/
def State.granFree (s : State) : Nat :=
  4096 - s.usedGranules.length - (s.txn.bibs.toList.map (·.reserved)).sum

/-- Whether an address is one of the five registers of group `g` that R106 holds. -/
def isGrpCfg (g : Nat) (a : Nat) : Bool :=
  a == Adr.TIME_GRP_CTRL g || a == Adr.TIME_GRP_MEMBERS_LO g || a == Adr.TIME_GRP_MEMBERS_HI g
    || a == Adr.TIME_GRP_DELAY g || a == Adr.TIME_GRP_SNOW g

/-- The address of a group register. -/
def grpRegAddr (g : Nat) : GrpReg → Nat
  | .ctrl => Adr.TIME_GRP_CTRL g
  | .membersLo => Adr.TIME_GRP_MEMBERS_LO g
  | .membersHi => Adr.TIME_GRP_MEMBERS_HI g
  | .delay => Adr.TIME_GRP_DELAY g
  | .snow => Adr.TIME_GRP_SNOW g

/-- `s` as it will be once the held writes of group `g` have applied. -/
abbrev State.grpAhead (s : State) (g : Fin 8) : State := s.applyHeld (isGrpCfg g)

/-- Whether an address is a configuration register of port `n` that R72 holds. -/
def isSapCfg (n : Nat) (a : Nat) : Bool :=
  a == Adr.SAP_FMT n || a == Adr.SAP_CLKCFG n || a == Adr.SAP_LINE n || a == Adr.SAP_ZC n || a == Adr.SAP_AES_CFG n

/-- The granules that each member of group `g` needs under its newest configuration and that of its port (R107). -/
def State.grpNeeds (s : State) (g : Fin 8) : List (Nat × Nat) :=
  let t := s.grpAhead g
  (t.grpLines g).map fun i => (i, (t.applyHeld (isSapCfg (lineOf i).1)).cushNeed g (lineOf i).1)

/-- The granules that an enable of group `g` needs in all. -/
def State.grpNeed (s : State) (g : Fin 8) : Nat := ((s.grpNeeds g).map (·.2)).sum

/-- Shares granules out to members in order. -/
def shareGranules : List (Nat × Nat) → List Nat → List (Nat × List Nat)
  | [], _ => []
  | (i, k) :: l, gs => (i, gs.take k) :: shareGranules l (gs.drop k)

/-- Reserves the granules of an enable (R108); what an earlier held enable had reserved returns to free at the end of the tick. -/
def State.reserveGrp (s : State) (g : Fin 8) : State :=
  let gs := s.takeGranules (s.grpNeed g)
  let q := s.grps[g]
  { s with grps := s.grps.set g { q with next := shareGranules (s.grpNeeds g) gs, leaving := q.leaving ++ q.next.flatMap (·.2) } }

/-- The granules of a group whose ENABLE = 1 applies: those reserved for it, in place of those it held (R108). -/
def Grp.enter (q : Grp) (on : Bool) : Grp :=
  if q.next.isEmpty then { q with on := on, silent := false }
  else { on := on, parts := q.next, next := [], leaving := q.leaving ++ q.parts.flatMap (·.2), silent := false }

/-- The granules of a group whose ENABLE = 0 applies return to free at the end of the tick (R108). -/
def Grp.leave (q : Grp) : Grp :=
  { on := false, parts := [], next := [], leaving := q.leaving ++ q.parts.flatMap (·.2) ++ q.next.flatMap (·.2), silent := false }

/-- Whether the held writes of group `g` may apply: every port of the old and the new member set is STOPPED (R106). -/
def State.grpMayApply (s : State) (g : Fin 8) : Bool :=
  (s.grpLines g ++ (s.grpAhead g).grpLines g).all fun i => s.sapState (lineOf i).1 == .stopped

/-- Applies the held writes of group `g` where they may, with the check of R105.  A group whose configuration is invalid stays
disabled, while ENABLE reads 1 and its granules stay allocated (DEDUCED, notes/assumptions/87.md). -/
def State.grpApply (s : State) (g : Fin 8) : State :=
  if s.holds (isGrpCfg g) && s.grpMayApply g then
    let t := s.grpAhead g
    if t.flag (Fd.TIME_GRP_CTRL_ENABLE g) then
      let es := t.grpFaults g
      ({ t with grps := t.grps.set g (t.grps[g].enter es.isEmpty) }).grpErrs g es
    else { t with grps := t.grps.set g t.grps[g].leave }
  else s

/-- A write of a group register outside any check of granules: held, then applied where it may. -/
def State.grpWrite (s : State) (g : Fin 8) (r : GrpReg) (v : Nat) : State :=
  let t := s.hold (grpRegAddr g r) v
  let rises := r == .ctrl && bitOf v 0 && !(s.grpAhead g).flag (Fd.TIME_GRP_CTRL_ENABLE g)
  (if rises then t.reserveGrp g else t).grpApply g

/-! ## Stopping (R78, R80, R81, R87) -/

/-- The address of a held configuration register. -/
def sapRegAddr (n : Nat) : SapReg → Nat
  | .fmt => Adr.SAP_FMT n
  | .clkcfg => Adr.SAP_CLKCFG n
  | .line => Adr.SAP_LINE n
  | .zc => Adr.SAP_ZC n
  | .aesCfg => Adr.SAP_AES_CFG n

/-- Enters STOPPED: what is in store is dropped, held configuration applies, held group configuration that waited for
this port applies, and a RUN = 1 written meanwhile starts the port again (R72, R78, R80, R106). -/
def State.enterStopped (s : State) (n : Fin 32) : State :=
  let t := ((s.dropStore n 0).dropStore n 1).setSapState n .stopped
  let u := (t.updSap n fun p =>
    { p with chans := p.chans.map fun c => { c with sw := .silent }, lines := p.lines.map fun l =>
               { l with live := false, delivering := false, snow := .none, starved := false, partialFrames := 0 },
             zcBusy := false, stopping := false, clocksOn := false, glitch := false }).syncZc n
  let v := (u.raise (sapPage n) SapEv.STOPPED).applyHeld (isSapCfg n)
  let w := (List.finRange 8).foldl (fun x g => x.grpApply g) v
  if w.flag (Fd.SAP_CTRL_RUN n) then w.startPort n else w

/-- RUN goes to 0 (R78, R80, R81). -/
def State.stopPort (s : State) (n : Fin 32) : State :=
  match s.sapState n with
  | .starting | .held => s.enterStopped n
  | .running =>
    ((s.updSap n fun p => { p with chans := p.chans.map fun c => c.ask false, zcBusy := true }).setSapState n .stopping).syncZc n
  | .stopped | .stopping | .pdm => s

/-- Whether a STOPPING port has finished: every channel is silent and every output FIFO is sent to its end (R80). -/
def State.drained (s : State) (n : Fin 32) : Bool :=
  (List.finRange 2).all fun k =>
    s.dir n k == 0 || (s.lineSilent n k && (s.dir n k == 1 || (s.line n k).fill == 0))

/-- MUTE of a channel that still waits for its start switch: it stays muted, or waits for its crossing (R78)
(DEDUCED, notes/assumptions/84.md). -/
def SapChan.startMute (c : SapChan) (mute : Bool) : SapChan :=
  match c.sw, mute with
  | .waitIn _, true => { c with sw := .silent }
  | .silent, false => { c with sw := .waitIn 0 }
  | _, _ => c

/-- New MUTE bits: each channel that is switched or switching is asked; while STARTING only those of an output line that wait for
their start switch (R78). -/
def State.muteWrite (s : State) (n : Fin 32) (mask : Nat) : State :=
  let old := s.fld (Fd.SAP_CTRL_MUTE n)
  let t := s.setFld (Fd.SAP_CTRL_MUTE n) mask
  if s.sapState n == .running then
    let changed (c : Fin 4) : Bool := bitOf old c.val != bitOf mask c.val
    let u := (List.finRange 4).foldl (fun x c =>
      if changed c && s.dir n (Fin.ofNat 2 (c.val / 2)) != 0 then x.updChan n c fun q => q.ask (!bitOf mask c.val) else x) t
    (u.updSap n fun p => { p with zcBusy := p.zcBusy || (List.finRange 4).any changed }).syncZc n
  else if s.sapState n == .starting then
    ((List.finRange 4).foldl (fun (x : State) c =>
      let k := Fin.ofNat 2 (c.val / 2)
      if s.dir n k = 2 ∧ (s.line n k).live then x.updChan n c fun q => q.startMute (bitOf mask c.val) else x) t).syncZc n
  else t

/-- A write of SAPn.CTRL: MUTE and RUN (R78–R81, R87). -/
def State.sapCtrlWrite (s : State) (n : Fin 32) (v : Nat) : State :=
  let was := s.flag (Fd.SAP_CTRL_RUN n)
  let run := bitOf v 0
  let t := (s.muteWrite n (bitsAt v 2 4)).setFld (Fd.SAP_CTRL_RUN n) (bit run)
  if s.sapState n == .pdm then t
  else if run && !was then (if s.sapState n == .stopped then t.startPort n else t)
  else if !run && (was || s.sapState n == .held) then t.stopPort n
  else t

/-- A write of a configuration register of a port: at once while STOPPED, else held (R72). -/
def State.sapCfgWrite (s : State) (n : Fin 32) (r : SapReg) (v : Nat) : State :=
  if s.sapState n == .stopped then s.store (sapRegAddr n r) v else s.hold (sapRegAddr n r) v

/-! ## Clock events on a follower port (Table 2.5, R62, R64, R92) -/

/-- The newest complete block becomes the anchor and older frames are dropped (R118, R110); `told` where a record has already said
so (DEDUCED, notes/assumptions/74.md). -/
def State.reanchor (s : State) (n : Fin 32) (k : Fin 2) (told : Bool) : State :=
  let l := s.line n k
  let whole := if l.partialFrames = 0 then l.segs else l.segs.dropLast
  let (stamp, base, keep) := match whole.getLast?, l.segs.getLast? with
    | some g, _ => (g.stamp, g.pos, g.left + l.partialFrames)
    | none, some g => (g.stamp, g.pos, l.partialFrames)
    | none, none => (s.syscnt, l.blockPos, 0)
  let t := (s.dropFronts n k (l.store - keep)).updLine n k fun q =>
    { q with dropped := q.dropped + (l.store - keep), anchorStamp := stamp, nextPos := 0, anchorTick := s.ticks + 1,
             segs := q.segs.map fun (g : Seg) => { g with pos := g.pos - base }, blockPos := q.blockPos - base,
             snow := .waitPos, level := Glide.at .mute, ratePend := false, reanchorRec := q.reanchorRec || !told, backRec := none }
  match s.groupOf n k with
  | some g => (t.updLine n k fun q => { q with delivering := false }).raiseGrp g.val GrpEv.REANCHOR
  | none => t

/-- A line whose port met RATE_CHANGE with a converter: one that plays re-anchors at once, one in a snowplough when it rejoins
(R118; DEDUCED, notes/assumptions/84.md). -/
def State.rateLine (s : State) (n : Fin 32) (k : Fin 2) : State :=
  if s.dir n k ≠ 1 then s
  else if (s.line n k).plays then s.reanchor n k false
  else s.updLine n k fun q => { q with ratePend := true }

/-- An output line that loses its clock stops sending; its stream rejoins when the clock is back (Table 2.5, R120). -/
def State.outputLost (s : State) (n : Fin 32) (k : Fin 2) : State :=
  if s.dir n k = 2 ∧ (s.line n k).delivering then s.updLine n k fun q => { q with snow := .silent, level := Glide.at .mute } else s

/-- The transmitter of an AES3 port timed by its receiver stops and holds its pin low (04_aes3_ports.md R92). -/
def State.aesTxLost (s : State) (n : Fin 32) : State :=
  (s.updSap n fun p => { p with aes := { p.aes with dLow := true } }).outputLost n 1

/-- RATE_CHANGE of the clock of a follower line (Table 2.5): HELD without a converter; with one whose new ratio is in
range the stream re-anchors (R118).  An AES3 transmitter that it times stops in every state (04_aes3_ports.md R92). -/
def State.portRateChange (s : State) (n : Fin 32) (code : Nat) : State :=
  let follows := if s.isAes n then s.dir n 0 == 1 || !s.isMaster n else !s.isMaster n
  let active := s.sapState n == .running || s.sapState n == .stopping
  let t := if s.isAes n && !s.isMaster n then s.aesTxLost n else s
  if !follows || !active then t
  else
    if s.portConverted n && s.ratioOk code then (t.rateLine n 0).rateLine n 1
    else (t.setSapState n .held).raise (sapPage n) SapEv.HELD

/-- PRESENT of the clock of a line: a STARTING port whose clock is now right begins at this tick (R79); an AES3 transmitter resumes
with a Z preamble (04_aes3_ports.md R92). -/
def State.portPresent (s : State) (n : Fin 32) : State :=
  let t := match s.sapState n with
    | .starting => (s.wakeLines n).checkMismatch n |>.syncZc n
    | .stopped | .running | .stopping | .held | .pdm => s
  if t.isAes n && t.txClock n then t.updSap n fun p =>
      { p with aes := { p.aes with dLow := false, txPos := if p.aes.dLow then 0 else p.aes.txPos } }
  else t

/-- LOSS of the clock of a port: the output lines that it times stop (Table 2.5; 04_aes3_ports.md R92). -/
def State.portLoss (s : State) (n : Fin 32) : State :=
  if s.isMaster n then s
  else if s.isAes n then s.aesTxLost n
  else (s.outputLost n 0).outputLost n 1

end Sys2Proof.Machine
end

