-- ==== Sys2Proof/Machine/Align.lean ====
section
/-!
DEFINITION. Stream alignment and rate conversion and their commands (05_alignment_and_rate_conversion.md).
-/
namespace Sys2Proof.Machine

/-! ## Groups (R106, R108) -/

/-- Whether a direct write of a group's CTRL that sets ENABLE finds too few free granules (R108). -/
def State.grpShort (s : State) (g : Fin 8) (r : GrpReg) (v : Nat) : Bool :=
  r == .ctrl && bitOf v 0 && !(s.grpAhead g).flag (Fd.TIME_GRP_CTRL_ENABLE g)
    && s.granFree < s.grpNeed g

/-! ## Start of delivery (R110) -/

/-- Whether the tick that comes next starts at or after the anchor stamp and the presentation delay (R110). -/
def State.anchorDue (s : State) (g : Fin 8) (n : Fin 32) (k : Fin 2) : Bool :=
  (s.line n k).anchorStamp + s.fld (Fd.TIME_GRP_DELAY_PRES_DELAY g) ≤ s.syscnt

/-- Asks the channels of a line that are not muted to switch in (R78). -/
def State.askIn (s : State) (n : Fin 32) (k : Fin 2) : State :=
  (List.finRange 2).foldl (fun t b =>
    if bitOf (t.fld (Fd.SAP_CTRL_MUTE n)) (2 * k.val + b.val) then t else t.updChan n (chanNo k b) fun c => c.ask true) s

/-- A member begins to present frame 0 (R110); one that starts while its LOCKSTEP group is silent stays silent (R117). -/
def State.memberStart (s : State) (n : Fin 32) (k : Fin 2) : State :=
  match s.groupOf n k with
  | none => s
  | some g =>
    let l := s.line n k
    let able := s.sapState n == .starting || s.sapState n == .running
    if s.dir n k = 1 ∧ able ∧ l.live ∧ l.anchored ∧ !l.delivering ∧ s.cushOn g n k ∧ s.anchorDue g n k then
      let quiet := s.grps[g].silent
      ((s.updLine n k fun q =>
        { q with delivering := true, nextPos := 0, anchorTick := s.ticks + 1,
                 snow := if quiet then .silent else q.snow,
                 level := if quiet then Glide.at .mute else q.level }).askIn n k).syncZc n
    else s

/-! ## The snowplough and the rejoin (R115, R117, R118) -/

/-- A channel whose pending switch completes in the silence of a snowplough (R78). -/
def SapChan.complete (c : SapChan) : SapChan :=
  match c.sw with
  | .waitIn _ | .glideIn _ => { c with sw := .opened }
  | .waitOut _ | .glideOut _ => { c with sw := .silent }
  | .silent | .opened => c

/-- A fade that has run its ticks ends in silence. -/
def State.snowSilent (s : State) (n : Fin 32) (k : Fin 2) : State :=
  if (s.line n k).snow = .fade 0 then
    let t := s.updLine n k fun q => { q with snow := .silent }
    if s.dir n k = 1 then
      let u := ((t.updChan n (chanNo k 0) SapChan.complete).updChan n (chanNo k 1) SapChan.complete).syncZc n
      match s.groupOf n k with
      | some g => u.raiseGrp g.val GrpEv.SILENT
      | none => u
    else t
  else s

/-- One frame dropped late (R118). -/
def State.dropLate (s : State) (n : Fin 32) (k : Fin 2) : State :=
  let t := (s.dropFront n k).updLine n k fun q => { q with dropped := q.dropped + 1, lateRec := true }
  match s.groupOf n k with
  | some g => (t.countSat (Fd.TIME_GRP_LATE_CNT_COUNT g) 1).raiseGrp g.val GrpEv.LATE_DROP
  | none => t

/-- Drops the frames in store whose position is passed, at most `j`. -/
def State.dropPassed (s : State) (n : Fin 32) (k : Fin 2) : Nat → State
  | 0 => s
  | j + 1 =>
    let l := s.line n k
    if l.store ≠ 0 ∧ s.headPos n k < l.nextPos then (s.dropLate n k).dropPassed n k j else s

/-- One line rejoins at its position, or re-anchors (R118); unless the record of a block has already said so, the next one does. -/
def State.rejoinLine (s : State) (n : Fin 32) (k : Fin 2) : State :=
  let l := s.line n k
  if s.mustReanchor n k then s.reanchor n k (l.backRec == some true)
  else
    let t := (s.dropPassed n k l.store).updLine n k fun q =>
      { q with snow := .waitPos, rejoinRec := q.rejoinRec || l.backRec != some false, backRec := none }
    match s.groupOf n k with
    | some g => t.raiseGrp g.val GrpEv.REJOIN
    | none => t

/-- The members of a group that play their part in a LOCKSTEP silence: of a RUNNING port and past their anchor
(DEDUCED, notes/assumptions/74.md). -/
def State.lockMembers (s : State) (g : Fin 8) : List (Fin 32 × Fin 2) :=
  ((s.grpLines g).map lineOf).filter fun m => s.sapState m.1 == .running && (s.line m.1 m.2).delivering

/-- Whether a line has rejoined and waits for its position. -/
def State.waitsPos (s : State) (n : Fin 32) (k : Fin 2) : Bool := (s.line n k).snow == .waitPos

/-- A silent line rejoins; a silent LOCKSTEP group rejoins as a whole (R117, R118) (DEDUCED, notes/assumptions/74.md). -/
def State.rejoin (s : State) (n : Fin 32) (k : Fin 2) : State :=
  if !s.canRejoin n k then s
  else match s.groupOf n k with
    | none => s.rejoinLine n k
    | some g =>
      if s.grps[g].silent then
        let ms := s.lockMembers g
        if ms.all fun m => s.waitsPos m.1 m.2 || s.canRejoin m.1 m.2 then
          ms.foldl (fun u m => if u.canRejoin m.1 m.2 then u.rejoinLine m.1 m.2 else u) s
        else s
      else s.rejoinLine n k

/-- A silent LOCKSTEP group whose members have all rejoined ends its silence in the tick in which a frame is due at each of them: they
glide in together (R117, Table 5.14) (DEDUCED, notes/assumptions/74.md). -/
def State.lockReady (s : State) (g : Fin 8) : State :=
  let ms := s.lockMembers g
  if s.grps[g].silent && !ms.isEmpty && ms.all fun m =>
      s.waitsPos m.1 m.2 && (s.line m.1 m.2).store != 0 && decide (s.headPos m.1 m.2 ≤ (s.line m.1 m.2).nextPos) then
    { s with grps := s.grps.set g { s.grps[g] with silent := false } }
  else s

/-! ## Rate converters (R123–R126) -/

/-- The states of a converter (Table 5.3). -/
inductive AsrcState where
  | off | acquiring | locked | hold | outOfRange | invalid
deriving DecidableEq, Repr

/-- The code of a converter state. -/
def AsrcState.code : AsrcState → Nat
  | .off => 0
  | .acquiring => 1
  | .locked => 2
  | .hold => 3
  | .outOfRange => 4
  | .invalid => 5

/-- The converter state of a code. -/
def AsrcState.ofCode : Nat → AsrcState
  | 1 => .acquiring
  | 2 => .locked
  | 3 => .hold
  | 4 => .outOfRange
  | 5 => .invalid
  | _ => .off

/-- The page of the converters. -/
abbrev asrcPage : Nat := 0x013

/-- Converter `i`. -/
def State.asrcState (s : State) (i : Nat) : AsrcState := AsrcState.ofCode (s.fld (Fd.ASRC_CH_STAT_STATE i))

/-- `s` with converter `i` changed. -/
def State.updAsrc (s : State) (i : Nat) (f : Asrc → Asrc) : State := { s with asrcs := upd s.asrcs i f }

/-- The port, line, channel and direction that a converter names (Table 5.11). -/
def State.asrcPort (s : State) (i : Nat) : Fin 32 := Fin.ofNat 32 (s.fld (Fd.ASRC_CH_CFG_PORT i))
def State.asrcLine (s : State) (i : Nat) : Fin 2 := Fin.ofNat 2 (s.fld (Fd.ASRC_CH_CFG_LINE i))
def State.asrcChan (s : State) (i : Nat) : Nat := s.fld (Fd.ASRC_CH_CFG_CHAN i)
def State.asrcDir (s : State) (i : Nat) : Nat := s.fld (Fd.ASRC_CH_CFG_DIR i)

/-- Whether a converter is enabled. -/
abbrev State.asrcOn (s : State) (i : Nat) : Bool := s.flag (Fd.ASRC_CH_CFG_ENABLE i)

/-- The nominal rate of the port side: that of the monitor that its line follows while it is PRESENT, else the configured one. -/
def State.asrcNominal (s : State) (i : Nat) : Nat :=
  let n := s.asrcPort i
  let m := s.lineMon n
  if s.lineFollows n (s.asrcLine i) && s.fld (Fd.CLK_MON_STAT_STATE m) == 2 then s.fld (Fd.CLK_MON_STAT_NOMINAL m)
  else s.fld (Fd.SAP_CLKCFG_RATE n)

/-- Port rate ÷ Fc as measured, unsigned Q8.24: nearest (05_alignment_and_rate_conversion.md Table 5.12 and its
example). -/
def State.asrcRatio (s : State) (i : Nat) : Nat :=
  let n := s.asrcPort i
  let (pn, pd) := s.framePeriod n (s.asrcLine i)
  let off := s.sfld Fd.CLK_PLL_STAT_FREQ_OFFSET
  let num : Int := 98304000 * pd * 10000000 * 2 ^ 24
  let den : Int := pn * s.fc * (10000000 + off)
  ((2 * num + den) / (2 * den)).toNat % 2 ^ 32

/-- A converter enters a state: its code, its bit of LOCKED, its counts and events (Tables 5.9, 5.12, 5.13). -/
def State.asrcEnter (s : State) (i : Nat) (t : AsrcState) : State :=
  let was := s.asrcState i
  let s1 := (s.setFld (Fd.ASRC_CH_STAT_STATE i) t.code).setBit (Fd.ASRC_LOCKED_MASK (i / 32)) (i % 32) (t == .locked)
  let s2 := s1.setFld (Fd.ASRC_CH_STAT_RATE i) (if t == .off then 0x1F else s1.asrcNominal i)
  match t with
  | .off => s2
  | .acquiring =>
    if was == .locked then (s2.countSat (Fd.ASRC_CH_CNT_RELOCK i) 1).raise asrcPage 1 else s2
  | .locked =>
    let glide := s.fld Fd.ASRC_GLIDE_IN_TICKS
    ((s2.setFld (Fd.ASRC_CH_RATIO_RATIO i) (s2.asrcRatio i)).updAsrc i fun q =>
      { q with glide := (Glide.at .mute).aim (.db 0 1) glide }).raise asrcPage 0
  | .hold => if was == .hold then s2 else (s2.countSat (Fd.ASRC_CH_CNT_HOLD i) 1).raise asrcPage 3
  | .outOfRange | .invalid => if was == t then s2 else s2.raise asrcPage 2

/-- The enabled converters that share a ratio estimate with converter `i` (R125), itself among them. -/
def State.asrcMates (s : State) (i : Nat) : List Nat :=
  (List.range 64).filter fun j => s.asrcOn j && s.asrcPort j == s.asrcPort i && s.asrcLine j == s.asrcLine i
    && s.asrcDir j == s.asrcDir i

/-- The state that the checks of an enable give (R124). -/
def State.asrcCheck (s : State) (i : Nat) : AsrcState :=
  let clash := (List.range 64).any fun j => j != i && s.asrcOn j && s.asrcPort j == s.asrcPort i
    && s.asrcLine j == s.asrcLine i && s.asrcChan j == s.asrcChan i && s.asrcDir j == s.asrcDir i
  if s.dir (s.asrcPort i) (s.asrcLine i) != s.asrcDir i + 1 || clash then .invalid
  else if !s.ratioOk (s.asrcNominal i) then .outOfRange else .acquiring

/-- A converter that acquires beside others with the same estimate stands where they stand: they share it, and lock together (R125)
(DESIGN CHOICE, notes/assumptions/75.md). -/
def State.asrcShare (s : State) (i : Nat) : State :=
  let mates := (s.asrcMates i).filter (· != i)
  if s.asrcState i ≠ .acquiring then s
  else if mates.any fun j => s.asrcState j == .locked then s.asrcEnter i .locked
  else if mates.any fun j => s.asrcState j == .hold then s.asrcEnter i .hold
  else s

/-- ENABLE goes from 0 to 1 (R124). -/
def State.asrcEnable (s : State) (i : Nat) : State :=
  let t := (s.setFld (Fd.ASRC_CH_CFG_ENABLE i) 1).updAsrc i fun q =>
    { q with stopping := false, glide := Glide.at .mute, hist := [], outward := s.asrcDir i == 1,
             node := 4 * (s.asrcPort i).val + 2 * (s.asrcLine i).val + s.asrcChan i }
  (t.asrcEnter i (t.asrcCheck i)).asrcShare i

/-- ENABLE goes from 1 to 0: held writes apply, and the output glides to mute over GLIDE_IN ticks (R124, R126). -/
def State.asrcDisable (s : State) (i : Nat) : State :=
  let ticks := s.fld Fd.ASRC_GLIDE_IN_TICKS
  let t := (s.updAsrc i fun q => { q with stopping := true, glide := q.glide.aim .mute ticks }).applyHeld (· == Adr.ASRC_CH_CFG i)
  t.setFld (Fd.ASRC_CH_CFG_ENABLE i) 0

/-- A write of CHi_CFG (R124). -/
def State.asrcWrite (s : State) (i : Nat) (v : Nat) : State :=
  if s.asrcOn i then
    if bitOf v 0 then s.hold (Adr.ASRC_CH_CFG i) v
    else (s.asrcDisable i).store (Adr.ASRC_CH_CFG i) v
  else
    let t := s.store (Adr.ASRC_CH_CFG i) (putBits v 0 1 0)
    if bitOf v 0 then t.asrcEnable i else t

/-- The converters of port `n` whose line follows its clock meet an event of it (R125). -/
def State.asrcClock (s : State) (n : Fin 32) (lost : Bool) : State :=
  (List.range 64).foldl (fun t i =>
    if t.asrcOn i && t.asrcPort i == n && t.lineFollows n (t.asrcLine i) then
      match t.asrcState i with
      | .acquiring | .locked | .hold | .outOfRange =>
        t.asrcEnter i (if lost then .hold else if t.ratioOk (t.asrcNominal i) then .acquiring else .outOfRange)
      | .off | .invalid => t
    else t) s

/-- The locked converters among `is`, with those that share their estimates, return to ACQUIRING (R125 Relock). -/
def State.asrcRelock (s : State) (is : List Nat) : State :=
  is.foldl (fun t i => if t.asrcState i == .locked && t.asrcOn i then
      (t.asrcMates i).foldl (fun u j => if u.asrcState j == .locked then u.asrcEnter j .acquiring else u) t
    else t) s

/-- Every locked converter returns to ACQUIRING: a SNAP relock moves Fc (R125). -/
def State.asrcSnap (s : State) : State := s.asrcRelock (List.range 64)

/-- RATIO of every locked converter follows what is measured now. -/
def State.asrcMeasure (s : State) : State :=
  (List.range 64).foldl (fun t i =>
    if t.asrcState i == .locked then t.setFld (Fd.ASRC_CH_RATIO_RATIO i) (t.asrcRatio i) else t) s

/-- The delay of a converter in ticks: 48 samples at the lower of its rates (R125). -/
def State.asrcDelay (s : State) (i : Nat) : Nat :=
  let hz := s.lineHz (s.asrcPort i) (s.asrcLine i)
  if hz < s.fc then (48 * s.fc + hz / 2) / (max hz 1) else 48

/-- One tick of a converter: its next output (Table 5.3, R126).  The converted value is a free value; its tag is that of
the input sample nearest in time (DESIGN CHOICE, notes/assumptions/75.md). -/
def State.asrcTick (s : State) (i : Nat) : State :=
  let q := at_ s.asrcs i Asrc.atReset
  let d := s.asrcDelay i
  let t := (q.hist.getD (d - 1) Tag.made)
  let tag : Tag := { t with u := false, c := false, blockStart := false }
  let put (t : State) (x : Sample) : State :=
    t.updAsrc i fun r => { r with output := x, glide := r.glide.step, hist := r.input.tag :: r.hist.take (d - 1) }
  match s.asrcState i with
  | .off => put s ⟨0, { Tag.clear with synth := Config.asrcOffSynth }⟩
  | .outOfRange | .invalid => put s Sample.silence
  | .acquiring => put s ⟨0, { Tag.made with settling := true }⟩
  | .locked =>
    let (v, u) := s.freeInt sampleMin sampleMax
    put u ⟨fadeCode q.glide.step.now v, tag⟩
  | .hold =>
    let (v, u) := s.freeInt sampleMin sampleMax
    put u ⟨fadeCode q.glide.step.now v, { tag with settling := true }⟩

/-! ## Meanings -/

/-- `GRP_CONFIG_WRITE` (R106, R108). -/
def execGrpConfigWrite (g : Fin 8) (r : GrpReg) (v : Word) (s : State) : Result :=
  .next (if s.grpShort g r v.toNat then s else s.grpWrite g r v.toNat)

/-- `MEMBER_DELIVERY_START` (R110). -/
def execMemberDeliveryStart (n : Fin 32) (k : Fin 2) (s : State) : Result := .next (s.memberStart n k)

/-- `MEMBER_STARVED` (R113): no frame has entered an input line for 3 nominal periods; the snowplough follows at the end
of a tick (R114). -/
def execMemberStarved (n : Fin 32) (k : Fin 2) (s : State) : Result :=
  .next (if s.dir n k = 1 ∧ (s.line n k).live then s.updLine n k fun q => { q with starved := true } else s)

/-- `SNOWPLOUGH_SILENT` (R115). -/
def execSnowploughSilent (n : Fin 32) (k : Fin 2) (s : State) : Result := .next (s.snowSilent n k)

/-- `MEMBER_REJOIN` (R118). -/
def execMemberRejoin (n : Fin 32) (k : Fin 2) (s : State) : Result := .next (s.rejoin n k)

/-- `REJOIN_GLIDE_DONE` (R118). -/
def execRejoinGlideDone (n : Fin 32) (k : Fin 2) (s : State) : Result :=
  .next (if (s.line n k).snow = .glide 0 then s.updLine n k fun q => { q with snow := .none } else s)

/-- `ASRC_CONFIG_WRITE` (R124). -/
def execAsrcConfigWrite (i : Fin 64) (v : Word) (s : State) : Result :=
  .next (if s.pageTakes asrcPage then s.asrcWrite i.val v.toNat else s)

/-- `ASRC_ENABLE` (R124): ENABLE is written 1. -/
def execAsrcEnable (i : Fin 64) (s : State) : Result :=
  .next (if s.pageTakes asrcPage && !s.asrcOn i.val then s.asrcEnable i.val else s)

/-- `ASRC_DISABLE` (R126): ENABLE is written 0. -/
def execAsrcDisable (i : Fin 64) (s : State) : Result :=
  .next (if s.pageTakes asrcPage && s.asrcOn i.val then s.asrcDisable i.val else s)

/-- `ASRC_OFF` (R126): the glide after a disable has run (DESIGN CHOICE, notes/assumptions/4.md). -/
def execAsrcOff (i : Fin 64) (s : State) : Result :=
  .next (if s.asrcs[i].stopping && s.asrcs[i].glide.left = 0
    then (s.asrcEnter i.val .off).updAsrc i.val fun q => { q with stopping := false } else s)

/-- `ASRC_LOCKED` (R125): every converter that acquires with this estimate locks. -/
def execAsrcLocked (i : Fin 64) (s : State) : Result :=
  .next (if s.asrcOn i.val && s.asrcState i.val == .acquiring then
      (s.asrcMates i.val).foldl (fun t j => if t.asrcState j == .acquiring then t.asrcEnter j .locked else t) s
    else s)

end Sys2Proof.Machine
end

