-- ==== Sys2Proof/Machine/Piste.lean ====
section
/-!
DEFINITION. Pistes: the schedule image, its validity, costs, lane packing, crossing sinks and admission
(07_fabric_schedule.md R165–R185).
-/
namespace Sys2Proof.Machine

/-! ## Node ranges (01_architecture.md Tables 1.4, 1.5) -/

/-- Whether a sink is a bus input. -/
abbrev isBusSink (id : Nat) : Bool := 0x0E0 ≤ id && id ≤ 0x11F

/-! ## The image (R166–R168) -/

/-- An item of an item word, in a program of sink `id`; none where R168 makes the piste invalid. -/
def itemOf (w : Nat) : Option Item :=
  let op := bitsAt w 28 4
  if op = 1 then
    let slot := bitsAt w 0 16
    if bitsAt w 26 2 = 0 ∧ (slot < 4096 ∨ slot = 0xFFFF) then some (.term (bitsAt w 16 10) slot) else none
  else if op = 2 then (if bitsAt w 0 28 < 1024 then some (.biquad (bitsAt w 0 12)) else none)
  else if op = 3 then (if bitsAt w 0 28 < 256 then some (.dynamics (bitsAt w 0 12)) else none)
  else if op = 4 then (if bitsAt w 0 28 < 512 then some (.delay (bitsAt w 0 12)) else none)
  else if op = 5 then (if bitsAt w 0 28 = 0 then some .scale else none)
  else none

/-- The items of `n` words from word `i`. -/
def itemsOf (rd : Nat → Nat) : Nat → Nat → Option (List Item)
  | 0, _ => some []
  | n + 1, i => do
    let x ← itemOf (rd i)
    let l ← itemsOf rd n (i + 1)
    return x :: l

/-- One program at word `i`: the program and the word after it. -/
def progOf (rd : Nat → Nat) (i : Nat) : Option (Prog × Nat) :=
  let w := rd i
  let n := bitsAt w 0 12
  let gen := bitOf w 31
  let id := bitsAt w 16 10
  if bitsAt w 26 2 ≠ 0 ∨ bitsAt w 12 4 ≠ 0 ∨ 32768 < i + 1 + n ∨ (gen ∧ (n ≠ 0 ∨ 16 ≤ id)) then none
  else
    match itemsOf rd n (i + 1) with
    | some l => if l.contains .scale ∧ !isBusSink id then none else some (⟨gen, bitsAt w 28 3, id, l⟩, i + 1 + n)
    | none => none

/-- `n` programs from word `i`: the programs and the word after them. -/
def progsOf (rd : Nat → Nat) : Nat → Nat → Option (List Prog × Nat)
  | 0, i => some ([], i)
  | n + 1, i => do
    let (p, j) ← progOf rd i
    let (l, k) ← progsOf rd n j
    return (p :: l, k)

/-- Whether a list holds an element twice. -/
def hasDup {α : Type} [BEq α] : List α → Bool
  | [] => false
  | x :: l => l.contains x || hasDup l

/-- The objects and taps that a program names. -/
def Item.object : Item → Option Item
  | .term _ _ => none
  | .scale => none
  | .biquad i => some (.biquad i)
  | .dynamics i => some (.dynamics i)
  | .delay i => some (.delay i)

/-- The piste whose words `rd` gives, where it is valid (R168). -/
def pisteOf (rd : Nat → Nat) : Option Piste :=
  let w1 := rd 1
  let n := bitsAt w1 0 9
  if rd 0 ≠ 0x50495354 ∨ bitsAt w1 24 8 ≠ 1 ∨ bitsAt w1 19 5 ≠ 0 ∨ bitsAt w1 9 7 ≠ 0 ∨ n = 0 ∨ 306 < n
      ∨ 65536 ≤ rd 2 ∨ [3, 4, 5, 6, 7].any (fun k => rd k != 0) then none
  else
    match progsOf rd n 8 with
    | none => none
    | some (l, e) =>
      let stages := bitsAt w1 16 3
      if e ≠ 8 + bitsAt (rd 2) 0 16 ∨ l.any (fun p => stages < p.stage) ∨ hasDup (l.map fun p => (p.gen, p.id))
          ∨ hasDup (l.flatMap fun p => p.items.filterMap Item.object)
          ∨ l.any (fun p => 1 < (p.items.filter (· == .scale)).length) then none
      else some ⟨stages, l⟩

/-- The base address of piste A (0) or B (1). -/
abbrev pisteBase (b : Nat) : Nat := 0x50000000 + 0x20000 * b

/-- The piste in memory A (0) or B (1), where it is valid. -/
def State.pisteIn (s : State) (b : Nat) : Option Piste := pisteOf fun i => (s.memWord (pisteBase b + 4 * i)).toNat

/-- The delay taps that a piste names. -/
def Piste.taps (p : Piste) : List Nat :=
  p.progs.flatMap fun q => q.items.filterMap fun x => match x with
    | .delay i => some i
    | .term _ _ | .biquad _ | .dynamics _ | .scale => none

/-! ## Costs and packing (R173–R175, R177, R181) -/

/-- The cycles of an item (Table 7.3). -/
def Item.cost : Item → Nat
  | .term _ _ => 1
  | .biquad _ => 5
  | .dynamics _ => 24
  | .delay _ => 2
  | .scale => 3

/-- The cost of a program. -/
def Prog.cost (p : Prog) : Nat := if p.gen then 4 else (p.items.map Item.cost).sum

/-- The sink program of sink `id`. -/
def Piste.sink (p : Piste) (id : Nat) : Option Prog := p.progs.find? fun q => !q.gen && q.id == id

/-- The sinks that cross from an old piste to a new one (R177). -/
def crossingSinks (old new : Piste) : List Nat :=
  let a := (new.progs.filter fun p => !p.gen).filterMap fun p => match old.sink p.id with
    | some q => if q.stage = p.stage ∧ q.items = p.items then none else some p.id
    | none => some p.id
  let b := (old.progs.filter fun q => !q.gen && (new.sink q.id).isNone).map (·.id)
  a ++ b

/-- A job to pack: its stage, its admission cost, its cost without an old program, whether it is a generator, its ID. -/
structure Job where
  stage : Nat
  cost : Nat
  own : Nat
  gen : Bool
  id : Nat
deriving DecidableEq, Repr

/-- The order in which jobs are packed (R174). -/
def Job.before (a b : Job) : Bool :=
  if a.cost ≠ b.cost then b.cost < a.cost
  else if a.gen ≠ b.gen then b.gen
  else a.id < b.id

/-- Puts a job into its place. -/
def insertJob (x : Job) : List Job → List Job
  | [] => [x]
  | y :: l => if x.before y then x :: y :: l else y :: insertJob x l

/-- The jobs of an admission. -/
def jobsOf (old : Option Piste) (new : Piste) (crossing : List Nat) : List Job :=
  let oldCost (id : Nat) : Nat := match old with
    | some o => ((o.sink id).map Prog.cost).getD 0
    | none => 0
  let a := new.progs.map fun p =>
    ⟨p.stage, if !p.gen && crossing.contains p.id then p.cost + oldCost p.id + 2 else p.cost, p.cost, p.gen, p.id⟩
  let b := match old with
    | some o => (o.progs.filter fun q => !q.gen && crossing.contains q.id && (new.sink q.id).isNone).map fun q =>
        ⟨min q.stage new.stages, q.cost + 2, 0, false, q.id⟩
    | none => []
  a ++ b

/-- The number of the lane with the lowest total, the lowest-numbered among equals. -/
def lowestLane (ls : List (Nat × Nat)) : Nat :=
  let m := (ls.map (·.1)).foldl min ((ls.map (·.1)).headD 0)
  ls.findIdx fun l => l.1 == m

/-- Packs sorted jobs onto lanes, each with its total and its total without old programs. -/
def packLanes : List Job → List (Nat × Nat) → List (Nat × Nat)
  | [], ls => ls
  | j :: js, ls =>
    let k := lowestLane ls
    packLanes js (ls.mapIdx fun i l => if i = k then (l.1 + j.cost, l.2 + j.own) else l)

/-- The lane totals of a stage. -/
def stageLanes (jobs : List Job) (st : Nat) : List (Nat × Nat) :=
  packLanes ((jobs.filter (·.stage == st)).foldl (fun l j => insertJob j l) []) (List.replicate 16 (0, 0))

/-- Admission of a piste against the running one, at crossover length `len` (R175, R177, R181). -/
def admission (old : Option Piste) (new : Piste) (len : Nat) : Admission :=
  let crossing := match old with
    | some o => if len = 0 then [] else crossingSinks o new
    | none => []
  let jobs := jobsOf old new crossing
  let lanes := (List.range (new.stages + 1)).map fun st => stageLanes jobs st
  let top (f : Nat × Nat → Nat) (ls : List (Nat × Nat)) : Nat := (ls.map f).foldl max 0
  let ms := lanes.map fun ls => (top (·.1) ls, ls.findIdx fun l => l.1 == top (·.1) ls)
  ⟨crossing, (ms.map (·.1)).sum + 8 * new.stages, (lanes.map (top (·.2))).sum + 8 * new.stages, ms⟩

/-- The schedulable cycles per lane at the present Fc (01_architecture.md Table 1.2). -/
def State.fabLimit (s : State) : Nat := [15872, 7680, 3584, 3584].getD (s.fld Fd.CLK_CORE_MULT) 3584

/-- Writes the outcome of an admission; none is one that found the piste invalid (R185)
(DESIGN CHOICE, notes/assumptions/46.md). -/
def State.admitOut (s : State) (a : Option Admission) : State :=
  match a with
  | none =>
    (List.range 8).foldl (fun t k => t.setReg (Adr.FAB_STAGE_COST k) 0)
      ((s.setReg Adr.FAB_CHECK_COST (word (2 ^ 30))).setReg Adr.FAB_CROSSING 0)
  | some a =>
    let above : Bool := decide (s.fabLimit < a.cost)
    (List.range 8).foldl (fun t k =>
        let (m, l) := a.stages.getD k (0, 0)
        t.setReg (Adr.FAB_STAGE_COST k) (word (l * 65536 + min m 0xFFFF)))
      ((s.setReg Adr.FAB_CHECK_COST (word (bit above * 2 ^ 31 + min a.cost 0xFFFF))).setReg Adr.FAB_CROSSING
        (word (a.crossing.length % 512)))

end Sys2Proof.Machine
end

