-- ==== Sys2Proof/Machine/FabOps.lean ====
section
/-!
DEFINITION. The fabric's arithmetic, its objects, buses, delay lines and generators, and the evaluation of programs
(07_fabric_schedule.md, 08_mixing_and_processing.md).
-/
namespace Sys2Proof.Machine

/-! ## Arithmetic (R159, R160, R194) -/

/-- The nearest multiple of 2^k of `x`, as a multiple, ties to even. -/
def roundEven (x : Int) (k : Nat) : Int :=
  let q := x / 2 ^ k
  let r := x % 2 ^ k
  if 2 * r < 2 ^ k then q else if 2 ^ k < 2 * r then q + 1 else if q % 2 = 0 then q else q + 1

/-- The largest and smallest values of the accumulator, in units of 2^-39. -/
abbrev accMax : Int := 140737488355327
abbrev accMin : Int := -140737488355328

/-- A Q1.31 code times a gain, in units of 2^-39: exact at 0 dB (R194) (DESIGN CHOICE, notes/assumptions/20.md). -/
def mulGain (g : Gain) (v : Int) : Int :=
  match g with
  | .mute => 0
  | .db n d => if n = 0 then v * 256 else roundEven (v * gainFactor n d) 40

/-- An accumulator value times a gain. -/
def mulAcc (g : Gain) (v : Int) : Int :=
  match g with
  | .mute => 0
  | .db n d => if n = 0 then v else roundEven (v * gainFactor n d) 48

/-- The running value of a program and its tag as it merges (01_architecture.md R14): the active terms so far, what they carry,
and whether it is the tag of a delayed sample, kept as it is (08_mixing_and_processing.md R209). -/
structure Acc where
  v : Int
  n : Nat
  valid : Bool
  settling : Bool
  xover : Bool
  clipped : Bool
  synth : Bool
  u : Bool
  c : Bool
  blockStart : Bool
  exact : Bool
deriving DecidableEq, Repr

/-- The accumulator at the start of a program. -/
abbrev Acc.zero : Acc := ⟨0, 0, false, false, false, false, false, false, false, false, false⟩

/-- The running value saturated to the accumulator's range. -/
def Acc.put (a : Acc) (x : Int) : Acc :=
  { a with v := clampInt accMin accMax x, clipped := a.clipped || x < accMin || accMax < x }

/-- An active term's tag merges. -/
def Acc.merge (a : Acc) (t : Tag) : Acc :=
  { a with n := a.n + 1, valid := a.valid || t.valid, settling := a.settling || t.settling, xover := a.xover || t.xover,
           clipped := a.clipped || t.clipped, synth := a.synth || t.synth,
           u := a.n == 0 && t.u, c := a.n == 0 && t.c, blockStart := a.n == 0 && t.blockStart, exact := false }

/-- The tag that the active terms form. -/
def Acc.tag (a : Acc) : Tag :=
  if a.n = 0 then Tag.clear
  else ⟨a.valid, a.settling, (a.exact || !a.valid) && a.synth, a.xover, a.clipped, a.u, a.c, a.blockStart⟩

/-- The accumulator after a delay tap that delivers `y`: the running value is replaced, and its tag by that of the sample, which is
kept as it was; a tap whose input is not active is not active either (R14, R209, R213). -/
def Acc.replace (a : Acc) (y : Sample) (mark : Bool) : Acc :=
  if a.n = 0 then { a with v := y.v * 256, settling := a.settling || mark }
  else
    { v := y.v * 256, n := a.n, valid := y.tag.valid, settling := y.tag.settling || mark, xover := y.tag.xover,
      clipped := y.tag.clipped, synth := y.tag.synth, u := y.tag.u, c := y.tag.c, blockStart := y.tag.blockStart, exact := true }

/-- The running value rounded and saturated to Q1.31, and whether it saturated (R160)
(DESIGN CHOICE, notes/assumptions/19.md). -/
def State.toQ31 (s : State) (x : Int) : Int × Bool × State :=
  let (q, t) := s.divFree x 256
  (clampInt sampleMin sampleMax q, q < sampleMin || sampleMax < q, t)

/-! ## Gain slots and levels (R194–R197) -/

/-- The bases of the pools (Table 8.1). -/
abbrev slotAddr (i : Nat) : Nat := 0x50040000 + 8 * i
abbrev biquadAddr (i : Nat) : Nat := 0x50048000 + 32 * i
abbrev dynAddr (i : Nat) : Nat := 0x50050000 + 64 * i
abbrev tapAddr (i : Nat) : Nat := 0x50054000 + 16 * i
abbrev genAddr (i : Nat) : Nat := 0x50056000 + 64 * i

/-- What an unlisted gain is (DESIGN CHOICE, notes/assumptions/8.md). -/
abbrev muteGlide : Glide := Glide.at .mute

/-- The glide of a gain slot or generator level by the address of its target. -/
def State.gainAt (s : State) (a : Nat) : Glide := sparseGet muteGlide s.gains a

/-- `s` with a glide set. -/
def State.setGain (s : State) (a : Nat) (g : Glide) : State := { s with gains := sparseSet muteGlide s.gains a g }

/-- The glide length in force for a gain (Tables 8.3, 8.9). -/
def State.gainTicks (s : State) (a : Nat) : Nat :=
  let w := (s.reg (a + 4)).toNat
  if a < 0x50048000 ∧ bitOf w 30 then s.fld Fd.MIX_DEF_GLIDE_TICKS else bitsAt w 0 20

/-- Whether an address is the target of a gain slot, or of a generator level. -/
def isGainAddr (a : Nat) : Bool :=
  (0x50040000 ≤ a && a < 0x50048000 && a % 8 == 0) || (0x50056000 ≤ a && a < 0x50056400 && a % 64 == 4)

/-- A TARGET applies (R195, R196). -/
def State.aimGain (s : State) (a : Nat) : State :=
  s.setGain a ((s.gainAt a).request (Gain.ofCode (bitsAt (s.reg a).toNat 0 16)))

/-- One tick of a gain: a new target starts a glide, then the gain of the tick (R195, R196). -/
def State.stepGain (s : State) (a : Nat) : State :=
  let t := Gain.ofCode (bitsAt (s.reg a).toNat 0 16)
  s.setGain a (((s.gainAt a).request t).begin_ (s.gainTicks a)).step

/-- One tick of every gain. -/
def State.stepGains (s : State) : State :=
  let keys := (s.regs.map (·.1)).filter isGainAddr
  let more := (s.gains.map (·.1)).filter fun a => !keys.contains a
  (keys ++ more).foldl State.stepGain s

/-- The present gain of slot `i`; 0xFFFF is fixed unity. -/
def State.slotGain (s : State) (i : Nat) : Gain := if i = 0xFFFF then .db 0 1 else (s.gainAt (slotAddr i)).now

/-- Whether slot `i` inverts. -/
def State.slotInvert (s : State) (i : Nat) : Bool := i != 0xFFFF && bitOf (s.reg (slotAddr i + 4)).toNat 31

/-! ## Sources (01_architecture.md Table 1.4, R19; 03_serial_audio_ports.md R63; R123) -/

/-- Whether converter `i` is attached: enabled, or gliding out after ENABLE went to 0 (R126). -/
def State.asrcLive (s : State) (i : Nat) : Bool := s.asrcOn i || (at_ s.asrcs i Asrc.atReset).stopping

/-- The channel (4 × port + 2 × line + channel) of the port side of converter `i`, and whether it leads out of the fabric. -/
def State.asrcNode (s : State) (i : Nat) : Nat := (at_ s.asrcs i Asrc.atReset).node
def State.asrcOut (s : State) (i : Nat) : Bool := (at_ s.asrcs i Asrc.atReset).outward

/-- The converter that leads out of the fabric to port channel `c` (4 × port + 2 × line + channel). -/
def State.converterOf (s : State) (c : Nat) : Option Nat :=
  (List.range 64).find? fun i => s.asrcLive i && s.asrcOut i && s.asrcNode i == c

/-- Whether port channel `c` runs at rate Fc. -/
def State.chanAtFc (s : State) (c : Nat) : Bool := s.atFc (Fin.ofNat 32 (c / 4)) (Fin.ofNat 2 (c / 2))

/-- Whether a term of sink `sink` hears source `src`: the port-rate sides are heard only by their attachment terms, and a port sink at
another rate hears nothing else (03_serial_audio_ports.md R63; R123). -/
def State.hears (s : State) (sink src : Nat) : Bool :=
  let inConv := 0x0A0 ≤ sink && sink < 0x0E0 && s.asrcLive (sink - 0x0A0) && !s.asrcOut (sink - 0x0A0)
  if inConv then src == 0x010 + s.asrcNode (sink - 0x0A0)
  else if 0x090 ≤ src ∧ src < 0x0D0 ∧ s.asrcLive (src - 0x090) ∧ s.asrcOut (src - 0x090) then
    sink == 0x020 + s.asrcNode (src - 0x090)
  else if 0x020 ≤ sink ∧ sink < 0x0A0 ∧ !s.chanAtFc (sink - 0x020) then false
  else if 0x010 ≤ src ∧ src < 0x090 then s.chanAtFc (src - 0x010)
  else true

/-- What a source delivers now. -/
def State.source (s : State) (src : Nat) : Sample :=
  if src < 0x010 then at_ s.ainOut src Sample.zero
  else if src < 0x090 then at_ s.portSrc (src - 0x010) Sample.zero
  else if src < 0x0D0 then (at_ s.asrcs (src - 0x090) Asrc.atReset).output
  else if src < 0x110 then at_ s.fab.busOut (src - 0x0D0) Sample.zero
  else if src < 0x120 then at_ s.fab.genOut (src - 0x110) Sample.zero
  else if src < 0x124 then at_ s.senseOut (src - 0x120) Sample.zero
  else if src = 0x130 ∨ src = 0x131 then at_ s.injOut (src - 0x130) Sample.zero
  else Sample.zero

/-- What sink `sink` hears of a source. -/
def State.heard (s : State) (sink src : Nat) : Sample := if s.hears sink src then s.source src else Sample.zero

/-! ## Objects (R205–R208) -/

/-- `s` with the fabric changed. -/
def State.updFab (s : State) (f : Fab → Fab) : State := { s with fab := f s.fab }

/-- Whether the output of the object at `a` carries the settling mark. -/
def State.marked (s : State) (a : Nat) : Bool := sparseGet 0 s.fab.marks a != 0

abbrev Biquad.zero : Biquad := ⟨0, 0, 0, 0⟩
abbrev Dyn.zero : Dyn := ⟨0, 0, 0⟩

/-- One sample of a biquad: each product is rounded to 2^-39, the sum saturates (R159, R207)
(DEDUCED, notes/assumptions/27.md). -/
def State.runBiquad (s : State) (i : Nat) (shadow : Bool) (x : Int) : Int × Bool × State :=
  let q := sparseGet Biquad.zero (if shadow then s.fab.biquadsOld else s.fab.biquads) i
  let k (f : Fld) : Int := s.sfld f
  let px (c v : Int) : Int := roundEven (c * v) 20
  let py (c v : Int) : Int := roundEven (c * v) 28
  let p0 := Acc.zero.put (px (k (Fd.BIQUAD_B0_B0 i)) x)
  let a := p0.put (p0.v + px (k (Fd.BIQUAD_B1_B1 i)) q.x1)
  let b := a.put (a.v + px (k (Fd.BIQUAD_B2_B2 i)) q.x2)
  let c := b.put (b.v - py (k (Fd.BIQUAD_A1_A1 i)) q.y1)
  let d := c.put (c.v - py (k (Fd.BIQUAD_A2_A2 i)) q.y2)
  let nq : Biquad := ⟨x, q.x1, d.v, q.y1⟩
  let t := s.updFab fun f =>
    if shadow then { f with biquadsOld := sparseSet Biquad.zero f.biquadsOld i nq }
    else { f with biquads := sparseSet Biquad.zero f.biquads i nq }
  let (y, sat, u) := t.toQ31 d.v
  (y, sat || d.clipped, u)

/-- Units of 2^-16 / 128 dB in 1/128 dB. -/
abbrev dbUnit : Int := 65536

/-- The static reduction of R208 at a level `x`, in units of 2^-16 / 128 dB; a RANGE of mute is the deepest that GR holds, and silences
any sample (DESIGN CHOICE, notes/assumptions/23.md). -/
def State.staticGain (s : State) (i : Nat) (x : Int) : Int :=
  let th := s.sfld (Fd.DYN_THRESH_THRESH i) * dbUnit
  let r : Int := s.fld (Fd.DYN_RATIO_RATIO i)
  let k : Int := s.fld (Fd.DYN_KNEE_KNEE i) * dbUnit
  let range : Int := match Gain.ofCode (s.fld (Fd.DYN_RANGE_RANGE i)) with
    | .mute => -32768 * dbUnit
    | .db n _ => min 0 (n * dbUnit)
  let mode := s.fld (Fd.DYN_CTL_MODE i)
  let d := x - th
  -- the slope above or below the threshold: (num, den), on the active side
  let (num, den) : Int × Int := if mode = 0 then (r - 16, r) else if mode = 1 then (1, 1) else (r - 16, 16)
  let e := if mode ≤ 1 then d else -d
  let g : Int :=
    if mode = 3 then
      (if 2 * d < -k then range else if k ≤ 2 * d then 0 else range * ((k - 2 * d) * (k - 2 * d)) / (4 * k * k))
    else if 2 * e ≤ -k then 0
    else if k ≤ 2 * e then -(e * num / den)
    else -((2 * e + k) * (2 * e + k) * num / max 1 (8 * k * den))
  max range g

/-- The applied reduction of the next tick (R208 Smoothing)
(DESIGN CHOICE, notes/assumptions/23.md). -/
def State.smoothGain (s : State) (i : Nat) (q : Dyn) (target : Int) : Dyn :=
  if target = q.gr then { q with held := 0 }
  else if target < q.gr then
    { q with gr := clampInt target q.gr (onePole (s.fld (Fd.DYN_ATTACK_ATTACK i)) q.gr target), held := 0 }
  else if s.fld (Fd.DYN_CTL_MODE i) = 3 ∧ q.held < s.fld (Fd.DYN_HOLD_HOLD i) then { q with held := q.held + 1 }
  else { q with gr := clampInt q.gr target (onePole (s.fld (Fd.DYN_RELEASE_RELEASE i)) q.gr target) }

/-- One sample of a dynamics processor (R208). -/
def State.runDyn (s : State) (i sink : Nat) (shadow : Bool) (x : Int) : Int × Bool × State :=
  let q := sparseGet Dyn.zero (if shadow then s.fab.dynsOld else s.fab.dyns) i
  let v := if s.flag (Fd.DYN_CTL_SC_EN i) then (s.heard sink (s.fld (Fd.DYN_CTL_SC_SRC i))).v else x
  let rms := s.flag (Fd.DYN_CTL_DETECT i)
  let q1 : Dyn := if rms then
      { q with square := (onePole (s.fld (Fd.DYN_ATTACK_ATTACK i)) q.square (v * v)).toNat }
    else q
  let level := if rms then levelDb true q1.square else levelDb false v.natAbs
  let q2 := s.smoothGain i q1 (s.staticGain i level)
  let (gr, s1) := s.divFree q2.gr dbUnit
  let s2 := (if shadow then s1 else s1.setSfld (Fd.DYN_GR_GR i) (min 0 gr)).updFab fun f =>
    if shadow then { f with dynsOld := sparseSet Dyn.zero f.dynsOld i q2 } else { f with dyns := sparseSet Dyn.zero f.dyns i q2 }
  let total : Gain := match Gain.ofCode (s.fld (Fd.DYN_MAKEUP_MAKEUP i)) with
    | .mute => .mute
    | .db n _ => Gain.norm (.db (q2.gr + n * dbUnit) 65536)
  s2.toQ31 (mulGain total x)

/-! ## Delay lines (R209–R213) -/

/-- The MAXLEN in force of a tap: at most Fc samples. -/
def State.tapMax (s : State) (i : Nat) : Nat := min (s.fld (Fd.DELAY_MAXLEN_MAXLEN i)) s.fc

/-- The granules that the line of a tap needs (R209). -/
def State.tapNeed (s : State) (i : Nat) : Nat := ceilDiv (s.tapMax i + 1) 64

/-- Allocates the line of a tap, empty (R210, R212) (DESIGN CHOICE, notes/assumptions/47.md). -/
def State.allocLine (s : State) (i : Nat) : State :=
  if s.dlines.any (·.tap == i) then s
  else
    let l : DLine := ⟨i, s.tapMax i, s.takeGranules (s.tapNeed i), 0, 0, false, min (s.fld (Fd.DELAY_DELAY_DELAY i)) (s.tapMax i),
      [], 0, 0, false⟩
    { s with dlines := s.dlines ++ [l] }

/-- The address of slot `j` of a line. -/
def DLine.addr (l : DLine) (j : Nat) : Nat :=
  let c := max 1 (64 * l.granules.length)
  let k := j % c
  0x60000000 + l.granules.getD (k / 64) 0 * 256 + k % 64 * 4

/-- Whether the AMEM domain of slot `j` of a line is ON. -/
def State.slotOn (s : State) (l : DLine) (j : Nat) : Bool := s.domOn (Dm.AMEM ((l.addr j - 0x60000000) / 0x40000))

/-- The sample `d` older than the one written next, whose running value is `x`. -/
def State.lineRead (s : State) (l : DLine) (d : Nat) (x : Sample) : Sample :=
  if d = 0 then x
  else if d ≤ l.filled ∧ s.slotOn l (l.wpos + 64 * l.granules.length - d) then
    sampleImage true (s.bytesAt (l.addr (l.wpos + 64 * l.granules.length - d)) 4)
  else Sample.silence

/-- The mix of an older value and a newer sample, of weight `n / d`, as fractions (R213). -/
def mixIn (a : Int × Int × Tag) (x : Sample) (n d : Nat) : Int × Int × Tag :=
  let (an, ad, t) := a
  (an * (d - n : Nat) + x.v * n * ad, ad * d,
    { valid := t.valid || x.tag.valid, settling := t.settling || x.tag.settling, synth := t.synth || x.tag.synth,
      xover := t.xover || x.tag.xover, clipped := t.clipped || x.tag.clipped, u := x.tag.u, c := x.tag.c,
      blockStart := x.tag.blockStart })

/-- The mix of the read points that a crossfade comes from. -/
def State.oldMix (s : State) (l : DLine) (x : Sample) : Int × Int × Tag :=
  match l.olds with
  | [] => (0, 1, Tag.clear)
  | (d, _, _) :: rest =>
    let r := s.lineRead l d x
    rest.foldl (fun a e => mixIn a (s.lineRead l e.1 x) e.2.1 e.2.2) (r.v, 1, r.tag)

/-- A line whose tap has another DELAY begins a crossfade from its present mix (R213)
(DESIGN CHOICE, notes/assumptions/47.md). -/
def State.aimLine (s : State) (l : DLine) : DLine :=
  let d := min (s.fld (Fd.DELAY_DELAY_DELAY l.tap)) l.maxlen
  if d = l.delay then l
  else
    let x := s.fld (Fd.DELAY_CTL_XFADE l.tap)
    if x = 0 then { l with delay := d, olds := [], left := 0, total := 0 }
    else
      let w := if l.left = 0 then (1, 1) else (l.total - l.left, l.total + 1)
      { l with delay := d, olds := (if l.left = 0 then [] else l.olds) ++ [(l.delay, w.1, w.2)], left := x, total := x }

/-- The sample that a line delivers in this tick for the running value `x`. -/
def State.lineOut (s : State) (l : DLine) (x : Sample) : Sample × State :=
  let r := s.lineRead l l.delay x
  if l.left = 0 then (r, s)
  else
    let (n, d, t) := mixIn (s.oldMix l x) r (l.total - l.left + 1) (l.total + 1)
    let (v, u) := s.divFree n d
    (⟨clampInt sampleMin sampleMax v, t⟩, u)

/-- A tap's run: the sample it delivers; with `write` the running value enters its line. -/
def State.runTap (s : State) (i : Nat) (x : Sample) (write : Bool) : Sample × State :=
  match s.dlines.find? (·.tap == i) with
  | none => (Sample.silence, s)
  | some l0 =>
    let l := s.aimLine l0
    let (y, t) := s.lineOut l x
    if write then
      let c := max 1 (64 * l.granules.length)
      let u := if t.slotOn l l.wpos then t.setBytes (l.addr l.wpos) (bytesLE 4 (word24 x.v * 256 + x.tag.code)) else t
      let l1 : DLine := { l with wpos := (l.wpos + 1) % c, filled := min (l.filled + 1) c, left := l.left - 1 }
      (y, { u with dlines := u.dlines.map fun e => if e.tap = i then l1 else e })
    else (y, t)

/-! ## Buses (R199–R204) -/

/-- The scale target of Table 8.4 for N_USED in units of 2^-20 / 128 dB. -/
def scaleDb (law n : Nat) : Int :=
  if n ≤ 1 ∨ law = 0 ∨ law = 3 then 0
  else
    let db : Nat := (fxLog2 n * (20 * 128 * 2 ^ 20) + fxLog10 / 2) / fxLog10
    if law = 1 then -(db : Int) else -((db : Int) / 2)

/-- The scale factor aimed at. -/
def scaleTarget (law n : Nat) : Gain := Gain.norm (.db (scaleDb law n) (2 ^ 20))

/-- The scale state of a bus after a tick with count `n` (R200, R202). -/
def BusScale.run (b : BusScale) (n law hold ticks : Nat) : BusScale :=
  let used := (b.counts.take (hold - 1)).foldl max n
  { counts := (n :: b.counts).take 510, used := used, factor := (b.factor.retarget (scaleTarget law used) ticks).step, scaled := true }

/-- The scale state of a bus after a tick in which its SCALE item did not complete: N_USED stands, the tick counts none, and the
factor's glide goes on (DESIGN CHOICE, notes/assumptions/46.md). -/
def BusScale.pass (b : BusScale) : BusScale :=
  { b with counts := (0 :: b.counts).take 510, factor := b.factor.step, scaled := true }

/-- One SCALE item of bus `b` with count `n`: its state in this tick. -/
def State.runScale (s : State) (b n : Nat) (shadow : Bool) : Gain × State :=
  let idle : BusScale := ⟨[], 0, Glide.at (.db 0 1), false⟩
  let q := at_ (if shadow then s.fab.busesOld else s.fab.buses) b idle
  let r := q.run n (s.fld (Fd.MIX_BUS_CFG_LAW b)) (max 1 (s.fld (Fd.MIX_BUS_CFG_HOLD b))) (s.fld (Fd.MIX_BUS_CFG_GLIDE b))
  (r.factor.now, s.updFab fun f =>
    if shadow then { f with busesOld := upd f.busesOld b fun _ => r } else { f with buses := upd f.buses b fun _ => r })

/-! ## Programs (R170, R171, R180) -/

/-- A program under way: the state, its sink, whether it is the old run of a crossing sink, the running value, the count
of R199, and the samples that taps delivered to the new run. -/
structure Run where
  s : State
  sink : Nat
  old : Bool
  acc : Acc
  count : Nat
  scaled : Bool
  taps : List (Nat × Sample)

/-- Whether an object is in the running piste, so that an old run has a shadow of it. -/
def State.inNew (s : State) (x : Item) : Bool :=
  match s.fab.run with
  | some p => p.progs.any fun q => q.items.contains x
  | none => false

/-- The running value as an object takes it. -/
def Run.input (r : Run) : Int × Run :=
  let (x, sat, t) := r.s.toQ31 r.acc.v
  (x, { r with s := t, acc := { r.acc with clipped := r.acc.clipped || sat } })

/-- The running value that an object returns. -/
def Run.output (r : Run) (y : Int) (sat : Bool) (mark : Bool) (t : State) : Run :=
  { r with s := t, acc := { r.acc with v := y * 256, clipped := r.acc.clipped || sat, settling := r.acc.settling || mark } }

/-- The running value past a bypassed object: unchanged (R206), with the object's settling mark (R205). -/
def Run.bypass (r : Run) (mark : Bool) : Run := { r with acc := { r.acc with settling := r.acc.settling || mark } }

/-- One item of a program. -/
def Run.item (r : Run) (x : Item) : Run :=
  match x with
  | .term src slot =>
    let g := r.s.slotGain slot
    let y := r.s.heard r.sink src
    let p := mulGain g y.v
    let a := r.acc.put (r.acc.v + (if r.s.slotInvert slot then -p else p))
    if g.active then { r with acc := a.merge y.tag, count := if y.tag.valid && !r.scaled then r.count + 1 else r.count }
    else { r with acc := a }
  | .biquad i =>
    let m := r.s.marked (biquadAddr i)
    if r.s.flag (Fd.BIQUAD_CTL_BYPASS i) then r.bypass m
    else
      let (v, r1) := r.input
      let (y, sat, t) := r1.s.runBiquad i (r.old && r.s.inNew x) v
      r1.output y sat m t
  | .dynamics i =>
    let m := r.s.marked (dynAddr i)
    if r.s.flag (Fd.DYN_CTL_BYPASS i) then r.bypass m
    else
      let (v, r1) := r.input
      let (y, sat, t) := r1.s.runDyn i r.sink (r.old && r.s.inNew x) v
      r1.output y sat m t
  | .delay i =>
    let (v, r1) := r.input
    let shared := r.old && r.s.inNew x
    let (y, t) := match (if shared then r.taps.find? (·.1 == i) else none) with
      | some e => (e.2, r1.s)
      | none => r1.s.runTap i ⟨v, r1.acc.tag⟩ (!shared)
    { r1 with s := t, acc := r1.acc.replace y (t.marked (tapAddr i)), taps := (i, y) :: r1.taps }
  | .scale =>
    let (g, t) := r.s.runScale (r.sink - 0x0E0) r.count r.old
    { r with s := t, acc := r.acc.put (mulAcc g r.acc.v), scaled := true }

/-- The result of a program of sink `sink`, with the state after it and the samples its taps delivered. -/
def State.runProg (s : State) (sink : Nat) (items : List Item) (old : Bool) (taps : List (Nat × Sample)) :
    Sample × State × List (Nat × Sample) :=
  let r := items.foldl Run.item ⟨s, sink, old, Acc.zero, 0, false, taps⟩
  let (v, sat, t) := r.s.toQ31 r.acc.v
  let a : Acc := { r.acc with clipped := r.acc.clipped || sat }
  (if a.n = 0 then Sample.zero else ⟨v, a.tag⟩, t, r.taps)

/-! ## Generators (R214, R215) -/

/-- The seed of generator `j`; 0 is stored as 1 (Table 8.9). -/
abbrev State.genSeed (s : State) (j : Nat) : Nat := s.fld (Fd.GEN_SEED_SEED j)

/-- One sample of generator `j` (R214, R215); a sweep whose SWEEP is shortened below the ticks it has run is at its end
(DESIGN CHOICE, notes/assumptions/23.md). -/
def State.runGen (s : State) (j : Nat) : Sample × State :=
  let q := at_ s.fab.gens j Gen.fresh
  let kind := s.fld (Fd.GEN_CTL_KIND j)
  let freq := s.fld (Fd.GEN_FREQ_FREQ j)
  let sweep := glideTicks (s.fld (Fd.GEN_SWEEP_SWEEP j))
  let fEnd := s.fld (Fd.GEN_FREQ_END_FREQ_END j)
  let sweeps := kind == 7 && !q.ended
  let swept := if sweeps && decide (q.swept < sweep) then q.swept + 1 else q.swept
  let ends := sweeps && decide (sweep ≤ swept)
  let inc := if kind = 7 then (if q.ended ∨ sweep ≤ q.swept then fEnd else sweepInc freq fEnd sweep q.swept) else freq
  let wrapped := 2 ^ 32 ≤ q.phase + inc
  let g := (s.gainAt (genAddr j + 4)).now
  let (n, d) := g.frac
  let peak := levelCode n d
  let noisy := kind = 3 ∨ kind = 4
  let raw : Int :=
    if noisy then clampInt (-peak) peak (Config.noise (kind == 4) q.seed q.drawn peak)
    else if kind = 6 then (if wrapped then peak else 0)
    else waveCode (if kind = 7 then 1 else kind) q.phase n d
  let x := clampInt sampleMin sampleMax raw
  let on := kind != 0 && g != .mute
  let q1 : Gen := { q with phase := (q.phase + inc) % 2 ^ 32, swept := swept, atEnd := q.atEnd || ends,
                           ended := q.ended || ends, drawn := if noisy then q.drawn + 1 else q.drawn }
  let t := s.updFab fun f => { f with gens := upd f.gens j fun _ => q1 }
  (if on then ⟨x, { Tag.genuine with clipped := decide (0 < n) && x != raw }⟩ else Sample.zero, t)

end Sys2Proof.Machine
end

