-- ==== Sys2Proof/Machine/JackOps.lean ====
section
/-!
DEFINITION. Shared operations of the outputs, the jacks and the test DAC: fades, ground poles, classification results, rule
triggers, the queue of the test DAC (09_line_headphone_jacks.md, 11_housekeeping_converter.md R282–R284).
-/
namespace Sys2Proof.Machine

/-! ## Outputs -/

abbrev aoutPage (n : Nat) : Nat := 0x050 + n
abbrev hpPage (h : Nat) : Nat := 0x060 + h
abbrev jackPage : Nat := 0x014

/-- The index of an output among the outputs. -/
def outIndex : OutId → Fin 20
  | .line n => ⟨n.val, by omega⟩
  | .hp h => ⟨16 + h.val, by omega⟩

/-- The page of an output. -/
def outPage : OutId → Nat
  | .line n => aoutPage n
  | .hp h => hpPage h

/-- The states of an output (R226). -/
inductive OutState where
  | off | starting | ready | stopping | fault
deriving DecidableEq, Repr

/-- The code of an output state (Tables 9.6, 9.9). -/
def OutState.code : OutState → Nat
  | .off => 0
  | .starting => 1
  | .ready => 2
  | .stopping => 3
  | .fault => 4

/-- The output state of a code. -/
def OutState.ofCode : Nat → OutState
  | 1 => .starting
  | 2 => .ready
  | 3 => .stopping
  | 4 => .fault
  | _ => .off

/-- The STATE field of an output. -/
def outStateFld : OutId → Fld
  | .line n => Fd.AOUT_STATUS_STATE n
  | .hp h => Fd.HP_STATUS_STATE h

/-- The state of an output. -/
def State.outState (s : State) (o : OutId) : OutState := OutState.ofCode (s.fld (outStateFld o))

/-- `s` with an output in a state. -/
def State.setOutState (s : State) (o : OutId) (t : OutState) : State := s.setFld (outStateFld o) t.code

/-- `s` with an output changed. -/
def State.updOut (s : State) (o : OutId) (f : Out → Out) : State := { s with outs := s.outs.set (outIndex o) (f s.outs[outIndex o]) }

/-- The registers of the gains of an output, the page of its sinks (R218). -/
def outGains : OutId → List Nat
  | .line n => [Adr.AOUT_GAIN n]
  | .hp h => [Adr.HP_GAIN h 0, Adr.HP_GAIN h 1]

/-- The glide length of an output. -/
def State.outGlide (s : State) (o : OutId) : Nat :=
  match o with
  | .line n => s.fld (Fd.AOUT_GLIDE_TICKS n)
  | .hp h => s.fld (Fd.HP_GLIDE_TICKS h)

/-- Whether the domains an output needs are ON (01_architecture.md Table 1.9). -/
def State.outUp (s : State) (o : OutId) : Bool :=
  match o with
  | .line n => s.domOn (Dm.AOUT (n.val / 8))
  | .hp _ => s.domOn Dm.HP && s.domOn Dm.HKA

/-! ## The test DAC (R282–R284) -/

abbrev tdacPage : Nat := 0x018

/-- Where a request stands among those of one tick (R283). -/
def TdacUser.rank : TdacUser → Nat
  | .diag n _ => n
  | .jack j => 100 + j
  | .host _ => 200

/-- Puts a request of tick `k` into the queue. -/
def tdacInsert (k : Nat) (x : TdacUser) : List (Nat × TdacUser) → List (Nat × TdacUser)
  | [] => [(k, x)]
  | (j, y) :: l => if j = k ∧ x.rank < y.rank then (k, x) :: (j, y) :: l else (j, y) :: tdacInsert k x l

/-- A request joins the queue; one already in it is not doubled. -/
def State.tdacEnqueue (s : State) (x : TdacUser) : State :=
  if s.tdacQ.any (·.2 == x) then s else { s with tdacQ := tdacInsert s.ticks x s.tdacQ }

/-- A request leaves the queue. -/
def State.tdacUnqueue (s : State) (x : TdacUser) : State := { s with tdacQ := s.tdacQ.filter (·.2 != x) }

/-- Whether the queue can serve its head: the test DAC is free and HKA is READY (R283, R285). -/
def State.tdacFree (s : State) : Bool := s.tdacOwner.isNone && s.domOn Dm.HKA && s.flag Fd.HKA_STATUS_READY

/-! ## The cores of the HKA (11_housekeeping_converter.md R266–R274) -/

abbrev hkseqPage : Nat := 0x017

/-- Whether the HKA converts: its domain is ON and it is READY (R285). -/
abbrev State.hkaRuns (s : State) : Bool := s.domOn Dm.HKA && s.flag Fd.HKA_STATUS_READY

/-- Whether a channel code is reserved, or that of the empty record (R263, R278). -/
abbrev chanReserved (c : Nat) : Bool := 0x3D ≤ c

/-- The fields of a word of an entry or of URGENT. -/
abbrev entryChan (w : Nat) : Nat := bitsAt w 0 6
abbrev entrySkip (w : Nat) : Bool := bitOf w 8
abbrev entryAvg (w : Nat) : Nat := bitsAt w 12 4

/-- The mains period T in µs in force; none where MAINS.SEL = 2 has measured nothing yet (R269)
(DESIGN CHOICE, notes/assumptions/50.md). -/
def State.mainsT (s : State) : Option Nat :=
  match s.fld Fd.HKA_MAINS_SEL with
  | 0 => some 20000
  | 1 => some 16667
  | _ =>
    if s.flag Fd.HKA_STATUS_MAINS_LOST then some 20000
    else if s.fld Fd.HKA_MAINS_PERIOD = 0 then none
    else some (s.fld Fd.HKA_MAINS_PERIOD)

/-- The state codes of SEQx_STAT. -/
abbrev seqOff := 0
abbrev seqArmed := 1
abbrev seqWaiting := 2
abbrev seqRunning := 3

abbrev State.seqState (s : State) (x : Fin 3) : Nat := s.fld (Fd.HKSEQ_SEQ_STAT_STATE x)
def State.setSeqState (s : State) (x : Fin 3) (k : Nat) : State := s.setFld (Fd.HKSEQ_SEQ_STAT_STATE x) k

/-- `s` with a sequence changed. -/
def State.updSeq (s : State) (x : Fin 3) (f : Seq → Seq) : State :=
  { s with hka := { s.hka with seqs := s.hka.seqs.set x (f s.hka.seqs[x]) } }

/-- The sequence whose run occupies a core (0 pipeline, 1 integrating). -/
def State.seqOn (s : State) (mode : Nat) : Option (Fin 3) :=
  (List.finRange 3).find? fun x => s.seqState x == seqRunning && s.hka.seqs[x].integ == (mode == 1)

/-- Whether an urgent request is pending: a pre-check, a job of the test DAC, or a host's. -/
def State.pipeBusy (s : State) : Bool :=
  s.hka.urg.isSome || s.amps.any (fun (a : Amp) => a.step == .precheck) || (match s.tdacOwner with
    | some (.diag _ _) | some (.jack _) => true
    | some (.host _) | none => false)

/-- Another reading takes the input of the pipeline core: channel `c`, or an internal one, which waits for the conversion of a host
request.  The conversion of a sequence in progress is preempted (R274) (DESIGN CHOICE, notes/assumptions/50.md). -/
def State.pipePreempt (s : State) (c : Option Nat) : State :=
  let t := if c.isNone && s.hka.urg.isSome then s else { s with hka := { s.hka with pipe := c } }
  match t.seqOn 0 with
  | some x => t.updSeq x fun q => { q with preempted := q.preempted || !q.due }
  | none => t

/-- The entry of a run at or after `i` that names a channel; one that names a reserved channel since the check converts nothing
(DESIGN CHOICE, notes/assumptions/88.md). -/
def State.entryFrom (s : State) (x : Fin 3) (i : Nat) : Option Nat :=
  (List.range 64).find? fun k =>
    i ≤ k && k < s.fld (Fd.HKSEQ_SEQ_CFG_FIRST x) + s.fld (Fd.HKSEQ_SEQ_CFG_COUNT x) && !chanReserved (s.fld (Fd.HKSEQ_ENTRY_CHAN k))

/-- The input of the pipeline core goes to the channel of the entry in progress. -/
def State.entryInput (s : State) (x : Fin 3) : State :=
  { s with hka := { s.hka with pipe := some (entryChan s.hka.seqs[x].word) } }

/-- Entry `i` of a run starts: its word as it stands, and the switch of its input; on the pipeline core it waits for urgent work.  One
that follows an entry whose last sample had been taken when the request came has begun by then, and is preempted (R266, R274). -/
def State.entryStart (s : State) (x : Fin 3) (i : Nat) : State :=
  let w := (s.reg (Adr.HKSEQ_ENTRY i)).toNat
  let t := s.setFld (Fd.HKSEQ_SEQ_STAT_ENTRY x) i
  if s.hka.seqs[x].integ then t.updSeq x fun q => { q with word := w, t := s.mainsT }
  else if s.pipeBusy then t.updSeq x fun q => { q with word := w, due := true }
  else
    (t.updSeq x fun q =>
      { q with word := w, switched := s.hka.pipe != some (entryChan w), preempted := false, due := false }).entryInput x

/-- A run has converted its last entry: ARMED, counted, DONE (R272). -/
def State.runEnd (s : State) (x : Fin 3) : State :=
  ((s.setSeqState x seqArmed).countWrap (Fd.HKSEQ_SEQ_STAT_RUNS x) 1).raise hkseqPage x

/-- A run of sequence `x` begins with the first entry from FIRST on that converts anything, or ends at once (R272). -/
def State.runBegin (s : State) (x : Fin 3) : State :=
  match s.entryFrom x (s.fld (Fd.HKSEQ_SEQ_CFG_FIRST x)) with
  | some i => s.entryStart x i
  | none => s.runEnd x

/-- A free core takes the first sequence that waits for it; the pipeline core serves urgent work before it (R272, R273). -/
def State.seqServeOne (s : State) (mode : Nat) : State :=
  if !s.hkaRuns || (s.seqOn mode).isSome || (mode == 0 && s.pipeBusy) then s
  else match s.hka.ready.find? fun (e : Fin 3 × Nat) => s.fld (Fd.HKSEQ_SEQ_CFG_MODE e.1) == mode with
    | some (x, k) =>
      let t := { s with hka := { s.hka with ready := s.hka.ready.filter (·.1 != x) } }
      let u := (t.setSeqState x seqRunning).updSeq x fun q =>
        { q with integ := mode == 1, ending := false, rearm := false, preempted := false, due := false, delayEnd := k }
      u.runBegin x
    | none => s

/-- A core takes the next sequence; one whose entries convert nothing gives it to the next. -/
def State.seqServe (s : State) (mode : Nat) : State := ((s.seqServeOne mode).seqServeOne mode).seqServeOne mode

/-- Both cores. -/
def State.seqServeAll (s : State) : State := (s.seqServe 0).seqServe 1

/-- With no urgent request pending, a preempted conversion starts afresh and is counted, an entry that waits begins, or a waiting
sequence runs (R272, R274) (DESIGN CHOICE, notes/assumptions/50.md). -/
def State.pipeResume (s : State) : State :=
  if s.pipeBusy then s
  else match s.seqOn 0 with
    | some x =>
      let q : Seq := s.hka.seqs[x]
      if q.due && !q.preempted then
        (match s.entryFrom x (s.fld (Fd.HKSEQ_SEQ_STAT_ENTRY x)) with
          | some i => s.entryStart x i
          | none => (s.runEnd x).seqServe 0)
      else if q.preempted then
        ((s.updSeq x fun q => { q with preempted := false, due := false, switched := true }).entryInput x).countSat (Fd.HKSEQ_SEQ_CNT_PREEMPT x) 1
      else s
    | none => s.seqServe 0

/-! ## Routes of the test DAC -/

/-- The headphone output that a route names, and the input leg that one names (R282). -/
def routeHp (r : Nat) : Option (Fin 4) := if 0x21 ≤ r ∧ r ≤ 0x28 then some (Fin.ofNat 4 ((r - 0x21) / 2)) else none
def routeAin (r : Nat) : Option (Fin 16) := if 0x01 ≤ r ∧ r ≤ 0x20 then some (Fin.ofNat 16 (r - 1)) else none

/-- Whether a host route holds headphone output `h` silent (R284). -/
def State.hostHolds (s : State) (h : Fin 4) : Bool :=
  (match s.tdacOwner with
    | some (.host _) => true
    | _ => false) && (routeHp s.tdac.goal == some h || routeHp (s.fld Fd.TDAC_STATUS_ROUTE) == some h)

/-! ## The internal fade (R222) -/

/-- The jack of a headphone output. -/
abbrev hpJack (h : Fin 4) : Fin 20 := ⟨16 + h.val, by omega⟩

/-- Whether a load test of the jack of headphone output `h` runs. -/
def State.loadTests (s : State) (h : Fin 4) : Bool :=
  s.tdacOwner == some (.jack (hpJack h)) && (match s.jacks[hpJack h].step with
    | .loadTest _ => true
    | .idle | .svcWait | .diag | .poleWait | .poleTest | .loadHold _ | .loadWait _ => s.jacks[hpJack h].stale == some true)

/-- Whether headphone output `h` must stay silent. -/
def State.hpHeld (s : State) (h : Fin 4) : Bool :=
  s.loadTests h || s.hostHolds h || s.outState (.hp h) == .fault
    || s.outs[outIndex (.hp h)].pole != s.flag (Fd.HP_STATUS_POLE h)

/-- The internal fade of a headphone output begins where it must be silent
(DESIGN CHOICE, notes/assumptions/49.md). -/
def State.hpFade (s : State) (h : Fin 4) : State :=
  if s.hpHeld h then
    match s.outs[outIndex (.hp h)].phase with
    | .opened | .into _ => s.updOut (.hp h) fun o => { o with phase := .out 32, level := o.level.aim .mute 32 }
    | .out _ | .silent => s
  else s

/-- A silent output that need not stay so fades back in. -/
def State.hpUnfade (s : State) (h : Fin 4) : State :=
  if s.outs[outIndex (.hp h)].phase == .silent && !s.hpHeld h then
    s.updOut (.hp h) fun o => { o with phase := .into 32, level := o.level.aim (.db 0 1) 32 }
  else s

/-! ## The ground pole (R221) -/

/-- The pole that CTRL and the class of the jack select. -/
def State.poleWanted (s : State) (h : Fin 4) : Bool :=
  let k := s.fld (Fd.HP_CTRL_GND_POLE h)
  if k = 1 then false
  else if k = 2 then true
  else
    let c := s.fld (Fd.JACK_JSTAT_CLASS (16 + h.val))
    if c = 7 then true else if c = 5 ∨ c = 6 ∨ c = 8 then false else s.outs[outIndex (.hp h)].pole

/-- The pole in use follows: beneath the internal fade while READY, else at once (R221, R222)
(DESIGN CHOICE, notes/assumptions/49.md). -/
def State.poleFollow (s : State) (h : Fin 4) : State :=
  let w := s.poleWanted h
  let t := s.updOut (.hp h) fun o => { o with pole := w }
  if t.outState (.hp h) = .ready && t.outs[outIndex (.hp h)].phase != .silent then t.hpFade h
  else t.setFld (Fd.HP_STATUS_POLE h) (bit w)

/-! ## Classification and rule triggers (R230–R234) -/

/-- A trigger waits for the tick that comes (R236). -/
def State.trigger (s : State) (j : Fin 20) (k : TrigKind) : State := { s with jackTrig := s.jackTrig ++ [(j, k)] }

/-- Whether the service image runs (17_boot_images_recovery.md R383). -/
def State.inService (s : State) : Bool := s.fld Fd.SYS_MODE_MODE == 1

/-- Whether the service image can work: its domains are ON (01_architecture.md Table 1.9). -/
def State.svcUp (s : State) : Bool := s.domOn Dm.CORE && s.domOn Dm.CMEM

/-- `s` with a jack changed. -/
def State.updJack (s : State) (j : Fin 20) (f : Jack → Jack) : State := { s with jacks := s.jacks.set j (f s.jacks[j]) }

/-- A final code is written (R230), and the pole follows it. -/
def State.classFinal (s : State) (j : Fin 20) (code : Nat) : State :=
  let t := ((s.setFld (Fd.JACK_JSTAT_CLASS j) code).countWrap (Fd.JACK_JSTAT_SEQ j) 1).raise jackPage 2
  let u := (t.updJack j fun q => { q with step := .idle }).trigger j (.classified code)
  if 16 ≤ j.val then u.poleFollow (Fin.ofNat 4 (j.val - 16)) else u

/-- The class of a combo jack from the code of its diagnosis and RD (R231). -/
def comboClass (code rd : Nat) : Nat :=
  if code = 3 ∧ 1000 < rd then 4
  else if code = 3 ∧ 50 ≤ rd then 2
  else if code = 3 then 9
  else if code = 8 ∨ code = 9 ∨ code = 0xA then 4
  else if code = 7 ∨ code = 0xB then 9
  else if code = 4 then 0xA
  else 1

/-- The classifier's diagnosis of input `n` has ended with a code; the result of an insertion that has ended is discarded
(R231, R233), and that of one that ends while the domains of the service image are not ON is taken again when they are
(DESIGN CHOICE, notes/assumptions/88.md). -/
def State.classDiag (s : State) (n : Fin 16) (code : Nat) : State :=
  let j : Fin 20 := ⟨n.val, by omega⟩
  if s.jacks[j].stale.isSome then s.updJack j fun q => { q with stale := none }
  else if s.jacks[j].step = .diag then
    if s.svcUp then s.classFinal j (comboClass code (s.fld (Fd.AIN_DIAG_RD_OHMS n)))
    else s.updJack j fun q => { q with step := .svcWait }
  else s

/-- The class of a headphone jack from its pole and its loads (R232); two loads of exactly 1 kΩ are a LINE_LOAD, the class named first
(DEDUCED, notes/assumptions/87.md). -/
def loadClass (k : PoleKind) (l r : Nat) : Nat :=
  if l < 8 ∨ r < 8 then 9
  else if 50000 < l ∧ 50000 < r then 0xA
  else if 1000 ≤ l ∧ 1000 ≤ r ∧ l ≤ 50000 ∧ r ≤ 50000 then 6
  else if l ≤ 1000 ∧ r ≤ 1000 then (match k with
    | .three => 5
    | .omtp => 8
    | .ctia => 7)
  else 1

/-- A load test that waited for its output joins the queue when the output is READY (R232). -/
def State.loadQueue (s : State) (h : Fin 4) : State :=
  let j := hpJack h
  match s.jacks[j].step with
  | .loadHold k =>
    if s.outState (.hp h) = .ready then (s.updJack j fun q => { q with step := .loadWait k }).tdacEnqueue (.jack j) else s
  | .idle | .svcWait | .diag | .poleWait | .poleTest | .loadWait _ | .loadTest _ => s

end Sys2Proof.Machine
end

