-- ==== Sys2Proof/Machine/Ain.lean ====
section
/-!
DEFINITION. Microphone and line inputs and their commands (06_microphone_and_line_inputs.md).
-/
namespace Sys2Proof.Machine

/-- The page of input `n`. -/
abbrev ainPage (n : Nat) : Nat := 0x040 + n

/-! Event bits of an AIN page (Table 6.15). -/

namespace AinEv
abbrev READY := 0
abbrev OFF := 1
abbrev STEP_FORCED := 2
abbrev CLIP := 3
abbrev CM_EXCURSION := 4
abbrev PH_ON := 5
abbrev PH_DENIED := 6
abbrev PH_OVERLOAD := 7
abbrev PH_FOLDED := 8
abbrev DIAG_DONE := 9
end AinEv

/-- The states of a channel (R155). -/
inductive AinState where
  | off | starting | ready | stopping
deriving DecidableEq, Repr

/-- The code of a channel state. -/
def AinState.code : AinState → Nat
  | .off => 0
  | .starting => 1
  | .ready => 2
  | .stopping => 3

/-- The channel state of a code. -/
def AinState.ofCode : Nat → AinState
  | 1 => .starting
  | 2 => .ready
  | 3 => .stopping
  | _ => .off

/-- The phantom states of an input (Table 6.11). -/
inductive PhState where
  | off | rampUp | settle | on | rampDown | denied | overload | folded
deriving DecidableEq, Repr

/-- The code of a phantom state. -/
def PhState.code : PhState → Nat
  | .off => 0
  | .rampUp => 1
  | .settle => 2
  | .on => 3
  | .rampDown => 4
  | .denied => 5
  | .overload => 6
  | .folded => 7

/-- The phantom state of a code. -/
def PhState.ofCode : Nat → PhState
  | 1 => .rampUp
  | 2 => .settle
  | 3 => .on
  | 4 => .rampDown
  | 5 => .denied
  | 6 => .overload
  | 7 => .folded
  | _ => .off

/-- The state of channel `n`, and that of its phantom. -/
def State.ainState (s : State) (n : Fin 16) : AinState := AinState.ofCode (s.fld (Fd.AIN_STATUS_STATE n))
def State.phState (s : State) (n : Fin 16) : PhState := PhState.ofCode (s.fld (Fd.AIN_STATUS_PH_STATE n))

/-- `s` with channel `n` in a state, or its phantom in one. -/
def State.setAinState (s : State) (n : Fin 16) (t : AinState) : State := s.setFld (Fd.AIN_STATUS_STATE n) t.code
def State.setPh (s : State) (n : Fin 16) (t : PhState) : State := s.setFld (Fd.AIN_STATUS_PH_STATE n) t.code

/-- `s` with input `n` changed. -/
def State.updAin (s : State) (n : Fin 16) (f : Ain → Ain) : State := { s with ains := s.ains.set n (f s.ains[n]) }

/-- Whether an input runs: its domain and HKA are ON (01_architecture.md R22). -/
def State.ainRuns (s : State) (n : Fin 16) : Bool := s.domOn (Dm.AIN (n.val / 4)) && s.domOn Dm.HKA

/-! ## Fades (R139, R155) -/

/-- A fade to or from silence over 32 ticks, from the present level. -/
def Ain.fadeOut (a : Ain) : Ain := { a with phase := .out 32, level := a.level.aim .mute 32 }
def Ain.fadeIn (a : Ain) : Ain := { a with phase := .into 32, level := a.level.aim (.db 0 1) 32 }

/-- Sets MUTED_AUTO from the fade of a channel. -/
def State.syncMuted (s : State) (n : Fin 16) : State :=
  let quiet : Bool := match s.ains[n].phase with
    | .out _ | .silent => true
    | .opened | .into _ => false
  s.setFld (Fd.AIN_STATUS_MUTED_AUTO n) (bit (quiet && s.ainState n == .ready))

/-- A cause of an auto-mute begins (R139): one during an auto-mute adds no second fade. -/
def State.muteCause (s : State) (n : Fin 16) (c : MuteCause) : State :=
  let t := s.updAin n fun a => { a with causes := if a.causes.contains c then a.causes else a.causes ++ [c] }
  if t.ainState n == .ready then
    let u := match t.ains[n].phase with
      | .opened | .into _ => t.updAin n Ain.fadeOut
      | .out _ | .silent => t
    u.syncMuted n
  else t

/-- A cause ends; a silent READY channel without a cause glides back in (R139). -/
def State.muteEnd (s : State) (n : Fin 16) (c : MuteCause) : State :=
  let t := s.updAin n fun a => { a with causes := a.causes.filter (· != c) }
  if t.ainState n == .ready && t.ains[n].causes.isEmpty && t.ains[n].phase == .silent then (t.updAin n Ain.fadeIn).syncMuted n
  else t

/-! ## Gain (R143–R146) -/

/-- The requested gain in units of 1/128 dB. -/
def State.ainTarget (s : State) (n : Fin 16) : Int := 64 * s.fld (Fd.AIN_GAIN_PREAMP n)

/-- g as a gain, and its whole 6 dB steps k*. -/
def Gain.steps (g : Gain) : Nat :=
  match g with
  | .mute => 0
  | .db n d => (n / (768 * d)).toNat

/-- Whether the channel takes gains and steps at once (R143, R146): not READY, or silent under an auto-mute. -/
def State.ainAtOnce (s : State) (n : Fin 16) : Bool :=
  s.ainState n != .ready || s.ains[n].phase == .silent

/-- The analogue step takes the value of k* then current. -/
def State.takeStep (s : State) (n : Fin 16) (mark : Bool) : State :=
  let t := (s.setFld (Fd.AIN_STATUS_COARSE n) s.ains[n].gain.now.steps).setFld (Fd.AIN_STATUS_STEP_PEND n) 0
  t.updAin n fun a => { a with waited := 0, stepMark := if mark then 24 else a.stepMark }

/-- A forced step (R145). -/
def State.forceStep (s : State) (n : Fin 16) : State :=
  ((s.takeStep n true).countSat (Fd.AIN_CNT_FORCED n) 1).raise (ainPage n) AinEv.STEP_FORCED

/-- APPLIED_GAIN reports g. -/
def State.showGain (s : State) (n : Fin 16) : State :=
  s.setFld (Fd.AIN_APPLIED_GAIN_GAIN n) s.ains[n].gain.now.code

/-- g takes G at once, with its step. -/
def State.gainAtOnce (s : State) (n : Fin 16) : State :=
  ((s.updAin n fun a => { a with gain := Glide.at (.db (s.ainTarget n) 1) }).takeStep n false).showGain n

/-- PREAMP has been written (R143); the glide begins in the next tick, over the GAIN_GLIDE then in force. -/
def State.preampApplied (s : State) (n : Fin 16) : State :=
  if s.ainAtOnce n then s.gainAtOnce n
  else s.updAin n fun a => { a with gain := a.gain.request (.db (s.ainTarget n) 1) }

/-- f = g − 6k as a gain. -/
def State.fineGain (s : State) (n : Fin 16) : Gain :=
  match s.ains[n].gain.now with
  | .mute => .db 0 1
  | .db m d => Gain.norm (.db (m - 768 * s.fld (Fd.AIN_STATUS_COARSE n) * d) d)

/-- One tick of the gain: the glide, and a pending step judged at the sample `v` of the path (R143–R145). -/
def State.tickGain (s : State) (n : Fin 16) (v : Int) : State :=
  let l := s.fld (Fd.AIN_GAIN_GLIDE_TICKS n)
  let go (g : Glide) : Glide := if s.ainAtOnce n then Glide.at g.target else (g.begin_ l).step
  let t := (s.updAin n fun a => { a with gain := go a.gain, stepMark := a.stepMark - 1 }).showGain n
  let k := t.fld (Fd.AIN_STATUS_COARSE n)
  if t.ains[n].gain.now.steps = k then (t.setFld (Fd.AIN_STATUS_STEP_PEND n) 0).updAin n fun a => { a with waited := 0 }
  else if t.ainAtOnce n then t.takeStep n false
  else
    let u := t.setFld (Fd.AIN_STATUS_STEP_PEND n) 1
    let a := u.ains[n]
    let cross := v == 0 || (a.wasValid && ((a.prev < 0) != (v < 0)))
      || decide (v.natAbs < levelCode (-(128 * u.fld (Fd.AIN_ZC_THRESH n) : Nat)) 1)
    let (fn, fd) := (u.fineGain n).frac
    let out := fn < -768 * fd || 1536 * fd ≤ fn
    if u.fld (Fd.AIN_ZC_TIMEOUT n) = 0 then u.forceStep n
    else if cross then u.takeStep n true
    else if out then u.forceStep n
    else u.updAin n fun b => { b with waited := b.waited + 1 }

/-! ## The sample of a tick (R132, R140, R147, R150) -/

/-- The path sample of a tick, with the merge of R140: the low-gain path alone under LG_ONLY, else from the sample at which the envelope
reaches −30 dBFS, after a crossfade of 8 samples, each somewhere between the two paths
(DESIGN CHOICE, notes/assumptions/75.md). -/
def State.pathSample (s : State) (n : Fin 16) (i : AinIn) : Int × State :=
  let low := signed 32 i.low.toNat
  let high := fadeCode (.db (-3072) 1) (signed 32 i.high.toNat)
  let only := s.flag (Fd.AIN_CTRL_LG_ONLY n)
  let was := s.flag (Fd.AIN_STATUS_PATH n)
  let now := only || was || decide (levelCode (-3840) 1 ≤ i.env)
  let t := if only then (s.setFld (Fd.AIN_STATUS_PATH n) 1).updAin n fun a => { a with xfade := 0 }
    else if now != was then
      (s.setFld (Fd.AIN_STATUS_PATH n) (bit now)).updAin n fun a => { a with xfade := 8, xfrom := was }
    else s
  if t.ains[n].xfade = 0 then (if now then low else high, t)
  else
    let (v, u) := t.freeInt (min low high) (max low high)
    (v, u.updAin n fun a => { a with xfade := a.xfade - 1 })

/-- The background calibration converges within 500 ms of unclipped signal above −60 dBFS on the high-gain path (R142): `matched` counts
its ticks since the calibration restarted, each judged by the magnitude of its own sample (DESIGN CHOICE, notes/assumptions/89.md). -/
def State.calTick (s : State) (n : Fin 16) (i : AinIn) : State :=
  let h := (signed 32 i.high.toNat).natAbs
  if !i.overload && decide (levelCode (-7680) 1 < h) && h < 2147483647
  then s.updAin n fun a => { a with matched := min (a.matched + 1) (s.msTicks 500) } else s

/-- Whether the two paths have converged to the limits of R141; else they have the values trimmed in production (R142). -/
def State.calMatched (s : State) (n : Fin 16) : Bool := s.msTicks 500 ≤ s.ains[n].matched

/-- The selected high-pass after decimation (R149): with HPF = 0 the sample itself; what the others pass is the filter's
(DESIGN CHOICE, notes/assumptions/24.md). -/
def State.highPassed (s : State) (n : Fin 16) (v : Int) : Int × State :=
  let f := s.fld (Fd.AIN_FILTER_HPF n)
  if f = 0 then (v, s)
  else
    let (y, m) := Config.inputHighPass f s.fc s.ains[n].filter v
    (y, s.updAin n fun a => { a with filter := m })

/-- Whether the samples of a channel carry SETTLING for its own changes (Table 6.2). -/
def State.ainMarked (s : State) (n : Fin 16) : Bool :=
  let a := s.ains[n]
  let ph : Bool := match s.phState n with
    | .rampUp | .settle | .rampDown => true
    | .off | .on | .denied | .overload | .folded => a.removing
  a.stepMark != 0 || a.hpfMark != 0 || (s.flag (Fd.AIN_STATUS_CM_EXC n) && !s.flag (Fd.AIN_CTRL_CM_MUTE n)) || (a.phMark && ph)

/-- A channel that delivers signal; the comparator of its gain steps watches the preamplifier, before the high-pass (R144). -/
def State.ainSignal (s : State) (n : Fin 16) (i : AinIn) : State :=
  let (u, s0) := (s.calTick n i).pathSample n i
  let (v, s1) := s0.highPassed n u
  let s2 := s1.tickGain n u
  let raw := fadeRaw (s2.fineGain n) v
  let x := if s2.flag (Fd.AIN_CTRL_INVERT n) then -raw else raw
  let clip := s2.ains[n].phase != .silent && (x < sampleMin || sampleMax < x || i.overload)
  let s3 := if clip then (s2.countSat (Fd.AIN_CNT_CLIP n) 1).raise (ainPage n) AinEv.CLIP else s2
  let a := s3.ains[n]
  let lv := match a.phase with
    | .opened | .silent => a.level
    | .out _ | .into _ => a.level.step
  let fading : Bool := match a.phase with
    | .out _ | .into _ => true
    | .opened | .silent => false
  let tag : Tag := { Tag.genuine with settling := fading || s3.ainMarked n, clipped := clip }
  let y : Sample := if a.phase = .silent then Sample.silence else ⟨fadeCode lv.now (clampInt sampleMin sampleMax x), tag⟩
  let s4 := s3.updAin n fun b =>
    { b with level := lv, prev := u, wasValid := true,
             phase := match b.phase with
               | .out _ => .out lv.left
               | .into _ => .into lv.left
               | .opened => .opened
               | .silent => .silent }
  { s4 with ainOut := s4.ainOut.set n y }

/-- What an input converts whose pads are held: its pins are as if disconnected, which gives no stated value (13_power_domains.md R315)
(DESIGN CHOICE, notes/assumptions/41.md). -/
def State.openPins (s : State) (i : AinIn) : AinIn × State :=
  let x (k : Nat) : BitVec 32 := BitVec.ofNat 32 (Config.free (s.fresh + k))
  ({ i with high := x 0, low := x 1, env := Config.free (s.fresh + 2) }, { s with fresh := s.fresh + 3 })

/-- One tick of an input: what it delivers to the fabric (Table 6.2). -/
def State.ainTick (s : State) (n : Fin 16) (i : AinIn) : State :=
  let (i, s) := if s.padHeld (Dm.AIN (n.val / 4)) then s.openPins i else (i, s)
  let s := s.updAin n fun a => { a with hpfMark := a.hpfMark - 1 }
  if !s.ainRuns n then { s with ainOut := s.ainOut.set n Sample.zero }
  else match s.ainState n with
    | .off => { s with ainOut := s.ainOut.set n Sample.zero }
    | .starting => { s with ainOut := s.ainOut.set n Sample.silence }
    | .ready => s.ainSignal n i
    | .stopping =>
      if s.ains[n].phase = .out 0 then { s with ainOut := s.ainOut.set n Sample.zero } else s.ainSignal n i

/-! ## Diagnosis (R151–R154) -/

/-- A leg resistance as its register holds it. -/
abbrev ohms (r : Nat) : Nat := min r 0xFFFFF

/-- The result of a diagnosis: the first row of Table 6.3 that holds, rows that need an absent value not matching. -/
def diagCode (limiting : Bool) (rp rn rd : Option Nat) : Nat :=
  let lt (x : Option Nat) (b : Nat) : Bool := match x with
    | some v => v < b
    | none => false
  let gt (x : Option Nat) : Bool := match x with
    | some v => 100000 < v
    | none => false
  let le (x : Option Nat) : Bool := match x with
    | some v => v ≤ 100000
    | none => false
  if limiting then 0xB
  else if lt rd 10 then 7
  else if lt rp 1000 && lt rn 1000 then 0xA
  else if lt rp 1000 then 8
  else if lt rn 1000 then 9
  else if gt rp && gt rn && gt rd then 4
  else if gt rp && gt rd && le rn then 5
  else if gt rn && gt rd && le rp then 6
  else if le rd then 3
  else 0xC

/-- Whether the diagnosis of input `n` that runs is the classifier's. -/
def State.diagCls (s : State) (n : Fin 16) : Bool :=
  match s.ains[n].diag with
  | some d => d.cls
  | none => false

/-- Whether the diagnosis of input `n` that runs is the classifier's, for an insertion that has ended: its result is discarded
(09_line_headphone_jacks.md R233). -/
def State.diagStale (s : State) (n : Fin 16) : Bool := s.diagCls n && (at_ s.jacks n.val ⟨false, .idle, none⟩).stale.isSome

/-- The end of a diagnosis with a code (R154); the classifier takes the result of its own (09_line_headphone_jacks.md R231), and where
that is discarded DIAG_RES keeps what it held before (DESIGN CHOICE, notes/assumptions/88.md). -/
def State.diagEnd (s : State) (n : Fin 16) (code : Nat) : State :=
  let t := if s.diagStale n then s.setFld (Fd.AIN_DIAG_RES_CODE n) s.ains[n].resBefore
    else ((s.setFld (Fd.AIN_DIAG_RES_CODE n) code).countWrap (Fd.AIN_DIAG_RES_SEQ n) 1).raise (ainPage n) AinEv.DIAG_DONE
  let u := t.updAin n fun a => { a with diag := none }
  let mine : Bool := match u.tdacOwner with
    | some (.diag m _) => m == n
    | _ => false
  let v := if mine then ({ u with tdacOwner := none, tdac := { u.tdac with out := 0 } }.setFld Fd.TDAC_STATUS_ROUTE 0).pipeResume else u
  if s.diagCls n then v.classDiag n code else v

/-- Aborts a diagnosis that runs (R153). -/
def State.diagAbort (s : State) (n : Fin 16) : State := if s.ains[n].diag.isSome then s.diagEnd n 0xD else s

/-- A diagnosis is requested (R151): it waits for the test DAC; START shows a host's.  While one of the same input runs, CODE stays
RUNNING and then shows its result until the next begins (R154) (DESIGN CHOICE, notes/assumptions/89.md). -/
def State.diagRequest (s : State) (n : Fin 16) (cls : Bool) : State :=
  let t := if cls then s else s.setFld (Fd.AIN_DIAG_START n) 1
  let before := t.fld (Fd.AIN_DIAG_RES_CODE n)
  let u := if before = 1 ∨ before = 2 then t else t.updAin n fun a => { a with resBefore := before }
  (if u.ains[n].diag.isSome then u else u.setFld (Fd.AIN_DIAG_RES_CODE n) 1).tdacEnqueue (.diag n cls)

/-- A queued diagnosis of the classifier is forgotten: the code that it had set goes back, unless another request of the input
waits or runs. -/
def State.diagForget (s : State) (n : Fin 16) : State :=
  let t := s.tdacUnqueue (.diag n true)
  if t.ains[n].diag.isSome || t.tdacQ.any (fun e => e.2 == .diag n false) then t
  else t.setFld (Fd.AIN_DIAG_RES_CODE n) t.ains[n].resBefore

/-- A queued diagnosis begins (R151, R131); the classifier's takes both legs. -/
def State.diagBegin (s : State) (n : Fin 16) (cls : Bool) : State :=
  let t := { s.tdacUnqueue (.diag n cls) with tdacOwner := some (.diag n cls) }.pipePreempt none
  let u := (if cls then t else t.setFld (Fd.AIN_DIAG_START n) 0).setFld (Fd.AIN_DIAG_RES_CODE n) 2
  let legs := if cls then 3 else u.fld (Fd.AIN_DIAG_LEGS n)
  let v := (u.updAin n fun a => { a with diag := some ⟨cls, legs, 0, false⟩ }).setFld (Fd.AIN_STATUS_CM_EXC n) 0
  let cm := v.ains[n].causes.contains .cm
  let w := if v.ainState n == .ready || cm then v.muteCause n .diag else v
  w.updAin n fun a => { a with causes := a.causes.filter (· != .cm) }

/-- Whether a host route of the test DAC holds input `n` muted (11_housekeeping_converter.md R284). -/
def State.hostInjects (s : State) (n : Fin 16) : Bool :=
  match s.tdacOwner with
  | some (.host _) => routeAin s.tdac.goal == some n || routeAin (s.fld Fd.TDAC_STATUS_ROUTE) == some n
  | _ => false

/-- The next window of a diagnosis after `step`. -/
def Diag.next (d : Diag) : Option Nat :=
  if d.step = 0 then (if bitOf d.legs 0 then some 1 else some 2)
  else if d.step = 1 ∧ bitOf d.legs 1 then some 2 else none

/-- Whether a channel still fades out. -/
def Ain.fading (a : Ain) : Bool :=
  match a.phase with
  | .out _ => true
  | .opened | .silent | .into _ => false

/-- The last window of a diagnosis: its resistances and its result (R152). -/
def State.diagResult (s : State) (n : Fin 16) (e : Diag) (r : DiagReading) : State :=
  let p := bitOf e.legs 0
  let q := bitOf e.legs 1
  let rp := if p then ohms r.rp else 0xFFFFF
  let rn := if q then ohms r.rn else 0xFFFFF
  let rd := if p && q then ohms r.rd else 0xFFFFF
  let t := if s.diagStale n then s else ((s.setFld (Fd.AIN_DIAG_RP_OHMS n) rp).setFld (Fd.AIN_DIAG_RN_OHMS n) rn).setFld (Fd.AIN_DIAG_RD_OHMS n) rd
  t.diagEnd n (diagCode e.limiting (if p then some rp else none) (if q then some rn else none)
    (if p && q then some rd else none))

/-- +1.000 V in codes of the test DAC (R151, 11_housekeeping_converter.md R282). -/
abbrev diagVolt : Int := 8000

/-- A window of a diagnosis ends (R151, R152); the windows begin after the fade, and those of the legs inject +1.000 V. -/
def State.diagPhase (s : State) (n : Fin 16) (r : DiagReading) : State :=
  match s.ains[n].diag with
  | none => s
  | some d =>
    if s.ains[n].fading then s
    else
      let e : Diag := if d.step = 0 then { d with limiting := r.limiting } else d
      match e.next with
      | some k =>
        let t := s.updAin n fun a => { a with diag := some { e with step := k } }
        { t with tdac := { t.tdac with out := diagVolt } }.setFld Fd.TDAC_STATUS_ROUTE (if k = 1 then 0x01 + n.val else 0x11 + n.val)
      | none => s.diagResult n e r

/-! ## The microphone route of a headphone jack (09_line_headphone_jacks.md R224) -/

/-- The input that a headphone page names for its microphone. -/
def State.micWant (s : State) (h : Fin 4) : Option (Fin 16) :=
  if s.flag (Fd.HP_CTRL_MIC_EN h) then some (Fin.ofNat 16 (s.fld (Fd.HP_CTRL_MIC_IN h))) else none

/-- The route of a headphone page in force. -/
abbrev State.micNow (s : State) (h : Fin 4) : Option (Fin 16) := s.outs[outIndex (.hp h)].mic

/-- Whether input `n` takes a headset microphone. -/
def State.routed (s : State) (n : Fin 16) : Bool := (List.finRange 4).any fun h => s.micNow h == some n

/-- Whether another page names the input that page `h` names: then both are held. -/
def State.micClash (s : State) (h : Fin 4) : Bool :=
  (s.micWant h).isSome && (List.finRange 4).any fun g => g != h && s.micWant g == s.micWant h

/-- The route that page `h` may have: none while two pages name its input (DEDUCED, notes/assumptions/87.md). -/
def State.micGoal (s : State) (h : Fin 4) : Option (Fin 16) := if s.micClash h then none else s.micWant h

/-- Whether a route waits for its input: it has phantom, or another page still has it. -/
def State.micWaits (s : State) (h : Fin 4) : Bool :=
  match s.micGoal h with
  | some n => s.micNow h != some n && (s.phState n != .off || (List.finRange 4).any fun g => g != h && s.micNow g == some n)
  | none => false

/-- Whether a route is held. -/
def State.micHeld (s : State) (h : Fin 4) : Bool := s.micClash h || s.micWaits h

/-- Whether every input that a change of the route names is silent, or does not deliver (R132). -/
def State.micSilent (s : State) (h : Fin 4) : Bool :=
  let quiet (x : Option (Fin 16)) : Bool := match x with
    | some n => s.ainState n != .ready || s.ains[n].phase == .silent
    | none => true
  quiet (s.micNow h) && quiet (s.micGoal h)

/-- A change of route takes effect where it may: the inputs it names that are READY are muted (R132), and it switches in their
silence. -/
def State.micFollow (s : State) (h : Fin 4) : State :=
  let t := s.setFld (Fd.HP_STATUS_MIC_PEND h) (bit (s.micHeld h))
  if t.micGoal h == t.micNow h || t.micWaits h then t
  else
    let mute (u : State) (x : Option (Fin 16)) : State := match x with
      | some n => if u.ainState n == .ready then u.muteCause n .mode else u
      | none => u
    let u := mute (mute t (t.micNow h)) (t.micGoal h)
    if u.micSilent h then
      let w := u.micGoal h
      u.updOut (.hp h) fun o => { o with mic := w }
    else u

/-- Every route. -/
def State.micAll (s : State) : State := (List.finRange 4).foldl State.micFollow s

/-- Whether a change of route still waits for the silence of input `n`. -/
def State.micMoves (s : State) (n : Fin 16) : Bool :=
  (List.finRange 4).any fun h => s.micGoal h != s.micNow h && !s.micWaits h && (s.micGoal h == some n || s.micNow h == some n)

/-! ## Phantom (R133–R138) -/

/-- What an input has reserved in mA: R133 sums every state but OFF and DENIED, and so holds it in OVERLOAD and FOLDED, where R136 calls
it ended (DEDUCED, notes/assumptions/44.md). -/
def State.reservedOf (s : State) (n : Fin 16) : Nat :=
  match s.phState n with
  | .off | .denied => 0
  | .rampUp | .settle | .on | .rampDown | .overload | .folded => s.fld (Fd.AIN_PHANTOM_RESERVE n)

/-- The total that all inputs have reserved. -/
def State.reservedMa (s : State) : Nat := ((List.finRange 16).map s.reservedOf).sum

/-- The capacity of the multiplier in mA at a supply of `pvdd` × 10 mV (R135); below 9 V the manual gives none. -/
def State.phCapacity (s : State) (pvdd : Nat) : Nat × State :=
  if 1200 ≤ pvdd then (80, s)
  else if 900 ≤ pvdd then
    let (v, t) := s.divFree (40 * 300 + 40 * (pvdd - 900 : Nat)) 300
    (v.toNat, t)
  else s.free 41

/-- Stores only the bits of field `f` that a write of `v` to its register would. -/
def State.storeFld (s : State) (f : Fld) (v : Nat) : State :=
  s.setFld f (bitsAt (s.stored f.addr v).toNat f.lo f.width)

/-- Applies the newest held write of a field, and forgets those of its register. -/
def State.applyFld (s : State) (f : Fld) : State :=
  match (s.cfgPend.filter fun e => e.1 == f.addr).getLast? with
  | some e => (s.storeFld f e.2).dropHeld (· == f.addr)
  | none => s

/-- The phantom of an input reaches OFF: a held RESERVE applies (R137). -/
def State.phOff (s : State) (n : Fin 16) : State := ((s.setPh n .off).applyFld (Fd.AIN_PHANTOM_RESERVE n)).micAll

/-- A phantom change begins: an auto-mute, or marks (R139). -/
def State.phChange (s : State) (n : Fin 16) : State :=
  let quiet := s.flag (Fd.AIN_PHANTOM_AUTO_MUTE n)
  let t := s.updAin n fun a => { a with phMark := !quiet }
  if quiet then t.muteCause n .phantom else t

/-- A phantom change ends (DEDUCED, notes/assumptions/44.md). -/
def State.phChangeEnd (s : State) (n : Fin 16) : State :=
  (s.updAin n fun a => { a with phMark := false, removing := false }).muteEnd n .phantom

/-- An input that has asked for phantom is admitted with its reservation, or denied (R133, 09_line_headphone_jacks.md R224). -/
def State.phAdmit (s : State) (n : Fin 16) : State :=
  let t := s.updAin n fun a => { a with phAsk := false }
  if t.phState n ≠ .off then t
  else if !t.routed n && t.reservedMa + t.fld (Fd.AIN_PHANTOM_RESERVE n) ≤ 80 then
    ((t.setPh n .rampUp).updAin n fun a => { a with phUp := true }).phChange n
  else ((t.setPh n .denied).countSat (Fd.AIN_PHM_CNT_DENIED 0) 1).raise (ainPage n) AinEv.PH_DENIED

/-- The inputs whose PH_EN = 1 applies in one tick are admitted in it by their numbers (R133) (DEDUCED, notes/assumptions/44.md). -/
def State.phAdmits (s : State) : State :=
  (List.finRange 16).foldl (fun (t : State) (n : Fin 16) => if t.ains[n].phAsk && t.domOn (Dm.AIN (n.val / 4)) then t.phAdmit n else t) s

/-- PH_EN goes to 1 (R133, R136): an input that is OFF asks for its reservation, which the tick decides; at once where no tick comes
(DEDUCED, notes/assumptions/44.md). -/
def State.phEnable (s : State) (n : Fin 16) : State :=
  match s.phState n with
  | .off => if s.domOn Dm.PLL then s.updAin n fun a => { a with phAsk := true } else s.phAdmit n
  | .rampDown => ((s.setPh n .rampUp).updAin n fun a => { a with phUp := true }).phChange n
  | .settle =>
    if s.ains[n].phUp then s else ((s.setPh n .rampUp).updAin n fun a => { a with phUp := true }).phChange n
  | .rampUp | .on | .denied | .overload | .folded => s

/-- PH_EN goes to 0 (R136). -/
def State.phDisable (s : State) (n : Fin 16) : State :=
  match s.phState n with
  | .rampUp | .on => ((s.setPh n .rampDown).updAin n fun a => { a with phUp := false }).phChange n
  | .settle =>
    if s.ains[n].phUp then ((s.setPh n .rampDown).updAin n fun a => { a with phUp := false }).phChange n else s
  | .denied | .overload | .folded => (s.phChangeEnd n).phOff n
  | .off => s.updAin n fun a => { a with phAsk := false }
  | .rampDown => s

/-- PH_EN is written (R133, R136, R153). -/
def State.phEnWrite (s : State) (n : Fin 16) (on : Bool) : State :=
  if s.flag (Fd.AIN_PHANTOM_PH_EN n) == on then s
  else
    let t := (s.setFld (Fd.AIN_PHANTOM_PH_EN n) (bit on)).diagAbort n
    if on then t.phEnable n else t.phDisable n

/-- PHANTOM is written: RESERVE is held outside OFF and DENIED (R137). -/
def State.phantomWrite (s : State) (n : Fin 16) (v : Nat) : State :=
  let t := (s.storeFld (Fd.AIN_PHANTOM_PRIO n) v).storeFld (Fd.AIN_PHANTOM_AUTO_MUTE n) v
  let u := match t.phState n with
    | .off | .denied => t.storeFld (Fd.AIN_PHANTOM_RESERVE n) v
    | .rampUp | .settle | .on | .rampDown | .overload | .folded => t.hold (Adr.AIN_PHANTOM n) v
  u.phEnWrite n (bitOf v 0)

/-- The device removes the phantom of an input (R134, R135). -/
def State.phRemove (s : State) (n : Fin 16) (to_ : PhState) (ev : Nat) : State :=
  let t := ((s.setPh n to_).updAin n fun a => { a with removing := true, phUp := false }).phChange n
  (t.diagAbort n).raise (ainPage n) ev

/-- Whether an input supplies phantom that can be removed. -/
def State.phLive (s : State) (n : Fin 16) : Bool :=
  match s.phState n with
  | .rampUp | .on => true
  | .settle => s.ains[n].phUp
  | .off | .rampDown | .denied | .overload | .folded => false

/-- The input that folds back next: lowest PRIO, then highest number (R135). -/
def State.foldNext (s : State) : Option (Fin 16) :=
  ((List.finRange 16).filter s.phLive).foldl (fun best n => match best with
    | none => some n
    | some m => if s.fld (Fd.AIN_PHANTOM_PRIO n) ≤ s.fld (Fd.AIN_PHANTOM_PRIO m) then some n else some m) none

/-! ## Start, stop and configuration (R132, R148, R149, R155) -/

/-- A channel reaches OFF: a held DECIM applies (R148), and a pad that waits for silence switches (R132). -/
def State.ainOff (s : State) (n : Fin 16) : State :=
  let t := (s.setAinState n .off).updAin n fun a =>
    { a with phase := .silent, level := Glide.at .mute, wasValid := false, xfade := 0, pad := s.flag (Fd.AIN_CTRL_MODE n) }
  ((t.applyFld (Fd.AIN_FILTER_DECIM n)).syncMuted n).raise (ainPage n) AinEv.OFF

/-- ENABLE is written (R155, R153) (DESIGN CHOICE, notes/assumptions/45.md). -/
def State.ainEnWrite (s : State) (n : Fin 16) (on : Bool) : State :=
  if s.flag (Fd.AIN_CTRL_ENABLE n) == on then s
  else
    let t := (s.setFld (Fd.AIN_CTRL_ENABLE n) (bit on)).diagAbort n
    match t.ainState n, on with
    | .off, true | .stopping, true =>
      ((t.setAinState n .starting).updAin n fun a =>
        { a with phase := .silent, level := Glide.at .mute, stepMark := 0, pad := t.flag (Fd.AIN_CTRL_MODE n) }).gainAtOnce n
    | .starting, false => t.ainOff n
    | .ready, false => (((t.setAinState n .stopping).updAin n Ain.fadeOut).gainAtOnce n).syncMuted n
    | .starting, true | .ready, true | .off, false | .stopping, false => t

/-- MODE is written: on a READY channel the pad switches in the silence of an auto-mute, else at once (R132, R153)
(DESIGN CHOICE, notes/assumptions/45.md). -/
def State.modeWrite (s : State) (n : Fin 16) (line : Bool) : State :=
  if s.flag (Fd.AIN_CTRL_MODE n) == line then s
  else
    let t := (s.setFld (Fd.AIN_CTRL_MODE n) (bit line)).diagAbort n
    if t.ainState n == .ready then
      let u := t.muteCause n .mode
      if u.ains[n].phase = .silent then u.updAin n fun a => { a with pad := line } else u
    else t.updAin n fun a => { a with pad := line }

/-- The calibration restarts: CAL clears as it begins, and the matching returns to the trimmed values (R142). -/
def State.calRestart (s : State) (n : Fin 16) : State := (s.setFld (Fd.AIN_DIAG_CAL n) 0).updAin n fun a => { a with matched := 0 }

/-- A change of MODE; in service mode the service image writes CAL after it (R142). -/
def State.modeChange (s : State) (n : Fin 16) (line : Bool) : State :=
  let t := s.modeWrite n line
  if s.flag (Fd.AIN_CTRL_MODE n) != line && s.inService then t.calRestart n else t

/-- CTRL is written; CM_MUTE as it stands when an excursion starts decides whether it mutes, and as it stands at a sample whether the
sample is marked (R130) (DESIGN CHOICE, notes/assumptions/89.md). -/
def State.ainCtrlWrite (s : State) (n : Fin 16) (v : Nat) : State :=
  let t := ((s.storeFld (Fd.AIN_CTRL_CM_MUTE n) v).storeFld (Fd.AIN_CTRL_INVERT n) v).storeFld (Fd.AIN_CTRL_LG_ONLY n) v
  (t.modeChange n (bitOf v 1)).ainEnWrite n (bitOf v 0)

/-- FILTER is written: DECIM is held outside OFF, a new HPF marks 0.2 × Fc samples (R148, R149). -/
def State.filterWrite (s : State) (n : Fin 16) (v : Nat) : State :=
  let t := s.storeFld (Fd.AIN_FILTER_HPF n) v
  let u := if t.fld (Fd.AIN_FILTER_HPF n) = s.fld (Fd.AIN_FILTER_HPF n) then t
    else t.updAin n fun a => { a with hpfMark := s.fc / 5 + 1 }
  if u.ainState n == .off then u.storeFld (Fd.AIN_FILTER_DECIM n) v else u.hold (Adr.AIN_FILTER n) v

/-- DIAG is written (R142, R151). -/
def State.diagWrite (s : State) (n : Fin 16) (v : Nat) : State :=
  let t := s.storeFld (Fd.AIN_DIAG_LEGS n) v
  let u := if bitOf v 3 then t.calRestart n else t
  if bitOf v 0 then u.diagRequest n false else u

/-- GAIN is written (R143). -/
def State.gainWrite (s : State) (n : Fin 16) (v : Nat) : State :=
  let t := s.store (Adr.AIN_GAIN n) v
  if t.fld (Fd.AIN_GAIN_PREAMP n) = s.fld (Fd.AIN_GAIN_PREAMP n) then t else t.preampApplied n

/-- A write of a register of an input page. -/
def State.ainWrite (s : State) (n : Fin 16) (o v : Nat) : State :=
  if o = 0x040 then s.ainCtrlWrite n v
  else if o = 0x044 then s.gainWrite n v
  else if o = 0x04C then s.filterWrite n v
  else if o = 0x054 then s.phantomWrite n v
  else if o = 0x068 then s.diagWrite n v
  else s.store (pageAddr (ainPage n) o) v

/-! ## Meanings -/

/-- `AIN_ENABLE` (R155): ENABLE is written 1. -/
def execAinEnable (n : Fin 16) (s : State) : Result :=
  .next (if s.pageTakes (ainPage n) then s.ainEnWrite n true else s)

/-- `AIN_DISABLE` (R155): ENABLE is written 0. -/
def execAinDisable (n : Fin 16) (s : State) : Result :=
  .next (if s.pageTakes (ainPage n) then s.ainEnWrite n false else s)

/-- `AIN_MODE_CHANGE` (R132): MODE is written with its other value. -/
def execAinModeChange (n : Fin 16) (s : State) : Result :=
  .next (if s.pageTakes (ainPage n) then s.modeChange n (!s.flag (Fd.AIN_CTRL_MODE n)) else s)

/-- `SERVO_SETTLED` (R129). -/
def execServoSettled (n : Fin 16) (s : State) : Result :=
  .next (if s.domOn (Dm.AIN (n.val / 4)) then s.updAin n fun a => { a with servo := true } else s)

/-- `AIN_READY` (R155). -/
def execAinReady (n : Fin 16) (s : State) : Result :=
  .next (if s.ainRuns n && s.ainState n == .starting && s.ains[n].servo then
      let t := (s.setAinState n .ready).raise (ainPage n) AinEv.READY
      (if t.ains[n].causes.isEmpty then t.updAin n Ain.fadeIn else t).syncMuted n
    else s)

/-- `AIN_OFF` (R155): the stop fade has run (DESIGN CHOICE, notes/assumptions/4.md). -/
def execAinOff (n : Fin 16) (s : State) : Result :=
  .next (if s.ainState n == .stopping && s.ains[n].phase == .out 0 then s.ainOff n else s)

/-- `CM_EXCURSION_START` (R130, R131). -/
def execCmExcursionStart (n : Fin 16) (s : State) : Result :=
  .next (if s.domOn (Dm.AIN (n.val / 4)) && s.ains[n].diag.isNone && !s.ains[n].causes.contains .diag
      && !s.flag (Fd.AIN_STATUS_CM_EXC n) then
      let t := (s.setFld (Fd.AIN_STATUS_CM_EXC n) 1).raise (ainPage n) AinEv.CM_EXCURSION
      if t.flag (Fd.AIN_CTRL_CM_MUTE n) then t.muteCause n .cm else t
    else s)

/-- `CM_EXCURSION_END` (R130). -/
def execCmExcursionEnd (n : Fin 16) (s : State) : Result :=
  .next (if s.flag (Fd.AIN_STATUS_CM_EXC n) then (s.setFld (Fd.AIN_STATUS_CM_EXC n) 0).muteEnd n .cm else s)

/-- `PHANTOM_ENABLE` (R133, R136): PH_EN is written 1. -/
def execPhantomEnable (n : Fin 16) (s : State) : Result :=
  .next (if s.pageTakes (ainPage n) then s.phEnWrite n true else s)

/-- `PHANTOM_DISABLE` (R136): PH_EN is written 0. -/
def execPhantomDisable (n : Fin 16) (s : State) : Result :=
  .next (if s.pageTakes (ainPage n) then s.phEnWrite n false else s)

/-- `PH_RAMP_DONE` (R136): a ramp ends and its settle begins; the ramp of a removal ends the change. -/
def execPhRampDone (n : Fin 16) (s : State) : Result :=
  .next (match s.phState n with
    | .rampUp | .rampDown => s.setPh n .settle
    | .overload | .folded => if s.ains[n].removing then s.phChangeEnd n else s
    | .off | .settle | .on | .denied => s)

/-- `PH_SETTLE_DONE` (R136). -/
def execPhSettleDone (n : Fin 16) (s : State) : Result :=
  .next (match s.phState n with
    | .settle =>
      if s.ains[n].phUp then ((s.setPh n .on).phChangeEnd n).raise (ainPage n) AinEv.PH_ON
      else (s.phChangeEnd n).phOff n
    | .off | .rampUp | .on | .rampDown | .denied | .overload | .folded => s)

/-- `PH_LIMIT_TIMEOUT` (R134). -/
def execPhLimitTimeout (n : Fin 16) (s : State) : Result :=
  .next (if s.phLive n then s.phRemove n .overload AinEv.PH_OVERLOAD else s)

/-- `PH_FOLDBACK` (R135): one input loses its phantom. -/
def execPhFoldback (s : State) : Result :=
  .next (match s.foldNext with
    | some n => (s.phRemove n .folded AinEv.PH_FOLDED).countSat (Fd.AIN_PHM_CNT_FOLD 0) 1
    | none => s)

/-- `AUTOMUTE_FADE_DONE` (R139): silence follows the fade, and a changed pad switches in it (R132)
(DESIGN CHOICE, notes/assumptions/4.md). -/
def execAutomuteFadeDone (n : Fin 16) (s : State) : Result :=
  .next (if s.ainState n == .ready && s.ains[n].phase == .out 0 then
      let t := s.updAin n fun a => { a with phase := .silent, level := Glide.at .mute, pad := s.flag (Fd.AIN_CTRL_MODE n) }
      let u := (t.gainAtOnce n).micAll
      (if u.ains[n].causes.isEmpty then u.updAin n Ain.fadeIn else u).syncMuted n
    else s)

/-- `AUTOMUTE_CAUSE_END` (R139): a mode change once its pad has switched, a diagnosis once it has ended. -/
def execAutomuteCauseEnd (n : Fin 16) (c : MuteCause) (s : State) : Result :=
  .next (match c with
    | .mode => if s.ains[n].pad == s.flag (Fd.AIN_CTRL_MODE n) && !s.micMoves n then s.muteEnd n .mode else s
    | .diag => if s.ains[n].diag.isNone && !s.hostInjects n then s.muteEnd n .diag else s
    | .phantom | .cm => s)

/-- `AUTOMUTE_GLIDE_DONE` (R139). -/
def execAutomuteGlideDone (n : Fin 16) (s : State) : Result :=
  .next (if s.ains[n].phase == .into 0
    then s.updAin n fun a => { a with phase := .opened, level := Glide.at (.db 0 1) } else s)

/-- `PATH_RETURN` (R140): 50 ms below −33 dBFS. -/
def execPathReturn (n : Fin 16) (s : State) : Result :=
  .next (if s.flag (Fd.AIN_STATUS_PATH n) && !s.flag (Fd.AIN_CTRL_LG_ONLY n)
    then (s.setFld (Fd.AIN_STATUS_PATH n) 0).updAin n fun a => { a with xfade := 8, xfrom := true } else s)

/-- `CAL_RESTART` (R142). -/
def execCalRestart (n : Fin 16) (s : State) : Result :=
  .next (if s.pageTakes (ainPage n) then s.calRestart n else s)

/-- `PREAMP_GAIN_WRITE` (R143). -/
def execPreampGainWrite (n : Fin 16) (v : Word) (s : State) : Result :=
  .next (if s.pageTakes (ainPage n) then s.gainWrite n v.toNat else s)

/-- `STEP_FORCE_TIMEOUT` (R145): a pending step that has waited TIMEOUT is forced; the next 24 samples are marked (R146). -/
def execStepForceTimeout (n : Fin 16) (s : State) : Result :=
  .next (if s.flag (Fd.AIN_STATUS_STEP_PEND n) && s.msTicks (s.fld (Fd.AIN_ZC_TIMEOUT n)) ≤ s.ains[n].waited
    then (s.forceStep n).updAin n fun a => { a with stepMark := 25 } else s)

/-- `DIAG_START` (R151): LEGS and START are written. -/
def execDiagStart (n : Fin 16) (legs : BitVec 2) (s : State) : Result :=
  .next (if s.pageTakes (ainPage n) then s.diagWrite n (1 + 2 * legs.toNat) else s)

/-- `DIAG_BEGIN` (R151): the test DAC is free and the request is the oldest. -/
def execDiagBegin (n : Fin 16) (s : State) : Result :=
  .next (match s.tdacQ.head? with
    | some (_, .diag m cls) => if m == n && s.ainRuns n && s.tdacFree then s.diagBegin n cls else s
    | _ => s)

/-- `DIAG_PHASE_DONE` (R151, R152). -/
def execDiagPhaseDone (n : Fin 16) (r : DiagReading) (s : State) : Result := .next (s.diagPhase n r)

end Sys2Proof.Machine
end

