-- ==== Sys2Proof/Machine/Access.lean ====
section
/-!
DEFINITION. Direct writes of a port to a page: the page's domain, the claim, the version, and the access log
(13_power_domains.md R312; 15_transactions_and_hosts.md R355, R366; 17_boot_images_recovery.md Table 17.9;
18_register_pages.md R407–R409).
-/
namespace Sys2Proof.Machine

/-- Why an access is logged (Table 17.9 KIND). -/
inductive AccessKind where
  | unmapped | noAccess | readOnly | domainDown
deriving DecidableEq, Repr

/-- The code of KIND. -/
def AccessKind.code : AccessKind → Nat
  | .unmapped => 0
  | .noAccess => 1
  | .readOnly => 2
  | .domainDown => 3

/-- Logs a failed access in SYS.ACCESS_ERR and SYS.ACCESS_ADDR, with its event; while SUP is not ON it holds still (R302)
(DEDUCED, notes/assumptions/32.md). -/
def State.logAccess (s : State) (k : AccessKind) (p : Fin 4) (write : Bool) (a : Nat) : State :=
  if !s.domOn Dm.SUP then s else
  let t := s.countSat Fd.SYS_ACCESS_ERR_COUNT 1
  let u := ((t.setFld Fd.SYS_ACCESS_ERR_KIND k.code).setFld Fd.SYS_ACCESS_ERR_PORT p).setFld Fd.SYS_ACCESS_ERR_WRITE (bit write)
  (u.setReg Adr.SYS_ACCESS_ADDR (word a)).raise 0x000 1

/-- Whether another port than `p` holds the claim on page `g` (R366). -/
def State.claimedByOther (s : State) (p : Fin 4) (g : Nat) : Bool :=
  match s.claimOf g with
  | some q => q != p.val
  | none => false

/-- A direct write of port `p` to address `a`, governed by page `g`: discarded and logged while the page's domain is not
ON, discarded under another port's claim, else the effect `f` and a new page version
(DEDUCED, notes/assumptions/54.md). -/
def State.directPage (s : State) (p : Fin 4) (g a : Nat) (f : State → State) : State :=
  if !s.pageOn g then s.logAccess .domainDown p true a
  else if s.claimedByOther p g then s
  else (f s).bumpVer g

end Sys2Proof.Machine
end

