-- ==== Sys2Proof/Machine/Crc.lean ====
section
/-!
DEFINITION. The check-value engines and their commands (12_crc_engines.md).
-/
namespace Sys2Proof.Machine

/-! ## The computation (R294) -/

/-- The low `w` bits of `x` in reverse order. -/
def reverseBits : Nat → Nat → Nat
  | 0, _ => 0
  | w + 1, x => x % 2 * 2 ^ w + reverseBits w (x / 2)

/-- The low `w` bits set. -/
abbrev maskOf (w : Nat) : Nat := 2 ^ w - 1

/-- One step of the loop of R294, with the fed bit `d`. -/
def Crc.step (c : Crc) (r : Nat) (d : Bool) : Nat :=
  let fb := bitOf r (c.width - 1) != d
  let t := 2 * r % 2 ^ c.width
  if fb then t ^^^ (c.poly % 2 ^ c.width) else t

/-- The register after one byte, most significant bit first, reflected first under REFIN. -/
def Crc.feedByte (c : Crc) (r : Nat) (d : Nat) : Nat :=
  let e := if c.refin then reverseBits 8 d else d
  [7, 6, 5, 4, 3, 2, 1, 0].foldl (fun x k => c.step x (bitOf e k)) r

/-- The register after bytes in order. -/
def Crc.feedAll (c : Crc) (r : Nat) (ds : List Byte) : Nat := ds.foldl (fun x d => c.feedByte x d.toNat) r

/-- The result that R294 forms from a register. -/
def Crc.form (c : Crc) (r : Nat) : Nat :=
  ((if c.refout then reverseBits c.width r else r) ^^^ c.xorout) % 2 ^ c.width

/-- The value that R294 forms over bytes from INIT. -/
def Crc.value (c : Crc) (ds : List Byte) : Nat := c.form (c.feedAll (c.init % 2 ^ c.width) ds)

/-- The engine reset of R295. -/
def Crc.reset (c : Crc) : Crc := { c with r := c.init % 2 ^ c.width, count := 0 }

/-- The engine after a feed of bytes (R296, R297). -/
def Crc.feed (c : Crc) (ds : List Byte) : Crc :=
  { c with r := c.feedAll c.r ds, count := (c.count + ds.length) % 2 ^ 32 }

/-- A bound engine after a frame or block (R293). -/
def Crc.bound (c : Crc) (ds : List Byte) : Crc :=
  let d := c.reset.feed ds
  { d with result := d.form d.r, raw := d.r }

/-- An engine of given settings as it stands before its first frame. -/
def Crc.make (width : Nat) (poly init xorout : Nat) (ref : Bool) : Crc :=
  let c : Crc := ⟨width, ref, ref, poly, init, xorout, 0, 0, 0, 0⟩
  let d := c.reset
  { d with result := d.form d.r, raw := d.r }

/-- CRC-32 and CRC-16 of Table 12.2, and the CRCC of 04_aes3_ports.md Table 4.3. -/
def Crc.crc32 : Crc := Crc.make 32 0x04C11DB7 0xFFFFFFFF 0xFFFFFFFF true
def Crc.crc16 : Crc := Crc.make 16 0x1021 0xFFFF 0 false
/-- An AES3 engine before its first block: its RESULT holds both channels (R293, Table 12.4). -/
def Crc.crcc : Crc := { Crc.make 8 0x1D 0xFF 0 true with result := 0xFFFF }

/-- The engine with one of its settings written (Table 12.4, R295). -/
def Crc.config (c : Crc) (r : CrcReg) (v : Nat) : Crc :=
  match r with
  | .cfg => { c with width := max 1 (min 32 (bitsAt v 0 6)), refin := bitOf v 8, refout := bitOf v 9 }.reset
  | .poly => { c with poly := v }.reset
  | .init => { c with init := v }.reset
  | .xorout => { c with xorout := v }

/-! ## Ownership and commands -/

/-- The engine `i`. -/
abbrev State.crc (s : State) (i : Fin 26) : Crc := s.crcs[i]

/-- `s` with engine `i` changed. -/
def State.updCrc (s : State) (i : Fin 26) (f : Crc → Crc) : State := { s with crcs := s.crcs.set i (f s.crcs[i]) }

/-- A bound engine handles a frame or block (DEDUCED, notes/assumptions/67.md). -/
def State.crcRun (s : State) (i : Fin 26) (ds : List Byte) : State := s.updCrc i fun c => c.bound ds

/-- The page of the engines. -/
abbrev crcPage : Nat := 0x00E

/-- Whether a party may reach a register of page `CRC` by a write: CORE is ON, no other host claims the page (R298), and no
power change makes it wait (13_power_domains.md R309)
(DEDUCED, notes/assumptions/67.md). -/
def State.crcReach (s : State) (a : CrcParty) : Bool :=
  s.domOn Dm.CORE && (match a with
    | .host p => !s.heldFor (some p) (some Dm.CORE) (some crcPage) && (s.claimOf crcPage).all fun q => p.val == q
    | .service => true)

/-- A write to a register of an engine other than OWN: bound engines discard it (R292), CRC25 takes it from its owner
and marks NOT_OWNER from others (R299). -/
def State.crcWrite (s : State) (a : CrcParty) (i : Fin 26) (f : Crc → Crc) : State :=
  if !s.crcReach a || i.val < 25 then s
  else if s.crcOwner = some a then s.updCrc i f
  else s.setErr crcPage 0

/-- A feed of bytes. -/
def State.crcFeed (s : State) (a : CrcParty) (i : Fin 26) (ds : List Byte) : State := s.crcWrite a i fun c => c.feed ds

/-- A write of a setting (R295) (DEDUCED, notes/assumptions/67.md). -/
def State.crcSet (s : State) (a : CrcParty) (i : Fin 26) (r : CrcReg) (v : Nat) : State := s.crcWrite a i fun c => c.config r v

/-- A write of a setting by itself, which moves the page version when it applies (R298). -/
def State.crcConfig (s : State) (a : CrcParty) (i : Fin 26) (r : CrcReg) (v : Nat) : State :=
  let t := s.crcSet a i r v
  if s.crcReach a && i.val == 25 && s.crcOwner == some a then t.bumpVer crcPage else t

/-- OWN.REQ = 1 (R299). -/
def State.crcOwnRequest (s : State) (a : CrcParty) : State :=
  if !s.crcReach a then s
  else match s.crcOwner with
    | none => { s.updCrc 25 Crc.reset with crcOwner := some a }
    | some b => if b = a then s.updCrc 25 Crc.reset else s.setErr crcPage 1

/-- OWN.REQ = 0 (R299). -/
def State.crcOwnRelease (s : State) (a : CrcParty) : State :=
  if !s.crcReach a then s
  else match s.crcOwner with
    | none => s
    | some b => if b = a then { s with crcOwner := none } else s.setErr crcPage 0

/-- CRC25 is released when a session or the service image ends (R299). -/
def State.crcDrop (s : State) (a : CrcParty) : State := if s.crcOwner = some a then { s with crcOwner := none } else s

/-- Whether the registers of an engine are reachable: those of CRC8–CRC23 read 0 while PORTG3 is not ON (R298). -/
def State.crcLive (s : State) (i : Fin 26) : Bool := !(8 ≤ i.val && i.val ≤ 23) || s.domOn (Dm.PORTG 3)

/-- RESULT (R293, R297). -/
def State.crcResult (s : State) (i : Fin 26) : Nat :=
  if !s.crcLive i then 0 else if i.val = 25 then (s.crc i).form (s.crc i).r else (s.crc i).result

/-- RAW (R297). -/
def State.crcRaw (s : State) (i : Fin 26) : Nat :=
  if !s.crcLive i then 0 else if i.val = 25 then (s.crc i).r else (s.crc i).raw

/-- `CRC_DATA8` (R296). -/
def execCrcData8 (a : CrcParty) (i : Fin 26) (v : Byte) (s : State) : Result := .next (s.crcFeed a i [v])

/-- `CRC_DATA16` (R296): bits [7:0] first. -/
def execCrcData16 (a : CrcParty) (i : Fin 26) (v : BitVec 16) (s : State) : Result :=
  .next (s.crcFeed a i (bytesLE 2 v.toNat))

/-- `CRC_DATA32` (R296): bits [7:0] first. -/
def execCrcData32 (a : CrcParty) (i : Fin 26) (v : Word) (s : State) : Result :=
  .next (s.crcFeed a i (bytesLE 4 v.toNat))

/-- `CRC_RESET` (R295). -/
def execCrcReset (a : CrcParty) (i : Fin 26) (s : State) : Result := .next (s.crcWrite a i Crc.reset)

/-- `CRC_CONFIG_WRITE` (R295). -/
def execCrcConfigWrite (a : CrcParty) (i : Fin 26) (r : CrcReg) (v : Word) (s : State) : Result :=
  .next (s.crcConfig a i r v.toNat)

/-- `CRC_RESULT_READ` (R297): the word read goes to `bus`. -/
def execCrcResultRead (i : Fin 26) (s : State) : Result := .next (s.answer crcPage (word (s.crcResult i)))

/-- `CRC_RAW_READ` (R297). -/
def execCrcRawRead (i : Fin 26) (s : State) : Result := .next (s.answer crcPage (word (s.crcRaw i)))

/-- `CRC_OWN_REQUEST` (R299). -/
def execCrcOwnRequest (a : CrcParty) (s : State) : Result := .next (s.crcOwnRequest a)

/-- `CRC_OWN_RELEASE` (R299). -/
def execCrcOwnRelease (a : CrcParty) (s : State) : Result := .next (s.crcOwnRelease a)

end Sys2Proof.Machine
end

