-- ==== Sys2Proof/Machine/AesOps.lean ====
section
/-!
DEFINITION. The AES3 receiver and transmitter (04_aes3_ports.md): tags, channel-status blocks, CRCC, preambles.
-/
namespace Sys2Proof.Machine

/-- Event bits of R103. -/
abbrev aesLocked := 0
abbrev aesUnlocked := 1
abbrev aesCsNew := 2
abbrev aesCrccErr := 3
abbrev aesBlockErr := 4
abbrev aesParityErr := 5
abbrev aesCsSwapped := 6
abbrev aesCsResync := 7

/-- `s` with the AES3 side of port `n` changed. -/
def State.updAes (s : State) (n : Fin 32) (f : Aes → Aes) : State := s.updSap n fun p => { p with aes := f p.aes }

/-- Port SAP24 + k. -/
abbrev aesPort (k : Fin 8) : Fin 32 := ⟨24 + k.val, by omega⟩

/-- The receive and transmit engines of a port (R101). -/
def rxEngine (n : Fin 32) : Fin 26 := Fin.ofNat 26 (8 + (n.val - 24))
def txEngine (n : Fin 32) : Fin 26 := Fin.ofNat 26 (16 + (n.val - 24))

/-- The bytes of a run of channel-status bits: byte i bit b is the bit of frame 8 × i + b. -/
def csBytes (bs : List Bool) : List Byte :=
  (List.range 24).map fun i => BitVec.ofNat 8 (((List.range 8).map fun b => bit (bs.getD (8 * i + b) false) * 2 ^ b).sum)

/-- Bit `j` of a channel-status buffer. -/
def csBit (bytes : List Byte) (j : Nat) : Bool := bitOf (bytes.getD (j / 8) 0).toNat (j % 8)

/-- The CRCC over bytes 0–22 (R101). -/
def crccOf (bytes : List Byte) : Nat := Crc.crcc.value (bytes.take 23)

/-- A bound AES3 engine after a block: RESULT holds channel 0 in [7:0] and channel 1 in [15:8] (12_crc_engines.md R293);
COUNT is the 23 bytes of one channel (DESIGN CHOICE, notes/assumptions/83.md), and which running value RAW shows is left open. -/
def State.aesEngine (s : State) (i : Fin 26) (a b : Option Nat) : State :=
  if a.isNone && b.isNone then s
  else
    let c := s.crc i
    let ra := a.getD (c.result % 256)
    let rb := b.getD (c.result / 256 % 256)
    let (pick, t) := s.free 2
    t.updCrc i fun e => { e with result := rb * 256 + ra, count := 23, raw := if pick = 0 then reverseBits 8 ra else reverseBits 8 rb }

/-- Whether a port receives AES3: its domain is ON and its configuration says so.  The receiver follows its input in STOPPED as well, and
LOCK keeps its last state while the configuration is another (DESIGN CHOICE, notes/assumptions/83.md). -/
def State.aesRx (s : State) (n : Fin 32) : Bool :=
  24 ≤ n.val && s.domOn (Dm.PORTG 3) && s.isAes n && s.dir n 0 == 1 && !s.sapDeaf n

/-! ## Receiving (R95, R96, R98, R101, R102) -/

/-- The sample of a received subframe (Table 4.2); one with a parity or coding error repeats the channel's previous
sample, tagged SYNTH with VALID clear (Table 4.4). -/
def State.aesSample (s : State) (n : Fin 32) (x : RxSub) (z : Bool) (prev : Int) : Sample :=
  let bits : Tag := { Tag.clear with u := x.u, c := x.c, blockStart := z }
  if x.parityErr || x.codeErr then ⟨prev, { bits with synth := true }⟩
  else ⟨signed 32 (x.data.toNat / 256 * 256), { bits with valid := !x.v || s.flag (Fd.SAP_AES_CFG_V_IGNORE n) }⟩

/-- Counts and events of a subframe with an error (Table 4.4). -/
def State.aesErrors (s : State) (n : Fin 32) (x : RxSub) : State :=
  if x.parityErr || x.codeErr then
    let t := s.countSat (Fd.SAP_AES_ERR_CNT_PARITY n) 1
    let u := if x.codeErr then t.countSat (Fd.SAP_AES_ERR_CNT_CODE n) 1 else t
    u.raiseAes (sapPage n) aesParityErr
  else s

/-- What the end of a block says of one channel: whether its CRCC was checked, whether it passed, and the bytes. -/
structure CsEnd where
  checked : Bool
  passed : Bool
  bytes : List Byte
  crc : Nat
deriving DecidableEq, Repr

/-- Judges a received channel-status block (R101). -/
def State.csJudge (s : State) (n : Fin 32) (bs : List Bool) : CsEnd :=
  let by_ := csBytes bs
  let chk := s.flag (Fd.SAP_AES_CFG_CRCC_CHECK n) && csBit by_ 0
  let v := crccOf by_
  ⟨chk, v = (by_.getD 23 0).toNat, if chk then by_.take 23 ++ [0] else by_, v⟩

/-- A CRCC mismatch is counted and raised; the result shows in CRCC_OK (R101). -/
def State.csCrcc (s : State) (n : Fin 32) (e : CsEnd) (okFld : Fld) : State :=
  if !e.checked then s
  else
    let t := s.setFld okFld (bit e.passed)
    if e.passed then t else (t.countSat (Fd.SAP_AES_CS_CNT_CRCC_ERR n) 1).raiseAes (sapPage n) aesCrccErr

/-- The end of frame 191: the blocks of both channels are copied where they are whole and valid (R98); two copies at one frame count
as one block in BLOCKS (DESIGN CHOICE, notes/assumptions/83.md). -/
def State.csBlockEnd (s : State) (n : Fin 32) : State :=
  let x := s.saps[n].aes
  let ea := s.csJudge n x.rxA
  let eb := s.csJudge n x.rxB
  let t := ((s.csCrcc n ea (Fd.SAP_AES_RX_STAT_CRCC_OK_A n)).csCrcc n eb (Fd.SAP_AES_RX_STAT_CRCC_OK_B n)).aesEngine
    (rxEngine n) (if ea.checked then some ea.crc else none) (if eb.checked then some eb.crc else none)
  let ca := x.okA && (!ea.checked || ea.passed)
  let cb := x.okB && (!eb.checked || eb.passed)
  let u := t.updAes n fun a =>
    { a with heldA := if ca then ea.bytes else a.heldA, heldB := if cb then eb.bytes else a.heldB }
  let v := if ca || cb then
      (u.countWrap (Fd.SAP_AES_RX_STAT_BLOCKS n) 1).setFld (Fd.SAP_AES_RX_STAT_CS_STALE n) 0
    else u
  let w := if ca then
      (v.setFld (Fd.SAP_AES_RX_STAT_PRO n) (bit (csBit ea.bytes 0))).setFld (Fd.SAP_AES_RX_STAT_NONAUDIO n) (bit (csBit ea.bytes 1))
    else v
  if (ca && ea.bytes != x.heldA) || (cb && eb.bytes != x.heldB) then w.raiseAes (sapPage n) aesCsNew else w

/-- Channel-status assembly of one received frame (R98, Table 4.4). -/
def State.csFrame (s : State) (n : Fin 32) (a b : RxSub) (z : Bool) : State :=
  let x := s.saps[n].aes
  let s1 := if z then
      let bad := match x.rxPos with
        | some p => p != 192
        | none => false
      let t := s.updAes n fun y => { y with rxPos := some 0, rxA := [], rxB := [], okA := true, okB := true }
      if bad then (t.countSat (Fd.SAP_AES_CS_CNT_BLOCK_ERR n) 1).raiseAes (sapPage n) aesBlockErr else t
    else s
  match s1.saps[n].aes.rxPos with
  | none => s1
  | some p =>
    if 192 ≤ p then s1.updAes n fun y => { y with rxPos := some (p + 1) }
    else
      let s2 := s1.updAes n fun y =>
        { y with rxPos := some (p + 1), rxA := y.rxA ++ [a.c], rxB := y.rxB ++ [b.c],
                 okA := y.okA && !(a.parityErr || a.codeErr), okB := y.okB && !(b.parityErr || b.codeErr) }
      if p = 191 then s2.csBlockEnd n else s2

/-! ## Sending (R95–R97, R99–R101) -/

/-- The 24-bit word sent for a sample in `keep` of its bits, with the dither of R60 where asked
(PRESUMED, notes/assumptions/42.md). -/
def State.cutWord (s : State) (v : Int) (keep : Nat) (dither : Bool) : Nat × State :=
  let w24 : Int := v / 256
  if 24 ≤ keep then (unsigned 24 w24, s)
  else
    let lsb : Int := 2 ^ (24 - keep)
    let (d, t) := if dither then s.freeInt (-lsb) lsb else (0, s)
    let x := clampInt (-8388608) 8388607 (w24 + d)
    (unsigned 24 (x / lsb * lsb), t)

/-- The channel-status bit sent at a position: the tag's or the active buffer's, with byte 23 replaced by the CRCC of
the bits sent where R101 says so. -/
def csSend (gen fromTag : Bool) (tagC : Bool) (buf : List Byte) (sent : List Bool) (j : Nat) : Bool :=
  if gen && 184 ≤ j && sent.getD 0 false then bitOf (crccOf (csBytes sent)) (j - 184)
  else if fromTag then tagC else csBit buf j

/-- The two subframes sent for a frame; `madeA` and `madeB` mark samples that the port makes itself (R100)
(PRESUMED, notes/assumptions/42.md). -/
def State.aesSend (s : State) (n : Fin 32) (a b : Sample) (madeA madeB : Bool) : State :=
  let x := s.saps[n].aes
  let srcTag := s.flag (Fd.SAP_AES_CFG_CS_SRC n)
  let gen := s.flag (Fd.SAP_AES_CFG_CRCC_GEN n)
  let startBit := srcTag && !madeA && a.tag.blockStart
  let z := !x.started || startBit || x.txPos = 0 || 192 ≤ x.txPos
  let resync := srcTag && x.started && ((startBit && x.txPos ≠ 192 && x.txPos ≠ 0) || (192 ≤ x.txPos && !startBit))
  let j := if z then 0 else x.txPos
  let sentA := if z then [] else x.tagA
  let sentB := if z then [] else x.tagB
  let ca := csSend gen (srcTag && !madeA) a.tag.c x.txA sentA j
  let cb := csSend gen (srcTag && !madeB) b.tag.c x.txB sentB j
  let usrc := s.flag (Fd.SAP_AES_CFG_U_SRC n)
  let force := s.flag (Fd.SAP_AES_TX_CTRL_V_FORCE n)
  let keep := if s.flag (Fd.SAP_AES_CFG_TX_WORD20 n) then 20 else 24
  let dith := s.flag (Fd.SAP_FMT_DITHER n)
  let (wa, s1) := s.cutWord a.v keep dith
  let (wb, s2) := s1.cutWord b.v keep dith
  let sub (w : Nat) (t : Tag) (c made : Bool) : TxSub :=
    let v := force || !t.valid
    let u := usrc && !made && t.u
    ⟨w, v, u, c, (onesCount 24 w + bit v + bit u + bit c) % 2 == 1⟩
  let s3 := (s2.updSap n fun p => { p with sentA := p.sentA.set 1 (sub wa a.tag ca madeA), sentB := p.sentB.set 1 (sub wb b.tag cb madeB), sentZ := z }).updAes n
    fun y => { y with started := true, txPos := j + 1, tagA := sentA ++ [ca], tagB := sentB ++ [cb] }
  let s4 := if j = 191 then
      let fa := sentA.getD 0 false
      let fb := sentB.getD 0 false
      s3.aesEngine (txEngine n) (if gen && fa then some (crccOf (csBytes (sentA ++ [ca]))) else none)
        (if gen && fb then some (crccOf (csBytes (sentB ++ [cb]))) else none)
    else s3
  if resync then s4.raiseAes (sapPage n) aesCsResync else s4

/-! ## Lock (R93, R102) -/

/-- Whether the input that monitor `m` watches is ignored: its pads are held, or VIO is not there (13_power_domains.md R314;
19_electrical_and_package.md R414) (DESIGN CHOICE, notes/assumptions/41.md). -/
def State.monDeaf (s : State) (m : Fin 43) : Bool :=
  !s.vioUp || (if m.val < 3 then s.padHeld Dm.PLL else s.padHeld (Dm.PORTG (if m.val < 35 then (m.val - 3) / 8 else 3)))

/-- A clock edge on a monitored source: a monitor in ABSENT or LOST enters ACQUIRING (02_clocks_and_time.md R35). -/
def State.monEdge (s : State) (m : Fin 43) : State :=
  let st := s.fld (Fd.CLK_MON_STAT_STATE m)
  if s.domOn Dm.PLL && !s.monDeaf m && s.flag (Fd.CLK_MON_CFG_ENABLE m) && (st == 0 || st == 3) then
    let t := (s.setFld (Fd.CLK_MON_STAT_STATE m) 1)
    ({ t with mons := t.mons.set m { t.mons[m] with fromLost := st == 3, glitches := [] } }).raise 0x003 7
  else s

/-- The receiver enters a lock state. -/
def State.aesLockTo (s : State) (n : Fin 32) (code : Nat) : State :=
  let was := s.fld (Fd.SAP_AES_RX_STAT_LOCK n)
  let t := s.setFld (Fd.SAP_AES_RX_STAT_LOCK n) code
  if was = 2 ∧ code ≠ 2 then
    ((t.setFld (Fd.SAP_AES_RX_STAT_CS_STALE n) 1).updAes n fun x => { x with rxPos := none }).raiseAes (sapPage n) aesUnlocked
  else if was ≠ 2 ∧ code = 2 then
    (t.monEdge (Fin.ofNat 43 (35 + n.val - 24))).raiseAes (sapPage n) aesLocked
  else t

/-- The next buffer becomes the active one (R99) (PRESUMED, notes/assumptions/42.md). -/
def State.csCopy (s : State) (n : Fin 32) : State :=
  let bytesOf (base : Nat) : List Byte := (List.range 6).flatMap fun i => bytesLE 4 (s.reg (base + 4 * i)).toNat
  s.updAes n fun x =>
    { x with txA := bytesOf (pageAddr (sapPage n) 0x160), txB := bytesOf (pageAddr (sapPage n) 0x180), swapTick := none }

end Sys2Proof.Machine
end

