-- ==== Sys2Proof/Machine/Clock.lean ====
section
/-!
DEFINITION. Clocks, reference loss, the system counter and ensembles, and their commands (02_clocks_and_time.md).
-/
namespace Sys2Proof.Machine

/-- The page of the clocks, and that of time. -/
abbrev clkPage : Nat := 0x003
abbrev timePage : Nat := 0x004

/-! Event bits of page `CLK` (Table 2.18) and of page `TIME` (Table 2.23). -/

namespace ClkEv
abbrev REF_LOSS := 0
abbrev REF_GLITCH := 1
abbrev REF_RATE_CHANGE := 2
abbrev HOLDOVER_ENTER := 3
abbrev RELOCKED := 4
abbrev SLEW_FALLBACK := 5
abbrev REF_UNUSABLE := 6
abbrev MON_EVENT := 7
end ClkEv

namespace TimeEv
abbrev AGREE_GAINED := 0
abbrev AGREE_LOST := 1
abbrev JUMP := 2
abbrev COARSE_ENTER := 3
abbrev COARSE_EXIT := 4
abbrev PARITY_ERR := 5
end TimeEv

/-! ## The reference (R30, R36) -/

/-- The monitor of a reference code (Table 2.1). -/
def refMon (src : Nat) : Option (Fin 43) :=
  if src = 1 then some 0 else if src = 2 then some 1 else if src = 3 then some 2
  else if 0x20 ≤ src ∧ src ≤ 0x3F then some (Fin.ofNat 43 (3 + (src - 0x20)))
  else if 0x40 ≤ src ∧ src ≤ 0x5F then some (Fin.ofNat 43 (3 + (src - 0x40)))
  else if 0x60 ≤ src ∧ src ≤ 0x67 then some (Fin.ofNat 43 (35 + (src - 0x60)))
  else none

/-- Whether a reference code is one of Table 2.1. -/
abbrev refKnown (src : Nat) : Bool := src == 0 || (refMon src).isSome

/-- The reference selected. -/
abbrev State.refSrc (s : State) : Nat := s.fld Fd.CLK_REF_SEL_SRC

/-- Whether monitor `m` watches the selected reference. -/
abbrev State.isRef (s : State) (m : Fin 43) : Bool := refMon s.refSrc == some m

/-- The states of a monitor (R35). -/
abbrev monAbsent := 0
abbrev monAcquiring := 1
abbrev monPresentSt := 2
abbrev monLost := 3

/-- The state of a monitor. -/
abbrev State.monState (s : State) (m : Fin 43) : Nat := s.fld (Fd.CLK_MON_STAT_STATE m)

/-- Whether a monitor works: the PLL domain is ON and it is enabled. -/
abbrev State.monLive (s : State) (m : Fin 43) : Bool := s.domOn Dm.PLL && s.flag (Fd.CLK_MON_CFG_ENABLE m)

/-- Whether the source of monitor `m` is a usable reference (R36). -/
def State.usable (s : State) (m : Fin 43) : Bool :=
  let k := s.fld (Fd.CLK_MON_STAT_NOMINAL m)
  s.monState m == monPresentSt && rateKnown k && rate441 k == s.flag Fd.CLK_CORE_FAMILY
    && (s.sfld (Fd.CLK_MON_STAT_OFFSET_PPM m)).natAbs ≤ 2000

/-- Whether the selected reference is usable. -/
def State.refUsable (s : State) : Bool :=
  match refMon s.refSrc with
  | some m => s.usable m
  | none => false

/-- The average of the selected reference against its nominal, in units of 0.1 ppm. -/
def State.refWord (s : State) : Int :=
  match refMon s.refSrc with
  | some m => 10 * s.sfld (Fd.CLK_MON_STAT_OFFSET_PPM m)
  | none => 0

/-! ## The PLL (R37–R43) -/

/-- The states of the PLL (Table 2.3). -/
inductive PllState where
  | free | acquire | locked | holdover | slewing | snapMute | snapRelock | snapReturn
deriving DecidableEq, Repr

/-- The code of a PLL state. -/
def PllState.code : PllState → Nat
  | .free => 0
  | .acquire => 1
  | .locked => 2
  | .holdover => 3
  | .slewing => 4
  | .snapMute => 5
  | .snapRelock => 6
  | .snapReturn => 7

/-- The PLL state of a code. -/
def PllState.ofCode : Nat → PllState
  | 1 => .acquire
  | 2 => .locked
  | 3 => .holdover
  | 4 => .slewing
  | 5 => .snapMute
  | 6 => .snapRelock
  | 7 => .snapReturn
  | _ => .free

/-- The state of the PLL. -/
def State.pllState (s : State) : PllState := PllState.ofCode (s.fld Fd.CLK_PLL_STAT_STATE)

/-- The output frequency against nominal Fc, in units of 0.1 ppm. -/
abbrev State.pllWord (s : State) : Int := s.sfld Fd.CLK_PLL_STAT_FREQ_OFFSET

/-! The frequency of a SLEWING PLL moves by at most 10 ppm/s, 100 units in 98,304,000 counts, until it meets the reference; then it may
deviate from it by 10 ppm while the phase is pulled in (R41). -/

/-- The parts of 0.1 ppm in which the frequency of a SLEWING PLL is held: at 10 ppm/s it moves by one part in one count of SYSCNT. -/
def slewUnit : Int := 983040

/-- The counts for which a word is remembered: 1,024 periods at the slowest nominal rate, 8 kHz, and the 4 of a LOSS (R34, R39), with
2,000 ppm to spare. -/
def wordMemory : Nat := 12657000

/-- `s` with another frequency word, the one before remembered for R39; RATIO of the rate converters follows. -/
def State.setWord (s : State) (w : Int) : State :=
  let q := if w = s.pllWord then s.pll
    else { s.pll with past := (s.pllWord, s.syscnt) :: s.pll.past.filter fun x => s.syscnt ≤ x.2 + wordMemory }
  ({ s with pll := q }.setSfld Fd.CLK_PLL_STAT_FREQ_OFFSET w).asrcMeasure

/-- A frequency somewhere within ±20 ppm of nominal (DESIGN CHOICE, notes/assumptions/38.md). -/
def State.freeWord (s : State) : State :=
  let (w, t) := s.freeInt (-200) 200
  t.setWord w

/-- The length of the holdover so far in ms. -/
def State.holdMs (s : State) : Nat := (s.syscnt - s.pll.holdMark) / 98304 % 2 ^ 32

/-- Puts the PLL into a state; HOLD_TIME keeps the length of a holdover that ends. -/
def State.pllTo (s : State) (t : PllState) : State :=
  let u := if s.pllState == .holdover && t != .holdover then s.setFld Fd.CLK_HOLD_TIME_MS s.holdMs else s
  { u.setFld Fd.CLK_PLL_STAT_STATE t.code with pll := { u.pll with follow := t == .locked } }

/-- Enters LOCKED: the word is that of the reference, and no former rate is waited for (R38, R40). -/
def State.lock (s : State) : State :=
  ({ s.pllTo .locked with pll := { (s.pllTo .locked).pll with locking := false, former := 0x1F } }).setWord s.refWord

/-- Enters HOLDOVER (R39), counted and raised (DESIGN CHOICE, notes/assumptions/38.md). -/
def State.enterHoldover (s : State) : State :=
  let t := ({ s with pll := { s.pll with holdMark := s.syscnt, locking := false } }).pllTo .holdover
  (t.countSat Fd.CLK_HOLD_CNT_COUNT 1).raise clkPage ClkEv.HOLDOVER_ENTER

/-- The counts that `n` periods of the selected reference last, by its average (R39) (DESIGN CHOICE, notes/assumptions/85.md). -/
def State.refSpan (s : State) (n : Nat) : Nat :=
  match refMon s.refSrc with
  | some m =>
    n * 98304000 * 1000000 / max (rateHz s.mons[m].nominal * (1000000 + s.sfld (Fd.CLK_MON_STAT_OFFSET_PPM m)).toNat) 1
  | none => 0

/-- The word in counts from `from_` to `upTo`, summed, with `w` the word until the newest entry of `past` that ends later. -/
def wordSum (from_ upTo : Nat) : Int → List (Int × Nat) → Int
  | w, [] => w * (upTo - from_ : Nat)
  | w, (v, at_) :: rest =>
    let cut := max from_ (min upTo at_)
    w * (upTo - cut : Nat) + wordSum from_ cut v rest

/-- The word is the mean of the `span` counts before the last good edge at `last`; where the mean lies beyond 20 ppm, somewhere
between it and that bound (R39) (DESIGN CHOICE, notes/assumptions/85.md). -/
def State.holdMean (s : State) (span last : Nat) : State :=
  let (w, t) := s.divFree (wordSum (last - span) last s.pllWord s.pll.past) (max (last - (last - span)) 1 : Nat)
  let b := clampInt (-200) 200 w
  if w = b then t.setWord w
  else
    let (v, u) := t.freeInt (min b w) (max b w)
    u.setWord v

/-- The frequency of a SLEWING PLL now: from where it was taken last it has come nearer to the reference, by one part in one count
at most; once it has met it, it may deviate by 10 ppm (R41) (DESIGN CHOICE, notes/assumptions/85.md). -/
def State.slewOn (s : State) : State :=
  if s.pllState == .slewing then
    let far : Int := (s.syscnt - s.pll.slewMark : Nat)
    let a := s.pll.slewFrom
    let b := s.refWord * slewUnit
    let dev := 100 * slewUnit
    let pulls := s.pll.matched && decide ((b - a).natAbs ≤ dev.natAbs)
    let lo := if pulls then max (a - far) (b - dev) else max (a - far) (min a b)
    let hi := if pulls then min (a + far) (b + dev) else min (a + far) (max a b)
    let (v, t) := s.freeInt lo hi
    let (w, u) := t.divFree v slewUnit
    { u with pll := { u.pll with slewFrom := v, slewMark := u.syscnt, matched := pulls || decide (v = b) } }.setWord w
  else s

/-- The SNAP multiplier begins a glide (R42) (DEDUCED, notes/assumptions/86.md). -/
def State.snapAim (s : State) (g : Gain) (ticks : Nat) : State :=
  { s with pll := { s.pll with snap := s.pll.snap.aim g ticks } }

/-- Enters SNAP_RETURN. -/
def State.snapReturn (s : State) : State :=
  (s.snapAim (.db 0 1) (s.fld Fd.CLK_SNAP_RETURN_TICKS)).pllTo .snapReturn

/-- `s` with the word following the reference in SNAP_RETURN (Table 2.3). -/
def State.following (s : State) : State := { s with pll := { s.pll with follow := true } }

/-- The selected reference is lost (R39, R43): `span` counts are 1,024 of its periods, and its last good edge came at `last`. -/
def State.refLost (s : State) (span last : Nat) : State :=
  match s.pllState with
  | .free => s.enterHoldover
  | .locked => (s.holdMean span last).enterHoldover
  | .slewing => s.slewOn.enterHoldover
  | .snapMute | .snapRelock => (s.setWord s.pll.heldWord).snapReturn
  | .snapReturn =>
    if s.pll.follow then
      let t := s.holdMean span last
      { t with pll := { t.pll with follow := false } }
    else s
  | .acquire | .holdover => s

/-- The PLL goes free: no reference is selected (R31).  In SNAP_MUTE and SNAP_RELOCK it takes its held word back and the sinks
glide in before it is FREE (DESIGN CHOICE, notes/assumptions/85.md). -/
def State.refNone (s : State) : State :=
  match s.pllState with
  | .locked | .holdover | .slewing => (s.pllTo .free).freeWord
  | .snapMute | .snapRelock => (s.setWord s.pll.heldWord).snapReturn
  | .free => { s with pll := { s.pll with locking := false } }
  | .acquire | .snapReturn => s

/-- A relock begins (R41, R42).  In SNAP_RETURN the SNAP multiplier goes on from its present level: to 0 dB under SLEW, to silence
under SNAP (R43) (DEDUCED, notes/assumptions/86.md). -/
def State.relock (s : State) : State :=
  let off := (s.refWord - s.pllWord).natAbs
  let max := s.fld Fd.CLK_RELOCK_SLEW_MAX
  let q := { s.pll with heldWord := s.pllWord, former := 0x1F, locking := false, matched := false,
                        slewFrom := if s.pllState == .slewing then s.pll.slewFrom else s.pllWord * slewUnit, slewMark := s.syscnt }
  let t := { s with pll := q }
  let snap (u : State) : State := (u.snapAim .mute (u.fld Fd.CLK_SNAP_MUTE_TICKS)).pllTo .snapMute
  if s.flag Fd.CLK_RELOCK_POLICY then snap t
  else if max = 0 ∨ off ≤ 10 * max then t.pllTo .slewing
  else snap (t.raise clkPage ClkEv.SLEW_FALLBACK)

/-- Whether a reference that came back at another nominal rate still holds the PLL in HOLDOVER (R40). -/
def State.rateHeld (s : State) : Bool :=
  match refMon s.refSrc with
  | some m => s.pll.former != 0x1F && s.pll.former != s.fld (Fd.CLK_MON_STAT_NOMINAL m)
  | none => false

/-- The selected reference may have become usable: a relock starts from HOLDOVER, or from a return glide after a loss
(R40–R43). -/
def State.refBack (s : State) : State :=
  if s.refUsable && !s.rateHeld then
    match s.pllState with
    | .holdover | .snapReturn => s.slewOn.relock
    | .slewing | .locked | .snapMute | .snapRelock | .free | .acquire => s
  else s

/-- The selected reference has another average while the PLL follows it. -/
def State.refFollow (s : State) : State :=
  match s.pllState with
  | .locked | .snapReturn =>
    if s.refUsable && s.pll.follow then s.setWord s.refWord else s
  | .free | .acquire | .holdover | .slewing | .snapMute | .snapRelock => s

/-- CLK.CORE is written (R28, R37). -/
def State.coreWrite (s : State) (v : Nat) : State :=
  if s.fld Fd.FAB_STAT_STATE = 0 then
    let t := s.store Adr.CLK_CORE v
    if t.reg Adr.CLK_CORE = s.reg Adr.CLK_CORE then t
    else { t.pllTo .acquire with pll := { t.pll with locking := false, snap := Glide.at (.db 0 1) } }
  else s.setErr clkPage 0

/-- CLK.REF_SEL is written (R30, R40–R42).  A relock under way goes on with another usable reference
(DESIGN CHOICE, notes/assumptions/85.md). -/
def State.refSelWrite (s : State) (v : Nat) : State :=
  let src := bitsAt v 0 7
  if !refKnown src then s.setErr clkPage 1
  else
    let s1 := s.slewOn
    let t := s1.store Adr.CLK_REF_SEL v
    let u := { t with pll := { t.pll with former := 0x1F } }
    let again := src == s.refSrc
    if src = 0 then (if again then u else u.refNone)
    else if u.refUsable then
      match s.pllState with
      | .free => { u with pll := { u.pll with locking := true } }
      | .holdover => u.relock
      | .locked | .slewing => if again then u else u.relock
      | .snapReturn => if u.pll.follow then u else u.relock
      | .acquire | .snapMute | .snapRelock => u
    else
      let w := match refMon src with
        | some m => if u.monState m == monPresentSt then u.raise clkPage ClkEv.REF_UNUSABLE else u
        | none => u
      w.refLost (s.refSpan 1024) s.syscnt

/-! ## Monitors (R34, R35, R44, Tables 2.4 and 2.5) -/

/-- The ports whose lines monitor `m` watches. -/
def State.monPorts (s : State) (m : Fin 43) : List (Fin 32) := (List.finRange 32).filter fun n => s.lineMon n == m.val

/-- Whether a port takes its clock from its monitored pins, or receives AES3 (R45, R91). -/
def State.portFollows (s : State) (n : Fin 32) : Bool := !s.isMaster n || (s.isAes n && s.dir n 0 == 1)

/-- The follower ports that monitor `m` watches. -/
def State.monFollowers (s : State) (m : Fin 43) : List (Fin 32) := (s.monPorts m).filter s.portFollows

/-- A monitor enters a state (Table 2.18 MON_EVENT). -/
def State.monTo (s : State) (m : Fin 43) (st : Nat) (mon : Mon) : State :=
  ({ s.setFld (Fd.CLK_MON_STAT_STATE m) st with mons := s.mons.set m mon }).raise clkPage ClkEv.MON_EVENT

/-- A monitor declares LOSS (R34). -/
def State.monLoss (s : State) (m : Fin 43) : State :=
  let t := ((s.monTo m monLost ⟨true, [], s.mons[m].nominal⟩).setFld (Fd.CLK_MON_STAT_NOMINAL m) s.mons[m].nominal).countSat
    (Fd.CLK_MON_CNT_LOSS_CNT m) 1
  let u := (s.monFollowers m).foldl (fun x n => (x.portLoss n).asrcClock n true) t
  if s.isRef m then
    let former := if u.pll.former = 0x1F then u.fld (Fd.CLK_MON_STAT_NOMINAL m) else u.pll.former
    ({ u with pll := { u.pll with former := former } }.raise clkPage ClkEv.REF_LOSS).refLost (s.refSpan 1024) (s.syscnt - s.refSpan 4)
  else u

/-- A monitor finds a glitch `gap` periods after the one before (R34). -/
def State.monGlitch (s : State) (m : Fin 43) (gap : Nat) : State :=
  let ages := 0 :: ((s.mons[m].glitches.map (· + gap)).filter (· < 1024))
  let t := { s.countSat (Fd.CLK_MON_CNT_GLITCH_CNT m) 1 with mons := s.mons.set m { s.mons[m] with glitches := ages } }
  let u := (t.monFollowers m).foldl (fun x n => x.updSap n fun p => { p with glitch := true }) t
  let v := if u.isRef m then u.raise clkPage ClkEv.REF_GLITCH else u
  let limit := v.fld (Fd.CLK_MON_CFG_GLITCH_LIMIT m)
  if limit ≠ 0 ∧ limit ≤ ages.length then v.monLoss m else v

/-- What the new nominal rate of a monitor does to the ports it watches. -/
def State.monPortsRate (s : State) (m : Fin 43) (code : Nat) (changed : Bool) : State :=
  (s.monFollowers m).foldl (fun x (n : Fin 32) =>
    let y := if changed && code != x.fld (Fd.SAP_CLKCFG_RATE n) then x.portRateChange n code else x
    (y.portPresent n).asrcClock n false) s

/-- The nominal rate and the average that a monitor adopts. -/
def State.monAdopt (s : State) (m : Fin 43) (code : Nat) (ppm : Int) : State :=
  ({ s with mons := s.mons.set m { s.mons[m] with nominal := code } }.setFld (Fd.CLK_MON_STAT_NOMINAL m) code).setSfld
    (Fd.CLK_MON_STAT_OFFSET_PPM m) ppm

/-- The running average lies `ppm` from the nominal rate that the monitor has adopted: beyond 10,000 ppm it is in no band, and its
distance from a nominal is an open value (R33) (DESIGN CHOICE, notes/assumptions/85.md). -/
def State.monAverage (s : State) (m : Fin 43) (ppm : Int) : State :=
  if ppm.natAbs ≤ 10000 then s.monAdopt m s.mons[m].nominal ppm
  else
    let (v, t) := s.free 65536
    (t.setFld (Fd.CLK_MON_STAT_NOMINAL m) 0x1F).setFld (Fd.CLK_MON_STAT_OFFSET_PPM m) v

/-- The selected reference is PRESENT and not usable (R36). -/
def State.refBad (s : State) : State :=
  match refMon s.refSrc with
  | some m => if s.monState m == monPresentSt && !s.usable m then s.raise clkPage ClkEv.REF_UNUSABLE else s
  | none => s

/-- What a new nominal rate of the selected reference does (R36, R40, Table 2.4).  Against R37, a reference that HOLDOVER from ACQUIRE
waits for is held like any other that changes its rate (DESIGN CHOICE, notes/assumptions/85.md). -/
def State.refRate (s : State) (was : Nat) (wasUsable : Bool) (span : Nat) : State :=
  let v := s.raise clkPage ClkEv.REF_RATE_CHANGE
  let w := { v with pll := { v.pll with former := if v.pll.former = 0x1F then was else v.pll.former } }
  let x := if wasUsable && !w.refUsable then w.raise clkPage ClkEv.REF_LOSS else w
  if x.refUsable && !x.rateHeld then x.refBack else (x.refLost span x.syscnt).refBad

/-- A monitor adopts another nominal rate (R34 RATE_CHANGE). -/
def State.monRate (s : State) (m : Fin 43) (code : Nat) (ppm : Int) : State :=
  let was := s.mons[m].nominal
  let ref := s.isRef m
  let held := if ref then s.slewOn else s
  let u := (held.monAdopt m code ppm).monPortsRate m code true
  if ref then u.refRate was (s.usable m) (s.refSpan 1024) else u

/-- A monitor enters PRESENT (R34, R35). -/
def State.monPresent (s : State) (m : Fin 43) (code : Nat) (ppm : Int) : State :=
  let was := s.mons[m].nominal
  let changed := s.mons[m].fromLost && was != code
  let u := ((s.monTo m monPresentSt ⟨false, [], code⟩).monAdopt m code ppm).monPortsRate m code changed
  if !s.isRef m then u
  else if changed then u.refRate was false (s.refSpan 1024)
  else if u.refUsable then u.refBack
  else u.refBad

/-- The average of a monitor in PRESENT is now `ppm` from its nominal (R33); of the selected reference, the PLL follows it, or finds it
lost or usable again (R36, R41, Table 2.4). -/
def State.monMeasure (s : State) (m : Fin 43) (ppm : Int) : State :=
  if s.monLive m && !s.monDeaf m && s.monState m == monPresentSt then
    if s.isRef m then
      let t := s.slewOn.monAverage m ppm
      if s.usable m && t.usable m then t.refFollow
      else if s.usable m then ((t.raise clkPage ClkEv.REF_LOSS).refLost (s.refSpan 1024) s.syscnt).raise clkPage ClkEv.REF_UNUSABLE
      else t.refBack
    else s.monAverage m ppm
  else s

/-- MON_CFGm is written (R35): a write of ENABLE, either way, leaves the monitor in ABSENT without an event
(DESIGN CHOICE, notes/assumptions/38.md). -/
def State.monCfgWrite (s : State) (m : Fin 43) (v : Nat) : State :=
  let s := if s.isRef m then s.slewOn else s
  let old := s.reg (Adr.CLK_MON_CFG m)
  let w := if m.val < 2 then v else putBits v 1 3 (bitsAt old.toNat 1 3)
  let t := ((s.store (Adr.CLK_MON_CFG m) w).setReg (Adr.CLK_MON_STAT m) (regReset (Adr.CLK_MON_STAT m)))
  let u := { t with mons := t.mons.set m ⟨false, [], 0x1F⟩ }
  if s.isRef m && s.usable m then (u.raise clkPage ClkEv.REF_LOSS).refLost (s.refSpan 1024) s.syscnt else u

/-! ## SYSCNT and TICKCNT (R46, R47) -/

/-- A read of SYSCNT_LO latches SYSCNT_HI. -/
def State.latchSys (s : State) : State := s.setReg Adr.TIME_SYSCNT_HI (word (s.syscnt / 2 ^ 32))

/-- A read of TICKCNT_LO latches its set. -/
def State.latchTick (s : State) : State :=
  ((s.setReg Adr.TIME_TICKCNT_HI (word (s.tickcnt / 2 ^ 32 % 2 ^ 16))).setReg Adr.TIME_TICK_SYSCNT_LO (word s.tickSys)).setReg
    Adr.TIME_TICK_SYSCNT_HI (word (s.tickSys / 2 ^ 32))

/-- AGREE is cleared, with its event. -/
def State.loseAgree (s : State) : State :=
  let t := { s with ens := { s.ens with run := 0 } }
  if s.flag Fd.TIME_STATUS_AGREE then (t.setFld Fd.TIME_STATUS_AGREE 0).raise timePage TimeEv.AGREE_LOST else t

/-- AON alone is ON: SYSCNT goes on the sleep tick (R46, R52). -/
def State.enterCoarse (s : State) : State :=
  if s.coarse then s else ({ s with coarse := true }.loseAgree).raise timePage TimeEv.COARSE_ENTER

/-- Fine counting resumes (R46). -/
def State.leaveCoarse (s : State) : State := { s with coarse := false }.raise timePage TimeEv.COARSE_EXIT

/-- Whether any domain other than AON is ON or on its way there, so that the timebase runs. -/
def State.timebase (s : State) : Bool :=
  (List.range 27).any fun d => d != 0 && (match s.dom d with
    | .on | .waking _ | .lowering _ => true
    | .off | .ret => false)

/-- Whether a reset that sets SYSCNT to 0 holds the device: SYSCNT counts from the release (13_power_domains.md R320;
17_boot_images_recovery.md Table 17.1). -/
def State.countHeld (s : State) : Bool :=
  match s.resetHold with
  | some .powerOn | some .supply | some .pin => true
  | some .host | some .watchdog | none => false

/-- SYSCNT goes on by one count of its clock, with the trim of R51 Steer (DESIGN CHOICE, notes/assumptions/1.md). -/
def State.countOn (s : State) : State :=
  if s.countHeld then s
  else if s.coarse then { s with syscnt := s.syscnt + 32 }
  else if s.sysHold ≠ 0 then { s with sysHold := s.sysHold - 1 }
  else if s.ens.steer ≠ 0 ∧ s.ens.steerAt ≤ s.syscnt then
    let (p, t) := s.free (2 ^ 19)
    let ahead : Bool := decide (0 < s.ens.steer)
    { t with
      syscnt := if ahead then t.syscnt else t.syscnt + 2
      ens := { t.ens with steer := if ahead then t.ens.steer - 1 else t.ens.steer + 1,
                          steerAt := (t.syscnt / 2 ^ 19 + 1) * 2 ^ 19 + p } }
  else { s with syscnt := s.syscnt + 1 }

/-! ## Ensembles (R48–R52) -/

/-- The eight groups of seven data bits and an even-parity bit, the first group's first bit in bit 63 (R48). -/
def epochPack (data : Nat) : BitVec 64 :=
  BitVec.ofNat 64 (((List.range 8).map fun g =>
    let d := bitsAt data (49 - 7 * g) 7
    (d * 2 + onesCount 7 d % 2) * 2 ^ (56 - 8 * g)).sum)

/-- The 56 data bits of a frame; none with a parity error. -/
def epochData (f : BitVec 64) : Option Nat :=
  let grp (g : Nat) : Nat := bitsAt f.toNat (56 - 8 * g) 8
  if (List.range 8).all fun g => onesCount 8 (grp g) % 2 == 0
  then some (((List.range 8).map fun g => grp g / 2 * 2 ^ (49 - 7 * g)).sum) else none

/-- The frame of an epoch, a hop count and a command. -/
def epochFrame (epoch hop cmd : Nat) : BitVec 64 := epochPack (epoch % 2 ^ 44 * 2 ^ 12 + hop % 512 * 8 + cmd % 8)

/-- What leaves on `SYNC_OUT` of a frame: nothing while its pad is without VIO or held (19_electrical_and_package.md R414). -/
def State.onSync (s : State) (f : BitVec 64) : Option (BitVec 64) := if s.vioUp then some f else none

/-- Agreement after a frame (R51): the fourth frame in a row with an error of one count or less sets AGREE, a larger
error clears it (DESIGN CHOICE, notes/assumptions/39.md). -/
def State.agreeOn (s : State) (err16 : Int) : State :=
  if err16.natAbs ≤ 16 then
    let t := { s with ens := { s.ens with run := s.ens.run + 1 } }
    if 4 ≤ t.ens.run && !t.flag Fd.TIME_STATUS_AGREE then (t.setFld Fd.TIME_STATUS_AGREE 1).raise timePage TimeEv.AGREE_GAINED
    else t
  else s.loseAgree

/-- ENS_STAT.ERROR of a frame; an error beyond the field is an open value (DESIGN CHOICE, notes/assumptions/39.md). -/
def State.setError (s : State) (err16 : Int) : State :=
  if -32768 ≤ err16 ∧ err16 ≤ 32767 then s.setSfld Fd.TIME_ENS_STAT_ERROR err16
  else
    let (v, t) := s.free 65536
    t.setFld Fd.TIME_ENS_STAT_ERROR v

/-- A member joins: SYSCNT is loaded with the leader's time, JOINED is set and ENS_LOST cleared
(R51 Join) (DESIGN CHOICE, notes/assumptions/39.md). -/
def State.ensJoin (s : State) (lead16 : Int) : State :=
  let (v, t) := s.divFree lead16 16
  let u := { t with syscnt := v.toNat % 2 ^ 64, sysHold := 0, ens := { t.ens with join := false, steer := 0 } }
  (u.setFld Fd.TIME_STATUS_JOINED 1).setFld Fd.TIME_STATUS_ENS_LOST 0

/-- A member steers or steps (R51 Steer, Step). -/
def State.ensSteer (s : State) (lead16 err16 : Int) : State :=
  if err16.natAbs ≤ 256 then
    let (v, t) := s.divFree err16 16
    { t with sysHold := 0, ens := { t.ens with steer := v, steerAt := t.syscnt } }
  else if err16 < 0 then
    let (v, t) := s.divFree lead16 16
    { t with syscnt := v.toNat, sysHold := 0, ens := { t.ens with steer := 0 } }.raise timePage TimeEv.JUMP
  else
    let (v, t) := s.divFree err16 16
    { t with sysHold := v.toNat, ens := { t.ens with steer := 0 } }.raise timePage TimeEv.JUMP

/-- A member takes a frame (R48, R49, R51, R52): in COARSE it neither steers nor joins, then or later for that frame
(DESIGN CHOICE, notes/assumptions/39.md). -/
def State.epochTake (s : State) (f : BitVec 64) : State :=
  match epochData f with
  | none => (s.countSat Fd.TIME_ENS_STAT_PARITY_CNT 1).raise timePage TimeEv.PARITY_ERR
  | some d =>
    let cmd := d % 8
    if 2 ≤ cmd then (s.countSat Fd.TIME_ENS_STAT_PARITY_CNT 1).raise timePage TimeEv.PARITY_ERR
    else
      let hop := d / 8 % 512
      let lead16 : Int := (d / 4096 * 2 ^ 20 + hop * 64) * 16 + s.fld Fd.TIME_ENS_COMP_COMP
      let t := ({ s with ens := { s.ens with last := some f } }.setFld Fd.TIME_STATUS_HOP hop)
      if t.coarse then t
      else
        let err16 : Int := (s.syscnt : Int) * 16 - lead16
        let u := t.setError err16
        (if s.ens.join || cmd = 1 then u.ensJoin lead16 else u.ensSteer lead16 err16).agreeOn err16

/-- ENS_CTRL is written: a new role of MEMBER waits to join, and OFF holds `SYNC_OUT` low (Table 2.21).  JOINED clears then alone;
AGREE, ENS_LOST, the trim and a hold of SYSCNT stay when ROLE leaves MEMBER (DESIGN CHOICE, notes/assumptions/39.md). -/
def State.ensCtrlWrite (s : State) (v : Nat) : State :=
  let was := s.fld Fd.TIME_ENS_CTRL_ROLE
  let t := s.store Adr.TIME_ENS_CTRL v
  let role := t.fld Fd.TIME_ENS_CTRL_ROLE
  let e := t.ens
  let e1 := if role = 1 ∧ bitOf v 3 then { e with rejoin := true } else e
  let e2 := if role = 2 ∧ was ≠ 2 then { e1 with join := true, run := 0 } else e1
  let e3 := if role = 0 then { e2 with out := none } else e2
  let u := { t with ens := e3 }
  if role = 2 ∧ was ≠ 2 then u.setFld Fd.TIME_STATUS_JOINED 0 else u

/-! ## Meanings -/

/-- `CLK_CORE_WRITE` (R28). -/
def execClkCoreWrite (v : Word) (s : State) : Result := .next (if s.pageTakes clkPage then s.coreWrite v.toNat else s)

/-- `REF_SEL_WRITE` (R30) (DESIGN CHOICE, notes/assumptions/38.md). -/
def execRefSelWrite (v : Word) (s : State) : Result := .next (if s.pageTakes clkPage then s.refSelWrite v.toNat else s)

/-- `MON_LOSS` (R34): judged in PRESENT. -/
def execMonLoss (m : Fin 43) (s : State) : Result :=
  .next (if s.monLive m && s.monState m == monPresentSt then s.monLoss m else s)

/-- `MON_GLITCH` (R34): judged in PRESENT; `gap` periods after the glitch before it. -/
def execMonGlitch (m : Fin 43) (gap : Nat) (s : State) : Result :=
  .next (if s.monLive m && !s.monDeaf m && s.monState m == monPresentSt then s.monGlitch m gap else s)

/-- `MON_RATE_CHANGE` (R34): judged in PRESENT; 64 periods within 1 % of the new nominal. -/
def execMonRateChange (m : Fin 43) (code : Fin 18) (ppm : Int) (s : State) : Result :=
  .next (if s.monLive m && !s.monDeaf m && s.monState m == monPresentSt && s.mons[m].nominal != code.val && ppm.natAbs ≤ 10000
    then s.monRate m code.val ppm else s)

/-- `MON_PRESENT` (R34, R35): 64 periods within 1 % of one nominal. -/
def execMonPresent (m : Fin 43) (code : Fin 18) (ppm : Int) (s : State) : Result :=
  .next (
    let t := s.monEdge m
    if t.monLive m && !t.monDeaf m && t.monState m == monAcquiring && ppm.natAbs ≤ 10000 then t.monPresent m code.val ppm else t)

/-- `MON_ACQUIRE_TIMEOUT` (R35). -/
def execMonAcquireTimeout (m : Fin 43) (s : State) : Result :=
  .next (if s.monLive m && s.monState m == monAcquiring
    then s.monTo m (if s.mons[m].fromLost then monLost else monAbsent) s.mons[m] else s)

/-- `REF_UNUSABLE` (R36): the average of the selected reference is now `ppm` from its nominal, beyond 2,000. -/
def execRefUnusable (ppm : Int) (s : State) : Result :=
  .next (match refMon s.refSrc with
    | some m => if 2000 < ppm.natAbs then s.monMeasure m ppm else s
    | none => s)

/-- `REF_USABLE` (R41): the average of the selected reference is now `ppm` from its nominal, within 2,000. -/
def execRefUsable (ppm : Int) (s : State) : Result :=
  .next (match refMon s.refSrc with
    | some m => if ppm.natAbs ≤ 2000 then s.monMeasure m ppm else s
    | none => s)

/-- `PLL_ACQUIRE_DONE` (R37): the end of ACQUIRE, or of a lock from FREE (DESIGN CHOICE, notes/assumptions/3.md). -/
def execPllAcquireDone (s : State) : Result :=
  .next (if s.domOn Dm.PLL then
      match s.pllState with
      | .acquire =>
        if s.refSrc = 0 then (s.pllTo .free).freeWord
        else if s.refUsable then s.lock
        else s.enterHoldover.freeWord.refBad
      | .free =>
        if s.pll.locking && s.refUsable then s.lock else s
      | .locked | .holdover | .slewing | .snapMute | .snapRelock | .snapReturn => s
    else s)

/-- `PLL_SLEW_DONE` (R41): after the frequency has met the reference. -/
def execPllSlewDone (s : State) : Result :=
  .next (if s.domOn Dm.PLL && s.pllState == .slewing && s.pll.matched && s.refUsable
    then s.lock.raise clkPage ClkEv.RELOCKED else s)

/-- `SNAP_MUTE_DONE` (R42): the glide has run its ticks (DESIGN CHOICE, notes/assumptions/4.md). -/
def execSnapMuteDone (s : State) : Result :=
  .next (if s.domOn Dm.PLL && s.pllState == .snapMute && s.pll.snap.left = 0
    then ({ s with pll := { s.pll with snap := Glide.at .mute } }.pllTo .snapRelock).asrcSnap else s)

/-- `SNAP_RELOCK_DONE` (R42). -/
def execSnapRelockDone (s : State) : Result :=
  .next (if s.domOn Dm.PLL && s.pllState == .snapRelock && s.refUsable then (s.setWord s.refWord).snapReturn.following else s)

/-- `SNAP_RETURN_DONE` (R42, R43): LOCKED, or HOLDOVER when the reference was lost meanwhile
(DESIGN CHOICE, notes/assumptions/4.md). -/
def execSnapReturnDone (s : State) : Result :=
  .next (if s.domOn Dm.PLL && s.pllState == .snapReturn && s.pll.snap.left = 0 then
      let t := { s with pll := { s.pll with snap := Glide.at (.db 0 1) } }
      if t.refSrc = 0 then (t.pllTo .free).freeWord
      else if t.refUsable && !t.rateHeld then t.lock.raise clkPage ClkEv.RELOCKED
      else t.enterHoldover
    else s)

/-- `COARSE_EXIT` (R46). -/
def execCoarseExit (s : State) : Result := .next (if s.coarse && s.timebase then s.leaveCoarse else s)

/-- `SYSCNT_LO_READ` (R47): the low word goes to `bus`. -/
def execSyscntLoRead (s : State) : Result := .next (s.latchSys.answer timePage (word s.syscnt))

/-- `TICKCNT_LO_READ` (R47). -/
def execTickcntLoRead (s : State) : Result := .next (s.latchTick.answer timePage (word s.tickcnt))

/-- `EPOCH_FRAME_SEND` (R48): on the leader, when SYSCNT is a multiple of 2^20. -/
def execEpochFrameSend (s : State) : Result :=
  .next (if s.fld Fd.TIME_ENS_CTRL_ROLE = 1 ∧ s.syscnt % 2 ^ 20 = 0 then
      { s with ens := { s.ens with out := s.onSync (epochFrame (s.syscnt / 2 ^ 20) 0 (bit s.ens.rejoin)), rejoin := false } }
    else s)

/-- `EPOCH_FRAME_RECEIVE` (R51); `SYNC_IN` is ignored while VIO is not there (19_electrical_and_package.md R414). -/
def execEpochFrameReceive (f : BitVec 64) (s : State) : Result :=
  .next (if s.fld Fd.TIME_ENS_CTRL_ROLE = 2 ∧ s.vioUp then s.epochTake f else s)

/-- `EPOCH_FRAME_REPEAT` (R49): the last valid frame leaves again with HOP one higher. -/
def execEpochFrameRepeat (s : State) : Result :=
  .next (match s.ens.last with
    | some f =>
      if s.fld Fd.TIME_ENS_CTRL_ROLE = 2 ∧ s.flag Fd.TIME_ENS_CTRL_REPEAT then
        let d := (epochData f).getD 0
        { s with ens := { s.ens with out := s.onSync (epochFrame (d / 4096) (d / 8 % 512 + 1) (d % 8)), last := none } }
      else s
    | none => s)

/-- `ENS_LOST` (R51 Loss). -/
def execEnsLost (s : State) : Result :=
  .next (if s.fld Fd.TIME_ENS_CTRL_ROLE = 2 then
      ({ s with sysHold := 0, ens := { s.ens with join := true, steer := 0 } }.loseAgree).setFld Fd.TIME_STATUS_ENS_LOST 1
    else s)

/-- `ENS_REJOIN` (R48): REJOIN is written on the leader. -/
def execEnsRejoin (s : State) : Result :=
  .next (if s.fld Fd.TIME_ENS_CTRL_ROLE = 1 then { s with ens := { s.ens with rejoin := true } } else s)

end Sys2Proof.Machine
end

