-- ==== Sys2Proof/Machine/Fabric.lean ====
section
/-!
DEFINITION. The fabric: start, stop, swap, crossover, copy, check, gate misses, the tick, and parameter writes, with their
commands (07_fabric_schedule.md, 08_mixing_and_processing.md).
-/
namespace Sys2Proof.Machine

/-! ## Registers and events (Tables 7.9, 7.12, 8.13, 8.16, R190) -/

abbrev fabPage : Nat := 0x010
abbrev mixPage : Nat := 0x011
abbrev procPage : Nat := 0x012

namespace FabEv
abbrev STARTED := 0
abbrev STOPPED := 1
abbrev SWAPPED := 2
abbrev XOVER_DONE := 3
abbrev GATE_MISS := 4
abbrev CHECK_DONE := 5
abbrev COPY_DONE := 6
end FabEv

/-- The states of the fabric (Table 7.9). -/
inductive FabState where
  | stopped | starting | running | stopping
deriving DecidableEq, Repr

/-- The code of a fabric state. -/
def FabState.code : FabState → Nat
  | .stopped => 0
  | .starting => 1
  | .running => 2
  | .stopping => 3

/-- The fabric state of a code. -/
def FabState.ofCode : Nat → FabState
  | 1 => .starting
  | 2 => .running
  | 3 => .stopping
  | _ => .stopped

/-- The state of the fabric. -/
def State.fabState (s : State) : FabState := FabState.ofCode (s.fld Fd.FAB_STAT_STATE)

/-- `s` with the fabric in a state. -/
def State.setFabState (s : State) (t : FabState) : State := s.setFld Fd.FAB_STAT_STATE t.code

/-- Whether the domains that the fabric needs are ON: also those of the granules of its delay lines (01_architecture.md Table 1.9;
DESIGN CHOICE, notes/assumptions/47.md). -/
def State.fabUp (s : State) : Bool :=
  s.domOn Dm.FAB && s.domOn Dm.PLL && s.domOn Dm.CMEM && s.dlines.all fun (l : DLine) => s.granulesOn l.granules

/-- Whether the fabric runs its piste at the next boundary. -/
def State.fabRuns (s : State) : Bool :=
  s.fabUp && (match s.fabState with
    | .running | .stopping => true
    | .stopped | .starting => false)

/-- IDLE_LOCK follows a crossover, a copy and a validated swap (R165). -/
def State.syncLock (s : State) : State :=
  s.setFld Fd.FAB_STAT_IDLE_LOCK
    (bit (s.flag Fd.FAB_STAT_XOVER_ACTIVE || s.flag Fd.FAB_STAT_COPY_BUSY || s.flag Fd.FAB_STAT_SWAP_PEND))

/-- The piste memory that is running, and the idle one. -/
abbrev State.runPiste (s : State) : Nat := s.fld Fd.FAB_STAT_RUN_PISTE
abbrev State.idlePiste (s : State) : Nat := 1 - s.runPiste

/-! ## Admission (R184, R185) -/

/-- The outcome of the checks of a swap. -/
inductive SwapCheck where
  | refused | overBudget | good (p : Piste) (a : Admission)
deriving DecidableEq, Repr

/-- The length of the crossover of a swap with XOVER.TICKS `l`; none while STOPPED (R163). -/
def State.xoverLen (s : State) (l : Nat) : Nat := if s.fabState = .stopped then 0 else l

/-- Validates a swap under XOVER.TICKS `l` (R184), writing the outcome (R185); one refused as busy reaches no outcome and leaves the
registers of the last admission (DESIGN CHOICE, notes/assumptions/46.md). -/
def State.swapCheck (s : State) (l : Nat) : SwapCheck × State :=
  match s.pisteIn s.idlePiste with
  | none => (.refused, (s.admitOut none).setErr fabPage 1)
  | some p =>
    if s.flag Fd.FAB_STAT_XOVER_ACTIVE || s.flag Fd.FAB_STAT_SWAP_PEND then (.refused, s.setErr fabPage 2)
    else if s.flag Fd.FAB_STAT_COPY_BUSY then (.refused, s.setErr fabPage 3)
    else
      let a := admission s.fab.run p (s.xoverLen l)
      let t := s.admitOut (some a)
      if s.fabLimit < a.cost then (.overBudget, t) else (.good p a, t)

/-- A validated swap waits for its apply tick (R165, R176). -/
def State.swapPend (s : State) (p : Piste) (a : Admission) : State :=
  ((s.updFab fun f => { f with pend := some (p, a) }).setFld Fd.FAB_STAT_SWAP_PEND 1).syncLock

/-- A validated swap does not apply after all. -/
def State.swapDrop (s : State) : State :=
  ((s.updFab fun f => { f with pend := none }).setFld Fd.FAB_STAT_SWAP_PEND 0).syncLock

/-- The granules of the delay lines that a piste needs and that are not allocated (R210). -/
def State.linesNeed (s : State) (p : Piste) : Nat :=
  ((p.taps.filter fun i => !s.dlines.any (·.tap == i)).map s.tapNeed).sum

/-- The granules that a swap to `p` needs at its apply tick; while STOPPED lines wait for the start. -/
def State.swapNeed (s : State) (p : Piste) : Nat := if s.fabState = .stopped then 0 else s.linesNeed p

/-! ## The crossover (R178, R182, R211) -/

/-- The lines of taps that only `old` names, freed or set draining. -/
def State.dropLines (s : State) (old : Option Piste) (new : Piste) (drain : Bool) : State :=
  let gone := match old with
    | some o => o.taps.filter fun i => !new.taps.contains i
    | none => []
  if drain then { s with dlines := s.dlines.map fun l => if gone.contains l.tap then { l with draining := true } else l }
  else { s with dlines := s.dlines.filter fun l => !gone.contains l.tap }

/-- The applied swap (R176–R178, R182): the sinks cross under the XOVER.TICKS in force at the apply tick
(DESIGN CHOICE, notes/assumptions/46.md). -/
def State.swapApply (s : State) : State :=
  match s.fab.pend with
  | none => s.setFld Fd.FAB_SWAP_SWAP 0
  | some (p, a) =>
    let old := s.fab.run
    let l := s.fld Fd.FAB_XOVER_TICKS
    let crossing := match old with
      | some o => crossingSinks o p
      | none => []
    let s1 := ((s.setFld Fd.FAB_SWAP_SWAP 0).setFld Fd.FAB_STAT_RUN_PISTE s.idlePiste).setFld Fd.FAB_RUN_COST_COST
      (min a.cost 0xFFFF)
    let s2 := (s1.updFab fun f => { f with run := some p }).swapDrop
    if s.fabState = .stopped then s2.raise fabPage FabEv.SWAPPED
    else
      let s3 := (p.taps.foldl State.allocLine s2).raise fabPage FabEv.SWAPPED
      if 1 ≤ l ∧ crossing ≠ [] then
        let s4 := (s3.updFab fun f =>
          { f with old := old, crossing := crossing, xLen := l, xLaw := s.flag Fd.FAB_XOVER_LAW, xDone := 0,
                   costAfter := a.after, biquadsOld := f.biquads, dynsOld := f.dyns, busesOld := f.buses }).dropLines old p true
        ((s4.setFld Fd.FAB_STAT_XOVER_ACTIVE 1).setFld Fd.FAB_STAT_XOVER_REMAIN l).syncLock
      else
        ((s3.dropLines old p false).updFab fun f => { f with hard := crossing }).raise fabPage FabEv.XOVER_DONE

/-- The crossover ends: the old piste becomes idle and draining lines are freed (R178, Table 7.10). -/
def State.endXover (s : State) : State :=
  let t := s.updFab fun f =>
    { f with old := none, crossing := [], xLen := 0, xDone := 0, biquadsOld := [], dynsOld := [] }
  let u := { t with dlines := t.dlines.filter fun l => !l.draining }
  ((((u.setFld Fd.FAB_STAT_XOVER_ACTIVE 0).setFld Fd.FAB_STAT_XOVER_REMAIN 0).setFld Fd.FAB_RUN_COST_COST
    (min s.fab.costAfter 0xFFFF)).syncLock).raise fabPage FabEv.XOVER_DONE

/-! ## Applied parameter writes (R192, R195, R205, R206, R210, R214) -/

/-- The control word of the object whose word lies at `a`, where the object has a MARK. -/
def objectOf (a : Nat) : Option (Nat × Nat) :=
  if 0x50048000 ≤ a ∧ a < 0x50050000 then
    let b := a / 32 * 32
    some (b, b + 20)
  else if 0x50050000 ≤ a ∧ a < 0x50054000 then
    let b := a / 64 * 64
    some (b, b)
  else if 0x50054000 ≤ a ∧ a < 0x50056000 then
    let b := a / 16 * 16
    some (b, b)
  else none

/-- The object at `b` carries SETTLING from this tick on: its MARK is read when every word of the tick has applied
(DESIGN CHOICE, notes/assumptions/46.md). -/
def State.markObject (s : State) (b : Nat) : State :=
  s.updFab fun f => { f with markPend := if f.markPend.contains b then f.markPend else f.markPend ++ [b] }

/-- RESET = 1 clears the state of the object at `b` (R206). -/
def State.objectClear (s : State) (b : Nat) : State :=
  if b < 0x50050000 then
    let i := (b - 0x50048000) / 32
    s.updFab fun f => { f with biquads := sparseErase i f.biquads, biquadsOld := sparseErase i f.biquadsOld }
  else
    let i := (b - 0x50050000) / 64
    s.updFab fun f => { f with dyns := sparseErase i f.dyns, dynsOld := sparseErase i f.dynsOld }

/-- RESTART = 1 resets phase, noise and sweep of generator `j`: its noise begins anew from SEED (R214)
(DESIGN CHOICE, notes/assumptions/23.md). -/
def State.genRestart (s : State) (j : Nat) : State :=
  s.updFab fun f => { f with gens := upd f.gens j fun _ => { Gen.fresh with seed := s.genSeed j } }

/-- Whether `a` is MAXLEN of a tap. -/
def isMaxlen (a : Nat) : Bool := 0x50054000 ≤ a && a < 0x50056000 && a % 16 == 8

/-- Whether `a` is MAXLEN of a tap whose line is allocated (R210) (DESIGN CHOICE, notes/assumptions/47.md). -/
def State.maxlenFixed (s : State) (a : Nat) : Bool :=
  isMaxlen a && s.dlines.any (·.tap == (a - 0x50054000) / 16)

/-- A parameter word applies. -/
def State.paramApply (s : State) (a v : Nat) : State :=
  if s.maxlenFixed a then s
  else
    let t := s.store a v
    match objectOf a with
    | some (b, c) =>
      let changed := t.reg a != s.reg a
      if a ≠ c then (if changed then t.markObject b else t)
      else if 0x50054000 ≤ a then t
      else
        let bypass := bitOf (t.reg a).toNat 31 != bitOf (s.reg a).toNat 31
        let t2 := if bitOf v 30 then t.objectClear b else t
        if bypass || bitOf v 30 then t2.markObject b else t2
    | none =>
      if isGainAddr a then t.aimGain a
      else if 0x50056000 ≤ a ∧ a < 0x50056400 ∧ a % 64 = 0 ∧ bitOf v 4 then t.genRestart ((a - 0x50056000) / 64) else t

/-- Direct writes due at the boundary apply, in the order in which they came (R193)
(DESIGN CHOICE, notes/assumptions/15.md). -/
def State.flushParams (s : State) : State :=
  s.tickWrites.foldl (fun t e => t.paramApply e.1 e.2) { s with tickWrites := [] }

/-- A direct parameter write: at once while STOPPED, else at the next boundary (R192). -/
def State.paramWrite (s : State) (a v : Nat) : State :=
  if s.fabState = .stopped then s.paramApply a v else { s with tickWrites := s.tickWrites ++ [(a, v)] }

/-- The page that governs a parameter word (R192). -/
def paramPage (a : Nat) : Nat := if a < 0x50048000 then mixPage else procPage

/-! ## Start and stop (R161, R162) -/

/-- RUN = 1 while STOPPED: admission of the start piste, and its lines (R161, R210); refused in RECOVERY
(17_boot_images_recovery.md R393). -/
def State.fabStart (s : State) : State :=
  let b := s.fld Fd.FAB_CTRL_START_PISTE
  let refuse (t : State) : State := (t.setFld Fd.FAB_CTRL_RUN 0).setErr fabPage 0
  if s.fld Fd.SYS_MODE_MODE = 2 then refuse s else
  match s.pisteIn b with
  | none => refuse (s.admitOut none)
  | some p =>
    let a := admission none p 0
    let t := s.admitOut (some a)
    if s.fabLimit < a.cost then refuse t
    else if s.granFree < s.linesNeed p then refuse (t.setErr procPage 0)
    else
      let u := t.updFab fun f =>
        { f with run := some p, old := none, crossing := [], xLen := 0, xDone := 0, glide := Glide.at .mute, ending := false, runNext := none,
                 hard := [], misses := [] }
      ((p.taps.foldl State.allocLine u).setFld Fd.FAB_STAT_RUN_PISTE b).setFld Fd.FAB_RUN_COST_COST (min a.cost 0xFFFF)
        |>.setFabState .starting

/-- A write of RUN that waits takes its place (R162). -/
def State.takeRun (s : State) : State :=
  match s.fab.runNext with
  | none => s
  | some r => (s.updFab fun f => { f with runNext := none }).setFld Fd.FAB_CTRL_RUN (bit r)

/-- The fabric enters STOPPED: from then on nothing waits for a tick (R163), and a RUN = 1 written meanwhile starts it again; a
crossover of a swap that applied during the stop glide keeps its state (DESIGN CHOICE, notes/assumptions/46.md). -/
def State.fabStopped (s : State) : State :=
  let t := (s.flushParams.takeRun.updFab fun f =>
    { f with busOut := f.busOut.map fun _ => Sample.zero, genOut := f.genOut.map fun _ => Sample.zero, sinks := [],
             misses := [], hard := [], ending := false, glide := Glide.at .mute }).setFabState .stopped
  let u := { t with dlines := [], portSink := t.portSink.map fun _ => Sample.zero,
                    asrcs := t.asrcs.map fun (q : Asrc) => { q with input := Sample.zero } }.raise fabPage FabEv.STOPPED
  if u.flag Fd.FAB_CTRL_RUN then u.fabStart else u

/-- The stop glide begins, in the tick of this boundary; a running crossover ends at once (R162). -/
def State.fabStopping (s : State) : State :=
  let t := if s.flag Fd.FAB_STAT_XOVER_ACTIVE then s.endXover else s
  let l := t.fld Fd.FAB_START_GLIDE_TICKS
  (t.updFab fun f => { f with glide := f.glide.aim .mute l, ending := true }).setFabState .stopping

/-- A write of RUN that waits applies at the boundary that begins now: RUN = 0 stops a fabric that runs, and one that still starts
without a glide (R162) (DESIGN CHOICE, notes/assumptions/46.md). -/
def State.stopDue (s : State) : State :=
  let t := s.takeRun
  if t.flag Fd.FAB_CTRL_RUN then t
  else match t.fabState with
    | .running => t.fabStopping
    | .starting => t.fabStopped
    | .stopped | .stopping => t

/-- CTRL is written (R161; START_PISTE acts only while STOPPED, Table 7.8).  While STOPPED RUN applies at once; otherwise it waits for
the next boundary and CTRL shows the applied value until then (R162); RUN = 1 is refused in RECOVERY
(17_boot_images_recovery.md R393) (DESIGN CHOICE, notes/assumptions/46.md). -/
def State.fabCtrlWrite (s : State) (v : Nat) : State :=
  let run := bitOf v 0
  if s.fabState = .stopped then
    let t := (s.setFld Fd.FAB_CTRL_START_PISTE (bit (bitOf v 4))).setFld Fd.FAB_CTRL_RUN (bit run)
    if run then t.fabStart else t
  else if run && s.fld Fd.SYS_MODE_MODE == 2 then s.setErr fabPage 0
  else s.updFab fun f => { f with runNext := some run }

/-- Whether the fabric starts at the next boundary (R161), no RUN = 0 waiting for it (R162)
(DESIGN CHOICE, notes/assumptions/80.md). -/
def State.startsNow (s : State) : Bool :=
  s.fabUp && s.fabState == .starting && s.pllState != .acquire && s.fab.runNext != some false

/-! ## Copy and check (R169, R185) -/

/-- The memory of the running piste over that of the idle one (DESIGN CHOICE, notes/assumptions/29.md). -/
def State.copyPiste (s : State) : State :=
  let src := pisteBase s.runPiste
  let dst := pisteBase s.idlePiste
  let lo := s.mem.filter fun e => e.1 < dst
  let mid := (s.mem.filter fun e => src ≤ e.1 && e.1 < src + 0x20000).map fun e => (e.1 - src + dst, e.2)
  let hi := s.mem.filter fun e => dst + 0x20000 ≤ e.1
  { s with mem := lo ++ mid ++ hi }

/-- COPY is written 1.  The idle piste holds the copy from here on, so that a swap meanwhile finds a valid piste and fails as R183
lays down (DESIGN CHOICE, notes/assumptions/29.md). -/
def State.copyStart (s : State) : State :=
  if s.flag Fd.FAB_STAT_IDLE_LOCK then s.setErr fabPage 3 else (s.copyPiste.setFld Fd.FAB_STAT_COPY_BUSY 1).syncLock

/-- CHECK.START is written 1: the idle piste is admitted as if it were swapped now.  The busy check of R183 aborts a swap and there is none
here, so a check during a crossover, a waiting swap or a copy goes on to the budget; and a piste that it finds invalid is shown by
CHECK_COST.INVALID alone, since ERR.PISTE_INVALID belongs to a swap that aborts (R184)
(DESIGN CHOICE, notes/assumptions/46.md). -/
def State.checkStart (s : State) : State :=
  let a := (s.pisteIn s.idlePiste).map fun p => admission s.fab.run p (s.xoverLen (s.fld Fd.FAB_XOVER_TICKS))
  (s.updFab fun f => { f with check := some a }).setFld Fd.FAB_STAT_CHECK_BUSY 1

/-! ## One tick (R161, R162, R170–R172, R178, R179, R182, R186–R188) -/

/-- Sinks that the start, stop and SNAP glides leave alone (R161). -/
def State.sinkInner (s : State) (id : Nat) : Bool :=
  isBusSink id || (0x0A0 ≤ id && id < 0x0E0 && s.asrcDir (id - 0x0A0) == 0)

/-- The mix of an old and a new result in crossover tick `i` (R178, R179). -/
def State.mixXover (s : State) (i l : Nat) (law : Bool) (old new : Sample) : Sample × State :=
  let (v, t) := if law then (equalPower i l old.v new.v, s)
    else s.divFree (old.v * (l - i : Nat) + new.v * (i + 1 : Nat)) (l + 1 : Nat)
  let q := clampInt sampleMin sampleMax v
  (⟨q, { valid := old.tag.valid || new.tag.valid, settling := old.tag.settling || new.tag.settling,
         synth := old.tag.synth || new.tag.synth, xover := true, clipped := old.tag.clipped || new.tag.clipped || q != v,
         u := new.tag.u, c := new.tag.c, blockStart := new.tag.blockStart }⟩, t)

/-- The sample that a sink takes under the start and stop glide and the SNAP glide. -/
def State.fadeSink (s : State) (id : Nat) (gliding snapping : Bool) (x : Sample) : Sample :=
  if s.sinkInner id then x
  else
    let y : Sample := if gliding || s.fab.glide.now != .db 0 1 then
        ⟨fadeCode s.fab.glide.now x.v, { x.tag with settling := x.tag.settling || gliding }⟩ else x
    match s.pllState with
    | .snapMute => ⟨fadeCode s.pll.snap.now y.v, { y.tag with synth := true }⟩
    | .snapRelock => Sample.silence
    | .snapReturn | .free | .acquire | .locked | .holdover | .slewing =>
      if snapping then ⟨fadeCode s.pll.snap.now y.v, { y.tag with settling := true }⟩ else y

/-- A stage under way: what its programs have produced so far. -/
structure StageRun where
  s : State
  sinks : List (Nat × Sample)
  buses : List (Nat × Sample)
  gens : List (Nat × Sample)

/-- What a tick of the fabric knows: its gate miss, and whether the glides are under way. -/
structure TickRun where
  miss : Option GateMiss
  gliding : Bool
  snapping : Bool

/-- Whether sink `id` misses the gate. -/
def TickRun.late (r : TickRun) (id : Nat) : Bool :=
  match r.miss with
  | some m => m.sinks.contains id
  | none => false

/-- Whether generator `j` misses the gate. -/
def TickRun.lateGen (r : TickRun) (j : Nat) : Bool :=
  match r.miss with
  | some m => m.gens.contains j
  | none => false

/-- A sink whose program has not completed (R186, R187); a bus holds its last value, also beyond the eighth tick, since R187 speaks of
what a sink delivers and R186 gives a bus output its last value without an end (DESIGN CHOICE, notes/assumptions/46.md). -/
def StageRun.missed (x : StageRun) (id : Nat) : StageRun :=
  let n := sparseGet 0 x.s.fab.misses id + 1
  let last := ((x.s.fab.sinks.find? (·.1 == id)).map fun e => e.2.v).getD 0
  let y : Sample := ⟨if 8 < n then 0 else last, Tag.made⟩
  let held : Sample := ⟨(at_ x.s.fab.busOut (id - 0x0E0) Sample.zero).v, Tag.made⟩
  { x with s := x.s.updFab fun f => { f with misses := sparseSet 0 f.misses id n },
           sinks := x.sinks ++ [(id, y)],
           buses := if isBusSink id then x.buses ++ [(id - 0x0E0, held)] else x.buses }

/-- A sink that completes with result `y`. -/
def StageRun.done (x : StageRun) (r : TickRun) (id : Nat) (y : Sample) : StageRun :=
  let h : Sample := if x.s.fab.hard.contains id then { y with tag := { y.tag with settling := true } } else y
  { x with s := x.s.updFab fun f => { f with misses := sparseErase id f.misses },
           sinks := x.sinks ++ [(id, x.s.fadeSink id r.gliding r.snapping h)],
           buses := if isBusSink id then x.buses ++ [(id - 0x0E0, h)] else x.buses }

/-- Whether sink `id` is mixed with an old result in this tick. -/
def State.crossesNow (s : State) (id : Nat) : Bool := s.fab.crossing.contains id && decide (s.fab.xDone < s.fab.xLen)

/-- A program of the new piste. -/
def StageRun.prog (r : TickRun) (x : StageRun) (p : Prog) : StageRun :=
  if p.gen then
    if r.lateGen p.id then
      { x with gens := x.gens ++ [(p.id, ⟨(at_ x.s.fab.genOut p.id Sample.zero).v, Tag.made⟩)] }
    else
      let (y, t) := x.s.runGen p.id
      { x with s := t, gens := x.gens ++ [(p.id, y)] }
  else if r.late p.id then x.missed p.id
  else
    let (y, t, taps) := x.s.runProg p.id p.items false []
    if t.crossesNow p.id then
      let (z, u) := match t.fab.old.bind fun o => o.sink p.id with
        | some q =>
          let w := t.runProg p.id q.items true taps
          (w.1, w.2.1)
        | none => (Sample.zero, t)
      let (m, v) := u.mixXover u.fab.xDone u.fab.xLen u.fab.xLaw z y
      StageRun.done { x with s := v } r p.id m
    else StageRun.done { x with s := t } r p.id y

/-- A sink that only the old piste names: its old program alone, fading out (R178). -/
def StageRun.oldProg (r : TickRun) (x : StageRun) (q : Prog) : StageRun :=
  if r.late q.id then x.missed q.id
  else
    let w := x.s.runProg q.id q.items true []
    let (m, v) := w.2.1.mixXover w.2.1.fab.xDone w.2.1.fab.xLen w.2.1.fab.xLaw w.1 Sample.zero
    StageRun.done { x with s := v } r q.id m

/-- The programs that only the old piste names and that still fade out. -/
def State.oldOnly (s : State) (p : Piste) : List Prog :=
  match s.fab.old with
  | some o => o.progs.filter fun q => !q.gen && (p.sink q.id).isNone && s.crossesNow q.id
  | none => []

/-- One stage: its results reach the sources when it ends (R171). -/
def StageRun.stage (r : TickRun) (p : Piste) (x : StageRun) (k : Nat) : StageRun :=
  let y := (p.progs.filter (·.stage == k)).foldl (StageRun.prog r) { x with buses := [], gens := [] }
  let z := ((x.s.oldOnly p).filter fun q => min q.stage p.stages == k).foldl (StageRun.oldProg r) y
  { z with s := z.s.updFab fun f =>
      { f with busOut := z.buses.foldl (fun v e => upd v e.1 fun _ => e.2) f.busOut,
               genOut := z.gens.foldl (fun v e => upd v e.1 fun _ => e.2) f.genOut } }

/-- Buses and generators without a program deliver 0 (R172). -/
def State.clearIdle (s : State) (p : Piste) : State :=
  let olds := (s.oldOnly p).map (·.id)
  s.updFab fun f =>
    { f with busOut := f.busOut.mapIdx fun i x =>
               if (p.sink (0x0E0 + i)).isSome || olds.contains (0x0E0 + i) then x else Sample.zero,
             genOut := f.genOut.mapIdx fun i x => if p.progs.any fun q => q.gen && q.id == i then x else Sample.zero }

/-- The marks of objects written since the last tick begin (R205). -/
def State.takeMarks (s : State) : State :=
  s.fab.markPend.foldl (fun t b =>
    let c := ((objectOf b).map (·.2)).getD b
    t.updFab fun f => { f with marks := sparseSet 0 f.marks b (bitsAt (t.reg c).toNat 0 12) })
    (s.updFab fun f => { f with markPend := [] })

/-- The events of buses whose program had a SCALE item in this tick and the one before (R203). -/
def State.busEvents (s : State) (before : Vector BusScale 64) : State :=
  (List.range 64).foldl (fun t b =>
    let idle : BusScale := ⟨[], 0, Glide.at (.db 0 1), false⟩
    let x := at_ before b idle
    let y := at_ t.fab.buses b idle
    if x.scaled && y.scaled && t.flag (Fd.MIX_BUS_CFG_EVT b) then
      if x.used ≠ 0 ∧ y.used = 0 then t.raise mixPage 0
      else if x.used = 0 ∧ y.used ≠ 0 then t.raise mixPage 1 else t
    else t) s

/-- The buses whose program has a SCALE item that did not complete in this tick (R186, R200, R202), and those whose old program has
one that did not while it crosses (R204). -/
def State.passScales (s : State) (p : Piste) : State :=
  let scales (o : Option Piste) (i : Nat) : Bool := ((o.bind fun q => q.sink (0x0E0 + i)).any fun q => q.items.contains .scale)
  s.updFab fun f =>
    { f with
      buses := f.buses.mapIdx fun i (b : BusScale) => if !b.scaled && scales (some p) i then b.pass else b
      busesOld := f.busesOld.mapIdx fun i (b : BusScale) =>
        if !b.scaled && s.crossesNow (0x0E0 + i) && scales f.old i then b.pass else b }

/-- A missed gate is counted and recorded (R188)
(DESIGN CHOICE, notes/assumptions/46.md). -/
def State.gateMiss (s : State) (m : GateMiss) : State :=
  let t := (s.countSat Fd.FAB_GATE_MISS_CNT_COUNT 1).setReg Adr.FAB_GATE_LAST (word s.tickcnt)
  let u := ((t.setFld Fd.FAB_GATE_INFO_CAUSE m.cause).setFld Fd.FAB_GATE_INFO_LANE m.lane).setFld Fd.FAB_GATE_INFO_SINK
    (m.sinks.headD 0)
  u.raise fabPage FabEv.GATE_MISS

/-- One more tick of delay crossfades; lines whose tap did not run keep theirs
(DESIGN CHOICE, notes/assumptions/46.md). -/
def State.endFabTick (s : State) (r : TickRun) : State :=
  let cost := s.fld Fd.FAB_RUN_COST_COST
  let load := if r.miss.isSome then max cost s.fabLimit else cost
  let s1 := s.setFld Fd.FAB_MAX_LOAD_CYCLES (max (s.fld Fd.FAB_MAX_LOAD_CYCLES) (min load 0xFFFF))
  let s2 := match r.miss with
    | some m => s1.gateMiss m
    | none => s1
  let s3 := s2.updFab fun f =>
    { f with hard := [], marks := (f.marks.map fun e => (e.1, e.2 - 1)).filter (·.2 != 0),
             buses := f.buses.map fun (b : BusScale) => if b.scaled then b else { b with counts := [], used := 0 },
             xDone := if f.old.isSome then min (f.xDone + 1) f.xLen else f.xDone }
  if s3.flag Fd.FAB_STAT_XOVER_ACTIVE then s3.setFld Fd.FAB_STAT_XOVER_REMAIN (s3.fab.xLen - s3.fab.xDone) else s3

/-- The samples of the sinks reach their blocks: port outputs at rate Fc or behind a converter, and converter inputs
(03_serial_audio_ports.md R63; 05_alignment_and_rate_conversion.md R123). -/
def State.deliverSinks (s : State) : State :=
  let sample (id : Nat) : Sample := ((s.fab.sinks.find? (·.1 == id)).map (·.2)).getD Sample.zero
  { s with
    portSink := Vector.ofFn fun (i : Fin 128) =>
      if s.chanAtFc i.val || (s.converterOf i.val).isSome then sample (0x020 + i.val) else Sample.zero
    asrcs := s.asrcs.mapIdx fun i q => { q with input := sample (0x0A0 + i) } }

/-- One tick of the fabric over the running piste. -/
def State.fabTick (s : State) (miss : Option GateMiss) : State :=
  match s.fab.run with
  | none => s
  | some p =>
    let r : TickRun := ⟨miss, s.fab.glide.moving, s.pll.snap.moving⟩
    let before := s.fab.buses
    let s1 := ({ s with pll := { s.pll with snap := s.pll.snap.step } }.updFab fun f =>
      { f with glide := f.glide.step, buses := f.buses.map fun (b : BusScale) => { b with scaled := false },
               busesOld := f.busesOld.map fun (b : BusScale) => { b with scaled := false } }).stepGains.takeMarks.clearIdle p
    let x := (List.range (p.stages + 1)).foldl (StageRun.stage r p) ⟨s1, [], [], []⟩
    let s2 := ((x.s.updFab fun f => { f with sinks := x.sinks }).passScales p).busEvents before
    (s2.endFabTick r).deliverSinks

/-- The first tick of a start: TICKCNT is 0 and every sink glides in from mute (R161). -/
def State.fabFirst (s : State) : State :=
  let l := s.fld Fd.FAB_START_GLIDE_TICKS
  (({ s with tickcnt := 0 }.updFab fun f => { f with glide := (Glide.at .mute).aim (.db 0 1) l, runNext := none }).setFabState .running).raise
    fabPage FabEv.STARTED

/-! ## Meanings -/

/-- `FABRIC_STOPPED` (R162): the stop glide has run its ticks (DESIGN CHOICE, notes/assumptions/4.md). -/
def execFabricStopped (s : State) : Result :=
  .next (if s.fabState = .stopping ∧ s.fab.glide.left = 0 then s.fabStopped else s)

/-- `COPY_DONE` (R169); a copy in a domain that is not ON stands still (13_power_domains.md R302). -/
def execCopyDone (s : State) : Result :=
  .next (if s.domOn Dm.FAB && s.flag Fd.FAB_STAT_COPY_BUSY
    then ((s.setFld Fd.FAB_STAT_COPY_BUSY 0).syncLock).raise fabPage FabEv.COPY_DONE else s)

/-- `XOVER_END` (R178): the crossover has run its ticks (DESIGN CHOICE, notes/assumptions/4.md). -/
def execXoverEnd (s : State) : Result :=
  .next (if s.flag Fd.FAB_STAT_XOVER_ACTIVE && s.fab.xDone == s.fab.xLen then s.endXover else s)

/-- `CHECK_DONE` (R185). -/
def execCheckDone (s : State) : Result :=
  .next (match s.fab.check with
    | some a => if !s.domOn Dm.FAB then s else
      (((s.admitOut a).updFab fun f => { f with check := none }).setFld Fd.FAB_STAT_CHECK_BUSY 0).raise fabPage FabEv.CHECK_DONE
    | none => s)

/-- `GAIN_TARGET_WRITE` (R195, R196): a TARGET applies. -/
def execGainTargetWrite (slot : Fin 4096) (v : Word) (s : State) : Result :=
  let a := slotAddr slot
  .next (if s.domOn Dm.FAB then
      let t := s.store a v.toNat
      t.aimGain a
    else s)

/-- `OBJECT_WRITE` (R205): a word of an object applies. -/
def execObjectWrite (addr v : Word) (s : State) : Result :=
  let a := addr.toNat / 4 * 4
  .next (if s.domOn Dm.FAB && (objectOf a).isSome then s.paramApply a v.toNat else s)

/-- `OBJECT_RESET` (R206): RESET = 1 of the biquad or dynamics processor at `addr` applies. -/
def execObjectReset (addr : Word) (s : State) : Result :=
  .next (match objectOf addr.toNat with
    | some (_, c) => if s.domOn Dm.FAB then s.paramApply c (withBit (s.reg c).toNat 30) else s
    | none => s)

/-- `DELAY_CHANGE` (R213): a new DELAY of a tap applies. -/
def execDelayChange (l : Fin 512) (v : Word) (s : State) : Result :=
  .next (if s.domOn Dm.FAB then s.paramApply (Adr.DELAY_DELAY l) v.toNat else s)

/-- `GENERATOR_RESTART` (R214). -/
def execGeneratorRestart (g : Fin 16) (s : State) : Result := .next (if s.domOn Dm.FAB then s.genRestart g else s)

/-- `LINE_FILLED` (R212): the line has delivered its first written sample
(DESIGN CHOICE, notes/assumptions/47.md). -/
def execLineFilled (l : Fin 512) (s : State) : Result :=
  .next (if s.dlines.any fun (d : DLine) => d.tap == l.val && !d.told && decide (d.delay < d.filled) then
      { s with dlines := s.dlines.map fun (d : DLine) => if d.tap = l.val then { d with told := true } else d }.raise procPage 1
    else s)

/-- `SWEEP_END` (R214, Table 8.8): the sweep holds at its end, or restarts under LOOP. -/
def execSweepEnd (g : Fin 16) (s : State) : Result :=
  .next (if s.fab.gens[g].atEnd then
      let q : Gen := s.fab.gens[g]
      let loop := s.flag (Fd.GEN_CTL_LOOP g)
      let e : Gen := { q with atEnd := false, ended := q.ended && !loop, swept := if loop then 0 else q.swept }
      (s.updFab fun f => { f with gens := f.gens.set g e }).raise procPage 0
    else s)

end Sys2Proof.Machine
end

