-- ==== Sys2Proof/Machine/Outputs.lean ====
section
/-!
DEFINITION. Line outputs, headphone outputs, jacks and jack rules, and their commands (09_line_headphone_jacks.md).
-/
namespace Sys2Proof.Machine

/-! Event bits of the AOUT, HP and JACK pages (Tables 9.7, 9.10, 9.13). -/

namespace OutEv
abbrev READY := 0
abbrev OFF := 1
abbrev CLIP := 2
abbrev OVERCURRENT := 3
abbrev FAULT := 4
abbrev SERVO_LIMIT := 5
abbrev CP_FAULT := 5
abbrev BTN_PRESS := 6
abbrev BTN_RELEASE := 7
end OutEv

namespace JackEv
abbrev INSERT := 0
abbrev REMOVE := 1
abbrev RULE_SKIPPED := 3
end JackEv

/-! ## Start and stop (R226) -/

/-- The step of an output. -/
abbrev State.outStep (s : State) (o : OutId) : OutStep := s.outs[outIndex o].step

/-- `s` with an output at a step. -/
def State.setOutStep (s : State) (o : OutId) (t : OutStep) : State := s.updOut o fun q => { q with step := t }

/-- Every gain of an output changed. -/
def State.mapOutGains (s : State) (o : OutId) (f : Nat → Glide → Glide) : State :=
  (outGains o).foldl (fun t a => t.setGain a (f a (t.gainAt a))) s

/-- The gain that TARGET asks for. -/
abbrev State.outTarget (s : State) (a : Nat) : Gain := Gain.ofCode (bitsAt (s.reg a).toNat 0 16)

/-- ENABLE = 1 starts an output that is OFF: a line output ramps its rails, a headphone output waits for the charge pump
(DESIGN CHOICE, notes/assumptions/49.md). -/
def State.outStart (s : State) (o : OutId) : State :=
  let t := s.setOutState o .starting
  match o with
  | .line _ => t.setOutStep o .ramp
  | .hp h => if t.flag (Fd.HP_STATUS_CP_OK h) then t.setOutStep o .settle
      else { t.setOutStep o .ramp with cpOn := true }

/-- The UNBAL and INVERT held for line output `n` apply (R217) (DESIGN CHOICE, notes/assumptions/48.md). -/
def State.outCfgApply (s : State) (n : Fin 16) : State :=
  match (s.cfgPend.filter fun e => e.1 == Adr.AOUT_CTRL n).getLast? with
  | some e => ((s.storeFld (Fd.AOUT_CTRL_UNBAL n) e.2).storeFld (Fd.AOUT_CTRL_INVERT n) e.2).dropHeld (· == Adr.AOUT_CTRL n)
  | none => s

/-- The ENABLE bit of an output. -/
def outEnableFld : OutId → Fld
  | .line n => Fd.AOUT_CTRL_ENABLE n
  | .hp h => Fd.HP_CTRL_ENABLE h

/-- An output at rest in OFF, without its event. -/
def State.outRest (s : State) (o : OutId) : State :=
  let t := (s.setOutState o .off).updOut o fun q => { q with step := .none, phase := .opened, level := Glide.at (.db 0 1), a := 0, b := 0, servo := 0, dc := 0, ia := 0, ib := 0 }
  let u := t.mapOutGains o fun _ _ => muteGlide
  match o with
  | .line n => u.outCfgApply n
  | .hp h => u.setFld (Fd.HP_STATUS_POLE h) (bit u.outs[outIndex (.hp h)].pole)

/-- An output reaches OFF; a held ENABLE = 1 takes effect (R217, R226). -/
def State.outOff (s : State) (o : OutId) : State :=
  let t := (s.outRest o).raise (outPage o) OutEv.OFF
  if t.flag (outEnableFld o) then t.outStart o else t

/-- ENABLE of an output is written (R220, R226). -/
def State.outEnWrite (s : State) (o : OutId) (on : Bool) : State :=
  if !on && s.outState o == .fault then (s.setFld (outEnableFld o) 0).outOff o
  else if s.flag (outEnableFld o) == on then s
  else
    let t := s.setFld (outEnableFld o) (bit on)
    match t.outState o, on with
    | .off, true => t.outStart o
    | .starting, false =>
      (match o with
        | .line _ => (t.setOutState o .stopping).setOutStep o .down
        | .hp _ => t.outOff o)
    | .ready, false =>
      ((t.setOutState o .stopping).setOutStep o .glide).mapOutGains o fun _ g => g.aim .mute 32
    | .off, false | .starting, true | .ready, true | .stopping, true | .stopping, false | .fault, true | .fault, false => t

/-- An output enters FAULT (R220, R223). -/
def State.outFault (s : State) (o : OutId) : State :=
  let t := (s.setOutState o .fault).setOutStep o .none
  let u := match o with
    | .line _ => t.mapOutGains o fun _ g => g.aim .mute 32
    | .hp h => t.hpFade h
  u.raise (outPage o) OutEv.FAULT

/-- Whether an output is out of OFF and FAULT. -/
def State.outLive (s : State) (o : OutId) : Bool :=
  match s.outState o with
  | .off | .fault => false
  | .starting | .ready | .stopping => true

/-- CP_OK on every headphone page. -/
def State.setCpOk (s : State) (b : Bool) : State :=
  (List.finRange 4).foldl (fun t (h : Fin 4) => t.setFld (Fd.HP_STATUS_CP_OK h) (bit b)) s

/-! ## One tick of an output (R217, R218, R222) -/

/-- The sample that sink `id` took last. -/
def State.sinkNow (s : State) (id : Nat) : Int := (((s.fab.sinks.find? (·.1 == id)).map (·.2)).getD Sample.zero).v

/-- The sample at an output: its sink, or on a headphone channel the schuss path in place of it or, while it fades, beside it
(17_boot_images_recovery.md R394, R395). -/
def State.outSource (s : State) (id : Nat) : Int :=
  if 0x010 ≤ id ∧ id ≤ 0x017 then
    match s.boot.path with
    | .off => s.sinkNow id
    | .active => s.boot.mix
    | .ending => clampInt sampleMin sampleMax (s.boot.mix + s.sinkNow id)
  else s.sinkNow id

/-- A sample under an output gain, and whether it clipped. -/
def State.outSample (s : State) (id a : Nat) : Int × Bool × State := s.toQ31 (mulGain (s.gainAt a).now (s.outSource id))

/-- Whether the gain of an output has ended its fall. -/
def State.gainFallen (s : State) (o : OutId) : Bool := (outGains o).all fun a => (s.gainAt a).left == 0

/-- 50 mV at a leg of a line output in sample codes: 0 dBFS is +20 dBu between the legs, a peak of 5.4772 V at each (R217, R219)
(DESIGN CHOICE, notes/assumptions/48.md). -/
abbrev servoLimit : Int := 19603745

/-- The servo of a line output in a tick: it tracks the DC of what each leg carries, as a first-order low-pass of 1.5915 s, and takes
it off, up to 50 mV; its correction is reported within that limit, and holds there while it needs more (R219)
(DESIGN CHOICE, notes/assumptions/48.md). -/
def State.servoTick (s : State) (n : Fin 16) (v : Int) : State :=
  let o : Out := s.outs[outIndex (.line n)]
  let need := onePole (s.fc * 15915 / 10000) o.dc v
  let (k, t) := s.free 2
  let held := if servoLimit < need.natAbs then o.servo else if k = 0 then o.servo else 0
  let (i, u) := t.freeInt (-5000) 5000
  (u.updOut (.line n) fun q => { q with dc := need, servo := held }).setSfld (Fd.AOUT_STATUS_SERVO n) (if held = 0 then i else held)

/-- What a line output drives. -/
def State.lineDrive (s : State) (n : Fin 16) : State :=
  let (q, clip, t) := s.outSample n (Adr.AOUT_GAIN n)
  let u := if clip then t.raise (aoutPage n) OutEv.CLIP else t
  let x := if u.flag (Fd.AOUT_CTRL_INVERT n) then -q else q
  let unbal := u.flag (Fd.AOUT_CTRL_UNBAL n)
  let leg := if unbal then 2 * x else x
  let w := u.servoTick n leg
  let d := clampInt (-servoLimit) servoLimit w.outs[outIndex (.line n)].dc
  w.updOut (.line n) fun o => { o with a := leg - d, b := if unbal then 0 else d - leg }

/-- The level of an internal fade moves by one tick. -/
def Out.fadeTick (o : Out) : Out :=
  match o.phase with
  | .out _ => { o with level := o.level.step, phase := .out o.level.step.left }
  | .into _ => { o with level := o.level.step, phase := .into o.level.step.left }
  | .opened | .silent => o

/-- The DC that the test DAC drives into the channels of a headphone output, in steps of 125 µV, only while it is READY: the CODE of a
host's route, or for a load test 50 mV into the left channel for 10 ms and then into the right one (R232,
11_housekeeping_converter.md R282) (DESIGN CHOICE, notes/assumptions/51.md). -/
def State.hpInject (s : State) (h : Fin 4) : State :=
  let put (t : State) (x y : Int) (k : Nat) : State := t.updOut (.hp h) fun o => { o with ia := x, ib := y, loadTicks := k }
  let k := s.outs[outIndex (.hp h)].loadTicks
  let d := s.msTicks 10
  if s.outState (.hp h) != .ready then put s 0 0 0
  else if s.loadTests h then
    if s.outs[outIndex (.hp h)].phase ≠ .silent then put s 0 0 0
    else put s (if k < d then 400 else 0) (if d ≤ k ∧ k < 2 * d then 400 else 0) (k + 1)
  else
    let r := s.fld Fd.TDAC_STATUS_ROUTE
    put s (if r = 0x21 + 2 * h.val then s.tdac.out else 0) (if r = 0x22 + 2 * h.val then s.tdac.out else 0) 0

/-- What a headphone output drives: the internal fade acts beneath the output gain. -/
def State.hpDrive (s : State) (h : Fin 4) : State :=
  let (l, c1, t) := s.outSample (0x010 + 2 * h.val) (Adr.HP_GAIN h 0)
  let (r, c2, u) := t.outSample (0x011 + 2 * h.val) (Adr.HP_GAIN h 1)
  let w := if c1 || c2 then u.raise (hpPage h) OutEv.CLIP else u
  w.updOut (.hp h) fun o =>
    let p := o.fadeTick
    let g := if p.phase = .silent then Gain.mute else p.level.now
    { p with a := fadeCode g l, b := fadeCode g r }

/-- Whether the pads of an output are held, so that it drives nothing (13_power_domains.md R315). -/
def State.outPads (s : State) : OutId → Bool
  | .line n => s.padHeld (Dm.AOUT (n.val / 8))
  | .hp _ => s.padHeld Dm.HP

/-- One tick of an output: its gains, then what it computes.  The clamps of a line output are closed before its rails are up, once its
stop glide has ended, and in FAULT once its gain has fallen (R220, R226) (DESIGN CHOICE, notes/assumptions/48.md). -/
def State.outRun (s : State) (o : OutId) : State :=
  if !s.outUp o then s.updOut o fun q => { q with a := 0, b := 0, ia := 0, ib := 0 }
  else
    let st := s.outState o
    let t := s.mapOutGains o fun a g => (if st = .ready then g.retarget (s.outTarget a) (s.outGlide o) else g).step
    let quiet := t.updOut o fun q => { q.fadeTick with a := 0, b := 0 }
    match st with
    | .off => quiet
    | .starting => (match o with
        | .line n =>
          let (i, u) := quiet.freeInt (-5000) 5000
          if quiet.outStep o = .settle then u.setSfld (Fd.AOUT_STATUS_SERVO n) i else quiet
        | .hp _ => quiet)
    | .ready | .stopping | .fault => (match o with
        | .line n =>
          if st = .fault ∧ t.gainFallen o ∨ st = .stopping ∧ t.outStep o ≠ .glide then quiet else t.lineDrive n
        | .hp h => (t.hpDrive h).hpInject h)

/-- One tick of an output. -/
def State.outTick (s : State) (o : OutId) : State :=
  if s.outPads o then (s.outRun o).updOut o fun q => { q with a := 0, b := 0, ia := 0, ib := 0 } else s.outRun o

/-- Every output. -/
def allOuts : List OutId := (List.finRange 16).map OutId.line ++ (List.finRange 4).map OutId.hp

/-- One tick of every output. -/
def State.outsTick (s : State) : State := allOuts.foldl State.outTick s

/-! ## Jacks (R228–R233) -/

/-- The level that means a plug. -/
def State.jackPresent (s : State) (j : Fin 20) : Bool := s.jacks[j].high == s.flag (Fd.JACK_JCFG_POLARITY j)

/-- Whether jack sensing runs (R229). -/
abbrev State.jackSenses (s : State) : Bool := s.domOn Dm.HKA && s.domOn Dm.AON

/-- A classification starts (R231, R232), once the domains of the service image are ON (01_architecture.md R22)
(DESIGN CHOICE, notes/assumptions/88.md). -/
def State.classStart (s : State) (j : Fin 20) : State :=
  let t := s.setFld (Fd.JACK_JSTAT_CLASS j) 0xE
  if !s.svcUp then t.updJack j fun q => { q with step := .svcWait }
  else if h : j.val < 16 then
    let n : Fin 16 := ⟨j.val, h⟩
    if t.phState n = .on ∧ 500 ≤ t.fld (Fd.AIN_PH_CURRENT_UA n) then t.classFinal j 3
    else (t.diagRequest n true).updJack j fun q => { q with step := .diag }
  else (t.updJack j fun q => { q with step := .poleWait }).tdacEnqueue (.jack j)

/-- The classification of a jack ends without a result (R233): what waits leaves the queue, what runs completes unseen. -/
def State.classDrop (s : State) (j : Fin 20) : State :=
  let idle (t : State) (x : Option Bool) : State := t.updJack j fun q => { q with step := .idle, stale := x <|> q.stale }
  match s.jacks[j].step with
  | .idle | .svcWait | .loadHold _ => idle s none
  | .diag =>
    let n : Fin 16 := Fin.ofNat 16 j.val
    let t := s.diagForget n
    idle t (if t.diagCls n then some false else none)
  | .poleWait | .loadWait _ => idle (s.tdacUnqueue (.jack j)) none
  | .poleTest => idle s (some false)
  | .loadTest _ => idle s (some true)

/-- A debounced INSERT (R228, R230). -/
def State.jackIn (s : State) (j : Fin 20) : State :=
  let t := ((s.setFld (Fd.JACK_JSTAT_INSERTED j) 1).setBit Fd.JACK_CHANGED_JACKS j true).raise jackPage JackEv.INSERT
  let u := t.trigger j .insert
  if !u.inService then u.setFld (Fd.JACK_JSTAT_CLASS j) 0xF
  else if u.flag (Fd.JACK_JCFG_CLS_EN j) then u.classStart j
  else u.classFinal j 1

/-- The button of a headphone jack is no longer watched
(DESIGN CHOICE, notes/assumptions/49.md). -/
def State.buttonForget (s : State) (j : Fin 20) : State :=
  if 16 ≤ j.val then s.setFld (Fd.HP_STATUS_BUTTON (j.val - 16)) 0 else s

/-- A debounced REMOVE (R228, R230, R233). -/
def State.jackOut (s : State) (j : Fin 20) : State :=
  let t := ((s.setFld (Fd.JACK_JSTAT_INSERTED j) 0).setBit Fd.JACK_CHANGED_JACKS j true).raise jackPage JackEv.REMOVE
  (((t.trigger j .remove).buttonForget j).classDrop j).classFinal j 0

/-- Classification (re)starts on an INSERTED jack, whatever stands (R230; 17_boot_images_recovery.md R403)
(DESIGN CHOICE, notes/assumptions/49.md). -/
def State.reclassify (s : State) (j : Fin 20) : State := (s.classDrop j).classStart j

/-- The service image has started: it classifies every jack that is INSERTED with CLS_EN = 1; an INSERTED jack with
CLS_EN = 0 reads UNKNOWN (R230)
(DESIGN CHOICE, notes/assumptions/49.md). -/
def State.classifyAll (s : State) : State :=
  (List.finRange 20).foldl (fun t (j : Fin 20) =>
    if !t.flag (Fd.JACK_JSTAT_INSERTED j) then t
    else if t.flag (Fd.JACK_JCFG_CLS_EN j) then t.reclassify j
    else if t.fld (Fd.JACK_JSTAT_CLASS j) = 0xF then t.classFinal j 1 else t) s

/-- The domains of the service image are ON: what waits for them starts. -/
def State.svcWake (s : State) : State :=
  if s.svcUp then
    (List.finRange 20).foldl (fun t (j : Fin 20) => if t.jacks[j].step = .svcWait then t.classStart j else t) s
  else s

/-- A jack gives the test DAC back. -/
def State.jackRelease (s : State) : State := ({ s with tdacOwner := none }.setFld Fd.TDAC_STATUS_ROUTE 0).pipeResume

/-- The test DAC that the service image holds for a classification is released at once, and what it drove there ends unseen
(17_boot_images_recovery.md R386). -/
def State.imageTdac (s : State) : State :=
  match s.tdacOwner with
  | some (.jack j) =>
    let t := (s.updJack j fun q => { q with stale := none }).jackRelease
    if 16 ≤ j.val then t.hpUnfade (Fin.ofNat 4 (j.val - 16)) else t
  | some (.diag n true) => s.diagEnd n 0xD
  | some (.diag _ false) | some (.host _) | none => s

/-- The device has left SERVICE: its classifications end, every CLASS other than EMPTY becomes NOT_READY (R230,
17_boot_images_recovery.md R384), and the test DAC is released (R386). -/
def State.classifyEnd (s : State) : State :=
  ((List.finRange 20).foldl (fun t (j : Fin 20) =>
    let u := t.classDrop j
    if u.fld (Fd.JACK_JSTAT_CLASS j) ≠ 0 then u.setFld (Fd.JACK_JSTAT_CLASS j) 0xF else u) s).imageTdac

/-- Whether a resistance is that of a headset microphone (R232). -/
abbrev isMicOhms (r : Nat) : Bool := 600 ≤ r && r ≤ 20000

/-- The result of a pole test; none where neither order or both fit (R232). -/
def poleKind (r : PoleReading) : Option PoleKind :=
  if r.poles < 20 then some .three
  else match isMicOhms r.retGround, isMicOhms r.micGround with
    | true, false => some .omtp
    | false, true => some .ctia
    | true, true | false, false => none

/-- The pole test of a jack ends (DESIGN CHOICE, notes/assumptions/49.md). -/
def State.poleDone (s : State) (j : Fin 20) (r : PoleReading) : State :=
  if s.tdacOwner != some (.jack j) then s
  else if s.jacks[j].stale = some false then (s.updJack j fun q => { q with stale := none }).jackRelease
  else if s.jacks[j].step = .poleTest then
    let t := s.jackRelease
    if !s.svcUp then t.updJack j fun q => { q with step := .svcWait } else
    match poleKind r with
    | none => t.classFinal j 1
    | some k => (t.updJack j fun q => { q with step := .loadHold k }).loadQueue (Fin.ofNat 4 (j.val - 16))
  else s

/-- The load test of a jack ends: its internal fade has run.  One whose output has left READY, which the test DAC then does not drive,
waits for READY again (DESIGN CHOICE, notes/assumptions/88.md). -/
def State.loadDone (s : State) (j : Fin 20) (r : LoadReading) : State :=
  let h : Fin 4 := Fin.ofNat 4 (j.val - 16)
  if s.tdacOwner != some (.jack j) then s
  else if s.jacks[j].stale = some true then ((s.updJack j fun q => { q with stale := none }).jackRelease).hpUnfade h
  else match s.jacks[j].step with
    | .loadTest k =>
      if !s.svcUp then ((s.updJack j fun q => { q with step := .svcWait }).jackRelease).hpUnfade h else
      if s.outState (.hp h) != .ready then ((s.updJack j fun q => { q with step := .loadHold k }).jackRelease).hpUnfade h else
      let t := (s.setFld (Fd.HP_LOAD_OHMS h 0) (ohms r.l)).setFld (Fd.HP_LOAD_OHMS h 1) (ohms r.r)
      ((t.jackRelease).classFinal j (loadClass k (ohms r.l) (ohms r.r))).hpUnfade h
    | .idle | .svcWait | .diag | .poleWait | .poleTest | .loadHold _ | .loadWait _ => s

/-! ## Jack rules (R234–R237) -/

/-- Whether a trigger is one that rule `r` waits for. -/
def State.ruleMatch (s : State) (r : Fin 64) (e : Fin 20 × TrigKind) : Bool :=
  let mask := s.fld (Fd.JACK_RULE_A_MASK r)
  s.fld (Fd.JACK_RULE_A_JACK r) == e.1.val && (match s.fld (Fd.JACK_RULE_A_TRIGGER r), e.2 with
    | 0, .insert => true
    | 1, .remove => true
    | 2, .classified c => bitOf mask c
    | 3, .press b => bitOf mask b
    | 4, .release b => bitOf mask b
    | _, _ => false)

/-- The target of a rule: the address of the TARGET field, its page, and its domain. -/
def State.ruleTarget (s : State) (r : Nat) : Option (Nat × Nat) :=
  let t := s.fld (Fd.JACK_RULE_B_TARGET r)
  if !s.flag (Fd.JACK_RULE_B_KIND r) then some (slotAddr t, 0x011)
  else if t < 0x010 then some (Adr.AOUT_GAIN t, aoutPage t)
  else if t < 0x018 then some (Adr.HP_GAIN ((t - 0x010) / 2) (t % 2), hpPage ((t - 0x010) / 2))
  else none

/-- A rule is skipped (R235, R237)
(DESIGN CHOICE, notes/assumptions/49.md). -/
def State.ruleSkip (s : State) : State := (s.countSat Fd.JACK_CNT_SKIPPED 1).raise jackPage JackEv.RULE_SKIPPED

/-- A rule acts: the target of the highest-numbered rule prevails, and a changed page counts one version a tick (R236). -/
def State.ruleAct (s : State) (r : Fin 64) (a p : Nat) : State :=
  let t := s.countSat Fd.JACK_CNT_FIRED 1
  let later := t.jackFired.any fun q => r.val < q && t.ruleTarget q == some (a, p)
  let f : Fld := ⟨a, 15, 0⟩
  let v := t.fld (Fd.JACK_RULE_B_GAIN r)
  if later || t.fld f = v then t
  else
    let u := t.setFld f v
    if u.jackPages.contains p then u else { u.bumpVer p with jackPages := p :: u.jackPages }

/-- Rule `r` fires in the tick that starts (DESIGN CHOICE, notes/assumptions/49.md). -/
def State.ruleFire (s : State) (r : Fin 64) : State :=
  let t := { s with jackFired := r.val :: s.jackFired }
  match t.ruleTarget r with
  | some (a, p) => if t.pageTakes p then t.ruleAct r a p else t.ruleSkip
  | none => t.ruleSkip

/-! ## Register writes -/

/-- CTRL of a line output is written (R217, R226) (DESIGN CHOICE, notes/assumptions/48.md). -/
def State.lineCtrlWrite (s : State) (n : Fin 16) (v : Nat) : State :=
  let t := if s.outState (.line n) = .off then (s.storeFld (Fd.AOUT_CTRL_UNBAL n) v).storeFld (Fd.AOUT_CTRL_INVERT n) v
    else s.hold (Adr.AOUT_CTRL n) v
  t.outEnWrite (.line n) (bitOf v 0)

/-- A register of a line output is written. -/
def State.lineWrite (s : State) (n : Fin 16) (o v : Nat) : State :=
  if o = 0x040 then s.lineCtrlWrite n v else s.store (pageAddr (aoutPage n) o) v

/-- MIC_EN and MIC_IN are written (R224): the inputs named take it as a change of MODE
(DESIGN CHOICE, notes/assumptions/49.md). -/
def State.micWrite (s : State) (h : Fin 4) (on : Bool) (i : Fin 16) : State :=
  let t := (s.setFld (Fd.HP_CTRL_MIC_EN h) (bit on)).setFld (Fd.HP_CTRL_MIC_IN h) i
  if t.micWant h = s.micWant h then t
  else
    let stop (u : State) (x : Option (Fin 16)) : State := match x with
      | some n => u.diagAbort n
      | none => u
    (stop (stop t (s.micWant h)) (t.micWant h)).micAll

/-- MIC_BIAS is written; without it no button is watched (R225)
(DESIGN CHOICE, notes/assumptions/49.md). -/
def State.biasWrite (s : State) (h : Fin 4) (on : Bool) : State :=
  let t := s.setFld (Fd.HP_CTRL_MIC_BIAS h) (bit on)
  if on then t else t.setFld (Fd.HP_STATUS_BUTTON h) 0

/-- CTRL of a headphone output is written. -/
def State.hpCtrlWrite (s : State) (h : Fin 4) (v : Nat) : State :=
  let t := (s.storeFld (Fd.HP_CTRL_GND_POLE h) v).poleFollow h
  ((t.biasWrite h (bitOf v 1)).micWrite h (bitOf v 4) (Fin.ofNat 16 (bitsAt v 8 4))).outEnWrite (.hp h) (bitOf v 0)

/-- A register of a headphone output is written. -/
def State.hpWrite (s : State) (h : Fin 4) (o v : Nat) : State :=
  if o = 0x040 then s.hpCtrlWrite h v else s.store (pageAddr (hpPage h) o) v

/-! ## Meanings -/

/-- `OUTPUT_ENABLE` (R226): ENABLE is written 1. -/
def execOutputEnable (o : OutId) (s : State) : Result := .next (if s.pageTakes (outPage o) then s.outEnWrite o true else s)

/-- `OUTPUT_DISABLE` (R220, R226): ENABLE is written 0. -/
def execOutputDisable (o : OutId) (s : State) : Result := .next (if s.pageTakes (outPage o) then s.outEnWrite o false else s)

/-- `LINE_RAIL_RAMP_DONE` (R226) (DESIGN CHOICE, notes/assumptions/3.md). -/
def execLineRailRampDone (n : Fin 16) (s : State) : Result :=
  .next (if s.outUp (.line n) && s.outState (.line n) == .starting && s.outStep (.line n) == .ramp
    then s.setOutStep (.line n) .settle else s)

/-- `CHARGE_PUMP_READY` (R226): the rails are in range. -/
def execChargePumpReady (s : State) : Result :=
  .next (if s.domOn Dm.HP && s.cpOn && !s.flag (Fd.HP_STATUS_CP_OK 0) then
      (List.finRange 4).foldl (fun t h => if t.outState (.hp h) = .starting ∧ t.outStep (.hp h) = .ramp
        then t.setOutStep (.hp h) .settle else t) (s.setCpOk true)
    else s)

/-- `OUTPUT_SETTLE_DONE` (R226, R218): READY, and the gain glides from mute to TARGET
(DESIGN CHOICE, notes/assumptions/3.md). -/
def execOutputSettleDone (o : OutId) (s : State) : Result :=
  .next (if s.outUp o && s.outState o == .starting && s.outStep o == .settle then
      let t := ((s.setOutState o .ready).setOutStep o .none).raise (outPage o) OutEv.READY
      let u := t.mapOutGains o fun a _ => muteGlide.aim (t.outTarget a) (t.outGlide o)
      (match o with
        | .line _ => u
        | .hp h => (u.loadQueue h).hpFade h)
    else s)

/-- `OUTPUT_STOP_GLIDE_DONE` (R226) (DESIGN CHOICE, notes/assumptions/4.md). -/
def execOutputStopGlideDone (o : OutId) (s : State) : Result :=
  .next (if s.outState o == .stopping && s.outStep o == .glide && s.gainFallen o then
      (match o with
        | .line _ => s.setOutStep o .down
        | .hp _ => s.outOff o)
    else s)

/-- `LINE_RAIL_DOWN_DONE` (R226). -/
def execLineRailDownDone (n : Fin 16) (s : State) : Result :=
  .next (if s.outState (.line n) == .stopping && s.outStep (.line n) == .down then s.outOff (.line n) else s)

/-- `CHARGE_PUMP_STOP` (R226). -/
def execChargePumpStop (s : State) : Result :=
  .next (if s.cpOn && (List.finRange 4).all (fun h => s.outState (.hp h) == .off)
    then { s.setCpOk false with cpOn := false } else s)

/-- `OUTPUT_CURRENT_LIMIT` (R220, R223). -/
def execOutputCurrentLimit (o : OutId) (s : State) : Result :=
  .next (if s.outLive o then s.raise (outPage o) OutEv.OVERCURRENT else s)

/-- `OUTPUT_LIMIT_TIMEOUT` (R220, R223). -/
def execOutputLimitTimeout (o : OutId) (s : State) : Result := .next (if s.outLive o then s.outFault o else s)

/-- `SERVO_LIMIT` (R219): the correction holds at ±50 mV, against the DC that the sink carries; at DC that the stage itself adds, at
either (DESIGN CHOICE, notes/assumptions/48.md). -/
def execServoLimit (n : Fin 16) (s : State) : Result :=
  .next (if s.outLive (.line n) then
      let d := s.outs[outIndex (.line n)].dc
      let (k, t) := s.free 2
      let c : Int := if servoLimit < d then -5000 else if d < -servoLimit then 5000 else if k = 0 then 5000 else -5000
      ((t.updOut (.line n) fun q => { q with servo := c }).setSfld (Fd.AOUT_STATUS_SERVO n) c).raise (aoutPage n) OutEv.SERVO_LIMIT
    else s)

/-- `CP_RAIL_FAULT` (R223): every headphone output that is not OFF is clamped at once
(DESIGN CHOICE, notes/assumptions/49.md). -/
def execCpRailFault (s : State) : Result :=
  .next (if s.cpOn then
      (List.finRange 4).foldl (fun t h =>
        if t.outState (.hp h) = .off then t
        else
          let was := t.outState (.hp h)
          let u := ((t.setOutState (.hp h) .fault).setOutStep (.hp h) .none).updOut (.hp h)
            fun q => { q with phase := .silent, level := muteGlide, a := 0, b := 0 }
          (if was = .fault then u else u.raise (hpPage h) OutEv.FAULT).raise (hpPage h) OutEv.CP_FAULT) (s.setCpOk false)
    else s)

/-- `INTERNAL_FADE_DONE` (R222): in the silence a new pole is taken, and a fade that ends opens the output
(DESIGN CHOICE, notes/assumptions/4.md). -/
def execInternalFadeDone (h : Fin 4) (s : State) : Result :=
  .next (
    if s.outs[outIndex (.hp h)].phase = .out 0 then
      let t := s.updOut (.hp h) fun q => { q with phase := .silent, level := muteGlide }
      (t.setFld (Fd.HP_STATUS_POLE h) (bit t.outs[outIndex (.hp h)].pole)).hpUnfade h
    else if s.outs[outIndex (.hp h)].phase = .into 0 then
      s.updOut (.hp h) fun q => { q with phase := .opened, level := Glide.at (.db 0 1) }
    else s)

/-- `HP_MIC_ROUTE` (R224): MIC_EN and MIC_IN apply. -/
def execHpMicRoute (h : Fin 4) (on : Bool) (input : Fin 16) (s : State) : Result :=
  .next (if s.pageTakes (hpPage h) then s.micWrite h on input else s)

/-- `BUTTON_PRESS` (R225)
(DESIGN CHOICE, notes/assumptions/49.md). -/
def execButtonPress (h b : Fin 4) (s : State) : Result :=
  .next (if s.outUp (.hp h) && s.flag (Fd.HP_CTRL_MIC_BIAS h) && s.flag (Fd.JACK_JSTAT_INSERTED (hpJack h))
      && s.fld (Fd.HP_STATUS_BUTTON h) != 2 ^ b.val then
      ((s.setFld (Fd.HP_STATUS_BUTTON h) (2 ^ b.val)).raise (hpPage h) OutEv.BTN_PRESS).trigger (hpJack h) (.press b)
    else s)

/-- `BUTTON_RELEASE` (R225). -/
def execButtonRelease (h : Fin 4) (s : State) : Result :=
  .next (
    let w := s.fld (Fd.HP_STATUS_BUTTON h)
    if w = 0 then s
    else ((s.setFld (Fd.HP_STATUS_BUTTON h) 0).raise (hpPage h) OutEv.BTN_RELEASE).trigger (hpJack h) (.release (Nat.log2 w)))

/-- `JACK_LEVEL_CHANGE` (R228): the level at the pin. -/
def execJackLevelChange (j : Fin 20) (high : Bool) (s : State) : Result := .next (s.updJack j fun q => { q with high := high })

/-- `JACK_INSERT` (R228, R229): the level has stood at "present" for INS_DEB. -/
def execJackInsert (j : Fin 20) (s : State) : Result :=
  .next (if s.jackSenses && !s.flag (Fd.JACK_JSTAT_INSERTED j) && s.jackPresent j then s.jackIn j else s)

/-- `JACK_REMOVE` (R228, R229): the level has stood at "absent" for REM_DEB. -/
def execJackRemove (j : Fin 20) (s : State) : Result :=
  .next (if s.jackSenses && s.flag (Fd.JACK_JSTAT_INSERTED j) && !s.jackPresent j then s.jackOut j else s)

/-- `CLASSIFY_POLE_TEST_DONE` (R232, R233). -/
def execClassifyPoleTestDone (j : Fin 20) (r : PoleReading) (s : State) : Result := .next (s.poleDone j r)

/-- `CLASSIFY_LOAD_TEST_DONE` (R232, R233): the test runs under the internal fade. -/
def execClassifyLoadTestDone (j : Fin 20) (r : LoadReading) (s : State) : Result :=
  let h : Fin 4 := Fin.ofNat 4 (j.val - 16)
  .next (if s.outs[outIndex (.hp h)].phase = .silent ∨ s.outState (.hp h) ≠ .ready then s.loadDone j r else s)

/-- `JACK_RULE_FIRE` (R234–R237): rule `r`, judged in the tick that starts, after the direct writes due in it
(DESIGN CHOICE, notes/assumptions/15.md). -/
def execJackRuleFire (r : Fin 64) (s : State) : Result :=
  .next (
    let t := s.flushParams
    if t.flag (Fd.JACK_RULE_A_ENABLE r) && !t.jackFired.contains r.val && t.jackTrig.any (t.ruleMatch r)
    then t.ruleFire r else s)

end Sys2Proof.Machine
end

