-- ==== Sys2Proof/Machine/Hka.lean ====
section
/-!
DEFINITION. The housekeeping converter, its sequences, comparators and records, and the test DAC, with their commands
(11_housekeeping_converter.md).
-/
namespace Sys2Proof.Machine

abbrev hkaPage : Nat := 0x016

/-! Event bits of the HKA page (Table 11.9). -/

namespace HkaEv
abbrev URG_DONE := 0
abbrev CAL_FAIL := 1
abbrev MAINS_LOST := 2
abbrev WIN := 16
end HkaEv

/-! ## Values (R264, R277, R281) -/

/-- The largest and smallest values. -/
abbrev valueMax : Int := 0x7FFFFF
abbrev valueMin : Int := -0x800000

/-- Whether a value is held at a limit. -/
def ConvReading.over_ (v : Sys2Proof.ConvReading) : Bool := v.ovr || v.v < valueMin || valueMax < v.v

/-- The value of a reading. -/
def convValue (v : Sys2Proof.ConvReading) : Int := clampInt valueMin valueMax v.v

/-- Whether a comparator watches a channel. -/
def State.watches (s : State) (k : Nat) (c : Nat) : Bool := s.flag (Fd.HKA_WIN_CFG_EN k) && s.fld (Fd.HKA_WIN_CFG_CHAN k) == c

/-- Whether a value lies outside the band of comparator `k`. -/
def State.outBand (s : State) (k : Nat) (v : Int) : Bool :=
  v < s.sfld (Fd.HKA_WIN_LOW_LIMIT k) || s.sfld (Fd.HKA_WIN_HIGH_LIMIT k) < v

/-- Comparator `k` judges a value (R277). -/
def State.judge (s : State) (k : Nat) (v : Int) : State :=
  let hyst : Int := s.fld (Fd.HKA_WIN_HYST_HYST k)
  let outside := bitOf (s.fld Fd.HKA_WIN_STATE_OUTSIDE) k
  if !outside && s.outBand k v then (s.setBit Fd.HKA_WIN_STATE_OUTSIDE k true).raise hkaPage (HkaEv.WIN + k)
  else if outside && s.sfld (Fd.HKA_WIN_LOW_LIMIT k) + hyst ≤ v && v ≤ s.sfld (Fd.HKA_WIN_HIGH_LIMIT k) - hyst
  then s.setBit Fd.HKA_WIN_STATE_OUTSIDE k false
  else s

/-- A conversion of channel `c` has a value: LAST holds it, and the comparators judge it unless it settles. -/
def State.converted (s : State) (c : Nat) (v : Sys2Proof.ConvReading) (settling : Bool) : State :=
  let x := convValue v
  let w := unsigned 24 x + 2 ^ 29 * bit settling + 2 ^ 30 * bit (ConvReading.over_ v) + 2 ^ 31
  let t := s.setReg (Adr.HKA_LAST c) (word w)
  if settling then t else (List.range 16).foldl (fun u k => if u.watches k c then u.judge k x else u) t

/-- Whether a record of channel `c` carries WINDOW. -/
def State.inWindow (s : State) (c : Nat) (v : Int) : Bool := (List.range 16).any fun k => s.watches k c && s.outBand k v

/-! ## Records (R278, R279) -/

/-- The eight bytes of a record (Table 11.3). -/
def recordBytes (c : Nat) (v : Int) (ovr window urgent settling : Bool) (entry stamp : Nat) : List Byte :=
  [BitVec.ofNat 8 (c + 64 * bit window + 128 * bit ovr), BitVec.ofNat 8 (entry + 64 * bit settling + 128 * bit urgent)]
    ++ bytesLE 3 (unsigned 24 v) ++ bytesLE 3 stamp

/-- A record is written to ring 20 + `q`, or lost (R279)
(DEDUCED, notes/assumptions/62.md). -/
def State.putRecord (s : State) (q : Nat) (bytes : List Byte) : State :=
  let r := s.ring (20 + q)
  let lost := !r.enable || r.fill == r.size
  let t := s.ringPut (20 + q) fun _ => bytes
  if lost && !r.lostBefore then t.raise hkseqPage (12 + q) else t

/-! ## Conversions (R266, R268, R269) -/

/-- SYSCNT at the first averaged sample of a pipeline conversion that delivers now: 2^AVG + 9 HKA clocks ago
(DESIGN CHOICE, notes/assumptions/50.md). -/
def State.pipeStamp (s : State) (avg : Nat) : Nat × State :=
  let (k, t) := s.divFree ((2 ^ avg + 9) * 1536 : Nat) 625
  (unsigned 24 (s.syscnt - k), t)

/-- SYSCNT at the start of an integration that ends now after `t` µs
(DESIGN CHOICE, notes/assumptions/50.md). -/
def State.integStamp (s : State) (t : Option Nat) : Nat × State :=
  match t with
  | some us =>
    let (k, u) := s.divFree (us * 98304 : Nat) 1000
    (unsigned 24 (s.syscnt - k), u)
  | none => s.free (2 ^ 24)

/-! ## Sequences (R270–R272) -/

/-- A trigger reaches a sequence (R271, R272). -/
def State.seqTrigger (s : State) (x : Fin 3) : State :=
  let k := s.seqState x
  if k = seqOff then s
  else if k = seqArmed then s.setSeqState x seqWaiting
  else (s.countSat (Fd.HKSEQ_SEQ_CNT_TRIG_LOST x) 1).raise hkseqPage (4 + x)

/-- Whether the configuration of a sequence is valid (R270). -/
def State.seqValid (s : State) (x : Fin 3) : Bool :=
  let f (y : Fin 3) := s.fld (Fd.HKSEQ_SEQ_CFG_FIRST y)
  let e (y : Fin 3) := f y + s.fld (Fd.HKSEQ_SEQ_CFG_COUNT y)
  e x ≤ 64
    && (List.finRange 3).all (fun y => y == x || !s.flag (Fd.HKSEQ_SEQ_CFG_ENABLE y) || e y ≤ f x || e x ≤ f y)
    && (List.range (s.fld (Fd.HKSEQ_SEQ_CFG_COUNT x))).all fun i => !chanReserved (s.fld (Fd.HKSEQ_ENTRY_CHAN (f x + i)))

/-- ENABLE = 1 applies to a sequence that is OFF: it is ARMED, or invalid (R270). -/
def State.seqArm (s : State) (x : Fin 3) : State :=
  if s.seqValid x then s.setSeqState x seqArmed else s.setErr hkseqPage x

/-- The fields held for a sequence apply when it is disabled (R270). -/
def State.seqApplyHeld (s : State) (x : Fin 3) : State :=
  let v := s.applyHeld (· == Adr.HKSEQ_SEQ_TRIG x)
  match (v.cfgPend.filter fun e => e.1 == Adr.HKSEQ_SEQ_CFG x).getLast? with
  | some e => (((v.storeFld (Fd.HKSEQ_SEQ_CFG_MODE x) e.2).storeFld (Fd.HKSEQ_SEQ_CFG_COUNT x) e.2).storeFld
      (Fd.HKSEQ_SEQ_CFG_FIRST x) e.2).dropHeld (· == Adr.HKSEQ_SEQ_CFG x)
  | none => v

/-- ENABLE of a sequence is written (R270, R272): a run in progress stops after its entry; one enabled again meanwhile is checked, and
arms when it has gone OFF (DEDUCED, notes/assumptions/87.md). -/
def State.seqEnWrite (s : State) (x : Fin 3) (on : Bool) : State :=
  if s.flag (Fd.HKSEQ_SEQ_CFG_ENABLE x) == on then s
  else
    let t := s.setFld (Fd.HKSEQ_SEQ_CFG_ENABLE x) (bit on)
    if on then
      if t.seqState x = seqOff then t.seqArm x
      else if t.seqValid x then t.updSeq x fun q => { q with rearm := true }
      else t.setErr hkseqPage x
    else if t.seqState x = seqRunning then (t.updSeq x fun q => { q with ending := true, rearm := false }).seqApplyHeld x
    else { t.setSeqState x seqOff with hka := { t.hka with ready := t.hka.ready.filter (·.1 != x) } }.seqApplyHeld x

/-- SEQx_CFG is written: fields beside ENABLE are held while it reads 1 (R270). -/
def State.seqCfgWrite (s : State) (x : Fin 3) (v : Nat) : State :=
  let t := if s.flag (Fd.HKSEQ_SEQ_CFG_ENABLE x) then s.hold (Adr.HKSEQ_SEQ_CFG x) v
    else ((s.storeFld (Fd.HKSEQ_SEQ_CFG_MODE x) v).storeFld (Fd.HKSEQ_SEQ_CFG_COUNT x) v).storeFld (Fd.HKSEQ_SEQ_CFG_FIRST x) v
  t.seqEnWrite x (bitOf v 31)

/-- SEQx_TRIG is written. -/
def State.seqTrigWrite (s : State) (x : Fin 3) (v : Nat) : State :=
  if s.flag (Fd.HKSEQ_SEQ_CFG_ENABLE x) then s.hold (Adr.HKSEQ_SEQ_TRIG x) v else s.store (Adr.HKSEQ_SEQ_TRIG x) v

/-- A run that stops after its entry: the sequence goes OFF, or arms when it has been enabled again (R272). -/
def State.runStop (s : State) (x : Fin 3) : State :=
  let armed := s.flag (Fd.HKSEQ_SEQ_CFG_ENABLE x) && s.hka.seqs[x].rearm
  (s.setSeqState x (if armed then seqArmed else seqOff)).updSeq x fun q =>
    { q with ending := false, rearm := false, preempted := false, due := false }

/-- The entry in progress ends: the next one starts, the run ends, or a disabled sequence goes OFF (R272). -/
def State.entryEnd (s : State) (x : Fin 3) : State :=
  if s.hka.seqs[x].ending then (s.runStop x).seqServeAll
  else match s.entryFrom x (s.fld (Fd.HKSEQ_SEQ_STAT_ENTRY x) + 1) with
    | some i => s.entryStart x i
    | none => (s.runEnd x).seqServeAll

/-- The conversion of the entry in progress delivers its value (R278, R279). -/
def State.entryDone (s : State) (x : Fin 3) (v : Sys2Proof.ConvReading) (settling : Bool) (stamp : Nat) : State :=
  let c := entryChan s.hka.seqs[x].word
  let t := s.converted c v settling
  let b := recordBytes c (convValue v) (ConvReading.over_ v) (t.inWindow c (convValue v)) false settling
    (s.fld (Fd.HKSEQ_SEQ_STAT_ENTRY x)) stamp
  (t.putRecord (1 + x) b).entryEnd x

/-- A pipeline conversion of a sequence ends. -/
def State.seqConv (s : State) (x : Fin 3) (v : Sys2Proof.ConvReading) : State :=
  if s.hkaRuns && s.seqOn 0 == some x && !s.hka.seqs[x].due then
    let q : Seq := s.hka.seqs[x]
    let (k, t) := s.pipeStamp (entryAvg q.word)
    t.entryDone x v (q.switched && !entrySkip q.word) k
  else s

/-! ## The host urgent request (R276) -/

/-- URGENT is written by port `p`. -/
def State.urgentWrite (s : State) (p : Fin 4) (v : Nat) : State :=
  let t := s.store Adr.HKA_URGENT v
  let bad := chanReserved (bitsAt v 0 6)
  if !bitOf v 31 then t
  else if s.hka.urg.isSome then (if bad then t.setErr hkaPage 1 else t).setErr hkaPage 0
  else if bad then t.setErr hkaPage 1
  else
    let w := (t.reg Adr.HKA_URGENT).toNat
    let waits := !t.hkaRuns || t.pipeBusy
    let u := if waits then t else t.pipePreempt (some (entryChan w))
    { u with hka := { u.hka with urg := some (p, w, waits || t.hka.pipe != some (entryChan w)) } }

/-- The conversion of the host urgent request ends. -/
def State.urgentDone (s : State) (v : Sys2Proof.ConvReading) : State :=
  match s.hka.urg with
  | some (p, w, switched) =>
    if s.hkaRuns then
      let c := entryChan w
      let settling := (switched || s.hka.pipe != some c) && !entrySkip w
      let (k, t) := s.pipeStamp (entryAvg w)
      let u := t.converted c v settling
      let b := recordBytes c (convValue v) (ConvReading.over_ v) (u.inWindow c (convValue v)) true settling p k
      let x := (u.putRecord 0 b).raise hkaPage HkaEv.URG_DONE
      let y := { x with hka := { x.hka with urg := none } }
      { y with hka := { y.hka with pipe := if y.pipeBusy then none else some c } }.pipeResume
    else s
  | none => s

/-! ## Comparators and mains -/

/-- WINk_CFG is written: a comparator enabled now is INSIDE, and so is one that is disabled (R277)
(DESIGN CHOICE, notes/assumptions/50.md). -/
def State.winCfgWrite (s : State) (k v : Nat) : State :=
  let t := s.store (Adr.HKA_WIN_CFG k) v
  if t.flag (Fd.HKA_WIN_CFG_EN k) && s.flag (Fd.HKA_WIN_CFG_EN k) then t else t.setBit Fd.HKA_WIN_STATE_OUTSIDE k false

/-- MAINS is written: a measurement of another source begins afresh; MAINS_LOST, and T = 20 ms with it, stay until one is valid
(R269)
(DESIGN CHOICE, notes/assumptions/50.md). -/
def State.mainsWrite (s : State) (v : Nat) : State :=
  let t := s.store Adr.HKA_MAINS v
  if t.fld Fd.HKA_MAINS_SEL = s.fld Fd.HKA_MAINS_SEL ∧ t.fld Fd.HKA_MAINS_SRC = s.fld Fd.HKA_MAINS_SRC then t
  else t.setFld Fd.HKA_MAINS_PERIOD 0

/-- Whether a word written by itself applies at the next tick: that of an entry, or a limit of a comparator (R270, R277); one that a
commit writes applies with the commit. -/
def isTickWord (a : Nat) : Bool :=
  (Adr.HKSEQ_ENTRY 0 ≤ a && a < Adr.HKSEQ_ENTRY 64) || (Adr.HKA_WIN_CFG 0 ≤ a && a < Adr.HKA_WIN_CFG 16 && a % 16 != 0)

/-- A word that applies at the next tick, or at once where no tick comes (R270, R277)
(DESIGN CHOICE, notes/assumptions/50.md). -/
def State.nextTick (s : State) (a v : Nat) : State :=
  if s.domOn Dm.PLL then { s with tickWrites := s.tickWrites ++ [(a, v)] } else s.store a v

/-- The HKA starts when its domain reaches ON (R271, R281, R285, R286). -/
def State.hkaStart (s : State) : State :=
  let t := (s.setFld Fd.HKA_STATUS_READY 0).setFld Fd.HKA_STATUS_CAL_STAGE 0xF
  let u := (List.range 61).foldl (fun v c => v.setFld (Fd.HKA_LAST_VALID c) 0) t
  let w := (List.finRange 3).foldl (fun (v : State) (x : Fin 3) =>
    if v.seqState x = seqOff then v else if v.hka.seqs[x].ending then v.runStop x else v.setSeqState x seqArmed) u
  { w with hka := { w.hka with ready := [], pipe := none }, sag := ⟨false, 0, 0, 0⟩ }

/-! ## The test DAC (R282–R284) -/

/-- The code that the output takes on a route. -/
def routeCode (r : Nat) (c : Int) : Int := if (routeHp r).isSome then clampInt (-4000) 4000 c else c

/-- The host that waits for the test DAC. -/
def State.tdacWaits (s : State) : Option (Fin 4) :=
  s.tdacQ.findSome? fun e => match e.2 with
    | .host p => some p
    | .diag _ _ | .jack _ => none

/-- The host that waits for or holds the test DAC; one that has released it holds it no more. -/
def State.tdacHost (s : State) : Option (Fin 4) :=
  match s.tdacOwner with
  | some (.host p) => if s.tdac.releasing then s.tdacWaits else some p
  | some (.diag _ _) | some (.jack _) | none => s.tdacWaits

/-- HOST_REQ = 1 is written by port `p` (R283). -/
def State.tdacRequest (s : State) (p : Fin 4) : State :=
  match s.tdacHost with
  | some q => if p = q then s else s.setErr tdacPage 1
  | none => (s.setFld Fd.TDAC_CTRL_HOST_REQ 1).tdacEnqueue (.host p)

/-- The host of port `p` gives the test DAC up, or leaves the queue (R283) (DESIGN CHOICE, notes/assumptions/51.md). -/
def State.tdacGiveUp (s : State) (p : Fin 4) : State :=
  if s.tdacHost != some p then s
  else
    let t := s.setFld Fd.TDAC_CTRL_HOST_REQ 0
    if t.tdacOwner = some (.host p) ∧ !t.tdac.releasing then
      { t.setFld Fd.TDAC_CTRL_ROUTE 0 with tdac := { t.tdac with goal := 0, ramp := some true, releasing := true } }
    else t.tdacUnqueue (.host p)

/-- HKA leaves ON: a host loses the test DAC, whose output and route are 0 (R283). -/
def State.tdacLeaves (s : State) : State :=
  match s.tdacOwner with
  | some (.host _) =>
    let t := { s with tdacOwner := none, tdac := ⟨0, none, 0, false⟩ }
    let u := ((t.setFld Fd.TDAC_CTRL_HOST_REQ 0).setFld Fd.TDAC_CTRL_ROUTE 0).setFld Fd.TDAC_STATUS_ROUTE 0
    (match routeHp (s.fld Fd.TDAC_STATUS_ROUTE) with
      | some h => u.hpUnfade h
      | none => u)
  | some (.diag _ _) | some (.jack _) | none => s

/-- Whether port `p` owns the test DAC. -/
def State.tdacOwns (s : State) (p : Fin 4) : Bool := s.tdacOwner == some (.host p) && !s.tdac.releasing

/-- ROUTE is written by port `p` (R282–R284): the inputs and outputs it names fall silent, and the output ramps to 0 V
(DESIGN CHOICE, notes/assumptions/51.md). -/
def State.tdacRouteWrite (s : State) (p : Fin 4) (r : Nat) : State :=
  if !s.tdacOwns p then s.setErr tdacPage 0
  else
    let t := s.storeFld Fd.TDAC_CTRL_ROUTE r
    let g := t.fld Fd.TDAC_CTRL_ROUTE
    if g = s.tdac.goal then t
    else
      let u := { t with tdac := { t.tdac with goal := g, ramp := some true } }
      let v := match routeAin g with
        | some n => u.muteCause n .diag
        | none => u
      match routeHp g with
      | some h => v.hpFade h
      | none => v

/-- CODE is written by port `p` (R282, R283)
(DESIGN CHOICE, notes/assumptions/51.md). -/
def State.tdacCodeWrite (s : State) (p : Fin 4) (v : Nat) : State :=
  if !s.tdacOwns p then s.setErr tdacPage 0
  else
    let t := s.store Adr.TDAC_CODE v
    if t.tdac.ramp.isSome then t
    else { t with tdac := { t.tdac with out := routeCode (t.fld Fd.TDAC_STATUS_ROUTE) (t.sfld Fd.TDAC_CODE_CODE) } }

/-- CTRL is written by port `p`: an unchanged ROUTE is no write of it
(DESIGN CHOICE, notes/assumptions/51.md). -/
def State.tdacCtrlWrite (s : State) (p : Fin 4) (v : Nat) : State :=
  let r := bitsAt (s.stored Adr.TDAC_CTRL v).toNat 0 6
  let t := if r = s.fld Fd.TDAC_CTRL_ROUTE then s else s.tdacRouteWrite p r
  if bitOf v 31 then t.tdacRequest p else t.tdacGiveUp p

/-- The owner at the head of the queue takes the free test DAC (R283); a load test whose output is no longer READY waits for
it (R232)
(DESIGN CHOICE, notes/assumptions/51.md). -/
def State.tdacServe (s : State) : State :=
  if !s.tdacFree then s
  else match s.tdacQ.head? with
    | none => s
    | some (_, .diag n cls) => if s.ainRuns n then s.diagBegin n cls else s
    | some (_, .host p) =>
      { s.tdacUnqueue (.host p) with tdacOwner := some (.host p), tdac := ⟨0, none, 0, false⟩ }.raise tdacPage 0
    | some (_, .jack j) =>
      let h : Fin 4 := Fin.ofNat 4 (j.val - 16)
      let t := s.tdacUnqueue (.jack j)
      match t.jacks[j].step with
      | .poleWait => ({ t with tdacOwner := some (.jack j) }.updJack j fun q => { q with step := .poleTest }).pipePreempt none
      | .loadWait k =>
        if t.outState (.hp h) = .ready then
          (({ t with tdacOwner := some (.jack j) }.updJack j fun q => { q with step := .loadTest k }).hpFade h).pipePreempt none
        else t.updJack j fun q => { q with step := .loadHold k }
      | .idle | .svcWait | .diag | .poleTest | .loadHold _ | .loadTest _ => t

/-- A ramp of the test DAC ends (R282, R284) (DESIGN CHOICE, notes/assumptions/51.md). -/
def State.tdacRamped (s : State) : State :=
  match s.tdac.ramp with
  | none => s
  | some true =>
    let was := s.fld Fd.TDAC_STATUS_ROUTE
    let t := s.setFld Fd.TDAC_STATUS_ROUTE s.tdac.goal
    let u := if t.tdac.releasing then { t with tdacOwner := none, tdac := ⟨0, none, 0, false⟩ }
      else { t with tdac := { t.tdac with ramp := some false, out := 0 } }
    (match routeHp was with
      | some h => u.hpUnfade h
      | none => u)
  | some false =>
    { s with tdac := { s.tdac with ramp := none, out := routeCode s.tdac.goal (s.sfld Fd.TDAC_CODE_CODE) } }

/-! ## Register writes -/

/-- A register of the HKA page is written by port `p`. -/
def State.hkaWrite (s : State) (p : Fin 4) (o v : Nat) : State :=
  if o = 0x040 then s.mainsWrite v
  else if o = 0x054 then s.urgentWrite p v
  else if 0x100 ≤ o ∧ o < 0x200 then
    (if o % 16 = 0 then s.winCfgWrite ((o - 0x100) / 16) v else s.store (pageAddr hkaPage o) v)
  else s.store (pageAddr hkaPage o) v

/-- A register of the HKSEQ page is written. -/
def State.hkseqWrite (s : State) (o v : Nat) : State :=
  if 0x040 ≤ o ∧ o < 0x070 then
    let x : Fin 3 := Fin.ofNat 3 ((o - 0x040) / 16)
    if o % 16 = 0 then s.seqCfgWrite x v else if o % 16 = 4 then s.seqTrigWrite x v else s.store (pageAddr hkseqPage o) v
  else if o = 0x070 then (List.finRange 3).foldl (fun (t : State) (x : Fin 3) => if bitOf v x then t.seqTrigger x else t) s
  else s.store (pageAddr hkseqPage o) v

/-- A register of the TDAC page is written by port `p`. -/
def State.tdacWrite (s : State) (p : Fin 4) (o v : Nat) : State :=
  if o = 0x040 then s.tdacCtrlWrite p v
  else if o = 0x044 then s.tdacCodeWrite p v
  else s.store (pageAddr tdacPage o) v

/-! ## Meanings -/

/-- `CONVERSION_DONE` (R266, R273): a conversion of requesters 1 to 3 or 5 delivers to its block, whose rows carry its result. -/
def execConversionDone (q : Sys2Proof.Requester) (v : Sys2Proof.ConvReading) (s : State) : Result :=
  .next (match q with
    | .seq x => s.seqConv x v
    | .urgent => s.urgentDone v
    | .other => s)

/-- `INTEGRATION_DONE` (R268). -/
def execIntegrationDone (v : Sys2Proof.ConvReading) (s : State) : Result :=
  .next (if s.hkaRuns then
      (match s.seqOn 1 with
        | some x =>
          let q : Seq := s.hka.seqs[x]
          let (k, t) := s.integStamp q.t
          t.entryDone x v false k
        | none => s)
    else s)

/-- `CAL_STAGE_DONE` (R267) (DESIGN CHOICE, notes/assumptions/50.md). -/
def execCalStageDone (ok : Bool) (s : State) : Result :=
  .next (if s.hkaRuns && !s.flag Fd.HKA_STATUS_CAL_FAIL then
      if ok then s.setFld Fd.HKA_STATUS_CAL_STAGE ((s.fld Fd.HKA_STATUS_CAL_STAGE + 1) % 10)
      else ((s.setFld Fd.HKA_STATUS_CAL_FAIL 1).setFld Fd.HKA_STATUS_CAL_STAGE 0xF).raise hkaPage HkaEv.CAL_FAIL
    else s)

/-- `MAINS_LOST` (R269). -/
def execMainsLost (s : State) : Result :=
  .next (if s.hkaRuns && s.fld Fd.HKA_MAINS_SEL == 2 && !s.flag Fd.HKA_STATUS_MAINS_LOST then
      ((s.setFld Fd.HKA_STATUS_MAINS_LOST 1).setFld Fd.HKA_MAINS_PERIOD 0).raise hkaPage HkaEv.MAINS_LOST
    else s)

/-- `MAINS_MEASUREMENT_VALID` (R269): the mean of the last 8 periods is `us` µs, within 40 to 70 Hz. -/
def execMainsMeasurementValid (s : State) (us : BitVec 16 := mainsPeriod) : Result :=
  .next (if s.hkaRuns && s.fld Fd.HKA_MAINS_SEL == 2 && 14286 ≤ us.toNat && us.toNat ≤ 25000
    then (s.setFld Fd.HKA_STATUS_MAINS_LOST 0).setFld Fd.HKA_MAINS_PERIOD us.toNat else s)

/-- `HKA_TIMER_FIRE` (R271). -/
def execHkaTimerFire (k : Fin 4) (s : State) : Result :=
  .next (if s.hkaRuns && s.fld (Fd.HKA_TIMER_PERIOD k) != 0 then
      (List.finRange 3).foldl (fun (t : State) (x : Fin 3) => if t.fld (Fd.HKSEQ_SEQ_TRIG_SRC x) = k.val then t.seqTrigger x else t) s
    else s)

/-- `PWM_TRIGGER` (R271): the chosen edge has come PWM_DIV times. -/
def execPwmTrigger (x : Fin 3) (s : State) : Result :=
  .next (if s.domOn Dm.HKA && s.fld (Fd.HKSEQ_SEQ_TRIG_SRC x) == 4 then s.seqTrigger x else s)

/-- `SEQ_GO` (R271). -/
def execSeqGo (mask : BitVec 3) (s : State) : Result :=
  .next (if s.pageTakes hkseqPage then s.hkseqWrite 0x070 mask.toNat else s)

/-- `SEQ_ENABLE` (R270). -/
def execSeqEnable (x : Fin 3) (s : State) : Result := .next (if s.pageTakes hkseqPage then s.seqEnWrite x true else s)

/-- `SEQ_DISABLE` (R272). -/
def execSeqDisable (x : Fin 3) (s : State) : Result := .next (if s.pageTakes hkseqPage then s.seqEnWrite x false else s)

/-- A delay end joins those that wait: by time, then A before B before C (R272). -/
def readyInsert (x : Fin 3) (k : Nat) : List (Fin 3 × Nat) → List (Fin 3 × Nat)
  | [] => [(x, k)]
  | e :: l => if k < e.2 ∨ (k = e.2 ∧ x < e.1) then (x, k) :: e :: l else e :: readyInsert x k l

/-- A run of a later sequence whose delay ended at this very count gives its core back to one before it whose delay ends at the same
count (R272). -/
def State.seqYield (s : State) (x : Fin 3) : State :=
  match s.seqOn (s.fld (Fd.HKSEQ_SEQ_CFG_MODE x)) with
  | some z =>
    let q : Seq := s.hka.seqs[z]
    if x < z ∧ q.delayEnd = s.syscnt ∧ s.entryFrom z (s.fld (Fd.HKSEQ_SEQ_CFG_FIRST z)) = some (s.fld (Fd.HKSEQ_SEQ_STAT_ENTRY z)) then
      { s.setSeqState z seqWaiting with hka := { s.hka with ready := readyInsert z s.syscnt s.hka.ready } }
    else s
  | none => s

/-- `SEQ_DELAY_END` (R272). -/
def execSeqDelayEnd (x : Fin 3) (s : State) : Result :=
  .next (if s.domOn Dm.HKA && s.seqState x == seqWaiting && !s.hka.ready.any (·.1 == x) then
      { s.seqYield x with hka := { (s.seqYield x).hka with ready := readyInsert x s.syscnt (s.seqYield x).hka.ready } }.seqServe
        (s.fld (Fd.HKSEQ_SEQ_CFG_MODE x))
    else s)

/-- The head record of ring 20 + `q`, or the empty record (R280). -/
def State.headRecord (s : State) (q : Nat) : List Byte :=
  if (s.ring (20 + q)).fill = 0 then [0xFF, 0, 0, 0, 0, 0, 0, 0] else s.ringEntries (20 + q) 1

/-- `HKA_POP` (R280). -/
def execHkaPop (q : Fin 4) (s : State) : Result :=
  .next (if s.pageOn hkseqPage then
      let b := s.headRecord q
      let t := (s.setReg (Adr.HKSEQ_POP_HI q) (word (ofBytesLE (b.drop 4)))).answer hkseqPage (word (ofBytesLE (b.take 4)))
      if (s.ring (20 + q)).fill = 0 then t else t.ringTake (20 + q) 1
    else s.answer hkseqPage 0)

/-- `HKA_PEEK` (R280). -/
def execHkaPeek (q : Fin 4) (s : State) : Result :=
  .next (if s.pageOn hkseqPage then
      let b := s.headRecord q
      (s.setReg (Adr.HKSEQ_PEEK_HI q) (word (ofBytesLE (b.drop 4)))).answer hkseqPage (word (ofBytesLE (b.take 4)))
    else s.answer hkseqPage 0)

/-- `TDAC_GRANT` (R283). -/
def execTdacGrant (s : State) : Result := .next s.tdacServe

/-- `TDAC_RAMP_DONE` (R282). -/
def execTdacRampDone (s : State) : Result := .next s.tdacRamped

end Sys2Proof.Machine
end

