-- ==== Sys2Proof/Machine/Amp.lean ====
section
/-!
DEFINITION. The speaker amplifier, its protections and their commands (10_speaker_amplifier.md), and the fixed scan and the
readiness of the HKA, on which they rest (11_housekeeping_converter.md R275, R285).
-/
namespace Sys2Proof.Machine

abbrev ampPage (n : Nat) : Nat := 0x068 + n
abbrev ampsysPage : Nat := 0x015

/-! Event bits of the AMP and AMPSYS pages (Tables 10.14, 10.10). -/

namespace AmpEv
abbrev STARTED := 0
abbrev OFF := 1
abbrev CLIP := 2
abbrev LIMITING := 3
abbrev SHUTDOWN := 4
abbrev RETRY := 5
abbrev LATCHED := 6
abbrev SUSPENDED := 7
abbrev RESUMED := 8
abbrev FOLDBACK := 9
abbrev SAG_START := 0
abbrev SAG_END := 1
abbrev SAG_FLOOR := 2
abbrev UV := 3
abbrev OV := 4
abbrev SUPPLY_OK := 5
end AmpEv

/-- The states of a channel (Table 10.2). -/
inductive AmpState where
  | off | starting | running | stopping | retryWait | latched | suspended
deriving DecidableEq, Repr

/-- The code of a channel state. -/
def AmpState.code : AmpState → Nat
  | .off => 0
  | .starting => 1
  | .running => 2
  | .stopping => 3
  | .retryWait => 4
  | .latched => 5
  | .suspended => 6

/-- The channel state of a code. -/
def AmpState.ofCode : Nat → AmpState
  | 1 => .starting
  | 2 => .running
  | 3 => .stopping
  | 4 => .retryWait
  | 5 => .latched
  | 6 => .suspended
  | _ => .off

/-- The causes of Table 10.3. -/
inductive AmpCause where
  | none | overcurrent | shortPvdd | shortGnd | dc | thermal | undervoltage | overvoltage
deriving DecidableEq, Repr

/-- The code of a cause. -/
def AmpCause.code : AmpCause → Nat
  | .none => 0
  | .overcurrent => 1
  | .shortPvdd => 2
  | .shortGnd => 3
  | .dc => 4
  | .thermal => 5
  | .undervoltage => 6
  | .overvoltage => 7

/-- The state of channel `n`. -/
def State.ampState (s : State) (n : Fin 4) : AmpState := AmpState.ofCode (s.fld (Fd.AMP_STATUS_STATE n))
def State.setAmpState (s : State) (n : Fin 4) (t : AmpState) : State := s.setFld (Fd.AMP_STATUS_STATE n) t.code

/-- `s` with channel `n` changed. -/
def State.updAmp (s : State) (n : Fin 4) (f : Amp → Amp) : State := { s with amps := s.amps.set n (f s.amps[n]) }

/-! ## Pairs (R241) -/

/-- Whether channel `n` is in a pair. -/
def State.paired (s : State) (n : Fin 4) : Bool :=
  if n.val < 2 then s.flag Fd.AMPSYS_CFG_PAR01 else s.flag Fd.AMPSYS_CFG_PAR23

/-- The channel that governs channel `n`, and the other half of its pair. -/
def State.ampLead (s : State) (n : Fin 4) : Fin 4 := if s.paired n then Fin.ofNat 4 (n.val / 2 * 2) else n
def State.ampMate (s : State) (n : Fin 4) : Fin 4 := if s.paired n then Fin.ofNat 4 (n.val / 2 * 2 + 1) else n

/-- Whether channel `n` acts on its own settings. -/
abbrev State.ampLeads (s : State) (n : Fin 4) : Bool := s.ampLead n == n

/-- Whether the domains of channel `n`, or of both halves of its pair, are ON. -/
def State.ampUp (s : State) (n : Fin 4) : Bool := s.domOn (Dm.AMP (s.ampLead n).val) && s.domOn (Dm.AMP (s.ampMate n).val)

/-- The phase of channel `n` in quarters of a cycle (Table 10.1). -/
def State.ampPhase (s : State) (n : Fin 4) : Nat :=
  if !s.flag Fd.AMPSYS_CFG_STAGGER then 0
  else if n.val = 1 ∧ s.flag Fd.AMPSYS_CFG_PAR01 then 0
  else if n.val = 3 ∧ s.flag Fd.AMPSYS_CFG_PAR23 then 2
  else n.val

/-! ## Held configuration (R241, R244, R245) -/

/-- Whether the channels are OFF. -/
def State.ampsOff (s : State) (l : List (Fin 4)) : Bool := l.all fun n => s.ampState n == .off

/-- The fields of AMPSYS.CFG that may apply take the values of word `v`. -/
def State.ampsysFields (s : State) (v : Nat) : State :=
  let t := if s.ampsOff [0, 1] then s.storeFld Fd.AMPSYS_CFG_PAR01 v else s
  let u := if t.ampsOff [2, 3] then t.storeFld Fd.AMPSYS_CFG_PAR23 v else t
  if u.ampsOff [0, 1, 2, 3] then
    ((u.storeFld Fd.AMPSYS_CFG_STAGGER v).storeFld Fd.AMPSYS_CFG_SPREAD v).storeFld Fd.AMPSYS_CFG_PWM_RATE v
  else u

/-- A held write of AMPSYS.CFG applies as far as it may (DESIGN CHOICE, notes/assumptions/52.md). -/
def State.ampsysApply (s : State) : State :=
  match (s.cfgPend.filter fun e => e.1 == Adr.AMPSYS_CFG).getLast? with
  | some e =>
    let t := s.ampsysFields e.2
    if t.ampsOff [0, 1, 2, 3] then t.dropHeld (· == Adr.AMPSYS_CFG) else t
  | none => s

/-- The held INVERT and VFS of channel `n` apply. -/
def State.ampCfgApply (s : State) (n : Fin 4) : State :=
  (s.applyFld (Fd.AMP_CTRL_INVERT n)).applyFld (Fd.AMP_CFG_VFS n)

/-! ## Start, stop and suspension (R248, R255, R258) -/

/-- The stage of a channel no longer switches. -/
def State.ampStill (s : State) (n : Fin 4) : State :=
  (s.updAmp n fun a => { a with step := .none, stopLeft := 0, out := 0 }).setGain (Adr.AMP_GAIN n) muteGlide

/-- The cause that keeps a channel from starting, and whether it is the supply (R248): PVDD below 9.0 V or above 26.5 V, the HKA,
or a
stage at 125 °C or above, judged on the values read
(DESIGN CHOICE, notes/assumptions/52.md). -/
def State.ampBlock (s : State) (n : Fin 4) : Option (AmpCause × Bool) :=
  let hot (k : Fin 4) : Bool := 2560000 ≤ s.amps[k].temp
  if s.flag Fd.AMPSYS_STATUS_UV || (s.sag.seen && s.sag.raw < 1843200) then some (.undervoltage, true)
  else if s.flag Fd.AMPSYS_STATUS_OV || (s.sag.seen && 5427200 < s.sag.raw) then some (.overvoltage, true)
  else if !s.domOn Dm.HKA then some (.none, false)
  else if hot (s.ampLead n) || hot (s.ampMate n) then some (.thermal, false)
  else none

/-- The pre-check begins. -/
def State.ampBegin (s : State) (n : Fin 4) : State :=
  ((s.setAmpState n .starting).updAmp n fun a => { a with step := .precheck }).pipePreempt none

/-- ENABLE = 1 applies to a channel that is OFF, or a retry is due: it starts, or it is suspended at once (R248)
(DESIGN CHOICE, notes/assumptions/52.md). -/
def State.ampStart (s : State) (n : Fin 4) : State :=
  match s.ampBlock n with
  | some (c, supply) =>
    (((s.ampStill n).setAmpState n .suspended).setFld (Fd.AMP_STATUS_CAUSE n) c.code).updAmp n
      (fun a => { a with supplyWait := supply }) |>.raise (ampPage n) AmpEv.SUSPENDED
  | none => s.ampBegin n

/-- Both channels of a pair, or a channel alone, are enabled with their domains ON: the lead starts. -/
def State.ampTry (s : State) (n : Fin 4) : State :=
  if s.ampLeads n && s.ampUp n && s.ampState n == .off && s.flag (Fd.AMP_CTRL_ENABLE n) then
    (s.updAmp n fun a => { a with retry := false, due := false }).ampStart n
  else s

/-- A channel enters OFF (R247, R248): CAUSE clears, held settings apply, and a held ENABLE = 1 takes effect
(DESIGN CHOICE, notes/assumptions/52.md). -/
def State.ampOff (s : State) (n : Fin 4) : State :=
  let t := ((s.ampStill n).setAmpState n .off).setFld (Fd.AMP_STATUS_CAUSE n) 0
  let u := (t.updAmp n fun a => { a with retry := false, due := false, supplyWait := false }).ampCfgApply n
  let v := ((u.raise (ampPage n) AmpEv.OFF).pipeResume).ampsysApply
  (List.finRange 4).foldl State.ampTry v

/-- A channel enters SUSPENDED from switching (R255, R258). -/
def State.ampSuspend (s : State) (n : Fin 4) (c : AmpCause) (supply : Bool) : State :=
  let t := ((s.ampStill n).setAmpState n .suspended).setFld (Fd.AMP_STATUS_CAUSE n) c.code
  ((t.updAmp n fun a => { a with supplyWait := supply }).raise (ampPage n) AmpEv.SUSPENDED).pipeResume

/-- A suspended channel whose conditions have ended starts again (R248, R255, R258); a retry that waited begins (R252); one whose
ENABLE is 0, suspended while it stopped, is OFF (DESIGN CHOICE, notes/assumptions/52.md). -/
def State.ampResume (s : State) (n : Fin 4) : State :=
  if s.ampState n == .suspended && !s.amps[n].supplyWait && (s.ampBlock n).isNone && s.ampUp n then
    if !s.flag (Fd.AMP_CTRL_ENABLE n) then s.ampOff n else
    let t := if s.amps[n].due then s.raise (ampPage n) AmpEv.RETRY else s
    ((t.updAmp n fun a => { a with due := false }).raise (ampPage n) AmpEv.RESUMED).ampBegin n
  else s

/-- Every suspended channel. -/
def State.ampsResume (s : State) : State := (List.finRange 4).foldl State.ampResume s

/-- ENABLE of a channel is written (R248). -/
def State.ampEnWrite (s : State) (n : Fin 4) (on : Bool) : State :=
  let idle : Bool := match s.ampState n with
    | .starting | .retryWait | .latched | .suspended => s.ampLeads n
    | .off | .running | .stopping => false
  if !on && idle then (s.setFld (Fd.AMP_CTRL_ENABLE n) 0).ampOff n
  else if s.flag (Fd.AMP_CTRL_ENABLE n) == on then s
  else
    let t := s.setFld (Fd.AMP_CTRL_ENABLE n) (bit on)
    if !t.ampLeads n then t
    else if on then t.ampTry n
    else match t.ampState n with
      | .running =>
        let g := (t.gainAt (Adr.AMP_GAIN n)).aim .mute (t.fld (Fd.AMP_GLIDE_TICKS n))
        ((t.setAmpState n .stopping).updAmp n fun a => { a with step := .glide }).setGain (Adr.AMP_GAIN n) g
      | .starting => t.ampOff n
      | .off | .stopping | .retryWait | .latched | .suspended => t

/-- A shutdown: a retry waits, or the channel is latched (R251–R253) (DESIGN CHOICE, notes/assumptions/52.md). -/
def State.ampShutdown (s : State) (n : Fin 4) (c : AmpCause) : State :=
  let failed := s.amps[n].retry
  let t := ((s.ampStill n).setFld (Fd.AMP_STATUS_CAUSE n) c.code).countSat (Fd.AMP_CNT_SHUTDOWNS n) 1
  let u := (if failed then t.countSat (Fd.AMP_STATUS_RETRIES n) 1 else t).raise (ampPage n) AmpEv.SHUTDOWN
  (if u.fld (Fd.AMP_OCP_RETRY_MAX n) ≤ u.fld (Fd.AMP_STATUS_RETRIES n)
    then (u.setAmpState n .latched).raise (ampPage n) AmpEv.LATCHED
    else u.setAmpState n .retryWait).pipeResume

/-- Whether the stage of a channel switches. -/
def State.ampSwitches (s : State) (n : Fin 4) : Bool :=
  match s.ampState n with
  | .running | .stopping => true
  | .starting => s.amps[n].step == .idle
  | .off | .retryWait | .latched | .suspended => false

/-! ## Supply (R256–R258) -/

/-- A supply stop: switching channels fall to mute over 32 cycles and one more, others are suspended at once (R258)
(DESIGN CHOICE, notes/assumptions/52.md). -/
def State.supplyStop (s : State) (high : Bool) (atOnce : Bool) : State :=
  let f := if high then Fd.AMPSYS_STATUS_OV else Fd.AMPSYS_STATUS_UV
  let t := if s.flag f then s else (s.setFld f 1).raise ampsysPage (if high then AmpEv.OV else AmpEv.UV)
  let c := if high then AmpCause.overvoltage else AmpCause.undervoltage
  (List.finRange 4).foldl (fun (u : State) (n : Fin 4) =>
    if u.ampSwitches n && !atOnce then
      (if u.amps[n].stopLeft = 0 then u.updAmp n fun a => { a with stopLeft := 33, stopOver := high } else u)
    else match u.ampState n with
      | .starting | .running | .stopping => u.ampSuspend n c true
      | .off | .retryWait | .latched | .suspended => u) t

/-- The effective ceiling of a channel (R257). -/
def State.ampCeiling (s : State) (n : Fin 4) : Int :=
  min (s.sfld Fd.AMPSYS_PVDD_CEILING) (min s.amps[s.ampLead n].thermal s.amps[s.ampMate n].thermal)

/-- Every effective ceiling is reported. -/
def State.showCeilings (s : State) : State :=
  (List.finRange 4).foldl (fun (t : State) (n : Fin 4) => if t.domOn (Dm.AMP n.val)
    then t.setSfld (Fd.AMP_LIMIT_CEILING n) (t.ampCeiling n) else t) s

/-- −12 dB in 1/128 dB. -/
abbrev floorCeiling : Int := -1536

/-- The sag ceiling becomes `c` (R256). -/
def State.setSag (s : State) (c : Int) : State :=
  let was := s.sfld Fd.AMPSYS_PVDD_CEILING
  let t := (s.setSfld Fd.AMPSYS_PVDD_CEILING c).setFld Fd.AMPSYS_STATUS_SAG (bit (c < 0))
  let u := if was = 0 ∧ c < 0 then t.raise ampsysPage AmpEv.SAG_START
    else if was < 0 ∧ c = 0 then t.raise ampsysPage AmpEv.SAG_END else t
  (if floorCeiling < was ∧ c = floorCeiling then u.raise ampsysPage AmpEv.SAG_FLOOR else u).showCeilings

/-- A PVDD sample: a value of channel 0x00 (R256, R258); the ceiling is the nearest 1/128 dB, as in the example of Table 10.15
(DESIGN CHOICE, notes/assumptions/52.md). -/
def State.sagTake (s : State) (raw : Int) : State :=
  let (v, t) := s.divFree raw 2048
  let mv := (clampInt 0 65535 v).toNat
  let knee : Int := t.fld Fd.AMPSYS_SAG_KNEE * 20480
  let slope : Int := t.fld Fd.AMPSYS_SAG_SLOPE
  let c : Int := if raw < knee then -((2 * slope * (knee - raw) + 3200) / 6400) else 0
  let q : Sag := ⟨true, if raw < 1740800 then min (t.sag.below + 1) 4 else 0, if 5632000 < raw then min (t.sag.above + 1) 4 else 0, raw⟩
  let w := ({ t with sag := q, pvdd := mv }.setFld Fd.AMPSYS_PVDD_V10MV mv).setSag (clampInt floorCeiling 0 c)
  let x := if q.below = 4 ∧ !w.flag Fd.AMPSYS_STATUS_UV then w.supplyStop false false else w
  if q.above = 4 ∧ !x.flag Fd.AMPSYS_STATUS_OV then x.supplyStop true false else x

/-! ## Temperature (R255) and the fixed scan -/

/-- A reading of the stage sensor of channel `n`: a value of R264
(DESIGN CHOICE, notes/assumptions/52.md). -/
def State.stageTemp (s : State) (n : Fin 4) (v : Int) : State :=
  if !s.domOn (Dm.AMP n.val) then s
  else
    let (d, t) := s.divFree v 2048
    let (c, u) := if 2764800 < v then t.divFree (-(v - 2764800)) 160 else (0, t)
    let th := clampInt floorCeiling 0 c
    let was := u.amps[n].thermal
    let m := u.ampLead n
    let w := (u.setSfld (Fd.AMP_TEMP_DEGC n) d).updAmp n fun a => { a with thermal := th, temp := v }
    let x := if was = 0 ∧ th < 0 then w.raise (ampPage m) AmpEv.FOLDBACK else w
    let y := match x.ampState m with
      | .starting | .running | .stopping =>
        if 3072000 ≤ v then (x.countSat (Fd.AMP_CNT_THERMAL m) 1).ampSuspend m .thermal false else x
      | .off | .retryWait | .latched | .suspended => x
    y.ampResume m

/-- The value of a reading in the unit of a register: `v · a / b`, not below 0. -/
def State.scaled (s : State) (v : Int) (a b : Nat) : Nat × State :=
  let (q, t) := s.divFree (v * a) b
  ((clampInt 0 65535 q).toNat, t)

/-- The phantom readings of a scan: the rail, the capacity and each current. -/
def State.phantomScan (s : State) (r : Sys2Proof.ScanReading) : State :=
  let val (c : Fin 28) : Int := clampInt valueMin valueMax r.v[c]
  let (pv, s1) := s.scaled (val 0) 1 2048
  let s2 := { s1 with pvdd := pv }
  let s3 := if s2.domOn (Dm.AIN 0) then
      let (rail, t) := s2.scaled (val 1) 1 1024
      let (cap, u) := t.phCapacity pv
      (u.setFld (Fd.AIN_PHM_STAT_RAIL 0) rail).setFld (Fd.AIN_PHM_STAT_CAPACITY_MA 0) cap
    else s2
  (List.finRange 16).foldl (fun (t : State) (n : Fin 16) =>
    if t.domOn (Dm.AIN (n.val / 4)) then
      let (i, u) := t.scaled (val ⟨2 + n.val, by omega⟩) 5 2048
      u.setFld (Fd.AIN_PH_CURRENT_UA n) i
    else t) s3

/-- A fixed scan (R275)
(DESIGN CHOICE, notes/assumptions/50.md). -/
def State.scan (s : State) (r : Sys2Proof.ScanReading) : State :=
  let s1 := (List.finRange 28).foldl (fun (t : State) (c : Fin 28) => t.converted c ⟨r.v[c], false⟩ false) s
  let s2 := s1.phantomScan r
  let s3 := { s2 with hka := { s2.hka with pipe := some 0x1B } }
  let s4 := match s3.seqOn 0 with
    | some x =>
      if s3.hka.seqs[x].due then s3
      else (s3.updSeq x fun q => { q with switched := entryChan q.word != 0x1B }).entryInput x
    | none => s3
  ((List.finRange 4).foldl (fun (t : State) (n : Fin 4) =>
    t.stageTemp n (clampInt valueMin valueMax r.v[(⟨0x14 + n.val, by omega⟩ : Fin 28)])) s4).showCeilings

/-! ## One tick of a channel (R245, R246, R257) -/

/-- The peak envelope with its hold of 10 ms
(DESIGN CHOICE, notes/assumptions/24.md). -/
def Amp.envelope (a : Amp) (m hold : Nat) : Amp :=
  if a.env ≤ m then { a with env := m, hold := hold }
  else if a.hold = 0 then { a with env := m, hold := hold }
  else { a with hold := a.hold - 1 }

/-- What a channel drives in a tick (DESIGN CHOICE, notes/assumptions/24.md). -/
def State.ampDrive (s : State) (n : Fin 4) (lost : Bool) : State :=
  let live := (s.ampState n == .running || s.ampState n == .stopping) && s.amps[n].step != .half
  let x := if lost || !live then 0 else s.sinkNow (0x018 + n.val)
  let (h, m) := if s.flag (Fd.AMP_CTRL_HPF n) then Config.highPass s.fc s.amps[n].mem x else (x, s.amps[n].mem)
  let (q, c1, t) := s.toQ31 (mulGain (s.gainAt (Adr.AMP_GAIN n)).now h)
  let a := (t.amps[n].envelope q.natAbs (t.msTicks 10))
  let goal : Int := if a.env = 0 then 0 else max 0 (levelDb false a.env - 65536 * t.ampCeiling n)
  let gr := onePole (t.msTicks (if a.gr < goal then 1 else 500)) a.gr goal
  let (y, _, u) := t.toQ31 (mulGain (Gain.norm (.db (-gr) 65536)) q)
  let z := if a.stopLeft = 0 then y else fadeCode (Gain.between (.db 0 1) .mute (33 - a.stopLeft) 32) y
  let top : Int := u.pvdd * 2147483648 / (10 * max 1 (u.fld (Fd.AMP_CFG_VFS n)) : Nat)
  let c2 := top < z.natAbs
  let d := clampInt (-top) top z
  let (g, w) := u.divFree gr 65536
  let out := w.updAmp n fun _ =>
    { a with gr := gr, mem := m, out := if w.flag (Fd.AMP_CTRL_INVERT n) then -d else d, limited := a.limited || c1 || c2 }
  let v := out.setSfld (Fd.AMP_LIMIT_GR n) (clampInt (-32768) 0 (-g))
  if c1 || c2 then (v.countSat (Fd.AMP_CNT_CLIP n) 1).raise (ampPage n) AmpEv.CLIP else v

/-- What the speaker pins of a channel carry, those of a pair alike: nothing while their pads are held (13_power_domains.md R314). -/
def State.spkOut (s : State) (n : Fin 4) : Int := if s.padHeld (Dm.AMP n) then 0 else s.amps[s.ampLead n].out

/-- The sense return of a channel in a tick (R246), from what the converter of its output measured. -/
def State.ampSense (s : State) (n : Fin 4) (v : BitVec 32) : Sample :=
  let m := s.ampLead n
  if s.ampUp n && (s.ampState m == .running || s.ampState m == .stopping) then
    ⟨signed 32 v.toNat, { Tag.genuine with clipped := s.amps[m].limited }⟩
  else Sample.zero

/-- The DC that a channel reports: the differential through a low-pass of 1 Hz, a time constant of 159.15 ms (R254)
(DESIGN CHOICE, notes/assumptions/24.md). -/
def State.ampDc (s : State) (n : Fin 4) (x : Sample) : State :=
  let d := onePole (s.fc * 15915 / 100000) s.amps[n].dc x.v
  let (mv, t) := s.divFree (d * (10 * s.fld (Fd.AMP_CFG_VFS n) : Nat)) 2147483648
  (t.updAmp n fun a => { a with dc := d }).setSfld (Fd.AMP_DC_V10MV n) (clampInt (-32768) 32767 mv)

/-- Whether the DC of a channel exceeds 2.0 V (R254). -/
def State.ampDcHigh (s : State) (n : Fin 4) : Bool := 20 * 2147483648 < s.amps[n].dc.natAbs * s.fld (Fd.AMP_CFG_VFS n)

/-- One tick of a channel. -/
def State.ampTick (s : State) (n : Fin 4) (sense : BitVec 32) (lost : Bool) : State :=
  let deliver (t : State) : State := { t with senseOut := t.senseOut.set n (t.ampSense n sense) }
  if !(s.ampUp n && s.ampLeads n) then deliver s
  else
    let a := Adr.AMP_GAIN n
    let g := s.gainAt a
    let t := s.setGain a (if s.ampState n = .running then g.retarget (s.outTarget a) (s.fld (Fd.AMP_GLIDE_TICKS n)) else g).step
    let u := deliver (t.ampDrive n lost)
    u.ampDc n (at_ u.senseOut n Sample.zero)

/-- One tick of every channel; what limited its cycles is then forgotten. -/
def State.ampsTick (s : State) (sense : Vector (BitVec 32) 4) (lost : List Nat) : State :=
  let t := (List.finRange 4).foldl (fun (u : State) (n : Fin 4) => u.ampTick n sense[u.ampLead n] (lost.contains n.val)) s
  { t with amps := t.amps.map fun (a : Amp) => { a with limited := false } }

/-! ## Register writes -/

/-- A register of an amplifier page is written (R241, R245, R248). -/
def State.ampWrite (s : State) (n : Fin 4) (o v : Nat) : State :=
  let idle := !s.ampLeads n || s.ampState n == .off
  if o = 0x040 then
    let t := s.storeFld (Fd.AMP_CTRL_HPF n) v
    let u := if idle then t.storeFld (Fd.AMP_CTRL_INVERT n) v else t.hold (Adr.AMP_CTRL n) v
    u.ampEnWrite n (bitOf v 0)
  else if o = 0x04C then
    let t := s.storeFld (Fd.AMP_CFG_START_IDLE n) v
    if idle then t.storeFld (Fd.AMP_CFG_VFS n) v else t.hold (Adr.AMP_CFG n) v
  else s.store (pageAddr (ampPage n) o) v

/-- A register of the AMPSYS page is written (R241, R244, R256)
(DESIGN CHOICE, notes/assumptions/52.md). -/
def State.ampsysWrite (s : State) (o v : Nat) : State :=
  if o = 0x040 then
    let t := (s.dropHeld (· == Adr.AMPSYS_CFG)).hold Adr.AMPSYS_CFG v
    (List.finRange 4).foldl State.ampTry t.ampsysApply
  else if o = 0x044 then
    let t := s.store Adr.AMPSYS_SAG v
    if s.flag Fd.AMPSYS_SAG_EN && !t.flag Fd.AMPSYS_SAG_EN then t.setSag 0 else t
  else s.store (pageAddr ampsysPage o) v

/-! ## Meanings -/

/-- `AMP_ENABLE` (R248): ENABLE is written 1. -/
def execAmpEnable (n : Fin 4) (s : State) : Result := .next (if s.pageTakes (ampPage n) then s.ampEnWrite n true else s)

/-- `AMP_DISABLE` (R248): ENABLE is written 0. -/
def execAmpDisable (n : Fin 4) (s : State) : Result := .next (if s.pageTakes (ampPage n) then s.ampEnWrite n false else s)

/-- The outcome of a pre-check: pins in 10 mV (R253)
(DESIGN CHOICE, notes/assumptions/52.md). -/
def State.precheck (s : State) (r : Sys2Proof.PrecheckReading) : Option AmpCause × State :=
  let high (x : Int) : Bool := (s.pvdd : Int) - 100 ≤ x
  let low (x : Int) : Bool := x ≤ 100
  match high r.p || high r.n, low r.p || low r.n with
  | true, true =>
    let (k, t) := s.free 2
    (some (if k = 0 then .shortPvdd else .shortGnd), t)
  | true, false => (some .shortPvdd, s)
  | false, true => (some .shortGnd, s)
  | false, false => (none, s)

/-- `AMP_PRECHECK_DONE` (R253, Table 10.4). -/
def execAmpPrecheckDone (n : Fin 4) (r : Sys2Proof.PrecheckReading) (s : State) : Result :=
  .next (if s.hkaRuns && s.ampState n == .starting && s.amps[n].step == .precheck then
      (match s.precheck r with
        | (some c, t) => t.ampShutdown n c
        | (none, t) => (t.updAmp n fun a => { a with step := .release }).pipeResume)
    else s)

/-- `AMP_RELEASE` (R248): both halves are released at the start of the channel's phase. -/
def execAmpRelease (n : Fin 4) (s : State) : Result :=
  .next (if s.ampState n == .starting && s.amps[n].step == .release then
      (s.updAmp n fun a => { a with step := .idle, hist := [] }).setFld (Fd.AMP_STATUS_LIMITING n) 0
    else s)

/-- `AMP_RUNNING` (R248): the gain glides in from mute. -/
def execAmpRunning (n : Fin 4) (s : State) : Result :=
  .next (if s.ampState n == .starting && s.amps[n].step == .idle then
      let a := Adr.AMP_GAIN n
      let t := (s.setAmpState n .running).updAmp n fun q => { q with step := .none }
      (t.setGain a (muteGlide.aim (t.outTarget a) (t.fld (Fd.AMP_GLIDE_TICKS n)))).raise (ampPage n) AmpEv.STARTED
    else s)

/-- `AMP_STOP_GLIDE_DONE` (R248). -/
def execAmpStopGlideDone (n : Fin 4) (s : State) : Result :=
  .next (if s.ampState n == .stopping && s.amps[n].step == .glide && (s.gainAt (Adr.AMP_GAIN n)).left == 0
    then s.updAmp n fun a => { a with step := .half } else s)

/-- `AMP_OFF` (R248). -/
def execAmpOff (n : Fin 4) (s : State) : Result :=
  .next (if s.ampState n == .stopping && s.amps[n].step == .half then s.ampOff n else s)

/-- A cycle of one half-channel is limited or not (R250): the history of its channel
(DESIGN CHOICE, notes/assumptions/52.md). -/
def State.pwmCount (s : State) (n : Fin 4) (limited : Bool) : State :=
  let m := s.ampLead n
  let any (t : State) : Bool := t.amps[m].hist.contains true || t.amps[t.ampMate n].hist.contains true
  let t := s.updAmp n fun a => { a with hist := (limited :: a.hist).take 32, limited := a.limited || limited }
  let u := if m = n then t else t.updAmp m fun a => { a with limited := a.limited || limited }
  let v := if !u.domOn (Dm.AMP m.val) then u else u.setFld (Fd.AMP_STATUS_LIMITING m) (bit (any u))
  if limited && !any s then v.raise (ampPage m) AmpEv.LIMITING else v

/-- A cycle of a supply stop (R258) (DESIGN CHOICE, notes/assumptions/52.md). -/
def State.pwmStop (s : State) (n : Fin 4) : State :=
  if s.amps[n].stopLeft = 0 then s
  else
    let t := s.updAmp n fun a => { a with stopLeft := a.stopLeft - 1 }
    if t.amps[n].stopLeft = 0 then
      t.ampSuspend n (if t.amps[n].stopOver then .overvoltage else .undervoltage) true else t

/-- `PWM_CYCLE` (R250, R251, R258): the currents of both halves in 10 mA. -/
def execPwmCycle (n : Fin 4) (pos neg : Nat) (s : State) : Result :=
  .next (
    let m := s.ampLead n
    let t := s.pwmCount n (s.ampSwitches m && 50 * s.fld (Fd.AMP_OCP_PEAK m) ≤ max pos neg)
    let u := if t.ampSwitches m && 16 ≤ (t.amps[n].hist.filter id).length then t.ampShutdown m .overcurrent else t
    if m = n then u.pwmStop n else u)

/-- `AMP_RETRY` (R252); a channel whose ENABLE is 0, shut down while it stopped, is OFF (DESIGN CHOICE, notes/assumptions/52.md). -/
def execAmpRetry (n : Fin 4) (s : State) : Result :=
  .next (if s.ampState n == .retryWait then
      if !s.flag (Fd.AMP_CTRL_ENABLE n) then s.ampOff n else
      if (s.ampBlock n).isNone then
        ((s.updAmp n fun a => { a with retry := true }).raise (ampPage n) AmpEv.RETRY).ampBegin n
      else (s.updAmp n fun a => { a with retry := true, due := true }).ampStart n
    else s)

/-- `AMP_RETRIES_CLEAR` (R252): 5 s in RUNNING. -/
def execAmpRetriesClear (n : Fin 4) (s : State) : Result :=
  .next (if s.ampState n == .running
    then (s.setFld (Fd.AMP_STATUS_RETRIES n) 0).updAmp n fun a => { a with retry := false } else s)

/-- A DC shutdown latches; one that ends a retry makes it a failed one (R252, R254). -/
def State.ampDcStop (s : State) (n : Fin 4) : State :=
  let failed := s.amps[n].retry
  let t := ((s.ampStill n).setFld (Fd.AMP_STATUS_CAUSE n) AmpCause.dc.code).countSat (Fd.AMP_CNT_SHUTDOWNS n) 1
  let u := if failed then t.countSat (Fd.AMP_STATUS_RETRIES n) 1 else t
  ((u.setAmpState n .latched).raise (ampPage n) AmpEv.SHUTDOWN).raise (ampPage n) AmpEv.LATCHED

/-- `AMP_DC_FAULT` (R254): the DC has exceeded 2.0 V for 200 ms; on either half of a pair it acts on the pair (R241). -/
def execAmpDcFault (n : Fin 4) (s : State) : Result :=
  .next (
    let m := s.ampLead n
    if (s.ampState m == .running || s.ampState m == .stopping) && s.ampDcHigh m then s.ampDcStop m else s)

/-- `FIXED_SCAN` (R275, R255). -/
def execFixedScan (r : Sys2Proof.ScanReading) (s : State) : Result := .next (if s.hkaRuns then s.scan r else s)

/-- `SAG_SAMPLE` (R256–R258, R274): it preempts any conversion and is ready at once. -/
def execSagSample (raw : Nat) (s : State) : Result :=
  .next (if s.hkaRuns && s.flag Fd.AMPSYS_SAG_EN then
      let r : Sys2Proof.ConvReading := ⟨raw, false⟩
      let t := ((s.pipePreempt (some 0x00)).converted 0x00 r false).pipeResume
      t.sagTake (convValue r)
    else s)

/-- `PVDD_HW_STOP` (R258): every stage is off at once. -/
def execPvddHwStop (s : State) : Result := .next (if s.domOn Dm.HKA then s.supplyStop false true else s)

/-- `SUPPLY_OK` (R258): PVDD has stayed in range for 100 ms; with SAG.EN = 0 no sample follows the last one, which then says nothing
more
(DESIGN CHOICE, notes/assumptions/52.md). -/
def execSupplyOk (s : State) : Result :=
  .next (
    let waits := s.flag Fd.AMPSYS_STATUS_UV || s.flag Fd.AMPSYS_STATUS_OV || s.amps.any (fun (a : Amp) => a.supplyWait)
    let known := s.sag.seen && s.flag Fd.AMPSYS_SAG_EN
    if s.domOn Dm.HKA && waits && (!known || (1843200 ≤ s.sag.raw && s.sag.raw ≤ 5427200)) then
      let t := { s with sag := { s.sag with seen := known }, amps := s.amps.map fun (a : Amp) => { a with supplyWait := false } }
      (((t.setFld Fd.AMPSYS_STATUS_UV 0).setFld Fd.AMPSYS_STATUS_OV 0).raise ampsysPage AmpEv.SUPPLY_OK).ampsResume
    else s)

/-- `HKA_READY` (R285): what waited is served; after a stage has failed no rotation starts (R267) (DESIGN CHOICE, notes/assumptions/3.md). -/
def execHkaReady (s : State) : Result :=
  .next (if s.domOn Dm.HKA && !s.flag Fd.HKA_STATUS_READY then
      ((s.setFld Fd.HKA_STATUS_READY 1).setFld Fd.HKA_STATUS_CAL_STAGE
        (if s.flag Fd.HKA_STATUS_CAL_FAIL then 0xF else 0)).seqServeAll.ampsResume
    else s)

end Sys2Proof.Machine
end

