-- ==== Sys2Proof/Machine/Rings.lean ====
section
/-!
DEFINITION. Ring descriptors and indices, the event registers of a page, the books, capture and injection, with their commands
(16_rings_events_books.md).
-/
namespace Sys2Proof.Machine

abbrev ringPage : Nat := 0x00C
abbrev txnPage : Nat := 0x00D

/-! ## Descriptors and indices (R371–R375) -/

/-- Whether the storage of a ring leaves ring storage (R372). -/
def Ring.outside (r : Ring) (i : Nat) : Bool := decide (0x20000 < r.base * 256 + r.size * ringEsize i r.pack)

/-- Whether the storages of two rings overlap. -/
def Ring.overlaps (q : Ring) (j : Nat) (r : Ring) (i : Nat) : Bool :=
  r.base * 256 < q.base * 256 + q.size * ringEsize j q.pack && q.base * 256 < r.base * 256 + r.size * ringEsize i r.pack

/-- Whether a ring may not be enabled (R372). -/
def State.ringBlocked (s : State) (i : Nat) : Bool :=
  (s.ring i).outside i || (List.range 32).any fun j => j != i && (s.ring j).enable && (s.ring j).overlaps j (s.ring i) i

/-- A ring that has become too small for its entries loses them, so that its fill stays within its size (R371, R380)
(DEDUCED, notes/assumptions/62.md). -/
def Ring.fit (r : Ring) : Ring := if r.size < r.fill then { r with cons := r.prod } else r

/-- The layout fields of a descriptor from a written word. -/
def Ring.layoutFrom (r : Ring) (i v : Nat) : Ring :=
  Ring.fit { r with log2n := max 2 (bitsAt v 20 4), base := bitsAt v 8 9, pack := if 28 ≤ i then bitOf v 30 else r.pack }

/-- A ring that has been enabled starts empty (R372, R378, R379) (DEDUCED, notes/assumptions/62.md). -/
def State.ringStart (s : State) (i : Nat) : State :=
  let t := s.updRing i fun r => { r with enable := true, prod := 0, cons := 0, lost := 0, lostBefore := false }
  let u := if 20 ≤ i ∧ i ≤ 23 then t.setFld (Fd.HKSEQ_LOST_COUNT (i - 20)) 0 else t
  if i = 28 ∨ i = 29 then { u with caps := upd u.caps (i - 28) fun _ => (false, false) }
  else if i = 30 ∨ i = 31 then { u with injs := upd u.injs (i - 30) fun _ => .fresh }
  else u

/-- RINGr_CFG is written; the descriptors of rings 0–11 are read-only (R372). -/
def State.ringCfgWrite (s : State) (i v : Nat) : State :=
  if i < 12 then s
  else if bitOf v 31 then
    if (s.ring i).enable then s
    else
      let t := s.updRing i fun r => r.layoutFrom i v
      if t.ringBlocked i then t.setErr ringPage 0 else t.ringStart i
  else s.updRing i fun r => { r.layoutFrom i v with enable := false }

/-- Whether the index of ring `i` is the host's: P of a host-produced ring, C of a device-produced one (R373). -/
def indexIsHost (i : Nat) (producer : Bool) : Bool :=
  if producer then i = 24 || i = 30 || i = 31 else ringDeviceProduced i

/-- The device writes the port of each request from index `x` on (17_boot_images_recovery.md Table 17.7). -/
def State.stampRequests (s : State) (p : Fin 4) (x : Word) : Nat → State
  | 0 => s
  | n + 1 => (s.setByte ((s.ring 24).entryAddr 24 x + 6) (BitVec.ofNat 8 p)).stampRequests p (x + 1) n

/-- `k` entries of a host-produced ring come into force. -/
def State.ringHostGive (s : State) (p : Fin 4) (i k : Nat) : State :=
  let t := if i = 24 then s.stampRequests p (s.ring 24).prod k else s
  t.ringGive i k

/-- RINGr_PROD or RINGr_CONS is written by port `p` (R373); a disabled ring takes no entry (R372). -/
def State.ringIndexWrite (s : State) (p : Fin 4) (i : Nat) (producer : Bool) (v : Word) : State :=
  if !indexIsHost i producer then s
  else
    let r := s.ring i
    if producer then
      let k := (v - r.prod).toNat
      if r.size - r.fill < k then s.setErr ringPage 1
      else if r.enable then s.ringHostGive p i k
      else s.ringLose i k
    else
      let k := (v - r.cons).toNat
      if k ≤ r.fill then s.ringTake i k else s.setErr ringPage 1

/-- RINGr_WM is written (R375, Table 16.6)
(DEDUCED, notes/assumptions/62.md). -/
def State.ringWmWrite (s : State) (i v : Nat) : State :=
  if i < 8 then s
  else s.updRing i fun r => { r with wm := if 8 ≤ i ∧ i ≤ 11 then max 1 (bitsAt v 0 16) else bitsAt v 0 16 }

/-! ## Event and error registers of a page (R376, 18_register_pages.md R406) -/

/-- The defined bits of EVT_STATUS, EVT_ENABLE and EVT_FORCE of a page. -/
def evtMask (p : Nat) : Nat := ((blockOf p).map (·.evt)).getD 0

/-- The defined bits of ERR of a page. -/
def errMask (p : Nat) : Nat := ((blockOf p).map (·.err)).getD 0

/-- The set bits of a word, ascending. -/
def bitsOf (v : Nat) : List Nat := (List.range 32).filter (bitOf v)

/-- The DETAIL that the cause of a set status bit gave (R376). -/
def State.causeDetail (s : State) (p : Nat) (r : EvtReg) (b : Nat) : Nat :=
  if p = txnPage ∧ r = .page ∧ b = 0 then s.txn.lastCommitted.getD 0
  else if p = txnPage ∧ r = .page ∧ b = 1 then s.txn.lastAborted.getD 0
  else s.tickcnt

/-- A register of enable bits is written: a bit newly set whose status bit is already 1 raises its event at once. -/
def State.evtEnable (s : State) (p : Nat) (r : EvtReg) (mask v : Nat) : State :=
  let old := (s.reg (r.enableAddr p)).toNat
  let new := v &&& mask
  let st := (s.reg (r.statusAddr p)).toNat
  let t := s.setReg (r.enableAddr p) (word new)
  ((bitsOf new).filter fun b => !bitOf old b && bitOf st b).foldl (fun u b =>
    deliverWith raiseRing ⟨u.syscnt, u.coarse, false, r.code, p, b, u.causeDetail p r b⟩ u) t

/-- EVT_FORCE is written: each 1 sets its status bit as its cause would, and the record carries FORCED. -/
def State.evtForce (s : State) (p v : Nat) : State :=
  (bitsOf (v &&& evtMask p)).foldl (fun t b =>
    let st := (t.reg (pageAddr p 0x010)).toNat
    let outcome : Bool := p == txnPage && b ≤ 1
    let u := if outcome && !bitOf st b then
        { t with txn := if b = 0 then { t.txn with lastCommitted := none } else { t.txn with lastAborted := none } } else t
    raiseFuel 4 p .page b (if outcome then 0 else u.tickcnt) true u) s

/-- EVT_STATUS is written: ones clear; an outcome of `TXN` goes with its bit. -/
def State.evtClear (s : State) (p : Nat) (r : EvtReg) (v : Nat) : State :=
  let st := (s.reg (r.statusAddr p)).toNat
  let t := s.setReg (r.statusAddr p) (word (st - (st &&& v)))
  if p = txnPage then
    { t with txn := { t.txn with lastCommitted := if bitOf v 0 then none else t.txn.lastCommitted,
                                 lastAborted := if bitOf v 1 then none else t.txn.lastAborted } }
  else t

/-- ERR of a page is written: ones clear. -/
def State.errClear (s : State) (p v : Nat) : State :=
  let e := (s.reg (pageAddr p 0x01C)).toNat
  s.setReg (pageAddr p 0x01C) (word (e - (e &&& v)))

/-! ## The books (R380, R381) -/

/-- The granules in cushions: all that the groups have allocated (R381). -/
def State.cushionCount (s : State) : Nat := (s.grps.toList.map fun (g : Grp) => g.granules.length).sum

/-- The granules of delay lines that drain, or that do not. -/
def State.lineCount (s : State) (draining : Bool) : Nat :=
  ((s.dlines.filter fun (l : DLine) => l.draining == draining).map fun (l : DLine) => l.granules.length).sum

/-- The granules that IN_FLIGHT transactions hold. -/
def State.reservedCount (s : State) : Nat := (s.txn.bibs.toList.map fun (b : Bib) => if b.state == .inFlight then b.reserved else 0).sum

/-- The counts at a tick boundary. -/
def State.bookNow (s : State) : State :=
  let c := s.cushionCount
  let l := s.lineCount false
  let d := s.lineCount true
  { s with book := (4096 - c - l - d, c, l, d, s.reservedCount) }

/-- A read of GRAN_A latches GRAN_B and GRAN_C. -/
def State.latchGran (s : State) : State :=
  let (_, _, l, d, r) := s.book
  (s.setReg Adr.RING_GRAN_B (word (l * 2 ^ 13 + d))).setReg Adr.RING_GRAN_C (word r)

/-- The word of GRAN_A. -/
def State.granA (s : State) : Nat := s.book.1 * 2 ^ 16 + s.book.2.1

/-! ## Capture and injection in one tick (R378, R379) -/

/-- The image of a sample in a capture ring (03_serial_audio_ports.md R66). -/
def captureImage (pack4 : Bool) (x : Sample) : List Byte :=
  if pack4 then bytesLE 4 (word24 x.v * 256 + x.tag.code) else bytesLE 3 (word24 x.v)

/-- Capture tap `k` writes its entry of the tick while its ring is enabled (R378) and the ring logic runs (01_architecture.md R22)
(DEDUCED, notes/assumptions/62.md). -/
def State.captureTap (s : State) (k : Nat) : State :=
  let i := 28 + k
  let x := ((s.fab.sinks.find? (·.1 == 0x120 + k)).map (·.2)).getD Sample.zero
  let r := s.ring i
  let c := at_ s.caps k (false, false)
  if !r.enable || !s.ringsUp then s
  else if r.fill = r.size then
    let t := if c.2 then s else s.setFld (Fd.RING_CAP_LOSTTICK_TICK k) s.tickcnt
    { t with caps := upd t.caps k fun e => (e.1, true) }.ringPut i fun _ => captureImage r.pack x
  else
    let t := if c.1 then s else s.setFld (Fd.RING_CAP_T0_TICK k) s.tickcnt
    { t with caps := upd t.caps k fun e => (true, e.2) }.ringPut i fun _ => captureImage r.pack x

/-- The capture taps of a tick. -/
def State.capture (s : State) : State := (s.captureTap 0).captureTap 1

/-- PRIME and UNDER of an injection ring. -/
def injPrime (k : Nat) : Fld := if k = 0 then Fd.RING_INJ_CFG_PRIME0 else Fd.RING_INJ_CFG_PRIME1
def injUnder (k : Nat) : Fld := if k = 0 then Fd.RING_INJ_CNT_UNDER0 else Fd.RING_INJ_CNT_UNDER1

/-- The oldest entry of injection ring `k` becomes the sample of source 0x130 + `k`. -/
def State.injTake (s : State) (k : Nat) : State :=
  let i := 30 + k
  let x := sampleImage (s.ring i).pack (s.ringEntries i 1)
  { s with injs := upd s.injs k fun _ => .running, injOut := upd s.injOut k fun _ => x }.ringTake i 1

/-- A tick of silence of injection ring `k`. -/
def State.injSilent (s : State) (k : Nat) : State := { s with injOut := upd s.injOut k fun _ => Sample.silence }

/-- Injection ring `k` in one tick (R379); while the ring logic does not run it delivers as a disabled ring does (DEDUCED, notes/assumptions/62.md). -/
def State.injTick (s : State) (k : Nat) : State :=
  let i := 30 + k
  let r := s.ring i
  if !r.enable || !s.ringsUp then { s with injOut := upd s.injOut k fun _ => Sample.zero }
  else
    let primed : Bool := decide (s.fld (injPrime k) ≤ r.fill) && r.fill != 0
    match at_ s.injs k .fresh with
    | .fresh => if primed then s.injTake k else s.injSilent k
    | .running =>
      if r.fill = 0 then
        (({ s with injs := upd s.injs k fun _ => .starved }.injSilent k).countSat (injUnder k) 1).raise ringPage 2
      else s.injTake k
    | .starved => if primed then s.injTake k else (s.injSilent k).countSat (injUnder k) 1

/-- The injection rings of a tick. -/
def State.inject (s : State) : State := (s.injTick 0).injTick 1

/-! ## Meanings -/

/-- `GRAN_A_READ` (R381). -/
def execGranARead (s : State) : Result :=
  .next ((if s.pageOn ringPage then s.latchGran else s).answer ringPage (word s.granA))

end Sys2Proof.Machine
end

