-- ==== Sys2Proof/Machine/Sap.lean ====
section
/-!
DEFINITION. The commands of the serial audio ports (03_serial_audio_ports.md).
-/
namespace Sys2Proof.Machine

/-! ## A frame at the pins (R60, R62, R64, R82, R113) -/

/-- The word of a slot whose bits are `d`, first bit highest, left-justified with 0 below it: its first bits, in format 2 those that end
with the slot (Table 3.2, R58, R60). -/
def slotWord (fmt slot word d : Nat) : Nat :=
  (if fmt = 2 then d / 2 ^ (32 - slot) % 2 ^ word else d / 2 ^ (32 - word)) * 2 ^ (32 - word)

/-- The bits of a slot and of a word of port `n` (Table 3.10). -/
def State.slotBits (s : State) (n : Fin 32) : Nat := [16, 24, 32].getD (s.fld (Fd.SAP_FMT_SLOT n)) 32
def State.wordBits (s : State) (n : Fin 32) : Nat := [16, 20, 24, 32].getD (s.fld (Fd.SAP_FMT_WORD n)) 32

/-- The sample of a received slot: sampled on rising edges of BCLK, with BCLK_INV on falling ones (R59); the 24 most significant bits
of the word (R60), VALID (R67). -/
def State.wsSample (s : State) (n : Fin 32) (x : RxSub) : Sample :=
  let d := (if s.flag (Fd.SAP_FMT_BCLK_INV n) then x.alt else x.data).toNat
  ⟨signed 32 (slotWord (s.fld (Fd.SAP_FMT_FORMAT n)) (s.slotBits n) (s.wordBits n) d / 256 * 256), Tag.genuine⟩

/-- Whether WS is low in the slot of channel 0 (Table 3.2); WS_INV inverts it (R59). -/
def State.lowFirst (s : State) (n : Fin 32) : Bool := (s.fld (Fd.SAP_FMT_FORMAT n) == 0) != s.flag (Fd.SAP_FMT_WS_INV n)

/-- The slots of channels 0 and 1 on line `k`. -/
def State.rxSlots (s : State) (n : Fin 32) (k : Fin 2) (f : RxFrame) : RxSub × RxSub :=
  let (lo, hi) := if k = 0 then (f.a0, f.b0) else (f.a1, f.b1)
  if s.isAes n || s.lowFirst n then (lo, hi) else (hi, lo)

/-- The samples of a frame on a line: as received, or the channel's previous samples where the frame glitched or was a
framing error (Table 2.5, R64). -/
def State.rxSamples (s : State) (n : Fin 32) (k : Fin 2) (f : RxFrame) : Sample × Sample :=
  let l := s.line n k
  let (xa, xb) := s.rxSlots n k f
  if s.isAes n then
    if s.saps[n].glitch then
      (⟨l.rxA, { Tag.made with u := xa.u, c := xa.c, blockStart := f.z }⟩,
       ⟨l.rxB, { Tag.made with u := xb.u, c := xb.c, blockStart := f.z }⟩)
    else (s.aesSample n xa f.z l.rxA, s.aesSample n xb f.z l.rxB)
  else if s.saps[n].glitch || (f.framing && !s.isMaster n) then (⟨l.rxA, Tag.made⟩, ⟨l.rxB, Tag.made⟩)
  else (s.wsSample n xa, s.wsSample n xb)

/-- A frame arrives on one line, which runs while the PLL is ON (01_architecture.md R22): it enters the store, or is counted in and dropped while the clock is not present
(R113), or while the input frames of the port are discarded (R64, R80). -/
def State.rxLine (s : State) (n : Fin 32) (k : Fin 2) (f : RxFrame) : State :=
  if s.dir n k ≠ 1 || !s.domOn Dm.PLL then s
  else
    let l := s.line n k
    if !l.live || !s.rxClock n || s.inputShut n then
      s.updLine n k fun q => { q with fin := q.fin + 1, dropped := q.dropped + 1 }
    else
      let (a, b) := s.rxSamples n k f
      (s.enter n k a b).updLine n k fun q => { q with rxA := a.v, rxB := b.v }

/-- What a frame brings to a port whose transfer runs. -/
def State.rxFrame (s : State) (n : Fin 32) (f : RxFrame) : State :=
  let s1 := if f.framing && !s.isMaster n && !s.isAes n then
      (s.countSat (Fd.SAP_FRAMING_CNT_COUNT n) 1).raise (sapPage n) SapEv.FRAMING
    else s
  let s2 := if s1.isAes n then ((s1.aesErrors n f.a0).aesErrors n f.b0).csFrame n f.a0 f.b0 f.z else s1
  let s3 := (s2.rxLine n 0 f).rxLine n 1 f
  s3.updSap n fun p => { p with glitch := false, cut := p.cut || (f.framing && !s.isMaster n && !s.isAes n) }

/-- Whether the frame of an aligned master has already passed in this tick, or its first tick has not come: its frames begin at tick
boundaries, the first at that of tick T + 1 (R61, Table 3.6; DEDUCED, notes/assumptions/84.md). -/
def State.frameEarly (s : State) (n : Fin 32) (last : Nat) : Bool :=
  s.tickAligned n 1 && (decide (s.ticks ≤ last) || (List.finRange 2).any fun k =>
    s.dir n k != 0 && (s.line n k).live && decide (s.ticks ≤ (s.line n k).startTick))

/-- A frame of a port whose inputs are ignored: what it samples has no stated value (13_power_domains.md R314, R315)
(DESIGN CHOICE, notes/assumptions/41.md). -/
def State.deafFrame (s : State) (f : RxFrame) : RxFrame × State :=
  let x (i : Nat) (q : RxSub) : RxSub := let w := BitVec.ofNat 32 (Config.free (s.fresh + i)); { q with data := w, alt := w }
  ({ f with a0 := x 0 f.a0, b0 := x 1 f.b0, a1 := x 2 f.a1, b1 := x 3 f.b1, framing := false },
   { s with fresh := s.fresh + 4 })

/-- A frame arrives at the pins of a port.  While its inputs are ignored a follower hears no clock and no receiver a signal; a master
in a word-select format goes on with its own clock. -/
def State.frameReceived (s : State) (n : Fin 32) (f : RxFrame) : State :=
  if !s.domOn (Dm.PORTG (n.val / 8)) || (s.sapDeaf n && (s.isAes n || !s.isMaster n)) then s
  else
    let (f, s) := if s.sapDeaf n then s.deafFrame f else (f, s)
    let t := if s.isAes n || s.isMaster n then s else s.monEdge (Fin.ofNat 43 (3 + n.val))
    match t.sapState n with
    | .stopped | .pdm => t
    | .starting | .running | .stopping | .held =>
      if !t.isAes n && t.frameEarly n t.saps[n].lastRx then t
      else (t.updSap n fun p => { p with lastRx := t.ticks }).rxFrame n f

/-! ## A frame leaves the pins (R60, R79, R82, R120) -/

/-- A frame that an output line sends: its samples, which of them the port makes itself, and the state after it. -/
abbrev TxOut := (Sample × Sample) × (Bool × Bool) × State

/-- Takes the oldest frame of an output line through its splice and its glide back in. -/
def State.txTake (s : State) (n : Fin 32) (k : Fin 2) : TxOut :=
  let (a, b) := s.fifoFront n k
  let l := s.line n k
  let (g, mark, nx) := l.splice.next
  let cut (x : Sample) : Sample := if mark then ⟨fadeCode g x.v, { x.tag with valid := true, settling := true }⟩ else x
  let back : Bool := match l.snow with
    | .glide left => left != 0
    | .none | .fade _ | .silent | .waitPos => false
  let out (x : Sample) : Sample := ⟨fadeCode l.level.now (cut x).v, if back then (cut x).tag.returning else (cut x).tag⟩
  ((out a, out b), l.made.headD (false, false), (s.fifoDrop n k).updLine n k fun q =>
    { q with fout := q.fout + 1, splice := nx, lastA := cut a, lastB := cut b })

/-- A zero word sent, counted as inserted. -/
def State.txZero (s : State) (n : Fin 32) (k : Fin 2) : TxOut :=
  ((Sample.silence, Sample.silence), (true, true), s.countInserted n k)

/-- A frame of the fade tail of an output underrun (R120). -/
def State.txTail (s : State) (n : Fin 32) (k : Fin 2) : TxOut :=
  let l := s.line n k
  ((⟨fadeCode l.level.now l.lastA.v, Tag.made⟩, ⟨fadeCode l.level.now l.lastB.v, Tag.made⟩), (true, true), s.countInserted n k)

/-- The next frame of an output line: in STOPPING, once its channels are silent, its FIFO is sent to the end (R80). -/
def State.txNext (s0 : State) (n : Fin 32) (k : Fin 2) : TxOut :=
  let s := s0.outputRejoin n k
  let l := s.line n k
  let ends := s.sapState n == .stopping && s.lineSilent n k
  if s.txHeld n then s.txZero n k
  else if ends then (if l.fill = 0 then s.txZero n k else s.txTake n k)
  else if !l.delivering then s.txZero n k
  else match l.snow with
    | .fade left => if left = 0 then s.txZero n k else s.txTail n k
    | .silent | .waitPos => s.txZero n k
    | .none | .glide _ =>
      if l.fill ≠ 0 then s.txTake n k
      else
        let t := (s.beginSnow n k).underrun n k
        (t.updLine n k fun q => { q with level := q.level.step }).txTail n k

/-- Stamps the blocks of an output line as their first frames leave (R69). -/
def State.txStamp (s : State) (n : Fin 32) (k : Fin 2) : State :=
  let l := s.line n k
  if !l.delivering then s
  else
    let t := if l.partialFrames = 0 then s.stampBlock n k else s
    let b := s.blockFrames n
    t.updLine n k fun q => { q with partialFrames := if q.partialFrames + 1 = b then 0 else q.partialFrames + 1 }

/-- The bits that a word of 24 leaves in its slot, first bit first: in format 2 it ends with the slot; unused bits are 0
(Table 3.2, R58, R60). -/
def slotSent (fmt slot word w24 : Nat) : List Bool :=
  let w := (List.range word).map fun i => if i < 24 then bitOf w24 (23 - i) else false
  let pad := List.replicate (slot - word) false
  if fmt = 2 then pad ++ w else w ++ pad

/-- A word-select frame on the pins of line `k`: one bit for each BCLK period from the WS edge that starts it, in format 0 one period
late (Table 3.2); BCLK_INV swaps the edge on which data changes, WS_INV the level of WS (R58, R59). -/
def State.wireFrame (s : State) (n : Fin 32) (k : Fin 2) (wa wb : Nat) : State :=
  let fmt := s.fld (Fd.SAP_FMT_FORMAT n)
  let bits := slotSent fmt (s.slotBits n) (s.wordBits n) wa ++ slotSent fmt (s.slotBits n) (s.wordBits n) wb
  let late := fmt == 0
  s.updSap n fun p =>
    { p with wire := p.wire.set k (if late then p.carry[k] :: bits.dropLast else bits),
             carry := p.carry.set k (late && bits.getLastD false),
             wsFirst := !s.lowFirst n, onRise := s.flag (Fd.SAP_FMT_BCLK_INV n), cut := false,
             sentA := p.sentA.set k ⟨wa, false, false, false, false⟩, sentB := p.sentB.set k ⟨wb, false, false, false, false⟩ }

/-- Whether an output line has a clock to send by: its own, or the one that came at another rate and made its port HELD (Table 2.5). -/
def State.txTimed (s : State) (n : Fin 32) : Bool := s.txClock n || (s.txHeld n && s.fld (Fd.CLK_MON_STAT_STATE (s.lineMon n)) == 2)

/-- What a line sends while a discharge to its port may disturb it (19_electrical_and_package.md R427)
(DESIGN CHOICE, notes/assumptions/40.md). -/
def State.txDisturb (s : State) (n : Fin 32) (a b : Sample) : (Sample × Sample) × State :=
  if s.esdPort n then
    let (v, t) := s.freeInt sampleMin sampleMax
    let (w, u) := t.freeInt sampleMin sampleMax
    (({ a with v := v }, { b with v := w }), u)
  else ((a, b), s)

/-- Sends one frame on one output line. -/
def State.txLine (s : State) (n : Fin 32) (k : Fin 2) : State :=
  if s.dir n k ≠ 2 || !(s.line n k).live || !s.txTimed n then s
  else
    let ((a0, b0), (ma, mb), t) := s.txNext n k
    let ((a, b), u) := ((t.txStamp n k).endEpisodes n k).txDisturb n a0 b0
    if s.isAes n then u.aesSend n a b ma mb
    else
      let keep := min 24 (s.wordBits n)
      let (wa, v) := u.cutWord a.v keep (s.flag (Fd.SAP_FMT_DITHER n))
      let (wb, w) := v.cutWord b.v keep (s.flag (Fd.SAP_FMT_DITHER n))
      w.wireFrame n k wa wb

/-- A port sends its next frame; a follower whose inputs are ignored has no clock to send by, and a master sends into pads that are
held (13_power_domains.md R315). -/
def State.frameTransmit (s : State) (n : Fin 32) : State :=
  if !s.domOn (Dm.PORTG (n.val / 8)) || (s.sapDeaf n && !s.isMaster n) then s
  else match s.sapState n with
    | .stopped | .pdm => s
    | .starting | .running | .stopping | .held =>
      if s.frameEarly n s.saps[n].lastTx then s
      else ((s.updSap n fun p => { p with lastTx := s.ticks }).txLine n 0).txLine n 1

/-! ## The pins (Tables 3.1, 3.7, 4.1) -/

/-- What the device does at a pin: listens, leaves it at high impedance, drives it low, drives its signal, or holds the pad as its
domain left it (13_power_domains.md R314); of a frame clock output (04_aes3_ports.md R89): the recovered clock, that of the
transmitter, or one that stands still. -/
inductive PinUse where
  | input | highZ | low | driven | held | recovered | transmit | still
deriving DecidableEq, Repr

/-- `SAPn_BCLK`. -/
def State.bclkPin (s : State) (n : Fin 32) : PinUse :=
  if !s.vioUp then .highZ
  else if s.sapPads n then .held
  else if s.sapState n = .pdm then .driven
  else if s.isAes n then .low
  else if s.isMaster n then (if s.saps[n].clocksOn && s.domOn Dm.PLL then .driven else .low)
  else .input

/-- The frame clock at `SAPn_WS` in AES3 mode: the recovered clock runs while the receiver is LOCKED, that of the transmitter while the
port is not STOPPED and its clock is there (04_aes3_ports.md R91–R93, Table 4.6) (DESIGN CHOICE, notes/assumptions/83.md). -/
def State.frameClockPin (s : State) (n : Fin 32) : PinUse :=
  let out := s.fld (Fd.SAP_AES_CFG_WS_OUT n)
  if out = 0 then .highZ
  else if out = 1 then (if s.fld (Fd.SAP_AES_RX_STAT_LOCK n) = 2 then .recovered else .still)
  else if s.sapState n ≠ .stopped ∧ s.txClock n then .transmit else .still

/-- `SAPn_WS`. -/
def State.wsPin (s : State) (n : Fin 32) : PinUse :=
  if !s.vioUp then .highZ
  else if s.sapPads n then .held
  else if s.sapState n = .pdm then .low
  else if s.isAes n then s.frameClockPin n
  else s.bclkPin n

/-- `SAPn_Dk`. -/
def State.dataPin (s : State) (n : Fin 32) (k : Fin 2) : PinUse :=
  let stopped := s.sapState n == .stopped
  if !s.vioUp then .highZ
  else if s.sapPads n then .held
  else if s.sapState n = .pdm then
    (if s.flag (Fd.SAP_PDM_MODE n) then .driven else if k = 0 then .input else .highZ)
  else if s.dir n k = 1 then .input
  else if s.dir n k = 0 then .highZ
  else if s.isAes n then (if k = 0 ∨ stopped then .highZ else if s.saps[n].aes.dLow then .low else .driven)
  else if stopped then (if s.isMaster n then .low else .highZ)
  else .driven

/-- The frequency in Hz of a BCLK that the device drives: 2 × SLOT × rate (R58), and that of Table 3.7 in PDM mode. -/
def State.bclkHz (s : State) (n : Fin 32) : Nat :=
  if s.bclkPin n ≠ .driven then 0
  else if s.sapState n = .pdm then (if s.flag (Fd.SAP_PDM_MODE n) then 6144000 else 3072000)
  else 2 * s.slotBits n * s.sapHz n

/-! ## Delivery (R79) -/

/-- Delivery begins on a line whose condition has come: an input line in no group with its first block complete, an
output line whose FIFO holds one block.  Its channels then wait for their crossings. -/
def State.deliverLine (s : State) (n : Fin 32) (k : Fin 2) : State :=
  let l := s.line n k
  if !l.live || l.delivering then s
  else if s.dir n k = 1 then
    if l.anchored && (s.groupOf n k).isNone then
      (s.updLine n k fun q => { q with delivering := true, nextPos := 0, anchorTick := s.ticks + 1 }).updSap n fun p =>
        let un (c : Nat) (x : SapChan) : SapChan := if bitOf (s.fld (Fd.SAP_CTRL_MUTE n)) c then x else { x with sw := .waitIn 0 }
        { p with chans := (p.chans.set (chanNo k 0) (un (2 * k.val) p.chans[chanNo k 0])).set (chanNo k 1)
                    (un (2 * k.val + 1) p.chans[chanNo k 1]) }
    else s
  else if s.dir n k = 2 ∧ s.blockFrames n ≤ l.fill then
    let t := s.updLine n k fun q => { q with delivering := true, partialFrames := 0 }
    if t.sapState n == .starting then (t.setSapState n .running).raise (sapPage n) SapEv.STARTED else t
  else s

/-! ## Meanings -/

/-- `SAP_RUN_START` (R79): RUN is written 1. -/
def execSapRunStart (n : Fin 32) (s : State) : Result :=
  .next (if s.pageTakes (sapPage n) then s.sapCtrlWrite n ((s.reg (Adr.SAP_CTRL n)).toNat ||| 1) else s)

/-- `SAP_RUN_STOP` (R80, R81, R78): RUN is written 0. -/
def execSapRunStop (n : Fin 32) (s : State) : Result :=
  .next (if s.pageTakes (sapPage n) then s.sapCtrlWrite n (putBits (s.reg (Adr.SAP_CTRL n)).toNat 0 1 0) else s)

/-- `SAP_MUTE_REQUEST` (R78): the MUTE bits are written. -/
def execSapMuteRequest (n : Fin 32) (mask : BitVec 4) (s : State) : Result :=
  .next (if s.pageTakes (sapPage n) then s.muteWrite n mask.toNat else s)

/-- `SAP_CONFIG_WRITE` (R72). -/
def execSapConfigWrite (n : Fin 32) (r : SapReg) (v : Word) (s : State) : Result :=
  .next (if s.pageTakes (sapPage n) && !(r == .aesCfg && n.val < 24) then s.sapCfgWrite n r v.toNat else s)

/-- `SAP_FRAME_RECEIVED` (R82). -/
def execSapFrameReceived (n : Fin 32) (f : RxFrame) (s : State) : Result := .next (s.frameReceived n f)

/-- `SAP_FRAME_TRANSMIT` (R82). -/
def execSapFrameTransmit (n : Fin 32) (s : State) : Result := .next (s.frameTransmit n)

/-- `SAP_DELIVERY_START` (R79). -/
def execSapDeliveryStart (n : Fin 32) (s : State) : Result :=
  .next (match s.sapState n with
    | .starting | .running => ((s.deliverLine n 0).deliverLine n 1).syncZc n
    | .stopped | .stopping | .held | .pdm => s)

/-- `ZC_TIMEOUT` (R76): a channel that has waited TIMEOUT begins the 32-tick glide. -/
def execZcTimeout (n : Fin 32) (ch : Fin 4) (s : State) : Result :=
  let due := s.msTicks (s.fld (Fd.SAP_ZC_TIMEOUT n))
  let go (sw : ChSwitch) : State := (s.updChan n ch fun c => { c with sw := sw }).raise (sapPage n) SapEv.ZC_TIMEOUT
  .next (match s.saps[n].chans[ch].sw with
    | .waitIn w => if due ≤ w then go (.glideIn 32) else s
    | .waitOut w => if due ≤ w then go (.glideOut 32) else s
    | .silent | .opened | .glideIn _ | .glideOut _ => s)

/-- `ZC_GLIDE_DONE` (R77): a fallback glide that has run its 32 ticks ends in the switched state
(DESIGN CHOICE, notes/assumptions/4.md). -/
def execZcGlideDone (n : Fin 32) (ch : Fin 4) (s : State) : Result :=
  .next (match s.saps[n].chans[ch].sw with
    | .glideIn 0 => (s.updChan n ch fun c => { c with sw := .opened }).syncZc n
    | .glideOut 0 => (s.updChan n ch fun c => { c with sw := .silent }).syncZc n
    | .glideIn _ | .glideOut _ | .silent | .opened | .waitIn _ | .waitOut _ => s)

/-- `SAP_STOPPED` (R80): a STOPPING port that has drained enters STOPPED. -/
def execSapStopped (n : Fin 32) (s : State) : Result :=
  .next (if s.sapState n == .stopping && s.drained n then s.enterStopped n else s)

/-- Clears all counts of both lines, or denies it outside STOPPED (R85). -/
def State.sapCntClear (s : State) (n : Fin 32) : State :=
  if s.sapState n == .stopped then
    let z (l : SapLine) : SapLine := { l with fin := 0, fout := 0, dropped := 0, inserted := 0 }
    let t := s.updSap n fun p => { p with lines := p.lines.map z }
    (List.range 2).foldl (fun u k => (((u.setFld (Fd.SAP_FRAMES_OUT_COUNT n k) 0).setFld (Fd.SAP_FILL_COUNT n k) 0).setFld
      (Fd.SAP_DROPPED_COUNT n k) 0).setFld (Fd.SAP_INSERTED_COUNT n k) 0) t
  else s.setErr (sapPage n) 1

/-- `SAP_CNT_CLEAR` (R85). -/
def execSapCntClear (n : Fin 32) (s : State) : Result :=
  .next (if s.pageTakes (sapPage n) then s.sapCntClear n else s)

/-- A read of FRAMES_IN latches the other four counts of the line (R84). -/
def State.latchCounts (s : State) (n : Fin 32) (k : Fin 2) : State :=
  let l := s.line n k
  (((s.setFld (Fd.SAP_FRAMES_OUT_COUNT n k) l.fout).setFld (Fd.SAP_FILL_COUNT n k) l.store).setFld
    (Fd.SAP_DROPPED_COUNT n k) l.dropped).setFld (Fd.SAP_INSERTED_COUNT n k) l.inserted

/-- `FRAMES_IN_READ` (R84). -/
def execFramesInRead (n : Fin 32) (k : Fin 2) (s : State) : Result :=
  .next (if s.pageOn (sapPage n) then (s.latchCounts n k).answer (sapPage n) (word (s.line n k).fin)
    else s.answer (sapPage n) 0)

/-- A read of STAMP_LO latches STAMP_HI and BLOCK_CNT (Table 3.15). -/
def State.latchStamp (s : State) (n : Fin 32) : State :=
  (s.setReg (Adr.SAP_STAMP_HI n) (word (s.saps[n].stampNow / 2 ^ 32))).setReg (Adr.SAP_BLOCK_CNT n) (word s.saps[n].blocks)

/-- `STAMP_LO_READ` (R69). -/
def execStampLoRead (n : Fin 32) (s : State) : Result :=
  .next (if s.pageOn (sapPage n) then (s.latchStamp n).answer (sapPage n) (word s.saps[n].stampNow)
    else s.answer (sapPage n) 0)

/-! ## AES3 commands (04_aes3_ports.md) -/

/-- `AES_RX_LOCKED` (R93). -/
def execAesRxLocked (k : Fin 8) (s : State) : Result :=
  .next (if s.aesRx (aesPort k) then s.aesLockTo (aesPort k) 2 else s)

/-- `AES_RX_LOCK_LOST` (R93): a LOCKED receiver returns to ACQUIRING. -/
def execAesRxLockLost (k : Fin 8) (s : State) : Result :=
  .next (if s.aesRx (aesPort k) && s.fld (Fd.SAP_AES_RX_STAT_LOCK (aesPort k)) == 2 then s.aesLockTo (aesPort k) 1 else s)

/-- `AES_RX_ACQUIRING` (R93): transitions are found. -/
def execAesRxAcquiring (k : Fin 8) (s : State) : Result :=
  .next (if s.aesRx (aesPort k) && s.fld (Fd.SAP_AES_RX_STAT_LOCK (aesPort k)) == 0 then s.aesLockTo (aesPort k) 1 else s)

/-- `AES_RX_UNLOCKED` (R93): no transitions are found. -/
def execAesRxUnlocked (k : Fin 8) (s : State) : Result :=
  .next (if s.aesRx (aesPort k) then s.aesLockTo (aesPort k) 0 else s)

/-- A read of AES_RX_CS_A word 0 latches all 48 bytes of both channels (R98). -/
def State.latchCs (s : State) (n : Fin 32) : State :=
  let x := s.saps[n].aes
  let put (t : State) (base : Nat) (bs : List Byte) : State :=
    (List.range 6).foldl (fun u i => u.setReg (base + 4 * i) (word (ofBytesLE ((bs.drop (4 * i)).take 4)))) t
  put (put s (pageAddr (sapPage n) 0x120) x.heldA) (pageAddr (sapPage n) 0x140) x.heldB

/-- `AES_RX_CS_READ` (R98): word 0 of AES_RX_CS_A, or of AES_RX_CS_B where `b` is set. -/
def execAesRxCsRead (k : Fin 8) (b : Bool) (s : State) : Result :=
  let n := aesPort k
  let t := if s.pageOn (sapPage n) && !b then s.latchCs n else s
  .next (t.answer (sapPage n) (t.reg (if b then Adr.SAP_AES_RX_CS_B n 0 else Adr.SAP_AES_RX_CS_A n 0)))

/-- SWAP is written 1 (R99). -/
def State.swapRequest (s : State) (n : Fin 32) : State :=
  (s.setFld (Fd.SAP_AES_TX_CTRL_SWAP n) 1).updAes n fun x =>
    { x with swapTick := some (x.swapTick.getD s.ticks) }

/-- Whether the transmitter takes its next frame from its FIFO (R80, R120). -/
def State.txFromFifo (s : State) (n : Fin 32) (k : Fin 2) : Bool :=
  let l := (s.outputRejoin n k).line n k
  let ends := s.sapState n == .stopping && s.lineSilent n k
  l.fill != 0 && !s.txHeld n && (ends || (l.delivering && (match l.snow with
    | .none | .glide _ => true
    | .fade _ | .silent | .waitPos => false)))

/-- Whether the next frame that an AES3 transmitter sends begins with a Z preamble (R99, R100). -/
def State.nextIsZ (s : State) (n : Fin 32) : Bool :=
  let x := s.saps[n].aes
  !x.started || x.txPos = 0 || 192 ≤ x.txPos
    || (s.flag (Fd.SAP_AES_CFG_CS_SRC n) && s.txFromFifo n 1 && !((s.line n 1).made.headD (false, false)).1
      && (s.fifoFront n 1).1.tag.blockStart)

/-- `AES_TX_SWAP` (R99). -/
def execAesTxSwap (k : Fin 8) (s : State) : Result :=
  .next (if s.pageTakes (sapPage (aesPort k)) then s.swapRequest (aesPort k) else s)

/-- `AES_CS_SWAP_COPY` (R99): at a Z frame of a running port, in a tick after the one in which SWAP first read 1. -/
def execAesCsSwapCopy (k : Fin 8) (s : State) : Result :=
  let n := aesPort k
  .next (match s.saps[n].aes.swapTick with
    | some t =>
      if s.isAes n && s.dir n 1 == 2 && s.sapState n != .stopped && s.sapState n != .pdm && s.nextIsZ n && t < s.ticks then
        ((s.csCopy n).setFld (Fd.SAP_AES_TX_CTRL_SWAP n) 0).raiseAes (sapPage n) aesCsSwapped
      else s
    | none => s)

end Sys2Proof.Machine
end

