-- ==== Sys2Proof/Machine/Sha.lean ====
section
/-!
DEFINITION. SHA-256 and the check of an ECDSA signature on P-256, which 17_boot_images_recovery.md Table 17.3 names; their
definitions are those of the public standards FIPS 180-4 and FIPS 186-4 (PRESUMED, notes/assumptions/25.md).
-/
namespace Sys2Proof.Machine

/-! ## SHA-256 -/

/-- Round constants 0 to 15. -/
def shaK0 : List Word :=
  [0x428A2F98, 0x71374491, 0xB5C0FBCF, 0xE9B5DBA5,
   0x3956C25B, 0x59F111F1, 0x923F82A4, 0xAB1C5ED5,
   0xD807AA98, 0x12835B01, 0x243185BE, 0x550C7DC3,
   0x72BE5D74, 0x80DEB1FE, 0x9BDC06A7, 0xC19BF174]

/-- Round constants 16 to 31. -/
def shaK1 : List Word :=
  [0xE49B69C1, 0xEFBE4786, 0x0FC19DC6, 0x240CA1CC,
   0x2DE92C6F, 0x4A7484AA, 0x5CB0A9DC, 0x76F988DA,
   0x983E5152, 0xA831C66D, 0xB00327C8, 0xBF597FC7,
   0xC6E00BF3, 0xD5A79147, 0x06CA6351, 0x14292967]

/-- Round constants 32 to 47. -/
def shaK2 : List Word :=
  [0x27B70A85, 0x2E1B2138, 0x4D2C6DFC, 0x53380D13,
   0x650A7354, 0x766A0ABB, 0x81C2C92E, 0x92722C85,
   0xA2BFE8A1, 0xA81A664B, 0xC24B8B70, 0xC76C51A3,
   0xD192E819, 0xD6990624, 0xF40E3585, 0x106AA070]

/-- Round constants 48 to 63. -/
def shaK3 : List Word :=
  [0x19A4C116, 0x1E376C08, 0x2748774C, 0x34B0BCB5,
   0x391C0CB3, 0x4ED8AA4A, 0x5B9CCA4F, 0x682E6FF3,
   0x748F82EE, 0x78A5636F, 0x84C87814, 0x8CC70208,
   0x90BEFFFA, 0xA4506CEB, 0xBEF9A3F7, 0xC67178F2]

/-- The round constants. -/
def shaK : List Word := shaK0 ++ shaK1 ++ shaK2 ++ shaK3

/-- The eight words of a hash under way. -/
structure Sha where
  a : Word
  b : Word
  c : Word
  d : Word
  e : Word
  f : Word
  g : Word
  h : Word
deriving DecidableEq, Repr

/-- The first hash value. -/
def Sha.first : Sha :=
  ⟨0x6A09E667, 0xBB67AE85, 0x3C6EF372, 0xA54FF53A, 0x510E527F, 0x9B05688C, 0x1F83D9AB, 0x5BE0CD19⟩

/-- One round with the sum of a constant and a word of the schedule. -/
def Sha.round (q : Sha) (kw : Word) : Sha :=
  let ch := (q.e &&& q.f) ^^^ (~~~q.e &&& q.g)
  let maj := (q.a &&& q.b) ^^^ (q.a &&& q.c) ^^^ (q.b &&& q.c)
  let t1 := q.h + (q.e.rotateRight 6 ^^^ q.e.rotateRight 11 ^^^ q.e.rotateRight 25) + ch + kw
  let t2 := (q.a.rotateRight 2 ^^^ q.a.rotateRight 13 ^^^ q.a.rotateRight 22) + maj
  ⟨t1 + t2, q.a, q.b, q.c, q.d + t1, q.e, q.f, q.g⟩

/-- The next `n` words of the schedule `ws`, newest first. -/
def shaSchedule : Nat → List Word → List Word
  | 0, ws => ws
  | n + 1, ws =>
    let x := ws.getD 14 0
    let y := ws.getD 1 0
    let s0 := x.rotateRight 7 ^^^ x.rotateRight 18 ^^^ (x >>> 3)
    let s1 := y.rotateRight 17 ^^^ y.rotateRight 19 ^^^ (y >>> 10)
    shaSchedule n ((s1 + ws.getD 6 0 + s0 + ws.getD 15 0) :: ws)

/-- The big-endian words of bytes. -/
def wordsBE : List Byte → List Word
  | b0 :: b1 :: b2 :: b3 :: bs => (b0 ++ b1 ++ b2 ++ b3) :: wordsBE bs
  | _ => []

/-- One block of 64 bytes. -/
def Sha.block (q : Sha) (bs : List Byte) : Sha :=
  let ws := (shaSchedule 48 (wordsBE bs).reverse).reverse
  let r := (List.zipWith (fun k w => k + w) shaK ws).foldl Sha.round q
  ⟨q.a + r.a, q.b + r.b, q.c + r.c, q.d + r.d, q.e + r.e, q.f + r.f, q.g + r.g, q.h + r.h⟩

/-- `n` blocks. -/
def Sha.blocks : Nat → List Byte → Sha → Sha
  | 0, _, q => q
  | n + 1, bs, q => Sha.blocks n (bs.drop 64) (q.block (bs.take 64))

/-- The bytes of `x`, highest first, and the number that bytes spell so. -/
def bytesBE (n x : Nat) : List Byte := (bytesLE n x).reverse
def ofBytesBE (bs : List Byte) : Nat := ofBytesLE bs.reverse

/-- A message with its padding. -/
def shaPadded (bs : List Byte) : List Byte :=
  bs ++ [0x80] ++ List.replicate ((119 - bs.length % 64) % 64) 0 ++ bytesBE 8 (8 * bs.length)

/-- SHA-256: the 32 bytes of the digest. -/
def sha256 (bs : List Byte) : List Byte :=
  let m := shaPadded bs
  let q := Sha.blocks (m.length / 64) m Sha.first
  [q.a, q.b, q.c, q.d, q.e, q.f, q.g, q.h].flatMap fun w => bytesBE 4 w.toNat

/-! ## P-256 -/

/-- The prime of the field, the order of the group, the coefficient b and the base point. -/
def p256P : Nat := 0xFFFFFFFF00000001000000000000000000000000FFFFFFFFFFFFFFFFFFFFFFFF
def p256N : Nat := 0xFFFFFFFF00000000FFFFFFFFFFFFFFFFBCE6FAADA7179E84F3B9CAC2FC632551
def p256B : Nat := 0x5AC635D8AA3A93E7B3EBBD55769886BC651D06B0CC53B0F63BCE3C3E27D2604B
def p256G : Nat × Nat :=
  (0x6B17D1F2E12C4247F8BCE6E563A440F277037D812DEB33A0F4A13945D898C296,
   0x4FE342E2FE1A7F9B8EE7EB4A7C0F9E162BCE33576B315ECECBB6406837BF51F5)

/-- `b` to the power `e` modulo `m`, for `e` of at most `fuel` bits. -/
def powMod (m : Nat) : Nat → Nat → Nat → Nat
  | 0, _, _ => 1 % m
  | fuel + 1, b, e => let h := powMod m fuel (b * b % m) (e / 2); if e % 2 = 1 then b * h % m else h

/-- The inverse of `x` modulo a prime `m` of 256 bits. -/
def invMod (m x : Nat) : Nat := powMod m 256 (x % m) (m - 2)

/-- `x - y` modulo the prime of the field. -/
def subP (x y : Nat) : Nat := (x + p256P - y % p256P) % p256P

/-- The point of slope `l` through `a` and `c`. -/
def chordP (l : Nat) (a c : Nat × Nat) : Nat × Nat :=
  let x := subP (subP (l * l % p256P) a.1) c.1
  (x, subP (l * subP a.1 x % p256P) a.2)

/-- The sum of two points; none is the point at infinity. -/
def addPoint : Option (Nat × Nat) → Option (Nat × Nat) → Option (Nat × Nat)
  | none, q => q
  | q, none => q
  | some a, some c =>
    if a.1 ≠ c.1 then some (chordP (subP c.2 a.2 * invMod p256P (subP c.1 a.1) % p256P) a c)
    else if (a.2 + c.2) % p256P = 0 then none
    else some (chordP (subP (3 * a.1 * a.1) 3 * invMod p256P (2 * a.2) % p256P) a c)

/-- `k` times a point, for `k` of at most `fuel` bits. -/
def mulPoint : Nat → Nat → Option (Nat × Nat) → Option (Nat × Nat)
  | 0, _, _ => none
  | fuel + 1, k, q => let h := mulPoint fuel (k / 2) (addPoint q q); if k % 2 = 1 then addPoint q h else h

/-- Whether a point lies on the curve. -/
def onCurve (q : Nat × Nat) : Bool :=
  q.1 < p256P && q.2 < p256P && (q.2 * q.2 + 3 * q.1) % p256P == (q.1 * q.1 * q.1 + p256B) % p256P

/-- Whether a signature `r`, `s` of a digest is valid for a public key (PRESUMED, notes/assumptions/25.md). -/
def ecdsaValid (key sign digest : List Byte) : Bool :=
  let q := (ofBytesBE (key.take 32), ofBytesBE (key.drop 32))
  let r := ofBytesBE (sign.take 32)
  let s := ofBytesBE (sign.drop 32)
  let w := invMod p256N s
  let u := ofBytesBE digest * w % p256N
  let v := r * w % p256N
  onCurve q && 0 < r && r < p256N && 0 < s && s < p256N
    && (match addPoint (mulPoint 256 u (some p256G)) (mulPoint 256 v (some q)) with
      | some x => x.1 % p256N == r
      | none => false)

end Sys2Proof.Machine
end

