-- ==== Sys2Proof/Machine/Boot.lean ====
section
/-!
DEFINITION. Modes, images, the schuss path, fuses and the requests to the service image (17_boot_images_recovery.md).
-/
namespace Sys2Proof.Machine

abbrev sysPage : Nat := 0x000
abbrev bootPage : Nat := 0x006
abbrev dumpPage : Nat := 0x00F
abbrev fusePage : Nat := 0x005
abbrev dbgPage : Nat := 0x007

namespace BootEv
abbrev LOAD_DONE := 0
abbrev SVC_STARTED := 1
abbrev SVC_STOPPED := 2
abbrev SVC_FAULT := 3
abbrev SCHUSS_END := 4
abbrev RECOVERY := 5
end BootEv

/-! Error bits of page BOOT. -/

namespace BootErr
abbrev NOT_OWNER := 0
abbrev LOAD_BUSY := 1
abbrev BAD_KEY := 2
abbrev BAD_STATE := 3
end BootErr

/-! ## Modes (R383, R384, R392) -/

/-- The modes of the device. -/
inductive Mode where
  | bare | service | recovery
deriving DecidableEq, Repr

/-- The code of a mode. -/
def Mode.code : Mode → Nat
  | .bare => 0
  | .service => 1
  | .recovery => 2

/-- The mode of a code. -/
def Mode.ofCode : Nat → Mode
  | 1 => .service
  | 2 => .recovery
  | _ => .bare

/-- The mode that SYS.MODE reports. -/
def State.mode (s : State) : Mode := Mode.ofCode (s.fld Fd.SYS_MODE_MODE)

/-- The device enters a mode; one that it leaves SERVICE for ends the classifications (R384). -/
def State.setMode (s : State) (m : Mode) : State :=
  if s.mode = m then s
  else
    let t := (s.setFld Fd.SYS_MODE_MODE m.code).raise sysPage 0
    if s.mode = .service then t.classifyEnd else t

/-- The UNTESTED flags follow the images that run (R392). -/
def State.syncUntested (s : State) : State :=
  let on (i : Option Image) : Bool := match i with
    | some x => x.untested
    | none => false
  let u := on s.boot.supp || (on s.boot.svc && s.fld Fd.BOOT_SVC_STAT_STATE == 2)
  (s.setFld Fd.SYS_MODE_UNTESTED (bit u)).setFld Fd.BOOT_LOAD_STAT_UNTESTED (bit u)

/-- Whether the boot phase runs. -/
abbrev State.bootPhase (s : State) : Bool := s.flag Fd.SYS_MODE_BOOT_PHASE

/-! ## Fuses (R396–R398) -/

/-- Fuse `k` as it was read into the page. -/
def State.fuse (s : State) (k : Nat) : Bool := s.fusesRead.getLsbD k

namespace Fuse
abbrev SEALED := 256
abbrev DEBUG_KILL := 257
abbrev STRICT := 258
abbrev ENS_OVR := 259
abbrev SCHUSS_EN := 269
end Fuse

/-- A field of the fuses as read: `w` bits from bit `lo`. -/
def State.fuseBits (s : State) (lo w : Nat) : Nat := (s.fusesRead.extractLsb' lo w).toNat

/-- FUSE.PROG is written (R397): the cases that discard it, in their order
(DESIGN CHOICE, notes/assumptions/69.md). -/
def State.fuseProg (s : State) (v : Nat) : State :=
  let k := bitsAt v 0 9
  if bitsAt v 24 8 ≠ 0xC3 then s.setErr fusePage 0
  else if s.pvdd < 1200 then s.setErr fusePage 1
  else if 272 ≤ k ∨ (s.fuse Fuse.SEALED ∧ k ≠ Fuse.DEBUG_KILL) ∨ (k = Fuse.SEALED ∧ s.fuses.extractLsb' 0 256 = 0)
    then s.setErr fusePage 2
  else { s with blow := s.blow ++ [k] }.setFld Fd.FUSE_PROG_STAT_BUSY 1

/-- The bits under way are blown. -/
def State.fuseBlown (s : State) : State :=
  { s with fuses := s.blow.foldl (fun f k => f ||| (1#512 <<< k)) s.fuses, blow := [] }.setFld Fd.FUSE_PROG_STAT_BUSY 0

/-! ## PDM (03_serial_audio_ports.md R86, R87) -/

/-- A port enters PDM, at once (DEDUCED, notes/assumptions/71.md). -/
def State.enterPdm (s : State) (n : Fin 32) (test : Bool) : State :=
  let t := match s.sapState n with
    | .starting | .running | .stopping | .held => s.enterStopped n
    | .stopped | .pdm => s
  ((t.setSapState n .pdm).setFld (Fd.SAP_PDM_ACTIVE n) 1).setFld (Fd.SAP_PDM_MODE n) (bit test)

/-- A port leaves PDM: its counts clear, and a stored RUN = 1 starts it. -/
def State.leavePdm (s : State) (n : Fin 32) : State :=
  if s.sapState n == .pdm then
    ((((s.setSapState n .stopped).setFld (Fd.SAP_PDM_ACTIVE n) 0).setFld (Fd.SAP_PDM_MODE n) 0).sapCntClear n).enterStopped n
  else s

/-- The four ports that have PDM. -/
abbrev pdmPorts : List (Fin 32) := [28, 29, 30, 31]

/-- SAP28–SAP31 are in PDM while their domain is ON and the production test or the schuss path has them (03_serial_audio_ports.md R86,
Table 3.7). -/
def State.pdmFollow (s : State) : State :=
  if !s.domOn (Dm.PORTG 3) then s
  else if s.flag Fd.DBG_CTRL_PDM_TEST then pdmPorts.foldl (fun t n => t.enterPdm n true) s
  else if s.boot.path = .off then pdmPorts.foldl State.leavePdm s
  else pdmPorts.foldl (fun t n => t.enterPdm n false) s

/-- Whether nothing has SAP28–SAP31 in PDM. -/
def State.pdmAway (s : State) : Bool :=
  !s.flag Fd.DBG_CTRL_PDM_TEST && s.boot.path == .off && pdmPorts.all fun n => s.sapState n != .pdm

/-- DBG.CTRL.PDM_TEST is written (R398).  No command reaches the debug port itself (DESIGN CHOICE, notes/assumptions/90.md). -/
def State.pdmTest (s : State) (on : Bool) : State :=
  if on && (s.fuse Fuse.SEALED || s.fuse Fuse.DEBUG_KILL) then (s.setFld Fd.DBG_CTRL_PDM_TEST 0).setErr dbgPage 0
  else ((s.setFld Fd.DBG_CTRL_PDM_TEST (bit on)).setFld Fd.DBG_STATUS_PDM_ACTIVE (bit on)).pdmFollow

/-! ## The schuss path (R394, R395) -/

/-- The supervisor starts the schuss path: SAP28–SAP31 enter PDM and HP0–HP3 start. -/
def State.schussStart (s : State) : State :=
  let t := pdmPorts.foldl (fun u n => u.enterPdm n false) s
  let u := (List.finRange 4).foldl (fun (v : State) (h : Fin 4) => v.outEnWrite (.hp h) true) t
  { u with boot := { u.boot with path := .active, glide := Glide.at .mute } }

/-- The schuss path glides out over 32 ticks. -/
def State.schussFade (s : State) : State :=
  if s.boot.path = .active then { s with boot := { s.boot with path := .ending, glide := s.boot.glide.aim .mute 32 } } else s

/-- The boot phase ends (R383, R395). -/
def State.endBootPhase (s : State) : State :=
  if s.bootPhase then (s.setFld Fd.SYS_MODE_BOOT_PHASE 0).schussFade else s

/-- The glide-out has ended: the ports leave PDM. -/
def State.schussDone (s : State) : State :=
  let t := { s with boot := { s.boot with path := .off, glide := Glide.at .mute, mix := 0 } }
  (if t.flag Fd.DBG_CTRL_PDM_TEST then t else t.pdmFollow).raise bootPage BootEv.SCHUSS_END

/-- Whether a microphone is present: its density of ones lies between 10 % and 90 % over 1 ms (R394). -/
def pdmPresent (x : Sys2Proof.PdmIn) : Bool := decide (3072 ≤ 10 * x.ones.toNat) && decide (10 * x.ones.toNat ≤ 9 * 3072)

/-- The saturated sum of the microphones that are present, each raised by the gain of the fuse (R394); while the inputs of SAP28–SAP31
are ignored (13_power_domains.md R314; 19_electrical_and_package.md R414) none shows the ones of a microphone
(DESIGN CHOICE, notes/assumptions/41.md). -/
def State.schussSum (s : State) (pdm : Vector Sys2Proof.PdmIn 8) : Int × State :=
  let g : Gain := .db (768 * s.fuseBits 270 2 : Nat) 1
  let heard := if s.sapDeaf 28 then [] else pdm.toList.filter pdmPresent
  let (v, _, t) := s.toQ31 (heard.map fun (x : Sys2Proof.PdmIn) => mulGain g x.v.toInt).sum
  (v, t)

/-- Whether the path may be heard: a headphone output is READY, and in RECOVERY the fabric has stopped. -/
def State.schussOpen (s : State) : Bool :=
  ((List.finRange 4).any fun (h : Fin 4) => s.outState (.hp h) == .ready) && (s.mode != .recovery || s.fabState == .stopped)

/-- One tick of the schuss path (DEDUCED, notes/assumptions/71.md). -/
def State.schussTick (s : State) (pdm : Vector Sys2Proof.PdmIn 8) : State :=
  if s.boot.path = .off then s
  else
    let b := s.boot
    let g := if b.path = .active ∧ b.glide.target = .mute ∧ s.schussOpen then b.glide.aim (.db 0 1) 32 else b.glide
    let (v, t) := s.schussSum pdm
    { t with boot := { b with glide := g.step, mix := fadeCode g.step.now v } }

/-! ## The end of the service image and of a patch (R386, R388) -/

/-- The service image runs no more: what it holds is released (R299), and its versions read 0. -/
def State.svcGone (s : State) (st : Nat) : State :=
  let t := { s.crcDrop .service with boot := { s.boot with svc := none } }
  (((t.setFld Fd.BOOT_SVC_STAT_STATE st).setFld Fd.BOOT_SVC_VER_VERSION 0).setFld Fd.BOOT_EPOCHS_SVC 0).syncUntested

/-- Whether a service image starts or runs. -/
def State.svcLive (s : State) : Bool := s.fld Fd.BOOT_SVC_STAT_STATE == 1 || s.fld Fd.BOOT_SVC_STAT_STATE == 2

/-- CTRL.SVC_STOP (R386). -/
def State.svcStopped (s : State) : State :=
  if s.svcLive then
    let t := s.svcGone 0
    (if t.mode = .service then t.setMode .bare else t).raise bootPage BootEv.SVC_STOPPED
  else s

/-- The supervisor goes back to ROM. -/
def State.suppRevert (s : State) : State :=
  ({ s with boot := { s.boot with supp := none, suppDue := none } }.setFld Fd.BOOT_SUPP_VER_VERSION 0).syncUntested

/-- The device enters RECOVERY (R393), which ends the boot phase (R383, R395) (DEDUCED, notes/assumptions/71.md). -/
def State.enterRecovery (s : State) : State :=
  if s.mode = .recovery then s
  else
    let t := (s.svcStopped.suppRevert.fabCtrlWrite (16 * s.fld Fd.FAB_CTRL_START_PISTE)).endBootPhase
    (t.setMode .recovery).raise bootPage BootEv.RECOVERY

/-- BOOT.CTRL is written: its key, then its actions (Table 17.10).  `recover` is what RECOVER does
(DEDUCED, notes/assumptions/71.md). -/
def State.bootCtrlWrite (recover : State → State) (v : Nat) (s : State) : State :=
  if bitsAt v 24 8 ≠ 0xB7 then s.setErr bootPage BootErr.BAD_KEY
  else
    let t := if bitOf v 0 then s.svcStopped else s
    let u := if bitOf v 1 then t.endBootPhase else t
    if bitOf v 2 then recover u else u

/-! ## Loading (R387–R392) -/

/-- The region and the size in window pages of a kind of image: 1 SUPP, else SVC. -/
def imageRegion (kind : Nat) : Nat × Nat := if kind = 1 then (0x20070000, 12) else (0x20040000, 80)

/-- The state of a load (Table 17.10). -/
abbrev State.setLoad (s : State) (st : Nat) : State := s.setFld Fd.BOOT_LOAD_STAT_STATE st

/-- An open of a load by port `p` (R387)
(DEDUCED, notes/assumptions/68.md). -/
def State.loadOpen (s : State) (p : Fin 4) (kind : Nat) : State :=
  let st := s.fld Fd.BOOT_SVC_STAT_STATE
  if s.boot.owner.isSome || s.boot.check.isSome then s.setErr bootPage BootErr.LOAD_BUSY
  else if (kind = 2 ∧ (st = 1 ∨ st = 2)) ∨ (kind = 1 ∧ st = 2) then s.setErr bootPage BootErr.BAD_STATE
  else
    let t := if kind = 1 then s.suppRevert else s
    let u := { t with boot := { t.boot with owner := some p } }.setFld Fd.BOOT_LOAD_CTRL_KIND kind
    ((u.setLoad 1).setFld Fd.BOOT_LOAD_STAT_PORT p).setFld Fd.BOOT_LOAD_STAT_KIND kind

/-- A write to the load window (R387) (DEDUCED, notes/assumptions/68.md). -/
def State.windowWrite (s : State) (p : Fin 4) (w v : Nat) : State :=
  match s.boot.owner with
  | none => s.setErr bootPage BootErr.BAD_STATE
  | some q =>
    let (base, pages) := imageRegion (s.fld Fd.BOOT_LOAD_STAT_KIND)
    let k := s.fld Fd.BOOT_LOAD_PAGE_PAGE
    if q ≠ p then s.setErr bootPage BootErr.NOT_OWNER
    else if pages ≤ k ∨ s.boot.check.isSome then s.setErr bootPage BootErr.BAD_STATE
    else s.setMemWord (base + 2048 * k + 4 * w) (word v)

/-- The status codes of 18_register_pages.md Table 18.3 that a check answers with. -/
abbrev imageOk : Nat := 0x00
abbrev imageBad : Nat := 0x41

/-- An open load ends, with a check of it that runs (R388): the write that waits for the check is answered, and nothing starts
(DEDUCED, notes/assumptions/68.md). -/
def State.loadEnd (s : State) : State :=
  match s.boot.owner with
  | none => s
  | some p =>
    ({ s with boot := { s.boot with owner := none, check := none } }.setLoad 0).waitOver p fun w => match w with
      | .image data => some ⟨0, imageBad, data⟩
      | .outcome _ | .retry | .power _ | .wake | .ready _ | .behind => none

/-- CHECK or START by port `p` (R387, R388)
(DEDUCED, notes/assumptions/68.md). -/
def State.checkRequest (s : State) (p : Fin 4) (start : Bool) : State :=
  let kind := if s.boot.owner.isSome then s.fld Fd.BOOT_LOAD_STAT_KIND else s.fld Fd.BOOT_LOAD_CTRL_KIND
  if s.boot.check.isSome || (start && kind == 2 && s.svcLive) then s.setErr bootPage BootErr.BAD_STATE
  else if s.boot.owner.isSome && s.boot.owner != some p then s.setErr bootPage BootErr.NOT_OWNER
  else
    let t := { s with boot := { s.boot with check := some (p, start) } }
    ((t.setLoad 2).setFld Fd.BOOT_LOAD_STAT_PORT p).setFld Fd.BOOT_LOAD_STAT_KIND kind

/-- LOAD_CTRL is written by port `p`: KIND is stored, then its actions (DEDUCED, notes/assumptions/68.md). -/
def State.loadCtrlWrite (s : State) (p : Fin 4) (v : Nat) : State :=
  let kind := if bitsAt v 0 2 = 1 then 1 else 2
  let t := s.setFld Fd.BOOT_LOAD_CTRL_KIND kind
  if bitOf v 7 then
    (match t.boot.owner with
      | some q => if q = p then t.loadEnd else t.setErr bootPage BootErr.NOT_OWNER
      | none => t)
  else if bitOf v 4 then t.loadOpen p kind
  else if bitOf v 6 then t.checkRequest p true
  else if bitOf v 5 then t.checkRequest p false
  else t

/-- The header in the region of a kind of image (Table 17.2). -/
structure Header where
  magic : Nat
  kind : Nat
  format : Nat
  hdrLen : Nat
  version : Nat
  epoch : Nat
  peerMin : Nat
  peerMax : Nat
  tested : List Nat
  stepKnown : Nat
  stepTol : Nat
  stepTested : Nat
  length : Nat
  crc : Nat
  key : List Byte
  signature : List Byte

/-- Reads a header. -/
def State.header (s : State) (base : Nat) : Header :=
  let u8 (o : Nat) : Nat := (s.byte (base + o)).toNat
  let u16 (o : Nat) : Nat := ofBytesLE (s.bytesAt (base + o) 2)
  let u32 (o : Nat) : Nat := ofBytesLE (s.bytesAt (base + o) 4)
  ⟨u32 0, u8 4, u8 5, u16 6, u8 8 * 2 ^ 24 + u8 9 * 2 ^ 16 + u16 10, u16 12, u16 14, u16 16,
   ((List.range 8).map fun i => u16 (18 + 2 * i)).filter (· != 0), u8 34, u8 35, u8 36, u32 40, u32 48,
   s.bytesAt (base + 64) 64, s.bytesAt (base + 128) 64⟩

/-- The supervisor's epoch (R390): that of the applied SUPP, else of the ROM. -/
def State.supEpoch (s : State) : Nat :=
  match s.boot.supp with
  | some i => i.epoch
  | none => if Config.stepping = 0 then 1 else 2

/-- Whether STRICT is in force (R391) (DESIGN CHOICE, notes/assumptions/69.md). -/
def State.strict (s : State) : Bool := s.flag Fd.BOOT_CFG_STRICT || s.fuse Fuse.STRICT

/-- The checks of Table 17.3 on the image of a kind: the reason of the refusal, or whether it was accepted as untested
(DESIGN CHOICE, notes/assumptions/69.md). -/
def State.imageCheck (s : State) (kind : Nat) : Except Nat Bool :=
  let (base, pages) := imageRegion kind
  let h := s.header base
  let payload := s.bytesAt (base + 192) h.length
  let step := Config.stepping
  let sup := s.supEpoch
  let untested6 : Bool := decide (h.stepKnown < step) || !bitOf h.stepTested step
  let svc : Bool := kind != 1
  let untested7 : Bool := svc && !h.tested.contains sup
  let (range8, untested8) : Bool × Bool := match s.boot.supp with
    | some i => (svc && !(decide (i.peerMin ≤ h.epoch) && decide (h.epoch ≤ i.peerMax)), svc && !i.tested.contains h.epoch)
    | none => (false, false)
  let untested := untested6 || untested7 || untested8
  if h.magic ≠ 0x4D495744 ∨ h.format ≠ 1 ∨ h.hdrLen ≠ 192 ∨ h.epoch = 0 ∨ h.epoch = 0xFFFF
      ∨ h.kind ≠ s.fld Fd.BOOT_LOAD_CTRL_KIND then .error 1
  else if 2048 * pages < 192 + h.length then .error 2
  else if Crc.crc32.value payload ≠ h.crc then .error 3
  else if s.fuseBits 0 256 ≠ ofBytesLE (sha256 h.key) ∧ ¬ (s.fuseBits 0 256 = 0 ∧ !s.fuse Fuse.SEALED) then .error 4
  else if !ecdsaValid h.key h.signature (sha256 (s.bytesAt base 128 ++ payload)) then .error 5
  else if step ≤ h.stepKnown ∧ !bitOf h.stepTol step then .error 6
  else if svc ∧ ¬ (h.peerMin ≤ sup ∧ sup ≤ h.peerMax) then .error 7
  else if range8 then .error 8
  else if untested ∧ s.strict then .error 9
  else .ok untested

/-- A check ends (R387, R388, R390): the status of the WR that waits, and the state (DEDUCED, notes/assumptions/68.md). -/
def State.checkEnd (s : State) (start : Bool) : Nat × State :=
  let kind := s.fld Fd.BOOT_LOAD_STAT_KIND
  let base := (imageRegion kind).1
  let t := { s with boot := { s.boot with check := none, owner := none } }
  match s.imageCheck kind with
  | .error r => (imageBad, ((t.setLoad 4).setFld Fd.BOOT_LOAD_STAT_REASON r).raise bootPage BootEv.LOAD_DONE)
  | .ok untested =>
    let recovery : Bool := s.mode == .recovery
    let u := ((t.setLoad 3).setFld Fd.BOOT_LOAD_STAT_REASON (if recovery then 0xA else 0)).raise bootPage BootEv.LOAD_DONE
    let h := s.header base
    let i : Image := ⟨h.version, h.epoch, h.peerMin, h.peerMax, h.tested, untested⟩
    if recovery then (imageBad, u)
    else if !start then (imageOk, u)
    else if kind = 1 then (imageOk, { u with boot := { u.boot with suppDue := some i } })
    else (imageOk, { u with boot := { u.boot with svc := some i } }.setFld Fd.BOOT_SVC_STAT_STATE 1)

/-- The flags and the event of an image that was accepted as untested (R392). -/
def State.untestedStart (s : State) (i : Image) : State :=
  if i.untested then s.syncUntested.raise sysPage 2 else s.syncUntested

/-- The service image reaches RUNNING (R387). -/
def State.svcRun (s : State) (i : Image) : State :=
  let t := (((s.setFld Fd.BOOT_SVC_STAT_STATE 2).setFld Fd.BOOT_SVC_VER_VERSION i.version).setFld Fd.BOOT_EPOCHS_SVC i.epoch).setLoad 5
  (((t.untestedStart i).setMode .service).raise bootPage BootEv.SVC_STARTED).classifyAll

/-- A patch is applied (R387). -/
def State.suppRun (s : State) (i : Image) : State :=
  let t := { s with boot := { s.boot with supp := some i, suppDue := none } }
  ((t.setFld Fd.BOOT_SUPP_VER_VERSION i.version).setLoad 5).untestedStart i

/-! ## Requests to the service image (R403, Tables 17.7, 17.8) -/

/-- The oldest request of ring 24: REQ_ID, SERVICE, port and the first parameters. -/
def State.request (s : State) : Option (Nat × Nat × Nat × List Byte) :=
  if (s.ring 24).fill = 0 then none
  else
    let e := s.ringEntries 24 1
    some (ofBytesLE (e.take 2), ofBytesLE ((e.drop 2).take 2), (e.getD 6 0).toNat, e.drop 8)

/-- The oldest request is answered and leaves ring 24. -/
def State.reply (s : State) (id service port status : Nat) (data : List Byte) : State :=
  let body := bytesLE 2 id ++ bytesLE 2 service ++ [BitVec.ofNat 8 status, BitVec.ofNat 8 port] ++ bytesLE 2 data.length ++ data
  (s.ringTake 24 1).ringPut 25 fun _ => body ++ List.replicate (64 - body.length) 0

/-- The oldest request, where it is for a given service and the service image answers. -/
def State.serve (s : State) (service : Nat) (f : State → List Byte → State × List Byte) : State :=
  match s.request with
  | some (id, sv, port, ps) =>
    if sv = service ∧ s.mode = .service ∧ s.domOn Dm.CORE then
      let (t, data) := f s ps
      t.reply id sv port 0 data
    else s
  | none => s

/-- `n` free 16-bit values as bytes. -/
def State.freeWords16 (s : State) : Nat → List Byte × State
  | 0 => ([], s)
  | n + 1 =>
    let (v, t) := s.free 65536
    let (l, u) := t.freeWords16 n
    (bytesLE 2 v ++ l, u)

/-! ## Meanings -/

/-- `SVC_STARTED` (R387): an image that starts reaches RUNNING. -/
def execSvcStarted (s : State) : Result :=
  .next (match s.boot.svc with
    | some i => if s.fld Fd.BOOT_SVC_STAT_STATE = 1 ∧ s.domOn Dm.SUP ∧ s.domOn Dm.CORE then s.svcRun i else s
    | none => s)

/-- `SUPP_APPLIED` (R387). -/
def execSuppApplied (s : State) : Result :=
  .next (match s.boot.suppDue with
    | some i => if s.domOn Dm.SUP then s.suppRun i else s
    | none => s)

/-- `SVC_STOP` (R386): CTRL.SVC_STOP is written with its key. -/
def execSvcStop (s : State) : Result := .next (if s.domOn Dm.SUP then s.svcStopped else s)

/-- `SCHUSS_STOP` (R383): CTRL.SCHUSS_STOP is written with its key. -/
def execSchussStop (s : State) : Result := .next (if s.domOn Dm.SUP then s.endBootPhase else s)

/-- `FUSE_BLOW_DONE` (R397) (DESIGN CHOICE, notes/assumptions/69.md). -/
def execFuseBlowDone (s : State) : Result := .next (if s.blow.isEmpty || !s.pageOn fusePage then s else s.fuseBlown)

/-- `SERVICE_VERSION` (Table 17.8). -/
def execServiceVersion (s : State) : Result :=
  .next (s.serve 1 fun t _ => (t, bytesLE 4 (t.reg Adr.BOOT_SVC_VER).toNat ++ bytesLE 2 (t.fld Fd.BOOT_EPOCHS_SVC)
    ++ bytesLE 2 t.supEpoch))

/-- `SERVICE_RECLASSIFY` (Table 17.8): as on INSERT, so only for a jack that is INSERTED with CLS_EN = 1
(DEDUCED, notes/assumptions/72.md). -/
def execServiceReclassify (s : State) : Result :=
  .next (s.serve 2 fun t ps =>
    let j := (ps.getD 0 0).toNat
    if h : j < 20 then
      let k : Fin 20 := ⟨j, h⟩
      (if t.flag (Fd.JACK_JSTAT_INSERTED k) && t.flag (Fd.JACK_JCFG_CLS_EN k) then t.reclassify k else t, [])
    else (t, []))

/-- `SERVICE_THERMAL` (Table 17.8): five temperatures that the manual gives no rule for (notes/assumptions/26.md). -/
def execServiceThermal (s : State) : Result :=
  .next (s.serve 3 fun t _ => let (l, u) := t.freeWords16 5; (u, l))

/-- `SERVICE_CALIBRATE` (Table 17.8): as a write of `AINn.DIAG.CAL` = 1 does (DEDUCED, notes/assumptions/72.md). -/
def execServiceCalibrate (s : State) : Result :=
  .next (s.serve 4 fun t ps =>
    let m := ofBytesLE (ps.take 2)
    ((List.finRange 16).foldl (fun u (n : Fin 16) => if bitOf m n.val && u.domOn (Dm.AIN (n.val / 4)) then u.calRestart n else u) t,
     []))

/-- `SERVICE_REFUSED` (R403): the service image answers an unknown service BAD_OP, and outside SERVICE the supervisor any, once SUP is
ON. -/
def execServiceRefused (s : State) : Result :=
  .next (match s.request with
    | some (id, sv, port, _) =>
      if s.domOn Dm.CORE ∧ (if s.mode = .service then sv = 0 ∨ 4 < sv else s.domOn Dm.SUP) then s.reply id sv port 0x14 [] else s
    | none => s)

end Sys2Proof.Machine
end

