-- ==== Sys2Proof/Machine/Domains.lean ====
section
/-!
DEFINITION. What the loss and the return of a domain do to the state in it, the pads at the domain edges, and the resets of the
device (13_power_domains.md R301, R302, R314–R317, R320; 17_boot_images_recovery.md R385).
-/
namespace Sys2Proof.Machine

abbrev pwrPage : Nat := 0x002
abbrev aonPage : Nat := 0x001

/-! ## Domains -/

/-- `s` with domain `d` changed. -/
def State.updDom (s : State) (d : Nat) (f : Dom → Dom) : State := { s with doms := upd s.doms d f }

/-- `s` with domain `d` in a phase. -/
abbrev State.setDom (s : State) (d : Nat) (p : DomPhase) : State := s.updDom d fun q => { q with phase := p }

/-- The code of a phase (R311). -/
def DomPhase.code : DomPhase → Nat
  | .off => 0
  | .ret => 1
  | .on => 2
  | .waking _ => 3
  | .lowering _ => 4

/-- The pages that lie in domain `d`. -/
def domainPages (d : Nat) : List Nat := (List.range 108).filter fun p => pageDomain p == some d

/-- Whether a domain has a pad group that can be held (Table 13.1). -/
def hasPads (d : Nat) : Bool := d = 1 || d = 2 || (9 ≤ d && d ≤ 12) || (14 ≤ d && d ≤ 25) || d = 26

/-- The domains that domain `d` requires (Table 13.1). -/
def requires (d : Nat) : List Nat :=
  if d = Dm.CORE then [Dm.CMEM]
  else if d = Dm.FAB then [Dm.CMEM, Dm.PLL]
  else if d = Dm.ASRC then [Dm.FAB, Dm.PLL]
  else if (14 ≤ d ∧ d ≤ 17) ∨ d = Dm.HP ∨ (21 ≤ d ∧ d ≤ 24) then [Dm.HKA]
  else []

/-- `d` with every domain that it requires, directly or through another. -/
def requiresAll (d : Nat) : List Nat :=
  let a := requires d
  let b := a.flatMap requires
  (List.range 27).filter fun x => x == d || a.contains x || b.contains x

/-! ## Reset values (R302) -/

/-- Whatever is held by address in a range is at its reset value again. -/
def State.dropRange (s : State) (lo hi : Nat) : State :=
  let out {β : Type} (e : Nat × β) : Bool := !(lo ≤ e.1 && e.1 < hi)
  { s with regs := s.regs.filter out, mem := s.mem.filter out, cfgPend := s.cfgPend.filter out,
           tickWrites := s.tickWrites.filter out, gains := s.gains.filter out }

/-- The registers of a page. -/
abbrev State.dropPage (s : State) (p : Nat) : State := s.dropRange (pageAddr p 0) (pageAddr p 0x1000)

/-- A vector with the elements from `lo` on, `n` of them, set. -/
def setSpan {α : Type} {m : Nat} (v : Vector α m) (lo n : Nat) (f : Nat → α) : Vector α m :=
  (List.range n).foldl (fun w i => upd w (lo + i) fun _ => f (lo + i)) v

/-- The transaction state after its loss; the bib counter goes on (15_transactions_and_hosts.md R346, Table 15.4). -/
def Txn.lost (t : Txn) : Txn := ⟨t.counter, t.serial, t.order, Vector.replicate 64 Bib.none_, [], [], [], none, none⟩

/-- What a session held outside its port is released at its end (12_crc_engines.md R299, 11_housekeeping_converter.md R283,
17_boot_images_recovery.md R388). -/
def State.sessionDrop (s : State) (p : Fin 4) : State :=
  let t := (s.crcDrop (.host p)).tdacGiveUp p
  if t.boot.owner = some p then t.loadEnd else t

/-- All sessions, claims and transactions are lost (Tables 14.8, 15.4); a swap and granules that waited for their tick are let
go (DEDUCED, notes/assumptions/37.md). -/
def State.protocolLost (s : State) : State :=
  let t := (List.finRange 4).foldl State.sessionDrop s
  let u := if t.fab.pend.isSome then t.swapDrop else t
  { u with ports := Vector.ofFn fun (i : Fin 4) => { Port.atReset i with xport := u.ports[i].xport },
           claims := [], txn := u.txn.lost,
           mem := u.mem.filter fun e => !(0x20020000 ≤ e.1 && e.1 < 0x20030000) }

/-- Control memory is lost (R317) (DEDUCED, notes/assumptions/37.md). -/
def State.cmemLost (s : State) : State :=
  let t := s.protocolLost.clearMem 0x20000000 0x20080000
  let u := { t with evtLog := 0, boot := { t.boot with stream := none },
                    rings := t.rings.map fun (r : Ring) => { r with prod := 0, cons := 0, lostBefore := false },
                    injs := Vector.replicate 2 .fresh, caps := Vector.replicate 2 (false, false) }
  ((u.setFld Fd.DUMP_STATUS_STATE 0).setFld Fd.DUMP_LEN_BYTES 0)

/-- CORE starts from reset: IRQ_CFG and XPORT are loaded from the copies in AON (14_control_ports.md R324, R328). -/
def State.coreFresh (s : State) : State :=
  let t := s.protocolLost
  let u := { t with rings := Vector.ofFn fun (i : Fin 32) => Ring.atReset i,
                    injs := Vector.replicate 2 .fresh, caps := Vector.replicate 2 (false, false),
                    crcs := (setSpan (setSpan t.crcs 0 8 Crc.atReset) 24 2 Crc.atReset), crcOwner := none,
                    ports := Vector.ofFn fun (i : Fin 4) => { Port.atReset i with xport := if i.val = 2 then t.xportCopy else 0 } }
  (List.finRange 4).foldl (fun (v : State) (p : Fin 4) =>
    (v.setFld (Fd.CP_IRQ_CFG_POL p) (u.irqCopy[p] % 2)).setFld (Fd.CP_IRQ_CFG_OD p) (u.irqCopy[p] / 2)) u

/-- SUP starts from reset: the supervisor runs from ROM, and no service image runs; the boot phase is as it was (R383)
(DEDUCED, notes/assumptions/37.md). -/
def State.supFresh (s : State) (phase : Bool) : State := { s with boot := Boot.atReset }.setFld Fd.SYS_MODE_BOOT_PHASE (bit phase)

/-- Port group `k` starts from reset. -/
def State.portgFresh (s : State) (k : Nat) : State :=
  let t := { s with saps := setSpan s.saps (8 * k) 8 fun _ => Sap.atReset,
                    portSrc := setSpan s.portSrc (32 * k) 32 fun _ => Sample.rest,
                    portSink := setSpan s.portSink (32 * k) 32 fun _ => Sample.rest }
  (if k = 3 then { t with crcs := setSpan t.crcs 8 16 Crc.atReset } else t).clearMem (0x58000000 + 0x8000 * k)
    (0x58000000 + 0x8000 * (k + 1))

/-- The state in a domain takes its reset values, as on a return from OFF (R302). -/
def State.domFresh (s : State) (d : Nat) : State :=
  let phase := s.bootPhase
  let s := if d = Dm.SUP && s.mode == .service then s.classifyEnd else s
  let t := (domainPages d).foldl State.dropPage s
  if d = Dm.SUP then t.supFresh phase
  else if d = Dm.CORE then t.coreFresh
  else if d = Dm.FAB then { t.dropRange 0x50000000 0x50060000 with fab := Fab.atReset, dlines := [] }
  else if d = Dm.CMEM then t.cmemLost
  else if 5 ≤ d ∧ d ≤ 8 then t.clearMem (0x60000000 + 0x40000 * (d - 5)) (0x60000000 + 0x40000 * (d - 4))
  else if 9 ≤ d ∧ d ≤ 12 then t.portgFresh (d - 9)
  else if d = Dm.ASRC then { t with asrcs := Vector.replicate 64 Asrc.atReset }
  else if 14 ≤ d ∧ d ≤ 17 then
    { t with ains := setSpan t.ains (4 * (d - 14)) 4 fun _ => Ain.atReset,
             ainOut := setSpan t.ainOut (4 * (d - 14)) 4 fun _ => Sample.rest }
  else if d = 18 ∨ d = 19 then { t with outs := setSpan t.outs (8 * (d - 18)) 8 fun _ => Out.atReset }
  else if d = Dm.HP then { t with outs := setSpan t.outs 16 4 fun _ => Out.atReset, cpOn := false }
  else if 21 ≤ d ∧ d ≤ 24 then
    { t with amps := setSpan t.amps (d - 21) 1 fun _ => Amp.atReset, senseOut := setSpan t.senseOut (d - 21) 1 fun _ => Sample.rest }
  else if d = Dm.HKA then
    { t with hka := Hka.atReset, tdac := Tdac.atReset, tdacOwner := none, tdacQ := [], sag := ⟨false, 0, 0, 0⟩ }
  else if d = Dm.PLL then { t with mons := Vector.replicate 43 ⟨false, [], 0x1F⟩, pll := Pll.atReset }
  else t

/-! ## Going up and down (R302, R310, R314) -/

/-- Domain `d` starts to go down: its pads latch. -/
def State.startLower (s : State) (d : Nat) (off : Bool) : State :=
  (if d = Dm.HKA then s.tdacLeaves else s).updDom d fun q => { phase := .lowering off, padHeld := q.padHeld || hasPads d }

/-- Domain `d` has gone down; the settings held for the amplifiers apply when every channel is OFF (10_speaker_amplifier.md R244), in a
HKA that is ON. -/
def State.endLower (s : State) (d : Nat) (off : Bool) : State :=
  let t := s.setDom d (if off then .off else .ret)
  let u := if off ∧ 21 ≤ d ∧ d ≤ 24 then
    let v := t.domFresh d
    if v.domOn Dm.HKA then v.ampsysApply else v
  else t
  if u.timebase then u else u.enterCoarse

/-- Domain `d` reaches ON from RET or OFF: what starts with it. -/
def State.reachOn (s : State) (d : Nat) (fromOff : Bool) : State :=
  let a := if fromOff then (domainPages d).foldl State.bumpVer (s.domFresh d) else s
  let b := a.setDom d .on
  if d = Dm.HKA then b.hkaStart.ampsysApply
  else if d = Dm.CORE then
    { b.flushEvents with ports := b.flushEvents.ports.map fun (p : Port) => { p with leaseMark := b.syscnt } }.svcWake
  else if d = Dm.CMEM then b.svcWake
  else if d = Dm.SUP ∨ d = Dm.PORTG 3 then b.pdmFollow
  else if 14 ≤ d ∧ d ≤ 17 then { b with ains := (List.range 4).foldl (fun v i => upd v (4 * (d - 14) + i) fun x => { x with servo := false }) b.ains }
  else b

/-! ## The low-power regulator (R316, R317) -/

/-- Whether the regulator is in low-power mode (DEDUCED, notes/assumptions/77.md). -/
def State.lowPower (s : State) : Bool :=
  s.flag Fd.PWR_REG_LP_EN && (List.range 27).all fun d => d == 0 || s.dom d == .off || s.dom d == .ret

/-- A domain in RET has lost its contents. -/
def State.retLost (s : State) (d : Nat) : State :=
  let t := (domainPages d).foldl State.bumpVer ((s.setDom d .off).setFld (Fd.PWR_DOM_STAT_RET_LOST d) 1)
  if d = Dm.CORE then t.protocolLost
  else if d = Dm.CMEM then t.cmemLost
  else if 21 ≤ d ∧ d ≤ 24 then t.domFresh d
  else t

/-- The brown-out detector trips: the domains of `lost` that are in RET lose their contents. -/
def State.brownout (s : State) (lost : List (Fin 27)) : State :=
  let t := ((s.setFld Fd.PWR_REG_LP_EN 0).countSat Fd.PWR_REG_STAT_BROWNOUT_CNT 1).raise pwrPage 3
  let gone := (List.range 27).filter fun d => d != 0 && s.dom d == .ret && lost.any fun (x : Fin 27) => x.val == d
  let u := gone.foldl State.retLost t
  if gone.isEmpty then u else u.raise pwrPage 4

/-! ## Device resets (R320, R385) -/

/-- The bit of RESET_CAUSE of a reset (DEDUCED, notes/assumptions/36.md). -/
def ResetSource.bit : ResetSource → Nat
  | .powerOn => 0
  | .supply => 1
  | .pin => 2
  | .host => 3
  | .watchdog => 4

/-- The ensemble index that the pins and the fuses give, and whether the pins' code is invalid (02_clocks_and_time.md R50). -/
def State.indexNow (s : State) : Nat × Bool :=
  if s.fuse Fuse.ENS_OVR then (s.fuseBits 260 9, false)
  else
    let c := ((List.finRange 6).map fun (i : Fin 6) => s.addrPins[i].val * 3 ^ i.val).sum
    if 511 < c then (0, true) else (c, false)

/-- The fuses, and the ensemble index that they and the pins give, as they are taken after a release (Table 17.1). -/
def State.takeFuses (s : State) : State :=
  let t := { s with fusesRead := s.fuses }
  let (i, bad) := t.indexNow
  let x := if i = 0 then 0x4CC else 0x44C
  let u := { t with index := i, xportCopy := x, ports := t.ports.mapIdx fun n (p : Port) => if n = 2 then { p with xport := x } else p }
  if bad then u.setErr 0x004 0 else u

/-- A reset of every domain, AON included: what lies outside the device stays.  Every domain but
AON is down, and SYSCNT 0, until the release (DESIGN CHOICE, notes/assumptions/34.md) (DEDUCED, notes/assumptions/36.md). -/
def State.fullReset (s : State) (src : ResetSource) : State :=
  let t := { State.reset with
    pending := s.pending, fresh := s.fresh, bus := s.bus, addrPins := s.addrPins, pvdd := s.pvdd, fuses := s.fuses,
    jacks := State.reset.jacks.mapIdx fun i (x : Jack) => { x with high := (at_ s.jacks i x).high },
    doms := Vector.ofFn fun (d : Fin 27) => ⟨if d.val = 0 then .on else .off, false⟩,
    vio := .unselected, resetHold := some src }
  t.setFld Fd.AON_RESET_CAUSE_CAUSE (2 ^ src.bit)

/-- Whether an address is a register of domain AON that a host or watchdog reset keeps: TARGET takes its reset value
(DEDUCED, notes/assumptions/35.md). -/
def keptByHostReset (a : Nat) : Bool := inPages a && pageDomain (pageOf a) == some Dm.AON

/-- TARGET of every domain at its reset value. -/
def State.resetTargets (s : State) : State :=
  (List.range 27).foldl (fun t d => t.setFld (Fd.PWR_DOM_CTRL_TARGET d) (if Dom.onAtReset d then 2 else 0)) s

/-- A reset of every domain except AON (R320): SYSCNT, the ensemble, the pins, the fuses and the pages of AON stay
(DEDUCED, notes/assumptions/33.md) (DEDUCED, notes/assumptions/35.md) (DEDUCED, notes/assumptions/36.md). -/
def State.hostReset (s : State) (src : ResetSource) : State :=
  let left := if s.mode = .service then s.setMode .bare else s
  let x := if s.index = 0 then 0x4CC else 0x44C
  let t := { State.reset with
    pending := s.pending, fresh := s.fresh, bus := s.bus, regs := left.regs.filter fun e => keptByHostReset e.1,
    syscnt := s.syscnt, coarse := s.coarse, sysHold := s.sysHold, tickcnt := s.tickcnt, tickSys := s.tickSys, ticks := s.ticks, boundary := s.boundary,
    ens := s.ens, addrPins := s.addrPins, index := s.index, evtHeld := s.evtHeld, irqHeld := s.irqHeld, pvdd := s.pvdd,
    grps := s.grps, jacks := left.jacks, fuses := s.fuses, fusesRead := s.fusesRead, blow := s.blow, vio := s.vio,
    xportCopy := x, ports := State.reset.ports.mapIdx fun n (p : Port) => if n = 2 then { p with xport := x } else p,
    doms := Vector.ofFn fun (d : Fin 27) => ⟨if d.val = 0 then .on else .off, false⟩, resetHold := some src }
  let u := t.resetTargets
  u.setBit Fd.AON_RESET_CAUSE_CAUSE src.bit true

/-- The device resets (DEDUCED, notes/assumptions/37.md). -/
def State.deviceReset (s : State) (src : ResetSource) : State :=
  match src with
  | .powerOn | .supply | .pin => s.fullReset src
  | .host | .watchdog => s.hostReset src

/-- The supervisor puts the domains of the schuss path ON and starts it (Table 17.1, R394). -/
def State.schussBoot (s : State) : State :=
  if s.fuse Fuse.SCHUSS_EN then
    let on (t : State) (d : Nat) : State :=
      let u := t.setFld (Fd.PWR_DOM_CTRL_TARGET d) 2
      if u.domOn d then u else u.reachOn d (u.dom d == .off)
    (on (on s (Dm.PORTG 3)) Dm.HP).schussStart
  else s

/-- The reset ends: the device starts and boots as in Table 17.1, after a full reset from SYSCNT 0 with the fuses read
(DESIGN CHOICE, notes/assumptions/11.md). -/
def State.bootUp (s0 : State) : State :=
  let s := if s0.countHeld then { s0 with syscnt := 0 }.takeFuses else s0
  let t := { s with resetHold := none, doms := s.doms.mapIdx fun d (q : Dom) => { q with phase := if Dom.onAtReset d then .on else .off } }
  let u := (if t.coarse then t.leaveCoarse else t).hkaStart.flushEvents
  if bitOf (u.fld Fd.AON_RESET_CAUSE_CAUSE) 4 then ((u.setFld Fd.SYS_MODE_BOOT_PHASE 0).setFld Fd.SYS_MODE_MODE Mode.recovery.code).schussBoot
  else u.schussBoot

/-- RECOVER: the entry to RECOVERY, and the schuss path with it (R393, R394), once a glide-out at the end of the boot phase has run
(R395) (DEDUCED, notes/assumptions/71.md). -/
def State.recover (s : State) : State :=
  if s.mode = .recovery then s
  else
    let t := s.enterRecovery
    match t.boot.path with
    | .off => t.schussBoot
    | .active | .ending => t

/-! ## Meanings -/

/-- `SCHUSS_END` (R395): the glide-out has run its ticks; in RECOVERY the path then starts anew (R394)
(DESIGN CHOICE, notes/assumptions/4.md). -/
def execSchussEnd (s : State) : Result :=
  .next (if s.boot.path = .ending ∧ s.boot.glide.left = 0 then
      let t := s.schussDone
      if t.mode = .recovery then t.schussBoot else t
    else s)

/-- `RECOVER` (R393): CTRL.RECOVER is written with its key. -/
def execRecover (s : State) : Result := .next (if s.domOn Dm.SUP then s.recover else s)

/-- `POWER_ON_RESET` (R320): PVDD rises through 7.5 V. -/
def execPowerOnReset (s : State) : Result := .next ({ s with pvdd := 2400 }.deviceReset .powerOn)

/-- `SUPPLY_LOSS` (R320): PVDD has been below 7.0 V for 10 µs (DESIGN CHOICE, notes/assumptions/34.md). -/
def execSupplyLoss (s : State) : Result := .next ({ s with pvdd := 699 }.deviceReset .supply)

/-- `RST_N_ASSERT` (R320, R425): the pin is ignored while VIO is not there (19_electrical_and_package.md R414)
(DESIGN CHOICE, notes/assumptions/34.md). -/
def execRstNAssert (s : State) : Result :=
  .next (if s.vioUp then s.deviceReset .pin else s)

/-- AON.RESET is written (R320, R322) (DEDUCED, notes/assumptions/33.md). -/
def State.resetKey (s : State) (key : Nat) : State := if key = 0xA5 then s.deviceReset .host else s.setErr aonPage 0

/-- `HOST_RESET` (R320, R322). -/
def execHostReset (key : Byte) (s : State) : Result := .next (if s.resetHold.isSome then s else s.resetKey key.toNat)

/-- `WATCHDOG_RESET` (R320): the supervisor core has not responded for 100 ms. -/
def execWatchdogReset (s : State) : Result :=
  .next (if s.domOn Dm.SUP && s.resetHold.isNone then s.deviceReset .watchdog else s)

/-- `RESET_RELEASE` (R385, Table 17.1) (DESIGN CHOICE, notes/assumptions/34.md). -/
def execResetRelease (s : State) : Result :=
  .next (match s.resetHold with
    | some .supply => { s with pvdd := 2400 }.bootUp
    | some _ => s.bootUp
    | none => s)

/-- `LP_BROWNOUT` (R317): the detector acts only in low-power mode. -/
def execLpBrownout (lost : List (Fin 27)) (s : State) : Result := .next (if s.lowPower then s.brownout lost else s)

/-- `PAD_RELEASE` (R314): the groups of ON domains are let go; one of a domain that is not ON sets PAD_NOT_ON. -/
def State.padRelease (s : State) (v : Nat) : State :=
  ((bitsOf v).filter (· < 27)).foldl (fun t d =>
    if t.domOn d then t.updDom d fun q => { q with padHeld := false } else t.setErr pwrPage 0) s

end Sys2Proof.Machine
end

