-- ==== Sys2Proof/Machine/RegWrite.lean ====
section
/-!
DEFINITION. What an applied word does: the one map from a register to the effect of a write on it (18_register_pages.md Table
18.1 and the chapters it names).
-/
namespace Sys2Proof.Machine

/-! ## The header (18_register_pages.md R405, R406) -/

/-- A word of the header of page `g` is written. -/
def State.headerWrite (s : State) (g o v : Nat) : State :=
  if o = 0x010 then s.evtClear g .page v
  else if o = 0x014 then s.evtEnable g .page (evtMask g) v
  else if o = 0x018 then s.evtForce g v
  else if o = 0x01C then s.errClear g v
  else s

/-! ## Pages of AON, SUP, CORE and PLL -/

/-- DOMd_CTRL is written: a TARGET of RET is stored as OFF under an applied TARGET of OFF (13_power_domains.md R305). -/
def State.domCtrlWrite (s : State) (d v : Nat) : State :=
  if d = 0 then s
  else
    let t := s.store (Adr.PWR_DOM_CTRL d) v
    if bitsAt v 0 2 = 1 ∧ s.fld (Fd.PWR_DOM_CTRL_TARGET d) = 0 then t.setFld (Fd.PWR_DOM_CTRL_TARGET d) 0 else t

/-- A register of page PWR. -/
def State.pwrWrite (s : State) (o v : Nat) : State :=
  if o < 0x040 + 4 * 27 then s.domCtrlWrite ((o - 0x040) / 4) v
  else if o = 0x204 then s.padRelease v
  else s.store (pageAddr pwrPage o) v

/-- A register of page CLK. -/
def State.clkWrite (s : State) (o v : Nat) : State :=
  if o = 0x040 then s.coreWrite v
  else if o = 0x044 then s.refSelWrite v
  else if 0x100 ≤ o ∧ o < 0x258 ∧ o % 8 = 0 then s.monCfgWrite (Fin.ofNat 43 ((o - 0x100) / 8)) v
  else s.store (pageAddr clkPage o) v

/-- A register of an alignment group. -/
def State.grpRegWrite (s : State) (g : Fin 8) (o v : Nat) : State :=
  if o = 0x00 then s.grpWrite g .ctrl v
  else if o = 0x04 then s.grpWrite g .membersLo v
  else if o = 0x08 then s.grpWrite g .membersHi v
  else if o = 0x0C then s.grpWrite g .delay v
  else if o = 0x10 then s.grpWrite g .snow v
  else if o = 0x24 then s.evtClear timePage (.grp g) v
  else if o = 0x28 then s.evtEnable timePage (.grp g) 0x7F v
  else s.store (pageAddr timePage (0x100 + 0x40 * g + o)) v

/-- A register of page TIME. -/
def State.timeWrite (s : State) (o v : Nat) : State :=
  if o = 0x05C then s.ensCtrlWrite v
  else if 0x100 ≤ o then s.grpRegWrite (Fin.ofNat 8 ((o - 0x100) / 0x40)) ((o - 0x100) % 0x40) v
  else s.store (pageAddr timePage o) v

/-- A register of page BOOT; under a blown STRICT fuse a write of CFG.STRICT is discarded (17_boot_images_recovery.md R391). -/
def State.bootWrite (s : State) (p : Fin 4) (o v : Nat) : State :=
  if o = 0x040 then (if s.fuse Fuse.STRICT then s else s.store (pageAddr bootPage o) v)
  else if o = 0x044 then s.loadCtrlWrite p v
  else if o = 0x048 then s.bootCtrlWrite State.recover v
  else if 0x800 ≤ o then s.windowWrite p ((o - 0x800) / 4) v
  else s.store (pageAddr bootPage o) v

/-- The stored form of XPORT of port `k` (14_control_ports.md Table 14.12). -/
def xportStore (k v : Nat) : Nat := if k = 2 then v &&& 0x4FF else if k = 3 then min (bitsAt v 0 4) 10 else 0

/-- XPORT of port `k` takes a value; AON keeps a copy of the addresses of CP2 (14_control_ports.md R328). -/
def State.setXport (s : State) (k : Fin 4) (x : Nat) : State :=
  { s with ports := s.ports.set k { s.ports[k] with xport := x, xportPend := none },
           xportCopy := if k = 2 then x else s.xportCopy }

/-- A register of page CPk is written by port `p`; XPORT of the own port waits for the response to its frame (Table 14.12). -/
def State.cpWrite (s : State) (p k : Fin 4) (o v : Nat) : State :=
  if o = 0x040 then
    let t := s.store (Adr.CP_IRQ_CFG k) v
    { t with irqCopy := t.irqCopy.set k (bitsAt v 0 2) }
  else if o = 0x070 then
    let x := xportStore k v
    if p = k then
      { s with ports := s.ports.set k { s.ports[k] with xportPend := some (x, (s.ports[k].frames.head?).map fun (f : CmdFrame) => f.seq) } }
    else s.setXport k x
  else s.store (pageAddr (0x008 + k) o) v

/-- A register of page RING
(DEDUCED, notes/assumptions/62.md). -/
def State.ringWrite (s : State) (p : Fin 4) (o v : Nat) : State :=
  if 0x100 ≤ o then
    let i := (o - 0x100) / 16
    if o % 16 = 0 then s.ringCfgWrite i v
    else if o % 16 = 4 then s.ringIndexWrite p i true (word v)
    else if o % 16 = 8 then s.ringIndexWrite p i false (word v)
    else s.ringWmWrite i v
  else s.store (pageAddr ringPage o) v

/-- A register of an engine of page CRC (12_crc_engines.md Table 12.4). -/
def State.crcRegWrite (s : State) (p : Fin 4) (o v : Nat) : State :=
  let i : Fin 26 := Fin.ofNat 26 ((o - 0x040) / 0x80)
  let r := (o - 0x040) % 0x80
  let a : CrcParty := .host p
  if r = 0x00 then s.crcSet a i .cfg v
  else if r = 0x04 then s.crcSet a i .poly v
  else if r = 0x08 then s.crcSet a i .init v
  else if r = 0x0C then s.crcSet a i .xorout v
  else if r = 0x10 then s.crcWrite a i (if bitOf v 0 then Crc.reset else id)
  else if r = 0x24 then s.crcFeed a i (bytesLE 1 v)
  else if r = 0x28 then s.crcFeed a i (bytesLE 2 v)
  else if r = 0x2C then s.crcFeed a i (bytesLE 4 v)
  else if r = 0x30 ∧ i.val = 25 then (if bitOf v 31 then s.crcOwnRequest a else s.crcOwnRelease a)
  else s

/-- DUMP.CTRL.RELEASE (17_boot_images_recovery.md R400): a dump that is READY is given up. -/
def State.dumpRelease (s : State) : State :=
  if s.fld Fd.DUMP_STATUS_STATE = 2 then
    { (s.setFld Fd.DUMP_STATUS_STATE 0).setFld Fd.DUMP_LEN_BYTES 0 with boot := { s.boot with stream := none } }
  else s

/-- DUMP.CTRL.STREAM (R402): a dump that is READY goes to ring 27 from offset 0. -/
def State.dumpStream (s : State) : State :=
  if s.fld Fd.DUMP_STATUS_STATE = 2 then { s with boot := { s.boot with stream := some 0 } } else s

/-- DUMP.CTRL is written
(DESIGN CHOICE, notes/assumptions/70.md). -/
def State.dumpCtrlWrite (s : State) (v : Nat) : State :=
  let t := if bitOf v 1 then s.dumpRelease else s
  if bitOf v 0 then t.dumpStream else t

/-! ## Pages of the fabric, the ports and the analogue blocks -/

/-- A register of page FAB. -/
def State.fabWrite (s : State) (o v : Nat) : State :=
  if o = 0x040 then s.fabCtrlWrite v
  else if o = 0x044 then (if bitOf v 0 then s.swapApply else s)
  else if o = 0x054 then (if bitOf v 0 then s.copyStart else s)
  else if o = 0x058 then (if bitOf v 0 then s.checkStart else s)
  else s.store (pageAddr fabPage o) v

/-- A register of page ASRC. -/
def State.asrcRegWrite (s : State) (o v : Nat) : State :=
  if 0x100 ≤ o ∧ o % 16 = 0 then s.asrcWrite ((o - 0x100) / 16) v else s.store (pageAddr asrcPage o) v

/-- An AES3 register of a port that has AES3 (04_aes3_ports.md Tables 4.6 to 4.9).  SWAP = 0 leaves a request that waits as it is
(R99) (DESIGN CHOICE, notes/assumptions/83.md). -/
def State.aesRegWrite (s : State) (n : Fin 32) (o v : Nat) : State :=
  if o = 0x100 then s.sapCfgWrite n .aesCfg v
  else if o = 0x108 then
    let t := s.setFld (Fd.SAP_AES_TX_CTRL_V_FORCE n) (bitsAt v 1 1)
    if bitOf v 0 then t.swapRequest n else t
  else if o = 0x114 then s.evtClear (sapPage n) .aes v
  else if o = 0x118 then s.evtEnable (sapPage n) .aes 0xFF v
  else s.store (pageAddr (sapPage n) o) v

/-- A register of a serial audio port; SAP0–SAP23 have no AES3 registers (18_register_pages.md R408). -/
def State.sapRegWrite (s : State) (n : Fin 32) (o v : Nat) : State :=
  if o = 0x040 then s.sapCtrlWrite n v
  else if o = 0x044 then s.sapCfgWrite n .fmt v
  else if o = 0x048 then s.sapCfgWrite n .clkcfg v
  else if o = 0x04C then s.sapCfgWrite n .line v
  else if o = 0x050 then s.sapCfgWrite n .zc v
  else if o = 0x06C then (if bitOf v 0 then s.sapCntClear n else s)
  else if 0x100 ≤ o then (if n.val < 24 then s else s.aesRegWrite n o v)
  else s

/-! ## The map -/

/-- A word applies to the register at offset `o` of page `g`, for port `p`. -/
def State.pageWrite (s : State) (p : Fin 4) (g o v : Nat) : State :=
  if o < 0x040 then s.headerWrite g o v
  else if g = aonPage then (if o = 0x044 then s.resetKey (bitsAt v 0 8) else s.store (pageAddr g o) v)
  else if g = pwrPage then s.pwrWrite o v
  else if g = clkPage then s.clkWrite o v
  else if g = timePage then s.timeWrite o v
  else if g = fusePage then (if o = 0x068 then s.fuseProg v else s)
  else if g = bootPage then s.bootWrite p o v
  else if g = dbgPage then (if o = 0x040 then s.pdmTest (bitOf v 0) else s)
  else if 0x008 ≤ g ∧ g < 0x00C then s.cpWrite p (Fin.ofNat 4 (g - 0x008)) o v
  else if g = ringPage then s.ringWrite p o v
  else if g = crcPage then s.crcRegWrite p o v
  else if g = dumpPage then (if o = 0x040 then s.dumpCtrlWrite v else s)
  else if g = fabPage then s.fabWrite o v
  else if g = asrcPage then s.asrcRegWrite o v
  else if g = ampsysPage then s.ampsysWrite o v
  else if g = hkaPage then s.hkaWrite p o v
  else if g = hkseqPage then s.hkseqWrite o v
  else if g = tdacPage then s.tdacWrite p o v
  else if 0x020 ≤ g ∧ g < 0x040 then s.sapRegWrite (Fin.ofNat 32 (g - 0x020)) o v
  else if 0x040 ≤ g ∧ g < 0x050 then (if 0x100 ≤ o ∧ g ≠ 0x040 then s else s.ainWrite (Fin.ofNat 16 (g - 0x040)) o v)
  else if 0x050 ≤ g ∧ g < 0x060 then s.lineWrite (Fin.ofNat 16 (g - 0x050)) o v
  else if 0x060 ≤ g ∧ g < 0x064 then s.hpWrite (Fin.ofNat 4 (g - 0x060)) o v
  else if 0x068 ≤ g ∧ g < 0x06C then s.ampWrite (Fin.ofNat 4 (g - 0x068)) o v
  else s.store (pageAddr g o) v

/-- A word applies at address `a`, a multiple of 4, for port `p`. -/
def State.applyWrite (s : State) (p : Fin 4) (a v : Nat) : State :=
  if inPages a then s.pageWrite p (pageOf a) (pageOff a) v
  else if inParams a then s.paramApply a v
  else s.setMemWord a (word v)

end Sys2Proof.Machine
end

