-- ==== Sys2Proof/Machine/RegRead.lean ====
section
/-!
DEFINITION. What a word reads as, and what its read does (00_scope.md R4; 13_power_domains.md R312; 18_register_pages.md
R405–R409).
-/
namespace Sys2Proof.Machine

/-! ## Entries and bibs as pages show them -/

/-- The page that governs an address of a register or of a parameter (15_transactions_and_hosts.md R356). -/
def governs (a : Nat) : Nat := if inPages a then pageOf a else paramPage a

/-- The code of a bib state (Table 15.1). -/
def BibState.code : BibState → Nat
  | .free => 0
  | .opened => 1
  | .scheduled => 2
  | .inFlight => 3
  | .committed => 4
  | .aborted => 5
  | .implicit | .ending => 6

/-- The status that a bib reports (Table 15.1; R350). -/
def Bib.report (b : Bib) : Nat :=
  match b.state with
  | .free => 0x37
  | .opened | .scheduled => 0x01
  | .inFlight => 0x02
  | .committed => 0x00
  | .aborted | .implicit | .ending => b.status

/-- Whether a bib is OPEN, SCHEDULED or IN_FLIGHT. -/
def Bib.live (b : Bib) : Bool :=
  match b.state with
  | .opened | .scheduled | .inFlight => true
  | .free | .committed | .aborted | .implicit | .ending => false

/-- Whether a bib is retained (R348). -/
def Bib.retained (b : Bib) : Bool :=
  match b.state with
  | .committed | .aborted => true
  | .free | .opened | .scheduled | .inFlight | .implicit | .ending => false

/-- Bib slot `k`. -/
abbrev State.bibAt (s : State) (k : Nat) : Bib := at_ s.txn.bibs k Bib.none_

/-- The entries of a bib that are held. -/
def Txn.entriesOf (t : Txn) (b : Nat) : List Entry := t.staging.filter fun e => e.bib == b

/-- The entries that count as used: staged, and applied in the present tick (R352). -/
abbrev Txn.used (t : Txn) : List Entry := t.staging ++ t.applied

/-- TXN_PENDING of page `g` (R356): the newest live bib with an entry on it. -/
def State.txnPending (s : State) (g : Nat) : Nat :=
  let on : List Bib := s.txn.bibs.toList.filter fun (b : Bib) => b.live && (s.txn.entriesOf b.value).any fun e => governs e.addr == g
  (on.foldl (fun (m : Bib) b => if m.serial ≤ b.serial then b else m) Bib.none_).value

/-- The word of CLAIM of page `g` (R367). -/
def State.claimWord (s : State) (g : Nat) : Nat :=
  match s.claimOf g with
  | some q => 2 ^ 31 + (if (at_ s.ports q (Port.atReset 0)).session = .grace then 2 ^ 30 else 0) + q
  | none => 0

/-- A word of the header of page `g` (Table 18.2). -/
def State.headerWord (s : State) (g o : Nat) : Nat :=
  if o = 0x000 then
    (match blockOf g with
      | some b => b.first * 2 ^ 16 + (g - b.first) * 2 ^ 8 + 1
      | none => 0)
  else if o = 0x004 then s.pageVer g
  else if o = 0x008 then
    (match pageDomain g with
      | some d => d * 2 ^ 16 + (s.dom d).code
      | none => 0)
  else if o = 0x00C then s.claimWord g
  else if o = 0x010 then (s.reg (pageAddr g 0x010)).toNat
  else if o = 0x014 then (s.reg (pageAddr g 0x014)).toNat
  else if o = 0x01C then (s.reg (pageAddr g 0x01C)).toNat
  else if o = 0x020 then s.txnPending g
  else 0

/-! ## Composed words -/

/-- `w` with field `f` reading `v`. -/
def Fld.put (f : Fld) (v w : Nat) : Nat := putBits w f.lo f.width v

/-- Whether a held configuration write lies on page `g`. -/
def State.pagePend (s : State) (g : Nat) : Nat := bit (s.cfgPend.any fun e => pageOf e.1 == g)

/-- PWR.CHANGE: the phase, the domain that it is at, and the bib (Table 13.10) (DESIGN CHOICE, notes/assumptions/73.md)
(DEDUCED, notes/assumptions/78.md). -/
def State.changeWord (s : State) : Nat :=
  match s.change with
  | none => 0
  | some c =>
    let bib := match c.cause with
      | .txn b => b
      | .direct _ b => b
      | .access _ b => b
      | .lift => 0
    let first (l : List (Nat × Bool)) : Nat := (l.head?.map (·.1)).getD 0
    let (phase, d) : Nat × Nat := match c.phase with
      | .vote => (1, (c.voters.head?.map (·.1)).getD 0)
      | .wake => (2, (((List.range 27).find? fun d => (match s.dom d with | .waking _ => true | .off | .ret | .on | .lowering _ => false))).getD
          (c.wakes.headD 0))
      | .wait => (2, if c.woken.isEmpty then first c.lowers else first c.woken)
      | .lower => (3, (((List.range 27).find? fun d => (match s.dom d with | .lowering _ => true | .off | .ret | .on | .waking _ => false))).getD
          (first (c.lowers.filter fun e => c.lowers.all fun x => !(requires x.1).contains e.1)))
    phase * 2 ^ 30 + d * 2 ^ 16 + bib

/-- A register of page PWR (DESIGN CHOICE, notes/assumptions/73.md). -/
def State.pwrWord (s : State) (o : Nat) (w : Nat) : Nat :=
  if 0x100 ≤ o ∧ o < 0x100 + 8 * 27 ∧ o % 8 = 0 then
    let d := (o - 0x100) / 8
    (Fd.PWR_DOM_STAT_STATE d).put (s.dom d).code ((Fd.PWR_DOM_STAT_PAD_HELD d).put (bit (s.padHeld d)) w)
  else if o = 0x200 then ((List.range 27).map fun d => bit (s.padHeld d) * 2 ^ d).sum
  else if o = 0x208 then s.changeWord
  else if o = 0x210 then Fd.PWR_REG_LP_ACTIVE.put (bit s.lowPower) w
  else if o = 0x214 then Fd.PWR_REG_STAT_RAIL.put (Config.free s.fresh) w
  else w

/-- GRPg_STAT (05_alignment_and_rate_conversion.md Table 5.7). -/
def State.grpStat (s : State) (g : Fin 8) : Nat :=
  let q : Grp := s.grps[g]
  let down (x : Snow) : Bool := match x with
    | .fade _ | .silent | .waitPos => true
    | .none | .glide _ => false
  let snow := ((s.grpLines g).mapIdx fun j i => if down (s.line (lineOf i).1 (lineOf i).2).snow then 2 ^ j else 0).sum
  bit (s.holds (isGrpCfg g)) * 2 ^ 31 + (if q.on then (if q.silent then 2 else 1) else 0) * 2 ^ 28
    + q.granules.length % 2 ^ 12 * 2 ^ 16 + snow % 2 ^ 16

/-- A register of page TIME. -/
def State.timeWord (s : State) (o : Nat) (w : Nat) : Nat :=
  if o = 0x040 then s.syscnt % 2 ^ 32
  else if o = 0x048 then s.tickcnt % 2 ^ 32
  else if o = 0x058 then Fd.TIME_STATUS_COARSE.put (bit s.coarse) w
  else if o = 0x068 then bit (s.fuse Fuse.ENS_OVR) * 2 ^ 9 + s.index % 2 ^ 9
  else if 0x100 ≤ o ∧ o < 0x300 ∧ o % 0x40 = 0x14 then s.grpStat (Fin.ofNat 8 ((o - 0x100) / 0x40))
  else w

/-- A register of page FUSE (17_boot_images_recovery.md Table 17.11). -/
def State.fuseWord (s : State) (o : Nat) (w : Nat) : Nat :=
  if o = 0x040 then bit (s.fuse Fuse.DEBUG_KILL) * 2 + bit (s.fuse Fuse.SEALED)
  else if o = 0x044 then
    bit (s.fuse Fuse.ENS_OVR) * 2 ^ 31 + s.fuseBits 260 9 * 2 ^ 16 + bit (s.fuse Fuse.STRICT) * 2 ^ 8 + s.fuseBits 270 2 * 2 ^ 4
      + bit (s.fuse Fuse.SCHUSS_EN) * 2 ^ 3
  else if 0x048 ≤ o ∧ o < 0x068 then s.fuseBits (8 * (o - 0x048)) 32
  else if 0x080 ≤ o ∧ o < 0x0C0 then (s.fuses.extractLsb' (8 * (o - 0x080)) 32).toNat
  else w

/-- What is left of the lease or grace of port `k` in SYSCNT counts: the timer stands still while a frame of an OPEN session is
queued (14_control_ports.md R344). -/
def State.leaseNow (s : State) (k : Fin 4) : Nat :=
  let p := s.ports[k]
  if p.session = .opened ∧ p.queued ≠ 0 then p.leaseLeft else p.leaseLeft - (s.syscnt - p.leaseMark)

/-- LEASE.REMAIN in ms; the manual does not say how a part of a millisecond is rounded
(DESIGN CHOICE, notes/assumptions/64.md). -/
def State.leaseMs (s : State) (k : Fin 4) : Nat :=
  let l := s.leaseNow k
  match s.ports[k].session with
  | .none => 0
  | .opened | .grace => if l % 98304 = 0 then l / 98304 else l / 98304 + Config.free s.fresh % 2

/-- The code of a session state (Table 14.12). -/
def Session.code : Session → Nat
  | .none => 0
  | .opened => 1
  | .grace => 2

/-- Whether the event ring of port `k` holds at least WM records (16_rings_events_books.md R377). -/
def State.evtWaits (s : State) (k : Fin 4) : Bool := decide ((s.ring (8 + k.val)).wm ≤ (s.ring (8 + k.val)).fill)

/-- A register of page CPk (Table 14.12). -/
def State.cpWord (s : State) (k : Fin 4) (o : Nat) (w : Nat) : Nat :=
  let p := s.ports[k]
  if o = 0x044 then bit p.leaseLow * 4 + bit (s.evtWaits k) * 2 + bit (k.val != 3 && !p.out.isEmpty)
  else if o = 0x048 then p.session.code * 2 ^ 30 + bit p.resumed * 2 ^ 29
  else if o = 0x04C then p.hostId
  else if o = 0x050 then p.lease % 2 ^ 16 * 2 ^ 16 + s.leaseMs k % 2 ^ 16
  else if o = 0x054 then p.next % 2 ^ 16 * 2 ^ 16 + p.acked % 2 ^ 16
  else if o = 0x058 then p.held * 2 ^ 16 + p.queued * 2 ^ 8 + p.inflight
  else if o = 0x070 then p.xport
  else w

/-- A register of page RING (16_rings_events_books.md Table 16.6). -/
def State.ringWord (s : State) (o : Nat) (w : Nat) : Nat :=
  if o = 0x040 then s.granA
  else if o < 0x100 then w
  else
    let i := (o - 0x100) / 16
    let r := s.ring i
    if o % 16 = 0 then
      bit r.enable * 2 ^ 31 + (if 28 ≤ i then bit r.pack * 2 ^ 30 else 0) + r.log2n * 2 ^ 20 + r.base * 2 ^ 8 + ringEsize i r.pack % 256
    else if o % 16 = 4 then r.prod.toNat
    else if o % 16 = 8 then r.cons.toNat
    else r.lost * 2 ^ 16 + r.wm % 2 ^ 16

/-- A register of page TXN (15_transactions_and_hosts.md Table 15.9). -/
def State.txnWord (s : State) (o : Nat) (w : Nat) : Nat :=
  let count (f : Bib → Bool) : Nat := (s.txn.bibs.toList.filter f).length
  if o = 0x044 then
    let kept := count Bib.retained
    let free := count fun b => b.state == .free
    free * 2 ^ 16 + (64 - free - kept) * 2 ^ 8 + kept
  else if o = 0x048 then (8192 - s.txn.used.length) * 2 ^ 16 + s.txn.used.length
  else if 0x100 ≤ o ∧ o < 0x300 then
    let b : Bib := s.bibAt ((o - 0x100) / 8)
    if o % 8 = 0 then b.value * 2 ^ 16 + b.state.code * 2 ^ 13 + b.port * 2 ^ 8 + b.mode * 2 ^ 6
    else b.report * 2 ^ 24 + (if b.state = .free then 0 else (s.txn.used.filter fun e => e.bib == b.value).length)
  else w

/-- OWN of CRC25 (12_crc_engines.md Table 12.4): requested, the owner's kind and its port. -/
def State.crcOwnWord (s : State) : Nat :=
  match s.crcOwner with
  | none => 0
  | some (.host p) => 2 ^ 31 + 1 * 2 ^ 28 + p
  | some .service => 2 ^ 31 + 2 * 2 ^ 28

/-- A register of page CRC (12_crc_engines.md Table 12.4; 18_register_pages.md R408). -/
def State.crcWord (s : State) (o : Nat) (w : Nat) : Nat :=
  let i : Fin 26 := Fin.ofNat 26 ((o - 0x040) / 0x80)
  let r := (o - 0x040) % 0x80
  let c : Crc := s.crc i
  if !s.crcLive i then 0
  else if r = 0x00 then bit c.refout * 2 ^ 9 + bit c.refin * 2 ^ 8 + c.width
  else if r = 0x04 then c.poly
  else if r = 0x08 then c.init
  else if r = 0x0C then c.xorout
  else if r = 0x18 then c.count
  else if r = 0x1C then s.crcResult i
  else if r = 0x20 then s.crcRaw i
  else if r = 0x30 then (if i.val = 25 then s.crcOwnWord else 0)
  else w

/-- TDAC.STATUS (11_housekeeping_converter.md Table 11.13). -/
def State.tdacWord (s : State) (w : Nat) : Nat :=
  let port (x : TdacUser) : Option Nat := match x with
    | .host p => some p
    | .diag _ _ | .jack _ => none
  let owner : Nat := match s.tdacOwner with
    | none => 0
    | some (.diag _ cls) => if cls then 2 else 1
    | some (.jack _) => 2
    | some (.host _) => 3
  let who := (s.tdacOwner.toList ++ s.tdacQ.map (·.2)).findSome? port
  Fd.TDAC_STATUS_OWNER.put owner (Fd.TDAC_STATUS_PORT.put (who.getD 0) (Fd.TDAC_STATUS_QUEUE.put (min s.tdacQ.length 255) w))

/-- A register of a serial audio port (03_serial_audio_ports.md Tables 3.14 to 3.17; 18_register_pages.md R408). -/
def State.sapWord (s : State) (n : Fin 32) (o : Nat) (w : Nat) : Nat :=
  if 0x100 ≤ o ∧ n.val < 24 then 0
  else if o = 0x054 then (Fd.SAP_STATE_CFG_PEND n).put (bit (s.holds (isSapCfg n))) w
  else if o = 0x058 then s.saps[n].stampNow % 2 ^ 32
  else if o = 0x080 then (s.line n 0).fin % 2 ^ 32
  else if o = 0x0A0 then (s.line n 1).fin % 2 ^ 32
  else if o = 0x120 then ofBytesLE (s.saps[n].aes.heldA.take 4)
  else w

/-- A gain word: the stored fields with the present gain above them (DESIGN CHOICE, notes/assumptions/48.md). -/
def State.gainWord (s : State) (a w : Nat) : Nat := (s.gainAt a).now.code * 2 ^ 16 + w % 2 ^ 16

/-- The gain word of an output: PRESENT reads 0x8000 but while READY, and while it falls to mute in STOPPING
(DESIGN CHOICE, notes/assumptions/48.md). -/
def State.outGainWord (s : State) (o : OutId) (a w : Nat) : Nat :=
  match s.outState o with
  | .ready | .stopping => s.gainWord a w
  | .off | .starting | .fault => 0x8000 * 2 ^ 16 + w % 2 ^ 16

/-- A register of an amplifier page; the higher page of a pair mirrors the lower one (10_speaker_amplifier.md R241). -/
def State.ampWord (s : State) (n : Fin 4) (o : Nat) : Nat :=
  let lead := s.ampLead n
  let mirrored := o = 0x054 ∨ o = 0x058 ∨ o = 0x060 ∨ o = 0x064
  let w := (s.reg (pageAddr (ampPage (if mirrored then lead.val else n.val)) o)).toNat
  if o = 0x044 then s.gainWord (pageAddr (ampPage n) o) w
  else if o = 0x054 then
    (Fd.AMP_STATUS_PHASE n).put (s.ampPhase lead) ((Fd.AMP_STATUS_PAIRED n).put (bit (s.paired n))
      ((Fd.AMP_STATUS_CFG_PEND n).put (s.pagePend (ampPage lead)) w))
  else w

/-- A register of pages FAB, MIX, PROC and ASRC. -/
def State.fabWord (s : State) (g o w : Nat) : Nat :=
  if g = fabPage ∧ o = 0x05C then min s.fabLimit 0xFFFF
  else if g = mixPage ∧ 0x100 ≤ o ∧ o < 0x300 ∧ o % 8 = 4 then
    let b : BusScale := at_ s.fab.buses ((o - 0x100) / 8) ⟨[], 0, Glide.open, false⟩
    min b.used 0xFFF * 2 ^ 16 + b.factor.now.code
  else if g = procPage ∧ o = 0x048 then s.lineCount true * 2 ^ 16 + (s.lineCount true + s.lineCount false)
  else if g = procPage ∧ o = 0x04C then s.dlines.length
  else if g = asrcPage ∧ 0x104 ≤ o ∧ o % 16 = 4 then
    let i := (o - 0x104) / 16
    (Fd.ASRC_CH_STAT_CFG_PEND i).put (bit (s.holds (· == Adr.ASRC_CH_CFG i))) w
  else w

/-- The word at offset `o` of page `g`, from 0x040 on. -/
def State.blockWord (s : State) (g o : Nat) : Nat :=
  let w := (s.reg (pageAddr g o)).toNat
  if g = sysPage then (if o = 0x040 then 0x9648 * 2 ^ 16 + Config.stepping % 256 else w)
  else if g = pwrPage then s.pwrWord o w
  else if g = clkPage then (if o = 0x060 ∧ s.pllState = .holdover then s.holdMs else w)
  else if g = timePage then s.timeWord o w
  else if g = fusePage then s.fuseWord o w
  else if g = bootPage then
    (if o = 0x040 then bit s.strict else if o = 0x05C then Fd.BOOT_EPOCHS_SUP.put s.supEpoch w else w)
  else if g = dbgPage then (if o = 0x044 then Fd.DBG_STATUS_KILLED.put (bit (s.fuse Fuse.DEBUG_KILL)) w else w)
  else if 0x008 ≤ g ∧ g < 0x00C then s.cpWord (Fin.ofNat 4 (g - 0x008)) o w
  else if g = ringPage then s.ringWord o w
  else if g = txnPage then s.txnWord o w
  else if g = crcPage then s.crcWord o w
  else if g = fabPage ∨ g = mixPage ∨ g = procPage ∨ g = asrcPage then s.fabWord g o w
  else if g = jackPage then
    (if o = 0x040 then ((List.finRange 20).map fun (j : Fin 20) => bit (s.flag (Fd.JACK_JSTAT_INSERTED j)) * 2 ^ j.val).sum else w)
  else if g = ampsysPage then (if o = 0x04C then Fd.AMPSYS_STATUS_CFG_PEND.put (s.pagePend g) w else w)
  else if g = hkaPage then (if o = 0x058 then Fd.HKA_STATUS_URG_PEND.put (bit s.hka.urg.isSome) w else w)
  else if g = hkseqPage then
    (if 0x080 ≤ o ∧ o < 0x0C0 ∧ o % 8 = 0 then ofBytesLE ((s.headRecord ((o - 0x080) / 16)).take 4) else w)
  else if g = tdacPage then (if o = 0x048 then s.tdacWord w else w)
  else if 0x020 ≤ g ∧ g < 0x040 then s.sapWord (Fin.ofNat 32 (g - 0x020)) o w
  else if 0x040 ≤ g ∧ g < 0x050 then
    (if 0x100 ≤ o ∧ g ≠ 0x040 then 0
    else if o = 0x05C then (Fd.AIN_STATUS_CFG_PEND (g - 0x040)).put (s.pagePend g) w
    else if o = 0x100 then (Fd.AIN_PHM_STAT_RESERVED_MA 0).put s.reservedMa w else w)
  else if 0x050 ≤ g ∧ g < 0x060 then
    (if o = 0x044 then s.outGainWord (.line (Fin.ofNat 16 (g - 0x050))) (pageAddr g o) w
    else if o = 0x050 then (Fd.AOUT_STATUS_CFG_PEND (g - 0x050)).put (s.pagePend g) w else w)
  else if 0x060 ≤ g ∧ g < 0x064 then (if o = 0x044 ∨ o = 0x048 then s.outGainWord (.hp (Fin.ofNat 4 (g - 0x060))) (pageAddr g o) w else w)
  else if 0x068 ≤ g ∧ g < 0x06C then s.ampWord (Fin.ofNat 4 (g - 0x068)) o
  else w

/-- Whether every field of a register is WO, so that it reads 0. -/
def RegRow.blind (r : RegRow) : Bool := r.fields.all (·.acc == .wo)

/-- The word at offset `o` of page `g` (18_register_pages.md R405, R407): one with no register reads 0. -/
def State.pageWord (s : State) (g o : Nat) : Nat :=
  if o < 0x040 then s.headerWord g o
  else match pageReg g o with
    | some r => if r.blind then 0 else s.blockWord g o
    | none => 0

/-- DELAY word 3 of tap `i` (08_mixing_and_processing.md Table 8.7). -/
def State.tapWord (s : State) (i : Nat) : Nat :=
  match s.dlines.find? (·.tap == i) with
  | none => 0
  | some l => 2 ^ 31 + bit l.draining * 2 ^ 30 + bit (decide (l.filled ≤ l.delay)) * 2 ^ 29 + l.granules.length % 2 ^ 12

/-- A word of the coefficient and object parameter memory (DESIGN CHOICE, notes/assumptions/79.md). -/
def State.paramWord (s : State) (a : Nat) : Nat :=
  let w := (s.reg a).toNat
  if isGainAddr a then s.gainWord a w
  else if 0x50054000 ≤ a ∧ a < 0x50056000 ∧ a % 16 = 12 then s.tapWord ((a - 0x50054000) / 16)
  else w

/-! ## What a read does -/

/-- The register whose RC fields a read of offset `o` of page `g` clears: the mirror of a pair clears what it shows
(DEDUCED, notes/assumptions/53.md). -/
def State.readTarget (s : State) (g o : Nat) : Nat :=
  if 0x068 ≤ g ∧ g < 0x06C ∧ o = 0x064 then pageAddr (ampPage (s.ampLead (Fin.ofNat 4 (g - 0x068)))) o else pageAddr g o

/-- A register is read: its RC fields clear (00_scope.md R4) (DEDUCED, notes/assumptions/53.md). -/
def State.clearRc (s : State) (g o : Nat) : State :=
  match pageReg g o with
  | none => s
  | some r =>
    let a := s.readTarget g o
    if r.fields.any fun f => f.acc == .rc && !f.view then s.setReg a (word (r.readClear (s.reg a).toNat)) else s

/-- What a read of offset `o` of page `g` does: latches, pops and clears. -/
def State.pageRead (s : State) (g o : Nat) : State :=
  let t := s.clearRc g o
  if g = pwrPage ∧ o = 0x214 then { t with fresh := t.fresh + 1 }
  else if g = timePage ∧ o = 0x040 then t.latchSys
  else if g = timePage ∧ o = 0x048 then t.latchTick
  else if 0x008 ≤ g ∧ g < 0x00C ∧ o = 0x050 then { t with fresh := t.fresh + 1 }
  else if g = ringPage ∧ o = 0x040 then t.latchGran
  else if g = ringPage ∧ 0x100 ≤ o ∧ o % 16 = 12 then t.updRing ((o - 0x100) / 16) fun r => { r with lost := 0 }
  else if g = hkseqPage ∧ 0x080 ≤ o ∧ o < 0x0C0 ∧ o % 8 = 0 then
    let q := (o - 0x080) / 16
    let b := t.headRecord q
    let u := t.setReg (pageAddr g (o + 4)) (word (ofBytesLE (b.drop 4)))
    if o % 16 = 0 ∧ (t.ring (20 + q)).fill ≠ 0 then u.ringTake (20 + q) 1 else u
  else if 0x020 ≤ g ∧ g < 0x040 then
    let n : Fin 32 := Fin.ofNat 32 (g - 0x020)
    if o = 0x058 then t.latchStamp n
    else if o = 0x080 then t.latchCounts n 0
    else if o = 0x0A0 then t.latchCounts n 1
    else if o = 0x120 ∧ 24 ≤ n.val then t.latchCs n
    else t
  else t

/-! ## Regions (01_architecture.md Tables 1.6, 1.7) -/

/-- The domain of a memory region; none outside the map. -/
def memDomain (a : Nat) : Option Nat :=
  if 0x20000000 ≤ a ∧ a < 0x20080000 then some Dm.CMEM
  else if 0x50000000 ≤ a ∧ a < 0x50060000 then some Dm.FAB
  else if 0x58000000 ≤ a ∧ a < 0x58020000 then some (Dm.PORTG ((a - 0x58000000) / 0x8000))
  else if 0x60000000 ≤ a ∧ a < 0x60100000 then some (Dm.AMEM ((a - 0x60000000) / 0x40000))
  else none

/-- Whether a host may not reach an address of control memory at all (Table 1.7). -/
abbrev memNoAccess (a : Nat) : Bool := (0x20040000 ≤ a && a < 0x20078000) || (0x2007C000 ≤ a && a < 0x20080000)

/-- Whether a host may only read an address: control memory that Table 1.7 says so of, and port FIFO memory (R68). -/
abbrev memReadOnly (a : Nat) : Bool :=
  (0x20020000 ≤ a && a < 0x20040000) || (0x20078000 ≤ a && a < 0x2007C000) || (0x58000000 ≤ a && a < 0x58020000)

/-! The status codes of 18_register_pages.md Table 18.3. -/
namespace St
abbrev OK := 0x00
abbrev PENDING := 0x01
abbrev IN_FLIGHT := 0x02
abbrev BAD_CRC := 0x10
abbrev BAD_SEQ := 0x11
abbrev STALE := 0x12
abbrev BUSY := 0x13
abbrev BAD_OP := 0x14
abbrev BAD_LEN := 0x15
abbrev DOMAIN_DOWN := 0x20
abbrev CLAIMED := 0x21
abbrev READ_ONLY := 0x22
abbrev NO_SUCH_PAGE := 0x23
abbrev CONFLICT := 0x30
abbrev BUDGET := 0x31
abbrev GRANULES := 0x32
abbrev STAGING_FULL := 0x33
abbrev LEASE_EXPIRED := 0x34
abbrev ABORTED_BY_HOST := 0x35
abbrev TOO_LATE := 0x36
abbrev UNKNOWN_BIB := 0x37
abbrev REFUSED := 0x38
abbrev NO_SESSION := 0x40
abbrev IMAGE_INCOMPATIBLE := 0x41
end St

/-- The domain that governs an access of address `a`; none where no page or region is defined. -/
def addrDomain (a : Nat) : Option Nat := if inPages a then pageDomain (pageOf a) else memDomain a

/-- What R312 lets a read of address `a` return while its domain is not ON. -/
def downWord (a d : Nat) : Nat := if inPages a then 0xD0FF0000 + pageOf a else 0xD0FF0800 + d

/-- Port `p` reads one word: the status, the word and the state after it (R407–R409). -/
def State.readWord (s : State) (p : Fin 4) (a : Nat) : Nat × Nat × State :=
  match addrDomain a with
  | none => (St.NO_SUCH_PAGE, 0, s.logAccess .unmapped p false a)
  | some d =>
    if !s.domOn d then (St.DOMAIN_DOWN, downWord a d, s.logAccess .domainDown p false a)
    else if inPages a then (St.OK, s.pageWord (pageOf a) (pageOff a), s.pageRead (pageOf a) (pageOff a))
    else if memNoAccess a then (St.READ_ONLY, 0, s.logAccess .noAccess p false a)
    else if inParams a then
      (match poolReg a with
        | some _ => (St.OK, s.paramWord a, s)
        | none => (if a < 0x50056400 then St.OK else St.READ_ONLY, 0, s))
    else (St.OK, (s.memWord a).toNat, s)

/-- Port `p` reads `n` words from `a` upwards: the first status other than OK, the bytes, and the state after it (R334). -/
def State.readWords (s : State) (p : Fin 4) (a : Nat) : Nat → Nat × List Byte × State
  | 0 => (St.OK, [], s)
  | n + 1 =>
    let (st, w, t) := s.readWord p a
    let (st', bs, u) := t.readWords p (a + 4) n
    (if st = St.OK then st' else st, bytesLE 4 w ++ bs, u)

end Sys2Proof.Machine
end

