-- ==== Sys2Proof/Machine/Words.lean ====
section
/-!
DEFINITION. The words of a write: the checks of each, the applied value that a masked write starts from, and their effect at once
(14_control_ports.md R335; 15_transactions_and_hosts.md R351, R355; 18_register_pages.md R407–R410).
-/
namespace Sys2Proof.Machine

/-- One word of a WR or RMW: its address, the mask of an RMW, and the value. -/
structure WordOp where
  addr : Nat
  mask : Option Nat
  data : Nat
deriving DecidableEq, Repr

/-! ## What may be written (18_register_pages.md R406–R408) -/

/-- Whether a register takes writes and discards them with OK: the AES3 registers of SAP0–SAP23, the registers from 0x100 on
AIN1–AIN15, and OWN of CRC0–CRC24. -/
def regIgnored (g o : Nat) : Bool :=
  (((0x020 ≤ g && g < 0x038) || (0x041 ≤ g && g < 0x050)) && 0x100 ≤ o && (pageReg g o).isSome)
    || (g == crcPage && 0x040 ≤ o && (o - 0x040) % 0x80 == 0x30 && (o - 0x040) / 0x80 < 25)

/-- Whether the register at an offset from 0x040 holds a writable field. -/
def rowWritable (g o : Nat) : Bool :=
  match pageReg g o with
  | some r => r.writable
  | none => false

/-- Whether offset `o` of page `g` holds a writable field. -/
def regWritable (g o : Nat) : Bool :=
  if o < 0x040 then
    ((o == 0x010 || o == 0x014 || o == 0x018) && evtMask g != 0) || (o == 0x01C && errMask g != 0)
  else if regIgnored g o then true
  else if g = pwrPage ∧ o = 0x040 then false
  else if (g = 0x008 ∨ g = 0x009) ∧ o = 0x070 then false
  else if g = ringPage ∧ 0x100 ≤ o then
    let i := (o - 0x100) / 16
    i < 32 && (if o % 16 = 0 then decide (12 ≤ i) else if o % 16 = 4 then indexIsHost i true
      else if o % 16 = 8 then indexIsHost i false else decide (8 ≤ i))
  else if g = crcPage then (o - 0x040) / 0x80 == 25 && rowWritable g o
  else rowWritable g o

/-- Whether the word at `a` is staged inside a transaction (R351). -/
def stageable (a : Nat) : Bool :=
  if inPages a then
    0x040 ≤ pageOff a && regWritable (pageOf a) (pageOff a) && (match pageReg (pageOf a) (pageOff a) with
      | some r => r.stageable
      | none => false)
  else inParams a

/-- Whether an address lies in piste memory. -/
abbrev inPistes (a : Nat) : Bool := 0x50000000 ≤ a && a < 0x50040000

/-- Whether the word at `a` takes writes now (R4, R21, R165, R210, R407). -/
def State.wordWritable (s : State) (a : Nat) : Bool :=
  if inPages a then regWritable (pageOf a) (pageOff a)
  else if inParams a then
    (match poolReg a with
      | some (_, r) => r.writable && !s.maxlenFixed a
      | none => false)
  else if inPistes a then (a - 0x50000000) / 0x20000 != s.runPiste && !s.flag Fd.FAB_STAT_IDLE_LOCK
  else !memNoAccess a && !memReadOnly a

/-- The page whose claim and version govern the word at `a`; memory but for the pistes and parameters has none (R165, R192). -/
def claimPage (a : Nat) : Option Nat :=
  if inPages a then some (pageOf a) else if inParams a then some (paramPage a) else if inPistes a then some fabPage else none

/-- Whether the word at `a` is CFG, POLY, INIT or XOROUT of CRC25 (12_crc_engines.md R298). -/
def isCrcSetting (a : Nat) : Bool := Adr.CRC_CFG 25 ≤ a && a ≤ Adr.CRC_XOROUT 25

/-- The page whose version a direct write of the word at `a` moves: pistes, the engines but for settings of CRC25, and
registers that discard what is written leave theirs (R165, R298, R355, 18_register_pages.md R408). -/
def versionPage (a : Nat) : Option Nat :=
  if inPages a then
    (if (pageOf a = crcPage ∧ 0x040 ≤ pageOff a ∧ ¬ isCrcSetting a) ∨ regIgnored (pageOf a) (pageOff a) then none else some (pageOf a))
  else if inParams a then some (paramPage a) else none

/-- How a refused write of the word at `a` is logged: only one to a region that Table 1.7 closes or makes read-only
(DEDUCED, notes/assumptions/54.md). -/
def readOnlyLog (a : Nat) : Option AccessKind :=
  if memNoAccess a then some .noAccess else if 0x20000000 ≤ a ∧ a < 0x20080000 then some .readOnly else none

/-- The check of one word that port `p` writes, in the order of R409: its status, and how a refusal is logged
(DEDUCED, notes/assumptions/54.md). -/
def State.checkWord (s : State) (p : Fin 4) (staged : Bool) (a : Nat) : Nat × Option AccessKind :=
  match addrDomain a with
  | none => (St.NO_SUCH_PAGE, some .unmapped)
  | some d =>
    let later := staged && stageable a
    if !s.domOn d && !later then (St.DOMAIN_DOWN, some .domainDown)
    else if !s.wordWritable a then (St.READ_ONLY, readOnlyLog a)
    else match claimPage a with
      | some g => if s.claimedByOther p g && !later then (St.CLAIMED, none) else (St.OK, none)
      | none => (St.OK, none)

/-- The first refused word: its address, status and log (DEDUCED, notes/assumptions/54.md). -/
def State.firstBad (s : State) (p : Fin 4) (staged : Bool) : List WordOp → Option (Nat × Nat × Option AccessKind)
  | [] => none
  | w :: ws =>
    let (st, k) := s.checkWord p staged w.addr
    if st = St.OK then s.firstBad p staged ws else some (w.addr, st, k)

/-! ## The applied value -/

/-- The word at `a` as it is applied now; no read takes place (DESIGN CHOICE, notes/assumptions/18.md). -/
def State.wordNow (s : State) (a : Nat) : Nat :=
  if inPages a then s.pageWord (pageOf a) (pageOff a) % 2 ^ 32
  else if inParams a then s.paramWord a % 2 ^ 32 else (s.memWord a).toNat

/-- What a masked or plain write of a word leaves in it (R335). -/
def WordOp.value (w : WordOp) (s : State) : Nat :=
  match w.mask with
  | none => w.data
  | some m => let x := s.wordNow w.addr; x - (x &&& m) + (w.data &&& m)

/-- The applied value that an RMW returns; a word whose domain holds none gives a free one
(DESIGN CHOICE, notes/assumptions/18.md) (DEDUCED, notes/assumptions/28.md). -/
def State.appliedBytes (s : State) (a : Nat) : List Byte × State :=
  match (addrDomain a).map s.dom with
  | some .on | some .ret => (bytesLE 4 (s.wordNow a), s)
  | some .off | some (.waking _) | some (.lowering _) | none => s.freeBytes 4

/-! ## Direct effects -/

/-- The address of CTRL of a group, when `a` is one. -/
def grpCtrlOf (a : Nat) : Option (Fin 8) :=
  if Adr.TIME_GRP_CTRL 0 ≤ a ∧ a < Adr.TIME_GRP_CTRL 8 ∧ (a - Adr.TIME_GRP_CTRL 0) % 0x40 = 0
  then some (Fin.ofNat 8 ((a - Adr.TIME_GRP_CTRL 0) / 0x40)) else none

/-- Whether a write of `v` to `a` enables a group for which too few granules are free (05_alignment_and_rate_conversion.md R108). -/
def State.grpShortAt (s : State) (a v : Nat) : Bool :=
  match grpCtrlOf a with
  | some g => s.grpShort g .ctrl v
  | none => false

/-- Whether the word at `a` is a fabric parameter outside RUN and SWAP (R410). -/
def isFabParam (a : Nat) : Bool :=
  inParams a || ((pageOf a == fabPage || pageOf a == mixPage) && inPages a && stageable a && a != Adr.FAB_CTRL)

/-- A direct write of one word by port `p` (R410): fabric parameters and words of the HKA at the next tick, others at once; SWAP = 0 asks for nothing. -/
def State.applyDirect (s : State) (p : Fin 4) (a v : Nat) : State :=
  if a = Adr.FAB_SWAP then s
  else if isFabParam a then s.paramWrite a v
  else if isTickWord a then s.nextTick a v
  else s.applyWrite p a v

/-- Whether the device has begun a reset between `s` and `t`. -/
abbrev resetBegan (s t : State) : Bool := s.resetHold.isNone && t.resetHold.isSome

/-- Direct writes in order: whether granules ran short, and the state; a reset of the device ends them. -/
def State.applyWords (p : Fin 4) : List WordOp → State → Bool × State
  | [], s => (false, s)
  | w :: ws, s =>
    let v := w.value s
    if s.grpShortAt w.addr v then (true, s)
    else
      let t := s.applyDirect p w.addr v
      if resetBegan s t then (false, t) else State.applyWords p ws t

/-- The page versions after one operation of port `p` that wrote the words `ws` (R355); a setting of CRC25 applies for its owner
alone (R299)
(DEDUCED, notes/assumptions/54.md). -/
def State.bumpWords (s : State) (p : Fin 4) (ws : List WordOp) : State :=
  ((ws.filter fun w => !isCrcSetting w.addr || s.crcOwner == some (.host p)).filterMap fun w => versionPage w.addr).eraseDups.foldl
    State.bumpVer s

/-- Whether a word of a direct write makes it an implicit transaction: a power target, or SWAP = 1 (R350). -/
def State.implicitWord (s : State) (w : WordOp) : Bool :=
  (Adr.PWR_DOM_CTRL 1 ≤ w.addr && w.addr < Adr.PWR_DOM_CTRL 27) || (w.addr == Adr.FAB_SWAP && bitOf (w.value s) 0)

end Sys2Proof.Machine
end

