-- ==== Sys2Proof/Machine/Power.lean ====
section
/-!
DEFINITION. Power changes: what they alter, their checks, the voters, and the domains on their way up and down
(13_power_domains.md R305–R311).
-/
namespace Sys2Proof.Machine

/-! Event bits of page PWR (Table 13.11). -/
namespace PwrEv
abbrev CHANGE_DONE := 0
abbrev REFUSED := 1
abbrev WOKEN := 2
end PwrEv

/-! Refusal causes (Table 13.3). -/
namespace Cause
abbrev ACTIVE := 1
abbrev PENDING := 2
abbrev DEPENDENT := 3
abbrev TIMEOUT := 4
abbrev ORDER := 5
abbrev BUSY := 6
abbrev SUPPLY := 7
abbrev NO_BIB := 8
end Cause

/-! ## What a change alters (R305) -/

/-- The domain whose DOMd_CTRL lies at `a`. -/
def targetDomain (a : Nat) : Option Nat :=
  if Adr.PWR_DOM_CTRL 1 ≤ a ∧ a < Adr.PWR_DOM_CTRL 27 then some ((a - Adr.PWR_DOM_CTRL 0) / 4) else none

/-- The TARGET fields that writes in their order alter, each with its new value. -/
def State.targetChanges (s : State) (ws : List WordOp) : List (Nat × Nat) :=
  if ws.any fun w => (targetDomain w.addr).isSome then
    let t := ws.foldl (fun (t : State) w => match targetDomain w.addr with
      | some d => t.domCtrlWrite d (w.value t)
      | none => t) s
    (List.range 27).filterMap fun d =>
      let v := t.fld (Fd.PWR_DOM_CTRL_TARGET d)
      if v = s.fld (Fd.PWR_DOM_CTRL_TARGET d) then none else some (d, v)
  else []

/-- The domains that a change wakes, ascending. -/
def State.wokenBy (s : State) (chg : List (Nat × Nat)) : List Nat :=
  (chg.filter fun e => e.2 == 2 && !s.domOn e.1).map (·.1)

/-- Whether a domain in phase `p` goes down for a TARGET. -/
def DomPhase.lowers (p : DomPhase) (target : Nat) : Bool :=
  match p with
  | .on => target != 2
  | .ret => target == 0
  | .off | .waking _ | .lowering _ => false

/-- The domains that a change lowers, in descending order, each with whether it goes to OFF. -/
def State.loweredBy (s : State) (chg : List (Nat × Nat)) : List (Nat × Bool) :=
  ((chg.filter fun e => (s.dom e.1).lowers e.2).map fun e => (e.1, e.2 == 0)).reverse

/-- Whether domain `d` will be ON after a change. -/
def State.onAfter (s : State) (chg : List (Nat × Nat)) (d : Nat) : Bool :=
  match chg.find? (·.1 == d) with
  | some e => e.2 == 2
  | none => s.domOn d

/-- The check of a change before its vote: the cause of its refusal and the domain named (R305, R308)
(DEDUCED, notes/assumptions/58.md) (DEDUCED, notes/assumptions/61.md). -/
def State.changeFault (s : State) (chg : List (Nat × Nat)) : Option (Nat × Nat) :=
  let first := (chg.head?.map (·.1)).getD 0
  if s.change.isSome then some (Cause.BUSY, first)
  else if !(s.wokenBy chg).isEmpty && s.pvdd < 850 then some (Cause.SUPPLY, first)
  else ((List.range 27).find? fun d => s.onAfter chg d && (requires d).any fun r => !s.onAfter chg r).map fun d => (Cause.ORDER, d)

/-- A change is refused (R308). -/
def State.changeRefused (s : State) (cause d : Nat) : State :=
  (((s.countSat Fd.PWR_ABORTS_COUNT 1).setFld Fd.PWR_ABORTS_CAUSE cause).setFld Fd.PWR_ABORTS_DOMAIN d).raise pwrPage PwrEv.REFUSED

/-! ## Votes (Table 13.4) -/

/-- The pages that vote on domain `d`, ascending. -/
def voterPages (d : Nat) : List Nat :=
  if d = Dm.SUP then [0x006]
  else if d = Dm.CORE then [0x006, 0x008, 0x009, 0x00A, 0x00B, 0x00D]
  else if d = Dm.FAB then [0x010, 0x013]
  else if d = Dm.CMEM then [0x010]
  else if 5 ≤ d ∧ d ≤ 8 then [0x004, 0x010]
  else if 9 ≤ d ∧ d ≤ 12 then (List.range 8).map fun i => 0x020 + 8 * (d - 9) + i
  else if d = Dm.ASRC then [0x013]
  else if d = Dm.AIN 0 then (List.range 16).map fun i => 0x040 + i
  else if 15 ≤ d ∧ d ≤ 17 then (List.range 4).map fun i => 0x040 + 4 * (d - 14) + i
  else if d = 18 ∨ d = 19 then (List.range 8).map fun i => 0x050 + 8 * (d - 18) + i
  else if d = Dm.HP then [0x060, 0x061, 0x062, 0x063]
  else if 21 ≤ d ∧ d ≤ 24 then [0x068 + (d - 21)]
  else if d = Dm.HKA then [0x016, 0x060, 0x061, 0x062, 0x063]
  else if d = Dm.PLL then [0x003, 0x010, 0x013]
  else []

/-- Whether a granule of domain `d` is among `gs`. -/
def amemHolds (d : Nat) (gs : List Nat) : Bool := gs.any fun g => Dm.AMEM (g / 1024) == d

/-- The boot block's vote on SUP: the boot phase (17_boot_images_recovery.md R383) or recovery runs, an image loads, or the schuss path
is active
(DEDUCED, notes/assumptions/61.md). -/
def State.supBusy (s : State) : Bool :=
  s.bootPhase || s.mode == .recovery || s.boot.owner.isSome || s.boot.check.isSome || s.boot.suppDue.isSome || s.boot.path != .off
    || s.fld Fd.BOOT_SVC_STAT_STATE == 1

/-- Whether the fabric refuses that domain `d` goes down (07_fabric_schedule.md R164). -/
def State.fabHolds (s : State) (d : Nat) : Bool :=
  s.fabState != .stopped && (if 5 ≤ d ∧ d ≤ 8 then amemHolds d (s.dlines.flatMap (·.granules)) else true)

/-- Whether input `n` refuses that domain `d` goes down (06_microphone_and_line_inputs.md R138, R156). -/
def State.ainHolds (s : State) (n : Fin 16) (d : Nat) : Bool :=
  s.phState n != .off || (d == Dm.AIN (n.val / 4) && s.ainState n != .off)

/-- Whether an amplifier channel, or the pair that it is half of, refuses (10_speaker_amplifier.md R249). -/
def State.ampHolds (s : State) (n : Fin 4) : Bool :=
  match s.ampState (s.ampLead n) with
  | .off | .latched => false
  | .starting | .running | .stopping | .retryWait | .suspended => true

/-- Whether a bib is validated and waits for its apply tick. -/
def Bib.flying (b : Bib) : Bool :=
  match b.state with
  | .inFlight => true
  | .implicit => b.status == St.IN_FLIGHT
  | .free | .opened | .scheduled | .committed | .aborted | .ending => false

/-- The cause that page `g`, whose domain is ON, gives on domain `d` in the vote of bib `bib`; 0 when it agrees; `arriving`: a frame is arriving on its port
(DEDUCED, notes/assumptions/61.md). -/
def State.voterCause (s : State) (bib g d : Nat) (arriving : Bool) : Nat :=
  let active (b : Bool) : Nat := if b then Cause.ACTIVE else 0
  let pending (b : Bool) : Nat := if b then Cause.PENDING else 0
  if g = 0x006 then (if d = Dm.SUP then active s.supBusy else pending (s.fld Fd.DUMP_STATUS_STATE == 1))
  else if 0x008 ≤ g ∧ g ≤ 0x00B then active arriving
  else if g = txnPage then pending (s.txn.bibs.toList.any fun (b : Bib) => b.flying && b.value != bib)
  else if g = fabPage then active (s.fabHolds d)
  else if g = asrcPage then active ((List.range 64).any fun i => s.asrcOn i)
  else if g = timePage then active (amemHolds d (s.grps.toList.flatMap Grp.granules))
  else if g = clkPage then
    active (((List.finRange 32).any fun n => s.isMaster n && s.sapState n != .stopped) || s.fld Fd.CLK_WCLK_OUT_RATE != 0)
  else if 0x020 ≤ g ∧ g < 0x040 then active (s.sapState (Fin.ofNat 32 (g - 0x020)) != .stopped)
  else if 0x040 ≤ g ∧ g < 0x050 then active (s.ainHolds (Fin.ofNat 16 (g - 0x040)) d)
  else if 0x050 ≤ g ∧ g < 0x060 then active (s.outState (.line (Fin.ofNat 16 (g - 0x050))) != .off)
  else if 0x060 ≤ g ∧ g < 0x064 then active (s.outState (.hp (Fin.ofNat 4 (g - 0x060))) != .off)
  else if 0x068 ≤ g ∧ g < 0x06C then active (s.ampHolds (Fin.ofNat 4 (g - 0x068)))
  else if g = hkaPage then
    if (List.range 4).any fun n => s.domOn (Dm.AMP n) then Cause.DEPENDENT
    else pending (((List.finRange 3).any fun x => s.seqState x != seqOff) || s.tdacOwner.isSome || !s.tdacQ.isEmpty)
  else 0

/-- The answer of page `g` on domain `d`; a voter in a domain that is not ON agrees (R306). -/
def State.voteOf (s : State) (bib g d : Nat) (arriving : Bool) : Nat := if s.pageOn g then s.voterCause bib g d arriving else 0

/-- The voters of a change: domains descending, pages ascending. -/
def votersOf (lowers : List (Nat × Bool)) : List (Nat × Nat) := lowers.flatMap fun e => (voterPages e.1).map fun g => (e.1, g)

/-- The refusing voter's record (R308). -/
def State.voteRecord (s : State) (d g cause : Nat) : State :=
  (((s.setFld (Fd.PWR_DOM_REFUSE_CAUSE d) cause).setFld (Fd.PWR_DOM_REFUSE_REFUSER d) g).countSat (Fd.PWR_DOM_REFUSE_COUNT d) 1).changeRefused
    cause d

/-- Whether a write to the word at `a`, by port `p` where one makes it, waits for a change (R307, R309). -/
def State.changeBlocks (s : State) (p : Option (Fin 4)) (a : Nat) : Bool :=
  s.heldFor p (addrDomain a) (if inPages a then some (pageOf a) else none)

/-! ## Going up (R310) -/

/-- `s` with the change under way altered. -/
def State.updChange (s : State) (f : Change → Change) : State := { s with change := s.change.map f }

/-- The next domain of a change starts to wake: the lowest-numbered one whose required domains are ON. -/
def State.wakeNext (s : State) : State :=
  match s.change with
  | none => s
  | some c =>
    match c.wakes.find? fun d => (requires d).all fun r => s.domOn r with
    | none => s
    | some d =>
      let off := s.dom d == .off
      (s.setDom d (.waking off)).updChange fun q => { q with wakes := q.wakes.erase d, woken := q.woken ++ [(d, off)] }

/-- The domain that is waking, and whether it comes from OFF. -/
def State.wakingNow (s : State) : Option (Nat × Bool) :=
  (List.range 27).findSome? fun d => match s.dom d with
    | .waking off => some (d, off)
    | .off | .ret | .on | .lowering _ => none

/-! ## Going down (R310) -/

/-- What is left of the leases stands still (R311). -/
def State.leasesStop (s : State) : State :=
  { s with ports := s.ports.mapIdx fun i (p : Port) => { p with leaseLeft := s.leaseNow (Fin.ofNat 4 i) } }

/-- The next domain of a change starts to go down: the highest-numbered one that no other of them requires; CORE waits for the
response that reports the commit. -/
def State.lowerNext (s : State) : State :=
  match s.change with
  | none => s
  | some c =>
    match c.lowers.find? fun e => c.lowers.all fun x => !(requires x.1).contains e.1 with
    | none => s
    | some (d, off) =>
      if d = Dm.CORE ∧ c.coreAfter.isSome then s
      else if d = Dm.CORE then s.leasesStop.startLower d off else s.startLower d off

/-- The domain that is going down, and whether it goes to OFF (DEDUCED, notes/assumptions/78.md). -/
def State.loweringNow (s : State) : Option (Nat × Bool) :=
  (List.range 27).findSome? fun d => match s.dom d with
    | .lowering off => some (d, off)
    | .off | .ret | .on | .waking _ => none

/-! ## The lift (R318) -/

/-- The hardware wake of CMEM and CORE begins, when no other change runs and CORE is not ON. -/
def State.liftStart (s : State) : State :=
  if s.lift && s.change.isNone && !s.domOn Dm.CORE then
    let ds := (requiresAll Dm.CORE).filter fun d => !s.domOn d
    { s with change := some ⟨.lift, .wake, ds.map fun d => (d, 2), [], [], ds, [], [], none, false⟩ }.wakeNext
  else s

/-! ## The end of a change -/

/-- Operations that waited for a wake try again. -/
def State.wakersRetry (s : State) : State :=
  { s with ports := s.ports.map fun (p : Port) =>
      { p with waiting := p.waiting.map fun (w : WaitOp) => if w.wait = .wake then { w with wait := .retry } else w } }

/-- A change has ended; `done` raises CHANGE_DONE. -/
def State.changeEnd (s : State) (done : Bool) : State :=
  let t := { s with change := none }.wakersRetry
  (if done then t.raise pwrPage PwrEv.CHANGE_DONE else t).liftStart

/-- A change that lowers nothing more has ended; else its next domain goes down. -/
def State.lowerOn (s : State) : State :=
  match s.change with
  | none => s
  | some c =>
    match c.phase with
    | .lower =>
      if c.lowers.isEmpty then s.changeEnd (!c.restoring)
      else if s.loweringNow.isSome then s else s.lowerNext
    | .vote | .wake | .wait => s

/-- The domain that is going down has reached its state. -/
def State.lowerDone (s : State) : State :=
  match s.loweringNow with
  | none => s
  | some (d, off) => ((s.endLower d off).updChange fun c => { c with lowers := c.lowers.filter fun e => e.1 != d }).lowerOn

/-- The domains that a change woke go back to their former states without a vote (R310)
(DEDUCED, notes/assumptions/30.md). -/
def State.wakesUndo (s : State) : State :=
  let back : List (Nat × Bool) := match s.change with
    | some c => (List.range 27).reverse.filterMap fun d => c.woken.find? (·.1 == d)
    | none => []
  (s.updChange fun c => { c with phase := .lower, wakes := [], woken := [], lowers := back, restoring := true, agreed := [] }).lowerOn

end Sys2Proof.Machine
end

