-- ==== Sys2Proof/Machine/Txn.lean ====
section
/-!
DEFINITION. Transactions: bibs, staging, validation, the apply tick, aborts and retirement (15_transactions_and_hosts.md R346–R364).
-/
namespace Sys2Proof.Machine

/-! Event bits of page TXN (Table 15.10). -/
namespace TxnEv
abbrev COMMITTED := 0
abbrev ABORTED := 1
abbrev STAGING_FULL := 2
end TxnEv

/-! ## Bibs (R346–R349) -/

/-- `s` with bib slot `k` changed. -/
def State.updBib (s : State) (k : Nat) (f : Bib → Bib) : State := { s with txn := { s.txn with bibs := upd s.txn.bibs k f } }

/-- The slot of the bib with value `v` that port `p` holds for its operations (R347, R350). -/
def State.ownBib (s : State) (p : Fin 4) (v : Nat) : Option Nat :=
  (List.range 64).find? fun k =>
    let b : Bib := s.bibAt k
    b.value == v && b.port == p.val && (b.live || b.retained)

/-- The slot of a held bib with value `v`. -/
def State.slotOf (s : State) (v : Nat) : Option Nat :=
  (List.range 64).find? fun k => let b : Bib := s.bibAt k; b.state != .free && b.value == v

/-- The next value of the counter that is not 0 and that no bib holds, from `v` on. -/
def nextBib (held : List Nat) : Nat → Nat → Nat
  | 0, v => v
  | fuel + 1, v => if v = 0 ∨ held.contains v then nextBib held fuel ((v + 1) % 65536) else v

/-- Takes the lowest-numbered free slot for port `p`. -/
def State.takeBib (s : State) (p : Fin 4) (implicit : Bool) : Option Nat × State :=
  match (List.range 64).find? fun k => (s.bibAt k).state == .free with
  | none => (none, s)
  | some k =>
    let v := nextBib (s.txn.bibs.toList.map fun (b : Bib) => b.value) 66 s.txn.counter
    let b : Bib := { Bib.none_ with value := v, state := if implicit then BibState.implicit else BibState.opened, port := p, status := St.PENDING,
                                    serial := s.txn.serial + 1 }
    (some k, { s.updBib k fun _ => b with
      txn := { (s.updBib k fun _ => b).txn with counter := (v + 1) % 65536, serial := s.txn.serial + 1 } })

/-- Whether port `p` may open another bib. -/
def State.mayOpen (s : State) (p : Fin 4) : Bool :=
  let live := s.txn.bibs.toList.filter Bib.live
  (live.filter fun (b : Bib) => b.port == p.val).length < 4 && live.length < 16

/-- The result data of TXN_COMMIT and TXN_STATUS for a bib (14_control_ports.md Table 14.5). -/
def Bib.report20 (b : Bib) : List Byte := bytesLE 2 b.value ++ bytesLE 2 b.page ++ bytesLE 8 (b.tick % 2 ^ 48) ++ bytesLE 8 b.sys

/-- The bib in slot `k` has ended: bibs opened earlier on its port count it, and those that the fourth later one has followed
retire (R349) (DEDUCED, notes/assumptions/57.md). -/
def State.retireAfter (s : State) (k : Nat) : State :=
  let b : Bib := s.bibAt k
  let t := { s with txn := { s.txn with bibs := s.txn.bibs.map fun (x : Bib) =>
    if (x.live || x.retained) && x.port == b.port && x.serial < b.serial then { x with later := x.later + 1 } else x } }
  { t with txn := { t.txn with bibs := t.txn.bibs.map fun (x : Bib) => if x.retained && decide (4 ≤ x.later) then Bib.none_ else x } }

/-! ## Staging entries (R351–R354) -/

/-- Writes entry `e` to the staging memory (Table 15.2). -/
def State.entryPut (s : State) (e : Entry) : State :=
  (s.setMemWord (0x20020000 + 8 * e.place) (word (e.addr + e.kind))).setMemWord (0x20020000 + 8 * e.place + 4) (word e.data)

/-- An entry returns to free: KIND 0; the manual gives its other bits no value (DESIGN CHOICE, notes/assumptions/60.md). -/
def State.entryClear (s : State) (e : Entry) : State :=
  let (a, t) := s.free (2 ^ 30)
  let (d, u) := t.free (2 ^ 32)
  (u.setMemWord (0x20020000 + 8 * e.place) (word (4 * a))).setMemWord (0x20020000 + 8 * e.place + 4) (word d)

/-- A bib returns to FREE, and with it entries of its that still count as used (16_rings_events_books.md R380)
(DESIGN CHOICE, notes/assumptions/60.md). -/
def State.freeBib (s : State) (k : Nat) : State :=
  let v := (s.bibAt k).value
  let gone := s.txn.applied.filter fun e => e.bib == v
  (gone.foldl State.entryClear { s with txn := { s.txn with applied := s.txn.applied.filter fun e => e.bib != v } }).updBib k
    fun _ => Bib.none_

/-- The staged entries of a bib return to free. -/
def State.dropEntries (s : State) (v : Nat) : State :=
  (s.txn.entriesOf v).foldl State.entryClear
    { s with txn := { s.txn with staging := s.txn.staging.filter fun e => e.bib != v } }

/-- The entries that a word takes: kind and data of each. -/
def WordOp.kinds (w : WordOp) : List (Nat × Nat) :=
  match w.mask with
  | none => [(1, w.data)]
  | some m => [(2, m), (3, w.data &&& m)]

/-- The entries that words take in all. -/
def entriesNeeded (ws : List WordOp) : Nat := (ws.map fun w => w.kinds.length).sum

/-- Stages words for the bib in slot `k`: entries lowest-numbered free first, and the versions of pages new to it (R353, R356). -/
def State.stageWords (s : State) (k : Nat) (ws : List WordOp) : State :=
  let v := (s.bibAt k).value
  let all := ws.flatMap fun w => w.kinds.map fun e => (w.addr, e)
  let places := freeGranulesFrom (s.txn.used.map (·.place)) 8192 0 all.length
  let es : List Entry := (places.zip all).map fun x => ⟨x.1, v, x.2.1, x.2.2.1, x.2.2.2⟩
  let t := es.foldl State.entryPut { s with txn := { s.txn with staging := s.txn.staging ++ es } }
  let gs := (ws.map fun w => governs w.addr).eraseDups
  t.updBib k fun b => { b with versions := b.versions ++ (gs.filter fun g => !b.versions.any (·.1 == g)).map fun g => (g, s.pageVer g) }

/-- The writes that entries in their order stand for. -/
def stagedOps : List Entry → List WordOp
  | [] => []
  | e :: es =>
    if e.kind = 2 then
      match es with
      | f :: rest => ⟨e.addr, some e.data, f.data⟩ :: stagedOps rest
      | [] => []
    else ⟨e.addr, none, e.data⟩ :: stagedOps es

/-- The staged writes of a bib. -/
def State.opsOf (s : State) (k : Nat) : List WordOp := stagedOps (s.txn.entriesOf (s.bibAt k).value)

/-- The pages on which a bib has entries, ascending. -/
def State.pagesOf (s : State) (k : Nat) : List Nat :=
  let gs := (s.txn.entriesOf (s.bibAt k).value).map fun e => governs e.addr
  if gs.isEmpty then [] else (List.range 108).filter gs.contains

/-- The pages in flight for another bib than the one in slot `k` (R360). -/
def State.flightPages (s : State) (k : Nat) : List Nat :=
  s.txn.flightEnd ++ (List.range 64).flatMap fun j => if j != k && (s.bibAt j).flying then s.pagesOf j else []

/-- Whether an operation on page `g` waits for the end of its flight (R360). -/
def State.inFlight (s : State) (g : Nat) : Bool := (s.flightPages 64).contains g

/-! ## Outcomes -/

/-- The DETAIL of an outcome (16_rings_events_books.md Table 16.2). -/
def outcomeDetail (b : Bib) (status : Nat) : Nat := b.value + status * 2 ^ 16 + b.port * 2 ^ 24

/-- The operation of the bib's port that waits for its outcome gets it. -/
def State.tellOutcome (s : State) (k : Nat) : State :=
  let b : Bib := s.bibAt k
  s.waitOver (Fin.ofNat 4 b.port) fun w => if w = .outcome b.value then some ⟨0, b.report, b.report20⟩ else none

/-- The bib in slot `k` aborts: its entries are freed, the abort is recorded and raised (R352, R363, Table 15.4).  `last` is the
page that LAST_PAGE names. -/
def State.abortBib (s : State) (k status last : Nat) : State :=
  let b : Bib := s.bibAt k
  let page := if status = St.CLAIMED ∨ status = St.CONFLICT then last else 0
  let t := (s.dropEntries b.value).updBib k fun x =>
    { x with state := .aborted, status := status, page := page, reserved := 0, waitsPage := false, versions := [] }
  let u := t.countSat Fd.TXN_ABORT_CNT_ALL 1
  let v := if status = St.CONFLICT then u.countSat Fd.TXN_ABORT_CNT_CONFLICT 1 else u
  let w := ((v.setReg Adr.TXN_LAST_ABORT (word (b.value * 2 ^ 16 + status * 2 ^ 8 + b.port * 2 ^ 4))).setFld Fd.TXN_LAST_PAGE_PAGE last)
  let d := outcomeDetail b status
  let x := { w with txn := { w.txn with lastAborted := some d } }.raiseWith txnPage TxnEv.ABORTED d
  let y := if status = St.STAGING_FULL then x.raise txnPage TxnEv.STAGING_FULL else x
  let z := (y.tellOutcome k).retireAfter k
  if b.orphan ∧ (z.bibAt k).retained then z.freeBib k else z

/-- The operation of an implicit transaction has its result (R350). -/
def State.implicitTold (s : State) (k status : Nat) : State :=
  s.waitOver (Fin.ofNat 4 (s.bibAt k).port) fun w => match w with
    | .power data => some ⟨0, status, data⟩
    | .outcome _ | .retry | .wake | .image _ | .ready _ | .behind => none

/-- An implicit transaction fails with a status: its operation has its result, and the bib is freed (R350). -/
def State.endImplicit (s : State) (k status : Nat) : State :=
  ((s.implicitTold k status).dropEntries (s.bibAt k).value).freeBib k

/-- The transaction in slot `k` fails. -/
def State.failBib (s : State) (k status last : Nat) : State :=
  if (s.bibAt k).state = .implicit then s.endImplicit k status else s.abortBib k status last

/-- The transaction in slot `k` has applied (DEDUCED, notes/assumptions/59.md). -/
def State.commitBib (s : State) (k tick : Nat) : State :=
  let b : Bib := s.bibAt k
  if b.state = .implicit then (s.implicitTold k St.OK).updBib k fun x => { x with state := .ending }
  else
    let t := s.updBib k fun x => { x with state := .committed, status := St.OK, tick := tick, sys := s.syscnt, versions := [] }
    let d := outcomeDetail b St.OK
    let u := (t.countWrap Fd.TXN_COMMIT_CNT_COUNT 1)
    let v := { u with txn := { u.txn with lastCommitted := some d } }.raiseWith txnPage TxnEv.COMMITTED d
    (v.tellOutcome k).retireAfter k

/-! ## Validation (R359, R360) -/

/-- Whether the power change under way is that of bib `v`. -/
def Change.ofBib (c : Change) (v : Nat) : Bool :=
  match c.cause with
  | .txn b => b == v
  | .direct _ b => b == v
  | .access _ _ | .lift => false

/-- Whether the change under way is that of the bib in slot `k`. -/
def State.ownsChange (s : State) (k : Nat) : Bool :=
  match s.change with
  | some c => c.ofBib (s.bibAt k).value
  | none => false

/-- Whether a vote runs. -/
def State.voting (s : State) : Bool :=
  match s.change with
  | some c => c.phase == .vote
  | none => false

/-- Whether the bib in slot `k` is the one whose vote runs. -/
def State.voted (s : State) (k : Nat) : Bool := s.voting && s.ownsChange k

/-- Whether the validation of the bib in slot `k` waits: a vote runs, or one of its pages waits for a change, or one, or a page of a
domain that it lowers, is in flight (R307, R309, R360) (DEDUCED, notes/assumptions/61.md). -/
def State.bibBlocked (s : State) (k : Nat) : Bool :=
  let flight := s.flightPages k
  let lowers := (s.loweredBy (s.targetChanges (s.opsOf k))).map (·.1)
  s.voting || (s.pagesOf k).any (fun g => s.changeBlocks (some (Fin.ofNat 4 (s.bibAt k).port)) (pageAddr g 0)) || (s.pagesOf k).any flight.contains || flight.any fun g => (pageDomain g).any lowers.contains

/-- Whether the apply tick can no longer be met in tick `now`, whose boundary came at SYSCNT `edge` (Table 15.3 step 1)
(DEDUCED, notes/assumptions/55.md). -/
def State.bibLate (s : State) (b : Bib) (now edge : Nat) : Bool :=
  if b.mode = 1 then !(s.fabState == .running && decide (now < b.time))
  else if b.mode = 2 then (if s.domOn Dm.PLL then decide (b.time ≤ edge) else decide (b.time < s.syscnt))
  else false

/-- The first page that fails steps 2 to 4 of Table 15.3: the status and the page. -/
def State.pageFault (s : State) (k : Nat) (chg : List (Nat × Nat)) : Option (Nat × Nat) :=
  let b : Bib := s.bibAt k
  let gs := s.pagesOf k
  let ver (g : Nat) : Nat := ((b.versions.find? (·.1 == g)).map (·.2)).getD 0
  let on (g : Nat) : Bool := (pageDomain g).any fun d => s.domOn d || chg.contains (d, 2)
  match gs.find? fun g => s.claimedByOther (Fin.ofNat 4 b.port) g with
  | some g => some (St.CLAIMED, g)
  | none =>
    match gs.find? fun g => ver g != s.pageVer g with
    | some g => some (St.CONFLICT, g)
    | none => (gs.find? fun g => !on g).map fun g => (St.DOMAIN_DOWN, g)

/-- The staged writes applied, in order, to the registers of one kind: what they would hold. -/
def State.ahead (s : State) (p : Nat → Bool) (ws : List WordOp) : State :=
  (ws.filter fun w => p w.addr).foldl (fun t w => t.store w.addr (w.value t)) s

/-- Whether a swap is staged (R176). -/
def State.swapStaged (s : State) (ws : List WordOp) : Bool :=
  (ws.any fun w => w.addr == Adr.FAB_SWAP) && (s.ahead (· == Adr.FAB_SWAP) ws).flag Fd.FAB_SWAP_SWAP

/-- Step 5: a staged swap is admitted with the staged XOVER, and then waits for its apply tick; the memory of a FAB that is OFF
holds no valid piste (DEDUCED, notes/assumptions/56.md). -/
def State.swapAdmit (s : State) (ws : List WordOp) : Option Nat × State :=
  if !s.swapStaged ws then (none, s)
  else match s.dom Dm.FAB with
    | .on | .ret =>
      (match s.swapCheck ((s.ahead (· == Adr.FAB_XOVER) ws).fld Fd.FAB_XOVER_TICKS) with
        | (.refused, t) => (some St.REFUSED, t)
        | (.overBudget, t) => (some St.BUDGET, t)
        | (.good p a, t) => (none, t.swapPend p a))
    | .off | .waking _ | .lowering _ => (some St.REFUSED, s)

/-- One staged word of group `g`, held as a write (05_alignment_and_rate_conversion.md R106). -/
def State.grpHold (g : Fin 8) (s : State) (w : WordOp) : State :=
  s.hold w.addr (w.value (if s.grpMayApply g then s.grpAhead g else s))

/-- The staged words of group `g`, held together; an enable among them reserves the granules that all of them ask for (R108). -/
def State.grpStaged (s : State) (g : Fin 8) (ws : List WordOp) : Bool × State :=
  let t := (ws.filter fun w => isGrpCfg g w.addr).foldl (State.grpHold g) s
  if (t.grpAhead g).flag (Fd.TIME_GRP_CTRL_ENABLE g) && !(s.grpAhead g).flag (Fd.TIME_GRP_CTRL_ENABLE g) then
    (decide (t.granFree < t.grpNeed g), t.reserveGrp g)
  else (false, t)

/-- Whether the address is a register of an alignment group. -/
def isGrpReg (a : Nat) : Bool := Adr.TIME_GRP_CTRL 0 ≤ a && a < Adr.TIME_GRP_CTRL 8

/-- Whether the address is a register of a port from which cushions take their size (R107). -/
def isCushReg (a : Nat) : Bool := (List.range 32).any fun n => a == Adr.SAP_LINE n || a == Adr.SAP_CLKCFG n

/-- Staged words as the groups see them: whether an enable finds too few granules, and what the groups would be (R108). -/
def State.groupsAhead (ws : List WordOp) (s : State) : Bool × State :=
  let t := (ws.filter fun w => isCushReg w.addr).foldl (fun (t : State) w => t.hold w.addr (w.value t)) s
  (List.finRange 8).foldl (fun (x : Bool × State) g =>
    let r := x.2.grpStaged g ws
    (x.1 || r.1, r.2)) (false, t)

/-- Step 6: the granules that staged group enables and a staged swap need, with the MAXLEN staged beside it (R108, R210); none where
too few are free. -/
def State.granulesNeeded (s : State) (ws : List WordOp) : Option Nat :=
  let (short, g) := State.groupsAhead ws s
  let t := g.ahead (fun a => isMaxlen a && !s.maxlenFixed a) ws
  let lines := if s.swapStaged ws then (match s.fab.pend with
    | some (p, _) => t.swapNeed p
    | none => 0) else 0
  if short || decide (t.granFree < lines) then none else some (s.granFree - t.granFree + lines)

/-- A change of power begins: its vote, or where nothing is lowered its wakes, for the bib in slot `k`. -/
def State.changeBegin (s : State) (k : Nat) (chg : List (Nat × Nat)) : State :=
  let b : Bib := s.bibAt k
  let lowers := s.loweredBy chg
  let cause : ChangeBy := if b.state = BibState.implicit then .direct b.port b.value else .txn b.value
  { s with change := some ⟨cause, .vote, chg, votersOf lowers, [], s.wokenBy chg, lowers, [], none, false⟩ }

/-- A bib that has passed its validation as number `n`. -/
def Bib.pass (b : Bib) (n : Nat) : Bib :=
  { b with state := (match b.state with
             | .implicit => .implicit
             | .ending => .ending
             | .free | .opened | .scheduled | .inFlight | .committed | .aborted => .inFlight),
           status := St.IN_FLIGHT, validated := n, waitsPage := false, orphan := false }

/-- The bib in slot `k` has passed: it waits for its apply tick, and the domains of its change start to wake (R310, R359). -/
def State.bibPassed (s : State) (k : Nat) : State :=
  let t := { s with txn := { s.txn with order := s.txn.order + 1 } }.updBib k fun b => b.pass (s.txn.order + 1)
  if t.ownsChange k then
    (t.updChange fun c => { c with phase := if c.wakes.isEmpty then .wait else .wake }).wakeNext
  else t

/-- A validation fails: a swap that it admitted is let go. -/
def State.bibFails (s : State) (k status last : Nat) (swap : Bool) : State :=
  (if swap then s.swapDrop else s).failBib k status last

/-! ## The apply tick (R310, R361) -/

/-- Whether the change of the bib in slot `k` has domains on their way. -/
def State.stillWaking (s : State) (k : Nat) : Bool :=
  match s.change with
  | some c => c.ofBib (s.bibAt k).value && c.phase == .wake
  | none => false

/-- Whether the change of the bib in slot `k` holds its apply: its vote runs, or without a named time its domains wake. -/
def State.heldByChange (s : State) (k : Nat) : Bool := s.voted k || (s.stillWaking k && (s.bibAt k).mode == 0)

/-- Whether the bib in slot `k` is in its apply tick, which begins now (R358, R361). -/
def State.applyDue (s : State) (k : Nat) : Bool :=
  let b : Bib := s.bibAt k
  b.flying && !s.heldByChange k
    && (if b.mode = 1 then s.fabRuns && decide (b.time ≤ s.tickcnt + 1)
        else if b.mode = 2 then decide (b.time ≤ s.syscnt) else true)

/-- The response that the lowering of CORE waits for: that of the frame whose operation waits for the outcome (R310). -/
def State.reportsIn (s : State) (k : Nat) : Option (Fin 4 × Nat) :=
  let b : Bib := s.bibAt k
  let p : Fin 4 := Fin.ofNat 4 b.port
  let waits (w : Wait) : Bool := match w with
    | .outcome v => v == b.value
    | .power _ => b.state == .implicit
    | .retry | .wake | .image _ | .ready _ | .behind => false
  if s.ports[p].waiting.any fun (x : WaitOp) => waits x.wait then
    (s.ports[p].frames.head?).map fun (f : CmdFrame) => (p, f.seq)
  else none

/-- The rank in which a staged word applies: what a start checks comes before it (03_serial_audio_ports.md R72), with the words of
alignment groups just before it, and an input that asks for phantom power comes by its number
(06_microphone_and_line_inputs.md R133) (DEDUCED, notes/assumptions/56.md). -/
def applyRank (a : Nat) : Nat :=
  match (List.range 32).find? fun n => a == Adr.SAP_CTRL n with
  | some _ => 18
  | none => if isGrpReg a then 17 else match (List.range 16).find? fun n => a == Adr.AIN_PHANTOM n with
    | some n => 1 + n
    | none => 0

/-- Staged words in the order in which they apply: by rank, and in staging order within one. -/
def applyOrder (ws : List WordOp) : List WordOp := (List.range 19).flatMap fun r => ws.filter fun w => applyRank w.addr == r

/-- The lines that a commit brings to life have the tick that begins with it as their tick T (03_serial_audio_ports.md R79). -/
def State.startsIn (s t : State) : State :=
  (List.finRange 32).foldl (fun u n => (List.finRange 2).foldl (fun v k =>
    if (v.line n k).live && !(s.line n k).live then v.updLine n k fun l => { l with startTick := l.startTick + 1 } else v) u) t

/-- The entries of the bib in slot `k` apply in their order, a swap after the rest of them (R176, R354)
(DEDUCED, notes/assumptions/56.md). -/
def State.applyEntries (s : State) (k : Nat) : State :=
  let p : Fin 4 := Fin.ofNat 4 (s.bibAt k).port
  let ws := s.opsOf k
  let run (l : List WordOp) (u : State) : State := l.foldl (fun t w => t.applyWrite p w.addr (w.value t)) u
  let early := (applyOrder ws).filter fun w => w.addr != Adr.FAB_SWAP && applyRank w.addr < 17
  let groups := (List.finRange 8).foldl (fun (u : State) (g : Fin 8) =>
    if ws.any fun w => isGrpCfg g w.addr then (u.grpStaged g ws).2.grpApply g else u) (run early s)
  let t := run (ws.filter fun w => applyRank w.addr == 18) groups
  if s.swapStaged ws then t.swapApply else t

/-- The entries of the bib in slot `k` stay used, and its pages in flight, to the end of the tick (R352, R360). -/
def State.spendEntries (s : State) (k : Nat) : State :=
  let es := s.txn.entriesOf (s.bibAt k).value
  let v := (s.bibAt k).value
  { s with txn := { s.txn with staging := s.txn.staging.filter fun e => e.bib != v, applied := s.txn.applied ++ es,
                               flightEnd := s.txn.flightEnd ++ s.pagesOf k } }

/-- The TICKCNT of the tick that begins: 0 in the fabric's first (07_fabric_schedule.md R161). -/
def State.applyTick (s : State) : Nat := if s.fabRuns then s.tickcnt + 1 else if s.startsNow then 0 else s.tickcnt

/-- The bib in slot `k` in its apply tick (DEDUCED, notes/assumptions/59.md)
(DEDUCED, notes/assumptions/58.md). -/
def State.applyBib (s : State) (k : Nat) : State := s.inOneCycle fun s =>
  let gs := s.pagesOf k
  let swap := s.swapStaged (s.opsOf k)
  let off (g : Nat) : Bool := !s.pageOn g
  if s.stillWaking k then (if swap then s.swapDrop else s).wakesUndo.failBib k St.TOO_LATE 0
  else match gs.find? off with
    | some g =>
      let t := if swap then s.swapDrop else s
      (if t.ownsChange k then t.changeEnd false else t).failBib k St.DOMAIN_DOWN g
    | none =>
      let own := s.ownsChange k
      let after := s.reportsIn k
      let tick := s.applyTick
      let r := s.updBib k fun b => { b with reserved := 0 }
      let t := r.startsIn (r.applyEntries k)
      let u := ((gs.foldl State.bumpVer t).spendEntries k).commitBib k tick
      if own then u.updChange fun c => { c with phase := .lower, coreAfter := after } else u

/-- The end of a tick: applied entries are freed, implicit bibs that applied too, pages end their flight, granules of groups return, lowering begins (R108, R310,
R352, R360). -/
def State.tickClose (s : State) : State :=
  let t := s.txn.applied.foldl State.entryClear { s with txn := { s.txn with applied := [], flightEnd := [] } }
  { t with grps := t.grps.map fun (q : Grp) => { q with leaving := [] },
           txn := { t.txn with bibs := t.txn.bibs.map fun (b : Bib) => if b.state == BibState.ending then Bib.none_ else b } }.lowerOn

/-- Whether the bib in slot `k` names no time and writes pages of the fabric only (07_fabric_schedule.md R163)
(DESIGN CHOICE, notes/assumptions/46.md). -/
def State.fabricOnly (s : State) (k : Nat) : Bool :=
  (s.bibAt k).mode == 0 && !(s.pagesOf k).isEmpty && (s.pagesOf k).all fun g => g == fabPage || g == mixPage || g == procPage

/-- A transaction that has passed while the PLL is not ON applies at once when it is due (R358); so does one that writes the fabric
alone while the fabric is STOPPED (07_fabric_schedule.md R163). -/
def State.applyAtOnce (s : State) (k : Nat) : State :=
  if !s.domOn Dm.PLL && s.applyDue k then (s.flushParams.applyBib k).tickClose
  else if s.fabState = .stopped ∧ s.fabricOnly k ∧ s.applyDue k then s.applyBib k
  else s

/-- The vote of the bib in slot `k` has ended in agreement. -/
def State.voteWon (s : State) (k : Nat) : State := (s.bibPassed k).applyAtOnce k

/-- The checks of Table 15.3 in order, for the bib in slot `k` in tick `now`, whose boundary came at `edge`. -/
def State.bibChecks (s : State) (k now edge : Nat) : State :=
  let ws := s.opsOf k
  let chg := s.targetChanges ws
  let b : Bib := s.bibAt k
  if s.bibLate b now edge then s.failBib k St.TOO_LATE 0
  else match s.pageFault k chg with
    | some (st, g) => s.failBib k st g
    | none =>
      match s.swapAdmit ws with
      | (some st, t) => t.failBib k st 0
      | (none, t) =>
        let swap := s.swapStaged ws
        match t.granulesNeeded ws with
        | none => t.bibFails k St.GRANULES 0 swap
        | some n =>
          let u := t.updBib k fun x => { x with reserved := n }
          if chg.isEmpty then (u.bibPassed k).applyAtOnce k
          else match u.changeFault chg with
            | some (c, d) => (u.changeRefused c d).bibFails k St.REFUSED 0 swap
            | none =>
              let v := u.changeBegin k chg
              if (votersOf (u.loweredBy chg)).isEmpty then v.voteWon k else v

/-- The validation of the bib in slot `k`, or its wait (R359, R360). -/
def State.validate (s : State) (k now edge : Nat) : State :=
  if s.bibBlocked k then s.updBib k fun b => { b with waitsPage := true }
  else (s.updBib k fun b => { b with waitsPage := false }).bibChecks k now edge

/-! ## Timed commits (R357) -/

/-- K of R357 in ticks. -/
def State.leadTicks (s : State) : Nat := ceilDiv (s.fld Fd.TXN_CFG_LEAD * s.fc) 1000000

/-- LEAD in thousandths of a SYSCNT count. -/
def State.leadCounts (s : State) : Nat := s.fld Fd.TXN_CFG_LEAD * 98304

/-- Whether the validation time of a bib scheduled for MODE `m` and time `x` has passed
(DEDUCED, notes/assumptions/55.md). -/
def State.timePassed (s : State) (m x : Nat) : Bool :=
  if m = 1 then decide (x ≤ s.tickcnt + s.leadTicks)
  else if s.domOn Dm.PLL then decide (x * 1000 ≤ s.boundary * 1000 + s.leadCounts)
  else decide (x * 1000 ≤ s.syscnt * 1000 + s.leadCounts)

/-- Whether the validation time of a SCHEDULED bib begins now (DEDUCED, notes/assumptions/55.md). -/
def State.validationDue (s : State) (b : Bib) : Bool :=
  if b.mode = 1 then decide (b.time ≤ s.tickcnt + 1 + s.leadTicks)
  else decide (b.time * 1000 ≤ s.syscnt * 1000 + s.leadCounts)

/-! ## Aborts by the host and at the end of a session (R363, Table 15.4) -/

/-- Whether a commit of MODE 0 for bib `v` that port `p` has accepted is still to have its outcome (R368). -/
def State.commitQueued (s : State) (p : Fin 4) (v : Nat) : Bool :=
  let is (op : Instr) : Bool := match op with
    | .txnCommit _ b mode _ => b.toNat == v && mode == 0
    | _ => false
  (s.ports[p].waiting.any fun (x : WaitOp) => is x.op) || s.ports[p].frames.tail.any fun (f : CmdFrame) => f.ops.any is

/-- Whether the bib in slot `k` goes on to its outcome although its session ends (R363, R368). -/
def State.goesOn (s : State) (k : Nat) : Bool :=
  let b : Bib := s.bibAt k
  s.voted k || (b.state == .opened && s.commitQueued (Fin.ofNat 4 b.port) b.value)

/-- The OPEN and SCHEDULED bibs of a port abort with a status, but for those that go on to their outcome. -/
def State.abortPending (s : State) (p : Fin 4) (status : Nat) : State :=
  (List.range 64).foldl (fun t k =>
    let b : Bib := t.bibAt k
    if b.port = p.val ∧ (b.state = .opened ∨ b.state = .scheduled) ∧ !t.goesOn k then t.abortBib k status 0 else t) s

/-- The retained bibs of a port are retired; one that goes on to its outcome retires then
(DEDUCED, notes/assumptions/57.md). -/
def State.retirePort (s : State) (p : Fin 4) : State :=
  (List.range 64).foldl (fun t k =>
    let b : Bib := t.bibAt k
    if b.port = p.val ∧ b.retained then t.freeBib k
    else if b.port = p.val ∧ t.goesOn k then t.updBib k fun x => { x with orphan := true } else t) s

/-! ## Votes (R307, R308) -/

/-- The slot of the bib whose change is under way. -/
def State.changeSlot (s : State) : Option Nat :=
  (List.range 64).find? fun k => (s.bibAt k).state != .free && s.ownsChange k

/-- The voter that is asked refuses with a cause. -/
def State.voteLost (s : State) (cause : Nat) : State :=
  match s.change, s.changeSlot with
  | some c, some k =>
    (match c.voters with
      | (d, g) :: _ =>
        let swap := s.swapStaged (s.opsOf k)
        ((({ s with change := none }.voteRecord d g cause).bibFails k St.REFUSED 0 swap).wakersRetry).liftStart
      | [] => s)
  | _, _ => s

/-- The voter that is asked answers; `arriving`: a frame is arriving on the port whose page it is. -/
def State.voteAnswer (s : State) (arriving : Bool) : State :=
  match s.change, s.changeSlot with
  | some c, some k =>
    (match c.phase, c.voters with
      | .vote, (d, g) :: rest =>
        let cause := s.voteOf (s.bibAt k).value g d arriving
        if cause ≠ 0 then s.voteLost cause
        else
          let t := s.updChange fun q => { q with voters := rest, agreed := q.agreed ++ [(d, g)] }
          if rest.isEmpty then t.voteWon k else t
      | .vote, [] | .wake, _ | .wait, _ | .lower, _ => s)
  | _, _ => s

/-! ## Wakes (R310, R313, R318) -/

/-- The TARGET of every woken domain becomes ON, and PWR's version moves once (R313, R318). -/
def State.targetsOn (s : State) (ds : List Nat) : State :=
  (ds.foldl (fun (t : State) d => t.setFld (Fd.PWR_DOM_CTRL_TARGET d) 2) s).bumpVer pwrPage

/-- Every domain of a change is ON. -/
def State.wakesOver (s : State) : State :=
  match s.change with
  | none => s
  | some c =>
    let t := s.updChange fun q => { q with phase := .wait }
    match c.cause with
    | .lift => (t.targetsOn (c.woken.map (·.1))).changeEnd false
    | .access _ _ => (t.raise pwrPage PwrEv.WOKEN).wakersRetry
    | .txn _ | .direct _ _ =>
      match t.changeSlot with
      | some k => t.applyAtOnce k
      | none => t

/-- The implicit change of a wake applies: its TARGETs, one version, and its bib is freed (R313). -/
def State.accessApply (s : State) : State :=
  match s.change with
  | none => s
  | some c =>
    match c.cause with
    | .access _ v =>
      let t := (s.targetsOn (c.woken.map (·.1))).changeEnd true
      match t.slotOf v with
      | some k => t.freeBib k
      | none => t
    | .txn _ | .direct _ _ | .lift => s

/-- SCHEDULED bibs whose validation fell while CORE was not ON are to validate (R364). -/
def State.missedValidations (s : State) : State :=
  { s with txn := { s.txn with bibs := s.txn.bibs.map fun (b : Bib) =>
    if b.state == .scheduled && s.timePassed b.mode b.time then { b with waitsPage := true } else b } }

/-- The domain that is waking reaches ON, and the next starts (DEDUCED, notes/assumptions/58.md)
(DEDUCED, notes/assumptions/55.md). -/
def State.wakeDone (s : State) : State :=
  match s.wakingNow, s.change with
  | some (d, off), some c =>
    (match c.phase with
      | .wake =>
        let t := if d = Dm.CORE then (s.reachOn d off).missedValidations else s.reachOn d off
        if c.wakes.isEmpty then
          let u := t.wakesOver
          (match c.cause with
            | .access _ _ => if u.domOn Dm.PLL then u else u.accessApply
            | .txn _ | .direct _ _ | .lift => u)
        else t.wakeNext
      | .vote | .wait | .lower => s)
  | _, _ => s

end Sys2Proof.Machine
end

