-- ==== Sys2Proof/Machine/Sessions.lean ====
section
/-!
DEFINITION. The session of a control port and its counts (14_control_ports.md R336–R344, Table 14.8).
-/
namespace Sys2Proof.Machine

/-- The page of port `p`. -/
abbrev cpPage (p : Fin 4) : Nat := 0x008 + p.val

/-! The events of a CP page (Table 14.13). -/
namespace CpEv
abbrev OPENED := 0
abbrev RESUMED := 1
abbrev EXPIRED := 2
abbrev GRACE_END := 3
abbrev CLOSED := 4
end CpEv

/-! ## Counts (R339) -/

/-- Ring `i` gives up all its entries. -/
def State.ringEmpty (s : State) (i : Nat) : State := s.updRing i fun r => { r with cons := r.prod }

/-- The device puts an entry into ring `i`, a command or response ring; its 16 bytes have no stated layout
(DEDUCED, notes/assumptions/62.md). -/
def State.ringFrame (s : State) (i : Nat) : State :=
  let (bs, t) := s.freeBytes 16
  let r := t.ring i
  (t.setBytes (r.entryAddr i r.prod) bs).ringGive i 1

/-- No lowering of CORE waits any longer for a response of port `p`; it begins at the end of the apply tick at the earliest
(DEDUCED, notes/assumptions/31.md). -/
def State.coreGoesOn (s : State) (p : Fin 4) : State :=
  match s.change with
  | none => s
  | some c =>
    match c.coreAfter with
    | none => s
    | some (q, _) =>
      let t : State := { s with change := some { c with coreAfter := none } }
      if q ≠ p then s else if s.txn.flightEnd.isEmpty then t.lowerOn else t

/-- The oldest frame of port `p` starts: its operations are next to run (R333). -/
def State.startFrame (s : State) (p : Fin 4) : State :=
  s.updPort p fun q => match q.frames with
    | f :: _ => { q with results := [], waiting := q.waiting ++ f.ops.map fun op => ⟨op, .behind, true, f.turn⟩ }
    | [] => { q with results := [] }

/-- Whether every operation of the oldest frame of a port has its result. -/
def Port.frameOver (q : Port) : Bool :=
  match q.frames with
  | f :: _ => f.ops.length ≤ q.results.length
  | [] => false

/-- Frames of port `p` that are over and get no response make way for the next. -/
def State.voidNext (p : Fin 4) : Nat → State → State
  | 0, s => s
  | n + 1, s =>
    match s.ports[p].frames with
    | f :: rest =>
      if f.void && s.ports[p].frameOver then State.voidNext p n ((s.updPort p fun q => { q with frames := rest }).startFrame p) else s
    | [] => s

/-- The next place in the order of acceptance: behind every frame and operation that is still to run. -/
def State.nextTurn (s : State) : Nat :=
  1 + (s.ports.toList.flatMap fun (q : Port) => q.frames.map (·.turn) ++ q.waiting.map (·.turn)).foldl max 0

/-- The counts of port `p` become 16, 0, 0; the kept response and the responses in flight are discarded, and no frame without a
response gets one (Table 14.8) (DEDUCED, notes/assumptions/65.md). -/
def State.countsReset (s : State) (p : Fin 4) : State :=
  let t := s.updPort p fun q =>
    { q with held := 16, queued := 0, inflight := 0, flying := [], kept := none, last := none, replayDue := false,
             out := q.out.filter fun r => !r.counted,
             frames := q.frames.map fun (f : CmdFrame) => { f with void := true },
             xportPend := q.xportPend.map fun x => (x.1, none) }
  State.voidNext p s.ports[p].frames.length ((t.ringEmpty p).ringEmpty (4 + p))

/-! ## The lease (R343, R344) -/

/-- The lease that a LEASE_MS stands for. -/
def leaseAdjust (ms : Nat) : Nat := if ms = 0 then 2000 else if ms < 100 then 100 else min ms 60000

/-- The timer of port `p` starts from a lease of `ms` milliseconds. -/
def State.leaseStart (s : State) (p : Fin 4) (ms : Nat) : State :=
  s.updPort p fun q => { q with lease := ms, leaseMark := s.syscnt, leaseLeft := msCounts ms, leaseLow := false }

/-- The timer of port `p` stands at `left` counts. -/
def State.leaseAt (s : State) (p : Fin 4) (left : Nat) : State :=
  s.updPort p fun q => { q with leaseMark := s.syscnt, leaseLeft := left }

/-! ## The end of a session -/

/-- The claims of port `p` are released. -/
def State.claimsFree (s : State) (p : Fin 4) : State := { s with claims := s.claims.filter fun e => e.2 != p.val }

/-- The session of port `p` becomes `x`, with no frame expected (DESIGN CHOICE, notes/assumptions/64.md). -/
def State.sessionLeave (s : State) (p : Fin 4) (x : Session) : State :=
  s.updPort p fun q => { q with session := x, next := 0, leaseLow := false }

/-- LEASE with LEASE_MS = 0 closes the session (Table 14.8). -/
def State.sessionClose (s : State) (p : Fin 4) : State :=
  if s.ports[p].session = .opened then
    s.inOneCycle fun s =>
      ((((s.abortPending p St.ABORTED_BY_HOST).claimsFree p).sessionDrop p).countsReset p |>.sessionLeave p .none).raise (cpPage p)
        CpEv.CLOSED
  else s

/-- The lease of port `p` expires (Table 14.8) (DEDUCED, notes/assumptions/31.md). -/
def State.sessionExpire (s : State) (p : Fin 4) : State := s.inOneCycle fun s =>
  let t := (((s.abortPending p St.LEASE_EXPIRED).sessionDrop p).countsReset p).sessionLeave p .grace
  (((t.leaseAt p (msCounts t.ports[p].lease)).countSat (Fd.CP_SES_CNT_EXPIRED p) 1).raise (cpPage p) CpEv.EXPIRED).coreGoesOn p

/-- The grace of port `p` ends (Table 14.8). -/
def State.graceEnd (s : State) (p : Fin 4) : State :=
  ((s.claimsFree p).sessionLeave p .none).raise (cpPage p) CpEv.GRACE_END

/-! ## Accepting a frame (Table 14.7 step 10) -/

/-- A frame of port `p` is accepted. -/
def State.acceptFrame (s : State) (p : Fin 4) (seq : Nat) (body : List Byte) (ops : List Instr) : State :=
  let t := ((s.countWrap (Fd.CP_RX_CNT_FRAMES p) 1).ringFrame p).leaseStart p s.ports[p].lease
  let u := t.updPort p fun q =>
    { q with held := q.held - 1, queued := q.queued + 1, next := (seq + 1) % 65536, last := some ⟨seq, body⟩, kept := none,
             replayDue := false, frames := q.frames ++ [⟨seq, ops, false, s.nextTurn⟩] }
  if s.ports[p].frames.isEmpty then u.startFrame p else u

/-- A HELLO of port `p` is accepted: the session opens or reopens (Table 14.8, R343)
(DESIGN CHOICE, notes/assumptions/6.md) (DEDUCED, notes/assumptions/31.md). -/
def State.helloAccept (s : State) (p : Fin 4) (seq : Nat) (ms host : Word) (body : List Byte) : State := s.inOneCycle fun s =>
  let q := s.ports[p]
  let same : Bool := host != 0 && host.toNat == q.hostId
  let resumed : Bool := same && q.session != .none
  let t := if q.session = .opened then s.abortPending p St.ABORTED_BY_HOST else s
  let t := if same then t else t.retirePort p
  let t := if resumed then t else (t.claimsFree p).sessionDrop p
  let t := (t.countsReset p).updPort p fun x =>
    { x with session := .opened, hostId := host.toNat, resumed := resumed, lease := leaseAdjust ms.toNat }
  let t := if resumed then t else t.ringEmpty (8 + p)
  ((t.raise (cpPage p) (if resumed then CpEv.RESUMED else CpEv.OPENED)).acceptFrame p seq body [.hello p (BitVec.ofNat 16 seq) ms host]).coreGoesOn p

end Sys2Proof.Machine
end

