-- ==== Sys2Proof/Machine/PortOps.lean ====
section
/-!
DEFINITION. The operations of a control port, what they wait for, and the order in which waiting work goes on
(14_control_ports.md R331–R335; 15_transactions_and_hosts.md; 16_rings_events_books.md R374; 13_power_domains.md R313).
-/
namespace Sys2Proof.Machine

/-! ## How an operation ends -/

/-- How a step of an operation ends: with a result; with a wait, and a bib whose validation begins; with a domain that AUTOWAKE is to
wake first; or with a reset of the device. -/
inductive OpEnd where
  | done (status : Nat) (data : List Byte)
  | waits (w : Wait) (start : Option Nat)
  | wakes (d : Nat)
  | gone
deriving DecidableEq, Repr

/-- An operation that has its result. -/
abbrev opOk (data : List Byte) : OpEnd := .done St.OK data

/-! ## Waking a domain for an access (R313) -/

/-- The first address whose domain is not ON, where AUTOWAKE is to wake it. -/
def State.wakeWanted (s : State) (a : Nat) : Option Nat :=
  match addrDomain a with
  | some d => if !s.domOn d && d < 27 && s.flag (Fd.PWR_DOM_CTRL_AUTOWAKE d) then some d else none
  | none => none

/-- Whether the word at `a` lies in a domain that is not ON. -/
def State.wordDown (s : State) (a : Nat) : Bool := (addrDomain a).any fun d => !s.domOn d

/-- The implicit wake of domain `d` for port `p`: whether the access is held for it, or is refused. -/
def State.wakeFor (s : State) (p : Fin 4) (d : Nat) : Bool × State :=
  if s.change.isSome then (true, s)
  else
    let ds := (requiresAll d).filter fun x => !s.domOn x
    let named := ((ds.find? fun x => s.fld (Fd.PWR_DOM_CTRL_TARGET x) != 2).getD (ds.headD d))
    match s.takeBib p true with
    | (none, _) => (false, s.changeRefused Cause.NO_BIB named)
    | (some k, t) =>
      if s.pvdd < 850 then (false, (t.freeBib k).changeRefused Cause.SUPPLY named)
      else
        let v := (t.bibAt k).value
        let u := t.updBib k fun b => { b with status := St.IN_FLIGHT }
        (true, { u with change := some ⟨.access p v, .wake, ds.map fun x => (x, 2), [], [], ds, [], [], none, false⟩ }.wakeNext)

/-! ## Reads and writes (R334, R335, R351) -/

/-- The words of a WR. -/
def dataWords (a : Nat) : List Byte → List WordOp
  | b0 :: b1 :: b2 :: b3 :: bs => ⟨a % 2 ^ 32, none, ofBytesLE [b0, b1, b2, b3]⟩ :: dataWords (a + 4) bs
  | _ => []

/-- RD. -/
def State.rdRun (s : State) (p : Fin 4) (a n : Nat) (down : Option Nat) : OpEnd × State :=
  if a % 4 ≠ 0 ∨ n % 4 ≠ 0 ∨ n = 0 then (.done St.BAD_LEN [], s)
  else match down, (List.range (n / 4)).findSome? fun i => s.wakeWanted (a + 4 * i) with
    | none, some d => (.wakes d, s)
    | _, _ =>
      let (st, bs, t) := s.readWords p a (n / 4)
      let first := ((List.range (n / 4)).map fun i => a + 4 * i).find? s.wordDown
      (.done (if st = St.DOMAIN_DOWN ∧ first.any fun x => (s.wakeWanted x).isSome then down.getD st else st) bs, t)

/-- Whether a direct write of the word at `a`, by port `p` where one makes it, waits (R309, R360). -/
def State.wordBlocked (s : State) (p : Option (Fin 4)) (a : Nat) : Bool := s.changeBlocks p a || ((inPages a || inParams a) && s.inFlight (governs a))

/-- The data of the result of a write: the applied value for an RMW. -/
def State.writeData (s : State) (ws : List WordOp) : List Byte × State :=
  match ws with
  | [⟨a, some _, _⟩] => s.appliedBytes a
  | _ => ([], s)

/-- A write is refused: no word applies; a refused RMW returns the applied value as well. -/
def State.writeRefused (s : State) (ws : List WordOp) (st : Nat) : OpEnd × State :=
  let (bs, t) := s.writeData ws
  (.done st bs, t)

/-- A register of CRC25 other than OWN that takes no write is written by a port that does not own the engine
(12_crc_engines.md R299). -/
def State.crcForeign (s : State) (p : Fin 4) (a st : Nat) : State :=
  if st = St.READ_ONLY ∧ Adr.CRC_CFG 25 ≤ a ∧ a < Adr.CRC_OWN 25 ∧ s.crcOwner ≠ some (.host p) then s.setErr crcPage 0 else s

/-- The first refused word of a write: AUTOWAKE wakes its domain, or the write is refused and logged
(DEDUCED, notes/assumptions/54.md). -/
def State.wordRefused (s : State) (p : Fin 4) (ws : List WordOp) (down : Option Nat) (bad : Nat × Nat × Option AccessKind) : OpEnd × State :=
  let (a, st, k) := bad
  let fails (status : Nat) : OpEnd × State :=
    ((match k with
      | some x => s.logAccess x p true a
      | none => s).crcForeign p a st).writeRefused ws status
  if st = St.DOMAIN_DOWN then
    match s.wakeWanted a, down with
    | some d, none => (.wakes d, s)
    | some _, some x => fails x
    | none, _ => fails st
  else fails st

/-- The words that a transaction stages, and those that apply at once (R351). -/
abbrev stagedWords (ws : List WordOp) : List WordOp := ws.filter fun w => stageable w.addr
abbrev plainWords (ws : List WordOp) : List WordOp := ws.filter fun w => !stageable w.addr

/-- Whether the entries of a write exceed those that are free (R352). -/
def State.entriesShort (s : State) (ws : List WordOp) : Bool := decide (8192 < s.txn.used.length + entriesNeeded (stagedWords ws))

/-- The words of a write go into the bib in slot `k`: some at once, the others staged
(DEDUCED, notes/assumptions/28.md). -/
def State.writeInto (s : State) (p : Fin 4) (k : Nat) (ws : List WordOp) : State :=
  (((State.applyWords p (plainWords ws) s).2.bumpWords p (plainWords ws))).stageWords k (stagedWords ws)

/-- A direct write that makes an implicit transaction of all its words (R185, R305, R350)
(DEDUCED, notes/assumptions/58.md). -/
def State.implicitRun (s : State) (p : Fin 4) (ws : List WordOp) : OpEnd × State :=
  match s.takeBib p true with
  | (none, _) => s.writeRefused ws St.REFUSED
  | (some k, t) =>
    if s.entriesShort ws then s.writeRefused ws St.STAGING_FULL
    else
      let (data, u) := t.writeData ws
      (.waits (.power data) (some k), u.writeInto p k ws)

/-- A direct WR or RMW (R335, R355). -/
def State.directRun (s : State) (p : Fin 4) (ws : List WordOp) (down : Option Nat) : OpEnd × State :=
  if ws.any fun w => s.wordBlocked (some p) w.addr then (.waits .retry none, s)
  else match s.firstBad p false ws with
    | some bad => s.wordRefused p ws down bad
    | none =>
      if ws.any s.implicitWord then s.implicitRun p ws
      else
        let (data, r) := s.writeData ws
        let (short, t) := State.applyWords p ws r
        if short then s.writeRefused ws St.GRANULES
        else if resetBegan s t then (.gone, t)
        else if t.boot.check.isSome && s.boot.check.isNone then (.waits (.image data) none, t.bumpWords p ws)
        else (opOk data, t.bumpWords p ws)

/-- A WR or RMW with a bib (R347, R351, R352). -/
def State.stagedRun (s : State) (p : Fin 4) (v : Nat) (ws : List WordOp) (down : Option Nat) : OpEnd × State :=
  match s.ownBib p v with
  | none => s.writeRefused ws St.UNKNOWN_BIB
  | some k =>
    let b : Bib := s.bibAt k
    if b.state ≠ .opened then s.writeRefused ws b.report
    else if (plainWords ws).any fun w => s.wordBlocked (some p) w.addr then (.waits .retry none, s)
    else match s.firstBad p true ws with
      | some bad => s.wordRefused p ws down bad
      | none =>
        if s.entriesShort ws then (s.abortBib k St.STAGING_FULL 0).writeRefused ws St.STAGING_FULL
        else
          let (data, t) := s.writeData ws
          let u := t.writeInto p k ws
          if resetBegan s u then (.gone, u)
          else if u.boot.check.isSome && s.boot.check.isNone then (.waits (.image data) none, u) else (opOk data, u)

/-- WR or RMW. -/
def State.writeRun (s : State) (p : Fin 4) (v : Nat) (ws : List WordOp) (down : Option Nat) : OpEnd × State :=
  if v = 0 then s.directRun p ws down else s.stagedRun p v ws down

/-! ## Transactions and claims (R346–R365) -/

/-- TXN_OPEN
(DEDUCED, notes/assumptions/66.md). -/
def State.openRun (s : State) (p : Fin 4) : OpEnd × State :=
  if s.mayOpen p then
    match s.takeBib p false with
    | (some k, t) => (opOk (bytesLE 2 (t.bibAt k).value ++ [0, 0]), t)
    | (none, _) => (.done St.STAGING_FULL [0, 0, 0, 0], s)
  else (.done St.STAGING_FULL [0, 0, 0, 0], s)

/-- The result data for a bib that the port does not hold
(DEDUCED, notes/assumptions/66.md). -/
def unknown20 (v : Nat) : List Byte := bytesLE 2 v ++ List.replicate 18 0

/-- TXN_COMMIT (R357, R362). -/
def State.commitRun (s : State) (p : Fin 4) (v mode time : Nat) : OpEnd × State :=
  match s.ownBib p v with
  | none => (.done St.UNKNOWN_BIB (unknown20 v), s)
  | some k =>
    let b : Bib := s.bibAt k
    if b.state ≠ .opened then (.done b.report b.report20, s)
    else if 2 < mode then (.done St.BAD_OP b.report20, s)
    else if mode = 0 then (.waits (.outcome v) (some k), s)
    else
      let t := s.updBib k fun x => { x with state := .scheduled, mode := mode, time := time }
      (.done St.PENDING b.report20, if t.timePassed mode time then t.validate k t.tickcnt t.boundary else t)

/-- TXN_ABORT (R363). -/
def State.abortRun (s : State) (p : Fin 4) (v : Nat) : OpEnd × State :=
  match s.ownBib p v with
  | none => (.done St.UNKNOWN_BIB [], s)
  | some k =>
    let b : Bib := s.bibAt k
    if s.voted k then (.waits .retry none, s)
    else if b.state = .opened ∨ b.state = .scheduled then (opOk [], s.abortBib k St.ABORTED_BY_HOST 0)
    else (.done b.report [], s)

/-- TXN_STATUS (R348, R349). -/
def State.statusRun (s : State) (p : Fin 4) (v : Nat) (retire : Bool) : OpEnd × State :=
  match s.ownBib p v with
  | none => (.done St.UNKNOWN_BIB (unknown20 v), s)
  | some k =>
    let b : Bib := s.bibAt k
    (.done b.report b.report20, if retire && b.retained then s.freeBib k else s)

/-- CLAIM (R365). -/
def State.claimRun (s : State) (p : Fin 4) (g : Nat) : OpEnd × State :=
  if !pageDefined g then (.done St.NO_SUCH_PAGE [], s)
  else if s.inFlight g then (.waits .retry none, s)
  else match s.claimOf g with
    | none => (opOk [], { s with claims := s.claims ++ [(g, p.val)] })
    | some q => (.done (if q = p.val then St.OK else St.CLAIMED) [], s)

/-- RELEASE (R365). -/
def State.releaseRun (s : State) (p : Fin 4) (g : Nat) : OpEnd × State :=
  if !pageDefined g then (.done St.NO_SUCH_PAGE [], s)
  else if s.inFlight g then (.waits .retry none, s)
  else match s.claimOf g with
    | none => (opOk [], s)
    | some q => if q = p.val then (opOk [], { s with claims := s.claims.filter fun e => e.1 != g }) else (.done St.CLAIMED [], s)

/-! ## Rings (R374) -/

/-- Whether RING_PULL by port `p` may use ring `r`. -/
def pullAllowed (p : Fin 4) (r : Nat) : Bool := r = 8 + p.val || (12 ≤ r && r ≤ 23) || (25 ≤ r && r ≤ 29)

/-- RING_PULL
(DEDUCED, notes/assumptions/66.md). -/
def State.pullRun (s : State) (p : Fin 4) (r max : Nat) : OpEnd × State :=
  if !pullAllowed p r then (.done St.READ_ONLY [0, 0, 0, 0], s)
  else
    let q := s.ring r
    let n := if q.enable then min max q.fill else 0
    (opOk (bytesLE 2 n ++ [0, 0] ++ s.ringEntries r n), s.ringTake r n)

/-- RING_PUSH (DEDUCED, notes/assumptions/62.md). -/
def State.pushRun (s : State) (p : Fin 4) (r : Nat) (bs : List Byte) : OpEnd × State :=
  if ¬ (r = 24 ∨ r = 30 ∨ r = 31) then (.done St.READ_ONLY [0, 0, 0, 0], s)
  else
    let q := s.ring r
    let e := ringEsize r q.pack
    let count := bs.length / e
    if !q.enable then (opOk [0, 0, 0, 0], s.ringLose r count)
    else
      let n := min count (q.size - q.fill)
      let put (t : State) (j : Nat) : State := t.setBytes (q.entryAddr r (q.prod + BitVec.ofNat 32 j)) ((bs.drop (j * e)).take e)
      (opOk (bytesLE 2 n ++ [0, 0]), (((List.range n).foldl put s).ringHostGive p r n).ringLose r (count - n))

/-! ## Sessions (R343, R344) -/

/-- The result data of the LEASE that closes the session when its frame has completed. -/
abbrev closeData : List Byte := [0, 0, 0, 0]

/-- LEASE (DESIGN CHOICE, notes/assumptions/6.md). -/
def State.leaseRun (s : State) (p : Fin 4) (ms : Nat) : OpEnd × State :=
  if ms = 0 then (opOk closeData, s)
  else (opOk (bytesLE 4 (leaseAdjust ms)), s.leaseStart p (leaseAdjust ms))

/-- The result data of HELLO (Table 14.6). -/
def State.helloData (s : State) (p : Fin 4) : List Byte :=
  bytesLE 2 0x9648 ++ [BitVec.ofNat 8 Config.stepping, BitVec.ofNat 8 s.mode.code] ++ bytesLE 4 s.ports[p].lease
    ++ [BitVec.ofNat 8 p, BitVec.ofNat 8 (bit s.ports[p].resumed)] ++ bytesLE 2 (if p = 2 then 256 else 1024)
    ++ bytesLE 2 s.index ++ [0, 0]

/-! ## One operation -/

/-- One attempt at an operation of port `p`; `down` is what a domain that is not ON reports, none while AUTOWAKE may wake it. -/
def State.opBody (s : State) (p : Fin 4) (op : Instr) (down : Option Nat) : OpEnd × State :=
  match op with
  | .hello _ _ _ _ => (opOk (s.helloData p), s)
  | .lease _ ms => s.leaseRun p ms.toNat
  | .rd _ a n => s.rdRun p a.toNat n.toNat down
  | .wr _ a v bs =>
    if a.toNat % 4 ≠ 0 ∨ bs.length % 4 ≠ 0 ∨ bs = [] then (.done St.BAD_LEN [], s)
    else s.writeRun p v.toNat (dataWords a.toNat bs) down
  | .rmw _ a v m x =>
    let ws : List WordOp := [⟨a.toNat, some m.toNat, x.toNat⟩]
    if a.toNat % 4 ≠ 0 then let (bs, t) := s.freeBytes 4; (.done St.BAD_LEN bs, t) else s.writeRun p v.toNat ws down
  | .txnOpen _ => s.openRun p
  | .txnCommit _ v mode time => s.commitRun p v.toNat mode.toNat time.toNat
  | .txnAbort _ v => s.abortRun p v.toNat
  | .txnStatus _ v retire => s.statusRun p v.toNat retire
  | .claim _ g => s.claimRun p g.toNat
  | .release _ g => s.releaseRun p g.toNat
  | .ringPull _ r n => s.pullRun p r.toNat n.toNat
  | .ringPush _ r bs => s.pushRun p r.toNat bs
  | .powerChange _ ws => s.directRun p (ws.map fun w => ⟨Adr.PWR_DOM_CTRL w.1, none, w.2.toNat⟩) down
  | _ => (opOk [], s)

/-- An operation, with the wake that it asks for (R313). -/
def State.opRun (s : State) (p : Fin 4) (op : Instr) : OpEnd × State :=
  match s.opBody p op none with
  | (.wakes d, t) =>
    (match t.wakeFor p d with
      | (true, u) => (.waits .wake none, u)
      | (false, u) => u.opBody p op (some St.REFUSED))
  | (.done st data, t) => (.done st data, t)
  | (.waits w k, t) => (.waits w k, t)
  | (.gone, t) => (.gone, t)

/-! ## Waiting work (R333) -/

/-- The result of the oldest operation of port `p`, which leaves the queue and, of a frame, joins the frame's results; a closing LEASE of
no frame closes at once (DESIGN CHOICE, notes/assumptions/5.md) (DESIGN CHOICE, notes/assumptions/6.md). -/
def State.opDone (s : State) (p : Fin 4) (r : OpResult) : State :=
  let q := s.ports[p]
  let framed := (q.waiting.head?.map (·.framed)).getD false
  let t := s.updPort p fun x =>
    { x with waiting := x.waiting.tail,
             results := if framed then x.results ++ [r] else if x.frames.isEmpty then [r] else x.results }
  if framed then State.voidNext p q.frames.length t
  else if r.op = 0x02 ∧ r.data = closeData then (t.sessionClose p).coreGoesOn p
  else t

/-- What the oldest operation of port `p` waits for. -/
def State.headWaits (s : State) (p : Fin 4) (w : Wait) : State :=
  s.updPort p fun q => { q with waiting := match q.waiting with
    | x :: l => { x with wait := w } :: l
    | [] => [] }

/-- What follows an attempt at the oldest operation of port `p`; whether the port may go on. -/
def State.opSettle (p : Fin 4) (op : Instr) (r : OpEnd × State) : Bool × State :=
  match r with
  | (.done st data, t) => (true, t.opDone p ⟨opCode op, st, data⟩)
  | (.waits w (some k), t) => (true, let u := t.headWaits p w; u.validate k u.tickcnt u.boundary)
  | (.waits w none, t) => (false, t.headWaits p w)
  | (.wakes _, t) => (false, t)
  | (.gone, t) => (false, t)

/-- The operations of port `p` go on, at most `fuel` steps. -/
def State.resumePort (p : Fin 4) : Nat → State → State
  | 0, s => s
  | fuel + 1, s =>
    if !s.domOn Dm.CORE then s
    else match s.ports[p].waiting with
      | [] => s
      | x :: _ =>
        match x.wait with
        | .ready r => State.resumePort p fuel (s.opDone p r)
        | .behind | .retry =>
          let (go, t) := State.opSettle p x.op (s.opRun p x.op)
          if go then State.resumePort p fuel t else t
        | .outcome _ | .power _ | .wake | .image _ => s

/-- Inserts a slot by its serial. -/
def insertSerial (x : Nat × Nat) : List (Nat × Nat) → List (Nat × Nat)
  | [] => [x]
  | y :: l => if x.1 < y.1 then x :: y :: l else y :: insertSerial x l

/-- Validations that waited run again, in the order in which their bibs were opened (DEDUCED, notes/assumptions/58.md). -/
def State.bibsGoOn (s : State) : State :=
  let due := (List.range 64).filterMap fun k => let b : Bib := s.bibAt k; if b.waitsPage then some (b.serial, k) else none
  (due.foldl (fun l x => insertSerial x l) []).foldl (fun t x => if (t.bibAt x.2).waitsPage then t.validate x.2 t.tickcnt t.boundary else t) s

/-- The ports with operations to run, in the order in which these were accepted (R333). -/
def State.turns (s : State) : List (Nat × Nat) :=
  (List.finRange 4).foldl (fun l (p : Fin 4) => match s.ports[p].waiting with
    | x :: _ => insertSerial (x.turn, p.val) l
    | [] => l) []

/-- One pass over the waiting work. -/
def State.pumpOnce (s : State) : State :=
  let u := s.bibsGoOn
  u.turns.foldl (fun t x => let p : Fin 4 := Fin.ofNat 4 x.2; State.resumePort p (3 * t.ports[p].waiting.length + 1) t) u

/-- `n` passes. -/
def State.pumpN : Nat → State → State
  | 0, s => s
  | n + 1, s => State.pumpN n s.pumpOnce

/-- Waiting work goes on as far as it can. -/
def State.pump (s : State) : State :=
  if s.domOn Dm.CORE then State.pumpN (1 + (s.ports.toList.map fun (p : Port) => p.waiting.length).sum) s else s

/-- The end of a tick, and the work that it lets go on. -/
def State.tickEnd (s : State) : State := s.tickClose.pump

/-- Whether the pins of port `p` carry anything: CORE is ON and no reset holds, and for a port on VIO the pins have their supply
and are not held (13_power_domains.md R314, R315; 19_electrical_and_package.md R414)
(DESIGN CHOICE, notes/assumptions/41.md). -/
def State.portLive (s : State) (p : Fin 4) : Bool :=
  s.domOn Dm.CORE && s.resetHold.isNone
    && (p == 2 || (s.vioUp && !s.padHeld Dm.CORE))

/-- An operation of port `p` that comes in no frame is run, after those that are to run before it. -/
def State.enqueue (s : State) (p : Fin 4) (op : Instr) : State :=
  if s.portLive p then (s.updPort p fun q => { q with waiting := q.waiting ++ [⟨op, .behind, false, s.nextTurn⟩] }).pump else s

/-- An operation of Table 14.4 that comes as a row of its own: while frames of its port have no response, the operations of the port
are those of its frames (DESIGN CHOICE, notes/assumptions/5.md). -/
def State.submit (s : State) (p : Fin 4) (op : Instr) : State := if s.ports[p].frames.isEmpty then s.enqueue p op else s

/-- A direct write of one word by port `p` as an operation of the port (DESIGN CHOICE, notes/assumptions/17.md). -/
def State.writeNow (s : State) (p : Fin 4) (a v : Nat) : State := s.enqueue p (.wr p (word a) 0 (bytesLE 4 v))

/-- Whether a direct write to the word at `a` by port `p` is not carried out at once: it waits for a power change or a page in
flight (R309, R360), or for AUTOWAKE (R313). -/
def State.writeHeld (s : State) (p : Fin 4) (a : Nat) : Bool := s.wordBlocked (some p) a || (s.wakeWanted a).isSome

/-- A direct write of the word `v` at `a`, governed by page `g`, whose effect is `f`: where it has to wait it becomes an operation of the
port (DESIGN CHOICE, notes/assumptions/17.md). -/
def State.directWriteAt (s : State) (p : Fin 4) (g a v : Nat) (f : State → State) : State :=
  if !s.portLive p then s
  else if s.writeHeld p a then s.writeNow p a v
  else s.directPage p g a f

/-- A direct write of a register. -/
abbrev State.directWrite (s : State) (p : Fin 4) (a v : Nat) (f : State → State) : State := s.directWriteAt p (pageOf a) a v f

/-! ## Meanings: the operations (Table 14.4) -/

/-- `NOP` (R331). -/
def execNop (p : Fin 4) (s : State) : Result := .next (s.submit p (.nop p))

/-- `LEASE` (R344). -/
def execLease (p : Fin 4) (leaseMs : Word) (s : State) : Result := .next (s.submit p (.lease p leaseMs))

/-- `RD` (R334). -/
def execRd (p : Fin 4) (addr : Word) (count : BitVec 16) (s : State) : Result := .next (s.submit p (.rd p addr count))

/-- `WR` (R335). -/
def execWr (p : Fin 4) (addr : Word) (bib : BitVec 16) (data : List Byte) (s : State) : Result :=
  .next (s.submit p (.wr p addr bib data))

/-- `RMW` (R335). -/
def execRmw (p : Fin 4) (addr : Word) (bib : BitVec 16) (mask value : Word) (s : State) : Result :=
  .next (s.submit p (.rmw p addr bib mask value))

/-- `TXN_OPEN` (R346). -/
def execTxnOpen (p : Fin 4) (s : State) : Result := .next (s.submit p (.txnOpen p))

/-- `TXN_COMMIT` (R357). -/
def execTxnCommit (p : Fin 4) (bib : BitVec 16) (mode : Byte) (time : Sys2Proof.Count) (s : State) : Result :=
  .next (s.submit p (.txnCommit p bib mode time))

/-- `TXN_ABORT` (R363). -/
def execTxnAbort (p : Fin 4) (bib : BitVec 16) (s : State) : Result := .next (s.submit p (.txnAbort p bib))

/-- `TXN_STATUS` (R348). -/
def execTxnStatus (p : Fin 4) (bib : BitVec 16) (retire : Bool) (s : State) : Result := .next (s.submit p (.txnStatus p bib retire))

/-- `CLAIM` (R365). -/
def execClaim (p : Fin 4) (page : BitVec 16) (s : State) : Result := .next (s.submit p (.claim p page))

/-- `RELEASE` (R365). -/
def execRelease (p : Fin 4) (page : BitVec 16) (s : State) : Result := .next (s.submit p (.release p page))

/-- `RING_PULL` (R374). -/
def execRingPull (p : Fin 4) (ring : Byte) (max : BitVec 16) (s : State) : Result := .next (s.submit p (.ringPull p ring max))

/-- `RING_PUSH` (R374). -/
def execRingPush (p : Fin 4) (ring : Byte) (entries : List Byte) (s : State) : Result := .next (s.submit p (.ringPush p ring entries))

/-! ## Meanings: direct writes of their own rows -/

/-- `REGISTER_WRITE` (00_scope.md R4): a direct write of one word (DESIGN CHOICE, notes/assumptions/17.md). -/
def execRegisterWrite (p : Fin 4) (addr v : Word) (s : State) : Result := .next (s.writeNow p (addr.toNat / 4 * 4) v.toNat)

/-- `PISTE_SWAP` (07_fabric_schedule.md R176): a direct write of SWAP = 1. -/
def execPisteSwap (p : Fin 4) (s : State) : Result := .next (s.writeNow p Adr.FAB_SWAP 1)

/-- `POWER_CHANGE` (13_power_domains.md R305): a direct write of DOMd_CTRL words. -/
def execPowerChange (p : Fin 4) (ws : List (Fin 27 × Word)) (s : State) : Result := .next (s.enqueue p (.powerChange p ws))

/-! ## Meanings: the tick of transactions -/

/-- `TIMED_VALIDATION` (R357, R364): the validation time of a SCHEDULED bib begins
(DESIGN CHOICE, notes/assumptions/15.md). -/
def execTimedValidation (bib : BitVec 16) (s : State) : Result :=
  .next (match s.slotOf bib.toNat with
    | some k =>
      let b : Bib := s.bibAt k
      if s.domOn Dm.CORE && b.state == .scheduled && !b.waitsPage && !s.voted k && s.validationDue b then
        (s.validate k s.applyTick s.syscnt).pump
      else s
    | none => s)

/-- Whether the bib in slot `k` is the next to apply: due, and no earlier validated one is (R361). -/
def State.applyNext (s : State) (k : Nat) : Bool :=
  s.domOn Dm.CORE && s.applyDue k
    && !(List.range 64).any fun j => s.applyDue j && decide ((s.bibAt j).validated < (s.bibAt k).validated)

/-- The bib in slot `k` applies, after the direct writes of the tick (R193, R361). -/
def State.applyNow (s : State) (k : Nat) : State :=
  let t := s.flushParams.applyBib k
  (if t.domOn Dm.PLL then t else t.tickClose).pump

/-- `TXN_APPLY` (R361) (DESIGN CHOICE, notes/assumptions/15.md). -/
def execTxnApply (bib : BitVec 16) (s : State) : Result :=
  .next (match s.slotOf bib.toNat with
    | some k => if s.applyNext k then s.applyNow k else s
    | none => s)

/-! ## Meanings: power changes -/

/-- `VOTE_ANSWER` (R307): `arriving` says whether a frame is arriving on the port whose page is asked (Table 13.4). -/
def execVoteAnswer (s : State) (arriving : Bool := false) : Result := .next (s.voteAnswer arriving).pump

/-- `VOTE_TIMEOUT` (R307) (DESIGN CHOICE, notes/assumptions/3.md). -/
def execVoteTimeout (s : State) : Result := .next (if s.voting then (s.voteLost Cause.TIMEOUT).pump else s)

/-- `DOMAIN_WAKE_DONE` (R310). -/
def execDomainWakeDone (s : State) : Result := .next s.wakeDone.pump

/-- `POWER_APPLY` (R310, R313): the change whose domains are ON applies (DESIGN CHOICE, notes/assumptions/15.md)
(DEDUCED, notes/assumptions/58.md). -/
def execPowerApply (s : State) : Result :=
  .next (match s.change with
    | none => s
    | some c =>
      if c.phase ≠ .wait then s
      else match c.cause, s.changeSlot with
        | .access _ _, _ => s.accessApply.pump
        | .txn _, some k | .direct _ _, some k => if s.applyNext k then s.applyNow k else s
        | .txn _, none | .direct _ _, none | .lift, _ => s)

/-- `DOMAIN_LOWER_DONE` (R310). -/
def execDomainLowerDone (s : State) : Result := .next s.lowerDone.pump

/-- `AUTOWAKE_TIMEOUT` (R313): the held access of port `p` fails; the wake goes on. -/
def execAutowakeTimeout (p : Fin 4) (s : State) : Result :=
  .next (match s.ports[p].waiting with
    | x :: _ =>
      if x.wait = .wake ∧ s.domOn Dm.CORE then (State.opSettle p x.op (s.opBody p x.op (some St.DOMAIN_DOWN))).2.pump else s
    | [] => s)

/-! ## Meanings: the lift (R318) -/

/-- A lift that is not acknowledged. -/
def State.liftNack (s : State) : State := (s.countSat Fd.AON_LIFT_CNT_NACK 1).raise aonPage 1

/-- `LIFT_MATCH`: the address watch compares with its copy of the applied addresses (14_control_ports.md R328). -/
def execLiftMatch (s : State) (target : TargetAddr := cp2Address) : Result :=
  .next (if !targetHits target s.xportCopy s.index || s.domOn Dm.CORE || s.resetHold.isSome then s
    else if s.pvdd < 850 then s.liftNack
    else { s with lift := true }.liftStart)

/-- `LIFT_READY`. -/
def execLiftReady (s : State) : Result :=
  .next (if s.lift && s.domOn Dm.CORE then ({ s with lift := false }.countSat Fd.AON_LIFT_CNT_COUNT 1).raise aonPage 0 else s)

/-- `LIFT_TIMEOUT`. -/
def execLiftTimeout (s : State) : Result := .next (if s.lift then { s with lift := false }.liftNack else s)

end Sys2Proof.Machine
end

