-- ==== Sys2Proof/Machine/Dcp.lean ====
section
/-!
DEFINITION. Frames of the control ports: how they travel, their checks in order, responses, replays and delivery
(14_control_ports.md R323–R342), and the interrupt pins (R324).
-/
namespace Sys2Proof.Machine

/-! ## Carrying frames (Table 14.1, R327–R330) -/

/-- The greatest body of a port, and the bytes of its trailer (Table 14.1). -/
def maxBody (p : Fin 4) : Nat := if p = 2 then 256 else 1024
def trailerLen (p : Fin 4) : Nat := if p = 2 then 2 else 4

/-- The bytes that `p` decodes from a line of COBS blocks; none for a COBS error (R329). -/
def cobsBlocks : Nat → List Byte → Option (List Byte)
  | 0, _ => none
  | _ + 1, [] => some []
  | fuel + 1, c :: bs =>
    let n := c.toNat - 1
    let blk := bs.take n
    let rest := bs.drop n
    if c = 0 ∨ bs.length < n ∨ blk.contains 0 then none
    else (cobsBlocks fuel rest).map fun tl => blk ++ (if c = 255 ∨ rest.isEmpty then [] else [0]) ++ tl

/-- COBS decoding of a line without its delimiter. -/
def cobsDecode (bs : List Byte) : Option (List Byte) := cobsBlocks (bs.length + 1) bs

/-- A COBS block. -/
abbrev cobsBlock (blk : List Byte) : List Byte := BitVec.ofNat 8 (blk.length + 1) :: blk

/-- COBS blocks of `blk`, the block begun, and of the bytes that follow; no trailing empty block (R329). -/
def cobsRun : List Byte → List Byte → List Byte
  | blk, [] => cobsBlock blk
  | blk, b :: bs =>
    if b = 0 then cobsBlock blk ++ cobsRun [] bs
    else if blk.length = 253 then cobsBlock (blk ++ [b]) ++ (if bs.isEmpty then [] else cobsRun [] bs)
    else cobsRun (blk ++ [b]) bs

/-- COBS encoding, without the delimiter. -/
def cobsEncode (bs : List Byte) : List Byte := cobsRun [] bs

/-- The bytes that carry a frame on port `p` (DEDUCED, notes/assumptions/81.md). -/
def lineBytes (p : Fin 4) (bs : List Byte) : List Byte := if p = 3 then cobsEncode bs ++ [0] else bs

/-- The status byte of a transfer (R330). -/
def State.statusByte (s : State) (p : Fin 4) : Nat :=
  let q := s.ports[p]
  bit (!q.out.isEmpty) * 128 + bit (s.evtWaits p) * 64 + bit (q.session == .opened) * 32 + q.held

/-! ## The interrupt pins (R324) -/

/-- Whether IRQn is asserted. -/
def State.irqAsserted (s : State) (p : Fin 4) : Bool :=
  if s.domOn Dm.CORE then
    let q := s.ports[p]
    (q.leaseLow && s.flag (Fd.CP_IRQ_CFG_LEASE_EN p)) || (s.evtWaits p && s.flag (Fd.CP_IRQ_CFG_EVT_EN p))
      || (p != 3 && !q.out.isEmpty && s.flag (Fd.CP_IRQ_CFG_RESP_EN p))
  else s.irqHeld.getLsbD p

/-- The level of IRQn: driven high, driven low, or open. -/
inductive PinLevel where
  | high | low | opened
deriving DecidableEq, Repr

/-- The pin IRQn: the level and the drive come from the copy in AON; without VIO it is at high impedance
(DEDUCED, notes/assumptions/63.md). -/
def State.irqPin (s : State) (p : Fin 4) : PinLevel :=
  let copy := s.irqCopy[p]
  let up : Bool := s.irqAsserted p == bitOf copy 0
  if !s.vioUp then .opened
  else if bitOf copy 1 then (if s.irqAsserted p then (if up then .high else .low) else .opened)
  else if up then .high else .low

/-! ## Responses (R325, R337–R341) -/

/-- The bytes of the results of operations (R331). -/
def resultBytes (rs : List OpResult) : List Byte :=
  rs.flatMap fun r => [BitVec.ofNat 8 r.op, BitVec.ofNat 8 r.status] ++ bytesLE 2 r.data.length ++ r.data

/-- A response of port `p` to the frame `seq` as its line carries it, and the state after its trailer (Table 14.3, R326)
(DEDUCED, notes/assumptions/67.md). -/
def State.seal (s : State) (p : Fin 4) (seq fstatus : Nat) (rs : List OpResult) : List Byte × State :=
  let q := s.ports[p]
  let body := [BitVec.ofNat 8 fstatus, BitVec.ofNat 8 q.held] ++ bytesLE 2 (min 0xFFFF (s.ring (8 + p)).fill) ++ resultBytes rs
  let frame := [0xDA, 0x01] ++ bytesLE 2 seq ++ bytesLE 2 (if q.session = .opened then q.next else 0) ++ bytesLE 2 body.length ++ body
  let t := s.crcRun (Fin.ofNat 26 (4 + p)) frame
  (lineBytes p (frame ++ bytesLE (trailerLen p) t.crcs[4 + p.val].result), t)

/-- An uncounted response waits; it replaces another that is not delivered (R341). -/
def State.sendUncounted (s : State) (p : Fin 4) (r : Response) : State :=
  s.updPort p fun q => { q with out := (q.out.filter fun x => x.counted) ++ [{ r with counted := false }] }

/-- The count of a refusal (Table 14.12). -/
def refusalCount (p : Fin 4) (st : Nat) : Option Fld :=
  if st = St.BAD_CRC then some (Fd.CP_ERR_CNT0_BAD_CRC p)
  else if st = St.BAD_SEQ then some (Fd.CP_ERR_CNT0_BAD_SEQ p)
  else if st = St.STALE then some (Fd.CP_ERR_CNT1_STALE p)
  else if st = St.BUSY then some (Fd.CP_ERR_CNT1_BUSY p)
  else if st = St.BAD_LEN then some (Fd.CP_ERR_CNT2_BAD_LEN p)
  else if st = St.BAD_OP then some (Fd.CP_ERR_CNT2_BAD_OP p)
  else if st = St.NO_SESSION then some (Fd.CP_SES_CNT_NO_SESSION p)
  else none

/-- A frame is refused: it consumes nothing, and its response holds no result. -/
def State.refuse (s : State) (p : Fin 4) (seq st : Nat) : State :=
  let t := match refusalCount p st with
    | some f => s.countSat f 1
    | none => s
  let (bs, u) := t.seal p seq st []
  u.sendUncounted p ⟨seq, bs, false⟩

/-- The SEQ of a frame as received; where its bytes did not come, or are lost with the line's framing, it has no stated value
(DEDUCED, notes/assumptions/66.md). -/
def State.seqOf (s : State) (f : List Byte) : Nat × State :=
  if 4 ≤ f.length then (ofBytesLE ((f.drop 2).take 2), s) else s.free 65536

/-- A frame that is no frame is refused. -/
def State.refuseRaw (s : State) (p : Fin 4) (f : List Byte) (st : Nat) : State := let (q, t) := s.seqOf f; t.refuse p q st

/-! ## The body (R331, R332) -/

/-- An operation of a body. -/
structure BodyOp where
  op : Nat
  flags : Nat
  params : List Byte
deriving DecidableEq, Repr

/-- The operations of a body; none where their lengths do not sum to it
(DEDUCED, notes/assumptions/66.md). -/
def parseBody : Nat → List Byte → Option (List BodyOp)
  | _, [] => some []
  | fuel + 1, o :: f :: l :: h :: bs =>
    let n := ofBytesLE [l, h]
    if bs.length < n then none else (parseBody fuel (bs.drop n)).map fun xs => ⟨o.toNat, f.toNat, bs.take n⟩ :: xs
  | _, _ => none

/-- A field of the parameters. -/
abbrev BodyOp.at (o : BodyOp) (i n : Nat) : Nat := ofBytesLE ((o.params.drop i).take n)

/-- An operation of a body on port `p` as the command that runs it (Table 14.4). -/
def BodyOp.instr (p : Fin 4) (seq : Nat) (o : BodyOp) : Instr :=
  match o.op with
  | 0x01 => .hello p (BitVec.ofNat 16 seq) (word (o.at 0 4)) (word (o.at 4 4))
  | 0x02 => .lease p (word (o.at 0 4))
  | 0x10 => .rd p (word (o.at 0 4)) (BitVec.ofNat 16 (o.at 4 2))
  | 0x11 => .wr p (word (o.at 0 4)) (BitVec.ofNat 16 (o.at 4 2)) (o.params.drop 8)
  | 0x12 => .rmw p (word (o.at 0 4)) (BitVec.ofNat 16 (o.at 4 2)) (word (o.at 8 4)) (word (o.at 12 4))
  | 0x20 => .txnOpen p
  | 0x21 => .txnCommit p (BitVec.ofNat 16 (o.at 0 2)) (BitVec.ofNat 8 (o.at 2 1)) (BitVec.ofNat 64 (o.at 4 8))
  | 0x22 => .txnAbort p (BitVec.ofNat 16 (o.at 0 2))
  | 0x23 => .txnStatus p (BitVec.ofNat 16 (o.at 0 2)) (bitOf o.flags 0)
  | 0x30 => .claim p (BitVec.ofNat 16 (o.at 0 2))
  | 0x31 => .release p (BitVec.ofNat 16 (o.at 0 2))
  | 0x40 => .ringPull p (BitVec.ofNat 8 (o.at 0 1)) (BitVec.ofNat 16 (o.at 2 2))
  | 0x41 => .ringPush p (BitVec.ofNat 8 (o.at 0 1)) (o.params.drop 4)
  | _ => .nop p

/-- The bytes of an entry of a ring as it stands. -/
abbrev State.esize (s : State) (r : Nat) : Nat := ringEsize r (s.ring r).pack

/-- Whether an operation passes the body check: its OP, its PLEN, its MODE. -/
def State.bodyOpOk (s : State) (o : BodyOp) : Bool :=
  let n := o.params.length
  match o.op with
  | 0x00 | 0x20 => n == 0
  | 0x01 | 0x10 => n == 8
  | 0x02 | 0x22 | 0x23 | 0x30 | 0x31 | 0x40 => n == 4
  | 0x11 => 8 ≤ n
  | 0x12 => n == 16
  | 0x21 => n == 12 && o.at 2 1 ≤ 2
  | 0x41 => 4 ≤ n && n == 4 + o.at 2 2 * s.esize (o.at 0 1)
  | _ => false

/-- The greatest RLEN of an operation. -/
def State.bodyOpResult (s : State) (o : BodyOp) : Nat :=
  match o.op with
  | 0x01 => 16
  | 0x02 | 0x12 | 0x20 | 0x41 => 4
  | 0x10 => o.at 4 2
  | 0x21 | 0x23 => 20
  | 0x40 => 4 + o.at 2 2 * s.esize (o.at 0 1)
  | _ => 0

/-- Whether a body is a single HELLO. -/
def isHello : Option (List BodyOp) → Bool
  | some [o] => o.op == 0x01
  | _ => false

/-- Step 6 of Table 14.7: the status that refuses a body (DEDUCED, notes/assumptions/66.md). -/
def State.bodyFault (s : State) (p : Fin 4) (ops : Option (List BodyOp)) : Option Nat :=
  match ops with
  | none => some St.BAD_OP
  | some os =>
    if !(os.all s.bodyOpOk) || (os.length != 1 && os.any fun o => o.op == 0x01) then some St.BAD_OP
    else if maxBody p < 4 + (os.map fun o => 4 + s.bodyOpResult o).sum then some St.BAD_LEN
    else none

/-! ## Checks in order (Table 14.7) -/

/-- An ACK acknowledges responses in flight (R338). -/
def State.ackFrame (s : State) (p : Fin 4) (ack : Nat) : State :=
  let q := s.ports[p]
  match q.flying with
  | [] => s
  | a :: _ =>
    let d := (ack + 65536 - a % 65536) % 65536
    if d < q.inflight then
      (s.updPort p fun x => { x with held := x.held + (d + 1), inflight := x.inflight - (d + 1), flying := x.flying.drop (d + 1),
                                     acked := ack }).updRing (4 + p) fun r => { r with cons := r.cons + BitVec.ofNat 32 (d + 1) }
    else s

/-- A repeat of the last accepted frame is answered with the kept response, once there is one (R340)
(DEDUCED, notes/assumptions/65.md). -/
def State.replay (s : State) (p : Fin 4) : State :=
  let t := (s.countSat (Fd.CP_ERR_CNT2_REPLAY p) 1).leaseStart p s.ports[p].lease
  match s.ports[p].kept with
  | some r => t.sendUncounted p r
  | none => t.updPort p fun q => { q with replayDue := true }

/-- Steps 5 to 10. -/
def State.frameSteps (s : State) (p : Fin 4) (seq : Nat) (body : List Byte) : State :=
  let q := s.ports[p]
  let ops := parseBody body.length body
  if q.session = .opened ∧ q.last = some ⟨seq, body⟩ then s.replay p
  else match s.bodyFault p ops with
    | some st => s.refuse p seq st
    | none =>
      match ops with
      | some [⟨0x01, _, x⟩] => s.helloAccept p seq (word (ofBytesLE (x.take 4))) (word (ofBytesLE (x.drop 4))) body
      | some os =>
        let d := (seq + 65536 - q.next) % 65536
        if 32768 ≤ d then s.refuse p seq St.STALE
        else if d ≠ 0 then s.refuse p seq St.BAD_SEQ
        else if q.held = 0 then s.refuse p seq St.BUSY
        else s.acceptFrame p seq body (os.map fun o => o.instr p seq)
      | none => s

/-- Steps 3 to 10, for a whole frame (DEDUCED, notes/assumptions/66.md). -/
def State.wholeFrame (s : State) (p : Fin 4) (ver seq ack : Nat) (body : List Byte) : State :=
  let hello := isHello (parseBody body.length body)
  if ver ≠ 1 then s.refuse p seq St.BAD_OP
  else if s.ports[p].session ≠ .opened ∧ !hello then s.refuse p seq St.NO_SESSION
  else if s.ports[p].session = .opened ∧ !hello then (s.ackFrame p ack).frameSteps p seq body
  else s.frameSteps p seq body

/-- The bytes of a frame have come in (steps 1 and 2) (DEDUCED, notes/assumptions/66.md)
(DEDUCED, notes/assumptions/81.md). -/
def State.receive (s : State) (p : Fin 4) (bs : List Byte) : State :=
  let len := ofBytesLE ((bs.drop 6).take 2)
  let f := if p = 3 then bs else bs.take (8 + len + trailerLen p)
  if 8 ≤ f.length ∧ maxBody p < len then s.refuseRaw p f St.BAD_LEN
  else if f.length ≠ 8 + len + trailerLen p ∨ f.head? ≠ some 0xD5 then s.refuseRaw p f St.BAD_CRC
  else
    let t := s.crcRun (Fin.ofNat 26 p) (f.take (8 + len))
    if ofBytesLE (f.drop (8 + len)) ≠ t.crcs[p.val].result then t.refuseRaw p f St.BAD_CRC
    else t.wholeFrame p (ofBytesLE ((f.drop 1).take 1)) (ofBytesLE ((f.drop 2).take 2)) (ofBytesLE ((f.drop 4).take 2))
      ((f.drop 8).take len)

/-- The status byte goes out first in a transfer that reads (R327, R328) (DEDUCED, notes/assumptions/65.md). -/
def State.showStatus (s : State) (p : Fin 4) : State := { s with bus := word (s.statusByte p) }

/-- What a transfer brings to port `p`. -/
def State.transfer (s : State) (p : Fin 4) (bs : List Byte) : State :=
  if p = 3 then
    if bs.isEmpty then s
    else if 1041 < bs.length then s.refuseRaw p [] St.BAD_LEN
    else match cobsDecode bs with
      | some f => s.receive p f
      | none => s.refuseRaw p [] St.BAD_CRC
  else if p = 2 then (if bs.isEmpty then s else s.receive p (bs.take 266))
  else
    let t := s.showStatus p
    if bs.isEmpty ∨ bs.head? = some 0 then t else t.receive p bs

/-! ## Forming and delivering a response -/

/-- The frame of the oldest results is answered with a counted response (Table 14.7). -/
def State.formCounted (s : State) (p : Fin 4) (seq : Nat) (rs : List OpResult) : State :=
  let t := (s.updRing p fun r => { r with cons := r.cons + 1 }).ringFrame (4 + p)
  let t := t.updPort p fun q => { q with queued := q.queued - 1, inflight := q.inflight + 1, flying := q.flying ++ [seq] }
  let t := if t.ports[p].queued = 0 then t.leaseAt p t.ports[p].leaseLeft else t
  let (bs, t) := t.seal p seq St.OK rs
  let r : Response := ⟨seq, bs, true⟩
  let t := t.updPort p fun q => { q with out := q.out ++ [r], kept := if q.queued = 0 then some r else q.kept }
  if t.ports[p].queued = 0 ∧ t.ports[p].replayDue then (t.updPort p fun q => { q with replayDue := false }).sendUncounted p r else t

/-- Whether the results of a frame close the session. -/
def closes (rs : List OpResult) : Bool := rs.any fun r => r.op == 0x02 && r.data == closeData

/-- The last operation of the oldest frame of port `p` has completed: its response is formed and the next frame starts
(DESIGN CHOICE, notes/assumptions/6.md) (DEDUCED, notes/assumptions/31.md). -/
def State.respond (s : State) (p : Fin 4) : State :=
  match s.ports[p].frames with
  | [] => s
  | f :: rest =>
    let rs := s.ports[p].results
    if !s.ports[p].frameOver then s
    else
      let t := (s.updPort p fun q => { q with frames := rest }).startFrame p
      if f.void then t
      else if closes rs then
        let (bs, u) := (t.sessionClose p).seal p f.seq St.OK rs
        (u.sendUncounted p ⟨f.seq, bs, false⟩).coreGoesOn p
      else t.formCounted p f.seq rs

/-- A pending value of XPORT applies when the response to the frame that wrote it has been delivered (Table 14.12)
(DEDUCED, notes/assumptions/65.md). -/
def State.xportSettle (s : State) (p : Fin 4) (r : Response) : State :=
  match s.ports[p].xportPend with
  | some (x, some q) => if r.counted && r.seq == q then s.setXport p x else s
  | some (x, none) => s.setXport p x
  | none => s

/-- The oldest response of port `p` has been delivered; a lowering of CORE that waited for it goes on
(DEDUCED, notes/assumptions/65.md). -/
def State.delivered (s : State) (p : Fin 4) : State :=
  let s := if p = 3 then s else s.showStatus p
  match s.ports[p].out with
  | [] => s
  | r :: rest =>
    let t := (s.updPort p fun q => { q with out := rest }).xportSettle p r
    (match t.change with
      | some c => if c.coreAfter = some (p, r.seq) then t.coreGoesOn p else t
      | none => t)

/-! ## Meanings -/

/-- `COMMAND_FRAME` (R339, Table 14.7): the bytes that one window, write transfer or line up to a delimiter carries;
on CP2 the transfer goes to an address (R328) (DESIGN CHOICE, notes/assumptions/5.md). -/
def execCommandFrame (p : Fin 4) (bytes : List Byte) (s : State) (target : TargetAddr := cp2Address) : Result :=
  .next (if s.portLive p && s.answersTo p target then (s.transfer p bytes).pump else s)

/-- `UART_OVERLENGTH` (R329). -/
def execUartOverlength (s : State) : Result := .next (if s.portLive 3 then s.refuseRaw 3 [] St.BAD_LEN else s)

/-- `RESPONSE_FORMED` (R333). -/
def execResponseFormed (p : Fin 4) (s : State) : Result := .next (if s.domOn Dm.CORE then (s.respond p).pump else s)

/-- `RESPONSE_DELIVERED` (R327–R330): a transfer that reads; with no response waiting it carries the status byte alone. -/
def execResponseDelivered (p : Fin 4) (s : State) (target : TargetAddr := cp2Address) : Result :=
  .next (if s.portLive p && s.answersTo p target then (s.delivered p).pump else s)

/-- The body of a frame that holds one HELLO. -/
def helloBody (lease host : Nat) : List Byte := [0x01, 0x00, 0x08, 0x00] ++ bytesLE 4 lease ++ bytesLE 4 host

/-- Whether port `p` has accepted a HELLO of this SEQ that has no response yet. -/
def Port.helloRuns (q : Port) (seq : Nat) : Bool :=
  q.frames.any fun (f : CmdFrame) => !f.void && f.seq == seq && f.ops.any fun op => opCode op == 0x01

/-- `HELLO` (R343): a frame of its own; the operation of a frame that has been accepted runs with that frame
(DESIGN CHOICE, notes/assumptions/6.md). -/
def execHello (p : Fin 4) (seq : BitVec 16) (leaseMs hostId : Word) (s : State) : Result :=
  .next (if s.portLive p && !s.ports[p].helloRuns seq.toNat then
      (s.helloAccept p seq.toNat leaseMs hostId (helloBody leaseMs.toNat hostId.toNat)).pump
    else s)

/-- `LEASE_WARNING` (R344): less than a quarter of the lease is left (DESIGN CHOICE, notes/assumptions/64.md). -/
def execLeaseWarning (p : Fin 4) (s : State) : Result :=
  .next (if s.domOn Dm.CORE ∧ s.ports[p].session = .opened ∧ s.ports[p].queued = 0 then
      (s.leaseAt p (min (s.leaseNow p) (msCounts s.ports[p].lease / 4 - 1))).updPort p fun q => { q with leaseLow := true }
    else s)

/-- `LEASE_EXPIRY` (R344) (DESIGN CHOICE, notes/assumptions/3.md) (DESIGN CHOICE, notes/assumptions/64.md). -/
def execLeaseExpiry (p : Fin 4) (s : State) : Result :=
  .next (if s.domOn Dm.CORE ∧ s.ports[p].session = .opened ∧ s.ports[p].queued = 0 then (s.sessionExpire p).pump else s)

/-- `GRACE_END` (Table 14.8). -/
def execGraceEnd (p : Fin 4) (s : State) : Result :=
  .next (if s.domOn Dm.CORE ∧ s.ports[p].session = .grace then (s.graceEnd p).pump else s)

/-- `IMAGE_CHECK_DONE` (17_boot_images_recovery.md R387, R390): the write that asked for the check has its result. -/
def execImageCheckDone (s : State) : Result :=
  .next (match s.boot.check with
    | none => s
    | some (p, start) =>
      let (st, t) := s.checkEnd start
      (t.waitOver p fun w => match w with
        | .image data => some ⟨0, st, data⟩
        | .outcome _ | .retry | .power _ | .wake | .ready _ | .behind => none).pump)

end Sys2Proof.Machine
end

