-- ==== Sys2Proof/Machine/Dump.lean ====
section
/-!
DEFINITION. Fatal errors of the service image and the crash dump (17_boot_images_recovery.md R386, R399–R402).
-/
namespace Sys2Proof.Machine

/-- The dump area. -/
abbrev dumpBase : Nat := 0x20030000

/-- The events of page DUMP. -/
abbrev DumpEv.READY : Nat := 0
abbrev DumpEv.STREAM_DONE : Nat := 1

/-! ## A fatal error -/

/-- The last bib value assigned; 0 before the first. -/
def State.lastBib (s : State) : Nat := (s.txn.counter + 65535) % 65536

/-- The dump header of an error, its length and offsets still 0 (Table 17.5); the manual gives no codes for DETAIL
(DESIGN CHOICE, notes/assumptions/70.md). -/
def State.dumpBegin (s : State) (reason : Nat) : State :=
  let (detail, t) := s.freeBytes 4
  let seq := (t.fld Fd.DUMP_STATUS_SEQ + 1) % 65536
  let head := bytesLE 4 0x504D5544 ++ bytesLE 2 1 ++ bytesLE 2 64 ++ bytesLE 4 0 ++ [BitVec.ofNat 8 reason, 0] ++ bytesLE 2 seq
    ++ bytesLE 2 t.lastBib ++ [0, 0] ++ detail ++ bytesLE 8 (t.tickcnt % 2 ^ 48) ++ bytesLE 8 t.syscnt
    ++ bytesLE 4 (t.fld Fd.BOOT_SVC_VER_VERSION) ++ List.replicate 20 0
  (((t.setBytes dumpBase head).setFld Fd.DUMP_STATUS_STATE 1).setFld Fd.DUMP_STATUS_REASON reason).setFld Fd.DUMP_STATUS_SEQ seq

/-- A fatal error (R386, R399, R400): the image halts, the device enters BARE, and a dump begins where the area is EMPTY
(DESIGN CHOICE, notes/assumptions/70.md). -/
def State.fatal (s : State) (reason : Nat) : State :=
  if s.domOn Dm.SUP && s.svcLive then
    let t := if s.fld Fd.DUMP_STATUS_STATE = 0 then s.dumpBegin reason else s.countSat Fd.DUMP_LOST_CNT_COUNT 1
    let u := t.svcGone 3
    (if u.mode = .service then u.setMode .bare else u).raise bootPage BootEv.SVC_FAULT
  else s

/-! ## The sections (R401, Table 17.6) -/

/-- A section: its header, and its content. -/
def dumpSection (id : Nat) (content : List Byte) : List Byte := bytesLE 2 id ++ [0, 0] ++ bytesLE 4 (8 + content.length) ++ content

/-- The offset of the last defined register of page `g`
(DESIGN CHOICE, notes/assumptions/70.md). -/
def lastOffset (g : Nat) : Nat :=
  match blockOf g with
  | none => 0x020
  | some b => b.regs.foldl (fun m r => max m (r.off + r.stride * (r.count - 1))) 0x020

/-- The record of a page. -/
def State.dumpPageRecord (s : State) (g : Nat) : List Byte :=
  let code := match pageDomain g with
    | some d => (s.dom d).code
    | none => 0
  let n := if s.pageOn g then lastOffset g / 4 + 1 else 0
  bytesLE 2 g ++ [BitVec.ofNat 8 code, 0] ++ bytesLE 2 n ++ [0, 0] ++ (List.range n).flatMap fun i => bytesLE 4 (s.pageWord g (4 * i))

/-- Section 1: every defined page. -/
def State.dumpPages (s : State) : List Byte := ((List.range 0x6C).filter fun g => pageDefined g).flatMap s.dumpPageRecord

/-- Section 3: CFG, P and C of every ring. -/
def State.dumpRings (s : State) : List Byte :=
  (List.range 32).flatMap fun i => [0, 4, 8].flatMap fun o => bytesLE 4 (s.pageWord ringPage (0x100 + 16 * i + o))

/-- Section 4: the newest 128 records of the event log. -/
def State.dumpLog (s : State) : List Byte :=
  let n := min 128 s.evtLog
  (List.range n).flatMap fun i => s.bytesAt (0x20078000 + (s.evtLog - n + i) % 1024 * 16) 16

/-- The dump is complete; the registers of the Jaong core have no stated value (DESIGN CHOICE, notes/assumptions/70.md). -/
def State.dumpFinish (s : State) : State :=
  let (core, t) := s.freeBytes 144
  let s1 := dumpSection 1 t.dumpPages
  let s2 := dumpSection 2 (core ++ List.replicate 16 0)
  let s3 := dumpSection 3 t.dumpRings
  let s4 := dumpSection 4 t.dumpLog
  let o2 := 64 + s1.length
  let o3 := o2 + s2.length
  let o4 := o3 + s3.length
  let total := o4 + s4.length + 4
  let head := t.bytesAt dumpBase 8 ++ bytesLE 4 total ++ t.bytesAt (dumpBase + 12) 32
    ++ bytesLE 4 64 ++ bytesLE 4 o2 ++ bytesLE 4 o3 ++ bytesLE 4 o4 ++ [0, 0, 0, 0]
  let body := head ++ s1 ++ s2 ++ s3 ++ s4
  let u := t.crcRun 24 body
  let u := u.setBytes dumpBase (body ++ bytesLE 4 u.crcs[24].result)
  ((u.setFld Fd.DUMP_STATUS_STATE 2).setFld Fd.DUMP_LEN_BYTES total).raise dumpPage DumpEv.READY

/-! ## The stream (R402) -/

/-- The next chunk of a stream at offset `off` (Table 17.7); the bytes after a short payload have no stated value. -/
def State.dumpChunk (s : State) (off : Nat) : State :=
  let n := min 248 (s.fld Fd.DUMP_LEN_BYTES - off)
  let last : Bool := s.fld Fd.DUMP_LEN_BYTES ≤ off + n
  let (pad, t) := s.freeBytes (248 - n)
  let t := t.ringPut 27 fun _ => bytesLE 4 off ++ bytesLE 2 n ++ [BitVec.ofNat 8 (bit last), 0] ++ s.bytesAt (dumpBase + off) n ++ pad
  let u := { t with boot := { t.boot with stream := if last then none else some (off + n) } }
  if last then u.raise dumpPage DumpEv.STREAM_DONE else u

/-! ## Meanings -/

/-- `SVC_FATAL_ERROR` (R386). -/
def execSvcFatalError (reason : Byte) (s : State) : Result := .next (s.fatal reason.toNat)

/-- `SVC_HEARTBEAT_TIMEOUT` (R386): the reason is WATCHDOG. -/
def execSvcHeartbeatTimeout (s : State) : Result := .next (s.fatal 2)

/-- `DUMP_WRITTEN` (R399). -/
def execDumpWritten (s : State) : Result :=
  .next (if s.domOn Dm.SUP && s.domOn Dm.CMEM && s.fld Fd.DUMP_STATUS_STATE == 1 then s.dumpFinish else s)

/-- `DUMP_RELEASE` (R400): the effect of the applied write. -/
def execDumpRelease (s : State) : Result := .next (if s.pageTakes dumpPage then s.dumpRelease else s)

/-- `DUMP_CHUNK` (R402): ring 27 has room (DESIGN CHOICE, notes/assumptions/70.md). -/
def execDumpChunk (s : State) : Result :=
  .next (match s.boot.stream with
    | some off =>
      let r := s.ring 27
      if s.domOn Dm.SUP && s.domOn Dm.CORE && r.enable && r.fill < r.size then s.dumpChunk off else s
    | none => s)

end Sys2Proof.Machine
end

