-- ==== Sys2Proof/Machine/Direct.lean ====
section
/-!
DEFINITION. The commands that are direct writes of one register or parameter by a port: carried out at once, or, where a power change, a
page in flight or AUTOWAKE makes them wait, as an operation of the port (13_power_domains.md R309, R313; 14_control_ports.md R335;
15_transactions_and_hosts.md R360).
-/
namespace Sys2Proof.Machine

/-- `IMAGE_LOAD_OPEN` (R387). -/
def execImageLoadOpen (p : Fin 4) (kind : Fin 4) (s : State) : Result :=
  .next (s.directWrite p Adr.BOOT_LOAD_CTRL (16 + kind) fun t => t.loadCtrlWrite p (16 + kind))

/-- `IMAGE_WINDOW_WRITE` (R387). -/
def execImageWindowWrite (p : Fin 4) (off : Fin 512) (v : Word) (s : State) : Result :=
  .next (s.directWrite p (Adr.BOOT_WINDOW off) v.toNat fun t => t.windowWrite p off v.toNat)

/-- `IMAGE_CHECK` (R387): CHECK is written with KIND as it stands. -/
def execImageCheck (p : Fin 4) (s : State) : Result :=
  .next (s.directWrite p Adr.BOOT_LOAD_CTRL (32 + s.fld Fd.BOOT_LOAD_CTRL_KIND) fun t => t.loadCtrlWrite p (32 + t.fld Fd.BOOT_LOAD_CTRL_KIND))

/-- `IMAGE_START` (R387): START is written with KIND as it stands. -/
def execImageStart (p : Fin 4) (s : State) : Result :=
  .next (s.directWrite p Adr.BOOT_LOAD_CTRL (64 + s.fld Fd.BOOT_LOAD_CTRL_KIND) fun t => t.loadCtrlWrite p (64 + t.fld Fd.BOOT_LOAD_CTRL_KIND))

/-- `IMAGE_LOAD_ABORT` (R388). -/
def execImageLoadAbort (p : Fin 4) (s : State) : Result :=
  .next (s.directWrite p Adr.BOOT_LOAD_CTRL (128 + s.fld Fd.BOOT_LOAD_CTRL_KIND) fun t =>
    (t.loadCtrlWrite p (128 + t.fld Fd.BOOT_LOAD_CTRL_KIND)).pump)

/-- `FUSE_PROG` (R397). -/
def execFuseProg (p : Fin 4) (v : Word) (s : State) : Result := .next (s.directWrite p Adr.FUSE_PROG v.toNat fun t => t.fuseProg v.toNat)

/-- `PDM_TEST_WRITE` (R398). -/
def execPdmTestWrite (p : Fin 4) (on : Bool) (s : State) : Result := .next (s.directWrite p Adr.DBG_CTRL (bit on) fun t => t.pdmTest on)

/-- `PAD_RELEASE` (R314). -/
def execPadRelease (p : Fin 4) (v : Word) (s : State) : Result :=
  .next (s.directWrite p Adr.PWR_PAD_RELEASE v.toNat fun t => t.padRelease v.toNat)

/-- `DUMP_STREAM` (R402). -/
def execDumpStream (p : Fin 4) (s : State) : Result := .next (s.directWrite p Adr.DUMP_CTRL 1 fun t => t.dumpStream)

/-- `FABRIC_RUN` (R161): CTRL is written with RUN = 1 and START_PISTE. -/
def execFabricRun (p : Fin 4) (piste : Bool) (s : State) : Result :=
  .next (s.directWrite p Adr.FAB_CTRL (1 + 16 * bit piste) fun t => t.fabCtrlWrite (1 + 16 * bit piste))

/-- `FABRIC_STOP` (R162): CTRL is written with RUN = 0. -/
def execFabricStop (p : Fin 4) (s : State) : Result :=
  .next (s.directWrite p Adr.FAB_CTRL (16 * s.fld Fd.FAB_CTRL_START_PISTE) fun t => t.fabCtrlWrite (16 * t.fld Fd.FAB_CTRL_START_PISTE))

/-- `PISTE_COPY` (R169): COPY is written 1. -/
def execPisteCopy (p : Fin 4) (s : State) : Result := .next (s.directWrite p Adr.FAB_COPY 1 State.copyStart)

/-- `ADMISSION_CHECK` (R185): CHECK.START is written 1. -/
def execAdmissionCheck (p : Fin 4) (s : State) : Result := .next (s.directWrite p Adr.FAB_CHECK 1 State.checkStart)

/-- `PARAM_WRITE` (R192): a direct write of a parameter word. -/
def execParamWrite (p : Fin 4) (addr v : Word) (s : State) : Result :=
  let a := addr.toNat / 4 * 4
  .next (match poolReg a with
    | some (_, r) =>
      if r.writable && !s.maxlenFixed a then s.directWriteAt p (paramPage a) a v.toNat fun t => t.paramWrite a v.toNat else s
    | none => s)

/-- `PISTE_WRITE` (R165): the page FAB governs the claim; no page version moves. -/
def execPisteWrite (p : Fin 4) (addr v : Word) (s : State) : Result :=
  let a := addr.toNat / 4 * 4
  .next (
    if !s.portLive p then s
    else if s.writeHeld p a then s.writeNow p a v.toNat
    else if !s.pageOn fabPage then s.logAccess .domainDown p true a
    else if (a - 0x50000000) / 0x20000 = s.runPiste ∨ s.flag Fd.FAB_STAT_IDLE_LOCK then s
    else if s.claimedByOther p fabPage then s
    else if 0x50000000 ≤ a ∧ a < 0x50040000 then s.setMemWord a v else s)

/-- `URGENT_START` (R276). -/
def execUrgentStart (p : Fin 4) (v : Word) (s : State) : Result :=
  .next (s.directWrite p Adr.HKA_URGENT v.toNat fun t => t.urgentWrite p v.toNat)

/-- `TDAC_HOST_REQUEST` (R283). -/
def execTdacHostRequest (p : Fin 4) (s : State) : Result := .next (s.directWrite p Adr.TDAC_CTRL (2 ^ 31 + s.fld Fd.TDAC_CTRL_ROUTE) fun t => t.tdacRequest p)

/-- `TDAC_HOST_RELEASE` (R283). -/
def execTdacHostRelease (p : Fin 4) (s : State) : Result := .next (s.directWrite p Adr.TDAC_CTRL (s.fld Fd.TDAC_CTRL_ROUTE) fun t => t.tdacGiveUp p)

/-- `TDAC_ROUTE` (R282–R284). -/
def execTdacRoute (p : Fin 4) (v : Word) (s : State) : Result :=
  .next (s.directWrite p Adr.TDAC_CTRL v.toNat fun t => t.tdacRouteWrite p v.toNat)

/-- `TDAC_CODE` (R282). -/
def execTdacCode (p : Fin 4) (v : Word) (s : State) : Result :=
  .next (s.directWrite p Adr.TDAC_CODE v.toNat fun t => t.tdacCodeWrite p v.toNat)

/-- `RING_CONFIG_WRITE` (R372). -/
def execRingConfigWrite (p : Fin 4) (r : Fin 32) (v : Word) (s : State) : Result :=
  .next (if r.val < 12 then s else s.directWrite p (Adr.RING_RING_CFG r) v.toNat fun t => t.ringCfgWrite r v.toNat)

/-- `RING_INDEX_WRITE` (R373). -/
def execRingIndexWrite (p : Fin 4) (r : Fin 32) (producer : Bool) (v : Word) (s : State) : Result :=
  .next (if indexIsHost r producer
    then s.directWrite p (if producer then Adr.RING_RING_PROD r else Adr.RING_RING_CONS r) v.toNat fun t => t.ringIndexWrite p r producer v
    else s)

/-- `EVT_FORCE_WRITE` (R376); a page that defines no event bit holds no such register (18_register_pages.md R406). -/
def execEvtForceWrite (p : Fin 4) (page : Fin 108) (v : Word) (s : State) : Result :=
  .next (if evtMask page = 0 then s else s.directWrite p (pageAddr page 0x018) v.toNat fun t => t.evtForce page v.toNat)

/-- `EVT_ENABLE_WRITE` (R376). -/
def execEvtEnableWrite (p : Fin 4) (page : Fin 108) (v : Word) (s : State) : Result :=
  .next (if evtMask page = 0 then s
    else s.directWrite p (pageAddr page 0x014) v.toNat fun t => t.evtEnable page .page (evtMask page) v.toNat)

end Sys2Proof.Machine
end

