-- ==== Sys2Proof/Machine/Elec.lean ====
section
/-!
DEFINITION. The supply of the pins, the pins of the clocks, and discharges (19_electrical_and_package.md R414, R427).
-/
namespace Sys2Proof.Machine

/-- What the level of VIO_EXT in mV selects (R414); the board must not hold the levels between, which select no stated one
(DESIGN CHOICE, notes/assumptions/41.md). -/
def State.vioSelect (s : State) (mv : Nat) : State :=
  if mv < 300 then { s with vio := .inside18 }
  else if 500 ≤ mv ∧ mv ≤ 1300 then { s with vio := .inside33 }
  else if 1500 ≤ mv then { s with vio := .outside }
  else
    let (k, t) := s.free 3
    { t with vio := if k = 0 then .inside18 else if k = 1 then .inside33 else .outside }

/-- `VIO_SELECT` (R414): 0.3 ms after a power-on, supply-loss or RST_N reset. -/
def execVioSelect (mv : Nat) (s : State) : Result :=
  .next (if s.vio = .unselected ∧ s.resetHold.isNone then s.vioSelect mv else s)

/-- `VIO_DROP` (R414): an external VIO falls below 1.4 V. -/
def execVioDrop (s : State) : Result := .next (if s.vio = .outside then { s with vio := .dropped } else s)

/-- `VIO_RESTORED` (R414): it rises above 1.5 V again. -/
def execVioRestored (s : State) : Result := .next (if s.vio = .dropped then { s with vio := .outside } else s)

/-- What the device does at `SYNC_OUT` (R414, R424; 02_clocks_and_time.md Table 2.21). -/
def State.syncPin (s : State) : PinUse :=
  if !s.vioUp then .highZ else if s.fld Fd.TIME_ENS_CTRL_ROLE = 0 then .low else .driven

/-- What the device does at `WCLK_OUT` (R414; 02_clocks_and_time.md Table 2.13; 13_power_domains.md R314); with RATE = 0 it is low
whatever INVERT says (DESIGN CHOICE, notes/assumptions/41.md). -/
def State.wclkPin (s : State) : PinUse :=
  if !s.vioUp then .highZ
  else if s.padHeld Dm.PLL then .held
  else if s.fld Fd.CLK_WCLK_OUT_RATE = 0 || !s.domOn Dm.PLL then .low
  else .driven

/-- The frequency in Hz of `WCLK_OUT`: Fc, half or a quarter of it (02_clocks_and_time.md Table 2.13). -/
def State.wclkHz (s : State) : Nat :=
  if s.wclkPin = .driven then s.fc / [1, 1, 2, 4].getD (s.fld Fd.CLK_WCLK_OUT_RATE) 1 else 0

/-- `ESD_DISCHARGE` (R427): for at most 1 ms the samples of the block of the pin may be disturbed; nothing else changes
(DESIGN CHOICE, notes/assumptions/40.md). -/
def execEsdDischarge (s : State) (pin : EsdPin := .mic 0) : Result :=
  .next { s with esd := s.esd.filter (·.1 != pin) ++ [(pin, s.fc / 1000)] }

end Sys2Proof.Machine
end

