-- ==== Sys2Proof/Machine/Tick.lean ====
section
/-!
DEFINITION. The tick boundary (01_architecture.md R11; 02_clocks_and_time.md R29; 07_fabric_schedule.md R161): what every part of
the device does at it, in the order in which samples flow.
-/
namespace Sys2Proof.Machine

/-! ## Samples that a discharge may disturb (19_electrical_and_package.md R427) -/

/-- A free code in place of one that a discharge disturbs; the tag stays. -/
def State.disturb (s : State) (i : Nat) (x : Sample) : Sample :=
  { x with v := ({ s with fresh := s.fresh + i }.freeInt sampleMin sampleMax).1 }

/-- The samples that enter from a microphone or a port whose pin took a discharge (DESIGN CHOICE, notes/assumptions/40.md). -/
def State.disturbIn (s : State) : State :=
  if s.esd = [] then s
  else
    { s with
      ainOut := s.ainOut.mapIdx fun i x => if s.esdAt (.mic (Fin.ofNat 16 i)) then s.disturb i x else x
      portSrc := s.portSrc.mapIdx fun i x => if s.esdPort (i / 4) then s.disturb (16 + i) x else x
      fresh := s.fresh + 144 }

/-- What an output or an amplifier whose pin took a discharge drives, and what that amplifier senses; a tick of each discharge has
passed (DESIGN CHOICE, notes/assumptions/40.md). -/
def State.disturbOut (s : State) : State :=
  if s.esd = [] then s
  else
    let code (i : Nat) : Int := (s.disturb i Sample.zero).v
    let out (i : Nat) : Bool := if i < 16 then s.esdAt (.lineOut (Fin.ofNat 16 i)) else s.esdAt (.headphone (Fin.ofNat 4 (i - 16)))
    let amp (i : Nat) : Bool := s.esdAt (.speaker (Fin.ofNat 4 i))
    { s with
      outs := s.outs.mapIdx fun i (q : Out) => if out i then { q with a := code i, b := code (20 + i) } else q
      amps := s.amps.mapIdx fun i (q : Amp) => if amp i then { q with out := code (40 + i) } else q
      senseOut := s.senseOut.mapIdx fun i x => if amp i then s.disturb (44 + i) x else x
      fresh := s.fresh + 48
      esd := (s.esd.map fun e => (e.1, e.2 - 1)).filter (·.2 != 0) }

/-! ## The ports at a tick -/

/-- The lines of the ports. -/
def allLines : List (Fin 32 × Fin 2) := (List.finRange 32).flatMap fun n => [(n, 0), (n, 1)]

/-- The input lines deliver their samples, once those that run dry have begun their snowploughs and silent groups whose members are all
back have ended their silence; the sources of other lines deliver 0
with every tag bit clear. -/
def State.linesIn (s : State) : State :=
  allLines.foldl (fun t x => if t.dir x.1 x.2 = 1 then t.tickInput x.1 x.2 else t.putSrc x.1 x.2 Sample.zero Sample.zero)
    ((List.finRange 8).foldl State.lockReady
      (allLines.foldl (fun t x => if t.dir x.1 x.2 = 1 then t.readyInput x.1 x.2 else t) s))

/-- The output lines take their samples. -/
def State.linesOut (s : State) : State :=
  allLines.foldl (fun t x => if t.dir x.1 x.2 = 2 then t.tickOutput x.1 x.2 else t) s

/-- The end of the tick at the ports (03_serial_audio_ports.md R76; 05_alignment_and_rate_conversion.md R109, R114). -/
def State.portsEnd (s : State) : State := (List.finRange 32).foldl State.portEnd s

/-- The rate converters, while their domains are ON (01_architecture.md Table 1.9): those whose ratio has left its estimate measure anew (05_alignment_and_rate_conversion.md R125). -/
def State.convertersTick (s : State) (dev : List (Fin 64)) : State :=
  if s.domOn Dm.ASRC && s.domOn Dm.FAB then (List.range 64).foldl State.asrcTick (s.asrcRelock (dev.map fun i => i.val)) else s

/-- The inputs. -/
def State.ainsTick (s : State) (v : Vector AinIn 16) : State :=
  (List.finRange 16).foldl (fun (t : State) (n : Fin 16) => t.ainTick n v[n]) s

/-! ## The tick -/

/-- The counters at a boundary (DESIGN CHOICE, notes/assumptions/43.md). -/
def State.tickCount (s : State) : State :=
  let t := { s with ticks := s.ticks + 1, boundary := s.syscnt }
  if s.fabRuns then { t with tickcnt := s.tickcnt + 1, tickSys := s.syscnt } else t

/-- The boundary begins: due direct writes apply, and a fabric that starts has its tick 0
(DESIGN CHOICE, notes/assumptions/14.md). -/
def State.tickBegin (s : State) : State :=
  if s.startsNow then { s.tickCount.flushParams.fabFirst.endBootPhase with tickSys := s.syscnt } else s.tickCount.flushParams.stopDue

/-- The fabric runs its piste. -/
def State.tickFabric (s : State) (gate : Option GateMiss) : State :=
  if s.fabRuns then (s.inject.fabTick gate).capture else { s with pll := { s.pll with snap := s.pll.snap.step } }

/-- What TICK leaves for the next tick. -/
def State.tickClear (s : State) : State := { s.bookNow with jackTrig := [], jackFired := [], jackPages := [] }

/-- What the clocks show since the tick before: first edges at idle monitors (02_clocks_and_time.md R35), new averages (R33), and how far
a slewing PLL has come (R41). -/
def State.tickClocks (s : State) (edges : List (Fin 43)) (averages : List (Fin 43 × Int)) : State :=
  (averages.foldl (fun t x => t.monMeasure x.1 x.2) (edges.foldl State.monEdge s)).slewOn

/-- One tick (DESIGN CHOICE, notes/assumptions/14.md). -/
def State.tickAll (s : State) (i : TickIn) : State := s.inOneCycle fun s =>
  let t := ((((s.tickClocks i.edges i.averages).tickBegin.phAdmits.linesIn.convertersTick i.ratioDev).ainsTick i.ain).disturbIn).tickFabric i.gate
  ((((t.linesOut.portsEnd.schussTick i.pdm).outsTick.ampsTick i.sense i.linkLost).disturbOut).tickClear).tickEnd

/-- `TICK` (R11): a boundary of Fc; the main PLL makes it (DESIGN CHOICE, notes/assumptions/80.md). -/
def execTick (i : TickIn) (s : State) : Result := .next (if s.domOn Dm.PLL then s.tickAll i else s)

/-- `FABRIC_FIRST_TICK` (R161): the boundary at which the fabric starts. -/
def execFabricFirstTick (i : TickIn) (s : State) : Result := .next (if s.startsNow then s.tickAll i else s)

end Sys2Proof.Machine
end

