-- ==== Sys2Proof/Machine/Dispatch.lean ====
section
/-!
DEFINITION. One arm for each command: its meaning.
-/
namespace Sys2Proof.Machine

def exec (i : Instr) (s : State) : Host.Outcome State Fault Refusal :=
  match i with
  | .tick idx => Sys2Proof.Machine.execTick idx s
  | .clkCoreWrite v => Sys2Proof.Machine.execClkCoreWrite v s
  | .refSelWrite v => Sys2Proof.Machine.execRefSelWrite v s
  | .monLoss m => Sys2Proof.Machine.execMonLoss m s
  | .monGlitch m gap => Sys2Proof.Machine.execMonGlitch m gap s
  | .monRateChange m code ppm => Sys2Proof.Machine.execMonRateChange m code ppm s
  | .monPresent m code ppm => Sys2Proof.Machine.execMonPresent m code ppm s
  | .monAcquireTimeout m => Sys2Proof.Machine.execMonAcquireTimeout m s
  | .pllAcquireDone => Sys2Proof.Machine.execPllAcquireDone s
  | .pllSlewDone => Sys2Proof.Machine.execPllSlewDone s
  | .snapMuteDone => Sys2Proof.Machine.execSnapMuteDone s
  | .snapRelockDone => Sys2Proof.Machine.execSnapRelockDone s
  | .snapReturnDone => Sys2Proof.Machine.execSnapReturnDone s
  | .coarseExit => Sys2Proof.Machine.execCoarseExit s
  | .syscntLoRead => Sys2Proof.Machine.execSyscntLoRead s
  | .tickcntLoRead => Sys2Proof.Machine.execTickcntLoRead s
  | .epochFrameSend => Sys2Proof.Machine.execEpochFrameSend s
  | .epochFrameReceive f => Sys2Proof.Machine.execEpochFrameReceive f s
  | .epochFrameRepeat => Sys2Proof.Machine.execEpochFrameRepeat s
  | .ensLost => Sys2Proof.Machine.execEnsLost s
  | .ensRejoin => Sys2Proof.Machine.execEnsRejoin s
  | .sapRunStart n => Sys2Proof.Machine.execSapRunStart n s
  | .sapRunStop n => Sys2Proof.Machine.execSapRunStop n s
  | .sapMuteRequest n mask => Sys2Proof.Machine.execSapMuteRequest n mask s
  | .sapConfigWrite n r v => Sys2Proof.Machine.execSapConfigWrite n r v s
  | .sapFrameReceived n f => Sys2Proof.Machine.execSapFrameReceived n f s
  | .sapFrameTransmit n => Sys2Proof.Machine.execSapFrameTransmit n s
  | .sapDeliveryStart n => Sys2Proof.Machine.execSapDeliveryStart n s
  | .zcTimeout n ch => Sys2Proof.Machine.execZcTimeout n ch s
  | .zcGlideDone n ch => Sys2Proof.Machine.execZcGlideDone n ch s
  | .sapStopped n => Sys2Proof.Machine.execSapStopped n s
  | .sapCntClear n => Sys2Proof.Machine.execSapCntClear n s
  | .framesInRead n k => Sys2Proof.Machine.execFramesInRead n k s
  | .stampLoRead n => Sys2Proof.Machine.execStampLoRead n s
  | .aesRxLocked k => Sys2Proof.Machine.execAesRxLocked k s
  | .aesRxLockLost k => Sys2Proof.Machine.execAesRxLockLost k s
  | .aesRxCsRead k b => Sys2Proof.Machine.execAesRxCsRead k b s
  | .aesTxSwap k => Sys2Proof.Machine.execAesTxSwap k s
  | .aesCsSwapCopy k => Sys2Proof.Machine.execAesCsSwapCopy k s
  | .grpConfigWrite g r v => Sys2Proof.Machine.execGrpConfigWrite g r v s
  | .memberDeliveryStart n k => Sys2Proof.Machine.execMemberDeliveryStart n k s
  | .memberStarved n k => Sys2Proof.Machine.execMemberStarved n k s
  | .snowploughSilent n k => Sys2Proof.Machine.execSnowploughSilent n k s
  | .memberRejoin n k => Sys2Proof.Machine.execMemberRejoin n k s
  | .rejoinGlideDone n k => Sys2Proof.Machine.execRejoinGlideDone n k s
  | .asrcConfigWrite idx v => Sys2Proof.Machine.execAsrcConfigWrite idx v s
  | .asrcEnable idx => Sys2Proof.Machine.execAsrcEnable idx s
  | .asrcDisable idx => Sys2Proof.Machine.execAsrcDisable idx s
  | .asrcOff idx => Sys2Proof.Machine.execAsrcOff idx s
  | .asrcLocked idx => Sys2Proof.Machine.execAsrcLocked idx s
  | .ainEnable n => Sys2Proof.Machine.execAinEnable n s
  | .ainDisable n => Sys2Proof.Machine.execAinDisable n s
  | .ainModeChange n => Sys2Proof.Machine.execAinModeChange n s
  | .servoSettled n => Sys2Proof.Machine.execServoSettled n s
  | .ainReady n => Sys2Proof.Machine.execAinReady n s
  | .ainOff n => Sys2Proof.Machine.execAinOff n s
  | .cmExcursionStart n => Sys2Proof.Machine.execCmExcursionStart n s
  | .cmExcursionEnd n => Sys2Proof.Machine.execCmExcursionEnd n s
  | .phantomEnable n => Sys2Proof.Machine.execPhantomEnable n s
  | .phantomDisable n => Sys2Proof.Machine.execPhantomDisable n s
  | .phRampDone n => Sys2Proof.Machine.execPhRampDone n s
  | .phSettleDone n => Sys2Proof.Machine.execPhSettleDone n s
  | .phLimitTimeout n => Sys2Proof.Machine.execPhLimitTimeout n s
  | .phFoldback => Sys2Proof.Machine.execPhFoldback s
  | .automuteFadeDone n => Sys2Proof.Machine.execAutomuteFadeDone n s
  | .automuteCauseEnd n c => Sys2Proof.Machine.execAutomuteCauseEnd n c s
  | .automuteGlideDone n => Sys2Proof.Machine.execAutomuteGlideDone n s
  | .pathReturn n => Sys2Proof.Machine.execPathReturn n s
  | .calRestart n => Sys2Proof.Machine.execCalRestart n s
  | .preampGainWrite n v => Sys2Proof.Machine.execPreampGainWrite n v s
  | .stepForceTimeout n => Sys2Proof.Machine.execStepForceTimeout n s
  | .diagStart n legs => Sys2Proof.Machine.execDiagStart n legs s
  | .diagBegin n => Sys2Proof.Machine.execDiagBegin n s
  | .diagPhaseDone n r => Sys2Proof.Machine.execDiagPhaseDone n r s
  | .fabricRun p piste => Sys2Proof.Machine.execFabricRun p piste s
  | .fabricFirstTick idx => Sys2Proof.Machine.execFabricFirstTick idx s
  | .fabricStop p => Sys2Proof.Machine.execFabricStop p s
  | .fabricStopped => Sys2Proof.Machine.execFabricStopped s
  | .pisteWrite p addr v => Sys2Proof.Machine.execPisteWrite p addr v s
  | .pisteCopy p => Sys2Proof.Machine.execPisteCopy p s
  | .copyDone => Sys2Proof.Machine.execCopyDone s
  | .pisteSwap p => Sys2Proof.Machine.execPisteSwap p s
  | .xoverEnd => Sys2Proof.Machine.execXoverEnd s
  | .admissionCheck p => Sys2Proof.Machine.execAdmissionCheck p s
  | .checkDone => Sys2Proof.Machine.execCheckDone s
  | .paramWrite p addr v => Sys2Proof.Machine.execParamWrite p addr v s
  | .gainTargetWrite slot v => Sys2Proof.Machine.execGainTargetWrite slot v s
  | .objectWrite addr v => Sys2Proof.Machine.execObjectWrite addr v s
  | .objectReset addr => Sys2Proof.Machine.execObjectReset addr s
  | .delayChange l v => Sys2Proof.Machine.execDelayChange l v s
  | .generatorRestart g => Sys2Proof.Machine.execGeneratorRestart g s
  | .lineFilled l => Sys2Proof.Machine.execLineFilled l s
  | .sweepEnd g => Sys2Proof.Machine.execSweepEnd g s
  | .outputEnable o => Sys2Proof.Machine.execOutputEnable o s
  | .outputDisable o => Sys2Proof.Machine.execOutputDisable o s
  | .lineRailRampDone n => Sys2Proof.Machine.execLineRailRampDone n s
  | .chargePumpReady => Sys2Proof.Machine.execChargePumpReady s
  | .outputSettleDone o => Sys2Proof.Machine.execOutputSettleDone o s
  | .outputStopGlideDone o => Sys2Proof.Machine.execOutputStopGlideDone o s
  | .lineRailDownDone n => Sys2Proof.Machine.execLineRailDownDone n s
  | .chargePumpStop => Sys2Proof.Machine.execChargePumpStop s
  | .outputCurrentLimit o => Sys2Proof.Machine.execOutputCurrentLimit o s
  | .outputLimitTimeout o => Sys2Proof.Machine.execOutputLimitTimeout o s
  | .servoLimit n => Sys2Proof.Machine.execServoLimit n s
  | .cpRailFault => Sys2Proof.Machine.execCpRailFault s
  | .internalFadeDone h => Sys2Proof.Machine.execInternalFadeDone h s
  | .hpMicRoute h on input => Sys2Proof.Machine.execHpMicRoute h on input s
  | .buttonPress h b => Sys2Proof.Machine.execButtonPress h b s
  | .buttonRelease h => Sys2Proof.Machine.execButtonRelease h s
  | .jackLevelChange j high => Sys2Proof.Machine.execJackLevelChange j high s
  | .jackInsert j => Sys2Proof.Machine.execJackInsert j s
  | .jackRemove j => Sys2Proof.Machine.execJackRemove j s
  | .classifyPoleTestDone j r => Sys2Proof.Machine.execClassifyPoleTestDone j r s
  | .classifyLoadTestDone j r => Sys2Proof.Machine.execClassifyLoadTestDone j r s
  | .jackRuleFire r => Sys2Proof.Machine.execJackRuleFire r s
  | .ampEnable n => Sys2Proof.Machine.execAmpEnable n s
  | .ampDisable n => Sys2Proof.Machine.execAmpDisable n s
  | .ampPrecheckDone n r => Sys2Proof.Machine.execAmpPrecheckDone n r s
  | .ampRelease n => Sys2Proof.Machine.execAmpRelease n s
  | .ampRunning n => Sys2Proof.Machine.execAmpRunning n s
  | .ampStopGlideDone n => Sys2Proof.Machine.execAmpStopGlideDone n s
  | .ampOff n => Sys2Proof.Machine.execAmpOff n s
  | .pwmCycle n pos neg => Sys2Proof.Machine.execPwmCycle n pos neg s
  | .ampRetry n => Sys2Proof.Machine.execAmpRetry n s
  | .ampRetriesClear n => Sys2Proof.Machine.execAmpRetriesClear n s
  | .ampDcFault n => Sys2Proof.Machine.execAmpDcFault n s
  | .fixedScan r => Sys2Proof.Machine.execFixedScan r s
  | .sagSample raw => Sys2Proof.Machine.execSagSample raw s
  | .pvddHwStop => Sys2Proof.Machine.execPvddHwStop s
  | .supplyOk => Sys2Proof.Machine.execSupplyOk s
  | .hkaReady => Sys2Proof.Machine.execHkaReady s
  | .conversionDone q v => Sys2Proof.Machine.execConversionDone q v s
  | .integrationDone v => Sys2Proof.Machine.execIntegrationDone v s
  | .calStageDone ok => Sys2Proof.Machine.execCalStageDone ok s
  | .mainsLost => Sys2Proof.Machine.execMainsLost s
  | .hkaTimerFire k => Sys2Proof.Machine.execHkaTimerFire k s
  | .pwmTrigger x => Sys2Proof.Machine.execPwmTrigger x s
  | .seqGo mask => Sys2Proof.Machine.execSeqGo mask s
  | .seqEnable x => Sys2Proof.Machine.execSeqEnable x s
  | .seqDisable x => Sys2Proof.Machine.execSeqDisable x s
  | .seqDelayEnd x => Sys2Proof.Machine.execSeqDelayEnd x s
  | .urgentStart p v => Sys2Proof.Machine.execUrgentStart p v s
  | .hkaPop q => Sys2Proof.Machine.execHkaPop q s
  | .hkaPeek q => Sys2Proof.Machine.execHkaPeek q s
  | .tdacHostRequest p => Sys2Proof.Machine.execTdacHostRequest p s
  | .tdacGrant => Sys2Proof.Machine.execTdacGrant s
  | .tdacHostRelease p => Sys2Proof.Machine.execTdacHostRelease p s
  | .tdacRoute p v => Sys2Proof.Machine.execTdacRoute p v s
  | .tdacCode p v => Sys2Proof.Machine.execTdacCode p v s
  | .tdacRampDone => Sys2Proof.Machine.execTdacRampDone s
  | .crcData8 a idx v => Sys2Proof.Machine.execCrcData8 a idx v s
  | .crcData16 a idx v => Sys2Proof.Machine.execCrcData16 a idx v s
  | .crcData32 a idx v => Sys2Proof.Machine.execCrcData32 a idx v s
  | .crcReset a idx => Sys2Proof.Machine.execCrcReset a idx s
  | .crcConfigWrite a idx r v => Sys2Proof.Machine.execCrcConfigWrite a idx r v s
  | .crcResultRead idx => Sys2Proof.Machine.execCrcResultRead idx s
  | .crcRawRead idx => Sys2Proof.Machine.execCrcRawRead idx s
  | .crcOwnRequest a => Sys2Proof.Machine.execCrcOwnRequest a s
  | .crcOwnRelease a => Sys2Proof.Machine.execCrcOwnRelease a s
  | .powerChange p ws => Sys2Proof.Machine.execPowerChange p ws s
  | .voteAnswer arriving => Sys2Proof.Machine.execVoteAnswer s arriving
  | .voteTimeout => Sys2Proof.Machine.execVoteTimeout s
  | .domainWakeDone => Sys2Proof.Machine.execDomainWakeDone s
  | .powerApply => Sys2Proof.Machine.execPowerApply s
  | .domainLowerDone => Sys2Proof.Machine.execDomainLowerDone s
  | .autowakeTimeout p => Sys2Proof.Machine.execAutowakeTimeout p s
  | .padRelease p v => Sys2Proof.Machine.execPadRelease p v s
  | .lpBrownout lost => Sys2Proof.Machine.execLpBrownout lost s
  | .liftMatch target => Sys2Proof.Machine.execLiftMatch s target
  | .liftReady => Sys2Proof.Machine.execLiftReady s
  | .liftTimeout => Sys2Proof.Machine.execLiftTimeout s
  | .powerOnReset => Sys2Proof.Machine.execPowerOnReset s
  | .supplyLoss => Sys2Proof.Machine.execSupplyLoss s
  | .rstNAssert => Sys2Proof.Machine.execRstNAssert s
  | .hostReset key => Sys2Proof.Machine.execHostReset key s
  | .watchdogReset => Sys2Proof.Machine.execWatchdogReset s
  | .resetRelease => Sys2Proof.Machine.execResetRelease s
  | .vioSelect mv => Sys2Proof.Machine.execVioSelect mv s
  | .vioDrop => Sys2Proof.Machine.execVioDrop s
  | .esdDischarge pin => Sys2Proof.Machine.execEsdDischarge s pin
  | .commandFrame p bytes target => Sys2Proof.Machine.execCommandFrame p bytes s target
  | .uartOverlength => Sys2Proof.Machine.execUartOverlength s
  | .responseFormed p => Sys2Proof.Machine.execResponseFormed p s
  | .responseDelivered p target => Sys2Proof.Machine.execResponseDelivered p s target
  | .nop p => Sys2Proof.Machine.execNop p s
  | .hello p seq leaseMs hostId => Sys2Proof.Machine.execHello p seq leaseMs hostId s
  | .lease p leaseMs => Sys2Proof.Machine.execLease p leaseMs s
  | .rd p addr count => Sys2Proof.Machine.execRd p addr count s
  | .wr p addr bib data => Sys2Proof.Machine.execWr p addr bib data s
  | .rmw p addr bib mask value => Sys2Proof.Machine.execRmw p addr bib mask value s
  | .txnOpen p => Sys2Proof.Machine.execTxnOpen p s
  | .txnCommit p bib mode time => Sys2Proof.Machine.execTxnCommit p bib mode time s
  | .txnAbort p bib => Sys2Proof.Machine.execTxnAbort p bib s
  | .txnStatus p bib retire => Sys2Proof.Machine.execTxnStatus p bib retire s
  | .claim p page => Sys2Proof.Machine.execClaim p page s
  | .release p page => Sys2Proof.Machine.execRelease p page s
  | .ringPull p ring max => Sys2Proof.Machine.execRingPull p ring max s
  | .ringPush p ring entries => Sys2Proof.Machine.execRingPush p ring entries s
  | .leaseWarning p => Sys2Proof.Machine.execLeaseWarning p s
  | .leaseExpiry p => Sys2Proof.Machine.execLeaseExpiry p s
  | .graceEnd p => Sys2Proof.Machine.execGraceEnd p s
  | .timedValidation bib => Sys2Proof.Machine.execTimedValidation bib s
  | .txnApply bib => Sys2Proof.Machine.execTxnApply bib s
  | .ringConfigWrite p r v => Sys2Proof.Machine.execRingConfigWrite p r v s
  | .ringIndexWrite p r producer v => Sys2Proof.Machine.execRingIndexWrite p r producer v s
  | .evtForceWrite p page v => Sys2Proof.Machine.execEvtForceWrite p page v s
  | .evtEnableWrite p page v => Sys2Proof.Machine.execEvtEnableWrite p page v s
  | .granARead => Sys2Proof.Machine.execGranARead s
  | .imageLoadOpen p kind => Sys2Proof.Machine.execImageLoadOpen p kind s
  | .imageWindowWrite p off v => Sys2Proof.Machine.execImageWindowWrite p off v s
  | .imageCheck p => Sys2Proof.Machine.execImageCheck p s
  | .imageStart p => Sys2Proof.Machine.execImageStart p s
  | .imageLoadAbort p => Sys2Proof.Machine.execImageLoadAbort p s
  | .imageCheckDone => Sys2Proof.Machine.execImageCheckDone s
  | .svcStarted => Sys2Proof.Machine.execSvcStarted s
  | .suppApplied => Sys2Proof.Machine.execSuppApplied s
  | .svcFatalError reason => Sys2Proof.Machine.execSvcFatalError reason s
  | .svcHeartbeatTimeout => Sys2Proof.Machine.execSvcHeartbeatTimeout s
  | .svcStop => Sys2Proof.Machine.execSvcStop s
  | .recover => Sys2Proof.Machine.execRecover s
  | .schussStop => Sys2Proof.Machine.execSchussStop s
  | .schussEnd => Sys2Proof.Machine.execSchussEnd s
  | .fuseProg p v => Sys2Proof.Machine.execFuseProg p v s
  | .fuseBlowDone => Sys2Proof.Machine.execFuseBlowDone s
  | .pdmTestWrite p on => Sys2Proof.Machine.execPdmTestWrite p on s
  | .dumpWritten => Sys2Proof.Machine.execDumpWritten s
  | .dumpRelease => Sys2Proof.Machine.execDumpRelease s
  | .dumpStream p => Sys2Proof.Machine.execDumpStream p s
  | .dumpChunk => Sys2Proof.Machine.execDumpChunk s
  | .serviceVersion => Sys2Proof.Machine.execServiceVersion s
  | .serviceReclassify => Sys2Proof.Machine.execServiceReclassify s
  | .serviceThermal => Sys2Proof.Machine.execServiceThermal s
  | .serviceCalibrate => Sys2Proof.Machine.execServiceCalibrate s
  | .serviceRefused => Sys2Proof.Machine.execServiceRefused s
  | .registerWrite p addr v => Sys2Proof.Machine.execRegisterWrite p addr v s
  | .aesRxAcquiring k => Sys2Proof.Machine.execAesRxAcquiring k s
  | .aesRxUnlocked k => Sys2Proof.Machine.execAesRxUnlocked k s
  | .refUnusable ppm => Sys2Proof.Machine.execRefUnusable ppm s
  | .refUsable ppm => Sys2Proof.Machine.execRefUsable ppm s
  | .mainsMeasurementValid us => Sys2Proof.Machine.execMainsMeasurementValid s us
  | .vioRestored => Sys2Proof.Machine.execVioRestored s

end Sys2Proof.Machine
end

