-- ==== Sys2Proof/Safety.lean ====
section
/-!
DEFINITION. What counts as a safe run of the block, in the terms that claims use: the invariants that every command keeps, and
the words for what a command does and for what it leaves unchanged.
-/
namespace Sys2Proof.Machine

/-! ## Outcomes -/

/-- A command ran: neither a fault nor a refusal. -/
abbrev ran (r : Result) : Prop := ∃ t, r = .next t

/-- The answer is a next state, of which `P` holds. -/
def After (r : Result) (P : State → Prop) : Prop := ∃ t, r = .next t ∧ P t

/-! ## The canonical form of sparse data -/

/-- Registers, memory and page versions are held in the one canonical form, so that equal contents are equal data. -/
structure State.Canonical (s : State) : Prop where
  regs : sparseWf regReset s.regs
  mem : Memory.wf s.mem
  vers : sparseWf (fun _ => 0) s.pageVers

/-! ## Credits (14_control_ports.md R339) -/

/-- The accepted frames of a port that still get a counted response. -/
abbrev Port.owing (q : Port) : Nat := (q.frames.filter fun (f : CmdFrame) => !f.void).length

/-- The three counts of a port add up to 16, and QUEUED covers the frames that still get a counted response. -/
structure Port.Balanced (q : Port) : Prop where
  sum : q.held + q.queued + q.inflight = 16
  queued : q.owing ≤ q.queued

/-- Every port is balanced. -/
abbrev State.Credited (s : State) : Prop := ∀ p : Fin 4, s.ports[p].Balanced

/-- What every command keeps. -/
structure State.Inv (s : State) : Prop where
  canonical : s.Canonical
  credited : s.Credited

/-! ## Work that waits (14_control_ports.md R333) -/

/-- No operation and no validation waits, so that nothing more goes on when a command has run. -/
structure State.Settled (s : State) : Prop where
  ops : ∀ p : Fin 4, s.ports[p].waiting = []
  bibs : ∀ k : Fin 64, (s.bibAt k).waitsPage = false

/-- Port `p` takes an operation that comes in no frame, and runs it at once: its pins carry it, none of its frames is without a response,
and nothing waits. -/
structure State.Hears (s : State) (p : Fin 4) : Prop where
  live : s.portLive p = true
  unframed : s.ports[p].frames = []
  settled : s.Settled

/-- A direct write of the word at `a`, governed by page `g`, that port `p` makes is carried out at once: the pins of the port carry it,
nothing makes it wait, the page is reachable and no other port claims it (13_power_domains.md R309, R313; 14_control_ports.md R335;
15_transactions_and_hosts.md R360, R366). -/
structure State.TakesWrite (s : State) (p : Fin 4) (g a : Nat) : Prop where
  live : s.portLive p = true
  free : s.writeHeld p a = false
  on : s.pageOn g = true
  own : s.claimedByOther p g = false

/-- Port `p` holds the result of an operation of OP code `op` that came in no frame. -/
def State.gives (s : State) (p : Fin 4) (op status : Nat) (data : List Byte) : State :=
  s.updPort p fun q => { q with results := [⟨op, status, data⟩] }

/-! ## Status and error bits (18_register_pages.md R405, R406) -/

/-- Bit `b` of EVT_STATUS of page `p`. -/
abbrev State.evt (s : State) (p b : Nat) : Bool := bitOf (s.reg (pageAddr p 0x010)).toNat b

/-- Bit `b` of the ERR register of page `p`. -/
abbrev State.err (s : State) (p b : Nat) : Bool := bitOf (s.reg (pageAddr p 0x01C)).toNat b

/-! ## What events change (16_rings_events_books.md R375–R377) -/

/-- The registers that serving rings 8 to 11 may change: EVT_STATUS and WM_STATUS of page RING. -/
abbrev RingRegs (a : Nat) : Prop := a = 0x4000C010 ∨ a = 0x4000C060

/-- The registers that events of the pages `ps` may change: their EVT_STATUS, and those of serving the event rings. -/
def StatusOf (ps : List Nat) (a : Nat) : Prop := (∃ p ∈ ps, a = pageAddr p 0x010) ∨ RingRegs a

/-- The registers of the pages `ps`, and those of serving the event rings. -/
def OfPages (ps : List Nat) (a : Nat) : Prop := (∃ p ∈ ps, pageAddr p 0 ≤ a ∧ a < pageAddr p 0x1000) ∨ RingRegs a

/-- Whether byte `a` lies in the storage of ring `i` (R371). -/
def Ring.stores (r : Ring) (i a : Nat) : Prop :=
  0x20000000 + r.base * 256 ≤ a ∧ a < 0x20000000 + r.base * 256 + r.size * ringEsize i r.pack

/-- Whether byte `a` lies in the event log or in the storage of an event ring. -/
def State.eventByte (s : State) (a : Nat) : Prop :=
  (0x20078000 ≤ a ∧ a < 0x2007C000) ∨ ∃ i, 8 ≤ i ∧ i ≤ 11 ∧ (s.ring i).stores i a

/-- `t` is `s` but for what events change: bits set in the registers that `A` names, records in the event log and the event
rings with the counts of these, records held or gathered within one engine cycle, and the pins held low for a record. -/
structure EventsOnly (A : Nat → Prop) (s t : State) : Prop where
  rest : t = { s with regs := t.regs, mem := t.mem, rings := t.rings, evtHeld := t.evtHeld, irqHeld := t.irqHeld,
                      evtLog := t.evtLog, evtNow := t.evtNow }
  cycle : t.evtNow.isSome = s.evtNow.isSome
  regs : ∀ a, ¬ A a → t.reg a = s.reg a
  bits : ∀ a k, bitOf (s.reg a).toNat k = true → bitOf (t.reg a).toNat k = true
  rings : ∀ i, t.ring i = { s.ring i with prod := (t.ring i).prod, lost := (t.ring i).lost, lostBefore := (t.ring i).lostBefore }
  others : ∀ i, ¬ (8 ≤ i ∧ i ≤ 11) → t.ring i = s.ring i
  bytes : ∀ a, ¬ s.eventByte a → t.byte a = s.byte a
  mem : Memory.wf s.mem → Memory.wf t.mem

/-- Of registers and memory, `t` differs from `s` only in the registers that `R` names and in the records of events. -/
structure Frame (R : Nat → Prop) (s t : State) : Prop where
  regs : ∀ a, ¬ R a → t.reg a = s.reg a
  rings : ∀ i, t.ring i = { s.ring i with prod := (t.ring i).prod, lost := (t.ring i).lost, lostBefore := (t.ring i).lostBefore }
  others : ∀ i, ¬ (8 ≤ i ∧ i ≤ 11) → t.ring i = s.ring i
  bytes : ∀ a, ¬ s.eventByte a → t.byte a = s.byte a

/-- Of registers and memory, `t` differs from `s` only in the registers that `R` names. -/
structure Quiet (R : Nat → Prop) (s t : State) : Prop where
  regs : ∀ a, ¬ R a → t.reg a = s.reg a
  rings : t.rings = s.rings
  bytes : ∀ a, t.byte a = s.byte a

/-- `t` is `s` but for events of the pages `ps`. -/
abbrev EventsOf (ps : List Nat) (s t : State) : Prop := EventsOnly (StatusOf ps) s t

end Sys2Proof.Machine
end

