-- ==== Sys2Proof/Certificates/Slice0/Obligations.lean ====
section
/-!
DEFINITION. The statements for the provers.

A clause whose conclusion is `exec c s = .next t`, or `After (exec c s) …`, says that the command runs whenever its hypotheses on
state and operands hold, and what it leaves.  `Frame`, `Quiet`, `EventsOf` (Safety.lean) say what stays.
-/
open Sys2Proof Sys2Proof.Machine

/-! ## Clocks, references and time (02_clocks_and_time.md) -/

/-- What LOSS, a glitch, a change of rate, PRESENT and the end of a wait do to a monitor that no follower port listens to and
that is not the selected reference (R34, R35). Where a clause rests on a choice or an inference of the model, that is logged in
notes/assumptions: 2, 85. -/
def Obligations.MonitorCommands : Prop :=
  (∀ (m : Fin 43) (s : State), s.monLive m = true → s.monState m = monPresentSt → s.isRef m = false → s.monFollowers m = [] →
    After (exec (.monLoss m) s) fun t => t.monState m = monLost ∧ t.mons = s.mons.set m ⟨true, [], s.mons[m].nominal⟩
      ∧ t.fld (Fd.CLK_MON_CNT_LOSS_CNT m) = satAdd 16 (s.fld (Fd.CLK_MON_CNT_LOSS_CNT m)) 1 ∧ t.evt clkPage ClkEv.MON_EVENT = true
      ∧ Frame (fun a => a = Adr.CLK_MON_STAT m ∨ a = Adr.CLK_MON_CNT m ∨ StatusOf [clkPage] a) s t)
  ∧ (∀ (m : Fin 43) (gap : Nat) (s : State), s.monLive m = true → s.monState m = monPresentSt → s.isRef m = false →
    s.monFollowers m = [] → s.monDeaf m = false → s.fld (Fd.CLK_MON_CFG_GLITCH_LIMIT m) = 0 →
    After (exec (.monGlitch m gap) s) fun t =>
      t.fld (Fd.CLK_MON_CNT_GLITCH_CNT m) = satAdd 16 (s.fld (Fd.CLK_MON_CNT_GLITCH_CNT m)) 1
      ∧ t.mons = s.mons.set m ⟨s.mons[m].fromLost, 0 :: ((s.mons[m].glitches.map (· + gap)).filter (· < 1024)), s.mons[m].nominal⟩
      ∧ Quiet (· = Adr.CLK_MON_CNT m) s t)
  ∧ (∀ (m : Fin 43) (code : Fin 18) (ppm : Int) (s : State), s.monLive m = true → s.monState m = monPresentSt →
    s.isRef m = false → s.monFollowers m = [] → s.monDeaf m = false → s.mons[m].nominal ≠ code.val → ppm.natAbs ≤ 10000 →
    After (exec (.monRateChange m code ppm) s) fun t => t.fld (Fd.CLK_MON_STAT_NOMINAL m) = code.val
      ∧ t.sfld (Fd.CLK_MON_STAT_OFFSET_PPM m) = ppm ∧ t.mons = s.mons.set m { s.mons[m] with nominal := code.val }
      ∧ Quiet (· = Adr.CLK_MON_STAT m) s t)
  ∧ (∀ (m : Fin 43) (code : Fin 18) (ppm : Int) (s : State), s.monLive m = true → s.monState m = monAcquiring →
    s.isRef m = false → s.monFollowers m = [] → s.monDeaf m = false → ppm.natAbs ≤ 10000 →
    After (exec (.monPresent m code ppm) s) fun t => t.monState m = monPresentSt
      ∧ t.fld (Fd.CLK_MON_STAT_NOMINAL m) = code.val ∧ t.sfld (Fd.CLK_MON_STAT_OFFSET_PPM m) = ppm
      ∧ t.mons = s.mons.set m ⟨false, [], code.val⟩ ∧ t.evt clkPage ClkEv.MON_EVENT = true
      ∧ Frame (fun a => a = Adr.CLK_MON_STAT m ∨ StatusOf [clkPage] a) s t)
  ∧ (∀ (m : Fin 43) (s : State), s.monLive m = true → s.monState m = monAcquiring →
    After (exec (.monAcquireTimeout m) s) fun t => t.monState m = (if s.mons[m].fromLost then monLost else monAbsent)
      ∧ t.mons = s.mons ∧ Frame (fun a => a = Adr.CLK_MON_STAT m ∨ StatusOf [clkPage] a) s t)

/-- The selected reference and the PLL (R28, R30, R36–R43). Where a clause rests on a choice or an inference of the model, that
is logged in notes/assumptions: 2, 3, 4, 38, 85, 86. -/
def Obligations.PllCommands : Prop :=
  (∀ (v : Word) (s : State), s.pageTakes clkPage = true → s.fld Fd.FAB_STAT_STATE ≠ 0 →
    exec (.clkCoreWrite v) s = .next (s.setErr clkPage 0))
  ∧ (∀ (v : Word) (s : State), s.pageTakes clkPage = true → s.fld Fd.FAB_STAT_STATE = 0 →
    s.stored Adr.CLK_CORE v.toNat ≠ s.reg Adr.CLK_CORE →
    After (exec (.clkCoreWrite v) s) fun t => t.reg Adr.CLK_CORE = s.stored Adr.CLK_CORE v.toNat ∧ t.pllState = .acquire
      ∧ t.pll.locking = false ∧ t.pll.snap = Glide.at (.db 0 1)
      ∧ Quiet (fun a => a = Adr.CLK_CORE ∨ a = Adr.CLK_PLL_STAT ∨ a = Adr.CLK_HOLD_TIME) s t)
  ∧ (∀ (v : Word) (s : State), s.pageTakes clkPage = true → refKnown (bitsAt v.toNat 0 7) = false →
    exec (.refSelWrite v) s = .next (s.setErr clkPage 1))
  ∧ (∀ (v : Word) (m : Fin 43) (s : State), s.pageTakes clkPage = true → refMon (bitsAt v.toNat 0 7) = some m →
    s.usable m = true → s.pllState = .free →
    After (exec (.refSelWrite v) s) fun t => t.refSrc = bitsAt v.toNat 0 7 ∧ t.pllState = .free ∧ t.pll.locking = true
      ∧ Quiet (· = Adr.CLK_REF_SEL) s t)
  ∧ (∀ (s : State), s.domOn Dm.PLL = true → s.pllState = .acquire → s.refSrc = 0 → exec .pllAcquireDone s = .next ((s.pllTo .free).freeWord))
  ∧ (∀ (s : State), s.domOn Dm.PLL = true → s.pllState = .acquire → s.refSrc ≠ 0 → s.refUsable = true →
    After (exec .pllAcquireDone s) fun t => t.pllState = .locked ∧ t.pllWord = s.refWord
      ∧ t.pll = { s.pll with locking := false, former := 0x1F, past := t.pll.past, follow := true }
      ∧ Quiet (fun a => a = Adr.CLK_PLL_STAT ∨ OfPages [asrcPage] a) s t)
  ∧ (∀ (s : State), s.domOn Dm.PLL = true → s.pllState = .acquire → s.refSrc ≠ 0 → s.refUsable = false →
    After (exec .pllAcquireDone s) fun t => t.pllState = .holdover ∧ t.pllWord.natAbs ≤ 200 ∧ t.pll.holdMark = s.syscnt
      ∧ t.evt clkPage ClkEv.HOLDOVER_ENTER = true
      ∧ t.fld Fd.CLK_HOLD_CNT_COUNT = satAdd 16 (s.fld Fd.CLK_HOLD_CNT_COUNT) 1
      ∧ Frame (fun a => a = Adr.CLK_PLL_STAT ∨ a = Adr.CLK_HOLD_CNT ∨ OfPages [asrcPage] a ∨ StatusOf [clkPage] a) s t)
  ∧ (∀ (s : State), s.domOn Dm.PLL = true → s.pllState = .slewing → s.pll.matched = true → s.refUsable = true →
    After (exec .pllSlewDone s) fun t => t.pllState = .locked ∧ t.pllWord = s.refWord ∧ t.pll.follow = true
      ∧ t.evt clkPage ClkEv.RELOCKED = true
      ∧ Frame (fun a => a = Adr.CLK_PLL_STAT ∨ OfPages [asrcPage] a ∨ StatusOf [clkPage] a) s t)
  ∧ (∀ (s : State), s.domOn Dm.PLL = true → s.pllState = .snapMute → s.pll.snap.left = 0 →
    After (exec .snapMuteDone s) fun t => t.pllState = .snapRelock ∧ t.pll = { s.pll with snap := Glide.at .mute, follow := false }
      ∧ Frame (fun a => a = Adr.CLK_PLL_STAT ∨ OfPages [asrcPage] a) s t)
  ∧ (∀ (s : State), s.domOn Dm.PLL = true → s.pllState = .snapRelock → s.refUsable = true →
    After (exec .snapRelockDone s) fun t => t.pllState = .snapReturn ∧ t.pllWord = s.refWord ∧ t.pll.follow = true
      ∧ t.pll.snap = s.pll.snap.aim (.db 0 1) (s.fld Fd.CLK_SNAP_RETURN_TICKS)
      ∧ Quiet (fun a => a = Adr.CLK_PLL_STAT ∨ OfPages [asrcPage] a) s t)
  ∧ (∀ (s : State), s.domOn Dm.PLL = true → s.pllState = .snapReturn → s.pll.snap.left = 0 → s.refSrc ≠ 0 → s.refUsable = true → s.rateHeld = false →
    After (exec .snapReturnDone s) fun t => t.pllState = .locked ∧ t.pllWord = s.refWord
      ∧ t.pll = { s.pll with snap := Glide.at (.db 0 1), locking := false, former := 0x1F, past := t.pll.past, follow := true }
      ∧ t.evt clkPage ClkEv.RELOCKED = true
      ∧ Frame (fun a => a = Adr.CLK_PLL_STAT ∨ OfPages [asrcPage] a ∨ StatusOf [clkPage] a) s t)
  ∧ (∀ (m : Fin 43) (ppm : Int) (s : State), refMon s.refSrc = some m → s.monLive m = true → s.monDeaf m = false →
    s.usable m = true → s.pllState = .locked → 2000 < ppm.natAbs → ppm.natAbs ≤ 10000 →
    After (exec (.refUnusable ppm) s) fun t => t.pllState = .holdover ∧ t.pll.holdMark = s.syscnt
      ∧ t.sfld (Fd.CLK_MON_STAT_OFFSET_PPM m) = ppm ∧ t.fld (Fd.CLK_MON_STAT_NOMINAL m) = s.mons[m].nominal
      ∧ t.evt clkPage ClkEv.REF_LOSS = true ∧ t.evt clkPage ClkEv.HOLDOVER_ENTER = true
      ∧ t.evt clkPage ClkEv.REF_UNUSABLE = true
      ∧ Frame (fun a => a = Adr.CLK_MON_STAT m ∨ a = Adr.CLK_PLL_STAT ∨ a = Adr.CLK_HOLD_CNT ∨ OfPages [asrcPage] a
        ∨ StatusOf [clkPage] a) s t)
  ∧ (∀ (m : Fin 43) (ppm : Int) (s : State), refMon s.refSrc = some m → s.monLive m = true → s.monDeaf m = false → s.usable m = true →
    s.fld (Fd.CLK_MON_STAT_NOMINAL m) = s.mons[m].nominal → s.pllState = .locked → s.pll.follow = true → ppm.natAbs ≤ 2000 →
    After (exec (.refUsable ppm) s) fun t => t.pllState = .locked ∧ t.pllWord = 10 * ppm
      ∧ t.sfld (Fd.CLK_MON_STAT_OFFSET_PPM m) = ppm
      ∧ Quiet (fun a => a = Adr.CLK_MON_STAT m ∨ a = Adr.CLK_PLL_STAT ∨ OfPages [asrcPage] a) s t)
  ∧ (∀ (m : Fin 43) (ppm : Int) (s : State), refMon s.refSrc = some m → s.monLive m = true → s.monDeaf m = false →
    s.monState m = monPresentSt →
    s.usable m = false → s.pllState = .holdover → s.flag Fd.CLK_RELOCK_POLICY = false → s.fld Fd.CLK_RELOCK_SLEW_MAX = 0 →
    rateKnown s.mons[m].nominal = true → rate441 s.mons[m].nominal = s.flag Fd.CLK_CORE_FAMILY → s.pll.former = 0x1F →
    ppm.natAbs ≤ 2000 →
    After (exec (.refUsable ppm) s) fun t => t.pllState = .slewing ∧ t.pllWord = s.pllWord
      ∧ t.pll.slewFrom = s.pllWord ∧ t.pll.slewMark = s.syscnt ∧ t.fld Fd.CLK_HOLD_TIME_MS = s.holdMs
      ∧ Quiet (fun a => a = Adr.CLK_MON_STAT m ∨ a = Adr.CLK_PLL_STAT ∨ a = Adr.CLK_HOLD_TIME) s t)

/-- SYSCNT, TICKCNT and the ensemble (R46–R52): reads latch, coarse counting ends, frames are sent, taken and repeated. Where a
clause rests on a choice or an inference of the model, that is logged in notes/assumptions: 2, 16, 38, 39. -/
def Obligations.TimeCommands : Prop :=
  (∀ (s : State), s.domOn Dm.AON = true → After (exec .syscntLoRead s) fun t => t.bus = word s.syscnt
    ∧ t.reg Adr.TIME_SYSCNT_HI = word (s.syscnt / 2 ^ 32) ∧ t.syscnt = s.syscnt ∧ Quiet (· = Adr.TIME_SYSCNT_HI) s t)
  ∧ (∀ (s : State), s.domOn Dm.AON = true → After (exec .tickcntLoRead s) fun t => t.bus = word s.tickcnt
    ∧ t.reg Adr.TIME_TICKCNT_HI = word (s.tickcnt / 2 ^ 32 % 2 ^ 16) ∧ t.reg Adr.TIME_TICK_SYSCNT_LO = word s.tickSys
    ∧ t.reg Adr.TIME_TICK_SYSCNT_HI = word (s.tickSys / 2 ^ 32) ∧ t.tickcnt = s.tickcnt
    ∧ Quiet (fun a => a = Adr.TIME_TICKCNT_HI ∨ a = Adr.TIME_TICK_SYSCNT_LO ∨ a = Adr.TIME_TICK_SYSCNT_HI) s t)
  ∧ (∀ (s : State), s.coarse = true → s.timebase = true → After (exec .coarseExit s) fun t => t.coarse = false
    ∧ t.evt timePage TimeEv.COARSE_EXIT = true ∧ EventsOf [timePage] { s with coarse := false } t)
  ∧ (∀ (s : State), s.fld Fd.TIME_ENS_CTRL_ROLE = 1 → s.syscnt % 2 ^ 20 = 0 →
    exec .epochFrameSend s = .next { s with ens := { s.ens with
      out := if s.vioUp then some (epochFrame (s.syscnt / 2 ^ 20) 0 (bit s.ens.rejoin)) else none, rejoin := false } })
  ∧ (∀ (f : BitVec 64) (s : State), s.fld Fd.TIME_ENS_CTRL_ROLE = 2 → s.vioUp = true → epochData f = none →
    exec (.epochFrameReceive f) s = .next ((s.countSat Fd.TIME_ENS_STAT_PARITY_CNT 1).raise timePage TimeEv.PARITY_ERR))
  ∧ (∀ (f : BitVec 64) (d : Nat) (s : State), s.fld Fd.TIME_ENS_CTRL_ROLE = 2 → s.vioUp = true → epochData f = some d →
    d % 8 < 2 →
    s.coarse = false → (s.ens.join = true ∨ d % 8 = 1) →
    After (exec (.epochFrameReceive f) s) fun t => t.flag Fd.TIME_STATUS_JOINED = true ∧ t.flag Fd.TIME_STATUS_ENS_LOST = false
      ∧ t.fld Fd.TIME_STATUS_HOP = d / 8 % 512 ∧ t.ens.join = false ∧ t.ens.last = some f)
  ∧ (∀ (f : BitVec 64) (s : State), s.fld Fd.TIME_ENS_CTRL_ROLE = 2 → s.flag Fd.TIME_ENS_CTRL_REPEAT = true →
    s.ens.last = some f → exec .epochFrameRepeat s = .next { s with ens := { s.ens with
      out := if s.vioUp then some (epochFrame ((epochData f).getD 0 / 4096) ((epochData f).getD 0 / 8 % 512 + 1)
        ((epochData f).getD 0 % 8)) else none, last := none } })
  ∧ (∀ (s : State), s.fld Fd.TIME_ENS_CTRL_ROLE = 2 → After (exec .ensLost s) fun t =>
    t.flag Fd.TIME_STATUS_ENS_LOST = true ∧ t.flag Fd.TIME_STATUS_AGREE = false ∧ t.ens.join = true ∧ t.ens.steer = 0
      ∧ (s.flag Fd.TIME_STATUS_AGREE = true → t.evt timePage TimeEv.AGREE_LOST = true)
      ∧ Frame (fun a => a = Adr.TIME_STATUS ∨ StatusOf [timePage] a) s t)
  ∧ (∀ (s : State), s.fld Fd.TIME_ENS_CTRL_ROLE = 1 →
    exec .ensRejoin s = .next { s with ens := { s.ens with rejoin := true } })

/-! ## Serial audio ports (03_serial_audio_ports.md) -/

/-- Starting, stopping, muting and configuring a port (R72, R73, R78–R81). Where a clause rests on a choice or an inference of
the model, that is logged in notes/assumptions: 2, 83. -/
def Obligations.PortControlCommands : Prop :=
  (∀ (n : Fin 32) (s u : State), u = (s.setFld (Fd.SAP_CTRL_MUTE n) (s.fld (Fd.SAP_CTRL_MUTE n))).setFld (Fd.SAP_CTRL_RUN n) 1 →
    s.pageTakes (sapPage n) = true → s.flag (Fd.SAP_CTRL_RUN n) = false → s.sapState n = .stopped →
    u.sapValid n = true → u.groupRefusals n = [] →
    exec (.sapRunStart n) s = .next (u.enterStarting n) ∧ (u.enterStarting n).sapState n = .starting)
  ∧ (∀ (n : Fin 32) (s u : State), u = (s.setFld (Fd.SAP_CTRL_MUTE n) (s.fld (Fd.SAP_CTRL_MUTE n))).setFld (Fd.SAP_CTRL_RUN n) 1 →
    s.pageTakes (sapPage n) = true → s.flag (Fd.SAP_CTRL_RUN n) = false → s.sapState n = .stopped → u.sapValid n = false →
    exec (.sapRunStart n) s = .next ((u.setErr (sapPage n) 0).setFld (Fd.SAP_CTRL_RUN n) 0))
  ∧ (∀ (n : Fin 32) (s : State), s.pageTakes (sapPage n) = true → s.flag (Fd.SAP_CTRL_RUN n) = true → s.sapState n = .running →
    After (exec (.sapRunStop n) s) fun t => t.sapState n = .stopping ∧ t.flag (Fd.SAP_CTRL_RUN n) = false
      ∧ Frame (OfPages [sapPage n]) s t)
  ∧ (∀ (n : Fin 32) (s : State), s.pageTakes (sapPage n) = true → s.flag (Fd.SAP_CTRL_RUN n) = true → s.sapState n = .held →
    After (exec (.sapRunStop n) s) fun t => t.sapState n = .stopped ∧ t.flag (Fd.SAP_CTRL_RUN n) = false
      ∧ t.evt (sapPage n) SapEv.STOPPED = true
      ∧ Frame (OfPages [sapPage n, timePage]) s t)
  ∧ (∀ (n : Fin 32) (mask : BitVec 4) (s : State), s.pageTakes (sapPage n) = true → s.sapState n ≠ .running →
    exec (.sapMuteRequest n mask) s = .next (s.setFld (Fd.SAP_CTRL_MUTE n) mask.toNat))
  ∧ (∀ (n : Fin 32) (mask : BitVec 4) (s : State), s.pageTakes (sapPage n) = true → s.sapState n = .running →
    After (exec (.sapMuteRequest n mask) s) fun t => t.fld (Fd.SAP_CTRL_MUTE n) = mask.toNat ∧ t.sapState n = .running
      ∧ Frame (OfPages [sapPage n]) s t)
  ∧ (∀ (n : Fin 32) (r : SapReg) (v : Word) (s : State), s.pageTakes (sapPage n) = true → (r = .aesCfg → 24 ≤ n.val) →
    s.sapState n = .stopped → exec (.sapConfigWrite n r v) s = .next (s.store (sapRegAddr n r) v.toNat))
  ∧ (∀ (n : Fin 32) (r : SapReg) (v : Word) (s : State), s.pageTakes (sapPage n) = true → (r = .aesCfg → 24 ≤ n.val) →
    s.sapState n ≠ .stopped →
    exec (.sapConfigWrite n r v) s = .next { s with cfgPend := s.cfgPend ++ [(sapRegAddr n r, v.toNat)] })
  ∧ (∀ (n : Fin 32) (s : State), s.sapState n = .stopping → s.drained n = true →
    exec (.sapStopped n) s = .next (s.enterStopped n))

/-- Frames at the pins, delivery and the switching of channels (R75–R79, R82). Where a clause rests on a choice or an inference
of the model, that is logged in notes/assumptions: 2, 4, 41, 43, 83, 84. -/
def Obligations.PortStreamCommands : Prop :=
  (∀ (n : Fin 32) (f : RxFrame) (s : State), s.domOn (Dm.PORTG (n.val / 8)) = true → s.sapDeaf n = false →
    s.isMaster n = true → s.isAes n = false → s.sapState n = .running → s.frameEarly n s.saps[n].lastRx = false →
    exec (.sapFrameReceived n f) s = .next ((((s.updSap n fun p => { p with lastRx := s.ticks }).rxLine n 0 f).rxLine n 1
      f).updSap n fun p => { p with glitch := false }))
  ∧ (∀ (n : Fin 32) (f : RxFrame) (s : State), s.domOn (Dm.PORTG (n.val / 8)) = true → s.isMaster n = true →
    s.isAes n = false → s.frameEarly n s.saps[n].lastRx = true → s.sapDeaf n = false →
    exec (.sapFrameReceived n f) s = .next s)
  ∧ (∀ (n : Fin 32) (f : RxFrame) (k : Fin 2) (s : State), s.dir n k = 1 → s.domOn Dm.PLL = true →
    (s.line n k).live = true → s.rxClock n = false →
    s.rxLine n k f = s.updLine n k fun q => { q with fin := q.fin + 1, dropped := q.dropped + 1 })
  ∧ (∀ (n : Fin 32) (s : State), s.domOn (Dm.PORTG (n.val / 8)) = true → (s.isMaster n = true ∨ s.sapDeaf n = false) →
    s.sapState n = .running → s.frameEarly n s.saps[n].lastTx = false →
    exec (.sapFrameTransmit n) s = .next (((s.updSap n fun p => { p with lastTx := s.ticks }).txLine n 0).txLine n 1))
  ∧ (∀ (n : Fin 32) (s : State), s.sapState n = .starting →
    exec (.sapDeliveryStart n) s = .next (((s.deliverLine n 0).deliverLine n 1).syncZc n))
  ∧ (∀ (n : Fin 32) (k : Fin 2) (s : State), s.dir n k = 2 → (s.line n k).live = true → (s.line n k).delivering = false →
    s.blockFrames n ≤ (s.line n k).fill → s.sapState n = .starting →
    ((s.deliverLine n k).sapState n = .running ∧ (s.deliverLine n k).evt (sapPage n) SapEv.STARTED = true
      ∧ ((s.deliverLine n k).line n k).delivering = true))
  ∧ (∀ (n : Fin 32) (ch : Fin 4) (w : Nat) (s : State), s.saps[n].chans[ch].sw = .waitIn w →
    s.msTicks (s.fld (Fd.SAP_ZC_TIMEOUT n)) ≤ w →
    exec (.zcTimeout n ch) s = .next ((s.updChan n ch fun c => { c with sw := .glideIn 32 }).raise (sapPage n) SapEv.ZC_TIMEOUT))
  ∧ (∀ (n : Fin 32) (ch : Fin 4) (w : Nat) (s : State), s.saps[n].chans[ch].sw = .waitOut w →
    s.msTicks (s.fld (Fd.SAP_ZC_TIMEOUT n)) ≤ w →
    exec (.zcTimeout n ch) s = .next ((s.updChan n ch fun c => { c with sw := .glideOut 32 }).raise (sapPage n) SapEv.ZC_TIMEOUT))
  ∧ (∀ (n : Fin 32) (ch : Fin 4) (s : State), s.saps[n].chans[ch].sw = .glideIn 0 →
    exec (.zcGlideDone n ch) s = .next ((s.updChan n ch fun c => { c with sw := .opened }).syncZc n))
  ∧ (∀ (n : Fin 32) (ch : Fin 4) (s : State), s.saps[n].chans[ch].sw = .glideOut 0 →
    exec (.zcGlideDone n ch) s = .next ((s.updChan n ch fun c => { c with sw := .silent }).syncZc n))

/-- The counts and stamps of a port (R69, R84): reads latch. Where a clause rests on a choice or an inference of the model, that
is logged in notes/assumptions/16.md. -/
def Obligations.PortCountCommands : Prop :=
  (∀ (n : Fin 32) (k : Fin 2) (s : State), s.pageOn (sapPage n) = true →
    After (exec (.framesInRead n k) s) fun t => t.bus = word (s.line n k).fin
      ∧ t.fld (Fd.SAP_FRAMES_OUT_COUNT n k) = (s.line n k).fout % 2 ^ 32
      ∧ t.fld (Fd.SAP_FILL_COUNT n k) = (s.line n k).store % 2 ^ (Fd.SAP_FILL_COUNT n k).width
      ∧ t.fld (Fd.SAP_DROPPED_COUNT n k) = (s.line n k).dropped % 2 ^ 32
      ∧ t.fld (Fd.SAP_INSERTED_COUNT n k) = (s.line n k).inserted % 2 ^ 32 ∧ t.saps = s.saps
      ∧ Quiet (fun a => a = Adr.SAP_FRAMES_OUT n k ∨ a = Adr.SAP_FILL n k ∨ a = Adr.SAP_DROPPED n k ∨ a = Adr.SAP_INSERTED n k) s t)
  ∧ (∀ (n : Fin 32) (s : State), s.pageOn (sapPage n) = true →
    After (exec (.stampLoRead n) s) fun t => t.bus = word s.saps[n].stampNow
      ∧ t.reg (Adr.SAP_STAMP_HI n) = word (s.saps[n].stampNow / 2 ^ 32) ∧ t.reg (Adr.SAP_BLOCK_CNT n) = word s.saps[n].blocks
      ∧ t.saps = s.saps ∧ Quiet (fun a => a = Adr.SAP_STAMP_HI n ∨ a = Adr.SAP_BLOCK_CNT n) s t)

/-- CNT_CTRL.CLEAR (R85): it clears all counts of both lines, and only while the port is STOPPED; at any other time it is
discarded and ERR.CLEAR_DENIED is set. -/
def Obligations.CountClear : Prop :=
  (∀ (n : Fin 32) (s : State), s.pageTakes (sapPage n) = true → s.sapState n = .stopped →
    After (exec (.sapCntClear n) s) fun t =>
      (∀ k : Fin 2, (t.line n k).fin = 0 ∧ (t.line n k).fout = 0 ∧ (t.line n k).dropped = 0 ∧ (t.line n k).inserted = 0
        ∧ t.fld (Fd.SAP_FRAMES_OUT_COUNT n k) = 0 ∧ t.fld (Fd.SAP_FILL_COUNT n k) = 0
        ∧ t.fld (Fd.SAP_DROPPED_COUNT n k) = 0 ∧ t.fld (Fd.SAP_INSERTED_COUNT n k) = 0)
      ∧ (∀ m : Fin 32, m ≠ n → t.saps[m] = s.saps[m])
      ∧ Quiet (fun a => ∃ k : Fin 2, a = Adr.SAP_FRAMES_OUT n k ∨ a = Adr.SAP_FILL n k ∨ a = Adr.SAP_DROPPED n k
          ∨ a = Adr.SAP_INSERTED n k) s t)
  ∧ (∀ (n : Fin 32) (s : State), s.pageTakes (sapPage n) = true → s.sapState n ≠ .stopped →
    After (exec (.sapCntClear n) s) fun t => t.err (sapPage n) 1 = true ∧ t = { s with regs := t.regs }
      ∧ ∀ a, a ≠ pageAddr (sapPage n) 0x01C → t.reg a = s.reg a)

/-! ## AES3 (04_aes3_ports.md) -/

/-- Lock, channel status and its swap (R93, R98, R99). Where a clause rests on a choice or an inference of the model, that is
logged in notes/assumptions: 2, 16, 42, 83. -/
def Obligations.AesCommands : Prop :=
  (∀ (k : Fin 8) (s : State), s.aesRx (aesPort k) = true → s.fld (Fd.SAP_AES_RX_STAT_LOCK (aesPort k)) ≠ 2 →
    exec (.aesRxLocked k) s = .next (((s.setFld (Fd.SAP_AES_RX_STAT_LOCK (aesPort k)) 2).monEdge
      (Fin.ofNat 43 (35 + (aesPort k).val - 24))).raiseAes (sapPage (aesPort k)) aesLocked))
  ∧ (∀ (k : Fin 8) (s : State), s.aesRx (aesPort k) = true → s.fld (Fd.SAP_AES_RX_STAT_LOCK (aesPort k)) = 2 →
    exec (.aesRxLockLost k) s = .next ((((s.setFld (Fd.SAP_AES_RX_STAT_LOCK (aesPort k)) 1).setFld
      (Fd.SAP_AES_RX_STAT_CS_STALE (aesPort k)) 1).updAes (aesPort k) fun x => { x with rxPos := none }).raiseAes
      (sapPage (aesPort k)) aesUnlocked))
  ∧ (∀ (k : Fin 8) (s : State), s.aesRx (aesPort k) = true → s.fld (Fd.SAP_AES_RX_STAT_LOCK (aesPort k)) = 0 →
    exec (.aesRxAcquiring k) s = .next (s.setFld (Fd.SAP_AES_RX_STAT_LOCK (aesPort k)) 1))
  ∧ (∀ (k : Fin 8) (s : State), s.aesRx (aesPort k) = true → s.fld (Fd.SAP_AES_RX_STAT_LOCK (aesPort k)) ≠ 2 →
    exec (.aesRxUnlocked k) s = .next (s.setFld (Fd.SAP_AES_RX_STAT_LOCK (aesPort k)) 0))
  ∧ (∀ (k : Fin 8) (s : State), s.pageOn (sapPage (aesPort k)) = true →
    exec (.aesRxCsRead k false) s = .next ((s.latchCs (aesPort k)).answer (sapPage (aesPort k))
      ((s.latchCs (aesPort k)).reg (Adr.SAP_AES_RX_CS_A (aesPort k) 0))))
  ∧ (∀ (k : Fin 8) (s : State),
    exec (.aesRxCsRead k true) s = .next (s.answer (sapPage (aesPort k)) (s.reg (Adr.SAP_AES_RX_CS_B (aesPort k) 0))))
  ∧ (∀ (k : Fin 8) (s : State), s.pageTakes (sapPage (aesPort k)) = true →
    After (exec (.aesTxSwap k) s) fun t => t.flag (Fd.SAP_AES_TX_CTRL_SWAP (aesPort k)) = true
      ∧ t.saps[aesPort k].aes.swapTick = some (s.saps[aesPort k].aes.swapTick.getD s.ticks)
      ∧ Quiet (· = Adr.SAP_AES_TX_CTRL (aesPort k)) s t)
  ∧ (∀ (k : Fin 8) (w : Nat) (s : State), s.saps[aesPort k].aes.swapTick = some w → w < s.ticks → s.isAes (aesPort k) = true →
    s.dir (aesPort k) 1 = 2 → s.sapState (aesPort k) = .running → s.saps[aesPort k].aes.txPos = 0 →
    exec (.aesCsSwapCopy k) s = .next (((s.csCopy (aesPort k)).setFld (Fd.SAP_AES_TX_CTRL_SWAP (aesPort k)) 0).raiseAes
      (sapPage (aesPort k)) aesCsSwapped))

/-! ## Alignment and rate conversion (05_alignment_and_rate_conversion.md) -/

/-- Groups and their members (R106, R108, R110, R113, R115, R118). Where a clause rests on a choice or an inference of the
model, that is logged in notes/assumptions: 2, 4, 74, 84, 87. -/
def Obligations.GroupCommands : Prop :=
  (∀ (g : Fin 8) (r : GrpReg) (v : Word) (s : State), s.grpShort g r v.toNat = false →
    exec (.grpConfigWrite g r v) s = .next (s.grpWrite g r v.toNat))
  ∧ (∀ (g : Fin 8) (r : GrpReg) (v : Word) (s : State), r ≠ .ctrl → (s.hold (grpRegAddr g r) v.toNat).grpMayApply g = false →
    exec (.grpConfigWrite g r v) s = .next { s with cfgPend := s.cfgPend ++ [(grpRegAddr g r, v.toNat)] })
  ∧ (∀ (n : Fin 32) (k : Fin 2) (g : Fin 8) (s : State), s.groupOf n k = some g → s.grps[g].silent = false → s.dir n k = 1 →
    s.sapState n = .running → (s.line n k).live = true → (s.line n k).anchored = true → (s.line n k).delivering = false →
    s.anchorDue g n k = true → s.cushOn g n k = true →
    After (exec (.memberDeliveryStart n k) s) fun t => (t.line n k).delivering = true ∧ (t.line n k).nextPos = 0
      ∧ (t.line n k).anchorTick = s.ticks + 1
      ∧ Frame (OfPages [sapPage n]) s t)
  ∧ (∀ (n : Fin 32) (k : Fin 2) (s : State), s.dir n k = 1 → (s.line n k).live = true →
    exec (.memberStarved n k) s = .next (s.updLine n k fun q => { q with starved := true }))
  ∧ (∀ (n : Fin 32) (k : Fin 2) (s : State), (s.line n k).snow = .fade 0 → s.dir n k ≠ 1 →
    exec (.snowploughSilent n k) s = .next (s.updLine n k fun q => { q with snow := .silent }))
  ∧ (∀ (n : Fin 32) (k : Fin 2) (g : Fin 8) (s : State), (s.line n k).snow = .fade 0 → s.dir n k = 1 → s.groupOf n k = some g →
    After (exec (.snowploughSilent n k) s) fun t => (t.line n k).snow = .silent
      ∧ bitOf (t.reg (Adr.TIME_GRP_EVT_STATUS g)).toNat GrpEv.SILENT = true
      ∧ Frame (OfPages [sapPage n, timePage]) s t)
  ∧ (∀ (n : Fin 32) (k : Fin 2) (s : State), s.canRejoin n k = true → s.groupOf n k = none → s.mustReanchor n k = true →
    exec (.memberRejoin n k) s = .next (s.reanchor n k ((s.line n k).backRec == some true)))
  ∧ (∀ (n : Fin 32) (k : Fin 2) (s : State), s.canRejoin n k = true → s.groupOf n k = none → s.mustReanchor n k = false →
    (s.line n k).nextPos ≤ s.headPos n k →
    exec (.memberRejoin n k) s = .next (s.updLine n k fun q =>
      { q with snow := .waitPos, rejoinRec := q.rejoinRec || q.backRec != some false, backRec := none }))
  ∧ (∀ (n : Fin 32) (k : Fin 2) (s : State), (s.line n k).snow = .glide 0 →
    exec (.rejoinGlideDone n k) s = .next (s.updLine n k fun q => { q with snow := .none }))

/-- Rate converters (R124–R126). Where a clause rests on a choice or an inference of the model, that is logged in
notes/assumptions: 2, 4, 74, 75. -/
def Obligations.ConverterCommands : Prop :=
  (∀ (i : Fin 64) (v : Word) (s : State), s.pageTakes asrcPage = true → s.asrcOn i.val = true → bitOf v.toNat 0 = true →
    exec (.asrcConfigWrite i v) s = .next { s with cfgPend := s.cfgPend ++ [(Adr.ASRC_CH_CFG i, v.toNat)] })
  ∧ (∀ (i : Fin 64) (v : Word) (s : State), s.pageTakes asrcPage = true → s.asrcOn i.val = false → bitOf v.toNat 0 = false →
    exec (.asrcConfigWrite i v) s = .next (s.store (Adr.ASRC_CH_CFG i) (putBits v.toNat 0 1 0)))
  ∧ (∀ (i : Fin 64) (s : State), s.pageTakes asrcPage = true → s.asrcOn i.val = false → s.asrcMates i.val = [] →
    After (exec (.asrcEnable i) s) fun t => t.asrcOn i.val = true
      ∧ (t.asrcState i.val = .acquiring ∨ t.asrcState i.val = .outOfRange ∨ t.asrcState i.val = .invalid)
      ∧ t.asrcs[i].glide = Glide.at .mute ∧ t.asrcs[i].stopping = false
      ∧ Frame (OfPages [asrcPage]) s t)
  ∧ (∀ (i : Fin 64) (s : State), s.pageTakes asrcPage = true → s.asrcOn i.val = true →
    After (exec (.asrcDisable i) s) fun t => t.asrcOn i.val = false ∧ t.asrcs[i].stopping = true
      ∧ t.asrcs[i].glide = s.asrcs[i].glide.aim .mute (s.fld Fd.ASRC_GLIDE_IN_TICKS)
      ∧ t.holds (· == Adr.ASRC_CH_CFG i) = false
      ∧ Quiet (OfPages [asrcPage]) s t)
  ∧ (∀ (i : Fin 64) (s : State), s.asrcs[i].stopping = true → s.asrcs[i].glide.left = 0 →
    After (exec (.asrcOff i) s) fun t => t.asrcState i.val = .off ∧ t.fld (Fd.ASRC_CH_STAT_RATE i) = 0x1F
      ∧ t.asrcs[i].stopping = false
      ∧ Quiet (OfPages [asrcPage]) s t)
  ∧ (∀ (i : Fin 64) (s : State), s.asrcOn i.val = true → s.asrcState i.val = .acquiring → s.asrcMates i.val = [i.val] →
    After (exec (.asrcLocked i) s) fun t => t.asrcState i.val = .locked ∧ t.evt asrcPage 0 = true
      ∧ t.fld (Fd.ASRC_CH_STAT_RATE i) = s.asrcNominal i.val % 32
      ∧ t.asrcs[i].glide = (Glide.at .mute).aim (.db 0 1) (s.fld Fd.ASRC_GLIDE_IN_TICKS)
      ∧ Frame (OfPages [asrcPage]) s t)

/-! ## Inputs (06_microphone_and_line_inputs.md) -/

/-- A channel starts, is ready, stops and changes its mode (R129, R132, R155). Where a clause rests on a choice or an inference
of the model, that is logged in notes/assumptions: 2, 4, 45. -/
def Obligations.InputStateCommands : Prop :=
  (∀ (n : Fin 16) (s : State), s.pageTakes (ainPage n) = true → s.flag (Fd.AIN_CTRL_ENABLE n) = false → s.ains[n].diag = none →
    s.ainState n = .off → After (exec (.ainEnable n) s) fun t => t.flag (Fd.AIN_CTRL_ENABLE n) = true
      ∧ t.ainState n = .starting ∧ t.ains[n].phase = .silent ∧ t.ains[n].gain = Glide.at (.db (s.ainTarget n) 1)
      ∧ Quiet (fun a => a = Adr.AIN_CTRL n ∨ a = Adr.AIN_STATUS n ∨ a = Adr.AIN_APPLIED_GAIN n) s t)
  ∧ (∀ (n : Fin 16) (s : State), s.pageTakes (ainPage n) = true → s.flag (Fd.AIN_CTRL_ENABLE n) = true → s.ains[n].diag = none →
    s.ainState n = .ready → After (exec (.ainDisable n) s) fun t => t.flag (Fd.AIN_CTRL_ENABLE n) = false
      ∧ t.ainState n = .stopping ∧ t.ains[n].phase = .out 32 ∧ t.ains[n].gain = Glide.at (.db (s.ainTarget n) 1)
      ∧ Quiet (fun a => a = Adr.AIN_CTRL n ∨ a = Adr.AIN_STATUS n ∨ a = Adr.AIN_APPLIED_GAIN n) s t)
  ∧ (∀ (n : Fin 16) (s : State), s.pageTakes (ainPage n) = true → s.flag (Fd.AIN_CTRL_ENABLE n) = true → s.ains[n].diag = none →
    s.ainState n = .starting → After (exec (.ainDisable n) s) fun t => t.flag (Fd.AIN_CTRL_ENABLE n) = false
      ∧ t.ainState n = .off ∧ t.evt (ainPage n) AinEv.OFF = true
      ∧ Frame (OfPages [ainPage n]) s t)
  ∧ (∀ (n : Fin 16) (s : State), s.pageTakes (ainPage n) = true → s.ains[n].diag = none → s.ainState n ≠ .ready →
    After (exec (.ainModeChange n) s) fun t => t.flag (Fd.AIN_CTRL_MODE n) = (!s.flag (Fd.AIN_CTRL_MODE n))
      ∧ t.ains[n].pad = (!s.flag (Fd.AIN_CTRL_MODE n)) ∧ (s.inService = true → t.fld (Fd.AIN_DIAG_CAL n) = 0)
      ∧ Quiet (fun a => a = Adr.AIN_CTRL n ∨ (s.inService = true ∧ a = Adr.AIN_DIAG n)) s t)
  ∧ (∀ (n : Fin 16) (s : State), s.pageTakes (ainPage n) = true → s.ains[n].diag = none → s.ainState n = .ready →
    s.ains[n].phase = .opened →
    After (exec (.ainModeChange n) s) fun t => t.flag (Fd.AIN_CTRL_MODE n) = (!s.flag (Fd.AIN_CTRL_MODE n))
      ∧ t.ains[n].pad = s.ains[n].pad ∧ t.ains[n].phase = .out 32 ∧ MuteCause.mode ∈ t.ains[n].causes
      ∧ t.flag (Fd.AIN_STATUS_MUTED_AUTO n) = true ∧ (s.inService = true → t.fld (Fd.AIN_DIAG_CAL n) = 0)
      ∧ Quiet (fun a => a = Adr.AIN_CTRL n ∨ a = Adr.AIN_STATUS n ∨ (s.inService = true ∧ a = Adr.AIN_DIAG n)) s t)
  ∧ (∀ (n : Fin 16) (s : State), s.domOn (Dm.AIN (n.val / 4)) = true →
    exec (.servoSettled n) s = .next (s.updAin n fun a => { a with servo := true }))
  ∧ (∀ (n : Fin 16) (s : State), s.ainRuns n = true → s.ainState n = .starting → s.ains[n].servo = true →
    s.ains[n].causes = [] → After (exec (.ainReady n) s) fun t => t.ainState n = .ready ∧ t.ains[n].phase = .into 32
      ∧ t.evt (ainPage n) AinEv.READY = true ∧ Frame (fun a => a = Adr.AIN_STATUS n ∨ StatusOf [ainPage n] a) s t)
  ∧ (∀ (n : Fin 16) (s : State), s.ainState n = .stopping → s.ains[n].phase = .out 0 →
    After (exec (.ainOff n) s) fun t => t.ainState n = .off ∧ t.evt (ainPage n) AinEv.OFF = true
      ∧ Frame (OfPages [ainPage n]) s t)

/-- Gains, auto-mutes and excursions of an input (R130, R131, R139, R140, R142, R143, R145). Where a clause rests on a choice or
an inference of the model, that is logged in notes/assumptions: 2, 4, 24, 75. -/
def Obligations.InputSignalCommands : Prop :=
  (∀ (n : Fin 16) (v : Word) (s : State), s.pageTakes (ainPage n) = true → s.ainState n ≠ .ready →
    (s.store (Adr.AIN_GAIN n) v.toNat).fld (Fd.AIN_GAIN_PREAMP n) ≠ s.fld (Fd.AIN_GAIN_PREAMP n) →
    exec (.preampGainWrite n v) s = .next ((s.store (Adr.AIN_GAIN n) v.toNat).gainAtOnce n))
  ∧ (∀ (n : Fin 16) (v : Word) (s : State), s.pageTakes (ainPage n) = true → s.ainState n = .ready → s.ains[n].phase = .opened →
    (s.store (Adr.AIN_GAIN n) v.toNat).fld (Fd.AIN_GAIN_PREAMP n) ≠ s.fld (Fd.AIN_GAIN_PREAMP n) →
    After (exec (.preampGainWrite n v) s) fun t => t.reg (Adr.AIN_GAIN n) = s.stored (Adr.AIN_GAIN n) v.toNat
      ∧ t.ains[n].gain = s.ains[n].gain.request (.db (t.ainTarget n) 1)
      ∧ Quiet (· = Adr.AIN_GAIN n) s t)
  ∧ (∀ (n : Fin 16) (s : State), s.flag (Fd.AIN_STATUS_STEP_PEND n) = true →
    s.msTicks (s.fld (Fd.AIN_ZC_TIMEOUT n)) ≤ s.ains[n].waited →
    After (exec (.stepForceTimeout n) s) fun t => t.flag (Fd.AIN_STATUS_STEP_PEND n) = false
      ∧ t.fld (Fd.AIN_STATUS_COARSE n) = s.ains[n].gain.now.steps % 2 ^ (Fd.AIN_STATUS_COARSE n).width
      ∧ t.fld (Fd.AIN_CNT_FORCED n) = satAdd 8 (s.fld (Fd.AIN_CNT_FORCED n)) 1 ∧ t.ains[n].stepMark = 25
      ∧ t.evt (ainPage n) AinEv.STEP_FORCED = true
      ∧ Frame (fun a => a = Adr.AIN_STATUS n ∨ a = Adr.AIN_CNT n ∨ StatusOf [ainPage n] a) s t)
  ∧ (∀ (n : Fin 16) (s : State), s.domOn (Dm.AIN (n.val / 4)) = true → s.ains[n].diag = none → MuteCause.diag ∉ s.ains[n].causes →
    s.flag (Fd.AIN_STATUS_CM_EXC n) = false → s.flag (Fd.AIN_CTRL_CM_MUTE n) = false →
    exec (.cmExcursionStart n) s = .next ((s.setFld (Fd.AIN_STATUS_CM_EXC n) 1).raise (ainPage n) AinEv.CM_EXCURSION))
  ∧ (∀ (n : Fin 16) (s : State), s.domOn (Dm.AIN (n.val / 4)) = true → s.ains[n].diag = none → MuteCause.diag ∉ s.ains[n].causes →
    s.flag (Fd.AIN_STATUS_CM_EXC n) = false → s.flag (Fd.AIN_CTRL_CM_MUTE n) = true →
    exec (.cmExcursionStart n) s =
      .next (((s.setFld (Fd.AIN_STATUS_CM_EXC n) 1).raise (ainPage n) AinEv.CM_EXCURSION).muteCause n .cm))
  ∧ (∀ (n : Fin 16) (s : State), s.flag (Fd.AIN_STATUS_CM_EXC n) = true →
    exec (.cmExcursionEnd n) s = .next ((s.setFld (Fd.AIN_STATUS_CM_EXC n) 0).muteEnd n .cm))
  ∧ (∀ (n : Fin 16) (s : State), s.ainState n = .ready → s.ains[n].phase = .out 0 → s.ains[n].causes ≠ [] →
    After (exec (.automuteFadeDone n) s) fun t => t.ainState n = .ready
      ∧ t.ains[n].pad = s.flag (Fd.AIN_CTRL_MODE n) ∧ t.ains[n].gain = Glide.at (.db (s.ainTarget n) 1))
  ∧ (∀ (n : Fin 16) (s : State), s.ains[n].pad = s.flag (Fd.AIN_CTRL_MODE n) → s.micMoves n = false →
    exec (.automuteCauseEnd n .mode) s = .next (s.muteEnd n .mode))
  ∧ (∀ (n : Fin 16) (s : State), s.ains[n].diag = none → s.hostInjects n = false →
    exec (.automuteCauseEnd n .diag) s = .next (s.muteEnd n .diag))
  ∧ (∀ (n : Fin 16) (c : MuteCause) (s : State), s.ainState n = .ready → s.ains[n].causes = [c] → s.ains[n].phase = .silent →
    (s.muteEnd n c).ains[n].causes = [] ∧ (s.muteEnd n c).ains[n].phase = .into 32)
  ∧ (∀ (n : Fin 16) (s : State), s.ains[n].phase = .into 0 →
    exec (.automuteGlideDone n) s = .next (s.updAin n fun a => { a with phase := .opened, level := Glide.at (.db 0 1) }))
  ∧ (∀ (n : Fin 16) (s : State), s.flag (Fd.AIN_STATUS_PATH n) = true → s.flag (Fd.AIN_CTRL_LG_ONLY n) = false →
    exec (.pathReturn n) s =
      .next ((s.setFld (Fd.AIN_STATUS_PATH n) 0).updAin n fun a => { a with xfade := 8, xfrom := true }))
  ∧ (∀ (n : Fin 16) (s : State), s.pageTakes (ainPage n) = true →
    After (exec (.calRestart n) s) fun t => t.fld (Fd.AIN_DIAG_CAL n) = 0 ∧ t.ains[n].matched = 0 ∧ Quiet (· = Adr.AIN_DIAG n) s t)

/-- Phantom (R133–R137): PH_EN = 1 asks for the reservation, which the tick decides (at once where no tick comes); admission and
denial by it, ramps, removal by a limit and by folding back. Where a clause rests on a choice or an inference of the model, that
is logged in notes/assumptions: 2, 3, 44. -/
def Obligations.PhantomCommands : Prop :=
  (∀ (n : Fin 16) (s : State), s.pageTakes (ainPage n) = true → s.flag (Fd.AIN_PHANTOM_PH_EN n) = false → s.ains[n].diag = none →
    s.phState n = .off → s.domOn Dm.PLL = true →
    After (exec (.phantomEnable n) s) fun t => t.flag (Fd.AIN_PHANTOM_PH_EN n) = true ∧ t.phState n = .off
      ∧ t.ains = s.ains.set n { s.ains[n] with phAsk := true } ∧ Quiet (· = Adr.AIN_PHANTOM n) s t)
  ∧ (∀ (n : Fin 16) (s : State), s.pageTakes (ainPage n) = true → s.flag (Fd.AIN_PHANTOM_PH_EN n) = false → s.ains[n].diag = none →
    s.phState n = .off → s.domOn Dm.PLL = false →
    exec (.phantomEnable n) s = .next ((s.setFld (Fd.AIN_PHANTOM_PH_EN n) 1).phAdmit n))
  ∧ (∀ (n : Fin 16) (s : State), s.phState n = .off → s.routed n = false →
    s.reservedMa + s.fld (Fd.AIN_PHANTOM_RESERVE n) ≤ 80 →
    (s.phAdmit n).phState n = .rampUp ∧ (s.phAdmit n).reservedOf n = s.fld (Fd.AIN_PHANTOM_RESERVE n)
      ∧ (s.phAdmit n).ains[n].phUp = true ∧ (s.phAdmit n).ains[n].phAsk = false
      ∧ Quiet (· = Adr.AIN_STATUS n) s (s.phAdmit n))
  ∧ (∀ (n : Fin 16) (s : State), s.phState n = .off → 80 < s.reservedMa + s.fld (Fd.AIN_PHANTOM_RESERVE n) →
    (s.phAdmit n).phState n = .denied ∧ (s.phAdmit n).reservedOf n = 0 ∧ (s.phAdmit n).evt (ainPage n) AinEv.PH_DENIED = true
      ∧ (s.phAdmit n).ains[n].phAsk = false
      ∧ Frame (fun a => a = Adr.AIN_STATUS n ∨ a = Adr.AIN_PHM_CNT 0 ∨ StatusOf [ainPage n] a) s (s.phAdmit n))
  ∧ (∀ (n : Fin 16) (s : State), s.pageTakes (ainPage n) = true → s.flag (Fd.AIN_PHANTOM_PH_EN n) = true → s.ains[n].diag = none →
    s.phState n = .on → After (exec (.phantomDisable n) s) fun t => t.flag (Fd.AIN_PHANTOM_PH_EN n) = false
      ∧ t.phState n = .rampDown ∧ t.ains[n].phUp = false ∧ Quiet (fun a => a = Adr.AIN_PHANTOM n ∨ a = Adr.AIN_STATUS n) s t)
  ∧ (∀ (n : Fin 16) (s : State), (s.phState n = .rampUp ∨ s.phState n = .rampDown) →
    exec (.phRampDone n) s = .next (s.setPh n .settle))
  ∧ (∀ (n : Fin 16) (s : State), (s.phState n = .overload ∨ s.phState n = .folded) → s.ains[n].removing = true →
    exec (.phRampDone n) s = .next (s.phChangeEnd n))
  ∧ (∀ (n : Fin 16) (s : State), s.phState n = .settle → s.ains[n].phUp = true →
    exec (.phSettleDone n) s = .next (((s.setPh n .on).phChangeEnd n).raise (ainPage n) AinEv.PH_ON))
  ∧ (∀ (n : Fin 16) (s : State), s.phState n = .settle → s.ains[n].phUp = false →
    exec (.phSettleDone n) s = .next ((s.phChangeEnd n).phOff n))
  ∧ (∀ (n : Fin 16) (s : State), s.phLive n = true → s.ains[n].diag = none →
    After (exec (.phLimitTimeout n) s) fun t => t.phState n = .overload ∧ t.ains[n].phUp = false ∧ t.ains[n].removing = true
      ∧ t.reservedOf n = s.fld (Fd.AIN_PHANTOM_RESERVE n) ∧ t.evt (ainPage n) AinEv.PH_OVERLOAD = true
      ∧ Frame (fun a => a = Adr.AIN_STATUS n ∨ StatusOf [ainPage n] a) s t)
  ∧ (∀ (n : Fin 16) (s : State), s.foldNext = some n → s.ains[n].diag = none →
    After (exec .phFoldback s) fun t => t.phState n = .folded ∧ t.ains[n].removing = true
      ∧ t.evt (ainPage n) AinEv.PH_FOLDED = true ∧ (∀ m : Fin 16, m ≠ n → t.phState m = s.phState m)
      ∧ Frame (fun a => a = Adr.AIN_STATUS n ∨ a = Adr.AIN_PHM_CNT 0 ∨ StatusOf [ainPage n] a) s t)
  ∧ (∀ (s : State), s.foldNext = none → exec .phFoldback s = .next s)

/-- The diagnosis of an input (R151, R152, R154). Where a clause rests on a choice or an inference of the model, that is logged
in notes/assumptions/2.md. -/
def Obligations.DiagnosisCommands : Prop :=
  (∀ (n : Fin 16) (legs : BitVec 2) (s : State), s.pageTakes (ainPage n) = true → s.ains[n].diag = none →
    After (exec (.diagStart n legs) s) fun t => Quiet (fun a => a = Adr.AIN_DIAG n ∨ a = Adr.AIN_DIAG_RES n) s t
      ∧ t.flag (Fd.AIN_DIAG_START n) = true
      ∧ t.fld (Fd.AIN_DIAG_LEGS n) = (if legs = 0 then 3 else legs.toNat) ∧ t.fld (Fd.AIN_DIAG_RES_CODE n) = 1
      ∧ ∃ e ∈ t.tdacQ, e.2 = .diag n false)
  ∧ (∀ (n : Fin 16) (cls : Bool) (k : Nat) (s : State), s.tdacQ.head? = some (k, .diag n cls) → s.ainRuns n = true →
    s.tdacFree = true → exec (.diagBegin n) s = .next (s.diagBegin n cls))
  ∧ (∀ (n : Fin 16) (r : DiagReading) (legs : Nat) (s : State), s.ains[n].diag = some ⟨false, legs, 0, false⟩ →
    s.ains[n].fading = false → bitOf legs 0 = true →
    After (exec (.diagPhaseDone n r) s) fun t => t.ains[n].diag = some ⟨false, legs, 1, r.limiting⟩
      ∧ t.fld Fd.TDAC_STATUS_ROUTE = 0x01 + n.val ∧ Quiet (· = Adr.TDAC_STATUS) s t)
  ∧ (∀ (n : Fin 16) (r : DiagReading) (lim : Bool) (s : State), s.ains[n].diag = some ⟨false, 1, 1, lim⟩ →
    s.ains[n].fading = false → exec (.diagPhaseDone n r) s = .next (s.diagResult n ⟨false, 1, 1, lim⟩ r))
  ∧ (∀ (n : Fin 16) (e : Diag) (r : DiagReading) (s : State), s.ains[n].diag = some e → e.cls = false → s.tdacOwner = none →
    (s.diagResult n e r).ains[n].diag = none ∧ (s.diagResult n e r).evt (ainPage n) AinEv.DIAG_DONE = true
      ∧ (s.diagResult n e r).fld (Fd.AIN_DIAG_RES_SEQ n)
          = (s.fld (Fd.AIN_DIAG_RES_SEQ n) + 1) % 2 ^ (Fd.AIN_DIAG_RES_SEQ n).width
      ∧ (bitOf e.legs 0 = true → (s.diagResult n e r).fld (Fd.AIN_DIAG_RP_OHMS n) = min r.rp 0xFFFFF))

/-! ## Outputs and jacks (09_line_headphone_jacks.md) -/

/-- An output starts, is ready and stops (R218, R226). Where a clause rests on a choice or an inference of the model, that is
logged in notes/assumptions: 2, 3, 4. -/
def Obligations.OutputStateCommands : Prop :=
  (∀ (n : Fin 16) (s : State), s.pageTakes (aoutPage n) = true → s.flag (Fd.AOUT_CTRL_ENABLE n) = false →
    s.outState (.line n) = .off → After (exec (.outputEnable (.line n)) s) fun t => t.flag (Fd.AOUT_CTRL_ENABLE n) = true
      ∧ t.outState (.line n) = .starting ∧ t.outStep (.line n) = .ramp
      ∧ Quiet (fun a => a = Adr.AOUT_CTRL n ∨ a = Adr.AOUT_STATUS n) s t)
  ∧ (∀ (h : Fin 4) (s : State), s.pageTakes (hpPage h) = true → s.flag (Fd.HP_CTRL_ENABLE h) = false →
    s.outState (.hp h) = .off → s.flag (Fd.HP_STATUS_CP_OK h) = false →
    After (exec (.outputEnable (.hp h)) s) fun t => t.flag (Fd.HP_CTRL_ENABLE h) = true ∧ t.outState (.hp h) = .starting
      ∧ t.outStep (.hp h) = .ramp ∧ t.cpOn = true ∧ Quiet (fun a => a = Adr.HP_CTRL h ∨ a = Adr.HP_STATUS h) s t)
  ∧ (∀ (h : Fin 4) (s : State), s.pageTakes (hpPage h) = true → s.flag (Fd.HP_CTRL_ENABLE h) = false →
    s.outState (.hp h) = .off → s.flag (Fd.HP_STATUS_CP_OK h) = true →
    After (exec (.outputEnable (.hp h)) s) fun t => t.flag (Fd.HP_CTRL_ENABLE h) = true ∧ t.outState (.hp h) = .starting
      ∧ t.outStep (.hp h) = .settle ∧ t.cpOn = s.cpOn ∧ Quiet (fun a => a = Adr.HP_CTRL h ∨ a = Adr.HP_STATUS h) s t)
  ∧ (∀ (o : OutId) (s : State), s.pageTakes (outPage o) = true → s.flag (outEnableFld o) = true → s.outState o = .ready →
    After (exec (.outputDisable o) s) fun t => Quiet (OfPages [outPage o]) s t
      ∧ t.flag (outEnableFld o) = false ∧ t.outState o = .stopping ∧ t.outStep o = .glide
      ∧ ∀ a ∈ outGains o, t.gainAt a = (s.gainAt a).aim .mute 32)
  ∧ (∀ (n : Fin 16) (s : State), s.pageTakes (aoutPage n) = true → s.flag (Fd.AOUT_CTRL_ENABLE n) = true →
    s.outState (.line n) = .starting → After (exec (.outputDisable (.line n)) s) fun t =>
      t.flag (Fd.AOUT_CTRL_ENABLE n) = false ∧ t.outState (.line n) = .stopping ∧ t.outStep (.line n) = .down
      ∧ Quiet (fun a => a = Adr.AOUT_CTRL n ∨ a = Adr.AOUT_STATUS n) s t)
  ∧ (∀ (n : Fin 16) (s : State), s.outUp (.line n) = true → s.outState (.line n) = .starting → s.outStep (.line n) = .ramp →
    exec (.lineRailRampDone n) s = .next (s.updOut (.line n) fun q => { q with step := .settle }))
  ∧ (∀ (s : State), s.domOn Dm.HP = true → s.cpOn = true → s.flag (Fd.HP_STATUS_CP_OK 0) = false →
    After (exec .chargePumpReady s) fun t => (∀ h : Fin 4, t.flag (Fd.HP_STATUS_CP_OK h) = true
      ∧ (s.outState (.hp h) = .starting → s.outStep (.hp h) = .ramp → t.outStep (.hp h) = .settle))
      ∧ Quiet (fun a => ∃ h : Fin 4, a = Adr.HP_STATUS h) s t)
  ∧ (∀ (n : Fin 16) (s : State), s.outUp (.line n) = true → s.outState (.line n) = .starting → s.outStep (.line n) = .settle →
    After (exec (.outputSettleDone (.line n)) s) fun t => t.outState (.line n) = .ready ∧ t.outStep (.line n) = .none
      ∧ t.evt (aoutPage n) OutEv.READY = true
      ∧ t.gainAt (Adr.AOUT_GAIN n) = muteGlide.aim (s.outTarget (Adr.AOUT_GAIN n)) (s.outGlide (.line n))
      ∧ Frame (fun a => a = Adr.AOUT_STATUS n ∨ StatusOf [aoutPage n] a) s t)
  ∧ (∀ (h : Fin 4) (s : State), s.outUp (.hp h) = true → s.outState (.hp h) = .starting → s.outStep (.hp h) = .settle →
    After (exec (.outputSettleDone (.hp h)) s) fun t => t.outState (.hp h) = .ready ∧ t.outStep (.hp h) = .none
      ∧ t.evt (hpPage h) OutEv.READY = true ∧ (∀ k : Fin 2,
        t.gainAt (Adr.HP_GAIN h k) = muteGlide.aim (s.outTarget (Adr.HP_GAIN h k)) (s.outGlide (.hp h)))
      ∧ Frame (fun a => a = Adr.HP_STATUS h ∨ StatusOf [hpPage h] a) s t)
  ∧ (∀ (n : Fin 16) (s : State), s.outState (.line n) = .stopping → s.outStep (.line n) = .glide →
    (s.gainAt (Adr.AOUT_GAIN n)).left = 0 →
    exec (.outputStopGlideDone (.line n)) s = .next (s.updOut (.line n) fun q => { q with step := .down }))
  ∧ (∀ (h : Fin 4) (s : State), s.outState (.hp h) = .stopping → s.outStep (.hp h) = .glide →
    (s.gainAt (Adr.HP_GAIN h 0)).left = 0 → (s.gainAt (Adr.HP_GAIN h 1)).left = 0 →
    exec (.outputStopGlideDone (.hp h)) s = .next (s.outOff (.hp h)))
  ∧ (∀ (n : Fin 16) (s : State), s.outState (.line n) = .stopping → s.outStep (.line n) = .down →
    s.flag (Fd.AOUT_CTRL_ENABLE n) = false →
    s.holds (· == Adr.AOUT_CTRL n) = false →
    After (exec (.lineRailDownDone n) s) fun t => t.outState (.line n) = .off ∧ t.evt (aoutPage n) OutEv.OFF = true
      ∧ t.gainAt (Adr.AOUT_GAIN n) = muteGlide ∧ Frame (fun a => a = Adr.AOUT_STATUS n ∨ StatusOf [aoutPage n] a) s t)
  ∧ (∀ (s : State), s.cpOn = true → (∀ h : Fin 4, s.outState (.hp h) = .off) →
    After (exec .chargePumpStop s) fun t => t.cpOn = false ∧ (∀ h : Fin 4, t.flag (Fd.HP_STATUS_CP_OK h) = false)
      ∧ Quiet (fun a => ∃ h : Fin 4, a = Adr.HP_STATUS h) s t)

/-- Limits, faults, internal fades, the microphone route and the buttons (R219, R220, R222–R225). Where a clause rests on a
choice or an inference of the model, that is logged in notes/assumptions: 2, 3, 4, 48. -/
def Obligations.OutputFaultCommands : Prop :=
  (∀ (o : OutId) (s : State), s.outLive o = true →
    exec (.outputCurrentLimit o) s = .next (s.raise (outPage o) OutEv.OVERCURRENT))
  ∧ (∀ (n : Fin 16) (s : State), s.outLive (.line n) = true → After (exec (.outputLimitTimeout (.line n)) s) fun t =>
    t.outState (.line n) = .fault ∧ t.evt (aoutPage n) OutEv.FAULT = true
      ∧ t.gainAt (Adr.AOUT_GAIN n) = (s.gainAt (Adr.AOUT_GAIN n)).aim .mute 32
      ∧ Frame (fun a => a = Adr.AOUT_STATUS n ∨ StatusOf [aoutPage n] a) s t)
  ∧ (∀ (h : Fin 4) (s : State), s.outLive (.hp h) = true → s.outs[outIndex (.hp h)].phase = .opened →
    After (exec (.outputLimitTimeout (.hp h)) s) fun t => t.outState (.hp h) = .fault
      ∧ t.outs[outIndex (.hp h)].phase = .out 32 ∧ t.evt (hpPage h) OutEv.FAULT = true
      ∧ Frame (fun a => a = Adr.HP_STATUS h ∨ StatusOf [hpPage h] a) s t)
  ∧ (∀ (n : Fin 16) (s : State), s.outLive (.line n) = true → After (exec (.servoLimit n) s) fun t =>
    (t.sfld (Fd.AOUT_STATUS_SERVO n) = 5000 ∨ t.sfld (Fd.AOUT_STATUS_SERVO n) = -5000)
      ∧ t.evt (aoutPage n) OutEv.SERVO_LIMIT = true ∧ t.outState (.line n) = s.outState (.line n)
      ∧ Frame (fun a => a = Adr.AOUT_STATUS n ∨ StatusOf [aoutPage n] a) s t)
  ∧ (∀ (s : State), s.cpOn = true → After (exec .cpRailFault s) fun t => ∀ h : Fin 4,
    t.flag (Fd.HP_STATUS_CP_OK h) = false ∧ (s.outState (.hp h) = .off → t.outState (.hp h) = .off)
      ∧ (s.outState (.hp h) ≠ .off → t.outState (.hp h) = .fault ∧ t.outs[outIndex (.hp h)].phase = .silent
        ∧ t.outs[outIndex (.hp h)].a = 0 ∧ t.outs[outIndex (.hp h)].b = 0 ∧ t.evt (hpPage h) OutEv.CP_FAULT = true))
  ∧ (∀ (h : Fin 4) (s : State), s.outs[outIndex (.hp h)].phase = .out 0 → After (exec (.internalFadeDone h) s) fun t =>
    t.flag (Fd.HP_STATUS_POLE h) = s.outs[outIndex (.hp h)].pole ∧ Quiet (· = Adr.HP_STATUS h) s t)
  ∧ (∀ (h : Fin 4) (s : State), s.outs[outIndex (.hp h)].phase = .into 0 →
    exec (.internalFadeDone h) s = .next (s.updOut (.hp h) fun q => { q with phase := .opened, level := Glide.at (.db 0 1) }))
  ∧ (∀ (h : Fin 4) (on : Bool) (i : Fin 16) (s : State), s.pageTakes (hpPage h) = true →
    exec (.hpMicRoute h on i) s = .next (s.micWrite h on i))
  ∧ (∀ (h : Fin 4) (i : Fin 16) (s : State), s.flag (Fd.HP_CTRL_MIC_EN h) = false →
    s.micWrite h false i = (s.setFld (Fd.HP_CTRL_MIC_EN h) 0).setFld (Fd.HP_CTRL_MIC_IN h) i)
  ∧ (∀ (h b : Fin 4) (s : State), s.outUp (.hp h) = true → s.flag (Fd.HP_CTRL_MIC_BIAS h) = true →
    s.flag (Fd.JACK_JSTAT_INSERTED (hpJack h)) = true → s.fld (Fd.HP_STATUS_BUTTON h) = 0 →
    After (exec (.buttonPress h b) s) fun t => t.fld (Fd.HP_STATUS_BUTTON h) = 2 ^ b.val
      ∧ t.evt (hpPage h) OutEv.BTN_PRESS = true ∧ t.jackTrig = s.jackTrig ++ [(hpJack h, .press b)]
      ∧ Frame (fun a => a = Adr.HP_STATUS h ∨ StatusOf [hpPage h] a) s t)
  ∧ (∀ (h b : Fin 4) (s : State), s.fld (Fd.HP_STATUS_BUTTON h) = 2 ^ b.val →
    After (exec (.buttonRelease h) s) fun t => t.fld (Fd.HP_STATUS_BUTTON h) = 0
      ∧ t.evt (hpPage h) OutEv.BTN_RELEASE = true ∧ t.jackTrig = s.jackTrig ++ [(hpJack h, .release b)]
      ∧ Frame (fun a => a = Adr.HP_STATUS h ∨ StatusOf [hpPage h] a) s t)

/-- Jacks, their classification and their rules (R228–R236). Where a clause rests on a choice or an inference of the model, that
is logged in notes/assumptions: 2, 15, 49, 87, 88. -/
def Obligations.JackCommands : Prop :=
  (∀ (j : Fin 20) (high : Bool) (s : State),
    exec (.jackLevelChange j high) s = .next (s.updJack j fun q => { q with high := high }))
  ∧ (∀ (j : Fin 20) (s : State), s.jackSenses = true → s.flag (Fd.JACK_JSTAT_INSERTED j) = false → s.jackPresent j = true →
    s.inService = false → After (exec (.jackInsert j) s) fun t => t.flag (Fd.JACK_JSTAT_INSERTED j) = true
      ∧ t.fld (Fd.JACK_JSTAT_CLASS j) = 0xF ∧ bitOf (t.fld Fd.JACK_CHANGED_JACKS) j = true
      ∧ t.evt jackPage JackEv.INSERT = true ∧ t.jackTrig = s.jackTrig ++ [(j, .insert)]
      ∧ Frame (fun a => a = Adr.JACK_JSTAT j ∨ a = Adr.JACK_CHANGED ∨ StatusOf [jackPage] a) s t)
  ∧ (∀ (j : Fin 20) (s : State), s.jackSenses = true → s.flag (Fd.JACK_JSTAT_INSERTED j) = false → s.jackPresent j = true →
    s.inService = true → s.svcUp = true → s.flag (Fd.JACK_JCFG_CLS_EN j) = true → 16 ≤ j.val →
    After (exec (.jackInsert j) s) fun t => t.flag (Fd.JACK_JSTAT_INSERTED j) = true ∧ t.fld (Fd.JACK_JSTAT_CLASS j) = 0xE
      ∧ t.jacks[j].step = .poleWait ∧ ∃ e ∈ t.tdacQ, e.2 = .jack j)
  ∧ (∀ (j : Fin 20) (s : State), s.jackSenses = true → s.flag (Fd.JACK_JSTAT_INSERTED j) = true → s.jackPresent j = false →
    j.val < 16 → After (exec (.jackRemove j) s) fun t => t.flag (Fd.JACK_JSTAT_INSERTED j) = false
      ∧ t.fld (Fd.JACK_JSTAT_CLASS j) = 0 ∧ t.jacks[j].step = .idle ∧ t.evt jackPage JackEv.REMOVE = true
      ∧ t.jackTrig = s.jackTrig ++ [(j, .remove), (j, .classified 0)])
  ∧ (∀ (j : Fin 20) (r : PoleReading) (s : State), s.tdacOwner = some (.jack j) → s.jacks[j].step = .poleTest →
    s.jacks[j].stale = none → s.svcUp = true → poleKind r = none →
    exec (.classifyPoleTestDone j r) s = .next (s.jackRelease.classFinal j 1))
  ∧ (∀ (j : Fin 20) (r : PoleReading) (k : PoleKind) (s : State), s.tdacOwner = some (.jack j) →
    s.jacks[j].step = .poleTest → s.jacks[j].stale = none → s.svcUp = true → poleKind r = some k →
    exec (.classifyPoleTestDone j r) s =
      .next ((s.jackRelease.updJack j fun q => { q with step := .loadHold k }).loadQueue (Fin.ofNat 4 (j.val - 16))))
  ∧ (∀ (j : Fin 20) (r : LoadReading) (k : PoleKind) (s : State), 16 ≤ j.val →
    s.outs[outIndex (.hp (Fin.ofNat 4 (j.val - 16)))].phase = .silent → s.tdacOwner = some (.jack j) →
    s.jacks[j].step = .loadTest k → s.jacks[j].stale = none → s.svcUp = true →
    s.outState (.hp (Fin.ofNat 4 (j.val - 16))) = .ready →
    After (exec (.classifyLoadTestDone j r) s) fun t =>
      t.fld (Fd.JACK_JSTAT_CLASS j) = loadClass k (min r.l 0xFFFFF) (min r.r 0xFFFFF)
        ∧ t.fld (Fd.HP_LOAD_OHMS (Fin.ofNat 4 (j.val - 16)) 0) = min r.l 0xFFFFF
        ∧ t.fld (Fd.HP_LOAD_OHMS (Fin.ofNat 4 (j.val - 16)) 1) = min r.r 0xFFFFF
        ∧ t.tdacOwner = none ∧ t.jacks[j].step = .idle)
  ∧ (∀ (r : Fin 64) (s : State), s.flushParams.flag (Fd.JACK_RULE_A_ENABLE r) = true → r.val ∉ s.flushParams.jackFired →
    s.flushParams.jackTrig.any (s.flushParams.ruleMatch r) = true →
    exec (.jackRuleFire r) s = .next (s.flushParams.ruleFire r))
  ∧ (∀ (r : Fin 64) (a p : Nat) (s : State), s.jackFired = [] → s.jackPages = [] → s.ruleTarget r = some (a, p) →
    s.pageTakes p = true → s.fld ⟨a, 15, 0⟩ ≠ s.fld (Fd.JACK_RULE_B_GAIN r) →
    (s.ruleFire r).fld ⟨a, 15, 0⟩ = s.fld (Fd.JACK_RULE_B_GAIN r)
      ∧ (s.ruleFire r).fld Fd.JACK_CNT_FIRED = satAdd 16 (s.fld Fd.JACK_CNT_FIRED) 1 ∧ (s.ruleFire r).jackFired = [r.val]
      ∧ (s.ruleFire r).pageVer p = (s.pageVer p + 1) % 2 ^ 32)
  ∧ (∀ (r : Fin 64) (a p : Nat) (s : State), s.ruleTarget r = some (a, p) → s.pageOn p = false →
    (s.ruleFire r).fld Fd.JACK_CNT_SKIPPED = satAdd 16 (s.fld Fd.JACK_CNT_SKIPPED) 1
      ∧ (s.ruleFire r).evt jackPage JackEv.RULE_SKIPPED = true
      ∧ Frame (fun x => x = Adr.JACK_CNT ∨ StatusOf [jackPage] x) s (s.ruleFire r))

/-! ## The fabric (07_fabric_schedule.md, 08_mixing_and_processing.md) -/

/-- Start and stop of the fabric (R161, R162, R410): RUN written while it does not stand STOPPED waits for the next boundary,
where RUN = 0 begins the stop glide or ends the start. Where a clause rests on a choice or an inference of the model, that is
logged in notes/assumptions: 2, 4, 46. -/
def Obligations.FabricStateCommands : Prop :=
  (∀ (p : Fin 4) (b : Bool) (q : Piste) (s : State), s.TakesWrite p fabPage Adr.FAB_CTRL →
    s.fabState = .stopped → s.flag Fd.FAB_CTRL_RUN = false → s.fld Fd.SYS_MODE_MODE ≠ 2 → s.pisteIn (bit b) = some q →
    (admission none q 0).cost ≤ s.fabLimit → s.linesNeed q ≤ s.granFree →
    After (exec (.fabricRun p b) s) fun t => t.fabState = .starting ∧ t.flag Fd.FAB_CTRL_RUN = true
      ∧ t.fld Fd.FAB_CTRL_START_PISTE = bit b ∧ t.runPiste = bit b ∧ t.fab.run = some q
      ∧ t.pageVer fabPage = (s.pageVer fabPage + 1) % 2 ^ 32
      ∧ Quiet (OfPages [fabPage]) s t)
  ∧ (∀ (p : Fin 4) (b : Bool) (s : State), s.TakesWrite p fabPage Adr.FAB_CTRL →
    s.fabState = .stopped → s.flag Fd.FAB_CTRL_RUN = false → s.pisteIn (bit b) = none →
    After (exec (.fabricRun p b) s) fun t => t.fabState = .stopped ∧ t.flag Fd.FAB_CTRL_RUN = false
      ∧ t.err fabPage 0 = true ∧ t.fab = s.fab
      ∧ Quiet (OfPages [fabPage]) s t)
  ∧ (∀ (p : Fin 4) (s : State), s.TakesWrite p fabPage Adr.FAB_CTRL → s.fabState ≠ .stopped →
    After (exec (.fabricStop p) s) fun t => t.fabState = s.fabState ∧ t.fab = { s.fab with runNext := some false }
      ∧ t.pageVer fabPage = (s.pageVer fabPage + 1) % 2 ^ 32 ∧ Quiet (fun _ => False) s t)
  ∧ (∀ (s : State), s.fab.runNext = some false → s.fabState = .running → s.flag Fd.FAB_STAT_XOVER_ACTIVE = false →
    s.stopDue.fabState = .stopping ∧ s.stopDue.flag Fd.FAB_CTRL_RUN = false ∧ s.stopDue.fab =
      { s.fab with glide := s.fab.glide.aim .mute (s.fld Fd.FAB_START_GLIDE_TICKS), ending := true, runNext := none }
      ∧ Quiet (fun a => a = Adr.FAB_STAT ∨ a = Adr.FAB_CTRL) s s.stopDue)
  ∧ (∀ (s : State), s.fab.runNext = some false → s.fabState = .starting → s.tickWrites = [] →
    s.stopDue.fabState = .stopped ∧ s.stopDue.flag Fd.FAB_CTRL_RUN = false ∧ s.stopDue.dlines = []
      ∧ s.stopDue.evt fabPage FabEv.STOPPED = true)
  ∧ (∀ (s : State), s.fabState = .stopping → s.fab.glide.left = 0 → s.flag Fd.FAB_CTRL_RUN = false → s.fab.runNext = none →
    s.tickWrites = [] →
    After (exec .fabricStopped s) fun t => t.fabState = .stopped ∧ t.dlines = [] ∧ t.fab.sinks = []
      ∧ t.fab.glide = Glide.at .mute ∧ t.evt fabPage FabEv.STOPPED = true
      ∧ Frame (fun a => a = Adr.FAB_STAT ∨ StatusOf [fabPage] a) s t)

/-- Pistes: writes, the copy, the check and the end of a crossover (R165, R169, R178, R185). Where a clause rests on a choice or
an inference of the model, that is logged in notes/assumptions: 2, 4, 29, 46. -/
def Obligations.PisteCommands : Prop :=
  (∀ (p : Fin 4) (addr v : Word) (s : State), s.TakesWrite p fabPage (addr.toNat / 4 * 4) →
    0x50000000 ≤ addr.toNat → addr.toNat < 0x50040000 → (addr.toNat - 0x50000000) / 0x20000 ≠ s.runPiste →
    s.flag Fd.FAB_STAT_IDLE_LOCK = false →
    exec (.pisteWrite p addr v) s = .next (s.setMemWord (addr.toNat / 4 * 4) v))
  ∧ (∀ (p : Fin 4) (addr v : Word) (s : State), s.pageOn fabPage = true →
    s.writeHeld p (addr.toNat / 4 * 4) = false → ((addr.toNat / 4 * 4 - 0x50000000) / 0x20000 = s.runPiste ∨ s.flag Fd.FAB_STAT_IDLE_LOCK = true) →
    exec (.pisteWrite p addr v) s = .next s)
  ∧ (∀ (a : Nat) (v : Word) (s : State), (s.setMemWord a v).memWord a = v
    ∧ (∀ b, b < a ∨ a + 4 ≤ b → (s.setMemWord a v).byte b = s.byte b) ∧ ∀ b, (s.setMemWord a v).reg b = s.reg b)
  ∧ (∀ (p : Fin 4) (s : State), s.TakesWrite p fabPage Adr.FAB_COPY →
    s.flag Fd.FAB_STAT_IDLE_LOCK = false → After (exec (.pisteCopy p) s) fun t =>
      t.flag Fd.FAB_STAT_COPY_BUSY = true ∧ t.flag Fd.FAB_STAT_IDLE_LOCK = true
      ∧ (∀ i, i < 0x20000 → t.byte (pisteBase s.idlePiste + i) = s.byte (pisteBase s.runPiste + i))
      ∧ (∀ a, a < pisteBase s.idlePiste ∨ pisteBase s.idlePiste + 0x20000 ≤ a → t.byte a = s.byte a)
      ∧ ∀ a, a ≠ Adr.FAB_STAT → t.reg a = s.reg a)
  ∧ (∀ (p : Fin 4) (s : State), s.TakesWrite p fabPage Adr.FAB_COPY →
    s.flag Fd.FAB_STAT_IDLE_LOCK = true → exec (.pisteCopy p) s = .next ((s.setErr fabPage 3).bumpVer fabPage))
  ∧ (∀ (s : State), s.domOn Dm.FAB = true → s.flag Fd.FAB_STAT_COPY_BUSY = true →
    exec .copyDone s = .next (((s.setFld Fd.FAB_STAT_COPY_BUSY 0).syncLock).raise fabPage FabEv.COPY_DONE))
  ∧ (∀ (s : State), s.flag Fd.FAB_STAT_XOVER_ACTIVE = true → s.fab.xDone = s.fab.xLen →
    After (exec .xoverEnd s) fun t => t.flag Fd.FAB_STAT_XOVER_ACTIVE = false ∧ t.fld Fd.FAB_STAT_XOVER_REMAIN = 0
      ∧ t.fld Fd.FAB_RUN_COST_COST = min s.fab.costAfter 0xFFFF ∧ t.fab.old = none ∧ t.fab.crossing = []
      ∧ t.dlines = s.dlines.filter (fun l => !l.draining) ∧ t.evt fabPage FabEv.XOVER_DONE = true
      ∧ Frame (fun a => a = Adr.FAB_STAT ∨ a = Adr.FAB_RUN_COST ∨ StatusOf [fabPage] a) s t)
  ∧ (∀ (p : Fin 4) (s : State), s.TakesWrite p fabPage Adr.FAB_CHECK →
    After (exec (.admissionCheck p) s) fun t => t.flag Fd.FAB_STAT_CHECK_BUSY = true ∧ t.fab.check =
      some ((s.pisteIn s.idlePiste).map fun q => admission s.fab.run q (s.xoverLen (s.fld Fd.FAB_XOVER_TICKS)))
      ∧ Quiet (· = Adr.FAB_STAT) s t)
  ∧ (∀ (a : Option Admission) (s : State), s.domOn Dm.FAB = true → s.fab.check = some a → After (exec .checkDone s) fun t =>
    t.flag Fd.FAB_STAT_CHECK_BUSY = false ∧ t.fab.check = none ∧ t.evt fabPage FabEv.CHECK_DONE = true
      ∧ (∀ x ∈ a, t.fld Fd.FAB_CHECK_COST_COST = min x.cost 0xFFFF))

/-- Parameter words (R192, R195, R205, R206, R212–R214, Table 8.8). Where a clause rests on a choice or an inference of the
model, that is logged in notes/assumptions: 17, 46, 47. -/
def Obligations.ParameterCommands : Prop :=
  (∀ (p : Fin 4) (addr v : Word) (q : PoolRow) (r : RegRow) (s : State), s.pageOn fabPage = true →
    s.TakesWrite p (paramPage (addr.toNat / 4 * 4)) (addr.toNat / 4 * 4) →
    poolReg (addr.toNat / 4 * 4) = some (q, r) → r.writable = true → s.maxlenFixed (addr.toNat / 4 * 4) = false →
    s.fabState ≠ .stopped → After (exec (.paramWrite p addr v) s) fun t =>
      t.tickWrites = s.tickWrites ++ [(addr.toNat / 4 * 4, v.toNat)]
      ∧ t.pageVer (paramPage (addr.toNat / 4 * 4)) = (s.pageVer (paramPage (addr.toNat / 4 * 4)) + 1) % 2 ^ 32
      ∧ Quiet (fun _ => False) s t)
  ∧ (∀ (p : Fin 4) (addr v : Word) (q : PoolRow) (r : RegRow) (s : State), s.pageOn fabPage = true →
    s.TakesWrite p (paramPage (addr.toNat / 4 * 4)) (addr.toNat / 4 * 4) →
    poolReg (addr.toNat / 4 * 4) = some (q, r) → r.writable = true → s.maxlenFixed (addr.toNat / 4 * 4) = false →
    s.fabState = .stopped → After (exec (.paramWrite p addr v) s) fun t =>
      t.reg (addr.toNat / 4 * 4) = s.stored (addr.toNat / 4 * 4) v.toNat ∧ Quiet (· = addr.toNat / 4 * 4) s t)
  ∧ (∀ (slot : Fin 4096) (v : Word) (s : State), s.domOn Dm.FAB = true → After (exec (.gainTargetWrite slot v) s) fun t =>
    t.reg (slotAddr slot) = s.stored (slotAddr slot) v.toNat
      ∧ t.gainAt (slotAddr slot) = (s.gainAt (slotAddr slot)).request
          (Gain.ofCode (bitsAt (s.stored (slotAddr slot) v.toNat).toNat 0 16))
      ∧ (∀ a, a ≠ slotAddr slot → t.gainAt a = s.gainAt a) ∧ Quiet (· = slotAddr slot) s t)
  ∧ (∀ (addr v : Word) (s : State), s.domOn Dm.FAB = true → (objectOf (addr.toNat / 4 * 4)).isSome = true →
    s.maxlenFixed (addr.toNat / 4 * 4) = false → After (exec (.objectWrite addr v) s) fun t =>
      t.reg (addr.toNat / 4 * 4) = s.stored (addr.toNat / 4 * 4) v.toNat ∧ Quiet (· = addr.toNat / 4 * 4) s t)
  ∧ (∀ (addr : Word) (s : State), s.domOn Dm.FAB = true → 0x50048000 ≤ addr.toNat → addr.toNat < 0x50050000 →
    After (exec (.objectReset addr) s) fun t =>
      sparseGet Biquad.zero t.fab.biquads ((addr.toNat - 0x50048000) / 32) = Biquad.zero
      ∧ Quiet (· = addr.toNat / 32 * 32 + 20) s t)
  ∧ (∀ (l : Fin 512) (v : Word) (s : State), s.domOn Dm.FAB = true → After (exec (.delayChange l v) s) fun t =>
    t.reg (Adr.DELAY_DELAY l) = s.stored (Adr.DELAY_DELAY l) v.toNat ∧ Quiet (· = Adr.DELAY_DELAY l) s t)
  ∧ (∀ (g : Fin 16) (s : State), s.domOn Dm.FAB = true → After (exec (.generatorRestart g) s) fun t =>
    t.fab.gens[g] = ⟨0, 0, false, false, s.genSeed g, 0⟩ ∧ t = { s with fab := { s.fab with gens := t.fab.gens } }
      ∧ ∀ h : Fin 16, h ≠ g → t.fab.gens[h] = s.fab.gens[h])
  ∧ (∀ (l : Fin 512) (d : DLine) (s : State), d ∈ s.dlines → d.tap = l.val → d.told = false → d.delay < d.filled →
    After (exec (.lineFilled l) s) fun t => t.dlines = s.dlines.map (fun x => if x.tap = l.val then { x with told := true } else x)
      ∧ t.evt procPage 1 = true ∧ Frame (StatusOf [procPage]) s t)
  ∧ (∀ (g : Fin 16) (s : State), s.fab.gens[g].atEnd = true → After (exec (.sweepEnd g) s) fun t =>
    t.fab.gens[g].atEnd = false ∧ t.fab.gens[g].ended = (s.fab.gens[g].ended && !s.flag (Fd.GEN_CTL_LOOP g))
      ∧ t.fab.gens[g].swept = (if s.flag (Fd.GEN_CTL_LOOP g) then 0 else s.fab.gens[g].swept)
      ∧ t.evt procPage 0 = true ∧ Frame (StatusOf [procPage]) s t)

/-- The tick (02_clocks_and_time.md R29, R47; R161): what TICK runs, its counters, and tick 0 of a fabric that starts. Where a
clause rests on a choice or an inference of the model, that is logged in notes/assumptions: 14, 43, 80, 84. -/
def Obligations.TickCommands : Prop :=
  (∀ (i : TickIn) (s : State), s.domOn Dm.PLL = true → ∃ t, exec (.tick i) s = .next t ∧ t = s.tickAll i
    ∧ t.pending = s.pending ∧ (s.Inv → t.Inv))
  ∧ (∀ (i : TickIn) (s : State), s.domOn Dm.PLL = false → exec (.tick i) s = .next s)
  ∧ (∀ (i : TickIn) (s : State), s.startsNow = true → ∃ t, exec (.fabricFirstTick i) s = .next t ∧ t = s.tickAll i
    ∧ t.pending = s.pending ∧ (s.Inv → t.Inv))
  ∧ (∀ (s : State), s.tickCount.ticks = s.ticks + 1 ∧ s.tickCount.boundary = s.syscnt
    ∧ (s.fabRuns = true → s.tickCount.tickcnt = s.tickcnt + 1 ∧ s.tickCount.tickSys = s.syscnt)
    ∧ (s.fabRuns = false → s.tickCount.tickcnt = s.tickcnt ∧ s.tickCount.tickSys = s.tickSys)
    ∧ Quiet (fun _ => False) s s.tickCount)
  ∧ (∀ (s : State), s.startsNow = true → s.tickWrites = [] → s.tickBegin.tickcnt = 0 ∧ s.tickBegin.tickSys = s.syscnt
    ∧ s.tickBegin.fabState = .running ∧ s.tickBegin.ticks = s.ticks + 1
    ∧ s.tickBegin.fab.glide = (Glide.at .mute).aim (.db 0 1) (s.fld Fd.FAB_START_GLIDE_TICKS)
    ∧ s.tickBegin.evt fabPage FabEv.STARTED = true)

/-! ## The speaker amplifier (10_speaker_amplifier.md) -/

/-- Start and stop of a channel (R248, R253, Table 10.4). Where a clause rests on a choice or an inference of the model, that is
logged in notes/assumptions: 2, 3, 4, 52. -/
def Obligations.AmpStateCommands : Prop :=
  (∀ (n : Fin 4) (s : State), s.pageTakes (ampPage n) = true → s.flag (Fd.AMP_CTRL_ENABLE n) = false → s.ampLeads n = true →
    s.ampUp n = true → s.ampState n = .off → s.ampBlock n = none → After (exec (.ampEnable n) s) fun t =>
      t.ampState n = .starting ∧ t.flag (Fd.AMP_CTRL_ENABLE n) = true ∧ t.amps[n].step = .precheck
      ∧ Quiet (fun a => a = Adr.AMP_CTRL n ∨ a = Adr.AMP_STATUS n) s t)
  ∧ (∀ (n : Fin 4) (c : AmpCause) (b : Bool) (s : State), s.pageTakes (ampPage n) = true →
    s.flag (Fd.AMP_CTRL_ENABLE n) = false → s.ampLeads n = true → s.ampUp n = true → s.ampState n = .off →
    s.ampBlock n = some (c, b) → After (exec (.ampEnable n) s) fun t => t.ampState n = .suspended
      ∧ t.fld (Fd.AMP_STATUS_CAUSE n) = c.code ∧ t.amps[n].supplyWait = b ∧ t.evt (ampPage n) AmpEv.SUSPENDED = true
      ∧ Frame (fun a => a = Adr.AMP_CTRL n ∨ a = Adr.AMP_STATUS n ∨ StatusOf [ampPage n] a) s t)
  ∧ (∀ (n : Fin 4) (s : State), s.pageTakes (ampPage n) = true → s.flag (Fd.AMP_CTRL_ENABLE n) = true → s.ampLeads n = true →
    s.ampState n = .running → After (exec (.ampDisable n) s) fun t => t.ampState n = .stopping
      ∧ t.flag (Fd.AMP_CTRL_ENABLE n) = false ∧ t.amps[n].step = .glide
      ∧ t.gainAt (Adr.AMP_GAIN n) = (s.gainAt (Adr.AMP_GAIN n)).aim .mute (s.fld (Fd.AMP_GLIDE_TICKS n))
      ∧ Quiet (fun a => a = Adr.AMP_CTRL n ∨ a = Adr.AMP_STATUS n) s t)
  ∧ (∀ (n : Fin 4) (s : State), s.pageTakes (ampPage n) = true → s.flag (Fd.AMP_CTRL_ENABLE n) = true → s.ampLeads n = true →
    s.ampState n = .stopping → exec (.ampDisable n) s = .next (s.setFld (Fd.AMP_CTRL_ENABLE n) 0))
  ∧ (∀ (n : Fin 4) (r : PrecheckReading) (s : State), s.hkaRuns = true → s.ampState n = .starting →
    s.amps[n].step = .precheck → 100 < r.p → 100 < r.n → r.p < (s.pvdd : Int) - 100 → r.n < (s.pvdd : Int) - 100 →
    After (exec (.ampPrecheckDone n r) s) fun t => t.ampState n = .starting ∧ t.amps[n].step = .release
      ∧ Frame (OfPages [hkseqPage]) s t)
  ∧ (∀ (n : Fin 4) (r : PrecheckReading) (s : State), s.hkaRuns = true → s.ampState n = .starting →
    s.amps[n].step = .precheck → (s.pvdd : Int) - 100 ≤ r.p ∨ (s.pvdd : Int) - 100 ≤ r.n → 100 < r.p → 100 < r.n →
    exec (.ampPrecheckDone n r) s = .next (s.ampShutdown n .shortPvdd))
  ∧ (∀ (n : Fin 4) (r : PrecheckReading) (s : State), s.hkaRuns = true → s.ampState n = .starting →
    s.amps[n].step = .precheck → r.p ≤ 100 ∨ r.n ≤ 100 → r.p < (s.pvdd : Int) - 100 → r.n < (s.pvdd : Int) - 100 →
    exec (.ampPrecheckDone n r) s = .next (s.ampShutdown n .shortGnd))
  ∧ (∀ (n : Fin 4) (s : State), s.ampState n = .starting → s.amps[n].step = .release →
    exec (.ampRelease n) s = .next ((s.updAmp n fun a => { a with step := .idle, hist := [] }).setFld (Fd.AMP_STATUS_LIMITING n) 0))
  ∧ (∀ (n : Fin 4) (s : State), s.ampState n = .starting → s.amps[n].step = .idle → After (exec (.ampRunning n) s) fun t =>
    t.ampState n = .running ∧ t.amps[n].step = .none
      ∧ t.gainAt (Adr.AMP_GAIN n) = muteGlide.aim (s.outTarget (Adr.AMP_GAIN n)) (s.fld (Fd.AMP_GLIDE_TICKS n))
      ∧ t.evt (ampPage n) AmpEv.STARTED = true ∧ Frame (fun a => a = Adr.AMP_STATUS n ∨ StatusOf [ampPage n] a) s t)
  ∧ (∀ (n : Fin 4) (s : State), s.ampState n = .stopping → s.amps[n].step = .glide →
    (s.gainAt (Adr.AMP_GAIN n)).left = 0 →
    exec (.ampStopGlideDone n) s = .next (s.updAmp n fun a => { a with step := .half }))
  ∧ (∀ (n : Fin 4) (s : State), s.ampState n = .stopping → s.amps[n].step = .half → s.cfgPend = [] →
    (∀ k : Fin 4, s.flag (Fd.AMP_CTRL_ENABLE k) = false) → After (exec (.ampOff n) s) fun t =>
      t.ampState n = .off ∧ t.fld (Fd.AMP_STATUS_CAUSE n) = 0 ∧ t.amps[n].step = .none
      ∧ t.gainAt (Adr.AMP_GAIN n) = muteGlide ∧ t.evt (ampPage n) AmpEv.OFF = true
      ∧ Frame (fun a => a = Adr.AMP_STATUS n ∨ OfPages [hkseqPage] a ∨ StatusOf [ampPage n] a) s t)

/-- What a shutdown does, and what shuts down, latches and retries a channel (R250–R254). Where a clause rests on a choice or an
inference of the model, that is logged in notes/assumptions: 2, 3, 52. -/
def Obligations.AmpFaultCommands : Prop :=
  (∀ (n : Fin 4) (c : AmpCause) (s : State), (s.ampShutdown n c).fld (Fd.AMP_STATUS_CAUSE n) = c.code
    ∧ (s.ampShutdown n c).fld (Fd.AMP_CNT_SHUTDOWNS n) = satAdd 8 (s.fld (Fd.AMP_CNT_SHUTDOWNS n)) 1
    ∧ (s.ampShutdown n c).fld (Fd.AMP_STATUS_RETRIES n)
        = (if s.amps[n].retry then satAdd 4 (s.fld (Fd.AMP_STATUS_RETRIES n)) 1 else s.fld (Fd.AMP_STATUS_RETRIES n))
    ∧ (s.ampShutdown n c).ampState n
        = (if s.fld (Fd.AMP_OCP_RETRY_MAX n) ≤ (s.ampShutdown n c).fld (Fd.AMP_STATUS_RETRIES n) then .latched else .retryWait)
    ∧ (s.ampShutdown n c).gainAt (Adr.AMP_GAIN n) = muteGlide
    ∧ (s.ampShutdown n c).evt (ampPage n) AmpEv.SHUTDOWN = true
    ∧ Frame (fun a => a = Adr.AMP_STATUS n ∨ a = Adr.AMP_CNT n ∨ OfPages [hkseqPage] a ∨ StatusOf [ampPage n] a) s (s.ampShutdown n c))
  ∧ (∀ (n : Fin 4) (pos neg : Nat) (s : State), s.ampSwitches (s.ampLead n) = false → s.amps[n].stopLeft = 0 →
    After (exec (.pwmCycle n pos neg) s) fun t => t.amps[n].hist = (false :: s.amps[n].hist).take 32
      ∧ t.ampState (s.ampLead n) = s.ampState (s.ampLead n) ∧ Quiet (· = Adr.AMP_STATUS (s.ampLead n)) s t)
  ∧ (∀ (n : Fin 4) (pos neg : Nat) (s : State), s.ampSwitches (s.ampLead n) = true →
    50 * s.fld (Fd.AMP_OCP_PEAK (s.ampLead n)) ≤ max pos neg → 16 ≤ ((true :: s.amps[n].hist).take 32 |>.filter id).length →
    exec (.pwmCycle n pos neg) s = .next ((s.pwmCount n true).ampShutdown (s.ampLead n) .overcurrent))
  ∧ (∀ (n : Fin 4) (s : State), s.ampState n = .retryWait → s.flag (Fd.AMP_CTRL_ENABLE n) = false →
    exec (.ampRetry n) s = .next (s.ampOff n))
  ∧ (∀ (n : Fin 4) (s : State), s.ampState n = .retryWait → s.flag (Fd.AMP_CTRL_ENABLE n) = true → s.ampBlock n = none → After (exec (.ampRetry n) s) fun t =>
    t.ampState n = .starting ∧ t.amps[n].step = .precheck ∧ t.amps[n].retry = true ∧ t.evt (ampPage n) AmpEv.RETRY = true
      ∧ Frame (fun a => a = Adr.AMP_STATUS n ∨ StatusOf [ampPage n] a) s t)
  ∧ (∀ (n : Fin 4) (s : State), s.ampState n = .running →
    exec (.ampRetriesClear n) s = .next ((s.setFld (Fd.AMP_STATUS_RETRIES n) 0).updAmp n fun a => { a with retry := false }))
  ∧ (∀ (n : Fin 4) (s : State), s.ampLeads n = true → s.ampState n = .running ∨ s.ampState n = .stopping →
    s.ampDcHigh n = true → After (exec (.ampDcFault n) s) fun t =>
    t.ampState n = .latched ∧ t.fld (Fd.AMP_STATUS_CAUSE n) = 4
      ∧ t.fld (Fd.AMP_STATUS_RETRIES n)
        = (if s.amps[n].retry then satAdd 4 (s.fld (Fd.AMP_STATUS_RETRIES n)) 1 else s.fld (Fd.AMP_STATUS_RETRIES n))
      ∧ t.fld (Fd.AMP_CNT_SHUTDOWNS n) = satAdd 8 (s.fld (Fd.AMP_CNT_SHUTDOWNS n)) 1
      ∧ t.gainAt (Adr.AMP_GAIN n) = muteGlide ∧ t.evt (ampPage n) AmpEv.SHUTDOWN = true ∧ t.evt (ampPage n) AmpEv.LATCHED = true
      ∧ Frame (fun a => a = Adr.AMP_STATUS n ∨ a = Adr.AMP_CNT n ∨ StatusOf [ampPage n] a) s t)

/-- The supply and the fixed scan (R256–R258, R275). Where a clause rests on a choice or an inference of the model, that is
logged in notes/assumptions: 2, 3, 19, 52. -/
def Obligations.SupplyCommands : Prop :=
  (∀ (r : ScanReading) (s : State), s.hkaRuns = true → exec (.fixedScan r) s = .next (s.scan r))
  ∧ (∀ (c : Nat) (v : ConvReading) (b : Bool) (s : State), c < 61 →
    (s.converted c v b).reg (Adr.HKA_LAST c) =
        word (unsigned 24 (clampInt (-0x800000) 0x7FFFFF v.v) + 2 ^ 29 * bit b + 2 ^ 30 * bit (ConvReading.over_ v) + 2 ^ 31)
      ∧ Frame (fun a => a = Adr.HKA_LAST c ∨ a = Adr.HKA_WIN_STATE ∨ StatusOf [hkaPage] a) s (s.converted c v b))
  ∧ (∀ (raw : Nat) (s : State), s.hkaRuns = true → s.flag Fd.AMPSYS_SAG_EN = true → raw ≤ 0x7FFFFF →
    exec (.sagSample raw) s = .next (((s.pipePreempt (some 0x00)).converted 0x00 ⟨raw, false⟩ false).pipeResume.sagTake raw))
  ∧ (∀ (raw : Nat) (s : State), s.hkaRuns = true → s.flag Fd.AMPSYS_SAG_EN = false → exec (.sagSample raw) s = .next s)
  ∧ (∀ (raw : Nat) (s : State), raw % 2048 = 0 → 1740800 ≤ raw → raw ≤ 5632000 → s.fld Fd.AMPSYS_SAG_KNEE * 20480 ≤ raw →
    s.sfld Fd.AMPSYS_PVDD_CEILING = 0 → (s.sagTake raw).pvdd = raw / 2048
      ∧ (s.sagTake raw).fld Fd.AMPSYS_PVDD_V10MV = raw / 2048 ∧ (s.sagTake raw).sfld Fd.AMPSYS_PVDD_CEILING = 0
      ∧ (s.sagTake raw).sag = ⟨true, 0, 0, raw⟩)
  ∧ (∀ (s : State), s.domOn Dm.HKA = true → (∀ k : Fin 4, s.ampState k = .off) → s.flag Fd.AMPSYS_STATUS_UV = false →
    After (exec .pvddHwStop s) fun t => t.flag Fd.AMPSYS_STATUS_UV = true ∧ t.evt ampsysPage AmpEv.UV = true
      ∧ Frame (fun a => a = Adr.AMPSYS_STATUS ∨ StatusOf [ampsysPage] a) s t)
  ∧ (∀ (s : State), s.domOn Dm.HKA = true → s.flag Fd.AMPSYS_STATUS_UV = true → s.sag.seen = true →
    1843200 ≤ s.sag.raw → s.sag.raw ≤ 5427200 → (∀ k : Fin 4, s.ampState k ≠ .suspended) →
    After (exec .supplyOk s) fun t => t.flag Fd.AMPSYS_STATUS_UV = false ∧ t.flag Fd.AMPSYS_STATUS_OV = false
      ∧ t.evt ampsysPage AmpEv.SUPPLY_OK = true ∧ (∀ k : Fin 4, t.amps[k].supplyWait = false)
      ∧ Frame (fun a => a = Adr.AMPSYS_STATUS ∨ StatusOf [ampsysPage] a) s t)
  ∧ (∀ (s : State), s.domOn Dm.HKA = true → s.flag Fd.HKA_STATUS_READY = false → s.hka.ready = [] →
    (∀ k : Fin 4, s.ampState k ≠ .suspended) → After (exec .hkaReady s) fun t => t.flag Fd.HKA_STATUS_READY = true
      ∧ t.fld Fd.HKA_STATUS_CAL_STAGE = (if s.flag Fd.HKA_STATUS_CAL_FAIL then 0xF else 0)
      ∧ t.flag Fd.HKA_STATUS_CAL_FAIL = s.flag Fd.HKA_STATUS_CAL_FAIL ∧ Quiet (· = Adr.HKA_STATUS) s t)

/-! ## The housekeeping converter (11_housekeeping_converter.md) -/

/-- Conversions, calibration and the mains (R264–R269, R278). Where a clause rests on a choice or an inference of the model,
that is logged in notes/assumptions: 2, 50, 88. -/
def Obligations.ConversionCommands : Prop :=
  (∀ (x : Fin 3) (v : ConvReading) (s : State), s.hkaRuns = true → s.seqOn 0 = some x → s.hka.seqs[x].due = false →
    exec (.conversionDone (.seq x) v) s = .next ((s.pipeStamp (entryAvg s.hka.seqs[x].word)).2.entryDone x v
      (s.hka.seqs[x].switched && !entrySkip s.hka.seqs[x].word) (s.pipeStamp (entryAvg s.hka.seqs[x].word)).1))
  ∧ (∀ (x : Fin 3) (v : ConvReading) (b : Bool) (k : Nat) (s : State), s.flag (Fd.HKSEQ_SEQ_CFG_ENABLE x) = true →
    s.hka.ready = [] → s.hka.seqs[x].ending = false →
    s.fld (Fd.HKSEQ_SEQ_CFG_FIRST x) + s.fld (Fd.HKSEQ_SEQ_CFG_COUNT x) ≤ s.fld (Fd.HKSEQ_SEQ_STAT_ENTRY x) + 1 →
    (s.entryDone x v b k).seqState x = seqArmed
      ∧ (s.entryDone x v b k).fld (Fd.HKSEQ_SEQ_STAT_RUNS x) = (s.fld (Fd.HKSEQ_SEQ_STAT_RUNS x) + 1) % 65536
      ∧ (s.entryDone x v b k).evt hkseqPage x = true)
  ∧ (∀ (p : Fin 4) (w : Nat) (b : Bool) (v : ConvReading) (s : State), s.hkaRuns = true → s.hka.urg = some (p, w, b) →
    After (exec (.conversionDone .urgent v) s) fun t => t.hka.urg = none ∧ t.evt hkaPage HkaEv.URG_DONE = true)
  ∧ (∀ (v : ConvReading) (s : State), exec (.conversionDone .other v) s = .next s)
  ∧ (∀ (x : Fin 3) (v : ConvReading) (s : State), s.hkaRuns = true → s.seqOn 1 = some x →
    exec (.integrationDone v) s = .next ((s.integStamp s.hka.seqs[x].t).2.entryDone x v false (s.integStamp s.hka.seqs[x].t).1))
  ∧ (∀ (s : State), s.hkaRuns = true → s.flag Fd.HKA_STATUS_CAL_FAIL = false → exec (.calStageDone true) s =
    .next (s.setFld Fd.HKA_STATUS_CAL_STAGE ((s.fld Fd.HKA_STATUS_CAL_STAGE + 1) % 10)))
  ∧ (∀ (s : State), s.hkaRuns = true → s.flag Fd.HKA_STATUS_CAL_FAIL = false → exec (.calStageDone false) s =
    .next (((s.setFld Fd.HKA_STATUS_CAL_FAIL 1).setFld Fd.HKA_STATUS_CAL_STAGE 0xF).raise hkaPage HkaEv.CAL_FAIL))
  ∧ (∀ (s : State), s.hkaRuns = true → s.fld Fd.HKA_MAINS_SEL = 2 → s.flag Fd.HKA_STATUS_MAINS_LOST = false →
    exec .mainsLost s =
      .next (((s.setFld Fd.HKA_STATUS_MAINS_LOST 1).setFld Fd.HKA_MAINS_PERIOD 0).raise hkaPage HkaEv.MAINS_LOST))
  ∧ (∀ (us : BitVec 16) (s : State), s.hkaRuns = true → s.fld Fd.HKA_MAINS_SEL = 2 → 14286 ≤ us.toNat → us.toNat ≤ 25000 →
    After (exec (.mainsMeasurementValid us) s) fun t =>
    t.flag Fd.HKA_STATUS_MAINS_LOST = false ∧ t.fld Fd.HKA_MAINS_PERIOD = us.toNat
      ∧ Quiet (fun a => a = Adr.HKA_STATUS ∨ a = Adr.HKA_MAINS) s t)

/-- Sequences, their triggers, the urgent request, and reading the records (R270–R272, R276, R280). Where a clause rests on a
choice or an inference of the model, that is logged in notes/assumptions: 2, 16, 50, 87. -/
def Obligations.SequenceCommands : Prop :=
  (∀ (x : Fin 3) (s : State), s.seqState x = seqArmed → s.seqTrigger x = s.setSeqState x seqWaiting)
  ∧ (∀ (x : Fin 3) (s : State), s.seqState x = seqOff → s.seqTrigger x = s)
  ∧ (∀ (x : Fin 3) (s : State), s.seqState x = seqWaiting ∨ s.seqState x = seqRunning →
    s.seqTrigger x = (s.countSat (Fd.HKSEQ_SEQ_CNT_TRIG_LOST x) 1).raise hkseqPage (4 + x))
  ∧ (∀ (k : Fin 4) (s : State), s.hkaRuns = true → s.fld (Fd.HKA_TIMER_PERIOD k) ≠ 0 →
    (∀ x : Fin 3, s.fld (Fd.HKSEQ_SEQ_TRIG_SRC x) = k.val) →
    exec (.hkaTimerFire k) s = .next (((s.seqTrigger 0).seqTrigger 1).seqTrigger 2))
  ∧ (∀ (k : Fin 4) (s : State), s.hkaRuns = true → (∀ x : Fin 3, s.fld (Fd.HKSEQ_SEQ_TRIG_SRC x) ≠ k.val) →
    exec (.hkaTimerFire k) s = .next s)
  ∧ (∀ (x : Fin 3) (s : State), s.domOn Dm.HKA = true → s.fld (Fd.HKSEQ_SEQ_TRIG_SRC x) = 4 →
    exec (.pwmTrigger x) s = .next (s.seqTrigger x))
  ∧ (∀ (s : State), s.pageTakes hkseqPage = true → exec (.seqGo 7) s = .next (((s.seqTrigger 0).seqTrigger 1).seqTrigger 2))
  ∧ (∀ (x : Fin 3) (s : State), s.pageTakes hkseqPage = true → exec (.seqGo (1#3 <<< x.val)) s = .next (s.seqTrigger x))
  ∧ (∀ (x : Fin 3) (s : State), s.pageTakes hkseqPage = true → s.flag (Fd.HKSEQ_SEQ_CFG_ENABLE x) = false →
    s.seqState x = seqOff → (s.setFld (Fd.HKSEQ_SEQ_CFG_ENABLE x) 1).seqValid x = true →
    exec (.seqEnable x) s = .next ((s.setFld (Fd.HKSEQ_SEQ_CFG_ENABLE x) 1).setSeqState x seqArmed))
  ∧ (∀ (x : Fin 3) (s : State), s.pageTakes hkseqPage = true → s.flag (Fd.HKSEQ_SEQ_CFG_ENABLE x) = false →
    s.seqState x = seqOff → (s.setFld (Fd.HKSEQ_SEQ_CFG_ENABLE x) 1).seqValid x = false →
    exec (.seqEnable x) s = .next ((s.setFld (Fd.HKSEQ_SEQ_CFG_ENABLE x) 1).setErr hkseqPage x))
  ∧ (∀ (x : Fin 3) (s : State), s.pageTakes hkseqPage = true → s.flag (Fd.HKSEQ_SEQ_CFG_ENABLE x) = true →
    s.seqState x ≠ seqRunning → s.cfgPend = [] → After (exec (.seqDisable x) s) fun t => t.seqState x = seqOff
      ∧ t.flag (Fd.HKSEQ_SEQ_CFG_ENABLE x) = false ∧ t.hka.ready = s.hka.ready.filter (·.1 != x)
      ∧ Quiet (fun a => a = Adr.HKSEQ_SEQ_CFG x ∨ a = Adr.HKSEQ_SEQ_STAT x) s t)
  ∧ (∀ (x : Fin 3) (s : State), s.hkaRuns = true → s.seqState x = seqWaiting → s.hka.ready = [] →
    s.seqOn (s.fld (Fd.HKSEQ_SEQ_CFG_MODE x)) = none → s.pipeBusy = false → s.fld (Fd.HKSEQ_SEQ_CFG_COUNT x) ≠ 0 →
    chanReserved (s.fld (Fd.HKSEQ_ENTRY_CHAN (s.fld (Fd.HKSEQ_SEQ_CFG_FIRST x)))) = false → After (exec (.seqDelayEnd x) s) fun t => t.seqState x = seqRunning
      ∧ t.fld (Fd.HKSEQ_SEQ_STAT_ENTRY x) = s.fld (Fd.HKSEQ_SEQ_CFG_FIRST x) ∧ t.hka.ready = []
      ∧ t.hka.seqs[x].word = (s.reg (Adr.HKSEQ_ENTRY (s.fld (Fd.HKSEQ_SEQ_CFG_FIRST x)))).toNat
      ∧ Quiet (· = Adr.HKSEQ_SEQ_STAT x) s t)
  ∧ (∀ (p : Fin 4) (v : Word) (s : State), s.TakesWrite p hkaPage Adr.HKA_URGENT →
    bitOf v.toNat 31 = true → s.hka.urg = none → bitsAt v.toNat 0 6 < 0x3D → After (exec (.urgentStart p v) s) fun t =>
      t.hka.urg = some (p, (s.stored Adr.HKA_URGENT v.toNat).toNat,
        !s.hkaRuns || s.hka.pipe != some (entryChan (s.stored Adr.HKA_URGENT v.toNat).toNat)) ∧ t.reg Adr.HKA_URGENT = s.stored Adr.HKA_URGENT v.toNat
      ∧ t.pageVer hkaPage = (s.pageVer hkaPage + 1) % 2 ^ 32 ∧ Quiet (· = Adr.HKA_URGENT) s t)
  ∧ (∀ (p : Fin 4) (v : Word) (s : State), s.TakesWrite p hkaPage Adr.HKA_URGENT →
    bitOf v.toNat 31 = true → s.hka.urg.isSome = true →
    exec (.urgentStart p v) s = .next (((s.store Adr.HKA_URGENT v.toNat).setErr hkaPage 0).bumpVer hkaPage))
  ∧ (∀ (q : Fin 4) (s : State), s.pageOn hkseqPage = true → (s.ring (20 + q)).fill ≠ 0 → After (exec (.hkaPop q) s) fun t =>
    t.bus = word (ofBytesLE ((s.ringEntries (20 + q) 1).take 4))
      ∧ t.reg (Adr.HKSEQ_POP_HI q) = word (ofBytesLE ((s.ringEntries (20 + q) 1).drop 4))
      ∧ t.ring (20 + q) = { s.ring (20 + q) with cons := (s.ring (20 + q)).cons + 1 }
      ∧ (∀ a, a ≠ Adr.HKSEQ_POP_HI q → t.reg a = s.reg a) ∧ ∀ a, t.byte a = s.byte a)
  ∧ (∀ (q : Fin 4) (s : State), s.pageOn hkseqPage = true → (s.ring (20 + q)).fill = 0 → After (exec (.hkaPop q) s) fun t =>
    t.bus = 0xFF#32 ∧ t.reg (Adr.HKSEQ_POP_HI q) = 0 ∧ Quiet (· = Adr.HKSEQ_POP_HI q) s t)
  ∧ (∀ (q : Fin 4) (s : State), s.pageOn hkseqPage = true → After (exec (.hkaPeek q) s) fun t =>
    t.bus = word (ofBytesLE ((s.headRecord q).take 4)) ∧ t.reg (Adr.HKSEQ_PEEK_HI q) = word (ofBytesLE ((s.headRecord q).drop 4))
      ∧ Quiet (· = Adr.HKSEQ_PEEK_HI q) s t)

/-- The test DAC (R282–R284). Where a clause rests on a choice or an inference of the model, that is logged in
notes/assumptions: 2, 51, 88. -/
def Obligations.TestDacCommands : Prop :=
  (∀ (p : Fin 4) (s : State), s.TakesWrite p tdacPage Adr.TDAC_CTRL → s.tdacHost = none →
    exec (.tdacHostRequest p) s = .next (((s.setFld Fd.TDAC_CTRL_HOST_REQ 1).tdacEnqueue (.host p)).bumpVer tdacPage))
  ∧ (∀ (p q : Fin 4) (s : State), s.TakesWrite p tdacPage Adr.TDAC_CTRL → s.tdacHost = some q →
    p ≠ q → exec (.tdacHostRequest p) s = .next ((s.setErr tdacPage 1).bumpVer tdacPage))
  ∧ (∀ (p : Fin 4) (k : Nat) (s : State), s.tdacFree = true → s.tdacQ.head? = some (k, .host p) →
    After (exec .tdacGrant s) fun t => t.tdacOwner = some (.host p) ∧ t.tdac = ⟨0, none, 0, false⟩
      ∧ t.tdacQ = s.tdacQ.filter (·.2 != .host p) ∧ t.evt tdacPage 0 = true ∧ Frame (StatusOf [tdacPage]) s t)
  ∧ (∀ (s : State), s.tdacFree = false → exec .tdacGrant s = .next s)
  ∧ (∀ (p : Fin 4) (s : State), s.TakesWrite p tdacPage Adr.TDAC_CTRL →
    s.tdacOwner = some (.host p) → After (exec (.tdacHostRelease p) s) fun t =>
      t.tdac = { s.tdac with goal := 0, ramp := some true, releasing := true } ∧ t.flag Fd.TDAC_CTRL_HOST_REQ = false ∧ t.fld Fd.TDAC_CTRL_ROUTE = 0 ∧ Quiet (· = Adr.TDAC_CTRL) s t)
  ∧ (∀ (p : Fin 4) (v : Word) (s : State), s.TakesWrite p tdacPage Adr.TDAC_CTRL →
    s.tdacOwns p = false → exec (.tdacRoute p v) s = .next ((s.setErr tdacPage 0).bumpVer tdacPage))
  ∧ (∀ (p : Fin 4) (v : Word) (s : State), s.TakesWrite p tdacPage Adr.TDAC_CTRL →
    s.tdacOwns p = true → bitsAt v.toNat 0 6 = 0x29 → s.tdac.goal ≠ 0x29 → After (exec (.tdacRoute p v) s) fun t =>
      t.fld Fd.TDAC_CTRL_ROUTE = 0x29 ∧ t.tdac = { s.tdac with goal := 0x29, ramp := some true }
      ∧ Quiet (· = Adr.TDAC_CTRL) s t)
  ∧ (∀ (p : Fin 4) (v : Word) (s : State), s.TakesWrite p tdacPage Adr.TDAC_CODE →
    s.tdacOwns p = false → exec (.tdacCode p v) s = .next ((s.setErr tdacPage 0).bumpVer tdacPage))
  ∧ (∀ (p : Fin 4) (v : Word) (s : State), s.TakesWrite p tdacPage Adr.TDAC_CODE →
    s.tdacOwns p = true → s.tdac.ramp = none → After (exec (.tdacCode p v) s) fun t =>
      t.reg Adr.TDAC_CODE = s.stored Adr.TDAC_CODE v.toNat
      ∧ t.tdac.out = routeCode (s.fld Fd.TDAC_STATUS_ROUTE) (t.sfld Fd.TDAC_CODE_CODE) ∧ Quiet (· = Adr.TDAC_CODE) s t)
  ∧ (∀ (s : State), s.tdac.ramp = some true → s.tdac.releasing = false → routeHp (s.fld Fd.TDAC_STATUS_ROUTE) = none →
    After (exec .tdacRampDone s) fun t => t.fld Fd.TDAC_STATUS_ROUTE = s.tdac.goal % 64
      ∧ t.tdac = { s.tdac with ramp := some false, out := 0 } ∧ Quiet (· = Adr.TDAC_STATUS) s t)
  ∧ (∀ (s : State), s.tdac.ramp = some false → exec .tdacRampDone s = .next { s with
      tdac := { s.tdac with ramp := none, out := routeCode s.tdac.goal (s.sfld Fd.TDAC_CODE_CODE) } })

/-! ## The check-value engines (12_crc_engines.md) -/

/-- Feeds, settings, results and ownership (R292, R295–R299). Where a clause rests on a choice or an inference of the model,
that is logged in notes/assumptions: 16, 67. -/
def Obligations.CrcCommands : Prop :=
  (∀ (a : CrcParty) (v : Byte) (s : State), s.crcReach a = true → s.crcOwner = some a →
    exec (.crcData8 a 25 v) s = .next (s.updCrc 25 fun c => c.feed [v]))
  ∧ (∀ (a : CrcParty) (v : BitVec 16) (s : State), s.crcReach a = true → s.crcOwner = some a →
    exec (.crcData16 a 25 v) s = .next (s.updCrc 25 fun c => c.feed [v.extractLsb' 0 8, v.extractLsb' 8 8]))
  ∧ (∀ (a : CrcParty) (v : Word) (s : State), s.crcReach a = true → s.crcOwner = some a →
    exec (.crcData32 a 25 v) s = .next (s.updCrc 25 fun c =>
      c.feed [v.extractLsb' 0 8, v.extractLsb' 8 8, v.extractLsb' 16 8, v.extractLsb' 24 8]))
  ∧ (∀ (a : CrcParty) (s : State), s.crcReach a = true → s.crcOwner = some a →
    exec (.crcReset a 25) s = .next (s.updCrc 25 Crc.reset))
  ∧ (∀ (a : CrcParty) (v : Word) (s : State), s.crcReach a = true → s.crcOwner = some a →
    exec (.crcConfigWrite a 25 .poly v) s = .next ((s.updCrc 25 fun c => { c with poly := v.toNat }.reset).bumpVer crcPage))
  ∧ (∀ (a : CrcParty) (v : Word) (s : State), s.crcReach a = true → s.crcOwner = some a →
    exec (.crcConfigWrite a 25 .xorout v) s = .next ((s.updCrc 25 fun c => { c with xorout := v.toNat }).bumpVer crcPage))
  ∧ (∀ (a : CrcParty) (v : Byte) (h : BitVec 16) (w : Word) (r : CrcReg) (s : State), s.crcReach a = true →
    s.crcOwner ≠ some a → exec (.crcData8 a 25 v) s = .next (s.setErr crcPage 0)
      ∧ exec (.crcData16 a 25 h) s = .next (s.setErr crcPage 0) ∧ exec (.crcData32 a 25 w) s = .next (s.setErr crcPage 0)
      ∧ exec (.crcReset a 25) s = .next (s.setErr crcPage 0) ∧ exec (.crcConfigWrite a 25 r w) s = .next (s.setErr crcPage 0))
  ∧ (∀ (a : CrcParty) (i : Fin 26) (v : Byte) (h : BitVec 16) (w : Word) (r : CrcReg) (s : State), i.val < 25 →
    exec (.crcData8 a i v) s = .next s ∧ exec (.crcData16 a i h) s = .next s ∧ exec (.crcData32 a i w) s = .next s
      ∧ exec (.crcReset a i) s = .next s ∧ exec (.crcConfigWrite a i r w) s = .next s)
  ∧ (∀ (s : State), s.pageOn crcPage = true → exec (.crcResultRead 25) s = .next { s with
      bus := word (((if s.crcs[25].refout then reverseBits s.crcs[25].width s.crcs[25].r else s.crcs[25].r) ^^^ s.crcs[25].xorout)
        % 2 ^ s.crcs[25].width) }
    ∧ exec (.crcRawRead 25) s = .next { s with bus := word s.crcs[25].r })
  ∧ (∀ (i : Fin 26) (s : State), s.pageOn crcPage = true → 8 ≤ i.val → i.val < 24 → s.domOn (Dm.PORTG 3) = false →
    exec (.crcResultRead i) s = .next { s with bus := 0 } ∧ exec (.crcRawRead i) s = .next { s with bus := 0 })
  ∧ (∀ (a : CrcParty) (s : State), s.crcReach a = true → s.crcOwner = none →
    exec (.crcOwnRequest a) s = .next { s.updCrc 25 Crc.reset with crcOwner := some a })
  ∧ (∀ (a b : CrcParty) (s : State), s.crcReach a = true → s.crcOwner = some b → a ≠ b →
    exec (.crcOwnRequest a) s = .next (s.setErr crcPage 1) ∧ exec (.crcOwnRelease a) s = .next (s.setErr crcPage 0))
  ∧ (∀ (a : CrcParty) (s : State), s.crcReach a = true → s.crcOwner = some a →
    exec (.crcOwnRelease a) s = .next { s with crcOwner := none })

/-! ## Operations of the control ports (14_control_ports.md, 15_transactions_and_hosts.md) -/

/-- Reads, writes and masked writes (R334, R335) of a word of memory that a host may write, and the read of a register word;
what a read of one word gives (R407–R409, 13_power_domains.md R312), the RC fields that it clears, and what each field of a
register holds after a write (R4, Table 0.2): RW and RWS the stored form, W1C its bits but for the ones written, RO, RC and WO
and reserved bits what they held. Where a clause rests on a choice or an inference of the model, that is logged in
notes/assumptions: 5, 16, 18, 28, 53, 54. -/
def Obligations.AccessOperations : Prop :=
  (∀ (p : Fin 4) (s : State), s.Hears p → exec (.nop p) s = .next (s.gives p 0x00 0x00 []))
  ∧ (∀ (p : Fin 4) (a : Word) (n : BitVec 16) (s : State), s.Hears p →
    a.toNat % 4 ≠ 0 ∨ n.toNat % 4 ≠ 0 ∨ n = 0 → exec (.rd p a n) s = .next (s.gives p 0x10 0x15 []))
  ∧ (∀ (p : Fin 4) (a : Word) (d : Nat) (s : State), s.Hears p → a.toNat % 4 = 0 →
    0x60000000 ≤ a.toNat → a.toNat < 0x60100000 → addrDomain a.toNat = some d → s.domOn d = true →
    exec (.rd p a 4) s = .next (s.gives p 0x10 0x00 (s.bytesAt a.toNat 4)))
  ∧ (∀ (p : Fin 4) (a : Word) (d : Nat) (s : State), s.Hears p → a.toNat % 4 = 0 → inPages a.toNat = true →
    addrDomain a.toNat = some d → s.domOn d = true → exec (.rd p a 4) s =
      .next ((s.pageRead (pageOf a.toNat) (pageOff a.toNat)).gives p 0x10 0x00
        (bytesLE 4 (s.pageWord (pageOf a.toNat) (pageOff a.toNat)))))
  ∧ (∀ (g o : Nat) (r : RegRow) (s : State), pageReg g o = some r → s.readTarget g o = pageAddr g o →
    (∀ b, b < 32 → bitOf ((s.clearRc g o).reg (pageAddr g o)).toNat b =
        (bitOf (s.reg (pageAddr g o)).toNat b && !r.fields.any fun f => f.acc == .rc && !f.view && f.lo ≤ b && b ≤ f.hi))
      ∧ Quiet (· = pageAddr g o) s (s.clearRc g o))
  ∧ (∀ (a v : Nat) (r : RegRow) (f : FieldRow) (s : State), regRow a = some r → f ∈ r.fields → f.view = false →
    (f.acc = .rw ∨ f.acc = .rws → bitsAt (s.stored a v).toNat f.lo (f.hi + 1 - f.lo) =
        f.store.apply (bitsAt v f.lo (f.hi + 1 - f.lo)) % 2 ^ (f.hi + 1 - f.lo))
      ∧ (f.acc = .w1c → ∀ b, f.lo ≤ b → b ≤ f.hi → bitOf (s.stored a v).toNat b = (bitOf (s.reg a).toNat b && !bitOf v b))
      ∧ (f.acc = .ro ∨ f.acc = .rc ∨ f.acc = .wo → bitsAt (s.stored a v).toNat f.lo (f.hi + 1 - f.lo) =
        bitsAt (s.reg a).toNat f.lo (f.hi + 1 - f.lo)))
  ∧ (∀ (a v b : Nat) (r : RegRow) (s : State), regRow a = some r → b < 32 →
    (r.fields.any fun f => f.lo ≤ b && b ≤ f.hi) = false → bitOf (s.stored a v).toNat b = bitOf (s.reg a).toNat b)
  ∧ (∀ (p : Fin 4) (a : Nat) (s : State), addrDomain a = none → s.readWord p a = (0x23, 0, s.logAccess .unmapped p false a))
  ∧ (∀ (p : Fin 4) (a d : Nat) (s : State), addrDomain a = some d → s.domOn d = false →
    s.readWord p a = (0x20, (if inPages a then 0xD0FF0000 + pageOf a else 0xD0FF0800 + d), s.logAccess .domainDown p false a))
  ∧ (∀ (p : Fin 4) (a d : Nat) (s : State), addrDomain a = some d → s.domOn d = true → inPages a = false →
    memNoAccess a = true → s.readWord p a = (0x22, 0, s.logAccess .noAccess p false a))
  ∧ (∀ (p : Fin 4) (a : Word) (b0 b1 b2 b3 : Byte) (d : Nat) (s : State), s.Hears p →
    s.change = none → a.toNat % 4 = 0 → 0x60000000 ≤ a.toNat → a.toNat < 0x60100000 → addrDomain a.toNat = some d →
    s.domOn d = true → exec (.wr p a 0 [b0, b1, b2, b3]) s = .next ((s.setBytes a.toNat [b0, b1, b2, b3]).gives p 0x11 0x00 []))
  ∧ (∀ (p : Fin 4) (a : Word) (v : BitVec 16) (bs : List Byte) (s : State), s.Hears p →
    a.toNat % 4 ≠ 0 ∨ bs.length % 4 ≠ 0 ∨ bs = [] → exec (.wr p a v bs) s = .next (s.gives p 0x11 0x15 []))
  ∧ (∀ (p : Fin 4) (a m v : Word) (d : Nat) (s : State), s.Hears p → s.change = none →
    a.toNat % 4 = 0 → 0x60000000 ≤ a.toNat → a.toNat < 0x60100000 → addrDomain a.toNat = some d → s.domOn d = true →
    exec (.rmw p a 0 m v) s = .next ((s.setMemWord a.toNat ((s.memWord a.toNat &&& ~~~m) ||| (v &&& m))).gives p 0x12 0x00
      (bytesLE 4 (s.memWord a.toNat).toNat)))
  ∧ (∀ (p : Fin 4) (a : Word) (v : BitVec 16) (b0 b1 b2 b3 : Byte) (s : State), s.Hears p →
    a.toNat % 4 = 0 → v ≠ 0 → s.ownBib p v.toNat = none →
    exec (.wr p a v [b0, b1, b2, b3]) s = .next (s.gives p 0x11 0x37 []))

/-- Transactions and claims (R346–R349, R357, R363, R365). Where a clause rests on a choice or an inference of the model, that
is logged in notes/assumptions: 5, 12, 55, 57, 60. -/
def Obligations.TransactionOperations : Prop :=
  (∀ (p : Fin 4) (k : Nat) (s t : State), s.Hears p → s.mayOpen p = true →
    s.takeBib p false = (some k, t) → exec (.txnOpen p) s = .next (t.gives p 0x20 0x00 (bytesLE 2 (t.bibAt k).value ++ [0, 0])))
  ∧ (∀ (p : Fin 4) (s : State), s.Hears p → s.mayOpen p = false →
    exec (.txnOpen p) s = .next (s.gives p 0x20 0x33 [0, 0, 0, 0]))
  ∧ (∀ (p : Fin 4) (v : BitVec 16) (mode : Byte) (time : Count) (k : Nat) (s : State), s.Hears p →
    s.ownBib p v.toNat = some k → (s.bibAt k).state = .opened → mode = 1 ∨ mode = 2 →
    s.timePassed mode.toNat time.toNat = false → exec (.txnCommit p v mode time) s =
      .next ((s.updBib k fun x => { x with state := .scheduled, mode := mode.toNat, time := time.toNat }).gives p 0x21 0x01
        (s.bibAt k).report20))
  ∧ (∀ (p : Fin 4) (v : BitVec 16) (time : Count) (k : Nat) (s : State), s.Hears p → s.change = none →
    s.domOn Dm.PLL = true → s.ownBib p v.toNat = some k → (s.bibAt k).state = .opened → (s.bibAt k).mode = 0 →
    s.txn.entriesOf (s.bibAt k).value = [] → After (exec (.txnCommit p v 0 time) s) fun t =>
      (t.bibAt k).state = .inFlight ∧ (t.bibAt k).value = (s.bibAt k).value
      ∧ t.ports[p].waiting.map (·.wait) = [.outcome v.toNat] ∧ Quiet (fun _ => False) s t)
  ∧ (∀ (p : Fin 4) (v : BitVec 16) (mode : Byte) (time : Count) (s : State), s.Hears p →
    s.ownBib p v.toNat = none → exec (.txnCommit p v mode time) s =
      .next (s.gives p 0x21 0x37 (bytesLE 2 v.toNat ++ List.replicate 18 0)))
  ∧ (∀ (p : Fin 4) (v : BitVec 16) (k : Nat) (s : State), s.Hears p → s.change = none →
    s.ownBib p v.toNat = some k → (s.bibAt k).state = .opened ∨ (s.bibAt k).state = .scheduled → (s.bibAt k).orphan = false → (s.bibAt k).later < 4 →
    s.txn.entriesOf (s.bibAt k).value = [] → After (exec (.txnAbort p v) s) fun t =>
      (t.bibAt k).state = .aborted ∧ (t.bibAt k).status = 0x35 ∧ t.evt txnPage TxnEv.ABORTED = true
      ∧ t.ports[p].results = [⟨0x22, 0x00, []⟩]
      ∧ Frame (fun a => a = Adr.TXN_ABORT_CNT ∨ a = Adr.TXN_LAST_ABORT ∨ a = Adr.TXN_LAST_PAGE ∨ StatusOf [txnPage] a) s t)
  ∧ (∀ (p : Fin 4) (v : BitVec 16) (r : Bool) (k : Nat) (s : State), s.Hears p →
    s.ownBib p v.toNat = some k → r = false ∨ (s.bibAt k).retained = false →
    exec (.txnStatus p v r) s = .next (s.gives p 0x23 (s.bibAt k).report (s.bibAt k).report20))
  ∧ (∀ (p : Fin 4) (v : BitVec 16) (k : Nat) (s : State), s.Hears p →
    s.ownBib p v.toNat = some k → (s.bibAt k).retained = true →
    exec (.txnStatus p v true) s = .next ((s.freeBib k).gives p 0x23 (s.bibAt k).report (s.bibAt k).report20))
  ∧ (∀ (p : Fin 4) (g : BitVec 16) (s : State), s.Hears p → pageDefined g.toNat = false →
    exec (.claim p g) s = .next (s.gives p 0x30 0x23 []) ∧ exec (.release p g) s = .next (s.gives p 0x31 0x23 []))
  ∧ (∀ (p : Fin 4) (g : BitVec 16) (s : State), s.Hears p → pageDefined g.toNat = true →
    s.inFlight g.toNat = false → s.claimOf g.toNat = none →
    exec (.claim p g) s = .next ({ s with claims := s.claims ++ [(g.toNat, p.val)] }.gives p 0x30 0x00 [])
      ∧ exec (.release p g) s = .next (s.gives p 0x31 0x00 []))
  ∧ (∀ (p : Fin 4) (g : BitVec 16) (s : State), s.Hears p → pageDefined g.toNat = true →
    s.inFlight g.toNat = false → s.claimOf g.toNat = some p.val → exec (.claim p g) s = .next (s.gives p 0x30 0x00 [])
      ∧ exec (.release p g) s = .next ({ s with claims := s.claims.filter fun e => e.1 != g.toNat }.gives p 0x31 0x00 []))
  ∧ (∀ (p : Fin 4) (g : BitVec 16) (q : Nat) (s : State), s.Hears p → pageDefined g.toNat = true →
    s.inFlight g.toNat = false → s.claimOf g.toNat = some q → q ≠ p.val →
    exec (.claim p g) s = .next (s.gives p 0x30 0x21 []) ∧ exec (.release p g) s = .next (s.gives p 0x31 0x21 []))

/-- RING_PULL and RING_PUSH (R374). Where a clause rests on a choice or an inference of the model, that is logged in
notes/assumptions: 5, 62. -/
def Obligations.RingOperations : Prop :=
  (∀ (p : Fin 4) (r : Byte) (n : BitVec 16) (s : State), s.Hears p → pullAllowed p r.toNat = true →
    (s.ring r.toNat).enable = true → exec (.ringPull p r n) s =
      .next ((s.updRing r.toNat fun q => { q with cons := q.cons + BitVec.ofNat 32 (min n.toNat (s.ring r.toNat).fill) }).gives p 0x40 0x00
        (bytesLE 2 (min n.toNat (s.ring r.toNat).fill) ++ [0, 0] ++ s.ringEntries r.toNat (min n.toNat (s.ring r.toNat).fill))))
  ∧ (∀ (p : Fin 4) (r : Byte) (n : BitVec 16) (s : State), s.Hears p → pullAllowed p r.toNat = true →
    (s.ring r.toNat).enable = false → exec (.ringPull p r n) s = .next (s.gives p 0x40 0x00 [0, 0, 0, 0]))
  ∧ (∀ (p : Fin 4) (r : Byte) (n : BitVec 16) (s : State), s.Hears p → pullAllowed p r.toNat = false →
    exec (.ringPull p r n) s = .next (s.gives p 0x40 0x22 [0, 0, 0, 0]))
  ∧ (∀ (p : Fin 4) (r : Byte) (bs : List Byte) (s : State), s.Hears p → r = 30 ∨ r = 31 →
    (s.ring r.toNat).enable = true → bs.length = ringEsize r.toNat (s.ring r.toNat).pack →
    (s.ring r.toNat).fill < (s.ring r.toNat).size → After (exec (.ringPush p r bs) s) fun t =>
      t.ring r.toNat = { s.ring r.toNat with prod := (s.ring r.toNat).prod + 1 }
      ∧ t.bytesAt ((s.ring r.toNat).entryAddr r.toNat (s.ring r.toNat).prod) bs.length = bs
      ∧ t.ports[p].results = [⟨0x41, 0x00, [1, 0, 0, 0]⟩]
      ∧ (∀ a, t.reg a = s.reg a) ∧ ∀ a, ¬ (s.ring r.toNat).stores r.toNat a → t.byte a = s.byte a)
  ∧ (∀ (p : Fin 4) (r : Byte) (bs : List Byte) (s : State), s.Hears p →
    r ≠ 24 → r ≠ 30 → r ≠ 31 → exec (.ringPush p r bs) s = .next (s.gives p 0x41 0x22 [0, 0, 0, 0]))

/-- Direct writes that are commands of their own (R350, R409, R410): what applies at once and moves the version of its page,
what EVT_STATUS and ERR take (18_register_pages.md R405, R406), registers of the pages JACK and TXN, what is refused, and what
makes an implicit transaction: a swap and a power change. Where a clause rests on a choice or an inference of the model, that is
logged in notes/assumptions: 5, 17, 46, 54, 58. -/
def Obligations.WriteCommands : Prop :=
  (∀ (p : Fin 4) (a v : Word) (s : State), s.Hears p → s.TakesWrite p (pageOf a.toNat) (a.toNat / 4 * 4) →
    s.checkWord p false (a.toNat / 4 * 4) = (0x00, none) → inPages (a.toNat / 4 * 4) = true → pageOf a.toNat ≠ crcPage →
    regIgnored (pageOf a.toNat) (pageOff (a.toNat / 4 * 4)) = false → isFabParam (a.toNat / 4 * 4) = false →
    isTickWord (a.toNat / 4 * 4) = false → a.toNat / 4 * 4 ≠ Adr.FAB_SWAP → targetDomain (a.toNat / 4 * 4) = none →
    s.grpShortAt (a.toNat / 4 * 4) v.toNat = false → pageOf a.toNat ≠ aonPage → pageOf a.toNat ≠ bootPage →
    pageOf a.toNat ≠ cpPage p → exec (.registerWrite p a v) s =
      .next (((s.applyWrite p (a.toNat / 4 * 4) v.toNat).bumpVer (pageOf (a.toNat / 4 * 4))).gives p 0x11 0x00 []))
  ∧ (∀ (p : Fin 4) (g : Fin 108) (v : Word) (s : State), s.Hears p → s.TakesWrite p g (pageAddr g 0x010) → evtMask g ≠ 0 →
    g.val ≠ txnPage → exec (.registerWrite p (word (pageAddr g 0x010)) v) s =
      .next (((s.setReg (pageAddr g 0x010) (s.reg (pageAddr g 0x010) &&& ~~~v)).bumpVer g).gives p 0x11 0x00 []))
  ∧ (∀ (p : Fin 4) (g : Fin 108) (v : Word) (s : State), s.Hears p → s.TakesWrite p g (pageAddr g 0x01C) → errMask g ≠ 0 →
    g.val ≠ crcPage → exec (.registerWrite p (word (pageAddr g 0x01C)) v) s =
      .next (((s.setReg (pageAddr g 0x01C) (s.reg (pageAddr g 0x01C) &&& ~~~v)).bumpVer g).gives p 0x11 0x00 []))
  ∧ (∀ (p : Fin 4) (a v : Word) (r : RegRow) (s : State), s.Hears p → pageOf a.toNat = jackPage ∨ pageOf a.toNat = txnPage →
    s.TakesWrite p (pageOf a.toNat) a.toNat → 0x040 ≤ pageOff a.toNat → pageReg (pageOf a.toNat) (pageOff a.toNat) = some r →
    r.writable = true → a.toNat % 4 = 0 → inPages a.toNat = true → exec (.registerWrite p a v) s =
      .next (((s.setReg a.toNat (s.stored a.toNat v.toNat)).bumpVer (pageOf a.toNat)).gives p 0x11 0x00 []))
  ∧ (∀ (p : Fin 4) (a v : Word) (st : Nat) (x : AccessKind) (s : State), s.Hears p →
    s.writeHeld p (a.toNat / 4 * 4) = false → s.checkWord p false (a.toNat / 4 * 4) = (st, some x) → st ≠ 0x00 →
    exec (.registerWrite p a v) s = .next ((s.logAccess x p true (a.toNat / 4 * 4)).gives p 0x11 st []))
  ∧ (∀ (p : Fin 4) (a v : Word) (st : Nat) (s : State), s.Hears p → pageOf (a.toNat / 4 * 4) ≠ crcPage →
    s.writeHeld p (a.toNat / 4 * 4) = false → s.checkWord p false (a.toNat / 4 * 4) = (st, none) → st ≠ 0x00 →
    exec (.registerWrite p a v) s = .next (s.gives p 0x11 st []))
  ∧ (∀ (p : Fin 4) (k : Nat) (x : Piste) (a : Admission) (s t u : State), s.Hears p → s.TakesWrite p fabPage Adr.FAB_SWAP →
    s.takeBib p true = (some k, t) → s.txn.used.length < 8192 → s.fabState = .running → s.domOn Dm.PLL = true → s.change = none →
    s.txn.staging = [] → s.inFlight fabPage = false →
    s.swapCheck (s.fld Fd.FAB_XOVER_TICKS) = (.good x a, u) → s.swapNeed x ≤ s.granFree →
    After (exec (.pisteSwap p) s) fun y => y.fab.pend = some (x, a) ∧ y.flag Fd.FAB_STAT_SWAP_PEND = true
      ∧ y.flag Fd.FAB_STAT_IDLE_LOCK = true ∧ (y.bibAt k).state = .implicit ∧ (y.bibAt k).status = 0x02 ∧ y.inFlight fabPage = true
      ∧ y.ports[p].waiting.map (·.wait) = [.power []] ∧ y.runPiste = s.runPiste ∧ y.pageVer fabPage = s.pageVer fabPage)
  ∧ (∀ (p : Fin 4) (k : Nat) (s t u : State), s.Hears p → s.TakesWrite p fabPage Adr.FAB_SWAP →
    s.takeBib p true = (some k, t) → s.txn.used.length < 8192 → s.change = none → s.txn.staging = [] →
    s.swapCheck (s.fld Fd.FAB_XOVER_TICKS) = (.overBudget, u) →
    After (exec (.pisteSwap p) s) fun y => y.ports[p].results = [⟨0x11, 0x31, []⟩] ∧ y.ports[p].waiting = []
      ∧ (y.bibAt k).state = .free ∧ y.fab.pend = s.fab.pend ∧ y.txn.staging = [] ∧ y.pageVer fabPage = s.pageVer fabPage)
  ∧ (∀ (p : Fin 4) (d : Fin 27) (k : Nat) (s t : State), s.Hears p → s.TakesWrite p pwrPage (Adr.PWR_DOM_CTRL d) → d.val ≠ 0 →
    s.takeBib p true = (some k, t) → s.txn.used.length < 8192 → s.change = none → s.txn.staging = [] → s.dom d = .off →
    s.fld (Fd.PWR_DOM_CTRL_TARGET d) = 0 → (∀ r ∈ requires d, s.domOn r = true) →
    (∀ e, e < 27 → s.domOn e = true → ∀ r ∈ requires e, s.domOn r = true) → 850 ≤ s.pvdd → s.domOn Dm.PLL = true →
    After (exec (.powerChange p [(d, 2)]) s) fun y => y.dom d = .waking true ∧ (∃ c, y.change = some c ∧ c.phase = .wake
        ∧ c.cause = .direct p (t.bibAt k).value ∧ c.writes = [(d.val, 2)] ∧ c.wakes = [] ∧ c.lowers = [])
      ∧ (∀ e, e ≠ d.val → y.dom e = s.dom e) ∧ (y.bibAt k).state = .implicit
      ∧ y.ports[p].waiting.map (·.wait) = [.power []] ∧ ∀ x, y.reg x = s.reg x)
  ∧ (∀ (p : Fin 4) (d : Fin 27) (v : Word) (s : State), s.Hears p → d.val ≠ 0 →
    s.writeHeld p (Adr.PWR_DOM_CTRL d) = false → s.domOn Dm.AON = true → s.claimedByOther p pwrPage = true →
    exec (.powerChange p [(d, v)]) s = .next (s.gives p 0x11 0x21 []))

/-- The tick of transactions (R357, R359, R361, R363; Table 15.3): when a timed validation runs and what a validation decides
(the apply tick missed, a page claimed by another port, a page of another version, or IN_FLIGHT), the apply tick of a bib
without entries, and what an abort leaves. Where a clause rests on a choice or an inference of the model, that is logged in
notes/assumptions: 2, 15, 55, 59, 60. -/
def Obligations.TransactionTicks : Prop :=
  (∀ (v : BitVec 16) (k : Nat) (s : State), s.slotOf v.toNat = some k → s.domOn Dm.CORE = true →
    (s.bibAt k).state = .scheduled → (s.bibAt k).waitsPage = false → s.voted k = false → s.validationDue (s.bibAt k) = true →
    exec (.timedValidation v) s =
      .next (s.validate k (if s.fabRuns then s.tickcnt + 1 else if s.startsNow then 0 else s.tickcnt) s.syscnt).pump)
  ∧ (∀ (k now edge : Nat) (s : State), k < 64 → s.bibBlocked k = false → (s.bibAt k).state ≠ .implicit → (s.bibAt k).orphan = false →
    (s.bibAt k).later < 4 → s.bibLate (s.bibAt k) now edge = true →
    ((s.validate k now edge).bibAt k).state = .aborted ∧ ((s.validate k now edge).bibAt k).status = 0x36
      ∧ ((s.validate k now edge).bibAt k).page = 0)
  ∧ (∀ (k now edge g : Nat) (before after : List Nat) (s : State), k < 64 → s.bibBlocked k = false → (s.bibAt k).state ≠ .implicit →
    (s.bibAt k).orphan = false → (s.bibAt k).later < 4 → s.bibLate (s.bibAt k) now edge = false →
    s.pagesOf k = before ++ g :: after → (∀ h ∈ before, s.claimedByOther (Fin.ofNat 4 (s.bibAt k).port) h = false) →
    s.claimedByOther (Fin.ofNat 4 (s.bibAt k).port) g = true →
    ((s.validate k now edge).bibAt k).state = .aborted ∧ ((s.validate k now edge).bibAt k).status = 0x21
      ∧ ((s.validate k now edge).bibAt k).page = g)
  ∧ (∀ (k now edge g : Nat) (before after : List Nat) (s : State), k < 64 → s.bibBlocked k = false → (s.bibAt k).state ≠ .implicit →
    (s.bibAt k).orphan = false → (s.bibAt k).later < 4 → s.bibLate (s.bibAt k) now edge = false →
    s.pagesOf k = before ++ g :: after → (∀ h ∈ s.pagesOf k, s.claimedByOther (Fin.ofNat 4 (s.bibAt k).port) h = false) →
    (∀ h ∈ before, (s.bibAt k).versions.find? (·.1 == h) = some (h, s.pageVer h)) →
    (∃ v, (s.bibAt k).versions.find? (·.1 == g) = some (g, v) ∧ v ≠ s.pageVer g) →
    ((s.validate k now edge).bibAt k).state = .aborted ∧ ((s.validate k now edge).bibAt k).status = 0x30
      ∧ ((s.validate k now edge).bibAt k).page = g)
  ∧ (∀ (k now edge n : Nat) (s : State), k < 64 → s.bibBlocked k = false → (s.bibAt k).state = .opened ∨ (s.bibAt k).state = .scheduled →
    s.bibLate (s.bibAt k) now edge = false → (∀ h ∈ s.pagesOf k, s.claimedByOther (Fin.ofNat 4 (s.bibAt k).port) h = false) →
    (∀ h ∈ s.pagesOf k, (s.bibAt k).versions.find? (·.1 == h) = some (h, s.pageVer h)) → (∀ h ∈ s.pagesOf k, s.pageOn h = true) →
    s.swapStaged (s.opsOf k) = false → s.targetChanges (s.opsOf k) = [] → s.granulesNeeded (s.opsOf k) = some n → s.change = none →
    s.domOn Dm.PLL = true → s.fabState ≠ .stopped →
    ((s.validate k now edge).bibAt k).state = .inFlight ∧ ((s.validate k now edge).bibAt k).status = 0x02
      ∧ ((s.validate k now edge).bibAt k).reserved = n ∧ ((s.validate k now edge).bibAt k).validated = s.txn.order + 1
      ∧ (s.validate k now edge).txn.order = s.txn.order + 1 ∧ Quiet (fun _ => False) s (s.validate k now edge))
  ∧ (∀ (v : BitVec 16) (k : Nat) (s : State), s.slotOf v.toNat = some k → s.applyNext k = true → s.tickWrites = [] →
    s.change = none → s.domOn Dm.PLL = true → s.Settled → (s.bibAt k).state = .inFlight → (s.bibAt k).later < 4 →
    s.txn.entriesOf (s.bibAt k).value = [] → After (exec (.txnApply v) s) fun t =>
      (t.bibAt k).state = .committed ∧ (t.bibAt k).status = 0x00 ∧ (t.bibAt k).sys = s.syscnt
      ∧ (t.bibAt k).tick = (if s.fabRuns then s.tickcnt + 1 else if s.startsNow then 0 else s.tickcnt)
      ∧ t.fld Fd.TXN_COMMIT_CNT_COUNT = (s.fld Fd.TXN_COMMIT_CNT_COUNT + 1) % 2 ^ 32 ∧ t.evt txnPage TxnEv.COMMITTED = true
      ∧ Frame (fun a => a = Adr.TXN_COMMIT_CNT ∨ StatusOf [txnPage] a) s t)
  ∧ (∀ (k status last : Nat) (s : State), k < 64 → (s.bibAt k).orphan = false → (s.bibAt k).later < 4 →
    s.txn.entriesOf (s.bibAt k).value = [] → ((s.abortBib k status last).bibAt k).state = .aborted
      ∧ ((s.abortBib k status last).bibAt k).status = status
      ∧ ((s.abortBib k status last).bibAt k).page = (if status = 0x21 ∨ status = 0x30 then last else 0)
      ∧ (s.abortBib k status last).fld Fd.TXN_ABORT_CNT_ALL = satAdd 16 (s.fld Fd.TXN_ABORT_CNT_ALL) 1
      ∧ (s.abortBib k status last).fld Fd.TXN_ABORT_CNT_CONFLICT
          = (if status = 0x30 then satAdd 16 (s.fld Fd.TXN_ABORT_CNT_CONFLICT) 1 else s.fld Fd.TXN_ABORT_CNT_CONFLICT)
      ∧ (s.abortBib k status last).evt txnPage TxnEv.ABORTED = true
      ∧ (status = 0x33 → (s.abortBib k status last).evt txnPage TxnEv.STAGING_FULL = true)
      ∧ Frame (fun a => a = Adr.TXN_ABORT_CNT ∨ a = Adr.TXN_LAST_ABORT ∨ a = Adr.TXN_LAST_PAGE ∨ StatusOf [txnPage] a) s
          (s.abortBib k status last))

/-! ## Power (13_power_domains.md) -/

/-- Votes (R306–R308), domains on their way (R310), and what a change leaves. Where a clause rests on a choice or an inference
of the model, that is logged in notes/assumptions: 2, 58, 61, 73. -/
def Obligations.PowerChangeCommands : Prop :=
  (∀ (c : Change) (k d g : Nat) (rest : List (Nat × Nat)) (arriving : Bool) (s : State), s.change = some c →
    s.changeSlot = some k → c.phase = .vote → c.voters = (d, g) :: rest → rest ≠ [] → s.voteOf (s.bibAt k).value g d arriving = 0 →
    exec (.voteAnswer arriving) s = .next (s.updChange fun q => { q with voters := rest, agreed := q.agreed ++ [(d, g)] }).pump)
  ∧ (∀ (c : Change) (k d g cause : Nat) (rest : List (Nat × Nat)) (arriving : Bool) (s : State), s.change = some c →
    s.changeSlot = some k → c.phase = .vote → c.voters = (d, g) :: rest → s.voteOf (s.bibAt k).value g d arriving = cause →
    cause ≠ 0 → exec (.voteAnswer arriving) s = .next (s.voteLost cause).pump)
  ∧ (∀ (g d bib : Nat) (s : State), 8 ≤ g → g ≤ 11 → s.pageOn g = true → s.voteOf bib g d true ≠ 0)
  ∧ (∀ (g d bib : Nat) (arriving : Bool) (s : State), s.pageOn g = false → s.voteOf bib g d arriving = 0)
  ∧ (∀ (s : State), s.voting = true → exec .voteTimeout s = .next (s.voteLost 4).pump)
  ∧ (∀ (d : Fin 27) (g cause : Nat) (s : State), g < 1024 → cause < 16 →
    (s.voteRecord d g cause).fld (Fd.PWR_DOM_REFUSE_CAUSE d) = cause ∧ (s.voteRecord d g cause).fld (Fd.PWR_DOM_REFUSE_REFUSER d) = g
      ∧ (s.voteRecord d g cause).fld (Fd.PWR_DOM_REFUSE_COUNT d) = satAdd 16 (s.fld (Fd.PWR_DOM_REFUSE_COUNT d)) 1
      ∧ (s.voteRecord d g cause).fld Fd.PWR_ABORTS_COUNT = satAdd 16 (s.fld Fd.PWR_ABORTS_COUNT) 1
      ∧ (s.voteRecord d g cause).fld Fd.PWR_ABORTS_CAUSE = cause ∧ (s.voteRecord d g cause).fld Fd.PWR_ABORTS_DOMAIN = d.val
      ∧ (s.voteRecord d g cause).evt pwrPage PwrEv.REFUSED = true
      ∧ Frame (fun a => a = Adr.PWR_DOM_REFUSE d ∨ a = Adr.PWR_ABORTS ∨ StatusOf [pwrPage] a) s (s.voteRecord d g cause))
  ∧ (∀ (c : Change) (v d : Nat) (s : State), s.change = some c → c.cause = .txn v → c.phase = .wake → c.wakes = [] →
    s.wakingNow = some (d, false) → 9 ≤ d → d ≤ 12 → (d = 12 → s.pdmAway = true) → s.domOn Dm.PLL = true → s.Settled →
    exec .domainWakeDone s = .next ((s.setDom d .on).updChange fun q => { q with phase := .wait }))
  ∧ (∀ (c : Change) (p v k : Nat) (s : State), s.change = some c → c.cause = .access p v → c.phase = .wait → s.slotOf v = some k →
    s.Settled → s.lift = false → After (exec .powerApply s) fun t => t.change = none ∧ (t.bibAt k).state = .free
      ∧ (∀ x ∈ c.woken, x.1 < 27 → t.fld (Fd.PWR_DOM_CTRL_TARGET x.1) = 2)
      ∧ t.pageVer pwrPage = (s.pageVer pwrPage + 1) % 2 ^ 32 ∧ t.evt pwrPage PwrEv.CHANGE_DONE = true
      ∧ Frame (fun a => (∃ x ∈ c.woken, a = Adr.PWR_DOM_CTRL x.1) ∨ StatusOf [pwrPage] a) s t)
  ∧ (∀ (c : Change) (v k : Nat) (s : State), s.change = some c → c.cause = .txn v → c.phase = .wait → s.changeSlot = some k →
    s.applyNext k = true → exec .powerApply s = .next (s.applyNow k))
  ∧ (∀ (c : Change) (d : Nat) (off : Bool) (s : State), s.change = some c → c.phase = .lower → c.lowers = [(d, off)] →
    c.restoring = false → s.loweringNow = some (d, off) → 9 ≤ d → d ≤ 12 → s.domOn Dm.PLL = true → s.lift = false → s.Settled →
    After (exec .domainLowerDone s) fun t => t.change = none ∧ t.dom d = (if off then .off else .ret)
      ∧ t.evt pwrPage PwrEv.CHANGE_DONE = true ∧ Frame (StatusOf [pwrPage]) s t)
  ∧ (∀ (d : Nat) (s : State), 9 ≤ d → d ≤ 12 → (d = 12 → s.pdmAway = true) → (s.reachOn d false).dom d = .on ∧ (s.reachOn d true).dom d = .on
    ∧ Quiet (fun _ => False) s (s.reachOn d false)
    ∧ (∀ a, pageAddr (0x020 + 8 * (d - 9)) 0 ≤ a ∧ a < pageAddr (0x028 + 8 * (d - 9)) 0 → (s.reachOn d true).reg a = regReset a)
    ∧ (∀ a, ¬ (pageAddr (0x020 + 8 * (d - 9)) 0 ≤ a ∧ a < pageAddr (0x028 + 8 * (d - 9)) 0) →
        (s.reachOn d true).reg a = s.reg a))

/-- AUTOWAKE and the lift (R313, R318). Where a clause rests on a choice or an inference of the model, that is logged in
notes/assumptions: 2, 17, 58. -/
def Obligations.WakeCommands : Prop :=
  (∀ (p : Fin 4) (a : Word) (d w : Nat) (s : State), s.domOn Dm.CORE = true →
    s.ports[p].waiting = [⟨.rd p a 4, .wake, false, w⟩] → s.ports[p].frames = [] → (∀ q : Fin 4, q ≠ p → s.ports[q].waiting = []) →
    (∀ k : Fin 64, (s.bibAt k).waitsPage = false) → a.toNat % 4 = 0 → addrDomain a.toNat = some d → s.domOn d = false →
    After (exec (.autowakeTimeout p) s) fun t => t.ports[p].waiting = []
      ∧ t.ports[p].results = [⟨0x10, 0x20, bytesLE 4 (downWord a.toNat d)⟩] ∧ t.change = s.change
      ∧ Frame (OfPages [sysPage]) s t)
  ∧ (∀ (p : Fin 4) (s : State), s.ports[p].waiting = [] → exec (.autowakeTimeout p) s = .next s)
  ∧ (∀ (a : TargetAddr) (s : State), targetHits a s.xportCopy s.index = false ∨ s.domOn Dm.CORE = true →
    exec (.liftMatch a) s = .next s)
  ∧ (∀ (a : TargetAddr) (s : State), targetHits a s.xportCopy s.index = true → s.domOn Dm.CORE = false → s.resetHold = none →
    s.pvdd < 850 → exec (.liftMatch a) s = .next ((s.countSat Fd.AON_LIFT_CNT_NACK 1).raise aonPage 1))
  ∧ (∀ (a : TargetAddr) (s : State), targetHits a s.xportCopy s.index = true → s.domOn Dm.CORE = false → s.resetHold = none →
    850 ≤ s.pvdd → s.change = none → s.domOn Dm.CMEM = true → After (exec (.liftMatch a) s) fun t => t.lift = true ∧ t.dom Dm.CORE = .waking (s.dom Dm.CORE == .off)
      ∧ (∃ c, t.change = some c ∧ c.cause = .lift ∧ c.phase = .wake) ∧ Quiet (fun _ => False) s t)
  ∧ (∀ (s : State), s.lift = true → s.domOn Dm.CORE = true → After (exec .liftReady s) fun t => t.lift = false
      ∧ t.fld Fd.AON_LIFT_CNT_COUNT = satAdd 16 (s.fld Fd.AON_LIFT_CNT_COUNT) 1 ∧ t.evt aonPage 0 = true
      ∧ Frame (fun a => a = Adr.AON_LIFT_CNT ∨ StatusOf [aonPage] a) s t)
  ∧ (∀ (s : State), s.lift = true → After (exec .liftTimeout s) fun t => t.lift = false
      ∧ t.fld Fd.AON_LIFT_CNT_NACK = satAdd 16 (s.fld Fd.AON_LIFT_CNT_NACK) 1 ∧ t.evt aonPage 1 = true
      ∧ Frame (fun a => a = Adr.AON_LIFT_CNT ∨ StatusOf [aonPage] a) s t)

/-- Device resets (R320, R322, R385; 17_boot_images_recovery.md R393) and the low-power regulator (R316, R317). Where a clause
rests on a choice or an inference of the model, that is logged in notes/assumptions: 2, 11, 34, 35, 36, 37, 71. -/
def Obligations.ResetCommands : Prop :=
  (∀ (s : State), After (exec .powerOnReset s) fun t => t.resetHold = some .powerOn ∧ t.fld Fd.AON_RESET_CAUSE_CAUSE = 1
      ∧ t.syscnt = 0 ∧ t.claims = [] ∧ t.mem = [] ∧ t.fuses = s.fuses ∧ t.vio = .unselected
      ∧ ∀ d : Fin 27, t.dom d = (if d.val = 0 then .on else .off))
  ∧ (∀ (s : State), After (exec .supplyLoss s) fun t => t.resetHold = some .supply ∧ t.fld Fd.AON_RESET_CAUSE_CAUSE = 2
      ∧ t.syscnt = 0 ∧ t.claims = [] ∧ t.mem = [] ∧ t.fuses = s.fuses ∧ ∀ d : Fin 27, t.dom d = (if d.val = 0 then .on else .off))
  ∧ (∀ (s : State), s.vio = .inside18 ∨ s.vio = .inside33 ∨ s.vio = .outside → After (exec .rstNAssert s) fun t =>
    t.resetHold = some .pin ∧ t.fld Fd.AON_RESET_CAUSE_CAUSE = 4 ∧ t.syscnt = 0 ∧ t.claims = [] ∧ t.mem = []
      ∧ t.fuses = s.fuses ∧ ∀ d : Fin 27, t.dom d = (if d.val = 0 then .on else .off))
  ∧ (∀ (s : State), s.vio = .unselected ∨ s.vio = .dropped → exec .rstNAssert s = .next s)
  ∧ (∀ (s : State), s.resetHold = none → After (exec (.hostReset 0xA5) s) fun t => t.resetHold = some .host
      ∧ bitOf (t.fld Fd.AON_RESET_CAUSE_CAUSE) 3 = true ∧ t.syscnt = s.syscnt ∧ t.index = s.index ∧ t.vio = s.vio ∧ t.claims = []
      ∧ t.mem = [] ∧ t.fuses = s.fuses ∧ (∀ d : Fin 27, t.dom d = (if d.val = 0 then .on else .off))
      ∧ ∀ d : Fin 27, t.fld (Fd.PWR_DOM_CTRL_TARGET d) = (if Dom.onAtReset d then 2 else 0))
  ∧ (∀ (k : Byte) (s : State), s.resetHold = none → k ≠ 0xA5 → exec (.hostReset k) s = .next (s.setErr aonPage 0))
  ∧ (∀ (s : State), s.resetHold = none → s.domOn Dm.SUP = true → After (exec .watchdogReset s) fun t =>
    t.resetHold = some .watchdog ∧ bitOf (t.fld Fd.AON_RESET_CAUSE_CAUSE) 4 = true ∧ t.syscnt = s.syscnt ∧ t.index = s.index
      ∧ t.claims = [] ∧ t.mem = [] ∧ t.fuses = s.fuses ∧ ∀ d : Fin 27, t.dom d = (if d.val = 0 then .on else .off))
  ∧ (∀ (r : ResetSource) (s : State), s.resetHold = some r → r = .powerOn ∨ r = .supply ∨ r = .pin →
    s.fuses.getLsbD Fuse.SCHUSS_EN = false → After (exec .resetRelease s) fun t => t.resetHold = none ∧ t.syscnt = 0
      ∧ t.fuses = s.fuses ∧ t.fusesRead = s.fuses ∧ ∀ d : Fin 27, t.dom d = (if Dom.onAtReset d then .on else .off))
  ∧ (∀ (r : ResetSource) (s : State), s.resetHold = some r → r = .host ∨ r = .watchdog → s.fuse Fuse.SCHUSS_EN = false →
    After (exec .resetRelease s) fun t => t.resetHold = none ∧ t.syscnt = s.syscnt ∧ t.index = s.index ∧ ∀ d : Fin 27, t.dom d = (if Dom.onAtReset d then .on else .off))
  ∧ (∀ (s : State), s.resetHold = none → exec .resetRelease s = .next s)
  ∧ (∀ (s : State), s.domOn Dm.SUP = true → s.mode ≠ .recovery → s.fuse Fuse.SCHUSS_EN = false → After (exec .recover s) fun t =>
    t.mode = .recovery ∧ t.bootPhase = false ∧ t.boot.supp = none ∧ t.evt bootPage BootEv.RECOVERY = true)
  ∧ (∀ (s : State), s.domOn Dm.SUP = true → s.mode = .recovery → exec .recover s = .next s)
  ∧ (∀ (s : State), s.lowPower = true → After (exec (.lpBrownout []) s) fun t => t.flag Fd.PWR_REG_LP_EN = false
      ∧ t.fld Fd.PWR_REG_STAT_BROWNOUT_CNT = satAdd 16 (s.fld Fd.PWR_REG_STAT_BROWNOUT_CNT) 1 ∧ t.evt pwrPage 3 = true
      ∧ Frame (fun a => a = Adr.PWR_REG ∨ a = Adr.PWR_REG_STAT ∨ StatusOf [pwrPage] a) s t)
  ∧ (∀ (d : Fin 27) (s : State), s.lowPower = true → d.val ≠ 0 → d.val ≠ Dm.CORE → d.val ≠ Dm.CMEM → s.dom d = .ret →
    After (exec (.lpBrownout [d]) s) fun t => t.dom d = .off ∧ t.flag (Fd.PWR_DOM_STAT_RET_LOST d) = true
      ∧ t.evt pwrPage 3 = true ∧ t.evt pwrPage 4 = true
      ∧ Frame (fun a => a = Adr.PWR_REG ∨ a = Adr.PWR_REG_STAT ∨ a = Adr.PWR_DOM_STAT d ∨ StatusOf [pwrPage] a) s t)
  ∧ (∀ (p : Fin 4) (d : Fin 27) (s : State), s.TakesWrite p pwrPage Adr.PWR_PAD_RELEASE → s.domOn d = true →
    exec (.padRelease p (BitVec.ofNat 32 (2 ^ d.val))) s =
      .next ((s.updDom d fun q => { q with padHeld := false }).bumpVer pwrPage))
  ∧ (∀ (p : Fin 4) (d : Fin 27) (s : State), s.TakesWrite p pwrPage Adr.PWR_PAD_RELEASE → s.domOn d = false →
    exec (.padRelease p (BitVec.ofNat 32 (2 ^ d.val))) s = .next ((s.setErr pwrPage 0).bumpVer pwrPage))

/-! ## Pins (19_electrical_and_package.md) -/

/-- The supply of the pins, and discharges (R414, R427). Where a clause rests on a choice or an inference of the model, that is
logged in notes/assumptions: 2, 40, 41. -/
def Obligations.PinCommands : Prop :=
  (∀ (mv : Nat) (s : State), s.vio = .unselected → s.resetHold = none → mv < 300 →
    exec (.vioSelect mv) s = .next { s with vio := .inside18 })
  ∧ (∀ (mv : Nat) (s : State), s.vio = .unselected → s.resetHold = none → 500 ≤ mv → mv ≤ 1300 →
    exec (.vioSelect mv) s = .next { s with vio := .inside33 })
  ∧ (∀ (mv : Nat) (s : State), s.vio = .unselected → s.resetHold = none → 1500 ≤ mv →
    exec (.vioSelect mv) s = .next { s with vio := .outside })
  ∧ (∀ (s : State), s.vio = .outside → exec .vioDrop s = .next { s with vio := .dropped })
  ∧ (∀ (s : State), s.vio = .dropped → exec .vioRestored s = .next { s with vio := .outside })
  ∧ (∀ (pin : EsdPin) (s : State),
    exec (.esdDischarge pin) s = .next { s with esd := s.esd.filter (fun x => x.1 != pin) ++ [(pin, s.fc / 1000)] })

/-! ## Frames and sessions (14_control_ports.md) -/

/-- Frames: their checks, acceptance, responses and delivery (R325, R327–R330, R339, R341, Table 14.7). Where a clause rests on
a choice or an inference of the model, that is logged in notes/assumptions: 2, 5, 31, 61, 65, 66, 81. -/
def Obligations.FrameCommands : Prop :=
  (∀ (a : TargetAddr) (bs : List Byte) (s : State), s.portLive 2 = true → s.answersTo 2 a = true → 8 ≤ bs.length → bs.length ≤ 266 → bs.head? = some 0xD5 →
    ofBytesLE ((bs.drop 6).take 2) ≤ 256 → bs.length = 10 + ofBytesLE ((bs.drop 6).take 2) →
    ofBytesLE (bs.drop (bs.length - 2)) ≠ (s.crcRun 2 (bs.take (bs.length - 2))).crcs[2].result →
    exec (.commandFrame 2 bs a) s =
      .next ((s.crcRun 2 (bs.take (bs.length - 2))).refuse 2 (ofBytesLE ((bs.drop 2).take 2)) 0x10).pump)
  ∧ (∀ (a : TargetAddr) (bs : List Byte) (s : State), s.portLive 2 = true → s.answersTo 2 a = true → 8 ≤ bs.length → bs.length ≤ 266 → bs.head? = some 0xD5 →
    ofBytesLE ((bs.drop 6).take 2) ≤ 256 → bs.length = 10 + ofBytesLE ((bs.drop 6).take 2) →
    ofBytesLE (bs.drop (bs.length - 2)) = (s.crcRun 2 (bs.take (bs.length - 2))).crcs[2].result →
    exec (.commandFrame 2 bs a) s = .next ((s.crcRun 2 (bs.take (bs.length - 2))).wholeFrame 2 (ofBytesLE ((bs.drop 1).take 1))
      (ofBytesLE ((bs.drop 2).take 2)) (ofBytesLE ((bs.drop 4).take 2)) ((bs.drop 8).take (bs.length - 10))).pump)
  ∧ (∀ (p : Fin 4) (ver seq ack : Nat) (body : List Byte) (s : State), ver ≠ 1 →
    s.wholeFrame p ver seq ack body = s.refuse p seq 0x14)
  ∧ (∀ (p : Fin 4) (seq ack : Nat) (body : List Byte) (s : State), s.ports[p].session ≠ .opened →
    isHello (parseBody body.length body) = false → s.wholeFrame p 1 seq ack body = s.refuse p seq 0x40)
  ∧ (∀ (p : Fin 4) (seq : Nat) (body : List Byte) (ops : List BodyOp) (s : State), s.ports[p].last ≠ some ⟨seq, body⟩ →
    parseBody body.length body = some ops → isHello (some ops) = false → s.bodyFault p (some ops) = none →
    (seq + 65536 - s.ports[p].next) % 65536 = 0 → s.ports[p].held ≠ 0 →
    s.frameSteps p seq body = s.acceptFrame p seq body (ops.map fun o => o.instr p seq))
  ∧ (∀ (p : Fin 4) (seq : Nat) (body : List Byte) (ops : List BodyOp) (s : State), s.ports[p].last ≠ some ⟨seq, body⟩ →
    parseBody body.length body = some ops → isHello (some ops) = false → s.bodyFault p (some ops) = none →
    32768 ≤ (seq + 65536 - s.ports[p].next) % 65536 → s.frameSteps p seq body = s.refuse p seq 0x12)
  ∧ (∀ (p : Fin 4) (seq : Nat) (body : List Byte) (ops : List BodyOp) (s : State), s.ports[p].last ≠ some ⟨seq, body⟩ →
    parseBody body.length body = some ops → isHello (some ops) = false → s.bodyFault p (some ops) = none →
    (seq + 65536 - s.ports[p].next) % 65536 ≠ 0 → (seq + 65536 - s.ports[p].next) % 65536 < 32768 →
    s.frameSteps p seq body = s.refuse p seq 0x11)
  ∧ (∀ (p : Fin 4) (seq : Nat) (body : List Byte) (ops : List BodyOp) (s : State), s.ports[p].last ≠ some ⟨seq, body⟩ →
    parseBody body.length body = some ops → isHello (some ops) = false → s.bodyFault p (some ops) = none →
    (seq + 65536 - s.ports[p].next) % 65536 = 0 → s.ports[p].held = 0 → s.frameSteps p seq body = s.refuse p seq 0x13)
  ∧ (∀ (p : Fin 4) (seq : Nat) (body : List Byte) (ops : List Instr) (s : State),
    (s.acceptFrame p seq body ops).ports[p].held = s.ports[p].held - 1
      ∧ (s.acceptFrame p seq body ops).ports[p].queued = s.ports[p].queued + 1
      ∧ (s.acceptFrame p seq body ops).ports[p].inflight = s.ports[p].inflight
      ∧ (s.acceptFrame p seq body ops).ports[p].next = (seq + 1) % 65536
      ∧ (s.acceptFrame p seq body ops).ports[p].frames = s.ports[p].frames ++ [⟨seq, ops, false, s.nextTurn⟩]
      ∧ (s.ports[p].frames = [] → (s.acceptFrame p seq body ops).ports[p].results = []
          ∧ (s.acceptFrame p seq body ops).ports[p].waiting = s.ports[p].waiting ++ ops.map fun op => ⟨op, .behind, true, s.nextTurn⟩)
      ∧ (s.acceptFrame p seq body ops).fld (Fd.CP_RX_CNT_FRAMES p) = (s.fld (Fd.CP_RX_CNT_FRAMES p) + 1) % 2 ^ 32
      ∧ (s.acceptFrame p seq body ops).ring p = { s.ring p with prod := (s.ring p).prod + 1 }
      ∧ (∀ a, a ≠ Adr.CP_RX_CNT p → (s.acceptFrame p seq body ops).reg a = s.reg a)
      ∧ ∀ q : Fin 4, q ≠ p → (s.acceptFrame p seq body ops).ports[q] = s.ports[q])
  ∧ (∀ (s : State), s.portLive 3 = true → After (exec .uartOverlength s) fun t =>
    t.fld (Fd.CP_ERR_CNT2_BAD_LEN 3) = satAdd 8 (s.fld (Fd.CP_ERR_CNT2_BAD_LEN 3)) 1 ∧ t.ports[3].held = s.ports[3].held
      ∧ t.ports[3].queued = s.ports[3].queued ∧ t.ports[3].next = s.ports[3].next
      ∧ t.ports[3].out.length = (s.ports[3].out.filter (·.counted)).length + 1 ∧ Quiet (· = Adr.CP_ERR_CNT2 3) s t)
  ∧ (∀ (p : Fin 4) (f : CmdFrame) (s : State), s.domOn Dm.CORE = true → s.Settled →
    s.ports[p].frames = [f] → f.ops.length ≤ s.ports[p].results.length → f.void = false →
    closes s.ports[p].results = false → s.ports[p].replayDue = false →
    After (exec (.responseFormed p) s) fun t => t.ports[p].held = s.ports[p].held ∧ t.ports[p].queued = s.ports[p].queued - 1
      ∧ t.ports[p].inflight = s.ports[p].inflight + 1 ∧ t.ports[p].frames = []
      ∧ t.ports[p].results = [] ∧ t.ports[p].flying = s.ports[p].flying ++ [f.seq]
      ∧ t.ports[p].out.length = s.ports[p].out.length + 1 ∧ ∀ a, t.reg a = s.reg a)
  ∧ (∀ (p : Fin 4) (f g : CmdFrame) (rest : List CmdFrame) (s : State), s.ports[p].frames = f :: g :: rest →
    f.ops.length ≤ s.ports[p].results.length → f.void = false → closes s.ports[p].results = false →
    (s.respond p).ports[p].frames = g :: rest ∧ (s.respond p).ports[p].results = []
      ∧ (s.respond p).ports[p].waiting = s.ports[p].waiting ++ (g.ops.map fun op => ⟨op, .behind, true, g.turn⟩)
      ∧ (s.respond p).ports[p].queued = s.ports[p].queued - 1)
  ∧ (∀ (p : Fin 4) (a : Word) (n : BitVec 16) (bib : BitVec 16) (s : State), s.ports[p].frames ≠ [] →
    exec (.nop p) s = .next s ∧ exec (.rd p a n) s = .next s ∧ exec (.txnOpen p) s = .next s
      ∧ exec (.txnAbort p bib) s = .next s)
  ∧ (∀ (p : Fin 4) (s : State), s.domOn Dm.CORE = true → s.Settled → s.ports[p].frames = [] →
    exec (.responseFormed p) s = .next s)
  ∧ (∀ (a : TargetAddr) (r : Response) (rest : List Response) (s : State), s.portLive 3 = true → s.Settled → s.change = none →
    s.ports[3].out = r :: rest → s.ports[3].xportPend = none →
    exec (.responseDelivered 3 a) s = .next (s.updPort 3 fun q => { q with out := rest }))
  ∧ (∀ (p : Fin 4) (a : TargetAddr) (r : Response) (rest : List Response) (s : State), s.portLive p = true →
    s.answersTo p a = true → p ≠ 3 → s.Settled → s.change = none →
    s.ports[p].out = r :: rest → s.ports[p].xportPend = none →
    exec (.responseDelivered p a) s = .next ({ s with bus := word (s.statusByte p) }.updPort p fun q => { q with out := rest }))
  ∧ (∀ (p : Fin 4) (a : TargetAddr) (s : State), s.portLive p = true → s.answersTo p a = true → p ≠ 3 → s.Settled →
    s.ports[p].out = [] →
    exec (.responseDelivered p a) s = .next { s with bus := word (s.statusByte p) })
  ∧ (∀ (a : TargetAddr) (bs : List Byte) (s : State), targetHits a s.ports[2].xport s.index = false →
    exec (.commandFrame 2 bs a) s = .next s ∧ exec (.responseDelivered 2 a) s = .next s)
  ∧ (∀ (v : BitVec 7) (x index : Nat), targetHits (.seven v) x index = true ↔ x / 128 % 2 = 1 ∧ v.toNat = x % 128)
  ∧ (∀ (v : BitVec 10) (x index : Nat), targetHits (.ten v) x index = true ↔ v.toNat = 0x200 * (x / 1024 % 2) + index)

/-- Sessions: opening, leases, expiry, grace and the close (R343, R344, Table 14.8). Where a clause rests on a choice or an
inference of the model, that is logged in notes/assumptions: 2, 5, 6, 31, 64. -/
def Obligations.SessionCommands : Prop :=
  (∀ (p : Fin 4) (seq : BitVec 16) (ms host : Word) (s : State), s.portLive p = true → s.Settled → s.change = none →
    s.ports[p].session = .none → s.ports[p].frames = [] → After (exec (.hello p seq ms host) s) fun t =>
      t.ports[p].session = .opened ∧ t.ports[p].hostId = host.toNat ∧ t.ports[p].resumed = false
      ∧ t.ports[p].lease = leaseAdjust ms.toNat ∧ t.ports[p].held = 15 ∧ t.ports[p].queued = 1 ∧ t.ports[p].inflight = 0
      ∧ t.ports[p].next = (seq.toNat + 1) % 65536 ∧ t.evt (cpPage p) CpEv.OPENED = true)
  ∧ (∀ (ms : Nat), ms = 0 → leaseAdjust ms = 2000)
  ∧ (∀ (ms : Nat), ms ≠ 0 → leaseAdjust ms = max 100 (min ms 60000))
  ∧ (∀ (p : Fin 4) (ms : Word) (s : State), s.Hears p → ms ≠ 0 → exec (.lease p ms) s =
    .next ((s.leaseStart p (leaseAdjust ms.toNat)).gives p 0x02 0x00 (bytesLE 4 (leaseAdjust ms.toNat))))
  ∧ (∀ (p : Fin 4) (s : State), s.Hears p → s.change = none → s.ports[p].session = .opened → After (exec (.lease p 0) s) fun t => t.ports[p].session = .none ∧ (∀ e ∈ t.claims, e.2 ≠ p.val)
      ∧ t.ports[p].held = 16 ∧ t.ports[p].queued = 0 ∧ t.ports[p].inflight = 0 ∧ t.evt (cpPage p) CpEv.CLOSED = true)
  ∧ (∀ (p : Fin 4) (s : State), s.domOn Dm.CORE = true → s.ports[p].session = .opened → s.ports[p].queued = 0 →
    exec (.leaseWarning p) s = .next ((s.leaseAt p (min (s.leaseNow p) (msCounts s.ports[p].lease / 4 - 1))).updPort p
      fun q => { q with leaseLow := true }))
  ∧ (∀ (p : Fin 4) (s : State), s.domOn Dm.CORE = true → s.Settled → s.change = none → s.ports[p].session = .opened →
    s.ports[p].queued = 0 → After (exec (.leaseExpiry p) s) fun t => t.ports[p].session = .grace ∧ t.claims = s.claims
      ∧ t.ports[p].held = 16 ∧ t.ports[p].queued = 0 ∧ t.ports[p].inflight = 0
      ∧ t.ports[p].leaseLeft = msCounts s.ports[p].lease ∧ t.evt (cpPage p) CpEv.EXPIRED = true
      ∧ t.fld (Fd.CP_SES_CNT_EXPIRED p) = satAdd 16 (s.fld (Fd.CP_SES_CNT_EXPIRED p)) 1)
  ∧ (∀ (p : Fin 4) (s : State), s.domOn Dm.CORE = true → s.Settled → s.ports[p].session = .grace →
    After (exec (.graceEnd p) s) fun t => t.ports[p].session = .none ∧ t.claims = s.claims.filter (fun e => e.2 != p.val)
      ∧ t.evt (cpPage p) CpEv.GRACE_END = true ∧ Frame (StatusOf [cpPage p]) s t)
  ∧ (∀ (p : Fin 4) (s : State), s.ports[p].session = .none → exec (.leaseExpiry p) s = .next s ∧ exec (.graceEnd p) s = .next s
    ∧ exec (.leaseWarning p) s = .next s)

/-! ## Rings, events and books (16_rings_events_books.md) -/

/-- Descriptors, indices, forced and enabled events, and the books (R372, R373, R376, R381). Where a clause rests on a choice or
an inference of the model, that is logged in notes/assumptions: 16, 62, 63. -/
def Obligations.RingCommands : Prop :=
  (∀ (p : Fin 4) (r : Fin 32) (v : Word) (s : State), r.val < 12 → exec (.ringConfigWrite p r v) s = .next s)
  ∧ (∀ (p : Fin 4) (r : Fin 32) (v : Word) (s : State), 12 ≤ r.val → s.TakesWrite p ringPage (Adr.RING_RING_CFG r) → bitOf v.toNat 31 = true → (s.ring r).enable = true →
    exec (.ringConfigWrite p r v) s = .next (s.bumpVer ringPage))
  ∧ (∀ (p : Fin 4) (r : Fin 32) (v : Word) (s : State), 12 ≤ r.val → s.TakesWrite p ringPage (Adr.RING_RING_CFG r) → bitOf v.toNat 31 = true → (s.ring r).enable = false →
    (s.updRing r fun q => q.layoutFrom r v.toNat).ringBlocked r = false → After (exec (.ringConfigWrite p r v) s) fun t =>
      t.ring r = { (s.ring r).layoutFrom r v.toNat with enable := true, prod := 0, cons := 0, lost := 0, lostBefore := false }
      ∧ (∀ i, i ≠ r.val → t.ring i = s.ring i) ∧ (∀ a, a ≠ Adr.HKSEQ_LOST (r.val - 20) → t.reg a = s.reg a) ∧ ∀ a, t.byte a = s.byte a)
  ∧ (∀ (p : Fin 4) (r : Fin 32) (v : Word) (s : State), 12 ≤ r.val → s.TakesWrite p ringPage (Adr.RING_RING_CFG r) → bitOf v.toNat 31 = false → exec (.ringConfigWrite p r v) s =
      .next ((s.updRing r fun q => { q.layoutFrom r v.toNat with enable := false }).bumpVer ringPage))
  ∧ (∀ (p : Fin 4) (r : Fin 32) (v : Word) (s : State), ringDeviceProduced r = true → s.TakesWrite p ringPage (Adr.RING_RING_CONS r) → (v - (s.ring r).cons).toNat ≤ (s.ring r).fill →
    exec (.ringIndexWrite p r false v) s = .next ((s.updRing r fun q => { q with cons := v }).bumpVer ringPage))
  ∧ (∀ (p : Fin 4) (r : Fin 32) (v : Word) (s : State), r.val = 30 ∨ r.val = 31 → s.TakesWrite p ringPage (Adr.RING_RING_PROD r) →
    (s.ring r).enable = true → (v - (s.ring r).prod).toNat ≤ (s.ring r).size - (s.ring r).fill →
    exec (.ringIndexWrite p r true v) s = .next ((s.updRing r fun q => { q with prod := v }).bumpVer ringPage))
  ∧ (∀ (p : Fin 4) (r : Fin 32) (v : Word) (s : State), ringDeviceProduced r = true → s.TakesWrite p ringPage (Adr.RING_RING_CONS r) → (s.ring r).fill < (v - (s.ring r).cons).toNat →
    exec (.ringIndexWrite p r false v) s = .next ((s.setErr ringPage 1).bumpVer ringPage))
  ∧ (∀ (p : Fin 4) (r : Fin 32) (v : Word) (s : State), indexIsHost r true = true → s.TakesWrite p ringPage (Adr.RING_RING_PROD r) →
    (s.ring r).enable = false → v ≠ (s.ring r).prod → (v - (s.ring r).prod).toNat ≤ (s.ring r).size - (s.ring r).fill →
    After (exec (.ringIndexWrite p r true v) s) fun t => t.ring r =
        { s.ring r with lost := satAdd 16 (s.ring r).lost (v - (s.ring r).prod).toNat, lostBefore := true }
      ∧ t.evt ringPage 1 = true)
  ∧ (∀ (p : Fin 4) (r : Fin 32) (b : Bool) (v : Word) (s : State), indexIsHost r b = false →
    exec (.ringIndexWrite p r b v) s = .next s)
  ∧ (∀ (p : Fin 4) (g : Fin 108) (v : Word) (s : State), evtMask g ≠ 0 → s.TakesWrite p g (pageAddr g 0x018) →
    After (exec (.evtForceWrite p g v) s) fun t =>
      (∀ b, bitOf v.toNat b = true → bitOf (evtMask g) b = true → t.evt g b = true) ∧ Frame (StatusOf [g.val]) s t)
  ∧ (∀ (p : Fin 4) (g : Fin 108) (v : Word) (s : State), evtMask g ≠ 0 → s.TakesWrite p g (pageAddr g 0x014) →
    After (exec (.evtEnableWrite p g v) s) fun t => t.reg (pageAddr g 0x014) = word (v.toNat &&& evtMask g)
      ∧ Frame (fun a => a = pageAddr g 0x014 ∨ RingRegs a) s t)
  ∧ (∀ (s : State), s.pageOn ringPage = true → After (exec .granARead s) fun t => t.bus = word (s.book.1 * 2 ^ 16 + s.book.2.1)
      ∧ t.reg Adr.RING_GRAN_B = word (s.book.2.2.1 * 2 ^ 13 + s.book.2.2.2.1) ∧ t.reg Adr.RING_GRAN_C = word s.book.2.2.2.2
      ∧ Quiet (fun a => a = Adr.RING_GRAN_B ∨ a = Adr.RING_GRAN_C) s t)

/-! ## Images, recovery, fuses and the crash dump (17_boot_images_recovery.md) -/

/-- Loading an image (R387, R388, R390). Where a clause rests on a choice or an inference of the model, that is logged in
notes/assumptions: 2, 25, 68. -/
def Obligations.ImageCommands : Prop :=
  (∀ (p : Fin 4) (s : State), s.TakesWrite p bootPage Adr.BOOT_LOAD_CTRL → s.boot.owner = none →
    s.boot.check = none → s.fld Fd.BOOT_SVC_STAT_STATE = 0 → After (exec (.imageLoadOpen p 2) s) fun t =>
      t.boot = { s.boot with owner := some p } ∧ t.fld Fd.BOOT_LOAD_STAT_STATE = 1 ∧ t.fld Fd.BOOT_LOAD_STAT_PORT = p.val
      ∧ t.fld Fd.BOOT_LOAD_STAT_KIND = 2 ∧ t.fld Fd.BOOT_LOAD_CTRL_KIND = 2
      ∧ Quiet (fun a => a = Adr.BOOT_LOAD_CTRL ∨ a = Adr.BOOT_LOAD_STAT) s t)
  ∧ (∀ (p : Fin 4) (k : Fin 4) (s : State), s.TakesWrite p bootPage Adr.BOOT_LOAD_CTRL →
    s.boot.owner.isSome = true ∨ s.boot.check.isSome = true →
    exec (.imageLoadOpen p k) s =
      .next (((s.setFld Fd.BOOT_LOAD_CTRL_KIND (if k.val = 1 then 1 else 2)).setErr bootPage BootErr.LOAD_BUSY).bumpVer bootPage))
  ∧ (∀ (p : Fin 4) (o : Fin 512) (v : Word) (s : State), s.TakesWrite p bootPage (Adr.BOOT_WINDOW o) →
    s.boot.owner = some p → s.boot.check = none → s.fld Fd.BOOT_LOAD_STAT_KIND = 2 → s.fld Fd.BOOT_LOAD_PAGE_PAGE < 80 →
    exec (.imageWindowWrite p o v) s =
      .next ((s.setMemWord (0x20040000 + 2048 * s.fld Fd.BOOT_LOAD_PAGE_PAGE + 4 * o) v).bumpVer bootPage))
  ∧ (∀ (p : Fin 4) (o : Fin 512) (v : Word) (s : State), s.TakesWrite p bootPage (Adr.BOOT_WINDOW o) →
    s.boot.owner = some p → s.boot.check = none → s.fld Fd.BOOT_LOAD_STAT_KIND = 1 → s.fld Fd.BOOT_LOAD_PAGE_PAGE < 12 →
    exec (.imageWindowWrite p o v) s =
      .next ((s.setMemWord (0x20070000 + 2048 * s.fld Fd.BOOT_LOAD_PAGE_PAGE + 4 * o) v).bumpVer bootPage))
  ∧ (∀ (p q : Fin 4) (o : Fin 512) (v : Word) (s : State), s.TakesWrite p bootPage (Adr.BOOT_WINDOW o) →
    s.boot.owner = some q → q ≠ p →
    exec (.imageWindowWrite p o v) s = .next ((s.setErr bootPage BootErr.NOT_OWNER).bumpVer bootPage))
  ∧ (∀ (p : Fin 4) (s : State), s.TakesWrite p bootPage Adr.BOOT_LOAD_CTRL → s.boot.owner = some p →
    s.boot.check = none → s.svcLive = false → After (exec (.imageCheck p) s) fun t => t.boot = { s.boot with check := some (p, false) }
      ∧ t.fld Fd.BOOT_LOAD_STAT_STATE = 2 ∧ t.fld Fd.BOOT_LOAD_STAT_PORT = p.val
      ∧ Quiet (fun a => a = Adr.BOOT_LOAD_CTRL ∨ a = Adr.BOOT_LOAD_STAT) s t)
  ∧ (∀ (p : Fin 4) (s : State), s.TakesWrite p bootPage Adr.BOOT_LOAD_CTRL → s.boot.owner = some p →
    s.boot.check = none → s.svcLive = false → After (exec (.imageStart p) s) fun t => t.boot = { s.boot with check := some (p, true) }
      ∧ t.fld Fd.BOOT_LOAD_STAT_STATE = 2 ∧ t.fld Fd.BOOT_LOAD_STAT_PORT = p.val
      ∧ Quiet (fun a => a = Adr.BOOT_LOAD_CTRL ∨ a = Adr.BOOT_LOAD_STAT) s t)
  ∧ (∀ (p : Fin 4) (s : State), s.TakesWrite p bootPage Adr.BOOT_LOAD_CTRL → s.boot.owner = some p →
    s.boot.check = none → After (exec (.imageLoadAbort p) s) fun t => t.boot = { s.boot with owner := none }
      ∧ t.fld Fd.BOOT_LOAD_STAT_STATE = 0 ∧ Quiet (fun a => a = Adr.BOOT_LOAD_CTRL ∨ a = Adr.BOOT_LOAD_STAT) s t)
  ∧ (∀ (p : Fin 4) (b : Bool) (r : Nat) (s : State), s.Settled → s.boot.check = some (p, b) →
    s.imageCheck (s.fld Fd.BOOT_LOAD_STAT_KIND) = .error r → r < 256 → After (exec .imageCheckDone s) fun t =>
      t.boot = { s.boot with check := none, owner := none } ∧ t.fld Fd.BOOT_LOAD_STAT_STATE = 4
      ∧ t.fld Fd.BOOT_LOAD_STAT_REASON = r ∧ t.evt bootPage BootEv.LOAD_DONE = true
      ∧ Frame (fun a => a = Adr.BOOT_LOAD_STAT ∨ StatusOf [bootPage] a) s t)
  ∧ (∀ (p : Fin 4) (u : Bool) (s : State), s.Settled → s.boot.check = some (p, false) → s.mode ≠ .recovery →
    s.imageCheck (s.fld Fd.BOOT_LOAD_STAT_KIND) = .ok u → After (exec .imageCheckDone s) fun t =>
      t.boot = { s.boot with check := none, owner := none } ∧ t.fld Fd.BOOT_LOAD_STAT_STATE = 3
      ∧ t.fld Fd.BOOT_LOAD_STAT_REASON = 0 ∧ t.evt bootPage BootEv.LOAD_DONE = true
      ∧ Frame (fun a => a = Adr.BOOT_LOAD_STAT ∨ StatusOf [bootPage] a) s t)
  ∧ (∀ (i : Image) (s : State), s.boot.svc = some i → s.fld Fd.BOOT_SVC_STAT_STATE = 1 → s.domOn Dm.SUP = true →
    s.domOn Dm.CORE = true → exec .svcStarted s = .next (s.svcRun i))
  ∧ (∀ (i : Image) (s : State), s.mode = .bare → i.untested = false → i.version < 2 ^ 32 → i.epoch < 2 ^ 16 →
    (s.svcRun i).fld Fd.BOOT_SVC_STAT_STATE = 2 ∧ (s.svcRun i).fld Fd.BOOT_SVC_VER_VERSION = i.version
      ∧ (s.svcRun i).fld Fd.BOOT_EPOCHS_SVC = i.epoch ∧ (s.svcRun i).fld Fd.BOOT_LOAD_STAT_STATE = 5
      ∧ (s.svcRun i).mode = .service ∧ (s.svcRun i).evt bootPage BootEv.SVC_STARTED = true)
  ∧ (∀ (i : Image) (s : State), s.boot.suppDue = some i → s.domOn Dm.SUP = true → i.untested = false → i.version < 2 ^ 32 →
    After (exec .suppApplied s) fun t => t.boot = { s.boot with supp := some i, suppDue := none }
      ∧ t.fld Fd.BOOT_SUPP_VER_VERSION = i.version ∧ t.fld Fd.BOOT_LOAD_STAT_STATE = 5
      ∧ Quiet (fun a => a = Adr.BOOT_SUPP_VER ∨ a = Adr.BOOT_LOAD_STAT ∨ a = Adr.SYS_MODE) s t)

/-- The service image's end, the schuss path, fuses and the PDM test (R383, R386, R395, R397, R398). Where a clause rests on a
choice or an inference of the model, that is logged in notes/assumptions: 2, 4, 68, 69, 71. -/
def Obligations.BootCommands : Prop :=
  (∀ (s : State), s.domOn Dm.SUP = true → s.svcLive = true → s.mode = .bare → After (exec .svcStop s) fun t =>
    t.fld Fd.BOOT_SVC_STAT_STATE = 0 ∧ t.fld Fd.BOOT_SVC_VER_VERSION = 0 ∧ t.fld Fd.BOOT_EPOCHS_SVC = 0 ∧ t.boot.svc = none
      ∧ t.crcOwner ≠ some .service ∧ t.evt bootPage BootEv.SVC_STOPPED = true
      ∧ Frame (fun a => a = Adr.BOOT_SVC_STAT ∨ a = Adr.BOOT_SVC_VER ∨ a = Adr.BOOT_EPOCHS ∨ a = Adr.BOOT_LOAD_STAT
        ∨ a = Adr.SYS_MODE ∨ StatusOf [bootPage] a) s t)
  ∧ (∀ (s : State), s.domOn Dm.SUP = true → s.svcLive = true → s.mode = .service → After (exec .svcStop s) fun t =>
    t.fld Fd.BOOT_SVC_STAT_STATE = 0 ∧ t.boot.svc = none ∧ t.mode = .bare ∧ t.evt bootPage BootEv.SVC_STOPPED = true)
  ∧ (∀ (s : State), s.domOn Dm.SUP = true → s.bootPhase = true → After (exec .schussStop s) fun t => t.bootPhase = false
      ∧ (s.boot.path = .active → t.boot.path = .ending ∧ t.boot.glide = s.boot.glide.aim .mute 32)
      ∧ (s.boot.path ≠ .active → t.boot = s.boot) ∧ Quiet (· = Adr.SYS_MODE) s t)
  ∧ (∀ (s : State), s.boot.path = .ending → s.boot.glide.left = 0 → s.flag Fd.DBG_CTRL_PDM_TEST = true →
    After (exec .schussEnd s) fun t => t.boot.path = .off ∧ t.boot.mix = 0 ∧ t.evt bootPage BootEv.SCHUSS_END = true
      ∧ Frame (StatusOf [bootPage]) s t)
  ∧ (∀ (s : State), s.boot.path = .ending → s.boot.glide.left = 0 →
    After (exec .schussEnd s) fun t => t.boot.path = .off ∧ t.boot.mix = 0 ∧ t.evt bootPage BootEv.SCHUSS_END = true)
  ∧ (∀ (p : Fin 4) (v : Word) (s : State), s.TakesWrite p fusePage Adr.FUSE_PROG →
    bitsAt v.toNat 24 8 ≠ 0xC3 → exec (.fuseProg p v) s = .next ((s.setErr fusePage 0).bumpVer fusePage))
  ∧ (∀ (p : Fin 4) (v : Word) (s : State), s.TakesWrite p fusePage Adr.FUSE_PROG →
    bitsAt v.toNat 24 8 = 0xC3 → s.pvdd < 1200 → exec (.fuseProg p v) s = .next ((s.setErr fusePage 1).bumpVer fusePage))
  ∧ (∀ (p : Fin 4) (v : Word) (s : State), s.TakesWrite p fusePage Adr.FUSE_PROG →
    bitsAt v.toNat 24 8 = 0xC3 → 1200 ≤ s.pvdd → bitsAt v.toNat 0 9 < 272 → bitsAt v.toNat 0 9 ≠ 256 → s.fuse 256 = false →
    After (exec (.fuseProg p v) s) fun t => t.blow = s.blow ++ [bitsAt v.toNat 0 9] ∧ t.flag Fd.FUSE_PROG_STAT_BUSY = true
      ∧ t.fuses = s.fuses ∧ Quiet (· = Adr.FUSE_PROG_STAT) s t)
  ∧ (∀ (p : Fin 4) (v : Word) (s : State), s.TakesWrite p fusePage Adr.FUSE_PROG →
    bitsAt v.toNat 24 8 = 0xC3 → 1200 ≤ s.pvdd → 272 ≤ bitsAt v.toNat 0 9 ∨ (s.fuse 256 = true ∧ bitsAt v.toNat 0 9 ≠ 257) →
    exec (.fuseProg p v) s = .next ((s.setErr fusePage 2).bumpVer fusePage))
  ∧ (∀ (k : Nat) (s : State), s.blow = [k] → k < 512 → s.pageOn fusePage = true →
    After (exec .fuseBlowDone s) fun t => t.fuses.getLsbD k = true
      ∧ (∀ j, j ≠ k → t.fuses.getLsbD j = s.fuses.getLsbD j) ∧ t.fusesRead = s.fusesRead ∧ t.blow = []
      ∧ t.flag Fd.FUSE_PROG_STAT_BUSY = false ∧ Quiet (· = Adr.FUSE_PROG_STAT) s t)
  ∧ (∀ (p : Fin 4) (s : State), s.TakesWrite p dbgPage Adr.DBG_CTRL →
    s.fuse 256 = true ∨ s.fuse 257 = true → exec (.pdmTestWrite p true) s =
      .next (((s.setFld Fd.DBG_CTRL_PDM_TEST 0).setErr dbgPage 0).bumpVer dbgPage))
  ∧ (∀ (p : Fin 4) (s : State), s.TakesWrite p dbgPage Adr.DBG_CTRL → s.fuse 256 = false →
    s.fuse 257 = false → s.domOn (Dm.PORTG 3) = false → After (exec (.pdmTestWrite p true) s) fun t =>
      t.flag Fd.DBG_CTRL_PDM_TEST = true ∧ t.flag Fd.DBG_STATUS_PDM_ACTIVE = true
      ∧ Quiet (fun a => a = Adr.DBG_CTRL ∨ a = Adr.DBG_STATUS) s t)

/-- Requests to the service image (R403, Tables 17.7, 17.8). Where a clause rests on a choice or an inference of the model, that
is logged in notes/assumptions: 2, 26, 72. -/
def Obligations.ServiceCommands : Prop :=
  (∀ (id port : Nat) (ps : List Byte) (s : State), s.request = some (id, 1, port, ps) → s.mode = .service → s.domOn Dm.CORE = true →
    exec .serviceVersion s = .next (s.reply id 1 port 0x00 (bytesLE 4 (s.reg Adr.BOOT_SVC_VER).toNat
      ++ bytesLE 2 (s.fld Fd.BOOT_EPOCHS_SVC) ++ bytesLE 2 s.supEpoch)))
  ∧ (∀ (id port : Nat) (ps : List Byte) (j : Fin 20) (s : State), s.request = some (id, 2, port, ps) → s.mode = .service →
    s.domOn Dm.CORE = true → (ps.getD 0 0).toNat = j.val → s.flag (Fd.JACK_JSTAT_INSERTED j) = true →
    s.flag (Fd.JACK_JCFG_CLS_EN j) = true → exec .serviceReclassify s = .next ((s.reclassify j).reply id 2 port 0x00 []))
  ∧ (∀ (id port : Nat) (ps : List Byte) (s : State), s.request = some (id, 2, port, ps) → s.mode = .service →
    s.domOn Dm.CORE = true → 20 ≤ (ps.getD 0 0).toNat → exec .serviceReclassify s = .next (s.reply id 2 port 0x00 []))
  ∧ (∀ (id port : Nat) (ps : List Byte) (s : State), s.request = some (id, 3, port, ps) → s.mode = .service →
    s.domOn Dm.CORE = true → ∃ data : List Byte, data.length = 10
      ∧ exec .serviceThermal s = .next ({ s with fresh := s.fresh + 5 }.reply id 3 port 0x00 data))
  ∧ (∀ (id port : Nat) (ps : List Byte) (s : State), s.request = some (id, 4, port, ps) → s.mode = .service →
    s.domOn Dm.CORE = true → ofBytesLE (ps.take 2) = 0 → exec .serviceCalibrate s = .next (s.reply id 4 port 0x00 []))
  ∧ (∀ (id port : Nat) (ps : List Byte) (n : Fin 16) (s : State), s.request = some (id, 4, port, ps) → s.mode = .service →
    s.domOn Dm.CORE = true → ofBytesLE (ps.take 2) = 2 ^ n.val → s.domOn (Dm.AIN (n.val / 4)) = true →
    exec .serviceCalibrate s = .next ((s.calRestart n).reply id 4 port 0x00 []))
  ∧ (∀ (id sv port : Nat) (ps : List Byte) (s : State), s.request = some (id, sv, port, ps) → s.domOn Dm.SUP = true →
    s.domOn Dm.CORE = true → s.mode ≠ .service ∨ sv = 0 ∨ 4 < sv → exec .serviceRefused s = .next (s.reply id sv port 0x14 []))
  ∧ (∀ (id sv port st : Nat) (data : List Byte) (s : State), s.ringsUp = true → (s.ring 24).wm = 0 → (s.ring 25).enable = true → (s.ring 25).wm = 0 →
    (s.ring 25).fill < (s.ring 25).size → data.length ≤ 56 → (s.reply id sv port st data).ring 24 =
        { s.ring 24 with cons := (s.ring 24).cons + 1 }
      ∧ (s.reply id sv port st data).bytesAt ((s.ring 25).entryAddr 25 (s.ring 25).prod) 8 =
          bytesLE 2 id ++ bytesLE 2 sv ++ [BitVec.ofNat 8 st, BitVec.ofNat 8 port] ++ bytesLE 2 data.length
      ∧ (s.reply id sv port st data).ring 25 = { s.ring 25 with prod := (s.ring 25).prod + 1, lostBefore := false })

/-- Fatal errors and the crash dump (R386, R399, R400, R402). Where a clause rests on a choice or an inference of the model,
that is logged in notes/assumptions: 2, 3, 12, 70. -/
def Obligations.DumpCommands : Prop :=
  (∀ (r : Byte) (s : State), s.domOn Dm.SUP = true → s.svcLive = true → s.mode = .bare → s.fld Fd.DUMP_STATUS_STATE = 0 →
    After (exec (.svcFatalError r) s) fun t => t.fld Fd.BOOT_SVC_STAT_STATE = 3 ∧ t.boot.svc = none
      ∧ t.fld Fd.DUMP_STATUS_STATE = 1 ∧ t.fld Fd.DUMP_STATUS_REASON = r.toNat
      ∧ t.fld Fd.DUMP_STATUS_SEQ = (s.fld Fd.DUMP_STATUS_SEQ + 1) % 65536 ∧ t.evt bootPage BootEv.SVC_FAULT = true)
  ∧ (∀ (r : Byte) (s : State), s.domOn Dm.SUP = true → s.svcLive = true → s.mode = .service → s.fld Fd.DUMP_STATUS_STATE ≠ 0 →
    After (exec (.svcFatalError r) s) fun t => t.fld Fd.BOOT_SVC_STAT_STATE = 3 ∧ t.boot.svc = none ∧ t.mode = .bare
      ∧ t.fld Fd.DUMP_LOST_CNT_COUNT = satAdd 16 (s.fld Fd.DUMP_LOST_CNT_COUNT) 1 ∧ t.evt bootPage BootEv.SVC_FAULT = true)
  ∧ (∀ (s : State), exec .svcHeartbeatTimeout s = exec (.svcFatalError 2) s)
  ∧ (∀ (s : State), s.domOn Dm.SUP = true → s.svcLive = true → exec .svcHeartbeatTimeout s = .next (s.fatal 2))
  ∧ (∀ (s : State), s.domOn Dm.SUP = true → s.domOn Dm.CMEM = true → s.fld Fd.DUMP_STATUS_STATE = 1 →
    After (exec .dumpWritten s) fun t => t.fld Fd.DUMP_STATUS_STATE = 2 ∧ t.evt dumpPage DumpEv.READY = true)
  ∧ (∀ (s : State), s.pageTakes dumpPage = true → s.fld Fd.DUMP_STATUS_STATE = 2 → After (exec .dumpRelease s) fun t =>
    t.fld Fd.DUMP_STATUS_STATE = 0 ∧ t.fld Fd.DUMP_LEN_BYTES = 0 ∧ t.boot = { s.boot with stream := none }
      ∧ Quiet (fun a => a = Adr.DUMP_STATUS ∨ a = Adr.DUMP_LEN) s t)
  ∧ (∀ (s : State), s.fld Fd.DUMP_STATUS_STATE ≠ 2 → exec .dumpRelease s = .next s)
  ∧ (∀ (p : Fin 4) (s : State), s.TakesWrite p dumpPage Adr.DUMP_CTRL →
    s.fld Fd.DUMP_STATUS_STATE = 2 → After (exec (.dumpStream p) s) fun t => t.boot = { s.boot with stream := some 0 }
      ∧ t.pageVer dumpPage = (s.pageVer dumpPage + 1) % 2 ^ 32 ∧ Quiet (fun _ => False) s t)
  ∧ (∀ (off : Nat) (s : State), s.boot.stream = some off → s.domOn Dm.SUP = true → s.domOn Dm.CORE = true →
    (s.ring 27).enable = true → (s.ring 27).fill < (s.ring 27).size → (s.ring 27).wm = 0 → off + 248 < s.fld Fd.DUMP_LEN_BYTES →
    After (exec .dumpChunk s) fun t => t.boot = { s.boot with stream := some (off + 248) }
      ∧ t.ring 27 = { s.ring 27 with prod := (s.ring 27).prod + 1, lostBefore := false }
      ∧ (∀ a, t.reg a = s.reg a) ∧ ∀ a, ¬ (s.ring 27).stores 27 a → t.byte a = s.byte a)
  ∧ (∀ (off : Nat) (s : State), s.boot.stream = some off → s.domOn Dm.SUP = true → s.domOn Dm.CORE = true →
    (s.ring 27).enable = true → (s.ring 27).fill < (s.ring 27).size → s.fld Fd.DUMP_LEN_BYTES ≤ off + 248 →
    After (exec .dumpChunk s) fun t => t.boot = { s.boot with stream := none } ∧ t.evt dumpPage DumpEv.STREAM_DONE = true)

/-! ## The whole block -/

/-- A step takes the command at the front of the queue and runs it on the state with the rest; on an empty queue the block
idles, and SYSCNT takes its next count (the model's choice, notes/assumptions/1.md). Where a clause rests on a choice or an
inference of the model, that is logged in notes/assumptions/1.md. -/
def Obligations.StepRunsFront : Prop :=
  (∀ (c : Instr) (rest : List Instr) (s : State), s.pending = c :: rest → step s = exec c { s with pending := rest })
  ∧ (∀ (s : State), s.pending = [] → step s = .next s.countOn)

/-- No command faults and none is refused: every command answers a next state, whatever the state. Where a clause rests on a
choice or an inference of the model, that is logged in notes/assumptions/2.md. -/
def Obligations.CommandsComplete : Prop :=
  (∀ (c : Instr) (s : State), ran (exec c s))

/-- Every step keeps the canonical form of registers, memory and page versions, and the balance of every port's counts (R339).
-/
def Obligations.StepKeepsInv : Prop :=
  (∀ (s t : State), s.Inv → step s = .next t → t.Inv)

/-- The state after reset has the canonical form and balanced ports. Where a clause rests on a choice or an inference of the
model, that is logged in notes/assumptions/8.md. -/
def Obligations.ResetInv : Prop := State.reset.Inv

/-- What reset leaves (R320, R339, R342, R346, R365; 13_power_domains.md Table 13.1): no session, 16 credits with every host, no
claim, no bib, the domains of the table ON and the others OFF, no service image, every register at its value after reset. Where
a clause rests on a choice or an inference of the model, that is logged in notes/assumptions: 7, 8, 11. -/
def Obligations.ResetValues : Prop :=
  (∀ (p : Fin 4), State.reset.ports[p].session = .none ∧ State.reset.ports[p].held = 16 ∧ State.reset.ports[p].queued = 0
    ∧ State.reset.ports[p].inflight = 0)
  ∧ (∀ (d : Fin 27), State.reset.dom d = (if d.val ∈ [0, 1, 2, 4, 25, 26] then .on else .off))
  ∧ (∀ (k : Fin 64), (State.reset.bibAt k).state = .free)
  ∧ (∀ (a : Nat), State.reset.reg a = regReset a ∧ State.reset.byte a = 0 ∧ State.reset.pageVer a = 0 ∧ State.reset.claimOf a = none)
  ∧ (State.reset.mode = .bare ∧ State.reset.txn.counter = 1 ∧ State.reset.fabState = .stopped)

/-- No command changes the queue of the commands that wait behind it. -/
def Obligations.QueueUntouched : Prop :=
  (∀ (c : Instr) (s t : State), exec c s = .next t → t.pending = s.pending)

/-- A fuse bit only changes from 0 to 1, and the fuses as the page shows them are read again only at the release of a power-on,
supply-loss or `RST_N` reset (R396, Table 17.1); while such a reset holds they read as nothing. Where a clause rests on a choice
or an inference of the model, that is logged in notes/assumptions/69.md. -/
def Obligations.FusesOnlyBlown : Prop :=
  (∀ (c : Instr) (s t : State), exec c s = .next t → s.fuses &&& t.fuses = s.fuses)
  ∧ (∀ (c : Instr) (s t : State), exec c s = .next t → c ≠ .powerOnReset → c ≠ .supplyLoss → c ≠ .rstNAssert → c ≠ .resetRelease →
    t.fusesRead = s.fusesRead)

/-! ## Events (16_rings_events_books.md R375–R377) -/

/-- An event whose bit goes from 0 to 1 while enabled: its record goes to the event log and to the event ring of each port that
hears, as Table 16.2 lays it out; with CORE down it is held. An event whose bit is set or not enabled only sets the bit. While
the effects of one cycle are gathered, an event's record joins that cycle's records, which are entered in the order of page,
register and bit. Where a clause rests on a choice or an inference of the model, that is logged in notes/assumptions/63.md. -/
def Obligations.EventRecords : Prop :=
  (∀ (p b : Nat) (s : State), s.evt p b = true ∨ bitOf (s.reg (pageAddr p 0x014)).toNat b = false →
    s.raise p b = s.setReg (pageAddr p 0x010) (word (withBit (s.reg (pageAddr p 0x010)).toNat b)))
  ∧ (∀ (p b : Nat) (s : State), s.evtNow = none → s.evt p b = false → bitOf (s.reg (pageAddr p 0x014)).toNat b = true →
    s.domOn Dm.CORE = false →
    (s.raise p b).evtHeld = s.evtHeld ++ [⟨s.syscnt, s.coarse, false, 0, p, b, s.tickcnt⟩]
      ∧ (s.raise p b).evtLog = s.evtLog ∧ (s.raise p b).rings = s.rings ∧ (s.raise p b).mem = s.mem)
  ∧ (∀ (p b : Nat) (q : Fin 4) (s : State), s.evtNow = none → s.evt p b = false → bitOf (s.reg (pageAddr p 0x014)).toNat b = true →
    s.ringsUp = true → s.ports[q].hears = true → (∀ r : Fin 4, r ≠ q → s.ports[r].hears = false) →
    (s.ring (8 + q)).enable = true → (s.ring (8 + q)).wm = 0 → (s.ring (8 + q)).fill < (s.ring (8 + q)).size →
    (s.raise p b).evtLog = s.evtLog + 1
      ∧ (s.raise p b).bytesAt ((s.ring (8 + q)).entryAddr (8 + q) (s.ring (8 + q)).prod) 16
          = EvtRec.bytes ⟨s.syscnt, s.coarse, false, 0, p, b, s.tickcnt⟩ (s.ring (8 + q)).lostBefore
      ∧ (s.raise p b).ring (8 + q) = { s.ring (8 + q) with prod := (s.ring (8 + q)).prod + 1, lostBefore := false }
      ∧ (∀ i, i ≠ 8 + q.val → (s.raise p b).ring i = s.ring i)
      ∧ (s.raise p b).evtHeld = s.evtHeld)
  ∧ (∀ (p b : Nat) (q : Fin 4) (s : State), s.evtNow = none → s.evt p b = false → bitOf (s.reg (pageAddr p 0x014)).toNat b = true →
    s.ringsUp = true → s.ports[q].hears = true → (∀ r : Fin 4, r ≠ q → s.ports[r].hears = false) →
    (s.ring (8 + q)).enable = true → (s.ring (8 + q)).fill = (s.ring (8 + q)).size →
    bitOf (s.reg (pageAddr 0x00C 0x014)).toNat 1 = false →
    (s.raise p b).ring (8 + q) = { s.ring (8 + q) with lost := satAdd 16 (s.ring (8 + q)).lost 1, lostBefore := true }
      ∧ (s.raise p b).evt 0x00C 1 = true ∧ (s.raise p b).evtLog = s.evtLog + 1)
  ∧ (∀ (p b : Nat) (l : List EvtRec) (s : State), s.evtNow = some l → s.evt p b = false →
    bitOf (s.reg (pageAddr p 0x014)).toNat b = true →
    (s.raise p b).evtNow = some (l ++ [⟨s.syscnt, s.coarse, false, 0, p, b, s.tickcnt⟩])
      ∧ (s.raise p b).rings = s.rings ∧ (s.raise p b).evtLog = s.evtLog)

/-! ## Transactions (15_transactions_and_hosts.md) -/

/-- TXN_OPEN takes a value that is not 0 and that no bib holds (R346). -/
def Obligations.BibValues : Prop :=
  (∀ (p : Fin 4) (i : Bool) (k : Nat) (s t : State), s.txn.counter < 65536 → s.takeBib p i = (some k, t) →
    (t.bibAt k).value ≠ 0 ∧ (t.bibAt k).value < 65536 ∧ (∀ j : Fin 64, (s.bibAt j).value ≠ (t.bibAt k).value)
      ∧ (t.bibAt k).port = p.val ∧ (s.bibAt k).state = .free ∧ t.txn.counter = ((t.bibAt k).value + 1) % 65536
      ∧ ∀ j : Fin 64, j.val ≠ k → t.bibAt j = s.bibAt j)

/-- A bib belongs to the port that opened it; an operation that names a bib which its own port does not hold returns UNKNOWN_BIB
and has no effect (R347). A refused RMW is answered with the applied value and a refused TXN_COMMIT or TXN_STATUS with the value
it named: that data is the model's reading (notes/assumptions/28.md), and so is a row that no frame holds
(notes/assumptions/5.md). Where a clause rests on a choice or an inference of the model, that is logged in notes/assumptions: 5,
28. -/
def Obligations.ForeignBib : Prop :=
  (∀ (p : Fin 4) (k : Nat) (s t : State), s.Hears p → s.mayOpen p = true →
    s.takeBib p false = (some k, t) → (t.bibAt k).port = p.val ∧ (t.bibAt k).state = .opened
      ∧ exec (.txnOpen p) s = .next (t.gives p 0x20 0x00 (bytesLE 2 (t.bibAt k).value ++ [0, 0])))
  ∧ (∀ (p : Fin 4) (v : Nat) (s : State), (∀ j : Fin 64, (s.bibAt j).value = v → (s.bibAt j).port ≠ p.val) → s.ownBib p v = none)
  ∧ (∀ (p : Fin 4) (a : Word) (v : BitVec 16) (bs : List Byte) (s : State), s.Hears p →
    a.toNat % 4 = 0 → bs.length % 4 = 0 → bs ≠ [] → v ≠ 0 → s.ownBib p v.toNat = none →
    exec (.wr p a v bs) s = .next (s.gives p 0x11 0x37 []))
  ∧ (∀ (p : Fin 4) (a m x : Word) (v : BitVec 16) (d : Nat) (s : State), s.Hears p → a.toNat % 4 = 0 →
    v ≠ 0 → s.ownBib p v.toNat = none → addrDomain a.toNat = some d → s.domOn d = true →
    exec (.rmw p a v m x) s = .next (s.gives p 0x12 0x37 (bytesLE 4 (s.wordNow a.toNat))))
  ∧ (∀ (p : Fin 4) (v : BitVec 16) (mode : Byte) (time : Count) (r : Bool) (s : State), s.Hears p →
    s.ownBib p v.toNat = none →
    exec (.txnCommit p v mode time) s = .next (s.gives p 0x21 0x37 (bytesLE 2 v.toNat ++ List.replicate 18 0))
      ∧ exec (.txnAbort p v) s = .next (s.gives p 0x22 0x37 [])
      ∧ exec (.txnStatus p v r) s = .next (s.gives p 0x23 0x37 (bytesLE 2 v.toNat ++ List.replicate 18 0)))

/-- A staged write takes a free entry and changes no register (R351–R353, R356). -/
def Obligations.StagedWrite : Prop :=
  (∀ (p : Fin 4) (a : Word) (v : BitVec 16) (b0 b1 b2 b3 : Byte) (k : Nat) (s : State), s.Hears p →
    a.toNat % 4 = 0 → v ≠ 0 → s.ownBib p v.toNat = some k → (s.bibAt k).state = .opened → stageable a.toNat = true →
    s.checkWord p true a.toNat = (0x00, none) → s.txn.used.length < 8192 →
    After (exec (.wr p a v [b0, b1, b2, b3]) s) fun t => (∃ e : Entry, e.place < 8192 ∧ (∀ x ∈ s.txn.used, x.place ≠ e.place)
        ∧ e.bib = v.toNat ∧ e.addr = a.toNat ∧ e.kind = 1 ∧ e.data = ofBytesLE [b0, b1, b2, b3]
        ∧ t.txn.staging = s.txn.staging ++ [e]
        ∧ (∀ x, x < 0x20020000 + 8 * e.place ∨ 0x20020000 + 8 * e.place + 8 ≤ x → t.byte x = s.byte x))
      ∧ t.ports[p].results = [⟨0x11, 0x00, []⟩] ∧ (∀ x, t.reg x = s.reg x)
      ∧ (∀ g, t.pageVer g = s.pageVer g) ∧ t.gains = s.gains)

/-- A transaction of one staged gain target applies in its apply tick: the register, the version of its page, the count and the
event (R355, R361); the glide to the new target begins when that tick is run. Where a clause rests on a choice or an inference
of the model, that is logged in notes/assumptions: 15, 60. -/
def Obligations.StagedApply : Prop :=
  (∀ (slot : Fin 4096) (e : Entry) (v : BitVec 16) (k : Nat) (s : State), s.slotOf v.toNat = some k → s.applyNext k = true →
    s.tickWrites = [] → s.change = none → s.domOn Dm.PLL = true → s.domOn Dm.FAB = true → s.Settled →
    (s.bibAt k).state = .inFlight → (s.bibAt k).later < 4 → s.txn.entriesOf (s.bibAt k).value = [e] →
    e.kind = 1 → e.addr = slotAddr slot → After (exec (.txnApply v) s) fun t =>
      t.reg (slotAddr slot) = s.stored (slotAddr slot) e.data
      ∧ t.gainAt (slotAddr slot) = (s.gainAt (slotAddr slot)).request (Gain.ofCode (bitsAt (t.reg (slotAddr slot)).toNat 0 16))
      ∧ (∀ a, a ≠ slotAddr slot → t.gainAt a = s.gainAt a)
      ∧ t.pageVer (paramPage (slotAddr slot)) = (s.pageVer (paramPage (slotAddr slot)) + 1) % 2 ^ 32
      ∧ (t.bibAt k).state = .committed ∧ t.txn.staging = s.txn.staging.filter (fun x => x.bib != (s.bibAt k).value)
      ∧ t.txn.applied = s.txn.applied ++ [e] ∧ t.evt txnPage TxnEv.COMMITTED = true
      ∧ Frame (fun a => a = slotAddr slot ∨ a = Adr.TXN_COMMIT_CNT ∨ StatusOf [txnPage] a) s t)

/-! ## Control ports (14_control_ports.md) -/

/-- The traffic, errors and session of one port leave the sequence, credit and session of every other port alone (R323): what it
receives and is answered, the end of its responses, its HELLO and leases, and the end of its session. The operations of a frame
are not part of this: an operation acts on registers, which both ports share. Where a clause rests on a choice or an inference
of the model, that is logged in notes/assumptions: 31, 64, 65. -/
def Obligations.PortIsolation : Prop :=
  (∀ (p q : Fin 4) (bs : List Byte) (s : State), q ≠ p → s.Settled → s.change = none → (s.transfer p bs).ports[q] = s.ports[q])
  ∧ (∀ (p q : Fin 4) (a : TargetAddr) (bs : List Byte) (s : State), q ≠ p → s.Settled → s.change = none → s.ports[p].frames.length = 1 →
    After (exec (.commandFrame p bs a) s) fun t => t.ports[q] = s.ports[q])
  ∧ (∀ (q : Fin 4) (s : State), q ≠ 3 → s.Settled → s.change = none →
    After (exec .uartOverlength s) fun t => t.ports[q] = s.ports[q])
  ∧ (∀ (p q : Fin 4) (s : State), q ≠ p → s.Settled → s.change = none → (s.respond p).ports[q] = s.ports[q])
  ∧ (∀ (p q : Fin 4) (s : State), q ≠ p → s.Settled → s.change = none → s.ports[p].frames.length ≤ 1 →
    After (exec (.responseFormed p) s) fun t => t.ports[q] = s.ports[q])
  ∧ (∀ (p q : Fin 4) (a : TargetAddr) (s : State), q ≠ p → s.Settled → s.change = none →
    After (exec (.responseDelivered p a) s) fun t => t.ports[q] = s.ports[q])
  ∧ (∀ (p q : Fin 4) (seq : BitVec 16) (ms host : Word) (s : State), q ≠ p → s.Settled → s.change = none →
    s.ports[p].frames.length ≤ 1 → After (exec (.hello p seq ms host) s) (fun t => t.ports[q] = s.ports[q])
      ∧ After (exec (.lease p ms) s) (fun t => t.ports[q] = s.ports[q]))
  ∧ (∀ (p q : Fin 4) (s : State), q ≠ p → s.Settled → s.change = none → s.ports[p].frames.length ≤ 1 →
    After (exec (.leaseWarning p) s) (fun t => t.ports[q] = s.ports[q])
      ∧ After (exec (.leaseExpiry p) s) (fun t => t.ports[q] = s.ports[q])
      ∧ After (exec (.graceEnd p) s) (fun t => t.ports[q] = s.ports[q]))

/-- The byte stuffing of CP3 (R329): what is encoded holds no zero byte, and decodes to what it was. -/
def Obligations.CobsRoundTrip : Prop :=
  (∀ (bs : List Byte), 0 ∉ cobsEncode bs ∧ cobsDecode (cobsEncode bs) = some bs)

/-! ## Gains and the check-value engine -/

/-- A glide reaches its target after exactly its length in ticks, by the steps of R195, and a target equal to the current one
starts nothing (08_mixing_and_processing.md R195–R197). Where a clause rests on a choice or an inference of the model, that is
logged in notes/assumptions/20.md. -/
def Obligations.GlideRules : Prop :=
  (∀ (g : Glide) (x : Gain) (l i : Nat), i < glideTicks l →
    (Nat.repeat Glide.step (i + 1) (g.aim x l)).now = Gain.between g.now x i (glideTicks l)
      ∧ (Nat.repeat Glide.step (i + 1) (g.aim x l)).left = glideTicks l - (i + 1))
  ∧ (∀ (g : Glide) (x : Gain) (l : Nat), Nat.repeat Glide.step (glideTicks l) (g.aim x l) = ⟨x, x, 0, glideTicks l, g.now⟩)
  ∧ (∀ (g : Glide) (x : Gain) (l : Nat), x = g.target → g.retarget x l = g)
  ∧ (∀ (g : Glide) (x : Gain) (l : Nat), x ≠ g.target → g.retarget x l = g.aim x l)

/-- CRC25 (R295): CTRL.RESET loads r with INIT and clears COUNT; a write to CFG, POLY or INIT takes effect at once and performs
the same reset; a write to XOROUT changes only the result, and r is kept. -/
def Obligations.CrcSettings : Prop :=
  (∀ (a : CrcParty) (s : State), s.crcReach a = true → s.crcOwner = some a → After (exec (.crcReset a 25) s) fun t =>
    t.crcs[25] = { s.crcs[25] with r := s.crcs[25].init % 2 ^ s.crcs[25].width, count := 0 }
      ∧ Quiet (fun _ => False) s t ∧ ∀ j : Fin 26, j ≠ 25 → t.crcs[j] = s.crcs[j])
  ∧ (∀ (a : CrcParty) (v : Word) (s : State), s.crcReach a = true → s.crcOwner = some a →
    After (exec (.crcConfigWrite a 25 .poly v) s) fun t =>
      t.crcs[25] = { s.crcs[25] with poly := v.toNat, r := s.crcs[25].init % 2 ^ s.crcs[25].width, count := 0 }
      ∧ Quiet (fun _ => False) s t ∧ ∀ j : Fin 26, j ≠ 25 → t.crcs[j] = s.crcs[j])
  ∧ (∀ (a : CrcParty) (v : Word) (s : State), s.crcReach a = true → s.crcOwner = some a →
    After (exec (.crcConfigWrite a 25 .init v) s) fun t =>
      t.crcs[25] = { s.crcs[25] with init := v.toNat, r := v.toNat % 2 ^ s.crcs[25].width, count := 0 }
      ∧ Quiet (fun _ => False) s t ∧ ∀ j : Fin 26, j ≠ 25 → t.crcs[j] = s.crcs[j])
  ∧ (∀ (a : CrcParty) (v : Word) (s : State), s.crcReach a = true → s.crcOwner = some a →
    After (exec (.crcConfigWrite a 25 .cfg v) s) fun t =>
      t.crcs[25].r = s.crcs[25].init % 2 ^ t.crcs[25].width ∧ t.crcs[25].count = 0 ∧ t.crcs[25].poly = s.crcs[25].poly
        ∧ t.crcs[25].init = s.crcs[25].init ∧ t.crcs[25].xorout = s.crcs[25].xorout
        ∧ t.crcs[25].refin = bitOf v.toNat 8 ∧ t.crcs[25].refout = bitOf v.toNat 9
        ∧ t.crcs[25].width = max 1 (min 32 (bitsAt v.toNat 0 6))
      ∧ Quiet (fun _ => False) s t ∧ ∀ j : Fin 26, j ≠ 25 → t.crcs[j] = s.crcs[j])
  ∧ (∀ (a : CrcParty) (v : Word) (s : State), s.crcReach a = true → s.crcOwner = some a →
    After (exec (.crcConfigWrite a 25 .xorout v) s) fun t => t.crcs[25] = { s.crcs[25] with xorout := v.toNat }
      ∧ Quiet (fun _ => False) s t ∧ ∀ j : Fin 26, j ≠ 25 → t.crcs[j] = s.crcs[j])
end

