-- ==== Sys2Proof/Laws/Bits.lean ====
section
/-!
SUPPORT. Laws of bit fields: a field reads back what was put into it, and other bits stay.
-/
namespace Sys2Proof.Machine

/-- The bits of a field. -/
theorem testBit_bitsAt (x lo w j : Nat) : (bitsAt x lo w).testBit j = (decide (j < w) && x.testBit (lo + j)) := by
  rw [bitsAt, Nat.testBit_mod_two_pow, Nat.testBit_div_two_pow, Nat.add_comm]

/-- The bits of a number with a field replaced. -/
theorem testBit_putBits (x lo w v j : Nat) :
    (putBits x lo w v).testBit j = if lo ≤ j ∧ j < lo + w then v.testBit (j - lo) else x.testBit j := by
  have hlo : x % 2 ^ lo < 2 ^ lo := Nat.mod_lt _ (Nat.two_pow_pos lo)
  have hmid : v % 2 ^ w * 2 ^ lo + x % 2 ^ lo < 2 ^ (lo + w) := by
    have hv : v % 2 ^ w < 2 ^ w := Nat.mod_lt _ (Nat.two_pow_pos w)
    have hm : v % 2 ^ w * 2 ^ lo + 2 ^ lo ≤ 2 ^ w * 2 ^ lo := by
      have := Nat.mul_le_mul_right (2 ^ lo) hv
      rwa [Nat.succ_mul] at this
    rw [Nat.pow_add, Nat.mul_comm (2 ^ lo)]
    omega
  rw [putBits, Nat.add_assoc, Nat.mul_comm (x / _), Nat.testBit_two_pow_mul_add _ hmid]
  by_cases h : j < lo + w
  · rw [if_pos h, Nat.mul_comm (v % _), Nat.testBit_two_pow_mul_add _ hlo]
    by_cases h2 : j < lo
    · rw [if_pos h2, if_neg (by omega), Nat.testBit_mod_two_pow]
      simp [h2]
    · rw [if_neg h2, if_pos (by omega), Nat.testBit_mod_two_pow]
      simp [show j - lo < w by omega]
  · rw [if_neg h, if_neg (by omega), Nat.testBit_div_two_pow]
    congr 1
    omega

/-- A field reads back the low bits of what was put into it. -/
theorem bitsAt_putBits_same (x lo w v : Nat) : bitsAt (putBits x lo w v) lo w = v % 2 ^ w := by
  apply Nat.eq_of_testBit_eq
  intro j
  rw [testBit_bitsAt, testBit_putBits, Nat.testBit_mod_two_pow]
  by_cases h : j < w
  · simp [h]
  · simp [h]

/-- A field that does not overlap the one replaced stays. -/
theorem bitsAt_putBits_ne (x lo w v lo' w' : Nat) (h : lo + w ≤ lo' ∨ lo' + w' ≤ lo) :
    bitsAt (putBits x lo w v) lo' w' = bitsAt x lo' w' := by
  apply Nat.eq_of_testBit_eq
  intro j
  rw [testBit_bitsAt, testBit_bitsAt, testBit_putBits]
  by_cases hj : j < w'
  · rw [if_neg (by omega)]
  · simp [hj]

/-- Bit `k` of a number. -/
theorem bitOf_eq_testBit (x k : Nat) : bitOf x k = x.testBit k := by
  rw [Nat.testBit_eq_decide_div_mod_eq, bitOf]
  rfl

/-- The bits of a number with one bit set. -/
theorem testBit_withBit (x k j : Nat) : (withBit x k).testBit j = (decide (j = k) || x.testBit j) := by
  rw [withBit, testBit_putBits]
  by_cases h : j = k
  · simp [h]
  · rw [if_neg (by omega)]
    simp [h]

/-- A set bit reads 1. -/
theorem bitOf_withBit_same (x k : Nat) : bitOf (withBit x k) k = true := by
  rw [bitOf_eq_testBit, testBit_withBit]
  simp

/-- Setting a bit leaves the others. -/
theorem bitOf_withBit_ne (x : Nat) {k j : Nat} (h : j ≠ k) : bitOf (withBit x k) j = bitOf x j := by
  rw [bitOf_eq_testBit, bitOf_eq_testBit, testBit_withBit]
  simp [h]

/-- A number with a field replaced stays within 32 bits. -/
theorem putBits_lt (x lo w v : Nat) (hx : x < 2 ^ 32) (h : lo + w ≤ 32) : putBits x lo w v < 2 ^ 32 := by
  apply Nat.lt_pow_two_of_testBit
  intro j hj
  rw [testBit_putBits, if_neg (by omega)]
  exact Nat.testBit_lt_two_pow (Nat.lt_of_lt_of_le hx (Nat.pow_le_pow_right (by omega) hj))

end Sys2Proof.Machine
end

