-- ==== Sys2Proof/Laws/Sparse.lean ====
section
/-!
SUPPORT. Laws of sparse data: read after write, and the canonical form.
-/
namespace Sys2Proof.Machine

variable {β : Type}

/-- An erased key reads as its default. -/
theorem sparseGet_erase_same (d : β) (l : List (Nat × β)) (a : Nat) : sparseGet d (sparseErase a l) a = d := by
  induction l with
  | nil => rfl
  | cons e l ih =>
    obtain ⟨k, v⟩ := e
    by_cases h : k = a
    · simp [sparseErase, h, ih]
    · simp [sparseErase, sparseGet, h, ih]

/-- Erasing a key leaves the others. -/
theorem sparseGet_erase_ne (d : β) (l : List (Nat × β)) {a b : Nat} (h : a ≠ b) :
    sparseGet d (sparseErase a l) b = sparseGet d l b := by
  induction l with
  | nil => rfl
  | cons e l ih =>
    obtain ⟨k, v⟩ := e
    by_cases hk : k = a
    · subst hk
      simp [sparseErase, sparseGet, h, ih]
    · rw [sparseErase, if_neg hk, sparseGet, sparseGet, ih]

/-- Inserting a key that is not listed makes it read so. -/
theorem sparseGet_insert_same (d : β) (l : List (Nat × β)) (a : Nat) (v : β) (h : ∀ e ∈ l, e.1 ≠ a) :
    sparseGet d (sparseInsert a v l) a = v := by
  induction l with
  | nil => simp [sparseInsert, sparseGet]
  | cons e l ih =>
    obtain ⟨k, w⟩ := e
    have hk : k ≠ a := h (k, w) (by simp)
    by_cases ha : a < k
    · simp [sparseInsert, ha, sparseGet]
    · simp only [sparseInsert, ha, if_false, sparseGet, hk]
      exact ih fun e he => h e (by simp [he])

/-- Inserting a key leaves the others. -/
theorem sparseGet_insert_ne (d : β) (l : List (Nat × β)) {a b : Nat} (v : β) (h : a ≠ b) :
    sparseGet d (sparseInsert a v l) b = sparseGet d l b := by
  induction l with
  | nil => simp [sparseInsert, sparseGet, h]
  | cons e l ih =>
    obtain ⟨k, w⟩ := e
    by_cases ha : a < k
    · simp [sparseInsert, ha, sparseGet, h]
    · rw [sparseInsert, if_neg ha, sparseGet, sparseGet, ih]

/-- No entry of an erased key is left. -/
theorem sparseErase_ne (l : List (Nat × β)) (a : Nat) : ∀ e ∈ sparseErase a l, e.1 ≠ a := by
  induction l with
  | nil => simp [sparseErase]
  | cons e l ih =>
    obtain ⟨k, v⟩ := e
    by_cases h : k = a
    · simpa [sparseErase, h] using ih
    · simpa [sparseErase, h] using ih

/-- What a key reads after a write. -/
theorem sparseGet_set [DecidableEq β] (d d' : β) (l : List (Nat × β)) (a b : Nat) (v : β) (hd : a = b → d' = d) :
    sparseGet d' (sparseSet d l a v) b = if a = b then v else sparseGet d' l b := by
  unfold sparseSet
  by_cases hab : a = b
  · subst hab
    have hd' := hd rfl
    subst hd'
    split
    · next h => simp [sparseGet_erase_same, h]
    · simp [sparseGet_insert_same _ _ _ _ (sparseErase_ne l a)]
  · rw [if_neg hab]
    split
    · rw [sparseGet_erase_ne _ _ hab]
    · rw [sparseGet_insert_ne _ _ _ hab, sparseGet_erase_ne _ _ hab]

/-! ## The canonical form -/

/-- Erasing keeps only entries that were there. -/
theorem mem_sparseErase {l : List (Nat × β)} {a : Nat} {e : Nat × β} (h : e ∈ sparseErase a l) : e ∈ l := by
  induction l with
  | nil => simp [sparseErase] at h
  | cons x l ih =>
    obtain ⟨k, v⟩ := x
    by_cases hk : k = a
    · rw [sparseErase, if_pos hk] at h
      exact List.mem_cons_of_mem _ (ih h)
    · rw [sparseErase, if_neg hk] at h
      rcases List.mem_cons.1 h with h | h
      · simp [h]
      · exact List.mem_cons_of_mem _ (ih h)

/-- Inserting adds one entry. -/
theorem mem_sparseInsert {l : List (Nat × β)} {a : Nat} {v : β} {e : Nat × β} (h : e ∈ sparseInsert a v l) :
    e = (a, v) ∨ e ∈ l := by
  induction l with
  | nil => simpa [sparseInsert] using h
  | cons x l ih =>
    obtain ⟨k, w⟩ := x
    by_cases ha : a < k
    · simpa [sparseInsert, ha] using h
    · rw [sparseInsert, if_neg ha] at h
      rcases List.mem_cons.1 h with h | h
      · simp [h]
      · rcases ih h with h | h <;> simp [h]

/-- Erasing keeps the order of the keys. -/
theorem sparseErase_pairwise {l : List (Nat × β)} (a : Nat) (h : l.Pairwise fun x y => x.1 < y.1) :
    (sparseErase a l).Pairwise fun x y => x.1 < y.1 := by
  induction l with
  | nil => exact .nil
  | cons x l ih =>
    obtain ⟨k, v⟩ := x
    rw [List.pairwise_cons] at h
    by_cases hk : k = a
    · simpa [sparseErase, hk] using ih h.2
    · simp only [sparseErase, hk, if_false, List.pairwise_cons]
      exact ⟨fun e he => h.1 e (mem_sparseErase he), ih h.2⟩

/-- Inserting an unlisted key keeps the order of the keys. -/
theorem sparseInsert_pairwise {l : List (Nat × β)} (a : Nat) (v : β) (hne : ∀ e ∈ l, e.1 ≠ a)
    (h : l.Pairwise fun x y => x.1 < y.1) : (sparseInsert a v l).Pairwise fun x y => x.1 < y.1 := by
  induction l with
  | nil => simp [sparseInsert]
  | cons x l ih =>
    obtain ⟨k, w⟩ := x
    have hk : k ≠ a := hne (k, w) (by simp)
    have hp := List.pairwise_cons.1 h
    by_cases ha : a < k
    · simp only [sparseInsert, ha, if_true, List.pairwise_cons]
      refine ⟨?_, hp⟩
      intro e he
      rcases List.mem_cons.1 he with he | he
      · simpa [he] using ha
      · exact Nat.lt_trans ha (hp.1 e he)
    · simp only [sparseInsert, ha, if_false, List.pairwise_cons]
      refine ⟨?_, ih (fun e he => hne e (by simp [he])) hp.2⟩
      intro e he
      rcases mem_sparseInsert he with he | he
      · simp only [he]
        omega
      · exact hp.1 e he

/-- A write keeps the canonical form, where the default written against is that of the key. -/
theorem sparseSet_wf [DecidableEq β] (d : Nat → β) {l : List (Nat × β)} (a : Nat) (v : β) (h : sparseWf d l) :
    sparseWf d (sparseSet (d a) l a v) := by
  unfold sparseSet
  split
  · exact ⟨sparseErase_pairwise a h.1, fun e he => h.2 e (mem_sparseErase he)⟩
  · next hv =>
    refine ⟨sparseInsert_pairwise a v (sparseErase_ne l a) (sparseErase_pairwise a h.1), ?_⟩
    intro e he
    rcases mem_sparseInsert he with he | he
    · simpa [he] using hv
    · exact h.2 e (mem_sparseErase he)

/-- Dropping entries keeps the canonical form. -/
theorem sparseFilter_wf (d : Nat → β) {l : List (Nat × β)} (p : Nat × β → Bool) (h : sparseWf d l) : sparseWf d (l.filter p) :=
  ⟨h.1.filter p, fun e he => h.2 e (List.mem_filter.1 he).1⟩

end Sys2Proof.Machine
end

