-- ==== Sys2Proof/Laws/State.lean ====
section
/-!
SUPPORT. What each named update of the state changes, field by field: no later proof unfolds a record update.
-/
namespace Sys2Proof.Machine

/-! ## setReg -/

@[simp] theorem setReg_pending (s : State) (a : Nat) (w : Word) : (s.setReg a w).pending = s.pending := rfl
@[simp] theorem setReg_fresh (s : State) (a : Nat) (w : Word) : (s.setReg a w).fresh = s.fresh := rfl
@[simp] theorem setReg_bus (s : State) (a : Nat) (w : Word) : (s.setReg a w).bus = s.bus := rfl
@[simp] theorem setReg_regs (s : State) (a : Nat) (w : Word) : (s.setReg a w).regs = sparseSet (regReset a) s.regs a w := rfl
@[simp] theorem setReg_mem (s : State) (a : Nat) (w : Word) : (s.setReg a w).mem = s.mem := rfl
@[simp] theorem setReg_pageVers (s : State) (a : Nat) (w : Word) : (s.setReg a w).pageVers = s.pageVers := rfl
@[simp] theorem setReg_cfgPend (s : State) (a : Nat) (w : Word) : (s.setReg a w).cfgPend = s.cfgPend := rfl
@[simp] theorem setReg_tickWrites (s : State) (a : Nat) (w : Word) : (s.setReg a w).tickWrites = s.tickWrites := rfl
@[simp] theorem setReg_syscnt (s : State) (a : Nat) (w : Word) : (s.setReg a w).syscnt = s.syscnt := rfl
@[simp] theorem setReg_coarse (s : State) (a : Nat) (w : Word) : (s.setReg a w).coarse = s.coarse := rfl
@[simp] theorem setReg_sysHold (s : State) (a : Nat) (w : Word) : (s.setReg a w).sysHold = s.sysHold := rfl
@[simp] theorem setReg_tickcnt (s : State) (a : Nat) (w : Word) : (s.setReg a w).tickcnt = s.tickcnt := rfl
@[simp] theorem setReg_tickSys (s : State) (a : Nat) (w : Word) : (s.setReg a w).tickSys = s.tickSys := rfl
@[simp] theorem setReg_ticks (s : State) (a : Nat) (w : Word) : (s.setReg a w).ticks = s.ticks := rfl
@[simp] theorem setReg_boundary (s : State) (a : Nat) (w : Word) : (s.setReg a w).boundary = s.boundary := rfl
@[simp] theorem setReg_mons (s : State) (a : Nat) (w : Word) : (s.setReg a w).mons = s.mons := rfl
@[simp] theorem setReg_pll (s : State) (a : Nat) (w : Word) : (s.setReg a w).pll = s.pll := rfl
@[simp] theorem setReg_ens (s : State) (a : Nat) (w : Word) : (s.setReg a w).ens = s.ens := rfl
@[simp] theorem setReg_addrPins (s : State) (a : Nat) (w : Word) : (s.setReg a w).addrPins = s.addrPins := rfl
@[simp] theorem setReg_index (s : State) (a : Nat) (w : Word) : (s.setReg a w).index = s.index := rfl
@[simp] theorem setReg_rings (s : State) (a : Nat) (w : Word) : (s.setReg a w).rings = s.rings := rfl
@[simp] theorem setReg_evtHeld (s : State) (a : Nat) (w : Word) : (s.setReg a w).evtHeld = s.evtHeld := rfl
@[simp] theorem setReg_evtNow (s : State) (a : Nat) (w : Word) : (s.setReg a w).evtNow = s.evtNow := rfl
@[simp] theorem setReg_irqHeld (s : State) (a : Nat) (w : Word) : (s.setReg a w).irqHeld = s.irqHeld := rfl
@[simp] theorem setReg_evtLog (s : State) (a : Nat) (w : Word) : (s.setReg a w).evtLog = s.evtLog := rfl
@[simp] theorem setReg_doms (s : State) (a : Nat) (w : Word) : (s.setReg a w).doms = s.doms := rfl
@[simp] theorem setReg_change (s : State) (a : Nat) (w : Word) : (s.setReg a w).change = s.change := rfl
@[simp] theorem setReg_lift (s : State) (a : Nat) (w : Word) : (s.setReg a w).lift = s.lift := rfl
@[simp] theorem setReg_pvdd (s : State) (a : Nat) (w : Word) : (s.setReg a w).pvdd = s.pvdd := rfl
@[simp] theorem setReg_resetHold (s : State) (a : Nat) (w : Word) : (s.setReg a w).resetHold = s.resetHold := rfl
@[simp] theorem setReg_ports (s : State) (a : Nat) (w : Word) : (s.setReg a w).ports = s.ports := rfl
@[simp] theorem setReg_claims (s : State) (a : Nat) (w : Word) : (s.setReg a w).claims = s.claims := rfl
@[simp] theorem setReg_txn (s : State) (a : Nat) (w : Word) : (s.setReg a w).txn = s.txn := rfl
@[simp] theorem setReg_saps (s : State) (a : Nat) (w : Word) : (s.setReg a w).saps = s.saps := rfl
@[simp] theorem setReg_grps (s : State) (a : Nat) (w : Word) : (s.setReg a w).grps = s.grps := rfl
@[simp] theorem setReg_portSrc (s : State) (a : Nat) (w : Word) : (s.setReg a w).portSrc = s.portSrc := rfl
@[simp] theorem setReg_portSink (s : State) (a : Nat) (w : Word) : (s.setReg a w).portSink = s.portSink := rfl
@[simp] theorem setReg_asrcs (s : State) (a : Nat) (w : Word) : (s.setReg a w).asrcs = s.asrcs := rfl
@[simp] theorem setReg_dlines (s : State) (a : Nat) (w : Word) : (s.setReg a w).dlines = s.dlines := rfl
@[simp] theorem setReg_crcs (s : State) (a : Nat) (w : Word) : (s.setReg a w).crcs = s.crcs := rfl
@[simp] theorem setReg_crcOwner (s : State) (a : Nat) (w : Word) : (s.setReg a w).crcOwner = s.crcOwner := rfl
@[simp] theorem setReg_ains (s : State) (a : Nat) (w : Word) : (s.setReg a w).ains = s.ains := rfl
@[simp] theorem setReg_ainOut (s : State) (a : Nat) (w : Word) : (s.setReg a w).ainOut = s.ainOut := rfl
@[simp] theorem setReg_tdacQ (s : State) (a : Nat) (w : Word) : (s.setReg a w).tdacQ = s.tdacQ := rfl
@[simp] theorem setReg_tdacOwner (s : State) (a : Nat) (w : Word) : (s.setReg a w).tdacOwner = s.tdacOwner := rfl
@[simp] theorem setReg_tdac (s : State) (a : Nat) (w : Word) : (s.setReg a w).tdac = s.tdac := rfl
@[simp] theorem setReg_fab (s : State) (a : Nat) (w : Word) : (s.setReg a w).fab = s.fab := rfl
@[simp] theorem setReg_gains (s : State) (a : Nat) (w : Word) : (s.setReg a w).gains = s.gains := rfl
@[simp] theorem setReg_senseOut (s : State) (a : Nat) (w : Word) : (s.setReg a w).senseOut = s.senseOut := rfl
@[simp] theorem setReg_injOut (s : State) (a : Nat) (w : Word) : (s.setReg a w).injOut = s.injOut := rfl
@[simp] theorem setReg_outs (s : State) (a : Nat) (w : Word) : (s.setReg a w).outs = s.outs := rfl
@[simp] theorem setReg_cpOn (s : State) (a : Nat) (w : Word) : (s.setReg a w).cpOn = s.cpOn := rfl
@[simp] theorem setReg_jacks (s : State) (a : Nat) (w : Word) : (s.setReg a w).jacks = s.jacks := rfl
@[simp] theorem setReg_jackTrig (s : State) (a : Nat) (w : Word) : (s.setReg a w).jackTrig = s.jackTrig := rfl
@[simp] theorem setReg_jackFired (s : State) (a : Nat) (w : Word) : (s.setReg a w).jackFired = s.jackFired := rfl
@[simp] theorem setReg_jackPages (s : State) (a : Nat) (w : Word) : (s.setReg a w).jackPages = s.jackPages := rfl
@[simp] theorem setReg_hka (s : State) (a : Nat) (w : Word) : (s.setReg a w).hka = s.hka := rfl
@[simp] theorem setReg_amps (s : State) (a : Nat) (w : Word) : (s.setReg a w).amps = s.amps := rfl
@[simp] theorem setReg_sag (s : State) (a : Nat) (w : Word) : (s.setReg a w).sag = s.sag := rfl
@[simp] theorem setReg_boot (s : State) (a : Nat) (w : Word) : (s.setReg a w).boot = s.boot := rfl
@[simp] theorem setReg_fuses (s : State) (a : Nat) (w : Word) : (s.setReg a w).fuses = s.fuses := rfl
@[simp] theorem setReg_fusesRead (s : State) (a : Nat) (w : Word) : (s.setReg a w).fusesRead = s.fusesRead := rfl
@[simp] theorem setReg_blow (s : State) (a : Nat) (w : Word) : (s.setReg a w).blow = s.blow := rfl
@[simp] theorem setReg_injs (s : State) (a : Nat) (w : Word) : (s.setReg a w).injs = s.injs := rfl
@[simp] theorem setReg_caps (s : State) (a : Nat) (w : Word) : (s.setReg a w).caps = s.caps := rfl
@[simp] theorem setReg_book (s : State) (a : Nat) (w : Word) : (s.setReg a w).book = s.book := rfl
@[simp] theorem setReg_irqCopy (s : State) (a : Nat) (w : Word) : (s.setReg a w).irqCopy = s.irqCopy := rfl
@[simp] theorem setReg_xportCopy (s : State) (a : Nat) (w : Word) : (s.setReg a w).xportCopy = s.xportCopy := rfl
@[simp] theorem setReg_vio (s : State) (a : Nat) (w : Word) : (s.setReg a w).vio = s.vio := rfl
@[simp] theorem setReg_esd (s : State) (a : Nat) (w : Word) : (s.setReg a w).esd = s.esd := rfl

/-! ## setFld -/

@[simp] theorem setFld_pending (s : State) (f : Fld) (v : Nat) : (s.setFld f v).pending = s.pending := rfl
@[simp] theorem setFld_fresh (s : State) (f : Fld) (v : Nat) : (s.setFld f v).fresh = s.fresh := rfl
@[simp] theorem setFld_bus (s : State) (f : Fld) (v : Nat) : (s.setFld f v).bus = s.bus := rfl
@[simp] theorem setFld_regs (s : State) (f : Fld) (v : Nat) : (s.setFld f v).regs = sparseSet (regReset f.addr) s.regs f.addr (word (putBits (s.reg f.addr).toNat f.lo f.width v)) := rfl
@[simp] theorem setFld_mem (s : State) (f : Fld) (v : Nat) : (s.setFld f v).mem = s.mem := rfl
@[simp] theorem setFld_pageVers (s : State) (f : Fld) (v : Nat) : (s.setFld f v).pageVers = s.pageVers := rfl
@[simp] theorem setFld_cfgPend (s : State) (f : Fld) (v : Nat) : (s.setFld f v).cfgPend = s.cfgPend := rfl
@[simp] theorem setFld_tickWrites (s : State) (f : Fld) (v : Nat) : (s.setFld f v).tickWrites = s.tickWrites := rfl
@[simp] theorem setFld_syscnt (s : State) (f : Fld) (v : Nat) : (s.setFld f v).syscnt = s.syscnt := rfl
@[simp] theorem setFld_coarse (s : State) (f : Fld) (v : Nat) : (s.setFld f v).coarse = s.coarse := rfl
@[simp] theorem setFld_sysHold (s : State) (f : Fld) (v : Nat) : (s.setFld f v).sysHold = s.sysHold := rfl
@[simp] theorem setFld_tickcnt (s : State) (f : Fld) (v : Nat) : (s.setFld f v).tickcnt = s.tickcnt := rfl
@[simp] theorem setFld_tickSys (s : State) (f : Fld) (v : Nat) : (s.setFld f v).tickSys = s.tickSys := rfl
@[simp] theorem setFld_ticks (s : State) (f : Fld) (v : Nat) : (s.setFld f v).ticks = s.ticks := rfl
@[simp] theorem setFld_boundary (s : State) (f : Fld) (v : Nat) : (s.setFld f v).boundary = s.boundary := rfl
@[simp] theorem setFld_mons (s : State) (f : Fld) (v : Nat) : (s.setFld f v).mons = s.mons := rfl
@[simp] theorem setFld_pll (s : State) (f : Fld) (v : Nat) : (s.setFld f v).pll = s.pll := rfl
@[simp] theorem setFld_ens (s : State) (f : Fld) (v : Nat) : (s.setFld f v).ens = s.ens := rfl
@[simp] theorem setFld_addrPins (s : State) (f : Fld) (v : Nat) : (s.setFld f v).addrPins = s.addrPins := rfl
@[simp] theorem setFld_index (s : State) (f : Fld) (v : Nat) : (s.setFld f v).index = s.index := rfl
@[simp] theorem setFld_rings (s : State) (f : Fld) (v : Nat) : (s.setFld f v).rings = s.rings := rfl
@[simp] theorem setFld_evtHeld (s : State) (f : Fld) (v : Nat) : (s.setFld f v).evtHeld = s.evtHeld := rfl
@[simp] theorem setFld_evtNow (s : State) (f : Fld) (v : Nat) : (s.setFld f v).evtNow = s.evtNow := rfl
@[simp] theorem setFld_irqHeld (s : State) (f : Fld) (v : Nat) : (s.setFld f v).irqHeld = s.irqHeld := rfl
@[simp] theorem setFld_evtLog (s : State) (f : Fld) (v : Nat) : (s.setFld f v).evtLog = s.evtLog := rfl
@[simp] theorem setFld_doms (s : State) (f : Fld) (v : Nat) : (s.setFld f v).doms = s.doms := rfl
@[simp] theorem setFld_change (s : State) (f : Fld) (v : Nat) : (s.setFld f v).change = s.change := rfl
@[simp] theorem setFld_lift (s : State) (f : Fld) (v : Nat) : (s.setFld f v).lift = s.lift := rfl
@[simp] theorem setFld_pvdd (s : State) (f : Fld) (v : Nat) : (s.setFld f v).pvdd = s.pvdd := rfl
@[simp] theorem setFld_resetHold (s : State) (f : Fld) (v : Nat) : (s.setFld f v).resetHold = s.resetHold := rfl
@[simp] theorem setFld_ports (s : State) (f : Fld) (v : Nat) : (s.setFld f v).ports = s.ports := rfl
@[simp] theorem setFld_claims (s : State) (f : Fld) (v : Nat) : (s.setFld f v).claims = s.claims := rfl
@[simp] theorem setFld_txn (s : State) (f : Fld) (v : Nat) : (s.setFld f v).txn = s.txn := rfl
@[simp] theorem setFld_saps (s : State) (f : Fld) (v : Nat) : (s.setFld f v).saps = s.saps := rfl
@[simp] theorem setFld_grps (s : State) (f : Fld) (v : Nat) : (s.setFld f v).grps = s.grps := rfl
@[simp] theorem setFld_portSrc (s : State) (f : Fld) (v : Nat) : (s.setFld f v).portSrc = s.portSrc := rfl
@[simp] theorem setFld_portSink (s : State) (f : Fld) (v : Nat) : (s.setFld f v).portSink = s.portSink := rfl
@[simp] theorem setFld_asrcs (s : State) (f : Fld) (v : Nat) : (s.setFld f v).asrcs = s.asrcs := rfl
@[simp] theorem setFld_dlines (s : State) (f : Fld) (v : Nat) : (s.setFld f v).dlines = s.dlines := rfl
@[simp] theorem setFld_crcs (s : State) (f : Fld) (v : Nat) : (s.setFld f v).crcs = s.crcs := rfl
@[simp] theorem setFld_crcOwner (s : State) (f : Fld) (v : Nat) : (s.setFld f v).crcOwner = s.crcOwner := rfl
@[simp] theorem setFld_ains (s : State) (f : Fld) (v : Nat) : (s.setFld f v).ains = s.ains := rfl
@[simp] theorem setFld_ainOut (s : State) (f : Fld) (v : Nat) : (s.setFld f v).ainOut = s.ainOut := rfl
@[simp] theorem setFld_tdacQ (s : State) (f : Fld) (v : Nat) : (s.setFld f v).tdacQ = s.tdacQ := rfl
@[simp] theorem setFld_tdacOwner (s : State) (f : Fld) (v : Nat) : (s.setFld f v).tdacOwner = s.tdacOwner := rfl
@[simp] theorem setFld_tdac (s : State) (f : Fld) (v : Nat) : (s.setFld f v).tdac = s.tdac := rfl
@[simp] theorem setFld_fab (s : State) (f : Fld) (v : Nat) : (s.setFld f v).fab = s.fab := rfl
@[simp] theorem setFld_gains (s : State) (f : Fld) (v : Nat) : (s.setFld f v).gains = s.gains := rfl
@[simp] theorem setFld_senseOut (s : State) (f : Fld) (v : Nat) : (s.setFld f v).senseOut = s.senseOut := rfl
@[simp] theorem setFld_injOut (s : State) (f : Fld) (v : Nat) : (s.setFld f v).injOut = s.injOut := rfl
@[simp] theorem setFld_outs (s : State) (f : Fld) (v : Nat) : (s.setFld f v).outs = s.outs := rfl
@[simp] theorem setFld_cpOn (s : State) (f : Fld) (v : Nat) : (s.setFld f v).cpOn = s.cpOn := rfl
@[simp] theorem setFld_jacks (s : State) (f : Fld) (v : Nat) : (s.setFld f v).jacks = s.jacks := rfl
@[simp] theorem setFld_jackTrig (s : State) (f : Fld) (v : Nat) : (s.setFld f v).jackTrig = s.jackTrig := rfl
@[simp] theorem setFld_jackFired (s : State) (f : Fld) (v : Nat) : (s.setFld f v).jackFired = s.jackFired := rfl
@[simp] theorem setFld_jackPages (s : State) (f : Fld) (v : Nat) : (s.setFld f v).jackPages = s.jackPages := rfl
@[simp] theorem setFld_hka (s : State) (f : Fld) (v : Nat) : (s.setFld f v).hka = s.hka := rfl
@[simp] theorem setFld_amps (s : State) (f : Fld) (v : Nat) : (s.setFld f v).amps = s.amps := rfl
@[simp] theorem setFld_sag (s : State) (f : Fld) (v : Nat) : (s.setFld f v).sag = s.sag := rfl
@[simp] theorem setFld_boot (s : State) (f : Fld) (v : Nat) : (s.setFld f v).boot = s.boot := rfl
@[simp] theorem setFld_fuses (s : State) (f : Fld) (v : Nat) : (s.setFld f v).fuses = s.fuses := rfl
@[simp] theorem setFld_fusesRead (s : State) (f : Fld) (v : Nat) : (s.setFld f v).fusesRead = s.fusesRead := rfl
@[simp] theorem setFld_blow (s : State) (f : Fld) (v : Nat) : (s.setFld f v).blow = s.blow := rfl
@[simp] theorem setFld_injs (s : State) (f : Fld) (v : Nat) : (s.setFld f v).injs = s.injs := rfl
@[simp] theorem setFld_caps (s : State) (f : Fld) (v : Nat) : (s.setFld f v).caps = s.caps := rfl
@[simp] theorem setFld_book (s : State) (f : Fld) (v : Nat) : (s.setFld f v).book = s.book := rfl
@[simp] theorem setFld_irqCopy (s : State) (f : Fld) (v : Nat) : (s.setFld f v).irqCopy = s.irqCopy := rfl
@[simp] theorem setFld_xportCopy (s : State) (f : Fld) (v : Nat) : (s.setFld f v).xportCopy = s.xportCopy := rfl
@[simp] theorem setFld_vio (s : State) (f : Fld) (v : Nat) : (s.setFld f v).vio = s.vio := rfl
@[simp] theorem setFld_esd (s : State) (f : Fld) (v : Nat) : (s.setFld f v).esd = s.esd := rfl

/-! ## setByte -/

@[simp] theorem setByte_pending (s : State) (a : Nat) (b : Byte) : (s.setByte a b).pending = s.pending := rfl
@[simp] theorem setByte_fresh (s : State) (a : Nat) (b : Byte) : (s.setByte a b).fresh = s.fresh := rfl
@[simp] theorem setByte_bus (s : State) (a : Nat) (b : Byte) : (s.setByte a b).bus = s.bus := rfl
@[simp] theorem setByte_regs (s : State) (a : Nat) (b : Byte) : (s.setByte a b).regs = s.regs := rfl
@[simp] theorem setByte_mem (s : State) (a : Nat) (b : Byte) : (s.setByte a b).mem = sparseSet memDefault s.mem a b := rfl
@[simp] theorem setByte_pageVers (s : State) (a : Nat) (b : Byte) : (s.setByte a b).pageVers = s.pageVers := rfl
@[simp] theorem setByte_cfgPend (s : State) (a : Nat) (b : Byte) : (s.setByte a b).cfgPend = s.cfgPend := rfl
@[simp] theorem setByte_tickWrites (s : State) (a : Nat) (b : Byte) : (s.setByte a b).tickWrites = s.tickWrites := rfl
@[simp] theorem setByte_syscnt (s : State) (a : Nat) (b : Byte) : (s.setByte a b).syscnt = s.syscnt := rfl
@[simp] theorem setByte_coarse (s : State) (a : Nat) (b : Byte) : (s.setByte a b).coarse = s.coarse := rfl
@[simp] theorem setByte_sysHold (s : State) (a : Nat) (b : Byte) : (s.setByte a b).sysHold = s.sysHold := rfl
@[simp] theorem setByte_tickcnt (s : State) (a : Nat) (b : Byte) : (s.setByte a b).tickcnt = s.tickcnt := rfl
@[simp] theorem setByte_tickSys (s : State) (a : Nat) (b : Byte) : (s.setByte a b).tickSys = s.tickSys := rfl
@[simp] theorem setByte_ticks (s : State) (a : Nat) (b : Byte) : (s.setByte a b).ticks = s.ticks := rfl
@[simp] theorem setByte_boundary (s : State) (a : Nat) (b : Byte) : (s.setByte a b).boundary = s.boundary := rfl
@[simp] theorem setByte_mons (s : State) (a : Nat) (b : Byte) : (s.setByte a b).mons = s.mons := rfl
@[simp] theorem setByte_pll (s : State) (a : Nat) (b : Byte) : (s.setByte a b).pll = s.pll := rfl
@[simp] theorem setByte_ens (s : State) (a : Nat) (b : Byte) : (s.setByte a b).ens = s.ens := rfl
@[simp] theorem setByte_addrPins (s : State) (a : Nat) (b : Byte) : (s.setByte a b).addrPins = s.addrPins := rfl
@[simp] theorem setByte_index (s : State) (a : Nat) (b : Byte) : (s.setByte a b).index = s.index := rfl
@[simp] theorem setByte_rings (s : State) (a : Nat) (b : Byte) : (s.setByte a b).rings = s.rings := rfl
@[simp] theorem setByte_evtHeld (s : State) (a : Nat) (b : Byte) : (s.setByte a b).evtHeld = s.evtHeld := rfl
@[simp] theorem setByte_evtNow (s : State) (a : Nat) (b : Byte) : (s.setByte a b).evtNow = s.evtNow := rfl
@[simp] theorem setByte_irqHeld (s : State) (a : Nat) (b : Byte) : (s.setByte a b).irqHeld = s.irqHeld := rfl
@[simp] theorem setByte_evtLog (s : State) (a : Nat) (b : Byte) : (s.setByte a b).evtLog = s.evtLog := rfl
@[simp] theorem setByte_doms (s : State) (a : Nat) (b : Byte) : (s.setByte a b).doms = s.doms := rfl
@[simp] theorem setByte_change (s : State) (a : Nat) (b : Byte) : (s.setByte a b).change = s.change := rfl
@[simp] theorem setByte_lift (s : State) (a : Nat) (b : Byte) : (s.setByte a b).lift = s.lift := rfl
@[simp] theorem setByte_pvdd (s : State) (a : Nat) (b : Byte) : (s.setByte a b).pvdd = s.pvdd := rfl
@[simp] theorem setByte_resetHold (s : State) (a : Nat) (b : Byte) : (s.setByte a b).resetHold = s.resetHold := rfl
@[simp] theorem setByte_ports (s : State) (a : Nat) (b : Byte) : (s.setByte a b).ports = s.ports := rfl
@[simp] theorem setByte_claims (s : State) (a : Nat) (b : Byte) : (s.setByte a b).claims = s.claims := rfl
@[simp] theorem setByte_txn (s : State) (a : Nat) (b : Byte) : (s.setByte a b).txn = s.txn := rfl
@[simp] theorem setByte_saps (s : State) (a : Nat) (b : Byte) : (s.setByte a b).saps = s.saps := rfl
@[simp] theorem setByte_grps (s : State) (a : Nat) (b : Byte) : (s.setByte a b).grps = s.grps := rfl
@[simp] theorem setByte_portSrc (s : State) (a : Nat) (b : Byte) : (s.setByte a b).portSrc = s.portSrc := rfl
@[simp] theorem setByte_portSink (s : State) (a : Nat) (b : Byte) : (s.setByte a b).portSink = s.portSink := rfl
@[simp] theorem setByte_asrcs (s : State) (a : Nat) (b : Byte) : (s.setByte a b).asrcs = s.asrcs := rfl
@[simp] theorem setByte_dlines (s : State) (a : Nat) (b : Byte) : (s.setByte a b).dlines = s.dlines := rfl
@[simp] theorem setByte_crcs (s : State) (a : Nat) (b : Byte) : (s.setByte a b).crcs = s.crcs := rfl
@[simp] theorem setByte_crcOwner (s : State) (a : Nat) (b : Byte) : (s.setByte a b).crcOwner = s.crcOwner := rfl
@[simp] theorem setByte_ains (s : State) (a : Nat) (b : Byte) : (s.setByte a b).ains = s.ains := rfl
@[simp] theorem setByte_ainOut (s : State) (a : Nat) (b : Byte) : (s.setByte a b).ainOut = s.ainOut := rfl
@[simp] theorem setByte_tdacQ (s : State) (a : Nat) (b : Byte) : (s.setByte a b).tdacQ = s.tdacQ := rfl
@[simp] theorem setByte_tdacOwner (s : State) (a : Nat) (b : Byte) : (s.setByte a b).tdacOwner = s.tdacOwner := rfl
@[simp] theorem setByte_tdac (s : State) (a : Nat) (b : Byte) : (s.setByte a b).tdac = s.tdac := rfl
@[simp] theorem setByte_fab (s : State) (a : Nat) (b : Byte) : (s.setByte a b).fab = s.fab := rfl
@[simp] theorem setByte_gains (s : State) (a : Nat) (b : Byte) : (s.setByte a b).gains = s.gains := rfl
@[simp] theorem setByte_senseOut (s : State) (a : Nat) (b : Byte) : (s.setByte a b).senseOut = s.senseOut := rfl
@[simp] theorem setByte_injOut (s : State) (a : Nat) (b : Byte) : (s.setByte a b).injOut = s.injOut := rfl
@[simp] theorem setByte_outs (s : State) (a : Nat) (b : Byte) : (s.setByte a b).outs = s.outs := rfl
@[simp] theorem setByte_cpOn (s : State) (a : Nat) (b : Byte) : (s.setByte a b).cpOn = s.cpOn := rfl
@[simp] theorem setByte_jacks (s : State) (a : Nat) (b : Byte) : (s.setByte a b).jacks = s.jacks := rfl
@[simp] theorem setByte_jackTrig (s : State) (a : Nat) (b : Byte) : (s.setByte a b).jackTrig = s.jackTrig := rfl
@[simp] theorem setByte_jackFired (s : State) (a : Nat) (b : Byte) : (s.setByte a b).jackFired = s.jackFired := rfl
@[simp] theorem setByte_jackPages (s : State) (a : Nat) (b : Byte) : (s.setByte a b).jackPages = s.jackPages := rfl
@[simp] theorem setByte_hka (s : State) (a : Nat) (b : Byte) : (s.setByte a b).hka = s.hka := rfl
@[simp] theorem setByte_amps (s : State) (a : Nat) (b : Byte) : (s.setByte a b).amps = s.amps := rfl
@[simp] theorem setByte_sag (s : State) (a : Nat) (b : Byte) : (s.setByte a b).sag = s.sag := rfl
@[simp] theorem setByte_boot (s : State) (a : Nat) (b : Byte) : (s.setByte a b).boot = s.boot := rfl
@[simp] theorem setByte_fuses (s : State) (a : Nat) (b : Byte) : (s.setByte a b).fuses = s.fuses := rfl
@[simp] theorem setByte_fusesRead (s : State) (a : Nat) (b : Byte) : (s.setByte a b).fusesRead = s.fusesRead := rfl
@[simp] theorem setByte_blow (s : State) (a : Nat) (b : Byte) : (s.setByte a b).blow = s.blow := rfl
@[simp] theorem setByte_injs (s : State) (a : Nat) (b : Byte) : (s.setByte a b).injs = s.injs := rfl
@[simp] theorem setByte_caps (s : State) (a : Nat) (b : Byte) : (s.setByte a b).caps = s.caps := rfl
@[simp] theorem setByte_book (s : State) (a : Nat) (b : Byte) : (s.setByte a b).book = s.book := rfl
@[simp] theorem setByte_irqCopy (s : State) (a : Nat) (b : Byte) : (s.setByte a b).irqCopy = s.irqCopy := rfl
@[simp] theorem setByte_xportCopy (s : State) (a : Nat) (b : Byte) : (s.setByte a b).xportCopy = s.xportCopy := rfl
@[simp] theorem setByte_vio (s : State) (a : Nat) (b : Byte) : (s.setByte a b).vio = s.vio := rfl
@[simp] theorem setByte_esd (s : State) (a : Nat) (b : Byte) : (s.setByte a b).esd = s.esd := rfl

/-! ## bumpVer -/

@[simp] theorem bumpVer_pending (s : State) (p : Nat) : (s.bumpVer p).pending = s.pending := rfl
@[simp] theorem bumpVer_fresh (s : State) (p : Nat) : (s.bumpVer p).fresh = s.fresh := rfl
@[simp] theorem bumpVer_bus (s : State) (p : Nat) : (s.bumpVer p).bus = s.bus := rfl
@[simp] theorem bumpVer_regs (s : State) (p : Nat) : (s.bumpVer p).regs = s.regs := rfl
@[simp] theorem bumpVer_mem (s : State) (p : Nat) : (s.bumpVer p).mem = s.mem := rfl
@[simp] theorem bumpVer_pageVers (s : State) (p : Nat) : (s.bumpVer p).pageVers = sparseSet 0 s.pageVers p ((s.pageVer p + 1) % 2 ^ 32) := rfl
@[simp] theorem bumpVer_cfgPend (s : State) (p : Nat) : (s.bumpVer p).cfgPend = s.cfgPend := rfl
@[simp] theorem bumpVer_tickWrites (s : State) (p : Nat) : (s.bumpVer p).tickWrites = s.tickWrites := rfl
@[simp] theorem bumpVer_syscnt (s : State) (p : Nat) : (s.bumpVer p).syscnt = s.syscnt := rfl
@[simp] theorem bumpVer_coarse (s : State) (p : Nat) : (s.bumpVer p).coarse = s.coarse := rfl
@[simp] theorem bumpVer_sysHold (s : State) (p : Nat) : (s.bumpVer p).sysHold = s.sysHold := rfl
@[simp] theorem bumpVer_tickcnt (s : State) (p : Nat) : (s.bumpVer p).tickcnt = s.tickcnt := rfl
@[simp] theorem bumpVer_tickSys (s : State) (p : Nat) : (s.bumpVer p).tickSys = s.tickSys := rfl
@[simp] theorem bumpVer_ticks (s : State) (p : Nat) : (s.bumpVer p).ticks = s.ticks := rfl
@[simp] theorem bumpVer_boundary (s : State) (p : Nat) : (s.bumpVer p).boundary = s.boundary := rfl
@[simp] theorem bumpVer_mons (s : State) (p : Nat) : (s.bumpVer p).mons = s.mons := rfl
@[simp] theorem bumpVer_pll (s : State) (p : Nat) : (s.bumpVer p).pll = s.pll := rfl
@[simp] theorem bumpVer_ens (s : State) (p : Nat) : (s.bumpVer p).ens = s.ens := rfl
@[simp] theorem bumpVer_addrPins (s : State) (p : Nat) : (s.bumpVer p).addrPins = s.addrPins := rfl
@[simp] theorem bumpVer_index (s : State) (p : Nat) : (s.bumpVer p).index = s.index := rfl
@[simp] theorem bumpVer_rings (s : State) (p : Nat) : (s.bumpVer p).rings = s.rings := rfl
@[simp] theorem bumpVer_evtHeld (s : State) (p : Nat) : (s.bumpVer p).evtHeld = s.evtHeld := rfl
@[simp] theorem bumpVer_evtNow (s : State) (p : Nat) : (s.bumpVer p).evtNow = s.evtNow := rfl
@[simp] theorem bumpVer_irqHeld (s : State) (p : Nat) : (s.bumpVer p).irqHeld = s.irqHeld := rfl
@[simp] theorem bumpVer_evtLog (s : State) (p : Nat) : (s.bumpVer p).evtLog = s.evtLog := rfl
@[simp] theorem bumpVer_doms (s : State) (p : Nat) : (s.bumpVer p).doms = s.doms := rfl
@[simp] theorem bumpVer_change (s : State) (p : Nat) : (s.bumpVer p).change = s.change := rfl
@[simp] theorem bumpVer_lift (s : State) (p : Nat) : (s.bumpVer p).lift = s.lift := rfl
@[simp] theorem bumpVer_pvdd (s : State) (p : Nat) : (s.bumpVer p).pvdd = s.pvdd := rfl
@[simp] theorem bumpVer_resetHold (s : State) (p : Nat) : (s.bumpVer p).resetHold = s.resetHold := rfl
@[simp] theorem bumpVer_ports (s : State) (p : Nat) : (s.bumpVer p).ports = s.ports := rfl
@[simp] theorem bumpVer_claims (s : State) (p : Nat) : (s.bumpVer p).claims = s.claims := rfl
@[simp] theorem bumpVer_txn (s : State) (p : Nat) : (s.bumpVer p).txn = s.txn := rfl
@[simp] theorem bumpVer_saps (s : State) (p : Nat) : (s.bumpVer p).saps = s.saps := rfl
@[simp] theorem bumpVer_grps (s : State) (p : Nat) : (s.bumpVer p).grps = s.grps := rfl
@[simp] theorem bumpVer_portSrc (s : State) (p : Nat) : (s.bumpVer p).portSrc = s.portSrc := rfl
@[simp] theorem bumpVer_portSink (s : State) (p : Nat) : (s.bumpVer p).portSink = s.portSink := rfl
@[simp] theorem bumpVer_asrcs (s : State) (p : Nat) : (s.bumpVer p).asrcs = s.asrcs := rfl
@[simp] theorem bumpVer_dlines (s : State) (p : Nat) : (s.bumpVer p).dlines = s.dlines := rfl
@[simp] theorem bumpVer_crcs (s : State) (p : Nat) : (s.bumpVer p).crcs = s.crcs := rfl
@[simp] theorem bumpVer_crcOwner (s : State) (p : Nat) : (s.bumpVer p).crcOwner = s.crcOwner := rfl
@[simp] theorem bumpVer_ains (s : State) (p : Nat) : (s.bumpVer p).ains = s.ains := rfl
@[simp] theorem bumpVer_ainOut (s : State) (p : Nat) : (s.bumpVer p).ainOut = s.ainOut := rfl
@[simp] theorem bumpVer_tdacQ (s : State) (p : Nat) : (s.bumpVer p).tdacQ = s.tdacQ := rfl
@[simp] theorem bumpVer_tdacOwner (s : State) (p : Nat) : (s.bumpVer p).tdacOwner = s.tdacOwner := rfl
@[simp] theorem bumpVer_tdac (s : State) (p : Nat) : (s.bumpVer p).tdac = s.tdac := rfl
@[simp] theorem bumpVer_fab (s : State) (p : Nat) : (s.bumpVer p).fab = s.fab := rfl
@[simp] theorem bumpVer_gains (s : State) (p : Nat) : (s.bumpVer p).gains = s.gains := rfl
@[simp] theorem bumpVer_senseOut (s : State) (p : Nat) : (s.bumpVer p).senseOut = s.senseOut := rfl
@[simp] theorem bumpVer_injOut (s : State) (p : Nat) : (s.bumpVer p).injOut = s.injOut := rfl
@[simp] theorem bumpVer_outs (s : State) (p : Nat) : (s.bumpVer p).outs = s.outs := rfl
@[simp] theorem bumpVer_cpOn (s : State) (p : Nat) : (s.bumpVer p).cpOn = s.cpOn := rfl
@[simp] theorem bumpVer_jacks (s : State) (p : Nat) : (s.bumpVer p).jacks = s.jacks := rfl
@[simp] theorem bumpVer_jackTrig (s : State) (p : Nat) : (s.bumpVer p).jackTrig = s.jackTrig := rfl
@[simp] theorem bumpVer_jackFired (s : State) (p : Nat) : (s.bumpVer p).jackFired = s.jackFired := rfl
@[simp] theorem bumpVer_jackPages (s : State) (p : Nat) : (s.bumpVer p).jackPages = s.jackPages := rfl
@[simp] theorem bumpVer_hka (s : State) (p : Nat) : (s.bumpVer p).hka = s.hka := rfl
@[simp] theorem bumpVer_amps (s : State) (p : Nat) : (s.bumpVer p).amps = s.amps := rfl
@[simp] theorem bumpVer_sag (s : State) (p : Nat) : (s.bumpVer p).sag = s.sag := rfl
@[simp] theorem bumpVer_boot (s : State) (p : Nat) : (s.bumpVer p).boot = s.boot := rfl
@[simp] theorem bumpVer_fuses (s : State) (p : Nat) : (s.bumpVer p).fuses = s.fuses := rfl
@[simp] theorem bumpVer_fusesRead (s : State) (p : Nat) : (s.bumpVer p).fusesRead = s.fusesRead := rfl
@[simp] theorem bumpVer_blow (s : State) (p : Nat) : (s.bumpVer p).blow = s.blow := rfl
@[simp] theorem bumpVer_injs (s : State) (p : Nat) : (s.bumpVer p).injs = s.injs := rfl
@[simp] theorem bumpVer_caps (s : State) (p : Nat) : (s.bumpVer p).caps = s.caps := rfl
@[simp] theorem bumpVer_book (s : State) (p : Nat) : (s.bumpVer p).book = s.book := rfl
@[simp] theorem bumpVer_irqCopy (s : State) (p : Nat) : (s.bumpVer p).irqCopy = s.irqCopy := rfl
@[simp] theorem bumpVer_xportCopy (s : State) (p : Nat) : (s.bumpVer p).xportCopy = s.xportCopy := rfl
@[simp] theorem bumpVer_vio (s : State) (p : Nat) : (s.bumpVer p).vio = s.vio := rfl
@[simp] theorem bumpVer_esd (s : State) (p : Nat) : (s.bumpVer p).esd = s.esd := rfl

/-! ## updRing -/

@[simp] theorem updRing_pending (s : State) (i : Nat) (f : Ring → Ring) : (s.updRing i f).pending = s.pending := rfl
@[simp] theorem updRing_fresh (s : State) (i : Nat) (f : Ring → Ring) : (s.updRing i f).fresh = s.fresh := rfl
@[simp] theorem updRing_bus (s : State) (i : Nat) (f : Ring → Ring) : (s.updRing i f).bus = s.bus := rfl
@[simp] theorem updRing_regs (s : State) (i : Nat) (f : Ring → Ring) : (s.updRing i f).regs = s.regs := rfl
@[simp] theorem updRing_mem (s : State) (i : Nat) (f : Ring → Ring) : (s.updRing i f).mem = s.mem := rfl
@[simp] theorem updRing_pageVers (s : State) (i : Nat) (f : Ring → Ring) : (s.updRing i f).pageVers = s.pageVers := rfl
@[simp] theorem updRing_cfgPend (s : State) (i : Nat) (f : Ring → Ring) : (s.updRing i f).cfgPend = s.cfgPend := rfl
@[simp] theorem updRing_tickWrites (s : State) (i : Nat) (f : Ring → Ring) : (s.updRing i f).tickWrites = s.tickWrites := rfl
@[simp] theorem updRing_syscnt (s : State) (i : Nat) (f : Ring → Ring) : (s.updRing i f).syscnt = s.syscnt := rfl
@[simp] theorem updRing_coarse (s : State) (i : Nat) (f : Ring → Ring) : (s.updRing i f).coarse = s.coarse := rfl
@[simp] theorem updRing_sysHold (s : State) (i : Nat) (f : Ring → Ring) : (s.updRing i f).sysHold = s.sysHold := rfl
@[simp] theorem updRing_tickcnt (s : State) (i : Nat) (f : Ring → Ring) : (s.updRing i f).tickcnt = s.tickcnt := rfl
@[simp] theorem updRing_tickSys (s : State) (i : Nat) (f : Ring → Ring) : (s.updRing i f).tickSys = s.tickSys := rfl
@[simp] theorem updRing_ticks (s : State) (i : Nat) (f : Ring → Ring) : (s.updRing i f).ticks = s.ticks := rfl
@[simp] theorem updRing_boundary (s : State) (i : Nat) (f : Ring → Ring) : (s.updRing i f).boundary = s.boundary := rfl
@[simp] theorem updRing_mons (s : State) (i : Nat) (f : Ring → Ring) : (s.updRing i f).mons = s.mons := rfl
@[simp] theorem updRing_pll (s : State) (i : Nat) (f : Ring → Ring) : (s.updRing i f).pll = s.pll := rfl
@[simp] theorem updRing_ens (s : State) (i : Nat) (f : Ring → Ring) : (s.updRing i f).ens = s.ens := rfl
@[simp] theorem updRing_addrPins (s : State) (i : Nat) (f : Ring → Ring) : (s.updRing i f).addrPins = s.addrPins := rfl
@[simp] theorem updRing_index (s : State) (i : Nat) (f : Ring → Ring) : (s.updRing i f).index = s.index := rfl
@[simp] theorem updRing_rings (s : State) (i : Nat) (f : Ring → Ring) : (s.updRing i f).rings = upd s.rings i f := rfl
@[simp] theorem updRing_evtHeld (s : State) (i : Nat) (f : Ring → Ring) : (s.updRing i f).evtHeld = s.evtHeld := rfl
@[simp] theorem updRing_evtNow (s : State) (i : Nat) (f : Ring → Ring) : (s.updRing i f).evtNow = s.evtNow := rfl
@[simp] theorem updRing_irqHeld (s : State) (i : Nat) (f : Ring → Ring) : (s.updRing i f).irqHeld = s.irqHeld := rfl
@[simp] theorem updRing_evtLog (s : State) (i : Nat) (f : Ring → Ring) : (s.updRing i f).evtLog = s.evtLog := rfl
@[simp] theorem updRing_doms (s : State) (i : Nat) (f : Ring → Ring) : (s.updRing i f).doms = s.doms := rfl
@[simp] theorem updRing_change (s : State) (i : Nat) (f : Ring → Ring) : (s.updRing i f).change = s.change := rfl
@[simp] theorem updRing_lift (s : State) (i : Nat) (f : Ring → Ring) : (s.updRing i f).lift = s.lift := rfl
@[simp] theorem updRing_pvdd (s : State) (i : Nat) (f : Ring → Ring) : (s.updRing i f).pvdd = s.pvdd := rfl
@[simp] theorem updRing_resetHold (s : State) (i : Nat) (f : Ring → Ring) : (s.updRing i f).resetHold = s.resetHold := rfl
@[simp] theorem updRing_ports (s : State) (i : Nat) (f : Ring → Ring) : (s.updRing i f).ports = s.ports := rfl
@[simp] theorem updRing_claims (s : State) (i : Nat) (f : Ring → Ring) : (s.updRing i f).claims = s.claims := rfl
@[simp] theorem updRing_txn (s : State) (i : Nat) (f : Ring → Ring) : (s.updRing i f).txn = s.txn := rfl
@[simp] theorem updRing_saps (s : State) (i : Nat) (f : Ring → Ring) : (s.updRing i f).saps = s.saps := rfl
@[simp] theorem updRing_grps (s : State) (i : Nat) (f : Ring → Ring) : (s.updRing i f).grps = s.grps := rfl
@[simp] theorem updRing_portSrc (s : State) (i : Nat) (f : Ring → Ring) : (s.updRing i f).portSrc = s.portSrc := rfl
@[simp] theorem updRing_portSink (s : State) (i : Nat) (f : Ring → Ring) : (s.updRing i f).portSink = s.portSink := rfl
@[simp] theorem updRing_asrcs (s : State) (i : Nat) (f : Ring → Ring) : (s.updRing i f).asrcs = s.asrcs := rfl
@[simp] theorem updRing_dlines (s : State) (i : Nat) (f : Ring → Ring) : (s.updRing i f).dlines = s.dlines := rfl
@[simp] theorem updRing_crcs (s : State) (i : Nat) (f : Ring → Ring) : (s.updRing i f).crcs = s.crcs := rfl
@[simp] theorem updRing_crcOwner (s : State) (i : Nat) (f : Ring → Ring) : (s.updRing i f).crcOwner = s.crcOwner := rfl
@[simp] theorem updRing_ains (s : State) (i : Nat) (f : Ring → Ring) : (s.updRing i f).ains = s.ains := rfl
@[simp] theorem updRing_ainOut (s : State) (i : Nat) (f : Ring → Ring) : (s.updRing i f).ainOut = s.ainOut := rfl
@[simp] theorem updRing_tdacQ (s : State) (i : Nat) (f : Ring → Ring) : (s.updRing i f).tdacQ = s.tdacQ := rfl
@[simp] theorem updRing_tdacOwner (s : State) (i : Nat) (f : Ring → Ring) : (s.updRing i f).tdacOwner = s.tdacOwner := rfl
@[simp] theorem updRing_tdac (s : State) (i : Nat) (f : Ring → Ring) : (s.updRing i f).tdac = s.tdac := rfl
@[simp] theorem updRing_fab (s : State) (i : Nat) (f : Ring → Ring) : (s.updRing i f).fab = s.fab := rfl
@[simp] theorem updRing_gains (s : State) (i : Nat) (f : Ring → Ring) : (s.updRing i f).gains = s.gains := rfl
@[simp] theorem updRing_senseOut (s : State) (i : Nat) (f : Ring → Ring) : (s.updRing i f).senseOut = s.senseOut := rfl
@[simp] theorem updRing_injOut (s : State) (i : Nat) (f : Ring → Ring) : (s.updRing i f).injOut = s.injOut := rfl
@[simp] theorem updRing_outs (s : State) (i : Nat) (f : Ring → Ring) : (s.updRing i f).outs = s.outs := rfl
@[simp] theorem updRing_cpOn (s : State) (i : Nat) (f : Ring → Ring) : (s.updRing i f).cpOn = s.cpOn := rfl
@[simp] theorem updRing_jacks (s : State) (i : Nat) (f : Ring → Ring) : (s.updRing i f).jacks = s.jacks := rfl
@[simp] theorem updRing_jackTrig (s : State) (i : Nat) (f : Ring → Ring) : (s.updRing i f).jackTrig = s.jackTrig := rfl
@[simp] theorem updRing_jackFired (s : State) (i : Nat) (f : Ring → Ring) : (s.updRing i f).jackFired = s.jackFired := rfl
@[simp] theorem updRing_jackPages (s : State) (i : Nat) (f : Ring → Ring) : (s.updRing i f).jackPages = s.jackPages := rfl
@[simp] theorem updRing_hka (s : State) (i : Nat) (f : Ring → Ring) : (s.updRing i f).hka = s.hka := rfl
@[simp] theorem updRing_amps (s : State) (i : Nat) (f : Ring → Ring) : (s.updRing i f).amps = s.amps := rfl
@[simp] theorem updRing_sag (s : State) (i : Nat) (f : Ring → Ring) : (s.updRing i f).sag = s.sag := rfl
@[simp] theorem updRing_boot (s : State) (i : Nat) (f : Ring → Ring) : (s.updRing i f).boot = s.boot := rfl
@[simp] theorem updRing_fuses (s : State) (i : Nat) (f : Ring → Ring) : (s.updRing i f).fuses = s.fuses := rfl
@[simp] theorem updRing_fusesRead (s : State) (i : Nat) (f : Ring → Ring) : (s.updRing i f).fusesRead = s.fusesRead := rfl
@[simp] theorem updRing_blow (s : State) (i : Nat) (f : Ring → Ring) : (s.updRing i f).blow = s.blow := rfl
@[simp] theorem updRing_injs (s : State) (i : Nat) (f : Ring → Ring) : (s.updRing i f).injs = s.injs := rfl
@[simp] theorem updRing_caps (s : State) (i : Nat) (f : Ring → Ring) : (s.updRing i f).caps = s.caps := rfl
@[simp] theorem updRing_book (s : State) (i : Nat) (f : Ring → Ring) : (s.updRing i f).book = s.book := rfl
@[simp] theorem updRing_irqCopy (s : State) (i : Nat) (f : Ring → Ring) : (s.updRing i f).irqCopy = s.irqCopy := rfl
@[simp] theorem updRing_xportCopy (s : State) (i : Nat) (f : Ring → Ring) : (s.updRing i f).xportCopy = s.xportCopy := rfl
@[simp] theorem updRing_vio (s : State) (i : Nat) (f : Ring → Ring) : (s.updRing i f).vio = s.vio := rfl
@[simp] theorem updRing_esd (s : State) (i : Nat) (f : Ring → Ring) : (s.updRing i f).esd = s.esd := rfl

/-! ## updSap -/

@[simp] theorem updSap_pending (s : State) (n : Fin 32) (f : Sap → Sap) : (s.updSap n f).pending = s.pending := rfl
@[simp] theorem updSap_fresh (s : State) (n : Fin 32) (f : Sap → Sap) : (s.updSap n f).fresh = s.fresh := rfl
@[simp] theorem updSap_bus (s : State) (n : Fin 32) (f : Sap → Sap) : (s.updSap n f).bus = s.bus := rfl
@[simp] theorem updSap_regs (s : State) (n : Fin 32) (f : Sap → Sap) : (s.updSap n f).regs = s.regs := rfl
@[simp] theorem updSap_mem (s : State) (n : Fin 32) (f : Sap → Sap) : (s.updSap n f).mem = s.mem := rfl
@[simp] theorem updSap_pageVers (s : State) (n : Fin 32) (f : Sap → Sap) : (s.updSap n f).pageVers = s.pageVers := rfl
@[simp] theorem updSap_cfgPend (s : State) (n : Fin 32) (f : Sap → Sap) : (s.updSap n f).cfgPend = s.cfgPend := rfl
@[simp] theorem updSap_tickWrites (s : State) (n : Fin 32) (f : Sap → Sap) : (s.updSap n f).tickWrites = s.tickWrites := rfl
@[simp] theorem updSap_syscnt (s : State) (n : Fin 32) (f : Sap → Sap) : (s.updSap n f).syscnt = s.syscnt := rfl
@[simp] theorem updSap_coarse (s : State) (n : Fin 32) (f : Sap → Sap) : (s.updSap n f).coarse = s.coarse := rfl
@[simp] theorem updSap_sysHold (s : State) (n : Fin 32) (f : Sap → Sap) : (s.updSap n f).sysHold = s.sysHold := rfl
@[simp] theorem updSap_tickcnt (s : State) (n : Fin 32) (f : Sap → Sap) : (s.updSap n f).tickcnt = s.tickcnt := rfl
@[simp] theorem updSap_tickSys (s : State) (n : Fin 32) (f : Sap → Sap) : (s.updSap n f).tickSys = s.tickSys := rfl
@[simp] theorem updSap_ticks (s : State) (n : Fin 32) (f : Sap → Sap) : (s.updSap n f).ticks = s.ticks := rfl
@[simp] theorem updSap_boundary (s : State) (n : Fin 32) (f : Sap → Sap) : (s.updSap n f).boundary = s.boundary := rfl
@[simp] theorem updSap_mons (s : State) (n : Fin 32) (f : Sap → Sap) : (s.updSap n f).mons = s.mons := rfl
@[simp] theorem updSap_pll (s : State) (n : Fin 32) (f : Sap → Sap) : (s.updSap n f).pll = s.pll := rfl
@[simp] theorem updSap_ens (s : State) (n : Fin 32) (f : Sap → Sap) : (s.updSap n f).ens = s.ens := rfl
@[simp] theorem updSap_addrPins (s : State) (n : Fin 32) (f : Sap → Sap) : (s.updSap n f).addrPins = s.addrPins := rfl
@[simp] theorem updSap_index (s : State) (n : Fin 32) (f : Sap → Sap) : (s.updSap n f).index = s.index := rfl
@[simp] theorem updSap_rings (s : State) (n : Fin 32) (f : Sap → Sap) : (s.updSap n f).rings = s.rings := rfl
@[simp] theorem updSap_evtHeld (s : State) (n : Fin 32) (f : Sap → Sap) : (s.updSap n f).evtHeld = s.evtHeld := rfl
@[simp] theorem updSap_evtNow (s : State) (n : Fin 32) (f : Sap → Sap) : (s.updSap n f).evtNow = s.evtNow := rfl
@[simp] theorem updSap_irqHeld (s : State) (n : Fin 32) (f : Sap → Sap) : (s.updSap n f).irqHeld = s.irqHeld := rfl
@[simp] theorem updSap_evtLog (s : State) (n : Fin 32) (f : Sap → Sap) : (s.updSap n f).evtLog = s.evtLog := rfl
@[simp] theorem updSap_doms (s : State) (n : Fin 32) (f : Sap → Sap) : (s.updSap n f).doms = s.doms := rfl
@[simp] theorem updSap_change (s : State) (n : Fin 32) (f : Sap → Sap) : (s.updSap n f).change = s.change := rfl
@[simp] theorem updSap_lift (s : State) (n : Fin 32) (f : Sap → Sap) : (s.updSap n f).lift = s.lift := rfl
@[simp] theorem updSap_pvdd (s : State) (n : Fin 32) (f : Sap → Sap) : (s.updSap n f).pvdd = s.pvdd := rfl
@[simp] theorem updSap_resetHold (s : State) (n : Fin 32) (f : Sap → Sap) : (s.updSap n f).resetHold = s.resetHold := rfl
@[simp] theorem updSap_ports (s : State) (n : Fin 32) (f : Sap → Sap) : (s.updSap n f).ports = s.ports := rfl
@[simp] theorem updSap_claims (s : State) (n : Fin 32) (f : Sap → Sap) : (s.updSap n f).claims = s.claims := rfl
@[simp] theorem updSap_txn (s : State) (n : Fin 32) (f : Sap → Sap) : (s.updSap n f).txn = s.txn := rfl
@[simp] theorem updSap_saps (s : State) (n : Fin 32) (f : Sap → Sap) : (s.updSap n f).saps = s.saps.set n (f s.saps[n]) := rfl
@[simp] theorem updSap_grps (s : State) (n : Fin 32) (f : Sap → Sap) : (s.updSap n f).grps = s.grps := rfl
@[simp] theorem updSap_portSrc (s : State) (n : Fin 32) (f : Sap → Sap) : (s.updSap n f).portSrc = s.portSrc := rfl
@[simp] theorem updSap_portSink (s : State) (n : Fin 32) (f : Sap → Sap) : (s.updSap n f).portSink = s.portSink := rfl
@[simp] theorem updSap_asrcs (s : State) (n : Fin 32) (f : Sap → Sap) : (s.updSap n f).asrcs = s.asrcs := rfl
@[simp] theorem updSap_dlines (s : State) (n : Fin 32) (f : Sap → Sap) : (s.updSap n f).dlines = s.dlines := rfl
@[simp] theorem updSap_crcs (s : State) (n : Fin 32) (f : Sap → Sap) : (s.updSap n f).crcs = s.crcs := rfl
@[simp] theorem updSap_crcOwner (s : State) (n : Fin 32) (f : Sap → Sap) : (s.updSap n f).crcOwner = s.crcOwner := rfl
@[simp] theorem updSap_ains (s : State) (n : Fin 32) (f : Sap → Sap) : (s.updSap n f).ains = s.ains := rfl
@[simp] theorem updSap_ainOut (s : State) (n : Fin 32) (f : Sap → Sap) : (s.updSap n f).ainOut = s.ainOut := rfl
@[simp] theorem updSap_tdacQ (s : State) (n : Fin 32) (f : Sap → Sap) : (s.updSap n f).tdacQ = s.tdacQ := rfl
@[simp] theorem updSap_tdacOwner (s : State) (n : Fin 32) (f : Sap → Sap) : (s.updSap n f).tdacOwner = s.tdacOwner := rfl
@[simp] theorem updSap_tdac (s : State) (n : Fin 32) (f : Sap → Sap) : (s.updSap n f).tdac = s.tdac := rfl
@[simp] theorem updSap_fab (s : State) (n : Fin 32) (f : Sap → Sap) : (s.updSap n f).fab = s.fab := rfl
@[simp] theorem updSap_gains (s : State) (n : Fin 32) (f : Sap → Sap) : (s.updSap n f).gains = s.gains := rfl
@[simp] theorem updSap_senseOut (s : State) (n : Fin 32) (f : Sap → Sap) : (s.updSap n f).senseOut = s.senseOut := rfl
@[simp] theorem updSap_injOut (s : State) (n : Fin 32) (f : Sap → Sap) : (s.updSap n f).injOut = s.injOut := rfl
@[simp] theorem updSap_outs (s : State) (n : Fin 32) (f : Sap → Sap) : (s.updSap n f).outs = s.outs := rfl
@[simp] theorem updSap_cpOn (s : State) (n : Fin 32) (f : Sap → Sap) : (s.updSap n f).cpOn = s.cpOn := rfl
@[simp] theorem updSap_jacks (s : State) (n : Fin 32) (f : Sap → Sap) : (s.updSap n f).jacks = s.jacks := rfl
@[simp] theorem updSap_jackTrig (s : State) (n : Fin 32) (f : Sap → Sap) : (s.updSap n f).jackTrig = s.jackTrig := rfl
@[simp] theorem updSap_jackFired (s : State) (n : Fin 32) (f : Sap → Sap) : (s.updSap n f).jackFired = s.jackFired := rfl
@[simp] theorem updSap_jackPages (s : State) (n : Fin 32) (f : Sap → Sap) : (s.updSap n f).jackPages = s.jackPages := rfl
@[simp] theorem updSap_hka (s : State) (n : Fin 32) (f : Sap → Sap) : (s.updSap n f).hka = s.hka := rfl
@[simp] theorem updSap_amps (s : State) (n : Fin 32) (f : Sap → Sap) : (s.updSap n f).amps = s.amps := rfl
@[simp] theorem updSap_sag (s : State) (n : Fin 32) (f : Sap → Sap) : (s.updSap n f).sag = s.sag := rfl
@[simp] theorem updSap_boot (s : State) (n : Fin 32) (f : Sap → Sap) : (s.updSap n f).boot = s.boot := rfl
@[simp] theorem updSap_fuses (s : State) (n : Fin 32) (f : Sap → Sap) : (s.updSap n f).fuses = s.fuses := rfl
@[simp] theorem updSap_fusesRead (s : State) (n : Fin 32) (f : Sap → Sap) : (s.updSap n f).fusesRead = s.fusesRead := rfl
@[simp] theorem updSap_blow (s : State) (n : Fin 32) (f : Sap → Sap) : (s.updSap n f).blow = s.blow := rfl
@[simp] theorem updSap_injs (s : State) (n : Fin 32) (f : Sap → Sap) : (s.updSap n f).injs = s.injs := rfl
@[simp] theorem updSap_caps (s : State) (n : Fin 32) (f : Sap → Sap) : (s.updSap n f).caps = s.caps := rfl
@[simp] theorem updSap_book (s : State) (n : Fin 32) (f : Sap → Sap) : (s.updSap n f).book = s.book := rfl
@[simp] theorem updSap_irqCopy (s : State) (n : Fin 32) (f : Sap → Sap) : (s.updSap n f).irqCopy = s.irqCopy := rfl
@[simp] theorem updSap_xportCopy (s : State) (n : Fin 32) (f : Sap → Sap) : (s.updSap n f).xportCopy = s.xportCopy := rfl
@[simp] theorem updSap_vio (s : State) (n : Fin 32) (f : Sap → Sap) : (s.updSap n f).vio = s.vio := rfl
@[simp] theorem updSap_esd (s : State) (n : Fin 32) (f : Sap → Sap) : (s.updSap n f).esd = s.esd := rfl

/-! ## updAsrc -/

@[simp] theorem updAsrc_pending (s : State) (i : Nat) (f : Asrc → Asrc) : (s.updAsrc i f).pending = s.pending := rfl
@[simp] theorem updAsrc_fresh (s : State) (i : Nat) (f : Asrc → Asrc) : (s.updAsrc i f).fresh = s.fresh := rfl
@[simp] theorem updAsrc_bus (s : State) (i : Nat) (f : Asrc → Asrc) : (s.updAsrc i f).bus = s.bus := rfl
@[simp] theorem updAsrc_regs (s : State) (i : Nat) (f : Asrc → Asrc) : (s.updAsrc i f).regs = s.regs := rfl
@[simp] theorem updAsrc_mem (s : State) (i : Nat) (f : Asrc → Asrc) : (s.updAsrc i f).mem = s.mem := rfl
@[simp] theorem updAsrc_pageVers (s : State) (i : Nat) (f : Asrc → Asrc) : (s.updAsrc i f).pageVers = s.pageVers := rfl
@[simp] theorem updAsrc_cfgPend (s : State) (i : Nat) (f : Asrc → Asrc) : (s.updAsrc i f).cfgPend = s.cfgPend := rfl
@[simp] theorem updAsrc_tickWrites (s : State) (i : Nat) (f : Asrc → Asrc) : (s.updAsrc i f).tickWrites = s.tickWrites := rfl
@[simp] theorem updAsrc_syscnt (s : State) (i : Nat) (f : Asrc → Asrc) : (s.updAsrc i f).syscnt = s.syscnt := rfl
@[simp] theorem updAsrc_coarse (s : State) (i : Nat) (f : Asrc → Asrc) : (s.updAsrc i f).coarse = s.coarse := rfl
@[simp] theorem updAsrc_sysHold (s : State) (i : Nat) (f : Asrc → Asrc) : (s.updAsrc i f).sysHold = s.sysHold := rfl
@[simp] theorem updAsrc_tickcnt (s : State) (i : Nat) (f : Asrc → Asrc) : (s.updAsrc i f).tickcnt = s.tickcnt := rfl
@[simp] theorem updAsrc_tickSys (s : State) (i : Nat) (f : Asrc → Asrc) : (s.updAsrc i f).tickSys = s.tickSys := rfl
@[simp] theorem updAsrc_ticks (s : State) (i : Nat) (f : Asrc → Asrc) : (s.updAsrc i f).ticks = s.ticks := rfl
@[simp] theorem updAsrc_boundary (s : State) (i : Nat) (f : Asrc → Asrc) : (s.updAsrc i f).boundary = s.boundary := rfl
@[simp] theorem updAsrc_mons (s : State) (i : Nat) (f : Asrc → Asrc) : (s.updAsrc i f).mons = s.mons := rfl
@[simp] theorem updAsrc_pll (s : State) (i : Nat) (f : Asrc → Asrc) : (s.updAsrc i f).pll = s.pll := rfl
@[simp] theorem updAsrc_ens (s : State) (i : Nat) (f : Asrc → Asrc) : (s.updAsrc i f).ens = s.ens := rfl
@[simp] theorem updAsrc_addrPins (s : State) (i : Nat) (f : Asrc → Asrc) : (s.updAsrc i f).addrPins = s.addrPins := rfl
@[simp] theorem updAsrc_index (s : State) (i : Nat) (f : Asrc → Asrc) : (s.updAsrc i f).index = s.index := rfl
@[simp] theorem updAsrc_rings (s : State) (i : Nat) (f : Asrc → Asrc) : (s.updAsrc i f).rings = s.rings := rfl
@[simp] theorem updAsrc_evtHeld (s : State) (i : Nat) (f : Asrc → Asrc) : (s.updAsrc i f).evtHeld = s.evtHeld := rfl
@[simp] theorem updAsrc_evtNow (s : State) (i : Nat) (f : Asrc → Asrc) : (s.updAsrc i f).evtNow = s.evtNow := rfl
@[simp] theorem updAsrc_irqHeld (s : State) (i : Nat) (f : Asrc → Asrc) : (s.updAsrc i f).irqHeld = s.irqHeld := rfl
@[simp] theorem updAsrc_evtLog (s : State) (i : Nat) (f : Asrc → Asrc) : (s.updAsrc i f).evtLog = s.evtLog := rfl
@[simp] theorem updAsrc_doms (s : State) (i : Nat) (f : Asrc → Asrc) : (s.updAsrc i f).doms = s.doms := rfl
@[simp] theorem updAsrc_change (s : State) (i : Nat) (f : Asrc → Asrc) : (s.updAsrc i f).change = s.change := rfl
@[simp] theorem updAsrc_lift (s : State) (i : Nat) (f : Asrc → Asrc) : (s.updAsrc i f).lift = s.lift := rfl
@[simp] theorem updAsrc_pvdd (s : State) (i : Nat) (f : Asrc → Asrc) : (s.updAsrc i f).pvdd = s.pvdd := rfl
@[simp] theorem updAsrc_resetHold (s : State) (i : Nat) (f : Asrc → Asrc) : (s.updAsrc i f).resetHold = s.resetHold := rfl
@[simp] theorem updAsrc_ports (s : State) (i : Nat) (f : Asrc → Asrc) : (s.updAsrc i f).ports = s.ports := rfl
@[simp] theorem updAsrc_claims (s : State) (i : Nat) (f : Asrc → Asrc) : (s.updAsrc i f).claims = s.claims := rfl
@[simp] theorem updAsrc_txn (s : State) (i : Nat) (f : Asrc → Asrc) : (s.updAsrc i f).txn = s.txn := rfl
@[simp] theorem updAsrc_saps (s : State) (i : Nat) (f : Asrc → Asrc) : (s.updAsrc i f).saps = s.saps := rfl
@[simp] theorem updAsrc_grps (s : State) (i : Nat) (f : Asrc → Asrc) : (s.updAsrc i f).grps = s.grps := rfl
@[simp] theorem updAsrc_portSrc (s : State) (i : Nat) (f : Asrc → Asrc) : (s.updAsrc i f).portSrc = s.portSrc := rfl
@[simp] theorem updAsrc_portSink (s : State) (i : Nat) (f : Asrc → Asrc) : (s.updAsrc i f).portSink = s.portSink := rfl
@[simp] theorem updAsrc_asrcs (s : State) (i : Nat) (f : Asrc → Asrc) : (s.updAsrc i f).asrcs = upd s.asrcs i f := rfl
@[simp] theorem updAsrc_dlines (s : State) (i : Nat) (f : Asrc → Asrc) : (s.updAsrc i f).dlines = s.dlines := rfl
@[simp] theorem updAsrc_crcs (s : State) (i : Nat) (f : Asrc → Asrc) : (s.updAsrc i f).crcs = s.crcs := rfl
@[simp] theorem updAsrc_crcOwner (s : State) (i : Nat) (f : Asrc → Asrc) : (s.updAsrc i f).crcOwner = s.crcOwner := rfl
@[simp] theorem updAsrc_ains (s : State) (i : Nat) (f : Asrc → Asrc) : (s.updAsrc i f).ains = s.ains := rfl
@[simp] theorem updAsrc_ainOut (s : State) (i : Nat) (f : Asrc → Asrc) : (s.updAsrc i f).ainOut = s.ainOut := rfl
@[simp] theorem updAsrc_tdacQ (s : State) (i : Nat) (f : Asrc → Asrc) : (s.updAsrc i f).tdacQ = s.tdacQ := rfl
@[simp] theorem updAsrc_tdacOwner (s : State) (i : Nat) (f : Asrc → Asrc) : (s.updAsrc i f).tdacOwner = s.tdacOwner := rfl
@[simp] theorem updAsrc_tdac (s : State) (i : Nat) (f : Asrc → Asrc) : (s.updAsrc i f).tdac = s.tdac := rfl
@[simp] theorem updAsrc_fab (s : State) (i : Nat) (f : Asrc → Asrc) : (s.updAsrc i f).fab = s.fab := rfl
@[simp] theorem updAsrc_gains (s : State) (i : Nat) (f : Asrc → Asrc) : (s.updAsrc i f).gains = s.gains := rfl
@[simp] theorem updAsrc_senseOut (s : State) (i : Nat) (f : Asrc → Asrc) : (s.updAsrc i f).senseOut = s.senseOut := rfl
@[simp] theorem updAsrc_injOut (s : State) (i : Nat) (f : Asrc → Asrc) : (s.updAsrc i f).injOut = s.injOut := rfl
@[simp] theorem updAsrc_outs (s : State) (i : Nat) (f : Asrc → Asrc) : (s.updAsrc i f).outs = s.outs := rfl
@[simp] theorem updAsrc_cpOn (s : State) (i : Nat) (f : Asrc → Asrc) : (s.updAsrc i f).cpOn = s.cpOn := rfl
@[simp] theorem updAsrc_jacks (s : State) (i : Nat) (f : Asrc → Asrc) : (s.updAsrc i f).jacks = s.jacks := rfl
@[simp] theorem updAsrc_jackTrig (s : State) (i : Nat) (f : Asrc → Asrc) : (s.updAsrc i f).jackTrig = s.jackTrig := rfl
@[simp] theorem updAsrc_jackFired (s : State) (i : Nat) (f : Asrc → Asrc) : (s.updAsrc i f).jackFired = s.jackFired := rfl
@[simp] theorem updAsrc_jackPages (s : State) (i : Nat) (f : Asrc → Asrc) : (s.updAsrc i f).jackPages = s.jackPages := rfl
@[simp] theorem updAsrc_hka (s : State) (i : Nat) (f : Asrc → Asrc) : (s.updAsrc i f).hka = s.hka := rfl
@[simp] theorem updAsrc_amps (s : State) (i : Nat) (f : Asrc → Asrc) : (s.updAsrc i f).amps = s.amps := rfl
@[simp] theorem updAsrc_sag (s : State) (i : Nat) (f : Asrc → Asrc) : (s.updAsrc i f).sag = s.sag := rfl
@[simp] theorem updAsrc_boot (s : State) (i : Nat) (f : Asrc → Asrc) : (s.updAsrc i f).boot = s.boot := rfl
@[simp] theorem updAsrc_fuses (s : State) (i : Nat) (f : Asrc → Asrc) : (s.updAsrc i f).fuses = s.fuses := rfl
@[simp] theorem updAsrc_fusesRead (s : State) (i : Nat) (f : Asrc → Asrc) : (s.updAsrc i f).fusesRead = s.fusesRead := rfl
@[simp] theorem updAsrc_blow (s : State) (i : Nat) (f : Asrc → Asrc) : (s.updAsrc i f).blow = s.blow := rfl
@[simp] theorem updAsrc_injs (s : State) (i : Nat) (f : Asrc → Asrc) : (s.updAsrc i f).injs = s.injs := rfl
@[simp] theorem updAsrc_caps (s : State) (i : Nat) (f : Asrc → Asrc) : (s.updAsrc i f).caps = s.caps := rfl
@[simp] theorem updAsrc_book (s : State) (i : Nat) (f : Asrc → Asrc) : (s.updAsrc i f).book = s.book := rfl
@[simp] theorem updAsrc_irqCopy (s : State) (i : Nat) (f : Asrc → Asrc) : (s.updAsrc i f).irqCopy = s.irqCopy := rfl
@[simp] theorem updAsrc_xportCopy (s : State) (i : Nat) (f : Asrc → Asrc) : (s.updAsrc i f).xportCopy = s.xportCopy := rfl
@[simp] theorem updAsrc_vio (s : State) (i : Nat) (f : Asrc → Asrc) : (s.updAsrc i f).vio = s.vio := rfl
@[simp] theorem updAsrc_esd (s : State) (i : Nat) (f : Asrc → Asrc) : (s.updAsrc i f).esd = s.esd := rfl

/-! ## updAin -/

@[simp] theorem updAin_pending (s : State) (n : Fin 16) (f : Ain → Ain) : (s.updAin n f).pending = s.pending := rfl
@[simp] theorem updAin_fresh (s : State) (n : Fin 16) (f : Ain → Ain) : (s.updAin n f).fresh = s.fresh := rfl
@[simp] theorem updAin_bus (s : State) (n : Fin 16) (f : Ain → Ain) : (s.updAin n f).bus = s.bus := rfl
@[simp] theorem updAin_regs (s : State) (n : Fin 16) (f : Ain → Ain) : (s.updAin n f).regs = s.regs := rfl
@[simp] theorem updAin_mem (s : State) (n : Fin 16) (f : Ain → Ain) : (s.updAin n f).mem = s.mem := rfl
@[simp] theorem updAin_pageVers (s : State) (n : Fin 16) (f : Ain → Ain) : (s.updAin n f).pageVers = s.pageVers := rfl
@[simp] theorem updAin_cfgPend (s : State) (n : Fin 16) (f : Ain → Ain) : (s.updAin n f).cfgPend = s.cfgPend := rfl
@[simp] theorem updAin_tickWrites (s : State) (n : Fin 16) (f : Ain → Ain) : (s.updAin n f).tickWrites = s.tickWrites := rfl
@[simp] theorem updAin_syscnt (s : State) (n : Fin 16) (f : Ain → Ain) : (s.updAin n f).syscnt = s.syscnt := rfl
@[simp] theorem updAin_coarse (s : State) (n : Fin 16) (f : Ain → Ain) : (s.updAin n f).coarse = s.coarse := rfl
@[simp] theorem updAin_sysHold (s : State) (n : Fin 16) (f : Ain → Ain) : (s.updAin n f).sysHold = s.sysHold := rfl
@[simp] theorem updAin_tickcnt (s : State) (n : Fin 16) (f : Ain → Ain) : (s.updAin n f).tickcnt = s.tickcnt := rfl
@[simp] theorem updAin_tickSys (s : State) (n : Fin 16) (f : Ain → Ain) : (s.updAin n f).tickSys = s.tickSys := rfl
@[simp] theorem updAin_ticks (s : State) (n : Fin 16) (f : Ain → Ain) : (s.updAin n f).ticks = s.ticks := rfl
@[simp] theorem updAin_boundary (s : State) (n : Fin 16) (f : Ain → Ain) : (s.updAin n f).boundary = s.boundary := rfl
@[simp] theorem updAin_mons (s : State) (n : Fin 16) (f : Ain → Ain) : (s.updAin n f).mons = s.mons := rfl
@[simp] theorem updAin_pll (s : State) (n : Fin 16) (f : Ain → Ain) : (s.updAin n f).pll = s.pll := rfl
@[simp] theorem updAin_ens (s : State) (n : Fin 16) (f : Ain → Ain) : (s.updAin n f).ens = s.ens := rfl
@[simp] theorem updAin_addrPins (s : State) (n : Fin 16) (f : Ain → Ain) : (s.updAin n f).addrPins = s.addrPins := rfl
@[simp] theorem updAin_index (s : State) (n : Fin 16) (f : Ain → Ain) : (s.updAin n f).index = s.index := rfl
@[simp] theorem updAin_rings (s : State) (n : Fin 16) (f : Ain → Ain) : (s.updAin n f).rings = s.rings := rfl
@[simp] theorem updAin_evtHeld (s : State) (n : Fin 16) (f : Ain → Ain) : (s.updAin n f).evtHeld = s.evtHeld := rfl
@[simp] theorem updAin_evtNow (s : State) (n : Fin 16) (f : Ain → Ain) : (s.updAin n f).evtNow = s.evtNow := rfl
@[simp] theorem updAin_irqHeld (s : State) (n : Fin 16) (f : Ain → Ain) : (s.updAin n f).irqHeld = s.irqHeld := rfl
@[simp] theorem updAin_evtLog (s : State) (n : Fin 16) (f : Ain → Ain) : (s.updAin n f).evtLog = s.evtLog := rfl
@[simp] theorem updAin_doms (s : State) (n : Fin 16) (f : Ain → Ain) : (s.updAin n f).doms = s.doms := rfl
@[simp] theorem updAin_change (s : State) (n : Fin 16) (f : Ain → Ain) : (s.updAin n f).change = s.change := rfl
@[simp] theorem updAin_lift (s : State) (n : Fin 16) (f : Ain → Ain) : (s.updAin n f).lift = s.lift := rfl
@[simp] theorem updAin_pvdd (s : State) (n : Fin 16) (f : Ain → Ain) : (s.updAin n f).pvdd = s.pvdd := rfl
@[simp] theorem updAin_resetHold (s : State) (n : Fin 16) (f : Ain → Ain) : (s.updAin n f).resetHold = s.resetHold := rfl
@[simp] theorem updAin_ports (s : State) (n : Fin 16) (f : Ain → Ain) : (s.updAin n f).ports = s.ports := rfl
@[simp] theorem updAin_claims (s : State) (n : Fin 16) (f : Ain → Ain) : (s.updAin n f).claims = s.claims := rfl
@[simp] theorem updAin_txn (s : State) (n : Fin 16) (f : Ain → Ain) : (s.updAin n f).txn = s.txn := rfl
@[simp] theorem updAin_saps (s : State) (n : Fin 16) (f : Ain → Ain) : (s.updAin n f).saps = s.saps := rfl
@[simp] theorem updAin_grps (s : State) (n : Fin 16) (f : Ain → Ain) : (s.updAin n f).grps = s.grps := rfl
@[simp] theorem updAin_portSrc (s : State) (n : Fin 16) (f : Ain → Ain) : (s.updAin n f).portSrc = s.portSrc := rfl
@[simp] theorem updAin_portSink (s : State) (n : Fin 16) (f : Ain → Ain) : (s.updAin n f).portSink = s.portSink := rfl
@[simp] theorem updAin_asrcs (s : State) (n : Fin 16) (f : Ain → Ain) : (s.updAin n f).asrcs = s.asrcs := rfl
@[simp] theorem updAin_dlines (s : State) (n : Fin 16) (f : Ain → Ain) : (s.updAin n f).dlines = s.dlines := rfl
@[simp] theorem updAin_crcs (s : State) (n : Fin 16) (f : Ain → Ain) : (s.updAin n f).crcs = s.crcs := rfl
@[simp] theorem updAin_crcOwner (s : State) (n : Fin 16) (f : Ain → Ain) : (s.updAin n f).crcOwner = s.crcOwner := rfl
@[simp] theorem updAin_ains (s : State) (n : Fin 16) (f : Ain → Ain) : (s.updAin n f).ains = s.ains.set n (f s.ains[n]) := rfl
@[simp] theorem updAin_ainOut (s : State) (n : Fin 16) (f : Ain → Ain) : (s.updAin n f).ainOut = s.ainOut := rfl
@[simp] theorem updAin_tdacQ (s : State) (n : Fin 16) (f : Ain → Ain) : (s.updAin n f).tdacQ = s.tdacQ := rfl
@[simp] theorem updAin_tdacOwner (s : State) (n : Fin 16) (f : Ain → Ain) : (s.updAin n f).tdacOwner = s.tdacOwner := rfl
@[simp] theorem updAin_tdac (s : State) (n : Fin 16) (f : Ain → Ain) : (s.updAin n f).tdac = s.tdac := rfl
@[simp] theorem updAin_fab (s : State) (n : Fin 16) (f : Ain → Ain) : (s.updAin n f).fab = s.fab := rfl
@[simp] theorem updAin_gains (s : State) (n : Fin 16) (f : Ain → Ain) : (s.updAin n f).gains = s.gains := rfl
@[simp] theorem updAin_senseOut (s : State) (n : Fin 16) (f : Ain → Ain) : (s.updAin n f).senseOut = s.senseOut := rfl
@[simp] theorem updAin_injOut (s : State) (n : Fin 16) (f : Ain → Ain) : (s.updAin n f).injOut = s.injOut := rfl
@[simp] theorem updAin_outs (s : State) (n : Fin 16) (f : Ain → Ain) : (s.updAin n f).outs = s.outs := rfl
@[simp] theorem updAin_cpOn (s : State) (n : Fin 16) (f : Ain → Ain) : (s.updAin n f).cpOn = s.cpOn := rfl
@[simp] theorem updAin_jacks (s : State) (n : Fin 16) (f : Ain → Ain) : (s.updAin n f).jacks = s.jacks := rfl
@[simp] theorem updAin_jackTrig (s : State) (n : Fin 16) (f : Ain → Ain) : (s.updAin n f).jackTrig = s.jackTrig := rfl
@[simp] theorem updAin_jackFired (s : State) (n : Fin 16) (f : Ain → Ain) : (s.updAin n f).jackFired = s.jackFired := rfl
@[simp] theorem updAin_jackPages (s : State) (n : Fin 16) (f : Ain → Ain) : (s.updAin n f).jackPages = s.jackPages := rfl
@[simp] theorem updAin_hka (s : State) (n : Fin 16) (f : Ain → Ain) : (s.updAin n f).hka = s.hka := rfl
@[simp] theorem updAin_amps (s : State) (n : Fin 16) (f : Ain → Ain) : (s.updAin n f).amps = s.amps := rfl
@[simp] theorem updAin_sag (s : State) (n : Fin 16) (f : Ain → Ain) : (s.updAin n f).sag = s.sag := rfl
@[simp] theorem updAin_boot (s : State) (n : Fin 16) (f : Ain → Ain) : (s.updAin n f).boot = s.boot := rfl
@[simp] theorem updAin_fuses (s : State) (n : Fin 16) (f : Ain → Ain) : (s.updAin n f).fuses = s.fuses := rfl
@[simp] theorem updAin_fusesRead (s : State) (n : Fin 16) (f : Ain → Ain) : (s.updAin n f).fusesRead = s.fusesRead := rfl
@[simp] theorem updAin_blow (s : State) (n : Fin 16) (f : Ain → Ain) : (s.updAin n f).blow = s.blow := rfl
@[simp] theorem updAin_injs (s : State) (n : Fin 16) (f : Ain → Ain) : (s.updAin n f).injs = s.injs := rfl
@[simp] theorem updAin_caps (s : State) (n : Fin 16) (f : Ain → Ain) : (s.updAin n f).caps = s.caps := rfl
@[simp] theorem updAin_book (s : State) (n : Fin 16) (f : Ain → Ain) : (s.updAin n f).book = s.book := rfl
@[simp] theorem updAin_irqCopy (s : State) (n : Fin 16) (f : Ain → Ain) : (s.updAin n f).irqCopy = s.irqCopy := rfl
@[simp] theorem updAin_xportCopy (s : State) (n : Fin 16) (f : Ain → Ain) : (s.updAin n f).xportCopy = s.xportCopy := rfl
@[simp] theorem updAin_vio (s : State) (n : Fin 16) (f : Ain → Ain) : (s.updAin n f).vio = s.vio := rfl
@[simp] theorem updAin_esd (s : State) (n : Fin 16) (f : Ain → Ain) : (s.updAin n f).esd = s.esd := rfl

/-! ## updOut -/

@[simp] theorem updOut_pending (s : State) (o : OutId) (f : Out → Out) : (s.updOut o f).pending = s.pending := rfl
@[simp] theorem updOut_fresh (s : State) (o : OutId) (f : Out → Out) : (s.updOut o f).fresh = s.fresh := rfl
@[simp] theorem updOut_bus (s : State) (o : OutId) (f : Out → Out) : (s.updOut o f).bus = s.bus := rfl
@[simp] theorem updOut_regs (s : State) (o : OutId) (f : Out → Out) : (s.updOut o f).regs = s.regs := rfl
@[simp] theorem updOut_mem (s : State) (o : OutId) (f : Out → Out) : (s.updOut o f).mem = s.mem := rfl
@[simp] theorem updOut_pageVers (s : State) (o : OutId) (f : Out → Out) : (s.updOut o f).pageVers = s.pageVers := rfl
@[simp] theorem updOut_cfgPend (s : State) (o : OutId) (f : Out → Out) : (s.updOut o f).cfgPend = s.cfgPend := rfl
@[simp] theorem updOut_tickWrites (s : State) (o : OutId) (f : Out → Out) : (s.updOut o f).tickWrites = s.tickWrites := rfl
@[simp] theorem updOut_syscnt (s : State) (o : OutId) (f : Out → Out) : (s.updOut o f).syscnt = s.syscnt := rfl
@[simp] theorem updOut_coarse (s : State) (o : OutId) (f : Out → Out) : (s.updOut o f).coarse = s.coarse := rfl
@[simp] theorem updOut_sysHold (s : State) (o : OutId) (f : Out → Out) : (s.updOut o f).sysHold = s.sysHold := rfl
@[simp] theorem updOut_tickcnt (s : State) (o : OutId) (f : Out → Out) : (s.updOut o f).tickcnt = s.tickcnt := rfl
@[simp] theorem updOut_tickSys (s : State) (o : OutId) (f : Out → Out) : (s.updOut o f).tickSys = s.tickSys := rfl
@[simp] theorem updOut_ticks (s : State) (o : OutId) (f : Out → Out) : (s.updOut o f).ticks = s.ticks := rfl
@[simp] theorem updOut_boundary (s : State) (o : OutId) (f : Out → Out) : (s.updOut o f).boundary = s.boundary := rfl
@[simp] theorem updOut_mons (s : State) (o : OutId) (f : Out → Out) : (s.updOut o f).mons = s.mons := rfl
@[simp] theorem updOut_pll (s : State) (o : OutId) (f : Out → Out) : (s.updOut o f).pll = s.pll := rfl
@[simp] theorem updOut_ens (s : State) (o : OutId) (f : Out → Out) : (s.updOut o f).ens = s.ens := rfl
@[simp] theorem updOut_addrPins (s : State) (o : OutId) (f : Out → Out) : (s.updOut o f).addrPins = s.addrPins := rfl
@[simp] theorem updOut_index (s : State) (o : OutId) (f : Out → Out) : (s.updOut o f).index = s.index := rfl
@[simp] theorem updOut_rings (s : State) (o : OutId) (f : Out → Out) : (s.updOut o f).rings = s.rings := rfl
@[simp] theorem updOut_evtHeld (s : State) (o : OutId) (f : Out → Out) : (s.updOut o f).evtHeld = s.evtHeld := rfl
@[simp] theorem updOut_evtNow (s : State) (o : OutId) (f : Out → Out) : (s.updOut o f).evtNow = s.evtNow := rfl
@[simp] theorem updOut_irqHeld (s : State) (o : OutId) (f : Out → Out) : (s.updOut o f).irqHeld = s.irqHeld := rfl
@[simp] theorem updOut_evtLog (s : State) (o : OutId) (f : Out → Out) : (s.updOut o f).evtLog = s.evtLog := rfl
@[simp] theorem updOut_doms (s : State) (o : OutId) (f : Out → Out) : (s.updOut o f).doms = s.doms := rfl
@[simp] theorem updOut_change (s : State) (o : OutId) (f : Out → Out) : (s.updOut o f).change = s.change := rfl
@[simp] theorem updOut_lift (s : State) (o : OutId) (f : Out → Out) : (s.updOut o f).lift = s.lift := rfl
@[simp] theorem updOut_pvdd (s : State) (o : OutId) (f : Out → Out) : (s.updOut o f).pvdd = s.pvdd := rfl
@[simp] theorem updOut_resetHold (s : State) (o : OutId) (f : Out → Out) : (s.updOut o f).resetHold = s.resetHold := rfl
@[simp] theorem updOut_ports (s : State) (o : OutId) (f : Out → Out) : (s.updOut o f).ports = s.ports := rfl
@[simp] theorem updOut_claims (s : State) (o : OutId) (f : Out → Out) : (s.updOut o f).claims = s.claims := rfl
@[simp] theorem updOut_txn (s : State) (o : OutId) (f : Out → Out) : (s.updOut o f).txn = s.txn := rfl
@[simp] theorem updOut_saps (s : State) (o : OutId) (f : Out → Out) : (s.updOut o f).saps = s.saps := rfl
@[simp] theorem updOut_grps (s : State) (o : OutId) (f : Out → Out) : (s.updOut o f).grps = s.grps := rfl
@[simp] theorem updOut_portSrc (s : State) (o : OutId) (f : Out → Out) : (s.updOut o f).portSrc = s.portSrc := rfl
@[simp] theorem updOut_portSink (s : State) (o : OutId) (f : Out → Out) : (s.updOut o f).portSink = s.portSink := rfl
@[simp] theorem updOut_asrcs (s : State) (o : OutId) (f : Out → Out) : (s.updOut o f).asrcs = s.asrcs := rfl
@[simp] theorem updOut_dlines (s : State) (o : OutId) (f : Out → Out) : (s.updOut o f).dlines = s.dlines := rfl
@[simp] theorem updOut_crcs (s : State) (o : OutId) (f : Out → Out) : (s.updOut o f).crcs = s.crcs := rfl
@[simp] theorem updOut_crcOwner (s : State) (o : OutId) (f : Out → Out) : (s.updOut o f).crcOwner = s.crcOwner := rfl
@[simp] theorem updOut_ains (s : State) (o : OutId) (f : Out → Out) : (s.updOut o f).ains = s.ains := rfl
@[simp] theorem updOut_ainOut (s : State) (o : OutId) (f : Out → Out) : (s.updOut o f).ainOut = s.ainOut := rfl
@[simp] theorem updOut_tdacQ (s : State) (o : OutId) (f : Out → Out) : (s.updOut o f).tdacQ = s.tdacQ := rfl
@[simp] theorem updOut_tdacOwner (s : State) (o : OutId) (f : Out → Out) : (s.updOut o f).tdacOwner = s.tdacOwner := rfl
@[simp] theorem updOut_tdac (s : State) (o : OutId) (f : Out → Out) : (s.updOut o f).tdac = s.tdac := rfl
@[simp] theorem updOut_fab (s : State) (o : OutId) (f : Out → Out) : (s.updOut o f).fab = s.fab := rfl
@[simp] theorem updOut_gains (s : State) (o : OutId) (f : Out → Out) : (s.updOut o f).gains = s.gains := rfl
@[simp] theorem updOut_senseOut (s : State) (o : OutId) (f : Out → Out) : (s.updOut o f).senseOut = s.senseOut := rfl
@[simp] theorem updOut_injOut (s : State) (o : OutId) (f : Out → Out) : (s.updOut o f).injOut = s.injOut := rfl
@[simp] theorem updOut_outs (s : State) (o : OutId) (f : Out → Out) : (s.updOut o f).outs = s.outs.set (outIndex o) (f s.outs[outIndex o]) := rfl
@[simp] theorem updOut_cpOn (s : State) (o : OutId) (f : Out → Out) : (s.updOut o f).cpOn = s.cpOn := rfl
@[simp] theorem updOut_jacks (s : State) (o : OutId) (f : Out → Out) : (s.updOut o f).jacks = s.jacks := rfl
@[simp] theorem updOut_jackTrig (s : State) (o : OutId) (f : Out → Out) : (s.updOut o f).jackTrig = s.jackTrig := rfl
@[simp] theorem updOut_jackFired (s : State) (o : OutId) (f : Out → Out) : (s.updOut o f).jackFired = s.jackFired := rfl
@[simp] theorem updOut_jackPages (s : State) (o : OutId) (f : Out → Out) : (s.updOut o f).jackPages = s.jackPages := rfl
@[simp] theorem updOut_hka (s : State) (o : OutId) (f : Out → Out) : (s.updOut o f).hka = s.hka := rfl
@[simp] theorem updOut_amps (s : State) (o : OutId) (f : Out → Out) : (s.updOut o f).amps = s.amps := rfl
@[simp] theorem updOut_sag (s : State) (o : OutId) (f : Out → Out) : (s.updOut o f).sag = s.sag := rfl
@[simp] theorem updOut_boot (s : State) (o : OutId) (f : Out → Out) : (s.updOut o f).boot = s.boot := rfl
@[simp] theorem updOut_fuses (s : State) (o : OutId) (f : Out → Out) : (s.updOut o f).fuses = s.fuses := rfl
@[simp] theorem updOut_fusesRead (s : State) (o : OutId) (f : Out → Out) : (s.updOut o f).fusesRead = s.fusesRead := rfl
@[simp] theorem updOut_blow (s : State) (o : OutId) (f : Out → Out) : (s.updOut o f).blow = s.blow := rfl
@[simp] theorem updOut_injs (s : State) (o : OutId) (f : Out → Out) : (s.updOut o f).injs = s.injs := rfl
@[simp] theorem updOut_caps (s : State) (o : OutId) (f : Out → Out) : (s.updOut o f).caps = s.caps := rfl
@[simp] theorem updOut_book (s : State) (o : OutId) (f : Out → Out) : (s.updOut o f).book = s.book := rfl
@[simp] theorem updOut_irqCopy (s : State) (o : OutId) (f : Out → Out) : (s.updOut o f).irqCopy = s.irqCopy := rfl
@[simp] theorem updOut_xportCopy (s : State) (o : OutId) (f : Out → Out) : (s.updOut o f).xportCopy = s.xportCopy := rfl
@[simp] theorem updOut_vio (s : State) (o : OutId) (f : Out → Out) : (s.updOut o f).vio = s.vio := rfl
@[simp] theorem updOut_esd (s : State) (o : OutId) (f : Out → Out) : (s.updOut o f).esd = s.esd := rfl

/-! ## updAmp -/

@[simp] theorem updAmp_pending (s : State) (n : Fin 4) (f : Amp → Amp) : (s.updAmp n f).pending = s.pending := rfl
@[simp] theorem updAmp_fresh (s : State) (n : Fin 4) (f : Amp → Amp) : (s.updAmp n f).fresh = s.fresh := rfl
@[simp] theorem updAmp_bus (s : State) (n : Fin 4) (f : Amp → Amp) : (s.updAmp n f).bus = s.bus := rfl
@[simp] theorem updAmp_regs (s : State) (n : Fin 4) (f : Amp → Amp) : (s.updAmp n f).regs = s.regs := rfl
@[simp] theorem updAmp_mem (s : State) (n : Fin 4) (f : Amp → Amp) : (s.updAmp n f).mem = s.mem := rfl
@[simp] theorem updAmp_pageVers (s : State) (n : Fin 4) (f : Amp → Amp) : (s.updAmp n f).pageVers = s.pageVers := rfl
@[simp] theorem updAmp_cfgPend (s : State) (n : Fin 4) (f : Amp → Amp) : (s.updAmp n f).cfgPend = s.cfgPend := rfl
@[simp] theorem updAmp_tickWrites (s : State) (n : Fin 4) (f : Amp → Amp) : (s.updAmp n f).tickWrites = s.tickWrites := rfl
@[simp] theorem updAmp_syscnt (s : State) (n : Fin 4) (f : Amp → Amp) : (s.updAmp n f).syscnt = s.syscnt := rfl
@[simp] theorem updAmp_coarse (s : State) (n : Fin 4) (f : Amp → Amp) : (s.updAmp n f).coarse = s.coarse := rfl
@[simp] theorem updAmp_sysHold (s : State) (n : Fin 4) (f : Amp → Amp) : (s.updAmp n f).sysHold = s.sysHold := rfl
@[simp] theorem updAmp_tickcnt (s : State) (n : Fin 4) (f : Amp → Amp) : (s.updAmp n f).tickcnt = s.tickcnt := rfl
@[simp] theorem updAmp_tickSys (s : State) (n : Fin 4) (f : Amp → Amp) : (s.updAmp n f).tickSys = s.tickSys := rfl
@[simp] theorem updAmp_ticks (s : State) (n : Fin 4) (f : Amp → Amp) : (s.updAmp n f).ticks = s.ticks := rfl
@[simp] theorem updAmp_boundary (s : State) (n : Fin 4) (f : Amp → Amp) : (s.updAmp n f).boundary = s.boundary := rfl
@[simp] theorem updAmp_mons (s : State) (n : Fin 4) (f : Amp → Amp) : (s.updAmp n f).mons = s.mons := rfl
@[simp] theorem updAmp_pll (s : State) (n : Fin 4) (f : Amp → Amp) : (s.updAmp n f).pll = s.pll := rfl
@[simp] theorem updAmp_ens (s : State) (n : Fin 4) (f : Amp → Amp) : (s.updAmp n f).ens = s.ens := rfl
@[simp] theorem updAmp_addrPins (s : State) (n : Fin 4) (f : Amp → Amp) : (s.updAmp n f).addrPins = s.addrPins := rfl
@[simp] theorem updAmp_index (s : State) (n : Fin 4) (f : Amp → Amp) : (s.updAmp n f).index = s.index := rfl
@[simp] theorem updAmp_rings (s : State) (n : Fin 4) (f : Amp → Amp) : (s.updAmp n f).rings = s.rings := rfl
@[simp] theorem updAmp_evtHeld (s : State) (n : Fin 4) (f : Amp → Amp) : (s.updAmp n f).evtHeld = s.evtHeld := rfl
@[simp] theorem updAmp_evtNow (s : State) (n : Fin 4) (f : Amp → Amp) : (s.updAmp n f).evtNow = s.evtNow := rfl
@[simp] theorem updAmp_irqHeld (s : State) (n : Fin 4) (f : Amp → Amp) : (s.updAmp n f).irqHeld = s.irqHeld := rfl
@[simp] theorem updAmp_evtLog (s : State) (n : Fin 4) (f : Amp → Amp) : (s.updAmp n f).evtLog = s.evtLog := rfl
@[simp] theorem updAmp_doms (s : State) (n : Fin 4) (f : Amp → Amp) : (s.updAmp n f).doms = s.doms := rfl
@[simp] theorem updAmp_change (s : State) (n : Fin 4) (f : Amp → Amp) : (s.updAmp n f).change = s.change := rfl
@[simp] theorem updAmp_lift (s : State) (n : Fin 4) (f : Amp → Amp) : (s.updAmp n f).lift = s.lift := rfl
@[simp] theorem updAmp_pvdd (s : State) (n : Fin 4) (f : Amp → Amp) : (s.updAmp n f).pvdd = s.pvdd := rfl
@[simp] theorem updAmp_resetHold (s : State) (n : Fin 4) (f : Amp → Amp) : (s.updAmp n f).resetHold = s.resetHold := rfl
@[simp] theorem updAmp_ports (s : State) (n : Fin 4) (f : Amp → Amp) : (s.updAmp n f).ports = s.ports := rfl
@[simp] theorem updAmp_claims (s : State) (n : Fin 4) (f : Amp → Amp) : (s.updAmp n f).claims = s.claims := rfl
@[simp] theorem updAmp_txn (s : State) (n : Fin 4) (f : Amp → Amp) : (s.updAmp n f).txn = s.txn := rfl
@[simp] theorem updAmp_saps (s : State) (n : Fin 4) (f : Amp → Amp) : (s.updAmp n f).saps = s.saps := rfl
@[simp] theorem updAmp_grps (s : State) (n : Fin 4) (f : Amp → Amp) : (s.updAmp n f).grps = s.grps := rfl
@[simp] theorem updAmp_portSrc (s : State) (n : Fin 4) (f : Amp → Amp) : (s.updAmp n f).portSrc = s.portSrc := rfl
@[simp] theorem updAmp_portSink (s : State) (n : Fin 4) (f : Amp → Amp) : (s.updAmp n f).portSink = s.portSink := rfl
@[simp] theorem updAmp_asrcs (s : State) (n : Fin 4) (f : Amp → Amp) : (s.updAmp n f).asrcs = s.asrcs := rfl
@[simp] theorem updAmp_dlines (s : State) (n : Fin 4) (f : Amp → Amp) : (s.updAmp n f).dlines = s.dlines := rfl
@[simp] theorem updAmp_crcs (s : State) (n : Fin 4) (f : Amp → Amp) : (s.updAmp n f).crcs = s.crcs := rfl
@[simp] theorem updAmp_crcOwner (s : State) (n : Fin 4) (f : Amp → Amp) : (s.updAmp n f).crcOwner = s.crcOwner := rfl
@[simp] theorem updAmp_ains (s : State) (n : Fin 4) (f : Amp → Amp) : (s.updAmp n f).ains = s.ains := rfl
@[simp] theorem updAmp_ainOut (s : State) (n : Fin 4) (f : Amp → Amp) : (s.updAmp n f).ainOut = s.ainOut := rfl
@[simp] theorem updAmp_tdacQ (s : State) (n : Fin 4) (f : Amp → Amp) : (s.updAmp n f).tdacQ = s.tdacQ := rfl
@[simp] theorem updAmp_tdacOwner (s : State) (n : Fin 4) (f : Amp → Amp) : (s.updAmp n f).tdacOwner = s.tdacOwner := rfl
@[simp] theorem updAmp_tdac (s : State) (n : Fin 4) (f : Amp → Amp) : (s.updAmp n f).tdac = s.tdac := rfl
@[simp] theorem updAmp_fab (s : State) (n : Fin 4) (f : Amp → Amp) : (s.updAmp n f).fab = s.fab := rfl
@[simp] theorem updAmp_gains (s : State) (n : Fin 4) (f : Amp → Amp) : (s.updAmp n f).gains = s.gains := rfl
@[simp] theorem updAmp_senseOut (s : State) (n : Fin 4) (f : Amp → Amp) : (s.updAmp n f).senseOut = s.senseOut := rfl
@[simp] theorem updAmp_injOut (s : State) (n : Fin 4) (f : Amp → Amp) : (s.updAmp n f).injOut = s.injOut := rfl
@[simp] theorem updAmp_outs (s : State) (n : Fin 4) (f : Amp → Amp) : (s.updAmp n f).outs = s.outs := rfl
@[simp] theorem updAmp_cpOn (s : State) (n : Fin 4) (f : Amp → Amp) : (s.updAmp n f).cpOn = s.cpOn := rfl
@[simp] theorem updAmp_jacks (s : State) (n : Fin 4) (f : Amp → Amp) : (s.updAmp n f).jacks = s.jacks := rfl
@[simp] theorem updAmp_jackTrig (s : State) (n : Fin 4) (f : Amp → Amp) : (s.updAmp n f).jackTrig = s.jackTrig := rfl
@[simp] theorem updAmp_jackFired (s : State) (n : Fin 4) (f : Amp → Amp) : (s.updAmp n f).jackFired = s.jackFired := rfl
@[simp] theorem updAmp_jackPages (s : State) (n : Fin 4) (f : Amp → Amp) : (s.updAmp n f).jackPages = s.jackPages := rfl
@[simp] theorem updAmp_hka (s : State) (n : Fin 4) (f : Amp → Amp) : (s.updAmp n f).hka = s.hka := rfl
@[simp] theorem updAmp_amps (s : State) (n : Fin 4) (f : Amp → Amp) : (s.updAmp n f).amps = s.amps.set n (f s.amps[n]) := rfl
@[simp] theorem updAmp_sag (s : State) (n : Fin 4) (f : Amp → Amp) : (s.updAmp n f).sag = s.sag := rfl
@[simp] theorem updAmp_boot (s : State) (n : Fin 4) (f : Amp → Amp) : (s.updAmp n f).boot = s.boot := rfl
@[simp] theorem updAmp_fuses (s : State) (n : Fin 4) (f : Amp → Amp) : (s.updAmp n f).fuses = s.fuses := rfl
@[simp] theorem updAmp_fusesRead (s : State) (n : Fin 4) (f : Amp → Amp) : (s.updAmp n f).fusesRead = s.fusesRead := rfl
@[simp] theorem updAmp_blow (s : State) (n : Fin 4) (f : Amp → Amp) : (s.updAmp n f).blow = s.blow := rfl
@[simp] theorem updAmp_injs (s : State) (n : Fin 4) (f : Amp → Amp) : (s.updAmp n f).injs = s.injs := rfl
@[simp] theorem updAmp_caps (s : State) (n : Fin 4) (f : Amp → Amp) : (s.updAmp n f).caps = s.caps := rfl
@[simp] theorem updAmp_book (s : State) (n : Fin 4) (f : Amp → Amp) : (s.updAmp n f).book = s.book := rfl
@[simp] theorem updAmp_irqCopy (s : State) (n : Fin 4) (f : Amp → Amp) : (s.updAmp n f).irqCopy = s.irqCopy := rfl
@[simp] theorem updAmp_xportCopy (s : State) (n : Fin 4) (f : Amp → Amp) : (s.updAmp n f).xportCopy = s.xportCopy := rfl
@[simp] theorem updAmp_vio (s : State) (n : Fin 4) (f : Amp → Amp) : (s.updAmp n f).vio = s.vio := rfl
@[simp] theorem updAmp_esd (s : State) (n : Fin 4) (f : Amp → Amp) : (s.updAmp n f).esd = s.esd := rfl

/-! ## updJack -/

@[simp] theorem updJack_pending (s : State) (j : Fin 20) (f : Jack → Jack) : (s.updJack j f).pending = s.pending := rfl
@[simp] theorem updJack_fresh (s : State) (j : Fin 20) (f : Jack → Jack) : (s.updJack j f).fresh = s.fresh := rfl
@[simp] theorem updJack_bus (s : State) (j : Fin 20) (f : Jack → Jack) : (s.updJack j f).bus = s.bus := rfl
@[simp] theorem updJack_regs (s : State) (j : Fin 20) (f : Jack → Jack) : (s.updJack j f).regs = s.regs := rfl
@[simp] theorem updJack_mem (s : State) (j : Fin 20) (f : Jack → Jack) : (s.updJack j f).mem = s.mem := rfl
@[simp] theorem updJack_pageVers (s : State) (j : Fin 20) (f : Jack → Jack) : (s.updJack j f).pageVers = s.pageVers := rfl
@[simp] theorem updJack_cfgPend (s : State) (j : Fin 20) (f : Jack → Jack) : (s.updJack j f).cfgPend = s.cfgPend := rfl
@[simp] theorem updJack_tickWrites (s : State) (j : Fin 20) (f : Jack → Jack) : (s.updJack j f).tickWrites = s.tickWrites := rfl
@[simp] theorem updJack_syscnt (s : State) (j : Fin 20) (f : Jack → Jack) : (s.updJack j f).syscnt = s.syscnt := rfl
@[simp] theorem updJack_coarse (s : State) (j : Fin 20) (f : Jack → Jack) : (s.updJack j f).coarse = s.coarse := rfl
@[simp] theorem updJack_sysHold (s : State) (j : Fin 20) (f : Jack → Jack) : (s.updJack j f).sysHold = s.sysHold := rfl
@[simp] theorem updJack_tickcnt (s : State) (j : Fin 20) (f : Jack → Jack) : (s.updJack j f).tickcnt = s.tickcnt := rfl
@[simp] theorem updJack_tickSys (s : State) (j : Fin 20) (f : Jack → Jack) : (s.updJack j f).tickSys = s.tickSys := rfl
@[simp] theorem updJack_ticks (s : State) (j : Fin 20) (f : Jack → Jack) : (s.updJack j f).ticks = s.ticks := rfl
@[simp] theorem updJack_boundary (s : State) (j : Fin 20) (f : Jack → Jack) : (s.updJack j f).boundary = s.boundary := rfl
@[simp] theorem updJack_mons (s : State) (j : Fin 20) (f : Jack → Jack) : (s.updJack j f).mons = s.mons := rfl
@[simp] theorem updJack_pll (s : State) (j : Fin 20) (f : Jack → Jack) : (s.updJack j f).pll = s.pll := rfl
@[simp] theorem updJack_ens (s : State) (j : Fin 20) (f : Jack → Jack) : (s.updJack j f).ens = s.ens := rfl
@[simp] theorem updJack_addrPins (s : State) (j : Fin 20) (f : Jack → Jack) : (s.updJack j f).addrPins = s.addrPins := rfl
@[simp] theorem updJack_index (s : State) (j : Fin 20) (f : Jack → Jack) : (s.updJack j f).index = s.index := rfl
@[simp] theorem updJack_rings (s : State) (j : Fin 20) (f : Jack → Jack) : (s.updJack j f).rings = s.rings := rfl
@[simp] theorem updJack_evtHeld (s : State) (j : Fin 20) (f : Jack → Jack) : (s.updJack j f).evtHeld = s.evtHeld := rfl
@[simp] theorem updJack_evtNow (s : State) (j : Fin 20) (f : Jack → Jack) : (s.updJack j f).evtNow = s.evtNow := rfl
@[simp] theorem updJack_irqHeld (s : State) (j : Fin 20) (f : Jack → Jack) : (s.updJack j f).irqHeld = s.irqHeld := rfl
@[simp] theorem updJack_evtLog (s : State) (j : Fin 20) (f : Jack → Jack) : (s.updJack j f).evtLog = s.evtLog := rfl
@[simp] theorem updJack_doms (s : State) (j : Fin 20) (f : Jack → Jack) : (s.updJack j f).doms = s.doms := rfl
@[simp] theorem updJack_change (s : State) (j : Fin 20) (f : Jack → Jack) : (s.updJack j f).change = s.change := rfl
@[simp] theorem updJack_lift (s : State) (j : Fin 20) (f : Jack → Jack) : (s.updJack j f).lift = s.lift := rfl
@[simp] theorem updJack_pvdd (s : State) (j : Fin 20) (f : Jack → Jack) : (s.updJack j f).pvdd = s.pvdd := rfl
@[simp] theorem updJack_resetHold (s : State) (j : Fin 20) (f : Jack → Jack) : (s.updJack j f).resetHold = s.resetHold := rfl
@[simp] theorem updJack_ports (s : State) (j : Fin 20) (f : Jack → Jack) : (s.updJack j f).ports = s.ports := rfl
@[simp] theorem updJack_claims (s : State) (j : Fin 20) (f : Jack → Jack) : (s.updJack j f).claims = s.claims := rfl
@[simp] theorem updJack_txn (s : State) (j : Fin 20) (f : Jack → Jack) : (s.updJack j f).txn = s.txn := rfl
@[simp] theorem updJack_saps (s : State) (j : Fin 20) (f : Jack → Jack) : (s.updJack j f).saps = s.saps := rfl
@[simp] theorem updJack_grps (s : State) (j : Fin 20) (f : Jack → Jack) : (s.updJack j f).grps = s.grps := rfl
@[simp] theorem updJack_portSrc (s : State) (j : Fin 20) (f : Jack → Jack) : (s.updJack j f).portSrc = s.portSrc := rfl
@[simp] theorem updJack_portSink (s : State) (j : Fin 20) (f : Jack → Jack) : (s.updJack j f).portSink = s.portSink := rfl
@[simp] theorem updJack_asrcs (s : State) (j : Fin 20) (f : Jack → Jack) : (s.updJack j f).asrcs = s.asrcs := rfl
@[simp] theorem updJack_dlines (s : State) (j : Fin 20) (f : Jack → Jack) : (s.updJack j f).dlines = s.dlines := rfl
@[simp] theorem updJack_crcs (s : State) (j : Fin 20) (f : Jack → Jack) : (s.updJack j f).crcs = s.crcs := rfl
@[simp] theorem updJack_crcOwner (s : State) (j : Fin 20) (f : Jack → Jack) : (s.updJack j f).crcOwner = s.crcOwner := rfl
@[simp] theorem updJack_ains (s : State) (j : Fin 20) (f : Jack → Jack) : (s.updJack j f).ains = s.ains := rfl
@[simp] theorem updJack_ainOut (s : State) (j : Fin 20) (f : Jack → Jack) : (s.updJack j f).ainOut = s.ainOut := rfl
@[simp] theorem updJack_tdacQ (s : State) (j : Fin 20) (f : Jack → Jack) : (s.updJack j f).tdacQ = s.tdacQ := rfl
@[simp] theorem updJack_tdacOwner (s : State) (j : Fin 20) (f : Jack → Jack) : (s.updJack j f).tdacOwner = s.tdacOwner := rfl
@[simp] theorem updJack_tdac (s : State) (j : Fin 20) (f : Jack → Jack) : (s.updJack j f).tdac = s.tdac := rfl
@[simp] theorem updJack_fab (s : State) (j : Fin 20) (f : Jack → Jack) : (s.updJack j f).fab = s.fab := rfl
@[simp] theorem updJack_gains (s : State) (j : Fin 20) (f : Jack → Jack) : (s.updJack j f).gains = s.gains := rfl
@[simp] theorem updJack_senseOut (s : State) (j : Fin 20) (f : Jack → Jack) : (s.updJack j f).senseOut = s.senseOut := rfl
@[simp] theorem updJack_injOut (s : State) (j : Fin 20) (f : Jack → Jack) : (s.updJack j f).injOut = s.injOut := rfl
@[simp] theorem updJack_outs (s : State) (j : Fin 20) (f : Jack → Jack) : (s.updJack j f).outs = s.outs := rfl
@[simp] theorem updJack_cpOn (s : State) (j : Fin 20) (f : Jack → Jack) : (s.updJack j f).cpOn = s.cpOn := rfl
@[simp] theorem updJack_jacks (s : State) (j : Fin 20) (f : Jack → Jack) : (s.updJack j f).jacks = s.jacks.set j (f s.jacks[j]) := rfl
@[simp] theorem updJack_jackTrig (s : State) (j : Fin 20) (f : Jack → Jack) : (s.updJack j f).jackTrig = s.jackTrig := rfl
@[simp] theorem updJack_jackFired (s : State) (j : Fin 20) (f : Jack → Jack) : (s.updJack j f).jackFired = s.jackFired := rfl
@[simp] theorem updJack_jackPages (s : State) (j : Fin 20) (f : Jack → Jack) : (s.updJack j f).jackPages = s.jackPages := rfl
@[simp] theorem updJack_hka (s : State) (j : Fin 20) (f : Jack → Jack) : (s.updJack j f).hka = s.hka := rfl
@[simp] theorem updJack_amps (s : State) (j : Fin 20) (f : Jack → Jack) : (s.updJack j f).amps = s.amps := rfl
@[simp] theorem updJack_sag (s : State) (j : Fin 20) (f : Jack → Jack) : (s.updJack j f).sag = s.sag := rfl
@[simp] theorem updJack_boot (s : State) (j : Fin 20) (f : Jack → Jack) : (s.updJack j f).boot = s.boot := rfl
@[simp] theorem updJack_fuses (s : State) (j : Fin 20) (f : Jack → Jack) : (s.updJack j f).fuses = s.fuses := rfl
@[simp] theorem updJack_fusesRead (s : State) (j : Fin 20) (f : Jack → Jack) : (s.updJack j f).fusesRead = s.fusesRead := rfl
@[simp] theorem updJack_blow (s : State) (j : Fin 20) (f : Jack → Jack) : (s.updJack j f).blow = s.blow := rfl
@[simp] theorem updJack_injs (s : State) (j : Fin 20) (f : Jack → Jack) : (s.updJack j f).injs = s.injs := rfl
@[simp] theorem updJack_caps (s : State) (j : Fin 20) (f : Jack → Jack) : (s.updJack j f).caps = s.caps := rfl
@[simp] theorem updJack_book (s : State) (j : Fin 20) (f : Jack → Jack) : (s.updJack j f).book = s.book := rfl
@[simp] theorem updJack_irqCopy (s : State) (j : Fin 20) (f : Jack → Jack) : (s.updJack j f).irqCopy = s.irqCopy := rfl
@[simp] theorem updJack_xportCopy (s : State) (j : Fin 20) (f : Jack → Jack) : (s.updJack j f).xportCopy = s.xportCopy := rfl
@[simp] theorem updJack_vio (s : State) (j : Fin 20) (f : Jack → Jack) : (s.updJack j f).vio = s.vio := rfl
@[simp] theorem updJack_esd (s : State) (j : Fin 20) (f : Jack → Jack) : (s.updJack j f).esd = s.esd := rfl

/-! ## updSeq -/

@[simp] theorem updSeq_pending (s : State) (x : Fin 3) (f : Seq → Seq) : (s.updSeq x f).pending = s.pending := rfl
@[simp] theorem updSeq_fresh (s : State) (x : Fin 3) (f : Seq → Seq) : (s.updSeq x f).fresh = s.fresh := rfl
@[simp] theorem updSeq_bus (s : State) (x : Fin 3) (f : Seq → Seq) : (s.updSeq x f).bus = s.bus := rfl
@[simp] theorem updSeq_regs (s : State) (x : Fin 3) (f : Seq → Seq) : (s.updSeq x f).regs = s.regs := rfl
@[simp] theorem updSeq_mem (s : State) (x : Fin 3) (f : Seq → Seq) : (s.updSeq x f).mem = s.mem := rfl
@[simp] theorem updSeq_pageVers (s : State) (x : Fin 3) (f : Seq → Seq) : (s.updSeq x f).pageVers = s.pageVers := rfl
@[simp] theorem updSeq_cfgPend (s : State) (x : Fin 3) (f : Seq → Seq) : (s.updSeq x f).cfgPend = s.cfgPend := rfl
@[simp] theorem updSeq_tickWrites (s : State) (x : Fin 3) (f : Seq → Seq) : (s.updSeq x f).tickWrites = s.tickWrites := rfl
@[simp] theorem updSeq_syscnt (s : State) (x : Fin 3) (f : Seq → Seq) : (s.updSeq x f).syscnt = s.syscnt := rfl
@[simp] theorem updSeq_coarse (s : State) (x : Fin 3) (f : Seq → Seq) : (s.updSeq x f).coarse = s.coarse := rfl
@[simp] theorem updSeq_sysHold (s : State) (x : Fin 3) (f : Seq → Seq) : (s.updSeq x f).sysHold = s.sysHold := rfl
@[simp] theorem updSeq_tickcnt (s : State) (x : Fin 3) (f : Seq → Seq) : (s.updSeq x f).tickcnt = s.tickcnt := rfl
@[simp] theorem updSeq_tickSys (s : State) (x : Fin 3) (f : Seq → Seq) : (s.updSeq x f).tickSys = s.tickSys := rfl
@[simp] theorem updSeq_ticks (s : State) (x : Fin 3) (f : Seq → Seq) : (s.updSeq x f).ticks = s.ticks := rfl
@[simp] theorem updSeq_boundary (s : State) (x : Fin 3) (f : Seq → Seq) : (s.updSeq x f).boundary = s.boundary := rfl
@[simp] theorem updSeq_mons (s : State) (x : Fin 3) (f : Seq → Seq) : (s.updSeq x f).mons = s.mons := rfl
@[simp] theorem updSeq_pll (s : State) (x : Fin 3) (f : Seq → Seq) : (s.updSeq x f).pll = s.pll := rfl
@[simp] theorem updSeq_ens (s : State) (x : Fin 3) (f : Seq → Seq) : (s.updSeq x f).ens = s.ens := rfl
@[simp] theorem updSeq_addrPins (s : State) (x : Fin 3) (f : Seq → Seq) : (s.updSeq x f).addrPins = s.addrPins := rfl
@[simp] theorem updSeq_index (s : State) (x : Fin 3) (f : Seq → Seq) : (s.updSeq x f).index = s.index := rfl
@[simp] theorem updSeq_rings (s : State) (x : Fin 3) (f : Seq → Seq) : (s.updSeq x f).rings = s.rings := rfl
@[simp] theorem updSeq_evtHeld (s : State) (x : Fin 3) (f : Seq → Seq) : (s.updSeq x f).evtHeld = s.evtHeld := rfl
@[simp] theorem updSeq_evtNow (s : State) (x : Fin 3) (f : Seq → Seq) : (s.updSeq x f).evtNow = s.evtNow := rfl
@[simp] theorem updSeq_irqHeld (s : State) (x : Fin 3) (f : Seq → Seq) : (s.updSeq x f).irqHeld = s.irqHeld := rfl
@[simp] theorem updSeq_evtLog (s : State) (x : Fin 3) (f : Seq → Seq) : (s.updSeq x f).evtLog = s.evtLog := rfl
@[simp] theorem updSeq_doms (s : State) (x : Fin 3) (f : Seq → Seq) : (s.updSeq x f).doms = s.doms := rfl
@[simp] theorem updSeq_change (s : State) (x : Fin 3) (f : Seq → Seq) : (s.updSeq x f).change = s.change := rfl
@[simp] theorem updSeq_lift (s : State) (x : Fin 3) (f : Seq → Seq) : (s.updSeq x f).lift = s.lift := rfl
@[simp] theorem updSeq_pvdd (s : State) (x : Fin 3) (f : Seq → Seq) : (s.updSeq x f).pvdd = s.pvdd := rfl
@[simp] theorem updSeq_resetHold (s : State) (x : Fin 3) (f : Seq → Seq) : (s.updSeq x f).resetHold = s.resetHold := rfl
@[simp] theorem updSeq_ports (s : State) (x : Fin 3) (f : Seq → Seq) : (s.updSeq x f).ports = s.ports := rfl
@[simp] theorem updSeq_claims (s : State) (x : Fin 3) (f : Seq → Seq) : (s.updSeq x f).claims = s.claims := rfl
@[simp] theorem updSeq_txn (s : State) (x : Fin 3) (f : Seq → Seq) : (s.updSeq x f).txn = s.txn := rfl
@[simp] theorem updSeq_saps (s : State) (x : Fin 3) (f : Seq → Seq) : (s.updSeq x f).saps = s.saps := rfl
@[simp] theorem updSeq_grps (s : State) (x : Fin 3) (f : Seq → Seq) : (s.updSeq x f).grps = s.grps := rfl
@[simp] theorem updSeq_portSrc (s : State) (x : Fin 3) (f : Seq → Seq) : (s.updSeq x f).portSrc = s.portSrc := rfl
@[simp] theorem updSeq_portSink (s : State) (x : Fin 3) (f : Seq → Seq) : (s.updSeq x f).portSink = s.portSink := rfl
@[simp] theorem updSeq_asrcs (s : State) (x : Fin 3) (f : Seq → Seq) : (s.updSeq x f).asrcs = s.asrcs := rfl
@[simp] theorem updSeq_dlines (s : State) (x : Fin 3) (f : Seq → Seq) : (s.updSeq x f).dlines = s.dlines := rfl
@[simp] theorem updSeq_crcs (s : State) (x : Fin 3) (f : Seq → Seq) : (s.updSeq x f).crcs = s.crcs := rfl
@[simp] theorem updSeq_crcOwner (s : State) (x : Fin 3) (f : Seq → Seq) : (s.updSeq x f).crcOwner = s.crcOwner := rfl
@[simp] theorem updSeq_ains (s : State) (x : Fin 3) (f : Seq → Seq) : (s.updSeq x f).ains = s.ains := rfl
@[simp] theorem updSeq_ainOut (s : State) (x : Fin 3) (f : Seq → Seq) : (s.updSeq x f).ainOut = s.ainOut := rfl
@[simp] theorem updSeq_tdacQ (s : State) (x : Fin 3) (f : Seq → Seq) : (s.updSeq x f).tdacQ = s.tdacQ := rfl
@[simp] theorem updSeq_tdacOwner (s : State) (x : Fin 3) (f : Seq → Seq) : (s.updSeq x f).tdacOwner = s.tdacOwner := rfl
@[simp] theorem updSeq_tdac (s : State) (x : Fin 3) (f : Seq → Seq) : (s.updSeq x f).tdac = s.tdac := rfl
@[simp] theorem updSeq_fab (s : State) (x : Fin 3) (f : Seq → Seq) : (s.updSeq x f).fab = s.fab := rfl
@[simp] theorem updSeq_gains (s : State) (x : Fin 3) (f : Seq → Seq) : (s.updSeq x f).gains = s.gains := rfl
@[simp] theorem updSeq_senseOut (s : State) (x : Fin 3) (f : Seq → Seq) : (s.updSeq x f).senseOut = s.senseOut := rfl
@[simp] theorem updSeq_injOut (s : State) (x : Fin 3) (f : Seq → Seq) : (s.updSeq x f).injOut = s.injOut := rfl
@[simp] theorem updSeq_outs (s : State) (x : Fin 3) (f : Seq → Seq) : (s.updSeq x f).outs = s.outs := rfl
@[simp] theorem updSeq_cpOn (s : State) (x : Fin 3) (f : Seq → Seq) : (s.updSeq x f).cpOn = s.cpOn := rfl
@[simp] theorem updSeq_jacks (s : State) (x : Fin 3) (f : Seq → Seq) : (s.updSeq x f).jacks = s.jacks := rfl
@[simp] theorem updSeq_jackTrig (s : State) (x : Fin 3) (f : Seq → Seq) : (s.updSeq x f).jackTrig = s.jackTrig := rfl
@[simp] theorem updSeq_jackFired (s : State) (x : Fin 3) (f : Seq → Seq) : (s.updSeq x f).jackFired = s.jackFired := rfl
@[simp] theorem updSeq_jackPages (s : State) (x : Fin 3) (f : Seq → Seq) : (s.updSeq x f).jackPages = s.jackPages := rfl
@[simp] theorem updSeq_hka (s : State) (x : Fin 3) (f : Seq → Seq) : (s.updSeq x f).hka = { s.hka with seqs := s.hka.seqs.set x (f s.hka.seqs[x]) } := rfl
@[simp] theorem updSeq_amps (s : State) (x : Fin 3) (f : Seq → Seq) : (s.updSeq x f).amps = s.amps := rfl
@[simp] theorem updSeq_sag (s : State) (x : Fin 3) (f : Seq → Seq) : (s.updSeq x f).sag = s.sag := rfl
@[simp] theorem updSeq_boot (s : State) (x : Fin 3) (f : Seq → Seq) : (s.updSeq x f).boot = s.boot := rfl
@[simp] theorem updSeq_fuses (s : State) (x : Fin 3) (f : Seq → Seq) : (s.updSeq x f).fuses = s.fuses := rfl
@[simp] theorem updSeq_fusesRead (s : State) (x : Fin 3) (f : Seq → Seq) : (s.updSeq x f).fusesRead = s.fusesRead := rfl
@[simp] theorem updSeq_blow (s : State) (x : Fin 3) (f : Seq → Seq) : (s.updSeq x f).blow = s.blow := rfl
@[simp] theorem updSeq_injs (s : State) (x : Fin 3) (f : Seq → Seq) : (s.updSeq x f).injs = s.injs := rfl
@[simp] theorem updSeq_caps (s : State) (x : Fin 3) (f : Seq → Seq) : (s.updSeq x f).caps = s.caps := rfl
@[simp] theorem updSeq_book (s : State) (x : Fin 3) (f : Seq → Seq) : (s.updSeq x f).book = s.book := rfl
@[simp] theorem updSeq_irqCopy (s : State) (x : Fin 3) (f : Seq → Seq) : (s.updSeq x f).irqCopy = s.irqCopy := rfl
@[simp] theorem updSeq_xportCopy (s : State) (x : Fin 3) (f : Seq → Seq) : (s.updSeq x f).xportCopy = s.xportCopy := rfl
@[simp] theorem updSeq_vio (s : State) (x : Fin 3) (f : Seq → Seq) : (s.updSeq x f).vio = s.vio := rfl
@[simp] theorem updSeq_esd (s : State) (x : Fin 3) (f : Seq → Seq) : (s.updSeq x f).esd = s.esd := rfl

/-! ## updCrc -/

@[simp] theorem updCrc_pending (s : State) (i : Fin 26) (f : Crc → Crc) : (s.updCrc i f).pending = s.pending := rfl
@[simp] theorem updCrc_fresh (s : State) (i : Fin 26) (f : Crc → Crc) : (s.updCrc i f).fresh = s.fresh := rfl
@[simp] theorem updCrc_bus (s : State) (i : Fin 26) (f : Crc → Crc) : (s.updCrc i f).bus = s.bus := rfl
@[simp] theorem updCrc_regs (s : State) (i : Fin 26) (f : Crc → Crc) : (s.updCrc i f).regs = s.regs := rfl
@[simp] theorem updCrc_mem (s : State) (i : Fin 26) (f : Crc → Crc) : (s.updCrc i f).mem = s.mem := rfl
@[simp] theorem updCrc_pageVers (s : State) (i : Fin 26) (f : Crc → Crc) : (s.updCrc i f).pageVers = s.pageVers := rfl
@[simp] theorem updCrc_cfgPend (s : State) (i : Fin 26) (f : Crc → Crc) : (s.updCrc i f).cfgPend = s.cfgPend := rfl
@[simp] theorem updCrc_tickWrites (s : State) (i : Fin 26) (f : Crc → Crc) : (s.updCrc i f).tickWrites = s.tickWrites := rfl
@[simp] theorem updCrc_syscnt (s : State) (i : Fin 26) (f : Crc → Crc) : (s.updCrc i f).syscnt = s.syscnt := rfl
@[simp] theorem updCrc_coarse (s : State) (i : Fin 26) (f : Crc → Crc) : (s.updCrc i f).coarse = s.coarse := rfl
@[simp] theorem updCrc_sysHold (s : State) (i : Fin 26) (f : Crc → Crc) : (s.updCrc i f).sysHold = s.sysHold := rfl
@[simp] theorem updCrc_tickcnt (s : State) (i : Fin 26) (f : Crc → Crc) : (s.updCrc i f).tickcnt = s.tickcnt := rfl
@[simp] theorem updCrc_tickSys (s : State) (i : Fin 26) (f : Crc → Crc) : (s.updCrc i f).tickSys = s.tickSys := rfl
@[simp] theorem updCrc_ticks (s : State) (i : Fin 26) (f : Crc → Crc) : (s.updCrc i f).ticks = s.ticks := rfl
@[simp] theorem updCrc_boundary (s : State) (i : Fin 26) (f : Crc → Crc) : (s.updCrc i f).boundary = s.boundary := rfl
@[simp] theorem updCrc_mons (s : State) (i : Fin 26) (f : Crc → Crc) : (s.updCrc i f).mons = s.mons := rfl
@[simp] theorem updCrc_pll (s : State) (i : Fin 26) (f : Crc → Crc) : (s.updCrc i f).pll = s.pll := rfl
@[simp] theorem updCrc_ens (s : State) (i : Fin 26) (f : Crc → Crc) : (s.updCrc i f).ens = s.ens := rfl
@[simp] theorem updCrc_addrPins (s : State) (i : Fin 26) (f : Crc → Crc) : (s.updCrc i f).addrPins = s.addrPins := rfl
@[simp] theorem updCrc_index (s : State) (i : Fin 26) (f : Crc → Crc) : (s.updCrc i f).index = s.index := rfl
@[simp] theorem updCrc_rings (s : State) (i : Fin 26) (f : Crc → Crc) : (s.updCrc i f).rings = s.rings := rfl
@[simp] theorem updCrc_evtHeld (s : State) (i : Fin 26) (f : Crc → Crc) : (s.updCrc i f).evtHeld = s.evtHeld := rfl
@[simp] theorem updCrc_evtNow (s : State) (i : Fin 26) (f : Crc → Crc) : (s.updCrc i f).evtNow = s.evtNow := rfl
@[simp] theorem updCrc_irqHeld (s : State) (i : Fin 26) (f : Crc → Crc) : (s.updCrc i f).irqHeld = s.irqHeld := rfl
@[simp] theorem updCrc_evtLog (s : State) (i : Fin 26) (f : Crc → Crc) : (s.updCrc i f).evtLog = s.evtLog := rfl
@[simp] theorem updCrc_doms (s : State) (i : Fin 26) (f : Crc → Crc) : (s.updCrc i f).doms = s.doms := rfl
@[simp] theorem updCrc_change (s : State) (i : Fin 26) (f : Crc → Crc) : (s.updCrc i f).change = s.change := rfl
@[simp] theorem updCrc_lift (s : State) (i : Fin 26) (f : Crc → Crc) : (s.updCrc i f).lift = s.lift := rfl
@[simp] theorem updCrc_pvdd (s : State) (i : Fin 26) (f : Crc → Crc) : (s.updCrc i f).pvdd = s.pvdd := rfl
@[simp] theorem updCrc_resetHold (s : State) (i : Fin 26) (f : Crc → Crc) : (s.updCrc i f).resetHold = s.resetHold := rfl
@[simp] theorem updCrc_ports (s : State) (i : Fin 26) (f : Crc → Crc) : (s.updCrc i f).ports = s.ports := rfl
@[simp] theorem updCrc_claims (s : State) (i : Fin 26) (f : Crc → Crc) : (s.updCrc i f).claims = s.claims := rfl
@[simp] theorem updCrc_txn (s : State) (i : Fin 26) (f : Crc → Crc) : (s.updCrc i f).txn = s.txn := rfl
@[simp] theorem updCrc_saps (s : State) (i : Fin 26) (f : Crc → Crc) : (s.updCrc i f).saps = s.saps := rfl
@[simp] theorem updCrc_grps (s : State) (i : Fin 26) (f : Crc → Crc) : (s.updCrc i f).grps = s.grps := rfl
@[simp] theorem updCrc_portSrc (s : State) (i : Fin 26) (f : Crc → Crc) : (s.updCrc i f).portSrc = s.portSrc := rfl
@[simp] theorem updCrc_portSink (s : State) (i : Fin 26) (f : Crc → Crc) : (s.updCrc i f).portSink = s.portSink := rfl
@[simp] theorem updCrc_asrcs (s : State) (i : Fin 26) (f : Crc → Crc) : (s.updCrc i f).asrcs = s.asrcs := rfl
@[simp] theorem updCrc_dlines (s : State) (i : Fin 26) (f : Crc → Crc) : (s.updCrc i f).dlines = s.dlines := rfl
@[simp] theorem updCrc_crcs (s : State) (i : Fin 26) (f : Crc → Crc) : (s.updCrc i f).crcs = s.crcs.set i (f s.crcs[i]) := rfl
@[simp] theorem updCrc_crcOwner (s : State) (i : Fin 26) (f : Crc → Crc) : (s.updCrc i f).crcOwner = s.crcOwner := rfl
@[simp] theorem updCrc_ains (s : State) (i : Fin 26) (f : Crc → Crc) : (s.updCrc i f).ains = s.ains := rfl
@[simp] theorem updCrc_ainOut (s : State) (i : Fin 26) (f : Crc → Crc) : (s.updCrc i f).ainOut = s.ainOut := rfl
@[simp] theorem updCrc_tdacQ (s : State) (i : Fin 26) (f : Crc → Crc) : (s.updCrc i f).tdacQ = s.tdacQ := rfl
@[simp] theorem updCrc_tdacOwner (s : State) (i : Fin 26) (f : Crc → Crc) : (s.updCrc i f).tdacOwner = s.tdacOwner := rfl
@[simp] theorem updCrc_tdac (s : State) (i : Fin 26) (f : Crc → Crc) : (s.updCrc i f).tdac = s.tdac := rfl
@[simp] theorem updCrc_fab (s : State) (i : Fin 26) (f : Crc → Crc) : (s.updCrc i f).fab = s.fab := rfl
@[simp] theorem updCrc_gains (s : State) (i : Fin 26) (f : Crc → Crc) : (s.updCrc i f).gains = s.gains := rfl
@[simp] theorem updCrc_senseOut (s : State) (i : Fin 26) (f : Crc → Crc) : (s.updCrc i f).senseOut = s.senseOut := rfl
@[simp] theorem updCrc_injOut (s : State) (i : Fin 26) (f : Crc → Crc) : (s.updCrc i f).injOut = s.injOut := rfl
@[simp] theorem updCrc_outs (s : State) (i : Fin 26) (f : Crc → Crc) : (s.updCrc i f).outs = s.outs := rfl
@[simp] theorem updCrc_cpOn (s : State) (i : Fin 26) (f : Crc → Crc) : (s.updCrc i f).cpOn = s.cpOn := rfl
@[simp] theorem updCrc_jacks (s : State) (i : Fin 26) (f : Crc → Crc) : (s.updCrc i f).jacks = s.jacks := rfl
@[simp] theorem updCrc_jackTrig (s : State) (i : Fin 26) (f : Crc → Crc) : (s.updCrc i f).jackTrig = s.jackTrig := rfl
@[simp] theorem updCrc_jackFired (s : State) (i : Fin 26) (f : Crc → Crc) : (s.updCrc i f).jackFired = s.jackFired := rfl
@[simp] theorem updCrc_jackPages (s : State) (i : Fin 26) (f : Crc → Crc) : (s.updCrc i f).jackPages = s.jackPages := rfl
@[simp] theorem updCrc_hka (s : State) (i : Fin 26) (f : Crc → Crc) : (s.updCrc i f).hka = s.hka := rfl
@[simp] theorem updCrc_amps (s : State) (i : Fin 26) (f : Crc → Crc) : (s.updCrc i f).amps = s.amps := rfl
@[simp] theorem updCrc_sag (s : State) (i : Fin 26) (f : Crc → Crc) : (s.updCrc i f).sag = s.sag := rfl
@[simp] theorem updCrc_boot (s : State) (i : Fin 26) (f : Crc → Crc) : (s.updCrc i f).boot = s.boot := rfl
@[simp] theorem updCrc_fuses (s : State) (i : Fin 26) (f : Crc → Crc) : (s.updCrc i f).fuses = s.fuses := rfl
@[simp] theorem updCrc_fusesRead (s : State) (i : Fin 26) (f : Crc → Crc) : (s.updCrc i f).fusesRead = s.fusesRead := rfl
@[simp] theorem updCrc_blow (s : State) (i : Fin 26) (f : Crc → Crc) : (s.updCrc i f).blow = s.blow := rfl
@[simp] theorem updCrc_injs (s : State) (i : Fin 26) (f : Crc → Crc) : (s.updCrc i f).injs = s.injs := rfl
@[simp] theorem updCrc_caps (s : State) (i : Fin 26) (f : Crc → Crc) : (s.updCrc i f).caps = s.caps := rfl
@[simp] theorem updCrc_book (s : State) (i : Fin 26) (f : Crc → Crc) : (s.updCrc i f).book = s.book := rfl
@[simp] theorem updCrc_irqCopy (s : State) (i : Fin 26) (f : Crc → Crc) : (s.updCrc i f).irqCopy = s.irqCopy := rfl
@[simp] theorem updCrc_xportCopy (s : State) (i : Fin 26) (f : Crc → Crc) : (s.updCrc i f).xportCopy = s.xportCopy := rfl
@[simp] theorem updCrc_vio (s : State) (i : Fin 26) (f : Crc → Crc) : (s.updCrc i f).vio = s.vio := rfl
@[simp] theorem updCrc_esd (s : State) (i : Fin 26) (f : Crc → Crc) : (s.updCrc i f).esd = s.esd := rfl

/-! ## updDom -/

@[simp] theorem updDom_pending (s : State) (d : Nat) (f : Dom → Dom) : (s.updDom d f).pending = s.pending := rfl
@[simp] theorem updDom_fresh (s : State) (d : Nat) (f : Dom → Dom) : (s.updDom d f).fresh = s.fresh := rfl
@[simp] theorem updDom_bus (s : State) (d : Nat) (f : Dom → Dom) : (s.updDom d f).bus = s.bus := rfl
@[simp] theorem updDom_regs (s : State) (d : Nat) (f : Dom → Dom) : (s.updDom d f).regs = s.regs := rfl
@[simp] theorem updDom_mem (s : State) (d : Nat) (f : Dom → Dom) : (s.updDom d f).mem = s.mem := rfl
@[simp] theorem updDom_pageVers (s : State) (d : Nat) (f : Dom → Dom) : (s.updDom d f).pageVers = s.pageVers := rfl
@[simp] theorem updDom_cfgPend (s : State) (d : Nat) (f : Dom → Dom) : (s.updDom d f).cfgPend = s.cfgPend := rfl
@[simp] theorem updDom_tickWrites (s : State) (d : Nat) (f : Dom → Dom) : (s.updDom d f).tickWrites = s.tickWrites := rfl
@[simp] theorem updDom_syscnt (s : State) (d : Nat) (f : Dom → Dom) : (s.updDom d f).syscnt = s.syscnt := rfl
@[simp] theorem updDom_coarse (s : State) (d : Nat) (f : Dom → Dom) : (s.updDom d f).coarse = s.coarse := rfl
@[simp] theorem updDom_sysHold (s : State) (d : Nat) (f : Dom → Dom) : (s.updDom d f).sysHold = s.sysHold := rfl
@[simp] theorem updDom_tickcnt (s : State) (d : Nat) (f : Dom → Dom) : (s.updDom d f).tickcnt = s.tickcnt := rfl
@[simp] theorem updDom_tickSys (s : State) (d : Nat) (f : Dom → Dom) : (s.updDom d f).tickSys = s.tickSys := rfl
@[simp] theorem updDom_ticks (s : State) (d : Nat) (f : Dom → Dom) : (s.updDom d f).ticks = s.ticks := rfl
@[simp] theorem updDom_boundary (s : State) (d : Nat) (f : Dom → Dom) : (s.updDom d f).boundary = s.boundary := rfl
@[simp] theorem updDom_mons (s : State) (d : Nat) (f : Dom → Dom) : (s.updDom d f).mons = s.mons := rfl
@[simp] theorem updDom_pll (s : State) (d : Nat) (f : Dom → Dom) : (s.updDom d f).pll = s.pll := rfl
@[simp] theorem updDom_ens (s : State) (d : Nat) (f : Dom → Dom) : (s.updDom d f).ens = s.ens := rfl
@[simp] theorem updDom_addrPins (s : State) (d : Nat) (f : Dom → Dom) : (s.updDom d f).addrPins = s.addrPins := rfl
@[simp] theorem updDom_index (s : State) (d : Nat) (f : Dom → Dom) : (s.updDom d f).index = s.index := rfl
@[simp] theorem updDom_rings (s : State) (d : Nat) (f : Dom → Dom) : (s.updDom d f).rings = s.rings := rfl
@[simp] theorem updDom_evtHeld (s : State) (d : Nat) (f : Dom → Dom) : (s.updDom d f).evtHeld = s.evtHeld := rfl
@[simp] theorem updDom_evtNow (s : State) (d : Nat) (f : Dom → Dom) : (s.updDom d f).evtNow = s.evtNow := rfl
@[simp] theorem updDom_irqHeld (s : State) (d : Nat) (f : Dom → Dom) : (s.updDom d f).irqHeld = s.irqHeld := rfl
@[simp] theorem updDom_evtLog (s : State) (d : Nat) (f : Dom → Dom) : (s.updDom d f).evtLog = s.evtLog := rfl
@[simp] theorem updDom_doms (s : State) (d : Nat) (f : Dom → Dom) : (s.updDom d f).doms = upd s.doms d f := rfl
@[simp] theorem updDom_change (s : State) (d : Nat) (f : Dom → Dom) : (s.updDom d f).change = s.change := rfl
@[simp] theorem updDom_lift (s : State) (d : Nat) (f : Dom → Dom) : (s.updDom d f).lift = s.lift := rfl
@[simp] theorem updDom_pvdd (s : State) (d : Nat) (f : Dom → Dom) : (s.updDom d f).pvdd = s.pvdd := rfl
@[simp] theorem updDom_resetHold (s : State) (d : Nat) (f : Dom → Dom) : (s.updDom d f).resetHold = s.resetHold := rfl
@[simp] theorem updDom_ports (s : State) (d : Nat) (f : Dom → Dom) : (s.updDom d f).ports = s.ports := rfl
@[simp] theorem updDom_claims (s : State) (d : Nat) (f : Dom → Dom) : (s.updDom d f).claims = s.claims := rfl
@[simp] theorem updDom_txn (s : State) (d : Nat) (f : Dom → Dom) : (s.updDom d f).txn = s.txn := rfl
@[simp] theorem updDom_saps (s : State) (d : Nat) (f : Dom → Dom) : (s.updDom d f).saps = s.saps := rfl
@[simp] theorem updDom_grps (s : State) (d : Nat) (f : Dom → Dom) : (s.updDom d f).grps = s.grps := rfl
@[simp] theorem updDom_portSrc (s : State) (d : Nat) (f : Dom → Dom) : (s.updDom d f).portSrc = s.portSrc := rfl
@[simp] theorem updDom_portSink (s : State) (d : Nat) (f : Dom → Dom) : (s.updDom d f).portSink = s.portSink := rfl
@[simp] theorem updDom_asrcs (s : State) (d : Nat) (f : Dom → Dom) : (s.updDom d f).asrcs = s.asrcs := rfl
@[simp] theorem updDom_dlines (s : State) (d : Nat) (f : Dom → Dom) : (s.updDom d f).dlines = s.dlines := rfl
@[simp] theorem updDom_crcs (s : State) (d : Nat) (f : Dom → Dom) : (s.updDom d f).crcs = s.crcs := rfl
@[simp] theorem updDom_crcOwner (s : State) (d : Nat) (f : Dom → Dom) : (s.updDom d f).crcOwner = s.crcOwner := rfl
@[simp] theorem updDom_ains (s : State) (d : Nat) (f : Dom → Dom) : (s.updDom d f).ains = s.ains := rfl
@[simp] theorem updDom_ainOut (s : State) (d : Nat) (f : Dom → Dom) : (s.updDom d f).ainOut = s.ainOut := rfl
@[simp] theorem updDom_tdacQ (s : State) (d : Nat) (f : Dom → Dom) : (s.updDom d f).tdacQ = s.tdacQ := rfl
@[simp] theorem updDom_tdacOwner (s : State) (d : Nat) (f : Dom → Dom) : (s.updDom d f).tdacOwner = s.tdacOwner := rfl
@[simp] theorem updDom_tdac (s : State) (d : Nat) (f : Dom → Dom) : (s.updDom d f).tdac = s.tdac := rfl
@[simp] theorem updDom_fab (s : State) (d : Nat) (f : Dom → Dom) : (s.updDom d f).fab = s.fab := rfl
@[simp] theorem updDom_gains (s : State) (d : Nat) (f : Dom → Dom) : (s.updDom d f).gains = s.gains := rfl
@[simp] theorem updDom_senseOut (s : State) (d : Nat) (f : Dom → Dom) : (s.updDom d f).senseOut = s.senseOut := rfl
@[simp] theorem updDom_injOut (s : State) (d : Nat) (f : Dom → Dom) : (s.updDom d f).injOut = s.injOut := rfl
@[simp] theorem updDom_outs (s : State) (d : Nat) (f : Dom → Dom) : (s.updDom d f).outs = s.outs := rfl
@[simp] theorem updDom_cpOn (s : State) (d : Nat) (f : Dom → Dom) : (s.updDom d f).cpOn = s.cpOn := rfl
@[simp] theorem updDom_jacks (s : State) (d : Nat) (f : Dom → Dom) : (s.updDom d f).jacks = s.jacks := rfl
@[simp] theorem updDom_jackTrig (s : State) (d : Nat) (f : Dom → Dom) : (s.updDom d f).jackTrig = s.jackTrig := rfl
@[simp] theorem updDom_jackFired (s : State) (d : Nat) (f : Dom → Dom) : (s.updDom d f).jackFired = s.jackFired := rfl
@[simp] theorem updDom_jackPages (s : State) (d : Nat) (f : Dom → Dom) : (s.updDom d f).jackPages = s.jackPages := rfl
@[simp] theorem updDom_hka (s : State) (d : Nat) (f : Dom → Dom) : (s.updDom d f).hka = s.hka := rfl
@[simp] theorem updDom_amps (s : State) (d : Nat) (f : Dom → Dom) : (s.updDom d f).amps = s.amps := rfl
@[simp] theorem updDom_sag (s : State) (d : Nat) (f : Dom → Dom) : (s.updDom d f).sag = s.sag := rfl
@[simp] theorem updDom_boot (s : State) (d : Nat) (f : Dom → Dom) : (s.updDom d f).boot = s.boot := rfl
@[simp] theorem updDom_fuses (s : State) (d : Nat) (f : Dom → Dom) : (s.updDom d f).fuses = s.fuses := rfl
@[simp] theorem updDom_fusesRead (s : State) (d : Nat) (f : Dom → Dom) : (s.updDom d f).fusesRead = s.fusesRead := rfl
@[simp] theorem updDom_blow (s : State) (d : Nat) (f : Dom → Dom) : (s.updDom d f).blow = s.blow := rfl
@[simp] theorem updDom_injs (s : State) (d : Nat) (f : Dom → Dom) : (s.updDom d f).injs = s.injs := rfl
@[simp] theorem updDom_caps (s : State) (d : Nat) (f : Dom → Dom) : (s.updDom d f).caps = s.caps := rfl
@[simp] theorem updDom_book (s : State) (d : Nat) (f : Dom → Dom) : (s.updDom d f).book = s.book := rfl
@[simp] theorem updDom_irqCopy (s : State) (d : Nat) (f : Dom → Dom) : (s.updDom d f).irqCopy = s.irqCopy := rfl
@[simp] theorem updDom_xportCopy (s : State) (d : Nat) (f : Dom → Dom) : (s.updDom d f).xportCopy = s.xportCopy := rfl
@[simp] theorem updDom_vio (s : State) (d : Nat) (f : Dom → Dom) : (s.updDom d f).vio = s.vio := rfl
@[simp] theorem updDom_esd (s : State) (d : Nat) (f : Dom → Dom) : (s.updDom d f).esd = s.esd := rfl

/-! ## updFab -/

@[simp] theorem updFab_pending (s : State) (f : Fab → Fab) : (s.updFab f).pending = s.pending := rfl
@[simp] theorem updFab_fresh (s : State) (f : Fab → Fab) : (s.updFab f).fresh = s.fresh := rfl
@[simp] theorem updFab_bus (s : State) (f : Fab → Fab) : (s.updFab f).bus = s.bus := rfl
@[simp] theorem updFab_regs (s : State) (f : Fab → Fab) : (s.updFab f).regs = s.regs := rfl
@[simp] theorem updFab_mem (s : State) (f : Fab → Fab) : (s.updFab f).mem = s.mem := rfl
@[simp] theorem updFab_pageVers (s : State) (f : Fab → Fab) : (s.updFab f).pageVers = s.pageVers := rfl
@[simp] theorem updFab_cfgPend (s : State) (f : Fab → Fab) : (s.updFab f).cfgPend = s.cfgPend := rfl
@[simp] theorem updFab_tickWrites (s : State) (f : Fab → Fab) : (s.updFab f).tickWrites = s.tickWrites := rfl
@[simp] theorem updFab_syscnt (s : State) (f : Fab → Fab) : (s.updFab f).syscnt = s.syscnt := rfl
@[simp] theorem updFab_coarse (s : State) (f : Fab → Fab) : (s.updFab f).coarse = s.coarse := rfl
@[simp] theorem updFab_sysHold (s : State) (f : Fab → Fab) : (s.updFab f).sysHold = s.sysHold := rfl
@[simp] theorem updFab_tickcnt (s : State) (f : Fab → Fab) : (s.updFab f).tickcnt = s.tickcnt := rfl
@[simp] theorem updFab_tickSys (s : State) (f : Fab → Fab) : (s.updFab f).tickSys = s.tickSys := rfl
@[simp] theorem updFab_ticks (s : State) (f : Fab → Fab) : (s.updFab f).ticks = s.ticks := rfl
@[simp] theorem updFab_boundary (s : State) (f : Fab → Fab) : (s.updFab f).boundary = s.boundary := rfl
@[simp] theorem updFab_mons (s : State) (f : Fab → Fab) : (s.updFab f).mons = s.mons := rfl
@[simp] theorem updFab_pll (s : State) (f : Fab → Fab) : (s.updFab f).pll = s.pll := rfl
@[simp] theorem updFab_ens (s : State) (f : Fab → Fab) : (s.updFab f).ens = s.ens := rfl
@[simp] theorem updFab_addrPins (s : State) (f : Fab → Fab) : (s.updFab f).addrPins = s.addrPins := rfl
@[simp] theorem updFab_index (s : State) (f : Fab → Fab) : (s.updFab f).index = s.index := rfl
@[simp] theorem updFab_rings (s : State) (f : Fab → Fab) : (s.updFab f).rings = s.rings := rfl
@[simp] theorem updFab_evtHeld (s : State) (f : Fab → Fab) : (s.updFab f).evtHeld = s.evtHeld := rfl
@[simp] theorem updFab_evtNow (s : State) (f : Fab → Fab) : (s.updFab f).evtNow = s.evtNow := rfl
@[simp] theorem updFab_irqHeld (s : State) (f : Fab → Fab) : (s.updFab f).irqHeld = s.irqHeld := rfl
@[simp] theorem updFab_evtLog (s : State) (f : Fab → Fab) : (s.updFab f).evtLog = s.evtLog := rfl
@[simp] theorem updFab_doms (s : State) (f : Fab → Fab) : (s.updFab f).doms = s.doms := rfl
@[simp] theorem updFab_change (s : State) (f : Fab → Fab) : (s.updFab f).change = s.change := rfl
@[simp] theorem updFab_lift (s : State) (f : Fab → Fab) : (s.updFab f).lift = s.lift := rfl
@[simp] theorem updFab_pvdd (s : State) (f : Fab → Fab) : (s.updFab f).pvdd = s.pvdd := rfl
@[simp] theorem updFab_resetHold (s : State) (f : Fab → Fab) : (s.updFab f).resetHold = s.resetHold := rfl
@[simp] theorem updFab_ports (s : State) (f : Fab → Fab) : (s.updFab f).ports = s.ports := rfl
@[simp] theorem updFab_claims (s : State) (f : Fab → Fab) : (s.updFab f).claims = s.claims := rfl
@[simp] theorem updFab_txn (s : State) (f : Fab → Fab) : (s.updFab f).txn = s.txn := rfl
@[simp] theorem updFab_saps (s : State) (f : Fab → Fab) : (s.updFab f).saps = s.saps := rfl
@[simp] theorem updFab_grps (s : State) (f : Fab → Fab) : (s.updFab f).grps = s.grps := rfl
@[simp] theorem updFab_portSrc (s : State) (f : Fab → Fab) : (s.updFab f).portSrc = s.portSrc := rfl
@[simp] theorem updFab_portSink (s : State) (f : Fab → Fab) : (s.updFab f).portSink = s.portSink := rfl
@[simp] theorem updFab_asrcs (s : State) (f : Fab → Fab) : (s.updFab f).asrcs = s.asrcs := rfl
@[simp] theorem updFab_dlines (s : State) (f : Fab → Fab) : (s.updFab f).dlines = s.dlines := rfl
@[simp] theorem updFab_crcs (s : State) (f : Fab → Fab) : (s.updFab f).crcs = s.crcs := rfl
@[simp] theorem updFab_crcOwner (s : State) (f : Fab → Fab) : (s.updFab f).crcOwner = s.crcOwner := rfl
@[simp] theorem updFab_ains (s : State) (f : Fab → Fab) : (s.updFab f).ains = s.ains := rfl
@[simp] theorem updFab_ainOut (s : State) (f : Fab → Fab) : (s.updFab f).ainOut = s.ainOut := rfl
@[simp] theorem updFab_tdacQ (s : State) (f : Fab → Fab) : (s.updFab f).tdacQ = s.tdacQ := rfl
@[simp] theorem updFab_tdacOwner (s : State) (f : Fab → Fab) : (s.updFab f).tdacOwner = s.tdacOwner := rfl
@[simp] theorem updFab_tdac (s : State) (f : Fab → Fab) : (s.updFab f).tdac = s.tdac := rfl
@[simp] theorem updFab_fab (s : State) (f : Fab → Fab) : (s.updFab f).fab = f s.fab := rfl
@[simp] theorem updFab_gains (s : State) (f : Fab → Fab) : (s.updFab f).gains = s.gains := rfl
@[simp] theorem updFab_senseOut (s : State) (f : Fab → Fab) : (s.updFab f).senseOut = s.senseOut := rfl
@[simp] theorem updFab_injOut (s : State) (f : Fab → Fab) : (s.updFab f).injOut = s.injOut := rfl
@[simp] theorem updFab_outs (s : State) (f : Fab → Fab) : (s.updFab f).outs = s.outs := rfl
@[simp] theorem updFab_cpOn (s : State) (f : Fab → Fab) : (s.updFab f).cpOn = s.cpOn := rfl
@[simp] theorem updFab_jacks (s : State) (f : Fab → Fab) : (s.updFab f).jacks = s.jacks := rfl
@[simp] theorem updFab_jackTrig (s : State) (f : Fab → Fab) : (s.updFab f).jackTrig = s.jackTrig := rfl
@[simp] theorem updFab_jackFired (s : State) (f : Fab → Fab) : (s.updFab f).jackFired = s.jackFired := rfl
@[simp] theorem updFab_jackPages (s : State) (f : Fab → Fab) : (s.updFab f).jackPages = s.jackPages := rfl
@[simp] theorem updFab_hka (s : State) (f : Fab → Fab) : (s.updFab f).hka = s.hka := rfl
@[simp] theorem updFab_amps (s : State) (f : Fab → Fab) : (s.updFab f).amps = s.amps := rfl
@[simp] theorem updFab_sag (s : State) (f : Fab → Fab) : (s.updFab f).sag = s.sag := rfl
@[simp] theorem updFab_boot (s : State) (f : Fab → Fab) : (s.updFab f).boot = s.boot := rfl
@[simp] theorem updFab_fuses (s : State) (f : Fab → Fab) : (s.updFab f).fuses = s.fuses := rfl
@[simp] theorem updFab_fusesRead (s : State) (f : Fab → Fab) : (s.updFab f).fusesRead = s.fusesRead := rfl
@[simp] theorem updFab_blow (s : State) (f : Fab → Fab) : (s.updFab f).blow = s.blow := rfl
@[simp] theorem updFab_injs (s : State) (f : Fab → Fab) : (s.updFab f).injs = s.injs := rfl
@[simp] theorem updFab_caps (s : State) (f : Fab → Fab) : (s.updFab f).caps = s.caps := rfl
@[simp] theorem updFab_book (s : State) (f : Fab → Fab) : (s.updFab f).book = s.book := rfl
@[simp] theorem updFab_irqCopy (s : State) (f : Fab → Fab) : (s.updFab f).irqCopy = s.irqCopy := rfl
@[simp] theorem updFab_xportCopy (s : State) (f : Fab → Fab) : (s.updFab f).xportCopy = s.xportCopy := rfl
@[simp] theorem updFab_vio (s : State) (f : Fab → Fab) : (s.updFab f).vio = s.vio := rfl
@[simp] theorem updFab_esd (s : State) (f : Fab → Fab) : (s.updFab f).esd = s.esd := rfl

/-! ## setGain -/

@[simp] theorem setGain_pending (s : State) (a : Nat) (g : Glide) : (s.setGain a g).pending = s.pending := rfl
@[simp] theorem setGain_fresh (s : State) (a : Nat) (g : Glide) : (s.setGain a g).fresh = s.fresh := rfl
@[simp] theorem setGain_bus (s : State) (a : Nat) (g : Glide) : (s.setGain a g).bus = s.bus := rfl
@[simp] theorem setGain_regs (s : State) (a : Nat) (g : Glide) : (s.setGain a g).regs = s.regs := rfl
@[simp] theorem setGain_mem (s : State) (a : Nat) (g : Glide) : (s.setGain a g).mem = s.mem := rfl
@[simp] theorem setGain_pageVers (s : State) (a : Nat) (g : Glide) : (s.setGain a g).pageVers = s.pageVers := rfl
@[simp] theorem setGain_cfgPend (s : State) (a : Nat) (g : Glide) : (s.setGain a g).cfgPend = s.cfgPend := rfl
@[simp] theorem setGain_tickWrites (s : State) (a : Nat) (g : Glide) : (s.setGain a g).tickWrites = s.tickWrites := rfl
@[simp] theorem setGain_syscnt (s : State) (a : Nat) (g : Glide) : (s.setGain a g).syscnt = s.syscnt := rfl
@[simp] theorem setGain_coarse (s : State) (a : Nat) (g : Glide) : (s.setGain a g).coarse = s.coarse := rfl
@[simp] theorem setGain_sysHold (s : State) (a : Nat) (g : Glide) : (s.setGain a g).sysHold = s.sysHold := rfl
@[simp] theorem setGain_tickcnt (s : State) (a : Nat) (g : Glide) : (s.setGain a g).tickcnt = s.tickcnt := rfl
@[simp] theorem setGain_tickSys (s : State) (a : Nat) (g : Glide) : (s.setGain a g).tickSys = s.tickSys := rfl
@[simp] theorem setGain_ticks (s : State) (a : Nat) (g : Glide) : (s.setGain a g).ticks = s.ticks := rfl
@[simp] theorem setGain_boundary (s : State) (a : Nat) (g : Glide) : (s.setGain a g).boundary = s.boundary := rfl
@[simp] theorem setGain_mons (s : State) (a : Nat) (g : Glide) : (s.setGain a g).mons = s.mons := rfl
@[simp] theorem setGain_pll (s : State) (a : Nat) (g : Glide) : (s.setGain a g).pll = s.pll := rfl
@[simp] theorem setGain_ens (s : State) (a : Nat) (g : Glide) : (s.setGain a g).ens = s.ens := rfl
@[simp] theorem setGain_addrPins (s : State) (a : Nat) (g : Glide) : (s.setGain a g).addrPins = s.addrPins := rfl
@[simp] theorem setGain_index (s : State) (a : Nat) (g : Glide) : (s.setGain a g).index = s.index := rfl
@[simp] theorem setGain_rings (s : State) (a : Nat) (g : Glide) : (s.setGain a g).rings = s.rings := rfl
@[simp] theorem setGain_evtHeld (s : State) (a : Nat) (g : Glide) : (s.setGain a g).evtHeld = s.evtHeld := rfl
@[simp] theorem setGain_evtNow (s : State) (a : Nat) (g : Glide) : (s.setGain a g).evtNow = s.evtNow := rfl
@[simp] theorem setGain_irqHeld (s : State) (a : Nat) (g : Glide) : (s.setGain a g).irqHeld = s.irqHeld := rfl
@[simp] theorem setGain_evtLog (s : State) (a : Nat) (g : Glide) : (s.setGain a g).evtLog = s.evtLog := rfl
@[simp] theorem setGain_doms (s : State) (a : Nat) (g : Glide) : (s.setGain a g).doms = s.doms := rfl
@[simp] theorem setGain_change (s : State) (a : Nat) (g : Glide) : (s.setGain a g).change = s.change := rfl
@[simp] theorem setGain_lift (s : State) (a : Nat) (g : Glide) : (s.setGain a g).lift = s.lift := rfl
@[simp] theorem setGain_pvdd (s : State) (a : Nat) (g : Glide) : (s.setGain a g).pvdd = s.pvdd := rfl
@[simp] theorem setGain_resetHold (s : State) (a : Nat) (g : Glide) : (s.setGain a g).resetHold = s.resetHold := rfl
@[simp] theorem setGain_ports (s : State) (a : Nat) (g : Glide) : (s.setGain a g).ports = s.ports := rfl
@[simp] theorem setGain_claims (s : State) (a : Nat) (g : Glide) : (s.setGain a g).claims = s.claims := rfl
@[simp] theorem setGain_txn (s : State) (a : Nat) (g : Glide) : (s.setGain a g).txn = s.txn := rfl
@[simp] theorem setGain_saps (s : State) (a : Nat) (g : Glide) : (s.setGain a g).saps = s.saps := rfl
@[simp] theorem setGain_grps (s : State) (a : Nat) (g : Glide) : (s.setGain a g).grps = s.grps := rfl
@[simp] theorem setGain_portSrc (s : State) (a : Nat) (g : Glide) : (s.setGain a g).portSrc = s.portSrc := rfl
@[simp] theorem setGain_portSink (s : State) (a : Nat) (g : Glide) : (s.setGain a g).portSink = s.portSink := rfl
@[simp] theorem setGain_asrcs (s : State) (a : Nat) (g : Glide) : (s.setGain a g).asrcs = s.asrcs := rfl
@[simp] theorem setGain_dlines (s : State) (a : Nat) (g : Glide) : (s.setGain a g).dlines = s.dlines := rfl
@[simp] theorem setGain_crcs (s : State) (a : Nat) (g : Glide) : (s.setGain a g).crcs = s.crcs := rfl
@[simp] theorem setGain_crcOwner (s : State) (a : Nat) (g : Glide) : (s.setGain a g).crcOwner = s.crcOwner := rfl
@[simp] theorem setGain_ains (s : State) (a : Nat) (g : Glide) : (s.setGain a g).ains = s.ains := rfl
@[simp] theorem setGain_ainOut (s : State) (a : Nat) (g : Glide) : (s.setGain a g).ainOut = s.ainOut := rfl
@[simp] theorem setGain_tdacQ (s : State) (a : Nat) (g : Glide) : (s.setGain a g).tdacQ = s.tdacQ := rfl
@[simp] theorem setGain_tdacOwner (s : State) (a : Nat) (g : Glide) : (s.setGain a g).tdacOwner = s.tdacOwner := rfl
@[simp] theorem setGain_tdac (s : State) (a : Nat) (g : Glide) : (s.setGain a g).tdac = s.tdac := rfl
@[simp] theorem setGain_fab (s : State) (a : Nat) (g : Glide) : (s.setGain a g).fab = s.fab := rfl
@[simp] theorem setGain_gains (s : State) (a : Nat) (g : Glide) : (s.setGain a g).gains = sparseSet muteGlide s.gains a g := rfl
@[simp] theorem setGain_senseOut (s : State) (a : Nat) (g : Glide) : (s.setGain a g).senseOut = s.senseOut := rfl
@[simp] theorem setGain_injOut (s : State) (a : Nat) (g : Glide) : (s.setGain a g).injOut = s.injOut := rfl
@[simp] theorem setGain_outs (s : State) (a : Nat) (g : Glide) : (s.setGain a g).outs = s.outs := rfl
@[simp] theorem setGain_cpOn (s : State) (a : Nat) (g : Glide) : (s.setGain a g).cpOn = s.cpOn := rfl
@[simp] theorem setGain_jacks (s : State) (a : Nat) (g : Glide) : (s.setGain a g).jacks = s.jacks := rfl
@[simp] theorem setGain_jackTrig (s : State) (a : Nat) (g : Glide) : (s.setGain a g).jackTrig = s.jackTrig := rfl
@[simp] theorem setGain_jackFired (s : State) (a : Nat) (g : Glide) : (s.setGain a g).jackFired = s.jackFired := rfl
@[simp] theorem setGain_jackPages (s : State) (a : Nat) (g : Glide) : (s.setGain a g).jackPages = s.jackPages := rfl
@[simp] theorem setGain_hka (s : State) (a : Nat) (g : Glide) : (s.setGain a g).hka = s.hka := rfl
@[simp] theorem setGain_amps (s : State) (a : Nat) (g : Glide) : (s.setGain a g).amps = s.amps := rfl
@[simp] theorem setGain_sag (s : State) (a : Nat) (g : Glide) : (s.setGain a g).sag = s.sag := rfl
@[simp] theorem setGain_boot (s : State) (a : Nat) (g : Glide) : (s.setGain a g).boot = s.boot := rfl
@[simp] theorem setGain_fuses (s : State) (a : Nat) (g : Glide) : (s.setGain a g).fuses = s.fuses := rfl
@[simp] theorem setGain_fusesRead (s : State) (a : Nat) (g : Glide) : (s.setGain a g).fusesRead = s.fusesRead := rfl
@[simp] theorem setGain_blow (s : State) (a : Nat) (g : Glide) : (s.setGain a g).blow = s.blow := rfl
@[simp] theorem setGain_injs (s : State) (a : Nat) (g : Glide) : (s.setGain a g).injs = s.injs := rfl
@[simp] theorem setGain_caps (s : State) (a : Nat) (g : Glide) : (s.setGain a g).caps = s.caps := rfl
@[simp] theorem setGain_book (s : State) (a : Nat) (g : Glide) : (s.setGain a g).book = s.book := rfl
@[simp] theorem setGain_irqCopy (s : State) (a : Nat) (g : Glide) : (s.setGain a g).irqCopy = s.irqCopy := rfl
@[simp] theorem setGain_xportCopy (s : State) (a : Nat) (g : Glide) : (s.setGain a g).xportCopy = s.xportCopy := rfl
@[simp] theorem setGain_vio (s : State) (a : Nat) (g : Glide) : (s.setGain a g).vio = s.vio := rfl
@[simp] theorem setGain_esd (s : State) (a : Nat) (g : Glide) : (s.setGain a g).esd = s.esd := rfl

/-! ## updPort -/

@[simp] theorem updPort_pending (s : State) (p : Fin 4) (f : Port → Port) : (s.updPort p f).pending = s.pending := rfl
@[simp] theorem updPort_fresh (s : State) (p : Fin 4) (f : Port → Port) : (s.updPort p f).fresh = s.fresh := rfl
@[simp] theorem updPort_bus (s : State) (p : Fin 4) (f : Port → Port) : (s.updPort p f).bus = s.bus := rfl
@[simp] theorem updPort_regs (s : State) (p : Fin 4) (f : Port → Port) : (s.updPort p f).regs = s.regs := rfl
@[simp] theorem updPort_mem (s : State) (p : Fin 4) (f : Port → Port) : (s.updPort p f).mem = s.mem := rfl
@[simp] theorem updPort_pageVers (s : State) (p : Fin 4) (f : Port → Port) : (s.updPort p f).pageVers = s.pageVers := rfl
@[simp] theorem updPort_cfgPend (s : State) (p : Fin 4) (f : Port → Port) : (s.updPort p f).cfgPend = s.cfgPend := rfl
@[simp] theorem updPort_tickWrites (s : State) (p : Fin 4) (f : Port → Port) : (s.updPort p f).tickWrites = s.tickWrites := rfl
@[simp] theorem updPort_syscnt (s : State) (p : Fin 4) (f : Port → Port) : (s.updPort p f).syscnt = s.syscnt := rfl
@[simp] theorem updPort_coarse (s : State) (p : Fin 4) (f : Port → Port) : (s.updPort p f).coarse = s.coarse := rfl
@[simp] theorem updPort_sysHold (s : State) (p : Fin 4) (f : Port → Port) : (s.updPort p f).sysHold = s.sysHold := rfl
@[simp] theorem updPort_tickcnt (s : State) (p : Fin 4) (f : Port → Port) : (s.updPort p f).tickcnt = s.tickcnt := rfl
@[simp] theorem updPort_tickSys (s : State) (p : Fin 4) (f : Port → Port) : (s.updPort p f).tickSys = s.tickSys := rfl
@[simp] theorem updPort_ticks (s : State) (p : Fin 4) (f : Port → Port) : (s.updPort p f).ticks = s.ticks := rfl
@[simp] theorem updPort_boundary (s : State) (p : Fin 4) (f : Port → Port) : (s.updPort p f).boundary = s.boundary := rfl
@[simp] theorem updPort_mons (s : State) (p : Fin 4) (f : Port → Port) : (s.updPort p f).mons = s.mons := rfl
@[simp] theorem updPort_pll (s : State) (p : Fin 4) (f : Port → Port) : (s.updPort p f).pll = s.pll := rfl
@[simp] theorem updPort_ens (s : State) (p : Fin 4) (f : Port → Port) : (s.updPort p f).ens = s.ens := rfl
@[simp] theorem updPort_addrPins (s : State) (p : Fin 4) (f : Port → Port) : (s.updPort p f).addrPins = s.addrPins := rfl
@[simp] theorem updPort_index (s : State) (p : Fin 4) (f : Port → Port) : (s.updPort p f).index = s.index := rfl
@[simp] theorem updPort_rings (s : State) (p : Fin 4) (f : Port → Port) : (s.updPort p f).rings = s.rings := rfl
@[simp] theorem updPort_evtHeld (s : State) (p : Fin 4) (f : Port → Port) : (s.updPort p f).evtHeld = s.evtHeld := rfl
@[simp] theorem updPort_evtNow (s : State) (p : Fin 4) (f : Port → Port) : (s.updPort p f).evtNow = s.evtNow := rfl
@[simp] theorem updPort_irqHeld (s : State) (p : Fin 4) (f : Port → Port) : (s.updPort p f).irqHeld = s.irqHeld := rfl
@[simp] theorem updPort_evtLog (s : State) (p : Fin 4) (f : Port → Port) : (s.updPort p f).evtLog = s.evtLog := rfl
@[simp] theorem updPort_doms (s : State) (p : Fin 4) (f : Port → Port) : (s.updPort p f).doms = s.doms := rfl
@[simp] theorem updPort_change (s : State) (p : Fin 4) (f : Port → Port) : (s.updPort p f).change = s.change := rfl
@[simp] theorem updPort_lift (s : State) (p : Fin 4) (f : Port → Port) : (s.updPort p f).lift = s.lift := rfl
@[simp] theorem updPort_pvdd (s : State) (p : Fin 4) (f : Port → Port) : (s.updPort p f).pvdd = s.pvdd := rfl
@[simp] theorem updPort_resetHold (s : State) (p : Fin 4) (f : Port → Port) : (s.updPort p f).resetHold = s.resetHold := rfl
@[simp] theorem updPort_ports (s : State) (p : Fin 4) (f : Port → Port) : (s.updPort p f).ports = s.ports.set p (f s.ports[p]) := rfl
@[simp] theorem updPort_claims (s : State) (p : Fin 4) (f : Port → Port) : (s.updPort p f).claims = s.claims := rfl
@[simp] theorem updPort_txn (s : State) (p : Fin 4) (f : Port → Port) : (s.updPort p f).txn = s.txn := rfl
@[simp] theorem updPort_saps (s : State) (p : Fin 4) (f : Port → Port) : (s.updPort p f).saps = s.saps := rfl
@[simp] theorem updPort_grps (s : State) (p : Fin 4) (f : Port → Port) : (s.updPort p f).grps = s.grps := rfl
@[simp] theorem updPort_portSrc (s : State) (p : Fin 4) (f : Port → Port) : (s.updPort p f).portSrc = s.portSrc := rfl
@[simp] theorem updPort_portSink (s : State) (p : Fin 4) (f : Port → Port) : (s.updPort p f).portSink = s.portSink := rfl
@[simp] theorem updPort_asrcs (s : State) (p : Fin 4) (f : Port → Port) : (s.updPort p f).asrcs = s.asrcs := rfl
@[simp] theorem updPort_dlines (s : State) (p : Fin 4) (f : Port → Port) : (s.updPort p f).dlines = s.dlines := rfl
@[simp] theorem updPort_crcs (s : State) (p : Fin 4) (f : Port → Port) : (s.updPort p f).crcs = s.crcs := rfl
@[simp] theorem updPort_crcOwner (s : State) (p : Fin 4) (f : Port → Port) : (s.updPort p f).crcOwner = s.crcOwner := rfl
@[simp] theorem updPort_ains (s : State) (p : Fin 4) (f : Port → Port) : (s.updPort p f).ains = s.ains := rfl
@[simp] theorem updPort_ainOut (s : State) (p : Fin 4) (f : Port → Port) : (s.updPort p f).ainOut = s.ainOut := rfl
@[simp] theorem updPort_tdacQ (s : State) (p : Fin 4) (f : Port → Port) : (s.updPort p f).tdacQ = s.tdacQ := rfl
@[simp] theorem updPort_tdacOwner (s : State) (p : Fin 4) (f : Port → Port) : (s.updPort p f).tdacOwner = s.tdacOwner := rfl
@[simp] theorem updPort_tdac (s : State) (p : Fin 4) (f : Port → Port) : (s.updPort p f).tdac = s.tdac := rfl
@[simp] theorem updPort_fab (s : State) (p : Fin 4) (f : Port → Port) : (s.updPort p f).fab = s.fab := rfl
@[simp] theorem updPort_gains (s : State) (p : Fin 4) (f : Port → Port) : (s.updPort p f).gains = s.gains := rfl
@[simp] theorem updPort_senseOut (s : State) (p : Fin 4) (f : Port → Port) : (s.updPort p f).senseOut = s.senseOut := rfl
@[simp] theorem updPort_injOut (s : State) (p : Fin 4) (f : Port → Port) : (s.updPort p f).injOut = s.injOut := rfl
@[simp] theorem updPort_outs (s : State) (p : Fin 4) (f : Port → Port) : (s.updPort p f).outs = s.outs := rfl
@[simp] theorem updPort_cpOn (s : State) (p : Fin 4) (f : Port → Port) : (s.updPort p f).cpOn = s.cpOn := rfl
@[simp] theorem updPort_jacks (s : State) (p : Fin 4) (f : Port → Port) : (s.updPort p f).jacks = s.jacks := rfl
@[simp] theorem updPort_jackTrig (s : State) (p : Fin 4) (f : Port → Port) : (s.updPort p f).jackTrig = s.jackTrig := rfl
@[simp] theorem updPort_jackFired (s : State) (p : Fin 4) (f : Port → Port) : (s.updPort p f).jackFired = s.jackFired := rfl
@[simp] theorem updPort_jackPages (s : State) (p : Fin 4) (f : Port → Port) : (s.updPort p f).jackPages = s.jackPages := rfl
@[simp] theorem updPort_hka (s : State) (p : Fin 4) (f : Port → Port) : (s.updPort p f).hka = s.hka := rfl
@[simp] theorem updPort_amps (s : State) (p : Fin 4) (f : Port → Port) : (s.updPort p f).amps = s.amps := rfl
@[simp] theorem updPort_sag (s : State) (p : Fin 4) (f : Port → Port) : (s.updPort p f).sag = s.sag := rfl
@[simp] theorem updPort_boot (s : State) (p : Fin 4) (f : Port → Port) : (s.updPort p f).boot = s.boot := rfl
@[simp] theorem updPort_fuses (s : State) (p : Fin 4) (f : Port → Port) : (s.updPort p f).fuses = s.fuses := rfl
@[simp] theorem updPort_fusesRead (s : State) (p : Fin 4) (f : Port → Port) : (s.updPort p f).fusesRead = s.fusesRead := rfl
@[simp] theorem updPort_blow (s : State) (p : Fin 4) (f : Port → Port) : (s.updPort p f).blow = s.blow := rfl
@[simp] theorem updPort_injs (s : State) (p : Fin 4) (f : Port → Port) : (s.updPort p f).injs = s.injs := rfl
@[simp] theorem updPort_caps (s : State) (p : Fin 4) (f : Port → Port) : (s.updPort p f).caps = s.caps := rfl
@[simp] theorem updPort_book (s : State) (p : Fin 4) (f : Port → Port) : (s.updPort p f).book = s.book := rfl
@[simp] theorem updPort_irqCopy (s : State) (p : Fin 4) (f : Port → Port) : (s.updPort p f).irqCopy = s.irqCopy := rfl
@[simp] theorem updPort_xportCopy (s : State) (p : Fin 4) (f : Port → Port) : (s.updPort p f).xportCopy = s.xportCopy := rfl
@[simp] theorem updPort_vio (s : State) (p : Fin 4) (f : Port → Port) : (s.updPort p f).vio = s.vio := rfl
@[simp] theorem updPort_esd (s : State) (p : Fin 4) (f : Port → Port) : (s.updPort p f).esd = s.esd := rfl

/-! ## updBib -/

@[simp] theorem updBib_pending (s : State) (k : Nat) (f : Bib → Bib) : (s.updBib k f).pending = s.pending := rfl
@[simp] theorem updBib_fresh (s : State) (k : Nat) (f : Bib → Bib) : (s.updBib k f).fresh = s.fresh := rfl
@[simp] theorem updBib_bus (s : State) (k : Nat) (f : Bib → Bib) : (s.updBib k f).bus = s.bus := rfl
@[simp] theorem updBib_regs (s : State) (k : Nat) (f : Bib → Bib) : (s.updBib k f).regs = s.regs := rfl
@[simp] theorem updBib_mem (s : State) (k : Nat) (f : Bib → Bib) : (s.updBib k f).mem = s.mem := rfl
@[simp] theorem updBib_pageVers (s : State) (k : Nat) (f : Bib → Bib) : (s.updBib k f).pageVers = s.pageVers := rfl
@[simp] theorem updBib_cfgPend (s : State) (k : Nat) (f : Bib → Bib) : (s.updBib k f).cfgPend = s.cfgPend := rfl
@[simp] theorem updBib_tickWrites (s : State) (k : Nat) (f : Bib → Bib) : (s.updBib k f).tickWrites = s.tickWrites := rfl
@[simp] theorem updBib_syscnt (s : State) (k : Nat) (f : Bib → Bib) : (s.updBib k f).syscnt = s.syscnt := rfl
@[simp] theorem updBib_coarse (s : State) (k : Nat) (f : Bib → Bib) : (s.updBib k f).coarse = s.coarse := rfl
@[simp] theorem updBib_sysHold (s : State) (k : Nat) (f : Bib → Bib) : (s.updBib k f).sysHold = s.sysHold := rfl
@[simp] theorem updBib_tickcnt (s : State) (k : Nat) (f : Bib → Bib) : (s.updBib k f).tickcnt = s.tickcnt := rfl
@[simp] theorem updBib_tickSys (s : State) (k : Nat) (f : Bib → Bib) : (s.updBib k f).tickSys = s.tickSys := rfl
@[simp] theorem updBib_ticks (s : State) (k : Nat) (f : Bib → Bib) : (s.updBib k f).ticks = s.ticks := rfl
@[simp] theorem updBib_boundary (s : State) (k : Nat) (f : Bib → Bib) : (s.updBib k f).boundary = s.boundary := rfl
@[simp] theorem updBib_mons (s : State) (k : Nat) (f : Bib → Bib) : (s.updBib k f).mons = s.mons := rfl
@[simp] theorem updBib_pll (s : State) (k : Nat) (f : Bib → Bib) : (s.updBib k f).pll = s.pll := rfl
@[simp] theorem updBib_ens (s : State) (k : Nat) (f : Bib → Bib) : (s.updBib k f).ens = s.ens := rfl
@[simp] theorem updBib_addrPins (s : State) (k : Nat) (f : Bib → Bib) : (s.updBib k f).addrPins = s.addrPins := rfl
@[simp] theorem updBib_index (s : State) (k : Nat) (f : Bib → Bib) : (s.updBib k f).index = s.index := rfl
@[simp] theorem updBib_rings (s : State) (k : Nat) (f : Bib → Bib) : (s.updBib k f).rings = s.rings := rfl
@[simp] theorem updBib_evtHeld (s : State) (k : Nat) (f : Bib → Bib) : (s.updBib k f).evtHeld = s.evtHeld := rfl
@[simp] theorem updBib_evtNow (s : State) (k : Nat) (f : Bib → Bib) : (s.updBib k f).evtNow = s.evtNow := rfl
@[simp] theorem updBib_irqHeld (s : State) (k : Nat) (f : Bib → Bib) : (s.updBib k f).irqHeld = s.irqHeld := rfl
@[simp] theorem updBib_evtLog (s : State) (k : Nat) (f : Bib → Bib) : (s.updBib k f).evtLog = s.evtLog := rfl
@[simp] theorem updBib_doms (s : State) (k : Nat) (f : Bib → Bib) : (s.updBib k f).doms = s.doms := rfl
@[simp] theorem updBib_change (s : State) (k : Nat) (f : Bib → Bib) : (s.updBib k f).change = s.change := rfl
@[simp] theorem updBib_lift (s : State) (k : Nat) (f : Bib → Bib) : (s.updBib k f).lift = s.lift := rfl
@[simp] theorem updBib_pvdd (s : State) (k : Nat) (f : Bib → Bib) : (s.updBib k f).pvdd = s.pvdd := rfl
@[simp] theorem updBib_resetHold (s : State) (k : Nat) (f : Bib → Bib) : (s.updBib k f).resetHold = s.resetHold := rfl
@[simp] theorem updBib_ports (s : State) (k : Nat) (f : Bib → Bib) : (s.updBib k f).ports = s.ports := rfl
@[simp] theorem updBib_claims (s : State) (k : Nat) (f : Bib → Bib) : (s.updBib k f).claims = s.claims := rfl
@[simp] theorem updBib_txn (s : State) (k : Nat) (f : Bib → Bib) : (s.updBib k f).txn = { s.txn with bibs := upd s.txn.bibs k f } := rfl
@[simp] theorem updBib_saps (s : State) (k : Nat) (f : Bib → Bib) : (s.updBib k f).saps = s.saps := rfl
@[simp] theorem updBib_grps (s : State) (k : Nat) (f : Bib → Bib) : (s.updBib k f).grps = s.grps := rfl
@[simp] theorem updBib_portSrc (s : State) (k : Nat) (f : Bib → Bib) : (s.updBib k f).portSrc = s.portSrc := rfl
@[simp] theorem updBib_portSink (s : State) (k : Nat) (f : Bib → Bib) : (s.updBib k f).portSink = s.portSink := rfl
@[simp] theorem updBib_asrcs (s : State) (k : Nat) (f : Bib → Bib) : (s.updBib k f).asrcs = s.asrcs := rfl
@[simp] theorem updBib_dlines (s : State) (k : Nat) (f : Bib → Bib) : (s.updBib k f).dlines = s.dlines := rfl
@[simp] theorem updBib_crcs (s : State) (k : Nat) (f : Bib → Bib) : (s.updBib k f).crcs = s.crcs := rfl
@[simp] theorem updBib_crcOwner (s : State) (k : Nat) (f : Bib → Bib) : (s.updBib k f).crcOwner = s.crcOwner := rfl
@[simp] theorem updBib_ains (s : State) (k : Nat) (f : Bib → Bib) : (s.updBib k f).ains = s.ains := rfl
@[simp] theorem updBib_ainOut (s : State) (k : Nat) (f : Bib → Bib) : (s.updBib k f).ainOut = s.ainOut := rfl
@[simp] theorem updBib_tdacQ (s : State) (k : Nat) (f : Bib → Bib) : (s.updBib k f).tdacQ = s.tdacQ := rfl
@[simp] theorem updBib_tdacOwner (s : State) (k : Nat) (f : Bib → Bib) : (s.updBib k f).tdacOwner = s.tdacOwner := rfl
@[simp] theorem updBib_tdac (s : State) (k : Nat) (f : Bib → Bib) : (s.updBib k f).tdac = s.tdac := rfl
@[simp] theorem updBib_fab (s : State) (k : Nat) (f : Bib → Bib) : (s.updBib k f).fab = s.fab := rfl
@[simp] theorem updBib_gains (s : State) (k : Nat) (f : Bib → Bib) : (s.updBib k f).gains = s.gains := rfl
@[simp] theorem updBib_senseOut (s : State) (k : Nat) (f : Bib → Bib) : (s.updBib k f).senseOut = s.senseOut := rfl
@[simp] theorem updBib_injOut (s : State) (k : Nat) (f : Bib → Bib) : (s.updBib k f).injOut = s.injOut := rfl
@[simp] theorem updBib_outs (s : State) (k : Nat) (f : Bib → Bib) : (s.updBib k f).outs = s.outs := rfl
@[simp] theorem updBib_cpOn (s : State) (k : Nat) (f : Bib → Bib) : (s.updBib k f).cpOn = s.cpOn := rfl
@[simp] theorem updBib_jacks (s : State) (k : Nat) (f : Bib → Bib) : (s.updBib k f).jacks = s.jacks := rfl
@[simp] theorem updBib_jackTrig (s : State) (k : Nat) (f : Bib → Bib) : (s.updBib k f).jackTrig = s.jackTrig := rfl
@[simp] theorem updBib_jackFired (s : State) (k : Nat) (f : Bib → Bib) : (s.updBib k f).jackFired = s.jackFired := rfl
@[simp] theorem updBib_jackPages (s : State) (k : Nat) (f : Bib → Bib) : (s.updBib k f).jackPages = s.jackPages := rfl
@[simp] theorem updBib_hka (s : State) (k : Nat) (f : Bib → Bib) : (s.updBib k f).hka = s.hka := rfl
@[simp] theorem updBib_amps (s : State) (k : Nat) (f : Bib → Bib) : (s.updBib k f).amps = s.amps := rfl
@[simp] theorem updBib_sag (s : State) (k : Nat) (f : Bib → Bib) : (s.updBib k f).sag = s.sag := rfl
@[simp] theorem updBib_boot (s : State) (k : Nat) (f : Bib → Bib) : (s.updBib k f).boot = s.boot := rfl
@[simp] theorem updBib_fuses (s : State) (k : Nat) (f : Bib → Bib) : (s.updBib k f).fuses = s.fuses := rfl
@[simp] theorem updBib_fusesRead (s : State) (k : Nat) (f : Bib → Bib) : (s.updBib k f).fusesRead = s.fusesRead := rfl
@[simp] theorem updBib_blow (s : State) (k : Nat) (f : Bib → Bib) : (s.updBib k f).blow = s.blow := rfl
@[simp] theorem updBib_injs (s : State) (k : Nat) (f : Bib → Bib) : (s.updBib k f).injs = s.injs := rfl
@[simp] theorem updBib_caps (s : State) (k : Nat) (f : Bib → Bib) : (s.updBib k f).caps = s.caps := rfl
@[simp] theorem updBib_book (s : State) (k : Nat) (f : Bib → Bib) : (s.updBib k f).book = s.book := rfl
@[simp] theorem updBib_irqCopy (s : State) (k : Nat) (f : Bib → Bib) : (s.updBib k f).irqCopy = s.irqCopy := rfl
@[simp] theorem updBib_xportCopy (s : State) (k : Nat) (f : Bib → Bib) : (s.updBib k f).xportCopy = s.xportCopy := rfl
@[simp] theorem updBib_vio (s : State) (k : Nat) (f : Bib → Bib) : (s.updBib k f).vio = s.vio := rfl
@[simp] theorem updBib_esd (s : State) (k : Nat) (f : Bib → Bib) : (s.updBib k f).esd = s.esd := rfl

/-! ## updChange -/

@[simp] theorem updChange_pending (s : State) (f : Change → Change) : (s.updChange f).pending = s.pending := rfl
@[simp] theorem updChange_fresh (s : State) (f : Change → Change) : (s.updChange f).fresh = s.fresh := rfl
@[simp] theorem updChange_bus (s : State) (f : Change → Change) : (s.updChange f).bus = s.bus := rfl
@[simp] theorem updChange_regs (s : State) (f : Change → Change) : (s.updChange f).regs = s.regs := rfl
@[simp] theorem updChange_mem (s : State) (f : Change → Change) : (s.updChange f).mem = s.mem := rfl
@[simp] theorem updChange_pageVers (s : State) (f : Change → Change) : (s.updChange f).pageVers = s.pageVers := rfl
@[simp] theorem updChange_cfgPend (s : State) (f : Change → Change) : (s.updChange f).cfgPend = s.cfgPend := rfl
@[simp] theorem updChange_tickWrites (s : State) (f : Change → Change) : (s.updChange f).tickWrites = s.tickWrites := rfl
@[simp] theorem updChange_syscnt (s : State) (f : Change → Change) : (s.updChange f).syscnt = s.syscnt := rfl
@[simp] theorem updChange_coarse (s : State) (f : Change → Change) : (s.updChange f).coarse = s.coarse := rfl
@[simp] theorem updChange_sysHold (s : State) (f : Change → Change) : (s.updChange f).sysHold = s.sysHold := rfl
@[simp] theorem updChange_tickcnt (s : State) (f : Change → Change) : (s.updChange f).tickcnt = s.tickcnt := rfl
@[simp] theorem updChange_tickSys (s : State) (f : Change → Change) : (s.updChange f).tickSys = s.tickSys := rfl
@[simp] theorem updChange_ticks (s : State) (f : Change → Change) : (s.updChange f).ticks = s.ticks := rfl
@[simp] theorem updChange_boundary (s : State) (f : Change → Change) : (s.updChange f).boundary = s.boundary := rfl
@[simp] theorem updChange_mons (s : State) (f : Change → Change) : (s.updChange f).mons = s.mons := rfl
@[simp] theorem updChange_pll (s : State) (f : Change → Change) : (s.updChange f).pll = s.pll := rfl
@[simp] theorem updChange_ens (s : State) (f : Change → Change) : (s.updChange f).ens = s.ens := rfl
@[simp] theorem updChange_addrPins (s : State) (f : Change → Change) : (s.updChange f).addrPins = s.addrPins := rfl
@[simp] theorem updChange_index (s : State) (f : Change → Change) : (s.updChange f).index = s.index := rfl
@[simp] theorem updChange_rings (s : State) (f : Change → Change) : (s.updChange f).rings = s.rings := rfl
@[simp] theorem updChange_evtHeld (s : State) (f : Change → Change) : (s.updChange f).evtHeld = s.evtHeld := rfl
@[simp] theorem updChange_evtNow (s : State) (f : Change → Change) : (s.updChange f).evtNow = s.evtNow := rfl
@[simp] theorem updChange_irqHeld (s : State) (f : Change → Change) : (s.updChange f).irqHeld = s.irqHeld := rfl
@[simp] theorem updChange_evtLog (s : State) (f : Change → Change) : (s.updChange f).evtLog = s.evtLog := rfl
@[simp] theorem updChange_doms (s : State) (f : Change → Change) : (s.updChange f).doms = s.doms := rfl
@[simp] theorem updChange_change (s : State) (f : Change → Change) : (s.updChange f).change = s.change.map f := rfl
@[simp] theorem updChange_lift (s : State) (f : Change → Change) : (s.updChange f).lift = s.lift := rfl
@[simp] theorem updChange_pvdd (s : State) (f : Change → Change) : (s.updChange f).pvdd = s.pvdd := rfl
@[simp] theorem updChange_resetHold (s : State) (f : Change → Change) : (s.updChange f).resetHold = s.resetHold := rfl
@[simp] theorem updChange_ports (s : State) (f : Change → Change) : (s.updChange f).ports = s.ports := rfl
@[simp] theorem updChange_claims (s : State) (f : Change → Change) : (s.updChange f).claims = s.claims := rfl
@[simp] theorem updChange_txn (s : State) (f : Change → Change) : (s.updChange f).txn = s.txn := rfl
@[simp] theorem updChange_saps (s : State) (f : Change → Change) : (s.updChange f).saps = s.saps := rfl
@[simp] theorem updChange_grps (s : State) (f : Change → Change) : (s.updChange f).grps = s.grps := rfl
@[simp] theorem updChange_portSrc (s : State) (f : Change → Change) : (s.updChange f).portSrc = s.portSrc := rfl
@[simp] theorem updChange_portSink (s : State) (f : Change → Change) : (s.updChange f).portSink = s.portSink := rfl
@[simp] theorem updChange_asrcs (s : State) (f : Change → Change) : (s.updChange f).asrcs = s.asrcs := rfl
@[simp] theorem updChange_dlines (s : State) (f : Change → Change) : (s.updChange f).dlines = s.dlines := rfl
@[simp] theorem updChange_crcs (s : State) (f : Change → Change) : (s.updChange f).crcs = s.crcs := rfl
@[simp] theorem updChange_crcOwner (s : State) (f : Change → Change) : (s.updChange f).crcOwner = s.crcOwner := rfl
@[simp] theorem updChange_ains (s : State) (f : Change → Change) : (s.updChange f).ains = s.ains := rfl
@[simp] theorem updChange_ainOut (s : State) (f : Change → Change) : (s.updChange f).ainOut = s.ainOut := rfl
@[simp] theorem updChange_tdacQ (s : State) (f : Change → Change) : (s.updChange f).tdacQ = s.tdacQ := rfl
@[simp] theorem updChange_tdacOwner (s : State) (f : Change → Change) : (s.updChange f).tdacOwner = s.tdacOwner := rfl
@[simp] theorem updChange_tdac (s : State) (f : Change → Change) : (s.updChange f).tdac = s.tdac := rfl
@[simp] theorem updChange_fab (s : State) (f : Change → Change) : (s.updChange f).fab = s.fab := rfl
@[simp] theorem updChange_gains (s : State) (f : Change → Change) : (s.updChange f).gains = s.gains := rfl
@[simp] theorem updChange_senseOut (s : State) (f : Change → Change) : (s.updChange f).senseOut = s.senseOut := rfl
@[simp] theorem updChange_injOut (s : State) (f : Change → Change) : (s.updChange f).injOut = s.injOut := rfl
@[simp] theorem updChange_outs (s : State) (f : Change → Change) : (s.updChange f).outs = s.outs := rfl
@[simp] theorem updChange_cpOn (s : State) (f : Change → Change) : (s.updChange f).cpOn = s.cpOn := rfl
@[simp] theorem updChange_jacks (s : State) (f : Change → Change) : (s.updChange f).jacks = s.jacks := rfl
@[simp] theorem updChange_jackTrig (s : State) (f : Change → Change) : (s.updChange f).jackTrig = s.jackTrig := rfl
@[simp] theorem updChange_jackFired (s : State) (f : Change → Change) : (s.updChange f).jackFired = s.jackFired := rfl
@[simp] theorem updChange_jackPages (s : State) (f : Change → Change) : (s.updChange f).jackPages = s.jackPages := rfl
@[simp] theorem updChange_hka (s : State) (f : Change → Change) : (s.updChange f).hka = s.hka := rfl
@[simp] theorem updChange_amps (s : State) (f : Change → Change) : (s.updChange f).amps = s.amps := rfl
@[simp] theorem updChange_sag (s : State) (f : Change → Change) : (s.updChange f).sag = s.sag := rfl
@[simp] theorem updChange_boot (s : State) (f : Change → Change) : (s.updChange f).boot = s.boot := rfl
@[simp] theorem updChange_fuses (s : State) (f : Change → Change) : (s.updChange f).fuses = s.fuses := rfl
@[simp] theorem updChange_fusesRead (s : State) (f : Change → Change) : (s.updChange f).fusesRead = s.fusesRead := rfl
@[simp] theorem updChange_blow (s : State) (f : Change → Change) : (s.updChange f).blow = s.blow := rfl
@[simp] theorem updChange_injs (s : State) (f : Change → Change) : (s.updChange f).injs = s.injs := rfl
@[simp] theorem updChange_caps (s : State) (f : Change → Change) : (s.updChange f).caps = s.caps := rfl
@[simp] theorem updChange_book (s : State) (f : Change → Change) : (s.updChange f).book = s.book := rfl
@[simp] theorem updChange_irqCopy (s : State) (f : Change → Change) : (s.updChange f).irqCopy = s.irqCopy := rfl
@[simp] theorem updChange_xportCopy (s : State) (f : Change → Change) : (s.updChange f).xportCopy = s.xportCopy := rfl
@[simp] theorem updChange_vio (s : State) (f : Change → Change) : (s.updChange f).vio = s.vio := rfl
@[simp] theorem updChange_esd (s : State) (f : Change → Change) : (s.updChange f).esd = s.esd := rfl

/-! ## hold -/

@[simp] theorem hold_pending (s : State) (a v : Nat) : (s.hold a v).pending = s.pending := rfl
@[simp] theorem hold_fresh (s : State) (a v : Nat) : (s.hold a v).fresh = s.fresh := rfl
@[simp] theorem hold_bus (s : State) (a v : Nat) : (s.hold a v).bus = s.bus := rfl
@[simp] theorem hold_regs (s : State) (a v : Nat) : (s.hold a v).regs = s.regs := rfl
@[simp] theorem hold_mem (s : State) (a v : Nat) : (s.hold a v).mem = s.mem := rfl
@[simp] theorem hold_pageVers (s : State) (a v : Nat) : (s.hold a v).pageVers = s.pageVers := rfl
@[simp] theorem hold_cfgPend (s : State) (a v : Nat) : (s.hold a v).cfgPend = s.cfgPend ++ [(a, v)] := rfl
@[simp] theorem hold_tickWrites (s : State) (a v : Nat) : (s.hold a v).tickWrites = s.tickWrites := rfl
@[simp] theorem hold_syscnt (s : State) (a v : Nat) : (s.hold a v).syscnt = s.syscnt := rfl
@[simp] theorem hold_coarse (s : State) (a v : Nat) : (s.hold a v).coarse = s.coarse := rfl
@[simp] theorem hold_sysHold (s : State) (a v : Nat) : (s.hold a v).sysHold = s.sysHold := rfl
@[simp] theorem hold_tickcnt (s : State) (a v : Nat) : (s.hold a v).tickcnt = s.tickcnt := rfl
@[simp] theorem hold_tickSys (s : State) (a v : Nat) : (s.hold a v).tickSys = s.tickSys := rfl
@[simp] theorem hold_ticks (s : State) (a v : Nat) : (s.hold a v).ticks = s.ticks := rfl
@[simp] theorem hold_boundary (s : State) (a v : Nat) : (s.hold a v).boundary = s.boundary := rfl
@[simp] theorem hold_mons (s : State) (a v : Nat) : (s.hold a v).mons = s.mons := rfl
@[simp] theorem hold_pll (s : State) (a v : Nat) : (s.hold a v).pll = s.pll := rfl
@[simp] theorem hold_ens (s : State) (a v : Nat) : (s.hold a v).ens = s.ens := rfl
@[simp] theorem hold_addrPins (s : State) (a v : Nat) : (s.hold a v).addrPins = s.addrPins := rfl
@[simp] theorem hold_index (s : State) (a v : Nat) : (s.hold a v).index = s.index := rfl
@[simp] theorem hold_rings (s : State) (a v : Nat) : (s.hold a v).rings = s.rings := rfl
@[simp] theorem hold_evtHeld (s : State) (a v : Nat) : (s.hold a v).evtHeld = s.evtHeld := rfl
@[simp] theorem hold_evtNow (s : State) (a v : Nat) : (s.hold a v).evtNow = s.evtNow := rfl
@[simp] theorem hold_irqHeld (s : State) (a v : Nat) : (s.hold a v).irqHeld = s.irqHeld := rfl
@[simp] theorem hold_evtLog (s : State) (a v : Nat) : (s.hold a v).evtLog = s.evtLog := rfl
@[simp] theorem hold_doms (s : State) (a v : Nat) : (s.hold a v).doms = s.doms := rfl
@[simp] theorem hold_change (s : State) (a v : Nat) : (s.hold a v).change = s.change := rfl
@[simp] theorem hold_lift (s : State) (a v : Nat) : (s.hold a v).lift = s.lift := rfl
@[simp] theorem hold_pvdd (s : State) (a v : Nat) : (s.hold a v).pvdd = s.pvdd := rfl
@[simp] theorem hold_resetHold (s : State) (a v : Nat) : (s.hold a v).resetHold = s.resetHold := rfl
@[simp] theorem hold_ports (s : State) (a v : Nat) : (s.hold a v).ports = s.ports := rfl
@[simp] theorem hold_claims (s : State) (a v : Nat) : (s.hold a v).claims = s.claims := rfl
@[simp] theorem hold_txn (s : State) (a v : Nat) : (s.hold a v).txn = s.txn := rfl
@[simp] theorem hold_saps (s : State) (a v : Nat) : (s.hold a v).saps = s.saps := rfl
@[simp] theorem hold_grps (s : State) (a v : Nat) : (s.hold a v).grps = s.grps := rfl
@[simp] theorem hold_portSrc (s : State) (a v : Nat) : (s.hold a v).portSrc = s.portSrc := rfl
@[simp] theorem hold_portSink (s : State) (a v : Nat) : (s.hold a v).portSink = s.portSink := rfl
@[simp] theorem hold_asrcs (s : State) (a v : Nat) : (s.hold a v).asrcs = s.asrcs := rfl
@[simp] theorem hold_dlines (s : State) (a v : Nat) : (s.hold a v).dlines = s.dlines := rfl
@[simp] theorem hold_crcs (s : State) (a v : Nat) : (s.hold a v).crcs = s.crcs := rfl
@[simp] theorem hold_crcOwner (s : State) (a v : Nat) : (s.hold a v).crcOwner = s.crcOwner := rfl
@[simp] theorem hold_ains (s : State) (a v : Nat) : (s.hold a v).ains = s.ains := rfl
@[simp] theorem hold_ainOut (s : State) (a v : Nat) : (s.hold a v).ainOut = s.ainOut := rfl
@[simp] theorem hold_tdacQ (s : State) (a v : Nat) : (s.hold a v).tdacQ = s.tdacQ := rfl
@[simp] theorem hold_tdacOwner (s : State) (a v : Nat) : (s.hold a v).tdacOwner = s.tdacOwner := rfl
@[simp] theorem hold_tdac (s : State) (a v : Nat) : (s.hold a v).tdac = s.tdac := rfl
@[simp] theorem hold_fab (s : State) (a v : Nat) : (s.hold a v).fab = s.fab := rfl
@[simp] theorem hold_gains (s : State) (a v : Nat) : (s.hold a v).gains = s.gains := rfl
@[simp] theorem hold_senseOut (s : State) (a v : Nat) : (s.hold a v).senseOut = s.senseOut := rfl
@[simp] theorem hold_injOut (s : State) (a v : Nat) : (s.hold a v).injOut = s.injOut := rfl
@[simp] theorem hold_outs (s : State) (a v : Nat) : (s.hold a v).outs = s.outs := rfl
@[simp] theorem hold_cpOn (s : State) (a v : Nat) : (s.hold a v).cpOn = s.cpOn := rfl
@[simp] theorem hold_jacks (s : State) (a v : Nat) : (s.hold a v).jacks = s.jacks := rfl
@[simp] theorem hold_jackTrig (s : State) (a v : Nat) : (s.hold a v).jackTrig = s.jackTrig := rfl
@[simp] theorem hold_jackFired (s : State) (a v : Nat) : (s.hold a v).jackFired = s.jackFired := rfl
@[simp] theorem hold_jackPages (s : State) (a v : Nat) : (s.hold a v).jackPages = s.jackPages := rfl
@[simp] theorem hold_hka (s : State) (a v : Nat) : (s.hold a v).hka = s.hka := rfl
@[simp] theorem hold_amps (s : State) (a v : Nat) : (s.hold a v).amps = s.amps := rfl
@[simp] theorem hold_sag (s : State) (a v : Nat) : (s.hold a v).sag = s.sag := rfl
@[simp] theorem hold_boot (s : State) (a v : Nat) : (s.hold a v).boot = s.boot := rfl
@[simp] theorem hold_fuses (s : State) (a v : Nat) : (s.hold a v).fuses = s.fuses := rfl
@[simp] theorem hold_fusesRead (s : State) (a v : Nat) : (s.hold a v).fusesRead = s.fusesRead := rfl
@[simp] theorem hold_blow (s : State) (a v : Nat) : (s.hold a v).blow = s.blow := rfl
@[simp] theorem hold_injs (s : State) (a v : Nat) : (s.hold a v).injs = s.injs := rfl
@[simp] theorem hold_caps (s : State) (a v : Nat) : (s.hold a v).caps = s.caps := rfl
@[simp] theorem hold_book (s : State) (a v : Nat) : (s.hold a v).book = s.book := rfl
@[simp] theorem hold_irqCopy (s : State) (a v : Nat) : (s.hold a v).irqCopy = s.irqCopy := rfl
@[simp] theorem hold_xportCopy (s : State) (a v : Nat) : (s.hold a v).xportCopy = s.xportCopy := rfl
@[simp] theorem hold_vio (s : State) (a v : Nat) : (s.hold a v).vio = s.vio := rfl
@[simp] theorem hold_esd (s : State) (a v : Nat) : (s.hold a v).esd = s.esd := rfl

/-! ## dropHeld -/

@[simp] theorem dropHeld_pending (s : State) (sel : Nat → Bool) : (s.dropHeld sel).pending = s.pending := rfl
@[simp] theorem dropHeld_fresh (s : State) (sel : Nat → Bool) : (s.dropHeld sel).fresh = s.fresh := rfl
@[simp] theorem dropHeld_bus (s : State) (sel : Nat → Bool) : (s.dropHeld sel).bus = s.bus := rfl
@[simp] theorem dropHeld_regs (s : State) (sel : Nat → Bool) : (s.dropHeld sel).regs = s.regs := rfl
@[simp] theorem dropHeld_mem (s : State) (sel : Nat → Bool) : (s.dropHeld sel).mem = s.mem := rfl
@[simp] theorem dropHeld_pageVers (s : State) (sel : Nat → Bool) : (s.dropHeld sel).pageVers = s.pageVers := rfl
@[simp] theorem dropHeld_cfgPend (s : State) (sel : Nat → Bool) : (s.dropHeld sel).cfgPend = s.cfgPend.filter fun e => !sel e.1 := rfl
@[simp] theorem dropHeld_tickWrites (s : State) (sel : Nat → Bool) : (s.dropHeld sel).tickWrites = s.tickWrites := rfl
@[simp] theorem dropHeld_syscnt (s : State) (sel : Nat → Bool) : (s.dropHeld sel).syscnt = s.syscnt := rfl
@[simp] theorem dropHeld_coarse (s : State) (sel : Nat → Bool) : (s.dropHeld sel).coarse = s.coarse := rfl
@[simp] theorem dropHeld_sysHold (s : State) (sel : Nat → Bool) : (s.dropHeld sel).sysHold = s.sysHold := rfl
@[simp] theorem dropHeld_tickcnt (s : State) (sel : Nat → Bool) : (s.dropHeld sel).tickcnt = s.tickcnt := rfl
@[simp] theorem dropHeld_tickSys (s : State) (sel : Nat → Bool) : (s.dropHeld sel).tickSys = s.tickSys := rfl
@[simp] theorem dropHeld_ticks (s : State) (sel : Nat → Bool) : (s.dropHeld sel).ticks = s.ticks := rfl
@[simp] theorem dropHeld_boundary (s : State) (sel : Nat → Bool) : (s.dropHeld sel).boundary = s.boundary := rfl
@[simp] theorem dropHeld_mons (s : State) (sel : Nat → Bool) : (s.dropHeld sel).mons = s.mons := rfl
@[simp] theorem dropHeld_pll (s : State) (sel : Nat → Bool) : (s.dropHeld sel).pll = s.pll := rfl
@[simp] theorem dropHeld_ens (s : State) (sel : Nat → Bool) : (s.dropHeld sel).ens = s.ens := rfl
@[simp] theorem dropHeld_addrPins (s : State) (sel : Nat → Bool) : (s.dropHeld sel).addrPins = s.addrPins := rfl
@[simp] theorem dropHeld_index (s : State) (sel : Nat → Bool) : (s.dropHeld sel).index = s.index := rfl
@[simp] theorem dropHeld_rings (s : State) (sel : Nat → Bool) : (s.dropHeld sel).rings = s.rings := rfl
@[simp] theorem dropHeld_evtHeld (s : State) (sel : Nat → Bool) : (s.dropHeld sel).evtHeld = s.evtHeld := rfl
@[simp] theorem dropHeld_evtNow (s : State) (sel : Nat → Bool) : (s.dropHeld sel).evtNow = s.evtNow := rfl
@[simp] theorem dropHeld_irqHeld (s : State) (sel : Nat → Bool) : (s.dropHeld sel).irqHeld = s.irqHeld := rfl
@[simp] theorem dropHeld_evtLog (s : State) (sel : Nat → Bool) : (s.dropHeld sel).evtLog = s.evtLog := rfl
@[simp] theorem dropHeld_doms (s : State) (sel : Nat → Bool) : (s.dropHeld sel).doms = s.doms := rfl
@[simp] theorem dropHeld_change (s : State) (sel : Nat → Bool) : (s.dropHeld sel).change = s.change := rfl
@[simp] theorem dropHeld_lift (s : State) (sel : Nat → Bool) : (s.dropHeld sel).lift = s.lift := rfl
@[simp] theorem dropHeld_pvdd (s : State) (sel : Nat → Bool) : (s.dropHeld sel).pvdd = s.pvdd := rfl
@[simp] theorem dropHeld_resetHold (s : State) (sel : Nat → Bool) : (s.dropHeld sel).resetHold = s.resetHold := rfl
@[simp] theorem dropHeld_ports (s : State) (sel : Nat → Bool) : (s.dropHeld sel).ports = s.ports := rfl
@[simp] theorem dropHeld_claims (s : State) (sel : Nat → Bool) : (s.dropHeld sel).claims = s.claims := rfl
@[simp] theorem dropHeld_txn (s : State) (sel : Nat → Bool) : (s.dropHeld sel).txn = s.txn := rfl
@[simp] theorem dropHeld_saps (s : State) (sel : Nat → Bool) : (s.dropHeld sel).saps = s.saps := rfl
@[simp] theorem dropHeld_grps (s : State) (sel : Nat → Bool) : (s.dropHeld sel).grps = s.grps := rfl
@[simp] theorem dropHeld_portSrc (s : State) (sel : Nat → Bool) : (s.dropHeld sel).portSrc = s.portSrc := rfl
@[simp] theorem dropHeld_portSink (s : State) (sel : Nat → Bool) : (s.dropHeld sel).portSink = s.portSink := rfl
@[simp] theorem dropHeld_asrcs (s : State) (sel : Nat → Bool) : (s.dropHeld sel).asrcs = s.asrcs := rfl
@[simp] theorem dropHeld_dlines (s : State) (sel : Nat → Bool) : (s.dropHeld sel).dlines = s.dlines := rfl
@[simp] theorem dropHeld_crcs (s : State) (sel : Nat → Bool) : (s.dropHeld sel).crcs = s.crcs := rfl
@[simp] theorem dropHeld_crcOwner (s : State) (sel : Nat → Bool) : (s.dropHeld sel).crcOwner = s.crcOwner := rfl
@[simp] theorem dropHeld_ains (s : State) (sel : Nat → Bool) : (s.dropHeld sel).ains = s.ains := rfl
@[simp] theorem dropHeld_ainOut (s : State) (sel : Nat → Bool) : (s.dropHeld sel).ainOut = s.ainOut := rfl
@[simp] theorem dropHeld_tdacQ (s : State) (sel : Nat → Bool) : (s.dropHeld sel).tdacQ = s.tdacQ := rfl
@[simp] theorem dropHeld_tdacOwner (s : State) (sel : Nat → Bool) : (s.dropHeld sel).tdacOwner = s.tdacOwner := rfl
@[simp] theorem dropHeld_tdac (s : State) (sel : Nat → Bool) : (s.dropHeld sel).tdac = s.tdac := rfl
@[simp] theorem dropHeld_fab (s : State) (sel : Nat → Bool) : (s.dropHeld sel).fab = s.fab := rfl
@[simp] theorem dropHeld_gains (s : State) (sel : Nat → Bool) : (s.dropHeld sel).gains = s.gains := rfl
@[simp] theorem dropHeld_senseOut (s : State) (sel : Nat → Bool) : (s.dropHeld sel).senseOut = s.senseOut := rfl
@[simp] theorem dropHeld_injOut (s : State) (sel : Nat → Bool) : (s.dropHeld sel).injOut = s.injOut := rfl
@[simp] theorem dropHeld_outs (s : State) (sel : Nat → Bool) : (s.dropHeld sel).outs = s.outs := rfl
@[simp] theorem dropHeld_cpOn (s : State) (sel : Nat → Bool) : (s.dropHeld sel).cpOn = s.cpOn := rfl
@[simp] theorem dropHeld_jacks (s : State) (sel : Nat → Bool) : (s.dropHeld sel).jacks = s.jacks := rfl
@[simp] theorem dropHeld_jackTrig (s : State) (sel : Nat → Bool) : (s.dropHeld sel).jackTrig = s.jackTrig := rfl
@[simp] theorem dropHeld_jackFired (s : State) (sel : Nat → Bool) : (s.dropHeld sel).jackFired = s.jackFired := rfl
@[simp] theorem dropHeld_jackPages (s : State) (sel : Nat → Bool) : (s.dropHeld sel).jackPages = s.jackPages := rfl
@[simp] theorem dropHeld_hka (s : State) (sel : Nat → Bool) : (s.dropHeld sel).hka = s.hka := rfl
@[simp] theorem dropHeld_amps (s : State) (sel : Nat → Bool) : (s.dropHeld sel).amps = s.amps := rfl
@[simp] theorem dropHeld_sag (s : State) (sel : Nat → Bool) : (s.dropHeld sel).sag = s.sag := rfl
@[simp] theorem dropHeld_boot (s : State) (sel : Nat → Bool) : (s.dropHeld sel).boot = s.boot := rfl
@[simp] theorem dropHeld_fuses (s : State) (sel : Nat → Bool) : (s.dropHeld sel).fuses = s.fuses := rfl
@[simp] theorem dropHeld_fusesRead (s : State) (sel : Nat → Bool) : (s.dropHeld sel).fusesRead = s.fusesRead := rfl
@[simp] theorem dropHeld_blow (s : State) (sel : Nat → Bool) : (s.dropHeld sel).blow = s.blow := rfl
@[simp] theorem dropHeld_injs (s : State) (sel : Nat → Bool) : (s.dropHeld sel).injs = s.injs := rfl
@[simp] theorem dropHeld_caps (s : State) (sel : Nat → Bool) : (s.dropHeld sel).caps = s.caps := rfl
@[simp] theorem dropHeld_book (s : State) (sel : Nat → Bool) : (s.dropHeld sel).book = s.book := rfl
@[simp] theorem dropHeld_irqCopy (s : State) (sel : Nat → Bool) : (s.dropHeld sel).irqCopy = s.irqCopy := rfl
@[simp] theorem dropHeld_xportCopy (s : State) (sel : Nat → Bool) : (s.dropHeld sel).xportCopy = s.xportCopy := rfl
@[simp] theorem dropHeld_vio (s : State) (sel : Nat → Bool) : (s.dropHeld sel).vio = s.vio := rfl
@[simp] theorem dropHeld_esd (s : State) (sel : Nat → Bool) : (s.dropHeld sel).esd = s.esd := rfl

end Sys2Proof.Machine
end

