-- ==== Sys2Proof/Laws/Regs.lean ====
section
/-!
SUPPORT. Laws of registers and memory bytes: what a read gives after a write.
-/
namespace Sys2Proof.Machine

/-- A state with the same registers reads the same word. -/
theorem reg_of_regs {s t : State} (h : t.regs = s.regs) (a : Nat) : t.reg a = s.reg a := by rw [State.reg, State.reg, h]

/-- A state with the same registers reads the same field. -/
theorem fld_of_regs {s t : State} (h : t.regs = s.regs) (f : Fld) : t.fld f = s.fld f := by
  rw [State.fld, State.fld, reg_of_regs h]

/-- A register reads as written, and the others as before. -/
theorem reg_setReg (s : State) (a b : Nat) (w : Word) : (s.setReg a w).reg b = if a = b then w else s.reg b := by
  rw [State.reg, setReg_regs, sparseGet_set _ _ _ _ _ _ (fun h => by rw [h])]
  rfl

@[simp] theorem reg_setReg_same (s : State) (a : Nat) (w : Word) : (s.setReg a w).reg a = w := by simp [reg_setReg]

@[simp] theorem reg_setReg_ne (s : State) {a b : Nat} (w : Word) (h : a ≠ b) : (s.setReg a w).reg b = s.reg b := by
  simp [reg_setReg, h]

@[simp] theorem reg_setFld_ne (s : State) (f : Fld) (v : Nat) {b : Nat} (h : f.addr ≠ b) : (s.setFld f v).reg b = s.reg b :=
  reg_setReg_ne s _ h

/-- The word of a register after one of its fields is set. -/
theorem toNat_reg_setFld (s : State) (f : Fld) (v : Nat) (h : f.lo ≤ f.hi ∧ f.hi < 32) :
    ((s.setFld f v).reg f.addr).toNat = putBits (s.reg f.addr).toNat f.lo f.width v := by
  rw [State.setFld, reg_setReg_same, BitVec.toNat_ofNat, Nat.mod_eq_of_lt]
  exact putBits_lt _ _ _ _ (s.reg f.addr).isLt (by simp only [Fld.width]; omega)

/-- A field of another register stays when a register is written. -/
@[simp] theorem fld_setReg_ne (s : State) {a : Nat} (w : Word) {f : Fld} (h : a ≠ f.addr) : (s.setReg a w).fld f = s.fld f := by
  rw [State.fld, State.fld, reg_setReg_ne s w h]

/-- A field reads back what it was set to. -/
theorem fld_setFld_same (s : State) (f : Fld) (v : Nat) (h : f.lo ≤ f.hi ∧ f.hi < 32) :
    (s.setFld f v).fld f = v % 2 ^ f.width := by
  rw [State.fld, toNat_reg_setFld s f v h, bitsAt_putBits_same]

/-- A field of another register stays when a field is set. -/
theorem fld_setFld_addr (s : State) {f g : Fld} (v : Nat) (h : f.addr ≠ g.addr) : (s.setFld f v).fld g = s.fld g :=
  fld_setReg_ne s _ h

/-- A field that does not overlap the one set stays. -/
theorem fld_setFld_bits (s : State) {f g : Fld} (v : Nat) (hf : f.lo ≤ f.hi ∧ f.hi < 32) (h : f.hi < g.lo ∨ g.hi < f.lo) :
    (s.setFld f v).fld g = s.fld g := by
  by_cases ha : f.addr = g.addr
  · rw [State.fld, State.fld, ← ha, toNat_reg_setFld s f v hf]
    by_cases hg : g.lo ≤ g.hi
    · exact bitsAt_putBits_ne _ _ _ _ _ _ (by simp only [Fld.width]; omega)
    · have hw : g.width = 0 := by simp only [Fld.width]; omega
      simp [bitsAt, hw, Nat.mod_one]
  · exact fld_setFld_addr s v ha

/-! ## Memory bytes -/

/-- A byte reads as written, and the others as before. -/
theorem byte_setByte (s : State) (a b : Nat) (v : Byte) : (s.setByte a v).byte b = if a = b then v else s.byte b := by
  rw [State.byte, setByte_mem, sparseGet_set _ _ _ _ _ _ (fun _ => rfl)]
  rfl

/-- A state with the same memory reads the same byte. -/
theorem byte_of_mem {s t : State} (h : t.mem = s.mem) (a : Nat) : t.byte a = s.byte a := by rw [State.byte, State.byte, h]

/-- Bytes outside those written stay. -/
theorem byte_setBytes_ne (bs : List Byte) : ∀ (s : State) (a b : Nat), (b < a ∨ a + bs.length ≤ b) →
    (s.setBytes a bs).byte b = s.byte b := by
  induction bs with
  | nil => intro s a b _; rfl
  | cons x l ih =>
    intro s a b h
    simp only [List.length_cons] at h
    rw [State.setBytes, ih _ _ _ (by omega), byte_setByte, if_neg (by omega)]

/-- Bytes read as they were written. -/
theorem byte_setBytes (bs : List Byte) : ∀ (s : State) (a i : Nat) (h : i < bs.length),
    (s.setBytes a bs).byte (a + i) = bs[i] := by
  induction bs with
  | nil => intro s a i h; simp at h
  | cons x l ih =>
    intro s a i h
    cases i with
    | zero =>
      rw [State.setBytes, byte_setBytes_ne l _ _ _ (by omega), Nat.add_zero, byte_setByte, if_pos rfl]
      rfl
    | succ i =>
      have := ih (s.setByte a x) (a + 1) i (by simpa using h)
      rw [State.setBytes, show a + (i + 1) = a + 1 + i by omega, this]
      rfl

end Sys2Proof.Machine
end

