-- ==== Sys2Proof/Laws/Flags.lean ====
section
/-!
SUPPORT. What raising an event can change (16_rings_events_books.md R375–R377): status words, the watermark word, memory, rings,
the held records and the event log, and nothing else.
-/
namespace Sys2Proof.Machine

/-! ## One ring changed -/

theorem ring_updRing_ne (s : State) {i j : Nat} (f : Ring → Ring) (h : i ≠ j) : (s.updRing i f).ring j = s.ring j := by
  unfold State.ring State.updRing
  simp only [at_, upd]
  split
  · split
    · simp [h]
    · rfl
  · rfl

theorem ring_updRing_same (s : State) {i : Nat} (f : Ring → Ring) (h : i < 32) : (s.updRing i f).ring i = f (s.ring i) := by
  unfold State.ring State.updRing
  simp [at_, upd, h]

/-! ## The relation -/

/-- The storage of the event rings and the event log stay where they are. -/
theorem eventByte_of_rings {s t : State}
    (h : ∀ i, t.ring i = { s.ring i with prod := (t.ring i).prod, lost := (t.ring i).lost, lostBefore := (t.ring i).lostBefore })
    {a : Nat} (ha : ¬ s.eventByte a) : ¬ t.eventByte a := by
  rintro (g | ⟨i, h1, h2, g⟩)
  · exact ha (.inl g)
  · refine ha (.inr ⟨i, h1, h2, ?_⟩)
    rw [h i] at g
    exact g

theorem EventsOnly.refl (A : Nat → Prop) (s : State) : EventsOnly A s s :=
  ⟨rfl, rfl, fun _ _ => rfl, fun _ _ h => h, fun _ => rfl, fun _ _ => rfl, fun _ _ => rfl, id⟩

theorem EventsOnly.trans {A : Nat → Prop} {s t u : State} (h : EventsOnly A s t) (g : EventsOnly A t u) : EventsOnly A s u := by
  refine ⟨?_, g.cycle.trans h.cycle, fun a ha => (g.regs a ha).trans (h.regs a ha), fun a k hk => g.bits a k (h.bits a k hk), fun i => ?_,
    fun i hi => (g.others i hi).trans (h.others i hi),
    fun a ha => (g.bytes a (eventByte_of_rings h.rings ha)).trans (h.bytes a ha), g.mem ∘ h.mem⟩
  · have h1 := h.rest
    have h2 := g.rest
    rw [h1] at h2
    exact h2
  · have h1 := h.rings i
    have h2 := g.rings i
    rw [h1] at h2
    exact h2

theorem EventsOnly.mono {A B : Nat → Prop} {s t : State} (hAB : ∀ a, A a → B a) (h : EventsOnly A s t) : EventsOnly B s t :=
  ⟨h.rest, h.cycle, fun a ha => h.regs a fun hA => ha (hAB a hA), h.bits, h.rings, h.others, h.bytes, h.mem⟩

theorem EventsOnly.foldl {α : Type} {A : Nat → Prop} (f : State → α → State) (h : ∀ s x, EventsOnly A s (f s x)) (l : List α) :
    ∀ s, EventsOnly A s (l.foldl f s) := by
  induction l with
  | nil => exact fun s => .refl A s
  | cons x l ih => exact fun s => (h s x).trans (ih _)

/-- A bit of a register that `A` names is set. -/
theorem withBit_events {A : Nat → Prop} (s : State) {a : Nat} (k : Nat) (h : A a) :
    EventsOnly A s (s.setReg a (word (withBit (s.reg a).toNat k))) := by
  refine ⟨rfl, rfl, fun b hb => reg_setReg_ne s _ fun e => hb (e ▸ h), fun b j hj => ?_, fun _ => rfl, fun _ _ => rfl,
    fun _ _ => rfl, id⟩
  by_cases e : a = b
  · subst e
    rw [reg_setReg_same, BitVec.toNat_ofNat]
    rw [bitOf_eq_testBit] at hj ⊢
    have h32 : j < 32 := by
      by_contra hc
      rw [Nat.testBit_lt_two_pow (Nat.lt_of_lt_of_le (s.reg a).isLt (Nat.pow_le_pow_right (by omega) (by omega)))] at hj
      simp at hj
    rw [Nat.testBit_mod_two_pow, testBit_withBit]
    simp [hj, h32]
  · rw [reg_setReg_ne s _ e]
    exact hj

/-- A bit within a field of a register that `A` names is set. -/
theorem setBit_events {A : Nat → Prop} (s : State) {f : Fld} {k : Nat} (hk : k < f.width) (hf : f.lo ≤ f.hi ∧ f.hi < 32)
    (h : A f.addr) : EventsOnly A s (s.setBit f k true) := by
  have e : s.setBit f k true = s.setReg f.addr (word (withBit (s.reg f.addr).toNat (f.lo + k))) := by
    unfold State.setBit State.setFld
    congr 2
    apply Nat.eq_of_testBit_eq
    intro j
    rw [testBit_withBit, testBit_putBits, testBit_putBits]
    simp only [State.fld, testBit_bitsAt]
    by_cases h1 : f.lo ≤ j ∧ j < f.lo + f.width
    · rw [if_pos h1]
      by_cases h2 : k ≤ j - f.lo ∧ j - f.lo < k + 1
      · rw [if_pos h2]
        have : j = f.lo + k := by omega
        subst this
        simp [bit]
      · rw [if_neg h2]
        have h3 : j ≠ f.lo + k := by omega
        have h4 : f.lo + (j - f.lo) = j := by omega
        have h5 : j - f.lo < f.width := by omega
        simp [h3, h4, h5]
    · rw [if_neg h1]
      have h3 : j ≠ f.lo + k := by omega
      simp [h3]
  rw [e]
  exact withBit_events s _ h

/-- A byte of the log or of an event ring is written. -/
theorem setBytes_events {A : Nat → Prop} {s : State} {a : Nat} {bs : List Byte}
    (h : ∀ b, a ≤ b → b < a + bs.length → s.eventByte b) : EventsOnly A s (s.setBytes a bs) := by
  have key : ∀ (l : List Byte) (u : State) (x : Nat), (u.setBytes x l) = { u with mem := (u.setBytes x l).mem } ∧
      (Memory.wf u.mem → Memory.wf (u.setBytes x l).mem) := by
    intro l
    induction l with
    | nil => exact fun u x => ⟨rfl, id⟩
    | cons b l ih =>
      intro u x
      have h1 := ih (u.setByte x b) (x + 1)
      refine ⟨?_, fun hm => h1.2 (sparseSet_wf (fun _ => memDefault) x b hm)⟩
      exact h1.1
  have hr : (s.setBytes a bs).regs = s.regs := by rw [(key bs s a).1]
  have hg : (s.setBytes a bs).rings = s.rings := by rw [(key bs s a).1]
  have hi : ∀ i, (s.setBytes a bs).ring i = s.ring i := fun i => by unfold State.ring; rw [hg]
  refine ⟨?_, by rw [(key bs s a).1], fun b _ => reg_of_regs hr b, fun b k hk => ?_, fun i => ?_, fun i _ => hi i, fun b hb => ?_, (key bs s a).2⟩
  · rw [(key bs s a).1]
  · rw [reg_of_regs hr]; exact hk
  · rw [hi i]
  · refine byte_setBytes_ne bs s a b ?_
    by_contra hc
    exact hb (h b (by omega) (by omega))

/-- The counts of an event ring change. -/
theorem updRing_events {A : Nat → Prop} (s : State) {i : Nat} (h8 : 8 ≤ i) (h11 : i ≤ 11) (f : Ring → Ring)
    (hf : ∀ r, f r = { r with prod := (f r).prod, lost := (f r).lost, lostBefore := (f r).lostBefore }) :
    EventsOnly A s (s.updRing i f) := by
  refine ⟨rfl, rfl, fun _ _ => rfl, fun _ _ h => h, fun j => ?_, fun j hj => ?_, fun _ _ => rfl, id⟩
  · by_cases e : i = j
    · subst e
      rw [ring_updRing_same s f (by omega)]
      exact hf _
    · rw [ring_updRing_ne s f e]
  · exact ring_updRing_ne s f (by omega)

/-- What follows of serving a ring is raised. -/
theorem raiseAll_events {A : Nat → Prop} {raise : Nat → State → State} (hr : ∀ b s, EventsOnly A s (raise b s))
    {s : State} {x : State × List Nat} (h : EventsOnly A s x.1) : EventsOnly A s (raiseAll raise x) :=
  h.trans (EventsOnly.foldl _ (fun t b => hr b t) x.2 x.1)

theorem markWater_events {A : Nat → Prop} (hA : ∀ a, RingRegs a → A a) {i : Nat} (hi : i < 32) (s : State) :
    EventsOnly A s (s.markWater i).1 :=
  setBit_events s (show i < 32 from hi) ⟨by decide, by decide⟩ (hA _ (.inr rfl))

/-- A record of 16 bytes enters an event ring. -/
theorem ringEnter_events {A : Nat → Prop} (hA : ∀ a, RingRegs a → A a) {i : Nat} (h8 : 8 ≤ i) (h11 : i ≤ 11)
    (e : Bool → List Byte) (he : ∀ b, (e b).length = 16) (s : State) : EventsOnly A s (ringEnter i e s).1 := by
  have hl : EventsOnly A s (s.countLost i) := by
    rw [State.countLost, if_neg (by omega)]
    exact updRing_events s h8 h11 _ fun _ => rfl
  have hb : EventsOnly A s (s.setBytes ((s.ring i).entryAddr i (s.ring i).prod) (e (s.ring i).lostBefore)) := by
    refine setBytes_events fun b h1 h2 => .inr ⟨i, h8, h11, ?_⟩
    rw [he] at h2
    have hs : ringEsize i (s.ring i).pack = 16 := by rw [ringEsize, if_pos (by omega)]
    have hm : (s.ring i).prod.toNat % (s.ring i).size < (s.ring i).size := Nat.mod_lt _ (Nat.two_pow_pos _)
    rw [Ring.entryAddr, hs] at h1 h2
    refine ⟨?_, ?_⟩
    · omega
    · rw [hs]; omega
  have hu := hb.trans (updRing_events (A := A) _ h8 h11 (fun q => { q with prod := q.prod + 1, lostBefore := false }) fun _ => rfl)
  unfold ringEnter
  simp only []
  split
  · exact .refl A s
  · split
    · exact hl
    · split
      · exact hu.trans (markWater_events hA (by omega) _)
      · exact hu

/-- A record of 16 bytes goes to an event ring. -/
theorem ringPutWith_events {A : Nat → Prop} (hA : ∀ a, RingRegs a → A a) {raise : Nat → State → State}
    (hr : ∀ b s, EventsOnly A s (raise b s)) {i : Nat} (h8 : 8 ≤ i) (h11 : i ≤ 11) (e : Bool → List Byte)
    (he : ∀ b, (e b).length = 16) (s : State) : EventsOnly A s (ringPutWith raise i e s) :=
  raiseAll_events hr (ringEnter_events hA h8 h11 e he s)

theorem length_bytesLE (n x : Nat) : (bytesLE n x).length = n := by simp [bytesLE]

theorem length_evtBytes (e : EvtRec) (b : Bool) : (e.bytes b).length = 16 := by
  simp [EvtRec.bytes, length_bytesLE]

theorem recordWith_events {A : Nat → Prop} (hA : ∀ a, RingRegs a → A a) {raise : Nat → State → State}
    (hr : ∀ b s, EventsOnly A s (raise b s)) (e : EvtRec) (s : State) : EventsOnly A s (recordWith raise e s) := by
  have h1 : EventsOnly A s (s.setBytes (0x20078000 + s.evtLog % 1024 * 16) (e.bytes false)) := by
    refine setBytes_events fun b h1 h2 => .inl ?_
    rw [length_evtBytes] at h2
    omega
  have h2 : ∀ t : State, EventsOnly A t { t with evtLog := t.evtLog + 1 } := fun t =>
    ⟨rfl, rfl, fun _ _ => rfl, fun _ _ h => h, fun _ => rfl, fun _ _ => rfl, fun _ _ => rfl, id⟩
  have h3 : ∀ (l : List (Fin 4)) (x : State × List Nat), EventsOnly A s x.1 → EventsOnly A s (l.foldl (hearRecord e) x).1 := by
    intro l
    induction l with
    | nil => exact fun x h => h
    | cons p l ih =>
      intro x h
      refine ih _ ?_
      unfold hearRecord
      split
      · exact h.trans (ringEnter_events hA (by omega) (by omega) _ (length_evtBytes e) _)
      · exact h
  unfold recordWith
  exact raiseAll_events hr (h3 _ _ (h1.trans (h2 _)))

theorem deliverWith_events {A : Nat → Prop} (hA : ∀ a, RingRegs a → A a) {raise : Nat → State → State}
    (hr : ∀ b s, EventsOnly A s (raise b s)) (e : EvtRec) (s : State) : EventsOnly A s (deliverWith raise e s) := by
  unfold deliverWith
  split
  · next l h => exact ⟨rfl, by rw [h]; rfl, fun _ _ => rfl, fun _ _ h => h, fun _ => rfl, fun _ _ => rfl, fun _ _ => rfl, id⟩
  · split
    · exact recordWith_events hA hr e s
    · exact ⟨rfl, rfl, fun _ _ => rfl, fun _ _ h => h, fun _ => rfl, fun _ _ => rfl, fun _ _ => rfl, id⟩

/-- What raising bit `b` of a status register can change. -/
theorem raiseFuel_events : ∀ (fuel p : Nat) (r : EvtReg) (b detail : Nat) (forced : Bool) (s : State),
    EventsOnly (fun a => a = r.statusAddr p ∨ RingRegs a) s (raiseFuel fuel p r b detail forced s) := by
  intro fuel
  induction fuel with
  | zero => exact fun p r b d f s => .refl _ s
  | succ n ih =>
    intro p r b d f s
    unfold raiseFuel
    simp only []
    have h1 : EventsOnly (fun a => a = r.statusAddr p ∨ RingRegs a) s
        (s.setReg (r.statusAddr p) (word (withBit (s.reg (r.statusAddr p)).toNat b))) := withBit_events s b (.inl rfl)
    split
    · refine h1.trans (deliverWith_events (fun a h => .inr h) (fun k t => ?_) _ _)
      refine (ih 0x00C .page k t.tickcnt false t).mono ?_
      rintro a (h | h)
      · exact .inr (.inl h)
      · exact .inr h
    · exact h1

/-- The bit that an event sets. -/
theorem raiseFuel_bit (fuel p : Nat) (r : EvtReg) (b detail : Nat) (forced : Bool) (s : State) (hb : b < 32) :
    bitOf ((raiseFuel (fuel + 1) p r b detail forced s).reg (r.statusAddr p)).toNat b = true := by
  have h0 : bitOf ((s.setReg (r.statusAddr p) (word (withBit (s.reg (r.statusAddr p)).toNat b))).reg (r.statusAddr p)).toNat b
      = true := by
    rw [reg_setReg_same, BitVec.toNat_ofNat, bitOf_eq_testBit, Nat.testBit_mod_two_pow, testBit_withBit]
    simp [hb]
  unfold raiseFuel
  simp only []
  split
  · refine (deliverWith_events (A := fun a => RingRegs a) (fun a h => h) (fun k t => ?_) _ _).bits _ _ h0
    refine (raiseFuel_events fuel 0x00C .page k t.tickcnt false t).mono ?_
    rintro a (h | h)
    · exact .inl h
    · exact h
  · exact h0

/-- What an event of a page can change. -/
theorem raise_events (s : State) (p b : Nat) : EventsOf [p] s (s.raise p b) := by
  refine (raiseFuel_events 4 p .page b s.tickcnt false s).mono ?_
  rintro a (h | h)
  · exact .inl ⟨p, by simp, h⟩
  · exact .inr h

/-- The same among events of several pages. -/
theorem raise_events_of {ps : List Nat} (s : State) {p : Nat} (b : Nat) (h : p ∈ ps) : EventsOf ps s (s.raise p b) := by
  refine (raise_events s p b).mono ?_
  rintro a (⟨q, hq, e⟩ | e)
  · exact .inl ⟨p, h, by simp at hq; rw [e, hq]⟩
  · exact .inr e

/-- A raised event reads 1. -/
theorem evt_raise (s : State) (p : Nat) {b : Nat} (hb : b < 32) : (s.raise p b).evt p b = true :=
  raiseFuel_bit 3 p .page b s.tickcnt false s hb

/-- Events stay set while others are raised. -/
theorem evt_raise_of (s : State) (p b : Nat) {q c : Nat} (h : s.evt q c = true) : (s.raise p b).evt q c = true :=
  (raise_events s p b).bits _ _ h

/-- The registers other than the page's EVT_STATUS and the two of page RING stay. -/
theorem reg_raise (s : State) (p b : Nat) {a : Nat} (h : a ≠ pageAddr p 0x010) (h1 : a ≠ 0x4000C010) (h2 : a ≠ 0x4000C060) :
    (s.raise p b).reg a = s.reg a := (raise_events s p b).regs a (by
  rintro (⟨q, hq, e⟩ | e | e)
  · simp at hq; exact h (by rw [e, hq])
  · exact h1 e
  · exact h2 e)

theorem fld_raise (s : State) (p b : Nat) {f : Fld} (h : f.addr ≠ pageAddr p 0x010) (h1 : f.addr ≠ 0x4000C010)
    (h2 : f.addr ≠ 0x4000C060) : (s.raise p b).fld f = s.fld f := by
  rw [State.fld, State.fld, reg_raise s p b h h1 h2]

/-- An AES3 event of a port (04_aes3_ports.md R103). -/
theorem raiseAes_events (s : State) (n b : Nat) :
    EventsOnly (fun a => a = EvtReg.aes.statusAddr (0x020 + n) ∨ RingRegs a) s (s.raiseAes n b) :=
  raiseFuel_events 4 _ .aes b s.tickcnt false s

/-- An event of an alignment group (05_alignment_and_rate_conversion.md R127). -/
theorem raiseGrp_events (s : State) (g b : Nat) :
    EventsOnly (fun a => a = (EvtReg.grp g).statusAddr 0x004 ∨ RingRegs a) s (s.raiseGrp g b) :=
  raiseFuel_events 4 _ (.grp g) b s.tickcnt false s

/-- What an error bit of a page changes. -/
theorem err_setErr (s : State) (p : Nat) {b : Nat} (hb : b < 32) : (s.setErr p b).err p b = true := by
  unfold State.err State.setErr
  rw [reg_setReg_same, BitVec.toNat_ofNat, bitOf_eq_testBit, Nat.testBit_mod_two_pow, testBit_withBit]
  simp [hb]

end Sys2Proof.Machine
end

