-- ==== Sys2Proof/Laws/Frames.lean ====
section
/-!
SUPPORT. The frames of the small operations: what each leaves of registers and memory, and the fields of the state that events
leave alone.
-/
namespace Sys2Proof.Machine

/-! ## Quiet changes -/

theorem Quiet.refl (R : Nat → Prop) (s : State) : Quiet R s s := ⟨fun _ _ => rfl, rfl, fun _ => rfl⟩

theorem Quiet.trans {R : Nat → Prop} {s t u : State} (h : Quiet R s t) (g : Quiet R t u) : Quiet R s u :=
  ⟨fun a ha => (g.regs a ha).trans (h.regs a ha), g.rings.trans h.rings, fun a => (g.bytes a).trans (h.bytes a)⟩

theorem Quiet.mono {R Q : Nat → Prop} {s t : State} (hRQ : ∀ a, R a → Q a) (h : Quiet R s t) : Quiet Q s t :=
  ⟨fun a ha => h.regs a fun hR => ha (hRQ a hR), h.rings, h.bytes⟩

/-- A change of other parts of the state. -/
theorem Quiet.same {R : Nat → Prop} {s t : State} (h1 : t.regs = s.regs) (h2 : t.mem = s.mem) (h3 : t.rings = s.rings) :
    Quiet R s t := ⟨fun a _ => reg_of_regs h1 a, h3, fun a => byte_of_mem h2 a⟩

theorem Quiet.congr {R : Nat → Prop} {s t u : State} (h : Quiet R s t) (h1 : u.regs = t.regs) (h2 : u.mem = t.mem)
    (h3 : u.rings = t.rings) : Quiet R s u := h.trans (.same h1 h2 h3)

theorem setReg_quiet {R : Nat → Prop} (s : State) {a : Nat} (w : Word) (h : R a) : Quiet R s (s.setReg a w) :=
  ⟨fun _ hb => reg_setReg_ne s w fun e => hb (e ▸ h), rfl, fun _ => rfl⟩

theorem setFld_quiet {R : Nat → Prop} (s : State) {f : Fld} (v : Nat) (h : R f.addr) : Quiet R s (s.setFld f v) :=
  setReg_quiet s _ h

/-! ## Frames -/

theorem Frame.refl (R : Nat → Prop) (s : State) : Frame R s s :=
  ⟨fun _ _ => rfl, fun _ => rfl, fun _ _ => rfl, fun _ _ => rfl⟩

theorem Frame.trans {R : Nat → Prop} {s t u : State} (h : Frame R s t) (g : Frame R t u) : Frame R s u := by
  refine ⟨fun a ha => (g.regs a ha).trans (h.regs a ha), fun i => ?_, fun i hi => (g.others i hi).trans (h.others i hi),
    fun a ha => (g.bytes a (eventByte_of_rings h.rings ha)).trans (h.bytes a ha)⟩
  have h1 := h.rings i
  have h2 := g.rings i
  rw [h1] at h2
  exact h2

theorem Frame.mono {R Q : Nat → Prop} {s t : State} (hRQ : ∀ a, R a → Q a) (h : Frame R s t) : Frame Q s t :=
  ⟨fun a ha => h.regs a fun hR => ha (hRQ a hR), h.rings, h.others, h.bytes⟩

theorem Quiet.frame {R : Nat → Prop} {s t : State} (h : Quiet R s t) : Frame R s t := by
  have e : ∀ i, t.ring i = s.ring i := fun i => by rw [State.ring, State.ring, h.rings]
  exact ⟨h.regs, fun i => by rw [e i], fun i _ => e i, fun a _ => h.bytes a⟩

theorem EventsOnly.frame {R : Nat → Prop} {s t : State} (h : EventsOnly R s t) : Frame R s t :=
  ⟨h.regs, h.rings, h.others, h.bytes⟩

theorem raise_frame {R : Nat → Prop} (s : State) (p b : Nat) (h : ∀ a, StatusOf [p] a → R a) : Frame R s (s.raise p b) :=
  ((raise_events s p b).mono h).frame

theorem raiseGrp_frame {R : Nat → Prop} (s : State) (g b : Nat)
    (h : ∀ a, a = (EvtReg.grp g).statusAddr 0x004 ∨ RingRegs a → R a) : Frame R s (s.raiseGrp g b) :=
  ((raiseGrp_events s g b).mono h).frame

theorem raiseAes_frame {R : Nat → Prop} (s : State) (n b : Nat)
    (h : ∀ a, a = EvtReg.aes.statusAddr (0x020 + n) ∨ RingRegs a → R a) : Frame R s (s.raiseAes n b) :=
  ((raiseAes_events s n b).mono h).frame

/-! ## The fields that `raise` leaves -/

@[simp] theorem raise_pending (s : State) (p b : Nat) : (s.raise p b).pending = s.pending := by rw [(raise_events s p b).rest]
@[simp] theorem raise_fresh (s : State) (p b : Nat) : (s.raise p b).fresh = s.fresh := by rw [(raise_events s p b).rest]
@[simp] theorem raise_bus (s : State) (p b : Nat) : (s.raise p b).bus = s.bus := by rw [(raise_events s p b).rest]
@[simp] theorem raise_pageVers (s : State) (p b : Nat) : (s.raise p b).pageVers = s.pageVers := by rw [(raise_events s p b).rest]
@[simp] theorem raise_cfgPend (s : State) (p b : Nat) : (s.raise p b).cfgPend = s.cfgPend := by rw [(raise_events s p b).rest]
@[simp] theorem raise_tickWrites (s : State) (p b : Nat) : (s.raise p b).tickWrites = s.tickWrites := by rw [(raise_events s p b).rest]
@[simp] theorem raise_syscnt (s : State) (p b : Nat) : (s.raise p b).syscnt = s.syscnt := by rw [(raise_events s p b).rest]
@[simp] theorem raise_coarse (s : State) (p b : Nat) : (s.raise p b).coarse = s.coarse := by rw [(raise_events s p b).rest]
@[simp] theorem raise_sysHold (s : State) (p b : Nat) : (s.raise p b).sysHold = s.sysHold := by rw [(raise_events s p b).rest]
@[simp] theorem raise_tickcnt (s : State) (p b : Nat) : (s.raise p b).tickcnt = s.tickcnt := by rw [(raise_events s p b).rest]
@[simp] theorem raise_tickSys (s : State) (p b : Nat) : (s.raise p b).tickSys = s.tickSys := by rw [(raise_events s p b).rest]
@[simp] theorem raise_ticks (s : State) (p b : Nat) : (s.raise p b).ticks = s.ticks := by rw [(raise_events s p b).rest]
@[simp] theorem raise_boundary (s : State) (p b : Nat) : (s.raise p b).boundary = s.boundary := by rw [(raise_events s p b).rest]
@[simp] theorem raise_mons (s : State) (p b : Nat) : (s.raise p b).mons = s.mons := by rw [(raise_events s p b).rest]
@[simp] theorem raise_pll (s : State) (p b : Nat) : (s.raise p b).pll = s.pll := by rw [(raise_events s p b).rest]
@[simp] theorem raise_ens (s : State) (p b : Nat) : (s.raise p b).ens = s.ens := by rw [(raise_events s p b).rest]
@[simp] theorem raise_addrPins (s : State) (p b : Nat) : (s.raise p b).addrPins = s.addrPins := by rw [(raise_events s p b).rest]
@[simp] theorem raise_index (s : State) (p b : Nat) : (s.raise p b).index = s.index := by rw [(raise_events s p b).rest]
@[simp] theorem raise_doms (s : State) (p b : Nat) : (s.raise p b).doms = s.doms := by rw [(raise_events s p b).rest]
@[simp] theorem raise_change (s : State) (p b : Nat) : (s.raise p b).change = s.change := by rw [(raise_events s p b).rest]
@[simp] theorem raise_lift (s : State) (p b : Nat) : (s.raise p b).lift = s.lift := by rw [(raise_events s p b).rest]
@[simp] theorem raise_pvdd (s : State) (p b : Nat) : (s.raise p b).pvdd = s.pvdd := by rw [(raise_events s p b).rest]
@[simp] theorem raise_resetHold (s : State) (p b : Nat) : (s.raise p b).resetHold = s.resetHold := by rw [(raise_events s p b).rest]
@[simp] theorem raise_ports (s : State) (p b : Nat) : (s.raise p b).ports = s.ports := by rw [(raise_events s p b).rest]
@[simp] theorem raise_claims (s : State) (p b : Nat) : (s.raise p b).claims = s.claims := by rw [(raise_events s p b).rest]
@[simp] theorem raise_txn (s : State) (p b : Nat) : (s.raise p b).txn = s.txn := by rw [(raise_events s p b).rest]
@[simp] theorem raise_saps (s : State) (p b : Nat) : (s.raise p b).saps = s.saps := by rw [(raise_events s p b).rest]
@[simp] theorem raise_grps (s : State) (p b : Nat) : (s.raise p b).grps = s.grps := by rw [(raise_events s p b).rest]
@[simp] theorem raise_portSrc (s : State) (p b : Nat) : (s.raise p b).portSrc = s.portSrc := by rw [(raise_events s p b).rest]
@[simp] theorem raise_portSink (s : State) (p b : Nat) : (s.raise p b).portSink = s.portSink := by rw [(raise_events s p b).rest]
@[simp] theorem raise_asrcs (s : State) (p b : Nat) : (s.raise p b).asrcs = s.asrcs := by rw [(raise_events s p b).rest]
@[simp] theorem raise_dlines (s : State) (p b : Nat) : (s.raise p b).dlines = s.dlines := by rw [(raise_events s p b).rest]
@[simp] theorem raise_crcs (s : State) (p b : Nat) : (s.raise p b).crcs = s.crcs := by rw [(raise_events s p b).rest]
@[simp] theorem raise_crcOwner (s : State) (p b : Nat) : (s.raise p b).crcOwner = s.crcOwner := by rw [(raise_events s p b).rest]
@[simp] theorem raise_ains (s : State) (p b : Nat) : (s.raise p b).ains = s.ains := by rw [(raise_events s p b).rest]
@[simp] theorem raise_ainOut (s : State) (p b : Nat) : (s.raise p b).ainOut = s.ainOut := by rw [(raise_events s p b).rest]
@[simp] theorem raise_tdacQ (s : State) (p b : Nat) : (s.raise p b).tdacQ = s.tdacQ := by rw [(raise_events s p b).rest]
@[simp] theorem raise_tdacOwner (s : State) (p b : Nat) : (s.raise p b).tdacOwner = s.tdacOwner := by rw [(raise_events s p b).rest]
@[simp] theorem raise_tdac (s : State) (p b : Nat) : (s.raise p b).tdac = s.tdac := by rw [(raise_events s p b).rest]
@[simp] theorem raise_fab (s : State) (p b : Nat) : (s.raise p b).fab = s.fab := by rw [(raise_events s p b).rest]
@[simp] theorem raise_gains (s : State) (p b : Nat) : (s.raise p b).gains = s.gains := by rw [(raise_events s p b).rest]
@[simp] theorem raise_senseOut (s : State) (p b : Nat) : (s.raise p b).senseOut = s.senseOut := by rw [(raise_events s p b).rest]
@[simp] theorem raise_injOut (s : State) (p b : Nat) : (s.raise p b).injOut = s.injOut := by rw [(raise_events s p b).rest]
@[simp] theorem raise_outs (s : State) (p b : Nat) : (s.raise p b).outs = s.outs := by rw [(raise_events s p b).rest]
@[simp] theorem raise_cpOn (s : State) (p b : Nat) : (s.raise p b).cpOn = s.cpOn := by rw [(raise_events s p b).rest]
@[simp] theorem raise_jacks (s : State) (p b : Nat) : (s.raise p b).jacks = s.jacks := by rw [(raise_events s p b).rest]
@[simp] theorem raise_jackTrig (s : State) (p b : Nat) : (s.raise p b).jackTrig = s.jackTrig := by rw [(raise_events s p b).rest]
@[simp] theorem raise_jackFired (s : State) (p b : Nat) : (s.raise p b).jackFired = s.jackFired := by rw [(raise_events s p b).rest]
@[simp] theorem raise_jackPages (s : State) (p b : Nat) : (s.raise p b).jackPages = s.jackPages := by rw [(raise_events s p b).rest]
@[simp] theorem raise_hka (s : State) (p b : Nat) : (s.raise p b).hka = s.hka := by rw [(raise_events s p b).rest]
@[simp] theorem raise_amps (s : State) (p b : Nat) : (s.raise p b).amps = s.amps := by rw [(raise_events s p b).rest]
@[simp] theorem raise_sag (s : State) (p b : Nat) : (s.raise p b).sag = s.sag := by rw [(raise_events s p b).rest]
@[simp] theorem raise_boot (s : State) (p b : Nat) : (s.raise p b).boot = s.boot := by rw [(raise_events s p b).rest]
@[simp] theorem raise_fuses (s : State) (p b : Nat) : (s.raise p b).fuses = s.fuses := by rw [(raise_events s p b).rest]
@[simp] theorem raise_fusesRead (s : State) (p b : Nat) : (s.raise p b).fusesRead = s.fusesRead := by rw [(raise_events s p b).rest]
@[simp] theorem raise_blow (s : State) (p b : Nat) : (s.raise p b).blow = s.blow := by rw [(raise_events s p b).rest]
@[simp] theorem raise_injs (s : State) (p b : Nat) : (s.raise p b).injs = s.injs := by rw [(raise_events s p b).rest]
@[simp] theorem raise_caps (s : State) (p b : Nat) : (s.raise p b).caps = s.caps := by rw [(raise_events s p b).rest]
@[simp] theorem raise_book (s : State) (p b : Nat) : (s.raise p b).book = s.book := by rw [(raise_events s p b).rest]
@[simp] theorem raise_irqCopy (s : State) (p b : Nat) : (s.raise p b).irqCopy = s.irqCopy := by rw [(raise_events s p b).rest]
@[simp] theorem raise_xportCopy (s : State) (p b : Nat) : (s.raise p b).xportCopy = s.xportCopy := by rw [(raise_events s p b).rest]
@[simp] theorem raise_vio (s : State) (p b : Nat) : (s.raise p b).vio = s.vio := by rw [(raise_events s p b).rest]
@[simp] theorem raise_esd (s : State) (p b : Nat) : (s.raise p b).esd = s.esd := by rw [(raise_events s p b).rest]

/-! ## The fields that `raiseGrp` leaves -/

@[simp] theorem raiseGrp_pending (s : State) (g b : Nat) : (s.raiseGrp g b).pending = s.pending := by rw [(raiseGrp_events s g b).rest]
@[simp] theorem raiseGrp_fresh (s : State) (g b : Nat) : (s.raiseGrp g b).fresh = s.fresh := by rw [(raiseGrp_events s g b).rest]
@[simp] theorem raiseGrp_bus (s : State) (g b : Nat) : (s.raiseGrp g b).bus = s.bus := by rw [(raiseGrp_events s g b).rest]
@[simp] theorem raiseGrp_pageVers (s : State) (g b : Nat) : (s.raiseGrp g b).pageVers = s.pageVers := by rw [(raiseGrp_events s g b).rest]
@[simp] theorem raiseGrp_cfgPend (s : State) (g b : Nat) : (s.raiseGrp g b).cfgPend = s.cfgPend := by rw [(raiseGrp_events s g b).rest]
@[simp] theorem raiseGrp_tickWrites (s : State) (g b : Nat) : (s.raiseGrp g b).tickWrites = s.tickWrites := by rw [(raiseGrp_events s g b).rest]
@[simp] theorem raiseGrp_syscnt (s : State) (g b : Nat) : (s.raiseGrp g b).syscnt = s.syscnt := by rw [(raiseGrp_events s g b).rest]
@[simp] theorem raiseGrp_coarse (s : State) (g b : Nat) : (s.raiseGrp g b).coarse = s.coarse := by rw [(raiseGrp_events s g b).rest]
@[simp] theorem raiseGrp_sysHold (s : State) (g b : Nat) : (s.raiseGrp g b).sysHold = s.sysHold := by rw [(raiseGrp_events s g b).rest]
@[simp] theorem raiseGrp_tickcnt (s : State) (g b : Nat) : (s.raiseGrp g b).tickcnt = s.tickcnt := by rw [(raiseGrp_events s g b).rest]
@[simp] theorem raiseGrp_tickSys (s : State) (g b : Nat) : (s.raiseGrp g b).tickSys = s.tickSys := by rw [(raiseGrp_events s g b).rest]
@[simp] theorem raiseGrp_ticks (s : State) (g b : Nat) : (s.raiseGrp g b).ticks = s.ticks := by rw [(raiseGrp_events s g b).rest]
@[simp] theorem raiseGrp_boundary (s : State) (g b : Nat) : (s.raiseGrp g b).boundary = s.boundary := by rw [(raiseGrp_events s g b).rest]
@[simp] theorem raiseGrp_mons (s : State) (g b : Nat) : (s.raiseGrp g b).mons = s.mons := by rw [(raiseGrp_events s g b).rest]
@[simp] theorem raiseGrp_pll (s : State) (g b : Nat) : (s.raiseGrp g b).pll = s.pll := by rw [(raiseGrp_events s g b).rest]
@[simp] theorem raiseGrp_ens (s : State) (g b : Nat) : (s.raiseGrp g b).ens = s.ens := by rw [(raiseGrp_events s g b).rest]
@[simp] theorem raiseGrp_addrPins (s : State) (g b : Nat) : (s.raiseGrp g b).addrPins = s.addrPins := by rw [(raiseGrp_events s g b).rest]
@[simp] theorem raiseGrp_index (s : State) (g b : Nat) : (s.raiseGrp g b).index = s.index := by rw [(raiseGrp_events s g b).rest]
@[simp] theorem raiseGrp_doms (s : State) (g b : Nat) : (s.raiseGrp g b).doms = s.doms := by rw [(raiseGrp_events s g b).rest]
@[simp] theorem raiseGrp_change (s : State) (g b : Nat) : (s.raiseGrp g b).change = s.change := by rw [(raiseGrp_events s g b).rest]
@[simp] theorem raiseGrp_lift (s : State) (g b : Nat) : (s.raiseGrp g b).lift = s.lift := by rw [(raiseGrp_events s g b).rest]
@[simp] theorem raiseGrp_pvdd (s : State) (g b : Nat) : (s.raiseGrp g b).pvdd = s.pvdd := by rw [(raiseGrp_events s g b).rest]
@[simp] theorem raiseGrp_resetHold (s : State) (g b : Nat) : (s.raiseGrp g b).resetHold = s.resetHold := by rw [(raiseGrp_events s g b).rest]
@[simp] theorem raiseGrp_ports (s : State) (g b : Nat) : (s.raiseGrp g b).ports = s.ports := by rw [(raiseGrp_events s g b).rest]
@[simp] theorem raiseGrp_claims (s : State) (g b : Nat) : (s.raiseGrp g b).claims = s.claims := by rw [(raiseGrp_events s g b).rest]
@[simp] theorem raiseGrp_txn (s : State) (g b : Nat) : (s.raiseGrp g b).txn = s.txn := by rw [(raiseGrp_events s g b).rest]
@[simp] theorem raiseGrp_saps (s : State) (g b : Nat) : (s.raiseGrp g b).saps = s.saps := by rw [(raiseGrp_events s g b).rest]
@[simp] theorem raiseGrp_grps (s : State) (g b : Nat) : (s.raiseGrp g b).grps = s.grps := by rw [(raiseGrp_events s g b).rest]
@[simp] theorem raiseGrp_portSrc (s : State) (g b : Nat) : (s.raiseGrp g b).portSrc = s.portSrc := by rw [(raiseGrp_events s g b).rest]
@[simp] theorem raiseGrp_portSink (s : State) (g b : Nat) : (s.raiseGrp g b).portSink = s.portSink := by rw [(raiseGrp_events s g b).rest]
@[simp] theorem raiseGrp_asrcs (s : State) (g b : Nat) : (s.raiseGrp g b).asrcs = s.asrcs := by rw [(raiseGrp_events s g b).rest]
@[simp] theorem raiseGrp_dlines (s : State) (g b : Nat) : (s.raiseGrp g b).dlines = s.dlines := by rw [(raiseGrp_events s g b).rest]
@[simp] theorem raiseGrp_crcs (s : State) (g b : Nat) : (s.raiseGrp g b).crcs = s.crcs := by rw [(raiseGrp_events s g b).rest]
@[simp] theorem raiseGrp_crcOwner (s : State) (g b : Nat) : (s.raiseGrp g b).crcOwner = s.crcOwner := by rw [(raiseGrp_events s g b).rest]
@[simp] theorem raiseGrp_ains (s : State) (g b : Nat) : (s.raiseGrp g b).ains = s.ains := by rw [(raiseGrp_events s g b).rest]
@[simp] theorem raiseGrp_ainOut (s : State) (g b : Nat) : (s.raiseGrp g b).ainOut = s.ainOut := by rw [(raiseGrp_events s g b).rest]
@[simp] theorem raiseGrp_tdacQ (s : State) (g b : Nat) : (s.raiseGrp g b).tdacQ = s.tdacQ := by rw [(raiseGrp_events s g b).rest]
@[simp] theorem raiseGrp_tdacOwner (s : State) (g b : Nat) : (s.raiseGrp g b).tdacOwner = s.tdacOwner := by rw [(raiseGrp_events s g b).rest]
@[simp] theorem raiseGrp_tdac (s : State) (g b : Nat) : (s.raiseGrp g b).tdac = s.tdac := by rw [(raiseGrp_events s g b).rest]
@[simp] theorem raiseGrp_fab (s : State) (g b : Nat) : (s.raiseGrp g b).fab = s.fab := by rw [(raiseGrp_events s g b).rest]
@[simp] theorem raiseGrp_gains (s : State) (g b : Nat) : (s.raiseGrp g b).gains = s.gains := by rw [(raiseGrp_events s g b).rest]
@[simp] theorem raiseGrp_senseOut (s : State) (g b : Nat) : (s.raiseGrp g b).senseOut = s.senseOut := by rw [(raiseGrp_events s g b).rest]
@[simp] theorem raiseGrp_injOut (s : State) (g b : Nat) : (s.raiseGrp g b).injOut = s.injOut := by rw [(raiseGrp_events s g b).rest]
@[simp] theorem raiseGrp_outs (s : State) (g b : Nat) : (s.raiseGrp g b).outs = s.outs := by rw [(raiseGrp_events s g b).rest]
@[simp] theorem raiseGrp_cpOn (s : State) (g b : Nat) : (s.raiseGrp g b).cpOn = s.cpOn := by rw [(raiseGrp_events s g b).rest]
@[simp] theorem raiseGrp_jacks (s : State) (g b : Nat) : (s.raiseGrp g b).jacks = s.jacks := by rw [(raiseGrp_events s g b).rest]
@[simp] theorem raiseGrp_jackTrig (s : State) (g b : Nat) : (s.raiseGrp g b).jackTrig = s.jackTrig := by rw [(raiseGrp_events s g b).rest]
@[simp] theorem raiseGrp_jackFired (s : State) (g b : Nat) : (s.raiseGrp g b).jackFired = s.jackFired := by rw [(raiseGrp_events s g b).rest]
@[simp] theorem raiseGrp_jackPages (s : State) (g b : Nat) : (s.raiseGrp g b).jackPages = s.jackPages := by rw [(raiseGrp_events s g b).rest]
@[simp] theorem raiseGrp_hka (s : State) (g b : Nat) : (s.raiseGrp g b).hka = s.hka := by rw [(raiseGrp_events s g b).rest]
@[simp] theorem raiseGrp_amps (s : State) (g b : Nat) : (s.raiseGrp g b).amps = s.amps := by rw [(raiseGrp_events s g b).rest]
@[simp] theorem raiseGrp_sag (s : State) (g b : Nat) : (s.raiseGrp g b).sag = s.sag := by rw [(raiseGrp_events s g b).rest]
@[simp] theorem raiseGrp_boot (s : State) (g b : Nat) : (s.raiseGrp g b).boot = s.boot := by rw [(raiseGrp_events s g b).rest]
@[simp] theorem raiseGrp_fuses (s : State) (g b : Nat) : (s.raiseGrp g b).fuses = s.fuses := by rw [(raiseGrp_events s g b).rest]
@[simp] theorem raiseGrp_fusesRead (s : State) (g b : Nat) : (s.raiseGrp g b).fusesRead = s.fusesRead := by rw [(raiseGrp_events s g b).rest]
@[simp] theorem raiseGrp_blow (s : State) (g b : Nat) : (s.raiseGrp g b).blow = s.blow := by rw [(raiseGrp_events s g b).rest]
@[simp] theorem raiseGrp_injs (s : State) (g b : Nat) : (s.raiseGrp g b).injs = s.injs := by rw [(raiseGrp_events s g b).rest]
@[simp] theorem raiseGrp_caps (s : State) (g b : Nat) : (s.raiseGrp g b).caps = s.caps := by rw [(raiseGrp_events s g b).rest]
@[simp] theorem raiseGrp_book (s : State) (g b : Nat) : (s.raiseGrp g b).book = s.book := by rw [(raiseGrp_events s g b).rest]
@[simp] theorem raiseGrp_irqCopy (s : State) (g b : Nat) : (s.raiseGrp g b).irqCopy = s.irqCopy := by rw [(raiseGrp_events s g b).rest]
@[simp] theorem raiseGrp_xportCopy (s : State) (g b : Nat) : (s.raiseGrp g b).xportCopy = s.xportCopy := by rw [(raiseGrp_events s g b).rest]
@[simp] theorem raiseGrp_vio (s : State) (g b : Nat) : (s.raiseGrp g b).vio = s.vio := by rw [(raiseGrp_events s g b).rest]
@[simp] theorem raiseGrp_esd (s : State) (g b : Nat) : (s.raiseGrp g b).esd = s.esd := by rw [(raiseGrp_events s g b).rest]

/-! ## The fields that `raiseAes` leaves -/

@[simp] theorem raiseAes_pending (s : State) (n b : Nat) : (s.raiseAes n b).pending = s.pending := by rw [(raiseAes_events s n b).rest]
@[simp] theorem raiseAes_fresh (s : State) (n b : Nat) : (s.raiseAes n b).fresh = s.fresh := by rw [(raiseAes_events s n b).rest]
@[simp] theorem raiseAes_bus (s : State) (n b : Nat) : (s.raiseAes n b).bus = s.bus := by rw [(raiseAes_events s n b).rest]
@[simp] theorem raiseAes_pageVers (s : State) (n b : Nat) : (s.raiseAes n b).pageVers = s.pageVers := by rw [(raiseAes_events s n b).rest]
@[simp] theorem raiseAes_cfgPend (s : State) (n b : Nat) : (s.raiseAes n b).cfgPend = s.cfgPend := by rw [(raiseAes_events s n b).rest]
@[simp] theorem raiseAes_tickWrites (s : State) (n b : Nat) : (s.raiseAes n b).tickWrites = s.tickWrites := by rw [(raiseAes_events s n b).rest]
@[simp] theorem raiseAes_syscnt (s : State) (n b : Nat) : (s.raiseAes n b).syscnt = s.syscnt := by rw [(raiseAes_events s n b).rest]
@[simp] theorem raiseAes_coarse (s : State) (n b : Nat) : (s.raiseAes n b).coarse = s.coarse := by rw [(raiseAes_events s n b).rest]
@[simp] theorem raiseAes_sysHold (s : State) (n b : Nat) : (s.raiseAes n b).sysHold = s.sysHold := by rw [(raiseAes_events s n b).rest]
@[simp] theorem raiseAes_tickcnt (s : State) (n b : Nat) : (s.raiseAes n b).tickcnt = s.tickcnt := by rw [(raiseAes_events s n b).rest]
@[simp] theorem raiseAes_tickSys (s : State) (n b : Nat) : (s.raiseAes n b).tickSys = s.tickSys := by rw [(raiseAes_events s n b).rest]
@[simp] theorem raiseAes_ticks (s : State) (n b : Nat) : (s.raiseAes n b).ticks = s.ticks := by rw [(raiseAes_events s n b).rest]
@[simp] theorem raiseAes_boundary (s : State) (n b : Nat) : (s.raiseAes n b).boundary = s.boundary := by rw [(raiseAes_events s n b).rest]
@[simp] theorem raiseAes_mons (s : State) (n b : Nat) : (s.raiseAes n b).mons = s.mons := by rw [(raiseAes_events s n b).rest]
@[simp] theorem raiseAes_pll (s : State) (n b : Nat) : (s.raiseAes n b).pll = s.pll := by rw [(raiseAes_events s n b).rest]
@[simp] theorem raiseAes_ens (s : State) (n b : Nat) : (s.raiseAes n b).ens = s.ens := by rw [(raiseAes_events s n b).rest]
@[simp] theorem raiseAes_addrPins (s : State) (n b : Nat) : (s.raiseAes n b).addrPins = s.addrPins := by rw [(raiseAes_events s n b).rest]
@[simp] theorem raiseAes_index (s : State) (n b : Nat) : (s.raiseAes n b).index = s.index := by rw [(raiseAes_events s n b).rest]
@[simp] theorem raiseAes_doms (s : State) (n b : Nat) : (s.raiseAes n b).doms = s.doms := by rw [(raiseAes_events s n b).rest]
@[simp] theorem raiseAes_change (s : State) (n b : Nat) : (s.raiseAes n b).change = s.change := by rw [(raiseAes_events s n b).rest]
@[simp] theorem raiseAes_lift (s : State) (n b : Nat) : (s.raiseAes n b).lift = s.lift := by rw [(raiseAes_events s n b).rest]
@[simp] theorem raiseAes_pvdd (s : State) (n b : Nat) : (s.raiseAes n b).pvdd = s.pvdd := by rw [(raiseAes_events s n b).rest]
@[simp] theorem raiseAes_resetHold (s : State) (n b : Nat) : (s.raiseAes n b).resetHold = s.resetHold := by rw [(raiseAes_events s n b).rest]
@[simp] theorem raiseAes_ports (s : State) (n b : Nat) : (s.raiseAes n b).ports = s.ports := by rw [(raiseAes_events s n b).rest]
@[simp] theorem raiseAes_claims (s : State) (n b : Nat) : (s.raiseAes n b).claims = s.claims := by rw [(raiseAes_events s n b).rest]
@[simp] theorem raiseAes_txn (s : State) (n b : Nat) : (s.raiseAes n b).txn = s.txn := by rw [(raiseAes_events s n b).rest]
@[simp] theorem raiseAes_saps (s : State) (n b : Nat) : (s.raiseAes n b).saps = s.saps := by rw [(raiseAes_events s n b).rest]
@[simp] theorem raiseAes_grps (s : State) (n b : Nat) : (s.raiseAes n b).grps = s.grps := by rw [(raiseAes_events s n b).rest]
@[simp] theorem raiseAes_portSrc (s : State) (n b : Nat) : (s.raiseAes n b).portSrc = s.portSrc := by rw [(raiseAes_events s n b).rest]
@[simp] theorem raiseAes_portSink (s : State) (n b : Nat) : (s.raiseAes n b).portSink = s.portSink := by rw [(raiseAes_events s n b).rest]
@[simp] theorem raiseAes_asrcs (s : State) (n b : Nat) : (s.raiseAes n b).asrcs = s.asrcs := by rw [(raiseAes_events s n b).rest]
@[simp] theorem raiseAes_dlines (s : State) (n b : Nat) : (s.raiseAes n b).dlines = s.dlines := by rw [(raiseAes_events s n b).rest]
@[simp] theorem raiseAes_crcs (s : State) (n b : Nat) : (s.raiseAes n b).crcs = s.crcs := by rw [(raiseAes_events s n b).rest]
@[simp] theorem raiseAes_crcOwner (s : State) (n b : Nat) : (s.raiseAes n b).crcOwner = s.crcOwner := by rw [(raiseAes_events s n b).rest]
@[simp] theorem raiseAes_ains (s : State) (n b : Nat) : (s.raiseAes n b).ains = s.ains := by rw [(raiseAes_events s n b).rest]
@[simp] theorem raiseAes_ainOut (s : State) (n b : Nat) : (s.raiseAes n b).ainOut = s.ainOut := by rw [(raiseAes_events s n b).rest]
@[simp] theorem raiseAes_tdacQ (s : State) (n b : Nat) : (s.raiseAes n b).tdacQ = s.tdacQ := by rw [(raiseAes_events s n b).rest]
@[simp] theorem raiseAes_tdacOwner (s : State) (n b : Nat) : (s.raiseAes n b).tdacOwner = s.tdacOwner := by rw [(raiseAes_events s n b).rest]
@[simp] theorem raiseAes_tdac (s : State) (n b : Nat) : (s.raiseAes n b).tdac = s.tdac := by rw [(raiseAes_events s n b).rest]
@[simp] theorem raiseAes_fab (s : State) (n b : Nat) : (s.raiseAes n b).fab = s.fab := by rw [(raiseAes_events s n b).rest]
@[simp] theorem raiseAes_gains (s : State) (n b : Nat) : (s.raiseAes n b).gains = s.gains := by rw [(raiseAes_events s n b).rest]
@[simp] theorem raiseAes_senseOut (s : State) (n b : Nat) : (s.raiseAes n b).senseOut = s.senseOut := by rw [(raiseAes_events s n b).rest]
@[simp] theorem raiseAes_injOut (s : State) (n b : Nat) : (s.raiseAes n b).injOut = s.injOut := by rw [(raiseAes_events s n b).rest]
@[simp] theorem raiseAes_outs (s : State) (n b : Nat) : (s.raiseAes n b).outs = s.outs := by rw [(raiseAes_events s n b).rest]
@[simp] theorem raiseAes_cpOn (s : State) (n b : Nat) : (s.raiseAes n b).cpOn = s.cpOn := by rw [(raiseAes_events s n b).rest]
@[simp] theorem raiseAes_jacks (s : State) (n b : Nat) : (s.raiseAes n b).jacks = s.jacks := by rw [(raiseAes_events s n b).rest]
@[simp] theorem raiseAes_jackTrig (s : State) (n b : Nat) : (s.raiseAes n b).jackTrig = s.jackTrig := by rw [(raiseAes_events s n b).rest]
@[simp] theorem raiseAes_jackFired (s : State) (n b : Nat) : (s.raiseAes n b).jackFired = s.jackFired := by rw [(raiseAes_events s n b).rest]
@[simp] theorem raiseAes_jackPages (s : State) (n b : Nat) : (s.raiseAes n b).jackPages = s.jackPages := by rw [(raiseAes_events s n b).rest]
@[simp] theorem raiseAes_hka (s : State) (n b : Nat) : (s.raiseAes n b).hka = s.hka := by rw [(raiseAes_events s n b).rest]
@[simp] theorem raiseAes_amps (s : State) (n b : Nat) : (s.raiseAes n b).amps = s.amps := by rw [(raiseAes_events s n b).rest]
@[simp] theorem raiseAes_sag (s : State) (n b : Nat) : (s.raiseAes n b).sag = s.sag := by rw [(raiseAes_events s n b).rest]
@[simp] theorem raiseAes_boot (s : State) (n b : Nat) : (s.raiseAes n b).boot = s.boot := by rw [(raiseAes_events s n b).rest]
@[simp] theorem raiseAes_fuses (s : State) (n b : Nat) : (s.raiseAes n b).fuses = s.fuses := by rw [(raiseAes_events s n b).rest]
@[simp] theorem raiseAes_fusesRead (s : State) (n b : Nat) : (s.raiseAes n b).fusesRead = s.fusesRead := by rw [(raiseAes_events s n b).rest]
@[simp] theorem raiseAes_blow (s : State) (n b : Nat) : (s.raiseAes n b).blow = s.blow := by rw [(raiseAes_events s n b).rest]
@[simp] theorem raiseAes_injs (s : State) (n b : Nat) : (s.raiseAes n b).injs = s.injs := by rw [(raiseAes_events s n b).rest]
@[simp] theorem raiseAes_caps (s : State) (n b : Nat) : (s.raiseAes n b).caps = s.caps := by rw [(raiseAes_events s n b).rest]
@[simp] theorem raiseAes_book (s : State) (n b : Nat) : (s.raiseAes n b).book = s.book := by rw [(raiseAes_events s n b).rest]
@[simp] theorem raiseAes_irqCopy (s : State) (n b : Nat) : (s.raiseAes n b).irqCopy = s.irqCopy := by rw [(raiseAes_events s n b).rest]
@[simp] theorem raiseAes_xportCopy (s : State) (n b : Nat) : (s.raiseAes n b).xportCopy = s.xportCopy := by rw [(raiseAes_events s n b).rest]
@[simp] theorem raiseAes_vio (s : State) (n b : Nat) : (s.raiseAes n b).vio = s.vio := by rw [(raiseAes_events s n b).rest]
@[simp] theorem raiseAes_esd (s : State) (n b : Nat) : (s.raiseAes n b).esd = s.esd := by rw [(raiseAes_events s n b).rest]

end Sys2Proof.Machine
end

