-- ==== Sys2Proof/Laws/Kept.lean ====
section
/-!
SUPPORT. The invariant with what goes with it (14_control_ports.md R339, 17_boot_images_recovery.md R396): a command keeps the
canonical form and the credits, leaves the queue of commands alone, and takes no blown fuse back.  The files `Kept…` show it of
every operation and of every command, one lemma each.
-/

namespace Sys2Proof.Machine
variable {ql : List Instr} {zf : BitVec 512}

/-- The invariant, a queue of commands, and fuses among those that are blown. -/
structure State.Kept (s : State) (ql : List Instr) (zf : BitVec 512) : Prop where
  canonical : s.Canonical
  credited : s.Credited
  queue : s.pending = ql
  fuses : zf &&& s.fuses = zf

namespace State.Kept

theorem congr {s t : State} (h : s.Kept ql zf) (h1 : t.regs = s.regs) (h2 : t.mem = s.mem) (h3 : t.pageVers = s.pageVers)
    (h4 : t.ports = s.ports) (h5 : t.pending = s.pending := by rfl) (h6 : t.fuses = s.fuses := by rfl) : t.Kept ql zf := by
  refine ⟨⟨?_, ?_, ?_⟩, ?_, h5.trans h.queue, by rw [h6]; exact h.fuses⟩
  · rw [h1]; exact h.canonical.regs
  · rw [h2]; exact h.canonical.mem
  · rw [h3]; exact h.canonical.vers
  · intro p; rw [h4]; exact h.credited p

theorem regs_ {s t : State} (h : s.Kept ql zf) (h1 : sparseWf regReset t.regs) (h2 : t.mem = s.mem) (h3 : t.pageVers =
    s.pageVers)
    (h4 : t.ports = s.ports) (h5 : t.pending = s.pending := by rfl) (h6 : t.fuses = s.fuses := by rfl) : t.Kept ql zf := by
  refine ⟨⟨h1, ?_, ?_⟩, ?_, h5.trans h.queue, by rw [h6]; exact h.fuses⟩
  · rw [h2]; exact h.canonical.mem
  · rw [h3]; exact h.canonical.vers
  · intro p; rw [h4]; exact h.credited p

theorem ite {c : Prop} [Decidable c] {t e : State} (ht : t.Kept ql zf) (he : e.Kept ql zf) : (if c then t else e).Kept ql zf := by
  split
  · exact ht
  · exact he

theorem foldl {α : Type} (f : State → α → State) (hf : ∀ s x, s.Kept ql zf → (f s x).Kept ql zf) (l : List α) {s : State} (h :
    s.Kept ql zf) : (l.foldl f s).Kept ql zf := by
  induction l generalizing s with
  | nil => exact h
  | cons x l ih => exact ih (hf s x h)

theorem of_snd {α : Type} {x : α × State} {a : α} {t : State} (e : x = (a, t)) (h : x.2.Kept ql zf) : t.Kept ql zf := by
  subst e; exact h

theorem of_snd2 {α β : Type} {x : α × β × State} {a : α} {b : β} {t : State} (e : x = (a, b, t)) (h : x.2.2.Kept ql zf) :
    t.Kept ql zf := by
  subst e; exact h

theorem of_snd3 {α β γ : Type} {x : α × β × γ × State} {a : α} {b : β} {c : γ} {t : State} (e : x = (a, b, c, t)) (h :
    x.2.2.2.Kept ql zf) : t.Kept ql zf := by
  subst e; exact h

theorem of_mid {α β : Type} {x : α × State × β} {a : α} {b : β} {t : State} (e : x = (a, t, b)) (h : x.2.1.Kept ql zf) : t.Kept
    ql zf := by
  subst e; exact h

theorem setPort {s t : State} (h : s.Kept ql zf) (p : Fin 4) (q : Port) (h1 : t.regs = s.regs) (h2 : t.mem = s.mem) (h3 :
    t.pageVers = s.pageVers)
    (h4 : t.ports = s.ports.set p q) (hq : q.Balanced) (h5 : t.pending = s.pending := by rfl) (h6 : t.fuses = s.fuses := by rfl) : t.Kept ql zf := by
  refine ⟨⟨?_, ?_, ?_⟩, ?_, h5.trans h.queue, by rw [h6]; exact h.fuses⟩
  · rw [h1]; exact h.canonical.regs
  · rw [h2]; exact h.canonical.mem
  · rw [h3]; exact h.canonical.vers
  · intro k
    rw [h4]
    by_cases e : p = k
    · subst e; simpa using hq
    · have : (s.ports.set p q)[k] = s.ports[k] := by
        have e2 : p.val ≠ k.val := fun h => e (Fin.ext h)
        simp [Fin.getElem_fin, e2]
      rw [this]; exact h.credited k

theorem updPort {s : State} (h : s.Kept ql zf) (p : Fin 4) (f : Port → Port) (hf : s.ports[p].Balanced → (f
    s.ports[p]).Balanced) : (s.updPort p f).Kept ql zf :=
  setPort h p _ rfl rfl rfl rfl (hf (h.credited p))

end State.Kept

theorem Port.Balanced.same {q r : Port} (h : q.Balanced) (h1 : r.held = q.held) (h2 : r.queued = q.queued) (h3 : r.inflight =
    q.inflight) (h4 : r.frames = q.frames) : r.Balanced := by
  refine ⟨?_, ?_⟩
  · rw [h1, h2, h3]; exact h.sum
  · rw [Port.owing, h4, h2]; exact h.queued

theorem State.Kept.upd {s : State} (h : s.Kept ql zf) (fresh : Nat) (bus : Word) (cfgPend : List (Nat × Nat)) (tickWrites :
    List (Nat × Nat)) (syscnt : Nat) (coarse : Bool) (sysHold : Nat) (tickcnt : Nat) (tickSys : Nat) (ticks : Nat) (boundary :
    Nat) (mons : Vector Mon 43) (pll : Pll) (ens : Ens) (addrPins : Vector (Fin 3) 6) (index : Nat) (rings : Vector Ring 32)
    (evtHeld : List EvtRec) (evtNow : Option (List EvtRec)) (irqHeld : BitVec 4) (evtLog : Nat) (doms : Vector Dom 27) (change
    : Option Change) (lift : Bool) (pvdd : Nat) (resetHold : Option ResetSource) (claims : List (Nat × Nat)) (txn : Txn) (saps
    : Vector Sap 32) (grps : Vector Grp 8) (portSrc : Vector Sample 128) (portSink : Vector Sample 128) (asrcs : Vector Asrc
    64) (dlines : List DLine) (crcs : Vector Crc 26) (crcOwner : Option CrcParty) (ains : Vector Ain 16) (ainOut : Vector
    Sample 16) (tdacQ : List (Nat × TdacUser)) (tdacOwner : Option TdacUser) (tdac : Tdac) (fab : Fab) (gains : List (Nat ×
    Glide)) (senseOut : Vector Sample 4) (injOut : Vector Sample 2) (outs : Vector Out 20) (cpOn : Bool) (jacks : Vector Jack
    20) (jackTrig : List (Fin 20 × TrigKind)) (jackFired : List Nat) (jackPages : List Nat) (hka : Hka) (amps : Vector Amp 4)
    (sag : Sag) (boot : Boot) (fusesRead : BitVec 512) (blow : List Nat) (injs : Vector InjPhase 2) (caps : Vector (Bool ×
    Bool) 2) (book : Nat × Nat × Nat × Nat × Nat) (irqCopy : Vector Nat 4) (xportCopy : Nat) (vio : Vio) (esd : List (EsdPin ×
    Nat)) : State.Kept (State.mk s.pending fresh bus s.regs s.mem s.pageVers cfgPend tickWrites syscnt coarse sysHold tickcnt
    tickSys ticks boundary mons pll ens addrPins index rings evtHeld evtNow irqHeld evtLog doms change lift pvdd resetHold
    s.ports claims txn saps grps portSrc portSink asrcs dlines crcs crcOwner ains ainOut tdacQ tdacOwner tdac fab gains
    senseOut injOut outs cpOn jacks jackTrig jackFired jackPages hka amps sag boot s.fuses fusesRead blow injs caps book
    irqCopy xportCopy vio esd) ql zf := State.Kept.congr h rfl rfl rfl rfl

theorem State.Kept.inv {s : State} (h : s.Kept ql zf) : s.Inv := ⟨h.canonical, h.credited⟩

theorem State.Inv.kept {s : State} (h : s.Inv) : s.Kept s.pending s.fuses := ⟨h.canonical, h.credited, rfl, BitVec.and_self⟩

theorem reset_inv : State.reset.Inv := by
  refine ⟨⟨⟨List.Pairwise.nil, ?_⟩, ⟨List.Pairwise.nil, ?_⟩, ⟨List.Pairwise.nil, ?_⟩⟩, ?_⟩
  · intro e h; exact absurd h (by simp [State.reset])
  · intro e h; exact absurd h (by simp [State.reset])
  · intro e h; exact absurd h (by simp [State.reset])
  · intro p
    show ((Vector.ofFn fun (i : Fin 4) => Port.atReset i)[p] : Port).Balanced
    simp only [Fin.getElem_fin, Vector.getElem_ofFn]
    exact ⟨rfl, Nat.le_refl 0⟩

/-- The state that an answer gives, if it gives one, is kept. -/
structure NextKept (r : Result) (ql : List Instr) (zf : BitVec 512) : Prop where
  all : ∀ t, r = .next t → t.Kept ql zf

theorem nextKept_next {t : State} (h : t.Kept ql zf) : NextKept (.next t) ql zf := ⟨by intro u hu; cases hu; exact h⟩

end Sys2Proof.Machine
end

