-- ==== Sys2Proof/Laws/KeptRegs.lean ====
section
/-!
SUPPORT. What commands keep (Kept): registers, memory, rings and held writes.
-/
namespace Sys2Proof.Machine

variable {ql : List Instr} {zf : BitVec 512}

theorem State.setReg_kept (s : State) (a : Nat) (w : Word) (h0 : s.Kept ql zf) :
    (State.setReg s a w).Kept ql zf := by
  exact State.Kept.regs_ h0 (sparseSet_wf regReset a w h0.canonical.regs) rfl rfl rfl

theorem State.setFld_kept (s : State) (f : Fld) (v : Nat) (h0 : s.Kept ql zf) :
    (State.setFld s f v).Kept ql zf := by
  unfold State.setFld
  repeat' (first | with_reducible assumption | with_reducible apply State.setReg_kept)

theorem State.setSfld_kept (s : State) (f : Fld) (i : Int) (h0 : s.Kept ql zf) :
    (State.setSfld s f i).Kept ql zf := by
  unfold State.setSfld
  repeat' (first | with_reducible assumption | with_reducible apply State.setFld_kept)

theorem State.countSat_kept (s : State) (f : Fld) (k : Nat) (h0 : s.Kept ql zf) :
    (State.countSat s f k).Kept ql zf := by
  unfold State.countSat
  repeat' (first | with_reducible assumption | with_reducible apply State.setFld_kept)

theorem State.countWrap_kept (s : State) (f : Fld) (k : Nat) (h0 : s.Kept ql zf) :
    (State.countWrap s f k).Kept ql zf := by
  unfold State.countWrap
  repeat' (first | with_reducible assumption | with_reducible apply State.setFld_kept)

theorem State.setBit_kept (s : State) (f : Fld) (k : Nat) (b : Bool) (h0 : s.Kept ql zf) :
    (State.setBit s f k b).Kept ql zf := by
  unfold State.setBit
  repeat' (first | with_reducible assumption | with_reducible apply State.setFld_kept)

theorem State.resetPage_kept (s : State) (p : Nat) (h0 : s.Kept ql zf) :
    (State.resetPage s p).Kept ql zf := by
  exact State.Kept.regs_ h0 (sparseFilter_wf regReset _ h0.canonical.regs) rfl rfl rfl

theorem State.resetRegs_kept (s : State) (lo hi : Nat) (h0 : s.Kept ql zf) :
    (State.resetRegs s lo hi).Kept ql zf := by
  exact State.Kept.regs_ h0 (sparseFilter_wf regReset _ h0.canonical.regs) rfl rfl rfl

theorem State.setByte_kept (s : State) (a : Nat) (b : Byte) (h0 : s.Kept ql zf) :
    (State.setByte s a b).Kept ql zf := by
  exact ⟨⟨h0.canonical.regs, sparseSet_wf (fun _ => memDefault) a b h0.canonical.mem, h0.canonical.vers⟩, h0.credited, h0.queue, h0.fuses⟩

theorem State.setBytes_kept : ∀ (bs : List Byte) (s : State) (a : Nat) (h : s.Kept ql zf), (s.setBytes a bs).Kept ql zf := by
  intro bs
  induction bs with
  | nil => exact fun s a h => h
  | cons b l ih => exact fun s a h => ih _ _ (State.setByte_kept s a b h)

theorem State.setMemWord_kept (s : State) (a : Nat) (w : Word) (h0 : s.Kept ql zf) :
    (State.setMemWord s a w).Kept ql zf := by
  exact State.setBytes_kept _ s a h0

theorem State.clearMem_kept (s : State) (lo hi : Nat) (h0 : s.Kept ql zf) :
    (State.clearMem s lo hi).Kept ql zf := by
  exact ⟨⟨h0.canonical.regs, sparseFilter_wf (fun _ => memDefault) _ h0.canonical.mem, h0.canonical.vers⟩, h0.credited, h0.queue, h0.fuses⟩

theorem State.free_kept (s : State) (n : Nat) (h0 : s.Kept ql zf) :
    (State.free s n).2.Kept ql zf := by
  exact State.Kept.congr h0 rfl rfl rfl rfl

theorem State.freeInt_kept (s : State) (lo hi : Int) (h0 : s.Kept ql zf) :
    (State.freeInt s lo hi).2.Kept ql zf := by
  exact State.Kept.congr h0 rfl rfl rfl rfl

theorem State.freeBytes_kept (s : State) (n : Nat) (h0 : s.Kept ql zf) :
    (State.freeBytes s n).2.Kept ql zf := by
  exact State.Kept.congr h0 rfl rfl rfl rfl

theorem State.divFree_kept (s : State) (a b : Int) (h0 : s.Kept ql zf) :
    (State.divFree s a b).2.Kept ql zf := by
  unfold State.divFree
  split
  · exact h0
  · exact State.Kept.congr h0 rfl rfl rfl rfl

theorem State.bumpVer_kept (s : State) (p : Nat) (h0 : s.Kept ql zf) :
    (State.bumpVer s p).Kept ql zf := by
  exact ⟨⟨h0.canonical.regs, h0.canonical.mem, sparseSet_wf (fun _ => 0) p _ h0.canonical.vers⟩, h0.credited, h0.queue, h0.fuses⟩

theorem State.updPort_kept (s : State) (p : Fin 4) (f : Port → Port) (h0 : s.Kept ql zf) (hf : s.ports[p].Balanced → (f s.ports[p]).Balanced) :
    (s.updPort p f).Kept ql zf := State.Kept.updPort h0 p f hf

theorem State.waitOver_kept (s : State) (p : Fin 4) (w : Wait → Option OpResult) (h0 : s.Kept ql zf) :
    (State.waitOver s p w).Kept ql zf := by
  unfold State.waitOver
  repeat' (first
    | with_reducible assumption
    | (intro hq; exact Port.Balanced.same hq rfl rfl rfl rfl)
    | with_reducible apply State.updPort_kept)

theorem State.updRing_kept (s : State) (i : Nat) (f : Ring → Ring) (h0 : s.Kept ql zf) :
    (State.updRing s i f).Kept ql zf := by
  unfold State.updRing
  repeat' (first | with_reducible assumption | (fail_if_no_progress (with_reducible apply State.Kept.upd)))

theorem State.countLost_kept (s : State) (i : Nat) (k : optParam Nat 1) (h0 : s.Kept ql zf) :
    (State.countLost s i k).Kept ql zf := by
  unfold State.countLost
  repeat' (first
    | with_reducible assumption
    | with_reducible apply State.updRing_kept
    | with_reducible apply State.countSat_kept
    | with_reducible apply State.Kept.ite)

theorem State.markWater_kept (s : State) (i : Nat) (h0 : s.Kept ql zf) :
    (State.markWater s i).1.Kept ql zf := by
  unfold State.markWater
  repeat' (first
    | with_reducible assumption
    | (intro hq; exact Port.Balanced.same hq rfl rfl rfl rfl)
    | (dsimp only)
    | (intro _)
    | with_reducible apply State.setBit_kept
    | with_reducible apply State.Kept.foldl
    | (refine State.Kept.of_snd (by assumption) ?_)
    | (refine State.Kept.of_snd2 (by assumption) ?_)
    | (refine State.Kept.of_snd3 (by assumption) ?_)
    | (refine State.Kept.of_mid (by assumption) ?_)
    | with_reducible apply State.Kept.ite
    | split
    | (fail_if_no_progress (with_reducible apply State.Kept.upd)))

theorem raiseAll_kept (raise : Nat → State → State) (x : State × List Nat)
    (h0 : ∀ k, ∀ s : State, s.Kept ql zf → (raise k s).Kept ql zf) (h1 : x.1.Kept ql zf) : (raiseAll raise x).Kept ql zf :=
  State.Kept.foldl _ (fun _ b h => h0 b _ h) _ h1

theorem ringEnter_kept (i : Nat) (entry : Bool → List Byte) (s : State) (h2 : s.Kept ql zf) :
    (ringEnter i entry s).1.Kept ql zf := by
  unfold ringEnter
  repeat' (first
    | with_reducible assumption
    | (intro hq; exact Port.Balanced.same hq rfl rfl rfl rfl)
    | (dsimp only)
    | (intro _)
    | with_reducible apply State.countLost_kept
    | with_reducible apply State.updRing_kept
    | with_reducible apply State.setBytes_kept
    | with_reducible apply State.markWater_kept
    | with_reducible apply State.Kept.foldl
    | (refine State.Kept.of_snd (by assumption) ?_)
    | (refine State.Kept.of_snd2 (by assumption) ?_)
    | (refine State.Kept.of_snd3 (by assumption) ?_)
    | (refine State.Kept.of_mid (by assumption) ?_)
    | with_reducible apply State.Kept.ite
    | split
    | (fail_if_no_progress (with_reducible apply State.Kept.upd)))

theorem ringPutWith_kept (raise : Nat → State → State) (i : Nat) (entry : Bool → List Byte) (s : State) (h0 : ∀ k, ∀ s : State, s.Kept ql zf → (raise k s).Kept ql zf) (h3 : s.Kept ql zf) :
    (ringPutWith raise i entry s).Kept ql zf := by
  exact raiseAll_kept _ _ h0 (ringEnter_kept _ _ _ h3)

theorem hearRecord_kept (e : EvtRec) (x : State × List Nat) (p : Fin 4) (h1 : x.1.Kept ql zf) :
    (hearRecord e x p).1.Kept ql zf := by
  unfold hearRecord
  split
  · exact ringEnter_kept _ _ _ h1
  · exact h1

theorem recordWith_kept (raise : Nat → State → State) (e : EvtRec) (s : State) (h0 : ∀ k, ∀ s : State, s.Kept ql zf → (raise k s).Kept ql zf) (h2 : s.Kept ql zf) :
    (recordWith raise e s).Kept ql zf := by
  have h1 : (s.setBytes (0x20078000 + s.evtLog % 1024 * 16) (e.bytes false)).Kept ql zf := State.setBytes_kept _ _ _ h2
  have h3 : ∀ (t : State), t.Kept ql zf → ({ t with evtLog := t.evtLog + 1 } : State).Kept ql zf := fun t h => State.Kept.congr h rfl rfl rfl rfl
  have key : ∀ (l : List (Fin 4)) (x : State × List Nat), x.1.Kept ql zf → (l.foldl (hearRecord e) x).1.Kept ql zf := by
    intro l
    induction l with
    | nil => exact fun x h => h
    | cons p l ih => exact fun x h => ih _ (hearRecord_kept e x p h)
  unfold recordWith
  exact raiseAll_kept _ _ h0 (key _ (_, []) (h3 _ h1))

theorem deliverWith_kept (raise : Nat → State → State) (e : EvtRec) (s : State) (h0 : ∀ k, ∀ s : State, s.Kept ql zf → (raise k s).Kept ql zf) (h2 : s.Kept ql zf) :
    (deliverWith raise e s).Kept ql zf := by
  unfold deliverWith
  split
  · exact State.Kept.congr h2 rfl rfl rfl rfl
  · split
    · exact recordWith_kept _ _ _ h0 h2
    · exact State.Kept.congr h2 rfl rfl rfl rfl

theorem raiseFuel_kept : ∀ (fuel p : Nat) (r : EvtReg) (b d : Nat) (f : Bool) (s : State) (h : s.Kept ql zf), (raiseFuel fuel p r b d f s).Kept ql zf := by
  intro fuel
  induction fuel with
  | zero => exact fun p r b d f s h => h
  | succ n ih =>
    intro p r b d f s h
    unfold raiseFuel
    dsimp only
    have h1 := State.setReg_kept s (r.statusAddr p) (word (withBit (s.reg (r.statusAddr p)).toNat b)) h
    split
    · exact deliverWith_kept _ _ _ (fun k t ht => ih _ _ _ _ _ _ ht) h1
    · exact h1

theorem State.raise_kept (s : State) (p b : Nat) (h0 : s.Kept ql zf) :
    (State.raise s p b).Kept ql zf := by
  unfold State.raise
  repeat' (first | with_reducible assumption | with_reducible apply raiseFuel_kept)

theorem State.raiseAes_kept (s : State) (n b : Nat) (h0 : s.Kept ql zf) :
    (State.raiseAes s n b).Kept ql zf := by
  unfold State.raiseAes
  repeat' (first | with_reducible assumption | with_reducible apply raiseFuel_kept)

theorem State.raiseGrp_kept (s : State) (g b : Nat) (h0 : s.Kept ql zf) :
    (State.raiseGrp s g b).Kept ql zf := by
  unfold State.raiseGrp
  repeat' (first | with_reducible assumption | with_reducible apply raiseFuel_kept)

theorem State.raiseWith_kept (s : State) (p b detail : Nat) (h0 : s.Kept ql zf) :
    (State.raiseWith s p b detail).Kept ql zf := by
  unfold State.raiseWith
  repeat' (first | with_reducible assumption | with_reducible apply raiseFuel_kept)

theorem State.raiseBits_kept (s : State) (p : Nat) (bits : List Nat) (h0 : s.Kept ql zf) :
    (State.raiseBits s p bits).Kept ql zf := by
  exact State.Kept.foldl _ (fun t x ht => State.raise_kept _ _ _ ht) _ h0

theorem raiseRing_kept (b : Nat) (s : State) (h1 : s.Kept ql zf) :
    (raiseRing b s).Kept ql zf := by
  unfold raiseRing
  repeat' (first | with_reducible assumption | with_reducible apply State.raise_kept)

theorem State.ringPut_kept (s : State) (i : Nat) (entry : Bool → List Byte) (h0 : s.Kept ql zf) :
    (State.ringPut s i entry).Kept ql zf := by
  unfold State.ringPut
  repeat' (first | with_reducible assumption | with_reducible apply ringPutWith_kept | with_reducible apply raiseRing_kept)

theorem State.flushEvents_kept (s : State) (h0 : s.Kept ql zf) :
    (State.flushEvents s).Kept ql zf := by
  unfold State.flushEvents
  apply State.Kept.foldl
  · intro t e ht
    exact recordWith_kept _ _ _ (fun k u hu => State.raise_kept _ _ _ hu) ht
  · exact State.Kept.congr h0 rfl rfl rfl rfl

theorem State.inOneCycle_kept (s : State) (f : State → State) (h0 : s.Kept ql zf) (h1 : ∀ s : State, s.Kept ql zf → (f s).Kept ql zf) :
    (State.inOneCycle s f).Kept ql zf := by
  have h2 : ∀ (t : State) (l : Option (List EvtRec)), t.Kept ql zf → ({ t with evtNow := l } : State).Kept ql zf :=
    fun t l h => State.Kept.congr h rfl rfl rfl rfl
  unfold State.inOneCycle
  split
  · exact h1 _ h0
  · refine State.Kept.foldl _ (fun u e hu => deliverWith_kept _ _ _ (fun k t ht => ?_) hu) _ (h2 _ _ (h1 _ (h2 _ _ h0)))
    exact raiseFuel_kept _ _ _ _ _ _ _ ht

theorem State.setErr_kept (s : State) (p b : Nat) (h0 : s.Kept ql zf) :
    (State.setErr s p b).Kept ql zf := by
  unfold State.setErr
  repeat' (first | with_reducible assumption | with_reducible apply State.setReg_kept)

theorem State.ringTake_kept (s : State) (i k : Nat) (h0 : s.Kept ql zf) :
    (State.ringTake s i k).Kept ql zf := by
  unfold State.ringTake
  repeat' (first
    | with_reducible assumption
    | with_reducible apply State.updRing_kept
    | with_reducible apply raiseAll_kept
    | with_reducible apply raiseRing_kept
    | with_reducible apply State.markWater_kept
    | with_reducible apply State.Kept.ite)

theorem State.ringLose_kept (s : State) (i k : Nat) (h0 : s.Kept ql zf) :
    (State.ringLose s i k).Kept ql zf := by
  unfold State.ringLose
  repeat' (first
    | with_reducible assumption
    | (intro hq; exact Port.Balanced.same hq rfl rfl rfl rfl)
    | (dsimp only)
    | (intro _)
    | with_reducible apply raiseRing_kept
    | with_reducible apply State.countLost_kept
    | with_reducible apply State.Kept.foldl
    | (refine State.Kept.of_snd (by assumption) ?_)
    | (refine State.Kept.of_snd2 (by assumption) ?_)
    | (refine State.Kept.of_snd3 (by assumption) ?_)
    | (refine State.Kept.of_mid (by assumption) ?_)
    | with_reducible apply State.Kept.ite
    | split
    | (fail_if_no_progress (with_reducible apply State.Kept.upd)))

theorem State.ringGive_kept (s : State) (i k : Nat) (h0 : s.Kept ql zf) :
    (State.ringGive s i k).Kept ql zf := by
  unfold State.ringGive
  repeat' (first | with_reducible assumption | with_reducible apply State.updRing_kept)

theorem State.store_kept (s : State) (a v : Nat) (h0 : s.Kept ql zf) :
    (State.store s a v).Kept ql zf := by
  unfold State.store
  repeat' (first | with_reducible assumption | with_reducible apply State.setReg_kept)

theorem State.answer_kept (s : State) (p : Nat) (w : Word) (h0 : s.Kept ql zf) :
    (State.answer s p w).Kept ql zf := by
  unfold State.answer
  repeat' (first | with_reducible assumption | (fail_if_no_progress (with_reducible apply State.Kept.upd)))

theorem State.hold_kept (s : State) (a v : Nat) (h0 : s.Kept ql zf) :
    (State.hold s a v).Kept ql zf := by
  unfold State.hold
  repeat' (first | with_reducible assumption | (fail_if_no_progress (with_reducible apply State.Kept.upd)))

theorem State.applyHeld_kept (s : State) (sel : Nat → Bool) (h0 : s.Kept ql zf) :
    (State.applyHeld s sel).Kept ql zf := by
  unfold State.applyHeld
  repeat' (first
    | with_reducible assumption
    | (intro _)
    | with_reducible apply State.store_kept
    | with_reducible apply State.Kept.foldl
    | (fail_if_no_progress (with_reducible apply State.Kept.upd)))

theorem State.dropHeld_kept (s : State) (sel : Nat → Bool) (h0 : s.Kept ql zf) :
    (State.dropHeld s sel).Kept ql zf := by
  unfold State.dropHeld
  repeat' (first | with_reducible assumption | (fail_if_no_progress (with_reducible apply State.Kept.upd)))

theorem State.admitOut_kept (s : State) (a : Option Admission) (h0 : s.Kept ql zf) :
    (State.admitOut s a).Kept ql zf := by
  unfold State.admitOut
  repeat' (first
    | with_reducible assumption
    | (intro _)
    | with_reducible apply State.setReg_kept
    | with_reducible apply State.Kept.foldl
    | split)

end Sys2Proof.Machine
end

