-- ==== Sys2Proof/Laws/KeptPorts.lean ====
section
/-!
SUPPORT. What commands keep (Kept): serial audio ports, alignment and rate converters.
-/
namespace Sys2Proof.Machine

variable {ql : List Instr} {zf : BitVec 512}

theorem State.updSap_kept (s : State) (n : Fin 32) (f : Sap → Sap) (h0 : s.Kept ql zf) :
    (State.updSap s n f).Kept ql zf := by
  unfold State.updSap
  repeat' (first | with_reducible assumption | (fail_if_no_progress (with_reducible apply State.Kept.upd)))

theorem State.updLine_kept (s : State) (n : Fin 32) (k : Fin 2) (f : SapLine → SapLine) (h0 : s.Kept ql zf) :
    (State.updLine s n k f).Kept ql zf := by
  unfold State.updLine
  repeat' (first | with_reducible assumption | with_reducible apply State.updSap_kept)

theorem State.updChan_kept (s : State) (n : Fin 32) (c : Fin 4) (f : SapChan → SapChan) (h0 : s.Kept ql zf) :
    (State.updChan s n c f).Kept ql zf := by
  unfold State.updChan
  repeat' (first | with_reducible assumption | with_reducible apply State.updSap_kept)

theorem State.setSapState_kept (s : State) (n : Fin 32) (t : SapState) (h0 : s.Kept ql zf) :
    (State.setSapState s n t).Kept ql zf := by
  unfold State.setSapState
  repeat' (first | with_reducible assumption | with_reducible apply State.setFld_kept)

theorem State.grpErrs_kept (s : State) (g : Fin 8) (bits : List Nat) (h0 : s.Kept ql zf) :
    (State.grpErrs s g bits).Kept ql zf := by
  unfold State.grpErrs
  repeat' (first
    | with_reducible assumption
    | (intro hq; exact Port.Balanced.same hq rfl rfl rfl rfl)
    | (dsimp only)
    | (intro _)
    | with_reducible apply State.setReg_kept
    | with_reducible apply State.Kept.foldl
    | (refine State.Kept.of_snd (by assumption) ?_)
    | (refine State.Kept.of_snd2 (by assumption) ?_)
    | (refine State.Kept.of_snd3 (by assumption) ?_)
    | (refine State.Kept.of_mid (by assumption) ?_)
    | with_reducible apply State.Kept.ite
    | split
    | (fail_if_no_progress (with_reducible apply State.Kept.upd)))

theorem State.fifoPut_kept (s : State) (n : Fin 32) (k : Fin 2) (a b : Sample) (h0 : s.Kept ql zf) :
    (State.fifoPut s n k a b).Kept ql zf := by
  unfold State.fifoPut
  repeat' (first
    | with_reducible assumption
    | with_reducible apply State.updLine_kept
    | with_reducible apply State.setBytes_kept)

theorem State.fifoDrop_kept (s : State) (n : Fin 32) (k : Fin 2) (h0 : s.Kept ql zf) :
    (State.fifoDrop s n k).Kept ql zf := by
  unfold State.fifoDrop
  repeat' (first | with_reducible assumption | with_reducible apply State.updLine_kept)

theorem State.moveOne_kept (s : State) (g : Fin 8) (n : Fin 32) (k : Fin 2) (h0 : s.Kept ql zf) :
    (State.moveOne s g n k).Kept ql zf := by
  unfold State.moveOne
  repeat' (first
    | with_reducible assumption
    | with_reducible apply State.fifoDrop_kept
    | with_reducible apply State.setBytes_kept
    | with_reducible apply State.updLine_kept)

theorem State.dropFront_kept (s : State) (n : Fin 32) (k : Fin 2) (h0 : s.Kept ql zf) :
    (State.dropFront s n k).Kept ql zf := by
  unfold State.dropFront
  repeat' (first
    | with_reducible assumption
    | with_reducible apply State.updLine_kept
    | with_reducible apply State.fifoDrop_kept
    | split)

theorem State.dropFronts_kept : ∀ (s : State) (n : Fin 32) (k : Fin 2) (j : Nat) (h : s.Kept ql zf), (s.dropFronts n k j).Kept ql zf := by
  intro s n k j
  induction j generalizing s with
  | zero => exact fun h => h
  | succ j ih => exact fun h => ih _ (State.dropFront_kept _ _ _ h)

theorem State.fifoBack_kept (s : State) (n : Fin 32) (k : Fin 2) (a b : Sample) (h0 : s.Kept ql zf) :
    (State.fifoBack s n k a b).Kept ql zf := by
  unfold State.fifoBack
  repeat' (first
    | with_reducible assumption
    | (intro hq; exact Port.Balanced.same hq rfl rfl rfl rfl)
    | (dsimp only)
    | (intro _)
    | with_reducible apply State.updLine_kept
    | with_reducible apply State.setBytes_kept
    | with_reducible apply State.Kept.foldl
    | (refine State.Kept.of_snd (by assumption) ?_)
    | (refine State.Kept.of_snd2 (by assumption) ?_)
    | (refine State.Kept.of_snd3 (by assumption) ?_)
    | (refine State.Kept.of_mid (by assumption) ?_)
    | with_reducible apply State.Kept.ite
    | split
    | (fail_if_no_progress (with_reducible apply State.Kept.upd)))

theorem State.pushFront_kept (s : State) (n : Fin 32) (k : Fin 2) (a b : Sample) (h0 : s.Kept ql zf) :
    (State.pushFront s n k a b).Kept ql zf := by
  unfold State.pushFront
  repeat' (first
    | with_reducible assumption
    | with_reducible apply State.updLine_kept
    | with_reducible apply State.setBytes_kept
    | with_reducible apply State.fifoBack_kept
    | split)

theorem State.splice_kept (s : State) (n : Fin 32) (k : Fin 2) (h0 : s.Kept ql zf) :
    (State.splice s n k).Kept ql zf := by
  unfold State.splice
  repeat' (first
    | with_reducible assumption
    | (intro _)
    | with_reducible apply State.dropFronts_kept
    | with_reducible apply State.pushFront_kept
    | with_reducible apply State.updLine_kept
    | with_reducible apply State.raiseGrp_kept
    | with_reducible apply State.Kept.foldl
    | split)

theorem State.syncZc_kept (s : State) (n : Fin 32) (h0 : s.Kept ql zf) :
    (State.syncZc s n).Kept ql zf := by
  unfold State.syncZc
  repeat' (first
    | with_reducible assumption
    | with_reducible apply State.setFld_kept
    | with_reducible apply State.raise_kept
    | with_reducible apply State.updSap_kept
    | with_reducible apply State.Kept.ite)

theorem State.passLine_kept (s : State) (n : Fin 32) (k : Fin 2) (a b : Sample) (h0 : s.Kept ql zf) :
    (State.passLine s n k a b).2.2.Kept ql zf := by
  unfold State.passLine
  repeat' (first | with_reducible assumption | with_reducible apply State.updChan_kept)

theorem State.underrun_kept (s : State) (n : Fin 32) (k : Fin 2) (h0 : s.Kept ql zf) :
    (State.underrun s n k).Kept ql zf := by
  unfold State.underrun
  repeat' (first
    | with_reducible assumption
    | with_reducible apply State.raise_kept
    | with_reducible apply State.updLine_kept
    | with_reducible apply State.Kept.ite)

theorem State.overrun_kept (s : State) (n : Fin 32) (k : Fin 2) (h0 : s.Kept ql zf) :
    (State.overrun s n k).Kept ql zf := by
  unfold State.overrun
  repeat' (first
    | with_reducible assumption
    | with_reducible apply State.raise_kept
    | with_reducible apply State.updLine_kept
    | with_reducible apply State.splice_kept
    | with_reducible apply State.Kept.ite)

theorem State.endEpisodes_kept (s : State) (n : Fin 32) (k : Fin 2) (h0 : s.Kept ql zf) :
    (State.endEpisodes s n k).Kept ql zf := by
  unfold State.endEpisodes
  repeat' (first | with_reducible assumption | with_reducible apply State.updLine_kept)

theorem State.beginSnow_kept (s : State) (n : Fin 32) (k : Fin 2) (h0 : s.Kept ql zf) :
    (State.beginSnow s n k).Kept ql zf := by
  unfold State.beginSnow
  repeat' (first | with_reducible assumption | with_reducible apply State.updLine_kept)

theorem State.snowMember_kept (s : State) (n : Fin 32) (k : Fin 2) (h0 : s.Kept ql zf) :
    (State.snowMember s n k).Kept ql zf := by
  unfold State.snowMember
  repeat' (first
    | with_reducible assumption
    | (intro hq; exact Port.Balanced.same hq rfl rfl rfl rfl)
    | (dsimp only)
    | (intro _)
    | with_reducible apply State.beginSnow_kept
    | with_reducible apply State.updLine_kept
    | with_reducible apply State.Kept.foldl
    | (refine State.Kept.of_snd (by assumption) ?_)
    | (refine State.Kept.of_snd2 (by assumption) ?_)
    | (refine State.Kept.of_snd3 (by assumption) ?_)
    | (refine State.Kept.of_mid (by assumption) ?_)
    | with_reducible apply State.Kept.ite
    | split
    | (fail_if_no_progress (with_reducible apply State.Kept.upd)))

theorem State.startSnow_kept (s : State) (n : Fin 32) (k : Fin 2) (h0 : s.Kept ql zf) :
    (State.startSnow s n k).Kept ql zf := by
  unfold State.startSnow
  repeat' (first
    | with_reducible assumption
    | (intro _)
    | with_reducible apply State.beginSnow_kept
    | with_reducible apply State.snowMember_kept
    | with_reducible apply State.raiseGrp_kept
    | with_reducible apply State.Kept.foldl
    | split
    | (fail_if_no_progress (with_reducible apply State.Kept.upd)))

theorem State.putSrc_kept (s : State) (n : Fin 32) (k : Fin 2) (a b : Sample) (h0 : s.Kept ql zf) :
    (State.putSrc s n k a b).Kept ql zf := by
  unfold State.putSrc
  repeat' (first | with_reducible assumption | (fail_if_no_progress (with_reducible apply State.Kept.upd)))

theorem State.countInserted_kept (s : State) (n : Fin 32) (k : Fin 2) (h0 : s.Kept ql zf) :
    (State.countInserted s n k).Kept ql zf := by
  unfold State.countInserted
  repeat' (first | with_reducible assumption | with_reducible apply State.updLine_kept)

theorem State.insertSilence_kept (s : State) (n : Fin 32) (k : Fin 2) (h0 : s.Kept ql zf) :
    (State.insertSilence s n k).Kept ql zf := by
  unfold State.insertSilence
  repeat' (first
    | with_reducible assumption
    | with_reducible apply State.putSrc_kept
    | with_reducible apply State.countInserted_kept)

theorem State.insertTail_kept (s : State) (n : Fin 32) (k : Fin 2) (h0 : s.Kept ql zf) :
    (State.insertTail s n k).Kept ql zf := by
  unfold State.insertTail
  repeat' (first
    | with_reducible assumption
    | with_reducible apply State.putSrc_kept
    | with_reducible apply State.countInserted_kept)

theorem State.takeFrame_kept (s : State) (n : Fin 32) (k : Fin 2) (h0 : s.Kept ql zf) :
    (State.takeFrame s n k).2.2.Kept ql zf := by
  unfold State.takeFrame
  repeat' (first
    | with_reducible assumption
    | with_reducible apply State.passLine_kept
    | with_reducible apply State.dropFront_kept
    | with_reducible apply State.updLine_kept)

theorem State.present_kept (s : State) (n : Fin 32) (k : Fin 2) (mark : Tag → Tag) (h0 : s.Kept ql zf) :
    (State.present s n k mark).Kept ql zf := by
  unfold State.present
  repeat' (first
    | with_reducible assumption
    | with_reducible apply State.takeFrame_kept
    | with_reducible apply State.putSrc_kept)

theorem State.silentDue_kept (s : State) (n : Fin 32) (k : Fin 2) (h0 : s.Kept ql zf) :
    (State.silentDue s n k).Kept ql zf := by
  unfold State.silentDue
  repeat' (first
    | with_reducible assumption
    | (intro hq; exact Port.Balanced.same hq rfl rfl rfl rfl)
    | (dsimp only)
    | (intro _)
    | with_reducible apply State.underrun_kept
    | with_reducible apply State.insertSilence_kept
    | with_reducible apply State.updLine_kept
    | with_reducible apply State.dropFront_kept
    | with_reducible apply State.raiseGrp_kept
    | with_reducible apply State.countSat_kept
    | with_reducible apply State.Kept.foldl
    | (refine State.Kept.of_snd (by assumption) ?_)
    | (refine State.Kept.of_snd2 (by assumption) ?_)
    | (refine State.Kept.of_snd3 (by assumption) ?_)
    | (refine State.Kept.of_mid (by assumption) ?_)
    | with_reducible apply State.Kept.ite
    | split
    | (fail_if_no_progress (with_reducible apply State.Kept.upd)))

theorem State.playDue_kept (s : State) (n : Fin 32) (k : Fin 2) (mark : Tag → Tag) (h0 : s.Kept ql zf) :
    (State.playDue s n k mark).Kept ql zf := by
  unfold State.playDue
  repeat' (first
    | with_reducible assumption
    | (intro hq; exact Port.Balanced.same hq rfl rfl rfl rfl)
    | (dsimp only)
    | (intro _)
    | with_reducible apply State.underrun_kept
    | with_reducible apply State.startSnow_kept
    | with_reducible apply State.insertTail_kept
    | with_reducible apply State.updLine_kept
    | with_reducible apply State.insertSilence_kept
    | with_reducible apply State.present_kept
    | with_reducible apply State.Kept.foldl
    | (refine State.Kept.of_snd (by assumption) ?_)
    | (refine State.Kept.of_snd2 (by assumption) ?_)
    | (refine State.Kept.of_snd3 (by assumption) ?_)
    | (refine State.Kept.of_mid (by assumption) ?_)
    | with_reducible apply State.Kept.ite
    | split
    | (fail_if_no_progress (with_reducible apply State.Kept.upd)))

theorem State.presentDue_kept (s : State) (n : Fin 32) (k : Fin 2) (h0 : s.Kept ql zf) :
    (State.presentDue s n k).Kept ql zf := by
  unfold State.presentDue
  repeat' (first
    | with_reducible assumption
    | with_reducible apply State.silentDue_kept
    | with_reducible apply State.updLine_kept
    | with_reducible apply State.present_kept
    | with_reducible apply State.insertSilence_kept
    | with_reducible apply State.underrun_kept
    | with_reducible apply State.insertTail_kept
    | with_reducible apply State.playDue_kept
    | with_reducible apply State.Kept.ite
    | split)

theorem State.presentMany_kept : ∀ (s : State) (n : Fin 32) (k : Fin 2) (j : Nat) (h : s.Kept ql zf), (s.presentMany n k j).Kept ql zf := by
  intro s n k j
  induction j generalizing s with
  | zero => exact fun h => h
  | succ j ih => exact fun h => ih _ (State.presentDue_kept _ _ _ h)

theorem State.framesDue_kept (s : State) (n : Fin 32) (k : Fin 2) (h0 : s.Kept ql zf) :
    (State.framesDue s n k).2.Kept ql zf := by
  unfold State.framesDue
  repeat' (first | with_reducible assumption | with_reducible apply State.updLine_kept | split)

theorem State.readyInput_kept (s : State) (n : Fin 32) (k : Fin 2) (h0 : s.Kept ql zf) :
    (State.readyInput s n k).Kept ql zf := by
  unfold State.readyInput
  repeat' (first
    | with_reducible assumption
    | (intro hq; exact Port.Balanced.same hq rfl rfl rfl rfl)
    | (dsimp only)
    | (intro _)
    | with_reducible apply State.updLine_kept
    | with_reducible apply State.startSnow_kept
    | with_reducible apply State.Kept.foldl
    | (refine State.Kept.of_snd (by assumption) ?_)
    | (refine State.Kept.of_snd2 (by assumption) ?_)
    | (refine State.Kept.of_snd3 (by assumption) ?_)
    | (refine State.Kept.of_mid (by assumption) ?_)
    | with_reducible apply State.Kept.ite
    | split
    | (fail_if_no_progress (with_reducible apply State.Kept.upd)))

theorem State.insertMany_kept (s : State) (n : Fin 32) (k : Fin 2) (h0 : s.Kept ql zf) :
    (State.insertMany s n k).Kept ql zf := by
  unfold State.insertMany
  repeat' (first
    | with_reducible assumption
    | (intro hq; exact Port.Balanced.same hq rfl rfl rfl rfl)
    | (dsimp only)
    | (intro _)
    | with_reducible apply State.framesDue_kept
    | with_reducible apply State.insertSilence_kept
    | with_reducible apply State.putSrc_kept
    | with_reducible apply State.Kept.foldl
    | (refine State.Kept.of_snd (by assumption) ?_)
    | (refine State.Kept.of_snd2 (by assumption) ?_)
    | (refine State.Kept.of_snd3 (by assumption) ?_)
    | (refine State.Kept.of_mid (by assumption) ?_)
    | with_reducible apply State.Kept.ite
    | split
    | (fail_if_no_progress (with_reducible apply State.Kept.upd)))

theorem State.dropStore_kept (s : State) (n : Fin 32) (k : Fin 2) (h0 : s.Kept ql zf) :
    (State.dropStore s n k).Kept ql zf := by
  unfold State.dropStore
  repeat' (first | with_reducible assumption | with_reducible apply State.updLine_kept)

theorem State.tickInput_kept (s : State) (n : Fin 32) (k : Fin 2) (h0 : s.Kept ql zf) :
    (State.tickInput s n k).Kept ql zf := by
  unfold State.tickInput
  repeat' (first
    | with_reducible assumption
    | (intro _)
    | with_reducible apply State.putSrc_kept
    | with_reducible apply State.insertMany_kept
    | with_reducible apply State.dropStore_kept
    | with_reducible apply State.updLine_kept
    | with_reducible apply State.endEpisodes_kept
    | with_reducible apply State.presentMany_kept
    | with_reducible apply State.Kept.foldl
    | with_reducible apply State.Kept.ite
    | split)

theorem State.sinkFrame_kept (s : State) (n : Fin 32) (k : Fin 2) (h0 : s.Kept ql zf) :
    (State.sinkFrame s n k).Kept ql zf := by
  unfold State.sinkFrame
  repeat' (first
    | with_reducible assumption
    | with_reducible apply State.passLine_kept
    | with_reducible apply State.updLine_kept
    | with_reducible apply State.overrun_kept
    | with_reducible apply State.fifoPut_kept
    | with_reducible apply State.Kept.ite)

theorem State.tickOutput_kept (s : State) (n : Fin 32) (k : Fin 2) (h0 : s.Kept ql zf) :
    (State.tickOutput s n k).Kept ql zf := by
  unfold State.tickOutput
  repeat' (first
    | with_reducible assumption
    | (intro _)
    | with_reducible apply State.updLine_kept
    | with_reducible apply State.framesDue_kept
    | with_reducible apply State.sinkFrame_kept
    | with_reducible apply State.Kept.foldl
    | with_reducible apply State.Kept.ite
    | split)

theorem State.outputRejoin_kept (s : State) (n : Fin 32) (k : Fin 2) (h0 : s.Kept ql zf) :
    (State.outputRejoin s n k).Kept ql zf := by
  unfold State.outputRejoin
  repeat' (first | with_reducible assumption | with_reducible apply State.updLine_kept | with_reducible apply State.Kept.ite)

theorem State.stampBlock_kept (s : State) (n : Fin 32) (k : Fin 2) (h0 : s.Kept ql zf) :
    (State.stampBlock s n k).Kept ql zf := by
  unfold State.stampBlock
  repeat' (first | with_reducible assumption | with_reducible apply State.updSap_kept | with_reducible apply State.Kept.ite)

theorem State.writeTs_kept (s : State) (g : Fin 8) (n : Fin 32) (k : Fin 2) (stamp : Nat) (coarse : Bool) (h0 : s.Kept ql zf) :
    (State.writeTs s g n k stamp coarse).Kept ql zf := by
  unfold State.writeTs
  repeat' (first
    | with_reducible assumption
    | with_reducible apply State.countSat_kept
    | with_reducible apply State.updLine_kept
    | with_reducible apply State.ringPut_kept
    | with_reducible apply State.Kept.ite)

theorem State.blockDone_kept (s : State) (n : Fin 32) (k : Fin 2) (h0 : s.Kept ql zf) :
    (State.blockDone s n k).Kept ql zf := by
  unfold State.blockDone
  repeat' (first
    | with_reducible assumption
    | with_reducible apply State.updLine_kept
    | with_reducible apply State.raiseGrp_kept
    | with_reducible apply State.writeTs_kept
    | with_reducible apply State.raise_kept
    | with_reducible apply State.setSapState_kept
    | with_reducible apply State.Kept.ite
    | split)

theorem State.enter_kept (s : State) (n : Fin 32) (k : Fin 2) (a b : Sample) (h0 : s.Kept ql zf) :
    (State.enter s n k a b).Kept ql zf := by
  unfold State.enter
  repeat' (first
    | with_reducible assumption
    | (intro hq; exact Port.Balanced.same hq rfl rfl rfl rfl)
    | (dsimp only)
    | (intro _)
    | with_reducible apply State.updLine_kept
    | with_reducible apply State.overrun_kept
    | with_reducible apply State.moveOne_kept
    | with_reducible apply State.stampBlock_kept
    | with_reducible apply State.fifoPut_kept
    | with_reducible apply State.blockDone_kept
    | with_reducible apply State.endEpisodes_kept
    | with_reducible apply State.Kept.foldl
    | (refine State.Kept.of_snd (by assumption) ?_)
    | (refine State.Kept.of_snd2 (by assumption) ?_)
    | (refine State.Kept.of_snd3 (by assumption) ?_)
    | (refine State.Kept.of_mid (by assumption) ?_)
    | with_reducible apply State.Kept.ite
    | split
    | (fail_if_no_progress (with_reducible apply State.Kept.upd)))

theorem State.moveBlocks_kept : ∀ (s : State) (g : Fin 8) (n : Fin 32) (k : Fin 2) (j : Nat) (h : s.Kept ql zf), (s.moveBlocks g n k j).Kept ql zf := by
  intro s g n k j
  induction j generalizing s with
  | zero => exact fun h => h
  | succ j ih =>
    intro h
    rw [State.moveBlocks]
    split
    · exact h
    · exact ih _ (State.moveOne_kept _ _ _ _ h)

theorem State.endInput_kept (s : State) (n : Fin 32) (k : Fin 2) (h0 : s.Kept ql zf) :
    (State.endInput s n k).Kept ql zf := by
  unfold State.endInput
  repeat' (first
    | with_reducible assumption
    | with_reducible apply State.moveBlocks_kept
    | with_reducible apply State.startSnow_kept
    | with_reducible apply State.Kept.ite
    | split)

theorem State.wakeLines_kept (s : State) (n : Fin 32) (h0 : s.Kept ql zf) :
    (State.wakeLines s n).Kept ql zf := by
  unfold State.wakeLines
  repeat' (first
    | with_reducible assumption
    | (intro _)
    | with_reducible apply State.updLine_kept
    | with_reducible apply State.updChan_kept
    | with_reducible apply State.Kept.foldl
    | with_reducible apply State.Kept.ite)

theorem State.portEnd_kept (s : State) (n : Fin 32) (h0 : s.Kept ql zf) :
    (State.portEnd s n).Kept ql zf := by
  unfold State.portEnd
  repeat' (first
    | with_reducible assumption
    | (intro hq; exact Port.Balanced.same hq rfl rfl rfl rfl)
    | (dsimp only)
    | (intro _)
    | with_reducible apply State.wakeLines_kept
    | with_reducible apply State.endInput_kept
    | with_reducible apply State.syncZc_kept
    | with_reducible apply State.updSap_kept
    | with_reducible apply State.Kept.foldl
    | (refine State.Kept.of_snd (by assumption) ?_)
    | (refine State.Kept.of_snd2 (by assumption) ?_)
    | (refine State.Kept.of_snd3 (by assumption) ?_)
    | (refine State.Kept.of_mid (by assumption) ?_)
    | with_reducible apply State.Kept.ite
    | split
    | (fail_if_no_progress (with_reducible apply State.Kept.upd)))

theorem State.checkMismatch_kept (s : State) (n : Fin 32) (h0 : s.Kept ql zf) :
    (State.checkMismatch s n).Kept ql zf := by
  unfold State.checkMismatch
  repeat' (first | with_reducible assumption | with_reducible apply State.raise_kept | with_reducible apply State.Kept.ite)

theorem State.startAes_kept (s : State) (n : Fin 32) (h0 : s.Kept ql zf) :
    (State.startAes s n).Kept ql zf := by
  unfold State.startAes
  repeat' (first
    | with_reducible assumption
    | with_reducible apply State.updSap_kept
    | with_reducible apply State.setFld_kept
    | with_reducible apply State.Kept.ite)

theorem State.enterStarting_kept (s : State) (n : Fin 32) (h0 : s.Kept ql zf) :
    (State.enterStarting s n).Kept ql zf := by
  unfold State.enterStarting
  repeat' (first
    | with_reducible assumption
    | with_reducible apply State.updSap_kept
    | with_reducible apply State.syncZc_kept
    | with_reducible apply State.checkMismatch_kept
    | with_reducible apply State.wakeLines_kept
    | with_reducible apply State.startAes_kept
    | with_reducible apply State.setSapState_kept)

theorem State.startPort_kept (s : State) (n : Fin 32) (h0 : s.Kept ql zf) :
    (State.startPort s n).Kept ql zf := by
  unfold State.startPort
  repeat' (first
    | with_reducible assumption
    | (intro hq; exact Port.Balanced.same hq rfl rfl rfl rfl)
    | (dsimp only)
    | (intro _)
    | with_reducible apply State.setFld_kept
    | with_reducible apply State.setErr_kept
    | with_reducible apply State.enterStarting_kept
    | with_reducible apply State.grpErrs_kept
    | with_reducible apply State.Kept.foldl
    | (refine State.Kept.of_snd (by assumption) ?_)
    | (refine State.Kept.of_snd2 (by assumption) ?_)
    | (refine State.Kept.of_snd3 (by assumption) ?_)
    | (refine State.Kept.of_mid (by assumption) ?_)
    | with_reducible apply State.Kept.ite
    | split
    | (fail_if_no_progress (with_reducible apply State.Kept.upd)))

theorem State.grpAhead_kept (s : State) (g : Fin 8) (h0 : s.Kept ql zf) :
    (State.grpAhead s g).Kept ql zf := by
  unfold State.grpAhead
  repeat' (first | with_reducible assumption | with_reducible apply State.applyHeld_kept)

theorem State.reserveGrp_kept (s : State) (g : Fin 8) (h0 : s.Kept ql zf) :
    (State.reserveGrp s g).Kept ql zf := by
  unfold State.reserveGrp
  repeat' (first | with_reducible assumption | (fail_if_no_progress (with_reducible apply State.Kept.upd)))

theorem State.grpApply_kept (s : State) (g : Fin 8) (h0 : s.Kept ql zf) :
    (State.grpApply s g).Kept ql zf := by
  unfold State.grpApply
  repeat' (first
    | with_reducible assumption
    | with_reducible apply State.grpAhead_kept
    | with_reducible apply State.grpErrs_kept
    | with_reducible apply State.Kept.ite
    | split
    | (fail_if_no_progress (with_reducible apply State.Kept.upd)))

theorem State.grpWrite_kept (s : State) (g : Fin 8) (r : GrpReg) (v : Nat) (h0 : s.Kept ql zf) :
    (State.grpWrite s g r v).Kept ql zf := by
  unfold State.grpWrite
  repeat' (first
    | with_reducible assumption
    | with_reducible apply State.hold_kept
    | with_reducible apply State.grpAhead_kept
    | with_reducible apply State.grpApply_kept
    | with_reducible apply State.reserveGrp_kept
    | with_reducible apply State.Kept.ite)

theorem State.enterStopped_kept (s : State) (n : Fin 32) (h0 : s.Kept ql zf) :
    (State.enterStopped s n).Kept ql zf := by
  unfold State.enterStopped
  repeat' (first
    | with_reducible assumption
    | with_reducible apply State.setSapState_kept
    | with_reducible apply State.dropStore_kept
    | with_reducible apply State.syncZc_kept
    | with_reducible apply State.updSap_kept
    | with_reducible apply State.applyHeld_kept
    | with_reducible apply State.raise_kept
    | with_reducible apply State.grpApply_kept
    | with_reducible apply State.startPort_kept
    | with_reducible apply State.Kept.foldl
    | with_reducible apply State.Kept.ite)

theorem State.stopPort_kept (s : State) (n : Fin 32) (h0 : s.Kept ql zf) :
    (State.stopPort s n).Kept ql zf := by
  unfold State.stopPort
  repeat' (first
    | with_reducible assumption
    | with_reducible apply State.enterStopped_kept
    | with_reducible apply State.syncZc_kept
    | with_reducible apply State.setSapState_kept
    | with_reducible apply State.updSap_kept
    | split)

theorem State.muteWrite_kept (s : State) (n : Fin 32) (mask : Nat) (h0 : s.Kept ql zf) :
    (State.muteWrite s n mask).Kept ql zf := by
  unfold State.muteWrite
  repeat' (first
    | with_reducible assumption
    | (intro _)
    | with_reducible apply State.setFld_kept
    | with_reducible apply State.updChan_kept
    | with_reducible apply State.syncZc_kept
    | with_reducible apply State.updSap_kept
    | with_reducible apply State.Kept.foldl
    | with_reducible apply State.Kept.ite)

theorem State.sapCtrlWrite_kept (s : State) (n : Fin 32) (v : Nat) (h0 : s.Kept ql zf) :
    (State.sapCtrlWrite s n v).Kept ql zf := by
  unfold State.sapCtrlWrite
  repeat' (first
    | with_reducible assumption
    | with_reducible apply State.setFld_kept
    | with_reducible apply State.muteWrite_kept
    | with_reducible apply State.startPort_kept
    | with_reducible apply State.stopPort_kept
    | with_reducible apply State.Kept.ite)

theorem State.sapCfgWrite_kept (s : State) (n : Fin 32) (r : SapReg) (v : Nat) (h0 : s.Kept ql zf) :
    (State.sapCfgWrite s n r v).Kept ql zf := by
  unfold State.sapCfgWrite
  repeat' (first
    | with_reducible assumption
    | with_reducible apply State.store_kept
    | with_reducible apply State.hold_kept
    | with_reducible apply State.Kept.ite)

theorem State.reanchor_kept (s : State) (n : Fin 32) (k : Fin 2) (told : Bool) (h0 : s.Kept ql zf) :
    (State.reanchor s n k told).Kept ql zf := by
  unfold State.reanchor
  repeat' (first
    | with_reducible assumption
    | with_reducible apply State.updLine_kept
    | with_reducible apply State.dropFronts_kept
    | with_reducible apply State.raiseGrp_kept
    | split)

theorem State.rateLine_kept (s : State) (n : Fin 32) (k : Fin 2) (h0 : s.Kept ql zf) :
    (State.rateLine s n k).Kept ql zf := by
  unfold State.rateLine
  repeat' (first
    | with_reducible assumption
    | (intro hq; exact Port.Balanced.same hq rfl rfl rfl rfl)
    | (dsimp only)
    | (intro _)
    | with_reducible apply State.reanchor_kept
    | with_reducible apply State.updLine_kept
    | with_reducible apply State.Kept.foldl
    | (refine State.Kept.of_snd (by assumption) ?_)
    | (refine State.Kept.of_snd2 (by assumption) ?_)
    | (refine State.Kept.of_snd3 (by assumption) ?_)
    | (refine State.Kept.of_mid (by assumption) ?_)
    | with_reducible apply State.Kept.ite
    | split
    | (fail_if_no_progress (with_reducible apply State.Kept.upd)))

theorem State.outputLost_kept (s : State) (n : Fin 32) (k : Fin 2) (h0 : s.Kept ql zf) :
    (State.outputLost s n k).Kept ql zf := by
  unfold State.outputLost
  repeat' (first
    | with_reducible assumption
    | (intro hq; exact Port.Balanced.same hq rfl rfl rfl rfl)
    | (dsimp only)
    | (intro _)
    | with_reducible apply State.updLine_kept
    | with_reducible apply State.Kept.foldl
    | (refine State.Kept.of_snd (by assumption) ?_)
    | (refine State.Kept.of_snd2 (by assumption) ?_)
    | (refine State.Kept.of_snd3 (by assumption) ?_)
    | (refine State.Kept.of_mid (by assumption) ?_)
    | with_reducible apply State.Kept.ite
    | split
    | (fail_if_no_progress (with_reducible apply State.Kept.upd)))

theorem State.aesTxLost_kept (s : State) (n : Fin 32) (h0 : s.Kept ql zf) :
    (State.aesTxLost s n).Kept ql zf := by
  unfold State.aesTxLost
  repeat' (first
    | with_reducible assumption
    | (intro hq; exact Port.Balanced.same hq rfl rfl rfl rfl)
    | (dsimp only)
    | (intro _)
    | with_reducible apply State.outputLost_kept
    | with_reducible apply State.updSap_kept
    | with_reducible apply State.Kept.foldl
    | (refine State.Kept.of_snd (by assumption) ?_)
    | (refine State.Kept.of_snd2 (by assumption) ?_)
    | (refine State.Kept.of_snd3 (by assumption) ?_)
    | (refine State.Kept.of_mid (by assumption) ?_)
    | with_reducible apply State.Kept.ite
    | split
    | (fail_if_no_progress (with_reducible apply State.Kept.upd)))

theorem State.portRateChange_kept (s : State) (n : Fin 32) (code : Nat) (h0 : s.Kept ql zf) :
    (State.portRateChange s n code).Kept ql zf := by
  unfold State.portRateChange
  repeat' (first
    | with_reducible assumption
    | (intro _)
    | with_reducible apply State.aesTxLost_kept
    | with_reducible apply State.rateLine_kept
    | with_reducible apply State.raise_kept
    | with_reducible apply State.setSapState_kept
    | with_reducible apply State.Kept.foldl
    | with_reducible apply State.Kept.ite)

theorem State.portPresent_kept (s : State) (n : Fin 32) (h0 : s.Kept ql zf) :
    (State.portPresent s n).Kept ql zf := by
  unfold State.portPresent
  repeat' (first
    | with_reducible assumption
    | with_reducible apply State.syncZc_kept
    | with_reducible apply State.checkMismatch_kept
    | with_reducible apply State.wakeLines_kept
    | with_reducible apply State.updSap_kept
    | with_reducible apply State.Kept.ite
    | split)

theorem State.portLoss_kept (s : State) (n : Fin 32) (h0 : s.Kept ql zf) :
    (State.portLoss s n).Kept ql zf := by
  unfold State.portLoss
  repeat' (first
    | with_reducible assumption
    | with_reducible apply State.aesTxLost_kept
    | with_reducible apply State.outputLost_kept
    | with_reducible apply State.Kept.ite)

theorem State.askIn_kept (s : State) (n : Fin 32) (k : Fin 2) (h0 : s.Kept ql zf) :
    (State.askIn s n k).Kept ql zf := by
  unfold State.askIn
  repeat' (first
    | with_reducible assumption
    | (intro _)
    | with_reducible apply State.updChan_kept
    | with_reducible apply State.Kept.foldl
    | with_reducible apply State.Kept.ite)

theorem State.memberStart_kept (s : State) (n : Fin 32) (k : Fin 2) (h0 : s.Kept ql zf) :
    (State.memberStart s n k).Kept ql zf := by
  unfold State.memberStart
  repeat' (first
    | with_reducible assumption
    | with_reducible apply State.syncZc_kept
    | with_reducible apply State.askIn_kept
    | with_reducible apply State.updLine_kept
    | with_reducible apply State.Kept.ite
    | split)

theorem State.snowSilent_kept (s : State) (n : Fin 32) (k : Fin 2) (h0 : s.Kept ql zf) :
    (State.snowSilent s n k).Kept ql zf := by
  unfold State.snowSilent
  repeat' (first
    | with_reducible assumption
    | with_reducible apply State.updLine_kept
    | with_reducible apply State.syncZc_kept
    | with_reducible apply State.updChan_kept
    | with_reducible apply State.raiseGrp_kept
    | split)

theorem State.dropLate_kept (s : State) (n : Fin 32) (k : Fin 2) (h0 : s.Kept ql zf) :
    (State.dropLate s n k).Kept ql zf := by
  unfold State.dropLate
  repeat' (first
    | with_reducible assumption
    | with_reducible apply State.updLine_kept
    | with_reducible apply State.dropFront_kept
    | with_reducible apply State.raiseGrp_kept
    | with_reducible apply State.countSat_kept
    | split)

theorem State.dropPassed_kept : ∀ (s : State) (n : Fin 32) (k : Fin 2) (j : Nat) (h : s.Kept ql zf), (s.dropPassed n k j).Kept ql zf := by
  intro s n k j
  induction j generalizing s with
  | zero => exact fun h => h
  | succ j ih =>
    intro h
    rw [State.dropPassed]
    split
    · exact ih _ (State.dropLate_kept _ _ _ h)
    · exact h

theorem State.rejoinLine_kept (s : State) (n : Fin 32) (k : Fin 2) (h0 : s.Kept ql zf) :
    (State.rejoinLine s n k).Kept ql zf := by
  unfold State.rejoinLine
  repeat' (first
    | with_reducible assumption
    | with_reducible apply State.reanchor_kept
    | with_reducible apply State.updLine_kept
    | with_reducible apply State.dropPassed_kept
    | with_reducible apply State.raiseGrp_kept
    | with_reducible apply State.Kept.ite
    | split)

theorem State.rejoin_kept (s : State) (n : Fin 32) (k : Fin 2) (h0 : s.Kept ql zf) :
    (State.rejoin s n k).Kept ql zf := by
  unfold State.rejoin
  repeat' (first
    | with_reducible assumption
    | (intro _)
    | with_reducible apply State.rejoinLine_kept
    | with_reducible apply State.Kept.foldl
    | with_reducible apply State.Kept.ite
    | split
    | (fail_if_no_progress (with_reducible apply State.Kept.upd)))

theorem State.lockReady_kept (s : State) (g : Fin 8) (h0 : s.Kept ql zf) :
    (State.lockReady s g).Kept ql zf := by
  unfold State.lockReady
  repeat' (first
    | with_reducible assumption
    | (intro hq; exact Port.Balanced.same hq rfl rfl rfl rfl)
    | (dsimp only)
    | (intro _)
    | with_reducible apply State.Kept.foldl
    | (refine State.Kept.of_snd (by assumption) ?_)
    | (refine State.Kept.of_snd2 (by assumption) ?_)
    | (refine State.Kept.of_snd3 (by assumption) ?_)
    | (refine State.Kept.of_mid (by assumption) ?_)
    | with_reducible apply State.Kept.ite
    | split
    | (fail_if_no_progress (with_reducible apply State.Kept.upd)))

theorem State.updAsrc_kept (s : State) (i : Nat) (f : Asrc → Asrc) (h0 : s.Kept ql zf) :
    (State.updAsrc s i f).Kept ql zf := by
  unfold State.updAsrc
  repeat' (first | with_reducible assumption | (fail_if_no_progress (with_reducible apply State.Kept.upd)))

theorem State.asrcEnter_kept (s : State) (i : Nat) (t : AsrcState) (h0 : s.Kept ql zf) :
    (State.asrcEnter s i t).Kept ql zf := by
  unfold State.asrcEnter
  repeat' (first
    | with_reducible assumption
    | with_reducible apply State.setBit_kept
    | with_reducible apply State.setFld_kept
    | with_reducible apply State.raise_kept
    | with_reducible apply State.countSat_kept
    | with_reducible apply State.updAsrc_kept
    | with_reducible apply State.Kept.ite
    | split)

theorem State.asrcShare_kept (s : State) (i : Nat) (h0 : s.Kept ql zf) :
    (State.asrcShare s i).Kept ql zf := by
  unfold State.asrcShare
  repeat' (first
    | with_reducible assumption
    | (intro hq; exact Port.Balanced.same hq rfl rfl rfl rfl)
    | (dsimp only)
    | (intro _)
    | with_reducible apply State.asrcEnter_kept
    | with_reducible apply State.Kept.foldl
    | (refine State.Kept.of_snd (by assumption) ?_)
    | (refine State.Kept.of_snd2 (by assumption) ?_)
    | (refine State.Kept.of_snd3 (by assumption) ?_)
    | (refine State.Kept.of_mid (by assumption) ?_)
    | with_reducible apply State.Kept.ite
    | split
    | (fail_if_no_progress (with_reducible apply State.Kept.upd)))

theorem State.asrcEnable_kept (s : State) (i : Nat) (h0 : s.Kept ql zf) :
    (State.asrcEnable s i).Kept ql zf := by
  unfold State.asrcEnable
  repeat' (first
    | with_reducible assumption
    | with_reducible apply State.updAsrc_kept
    | with_reducible apply State.setFld_kept
    | with_reducible apply State.asrcShare_kept
    | with_reducible apply State.asrcEnter_kept)

theorem State.asrcDisable_kept (s : State) (i : Nat) (h0 : s.Kept ql zf) :
    (State.asrcDisable s i).Kept ql zf := by
  unfold State.asrcDisable
  repeat' (first
    | with_reducible assumption
    | with_reducible apply State.applyHeld_kept
    | with_reducible apply State.updAsrc_kept
    | with_reducible apply State.setFld_kept)

theorem State.asrcWrite_kept (s : State) (i v : Nat) (h0 : s.Kept ql zf) :
    (State.asrcWrite s i v).Kept ql zf := by
  unfold State.asrcWrite
  repeat' (first
    | with_reducible assumption
    | with_reducible apply State.hold_kept
    | with_reducible apply State.store_kept
    | with_reducible apply State.asrcDisable_kept
    | with_reducible apply State.asrcEnable_kept
    | with_reducible apply State.Kept.ite)

theorem State.asrcClock_kept (s : State) (n : Fin 32) (lost : Bool) (h0 : s.Kept ql zf) :
    (State.asrcClock s n lost).Kept ql zf := by
  unfold State.asrcClock
  repeat' (first
    | with_reducible assumption
    | (intro _)
    | with_reducible apply State.asrcEnter_kept
    | with_reducible apply State.Kept.foldl
    | split)

theorem State.asrcRelock_kept (s : State) (is : List Nat) (h0 : s.Kept ql zf) :
    (State.asrcRelock s is).Kept ql zf := by
  unfold State.asrcRelock
  repeat' (first
    | with_reducible assumption
    | (intro _)
    | with_reducible apply State.asrcEnter_kept
    | with_reducible apply State.Kept.foldl
    | with_reducible apply State.Kept.ite)

theorem State.asrcSnap_kept (s : State) (h0 : s.Kept ql zf) :
    (State.asrcSnap s).Kept ql zf := by
  unfold State.asrcSnap
  repeat' (first | with_reducible assumption | with_reducible apply State.asrcRelock_kept)

theorem State.asrcMeasure_kept (s : State) (h0 : s.Kept ql zf) :
    (State.asrcMeasure s).Kept ql zf := by
  unfold State.asrcMeasure
  repeat' (first
    | with_reducible assumption
    | (intro _)
    | with_reducible apply State.setFld_kept
    | with_reducible apply State.Kept.foldl
    | with_reducible apply State.Kept.ite)

theorem State.asrcTick_kept (s : State) (i : Nat) (h0 : s.Kept ql zf) :
    (State.asrcTick s i).Kept ql zf := by
  unfold State.asrcTick
  repeat' (first
    | with_reducible assumption
    | with_reducible apply State.updAsrc_kept
    | with_reducible apply State.freeInt_kept
    | split)

theorem execGrpConfigWrite_kept (g : Fin 8) (r : GrpReg) (v : Word) (s : State) (h3 : s.Kept ql zf) :
    NextKept (execGrpConfigWrite g r v s) ql zf := by
  unfold execGrpConfigWrite
  repeat' (first
    | with_reducible assumption
    | with_reducible apply State.grpWrite_kept
    | apply nextKept_next
    | with_reducible apply State.Kept.ite)

theorem execMemberDeliveryStart_kept (n : Fin 32) (k : Fin 2) (s : State) (h2 : s.Kept ql zf) :
    NextKept (execMemberDeliveryStart n k s) ql zf := by
  unfold execMemberDeliveryStart
  repeat' (first | with_reducible assumption | with_reducible apply State.memberStart_kept | apply nextKept_next)

theorem execMemberStarved_kept (n : Fin 32) (k : Fin 2) (s : State) (h2 : s.Kept ql zf) :
    NextKept (execMemberStarved n k s) ql zf := by
  unfold execMemberStarved
  repeat' (first
    | with_reducible assumption
    | with_reducible apply State.updLine_kept
    | apply nextKept_next
    | with_reducible apply State.Kept.ite)

theorem execSnowploughSilent_kept (n : Fin 32) (k : Fin 2) (s : State) (h2 : s.Kept ql zf) :
    NextKept (execSnowploughSilent n k s) ql zf := by
  unfold execSnowploughSilent
  repeat' (first | with_reducible assumption | with_reducible apply State.snowSilent_kept | apply nextKept_next)

theorem execMemberRejoin_kept (n : Fin 32) (k : Fin 2) (s : State) (h2 : s.Kept ql zf) :
    NextKept (execMemberRejoin n k s) ql zf := by
  unfold execMemberRejoin
  repeat' (first | with_reducible assumption | with_reducible apply State.rejoin_kept | apply nextKept_next)

theorem execRejoinGlideDone_kept (n : Fin 32) (k : Fin 2) (s : State) (h2 : s.Kept ql zf) :
    NextKept (execRejoinGlideDone n k s) ql zf := by
  unfold execRejoinGlideDone
  repeat' (first
    | with_reducible assumption
    | with_reducible apply State.updLine_kept
    | apply nextKept_next
    | with_reducible apply State.Kept.ite)

theorem execAsrcConfigWrite_kept (i : Fin 64) (v : Word) (s : State) (h2 : s.Kept ql zf) :
    NextKept (execAsrcConfigWrite i v s) ql zf := by
  unfold execAsrcConfigWrite
  repeat' (first
    | with_reducible assumption
    | with_reducible apply State.asrcWrite_kept
    | apply nextKept_next
    | with_reducible apply State.Kept.ite)

theorem execAsrcEnable_kept (i : Fin 64) (s : State) (h1 : s.Kept ql zf) :
    NextKept (execAsrcEnable i s) ql zf := by
  unfold execAsrcEnable
  repeat' (first
    | with_reducible assumption
    | with_reducible apply State.asrcEnable_kept
    | apply nextKept_next
    | with_reducible apply State.Kept.ite)

theorem execAsrcDisable_kept (i : Fin 64) (s : State) (h1 : s.Kept ql zf) :
    NextKept (execAsrcDisable i s) ql zf := by
  unfold execAsrcDisable
  repeat' (first
    | with_reducible assumption
    | with_reducible apply State.asrcDisable_kept
    | apply nextKept_next
    | with_reducible apply State.Kept.ite)

theorem execAsrcOff_kept (i : Fin 64) (s : State) (h1 : s.Kept ql zf) :
    NextKept (execAsrcOff i s) ql zf := by
  unfold execAsrcOff
  repeat' (first
    | with_reducible assumption
    | with_reducible apply State.updAsrc_kept
    | with_reducible apply State.asrcEnter_kept
    | apply nextKept_next
    | with_reducible apply State.Kept.ite)

theorem execAsrcLocked_kept (i : Fin 64) (s : State) (h1 : s.Kept ql zf) :
    NextKept (execAsrcLocked i s) ql zf := by
  unfold execAsrcLocked
  repeat' (first
    | with_reducible assumption
    | (intro _)
    | with_reducible apply State.asrcEnter_kept
    | apply nextKept_next
    | with_reducible apply State.Kept.foldl
    | with_reducible apply State.Kept.ite)

end Sys2Proof.Machine
end

