-- ==== Sys2Proof/Laws/KeptBlocks.lean ====
section
/-!
SUPPORT. What commands keep (Kept): gains, outputs, inputs, direct writes, check-value engines and AES3.
-/
namespace Sys2Proof.Machine

variable {ql : List Instr} {zf : BitVec 512}

theorem State.toQ31_kept (s : State) (x : Int) (h0 : s.Kept ql zf) :
    (State.toQ31 s x).2.2.Kept ql zf := by
  unfold State.toQ31
  repeat' (first | with_reducible assumption | with_reducible apply State.divFree_kept)

theorem State.setGain_kept (s : State) (a : Nat) (g : Glide) (h0 : s.Kept ql zf) :
    (State.setGain s a g).Kept ql zf := by
  unfold State.setGain
  repeat' (first | with_reducible assumption | (fail_if_no_progress (with_reducible apply State.Kept.upd)))

theorem State.aimGain_kept (s : State) (a : Nat) (h0 : s.Kept ql zf) :
    (State.aimGain s a).Kept ql zf := by
  unfold State.aimGain
  repeat' (first
    | with_reducible assumption
    | (intro hq; exact Port.Balanced.same hq rfl rfl rfl rfl)
    | (dsimp only)
    | (intro _)
    | with_reducible apply State.setGain_kept
    | with_reducible apply State.Kept.foldl
    | (refine State.Kept.of_snd (by assumption) ?_)
    | (refine State.Kept.of_snd2 (by assumption) ?_)
    | (refine State.Kept.of_snd3 (by assumption) ?_)
    | (refine State.Kept.of_mid (by assumption) ?_)
    | with_reducible apply State.Kept.ite
    | split
    | (fail_if_no_progress (with_reducible apply State.Kept.upd)))

theorem State.stepGain_kept (s : State) (a : Nat) (h0 : s.Kept ql zf) :
    (State.stepGain s a).Kept ql zf := by
  unfold State.stepGain
  repeat' (first | with_reducible assumption | with_reducible apply State.setGain_kept)

theorem State.stepGains_kept (s : State) (h0 : s.Kept ql zf) :
    (State.stepGains s).Kept ql zf := by
  unfold State.stepGains
  repeat' (first
    | with_reducible assumption
    | with_reducible apply State.stepGain_kept
    | with_reducible apply State.Kept.foldl)

theorem State.updFab_kept (s : State) (f : Fab → Fab) (h0 : s.Kept ql zf) :
    (State.updFab s f).Kept ql zf := by
  unfold State.updFab
  repeat' (first | with_reducible assumption | (fail_if_no_progress (with_reducible apply State.Kept.upd)))

theorem State.runBiquad_kept (s : State) (i : Nat) (shadow : Bool) (x : Int) (h0 : s.Kept ql zf) :
    (State.runBiquad s i shadow x).2.2.Kept ql zf := by
  unfold State.runBiquad
  repeat' (first | with_reducible assumption | with_reducible apply State.updFab_kept | with_reducible apply State.toQ31_kept)

theorem State.runDyn_kept (s : State) (i sink : Nat) (shadow : Bool) (x : Int) (h0 : s.Kept ql zf) :
    (State.runDyn s i sink shadow x).2.2.Kept ql zf := by
  unfold State.runDyn
  repeat' (first
    | with_reducible assumption
    | with_reducible apply State.divFree_kept
    | with_reducible apply State.updFab_kept
    | with_reducible apply State.setSfld_kept
    | with_reducible apply State.toQ31_kept
    | with_reducible apply State.Kept.ite)

theorem State.allocLine_kept (s : State) (i : Nat) (h0 : s.Kept ql zf) :
    (State.allocLine s i).Kept ql zf := by
  unfold State.allocLine
  repeat' (first
    | with_reducible assumption
    | with_reducible apply State.Kept.ite
    | (fail_if_no_progress (with_reducible apply State.Kept.upd)))

theorem State.lineOut_kept (s : State) (l : DLine) (x : Sample) (h0 : s.Kept ql zf) :
    (State.lineOut s l x).2.Kept ql zf := by
  unfold State.lineOut
  repeat' (first | with_reducible assumption | with_reducible apply State.divFree_kept | split)

theorem State.runTap_kept (s : State) (i : Nat) (x : Sample) (write : Bool) (h0 : s.Kept ql zf) :
    (State.runTap s i x write).2.Kept ql zf := by
  unfold State.runTap
  repeat' (first
    | with_reducible assumption
    | with_reducible apply State.lineOut_kept
    | with_reducible apply State.setBytes_kept
    | split
    | (fail_if_no_progress (with_reducible apply State.Kept.upd)))

theorem State.runScale_kept (s : State) (b n : Nat) (shadow : Bool) (h0 : s.Kept ql zf) :
    (State.runScale s b n shadow).2.Kept ql zf := by
  unfold State.runScale
  repeat' (first | with_reducible assumption | with_reducible apply State.updFab_kept)

theorem Run.s_kept (self : Run) (h0 : self.s.Kept ql zf) :
    (Run.s self).Kept ql zf := by
  unfold Run.s
  repeat' (first | with_reducible assumption)

theorem Run.output_kept (r : Run) (y : Int) (sat mark : Bool) (t : State) (h0 : r.s.Kept ql zf) (h4 : t.Kept ql zf) :
    (Run.output r y sat mark t).s.Kept ql zf := by
  unfold Run.output
  repeat' (first | with_reducible assumption)

theorem Run.bypass_kept (r : Run) (mark : Bool) (h0 : r.s.Kept ql zf) :
    (Run.bypass r mark).s.Kept ql zf := by
  unfold Run.bypass
  repeat' (first
    | with_reducible assumption
    | (intro hq; exact Port.Balanced.same hq rfl rfl rfl rfl)
    | (dsimp only)
    | (intro _)
    | with_reducible apply Run.s_kept
    | with_reducible apply State.Kept.foldl
    | (refine State.Kept.of_snd (by assumption) ?_)
    | (refine State.Kept.of_snd2 (by assumption) ?_)
    | (refine State.Kept.of_snd3 (by assumption) ?_)
    | (refine State.Kept.of_mid (by assumption) ?_)
    | with_reducible apply State.Kept.ite
    | split
    | (fail_if_no_progress (with_reducible apply State.Kept.upd)))

theorem Run_input_inv (r : Run) (h : r.s.Kept ql zf) : r.input.2.s.Kept ql zf := State.toQ31_kept _ _ h

theorem Run.item_kept (r : Run) (x : Item) (h0 : r.s.Kept ql zf) : (r.item x).s.Kept ql zf := by
  have hi : r.input.2.s.Kept ql zf := Run_input_inv r h0
  cases x with
  | term src slot => unfold Run.item; dsimp only; split <;> exact h0
  | biquad i =>
    unfold Run.item
    generalize r.input = z at hi ⊢
    obtain ⟨v, r1⟩ := z
    dsimp only at hi ⊢
    split
    · exact h0
    · exact State.runBiquad_kept _ _ _ _ hi
  | dynamics i =>
    unfold Run.item
    generalize r.input = z at hi ⊢
    obtain ⟨v, r1⟩ := z
    dsimp only at hi ⊢
    split
    · exact h0
    · exact State.runDyn_kept _ _ _ _ _ hi
  | delay i =>
    unfold Run.item
    generalize r.input = z at hi ⊢
    obtain ⟨v, r1⟩ := z
    dsimp only at hi ⊢
    split
    · exact hi
    · exact State.runTap_kept _ _ _ _ hi
  | scale => unfold Run.item; exact State.runScale_kept _ _ _ _ h0

theorem State.runProg_kept (s : State) (sink : Nat) (items : List Item) (old : Bool) (taps : List (Nat × Sample)) (h0 : s.Kept ql zf) :
    (State.runProg s sink items old taps).2.1.Kept ql zf := by
  have hf : ∀ (l : List Item) (r : Run), r.s.Kept ql zf → (l.foldl Run.item r).s.Kept ql zf := by
    intro l
    induction l with
    | nil => exact fun r h => h
    | cons x l ih => exact fun r h => ih _ (Run.item_kept r x h)
  have hr := hf items ⟨s, sink, old, Acc.zero, 0, false, taps⟩ h0
  unfold State.runProg
  generalize items.foldl Run.item ⟨s, sink, old, Acc.zero, 0, false, taps⟩ = r at hr ⊢
  exact State.toQ31_kept _ _ hr

theorem State.runGen_kept (s : State) (j : Nat) (h0 : s.Kept ql zf) :
    (State.runGen s j).2.Kept ql zf := by
  unfold State.runGen
  repeat' (first | with_reducible assumption | with_reducible apply State.updFab_kept | split)

theorem State.setOutState_kept (s : State) (o : OutId) (t : OutState) (h0 : s.Kept ql zf) :
    (State.setOutState s o t).Kept ql zf := by
  unfold State.setOutState
  repeat' (first | with_reducible assumption | with_reducible apply State.setFld_kept)

theorem State.updOut_kept (s : State) (o : OutId) (f : Out → Out) (h0 : s.Kept ql zf) :
    (State.updOut s o f).Kept ql zf := by
  unfold State.updOut
  repeat' (first | with_reducible assumption | (fail_if_no_progress (with_reducible apply State.Kept.upd)))

theorem State.tdacEnqueue_kept (s : State) (x : TdacUser) (h0 : s.Kept ql zf) :
    (State.tdacEnqueue s x).Kept ql zf := by
  unfold State.tdacEnqueue
  repeat' (first
    | with_reducible assumption
    | with_reducible apply State.Kept.ite
    | (fail_if_no_progress (with_reducible apply State.Kept.upd)))

theorem State.tdacUnqueue_kept (s : State) (x : TdacUser) (h0 : s.Kept ql zf) :
    (State.tdacUnqueue s x).Kept ql zf := by
  unfold State.tdacUnqueue
  repeat' (first | with_reducible assumption | (fail_if_no_progress (with_reducible apply State.Kept.upd)))

theorem State.setSeqState_kept (s : State) (x : Fin 3) (k : Nat) (h0 : s.Kept ql zf) :
    (State.setSeqState s x k).Kept ql zf := by
  unfold State.setSeqState
  repeat' (first | with_reducible assumption | with_reducible apply State.setFld_kept)

theorem State.updSeq_kept (s : State) (x : Fin 3) (f : Seq → Seq) (h0 : s.Kept ql zf) :
    (State.updSeq s x f).Kept ql zf := by
  unfold State.updSeq
  repeat' (first | with_reducible assumption | (fail_if_no_progress (with_reducible apply State.Kept.upd)))

theorem State.pipePreempt_kept (s : State) (c : Option Nat) (h0 : s.Kept ql zf) :
    (State.pipePreempt s c).Kept ql zf := by
  unfold State.pipePreempt
  repeat' (first
    | with_reducible assumption
    | (dsimp only)
    | with_reducible apply State.updSeq_kept
    | split
    | (fail_if_no_progress (with_reducible apply State.Kept.upd)))

theorem State.entryInput_kept (s : State) (x : Fin 3) (h0 : s.Kept ql zf) :
    (State.entryInput s x).Kept ql zf := by
  unfold State.entryInput
  repeat' (first
    | with_reducible assumption
    | (intro hq; exact Port.Balanced.same hq rfl rfl rfl rfl)
    | (dsimp only)
    | (intro _)
    | with_reducible apply State.Kept.foldl
    | (refine State.Kept.of_snd (by assumption) ?_)
    | (refine State.Kept.of_snd2 (by assumption) ?_)
    | (refine State.Kept.of_snd3 (by assumption) ?_)
    | (refine State.Kept.of_mid (by assumption) ?_)
    | with_reducible apply State.Kept.ite
    | split
    | (fail_if_no_progress (with_reducible apply State.Kept.upd)))

theorem State.entryStart_kept (s : State) (x : Fin 3) (i : Nat) (h0 : s.Kept ql zf) :
    (State.entryStart s x i).Kept ql zf := by
  unfold State.entryStart
  repeat' (first
    | with_reducible assumption
    | with_reducible apply State.setFld_kept
    | with_reducible apply State.updSeq_kept
    | with_reducible apply State.entryInput_kept
    | with_reducible apply State.Kept.ite
    | (fail_if_no_progress (with_reducible apply State.Kept.upd)))

theorem State.runEnd_kept (s : State) (x : Fin 3) (h0 : s.Kept ql zf) :
    (State.runEnd s x).Kept ql zf := by
  unfold State.runEnd
  repeat' (first
    | with_reducible assumption
    | (intro hq; exact Port.Balanced.same hq rfl rfl rfl rfl)
    | (dsimp only)
    | (intro _)
    | with_reducible apply State.raise_kept
    | with_reducible apply State.countWrap_kept
    | with_reducible apply State.setSeqState_kept
    | with_reducible apply State.Kept.foldl
    | (refine State.Kept.of_snd (by assumption) ?_)
    | (refine State.Kept.of_snd2 (by assumption) ?_)
    | (refine State.Kept.of_snd3 (by assumption) ?_)
    | (refine State.Kept.of_mid (by assumption) ?_)
    | with_reducible apply State.Kept.ite
    | split
    | (fail_if_no_progress (with_reducible apply State.Kept.upd)))

theorem State.runBegin_kept (s : State) (x : Fin 3) (h0 : s.Kept ql zf) :
    (State.runBegin s x).Kept ql zf := by
  unfold State.runBegin
  repeat' (first
    | with_reducible assumption
    | (intro hq; exact Port.Balanced.same hq rfl rfl rfl rfl)
    | (dsimp only)
    | (intro _)
    | with_reducible apply State.entryStart_kept
    | with_reducible apply State.runEnd_kept
    | with_reducible apply State.Kept.foldl
    | (refine State.Kept.of_snd (by assumption) ?_)
    | (refine State.Kept.of_snd2 (by assumption) ?_)
    | (refine State.Kept.of_snd3 (by assumption) ?_)
    | (refine State.Kept.of_mid (by assumption) ?_)
    | with_reducible apply State.Kept.ite
    | split
    | (fail_if_no_progress (with_reducible apply State.Kept.upd)))

theorem State.seqServeOne_kept (s : State) (mode : Nat) (h0 : s.Kept ql zf) :
    (State.seqServeOne s mode).Kept ql zf := by
  unfold State.seqServeOne
  repeat' (first
    | with_reducible assumption
    | (intro hq; exact Port.Balanced.same hq rfl rfl rfl rfl)
    | (dsimp only)
    | (intro _)
    | with_reducible apply State.updSeq_kept
    | with_reducible apply State.setSeqState_kept
    | with_reducible apply State.runBegin_kept
    | with_reducible apply State.Kept.foldl
    | (refine State.Kept.of_snd (by assumption) ?_)
    | (refine State.Kept.of_snd2 (by assumption) ?_)
    | (refine State.Kept.of_snd3 (by assumption) ?_)
    | (refine State.Kept.of_mid (by assumption) ?_)
    | with_reducible apply State.Kept.ite
    | split
    | (fail_if_no_progress (with_reducible apply State.Kept.upd)))

theorem State.seqServe_kept (s : State) (mode : Nat) (h0 : s.Kept ql zf) :
    (State.seqServe s mode).Kept ql zf := by
  unfold State.seqServe
  repeat' (first
    | with_reducible assumption
    | with_reducible apply State.seqServeOne_kept
    | split
    | (fail_if_no_progress (with_reducible apply State.Kept.upd)))

theorem State.seqServeAll_kept (s : State) (h0 : s.Kept ql zf) :
    (State.seqServeAll s).Kept ql zf := by
  unfold State.seqServeAll
  repeat' (first | with_reducible assumption | with_reducible apply State.seqServe_kept)

theorem State.pipeResume_kept (s : State) (h0 : s.Kept ql zf) :
    (State.pipeResume s).Kept ql zf := by
  unfold State.pipeResume
  repeat' (first
    | with_reducible assumption
    | (intro hq; exact Port.Balanced.same hq rfl rfl rfl rfl)
    | (dsimp only)
    | (intro _)
    | with_reducible apply State.entryStart_kept
    | with_reducible apply State.seqServe_kept
    | with_reducible apply State.runEnd_kept
    | with_reducible apply State.countSat_kept
    | with_reducible apply State.entryInput_kept
    | with_reducible apply State.updSeq_kept
    | with_reducible apply State.Kept.foldl
    | (refine State.Kept.of_snd (by assumption) ?_)
    | (refine State.Kept.of_snd2 (by assumption) ?_)
    | (refine State.Kept.of_snd3 (by assumption) ?_)
    | (refine State.Kept.of_mid (by assumption) ?_)
    | with_reducible apply State.Kept.ite
    | split
    | (fail_if_no_progress (with_reducible apply State.Kept.upd)))

theorem State.hpFade_kept (s : State) (h : Fin 4) (h0 : s.Kept ql zf) :
    (State.hpFade s h).Kept ql zf := by
  unfold State.hpFade
  repeat' (first | with_reducible assumption | with_reducible apply State.updOut_kept | split)

theorem State.hpUnfade_kept (s : State) (h : Fin 4) (h0 : s.Kept ql zf) :
    (State.hpUnfade s h).Kept ql zf := by
  unfold State.hpUnfade
  repeat' (first | with_reducible assumption | with_reducible apply State.updOut_kept | with_reducible apply State.Kept.ite)

theorem State.poleFollow_kept (s : State) (h : Fin 4) (h0 : s.Kept ql zf) :
    (State.poleFollow s h).Kept ql zf := by
  unfold State.poleFollow
  repeat' (first
    | with_reducible assumption
    | with_reducible apply State.updOut_kept
    | with_reducible apply State.hpFade_kept
    | with_reducible apply State.setFld_kept
    | with_reducible apply State.Kept.ite)

theorem State.trigger_kept (s : State) (j : Fin 20) (k : TrigKind) (h0 : s.Kept ql zf) :
    (State.trigger s j k).Kept ql zf := by
  unfold State.trigger
  repeat' (first | with_reducible assumption | (fail_if_no_progress (with_reducible apply State.Kept.upd)))

theorem State.updJack_kept (s : State) (j : Fin 20) (f : Jack → Jack) (h0 : s.Kept ql zf) :
    (State.updJack s j f).Kept ql zf := by
  unfold State.updJack
  repeat' (first | with_reducible assumption | (fail_if_no_progress (with_reducible apply State.Kept.upd)))

theorem State.classFinal_kept (s : State) (j : Fin 20) (code : Nat) (h0 : s.Kept ql zf) :
    (State.classFinal s j code).Kept ql zf := by
  unfold State.classFinal
  repeat' (first
    | with_reducible assumption
    | with_reducible apply State.raise_kept
    | with_reducible apply State.countWrap_kept
    | with_reducible apply State.setFld_kept
    | with_reducible apply State.trigger_kept
    | with_reducible apply State.updJack_kept
    | with_reducible apply State.poleFollow_kept
    | with_reducible apply State.Kept.ite)

theorem State.classDiag_kept (s : State) (n : Fin 16) (code : Nat) (h0 : s.Kept ql zf) :
    (State.classDiag s n code).Kept ql zf := by
  unfold State.classDiag
  repeat' (first
    | with_reducible assumption
    | with_reducible apply State.updJack_kept
    | with_reducible apply State.classFinal_kept
    | with_reducible apply State.Kept.ite)

theorem State.loadQueue_kept (s : State) (h : Fin 4) (h0 : s.Kept ql zf) :
    (State.loadQueue s h).Kept ql zf := by
  unfold State.loadQueue
  repeat' (first
    | with_reducible assumption
    | (dsimp only)
    | with_reducible apply State.tdacEnqueue_kept
    | with_reducible apply State.updJack_kept
    | split)

theorem State.setAinState_kept (s : State) (n : Fin 16) (t : AinState) (h0 : s.Kept ql zf) :
    (State.setAinState s n t).Kept ql zf := by
  unfold State.setAinState
  repeat' (first | with_reducible assumption | with_reducible apply State.setFld_kept)

theorem State.setPh_kept (s : State) (n : Fin 16) (t : PhState) (h0 : s.Kept ql zf) :
    (State.setPh s n t).Kept ql zf := by
  unfold State.setPh
  repeat' (first | with_reducible assumption | with_reducible apply State.setFld_kept)

theorem State.updAin_kept (s : State) (n : Fin 16) (f : Ain → Ain) (h0 : s.Kept ql zf) :
    (State.updAin s n f).Kept ql zf := by
  unfold State.updAin
  repeat' (first | with_reducible assumption | (fail_if_no_progress (with_reducible apply State.Kept.upd)))

theorem State.syncMuted_kept (s : State) (n : Fin 16) (h0 : s.Kept ql zf) :
    (State.syncMuted s n).Kept ql zf := by
  unfold State.syncMuted
  repeat' (first | with_reducible assumption | with_reducible apply State.setFld_kept)

theorem State.muteCause_kept (s : State) (n : Fin 16) (c : MuteCause) (h0 : s.Kept ql zf) :
    (State.muteCause s n c).Kept ql zf := by
  unfold State.muteCause
  repeat' (first
    | with_reducible assumption
    | with_reducible apply State.updAin_kept
    | with_reducible apply State.syncMuted_kept
    | with_reducible apply State.Kept.ite
    | split)

theorem State.muteEnd_kept (s : State) (n : Fin 16) (c : MuteCause) (h0 : s.Kept ql zf) :
    (State.muteEnd s n c).Kept ql zf := by
  unfold State.muteEnd
  repeat' (first
    | with_reducible assumption
    | with_reducible apply State.updAin_kept
    | with_reducible apply State.syncMuted_kept
    | with_reducible apply State.Kept.ite)

theorem State.takeStep_kept (s : State) (n : Fin 16) (mark : Bool) (h0 : s.Kept ql zf) :
    (State.takeStep s n mark).Kept ql zf := by
  unfold State.takeStep
  repeat' (first | with_reducible assumption | with_reducible apply State.setFld_kept | with_reducible apply State.updAin_kept)

theorem State.forceStep_kept (s : State) (n : Fin 16) (h0 : s.Kept ql zf) :
    (State.forceStep s n).Kept ql zf := by
  unfold State.forceStep
  repeat' (first
    | with_reducible assumption
    | with_reducible apply State.raise_kept
    | with_reducible apply State.countSat_kept
    | with_reducible apply State.takeStep_kept)

theorem State.showGain_kept (s : State) (n : Fin 16) (h0 : s.Kept ql zf) :
    (State.showGain s n).Kept ql zf := by
  unfold State.showGain
  repeat' (first | with_reducible assumption | with_reducible apply State.setFld_kept)

theorem State.gainAtOnce_kept (s : State) (n : Fin 16) (h0 : s.Kept ql zf) :
    (State.gainAtOnce s n).Kept ql zf := by
  unfold State.gainAtOnce
  repeat' (first
    | with_reducible assumption
    | with_reducible apply State.showGain_kept
    | with_reducible apply State.takeStep_kept
    | with_reducible apply State.updAin_kept)

theorem State.preampApplied_kept (s : State) (n : Fin 16) (h0 : s.Kept ql zf) :
    (State.preampApplied s n).Kept ql zf := by
  unfold State.preampApplied
  repeat' (first
    | with_reducible assumption
    | with_reducible apply State.gainAtOnce_kept
    | with_reducible apply State.updAin_kept
    | with_reducible apply State.Kept.ite)

theorem State.tickGain_kept (s : State) (n : Fin 16) (v : Int) (h0 : s.Kept ql zf) :
    (State.tickGain s n v).Kept ql zf := by
  unfold State.tickGain
  repeat' (first
    | with_reducible assumption
    | with_reducible apply State.showGain_kept
    | with_reducible apply State.updAin_kept
    | with_reducible apply State.setFld_kept
    | with_reducible apply State.takeStep_kept
    | with_reducible apply State.forceStep_kept
    | with_reducible apply State.Kept.ite)

theorem State.pathSample_kept (s : State) (n : Fin 16) (i : AinIn) (h0 : s.Kept ql zf) :
    (State.pathSample s n i).2.Kept ql zf := by
  unfold State.pathSample
  repeat' (first
    | with_reducible assumption
    | (dsimp only)
    | with_reducible apply State.updAin_kept
    | with_reducible apply State.setFld_kept
    | with_reducible apply State.freeInt_kept
    | split)

theorem State.calTick_kept (s : State) (n : Fin 16) (i : AinIn) (h0 : s.Kept ql zf) :
    (State.calTick s n i).Kept ql zf := by
  unfold State.calTick
  repeat' (first
    | with_reducible assumption
    | (intro hq; exact Port.Balanced.same hq rfl rfl rfl rfl)
    | (dsimp only)
    | (intro _)
    | with_reducible apply State.updAin_kept
    | with_reducible apply State.Kept.foldl
    | (refine State.Kept.of_snd (by assumption) ?_)
    | (refine State.Kept.of_snd2 (by assumption) ?_)
    | (refine State.Kept.of_snd3 (by assumption) ?_)
    | (refine State.Kept.of_mid (by assumption) ?_)
    | with_reducible apply State.Kept.ite
    | split
    | (fail_if_no_progress (with_reducible apply State.Kept.upd)))

theorem State.highPassed_kept (s : State) (n : Fin 16) (v : Int) (h0 : s.Kept ql zf) :
    (State.highPassed s n v).2.Kept ql zf := by
  unfold State.highPassed
  repeat' (first
    | with_reducible assumption
    | (intro hq; exact Port.Balanced.same hq rfl rfl rfl rfl)
    | (dsimp only)
    | (intro _)
    | with_reducible apply State.updAin_kept
    | with_reducible apply State.Kept.foldl
    | (refine State.Kept.of_snd (by assumption) ?_)
    | (refine State.Kept.of_snd2 (by assumption) ?_)
    | (refine State.Kept.of_snd3 (by assumption) ?_)
    | (refine State.Kept.of_mid (by assumption) ?_)
    | with_reducible apply State.Kept.ite
    | split
    | (fail_if_no_progress (with_reducible apply State.Kept.upd)))

theorem State.ainSignal_kept (s : State) (n : Fin 16) (i : AinIn) (h0 : s.Kept ql zf) :
    (State.ainSignal s n i).Kept ql zf := by
  have h1 := State.pathSample_kept (s.calTick n i) n i (State.calTick_kept s n i h0)
  unfold State.ainSignal
  split
  next u s0 e0 =>
  rw [e0] at h1
  have h1 := State.highPassed_kept s0 n u h1
  split
  next v s1 e =>
  rw [e] at h1
  extract_lets +onlyGivenNames s2 raw x clip s3 a lv fading g tag y s4
  have h2 : s2.Kept ql zf := State.tickGain_kept s1 n u h1
  clear_value s2
  have h3 : s3.Kept ql zf := by
    show (if clip then (s2.countSat (Fd.AIN_CNT_CLIP n) 1).raise (ainPage n) AinEv.CLIP else s2).Kept ql zf
    split
    · exact State.raise_kept _ _ _ (State.countSat_kept _ _ _ h2)
    · exact h2
  clear_value s3
  have h4 : s4.Kept ql zf := State.updAin_kept _ _ _ h3
  clear_value s4
  exact State.Kept.congr h4 rfl rfl rfl rfl

theorem State.openPins_kept (s : State) (i : AinIn) (h0 : s.Kept ql zf) :
    (State.openPins s i).2.Kept ql zf := by
  unfold State.openPins
  repeat' (first
    | with_reducible assumption
    | (intro hq; exact Port.Balanced.same hq rfl rfl rfl rfl)
    | (dsimp only)
    | (intro _)
    | with_reducible apply State.Kept.foldl
    | (refine State.Kept.of_snd (by assumption) ?_)
    | (refine State.Kept.of_snd2 (by assumption) ?_)
    | (refine State.Kept.of_snd3 (by assumption) ?_)
    | (refine State.Kept.of_mid (by assumption) ?_)
    | with_reducible apply State.Kept.ite
    | split
    | (fail_if_no_progress (with_reducible apply State.Kept.upd)))

theorem State.ainTick_kept (s : State) (n : Fin 16) (i : AinIn) (h0 : s.Kept ql zf) :
    (State.ainTick s n i).Kept ql zf := by
  have hz : ∀ (t : State) (y : Sample), t.Kept ql zf → ({ t with ainOut := t.ainOut.set n y } : State).Kept ql zf :=
    fun t y h => State.Kept.congr h rfl rfl rfl rfl
  have key : ∀ (z : AinIn × State), z.2.Kept ql zf → ({ z.2 with ains := z.2.ains } : State).Kept ql zf := fun z h => h
  have hp : (if s.padHeld (Dm.AIN (n.val / 4)) then s.openPins i else (i, s)).2.Kept ql zf := by
    split
    · exact State.openPins_kept s i h0
    · exact h0
  unfold State.ainTick
  generalize (if s.padHeld (Dm.AIN (n.val / 4)) then s.openPins i else (i, s)) = z at hp ⊢
  obtain ⟨j, t⟩ := z
  dsimp only at hp ⊢
  have ht := State.updAin_kept t n (fun a => { a with hpfMark := a.hpfMark - 1 }) hp
  generalize (t.updAin n fun a => { a with hpfMark := a.hpfMark - 1 }) = u at ht ⊢
  have hs := State.ainSignal_kept u n j ht
  split
  · exact hz _ _ ht
  · split
    · exact hz _ _ ht
    · exact hz _ _ ht
    · exact hs
    · split
      · exact hz _ _ ht
      · exact hs

theorem State.diagEnd_kept (s : State) (n : Fin 16) (code : Nat) (h0 : s.Kept ql zf) :
    (State.diagEnd s n code).Kept ql zf := by
  unfold State.diagEnd
  repeat' (first
    | with_reducible assumption
    | with_reducible apply State.setFld_kept
    | with_reducible apply State.raise_kept
    | with_reducible apply State.countWrap_kept
    | with_reducible apply State.updAin_kept
    | with_reducible apply State.pipeResume_kept
    | with_reducible apply State.classDiag_kept
    | with_reducible apply State.Kept.ite
    | (fail_if_no_progress (with_reducible apply State.Kept.upd)))

theorem State.diagAbort_kept (s : State) (n : Fin 16) (h0 : s.Kept ql zf) :
    (State.diagAbort s n).Kept ql zf := by
  unfold State.diagAbort
  repeat' (first | with_reducible assumption | with_reducible apply State.diagEnd_kept | with_reducible apply State.Kept.ite)

theorem State.diagRequest_kept (s : State) (n : Fin 16) (cls : Bool) (h0 : s.Kept ql zf) :
    (State.diagRequest s n cls).Kept ql zf := by
  unfold State.diagRequest
  repeat' (first
    | with_reducible assumption
    | with_reducible apply State.setFld_kept
    | with_reducible apply State.updAin_kept
    | with_reducible apply State.tdacEnqueue_kept
    | with_reducible apply State.Kept.ite)

theorem State.diagForget_kept (s : State) (n : Fin 16) (h0 : s.Kept ql zf) :
    (State.diagForget s n).Kept ql zf := by
  unfold State.diagForget
  repeat' (first
    | with_reducible assumption
    | (intro hq; exact Port.Balanced.same hq rfl rfl rfl rfl)
    | (dsimp only)
    | (intro _)
    | with_reducible apply State.tdacUnqueue_kept
    | with_reducible apply State.setFld_kept
    | with_reducible apply State.Kept.foldl
    | (refine State.Kept.of_snd (by assumption) ?_)
    | (refine State.Kept.of_snd2 (by assumption) ?_)
    | (refine State.Kept.of_snd3 (by assumption) ?_)
    | (refine State.Kept.of_mid (by assumption) ?_)
    | with_reducible apply State.Kept.ite
    | split
    | (fail_if_no_progress (with_reducible apply State.Kept.upd)))

theorem State.diagBegin_kept (s : State) (n : Fin 16) (cls : Bool) (h0 : s.Kept ql zf) :
    (State.diagBegin s n cls).Kept ql zf := by
  unfold State.diagBegin
  repeat' (first
    | with_reducible assumption
    | with_reducible apply State.pipePreempt_kept
    | with_reducible apply State.tdacUnqueue_kept
    | with_reducible apply State.setFld_kept
    | with_reducible apply State.updAin_kept
    | with_reducible apply State.muteCause_kept
    | with_reducible apply State.Kept.ite
    | (fail_if_no_progress (with_reducible apply State.Kept.upd)))

theorem State.diagResult_kept (s : State) (n : Fin 16) (e : Diag) (r : DiagReading) (h0 : s.Kept ql zf) :
    (State.diagResult s n e r).Kept ql zf := by
  unfold State.diagResult
  repeat' (first
    | with_reducible assumption
    | (intro hq; exact Port.Balanced.same hq rfl rfl rfl rfl)
    | (dsimp only)
    | (intro _)
    | with_reducible apply State.setFld_kept
    | with_reducible apply State.diagEnd_kept
    | with_reducible apply State.Kept.foldl
    | (refine State.Kept.of_snd (by assumption) ?_)
    | (refine State.Kept.of_snd2 (by assumption) ?_)
    | (refine State.Kept.of_snd3 (by assumption) ?_)
    | (refine State.Kept.of_mid (by assumption) ?_)
    | with_reducible apply State.Kept.ite
    | split
    | (fail_if_no_progress (with_reducible apply State.Kept.upd)))

theorem State.diagPhase_kept (s : State) (n : Fin 16) (r : DiagReading) (h0 : s.Kept ql zf) :
    (State.diagPhase s n r).Kept ql zf := by
  unfold State.diagPhase
  repeat' (first
    | with_reducible assumption
    | (intro hq; exact Port.Balanced.same hq rfl rfl rfl rfl)
    | (dsimp only)
    | (intro _)
    | with_reducible apply State.updAin_kept
    | with_reducible apply State.setFld_kept
    | with_reducible apply State.diagResult_kept
    | with_reducible apply State.Kept.foldl
    | (refine State.Kept.of_snd (by assumption) ?_)
    | (refine State.Kept.of_snd2 (by assumption) ?_)
    | (refine State.Kept.of_snd3 (by assumption) ?_)
    | (refine State.Kept.of_mid (by assumption) ?_)
    | with_reducible apply State.Kept.ite
    | split
    | (fail_if_no_progress (with_reducible apply State.Kept.upd)))

theorem State.micFollow_kept (s : State) (h : Fin 4) (h0 : s.Kept ql zf) :
    (State.micFollow s h).Kept ql zf := by
  unfold State.micFollow
  extract_lets +onlyGivenNames t mute u w
  have h1 : t.Kept ql zf := State.setFld_kept s (Fd.HP_STATUS_MIC_PEND h) (bit (s.micHeld h)) h0
  clear_value t
  have hm : ∀ (u : State) (x : Option (Fin 16)), u.Kept ql zf → (mute u x).Kept ql zf := by
    intro u x hu
    show (match x with
      | some n => if u.ainState n == .ready then u.muteCause n .mode else u
      | none => u : State).Kept ql zf
    split
    · split
      · exact State.muteCause_kept _ _ _ hu
      · exact hu
    · exact hu
  have hu : u.Kept ql zf := hm _ _ (hm _ _ h1)
  clear_value u
  split
  · exact h1
  · split
    · exact State.updOut_kept _ _ _ hu
    · exact hu

theorem State.micAll_kept (s : State) (h0 : s.Kept ql zf) :
    (State.micAll s).Kept ql zf := by
  unfold State.micAll
  repeat' (first
    | with_reducible assumption
    | with_reducible apply State.micFollow_kept
    | with_reducible apply State.Kept.foldl)

theorem State.phCapacity_kept (s : State) (pvdd : Nat) (h0 : s.Kept ql zf) :
    (State.phCapacity s pvdd).2.Kept ql zf := by
  unfold State.phCapacity
  repeat' (first
    | with_reducible assumption
    | with_reducible apply State.divFree_kept
    | with_reducible apply State.free_kept
    | split)

theorem State.storeFld_kept (s : State) (f : Fld) (v : Nat) (h0 : s.Kept ql zf) :
    (State.storeFld s f v).Kept ql zf := by
  unfold State.storeFld
  repeat' (first | with_reducible assumption | with_reducible apply State.setFld_kept)

theorem State.applyFld_kept (s : State) (f : Fld) (h0 : s.Kept ql zf) :
    (State.applyFld s f).Kept ql zf := by
  unfold State.applyFld
  repeat' (first
    | with_reducible assumption
    | with_reducible apply State.dropHeld_kept
    | with_reducible apply State.storeFld_kept
    | split)

theorem State.phOff_kept (s : State) (n : Fin 16) (h0 : s.Kept ql zf) :
    (State.phOff s n).Kept ql zf := by
  unfold State.phOff
  repeat' (first
    | with_reducible assumption
    | with_reducible apply State.micAll_kept
    | with_reducible apply State.applyFld_kept
    | with_reducible apply State.setPh_kept)

theorem State.phChange_kept (s : State) (n : Fin 16) (h0 : s.Kept ql zf) :
    (State.phChange s n).Kept ql zf := by
  unfold State.phChange
  repeat' (first
    | with_reducible assumption
    | with_reducible apply State.updAin_kept
    | with_reducible apply State.muteCause_kept
    | with_reducible apply State.Kept.ite)

theorem State.phChangeEnd_kept (s : State) (n : Fin 16) (h0 : s.Kept ql zf) :
    (State.phChangeEnd s n).Kept ql zf := by
  unfold State.phChangeEnd
  repeat' (first
    | with_reducible assumption
    | with_reducible apply State.muteEnd_kept
    | with_reducible apply State.updAin_kept)

theorem State.phAdmit_kept (s : State) (n : Fin 16) (h0 : s.Kept ql zf) :
    (State.phAdmit s n).Kept ql zf := by
  unfold State.phAdmit
  repeat' (first
    | with_reducible assumption
    | (intro hq; exact Port.Balanced.same hq rfl rfl rfl rfl)
    | (dsimp only)
    | (intro _)
    | with_reducible apply State.updAin_kept
    | with_reducible apply State.phChange_kept
    | with_reducible apply State.setPh_kept
    | with_reducible apply State.raise_kept
    | with_reducible apply State.countSat_kept
    | with_reducible apply State.Kept.foldl
    | (refine State.Kept.of_snd (by assumption) ?_)
    | (refine State.Kept.of_snd2 (by assumption) ?_)
    | (refine State.Kept.of_snd3 (by assumption) ?_)
    | (refine State.Kept.of_mid (by assumption) ?_)
    | with_reducible apply State.Kept.ite
    | split
    | (fail_if_no_progress (with_reducible apply State.Kept.upd)))

theorem State.phAdmits_kept (s : State) (h0 : s.Kept ql zf) :
    (State.phAdmits s).Kept ql zf := by
  unfold State.phAdmits
  repeat' (first
    | with_reducible assumption
    | (intro hq; exact Port.Balanced.same hq rfl rfl rfl rfl)
    | (dsimp only)
    | (intro _)
    | with_reducible apply State.phAdmit_kept
    | with_reducible apply State.Kept.foldl
    | (refine State.Kept.of_snd (by assumption) ?_)
    | (refine State.Kept.of_snd2 (by assumption) ?_)
    | (refine State.Kept.of_snd3 (by assumption) ?_)
    | (refine State.Kept.of_mid (by assumption) ?_)
    | with_reducible apply State.Kept.ite
    | split
    | (fail_if_no_progress (with_reducible apply State.Kept.upd)))

theorem State.phEnable_kept (s : State) (n : Fin 16) (h0 : s.Kept ql zf) :
    (State.phEnable s n).Kept ql zf := by
  unfold State.phEnable
  repeat' (first
    | with_reducible assumption
    | with_reducible apply State.updAin_kept
    | with_reducible apply State.phAdmit_kept
    | with_reducible apply State.phChange_kept
    | with_reducible apply State.setPh_kept
    | split)

theorem State.phDisable_kept (s : State) (n : Fin 16) (h0 : s.Kept ql zf) :
    (State.phDisable s n).Kept ql zf := by
  unfold State.phDisable
  repeat' (first
    | with_reducible assumption
    | with_reducible apply State.phChange_kept
    | with_reducible apply State.updAin_kept
    | with_reducible apply State.setPh_kept
    | with_reducible apply State.phOff_kept
    | with_reducible apply State.phChangeEnd_kept
    | split)

theorem State.phEnWrite_kept (s : State) (n : Fin 16) (on : Bool) (h0 : s.Kept ql zf) :
    (State.phEnWrite s n on).Kept ql zf := by
  unfold State.phEnWrite
  repeat' (first
    | with_reducible assumption
    | with_reducible apply State.diagAbort_kept
    | with_reducible apply State.setFld_kept
    | with_reducible apply State.phEnable_kept
    | with_reducible apply State.phDisable_kept
    | with_reducible apply State.Kept.ite)

theorem State.phantomWrite_kept (s : State) (n : Fin 16) (v : Nat) (h0 : s.Kept ql zf) :
    (State.phantomWrite s n v).Kept ql zf := by
  unfold State.phantomWrite
  repeat' (first
    | with_reducible assumption
    | with_reducible apply State.storeFld_kept
    | with_reducible apply State.hold_kept
    | with_reducible apply State.phEnWrite_kept
    | split)

theorem State.phRemove_kept (s : State) (n : Fin 16) (to_ : PhState) (ev : Nat) (h0 : s.Kept ql zf) :
    (State.phRemove s n to_ ev).Kept ql zf := by
  unfold State.phRemove
  repeat' (first
    | with_reducible assumption
    | with_reducible apply State.phChange_kept
    | with_reducible apply State.updAin_kept
    | with_reducible apply State.setPh_kept
    | with_reducible apply State.raise_kept
    | with_reducible apply State.diagAbort_kept)

theorem State.ainOff_kept (s : State) (n : Fin 16) (h0 : s.Kept ql zf) :
    (State.ainOff s n).Kept ql zf := by
  unfold State.ainOff
  repeat' (first
    | with_reducible assumption
    | with_reducible apply State.updAin_kept
    | with_reducible apply State.setAinState_kept
    | with_reducible apply State.raise_kept
    | with_reducible apply State.syncMuted_kept
    | with_reducible apply State.applyFld_kept)

theorem State.ainEnWrite_kept (s : State) (n : Fin 16) (on : Bool) (h0 : s.Kept ql zf) :
    (State.ainEnWrite s n on).Kept ql zf := by
  unfold State.ainEnWrite
  repeat' (first
    | with_reducible assumption
    | (dsimp only)
    | with_reducible apply State.diagAbort_kept
    | with_reducible apply State.setFld_kept
    | with_reducible apply State.gainAtOnce_kept
    | with_reducible apply State.updAin_kept
    | with_reducible apply State.setAinState_kept
    | with_reducible apply State.ainOff_kept
    | with_reducible apply State.syncMuted_kept
    | split)

theorem State.modeWrite_kept (s : State) (n : Fin 16) (line : Bool) (h0 : s.Kept ql zf) :
    (State.modeWrite s n line).Kept ql zf := by
  unfold State.modeWrite
  repeat' (first
    | with_reducible assumption
    | with_reducible apply State.diagAbort_kept
    | with_reducible apply State.setFld_kept
    | with_reducible apply State.muteCause_kept
    | with_reducible apply State.updAin_kept
    | with_reducible apply State.Kept.ite)

theorem State.calRestart_kept (s : State) (n : Fin 16) (h0 : s.Kept ql zf) :
    (State.calRestart s n).Kept ql zf := by
  unfold State.calRestart
  repeat' (first | with_reducible assumption | with_reducible apply State.updAin_kept | with_reducible apply State.setFld_kept)

theorem State.modeChange_kept (s : State) (n : Fin 16) (line : Bool) (h0 : s.Kept ql zf) :
    (State.modeChange s n line).Kept ql zf := by
  unfold State.modeChange
  repeat' (first
    | with_reducible assumption
    | (intro hq; exact Port.Balanced.same hq rfl rfl rfl rfl)
    | (dsimp only)
    | (intro _)
    | with_reducible apply State.modeWrite_kept
    | with_reducible apply State.calRestart_kept
    | with_reducible apply State.Kept.foldl
    | (refine State.Kept.of_snd (by assumption) ?_)
    | (refine State.Kept.of_snd2 (by assumption) ?_)
    | (refine State.Kept.of_snd3 (by assumption) ?_)
    | (refine State.Kept.of_mid (by assumption) ?_)
    | with_reducible apply State.Kept.ite
    | split
    | (fail_if_no_progress (with_reducible apply State.Kept.upd)))

theorem State.ainCtrlWrite_kept (s : State) (n : Fin 16) (v : Nat) (h0 : s.Kept ql zf) :
    (State.ainCtrlWrite s n v).Kept ql zf := by
  unfold State.ainCtrlWrite
  repeat' (first
    | with_reducible assumption
    | with_reducible apply State.storeFld_kept
    | with_reducible apply State.ainEnWrite_kept
    | with_reducible apply State.modeChange_kept)

theorem State.filterWrite_kept (s : State) (n : Fin 16) (v : Nat) (h0 : s.Kept ql zf) :
    (State.filterWrite s n v).Kept ql zf := by
  unfold State.filterWrite
  repeat' (first
    | with_reducible assumption
    | with_reducible apply State.storeFld_kept
    | with_reducible apply State.updAin_kept
    | with_reducible apply State.hold_kept
    | with_reducible apply State.Kept.ite)

theorem State.diagWrite_kept (s : State) (n : Fin 16) (v : Nat) (h0 : s.Kept ql zf) :
    (State.diagWrite s n v).Kept ql zf := by
  unfold State.diagWrite
  repeat' (first
    | with_reducible assumption
    | with_reducible apply State.storeFld_kept
    | with_reducible apply State.calRestart_kept
    | with_reducible apply State.diagRequest_kept
    | with_reducible apply State.Kept.ite)

theorem State.gainWrite_kept (s : State) (n : Fin 16) (v : Nat) (h0 : s.Kept ql zf) :
    (State.gainWrite s n v).Kept ql zf := by
  unfold State.gainWrite
  repeat' (first
    | with_reducible assumption
    | with_reducible apply State.store_kept
    | with_reducible apply State.preampApplied_kept
    | with_reducible apply State.Kept.ite)

theorem State.ainWrite_kept (s : State) (n : Fin 16) (o v : Nat) (h0 : s.Kept ql zf) :
    (State.ainWrite s n o v).Kept ql zf := by
  unfold State.ainWrite
  repeat' (first
    | with_reducible assumption
    | with_reducible apply State.ainCtrlWrite_kept
    | with_reducible apply State.gainWrite_kept
    | with_reducible apply State.filterWrite_kept
    | with_reducible apply State.phantomWrite_kept
    | with_reducible apply State.diagWrite_kept
    | with_reducible apply State.store_kept
    | with_reducible apply State.Kept.ite)

theorem execAinEnable_kept (n : Fin 16) (s : State) (h1 : s.Kept ql zf) :
    NextKept (execAinEnable n s) ql zf := by
  unfold execAinEnable
  repeat' (first
    | with_reducible assumption
    | with_reducible apply State.ainEnWrite_kept
    | apply nextKept_next
    | with_reducible apply State.Kept.ite)

theorem execAinDisable_kept (n : Fin 16) (s : State) (h1 : s.Kept ql zf) :
    NextKept (execAinDisable n s) ql zf := by
  unfold execAinDisable
  repeat' (first
    | with_reducible assumption
    | with_reducible apply State.ainEnWrite_kept
    | apply nextKept_next
    | with_reducible apply State.Kept.ite)

theorem execAinModeChange_kept (n : Fin 16) (s : State) (h1 : s.Kept ql zf) :
    NextKept (execAinModeChange n s) ql zf := by
  unfold execAinModeChange
  repeat' (first
    | with_reducible assumption
    | with_reducible apply State.modeChange_kept
    | apply nextKept_next
    | with_reducible apply State.Kept.ite)

theorem execServoSettled_kept (n : Fin 16) (s : State) (h1 : s.Kept ql zf) :
    NextKept (execServoSettled n s) ql zf := by
  unfold execServoSettled
  repeat' (first
    | with_reducible assumption
    | with_reducible apply State.updAin_kept
    | apply nextKept_next
    | with_reducible apply State.Kept.ite)

theorem execAinReady_kept (n : Fin 16) (s : State) (h1 : s.Kept ql zf) :
    NextKept (execAinReady n s) ql zf := by
  unfold execAinReady
  repeat' (first
    | with_reducible assumption
    | with_reducible apply State.raise_kept
    | with_reducible apply State.setAinState_kept
    | with_reducible apply State.syncMuted_kept
    | with_reducible apply State.updAin_kept
    | apply nextKept_next
    | with_reducible apply State.Kept.ite)

theorem execAinOff_kept (n : Fin 16) (s : State) (h1 : s.Kept ql zf) :
    NextKept (execAinOff n s) ql zf := by
  unfold execAinOff
  repeat' (first
    | with_reducible assumption
    | with_reducible apply State.ainOff_kept
    | apply nextKept_next
    | with_reducible apply State.Kept.ite)

theorem execCmExcursionStart_kept (n : Fin 16) (s : State) (h1 : s.Kept ql zf) :
    NextKept (execCmExcursionStart n s) ql zf := by
  unfold execCmExcursionStart
  repeat' (first
    | with_reducible assumption
    | with_reducible apply State.raise_kept
    | with_reducible apply State.setFld_kept
    | with_reducible apply State.muteCause_kept
    | apply nextKept_next
    | with_reducible apply State.Kept.ite)

theorem execCmExcursionEnd_kept (n : Fin 16) (s : State) (h1 : s.Kept ql zf) :
    NextKept (execCmExcursionEnd n s) ql zf := by
  unfold execCmExcursionEnd
  repeat' (first
    | with_reducible assumption
    | with_reducible apply State.muteEnd_kept
    | with_reducible apply State.setFld_kept
    | apply nextKept_next
    | with_reducible apply State.Kept.ite)

theorem execPhantomEnable_kept (n : Fin 16) (s : State) (h1 : s.Kept ql zf) :
    NextKept (execPhantomEnable n s) ql zf := by
  unfold execPhantomEnable
  repeat' (first
    | with_reducible assumption
    | with_reducible apply State.phEnWrite_kept
    | apply nextKept_next
    | with_reducible apply State.Kept.ite)

theorem execPhantomDisable_kept (n : Fin 16) (s : State) (h1 : s.Kept ql zf) :
    NextKept (execPhantomDisable n s) ql zf := by
  unfold execPhantomDisable
  repeat' (first
    | with_reducible assumption
    | with_reducible apply State.phEnWrite_kept
    | apply nextKept_next
    | with_reducible apply State.Kept.ite)

theorem execPhRampDone_kept (n : Fin 16) (s : State) (h1 : s.Kept ql zf) :
    NextKept (execPhRampDone n s) ql zf := by
  unfold execPhRampDone
  repeat' (first
    | with_reducible assumption
    | with_reducible apply State.setPh_kept
    | with_reducible apply State.phChangeEnd_kept
    | apply nextKept_next
    | split)

theorem execPhSettleDone_kept (n : Fin 16) (s : State) (h1 : s.Kept ql zf) :
    NextKept (execPhSettleDone n s) ql zf := by
  unfold execPhSettleDone
  repeat' (first
    | with_reducible assumption
    | with_reducible apply State.raise_kept
    | with_reducible apply State.phChangeEnd_kept
    | with_reducible apply State.setPh_kept
    | with_reducible apply State.phOff_kept
    | apply nextKept_next
    | split)

theorem execPhLimitTimeout_kept (n : Fin 16) (s : State) (h1 : s.Kept ql zf) :
    NextKept (execPhLimitTimeout n s) ql zf := by
  unfold execPhLimitTimeout
  repeat' (first
    | with_reducible assumption
    | with_reducible apply State.phRemove_kept
    | apply nextKept_next
    | with_reducible apply State.Kept.ite)

theorem execPhFoldback_kept (s : State) (h0 : s.Kept ql zf) :
    NextKept (execPhFoldback s) ql zf := by
  unfold execPhFoldback
  repeat' (first
    | with_reducible assumption
    | with_reducible apply State.countSat_kept
    | with_reducible apply State.phRemove_kept
    | apply nextKept_next
    | split)

theorem execAutomuteFadeDone_kept (n : Fin 16) (s : State) (h1 : s.Kept ql zf) :
    NextKept (execAutomuteFadeDone n s) ql zf := by
  unfold execAutomuteFadeDone
  repeat' (first
    | with_reducible assumption
    | with_reducible apply State.updAin_kept
    | with_reducible apply State.micAll_kept
    | with_reducible apply State.gainAtOnce_kept
    | with_reducible apply State.syncMuted_kept
    | apply nextKept_next
    | with_reducible apply State.Kept.ite)

theorem execAutomuteCauseEnd_kept (n : Fin 16) (c : MuteCause) (s : State) (h2 : s.Kept ql zf) :
    NextKept (execAutomuteCauseEnd n c s) ql zf := by
  unfold execAutomuteCauseEnd
  repeat' (first | with_reducible assumption | with_reducible apply State.muteEnd_kept | apply nextKept_next | split)

theorem execAutomuteGlideDone_kept (n : Fin 16) (s : State) (h1 : s.Kept ql zf) :
    NextKept (execAutomuteGlideDone n s) ql zf := by
  unfold execAutomuteGlideDone
  repeat' (first
    | with_reducible assumption
    | with_reducible apply State.updAin_kept
    | apply nextKept_next
    | with_reducible apply State.Kept.ite)

theorem execPathReturn_kept (n : Fin 16) (s : State) (h1 : s.Kept ql zf) :
    NextKept (execPathReturn n s) ql zf := by
  unfold execPathReturn
  repeat' (first
    | with_reducible assumption
    | with_reducible apply State.updAin_kept
    | with_reducible apply State.setFld_kept
    | apply nextKept_next
    | with_reducible apply State.Kept.ite)

theorem execCalRestart_kept (n : Fin 16) (s : State) (h1 : s.Kept ql zf) :
    NextKept (execCalRestart n s) ql zf := by
  unfold execCalRestart
  repeat' (first
    | with_reducible assumption
    | with_reducible apply State.calRestart_kept
    | apply nextKept_next
    | with_reducible apply State.Kept.ite)

theorem execPreampGainWrite_kept (n : Fin 16) (v : Word) (s : State) (h2 : s.Kept ql zf) :
    NextKept (execPreampGainWrite n v s) ql zf := by
  unfold execPreampGainWrite
  repeat' (first
    | with_reducible assumption
    | with_reducible apply State.gainWrite_kept
    | apply nextKept_next
    | with_reducible apply State.Kept.ite)

theorem execStepForceTimeout_kept (n : Fin 16) (s : State) (h1 : s.Kept ql zf) :
    NextKept (execStepForceTimeout n s) ql zf := by
  unfold execStepForceTimeout
  repeat' (first
    | with_reducible assumption
    | with_reducible apply State.updAin_kept
    | with_reducible apply State.forceStep_kept
    | apply nextKept_next
    | with_reducible apply State.Kept.ite)

theorem execDiagStart_kept (n : Fin 16) (legs : BitVec 2) (s : State) (h2 : s.Kept ql zf) :
    NextKept (execDiagStart n legs s) ql zf := by
  unfold execDiagStart
  repeat' (first
    | with_reducible assumption
    | with_reducible apply State.diagWrite_kept
    | apply nextKept_next
    | with_reducible apply State.Kept.ite)

theorem execDiagBegin_kept (n : Fin 16) (s : State) (h1 : s.Kept ql zf) :
    NextKept (execDiagBegin n s) ql zf := by
  unfold execDiagBegin
  repeat' (first | with_reducible assumption | with_reducible apply State.diagBegin_kept | apply nextKept_next | split)

theorem execDiagPhaseDone_kept (n : Fin 16) (r : DiagReading) (s : State) (h2 : s.Kept ql zf) :
    NextKept (execDiagPhaseDone n r s) ql zf := by
  unfold execDiagPhaseDone
  repeat' (first | with_reducible assumption | with_reducible apply State.diagPhase_kept | apply nextKept_next)

theorem State.logAccess_kept (s : State) (k : AccessKind) (p : Fin 4) (write : Bool) (a : Nat) (h0 : s.Kept ql zf) :
    (State.logAccess s k p write a).Kept ql zf := by
  unfold State.logAccess
  repeat' (first
    | with_reducible assumption
    | with_reducible apply State.countSat_kept
    | with_reducible apply State.setFld_kept
    | with_reducible apply State.raise_kept
    | with_reducible apply State.setReg_kept
    | with_reducible apply State.Kept.ite)

theorem State.directPage_kept (s : State) (p : Fin 4) (g a : Nat) (f : State → State) (h0 : s.Kept ql zf) (h4 : ∀ s : State, s.Kept ql zf → (f s).Kept ql zf) :
    (State.directPage s p g a f).Kept ql zf := by
  unfold State.directPage
  split
  · exact State.logAccess_kept _ _ _ _ _ h0
  · split
    · exact h0
    · exact State.bumpVer_kept _ _ (h4 _ h0)

theorem State.updCrc_kept (s : State) (i : Fin 26) (f : Crc → Crc) (h0 : s.Kept ql zf) :
    (State.updCrc s i f).Kept ql zf := by
  unfold State.updCrc
  repeat' (first | with_reducible assumption | (fail_if_no_progress (with_reducible apply State.Kept.upd)))

theorem State.crcRun_kept (s : State) (i : Fin 26) (ds : List Byte) (h0 : s.Kept ql zf) :
    (State.crcRun s i ds).Kept ql zf := by
  unfold State.crcRun
  repeat' (first | with_reducible assumption | with_reducible apply State.updCrc_kept)

theorem State.crcWrite_kept (s : State) (a : CrcParty) (i : Fin 26) (f : Crc → Crc) (h0 : s.Kept ql zf) :
    (State.crcWrite s a i f).Kept ql zf := by
  unfold State.crcWrite
  repeat' (first
    | with_reducible assumption
    | with_reducible apply State.updCrc_kept
    | with_reducible apply State.setErr_kept
    | with_reducible apply State.Kept.ite)

theorem State.crcFeed_kept (s : State) (a : CrcParty) (i : Fin 26) (ds : List Byte) (h0 : s.Kept ql zf) :
    (State.crcFeed s a i ds).Kept ql zf := by
  unfold State.crcFeed
  repeat' (first | with_reducible assumption | with_reducible apply State.crcWrite_kept)

theorem State.crcSet_kept (s : State) (a : CrcParty) (i : Fin 26) (r : CrcReg) (v : Nat) (h0 : s.Kept ql zf) :
    (State.crcSet s a i r v).Kept ql zf := by
  unfold State.crcSet
  repeat' (first | with_reducible assumption | with_reducible apply State.crcWrite_kept)

theorem State.crcConfig_kept (s : State) (a : CrcParty) (i : Fin 26) (r : CrcReg) (v : Nat) (h0 : s.Kept ql zf) :
    (State.crcConfig s a i r v).Kept ql zf := by
  unfold State.crcConfig
  repeat' (first
    | with_reducible assumption
    | with_reducible apply State.crcSet_kept
    | with_reducible apply State.bumpVer_kept
    | with_reducible apply State.Kept.ite)

theorem State.crcOwnRequest_kept (s : State) (a : CrcParty) (h0 : s.Kept ql zf) :
    (State.crcOwnRequest s a).Kept ql zf := by
  unfold State.crcOwnRequest
  repeat' (first
    | with_reducible assumption
    | with_reducible apply State.updCrc_kept
    | with_reducible apply State.setErr_kept
    | split
    | (fail_if_no_progress (with_reducible apply State.Kept.upd)))

theorem State.crcOwnRelease_kept (s : State) (a : CrcParty) (h0 : s.Kept ql zf) :
    (State.crcOwnRelease s a).Kept ql zf := by
  unfold State.crcOwnRelease
  repeat' (first
    | with_reducible assumption
    | with_reducible apply State.setErr_kept
    | split
    | (fail_if_no_progress (with_reducible apply State.Kept.upd)))

theorem State.crcDrop_kept (s : State) (a : CrcParty) (h0 : s.Kept ql zf) :
    (State.crcDrop s a).Kept ql zf := by
  unfold State.crcDrop
  repeat' (first
    | with_reducible assumption
    | with_reducible apply State.Kept.ite
    | (fail_if_no_progress (with_reducible apply State.Kept.upd)))

theorem execCrcData8_kept (a : CrcParty) (i : Fin 26) (v : Byte) (s : State) (h3 : s.Kept ql zf) :
    NextKept (execCrcData8 a i v s) ql zf := by
  unfold execCrcData8
  repeat' (first | with_reducible assumption | with_reducible apply State.crcFeed_kept | apply nextKept_next)

theorem execCrcData16_kept (a : CrcParty) (i : Fin 26) (v : BitVec 16) (s : State) (h3 : s.Kept ql zf) :
    NextKept (execCrcData16 a i v s) ql zf := by
  unfold execCrcData16
  repeat' (first | with_reducible assumption | with_reducible apply State.crcFeed_kept | apply nextKept_next)

theorem execCrcData32_kept (a : CrcParty) (i : Fin 26) (v : Word) (s : State) (h3 : s.Kept ql zf) :
    NextKept (execCrcData32 a i v s) ql zf := by
  unfold execCrcData32
  repeat' (first | with_reducible assumption | with_reducible apply State.crcFeed_kept | apply nextKept_next)

theorem execCrcReset_kept (a : CrcParty) (i : Fin 26) (s : State) (h2 : s.Kept ql zf) :
    NextKept (execCrcReset a i s) ql zf := by
  unfold execCrcReset
  repeat' (first | with_reducible assumption | with_reducible apply State.crcWrite_kept | apply nextKept_next)

theorem execCrcConfigWrite_kept (a : CrcParty) (i : Fin 26) (r : CrcReg) (v : Word) (s : State) (h4 : s.Kept ql zf) :
    NextKept (execCrcConfigWrite a i r v s) ql zf := by
  unfold execCrcConfigWrite
  repeat' (first | with_reducible assumption | with_reducible apply State.crcConfig_kept | apply nextKept_next)

theorem execCrcResultRead_kept (i : Fin 26) (s : State) (h1 : s.Kept ql zf) :
    NextKept (execCrcResultRead i s) ql zf := by
  unfold execCrcResultRead
  repeat' (first | with_reducible assumption | with_reducible apply State.answer_kept | apply nextKept_next)

theorem execCrcRawRead_kept (i : Fin 26) (s : State) (h1 : s.Kept ql zf) :
    NextKept (execCrcRawRead i s) ql zf := by
  unfold execCrcRawRead
  repeat' (first | with_reducible assumption | with_reducible apply State.answer_kept | apply nextKept_next)

theorem execCrcOwnRequest_kept (a : CrcParty) (s : State) (h1 : s.Kept ql zf) :
    NextKept (execCrcOwnRequest a s) ql zf := by
  unfold execCrcOwnRequest
  repeat' (first | with_reducible assumption | with_reducible apply State.crcOwnRequest_kept | apply nextKept_next)

theorem execCrcOwnRelease_kept (a : CrcParty) (s : State) (h1 : s.Kept ql zf) :
    NextKept (execCrcOwnRelease a s) ql zf := by
  unfold execCrcOwnRelease
  repeat' (first | with_reducible assumption | with_reducible apply State.crcOwnRelease_kept | apply nextKept_next)

theorem State.updAes_kept (s : State) (n : Fin 32) (f : Aes → Aes) (h0 : s.Kept ql zf) :
    (State.updAes s n f).Kept ql zf := by
  unfold State.updAes
  repeat' (first | with_reducible assumption | with_reducible apply State.updSap_kept)

theorem State.aesEngine_kept (s : State) (i : Fin 26) (a b : Option Nat) (h0 : s.Kept ql zf) :
    (State.aesEngine s i a b).Kept ql zf := by
  unfold State.aesEngine
  repeat' (first
    | with_reducible assumption
    | with_reducible apply State.free_kept
    | with_reducible apply State.updCrc_kept
    | with_reducible apply State.Kept.ite)

theorem State.aesErrors_kept (s : State) (n : Fin 32) (x : RxSub) (h0 : s.Kept ql zf) :
    (State.aesErrors s n x).Kept ql zf := by
  unfold State.aesErrors
  repeat' (first
    | with_reducible assumption
    | with_reducible apply State.countSat_kept
    | with_reducible apply State.raiseAes_kept
    | with_reducible apply State.Kept.ite)

theorem State.csCrcc_kept (s : State) (n : Fin 32) (e : CsEnd) (okFld : Fld) (h0 : s.Kept ql zf) :
    (State.csCrcc s n e okFld).Kept ql zf := by
  unfold State.csCrcc
  repeat' (first
    | with_reducible assumption
    | with_reducible apply State.setFld_kept
    | with_reducible apply State.raiseAes_kept
    | with_reducible apply State.countSat_kept
    | with_reducible apply State.Kept.ite)

theorem State.csBlockEnd_kept (s : State) (n : Fin 32) (h0 : s.Kept ql zf) :
    (State.csBlockEnd s n).Kept ql zf := by
  unfold State.csBlockEnd
  repeat' (first
    | with_reducible assumption
    | with_reducible apply State.aesEngine_kept
    | with_reducible apply State.csCrcc_kept
    | with_reducible apply State.updAes_kept
    | with_reducible apply State.setFld_kept
    | with_reducible apply State.countWrap_kept
    | with_reducible apply State.raiseAes_kept
    | with_reducible apply State.Kept.ite)

theorem State.csFrame_kept (s : State) (n : Fin 32) (a b : RxSub) (z : Bool) (h0 : s.Kept ql zf) :
    (State.csFrame s n a b z).Kept ql zf := by
  unfold State.csFrame
  repeat' (first
    | with_reducible assumption
    | (dsimp only)
    | with_reducible apply State.updAes_kept
    | with_reducible apply State.raiseAes_kept
    | with_reducible apply State.countSat_kept
    | with_reducible apply State.csBlockEnd_kept
    | split)

theorem State.cutWord_kept (s : State) (v : Int) (keep : Nat) (dither : Bool) (h0 : s.Kept ql zf) :
    (State.cutWord s v keep dither).2.Kept ql zf := by
  unfold State.cutWord
  repeat' (first | with_reducible assumption | with_reducible apply State.freeInt_kept | split)

theorem State.aesSend_kept (s : State) (n : Fin 32) (a b : Sample) (madeA madeB : Bool) (h0 : s.Kept ql zf) :
    (State.aesSend s n a b madeA madeB).Kept ql zf := by
  unfold State.aesSend
  repeat' (first
    | with_reducible assumption
    | with_reducible apply State.cutWord_kept
    | with_reducible apply State.updAes_kept
    | with_reducible apply State.updSap_kept
    | with_reducible apply State.aesEngine_kept
    | with_reducible apply State.raiseAes_kept
    | with_reducible apply State.Kept.ite)

theorem State.monEdge_kept (s : State) (m : Fin 43) (h0 : s.Kept ql zf) :
    (State.monEdge s m).Kept ql zf := by
  unfold State.monEdge
  repeat' (first
    | with_reducible assumption
    | with_reducible apply State.setFld_kept
    | with_reducible apply State.raise_kept
    | with_reducible apply State.Kept.ite
    | (fail_if_no_progress (with_reducible apply State.Kept.upd)))

theorem State.aesLockTo_kept (s : State) (n : Fin 32) (code : Nat) (h0 : s.Kept ql zf) :
    (State.aesLockTo s n code).Kept ql zf := by
  unfold State.aesLockTo
  repeat' (first
    | with_reducible assumption
    | with_reducible apply State.setFld_kept
    | with_reducible apply State.raiseAes_kept
    | with_reducible apply State.updAes_kept
    | with_reducible apply State.monEdge_kept
    | with_reducible apply State.Kept.ite)

theorem State.csCopy_kept (s : State) (n : Fin 32) (h0 : s.Kept ql zf) :
    (State.csCopy s n).Kept ql zf := by
  unfold State.csCopy
  repeat' (first | with_reducible assumption | with_reducible apply State.updAes_kept)

end Sys2Proof.Machine
end

