-- ==== Sys2Proof/Laws/KeptFabric.lean ====
section
/-!
SUPPORT. What commands keep (Kept): clocks, time and the fabric.
-/
namespace Sys2Proof.Machine

variable {ql : List Instr} {zf : BitVec 512}

theorem State.setWord_kept (s : State) (w : Int) (h0 : s.Kept ql zf) :
    (State.setWord s w).Kept ql zf := by
  unfold State.setWord
  repeat' (first
    | with_reducible assumption
    | (intro hq; exact Port.Balanced.same hq rfl rfl rfl rfl)
    | (dsimp only)
    | (intro _)
    | with_reducible apply State.asrcMeasure_kept
    | with_reducible apply State.setSfld_kept
    | with_reducible apply State.Kept.foldl
    | (refine State.Kept.of_snd (by assumption) ?_)
    | (refine State.Kept.of_snd2 (by assumption) ?_)
    | (refine State.Kept.of_snd3 (by assumption) ?_)
    | (refine State.Kept.of_mid (by assumption) ?_)
    | with_reducible apply State.Kept.ite
    | split
    | (fail_if_no_progress (with_reducible apply State.Kept.upd)))

theorem State.freeWord_kept (s : State) (h0 : s.Kept ql zf) :
    (State.freeWord s).Kept ql zf := by
  unfold State.freeWord
  repeat' (first
    | with_reducible assumption
    | with_reducible apply State.freeInt_kept
    | with_reducible apply State.setWord_kept)

theorem State.pllTo_kept (s : State) (t : PllState) (h0 : s.Kept ql zf) :
    (State.pllTo s t).Kept ql zf := by
  unfold State.pllTo
  repeat' (first
    | with_reducible assumption
    | (intro hq; exact Port.Balanced.same hq rfl rfl rfl rfl)
    | (dsimp only)
    | (intro _)
    | with_reducible apply State.setFld_kept
    | with_reducible apply State.Kept.foldl
    | (refine State.Kept.of_snd (by assumption) ?_)
    | (refine State.Kept.of_snd2 (by assumption) ?_)
    | (refine State.Kept.of_snd3 (by assumption) ?_)
    | (refine State.Kept.of_mid (by assumption) ?_)
    | with_reducible apply State.Kept.ite
    | split
    | (fail_if_no_progress (with_reducible apply State.Kept.upd)))

theorem State.lock_kept (s : State) (h0 : s.Kept ql zf) :
    (State.lock s).Kept ql zf := by
  unfold State.lock
  repeat' (first
    | with_reducible assumption
    | (intro hq; exact Port.Balanced.same hq rfl rfl rfl rfl)
    | (dsimp only)
    | (intro _)
    | with_reducible apply State.setWord_kept
    | with_reducible apply State.pllTo_kept
    | with_reducible apply State.Kept.foldl
    | (refine State.Kept.of_snd (by assumption) ?_)
    | (refine State.Kept.of_snd2 (by assumption) ?_)
    | (refine State.Kept.of_snd3 (by assumption) ?_)
    | (refine State.Kept.of_mid (by assumption) ?_)
    | with_reducible apply State.Kept.ite
    | split
    | (fail_if_no_progress (with_reducible apply State.Kept.upd)))

theorem State.enterHoldover_kept (s : State) (h0 : s.Kept ql zf) :
    (State.enterHoldover s).Kept ql zf := by
  unfold State.enterHoldover
  repeat' (first
    | with_reducible assumption
    | with_reducible apply State.pllTo_kept
    | with_reducible apply State.raise_kept
    | with_reducible apply State.countSat_kept
    | (fail_if_no_progress (with_reducible apply State.Kept.upd)))

theorem State.holdMean_kept (s : State) (span last : Nat) (h0 : s.Kept ql zf) :
    (State.holdMean s span last).Kept ql zf := by
  unfold State.holdMean
  repeat' (first
    | with_reducible assumption
    | (intro hq; exact Port.Balanced.same hq rfl rfl rfl rfl)
    | (dsimp only)
    | (intro _)
    | with_reducible apply State.divFree_kept
    | with_reducible apply State.setWord_kept
    | with_reducible apply State.freeInt_kept
    | with_reducible apply State.Kept.foldl
    | (refine State.Kept.of_snd (by assumption) ?_)
    | (refine State.Kept.of_snd2 (by assumption) ?_)
    | (refine State.Kept.of_snd3 (by assumption) ?_)
    | (refine State.Kept.of_mid (by assumption) ?_)
    | with_reducible apply State.Kept.ite
    | split
    | (fail_if_no_progress (with_reducible apply State.Kept.upd)))

theorem State.slewOn_kept (s : State) (h0 : s.Kept ql zf) :
    (State.slewOn s).Kept ql zf := by
  unfold State.slewOn
  repeat' (first
    | with_reducible assumption
    | (intro hq; exact Port.Balanced.same hq rfl rfl rfl rfl)
    | (dsimp only)
    | (intro _)
    | with_reducible apply State.freeInt_kept
    | with_reducible apply State.divFree_kept
    | with_reducible apply State.setWord_kept
    | with_reducible apply State.Kept.foldl
    | (refine State.Kept.of_snd (by assumption) ?_)
    | (refine State.Kept.of_snd2 (by assumption) ?_)
    | (refine State.Kept.of_snd3 (by assumption) ?_)
    | (refine State.Kept.of_mid (by assumption) ?_)
    | with_reducible apply State.Kept.ite
    | split
    | (fail_if_no_progress (with_reducible apply State.Kept.upd)))

theorem State.snapAim_kept (s : State) (g : Gain) (ticks : Nat) (h0 : s.Kept ql zf) :
    (State.snapAim s g ticks).Kept ql zf := by
  unfold State.snapAim
  repeat' (first | with_reducible assumption | (fail_if_no_progress (with_reducible apply State.Kept.upd)))

theorem State.snapReturn_kept (s : State) (h0 : s.Kept ql zf) :
    (State.snapReturn s).Kept ql zf := by
  unfold State.snapReturn
  repeat' (first | with_reducible assumption | with_reducible apply State.pllTo_kept | with_reducible apply State.snapAim_kept)

theorem State.following_kept (s : State) (h0 : s.Kept ql zf) :
    (State.following s).Kept ql zf := by
  unfold State.following
  repeat' (first
    | with_reducible assumption
    | (intro hq; exact Port.Balanced.same hq rfl rfl rfl rfl)
    | (dsimp only)
    | (intro _)
    | with_reducible apply State.Kept.foldl
    | (refine State.Kept.of_snd (by assumption) ?_)
    | (refine State.Kept.of_snd2 (by assumption) ?_)
    | (refine State.Kept.of_snd3 (by assumption) ?_)
    | (refine State.Kept.of_mid (by assumption) ?_)
    | with_reducible apply State.Kept.ite
    | split
    | (fail_if_no_progress (with_reducible apply State.Kept.upd)))

theorem State.refLost_kept (s : State) (span last : Nat) (h0 : s.Kept ql zf) :
    (State.refLost s span last).Kept ql zf := by
  unfold State.refLost
  repeat' (first
    | with_reducible assumption
    | (intro hq; exact Port.Balanced.same hq rfl rfl rfl rfl)
    | (dsimp only)
    | (intro _)
    | with_reducible apply State.enterHoldover_kept
    | with_reducible apply State.holdMean_kept
    | with_reducible apply State.slewOn_kept
    | with_reducible apply State.snapReturn_kept
    | with_reducible apply State.setWord_kept
    | with_reducible apply State.Kept.foldl
    | (refine State.Kept.of_snd (by assumption) ?_)
    | (refine State.Kept.of_snd2 (by assumption) ?_)
    | (refine State.Kept.of_snd3 (by assumption) ?_)
    | (refine State.Kept.of_mid (by assumption) ?_)
    | with_reducible apply State.Kept.ite
    | split
    | (fail_if_no_progress (with_reducible apply State.Kept.upd)))

theorem State.refNone_kept (s : State) (h0 : s.Kept ql zf) :
    (State.refNone s).Kept ql zf := by
  unfold State.refNone
  repeat' (first
    | with_reducible assumption
    | with_reducible apply State.freeWord_kept
    | with_reducible apply State.pllTo_kept
    | with_reducible apply State.snapReturn_kept
    | with_reducible apply State.setWord_kept
    | split
    | (fail_if_no_progress (with_reducible apply State.Kept.upd)))

theorem State.relock_kept (s : State) (h0 : s.Kept ql zf) :
    (State.relock s).Kept ql zf := by
  unfold State.relock
  repeat' (first
    | with_reducible assumption
    | with_reducible apply State.pllTo_kept
    | with_reducible apply State.snapAim_kept
    | with_reducible apply State.raise_kept
    | with_reducible apply State.Kept.ite
    | (fail_if_no_progress (with_reducible apply State.Kept.upd)))

theorem State.refBack_kept (s : State) (h0 : s.Kept ql zf) :
    (State.refBack s).Kept ql zf := by
  unfold State.refBack
  repeat' (first
    | with_reducible assumption
    | with_reducible apply State.relock_kept
    | with_reducible apply State.slewOn_kept
    | split)

theorem State.refFollow_kept (s : State) (h0 : s.Kept ql zf) :
    (State.refFollow s).Kept ql zf := by
  unfold State.refFollow
  repeat' (first
    | with_reducible assumption
    | (intro hq; exact Port.Balanced.same hq rfl rfl rfl rfl)
    | (dsimp only)
    | (intro _)
    | with_reducible apply State.setWord_kept
    | with_reducible apply State.Kept.foldl
    | (refine State.Kept.of_snd (by assumption) ?_)
    | (refine State.Kept.of_snd2 (by assumption) ?_)
    | (refine State.Kept.of_snd3 (by assumption) ?_)
    | (refine State.Kept.of_mid (by assumption) ?_)
    | with_reducible apply State.Kept.ite
    | split
    | (fail_if_no_progress (with_reducible apply State.Kept.upd)))

theorem State.coreWrite_kept (s : State) (v : Nat) (h0 : s.Kept ql zf) :
    (State.coreWrite s v).Kept ql zf := by
  unfold State.coreWrite
  repeat' (first
    | with_reducible assumption
    | with_reducible apply State.store_kept
    | with_reducible apply State.pllTo_kept
    | with_reducible apply State.setErr_kept
    | with_reducible apply State.Kept.ite
    | (fail_if_no_progress (with_reducible apply State.Kept.upd)))

theorem State.refSelWrite_kept (s : State) (v : Nat) (h0 : s.Kept ql zf) :
    (State.refSelWrite s v).Kept ql zf := by
  unfold State.refSelWrite
  repeat' (first
    | with_reducible assumption
    | with_reducible apply State.setErr_kept
    | with_reducible apply State.slewOn_kept
    | with_reducible apply State.store_kept
    | with_reducible apply State.refNone_kept
    | with_reducible apply State.relock_kept
    | with_reducible apply State.raise_kept
    | with_reducible apply State.refLost_kept
    | with_reducible apply State.Kept.ite
    | split
    | (fail_if_no_progress (with_reducible apply State.Kept.upd)))

theorem State.monTo_kept (s : State) (m : Fin 43) (st : Nat) (mon : Mon) (h0 : s.Kept ql zf) :
    (State.monTo s m st mon).Kept ql zf := by
  unfold State.monTo
  repeat' (first
    | with_reducible assumption
    | with_reducible apply State.raise_kept
    | with_reducible apply State.setFld_kept
    | (fail_if_no_progress (with_reducible apply State.Kept.upd)))

theorem State.monLoss_kept (s : State) (m : Fin 43) (h0 : s.Kept ql zf) :
    (State.monLoss s m).Kept ql zf := by
  unfold State.monLoss
  repeat' (first
    | with_reducible assumption
    | (intro _)
    | with_reducible apply State.countSat_kept
    | with_reducible apply State.setFld_kept
    | with_reducible apply State.monTo_kept
    | with_reducible apply State.asrcClock_kept
    | with_reducible apply State.portLoss_kept
    | with_reducible apply State.refLost_kept
    | with_reducible apply State.raise_kept
    | with_reducible apply State.Kept.foldl
    | with_reducible apply State.Kept.ite
    | (fail_if_no_progress (with_reducible apply State.Kept.upd)))

theorem State.monGlitch_kept (s : State) (m : Fin 43) (gap : Nat) (h0 : s.Kept ql zf) :
    (State.monGlitch s m gap).Kept ql zf := by
  unfold State.monGlitch
  repeat' (first
    | with_reducible assumption
    | (intro _)
    | with_reducible apply State.countSat_kept
    | with_reducible apply State.updSap_kept
    | with_reducible apply State.raise_kept
    | with_reducible apply State.monLoss_kept
    | with_reducible apply State.Kept.foldl
    | with_reducible apply State.Kept.ite
    | (fail_if_no_progress (with_reducible apply State.Kept.upd)))

theorem State.monPortsRate_kept (s : State) (m : Fin 43) (code : Nat) (changed : Bool) (h0 : s.Kept ql zf) :
    (State.monPortsRate s m code changed).Kept ql zf := by
  unfold State.monPortsRate
  repeat' (first
    | with_reducible assumption
    | (intro _)
    | with_reducible apply State.portRateChange_kept
    | with_reducible apply State.asrcClock_kept
    | with_reducible apply State.portPresent_kept
    | with_reducible apply State.Kept.foldl
    | with_reducible apply State.Kept.ite)

theorem State.monAdopt_kept (s : State) (m : Fin 43) (code : Nat) (ppm : Int) (h0 : s.Kept ql zf) :
    (State.monAdopt s m code ppm).Kept ql zf := by
  unfold State.monAdopt
  repeat' (first
    | with_reducible assumption
    | (intro hq; exact Port.Balanced.same hq rfl rfl rfl rfl)
    | (dsimp only)
    | (intro _)
    | with_reducible apply State.setSfld_kept
    | with_reducible apply State.setFld_kept
    | with_reducible apply State.Kept.foldl
    | (refine State.Kept.of_snd (by assumption) ?_)
    | (refine State.Kept.of_snd2 (by assumption) ?_)
    | (refine State.Kept.of_snd3 (by assumption) ?_)
    | (refine State.Kept.of_mid (by assumption) ?_)
    | with_reducible apply State.Kept.ite
    | split
    | (fail_if_no_progress (with_reducible apply State.Kept.upd)))

theorem State.monAverage_kept (s : State) (m : Fin 43) (ppm : Int) (h0 : s.Kept ql zf) :
    (State.monAverage s m ppm).Kept ql zf := by
  unfold State.monAverage
  repeat' (first
    | with_reducible assumption
    | (intro hq; exact Port.Balanced.same hq rfl rfl rfl rfl)
    | (dsimp only)
    | (intro _)
    | with_reducible apply State.monAdopt_kept
    | with_reducible apply State.free_kept
    | with_reducible apply State.setFld_kept
    | with_reducible apply State.Kept.foldl
    | (refine State.Kept.of_snd (by assumption) ?_)
    | (refine State.Kept.of_snd2 (by assumption) ?_)
    | (refine State.Kept.of_snd3 (by assumption) ?_)
    | (refine State.Kept.of_mid (by assumption) ?_)
    | with_reducible apply State.Kept.ite
    | split
    | (fail_if_no_progress (with_reducible apply State.Kept.upd)))

theorem State.refBad_kept (s : State) (h0 : s.Kept ql zf) :
    (State.refBad s).Kept ql zf := by
  unfold State.refBad
  repeat' (first
    | with_reducible assumption
    | (intro hq; exact Port.Balanced.same hq rfl rfl rfl rfl)
    | (dsimp only)
    | (intro _)
    | with_reducible apply State.raise_kept
    | with_reducible apply State.Kept.foldl
    | (refine State.Kept.of_snd (by assumption) ?_)
    | (refine State.Kept.of_snd2 (by assumption) ?_)
    | (refine State.Kept.of_snd3 (by assumption) ?_)
    | (refine State.Kept.of_mid (by assumption) ?_)
    | with_reducible apply State.Kept.ite
    | split
    | (fail_if_no_progress (with_reducible apply State.Kept.upd)))

theorem State.refRate_kept (s : State) (was : Nat) (wasUsable : Bool) (span : Nat) (h0 : s.Kept ql zf) :
    (State.refRate s was wasUsable span).Kept ql zf := by
  unfold State.refRate
  repeat' (first
    | with_reducible assumption
    | (intro hq; exact Port.Balanced.same hq rfl rfl rfl rfl)
    | (dsimp only)
    | (intro _)
    | with_reducible apply State.raise_kept
    | with_reducible apply State.refBack_kept
    | with_reducible apply State.refBad_kept
    | with_reducible apply State.refLost_kept
    | with_reducible apply State.Kept.foldl
    | (refine State.Kept.of_snd (by assumption) ?_)
    | (refine State.Kept.of_snd2 (by assumption) ?_)
    | (refine State.Kept.of_snd3 (by assumption) ?_)
    | (refine State.Kept.of_mid (by assumption) ?_)
    | with_reducible apply State.Kept.ite
    | split
    | (fail_if_no_progress (with_reducible apply State.Kept.upd)))

theorem State.monRate_kept (s : State) (m : Fin 43) (code : Nat) (ppm : Int) (h0 : s.Kept ql zf) :
    (State.monRate s m code ppm).Kept ql zf := by
  unfold State.monRate
  repeat' (first
    | with_reducible assumption
    | (intro hq; exact Port.Balanced.same hq rfl rfl rfl rfl)
    | (dsimp only)
    | (intro _)
    | with_reducible apply State.slewOn_kept
    | with_reducible apply State.monPortsRate_kept
    | with_reducible apply State.monAdopt_kept
    | with_reducible apply State.refRate_kept
    | with_reducible apply State.Kept.foldl
    | (refine State.Kept.of_snd (by assumption) ?_)
    | (refine State.Kept.of_snd2 (by assumption) ?_)
    | (refine State.Kept.of_snd3 (by assumption) ?_)
    | (refine State.Kept.of_mid (by assumption) ?_)
    | with_reducible apply State.Kept.ite
    | split
    | (fail_if_no_progress (with_reducible apply State.Kept.upd)))

theorem State.monPresent_kept (s : State) (m : Fin 43) (code : Nat) (ppm : Int) (h0 : s.Kept ql zf) :
    (State.monPresent s m code ppm).Kept ql zf := by
  unfold State.monPresent
  repeat' (first
    | with_reducible assumption
    | with_reducible apply State.monPortsRate_kept
    | with_reducible apply State.monAdopt_kept
    | with_reducible apply State.monTo_kept
    | with_reducible apply State.refRate_kept
    | with_reducible apply State.refBack_kept
    | with_reducible apply State.refBad_kept
    | with_reducible apply State.Kept.ite)

theorem State.monMeasure_kept (s : State) (m : Fin 43) (ppm : Int) (h0 : s.Kept ql zf) :
    (State.monMeasure s m ppm).Kept ql zf := by
  unfold State.monMeasure
  repeat' (first
    | with_reducible assumption
    | (intro hq; exact Port.Balanced.same hq rfl rfl rfl rfl)
    | (dsimp only)
    | (intro _)
    | with_reducible apply State.monAverage_kept
    | with_reducible apply State.slewOn_kept
    | with_reducible apply State.refFollow_kept
    | with_reducible apply State.raise_kept
    | with_reducible apply State.refLost_kept
    | with_reducible apply State.refBack_kept
    | with_reducible apply State.Kept.foldl
    | (refine State.Kept.of_snd (by assumption) ?_)
    | (refine State.Kept.of_snd2 (by assumption) ?_)
    | (refine State.Kept.of_snd3 (by assumption) ?_)
    | (refine State.Kept.of_mid (by assumption) ?_)
    | with_reducible apply State.Kept.ite
    | split
    | (fail_if_no_progress (with_reducible apply State.Kept.upd)))

theorem State.monCfgWrite_kept (s : State) (m : Fin 43) (v : Nat) (h0 : s.Kept ql zf) :
    (State.monCfgWrite s m v).Kept ql zf := by
  unfold State.monCfgWrite
  repeat' (first
    | with_reducible assumption
    | with_reducible apply State.slewOn_kept
    | with_reducible apply State.setReg_kept
    | with_reducible apply State.store_kept
    | with_reducible apply State.refLost_kept
    | with_reducible apply State.raise_kept
    | with_reducible apply State.Kept.ite
    | (fail_if_no_progress (with_reducible apply State.Kept.upd)))

theorem State.latchSys_kept (s : State) (h0 : s.Kept ql zf) :
    (State.latchSys s).Kept ql zf := by
  unfold State.latchSys
  repeat' (first | with_reducible assumption | with_reducible apply State.setReg_kept)

theorem State.latchTick_kept (s : State) (h0 : s.Kept ql zf) :
    (State.latchTick s).Kept ql zf := by
  unfold State.latchTick
  repeat' (first | with_reducible assumption | with_reducible apply State.setReg_kept)

theorem State.loseAgree_kept (s : State) (h0 : s.Kept ql zf) :
    (State.loseAgree s).Kept ql zf := by
  unfold State.loseAgree
  repeat' (first
    | with_reducible assumption
    | with_reducible apply State.raise_kept
    | with_reducible apply State.setFld_kept
    | with_reducible apply State.Kept.ite
    | (fail_if_no_progress (with_reducible apply State.Kept.upd)))

theorem State.enterCoarse_kept (s : State) (h0 : s.Kept ql zf) :
    (State.enterCoarse s).Kept ql zf := by
  unfold State.enterCoarse
  repeat' (first
    | with_reducible assumption
    | with_reducible apply State.raise_kept
    | with_reducible apply State.loseAgree_kept
    | with_reducible apply State.Kept.ite
    | (fail_if_no_progress (with_reducible apply State.Kept.upd)))

theorem State.leaveCoarse_kept (s : State) (h0 : s.Kept ql zf) :
    (State.leaveCoarse s).Kept ql zf := by
  unfold State.leaveCoarse
  repeat' (first
    | with_reducible assumption
    | with_reducible apply State.raise_kept
    | (fail_if_no_progress (with_reducible apply State.Kept.upd)))

theorem State.countOn_kept (s : State) (h0 : s.Kept ql zf) :
    (State.countOn s).Kept ql zf := by
  unfold State.countOn
  repeat' (first
    | with_reducible assumption
    | with_reducible apply State.free_kept
    | with_reducible apply State.Kept.ite
    | (fail_if_no_progress (with_reducible apply State.Kept.upd)))

theorem State.agreeOn_kept (s : State) (err16 : Int) (h0 : s.Kept ql zf) :
    (State.agreeOn s err16).Kept ql zf := by
  unfold State.agreeOn
  repeat' (first
    | with_reducible assumption
    | with_reducible apply State.raise_kept
    | with_reducible apply State.setFld_kept
    | with_reducible apply State.loseAgree_kept
    | with_reducible apply State.Kept.ite
    | (fail_if_no_progress (with_reducible apply State.Kept.upd)))

theorem State.setError_kept (s : State) (err16 : Int) (h0 : s.Kept ql zf) :
    (State.setError s err16).Kept ql zf := by
  unfold State.setError
  repeat' (first
    | with_reducible assumption
    | with_reducible apply State.setSfld_kept
    | with_reducible apply State.free_kept
    | with_reducible apply State.setFld_kept
    | with_reducible apply State.Kept.ite)

theorem State.ensJoin_kept (s : State) (lead16 : Int) (h0 : s.Kept ql zf) :
    (State.ensJoin s lead16).Kept ql zf := by
  unfold State.ensJoin
  repeat' (first
    | with_reducible assumption
    | with_reducible apply State.divFree_kept
    | with_reducible apply State.setFld_kept
    | (fail_if_no_progress (with_reducible apply State.Kept.upd)))

theorem State.ensSteer_kept (s : State) (lead16 err16 : Int) (h0 : s.Kept ql zf) :
    (State.ensSteer s lead16 err16).Kept ql zf := by
  unfold State.ensSteer
  repeat' (first
    | with_reducible assumption
    | with_reducible apply State.divFree_kept
    | with_reducible apply State.raise_kept
    | with_reducible apply State.Kept.ite
    | (fail_if_no_progress (with_reducible apply State.Kept.upd)))

theorem State.epochTake_kept (s : State) (f : BitVec 64) (h0 : s.Kept ql zf) :
    (State.epochTake s f).Kept ql zf := by
  unfold State.epochTake
  repeat' (first
    | with_reducible assumption
    | with_reducible apply State.raise_kept
    | with_reducible apply State.countSat_kept
    | with_reducible apply State.setFld_kept
    | with_reducible apply State.setError_kept
    | with_reducible apply State.agreeOn_kept
    | with_reducible apply State.ensJoin_kept
    | with_reducible apply State.ensSteer_kept
    | with_reducible apply State.Kept.ite
    | split
    | (fail_if_no_progress (with_reducible apply State.Kept.upd)))

theorem State.ensCtrlWrite_kept (s : State) (v : Nat) (h0 : s.Kept ql zf) :
    (State.ensCtrlWrite s v).Kept ql zf := by
  unfold State.ensCtrlWrite
  repeat' (first
    | with_reducible assumption
    | with_reducible apply State.store_kept
    | with_reducible apply State.setFld_kept
    | with_reducible apply State.Kept.ite
    | (fail_if_no_progress (with_reducible apply State.Kept.upd)))

theorem execClkCoreWrite_kept (v : Word) (s : State) (h1 : s.Kept ql zf) :
    NextKept (execClkCoreWrite v s) ql zf := by
  unfold execClkCoreWrite
  repeat' (first
    | with_reducible assumption
    | with_reducible apply State.coreWrite_kept
    | apply nextKept_next
    | with_reducible apply State.Kept.ite)

theorem execRefSelWrite_kept (v : Word) (s : State) (h1 : s.Kept ql zf) :
    NextKept (execRefSelWrite v s) ql zf := by
  unfold execRefSelWrite
  repeat' (first
    | with_reducible assumption
    | with_reducible apply State.refSelWrite_kept
    | apply nextKept_next
    | with_reducible apply State.Kept.ite)

theorem execMonLoss_kept (m : Fin 43) (s : State) (h1 : s.Kept ql zf) :
    NextKept (execMonLoss m s) ql zf := by
  unfold execMonLoss
  repeat' (first
    | with_reducible assumption
    | with_reducible apply State.monLoss_kept
    | apply nextKept_next
    | with_reducible apply State.Kept.ite)

theorem execMonGlitch_kept (m : Fin 43) (gap : Nat) (s : State) (h2 : s.Kept ql zf) :
    NextKept (execMonGlitch m gap s) ql zf := by
  unfold execMonGlitch
  repeat' (first
    | with_reducible assumption
    | with_reducible apply State.monGlitch_kept
    | apply nextKept_next
    | with_reducible apply State.Kept.ite)

theorem execMonRateChange_kept (m : Fin 43) (code : Fin 18) (ppm : Int) (s : State) (h3 : s.Kept ql zf) :
    NextKept (execMonRateChange m code ppm s) ql zf := by
  unfold execMonRateChange
  repeat' (first
    | with_reducible assumption
    | (intro hq; exact Port.Balanced.same hq rfl rfl rfl rfl)
    | (dsimp only)
    | (intro _)
    | with_reducible apply State.monRate_kept
    | apply nextKept_next
    | with_reducible apply State.Kept.foldl
    | (refine State.Kept.of_snd (by assumption) ?_)
    | (refine State.Kept.of_snd2 (by assumption) ?_)
    | (refine State.Kept.of_snd3 (by assumption) ?_)
    | (refine State.Kept.of_mid (by assumption) ?_)
    | with_reducible apply State.Kept.ite
    | split
    | (fail_if_no_progress (with_reducible apply State.Kept.upd)))

theorem execMonPresent_kept (m : Fin 43) (code : Fin 18) (ppm : Int) (s : State) (h3 : s.Kept ql zf) :
    NextKept (execMonPresent m code ppm s) ql zf := by
  unfold execMonPresent
  repeat' (first
    | with_reducible assumption
    | with_reducible apply State.monEdge_kept
    | with_reducible apply State.monPresent_kept
    | apply nextKept_next
    | with_reducible apply State.Kept.ite)

theorem execMonAcquireTimeout_kept (m : Fin 43) (s : State) (h1 : s.Kept ql zf) :
    NextKept (execMonAcquireTimeout m s) ql zf := by
  unfold execMonAcquireTimeout
  repeat' (first
    | with_reducible assumption
    | with_reducible apply State.monTo_kept
    | apply nextKept_next
    | with_reducible apply State.Kept.ite)

theorem execRefUnusable_kept (ppm : Int) (s : State) (h1 : s.Kept ql zf) :
    NextKept (execRefUnusable ppm s) ql zf := by
  unfold execRefUnusable
  repeat' (first | with_reducible assumption | with_reducible apply State.monMeasure_kept | apply nextKept_next | split)

theorem execRefUsable_kept (ppm : Int) (s : State) (h1 : s.Kept ql zf) :
    NextKept (execRefUsable ppm s) ql zf := by
  unfold execRefUsable
  repeat' (first | with_reducible assumption | with_reducible apply State.monMeasure_kept | apply nextKept_next | split)

theorem execPllAcquireDone_kept (s : State) (h0 : s.Kept ql zf) :
    NextKept (execPllAcquireDone s) ql zf := by
  unfold execPllAcquireDone
  repeat' (first
    | with_reducible assumption
    | with_reducible apply State.freeWord_kept
    | with_reducible apply State.pllTo_kept
    | with_reducible apply State.lock_kept
    | with_reducible apply State.refBad_kept
    | with_reducible apply State.enterHoldover_kept
    | apply nextKept_next
    | split
    | (fail_if_no_progress (with_reducible apply State.Kept.upd)))

theorem execPllSlewDone_kept (s : State) (h0 : s.Kept ql zf) :
    NextKept (execPllSlewDone s) ql zf := by
  unfold execPllSlewDone
  repeat' (first
    | with_reducible assumption
    | with_reducible apply State.raise_kept
    | with_reducible apply State.lock_kept
    | apply nextKept_next
    | with_reducible apply State.Kept.ite)

theorem execSnapMuteDone_kept (s : State) (h0 : s.Kept ql zf) :
    NextKept (execSnapMuteDone s) ql zf := by
  unfold execSnapMuteDone
  repeat' (first
    | with_reducible assumption
    | with_reducible apply State.asrcSnap_kept
    | with_reducible apply State.pllTo_kept
    | apply nextKept_next
    | with_reducible apply State.Kept.ite
    | (fail_if_no_progress (with_reducible apply State.Kept.upd)))

theorem execSnapRelockDone_kept (s : State) (h0 : s.Kept ql zf) :
    NextKept (execSnapRelockDone s) ql zf := by
  unfold execSnapRelockDone
  repeat' (first
    | with_reducible assumption
    | with_reducible apply State.following_kept
    | with_reducible apply State.snapReturn_kept
    | with_reducible apply State.setWord_kept
    | apply nextKept_next
    | with_reducible apply State.Kept.ite)

theorem execSnapReturnDone_kept (s : State) (h0 : s.Kept ql zf) :
    NextKept (execSnapReturnDone s) ql zf := by
  unfold execSnapReturnDone
  repeat' (first
    | with_reducible assumption
    | with_reducible apply State.freeWord_kept
    | with_reducible apply State.pllTo_kept
    | with_reducible apply State.raise_kept
    | with_reducible apply State.lock_kept
    | with_reducible apply State.enterHoldover_kept
    | apply nextKept_next
    | with_reducible apply State.Kept.ite
    | (fail_if_no_progress (with_reducible apply State.Kept.upd)))

theorem execCoarseExit_kept (s : State) (h0 : s.Kept ql zf) :
    NextKept (execCoarseExit s) ql zf := by
  unfold execCoarseExit
  repeat' (first
    | with_reducible assumption
    | with_reducible apply State.leaveCoarse_kept
    | apply nextKept_next
    | with_reducible apply State.Kept.ite)

theorem execSyscntLoRead_kept (s : State) (h0 : s.Kept ql zf) :
    NextKept (execSyscntLoRead s) ql zf := by
  unfold execSyscntLoRead
  repeat' (first
    | with_reducible assumption
    | with_reducible apply State.answer_kept
    | with_reducible apply State.latchSys_kept
    | apply nextKept_next)

theorem execTickcntLoRead_kept (s : State) (h0 : s.Kept ql zf) :
    NextKept (execTickcntLoRead s) ql zf := by
  unfold execTickcntLoRead
  repeat' (first
    | with_reducible assumption
    | with_reducible apply State.answer_kept
    | with_reducible apply State.latchTick_kept
    | apply nextKept_next)

theorem execEpochFrameSend_kept (s : State) (h0 : s.Kept ql zf) :
    NextKept (execEpochFrameSend s) ql zf := by
  unfold execEpochFrameSend
  repeat' (first
    | with_reducible assumption
    | apply nextKept_next
    | with_reducible apply State.Kept.ite
    | (fail_if_no_progress (with_reducible apply State.Kept.upd)))

theorem execEpochFrameReceive_kept (f : BitVec 64) (s : State) (h1 : s.Kept ql zf) :
    NextKept (execEpochFrameReceive f s) ql zf := by
  unfold execEpochFrameReceive
  repeat' (first
    | with_reducible assumption
    | with_reducible apply State.epochTake_kept
    | apply nextKept_next
    | with_reducible apply State.Kept.ite)

theorem execEpochFrameRepeat_kept (s : State) (h0 : s.Kept ql zf) :
    NextKept (execEpochFrameRepeat s) ql zf := by
  unfold execEpochFrameRepeat
  repeat' (first
    | with_reducible assumption
    | apply nextKept_next
    | split
    | (fail_if_no_progress (with_reducible apply State.Kept.upd)))

theorem execEnsLost_kept (s : State) (h0 : s.Kept ql zf) :
    NextKept (execEnsLost s) ql zf := by
  unfold execEnsLost
  repeat' (first
    | with_reducible assumption
    | with_reducible apply State.setFld_kept
    | with_reducible apply State.loseAgree_kept
    | apply nextKept_next
    | with_reducible apply State.Kept.ite
    | (fail_if_no_progress (with_reducible apply State.Kept.upd)))

theorem execEnsRejoin_kept (s : State) (h0 : s.Kept ql zf) :
    NextKept (execEnsRejoin s) ql zf := by
  unfold execEnsRejoin
  repeat' (first
    | with_reducible assumption
    | apply nextKept_next
    | with_reducible apply State.Kept.ite
    | (fail_if_no_progress (with_reducible apply State.Kept.upd)))

theorem State.setFabState_kept (s : State) (t : FabState) (h0 : s.Kept ql zf) :
    (State.setFabState s t).Kept ql zf := by
  unfold State.setFabState
  repeat' (first | with_reducible assumption | with_reducible apply State.setFld_kept)

theorem State.syncLock_kept (s : State) (h0 : s.Kept ql zf) :
    (State.syncLock s).Kept ql zf := by
  unfold State.syncLock
  repeat' (first | with_reducible assumption | with_reducible apply State.setFld_kept)

theorem State.swapCheck_kept (s : State) (l : Nat) (h0 : s.Kept ql zf) :
    (State.swapCheck s l).2.Kept ql zf := by
  unfold State.swapCheck
  repeat' (first
    | with_reducible assumption
    | (dsimp only)
    | with_reducible apply State.setErr_kept
    | with_reducible apply State.admitOut_kept
    | split)

theorem State.swapPend_kept (s : State) (p : Piste) (a : Admission) (h0 : s.Kept ql zf) :
    (State.swapPend s p a).Kept ql zf := by
  unfold State.swapPend
  repeat' (first
    | with_reducible assumption
    | with_reducible apply State.syncLock_kept
    | with_reducible apply State.setFld_kept
    | with_reducible apply State.updFab_kept)

theorem State.swapDrop_kept (s : State) (h0 : s.Kept ql zf) :
    (State.swapDrop s).Kept ql zf := by
  unfold State.swapDrop
  repeat' (first
    | with_reducible assumption
    | with_reducible apply State.syncLock_kept
    | with_reducible apply State.setFld_kept
    | with_reducible apply State.updFab_kept)

theorem State.dropLines_kept (s : State) (old : Option Piste) (new : Piste) (drain : Bool) (h0 : s.Kept ql zf) :
    (State.dropLines s old new drain).Kept ql zf := by
  unfold State.dropLines
  repeat' (first
    | with_reducible assumption
    | with_reducible apply State.Kept.ite
    | (fail_if_no_progress (with_reducible apply State.Kept.upd)))

theorem State.swapApply_kept (s : State) (h0 : s.Kept ql zf) :
    (State.swapApply s).Kept ql zf := by
  unfold State.swapApply
  repeat' (first
    | with_reducible assumption
    | with_reducible apply State.setFld_kept
    | with_reducible apply State.swapDrop_kept
    | with_reducible apply State.updFab_kept
    | with_reducible apply State.raise_kept
    | with_reducible apply State.allocLine_kept
    | with_reducible apply State.dropLines_kept
    | with_reducible apply State.syncLock_kept
    | with_reducible apply State.Kept.foldl
    | with_reducible apply State.Kept.ite
    | split)

theorem State.endXover_kept (s : State) (h0 : s.Kept ql zf) :
    (State.endXover s).Kept ql zf := by
  unfold State.endXover
  repeat' (first
    | with_reducible assumption
    | with_reducible apply State.updFab_kept
    | with_reducible apply State.raise_kept
    | with_reducible apply State.syncLock_kept
    | with_reducible apply State.setFld_kept
    | (fail_if_no_progress (with_reducible apply State.Kept.upd)))

theorem State.markObject_kept (s : State) (b : Nat) (h0 : s.Kept ql zf) :
    (State.markObject s b).Kept ql zf := by
  unfold State.markObject
  repeat' (first | with_reducible assumption | with_reducible apply State.updFab_kept)

theorem State.objectClear_kept (s : State) (b : Nat) (h0 : s.Kept ql zf) :
    (State.objectClear s b).Kept ql zf := by
  unfold State.objectClear
  repeat' (first | with_reducible assumption | with_reducible apply State.updFab_kept | with_reducible apply State.Kept.ite)

theorem State.genRestart_kept (s : State) (j : Nat) (h0 : s.Kept ql zf) :
    (State.genRestart s j).Kept ql zf := by
  unfold State.genRestart
  repeat' (first | with_reducible assumption | with_reducible apply State.updFab_kept)

theorem State.paramApply_kept (s : State) (a v : Nat) (h0 : s.Kept ql zf) :
    (State.paramApply s a v).Kept ql zf := by
  unfold State.paramApply
  repeat' (first
    | with_reducible assumption
    | with_reducible apply State.store_kept
    | with_reducible apply State.markObject_kept
    | with_reducible apply State.objectClear_kept
    | with_reducible apply State.aimGain_kept
    | with_reducible apply State.genRestart_kept
    | with_reducible apply State.Kept.ite
    | split)

theorem State.flushParams_kept (s : State) (h0 : s.Kept ql zf) :
    (State.flushParams s).Kept ql zf := by
  unfold State.flushParams
  repeat' (first
    | with_reducible assumption
    | (intro _)
    | with_reducible apply State.paramApply_kept
    | with_reducible apply State.Kept.foldl
    | (fail_if_no_progress (with_reducible apply State.Kept.upd)))

theorem State.paramWrite_kept (s : State) (a v : Nat) (h0 : s.Kept ql zf) :
    (State.paramWrite s a v).Kept ql zf := by
  unfold State.paramWrite
  repeat' (first
    | with_reducible assumption
    | with_reducible apply State.paramApply_kept
    | with_reducible apply State.Kept.ite
    | (fail_if_no_progress (with_reducible apply State.Kept.upd)))

theorem State.fabStart_kept (s : State) (h0 : s.Kept ql zf) :
    (State.fabStart s).Kept ql zf := by
  unfold State.fabStart
  repeat' (first
    | with_reducible assumption
    | with_reducible apply State.setErr_kept
    | with_reducible apply State.setFld_kept
    | with_reducible apply State.admitOut_kept
    | with_reducible apply State.updFab_kept
    | with_reducible apply State.setFabState_kept
    | with_reducible apply State.allocLine_kept
    | with_reducible apply State.Kept.foldl
    | with_reducible apply State.Kept.ite
    | split)

theorem State.takeRun_kept (s : State) (h0 : s.Kept ql zf) :
    (State.takeRun s).Kept ql zf := by
  unfold State.takeRun
  repeat' (first
    | with_reducible assumption
    | (intro hq; exact Port.Balanced.same hq rfl rfl rfl rfl)
    | (dsimp only)
    | (intro _)
    | with_reducible apply State.setFld_kept
    | with_reducible apply State.updFab_kept
    | with_reducible apply State.Kept.foldl
    | (refine State.Kept.of_snd (by assumption) ?_)
    | (refine State.Kept.of_snd2 (by assumption) ?_)
    | (refine State.Kept.of_snd3 (by assumption) ?_)
    | (refine State.Kept.of_mid (by assumption) ?_)
    | with_reducible apply State.Kept.ite
    | split
    | (fail_if_no_progress (with_reducible apply State.Kept.upd)))

theorem State.fabStopped_kept (s : State) (h0 : s.Kept ql zf) :
    (State.fabStopped s).Kept ql zf := by
  unfold State.fabStopped
  repeat' (first
    | with_reducible assumption
    | with_reducible apply State.setFabState_kept
    | with_reducible apply State.updFab_kept
    | with_reducible apply State.takeRun_kept
    | with_reducible apply State.flushParams_kept
    | with_reducible apply State.raise_kept
    | with_reducible apply State.fabStart_kept
    | with_reducible apply State.Kept.ite
    | (fail_if_no_progress (with_reducible apply State.Kept.upd)))

theorem State.fabStopping_kept (s : State) (h0 : s.Kept ql zf) :
    (State.fabStopping s).Kept ql zf := by
  unfold State.fabStopping
  repeat' (first
    | with_reducible assumption
    | with_reducible apply State.endXover_kept
    | with_reducible apply State.setFabState_kept
    | with_reducible apply State.updFab_kept
    | with_reducible apply State.Kept.ite)

theorem State.stopDue_kept (s : State) (h0 : s.Kept ql zf) :
    (State.stopDue s).Kept ql zf := by
  unfold State.stopDue
  repeat' (first
    | with_reducible assumption
    | (intro hq; exact Port.Balanced.same hq rfl rfl rfl rfl)
    | (dsimp only)
    | (intro _)
    | with_reducible apply State.takeRun_kept
    | with_reducible apply State.fabStopping_kept
    | with_reducible apply State.fabStopped_kept
    | with_reducible apply State.Kept.foldl
    | (refine State.Kept.of_snd (by assumption) ?_)
    | (refine State.Kept.of_snd2 (by assumption) ?_)
    | (refine State.Kept.of_snd3 (by assumption) ?_)
    | (refine State.Kept.of_mid (by assumption) ?_)
    | with_reducible apply State.Kept.ite
    | split
    | (fail_if_no_progress (with_reducible apply State.Kept.upd)))

theorem State.fabCtrlWrite_kept (s : State) (v : Nat) (h0 : s.Kept ql zf) :
    (State.fabCtrlWrite s v).Kept ql zf := by
  unfold State.fabCtrlWrite
  repeat' (first
    | with_reducible assumption
    | with_reducible apply State.setFld_kept
    | with_reducible apply State.fabStart_kept
    | with_reducible apply State.setErr_kept
    | with_reducible apply State.updFab_kept
    | with_reducible apply State.Kept.ite
    | split)

theorem State.copyPiste_kept (s : State) (h0 : s.Kept ql zf) :
    (State.copyPiste s).Kept ql zf := by
  refine ⟨⟨h0.canonical.regs, ?_, h0.canonical.vers⟩, h0.credited, h0.queue, h0.fuses⟩
  have hm := h0.canonical.mem
  unfold State.copyPiste
  dsimp only
  generalize pisteBase s.runPiste = src
  generalize pisteBase s.idlePiste = dst
  refine ⟨?_, ?_⟩
  · rw [List.pairwise_append, List.pairwise_append]
    refine ⟨⟨hm.1.filter _, ?_, ?_⟩, hm.1.filter _, ?_⟩
    · rw [List.pairwise_map]
      refine List.pairwise_filter.2 (hm.1.imp ?_)
      intro a b h ha hb
      simp only [Bool.and_eq_true, decide_eq_true_eq] at ha hb
      dsimp only
      omega
    · intro a ha b hb
      simp only [List.mem_filter, List.mem_map, Bool.and_eq_true, decide_eq_true_eq] at ha hb
      obtain ⟨x, ⟨hx, hx2⟩, rfl⟩ := hb
      dsimp only
      omega
    · intro a ha b hb
      simp only [List.mem_append, List.mem_filter, List.mem_map, Bool.and_eq_true, decide_eq_true_eq] at ha hb
      rcases ha with ha | ⟨x, ⟨hx, hx2⟩, rfl⟩
      · omega
      · dsimp only
        omega
  · intro e he
    simp only [List.mem_append, List.mem_filter, List.mem_map, Bool.and_eq_true, decide_eq_true_eq] at he
    rcases he with (he | ⟨x, ⟨hx, hx2⟩, rfl⟩) | he
    · exact hm.2 e he.1
    · exact hm.2 x hx
    · exact hm.2 e he.1

theorem State.copyStart_kept (s : State) (h0 : s.Kept ql zf) :
    (State.copyStart s).Kept ql zf := by
  unfold State.copyStart
  repeat' (first
    | with_reducible assumption
    | with_reducible apply State.setErr_kept
    | with_reducible apply State.syncLock_kept
    | with_reducible apply State.setFld_kept
    | with_reducible apply State.copyPiste_kept
    | with_reducible apply State.Kept.ite)

theorem State.checkStart_kept (s : State) (h0 : s.Kept ql zf) :
    (State.checkStart s).Kept ql zf := by
  unfold State.checkStart
  repeat' (first | with_reducible assumption | with_reducible apply State.setFld_kept | with_reducible apply State.updFab_kept)

theorem State.mixXover_kept (s : State) (i l : Nat) (law : Bool) (old new : Sample) (h0 : s.Kept ql zf) :
    (State.mixXover s i l law old new).2.Kept ql zf := by
  unfold State.mixXover
  repeat' (first | with_reducible assumption | (dsimp only) | with_reducible apply State.divFree_kept | split)

theorem StageRun.s_kept (self : StageRun) (h0 : self.s.Kept ql zf) :
    (StageRun.s self).Kept ql zf := by
  unfold StageRun.s
  repeat' (first | with_reducible assumption)

theorem StageRun.missed_kept (x : StageRun) (id : Nat) (h0 : x.s.Kept ql zf) :
    (StageRun.missed x id).s.Kept ql zf := by
  unfold StageRun.missed
  repeat' (first
    | with_reducible assumption
    | (dsimp only)
    | with_reducible apply StageRun.s_kept
    | with_reducible apply State.updFab_kept)

theorem StageRun.done_kept (x : StageRun) (r : TickRun) (id : Nat) (y : Sample) (h0 : x.s.Kept ql zf) :
    (StageRun.done x r id y).s.Kept ql zf := by
  unfold StageRun.done
  repeat' (first
    | with_reducible assumption
    | (dsimp only)
    | with_reducible apply StageRun.s_kept
    | with_reducible apply State.updFab_kept)

theorem StageRun.prog_kept (r : TickRun) (x : StageRun) (p : Prog) (h1 : x.s.Kept ql zf) :
    (StageRun.prog r x p).s.Kept ql zf := by
  unfold StageRun.prog
  split
  · split
    · exact h1
    · exact State.runGen_kept _ _ h1
  · split
    · exact StageRun.missed_kept _ _ h1
    · have hp := State.runProg_kept x.s p.id p.items false [] h1
      generalize x.s.runProg p.id p.items false [] = z at hp ⊢
      obtain ⟨y, t, taps⟩ := z
      dsimp only at hp ⊢
      split
      · next hh =>
        refine StageRun.done_kept _ _ _ _ ?_
        refine State.mixXover_kept _ _ _ _ _ _ ?_
        split
        · exact State.runProg_kept _ _ _ _ _ hp
        · exact hp
      · exact StageRun.done_kept _ _ _ _ hp

theorem StageRun.oldProg_kept (r : TickRun) (x : StageRun) (q : Prog) (h1 : x.s.Kept ql zf) :
    (StageRun.oldProg r x q).s.Kept ql zf := by
  unfold StageRun.oldProg
  split
  · exact StageRun.missed_kept _ _ h1
  · have hp := State.runProg_kept x.s q.id q.items true [] h1
    generalize x.s.runProg q.id q.items true [] = z at hp ⊢
    dsimp only
    exact StageRun.done_kept _ _ _ _ (State.mixXover_kept _ _ _ _ _ _ hp)

theorem StageRun.stage_kept (r : TickRun) (p : Piste) (x : StageRun) (k : Nat) (h2 : x.s.Kept ql zf) :
    (StageRun.stage r p x k).s.Kept ql zf := by
  have hf : ∀ (f : StageRun → Prog → StageRun), (∀ y q, y.s.Kept ql zf → (f y q).s.Kept ql zf) → ∀ (l : List Prog) (y : StageRun), y.s.Kept ql zf → (l.foldl f y).s.Kept ql zf := by
    intro f hf l
    induction l with
    | nil => exact fun y h => h
    | cons q l ih => exact fun y h => ih _ (hf y q h)
  unfold StageRun.stage
  extract_lets +onlyGivenNames y z
  have hz : z.s.Kept ql zf := (hf _ (fun y q h => StageRun.oldProg_kept r y q h) _ _ (hf _ (fun y q h => StageRun.prog_kept r y q h) _ _ (by exact h2)))
  with_reducible apply State.updFab_kept
  exact hz

theorem State.clearIdle_kept (s : State) (p : Piste) (h0 : s.Kept ql zf) :
    (State.clearIdle s p).Kept ql zf := by
  unfold State.clearIdle
  repeat' (first | with_reducible assumption | with_reducible apply State.updFab_kept)

theorem State.takeMarks_kept (s : State) (h0 : s.Kept ql zf) :
    (State.takeMarks s).Kept ql zf := by
  unfold State.takeMarks
  repeat' (first
    | with_reducible assumption
    | (intro _)
    | with_reducible apply State.updFab_kept
    | with_reducible apply State.Kept.foldl)

theorem State.busEvents_kept (s : State) (before : Vector BusScale 64) (h0 : s.Kept ql zf) :
    (State.busEvents s before).Kept ql zf := by
  unfold State.busEvents
  repeat' (first
    | with_reducible assumption
    | (intro _)
    | with_reducible apply State.raise_kept
    | with_reducible apply State.Kept.foldl
    | with_reducible apply State.Kept.ite)

theorem State.passScales_kept (s : State) (p : Piste) (h0 : s.Kept ql zf) :
    (State.passScales s p).Kept ql zf := by
  unfold State.passScales
  repeat' (first
    | with_reducible assumption
    | (intro hq; exact Port.Balanced.same hq rfl rfl rfl rfl)
    | (dsimp only)
    | (intro _)
    | with_reducible apply State.updFab_kept
    | with_reducible apply State.Kept.foldl
    | (refine State.Kept.of_snd (by assumption) ?_)
    | (refine State.Kept.of_snd2 (by assumption) ?_)
    | (refine State.Kept.of_snd3 (by assumption) ?_)
    | (refine State.Kept.of_mid (by assumption) ?_)
    | with_reducible apply State.Kept.ite
    | split
    | (fail_if_no_progress (with_reducible apply State.Kept.upd)))

theorem State.gateMiss_kept (s : State) (m : GateMiss) (h0 : s.Kept ql zf) :
    (State.gateMiss s m).Kept ql zf := by
  unfold State.gateMiss
  repeat' (first
    | with_reducible assumption
    | with_reducible apply State.setReg_kept
    | with_reducible apply State.countSat_kept
    | with_reducible apply State.setFld_kept
    | with_reducible apply State.raise_kept)

theorem State.endFabTick_kept (s : State) (r : TickRun) (h0 : s.Kept ql zf) :
    (State.endFabTick s r).Kept ql zf := by
  unfold State.endFabTick
  repeat' (first
    | with_reducible assumption
    | with_reducible apply State.setFld_kept
    | with_reducible apply State.gateMiss_kept
    | with_reducible apply State.updFab_kept
    | with_reducible apply State.Kept.ite
    | split)

theorem State.deliverSinks_kept (s : State) (h0 : s.Kept ql zf) :
    (State.deliverSinks s).Kept ql zf := by
  unfold State.deliverSinks
  repeat' (first | with_reducible assumption | (fail_if_no_progress (with_reducible apply State.Kept.upd)))

theorem State.fabTick_kept (s : State) (miss : Option GateMiss) (h0 : s.Kept ql zf) :
    (State.fabTick s miss).Kept ql zf := by
  have hf : ∀ (r : TickRun) (p : Piste) (l : List Nat) (y : StageRun), y.s.Kept ql zf → (l.foldl (StageRun.stage r p) y).s.Kept ql zf := by
    intro r p l
    induction l with
    | nil => exact fun y h => h
    | cons q l ih => exact fun y h => ih _ (StageRun.stage_kept r p y q h)
  have hp : ∀ (g : Glide), ({ s with pll := { s.pll with snap := g } } : State).Kept ql zf := fun g => State.Kept.congr h0 rfl rfl rfl rfl
  unfold State.fabTick
  split
  · exact h0
  · exact State.deliverSinks_kept _ (State.endFabTick_kept _ _ (State.busEvents_kept _ _ (State.passScales_kept _ _ (State.updFab_kept _ _ (hf _ _ _ _
      (State.clearIdle_kept _ _ (State.takeMarks_kept _ (State.stepGains_kept _ (State.updFab_kept _ _ (hp _))))))))))

theorem State.fabFirst_kept (s : State) (h0 : s.Kept ql zf) :
    (State.fabFirst s).Kept ql zf := by
  unfold State.fabFirst
  repeat' (first
    | with_reducible assumption
    | with_reducible apply State.raise_kept
    | with_reducible apply State.setFabState_kept
    | with_reducible apply State.updFab_kept
    | (fail_if_no_progress (with_reducible apply State.Kept.upd)))

theorem execFabricStopped_kept (s : State) (h0 : s.Kept ql zf) :
    NextKept (execFabricStopped s) ql zf := by
  unfold execFabricStopped
  repeat' (first
    | with_reducible assumption
    | with_reducible apply State.fabStopped_kept
    | apply nextKept_next
    | with_reducible apply State.Kept.ite)

theorem execCopyDone_kept (s : State) (h0 : s.Kept ql zf) :
    NextKept (execCopyDone s) ql zf := by
  unfold execCopyDone
  repeat' (first
    | with_reducible assumption
    | with_reducible apply State.raise_kept
    | with_reducible apply State.syncLock_kept
    | with_reducible apply State.setFld_kept
    | apply nextKept_next
    | with_reducible apply State.Kept.ite)

theorem execXoverEnd_kept (s : State) (h0 : s.Kept ql zf) :
    NextKept (execXoverEnd s) ql zf := by
  unfold execXoverEnd
  repeat' (first
    | with_reducible assumption
    | with_reducible apply State.endXover_kept
    | apply nextKept_next
    | with_reducible apply State.Kept.ite)

theorem execCheckDone_kept (s : State) (h0 : s.Kept ql zf) :
    NextKept (execCheckDone s) ql zf := by
  unfold execCheckDone
  repeat' (first
    | with_reducible assumption
    | with_reducible apply State.raise_kept
    | with_reducible apply State.setFld_kept
    | with_reducible apply State.updFab_kept
    | with_reducible apply State.admitOut_kept
    | apply nextKept_next
    | split)

theorem execGainTargetWrite_kept (slot : Fin 4096) (v : Word) (s : State) (h2 : s.Kept ql zf) :
    NextKept (execGainTargetWrite slot v s) ql zf := by
  unfold execGainTargetWrite
  repeat' (first
    | with_reducible assumption
    | with_reducible apply State.store_kept
    | with_reducible apply State.aimGain_kept
    | apply nextKept_next
    | with_reducible apply State.Kept.ite)

theorem execObjectWrite_kept (addr v : Word) (s : State) (h2 : s.Kept ql zf) :
    NextKept (execObjectWrite addr v s) ql zf := by
  unfold execObjectWrite
  repeat' (first
    | with_reducible assumption
    | with_reducible apply State.paramApply_kept
    | apply nextKept_next
    | with_reducible apply State.Kept.ite)

theorem execObjectReset_kept (addr : Word) (s : State) (h1 : s.Kept ql zf) :
    NextKept (execObjectReset addr s) ql zf := by
  unfold execObjectReset
  repeat' (first | with_reducible assumption | with_reducible apply State.paramApply_kept | apply nextKept_next | split)

theorem execDelayChange_kept (l : Fin 512) (v : Word) (s : State) (h2 : s.Kept ql zf) :
    NextKept (execDelayChange l v s) ql zf := by
  unfold execDelayChange
  repeat' (first
    | with_reducible assumption
    | with_reducible apply State.paramApply_kept
    | apply nextKept_next
    | with_reducible apply State.Kept.ite)

theorem execGeneratorRestart_kept (g : Fin 16) (s : State) (h1 : s.Kept ql zf) :
    NextKept (execGeneratorRestart g s) ql zf := by
  unfold execGeneratorRestart
  repeat' (first
    | with_reducible assumption
    | with_reducible apply State.genRestart_kept
    | apply nextKept_next
    | with_reducible apply State.Kept.ite)

theorem execLineFilled_kept (l : Fin 512) (s : State) (h1 : s.Kept ql zf) :
    NextKept (execLineFilled l s) ql zf := by
  unfold execLineFilled
  repeat' (first
    | with_reducible assumption
    | with_reducible apply State.raise_kept
    | apply nextKept_next
    | with_reducible apply State.Kept.ite
    | (fail_if_no_progress (with_reducible apply State.Kept.upd)))

theorem execSweepEnd_kept (g : Fin 16) (s : State) (h1 : s.Kept ql zf) :
    NextKept (execSweepEnd g s) ql zf := by
  unfold execSweepEnd
  repeat' (first
    | with_reducible assumption
    | with_reducible apply State.raise_kept
    | with_reducible apply State.updFab_kept
    | apply nextKept_next
    | with_reducible apply State.Kept.ite)

end Sys2Proof.Machine
end

