-- ==== Sys2Proof/Laws/KeptAnalog.lean ====
section
/-!
SUPPORT. What commands keep (Kept): outputs, jacks and the housekeeping converter.
-/
namespace Sys2Proof.Machine

variable {ql : List Instr} {zf : BitVec 512}

theorem State.setOutStep_kept (s : State) (o : OutId) (t : OutStep) (h0 : s.Kept ql zf) :
    (State.setOutStep s o t).Kept ql zf := by
  unfold State.setOutStep
  repeat' (first | with_reducible assumption | with_reducible apply State.updOut_kept)

theorem State.mapOutGains_kept (s : State) (o : OutId) (f : Nat → Glide → Glide) (h0 : s.Kept ql zf) :
    (State.mapOutGains s o f).Kept ql zf := by
  unfold State.mapOutGains
  repeat' (first
    | with_reducible assumption
    | (intro _)
    | with_reducible apply State.setGain_kept
    | with_reducible apply State.Kept.foldl)

theorem State.outStart_kept (s : State) (o : OutId) (h0 : s.Kept ql zf) :
    (State.outStart s o).Kept ql zf := by
  unfold State.outStart
  repeat' (first
    | with_reducible assumption
    | with_reducible apply State.setOutState_kept
    | with_reducible apply State.setOutStep_kept
    | with_reducible apply State.Kept.ite
    | split
    | (fail_if_no_progress (with_reducible apply State.Kept.upd)))

theorem State.outCfgApply_kept (s : State) (n : Fin 16) (h0 : s.Kept ql zf) :
    (State.outCfgApply s n).Kept ql zf := by
  unfold State.outCfgApply
  repeat' (first
    | with_reducible assumption
    | with_reducible apply State.dropHeld_kept
    | with_reducible apply State.storeFld_kept
    | split)

theorem State.outRest_kept (s : State) (o : OutId) (h0 : s.Kept ql zf) :
    (State.outRest s o).Kept ql zf := by
  unfold State.outRest
  repeat' (first
    | with_reducible assumption
    | with_reducible apply State.updOut_kept
    | with_reducible apply State.setOutState_kept
    | with_reducible apply State.mapOutGains_kept
    | with_reducible apply State.outCfgApply_kept
    | with_reducible apply State.setFld_kept
    | split)

theorem State.outOff_kept (s : State) (o : OutId) (h0 : s.Kept ql zf) :
    (State.outOff s o).Kept ql zf := by
  unfold State.outOff
  repeat' (first
    | with_reducible assumption
    | with_reducible apply State.raise_kept
    | with_reducible apply State.outRest_kept
    | with_reducible apply State.outStart_kept
    | with_reducible apply State.Kept.ite)

theorem State.outEnWrite_kept (s : State) (o : OutId) (on : Bool) (h0 : s.Kept ql zf) :
    (State.outEnWrite s o on).Kept ql zf := by
  unfold State.outEnWrite
  repeat' (first
    | with_reducible assumption
    | (dsimp only)
    | with_reducible apply State.outOff_kept
    | with_reducible apply State.setFld_kept
    | with_reducible apply State.outStart_kept
    | with_reducible apply State.setOutStep_kept
    | with_reducible apply State.setOutState_kept
    | with_reducible apply State.mapOutGains_kept
    | split)

theorem State.outFault_kept (s : State) (o : OutId) (h0 : s.Kept ql zf) :
    (State.outFault s o).Kept ql zf := by
  unfold State.outFault
  repeat' (first
    | with_reducible assumption
    | with_reducible apply State.setOutStep_kept
    | with_reducible apply State.setOutState_kept
    | with_reducible apply State.mapOutGains_kept
    | with_reducible apply State.hpFade_kept
    | with_reducible apply State.raise_kept
    | split)

theorem State.setCpOk_kept (s : State) (b : Bool) (h0 : s.Kept ql zf) :
    (State.setCpOk s b).Kept ql zf := by
  unfold State.setCpOk
  repeat' (first
    | with_reducible assumption
    | (intro _)
    | with_reducible apply State.setFld_kept
    | with_reducible apply State.Kept.foldl)

theorem State.outSample_kept (s : State) (id a : Nat) (h0 : s.Kept ql zf) :
    (State.outSample s id a).2.2.Kept ql zf := by
  unfold State.outSample
  repeat' (first | with_reducible assumption | with_reducible apply State.toQ31_kept)

theorem State.servoTick_kept (s : State) (n : Fin 16) (v : Int) (h0 : s.Kept ql zf) :
    (State.servoTick s n v).Kept ql zf := by
  unfold State.servoTick
  repeat' (first
    | with_reducible assumption
    | (intro hq; exact Port.Balanced.same hq rfl rfl rfl rfl)
    | (dsimp only)
    | (intro _)
    | with_reducible apply State.free_kept
    | with_reducible apply State.freeInt_kept
    | with_reducible apply State.setSfld_kept
    | with_reducible apply State.updOut_kept
    | with_reducible apply State.Kept.foldl
    | (refine State.Kept.of_snd (by assumption) ?_)
    | (refine State.Kept.of_snd2 (by assumption) ?_)
    | (refine State.Kept.of_snd3 (by assumption) ?_)
    | (refine State.Kept.of_mid (by assumption) ?_)
    | with_reducible apply State.Kept.ite
    | split
    | (fail_if_no_progress (with_reducible apply State.Kept.upd)))

theorem State.lineDrive_kept (s : State) (n : Fin 16) (h0 : s.Kept ql zf) :
    (State.lineDrive s n).Kept ql zf := by
  unfold State.lineDrive
  repeat' (first
    | with_reducible assumption
    | with_reducible apply State.outSample_kept
    | with_reducible apply State.raise_kept
    | with_reducible apply State.servoTick_kept
    | with_reducible apply State.updOut_kept
    | with_reducible apply State.Kept.ite)

theorem State.hpInject_kept (s : State) (h : Fin 4) (h0 : s.Kept ql zf) :
    (State.hpInject s h).Kept ql zf := by
  unfold State.hpInject
  repeat' (first
    | with_reducible assumption
    | (intro hq; exact Port.Balanced.same hq rfl rfl rfl rfl)
    | (dsimp only)
    | (intro _)
    | with_reducible apply State.updOut_kept
    | with_reducible apply State.Kept.foldl
    | (refine State.Kept.of_snd (by assumption) ?_)
    | (refine State.Kept.of_snd2 (by assumption) ?_)
    | (refine State.Kept.of_snd3 (by assumption) ?_)
    | (refine State.Kept.of_mid (by assumption) ?_)
    | with_reducible apply State.Kept.ite
    | split
    | (fail_if_no_progress (with_reducible apply State.Kept.upd)))

theorem State.hpDrive_kept (s : State) (h : Fin 4) (h0 : s.Kept ql zf) :
    (State.hpDrive s h).Kept ql zf := by
  unfold State.hpDrive
  repeat' (first
    | with_reducible assumption
    | with_reducible apply State.outSample_kept
    | with_reducible apply State.raise_kept
    | with_reducible apply State.updOut_kept
    | with_reducible apply State.Kept.ite)

theorem State.outRun_kept (s : State) (o : OutId) (h0 : s.Kept ql zf) :
    (State.outRun s o).Kept ql zf := by
  unfold State.outRun
  repeat' (first
    | with_reducible assumption
    | (dsimp only)
    | with_reducible apply State.updOut_kept
    | with_reducible apply State.mapOutGains_kept
    | with_reducible apply State.freeInt_kept
    | with_reducible apply State.setSfld_kept
    | with_reducible apply State.lineDrive_kept
    | with_reducible apply State.hpInject_kept
    | with_reducible apply State.hpDrive_kept
    | split)

theorem State.outTick_kept (s : State) (o : OutId) (h0 : s.Kept ql zf) :
    (State.outTick s o).Kept ql zf := by
  unfold State.outTick
  repeat' (first
    | with_reducible assumption
    | with_reducible apply State.updOut_kept
    | with_reducible apply State.outRun_kept
    | with_reducible apply State.Kept.ite)

theorem State.outsTick_kept (s : State) (h0 : s.Kept ql zf) :
    (State.outsTick s).Kept ql zf := by
  unfold State.outsTick
  repeat' (first | with_reducible assumption | with_reducible apply State.outTick_kept | with_reducible apply State.Kept.foldl)

theorem State.classStart_kept (s : State) (j : Fin 20) (h0 : s.Kept ql zf) :
    (State.classStart s j).Kept ql zf := by
  unfold State.classStart
  repeat' (first
    | with_reducible assumption
    | with_reducible apply State.setFld_kept
    | with_reducible apply State.updJack_kept
    | with_reducible apply State.classFinal_kept
    | with_reducible apply State.diagRequest_kept
    | with_reducible apply State.tdacEnqueue_kept
    | with_reducible apply State.Kept.ite
    | split)

theorem State.classDrop_kept (s : State) (j : Fin 20) (h0 : s.Kept ql zf) :
    (State.classDrop s j).Kept ql zf := by
  unfold State.classDrop
  repeat' (first
    | with_reducible assumption
    | with_reducible apply State.updJack_kept
    | with_reducible apply State.diagForget_kept
    | with_reducible apply State.tdacUnqueue_kept
    | with_reducible apply State.Kept.ite
    | split)

theorem State.jackIn_kept (s : State) (j : Fin 20) (h0 : s.Kept ql zf) :
    (State.jackIn s j).Kept ql zf := by
  unfold State.jackIn
  repeat' (first
    | with_reducible assumption
    | with_reducible apply State.raise_kept
    | with_reducible apply State.setBit_kept
    | with_reducible apply State.setFld_kept
    | with_reducible apply State.trigger_kept
    | with_reducible apply State.classStart_kept
    | with_reducible apply State.classFinal_kept
    | with_reducible apply State.Kept.ite)

theorem State.buttonForget_kept (s : State) (j : Fin 20) (h0 : s.Kept ql zf) :
    (State.buttonForget s j).Kept ql zf := by
  unfold State.buttonForget
  repeat' (first | with_reducible assumption | with_reducible apply State.setFld_kept | with_reducible apply State.Kept.ite)

theorem State.jackOut_kept (s : State) (j : Fin 20) (h0 : s.Kept ql zf) :
    (State.jackOut s j).Kept ql zf := by
  unfold State.jackOut
  repeat' (first
    | with_reducible assumption
    | with_reducible apply State.raise_kept
    | with_reducible apply State.setBit_kept
    | with_reducible apply State.setFld_kept
    | with_reducible apply State.classFinal_kept
    | with_reducible apply State.classDrop_kept
    | with_reducible apply State.buttonForget_kept
    | with_reducible apply State.trigger_kept)

theorem State.reclassify_kept (s : State) (j : Fin 20) (h0 : s.Kept ql zf) :
    (State.reclassify s j).Kept ql zf := by
  unfold State.reclassify
  repeat' (first
    | with_reducible assumption
    | with_reducible apply State.classStart_kept
    | with_reducible apply State.classDrop_kept)

theorem State.classifyAll_kept (s : State) (h0 : s.Kept ql zf) :
    (State.classifyAll s).Kept ql zf := by
  unfold State.classifyAll
  repeat' (first
    | with_reducible assumption
    | (intro _)
    | with_reducible apply State.reclassify_kept
    | with_reducible apply State.classFinal_kept
    | with_reducible apply State.Kept.foldl
    | with_reducible apply State.Kept.ite)

theorem State.svcWake_kept (s : State) (h0 : s.Kept ql zf) :
    (State.svcWake s).Kept ql zf := by
  unfold State.svcWake
  repeat' (first
    | with_reducible assumption
    | (intro hq; exact Port.Balanced.same hq rfl rfl rfl rfl)
    | (dsimp only)
    | (intro _)
    | with_reducible apply State.classStart_kept
    | with_reducible apply State.Kept.foldl
    | (refine State.Kept.of_snd (by assumption) ?_)
    | (refine State.Kept.of_snd2 (by assumption) ?_)
    | (refine State.Kept.of_snd3 (by assumption) ?_)
    | (refine State.Kept.of_mid (by assumption) ?_)
    | with_reducible apply State.Kept.ite
    | split
    | (fail_if_no_progress (with_reducible apply State.Kept.upd)))

theorem State.jackRelease_kept (s : State) (h0 : s.Kept ql zf) :
    (State.jackRelease s).Kept ql zf := by
  unfold State.jackRelease
  repeat' (first
    | with_reducible assumption
    | with_reducible apply State.pipeResume_kept
    | with_reducible apply State.setFld_kept
    | (fail_if_no_progress (with_reducible apply State.Kept.upd)))

theorem State.imageTdac_kept (s : State) (h0 : s.Kept ql zf) :
    (State.imageTdac s).Kept ql zf := by
  unfold State.imageTdac
  repeat' (first
    | with_reducible assumption
    | (intro hq; exact Port.Balanced.same hq rfl rfl rfl rfl)
    | (dsimp only)
    | (intro _)
    | with_reducible apply State.jackRelease_kept
    | with_reducible apply State.updJack_kept
    | with_reducible apply State.hpUnfade_kept
    | with_reducible apply State.diagEnd_kept
    | with_reducible apply State.Kept.foldl
    | (refine State.Kept.of_snd (by assumption) ?_)
    | (refine State.Kept.of_snd2 (by assumption) ?_)
    | (refine State.Kept.of_snd3 (by assumption) ?_)
    | (refine State.Kept.of_mid (by assumption) ?_)
    | with_reducible apply State.Kept.ite
    | split
    | (fail_if_no_progress (with_reducible apply State.Kept.upd)))

theorem State.classifyEnd_kept (s : State) (h0 : s.Kept ql zf) :
    (State.classifyEnd s).Kept ql zf := by
  unfold State.classifyEnd
  repeat' (first
    | with_reducible assumption
    | (intro _)
    | with_reducible apply State.imageTdac_kept
    | with_reducible apply State.classDrop_kept
    | with_reducible apply State.setFld_kept
    | with_reducible apply State.Kept.foldl
    | with_reducible apply State.Kept.ite)

theorem State.poleDone_kept (s : State) (j : Fin 20) (r : PoleReading) (h0 : s.Kept ql zf) :
    (State.poleDone s j r).Kept ql zf := by
  unfold State.poleDone
  repeat' (first
    | with_reducible assumption
    | with_reducible apply State.jackRelease_kept
    | with_reducible apply State.updJack_kept
    | with_reducible apply State.classFinal_kept
    | with_reducible apply State.loadQueue_kept
    | split)

theorem State.loadDone_kept (s : State) (j : Fin 20) (r : LoadReading) (h0 : s.Kept ql zf) :
    (State.loadDone s j r).Kept ql zf := by
  unfold State.loadDone
  repeat' (first
    | with_reducible assumption
    | (intro hq; exact Port.Balanced.same hq rfl rfl rfl rfl)
    | (dsimp only)
    | (intro _)
    | with_reducible apply State.hpUnfade_kept
    | with_reducible apply State.jackRelease_kept
    | with_reducible apply State.updJack_kept
    | with_reducible apply State.setFld_kept
    | with_reducible apply State.classFinal_kept
    | with_reducible apply State.Kept.foldl
    | (refine State.Kept.of_snd (by assumption) ?_)
    | (refine State.Kept.of_snd2 (by assumption) ?_)
    | (refine State.Kept.of_snd3 (by assumption) ?_)
    | (refine State.Kept.of_mid (by assumption) ?_)
    | with_reducible apply State.Kept.ite
    | split
    | (fail_if_no_progress (with_reducible apply State.Kept.upd)))

theorem State.ruleSkip_kept (s : State) (h0 : s.Kept ql zf) :
    (State.ruleSkip s).Kept ql zf := by
  unfold State.ruleSkip
  repeat' (first
    | with_reducible assumption
    | with_reducible apply State.raise_kept
    | with_reducible apply State.countSat_kept)

theorem State.ruleAct_kept (s : State) (r : Fin 64) (a p : Nat) (h0 : s.Kept ql zf) :
    (State.ruleAct s r a p).Kept ql zf := by
  unfold State.ruleAct
  repeat' (first
    | with_reducible assumption
    | with_reducible apply State.countSat_kept
    | with_reducible apply State.setFld_kept
    | with_reducible apply State.bumpVer_kept
    | with_reducible apply State.Kept.ite
    | (fail_if_no_progress (with_reducible apply State.Kept.upd)))

theorem State.ruleFire_kept (s : State) (r : Fin 64) (h0 : s.Kept ql zf) :
    (State.ruleFire s r).Kept ql zf := by
  unfold State.ruleFire
  repeat' (first
    | with_reducible assumption
    | (dsimp only)
    | with_reducible apply State.ruleAct_kept
    | with_reducible apply State.ruleSkip_kept
    | split
    | (fail_if_no_progress (with_reducible apply State.Kept.upd)))

theorem State.lineCtrlWrite_kept (s : State) (n : Fin 16) (v : Nat) (h0 : s.Kept ql zf) :
    (State.lineCtrlWrite s n v).Kept ql zf := by
  unfold State.lineCtrlWrite
  repeat' (first
    | with_reducible assumption
    | with_reducible apply State.storeFld_kept
    | with_reducible apply State.hold_kept
    | with_reducible apply State.outEnWrite_kept
    | with_reducible apply State.Kept.ite)

theorem State.lineWrite_kept (s : State) (n : Fin 16) (o v : Nat) (h0 : s.Kept ql zf) :
    (State.lineWrite s n o v).Kept ql zf := by
  unfold State.lineWrite
  repeat' (first
    | with_reducible assumption
    | with_reducible apply State.lineCtrlWrite_kept
    | with_reducible apply State.store_kept
    | with_reducible apply State.Kept.ite)

theorem State.micWrite_kept (s : State) (h : Fin 4) (on : Bool) (i : Fin 16) (h0 : s.Kept ql zf) :
    (State.micWrite s h on i).Kept ql zf := by
  unfold State.micWrite
  repeat' (first
    | with_reducible assumption
    | (dsimp only)
    | with_reducible apply State.setFld_kept
    | with_reducible apply State.diagAbort_kept
    | with_reducible apply State.micAll_kept
    | split)

theorem State.biasWrite_kept (s : State) (h : Fin 4) (on : Bool) (h0 : s.Kept ql zf) :
    (State.biasWrite s h on).Kept ql zf := by
  unfold State.biasWrite
  repeat' (first | with_reducible assumption | with_reducible apply State.setFld_kept | with_reducible apply State.Kept.ite)

theorem State.hpCtrlWrite_kept (s : State) (h : Fin 4) (v : Nat) (h0 : s.Kept ql zf) :
    (State.hpCtrlWrite s h v).Kept ql zf := by
  unfold State.hpCtrlWrite
  repeat' (first
    | with_reducible assumption
    | with_reducible apply State.poleFollow_kept
    | with_reducible apply State.storeFld_kept
    | with_reducible apply State.outEnWrite_kept
    | with_reducible apply State.micWrite_kept
    | with_reducible apply State.biasWrite_kept)

theorem State.hpWrite_kept (s : State) (h : Fin 4) (o v : Nat) (h0 : s.Kept ql zf) :
    (State.hpWrite s h o v).Kept ql zf := by
  unfold State.hpWrite
  repeat' (first
    | with_reducible assumption
    | with_reducible apply State.hpCtrlWrite_kept
    | with_reducible apply State.store_kept
    | with_reducible apply State.Kept.ite)

theorem execOutputEnable_kept (o : OutId) (s : State) (h1 : s.Kept ql zf) :
    NextKept (execOutputEnable o s) ql zf := by
  unfold execOutputEnable
  repeat' (first
    | with_reducible assumption
    | with_reducible apply State.outEnWrite_kept
    | apply nextKept_next
    | with_reducible apply State.Kept.ite)

theorem execOutputDisable_kept (o : OutId) (s : State) (h1 : s.Kept ql zf) :
    NextKept (execOutputDisable o s) ql zf := by
  unfold execOutputDisable
  repeat' (first
    | with_reducible assumption
    | with_reducible apply State.outEnWrite_kept
    | apply nextKept_next
    | with_reducible apply State.Kept.ite)

theorem execLineRailRampDone_kept (n : Fin 16) (s : State) (h1 : s.Kept ql zf) :
    NextKept (execLineRailRampDone n s) ql zf := by
  unfold execLineRailRampDone
  repeat' (first
    | with_reducible assumption
    | with_reducible apply State.setOutStep_kept
    | apply nextKept_next
    | with_reducible apply State.Kept.ite)

theorem execChargePumpReady_kept (s : State) (h0 : s.Kept ql zf) :
    NextKept (execChargePumpReady s) ql zf := by
  unfold execChargePumpReady
  repeat' (first
    | with_reducible assumption
    | (intro _)
    | with_reducible apply State.setOutStep_kept
    | with_reducible apply State.setCpOk_kept
    | apply nextKept_next
    | with_reducible apply State.Kept.foldl
    | with_reducible apply State.Kept.ite)

theorem execOutputSettleDone_kept (o : OutId) (s : State) (h1 : s.Kept ql zf) :
    NextKept (execOutputSettleDone o s) ql zf := by
  unfold execOutputSettleDone
  repeat' (first
    | with_reducible assumption
    | with_reducible apply State.raise_kept
    | with_reducible apply State.setOutStep_kept
    | with_reducible apply State.setOutState_kept
    | with_reducible apply State.mapOutGains_kept
    | with_reducible apply State.hpFade_kept
    | with_reducible apply State.loadQueue_kept
    | apply nextKept_next
    | split)

theorem execOutputStopGlideDone_kept (o : OutId) (s : State) (h1 : s.Kept ql zf) :
    NextKept (execOutputStopGlideDone o s) ql zf := by
  unfold execOutputStopGlideDone
  repeat' (first
    | with_reducible assumption
    | with_reducible apply State.setOutStep_kept
    | with_reducible apply State.outOff_kept
    | apply nextKept_next
    | split)

theorem execLineRailDownDone_kept (n : Fin 16) (s : State) (h1 : s.Kept ql zf) :
    NextKept (execLineRailDownDone n s) ql zf := by
  unfold execLineRailDownDone
  repeat' (first
    | with_reducible assumption
    | with_reducible apply State.outOff_kept
    | apply nextKept_next
    | with_reducible apply State.Kept.ite)

theorem execChargePumpStop_kept (s : State) (h0 : s.Kept ql zf) :
    NextKept (execChargePumpStop s) ql zf := by
  unfold execChargePumpStop
  repeat' (first
    | with_reducible assumption
    | with_reducible apply State.setCpOk_kept
    | apply nextKept_next
    | with_reducible apply State.Kept.ite
    | (fail_if_no_progress (with_reducible apply State.Kept.upd)))

theorem execOutputCurrentLimit_kept (o : OutId) (s : State) (h1 : s.Kept ql zf) :
    NextKept (execOutputCurrentLimit o s) ql zf := by
  unfold execOutputCurrentLimit
  repeat' (first
    | with_reducible assumption
    | with_reducible apply State.raise_kept
    | apply nextKept_next
    | with_reducible apply State.Kept.ite)

theorem execOutputLimitTimeout_kept (o : OutId) (s : State) (h1 : s.Kept ql zf) :
    NextKept (execOutputLimitTimeout o s) ql zf := by
  unfold execOutputLimitTimeout
  repeat' (first
    | with_reducible assumption
    | with_reducible apply State.outFault_kept
    | apply nextKept_next
    | with_reducible apply State.Kept.ite)

theorem execServoLimit_kept (n : Fin 16) (s : State) (h1 : s.Kept ql zf) :
    NextKept (execServoLimit n s) ql zf := by
  unfold execServoLimit
  repeat' (first
    | with_reducible assumption
    | with_reducible apply State.free_kept
    | with_reducible apply State.raise_kept
    | with_reducible apply State.setSfld_kept
    | with_reducible apply State.updOut_kept
    | apply nextKept_next
    | with_reducible apply State.Kept.ite)

theorem execCpRailFault_kept (s : State) (h0 : s.Kept ql zf) :
    NextKept (execCpRailFault s) ql zf := by
  unfold execCpRailFault
  repeat' (first
    | with_reducible assumption
    | (intro _)
    | with_reducible apply State.updOut_kept
    | with_reducible apply State.setOutStep_kept
    | with_reducible apply State.setOutState_kept
    | with_reducible apply State.raise_kept
    | with_reducible apply State.setCpOk_kept
    | apply nextKept_next
    | with_reducible apply State.Kept.foldl
    | with_reducible apply State.Kept.ite)

theorem execInternalFadeDone_kept (h : Fin 4) (s : State) (h1 : s.Kept ql zf) :
    NextKept (execInternalFadeDone h s) ql zf := by
  unfold execInternalFadeDone
  repeat' (first
    | with_reducible assumption
    | with_reducible apply State.updOut_kept
    | with_reducible apply State.hpUnfade_kept
    | with_reducible apply State.setFld_kept
    | apply nextKept_next
    | with_reducible apply State.Kept.ite)

theorem execHpMicRoute_kept (h : Fin 4) (on : Bool) (input : Fin 16) (s : State) (h3 : s.Kept ql zf) :
    NextKept (execHpMicRoute h on input s) ql zf := by
  unfold execHpMicRoute
  repeat' (first
    | with_reducible assumption
    | with_reducible apply State.micWrite_kept
    | apply nextKept_next
    | with_reducible apply State.Kept.ite)

theorem execButtonPress_kept (h b : Fin 4) (s : State) (h2 : s.Kept ql zf) :
    NextKept (execButtonPress h b s) ql zf := by
  unfold execButtonPress
  repeat' (first
    | with_reducible assumption
    | with_reducible apply State.trigger_kept
    | with_reducible apply State.raise_kept
    | with_reducible apply State.setFld_kept
    | apply nextKept_next
    | with_reducible apply State.Kept.ite)

theorem execButtonRelease_kept (h : Fin 4) (s : State) (h1 : s.Kept ql zf) :
    NextKept (execButtonRelease h s) ql zf := by
  unfold execButtonRelease
  repeat' (first
    | with_reducible assumption
    | with_reducible apply State.trigger_kept
    | with_reducible apply State.raise_kept
    | with_reducible apply State.setFld_kept
    | apply nextKept_next
    | with_reducible apply State.Kept.ite)

theorem execJackLevelChange_kept (j : Fin 20) (high : Bool) (s : State) (h2 : s.Kept ql zf) :
    NextKept (execJackLevelChange j high s) ql zf := by
  unfold execJackLevelChange
  repeat' (first | with_reducible assumption | with_reducible apply State.updJack_kept | apply nextKept_next)

theorem execJackInsert_kept (j : Fin 20) (s : State) (h1 : s.Kept ql zf) :
    NextKept (execJackInsert j s) ql zf := by
  unfold execJackInsert
  repeat' (first
    | with_reducible assumption
    | with_reducible apply State.jackIn_kept
    | apply nextKept_next
    | with_reducible apply State.Kept.ite)

theorem execJackRemove_kept (j : Fin 20) (s : State) (h1 : s.Kept ql zf) :
    NextKept (execJackRemove j s) ql zf := by
  unfold execJackRemove
  repeat' (first
    | with_reducible assumption
    | with_reducible apply State.jackOut_kept
    | apply nextKept_next
    | with_reducible apply State.Kept.ite)

theorem execClassifyPoleTestDone_kept (j : Fin 20) (r : PoleReading) (s : State) (h2 : s.Kept ql zf) :
    NextKept (execClassifyPoleTestDone j r s) ql zf := by
  unfold execClassifyPoleTestDone
  repeat' (first | with_reducible assumption | with_reducible apply State.poleDone_kept | apply nextKept_next)

theorem execClassifyLoadTestDone_kept (j : Fin 20) (r : LoadReading) (s : State) (h2 : s.Kept ql zf) :
    NextKept (execClassifyLoadTestDone j r s) ql zf := by
  unfold execClassifyLoadTestDone
  repeat' (first
    | with_reducible assumption
    | with_reducible apply State.loadDone_kept
    | apply nextKept_next
    | with_reducible apply State.Kept.ite)

theorem execJackRuleFire_kept (r : Fin 64) (s : State) (h1 : s.Kept ql zf) :
    NextKept (execJackRuleFire r s) ql zf := by
  unfold execJackRuleFire
  repeat' (first
    | with_reducible assumption
    | with_reducible apply State.flushParams_kept
    | with_reducible apply State.ruleFire_kept
    | apply nextKept_next
    | with_reducible apply State.Kept.ite)

theorem State.judge_kept (s : State) (k : Nat) (v : Int) (h0 : s.Kept ql zf) :
    (State.judge s k v).Kept ql zf := by
  unfold State.judge
  repeat' (first
    | with_reducible assumption
    | with_reducible apply State.raise_kept
    | with_reducible apply State.setBit_kept
    | with_reducible apply State.Kept.ite)

theorem State.converted_kept (s : State) (c : Nat) (v : ConvReading) (settling : Bool) (h0 : s.Kept ql zf) :
    (State.converted s c v settling).Kept ql zf := by
  unfold State.converted
  repeat' (first
    | with_reducible assumption
    | (intro _)
    | with_reducible apply State.setReg_kept
    | with_reducible apply State.judge_kept
    | with_reducible apply State.Kept.foldl
    | with_reducible apply State.Kept.ite)

theorem State.putRecord_kept (s : State) (q : Nat) (bytes : List Byte) (h0 : s.Kept ql zf) :
    (State.putRecord s q bytes).Kept ql zf := by
  unfold State.putRecord
  repeat' (first
    | with_reducible assumption
    | with_reducible apply State.ringPut_kept
    | with_reducible apply State.raise_kept
    | with_reducible apply State.Kept.ite)

theorem State.pipeStamp_kept (s : State) (avg : Nat) (h0 : s.Kept ql zf) :
    (State.pipeStamp s avg).2.Kept ql zf := by
  unfold State.pipeStamp
  repeat' (first | with_reducible assumption | with_reducible apply State.divFree_kept)

theorem State.integStamp_kept (s : State) (t : Option Nat) (h0 : s.Kept ql zf) :
    (State.integStamp s t).2.Kept ql zf := by
  unfold State.integStamp
  repeat' (first
    | with_reducible assumption
    | with_reducible apply State.divFree_kept
    | with_reducible apply State.free_kept
    | split)

theorem State.seqTrigger_kept (s : State) (x : Fin 3) (h0 : s.Kept ql zf) :
    (State.seqTrigger s x).Kept ql zf := by
  unfold State.seqTrigger
  repeat' (first
    | with_reducible assumption
    | with_reducible apply State.setSeqState_kept
    | with_reducible apply State.raise_kept
    | with_reducible apply State.countSat_kept
    | with_reducible apply State.Kept.ite)

theorem State.seqArm_kept (s : State) (x : Fin 3) (h0 : s.Kept ql zf) :
    (State.seqArm s x).Kept ql zf := by
  unfold State.seqArm
  repeat' (first
    | with_reducible assumption
    | with_reducible apply State.setSeqState_kept
    | with_reducible apply State.setErr_kept
    | with_reducible apply State.Kept.ite)

theorem State.seqApplyHeld_kept (s : State) (x : Fin 3) (h0 : s.Kept ql zf) :
    (State.seqApplyHeld s x).Kept ql zf := by
  unfold State.seqApplyHeld
  repeat' (first
    | with_reducible assumption
    | (intro hq; exact Port.Balanced.same hq rfl rfl rfl rfl)
    | (dsimp only)
    | (intro _)
    | with_reducible apply State.applyHeld_kept
    | with_reducible apply State.dropHeld_kept
    | with_reducible apply State.storeFld_kept
    | with_reducible apply State.Kept.foldl
    | (refine State.Kept.of_snd (by assumption) ?_)
    | (refine State.Kept.of_snd2 (by assumption) ?_)
    | (refine State.Kept.of_snd3 (by assumption) ?_)
    | (refine State.Kept.of_mid (by assumption) ?_)
    | with_reducible apply State.Kept.ite
    | split
    | (fail_if_no_progress (with_reducible apply State.Kept.upd)))

theorem State.seqEnWrite_kept (s : State) (x : Fin 3) (on : Bool) (h0 : s.Kept ql zf) :
    (State.seqEnWrite s x on).Kept ql zf := by
  have ht : (s.setFld (Fd.HKSEQ_SEQ_CFG_ENABLE x) (bit on)).Kept ql zf := State.setFld_kept _ _ _ h0
  unfold State.seqEnWrite
  split
  · exact h0
  · extract_lets +onlyGivenNames t
    replace ht : t.Kept ql zf := ht
    clear_value t
    split
    · split
      · exact State.seqArm_kept _ _ ht
      · split
        · exact State.updSeq_kept _ _ _ ht
        · exact State.setErr_kept _ _ _ ht
    · split
      · exact State.seqApplyHeld_kept _ _ (State.updSeq_kept _ _ _ ht)
      · refine State.seqApplyHeld_kept _ _ ?_
        exact State.Kept.congr (State.setSeqState_kept t x seqOff ht) rfl rfl rfl rfl

theorem State.seqCfgWrite_kept (s : State) (x : Fin 3) (v : Nat) (h0 : s.Kept ql zf) :
    (State.seqCfgWrite s x v).Kept ql zf := by
  unfold State.seqCfgWrite
  repeat' (first
    | with_reducible assumption
    | with_reducible apply State.hold_kept
    | with_reducible apply State.storeFld_kept
    | with_reducible apply State.seqEnWrite_kept
    | with_reducible apply State.Kept.ite)

theorem State.seqTrigWrite_kept (s : State) (x : Fin 3) (v : Nat) (h0 : s.Kept ql zf) :
    (State.seqTrigWrite s x v).Kept ql zf := by
  unfold State.seqTrigWrite
  repeat' (first
    | with_reducible assumption
    | with_reducible apply State.hold_kept
    | with_reducible apply State.store_kept
    | with_reducible apply State.Kept.ite)

theorem State.runStop_kept (s : State) (x : Fin 3) (h0 : s.Kept ql zf) :
    (State.runStop s x).Kept ql zf := by
  unfold State.runStop
  repeat' (first
    | with_reducible assumption
    | (intro hq; exact Port.Balanced.same hq rfl rfl rfl rfl)
    | (dsimp only)
    | (intro _)
    | with_reducible apply State.updSeq_kept
    | with_reducible apply State.setSeqState_kept
    | with_reducible apply State.Kept.foldl
    | (refine State.Kept.of_snd (by assumption) ?_)
    | (refine State.Kept.of_snd2 (by assumption) ?_)
    | (refine State.Kept.of_snd3 (by assumption) ?_)
    | (refine State.Kept.of_mid (by assumption) ?_)
    | with_reducible apply State.Kept.ite
    | split
    | (fail_if_no_progress (with_reducible apply State.Kept.upd)))

theorem State.entryEnd_kept (s : State) (x : Fin 3) (h0 : s.Kept ql zf) :
    (State.entryEnd s x).Kept ql zf := by
  unfold State.entryEnd
  repeat' (first
    | with_reducible assumption
    | (intro hq; exact Port.Balanced.same hq rfl rfl rfl rfl)
    | (dsimp only)
    | (intro _)
    | with_reducible apply State.seqServeAll_kept
    | with_reducible apply State.runStop_kept
    | with_reducible apply State.entryStart_kept
    | with_reducible apply State.runEnd_kept
    | with_reducible apply State.Kept.foldl
    | (refine State.Kept.of_snd (by assumption) ?_)
    | (refine State.Kept.of_snd2 (by assumption) ?_)
    | (refine State.Kept.of_snd3 (by assumption) ?_)
    | (refine State.Kept.of_mid (by assumption) ?_)
    | with_reducible apply State.Kept.ite
    | split
    | (fail_if_no_progress (with_reducible apply State.Kept.upd)))

theorem State.entryDone_kept (s : State) (x : Fin 3) (v : ConvReading) (settling : Bool) (stamp : Nat) (h0 : s.Kept ql zf) :
    (State.entryDone s x v settling stamp).Kept ql zf := by
  unfold State.entryDone
  repeat' (first
    | with_reducible assumption
    | with_reducible apply State.converted_kept
    | with_reducible apply State.entryEnd_kept
    | with_reducible apply State.putRecord_kept)

theorem State.seqConv_kept (s : State) (x : Fin 3) (v : ConvReading) (h0 : s.Kept ql zf) :
    (State.seqConv s x v).Kept ql zf := by
  unfold State.seqConv
  repeat' (first
    | with_reducible assumption
    | with_reducible apply State.pipeStamp_kept
    | with_reducible apply State.entryDone_kept
    | with_reducible apply State.Kept.ite)

theorem State.urgentWrite_kept (s : State) (p : Fin 4) (v : Nat) (h0 : s.Kept ql zf) :
    (State.urgentWrite s p v).Kept ql zf := by
  unfold State.urgentWrite
  repeat' (first
    | with_reducible assumption
    | with_reducible apply State.store_kept
    | with_reducible apply State.setErr_kept
    | with_reducible apply State.pipePreempt_kept
    | with_reducible apply State.Kept.ite
    | (fail_if_no_progress (with_reducible apply State.Kept.upd)))

theorem State.urgentDone_kept (s : State) (v : ConvReading) (h0 : s.Kept ql zf) :
    (State.urgentDone s v).Kept ql zf := by
  unfold State.urgentDone
  repeat' (first
    | with_reducible assumption
    | with_reducible apply State.pipeStamp_kept
    | with_reducible apply State.converted_kept
    | with_reducible apply State.raise_kept
    | with_reducible apply State.putRecord_kept
    | with_reducible apply State.pipeResume_kept
    | split
    | (fail_if_no_progress (with_reducible apply State.Kept.upd)))

theorem State.winCfgWrite_kept (s : State) (k v : Nat) (h0 : s.Kept ql zf) :
    (State.winCfgWrite s k v).Kept ql zf := by
  unfold State.winCfgWrite
  repeat' (first
    | with_reducible assumption
    | with_reducible apply State.store_kept
    | with_reducible apply State.setBit_kept
    | with_reducible apply State.Kept.ite)

theorem State.mainsWrite_kept (s : State) (v : Nat) (h0 : s.Kept ql zf) :
    (State.mainsWrite s v).Kept ql zf := by
  unfold State.mainsWrite
  repeat' (first
    | with_reducible assumption
    | with_reducible apply State.store_kept
    | with_reducible apply State.setFld_kept
    | with_reducible apply State.Kept.ite)

theorem State.nextTick_kept (s : State) (a v : Nat) (h0 : s.Kept ql zf) :
    (State.nextTick s a v).Kept ql zf := by
  unfold State.nextTick
  repeat' (first
    | with_reducible assumption
    | with_reducible apply State.store_kept
    | with_reducible apply State.Kept.ite
    | (fail_if_no_progress (with_reducible apply State.Kept.upd)))

theorem State.hkaStart_kept (s : State) (h0 : s.Kept ql zf) :
    (State.hkaStart s).Kept ql zf := by
  unfold State.hkaStart
  repeat' (first
    | with_reducible assumption
    | (intro _)
    | with_reducible apply State.setFld_kept
    | with_reducible apply State.runStop_kept
    | with_reducible apply State.setSeqState_kept
    | with_reducible apply State.Kept.foldl
    | with_reducible apply State.Kept.ite
    | (fail_if_no_progress (with_reducible apply State.Kept.upd)))

theorem State.tdacRequest_kept (s : State) (p : Fin 4) (h0 : s.Kept ql zf) :
    (State.tdacRequest s p).Kept ql zf := by
  unfold State.tdacRequest
  repeat' (first
    | with_reducible assumption
    | with_reducible apply State.setErr_kept
    | with_reducible apply State.tdacEnqueue_kept
    | with_reducible apply State.setFld_kept
    | split)

theorem State.tdacGiveUp_kept (s : State) (p : Fin 4) (h0 : s.Kept ql zf) :
    (State.tdacGiveUp s p).Kept ql zf := by
  unfold State.tdacGiveUp
  repeat' (first
    | with_reducible assumption
    | with_reducible apply State.setFld_kept
    | with_reducible apply State.tdacUnqueue_kept
    | with_reducible apply State.Kept.ite
    | (fail_if_no_progress (with_reducible apply State.Kept.upd)))

theorem State.tdacLeaves_kept (s : State) (h0 : s.Kept ql zf) :
    (State.tdacLeaves s).Kept ql zf := by
  unfold State.tdacLeaves
  repeat' (first
    | with_reducible assumption
    | (intro hq; exact Port.Balanced.same hq rfl rfl rfl rfl)
    | (dsimp only)
    | (intro _)
    | with_reducible apply State.setFld_kept
    | with_reducible apply State.hpUnfade_kept
    | with_reducible apply State.Kept.foldl
    | (refine State.Kept.of_snd (by assumption) ?_)
    | (refine State.Kept.of_snd2 (by assumption) ?_)
    | (refine State.Kept.of_snd3 (by assumption) ?_)
    | (refine State.Kept.of_mid (by assumption) ?_)
    | with_reducible apply State.Kept.ite
    | split
    | (fail_if_no_progress (with_reducible apply State.Kept.upd)))

theorem State.tdacRouteWrite_kept (s : State) (p : Fin 4) (r : Nat) (h0 : s.Kept ql zf) :
    (State.tdacRouteWrite s p r).Kept ql zf := by
  have key : ∀ (v : State) (g : Nat), v.Kept ql zf → (match routeHp g with
      | some h => v.hpFade h
      | none => v : State).Kept ql zf := by
    intro v g hv
    split
    · exact State.hpFade_kept _ _ hv
    · exact hv
  have key2 : ∀ (u : State) (g : Nat), u.Kept ql zf → (match routeAin g with
      | some n => u.muteCause n .diag
      | none => u : State).Kept ql zf := by
    intro u g hu
    split
    · exact State.muteCause_kept _ _ _ hu
    · exact hu
  have key3 : ∀ (t : State) (d : Tdac), t.Kept ql zf → ({ t with tdac := d } : State).Kept ql zf := fun t d h => State.Kept.congr h rfl rfl rfl rfl
  have ht : (s.storeFld Fd.TDAC_CTRL_ROUTE r).Kept ql zf := State.storeFld_kept _ _ _ h0
  unfold State.tdacRouteWrite
  split
  · exact State.setErr_kept _ _ _ h0
  · extract_lets +onlyGivenNames t g
    replace ht : t.Kept ql zf := ht
    clear_value t g
    split
    · exact ht
    · exact key _ g (key2 _ g (key3 _ _ ht))

theorem State.tdacCodeWrite_kept (s : State) (p : Fin 4) (v : Nat) (h0 : s.Kept ql zf) :
    (State.tdacCodeWrite s p v).Kept ql zf := by
  unfold State.tdacCodeWrite
  repeat' (first
    | with_reducible assumption
    | with_reducible apply State.setErr_kept
    | with_reducible apply State.store_kept
    | with_reducible apply State.Kept.ite
    | (fail_if_no_progress (with_reducible apply State.Kept.upd)))

theorem State.tdacCtrlWrite_kept (s : State) (p : Fin 4) (v : Nat) (h0 : s.Kept ql zf) :
    (State.tdacCtrlWrite s p v).Kept ql zf := by
  unfold State.tdacCtrlWrite
  repeat' (first
    | with_reducible assumption
    | with_reducible apply State.tdacRouteWrite_kept
    | with_reducible apply State.tdacRequest_kept
    | with_reducible apply State.tdacGiveUp_kept
    | with_reducible apply State.Kept.ite)

theorem State.tdacServe_kept (s : State) (h0 : s.Kept ql zf) :
    (State.tdacServe s).Kept ql zf := by
  unfold State.tdacServe
  repeat' (first
    | with_reducible assumption
    | (dsimp only)
    | with_reducible apply State.diagBegin_kept
    | with_reducible apply State.raise_kept
    | with_reducible apply State.tdacUnqueue_kept
    | with_reducible apply State.pipePreempt_kept
    | with_reducible apply State.updJack_kept
    | with_reducible apply State.hpFade_kept
    | split
    | (fail_if_no_progress (with_reducible apply State.Kept.upd)))

theorem State.tdacRamped_kept (s : State) (h0 : s.Kept ql zf) :
    (State.tdacRamped s).Kept ql zf := by
  unfold State.tdacRamped
  repeat' (first
    | with_reducible assumption
    | (dsimp only)
    | with_reducible apply State.setFld_kept
    | with_reducible apply State.hpUnfade_kept
    | split
    | (fail_if_no_progress (with_reducible apply State.Kept.upd)))

theorem State.hkaWrite_kept (s : State) (p : Fin 4) (o v : Nat) (h0 : s.Kept ql zf) :
    (State.hkaWrite s p o v).Kept ql zf := by
  unfold State.hkaWrite
  repeat' (first
    | with_reducible assumption
    | with_reducible apply State.mainsWrite_kept
    | with_reducible apply State.urgentWrite_kept
    | with_reducible apply State.winCfgWrite_kept
    | with_reducible apply State.store_kept
    | with_reducible apply State.Kept.ite)

theorem State.hkseqWrite_kept (s : State) (o v : Nat) (h0 : s.Kept ql zf) :
    (State.hkseqWrite s o v).Kept ql zf := by
  unfold State.hkseqWrite
  repeat' (first
    | with_reducible assumption
    | (intro _)
    | with_reducible apply State.seqCfgWrite_kept
    | with_reducible apply State.seqTrigWrite_kept
    | with_reducible apply State.store_kept
    | with_reducible apply State.seqTrigger_kept
    | with_reducible apply State.Kept.foldl
    | with_reducible apply State.Kept.ite)

theorem State.tdacWrite_kept (s : State) (p : Fin 4) (o v : Nat) (h0 : s.Kept ql zf) :
    (State.tdacWrite s p o v).Kept ql zf := by
  unfold State.tdacWrite
  repeat' (first
    | with_reducible assumption
    | with_reducible apply State.tdacCtrlWrite_kept
    | with_reducible apply State.tdacCodeWrite_kept
    | with_reducible apply State.store_kept
    | with_reducible apply State.Kept.ite)

theorem execConversionDone_kept (q : Requester) (v : ConvReading) (s : State) (h2 : s.Kept ql zf) :
    NextKept (execConversionDone q v s) ql zf := by
  unfold execConversionDone
  repeat' (first
    | with_reducible assumption
    | with_reducible apply State.seqConv_kept
    | with_reducible apply State.urgentDone_kept
    | apply nextKept_next
    | split)

theorem execIntegrationDone_kept (v : ConvReading) (s : State) (h1 : s.Kept ql zf) :
    NextKept (execIntegrationDone v s) ql zf := by
  unfold execIntegrationDone
  repeat' (first
    | with_reducible assumption
    | with_reducible apply State.integStamp_kept
    | with_reducible apply State.entryDone_kept
    | apply nextKept_next
    | split)

theorem execCalStageDone_kept (ok : Bool) (s : State) (h1 : s.Kept ql zf) :
    NextKept (execCalStageDone ok s) ql zf := by
  unfold execCalStageDone
  repeat' (first
    | with_reducible assumption
    | with_reducible apply State.setFld_kept
    | with_reducible apply State.raise_kept
    | apply nextKept_next
    | with_reducible apply State.Kept.ite)

theorem execMainsLost_kept (s : State) (h0 : s.Kept ql zf) :
    NextKept (execMainsLost s) ql zf := by
  unfold execMainsLost
  repeat' (first
    | with_reducible assumption
    | with_reducible apply State.raise_kept
    | with_reducible apply State.setFld_kept
    | apply nextKept_next
    | with_reducible apply State.Kept.ite)

theorem execMainsMeasurementValid_kept (s : State) (us : optParam (BitVec 16) mainsPeriod) (h0 : s.Kept ql zf) :
    NextKept (execMainsMeasurementValid s us) ql zf := by
  unfold execMainsMeasurementValid
  repeat' (first
    | with_reducible assumption
    | with_reducible apply State.setFld_kept
    | apply nextKept_next
    | with_reducible apply State.Kept.ite)

theorem execHkaTimerFire_kept (k : Fin 4) (s : State) (h1 : s.Kept ql zf) :
    NextKept (execHkaTimerFire k s) ql zf := by
  unfold execHkaTimerFire
  repeat' (first
    | with_reducible assumption
    | (intro _)
    | with_reducible apply State.seqTrigger_kept
    | apply nextKept_next
    | with_reducible apply State.Kept.foldl
    | with_reducible apply State.Kept.ite)

theorem execPwmTrigger_kept (x : Fin 3) (s : State) (h1 : s.Kept ql zf) :
    NextKept (execPwmTrigger x s) ql zf := by
  unfold execPwmTrigger
  repeat' (first
    | with_reducible assumption
    | with_reducible apply State.seqTrigger_kept
    | apply nextKept_next
    | with_reducible apply State.Kept.ite)

theorem execSeqGo_kept (mask : BitVec 3) (s : State) (h1 : s.Kept ql zf) :
    NextKept (execSeqGo mask s) ql zf := by
  unfold execSeqGo
  repeat' (first
    | with_reducible assumption
    | with_reducible apply State.hkseqWrite_kept
    | apply nextKept_next
    | with_reducible apply State.Kept.ite)

theorem execSeqEnable_kept (x : Fin 3) (s : State) (h1 : s.Kept ql zf) :
    NextKept (execSeqEnable x s) ql zf := by
  unfold execSeqEnable
  repeat' (first
    | with_reducible assumption
    | with_reducible apply State.seqEnWrite_kept
    | apply nextKept_next
    | with_reducible apply State.Kept.ite)

theorem execSeqDisable_kept (x : Fin 3) (s : State) (h1 : s.Kept ql zf) :
    NextKept (execSeqDisable x s) ql zf := by
  unfold execSeqDisable
  repeat' (first
    | with_reducible assumption
    | with_reducible apply State.seqEnWrite_kept
    | apply nextKept_next
    | with_reducible apply State.Kept.ite)

theorem State.seqYield_kept (s : State) (x : Fin 3) (h0 : s.Kept ql zf) :
    (State.seqYield s x).Kept ql zf := by
  unfold State.seqYield
  repeat' (first
    | with_reducible assumption
    | (intro hq; exact Port.Balanced.same hq rfl rfl rfl rfl)
    | (dsimp only)
    | (intro _)
    | with_reducible apply State.setSeqState_kept
    | with_reducible apply State.Kept.foldl
    | (refine State.Kept.of_snd (by assumption) ?_)
    | (refine State.Kept.of_snd2 (by assumption) ?_)
    | (refine State.Kept.of_snd3 (by assumption) ?_)
    | (refine State.Kept.of_mid (by assumption) ?_)
    | with_reducible apply State.Kept.ite
    | split
    | (fail_if_no_progress (with_reducible apply State.Kept.upd)))

theorem execSeqDelayEnd_kept (x : Fin 3) (s : State) (h1 : s.Kept ql zf) :
    NextKept (execSeqDelayEnd x s) ql zf := by
  unfold execSeqDelayEnd
  repeat' (first
    | with_reducible assumption
    | with_reducible apply State.seqServe_kept
    | with_reducible apply State.seqYield_kept
    | apply nextKept_next
    | with_reducible apply State.Kept.ite
    | (fail_if_no_progress (with_reducible apply State.Kept.upd)))

theorem execHkaPop_kept (q : Fin 4) (s : State) (h1 : s.Kept ql zf) :
    NextKept (execHkaPop q s) ql zf := by
  unfold execHkaPop
  repeat' (first
    | with_reducible assumption
    | with_reducible apply State.answer_kept
    | with_reducible apply State.setReg_kept
    | with_reducible apply State.ringTake_kept
    | apply nextKept_next
    | with_reducible apply State.Kept.ite)

theorem execHkaPeek_kept (q : Fin 4) (s : State) (h1 : s.Kept ql zf) :
    NextKept (execHkaPeek q s) ql zf := by
  unfold execHkaPeek
  repeat' (first
    | with_reducible assumption
    | with_reducible apply State.answer_kept
    | with_reducible apply State.setReg_kept
    | apply nextKept_next
    | with_reducible apply State.Kept.ite)

theorem execTdacGrant_kept (s : State) (h0 : s.Kept ql zf) :
    NextKept (execTdacGrant s) ql zf := by
  unfold execTdacGrant
  repeat' (first | with_reducible assumption | with_reducible apply State.tdacServe_kept | apply nextKept_next)

theorem execTdacRampDone_kept (s : State) (h0 : s.Kept ql zf) :
    NextKept (execTdacRampDone s) ql zf := by
  unfold execTdacRampDone
  repeat' (first | with_reducible assumption | with_reducible apply State.tdacRamped_kept | apply nextKept_next)

end Sys2Proof.Machine
end

