-- ==== Sys2Proof/Laws/KeptBoot.lean ====
section
/-!
SUPPORT. What commands keep (Kept): amplifiers, rings, frames of ports, images and fuses.
-/
namespace Sys2Proof.Machine

variable {ql : List Instr} {zf : BitVec 512}

theorem State.setAmpState_kept (s : State) (n : Fin 4) (t : AmpState) (h0 : s.Kept ql zf) :
    (State.setAmpState s n t).Kept ql zf := by
  unfold State.setAmpState
  repeat' (first | with_reducible assumption | with_reducible apply State.setFld_kept)

theorem State.updAmp_kept (s : State) (n : Fin 4) (f : Amp → Amp) (h0 : s.Kept ql zf) :
    (State.updAmp s n f).Kept ql zf := by
  unfold State.updAmp
  repeat' (first | with_reducible assumption | (fail_if_no_progress (with_reducible apply State.Kept.upd)))

theorem State.ampsysFields_kept (s : State) (v : Nat) (h0 : s.Kept ql zf) :
    (State.ampsysFields s v).Kept ql zf := by
  unfold State.ampsysFields
  repeat' (first | with_reducible assumption | with_reducible apply State.storeFld_kept | with_reducible apply State.Kept.ite)

theorem State.ampsysApply_kept (s : State) (h0 : s.Kept ql zf) :
    (State.ampsysApply s).Kept ql zf := by
  unfold State.ampsysApply
  repeat' (first
    | with_reducible assumption
    | with_reducible apply State.ampsysFields_kept
    | with_reducible apply State.dropHeld_kept
    | with_reducible apply State.Kept.ite
    | split)

theorem State.ampCfgApply_kept (s : State) (n : Fin 4) (h0 : s.Kept ql zf) :
    (State.ampCfgApply s n).Kept ql zf := by
  unfold State.ampCfgApply
  repeat' (first | with_reducible assumption | with_reducible apply State.applyFld_kept)

theorem State.ampStill_kept (s : State) (n : Fin 4) (h0 : s.Kept ql zf) :
    (State.ampStill s n).Kept ql zf := by
  unfold State.ampStill
  repeat' (first
    | with_reducible assumption
    | with_reducible apply State.setGain_kept
    | with_reducible apply State.updAmp_kept)

theorem State.ampBegin_kept (s : State) (n : Fin 4) (h0 : s.Kept ql zf) :
    (State.ampBegin s n).Kept ql zf := by
  unfold State.ampBegin
  repeat' (first
    | with_reducible assumption
    | with_reducible apply State.pipePreempt_kept
    | with_reducible apply State.updAmp_kept
    | with_reducible apply State.setAmpState_kept)

theorem State.ampStart_kept (s : State) (n : Fin 4) (h0 : s.Kept ql zf) :
    (State.ampStart s n).Kept ql zf := by
  unfold State.ampStart
  repeat' (first
    | with_reducible assumption
    | with_reducible apply State.raise_kept
    | with_reducible apply State.updAmp_kept
    | with_reducible apply State.setFld_kept
    | with_reducible apply State.setAmpState_kept
    | with_reducible apply State.ampStill_kept
    | with_reducible apply State.ampBegin_kept
    | split)

theorem State.ampTry_kept (s : State) (n : Fin 4) (h0 : s.Kept ql zf) :
    (State.ampTry s n).Kept ql zf := by
  unfold State.ampTry
  repeat' (first
    | with_reducible assumption
    | with_reducible apply State.ampStart_kept
    | with_reducible apply State.updAmp_kept
    | with_reducible apply State.Kept.ite)

theorem State.ampOff_kept (s : State) (n : Fin 4) (h0 : s.Kept ql zf) :
    (State.ampOff s n).Kept ql zf := by
  unfold State.ampOff
  repeat' (first
    | with_reducible assumption
    | with_reducible apply State.setFld_kept
    | with_reducible apply State.setAmpState_kept
    | with_reducible apply State.ampStill_kept
    | with_reducible apply State.ampCfgApply_kept
    | with_reducible apply State.updAmp_kept
    | with_reducible apply State.ampsysApply_kept
    | with_reducible apply State.pipeResume_kept
    | with_reducible apply State.raise_kept
    | with_reducible apply State.ampTry_kept
    | with_reducible apply State.Kept.foldl)

theorem State.ampSuspend_kept (s : State) (n : Fin 4) (c : AmpCause) (supply : Bool) (h0 : s.Kept ql zf) :
    (State.ampSuspend s n c supply).Kept ql zf := by
  unfold State.ampSuspend
  repeat' (first
    | with_reducible assumption
    | with_reducible apply State.setFld_kept
    | with_reducible apply State.setAmpState_kept
    | with_reducible apply State.ampStill_kept
    | with_reducible apply State.pipeResume_kept
    | with_reducible apply State.raise_kept
    | with_reducible apply State.updAmp_kept
    | with_reducible apply State.Kept.ite)

theorem State.ampResume_kept (s : State) (n : Fin 4) (h0 : s.Kept ql zf) :
    (State.ampResume s n).Kept ql zf := by
  unfold State.ampResume
  repeat' (first
    | with_reducible assumption
    | with_reducible apply State.ampOff_kept
    | with_reducible apply State.raise_kept
    | with_reducible apply State.ampBegin_kept
    | with_reducible apply State.updAmp_kept
    | with_reducible apply State.Kept.ite)

theorem State.ampsResume_kept (s : State) (h0 : s.Kept ql zf) :
    (State.ampsResume s).Kept ql zf := by
  unfold State.ampsResume
  repeat' (first
    | with_reducible assumption
    | with_reducible apply State.ampResume_kept
    | with_reducible apply State.Kept.foldl)

theorem State.ampEnWrite_kept (s : State) (n : Fin 4) (on : Bool) (h0 : s.Kept ql zf) :
    (State.ampEnWrite s n on).Kept ql zf := by
  unfold State.ampEnWrite
  repeat' (first
    | with_reducible assumption
    | with_reducible apply State.ampOff_kept
    | with_reducible apply State.setFld_kept
    | with_reducible apply State.ampTry_kept
    | with_reducible apply State.setGain_kept
    | with_reducible apply State.updAmp_kept
    | with_reducible apply State.setAmpState_kept
    | with_reducible apply State.Kept.ite
    | split)

theorem State.ampShutdown_kept (s : State) (n : Fin 4) (c : AmpCause) (h0 : s.Kept ql zf) :
    (State.ampShutdown s n c).Kept ql zf := by
  unfold State.ampShutdown
  repeat' (first
    | with_reducible assumption
    | with_reducible apply State.countSat_kept
    | with_reducible apply State.setFld_kept
    | with_reducible apply State.ampStill_kept
    | with_reducible apply State.raise_kept
    | with_reducible apply State.pipeResume_kept
    | with_reducible apply State.setAmpState_kept
    | with_reducible apply State.Kept.ite)

theorem State.supplyStop_kept (s : State) (high atOnce : Bool) (h0 : s.Kept ql zf) :
    (State.supplyStop s high atOnce).Kept ql zf := by
  unfold State.supplyStop
  repeat' (first
    | with_reducible assumption
    | (intro _)
    | with_reducible apply State.raise_kept
    | with_reducible apply State.setFld_kept
    | with_reducible apply State.updAmp_kept
    | with_reducible apply State.ampSuspend_kept
    | with_reducible apply State.Kept.foldl
    | split)

theorem State.showCeilings_kept (s : State) (h0 : s.Kept ql zf) :
    (State.showCeilings s).Kept ql zf := by
  unfold State.showCeilings
  repeat' (first
    | with_reducible assumption
    | (intro _)
    | with_reducible apply State.setSfld_kept
    | with_reducible apply State.Kept.foldl
    | with_reducible apply State.Kept.ite)

theorem State.setSag_kept (s : State) (c : Int) (h0 : s.Kept ql zf) :
    (State.setSag s c).Kept ql zf := by
  unfold State.setSag
  repeat' (first
    | with_reducible assumption
    | with_reducible apply State.setFld_kept
    | with_reducible apply State.setSfld_kept
    | with_reducible apply State.raise_kept
    | with_reducible apply State.showCeilings_kept
    | with_reducible apply State.Kept.ite)

theorem State.sagTake_kept (s : State) (raw : Int) (h0 : s.Kept ql zf) :
    (State.sagTake s raw).Kept ql zf := by
  unfold State.sagTake
  repeat' (first
    | with_reducible assumption
    | with_reducible apply State.divFree_kept
    | with_reducible apply State.setSag_kept
    | with_reducible apply State.setFld_kept
    | with_reducible apply State.supplyStop_kept
    | with_reducible apply State.Kept.ite
    | split
    | (fail_if_no_progress (with_reducible apply State.Kept.upd)))

theorem State.stageTemp_kept (s : State) (n : Fin 4) (v : Int) (h0 : s.Kept ql zf) :
    (State.stageTemp s n v).Kept ql zf := by
  unfold State.stageTemp
  repeat' (first
    | with_reducible assumption
    | with_reducible apply State.divFree_kept
    | with_reducible apply State.updAmp_kept
    | with_reducible apply State.setSfld_kept
    | with_reducible apply State.raise_kept
    | with_reducible apply State.ampSuspend_kept
    | with_reducible apply State.countSat_kept
    | with_reducible apply State.ampResume_kept
    | split)

theorem State.scaled_kept (s : State) (v : Int) (a b : Nat) (h0 : s.Kept ql zf) :
    (State.scaled s v a b).2.Kept ql zf := by
  unfold State.scaled
  repeat' (first | with_reducible assumption | with_reducible apply State.divFree_kept)

theorem State.phantomScan_kept (s : State) (r : ScanReading) (h0 : s.Kept ql zf) :
    (State.phantomScan s r).Kept ql zf := by
  unfold State.phantomScan
  repeat' (first
    | with_reducible assumption
    | (intro _)
    | with_reducible apply State.scaled_kept
    | with_reducible apply State.phCapacity_kept
    | with_reducible apply State.setFld_kept
    | with_reducible apply State.Kept.foldl
    | with_reducible apply State.Kept.ite
    | (fail_if_no_progress (with_reducible apply State.Kept.upd)))

theorem State.scan_kept (s : State) (r : ScanReading) (h0 : s.Kept ql zf) :
    (State.scan s r).Kept ql zf := by
  unfold State.scan
  repeat' (first
    | with_reducible assumption
    | (intro _)
    | with_reducible apply State.converted_kept
    | with_reducible apply State.phantomScan_kept
    | with_reducible apply State.entryInput_kept
    | with_reducible apply State.updSeq_kept
    | with_reducible apply State.showCeilings_kept
    | with_reducible apply State.stageTemp_kept
    | with_reducible apply State.Kept.foldl
    | split
    | (fail_if_no_progress (with_reducible apply State.Kept.upd)))

theorem State.ampDrive_kept (s : State) (n : Fin 4) (lost : Bool) (h0 : s.Kept ql zf) :
    (State.ampDrive s n lost).Kept ql zf := by
  unfold State.ampDrive
  extract_lets +onlyGivenNames live x
  split
  next h m _ =>
  split
  next q c1 t e1 =>
  have h1 : t.Kept ql zf := State.Kept.of_snd2 e1 (State.toQ31_kept _ _ h0)
  extract_lets +onlyGivenNames a goal gr
  clear_value a goal gr
  split
  next y _ u e2 =>
  have h2 : u.Kept ql zf := State.Kept.of_snd2 e2 (State.toQ31_kept _ _ h1)
  extract_lets +onlyGivenNames z top c2 d
  clear_value d
  split
  next g w e3 =>
  have h3 : w.Kept ql zf := State.Kept.of_snd e3 (State.divFree_kept _ _ _ h2)
  refine State.Kept.ite (State.raise_kept _ _ _ (State.countSat_kept _ _ _ ?_)) ?_ <;> exact (State.setSfld_kept _ _ _ (State.updAmp_kept _ _ _ h3))

theorem State.ampDc_kept (s : State) (n : Fin 4) (x : Sample) (h0 : s.Kept ql zf) :
    (State.ampDc s n x).Kept ql zf := by
  unfold State.ampDc
  repeat' (first
    | with_reducible assumption
    | with_reducible apply State.divFree_kept
    | with_reducible apply State.setSfld_kept
    | with_reducible apply State.updAmp_kept)

theorem State.ampTick_kept (s : State) (n : Fin 4) (sense : BitVec 32) (lost : Bool) (h0 : s.Kept ql zf) :
    (State.ampTick s n sense lost).Kept ql zf := by
  unfold State.ampTick
  repeat' (first
    | with_reducible assumption
    | with_reducible apply State.setGain_kept
    | with_reducible apply State.ampDrive_kept
    | with_reducible apply State.ampDc_kept
    | with_reducible apply State.Kept.ite
    | (fail_if_no_progress (with_reducible apply State.Kept.upd)))

theorem State.ampsTick_kept (s : State) (sense : Vector (BitVec 32) 4) (lost : List Nat) (h0 : s.Kept ql zf) :
    (State.ampsTick s sense lost).Kept ql zf := by
  unfold State.ampsTick
  repeat' (first
    | with_reducible assumption
    | (intro _)
    | with_reducible apply State.ampTick_kept
    | with_reducible apply State.Kept.foldl
    | (fail_if_no_progress (with_reducible apply State.Kept.upd)))

theorem State.ampWrite_kept (s : State) (n : Fin 4) (o v : Nat) (h0 : s.Kept ql zf) :
    (State.ampWrite s n o v).Kept ql zf := by
  unfold State.ampWrite
  repeat' (first
    | with_reducible assumption
    | with_reducible apply State.storeFld_kept
    | with_reducible apply State.hold_kept
    | with_reducible apply State.ampEnWrite_kept
    | with_reducible apply State.store_kept
    | with_reducible apply State.Kept.ite)

theorem State.ampsysWrite_kept (s : State) (o v : Nat) (h0 : s.Kept ql zf) :
    (State.ampsysWrite s o v).Kept ql zf := by
  unfold State.ampsysWrite
  repeat' (first
    | with_reducible assumption
    | with_reducible apply State.hold_kept
    | with_reducible apply State.dropHeld_kept
    | with_reducible apply State.ampTry_kept
    | with_reducible apply State.ampsysApply_kept
    | with_reducible apply State.store_kept
    | with_reducible apply State.setSag_kept
    | with_reducible apply State.Kept.foldl
    | with_reducible apply State.Kept.ite)

theorem execAmpEnable_kept (n : Fin 4) (s : State) (h1 : s.Kept ql zf) :
    NextKept (execAmpEnable n s) ql zf := by
  unfold execAmpEnable
  repeat' (first
    | with_reducible assumption
    | with_reducible apply State.ampEnWrite_kept
    | apply nextKept_next
    | with_reducible apply State.Kept.ite)

theorem execAmpDisable_kept (n : Fin 4) (s : State) (h1 : s.Kept ql zf) :
    NextKept (execAmpDisable n s) ql zf := by
  unfold execAmpDisable
  repeat' (first
    | with_reducible assumption
    | with_reducible apply State.ampEnWrite_kept
    | apply nextKept_next
    | with_reducible apply State.Kept.ite)

theorem State.precheck_kept (s : State) (r : PrecheckReading) (h0 : s.Kept ql zf) :
    (State.precheck s r).2.Kept ql zf := by
  unfold State.precheck
  repeat' (first | with_reducible assumption | (dsimp only) | with_reducible apply State.free_kept | split)

theorem execAmpPrecheckDone_kept (n : Fin 4) (r : PrecheckReading) (s : State) (h2 : s.Kept ql zf) :
    NextKept (execAmpPrecheckDone n r s) ql zf := by
  unfold execAmpPrecheckDone
  repeat' (first
    | with_reducible assumption
    | with_reducible apply State.precheck_kept
    | with_reducible apply State.ampShutdown_kept
    | with_reducible apply State.pipeResume_kept
    | with_reducible apply State.updAmp_kept
    | apply nextKept_next
    | (refine State.Kept.of_snd (by assumption) ?_)
    | split)

theorem execAmpRelease_kept (n : Fin 4) (s : State) (h1 : s.Kept ql zf) :
    NextKept (execAmpRelease n s) ql zf := by
  unfold execAmpRelease
  repeat' (first
    | with_reducible assumption
    | with_reducible apply State.setFld_kept
    | with_reducible apply State.updAmp_kept
    | apply nextKept_next
    | with_reducible apply State.Kept.ite)

theorem execAmpRunning_kept (n : Fin 4) (s : State) (h1 : s.Kept ql zf) :
    NextKept (execAmpRunning n s) ql zf := by
  unfold execAmpRunning
  repeat' (first
    | with_reducible assumption
    | with_reducible apply State.updAmp_kept
    | with_reducible apply State.setAmpState_kept
    | with_reducible apply State.raise_kept
    | with_reducible apply State.setGain_kept
    | apply nextKept_next
    | with_reducible apply State.Kept.ite)

theorem execAmpStopGlideDone_kept (n : Fin 4) (s : State) (h1 : s.Kept ql zf) :
    NextKept (execAmpStopGlideDone n s) ql zf := by
  unfold execAmpStopGlideDone
  repeat' (first
    | with_reducible assumption
    | with_reducible apply State.updAmp_kept
    | apply nextKept_next
    | with_reducible apply State.Kept.ite)

theorem execAmpOff_kept (n : Fin 4) (s : State) (h1 : s.Kept ql zf) :
    NextKept (execAmpOff n s) ql zf := by
  unfold execAmpOff
  repeat' (first
    | with_reducible assumption
    | with_reducible apply State.ampOff_kept
    | apply nextKept_next
    | with_reducible apply State.Kept.ite)

theorem State.pwmCount_kept (s : State) (n : Fin 4) (limited : Bool) (h0 : s.Kept ql zf) :
    (State.pwmCount s n limited).Kept ql zf := by
  unfold State.pwmCount
  repeat' (first
    | with_reducible assumption
    | with_reducible apply State.updAmp_kept
    | with_reducible apply State.setFld_kept
    | with_reducible apply State.raise_kept
    | with_reducible apply State.Kept.ite)

theorem State.pwmStop_kept (s : State) (n : Fin 4) (h0 : s.Kept ql zf) :
    (State.pwmStop s n).Kept ql zf := by
  unfold State.pwmStop
  repeat' (first
    | with_reducible assumption
    | with_reducible apply State.updAmp_kept
    | with_reducible apply State.ampSuspend_kept
    | with_reducible apply State.Kept.ite)

theorem execPwmCycle_kept (n : Fin 4) (pos neg : Nat) (s : State) (h3 : s.Kept ql zf) :
    NextKept (execPwmCycle n pos neg s) ql zf := by
  unfold execPwmCycle
  repeat' (first
    | with_reducible assumption
    | with_reducible apply State.pwmCount_kept
    | with_reducible apply State.ampShutdown_kept
    | with_reducible apply State.pwmStop_kept
    | apply nextKept_next
    | with_reducible apply State.Kept.ite)

theorem execAmpRetry_kept (n : Fin 4) (s : State) (h1 : s.Kept ql zf) :
    NextKept (execAmpRetry n s) ql zf := by
  unfold execAmpRetry
  repeat' (first
    | with_reducible assumption
    | with_reducible apply State.ampOff_kept
    | with_reducible apply State.ampBegin_kept
    | with_reducible apply State.raise_kept
    | with_reducible apply State.updAmp_kept
    | with_reducible apply State.ampStart_kept
    | apply nextKept_next
    | with_reducible apply State.Kept.ite)

theorem execAmpRetriesClear_kept (n : Fin 4) (s : State) (h1 : s.Kept ql zf) :
    NextKept (execAmpRetriesClear n s) ql zf := by
  unfold execAmpRetriesClear
  repeat' (first
    | with_reducible assumption
    | with_reducible apply State.updAmp_kept
    | with_reducible apply State.setFld_kept
    | apply nextKept_next
    | with_reducible apply State.Kept.ite)

theorem State.ampDcStop_kept (s : State) (n : Fin 4) (h0 : s.Kept ql zf) :
    (State.ampDcStop s n).Kept ql zf := by
  unfold State.ampDcStop
  repeat' (first
    | with_reducible assumption
    | (intro hq; exact Port.Balanced.same hq rfl rfl rfl rfl)
    | (dsimp only)
    | (intro _)
    | with_reducible apply State.countSat_kept
    | with_reducible apply State.setFld_kept
    | with_reducible apply State.ampStill_kept
    | with_reducible apply State.raise_kept
    | with_reducible apply State.setAmpState_kept
    | with_reducible apply State.Kept.foldl
    | (refine State.Kept.of_snd (by assumption) ?_)
    | (refine State.Kept.of_snd2 (by assumption) ?_)
    | (refine State.Kept.of_snd3 (by assumption) ?_)
    | (refine State.Kept.of_mid (by assumption) ?_)
    | with_reducible apply State.Kept.ite
    | split
    | (fail_if_no_progress (with_reducible apply State.Kept.upd)))

theorem execAmpDcFault_kept (n : Fin 4) (s : State) (h1 : s.Kept ql zf) :
    NextKept (execAmpDcFault n s) ql zf := by
  unfold execAmpDcFault
  repeat' (first
    | with_reducible assumption
    | with_reducible apply State.ampDcStop_kept
    | apply nextKept_next
    | with_reducible apply State.Kept.ite)

theorem execFixedScan_kept (r : ScanReading) (s : State) (h1 : s.Kept ql zf) :
    NextKept (execFixedScan r s) ql zf := by
  unfold execFixedScan
  repeat' (first
    | with_reducible assumption
    | with_reducible apply State.scan_kept
    | apply nextKept_next
    | with_reducible apply State.Kept.ite)

theorem execSagSample_kept (raw : Nat) (s : State) (h1 : s.Kept ql zf) :
    NextKept (execSagSample raw s) ql zf := by
  unfold execSagSample
  repeat' (first
    | with_reducible assumption
    | with_reducible apply State.pipeResume_kept
    | with_reducible apply State.converted_kept
    | with_reducible apply State.pipePreempt_kept
    | with_reducible apply State.sagTake_kept
    | apply nextKept_next
    | with_reducible apply State.Kept.ite)

theorem execPvddHwStop_kept (s : State) (h0 : s.Kept ql zf) :
    NextKept (execPvddHwStop s) ql zf := by
  unfold execPvddHwStop
  repeat' (first
    | with_reducible assumption
    | with_reducible apply State.supplyStop_kept
    | apply nextKept_next
    | with_reducible apply State.Kept.ite)

theorem execSupplyOk_kept (s : State) (h0 : s.Kept ql zf) :
    NextKept (execSupplyOk s) ql zf := by
  unfold execSupplyOk
  repeat' (first
    | with_reducible assumption
    | with_reducible apply State.ampsResume_kept
    | with_reducible apply State.raise_kept
    | with_reducible apply State.setFld_kept
    | apply nextKept_next
    | with_reducible apply State.Kept.ite
    | (fail_if_no_progress (with_reducible apply State.Kept.upd)))

theorem execHkaReady_kept (s : State) (h0 : s.Kept ql zf) :
    NextKept (execHkaReady s) ql zf := by
  unfold execHkaReady
  repeat' (first
    | with_reducible assumption
    | with_reducible apply State.ampsResume_kept
    | with_reducible apply State.seqServeAll_kept
    | with_reducible apply State.setFld_kept
    | apply nextKept_next
    | with_reducible apply State.Kept.ite)

theorem State.ringStart_kept (s : State) (i : Nat) (h0 : s.Kept ql zf) :
    (State.ringStart s i).Kept ql zf := by
  unfold State.ringStart
  repeat' (first
    | with_reducible assumption
    | with_reducible apply State.updRing_kept
    | with_reducible apply State.setFld_kept
    | with_reducible apply State.Kept.ite
    | (fail_if_no_progress (with_reducible apply State.Kept.upd)))

theorem State.ringCfgWrite_kept (s : State) (i v : Nat) (h0 : s.Kept ql zf) :
    (State.ringCfgWrite s i v).Kept ql zf := by
  unfold State.ringCfgWrite
  repeat' (first
    | with_reducible assumption
    | with_reducible apply State.updRing_kept
    | with_reducible apply State.setErr_kept
    | with_reducible apply State.ringStart_kept
    | with_reducible apply State.Kept.ite)

theorem State.stampRequests_kept : ∀ (s : State) (p : Fin 4) (x : Word) (n : Nat) (h : s.Kept ql zf), (s.stampRequests p x n).Kept ql zf := by
  intro s p x n
  induction n generalizing s x with
  | zero => exact fun h => h
  | succ n ih => exact fun h => ih _ _ (State.setByte_kept _ _ _ h)

theorem State.ringHostGive_kept (s : State) (p : Fin 4) (i k : Nat) (h0 : s.Kept ql zf) :
    (State.ringHostGive s p i k).Kept ql zf := by
  unfold State.ringHostGive
  repeat' (first
    | with_reducible assumption
    | with_reducible apply State.stampRequests_kept
    | with_reducible apply State.ringGive_kept
    | with_reducible apply State.Kept.ite)

theorem State.ringIndexWrite_kept (s : State) (p : Fin 4) (i : Nat) (producer : Bool) (v : Word) (h0 : s.Kept ql zf) :
    (State.ringIndexWrite s p i producer v).Kept ql zf := by
  unfold State.ringIndexWrite
  repeat' (first
    | with_reducible assumption
    | with_reducible apply State.setErr_kept
    | with_reducible apply State.ringHostGive_kept
    | with_reducible apply State.ringLose_kept
    | with_reducible apply State.ringTake_kept
    | with_reducible apply State.Kept.ite)

theorem State.ringWmWrite_kept (s : State) (i v : Nat) (h0 : s.Kept ql zf) :
    (State.ringWmWrite s i v).Kept ql zf := by
  unfold State.ringWmWrite
  repeat' (first | with_reducible assumption | with_reducible apply State.updRing_kept | with_reducible apply State.Kept.ite)

theorem State.evtEnable_kept (s : State) (p : Nat) (r : EvtReg) (mask v : Nat) (h0 : s.Kept ql zf) :
    (State.evtEnable s p r mask v).Kept ql zf := by
  unfold State.evtEnable
  repeat' (first
    | with_reducible assumption
    | (intro _)
    | with_reducible apply State.setReg_kept
    | with_reducible apply deliverWith_kept
    | with_reducible apply raiseRing_kept
    | with_reducible apply State.Kept.foldl)

theorem State.evtForce_kept (s : State) (p v : Nat) (h0 : s.Kept ql zf) :
    (State.evtForce s p v).Kept ql zf := by
  unfold State.evtForce
  repeat' (first
    | with_reducible assumption
    | (intro _)
    | with_reducible apply raiseFuel_kept
    | with_reducible apply State.Kept.foldl
    | with_reducible apply State.Kept.ite
    | (fail_if_no_progress (with_reducible apply State.Kept.upd)))

theorem State.evtClear_kept (s : State) (p : Nat) (r : EvtReg) (v : Nat) (h0 : s.Kept ql zf) :
    (State.evtClear s p r v).Kept ql zf := by
  unfold State.evtClear
  repeat' (first
    | with_reducible assumption
    | with_reducible apply State.setReg_kept
    | with_reducible apply State.Kept.ite
    | (fail_if_no_progress (with_reducible apply State.Kept.upd)))

theorem State.errClear_kept (s : State) (p v : Nat) (h0 : s.Kept ql zf) :
    (State.errClear s p v).Kept ql zf := by
  unfold State.errClear
  repeat' (first | with_reducible assumption | with_reducible apply State.setReg_kept)

theorem State.bookNow_kept (s : State) (h0 : s.Kept ql zf) :
    (State.bookNow s).Kept ql zf := by
  unfold State.bookNow
  repeat' (first | with_reducible assumption | (fail_if_no_progress (with_reducible apply State.Kept.upd)))

theorem State.latchGran_kept (s : State) (h0 : s.Kept ql zf) :
    (State.latchGran s).Kept ql zf := by
  unfold State.latchGran
  repeat' (first | with_reducible assumption | with_reducible apply State.setReg_kept)

theorem State.captureTap_kept (s : State) (k : Nat) (h0 : s.Kept ql zf) :
    (State.captureTap s k).Kept ql zf := by
  unfold State.captureTap
  repeat' (first
    | with_reducible assumption
    | with_reducible apply State.setFld_kept
    | with_reducible apply State.ringPut_kept
    | with_reducible apply State.Kept.ite
    | (fail_if_no_progress (with_reducible apply State.Kept.upd)))

theorem State.capture_kept (s : State) (h0 : s.Kept ql zf) :
    (State.capture s).Kept ql zf := by
  unfold State.capture
  repeat' (first | with_reducible assumption | with_reducible apply State.captureTap_kept)

theorem State.injTake_kept (s : State) (k : Nat) (h0 : s.Kept ql zf) :
    (State.injTake s k).Kept ql zf := by
  unfold State.injTake
  repeat' (first
    | with_reducible assumption
    | with_reducible apply State.ringTake_kept
    | (fail_if_no_progress (with_reducible apply State.Kept.upd)))

theorem State.injSilent_kept (s : State) (k : Nat) (h0 : s.Kept ql zf) :
    (State.injSilent s k).Kept ql zf := by
  unfold State.injSilent
  repeat' (first | with_reducible assumption | (fail_if_no_progress (with_reducible apply State.Kept.upd)))

theorem State.injTick_kept (s : State) (k : Nat) (h0 : s.Kept ql zf) :
    (State.injTick s k).Kept ql zf := by
  unfold State.injTick
  repeat' (first
    | with_reducible assumption
    | with_reducible apply State.injTake_kept
    | with_reducible apply State.injSilent_kept
    | with_reducible apply State.raise_kept
    | with_reducible apply State.countSat_kept
    | with_reducible apply State.Kept.ite
    | split
    | (fail_if_no_progress (with_reducible apply State.Kept.upd)))

theorem State.inject_kept (s : State) (h0 : s.Kept ql zf) :
    (State.inject s).Kept ql zf := by
  unfold State.inject
  repeat' (first | with_reducible assumption | with_reducible apply State.injTick_kept)

theorem execGranARead_kept (s : State) (h0 : s.Kept ql zf) :
    NextKept (execGranARead s) ql zf := by
  unfold execGranARead
  repeat' (first
    | with_reducible assumption
    | with_reducible apply State.answer_kept
    | with_reducible apply State.latchGran_kept
    | apply nextKept_next
    | with_reducible apply State.Kept.ite)

theorem State.rxLine_kept (s : State) (n : Fin 32) (k : Fin 2) (f : RxFrame) (h0 : s.Kept ql zf) :
    (State.rxLine s n k f).Kept ql zf := by
  unfold State.rxLine
  repeat' (first
    | with_reducible assumption
    | with_reducible apply State.updLine_kept
    | with_reducible apply State.enter_kept
    | with_reducible apply State.Kept.ite)

theorem State.rxFrame_kept (s : State) (n : Fin 32) (f : RxFrame) (h0 : s.Kept ql zf) :
    (State.rxFrame s n f).Kept ql zf := by
  unfold State.rxFrame
  repeat' (first
    | with_reducible assumption
    | with_reducible apply State.raise_kept
    | with_reducible apply State.countSat_kept
    | with_reducible apply State.csFrame_kept
    | with_reducible apply State.aesErrors_kept
    | with_reducible apply State.rxLine_kept
    | with_reducible apply State.updSap_kept
    | with_reducible apply State.Kept.ite)

theorem State.deafFrame_kept (s : State) (f : RxFrame) (h0 : s.Kept ql zf) :
    (State.deafFrame s f).2.Kept ql zf := by
  unfold State.deafFrame
  repeat' (first
    | with_reducible assumption
    | (intro hq; exact Port.Balanced.same hq rfl rfl rfl rfl)
    | (dsimp only)
    | (intro _)
    | with_reducible apply State.Kept.foldl
    | (refine State.Kept.of_snd (by assumption) ?_)
    | (refine State.Kept.of_snd2 (by assumption) ?_)
    | (refine State.Kept.of_snd3 (by assumption) ?_)
    | (refine State.Kept.of_mid (by assumption) ?_)
    | with_reducible apply State.Kept.ite
    | split
    | (fail_if_no_progress (with_reducible apply State.Kept.upd)))

theorem State.frameReceived_kept (s : State) (n : Fin 32) (f : RxFrame) (h0 : s.Kept ql zf) :
    (State.frameReceived s n f).Kept ql zf := by
  unfold State.frameReceived
  repeat' (first
    | with_reducible assumption
    | (dsimp only)
    | with_reducible apply State.deafFrame_kept
    | with_reducible apply State.monEdge_kept
    | with_reducible apply State.rxFrame_kept
    | with_reducible apply State.updSap_kept
    | split)

theorem State.txTake_kept (s : State) (n : Fin 32) (k : Fin 2) (h0 : s.Kept ql zf) :
    (State.txTake s n k).2.2.Kept ql zf := by
  unfold State.txTake
  repeat' (first
    | with_reducible assumption
    | (intro hq; exact Port.Balanced.same hq rfl rfl rfl rfl)
    | (dsimp only)
    | (intro _)
    | with_reducible apply State.updLine_kept
    | with_reducible apply State.fifoDrop_kept
    | with_reducible apply State.Kept.foldl
    | (refine State.Kept.of_snd (by assumption) ?_)
    | (refine State.Kept.of_snd2 (by assumption) ?_)
    | (refine State.Kept.of_snd3 (by assumption) ?_)
    | (refine State.Kept.of_mid (by assumption) ?_)
    | with_reducible apply State.Kept.ite
    | split
    | (fail_if_no_progress (with_reducible apply State.Kept.upd)))

theorem State.txZero_kept (s : State) (n : Fin 32) (k : Fin 2) (h0 : s.Kept ql zf) :
    (State.txZero s n k).2.2.Kept ql zf := by
  unfold State.txZero
  repeat' (first
    | with_reducible assumption
    | (intro hq; exact Port.Balanced.same hq rfl rfl rfl rfl)
    | (dsimp only)
    | (intro _)
    | with_reducible apply State.countInserted_kept
    | with_reducible apply State.Kept.foldl
    | (refine State.Kept.of_snd (by assumption) ?_)
    | (refine State.Kept.of_snd2 (by assumption) ?_)
    | (refine State.Kept.of_snd3 (by assumption) ?_)
    | (refine State.Kept.of_mid (by assumption) ?_)
    | with_reducible apply State.Kept.ite
    | split
    | (fail_if_no_progress (with_reducible apply State.Kept.upd)))

theorem State.txTail_kept (s : State) (n : Fin 32) (k : Fin 2) (h0 : s.Kept ql zf) :
    (State.txTail s n k).2.2.Kept ql zf := by
  unfold State.txTail
  repeat' (first
    | with_reducible assumption
    | (intro hq; exact Port.Balanced.same hq rfl rfl rfl rfl)
    | (dsimp only)
    | (intro _)
    | with_reducible apply State.countInserted_kept
    | with_reducible apply State.Kept.foldl
    | (refine State.Kept.of_snd (by assumption) ?_)
    | (refine State.Kept.of_snd2 (by assumption) ?_)
    | (refine State.Kept.of_snd3 (by assumption) ?_)
    | (refine State.Kept.of_mid (by assumption) ?_)
    | with_reducible apply State.Kept.ite
    | split
    | (fail_if_no_progress (with_reducible apply State.Kept.upd)))

theorem State.txNext_kept (s0 : State) (n : Fin 32) (k : Fin 2) (h0 : s0.Kept ql zf) :
    (State.txNext s0 n k).2.2.Kept ql zf := by
  unfold State.txNext
  repeat' (first
    | with_reducible assumption
    | (intro hq; exact Port.Balanced.same hq rfl rfl rfl rfl)
    | (dsimp only)
    | (intro _)
    | with_reducible apply State.outputRejoin_kept
    | with_reducible apply State.txZero_kept
    | with_reducible apply State.txTake_kept
    | with_reducible apply State.txTail_kept
    | with_reducible apply State.underrun_kept
    | with_reducible apply State.beginSnow_kept
    | with_reducible apply State.updLine_kept
    | with_reducible apply State.Kept.foldl
    | (refine State.Kept.of_snd (by assumption) ?_)
    | (refine State.Kept.of_snd2 (by assumption) ?_)
    | (refine State.Kept.of_snd3 (by assumption) ?_)
    | (refine State.Kept.of_mid (by assumption) ?_)
    | with_reducible apply State.Kept.ite
    | split
    | (fail_if_no_progress (with_reducible apply State.Kept.upd)))

theorem State.txStamp_kept (s : State) (n : Fin 32) (k : Fin 2) (h0 : s.Kept ql zf) :
    (State.txStamp s n k).Kept ql zf := by
  unfold State.txStamp
  repeat' (first
    | with_reducible assumption
    | with_reducible apply State.stampBlock_kept
    | with_reducible apply State.updLine_kept
    | with_reducible apply State.Kept.ite)

theorem State.wireFrame_kept (s : State) (n : Fin 32) (k : Fin 2) (wa wb : Nat) (h0 : s.Kept ql zf) :
    (State.wireFrame s n k wa wb).Kept ql zf := by
  unfold State.wireFrame
  repeat' (first
    | with_reducible assumption
    | (intro hq; exact Port.Balanced.same hq rfl rfl rfl rfl)
    | (dsimp only)
    | (intro _)
    | with_reducible apply State.updSap_kept
    | with_reducible apply State.Kept.foldl
    | (refine State.Kept.of_snd (by assumption) ?_)
    | (refine State.Kept.of_snd2 (by assumption) ?_)
    | (refine State.Kept.of_snd3 (by assumption) ?_)
    | (refine State.Kept.of_mid (by assumption) ?_)
    | with_reducible apply State.Kept.ite
    | split
    | (fail_if_no_progress (with_reducible apply State.Kept.upd)))

theorem State.txDisturb_kept (s : State) (n : Fin 32) (a b : Sample) (h0 : s.Kept ql zf) :
    (State.txDisturb s n a b).2.Kept ql zf := by
  unfold State.txDisturb
  repeat' (first
    | with_reducible assumption
    | (intro hq; exact Port.Balanced.same hq rfl rfl rfl rfl)
    | (dsimp only)
    | (intro _)
    | with_reducible apply State.freeInt_kept
    | with_reducible apply State.Kept.foldl
    | (refine State.Kept.of_snd (by assumption) ?_)
    | (refine State.Kept.of_snd2 (by assumption) ?_)
    | (refine State.Kept.of_snd3 (by assumption) ?_)
    | (refine State.Kept.of_mid (by assumption) ?_)
    | with_reducible apply State.Kept.ite
    | split
    | (fail_if_no_progress (with_reducible apply State.Kept.upd)))

theorem State.txLine_kept (s : State) (n : Fin 32) (k : Fin 2) (h0 : s.Kept ql zf) :
    (State.txLine s n k).Kept ql zf := by
  unfold State.txLine
  repeat' (first
    | with_reducible assumption
    | (intro hq; exact Port.Balanced.same hq rfl rfl rfl rfl)
    | (dsimp only)
    | (intro _)
    | with_reducible apply State.txNext_kept
    | with_reducible apply State.txDisturb_kept
    | with_reducible apply State.endEpisodes_kept
    | with_reducible apply State.txStamp_kept
    | with_reducible apply State.aesSend_kept
    | with_reducible apply State.cutWord_kept
    | with_reducible apply State.wireFrame_kept
    | with_reducible apply State.Kept.foldl
    | (refine State.Kept.of_snd (by assumption) ?_)
    | (refine State.Kept.of_snd2 (by assumption) ?_)
    | (refine State.Kept.of_snd3 (by assumption) ?_)
    | (refine State.Kept.of_mid (by assumption) ?_)
    | with_reducible apply State.Kept.ite
    | split
    | (fail_if_no_progress (with_reducible apply State.Kept.upd)))

theorem State.frameTransmit_kept (s : State) (n : Fin 32) (h0 : s.Kept ql zf) :
    (State.frameTransmit s n).Kept ql zf := by
  unfold State.frameTransmit
  repeat' (first
    | with_reducible assumption
    | with_reducible apply State.txLine_kept
    | with_reducible apply State.updSap_kept
    | split)

theorem State.deliverLine_kept (s : State) (n : Fin 32) (k : Fin 2) (h0 : s.Kept ql zf) :
    (State.deliverLine s n k).Kept ql zf := by
  unfold State.deliverLine
  repeat' (first
    | with_reducible assumption
    | with_reducible apply State.updSap_kept
    | with_reducible apply State.updLine_kept
    | with_reducible apply State.raise_kept
    | with_reducible apply State.setSapState_kept
    | with_reducible apply State.Kept.ite)

theorem execSapRunStart_kept (n : Fin 32) (s : State) (h1 : s.Kept ql zf) :
    NextKept (execSapRunStart n s) ql zf := by
  unfold execSapRunStart
  repeat' (first
    | with_reducible assumption
    | with_reducible apply State.sapCtrlWrite_kept
    | apply nextKept_next
    | with_reducible apply State.Kept.ite)

theorem execSapRunStop_kept (n : Fin 32) (s : State) (h1 : s.Kept ql zf) :
    NextKept (execSapRunStop n s) ql zf := by
  unfold execSapRunStop
  repeat' (first
    | with_reducible assumption
    | with_reducible apply State.sapCtrlWrite_kept
    | apply nextKept_next
    | with_reducible apply State.Kept.ite)

theorem execSapMuteRequest_kept (n : Fin 32) (mask : BitVec 4) (s : State) (h2 : s.Kept ql zf) :
    NextKept (execSapMuteRequest n mask s) ql zf := by
  unfold execSapMuteRequest
  repeat' (first
    | with_reducible assumption
    | with_reducible apply State.muteWrite_kept
    | apply nextKept_next
    | with_reducible apply State.Kept.ite)

theorem execSapConfigWrite_kept (n : Fin 32) (r : SapReg) (v : Word) (s : State) (h3 : s.Kept ql zf) :
    NextKept (execSapConfigWrite n r v s) ql zf := by
  unfold execSapConfigWrite
  repeat' (first
    | with_reducible assumption
    | with_reducible apply State.sapCfgWrite_kept
    | apply nextKept_next
    | with_reducible apply State.Kept.ite)

theorem execSapFrameReceived_kept (n : Fin 32) (f : RxFrame) (s : State) (h2 : s.Kept ql zf) :
    NextKept (execSapFrameReceived n f s) ql zf := by
  unfold execSapFrameReceived
  repeat' (first | with_reducible assumption | with_reducible apply State.frameReceived_kept | apply nextKept_next)

theorem execSapFrameTransmit_kept (n : Fin 32) (s : State) (h1 : s.Kept ql zf) :
    NextKept (execSapFrameTransmit n s) ql zf := by
  unfold execSapFrameTransmit
  repeat' (first | with_reducible assumption | with_reducible apply State.frameTransmit_kept | apply nextKept_next)

theorem execSapDeliveryStart_kept (n : Fin 32) (s : State) (h1 : s.Kept ql zf) :
    NextKept (execSapDeliveryStart n s) ql zf := by
  unfold execSapDeliveryStart
  repeat' (first
    | with_reducible assumption
    | with_reducible apply State.syncZc_kept
    | with_reducible apply State.deliverLine_kept
    | apply nextKept_next
    | split)

theorem execZcTimeout_kept (n : Fin 32) (ch : Fin 4) (s : State) (h2 : s.Kept ql zf) :
    NextKept (execZcTimeout n ch s) ql zf := by
  unfold execZcTimeout
  repeat' (first
    | with_reducible assumption
    | with_reducible apply State.raise_kept
    | with_reducible apply State.updChan_kept
    | apply nextKept_next
    | split)

theorem execZcGlideDone_kept (n : Fin 32) (ch : Fin 4) (s : State) (h2 : s.Kept ql zf) :
    NextKept (execZcGlideDone n ch s) ql zf := by
  unfold execZcGlideDone
  repeat' (first
    | with_reducible assumption
    | with_reducible apply State.syncZc_kept
    | with_reducible apply State.updChan_kept
    | apply nextKept_next
    | split)

theorem execSapStopped_kept (n : Fin 32) (s : State) (h1 : s.Kept ql zf) :
    NextKept (execSapStopped n s) ql zf := by
  unfold execSapStopped
  repeat' (first
    | with_reducible assumption
    | with_reducible apply State.enterStopped_kept
    | apply nextKept_next
    | with_reducible apply State.Kept.ite)

theorem State.sapCntClear_kept (s : State) (n : Fin 32) (h0 : s.Kept ql zf) :
    (State.sapCntClear s n).Kept ql zf := by
  unfold State.sapCntClear
  repeat' (first
    | with_reducible assumption
    | (intro _)
    | with_reducible apply State.updSap_kept
    | with_reducible apply State.setFld_kept
    | with_reducible apply State.setErr_kept
    | with_reducible apply State.Kept.foldl
    | with_reducible apply State.Kept.ite)

theorem execSapCntClear_kept (n : Fin 32) (s : State) (h1 : s.Kept ql zf) :
    NextKept (execSapCntClear n s) ql zf := by
  unfold execSapCntClear
  repeat' (first
    | with_reducible assumption
    | with_reducible apply State.sapCntClear_kept
    | apply nextKept_next
    | with_reducible apply State.Kept.ite)

theorem State.latchCounts_kept (s : State) (n : Fin 32) (k : Fin 2) (h0 : s.Kept ql zf) :
    (State.latchCounts s n k).Kept ql zf := by
  unfold State.latchCounts
  repeat' (first | with_reducible assumption | with_reducible apply State.setFld_kept)

theorem execFramesInRead_kept (n : Fin 32) (k : Fin 2) (s : State) (h2 : s.Kept ql zf) :
    NextKept (execFramesInRead n k s) ql zf := by
  unfold execFramesInRead
  repeat' (first
    | with_reducible assumption
    | with_reducible apply State.answer_kept
    | with_reducible apply State.latchCounts_kept
    | apply nextKept_next
    | with_reducible apply State.Kept.ite)

theorem State.latchStamp_kept (s : State) (n : Fin 32) (h0 : s.Kept ql zf) :
    (State.latchStamp s n).Kept ql zf := by
  unfold State.latchStamp
  repeat' (first | with_reducible assumption | with_reducible apply State.setReg_kept)

theorem execStampLoRead_kept (n : Fin 32) (s : State) (h1 : s.Kept ql zf) :
    NextKept (execStampLoRead n s) ql zf := by
  unfold execStampLoRead
  repeat' (first
    | with_reducible assumption
    | with_reducible apply State.answer_kept
    | with_reducible apply State.latchStamp_kept
    | apply nextKept_next
    | with_reducible apply State.Kept.ite)

theorem execAesRxLocked_kept (k : Fin 8) (s : State) (h1 : s.Kept ql zf) :
    NextKept (execAesRxLocked k s) ql zf := by
  unfold execAesRxLocked
  repeat' (first
    | with_reducible assumption
    | with_reducible apply State.aesLockTo_kept
    | apply nextKept_next
    | with_reducible apply State.Kept.ite)

theorem execAesRxLockLost_kept (k : Fin 8) (s : State) (h1 : s.Kept ql zf) :
    NextKept (execAesRxLockLost k s) ql zf := by
  unfold execAesRxLockLost
  repeat' (first
    | with_reducible assumption
    | with_reducible apply State.aesLockTo_kept
    | apply nextKept_next
    | with_reducible apply State.Kept.ite)

theorem execAesRxAcquiring_kept (k : Fin 8) (s : State) (h1 : s.Kept ql zf) :
    NextKept (execAesRxAcquiring k s) ql zf := by
  unfold execAesRxAcquiring
  repeat' (first
    | with_reducible assumption
    | with_reducible apply State.aesLockTo_kept
    | apply nextKept_next
    | with_reducible apply State.Kept.ite)

theorem execAesRxUnlocked_kept (k : Fin 8) (s : State) (h1 : s.Kept ql zf) :
    NextKept (execAesRxUnlocked k s) ql zf := by
  unfold execAesRxUnlocked
  repeat' (first
    | with_reducible assumption
    | with_reducible apply State.aesLockTo_kept
    | apply nextKept_next
    | with_reducible apply State.Kept.ite)

theorem State.latchCs_kept (s : State) (n : Fin 32) (h0 : s.Kept ql zf) :
    (State.latchCs s n).Kept ql zf := by
  unfold State.latchCs
  repeat' (first
    | with_reducible assumption
    | (intro _)
    | with_reducible apply State.setReg_kept
    | with_reducible apply State.Kept.foldl)

theorem execAesRxCsRead_kept (k : Fin 8) (b : Bool) (s : State) (h2 : s.Kept ql zf) :
    NextKept (execAesRxCsRead k b s) ql zf := by
  unfold execAesRxCsRead
  repeat' (first
    | with_reducible assumption
    | with_reducible apply State.latchCs_kept
    | with_reducible apply State.answer_kept
    | apply nextKept_next
    | with_reducible apply State.Kept.ite)

theorem State.swapRequest_kept (s : State) (n : Fin 32) (h0 : s.Kept ql zf) :
    (State.swapRequest s n).Kept ql zf := by
  unfold State.swapRequest
  repeat' (first | with_reducible assumption | with_reducible apply State.updAes_kept | with_reducible apply State.setFld_kept)

theorem execAesTxSwap_kept (k : Fin 8) (s : State) (h1 : s.Kept ql zf) :
    NextKept (execAesTxSwap k s) ql zf := by
  unfold execAesTxSwap
  repeat' (first
    | with_reducible assumption
    | with_reducible apply State.swapRequest_kept
    | apply nextKept_next
    | with_reducible apply State.Kept.ite)

theorem execAesCsSwapCopy_kept (k : Fin 8) (s : State) (h1 : s.Kept ql zf) :
    NextKept (execAesCsSwapCopy k s) ql zf := by
  unfold execAesCsSwapCopy
  repeat' (first
    | with_reducible assumption
    | with_reducible apply State.raiseAes_kept
    | with_reducible apply State.setFld_kept
    | with_reducible apply State.csCopy_kept
    | apply nextKept_next
    | split)

theorem State.setMode_kept (s : State) (m : Mode) (h0 : s.Kept ql zf) :
    (State.setMode s m).Kept ql zf := by
  unfold State.setMode
  repeat' (first
    | with_reducible assumption
    | (intro hq; exact Port.Balanced.same hq rfl rfl rfl rfl)
    | (dsimp only)
    | (intro _)
    | with_reducible apply State.raise_kept
    | with_reducible apply State.setFld_kept
    | with_reducible apply State.classifyEnd_kept
    | with_reducible apply State.Kept.foldl
    | (refine State.Kept.of_snd (by assumption) ?_)
    | (refine State.Kept.of_snd2 (by assumption) ?_)
    | (refine State.Kept.of_snd3 (by assumption) ?_)
    | (refine State.Kept.of_mid (by assumption) ?_)
    | with_reducible apply State.Kept.ite
    | split
    | (fail_if_no_progress (with_reducible apply State.Kept.upd)))

theorem State.syncUntested_kept (s : State) (h0 : s.Kept ql zf) :
    (State.syncUntested s).Kept ql zf := by
  unfold State.syncUntested
  repeat' (first
    | with_reducible assumption
    | (intro hq; exact Port.Balanced.same hq rfl rfl rfl rfl)
    | (dsimp only)
    | (intro _)
    | with_reducible apply State.setFld_kept
    | with_reducible apply State.Kept.foldl
    | (refine State.Kept.of_snd (by assumption) ?_)
    | (refine State.Kept.of_snd2 (by assumption) ?_)
    | (refine State.Kept.of_snd3 (by assumption) ?_)
    | (refine State.Kept.of_mid (by assumption) ?_)
    | with_reducible apply State.Kept.ite
    | split
    | (fail_if_no_progress (with_reducible apply State.Kept.upd)))

theorem State.fuseProg_kept (s : State) (v : Nat) (h0 : s.Kept ql zf) :
    (State.fuseProg s v).Kept ql zf := by
  unfold State.fuseProg
  repeat' (first
    | with_reducible assumption
    | (intro hq; exact Port.Balanced.same hq rfl rfl rfl rfl)
    | (dsimp only)
    | (intro _)
    | with_reducible apply State.setErr_kept
    | with_reducible apply State.setFld_kept
    | with_reducible apply State.Kept.foldl
    | (refine State.Kept.of_snd (by assumption) ?_)
    | (refine State.Kept.of_snd2 (by assumption) ?_)
    | (refine State.Kept.of_snd3 (by assumption) ?_)
    | (refine State.Kept.of_mid (by assumption) ?_)
    | with_reducible apply State.Kept.ite
    | split
    | (fail_if_no_progress (with_reducible apply State.Kept.upd)))

theorem State.fuseBlown_kept (s : State) (h0 : s.Kept ql zf) :
    (State.fuseBlown s).Kept ql zf := by
  have key : ∀ (l : List Nat) (f : BitVec 512), zf &&& f = zf → zf &&& l.foldl (fun f k => f ||| (1#512 <<< k)) f = zf := by
    intro l
    induction l with
    | nil => intro f h; exact h
    | cons k l ih =>
      intro f h
      refine ih _ (BitVec.eq_of_getElem_eq fun i hi => ?_)
      have h2 := congrArg (fun (x : BitVec 512) => x[i]) h
      simp only [BitVec.getElem_and, BitVec.getElem_or] at h2 ⊢
      cases hz : zf[i] <;> simp_all
  unfold State.fuseBlown
  exact State.setFld_kept _ _ _ ⟨⟨h0.canonical.regs, h0.canonical.mem, h0.canonical.vers⟩, h0.credited, h0.queue, key _ _ h0.fuses⟩

theorem State.enterPdm_kept (s : State) (n : Fin 32) (test : Bool) (h0 : s.Kept ql zf) :
    (State.enterPdm s n test).Kept ql zf := by
  unfold State.enterPdm
  repeat' (first
    | with_reducible assumption
    | (intro hq; exact Port.Balanced.same hq rfl rfl rfl rfl)
    | (dsimp only)
    | (intro _)
    | with_reducible apply State.enterStopped_kept
    | with_reducible apply State.setFld_kept
    | with_reducible apply State.setSapState_kept
    | with_reducible apply State.Kept.foldl
    | (refine State.Kept.of_snd (by assumption) ?_)
    | (refine State.Kept.of_snd2 (by assumption) ?_)
    | (refine State.Kept.of_snd3 (by assumption) ?_)
    | (refine State.Kept.of_mid (by assumption) ?_)
    | with_reducible apply State.Kept.ite
    | split
    | (fail_if_no_progress (with_reducible apply State.Kept.upd)))

theorem State.leavePdm_kept (s : State) (n : Fin 32) (h0 : s.Kept ql zf) :
    (State.leavePdm s n).Kept ql zf := by
  unfold State.leavePdm
  repeat' (first
    | with_reducible assumption
    | (intro hq; exact Port.Balanced.same hq rfl rfl rfl rfl)
    | (dsimp only)
    | (intro _)
    | with_reducible apply State.enterStopped_kept
    | with_reducible apply State.sapCntClear_kept
    | with_reducible apply State.setFld_kept
    | with_reducible apply State.setSapState_kept
    | with_reducible apply State.Kept.foldl
    | (refine State.Kept.of_snd (by assumption) ?_)
    | (refine State.Kept.of_snd2 (by assumption) ?_)
    | (refine State.Kept.of_snd3 (by assumption) ?_)
    | (refine State.Kept.of_mid (by assumption) ?_)
    | with_reducible apply State.Kept.ite
    | split
    | (fail_if_no_progress (with_reducible apply State.Kept.upd)))

theorem State.pdmFollow_kept (s : State) (h0 : s.Kept ql zf) :
    (State.pdmFollow s).Kept ql zf := by
  unfold State.pdmFollow
  repeat' (first
    | with_reducible assumption
    | (intro hq; exact Port.Balanced.same hq rfl rfl rfl rfl)
    | (dsimp only)
    | (intro _)
    | with_reducible apply State.enterPdm_kept
    | with_reducible apply State.leavePdm_kept
    | with_reducible apply State.Kept.foldl
    | (refine State.Kept.of_snd (by assumption) ?_)
    | (refine State.Kept.of_snd2 (by assumption) ?_)
    | (refine State.Kept.of_snd3 (by assumption) ?_)
    | (refine State.Kept.of_mid (by assumption) ?_)
    | with_reducible apply State.Kept.ite
    | split
    | (fail_if_no_progress (with_reducible apply State.Kept.upd)))

theorem State.pdmTest_kept (s : State) (on : Bool) (h0 : s.Kept ql zf) :
    (State.pdmTest s on).Kept ql zf := by
  unfold State.pdmTest
  repeat' (first
    | with_reducible assumption
    | (intro hq; exact Port.Balanced.same hq rfl rfl rfl rfl)
    | (dsimp only)
    | (intro _)
    | with_reducible apply State.setErr_kept
    | with_reducible apply State.setFld_kept
    | with_reducible apply State.pdmFollow_kept
    | with_reducible apply State.Kept.foldl
    | (refine State.Kept.of_snd (by assumption) ?_)
    | (refine State.Kept.of_snd2 (by assumption) ?_)
    | (refine State.Kept.of_snd3 (by assumption) ?_)
    | (refine State.Kept.of_mid (by assumption) ?_)
    | with_reducible apply State.Kept.ite
    | split
    | (fail_if_no_progress (with_reducible apply State.Kept.upd)))

theorem State.schussStart_kept (s : State) (h0 : s.Kept ql zf) :
    (State.schussStart s).Kept ql zf := by
  unfold State.schussStart
  repeat' (first
    | with_reducible assumption
    | (intro hq; exact Port.Balanced.same hq rfl rfl rfl rfl)
    | (dsimp only)
    | (intro _)
    | with_reducible apply State.enterPdm_kept
    | with_reducible apply State.outEnWrite_kept
    | with_reducible apply State.Kept.foldl
    | (refine State.Kept.of_snd (by assumption) ?_)
    | (refine State.Kept.of_snd2 (by assumption) ?_)
    | (refine State.Kept.of_snd3 (by assumption) ?_)
    | (refine State.Kept.of_mid (by assumption) ?_)
    | with_reducible apply State.Kept.ite
    | split
    | (fail_if_no_progress (with_reducible apply State.Kept.upd)))

theorem State.schussFade_kept (s : State) (h0 : s.Kept ql zf) :
    (State.schussFade s).Kept ql zf := by
  unfold State.schussFade
  repeat' (first
    | with_reducible assumption
    | (intro hq; exact Port.Balanced.same hq rfl rfl rfl rfl)
    | (dsimp only)
    | (intro _)
    | with_reducible apply State.Kept.foldl
    | (refine State.Kept.of_snd (by assumption) ?_)
    | (refine State.Kept.of_snd2 (by assumption) ?_)
    | (refine State.Kept.of_snd3 (by assumption) ?_)
    | (refine State.Kept.of_mid (by assumption) ?_)
    | with_reducible apply State.Kept.ite
    | split
    | (fail_if_no_progress (with_reducible apply State.Kept.upd)))

theorem State.endBootPhase_kept (s : State) (h0 : s.Kept ql zf) :
    (State.endBootPhase s).Kept ql zf := by
  unfold State.endBootPhase
  repeat' (first
    | with_reducible assumption
    | (intro hq; exact Port.Balanced.same hq rfl rfl rfl rfl)
    | (dsimp only)
    | (intro _)
    | with_reducible apply State.schussFade_kept
    | with_reducible apply State.setFld_kept
    | with_reducible apply State.Kept.foldl
    | (refine State.Kept.of_snd (by assumption) ?_)
    | (refine State.Kept.of_snd2 (by assumption) ?_)
    | (refine State.Kept.of_snd3 (by assumption) ?_)
    | (refine State.Kept.of_mid (by assumption) ?_)
    | with_reducible apply State.Kept.ite
    | split
    | (fail_if_no_progress (with_reducible apply State.Kept.upd)))

theorem State.schussDone_kept (s : State) (h0 : s.Kept ql zf) :
    (State.schussDone s).Kept ql zf := by
  unfold State.schussDone
  repeat' (first
    | with_reducible assumption
    | (intro hq; exact Port.Balanced.same hq rfl rfl rfl rfl)
    | (dsimp only)
    | (intro _)
    | with_reducible apply State.raise_kept
    | with_reducible apply State.pdmFollow_kept
    | with_reducible apply State.Kept.foldl
    | (refine State.Kept.of_snd (by assumption) ?_)
    | (refine State.Kept.of_snd2 (by assumption) ?_)
    | (refine State.Kept.of_snd3 (by assumption) ?_)
    | (refine State.Kept.of_mid (by assumption) ?_)
    | with_reducible apply State.Kept.ite
    | split
    | (fail_if_no_progress (with_reducible apply State.Kept.upd)))

theorem State.schussSum_kept (s : State) (pdm : Vector PdmIn 8) (h0 : s.Kept ql zf) :
    (State.schussSum s pdm).2.Kept ql zf := by
  unfold State.schussSum
  repeat' (first
    | with_reducible assumption
    | (intro hq; exact Port.Balanced.same hq rfl rfl rfl rfl)
    | (dsimp only)
    | (intro _)
    | with_reducible apply State.toQ31_kept
    | with_reducible apply State.Kept.foldl
    | (refine State.Kept.of_snd (by assumption) ?_)
    | (refine State.Kept.of_snd2 (by assumption) ?_)
    | (refine State.Kept.of_snd3 (by assumption) ?_)
    | (refine State.Kept.of_mid (by assumption) ?_)
    | with_reducible apply State.Kept.ite
    | split
    | (fail_if_no_progress (with_reducible apply State.Kept.upd)))

theorem State.schussTick_kept (s : State) (pdm : Vector PdmIn 8) (h0 : s.Kept ql zf) :
    (State.schussTick s pdm).Kept ql zf := by
  unfold State.schussTick
  repeat' (first
    | with_reducible assumption
    | (intro hq; exact Port.Balanced.same hq rfl rfl rfl rfl)
    | (dsimp only)
    | (intro _)
    | with_reducible apply State.schussSum_kept
    | with_reducible apply State.Kept.foldl
    | (refine State.Kept.of_snd (by assumption) ?_)
    | (refine State.Kept.of_snd2 (by assumption) ?_)
    | (refine State.Kept.of_snd3 (by assumption) ?_)
    | (refine State.Kept.of_mid (by assumption) ?_)
    | with_reducible apply State.Kept.ite
    | split
    | (fail_if_no_progress (with_reducible apply State.Kept.upd)))

theorem State.svcGone_kept (s : State) (st : Nat) (h0 : s.Kept ql zf) :
    (State.svcGone s st).Kept ql zf := by
  unfold State.svcGone
  repeat' (first
    | with_reducible assumption
    | (intro hq; exact Port.Balanced.same hq rfl rfl rfl rfl)
    | (dsimp only)
    | (intro _)
    | with_reducible apply State.crcDrop_kept
    | with_reducible apply State.syncUntested_kept
    | with_reducible apply State.setFld_kept
    | with_reducible apply State.Kept.foldl
    | (refine State.Kept.of_snd (by assumption) ?_)
    | (refine State.Kept.of_snd2 (by assumption) ?_)
    | (refine State.Kept.of_snd3 (by assumption) ?_)
    | (refine State.Kept.of_mid (by assumption) ?_)
    | with_reducible apply State.Kept.ite
    | split
    | (fail_if_no_progress (with_reducible apply State.Kept.upd)))

theorem State.svcStopped_kept (s : State) (h0 : s.Kept ql zf) :
    (State.svcStopped s).Kept ql zf := by
  unfold State.svcStopped
  repeat' (first
    | with_reducible assumption
    | (intro hq; exact Port.Balanced.same hq rfl rfl rfl rfl)
    | (dsimp only)
    | (intro _)
    | with_reducible apply State.svcGone_kept
    | with_reducible apply State.raise_kept
    | with_reducible apply State.setMode_kept
    | with_reducible apply State.Kept.foldl
    | (refine State.Kept.of_snd (by assumption) ?_)
    | (refine State.Kept.of_snd2 (by assumption) ?_)
    | (refine State.Kept.of_snd3 (by assumption) ?_)
    | (refine State.Kept.of_mid (by assumption) ?_)
    | with_reducible apply State.Kept.ite
    | split
    | (fail_if_no_progress (with_reducible apply State.Kept.upd)))

theorem State.suppRevert_kept (s : State) (h0 : s.Kept ql zf) :
    (State.suppRevert s).Kept ql zf := by
  unfold State.suppRevert
  repeat' (first
    | with_reducible assumption
    | (intro hq; exact Port.Balanced.same hq rfl rfl rfl rfl)
    | (dsimp only)
    | (intro _)
    | with_reducible apply State.syncUntested_kept
    | with_reducible apply State.setFld_kept
    | with_reducible apply State.Kept.foldl
    | (refine State.Kept.of_snd (by assumption) ?_)
    | (refine State.Kept.of_snd2 (by assumption) ?_)
    | (refine State.Kept.of_snd3 (by assumption) ?_)
    | (refine State.Kept.of_mid (by assumption) ?_)
    | with_reducible apply State.Kept.ite
    | split
    | (fail_if_no_progress (with_reducible apply State.Kept.upd)))

theorem State.enterRecovery_kept (s : State) (h0 : s.Kept ql zf) :
    (State.enterRecovery s).Kept ql zf := by
  unfold State.enterRecovery
  repeat' (first
    | with_reducible assumption
    | (intro hq; exact Port.Balanced.same hq rfl rfl rfl rfl)
    | (dsimp only)
    | (intro _)
    | with_reducible apply State.endBootPhase_kept
    | with_reducible apply State.fabCtrlWrite_kept
    | with_reducible apply State.suppRevert_kept
    | with_reducible apply State.svcStopped_kept
    | with_reducible apply State.raise_kept
    | with_reducible apply State.setMode_kept
    | with_reducible apply State.Kept.foldl
    | (refine State.Kept.of_snd (by assumption) ?_)
    | (refine State.Kept.of_snd2 (by assumption) ?_)
    | (refine State.Kept.of_snd3 (by assumption) ?_)
    | (refine State.Kept.of_mid (by assumption) ?_)
    | with_reducible apply State.Kept.ite
    | split
    | (fail_if_no_progress (with_reducible apply State.Kept.upd)))

theorem State.bootCtrlWrite_kept (recover : State → State) (v : Nat) (s : State) (h0 : ∀ s : State, s.Kept ql zf → (recover s).Kept ql zf) (h2 : s.Kept ql zf) :
    (State.bootCtrlWrite recover v s).Kept ql zf := by
  unfold State.bootCtrlWrite
  split
  · exact State.setErr_kept _ _ _ h2
  · extract_lets +onlyGivenNames t u
    have ht : t.Kept ql zf := by
      show (if bitOf v 0 then s.svcStopped else s).Kept ql zf
      split
      · exact State.svcStopped_kept _ h2
      · exact h2
    clear_value t
    have hu : u.Kept ql zf := by
      show (if bitOf v 1 then t.endBootPhase else t).Kept ql zf
      split
      · exact State.endBootPhase_kept _ ht
      · exact ht
    clear_value u
    split
    · exact h0 _ hu
    · exact hu

theorem State.setLoad_kept (s : State) (st : Nat) (h0 : s.Kept ql zf) :
    (State.setLoad s st).Kept ql zf := by
  unfold State.setLoad
  repeat' (first
    | with_reducible assumption
    | (intro hq; exact Port.Balanced.same hq rfl rfl rfl rfl)
    | (dsimp only)
    | (intro _)
    | with_reducible apply State.setFld_kept
    | with_reducible apply State.Kept.foldl
    | (refine State.Kept.of_snd (by assumption) ?_)
    | (refine State.Kept.of_snd2 (by assumption) ?_)
    | (refine State.Kept.of_snd3 (by assumption) ?_)
    | (refine State.Kept.of_mid (by assumption) ?_)
    | with_reducible apply State.Kept.ite
    | split
    | (fail_if_no_progress (with_reducible apply State.Kept.upd)))

theorem State.loadOpen_kept (s : State) (p : Fin 4) (kind : Nat) (h0 : s.Kept ql zf) :
    (State.loadOpen s p kind).Kept ql zf := by
  unfold State.loadOpen
  repeat' (first
    | with_reducible assumption
    | (intro hq; exact Port.Balanced.same hq rfl rfl rfl rfl)
    | (dsimp only)
    | (intro _)
    | with_reducible apply State.setErr_kept
    | with_reducible apply State.suppRevert_kept
    | with_reducible apply State.setFld_kept
    | with_reducible apply State.setLoad_kept
    | with_reducible apply State.Kept.foldl
    | (refine State.Kept.of_snd (by assumption) ?_)
    | (refine State.Kept.of_snd2 (by assumption) ?_)
    | (refine State.Kept.of_snd3 (by assumption) ?_)
    | (refine State.Kept.of_mid (by assumption) ?_)
    | with_reducible apply State.Kept.ite
    | split
    | (fail_if_no_progress (with_reducible apply State.Kept.upd)))

theorem State.windowWrite_kept (s : State) (p : Fin 4) (w v : Nat) (h0 : s.Kept ql zf) :
    (State.windowWrite s p w v).Kept ql zf := by
  unfold State.windowWrite
  repeat' (first
    | with_reducible assumption
    | (intro hq; exact Port.Balanced.same hq rfl rfl rfl rfl)
    | (dsimp only)
    | (intro _)
    | with_reducible apply State.setErr_kept
    | with_reducible apply State.setMemWord_kept
    | with_reducible apply State.Kept.foldl
    | (refine State.Kept.of_snd (by assumption) ?_)
    | (refine State.Kept.of_snd2 (by assumption) ?_)
    | (refine State.Kept.of_snd3 (by assumption) ?_)
    | (refine State.Kept.of_mid (by assumption) ?_)
    | with_reducible apply State.Kept.ite
    | split
    | (fail_if_no_progress (with_reducible apply State.Kept.upd)))

theorem State.loadEnd_kept (s : State) (h0 : s.Kept ql zf) :
    (State.loadEnd s).Kept ql zf := by
  unfold State.loadEnd
  repeat' (first
    | with_reducible assumption
    | (intro hq; exact Port.Balanced.same hq rfl rfl rfl rfl)
    | (dsimp only)
    | (intro _)
    | with_reducible apply State.waitOver_kept
    | with_reducible apply State.setLoad_kept
    | with_reducible apply State.Kept.foldl
    | (refine State.Kept.of_snd (by assumption) ?_)
    | (refine State.Kept.of_snd2 (by assumption) ?_)
    | (refine State.Kept.of_snd3 (by assumption) ?_)
    | (refine State.Kept.of_mid (by assumption) ?_)
    | with_reducible apply State.Kept.ite
    | split
    | (fail_if_no_progress (with_reducible apply State.Kept.upd)))

theorem State.checkRequest_kept (s : State) (p : Fin 4) (start : Bool) (h0 : s.Kept ql zf) :
    (State.checkRequest s p start).Kept ql zf := by
  unfold State.checkRequest
  repeat' (first
    | with_reducible assumption
    | (intro hq; exact Port.Balanced.same hq rfl rfl rfl rfl)
    | (dsimp only)
    | (intro _)
    | with_reducible apply State.setErr_kept
    | with_reducible apply State.setFld_kept
    | with_reducible apply State.setLoad_kept
    | with_reducible apply State.Kept.foldl
    | (refine State.Kept.of_snd (by assumption) ?_)
    | (refine State.Kept.of_snd2 (by assumption) ?_)
    | (refine State.Kept.of_snd3 (by assumption) ?_)
    | (refine State.Kept.of_mid (by assumption) ?_)
    | with_reducible apply State.Kept.ite
    | split
    | (fail_if_no_progress (with_reducible apply State.Kept.upd)))

theorem State.loadCtrlWrite_kept (s : State) (p : Fin 4) (v : Nat) (h0 : s.Kept ql zf) :
    (State.loadCtrlWrite s p v).Kept ql zf := by
  unfold State.loadCtrlWrite
  repeat' (first
    | with_reducible assumption
    | (intro hq; exact Port.Balanced.same hq rfl rfl rfl rfl)
    | (dsimp only)
    | (intro _)
    | with_reducible apply State.setFld_kept
    | with_reducible apply State.loadEnd_kept
    | with_reducible apply State.setErr_kept
    | with_reducible apply State.loadOpen_kept
    | with_reducible apply State.checkRequest_kept
    | with_reducible apply State.Kept.foldl
    | (refine State.Kept.of_snd (by assumption) ?_)
    | (refine State.Kept.of_snd2 (by assumption) ?_)
    | (refine State.Kept.of_snd3 (by assumption) ?_)
    | (refine State.Kept.of_mid (by assumption) ?_)
    | with_reducible apply State.Kept.ite
    | split
    | (fail_if_no_progress (with_reducible apply State.Kept.upd)))

theorem State.checkEnd_kept (s : State) (start : Bool) (h0 : s.Kept ql zf) :
    (State.checkEnd s start).2.Kept ql zf := by
  unfold State.checkEnd
  repeat' (first
    | with_reducible assumption
    | (intro hq; exact Port.Balanced.same hq rfl rfl rfl rfl)
    | (dsimp only)
    | (intro _)
    | with_reducible apply State.raise_kept
    | with_reducible apply State.setFld_kept
    | with_reducible apply State.setLoad_kept
    | with_reducible apply State.Kept.foldl
    | (refine State.Kept.of_snd (by assumption) ?_)
    | (refine State.Kept.of_snd2 (by assumption) ?_)
    | (refine State.Kept.of_snd3 (by assumption) ?_)
    | (refine State.Kept.of_mid (by assumption) ?_)
    | with_reducible apply State.Kept.ite
    | split
    | (fail_if_no_progress (with_reducible apply State.Kept.upd)))

theorem State.untestedStart_kept (s : State) (i : Image) (h0 : s.Kept ql zf) :
    (State.untestedStart s i).Kept ql zf := by
  unfold State.untestedStart
  repeat' (first
    | with_reducible assumption
    | (intro hq; exact Port.Balanced.same hq rfl rfl rfl rfl)
    | (dsimp only)
    | (intro _)
    | with_reducible apply State.raise_kept
    | with_reducible apply State.syncUntested_kept
    | with_reducible apply State.Kept.foldl
    | (refine State.Kept.of_snd (by assumption) ?_)
    | (refine State.Kept.of_snd2 (by assumption) ?_)
    | (refine State.Kept.of_snd3 (by assumption) ?_)
    | (refine State.Kept.of_mid (by assumption) ?_)
    | with_reducible apply State.Kept.ite
    | split
    | (fail_if_no_progress (with_reducible apply State.Kept.upd)))

theorem State.svcRun_kept (s : State) (i : Image) (h0 : s.Kept ql zf) :
    (State.svcRun s i).Kept ql zf := by
  unfold State.svcRun
  repeat' (first
    | with_reducible assumption
    | (intro hq; exact Port.Balanced.same hq rfl rfl rfl rfl)
    | (dsimp only)
    | (intro _)
    | with_reducible apply State.setLoad_kept
    | with_reducible apply State.setFld_kept
    | with_reducible apply State.classifyAll_kept
    | with_reducible apply State.raise_kept
    | with_reducible apply State.setMode_kept
    | with_reducible apply State.untestedStart_kept
    | with_reducible apply State.Kept.foldl
    | (refine State.Kept.of_snd (by assumption) ?_)
    | (refine State.Kept.of_snd2 (by assumption) ?_)
    | (refine State.Kept.of_snd3 (by assumption) ?_)
    | (refine State.Kept.of_mid (by assumption) ?_)
    | with_reducible apply State.Kept.ite
    | split
    | (fail_if_no_progress (with_reducible apply State.Kept.upd)))

theorem State.suppRun_kept (s : State) (i : Image) (h0 : s.Kept ql zf) :
    (State.suppRun s i).Kept ql zf := by
  unfold State.suppRun
  repeat' (first
    | with_reducible assumption
    | (intro hq; exact Port.Balanced.same hq rfl rfl rfl rfl)
    | (dsimp only)
    | (intro _)
    | with_reducible apply State.untestedStart_kept
    | with_reducible apply State.setLoad_kept
    | with_reducible apply State.setFld_kept
    | with_reducible apply State.Kept.foldl
    | (refine State.Kept.of_snd (by assumption) ?_)
    | (refine State.Kept.of_snd2 (by assumption) ?_)
    | (refine State.Kept.of_snd3 (by assumption) ?_)
    | (refine State.Kept.of_mid (by assumption) ?_)
    | with_reducible apply State.Kept.ite
    | split
    | (fail_if_no_progress (with_reducible apply State.Kept.upd)))

theorem State.reply_kept (s : State) (id service port status : Nat) (data : List Byte) (h0 : s.Kept ql zf) :
    (State.reply s id service port status data).Kept ql zf := by
  unfold State.reply
  repeat' (first
    | with_reducible assumption
    | (intro hq; exact Port.Balanced.same hq rfl rfl rfl rfl)
    | (dsimp only)
    | (intro _)
    | with_reducible apply State.ringPut_kept
    | with_reducible apply State.ringTake_kept
    | with_reducible apply State.Kept.foldl
    | (refine State.Kept.of_snd (by assumption) ?_)
    | (refine State.Kept.of_snd2 (by assumption) ?_)
    | (refine State.Kept.of_snd3 (by assumption) ?_)
    | (refine State.Kept.of_mid (by assumption) ?_)
    | with_reducible apply State.Kept.ite
    | split
    | (fail_if_no_progress (with_reducible apply State.Kept.upd)))

theorem State.serve_kept (s : State) (service : Nat) (f : State → List Byte → State × List Byte) (h0 : s.Kept ql zf) (hf : ∀ (s : State) l, s.Kept ql zf → (f s l).1.Kept ql zf) : (s.serve service f).Kept ql zf := by
  unfold State.serve
  split
  · split
    · exact State.reply_kept _ _ _ _ _ _ (hf _ _ h0)
    · exact h0
  · exact h0

theorem State.freeWords16_kept : ∀ (s : State) (n : Nat) (h : s.Kept ql zf), (s.freeWords16 n).2.Kept ql zf := by
  intro s n
  induction n generalizing s with
  | zero => exact fun h => h
  | succ n ih => exact fun h => ih _ (State.free_kept _ 65536 h)

theorem execSvcStarted_kept (s : State) (h0 : s.Kept ql zf) :
    NextKept (execSvcStarted s) ql zf := by
  unfold execSvcStarted
  repeat' (first
    | with_reducible assumption
    | (intro hq; exact Port.Balanced.same hq rfl rfl rfl rfl)
    | (dsimp only)
    | (intro _)
    | with_reducible apply State.svcRun_kept
    | apply nextKept_next
    | with_reducible apply State.Kept.foldl
    | (refine State.Kept.of_snd (by assumption) ?_)
    | (refine State.Kept.of_snd2 (by assumption) ?_)
    | (refine State.Kept.of_snd3 (by assumption) ?_)
    | (refine State.Kept.of_mid (by assumption) ?_)
    | with_reducible apply State.Kept.ite
    | split
    | (fail_if_no_progress (with_reducible apply State.Kept.upd)))

theorem execSuppApplied_kept (s : State) (h0 : s.Kept ql zf) :
    NextKept (execSuppApplied s) ql zf := by
  unfold execSuppApplied
  repeat' (first
    | with_reducible assumption
    | (intro hq; exact Port.Balanced.same hq rfl rfl rfl rfl)
    | (dsimp only)
    | (intro _)
    | with_reducible apply State.suppRun_kept
    | apply nextKept_next
    | with_reducible apply State.Kept.foldl
    | (refine State.Kept.of_snd (by assumption) ?_)
    | (refine State.Kept.of_snd2 (by assumption) ?_)
    | (refine State.Kept.of_snd3 (by assumption) ?_)
    | (refine State.Kept.of_mid (by assumption) ?_)
    | with_reducible apply State.Kept.ite
    | split
    | (fail_if_no_progress (with_reducible apply State.Kept.upd)))

theorem execSvcStop_kept (s : State) (h0 : s.Kept ql zf) :
    NextKept (execSvcStop s) ql zf := by
  unfold execSvcStop
  repeat' (first
    | with_reducible assumption
    | (intro hq; exact Port.Balanced.same hq rfl rfl rfl rfl)
    | (dsimp only)
    | (intro _)
    | with_reducible apply State.svcStopped_kept
    | apply nextKept_next
    | with_reducible apply State.Kept.foldl
    | (refine State.Kept.of_snd (by assumption) ?_)
    | (refine State.Kept.of_snd2 (by assumption) ?_)
    | (refine State.Kept.of_snd3 (by assumption) ?_)
    | (refine State.Kept.of_mid (by assumption) ?_)
    | with_reducible apply State.Kept.ite
    | split
    | (fail_if_no_progress (with_reducible apply State.Kept.upd)))

theorem execSchussStop_kept (s : State) (h0 : s.Kept ql zf) :
    NextKept (execSchussStop s) ql zf := by
  unfold execSchussStop
  repeat' (first
    | with_reducible assumption
    | (intro hq; exact Port.Balanced.same hq rfl rfl rfl rfl)
    | (dsimp only)
    | (intro _)
    | with_reducible apply State.endBootPhase_kept
    | apply nextKept_next
    | with_reducible apply State.Kept.foldl
    | (refine State.Kept.of_snd (by assumption) ?_)
    | (refine State.Kept.of_snd2 (by assumption) ?_)
    | (refine State.Kept.of_snd3 (by assumption) ?_)
    | (refine State.Kept.of_mid (by assumption) ?_)
    | with_reducible apply State.Kept.ite
    | split
    | (fail_if_no_progress (with_reducible apply State.Kept.upd)))

theorem execFuseBlowDone_kept (s : State) (h0 : s.Kept ql zf) :
    NextKept (execFuseBlowDone s) ql zf := by
  unfold execFuseBlowDone
  repeat' (first
    | with_reducible assumption
    | (intro hq; exact Port.Balanced.same hq rfl rfl rfl rfl)
    | (dsimp only)
    | (intro _)
    | with_reducible apply State.fuseBlown_kept
    | apply nextKept_next
    | with_reducible apply State.Kept.foldl
    | (refine State.Kept.of_snd (by assumption) ?_)
    | (refine State.Kept.of_snd2 (by assumption) ?_)
    | (refine State.Kept.of_snd3 (by assumption) ?_)
    | (refine State.Kept.of_mid (by assumption) ?_)
    | with_reducible apply State.Kept.ite
    | split
    | (fail_if_no_progress (with_reducible apply State.Kept.upd)))

theorem execServiceVersion_kept (s : State) (h0 : s.Kept ql zf) :
    NextKept (execServiceVersion s) ql zf := by
  unfold execServiceVersion
  repeat' (first
    | with_reducible assumption
    | (intro hq; exact Port.Balanced.same hq rfl rfl rfl rfl)
    | (dsimp only)
    | (intro _)
    | with_reducible apply State.serve_kept
    | apply nextKept_next
    | with_reducible apply State.Kept.foldl
    | (refine State.Kept.of_snd (by assumption) ?_)
    | (refine State.Kept.of_snd2 (by assumption) ?_)
    | (refine State.Kept.of_snd3 (by assumption) ?_)
    | (refine State.Kept.of_mid (by assumption) ?_)
    | with_reducible apply State.Kept.ite
    | split
    | (fail_if_no_progress (with_reducible apply State.Kept.upd)))

theorem execServiceReclassify_kept (s : State) (h0 : s.Kept ql zf) :
    NextKept (execServiceReclassify s) ql zf := by
  unfold execServiceReclassify
  repeat' (first
    | with_reducible assumption
    | (intro hq; exact Port.Balanced.same hq rfl rfl rfl rfl)
    | (dsimp only)
    | (intro _)
    | with_reducible apply State.serve_kept
    | with_reducible apply State.reclassify_kept
    | apply nextKept_next
    | with_reducible apply State.Kept.foldl
    | (refine State.Kept.of_snd (by assumption) ?_)
    | (refine State.Kept.of_snd2 (by assumption) ?_)
    | (refine State.Kept.of_snd3 (by assumption) ?_)
    | (refine State.Kept.of_mid (by assumption) ?_)
    | with_reducible apply State.Kept.ite
    | split
    | (fail_if_no_progress (with_reducible apply State.Kept.upd)))

theorem execServiceThermal_kept (s : State) (h0 : s.Kept ql zf) :
    NextKept (execServiceThermal s) ql zf := by
  unfold execServiceThermal
  repeat' (first
    | with_reducible assumption
    | (intro hq; exact Port.Balanced.same hq rfl rfl rfl rfl)
    | (dsimp only)
    | (intro _)
    | with_reducible apply State.serve_kept
    | with_reducible apply State.freeWords16_kept
    | apply nextKept_next
    | with_reducible apply State.Kept.foldl
    | (refine State.Kept.of_snd (by assumption) ?_)
    | (refine State.Kept.of_snd2 (by assumption) ?_)
    | (refine State.Kept.of_snd3 (by assumption) ?_)
    | (refine State.Kept.of_mid (by assumption) ?_)
    | with_reducible apply State.Kept.ite
    | split
    | (fail_if_no_progress (with_reducible apply State.Kept.upd)))

theorem execServiceCalibrate_kept (s : State) (h0 : s.Kept ql zf) :
    NextKept (execServiceCalibrate s) ql zf := by
  unfold execServiceCalibrate
  repeat' (first
    | with_reducible assumption
    | (intro hq; exact Port.Balanced.same hq rfl rfl rfl rfl)
    | (dsimp only)
    | (intro _)
    | with_reducible apply State.serve_kept
    | with_reducible apply State.calRestart_kept
    | apply nextKept_next
    | with_reducible apply State.Kept.foldl
    | (refine State.Kept.of_snd (by assumption) ?_)
    | (refine State.Kept.of_snd2 (by assumption) ?_)
    | (refine State.Kept.of_snd3 (by assumption) ?_)
    | (refine State.Kept.of_mid (by assumption) ?_)
    | with_reducible apply State.Kept.ite
    | split
    | (fail_if_no_progress (with_reducible apply State.Kept.upd)))

theorem execServiceRefused_kept (s : State) (h0 : s.Kept ql zf) :
    NextKept (execServiceRefused s) ql zf := by
  unfold execServiceRefused
  repeat' (first
    | with_reducible assumption
    | (intro hq; exact Port.Balanced.same hq rfl rfl rfl rfl)
    | (dsimp only)
    | (intro _)
    | with_reducible apply State.reply_kept
    | apply nextKept_next
    | with_reducible apply State.Kept.foldl
    | (refine State.Kept.of_snd (by assumption) ?_)
    | (refine State.Kept.of_snd2 (by assumption) ?_)
    | (refine State.Kept.of_snd3 (by assumption) ?_)
    | (refine State.Kept.of_mid (by assumption) ?_)
    | with_reducible apply State.Kept.ite
    | split
    | (fail_if_no_progress (with_reducible apply State.Kept.upd)))

end Sys2Proof.Machine
end

