-- ==== Sys2Proof/Laws/KeptPower.lean ====
section
/-!
SUPPORT. What commands keep (Kept): domains, resets, register writes and reads.
-/
namespace Sys2Proof.Machine

variable {ql : List Instr} {zf : BitVec 512}

theorem State.updDom_kept (s : State) (d : Nat) (f : Dom → Dom) (h0 : s.Kept ql zf) :
    (State.updDom s d f).Kept ql zf := by
  unfold State.updDom
  repeat' (first
    | with_reducible assumption
    | (intro hq; exact Port.Balanced.same hq rfl rfl rfl rfl)
    | (dsimp only)
    | (intro _)
    | with_reducible apply State.Kept.foldl
    | (refine State.Kept.of_snd (by assumption) ?_)
    | (refine State.Kept.of_snd2 (by assumption) ?_)
    | (refine State.Kept.of_snd3 (by assumption) ?_)
    | (refine State.Kept.of_mid (by assumption) ?_)
    | with_reducible apply State.Kept.ite
    | split
    | (fail_if_no_progress (with_reducible apply State.Kept.upd)))

theorem State.setDom_kept (s : State) (d : Nat) (p : DomPhase) (h0 : s.Kept ql zf) :
    (State.setDom s d p).Kept ql zf := by
  unfold State.setDom
  repeat' (first
    | with_reducible assumption
    | (intro hq; exact Port.Balanced.same hq rfl rfl rfl rfl)
    | (dsimp only)
    | (intro _)
    | with_reducible apply State.updDom_kept
    | with_reducible apply State.Kept.foldl
    | (refine State.Kept.of_snd (by assumption) ?_)
    | (refine State.Kept.of_snd2 (by assumption) ?_)
    | (refine State.Kept.of_snd3 (by assumption) ?_)
    | (refine State.Kept.of_mid (by assumption) ?_)
    | with_reducible apply State.Kept.ite
    | split
    | (fail_if_no_progress (with_reducible apply State.Kept.upd)))

theorem State.dropRange_kept (s : State) (lo hi : Nat) (h0 : s.Kept ql zf) :
    (State.dropRange s lo hi).Kept ql zf := by
  exact ⟨⟨sparseFilter_wf regReset _ h0.canonical.regs, sparseFilter_wf (fun _ => memDefault) _ h0.canonical.mem, h0.canonical.vers⟩, h0.credited, h0.queue, h0.fuses⟩

theorem State.dropPage_kept (s : State) (p : Nat) (h0 : s.Kept ql zf) :
    (State.dropPage s p).Kept ql zf := by
  unfold State.dropPage
  repeat' (first
    | with_reducible assumption
    | (intro hq; exact Port.Balanced.same hq rfl rfl rfl rfl)
    | (dsimp only)
    | (intro _)
    | with_reducible apply State.dropRange_kept
    | with_reducible apply State.Kept.foldl
    | (refine State.Kept.of_snd (by assumption) ?_)
    | (refine State.Kept.of_snd2 (by assumption) ?_)
    | (refine State.Kept.of_snd3 (by assumption) ?_)
    | (refine State.Kept.of_mid (by assumption) ?_)
    | with_reducible apply State.Kept.ite
    | split
    | (fail_if_no_progress (with_reducible apply State.Kept.upd)))

theorem State.sessionDrop_kept (s : State) (p : Fin 4) (h0 : s.Kept ql zf) :
    (State.sessionDrop s p).Kept ql zf := by
  unfold State.sessionDrop
  repeat' (first
    | with_reducible assumption
    | (intro hq; exact Port.Balanced.same hq rfl rfl rfl rfl)
    | (dsimp only)
    | (intro _)
    | with_reducible apply State.tdacGiveUp_kept
    | with_reducible apply State.crcDrop_kept
    | with_reducible apply State.loadEnd_kept
    | with_reducible apply State.Kept.foldl
    | (refine State.Kept.of_snd (by assumption) ?_)
    | (refine State.Kept.of_snd2 (by assumption) ?_)
    | (refine State.Kept.of_snd3 (by assumption) ?_)
    | (refine State.Kept.of_mid (by assumption) ?_)
    | with_reducible apply State.Kept.ite
    | split
    | (fail_if_no_progress (with_reducible apply State.Kept.upd)))

theorem State.protocolLost_kept (s : State) (h0 : s.Kept ql zf) :
    (State.protocolLost s).Kept ql zf := by
  unfold State.protocolLost
  extract_lets +onlyGivenNames t u
  have ht : t.Kept ql zf := State.Kept.foldl _ (fun s p h => State.sessionDrop_kept s p h) _ h0
  clear_value t
  have hu : u.Kept ql zf := by
    show (if t.fab.pend.isSome then t.swapDrop else t).Kept ql zf
    split
    · exact State.swapDrop_kept _ ht
    · exact ht
  clear_value u
  refine ⟨⟨hu.canonical.regs, sparseFilter_wf (fun _ => memDefault) _ hu.canonical.mem, hu.canonical.vers⟩, ?_, hu.queue, hu.fuses⟩
  intro p
  simp only [Fin.getElem_fin, Vector.getElem_ofFn]
  exact ⟨rfl, Nat.le_refl 0⟩

theorem State.cmemLost_kept (s : State) (h0 : s.Kept ql zf) :
    (State.cmemLost s).Kept ql zf := by
  unfold State.cmemLost
  repeat' (first
    | with_reducible assumption
    | (intro hq; exact Port.Balanced.same hq rfl rfl rfl rfl)
    | (dsimp only)
    | (intro _)
    | with_reducible apply State.clearMem_kept
    | with_reducible apply State.protocolLost_kept
    | with_reducible apply State.setFld_kept
    | with_reducible apply State.Kept.foldl
    | (refine State.Kept.of_snd (by assumption) ?_)
    | (refine State.Kept.of_snd2 (by assumption) ?_)
    | (refine State.Kept.of_snd3 (by assumption) ?_)
    | (refine State.Kept.of_mid (by assumption) ?_)
    | with_reducible apply State.Kept.ite
    | split
    | (fail_if_no_progress (with_reducible apply State.Kept.upd)))

theorem State.coreFresh_kept (s : State) (h0 : s.Kept ql zf) :
    (State.coreFresh s).Kept ql zf := by
  unfold State.coreFresh
  extract_lets +onlyGivenNames t u
  have ht : t.Kept ql zf := State.protocolLost_kept _ h0
  clear_value t
  have hu : u.Kept ql zf := by
    refine ⟨⟨ht.canonical.regs, ht.canonical.mem, ht.canonical.vers⟩, ?_, ht.queue, ht.fuses⟩
    intro p
    show ((Vector.ofFn fun (i : Fin 4) => { Port.atReset i with xport := if i.val = 2 then t.xportCopy else 0 })[p] : Port).Balanced
    simp only [Fin.getElem_fin, Vector.getElem_ofFn]
    exact ⟨rfl, Nat.le_refl 0⟩
  clear_value u
  exact State.Kept.foldl _ (fun s p h => State.setFld_kept _ _ _ (State.setFld_kept _ _ _ h)) _ hu

theorem State.supFresh_kept (s : State) (phase : Bool) (h0 : s.Kept ql zf) :
    (State.supFresh s phase).Kept ql zf := by
  unfold State.supFresh
  repeat' (first
    | with_reducible assumption
    | (intro hq; exact Port.Balanced.same hq rfl rfl rfl rfl)
    | (dsimp only)
    | (intro _)
    | with_reducible apply State.setFld_kept
    | with_reducible apply State.Kept.foldl
    | (refine State.Kept.of_snd (by assumption) ?_)
    | (refine State.Kept.of_snd2 (by assumption) ?_)
    | (refine State.Kept.of_snd3 (by assumption) ?_)
    | (refine State.Kept.of_mid (by assumption) ?_)
    | with_reducible apply State.Kept.ite
    | split
    | (fail_if_no_progress (with_reducible apply State.Kept.upd)))

theorem State.portgFresh_kept (s : State) (k : Nat) (h0 : s.Kept ql zf) :
    (State.portgFresh s k).Kept ql zf := by
  unfold State.portgFresh
  repeat' (first
    | with_reducible assumption
    | (intro hq; exact Port.Balanced.same hq rfl rfl rfl rfl)
    | (dsimp only)
    | (intro _)
    | with_reducible apply State.clearMem_kept
    | with_reducible apply State.Kept.foldl
    | (refine State.Kept.of_snd (by assumption) ?_)
    | (refine State.Kept.of_snd2 (by assumption) ?_)
    | (refine State.Kept.of_snd3 (by assumption) ?_)
    | (refine State.Kept.of_mid (by assumption) ?_)
    | with_reducible apply State.Kept.ite
    | split
    | (fail_if_no_progress (with_reducible apply State.Kept.upd)))

theorem State.domFresh_kept (s : State) (d : Nat) (h0 : s.Kept ql zf) :
    (State.domFresh s d).Kept ql zf := by
  unfold State.domFresh
  extract_lets +onlyGivenNames phase s1 t
  have h1 : s1.Kept ql zf := State.Kept.ite (State.classifyEnd_kept _ h0) h0
  clear_value s1
  have ht : t.Kept ql zf := State.Kept.foldl _ (fun s p h => State.dropPage_kept s p h) _ h1
  clear_value t phase
  repeat' with_reducible apply State.Kept.ite
  · exact State.supFresh_kept _ _ ht
  · exact State.coreFresh_kept _ ht
  · exact State.Kept.congr (State.dropRange_kept t 0x50000000 0x50060000 ht) rfl rfl rfl rfl
  · exact State.cmemLost_kept _ ht
  · exact State.clearMem_kept _ _ _ ht
  · exact State.portgFresh_kept _ _ ht
  all_goals first
    | exact ht
    | exact State.Kept.congr ht rfl rfl rfl rfl

theorem State.startLower_kept (s : State) (d : Nat) (off : Bool) (h0 : s.Kept ql zf) :
    (State.startLower s d off).Kept ql zf := by
  unfold State.startLower
  repeat' (first
    | with_reducible assumption
    | (intro hq; exact Port.Balanced.same hq rfl rfl rfl rfl)
    | (dsimp only)
    | (intro _)
    | with_reducible apply State.updDom_kept
    | with_reducible apply State.tdacLeaves_kept
    | with_reducible apply State.Kept.foldl
    | (refine State.Kept.of_snd (by assumption) ?_)
    | (refine State.Kept.of_snd2 (by assumption) ?_)
    | (refine State.Kept.of_snd3 (by assumption) ?_)
    | (refine State.Kept.of_mid (by assumption) ?_)
    | with_reducible apply State.Kept.ite
    | split
    | (fail_if_no_progress (with_reducible apply State.Kept.upd)))

theorem State.endLower_kept (s : State) (d : Nat) (off : Bool) (h0 : s.Kept ql zf) :
    (State.endLower s d off).Kept ql zf := by
  unfold State.endLower
  repeat' (first
    | with_reducible assumption
    | (intro hq; exact Port.Balanced.same hq rfl rfl rfl rfl)
    | (dsimp only)
    | (intro _)
    | with_reducible apply State.setDom_kept
    | with_reducible apply State.domFresh_kept
    | with_reducible apply State.ampsysApply_kept
    | with_reducible apply State.enterCoarse_kept
    | with_reducible apply State.Kept.foldl
    | (refine State.Kept.of_snd (by assumption) ?_)
    | (refine State.Kept.of_snd2 (by assumption) ?_)
    | (refine State.Kept.of_snd3 (by assumption) ?_)
    | (refine State.Kept.of_mid (by assumption) ?_)
    | with_reducible apply State.Kept.ite
    | split
    | (fail_if_no_progress (with_reducible apply State.Kept.upd)))

theorem State.reachOn_kept (s : State) (d : Nat) (fromOff : Bool) (h0 : s.Kept ql zf) :
    (State.reachOn s d fromOff).Kept ql zf := by
  unfold State.reachOn
  extract_lets +onlyGivenNames a b
  have ha : a.Kept ql zf := by
    show (if fromOff then (domainPages d).foldl State.bumpVer (s.domFresh d) else s).Kept ql zf
    split
    · exact State.Kept.foldl _ (fun s p h => State.bumpVer_kept s p h) _ (State.domFresh_kept _ _ h0)
    · exact h0
  clear_value a
  have hb : b.Kept ql zf := State.setDom_kept _ _ _ ha
  clear_value b
  split
  · exact State.ampsysApply_kept _ (State.hkaStart_kept _ hb)
  · split
    · have hf := State.flushEvents_kept b hb
      generalize b.flushEvents = c at hf ⊢
      refine State.svcWake_kept _ ?_
      refine ⟨⟨hf.canonical.regs, hf.canonical.mem, hf.canonical.vers⟩, ?_, hf.queue, hf.fuses⟩
      intro p
      show ((c.ports.map fun (p : Port) => { p with leaseMark := b.syscnt })[p] : Port).Balanced
      simp only [Fin.getElem_fin, Vector.getElem_map]
      exact Port.Balanced.same (hf.credited p) rfl rfl rfl rfl
    · split
      · exact State.svcWake_kept _ hb
      · split
        · exact State.pdmFollow_kept _ hb
        · split
          · exact State.Kept.congr hb rfl rfl rfl rfl
          · exact hb

theorem State.retLost_kept (s : State) (d : Nat) (h0 : s.Kept ql zf) :
    (State.retLost s d).Kept ql zf := by
  unfold State.retLost
  repeat' (first
    | with_reducible assumption
    | (intro hq; exact Port.Balanced.same hq rfl rfl rfl rfl)
    | (dsimp only)
    | (intro _)
    | with_reducible apply State.bumpVer_kept
    | with_reducible apply State.setFld_kept
    | with_reducible apply State.setDom_kept
    | with_reducible apply State.protocolLost_kept
    | with_reducible apply State.cmemLost_kept
    | with_reducible apply State.domFresh_kept
    | with_reducible apply State.Kept.foldl
    | (refine State.Kept.of_snd (by assumption) ?_)
    | (refine State.Kept.of_snd2 (by assumption) ?_)
    | (refine State.Kept.of_snd3 (by assumption) ?_)
    | (refine State.Kept.of_mid (by assumption) ?_)
    | with_reducible apply State.Kept.ite
    | split
    | (fail_if_no_progress (with_reducible apply State.Kept.upd)))

theorem State.brownout_kept (s : State) (lost : List (Fin 27)) (h0 : s.Kept ql zf) :
    (State.brownout s lost).Kept ql zf := by
  unfold State.brownout
  repeat' (first
    | with_reducible assumption
    | (intro hq; exact Port.Balanced.same hq rfl rfl rfl rfl)
    | (dsimp only)
    | (intro _)
    | with_reducible apply State.raise_kept
    | with_reducible apply State.countSat_kept
    | with_reducible apply State.setFld_kept
    | with_reducible apply State.retLost_kept
    | with_reducible apply State.Kept.foldl
    | (refine State.Kept.of_snd (by assumption) ?_)
    | (refine State.Kept.of_snd2 (by assumption) ?_)
    | (refine State.Kept.of_snd3 (by assumption) ?_)
    | (refine State.Kept.of_mid (by assumption) ?_)
    | with_reducible apply State.Kept.ite
    | split
    | (fail_if_no_progress (with_reducible apply State.Kept.upd)))

theorem State.takeFuses_kept (s : State) (h0 : s.Kept ql zf) :
    (State.takeFuses s).Kept ql zf := by
  have hx : ∀ (t : State) (x i : Nat), t.Kept ql zf → ({ t with index := i, xportCopy := x, ports := t.ports.mapIdx fun n (p : Port) => if n = 2 then { p with xport := x } else p } : State).Kept ql zf := by
    intro t x i ht
    refine ⟨⟨ht.canonical.regs, ht.canonical.mem, ht.canonical.vers⟩, ?_, ht.queue, ht.fuses⟩
    intro p
    show ((t.ports.mapIdx fun n (p : Port) => if n = 2 then { p with xport := x } else p)[p] : Port).Balanced
    simp only [Fin.getElem_fin, Vector.getElem_mapIdx]
    split
    · exact Port.Balanced.same (ht.credited p) rfl rfl rfl rfl
    · exact ht.credited p
  unfold State.takeFuses
  extract_lets +onlyGivenNames t
  have ht : t.Kept ql zf := State.Kept.congr h0 rfl rfl rfl rfl
  clear_value t
  generalize t.indexNow = z
  obtain ⟨i, bad⟩ := z
  exact State.Kept.ite (State.setErr_kept _ _ _ (hx _ _ _ ht)) (hx _ _ _ ht)

theorem State.fullReset_kept (s : State) (src : ResetSource) (h0 : s.Kept ql zf) :
    (State.fullReset s src).Kept ql zf := by
  have h1 := reset_inv
  unfold State.fullReset
  extract_lets +onlyGivenNames r t
  have ht : t.Kept ql zf := ⟨⟨h1.canonical.regs, h1.canonical.mem, h1.canonical.vers⟩, h1.credited, h0.queue, h0.fuses⟩
  clear_value t
  exact State.setFld_kept _ _ _ ht

theorem State.resetTargets_kept (s : State) (h0 : s.Kept ql zf) :
    (State.resetTargets s).Kept ql zf := by
  unfold State.resetTargets
  repeat' (first
    | with_reducible assumption
    | (intro hq; exact Port.Balanced.same hq rfl rfl rfl rfl)
    | (dsimp only)
    | (intro _)
    | with_reducible apply State.setFld_kept
    | with_reducible apply State.Kept.foldl
    | (refine State.Kept.of_snd (by assumption) ?_)
    | (refine State.Kept.of_snd2 (by assumption) ?_)
    | (refine State.Kept.of_snd3 (by assumption) ?_)
    | (refine State.Kept.of_mid (by assumption) ?_)
    | with_reducible apply State.Kept.ite
    | split
    | (fail_if_no_progress (with_reducible apply State.Kept.upd)))

theorem State.hostReset_kept (s : State) (src : ResetSource) (h0 : s.Kept ql zf) :
    (State.hostReset s src).Kept ql zf := by
  have h1 := reset_inv
  have hl : (if s.mode = .service then s.setMode .bare else s).Kept ql zf := State.Kept.ite (State.setMode_kept _ _ h0) h0
  unfold State.hostReset
  extract_lets +onlyGivenNames left x r t u
  replace hl : left.Kept ql zf := hl
  clear_value left
  have ht : t.Kept ql zf := by
    refine ⟨⟨sparseFilter_wf regReset _ hl.canonical.regs, h1.canonical.mem, h1.canonical.vers⟩, ?_, h0.queue, h0.fuses⟩
    intro p
    show ((State.reset.ports.mapIdx fun n (p : Port) => if n = 2 then { p with xport := x } else p)[p] : Port).Balanced
    simp only [Fin.getElem_fin, Vector.getElem_mapIdx]
    split
    · exact Port.Balanced.same (h1.credited p) rfl rfl rfl rfl
    · exact h1.credited p
  clear_value t
  exact State.setBit_kept _ _ _ _ (State.resetTargets_kept _ ht)

theorem State.deviceReset_kept (s : State) (src : ResetSource) (h0 : s.Kept ql zf) :
    (State.deviceReset s src).Kept ql zf := by
  unfold State.deviceReset
  repeat' (first
    | with_reducible assumption
    | (intro hq; exact Port.Balanced.same hq rfl rfl rfl rfl)
    | (dsimp only)
    | (intro _)
    | with_reducible apply State.fullReset_kept
    | with_reducible apply State.hostReset_kept
    | with_reducible apply State.Kept.foldl
    | (refine State.Kept.of_snd (by assumption) ?_)
    | (refine State.Kept.of_snd2 (by assumption) ?_)
    | (refine State.Kept.of_snd3 (by assumption) ?_)
    | (refine State.Kept.of_mid (by assumption) ?_)
    | with_reducible apply State.Kept.ite
    | split
    | (fail_if_no_progress (with_reducible apply State.Kept.upd)))

theorem State.schussBoot_kept (s : State) (h0 : s.Kept ql zf) :
    (State.schussBoot s).Kept ql zf := by
  unfold State.schussBoot
  repeat' (first
    | with_reducible assumption
    | (intro hq; exact Port.Balanced.same hq rfl rfl rfl rfl)
    | (dsimp only)
    | (intro _)
    | with_reducible apply State.setFld_kept
    | with_reducible apply State.reachOn_kept
    | with_reducible apply State.schussStart_kept
    | with_reducible apply State.Kept.foldl
    | (refine State.Kept.of_snd (by assumption) ?_)
    | (refine State.Kept.of_snd2 (by assumption) ?_)
    | (refine State.Kept.of_snd3 (by assumption) ?_)
    | (refine State.Kept.of_mid (by assumption) ?_)
    | with_reducible apply State.Kept.ite
    | split
    | (fail_if_no_progress (with_reducible apply State.Kept.upd)))

theorem State.bootUp_kept (s0 : State) (h0 : s0.Kept ql zf) :
    (State.bootUp s0).Kept ql zf := by
  unfold State.bootUp
  repeat' (first
    | with_reducible assumption
    | (intro hq; exact Port.Balanced.same hq rfl rfl rfl rfl)
    | (dsimp only)
    | (intro _)
    | with_reducible apply State.takeFuses_kept
    | with_reducible apply State.flushEvents_kept
    | with_reducible apply State.hkaStart_kept
    | with_reducible apply State.leaveCoarse_kept
    | with_reducible apply State.schussBoot_kept
    | with_reducible apply State.setFld_kept
    | with_reducible apply State.Kept.foldl
    | (refine State.Kept.of_snd (by assumption) ?_)
    | (refine State.Kept.of_snd2 (by assumption) ?_)
    | (refine State.Kept.of_snd3 (by assumption) ?_)
    | (refine State.Kept.of_mid (by assumption) ?_)
    | with_reducible apply State.Kept.ite
    | split
    | (fail_if_no_progress (with_reducible apply State.Kept.upd)))

theorem State.recover_kept (s : State) (h0 : s.Kept ql zf) :
    (State.recover s).Kept ql zf := by
  unfold State.recover
  repeat' (first
    | with_reducible assumption
    | (intro hq; exact Port.Balanced.same hq rfl rfl rfl rfl)
    | (dsimp only)
    | (intro _)
    | with_reducible apply State.enterRecovery_kept
    | with_reducible apply State.schussBoot_kept
    | with_reducible apply State.Kept.foldl
    | (refine State.Kept.of_snd (by assumption) ?_)
    | (refine State.Kept.of_snd2 (by assumption) ?_)
    | (refine State.Kept.of_snd3 (by assumption) ?_)
    | (refine State.Kept.of_mid (by assumption) ?_)
    | with_reducible apply State.Kept.ite
    | split
    | (fail_if_no_progress (with_reducible apply State.Kept.upd)))

theorem execSchussEnd_kept (s : State) (h0 : s.Kept ql zf) :
    NextKept (execSchussEnd s) ql zf := by
  unfold execSchussEnd
  repeat' (first
    | with_reducible assumption
    | (intro hq; exact Port.Balanced.same hq rfl rfl rfl rfl)
    | (dsimp only)
    | (intro _)
    | with_reducible apply State.schussDone_kept
    | with_reducible apply State.schussBoot_kept
    | apply nextKept_next
    | with_reducible apply State.Kept.foldl
    | (refine State.Kept.of_snd (by assumption) ?_)
    | (refine State.Kept.of_snd2 (by assumption) ?_)
    | (refine State.Kept.of_snd3 (by assumption) ?_)
    | (refine State.Kept.of_mid (by assumption) ?_)
    | with_reducible apply State.Kept.ite
    | split
    | (fail_if_no_progress (with_reducible apply State.Kept.upd)))

theorem execRecover_kept (s : State) (h0 : s.Kept ql zf) :
    NextKept (execRecover s) ql zf := by
  unfold execRecover
  repeat' (first
    | with_reducible assumption
    | (intro hq; exact Port.Balanced.same hq rfl rfl rfl rfl)
    | (dsimp only)
    | (intro _)
    | with_reducible apply State.recover_kept
    | apply nextKept_next
    | with_reducible apply State.Kept.foldl
    | (refine State.Kept.of_snd (by assumption) ?_)
    | (refine State.Kept.of_snd2 (by assumption) ?_)
    | (refine State.Kept.of_snd3 (by assumption) ?_)
    | (refine State.Kept.of_mid (by assumption) ?_)
    | with_reducible apply State.Kept.ite
    | split
    | (fail_if_no_progress (with_reducible apply State.Kept.upd)))

theorem execPowerOnReset_kept (s : State) (h0 : s.Kept ql zf) :
    NextKept (execPowerOnReset s) ql zf := by
  unfold execPowerOnReset
  repeat' (first
    | with_reducible assumption
    | (intro hq; exact Port.Balanced.same hq rfl rfl rfl rfl)
    | (dsimp only)
    | (intro _)
    | with_reducible apply State.deviceReset_kept
    | apply nextKept_next
    | with_reducible apply State.Kept.foldl
    | (refine State.Kept.of_snd (by assumption) ?_)
    | (refine State.Kept.of_snd2 (by assumption) ?_)
    | (refine State.Kept.of_snd3 (by assumption) ?_)
    | (refine State.Kept.of_mid (by assumption) ?_)
    | with_reducible apply State.Kept.ite
    | split
    | (fail_if_no_progress (with_reducible apply State.Kept.upd)))

theorem execSupplyLoss_kept (s : State) (h0 : s.Kept ql zf) :
    NextKept (execSupplyLoss s) ql zf := by
  unfold execSupplyLoss
  repeat' (first
    | with_reducible assumption
    | (intro hq; exact Port.Balanced.same hq rfl rfl rfl rfl)
    | (dsimp only)
    | (intro _)
    | with_reducible apply State.deviceReset_kept
    | apply nextKept_next
    | with_reducible apply State.Kept.foldl
    | (refine State.Kept.of_snd (by assumption) ?_)
    | (refine State.Kept.of_snd2 (by assumption) ?_)
    | (refine State.Kept.of_snd3 (by assumption) ?_)
    | (refine State.Kept.of_mid (by assumption) ?_)
    | with_reducible apply State.Kept.ite
    | split
    | (fail_if_no_progress (with_reducible apply State.Kept.upd)))

theorem execRstNAssert_kept (s : State) (h0 : s.Kept ql zf) :
    NextKept (execRstNAssert s) ql zf := by
  unfold execRstNAssert
  repeat' (first
    | with_reducible assumption
    | (intro hq; exact Port.Balanced.same hq rfl rfl rfl rfl)
    | (dsimp only)
    | (intro _)
    | with_reducible apply State.deviceReset_kept
    | apply nextKept_next
    | with_reducible apply State.Kept.foldl
    | (refine State.Kept.of_snd (by assumption) ?_)
    | (refine State.Kept.of_snd2 (by assumption) ?_)
    | (refine State.Kept.of_snd3 (by assumption) ?_)
    | (refine State.Kept.of_mid (by assumption) ?_)
    | with_reducible apply State.Kept.ite
    | split
    | (fail_if_no_progress (with_reducible apply State.Kept.upd)))

theorem State.resetKey_kept (s : State) (key : Nat) (h0 : s.Kept ql zf) :
    (State.resetKey s key).Kept ql zf := by
  unfold State.resetKey
  repeat' (first
    | with_reducible assumption
    | (intro hq; exact Port.Balanced.same hq rfl rfl rfl rfl)
    | (dsimp only)
    | (intro _)
    | with_reducible apply State.deviceReset_kept
    | with_reducible apply State.setErr_kept
    | with_reducible apply State.Kept.foldl
    | (refine State.Kept.of_snd (by assumption) ?_)
    | (refine State.Kept.of_snd2 (by assumption) ?_)
    | (refine State.Kept.of_snd3 (by assumption) ?_)
    | (refine State.Kept.of_mid (by assumption) ?_)
    | with_reducible apply State.Kept.ite
    | split
    | (fail_if_no_progress (with_reducible apply State.Kept.upd)))

theorem execHostReset_kept (key : Byte) (s : State) (h1 : s.Kept ql zf) :
    NextKept (execHostReset key s) ql zf := by
  unfold execHostReset
  repeat' (first
    | with_reducible assumption
    | (intro hq; exact Port.Balanced.same hq rfl rfl rfl rfl)
    | (dsimp only)
    | (intro _)
    | with_reducible apply State.resetKey_kept
    | apply nextKept_next
    | with_reducible apply State.Kept.foldl
    | (refine State.Kept.of_snd (by assumption) ?_)
    | (refine State.Kept.of_snd2 (by assumption) ?_)
    | (refine State.Kept.of_snd3 (by assumption) ?_)
    | (refine State.Kept.of_mid (by assumption) ?_)
    | with_reducible apply State.Kept.ite
    | split
    | (fail_if_no_progress (with_reducible apply State.Kept.upd)))

theorem execWatchdogReset_kept (s : State) (h0 : s.Kept ql zf) :
    NextKept (execWatchdogReset s) ql zf := by
  unfold execWatchdogReset
  repeat' (first
    | with_reducible assumption
    | (intro hq; exact Port.Balanced.same hq rfl rfl rfl rfl)
    | (dsimp only)
    | (intro _)
    | with_reducible apply State.deviceReset_kept
    | apply nextKept_next
    | with_reducible apply State.Kept.foldl
    | (refine State.Kept.of_snd (by assumption) ?_)
    | (refine State.Kept.of_snd2 (by assumption) ?_)
    | (refine State.Kept.of_snd3 (by assumption) ?_)
    | (refine State.Kept.of_mid (by assumption) ?_)
    | with_reducible apply State.Kept.ite
    | split
    | (fail_if_no_progress (with_reducible apply State.Kept.upd)))

theorem execResetRelease_kept (s : State) (h0 : s.Kept ql zf) :
    NextKept (execResetRelease s) ql zf := by
  unfold execResetRelease
  repeat' (first
    | with_reducible assumption
    | (intro hq; exact Port.Balanced.same hq rfl rfl rfl rfl)
    | (dsimp only)
    | (intro _)
    | with_reducible apply State.bootUp_kept
    | apply nextKept_next
    | with_reducible apply State.Kept.foldl
    | (refine State.Kept.of_snd (by assumption) ?_)
    | (refine State.Kept.of_snd2 (by assumption) ?_)
    | (refine State.Kept.of_snd3 (by assumption) ?_)
    | (refine State.Kept.of_mid (by assumption) ?_)
    | with_reducible apply State.Kept.ite
    | split
    | (fail_if_no_progress (with_reducible apply State.Kept.upd)))

theorem execLpBrownout_kept (lost : List (Fin 27)) (s : State) (h1 : s.Kept ql zf) :
    NextKept (execLpBrownout lost s) ql zf := by
  unfold execLpBrownout
  repeat' (first
    | with_reducible assumption
    | (intro hq; exact Port.Balanced.same hq rfl rfl rfl rfl)
    | (dsimp only)
    | (intro _)
    | with_reducible apply State.brownout_kept
    | apply nextKept_next
    | with_reducible apply State.Kept.foldl
    | (refine State.Kept.of_snd (by assumption) ?_)
    | (refine State.Kept.of_snd2 (by assumption) ?_)
    | (refine State.Kept.of_snd3 (by assumption) ?_)
    | (refine State.Kept.of_mid (by assumption) ?_)
    | with_reducible apply State.Kept.ite
    | split
    | (fail_if_no_progress (with_reducible apply State.Kept.upd)))

theorem State.padRelease_kept (s : State) (v : Nat) (h0 : s.Kept ql zf) :
    (State.padRelease s v).Kept ql zf := by
  unfold State.padRelease
  repeat' (first
    | with_reducible assumption
    | (intro hq; exact Port.Balanced.same hq rfl rfl rfl rfl)
    | (dsimp only)
    | (intro _)
    | with_reducible apply State.updDom_kept
    | with_reducible apply State.setErr_kept
    | with_reducible apply State.Kept.foldl
    | (refine State.Kept.of_snd (by assumption) ?_)
    | (refine State.Kept.of_snd2 (by assumption) ?_)
    | (refine State.Kept.of_snd3 (by assumption) ?_)
    | (refine State.Kept.of_mid (by assumption) ?_)
    | with_reducible apply State.Kept.ite
    | split
    | (fail_if_no_progress (with_reducible apply State.Kept.upd)))

theorem State.headerWrite_kept (s : State) (g o v : Nat) (h0 : s.Kept ql zf) :
    (State.headerWrite s g o v).Kept ql zf := by
  unfold State.headerWrite
  repeat' (first
    | with_reducible assumption
    | (intro hq; exact Port.Balanced.same hq rfl rfl rfl rfl)
    | (dsimp only)
    | (intro _)
    | with_reducible apply State.evtClear_kept
    | with_reducible apply State.evtEnable_kept
    | with_reducible apply State.evtForce_kept
    | with_reducible apply State.errClear_kept
    | with_reducible apply State.Kept.foldl
    | (refine State.Kept.of_snd (by assumption) ?_)
    | (refine State.Kept.of_snd2 (by assumption) ?_)
    | (refine State.Kept.of_snd3 (by assumption) ?_)
    | (refine State.Kept.of_mid (by assumption) ?_)
    | with_reducible apply State.Kept.ite
    | split
    | (fail_if_no_progress (with_reducible apply State.Kept.upd)))

theorem State.domCtrlWrite_kept (s : State) (d v : Nat) (h0 : s.Kept ql zf) :
    (State.domCtrlWrite s d v).Kept ql zf := by
  unfold State.domCtrlWrite
  repeat' (first
    | with_reducible assumption
    | (intro hq; exact Port.Balanced.same hq rfl rfl rfl rfl)
    | (dsimp only)
    | (intro _)
    | with_reducible apply State.store_kept
    | with_reducible apply State.setFld_kept
    | with_reducible apply State.Kept.foldl
    | (refine State.Kept.of_snd (by assumption) ?_)
    | (refine State.Kept.of_snd2 (by assumption) ?_)
    | (refine State.Kept.of_snd3 (by assumption) ?_)
    | (refine State.Kept.of_mid (by assumption) ?_)
    | with_reducible apply State.Kept.ite
    | split
    | (fail_if_no_progress (with_reducible apply State.Kept.upd)))

theorem State.pwrWrite_kept (s : State) (o v : Nat) (h0 : s.Kept ql zf) :
    (State.pwrWrite s o v).Kept ql zf := by
  unfold State.pwrWrite
  repeat' (first
    | with_reducible assumption
    | (intro hq; exact Port.Balanced.same hq rfl rfl rfl rfl)
    | (dsimp only)
    | (intro _)
    | with_reducible apply State.domCtrlWrite_kept
    | with_reducible apply State.padRelease_kept
    | with_reducible apply State.store_kept
    | with_reducible apply State.Kept.foldl
    | (refine State.Kept.of_snd (by assumption) ?_)
    | (refine State.Kept.of_snd2 (by assumption) ?_)
    | (refine State.Kept.of_snd3 (by assumption) ?_)
    | (refine State.Kept.of_mid (by assumption) ?_)
    | with_reducible apply State.Kept.ite
    | split
    | (fail_if_no_progress (with_reducible apply State.Kept.upd)))

theorem State.clkWrite_kept (s : State) (o v : Nat) (h0 : s.Kept ql zf) :
    (State.clkWrite s o v).Kept ql zf := by
  unfold State.clkWrite
  repeat' (first
    | with_reducible assumption
    | (intro hq; exact Port.Balanced.same hq rfl rfl rfl rfl)
    | (dsimp only)
    | (intro _)
    | with_reducible apply State.coreWrite_kept
    | with_reducible apply State.refSelWrite_kept
    | with_reducible apply State.monCfgWrite_kept
    | with_reducible apply State.store_kept
    | with_reducible apply State.Kept.foldl
    | (refine State.Kept.of_snd (by assumption) ?_)
    | (refine State.Kept.of_snd2 (by assumption) ?_)
    | (refine State.Kept.of_snd3 (by assumption) ?_)
    | (refine State.Kept.of_mid (by assumption) ?_)
    | with_reducible apply State.Kept.ite
    | split
    | (fail_if_no_progress (with_reducible apply State.Kept.upd)))

theorem State.grpRegWrite_kept (s : State) (g : Fin 8) (o v : Nat) (h0 : s.Kept ql zf) :
    (State.grpRegWrite s g o v).Kept ql zf := by
  unfold State.grpRegWrite
  repeat' (first
    | with_reducible assumption
    | (intro hq; exact Port.Balanced.same hq rfl rfl rfl rfl)
    | (dsimp only)
    | (intro _)
    | with_reducible apply State.grpWrite_kept
    | with_reducible apply State.evtClear_kept
    | with_reducible apply State.evtEnable_kept
    | with_reducible apply State.store_kept
    | with_reducible apply State.Kept.foldl
    | (refine State.Kept.of_snd (by assumption) ?_)
    | (refine State.Kept.of_snd2 (by assumption) ?_)
    | (refine State.Kept.of_snd3 (by assumption) ?_)
    | (refine State.Kept.of_mid (by assumption) ?_)
    | with_reducible apply State.Kept.ite
    | split
    | (fail_if_no_progress (with_reducible apply State.Kept.upd)))

theorem State.timeWrite_kept (s : State) (o v : Nat) (h0 : s.Kept ql zf) :
    (State.timeWrite s o v).Kept ql zf := by
  unfold State.timeWrite
  repeat' (first
    | with_reducible assumption
    | (intro hq; exact Port.Balanced.same hq rfl rfl rfl rfl)
    | (dsimp only)
    | (intro _)
    | with_reducible apply State.ensCtrlWrite_kept
    | with_reducible apply State.grpRegWrite_kept
    | with_reducible apply State.store_kept
    | with_reducible apply State.Kept.foldl
    | (refine State.Kept.of_snd (by assumption) ?_)
    | (refine State.Kept.of_snd2 (by assumption) ?_)
    | (refine State.Kept.of_snd3 (by assumption) ?_)
    | (refine State.Kept.of_mid (by assumption) ?_)
    | with_reducible apply State.Kept.ite
    | split
    | (fail_if_no_progress (with_reducible apply State.Kept.upd)))

theorem State.bootWrite_kept (s : State) (p : Fin 4) (o v : Nat) (h0 : s.Kept ql zf) :
    (State.bootWrite s p o v).Kept ql zf := by
  unfold State.bootWrite
  repeat' (first
    | with_reducible assumption
    | (intro hq; exact Port.Balanced.same hq rfl rfl rfl rfl)
    | (dsimp only)
    | (intro _)
    | with_reducible apply State.store_kept
    | with_reducible apply State.loadCtrlWrite_kept
    | with_reducible apply State.bootCtrlWrite_kept
    | with_reducible apply State.recover_kept
    | with_reducible apply State.windowWrite_kept
    | with_reducible apply State.Kept.foldl
    | (refine State.Kept.of_snd (by assumption) ?_)
    | (refine State.Kept.of_snd2 (by assumption) ?_)
    | (refine State.Kept.of_snd3 (by assumption) ?_)
    | (refine State.Kept.of_mid (by assumption) ?_)
    | with_reducible apply State.Kept.ite
    | split
    | (fail_if_no_progress (with_reducible apply State.Kept.upd)))

theorem State.setXport_kept (s : State) (k : Fin 4) (x : Nat) (h0 : s.Kept ql zf) :
    (State.setXport s k x).Kept ql zf := by
  exact State.Kept.setPort h0 k _ rfl rfl rfl rfl (Port.Balanced.same (h0.credited k) rfl rfl rfl rfl)

theorem State.cpWrite_kept (s : State) (p k : Fin 4) (o v : Nat) (h0 : s.Kept ql zf) :
    (State.cpWrite s p k o v).Kept ql zf := by
  unfold State.cpWrite
  split
  · exact State.Kept.congr (State.store_kept s (Adr.CP_IRQ_CFG k) v h0) rfl rfl rfl rfl
  · split
    · split
      · exact State.Kept.setPort h0 k _ rfl rfl rfl rfl (Port.Balanced.same (h0.credited k) rfl rfl rfl rfl)
      · exact State.setXport_kept _ _ _ h0
    · exact State.store_kept _ _ _ h0

theorem State.ringWrite_kept (s : State) (p : Fin 4) (o v : Nat) (h0 : s.Kept ql zf) :
    (State.ringWrite s p o v).Kept ql zf := by
  unfold State.ringWrite
  repeat' (first
    | with_reducible assumption
    | (intro hq; exact Port.Balanced.same hq rfl rfl rfl rfl)
    | (dsimp only)
    | (intro _)
    | with_reducible apply State.ringCfgWrite_kept
    | with_reducible apply State.ringIndexWrite_kept
    | with_reducible apply State.ringWmWrite_kept
    | with_reducible apply State.store_kept
    | with_reducible apply State.Kept.foldl
    | (refine State.Kept.of_snd (by assumption) ?_)
    | (refine State.Kept.of_snd2 (by assumption) ?_)
    | (refine State.Kept.of_snd3 (by assumption) ?_)
    | (refine State.Kept.of_mid (by assumption) ?_)
    | with_reducible apply State.Kept.ite
    | split
    | (fail_if_no_progress (with_reducible apply State.Kept.upd)))

theorem State.crcRegWrite_kept (s : State) (p : Fin 4) (o v : Nat) (h0 : s.Kept ql zf) :
    (State.crcRegWrite s p o v).Kept ql zf := by
  unfold State.crcRegWrite
  repeat' (first
    | with_reducible assumption
    | (intro hq; exact Port.Balanced.same hq rfl rfl rfl rfl)
    | (dsimp only)
    | (intro _)
    | with_reducible apply State.crcSet_kept
    | with_reducible apply State.crcWrite_kept
    | with_reducible apply State.crcFeed_kept
    | with_reducible apply State.crcOwnRequest_kept
    | with_reducible apply State.crcOwnRelease_kept
    | with_reducible apply State.Kept.foldl
    | (refine State.Kept.of_snd (by assumption) ?_)
    | (refine State.Kept.of_snd2 (by assumption) ?_)
    | (refine State.Kept.of_snd3 (by assumption) ?_)
    | (refine State.Kept.of_mid (by assumption) ?_)
    | with_reducible apply State.Kept.ite
    | split
    | (fail_if_no_progress (with_reducible apply State.Kept.upd)))

theorem State.dumpRelease_kept (s : State) (h0 : s.Kept ql zf) :
    (State.dumpRelease s).Kept ql zf := by
  unfold State.dumpRelease
  repeat' (first
    | with_reducible assumption
    | (intro hq; exact Port.Balanced.same hq rfl rfl rfl rfl)
    | (dsimp only)
    | (intro _)
    | with_reducible apply State.setFld_kept
    | with_reducible apply State.Kept.foldl
    | (refine State.Kept.of_snd (by assumption) ?_)
    | (refine State.Kept.of_snd2 (by assumption) ?_)
    | (refine State.Kept.of_snd3 (by assumption) ?_)
    | (refine State.Kept.of_mid (by assumption) ?_)
    | with_reducible apply State.Kept.ite
    | split
    | (fail_if_no_progress (with_reducible apply State.Kept.upd)))

theorem State.dumpStream_kept (s : State) (h0 : s.Kept ql zf) :
    (State.dumpStream s).Kept ql zf := by
  unfold State.dumpStream
  repeat' (first
    | with_reducible assumption
    | (intro hq; exact Port.Balanced.same hq rfl rfl rfl rfl)
    | (dsimp only)
    | (intro _)
    | with_reducible apply State.Kept.foldl
    | (refine State.Kept.of_snd (by assumption) ?_)
    | (refine State.Kept.of_snd2 (by assumption) ?_)
    | (refine State.Kept.of_snd3 (by assumption) ?_)
    | (refine State.Kept.of_mid (by assumption) ?_)
    | with_reducible apply State.Kept.ite
    | split
    | (fail_if_no_progress (with_reducible apply State.Kept.upd)))

theorem State.dumpCtrlWrite_kept (s : State) (v : Nat) (h0 : s.Kept ql zf) :
    (State.dumpCtrlWrite s v).Kept ql zf := by
  unfold State.dumpCtrlWrite
  repeat' (first
    | with_reducible assumption
    | (intro hq; exact Port.Balanced.same hq rfl rfl rfl rfl)
    | (dsimp only)
    | (intro _)
    | with_reducible apply State.dumpRelease_kept
    | with_reducible apply State.dumpStream_kept
    | with_reducible apply State.Kept.foldl
    | (refine State.Kept.of_snd (by assumption) ?_)
    | (refine State.Kept.of_snd2 (by assumption) ?_)
    | (refine State.Kept.of_snd3 (by assumption) ?_)
    | (refine State.Kept.of_mid (by assumption) ?_)
    | with_reducible apply State.Kept.ite
    | split
    | (fail_if_no_progress (with_reducible apply State.Kept.upd)))

theorem State.fabWrite_kept (s : State) (o v : Nat) (h0 : s.Kept ql zf) :
    (State.fabWrite s o v).Kept ql zf := by
  unfold State.fabWrite
  repeat' (first
    | with_reducible assumption
    | (intro hq; exact Port.Balanced.same hq rfl rfl rfl rfl)
    | (dsimp only)
    | (intro _)
    | with_reducible apply State.fabCtrlWrite_kept
    | with_reducible apply State.swapApply_kept
    | with_reducible apply State.copyStart_kept
    | with_reducible apply State.checkStart_kept
    | with_reducible apply State.store_kept
    | with_reducible apply State.Kept.foldl
    | (refine State.Kept.of_snd (by assumption) ?_)
    | (refine State.Kept.of_snd2 (by assumption) ?_)
    | (refine State.Kept.of_snd3 (by assumption) ?_)
    | (refine State.Kept.of_mid (by assumption) ?_)
    | with_reducible apply State.Kept.ite
    | split
    | (fail_if_no_progress (with_reducible apply State.Kept.upd)))

theorem State.asrcRegWrite_kept (s : State) (o v : Nat) (h0 : s.Kept ql zf) :
    (State.asrcRegWrite s o v).Kept ql zf := by
  unfold State.asrcRegWrite
  repeat' (first
    | with_reducible assumption
    | (intro hq; exact Port.Balanced.same hq rfl rfl rfl rfl)
    | (dsimp only)
    | (intro _)
    | with_reducible apply State.asrcWrite_kept
    | with_reducible apply State.store_kept
    | with_reducible apply State.Kept.foldl
    | (refine State.Kept.of_snd (by assumption) ?_)
    | (refine State.Kept.of_snd2 (by assumption) ?_)
    | (refine State.Kept.of_snd3 (by assumption) ?_)
    | (refine State.Kept.of_mid (by assumption) ?_)
    | with_reducible apply State.Kept.ite
    | split
    | (fail_if_no_progress (with_reducible apply State.Kept.upd)))

theorem State.aesRegWrite_kept (s : State) (n : Fin 32) (o v : Nat) (h0 : s.Kept ql zf) :
    (State.aesRegWrite s n o v).Kept ql zf := by
  unfold State.aesRegWrite
  repeat' (first
    | with_reducible assumption
    | (intro hq; exact Port.Balanced.same hq rfl rfl rfl rfl)
    | (dsimp only)
    | (intro _)
    | with_reducible apply State.sapCfgWrite_kept
    | with_reducible apply State.setFld_kept
    | with_reducible apply State.swapRequest_kept
    | with_reducible apply State.evtClear_kept
    | with_reducible apply State.evtEnable_kept
    | with_reducible apply State.store_kept
    | with_reducible apply State.Kept.foldl
    | (refine State.Kept.of_snd (by assumption) ?_)
    | (refine State.Kept.of_snd2 (by assumption) ?_)
    | (refine State.Kept.of_snd3 (by assumption) ?_)
    | (refine State.Kept.of_mid (by assumption) ?_)
    | with_reducible apply State.Kept.ite
    | split
    | (fail_if_no_progress (with_reducible apply State.Kept.upd)))

theorem State.sapRegWrite_kept (s : State) (n : Fin 32) (o v : Nat) (h0 : s.Kept ql zf) :
    (State.sapRegWrite s n o v).Kept ql zf := by
  unfold State.sapRegWrite
  repeat' (first
    | with_reducible assumption
    | (intro hq; exact Port.Balanced.same hq rfl rfl rfl rfl)
    | (dsimp only)
    | (intro _)
    | with_reducible apply State.sapCtrlWrite_kept
    | with_reducible apply State.sapCfgWrite_kept
    | with_reducible apply State.sapCntClear_kept
    | with_reducible apply State.aesRegWrite_kept
    | with_reducible apply State.Kept.foldl
    | (refine State.Kept.of_snd (by assumption) ?_)
    | (refine State.Kept.of_snd2 (by assumption) ?_)
    | (refine State.Kept.of_snd3 (by assumption) ?_)
    | (refine State.Kept.of_mid (by assumption) ?_)
    | with_reducible apply State.Kept.ite
    | split
    | (fail_if_no_progress (with_reducible apply State.Kept.upd)))

theorem State.pageWrite_kept (s : State) (p : Fin 4) (g o v : Nat) (h0 : s.Kept ql zf) :
    (State.pageWrite s p g o v).Kept ql zf := by
  unfold State.pageWrite
  repeat' (first
    | with_reducible assumption
    | (intro hq; exact Port.Balanced.same hq rfl rfl rfl rfl)
    | (dsimp only)
    | (intro _)
    | with_reducible apply State.headerWrite_kept
    | with_reducible apply State.resetKey_kept
    | with_reducible apply State.store_kept
    | with_reducible apply State.pwrWrite_kept
    | with_reducible apply State.clkWrite_kept
    | with_reducible apply State.timeWrite_kept
    | with_reducible apply State.fuseProg_kept
    | with_reducible apply State.bootWrite_kept
    | with_reducible apply State.pdmTest_kept
    | with_reducible apply State.cpWrite_kept
    | with_reducible apply State.ringWrite_kept
    | with_reducible apply State.crcRegWrite_kept
    | with_reducible apply State.dumpCtrlWrite_kept
    | with_reducible apply State.fabWrite_kept
    | with_reducible apply State.asrcRegWrite_kept
    | with_reducible apply State.ampsysWrite_kept
    | with_reducible apply State.hkaWrite_kept
    | with_reducible apply State.hkseqWrite_kept
    | with_reducible apply State.tdacWrite_kept
    | with_reducible apply State.sapRegWrite_kept
    | with_reducible apply State.ainWrite_kept
    | with_reducible apply State.lineWrite_kept
    | with_reducible apply State.hpWrite_kept
    | with_reducible apply State.ampWrite_kept
    | with_reducible apply State.Kept.foldl
    | (refine State.Kept.of_snd (by assumption) ?_)
    | (refine State.Kept.of_snd2 (by assumption) ?_)
    | (refine State.Kept.of_snd3 (by assumption) ?_)
    | (refine State.Kept.of_mid (by assumption) ?_)
    | with_reducible apply State.Kept.ite
    | split
    | (fail_if_no_progress (with_reducible apply State.Kept.upd)))

theorem State.applyWrite_kept (s : State) (p : Fin 4) (a v : Nat) (h0 : s.Kept ql zf) :
    (State.applyWrite s p a v).Kept ql zf := by
  unfold State.applyWrite
  repeat' (first
    | with_reducible assumption
    | (intro hq; exact Port.Balanced.same hq rfl rfl rfl rfl)
    | (dsimp only)
    | (intro _)
    | with_reducible apply State.pageWrite_kept
    | with_reducible apply State.paramApply_kept
    | with_reducible apply State.setMemWord_kept
    | with_reducible apply State.Kept.foldl
    | (refine State.Kept.of_snd (by assumption) ?_)
    | (refine State.Kept.of_snd2 (by assumption) ?_)
    | (refine State.Kept.of_snd3 (by assumption) ?_)
    | (refine State.Kept.of_mid (by assumption) ?_)
    | with_reducible apply State.Kept.ite
    | split
    | (fail_if_no_progress (with_reducible apply State.Kept.upd)))

theorem State.clearRc_kept (s : State) (g o : Nat) (h0 : s.Kept ql zf) :
    (State.clearRc s g o).Kept ql zf := by
  unfold State.clearRc
  repeat' (first
    | with_reducible assumption
    | (intro hq; exact Port.Balanced.same hq rfl rfl rfl rfl)
    | (dsimp only)
    | (intro _)
    | with_reducible apply State.setReg_kept
    | with_reducible apply State.Kept.foldl
    | (refine State.Kept.of_snd (by assumption) ?_)
    | (refine State.Kept.of_snd2 (by assumption) ?_)
    | (refine State.Kept.of_snd3 (by assumption) ?_)
    | (refine State.Kept.of_mid (by assumption) ?_)
    | with_reducible apply State.Kept.ite
    | split
    | (fail_if_no_progress (with_reducible apply State.Kept.upd)))

theorem State.pageRead_kept (s : State) (g o : Nat) (h0 : s.Kept ql zf) :
    (State.pageRead s g o).Kept ql zf := by
  unfold State.pageRead
  repeat' (first
    | with_reducible assumption
    | (intro hq; exact Port.Balanced.same hq rfl rfl rfl rfl)
    | (dsimp only)
    | (intro _)
    | with_reducible apply State.clearRc_kept
    | with_reducible apply State.latchSys_kept
    | with_reducible apply State.latchTick_kept
    | with_reducible apply State.latchGran_kept
    | with_reducible apply State.updRing_kept
    | with_reducible apply State.setReg_kept
    | with_reducible apply State.ringTake_kept
    | with_reducible apply State.latchStamp_kept
    | with_reducible apply State.latchCounts_kept
    | with_reducible apply State.latchCs_kept
    | with_reducible apply State.Kept.foldl
    | (refine State.Kept.of_snd (by assumption) ?_)
    | (refine State.Kept.of_snd2 (by assumption) ?_)
    | (refine State.Kept.of_snd3 (by assumption) ?_)
    | (refine State.Kept.of_mid (by assumption) ?_)
    | with_reducible apply State.Kept.ite
    | split
    | (fail_if_no_progress (with_reducible apply State.Kept.upd)))

theorem State.readWord_kept (s : State) (p : Fin 4) (a : Nat) (h0 : s.Kept ql zf) :
    (State.readWord s p a).2.2.Kept ql zf := by
  unfold State.readWord
  repeat' (first
    | with_reducible assumption
    | (intro hq; exact Port.Balanced.same hq rfl rfl rfl rfl)
    | (dsimp only)
    | (intro _)
    | with_reducible apply State.logAccess_kept
    | with_reducible apply State.pageRead_kept
    | with_reducible apply State.Kept.foldl
    | (refine State.Kept.of_snd (by assumption) ?_)
    | (refine State.Kept.of_snd2 (by assumption) ?_)
    | (refine State.Kept.of_snd3 (by assumption) ?_)
    | (refine State.Kept.of_mid (by assumption) ?_)
    | with_reducible apply State.Kept.ite
    | split
    | (fail_if_no_progress (with_reducible apply State.Kept.upd)))

theorem State.readWords_kept : ∀ (s : State) (p : Fin 4) (a n : Nat) (h : s.Kept ql zf), (s.readWords p a n).2.2.Kept ql zf := by
  intro s p a n
  induction n generalizing s a with
  | zero => exact fun h => h
  | succ n ih => exact fun h => ih _ _ (State.readWord_kept _ _ _ h)

theorem State.appliedBytes_kept (s : State) (a : Nat) (h0 : s.Kept ql zf) :
    (State.appliedBytes s a).2.Kept ql zf := by
  unfold State.appliedBytes
  repeat' (first
    | with_reducible assumption
    | (intro hq; exact Port.Balanced.same hq rfl rfl rfl rfl)
    | (dsimp only)
    | (intro _)
    | with_reducible apply State.freeBytes_kept
    | with_reducible apply State.Kept.foldl
    | (refine State.Kept.of_snd (by assumption) ?_)
    | (refine State.Kept.of_snd2 (by assumption) ?_)
    | (refine State.Kept.of_snd3 (by assumption) ?_)
    | (refine State.Kept.of_mid (by assumption) ?_)
    | with_reducible apply State.Kept.ite
    | split
    | (fail_if_no_progress (with_reducible apply State.Kept.upd)))

theorem State.applyDirect_kept (s : State) (p : Fin 4) (a v : Nat) (h0 : s.Kept ql zf) :
    (State.applyDirect s p a v).Kept ql zf := by
  unfold State.applyDirect
  repeat' (first
    | with_reducible assumption
    | (intro hq; exact Port.Balanced.same hq rfl rfl rfl rfl)
    | (dsimp only)
    | (intro _)
    | with_reducible apply State.paramWrite_kept
    | with_reducible apply State.nextTick_kept
    | with_reducible apply State.applyWrite_kept
    | with_reducible apply State.Kept.foldl
    | (refine State.Kept.of_snd (by assumption) ?_)
    | (refine State.Kept.of_snd2 (by assumption) ?_)
    | (refine State.Kept.of_snd3 (by assumption) ?_)
    | (refine State.Kept.of_mid (by assumption) ?_)
    | with_reducible apply State.Kept.ite
    | split
    | (fail_if_no_progress (with_reducible apply State.Kept.upd)))

theorem State.applyWords_kept : ∀ (p : Fin 4) (ws : List WordOp) (s : State) (h : s.Kept ql zf), (State.applyWords p ws s).2.Kept ql zf := by
  intro p ws
  induction ws with
  | nil => exact fun s h => h
  | cons w ws ih =>
    intro s h
    rw [State.applyWords]
    split
    · exact h
    · have ht : (s.applyDirect p w.addr (w.value s)).Kept ql zf := State.applyDirect_kept _ _ _ _ h
      generalize s.applyDirect p w.addr (w.value s) = t at ht ⊢
      show (if resetBegan s t then (false, t) else State.applyWords p ws t).2.Kept ql zf
      split
      · exact ht
      · exact ih _ ht

theorem State.bumpWords_kept (s : State) (p : Fin 4) (ws : List WordOp) (h0 : s.Kept ql zf) :
    (State.bumpWords s p ws).Kept ql zf := by
  unfold State.bumpWords
  repeat' (first
    | with_reducible assumption
    | (intro hq; exact Port.Balanced.same hq rfl rfl rfl rfl)
    | (dsimp only)
    | (intro _)
    | with_reducible apply State.bumpVer_kept
    | with_reducible apply State.Kept.foldl
    | (refine State.Kept.of_snd (by assumption) ?_)
    | (refine State.Kept.of_snd2 (by assumption) ?_)
    | (refine State.Kept.of_snd3 (by assumption) ?_)
    | (refine State.Kept.of_mid (by assumption) ?_)
    | with_reducible apply State.Kept.ite
    | split
    | (fail_if_no_progress (with_reducible apply State.Kept.upd)))

end Sys2Proof.Machine
end

