-- ==== Sys2Proof/Laws/KeptTxn.lean ====
section
/-!
SUPPORT. What commands keep (Kept): changes of power, transactions, sessions and the operations of a frame.
-/
namespace Sys2Proof.Machine

variable {ql : List Instr} {zf : BitVec 512}

theorem State.changeRefused_kept (s : State) (cause d : Nat) (h0 : s.Kept ql zf) :
    (State.changeRefused s cause d).Kept ql zf := by
  unfold State.changeRefused
  repeat' (first
    | with_reducible assumption
    | (intro hq; exact Port.Balanced.same hq rfl rfl rfl rfl)
    | (dsimp only)
    | (intro _)
    | with_reducible apply State.raise_kept
    | with_reducible apply State.setFld_kept
    | with_reducible apply State.countSat_kept
    | with_reducible apply State.Kept.foldl
    | (refine State.Kept.of_snd (by assumption) ?_)
    | (refine State.Kept.of_snd2 (by assumption) ?_)
    | (refine State.Kept.of_snd3 (by assumption) ?_)
    | (refine State.Kept.of_mid (by assumption) ?_)
    | with_reducible apply State.Kept.ite
    | split
    | (fail_if_no_progress (with_reducible apply State.Kept.upd)))

theorem State.voteRecord_kept (s : State) (d g cause : Nat) (h0 : s.Kept ql zf) :
    (State.voteRecord s d g cause).Kept ql zf := by
  unfold State.voteRecord
  repeat' (first
    | with_reducible assumption
    | (intro hq; exact Port.Balanced.same hq rfl rfl rfl rfl)
    | (dsimp only)
    | (intro _)
    | with_reducible apply State.changeRefused_kept
    | with_reducible apply State.countSat_kept
    | with_reducible apply State.setFld_kept
    | with_reducible apply State.Kept.foldl
    | (refine State.Kept.of_snd (by assumption) ?_)
    | (refine State.Kept.of_snd2 (by assumption) ?_)
    | (refine State.Kept.of_snd3 (by assumption) ?_)
    | (refine State.Kept.of_mid (by assumption) ?_)
    | with_reducible apply State.Kept.ite
    | split
    | (fail_if_no_progress (with_reducible apply State.Kept.upd)))

theorem State.updChange_kept (s : State) (f : Change → Change) (h0 : s.Kept ql zf) :
    (State.updChange s f).Kept ql zf := by
  unfold State.updChange
  repeat' (first
    | with_reducible assumption
    | (intro hq; exact Port.Balanced.same hq rfl rfl rfl rfl)
    | (dsimp only)
    | (intro _)
    | with_reducible apply State.Kept.foldl
    | (refine State.Kept.of_snd (by assumption) ?_)
    | (refine State.Kept.of_snd2 (by assumption) ?_)
    | (refine State.Kept.of_snd3 (by assumption) ?_)
    | (refine State.Kept.of_mid (by assumption) ?_)
    | with_reducible apply State.Kept.ite
    | split
    | (fail_if_no_progress (with_reducible apply State.Kept.upd)))

theorem State.wakeNext_kept (s : State) (h0 : s.Kept ql zf) :
    (State.wakeNext s).Kept ql zf := by
  unfold State.wakeNext
  repeat' (first
    | with_reducible assumption
    | (intro hq; exact Port.Balanced.same hq rfl rfl rfl rfl)
    | (dsimp only)
    | (intro _)
    | with_reducible apply State.updChange_kept
    | with_reducible apply State.setDom_kept
    | with_reducible apply State.Kept.foldl
    | (refine State.Kept.of_snd (by assumption) ?_)
    | (refine State.Kept.of_snd2 (by assumption) ?_)
    | (refine State.Kept.of_snd3 (by assumption) ?_)
    | (refine State.Kept.of_mid (by assumption) ?_)
    | with_reducible apply State.Kept.ite
    | split
    | (fail_if_no_progress (with_reducible apply State.Kept.upd)))

theorem State.leasesStop_kept (s : State) (h0 : s.Kept ql zf) :
    (State.leasesStop s).Kept ql zf := by
  refine ⟨⟨h0.canonical.regs, h0.canonical.mem, h0.canonical.vers⟩, ?_, h0.queue, h0.fuses⟩
  intro p
  show ((s.ports.mapIdx fun i (p : Port) => { p with leaseLeft := s.leaseNow (Fin.ofNat 4 i) })[p] : Port).Balanced
  simp only [Fin.getElem_fin, Vector.getElem_mapIdx]
  exact Port.Balanced.same (h0.credited p) rfl rfl rfl rfl

theorem State.lowerNext_kept (s : State) (h0 : s.Kept ql zf) :
    (State.lowerNext s).Kept ql zf := by
  unfold State.lowerNext
  repeat' (first
    | with_reducible assumption
    | (intro hq; exact Port.Balanced.same hq rfl rfl rfl rfl)
    | (dsimp only)
    | (intro _)
    | with_reducible apply State.startLower_kept
    | with_reducible apply State.leasesStop_kept
    | with_reducible apply State.Kept.foldl
    | (refine State.Kept.of_snd (by assumption) ?_)
    | (refine State.Kept.of_snd2 (by assumption) ?_)
    | (refine State.Kept.of_snd3 (by assumption) ?_)
    | (refine State.Kept.of_mid (by assumption) ?_)
    | with_reducible apply State.Kept.ite
    | split
    | (fail_if_no_progress (with_reducible apply State.Kept.upd)))

theorem State.liftStart_kept (s : State) (h0 : s.Kept ql zf) :
    (State.liftStart s).Kept ql zf := by
  unfold State.liftStart
  repeat' (first
    | with_reducible assumption
    | (intro hq; exact Port.Balanced.same hq rfl rfl rfl rfl)
    | (dsimp only)
    | (intro _)
    | with_reducible apply State.wakeNext_kept
    | with_reducible apply State.Kept.foldl
    | (refine State.Kept.of_snd (by assumption) ?_)
    | (refine State.Kept.of_snd2 (by assumption) ?_)
    | (refine State.Kept.of_snd3 (by assumption) ?_)
    | (refine State.Kept.of_mid (by assumption) ?_)
    | with_reducible apply State.Kept.ite
    | split
    | (fail_if_no_progress (with_reducible apply State.Kept.upd)))

theorem State.wakersRetry_kept (s : State) (h0 : s.Kept ql zf) :
    (State.wakersRetry s).Kept ql zf := by
  refine ⟨⟨h0.canonical.regs, h0.canonical.mem, h0.canonical.vers⟩, ?_, h0.queue, h0.fuses⟩
  intro p
  show ((s.ports.map fun (p : Port) => { p with waiting := p.waiting.map fun (w : WaitOp) => if w.wait = .wake then { w with wait := .retry } else w })[p] : Port).Balanced
  simp only [Fin.getElem_fin, Vector.getElem_map]
  exact Port.Balanced.same (h0.credited p) rfl rfl rfl rfl

theorem State.changeEnd_kept (s : State) (done : Bool) (h0 : s.Kept ql zf) :
    (State.changeEnd s done).Kept ql zf := by
  unfold State.changeEnd
  repeat' (first
    | with_reducible assumption
    | (intro hq; exact Port.Balanced.same hq rfl rfl rfl rfl)
    | (dsimp only)
    | (intro _)
    | with_reducible apply State.wakersRetry_kept
    | with_reducible apply State.liftStart_kept
    | with_reducible apply State.raise_kept
    | with_reducible apply State.Kept.foldl
    | (refine State.Kept.of_snd (by assumption) ?_)
    | (refine State.Kept.of_snd2 (by assumption) ?_)
    | (refine State.Kept.of_snd3 (by assumption) ?_)
    | (refine State.Kept.of_mid (by assumption) ?_)
    | with_reducible apply State.Kept.ite
    | split
    | (fail_if_no_progress (with_reducible apply State.Kept.upd)))

theorem State.lowerOn_kept (s : State) (h0 : s.Kept ql zf) :
    (State.lowerOn s).Kept ql zf := by
  unfold State.lowerOn
  repeat' (first
    | with_reducible assumption
    | (intro hq; exact Port.Balanced.same hq rfl rfl rfl rfl)
    | (dsimp only)
    | (intro _)
    | with_reducible apply State.changeEnd_kept
    | with_reducible apply State.lowerNext_kept
    | with_reducible apply State.Kept.foldl
    | (refine State.Kept.of_snd (by assumption) ?_)
    | (refine State.Kept.of_snd2 (by assumption) ?_)
    | (refine State.Kept.of_snd3 (by assumption) ?_)
    | (refine State.Kept.of_mid (by assumption) ?_)
    | with_reducible apply State.Kept.ite
    | split
    | (fail_if_no_progress (with_reducible apply State.Kept.upd)))

theorem State.lowerDone_kept (s : State) (h0 : s.Kept ql zf) :
    (State.lowerDone s).Kept ql zf := by
  unfold State.lowerDone
  repeat' (first
    | with_reducible assumption
    | (intro hq; exact Port.Balanced.same hq rfl rfl rfl rfl)
    | (dsimp only)
    | (intro _)
    | with_reducible apply State.lowerOn_kept
    | with_reducible apply State.updChange_kept
    | with_reducible apply State.endLower_kept
    | with_reducible apply State.Kept.foldl
    | (refine State.Kept.of_snd (by assumption) ?_)
    | (refine State.Kept.of_snd2 (by assumption) ?_)
    | (refine State.Kept.of_snd3 (by assumption) ?_)
    | (refine State.Kept.of_mid (by assumption) ?_)
    | with_reducible apply State.Kept.ite
    | split
    | (fail_if_no_progress (with_reducible apply State.Kept.upd)))

theorem State.wakesUndo_kept (s : State) (h0 : s.Kept ql zf) :
    (State.wakesUndo s).Kept ql zf := by
  unfold State.wakesUndo
  repeat' (first
    | with_reducible assumption
    | (intro hq; exact Port.Balanced.same hq rfl rfl rfl rfl)
    | (dsimp only)
    | (intro _)
    | with_reducible apply State.lowerOn_kept
    | with_reducible apply State.updChange_kept
    | with_reducible apply State.Kept.foldl
    | (refine State.Kept.of_snd (by assumption) ?_)
    | (refine State.Kept.of_snd2 (by assumption) ?_)
    | (refine State.Kept.of_snd3 (by assumption) ?_)
    | (refine State.Kept.of_mid (by assumption) ?_)
    | with_reducible apply State.Kept.ite
    | split
    | (fail_if_no_progress (with_reducible apply State.Kept.upd)))

theorem State.updBib_kept (s : State) (k : Nat) (f : Bib → Bib) (h0 : s.Kept ql zf) :
    (State.updBib s k f).Kept ql zf := by
  unfold State.updBib
  repeat' (first | with_reducible assumption | (fail_if_no_progress (with_reducible apply State.Kept.upd)))

theorem State.takeBib_kept (s : State) (p : Fin 4) (implicit : Bool) (h0 : s.Kept ql zf) :
    (State.takeBib s p implicit).2.Kept ql zf := by
  unfold State.takeBib
  repeat' (first
    | with_reducible assumption
    | with_reducible apply State.updBib_kept
    | split
    | (fail_if_no_progress (with_reducible apply State.Kept.upd)))

theorem State.retireAfter_kept (s : State) (k : Nat) (h0 : s.Kept ql zf) :
    (State.retireAfter s k).Kept ql zf := by
  unfold State.retireAfter
  repeat' (first | with_reducible assumption | (fail_if_no_progress (with_reducible apply State.Kept.upd)))

theorem State.entryPut_kept (s : State) (e : Entry) (h0 : s.Kept ql zf) :
    (State.entryPut s e).Kept ql zf := by
  unfold State.entryPut
  repeat' (first | with_reducible assumption | with_reducible apply State.setMemWord_kept)

theorem State.entryClear_kept (s : State) (e : Entry) (h0 : s.Kept ql zf) :
    (State.entryClear s e).Kept ql zf := by
  unfold State.entryClear
  repeat' (first
    | with_reducible assumption
    | with_reducible apply State.free_kept
    | with_reducible apply State.setMemWord_kept)

theorem State.freeBib_kept (s : State) (k : Nat) (h0 : s.Kept ql zf) :
    (State.freeBib s k).Kept ql zf := by
  unfold State.freeBib
  repeat' (first
    | with_reducible assumption
    | (intro hq; exact Port.Balanced.same hq rfl rfl rfl rfl)
    | (dsimp only)
    | (intro _)
    | with_reducible apply State.updBib_kept
    | with_reducible apply State.entryClear_kept
    | with_reducible apply State.Kept.foldl
    | (refine State.Kept.of_snd (by assumption) ?_)
    | (refine State.Kept.of_snd2 (by assumption) ?_)
    | (refine State.Kept.of_snd3 (by assumption) ?_)
    | (refine State.Kept.of_mid (by assumption) ?_)
    | with_reducible apply State.Kept.ite
    | split
    | (fail_if_no_progress (with_reducible apply State.Kept.upd)))

theorem State.dropEntries_kept (s : State) (v : Nat) (h0 : s.Kept ql zf) :
    (State.dropEntries s v).Kept ql zf := by
  unfold State.dropEntries
  repeat' (first
    | with_reducible assumption
    | with_reducible apply State.entryClear_kept
    | with_reducible apply State.Kept.foldl
    | (fail_if_no_progress (with_reducible apply State.Kept.upd)))

theorem State.stageWords_kept (s : State) (k : Nat) (ws : List WordOp) (h0 : s.Kept ql zf) :
    (State.stageWords s k ws).Kept ql zf := by
  unfold State.stageWords
  repeat' (first
    | with_reducible assumption
    | with_reducible apply State.entryPut_kept
    | with_reducible apply State.updBib_kept
    | with_reducible apply State.Kept.foldl
    | (fail_if_no_progress (with_reducible apply State.Kept.upd)))

theorem State.tellOutcome_kept (s : State) (k : Nat) (h0 : s.Kept ql zf) :
    (State.tellOutcome s k).Kept ql zf := by
  unfold State.tellOutcome
  repeat' (first | with_reducible assumption | with_reducible apply State.waitOver_kept)

theorem State.abortBib_kept (s : State) (k status last : Nat) (h0 : s.Kept ql zf) :
    (State.abortBib s k status last).Kept ql zf := by
  unfold State.abortBib
  repeat' (first
    | with_reducible assumption
    | with_reducible apply State.updBib_kept
    | with_reducible apply State.dropEntries_kept
    | with_reducible apply State.countSat_kept
    | with_reducible apply State.setFld_kept
    | with_reducible apply State.setReg_kept
    | with_reducible apply State.raiseWith_kept
    | with_reducible apply State.raise_kept
    | with_reducible apply State.retireAfter_kept
    | with_reducible apply State.tellOutcome_kept
    | with_reducible apply State.freeBib_kept
    | with_reducible apply State.Kept.ite
    | (fail_if_no_progress (with_reducible apply State.Kept.upd)))

theorem State.implicitTold_kept (s : State) (k status : Nat) (h0 : s.Kept ql zf) :
    (State.implicitTold s k status).Kept ql zf := by
  unfold State.implicitTold
  repeat' (first
    | with_reducible assumption
    | (intro hq; exact Port.Balanced.same hq rfl rfl rfl rfl)
    | (dsimp only)
    | (intro _)
    | with_reducible apply State.waitOver_kept
    | with_reducible apply State.Kept.foldl
    | (refine State.Kept.of_snd (by assumption) ?_)
    | (refine State.Kept.of_snd2 (by assumption) ?_)
    | (refine State.Kept.of_snd3 (by assumption) ?_)
    | (refine State.Kept.of_mid (by assumption) ?_)
    | with_reducible apply State.Kept.ite
    | split
    | (fail_if_no_progress (with_reducible apply State.Kept.upd)))

theorem State.endImplicit_kept (s : State) (k status : Nat) (h0 : s.Kept ql zf) :
    (State.endImplicit s k status).Kept ql zf := by
  unfold State.endImplicit
  repeat' (first
    | with_reducible assumption
    | with_reducible apply State.freeBib_kept
    | with_reducible apply State.dropEntries_kept
    | with_reducible apply State.implicitTold_kept)

theorem State.failBib_kept (s : State) (k status last : Nat) (h0 : s.Kept ql zf) :
    (State.failBib s k status last).Kept ql zf := by
  unfold State.failBib
  repeat' (first
    | with_reducible assumption
    | with_reducible apply State.endImplicit_kept
    | with_reducible apply State.abortBib_kept
    | with_reducible apply State.Kept.ite)

theorem State.commitBib_kept (s : State) (k tick : Nat) (h0 : s.Kept ql zf) :
    (State.commitBib s k tick).Kept ql zf := by
  unfold State.commitBib
  repeat' (first
    | with_reducible assumption
    | with_reducible apply State.updBib_kept
    | with_reducible apply State.implicitTold_kept
    | with_reducible apply State.countWrap_kept
    | with_reducible apply State.raiseWith_kept
    | with_reducible apply State.retireAfter_kept
    | with_reducible apply State.tellOutcome_kept
    | with_reducible apply State.Kept.ite
    | (fail_if_no_progress (with_reducible apply State.Kept.upd)))

theorem State.ahead_kept (s : State) (p : Nat → Bool) (ws : List WordOp) (h0 : s.Kept ql zf) :
    (State.ahead s p ws).Kept ql zf := by
  unfold State.ahead
  repeat' (first
    | with_reducible assumption
    | (intro _)
    | with_reducible apply State.store_kept
    | with_reducible apply State.Kept.foldl)

theorem State.swapAdmit_kept (s : State) (ws : List WordOp) (h0 : s.Kept ql zf) :
    (State.swapAdmit s ws).2.Kept ql zf := by
  unfold State.swapAdmit
  repeat' (first
    | with_reducible assumption
    | with_reducible apply State.swapCheck_kept
    | with_reducible apply State.ahead_kept
    | with_reducible apply State.swapPend_kept
    | (refine State.Kept.of_snd (by assumption) ?_)
    | split)

theorem State.grpHold_kept (g : Fin 8) (s : State) (w : WordOp) (h1 : s.Kept ql zf) :
    (State.grpHold g s w).Kept ql zf := by
  unfold State.grpHold
  repeat' (first
    | with_reducible assumption
    | (intro hq; exact Port.Balanced.same hq rfl rfl rfl rfl)
    | (dsimp only)
    | (intro _)
    | with_reducible apply State.hold_kept
    | with_reducible apply State.grpAhead_kept
    | with_reducible apply State.Kept.foldl
    | (refine State.Kept.of_snd (by assumption) ?_)
    | (refine State.Kept.of_snd2 (by assumption) ?_)
    | (refine State.Kept.of_snd3 (by assumption) ?_)
    | (refine State.Kept.of_mid (by assumption) ?_)
    | with_reducible apply State.Kept.ite
    | split
    | (fail_if_no_progress (with_reducible apply State.Kept.upd)))

theorem State.grpStaged_kept (s : State) (g : Fin 8) (ws : List WordOp) (h0 : s.Kept ql zf) :
    (State.grpStaged s g ws).2.Kept ql zf := by
  unfold State.grpStaged
  repeat' (first
    | with_reducible assumption
    | (intro hq; exact Port.Balanced.same hq rfl rfl rfl rfl)
    | (dsimp only)
    | (intro _)
    | with_reducible apply State.grpHold_kept
    | with_reducible apply State.grpAhead_kept
    | with_reducible apply State.reserveGrp_kept
    | with_reducible apply State.Kept.foldl
    | (refine State.Kept.of_snd (by assumption) ?_)
    | (refine State.Kept.of_snd2 (by assumption) ?_)
    | (refine State.Kept.of_snd3 (by assumption) ?_)
    | (refine State.Kept.of_mid (by assumption) ?_)
    | with_reducible apply State.Kept.ite
    | split
    | (fail_if_no_progress (with_reducible apply State.Kept.upd)))

theorem State.groupsAhead_kept (ws : List WordOp) (s : State) (h1 : s.Kept ql zf) :
    (State.groupsAhead ws s).2.Kept ql zf := by
  unfold State.groupsAhead
  extract_lets +onlyGivenNames t
  have ht : t.Kept ql zf := State.Kept.foldl _ (fun u w h => State.hold_kept u _ _ h) _ h1
  clear_value t
  have key : ∀ (l : List (Fin 8)) (x : Bool × State), x.2.Kept ql zf →
      (l.foldl (fun (x : Bool × State) g => let r := x.2.grpStaged g ws; (x.1 || r.1, r.2)) x).2.Kept ql zf := by
    intro l
    induction l with
    | nil => exact fun x h => h
    | cons g l ih => exact fun x h => ih _ (State.grpStaged_kept _ _ _ h)
  exact key _ _ ht

theorem State.changeBegin_kept (s : State) (k : Nat) (chg : List (Nat × Nat)) (h0 : s.Kept ql zf) :
    (State.changeBegin s k chg).Kept ql zf := by
  unfold State.changeBegin
  repeat' (first | with_reducible assumption | (fail_if_no_progress (with_reducible apply State.Kept.upd)))

theorem State.bibPassed_kept (s : State) (k : Nat) (h0 : s.Kept ql zf) :
    (State.bibPassed s k).Kept ql zf := by
  unfold State.bibPassed
  repeat' (first
    | with_reducible assumption
    | with_reducible apply State.updBib_kept
    | with_reducible apply State.wakeNext_kept
    | with_reducible apply State.updChange_kept
    | with_reducible apply State.Kept.ite
    | (fail_if_no_progress (with_reducible apply State.Kept.upd)))

theorem State.bibFails_kept (s : State) (k status last : Nat) (swap : Bool) (h0 : s.Kept ql zf) :
    (State.bibFails s k status last swap).Kept ql zf := by
  unfold State.bibFails
  repeat' (first
    | with_reducible assumption
    | with_reducible apply State.failBib_kept
    | with_reducible apply State.swapDrop_kept
    | with_reducible apply State.Kept.ite)

theorem State.startsIn_kept (s t : State) (h0 : s.Kept ql zf) (h1 : t.Kept ql zf) :
    (State.startsIn s t).Kept ql zf := by
  unfold State.startsIn
  repeat' (first
    | with_reducible assumption
    | (intro hq; exact Port.Balanced.same hq rfl rfl rfl rfl)
    | (dsimp only)
    | (intro _)
    | with_reducible apply State.updLine_kept
    | with_reducible apply State.Kept.foldl
    | (refine State.Kept.of_snd (by assumption) ?_)
    | (refine State.Kept.of_snd2 (by assumption) ?_)
    | (refine State.Kept.of_snd3 (by assumption) ?_)
    | (refine State.Kept.of_mid (by assumption) ?_)
    | with_reducible apply State.Kept.ite
    | split
    | (fail_if_no_progress (with_reducible apply State.Kept.upd)))

theorem State.applyEntries_kept (s : State) (k : Nat) (h0 : s.Kept ql zf) :
    (State.applyEntries s k).Kept ql zf := by
  unfold State.applyEntries
  repeat' (first
    | with_reducible assumption
    | (intro _)
    | with_reducible apply State.applyWrite_kept
    | with_reducible apply State.grpApply_kept
    | with_reducible apply State.grpStaged_kept
    | with_reducible apply State.swapApply_kept
    | with_reducible apply State.Kept.foldl
    | with_reducible apply State.Kept.ite)

theorem State.spendEntries_kept (s : State) (k : Nat) (h0 : s.Kept ql zf) :
    (State.spendEntries s k).Kept ql zf := by
  unfold State.spendEntries
  repeat' (first | with_reducible assumption | (fail_if_no_progress (with_reducible apply State.Kept.upd)))

theorem State.applyBib_kept (s : State) (k : Nat) (h0 : s.Kept ql zf) :
    (State.applyBib s k).Kept ql zf := by
  unfold State.applyBib
  repeat' (first
    | with_reducible assumption
    | (intro hq; exact Port.Balanced.same hq rfl rfl rfl rfl)
    | (dsimp only)
    | (intro _)
    | with_reducible apply State.inOneCycle_kept
    | with_reducible apply State.failBib_kept
    | with_reducible apply State.wakesUndo_kept
    | with_reducible apply State.swapDrop_kept
    | with_reducible apply State.changeEnd_kept
    | with_reducible apply State.updBib_kept
    | with_reducible apply State.startsIn_kept
    | with_reducible apply State.applyEntries_kept
    | with_reducible apply State.commitBib_kept
    | with_reducible apply State.spendEntries_kept
    | with_reducible apply State.bumpVer_kept
    | with_reducible apply State.updChange_kept
    | with_reducible apply State.Kept.foldl
    | (refine State.Kept.of_snd (by assumption) ?_)
    | (refine State.Kept.of_snd2 (by assumption) ?_)
    | (refine State.Kept.of_snd3 (by assumption) ?_)
    | (refine State.Kept.of_mid (by assumption) ?_)
    | with_reducible apply State.Kept.ite
    | split
    | (fail_if_no_progress (with_reducible apply State.Kept.upd)))

theorem State.tickClose_kept (s : State) (h0 : s.Kept ql zf) :
    (State.tickClose s).Kept ql zf := by
  unfold State.tickClose
  repeat' (first
    | with_reducible assumption
    | with_reducible apply State.entryClear_kept
    | with_reducible apply State.lowerOn_kept
    | with_reducible apply State.Kept.foldl
    | (fail_if_no_progress (with_reducible apply State.Kept.upd)))

theorem State.applyAtOnce_kept (s : State) (k : Nat) (h0 : s.Kept ql zf) :
    (State.applyAtOnce s k).Kept ql zf := by
  unfold State.applyAtOnce
  repeat' (first
    | with_reducible assumption
    | with_reducible apply State.tickClose_kept
    | with_reducible apply State.applyBib_kept
    | with_reducible apply State.flushParams_kept
    | with_reducible apply State.Kept.ite)

theorem State.voteWon_kept (s : State) (k : Nat) (h0 : s.Kept ql zf) :
    (State.voteWon s k).Kept ql zf := by
  unfold State.voteWon
  repeat' (first
    | with_reducible assumption
    | with_reducible apply State.applyAtOnce_kept
    | with_reducible apply State.bibPassed_kept)

theorem State.bibChecks_kept (s : State) (k now edge : Nat) (h0 : s.Kept ql zf) :
    (State.bibChecks s k now edge).Kept ql zf := by
  unfold State.bibChecks
  repeat' (first
    | with_reducible assumption
    | with_reducible apply State.failBib_kept
    | with_reducible apply State.swapAdmit_kept
    | with_reducible apply State.bibFails_kept
    | with_reducible apply State.updBib_kept
    | with_reducible apply State.applyAtOnce_kept
    | with_reducible apply State.bibPassed_kept
    | with_reducible apply State.changeRefused_kept
    | with_reducible apply State.changeBegin_kept
    | with_reducible apply State.voteWon_kept
    | (refine State.Kept.of_snd (by assumption) ?_)
    | with_reducible apply State.Kept.ite
    | split)

theorem State.validate_kept (s : State) (k now edge : Nat) (h0 : s.Kept ql zf) :
    (State.validate s k now edge).Kept ql zf := by
  unfold State.validate
  repeat' (first
    | with_reducible assumption
    | with_reducible apply State.updBib_kept
    | with_reducible apply State.bibChecks_kept
    | with_reducible apply State.Kept.ite)

theorem State.abortPending_kept (s : State) (p : Fin 4) (status : Nat) (h0 : s.Kept ql zf) :
    (State.abortPending s p status).Kept ql zf := by
  unfold State.abortPending
  repeat' (first
    | with_reducible assumption
    | (intro _)
    | with_reducible apply State.abortBib_kept
    | with_reducible apply State.Kept.foldl
    | with_reducible apply State.Kept.ite)

theorem State.retirePort_kept (s : State) (p : Fin 4) (h0 : s.Kept ql zf) :
    (State.retirePort s p).Kept ql zf := by
  unfold State.retirePort
  repeat' (first
    | with_reducible assumption
    | (intro _)
    | with_reducible apply State.freeBib_kept
    | with_reducible apply State.updBib_kept
    | with_reducible apply State.Kept.foldl
    | with_reducible apply State.Kept.ite)

theorem State.voteLost_kept (s : State) (cause : Nat) (h0 : s.Kept ql zf) :
    (State.voteLost s cause).Kept ql zf := by
  unfold State.voteLost
  repeat' (first
    | with_reducible assumption
    | with_reducible apply State.liftStart_kept
    | with_reducible apply State.wakersRetry_kept
    | with_reducible apply State.bibFails_kept
    | with_reducible apply State.voteRecord_kept
    | split
    | (fail_if_no_progress (with_reducible apply State.Kept.upd)))

theorem State.voteAnswer_kept (s : State) (arriving : Bool) (h0 : s.Kept ql zf) :
    (State.voteAnswer s arriving).Kept ql zf := by
  unfold State.voteAnswer
  repeat' (first
    | with_reducible assumption
    | with_reducible apply State.voteLost_kept
    | with_reducible apply State.updChange_kept
    | with_reducible apply State.voteWon_kept
    | with_reducible apply State.Kept.ite
    | split)

theorem State.targetsOn_kept (s : State) (ds : List Nat) (h0 : s.Kept ql zf) :
    (State.targetsOn s ds).Kept ql zf := by
  unfold State.targetsOn
  repeat' (first
    | with_reducible assumption
    | (intro _)
    | with_reducible apply State.bumpVer_kept
    | with_reducible apply State.setFld_kept
    | with_reducible apply State.Kept.foldl)

theorem State.wakesOver_kept (s : State) (h0 : s.Kept ql zf) :
    (State.wakesOver s).Kept ql zf := by
  unfold State.wakesOver
  repeat' (first
    | with_reducible assumption
    | (dsimp only)
    | with_reducible apply State.updChange_kept
    | with_reducible apply State.changeEnd_kept
    | with_reducible apply State.targetsOn_kept
    | with_reducible apply State.wakersRetry_kept
    | with_reducible apply State.raise_kept
    | with_reducible apply State.applyAtOnce_kept
    | split)

theorem State.accessApply_kept (s : State) (h0 : s.Kept ql zf) :
    (State.accessApply s).Kept ql zf := by
  unfold State.accessApply
  repeat' (first
    | with_reducible assumption
    | (dsimp only)
    | with_reducible apply State.changeEnd_kept
    | with_reducible apply State.targetsOn_kept
    | with_reducible apply State.freeBib_kept
    | split)

theorem State.missedValidations_kept (s : State) (h0 : s.Kept ql zf) :
    (State.missedValidations s).Kept ql zf := by
  unfold State.missedValidations
  repeat' (first
    | with_reducible assumption
    | (intro hq; exact Port.Balanced.same hq rfl rfl rfl rfl)
    | (dsimp only)
    | (intro _)
    | with_reducible apply State.Kept.foldl
    | (refine State.Kept.of_snd (by assumption) ?_)
    | (refine State.Kept.of_snd2 (by assumption) ?_)
    | (refine State.Kept.of_snd3 (by assumption) ?_)
    | (refine State.Kept.of_mid (by assumption) ?_)
    | with_reducible apply State.Kept.ite
    | split
    | (fail_if_no_progress (with_reducible apply State.Kept.upd)))

theorem State.wakeDone_kept (s : State) (h0 : s.Kept ql zf) :
    (State.wakeDone s).Kept ql zf := by
  unfold State.wakeDone
  repeat' (first
    | with_reducible assumption
    | with_reducible apply State.missedValidations_kept
    | with_reducible apply State.reachOn_kept
    | with_reducible apply State.wakesOver_kept
    | with_reducible apply State.accessApply_kept
    | with_reducible apply State.wakeNext_kept
    | with_reducible apply State.Kept.ite
    | split)

theorem State.ringEmpty_kept (s : State) (i : Nat) (h0 : s.Kept ql zf) :
    (State.ringEmpty s i).Kept ql zf := by
  unfold State.ringEmpty
  repeat' (first | with_reducible assumption | with_reducible apply State.updRing_kept)

theorem State.ringFrame_kept (s : State) (i : Nat) (h0 : s.Kept ql zf) :
    (State.ringFrame s i).Kept ql zf := by
  unfold State.ringFrame
  repeat' (first
    | with_reducible assumption
    | with_reducible apply State.freeBytes_kept
    | with_reducible apply State.ringGive_kept
    | with_reducible apply State.setBytes_kept)

theorem State.coreGoesOn_kept (s : State) (p : Fin 4) (h0 : s.Kept ql zf) :
    (State.coreGoesOn s p).Kept ql zf := by
  unfold State.coreGoesOn
  repeat' (first
    | with_reducible assumption
    | with_reducible apply State.lowerOn_kept
    | split
    | (fail_if_no_progress (with_reducible apply State.Kept.upd)))

theorem State.startFrame_kept (s : State) (p : Fin 4) (h0 : s.Kept ql zf) :
    (State.startFrame s p).Kept ql zf := by
  unfold State.startFrame
  refine State.updPort_kept _ _ _ h0 fun hb => ?_
  split <;> exact Port.Balanced.same hb rfl rfl rfl rfl

theorem State_updPort_at (s : State) (p : Fin 4) (f : Port → Port) : (s.updPort p f).ports[p] = f s.ports[p] := by
  simp [State.updPort]

theorem State.startFrame_held (s : State) (p : Fin 4) : (s.startFrame p).ports[p].held = s.ports[p].held := by
  unfold State.startFrame
  rw [State_updPort_at]
  split <;> rfl

theorem State.voidNext_kept : ∀ (p : Fin 4) (n : Nat) (s : State) (h : s.Kept ql zf), (State.voidNext p n s).Kept ql zf := by
  intro p n
  induction n with
  | zero => exact fun s h => h
  | succ n ih =>
    intro s h
    rw [State.voidNext]
    split
    · next f rest hf =>
      split
      · refine ih _ (State.startFrame_kept _ _ (State.updPort_kept _ _ _ h fun hb => ⟨hb.sum, ?_⟩))
        have hq := hb.queued
        simp only [Port.owing, hf] at hq ⊢
        refine Nat.le_trans ?_ hq
        rw [List.filter_cons]
        split <;> simp
      · exact h
    · exact h

theorem State.voidNext_held : ∀ (p : Fin 4) (n : Nat) (s : State), (State.voidNext p n s).ports[p].held = s.ports[p].held := by
  intro p n
  induction n with
  | zero => exact fun s => rfl
  | succ n ih =>
    intro s
    rw [State.voidNext]
    split
    · split
      · rw [ih, State.startFrame_held, State_updPort_at]
      · rfl
    · rfl

theorem State.countsReset_kept (s : State) (p : Fin 4) (h0 : s.Kept ql zf) :
    (State.countsReset s p).Kept ql zf := by
  unfold State.countsReset
  refine State.voidNext_kept _ _ _ (State.ringEmpty_kept _ _ (State.ringEmpty_kept _ _ (State.updPort_kept _ _ _ h0 fun hb => ⟨rfl, ?_⟩)))
  have hz : ∀ l : List CmdFrame, ((l.map fun (f : CmdFrame) => { f with void := true }).filter fun (f : CmdFrame) => !f.void) = [] := by
    intro l
    induction l with
    | nil => rfl
    | cons x l ih => simpa using ih
  show (((s.ports[p].frames.map fun (f : CmdFrame) => { f with void := true }).filter fun (f : CmdFrame) => !f.void)).length ≤ 0
  rw [hz]
  exact Nat.le_refl 0

theorem State.leaseStart_kept (s : State) (p : Fin 4) (ms : Nat) (h0 : s.Kept ql zf) :
    (State.leaseStart s p ms).Kept ql zf := by
  unfold State.leaseStart
  repeat' (first
    | with_reducible assumption
    | (intro hq; exact Port.Balanced.same hq rfl rfl rfl rfl)
    | with_reducible apply State.updPort_kept)

theorem State.leaseAt_kept (s : State) (p : Fin 4) (left : Nat) (h0 : s.Kept ql zf) :
    (State.leaseAt s p left).Kept ql zf := by
  unfold State.leaseAt
  repeat' (first
    | with_reducible assumption
    | (intro hq; exact Port.Balanced.same hq rfl rfl rfl rfl)
    | with_reducible apply State.updPort_kept)

theorem State.claimsFree_kept (s : State) (p : Fin 4) (h0 : s.Kept ql zf) :
    (State.claimsFree s p).Kept ql zf := by
  unfold State.claimsFree
  repeat' (first | with_reducible assumption | (fail_if_no_progress (with_reducible apply State.Kept.upd)))

theorem State.sessionLeave_kept (s : State) (p : Fin 4) (x : Session) (h0 : s.Kept ql zf) :
    (State.sessionLeave s p x).Kept ql zf := by
  unfold State.sessionLeave
  repeat' (first
    | with_reducible assumption
    | (intro hq; exact Port.Balanced.same hq rfl rfl rfl rfl)
    | with_reducible apply State.updPort_kept)

theorem State.sessionClose_kept (s : State) (p : Fin 4) (h0 : s.Kept ql zf) :
    (State.sessionClose s p).Kept ql zf := by
  unfold State.sessionClose
  repeat' (first
    | with_reducible assumption
    | (intro hq; exact Port.Balanced.same hq rfl rfl rfl rfl)
    | (dsimp only)
    | (intro _)
    | with_reducible apply State.inOneCycle_kept
    | with_reducible apply State.raise_kept
    | with_reducible apply State.sessionLeave_kept
    | with_reducible apply State.countsReset_kept
    | with_reducible apply State.sessionDrop_kept
    | with_reducible apply State.claimsFree_kept
    | with_reducible apply State.abortPending_kept
    | with_reducible apply State.Kept.foldl
    | (refine State.Kept.of_snd (by assumption) ?_)
    | (refine State.Kept.of_snd2 (by assumption) ?_)
    | (refine State.Kept.of_snd3 (by assumption) ?_)
    | (refine State.Kept.of_mid (by assumption) ?_)
    | with_reducible apply State.Kept.ite
    | split
    | (fail_if_no_progress (with_reducible apply State.Kept.upd)))

theorem State.sessionExpire_kept (s : State) (p : Fin 4) (h0 : s.Kept ql zf) :
    (State.sessionExpire s p).Kept ql zf := by
  unfold State.sessionExpire
  repeat' (first
    | with_reducible assumption
    | (intro hq; exact Port.Balanced.same hq rfl rfl rfl rfl)
    | (dsimp only)
    | (intro _)
    | with_reducible apply State.inOneCycle_kept
    | with_reducible apply State.sessionLeave_kept
    | with_reducible apply State.countsReset_kept
    | with_reducible apply State.sessionDrop_kept
    | with_reducible apply State.abortPending_kept
    | with_reducible apply State.coreGoesOn_kept
    | with_reducible apply State.raise_kept
    | with_reducible apply State.countSat_kept
    | with_reducible apply State.leaseAt_kept
    | with_reducible apply State.Kept.foldl
    | (refine State.Kept.of_snd (by assumption) ?_)
    | (refine State.Kept.of_snd2 (by assumption) ?_)
    | (refine State.Kept.of_snd3 (by assumption) ?_)
    | (refine State.Kept.of_mid (by assumption) ?_)
    | with_reducible apply State.Kept.ite
    | split
    | (fail_if_no_progress (with_reducible apply State.Kept.upd)))

theorem State.graceEnd_kept (s : State) (p : Fin 4) (h0 : s.Kept ql zf) :
    (State.graceEnd s p).Kept ql zf := by
  unfold State.graceEnd
  repeat' (first
    | with_reducible assumption
    | with_reducible apply State.raise_kept
    | with_reducible apply State.sessionLeave_kept
    | with_reducible apply State.claimsFree_kept)

theorem State_setBytes_ports : ∀ (l : List Byte) (s : State) (a : Nat), (s.setBytes a l).ports = s.ports := by
  intro l
  induction l with
  | nil => exact fun _ _ => rfl
  | cons b l ih => exact fun s a => ih _ _

theorem State_ringFrame_ports (s : State) (i : Nat) : (s.ringFrame i).ports = s.ports := by
  unfold State.ringFrame
  split
  next bs t e =>
  have : t.ports = s.ports := by rw [show t = (s.freeBytes 16).2 by rw [e]]; rfl
  rw [State.ringGive, updRing_ports, State_setBytes_ports, this]

theorem State_countWrap_ports (s : State) (f : Fld) (k : Nat) : (s.countWrap f k).ports = s.ports := rfl

theorem State.acceptFrame_kept (s : State) (p : Fin 4) (seq : Nat) (body : List Byte) (ops : List Instr) (h0 : s.Kept ql zf)
    (hh : 0 < s.ports[p].held) : (s.acceptFrame p seq body ops).Kept ql zf := by
  have hp : (((s.countWrap (Fd.CP_RX_CNT_FRAMES p) 1).ringFrame p).leaseStart p s.ports[p].lease).ports[p].held = s.ports[p].held := by
    rw [State.leaseStart, State_updPort_at, State_ringFrame_ports, State_countWrap_ports]
  have ht := State.leaseStart_kept _ p s.ports[p].lease (State.ringFrame_kept _ p (State.countWrap_kept s (Fd.CP_RX_CNT_FRAMES p) 1 h0))
  unfold State.acceptFrame
  extract_lets +onlyGivenNames t u
  replace hp : t.ports[p].held = s.ports[p].held := hp
  replace ht : t.Kept ql zf := ht
  clear_value t
  have hu : u.Kept ql zf := by
    refine State.updPort_kept _ _ _ ht fun hb => ?_
    have h1 := hb.sum
    have h2 := hb.queued
    refine ⟨?_, ?_⟩
    · dsimp only
      omega
    · simp only [Port.owing, List.filter_append, List.length_append] at h2 ⊢
      have : (List.filter (fun f : CmdFrame => !f.void) [⟨seq, ops, false, s.nextTurn⟩]).length = 1 := rfl
      rw [this]
      omega
  clear_value u
  split
  · exact State.startFrame_kept _ _ hu
  · exact hu

theorem State.helloAccept_kept (s : State) (p : Fin 4) (seq : Nat) (ms host : Word) (body : List Byte) (h0 : s.Kept ql zf) :
    (State.helloAccept s p seq ms host body).Kept ql zf := by
  have hf : ∀ (t : State) (f : Port → Port), (∀ q, (f q).held = q.held ∧ (f q).queued = q.queued ∧ (f q).inflight = q.inflight ∧ (f q).frames = q.frames) →
      t.Kept ql zf → ((t.countsReset p).updPort p f).Kept ql zf ∧ ((t.countsReset p).updPort p f).ports[p].held = 16 := by
    intro t f hf ht
    refine ⟨State.updPort_kept _ _ _ (State.countsReset_kept _ _ ht) fun hb => Port.Balanced.same hb (hf _).1 (hf _).2.1 (hf _).2.2.1 (hf _).2.2.2, ?_⟩
    rw [State_updPort_at, (hf _).1]
    unfold State.countsReset
    dsimp only
    rw [State.voidNext_held]
    unfold State.ringEmpty
    rw [updRing_ports, updRing_ports, State_updPort_at]
  unfold State.helloAccept
  refine State.inOneCycle_kept _ _ h0 fun s h0 => ?_
  extract_lets +onlyGivenNames q same resumed t1 t2 t3 t4 t5
  have h1 : t1.Kept ql zf := by
    show (if q.session = .opened then s.abortPending p St.ABORTED_BY_HOST else s).Kept ql zf
    exact State.Kept.ite (State.abortPending_kept _ _ _ h0) h0
  clear_value t1
  have h2 : t2.Kept ql zf := by
    show (if same then t1 else t1.retirePort p).Kept ql zf
    exact State.Kept.ite h1 (State.retirePort_kept _ _ h1)
  clear_value t2
  have h3 : t3.Kept ql zf := by
    show (if resumed then t2 else (t2.claimsFree p).sessionDrop p).Kept ql zf
    exact State.Kept.ite h2 (State.sessionDrop_kept _ _ (State.claimsFree_kept _ _ h2))
  clear_value t3
  have h4 : t4.Kept ql zf ∧ t4.ports[p].held = 16 := hf _ _ (fun q => ⟨rfl, rfl, rfl, rfl⟩) h3
  clear_value t4
  have h5 : t5.Kept ql zf ∧ t5.ports[p].held = 16 := by
    show (if resumed then t4 else t4.ringEmpty (8 + p)).Kept ql zf ∧ (if resumed then t4 else t4.ringEmpty (8 + p)).ports[p].held = 16
    split
    · exact h4
    · exact ⟨State.ringEmpty_kept _ _ h4.1, h4.2⟩
  clear_value t5
  refine State.coreGoesOn_kept _ _ (State.acceptFrame_kept _ _ _ _ _ (State.raise_kept _ _ _ h5.1) ?_)
  rw [(raise_events _ _ _).rest]
  show 0 < t5.ports[p].held
  omega

theorem State.wakeFor_kept (s : State) (p : Fin 4) (d : Nat) (h0 : s.Kept ql zf) :
    (State.wakeFor s p d).2.Kept ql zf := by
  unfold State.wakeFor
  repeat' (first
    | with_reducible assumption
    | with_reducible apply State.takeBib_kept
    | with_reducible apply State.changeRefused_kept
    | with_reducible apply State.freeBib_kept
    | with_reducible apply State.updBib_kept
    | with_reducible apply State.wakeNext_kept
    | (refine State.Kept.of_snd (by assumption) ?_)
    | split
    | (fail_if_no_progress (with_reducible apply State.Kept.upd)))

theorem State.rdRun_kept (s : State) (p : Fin 4) (a n : Nat) (down : Option Nat) (h0 : s.Kept ql zf) :
    (State.rdRun s p a n down).2.Kept ql zf := by
  unfold State.rdRun
  repeat' (first | with_reducible assumption | with_reducible apply State.readWords_kept | split)

theorem State.writeData_kept (s : State) (ws : List WordOp) (h0 : s.Kept ql zf) :
    (State.writeData s ws).2.Kept ql zf := by
  unfold State.writeData
  repeat' (first | with_reducible assumption | with_reducible apply State.appliedBytes_kept | split)

theorem State.writeRefused_kept (s : State) (ws : List WordOp) (st : Nat) (h0 : s.Kept ql zf) :
    (State.writeRefused s ws st).2.Kept ql zf := by
  unfold State.writeRefused
  repeat' (first | with_reducible assumption | with_reducible apply State.writeData_kept)

theorem State.crcForeign_kept (s : State) (p : Fin 4) (a st : Nat) (h0 : s.Kept ql zf) :
    (State.crcForeign s p a st).Kept ql zf := by
  unfold State.crcForeign
  repeat' (first
    | with_reducible assumption
    | (intro hq; exact Port.Balanced.same hq rfl rfl rfl rfl)
    | (dsimp only)
    | (intro _)
    | with_reducible apply State.setErr_kept
    | with_reducible apply State.Kept.foldl
    | (refine State.Kept.of_snd (by assumption) ?_)
    | (refine State.Kept.of_snd2 (by assumption) ?_)
    | (refine State.Kept.of_snd3 (by assumption) ?_)
    | (refine State.Kept.of_mid (by assumption) ?_)
    | with_reducible apply State.Kept.ite
    | split
    | (fail_if_no_progress (with_reducible apply State.Kept.upd)))

theorem State.wordRefused_kept (s : State) (p : Fin 4) (ws : List WordOp) (down : Option Nat) (bad : Nat × Nat × Option AccessKind) (h0 : s.Kept ql zf) :
    (State.wordRefused s p ws down bad).2.Kept ql zf := by
  unfold State.wordRefused
  repeat' (first
    | with_reducible assumption
    | with_reducible apply State.writeRefused_kept
    | with_reducible apply State.crcForeign_kept
    | with_reducible apply State.logAccess_kept
    | split)

theorem State.writeInto_kept (s : State) (p : Fin 4) (k : Nat) (ws : List WordOp) (h0 : s.Kept ql zf) :
    (State.writeInto s p k ws).Kept ql zf := by
  unfold State.writeInto
  repeat' (first
    | with_reducible assumption
    | with_reducible apply State.stageWords_kept
    | with_reducible apply State.bumpWords_kept
    | with_reducible apply State.applyWords_kept)

theorem State.implicitRun_kept (s : State) (p : Fin 4) (ws : List WordOp) (h0 : s.Kept ql zf) :
    (State.implicitRun s p ws).2.Kept ql zf := by
  unfold State.implicitRun
  repeat' (first
    | with_reducible assumption
    | with_reducible apply State.takeBib_kept
    | with_reducible apply State.writeRefused_kept
    | with_reducible apply State.writeData_kept
    | with_reducible apply State.writeInto_kept
    | (refine State.Kept.of_snd (by assumption) ?_)
    | split)

theorem State.directRun_kept (s : State) (p : Fin 4) (ws : List WordOp) (down : Option Nat) (h0 : s.Kept ql zf) :
    (State.directRun s p ws down).2.Kept ql zf := by
  unfold State.directRun
  repeat' (first
    | with_reducible assumption
    | (dsimp only)
    | with_reducible apply State.wordRefused_kept
    | with_reducible apply State.implicitRun_kept
    | with_reducible apply State.writeData_kept
    | with_reducible apply State.applyWords_kept
    | with_reducible apply State.writeRefused_kept
    | with_reducible apply State.bumpWords_kept
    | split)

theorem State.stagedRun_kept (s : State) (p : Fin 4) (v : Nat) (ws : List WordOp) (down : Option Nat) (h0 : s.Kept ql zf) :
    (State.stagedRun s p v ws down).2.Kept ql zf := by
  unfold State.stagedRun
  repeat' (first
    | with_reducible assumption
    | (dsimp only)
    | with_reducible apply State.writeRefused_kept
    | with_reducible apply State.wordRefused_kept
    | with_reducible apply State.abortBib_kept
    | with_reducible apply State.writeData_kept
    | with_reducible apply State.writeInto_kept
    | split)

theorem State.writeRun_kept (s : State) (p : Fin 4) (v : Nat) (ws : List WordOp) (down : Option Nat) (h0 : s.Kept ql zf) :
    (State.writeRun s p v ws down).2.Kept ql zf := by
  unfold State.writeRun
  repeat' (first
    | with_reducible assumption
    | with_reducible apply State.directRun_kept
    | with_reducible apply State.stagedRun_kept
    | split)

theorem State.openRun_kept (s : State) (p : Fin 4) (h0 : s.Kept ql zf) :
    (State.openRun s p).2.Kept ql zf := by
  unfold State.openRun
  repeat' (first
    | with_reducible assumption
    | with_reducible apply State.takeBib_kept
    | (refine State.Kept.of_snd (by assumption) ?_)
    | split)

theorem State.commitRun_kept (s : State) (p : Fin 4) (v mode time : Nat) (h0 : s.Kept ql zf) :
    (State.commitRun s p v mode time).2.Kept ql zf := by
  unfold State.commitRun
  repeat' (first
    | with_reducible assumption
    | (dsimp only)
    | with_reducible apply State.updBib_kept
    | with_reducible apply State.validate_kept
    | split)

theorem State.abortRun_kept (s : State) (p : Fin 4) (v : Nat) (h0 : s.Kept ql zf) :
    (State.abortRun s p v).2.Kept ql zf := by
  unfold State.abortRun
  repeat' (first | with_reducible assumption | (dsimp only) | with_reducible apply State.abortBib_kept | split)

theorem State.statusRun_kept (s : State) (p : Fin 4) (v : Nat) (retire : Bool) (h0 : s.Kept ql zf) :
    (State.statusRun s p v retire).2.Kept ql zf := by
  unfold State.statusRun
  repeat' (first
    | with_reducible assumption
    | with_reducible apply State.freeBib_kept
    | with_reducible apply State.Kept.ite
    | split)

theorem State.claimRun_kept (s : State) (p : Fin 4) (g : Nat) (h0 : s.Kept ql zf) :
    (State.claimRun s p g).2.Kept ql zf := by
  unfold State.claimRun
  repeat' (first | with_reducible assumption | split | (fail_if_no_progress (with_reducible apply State.Kept.upd)))

theorem State.releaseRun_kept (s : State) (p : Fin 4) (g : Nat) (h0 : s.Kept ql zf) :
    (State.releaseRun s p g).2.Kept ql zf := by
  unfold State.releaseRun
  repeat' (first | with_reducible assumption | split | (fail_if_no_progress (with_reducible apply State.Kept.upd)))

theorem State.pullRun_kept (s : State) (p : Fin 4) (r max : Nat) (h0 : s.Kept ql zf) :
    (State.pullRun s p r max).2.Kept ql zf := by
  unfold State.pullRun
  repeat' (first | with_reducible assumption | with_reducible apply State.ringTake_kept | split)

theorem State.pushRun_kept (s : State) (p : Fin 4) (r : Nat) (bs : List Byte) (h0 : s.Kept ql zf) :
    (State.pushRun s p r bs).2.Kept ql zf := by
  unfold State.pushRun
  repeat' (first
    | with_reducible assumption
    | (dsimp only)
    | (intro _)
    | with_reducible apply State.ringLose_kept
    | with_reducible apply State.setBytes_kept
    | with_reducible apply State.ringHostGive_kept
    | with_reducible apply State.Kept.foldl
    | split)

theorem State.leaseRun_kept (s : State) (p : Fin 4) (ms : Nat) (h0 : s.Kept ql zf) :
    (State.leaseRun s p ms).2.Kept ql zf := by
  unfold State.leaseRun
  repeat' (first | with_reducible assumption | with_reducible apply State.leaseStart_kept | split)

theorem State.opBody_kept (s : State) (p : Fin 4) (op : Instr) (down : Option Nat) (h0 : s.Kept ql zf) :
    (State.opBody s p op down).2.Kept ql zf := by
  unfold State.opBody
  repeat' (first
    | with_reducible assumption
    | with_reducible apply State.leaseRun_kept
    | with_reducible apply State.rdRun_kept
    | with_reducible apply State.writeRun_kept
    | with_reducible apply State.freeBytes_kept
    | with_reducible apply State.openRun_kept
    | with_reducible apply State.commitRun_kept
    | with_reducible apply State.abortRun_kept
    | with_reducible apply State.statusRun_kept
    | with_reducible apply State.claimRun_kept
    | with_reducible apply State.releaseRun_kept
    | with_reducible apply State.pullRun_kept
    | with_reducible apply State.pushRun_kept
    | with_reducible apply State.directRun_kept
    | split)

theorem State.opRun_kept (s : State) (p : Fin 4) (op : Instr) (h0 : s.Kept ql zf) :
    (State.opRun s p op).2.Kept ql zf := by
  unfold State.opRun
  repeat' (first
    | with_reducible assumption
    | with_reducible apply State.opBody_kept
    | with_reducible apply State.wakeFor_kept
    | (refine State.Kept.of_snd (by assumption) ?_)
    | split)

theorem State.opDone_kept (s : State) (p : Fin 4) (r : OpResult) (h0 : s.Kept ql zf) :
    (State.opDone s p r).Kept ql zf := by
  unfold State.opDone
  repeat' (first
    | with_reducible assumption
    | (intro hq; exact Port.Balanced.same hq rfl rfl rfl rfl)
    | with_reducible apply State.updPort_kept
    | with_reducible apply State.voidNext_kept
    | with_reducible apply State.coreGoesOn_kept
    | with_reducible apply State.sessionClose_kept
    | with_reducible apply State.Kept.ite)

theorem State.headWaits_kept (s : State) (p : Fin 4) (w : Wait) (h0 : s.Kept ql zf) :
    (State.headWaits s p w).Kept ql zf := by
  unfold State.headWaits
  repeat' (first
    | with_reducible assumption
    | (intro hq; exact Port.Balanced.same hq rfl rfl rfl rfl)
    | with_reducible apply State.updPort_kept)

theorem State.opSettle_kept (p : Fin 4) (op : Instr) (r : OpEnd × State) (h : r.2.Kept ql zf) : (State.opSettle p op r).2.Kept ql zf := by
  obtain ⟨e, t⟩ := r
  cases e with
  | done st data => exact State.opDone_kept _ _ _ h
  | waits w k =>
    cases k with
    | none => exact State.headWaits_kept _ _ _ h
    | some k => exact State.validate_kept _ _ _ _ (State.headWaits_kept _ _ _ h)
  | wakes _ => exact h
  | gone => exact h

theorem State.resumePort_kept : ∀ (p : Fin 4) (n : Nat) (s : State) (h : s.Kept ql zf), (State.resumePort p n s).Kept ql zf := by
  intro p n
  induction n with
  | zero => exact fun s h => h
  | succ n ih =>
    intro s h
    rw [State.resumePort]
    split
    · exact h
    · split
      · exact h
      · next x l hx =>
        have hs : (State.opSettle p x.op (s.opRun p x.op)).2.Kept ql zf := State.opSettle_kept _ _ _ (State.opRun_kept _ _ _ h)
        generalize State.opSettle p x.op (s.opRun p x.op) = z at hs
        split
        · exact ih _ (State.opDone_kept _ _ _ h)
        · dsimp only
          split
          · exact ih _ hs
          · exact hs
        · dsimp only
          split
          · exact ih _ hs
          · exact hs
        all_goals exact h

theorem State.bibsGoOn_kept (s : State) (h0 : s.Kept ql zf) :
    (State.bibsGoOn s).Kept ql zf := by
  unfold State.bibsGoOn
  repeat' (first
    | with_reducible assumption
    | (intro _)
    | with_reducible apply State.validate_kept
    | with_reducible apply State.Kept.foldl
    | with_reducible apply State.Kept.ite)

theorem State.pumpOnce_kept (s : State) (h0 : s.Kept ql zf) :
    (State.pumpOnce s).Kept ql zf := by
  unfold State.pumpOnce
  repeat' (first
    | with_reducible assumption
    | (intro _)
    | with_reducible apply State.bibsGoOn_kept
    | with_reducible apply State.resumePort_kept
    | with_reducible apply State.Kept.foldl)

theorem State.pumpN_kept : ∀ (n : Nat) (s : State) (h : s.Kept ql zf), (State.pumpN n s).Kept ql zf := by
  intro n
  induction n with
  | zero => exact fun s h => h
  | succ n ih => exact fun s h => ih _ (State.pumpOnce_kept _ h)

theorem State.pump_kept (s : State) (h0 : s.Kept ql zf) :
    (State.pump s).Kept ql zf := by
  unfold State.pump
  repeat' (first | with_reducible assumption | with_reducible apply State.pumpN_kept | with_reducible apply State.Kept.ite)

theorem State.tickEnd_kept (s : State) (h0 : s.Kept ql zf) :
    (State.tickEnd s).Kept ql zf := by
  unfold State.tickEnd
  repeat' (first
    | with_reducible assumption
    | with_reducible apply State.pump_kept
    | with_reducible apply State.tickClose_kept)

theorem State.enqueue_kept (s : State) (p : Fin 4) (op : Instr) (h0 : s.Kept ql zf) :
    (State.enqueue s p op).Kept ql zf := by
  unfold State.enqueue
  repeat' (first
    | with_reducible assumption
    | (intro hq; exact Port.Balanced.same hq rfl rfl rfl rfl)
    | (dsimp only)
    | (intro _)
    | with_reducible apply State.pump_kept
    | with_reducible apply State.updPort_kept
    | with_reducible apply State.Kept.foldl
    | (refine State.Kept.of_snd (by assumption) ?_)
    | (refine State.Kept.of_snd2 (by assumption) ?_)
    | (refine State.Kept.of_snd3 (by assumption) ?_)
    | (refine State.Kept.of_mid (by assumption) ?_)
    | with_reducible apply State.Kept.ite
    | split
    | (fail_if_no_progress (with_reducible apply State.Kept.upd)))

theorem State.submit_kept (s : State) (p : Fin 4) (op : Instr) (h0 : s.Kept ql zf) :
    (State.submit s p op).Kept ql zf := by
  unfold State.submit
  repeat' (first
    | with_reducible assumption
    | (intro hq; exact Port.Balanced.same hq rfl rfl rfl rfl)
    | with_reducible apply State.enqueue_kept
    | with_reducible apply State.Kept.ite)

theorem State.writeNow_kept (s : State) (p : Fin 4) (a v : Nat) (h0 : s.Kept ql zf) :
    (State.writeNow s p a v).Kept ql zf := by
  unfold State.writeNow
  repeat' (first
    | with_reducible assumption
    | with_reducible apply State.enqueue_kept
    | (refine State.Kept.of_snd (by assumption) ?_)
    | split)

theorem State.directWriteAt_kept (s : State) (p : Fin 4) (g a v : Nat) (f : State → State) (h0 : s.Kept ql zf) (h5 : ∀ s : State, s.Kept ql zf → (f s).Kept ql zf) :
    (State.directWriteAt s p g a v f).Kept ql zf := by
  unfold State.directWriteAt
  repeat' (first
    | with_reducible assumption
    | (intro hq; exact Port.Balanced.same hq rfl rfl rfl rfl)
    | (dsimp only)
    | (intro _)
    | with_reducible apply State.writeNow_kept
    | with_reducible apply State.directPage_kept
    | with_reducible apply State.Kept.foldl
    | (refine State.Kept.of_snd (by assumption) ?_)
    | (refine State.Kept.of_snd2 (by assumption) ?_)
    | (refine State.Kept.of_snd3 (by assumption) ?_)
    | (refine State.Kept.of_mid (by assumption) ?_)
    | with_reducible apply State.Kept.ite
    | split
    | (fail_if_no_progress (with_reducible apply State.Kept.upd)))

theorem State.directWrite_kept (s : State) (p : Fin 4) (a v : Nat) (f : State → State) (h0 : s.Kept ql zf) (h4 : ∀ s : State, s.Kept ql zf → (f s).Kept ql zf) :
    (State.directWrite s p a v f).Kept ql zf := by
  unfold State.directWrite
  repeat' (first
    | with_reducible assumption
    | (intro hq; exact Port.Balanced.same hq rfl rfl rfl rfl)
    | (dsimp only)
    | (intro _)
    | with_reducible apply State.directWriteAt_kept
    | with_reducible apply State.Kept.foldl
    | (refine State.Kept.of_snd (by assumption) ?_)
    | (refine State.Kept.of_snd2 (by assumption) ?_)
    | (refine State.Kept.of_snd3 (by assumption) ?_)
    | (refine State.Kept.of_mid (by assumption) ?_)
    | with_reducible apply State.Kept.ite
    | split
    | (fail_if_no_progress (with_reducible apply State.Kept.upd)))

theorem execNop_kept (p : Fin 4) (s : State) (h1 : s.Kept ql zf) :
    NextKept (execNop p s) ql zf := by
  unfold execNop
  repeat' (first | with_reducible assumption | with_reducible apply State.submit_kept | apply nextKept_next)

theorem execLease_kept (p : Fin 4) (leaseMs : Word) (s : State) (h2 : s.Kept ql zf) :
    NextKept (execLease p leaseMs s) ql zf := by
  unfold execLease
  repeat' (first | with_reducible assumption | with_reducible apply State.submit_kept | apply nextKept_next)

theorem execRd_kept (p : Fin 4) (addr : Word) (count : BitVec 16) (s : State) (h3 : s.Kept ql zf) :
    NextKept (execRd p addr count s) ql zf := by
  unfold execRd
  repeat' (first | with_reducible assumption | with_reducible apply State.submit_kept | apply nextKept_next)

theorem execWr_kept (p : Fin 4) (addr : Word) (bib : BitVec 16) (data : List Byte) (s : State) (h4 : s.Kept ql zf) :
    NextKept (execWr p addr bib data s) ql zf := by
  unfold execWr
  repeat' (first | with_reducible assumption | with_reducible apply State.submit_kept | apply nextKept_next)

theorem execRmw_kept (p : Fin 4) (addr : Word) (bib : BitVec 16) (mask value : Word) (s : State) (h5 : s.Kept ql zf) :
    NextKept (execRmw p addr bib mask value s) ql zf := by
  unfold execRmw
  repeat' (first | with_reducible assumption | with_reducible apply State.submit_kept | apply nextKept_next)

theorem execTxnOpen_kept (p : Fin 4) (s : State) (h1 : s.Kept ql zf) :
    NextKept (execTxnOpen p s) ql zf := by
  unfold execTxnOpen
  repeat' (first | with_reducible assumption | with_reducible apply State.submit_kept | apply nextKept_next)

theorem execTxnCommit_kept (p : Fin 4) (bib : BitVec 16) (mode : Byte) (time : Count) (s : State) (h4 : s.Kept ql zf) :
    NextKept (execTxnCommit p bib mode time s) ql zf := by
  unfold execTxnCommit
  repeat' (first | with_reducible assumption | with_reducible apply State.submit_kept | apply nextKept_next)

theorem execTxnAbort_kept (p : Fin 4) (bib : BitVec 16) (s : State) (h2 : s.Kept ql zf) :
    NextKept (execTxnAbort p bib s) ql zf := by
  unfold execTxnAbort
  repeat' (first | with_reducible assumption | with_reducible apply State.submit_kept | apply nextKept_next)

theorem execTxnStatus_kept (p : Fin 4) (bib : BitVec 16) (retire : Bool) (s : State) (h3 : s.Kept ql zf) :
    NextKept (execTxnStatus p bib retire s) ql zf := by
  unfold execTxnStatus
  repeat' (first | with_reducible assumption | with_reducible apply State.submit_kept | apply nextKept_next)

theorem execClaim_kept (p : Fin 4) (page : BitVec 16) (s : State) (h2 : s.Kept ql zf) :
    NextKept (execClaim p page s) ql zf := by
  unfold execClaim
  repeat' (first | with_reducible assumption | with_reducible apply State.submit_kept | apply nextKept_next)

theorem execRelease_kept (p : Fin 4) (page : BitVec 16) (s : State) (h2 : s.Kept ql zf) :
    NextKept (execRelease p page s) ql zf := by
  unfold execRelease
  repeat' (first | with_reducible assumption | with_reducible apply State.submit_kept | apply nextKept_next)

theorem execRingPull_kept (p : Fin 4) (ring : Byte) (max : BitVec 16) (s : State) (h3 : s.Kept ql zf) :
    NextKept (execRingPull p ring max s) ql zf := by
  unfold execRingPull
  repeat' (first | with_reducible assumption | with_reducible apply State.submit_kept | apply nextKept_next)

theorem execRingPush_kept (p : Fin 4) (ring : Byte) (entries : List Byte) (s : State) (h3 : s.Kept ql zf) :
    NextKept (execRingPush p ring entries s) ql zf := by
  unfold execRingPush
  repeat' (first | with_reducible assumption | with_reducible apply State.submit_kept | apply nextKept_next)

theorem execRegisterWrite_kept (p : Fin 4) (addr v : Word) (s : State) (h3 : s.Kept ql zf) :
    NextKept (execRegisterWrite p addr v s) ql zf := by
  unfold execRegisterWrite
  repeat' (first | with_reducible assumption | with_reducible apply State.writeNow_kept | apply nextKept_next)

theorem execPisteSwap_kept (p : Fin 4) (s : State) (h1 : s.Kept ql zf) :
    NextKept (execPisteSwap p s) ql zf := by
  unfold execPisteSwap
  repeat' (first | with_reducible assumption | with_reducible apply State.writeNow_kept | apply nextKept_next)

theorem execPowerChange_kept (p : Fin 4) (ws : List (Fin 27 × Word)) (s : State) (h2 : s.Kept ql zf) :
    NextKept (execPowerChange p ws s) ql zf := by
  unfold execPowerChange
  repeat' (first | with_reducible assumption | with_reducible apply State.enqueue_kept | apply nextKept_next)

theorem execTimedValidation_kept (bib : BitVec 16) (s : State) (h1 : s.Kept ql zf) :
    NextKept (execTimedValidation bib s) ql zf := by
  unfold execTimedValidation
  repeat' (first
    | with_reducible assumption
    | with_reducible apply State.pump_kept
    | with_reducible apply State.validate_kept
    | apply nextKept_next
    | with_reducible apply State.Kept.ite
    | split)

theorem State.applyNow_kept (s : State) (k : Nat) (h0 : s.Kept ql zf) :
    (State.applyNow s k).Kept ql zf := by
  unfold State.applyNow
  repeat' (first
    | with_reducible assumption
    | with_reducible apply State.applyBib_kept
    | with_reducible apply State.flushParams_kept
    | with_reducible apply State.pump_kept
    | with_reducible apply State.tickClose_kept
    | with_reducible apply State.Kept.ite)

theorem execTxnApply_kept (bib : BitVec 16) (s : State) (h1 : s.Kept ql zf) :
    NextKept (execTxnApply bib s) ql zf := by
  unfold execTxnApply
  repeat' (first | with_reducible assumption | with_reducible apply State.applyNow_kept | apply nextKept_next | split)

theorem execVoteAnswer_kept (s : State) (arriving : optParam Bool false) (h0 : s.Kept ql zf) :
    NextKept (execVoteAnswer s arriving) ql zf := by
  unfold execVoteAnswer
  repeat' (first
    | with_reducible assumption
    | with_reducible apply State.pump_kept
    | with_reducible apply State.voteAnswer_kept
    | apply nextKept_next)

theorem execVoteTimeout_kept (s : State) (h0 : s.Kept ql zf) :
    NextKept (execVoteTimeout s) ql zf := by
  unfold execVoteTimeout
  repeat' (first
    | with_reducible assumption
    | with_reducible apply State.pump_kept
    | with_reducible apply State.voteLost_kept
    | apply nextKept_next
    | with_reducible apply State.Kept.ite)

theorem execDomainWakeDone_kept (s : State) (h0 : s.Kept ql zf) :
    NextKept (execDomainWakeDone s) ql zf := by
  unfold execDomainWakeDone
  repeat' (first
    | with_reducible assumption
    | with_reducible apply State.pump_kept
    | with_reducible apply State.wakeDone_kept
    | apply nextKept_next)

theorem execPowerApply_kept (s : State) (h0 : s.Kept ql zf) :
    NextKept (execPowerApply s) ql zf := by
  unfold execPowerApply
  repeat' (first
    | with_reducible assumption
    | with_reducible apply State.pump_kept
    | with_reducible apply State.accessApply_kept
    | with_reducible apply State.applyNow_kept
    | apply nextKept_next
    | split)

theorem execDomainLowerDone_kept (s : State) (h0 : s.Kept ql zf) :
    NextKept (execDomainLowerDone s) ql zf := by
  unfold execDomainLowerDone
  repeat' (first
    | with_reducible assumption
    | with_reducible apply State.pump_kept
    | with_reducible apply State.lowerDone_kept
    | apply nextKept_next)

theorem execAutowakeTimeout_kept (p : Fin 4) (s : State) (h1 : s.Kept ql zf) :
    NextKept (execAutowakeTimeout p s) ql zf := by
  unfold execAutowakeTimeout
  repeat' (first
    | with_reducible assumption
    | with_reducible apply State.pump_kept
    | with_reducible apply State.opSettle_kept
    | with_reducible apply State.opBody_kept
    | apply nextKept_next
    | split)

theorem State.liftNack_kept (s : State) (h0 : s.Kept ql zf) :
    (State.liftNack s).Kept ql zf := by
  unfold State.liftNack
  repeat' (first
    | with_reducible assumption
    | with_reducible apply State.raise_kept
    | with_reducible apply State.countSat_kept)

theorem execLiftMatch_kept (s : State) (target : optParam TargetAddr cp2Address) (h0 : s.Kept ql zf) :
    NextKept (execLiftMatch s target) ql zf := by
  unfold execLiftMatch
  repeat' (first
    | with_reducible assumption
    | with_reducible apply State.liftNack_kept
    | with_reducible apply State.liftStart_kept
    | apply nextKept_next
    | with_reducible apply State.Kept.ite
    | (fail_if_no_progress (with_reducible apply State.Kept.upd)))

theorem execLiftReady_kept (s : State) (h0 : s.Kept ql zf) :
    NextKept (execLiftReady s) ql zf := by
  unfold execLiftReady
  repeat' (first
    | with_reducible assumption
    | with_reducible apply State.raise_kept
    | with_reducible apply State.countSat_kept
    | apply nextKept_next
    | with_reducible apply State.Kept.ite
    | (fail_if_no_progress (with_reducible apply State.Kept.upd)))

theorem execLiftTimeout_kept (s : State) (h0 : s.Kept ql zf) :
    NextKept (execLiftTimeout s) ql zf := by
  unfold execLiftTimeout
  repeat' (first
    | with_reducible assumption
    | with_reducible apply State.liftNack_kept
    | apply nextKept_next
    | with_reducible apply State.Kept.ite
    | (fail_if_no_progress (with_reducible apply State.Kept.upd)))

end Sys2Proof.Machine
end

