-- ==== Sys2Proof/Laws/KeptDcp.lean ====
section
/-!
SUPPORT. What commands keep (Kept): frames and responses, the dump, supplies and ticks.
-/
namespace Sys2Proof.Machine

variable {ql : List Instr} {zf : BitVec 512}

theorem State.seal_kept (s : State) (p : Fin 4) (seq fstatus : Nat) (rs : List OpResult) (h0 : s.Kept ql zf) :
    (State.seal s p seq fstatus rs).2.Kept ql zf := by
  unfold State.seal
  repeat' (first | with_reducible assumption | with_reducible apply State.crcRun_kept)

theorem State.sendUncounted_kept (s : State) (p : Fin 4) (r : Response) (h0 : s.Kept ql zf) :
    (State.sendUncounted s p r).Kept ql zf := by
  unfold State.sendUncounted
  repeat' (first
    | with_reducible assumption
    | (intro hq; exact Port.Balanced.same hq rfl rfl rfl rfl)
    | with_reducible apply State.updPort_kept)

theorem State.refuse_kept (s : State) (p : Fin 4) (seq st : Nat) (h0 : s.Kept ql zf) :
    (State.refuse s p seq st).Kept ql zf := by
  unfold State.refuse
  repeat' (first
    | with_reducible assumption
    | with_reducible apply State.countSat_kept
    | with_reducible apply State.seal_kept
    | with_reducible apply State.sendUncounted_kept
    | split)

theorem State.seqOf_kept (s : State) (f : List Byte) (h0 : s.Kept ql zf) :
    (State.seqOf s f).2.Kept ql zf := by
  unfold State.seqOf
  repeat' (first | with_reducible assumption | with_reducible apply State.free_kept | split)

theorem State.refuseRaw_kept (s : State) (p : Fin 4) (f : List Byte) (st : Nat) (h0 : s.Kept ql zf) :
    (State.refuseRaw s p f st).Kept ql zf := by
  unfold State.refuseRaw
  repeat' (first | with_reducible assumption | with_reducible apply State.seqOf_kept | with_reducible apply State.refuse_kept)

theorem State.ackFrame_kept (s : State) (p : Fin 4) (ack : Nat) (h0 : s.Kept ql zf) :
    (State.ackFrame s p ack).Kept ql zf := by
  unfold State.ackFrame
  extract_lets +onlyGivenNames q
  split
  · exact h0
  · extract_lets +onlyGivenNames d
    split
    · next hd =>
      refine State.updRing_kept _ _ _ (State.updPort_kept _ _ _ h0 fun hb => ?_)
      refine ⟨?_, hb.queued⟩
      have := hb.sum
      have hd' : d < s.ports[p].inflight := hd
      dsimp only
      omega
    · exact h0

theorem State.replay_kept (s : State) (p : Fin 4) (h0 : s.Kept ql zf) :
    (State.replay s p).Kept ql zf := by
  unfold State.replay
  repeat' (first
    | with_reducible assumption
    | (intro hq; exact Port.Balanced.same hq rfl rfl rfl rfl)
    | with_reducible apply State.leaseStart_kept
    | with_reducible apply State.countSat_kept
    | with_reducible apply State.sendUncounted_kept
    | with_reducible apply State.updPort_kept
    | split)

theorem State.frameSteps_kept (s : State) (p : Fin 4) (seq : Nat) (body : List Byte) (h0 : s.Kept ql zf) :
    (State.frameSteps s p seq body).Kept ql zf := by
  unfold State.frameSteps
  refine State.Kept.ite (State.replay_kept _ _ h0) ?_
  split
  · exact State.refuse_kept _ _ _ _ h0
  · split
    · exact State.helloAccept_kept _ _ _ _ _ _ h0
    · refine State.Kept.ite (State.refuse_kept _ _ _ _ h0) (State.Kept.ite (State.refuse_kept _ _ _ _ h0) ?_)
      split
      · exact State.refuse_kept _ _ _ _ h0
      · next hz => exact State.acceptFrame_kept _ _ _ _ _ h0 (Nat.pos_of_ne_zero hz)
    · exact h0

theorem State.wholeFrame_kept (s : State) (p : Fin 4) (ver seq ack : Nat) (body : List Byte) (h0 : s.Kept ql zf) :
    (State.wholeFrame s p ver seq ack body).Kept ql zf := by
  unfold State.wholeFrame
  repeat' (first
    | with_reducible assumption
    | with_reducible apply State.refuse_kept
    | with_reducible apply State.frameSteps_kept
    | with_reducible apply State.ackFrame_kept
    | with_reducible apply State.Kept.ite)

theorem State.receive_kept (s : State) (p : Fin 4) (bs : List Byte) (h0 : s.Kept ql zf) :
    (State.receive s p bs).Kept ql zf := by
  unfold State.receive
  repeat' (first
    | with_reducible assumption
    | with_reducible apply State.refuseRaw_kept
    | with_reducible apply State.crcRun_kept
    | with_reducible apply State.wholeFrame_kept
    | with_reducible apply State.Kept.ite)

theorem State.showStatus_kept (s : State) (p : Fin 4) (h0 : s.Kept ql zf) :
    (State.showStatus s p).Kept ql zf := by
  unfold State.showStatus
  repeat' (first | with_reducible assumption | (fail_if_no_progress (with_reducible apply State.Kept.upd)))

theorem State.transfer_kept (s : State) (p : Fin 4) (bs : List Byte) (h0 : s.Kept ql zf) :
    (State.transfer s p bs).Kept ql zf := by
  unfold State.transfer
  repeat' (first
    | with_reducible assumption
    | with_reducible apply State.refuseRaw_kept
    | with_reducible apply State.receive_kept
    | with_reducible apply State.showStatus_kept
    | split)

theorem State.formCounted_kept (s : State) (p : Fin 4) (seq : Nat) (rs : List OpResult) (h0 : s.Kept ql zf)
    (hq : s.ports[p].owing < s.ports[p].queued) : (s.formCounted p seq rs).Kept ql zf := by
  unfold State.formCounted
  extract_lets +onlyGivenNames t1 t2 t3
  have h1 : t1.Kept ql zf := State.ringFrame_kept _ _ (State.updRing_kept _ _ _ h0)
  have e1 : t1.ports = s.ports := State_ringFrame_ports _ _
  clear_value t1
  have h2 : t2.Kept ql zf := by
    refine State.updPort_kept _ _ _ h1 fun hb => ?_
    have := hb.sum
    rw [e1] at this ⊢
    refine ⟨?_, ?_⟩
    · dsimp only
      omega
    · simp only [Port.owing] at hq ⊢
      omega
  clear_value t2
  have h3 : t3.Kept ql zf := by
    show (if t2.ports[p].queued = 0 then t2.leaseAt p t2.ports[p].leaseLeft else t2).Kept ql zf
    split
    · exact State.leaseAt_kept _ _ _ h2
    · exact h2
  clear_value t3
  have h4 := State.seal_kept t3 p seq St.OK rs h3
  generalize t3.seal p seq St.OK rs = z at h4
  obtain ⟨bs, t4⟩ := z
  dsimp -zeta only at h4 ⊢
  extract_lets +onlyGivenNames r t5
  have h5 : t5.Kept ql zf := State.updPort_kept _ _ _ h4 fun hb => Port.Balanced.same hb rfl rfl rfl rfl
  clear_value t5
  split
  · exact State.sendUncounted_kept _ _ _ (State.updPort_kept _ _ _ h5 fun hb => Port.Balanced.same hb rfl rfl rfl rfl)
  · exact h5

theorem State.respond_kept (s : State) (p : Fin 4) (h0 : s.Kept ql zf) :
    (State.respond s p).Kept ql zf := by
  unfold State.respond
  split
  · exact h0
  · next f rest hf =>
    extract_lets +onlyGivenNames rs
    split
    · exact h0
    · extract_lets +onlyGivenNames t
      have hb := h0.credited p
      have hq := hb.queued
      have ht : t.Kept ql zf := by
        refine State.startFrame_kept _ _ (State.updPort_kept _ _ _ h0 fun hb => ⟨hb.sum, ?_⟩)
        simp only [Port.owing, hf] at hq ⊢
        refine Nat.le_trans ?_ hq
        rw [List.filter_cons]
        split <;> simp
      have e1 : t.ports[p].frames = rest ∧ t.ports[p].queued = s.ports[p].queued := by
        show ((s.updPort p _).startFrame p).ports[p].frames = rest ∧ ((s.updPort p _).startFrame p).ports[p].queued = _
        unfold State.startFrame
        rw [State_updPort_at, State_updPort_at]
        split <;> exact ⟨rfl, rfl⟩
      clear_value t
      split
      · exact ht
      · next hv =>
        split
        · exact State.coreGoesOn_kept _ _ (State.sendUncounted_kept _ _ _ (State.seal_kept _ _ _ _ _ (State.sessionClose_kept _ _ ht)))
        · refine State.formCounted_kept _ _ _ _ ht ?_
          rw [Port.owing, e1.1, e1.2]
          simp only [Port.owing, hf] at hq
          rw [List.filter_cons] at hq
          simp only [hv] at hq
          simpa using hq

theorem State.xportSettle_kept (s : State) (p : Fin 4) (r : Response) (h0 : s.Kept ql zf) :
    (State.xportSettle s p r).Kept ql zf := by
  unfold State.xportSettle
  repeat' (first | with_reducible assumption | with_reducible apply State.setXport_kept | split)

theorem State.delivered_kept (s : State) (p : Fin 4) (h0 : s.Kept ql zf) :
    (State.delivered s p).Kept ql zf := by
  unfold State.delivered
  repeat' (first
    | with_reducible assumption
    | (intro hq; exact Port.Balanced.same hq rfl rfl rfl rfl)
    | (dsimp only)
    | with_reducible apply State.showStatus_kept
    | with_reducible apply State.xportSettle_kept
    | with_reducible apply State.updPort_kept
    | with_reducible apply State.coreGoesOn_kept
    | split)

theorem execCommandFrame_kept (p : Fin 4) (bytes : List Byte) (s : State) (target : optParam TargetAddr cp2Address) (h2 : s.Kept ql zf) :
    NextKept (execCommandFrame p bytes s target) ql zf := by
  unfold execCommandFrame
  repeat' (first
    | with_reducible assumption
    | with_reducible apply State.pump_kept
    | with_reducible apply State.transfer_kept
    | apply nextKept_next
    | with_reducible apply State.Kept.ite)

theorem execUartOverlength_kept (s : State) (h0 : s.Kept ql zf) :
    NextKept (execUartOverlength s) ql zf := by
  unfold execUartOverlength
  repeat' (first
    | with_reducible assumption
    | with_reducible apply State.refuseRaw_kept
    | apply nextKept_next
    | with_reducible apply State.Kept.ite)

theorem execResponseFormed_kept (p : Fin 4) (s : State) (h1 : s.Kept ql zf) :
    NextKept (execResponseFormed p s) ql zf := by
  unfold execResponseFormed
  repeat' (first
    | with_reducible assumption
    | with_reducible apply State.pump_kept
    | with_reducible apply State.respond_kept
    | apply nextKept_next
    | with_reducible apply State.Kept.ite)

theorem execResponseDelivered_kept (p : Fin 4) (s : State) (target : optParam TargetAddr cp2Address) (h1 : s.Kept ql zf) :
    NextKept (execResponseDelivered p s target) ql zf := by
  unfold execResponseDelivered
  repeat' (first
    | with_reducible assumption
    | with_reducible apply State.pump_kept
    | with_reducible apply State.delivered_kept
    | apply nextKept_next
    | with_reducible apply State.Kept.ite)

theorem execHello_kept (p : Fin 4) (seq : BitVec 16) (leaseMs hostId : Word) (s : State) (h4 : s.Kept ql zf) :
    NextKept (execHello p seq leaseMs hostId s) ql zf := by
  unfold execHello
  repeat' (first
    | with_reducible assumption
    | with_reducible apply State.pump_kept
    | with_reducible apply State.helloAccept_kept
    | apply nextKept_next
    | with_reducible apply State.Kept.ite)

theorem execLeaseWarning_kept (p : Fin 4) (s : State) (h1 : s.Kept ql zf) :
    NextKept (execLeaseWarning p s) ql zf := by
  unfold execLeaseWarning
  repeat' (first
    | with_reducible assumption
    | (intro hq; exact Port.Balanced.same hq rfl rfl rfl rfl)
    | with_reducible apply State.updPort_kept
    | with_reducible apply State.leaseAt_kept
    | apply nextKept_next
    | with_reducible apply State.Kept.ite)

theorem execLeaseExpiry_kept (p : Fin 4) (s : State) (h1 : s.Kept ql zf) :
    NextKept (execLeaseExpiry p s) ql zf := by
  unfold execLeaseExpiry
  repeat' (first
    | with_reducible assumption
    | with_reducible apply State.pump_kept
    | with_reducible apply State.sessionExpire_kept
    | apply nextKept_next
    | with_reducible apply State.Kept.ite)

theorem execGraceEnd_kept (p : Fin 4) (s : State) (h1 : s.Kept ql zf) :
    NextKept (execGraceEnd p s) ql zf := by
  unfold execGraceEnd
  repeat' (first
    | with_reducible assumption
    | with_reducible apply State.pump_kept
    | with_reducible apply State.graceEnd_kept
    | apply nextKept_next
    | with_reducible apply State.Kept.ite)

theorem execImageCheckDone_kept (s : State) (h0 : s.Kept ql zf) :
    NextKept (execImageCheckDone s) ql zf := by
  unfold execImageCheckDone
  repeat' (first
    | with_reducible assumption
    | with_reducible apply State.checkEnd_kept
    | with_reducible apply State.pump_kept
    | with_reducible apply State.waitOver_kept
    | apply nextKept_next
    | split)

theorem State.dumpBegin_kept (s : State) (reason : Nat) (h0 : s.Kept ql zf) :
    (State.dumpBegin s reason).Kept ql zf := by
  unfold State.dumpBegin
  repeat' (first
    | with_reducible assumption
    | with_reducible apply State.freeBytes_kept
    | with_reducible apply State.setFld_kept
    | with_reducible apply State.setBytes_kept)

theorem State.fatal_kept (s : State) (reason : Nat) (h0 : s.Kept ql zf) :
    (State.fatal s reason).Kept ql zf := by
  unfold State.fatal
  repeat' (first
    | with_reducible assumption
    | with_reducible apply State.dumpBegin_kept
    | with_reducible apply State.countSat_kept
    | with_reducible apply State.svcGone_kept
    | with_reducible apply State.raise_kept
    | with_reducible apply State.setMode_kept
    | with_reducible apply State.Kept.ite)

theorem State.dumpFinish_kept (s : State) (h0 : s.Kept ql zf) :
    (State.dumpFinish s).Kept ql zf := by
  unfold State.dumpFinish
  repeat' (first
    | with_reducible assumption
    | with_reducible apply State.freeBytes_kept
    | with_reducible apply State.crcRun_kept
    | with_reducible apply State.setBytes_kept
    | with_reducible apply State.raise_kept
    | with_reducible apply State.setFld_kept)

theorem State.dumpChunk_kept (s : State) (off : Nat) (h0 : s.Kept ql zf) :
    (State.dumpChunk s off).Kept ql zf := by
  unfold State.dumpChunk
  repeat' (first
    | with_reducible assumption
    | with_reducible apply State.freeBytes_kept
    | with_reducible apply State.ringPut_kept
    | with_reducible apply State.raise_kept
    | with_reducible apply State.Kept.ite
    | (fail_if_no_progress (with_reducible apply State.Kept.upd)))

theorem execSvcFatalError_kept (reason : Byte) (s : State) (h1 : s.Kept ql zf) :
    NextKept (execSvcFatalError reason s) ql zf := by
  unfold execSvcFatalError
  repeat' (first | with_reducible assumption | with_reducible apply State.fatal_kept | apply nextKept_next)

theorem execSvcHeartbeatTimeout_kept (s : State) (h0 : s.Kept ql zf) :
    NextKept (execSvcHeartbeatTimeout s) ql zf := by
  unfold execSvcHeartbeatTimeout
  repeat' (first | with_reducible assumption | with_reducible apply State.fatal_kept | apply nextKept_next)

theorem execDumpWritten_kept (s : State) (h0 : s.Kept ql zf) :
    NextKept (execDumpWritten s) ql zf := by
  unfold execDumpWritten
  repeat' (first
    | with_reducible assumption
    | with_reducible apply State.dumpFinish_kept
    | apply nextKept_next
    | with_reducible apply State.Kept.ite)

theorem execDumpRelease_kept (s : State) (h0 : s.Kept ql zf) :
    NextKept (execDumpRelease s) ql zf := by
  unfold execDumpRelease
  repeat' (first
    | with_reducible assumption
    | with_reducible apply State.dumpRelease_kept
    | apply nextKept_next
    | with_reducible apply State.Kept.ite)

theorem execDumpChunk_kept (s : State) (h0 : s.Kept ql zf) :
    NextKept (execDumpChunk s) ql zf := by
  unfold execDumpChunk
  repeat' (first
    | with_reducible assumption
    | with_reducible apply State.dumpChunk_kept
    | apply nextKept_next
    | with_reducible apply State.Kept.ite
    | split)

theorem execImageLoadOpen_kept (p kind : Fin 4) (s : State) (h2 : s.Kept ql zf) :
    NextKept (execImageLoadOpen p kind s) ql zf := by
  unfold execImageLoadOpen
  repeat' (first
    | with_reducible assumption
    | (intro hq; exact Port.Balanced.same hq rfl rfl rfl rfl)
    | (dsimp only)
    | (intro _)
    | with_reducible apply State.directWrite_kept
    | with_reducible apply State.loadCtrlWrite_kept
    | apply nextKept_next
    | with_reducible apply State.Kept.foldl
    | (refine State.Kept.of_snd (by assumption) ?_)
    | (refine State.Kept.of_snd2 (by assumption) ?_)
    | (refine State.Kept.of_snd3 (by assumption) ?_)
    | (refine State.Kept.of_mid (by assumption) ?_)
    | with_reducible apply State.Kept.ite
    | split
    | (fail_if_no_progress (with_reducible apply State.Kept.upd)))

theorem execImageWindowWrite_kept (p : Fin 4) (off : Fin 512) (v : Word) (s : State) (h3 : s.Kept ql zf) :
    NextKept (execImageWindowWrite p off v s) ql zf := by
  unfold execImageWindowWrite
  repeat' (first
    | with_reducible assumption
    | (intro hq; exact Port.Balanced.same hq rfl rfl rfl rfl)
    | (dsimp only)
    | (intro _)
    | with_reducible apply State.directWrite_kept
    | with_reducible apply State.windowWrite_kept
    | apply nextKept_next
    | with_reducible apply State.Kept.foldl
    | (refine State.Kept.of_snd (by assumption) ?_)
    | (refine State.Kept.of_snd2 (by assumption) ?_)
    | (refine State.Kept.of_snd3 (by assumption) ?_)
    | (refine State.Kept.of_mid (by assumption) ?_)
    | with_reducible apply State.Kept.ite
    | split
    | (fail_if_no_progress (with_reducible apply State.Kept.upd)))

theorem execImageCheck_kept (p : Fin 4) (s : State) (h1 : s.Kept ql zf) :
    NextKept (execImageCheck p s) ql zf := by
  unfold execImageCheck
  repeat' (first
    | with_reducible assumption
    | (intro hq; exact Port.Balanced.same hq rfl rfl rfl rfl)
    | (dsimp only)
    | (intro _)
    | with_reducible apply State.directWrite_kept
    | with_reducible apply State.loadCtrlWrite_kept
    | apply nextKept_next
    | with_reducible apply State.Kept.foldl
    | (refine State.Kept.of_snd (by assumption) ?_)
    | (refine State.Kept.of_snd2 (by assumption) ?_)
    | (refine State.Kept.of_snd3 (by assumption) ?_)
    | (refine State.Kept.of_mid (by assumption) ?_)
    | with_reducible apply State.Kept.ite
    | split
    | (fail_if_no_progress (with_reducible apply State.Kept.upd)))

theorem execImageStart_kept (p : Fin 4) (s : State) (h1 : s.Kept ql zf) :
    NextKept (execImageStart p s) ql zf := by
  unfold execImageStart
  repeat' (first
    | with_reducible assumption
    | (intro hq; exact Port.Balanced.same hq rfl rfl rfl rfl)
    | (dsimp only)
    | (intro _)
    | with_reducible apply State.directWrite_kept
    | with_reducible apply State.loadCtrlWrite_kept
    | apply nextKept_next
    | with_reducible apply State.Kept.foldl
    | (refine State.Kept.of_snd (by assumption) ?_)
    | (refine State.Kept.of_snd2 (by assumption) ?_)
    | (refine State.Kept.of_snd3 (by assumption) ?_)
    | (refine State.Kept.of_mid (by assumption) ?_)
    | with_reducible apply State.Kept.ite
    | split
    | (fail_if_no_progress (with_reducible apply State.Kept.upd)))

theorem execImageLoadAbort_kept (p : Fin 4) (s : State) (h1 : s.Kept ql zf) :
    NextKept (execImageLoadAbort p s) ql zf := by
  unfold execImageLoadAbort
  repeat' (first
    | with_reducible assumption
    | (intro hq; exact Port.Balanced.same hq rfl rfl rfl rfl)
    | (dsimp only)
    | (intro _)
    | with_reducible apply State.directWrite_kept
    | with_reducible apply State.pump_kept
    | with_reducible apply State.loadCtrlWrite_kept
    | apply nextKept_next
    | with_reducible apply State.Kept.foldl
    | (refine State.Kept.of_snd (by assumption) ?_)
    | (refine State.Kept.of_snd2 (by assumption) ?_)
    | (refine State.Kept.of_snd3 (by assumption) ?_)
    | (refine State.Kept.of_mid (by assumption) ?_)
    | with_reducible apply State.Kept.ite
    | split
    | (fail_if_no_progress (with_reducible apply State.Kept.upd)))

theorem execFuseProg_kept (p : Fin 4) (v : Word) (s : State) (h2 : s.Kept ql zf) :
    NextKept (execFuseProg p v s) ql zf := by
  unfold execFuseProg
  repeat' (first
    | with_reducible assumption
    | (intro hq; exact Port.Balanced.same hq rfl rfl rfl rfl)
    | (dsimp only)
    | (intro _)
    | with_reducible apply State.directWrite_kept
    | with_reducible apply State.fuseProg_kept
    | apply nextKept_next
    | with_reducible apply State.Kept.foldl
    | (refine State.Kept.of_snd (by assumption) ?_)
    | (refine State.Kept.of_snd2 (by assumption) ?_)
    | (refine State.Kept.of_snd3 (by assumption) ?_)
    | (refine State.Kept.of_mid (by assumption) ?_)
    | with_reducible apply State.Kept.ite
    | split
    | (fail_if_no_progress (with_reducible apply State.Kept.upd)))

theorem execPdmTestWrite_kept (p : Fin 4) (on : Bool) (s : State) (h2 : s.Kept ql zf) :
    NextKept (execPdmTestWrite p on s) ql zf := by
  unfold execPdmTestWrite
  repeat' (first
    | with_reducible assumption
    | (intro hq; exact Port.Balanced.same hq rfl rfl rfl rfl)
    | (dsimp only)
    | (intro _)
    | with_reducible apply State.directWrite_kept
    | with_reducible apply State.pdmTest_kept
    | apply nextKept_next
    | with_reducible apply State.Kept.foldl
    | (refine State.Kept.of_snd (by assumption) ?_)
    | (refine State.Kept.of_snd2 (by assumption) ?_)
    | (refine State.Kept.of_snd3 (by assumption) ?_)
    | (refine State.Kept.of_mid (by assumption) ?_)
    | with_reducible apply State.Kept.ite
    | split
    | (fail_if_no_progress (with_reducible apply State.Kept.upd)))

theorem execPadRelease_kept (p : Fin 4) (v : Word) (s : State) (h2 : s.Kept ql zf) :
    NextKept (execPadRelease p v s) ql zf := by
  unfold execPadRelease
  repeat' (first
    | with_reducible assumption
    | (intro hq; exact Port.Balanced.same hq rfl rfl rfl rfl)
    | (dsimp only)
    | (intro _)
    | with_reducible apply State.directWrite_kept
    | with_reducible apply State.padRelease_kept
    | apply nextKept_next
    | with_reducible apply State.Kept.foldl
    | (refine State.Kept.of_snd (by assumption) ?_)
    | (refine State.Kept.of_snd2 (by assumption) ?_)
    | (refine State.Kept.of_snd3 (by assumption) ?_)
    | (refine State.Kept.of_mid (by assumption) ?_)
    | with_reducible apply State.Kept.ite
    | split
    | (fail_if_no_progress (with_reducible apply State.Kept.upd)))

theorem execDumpStream_kept (p : Fin 4) (s : State) (h1 : s.Kept ql zf) :
    NextKept (execDumpStream p s) ql zf := by
  unfold execDumpStream
  repeat' (first
    | with_reducible assumption
    | with_reducible apply State.directWrite_kept
    | with_reducible apply State.dumpStream_kept
    | apply nextKept_next)

theorem execFabricRun_kept (p : Fin 4) (piste : Bool) (s : State) (h2 : s.Kept ql zf) :
    NextKept (execFabricRun p piste s) ql zf := by
  unfold execFabricRun
  repeat' (first
    | with_reducible assumption
    | (intro _)
    | with_reducible apply State.directWrite_kept
    | with_reducible apply State.fabCtrlWrite_kept
    | apply nextKept_next)

theorem execFabricStop_kept (p : Fin 4) (s : State) (h1 : s.Kept ql zf) :
    NextKept (execFabricStop p s) ql zf := by
  unfold execFabricStop
  repeat' (first
    | with_reducible assumption
    | (intro _)
    | with_reducible apply State.directWrite_kept
    | with_reducible apply State.fabCtrlWrite_kept
    | apply nextKept_next)

theorem execPisteCopy_kept (p : Fin 4) (s : State) (h1 : s.Kept ql zf) :
    NextKept (execPisteCopy p s) ql zf := by
  unfold execPisteCopy
  repeat' (first
    | with_reducible assumption
    | with_reducible apply State.directWrite_kept
    | with_reducible apply State.copyStart_kept
    | apply nextKept_next)

theorem execAdmissionCheck_kept (p : Fin 4) (s : State) (h1 : s.Kept ql zf) :
    NextKept (execAdmissionCheck p s) ql zf := by
  unfold execAdmissionCheck
  repeat' (first
    | with_reducible assumption
    | with_reducible apply State.directWrite_kept
    | with_reducible apply State.checkStart_kept
    | apply nextKept_next)

theorem execParamWrite_kept (p : Fin 4) (addr v : Word) (s : State) (h3 : s.Kept ql zf) :
    NextKept (execParamWrite p addr v s) ql zf := by
  unfold execParamWrite
  repeat' (first
    | with_reducible assumption
    | (intro _)
    | with_reducible apply State.directWriteAt_kept
    | with_reducible apply State.paramWrite_kept
    | apply nextKept_next
    | split)

theorem execPisteWrite_kept (p : Fin 4) (addr v : Word) (s : State) (h3 : s.Kept ql zf) :
    NextKept (execPisteWrite p addr v s) ql zf := by
  unfold execPisteWrite
  repeat' (first
    | with_reducible assumption
    | with_reducible apply State.writeNow_kept
    | with_reducible apply State.logAccess_kept
    | with_reducible apply State.setMemWord_kept
    | apply nextKept_next
    | with_reducible apply State.Kept.ite)

theorem execUrgentStart_kept (p : Fin 4) (v : Word) (s : State) (h2 : s.Kept ql zf) :
    NextKept (execUrgentStart p v s) ql zf := by
  unfold execUrgentStart
  repeat' (first
    | with_reducible assumption
    | (intro _)
    | with_reducible apply State.directWrite_kept
    | with_reducible apply State.urgentWrite_kept
    | apply nextKept_next)

theorem execTdacHostRequest_kept (p : Fin 4) (s : State) (h1 : s.Kept ql zf) :
    NextKept (execTdacHostRequest p s) ql zf := by
  unfold execTdacHostRequest
  repeat' (first
    | with_reducible assumption
    | (intro _)
    | with_reducible apply State.directWrite_kept
    | with_reducible apply State.tdacRequest_kept
    | apply nextKept_next)

theorem execTdacHostRelease_kept (p : Fin 4) (s : State) (h1 : s.Kept ql zf) :
    NextKept (execTdacHostRelease p s) ql zf := by
  unfold execTdacHostRelease
  repeat' (first
    | with_reducible assumption
    | (intro _)
    | with_reducible apply State.directWrite_kept
    | with_reducible apply State.tdacGiveUp_kept
    | apply nextKept_next)

theorem execTdacRoute_kept (p : Fin 4) (v : Word) (s : State) (h2 : s.Kept ql zf) :
    NextKept (execTdacRoute p v s) ql zf := by
  unfold execTdacRoute
  repeat' (first
    | with_reducible assumption
    | (intro _)
    | with_reducible apply State.directWrite_kept
    | with_reducible apply State.tdacRouteWrite_kept
    | apply nextKept_next)

theorem execTdacCode_kept (p : Fin 4) (v : Word) (s : State) (h2 : s.Kept ql zf) :
    NextKept (execTdacCode p v s) ql zf := by
  unfold execTdacCode
  repeat' (first
    | with_reducible assumption
    | (intro _)
    | with_reducible apply State.directWrite_kept
    | with_reducible apply State.tdacCodeWrite_kept
    | apply nextKept_next)

theorem execRingConfigWrite_kept (p : Fin 4) (r : Fin 32) (v : Word) (s : State) (h3 : s.Kept ql zf) :
    NextKept (execRingConfigWrite p r v s) ql zf := by
  unfold execRingConfigWrite
  repeat' (first
    | with_reducible assumption
    | (intro _)
    | with_reducible apply State.directWrite_kept
    | with_reducible apply State.ringCfgWrite_kept
    | apply nextKept_next
    | with_reducible apply State.Kept.ite)

theorem execRingIndexWrite_kept (p : Fin 4) (r : Fin 32) (producer : Bool) (v : Word) (s : State) (h4 : s.Kept ql zf) :
    NextKept (execRingIndexWrite p r producer v s) ql zf := by
  unfold execRingIndexWrite
  repeat' (first
    | with_reducible assumption
    | (intro _)
    | with_reducible apply State.directWrite_kept
    | with_reducible apply State.ringIndexWrite_kept
    | apply nextKept_next
    | with_reducible apply State.Kept.ite)

theorem execEvtForceWrite_kept (p : Fin 4) (page : Fin 108) (v : Word) (s : State) (h3 : s.Kept ql zf) :
    NextKept (execEvtForceWrite p page v s) ql zf := by
  unfold execEvtForceWrite
  repeat' (first
    | with_reducible assumption
    | (intro _)
    | with_reducible apply State.directWrite_kept
    | with_reducible apply State.evtForce_kept
    | apply nextKept_next
    | with_reducible apply State.Kept.ite)

theorem execEvtEnableWrite_kept (p : Fin 4) (page : Fin 108) (v : Word) (s : State) (h3 : s.Kept ql zf) :
    NextKept (execEvtEnableWrite p page v s) ql zf := by
  unfold execEvtEnableWrite
  repeat' (first
    | with_reducible assumption
    | (intro _)
    | with_reducible apply State.directWrite_kept
    | with_reducible apply State.evtEnable_kept
    | apply nextKept_next
    | with_reducible apply State.Kept.ite)

theorem State.vioSelect_kept (s : State) (mv : Nat) (h0 : s.Kept ql zf) :
    (State.vioSelect s mv).Kept ql zf := by
  unfold State.vioSelect
  repeat' (first
    | with_reducible assumption
    | with_reducible apply State.free_kept
    | with_reducible apply State.Kept.ite
    | (fail_if_no_progress (with_reducible apply State.Kept.upd)))

theorem execVioSelect_kept (mv : Nat) (s : State) (h1 : s.Kept ql zf) :
    NextKept (execVioSelect mv s) ql zf := by
  unfold execVioSelect
  repeat' (first
    | with_reducible assumption
    | with_reducible apply State.vioSelect_kept
    | apply nextKept_next
    | with_reducible apply State.Kept.ite)

theorem execVioDrop_kept (s : State) (h0 : s.Kept ql zf) :
    NextKept (execVioDrop s) ql zf := by
  unfold execVioDrop
  repeat' (first
    | with_reducible assumption
    | apply nextKept_next
    | with_reducible apply State.Kept.ite
    | (fail_if_no_progress (with_reducible apply State.Kept.upd)))

theorem execVioRestored_kept (s : State) (h0 : s.Kept ql zf) :
    NextKept (execVioRestored s) ql zf := by
  unfold execVioRestored
  repeat' (first
    | with_reducible assumption
    | apply nextKept_next
    | with_reducible apply State.Kept.ite
    | (fail_if_no_progress (with_reducible apply State.Kept.upd)))

theorem execEsdDischarge_kept (s : State) (pin : optParam EsdPin (EsdPin.mic 0)) (h0 : s.Kept ql zf) :
    NextKept (execEsdDischarge s pin) ql zf := by
  unfold execEsdDischarge
  repeat' (first
    | with_reducible assumption
    | apply nextKept_next
    | (fail_if_no_progress (with_reducible apply State.Kept.upd)))

theorem State.disturbIn_kept (s : State) (h0 : s.Kept ql zf) :
    (State.disturbIn s).Kept ql zf := by
  unfold State.disturbIn
  repeat' (first
    | with_reducible assumption
    | with_reducible apply State.Kept.ite
    | (fail_if_no_progress (with_reducible apply State.Kept.upd)))

theorem State.disturbOut_kept (s : State) (h0 : s.Kept ql zf) :
    (State.disturbOut s).Kept ql zf := by
  unfold State.disturbOut
  repeat' (first
    | with_reducible assumption
    | with_reducible apply State.Kept.ite
    | (fail_if_no_progress (with_reducible apply State.Kept.upd)))

theorem State.linesIn_kept (s : State) (h0 : s.Kept ql zf) :
    (State.linesIn s).Kept ql zf := by
  unfold State.linesIn
  repeat' (first
    | with_reducible assumption
    | (intro _)
    | with_reducible apply State.tickInput_kept
    | with_reducible apply State.putSrc_kept
    | with_reducible apply State.lockReady_kept
    | with_reducible apply State.readyInput_kept
    | with_reducible apply State.Kept.foldl
    | with_reducible apply State.Kept.ite)

theorem State.linesOut_kept (s : State) (h0 : s.Kept ql zf) :
    (State.linesOut s).Kept ql zf := by
  unfold State.linesOut
  repeat' (first
    | with_reducible assumption
    | (intro _)
    | with_reducible apply State.tickOutput_kept
    | with_reducible apply State.Kept.foldl
    | with_reducible apply State.Kept.ite)

theorem State.portsEnd_kept (s : State) (h0 : s.Kept ql zf) :
    (State.portsEnd s).Kept ql zf := by
  unfold State.portsEnd
  repeat' (first
    | with_reducible assumption
    | (intro hq; exact Port.Balanced.same hq rfl rfl rfl rfl)
    | (dsimp only)
    | (intro _)
    | with_reducible apply State.portEnd_kept
    | with_reducible apply State.Kept.foldl
    | (refine State.Kept.of_snd (by assumption) ?_)
    | (refine State.Kept.of_snd2 (by assumption) ?_)
    | (refine State.Kept.of_snd3 (by assumption) ?_)
    | (refine State.Kept.of_mid (by assumption) ?_)
    | with_reducible apply State.Kept.ite
    | split
    | (fail_if_no_progress (with_reducible apply State.Kept.upd)))

theorem State.convertersTick_kept (s : State) (dev : List (Fin 64)) (h0 : s.Kept ql zf) :
    (State.convertersTick s dev).Kept ql zf := by
  unfold State.convertersTick
  repeat' (first
    | with_reducible assumption
    | (intro hq; exact Port.Balanced.same hq rfl rfl rfl rfl)
    | (dsimp only)
    | (intro _)
    | with_reducible apply State.asrcTick_kept
    | with_reducible apply State.asrcRelock_kept
    | with_reducible apply State.Kept.foldl
    | (refine State.Kept.of_snd (by assumption) ?_)
    | (refine State.Kept.of_snd2 (by assumption) ?_)
    | (refine State.Kept.of_snd3 (by assumption) ?_)
    | (refine State.Kept.of_mid (by assumption) ?_)
    | with_reducible apply State.Kept.ite
    | split
    | (fail_if_no_progress (with_reducible apply State.Kept.upd)))

theorem State.ainsTick_kept (s : State) (v : Vector AinIn 16) (h0 : s.Kept ql zf) :
    (State.ainsTick s v).Kept ql zf := by
  unfold State.ainsTick
  repeat' (first
    | with_reducible assumption
    | (intro _)
    | with_reducible apply State.ainTick_kept
    | with_reducible apply State.Kept.foldl)

theorem State.tickCount_kept (s : State) (h0 : s.Kept ql zf) :
    (State.tickCount s).Kept ql zf := by
  unfold State.tickCount
  repeat' (first
    | with_reducible assumption
    | with_reducible apply State.Kept.ite
    | (fail_if_no_progress (with_reducible apply State.Kept.upd)))

theorem State.tickBegin_kept (s : State) (h0 : s.Kept ql zf) :
    (State.tickBegin s).Kept ql zf := by
  unfold State.tickBegin
  repeat' (first
    | with_reducible assumption
    | with_reducible apply State.endBootPhase_kept
    | with_reducible apply State.fabFirst_kept
    | with_reducible apply State.flushParams_kept
    | with_reducible apply State.tickCount_kept
    | with_reducible apply State.stopDue_kept
    | with_reducible apply State.Kept.ite
    | (fail_if_no_progress (with_reducible apply State.Kept.upd)))

theorem State.tickFabric_kept (s : State) (gate : Option GateMiss) (h0 : s.Kept ql zf) :
    (State.tickFabric s gate).Kept ql zf := by
  unfold State.tickFabric
  repeat' (first
    | with_reducible assumption
    | with_reducible apply State.capture_kept
    | with_reducible apply State.fabTick_kept
    | with_reducible apply State.inject_kept
    | with_reducible apply State.Kept.ite
    | (fail_if_no_progress (with_reducible apply State.Kept.upd)))

theorem State.tickClear_kept (s : State) (h0 : s.Kept ql zf) :
    (State.tickClear s).Kept ql zf := by
  unfold State.tickClear
  repeat' (first
    | with_reducible assumption
    | with_reducible apply State.bookNow_kept
    | (fail_if_no_progress (with_reducible apply State.Kept.upd)))

theorem State.tickClocks_kept (s : State) (edges : List (Fin 43)) (averages : List (Fin 43 × Int)) (h0 : s.Kept ql zf) :
    (State.tickClocks s edges averages).Kept ql zf := by
  unfold State.tickClocks
  repeat' (first
    | with_reducible assumption
    | (intro hq; exact Port.Balanced.same hq rfl rfl rfl rfl)
    | (dsimp only)
    | (intro _)
    | with_reducible apply State.slewOn_kept
    | with_reducible apply State.monMeasure_kept
    | with_reducible apply State.monEdge_kept
    | with_reducible apply State.Kept.foldl
    | (refine State.Kept.of_snd (by assumption) ?_)
    | (refine State.Kept.of_snd2 (by assumption) ?_)
    | (refine State.Kept.of_snd3 (by assumption) ?_)
    | (refine State.Kept.of_mid (by assumption) ?_)
    | with_reducible apply State.Kept.ite
    | split
    | (fail_if_no_progress (with_reducible apply State.Kept.upd)))

theorem State.tickAll_kept (s : State) (i : TickIn) (h0 : s.Kept ql zf) :
    (State.tickAll s i).Kept ql zf := by
  unfold State.tickAll
  repeat' (first
    | with_reducible assumption
    | (intro hq; exact Port.Balanced.same hq rfl rfl rfl rfl)
    | (dsimp only)
    | (intro _)
    | with_reducible apply State.inOneCycle_kept
    | with_reducible apply State.tickFabric_kept
    | with_reducible apply State.disturbIn_kept
    | with_reducible apply State.ainsTick_kept
    | with_reducible apply State.convertersTick_kept
    | with_reducible apply State.linesIn_kept
    | with_reducible apply State.phAdmits_kept
    | with_reducible apply State.tickBegin_kept
    | with_reducible apply State.tickClocks_kept
    | with_reducible apply State.tickEnd_kept
    | with_reducible apply State.tickClear_kept
    | with_reducible apply State.disturbOut_kept
    | with_reducible apply State.ampsTick_kept
    | with_reducible apply State.outsTick_kept
    | with_reducible apply State.schussTick_kept
    | with_reducible apply State.portsEnd_kept
    | with_reducible apply State.linesOut_kept
    | with_reducible apply State.Kept.foldl
    | (refine State.Kept.of_snd (by assumption) ?_)
    | (refine State.Kept.of_snd2 (by assumption) ?_)
    | (refine State.Kept.of_snd3 (by assumption) ?_)
    | (refine State.Kept.of_mid (by assumption) ?_)
    | with_reducible apply State.Kept.ite
    | split
    | (fail_if_no_progress (with_reducible apply State.Kept.upd)))

theorem execTick_kept (i : TickIn) (s : State) (h1 : s.Kept ql zf) :
    NextKept (execTick i s) ql zf := by
  unfold execTick
  repeat' (first
    | with_reducible assumption
    | with_reducible apply State.tickAll_kept
    | apply nextKept_next
    | with_reducible apply State.Kept.ite)

theorem execFabricFirstTick_kept (i : TickIn) (s : State) (h1 : s.Kept ql zf) :
    NextKept (execFabricFirstTick i s) ql zf := by
  unfold execFabricFirstTick
  repeat' (first
    | with_reducible assumption
    | with_reducible apply State.tickAll_kept
    | apply nextKept_next
    | with_reducible apply State.Kept.ite)

end Sys2Proof.Machine
end

