-- ==== Sys2Proof/WellFormed.lean ====
section
/-!
DEFINITION. Well-formed commands: the operands that the spec's ranges allow, where their types do not say so already.
-/
namespace Sys2Proof

/-- A deviation in ppm that a monitor can report in its signed field of 16 bits (02_clocks_and_time.md Table 2.9). -/
def ppmOk (ppm : Int) : Bool := decide (-32768 ≤ ppm) && decide (ppm ≤ 32767)

/-- A deviation within the band of a nominal rate (R33, R34). -/
def bandOk (ppm : Int) : Bool := decide (-10000 ≤ ppm) && decide (ppm ≤ 10000)

/-- A reading of the housekeeping converter: a 24-bit value (11_housekeeping_converter.md R264). -/
def readingOk (v : Int) : Bool := decide (-0x800000 ≤ v) && decide (v ≤ 0x7FFFFF)

/-- What an input delivers: an envelope of at most full scale. -/
def AinIn.wf (i : AinIn) : Bool := i.env ≤ 0x80000000

/-- What a PDM microphone input gives: at most every bit of the millisecond is one (17_boot_images_recovery.md R394). -/
def PdmIn.wf (p : PdmIn) : Bool := p.ones.toNat ≤ 3072

/-- A gate miss names at least one sink or generator, each in its name space (07_fabric_schedule.md R188). -/
def GateMiss.wf (m : GateMiss) : Bool :=
  (!m.sinks.isEmpty || !m.gens.isEmpty) && m.sinks.all (fun x => x < 0x130) && m.gens.all (fun x => x < 16)

/-- The inputs of a tick. -/
def TickIn.wf (i : TickIn) : Bool :=
  i.ain.all AinIn.wf && i.pdm.all PdmIn.wf && i.linkLost.all (fun n => n < 4)
    && (match i.gate with
      | some m => m.wf
      | none => true)

/-- A mean period of mains from 40 Hz to 70 Hz, in µs (11_housekeeping_converter.md R269). -/
def mainsOk (us : Nat) : Bool := decide (14286 ≤ us) && decide (us ≤ 25000)

/-- A level of VIO_EXT that the board may hold when VIO is selected (19_electrical_and_package.md R414). -/
def vioOk (mv : Nat) : Bool := (mv < 300 || (500 ≤ mv && mv ≤ 1300) || 1500 ≤ mv) && mv ≤ 3960

/-- The bytes that one transfer carries: on CP3 a line up to its delimiter, of at most 1,041 bytes (14_control_ports.md R329). -/
def transferOk (p : Fin 4) (bs : List Byte) : Bool := p != 3 || (!bs.isEmpty && bs.length ≤ 1041 && !bs.contains 0)

/-- An address of a word. -/
def wordAddr (a : Word) : Bool := a.toNat % 4 == 0

/-- An address of a word in a range. -/
def addrIn (a : Word) (lo hi : Nat) : Bool := wordAddr a && decide (lo ≤ a.toNat) && decide (a.toNat < hi)

/-- A defined page (18_register_pages.md Table 18.1). -/
def pageOk (p : Nat) : Bool :=
  p ≤ 0x018 || (0x020 ≤ p && p ≤ 0x04F) || (0x050 ≤ p && p ≤ 0x063) || (0x068 ≤ p && p ≤ 0x06B)

/-- Whether a command is well formed. -/
def Instr.wf : Instr → Bool
  | .tick i | .fabricFirstTick i => i.wf
  | .monGlitch _ gap => 0 < gap
  | .monRateChange _ _ ppm | .monPresent _ _ ppm => bandOk ppm
  | .refUnusable ppm | .refUsable ppm => ppmOk ppm
  | .sagSample raw => readingOk raw
  | .mainsMeasurementValid us => mainsOk us.toNat
  | .fixedScan r => r.v.all readingOk
  | .conversionDone _ v | .integrationDone v => readingOk v.v || v.ovr
  | .pisteWrite _ a _ => addrIn a 0x50000000 0x50040000
  | .paramWrite _ a _ | .objectWrite a _ | .objectReset a => addrIn a 0x50040000 0x50060000
  | .powerChange _ ws => !ws.isEmpty && decide ((ws.map (·.1)).Nodup)
  | .lpBrownout lost => decide (lost.Nodup)
  | .vioSelect mv => vioOk mv
  | .commandFrame p bs _ => transferOk p bs
  | .rd _ a n => wordAddr a && n.toNat % 4 == 0 && 0 < n.toNat
  | .wr _ a _ bs => wordAddr a && bs.length % 4 == 0 && !bs.isEmpty && bs.length ≤ 1012
  | .rmw _ a _ _ _ => wordAddr a
  | .txnCommit _ _ mode _ => mode.toNat ≤ 2
  | .ringPush _ _ bs => bs.length ≤ 1016
  | .timedValidation bib | .txnApply bib => bib != 0
  | .evtForceWrite _ g _ | .evtEnableWrite _ g _ => pageOk g
  | .imageLoadOpen _ kind => kind == 1 || kind == 2
  | .svcFatalError reason => reason == 1 || reason == 3
  | .registerWrite _ a _ => addrIn a 0x40000000 0x4006C000
  | _ => true

end Sys2Proof
end

