-- ==== Sys2Proof/Tests/Slice0.lean ====
section
/-!
SUPPORT. Tests: ill-formed commands that the check refuses, worked examples of the manual, and for every statement of
Certificates/Slice0/Obligations.lean that has hypotheses a state and operands that meet them, clause by clause.
-/
namespace Sys2Proof.Machine

-- one kernel check after the other: each decision below is a kernel evaluation of its own
set_option Elab.async false

/-! ## Ill-formed commands -/

/-- An input that delivers an envelope, and a tick of such inputs. -/
abbrev plainIn (env : Nat) : AinIn := ⟨0, 0, env, false⟩
abbrev plainTick (env : Nat) (links : List Nat) (gate : Option GateMiss) (ones : BitVec 12) : TickIn :=
  ⟨Vector.replicate 16 (plainIn env), Vector.replicate 4 0, links, gate, Vector.replicate 8 ⟨ones, 0⟩, [], [], []⟩

theorem test_wf_tick : (Instr.tick (plainTick 0 [3] none 3072)).wf = true := by decide +kernel
theorem test_wf_tick_envelope : (Instr.tick (plainTick 0x80000001 [] none 0)).wf = false := by decide +kernel
theorem test_wf_tick_link : (Instr.fabricFirstTick (plainTick 0 [4] none 0)).wf = false := by decide +kernel
theorem test_wf_tick_ones : (Instr.tick (plainTick 0 [] none 3073)).wf = false := by decide +kernel
theorem test_wf_tick_gate_empty : (Instr.tick (plainTick 0 [] (some ⟨0, 0, [], []⟩) 0)).wf = false := by decide +kernel
theorem test_wf_tick_gate_range : (Instr.tick (plainTick 0 [] (some ⟨0, 0, [0x130], []⟩) 0)).wf = false := by decide +kernel
theorem test_wf_glitch : (Instr.monGlitch 0 0).wf = false := by decide +kernel
theorem test_wf_band : (Instr.monPresent 0 0 10001).wf = false := by decide +kernel
theorem test_wf_ppm : (Instr.refUsable 32768).wf = false := by decide +kernel
theorem test_wf_scan : (Instr.fixedScan ⟨Vector.replicate 28 0x800000⟩).wf = false := by decide +kernel
theorem test_wf_reading : (Instr.integrationDone ⟨-0x800001, false⟩).wf = false := by decide +kernel
theorem test_wf_sag : (Instr.sagSample 0x800000).wf = false := by decide +kernel
theorem test_wf_mains : (Instr.mainsMeasurementValid 14285).wf = false := by decide +kernel
theorem test_wf_piste : (Instr.pisteWrite 0 0x50040000 0).wf = false := by decide +kernel
theorem test_wf_param : (Instr.paramWrite 0 0x50040002 0).wf = false := by decide +kernel
theorem test_wf_power_twice : (Instr.powerChange 0 [(9, 2), (9, 1)]).wf = false := by decide +kernel
theorem test_wf_brownout : (Instr.lpBrownout [1, 1]).wf = false := by decide +kernel
theorem test_wf_vio : (Instr.vioSelect 400).wf = false := by decide +kernel
theorem test_wf_line : (Instr.commandFrame 3 [1, 0]).wf = false := by decide +kernel
theorem test_wf_rd : (Instr.rd 0 0x40000000 6).wf = false := by decide +kernel
theorem test_wf_wr : (Instr.wr 0 0x40000000 0 [1, 2, 3]).wf = false := by decide +kernel
theorem test_wf_rmw : (Instr.rmw 0 0x40000001 0 0 0).wf = false := by decide +kernel
theorem test_wf_commit : (Instr.txnCommit 0 1 3 0).wf = false := by decide +kernel
theorem test_wf_push : (Instr.ringPush 0 0 (List.replicate 1017 0)).wf = false := by decide +kernel
theorem test_wf_bib : (Instr.txnApply 0).wf = false := by decide +kernel
theorem test_wf_page : (Instr.evtForceWrite 0 0x019 0).wf = false := by decide +kernel
theorem test_wf_kind : (Instr.imageLoadOpen 0 3).wf = false := by decide +kernel
theorem test_wf_reason : (Instr.svcFatalError 2).wf = false := by decide +kernel
theorem test_wf_register : (Instr.registerWrite 0 0x4006C000 0).wf = false := by decide +kernel

/-! ## Worked examples of the manual -/

/-- The state after reset with every domain ON. -/
abbrev awake : State := { State.reset with doms := Vector.replicate 27 ⟨.on, false⟩ }

/-- The gain code of −6.5 dB (00_scope.md, the example of units). -/
theorem test_gain_code : Gain.ofCode 0xFCC0 = .db (-832) 1 := by decide +kernel

/-- A frame in PACK3 and PACK4 (03_serial_audio_ports.md, the example after R66). -/
theorem test_pack3 : frameImage false ⟨0x12345600, Tag.genuine⟩ ⟨-0x1234600, Tag.genuine⟩ = [0x56, 0x34, 0x12, 0xBA, 0xDC, 0xFE] := by
  decide +kernel
theorem test_pack4 : frameImage true ⟨0x12345600, Tag.genuine⟩ ⟨-0x1234600, { Tag.genuine with settling := true }⟩ =
    [0x01, 0x56, 0x34, 0x12, 0x03, 0xBA, 0xDC, 0xFE] := by decide +kernel

/-- A line of 1.0 s at 48 kHz holds 751 granules (08_mixing_and_processing.md, the example of R209). -/
theorem test_granules : ceilDiv (48000 + 1) 64 = 751 := by decide +kernel

/-- The two trailer checks over "123456789" (12_crc_engines.md, the example). -/
theorem test_crc16 : Crc.crc16.value [0x31, 0x32, 0x33, 0x34, 0x35, 0x36, 0x37, 0x38, 0x39] = 0x29B1 := by decide +kernel
theorem test_crc32 : Crc.crc32.value [0x31, 0x32, 0x33, 0x34, 0x35, 0x36, 0x37, 0x38, 0x39] = 0xCBF43926 := by decide +kernel

/-- A battery at 12.2 V under KNEE 140 and SLOPE 4 (10_speaker_amplifier.md, the example of Table 10.15). -/
abbrev sagging : State := ((awake.setReg 0x40015044 0x0504008C).setFld Fd.HKA_STATUS_READY 1)
theorem test_sag : (match exec (.sagSample 2498560) sagging with
    | .next t => (t.reg Adr.AMPSYS_PVDD).toNat
    | _ => 0) = 0xFE3304C4 := by decide +kernel

/-- The header of SAP25 (18_register_pages.md, the example of R404). -/
theorem test_header : (match exec (.rd 0 0x40039000 16) awake with
    | .next t => t.ports[0].results.map (·.data)
    | _ => []) = [[0x01, 0x19, 0x20, 0x00] ++ (bytesLE 4 0) ++ [0x02, 0x00, 0x0C, 0x00] ++ (bytesLE 4 0)] := by decide +kernel

/-- A page of no unit reads 0 with NO_SUCH_PAGE (the same example). -/
theorem test_no_page : (match exec (.rd 0 0x40019000 4) awake with
    | .next t => t.ports[0].results
    | _ => []) = [⟨0x10, 0x23, [0, 0, 0, 0]⟩] := by decide +kernel

/-- An epoch frame carries its epoch, hop and command (02_clocks_and_time.md R48, Table 2.12). -/
theorem test_epoch : epochData (epochFrame 0xABCDE 5 1) = some (0xABCDE * 2 ^ 12 + 5 * 8 + 1) := by decide +kernel

/-- SYSCNT takes its next count when nothing is commanded, and a command in the queue runs instead. -/
theorem test_idle : (match step State.reset with
    | .next t => t.syscnt
    | _ => 0) = 1 := by decide +kernel
theorem test_queue : (match step { State.reset with pending := [.nop 1] } with
    | .next t => (t.pending, t.ports[1].results.length)
    | _ => ([], 0)) = ([], 1) := by decide +kernel

/-- An address that CP2 does not answer starts no lift (14_control_ports.md R328). -/
theorem test_lift_address : (match exec (.liftMatch (.seven 0x7F)) { State.reset with doms := Vector.replicate 27 ⟨.off, false⟩ } with
    | .next t => t.lift
    | _ => true) = false := by decide +kernel

/-! ## States and operands that meet the hypotheses of the statements -/

/-- The state after reset meets the invariant that `StepKeepsInv` assumes. -/
theorem witness_StepKeepsInv : ∃ s : State, s.Inv := ⟨State.reset, reset_inv⟩

theorem witness_MonitorCommands :
    (∃ (m : Fin 43) (s : State), s.monLive m = true ∧ s.monState m = monPresentSt ∧ s.isRef m = false ∧ s.monFollowers m = [])
    ∧ (∃ (m : Fin 43) (s : State), s.monLive m = true ∧ s.monState m = monPresentSt ∧ s.isRef m = false ∧ s.monFollowers m =
      [] ∧ s.monDeaf m = false ∧ s.fld (Fd.CLK_MON_CFG_GLITCH_LIMIT m) = 0)
    ∧ (∃ (m : Fin 43) (code : Fin 18) (ppm : Int) (s : State), s.monLive m = true ∧ s.monState m = monPresentSt ∧ s.isRef m =
      false ∧ s.monFollowers m = [] ∧ s.monDeaf m = false ∧ s.mons[m].nominal ≠ code.val ∧ ppm.natAbs ≤ 10000)
    ∧ (∃ (m : Fin 43) (ppm : Int) (s : State), s.monLive m = true ∧ s.monState m = monAcquiring ∧ s.isRef m = false ∧
      s.monFollowers m = [] ∧ s.monDeaf m = false ∧ ppm.natAbs ≤ 10000)
    ∧ (∃ (m : Fin 43) (s : State), s.monLive m = true ∧ s.monState m = monAcquiring) := by
  refine ⟨⟨2, ((awake.setFld Fd.CLK_REF_SEL_SRC 0).setFld (Fd.CLK_MON_STAT_STATE (2 : Fin 43)) monPresentSt), ?_⟩,
    ⟨2, (((awake.setFld Fd.CLK_REF_SEL_SRC 0).setFld (Fd.CLK_MON_STAT_STATE (2 : Fin 43)) monPresentSt).setFld
      (Fd.CLK_MON_CFG_GLITCH_LIMIT (2 : Fin 43)) (0)), ?_⟩,
    ⟨2, 17, -10000, ((((awake.setFld Fd.CLK_REF_SEL_SRC 0).setFld (Fd.CLK_MON_STAT_NOMINAL (2 : Fin 43)) 9) |> fun (s : State)
      => ({ s with mons := s.mons.set (2 : Fin 43) ⟨true, [3], 9⟩ } : State)).setFld (Fd.CLK_MON_STAT_STATE (2 : Fin 43))
      monPresentSt), ?_⟩,
    ⟨2, 7, ((awake.setFld Fd.CLK_REF_SEL_SRC 0).setFld (Fd.CLK_MON_STAT_STATE (2 : Fin 43)) monAcquiring), ?_⟩,
    ⟨26, (awake.setFld (Fd.CLK_MON_STAT_STATE (26 : Fin 43)) monAcquiring), ?_⟩⟩ <;>
    decide +kernel

theorem witness_PllCommands :
    (∃ (s : State), s.pageTakes clkPage = true ∧ s.fld Fd.FAB_STAT_STATE ≠ 0)
    ∧ (∃ (v : Word) (s : State), s.pageTakes clkPage = true ∧ s.fld Fd.FAB_STAT_STATE = 0 ∧ s.stored Adr.CLK_CORE v.toNat ≠
      s.reg Adr.CLK_CORE)
    ∧ (∃ (v : Word) (s : State), s.pageTakes clkPage = true ∧ refKnown (bitsAt v.toNat 0 7) = false)
    ∧ (∃ (v : Word) (m : Fin 43) (s : State), s.pageTakes clkPage = true ∧ refMon (bitsAt v.toNat 0 7) = some m ∧ s.usable m =
      true ∧ s.pllState = .free)
    ∧ (∃ (s : State), s.domOn Dm.PLL = true ∧ s.pllState = .acquire ∧ s.refSrc = 0)
    ∧ (∃ (s : State), s.domOn Dm.PLL = true ∧ s.pllState = .acquire ∧ s.refSrc ≠ 0 ∧ s.refUsable = true)
    ∧ (∃ (s : State), s.domOn Dm.PLL = true ∧ s.pllState = .acquire ∧ s.refSrc ≠ 0 ∧ s.refUsable = false)
    ∧ (∃ (s : State), s.domOn Dm.PLL = true ∧ s.pllState = .slewing ∧ s.pll.matched = true ∧ s.refUsable = true)
    ∧ (∃ (s : State), s.domOn Dm.PLL = true ∧ s.pllState = .snapMute ∧ s.pll.snap.left = 0)
    ∧ (∃ (s : State), s.domOn Dm.PLL = true ∧ s.pllState = .snapRelock ∧ s.refUsable = true)
    ∧ (∃ (s : State), s.domOn Dm.PLL = true ∧ s.pllState = .snapReturn ∧ s.pll.snap.left = 0 ∧ s.refSrc ≠ 0 ∧ s.refUsable =
      true ∧ s.rateHeld = false)
    ∧ (∃ (m : Fin 43) (ppm : Int) (s : State), refMon s.refSrc = some m ∧ s.monLive m = true ∧ s.monDeaf m = false ∧ s.usable
      m = true ∧ s.pllState = .locked ∧ 2000 < ppm.natAbs ∧ ppm.natAbs ≤ 10000)
    ∧ (∃ (m : Fin 43) (ppm : Int) (s : State), refMon s.refSrc = some m ∧ s.monLive m = true ∧ s.monDeaf m = false ∧ s.usable
      m = true ∧ s.fld (Fd.CLK_MON_STAT_NOMINAL m) = s.mons[m].nominal ∧ s.pllState = .locked ∧ s.pll.follow = true ∧
      ppm.natAbs ≤ 2000)
    ∧ (∃ (m : Fin 43) (ppm : Int) (s : State), refMon s.refSrc = some m ∧ s.monLive m = true ∧ s.monDeaf m = false ∧
      s.monState m = monPresentSt ∧ s.usable m = false ∧ s.pllState = .holdover ∧ s.flag Fd.CLK_RELOCK_POLICY = false ∧ s.fld
      Fd.CLK_RELOCK_SLEW_MAX = 0 ∧ rateKnown s.mons[m].nominal = true ∧ rate441 s.mons[m].nominal = s.flag Fd.CLK_CORE_FAMILY
      ∧ s.pll.former = 0x1F ∧ ppm.natAbs ≤ 2000) := by
  refine ⟨⟨(awake.setFld Fd.FAB_STAT_STATE 2), ?_⟩,
    ⟨0x81234567, (awake.setFld Fd.FAB_STAT_STATE (0)), ?_⟩,
    ⟨4, awake, ?_⟩,
    ⟨1, 0, (((((((awake.pllTo .free).setFld Fd.CLK_REF_SEL_SRC 1).setFld (Fd.CLK_MON_STAT_STATE 0) 2).setFld
      (Fd.CLK_MON_STAT_NOMINAL 0) 3).setSfld (Fd.CLK_MON_STAT_OFFSET_PPM 0) (-5)).setFld Fd.CLK_CORE_FAMILY 0) |> fun (s :
      State) => ({ s with mons := s.mons.set 0 ⟨false, [], 3⟩ } : State)), ?_⟩,
    ⟨(awake.pllTo .acquire), ?_⟩,
    ⟨(((((((awake.pllTo .acquire).setFld Fd.CLK_REF_SEL_SRC 1).setFld (Fd.CLK_MON_STAT_STATE 0) 2).setFld
      (Fd.CLK_MON_STAT_NOMINAL 0) 3).setSfld (Fd.CLK_MON_STAT_OFFSET_PPM 0) (-5)).setFld Fd.CLK_CORE_FAMILY 0) |> fun (s :
      State) => ({ s with mons := s.mons.set 0 ⟨false, [], 3⟩ } : State)), ?_⟩,
    ⟨(((awake.pllTo .acquire).setFld Fd.CLK_REF_SEL_SRC 2).setFld (Fd.CLK_MON_STAT_STATE 1) 3), ?_⟩,
    ⟨((((((((awake.pllTo .slewing) |> fun (s : State) => { s with pll := { s.pll with matched := true } }).setFld
      Fd.CLK_REF_SEL_SRC 1).setFld (Fd.CLK_MON_STAT_STATE 0) 2).setFld (Fd.CLK_MON_STAT_NOMINAL 0) 3).setSfld
      (Fd.CLK_MON_STAT_OFFSET_PPM 0) (-5)).setFld Fd.CLK_CORE_FAMILY 0) |> fun (s : State) =>
      ({ s with mons := s.mons.set 0 ⟨false, [], 3⟩ } : State)), ?_⟩,
    ⟨(awake.pllTo .snapMute), ?_⟩,
    ⟨(((((((awake.pllTo .snapRelock).setFld Fd.CLK_REF_SEL_SRC 1).setFld (Fd.CLK_MON_STAT_STATE 0) 2).setFld
      (Fd.CLK_MON_STAT_NOMINAL 0) 3).setSfld (Fd.CLK_MON_STAT_OFFSET_PPM 0) (-5)).setFld Fd.CLK_CORE_FAMILY 0) |> fun (s :
      State) => ({ s with mons := s.mons.set 0 ⟨false, [], 3⟩ } : State)), ?_⟩,
    ⟨((((((((awake.pllTo .snapReturn).setFld Fd.CLK_REF_SEL_SRC 1).setFld (Fd.CLK_MON_STAT_STATE 0) 2).setFld
      (Fd.CLK_MON_STAT_NOMINAL 0) 3).setSfld (Fd.CLK_MON_STAT_OFFSET_PPM 0) (-5)).setFld Fd.CLK_CORE_FAMILY 0) |> fun (s :
      State) => ({ s with mons := s.mons.set 0 ⟨false, [], 3⟩ } : State)) |> fun (s : State) =>
      { s with pll := { s.pll with snap := Glide.at .mute, former := 0x1F } }), ?_⟩,
    ⟨0, -2001, (((((((awake.pllTo .locked).setFld Fd.CLK_REF_SEL_SRC 1).setFld (Fd.CLK_MON_STAT_STATE 0) 2).setFld
      (Fd.CLK_MON_STAT_NOMINAL 0) 3).setSfld (Fd.CLK_MON_STAT_OFFSET_PPM 0) (-5)).setFld Fd.CLK_CORE_FAMILY 0) |> fun (s :
      State) => ({ s with mons := s.mons.set 0 ⟨false, [], 3⟩ } : State)), ?_⟩,
    ⟨0, -1999, (((((((((awake |> fun (s : State) => s.setFld (Fd.CLK_MON_STAT_NOMINAL (0 : Fin 43)) (s.mons[(0 : Fin
      43)].nominal)).pllTo .locked) |> fun (s : State) => { s with pll := { s.pll with follow := true } }).setFld
      Fd.CLK_REF_SEL_SRC 1).setFld (Fd.CLK_MON_STAT_STATE 0) 2).setFld (Fd.CLK_MON_STAT_NOMINAL 0) 3).setSfld
      (Fd.CLK_MON_STAT_OFFSET_PPM 0) (-5)).setFld Fd.CLK_CORE_FAMILY 0) |> fun (s : State) =>
      ({ s with mons := s.mons.set 0 ⟨false, [], 3⟩ } : State)), ?_⟩,
    ⟨0, 2000, (((((((((((((((awake.setFld (Fd.CLK_MON_STAT_STATE (0 : Fin 43)) monPresentSt).pllTo .holdover).setFld
      Fd.CLK_RELOCK_POLICY 0).setFld Fd.CLK_RELOCK_SLEW_MAX (0)) |> fun (s : State) =>
      { s with pll := { s.pll with former := 0x1F } }).setFld Fd.CLK_REF_SEL_SRC 1).setFld (Fd.CLK_MON_STAT_STATE 0) 2).setFld
      (Fd.CLK_MON_STAT_NOMINAL 0) 3).setSfld (Fd.CLK_MON_STAT_OFFSET_PPM 0) (-5)).setFld Fd.CLK_CORE_FAMILY 0) |> fun (s :
      State) => ({ s with mons := s.mons.set 0 ⟨false, [], 3⟩ } : State)).setSfld (Fd.CLK_MON_STAT_OFFSET_PPM 0) 3000).setFld
      Fd.CLK_RELOCK_POLICY 0).setFld Fd.CLK_RELOCK_SLEW_MAX 0) |> fun (s : State) =>
      { s with pll := { s.pll with former := 0x1F } }), ?_⟩⟩ <;>
    decide +kernel

theorem witness_TimeCommands :
    (∃ (s : State), s.domOn Dm.AON = true)
    ∧ (∃ (s : State), s.domOn Dm.AON = true)
    ∧ (∃ (s : State), s.coarse = true ∧ s.timebase = true)
    ∧ (∃ (s : State), s.fld Fd.TIME_ENS_CTRL_ROLE = 1 ∧ s.syscnt % 2 ^ 20 = 0)
    ∧ (∃ (f : BitVec 64) (s : State), s.fld Fd.TIME_ENS_CTRL_ROLE = 2 ∧ s.vioUp = true ∧ epochData f = none)
    ∧ (∃ (f : BitVec 64) (d : Nat) (s : State), s.fld Fd.TIME_ENS_CTRL_ROLE = 2 ∧ s.vioUp = true ∧ epochData f = some d ∧ d %
      8 < 2 ∧ s.coarse = false ∧ (s.ens.join = true ∨ d % 8 = 1))
    ∧ (∃ (f : BitVec 64) (s : State), s.fld Fd.TIME_ENS_CTRL_ROLE = 2 ∧ s.flag Fd.TIME_ENS_CTRL_REPEAT = true ∧ s.ens.last =
      some f)
    ∧ (∃ (s : State), s.fld Fd.TIME_ENS_CTRL_ROLE = 2)
    ∧ (∃ (s : State), s.fld Fd.TIME_ENS_CTRL_ROLE = 1) := by
  refine ⟨⟨awake, ?_⟩,
    ⟨awake, ?_⟩,
    ⟨(awake |> fun (s : State) => { s with coarse := true }), ?_⟩,
    ⟨(awake.setFld Fd.TIME_ENS_CTRL_ROLE (1)), ?_⟩,
    ⟨0x123456789ABCDEF0, (awake.setFld Fd.TIME_ENS_CTRL_ROLE (2)), ?_⟩,
    ⟨epochFrame 12345 7 1, 12345 * 2^12 + 7 * 8 + 1, ((awake.setFld Fd.TIME_ENS_CTRL_ROLE (2)) |> fun (s : State) =>
      { s with coarse := false }), ?_⟩,
    ⟨0x123456789ABCDEF0, (((awake.setFld Fd.TIME_ENS_CTRL_ROLE (2)).setFld Fd.TIME_ENS_CTRL_REPEAT 1) |> fun (s : State) =>
      { s with ens := { s.ens with last := some (0x123456789ABCDEF0 : BitVec 64) } }), ?_⟩,
    ⟨(awake.setFld Fd.TIME_ENS_CTRL_ROLE (2)), ?_⟩,
    ⟨(awake.setFld Fd.TIME_ENS_CTRL_ROLE (1)), ?_⟩⟩ <;>
    decide +kernel

theorem witness_PortControlCommands :
    (∃ (n : Fin 32) (s : State) (u : State), u = (s.setFld (Fd.SAP_CTRL_MUTE n) (s.fld (Fd.SAP_CTRL_MUTE n))).setFld
      (Fd.SAP_CTRL_RUN n) 1 ∧ s.pageTakes (sapPage n) = true ∧ s.flag (Fd.SAP_CTRL_RUN n) = false ∧ s.sapState n = .stopped ∧
      u.sapValid n = true ∧ u.groupRefusals n = [])
    ∧ (∃ (n : Fin 32) (s : State) (u : State), u = (s.setFld (Fd.SAP_CTRL_MUTE n) (s.fld (Fd.SAP_CTRL_MUTE n))).setFld
      (Fd.SAP_CTRL_RUN n) 1 ∧ s.pageTakes (sapPage n) = true ∧ s.flag (Fd.SAP_CTRL_RUN n) = false ∧ s.sapState n = .stopped ∧
      u.sapValid n = false)
    ∧ (∃ (n : Fin 32) (s : State), s.pageTakes (sapPage n) = true ∧ s.flag (Fd.SAP_CTRL_RUN n) = true ∧ s.sapState n =
      .running)
    ∧ (∃ (n : Fin 32) (s : State), s.pageTakes (sapPage n) = true ∧ s.flag (Fd.SAP_CTRL_RUN n) = true ∧ s.sapState n = .held)
    ∧ (∃ (n : Fin 32) (s : State), s.pageTakes (sapPage n) = true ∧ s.sapState n ≠ .running)
    ∧ (∃ (n : Fin 32) (s : State), s.pageTakes (sapPage n) = true ∧ s.sapState n = .running)
    ∧ (∃ (n : Fin 32) (r : SapReg) (s : State), s.pageTakes (sapPage n) = true ∧ (r = .aesCfg → 24 ≤ n.val) ∧ s.sapState n =
      .stopped)
    ∧ (∃ (n : Fin 32) (r : SapReg) (s : State), s.pageTakes (sapPage n) = true ∧ (r = .aesCfg → 24 ≤ n.val) ∧ s.sapState n ≠
      .stopped)
    ∧ (∃ (n : Fin 32) (s : State), s.sapState n = .stopping ∧ s.drained n = true) := by
  refine ⟨⟨26, ((((((((((((awake.setFld (Fd.SAP_CTRL_RUN (26 : Fin 32)) 0).setSapState (26 : Fin 32) .stopped).setFld
      (Fd.SAP_FMT_FORMAT (26 : Fin 32)) 0).setFld (Fd.SAP_FMT_WORD (26 : Fin 32)) 0).setFld (Fd.SAP_FMT_SLOT (26 : Fin 32))
      2).setFld (Fd.SAP_CLKCFG_RATE (26 : Fin 32)) 3).setFld (Fd.SAP_CLKCFG_ROLE (26 : Fin 32)) 1).setFld Fd.CLK_CORE_FAMILY
      0).setFld (Fd.SAP_LINE_D0_DIR (26 : Fin 32)) 1).setFld (Fd.SAP_LINE_D1_DIR (26 : Fin 32)) 0).setFld
      (Fd.SAP_LINE_BLOCK_FRAMES (26 : Fin 32)) 8).setFld (Fd.SAP_LINE_PACK (26 : Fin 32)) 0), (((((((((((((((awake.setFld
      (Fd.SAP_CTRL_RUN (26 : Fin 32)) 0).setSapState (26 : Fin 32) .stopped).setFld (Fd.SAP_FMT_FORMAT (26 : Fin 32))
      0).setFld (Fd.SAP_FMT_WORD (26 : Fin 32)) 0).setFld (Fd.SAP_FMT_SLOT (26 : Fin 32)) 2).setFld (Fd.SAP_CLKCFG_RATE (26 :
      Fin 32)) 3).setFld (Fd.SAP_CLKCFG_ROLE (26 : Fin 32)) 1).setFld Fd.CLK_CORE_FAMILY 0).setFld (Fd.SAP_LINE_D0_DIR (26 :
      Fin 32)) 1).setFld (Fd.SAP_LINE_D1_DIR (26 : Fin 32)) 0).setFld (Fd.SAP_LINE_BLOCK_FRAMES (26 : Fin 32)) 8).setFld
      (Fd.SAP_LINE_PACK (26 : Fin 32)) 0)).setFld (Fd.SAP_CTRL_MUTE (26 : Fin 32)) ((((((((((((((awake.setFld (Fd.SAP_CTRL_RUN
      (26 : Fin 32)) 0).setSapState (26 : Fin 32) .stopped).setFld (Fd.SAP_FMT_FORMAT (26 : Fin 32)) 0).setFld
      (Fd.SAP_FMT_WORD (26 : Fin 32)) 0).setFld (Fd.SAP_FMT_SLOT (26 : Fin 32)) 2).setFld (Fd.SAP_CLKCFG_RATE (26 : Fin 32))
      3).setFld (Fd.SAP_CLKCFG_ROLE (26 : Fin 32)) 1).setFld Fd.CLK_CORE_FAMILY 0).setFld (Fd.SAP_LINE_D0_DIR (26 : Fin 32))
      1).setFld (Fd.SAP_LINE_D1_DIR (26 : Fin 32)) 0).setFld (Fd.SAP_LINE_BLOCK_FRAMES (26 : Fin 32)) 8).setFld
      (Fd.SAP_LINE_PACK (26 : Fin 32)) 0)).fld (Fd.SAP_CTRL_MUTE (26 : Fin 32)))).setFld (Fd.SAP_CTRL_RUN (26 : Fin 32)) 1),
      ?_⟩,
    ⟨26, (((((awake.setFld (Fd.SAP_CTRL_RUN (26 : Fin 32)) 0).setSapState (26 : Fin 32) .stopped).setFld (Fd.SAP_FMT_FORMAT
      (26 : Fin 32)) 0).setFld (Fd.SAP_FMT_WORD (26 : Fin 32)) 3).setFld (Fd.SAP_FMT_SLOT (26 : Fin 32)) 0),
      ((((((((awake.setFld (Fd.SAP_CTRL_RUN (26 : Fin 32)) 0).setSapState (26 : Fin 32) .stopped).setFld (Fd.SAP_FMT_FORMAT
      (26 : Fin 32)) 0).setFld (Fd.SAP_FMT_WORD (26 : Fin 32)) 3).setFld (Fd.SAP_FMT_SLOT (26 : Fin 32)) 0)).setFld
      (Fd.SAP_CTRL_MUTE (26 : Fin 32)) (((((((awake.setFld (Fd.SAP_CTRL_RUN (26 : Fin 32)) 0).setSapState (26 : Fin 32)
      .stopped).setFld (Fd.SAP_FMT_FORMAT (26 : Fin 32)) 0).setFld (Fd.SAP_FMT_WORD (26 : Fin 32)) 3).setFld (Fd.SAP_FMT_SLOT
      (26 : Fin 32)) 0)).fld (Fd.SAP_CTRL_MUTE (26 : Fin 32)))).setFld (Fd.SAP_CTRL_RUN (26 : Fin 32)) 1), ?_⟩,
    ⟨26, ((awake.setFld (Fd.SAP_CTRL_RUN (26 : Fin 32)) 1).setSapState (26 : Fin 32) .running), ?_⟩,
    ⟨26, ((awake.setFld (Fd.SAP_CTRL_RUN (26 : Fin 32)) 1).setSapState (26 : Fin 32) .held), ?_⟩,
    ⟨26, awake, ?_⟩,
    ⟨26, (awake.setSapState (26 : Fin 32) .running), ?_⟩,
    ⟨26, .zc, (awake.setSapState (26 : Fin 32) .stopped), ?_⟩,
    ⟨26, .zc, (awake.setSapState (26 : Fin 32) .running), ?_⟩,
    ⟨26, (awake.setSapState (26 : Fin 32) .stopping), ?_⟩⟩ <;>
    decide +kernel

theorem witness_PortStreamCommands :
    (∃ (n : Fin 32) (s : State), s.domOn (Dm.PORTG (n.val / 8)) = true ∧ s.sapDeaf n = false ∧ s.isMaster n = true ∧ s.isAes n
      = false ∧ s.sapState n = .running ∧ s.frameEarly n s.saps[n].lastRx = false)
    ∧ (∃ (n : Fin 32) (s : State), s.domOn (Dm.PORTG (n.val / 8)) = true ∧ s.isMaster n = true ∧ s.isAes n = false ∧
      s.frameEarly n s.saps[n].lastRx = true ∧ s.sapDeaf n = false)
    ∧ (∃ (n : Fin 32) (k : Fin 2) (s : State), s.dir n k = 1 ∧ s.domOn Dm.PLL = true ∧ (s.line n k).live = true ∧ s.rxClock n
      = false)
    ∧ (∃ (n : Fin 32) (s : State), s.domOn (Dm.PORTG (n.val / 8)) = true ∧ (s.isMaster n = true ∨ s.sapDeaf n = false) ∧
      s.sapState n = .running ∧ s.frameEarly n s.saps[n].lastTx = false)
    ∧ (∃ (n : Fin 32) (s : State), s.sapState n = .starting)
    ∧ (∃ (n : Fin 32) (k : Fin 2) (s : State), s.dir n k = 2 ∧ (s.line n k).live = true ∧ (s.line n k).delivering = false ∧
      s.blockFrames n ≤ (s.line n k).fill ∧ s.sapState n = .starting)
    ∧ (∃ (n : Fin 32) (ch : Fin 4) (w : Nat) (s : State), s.saps[n].chans[ch].sw = .waitIn w ∧ s.msTicks (s.fld
      (Fd.SAP_ZC_TIMEOUT n)) ≤ w)
    ∧ (∃ (n : Fin 32) (ch : Fin 4) (w : Nat) (s : State), s.saps[n].chans[ch].sw = .waitOut w ∧ s.msTicks (s.fld
      (Fd.SAP_ZC_TIMEOUT n)) ≤ w)
    ∧ (∃ (n : Fin 32) (ch : Fin 4) (s : State), s.saps[n].chans[ch].sw = .glideIn 0)
    ∧ (∃ (n : Fin 32) (ch : Fin 4) (s : State), s.saps[n].chans[ch].sw = .glideOut 0) := by
  refine ⟨⟨26, ((((awake.setSapState (26 : Fin 32) .running).setFld (Fd.SAP_CLKCFG_ROLE (26 : Fin 32)) 1).setFld (Fd.SAP_FMT_FORMAT
      (26 : Fin 32)) 1) |> fun (s : State) => { s with ticks := s.saps[(26 : Fin 32)].lastRx + 1 }), ?_⟩,
    ⟨26, (((((((awake.setFld (Fd.SAP_CLKCFG_ROLE (26 : Fin 32)) 1).setFld (Fd.SAP_FMT_FORMAT (26 : Fin 32)) 1).setFld
      Fd.CLK_CORE_FAMILY 0).setFld Fd.CLK_CORE_MULT 0).setFld (Fd.SAP_CLKCFG_RATE (26 : Fin 32)) 8).setFld (Fd.SAP_LINE_D1_DIR
      (26 : Fin 32)) 0) |> fun (s : State) => s.updSap (26 : Fin 32) fun p => { p with lastRx := s.ticks }), ?_⟩,
    ⟨26, 0, (((((awake.updLine (26 : Fin 32) (0 : Fin 2) fun q => { q with live := true }).setFld (if (0 : Fin 2) = 0 then
      Fd.SAP_LINE_D0_DIR (26 : Fin 32) else Fd.SAP_LINE_D1_DIR (26 : Fin 32)) 1).setFld (Fd.SAP_CLKCFG_ROLE (26 : Fin 32))
      0).setFld (Fd.SAP_CLKCFG_RATE (26 : Fin 32)) 5).setFld (Fd.SAP_FMT_FORMAT (26 : Fin 32)) 3), ?_⟩,
    ⟨26, (awake.setSapState (26 : Fin 32) .running), ?_⟩,
    ⟨26, (awake.setSapState (26 : Fin 32) .starting), ?_⟩,
    ⟨26, 0, ((((((awake.updLine (26 : Fin 32) (0 : Fin 2) fun q => { q with live := true }).updLine (26 : Fin 32) (0 : Fin 2)
      fun q => { q with delivering := false }).setSapState (26 : Fin 32) .starting).setFld (if (0 : Fin 2) = 0 then
      Fd.SAP_LINE_D0_DIR (26 : Fin 32) else Fd.SAP_LINE_D1_DIR (26 : Fin 32)) 2).setFld (Fd.SAP_LINE_BLOCK_FRAMES (26 : Fin
      32)) 4).updLine (26 : Fin 32) (0 : Fin 2) fun q => { q with fill := 4 }), ?_⟩,
    ⟨26, 3, 3840000, (awake.updChan (26 : Fin 32) (3 : Fin 4) fun q => { q with sw := .waitIn (3840000 : Nat) }), ?_⟩,
    ⟨26, 3, 3840000, (awake.updChan (26 : Fin 32) (3 : Fin 4) fun q => { q with sw := .waitOut (3840000 : Nat) }), ?_⟩,
    ⟨26, 3, (awake.updChan (26 : Fin 32) (3 : Fin 4) fun q => { q with sw := .glideIn 0 }), ?_⟩,
    ⟨26, 3, (awake.updChan (26 : Fin 32) (3 : Fin 4) fun q => { q with sw := .glideOut 0 }), ?_⟩⟩ <;>
    decide +kernel

theorem witness_PortCountCommands :
    (∃ (n : Fin 32) (s : State), s.pageOn (sapPage n) = true)
    ∧ (∃ (n : Fin 32) (s : State), s.pageOn (sapPage n) = true) := by
  refine ⟨⟨26, awake, ?_⟩,
    ⟨26, awake, ?_⟩⟩ <;>
    decide +kernel

theorem witness_CountClear :
    (∃ (n : Fin 32) (s : State), s.pageTakes (sapPage n) = true ∧ s.sapState n = .stopped)
    ∧ (∃ (n : Fin 32) (s : State), s.pageTakes (sapPage n) = true ∧ s.sapState n ≠ .stopped) := by
  refine ⟨⟨26, (awake.setSapState (26 : Fin 32) .stopped), ?_⟩,
    ⟨26, (awake.setSapState (26 : Fin 32) .held), ?_⟩⟩ <;>
    decide +kernel

theorem witness_AesCommands :
    (∃ (k : Fin 8) (s : State), s.aesRx (aesPort k) = true ∧ s.fld (Fd.SAP_AES_RX_STAT_LOCK (aesPort k)) ≠ 2)
    ∧ (∃ (k : Fin 8) (s : State), s.aesRx (aesPort k) = true ∧ s.fld (Fd.SAP_AES_RX_STAT_LOCK (aesPort k)) = 2)
    ∧ (∃ (k : Fin 8) (s : State), s.aesRx (aesPort k) = true ∧ s.fld (Fd.SAP_AES_RX_STAT_LOCK (aesPort k)) = 0)
    ∧ (∃ (k : Fin 8) (s : State), s.aesRx (aesPort k) = true ∧ s.fld (Fd.SAP_AES_RX_STAT_LOCK (aesPort k)) ≠ 2)
    ∧ (∃ (k : Fin 8) (s : State), s.pageOn (sapPage (aesPort k)) = true)
    ∧ (∃ (k : Fin 8) (s : State), s.pageTakes (sapPage (aesPort k)) = true)
    ∧ (∃ (k : Fin 8) (w : Nat) (s : State), s.saps[aesPort k].aes.swapTick = some w ∧ w < s.ticks ∧ s.isAes (aesPort k) = true
      ∧ s.dir (aesPort k) 1 = 2 ∧ s.sapState (aesPort k) = .running ∧ s.saps[aesPort k].aes.txPos = 0) := by
  refine ⟨⟨7, (((awake.setFld (Fd.SAP_FMT_FORMAT (aesPort (7 : Fin 8))) 3).setFld (Fd.SAP_LINE_D0_DIR (aesPort (7 : Fin 8)))
      1).setFld (Fd.SAP_AES_RX_STAT_LOCK (aesPort (7 : Fin 8))) 1), ?_⟩,
    ⟨7, (((awake.setFld (Fd.SAP_AES_RX_STAT_LOCK (aesPort (7 : Fin 8))) (2)).setFld (Fd.SAP_FMT_FORMAT (aesPort (7 : Fin 8)))
      3).setFld (Fd.SAP_LINE_D0_DIR (aesPort (7 : Fin 8))) 1), ?_⟩,
    ⟨7, (((awake.setFld (Fd.SAP_AES_RX_STAT_LOCK (aesPort (7 : Fin 8))) (0)).setFld (Fd.SAP_FMT_FORMAT (aesPort (7 : Fin 8)))
      3).setFld (Fd.SAP_LINE_D0_DIR (aesPort (7 : Fin 8))) 1), ?_⟩,
    ⟨7, (((awake.setFld (Fd.SAP_FMT_FORMAT (aesPort (7 : Fin 8))) 3).setFld (Fd.SAP_LINE_D0_DIR (aesPort (7 : Fin 8)))
      1).setFld (Fd.SAP_AES_RX_STAT_LOCK (aesPort (7 : Fin 8))) 1), ?_⟩,
    ⟨0, awake, ?_⟩,
    ⟨0, awake, ?_⟩,
    ⟨7, 4, ((((((awake.setSapState (aesPort (7 : Fin 8)) .running).setFld (Fd.SAP_FMT_FORMAT (aesPort (7 : Fin 8))) 3).setFld
      (Fd.SAP_LINE_D1_DIR (aesPort (7 : Fin 8))) 2).setSapState (aesPort (7 : Fin 8)) .running).updAes (aesPort (7 : Fin 8))
      fun q => { q with swapTick := some 4, txPos := 0 }) |> fun (s : State) => { s with ticks := 6 }), ?_⟩⟩ <;>
    decide +kernel

theorem witness_GroupCommands :
    (∃ (g : Fin 8) (r : GrpReg) (v : Word) (s : State), s.grpShort g r v.toNat = false)
    ∧ (∃ (g : Fin 8) (r : GrpReg) (v : Word) (s : State), r ≠ .ctrl ∧ (s.hold (grpRegAddr g r) v.toNat).grpMayApply g = false)
    ∧ (∃ (n : Fin 32) (k : Fin 2) (g : Fin 8) (s : State), s.groupOf n k = some g ∧ s.grps[g].silent = false ∧ s.dir n k = 1 ∧
      s.sapState n = .running ∧ (s.line n k).live = true ∧ (s.line n k).anchored = true ∧ (s.line n k).delivering = false ∧
      s.anchorDue g n k = true ∧ s.cushOn g n k = true)
    ∧ (∃ (n : Fin 32) (k : Fin 2) (s : State), s.dir n k = 1 ∧ (s.line n k).live = true)
    ∧ (∃ (n : Fin 32) (k : Fin 2) (s : State), (s.line n k).snow = .fade 0 ∧ s.dir n k ≠ 1)
    ∧ (∃ (n : Fin 32) (k : Fin 2) (g : Fin 8) (s : State), (s.line n k).snow = .fade 0 ∧ s.dir n k = 1 ∧ s.groupOf n k = some
      g)
    ∧ (∃ (n : Fin 32) (k : Fin 2) (s : State), s.canRejoin n k = true ∧ s.groupOf n k = none ∧ s.mustReanchor n k = true)
    ∧ (∃ (n : Fin 32) (k : Fin 2) (s : State), s.canRejoin n k = true ∧ s.groupOf n k = none ∧ s.mustReanchor n k = false ∧
      (s.line n k).nextPos ≤ s.headPos n k)
    ∧ (∃ (n : Fin 32) (k : Fin 2) (s : State), (s.line n k).snow = .glide 0) := by
  refine ⟨⟨7, .delay, 0x81234567, awake, ?_⟩,
    ⟨7, .membersLo, 2, (awake.setSapState 0 .running), ?_⟩,
    ⟨31, 1, 7, ((((((((awake.setSapState (31 : Fin 32) .running).updLine (31 : Fin 32) (1 : Fin 2) fun q =>
      { q with live := true }).updLine (31 : Fin 32) (1 : Fin 2) fun q => { q with anchored := true }).updLine (31 : Fin 32)
      (1 : Fin 2) fun q => { q with delivering := false }) |> fun (s : State) => (s.setFld (Fd.TIME_GRP_MEMBERS_LO_LINES (7 :
      Fin 8)) 0).setFld (Fd.TIME_GRP_MEMBERS_HI_LINES (7 : Fin 8)) 0x80000000) |> fun (s : State) =>
      ({ s with grps := (Vector.replicate 8 ⟨false, [], [], [], false⟩).set (7 : Fin 8) ⟨true, [(63, [1])], [], [], false⟩ } :
      State)).setFld (if (1 : Fin 2) = 0 then Fd.SAP_LINE_D0_DIR (31 : Fin 32) else Fd.SAP_LINE_D1_DIR (31 : Fin 32)) 1) |>
      fun (s : State) => { s with syscnt := 2^40 }), ?_⟩,
    ⟨26, 0, ((awake.updLine (26 : Fin 32) (0 : Fin 2) fun q => { q with live := true }).setFld (if (0 : Fin 2) = 0 then
      Fd.SAP_LINE_D0_DIR (26 : Fin 32) else Fd.SAP_LINE_D1_DIR (26 : Fin 32)) 1), ?_⟩,
    ⟨26, 0, (awake.updLine (26 : Fin 32) (0 : Fin 2) fun q => { q with snow := .fade 0 }), ?_⟩,
    ⟨31, 1, 7, ((((awake.updLine (31 : Fin 32) (1 : Fin 2) fun q => { q with snow := .fade 0 }) |> fun (s : State) =>
      (s.setFld (Fd.TIME_GRP_MEMBERS_LO_LINES (7 : Fin 8)) 0).setFld (Fd.TIME_GRP_MEMBERS_HI_LINES (7 : Fin 8)) 0x80000000) |>
      fun (s : State) =>
      ({ s with grps := (Vector.replicate 8 ⟨false, [], [], [], false⟩).set (7 : Fin 8) ⟨true, [(63, [1])], [], [], false⟩ } :
      State)).setFld (if (1 : Fin 2) = 0 then Fd.SAP_LINE_D0_DIR (31 : Fin 32) else Fd.SAP_LINE_D1_DIR (31 : Fin 32)) 1), ?_⟩,
    ⟨26, 0, ((((awake.setFld (if (0 : Fin 2) = 0 then Fd.SAP_LINE_D0_DIR (26 : Fin 32) else Fd.SAP_LINE_D1_DIR (26 : Fin 32))
      1).updLine (26 : Fin 32) (0 : Fin 2) fun q => { q with delivering := true, snow := .silent, fill := 5000 }) |> fun (s :
      State) => ({ s with grps := Vector.replicate 8 ⟨false, [], [], [], false⟩ } : State)).updLine (26 : Fin 32) (0 : Fin 2)
      fun q => { q with ratePend := true }), ?_⟩,
    ⟨26, 0, ((((awake.setFld (if (0 : Fin 2) = 0 then Fd.SAP_LINE_D0_DIR (26 : Fin 32) else Fd.SAP_LINE_D1_DIR (26 : Fin 32))
      1).updLine (26 : Fin 32) (0 : Fin 2) fun q => { q with delivering := true, snow := .silent, fill := 5000 }) |> fun (s :
      State) => ({ s with grps := Vector.replicate 8 ⟨false, [], [], [], false⟩ } : State)).updLine (26 : Fin 32) (0 : Fin 2)
      fun q => { q with ratePend := false, nextPos := -5 }), ?_⟩,
    ⟨26, 0, (awake.updLine (26 : Fin 32) (0 : Fin 2) fun q => { q with snow := .glide 0 }), ?_⟩⟩ <;>
    decide +kernel

theorem witness_ConverterCommands :
    (∃ (i : Fin 64) (v : Word) (s : State), s.pageTakes asrcPage = true ∧ s.asrcOn i.val = true ∧ bitOf v.toNat 0 = true)
    ∧ (∃ (i : Fin 64) (v : Word) (s : State), s.pageTakes asrcPage = true ∧ s.asrcOn i.val = false ∧ bitOf v.toNat 0 = false)
    ∧ (∃ (i : Fin 64) (s : State), s.pageTakes asrcPage = true ∧ s.asrcOn i.val = false ∧ s.asrcMates i.val = [])
    ∧ (∃ (i : Fin 64) (s : State), s.pageTakes asrcPage = true ∧ s.asrcOn i.val = true)
    ∧ (∃ (i : Fin 64) (s : State), s.asrcs[i].stopping = true ∧ s.asrcs[i].glide.left = 0)
    ∧ (∃ (i : Fin 64) (s : State), s.asrcOn i.val = true ∧ s.asrcState i.val = .acquiring ∧ s.asrcMates i.val = [i.val]) := by
  refine ⟨⟨26, 0x81234567, (awake.setFld (Fd.ASRC_CH_CFG_ENABLE (26 : Fin 64).val) 1), ?_⟩,
    ⟨26, 0x0000003E, (awake.setFld (Fd.ASRC_CH_CFG_ENABLE (26 : Fin 64).val) 0), ?_⟩,
    ⟨26, (awake.setFld (Fd.ASRC_CH_CFG_ENABLE (26 : Fin 64).val) 0), ?_⟩,
    ⟨26, (awake.setFld (Fd.ASRC_CH_CFG_ENABLE (26 : Fin 64).val) 1), ?_⟩,
    ⟨26, (awake.updAsrc ((26 : Fin 64)) fun q => { q with stopping := true }), ?_⟩,
    ⟨26, ((awake.setFld (Fd.ASRC_CH_CFG_ENABLE (26 : Fin 64).val) 1).setFld (Fd.ASRC_CH_STAT_STATE (26 : Fin 64).val)
      (AsrcState.code .acquiring)), ?_⟩⟩ <;>
    decide +kernel

theorem witness_InputStateCommands :
    (∃ (n : Fin 16) (s : State), s.pageTakes (ainPage n) = true ∧ s.flag (Fd.AIN_CTRL_ENABLE n) = false ∧ s.ains[n].diag =
      none ∧ s.ainState n = .off)
    ∧ (∃ (n : Fin 16) (s : State), s.pageTakes (ainPage n) = true ∧ s.flag (Fd.AIN_CTRL_ENABLE n) = true ∧ s.ains[n].diag =
      none ∧ s.ainState n = .ready)
    ∧ (∃ (n : Fin 16) (s : State), s.pageTakes (ainPage n) = true ∧ s.flag (Fd.AIN_CTRL_ENABLE n) = true ∧ s.ains[n].diag =
      none ∧ s.ainState n = .starting)
    ∧ (∃ (n : Fin 16) (s : State), s.pageTakes (ainPage n) = true ∧ s.ains[n].diag = none ∧ s.ainState n ≠ .ready)
    ∧ (∃ (n : Fin 16) (s : State), s.pageTakes (ainPage n) = true ∧ s.ains[n].diag = none ∧ s.ainState n = .ready ∧
      s.ains[n].phase = .opened)
    ∧ (∃ (n : Fin 16) (s : State), s.domOn (Dm.AIN (n.val / 4)) = true)
    ∧ (∃ (n : Fin 16) (s : State), s.ainRuns n = true ∧ s.ainState n = .starting ∧ s.ains[n].servo = true ∧ s.ains[n].causes =
      [])
    ∧ (∃ (n : Fin 16) (s : State), s.ainState n = .stopping ∧ s.ains[n].phase = .out 0) := by
  refine ⟨⟨15, (((awake.setFld (Fd.AIN_CTRL_ENABLE (15 : Fin 16)) 0).updAin ((15 : Fin 16)) fun q =>
      { q with diag := none }).setAinState (15 : Fin 16) .off), ?_⟩,
    ⟨15, (((awake.setFld (Fd.AIN_CTRL_ENABLE (15 : Fin 16)) 1).updAin ((15 : Fin 16)) fun q =>
      { q with diag := none }).setAinState (15 : Fin 16) .ready), ?_⟩,
    ⟨15, (((awake.setFld (Fd.AIN_CTRL_ENABLE (15 : Fin 16)) 1).updAin ((15 : Fin 16)) fun q =>
      { q with diag := none }).setAinState (15 : Fin 16) .starting), ?_⟩,
    ⟨15, (awake.updAin ((15 : Fin 16)) fun q => { q with diag := none }), ?_⟩,
    ⟨15, (((awake.updAin ((15 : Fin 16)) fun q => { q with diag := none }).setAinState (15 : Fin 16) .ready).updAin ((15 : Fin
      16)) fun q => { q with phase := .opened }), ?_⟩,
    ⟨15, awake, ?_⟩,
    ⟨15, (((awake.setAinState (15 : Fin 16) .starting).updAin ((15 : Fin 16)) fun q => { q with servo := true }).updAin ((15 :
      Fin 16)) fun q => { q with causes := [] }), ?_⟩,
    ⟨15, ((awake.setAinState (15 : Fin 16) .stopping).updAin ((15 : Fin 16)) fun q => { q with phase := .out 0 }), ?_⟩⟩ <;>
    decide +kernel

theorem witness_InputSignalCommands :
    (∃ (n : Fin 16) (v : Word) (s : State), s.pageTakes (ainPage n) = true ∧ s.ainState n ≠ .ready ∧ (s.store (Adr.AIN_GAIN n)
      v.toNat).fld (Fd.AIN_GAIN_PREAMP n) ≠ s.fld (Fd.AIN_GAIN_PREAMP n))
    ∧ (∃ (n : Fin 16) (v : Word) (s : State), s.pageTakes (ainPage n) = true ∧ s.ainState n = .ready ∧ s.ains[n].phase =
      .opened ∧ (s.store (Adr.AIN_GAIN n) v.toNat).fld (Fd.AIN_GAIN_PREAMP n) ≠ s.fld (Fd.AIN_GAIN_PREAMP n))
    ∧ (∃ (n : Fin 16) (s : State), s.flag (Fd.AIN_STATUS_STEP_PEND n) = true ∧ s.msTicks (s.fld (Fd.AIN_ZC_TIMEOUT n)) ≤
      s.ains[n].waited)
    ∧ (∃ (n : Fin 16) (s : State), s.domOn (Dm.AIN (n.val / 4)) = true ∧ s.ains[n].diag = none ∧ MuteCause.diag ∉
      s.ains[n].causes ∧ s.flag (Fd.AIN_STATUS_CM_EXC n) = false ∧ s.flag (Fd.AIN_CTRL_CM_MUTE n) = false)
    ∧ (∃ (n : Fin 16) (s : State), s.domOn (Dm.AIN (n.val / 4)) = true ∧ s.ains[n].diag = none ∧ MuteCause.diag ∉
      s.ains[n].causes ∧ s.flag (Fd.AIN_STATUS_CM_EXC n) = false ∧ s.flag (Fd.AIN_CTRL_CM_MUTE n) = true)
    ∧ (∃ (n : Fin 16) (s : State), s.flag (Fd.AIN_STATUS_CM_EXC n) = true)
    ∧ (∃ (n : Fin 16) (s : State), s.ainState n = .ready ∧ s.ains[n].phase = .out 0 ∧ s.ains[n].causes ≠ [])
    ∧ (∃ (n : Fin 16) (s : State), s.ains[n].pad = s.flag (Fd.AIN_CTRL_MODE n) ∧ s.micMoves n = false)
    ∧ (∃ (n : Fin 16) (s : State), s.ains[n].diag = none ∧ s.hostInjects n = false)
    ∧ (∃ (n : Fin 16) (c : MuteCause) (s : State), s.ainState n = .ready ∧ s.ains[n].causes = [c] ∧ s.ains[n].phase = .silent)
    ∧ (∃ (n : Fin 16) (s : State), s.ains[n].phase = .into 0)
    ∧ (∃ (n : Fin 16) (s : State), s.flag (Fd.AIN_STATUS_PATH n) = true ∧ s.flag (Fd.AIN_CTRL_LG_ONLY n) = false)
    ∧ (∃ (n : Fin 16) (s : State), s.pageTakes (ainPage n) = true) := by
  refine ⟨⟨15, 0x81234567, awake, ?_⟩,
    ⟨15, 0x81234567, ((awake.setAinState (15 : Fin 16) .ready).updAin ((15 : Fin 16)) fun q => { q with phase := .opened }),
      ?_⟩,
    ⟨15, ((awake.setFld (Fd.AIN_STATUS_STEP_PEND (15 : Fin 16)) 1).updAin (15 : Fin 16) fun q => { q with waited := 10^7 }),
      ?_⟩,
    ⟨15, (((awake.updAin ((15 : Fin 16)) fun q => { q with diag := none }).setFld (Fd.AIN_STATUS_CM_EXC (15 : Fin 16))
      0).setFld (Fd.AIN_CTRL_CM_MUTE (15 : Fin 16)) 0), ?_⟩,
    ⟨15, (((awake.updAin ((15 : Fin 16)) fun q => { q with diag := none }).setFld (Fd.AIN_STATUS_CM_EXC (15 : Fin 16))
      0).setFld (Fd.AIN_CTRL_CM_MUTE (15 : Fin 16)) 1), ?_⟩,
    ⟨15, (awake.setFld (Fd.AIN_STATUS_CM_EXC (15 : Fin 16)) 1), ?_⟩,
    ⟨15, (((awake.setAinState (15 : Fin 16) .ready).updAin ((15 : Fin 16)) fun q => { q with phase := .out 0 }).updAin (15 :
      Fin 16) fun q => { q with causes := [.mode] }), ?_⟩,
    ⟨15, (awake |> fun (s : State) => s.updAin ((15 : Fin 16)) fun q =>
      { q with pad := s.flag (Fd.AIN_CTRL_MODE (15 : Fin 16)) }), ?_⟩,
    ⟨15, (awake.updAin ((15 : Fin 16)) fun q => { q with diag := none }), ?_⟩,
    ⟨15, .phantom, (((awake.setAinState (15 : Fin 16) .ready).updAin ((15 : Fin 16)) fun q =>
      { q with causes := [(.phantom : MuteCause)] }).updAin ((15 : Fin 16)) fun q => { q with phase := .silent }), ?_⟩,
    ⟨15, (awake.updAin ((15 : Fin 16)) fun q => { q with phase := .into 0 }), ?_⟩,
    ⟨15, ((awake.setFld (Fd.AIN_STATUS_PATH (15 : Fin 16)) 1).setFld (Fd.AIN_CTRL_LG_ONLY (15 : Fin 16)) 0), ?_⟩,
    ⟨15, awake, ?_⟩⟩ <;>
    decide +kernel

theorem witness_PhantomCommands :
    (∃ (n : Fin 16) (s : State), s.pageTakes (ainPage n) = true ∧ s.flag (Fd.AIN_PHANTOM_PH_EN n) = false ∧ s.ains[n].diag =
      none ∧ s.phState n = .off ∧ s.domOn Dm.PLL = true)
    ∧ (∃ (n : Fin 16) (s : State), s.pageTakes (ainPage n) = true ∧ s.flag (Fd.AIN_PHANTOM_PH_EN n) = false ∧ s.ains[n].diag =
      none ∧ s.phState n = .off ∧ s.domOn Dm.PLL = false)
    ∧ (∃ (n : Fin 16) (s : State), s.phState n = .off ∧ s.routed n = false ∧ s.reservedMa + s.fld (Fd.AIN_PHANTOM_RESERVE n) ≤
      80)
    ∧ (∃ (n : Fin 16) (s : State), s.phState n = .off ∧ 80 < s.reservedMa + s.fld (Fd.AIN_PHANTOM_RESERVE n))
    ∧ (∃ (n : Fin 16) (s : State), s.pageTakes (ainPage n) = true ∧ s.flag (Fd.AIN_PHANTOM_PH_EN n) = true ∧ s.ains[n].diag =
      none ∧ s.phState n = .on)
    ∧ (∃ (n : Fin 16) (s : State), (s.phState n = .rampUp ∨ s.phState n = .rampDown))
    ∧ (∃ (n : Fin 16) (s : State), (s.phState n = .overload ∨ s.phState n = .folded) ∧ s.ains[n].removing = true)
    ∧ (∃ (n : Fin 16) (s : State), s.phState n = .settle ∧ s.ains[n].phUp = true)
    ∧ (∃ (n : Fin 16) (s : State), s.phState n = .settle ∧ s.ains[n].phUp = false)
    ∧ (∃ (n : Fin 16) (s : State), s.phLive n = true ∧ s.ains[n].diag = none)
    ∧ (∃ (n : Fin 16) (s : State), s.foldNext = some n ∧ s.ains[n].diag = none)
    ∧ (∃ (s : State), s.foldNext = none) := by
  refine ⟨⟨15, (((awake.setFld (Fd.AIN_PHANTOM_PH_EN (15 : Fin 16)) 0).updAin ((15 : Fin 16)) fun q =>
      { q with diag := none }).setPh (15 : Fin 16) .off), ?_⟩,
    ⟨15, ((((awake.setFld (Fd.AIN_PHANTOM_PH_EN (15 : Fin 16)) 0).updAin ((15 : Fin 16)) fun q =>
      { q with diag := none }).setPh (15 : Fin 16) .off).updDom Dm.PLL fun (q : Dom) => { q with phase := .off }), ?_⟩,
    ⟨15, (awake.setPh (15 : Fin 16) .off), ?_⟩,
    ⟨15, ((awake.setPh (15 : Fin 16) .off) |> fun (s : State) => (List.finRange 16).foldl (fun t m => if m = (15 : Fin 16)
      then t.setFld (Fd.AIN_PHANTOM_RESERVE m) 14 else (t.setPh m .on).setFld (Fd.AIN_PHANTOM_RESERVE m) 14) s), ?_⟩,
    ⟨15, (((awake.setFld (Fd.AIN_PHANTOM_PH_EN (15 : Fin 16)) 1).updAin ((15 : Fin 16)) fun q =>
      { q with diag := none }).setPh (15 : Fin 16) .on), ?_⟩,
    ⟨15, (awake.setPh (15 : Fin 16) .rampUp), ?_⟩,
    ⟨15, ((awake.updAin ((15 : Fin 16)) fun q => { q with removing := true }).setPh (15 : Fin 16) .folded), ?_⟩,
    ⟨15, ((awake.setPh (15 : Fin 16) .settle).updAin ((15 : Fin 16)) fun q => { q with phUp := true }), ?_⟩,
    ⟨15, ((awake.setPh (15 : Fin 16) .settle).updAin ((15 : Fin 16)) fun q => { q with phUp := false }), ?_⟩,
    ⟨15, ((awake.updAin ((15 : Fin 16)) fun q => { q with diag := none }).setPh (15 : Fin 16) .on), ?_⟩,
    ⟨0, (((awake.updAin ((0 : Fin 16)) fun q => { q with diag := none }) |> fun (s : State) => (List.finRange 16).foldl (fun t
      m => t.setPh m .off) s).setPh (0 : Fin 16) .on), ?_⟩,
    ⟨(awake |> fun (s : State) => (List.finRange 16).foldl (fun t m => t.setPh m .off) s), ?_⟩⟩ <;>
    decide +kernel

theorem witness_DiagnosisCommands :
    (∃ (n : Fin 16) (s : State), s.pageTakes (ainPage n) = true ∧ s.ains[n].diag = none)
    ∧ (∃ (n : Fin 16) (cls : Bool) (k : Nat) (s : State), s.tdacQ.head? = some (k, .diag n cls) ∧ s.ainRuns n = true ∧
      s.tdacFree = true)
    ∧ (∃ (n : Fin 16) (legs : Nat) (s : State), s.ains[n].diag = some ⟨false, legs, 0, false⟩ ∧ s.ains[n].fading = false ∧
      bitOf legs 0 = true)
    ∧ (∃ (n : Fin 16) (lim : Bool) (s : State), s.ains[n].diag = some ⟨false, 1, 1, lim⟩ ∧ s.ains[n].fading = false)
    ∧ (∃ (n : Fin 16) (e : Diag) (s : State), s.ains[n].diag = some e ∧ e.cls = false ∧ s.tdacOwner = none) := by
  refine ⟨⟨15, (awake.updAin ((15 : Fin 16)) fun q => { q with diag := none }), ?_⟩,
    ⟨15, true, 3, ((awake |> fun (s : State) =>
      { s with tdacQ := [(3, .diag (15 : Fin 16) (true : Bool))], tdacOwner := none }).setFld Fd.HKA_STATUS_READY 1), ?_⟩,
    ⟨15, 3, (awake.updAin ((15 : Fin 16)) fun q => { q with diag := some ⟨false, (3 : Nat), 0, false⟩ }), ?_⟩,
    ⟨15, true, (awake.updAin ((15 : Fin 16)) fun q => { q with diag := some ⟨false, 1, 1, (true : Bool)⟩ }), ?_⟩,
    ⟨15, ⟨false, 3, 2, false⟩, ((awake.updAin ((15 : Fin 16)) fun q => { q with diag := some (⟨false, 3, 2, false⟩ : Diag) })
      |> fun (s : State) => { s with tdacOwner := none }), ?_⟩⟩ <;>
    decide +kernel

theorem witness_OutputStateCommands :
    (∃ (n : Fin 16) (s : State), s.pageTakes (aoutPage n) = true ∧ s.flag (Fd.AOUT_CTRL_ENABLE n) = false ∧ s.outState (.line
      n) = .off)
    ∧ (∃ (h : Fin 4) (s : State), s.pageTakes (hpPage h) = true ∧ s.flag (Fd.HP_CTRL_ENABLE h) = false ∧ s.outState (.hp h) =
      .off ∧ s.flag (Fd.HP_STATUS_CP_OK h) = false)
    ∧ (∃ (h : Fin 4) (s : State), s.pageTakes (hpPage h) = true ∧ s.flag (Fd.HP_CTRL_ENABLE h) = false ∧ s.outState (.hp h) =
      .off ∧ s.flag (Fd.HP_STATUS_CP_OK h) = true)
    ∧ (∃ (o : OutId) (s : State), s.pageTakes (outPage o) = true ∧ s.flag (outEnableFld o) = true ∧ s.outState o = .ready)
    ∧ (∃ (n : Fin 16) (s : State), s.pageTakes (aoutPage n) = true ∧ s.flag (Fd.AOUT_CTRL_ENABLE n) = true ∧ s.outState (.line
      n) = .starting)
    ∧ (∃ (n : Fin 16) (s : State), s.outUp (.line n) = true ∧ s.outState (.line n) = .starting ∧ s.outStep (.line n) = .ramp)
    ∧ (∃ (s : State), s.domOn Dm.HP = true ∧ s.cpOn = true ∧ s.flag (Fd.HP_STATUS_CP_OK 0) = false)
    ∧ (∃ (n : Fin 16) (s : State), s.outUp (.line n) = true ∧ s.outState (.line n) = .starting ∧ s.outStep (.line n) =
      .settle)
    ∧ (∃ (h : Fin 4) (s : State), s.outUp (.hp h) = true ∧ s.outState (.hp h) = .starting ∧ s.outStep (.hp h) = .settle)
    ∧ (∃ (n : Fin 16) (s : State), s.outState (.line n) = .stopping ∧ s.outStep (.line n) = .glide ∧ (s.gainAt (Adr.AOUT_GAIN
      n)).left = 0)
    ∧ (∃ (h : Fin 4) (s : State), s.outState (.hp h) = .stopping ∧ s.outStep (.hp h) = .glide ∧ (s.gainAt (Adr.HP_GAIN h
      0)).left = 0 ∧ (s.gainAt (Adr.HP_GAIN h 1)).left = 0)
    ∧ (∃ (n : Fin 16) (s : State), s.outState (.line n) = .stopping ∧ s.outStep (.line n) = .down ∧ s.flag
      (Fd.AOUT_CTRL_ENABLE n) = false ∧ s.holds (· == Adr.AOUT_CTRL n) = false)
    ∧ (∃ (s : State), s.cpOn = true ∧ (∀ h : Fin 4, s.outState (.hp h) = .off)) := by
  refine ⟨⟨15, ((awake.setFld (Fd.AOUT_CTRL_ENABLE (15 : Fin 16)) 0).setOutState (.line (15 : Fin 16)) .off), ?_⟩,
    ⟨3, (((awake.setFld (Fd.HP_CTRL_ENABLE (3 : Fin 4)) 0).setOutState (.hp (3 : Fin 4)) .off).setFld (Fd.HP_STATUS_CP_OK (3 :
      Fin 4)) 0), ?_⟩,
    ⟨3, (((awake.setFld (Fd.HP_CTRL_ENABLE (3 : Fin 4)) 0).setOutState (.hp (3 : Fin 4)) .off).setFld (Fd.HP_STATUS_CP_OK (3 :
      Fin 4)) 1), ?_⟩,
    ⟨.line 15, ((awake.setFld (outEnableFld (.line 15 : OutId)) 1).setOutState (.line 15 : OutId) .ready), ?_⟩,
    ⟨15, ((awake.setFld (Fd.AOUT_CTRL_ENABLE (15 : Fin 16)) 1).setOutState (.line (15 : Fin 16)) .starting), ?_⟩,
    ⟨15, ((awake.setOutState (.line (15 : Fin 16)) .starting).setOutStep (.line (15 : Fin 16)) .ramp), ?_⟩,
    ⟨((awake |> fun (s : State) => { s with cpOn := true }).setFld (Fd.HP_STATUS_CP_OK 0) 0), ?_⟩,
    ⟨15, ((awake.setOutState (.line (15 : Fin 16)) .starting).setOutStep (.line (15 : Fin 16)) .settle), ?_⟩,
    ⟨3, ((awake.setOutState (.hp (3 : Fin 4)) .starting).setOutStep (.hp (3 : Fin 4)) .settle), ?_⟩,
    ⟨15, ((awake.setOutState (.line (15 : Fin 16)) .stopping).setOutStep (.line (15 : Fin 16)) .glide), ?_⟩,
    ⟨3, ((awake.setOutState (.hp (3 : Fin 4)) .stopping).setOutStep (.hp (3 : Fin 4)) .glide), ?_⟩,
    ⟨15, (((awake.setOutState (.line (15 : Fin 16)) .stopping).setOutStep (.line (15 : Fin 16)) .down).setFld
      (Fd.AOUT_CTRL_ENABLE (15 : Fin 16)) 0), ?_⟩,
    ⟨(awake |> fun (s : State) => { s with cpOn := true }), ?_⟩⟩ <;>
    decide +kernel

theorem witness_OutputFaultCommands :
    (∃ (o : OutId) (s : State), s.outLive o = true)
    ∧ (∃ (n : Fin 16) (s : State), s.outLive (.line n) = true)
    ∧ (∃ (h : Fin 4) (s : State), s.outLive (.hp h) = true ∧ s.outs[outIndex (.hp h)].phase = .opened)
    ∧ (∃ (n : Fin 16) (s : State), s.outLive (.line n) = true)
    ∧ (∃ (s : State), s.cpOn = true)
    ∧ (∃ (h : Fin 4) (s : State), s.outs[outIndex (.hp h)].phase = .out 0)
    ∧ (∃ (h : Fin 4) (s : State), s.outs[outIndex (.hp h)].phase = .into 0)
    ∧ (∃ (h : Fin 4) (s : State), s.pageTakes (hpPage h) = true)
    ∧ (∃ (h : Fin 4) (s : State), s.flag (Fd.HP_CTRL_MIC_EN h) = false)
    ∧ (∃ (h : Fin 4) (s : State), s.outUp (.hp h) = true ∧ s.flag (Fd.HP_CTRL_MIC_BIAS h) = true ∧ s.flag
      (Fd.JACK_JSTAT_INSERTED (hpJack h)) = true ∧ s.fld (Fd.HP_STATUS_BUTTON h) = 0)
    ∧ (∃ (h : Fin 4) (b : Fin 4) (s : State), s.fld (Fd.HP_STATUS_BUTTON h) = 2 ^ b.val) := by
  refine ⟨⟨.line 15, (awake.setOutState (.line 15 : OutId) .ready), ?_⟩,
    ⟨15, (awake.setOutState (.line (15 : Fin 16)) .ready), ?_⟩,
    ⟨3, ((awake.updOut (.hp (3 : Fin 4)) fun q => { q with phase := .opened }).setOutState (.hp (3 : Fin 4)) .ready), ?_⟩,
    ⟨15, (awake.setOutState (.line (15 : Fin 16)) .ready), ?_⟩,
    ⟨(awake |> fun (s : State) => { s with cpOn := true }), ?_⟩,
    ⟨3, (awake.updOut (.hp (3 : Fin 4)) fun q => { q with phase := .out 0 }), ?_⟩,
    ⟨3, (awake.updOut (.hp (3 : Fin 4)) fun q => { q with phase := .into 0 }), ?_⟩,
    ⟨3, awake, ?_⟩,
    ⟨3, (awake.setFld (Fd.HP_CTRL_MIC_EN (3 : Fin 4)) 0), ?_⟩,
    ⟨3, (((awake.setFld (Fd.HP_CTRL_MIC_BIAS (3 : Fin 4)) 1).setFld (Fd.JACK_JSTAT_INSERTED (hpJack (3 : Fin 4))) 1).setFld
      (Fd.HP_STATUS_BUTTON (3 : Fin 4)) (0)), ?_⟩,
    ⟨3, 3, (awake.setFld (Fd.HP_STATUS_BUTTON (3 : Fin 4)) (2 ^ (3 : Fin 4).val)), ?_⟩⟩ <;>
    decide +kernel

theorem witness_JackCommands :
    (∃ (j : Fin 20) (s : State), s.jackSenses = true ∧ s.flag (Fd.JACK_JSTAT_INSERTED j) = false ∧ s.jackPresent j = true ∧
      s.inService = false)
    ∧ (∃ (j : Fin 20) (s : State), s.jackSenses = true ∧ s.flag (Fd.JACK_JSTAT_INSERTED j) = false ∧ s.jackPresent j = true ∧
      s.inService = true ∧ s.svcUp = true ∧ s.flag (Fd.JACK_JCFG_CLS_EN j) = true ∧ 16 ≤ j.val)
    ∧ (∃ (j : Fin 20) (s : State), s.jackSenses = true ∧ s.flag (Fd.JACK_JSTAT_INSERTED j) = true ∧ s.jackPresent j = false ∧
      j.val < 16)
    ∧ (∃ (j : Fin 20) (r : PoleReading) (s : State), s.tdacOwner = some (.jack j) ∧ s.jacks[j].step = .poleTest ∧
      s.jacks[j].stale = none ∧ s.svcUp = true ∧ poleKind r = none)
    ∧ (∃ (j : Fin 20) (r : PoleReading) (k : PoleKind) (s : State), s.tdacOwner = some (.jack j) ∧ s.jacks[j].step = .poleTest
      ∧ s.jacks[j].stale = none ∧ s.svcUp = true ∧ poleKind r = some k)
    ∧ (∃ (j : Fin 20) (k : PoleKind) (s : State), 16 ≤ j.val ∧ s.outs[outIndex (.hp (Fin.ofNat 4 (j.val - 16)))].phase =
      .silent ∧ s.tdacOwner = some (.jack j) ∧ s.jacks[j].step = .loadTest k ∧ s.jacks[j].stale = none ∧ s.svcUp = true ∧
      s.outState (.hp (Fin.ofNat 4 (j.val - 16))) = .ready)
    ∧ (∃ (r : Fin 64) (s : State), s.flushParams.flag (Fd.JACK_RULE_A_ENABLE r) = true ∧ r.val ∉ s.flushParams.jackFired ∧
      s.flushParams.jackTrig.any (s.flushParams.ruleMatch r) = true)
    ∧ (∃ (r : Fin 64) (a : Nat) (p : Nat) (s : State), s.jackFired = [] ∧ s.jackPages = [] ∧ s.ruleTarget r = some (a, p) ∧
      s.pageTakes p = true ∧ s.fld ⟨a, 15, 0⟩ ≠ s.fld (Fd.JACK_RULE_B_GAIN r))
    ∧ (∃ (r : Fin 64) (a : Nat) (p : Nat) (s : State), s.ruleTarget r = some (a, p) ∧ s.pageOn p = false) := by
  refine ⟨⟨19, (((awake.setFld (Fd.JACK_JSTAT_INSERTED (19 : Fin 20)) 0) |> fun (s : State) => (s.updJack (19 : Fin 20) fun q =>
      { q with high := true }).setFld (Fd.JACK_JCFG_POLARITY (19 : Fin 20)) 1).setFld Fd.SYS_MODE_MODE 0), ?_⟩,
    ⟨19, ((((awake.setFld (Fd.JACK_JSTAT_INSERTED (19 : Fin 20)) 0).setFld (Fd.JACK_JCFG_CLS_EN (19 : Fin 20)) 1) |> fun (s :
      State) => (s.updJack (19 : Fin 20) fun q => { q with high := true }).setFld (Fd.JACK_JCFG_POLARITY (19 : Fin 20))
      1).setFld Fd.SYS_MODE_MODE 1), ?_⟩,
    ⟨15, ((awake.setFld (Fd.JACK_JSTAT_INSERTED (15 : Fin 20)) 1) |> fun (s : State) => (s.updJack (15 : Fin 20) fun q =>
      { q with high := false }).setFld (Fd.JACK_JCFG_POLARITY (15 : Fin 20)) 1), ?_⟩,
    ⟨19, ⟨5000, 100, 100⟩, (((awake |> fun (s : State) => { s with tdacOwner := some (.jack (19 : Fin 20)) }).updJack ((19 :
      Fin 20)) fun q => { q with step := .poleTest }).updJack ((19 : Fin 20)) fun q => { q with stale := none }), ?_⟩,
    ⟨19, ⟨5, 100, 100⟩, .three, (((awake |> fun (s : State) => { s with tdacOwner := some (.jack (19 : Fin 20)) }).updJack
      ((19 : Fin 20)) fun q => { q with step := .poleTest }).updJack ((19 : Fin 20)) fun q => { q with stale := none }), ?_⟩,
    ⟨19, .three, (((((awake.updOut (.hp (Fin.ofNat 4 ((19 : Fin 20).val - 16))) fun q => { q with phase := .silent }) |> fun
      (s : State) => { s with tdacOwner := some (.jack (19 : Fin 20)) }).updJack ((19 : Fin 20)) fun q =>
      { q with step := .loadTest (.three : PoleKind) }).updJack ((19 : Fin 20)) fun q => { q with stale := none }).setOutState
      (.hp (Fin.ofNat 4 ((19 : Fin 20).val - 16))) .ready), ?_⟩,
    ⟨63, (((((awake |> fun (s : State) =>
      { s with jackTrig := [(7, .classified 3)], jackFired := [], tickWrites := [] }).setFld (Fd.JACK_RULE_A_ENABLE (63 : Fin
      64)) 1).setFld (Fd.JACK_RULE_A_MASK (63 : Fin 64)) 8).setFld (Fd.JACK_RULE_A_JACK (63 : Fin 64)) 7).setFld
      (Fd.JACK_RULE_A_TRIGGER (63 : Fin 64)) 2), ?_⟩,
    ⟨63, Adr.AOUT_GAIN 15, aoutPage 15, ((((((awake |> fun (s : State) => { s with jackFired := [] }) |> fun (s : State) =>
      { s with jackPages := [] }).setFld (Fd.JACK_RULE_B_KIND (63 : Fin 64)) 1).setFld (Fd.JACK_RULE_B_TARGET (63 : Fin 64))
      0xF).setFld (Fd.JACK_RULE_B_GAIN (63 : Fin 64)) 5) |> fun (s : State) => { s with jackFired := [], jackPages := [] }),
      ?_⟩,
    ⟨63, Adr.AOUT_GAIN 15, aoutPage 15, (((awake.updDom ((pageDomain (aoutPage 15 : Nat)).getD 0) fun (q : Dom) =>
      { q with phase := .off }).setFld (Fd.JACK_RULE_B_KIND (63 : Fin 64)) 1).setFld (Fd.JACK_RULE_B_TARGET (63 : Fin 64))
      0xF), ?_⟩⟩ <;>
    decide +kernel

theorem witness_FabricStateCommands :
    (∃ (p : Fin 4) (b : Bool) (q : Piste) (s : State), s.TakesWrite p fabPage Adr.FAB_CTRL ∧ s.fabState = .stopped ∧ s.flag
      Fd.FAB_CTRL_RUN = false ∧ s.fld Fd.SYS_MODE_MODE ≠ 2 ∧ s.pisteIn (bit b) = some q ∧ (admission none q 0).cost ≤
      s.fabLimit ∧ s.linesNeed q ≤ s.granFree)
    ∧ (∃ (p : Fin 4) (b : Bool) (s : State), s.TakesWrite p fabPage Adr.FAB_CTRL ∧ s.fabState = .stopped ∧ s.flag
      Fd.FAB_CTRL_RUN = false ∧ s.pisteIn (bit b) = none)
    ∧ (∃ (p : Fin 4) (s : State), s.TakesWrite p fabPage Adr.FAB_CTRL ∧ s.fabState ≠ .stopped)
    ∧ (∃ (s : State), s.fab.runNext = some false ∧ s.fabState = .running ∧ s.flag Fd.FAB_STAT_XOVER_ACTIVE = false)
    ∧ (∃ (s : State), s.fab.runNext = some false ∧ s.fabState = .starting ∧ s.tickWrites = [])
    ∧ (∃ (s : State), s.fabState = .stopping ∧ s.fab.glide.left = 0 ∧ s.flag Fd.FAB_CTRL_RUN = false ∧ s.fab.runNext = none ∧
      s.tickWrites = []) := by
  refine ⟨⟨3, true, ⟨0, [⟨true, 0, 0, []⟩]⟩, (((((awake.setFabState .stopped).setFld Fd.FAB_CTRL_RUN 0) |> fun (s : State) =>
      [0x50495354, 0x01000001, 1, 0, 0, 0, 0, 0, 0x80000000].zipIdx.foldl (fun (t : State) (x : Nat × Nat) => t.setMemWord
      (pisteBase (1) + 4 * x.2) (word x.1)) s).setFld Fd.SYS_MODE_MODE 0) |> fun (s : State) => { s with dlines := [] }), ⟨?_,
      ?_, ?_, ?_⟩, ?_, ?_, ?_, ?_, ?_, ?_⟩,
    ⟨3, false, ((awake.setFabState .stopped).setFld Fd.FAB_CTRL_RUN 0), ⟨?_, ?_, ?_, ?_⟩, ?_, ?_, ?_⟩,
    ⟨3, (awake.setFabState .running), ⟨?_, ?_, ?_, ?_⟩, ?_⟩,
    ⟨(((awake |> fun (s : State) => { s with fab := { s.fab with runNext := some false } }).setFabState .running).setFld
      Fd.FAB_STAT_XOVER_ACTIVE 0), ?_⟩,
    ⟨(((awake |> fun (s : State) => { s with fab := { s.fab with runNext := some false } }).setFabState .starting) |> fun (s :
      State) => { s with tickWrites := [] }), ?_⟩,
    ⟨((((awake.setFabState .stopping).setFld Fd.FAB_CTRL_RUN 0) |> fun (s : State) =>
      { s with fab := { s.fab with runNext := none } }) |> fun (s : State) => { s with tickWrites := [] }), ?_⟩⟩ <;>
    decide +kernel

theorem witness_PisteCommands :
    (∃ (p : Fin 4) (addr : Word) (s : State), s.TakesWrite p fabPage (addr.toNat / 4 * 4) ∧ 0x50000000 ≤ addr.toNat ∧
      addr.toNat < 0x50040000 ∧ (addr.toNat - 0x50000000) / 0x20000 ≠ s.runPiste ∧ s.flag Fd.FAB_STAT_IDLE_LOCK = false)
    ∧ (∃ (p : Fin 4) (addr : Word) (s : State), s.pageOn fabPage = true ∧ s.writeHeld p (addr.toNat / 4 * 4) = false ∧
      ((addr.toNat / 4 * 4 - 0x50000000) / 0x20000 = s.runPiste ∨ s.flag Fd.FAB_STAT_IDLE_LOCK = true))
    ∧ (∃ (p : Fin 4) (s : State), s.TakesWrite p fabPage Adr.FAB_COPY ∧ s.flag Fd.FAB_STAT_IDLE_LOCK = false)
    ∧ (∃ (p : Fin 4) (s : State), s.TakesWrite p fabPage Adr.FAB_COPY ∧ s.flag Fd.FAB_STAT_IDLE_LOCK = true)
    ∧ (∃ (s : State), s.domOn Dm.FAB = true ∧ s.flag Fd.FAB_STAT_COPY_BUSY = true)
    ∧ (∃ (s : State), s.flag Fd.FAB_STAT_XOVER_ACTIVE = true ∧ s.fab.xDone = s.fab.xLen)
    ∧ (∃ (p : Fin 4) (s : State), s.TakesWrite p fabPage Adr.FAB_CHECK)
    ∧ (∃ (a : Option Admission) (s : State), s.domOn Dm.FAB = true ∧ s.fab.check = some a) := by
  refine ⟨⟨3, 0x5003FFFF, (((awake.setFld Fd.FAB_STAT_IDLE_LOCK 0).setFld Fd.FAB_STAT_RUN_PISTE 0).setFld Fd.FAB_STAT_IDLE_LOCK 0),
      ⟨?_, ?_, ?_, ?_⟩, ?_, ?_, ?_, ?_⟩,
    ⟨3, 0x50000002, ((awake.setFld Fd.FAB_STAT_RUN_PISTE 0).setFld Fd.FAB_STAT_IDLE_LOCK 0), ?_⟩,
    ⟨3, ((awake.setFld Fd.FAB_STAT_IDLE_LOCK 0).setBytes (pisteBase 0) (List.replicate 64 0)), ⟨?_, ?_, ?_, ?_⟩, ?_⟩,
    ⟨3, (awake.setFld Fd.FAB_STAT_IDLE_LOCK 1), ⟨?_, ?_, ?_, ?_⟩, ?_⟩,
    ⟨(awake.setFld Fd.FAB_STAT_COPY_BUSY 1), ?_⟩,
    ⟨((awake.setFld Fd.FAB_STAT_XOVER_ACTIVE 1) |> fun (s : State) => { s with fab := { s.fab with xDone := s.fab.xLen } }),
      ?_⟩,
    ⟨3, awake, ⟨?_, ?_, ?_, ?_⟩⟩,
    ⟨some ⟨[1], 70000, 6, [(1,2)]⟩, (awake |> fun (s : State) =>
      { s with fab := { s.fab with check := some (some ⟨[1], 70000, 6, [(1,2)]⟩ : Option Admission) } }), ?_⟩⟩ <;>
    decide +kernel

theorem witness_ParameterCommands :
    (∃ (p : Fin 4) (addr : Word) (q : PoolRow) (r : RegRow) (s : State), s.pageOn fabPage = true ∧ s.TakesWrite p (paramPage
      (addr.toNat / 4 * 4)) (addr.toNat / 4 * 4) ∧ poolReg (addr.toNat / 4 * 4) = some (q, r) ∧ r.writable = true ∧
      s.maxlenFixed (addr.toNat / 4 * 4) = false ∧ s.fabState ≠ .stopped)
    ∧ (∃ (p : Fin 4) (addr : Word) (q : PoolRow) (r : RegRow) (s : State), s.pageOn fabPage = true ∧ s.TakesWrite p (paramPage
      (addr.toNat / 4 * 4)) (addr.toNat / 4 * 4) ∧ poolReg (addr.toNat / 4 * 4) = some (q, r) ∧ r.writable = true ∧
      s.maxlenFixed (addr.toNat / 4 * 4) = false ∧ s.fabState = .stopped)
    ∧ (∃ (s : State), s.domOn Dm.FAB = true)
    ∧ (∃ (addr : Word) (s : State), s.domOn Dm.FAB = true ∧ (objectOf (addr.toNat / 4 * 4)).isSome = true ∧ s.maxlenFixed
      (addr.toNat / 4 * 4) = false)
    ∧ (∃ (addr : Word) (s : State), s.domOn Dm.FAB = true ∧ 0x50048000 ≤ addr.toNat ∧ addr.toNat < 0x50050000)
    ∧ (∃ (s : State), s.domOn Dm.FAB = true)
    ∧ (∃ (s : State), s.domOn Dm.FAB = true)
    ∧ (∃ (l : Fin 512) (d : DLine) (s : State), d ∈ s.dlines ∧ d.tap = l.val ∧ d.told = false ∧ d.delay < d.filled)
    ∧ (∃ (g : Fin 16) (s : State), s.fab.gens[g].atEnd = true) := by
  refine ⟨⟨3, 0x50048006, ((poolReg 0x50048004).getD (⟨0,0,0,[]⟩,⟨0,0,0,[]⟩)).1, ((poolReg 0x50048004).getD
      (⟨0,0,0,[]⟩,⟨0,0,0,[]⟩)).2, (awake.setFabState .running), ?_, ⟨?_, ?_, ?_, ?_⟩, ?_, ?_, ?_, ?_⟩,
    ⟨3, 0x50048006, ((poolReg 0x50048004).getD (⟨0,0,0,[]⟩,⟨0,0,0,[]⟩)).1, ((poolReg 0x50048004).getD
      (⟨0,0,0,[]⟩,⟨0,0,0,[]⟩)).2, ((awake.setFabState .stopped).setFabState .stopped), ?_, ⟨?_, ?_, ?_, ?_⟩, ?_, ?_, ?_, ?_⟩,
    ⟨awake, ?_⟩,
    ⟨0x5005400B, (awake |> fun (s : State) => { s with dlines := [] }), ?_⟩,
    ⟨0x5004FFFF, (awake.updFab fun f => { f with biquads := [(1023, ⟨1, 2, 3, 4⟩)] }), ?_⟩,
    ⟨awake, ?_⟩,
    ⟨awake, ?_⟩,
    ⟨1, ⟨1, 8, [1], 0, 9, false, 5, [], 0, 0, false⟩, (awake |> fun (s : State) =>
      { s with dlines := [(⟨1, 8, [1], 0, 9, false, 5, [], 0, 0, false⟩ : DLine), { (⟨1, 8, [1], 0, 9, false, 5, [], 0, 0, false⟩ : DLine) with tap := 9 }] }),
      ?_⟩,
    ⟨15, (awake.updFab fun f => { f with gens := f.gens.set (15 : Fin 16) ⟨1, 2, true, false, 5, 6⟩ }), ?_⟩⟩ <;>
    decide +kernel

theorem witness_TickCommands :
    (∃ (s : State), s.domOn Dm.PLL = true)
    ∧ (∃ (s : State), s.domOn Dm.PLL = false)
    ∧ (∃ (s : State), s.startsNow = true)
    ∧ (∃ (s : State), s.startsNow = true ∧ s.tickWrites = []) := by
  refine ⟨⟨awake, ?_⟩,
    ⟨(awake.updDom Dm.PLL fun (q : Dom) => { q with phase := .off }), ?_⟩,
    ⟨((awake.setFabState .starting).pllTo .locked), ?_⟩,
    ⟨((((awake |> fun (s : State) => { s with tickWrites := [] }).setFabState .starting).pllTo .locked) |> fun (s : State) =>
      { s with tickWrites := [] }), ?_⟩⟩ <;>
    decide +kernel

theorem witness_AmpStateCommands :
    (∃ (n : Fin 4) (s : State), s.pageTakes (ampPage n) = true ∧ s.flag (Fd.AMP_CTRL_ENABLE n) = false ∧ s.ampLeads n = true ∧
      s.ampUp n = true ∧ s.ampState n = .off ∧ s.ampBlock n = none)
    ∧ (∃ (n : Fin 4) (c : AmpCause) (b : Bool) (s : State), s.pageTakes (ampPage n) = true ∧ s.flag (Fd.AMP_CTRL_ENABLE n) =
      false ∧ s.ampLeads n = true ∧ s.ampUp n = true ∧ s.ampState n = .off ∧ s.ampBlock n = some (c, b))
    ∧ (∃ (n : Fin 4) (s : State), s.pageTakes (ampPage n) = true ∧ s.flag (Fd.AMP_CTRL_ENABLE n) = true ∧ s.ampLeads n = true
      ∧ s.ampState n = .running)
    ∧ (∃ (n : Fin 4) (s : State), s.pageTakes (ampPage n) = true ∧ s.flag (Fd.AMP_CTRL_ENABLE n) = true ∧ s.ampLeads n = true
      ∧ s.ampState n = .stopping)
    ∧ (∃ (n : Fin 4) (r : PrecheckReading) (s : State), s.hkaRuns = true ∧ s.ampState n = .starting ∧ s.amps[n].step =
      .precheck ∧ 100 < r.p ∧ 100 < r.n ∧ r.p < (s.pvdd : Int) - 100 ∧ r.n < (s.pvdd : Int) - 100)
    ∧ (∃ (n : Fin 4) (r : PrecheckReading) (s : State), s.hkaRuns = true ∧ s.ampState n = .starting ∧ s.amps[n].step =
      .precheck ∧ ((s.pvdd : Int) - 100 ≤ r.p ∨ (s.pvdd : Int) - 100 ≤ r.n) ∧ 100 < r.p ∧ 100 < r.n)
    ∧ (∃ (n : Fin 4) (r : PrecheckReading) (s : State), s.hkaRuns = true ∧ s.ampState n = .starting ∧ s.amps[n].step =
      .precheck ∧ (r.p ≤ 100 ∨ r.n ≤ 100) ∧ r.p < (s.pvdd : Int) - 100 ∧ r.n < (s.pvdd : Int) - 100)
    ∧ (∃ (n : Fin 4) (s : State), s.ampState n = .starting ∧ s.amps[n].step = .release)
    ∧ (∃ (n : Fin 4) (s : State), s.ampState n = .starting ∧ s.amps[n].step = .idle)
    ∧ (∃ (n : Fin 4) (s : State), s.ampState n = .stopping ∧ s.amps[n].step = .glide ∧ (s.gainAt (Adr.AMP_GAIN n)).left = 0)
    ∧ (∃ (n : Fin 4) (s : State), s.ampState n = .stopping ∧ s.amps[n].step = .half ∧ s.cfgPend = [] ∧ (∀ k : Fin 4, s.flag
      (Fd.AMP_CTRL_ENABLE k) = false)) := by
  refine ⟨⟨3, ((awake.setFld (Fd.AMP_CTRL_ENABLE (3 : Fin 4)) 0).setAmpState (3 : Fin 4) .off), ?_⟩,
    ⟨3, .undervoltage, true, (((awake.setFld (Fd.AMP_CTRL_ENABLE (3 : Fin 4)) 0).setAmpState (3 : Fin 4) .off).setFld
      Fd.AMPSYS_STATUS_UV 1), ?_⟩,
    ⟨3, ((awake.setFld (Fd.AMP_CTRL_ENABLE (3 : Fin 4)) 1).setAmpState (3 : Fin 4) .running), ?_⟩,
    ⟨3, ((awake.setFld (Fd.AMP_CTRL_ENABLE (3 : Fin 4)) 1).setAmpState (3 : Fin 4) .stopping), ?_⟩,
    ⟨3, ⟨101, 2299⟩, ((((awake.setAmpState (3 : Fin 4) .starting).updAmp ((3 : Fin 4)) fun q =>
      { q with step := .precheck }).setFld Fd.HKA_STATUS_READY 1) |> fun (s : State) => { s with pvdd := 2400 }), ?_⟩,
    ⟨3, ⟨2300, 500⟩, ((((awake.setAmpState (3 : Fin 4) .starting).updAmp ((3 : Fin 4)) fun q =>
      { q with step := .precheck }).setFld Fd.HKA_STATUS_READY 1) |> fun (s : State) => { s with pvdd := 2400 }), ?_⟩,
    ⟨3, ⟨500, 100⟩, ((((awake.setAmpState (3 : Fin 4) .starting).updAmp ((3 : Fin 4)) fun q =>
      { q with step := .precheck }).setFld Fd.HKA_STATUS_READY 1) |> fun (s : State) => { s with pvdd := 2400 }), ?_⟩,
    ⟨3, ((awake.setAmpState (3 : Fin 4) .starting).updAmp ((3 : Fin 4)) fun q => { q with step := .release }), ?_⟩,
    ⟨3, ((awake.setAmpState (3 : Fin 4) .starting).updAmp ((3 : Fin 4)) fun q => { q with step := .idle }), ?_⟩,
    ⟨3, ((awake.setAmpState (3 : Fin 4) .stopping).updAmp ((3 : Fin 4)) fun q => { q with step := .glide }), ?_⟩,
    ⟨3, (((awake.setAmpState (3 : Fin 4) .stopping).updAmp ((3 : Fin 4)) fun q => { q with step := .half }) |> fun (s : State)
      => { s with cfgPend := [] }), ?_⟩⟩ <;>
    decide +kernel

theorem witness_AmpFaultCommands :
    (∃ (n : Fin 4) (s : State), s.ampSwitches (s.ampLead n) = false ∧ s.amps[n].stopLeft = 0)
    ∧ (∃ (n : Fin 4) (pos : Nat) (neg : Nat) (s : State), s.ampSwitches (s.ampLead n) = true ∧ 50 * s.fld (Fd.AMP_OCP_PEAK
      (s.ampLead n)) ≤ max pos neg ∧ 16 ≤ ((true :: s.amps[n].hist).take 32 |>.filter id).length)
    ∧ (∃ (n : Fin 4) (s : State), s.ampState n = .retryWait ∧ s.flag (Fd.AMP_CTRL_ENABLE n) = false)
    ∧ (∃ (n : Fin 4) (s : State), s.ampState n = .retryWait ∧ s.flag (Fd.AMP_CTRL_ENABLE n) = true ∧ s.ampBlock n = none)
    ∧ (∃ (n : Fin 4) (s : State), s.ampState n = .running)
    ∧ (∃ (n : Fin 4) (s : State), s.ampLeads n = true ∧ (s.ampState n = .running ∨ s.ampState n = .stopping) ∧ s.ampDcHigh n =
      true) := by
  refine ⟨⟨3, (awake.updAmp ((3 : Fin 4)) fun q => { q with stopLeft := 0 }), ?_⟩,
    ⟨3, 100, 0, (((((awake |> fun (s : State) => (s.setFld Fd.AMPSYS_CFG_PAR01 0).setFld Fd.AMPSYS_CFG_PAR23 0) |> fun (s :
      State) => (s.setFld (Fd.AMP_STATUS_PAIRED (3 : Fin 4)) 0)).setAmpState (3 : Fin 4) .running).setFld (Fd.AMP_OCP_PEAK (3
      : Fin 4)) 2).updAmp (3 : Fin 4) fun q => { q with hist := List.replicate 15 true }), ?_⟩,
    ⟨3, ((awake.setAmpState (3 : Fin 4) .retryWait).setFld (Fd.AMP_CTRL_ENABLE (3 : Fin 4)) 0), ?_⟩,
    ⟨3, ((awake.setAmpState (3 : Fin 4) .retryWait).setFld (Fd.AMP_CTRL_ENABLE (3 : Fin 4)) 1), ?_⟩,
    ⟨3, (awake.setAmpState (3 : Fin 4) .running), ?_⟩,
    ⟨3, ((((awake.setAmpState (3 : Fin 4) .running) |> fun (s : State) => (s.setFld Fd.AMPSYS_CFG_PAR01 0).setFld
      Fd.AMPSYS_CFG_PAR23 0).setFld (Fd.AMP_CFG_VFS (3 : Fin 4)) 90).updAmp (3 : Fin 4) fun q =>
      { q with dc := -(2^30), retry := true }), ?_⟩⟩ <;>
    decide +kernel

theorem witness_SupplyCommands :
    (∃ (s : State), s.hkaRuns = true)
    ∧ (∃ (c : Nat), c < 61)
    ∧ (∃ (raw : Nat) (s : State), s.hkaRuns = true ∧ s.flag Fd.AMPSYS_SAG_EN = true ∧ raw ≤ 0x7FFFFF)
    ∧ (∃ (s : State), s.hkaRuns = true ∧ s.flag Fd.AMPSYS_SAG_EN = false)
    ∧ (∃ (raw : Nat) (s : State), raw % 2048 = 0 ∧ 1740800 ≤ raw ∧ raw ≤ 5632000 ∧ s.fld Fd.AMPSYS_SAG_KNEE * 20480 ≤ raw ∧
      s.sfld Fd.AMPSYS_PVDD_CEILING = 0)
    ∧ (∃ (s : State), s.domOn Dm.HKA = true ∧ (∀ k : Fin 4, s.ampState k = .off) ∧ s.flag Fd.AMPSYS_STATUS_UV = false)
    ∧ (∃ (s : State), s.domOn Dm.HKA = true ∧ s.flag Fd.AMPSYS_STATUS_UV = true ∧ s.sag.seen = true ∧ 1843200 ≤ s.sag.raw ∧
      s.sag.raw ≤ 5427200 ∧ (∀ k : Fin 4, s.ampState k ≠ .suspended))
    ∧ (∃ (s : State), s.domOn Dm.HKA = true ∧ s.flag Fd.HKA_STATUS_READY = false ∧ s.hka.ready = [] ∧ (∀ k : Fin 4, s.ampState
      k ≠ .suspended)) := by
  refine ⟨⟨(awake.setFld Fd.HKA_STATUS_READY 1), ?_⟩,
    ⟨3, ?_⟩,
    ⟨3, ((awake.setFld Fd.AMPSYS_SAG_EN 1).setFld Fd.HKA_STATUS_READY 1), ?_⟩,
    ⟨((awake.setFld Fd.AMPSYS_SAG_EN 0).setFld Fd.HKA_STATUS_READY 1), ?_⟩,
    ⟨2048*1000, ((awake.setSfld Fd.AMPSYS_PVDD_CEILING (0)).setFld Fd.AMPSYS_SAG_KNEE 100), ?_⟩,
    ⟨(awake.setFld Fd.AMPSYS_STATUS_UV 0), ?_⟩,
    ⟨(((awake.setFld Fd.AMPSYS_STATUS_UV 1) |> fun (s : State) => { s with sag := { s.sag with seen := true } }) |> fun (s :
      State) => { s with sag := { s.sag with seen := true, raw := 1843200 } }), ?_⟩,
    ⟨((awake.setFld Fd.HKA_STATUS_READY 0) |> fun (s : State) => { s with hka := { s.hka with ready := [] } }), ?_⟩⟩ <;>
    decide +kernel

theorem witness_ConversionCommands :
    (∃ (x : Fin 3) (s : State), s.hkaRuns = true ∧ s.seqOn 0 = some x ∧ s.hka.seqs[x].due = false)
    ∧ (∃ (x : Fin 3) (s : State), s.flag (Fd.HKSEQ_SEQ_CFG_ENABLE x) = true ∧ s.hka.ready = [] ∧ s.hka.seqs[x].ending = false
      ∧ s.fld (Fd.HKSEQ_SEQ_CFG_FIRST x) + s.fld (Fd.HKSEQ_SEQ_CFG_COUNT x) ≤ s.fld (Fd.HKSEQ_SEQ_STAT_ENTRY x) + 1)
    ∧ (∃ (p : Fin 4) (w : Nat) (b : Bool) (s : State), s.hkaRuns = true ∧ s.hka.urg = some (p, w, b))
    ∧ (∃ (x : Fin 3) (s : State), s.hkaRuns = true ∧ s.seqOn 1 = some x)
    ∧ (∃ (s : State), s.hkaRuns = true ∧ s.flag Fd.HKA_STATUS_CAL_FAIL = false)
    ∧ (∃ (s : State), s.hkaRuns = true ∧ s.flag Fd.HKA_STATUS_CAL_FAIL = false)
    ∧ (∃ (s : State), s.hkaRuns = true ∧ s.fld Fd.HKA_MAINS_SEL = 2 ∧ s.flag Fd.HKA_STATUS_MAINS_LOST = false)
    ∧ (∃ (us : BitVec 16) (s : State), s.hkaRuns = true ∧ s.fld Fd.HKA_MAINS_SEL = 2 ∧ 14286 ≤ us.toNat ∧ us.toNat ≤ 25000) := by
  refine ⟨⟨2, (((((awake |> fun (s : State) => (List.finRange 3).foldl (fun t y => t.setSeqState y seqOff) s).setSeqState (2 : Fin
      3) 3).setFld (Fd.HKSEQ_SEQ_CFG_MODE (2 : Fin 3)) 0).setFld Fd.HKA_STATUS_READY 1).updSeq (2 : Fin 3) fun q =>
      { q with integ := false }), ?_⟩,
    ⟨2, ((awake.setFld (Fd.HKSEQ_SEQ_CFG_ENABLE (2 : Fin 3)) 1) |> fun (s : State) =>
      { s with hka := { s.hka with ready := [] } }), ?_⟩,
    ⟨3, 3, true, ((awake |> fun (s : State) =>
      { s with hka := { s.hka with urg := some ((3 : Fin 4), (3 : Nat), (true : Bool)) } }).setFld Fd.HKA_STATUS_READY 1), ?_⟩,
    ⟨2, (((((awake |> fun (s : State) => (List.finRange 3).foldl (fun t y => t.setSeqState y seqOff) s).setSeqState (2 : Fin
      3) 3).setFld (Fd.HKSEQ_SEQ_CFG_MODE (2 : Fin 3)) 1).setFld Fd.HKA_STATUS_READY 1).updSeq (2 : Fin 3) fun q =>
      { q with integ := true }), ?_⟩,
    ⟨((awake.setFld Fd.HKA_STATUS_CAL_FAIL 0).setFld Fd.HKA_STATUS_READY 1), ?_⟩,
    ⟨((awake.setFld Fd.HKA_STATUS_CAL_FAIL 0).setFld Fd.HKA_STATUS_READY 1), ?_⟩,
    ⟨(((awake.setFld Fd.HKA_MAINS_SEL (2)).setFld Fd.HKA_STATUS_MAINS_LOST 0).setFld Fd.HKA_STATUS_READY 1), ?_⟩,
    ⟨14286, ((awake.setFld Fd.HKA_MAINS_SEL (2)).setFld Fd.HKA_STATUS_READY 1), ?_⟩⟩ <;>
    decide +kernel

theorem witness_SequenceCommands :
    (∃ (x : Fin 3) (s : State), s.seqState x = seqArmed)
    ∧ (∃ (x : Fin 3) (s : State), s.seqState x = seqOff)
    ∧ (∃ (x : Fin 3) (s : State), (s.seqState x = seqWaiting ∨ s.seqState x = seqRunning))
    ∧ (∃ (k : Fin 4) (s : State), s.hkaRuns = true ∧ s.fld (Fd.HKA_TIMER_PERIOD k) ≠ 0 ∧ (∀ x : Fin 3, s.fld
      (Fd.HKSEQ_SEQ_TRIG_SRC x) = k.val))
    ∧ (∃ (k : Fin 4) (s : State), s.hkaRuns = true ∧ (∀ x : Fin 3, s.fld (Fd.HKSEQ_SEQ_TRIG_SRC x) ≠ k.val))
    ∧ (∃ (x : Fin 3) (s : State), s.domOn Dm.HKA = true ∧ s.fld (Fd.HKSEQ_SEQ_TRIG_SRC x) = 4)
    ∧ (∃ (s : State), s.pageTakes hkseqPage = true)
    ∧ (∃ (s : State), s.pageTakes hkseqPage = true)
    ∧ (∃ (x : Fin 3) (s : State), s.pageTakes hkseqPage = true ∧ s.flag (Fd.HKSEQ_SEQ_CFG_ENABLE x) = false ∧ s.seqState x =
      seqOff ∧ (s.setFld (Fd.HKSEQ_SEQ_CFG_ENABLE x) 1).seqValid x = true)
    ∧ (∃ (x : Fin 3) (s : State), s.pageTakes hkseqPage = true ∧ s.flag (Fd.HKSEQ_SEQ_CFG_ENABLE x) = false ∧ s.seqState x =
      seqOff ∧ (s.setFld (Fd.HKSEQ_SEQ_CFG_ENABLE x) 1).seqValid x = false)
    ∧ (∃ (x : Fin 3) (s : State), s.pageTakes hkseqPage = true ∧ s.flag (Fd.HKSEQ_SEQ_CFG_ENABLE x) = true ∧ s.seqState x ≠
      seqRunning ∧ s.cfgPend = [])
    ∧ (∃ (x : Fin 3) (s : State), s.hkaRuns = true ∧ s.seqState x = seqWaiting ∧ s.hka.ready = [] ∧ s.seqOn (s.fld
      (Fd.HKSEQ_SEQ_CFG_MODE x)) = none ∧ s.pipeBusy = false ∧ s.fld (Fd.HKSEQ_SEQ_CFG_COUNT x) ≠ 0 ∧ chanReserved (s.fld
      (Fd.HKSEQ_ENTRY_CHAN (s.fld (Fd.HKSEQ_SEQ_CFG_FIRST x)))) = false)
    ∧ (∃ (p : Fin 4) (v : Word) (s : State), s.TakesWrite p hkaPage Adr.HKA_URGENT ∧ bitOf v.toNat 31 = true ∧ s.hka.urg =
      none ∧ bitsAt v.toNat 0 6 < 0x3D)
    ∧ (∃ (p : Fin 4) (v : Word) (s : State), s.TakesWrite p hkaPage Adr.HKA_URGENT ∧ bitOf v.toNat 31 = true ∧
      s.hka.urg.isSome = true)
    ∧ (∃ (q : Fin 4) (s : State), s.pageOn hkseqPage = true ∧ (s.ring (20 + q)).fill ≠ 0)
    ∧ (∃ (q : Fin 4) (s : State), s.pageOn hkseqPage = true ∧ (s.ring (20 + q)).fill = 0)
    ∧ (∃ (s : State), s.pageOn hkseqPage = true) := by
  refine ⟨⟨2, (awake.setSeqState (2 : Fin 3) seqArmed), ?_⟩,
    ⟨2, (awake.setSeqState (2 : Fin 3) seqOff), ?_⟩,
    ⟨2, (awake.setSeqState (2 : Fin 3) seqWaiting), ?_⟩,
    ⟨0, (((awake.setFld Fd.HKA_STATUS_READY 1).setFld (Fd.HKA_TIMER_PERIOD (0 : Fin 4)) 9) |> fun (s : State) =>
      (List.finRange 3).foldl (fun t y => t.setFld (Fd.HKSEQ_SEQ_TRIG_SRC y) (0 : Fin 4).val) s), ?_⟩,
    ⟨0, (((awake.setFld Fd.HKA_STATUS_READY 1).setFld (Fd.HKA_TIMER_PERIOD (0 : Fin 4)) 9) |> fun (s : State) =>
      (List.finRange 3).foldl (fun t y => t.setFld (Fd.HKSEQ_SEQ_TRIG_SRC y) 5) s), ?_⟩,
    ⟨2, (awake.setFld (Fd.HKSEQ_SEQ_TRIG_SRC (2 : Fin 3)) (4)), ?_⟩,
    ⟨awake, ?_⟩,
    ⟨awake, ?_⟩,
    ⟨2, ((awake.setFld (Fd.HKSEQ_SEQ_CFG_ENABLE (2 : Fin 3)) 0).setSeqState (2 : Fin 3) seqOff), ?_⟩,
    ⟨2, ((((awake.setFld (Fd.HKSEQ_SEQ_CFG_ENABLE (2 : Fin 3)) 0).setSeqState (2 : Fin 3) seqOff).setFld
      (Fd.HKSEQ_SEQ_CFG_COUNT (2 : Fin 3)) 2).setFld (Fd.HKSEQ_SEQ_CFG_FIRST (2 : Fin 3)) 63), ?_⟩,
    ⟨2, ((awake.setFld (Fd.HKSEQ_SEQ_CFG_ENABLE (2 : Fin 3)) 1) |> fun (s : State) => { s with cfgPend := [] }), ?_⟩,
    ⟨2, (((awake.setSeqState (2 : Fin 3) seqWaiting) |> fun (s : State) =>
      { s with hka := { s.hka with ready := [] } }).setFld Fd.HKA_STATUS_READY 1), ?_⟩,
    ⟨3, 0x81234567, (awake |> fun (s : State) => { s with hka := { s.hka with urg := none } }), ⟨?_, ?_, ?_, ?_⟩, ?_, ?_, ?_⟩,
    ⟨3, 0x81234567, (awake |> fun (s : State) => { s with hka := { s.hka with urg := some (2, 5, true) } }), ⟨?_, ?_, ?_, ?_⟩,
      ?_, ?_⟩,
    ⟨2, (awake.updRing (20 + (2 : Fin 4)) fun x => { x with prod := 1, cons := 0 }), ?_⟩,
    ⟨2, awake, ?_⟩,
    ⟨awake, ?_⟩⟩ <;>
    decide +kernel

theorem witness_TestDacCommands :
    (∃ (p : Fin 4) (s : State), s.TakesWrite p tdacPage Adr.TDAC_CTRL ∧ s.tdacHost = none)
    ∧ (∃ (p : Fin 4) (q : Fin 4) (s : State), s.TakesWrite p tdacPage Adr.TDAC_CTRL ∧ s.tdacHost = some q ∧ p ≠ q)
    ∧ (∃ (p : Fin 4) (k : Nat) (s : State), s.tdacFree = true ∧ s.tdacQ.head? = some (k, .host p))
    ∧ (∃ (s : State), s.tdacFree = false)
    ∧ (∃ (p : Fin 4) (s : State), s.TakesWrite p tdacPage Adr.TDAC_CTRL ∧ s.tdacOwner = some (.host p))
    ∧ (∃ (p : Fin 4) (s : State), s.TakesWrite p tdacPage Adr.TDAC_CTRL ∧ s.tdacOwns p = false)
    ∧ (∃ (p : Fin 4) (v : Word) (s : State), s.TakesWrite p tdacPage Adr.TDAC_CTRL ∧ s.tdacOwns p = true ∧ bitsAt v.toNat 0 6
      = 0x29 ∧ s.tdac.goal ≠ 0x29)
    ∧ (∃ (p : Fin 4) (s : State), s.TakesWrite p tdacPage Adr.TDAC_CODE ∧ s.tdacOwns p = false)
    ∧ (∃ (p : Fin 4) (s : State), s.TakesWrite p tdacPage Adr.TDAC_CODE ∧ s.tdacOwns p = true ∧ s.tdac.ramp = none)
    ∧ (∃ (s : State), s.tdac.ramp = some true ∧ s.tdac.releasing = false ∧ routeHp (s.fld Fd.TDAC_STATUS_ROUTE) = none)
    ∧ (∃ (s : State), s.tdac.ramp = some false) := by
  refine ⟨⟨3, awake, ⟨?_, ?_, ?_, ?_⟩, ?_⟩,
    ⟨3, 2, (awake |> fun (s : State) => { s with tdacOwner := some (.host (2 : Fin 4)) }), ⟨?_, ?_, ?_, ?_⟩, ?_, ?_⟩,
    ⟨3, 3, ((awake |> fun (s : State) => { s with tdacOwner := none, tdacQ := [(3, .host (3 : Fin 4))] }).setFld
      Fd.HKA_STATUS_READY 1), ?_⟩,
    ⟨awake, ?_⟩,
    ⟨3, (awake |> fun (s : State) => { s with tdacOwner := some (.host (3 : Fin 4)) }), ⟨?_, ?_, ?_, ?_⟩, ?_⟩,
    ⟨3, awake, ⟨?_, ?_, ?_, ?_⟩, ?_⟩,
    ⟨3, 0x29, (awake |> fun (s : State) => ({ s with tdacOwner := some (.host (3 : Fin 4)), tdac := ⟨0, none, 0, false⟩ } :
      State)), ⟨?_, ?_, ?_, ?_⟩, ?_, ?_, ?_⟩,
    ⟨3, awake, ⟨?_, ?_, ?_, ?_⟩, ?_⟩,
    ⟨3, (((awake |> fun (s : State) => { s with tdac := { s.tdac with ramp := none } }) |> fun (s : State) =>
      ({ s with tdacOwner := some (.host (3 : Fin 4)), tdac := ⟨0, none, 0, false⟩ } : State)).setFld Fd.TDAC_STATUS_ROUTE
      0x29), ⟨?_, ?_, ?_, ?_⟩, ?_, ?_⟩,
    ⟨((awake |> fun (s : State) => { s with tdac := { s.tdac with ramp := some true } }) |> fun (s : State) =>
      { s with tdac := { s.tdac with releasing := false } }), ?_⟩,
    ⟨(awake |> fun (s : State) => { s with tdac := { s.tdac with ramp := some false } }), ?_⟩⟩ <;>
    decide +kernel

theorem witness_CrcCommands :
    (∃ (a : CrcParty) (s : State), s.crcReach a = true ∧ s.crcOwner = some a)
    ∧ (∃ (a : CrcParty) (s : State), s.crcReach a = true ∧ s.crcOwner = some a)
    ∧ (∃ (a : CrcParty) (s : State), s.crcReach a = true ∧ s.crcOwner = some a)
    ∧ (∃ (a : CrcParty) (s : State), s.crcReach a = true ∧ s.crcOwner = some a)
    ∧ (∃ (a : CrcParty) (s : State), s.crcReach a = true ∧ s.crcOwner = some a)
    ∧ (∃ (a : CrcParty) (s : State), s.crcReach a = true ∧ s.crcOwner = some a)
    ∧ (∃ (a : CrcParty) (s : State), s.crcReach a = true ∧ s.crcOwner ≠ some a)
    ∧ (∃ (i : Fin 26), i.val < 25)
    ∧ (∃ (s : State), s.pageOn crcPage = true)
    ∧ (∃ (i : Fin 26) (s : State), s.pageOn crcPage = true ∧ 8 ≤ i.val ∧ i.val < 24 ∧ s.domOn (Dm.PORTG 3) = false)
    ∧ (∃ (a : CrcParty) (s : State), s.crcReach a = true ∧ s.crcOwner = none)
    ∧ (∃ (a : CrcParty) (b : CrcParty) (s : State), s.crcReach a = true ∧ s.crcOwner = some b ∧ a ≠ b)
    ∧ (∃ (a : CrcParty) (s : State), s.crcReach a = true ∧ s.crcOwner = some a) := by
  refine ⟨⟨.host 1, (awake |> fun (s : State) => { s with crcOwner := some (.host 1 : CrcParty) }), ?_⟩,
    ⟨.host 1, (awake |> fun (s : State) => { s with crcOwner := some (.host 1 : CrcParty) }), ?_⟩,
    ⟨.host 1, (awake |> fun (s : State) => { s with crcOwner := some (.host 1 : CrcParty) }), ?_⟩,
    ⟨.host 1, (awake |> fun (s : State) => { s with crcOwner := some (.host 1 : CrcParty) }), ?_⟩,
    ⟨.host 1, (awake |> fun (s : State) => { s with crcOwner := some (.host 1 : CrcParty) }), ?_⟩,
    ⟨.host 1, (awake |> fun (s : State) => { s with crcOwner := some (.host 1 : CrcParty) }), ?_⟩,
    ⟨.host 1, awake, ?_⟩,
    ⟨24, ?_⟩,
    ⟨awake, ?_⟩,
    ⟨23, ((awake.updDom (Dm.PORTG 3) fun (q : Dom) => { q with phase := .off }).updDom (Dm.PORTG 3) fun (q : Dom) =>
      { q with phase := .off }), ?_⟩,
    ⟨.host 1, (awake |> fun (s : State) => { s with crcOwner := none }), ?_⟩,
    ⟨.host 1, .service, (awake |> fun (s : State) => { s with crcOwner := some (.service : CrcParty) }), ?_⟩,
    ⟨.host 1, (awake |> fun (s : State) => { s with crcOwner := some (.host 1 : CrcParty) }), ?_⟩⟩ <;>
    decide +kernel

theorem witness_AccessOperations :
    (∃ (p : Fin 4) (s : State), s.Hears p)
    ∧ (∃ (p : Fin 4) (a : Word) (n : BitVec 16) (s : State), s.Hears p ∧ (a.toNat % 4 ≠ 0 ∨ n.toNat % 4 ≠ 0 ∨ n = 0))
    ∧ (∃ (p : Fin 4) (a : Word) (d : Nat) (s : State), s.Hears p ∧ a.toNat % 4 = 0 ∧ 0x60000000 ≤ a.toNat ∧ a.toNat <
      0x60100000 ∧ addrDomain a.toNat = some d ∧ s.domOn d = true)
    ∧ (∃ (p : Fin 4) (a : Word) (d : Nat) (s : State), s.Hears p ∧ a.toNat % 4 = 0 ∧ inPages a.toNat = true ∧ addrDomain
      a.toNat = some d ∧ s.domOn d = true)
    ∧ (∃ (g : Nat) (o : Nat) (r : RegRow) (s : State), pageReg g o = some r ∧ s.readTarget g o = pageAddr g o)
    ∧ (∃ (a : Nat) (r : RegRow) (f : FieldRow), regRow a = some r ∧ f ∈ r.fields ∧ f.view = false)
    ∧ (∃ (a : Nat) (b : Nat) (r : RegRow), regRow a = some r ∧ b < 32 ∧ (r.fields.any fun f => f.lo ≤ b && b ≤ f.hi) = false)
    ∧ (∃ (a : Nat), addrDomain a = none)
    ∧ (∃ (a : Nat) (d : Nat) (s : State), addrDomain a = some d ∧ s.domOn d = false)
    ∧ (∃ (a : Nat) (d : Nat) (s : State), addrDomain a = some d ∧ s.domOn d = true ∧ inPages a = false ∧ memNoAccess a = true)
    ∧ (∃ (p : Fin 4) (a : Word) (d : Nat) (s : State), s.Hears p ∧ s.change = none ∧ a.toNat % 4 = 0 ∧ 0x60000000 ≤ a.toNat ∧
      a.toNat < 0x60100000 ∧ addrDomain a.toNat = some d ∧ s.domOn d = true)
    ∧ (∃ (p : Fin 4) (a : Word) (bs : List Byte) (s : State), s.Hears p ∧ (a.toNat % 4 ≠ 0 ∨ bs.length % 4 ≠ 0 ∨ bs = []))
    ∧ (∃ (p : Fin 4) (a : Word) (d : Nat) (s : State), s.Hears p ∧ s.change = none ∧ a.toNat % 4 = 0 ∧ 0x60000000 ≤ a.toNat ∧
      a.toNat < 0x60100000 ∧ addrDomain a.toNat = some d ∧ s.domOn d = true)
    ∧ (∃ (p : Fin 4) (a : Word) (v : BitVec 16) (s : State), s.Hears p ∧ a.toNat % 4 = 0 ∧ v ≠ 0 ∧ s.ownBib p v.toNat = none) := by
  refine ⟨⟨3, awake, ⟨?_, ?_, ⟨?_, ?_⟩⟩⟩,
    ⟨3, 0x81234567, 0x1234, awake, ⟨?_, ?_, ⟨?_, ?_⟩⟩, ?_⟩,
    ⟨3, 0x600FFFFC, (addrDomain 0x600FFFFC).getD 0, awake, ⟨?_, ?_, ⟨?_, ?_⟩⟩, ?_, ?_, ?_, ?_, ?_⟩,
    ⟨3, 0x4000305C, (addrDomain 0x4000305C).getD 0, awake, ⟨?_, ?_, ⟨?_, ?_⟩⟩, ?_, ?_, ?_, ?_⟩,
    ⟨3, 0x5C, ((regRow (pageAddr 3 0x5C)).getD ⟨0,0,0,[]⟩), awake, ?_⟩,
    ⟨0x40040044, ((regRow (0x40040044)).getD ⟨0,0,0,[]⟩), (((regRow (0x40040044)).getD ⟨0,0,0,[]⟩)).fields.headD ⟨0,0,.ro,.num
      0,.plain,true⟩, ?_⟩,
    ⟨0x40040044, 31, ((regRow (0x40040044)).getD ⟨0,0,0,[]⟩), ?_⟩,
    ⟨3, ?_⟩,
    ⟨0x40010040, (addrDomain 0x40010040).getD 0, (awake.updDom ((addrDomain 0x40010040).getD 0 : Nat) fun (q : Dom) =>
      { q with phase := .off }), ?_⟩,
    ⟨0x20077FFF, (addrDomain 0x20077FFF).getD 0, awake, ?_⟩,
    ⟨3, 0x600FFFFC, (addrDomain 0x600FFFFC).getD 0, (awake |> fun (s : State) => { s with change := none }), ⟨?_, ?_, ⟨?_,
      ?_⟩⟩, ?_, ?_, ?_, ?_, ?_, ?_⟩,
    ⟨3, 0x81234567, [0x11, 0x22], awake, ⟨?_, ?_, ⟨?_, ?_⟩⟩, ?_⟩,
    ⟨3, 0x600FFFFC, (addrDomain 0x600FFFFC).getD 0, (awake |> fun (s : State) => { s with change := none }), ⟨?_, ?_, ⟨?_,
      ?_⟩⟩, ?_, ?_, ?_, ?_, ?_, ?_⟩,
    ⟨3, 0x40010040, 0x1234, awake, ⟨?_, ?_, ⟨?_, ?_⟩⟩, ?_, ?_, ?_⟩⟩ <;>
    decide +kernel

theorem witness_TransactionOperations :
    (∃ (p : Fin 4) (k : Nat) (s : State) (t : State), s.Hears p ∧ s.mayOpen p = true ∧ s.takeBib p false = (some k, t))
    ∧ (∃ (p : Fin 4) (s : State), s.Hears p ∧ s.mayOpen p = false)
    ∧ (∃ (p : Fin 4) (v : BitVec 16) (mode : Byte) (time : Count) (k : Nat) (s : State), s.Hears p ∧ s.ownBib p v.toNat = some
      k ∧ (s.bibAt k).state = .opened ∧ (mode = 1 ∨ mode = 2) ∧ s.timePassed mode.toNat time.toNat = false)
    ∧ (∃ (p : Fin 4) (v : BitVec 16) (k : Nat) (s : State), s.Hears p ∧ s.change = none ∧ s.domOn Dm.PLL = true ∧ s.ownBib p
      v.toNat = some k ∧ (s.bibAt k).state = .opened ∧ (s.bibAt k).mode = 0 ∧ s.txn.entriesOf (s.bibAt k).value = [])
    ∧ (∃ (p : Fin 4) (v : BitVec 16) (s : State), s.Hears p ∧ s.ownBib p v.toNat = none)
    ∧ (∃ (p : Fin 4) (v : BitVec 16) (k : Nat) (s : State), s.Hears p ∧ s.change = none ∧ s.ownBib p v.toNat = some k ∧
      ((s.bibAt k).state = .opened ∨ (s.bibAt k).state = .scheduled) ∧ (s.bibAt k).orphan = false ∧ (s.bibAt k).later < 4 ∧
      s.txn.entriesOf (s.bibAt k).value = [])
    ∧ (∃ (p : Fin 4) (v : BitVec 16) (r : Bool) (k : Nat) (s : State), s.Hears p ∧ s.ownBib p v.toNat = some k ∧ (r = false ∨
      (s.bibAt k).retained = false))
    ∧ (∃ (p : Fin 4) (v : BitVec 16) (k : Nat) (s : State), s.Hears p ∧ s.ownBib p v.toNat = some k ∧ (s.bibAt k).retained =
      true)
    ∧ (∃ (p : Fin 4) (g : BitVec 16) (s : State), s.Hears p ∧ pageDefined g.toNat = false)
    ∧ (∃ (p : Fin 4) (g : BitVec 16) (s : State), s.Hears p ∧ pageDefined g.toNat = true ∧ s.inFlight g.toNat = false ∧
      s.claimOf g.toNat = none)
    ∧ (∃ (p : Fin 4) (g : BitVec 16) (s : State), s.Hears p ∧ pageDefined g.toNat = true ∧ s.inFlight g.toNat = false ∧
      s.claimOf g.toNat = some p.val)
    ∧ (∃ (p : Fin 4) (g : BitVec 16) (q : Nat) (s : State), s.Hears p ∧ pageDefined g.toNat = true ∧ s.inFlight g.toNat =
      false ∧ s.claimOf g.toNat = some q ∧ q ≠ p.val) := by
  refine ⟨⟨3, 0, awake, (((awake).takeBib (3 : Fin 4) false).2), ⟨?_, ?_, ⟨?_, ?_⟩⟩, ?_, Prod.ext ?_ (by with_reducible rfl)⟩,
    ⟨3, (awake |> fun (s : State) => (List.range 4).foldl (fun t k => t.updBib k fun _ =>
      { Bib.none_ with value := k + 1, state := .opened, port := (3 : Fin 4).val }) s), ⟨?_, ?_, ⟨?_, ?_⟩⟩, ?_⟩,
    ⟨3, 0x1234, 1, 100000, 3, ((awake.updBib (3 : Nat) fun _ =>
      { Bib.none_ with value := (0x1234 : BitVec 16).toNat, state := .opened, port := (3 : Fin 4).val }) |> fun (s : State) =>
      { s with tickcnt := 5 }), ⟨?_, ?_, ⟨?_, ?_⟩⟩, ?_, ?_, ?_, ?_⟩,
    ⟨3, 0x1234, 3, (awake.updBib (3 : Nat) fun _ =>
      { Bib.none_ with value := (0x1234 : BitVec 16).toNat, state := .opened, port := (3 : Fin 4).val }), ⟨?_, ?_, ⟨?_, ?_⟩⟩,
      ?_, ?_, ?_, ?_, ?_, ?_⟩,
    ⟨3, 0x1234, awake, ⟨?_, ?_, ⟨?_, ?_⟩⟩, ?_⟩,
    ⟨3, 0x1234, 3, (awake.updBib (3 : Nat) fun _ =>
      { Bib.none_ with value := (0x1234 : BitVec 16).toNat, state := .scheduled, port := (3 : Fin 4).val }), ⟨?_, ?_, ⟨?_,
      ?_⟩⟩, ?_, ?_, ?_, ?_, ?_, ?_⟩,
    ⟨3, 0x1234, true, 3, (awake.updBib (3 : Nat) fun _ =>
      { Bib.none_ with value := (0x1234 : BitVec 16).toNat, state := .scheduled, port := (3 : Fin 4).val }), ⟨?_, ?_, ⟨?_,
      ?_⟩⟩, ?_, ?_⟩,
    ⟨3, 0x1234, 3, (awake.updBib (3 : Nat) fun _ =>
      { Bib.none_ with value := (0x1234 : BitVec 16).toNat, state := .committed, port := (3 : Fin 4).val }), ⟨?_, ?_, ⟨?_,
      ?_⟩⟩, ?_, ?_⟩,
    ⟨3, 0x1234, awake, ⟨?_, ?_, ⟨?_, ?_⟩⟩, ?_⟩,
    ⟨3, 0x3F, awake, ⟨?_, ?_, ⟨?_, ?_⟩⟩, ?_, ?_, ?_⟩,
    ⟨3, 0x3F, (awake |> fun (s : State) => { s with claims := [((0x3F : BitVec 16).toNat, (3 : Fin 4).val), (5, 2)] }), ⟨?_,
      ?_, ⟨?_, ?_⟩⟩, ?_, ?_, ?_⟩,
    ⟨3, 0x3F, 2, (awake |> fun (s : State) => { s with claims := [((0x3F : BitVec 16).toNat, 2)] }), ⟨?_, ?_, ⟨?_, ?_⟩⟩, ?_,
      ?_, ?_, ?_⟩⟩ <;>
    decide +kernel

theorem witness_RingOperations :
    (∃ (p : Fin 4) (r : Byte) (s : State), s.Hears p ∧ pullAllowed p r.toNat = true ∧ (s.ring r.toNat).enable = true)
    ∧ (∃ (p : Fin 4) (r : Byte) (s : State), s.Hears p ∧ pullAllowed p r.toNat = true ∧ (s.ring r.toNat).enable = false)
    ∧ (∃ (p : Fin 4) (r : Byte) (s : State), s.Hears p ∧ pullAllowed p r.toNat = false)
    ∧ (∃ (p : Fin 4) (r : Byte) (bs : List Byte) (s : State), s.Hears p ∧ (r = 30 ∨ r = 31) ∧ (s.ring r.toNat).enable = true ∧
      bs.length = ringEsize r.toNat (s.ring r.toNat).pack ∧ (s.ring r.toNat).fill < (s.ring r.toNat).size)
    ∧ (∃ (p : Fin 4) (r : Byte) (s : State), s.Hears p ∧ r ≠ 24 ∧ r ≠ 30 ∧ r ≠ 31) := by
  refine ⟨⟨3, 29, ((awake.updRing (29 : Byte).toNat fun q => { q with enable := true }).updRing (29 : Byte).toNat fun q =>
      { q with enable := true, prod := 3, cons := 0xFFFFFFFF }), ⟨?_, ?_, ⟨?_, ?_⟩⟩, ?_, ?_⟩,
    ⟨3, 11, ((awake.updRing (11 : Byte).toNat fun q => { q with enable := false }).updRing (11 : Byte).toNat fun q =>
      { q with enable := false }), ⟨?_, ?_, ⟨?_, ?_⟩⟩, ?_, ?_⟩,
    ⟨3, 0xA7, awake, ⟨?_, ?_, ⟨?_, ?_⟩⟩, ?_⟩,
    ⟨3, 30, [1, 2, 3], ((awake.updRing (30 : Byte).toNat fun q => { q with enable := true }).updRing (30 : Byte).toNat fun q
      => { q with enable := true, prod := 0x21, cons := 0x1F, pack := false, log2n := 2 }), ⟨?_, ?_, ⟨?_, ?_⟩⟩, ?_, ?_, ?_,
      ?_⟩,
    ⟨3, 0xA7, awake, ⟨?_, ?_, ⟨?_, ?_⟩⟩, ?_, ?_, ?_⟩⟩ <;>
    decide +kernel

theorem witness_WriteCommands :
    (∃ (p : Fin 4) (a : Word) (v : Word) (s : State), s.Hears p ∧ s.TakesWrite p (pageOf a.toNat) (a.toNat / 4 * 4) ∧
      s.checkWord p false (a.toNat / 4 * 4) = (0x00, none) ∧ inPages (a.toNat / 4 * 4) = true ∧ pageOf a.toNat ≠ crcPage ∧
      regIgnored (pageOf a.toNat) (pageOff (a.toNat / 4 * 4)) = false ∧ isFabParam (a.toNat / 4 * 4) = false ∧ isTickWord
      (a.toNat / 4 * 4) = false ∧ a.toNat / 4 * 4 ≠ Adr.FAB_SWAP ∧ targetDomain (a.toNat / 4 * 4) = none ∧ s.grpShortAt
      (a.toNat / 4 * 4) v.toNat = false ∧ pageOf a.toNat ≠ aonPage ∧ pageOf a.toNat ≠ bootPage ∧ pageOf a.toNat ≠ cpPage p)
    ∧ (∃ (p : Fin 4) (g : Fin 108) (s : State), s.Hears p ∧ s.TakesWrite p g (pageAddr g 0x010) ∧ evtMask g ≠ 0 ∧ g.val ≠
      txnPage)
    ∧ (∃ (p : Fin 4) (g : Fin 108) (s : State), s.Hears p ∧ s.TakesWrite p g (pageAddr g 0x01C) ∧ errMask g ≠ 0 ∧ g.val ≠
      crcPage)
    ∧ (∃ (p : Fin 4) (a : Word) (r : RegRow) (s : State), s.Hears p ∧ (pageOf a.toNat = jackPage ∨ pageOf a.toNat = txnPage) ∧
      s.TakesWrite p (pageOf a.toNat) a.toNat ∧ 0x040 ≤ pageOff a.toNat ∧ pageReg (pageOf a.toNat) (pageOff a.toNat) = some r
      ∧ r.writable = true ∧ a.toNat % 4 = 0 ∧ inPages a.toNat = true)
    ∧ (∃ (p : Fin 4) (a : Word) (st : Nat) (x : AccessKind) (s : State), s.Hears p ∧ s.writeHeld p (a.toNat / 4 * 4) = false ∧
      s.checkWord p false (a.toNat / 4 * 4) = (st, some x) ∧ st ≠ 0x00)
    ∧ (∃ (p : Fin 4) (a : Word) (st : Nat) (s : State), s.Hears p ∧ pageOf (a.toNat / 4 * 4) ≠ crcPage ∧ s.writeHeld p
      (a.toNat / 4 * 4) = false ∧ s.checkWord p false (a.toNat / 4 * 4) = (st, none) ∧ st ≠ 0x00)
    ∧ (∃ (p : Fin 4) (k : Nat) (x : Piste) (a : Admission) (s : State) (t : State) (u : State), s.Hears p ∧ s.TakesWrite p
      fabPage Adr.FAB_SWAP ∧ s.takeBib p true = (some k, t) ∧ s.txn.used.length < 8192 ∧ s.fabState = .running ∧ s.domOn
      Dm.PLL = true ∧ s.change = none ∧ s.txn.staging = [] ∧ s.inFlight fabPage = false ∧ s.swapCheck (s.fld
      Fd.FAB_XOVER_TICKS) = (.good x a, u) ∧ s.swapNeed x ≤ s.granFree)
    ∧ (∃ (p : Fin 4) (k : Nat) (s : State) (t : State) (u : State), s.Hears p ∧ s.TakesWrite p fabPage Adr.FAB_SWAP ∧
      s.takeBib p true = (some k, t) ∧ s.txn.used.length < 8192 ∧ s.change = none ∧ s.txn.staging = [] ∧ s.swapCheck (s.fld
      Fd.FAB_XOVER_TICKS) = (.overBudget, u))
    ∧ (∃ (p : Fin 4) (d : Fin 27) (k : Nat) (s : State) (t : State), s.Hears p ∧ s.TakesWrite p pwrPage (Adr.PWR_DOM_CTRL d) ∧
      d.val ≠ 0 ∧ s.takeBib p true = (some k, t) ∧ s.txn.used.length < 8192 ∧ s.change = none ∧ s.txn.staging = [] ∧ s.dom d =
      .off ∧ s.fld (Fd.PWR_DOM_CTRL_TARGET d) = 0 ∧ (∀ r ∈ requires d, s.domOn r = true) ∧ (∀ e, e < 27 → s.domOn e = true → ∀
      r ∈ requires e, s.domOn r = true) ∧ 850 ≤ s.pvdd ∧ s.domOn Dm.PLL = true)
    ∧ (∃ (p : Fin 4) (d : Fin 27) (s : State), s.Hears p ∧ d.val ≠ 0 ∧ s.writeHeld p (Adr.PWR_DOM_CTRL d) = false ∧ s.domOn
      Dm.AON = true ∧ s.claimedByOther p pwrPage = true) := by
  refine ⟨⟨3, 0x40040047, 0x81234567, awake, ⟨?_, ?_, ⟨?_, ?_⟩⟩, ⟨?_, ?_, ?_, ?_⟩, ?_, ?_, ?_, ?_, ?_, ?_, ?_, ?_, ?_, ?_, ?_, ?_⟩,
    ⟨3, 0x0C, awake, ⟨?_, ?_, ⟨?_, ?_⟩⟩, ⟨?_, ?_, ?_, ?_⟩, ?_, ?_⟩,
    ⟨3, 0x10, awake, ⟨?_, ?_, ⟨?_, ?_⟩⟩, ⟨?_, ?_, ?_, ?_⟩, ?_, ?_⟩,
    ⟨3, pageAddr jackPage 0x100, ((regRow (pageAddr jackPage 0x100)).getD ⟨0,0,0,[]⟩), awake, ⟨?_, ?_, ⟨?_, ?_⟩⟩, ?_, ⟨?_, ?_,
      ?_, ?_⟩, ?_, ?_, ?_, ?_, ?_⟩,
    ⟨3, 0x90000003, 0x23, .unmapped, awake, ⟨?_, ?_, ⟨?_, ?_⟩⟩, ?_, ?_, ?_⟩,
    ⟨3, 0x40040047, 0x21, (awake |> fun (s : State) => { s with claims := [(pageOf 0x40040044, 0)] }), ⟨?_, ?_, ⟨?_, ?_⟩⟩, ?_,
      ?_, ?_, ?_⟩,
    ⟨3, 0, (match ((((((((((((((((awake.setFabState .running) |> fun (s : State) => { s with change := none }) |> fun (s :
      State) => { s with txn := { s.txn with staging := [] } }) |> fun (s : State) => { s with claims := [] }).setFabState
      .running).setFld Fd.FAB_STAT_XOVER_ACTIVE 0).setFld Fd.FAB_STAT_SWAP_PEND 0).setFld Fd.FAB_STAT_COPY_BUSY 0).setFld
      Fd.FAB_STAT_RUN_PISTE 1) |> fun (s : State) => [0x50495354, 0x01000001, 1, 0, 0, 0, 0, 0, 0x80000000].zipIdx.foldl (fun
      (t : State) (x : Nat × Nat) => t.setMemWord (pisteBase (0) + 4 * x.2) (word x.1)) s).setFld Fd.FAB_XOVER_TICKS 5) |> fun
      (s : State) => { s with change := none, txn := { s.txn with staging := [] } }) |> fun (s : State) =>
      { s with dlines := [] }).setFld Fd.FAB_RUN_COST_COST 3)).swapCheck ((((((((((((((((awake.setFabState .running) |> fun (s
      : State) => { s with change := none }) |> fun (s : State) => { s with txn := { s.txn with staging := [] } }) |> fun (s :
      State) => { s with claims := [] }).setFabState .running).setFld Fd.FAB_STAT_XOVER_ACTIVE 0).setFld Fd.FAB_STAT_SWAP_PEND
      0).setFld Fd.FAB_STAT_COPY_BUSY 0).setFld Fd.FAB_STAT_RUN_PISTE 1) |> fun (s : State) => [0x50495354, 0x01000001, 1, 0,
      0, 0, 0, 0, 0x80000000].zipIdx.foldl (fun (t : State) (x : Nat × Nat) => t.setMemWord (pisteBase (0) + 4 * x.2) (word
      x.1)) s).setFld Fd.FAB_XOVER_TICKS 5) |> fun (s : State) =>
      { s with change := none, txn := { s.txn with staging := [] } }) |> fun (s : State) => { s with dlines := [] }).setFld
      Fd.FAB_RUN_COST_COST 3)).fld Fd.FAB_XOVER_TICKS)).1 with | .good x _ => x | _ => ⟨0, []⟩), (match
      ((((((((((((((((awake.setFabState .running) |> fun (s : State) => { s with change := none }) |> fun (s : State) =>
      { s with txn := { s.txn with staging := [] } }) |> fun (s : State) => { s with claims := [] }).setFabState
      .running).setFld Fd.FAB_STAT_XOVER_ACTIVE 0).setFld Fd.FAB_STAT_SWAP_PEND 0).setFld Fd.FAB_STAT_COPY_BUSY 0).setFld
      Fd.FAB_STAT_RUN_PISTE 1) |> fun (s : State) => [0x50495354, 0x01000001, 1, 0, 0, 0, 0, 0, 0x80000000].zipIdx.foldl (fun
      (t : State) (x : Nat × Nat) => t.setMemWord (pisteBase (0) + 4 * x.2) (word x.1)) s).setFld Fd.FAB_XOVER_TICKS 5) |> fun
      (s : State) => { s with change := none, txn := { s.txn with staging := [] } }) |> fun (s : State) =>
      { s with dlines := [] }).setFld Fd.FAB_RUN_COST_COST 3)).swapCheck ((((((((((((((((awake.setFabState .running) |> fun (s
      : State) => { s with change := none }) |> fun (s : State) => { s with txn := { s.txn with staging := [] } }) |> fun (s :
      State) => { s with claims := [] }).setFabState .running).setFld Fd.FAB_STAT_XOVER_ACTIVE 0).setFld Fd.FAB_STAT_SWAP_PEND
      0).setFld Fd.FAB_STAT_COPY_BUSY 0).setFld Fd.FAB_STAT_RUN_PISTE 1) |> fun (s : State) => [0x50495354, 0x01000001, 1, 0,
      0, 0, 0, 0, 0x80000000].zipIdx.foldl (fun (t : State) (x : Nat × Nat) => t.setMemWord (pisteBase (0) + 4 * x.2) (word
      x.1)) s).setFld Fd.FAB_XOVER_TICKS 5) |> fun (s : State) =>
      { s with change := none, txn := { s.txn with staging := [] } }) |> fun (s : State) => { s with dlines := [] }).setFld
      Fd.FAB_RUN_COST_COST 3)).fld Fd.FAB_XOVER_TICKS)).1 with | .good _ a => a | _ => ⟨[], 0, 0, []⟩),
      ((((((((((((((awake.setFabState .running) |> fun (s : State) => { s with change := none }) |> fun (s : State) =>
      { s with txn := { s.txn with staging := [] } }) |> fun (s : State) => { s with claims := [] }).setFabState
      .running).setFld Fd.FAB_STAT_XOVER_ACTIVE 0).setFld Fd.FAB_STAT_SWAP_PEND 0).setFld Fd.FAB_STAT_COPY_BUSY 0).setFld
      Fd.FAB_STAT_RUN_PISTE 1) |> fun (s : State) => [0x50495354, 0x01000001, 1, 0, 0, 0, 0, 0, 0x80000000].zipIdx.foldl (fun
      (t : State) (x : Nat × Nat) => t.setMemWord (pisteBase (0) + 4 * x.2) (word x.1)) s).setFld Fd.FAB_XOVER_TICKS 5) |> fun
      (s : State) => { s with change := none, txn := { s.txn with staging := [] } }) |> fun (s : State) =>
      { s with dlines := [] }).setFld Fd.FAB_RUN_COST_COST 3), (((((((((((((((((awake.setFabState .running) |> fun (s : State)
      => { s with change := none }) |> fun (s : State) => { s with txn := { s.txn with staging := [] } }) |> fun (s : State)
      => { s with claims := [] }).setFabState .running).setFld Fd.FAB_STAT_XOVER_ACTIVE 0).setFld Fd.FAB_STAT_SWAP_PEND
      0).setFld Fd.FAB_STAT_COPY_BUSY 0).setFld Fd.FAB_STAT_RUN_PISTE 1) |> fun (s : State) => [0x50495354, 0x01000001, 1, 0,
      0, 0, 0, 0, 0x80000000].zipIdx.foldl (fun (t : State) (x : Nat × Nat) => t.setMemWord (pisteBase (0) + 4 * x.2) (word
      x.1)) s).setFld Fd.FAB_XOVER_TICKS 5) |> fun (s : State) =>
      { s with change := none, txn := { s.txn with staging := [] } }) |> fun (s : State) => { s with dlines := [] }).setFld
      Fd.FAB_RUN_COST_COST 3)).takeBib (3 : Fin 4) true).2), (((((((((((((((((awake.setFabState .running) |> fun (s : State)
      => { s with change := none }) |> fun (s : State) => { s with txn := { s.txn with staging := [] } }) |> fun (s : State)
      => { s with claims := [] }).setFabState .running).setFld Fd.FAB_STAT_XOVER_ACTIVE 0).setFld Fd.FAB_STAT_SWAP_PEND
      0).setFld Fd.FAB_STAT_COPY_BUSY 0).setFld Fd.FAB_STAT_RUN_PISTE 1) |> fun (s : State) => [0x50495354, 0x01000001, 1, 0,
      0, 0, 0, 0, 0x80000000].zipIdx.foldl (fun (t : State) (x : Nat × Nat) => t.setMemWord (pisteBase (0) + 4 * x.2) (word
      x.1)) s).setFld Fd.FAB_XOVER_TICKS 5) |> fun (s : State) =>
      { s with change := none, txn := { s.txn with staging := [] } }) |> fun (s : State) => { s with dlines := [] }).setFld
      Fd.FAB_RUN_COST_COST 3)).swapCheck ((((((((((((((((awake.setFabState .running) |> fun (s : State) =>
      { s with change := none }) |> fun (s : State) => { s with txn := { s.txn with staging := [] } }) |> fun (s : State) =>
      { s with claims := [] }).setFabState .running).setFld Fd.FAB_STAT_XOVER_ACTIVE 0).setFld Fd.FAB_STAT_SWAP_PEND 0).setFld
      Fd.FAB_STAT_COPY_BUSY 0).setFld Fd.FAB_STAT_RUN_PISTE 1) |> fun (s : State) => [0x50495354, 0x01000001, 1, 0, 0, 0, 0,
      0, 0x80000000].zipIdx.foldl (fun (t : State) (x : Nat × Nat) => t.setMemWord (pisteBase (0) + 4 * x.2) (word x.1))
      s).setFld Fd.FAB_XOVER_TICKS 5) |> fun (s : State) => { s with change := none, txn := { s.txn with staging := [] } }) |>
      fun (s : State) => { s with dlines := [] }).setFld Fd.FAB_RUN_COST_COST 3)).fld Fd.FAB_XOVER_TICKS)).2), ⟨?_, ?_, ⟨?_,
      ?_⟩⟩, ⟨?_, ?_, ?_, ?_⟩, Prod.ext ?_ (by with_reducible rfl), ?_, ?_, ?_, ?_, ?_, ?_, Prod.ext ?_ (by with_reducible
      rfl), ?_⟩,
    ⟨3, 0, (((((((((((((awake |> fun (s : State) => { s with change := none }) |> fun (s : State) =>
      { s with txn := { s.txn with staging := [] } }) |> fun (s : State) => { s with claims := [] }).setFabState
      .running).setFld Fd.FAB_STAT_XOVER_ACTIVE 0).setFld Fd.FAB_STAT_SWAP_PEND 0).setFld Fd.FAB_STAT_COPY_BUSY 0).setFld
      Fd.FAB_STAT_RUN_PISTE 1) |> fun (s : State) => [0x50495354, 0x01000001, 1, 0, 0, 0, 0, 0, 0x80000000].zipIdx.foldl (fun
      (t : State) (x : Nat × Nat) => t.setMemWord (pisteBase (0) + 4 * x.2) (word x.1)) s).setFld Fd.FAB_XOVER_TICKS 5) |> fun
      (s : State) => { s with change := none, txn := { s.txn with staging := [] } }) |> fun (s : State) =>
      { s with dlines := [] }).updFab fun f =>
      { f with run := some ⟨0, [⟨false, 0, 5, List.replicate 9000 (.dynamics 0)⟩]⟩ }), ((((((((((((((((awake |> fun (s :
      State) => { s with change := none }) |> fun (s : State) => { s with txn := { s.txn with staging := [] } }) |> fun (s :
      State) => { s with claims := [] }).setFabState .running).setFld Fd.FAB_STAT_XOVER_ACTIVE 0).setFld Fd.FAB_STAT_SWAP_PEND
      0).setFld Fd.FAB_STAT_COPY_BUSY 0).setFld Fd.FAB_STAT_RUN_PISTE 1) |> fun (s : State) => [0x50495354, 0x01000001, 1, 0,
      0, 0, 0, 0, 0x80000000].zipIdx.foldl (fun (t : State) (x : Nat × Nat) => t.setMemWord (pisteBase (0) + 4 * x.2) (word
      x.1)) s).setFld Fd.FAB_XOVER_TICKS 5) |> fun (s : State) =>
      { s with change := none, txn := { s.txn with staging := [] } }) |> fun (s : State) => { s with dlines := [] }).updFab
      fun f => { f with run := some ⟨0, [⟨false, 0, 5, List.replicate 9000 (.dynamics 0)⟩]⟩ })).takeBib (3 : Fin 4) true).2),
      ((((((((((((((((awake |> fun (s : State) => { s with change := none }) |> fun (s : State) =>
      { s with txn := { s.txn with staging := [] } }) |> fun (s : State) => { s with claims := [] }).setFabState
      .running).setFld Fd.FAB_STAT_XOVER_ACTIVE 0).setFld Fd.FAB_STAT_SWAP_PEND 0).setFld Fd.FAB_STAT_COPY_BUSY 0).setFld
      Fd.FAB_STAT_RUN_PISTE 1) |> fun (s : State) => [0x50495354, 0x01000001, 1, 0, 0, 0, 0, 0, 0x80000000].zipIdx.foldl (fun
      (t : State) (x : Nat × Nat) => t.setMemWord (pisteBase (0) + 4 * x.2) (word x.1)) s).setFld Fd.FAB_XOVER_TICKS 5) |> fun
      (s : State) => { s with change := none, txn := { s.txn with staging := [] } }) |> fun (s : State) =>
      { s with dlines := [] }).updFab fun f =>
      { f with run := some ⟨0, [⟨false, 0, 5, List.replicate 9000 (.dynamics 0)⟩]⟩ })).swapCheck (((((((((((((((awake |> fun
      (s : State) => { s with change := none }) |> fun (s : State) => { s with txn := { s.txn with staging := [] } }) |> fun
      (s : State) => { s with claims := [] }).setFabState .running).setFld Fd.FAB_STAT_XOVER_ACTIVE 0).setFld
      Fd.FAB_STAT_SWAP_PEND 0).setFld Fd.FAB_STAT_COPY_BUSY 0).setFld Fd.FAB_STAT_RUN_PISTE 1) |> fun (s : State) =>
      [0x50495354, 0x01000001, 1, 0, 0, 0, 0, 0, 0x80000000].zipIdx.foldl (fun (t : State) (x : Nat × Nat) => t.setMemWord
      (pisteBase (0) + 4 * x.2) (word x.1)) s).setFld Fd.FAB_XOVER_TICKS 5) |> fun (s : State) =>
      { s with change := none, txn := { s.txn with staging := [] } }) |> fun (s : State) => { s with dlines := [] }).updFab
      fun f => { f with run := some ⟨0, [⟨false, 0, 5, List.replicate 9000 (.dynamics 0)⟩]⟩ })).fld Fd.FAB_XOVER_TICKS)).2),
      ⟨?_, ?_, ⟨?_, ?_⟩⟩, ⟨?_, ?_, ?_, ?_⟩, Prod.ext ?_ (by with_reducible rfl), ?_, ?_, ?_, Prod.ext ?_ (by with_reducible
      rfl)⟩,
    ⟨3, 9, 0, (((((((awake |> fun (s : State) => { s with change := none }) |> fun (s : State) =>
      { s with txn := { s.txn with staging := [] } }).setFld (Fd.PWR_DOM_CTRL_TARGET (9 : Fin 27)) (0)) |> fun (s : State) =>
      { s with claims := [] }) |> fun (s : State) => ({ s with doms := Vector.replicate 27 ⟨.on, false⟩ } : State)).updDom 9
      fun (q : Dom) => { q with phase := .off }).setFld (Fd.PWR_DOM_CTRL_TARGET 9) 0), ((((((((((awake |> fun (s : State) =>
      { s with change := none }) |> fun (s : State) => { s with txn := { s.txn with staging := [] } }).setFld
      (Fd.PWR_DOM_CTRL_TARGET (9 : Fin 27)) (0)) |> fun (s : State) => { s with claims := [] }) |> fun (s : State) =>
      ({ s with doms := Vector.replicate 27 ⟨.on, false⟩ } : State)).updDom 9 fun (q : Dom) =>
      { q with phase := .off }).setFld (Fd.PWR_DOM_CTRL_TARGET 9) 0)).takeBib (3 : Fin 4) true).2), ⟨?_, ?_, ⟨?_, ?_⟩⟩, ⟨?_,
      ?_, ?_, ?_⟩, ?_, Prod.ext ?_ (by with_reducible rfl), ?_, ?_, ?_, ?_, ?_, ?_, ?_, ?_, ?_⟩,
    ⟨3, 26, (awake |> fun (s : State) => { s with claims := [(pwrPage, ((3 : Fin 4).val + 1) % 4)] }), ⟨?_, ?_, ⟨?_, ?_⟩⟩, ?_,
      ?_, ?_, ?_⟩⟩ <;>
    decide +kernel

theorem witness_TransactionTicks :
    (∃ (v : BitVec 16) (k : Nat) (s : State), s.slotOf v.toNat = some k ∧ s.domOn Dm.CORE = true ∧ (s.bibAt k).state =
      .scheduled ∧ (s.bibAt k).waitsPage = false ∧ s.voted k = false ∧ s.validationDue (s.bibAt k) = true)
    ∧ (∃ (k : Nat) (now : Nat) (edge : Nat) (s : State), k < 64 ∧ s.bibBlocked k = false ∧ (s.bibAt k).state ≠ .implicit ∧
      (s.bibAt k).orphan = false ∧ (s.bibAt k).later < 4 ∧ s.bibLate (s.bibAt k) now edge = true)
    ∧ (∃ (k : Nat) (now : Nat) (edge : Nat) (g : Nat) (before : List Nat) (after : List Nat) (s : State), k < 64 ∧
      s.bibBlocked k = false ∧ (s.bibAt k).state ≠ .implicit ∧ (s.bibAt k).orphan = false ∧ (s.bibAt k).later < 4 ∧ s.bibLate
      (s.bibAt k) now edge = false ∧ s.pagesOf k = before ++ g :: after ∧ (∀ h ∈ before, s.claimedByOther (Fin.ofNat 4
      (s.bibAt k).port) h = false) ∧ s.claimedByOther (Fin.ofNat 4 (s.bibAt k).port) g = true)
    ∧ (∃ (k : Nat) (now : Nat) (edge : Nat) (g : Nat) (before : List Nat) (after : List Nat) (s : State), k < 64 ∧
      s.bibBlocked k = false ∧ (s.bibAt k).state ≠ .implicit ∧ (s.bibAt k).orphan = false ∧ (s.bibAt k).later < 4 ∧ s.bibLate
      (s.bibAt k) now edge = false ∧ s.pagesOf k = before ++ g :: after ∧ (∀ h ∈ s.pagesOf k, s.claimedByOther (Fin.ofNat 4
      (s.bibAt k).port) h = false) ∧ (∀ h ∈ before, (s.bibAt k).versions.find? (·.1 == h) = some (h, s.pageVer h)) ∧ (∃ v,
      (s.bibAt k).versions.find? (·.1 == g) = some (g, v) ∧ v ≠ s.pageVer g))
    ∧ (∃ (k : Nat) (now : Nat) (edge : Nat) (n : Nat) (s : State), k < 64 ∧ s.bibBlocked k = false ∧ ((s.bibAt k).state =
      .opened ∨ (s.bibAt k).state = .scheduled) ∧ s.bibLate (s.bibAt k) now edge = false ∧ (∀ h ∈ s.pagesOf k,
      s.claimedByOther (Fin.ofNat 4 (s.bibAt k).port) h = false) ∧ (∀ h ∈ s.pagesOf k, (s.bibAt k).versions.find? (·.1 == h) =
      some (h, s.pageVer h)) ∧ (∀ h ∈ s.pagesOf k, s.pageOn h = true) ∧ s.swapStaged (s.opsOf k) = false ∧ s.targetChanges
      (s.opsOf k) = [] ∧ s.granulesNeeded (s.opsOf k) = some n ∧ s.change = none ∧ s.domOn Dm.PLL = true ∧ s.fabState ≠
      .stopped)
    ∧ (∃ (v : BitVec 16) (k : Nat) (s : State), s.slotOf v.toNat = some k ∧ s.applyNext k = true ∧ s.tickWrites = [] ∧
      s.change = none ∧ s.domOn Dm.PLL = true ∧ s.Settled ∧ (s.bibAt k).state = .inFlight ∧ (s.bibAt k).later < 4 ∧
      s.txn.entriesOf (s.bibAt k).value = [])
    ∧ (∃ (k : Nat) (s : State), k < 64 ∧ (s.bibAt k).orphan = false ∧ (s.bibAt k).later < 4 ∧ s.txn.entriesOf (s.bibAt
      k).value = []) := by
  refine ⟨⟨0x1234, 3, (awake.updBib (3 : Nat) fun _ =>
      { Bib.none_ with value := (0x1234 : BitVec 16).toNat, state := .scheduled, mode := 2, time := 3 }), ?_⟩,
    ⟨3, 5, 9, ((awake |> fun (s : State) => s.updBib (3 : Nat) fun _ =>
      { Bib.none_ with value := 77, state := .scheduled, port := 2, mode := 1, time := 5, versions := [(0x40, s.pageVer 0x40), (0x41, s.pageVer 0x41)] })
      |> fun (s : State) =>
      ({ s with change := none, txn := { s.txn with order := 8, staging := [⟨3, 77, 0x40040044, 1, 5⟩, ⟨9, 77, 0x40041044, 1, 6⟩] } }
      : State)), ?_⟩,
    ⟨3, 5, 9, 0x41, [0x40], [], (((awake |> fun (s : State) => s.updBib (3 : Nat) fun _ =>
      { Bib.none_ with value := 77, state := .scheduled, port := 2, mode := 0, time := 5, versions := [(0x40, s.pageVer 0x40), (0x41, s.pageVer 0x41)] })
      |> fun (s : State) =>
      ({ s with change := none, txn := { s.txn with order := 8, staging := [⟨3, 77, 0x40040044, 1, 5⟩, ⟨9, 77, 0x40041044, 1, 6⟩] } }
      : State)) |> fun (s : State) => { s with claims := [(0x41, 1), (0x40, 2)] }), ?_⟩,
    ⟨3, 5, 9, 0x41, [0x40], [], ((((awake |> fun (s : State) => s.updBib (3 : Nat) fun _ =>
      { Bib.none_ with value := 77, state := .scheduled, port := 2, mode := 0, time := 5, versions := [(0x40, s.pageVer 0x40), (0x41, s.pageVer 0x41)] })
      |> fun (s : State) =>
      ({ s with change := none, txn := { s.txn with order := 8, staging := [⟨3, 77, 0x40040044, 1, 5⟩, ⟨9, 77, 0x40041044, 1, 6⟩] } }
      : State)) |> fun (s : State) => { s with claims := [] }).bumpVer 0x41), ?_, ?_, ?_, ?_, ?_, ?_, ?_, ?_, ?_, ⟨0, ?_, ?_⟩⟩,
    ⟨3, 5, 9, 0, ((((awake |> fun (s : State) => s.updBib (3 : Nat) fun _ =>
      { Bib.none_ with value := 77, state := .scheduled, port := 2, mode := 0, time := 5, versions := [(0x40, s.pageVer 0x40), (0x41, s.pageVer 0x41)] })
      |> fun (s : State) =>
      ({ s with change := none, txn := { s.txn with order := 8, staging := [⟨3, 77, 0x40040044, 1, 5⟩, ⟨9, 77, 0x40041044, 1, 6⟩] } }
      : State)) |> fun (s : State) => { s with claims := [] }).setFabState .running), ?_⟩,
    ⟨0x1234, 3, ((awake.updBib (3 : Nat) fun _ =>
      { Bib.none_ with value := (0x1234 : BitVec 16).toNat, state := .inFlight, mode := 0 }) |> fun (s : State) =>
      { s with tickWrites := [], change := none }), ?_, ?_, ?_, ?_, ?_, ⟨?_, ?_⟩, ?_, ?_, ?_⟩,
    ⟨3, (awake.updBib (3 : Nat) fun _ => { Bib.none_ with value := 5, state := .scheduled, mode := 0 }), ?_⟩⟩ <;>
    decide +kernel

theorem witness_PowerChangeCommands :
    (∃ (c : Change) (k : Nat) (d : Nat) (g : Nat) (rest : List (Nat × Nat)) (arriving : Bool) (s : State), s.change = some c ∧
      s.changeSlot = some k ∧ c.phase = .vote ∧ c.voters = (d, g) :: rest ∧ rest ≠ [] ∧ s.voteOf (s.bibAt k).value g d
      arriving = 0)
    ∧ (∃ (c : Change) (k : Nat) (d : Nat) (g : Nat) (cause : Nat) (rest : List (Nat × Nat)) (arriving : Bool) (s : State),
      s.change = some c ∧ s.changeSlot = some k ∧ c.phase = .vote ∧ c.voters = (d, g) :: rest ∧ s.voteOf (s.bibAt k).value g d
      arriving = cause ∧ cause ≠ 0)
    ∧ (∃ (g : Nat) (s : State), 8 ≤ g ∧ g ≤ 11 ∧ s.pageOn g = true)
    ∧ (∃ (g : Nat) (s : State), s.pageOn g = false)
    ∧ (∃ (s : State), s.voting = true)
    ∧ (∃ (g : Nat) (cause : Nat), g < 1024 ∧ cause < 16)
    ∧ (∃ (c : Change) (v : Nat) (d : Nat) (s : State), s.change = some c ∧ c.cause = .txn v ∧ c.phase = .wake ∧ c.wakes = [] ∧
      s.wakingNow = some (d, false) ∧ 9 ≤ d ∧ d ≤ 12 ∧ (d = 12 → s.pdmAway = true) ∧ s.domOn Dm.PLL = true ∧ s.Settled)
    ∧ (∃ (c : Change) (p : Nat) (v : Nat) (k : Nat) (s : State), s.change = some c ∧ c.cause = .access p v ∧ c.phase = .wait ∧
      s.slotOf v = some k ∧ s.Settled ∧ s.lift = false)
    ∧ (∃ (c : Change) (v : Nat) (k : Nat) (s : State), s.change = some c ∧ c.cause = .txn v ∧ c.phase = .wait ∧ s.changeSlot =
      some k ∧ s.applyNext k = true)
    ∧ (∃ (c : Change) (d : Nat) (off : Bool) (s : State), s.change = some c ∧ c.phase = .lower ∧ c.lowers = [(d, off)] ∧
      c.restoring = false ∧ s.loweringNow = some (d, off) ∧ 9 ≤ d ∧ d ≤ 12 ∧ s.domOn Dm.PLL = true ∧ s.lift = false ∧
      s.Settled)
    ∧ (∃ (d : Nat) (s : State), 9 ≤ d ∧ d ≤ 12 ∧ (d = 12 → s.pdmAway = true)) := by
  refine ⟨⟨⟨.txn 1, .vote, [(9, 0)], [(9, 0x20), (9, 0x21)], [], [], [(9, true)], [], none, false⟩, 5, 9, 0x20, [(9, 0x21)], true,
      (((awake |> fun (s : State) =>
      { s with change := (⟨.txn 1, .vote, [(9, 0)], [(9, 0x20), (9, 0x21)], [], [], [(9, true)], [], none, false⟩ : Change) }).updBib
      5 fun _ => { Bib.none_ with value := 1, state := .inFlight, port := 1 }).setSapState 0 .stopped), ?_⟩,
    ⟨⟨.txn 1, .vote, [(9, 0)], [(9, 0x20), (9, 0x21)], [], [], [(9, true)], [], none, false⟩, 5, 9, 0x20, ((((((awake |> fun
      (s : State) =>
      { s with change := (⟨.txn 1, .vote, [(9, 0)], [(9, 0x20), (9, 0x21)], [], [], [(9, true)], [], none, false⟩ : Change) }).updBib
      5 fun _ => { Bib.none_ with value := 1, state := .inFlight, port := 1 }).setSapState 0 .running)).voteOf 1 0x20 9 (true
      : Bool))), [(9, 0x21)], true, (((awake |> fun (s : State) =>
      { s with change := (⟨.txn 1, .vote, [(9, 0)], [(9, 0x20), (9, 0x21)], [], [], [(9, true)], [], none, false⟩ : Change) }).updBib
      5 fun _ => { Bib.none_ with value := 1, state := .inFlight, port := 1 }).setSapState 0 .running), ?_⟩,
    ⟨11, awake, ?_⟩,
    ⟨0x20, (awake.updDom ((pageDomain (0x20 : Nat)).getD 0) fun (q : Dom) => { q with phase := .off }), ?_⟩,
    ⟨((awake |> fun (s : State) =>
      ({ s with change := some ⟨.txn 1, .vote, [(9, 0)], [(9, 0x20), (9, 0x21)], [], [], [(9, true)], [], none, false⟩ } :
      State)).updBib 5 fun _ => { Bib.none_ with value := 1, state := .inFlight, port := 1 }), ?_⟩,
    ⟨3, 3, ?_⟩,
    ⟨⟨.txn 1, .wake, [(9, 0)], [], [], [], [], [], none, false⟩, 1, 12, ((awake |> fun (s : State) =>
      { s with change := (⟨.txn 1, .wake, [(9, 0)], [], [], [], [], [], none, false⟩ : Change) }).updDom (12 : Nat) fun (q :
      Dom) => { q with phase := .waking false }), ?_, ?_, ?_, ?_, ?_, ?_, ?_, ?_, ?_, ⟨?_, ?_⟩⟩,
    ⟨⟨.access 2 1, .wait, [(9, 0)], [], [], [], [], [(9, true), (10, false)], none, false⟩, 2, 1, 5, ((awake |> fun (s :
      State) =>
      { s with change := (⟨.access 2 1, .wait, [(9, 0)], [], [], [], [], [(9, true), (10, false)], none, false⟩ : Change) }).updBib
      5 fun _ => { Bib.none_ with value := 1, state := .implicit, port := 1 }), ?_, ?_, ?_, ?_, ⟨?_, ?_⟩, ?_⟩,
    ⟨⟨.txn 1, .wait, [(9, 0)], [], [], [], [], [], none, false⟩, 1, 5, ((awake |> fun (s : State) =>
      { s with change := (⟨.txn 1, .wait, [(9, 0)], [], [], [], [], [], none, false⟩ : Change) }).updBib 5 fun _ =>
      { Bib.none_ with value := 1, state := .inFlight, port := 1 }), ?_⟩,
    ⟨⟨.txn 1, .lower, [(9, 0)], [], [], [], [(9, true)], [], none, false⟩, 9, true, ((awake |> fun (s : State) =>
      { s with change := (⟨.txn 1, .lower, [(9, 0)], [], [], [], [(9, true)], [], none, false⟩ : Change) }).updDom (9 : Nat)
      fun (q : Dom) => { q with phase := .lowering true }), ?_, ?_, ?_, ?_, ?_, ?_, ?_, ?_, ?_, ⟨?_, ?_⟩⟩,
    ⟨12, awake, ?_⟩⟩ <;>
    decide +kernel

theorem witness_WakeCommands :
    (∃ (p : Fin 4) (a : Word) (d : Nat) (w : Nat) (s : State), s.domOn Dm.CORE = true ∧ s.ports[p].waiting = [⟨.rd p a 4,
      .wake, false, w⟩] ∧ s.ports[p].frames = [] ∧ (∀ q : Fin 4, q ≠ p → s.ports[q].waiting = []) ∧ (∀ k : Fin 64, (s.bibAt
      k).waitsPage = false) ∧ a.toNat % 4 = 0 ∧ addrDomain a.toNat = some d ∧ s.domOn d = false)
    ∧ (∃ (p : Fin 4) (s : State), s.ports[p].waiting = [])
    ∧ (∃ (a : TargetAddr) (s : State), (targetHits a s.xportCopy s.index = false ∨ s.domOn Dm.CORE = true))
    ∧ (∃ (a : TargetAddr) (s : State), targetHits a s.xportCopy s.index = true ∧ s.domOn Dm.CORE = false ∧ s.resetHold = none
      ∧ s.pvdd < 850)
    ∧ (∃ (a : TargetAddr) (s : State), targetHits a s.xportCopy s.index = true ∧ s.domOn Dm.CORE = false ∧ s.resetHold = none
      ∧ 850 ≤ s.pvdd ∧ s.change = none ∧ s.domOn Dm.CMEM = true)
    ∧ (∃ (s : State), s.lift = true ∧ s.domOn Dm.CORE = true)
    ∧ (∃ (s : State), s.lift = true) := by
  refine ⟨⟨3, 0x40020040, 9, 3, ((awake.updPort (3 : Fin 4) fun q =>
      { q with waiting := [⟨.rd (3 : Fin 4) (0x40020040 : Word) 4, .wake, false, 3⟩], frames := [] }).updDom 9 fun (q : Dom)
      => { q with phase := .ret }), ?_⟩,
    ⟨3, (awake.updPort ((3 : Fin 4)) fun q => { q with waiting := [] }), ?_⟩,
    ⟨.seven 0x18, awake, ?_⟩,
    ⟨(.ten (BitVec.ofNat 10 (0x200 * bit (bitOf ((((awake.updDom Dm.CORE fun (q : Dom) => { q with phase := .off }) |> fun (s
      : State) => { s with resetHold := none }) |> fun (s : State) => { s with pvdd := 849 })).xportCopy 10) +
      ((((awake.updDom Dm.CORE fun (q : Dom) => { q with phase := .off }) |> fun (s : State) => { s with resetHold := none })
      |> fun (s : State) => { s with pvdd := 849 })).index))), (((awake.updDom Dm.CORE fun (q : Dom) =>
      { q with phase := .off }) |> fun (s : State) => { s with resetHold := none }) |> fun (s : State) =>
      { s with pvdd := 849 }), ?_⟩,
    ⟨(.ten (BitVec.ofNat 10 (0x200 * bit (bitOf (((((awake.updDom Dm.CORE fun (q : Dom) => { q with phase := .off }) |> fun (s
      : State) => { s with resetHold := none }) |> fun (s : State) => { s with change := none }) |> fun (s : State) =>
      { s with pvdd := 850 })).xportCopy 10) + (((((awake.updDom Dm.CORE fun (q : Dom) => { q with phase := .off }) |> fun (s
      : State) => { s with resetHold := none }) |> fun (s : State) => { s with change := none }) |> fun (s : State) =>
      { s with pvdd := 850 })).index))), ((((awake.updDom Dm.CORE fun (q : Dom) => { q with phase := .off }) |> fun (s :
      State) => { s with resetHold := none }) |> fun (s : State) => { s with change := none }) |> fun (s : State) =>
      { s with pvdd := 850 }), ?_⟩,
    ⟨(awake |> fun (s : State) => { s with lift := true }), ?_⟩,
    ⟨(awake |> fun (s : State) => { s with lift := true }), ?_⟩⟩ <;>
    decide +kernel

theorem witness_ResetCommands :
    (∃ (s : State), (s.vio = .inside18 ∨ s.vio = .inside33 ∨ s.vio = .outside))
    ∧ (∃ (s : State), (s.vio = .unselected ∨ s.vio = .dropped))
    ∧ (∃ (s : State), s.resetHold = none)
    ∧ (∃ (k : Byte) (s : State), s.resetHold = none ∧ k ≠ 0xA5)
    ∧ (∃ (s : State), s.resetHold = none ∧ s.domOn Dm.SUP = true)
    ∧ (∃ (r : ResetSource) (s : State), s.resetHold = some r ∧ (r = .powerOn ∨ r = .supply ∨ r = .pin) ∧ s.fuses.getLsbD
      Fuse.SCHUSS_EN = false)
    ∧ (∃ (r : ResetSource) (s : State), s.resetHold = some r ∧ (r = .host ∨ r = .watchdog) ∧ s.fuse Fuse.SCHUSS_EN = false)
    ∧ (∃ (s : State), s.resetHold = none)
    ∧ (∃ (s : State), s.domOn Dm.SUP = true ∧ s.mode ≠ .recovery ∧ s.fuse Fuse.SCHUSS_EN = false)
    ∧ (∃ (s : State), s.domOn Dm.SUP = true ∧ s.mode = .recovery)
    ∧ (∃ (s : State), s.lowPower = true)
    ∧ (∃ (d : Fin 27) (s : State), s.lowPower = true ∧ d.val ≠ 0 ∧ d.val ≠ Dm.CORE ∧ d.val ≠ Dm.CMEM ∧ s.dom d = .ret)
    ∧ (∃ (p : Fin 4) (d : Fin 27) (s : State), s.TakesWrite p pwrPage Adr.PWR_PAD_RELEASE ∧ s.domOn d = true)
    ∧ (∃ (p : Fin 4) (d : Fin 27) (s : State), s.TakesWrite p pwrPage Adr.PWR_PAD_RELEASE ∧ s.domOn d = false) := by
  refine ⟨⟨(awake |> fun (s : State) => { s with vio := .inside18 }), ?_⟩,
    ⟨(awake |> fun (s : State) => { s with vio := .unselected }), ?_⟩,
    ⟨(awake |> fun (s : State) => { s with resetHold := none }), ?_⟩,
    ⟨0xA7, (awake |> fun (s : State) => { s with resetHold := none }), ?_⟩,
    ⟨(awake |> fun (s : State) => { s with resetHold := none }), ?_⟩,
    ⟨.supply, ((awake |> fun (s : State) => { s with resetHold := some (.supply : ResetSource) }) |> fun (s : State) =>
      { s with resetHold := some .supply, fuses := 0x123 }), ?_⟩,
    ⟨.host, ((awake |> fun (s : State) => { s with resetHold := some (.host : ResetSource) }) |> fun (s : State) =>
      { s with fusesRead := 7 }), ?_⟩,
    ⟨(awake |> fun (s : State) => { s with resetHold := none }), ?_⟩,
    ⟨awake, ?_⟩,
    ⟨(awake.setMode .recovery), ?_⟩,
    ⟨((awake |> fun (s : State) => ({ s with doms := Vector.replicate 27 ⟨.off, false⟩ } : State)).setFld Fd.PWR_REG_LP_EN 1),
      ?_⟩,
    ⟨9, (((awake |> fun (s : State) => ({ s with doms := Vector.replicate 27 ⟨.off, false⟩ } : State)).setFld Fd.PWR_REG_LP_EN
      1).updDom 9 fun (q : Dom) => { q with phase := .ret }), ?_⟩,
    ⟨3, 26, awake, ⟨?_, ?_, ?_, ?_⟩, ?_⟩,
    ⟨3, 26, (awake.updDom (26 : Fin 27) fun (q : Dom) => { q with phase := .off }), ⟨?_, ?_, ?_, ?_⟩, ?_⟩⟩ <;>
    decide +kernel

theorem witness_PinCommands :
    (∃ (mv : Nat) (s : State), s.vio = .unselected ∧ s.resetHold = none ∧ mv < 300)
    ∧ (∃ (mv : Nat) (s : State), s.vio = .unselected ∧ s.resetHold = none ∧ 500 ≤ mv ∧ mv ≤ 1300)
    ∧ (∃ (mv : Nat) (s : State), s.vio = .unselected ∧ s.resetHold = none ∧ 1500 ≤ mv)
    ∧ (∃ (s : State), s.vio = .outside)
    ∧ (∃ (s : State), s.vio = .dropped) := by
  refine ⟨⟨299, ((awake |> fun (s : State) => { s with vio := .unselected }) |> fun (s : State) => { s with resetHold := none }),
      ?_⟩,
    ⟨1300, ((awake |> fun (s : State) => { s with vio := .unselected }) |> fun (s : State) => { s with resetHold := none }),
      ?_⟩,
    ⟨1500, ((awake |> fun (s : State) => { s with vio := .unselected }) |> fun (s : State) => { s with resetHold := none }),
      ?_⟩,
    ⟨(awake |> fun (s : State) => { s with vio := .outside }), ?_⟩,
    ⟨(awake |> fun (s : State) => { s with vio := .dropped }), ?_⟩⟩ <;>
    decide +kernel

theorem witness_FrameCommands :
    (∃ (a : TargetAddr) (bs : List Byte) (s : State), s.portLive 2 = true ∧ s.answersTo 2 a = true ∧ 8 ≤ bs.length ∧ bs.length
      ≤ 266 ∧ bs.head? = some 0xD5 ∧ ofBytesLE ((bs.drop 6).take 2) ≤ 256 ∧ bs.length = 10 + ofBytesLE ((bs.drop 6).take 2) ∧
      ofBytesLE (bs.drop (bs.length - 2)) ≠ (s.crcRun 2 (bs.take (bs.length - 2))).crcs[2].result)
    ∧ (∃ (a : TargetAddr) (bs : List Byte) (s : State), s.portLive 2 = true ∧ s.answersTo 2 a = true ∧ 8 ≤ bs.length ∧
      bs.length ≤ 266 ∧ bs.head? = some 0xD5 ∧ ofBytesLE ((bs.drop 6).take 2) ≤ 256 ∧ bs.length = 10 + ofBytesLE ((bs.drop
      6).take 2) ∧ ofBytesLE (bs.drop (bs.length - 2)) = (s.crcRun 2 (bs.take (bs.length - 2))).crcs[2].result)
    ∧ (∃ (ver : Nat), ver ≠ 1)
    ∧ (∃ (p : Fin 4) (body : List Byte) (s : State), s.ports[p].session ≠ .opened ∧ isHello (parseBody body.length body) =
      false)
    ∧ (∃ (p : Fin 4) (seq : Nat) (body : List Byte) (ops : List BodyOp) (s : State), s.ports[p].last ≠ some ⟨seq, body⟩ ∧
      parseBody body.length body = some ops ∧ isHello (some ops) = false ∧ s.bodyFault p (some ops) = none ∧ (seq + 65536 -
      s.ports[p].next) % 65536 = 0 ∧ s.ports[p].held ≠ 0)
    ∧ (∃ (p : Fin 4) (seq : Nat) (body : List Byte) (ops : List BodyOp) (s : State), s.ports[p].last ≠ some ⟨seq, body⟩ ∧
      parseBody body.length body = some ops ∧ isHello (some ops) = false ∧ s.bodyFault p (some ops) = none ∧ 32768 ≤ (seq +
      65536 - s.ports[p].next) % 65536)
    ∧ (∃ (p : Fin 4) (seq : Nat) (body : List Byte) (ops : List BodyOp) (s : State), s.ports[p].last ≠ some ⟨seq, body⟩ ∧
      parseBody body.length body = some ops ∧ isHello (some ops) = false ∧ s.bodyFault p (some ops) = none ∧ (seq + 65536 -
      s.ports[p].next) % 65536 ≠ 0 ∧ (seq + 65536 - s.ports[p].next) % 65536 < 32768)
    ∧ (∃ (p : Fin 4) (seq : Nat) (body : List Byte) (ops : List BodyOp) (s : State), s.ports[p].last ≠ some ⟨seq, body⟩ ∧
      parseBody body.length body = some ops ∧ isHello (some ops) = false ∧ s.bodyFault p (some ops) = none ∧ (seq + 65536 -
      s.ports[p].next) % 65536 = 0 ∧ s.ports[p].held = 0)
    ∧ (∃ (s : State), s.portLive 3 = true)
    ∧ (∃ (p : Fin 4) (f : CmdFrame) (s : State), s.domOn Dm.CORE = true ∧ s.Settled ∧ s.ports[p].frames = [f] ∧ f.ops.length ≤
      s.ports[p].results.length ∧ f.void = false ∧ closes s.ports[p].results = false ∧ s.ports[p].replayDue = false)
    ∧ (∃ (p : Fin 4) (f : CmdFrame) (g : CmdFrame) (rest : List CmdFrame) (s : State), s.ports[p].frames = f :: g :: rest ∧
      f.ops.length ≤ s.ports[p].results.length ∧ f.void = false ∧ closes s.ports[p].results = false)
    ∧ (∃ (p : Fin 4) (s : State), s.ports[p].frames ≠ [])
    ∧ (∃ (p : Fin 4) (s : State), s.domOn Dm.CORE = true ∧ s.Settled ∧ s.ports[p].frames = [])
    ∧ (∃ (r : Response) (rest : List Response) (s : State), s.portLive 3 = true ∧ s.Settled ∧ s.change = none ∧ s.ports[3].out
      = r :: rest ∧ s.ports[3].xportPend = none)
    ∧ (∃ (p : Fin 4) (a : TargetAddr) (r : Response) (rest : List Response) (s : State), s.portLive p = true ∧ s.answersTo p a
      = true ∧ p ≠ 3 ∧ s.Settled ∧ s.change = none ∧ s.ports[p].out = r :: rest ∧ s.ports[p].xportPend = none)
    ∧ (∃ (p : Fin 4) (a : TargetAddr) (s : State), s.portLive p = true ∧ s.answersTo p a = true ∧ p ≠ 3 ∧ s.Settled ∧
      s.ports[p].out = [])
    ∧ (∃ (a : TargetAddr) (s : State), targetHits a s.ports[2].xport s.index = false) := by
  refine ⟨⟨(.ten (BitVec.ofNat 10 (0x200 * bit (bitOf (awake).ports[2].xport 10) + (awake).index))), [0xD5, 1, 3, 0, 0, 0, 4, 0, 0,
      0, 0, 0] ++ [0, 0], awake, ?_⟩,
    ⟨(.ten (BitVec.ofNat 10 (0x200 * bit (bitOf (awake).ports[2].xport 10) + (awake).index))), (([0xD5, 1, 3, 0, 0, 0, 4, 0,
      0, 0, 0, 0] : List Byte) ++ bytesLE 2 ((awake).crcRun 2 [0xD5, 1, 3, 0, 0, 0, 4, 0, 0, 0, 0, 0]).crcs[2].result), awake,
      ?_⟩,
    ⟨3, ?_⟩,
    ⟨3, [0x11, 0x22], awake, ?_⟩,
    ⟨3, 65535, [0, 0, 0, 0], [⟨0, 0, []⟩], (awake.updPort (3 : Fin 4) fun q =>
      { q with next := 65535, held := 1, last := none, session := .opened }), ?_⟩,
    ⟨3, 32767, [0, 0, 0, 0], [⟨0, 0, []⟩], (awake.updPort (3 : Fin 4) fun q =>
      { q with next := 65535, held := 1, last := none, session := .opened }), ?_⟩,
    ⟨3, 32766, [0, 0, 0, 0], [⟨0, 0, []⟩], (awake.updPort (3 : Fin 4) fun q =>
      { q with next := 65535, held := 1, last := none, session := .opened }), ?_⟩,
    ⟨3, 65535, [0, 0, 0, 0], [⟨0, 0, []⟩], ((awake.updPort ((3 : Fin 4)) fun q => { q with held := 0 }).updPort (3 : Fin 4)
      fun q => { q with next := 65535, held := 0, last := none, session := .opened }), ?_⟩,
    ⟨awake, ?_⟩,
    ⟨3, ⟨9, [.nop 1], false, 5⟩, (((awake.updPort ((3 : Fin 4)) fun q =>
      { q with frames := [(⟨9, [.nop 1], false, 5⟩ : CmdFrame)] }).updPort ((3 : Fin 4)) fun q =>
      { q with replayDue := false }).updPort (3 : Fin 4) fun q =>
      { q with frames := [(⟨9, [.nop 1], false, 5⟩ : CmdFrame)], results := [⟨0, 0, []⟩], replayDue := false }), ?_, ⟨?_, ?_⟩,
      ?_, ?_, ?_, ?_, ?_⟩,
    ⟨3, ⟨9, [.nop 1], false, 5⟩, ⟨10, [.txnOpen 2], false, 8⟩, [⟨11, [], false, 9⟩], ((awake.updPort ((3 : Fin 4)) fun q =>
      { q with frames := (⟨9, [.nop 1], false, 5⟩ : CmdFrame) :: (⟨10, [.txnOpen 2], false, 8⟩ : CmdFrame) :: ([⟨11, [], false, 9⟩] : List CmdFrame) }).updPort
      (3 : Fin 4) fun q =>
      { q with frames := (⟨9, [.nop 1], false, 5⟩ : CmdFrame) :: (⟨10, [.txnOpen 2], false, 8⟩ : CmdFrame) :: ([⟨11, [], false, 9⟩] : List CmdFrame), results := [⟨0, 0, []⟩], replayDue := false }),
      ?_⟩,
    ⟨3, (awake.updPort (3 : Fin 4) fun q => { q with frames := [⟨10, [.txnOpen 2], false, 8⟩] }), ?_⟩,
    ⟨3, (awake.updPort ((3 : Fin 4)) fun q => { q with frames := [] }), ?_, ⟨?_, ?_⟩, ?_⟩,
    ⟨⟨1, [1, 2], true⟩, [], (((awake |> fun (s : State) => { s with change := none }).updPort (3) fun q =>
      { q with out := (⟨1, [1, 2], true⟩ : Response) :: ([] : List Response) }).updPort (3) fun q =>
      { q with xportPend := none }), ?_, ⟨?_, ?_⟩, ?_, ?_, ?_⟩,
    ⟨2, (.ten (BitVec.ofNat 10 (0x200 * bit (bitOf ((((awake |> fun (s : State) => { s with change := none }).updPort ((2 :
      Fin 4)) fun q => { q with out := (⟨1, [1, 2], true⟩ : Response) :: ([] : List Response) }).updPort ((2 : Fin 4)) fun q
      => { q with xportPend := none })).ports[2].xport 10) + ((((awake |> fun (s : State) =>
      { s with change := none }).updPort ((2 : Fin 4)) fun q =>
      { q with out := (⟨1, [1, 2], true⟩ : Response) :: ([] : List Response) }).updPort ((2 : Fin 4)) fun q =>
      { q with xportPend := none })).index))), ⟨1, [1, 2], true⟩, [], (((awake |> fun (s : State) =>
      { s with change := none }).updPort ((2 : Fin 4)) fun q =>
      { q with out := (⟨1, [1, 2], true⟩ : Response) :: ([] : List Response) }).updPort ((2 : Fin 4)) fun q =>
      { q with xportPend := none }), ?_, ?_, ?_, ⟨?_, ?_⟩, ?_, ?_, ?_⟩,
    ⟨2, (.ten (BitVec.ofNat 10 (0x200 * bit (bitOf ((awake.updPort ((2 : Fin 4)) fun q =>
      { q with out := [] })).ports[2].xport 10) + ((awake.updPort ((2 : Fin 4)) fun q => { q with out := [] })).index))),
      (awake.updPort ((2 : Fin 4)) fun q => { q with out := [] }), ?_, ?_, ?_, ⟨?_, ?_⟩, ?_⟩,
    ⟨.seven 0x19, (awake.updPort 2 fun q => { q with xport := 0x98 }), ?_⟩⟩ <;>
    decide +kernel

theorem witness_SessionCommands :
    (∃ (p : Fin 4) (s : State), s.portLive p = true ∧ s.Settled ∧ s.change = none ∧ s.ports[p].session = .none ∧
      s.ports[p].frames = [])
    ∧ (∃ (ms : Nat), ms = 0)
    ∧ (∃ (ms : Nat), ms ≠ 0)
    ∧ (∃ (p : Fin 4) (ms : Word) (s : State), s.Hears p ∧ ms ≠ 0)
    ∧ (∃ (p : Fin 4) (s : State), s.Hears p ∧ s.change = none ∧ s.ports[p].session = .opened)
    ∧ (∃ (p : Fin 4) (s : State), s.domOn Dm.CORE = true ∧ s.ports[p].session = .opened ∧ s.ports[p].queued = 0)
    ∧ (∃ (p : Fin 4) (s : State), s.domOn Dm.CORE = true ∧ s.Settled ∧ s.change = none ∧ s.ports[p].session = .opened ∧
      s.ports[p].queued = 0)
    ∧ (∃ (p : Fin 4) (s : State), s.domOn Dm.CORE = true ∧ s.Settled ∧ s.ports[p].session = .grace)
    ∧ (∃ (p : Fin 4) (s : State), s.ports[p].session = .none) := by
  refine ⟨⟨3, (((awake |> fun (s : State) => { s with change := none }).updPort ((3 : Fin 4)) fun q =>
      { q with session := .none }).updPort ((3 : Fin 4)) fun q => { q with frames := [] }), ?_, ⟨?_, ?_⟩, ?_, ?_, ?_⟩,
    ⟨0, ?_⟩,
    ⟨60001, ?_⟩,
    ⟨3, 0x81234567, awake, ⟨?_, ?_, ⟨?_, ?_⟩⟩, ?_⟩,
    ⟨3, ((awake |> fun (s : State) => { s with change := none }).updPort ((3 : Fin 4)) fun q =>
      { q with session := .opened }), ⟨?_, ?_, ⟨?_, ?_⟩⟩, ?_, ?_⟩,
    ⟨3, ((awake.updPort ((3 : Fin 4)) fun q => { q with session := .opened }).updPort ((3 : Fin 4)) fun q =>
      { q with queued := 0 }), ?_⟩,
    ⟨3, (((awake |> fun (s : State) => { s with change := none }).updPort ((3 : Fin 4)) fun q =>
      { q with session := .opened }).updPort ((3 : Fin 4)) fun q => { q with queued := 0 }), ?_, ⟨?_, ?_⟩, ?_, ?_, ?_⟩,
    ⟨3, (awake.updPort ((3 : Fin 4)) fun q => { q with session := .grace }), ?_, ⟨?_, ?_⟩, ?_⟩,
    ⟨3, (awake.updPort ((3 : Fin 4)) fun q => { q with session := .none }), ?_⟩⟩ <;>
    decide +kernel

theorem witness_RingCommands :
    (∃ (r : Fin 32), r.val < 12)
    ∧ (∃ (p : Fin 4) (r : Fin 32) (v : Word) (s : State), 12 ≤ r.val ∧ s.TakesWrite p ringPage (Adr.RING_RING_CFG r) ∧ bitOf
      v.toNat 31 = true ∧ (s.ring r).enable = true)
    ∧ (∃ (p : Fin 4) (r : Fin 32) (v : Word) (s : State), 12 ≤ r.val ∧ s.TakesWrite p ringPage (Adr.RING_RING_CFG r) ∧ bitOf
      v.toNat 31 = true ∧ (s.ring r).enable = false ∧ (s.updRing r fun q => q.layoutFrom r v.toNat).ringBlocked r = false)
    ∧ (∃ (p : Fin 4) (r : Fin 32) (v : Word) (s : State), 12 ≤ r.val ∧ s.TakesWrite p ringPage (Adr.RING_RING_CFG r) ∧ bitOf
      v.toNat 31 = false)
    ∧ (∃ (p : Fin 4) (r : Fin 32) (v : Word) (s : State), ringDeviceProduced r = true ∧ s.TakesWrite p ringPage
      (Adr.RING_RING_CONS r) ∧ (v - (s.ring r).cons).toNat ≤ (s.ring r).fill)
    ∧ (∃ (p : Fin 4) (r : Fin 32) (v : Word) (s : State), (r.val = 30 ∨ r.val = 31) ∧ s.TakesWrite p ringPage
      (Adr.RING_RING_PROD r) ∧ (s.ring r).enable = true ∧ (v - (s.ring r).prod).toNat ≤ (s.ring r).size - (s.ring r).fill)
    ∧ (∃ (p : Fin 4) (r : Fin 32) (v : Word) (s : State), ringDeviceProduced r = true ∧ s.TakesWrite p ringPage
      (Adr.RING_RING_CONS r) ∧ (s.ring r).fill < (v - (s.ring r).cons).toNat)
    ∧ (∃ (p : Fin 4) (r : Fin 32) (v : Word) (s : State), indexIsHost r true = true ∧ s.TakesWrite p ringPage
      (Adr.RING_RING_PROD r) ∧ (s.ring r).enable = false ∧ v ≠ (s.ring r).prod ∧ (v - (s.ring r).prod).toNat ≤ (s.ring r).size
      - (s.ring r).fill)
    ∧ (∃ (r : Fin 32) (b : Bool), indexIsHost r b = false)
    ∧ (∃ (p : Fin 4) (g : Fin 108) (s : State), evtMask g ≠ 0 ∧ s.TakesWrite p g (pageAddr g 0x018))
    ∧ (∃ (p : Fin 4) (g : Fin 108) (s : State), evtMask g ≠ 0 ∧ s.TakesWrite p g (pageAddr g 0x014))
    ∧ (∃ (s : State), s.pageOn ringPage = true) := by
  refine ⟨⟨11, ?_⟩,
    ⟨3, 26, 0x81234567, (awake.updRing (26 : Fin 32) fun q => { q with enable := true }), ?_, ⟨?_, ?_, ?_, ?_⟩, ?_, ?_⟩,
    ⟨3, 12, 0x80200000 + 0x1000, ((awake.updRing (12 : Fin 32) fun q => { q with enable := false }) |> fun (s : State) =>
      { s with rings := Vector.ofFn fun (i : Fin 32) => { Ring.atReset i with enable := false } }), ?_, ⟨?_, ?_, ?_, ?_⟩, ?_,
      ?_, ?_⟩,
    ⟨3, 12, 0x00200000, awake, ?_, ⟨?_, ?_, ?_, ?_⟩, ?_⟩,
    ⟨3, 29, 0xFFFFFFFF, (awake.updRing (29 : Fin 32) fun q => { q with prod := 2, cons := 0xFFFFFFFE }), ?_, ⟨?_, ?_, ?_, ?_⟩,
      ?_⟩,
    ⟨3, 30, 5, ((awake.updRing (30 : Fin 32) fun q => { q with enable := true }).updRing (30 : Fin 32) fun q =>
      { q with prod := 3, cons := 1, log2n := 2 }), ?_, ⟨?_, ?_, ?_, ?_⟩, ?_, ?_⟩,
    ⟨3, 8, 7, (awake.updRing (8 : Fin 32) fun q => { q with prod := 3, cons := 1, log2n := 2 }), ?_, ⟨?_, ?_, ?_, ?_⟩, ?_⟩,
    ⟨3, 30, 5, ((awake.updRing (30 : Fin 32) fun q => { q with enable := false }).updRing (30 : Fin 32) fun q =>
      { q with prod := 3, cons := 1, log2n := 2 }), ?_, ⟨?_, ?_, ?_, ?_⟩, ?_, ?_, ?_⟩,
    ⟨30, false, ?_⟩,
    ⟨3, 4, awake, ?_, ⟨?_, ?_, ?_, ?_⟩⟩,
    ⟨3, 4, awake, ?_, ⟨?_, ?_, ?_, ?_⟩⟩,
    ⟨awake, ?_⟩⟩ <;>
    decide +kernel

theorem witness_ImageCommands :
    (∃ (p : Fin 4) (s : State), s.TakesWrite p bootPage Adr.BOOT_LOAD_CTRL ∧ s.boot.owner = none ∧ s.boot.check = none ∧ s.fld
      Fd.BOOT_SVC_STAT_STATE = 0)
    ∧ (∃ (p : Fin 4) (s : State), s.TakesWrite p bootPage Adr.BOOT_LOAD_CTRL ∧ (s.boot.owner.isSome = true ∨
      s.boot.check.isSome = true))
    ∧ (∃ (p : Fin 4) (o : Fin 512) (s : State), s.TakesWrite p bootPage (Adr.BOOT_WINDOW o) ∧ s.boot.owner = some p ∧
      s.boot.check = none ∧ s.fld Fd.BOOT_LOAD_STAT_KIND = 2 ∧ s.fld Fd.BOOT_LOAD_PAGE_PAGE < 80)
    ∧ (∃ (p : Fin 4) (o : Fin 512) (s : State), s.TakesWrite p bootPage (Adr.BOOT_WINDOW o) ∧ s.boot.owner = some p ∧
      s.boot.check = none ∧ s.fld Fd.BOOT_LOAD_STAT_KIND = 1 ∧ s.fld Fd.BOOT_LOAD_PAGE_PAGE < 12)
    ∧ (∃ (p : Fin 4) (q : Fin 4) (o : Fin 512) (s : State), s.TakesWrite p bootPage (Adr.BOOT_WINDOW o) ∧ s.boot.owner = some
      q ∧ q ≠ p)
    ∧ (∃ (p : Fin 4) (s : State), s.TakesWrite p bootPage Adr.BOOT_LOAD_CTRL ∧ s.boot.owner = some p ∧ s.boot.check = none ∧
      s.svcLive = false)
    ∧ (∃ (p : Fin 4) (s : State), s.TakesWrite p bootPage Adr.BOOT_LOAD_CTRL ∧ s.boot.owner = some p ∧ s.boot.check = none ∧
      s.svcLive = false)
    ∧ (∃ (p : Fin 4) (s : State), s.TakesWrite p bootPage Adr.BOOT_LOAD_CTRL ∧ s.boot.owner = some p ∧ s.boot.check = none)
    ∧ (∃ (p : Fin 4) (b : Bool) (r : Nat) (s : State), s.Settled ∧ s.boot.check = some (p, b) ∧ s.imageCheck (s.fld
      Fd.BOOT_LOAD_STAT_KIND) = .error r ∧ r < 256)
    ∧ (∃ (i : Image) (s : State), s.boot.svc = some i ∧ s.fld Fd.BOOT_SVC_STAT_STATE = 1 ∧ s.domOn Dm.SUP = true ∧ s.domOn
      Dm.CORE = true)
    ∧ (∃ (i : Image) (s : State), s.mode = .bare ∧ i.untested = false ∧ i.version < 2 ^ 32 ∧ i.epoch < 2 ^ 16)
    ∧ (∃ (i : Image) (s : State), s.boot.suppDue = some i ∧ s.domOn Dm.SUP = true ∧ i.untested = false ∧ i.version < 2 ^ 32) := by
  refine ⟨⟨3, (((awake |> fun (s : State) => { s with boot := { s.boot with owner := none } }) |> fun (s : State) =>
      { s with boot := { s.boot with check := none } }).setFld Fd.BOOT_SVC_STAT_STATE (0)), ⟨?_, ?_, ?_, ?_⟩, ?_, ?_, ?_⟩,
    ⟨3, (awake |> fun (s : State) => { s with boot := { s.boot with check := some (1, true) } }), ⟨?_, ?_, ?_, ?_⟩, ?_⟩,
    ⟨3, 26, (((awake |> fun (s : State) => { s with boot := { s.boot with owner := some (3 : Fin 4) } }) |> fun (s : State) =>
      { s with boot := { s.boot with check := none } }).setFld Fd.BOOT_LOAD_STAT_KIND (2)), ⟨?_, ?_, ?_, ?_⟩, ?_, ?_, ?_, ?_⟩,
    ⟨3, 26, (((awake |> fun (s : State) => { s with boot := { s.boot with owner := some (3 : Fin 4) } }) |> fun (s : State) =>
      { s with boot := { s.boot with check := none } }).setFld Fd.BOOT_LOAD_STAT_KIND (1)), ⟨?_, ?_, ?_, ?_⟩, ?_, ?_, ?_, ?_⟩,
    ⟨3, 2, 26, (awake |> fun (s : State) => { s with boot := { s.boot with owner := some (2 : Fin 4) } }), ⟨?_, ?_, ?_, ?_⟩,
      ?_, ?_⟩,
    ⟨3, ((awake |> fun (s : State) => { s with boot := { s.boot with owner := some (3 : Fin 4) } }) |> fun (s : State) =>
      { s with boot := { s.boot with check := none } }), ⟨?_, ?_, ?_, ?_⟩, ?_, ?_, ?_⟩,
    ⟨3, ((awake |> fun (s : State) => { s with boot := { s.boot with owner := some (3 : Fin 4) } }) |> fun (s : State) =>
      { s with boot := { s.boot with check := none } }), ⟨?_, ?_, ?_, ?_⟩, ?_, ?_, ?_⟩,
    ⟨3, ((awake |> fun (s : State) => { s with boot := { s.boot with owner := some (3 : Fin 4) } }) |> fun (s : State) =>
      { s with boot := { s.boot with check := none } }), ⟨?_, ?_, ?_, ?_⟩, ?_, ?_⟩,
    ⟨3, true, 1, ((awake |> fun (s : State) =>
      { s with boot := { s.boot with check := some ((3 : Fin 4), (true : Bool)) } }).setFld Fd.BOOT_LOAD_STAT_KIND 2), ⟨?_,
      ?_⟩, ?_, ?_, ?_⟩,
    ⟨⟨7, 2, 1, 3, [2], false⟩, ((awake |> fun (s : State) =>
      { s with boot := { s.boot with svc := some (⟨7, 2, 1, 3, [2], false⟩ : Image) } }).setFld Fd.BOOT_SVC_STAT_STATE (1)),
      ?_⟩,
    ⟨⟨7, 2, 1, 3, [2], false⟩, (awake.setMode .bare), ?_⟩,
    ⟨⟨7, 2, 1, 3, [2], false⟩, (awake |> fun (s : State) =>
      { s with boot := { s.boot with suppDue := some (⟨7, 2, 1, 3, [2], false⟩ : Image) } }), ?_⟩⟩ <;>
    decide +kernel

theorem witness_BootCommands :
    (∃ (s : State), s.domOn Dm.SUP = true ∧ s.svcLive = true ∧ s.mode = .bare)
    ∧ (∃ (s : State), s.domOn Dm.SUP = true ∧ s.svcLive = true ∧ s.mode = .service)
    ∧ (∃ (s : State), s.domOn Dm.SUP = true ∧ s.bootPhase = true)
    ∧ (∃ (s : State), s.boot.path = .ending ∧ s.boot.glide.left = 0 ∧ s.flag Fd.DBG_CTRL_PDM_TEST = true)
    ∧ (∃ (s : State), s.boot.path = .ending ∧ s.boot.glide.left = 0)
    ∧ (∃ (p : Fin 4) (v : Word) (s : State), s.TakesWrite p fusePage Adr.FUSE_PROG ∧ bitsAt v.toNat 24 8 ≠ 0xC3)
    ∧ (∃ (p : Fin 4) (v : Word) (s : State), s.TakesWrite p fusePage Adr.FUSE_PROG ∧ bitsAt v.toNat 24 8 = 0xC3 ∧ s.pvdd <
      1200)
    ∧ (∃ (p : Fin 4) (v : Word) (s : State), s.TakesWrite p fusePage Adr.FUSE_PROG ∧ bitsAt v.toNat 24 8 = 0xC3 ∧ 1200 ≤
      s.pvdd ∧ bitsAt v.toNat 0 9 < 272 ∧ bitsAt v.toNat 0 9 ≠ 256 ∧ s.fuse 256 = false)
    ∧ (∃ (p : Fin 4) (v : Word) (s : State), s.TakesWrite p fusePage Adr.FUSE_PROG ∧ bitsAt v.toNat 24 8 = 0xC3 ∧ 1200 ≤
      s.pvdd ∧ (272 ≤ bitsAt v.toNat 0 9 ∨ (s.fuse 256 = true ∧ bitsAt v.toNat 0 9 ≠ 257)))
    ∧ (∃ (k : Nat) (s : State), s.blow = [k] ∧ k < 512 ∧ s.pageOn fusePage = true)
    ∧ (∃ (p : Fin 4) (s : State), s.TakesWrite p dbgPage Adr.DBG_CTRL ∧ (s.fuse 256 = true ∨ s.fuse 257 = true))
    ∧ (∃ (p : Fin 4) (s : State), s.TakesWrite p dbgPage Adr.DBG_CTRL ∧ s.fuse 256 = false ∧ s.fuse 257 = false ∧ s.domOn
      (Dm.PORTG 3) = false) := by
  refine ⟨⟨((awake.setMode .bare).setFld Fd.BOOT_SVC_STAT_STATE 2), ?_⟩,
    ⟨((awake.setMode .service).setFld Fd.BOOT_SVC_STAT_STATE 1), ?_⟩,
    ⟨awake, ?_⟩,
    ⟨((awake |> fun (s : State) => { s with boot := { s.boot with path := .ending } }).setFld Fd.DBG_CTRL_PDM_TEST 1), ?_⟩,
    ⟨(awake |> fun (s : State) => { s with boot := { s.boot with path := .ending } }), ?_⟩,
    ⟨3, 0x81234567, awake, ⟨?_, ?_, ?_, ?_⟩, ?_⟩,
    ⟨3, 0xC3000005, (awake |> fun (s : State) => { s with pvdd := 1199 }), ⟨?_, ?_, ?_, ?_⟩, ?_, ?_⟩,
    ⟨3, 0xC300010F, (awake |> fun (s : State) => { s with pvdd := 1200, fusesRead := 0 }), ⟨?_, ?_, ?_, ?_⟩, ?_, ?_, ?_, ?_,
      ?_⟩,
    ⟨3, 0xC3000110, (awake |> fun (s : State) => { s with pvdd := 1200 }), ⟨?_, ?_, ?_, ?_⟩, ?_, ?_, ?_⟩,
    ⟨511, (awake |> fun (s : State) => { s with blow := [(511 : Nat)] }), ?_⟩,
    ⟨3, (awake |> fun (s : State) => { s with fusesRead := 1#512 <<< 257 }), ⟨?_, ?_, ?_, ?_⟩, ?_⟩,
    ⟨3, (awake.updDom (Dm.PORTG 3) fun (q : Dom) => { q with phase := .off }), ⟨?_, ?_, ?_, ?_⟩, ?_, ?_, ?_⟩⟩ <;>
    decide +kernel

theorem witness_ServiceCommands :
    (∃ (id : Nat) (port : Nat) (ps : List Byte) (s : State), s.request = some (id, 1, port, ps) ∧ s.mode = .service ∧ s.domOn
      Dm.CORE = true)
    ∧ (∃ (id : Nat) (port : Nat) (ps : List Byte) (j : Fin 20) (s : State), s.request = some (id, 2, port, ps) ∧ s.mode =
      .service ∧ s.domOn Dm.CORE = true ∧ (ps.getD 0 0).toNat = j.val ∧ s.flag (Fd.JACK_JSTAT_INSERTED j) = true ∧ s.flag
      (Fd.JACK_JCFG_CLS_EN j) = true)
    ∧ (∃ (id : Nat) (port : Nat) (ps : List Byte) (s : State), s.request = some (id, 2, port, ps) ∧ s.mode = .service ∧
      s.domOn Dm.CORE = true ∧ 20 ≤ (ps.getD 0 0).toNat)
    ∧ (∃ (id : Nat) (port : Nat) (ps : List Byte) (s : State), s.request = some (id, 3, port, ps) ∧ s.mode = .service ∧
      s.domOn Dm.CORE = true)
    ∧ (∃ (id : Nat) (port : Nat) (ps : List Byte) (s : State), s.request = some (id, 4, port, ps) ∧ s.mode = .service ∧
      s.domOn Dm.CORE = true ∧ ofBytesLE (ps.take 2) = 0)
    ∧ (∃ (id : Nat) (port : Nat) (ps : List Byte) (n : Fin 16) (s : State), s.request = some (id, 4, port, ps) ∧ s.mode =
      .service ∧ s.domOn Dm.CORE = true ∧ ofBytesLE (ps.take 2) = 2 ^ n.val ∧ s.domOn (Dm.AIN (n.val / 4)) = true)
    ∧ (∃ (id : Nat) (sv : Nat) (port : Nat) (ps : List Byte) (s : State), s.request = some (id, sv, port, ps) ∧ s.domOn Dm.SUP
      = true ∧ s.domOn Dm.CORE = true ∧ (s.mode ≠ .service ∨ sv = 0 ∨ 4 < sv))
    ∧ (∃ (data : List Byte) (s : State), s.ringsUp = true ∧ (s.ring 24).wm = 0 ∧ (s.ring 25).enable = true ∧ (s.ring 25).wm =
      0 ∧ (s.ring 25).fill < (s.ring 25).size ∧ data.length ≤ 56) := by
  refine ⟨⟨0x8001, 3, ([0] ++ List.replicate 55 0 : List Byte), ((((awake.setMode .service).updRing 24 fun q =>
      { q with prod := 1, cons := 0 }) |> fun (s : State) => s.setBytes ((s.ring 24).entryAddr 24 0) (bytesLE 2 (0x8001 : Nat)
      ++ bytesLE 2 1 ++ [0, 0, BitVec.ofNat 8 (3 : Nat), 0] ++ (([0] ++ List.replicate 55 0 : List Byte) : List
      Byte))).setMode .service), ?_⟩,
    ⟨0x8001, 3, ([19] ++ List.replicate 55 0 : List Byte), 19, ((((((awake.setMode .service).setFld (Fd.JACK_JSTAT_INSERTED
      (19 : Fin 20)) 1).setFld (Fd.JACK_JCFG_CLS_EN (19 : Fin 20)) 1).updRing 24 fun q => { q with prod := 1, cons := 0 }) |>
      fun (s : State) => s.setBytes ((s.ring 24).entryAddr 24 0) (bytesLE 2 (0x8001 : Nat) ++ bytesLE 2 2 ++ [0, 0,
      BitVec.ofNat 8 (3 : Nat), 0] ++ (([19] ++ List.replicate 55 0 : List Byte) : List Byte))).setMode .service), ?_⟩,
    ⟨0x8001, 3, ([20] ++ List.replicate 55 0 : List Byte), ((((awake.setMode .service).updRing 24 fun q =>
      { q with prod := 1, cons := 0 }) |> fun (s : State) => s.setBytes ((s.ring 24).entryAddr 24 0) (bytesLE 2 (0x8001 : Nat)
      ++ bytesLE 2 2 ++ [0, 0, BitVec.ofNat 8 (3 : Nat), 0] ++ (([20] ++ List.replicate 55 0 : List Byte) : List
      Byte))).setMode .service), ?_⟩,
    ⟨0x8001, 3, ([0] ++ List.replicate 55 0 : List Byte), ((((awake.setMode .service).updRing 24 fun q =>
      { q with prod := 1, cons := 0 }) |> fun (s : State) => s.setBytes ((s.ring 24).entryAddr 24 0) (bytesLE 2 (0x8001 : Nat)
      ++ bytesLE 2 3 ++ [0, 0, BitVec.ofNat 8 (3 : Nat), 0] ++ (([0] ++ List.replicate 55 0 : List Byte) : List
      Byte))).setMode .service), ?_⟩,
    ⟨0x8001, 3, ([0, 0] ++ List.replicate 54 0 : List Byte), ((((awake.setMode .service).updRing 24 fun q =>
      { q with prod := 1, cons := 0 }) |> fun (s : State) => s.setBytes ((s.ring 24).entryAddr 24 0) (bytesLE 2 (0x8001 : Nat)
      ++ bytesLE 2 4 ++ [0, 0, BitVec.ofNat 8 (3 : Nat), 0] ++ (([0, 0] ++ List.replicate 54 0 : List Byte) : List
      Byte))).setMode .service), ?_⟩,
    ⟨0x8001, 3, ([0, 0x80] ++ List.replicate 54 0 : List Byte), 15, ((((awake.setMode .service).updRing 24 fun q =>
      { q with prod := 1, cons := 0 }) |> fun (s : State) => s.setBytes ((s.ring 24).entryAddr 24 0) (bytesLE 2 (0x8001 : Nat)
      ++ bytesLE 2 4 ++ [0, 0, BitVec.ofNat 8 (3 : Nat), 0] ++ (([0, 0x80] ++ List.replicate 54 0 : List Byte) : List
      Byte))).setMode .service), ?_⟩,
    ⟨0x8001, 5, 3, ([0] ++ List.replicate 55 0 : List Byte), (((awake.updRing 24 fun q => { q with prod := 1, cons := 0 }) |>
      fun (s : State) => s.setBytes ((s.ring 24).entryAddr 24 0) (bytesLE 2 (0x8001 : Nat) ++ bytesLE 2 5 ++ [0, 0,
      BitVec.ofNat 8 (3 : Nat), 0] ++ (([0] ++ List.replicate 55 0 : List Byte) : List Byte))).setMode .service), ?_⟩,
    ⟨[0x11, 0x22], (((awake.updRing 24 fun q => { q with wm := 0 }).updRing 25 fun q => { q with enable := true }).updRing 25
      fun q => { q with wm := 0 }), ?_⟩⟩ <;>
    decide +kernel

theorem witness_DumpCommands :
    (∃ (s : State), s.domOn Dm.SUP = true ∧ s.svcLive = true ∧ s.mode = .bare ∧ s.fld Fd.DUMP_STATUS_STATE = 0)
    ∧ (∃ (s : State), s.domOn Dm.SUP = true ∧ s.svcLive = true ∧ s.mode = .service ∧ s.fld Fd.DUMP_STATUS_STATE ≠ 0)
    ∧ (∃ (s : State), s.domOn Dm.SUP = true ∧ s.svcLive = true)
    ∧ (∃ (s : State), s.domOn Dm.SUP = true ∧ s.domOn Dm.CMEM = true ∧ s.fld Fd.DUMP_STATUS_STATE = 1)
    ∧ (∃ (s : State), s.pageTakes dumpPage = true ∧ s.fld Fd.DUMP_STATUS_STATE = 2)
    ∧ (∃ (s : State), s.fld Fd.DUMP_STATUS_STATE ≠ 2)
    ∧ (∃ (p : Fin 4) (s : State), s.TakesWrite p dumpPage Adr.DUMP_CTRL ∧ s.fld Fd.DUMP_STATUS_STATE = 2)
    ∧ (∃ (off : Nat) (s : State), s.boot.stream = some off ∧ s.domOn Dm.SUP = true ∧ s.domOn Dm.CORE = true ∧ (s.ring
      27).enable = true ∧ (s.ring 27).fill < (s.ring 27).size ∧ (s.ring 27).wm = 0 ∧ off + 248 < s.fld Fd.DUMP_LEN_BYTES)
    ∧ (∃ (off : Nat) (s : State), s.boot.stream = some off ∧ s.domOn Dm.SUP = true ∧ s.domOn Dm.CORE = true ∧ (s.ring
      27).enable = true ∧ (s.ring 27).fill < (s.ring 27).size ∧ s.fld Fd.DUMP_LEN_BYTES ≤ off + 248) := by
  refine ⟨⟨(((awake.setMode .bare).setFld Fd.DUMP_STATUS_STATE (0)).setFld Fd.BOOT_SVC_STAT_STATE 2), ?_⟩,
    ⟨(((awake.setMode .service).setFld Fd.BOOT_SVC_STAT_STATE 2).setFld Fd.DUMP_STATUS_STATE 2), ?_⟩,
    ⟨(awake.setFld Fd.BOOT_SVC_STAT_STATE 2), ?_⟩,
    ⟨(awake.setFld Fd.DUMP_STATUS_STATE (1)), ?_⟩,
    ⟨(awake.setFld Fd.DUMP_STATUS_STATE (2)), ?_⟩,
    ⟨awake, ?_⟩,
    ⟨3, (awake.setFld Fd.DUMP_STATUS_STATE (2)), ⟨?_, ?_, ?_, ?_⟩, ?_⟩,
    ⟨3, ((((awake |> fun (s : State) => { s with boot := { s.boot with stream := some (3 : Nat) } }).updRing 27 fun q =>
      { q with enable := true }).updRing 27 fun q => { q with wm := 0 }).setFld Fd.DUMP_LEN_BYTES ((3 : Nat) + 249)), ?_⟩,
    ⟨3, ((awake |> fun (s : State) => { s with boot := { s.boot with stream := some (3 : Nat) } }).updRing 27 fun q =>
      { q with enable := true }), ?_⟩⟩ <;>
    decide +kernel

theorem witness_StepRunsFront :
    (∃ (c : Instr) (rest : List Instr) (s : State), s.pending = c :: rest)
    ∧ (∃ (s : State), s.pending = []) := by
  refine ⟨⟨.coarseExit, [.liftReady], (awake |> fun (s : State) =>
      { s with pending := (.coarseExit : Instr) :: ([.liftReady] : List Instr) }), ?_⟩,
    ⟨(awake |> fun (s : State) => { s with pending := [] }), ?_⟩⟩ <;>
    decide +kernel

theorem witness_EventRecords :
    (∃ (p : Nat) (b : Nat) (s : State), (s.evt p b = true ∨ bitOf (s.reg (pageAddr p 0x014)).toNat b = false))
    ∧ (∃ (p : Nat) (b : Nat) (s : State), s.evtNow = none ∧ s.evt p b = false ∧ bitOf (s.reg (pageAddr p 0x014)).toNat b =
      true ∧ s.domOn Dm.CORE = false)
    ∧ (∃ (p : Nat) (b : Nat) (q : Fin 4) (s : State), s.evtNow = none ∧ s.evt p b = false ∧ bitOf (s.reg (pageAddr p
      0x014)).toNat b = true ∧ s.ringsUp = true ∧ s.ports[q].hears = true ∧ (∀ r : Fin 4, r ≠ q → s.ports[r].hears = false) ∧
      (s.ring (8 + q)).enable = true ∧ (s.ring (8 + q)).wm = 0 ∧ (s.ring (8 + q)).fill < (s.ring (8 + q)).size)
    ∧ (∃ (p : Nat) (b : Nat) (q : Fin 4) (s : State), s.evtNow = none ∧ s.evt p b = false ∧ bitOf (s.reg (pageAddr p
      0x014)).toNat b = true ∧ s.ringsUp = true ∧ s.ports[q].hears = true ∧ (∀ r : Fin 4, r ≠ q → s.ports[r].hears = false) ∧
      (s.ring (8 + q)).enable = true ∧ (s.ring (8 + q)).fill = (s.ring (8 + q)).size ∧ bitOf (s.reg (pageAddr 0x00C
      0x014)).toNat 1 = false)
    ∧ (∃ (p : Nat) (b : Nat) (l : List EvtRec) (s : State), s.evtNow = some l ∧ s.evt p b = false ∧ bitOf (s.reg (pageAddr p
      0x014)).toNat b = true) := by
  refine ⟨⟨4, 6, (awake.setReg (pageAddr (4 : Nat) 0x014) 0x1), ?_⟩,
    ⟨4, 31, (((awake.updDom Dm.CORE fun (q : Dom) => { q with phase := .off }) |> fun (s : State) => (s.setReg (pageAddr (4 :
      Nat) 0x014) 0xFFFFFFFF).setReg (pageAddr (4 : Nat) 0x010) 0).updDom 2 fun (q : Dom) => { q with phase := .ret }), ?_⟩,
    ⟨4, 31, 3, (((((awake.updRing (8 + (3 : Fin 4)) fun x => { x with enable := true }).updRing (8 + (3 : Fin 4)) fun x =>
      { x with wm := 0 }) |> fun (s : State) => (s.setReg (pageAddr (4 : Nat) 0x014) 0xFFFFFFFF).setReg (pageAddr (4 : Nat)
      0x010) 0) |> fun (s : State) =>
      { s with ports := (Vector.ofFn fun (i : Fin 4) => { Port.atReset i with session := if i = (3 : Fin 4) then .opened else .none }) }).updRing
      (8 + (3 : Fin 4)) fun r => { r with enable := true, wm := 0, prod := 0x21, cons := 0x1E, log2n := 2, lost := 7 }), ?_⟩,
    ⟨4, 31, 3, (((((awake.updRing (8 + (3 : Fin 4)) fun x => { x with enable := true }) |> fun (s : State) => (s.setReg
      (pageAddr (4 : Nat) 0x014) 0xFFFFFFFF).setReg (pageAddr (4 : Nat) 0x010) 0) |> fun (s : State) =>
      { s with ports := (Vector.ofFn fun (i : Fin 4) => { Port.atReset i with session := if i = (3 : Fin 4) then .opened else .none }) }).updRing
      (8 + (3 : Fin 4)) fun r => { r with enable := true, wm := 0, prod := 0x22, cons := 0x1E, log2n := 2, lost := 7 }).setReg
      (pageAddr 0x00C 0x014) 0), ?_⟩,
    ⟨4, 31, [], ((awake |> fun (s : State) => (s.setReg (pageAddr (4 : Nat) 0x014) 0xFFFFFFFF).setReg (pageAddr (4 : Nat)
      0x010) 0) |> fun (s : State) => { s with evtNow := some ([] : List EvtRec) }), ?_⟩⟩ <;>
    decide +kernel

theorem witness_BibValues :
    (∃ (p : Fin 4) (i : Bool) (k : Nat) (s : State) (t : State), s.txn.counter < 65536 ∧ s.takeBib p i = (some k, t)) := by
  refine ⟨3, true, 0, ((awake |> fun (s : State) => { s with txn := { s.txn with counter := 65535 } }).updBib 7 fun _ =>
    { Bib.none_ with value := 65535, state := .opened }), (((((awake |> fun (s : State) =>
    { s with txn := { s.txn with counter := 65535 } }).updBib 7 fun _ =>
    { Bib.none_ with value := 65535, state := .opened })).takeBib (3 : Fin 4) (true : Bool)).2), ?_, Prod.ext ?_ (by
    with_reducible rfl)⟩ <;> decide +kernel

theorem witness_ForeignBib :
    (∃ (p : Fin 4) (k : Nat) (s : State) (t : State), s.Hears p ∧ s.mayOpen p = true ∧ s.takeBib p false = (some k, t))
    ∧ (∃ (p : Fin 4) (v : Nat) (s : State), (∀ j : Fin 64, (s.bibAt j).value = v → (s.bibAt j).port ≠ p.val))
    ∧ (∃ (p : Fin 4) (a : Word) (v : BitVec 16) (bs : List Byte) (s : State), s.Hears p ∧ a.toNat % 4 = 0 ∧ bs.length % 4 = 0
      ∧ bs ≠ [] ∧ v ≠ 0 ∧ s.ownBib p v.toNat = none)
    ∧ (∃ (p : Fin 4) (a : Word) (v : BitVec 16) (d : Nat) (s : State), s.Hears p ∧ a.toNat % 4 = 0 ∧ v ≠ 0 ∧ s.ownBib p
      v.toNat = none ∧ addrDomain a.toNat = some d ∧ s.domOn d = true)
    ∧ (∃ (p : Fin 4) (v : BitVec 16) (s : State), s.Hears p ∧ s.ownBib p v.toNat = none) := by
  refine ⟨⟨3, 0, awake, (((awake).takeBib (3 : Fin 4) false).2), ⟨?_, ?_, ⟨?_, ?_⟩⟩, ?_, Prod.ext ?_ (by with_reducible rfl)⟩,
    ⟨3, 7, (awake.updBib 5 fun _ => { Bib.none_ with value := 7, state := .opened, port := 1 }), ?_⟩,
    ⟨3, 0x40010040, 0x1234, [1, 2, 3, 4, 5, 6, 7, 8], awake, ⟨?_, ?_, ⟨?_, ?_⟩⟩, ?_, ?_, ?_, ?_, ?_⟩,
    ⟨3, 0x40010040, 0x1234, (addrDomain 0x40010040).getD 0, awake, ⟨?_, ?_, ⟨?_, ?_⟩⟩, ?_, ?_, ?_, ?_, ?_⟩,
    ⟨3, 0x1234, awake, ⟨?_, ?_, ⟨?_, ?_⟩⟩, ?_⟩⟩ <;>
    decide +kernel

theorem witness_StagedWrite :
    (∃ (p : Fin 4) (a : Word) (v : BitVec 16) (k : Nat) (s : State), s.Hears p ∧ a.toNat % 4 = 0 ∧ v ≠ 0 ∧ s.ownBib p v.toNat
      = some k ∧ (s.bibAt k).state = .opened ∧ stageable a.toNat = true ∧ s.checkWord p true a.toNat = (0x00, none) ∧
      s.txn.used.length < 8192) := by
  refine ⟨3, 0x50040008, 0x1234, 3, (awake.updBib (3 : Nat) fun _ =>
    { Bib.none_ with value := (0x1234 : BitVec 16).toNat, state := .opened, port := (3 : Fin 4).val }), ⟨?_, ?_, ⟨?_, ?_⟩⟩,
    ?_, ?_, ?_, ?_, ?_, ?_, ?_⟩ <;> decide +kernel

theorem witness_StagedApply :
    (∃ (slot : Fin 4096) (e : Entry) (v : BitVec 16) (k : Nat) (s : State), s.slotOf v.toNat = some k ∧ s.applyNext k = true ∧
      s.tickWrites = [] ∧ s.change = none ∧ s.domOn Dm.PLL = true ∧ s.domOn Dm.FAB = true ∧ s.Settled ∧ (s.bibAt k).state =
      .inFlight ∧ (s.bibAt k).later < 4 ∧ s.txn.entriesOf (s.bibAt k).value = [e] ∧ e.kind = 1 ∧ e.addr = slotAddr slot) := by
  refine ⟨4095, ⟨9, 0x1234, slotAddr 4095, 1, 0x81234567⟩, 0x1234, 3, ((awake |> fun (s : State) => s.updBib (3 : Nat) fun _
    =>
    { Bib.none_ with value := (0x1234 : BitVec 16).toNat, state := .inFlight, versions := [(paramPage (slotAddr 4095), s.pageVer (paramPage (slotAddr 4095)))] })
    |> fun (s : State) =>
    ({ s with tickWrites := [], txn := { s.txn with staging := [⟨8, 0x1235, 5, 1, 0⟩, (⟨9, 0x1234, slotAddr 4095, 1, 0x81234567⟩ : Entry)], order := 1 } }
    : State)), ?_, ?_, ?_, ?_, ?_, ?_, ⟨?_, ?_⟩, ?_, ?_, ?_, ?_, ?_⟩ <;> decide +kernel

theorem witness_PortIsolation :
    (∃ (p : Fin 4) (q : Fin 4) (s : State), q ≠ p ∧ s.Settled ∧ s.change = none)
    ∧ (∃ (p : Fin 4) (q : Fin 4) (s : State), q ≠ p ∧ s.Settled ∧ s.change = none ∧ s.ports[p].frames.length = 1)
    ∧ (∃ (q : Fin 4) (s : State), q ≠ 3 ∧ s.Settled ∧ s.change = none)
    ∧ (∃ (p : Fin 4) (q : Fin 4) (s : State), q ≠ p ∧ s.Settled ∧ s.change = none)
    ∧ (∃ (p : Fin 4) (q : Fin 4) (s : State), q ≠ p ∧ s.Settled ∧ s.change = none ∧ s.ports[p].frames.length ≤ 1)
    ∧ (∃ (p : Fin 4) (q : Fin 4) (s : State), q ≠ p ∧ s.Settled ∧ s.change = none)
    ∧ (∃ (p : Fin 4) (q : Fin 4) (s : State), q ≠ p ∧ s.Settled ∧ s.change = none ∧ s.ports[p].frames.length ≤ 1)
    ∧ (∃ (p : Fin 4) (q : Fin 4) (s : State), q ≠ p ∧ s.Settled ∧ s.change = none ∧ s.ports[p].frames.length ≤ 1) := by
  refine ⟨⟨2, 3, ((awake |> fun (s : State) => { s with change := none }).updPort 2 fun x =>
      { x with frames := [⟨7, [.nop 2], false, 1⟩] }), ?_, ⟨?_, ?_⟩, ?_⟩,
    ⟨2, 3, ((awake |> fun (s : State) => { s with change := none }).updPort 2 fun x =>
      { x with frames := [⟨7, [.nop 2], false, 1⟩] }), ?_, ⟨?_, ?_⟩, ?_, ?_⟩,
    ⟨2, (awake |> fun (s : State) => { s with change := none }), ?_, ⟨?_, ?_⟩, ?_⟩,
    ⟨3, 2, ((awake |> fun (s : State) => { s with change := none }).updPort 3 fun x =>
      { x with frames := [⟨7, [.nop 2], false, 1⟩], results := [⟨2, 0, closeData⟩], session := .opened }), ?_, ⟨?_, ?_⟩, ?_⟩,
    ⟨3, 2, ((awake |> fun (s : State) => { s with change := none }).updPort 3 fun x =>
      { x with frames := [⟨7, [.nop 2], false, 1⟩], results := [⟨2, 0, closeData⟩], session := .opened }), ?_, ⟨?_, ?_⟩, ?_,
      ?_⟩,
    ⟨3, 2, (awake |> fun (s : State) => { s with change := none }), ?_, ⟨?_, ?_⟩, ?_⟩,
    ⟨3, 2, (awake |> fun (s : State) => { s with change := none }), ?_, ⟨?_, ?_⟩, ?_, ?_⟩,
    ⟨3, 2, (awake |> fun (s : State) => { s with change := none }), ?_, ⟨?_, ?_⟩, ?_, ?_⟩⟩ <;>
    decide +kernel

theorem witness_GlideRules :
    (∃ (l : Nat) (i : Nat), i < glideTicks l)
    ∧ (∃ (g : Glide) (x : Gain), x = g.target)
    ∧ (∃ (g : Glide) (x : Gain), x ≠ g.target) := by
  refine ⟨⟨6, 3, ?_⟩,
    ⟨⟨.db 5 2, .mute, 3, 7, .db 9 4⟩, .mute, ?_⟩,
    ⟨⟨.db 5 2, .mute, 3, 7, .db 9 4⟩, .db 0 1, ?_⟩⟩ <;>
    decide +kernel

theorem witness_CrcSettings :
    (∃ (a : CrcParty) (s : State), s.crcReach a = true ∧ s.crcOwner = some a)
    ∧ (∃ (a : CrcParty) (s : State), s.crcReach a = true ∧ s.crcOwner = some a)
    ∧ (∃ (a : CrcParty) (s : State), s.crcReach a = true ∧ s.crcOwner = some a)
    ∧ (∃ (a : CrcParty) (s : State), s.crcReach a = true ∧ s.crcOwner = some a)
    ∧ (∃ (a : CrcParty) (s : State), s.crcReach a = true ∧ s.crcOwner = some a) := by
  refine ⟨⟨.host 1, (awake |> fun (s : State) => { s with crcOwner := some (.host 1 : CrcParty) }), ?_⟩,
    ⟨.host 1, (awake |> fun (s : State) => { s with crcOwner := some (.host 1 : CrcParty) }), ?_⟩,
    ⟨.host 1, (awake |> fun (s : State) => { s with crcOwner := some (.host 1 : CrcParty) }), ?_⟩,
    ⟨.host 1, (awake |> fun (s : State) => { s with crcOwner := some (.host 1 : CrcParty) }), ?_⟩,
    ⟨.host 1, (awake |> fun (s : State) => { s with crcOwner := some (.host 1 : CrcParty) }), ?_⟩⟩ <;>
    decide +kernel

/-- A loaded SVC image of one section with a valid signature (17_boot_images_recovery.md Table 17.4). -/
abbrev imageRows : List Nat :=
  [0x4457494d0201c00001000000030001000200010002000000000000000000000000000001010000000000000000000000,
   0x000000000000000000000000000000006b17d1f2e12c4247f8bce6e563a440f277037d812deb33a0f4a13945d898c296,
   0x4fe342e2fe1a7f9b8ee7eb4a7c0f9e162bce33576b315ececbb6406837bf51f56b17d1f2e12c4247f8bce6e563a440f2,
   0x77037d812deb33a0f4a13945d898c296c0c53ecb8e859e0125a9424d423c4eb41189c398934966f4399155e1dee5e8e0]
abbrev imageLoaded : State :=
  ((({ awake with fusesRead := 0, boot := { awake.boot with check := some (3, false) } }.setFld Fd.BOOT_LOAD_STAT_KIND 2).setFld
    Fd.BOOT_LOAD_CTRL_KIND 2).setFld Fd.BOOT_CFG_STRICT 0).setBytes
    0x20040000 (imageRows.flatMap (bytesBE 48))

/-- What an image needs to be accepted on every stepping, outside STRICT and with no other image running. -/
theorem imageCheck_ok (s : State) (h1 : s.boot.supp = none) (h2 : s.strict = false)
    (h3 : let h := s.header 0x20040000
      ¬ (h.magic ≠ 0x4D495744 ∨ h.format ≠ 1 ∨ h.hdrLen ≠ 192 ∨ h.epoch = 0 ∨ h.epoch = 0xFFFF
        ∨ h.kind ≠ s.fld Fd.BOOT_LOAD_CTRL_KIND)
      ∧ ¬ 2048 * 80 < 192 + h.length
      ∧ ¬ Crc.crc32.value (s.bytesAt (0x20040000 + 192) h.length) ≠ h.crc
      ∧ ¬ (s.fuseBits 0 256 ≠ ofBytesLE (sha256 h.key) ∧ ¬ (s.fuseBits 0 256 = 0 ∧ !s.fuse Fuse.SEALED))
      ∧ ¬ (!ecdsaValid h.key h.signature (sha256 (s.bytesAt 0x20040000 128 ++ s.bytesAt (0x20040000 + 192) h.length))) = true
      ∧ (∀ k, k < h.stepKnown + 1 → bitOf h.stepTol k = true)
      ∧ h.peerMin ≤ 1 ∧ 2 ≤ h.peerMax) :
    ∃ u, s.imageCheck 2 = .ok u := by
  obtain ⟨a, b, c, d, e, f, g, k⟩ := h3
  have f' : ¬ (Config.stepping ≤ (s.header 0x20040000).stepKnown ∧ (!bitOf (s.header 0x20040000).stepTol Config.stepping) = true) :=
    fun x => by simp [f _ (Nat.lt_succ_of_le x.1)] at x
  have g' : (s.header 0x20040000).peerMin ≤ s.supEpoch ∧ s.supEpoch ≤ (s.header 0x20040000).peerMax := by
    unfold State.supEpoch
    rw [h1]
    dsimp only
    split <;> omega
  unfold State.imageCheck
  rw [show imageRegion 2 = (0x20040000, 80) from rfl]
  simp only [h1, h2]
  rw [if_neg a, if_neg b, if_neg c, if_neg d, if_neg e, if_neg f', if_neg (by simp [g'])]
  rw [if_neg (by simp), if_neg (by simp)]
  exact ⟨_, rfl⟩

/-- The clause of `ImageCommands` for an accepted image: whether it is tested depends on the stepping, which is open. -/
theorem witness_ImageCommands_accepted : ∃ (p : Fin 4) (u : Bool) (s : State), s.Settled ∧ s.boot.check = some (p, false) ∧
    s.mode ≠ .recovery ∧ s.imageCheck (s.fld Fd.BOOT_LOAD_STAT_KIND) = .ok u := by
  have h2 : imageLoaded.fld Fd.BOOT_LOAD_STAT_KIND = 2 := by decide +kernel
  have ⟨u, hu⟩ := imageCheck_ok imageLoaded (by decide +kernel) (by decide +kernel) (by decide +kernel)
  exact ⟨3, u, imageLoaded, ⟨by decide +kernel, by decide +kernel⟩, by decide +kernel, by decide +kernel, h2.symm ▸ hu⟩

end Sys2Proof.Machine
end

section
/-!
PROOFS. The clear of a port's counts (03_serial_audio_ports.md R85): a run of field clears as one operation, what the clear does
to lines and latched counts while STOPPED, and its denial in any other state.
-/
namespace Sys2Proof.Machine

/-! ## Fields put to 0 one after another -/

/-- `s` with the fields `fs` put to 0 in turn. -/
def State.zeroFlds (s : State) (fs : List Fld) : State := fs.foldl (fun u f => u.setFld f 0) s

@[simp] theorem zeroFlds_nil (s : State) : s.zeroFlds [] = s := rfl

@[simp] theorem zeroFlds_cons (s : State) (f : Fld) (fs : List Fld) : s.zeroFlds (f :: fs) = (s.setFld f 0).zeroFlds fs := rfl

@[simp] theorem zeroFlds_saps (s : State) (fs : List Fld) : (s.zeroFlds fs).saps = s.saps := by
  induction fs generalizing s with
  | nil => rfl
  | cons f fs ih => simp [ih]

/-- Clearing bits anywhere leaves bits that are 0 at 0. -/
theorem bitsAt_putBits_zero {x lo' w' : Nat} (lo w : Nat) (h : bitsAt x lo' w' = 0) :
    bitsAt (putBits x lo w 0) lo' w' = 0 := by
  apply Nat.eq_of_testBit_eq
  intro j
  have hj : (decide (j < w') && x.testBit (lo' + j)) = false := by rw [← testBit_bitsAt, h, Nat.zero_testBit]
  rw [testBit_bitsAt, testBit_putBits, Nat.zero_testBit, Nat.zero_testBit]
  split
  · exact Bool.and_false _
  · exact hj

/-- A field that reads 0 still does when any field is put to 0, overlapping or not. -/
theorem fld_setFld_zero {s : State} {f g : Fld} (hf : f.lo ≤ f.hi ∧ f.hi < 32) (h : s.fld g = 0) : (s.setFld f 0).fld g = 0 := by
  by_cases ha : f.addr = g.addr
  · rw [State.fld, ← ha, toNat_reg_setFld s f 0 hf]
    rw [State.fld, ← ha] at h
    exact bitsAt_putBits_zero _ _ h
  · rw [fld_setFld_addr s 0 ha, h]

/-- Every field put to 0 reads 0 at the end, and so does one that read 0 before. -/
theorem fld_zeroFlds {s : State} {fs : List Fld} {g : Fld} (hfs : ∀ f ∈ fs, f.lo ≤ f.hi ∧ f.hi < 32)
    (h : g ∈ fs ∨ s.fld g = 0) : (s.zeroFlds fs).fld g = 0 := by
  induction fs generalizing s with
  | nil => simpa using h
  | cons f fs ih =>
    obtain ⟨hf, hrest⟩ := List.forall_mem_cons.1 hfs
    refine ih hrest ?_
    rcases h with h | h
    · rcases List.mem_cons.1 h with rfl | h
      · exact .inr (by rw [fld_setFld_same s g 0 hf, Nat.zero_mod])
      · exact .inl h
    · exact .inr (fld_setFld_zero hf h)

/-- Only the registers of the fields put to 0 change. -/
theorem zeroFlds_quiet {R : Nat → Prop} (s : State) {fs : List Fld} (h : ∀ f ∈ fs, R f.addr) : Quiet R s (s.zeroFlds fs) := by
  induction fs generalizing s with
  | nil => exact .refl R s
  | cons f fs ih =>
    obtain ⟨hf, hrest⟩ := List.forall_mem_cons.1 h
    exact (setFld_quiet s 0 hf).trans (ih (s.setFld f 0) hrest)

/-! ## A change of one port -/

/-- The changed port reads as changed. -/
theorem updSap_saps_same (s : State) (n : Fin 32) (f : Sap → Sap) : (s.updSap n f).saps[n] = f s.saps[n] := by
  simp

/-- The other ports stay. -/
theorem updSap_saps_ne (s : State) {n m : Fin 32} (f : Sap → Sap) (h : m ≠ n) : (s.updSap n f).saps[m] = s.saps[m] := by
  have hv : n.val ≠ m.val := fun e => h (Fin.ext e.symm)
  simp [hv]

/-! ## The clear of the counts (R83, R85) -/

/-- A line with the four counts it keeps at 0. -/
def SapLine.zeroCounts (l : SapLine) : SapLine := { l with fin := 0, fout := 0, dropped := 0, inserted := 0 }

/-- The counts of line `k` of port `n` that a read of FRAMES_IN latches (R84). -/
def latchedCounts (n k : Nat) : List Fld :=
  [Fd.SAP_FRAMES_OUT_COUNT n k, Fd.SAP_FILL_COUNT n k, Fd.SAP_DROPPED_COUNT n k, Fd.SAP_INSERTED_COUNT n k]

/-- The latched counts of both lines of port `n`. -/
def portCounts (n : Nat) : List Fld := latchedCounts n 0 ++ latchedCounts n 1

theorem mem_latchedCounts {n k : Nat} {f : Fld} : f ∈ latchedCounts n k ↔ f = Fd.SAP_FRAMES_OUT_COUNT n k
    ∨ f = Fd.SAP_FILL_COUNT n k ∨ f = Fd.SAP_DROPPED_COUNT n k ∨ f = Fd.SAP_INSERTED_COUNT n k := by
  simp only [latchedCounts, List.mem_cons, List.not_mem_nil, or_false]

theorem mem_portCounts {n : Nat} {f : Fld} : f ∈ portCounts n ↔ ∃ k : Fin 2, f ∈ latchedCounts n k := by
  simp [portCounts, Fin.exists_fin_two]

/-- A latched count lies within its 32-bit register. -/
theorem portCounts_inWord {n : Nat} {f : Fld} (h : f ∈ portCounts n) : f.lo ≤ f.hi ∧ f.hi < 32 := by
  obtain ⟨k, hk⟩ := mem_portCounts.1 h
  rcases mem_latchedCounts.1 hk with rfl | rfl | rfl | rfl <;> simp

/-- A write to a page that takes it clears, or is denied, at once. -/
theorem exec_sapCntClear {n : Fin 32} {s : State} (h : s.pageTakes (sapPage n) = true) :
    exec (.sapCntClear n) s = .next (s.sapCntClear n) :=
  congrArg Host.Outcome.next (if_pos h)

/-- While STOPPED the counts of both lines and the latched counts are put to 0. -/
theorem sapCntClear_stopped {n : Fin 32} {s : State} (h : s.sapState n = .stopped) :
    s.sapCntClear n =
      (s.updSap n fun p => { p with lines := p.lines.map SapLine.zeroCounts }).zeroFlds (portCounts n) :=
  if_pos (beq_iff_eq.2 h)

/-- In any other state only ERR.CLEAR_DENIED is set (R88: bit 1). -/
theorem sapCntClear_denied {n : Fin 32} {s : State} (h : s.sapState n ≠ .stopped) :
    s.sapCntClear n = s.setErr (sapPage n) 1 :=
  if_neg (mt beq_iff_eq.1 h)

section Stopped
variable {n : Fin 32} {s : State} (h : s.sapState n = .stopped)
include h

theorem sapCntClear_line (k : Fin 2) : (s.sapCntClear n).line n k = (s.line n k).zeroCounts := by
  rw [State.line, sapCntClear_stopped h, zeroFlds_saps, updSap_saps_same]
  exact Vector.getElem_map _ k.isLt

theorem sapCntClear_otherPort {m : Fin 32} (hm : m ≠ n) : (s.sapCntClear n).saps[m] = s.saps[m] := by
  rw [sapCntClear_stopped h, zeroFlds_saps, updSap_saps_ne s _ hm]

theorem sapCntClear_latched (k : Fin 2) : ∀ f ∈ latchedCounts n k, (s.sapCntClear n).fld f = 0 := by
  intro f hf
  rw [sapCntClear_stopped h]
  exact fld_zeroFlds (fun _ => portCounts_inWord) (.inl (mem_portCounts.2 ⟨k, hf⟩))

/-- Of registers and memory only the latched counts of both lines change. -/
theorem sapCntClear_quiet :
    Quiet (fun a => ∃ k : Fin 2, a = Adr.SAP_FRAMES_OUT n k ∨ a = Adr.SAP_FILL n k ∨ a = Adr.SAP_DROPPED n k
      ∨ a = Adr.SAP_INSERTED n k) s (s.sapCntClear n) := by
  rw [sapCntClear_stopped h]
  refine Quiet.trans (t := s.updSap n _) (.same rfl rfl rfl) (zeroFlds_quiet _ fun f hf => ?_)
  obtain ⟨k, hk⟩ := mem_portCounts.1 hf
  refine ⟨k, ?_⟩
  rcases mem_latchedCounts.1 hk with rfl | rfl | rfl | rfl <;> simp

end Stopped

/-- What setting an ERR bit leaves: everything but the registers, and of these all but the ERR of its page. -/
theorem setErr_frame (s : State) (p b : Nat) :
    s.setErr p b = { s with regs := (s.setErr p b).regs } ∧ ∀ a, a ≠ pageAddr p 0x01C → (s.setErr p b).reg a = s.reg a :=
  ⟨rfl, fun _ ha => reg_setReg_ne s _ ha.symm⟩

/-- Settles O7, by the port's state: STOPPED clears, every other state denies. -/
theorem countClear : Obligations.CountClear := by
  unfold Obligations.CountClear
  constructor
  · intro n s ht hs
    refine ⟨_, exec_sapCntClear ht, fun k => ?_, fun m => sapCntClear_otherPort hs, sapCntClear_quiet hs⟩
    rw [sapCntClear_line hs k]
    refine ⟨rfl, rfl, rfl, rfl, ?_⟩
    simpa only [latchedCounts, List.forall_mem_cons, List.not_mem_nil, false_implies, implies_true, and_true]
      using sapCntClear_latched hs k
  · intro n s ht hs
    refine ⟨_, exec_sapCntClear ht, ?_⟩
    rw [sapCntClear_denied hs]
    exact ⟨err_setErr s _ (by decide), setErr_frame s _ 1⟩

end Sys2Proof.Machine
end

section
/-!
PROOFS. The settings of CRC25 (12_crc_engines.md R295): a change of one check-value engine, what CTRL.RESET and a write to a setting
do when the owner of CRC25 gives them, and what both leave unchanged.
-/
namespace Sys2Proof.Machine

/-! ## A change of one engine -/

/-- `t` is `s` with engine `i` changed by `f`: registers, memory, rings and the other engines stay. -/
def EngineChanged (i : Fin 26) (f : Crc → Crc) (s t : State) : Prop :=
  t.crcs[i] = f s.crcs[i] ∧ Quiet (fun _ => False) s t ∧ ∀ j : Fin 26, j ≠ i → t.crcs[j] = s.crcs[j]

theorem updCrc_engineChanged (s : State) (i : Fin 26) (f : Crc → Crc) : EngineChanged i f s (s.updCrc i f) := by
  refine ⟨by simp, .same rfl rfl rfl, fun j hj => ?_⟩
  have hv : i.val ≠ j.val := fun e => hj (Fin.ext e.symm)
  simp [hv]

/-- The version of a page is no part of an engine, a register, the memory or a ring. -/
theorem EngineChanged.bumpVer {i : Fin 26} {f : Crc → Crc} {s t : State} (h : EngineChanged i f s t) (p : Nat) :
    EngineChanged i f s (t.bumpVer p) := by
  obtain ⟨hi, hq, hj⟩ := h
  exact ⟨hi, hq.congr rfl rfl rfl, hj⟩

/-! ## Commands of the owner of CRC25 (R295, R299) -/

section Owner
variable {a : CrcParty} {s : State} (hr : s.crcReach a = true) (ho : s.crcOwner = some a)
include hr ho

/-- CRC25 takes a write from its owner. -/
theorem crcWrite_owner (f : Crc → Crc) : s.crcWrite a 25 f = s.updCrc 25 f := by
  simp [State.crcWrite, hr, ho]

/-- A setting written by the owner applies at once and moves the version of the page (R298). -/
theorem crcConfig_owner (r : CrcReg) (v : Nat) :
    s.crcConfig a 25 r v = (s.updCrc 25 fun c => c.config r v).bumpVer crcPage := by
  simp [State.crcConfig, State.crcSet, crcWrite_owner hr ho, hr, ho]

theorem crcReset_owner : After (exec (.crcReset a 25) s) (EngineChanged 25 Crc.reset s) :=
  ⟨_, rfl, crcWrite_owner hr ho Crc.reset ▸ updCrc_engineChanged s 25 Crc.reset⟩

theorem crcConfigWrite_owner (r : CrcReg) (v : Word) :
    After (exec (.crcConfigWrite a 25 r v) s) (EngineChanged 25 (fun c => c.config r v.toNat) s) :=
  ⟨_, rfl, crcConfig_owner hr ho r v.toNat ▸ (updCrc_engineChanged s 25 _).bumpVer crcPage⟩

end Owner

/-! ## The engine after a write of CFG (Table 12.4) -/

/-- A write of CFG takes the three fields and resets by the width it sets. -/
theorem Crc.config_cfg (c : Crc) (v : Nat) :
    c.config .cfg v =
      { c with width := max 1 (min 32 (bitsAt v 0 6)), refin := bitOf v 8, refout := bitOf v 9,
               r := c.init % 2 ^ max 1 (min 32 (bitsAt v 0 6)), count := 0 } := rfl

/-- Settles O60: each command changes engine 25 alone, by the engine's own reset or by the setting written. -/
theorem crcSettings : Obligations.CrcSettings := by
  unfold Obligations.CrcSettings
  refine ⟨fun a s hr ho => crcReset_owner hr ho, fun a v s hr ho => crcConfigWrite_owner hr ho .poly v,
    fun a v s hr ho => crcConfigWrite_owner hr ho .init v, fun a v s hr ho => ?cfg,
    fun a v s hr ho => crcConfigWrite_owner hr ho .xorout v⟩
  case cfg =>
    obtain ⟨t, ht, h25, hquiet, hothers⟩ := crcConfigWrite_owner hr ho .cfg v
    have hcfg : t.crcs[25] = _ := h25.trans (Crc.config_cfg _ v.toNat)
    refine ⟨t, ht, ?_⟩
    beta_reduce
    rw [hcfg]
    exact ⟨rfl, rfl, rfl, rfl, rfl, rfl, rfl, rfl, hquiet, hothers⟩

end Sys2Proof.Machine
end

section
/-!
PROOFS. Rules that the proofs below share: answers, elements by plain index, fields after an update, events among fields, and how
`Frame` and `Quiet` grow along a chain of updates.
-/
namespace Sys2Proof.Machine

/-! ## Answers -/

theorem After.next {t : State} {P : State → Prop} (h : P t) : After (.next t) P := ⟨t, rfl, h⟩

theorem After.of_eq {r : Result} {t : State} {P : State → Prop} (e : r = .next t) (h : P t) : After r P := ⟨t, e, h⟩

theorem next_eq {t u : State} (h : t = u) : (Host.Outcome.next t : Result) = .next u := h ▸ rfl

/-- An answer that turns on a condition which holds. -/
theorem next_pos {c : Prop} [Decidable c] {t u : State} (h : c) :
    (Host.Outcome.next (if c then t else u) : Result) = .next t := by rw [if_pos h]

/-- An answer that turns on a condition which fails. -/
theorem next_neg {c : Prop} [Decidable c] {t u : State} (h : ¬ c) :
    (Host.Outcome.next (if c then t else u) : Result) = .next u := by rw [if_neg h]

/-! ## Vectors by plain index -/

@[simp] theorem at_fin {α : Type} {n : Nat} (v : Vector α n) (i : Fin n) (d : α) : at_ v i d = v[i] := by
  simp [at_]

@[simp] theorem upd_fin {α : Type} {n : Nat} (v : Vector α n) (i : Fin n) (f : α → α) : upd v i f = v.set i (f v[i]) := by
  simp [upd]

theorem getElem_set_same {α : Type} {n : Nat} (v : Vector α n) (i : Fin n) (x : α) : (v.set i x)[i] = x := by simp

theorem getElem_set_ne {α : Type} {n : Nat} (v : Vector α n) {i j : Fin n} (x : α) (h : i ≠ j) : (v.set i x)[j] = v[j] := by
  have hv : i.val ≠ j.val := fun e => h (Fin.ext e)
  simp [hv]

/-! ## Fields after an update -/

theorem fld_of_reg {s t : State} {f : Fld} (h : t.reg f.addr = s.reg f.addr) : t.fld f = s.fld f := by
  rw [State.fld, State.fld, h]

@[simp] theorem flag_eq (s : State) (f : Fld) (b : Bool) : (s.flag f = b) = ((s.fld f == 1) = b) := rfl

/-- A count reads its sum, or its largest value. -/
theorem fld_countSat_same (s : State) (f : Fld) (k : Nat) (h : f.lo ≤ f.hi ∧ f.hi < 32) :
    (s.countSat f k).fld f = satAdd f.width (s.fld f) k := by
  rw [State.countSat, fld_setFld_same _ _ _ h, Nat.mod_eq_of_lt]
  have := Nat.two_pow_pos f.width
  rw [satAdd]
  omega

theorem fld_countSat_ne (s : State) {f g : Fld} (k : Nat) (h : f.addr ≠ g.addr) : (s.countSat f k).fld g = s.fld g :=
  fld_setFld_addr s _ h

theorem fld_countSat_bits (s : State) {f g : Fld} (k : Nat) (hf : f.lo ≤ f.hi ∧ f.hi < 32) (h : f.hi < g.lo ∨ g.hi < f.lo) :
    (s.countSat f k).fld g = s.fld g := fld_setFld_bits s _ hf h

theorem reg_countSat_ne (s : State) (f : Fld) (k : Nat) {b : Nat} (h : f.addr ≠ b) : (s.countSat f k).reg b = s.reg b :=
  reg_setFld_ne s f _ h

/-- A number in the range of a signed field reads as it was stored. -/
theorem signed_unsigned {w : Nat} {i : Int} (hw : 0 < w) (h1 : -(2 ^ (w - 1) : Nat) ≤ i) (h2 : i < (2 ^ (w - 1) : Nat)) :
    signed w (unsigned w i) = i := by
  have hp : 2 ^ w = 2 * 2 ^ (w - 1) := by rw [← Nat.pow_succ', Nat.succ_eq_add_one, Nat.sub_add_cancel hw]
  unfold signed unsigned
  rw [hp]
  generalize 2 ^ (w - 1) = p at *
  have hm : ((i % (2 * p : Nat)).toNat : Int) = i % (2 * p : Nat) := Int.toNat_of_nonneg (Int.emod_nonneg _ (by omega))
  have hl : (i % (2 * p : Nat)).toNat < 2 * p := by
    have := Int.emod_lt_of_pos i (show (0 : Int) < (2 * p : Nat) by omega)
    omega
  rw [Nat.mod_eq_of_lt hl, hm]
  by_cases hi : 0 ≤ i
  · rw [Int.emod_eq_of_lt hi (by omega)]
    rw [if_pos (by omega)]
  · have e : i % (2 * p : Nat) = i + (2 * p : Nat) := by
      rw [← Int.add_emod_right, Int.emod_eq_of_lt (by omega) (by omega)]
    rw [e, if_neg (by omega)]
    omega

theorem sfld_setSfld_same (s : State) (f : Fld) {i : Int} (hf : f.lo ≤ f.hi ∧ f.hi < 32)
    (h1 : -(2 ^ (f.width - 1) : Nat) ≤ i) (h2 : i < (2 ^ (f.width - 1) : Nat)) : (s.setSfld f i).sfld f = i := by
  have hw : 0 < f.width := by simp only [Fld.width]; omega
  have hu : unsigned f.width i < 2 ^ f.width := by
    have := Int.emod_lt_of_pos i (show (0 : Int) < (2 ^ f.width : Nat) by have := Nat.two_pow_pos f.width; omega)
    rw [unsigned]
    have := Nat.two_pow_pos f.width
    omega
  rw [State.sfld, State.setSfld, fld_setFld_same _ _ _ hf, Nat.mod_eq_of_lt hu]
  exact signed_unsigned hw h1 h2

/-! ## Changes of registers alone -/

/-- `t` is `s` but for registers. -/
def RegsOnly (s t : State) : Prop := t = { s with regs := t.regs }

theorem RegsOnly.refl (s : State) : RegsOnly s s := rfl

theorem RegsOnly.setReg {s t : State} (h : RegsOnly s t) (a : Nat) (w : Word) : RegsOnly s (t.setReg a w) := by
  rw [RegsOnly] at h
  rw [h]
  rfl

theorem RegsOnly.setFld {s t : State} (h : RegsOnly s t) (f : Fld) (v : Nat) : RegsOnly s (t.setFld f v) := h.setReg _ _

/-- A part of the state that holds no registers stays. -/
theorem RegsOnly.same {α : Type} {s t : State} (h : RegsOnly s t) (p : State → α) (hp : ∀ r, p { s with regs := r } = p s) :
    p t = p s := (congrArg p h).trans (hp _)

/-! ## Frames along a chain of updates -/

section Grow
variable {R : Nat → Prop} {s t : State}

theorem Quiet.setReg (h : Quiet R s t) {a : Nat} (w : Word) (ha : R a) : Quiet R s (t.setReg a w) := h.trans (setReg_quiet t w ha)

theorem Quiet.setFld (h : Quiet R s t) {f : Fld} (v : Nat) (hf : R f.addr) : Quiet R s (t.setFld f v) := h.trans (setFld_quiet t v hf)

theorem Quiet.countSat (h : Quiet R s t) {f : Fld} (k : Nat) (hf : R f.addr) : Quiet R s (t.countSat f k) := h.setFld _ hf

theorem Frame.setReg (h : Frame R s t) {a : Nat} (w : Word) (ha : R a) : Frame R s (t.setReg a w) :=
  h.trans (setReg_quiet t w ha).frame

theorem Frame.setFld (h : Frame R s t) {f : Fld} (v : Nat) (hf : R f.addr) : Frame R s (t.setFld f v) :=
  h.trans (setFld_quiet t v hf).frame

theorem Frame.countSat (h : Frame R s t) {f : Fld} (k : Nat) (hf : R f.addr) : Frame R s (t.countSat f k) := h.setFld _ hf

theorem Frame.raise (h : Frame R s t) {p : Nat} (b : Nat) (hp : ∀ a, StatusOf [p] a → R a) : Frame R s (t.raise p b) :=
  h.trans (raise_frame t p b hp)

theorem Frame.congr {u : State} (h : Frame R s t) (h1 : u.regs = t.regs) (h2 : u.mem = t.mem) (h3 : u.rings = t.rings) :
    Frame R s u := h.trans (Quiet.same h1 h2 h3).frame

end Grow

/-! ## Registers and fields under updates of other parts -/

@[simp] theorem reg_updSap (s : State) (n : Fin 32) (f : Sap → Sap) (r : Nat) : (s.updSap n f).reg r = s.reg r := reg_of_regs rfl r
@[simp] theorem fld_updSap (s : State) (n : Fin 32) (f : Sap → Sap) (r : Fld) : (s.updSap n f).fld r = s.fld r := fld_of_regs rfl r
@[simp] theorem reg_updAsrc (s : State) (i : Nat) (f : Asrc → Asrc) (r : Nat) : (s.updAsrc i f).reg r = s.reg r := reg_of_regs rfl r
@[simp] theorem fld_updAsrc (s : State) (i : Nat) (f : Asrc → Asrc) (r : Fld) : (s.updAsrc i f).fld r = s.fld r := fld_of_regs rfl r
@[simp] theorem reg_updAin (s : State) (n : Fin 16) (f : Ain → Ain) (r : Nat) : (s.updAin n f).reg r = s.reg r := reg_of_regs rfl r
@[simp] theorem fld_updAin (s : State) (n : Fin 16) (f : Ain → Ain) (r : Fld) : (s.updAin n f).fld r = s.fld r := fld_of_regs rfl r
@[simp] theorem reg_updOut (s : State) (o : OutId) (f : Out → Out) (r : Nat) : (s.updOut o f).reg r = s.reg r := reg_of_regs rfl r
@[simp] theorem fld_updOut (s : State) (o : OutId) (f : Out → Out) (r : Fld) : (s.updOut o f).fld r = s.fld r := fld_of_regs rfl r
@[simp] theorem reg_updAmp (s : State) (n : Fin 4) (f : Amp → Amp) (r : Nat) : (s.updAmp n f).reg r = s.reg r := reg_of_regs rfl r
@[simp] theorem fld_updAmp (s : State) (n : Fin 4) (f : Amp → Amp) (r : Fld) : (s.updAmp n f).fld r = s.fld r := fld_of_regs rfl r
@[simp] theorem reg_updJack (s : State) (j : Fin 20) (f : Jack → Jack) (r : Nat) : (s.updJack j f).reg r = s.reg r := reg_of_regs rfl r
@[simp] theorem fld_updJack (s : State) (j : Fin 20) (f : Jack → Jack) (r : Fld) : (s.updJack j f).fld r = s.fld r := fld_of_regs rfl r
@[simp] theorem reg_updSeq (s : State) (x : Fin 3) (f : Seq → Seq) (r : Nat) : (s.updSeq x f).reg r = s.reg r := reg_of_regs rfl r
@[simp] theorem fld_updSeq (s : State) (x : Fin 3) (f : Seq → Seq) (r : Fld) : (s.updSeq x f).fld r = s.fld r := fld_of_regs rfl r
@[simp] theorem reg_updCrc (s : State) (i : Fin 26) (f : Crc → Crc) (r : Nat) : (s.updCrc i f).reg r = s.reg r := reg_of_regs rfl r
@[simp] theorem fld_updCrc (s : State) (i : Fin 26) (f : Crc → Crc) (r : Fld) : (s.updCrc i f).fld r = s.fld r := fld_of_regs rfl r
@[simp] theorem reg_updDom (s : State) (d : Nat) (f : Dom → Dom) (r : Nat) : (s.updDom d f).reg r = s.reg r := reg_of_regs rfl r
@[simp] theorem fld_updDom (s : State) (d : Nat) (f : Dom → Dom) (r : Fld) : (s.updDom d f).fld r = s.fld r := fld_of_regs rfl r
@[simp] theorem reg_updPort (s : State) (p : Fin 4) (f : Port → Port) (r : Nat) : (s.updPort p f).reg r = s.reg r := reg_of_regs rfl r
@[simp] theorem fld_updPort (s : State) (p : Fin 4) (f : Port → Port) (r : Fld) : (s.updPort p f).fld r = s.fld r := fld_of_regs rfl r
@[simp] theorem reg_updBib (s : State) (k : Nat) (f : Bib → Bib) (r : Nat) : (s.updBib k f).reg r = s.reg r := reg_of_regs rfl r
@[simp] theorem fld_updBib (s : State) (k : Nat) (f : Bib → Bib) (r : Fld) : (s.updBib k f).fld r = s.fld r := fld_of_regs rfl r
@[simp] theorem reg_updRing (s : State) (i : Nat) (f : Ring → Ring) (r : Nat) : (s.updRing i f).reg r = s.reg r := reg_of_regs rfl r
@[simp] theorem fld_updRing (s : State) (i : Nat) (f : Ring → Ring) (r : Fld) : (s.updRing i f).fld r = s.fld r := fld_of_regs rfl r
@[simp] theorem reg_bumpVer (s : State) (p : Nat) (r : Nat) : (s.bumpVer p).reg r = s.reg r := reg_of_regs rfl r
@[simp] theorem fld_bumpVer (s : State) (p : Nat) (r : Fld) : (s.bumpVer p).fld r = s.fld r := fld_of_regs rfl r
@[simp] theorem reg_setGain (s : State) (a : Nat) (g : Glide) (r : Nat) : (s.setGain a g).reg r = s.reg r := reg_of_regs rfl r
@[simp] theorem fld_setGain (s : State) (a : Nat) (g : Glide) (r : Fld) : (s.setGain a g).fld r = s.fld r := fld_of_regs rfl r
@[simp] theorem reg_hold (s : State) (a : Nat) (v : Nat) (r : Nat) : (s.hold a v).reg r = s.reg r := reg_of_regs rfl r
@[simp] theorem fld_hold (s : State) (a : Nat) (v : Nat) (r : Fld) : (s.hold a v).fld r = s.fld r := fld_of_regs rfl r
@[simp] theorem reg_updFab (s : State) (f : Fab → Fab) (r : Nat) : (s.updFab f).reg r = s.reg r := reg_of_regs rfl r
@[simp] theorem fld_updFab (s : State) (f : Fab → Fab) (r : Fld) : (s.updFab f).fld r = s.fld r := fld_of_regs rfl r
@[simp] theorem reg_updChange (s : State) (f : Change → Change) (r : Nat) : (s.updChange f).reg r = s.reg r := reg_of_regs rfl r
@[simp] theorem fld_updChange (s : State) (f : Change → Change) (r : Fld) : (s.updChange f).fld r = s.fld r := fld_of_regs rfl r
@[simp] theorem reg_setByte (s : State) (a : Nat) (b : Byte) (r : Nat) : (s.setByte a b).reg r = s.reg r := reg_of_regs rfl r
@[simp] theorem fld_setByte (s : State) (a : Nat) (b : Byte) (r : Fld) : (s.setByte a b).fld r = s.fld r := fld_of_regs rfl r
@[simp] theorem reg_updLine (s : State) (n : Fin 32) (k : Fin 2) (f : SapLine → SapLine) (r : Nat) : (s.updLine n k f).reg r = s.reg r := reg_of_regs rfl r
@[simp] theorem fld_updLine (s : State) (n : Fin 32) (k : Fin 2) (f : SapLine → SapLine) (r : Fld) : (s.updLine n k f).fld r = s.fld r := fld_of_regs rfl r
@[simp] theorem reg_updAes (s : State) (n : Fin 32) (f : Aes → Aes) (r : Nat) : (s.updAes n f).reg r = s.reg r := reg_of_regs rfl r
@[simp] theorem fld_updAes (s : State) (n : Fin 32) (f : Aes → Aes) (r : Fld) : (s.updAes n f).fld r = s.fld r := fld_of_regs rfl r
@[simp] theorem reg_updChan (s : State) (n : Fin 32) (c : Fin 4) (f : SapChan → SapChan) (r : Nat) : (s.updChan n c f).reg r = s.reg r := reg_of_regs rfl r
@[simp] theorem fld_updChan (s : State) (n : Fin 32) (c : Fin 4) (f : SapChan → SapChan) (r : Fld) : (s.updChan n c f).fld r = s.fld r := fld_of_regs rfl r
@[simp] theorem reg_answer (s : State) (p : Nat) (w : Word) (r : Nat) : (s.answer p w).reg r = s.reg r := reg_of_regs rfl r
@[simp] theorem fld_answer (s : State) (p : Nat) (w : Word) (r : Fld) : (s.answer p w).fld r = s.fld r := fld_of_regs rfl r

/-! ## Named updates of parts that the model writes by record update -/

/-- `s` with another `mons`. -/
def State.withMons (s : State) (x : Vector Mon 43) : State := { s with mons := x }

@[simp] theorem withMons_mons (s : State) (x : Vector Mon 43) : (s.withMons x).mons = x := rfl
@[simp] theorem reg_withMons (s : State) (x : Vector Mon 43) (r : Nat) : (s.withMons x).reg r = s.reg r := reg_of_regs rfl r
@[simp] theorem fld_withMons (s : State) (x : Vector Mon 43) (r : Fld) : (s.withMons x).fld r = s.fld r := fld_of_regs rfl r

theorem Quiet.withMons {R : Nat → Prop} {s t : State} (h : Quiet R s t) (x : Vector Mon 43) : Quiet R s (t.withMons x) := h.congr rfl rfl rfl

theorem Frame.withMons {R : Nat → Prop} {s t : State} (h : Frame R s t) (x : Vector Mon 43) : Frame R s (t.withMons x) := h.congr rfl rfl rfl

/-- `s` with another `pll`. -/
def State.withPll (s : State) (x : Pll) : State := { s with pll := x }

@[simp] theorem withPll_pll (s : State) (x : Pll) : (s.withPll x).pll = x := rfl
@[simp] theorem reg_withPll (s : State) (x : Pll) (r : Nat) : (s.withPll x).reg r = s.reg r := reg_of_regs rfl r
@[simp] theorem fld_withPll (s : State) (x : Pll) (r : Fld) : (s.withPll x).fld r = s.fld r := fld_of_regs rfl r

theorem Quiet.withPll {R : Nat → Prop} {s t : State} (h : Quiet R s t) (x : Pll) : Quiet R s (t.withPll x) := h.congr rfl rfl rfl

theorem Frame.withPll {R : Nat → Prop} {s t : State} (h : Frame R s t) (x : Pll) : Frame R s (t.withPll x) := h.congr rfl rfl rfl

/-- `s` with another `ens`. -/
def State.withEns (s : State) (x : Ens) : State := { s with ens := x }

@[simp] theorem withEns_ens (s : State) (x : Ens) : (s.withEns x).ens = x := rfl
@[simp] theorem reg_withEns (s : State) (x : Ens) (r : Nat) : (s.withEns x).reg r = s.reg r := reg_of_regs rfl r
@[simp] theorem fld_withEns (s : State) (x : Ens) (r : Fld) : (s.withEns x).fld r = s.fld r := fld_of_regs rfl r

theorem Quiet.withEns {R : Nat → Prop} {s t : State} (h : Quiet R s t) (x : Ens) : Quiet R s (t.withEns x) := h.congr rfl rfl rfl

theorem Frame.withEns {R : Nat → Prop} {s t : State} (h : Frame R s t) (x : Ens) : Frame R s (t.withEns x) := h.congr rfl rfl rfl

/-- `s` with another `bus`. -/
def State.withBus (s : State) (x : Word) : State := { s with bus := x }

@[simp] theorem withBus_bus (s : State) (x : Word) : (s.withBus x).bus = x := rfl
@[simp] theorem reg_withBus (s : State) (x : Word) (r : Nat) : (s.withBus x).reg r = s.reg r := reg_of_regs rfl r
@[simp] theorem fld_withBus (s : State) (x : Word) (r : Fld) : (s.withBus x).fld r = s.fld r := fld_of_regs rfl r

theorem Quiet.withBus {R : Nat → Prop} {s t : State} (h : Quiet R s t) (x : Word) : Quiet R s (t.withBus x) := h.congr rfl rfl rfl

theorem Frame.withBus {R : Nat → Prop} {s t : State} (h : Frame R s t) (x : Word) : Frame R s (t.withBus x) := h.congr rfl rfl rfl

/-- `s` with another `tdac`. -/
def State.withTdac (s : State) (x : Tdac) : State := { s with tdac := x }

@[simp] theorem withTdac_tdac (s : State) (x : Tdac) : (s.withTdac x).tdac = x := rfl
@[simp] theorem reg_withTdac (s : State) (x : Tdac) (r : Nat) : (s.withTdac x).reg r = s.reg r := reg_of_regs rfl r
@[simp] theorem fld_withTdac (s : State) (x : Tdac) (r : Fld) : (s.withTdac x).fld r = s.fld r := fld_of_regs rfl r

theorem Quiet.withTdac {R : Nat → Prop} {s t : State} (h : Quiet R s t) (x : Tdac) : Quiet R s (t.withTdac x) := h.congr rfl rfl rfl

theorem Frame.withTdac {R : Nat → Prop} {s t : State} (h : Frame R s t) (x : Tdac) : Frame R s (t.withTdac x) := h.congr rfl rfl rfl

/-- `s` with another `hka`. -/
def State.withHka (s : State) (x : Hka) : State := { s with hka := x }

@[simp] theorem withHka_hka (s : State) (x : Hka) : (s.withHka x).hka = x := rfl
@[simp] theorem reg_withHka (s : State) (x : Hka) (r : Nat) : (s.withHka x).reg r = s.reg r := reg_of_regs rfl r
@[simp] theorem fld_withHka (s : State) (x : Hka) (r : Fld) : (s.withHka x).fld r = s.fld r := fld_of_regs rfl r

theorem Quiet.withHka {R : Nat → Prop} {s t : State} (h : Quiet R s t) (x : Hka) : Quiet R s (t.withHka x) := h.congr rfl rfl rfl

theorem Frame.withHka {R : Nat → Prop} {s t : State} (h : Frame R s t) (x : Hka) : Frame R s (t.withHka x) := h.congr rfl rfl rfl

/-- `s` with another `boot`. -/
def State.withBoot (s : State) (x : Boot) : State := { s with boot := x }

@[simp] theorem withBoot_boot (s : State) (x : Boot) : (s.withBoot x).boot = x := rfl
@[simp] theorem reg_withBoot (s : State) (x : Boot) (r : Nat) : (s.withBoot x).reg r = s.reg r := reg_of_regs rfl r
@[simp] theorem fld_withBoot (s : State) (x : Boot) (r : Fld) : (s.withBoot x).fld r = s.fld r := fld_of_regs rfl r

theorem Quiet.withBoot {R : Nat → Prop} {s t : State} (h : Quiet R s t) (x : Boot) : Quiet R s (t.withBoot x) := h.congr rfl rfl rfl

theorem Frame.withBoot {R : Nat → Prop} {s t : State} (h : Frame R s t) (x : Boot) : Frame R s (t.withBoot x) := h.congr rfl rfl rfl

end Sys2Proof.Machine
end

section
/-!
PROOFS. Steps and the state after reset: every command keeps the invariant (14_control_ports.md R339) and answers a next state,
a step runs the front of the queue, and what reset leaves (13_power_domains.md Table 13.1, R320, R339, R342, R346, R365).
-/
namespace Sys2Proof.Machine

/-! ## Every command -/

/-- Each command keeps the canonical form, the credits, the queue and the blown fuses. -/
theorem exec_kept {ql : List Instr} {zf : BitVec 512} : ∀ (c : Instr) (s : State), s.Kept ql zf → NextKept (exec c s) ql zf
  | .tick idx, s, hs => execTick_kept idx s hs
  | .clkCoreWrite v, s, hs => execClkCoreWrite_kept v s hs
  | .refSelWrite v, s, hs => execRefSelWrite_kept v s hs
  | .monLoss m, s, hs => execMonLoss_kept m s hs
  | .monGlitch m gap, s, hs => execMonGlitch_kept m gap s hs
  | .monRateChange m code ppm, s, hs => execMonRateChange_kept m code ppm s hs
  | .monPresent m code ppm, s, hs => execMonPresent_kept m code ppm s hs
  | .monAcquireTimeout m, s, hs => execMonAcquireTimeout_kept m s hs
  | .pllAcquireDone, s, hs => execPllAcquireDone_kept s hs
  | .pllSlewDone, s, hs => execPllSlewDone_kept s hs
  | .snapMuteDone, s, hs => execSnapMuteDone_kept s hs
  | .snapRelockDone, s, hs => execSnapRelockDone_kept s hs
  | .snapReturnDone, s, hs => execSnapReturnDone_kept s hs
  | .coarseExit, s, hs => execCoarseExit_kept s hs
  | .syscntLoRead, s, hs => execSyscntLoRead_kept s hs
  | .tickcntLoRead, s, hs => execTickcntLoRead_kept s hs
  | .epochFrameSend, s, hs => execEpochFrameSend_kept s hs
  | .epochFrameReceive f, s, hs => execEpochFrameReceive_kept f s hs
  | .epochFrameRepeat, s, hs => execEpochFrameRepeat_kept s hs
  | .ensLost, s, hs => execEnsLost_kept s hs
  | .ensRejoin, s, hs => execEnsRejoin_kept s hs
  | .sapRunStart n, s, hs => execSapRunStart_kept n s hs
  | .sapRunStop n, s, hs => execSapRunStop_kept n s hs
  | .sapMuteRequest n mask, s, hs => execSapMuteRequest_kept n mask s hs
  | .sapConfigWrite n r v, s, hs => execSapConfigWrite_kept n r v s hs
  | .sapFrameReceived n f, s, hs => execSapFrameReceived_kept n f s hs
  | .sapFrameTransmit n, s, hs => execSapFrameTransmit_kept n s hs
  | .sapDeliveryStart n, s, hs => execSapDeliveryStart_kept n s hs
  | .zcTimeout n ch, s, hs => execZcTimeout_kept n ch s hs
  | .zcGlideDone n ch, s, hs => execZcGlideDone_kept n ch s hs
  | .sapStopped n, s, hs => execSapStopped_kept n s hs
  | .sapCntClear n, s, hs => execSapCntClear_kept n s hs
  | .framesInRead n k, s, hs => execFramesInRead_kept n k s hs
  | .stampLoRead n, s, hs => execStampLoRead_kept n s hs
  | .aesRxLocked k, s, hs => execAesRxLocked_kept k s hs
  | .aesRxLockLost k, s, hs => execAesRxLockLost_kept k s hs
  | .aesRxCsRead k b, s, hs => execAesRxCsRead_kept k b s hs
  | .aesTxSwap k, s, hs => execAesTxSwap_kept k s hs
  | .aesCsSwapCopy k, s, hs => execAesCsSwapCopy_kept k s hs
  | .grpConfigWrite g r v, s, hs => execGrpConfigWrite_kept g r v s hs
  | .memberDeliveryStart n k, s, hs => execMemberDeliveryStart_kept n k s hs
  | .memberStarved n k, s, hs => execMemberStarved_kept n k s hs
  | .snowploughSilent n k, s, hs => execSnowploughSilent_kept n k s hs
  | .memberRejoin n k, s, hs => execMemberRejoin_kept n k s hs
  | .rejoinGlideDone n k, s, hs => execRejoinGlideDone_kept n k s hs
  | .asrcConfigWrite idx v, s, hs => execAsrcConfigWrite_kept idx v s hs
  | .asrcEnable idx, s, hs => execAsrcEnable_kept idx s hs
  | .asrcDisable idx, s, hs => execAsrcDisable_kept idx s hs
  | .asrcOff idx, s, hs => execAsrcOff_kept idx s hs
  | .asrcLocked idx, s, hs => execAsrcLocked_kept idx s hs
  | .ainEnable n, s, hs => execAinEnable_kept n s hs
  | .ainDisable n, s, hs => execAinDisable_kept n s hs
  | .ainModeChange n, s, hs => execAinModeChange_kept n s hs
  | .servoSettled n, s, hs => execServoSettled_kept n s hs
  | .ainReady n, s, hs => execAinReady_kept n s hs
  | .ainOff n, s, hs => execAinOff_kept n s hs
  | .cmExcursionStart n, s, hs => execCmExcursionStart_kept n s hs
  | .cmExcursionEnd n, s, hs => execCmExcursionEnd_kept n s hs
  | .phantomEnable n, s, hs => execPhantomEnable_kept n s hs
  | .phantomDisable n, s, hs => execPhantomDisable_kept n s hs
  | .phRampDone n, s, hs => execPhRampDone_kept n s hs
  | .phSettleDone n, s, hs => execPhSettleDone_kept n s hs
  | .phLimitTimeout n, s, hs => execPhLimitTimeout_kept n s hs
  | .phFoldback, s, hs => execPhFoldback_kept s hs
  | .automuteFadeDone n, s, hs => execAutomuteFadeDone_kept n s hs
  | .automuteCauseEnd n c, s, hs => execAutomuteCauseEnd_kept n c s hs
  | .automuteGlideDone n, s, hs => execAutomuteGlideDone_kept n s hs
  | .pathReturn n, s, hs => execPathReturn_kept n s hs
  | .calRestart n, s, hs => execCalRestart_kept n s hs
  | .preampGainWrite n v, s, hs => execPreampGainWrite_kept n v s hs
  | .stepForceTimeout n, s, hs => execStepForceTimeout_kept n s hs
  | .diagStart n legs, s, hs => execDiagStart_kept n legs s hs
  | .diagBegin n, s, hs => execDiagBegin_kept n s hs
  | .diagPhaseDone n r, s, hs => execDiagPhaseDone_kept n r s hs
  | .fabricRun p piste, s, hs => execFabricRun_kept p piste s hs
  | .fabricFirstTick idx, s, hs => execFabricFirstTick_kept idx s hs
  | .fabricStop p, s, hs => execFabricStop_kept p s hs
  | .fabricStopped, s, hs => execFabricStopped_kept s hs
  | .pisteWrite p addr v, s, hs => execPisteWrite_kept p addr v s hs
  | .pisteCopy p, s, hs => execPisteCopy_kept p s hs
  | .copyDone, s, hs => execCopyDone_kept s hs
  | .pisteSwap p, s, hs => execPisteSwap_kept p s hs
  | .xoverEnd, s, hs => execXoverEnd_kept s hs
  | .admissionCheck p, s, hs => execAdmissionCheck_kept p s hs
  | .checkDone, s, hs => execCheckDone_kept s hs
  | .paramWrite p addr v, s, hs => execParamWrite_kept p addr v s hs
  | .gainTargetWrite slot v, s, hs => execGainTargetWrite_kept slot v s hs
  | .objectWrite addr v, s, hs => execObjectWrite_kept addr v s hs
  | .objectReset addr, s, hs => execObjectReset_kept addr s hs
  | .delayChange l v, s, hs => execDelayChange_kept l v s hs
  | .generatorRestart g, s, hs => execGeneratorRestart_kept g s hs
  | .lineFilled l, s, hs => execLineFilled_kept l s hs
  | .sweepEnd g, s, hs => execSweepEnd_kept g s hs
  | .outputEnable o, s, hs => execOutputEnable_kept o s hs
  | .outputDisable o, s, hs => execOutputDisable_kept o s hs
  | .lineRailRampDone n, s, hs => execLineRailRampDone_kept n s hs
  | .chargePumpReady, s, hs => execChargePumpReady_kept s hs
  | .outputSettleDone o, s, hs => execOutputSettleDone_kept o s hs
  | .outputStopGlideDone o, s, hs => execOutputStopGlideDone_kept o s hs
  | .lineRailDownDone n, s, hs => execLineRailDownDone_kept n s hs
  | .chargePumpStop, s, hs => execChargePumpStop_kept s hs
  | .outputCurrentLimit o, s, hs => execOutputCurrentLimit_kept o s hs
  | .outputLimitTimeout o, s, hs => execOutputLimitTimeout_kept o s hs
  | .servoLimit n, s, hs => execServoLimit_kept n s hs
  | .cpRailFault, s, hs => execCpRailFault_kept s hs
  | .internalFadeDone h, s, hs => execInternalFadeDone_kept h s hs
  | .hpMicRoute h on input, s, hs => execHpMicRoute_kept h on input s hs
  | .buttonPress h b, s, hs => execButtonPress_kept h b s hs
  | .buttonRelease h, s, hs => execButtonRelease_kept h s hs
  | .jackLevelChange j high, s, hs => execJackLevelChange_kept j high s hs
  | .jackInsert j, s, hs => execJackInsert_kept j s hs
  | .jackRemove j, s, hs => execJackRemove_kept j s hs
  | .classifyPoleTestDone j r, s, hs => execClassifyPoleTestDone_kept j r s hs
  | .classifyLoadTestDone j r, s, hs => execClassifyLoadTestDone_kept j r s hs
  | .jackRuleFire r, s, hs => execJackRuleFire_kept r s hs
  | .ampEnable n, s, hs => execAmpEnable_kept n s hs
  | .ampDisable n, s, hs => execAmpDisable_kept n s hs
  | .ampPrecheckDone n r, s, hs => execAmpPrecheckDone_kept n r s hs
  | .ampRelease n, s, hs => execAmpRelease_kept n s hs
  | .ampRunning n, s, hs => execAmpRunning_kept n s hs
  | .ampStopGlideDone n, s, hs => execAmpStopGlideDone_kept n s hs
  | .ampOff n, s, hs => execAmpOff_kept n s hs
  | .pwmCycle n pos neg, s, hs => execPwmCycle_kept n pos neg s hs
  | .ampRetry n, s, hs => execAmpRetry_kept n s hs
  | .ampRetriesClear n, s, hs => execAmpRetriesClear_kept n s hs
  | .ampDcFault n, s, hs => execAmpDcFault_kept n s hs
  | .fixedScan r, s, hs => execFixedScan_kept r s hs
  | .sagSample raw, s, hs => execSagSample_kept raw s hs
  | .pvddHwStop, s, hs => execPvddHwStop_kept s hs
  | .supplyOk, s, hs => execSupplyOk_kept s hs
  | .hkaReady, s, hs => execHkaReady_kept s hs
  | .conversionDone q v, s, hs => execConversionDone_kept q v s hs
  | .integrationDone v, s, hs => execIntegrationDone_kept v s hs
  | .calStageDone ok, s, hs => execCalStageDone_kept ok s hs
  | .mainsLost, s, hs => execMainsLost_kept s hs
  | .hkaTimerFire k, s, hs => execHkaTimerFire_kept k s hs
  | .pwmTrigger x, s, hs => execPwmTrigger_kept x s hs
  | .seqGo mask, s, hs => execSeqGo_kept mask s hs
  | .seqEnable x, s, hs => execSeqEnable_kept x s hs
  | .seqDisable x, s, hs => execSeqDisable_kept x s hs
  | .seqDelayEnd x, s, hs => execSeqDelayEnd_kept x s hs
  | .urgentStart p v, s, hs => execUrgentStart_kept p v s hs
  | .hkaPop q, s, hs => execHkaPop_kept q s hs
  | .hkaPeek q, s, hs => execHkaPeek_kept q s hs
  | .tdacHostRequest p, s, hs => execTdacHostRequest_kept p s hs
  | .tdacGrant, s, hs => execTdacGrant_kept s hs
  | .tdacHostRelease p, s, hs => execTdacHostRelease_kept p s hs
  | .tdacRoute p v, s, hs => execTdacRoute_kept p v s hs
  | .tdacCode p v, s, hs => execTdacCode_kept p v s hs
  | .tdacRampDone, s, hs => execTdacRampDone_kept s hs
  | .crcData8 a idx v, s, hs => execCrcData8_kept a idx v s hs
  | .crcData16 a idx v, s, hs => execCrcData16_kept a idx v s hs
  | .crcData32 a idx v, s, hs => execCrcData32_kept a idx v s hs
  | .crcReset a idx, s, hs => execCrcReset_kept a idx s hs
  | .crcConfigWrite a idx r v, s, hs => execCrcConfigWrite_kept a idx r v s hs
  | .crcResultRead idx, s, hs => execCrcResultRead_kept idx s hs
  | .crcRawRead idx, s, hs => execCrcRawRead_kept idx s hs
  | .crcOwnRequest a, s, hs => execCrcOwnRequest_kept a s hs
  | .crcOwnRelease a, s, hs => execCrcOwnRelease_kept a s hs
  | .powerChange p ws, s, hs => execPowerChange_kept p ws s hs
  | .voteAnswer arriving, s, hs => execVoteAnswer_kept s arriving hs
  | .voteTimeout, s, hs => execVoteTimeout_kept s hs
  | .domainWakeDone, s, hs => execDomainWakeDone_kept s hs
  | .powerApply, s, hs => execPowerApply_kept s hs
  | .domainLowerDone, s, hs => execDomainLowerDone_kept s hs
  | .autowakeTimeout p, s, hs => execAutowakeTimeout_kept p s hs
  | .padRelease p v, s, hs => execPadRelease_kept p v s hs
  | .lpBrownout lost, s, hs => execLpBrownout_kept lost s hs
  | .liftMatch target, s, hs => execLiftMatch_kept s target hs
  | .liftReady, s, hs => execLiftReady_kept s hs
  | .liftTimeout, s, hs => execLiftTimeout_kept s hs
  | .powerOnReset, s, hs => execPowerOnReset_kept s hs
  | .supplyLoss, s, hs => execSupplyLoss_kept s hs
  | .rstNAssert, s, hs => execRstNAssert_kept s hs
  | .hostReset key, s, hs => execHostReset_kept key s hs
  | .watchdogReset, s, hs => execWatchdogReset_kept s hs
  | .resetRelease, s, hs => execResetRelease_kept s hs
  | .vioSelect mv, s, hs => execVioSelect_kept mv s hs
  | .vioDrop, s, hs => execVioDrop_kept s hs
  | .esdDischarge pin, s, hs => execEsdDischarge_kept s pin hs
  | .commandFrame p bytes target, s, hs => execCommandFrame_kept p bytes s target hs
  | .uartOverlength, s, hs => execUartOverlength_kept s hs
  | .responseFormed p, s, hs => execResponseFormed_kept p s hs
  | .responseDelivered p target, s, hs => execResponseDelivered_kept p s target hs
  | .nop p, s, hs => execNop_kept p s hs
  | .hello p seq leaseMs hostId, s, hs => execHello_kept p seq leaseMs hostId s hs
  | .lease p leaseMs, s, hs => execLease_kept p leaseMs s hs
  | .rd p addr count, s, hs => execRd_kept p addr count s hs
  | .wr p addr bib data, s, hs => execWr_kept p addr bib data s hs
  | .rmw p addr bib mask value, s, hs => execRmw_kept p addr bib mask value s hs
  | .txnOpen p, s, hs => execTxnOpen_kept p s hs
  | .txnCommit p bib mode time, s, hs => execTxnCommit_kept p bib mode time s hs
  | .txnAbort p bib, s, hs => execTxnAbort_kept p bib s hs
  | .txnStatus p bib retire, s, hs => execTxnStatus_kept p bib retire s hs
  | .claim p page, s, hs => execClaim_kept p page s hs
  | .release p page, s, hs => execRelease_kept p page s hs
  | .ringPull p ring max, s, hs => execRingPull_kept p ring max s hs
  | .ringPush p ring entries, s, hs => execRingPush_kept p ring entries s hs
  | .leaseWarning p, s, hs => execLeaseWarning_kept p s hs
  | .leaseExpiry p, s, hs => execLeaseExpiry_kept p s hs
  | .graceEnd p, s, hs => execGraceEnd_kept p s hs
  | .timedValidation bib, s, hs => execTimedValidation_kept bib s hs
  | .txnApply bib, s, hs => execTxnApply_kept bib s hs
  | .ringConfigWrite p r v, s, hs => execRingConfigWrite_kept p r v s hs
  | .ringIndexWrite p r producer v, s, hs => execRingIndexWrite_kept p r producer v s hs
  | .evtForceWrite p page v, s, hs => execEvtForceWrite_kept p page v s hs
  | .evtEnableWrite p page v, s, hs => execEvtEnableWrite_kept p page v s hs
  | .granARead, s, hs => execGranARead_kept s hs
  | .imageLoadOpen p kind, s, hs => execImageLoadOpen_kept p kind s hs
  | .imageWindowWrite p off v, s, hs => execImageWindowWrite_kept p off v s hs
  | .imageCheck p, s, hs => execImageCheck_kept p s hs
  | .imageStart p, s, hs => execImageStart_kept p s hs
  | .imageLoadAbort p, s, hs => execImageLoadAbort_kept p s hs
  | .imageCheckDone, s, hs => execImageCheckDone_kept s hs
  | .svcStarted, s, hs => execSvcStarted_kept s hs
  | .suppApplied, s, hs => execSuppApplied_kept s hs
  | .svcFatalError reason, s, hs => execSvcFatalError_kept reason s hs
  | .svcHeartbeatTimeout, s, hs => execSvcHeartbeatTimeout_kept s hs
  | .svcStop, s, hs => execSvcStop_kept s hs
  | .recover, s, hs => execRecover_kept s hs
  | .schussStop, s, hs => execSchussStop_kept s hs
  | .schussEnd, s, hs => execSchussEnd_kept s hs
  | .fuseProg p v, s, hs => execFuseProg_kept p v s hs
  | .fuseBlowDone, s, hs => execFuseBlowDone_kept s hs
  | .pdmTestWrite p on, s, hs => execPdmTestWrite_kept p on s hs
  | .dumpWritten, s, hs => execDumpWritten_kept s hs
  | .dumpRelease, s, hs => execDumpRelease_kept s hs
  | .dumpStream p, s, hs => execDumpStream_kept p s hs
  | .dumpChunk, s, hs => execDumpChunk_kept s hs
  | .serviceVersion, s, hs => execServiceVersion_kept s hs
  | .serviceReclassify, s, hs => execServiceReclassify_kept s hs
  | .serviceThermal, s, hs => execServiceThermal_kept s hs
  | .serviceCalibrate, s, hs => execServiceCalibrate_kept s hs
  | .serviceRefused, s, hs => execServiceRefused_kept s hs
  | .registerWrite p addr v, s, hs => execRegisterWrite_kept p addr v s hs
  | .aesRxAcquiring k, s, hs => execAesRxAcquiring_kept k s hs
  | .aesRxUnlocked k, s, hs => execAesRxUnlocked_kept k s hs
  | .refUnusable ppm, s, hs => execRefUnusable_kept ppm s hs
  | .refUsable ppm, s, hs => execRefUsable_kept ppm s hs
  | .mainsMeasurementValid us, s, hs => execMainsMeasurementValid_kept s us hs
  | .vioRestored, s, hs => execVioRestored_kept s hs

theorem exec_ran (c : Instr) (s : State) : ran (exec c s) := by
  cases c <;> exact ⟨_, rfl⟩

/-! ## Steps -/

theorem step_nil {s : State} (h : s.pending = []) : step s = .next s.countOn := by rw [step, h]

theorem step_cons {s : State} {c : Instr} {rest : List Instr} (h : s.pending = c :: rest) :
    step s = exec c { s with pending := rest } := by rw [step, h]

/-- Taking the front command off the queue keeps the invariant. -/
theorem State.Inv.dequeue {s : State} (h : s.Inv) (rest : List Instr) : { s with pending := rest }.Inv :=
  ⟨⟨h.canonical.regs, h.canonical.mem, h.canonical.vers⟩, h.credited⟩

theorem step_inv {s t : State} (h : s.Inv) (e : step s = .next t) : t.Inv := by
  cases hq : s.pending with
  | nil =>
    rw [step_nil hq] at e
    cases e
    exact (State.countOn_kept s h.kept).inv
  | cons c rest =>
    rw [step_cons hq] at e
    exact ((exec_kept c _ (h.dequeue rest).kept).all t e).inv

/-- Settles O47: the idle step by the law of the count, every other by the law of the command at the front. -/
theorem stepKeepsInv : Obligations.StepKeepsInv := by
  unfold Obligations.StepKeepsInv
  exact fun s t h e => step_inv h e

/-- Settles O45. -/
theorem stepRunsFront : Obligations.StepRunsFront := by
  unfold Obligations.StepRunsFront
  exact ⟨fun _ _ _ h => step_cons h, fun _ h => step_nil h⟩

/-- Settles O46. -/
theorem commandsComplete : Obligations.CommandsComplete := by
  unfold Obligations.CommandsComplete
  exact exec_ran

/-! ## After reset -/

/-- Settles O48. -/
theorem resetInv : Obligations.ResetInv := by
  unfold Obligations.ResetInv
  exact reset_inv

/-- No register has been written, so each reads its value after reset. -/
theorem reg_reset (a : Nat) : State.reset.reg a = regReset a := rfl

theorem port_reset (p : Fin 4) : State.reset.ports[p] = Port.atReset p := by
  simp [State.reset]

theorem dom_reset (d : Fin 27) : State.reset.dom d = if Dom.onAtReset d then .on else .off := by
  simp [State.dom, State.reset]

theorem bib_reset (k : Fin 64) : State.reset.bibAt k = Bib.none_ := by
  simp [State.bibAt, State.reset, at_]

/-- Settles O49. -/
theorem resetValues : Obligations.ResetValues := by
  unfold Obligations.ResetValues
  refine ⟨fun p => ?ports, fun d => ?doms, fun k => ?bibs, fun a => ⟨reg_reset a, rfl, rfl, rfl⟩, ?rest⟩
  case ports =>
    rw [port_reset p]
    exact ⟨rfl, rfl, rfl, rfl⟩
  case doms =>
    rw [dom_reset d]
    simp
  case bibs => rw [bib_reset k]
  case rest => exact ⟨by decide +kernel, rfl, by decide +kernel⟩

end Sys2Proof.Machine
end

section
/-!
PROOFS. The clock monitors (02_clocks_and_time.md R34, R35) that no follower port listens to and that do not watch the selected
reference.
-/
namespace Sys2Proof.Machine

/-- The followers of a monitor hang on the registers of the serial audio pages alone. -/
theorem monFollowers_of_regs {s t : State} (m : Fin 43) (h : ∀ a, 0x40020000 ≤ a → t.reg a = s.reg a) :
    t.monFollowers m = s.monFollowers m := by
  have hf : ∀ f : Fld, 0x40020000 ≤ f.addr → t.fld f = s.fld f := fun f hf => fld_of_reg (h _ hf)
  have h1 : ∀ n : Fin 32, t.isAes n = s.isAes n := fun n => by rw [State.isAes, hf _ (by grind)]
  have h2 : ∀ n : Fin 32, t.portFollows n = s.portFollows n := fun n => by
    simp only [State.portFollows, State.dir, State.isMaster, State.flag, h1, hf (Fd.SAP_CLKCFG_ROLE n) (by grind),
      hf (Fd.SAP_LINE_D0_DIR n) (by grind), hf (Fd.SAP_LINE_D1_DIR n) (by grind)]
  simp only [State.monFollowers, State.monPorts, State.lineMon, h1]
  exact List.filter_congr fun n _ => h2 n

/-- The selected reference hangs on CLK.REF_SEL alone. -/
theorem isRef_of_reg {s t : State} (m : Fin 43) (h : t.reg Adr.CLK_REF_SEL = s.reg Adr.CLK_REF_SEL) : t.isRef m = s.isRef m := by
  rw [State.isRef, State.refSrc, fld_of_reg h]

/-! ## A monitor enters a state, and adopts a rate -/

theorem monTo_eq (s : State) (m : Fin 43) (st : Nat) (mon : Mon) : s.monTo m st mon =
    ((s.setFld (Fd.CLK_MON_STAT_STATE m) st).withMons (s.mons.set m mon)).raise clkPage ClkEv.MON_EVENT := rfl

section To
variable (s : State) (m : Fin 43) (st : Nat) (mon : Mon)

theorem monTo_mons : (s.monTo m st mon).mons = s.mons.set m mon := by
  rw [monTo_eq, raise_mons, withMons_mons]

theorem monState_monTo (h : st < 4) : (s.monTo m st mon).monState m = st := by
  simp -implicitDefEqProofs (disch := grind) [monTo_eq, fld_raise, fld_setFld_same, Fld.width, Nat.mod_eq_of_lt h]

theorem evt_monTo : (s.monTo m st mon).evt clkPage ClkEv.MON_EVENT = true := by
  rw [monTo_eq, evt_raise _ _ (by decide)]

theorem fld_monTo_ne {f : Fld} (h : f.addr ≠ Adr.CLK_MON_STAT m) (h1 : f.addr ≠ pageAddr clkPage 0x010) (h2 : f.addr ≠ 0x4000C010)
    (h3 : f.addr ≠ 0x4000C060) : (s.monTo m st mon).fld f = s.fld f := by
  rw [monTo_eq, fld_raise _ _ _ h1 h2 h3, fld_withMons, fld_setFld_addr _ _ h.symm]

theorem Frame.monTo {R : Nat → Prop} {u : State} (h : Frame R u s) (h1 : R (Adr.CLK_MON_STAT m))
    (h2 : ∀ a, StatusOf [clkPage] a → R a) : Frame R u (s.monTo m st mon) :=
  ((h.setFld st h1).withMons _).raise _ h2

end To

theorem monAdopt_eq (s : State) (m : Fin 43) (code : Nat) (ppm : Int) : s.monAdopt m code ppm =
    ((s.withMons (s.mons.set m { s.mons[m] with nominal := code })).setFld (Fd.CLK_MON_STAT_NOMINAL m) code).setSfld
      (Fd.CLK_MON_STAT_OFFSET_PPM m) ppm := rfl

section Adopt
variable (s : State) (m : Fin 43) (code : Nat) (ppm : Int)

theorem monAdopt_mons : (s.monAdopt m code ppm).mons = s.mons.set m { s.mons[m] with nominal := code } := by
  rw [monAdopt_eq, State.setSfld, setFld_mons, setFld_mons, withMons_mons]

theorem nominal_monAdopt (h : code < 32) : (s.monAdopt m code ppm).fld (Fd.CLK_MON_STAT_NOMINAL m) = code := by
  simp -implicitDefEqProofs (disch := grind) [monAdopt_eq, State.setSfld, fld_setFld_bits, fld_setFld_same, Fld.width,
    Nat.mod_eq_of_lt h]

theorem offset_monAdopt (h : ppm.natAbs ≤ 10000) : (s.monAdopt m code ppm).sfld (Fd.CLK_MON_STAT_OFFSET_PPM m) = ppm :=
  sfld_setSfld_same _ _ (by simp) (by simp [Fld.width]; omega) (by simp [Fld.width]; omega)

theorem fld_monAdopt_ne {f : Fld} (h : f.addr ≠ Adr.CLK_MON_STAT m) : (s.monAdopt m code ppm).fld f = s.fld f := by
  rw [monAdopt_eq, State.setSfld, fld_setFld_addr _ _ h.symm, fld_setFld_addr _ _ h.symm, fld_withMons]

theorem monState_monAdopt : (s.monAdopt m code ppm).monState m = s.monState m := by
  simp -implicitDefEqProofs (disch := grind) [monAdopt_eq, State.setSfld, fld_setFld_bits]

theorem Quiet.monAdopt {R : Nat → Prop} {u : State} (h : Quiet R u s) (h1 : R (Adr.CLK_MON_STAT m)) :
    Quiet R u (s.monAdopt m code ppm) := ((h.withMons _).setFld code h1).setFld _ h1

end Adopt

/-- Without follower ports a new rate of a monitor does nothing more. -/
theorem monPortsRate_none {s : State} {m : Fin 43} (h : s.monFollowers m = []) (code : Nat) (changed : Bool) :
    s.monPortsRate m code changed = s := by
  rw [State.monPortsRate, h, List.foldl_nil]

/-! ## The commands -/

section Idle
variable {m : Fin 43} {s : State} (hr : s.isRef m = false) (hf : s.monFollowers m = [])
include hr hf

theorem monLoss_eq : s.monLoss m = ((s.monTo m monLost ⟨true, [], s.mons[m].nominal⟩).setFld (Fd.CLK_MON_STAT_NOMINAL m)
    s.mons[m].nominal).countSat (Fd.CLK_MON_CNT_LOSS_CNT m) 1 := by
  simp only [State.monLoss, hf, hr, List.foldl_nil, Bool.false_eq_true, if_false]

theorem monLoss_after (hl : s.monLive m = true) (hp : s.monState m = monPresentSt) :
    After (exec (.monLoss m) s) fun t => t.monState m = monLost ∧ t.mons = s.mons.set m ⟨true, [], s.mons[m].nominal⟩
      ∧ t.fld (Fd.CLK_MON_CNT_LOSS_CNT m) = satAdd 16 (s.fld (Fd.CLK_MON_CNT_LOSS_CNT m)) 1 ∧ t.evt clkPage ClkEv.MON_EVENT = true
      ∧ Frame (fun a => a = Adr.CLK_MON_STAT m ∨ a = Adr.CLK_MON_CNT m ∨ StatusOf [clkPage] a) s t := by
  refine .of_eq (next_pos (by simp [hl, hp])) ?_
  rw [monLoss_eq hr hf]
  refine ⟨?_, ?_, ?_, ?_, ?_⟩
  · rw [State.monState, fld_countSat_ne _ _ (by grind), fld_setFld_bits _ _ (by simp) (by simp)]
    exact monState_monTo _ _ _ _ (by decide)
  · rw [State.countSat, setFld_mons, setFld_mons, monTo_mons]
  · rw [fld_countSat_same _ _ _ (by simp), fld_setFld_addr _ _ (by grind), fld_monTo_ne] <;> grind
  · simp only [State.evt, reg_countSat_ne _ _ _ (show (Fd.CLK_MON_CNT_LOSS_CNT m).addr ≠ pageAddr clkPage 0x010 by grind),
      reg_setFld_ne _ _ _ (show (Fd.CLK_MON_STAT_NOMINAL m).addr ≠ pageAddr clkPage 0x010 by grind)]
    exact evt_monTo _ _ _ _
  · exact (((Frame.refl _ s).monTo _ _ _ _ (.inl rfl) fun _ h => .inr (.inr h)).setFld _ (.inl rfl)).countSat _ (.inr (.inl rfl))

omit hf in
theorem monGlitch_eq (hf : s.monFollowers m = []) (gap : Nat) (hg : s.fld (Fd.CLK_MON_CFG_GLITCH_LIMIT m) = 0) :
    s.monGlitch m gap = (s.countSat (Fd.CLK_MON_CNT_GLITCH_CNT m) 1).withMons (s.mons.set m
      { s.mons[m] with glitches := 0 :: ((s.mons[m].glitches.map (· + gap)).filter (· < 1024)) }) := by
  generalize ht : (s.countSat (Fd.CLK_MON_CNT_GLITCH_CNT m) 1).withMons _ = t
  have hreg : ∀ a, a ≠ Adr.CLK_MON_CNT m → t.reg a = s.reg a := by
    intro a ha
    rw [← ht, reg_withMons, reg_countSat_ne _ _ _ ha.symm]
  have h1 : t.monFollowers m = [] := (monFollowers_of_regs m fun a ha => hreg a (by grind)).trans hf
  have h2 : t.isRef m = false := (isRef_of_reg m (hreg _ (by grind))).trans hr
  have h3 : t.fld (Fd.CLK_MON_CFG_GLITCH_LIMIT m) = 0 := (fld_of_reg (hreg _ (by grind))).trans hg
  have e : s.monGlitch m gap =
      (let u := (t.monFollowers m).foldl (fun x n => x.updSap n fun p => { p with glitch := true }) t
       let v := if u.isRef m then u.raise clkPage ClkEv.REF_GLITCH else u
       let limit := v.fld (Fd.CLK_MON_CFG_GLITCH_LIMIT m)
       if limit ≠ 0 ∧ limit ≤ (0 :: ((s.mons[m].glitches.map (· + gap)).filter (· < 1024))).length then v.monLoss m else v) := by
    rw [← ht]; rfl
  rw [e]
  simp only [h1, h2, h3, List.foldl_nil, Bool.false_eq_true, if_false, ne_eq, not_true_eq_false, false_and]

theorem monGlitch_after (gap : Nat) (hl : s.monLive m = true) (hp : s.monState m = monPresentSt) (hd : s.monDeaf m = false)
    (hg : s.fld (Fd.CLK_MON_CFG_GLITCH_LIMIT m) = 0) :
    After (exec (.monGlitch m gap) s) fun t =>
      t.fld (Fd.CLK_MON_CNT_GLITCH_CNT m) = satAdd 16 (s.fld (Fd.CLK_MON_CNT_GLITCH_CNT m)) 1
      ∧ t.mons = s.mons.set m ⟨s.mons[m].fromLost, 0 :: ((s.mons[m].glitches.map (· + gap)).filter (· < 1024)), s.mons[m].nominal⟩
      ∧ Quiet (· = Adr.CLK_MON_CNT m) s t := by
  refine .of_eq (next_pos (by simp [hl, hp, hd])) ?_
  rw [monGlitch_eq hr hf gap hg]
  refine ⟨?_, rfl, ((Quiet.refl (· = Adr.CLK_MON_CNT m) s).countSat _ rfl).withMons _⟩
  rw [fld_withMons, fld_countSat_same _ _ _ (by simp)]
  rfl

theorem monRateChange_after (code : Fin 18) (ppm : Int) (hl : s.monLive m = true) (hp : s.monState m = monPresentSt)
    (hd : s.monDeaf m = false) (hn : s.mons[m].nominal ≠ code.val) (hb : ppm.natAbs ≤ 10000) :
    After (exec (.monRateChange m code ppm) s) fun t => t.fld (Fd.CLK_MON_STAT_NOMINAL m) = code.val
      ∧ t.sfld (Fd.CLK_MON_STAT_OFFSET_PPM m) = ppm ∧ t.mons = s.mons.set m { s.mons[m] with nominal := code.val }
      ∧ Quiet (· = Adr.CLK_MON_STAT m) s t := by
  have hq := (Quiet.refl (· = Adr.CLK_MON_STAT m) s).monAdopt s m code ppm rfl
  have hf' : (s.monAdopt m code ppm).monFollowers m = [] := (monFollowers_of_regs m fun a ha => hq.regs a (by grind)).trans hf
  have e : s.monRate m code ppm = s.monAdopt m code ppm := by
    simp only [State.monRate, hr, Bool.false_eq_true, if_false, monPortsRate_none hf']
  refine .of_eq (next_pos (by simpa [hl, hp, hd, hb] using hn)) ?_
  rw [e]
  exact ⟨nominal_monAdopt s m _ ppm (by omega), offset_monAdopt s m _ ppm hb, monAdopt_mons s m _ ppm, hq⟩

omit hr hf in
/-- A monitor in ACQUIRING takes no notice of a further edge. -/
theorem monEdge_acquiring (hp : s.monState m = monAcquiring) : s.monEdge m = s := by
  have h : s.fld (Fd.CLK_MON_STAT_STATE m) = 1 := hp
  simp [State.monEdge, h]

theorem monPresent_after (code : Fin 18) (ppm : Int) (hl : s.monLive m = true) (hp : s.monState m = monAcquiring)
    (hd : s.monDeaf m = false) (hb : ppm.natAbs ≤ 10000) :
    After (exec (.monPresent m code ppm) s) fun t => t.monState m = monPresentSt
      ∧ t.fld (Fd.CLK_MON_STAT_NOMINAL m) = code.val ∧ t.sfld (Fd.CLK_MON_STAT_OFFSET_PPM m) = ppm
      ∧ t.mons = s.mons.set m ⟨false, [], code.val⟩ ∧ t.evt clkPage ClkEv.MON_EVENT = true
      ∧ Frame (fun a => a = Adr.CLK_MON_STAT m ∨ StatusOf [clkPage] a) s t := by
  have he := monEdge_acquiring hp
  generalize hu : s.monTo m monPresentSt ⟨false, [], code⟩ = u
  have hfu : Frame (fun a => a = Adr.CLK_MON_STAT m ∨ StatusOf [clkPage] a) s u :=
    hu ▸ (Frame.refl _ s).monTo s _ _ _ (.inl rfl) fun _ h => .inr h
  have hqt := (Quiet.refl (· = Adr.CLK_MON_STAT m) u).monAdopt u m code ppm rfl
  have hft := hfu.trans (hqt.frame.mono fun _ h => .inl h)
  have hf' : (u.monAdopt m code ppm).monFollowers m = [] := by
    refine (monFollowers_of_regs m fun a ha => hft.regs a ?_).trans hf
    rintro (h | ⟨p, hp, h⟩ | h | h)
    · grind
    · simp only [List.mem_singleton] at hp; grind
    all_goals omega
  have e : s.monPresent m code ppm = u.monAdopt m code ppm := by
    simp only [State.monPresent, hr, hu, Bool.not_false, if_true, monPortsRate_none hf']
  have ex : exec (.monPresent m code ppm) s = .next (u.monAdopt m code ppm) := by
    show execMonPresent m code ppm s = _
    simp only [execMonPresent, he, hl, hp, hd, hb, e, Bool.not_false, Bool.and_self, beq_self_eq_true, decide_true, if_true]
  refine .of_eq ex ?_
  refine ⟨?_, nominal_monAdopt u m _ ppm (by omega), offset_monAdopt u m _ ppm hb, ?_, ?_, hft⟩
  · rw [monState_monAdopt, ← hu]; exact monState_monTo _ _ _ _ (by decide)
  · rw [monAdopt_mons, ← hu, monTo_mons]; simp
  · rw [State.evt, hqt.regs _ (by grind), ← hu]; exact evt_monTo _ _ _ _

omit hr hf in
theorem monAcquireTimeout_after (hl : s.monLive m = true) (hp : s.monState m = monAcquiring) :
    After (exec (.monAcquireTimeout m) s) fun t => t.monState m = (if s.mons[m].fromLost then monLost else monAbsent)
      ∧ t.mons = s.mons ∧ Frame (fun a => a = Adr.CLK_MON_STAT m ∨ StatusOf [clkPage] a) s t := by
  refine .of_eq (next_pos (by simp [hl, hp])) ?_
  refine ⟨monState_monTo _ _ _ _ (by split <;> decide), ?_, ?_⟩
  · rw [monTo_mons]; simp
  · exact (Frame.refl _ s).monTo s _ _ _ (.inl rfl) fun _ h => .inr h

end Idle

/-- Settles O1, one lemma for each command. -/
theorem monitorCommands : Obligations.MonitorCommands := by
  unfold Obligations.MonitorCommands
  exact ⟨fun m s hl hp hr hf => monLoss_after hr hf hl hp,
    fun m gap s hl hp hr hf hd hg => monGlitch_after hr hf gap hl hp hd hg,
    fun m code ppm s hl hp hr hf hd hn hb => monRateChange_after hr hf code ppm hl hp hd hn hb,
    fun m code ppm s hl hp hr hf hd hb => monPresent_after hr hf code ppm hl hp hd hb,
    fun m s hl hp => monAcquireTimeout_after hl hp⟩

end Sys2Proof.Machine
end

section
/-!
PROOFS. Glides (08_mixing_and_processing.md R195–R197) and the byte stuffing of CP3 (14_control_ports.md R329).
-/
namespace Sys2Proof.Machine

/-! ## Glides -/

/-- A glide with `n` ticks left takes the step of R195 that comes next. -/
theorem Glide.step_moving (g : Glide) {n : Nat} (h : g.left = n + 1) :
    g.step = { g with now := Gain.between g.start g.target (g.total - (n + 1)) g.total, left := n } := by
  rw [Glide.step, if_neg (by omega), h, Nat.add_sub_cancel]

/-- A glide after its first `i + 1` ticks. -/
theorem repeat_step_aim (g : Glide) (x : Gain) (l i : Nat) (h : i < glideTicks l) :
    Nat.repeat Glide.step (i + 1) (g.aim x l)
      = ⟨Gain.between g.now x i (glideTicks l), x, glideTicks l - (i + 1), glideTicks l, g.now⟩ := by
  induction i with
  | zero =>
    show (g.aim x l).step = _
    rw [Glide.step_moving (n := glideTicks l - 1) _ (show glideTicks l = _ by omega)]
    simp only [Glide.aim, show glideTicks l - (glideTicks l - 1 + 1) = 0 by omega, Nat.zero_add]
  | succ i ih =>
    show (Nat.repeat Glide.step (i + 1) (g.aim x l)).step = _
    rw [ih (by omega), Glide.step_moving (n := glideTicks l - (i + 1 + 1)) _ (show glideTicks l - (i + 1) = _ by omega)]
    simp only [show glideTicks l - (glideTicks l - (i + 1 + 1) + 1) = i + 1 by omega]

/-- The last step of a glide is its target. -/
theorem Gain.between_last (a b : Gain) (l : Nat) : Gain.between a b (l - 1) l = b := by
  rw [Gain.between, if_pos (by omega)]

/-- Settles O59, by induction on the ticks of the glide. -/
theorem glideRules : Obligations.GlideRules := by
  unfold Obligations.GlideRules
  refine ⟨fun g x l i h => ?_, fun g x l => ?_, fun g x l h => if_pos h, fun g x l h => if_neg h⟩
  · rw [repeat_step_aim g x l i h]
    exact ⟨rfl, rfl⟩
  · have hl : 0 < glideTicks l := by simp
    have h := repeat_step_aim g x l (glideTicks l - 1) (Nat.sub_lt hl Nat.zero_lt_one)
    rwa [Nat.sub_add_cancel hl, Gain.between_last, Nat.sub_self] at h

/-! ## Byte stuffing -/

/-- A code byte of a block. -/
theorem toNat_cobsCode {n : Nat} (h : n ≤ 254) : (BitVec.ofNat 8 (n + 1)).toNat = n + 1 := by
  rw [BitVec.toNat_ofNat, Nat.mod_eq_of_lt (by omega)]

theorem cobsCode_ne_zero {n : Nat} (h : n ≤ 254) : (BitVec.ofNat 8 (n + 1) : Byte) ≠ 0 := by
  intro e
  have := congrArg BitVec.toNat e
  rw [toNat_cobsCode h] at this
  simp at this

/-- The decoder takes one block off the line: a zero follows it unless it is a longest one or the last. -/
theorem cobsBlocks_block (fuel : Nat) {blk : List Byte} (rest : List Byte) (hz : 0 ∉ blk) (hl : blk.length ≤ 254) :
    cobsBlocks (fuel + 1) (cobsBlock blk ++ rest) =
      (cobsBlocks fuel rest).map fun tl => blk ++ (if blk.length = 254 ∨ rest = [] then [] else [0]) ++ tl := by
  have hc : (BitVec.ofNat 8 (blk.length + 1) : Byte) = 255 ↔ blk.length = 254 := by
    constructor
    · intro e
      have := congrArg BitVec.toNat e
      rw [toNat_cobsCode hl] at this
      simpa using this
    · intro e
      rw [e]
      rfl
  have hn : (BitVec.ofNat 8 (blk.length + 1)).toNat - 1 = blk.length := by rw [toNat_cobsCode hl, Nat.add_sub_cancel]
  have hok : ¬ ((BitVec.ofNat 8 (blk.length + 1) : Byte) = 0 ∨ (blk ++ rest).length < blk.length ∨ blk.contains 0 = true) := by
    rintro (e | e | e)
    · exact cobsCode_ne_zero hl e
    · simp at e
    · exact hz (by simpa using e)
  simp only [cobsBlock, List.cons_append, cobsBlocks, hn, List.take_left, List.drop_left, if_neg hok, hc, List.isEmpty_iff]

theorem cobsRun_ne_nil (blk bs : List Byte) : cobsRun blk bs ≠ [] := by
  induction bs generalizing blk with
  | nil => simp [cobsRun]
  | cons b bs ih =>
    unfold cobsRun
    split
    · simp
    · split
      · simp
      · exact ih _

/-- No byte of the line is zero. -/
theorem zero_not_mem_cobsRun {blk : List Byte} (bs : List Byte) (hz : 0 ∉ blk) (hl : blk.length ≤ 253) : 0 ∉ cobsRun blk bs := by
  have hblock : ∀ {l : List Byte}, 0 ∉ l → l.length ≤ 254 → (0 : Byte) ∉ cobsBlock l := fun h h1 =>
    List.not_mem_cons_of_ne_of_not_mem (cobsCode_ne_zero h1).symm h
  induction bs generalizing blk with
  | nil => exact hblock hz (by omega)
  | cons b bs ih =>
    unfold cobsRun
    split
    · exact List.not_mem_append (hblock hz (by omega)) (ih (by simp) (by simp))
    · next hb =>
      have hz' : (0 : Byte) ∉ blk ++ [b] := List.not_mem_append hz (by simpa using Ne.symm hb)
      split
      · refine List.not_mem_append (hblock hz' (by simp; omega)) ?_
        split
        · simp
        · exact ih (by simp) (by simp)
      · exact ih hz' (by simp; omega)

/-- Decoding gives back the block begun and the bytes that followed it. -/
theorem cobsBlocks_run (bs : List Byte) : ∀ {blk : List Byte} {fuel : Nat}, 0 ∉ blk → blk.length ≤ 253 →
    (cobsRun blk bs).length < fuel → cobsBlocks fuel (cobsRun blk bs) = some (blk ++ bs) := by
  have hnil : ∀ {f : Nat}, 0 < f → cobsBlocks f [] = some [] := by
    intro f hf
    obtain ⟨f, rfl⟩ := Nat.exists_eq_succ_of_ne_zero (Nat.ne_of_gt hf)
    rfl
  induction bs with
  | nil =>
    intro blk fuel hz hl hf
    obtain ⟨f, rfl⟩ := Nat.exists_eq_succ_of_ne_zero (Nat.ne_of_gt (Nat.zero_lt_of_lt hf))
    have h := cobsBlocks_block f [] hz (by omega)
    rw [List.append_nil, hnil (by simp [cobsRun] at hf; omega)] at h
    simpa [cobsRun] using h
  | cons b bs ih =>
    intro blk fuel hz hl hf
    obtain ⟨f, rfl⟩ := Nat.exists_eq_succ_of_ne_zero (Nat.ne_of_gt (Nat.zero_lt_of_lt hf))
    unfold cobsRun at hf ⊢
    split at hf
    · next hb =>
      simp only [if_pos hb]
      rw [cobsBlocks_block f _ hz (by omega), ih (by simp) (by simp) (by simp at hf; omega), if_neg]
      · simp [hb]
      · rintro (h | h)
        · omega
        · exact cobsRun_ne_nil _ _ h
    · next hb =>
      have hz' : (0 : Byte) ∉ blk ++ [b] := List.not_mem_append hz (by simpa using Ne.symm hb)
      simp only [if_neg hb]
      split at hf
      · next hfull =>
        simp only [if_pos hfull]
        have hlen : (blk ++ [b]).length = 254 := by simp [hfull]
        rw [cobsBlocks_block f _ hz' (by omega), if_pos (.inl hlen)]
        split
        · next he =>
          rw [hnil (by simp at hf; omega)]
          simp [List.isEmpty_iff.1 he]
        · next he =>
          rw [if_neg he] at hf
          rw [ih (by simp) (by simp) (by simp at hf; omega)]
          simp
      · next hfull =>
        simp only [if_neg hfull]
        rw [ih hz' (by simp; omega) hf]
        simp

/-- Settles O58. -/
theorem cobsRoundTrip : Obligations.CobsRoundTrip := by
  unfold Obligations.CobsRoundTrip
  exact fun bs => ⟨zero_not_mem_cobsRun bs (by simp) (by simp), cobsBlocks_run bs (by simp) (by simp) (Nat.lt_succ_self _)⟩

end Sys2Proof.Machine
end

section
/-!
PROOFS. Latched port counts (03_serial_audio_ports.md R69, R84), the check-value engines (12_crc_engines.md R292–R299), the supply
of the pins (19_electrical_and_package.md R414, R427) and the values of bibs (15_transactions_and_hosts.md R346).
-/
namespace Sys2Proof.Machine

/-! ## Register reads -/

/-- A register read of a reachable page gives its word. -/
theorem answer_on {s : State} {p : Nat} (h : s.pageOn p = true) (w : Word) : s.answer p w = { s with bus := w } := by
  unfold State.pageOn at h
  unfold State.answer
  split at h
  · next d hd => simp only [h, if_true]
  · cases h

theorem pageOn_congr {s t : State} {p : Nat} (h : t.doms = s.doms) : t.pageOn p = s.pageOn p := by
  unfold State.pageOn State.domOn State.dom
  rw [h]

theorem answer_quiet {R : Nat → Prop} {s t : State} (h : Quiet R s t) (p : Nat) (w : Word) : Quiet R s (t.answer p w) :=
  h.congr rfl rfl rfl

theorem answer_saps (s : State) (p : Nat) (w : Word) : (s.answer p w).saps = s.saps := rfl

theorem latchCounts_regsOnly (s : State) (n : Fin 32) (k : Fin 2) : RegsOnly s (s.latchCounts n k) :=
  ((((RegsOnly.refl s).setFld _ _).setFld _ _).setFld _ _).setFld _ _

theorem framesInRead_after (n : Fin 32) (k : Fin 2) {s : State} (h : s.pageOn (sapPage n) = true) :
    After (exec (.framesInRead n k) s) fun t => t.bus = word (s.line n k).fin
      ∧ t.fld (Fd.SAP_FRAMES_OUT_COUNT n k) = (s.line n k).fout % 2 ^ 32
      ∧ t.fld (Fd.SAP_FILL_COUNT n k) = (s.line n k).store % 2 ^ (Fd.SAP_FILL_COUNT n k).width
      ∧ t.fld (Fd.SAP_DROPPED_COUNT n k) = (s.line n k).dropped % 2 ^ 32
      ∧ t.fld (Fd.SAP_INSERTED_COUNT n k) = (s.line n k).inserted % 2 ^ 32 ∧ t.saps = s.saps
      ∧ Quiet (fun a => a = Adr.SAP_FRAMES_OUT n k ∨ a = Adr.SAP_FILL n k ∨ a = Adr.SAP_DROPPED n k ∨ a = Adr.SAP_INSERTED n k) s t := by
  refine .of_eq (next_pos h) ?_
  refine ⟨?_, ?_, ?_, ?_, ?_, ?saps, ?_⟩
  · exact congrArg State.bus (answer_on ((pageOn_congr ((latchCounts_regsOnly s n k).same _ fun _ => rfl)).trans h) _)
  · rw [fld_answer, State.latchCounts, fld_setFld_addr _ _ (by grind), fld_setFld_addr _ _ (by grind),
      fld_setFld_addr _ _ (by grind), fld_setFld_same _ _ _ (by simp)]
    rfl
  · rw [fld_answer, State.latchCounts, fld_setFld_addr _ _ (by grind), fld_setFld_addr _ _ (by grind),
      fld_setFld_same _ _ _ (by simp)]
  · rw [fld_answer, State.latchCounts, fld_setFld_addr _ _ (by grind), fld_setFld_same _ _ _ (by simp)]
    rfl
  · rw [fld_answer, State.latchCounts, fld_setFld_same _ _ _ (by simp)]
    rfl
  · exact (answer_saps _ _ _).trans ((latchCounts_regsOnly s n k).same _ fun _ => rfl)
  · exact answer_quiet (((((Quiet.refl _ s).setFld _ (.inl rfl)).setFld _ (.inr (.inl rfl))).setFld _
      (.inr (.inr (.inl rfl)))).setFld _ (.inr (.inr (.inr rfl)))) _ _

theorem stampLoRead_after (n : Fin 32) {s : State} (h : s.pageOn (sapPage n) = true) :
    After (exec (.stampLoRead n) s) fun t => t.bus = word s.saps[n].stampNow
      ∧ t.reg (Adr.SAP_STAMP_HI n) = word (s.saps[n].stampNow / 2 ^ 32) ∧ t.reg (Adr.SAP_BLOCK_CNT n) = word s.saps[n].blocks
      ∧ t.saps = s.saps ∧ Quiet (fun a => a = Adr.SAP_STAMP_HI n ∨ a = Adr.SAP_BLOCK_CNT n) s t := by
  refine .of_eq (next_pos h) ?_
  refine ⟨?_, ?_, ?_, rfl, ?_⟩
  · exact congrArg State.bus (answer_on ((pageOn_congr (t := s.latchStamp n) rfl).trans h) _)
  · rw [reg_answer, State.latchStamp, reg_setReg_ne _ _ (by grind), reg_setReg_same]
  · rw [reg_answer, State.latchStamp, reg_setReg_same]
  · exact answer_quiet (((Quiet.refl _ s).setReg _ (.inl rfl)).setReg _ (.inr rfl)) _ _

/-- Settles O6. -/
theorem portCountCommands : Obligations.PortCountCommands := by
  unfold Obligations.PortCountCommands
  exact ⟨fun n k s h => framesInRead_after n k h, fun n s h => stampLoRead_after n h⟩

/-! ## The check-value engines -/

theorem bytesLE_two (v : BitVec 16) : bytesLE 2 v.toNat = [v.extractLsb' 0 8, v.extractLsb' 8 8] := by
  simp [bytesLE, List.range, List.range.loop, BitVec.extractLsb', Nat.shiftRight_eq_div_pow]

theorem bytesLE_four (v : Word) :
    bytesLE 4 v.toNat = [v.extractLsb' 0 8, v.extractLsb' 8 8, v.extractLsb' 16 8, v.extractLsb' 24 8] := by
  simp [bytesLE, List.range, List.range.loop, BitVec.extractLsb', Nat.shiftRight_eq_div_pow]

/-- A write of CRC25 by a party that does not own it only marks NOT_OWNER (R299). -/
theorem crcWrite_notOwner {a : CrcParty} {s : State} (hr : s.crcReach a = true) (ho : s.crcOwner ≠ some a) (f : Crc → Crc) :
    s.crcWrite a 25 f = s.setErr crcPage 0 := by
  simp [State.crcWrite, hr, ho]

theorem crcConfig_notOwner {a : CrcParty} {s : State} (hr : s.crcReach a = true) (ho : s.crcOwner ≠ some a) (r : CrcReg) (v : Nat) :
    s.crcConfig a 25 r v = s.setErr crcPage 0 := by
  simp [State.crcConfig, State.crcSet, crcWrite_notOwner hr ho, ho]

/-- A bound engine takes no write (R292). -/
theorem crcWrite_bound (a : CrcParty) {i : Fin 26} (s : State) (h : i.val < 25) (f : Crc → Crc) : s.crcWrite a i f = s := by
  simp [State.crcWrite, h]

theorem crcConfig_bound (a : CrcParty) {i : Fin 26} (s : State) (h : i.val < 25) (r : CrcReg) (v : Nat) : s.crcConfig a i r v = s := by
  have hi : (i.val == 25) = false := by simpa using Nat.ne_of_lt h
  simp [State.crcConfig, State.crcSet, crcWrite_bound a s h, hi]

/-- Engines 8 to 23 read 0 while their ports are not ON (R298). -/
theorem crcLive_false {i : Fin 26} {s : State} (h1 : 8 ≤ i.val) (h2 : i.val < 24) (h : s.domOn (Dm.PORTG 3) = false) :
    s.crcLive i = false := by
  simp only [State.crcLive, h, h1, show i.val ≤ 23 by omega, decide_true, Bool.and_self, Bool.not_true, Bool.or_self]

theorem crcLive_25 (s : State) : s.crcLive 25 = true := by simp [State.crcLive]

/-- Settles O28. -/
theorem crcCommands : Obligations.CrcCommands := by
  unfold Obligations.CrcCommands
  refine ⟨fun a v s hr ho => next_eq (crcWrite_owner hr ho _), fun a v s hr ho => ?d16, fun a v s hr ho => ?d32,
    fun a s hr ho => next_eq (crcWrite_owner hr ho _), fun a v s hr ho => next_eq (crcConfig_owner hr ho .poly _),
    fun a v s hr ho => next_eq (crcConfig_owner hr ho .xorout _), fun a v h w r s hr ho => ?foreign,
    fun a i v h w r s hi => ?bound, fun s hp => ?read, fun i s hp h1 h2 hd => ?down, fun a s hr ho => ?request,
    fun a b s hr ho hab => ?refused, fun a s hr ho => ?release⟩
  case d16 => rw [← bytesLE_two]; exact next_eq (crcWrite_owner hr ho _)
  case d32 => rw [← bytesLE_four]; exact next_eq (crcWrite_owner hr ho _)
  case foreign =>
    have hw := fun f => next_eq (crcWrite_notOwner hr ho f)
    exact ⟨hw _, hw _, hw _, hw _, next_eq (crcConfig_notOwner hr ho r _)⟩
  case bound =>
    have hw := fun f => next_eq (crcWrite_bound a s hi f)
    exact ⟨hw _, hw _, hw _, hw _, next_eq (crcConfig_bound a s hi r _)⟩
  case read =>
    refine ⟨next_eq ?_, next_eq ?_⟩
    · rw [answer_on hp, State.crcResult, crcLive_25]; rfl
    · rw [answer_on hp, State.crcRaw, crcLive_25]; rfl
  case down =>
    refine ⟨next_eq ?_, next_eq ?_⟩
    · rw [answer_on hp, State.crcResult, crcLive_false h1 h2 hd]; rfl
    · rw [answer_on hp, State.crcRaw, crcLive_false h1 h2 hd]; rfl
  case request => exact next_eq (by simp [State.crcOwnRequest, hr, ho])
  case refused =>
    refine ⟨next_eq ?_, next_eq ?_⟩
    · simp [State.crcOwnRequest, hr, ho, hab.symm]
    · simp [State.crcOwnRelease, hr, ho, hab.symm]
  case release => exact next_eq (by simp [State.crcOwnRelease, hr, ho])

/-! ## Pins -/

/-- Settles O37: each command tests its one condition on VIO. -/
theorem pinCommands : Obligations.PinCommands := by
  unfold Obligations.PinCommands
  have sel : ∀ {mv : Nat} {s t : State}, s.vio = .unselected → s.resetHold = none → s.vioSelect mv = t →
      exec (.vioSelect mv) s = .next t := fun hv hr h => h ▸ next_pos ⟨hv, by rw [hr]; rfl⟩
  refine ⟨fun mv s hv hr h => sel hv hr (if_pos h), fun mv s hv hr h1 h2 => sel hv hr ?_, fun mv s hv hr h => sel hv hr ?_,
    fun s h => next_pos h, fun s h => next_pos h, fun pin s => rfl⟩
  · rw [State.vioSelect, if_neg (by omega), if_pos ⟨h1, h2⟩]
  · rw [State.vioSelect, if_neg (by omega), if_neg (by omega), if_pos h]

/-! ## The values of bibs -/

/-- The search passes over values that are 0 or held, and stops at the first other one. -/
theorem nextBib_spec (held : List Nat) : ∀ (fuel v j : Nat), v < 65536 → j < fuel →
    (v + j) % 65536 ≠ 0 ∧ (v + j) % 65536 ∉ held →
    nextBib held fuel v ≠ 0 ∧ nextBib held fuel v < 65536 ∧ nextBib held fuel v ∉ held := by
  intro fuel
  induction fuel with
  | zero => intro v j _ hj; omega
  | succ fuel ih =>
    intro v j hv hj hgood
    unfold nextBib
    split
    · next hbad =>
      cases j with
      | zero =>
        rw [Nat.add_zero, Nat.mod_eq_of_lt hv] at hgood
        exact absurd hbad (by simpa using hgood)
      | succ j => exact ih _ j (Nat.mod_lt _ (by decide)) (by omega) (by
          rwa [Nat.mod_add_mod, show v + 1 + j = v + (j + 1) by omega])
    · next hok =>
      simp only [not_or, List.contains_iff_mem] at hok
      exact ⟨hok.1, hv, hok.2⟩

/-- Among 66 values in a row one is neither 0 nor one of 64 held ones. -/
theorem exists_free_value {held : List Nat} (hl : held.length = 64) (v : Nat) :
    ∃ j < 66, (v + j) % 65536 ≠ 0 ∧ (v + j) % 65536 ∉ held := by
  by_contra hc
  have hmaps : ∀ j ∈ Finset.range 66, (v + j) % 65536 ∈ (0 :: held).toFinset := by
    intro j hj
    by_contra hn
    refine hc ⟨j, Finset.mem_range.1 hj, ?_⟩
    simpa using hn
  have hcard : ((0 :: held).toFinset).card < (Finset.range 66).card := by
    have := List.toFinset_card_le (0 :: held)
    rw [List.length_cons, hl] at this
    rw [Finset.card_range]
    omega
  obtain ⟨i, hi, j, hj, hij, he⟩ := Finset.exists_ne_map_eq_of_card_lt_of_maps_to hcard hmaps
  rw [Finset.mem_range] at hi hj
  omega

theorem bibAt_fin (s : State) (k : Fin 64) : s.bibAt k = s.txn.bibs[k] := at_fin _ _ _

theorem bibAt_updBib_same (s : State) {k : Nat} (f : Bib → Bib) (h : k < 64) : (s.updBib k f).bibAt k = f (s.bibAt k) := by
  simp [State.bibAt, State.updBib, at_, upd, h]

theorem bibAt_updBib_ne (s : State) {k j : Nat} (f : Bib → Bib) (h : k ≠ j) : (s.updBib k f).bibAt j = s.bibAt j := by
  unfold State.bibAt State.updBib at_ upd
  by_cases hk : k < 64 <;> by_cases hj : j < 64 <;> simp [hk, hj, h]

/-- The bib that an open puts into its slot. -/
def State.newBib (s : State) (p : Fin 4) (implicit : Bool) : Bib :=
  { Bib.none_ with
    value := nextBib (s.txn.bibs.toList.map fun (b : Bib) => b.value) 66 s.txn.counter
    state := if implicit then BibState.implicit else BibState.opened
    port := p
    status := St.PENDING
    serial := s.txn.serial + 1 }

/-- What an open that finds a slot leaves (R346). -/
theorem takeBib_some {s t : State} {p : Fin 4} {i : Bool} {k : Nat} (h : s.takeBib p i = (some k, t)) :
    k < 64 ∧ (s.bibAt k).state = .free ∧ t = { s.updBib k (fun _ => s.newBib p i) with
      txn := { (s.updBib k fun _ => s.newBib p i).txn with counter := ((s.newBib p i).value + 1) % 65536
                                                           serial := s.txn.serial + 1 } } := by
  unfold State.takeBib at h
  split at h
  · cases h
  · next k' hk =>
    obtain ⟨hk1, hk2⟩ := Prod.mk.inj h
    obtain rfl := Option.some.inj hk1
    exact ⟨List.mem_range.1 (List.mem_of_find?_eq_some hk), by simpa using List.find?_some hk, hk2.symm⟩

/-- The bibs after an open. -/
theorem bibAt_takeBib {s t : State} {p : Fin 4} {i : Bool} {k : Nat} (h : s.takeBib p i = (some k, t)) :
    t.bibAt k = s.newBib p i ∧ ∀ j, j ≠ k → t.bibAt j = s.bibAt j := by
  obtain ⟨hk, -, rfl⟩ := takeBib_some h
  exact ⟨bibAt_updBib_same s _ hk, fun j hj => bibAt_updBib_ne s _ hj.symm⟩

/-- The value of a new bib is neither 0 nor one that a bib holds. -/
theorem newBib_value {s : State} (hc : s.txn.counter < 65536) (p : Fin 4) (i : Bool) :
    (s.newBib p i).value ≠ 0 ∧ (s.newBib p i).value < 65536 ∧ ∀ j : Fin 64, (s.bibAt j).value ≠ (s.newBib p i).value := by
  obtain ⟨j, hj, hgood⟩ := exists_free_value (held := s.txn.bibs.toList.map fun (b : Bib) => b.value) (by simp) s.txn.counter
  obtain ⟨h0, h1, h2⟩ := nextBib_spec _ 66 s.txn.counter j hc hj hgood
  refine ⟨h0, h1, fun k e => h2 ?_⟩
  rw [bibAt_fin] at e
  rw [show nextBib _ 66 s.txn.counter = (s.newBib p i).value from rfl, ← e]
  exact List.mem_map_of_mem (by simp)

/-- Settles O53: the slot is a free one, and the value is the first that the search of 66 finds. -/
theorem bibValues : Obligations.BibValues := by
  unfold Obligations.BibValues
  intro p i k s t hc h
  obtain ⟨-, hfree, ht⟩ := takeBib_some h
  obtain ⟨hk, hothers⟩ := bibAt_takeBib h
  obtain ⟨h0, h1, h2⟩ := newBib_value hc p i
  rw [hk]
  refine ⟨h0, h1, h2, rfl, hfree, ?_, fun j hj => hothers j hj⟩
  rw [ht]

end Sys2Proof.Machine
end

section
/-!
PROOFS. The selected reference (02_clocks_and_time.md R36): a field of five bits cannot hold every nominal that a state may record.
-/
namespace Sys2Proof.Machine

/-- A field is below the power of its width. -/
theorem fld_lt (s : State) (f : Fld) : s.fld f < 2 ^ f.width := Nat.mod_lt _ (Nat.two_pow_pos _)

/-- `awake`, LOCKED on monitor 0, whose recorded nominal is 32 and so beyond NOMINAL's five bits. -/
def lockedWideNominal : State :=
  ((((awake.pllTo .locked).setFld Fd.CLK_REF_SEL_SRC 1).setFld (Fd.CLK_MON_STAT_STATE 0) 2).setSfld
    (Fd.CLK_MON_STAT_OFFSET_PPM 0) (-5)).setFld (Fd.CLK_MON_STAT_NOMINAL 0) 3 |>.setFld Fd.CLK_CORE_FAMILY 0
    |>.withMons (awake.mons.set 0 ⟨false, [], 32⟩)

theorem lockedWideNominal_nominal : lockedWideNominal.mons[(0 : Fin 43)].nominal = 32 := by decide +kernel

/-- Refutes O2: the clause on `REF_UNUSABLE` gives NOMINAL the recorded nominal of the monitor, which need not fit its five bits. -/
theorem not_pllCommands : ¬ Obligations.PllCommands := by
  unfold Obligations.PllCommands
  rintro ⟨-, -, -, -, -, -, -, -, -, -, -, unusable, -, -⟩
  obtain ⟨t, -, -, -, -, hn, -⟩ := unusable 0 (-2001) lockedWideNominal (by decide +kernel) (by decide +kernel) (by decide +kernel)
    (by decide +kernel) (by decide +kernel) (by decide) (by decide)
  exact absurd (hn ▸ fld_lt _ _ : lockedWideNominal.mons[(0 : Fin 43)].nominal < 2 ^ 5)
    (by rw [lockedWideNominal_nominal]; decide)

end Sys2Proof.Machine
end

section
/-!
PROOFS. Latched counters, coarse counting and the epoch frames of an ensemble (02_clocks_and_time.md R46–R52).
-/
namespace Sys2Proof.Machine

/-! ## Free values leave registers, memory and the ensemble -/

@[simp] theorem reg_divFree (s : State) (a b : Int) (r : Nat) : (s.divFree a b).2.reg r = s.reg r := by
  rw [State.divFree]; split <;> rfl

@[simp] theorem fld_divFree (s : State) (a b : Int) (f : Fld) : (s.divFree a b).2.fld f = s.fld f := fld_of_reg (reg_divFree s a b _)

@[simp] theorem divFree_ens (s : State) (a b : Int) : (s.divFree a b).2.ens = s.ens := by
  rw [State.divFree]; split <;> rfl

@[simp] theorem fld_free (s : State) (n : Nat) (f : Fld) : (s.free n).2.fld f = s.fld f := fld_of_regs rfl f

/-! ## The reads -/

theorem syscntLoRead_after {s : State} (h : s.domOn Dm.AON = true) : After (exec .syscntLoRead s) fun t => t.bus = word s.syscnt
    ∧ t.reg Adr.TIME_SYSCNT_HI = word (s.syscnt / 2 ^ 32) ∧ t.syscnt = s.syscnt ∧ Quiet (· = Adr.TIME_SYSCNT_HI) s t := by
  have hp : s.latchSys.pageOn timePage = true := (pageOn_congr (t := s.latchSys) rfl).trans h
  refine .next ⟨congrArg State.bus (answer_on hp _), ?_, rfl, answer_quiet ((Quiet.refl (· = Adr.TIME_SYSCNT_HI) s).setReg _ rfl) _ _⟩
  rw [reg_answer, State.latchSys, reg_setReg_same]

theorem tickcntLoRead_after {s : State} (h : s.domOn Dm.AON = true) : After (exec .tickcntLoRead s) fun t => t.bus = word s.tickcnt
    ∧ t.reg Adr.TIME_TICKCNT_HI = word (s.tickcnt / 2 ^ 32 % 2 ^ 16) ∧ t.reg Adr.TIME_TICK_SYSCNT_LO = word s.tickSys
    ∧ t.reg Adr.TIME_TICK_SYSCNT_HI = word (s.tickSys / 2 ^ 32) ∧ t.tickcnt = s.tickcnt
    ∧ Quiet (fun a => a = Adr.TIME_TICKCNT_HI ∨ a = Adr.TIME_TICK_SYSCNT_LO ∨ a = Adr.TIME_TICK_SYSCNT_HI) s t := by
  have hp : s.latchTick.pageOn timePage = true := (pageOn_congr (t := s.latchTick) rfl).trans h
  refine .next ⟨congrArg State.bus (answer_on hp _), ?_, ?_, ?_, rfl, answer_quiet ((((Quiet.refl _ s).setReg _ (.inl rfl)).setReg _
    (.inr (.inl rfl))).setReg _ (.inr (.inr rfl))) _ _⟩
  · rw [reg_answer, State.latchTick, reg_setReg_ne _ _ (by decide), reg_setReg_ne _ _ (by decide), reg_setReg_same]
  · rw [reg_answer, State.latchTick, reg_setReg_ne _ _ (by decide), reg_setReg_same]
  · rw [reg_answer, State.latchTick, reg_setReg_same]

/-! ## A member takes a frame -/

/-- Agreement concerns AGREE alone among the fields of STATUS, and leaves what waits for a frame. -/
theorem loseAgree_status (s : State) {f : Fld} (ha : f.addr = Adr.TIME_STATUS) (hf : 1 < f.lo) : s.loseAgree.fld f = s.fld f := by
  rw [State.loseAgree]
  split
  · rw [fld_raise _ _ _ (by rw [ha]; decide) (by rw [ha]; decide) (by rw [ha]; decide), fld_setFld_bits _ _ (by decide) (.inl hf)]
    exact fld_of_regs rfl f
  · exact fld_of_regs rfl f

theorem loseAgree_ens (s : State) : s.loseAgree.ens = { s.ens with run := 0 } := by
  rw [State.loseAgree]
  split
  · rw [raise_ens, setFld_ens]
  · rfl

theorem agreeOn_status (s : State) (e : Int) {f : Fld} (ha : f.addr = Adr.TIME_STATUS) (hf : 1 < f.lo) :
    (s.agreeOn e).fld f = s.fld f := by
  unfold State.agreeOn
  simp only []
  split
  · split
    · rw [fld_raise _ _ _ (by rw [ha]; decide) (by rw [ha]; decide) (by rw [ha]; decide), fld_setFld_bits _ _ (by decide) (.inl hf)]
      exact fld_of_regs rfl f
    · exact fld_of_regs rfl f
  · exact loseAgree_status s ha hf

theorem agreeOn_ens (s : State) (e : Int) : (s.agreeOn e).ens.join = s.ens.join ∧ (s.agreeOn e).ens.last = s.ens.last := by
  unfold State.agreeOn
  simp only []
  split
  · split
    · rw [raise_ens, setFld_ens]; exact ⟨rfl, rfl⟩
    · exact ⟨rfl, rfl⟩
  · rw [loseAgree_ens]; exact ⟨rfl, rfl⟩

/-- The error of a frame concerns ENS_STAT alone. -/
theorem setError_status (s : State) (e : Int) {f : Fld} (ha : f.addr = Adr.TIME_STATUS) : (s.setError e).fld f = s.fld f := by
  have hne : Fd.TIME_ENS_STAT_ERROR.addr ≠ f.addr := by rw [ha]; decide
  rw [State.setError]
  split
  · exact fld_setFld_addr _ _ hne
  · exact (fld_setFld_addr _ _ hne).trans (fld_free _ 65536 _)

theorem setError_ens (s : State) (e : Int) : (s.setError e).ens = s.ens := by
  rw [State.setError]
  split <;> rfl

theorem ensJoin_status (s : State) (lead : Int) : (s.ensJoin lead).flag Fd.TIME_STATUS_JOINED = true
    ∧ (s.ensJoin lead).flag Fd.TIME_STATUS_ENS_LOST = false ∧ (s.ensJoin lead).fld Fd.TIME_STATUS_HOP = s.fld Fd.TIME_STATUS_HOP := by
  unfold State.ensJoin
  refine ⟨?_, ?_, ?_⟩
  · rw [State.flag, fld_setFld_bits _ _ (by decide) (by decide), fld_setFld_same _ _ _ (by decide)]; decide
  · rw [State.flag, fld_setFld_same _ _ _ (by decide)]; decide
  · rw [fld_setFld_bits _ _ (by decide) (by decide), fld_setFld_bits _ _ (by decide) (by decide)]
    exact fld_divFree _ _ _ _

theorem ensJoin_ens (s : State) (lead : Int) : (s.ensJoin lead).ens = { s.ens with join := false, steer := 0 } := by
  unfold State.ensJoin
  rw [setFld_ens, setFld_ens, ← divFree_ens s lead 16]

theorem epochFrameReceive_join {f : BitVec 64} {d : Nat} {s : State} (hr : s.fld Fd.TIME_ENS_CTRL_ROLE = 2) (hv : s.vioUp = true)
    (hd : epochData f = some d) (hc : d % 8 < 2) (hf : s.coarse = false) (hj : s.ens.join = true ∨ d % 8 = 1) :
    After (exec (.epochFrameReceive f) s) fun t => t.flag Fd.TIME_STATUS_JOINED = true ∧ t.flag Fd.TIME_STATUS_ENS_LOST = false
      ∧ t.fld Fd.TIME_STATUS_HOP = d / 8 % 512 ∧ t.ens.join = false ∧ t.ens.last = some f := by
  let t := (s.withEns { s.ens with last := some f }).setFld Fd.TIME_STATUS_HOP (d / 8 % 512)
  let lead : Int := (d / 4096 * 2 ^ 20 + d / 8 % 512 * 64) * 16 + s.fld Fd.TIME_ENS_COMP_COMP
  let err : Int := (s.syscnt : Int) * 16 - lead
  have ex : exec (.epochFrameReceive f) s = .next (((t.setError err).ensJoin lead).agreeOn err) := by
    refine (next_pos ⟨hr, hv⟩).trans (next_eq ?_)
    unfold State.epochTake
    simp only [hd, Nat.not_le.2 hc, if_false]
    rw [if_neg (by rw [setFld_coarse]; simp [hf]), if_pos (by simpa using hj)]
    rfl
  obtain ⟨hJ, hL, hH⟩ := ensJoin_status (t.setError err) lead
  obtain ⟨hj', hl'⟩ := agreeOn_ens ((t.setError err).ensJoin lead) err
  refine .of_eq ex ⟨?_, ?_, ?_, ?_, ?_⟩
  · rw [State.flag, agreeOn_status _ _ rfl (by decide)]; exact hJ
  · rw [State.flag, agreeOn_status _ _ rfl (by decide)]; exact hL
  · rw [agreeOn_status _ _ rfl (by decide), hH, setError_status _ _ rfl, fld_setFld_same _ _ _ (by decide)]
    exact Nat.mod_eq_of_lt (Nat.mod_lt _ (by decide))
  · rw [hj', ensJoin_ens]
  · rw [hl', ensJoin_ens, setError_ens, setFld_ens, withEns_ens]

/-! ## A member loses its frames -/

theorem ensLost_after {s : State} (hr : s.fld Fd.TIME_ENS_CTRL_ROLE = 2) : After (exec .ensLost s) fun t =>
    t.flag Fd.TIME_STATUS_ENS_LOST = true ∧ t.flag Fd.TIME_STATUS_AGREE = false ∧ t.ens.join = true ∧ t.ens.steer = 0
      ∧ (s.flag Fd.TIME_STATUS_AGREE = true → t.evt timePage TimeEv.AGREE_LOST = true)
      ∧ Frame (fun a => a = Adr.TIME_STATUS ∨ StatusOf [timePage] a) s t := by
  refine .of_eq (next_pos hr) ?_
  generalize hu : ({ s with sysHold := 0, ens := { s.ens with join := true, steer := 0 } } : State) = u
  have hq : ∀ R, Frame R s u := fun R => hu ▸ (Frame.refl R s).congr rfl rfl rfl
  have hA : s.fld Fd.TIME_STATUS_AGREE = u.fld Fd.TIME_STATUS_AGREE := hu ▸ rfl
  have hE : u.ens.join = true ∧ u.ens.steer = 0 := hu ▸ ⟨rfl, rfl⟩
  have hagree : u.loseAgree.flag Fd.TIME_STATUS_AGREE = false ∧ (u.flag Fd.TIME_STATUS_AGREE = true →
      u.loseAgree.evt timePage TimeEv.AGREE_LOST = true) ∧ Frame (fun a => a = Adr.TIME_STATUS ∨ StatusOf [timePage] a) u u.loseAgree := by
    rw [State.loseAgree]
    split
    · refine ⟨?_, fun _ => evt_raise _ _ (by decide), ?_⟩
      · rw [State.flag, fld_raise _ _ _ (by decide) (by decide) (by decide), fld_setFld_same _ _ _ (by decide)]; decide
      · exact .raise (.setFld (.withEns (.refl _ _) _) _ (.inl rfl)) _ fun _ h => .inr h
    · next h => exact ⟨eq_false_of_ne_true h, fun h' => absurd h' h, (Frame.refl _ u).congr rfl rfl rfl⟩
  obtain ⟨hAgree, hEvent, hFrame⟩ := hagree
  refine ⟨?_, ?_, ?_, ?_, ?_, (hq _).trans (hFrame.setFld _ (.inl rfl))⟩
  · rw [State.flag, fld_setFld_same _ _ _ (by decide)]; decide
  · rw [State.flag, fld_setFld_bits _ _ (by decide) (by decide)]; exact hAgree
  · rw [setFld_ens, loseAgree_ens]; exact hE.1
  · rw [setFld_ens, loseAgree_ens]; exact hE.2
  · intro h
    rw [State.evt, reg_setFld_ne _ _ _ (by decide)]
    exact hEvent (by rw [State.flag, ← hA]; exact h)

/-- Settles O3. -/
theorem timeCommands : Obligations.TimeCommands := by
  unfold Obligations.TimeCommands
  refine ⟨fun s h => syscntLoRead_after h, fun s h => tickcntLoRead_after h, fun s hc ht => ?exit, fun s hr hs => next_pos ⟨hr, hs⟩,
    fun f s hr hv hd => ?parity, fun f d s hr hv hd hc hf hj => epochFrameReceive_join hr hv hd hc hf hj, fun f s hr hp hl => ?again,
    fun s hr => ensLost_after hr, fun s hr => next_pos hr⟩
  case exit =>
    refine .of_eq (next_pos (by simp [hc, ht])) ⟨?_, evt_raise _ _ (by decide), raise_events _ _ _⟩
    rw [State.leaveCoarse, raise_coarse]
  case parity =>
    refine (next_pos ⟨hr, hv⟩).trans (next_eq ?_)
    rw [State.epochTake, hd]
  case again =>
    show execEpochFrameRepeat s = _
    rw [execEpochFrameRepeat, hl]
    exact next_pos ⟨hr, hp⟩

end Sys2Proof.Machine
end

section
/-!
PROOFS. The serial audio ports (03_serial_audio_ports.md): MUTE while a port starts, and the frames, deliveries and switches of its
lines.
-/
namespace Sys2Proof.Machine

/-- Port 26 STARTING, with an output line 0 that lives and whose first channel waits for its crossing. -/
def startingOutput : State :=
  ((awake.setSapState 26 .starting).setFld (Fd.SAP_LINE_D0_DIR 26) 2).updSap 26 fun p =>
    { p with lines := p.lines.set 0 { p.lines[0] with live := true }, chans := p.chans.set 0 { p.chans[0] with sw := .waitIn 0 } }

/-- MUTE = 1 ends the wait of that channel. -/
theorem muteWrite_startingOutput : ((startingOutput.muteWrite 26 1).saps[(26 : Fin 32)].chans[(0 : Fin 4)]).sw = .silent := by
  decide +kernel

theorem setFld_startingOutput : ((startingOutput.setFld (Fd.SAP_CTRL_MUTE 26) 1).saps[(26 : Fin 32)].chans[(0 : Fin 4)]).sw
    = .waitIn 0 := by decide +kernel

/-- Refutes O4: the clause on MUTE outside RUNNING leaves out STARTING, where a muted channel ceases to wait for its start switch. -/
theorem not_portControlCommands : ¬ Obligations.PortControlCommands := by
  unfold Obligations.PortControlCommands
  rintro ⟨-, -, -, -, mute, -, -, -, -⟩
  have hp : startingOutput.pageTakes (sapPage (26 : Fin 32)) = true := by decide +kernel
  have e : startingOutput.muteWrite 26 1 = startingOutput.setFld (Fd.SAP_CTRL_MUTE 26) 1 :=
    Host.Outcome.next.inj ((next_pos hp).symm.trans (mute 26 1 startingOutput hp (by decide +kernel)))
  have hsw := muteWrite_startingOutput
  rw [e, setFld_startingOutput] at hsw
  cases hsw

/-! ## Frames, deliveries and switches (O5) -/

section Stream
variable {n : Fin 32} {s : State}

theorem sapFrameReceived_running {f : RxFrame} (hd : s.domOn (Dm.PORTG (n.val / 8)) = true) (hh : s.sapDeaf n = false)
    (hm : s.isMaster n = true) (ha : s.isAes n = false) (hr : s.sapState n = .running)
    (he : s.frameEarly n s.saps[n].lastRx = false) :
    exec (.sapFrameReceived n f) s = .next ((((s.updSap n fun p => { p with lastRx := s.ticks }).rxLine n 0 f).rxLine n 1
      f).updSap n fun p => { p with glitch := false }) := by
  refine next_eq ?_
  have hm' : (s.updSap n fun p => { p with lastRx := s.ticks }).isMaster n = true := hm
  have ha' : (s.updSap n fun p => { p with lastRx := s.ticks }).isAes n = false := ha
  simp only [State.frameReceived, hd, hh, hm, ha, hr, he, State.rxFrame, hm', ha', Bool.not_true, Bool.not_false, Bool.or_self,
    Bool.or_true, Bool.and_self, Bool.and_false, Bool.false_and, Bool.or_false, Bool.false_eq_true, if_false, if_true]

theorem sapFrameReceived_early {f : RxFrame} (hm : s.isMaster n = true)
    (ha : s.isAes n = false) (he : s.frameEarly n s.saps[n].lastRx = true) (hh : s.sapDeaf n = false) :
    exec (.sapFrameReceived n f) s = .next s := by
  refine next_eq ?_
  simp only [State.frameReceived, hh, hm, ha, he, Bool.not_true, Bool.not_false, Bool.or_self, Bool.or_true,
    Bool.false_and, Bool.or_false, Bool.false_eq_true, if_false, if_true]
  split
  · rfl
  · split <;> rfl

theorem rxLine_noClock {f : RxFrame} {k : Fin 2} (hd : s.dir n k = 1) (hp : s.domOn Dm.PLL = true)
    (hc : s.rxClock n = false) :
    s.rxLine n k f = s.updLine n k fun q => { q with fin := q.fin + 1, dropped := q.dropped + 1 } := by
  unfold State.rxLine
  rw [if_neg (by simp [hd, hp]), if_pos (by simp [hc])]

theorem sapFrameTransmit_running (hd : s.domOn (Dm.PORTG (n.val / 8)) = true) (hm : s.isMaster n = true ∨ s.sapDeaf n = false)
    (hr : s.sapState n = .running) (he : s.frameEarly n s.saps[n].lastTx = false) :
    exec (.sapFrameTransmit n) s = .next (((s.updSap n fun p => { p with lastTx := s.ticks }).txLine n 0).txLine n 1) := by
  have hg : (!s.domOn (Dm.PORTG (n.val / 8)) || (s.sapDeaf n && !s.isMaster n)) = false := by
    rcases hm with h | h <;> simp only [hd, h, Bool.not_true, Bool.and_false, Bool.false_and, Bool.or_self]
  refine next_eq ?_
  simp only [State.frameTransmit, hg, hr, he, Bool.false_eq_true, if_false]

/-- An output line that holds one block starts to deliver, and the first of a STARTING port makes it RUNNING. -/
theorem deliverLine_output {k : Fin 2} (hd : s.dir n k = 2) (hl : (s.line n k).live = true) (hn : (s.line n k).delivering = false)
    (hb : s.blockFrames n ≤ (s.line n k).fill) (hs : s.sapState n = .starting) :
    (s.deliverLine n k).sapState n = .running ∧ (s.deliverLine n k).evt (sapPage n) SapEv.STARTED = true
      ∧ ((s.deliverLine n k).line n k).delivering = true := by
  have hs' : (s.updLine n k fun q => { q with delivering := true, partialFrames := 0 }).sapState n = .starting := hs
  have e : s.deliverLine n k = ((s.updLine n k fun q => { q with delivering := true, partialFrames := 0 }).setSapState n
      .running).raise (sapPage n) SapEv.STARTED := by
    unfold State.deliverLine
    rw [if_neg (by rw [hl, hn]; decide), if_neg (by simp [hd]), if_pos ⟨hd, hb⟩]
    simp only [hs', beq_self_eq_true, if_true]
  rw [e]
  refine ⟨?_, evt_raise _ _ (by decide), ?_⟩
  · rw [State.sapState, fld_raise _ _ _ (by grind) (by grind) (by grind), State.setSapState, fld_setFld_same _ _ _ (by simp)]
    rfl
  · rw [State.line, raise_saps, State.setSapState, setFld_saps, State.updLine, updSap_saps_same]
    simp

end Stream

/-- Settles O5. -/
theorem portStreamCommands : Obligations.PortStreamCommands := by
  unfold Obligations.PortStreamCommands
  refine ⟨fun n f s hd hh hm ha hr he => sapFrameReceived_running hd hh hm ha hr he,
    fun n f s _ hm ha he hh => sapFrameReceived_early hm ha he hh, fun n f k s hd hp _ hc => rxLine_noClock hd hp hc,
    fun n s hd hm hr he => sapFrameTransmit_running hd hm hr he, fun n s hs => next_eq (by rw [hs]),
    fun n k s hd hl hn hb hs => deliverLine_output hd hl hn hb hs, fun n ch w s hw ht => next_eq ?_, fun n ch w s hw ht => next_eq ?_,
    fun n ch s hw => next_eq (by rw [hw]; rfl), fun n ch s hw => next_eq (by rw [hw]; rfl)⟩
  all_goals simp only [hw]; exact if_pos ht

end Sys2Proof.Machine
end

section
/-!
PROOFS. AES3 lock, channel status and its swap (04_aes3_ports.md R93, R98, R99).
-/
namespace Sys2Proof.Machine

theorem aesLockTo_locks {s : State} {n : Fin 32} (h : s.fld (Fd.SAP_AES_RX_STAT_LOCK n) ≠ 2) :
    s.aesLockTo n 2 = ((s.setFld (Fd.SAP_AES_RX_STAT_LOCK n) 2).monEdge (Fin.ofNat 43 (35 + n.val - 24))).raiseAes (sapPage n)
      aesLocked := by
  unfold State.aesLockTo
  rw [if_neg (fun c => h c.1), if_pos ⟨h, rfl⟩]

theorem aesLockTo_unlocks {s : State} {n : Fin 32} {code : Nat} (h : s.fld (Fd.SAP_AES_RX_STAT_LOCK n) = 2) (hc : code ≠ 2) :
    s.aesLockTo n code = (((s.setFld (Fd.SAP_AES_RX_STAT_LOCK n) code).setFld (Fd.SAP_AES_RX_STAT_CS_STALE n) 1).updAes n
      fun x => { x with rxPos := none }).raiseAes (sapPage n) aesUnlocked := by
  unfold State.aesLockTo
  rw [if_pos ⟨h, hc⟩]

theorem aesLockTo_between {s : State} {n : Fin 32} {code : Nat} (h : s.fld (Fd.SAP_AES_RX_STAT_LOCK n) ≠ 2) (hc : code ≠ 2) :
    s.aesLockTo n code = s.setFld (Fd.SAP_AES_RX_STAT_LOCK n) code := by
  unfold State.aesLockTo
  rw [if_neg (fun c => h c.1), if_neg (fun c => hc c.2)]

/-- The first frame of a block begins with a Z preamble. -/
theorem nextIsZ_first {s : State} {n : Fin 32} (h : s.saps[n].aes.txPos = 0) : s.nextIsZ n = true := by
  simp only [State.nextIsZ, h, decide_true, Bool.or_true, Bool.true_or]

theorem aesTxSwap_after {k : Fin 8} {s : State} (hp : s.pageTakes (sapPage (aesPort k)) = true) :
    After (exec (.aesTxSwap k) s) fun t => t.flag (Fd.SAP_AES_TX_CTRL_SWAP (aesPort k)) = true
      ∧ t.saps[aesPort k].aes.swapTick = some (s.saps[aesPort k].aes.swapTick.getD s.ticks)
      ∧ Quiet (· = Adr.SAP_AES_TX_CTRL (aesPort k)) s t := by
  refine .of_eq (next_pos hp) ⟨?_, ?_, ?_⟩
  · rw [State.flag, State.swapRequest, fld_updAes, fld_setFld_same _ _ _ (by simp)]
    rfl
  · rw [State.swapRequest, State.updAes, updSap_saps_same, setFld_saps]
  · exact ((Quiet.refl (· = Adr.SAP_AES_TX_CTRL (aesPort k)) s).setFld (f := Fd.SAP_AES_TX_CTRL_SWAP (aesPort k)) 1 rfl).congr rfl rfl
      rfl

/-- Settles O8. -/
theorem aesCommands : Obligations.AesCommands := by
  unfold Obligations.AesCommands
  refine ⟨fun k s hr hl => (next_pos hr).trans (next_eq (aesLockTo_locks hl)), fun k s hr hl => ?lost, fun k s hr hl => ?acquiring,
    fun k s hr hl => (next_pos hr).trans (next_eq (aesLockTo_between hl (by decide))), fun k s hp => ?read, fun k s => ?readB,
    fun k s hp => aesTxSwap_after hp, fun k w s hw ht ha hd hs hz => ?copy⟩
  case lost => exact (next_pos (by rw [hr, hl]; rfl)).trans (next_eq (aesLockTo_unlocks hl (by decide)))
  case acquiring => exact (next_pos (by rw [hr, hl]; rfl)).trans (next_eq (aesLockTo_between (by rw [hl]; decide) (by decide)))
  case read =>
    show execAesRxCsRead k false s = _
    simp only [execAesRxCsRead, hp, Bool.not_false, Bool.and_self, if_true, Bool.false_eq_true, if_false]
  case readB =>
    show execAesRxCsRead k true s = _
    simp only [execAesRxCsRead, Bool.not_true, Bool.and_false, Bool.false_eq_true, if_false, if_true]
  case copy =>
    show execAesCsSwapCopy k s = _
    simp only [execAesCsSwapCopy, hw]
    exact next_pos (by rw [ha, hd, hs, nextIsZ_first hz]; simpa using ht)

end Sys2Proof.Machine
end

section
/-!
PROOFS. Alignment groups and rate converters (05_alignment_and_rate_conversion.md R106–R118, R124–R126).
-/
namespace Sys2Proof.Machine

/-! ## Registers of a page -/

theorem OfPages.of_page {ps : List Nat} {p a : Nat} (hp : p ∈ ps) (h : pageAddr p 0 ≤ a ∧ a < pageAddr p 0x1000) : OfPages ps a :=
  .inl ⟨p, hp, h⟩

theorem OfPages.of_status {ps : List Nat} {p a : Nat} (hp : p ∈ ps) (h : StatusOf [p] a) : OfPages ps a := by
  obtain ⟨q, hq, rfl⟩ | h := h
  · obtain rfl := List.mem_singleton.1 hq
    exact .of_page hp (by grind)
  · exact .inr h

/-- A part of the state that each step of a fold leaves is left by the fold. -/
theorem foldl_same {α β : Type} (p : State → β) {f : State → α → State} (h : ∀ t x, p (f t x) = p t) (l : List α) (s : State) :
    p (l.foldl f s) = p s := by
  induction l generalizing s with
  | nil => rfl
  | cons x l ih => exact (ih _).trans (h s x)

theorem Quiet.foldl {α : Type} {R : Nat → Prop} {f : State → α → State} (h : ∀ t x, Quiet R t (f t x)) (l : List α) (s : State) :
    Quiet R s (l.foldl f s) := by
  induction l generalizing s with
  | nil => exact .refl R s
  | cons x l ih => exact (h s x).trans (ih _)

/-! ## Updates of a port or a converter write no register -/

theorem Quiet.updSap {R : Nat → Prop} {s t : State} (h : Quiet R s t) (n : Fin 32) (f : Sap → Sap) : Quiet R s (t.updSap n f) :=
  h.congr rfl rfl rfl

theorem Frame.updSap {R : Nat → Prop} {s t : State} (h : Frame R s t) (n : Fin 32) (f : Sap → Sap) : Frame R s (t.updSap n f) :=
  h.congr rfl rfl rfl

theorem Quiet.updAsrc {R : Nat → Prop} {s t : State} (h : Quiet R s t) (i : Nat) (f : Asrc → Asrc) : Quiet R s (t.updAsrc i f) :=
  h.congr rfl rfl rfl

theorem Frame.updAsrc {R : Nat → Prop} {s t : State} (h : Frame R s t) (i : Nat) (f : Asrc → Asrc) : Frame R s (t.updAsrc i f) :=
  h.congr rfl rfl rfl

/-! ## Lines and channels of a port -/

theorem line_updLine_same (s : State) (n : Fin 32) (k : Fin 2) (f : SapLine → SapLine) : (s.updLine n k f).line n k = f (s.line n k) := by
  rw [State.line, State.updLine, updSap_saps_same]
  simp

theorem line_updChan (s : State) (n : Fin 32) (c : Fin 4) (f : SapChan → SapChan) (k : Fin 2) :
    (s.updChan n c f).line n k = s.line n k := by
  rw [State.line, State.updChan, updSap_saps_same]

/-- What a port shows of its switches concerns its STATE register, its channels' record and its events. -/
theorem syncZc_frame {R : Nat → Prop} {u s : State} (h : Frame R u s) (n : Fin 32) (h1 : R (Adr.SAP_STATE n))
    (h2 : ∀ a, StatusOf [sapPage n] a → R a) : Frame R u (s.syncZc n) := by
  unfold State.syncZc
  simp only []
  split
  · exact .raise (.updSap (.setFld (.setFld h _ h1) _ h1) _ _) _ h2
  · exact .setFld (.setFld h _ h1) _ h1

theorem syncZc_line (s : State) (n : Fin 32) (k : Fin 2) : (s.syncZc n).line n k = s.line n k := by
  unfold State.syncZc
  simp only []
  split
  · rw [State.line, raise_saps, updSap_saps_same, setFld_saps, setFld_saps]
  · rw [State.line, setFld_saps, setFld_saps]

theorem askIn_line (s : State) (n : Fin 32) (k j : Fin 2) : (s.askIn n k).line n j = s.line n j := by
  refine foldl_same (fun t => t.line n j) (fun t b => ?_) _ s
  split
  · rfl
  · exact line_updChan _ _ _ _ _

theorem askIn_quiet (R : Nat → Prop) (s : State) (n : Fin 32) (k : Fin 2) : Quiet R s (s.askIn n k) := by
  refine Quiet.foldl (fun t b => ?_) _ s
  split
  · exact .refl R t
  · exact .same rfl rfl rfl

theorem Frame.raiseGrp {R : Nat → Prop} {s t : State} (h : Frame R s t) (g b : Nat)
    (hR : ∀ a, a = (EvtReg.grp g).statusAddr 0x004 ∨ RingRegs a → R a) : Frame R s (t.raiseGrp g b) :=
  h.trans (raiseGrp_frame t g b hR)

/-! ## Groups and members -/

/-- The event of a group sets its bit. -/
theorem evt_raiseGrp (s : State) (g : Fin 8) {b : Nat} (hb : b < 32) :
    bitOf ((s.raiseGrp g b).reg (Adr.TIME_GRP_EVT_STATUS g)).toNat b = true := by
  have h := raiseFuel_bit 3 0x004 (.grp g) b s.tickcnt false s hb
  rwa [show (EvtReg.grp g).statusAddr 0x004 = Adr.TIME_GRP_EVT_STATUS g by grind [EvtReg.statusAddr]] at h

theorem grpConfigWrite_held {g : Fin 8} {r : GrpReg} {v : Word} {s : State} (hr : r ≠ .ctrl)
    (hm : (s.hold (grpRegAddr g r) v.toNat).grpMayApply g = false) :
    exec (.grpConfigWrite g r v) s = .next { s with cfgPend := s.cfgPend ++ [(grpRegAddr g r, v.toNat)] } := by
  have hc : (r == GrpReg.ctrl) = false := beq_eq_false_iff_ne.2 hr
  refine next_eq ?_
  rw [if_neg (by rw [State.grpShort, hc, Bool.false_and, Bool.false_and, Bool.false_and]; decide), State.grpWrite]
  simp only [hc, Bool.false_and, Bool.false_eq_true, if_false, State.grpApply, hm, Bool.and_false]
  rfl

theorem memberDeliveryStart_after {n : Fin 32} {k : Fin 2} {g : Fin 8} {s : State} (hg : s.groupOf n k = some g)
    (hq : s.grps[g].silent = false) (hd : s.dir n k = 1) (hr : s.sapState n = .running) (hl : (s.line n k).live = true)
    (ha : (s.line n k).anchored = true) (hn : (s.line n k).delivering = false) (hdue : s.anchorDue g n k = true)
    (hc : s.cushOn g n k = true) :
    After (exec (.memberDeliveryStart n k) s) fun t => (t.line n k).delivering = true ∧ (t.line n k).nextPos = 0
      ∧ (t.line n k).anchorTick = s.ticks + 1 ∧ Frame (OfPages [sapPage n]) s t := by
  have e : s.memberStart n k = ((s.updLine n k fun q =>
      { q with delivering := true, nextPos := 0, anchorTick := s.ticks + 1 }).askIn n k).syncZc n := by
    unfold State.memberStart
    simp only [hg]
    rw [if_pos ⟨hd, by rw [hr]; rfl, hl, ha, by rw [hn]; rfl, hc, hdue⟩]
    simp only [hq, Bool.false_eq_true, if_false]
  refine .of_eq (next_eq e) ?_
  rw [syncZc_line, askIn_line, line_updLine_same]
  refine ⟨rfl, rfl, rfl, syncZc_frame ?_ n (.of_page (p := sapPage n) (by simp) (by grind))
    fun a h => .of_status (by simp) h⟩
  exact (Frame.updSap (.refl _ s) n _).trans (askIn_quiet _ _ n k).frame

theorem snowploughSilent_group {n : Fin 32} {k : Fin 2} {g : Fin 8} {s : State} (hs : (s.line n k).snow = .fade 0)
    (hd : s.dir n k = 1) (hg : s.groupOf n k = some g) :
    After (exec (.snowploughSilent n k) s) fun t => (t.line n k).snow = .silent
      ∧ bitOf (t.reg (Adr.TIME_GRP_EVT_STATUS g)).toNat GrpEv.SILENT = true ∧ Frame (OfPages [sapPage n, timePage]) s t := by
  have e : s.snowSilent n k = ((((s.updLine n k fun q => { q with snow := .silent }).updChan n (chanNo k 0)
      SapChan.complete).updChan n (chanNo k 1) SapChan.complete).syncZc n).raiseGrp g GrpEv.SILENT := by
    unfold State.snowSilent
    rw [if_pos hs, if_pos hd]
    simp only [hg]
  refine .of_eq (next_eq e) ⟨?_, evt_raiseGrp _ g (by decide), ?_⟩
  · rw [State.line, raiseGrp_saps, ← State.line, syncZc_line, line_updChan, line_updChan, line_updLine_same]
  · refine .raiseGrp (syncZc_frame (.updSap (.updSap (.updSap (.refl _ s) n _) n _) n _) n ?_ fun a h => ?_) _ _ fun a h => ?_
    · exact .of_page (p := sapPage n) (by simp) (by grind)
    · exact .of_status (p := sapPage n) (by simp) h
    · obtain rfl | h := h
      · exact .of_page (p := timePage) (by simp) (by grind [EvtReg.statusAddr])
      · exact .inr h

theorem dropPassed_none {s : State} {n : Fin 32} {k : Fin 2} (h : (s.line n k).nextPos ≤ s.headPos n k) (j : Nat) :
    s.dropPassed n k j = s := by
  cases j with
  | zero => rfl
  | succ j =>
    unfold State.dropPassed
    simp only []
    rw [if_neg fun c => absurd c.2 (Int.not_lt.2 h)]

/-- Settles O9. -/
theorem groupCommands : Obligations.GroupCommands := by
  unfold Obligations.GroupCommands
  refine ⟨fun g r v s h => next_neg (by rw [h]; decide), fun g r v s hr hm => grpConfigWrite_held hr hm,
    fun n k g s hg hq hd hr hl ha hn hdue hc => memberDeliveryStart_after hg hq hd hr hl ha hn hdue hc,
    fun n k s hd hl => next_pos ⟨hd, hl⟩, fun n k s hs hd => next_eq ?_, fun n k g s hs hd hg => snowploughSilent_group hs hd hg,
    fun n k s hc hg hm => next_eq ?_, fun n k s hc hg hm hp => next_eq ?_, fun n k s h => next_pos h⟩
  · unfold State.snowSilent
    rw [if_pos hs, if_neg hd]
  · simp only [State.rejoin, hc, hg, State.rejoinLine, hm, Bool.not_true, Bool.false_eq_true, if_false, if_true]
  · simp only [State.rejoin, hc, hg, State.rejoinLine, hm, dropPassed_none hp, Bool.not_true, Bool.false_eq_true, if_false]
    rfl

/-! ## A converter enters a state -/

section Asrc
variable (s : State) (i : Fin 64)

/-- The registers that a converter enters a state in: its STAT and its bit of LOCKED. -/
def State.asrcShows (st : AsrcState) : State :=
  let s1 := (s.setFld (Fd.ASRC_CH_STAT_STATE i) st.code).setBit (Fd.ASRC_LOCKED_MASK (i.val / 32)) (i.val % 32) (st == .locked)
  s1.setFld (Fd.ASRC_CH_STAT_RATE i) (if st == .off then 0x1F else s1.asrcNominal i)

theorem asrcShows_quiet (st : AsrcState) : Quiet (fun a => a = Adr.ASRC_CH_STAT i ∨ a = Adr.ASRC_LOCKED (i.val / 32)) s
    (s.asrcShows i st) := .setFld (.setFld (.setFld (.refl _ s) _ (.inl rfl)) _ (.inr rfl)) _ (.inl rfl)

theorem asrcShows_asrcs (st : AsrcState) : (s.asrcShows i st).asrcs = s.asrcs := by
  rw [State.asrcShows, setFld_asrcs, State.setBit, setFld_asrcs, setFld_asrcs]

theorem asrcState_asrcShows (st : AsrcState) : (s.asrcShows i st).asrcState i = st := by
  rw [State.asrcState, State.asrcShows, fld_setFld_bits _ _ (by simp) (by simp), State.setBit, fld_setFld_addr _ _ (by grind),
    fld_setFld_same _ _ _ (by simp)]
  cases st <;> rfl

omit s i in
/-- The nominal rate of a port side hangs on CFG, the page of the port and its monitor. -/
theorem asrcNominal_of_regs {s t : State} (j : Nat) (hc : t.reg (Adr.ASRC_CH_CFG j) = s.reg (Adr.ASRC_CH_CFG j))
    (h : ∀ a, (a < 0x40013000 ∨ 0x40014000 ≤ a) → t.reg a = s.reg a) : t.asrcNominal j = s.asrcNominal j := by
  have hf : ∀ f : Fld, (f.addr < 0x40013000 ∨ 0x40014000 ≤ f.addr) → t.fld f = s.fld f := fun f hf => fld_of_reg (h _ hf)
  have hp : t.asrcPort j = s.asrcPort j := by rw [State.asrcPort, State.asrcPort, fld_of_reg hc]
  have hl : t.asrcLine j = s.asrcLine j := by rw [State.asrcLine, State.asrcLine, fld_of_reg hc]
  have ha : ∀ n : Fin 32, t.isAes n = s.isAes n := fun n => by rw [State.isAes, hf _ (by grind)]
  have hm : ∀ n : Fin 32, t.lineMon n = s.lineMon n := fun n => by rw [State.lineMon, State.lineMon, ha]
  have hlt : ∀ n : Fin 32, s.lineMon n < 43 := fun n => by rw [State.lineMon]; split <;> omega
  have hfol : ∀ (n : Fin 32) (k : Fin 2), t.lineFollows n k = s.lineFollows n k := fun n k => by
    rw [State.lineFollows, State.lineFollows, ha, State.isMaster, State.isMaster, State.flag, State.flag, hf _ (by grind)]
  have hst := hlt (s.asrcPort j)
  simp only [State.asrcNominal, hp, hl, hm, hfol]
  rw [hf (Fd.CLK_MON_STAT_STATE (s.lineMon (s.asrcPort j))) (by grind), hf (Fd.CLK_MON_STAT_NOMINAL _) (by grind),
    hf (Fd.SAP_CLKCFG_RATE (s.asrcPort j)) (by grind)]

theorem asrcEnter_off : s.asrcEnter i .off = s.asrcShows i .off := by
  unfold State.asrcEnter State.asrcShows
  rfl

variable {s i} in
theorem asrcEnter_locked {u : State} (h : s.asrcShows i .locked = u) :
    s.asrcEnter i .locked = ((u.setFld (Fd.ASRC_CH_RATIO_RATIO i) (u.asrcRatio i)).updAsrc i fun q =>
      { q with glide := (Glide.at .mute).aim (.db 0 1) (s.fld Fd.ASRC_GLIDE_IN_TICKS) }).raise asrcPage 0 := by
  unfold State.asrcEnter
  unfold State.asrcShows at h
  dsimp only at h ⊢
  rw [h]

/-- What a converter keeps of registers and of its record when it enters a state in which it does not sound. -/
structure AsrcEntered (st : AsrcState) (t : State) : Prop where
  state : t.asrcState i = st
  asrcs : t.asrcs = s.asrcs
  cfg : ∀ j, t.reg (Adr.ASRC_CH_CFG j) = s.reg (Adr.ASRC_CH_CFG j)
  frame : Frame (OfPages [asrcPage]) s t

theorem asrcShows_entered (st : AsrcState) : AsrcEntered s i st (s.asrcShows i st) where
  state := asrcState_asrcShows s i st
  asrcs := asrcShows_asrcs s i st
  cfg := fun j => (asrcShows_quiet s i st).regs _ (by grind)
  frame := (asrcShows_quiet s i st).frame.mono fun a ha => .of_page (p := asrcPage) (by simp) (by grind)

variable {s i} in
theorem AsrcEntered.countSat {st : AsrcState} {t : State} (h : AsrcEntered s i st t) :
    AsrcEntered s i st (t.countSat (Fd.ASRC_CH_CNT_RELOCK i) 1) where
  state := by rw [State.asrcState, fld_countSat_ne _ _ (by grind)]; exact h.state
  asrcs := by rw [State.countSat, setFld_asrcs]; exact h.asrcs
  cfg := fun j => by rw [reg_countSat_ne _ _ _ (by grind)]; exact h.cfg j
  frame := h.frame.countSat 1 (.of_page (p := asrcPage) (by simp) (by grind))

variable {s i} in
theorem AsrcEntered.raise {st : AsrcState} {t : State} (h : AsrcEntered s i st t) (b : Nat) :
    AsrcEntered s i st (t.raise asrcPage b) where
  state := by rw [State.asrcState, fld_raise _ _ _ (by grind) (by grind) (by grind)]; exact h.state
  asrcs := (raise_asrcs _ _ _).trans h.asrcs
  cfg := fun j => by rw [reg_raise _ _ _ (by grind) (by grind) (by grind)]; exact h.cfg j
  frame := h.frame.raise b fun a ha => .of_status (by simp) ha

/-- A check of R124 ends in one of three states. -/
theorem asrcCheck_cases (j : Nat) : s.asrcCheck j = .acquiring ∨ s.asrcCheck j = .outOfRange ∨ s.asrcCheck j = .invalid := by
  unfold State.asrcCheck
  simp only []
  split
  · exact .inr (.inr rfl)
  · split
    · exact .inr (.inl rfl)
    · exact .inl rfl

theorem asrcEnter_check {st : AsrcState} (h : st = .acquiring ∨ st = .outOfRange ∨ st = .invalid) :
    AsrcEntered s i st (s.asrcEnter i st) := by
  have h0 := asrcShows_entered s i st
  generalize hu : s.asrcShows i st = u at h0
  unfold State.asrcShows at hu
  obtain rfl | rfl | rfl := h
  all_goals
    unfold State.asrcEnter
    dsimp only at hu ⊢
    rw [hu]
    split
  · exact h0.countSat.raise 1
  · exact h0
  · exact h0
  · exact h0.raise 2
  · exact h0
  · exact h0.raise 2

end Asrc

/-- No other enabled converter shares the estimate of `i`. -/
def State.asrcAlone (s : State) (i : Nat) : Prop := ∀ j < 64, j ≠ i → (s.asrcOn j && s.asrcPort j == s.asrcPort i
  && s.asrcLine j == s.asrcLine i && s.asrcDir j == s.asrcDir i) = false

theorem asrcShare_alone {s : State} {i : Nat} (h : s.asrcAlone i) : s.asrcShare i = s := by
  have hm : (s.asrcMates i).filter (· != i) = [] := by
    rw [List.filter_eq_nil_iff]
    intro j hj
    rw [State.asrcMates, List.mem_filter, List.mem_range] at hj
    by_contra hne
    rw [h j hj.1 (by simpa using hne)] at hj
    exact absurd hj.2 (by decide)
  unfold State.asrcShare
  simp only [hm, List.any_nil, Bool.false_eq_true, if_false, ite_self]

theorem asrcEnable_after {i : Fin 64} {s : State} (hp : s.pageTakes asrcPage = true) (ho : s.asrcOn i.val = false)
    (hm : s.asrcMates i.val = []) :
    After (exec (.asrcEnable i) s) fun t => t.asrcOn i.val = true
      ∧ (t.asrcState i.val = .acquiring ∨ t.asrcState i.val = .outOfRange ∨ t.asrcState i.val = .invalid)
      ∧ t.asrcs[i].glide = Glide.at .mute ∧ t.asrcs[i].stopping = false ∧ Frame (OfPages [asrcPage]) s t := by
  refine .of_eq (next_pos (by rw [hp, ho]; rfl)) ?_
  unfold State.asrcEnable
  dsimp only
  generalize hq : ((fun q => { q with
    stopping := false, glide := Glide.at .mute, hist := [], outward := s.asrcDir i == 1,
    node := 4 * (s.asrcPort i).val + 2 * (s.asrcLine i).val + s.asrcChan i }) : Asrc → Asrc) = f
  have hf : ∀ q, (f q).stopping = false ∧ (f q).glide = Glide.at .mute := fun q => hq ▸ ⟨rfl, rfl⟩
  generalize hu : (s.setFld (Fd.ASRC_CH_CFG_ENABLE i) 1).updAsrc i f = u
  have hcase := asrcCheck_cases u i
  have he := asrcEnter_check u i hcase
  generalize u.asrcCheck i = st at *
  generalize u.asrcEnter i st = v at *
  have hcfg : ∀ j, j ≠ i.val → u.reg (Adr.ASRC_CH_CFG j) = s.reg (Adr.ASRC_CH_CFG j) := fun j hj => by
    rw [← hu, reg_updAsrc, reg_setFld_ne _ _ _ (by grind)]
  have hbits : ∀ g : Fld, g.addr = Adr.ASRC_CH_CFG i → 0 < g.lo → u.fld g = s.fld g := fun g hg hlo => by
    rw [← hu, fld_updAsrc, fld_setFld_bits _ _ (by simp) (.inl hlo)]
  have hon : u.asrcOn i = true := by
    rw [← hu, State.asrcOn, State.flag, fld_updAsrc, fld_setFld_same _ _ _ (by simp)]; rfl
  have hasrcs : u.asrcs[i] = f s.asrcs[i] := by
    rw [← hu, State.updAsrc]
    simp -implicitDefEqProofs
  have hframe : Frame (OfPages [asrcPage]) s u := hu ▸ ((Frame.refl _ s).setFld 1 (.of_page (p := asrcPage) (by simp)
    (by grind))).updAsrc _ _
  have halone : v.asrcAlone i := by
    intro j hj hne
    have hnone : j ∉ s.asrcMates i := by rw [hm]; exact List.not_mem_nil
    rw [State.asrcMates, List.mem_filter, List.mem_range] at hnone
    have hs := Bool.eq_false_iff.2 fun c => hnone ⟨hj, c⟩
    have hvj : ∀ g : Fld, g.addr = Adr.ASRC_CH_CFG j → v.fld g = s.fld g := fun g hg =>
      fld_of_reg (by rw [hg, he.cfg j, hcfg j hne])
    have hvi : ∀ g : Fld, g.addr = Adr.ASRC_CH_CFG i → 0 < g.lo → v.fld g = s.fld g := fun g hg hlo => by
      rw [← hbits g hg hlo]; exact fld_of_reg (by rw [hg, he.cfg])
    rw [← hs]
    simp only [State.asrcOn, State.flag, State.asrcPort, State.asrcLine, State.asrcDir, hvj (Fd.ASRC_CH_CFG_ENABLE j) rfl,
      hvj (Fd.ASRC_CH_CFG_PORT j) rfl, hvj (Fd.ASRC_CH_CFG_LINE j) rfl, hvj (Fd.ASRC_CH_CFG_DIR j) rfl,
      hvi (Fd.ASRC_CH_CFG_PORT i) rfl (by simp), hvi (Fd.ASRC_CH_CFG_LINE i) rfl (by simp), hvi (Fd.ASRC_CH_CFG_DIR i) rfl (by simp)]
  rw [asrcShare_alone halone]
  refine ⟨?_, ?_, ?_, ?_, hframe.trans he.frame⟩
  · rw [State.asrcOn, State.flag, fld_of_reg (he.cfg i)]; exact hon
  · rw [he.state]; exact hcase
  · rw [he.asrcs, hasrcs]; exact (hf _).2
  · rw [he.asrcs, hasrcs]; exact (hf _).1

/-- Applying the held writes of one register touches that register alone, and leaves none held. -/
theorem applyHeld_one (s : State) (a : Nat) : (s.applyHeld (· == a)).holds (· == a) = false ∧ (s.applyHeld (· == a)).asrcs = s.asrcs
    ∧ Quiet (· = a) s (s.applyHeld (· == a)) := by
  unfold State.applyHeld
  generalize hl : (s.cfgPend.filter fun e => e.1 == a) = l
  have hla : ∀ e ∈ l, e.1 = a := fun e he => by
    rw [← hl, List.mem_filter] at he
    exact beq_iff_eq.1 he.2
  generalize hu : ({ s with cfgPend := s.cfgPend.filter fun e => !(e.1 == a) } : State) = u
  have h0 : u.holds (· == a) = false ∧ u.asrcs = s.asrcs ∧ Quiet (· = a) s u := by
    refine ⟨?_, hu ▸ rfl, hu ▸ .same rfl rfl rfl⟩
    rw [State.holds, ← hu, List.any_filter]
    exact List.any_eq_false.2 fun e _ => by simp
  clear hu hl
  induction l generalizing u with
  | nil => exact h0
  | cons e l ih =>
    obtain ⟨h1, h2, h3⟩ := h0
    refine ih (fun e he => hla e (List.mem_cons_of_mem _ he)) (u.store e.1 e.2) ⟨h1, h2, ?_⟩
    exact h3.setReg _ (hla e List.mem_cons_self)

theorem asrcDisable_after {i : Fin 64} {s : State} (hp : s.pageTakes asrcPage = true) (ho : s.asrcOn i.val = true) :
    After (exec (.asrcDisable i) s) fun t => t.asrcOn i.val = false ∧ t.asrcs[i].stopping = true
      ∧ t.asrcs[i].glide = s.asrcs[i].glide.aim .mute (s.fld Fd.ASRC_GLIDE_IN_TICKS)
      ∧ t.holds (· == Adr.ASRC_CH_CFG i) = false ∧ Quiet (OfPages [asrcPage]) s t := by
  refine .of_eq (next_pos (by rw [hp, ho]; rfl)) ?_
  unfold State.asrcDisable
  dsimp only
  generalize hq : ((fun q => { q with
    stopping := true, glide := q.glide.aim .mute (s.fld Fd.ASRC_GLIDE_IN_TICKS) }) : Asrc → Asrc) = f
  have hf : ∀ q, (f q).stopping = true ∧ (f q).glide = q.glide.aim .mute (s.fld Fd.ASRC_GLIDE_IN_TICKS) := fun q => hq ▸ ⟨rfl, rfl⟩
  obtain ⟨hcfg, hasrcs, hquiet⟩ := applyHeld_one (s.updAsrc i f) (Adr.ASRC_CH_CFG i)
  generalize (s.updAsrc i f).applyHeld (· == Adr.ASRC_CH_CFG i) = u at *
  have ha : u.asrcs[i] = f s.asrcs[i] := by
    rw [hasrcs, State.updAsrc]
    simp -implicitDefEqProofs
  refine ⟨?_, ?_, ?_, ?_, ?_⟩
  · rw [State.asrcOn, State.flag, fld_setFld_same _ _ _ (by simp)]; rfl
  · rw [setFld_asrcs, ha]; exact (hf _).1
  · rw [setFld_asrcs, ha]; exact (hf _).2
  · rw [State.holds, setFld_cfgPend]; exact hcfg
  · exact ((((Quiet.refl (· = Adr.ASRC_CH_CFG i) s).updAsrc i f).trans hquiet).setFld 0 rfl).mono fun a ha =>
      .of_page (p := asrcPage) (by simp) (by grind)

theorem asrcOff_after {i : Fin 64} {s : State} (hs : s.asrcs[i].stopping = true) (hl : s.asrcs[i].glide.left = 0) :
    After (exec (.asrcOff i) s) fun t => t.asrcState i.val = .off ∧ t.fld (Fd.ASRC_CH_STAT_RATE i) = 0x1F
      ∧ t.asrcs[i].stopping = false ∧ Quiet (OfPages [asrcPage]) s t := by
  refine .of_eq (next_pos (by rw [hs, hl]; rfl)) ?_
  rw [asrcEnter_off]
  refine ⟨?_, ?_, ?_, ?_⟩
  · rw [State.asrcState, fld_updAsrc]
    exact asrcState_asrcShows s i .off
  · rw [fld_updAsrc, State.asrcShows, fld_setFld_same _ _ _ (by simp)]
    rfl
  · rw [State.updAsrc]
    simp -implicitDefEqProofs
  · exact ((asrcShows_quiet s i .off).mono fun a ha => .of_page (p := asrcPage) (by simp) (by grind)).updAsrc _ _

theorem asrcLocked_after {i : Fin 64} {s : State} (ho : s.asrcOn i.val = true) (ha : s.asrcState i.val = .acquiring)
    (hm : s.asrcMates i.val = [i.val]) :
    After (exec (.asrcLocked i) s) fun t => t.asrcState i.val = .locked ∧ t.evt asrcPage 0 = true
      ∧ t.fld (Fd.ASRC_CH_STAT_RATE i) = s.asrcNominal i.val % 32
      ∧ t.asrcs[i].glide = (Glide.at .mute).aim (.db 0 1) (s.fld Fd.ASRC_GLIDE_IN_TICKS)
      ∧ Frame (OfPages [asrcPage]) s t := by
  have ex : exec (.asrcLocked i) s = .next (s.asrcEnter i .locked) := by
    refine (next_pos (by rw [ho, ha]; rfl)).trans (next_eq ?_)
    rw [hm, List.foldl_cons, List.foldl_nil, ha]
    exact if_pos rfl
  have h0 := asrcShows_entered s i .locked
  have hrate : (s.asrcShows i .locked).fld (Fd.ASRC_CH_STAT_RATE i) = s.asrcNominal i.val % 32 := by
    rw [State.asrcShows, fld_setFld_same _ _ _ (by simp), if_neg (by decide), asrcNominal_of_regs]
    · rfl
    · rw [State.setBit, reg_setFld_ne _ _ _ (by grind), reg_setFld_ne _ _ _ (by grind)]
    · intro a ha
      rw [State.setBit, reg_setFld_ne _ _ _ (by grind), reg_setFld_ne _ _ _ (by grind)]
  generalize hu : s.asrcShows i .locked = u at h0 hrate
  refine .of_eq ex ?_
  rw [asrcEnter_locked hu]
  refine ⟨?_, evt_raise _ _ (by decide), ?_, ?_, ?_⟩
  · rw [State.asrcState, fld_raise _ _ _ (by grind) (by grind) (by grind), fld_updAsrc, fld_setFld_addr _ _ (by grind)]
    exact h0.state
  · rw [fld_raise _ _ _ (by grind) (by grind) (by grind), fld_updAsrc, fld_setFld_addr _ _ (by grind)]
    exact hrate
  · rw [raise_asrcs, State.updAsrc]
    simp -implicitDefEqProofs
  · exact .raise (.updAsrc (.setFld h0.frame _ (.of_page (p := asrcPage) (by simp) (by grind))) _ _) _ fun a h => .of_status (by simp) h

/-- Settles O10. -/
theorem converterCommands : Obligations.ConverterCommands := by
  unfold Obligations.ConverterCommands
  refine ⟨fun i v s hp ho hb => (next_pos hp).trans (next_eq ?_), fun i v s hp ho hb => (next_pos hp).trans (next_eq ?_),
    fun i s hp ho hm => asrcEnable_after hp ho hm, fun i s hp ho => asrcDisable_after hp ho, fun i s hs hl => asrcOff_after hs hl,
    fun i s ho ha hm => asrcLocked_after ho ha hm⟩
  · rw [State.asrcWrite, if_pos ho, if_pos hb]
    rfl
  · rw [State.asrcWrite, if_neg (by rw [ho]; decide), if_neg (by rw [hb]; decide)]

end Sys2Proof.Machine
end

section
/-!
PROOFS. Microphone and line inputs (06_microphone_and_line_inputs.md): what an auto-mute leaves alone, and how a channel starts, stops
and changes its mode (R129, R132, R155).
-/
namespace Sys2Proof.Machine

/-- A field of another register, or of other bits, stays. -/
theorem fld_setFld_other (s : State) {f g : Fld} (v : Nat) (hf : f.lo ≤ f.hi ∧ f.hi < 32)
    (h : f.addr ≠ g.addr ∨ f.hi < g.lo ∨ g.hi < f.lo) : (s.setFld f v).fld g = s.fld g := by
  obtain h | h := h
  · exact fld_setFld_addr s v h
  · exact fld_setFld_bits s v hf h

/-! ## Updates of an input -/

theorem Quiet.updAin {R : Nat → Prop} {s t : State} (h : Quiet R s t) (n : Fin 16) (f : Ain → Ain) : Quiet R s (t.updAin n f) :=
  h.congr rfl rfl rfl

theorem Frame.updAin {R : Nat → Prop} {s t : State} (h : Frame R s t) (n : Fin 16) (f : Ain → Ain) : Frame R s (t.updAin n f) :=
  h.congr rfl rfl rfl

theorem ains_updAin_same (s : State) (n : Fin 16) (f : Ain → Ain) : (s.updAin n f).ains[n] = f s.ains[n] :=
  getElem_set_same s.ains n _

theorem ains_updAin_ne (s : State) {n m : Fin 16} (f : Ain → Ain) (h : n ≠ m) : (s.updAin n f).ains[m] = s.ains[m] :=
  getElem_set_ne s.ains _ h

/-! ## Auto-mutes (R139) -/

/-- An auto-mute of inputs moves their causes and fades alone: no state of a channel or its phantom, no gain and no pad. -/
structure Muting (s t : State) : Prop where
  state : ∀ m : Fin 16, t.ainState m = s.ainState m
  phantom : ∀ m : Fin 16, t.phState m = s.phState m
  ains : ∀ m : Fin 16, t.ains[m] = { s.ains[m] with causes := t.ains[m].causes, phase := t.ains[m].phase, level := t.ains[m].level }

theorem Muting.refl (s : State) : Muting s s := ⟨fun _ => rfl, fun _ => rfl, fun _ => rfl⟩

theorem Muting.trans {s t u : State} (h : Muting s t) (g : Muting t u) : Muting s u := by
  refine ⟨fun m => (g.state m).trans (h.state m), fun m => (g.phantom m).trans (h.phantom m), fun m => ?_⟩
  have h1 := h.ains m
  have h2 := g.ains m
  rw [h1] at h2
  exact h2

/-- A change of the causes and the fade of one input. -/
theorem Muting.updAin {s t : State} (h : Muting s t) (n : Fin 16) {f : Ain → Ain}
    (hf : ∀ a, f a = { a with causes := (f a).causes, phase := (f a).phase, level := (f a).level }) : Muting s (t.updAin n f) := by
  refine h.trans ⟨fun m => ?_, fun m => ?_, fun m => ?_⟩
  · rw [State.ainState, fld_updAin]; rfl
  · rw [State.phState, fld_updAin]; rfl
  · by_cases e : n = m
    · subst e
      rw [ains_updAin_same]
      exact hf _
    · rw [ains_updAin_ne _ _ e]

/-- A field that is neither a state of a channel nor one of its phantom. -/
theorem Muting.setFld {s t : State} (h : Muting s t) {f : Fld} (v : Nat) (hf : f.lo ≤ f.hi ∧ f.hi < 32)
    (h1 : ∀ m : Fin 16, f.addr ≠ Adr.AIN_STATUS m ∨ f.hi < (Fd.AIN_STATUS_STATE m).lo ∨ (Fd.AIN_STATUS_STATE m).hi < f.lo)
    (h2 : ∀ m : Fin 16, f.addr ≠ Adr.AIN_STATUS m ∨ f.hi < (Fd.AIN_STATUS_PH_STATE m).lo ∨ (Fd.AIN_STATUS_PH_STATE m).hi < f.lo) :
    Muting s (t.setFld f v) := by
  refine h.trans ⟨fun m => ?_, fun m => ?_, fun m => ?_⟩
  · rw [State.ainState, fld_setFld_other _ _ hf (h1 m)]; rfl
  · rw [State.phState, fld_setFld_other _ _ hf (h2 m)]; rfl
  · rw [setFld_ains]

theorem syncMuted_muting {s t : State} (h : Muting s t) (n : Fin 16) : Muting s (t.syncMuted n) :=
  h.setFld _ (by simp) (fun m => by simp) (fun m => by simp)

theorem syncMuted_quiet {R : Nat → Prop} {s t : State} (h : Quiet R s t) (n : Fin 16) (hR : R (Adr.AIN_STATUS n)) :
    Quiet R s (t.syncMuted n) := h.setFld _ hR

theorem syncMuted_ains (s : State) (n : Fin 16) : (s.syncMuted n).ains = s.ains := setFld_ains _ _ _

/-- A cause begins: what follows of it, in the order of R139. -/
theorem muteCause_cases (s : State) (n : Fin 16) (c : MuteCause) {P : State → Prop}
    (h : ∀ t, t = s.updAin n (fun a => { a with causes := if a.causes.contains c then a.causes else a.causes ++ [c] }) →
      P t ∧ P (t.syncMuted n) ∧ P ((t.updAin n Ain.fadeOut).syncMuted n)) : P (s.muteCause n c) := by
  obtain ⟨h0, h1, h2⟩ := h _ rfl
  unfold State.muteCause
  dsimp only
  split
  · split
    · exact h2
    · exact h2
    · exact h1
    · exact h1
  · exact h0

theorem muteCause_muting {s t : State} (h : Muting s t) (n : Fin 16) (c : MuteCause) : Muting s (t.muteCause n c) := by
  refine muteCause_cases t n c fun u hu => ?_
  have h0 : Muting s u := hu ▸ h.updAin n fun _ => rfl
  exact ⟨h0, syncMuted_muting h0 n, syncMuted_muting (h0.updAin n fun _ => rfl) n⟩

theorem muteCause_quiet {R : Nat → Prop} {s t : State} (h : Quiet R s t) (n : Fin 16) (c : MuteCause) (hR : R (Adr.AIN_STATUS n)) :
    Quiet R s (t.muteCause n c) := by
  refine muteCause_cases t n c fun u hu => ?_
  have h0 : Quiet R s u := hu ▸ h.updAin n _
  exact ⟨h0, syncMuted_quiet h0 n hR, syncMuted_quiet (h0.updAin n _) n hR⟩

/-! ## The gain at once (R143) -/

theorem gainAtOnce_ains (s : State) (n : Fin 16) : (s.gainAtOnce n).ains[n]
    = { s.ains[n] with gain := Glide.at (.db (s.ainTarget n) 1), waited := 0 } := by
  rw [State.gainAtOnce, State.showGain, setFld_ains, State.takeStep, ains_updAin_same, setFld_ains, setFld_ains, ains_updAin_same]
  rfl

theorem gainAtOnce_quiet {R : Nat → Prop} {s t : State} (h : Quiet R s t) (n : Fin 16) (h1 : R (Adr.AIN_STATUS n))
    (h2 : R (Adr.AIN_APPLIED_GAIN n)) : Quiet R s (t.gainAtOnce n) :=
  ((((h.updAin n _).setFld _ h1).setFld _ h1).updAin n _).setFld _ h2

theorem fld_gainAtOnce (s : State) (n : Fin 16) {f : Fld} (h1 : f.addr ≠ Adr.AIN_APPLIED_GAIN n)
    (h2 : f.addr ≠ Adr.AIN_STATUS n ∨ (Fd.AIN_STATUS_COARSE n).hi < f.lo ∨ f.hi < (Fd.AIN_STATUS_COARSE n).lo)
    (h3 : f.addr ≠ Adr.AIN_STATUS n ∨ (Fd.AIN_STATUS_STEP_PEND n).hi < f.lo ∨ f.hi < (Fd.AIN_STATUS_STEP_PEND n).lo) :
    (s.gainAtOnce n).fld f = s.fld f := by
  rw [State.gainAtOnce, State.showGain, fld_setFld_addr _ _ h1.symm, State.takeStep, fld_updAin,
    fld_setFld_other _ _ (by simp) (h3.imp_left Ne.symm), fld_setFld_other _ _ (by simp) (h2.imp_left Ne.symm), fld_updAin]

theorem ainTarget_of_reg {s t : State} {n : Fin 16} (h : t.reg (Adr.AIN_GAIN n) = s.reg (Adr.AIN_GAIN n)) :
    t.ainTarget n = s.ainTarget n := by rw [State.ainTarget, State.ainTarget, fld_of_reg h]

/-! ## Start, stop and mode (O11) -/

section Channel
variable {n : Fin 16} {s : State} (hp : s.pageTakes (ainPage n) = true)

theorem diagAbort_none {s : State} {n : Fin 16} (h : s.ains[n].diag = none) : s.diagAbort n = s := by
  rw [State.diagAbort, h]
  rfl

theorem ainState_setAinState (s : State) (n : Fin 16) (st : AinState) : (s.setAinState n st).ainState n = st := by
  rw [State.ainState, State.setAinState, fld_setFld_same _ _ _ (by simp)]
  cases st <;> rfl

theorem ainState_updAin (s : State) (n m : Fin 16) (f : Ain → Ain) : (s.updAin n f).ainState m = s.ainState m := by
  rw [State.ainState, fld_updAin]
  rfl

theorem ainState_gainAtOnce (s : State) (n : Fin 16) : (s.gainAtOnce n).ainState n = s.ainState n := by
  rw [State.ainState, fld_gainAtOnce _ _ (by grind) (by simp) (by simp)]
  rfl

theorem ainState_syncMuted (s : State) (n : Fin 16) : (s.syncMuted n).ainState n = s.ainState n :=
  (syncMuted_muting (.refl s) n).state n

/-- ENABLE takes its other value while no diagnosis runs: the state of the channel decides what follows. -/
theorem ainEnWrite_cases {on : Bool} (he : s.flag (Fd.AIN_CTRL_ENABLE n) = !on) (hd : s.ains[n].diag = none) {st : AinState}
    (hs : s.ainState n = st) {t : State} (ht : s.setFld (Fd.AIN_CTRL_ENABLE n) (bit on) = t) :
    (st = .off → on = true → s.ainEnWrite n on = ((t.setAinState n .starting).updAin n fun a =>
      { a with phase := .silent, level := Glide.at .mute, stepMark := 0, pad := t.flag (Fd.AIN_CTRL_MODE n) }).gainAtOnce n)
    ∧ (st = .starting → on = false → s.ainEnWrite n on = t.ainOff n)
    ∧ (st = .ready → on = false →
      s.ainEnWrite n on = (((t.setAinState n .stopping).updAin n Ain.fadeOut).gainAtOnce n).syncMuted n) := by
  have hst : t.ainState n = st := by
    rw [← ht, State.ainState, fld_setFld_addr _ _ (by grind)]
    exact hs
  have ha : (s.setFld (Fd.AIN_CTRL_ENABLE n) (bit on)).diagAbort n = t := by
    rw [diagAbort_none (by rw [setFld_ains]; exact hd), ht]
  unfold State.ainEnWrite
  rw [he, if_neg (by cases on <;> decide), ha]
  dsimp only
  rw [hst]
  refine ⟨?_, ?_, ?_⟩ <;> rintro rfl rfl <;> rfl

include hp in
theorem ainEnable_off (he : s.flag (Fd.AIN_CTRL_ENABLE n) = false) (hd : s.ains[n].diag = none) (hs : s.ainState n = .off) :
    After (exec (.ainEnable n) s) fun t => t.flag (Fd.AIN_CTRL_ENABLE n) = true
      ∧ t.ainState n = .starting ∧ t.ains[n].phase = .silent ∧ t.ains[n].gain = Glide.at (.db (s.ainTarget n) 1)
      ∧ Quiet (fun a => a = Adr.AIN_CTRL n ∨ a = Adr.AIN_STATUS n ∨ a = Adr.AIN_APPLIED_GAIN n) s t := by
  generalize ht : s.setFld (Fd.AIN_CTRL_ENABLE n) 1 = t
  obtain ⟨starts, -, -⟩ := ainEnWrite_cases (on := true) he hd hs ht
  refine .of_eq ((next_pos hp).trans (next_eq (starts rfl rfl))) ?_
  generalize hu : (t.setAinState n .starting).updAin n _ = u
  have hains : u.ains[n] = _ := hu ▸ ains_updAin_same _ _ _
  have hquiet : Quiet (fun a => a = Adr.AIN_CTRL n ∨ a = Adr.AIN_STATUS n ∨ a = Adr.AIN_APPLIED_GAIN n) s u :=
    hu ▸ ht ▸ .updAin (.setFld (.setFld (.refl _ s) _ (.inl rfl)) _ (.inr (.inl rfl))) _ _
  refine ⟨?_, ?_, ?_, ?_, gainAtOnce_quiet hquiet n (.inr (.inl rfl)) (.inr (.inr rfl))⟩
  · rw [State.flag, fld_gainAtOnce _ _ (by grind) (.inl (by grind)) (.inl (by grind)), ← hu, fld_updAin, State.setAinState,
      fld_setFld_addr _ _ (by grind), ← ht, fld_setFld_same _ _ _ (by simp)]
    rfl
  · rw [ainState_gainAtOnce, ← hu, ainState_updAin, ainState_setAinState]
  · rw [gainAtOnce_ains, hains]
  · rw [gainAtOnce_ains, ainTarget_of_reg (hquiet.regs _ (by grind))]

include hp in
theorem ainDisable_ready (he : s.flag (Fd.AIN_CTRL_ENABLE n) = true) (hd : s.ains[n].diag = none) (hs : s.ainState n = .ready) :
    After (exec (.ainDisable n) s) fun t => t.flag (Fd.AIN_CTRL_ENABLE n) = false
      ∧ t.ainState n = .stopping ∧ t.ains[n].phase = .out 32 ∧ t.ains[n].gain = Glide.at (.db (s.ainTarget n) 1)
      ∧ Quiet (fun a => a = Adr.AIN_CTRL n ∨ a = Adr.AIN_STATUS n ∨ a = Adr.AIN_APPLIED_GAIN n) s t := by
  generalize ht : s.setFld (Fd.AIN_CTRL_ENABLE n) 0 = t
  obtain ⟨-, -, stops⟩ := ainEnWrite_cases (on := false) he hd hs ht
  refine .of_eq ((next_pos hp).trans (next_eq (stops rfl rfl))) ?_
  generalize hu : (t.setAinState n .stopping).updAin n Ain.fadeOut = u
  have hains : u.ains[n] = _ := hu ▸ ains_updAin_same _ _ _
  have hquiet : Quiet (fun a => a = Adr.AIN_CTRL n ∨ a = Adr.AIN_STATUS n ∨ a = Adr.AIN_APPLIED_GAIN n) s u :=
    hu ▸ ht ▸ .updAin (.setFld (.setFld (.refl _ s) _ (.inl rfl)) _ (.inr (.inl rfl))) _ _
  refine ⟨?_, ?_, ?_, ?_, syncMuted_quiet (gainAtOnce_quiet hquiet n (.inr (.inl rfl)) (.inr (.inr rfl))) n (.inr (.inl rfl))⟩
  · rw [State.flag, State.syncMuted, fld_setFld_addr _ _ (by grind), fld_gainAtOnce _ _ (by grind) (.inl (by grind))
      (.inl (by grind)), ← hu, fld_updAin, State.setAinState, fld_setFld_addr _ _ (by grind), ← ht, fld_setFld_same _ _ _ (by simp)]
    rfl
  · rw [ainState_syncMuted, ainState_gainAtOnce, ← hu, ainState_updAin, ainState_setAinState]
  · rw [syncMuted_ains, gainAtOnce_ains, hains]
    rfl
  · rw [syncMuted_ains, gainAtOnce_ains, ainTarget_of_reg (hquiet.regs _ (by grind))]

/-- The newest held write of a field concerns its register and what is held. -/
theorem applyFld_quiet (s : State) (f : Fld) : Quiet (· = f.addr) s (s.applyFld f) := by
  unfold State.applyFld
  split
  · exact ((Quiet.refl (· = f.addr) s).setFld (f := f) _ rfl).congr rfl rfl rfl
  · exact .refl _ s

/-- OFF is entered with its event (R155). -/
theorem ainOff_after (s : State) (n : Fin 16) : (s.ainOff n).ainState n = .off ∧ (s.ainOff n).evt (ainPage n) AinEv.OFF = true
    ∧ Frame (fun a => a = Adr.AIN_STATUS n ∨ a = Adr.AIN_FILTER n ∨ StatusOf [ainPage n] a) s (s.ainOff n) := by
  unfold State.ainOff
  dsimp only
  generalize ht : (s.setAinState n .off).updAin n _ = t
  have hs : t.ainState n = .off := by rw [← ht, ainState_updAin, ainState_setAinState]
  have hf : Frame (fun a => a = Adr.AIN_STATUS n ∨ a = Adr.AIN_FILTER n ∨ StatusOf [ainPage n] a) s t :=
    ht ▸ .updAin (.setFld (.refl _ s) _ (.inl rfl)) _ _
  have hq := applyFld_quiet t (Fd.AIN_FILTER_DECIM n)
  generalize t.applyFld (Fd.AIN_FILTER_DECIM n) = u at *
  refine ⟨?_, evt_raise _ _ (by decide), ?_⟩
  · rw [State.ainState, fld_raise _ _ _ (by grind) (by grind) (by grind), ← State.ainState, ainState_syncMuted, State.ainState,
      fld_of_reg (hq.regs _ (by grind))]
    exact hs
  · exact .raise (.setFld (hf.trans (hq.frame.mono fun a h => .inr (.inl h))) _ (.inl rfl)) _ fun a h => .inr (.inr h)

/-- The registers that OFF concerns lie in the page of the input. -/
theorem ainOff_page {n : Fin 16} {a : Nat} (h : a = Adr.AIN_STATUS n ∨ a = Adr.AIN_FILTER n ∨ StatusOf [ainPage n] a) :
    OfPages [ainPage n] a := by
  obtain rfl | rfl | h := h
  · exact .of_page (p := ainPage n) (by simp) (by grind)
  · exact .of_page (p := ainPage n) (by simp) (by grind)
  · exact .of_status (by simp) h

include hp in
theorem ainDisable_starting (he : s.flag (Fd.AIN_CTRL_ENABLE n) = true) (hd : s.ains[n].diag = none) (hs : s.ainState n = .starting) :
    After (exec (.ainDisable n) s) fun t => t.flag (Fd.AIN_CTRL_ENABLE n) = false ∧ t.ainState n = .off
      ∧ t.evt (ainPage n) AinEv.OFF = true ∧ Frame (OfPages [ainPage n]) s t := by
  generalize ht : s.setFld (Fd.AIN_CTRL_ENABLE n) 0 = t
  obtain ⟨-, drops, -⟩ := ainEnWrite_cases (on := false) he hd hs ht
  refine .of_eq ((next_pos hp).trans (next_eq (drops rfl rfl))) ?_
  obtain ⟨hoff, hevt, hframe⟩ := ainOff_after t n
  refine ⟨?_, hoff, hevt, ?_⟩
  · rw [State.flag, fld_of_reg (hframe.regs _ ?_), ← ht, fld_setFld_same _ _ _ (by simp)]
    · rfl
    · rintro (h | h | ⟨q, hq, h⟩ | h | h) <;> grind
  · exact .trans (ht ▸ .setFld (.refl _ s) _ (.of_page (p := ainPage n) (by simp) (by grind))) (hframe.mono fun a h => ainOff_page h)

theorem ainOff_stopping (hs : s.ainState n = .stopping) (hf : s.ains[n].phase = .out 0) :
    After (exec (.ainOff n) s) fun t => t.ainState n = .off ∧ t.evt (ainPage n) AinEv.OFF = true
      ∧ Frame (OfPages [ainPage n]) s t := by
  obtain ⟨hoff, hevt, hframe⟩ := ainOff_after s n
  exact .of_eq (next_pos (by rw [hs, hf]; rfl)) ⟨hoff, hevt, hframe.mono fun a h => ainOff_page h⟩

/-- What a change of MODE leaves for the calibration. -/
theorem modeChange_eq {s t : State} {n : Fin 16} {line : Bool} (hm : s.flag (Fd.AIN_CTRL_MODE n) ≠ line)
    (ht : s.modeWrite n line = t) :
    s.modeChange n line = if s.inService then t.calRestart n else t := by
  rw [State.modeChange, ht]
  simp only [bne_iff_ne.2 hm, Bool.true_and]

/-- CAL restarts in service mode alone: what is known of the rest stays. -/
theorem calRestart_service {s u : State} {n : Fin 16} {R : Nat → Prop} (hq : Quiet R s u) :
    let t := if s.inService then u.calRestart n else u
    (∀ f : Fld, f.addr ≠ Adr.AIN_DIAG n → t.fld f = u.fld f) ∧ t.ains[n].pad = u.ains[n].pad ∧ t.ains[n].phase = u.ains[n].phase
      ∧ t.ains[n].causes = u.ains[n].causes ∧ (s.inService = true → t.fld (Fd.AIN_DIAG_CAL n) = 0)
      ∧ Quiet (fun a => R a ∨ (s.inService = true ∧ a = Adr.AIN_DIAG n)) s t := by
  have hq' : Quiet (fun a => R a ∨ (s.inService = true ∧ a = Adr.AIN_DIAG n)) s u := hq.mono fun a h => .inl h
  cases hs : s.inService with
  | false => exact ⟨fun _ _ => rfl, rfl, rfl, rfl, fun h => absurd h (by decide), by simpa [hs] using hq'⟩
  | true =>
    have ha : (u.calRestart n).ains[n] = { u.ains[n] with matched := 0 } := by
      rw [State.calRestart, ains_updAin_same, setFld_ains]
    refine ⟨fun f hf => ?_, by rw [if_pos rfl, ha], by rw [if_pos rfl, ha], by rw [if_pos rfl, ha], fun _ => ?_, ?_⟩
    · rw [if_pos rfl, State.calRestart, fld_updAin, fld_setFld_addr _ _ hf.symm]
    · rw [if_pos rfl, State.calRestart, fld_updAin, fld_setFld_same _ _ _ (by simp), Nat.zero_mod]
    · rw [if_pos rfl]
      exact .updAin (.setFld (hq.mono fun a h => .inl h) _ (.inr ⟨rfl, rfl⟩)) _ _

theorem bit_not_flag (b : Bool) : (bit b % 2 == 1) = b := by cases b <;> rfl

include hp in
theorem ainModeChange_quiet (hd : s.ains[n].diag = none) (hs : s.ainState n ≠ .ready) :
    After (exec (.ainModeChange n) s) fun t => t.flag (Fd.AIN_CTRL_MODE n) = (!s.flag (Fd.AIN_CTRL_MODE n))
      ∧ t.ains[n].pad = (!s.flag (Fd.AIN_CTRL_MODE n)) ∧ (s.inService = true → t.fld (Fd.AIN_DIAG_CAL n) = 0)
      ∧ Quiet (fun a => a = Adr.AIN_CTRL n ∨ (s.inService = true ∧ a = Adr.AIN_DIAG n)) s t := by
  generalize hl : (!s.flag (Fd.AIN_CTRL_MODE n)) = line
  have hm : s.flag (Fd.AIN_CTRL_MODE n) ≠ line := by rw [← hl]; cases s.flag (Fd.AIN_CTRL_MODE n) <;> decide
  generalize ht : s.setFld (Fd.AIN_CTRL_MODE n) (bit line) = t
  have hst : t.ainState n = s.ainState n := by
    rw [← ht, State.ainState, fld_setFld_addr _ _ (by grind)]
    rfl
  have hw : s.modeWrite n line = t.updAin n fun a => { a with pad := line } := by
    unfold State.modeWrite
    rw [if_neg (by simpa using hm), diagAbort_none (by rw [setFld_ains]; exact hd), ht]
    dsimp only
    rw [hst, if_neg (by simpa using hs)]
  have hq : Quiet (fun a => a = Adr.AIN_CTRL n) s (t.updAin n fun a => { a with pad := line }) :=
    ht ▸ ((Quiet.refl (· = Adr.AIN_CTRL n) s).setFld (f := Fd.AIN_CTRL_MODE n) _ rfl).updAin _ _
  obtain ⟨hfld, hpad, -, -, hcal, hquiet⟩ := calRestart_service (n := n) hq
  refine .of_eq ((next_pos hp).trans (next_eq ((congrArg _ hl).trans (modeChange_eq hm hw)))) ⟨?_, ?_, hcal, hquiet⟩
  · rw [State.flag, hfld _ (by grind), fld_updAin, ← ht, fld_setFld_same _ _ _ (by simp)]
    exact bit_not_flag line
  · rw [hpad, ains_updAin_same]

/-- A cause that begins on an open READY channel fades it out (R139). -/
theorem muteCause_opened {s : State} {n : Fin 16} {c : MuteCause} (hs : s.ainState n = .ready) (ho : s.ains[n].phase = .opened) :
    ∃ t, s.muteCause n c = t ∧ t.ains[n].phase = .out 32 ∧ c ∈ t.ains[n].causes ∧ t.ains[n].pad = s.ains[n].pad
      ∧ t.flag (Fd.AIN_STATUS_MUTED_AUTO n) = true ∧ Quiet (· = Adr.AIN_STATUS n) s t := by
  generalize ht : s.updAin n (fun a => { a with causes := if a.causes.contains c then a.causes else a.causes ++ [c] }) = t
  have hains : t.ains[n] = _ := ht ▸ ains_updAin_same s n _
  have hst : t.ainState n = .ready := by rw [← ht, ainState_updAin]; exact hs
  have hph : t.ains[n].phase = .opened := by rw [hains]; exact ho
  have hout : (t.updAin n Ain.fadeOut).ains[n] = t.ains[n].fadeOut := ains_updAin_same _ _ _
  have e : s.muteCause n c = (t.updAin n Ain.fadeOut).syncMuted n := by
    unfold State.muteCause
    dsimp only
    rw [ht, hst, if_pos (beq_self_eq_true _), hph]
  refine ⟨_, e, ?_, ?_, ?_, ?_, ?_⟩
  · rw [syncMuted_ains, hout]; rfl
  · rw [syncMuted_ains, hout]
    change c ∈ t.ains[n].causes
    rw [hains]
    dsimp only
    split
    · next h => exact List.contains_iff_mem.1 h
    · exact List.mem_append_right _ (List.mem_singleton_self c)
  · rw [syncMuted_ains, hout]
    change t.ains[n].pad = _
    rw [hains]
  · have hs' : (t.updAin n Ain.fadeOut).ainState n = .ready := by rw [ainState_updAin]; exact hst
    rw [State.flag, State.syncMuted, fld_setFld_same _ _ _ (by simp), hout, hs']
    rfl
  · exact syncMuted_quiet (.updAin (ht ▸ .updAin (.refl _ s) _ _) _ _) n rfl

include hp in
theorem ainModeChange_ready (hd : s.ains[n].diag = none) (hs : s.ainState n = .ready) (ho : s.ains[n].phase = .opened) :
    After (exec (.ainModeChange n) s) fun t => t.flag (Fd.AIN_CTRL_MODE n) = (!s.flag (Fd.AIN_CTRL_MODE n))
      ∧ t.ains[n].pad = s.ains[n].pad ∧ t.ains[n].phase = .out 32 ∧ MuteCause.mode ∈ t.ains[n].causes
      ∧ t.flag (Fd.AIN_STATUS_MUTED_AUTO n) = true ∧ (s.inService = true → t.fld (Fd.AIN_DIAG_CAL n) = 0)
      ∧ Quiet (fun a => a = Adr.AIN_CTRL n ∨ a = Adr.AIN_STATUS n ∨ (s.inService = true ∧ a = Adr.AIN_DIAG n)) s t := by
  generalize hl : (!s.flag (Fd.AIN_CTRL_MODE n)) = line
  have hm : s.flag (Fd.AIN_CTRL_MODE n) ≠ line := by rw [← hl]; cases s.flag (Fd.AIN_CTRL_MODE n) <;> decide
  generalize ht : s.setFld (Fd.AIN_CTRL_MODE n) (bit line) = t
  have hains : t.ains[n] = s.ains[n] := by rw [← ht, setFld_ains]
  have hst : t.ainState n = .ready := by
    rw [← ht, State.ainState, fld_setFld_addr _ _ (by grind)]
    exact hs
  obtain ⟨u, hu, hphase, hcauses, hpad, hmuted, hquiet⟩ := muteCause_opened (c := .mode) hst (by rw [hains]; exact ho)
  have hw : s.modeWrite n line = u := by
    unfold State.modeWrite
    rw [if_neg (by simpa using hm), diagAbort_none (by rw [setFld_ains]; exact hd), ht]
    dsimp only
    rw [hst, if_pos (beq_self_eq_true _), hu, if_neg (by rw [hphase]; decide)]
  have hq : Quiet (fun a => a = Adr.AIN_CTRL n ∨ a = Adr.AIN_STATUS n) s u :=
    (ht ▸ ((Quiet.refl (fun a => a = Adr.AIN_CTRL n ∨ a = Adr.AIN_STATUS n) s).setFld (f := Fd.AIN_CTRL_MODE n) _ (.inl rfl))).trans
      (hquiet.mono fun a h => .inr h)
  obtain ⟨hfld, hpad', hphase', hcauses', hcal, hquiet'⟩ := calRestart_service (n := n) hq
  refine .of_eq ((next_pos hp).trans (next_eq ((congrArg _ hl).trans (modeChange_eq hm hw)))) ⟨?_, ?_, ?_, ?_, ?_, hcal, ?_⟩
  · rw [State.flag, hfld _ (by grind), fld_of_reg (hquiet.regs _ (by grind)), ← ht, fld_setFld_same _ _ _ (by simp)]
    exact bit_not_flag line
  · rw [hpad', hpad, hains]
  · rw [hphase', hphase]
  · rw [hcauses']; exact hcauses
  · rw [State.flag, hfld _ (by grind)]; exact hmuted
  · exact hquiet'.mono fun a h => by rwa [or_assoc] at h

end Channel

/-- Settles O11. -/
theorem inputStateCommands : Obligations.InputStateCommands := by
  unfold Obligations.InputStateCommands
  refine ⟨fun n s hp he hd hs => ainEnable_off hp he hd hs, fun n s hp he hd hs => ainDisable_ready hp he hd hs,
    fun n s hp he hd hs => ainDisable_starting hp he hd hs, fun n s hp hd hs => ainModeChange_quiet hp hd hs,
    fun n s hp hd hs ho => ainModeChange_ready hp hd hs ho, fun n s h => next_pos h, fun n s hr hs hv hc => ?_,
    fun n s hs hf => ainOff_stopping hs hf⟩
  generalize ht : (s.setAinState n .ready).raise (ainPage n) AinEv.READY = t
  have hains : t.ains[n] = s.ains[n] := by rw [← ht, raise_ains, State.setAinState, setFld_ains]
  have hst : t.ainState n = .ready := by
    rw [← ht, State.ainState, fld_raise _ _ _ (by grind) (by grind) (by grind), ← State.ainState, ainState_setAinState]
  have hframe : Frame (fun a => a = Adr.AIN_STATUS n ∨ StatusOf [ainPage n] a) s t :=
    ht ▸ .raise (.setFld (.refl _ s) _ (.inl rfl)) _ fun a h => .inr h
  have hevt : t.evt (ainPage n) AinEv.READY = true := ht ▸ evt_raise _ _ (by decide)
  have ex : exec (.ainReady n) s = .next ((t.updAin n Ain.fadeIn).syncMuted n) := by
    refine (next_pos (by rw [hr, hs, hv]; rfl)).trans (next_eq ?_)
    dsimp only
    rw [ht, hains, hc, if_pos List.isEmpty_nil]
  refine .of_eq ex ⟨?_, ?_, ?_, ?_⟩
  · rw [ainState_syncMuted, ainState_updAin, hst]
  · rw [syncMuted_ains, ains_updAin_same]; rfl
  · rw [State.evt, (syncMuted_quiet (R := (· = Adr.AIN_STATUS n)) (.refl _ _) n rfl).regs _ (by grind), reg_updAin]
    exact hevt
  · exact hframe.trans (syncMuted_quiet (.updAin (.refl _ t) _ _) n (.inl rfl)).frame

end Sys2Proof.Machine
end

section
/-!
PROOFS. The gains, auto-mutes and excursions of an input (06_microphone_and_line_inputs.md R130–R145).
-/
namespace Sys2Proof.Machine

/-! ## Updates of an output -/

theorem Quiet.updOut {R : Nat → Prop} {s t : State} (h : Quiet R s t) (o : OutId) (f : Out → Out) : Quiet R s (t.updOut o f) :=
  h.congr rfl rfl rfl

theorem Frame.updOut {R : Nat → Prop} {s t : State} (h : Frame R s t) (o : OutId) (f : Out → Out) : Frame R s (t.updOut o f) :=
  h.congr rfl rfl rfl

theorem Muting.updOut {s t : State} (h : Muting s t) (o : OutId) (f : Out → Out) : Muting s (t.updOut o f) := by
  refine h.trans ⟨fun m => ?_, fun m => ?_, fun m => rfl⟩
  · rw [State.ainState, fld_updOut]; rfl
  · rw [State.phState, fld_updOut]; rfl

/-- A route of a headset microphone that changes does no more to the inputs than mute them. -/
theorem micFollow_muting (s : State) (h : Fin 4) : Muting s (s.micFollow h) := by
  unfold State.micFollow
  extract_lets t
  have h0 : Muting s t := (Muting.refl s).setFld (f := Fd.HP_STATUS_MIC_PEND h) _ (by simp) (fun m => .inl (by grind))
    (fun m => .inl (by grind))
  clear_value t
  split
  · exact h0
  · rename_i mute u w hn
    have hm : ∀ v x, Muting s v → Muting s (mute v x) := by
      intro v x hv
      dsimp only [mute]
      split
      · split
        · exact muteCause_muting hv _ .mode
        · exact hv
      · exact hv
    have hu : Muting s u := hm _ _ (hm _ _ h0)
    clear_value u w
    split
    · exact hu.updOut _ _
    · exact hu

theorem micAll_muting (s : State) : Muting s s.micAll := by
  unfold State.micAll
  generalize List.finRange 4 = l
  induction l generalizing s with
  | nil => exact .refl s
  | cons h l ih => exact (micFollow_muting s h).trans (ih _)

section Signal
variable {n : Fin 16} {s : State}

theorem ainState_store {a v : Nat} (h : a ≠ Adr.AIN_STATUS n) : (s.store a v).ainState n = s.ainState n := by
  rw [State.ainState, State.store, fld_of_reg (reg_setReg_ne s _ h)]
  rfl

/-- A new PREAMP goes to the gain. -/
theorem gainWrite_changed {v : Nat} (h : (s.store (Adr.AIN_GAIN n) v).fld (Fd.AIN_GAIN_PREAMP n) ≠ s.fld (Fd.AIN_GAIN_PREAMP n)) :
    s.gainWrite n v = (s.store (Adr.AIN_GAIN n) v).preampApplied n := by
  unfold State.gainWrite
  exact if_neg h

theorem preampGainWrite_ready {v : Word} (hp : s.pageTakes (ainPage n) = true) (hs : s.ainState n = .ready)
    (ho : s.ains[n].phase = .opened)
    (hv : (s.store (Adr.AIN_GAIN n) v.toNat).fld (Fd.AIN_GAIN_PREAMP n) ≠ s.fld (Fd.AIN_GAIN_PREAMP n)) :
    After (exec (.preampGainWrite n v) s) fun t => t.reg (Adr.AIN_GAIN n) = s.stored (Adr.AIN_GAIN n) v.toNat
      ∧ t.ains[n].gain = s.ains[n].gain.request (.db (t.ainTarget n) 1) ∧ Quiet (· = Adr.AIN_GAIN n) s t := by
  generalize ht : s.store (Adr.AIN_GAIN n) v.toNat = t at hv
  have hreg : t.reg (Adr.AIN_GAIN n) = s.stored (Adr.AIN_GAIN n) v.toNat := by rw [← ht, State.store, reg_setReg_same]
  have hains : t.ains[n] = s.ains[n] := by rw [← ht, State.store, setReg_ains]
  have hst : t.ainState n = .ready := by rw [← ht, ainState_store (by grind), hs]
  have hq : Quiet (· = Adr.AIN_GAIN n) s t := ht ▸ (Quiet.refl (· = Adr.AIN_GAIN n) s).setReg _ rfl
  have e : t.preampApplied n = t.updAin n fun a => { a with gain := a.gain.request (.db (t.ainTarget n) 1) } := by
    unfold State.preampApplied
    rw [if_neg (by rw [State.ainAtOnce, hst, hains, ho]; decide)]
  refine .of_eq ((next_pos hp).trans (next_eq ((gainWrite_changed (ht ▸ hv)).trans (ht ▸ e)))) ⟨?_, ?_, ?_⟩
  · rw [ht, reg_updAin, hreg]
  · rw [ht, ains_updAin_same, hains, ainTarget_of_reg (reg_updAin t n _ _)]
  · rw [ht]; exact hq.updAin _ _

theorem stepForceTimeout_after (hp : s.flag (Fd.AIN_STATUS_STEP_PEND n) = true)
    (hw : s.msTicks (s.fld (Fd.AIN_ZC_TIMEOUT n)) ≤ s.ains[n].waited) :
    After (exec (.stepForceTimeout n) s) fun t => t.flag (Fd.AIN_STATUS_STEP_PEND n) = false
      ∧ t.fld (Fd.AIN_STATUS_COARSE n) = s.ains[n].gain.now.steps % 2 ^ (Fd.AIN_STATUS_COARSE n).width
      ∧ t.fld (Fd.AIN_CNT_FORCED n) = satAdd 8 (s.fld (Fd.AIN_CNT_FORCED n)) 1 ∧ t.ains[n].stepMark = 25
      ∧ t.evt (ainPage n) AinEv.STEP_FORCED = true
      ∧ Frame (fun a => a = Adr.AIN_STATUS n ∨ a = Adr.AIN_CNT n ∨ StatusOf [ainPage n] a) s t := by
  refine .of_eq (next_pos (by rw [hp]; simpa using hw)) ?_
  unfold State.forceStep State.takeStep
  dsimp only
  refine ⟨?_, ?_, ?_, ?_, ?_, ?_⟩
  · rw [State.flag, fld_updAin, fld_raise _ _ _ (by grind) (by grind) (by grind), fld_countSat_ne _ _ (by grind), fld_updAin,
      fld_setFld_same _ _ _ (by simp)]
    rfl
  · rw [fld_updAin, fld_raise _ _ _ (by grind) (by grind) (by grind), fld_countSat_ne _ _ (by grind), fld_updAin,
      fld_setFld_bits _ _ (by simp) (by simp), fld_setFld_same _ _ _ (by simp)]
  · rw [fld_updAin, fld_raise _ _ _ (by grind) (by grind) (by grind), fld_countSat_same _ _ _ (by simp), fld_updAin,
      fld_setFld_addr _ _ (by grind), fld_setFld_addr _ _ (by grind)]
    rfl
  · rw [ains_updAin_same]
  · rw [State.evt, reg_updAin]
    exact evt_raise _ _ (by decide)
  · exact .updAin (.raise (.countSat (.updAin (.setFld (.setFld (.refl _ s) _ (.inl rfl)) _ (.inl rfl)) _ _) _ (.inr (.inl rfl))) _
      fun a h => .inr (.inr h)) _ _

/-- Whether an excursion may start: no diagnosis runs or mutes, and none is under way. -/
theorem cmExcursionStart_eq (hd : s.domOn (Dm.AIN (n.val / 4)) = true) (hg : s.ains[n].diag = none)
    (hm : MuteCause.diag ∉ s.ains[n].causes) (he : s.flag (Fd.AIN_STATUS_CM_EXC n) = false) {t : State}
    (ht : (s.setFld (Fd.AIN_STATUS_CM_EXC n) 1).raise (ainPage n) AinEv.CM_EXCURSION = t) :
    exec (.cmExcursionStart n) s = .next (if s.flag (Fd.AIN_CTRL_CM_MUTE n) then t.muteCause n .cm else t) := by
  have hc : s.ains[n].causes.contains .diag = false := by rw [List.contains_eq_mem]; exact decide_eq_false hm
  refine (next_pos (by rw [hd, hg, hc, he]; rfl)).trans (next_eq ?_)
  dsimp only
  have hf : t.flag (Fd.AIN_CTRL_CM_MUTE n) = s.flag (Fd.AIN_CTRL_CM_MUTE n) := by
    rw [State.flag, ← ht, fld_raise _ _ _ (by grind) (by grind) (by grind), fld_setFld_addr _ _ (by grind)]
  rw [ht, hf]

theorem automuteFadeDone_after (hs : s.ainState n = .ready) (hf : s.ains[n].phase = .out 0) :
    After (exec (.automuteFadeDone n) s) fun t => t.ainState n = .ready
      ∧ t.ains[n].pad = s.flag (Fd.AIN_CTRL_MODE n) ∧ t.ains[n].gain = Glide.at (.db (s.ainTarget n) 1) := by
  generalize ht : s.updAin n (fun a => { a with phase := .silent, level := Glide.at .mute, pad := s.flag (Fd.AIN_CTRL_MODE n) }) = t
  have hains : t.ains[n] = _ := ht ▸ ains_updAin_same s n _
  have htarget : t.ainTarget n = s.ainTarget n := ainTarget_of_reg (ht ▸ reg_updAin s n _ _)
  have hst : (t.gainAtOnce n).ainState n = .ready := by rw [ainState_gainAtOnce, ← ht, ainState_updAin, hs]
  have hgain := gainAtOnce_ains t n
  have hmic := micAll_muting (t.gainAtOnce n)
  generalize hu : (t.gainAtOnce n).micAll = u at hmic
  have hua := hmic.ains n
  rw [hgain, hains, htarget] at hua
  have ex : exec (.automuteFadeDone n) s = .next ((if u.ains[n].causes.isEmpty then u.updAin n Ain.fadeIn else u).syncMuted n) := by
    refine (next_pos (by rw [hs, hf]; rfl)).trans (next_eq ?_)
    dsimp only
    rw [ht, hu]
  have hkept : ∀ v : State, (v = u ∨ v = u.updAin n Ain.fadeIn) → v.ainState n = .ready
      ∧ v.ains[n].pad = s.flag (Fd.AIN_CTRL_MODE n) ∧ v.ains[n].gain = Glide.at (.db (s.ainTarget n) 1) := by
    rintro v (rfl | rfl)
    · refine ⟨(hmic.state n).trans hst, ?_, ?_⟩ <;> rw [hua]
    · rw [ains_updAin_same, ainState_updAin]
      refine ⟨(hmic.state n).trans hst, ?_, ?_⟩ <;> rw [hua] <;> rfl
  refine .of_eq ex ?_
  rw [ainState_syncMuted, syncMuted_ains]
  split
  · exact hkept _ (.inr rfl)
  · exact hkept _ (.inl rfl)

theorem muteEnd_last {c : MuteCause} (hs : s.ainState n = .ready) (hc : s.ains[n].causes = [c]) (hf : s.ains[n].phase = .silent) :
    (s.muteEnd n c).ains[n].causes = [] ∧ (s.muteEnd n c).ains[n].phase = .into 32 := by
  generalize ht : s.updAin n (fun a => { a with causes := a.causes.filter (· != c) }) = t
  have hains : t.ains[n] = _ := ht ▸ ains_updAin_same s n _
  have hca : t.ains[n].causes = [] := by
    rw [hains]
    dsimp only
    rw [hc]
    simp
  have hph : t.ains[n].phase = .silent := by rw [hains]; exact hf
  have e : s.muteEnd n c = (t.updAin n Ain.fadeIn).syncMuted n := by
    unfold State.muteEnd
    dsimp only
    rw [ht, if_pos (by rw [hca, hph, ← ht, ainState_updAin, hs]; rfl)]
  rw [e, syncMuted_ains, ains_updAin_same]
  exact ⟨hca, rfl⟩

end Signal

/-- Settles O12. -/
theorem inputSignalCommands : Obligations.InputSignalCommands := by
  unfold Obligations.InputSignalCommands
  refine ⟨fun n v s hp hs hv => ?once, fun n v s hp hs ho hv => preampGainWrite_ready hp hs ho hv,
    fun n s hp hw => stepForceTimeout_after hp hw, fun n s hd hg hm he hc => ?marks, fun n s hd hg hm he hc => ?mutes,
    fun n s he => next_pos he, fun n s hs hf _ => automuteFadeDone_after hs hf, fun n s hp hm => next_pos (by rw [hp, hm, beq_self_eq_true]; rfl),
    fun n s hd hh => next_pos (by rw [hd, hh]; rfl), fun n c s hs hc hf => muteEnd_last hs hc hf, fun n s hf => next_pos (by rw [hf]; rfl),
    fun n s hp hl => next_pos (by rw [hp, hl]; rfl), fun n s hp => ?cal⟩
  case once =>
    refine (next_pos hp).trans (next_eq ((gainWrite_changed hv).trans ?_))
    unfold State.preampApplied
    rw [if_pos (by rw [State.ainAtOnce, ainState_store (by grind)]; simp [hs])]
  case marks => exact (cmExcursionStart_eq hd hg hm he rfl).trans (next_neg (by rw [hc]; decide))
  case mutes => exact (cmExcursionStart_eq hd hg hm he rfl).trans (next_pos hc)
  case cal =>
    refine .of_eq (next_pos hp) ⟨?_, ?_, ?_⟩
    · rw [State.calRestart, fld_updAin, fld_setFld_same _ _ _ (by simp), Nat.zero_mod]
    · rw [State.calRestart, ains_updAin_same]
    · exact ((Quiet.refl (· = Adr.AIN_DIAG n) s).setFld (f := Fd.AIN_DIAG_CAL n) _ rfl).updAin _ _

end Sys2Proof.Machine
end

section
/-!
PROOFS. Phantom power (06_microphone_and_line_inputs.md R133–R137).
-/
namespace Sys2Proof.Machine

theorem domOn_setFld (s : State) (f : Fld) (v d : Nat) : (s.setFld f v).domOn d = s.domOn d := by
  rw [State.domOn, State.domOn, State.dom, State.dom, setFld_doms]

/-! ## The state of a phantom -/

theorem phState_of_reg {s t : State} {n : Fin 16} (h : t.reg (Adr.AIN_STATUS n) = s.reg (Adr.AIN_STATUS n)) :
    t.phState n = s.phState n := by rw [State.phState, State.phState, fld_of_reg h]

theorem phState_setPh (s : State) (n : Fin 16) (st : PhState) : (s.setPh n st).phState n = st := by
  rw [State.phState, State.setPh, fld_setFld_same _ _ _ (by simp)]
  cases st <;> rfl

theorem phState_setPh_ne (s : State) {n m : Fin 16} (st : PhState) (h : n ≠ m) : (s.setPh n st).phState m = s.phState m :=
  phState_of_reg (reg_setFld_ne _ _ _ (by grind))

theorem phState_updAin (s : State) (n m : Fin 16) (f : Ain → Ain) : (s.updAin n f).phState m = s.phState m :=
  phState_of_reg (reg_updAin _ _ _ _)

theorem phState_raise (s : State) (p b : Nat) (n : Fin 16) (h : Adr.AIN_STATUS n ≠ pageAddr p 0x010) :
    (s.raise p b).phState n = s.phState n := phState_of_reg (reg_raise _ _ _ h (by grind) (by grind))

theorem reservedOf_pending {s : State} {n : Fin 16} {st : PhState} (h : s.phState n = st) (h1 : st ≠ .off) (h2 : st ≠ .denied) :
    s.reservedOf n = s.fld (Fd.AIN_PHANTOM_RESERVE n) := by
  unfold State.reservedOf
  rw [h]
  cases st <;> first | rfl | contradiction

/-- A change of phantom marks its samples or mutes: no more. -/
theorem phChange_muting (s : State) (n : Fin 16) : Muting (s.updAin n fun a => { a with phMark := !s.flag (Fd.AIN_PHANTOM_AUTO_MUTE n) })
    (s.phChange n) := by
  unfold State.phChange
  dsimp only
  split
  · exact muteCause_muting (.refl _) n .phantom
  · exact .refl _

theorem phChange_quiet {R : Nat → Prop} {s t : State} (h : Quiet R s t) (n : Fin 16) (hR : R (Adr.AIN_STATUS n)) :
    Quiet R s (t.phChange n) := by
  unfold State.phChange
  dsimp only
  split
  · exact muteCause_quiet (h.updAin n _) n .phantom hR
  · exact h.updAin n _

theorem phState_phChange (s : State) (n m : Fin 16) : (s.phChange n).phState m = s.phState m :=
  ((phChange_muting s n).phantom m).trans (phState_updAin _ _ _ _)

/-- A change of phantom keeps what the input holds of its phantom and its diagnosis. -/
theorem phChange_ains (s : State) (n : Fin 16) : (s.phChange n).ains[n].phUp = s.ains[n].phUp
    ∧ (s.phChange n).ains[n].phAsk = s.ains[n].phAsk ∧ (s.phChange n).ains[n].removing = s.ains[n].removing
    ∧ (s.phChange n).ains[n].diag = s.ains[n].diag := by
  have h := (phChange_muting s n).ains n
  rw [ains_updAin_same] at h
  refine ⟨?_, ?_, ?_, ?_⟩ <;> rw [h]

/-! ## Reservation and ramps (O13) -/

section Phantom
variable {n : Fin 16} {s : State}

/-- PH_EN takes its other value while no diagnosis runs. -/
theorem phEnWrite_eq {on : Bool} (he : s.flag (Fd.AIN_PHANTOM_PH_EN n) = !on) (hd : s.ains[n].diag = none) {t : State}
    (ht : s.setFld (Fd.AIN_PHANTOM_PH_EN n) (bit on) = t) :
    s.phEnWrite n on = if on then t.phEnable n else t.phDisable n := by
  have ha : (s.setFld (Fd.AIN_PHANTOM_PH_EN n) (bit on)).diagAbort n = t := by
    rw [diagAbort_none (by rw [setFld_ains]; exact hd), ht]
  unfold State.phEnWrite
  rw [he, if_neg (by cases on <;> decide), ha]

theorem phState_phEn (s : State) (n : Fin 16) (v : Nat) : (s.setFld (Fd.AIN_PHANTOM_PH_EN n) v).phState n = s.phState n :=
  phState_of_reg (reg_setFld_ne _ _ _ (by grind))

theorem phantomEnable_asks (hp : s.pageTakes (ainPage n) = true) (he : s.flag (Fd.AIN_PHANTOM_PH_EN n) = false)
    (hd : s.ains[n].diag = none) (hs : s.phState n = .off) (hl : s.domOn Dm.PLL = true) :
    After (exec (.phantomEnable n) s) fun t => t.flag (Fd.AIN_PHANTOM_PH_EN n) = true ∧ t.phState n = .off
      ∧ t.ains = s.ains.set n { s.ains[n] with phAsk := true } ∧ Quiet (· = Adr.AIN_PHANTOM n) s t := by
  generalize ht : s.setFld (Fd.AIN_PHANTOM_PH_EN n) 1 = t
  have hst : t.phState n = .off := by rw [← ht, phState_phEn, hs]
  have e : s.phEnWrite n true = t.updAin n fun a => { a with phAsk := true } := by
    rw [phEnWrite_eq (on := true) he hd ht, if_pos rfl, State.phEnable, hst]
    dsimp only
    rw [if_pos (by rw [← ht, domOn_setFld]; exact hl)]
  refine .of_eq ((next_pos hp).trans (next_eq e)) ⟨?_, ?_, ?_, ?_⟩
  · rw [State.flag, fld_updAin, ← ht, fld_setFld_same _ _ _ (by simp)]
    rfl
  · rw [phState_updAin, hst]
  · rw [← ht, State.updAin, setFld_ains]
  · exact .updAin (ht ▸ (Quiet.refl (· = Adr.AIN_PHANTOM n) s).setFld (f := Fd.AIN_PHANTOM_PH_EN n) _ rfl) _ _

theorem phantomEnable_atOnce (hp : s.pageTakes (ainPage n) = true) (he : s.flag (Fd.AIN_PHANTOM_PH_EN n) = false)
    (hd : s.ains[n].diag = none) (hs : s.phState n = .off) (hl : s.domOn Dm.PLL = false) :
    exec (.phantomEnable n) s = .next ((s.setFld (Fd.AIN_PHANTOM_PH_EN n) 1).phAdmit n) := by
  refine (next_pos hp).trans (next_eq ?_)
  rw [phEnWrite_eq (on := true) he hd rfl, if_pos rfl, State.phEnable, phState_phEn, hs]
  dsimp only
  rw [if_neg (by rw [domOn_setFld, hl]; decide)]
  rfl

theorem phAdmit_admitted (hs : s.phState n = .off) (hr : s.routed n = false)
    (hc : s.reservedMa + s.fld (Fd.AIN_PHANTOM_RESERVE n) ≤ 80) :
    (s.phAdmit n).phState n = .rampUp ∧ (s.phAdmit n).reservedOf n = s.fld (Fd.AIN_PHANTOM_RESERVE n)
      ∧ (s.phAdmit n).ains[n].phUp = true ∧ (s.phAdmit n).ains[n].phAsk = false
      ∧ Quiet (· = Adr.AIN_STATUS n) s (s.phAdmit n) := by
  generalize hu : ((s.updAin n fun a => { a with phAsk := false }).setPh n .rampUp).updAin n (fun a => { a with phUp := true }) = u
  have e : s.phAdmit n = u.phChange n := by
    unfold State.phAdmit
    dsimp only
    rw [if_neg (by rw [phState_updAin, hs]; decide), hu, if_pos]
    rw [fld_updAin, show (s.updAin n _).routed n = s.routed n from rfl, hr,
      show (s.updAin n _).reservedMa = s.reservedMa from rfl]
    simpa using hc
  have hst : (u.phChange n).phState n = .rampUp := by rw [phState_phChange, ← hu, phState_updAin, phState_setPh]
  have hq : Quiet (· = Adr.AIN_STATUS n) s (u.phChange n) :=
    phChange_quiet (hu ▸ (((Quiet.refl (· = Adr.AIN_STATUS n) s).updAin n _).setFld (f := Fd.AIN_STATUS_PH_STATE n) _ rfl).updAin _ _) n rfl
  have ha : u.ains[n] = { s.ains[n] with phAsk := false, phUp := true } := by
    rw [← hu, ains_updAin_same, State.setPh, setFld_ains, ains_updAin_same]
  obtain ⟨hup, hask, -, -⟩ := phChange_ains u n
  rw [ha] at hup hask
  rw [e]
  refine ⟨hst, ?_, hup, hask, hq⟩
  rw [reservedOf_pending hst (by decide) (by decide), fld_of_reg (hq.regs _ (by grind))]

theorem phAdmit_denied (hs : s.phState n = .off) (hc : 80 < s.reservedMa + s.fld (Fd.AIN_PHANTOM_RESERVE n)) :
    (s.phAdmit n).phState n = .denied ∧ (s.phAdmit n).reservedOf n = 0 ∧ (s.phAdmit n).evt (ainPage n) AinEv.PH_DENIED = true
      ∧ (s.phAdmit n).ains[n].phAsk = false
      ∧ Frame (fun a => a = Adr.AIN_STATUS n ∨ a = Adr.AIN_PHM_CNT 0 ∨ StatusOf [ainPage n] a) s (s.phAdmit n) := by
  have e : s.phAdmit n = (((s.updAin n fun a => { a with phAsk := false }).setPh n .denied).countSat (Fd.AIN_PHM_CNT_DENIED 0) 1).raise
      (ainPage n) AinEv.PH_DENIED := by
    unfold State.phAdmit
    dsimp only
    rw [if_neg (by rw [phState_updAin, hs]; decide), if_neg]
    rw [fld_updAin, show (s.updAin n _).reservedMa = s.reservedMa from rfl]
    simp only [Bool.and_eq_true, decide_eq_true_eq, not_and]
    omega
  have hst : (s.phAdmit n).phState n = .denied := by
    rw [e, phState_raise _ _ _ _ (by grind), phState_of_reg (reg_countSat_ne _ _ _ (by grind)), phState_setPh]
  refine ⟨hst, by rw [State.reservedOf, hst], ?_, ?_, ?_⟩
  · rw [e]
    exact evt_raise _ _ (by decide)
  · rw [e, raise_ains, State.countSat, setFld_ains, State.setPh, setFld_ains, ains_updAin_same]
  · rw [e]
    exact .raise (.countSat (.setFld (.updAin (.refl _ s) _ _) _ (.inl rfl)) _ (.inr (.inl rfl))) _ fun a h => .inr (.inr h)

theorem phantomDisable_on (hp : s.pageTakes (ainPage n) = true) (he : s.flag (Fd.AIN_PHANTOM_PH_EN n) = true)
    (hd : s.ains[n].diag = none) (hs : s.phState n = .on) :
    After (exec (.phantomDisable n) s) fun t => t.flag (Fd.AIN_PHANTOM_PH_EN n) = false
      ∧ t.phState n = .rampDown ∧ t.ains[n].phUp = false ∧ Quiet (fun a => a = Adr.AIN_PHANTOM n ∨ a = Adr.AIN_STATUS n) s t := by
  generalize ht : s.setFld (Fd.AIN_PHANTOM_PH_EN n) 0 = t
  generalize hu : (t.setPh n .rampDown).updAin n (fun a => { a with phUp := false }) = u
  have e : s.phEnWrite n false = u.phChange n := by
    rw [phEnWrite_eq (on := false) he hd ht, if_neg (by decide), State.phDisable, ← ht, phState_phEn, hs, ht]
    dsimp only
    rw [hu]
  have hq : Quiet (· = Adr.AIN_STATUS n) t (u.phChange n) :=
    phChange_quiet (hu ▸ ((Quiet.refl (· = Adr.AIN_STATUS n) t).setFld (f := Fd.AIN_STATUS_PH_STATE n) _ rfl).updAin _ _) n rfl
  refine .of_eq ((next_pos hp).trans (next_eq e)) ⟨?_, ?_, ?_, ?_⟩
  · rw [State.flag, fld_of_reg (hq.regs _ (by grind)), ← ht, fld_setFld_same _ _ _ (by simp)]
    rfl
  · rw [phState_phChange, ← hu, phState_updAin, phState_setPh]
  · rw [(phChange_ains u n).1, ← hu, ains_updAin_same]
  · exact .trans (ht ▸ .setFld (.refl _ s) _ (.inl rfl)) (hq.mono fun a h => .inr h)

/-- The device removes a phantom while no diagnosis runs. -/
theorem phRemove_after (hd : s.ains[n].diag = none) (st : PhState) {ev : Nat} (hev : ev < 32) :
    (s.phRemove n st ev).phState n = st ∧ (s.phRemove n st ev).ains[n].phUp = false ∧ (s.phRemove n st ev).ains[n].removing = true
      ∧ (s.phRemove n st ev).evt (ainPage n) ev = true ∧ (∀ m : Fin 16, m ≠ n → (s.phRemove n st ev).phState m = s.phState m)
      ∧ Frame (fun a => a = Adr.AIN_STATUS n ∨ StatusOf [ainPage n] a) s (s.phRemove n st ev) := by
  unfold State.phRemove
  dsimp only
  generalize hu : (s.setPh n st).updAin n (fun a => { a with removing := true, phUp := false }) = u
  have ha : u.ains[n] = { s.ains[n] with removing := true, phUp := false } := by
    rw [← hu, ains_updAin_same, State.setPh, setFld_ains]
  obtain ⟨hup, -, hrem, hdg⟩ := phChange_ains u n
  rw [ha] at hup hrem hdg
  rw [diagAbort_none (hdg.trans hd), raise_ains]
  refine ⟨?_, hup, hrem, evt_raise _ _ hev, fun m hm => ?_, ?_⟩
  · rw [phState_raise _ _ _ _ (by grind), phState_phChange, ← hu, phState_updAin, phState_setPh]
  · rw [phState_raise _ _ _ _ (by grind), phState_phChange, ← hu, phState_updAin, phState_setPh_ne _ _ hm.symm]
  · have hq : Quiet (· = Adr.AIN_STATUS n) s (u.phChange n) :=
      phChange_quiet (hu ▸ ((Quiet.refl (· = Adr.AIN_STATUS n) s).setFld (f := Fd.AIN_STATUS_PH_STATE n) _ rfl).updAin _ _) n rfl
    exact .raise (hq.frame.mono fun a h => .inl h) _ fun a h => .inr h

theorem phLimitTimeout_after (hl : s.phLive n = true) (hd : s.ains[n].diag = none) :
    After (exec (.phLimitTimeout n) s) fun t => t.phState n = .overload ∧ t.ains[n].phUp = false ∧ t.ains[n].removing = true
      ∧ t.reservedOf n = s.fld (Fd.AIN_PHANTOM_RESERVE n) ∧ t.evt (ainPage n) AinEv.PH_OVERLOAD = true
      ∧ Frame (fun a => a = Adr.AIN_STATUS n ∨ StatusOf [ainPage n] a) s t := by
  obtain ⟨hst, hup, hrem, hev, -, hf⟩ := phRemove_after (n := n) hd .overload (ev := AinEv.PH_OVERLOAD) (by decide)
  refine .of_eq (next_pos hl) ⟨hst, hup, hrem, ?_, hev, hf⟩
  rw [reservedOf_pending hst (by decide) (by decide), fld_of_reg (hf.regs _ ?_)]
  rintro (h | ⟨q, hq, h⟩ | h | h) <;> grind

theorem phFoldback_after (hf : s.foldNext = some n) (hd : s.ains[n].diag = none) :
    After (exec .phFoldback s) fun t => t.phState n = .folded ∧ t.ains[n].removing = true
      ∧ t.evt (ainPage n) AinEv.PH_FOLDED = true ∧ (∀ m : Fin 16, m ≠ n → t.phState m = s.phState m)
      ∧ Frame (fun a => a = Adr.AIN_STATUS n ∨ a = Adr.AIN_PHM_CNT 0 ∨ StatusOf [ainPage n] a) s t := by
  obtain ⟨hst, -, hrem, hev, hoth, hfr⟩ := phRemove_after (n := n) hd .folded (ev := AinEv.PH_FOLDED) (by decide)
  have e : exec .phFoldback s = .next ((s.phRemove n .folded AinEv.PH_FOLDED).countSat (Fd.AIN_PHM_CNT_FOLD 0) 1) :=
    next_eq (by rw [hf])
  generalize s.phRemove n .folded AinEv.PH_FOLDED = t at *
  have hreg (a : Nat) (h : Adr.AIN_PHM_CNT 0 ≠ a) : (t.countSat (Fd.AIN_PHM_CNT_FOLD 0) 1).reg a = t.reg a :=
    reg_countSat_ne t _ 1 h
  refine .of_eq e ⟨?_, ?_, ?_, fun m hm => ?_, ?_⟩
  · rw [phState_of_reg (hreg _ (by grind)), hst]
  · rw [State.countSat, setFld_ains, hrem]
  · rw [State.evt, hreg _ (by grind)]
    exact hev
  · rw [phState_of_reg (hreg _ (by grind)), hoth m hm]
  · exact .countSat (hfr.mono fun a h => h.imp_right .inr) _ (.inr (.inl rfl))

end Phantom

/-- Settles O13. -/
theorem phantomCommands : Obligations.PhantomCommands := by
  unfold Obligations.PhantomCommands
  refine ⟨fun n s => phantomEnable_asks, fun n s => phantomEnable_atOnce, fun n s => phAdmit_admitted, fun n s => phAdmit_denied,
    fun n s => phantomDisable_on, fun n s hs => next_eq ?_, fun n s hs hr => next_eq ?_, fun n s hs hu => next_eq ?_,
    fun n s hs hu => next_eq ?_, fun n s => phLimitTimeout_after, fun n s => phFoldback_after, fun s hf => next_eq (by rw [hf])⟩
  · obtain hs | hs := hs <;> rw [hs]
  · obtain hs | hs := hs <;> rw [hs] <;> exact if_pos hr
  · rw [hs]
    exact if_pos hu
  · rw [hs]
    exact if_neg (by rw [hu]; decide)

end Sys2Proof.Machine
end

section
/-!
PROOFS. What the fields of a register hold after a write and after a read (00_scope.md R4, Table 0.2).
-/
namespace Sys2Proof.Machine

/-! ## One field -/

/-- Whether bit `j` lies in the field. -/
def FieldRow.covers (f : FieldRow) (j : Nat) : Bool := f.lo ≤ j && j ≤ f.hi

/-- The number of bits of a field row. -/
abbrev FieldRow.wide (f : FieldRow) : Nat := f.hi + 1 - f.lo

theorem FieldRow.covers_iff {f : FieldRow} {j : Nat} : f.covers j = true ↔ f.lo ≤ j ∧ j < f.lo + f.wide := by
  simp only [FieldRow.covers, Bool.and_eq_true, decide_eq_true_eq, FieldRow.wide]
  omega

/-- The ones of a mask, taken away. -/
theorem bitVec_sub_and {w : Nat} (x m : BitVec w) : x - (x &&& m) = x &&& ~~~m := by
  have h : (x &&& ~~~m) + (x &&& m) = x := by
    rw [BitVec.add_eq_or_of_and_eq_zero _ _ (by ext i; simp; grind)]
    ext i
    simp
    grind
  rw [eq_comm, BitVec.eq_sub_iff_add_eq, h]

theorem testBit_sub_and (x m j : Nat) : (x - (x &&& m)).testBit j = (x.testBit j && !m.testBit j) := by
  obtain ⟨w, hx, hm, hj⟩ : ∃ w, x < 2 ^ w ∧ m < 2 ^ w ∧ j < w := by
    refine ⟨x + m + j + 1, ?_, ?_, by omega⟩ <;>
      exact Nat.lt_two_pow_self.trans_le (Nat.pow_le_pow_right (by decide) (by omega))
  have h := congrArg (fun b => b.getLsbD j) (bitVec_sub_and (BitVec.ofNat w x) (BitVec.ofNat w m))
  rw [← BitVec.ofNat_and, BitVec.ofNat_sub_ofNat_of_le _ _ (Nat.and_le_left.trans_lt hx) Nat.and_le_left] at h
  simpa only [BitVec.getLsbD_and, BitVec.getLsbD_not, BitVec.getLsbD_ofNat, hj, decide_true, Bool.true_and] using h

/-- A field's bits after a write of its own: they turn on its own bits alone (Table 0.2). -/
def FieldRow.bitAfter (f : FieldRow) (old new j : Nat) : Bool :=
  match f.acc with
  | .rw | .rws => (f.store.apply (bitsAt new f.lo f.wide)).testBit (j - f.lo)
  | .w1c => old.testBit j && !new.testBit j
  | .ro | .wo | .rc => old.testBit j

theorem FieldRow.testBit_write (f : FieldRow) (old new j : Nat) :
    (f.write old new).testBit j = if f.covers j then f.bitAfter old new j else old.testBit j := by
  unfold FieldRow.write FieldRow.bitAfter
  by_cases h : f.covers j = true
  · obtain ⟨h1, h2⟩ := FieldRow.covers_iff.1 h
    have hj : j - f.lo < f.wide := by omega
    rw [if_pos h]
    cases f.acc <;> simp only [testBit_putBits, testBit_sub_and, testBit_bitsAt, h1, h2, hj, and_self, if_true, decide_true,
      Bool.true_and, Nat.add_sub_cancel' h1]
  · have h' := fun hj => h (FieldRow.covers_iff.2 hj)
    rw [if_neg h]
    cases f.acc <;> simp only [testBit_putBits, if_neg h']

/-! ## The fields of a register -/

/-- A writing fold over the fields of a register. -/
def writeAll (new old : Nat) (fs : List FieldRow) : Nat := fs.foldl (fun w f => if f.view then w else f.write w new) old

theorem RegRow.write_eq (r : RegRow) (old new : Nat) : r.write old new = writeAll new old r.fields := rfl

theorem writeAll_cons (new old : Nat) (f : FieldRow) (fs : List FieldRow) :
    writeAll new old (f :: fs) = writeAll new (if f.view then old else f.write old new) fs := rfl

/-- A bit that no field of the fold covers stays. -/
theorem testBit_writeAll_other {new j : Nat} {fs : List FieldRow} (h : ∀ f ∈ fs, f.view = false → f.covers j = false) (old : Nat) :
    (writeAll new old fs).testBit j = old.testBit j := by
  induction fs generalizing old with
  | nil => rfl
  | cons f fs ih =>
    rw [writeAll_cons, ih fun g hg => h g (.tail _ hg)]
    cases hv : f.view with
    | true => rfl
    | false => simp [FieldRow.testBit_write, h f (.head _) hv]

/-- Two fields that a register holds cover different bits; one whose home is elsewhere is not held. -/
def FieldRow.apart (f g : FieldRow) : Bool := f.view || g.view || f.hi < g.lo || g.hi < f.lo

theorem FieldRow.apart_covers {f g : FieldRow} {j : Nat} (h : f.apart g = true) (hf : f.view = false) (hg : g.view = false)
    (hc : f.covers j = true) : g.covers j = false := by
  simp only [FieldRow.apart, hf, hg, Bool.false_or, Bool.or_eq_true, decide_eq_true_eq] at h
  simp only [FieldRow.covers, Bool.and_eq_true, decide_eq_true_eq, Bool.and_eq_false_iff, decide_eq_false_iff_not] at hc ⊢
  omega

/-- The bits of one field, among fields that are apart. -/
theorem testBit_writeAll_of_mem {new j : Nat} {f : FieldRow} {fs : List FieldRow} (hp : fs.Pairwise (·.apart ·)) (hf : f ∈ fs)
    (hv : f.view = false) (hc : f.covers j = true) (old : Nat) : (writeAll new old fs).testBit j = f.bitAfter old new j := by
  induction fs generalizing old with
  | nil => cases hf
  | cons g fs ih =>
    obtain ⟨hg, hp⟩ := List.pairwise_cons.1 hp
    rw [writeAll_cons]
    cases hf with
    | head =>
      rw [testBit_writeAll_other fun x hx hxv => FieldRow.apart_covers (hg x hx) hv hxv hc, hv]
      simp [FieldRow.testBit_write, hc]
    | tail _ hf =>
      rw [ih hp hf]
      cases hgv : g.view with
      | true => rfl
      | false =>
        have hgc : g.covers j = false := by
          have := FieldRow.apart_covers (hg f hf) hgv hv (j := j)
          cases hx : g.covers j with
          | false => rfl
          | true => rw [this hx] at hc; cases hc
        unfold FieldRow.bitAfter
        simp [FieldRow.testBit_write, hgc]

/-- The fields of a register lie in its word and are apart. -/
def RegRow.ok (r : RegRow) : Bool := decide (r.fields.Pairwise (·.apart ·)) && r.fields.all fun f => f.lo ≤ f.hi && f.hi < 32

theorem pageRows_ok : (pageBlocks.all fun b => b.regs.all RegRow.ok) = true := by decide +kernel

theorem poolRows_ok : (paramPools.all fun q => q.regs.all RegRow.ok) = true := by decide +kernel

theorem pageReg_ok {p o : Nat} {r : RegRow} (h : pageReg p o = some r) : r.ok = true := by
  unfold pageReg at h
  split at h
  · cases h
  · next b hb => exact List.all_eq_true.1 (List.all_eq_true.1 pageRows_ok _ (List.mem_of_find?_eq_some hb)) _ (List.mem_of_find?_eq_some h)

theorem regRow_ok {a : Nat} {r : RegRow} (h : regRow a = some r) : r.ok = true := by
  unfold regRow at h
  split at h
  · exact pageReg_ok h
  · split at h
    · unfold poolReg at h
      split at h
      · cases h
      · next q hq =>
        obtain ⟨x, hx, rfl⟩ := Option.map_eq_some_iff.1 h
        obtain ⟨y, hy, rfl⟩ := Option.map_eq_some_iff.1 hx
        exact List.all_eq_true.1 (List.all_eq_true.1 poolRows_ok _ (List.mem_of_find?_eq_some hq)) _ (List.mem_of_find?_eq_some hy)
    · cases h

section Stored
variable {a : Nat} {r : RegRow} (h : regRow a = some r) (s : State) (v : Nat)

include h in
theorem testBit_stored {j : Nat} (hj : j < 32) :
    (s.stored a v).toNat.testBit j = (writeAll v (s.reg a).toNat r.fields).testBit j := by
  unfold State.stored
  rw [h, ← RegRow.write_eq]
  exact (Nat.testBit_mod_two_pow _ 32 j).trans (by simp [hj])

include h in
theorem testBit_stored_of_mem {f : FieldRow} (hf : f ∈ r.fields) (hv : f.view = false) {j : Nat} (hc : f.covers j = true) :
    (s.stored a v).toNat.testBit j = f.bitAfter (s.reg a).toNat v j := by
  obtain ⟨hp, hb⟩ := Bool.and_eq_true_iff.1 (regRow_ok h)
  have h32 := List.all_eq_true.1 hb f hf
  rw [testBit_stored h, testBit_writeAll_of_mem (of_decide_eq_true hp) hf hv hc]
  simp only [FieldRow.covers, Bool.and_eq_true, decide_eq_true_eq] at hc h32
  omega

include h in
/-- A field that a write stores holds the stored form of its bits. -/
theorem bitsAt_stored {f : FieldRow} (hf : f ∈ r.fields) (hv : f.view = false) (ha : f.acc = .rw ∨ f.acc = .rws) :
    bitsAt (s.stored a v).toNat f.lo f.wide = f.store.apply (bitsAt v f.lo f.wide) % 2 ^ f.wide := by
  apply Nat.eq_of_testBit_eq
  intro j
  rw [testBit_bitsAt, Nat.testBit_mod_two_pow]
  by_cases hj : j < f.wide
  · rw [testBit_stored_of_mem h s v hf hv (FieldRow.covers_iff.2 ⟨by omega, by omega⟩), FieldRow.bitAfter]
    obtain ha | ha := ha <;> rw [ha] <;> simp
  · simp [hj]

include h in
/-- A field that a write does not store keeps its bits. -/
theorem bitsAt_stored_kept {f : FieldRow} (hf : f ∈ r.fields) (hv : f.view = false) (ha : f.acc = .ro ∨ f.acc = .rc ∨ f.acc = .wo) :
    bitsAt (s.stored a v).toNat f.lo f.wide = bitsAt (s.reg a).toNat f.lo f.wide := by
  apply Nat.eq_of_testBit_eq
  intro j
  rw [testBit_bitsAt, testBit_bitsAt]
  by_cases hj : j < f.wide
  · rw [testBit_stored_of_mem h s v hf hv (FieldRow.covers_iff.2 ⟨by omega, by omega⟩), FieldRow.bitAfter]
    obtain ha | ha | ha := ha <;> rw [ha]
  · simp [hj]

include h in
theorem bitOf_stored_cleared {f : FieldRow} (hf : f ∈ r.fields) (hv : f.view = false) (ha : f.acc = .w1c) {b : Nat} (h1 : f.lo ≤ b)
    (h2 : b ≤ f.hi) : bitOf (s.stored a v).toNat b = (bitOf (s.reg a).toNat b && !bitOf v b) := by
  have hc : f.covers b = true := by simp [FieldRow.covers, h1, h2]
  rw [bitOf_eq_testBit, bitOf_eq_testBit, bitOf_eq_testBit, testBit_stored_of_mem h s v hf hv hc, FieldRow.bitAfter, ha]

include h in
theorem bitOf_stored_reserved {b : Nat} (hb : b < 32) (hf : (r.fields.any fun f => f.lo ≤ b && b ≤ f.hi) = false) :
    bitOf (s.stored a v).toNat b = bitOf (s.reg a).toNat b := by
  rw [bitOf_eq_testBit, bitOf_eq_testBit, testBit_stored h s v hb]
  exact testBit_writeAll_other (fun f hm _ => by simpa [FieldRow.covers] using List.any_eq_false.1 hf f hm) _

end Stored

/-! ## A read (R4) -/

/-- The bits that a read clears: those of RC fields held here. -/
def FieldRow.clears (f : FieldRow) (j : Nat) : Bool := f.acc == .rc && !f.view && f.lo ≤ j && j ≤ f.hi

theorem testBit_readClear (r : RegRow) (old j : Nat) :
    (r.readClear old).testBit j = (old.testBit j && !r.fields.any (·.clears j)) := by
  unfold RegRow.readClear
  generalize r.fields = fs
  induction fs generalizing old with
  | nil => simp
  | cons f fs ih =>
    rw [List.foldl_cons, ih, List.any_cons]
    by_cases h : (f.acc == .rc && !f.view) = true
    · have hc : f.clears j = f.covers j := by rw [FieldRow.clears, h]; rfl
      rw [if_pos h, testBit_putBits, hc]
      have hx := @FieldRow.covers_iff f j
      by_cases hj : f.covers j = true
      · rw [if_pos (hx.1 hj), hj]
        simp
      · rw [if_neg (fun hb => hj (hx.2 hb)), eq_false_of_ne_true hj]
        rfl
    · have hc : f.clears j = false := by rw [FieldRow.clears, eq_false_of_ne_true h]; rfl
      rw [if_neg h, hc]
      rfl

theorem clearRc_after {g o : Nat} {r : RegRow} {s : State} (h : pageReg g o = some r) (ht : s.readTarget g o = pageAddr g o) :
    (∀ b, b < 32 → bitOf ((s.clearRc g o).reg (pageAddr g o)).toNat b =
        (bitOf (s.reg (pageAddr g o)).toNat b && !r.fields.any fun f => f.acc == .rc && !f.view && f.lo ≤ b && b ≤ f.hi))
      ∧ Quiet (· = pageAddr g o) s (s.clearRc g o) := by
  unfold State.clearRc
  rw [h]
  dsimp only
  rw [ht]
  split
  · refine ⟨fun b hb => ?_, (Quiet.refl (· = pageAddr g o) s).setReg _ rfl⟩
    rw [reg_setReg_same, bitOf_eq_testBit, bitOf_eq_testBit, BitVec.toNat_ofNat, Nat.testBit_mod_two_pow, testBit_readClear]
    simp [hb, FieldRow.clears]
  · next hn =>
    refine ⟨fun b hb => ?_, .refl _ s⟩
    have : (r.fields.any fun f => f.acc == .rc && !f.view && f.lo ≤ b && b ≤ f.hi) = false := by
      rw [List.any_eq_false]
      intro f hf hx
      refine hn (List.any_eq_true.2 ⟨f, hf, ?_⟩)
      simp only [Bool.and_eq_true] at hx ⊢
      exact hx.1.1
    rw [this]
    simp

end Sys2Proof.Machine
end

section
/-!
PROOFS. The diagnosis of an input (06_microphone_and_line_inputs.md R151–R154).
-/
namespace Sys2Proof.Machine

/-! ## The test DAC's queue -/

theorem mem_tdacInsert (k : Nat) (x : TdacUser) (q : List (Nat × TdacUser)) : ∃ e ∈ tdacInsert k x q, e.2 = x := by
  induction q with
  | nil => exact ⟨_, .head _, rfl⟩
  | cons e q ih =>
    rw [tdacInsert]
    split
    · exact ⟨_, .head _, rfl⟩
    · obtain ⟨y, hy, hx⟩ := ih
      exact ⟨y, .tail _ hy, hx⟩

theorem mem_tdacEnqueue (s : State) (x : TdacUser) : ∃ e ∈ (s.tdacEnqueue x).tdacQ, e.2 = x := by
  unfold State.tdacEnqueue
  split
  · next h =>
    obtain ⟨e, he, hx⟩ := List.any_eq_true.1 h
    exact ⟨e, he, eq_of_beq hx⟩
  · exact mem_tdacInsert _ _ _

theorem tdacEnqueue_quiet {R : Nat → Prop} {s t : State} (h : Quiet R s t) (x : TdacUser) : Quiet R s (t.tdacEnqueue x) := by
  unfold State.tdacEnqueue
  split
  · exact h
  · exact h.congr rfl rfl rfl

theorem fld_tdacEnqueue (s : State) (x : TdacUser) (f : Fld) : (s.tdacEnqueue x).fld f = s.fld f :=
  fld_of_reg ((tdacEnqueue_quiet (R := fun _ => False) (.refl _ s) x).regs _ id)

section Diagnosis
variable {n : Fin 16} {s : State}

/-- The field LEGS among the fields of DIAG (Table 6.13). -/
theorem regRow_diag (n : Fin 16) : ∃ r, regRow (Adr.AIN_DIAG n) = some r ∧ FieldRow.of 2 1 .rws 3 (.recode [(0, 3)]) ∈ r.fields := by
  refine ⟨⟨0x068, 0, 1, [.of 3 3 .rws 0, .of 2 1 .rws 3 (.recode [(0, 3)]), .of 0 0 .rws 0]⟩, ?_, by simp⟩
  revert n
  decide

/-- What DIAG takes of a write of START and LEGS. -/
theorem diagBits : ∀ legs : BitVec 2, bitOf (1 + 2 * legs.toNat) 3 = false ∧ bitOf (1 + 2 * legs.toNat) 0 = true
    ∧ (StoreRule.recode [(0, 3)]).apply (bitsAt (1 + 2 * legs.toNat) 1 2) % 2 ^ 2 % 2 ^ 2 = if legs = 0 then 3 else legs.toNat := by
  decide

theorem storeFld_legs (s : State) (n : Fin 16) (legs : BitVec 2) :
    (s.storeFld (Fd.AIN_DIAG_LEGS n) (1 + 2 * legs.toNat)).fld (Fd.AIN_DIAG_LEGS n) = if legs = 0 then 3 else legs.toNat := by
  obtain ⟨r, hr, hf⟩ := regRow_diag n
  rw [State.storeFld, fld_setFld_same _ _ _ (by simp), show bitsAt _ _ _ = _ from bitsAt_stored hr s _ hf rfl (.inr rfl)]
  exact (diagBits legs).2.2

theorem diagStart_after {legs : BitVec 2} (hp : s.pageTakes (ainPage n) = true) (hd : s.ains[n].diag = none) :
    After (exec (.diagStart n legs) s) fun t => Quiet (fun a => a = Adr.AIN_DIAG n ∨ a = Adr.AIN_DIAG_RES n) s t
      ∧ t.flag (Fd.AIN_DIAG_START n) = true
      ∧ t.fld (Fd.AIN_DIAG_LEGS n) = (if legs = 0 then 3 else legs.toNat) ∧ t.fld (Fd.AIN_DIAG_RES_CODE n) = 1
      ∧ ∃ e ∈ t.tdacQ, e.2 = .diag n false := by
  generalize ht : s.storeFld (Fd.AIN_DIAG_LEGS n) (1 + 2 * legs.toNat) = t
  have e : s.diagWrite n (1 + 2 * legs.toNat) = t.diagRequest n false := by
    obtain ⟨h3, h0, -⟩ := diagBits legs
    unfold State.diagWrite
    dsimp only
    rw [h3, h0, ht]
    rfl
  have hq : Quiet (fun a => a = Adr.AIN_DIAG n ∨ a = Adr.AIN_DIAG_RES n) s t := ht ▸ .setFld (.refl _ s) _ (.inl rfl)
  have hl : t.fld (Fd.AIN_DIAG_LEGS n) = if legs = 0 then 3 else legs.toNat := ht ▸ storeFld_legs s n legs
  have ha : t.ains[n].diag = none := by rw [← ht, State.storeFld, setFld_ains, hd]
  refine .of_eq ((next_pos hp).trans (next_eq e)) ?_
  unfold State.diagRequest
  extract_lets t1 before u
  have hu : (∀ f, u.fld f = t1.fld f) ∧ u.ains[n].diag = none ∧ Quiet (fun a => a = Adr.AIN_DIAG n ∨ a = Adr.AIN_DIAG_RES n) s u := by
    have h1 : Quiet (fun a => a = Adr.AIN_DIAG n ∨ a = Adr.AIN_DIAG_RES n) s t1 := hq.setFld (f := Fd.AIN_DIAG_START n) 1 (.inl rfl)
    have h2 : t1.ains[n].diag = none := ha
    dsimp only [u]
    split
    · exact ⟨fun _ => rfl, h2, h1⟩
    · refine ⟨fun f => fld_updAin _ _ _ f, ?_, h1.updAin _ _⟩
      rw [ains_updAin_same, h2]
  obtain ⟨hf, hn, hr⟩ := hu
  clear_value u
  rw [hn]
  refine ⟨tdacEnqueue_quiet (hr.setFld (f := Fd.AIN_DIAG_RES_CODE n) _ (.inr rfl)) _, ?_, ?_, ?_, mem_tdacEnqueue _ _⟩
  · rw [State.flag, fld_tdacEnqueue, if_neg (by decide), fld_setFld_addr _ _ (by grind), hf]
    dsimp only [t1]
    rw [if_neg (by decide), fld_setFld_same _ _ _ (by simp)]
    rfl
  · rw [fld_tdacEnqueue, if_neg (by decide), fld_setFld_addr _ _ (by grind), hf]
    dsimp only [t1]
    rw [if_neg (by decide), fld_setFld_bits _ _ (by simp) (by simp), hl]
  · rw [fld_tdacEnqueue, if_neg (by decide), fld_setFld_same _ _ _ (by simp)]
    rfl

theorem diagBegin_oldest {cls : Bool} {k : Nat} (hq : s.tdacQ.head? = some (k, .diag n cls)) (hr : s.ainRuns n = true)
    (hf : s.tdacFree = true) : exec (.diagBegin n) s = .next (s.diagBegin n cls) := by
  refine next_eq ?_
  rw [hq]
  exact if_pos (by rw [hr, hf, beq_self_eq_true]; rfl)

theorem diagPhaseDone_first {r : DiagReading} {legs : Nat} (hd : s.ains[n].diag = some ⟨false, legs, 0, false⟩)
    (hf : s.ains[n].fading = false) (hl : bitOf legs 0 = true) :
    After (exec (.diagPhaseDone n r) s) fun t => t.ains[n].diag = some ⟨false, legs, 1, r.limiting⟩
      ∧ t.fld Fd.TDAC_STATUS_ROUTE = 0x01 + n.val ∧ Quiet (· = Adr.TDAC_STATUS) s t := by
  generalize ht : s.updAin n (fun a => { a with diag := some ⟨false, legs, 1, r.limiting⟩ }) = t
  have e : s.diagPhase n r = (t.withTdac { t.tdac with out := diagVolt }).setFld Fd.TDAC_STATUS_ROUTE (0x01 + n.val) := by
    unfold State.diagPhase
    rw [hd]
    dsimp only
    rw [if_neg (by rw [hf]; decide), if_pos rfl]
    unfold Diag.next
    dsimp only
    rw [if_pos rfl, if_pos hl]
    dsimp only
    rw [if_pos rfl, ht]
    rfl
  have hdiag : t.ains[n].diag = some ⟨false, legs, 1, r.limiting⟩ := by rw [← ht, ains_updAin_same]
  refine .of_eq (next_eq e) ⟨?_, ?_, ?_⟩
  · rw [setFld_ains]
    exact hdiag
  · rw [fld_setFld_same _ _ _ (by simp)]
    exact Nat.mod_eq_of_lt (show 1 + n.val < 64 by omega)
  · exact .setFld (.withTdac (ht ▸ .updAin (.refl _ s) _ _) _) _ rfl

theorem diagPhaseDone_last {r : DiagReading} {lim : Bool} (hd : s.ains[n].diag = some ⟨false, 1, 1, lim⟩)
    (hf : s.ains[n].fading = false) : exec (.diagPhaseDone n r) s = .next (s.diagResult n ⟨false, 1, 1, lim⟩ r) := by
  refine next_eq ?_
  unfold State.diagPhase
  rw [hd]
  dsimp only
  rw [if_neg (by rw [hf]; decide), if_neg (by decide), show (⟨false, 1, 1, lim⟩ : Diag).next = none by simp [Diag.next, bitOf]]

theorem diagCls_host {d : Diag} (hd : s.ains[n].diag = some d) (hc : d.cls = false) : s.diagCls n = false := by
  rw [State.diagCls, hd]
  exact hc

/-- The end of a host's diagnosis that holds no test DAC: its code, its count and its event. -/
theorem diagEnd_host {d : Diag} {code : Nat} (hd : s.ains[n].diag = some d) (hc : d.cls = false) (ho : s.tdacOwner = none) :
    s.diagEnd n code = (((s.setFld (Fd.AIN_DIAG_RES_CODE n) code).countWrap (Fd.AIN_DIAG_RES_SEQ n) 1).raise (ainPage n)
      AinEv.DIAG_DONE).updAin n fun a => { a with diag := none } := by
  have hcls := diagCls_host hd hc
  have hst : s.diagStale n = false := by rw [State.diagStale, hcls]; rfl
  unfold State.diagEnd
  extract_lets t u mine w v
  have ht : t = ((s.setFld (Fd.AIN_DIAG_RES_CODE n) code).countWrap (Fd.AIN_DIAG_RES_SEQ n) 1).raise (ainPage n) AinEv.DIAG_DONE :=
    if_neg (by rw [hst]; decide)
  have hu : u.tdacOwner = none := by
    dsimp only [u]
    rw [show (t.updAin n _).tdacOwner = t.tdacOwner from rfl, ht, raise_tdacOwner, State.countWrap, setFld_tdacOwner, setFld_tdacOwner, ho]
  have hm : mine = false := by
    dsimp only [mine]
    rw [hu]
  have hv : v = u := if_neg (by rw [hm]; decide)
  rw [hcls, if_neg (by decide), hv, ← ht]

theorem diagResult_after {e : Diag} {r : DiagReading} (hd : s.ains[n].diag = some e) (hc : e.cls = false) (ho : s.tdacOwner = none) :
    (s.diagResult n e r).ains[n].diag = none ∧ (s.diagResult n e r).evt (ainPage n) AinEv.DIAG_DONE = true
      ∧ (s.diagResult n e r).fld (Fd.AIN_DIAG_RES_SEQ n)
          = (s.fld (Fd.AIN_DIAG_RES_SEQ n) + 1) % 2 ^ (Fd.AIN_DIAG_RES_SEQ n).width
      ∧ (bitOf e.legs 0 = true → (s.diagResult n e r).fld (Fd.AIN_DIAG_RP_OHMS n) = min r.rp 0xFFFFF) := by
  have hst : s.diagStale n = false := by rw [State.diagStale, diagCls_host hd hc]; rfl
  unfold State.diagResult
  extract_lets p q rp rn rd t
  have ht : t = ((s.setFld (Fd.AIN_DIAG_RP_OHMS n) rp).setFld (Fd.AIN_DIAG_RN_OHMS n) rn).setFld (Fd.AIN_DIAG_RD_OHMS n) rd :=
    if_neg (by rw [hst]; decide)
  have hta : t.ains = s.ains := by rw [ht, setFld_ains, setFld_ains, setFld_ains]
  have hto : t.tdacOwner = none := by rw [ht, setFld_tdacOwner, setFld_tdacOwner, setFld_tdacOwner, ho]
  have hseq : t.fld (Fd.AIN_DIAG_RES_SEQ n) = s.fld (Fd.AIN_DIAG_RES_SEQ n) := by
    rw [ht, fld_setFld_addr _ _ (by grind), fld_setFld_addr _ _ (by grind), fld_setFld_addr _ _ (by grind)]
  have hrp : t.fld (Fd.AIN_DIAG_RP_OHMS n) = rp % 2 ^ 20 := by
    rw [ht, fld_setFld_addr _ _ (by grind), fld_setFld_addr _ _ (by grind), fld_setFld_same _ _ _ (by simp)]
    rfl
  clear_value t
  rw [diagEnd_host (hta ▸ hd) hc hto, State.countWrap]
  refine ⟨?_, ?_, ?_, fun hl => ?_⟩
  · rw [ains_updAin_same]
  · rw [State.evt, reg_updAin]
    exact evt_raise _ _ (by decide)
  · rw [fld_updAin, fld_raise _ _ _ (by grind) (by grind) (by grind), fld_setFld_same _ _ _ (by simp),
      fld_setFld_bits _ _ (by simp) (by simp), hseq]
  · rw [fld_updAin, fld_raise _ _ _ (by grind) (by grind) (by grind), fld_setFld_addr _ _ (by grind), fld_setFld_addr _ _ (by grind),
      hrp, show rp = ohms r.rp from if_pos hl, ohms, Nat.mod_eq_of_lt (by omega)]

end Diagnosis

/-- Settles O14. -/
theorem diagnosisCommands : Obligations.DiagnosisCommands := by
  unfold Obligations.DiagnosisCommands
  exact ⟨fun n legs s => diagStart_after, fun n cls k s => diagBegin_oldest, fun n r legs s => diagPhaseDone_first,
    fun n r lim s => diagPhaseDone_last, fun n e r s => diagResult_after⟩

end Sys2Proof.Machine
end

section
/-!
PROOFS. Line and headphone outputs (09_line_headphone_jacks.md R217–R227): how they start and stop.
-/
namespace Sys2Proof.Machine

/-! ## Folds over the members of a family -/

/-- A fold in which the step of one member brings `P` about, and the steps of the others keep what it needs and what it brings. -/
theorem foldl_reaches {α : Type} {f : State → α → State} {x : α} {Q P : State → Prop} (before : ∀ t y, y ≠ x → Q t → Q (f t y))
    (step : ∀ t, Q t → P (f t x)) (after : ∀ t y, y ≠ x → P t → P (f t y)) {l : List α} (hl : l.Nodup) (hx : x ∈ l) {s : State}
    (hs : Q s) : P (l.foldl f s) := by
  have keeps : ∀ (l : List α) (t : State), x ∉ l → P t → P (l.foldl f t) := by
    intro l
    induction l with
    | nil => exact fun t _ h => h
    | cons y l ih => exact fun t h hP => ih _ (fun hm => h (.tail _ hm)) (after t y (fun e => h (e ▸ .head _)) hP)
  induction l generalizing s with
  | nil => cases hx
  | cons y l ih =>
    obtain ⟨hy, hn⟩ := List.nodup_cons.1 hl
    by_cases e : y = x
    · subst e
      exact keeps l _ hy (step s hs)
    · exact ih hn ((List.mem_cons.1 hx).resolve_left (Ne.symm e)) (before s y e hs)

/-! ## Gains -/

theorem gainAt_setGain (s : State) (a b : Nat) (g : Glide) : (s.setGain a g).gainAt b = if a = b then g else s.gainAt b := by
  rw [State.gainAt, State.setGain]
  exact sparseGet_set _ _ _ _ _ _ fun _ => rfl

theorem gainAt_of_gains {s t : State} (h : t.gains = s.gains) (a : Nat) : t.gainAt a = s.gainAt a := by
  rw [State.gainAt, State.gainAt, h]

theorem Quiet.setGain {R : Nat → Prop} {s t : State} (h : Quiet R s t) (a : Nat) (g : Glide) : Quiet R s (t.setGain a g) :=
  h.congr rfl rfl rfl

theorem mapOutGains_quiet {R : Nat → Prop} {s t : State} (h : Quiet R s t) (o : OutId) (f : Nat → Glide → Glide) :
    Quiet R s (t.mapOutGains o f) := h.trans (Quiet.foldl (fun _ _ => (Quiet.refl R _).setGain _ _) _ _)

theorem mapOutGains_outs (s : State) (o : OutId) (f : Nat → Glide → Glide) : (s.mapOutGains o f).outs = s.outs :=
  foldl_same State.outs (f := fun t a => t.setGain a (f a (t.gainAt a))) (fun _ _ => rfl) _ _

theorem reg_mapOutGains (s : State) (o : OutId) (f : Nat → Glide → Glide) (a : Nat) : (s.mapOutGains o f).reg a = s.reg a :=
  (mapOutGains_quiet (R := fun _ => False) (.refl _ s) o f).regs a id

theorem nodup_outGains (o : OutId) : (outGains o).Nodup := by
  cases o with
  | line n => simp [outGains]
  | hp h => simp [outGains]

theorem gainAt_mapOutGains (s : State) (o : OutId) (f : Nat → Glide → Glide) {a : Nat} (ha : a ∈ outGains o) :
    (s.mapOutGains o f).gainAt a = f a (s.gainAt a) := by
  refine foldl_reaches (Q := fun t => t.gainAt a = s.gainAt a) (P := fun t => t.gainAt a = f a (s.gainAt a)) ?_ ?_ ?_
    (nodup_outGains o) ha rfl
  · exact fun t y hy h => (gainAt_setGain _ _ _ _).trans ((if_neg hy).trans h)
  · exact fun t h => (gainAt_setGain _ _ _ _).trans ((if_pos rfl).trans (by rw [h]))
  · exact fun t y hy h => (gainAt_setGain _ _ _ _).trans ((if_neg hy).trans h)

/-! ## The state of an output -/

/-- The STATUS and the CTRL register of an output. -/
def outStatus : OutId → Nat
  | .line n => Adr.AOUT_STATUS n
  | .hp h => Adr.HP_STATUS h
def outCtrl : OutId → Nat
  | .line n => Adr.AOUT_CTRL n
  | .hp h => Adr.HP_CTRL h

theorem outStateFld_addr (o : OutId) : (outStateFld o).addr = outStatus o := by cases o <;> rfl

theorem outEnableFld_addr (o : OutId) : (outEnableFld o).addr = outCtrl o := by cases o <;> rfl

theorem outStateFld_bits (o : OutId) : (outStateFld o).lo ≤ (outStateFld o).hi ∧ (outStateFld o).hi < 32 := by
  cases o <;> simp [outStateFld]

theorem outEnableFld_bits (o : OutId) : (outEnableFld o).lo ≤ (outEnableFld o).hi ∧ (outEnableFld o).hi < 32 := by
  cases o <;> simp [outEnableFld]

theorem outCtrl_ne_status (o : OutId) : outCtrl o ≠ outStatus o := by
  cases o with
  | line n => simp only [outCtrl, outStatus]; grind
  | hp h => simp only [outCtrl, outStatus]; grind

theorem outStatus_ne_evt (o : OutId) (q : Nat) : outStatus o ≠ pageAddr q 0x010 := by
  cases o with
  | line n => simp only [outStatus]; grind
  | hp h => simp only [outStatus]; grind

theorem outCtrl_ne_evt (o : OutId) (q : Nat) : outCtrl o ≠ pageAddr q 0x010 := by
  cases o with
  | line n => simp only [outCtrl]; grind
  | hp h => simp only [outCtrl]; grind

/-- The registers of an output are none of page RING. -/
theorem outRegs_ne_ring (o : OutId) : (¬ RingRegs (outStatus o)) ∧ ¬ RingRegs (outCtrl o) := by
  cases o with
  | line n => simp only [outCtrl, outStatus, RingRegs]; grind
  | hp h => simp only [outCtrl, outStatus, RingRegs]; grind

theorem outStatus_page (o : OutId) : OfPages [outPage o] (outStatus o) := by
  cases o with
  | line n => exact .of_page (p := aoutPage n) (by simp [outPage]) (by simp only [outStatus]; grind)
  | hp h => exact .of_page (p := hpPage h) (by simp [outPage]) (by simp only [outStatus]; grind)

theorem outCtrl_page (o : OutId) : OfPages [outPage o] (outCtrl o) := by
  cases o with
  | line n => exact .of_page (p := aoutPage n) (by simp [outPage]) (by simp only [outCtrl]; grind)
  | hp h => exact .of_page (p := hpPage h) (by simp [outPage]) (by simp only [outCtrl]; grind)

theorem outState_of_reg {s t : State} {o : OutId} (h : t.reg (outStatus o) = s.reg (outStatus o)) : t.outState o = s.outState o := by
  rw [State.outState, State.outState, fld_of_reg (outStateFld_addr o ▸ h)]

theorem outState_setOutState (s : State) (o : OutId) (st : OutState) : (s.setOutState o st).outState o = st := by
  rw [State.outState, State.setOutState, fld_setFld_same _ _ _ (outStateFld_bits o)]
  cases o <;> cases st <;> rfl

theorem outState_setFld (s : State) {f : Fld} (v : Nat) (o : OutId) (hf : f.lo ≤ f.hi ∧ f.hi < 32)
    (h : f.addr ≠ outStatus o ∨ f.hi < (outStateFld o).lo ∨ (outStateFld o).hi < f.lo) :
    (s.setFld f v).outState o = s.outState o := by
  rw [State.outState, State.outState, fld_setFld_other _ _ hf (outStateFld_addr o ▸ h)]

theorem outState_updOut (s : State) (o p : OutId) (f : Out → Out) : (s.updOut o f).outState p = s.outState p :=
  outState_of_reg (reg_updOut _ _ _ _)

theorem outState_raise (s : State) (o : OutId) (q b : Nat) : (s.raise q b).outState o = s.outState o :=
  outState_of_reg (reg_raise _ _ _ (outStatus_ne_evt o q) (fun h => (outRegs_ne_ring o).1 (.inl h))
    fun h => (outRegs_ne_ring o).1 (.inr h))

theorem outState_mapOutGains (s : State) (o p : OutId) (f : Nat → Glide → Glide) : (s.mapOutGains o f).outState p = s.outState p :=
  outState_of_reg (reg_mapOutGains _ _ _ _)

theorem outs_updOut_same (s : State) (o : OutId) (f : Out → Out) : (s.updOut o f).outs[outIndex o] = f s.outs[outIndex o] :=
  getElem_set_same s.outs (outIndex o) _

theorem outs_updOut_ne (s : State) {o p : OutId} (f : Out → Out) (h : outIndex o ≠ outIndex p) :
    (s.updOut o f).outs[outIndex p] = s.outs[outIndex p] := getElem_set_ne s.outs _ h

theorem outStep_setOutStep (s : State) (o : OutId) (st : OutStep) : (s.setOutStep o st).outStep o = st := by
  rw [State.outStep, State.setOutStep, outs_updOut_same]

theorem outIndex_hp_ne {h k : Fin 4} (e : h ≠ k) : outIndex (.hp h) ≠ outIndex (.hp k) := by
  intro x
  exact e (Fin.ext (by simpa [outIndex] using x))

theorem setOutStep_quiet {R : Nat → Prop} {s t : State} (h : Quiet R s t) (o : OutId) (st : OutStep) : Quiet R s (t.setOutStep o st) :=
  h.updOut o _

theorem setOutState_quiet {R : Nat → Prop} {s t : State} (h : Quiet R s t) (o : OutId) (st : OutState) (hR : R (outStatus o)) :
    Quiet R s (t.setOutState o st) := h.setFld _ (outStateFld_addr o ▸ hR)

theorem outStep_setOutState (s : State) (o p : OutId) (st : OutState) : (s.setOutState o st).outStep p = s.outStep p := by
  rw [State.outStep, State.setOutState, setFld_outs]

theorem outState_setOutStep (s : State) (o p : OutId) (st : OutStep) : (s.setOutStep o st).outState p = s.outState p :=
  outState_updOut _ _ _ _

theorem gains_setOutState (s : State) (o : OutId) (st : OutState) : (s.setOutState o st).gains = s.gains := setFld_gains _ _ _

theorem gains_setOutStep (s : State) (o : OutId) (st : OutStep) : (s.setOutStep o st).gains = s.gains := rfl

theorem cpOn_setOutState (s : State) (o : OutId) (st : OutState) : (s.setOutState o st).cpOn = s.cpOn := setFld_cpOn _ _ _

theorem cpOn_setOutStep (s : State) (o : OutId) (st : OutStep) : (s.setOutStep o st).cpOn = s.cpOn := rfl

/-! ## ENABLE (R226) -/

section Enable
variable {o : OutId} {s : State}

theorem outState_enable (s : State) (o : OutId) (v : Nat) : (s.setFld (outEnableFld o) v).outState o = s.outState o :=
  outState_setFld _ _ _ (outEnableFld_bits o) (.inl (outEnableFld_addr o ▸ outCtrl_ne_status o))

theorem flag_enable (s : State) (o : OutId) (b : Bool) : (s.setFld (outEnableFld o) (bit b)).flag (outEnableFld o) = b := by
  rw [State.flag, fld_setFld_same _ _ _ (outEnableFld_bits o)]
  cases o <;> cases b <;> rfl

theorem flag_enable_of_status {s t : State} {o : OutId} (h : Quiet (· = outStatus o) s t) :
    t.flag (outEnableFld o) = s.flag (outEnableFld o) := by
  rw [State.flag, fld_of_reg (h.regs _ (outEnableFld_addr o ▸ outCtrl_ne_status o))]

theorem enable_quiet (s : State) (o : OutId) (v : Nat) : Quiet (· = outCtrl o) s (s.setFld (outEnableFld o) v) :=
  .setFld (.refl _ s) _ (outEnableFld_addr o)

/-- Of an output, ENABLE and what follows of it. -/
theorem enable_trans {v : Nat} {t u : State} (ht : s.setFld (outEnableFld o) v = t) (h : Quiet (· = outStatus o) t u) :
    Quiet (fun a => a = outCtrl o ∨ a = outStatus o) s u :=
  .trans ((ht ▸ enable_quiet s o v).mono fun _ h => .inl h) (h.mono fun _ h => .inr h)

theorem outEnWrite_start (he : s.flag (outEnableFld o) = false) (hs : s.outState o = .off) :
    s.outEnWrite o true = (s.setFld (outEnableFld o) (bit true)).outStart o := by
  unfold State.outEnWrite
  rw [if_neg (by simp), he, if_neg (by decide)]
  dsimp only
  rw [outState_enable, hs]

theorem outEnWrite_stop (he : s.flag (outEnableFld o) = true) (hs : s.outState o = .ready) :
    s.outEnWrite o false = (((s.setFld (outEnableFld o) (bit false)).setOutState o .stopping).setOutStep o .glide).mapOutGains o
      fun _ g => g.aim .mute 32 := by
  unfold State.outEnWrite
  rw [hs, if_neg (by decide), he, if_neg (by decide)]
  dsimp only
  rw [outState_enable, hs]

theorem outputEnable_line {n : Fin 16} (hp : s.pageTakes (aoutPage n) = true) (he : s.flag (Fd.AOUT_CTRL_ENABLE n) = false)
    (hs : s.outState (.line n) = .off) :
    After (exec (.outputEnable (.line n)) s) fun t => t.flag (Fd.AOUT_CTRL_ENABLE n) = true
      ∧ t.outState (.line n) = .starting ∧ t.outStep (.line n) = .ramp
      ∧ Quiet (fun a => a = Adr.AOUT_CTRL n ∨ a = Adr.AOUT_STATUS n) s t := by
  refine .of_eq ((next_pos hp).trans (next_eq (outEnWrite_start he hs))) ?_
  unfold State.outStart
  dsimp only
  generalize hu : s.setFld (outEnableFld (.line n)) (bit true) = u
  have hq : Quiet (· = outStatus (.line n)) u ((u.setOutState (.line n) .starting).setOutStep (.line n) .ramp) :=
    setOutStep_quiet (setOutState_quiet (.refl (· = outStatus _) u) _ _ rfl) _ _
  refine ⟨?_, ?_, outStep_setOutStep _ _ _, enable_trans (o := .line n) hu hq⟩
  · exact (flag_enable_of_status hq).trans (hu ▸ flag_enable s _ true)
  · exact (outState_updOut _ _ _ _).trans (outState_setOutState _ _ _)

/-- `s` with another command of the charge pump. -/
def State.withCpOn (s : State) (x : Bool) : State := { s with cpOn := x }

theorem Quiet.withCpOn {R : Nat → Prop} {s t : State} (h : Quiet R s t) (x : Bool) : Quiet R s (t.withCpOn x) := h.congr rfl rfl rfl

theorem outState_withCpOn (s : State) (x : Bool) (o : OutId) : (s.withCpOn x).outState o = s.outState o :=
  outState_of_reg (reg_of_regs rfl _)

theorem outStart_hp (s : State) (h : Fin 4) : s.outStart (.hp h)
    = if s.flag (Fd.HP_STATUS_CP_OK h) then (s.setOutState (.hp h) .starting).setOutStep (.hp h) .settle
      else ((s.setOutState (.hp h) .starting).setOutStep (.hp h) .ramp).withCpOn true := by
  unfold State.outStart
  dsimp only
  have hok : (s.setOutState (.hp h) .starting).flag (Fd.HP_STATUS_CP_OK h) = s.flag (Fd.HP_STATUS_CP_OK h) := by
    rw [State.flag, State.setOutState, fld_setFld_bits _ _ (outStateFld_bits _) (by simp [outStateFld])]
  rw [hok]
  rfl

theorem cpOk_enable (s : State) (h : Fin 4) (v : Nat) :
    (s.setFld (outEnableFld (.hp h)) v).flag (Fd.HP_STATUS_CP_OK h) = s.flag (Fd.HP_STATUS_CP_OK h) := by
  rw [State.flag, outEnableFld, fld_setFld_addr _ _ (by grind)]

theorem outputEnable_pump {h : Fin 4} (hp : s.pageTakes (hpPage h) = true) (he : s.flag (Fd.HP_CTRL_ENABLE h) = false)
    (hs : s.outState (.hp h) = .off) (hc : s.flag (Fd.HP_STATUS_CP_OK h) = false) :
    After (exec (.outputEnable (.hp h)) s) fun t => t.flag (Fd.HP_CTRL_ENABLE h) = true ∧ t.outState (.hp h) = .starting
      ∧ t.outStep (.hp h) = .ramp ∧ t.cpOn = true ∧ Quiet (fun a => a = Adr.HP_CTRL h ∨ a = Adr.HP_STATUS h) s t := by
  generalize hu : s.setFld (outEnableFld (.hp h)) (bit true) = u
  have e : s.outEnWrite (.hp h) true = ((u.setOutState (.hp h) .starting).setOutStep (.hp h) .ramp).withCpOn true := by
    rw [outEnWrite_start (o := .hp h) he hs, hu, outStart_hp, if_neg]
    rw [← hu, cpOk_enable, hc]
    decide
  have hw : Quiet (· = outStatus (.hp h)) u (((u.setOutState (.hp h) .starting).setOutStep (.hp h) .ramp).withCpOn true) :=
    (setOutStep_quiet (setOutState_quiet (.refl (· = outStatus _) u) _ _ rfl) _ _).withCpOn _
  refine .of_eq ((next_pos hp).trans (next_eq e)) ⟨?_, ?_, ?_, rfl, enable_trans (o := .hp h) hu hw⟩
  · exact (flag_enable_of_status hw).trans (hu ▸ flag_enable s _ true)
  · rw [outState_withCpOn, outState_setOutStep, outState_setOutState]
  · exact outStep_setOutStep (u.setOutState (.hp h) .starting) (.hp h) .ramp

theorem outputEnable_settles {h : Fin 4} (hp : s.pageTakes (hpPage h) = true) (he : s.flag (Fd.HP_CTRL_ENABLE h) = false)
    (hs : s.outState (.hp h) = .off) (hc : s.flag (Fd.HP_STATUS_CP_OK h) = true) :
    After (exec (.outputEnable (.hp h)) s) fun t => t.flag (Fd.HP_CTRL_ENABLE h) = true ∧ t.outState (.hp h) = .starting
      ∧ t.outStep (.hp h) = .settle ∧ t.cpOn = s.cpOn ∧ Quiet (fun a => a = Adr.HP_CTRL h ∨ a = Adr.HP_STATUS h) s t := by
  generalize hu : s.setFld (outEnableFld (.hp h)) (bit true) = u
  have e : s.outEnWrite (.hp h) true = (u.setOutState (.hp h) .starting).setOutStep (.hp h) .settle := by
    rw [outEnWrite_start (o := .hp h) he hs, hu, outStart_hp, if_pos]
    rw [← hu, cpOk_enable, hc]
  have hw : Quiet (· = outStatus (.hp h)) u ((u.setOutState (.hp h) .starting).setOutStep (.hp h) .settle) :=
    setOutStep_quiet (setOutState_quiet (.refl (· = outStatus _) u) _ _ rfl) _ _
  refine .of_eq ((next_pos hp).trans (next_eq e)) ⟨?_, ?_, outStep_setOutStep _ _ _, ?_, enable_trans (o := .hp h) hu hw⟩
  · exact (flag_enable_of_status hw).trans (hu ▸ flag_enable s _ true)
  · exact (outState_setOutStep _ _ _ _).trans (outState_setOutState _ _ _)
  · rw [cpOn_setOutStep, cpOn_setOutState, ← hu, setFld_cpOn]

theorem outputDisable_ready (hp : s.pageTakes (outPage o) = true) (he : s.flag (outEnableFld o) = true) (hs : s.outState o = .ready) :
    After (exec (.outputDisable o) s) fun t => Quiet (OfPages [outPage o]) s t
      ∧ t.flag (outEnableFld o) = false ∧ t.outState o = .stopping ∧ t.outStep o = .glide
      ∧ ∀ a ∈ outGains o, t.gainAt a = (s.gainAt a).aim .mute 32 := by
  refine .of_eq ((next_pos hp).trans (next_eq (outEnWrite_stop he hs))) ?_
  generalize hu : s.setFld (outEnableFld o) (bit false) = u
  have hq : Quiet (· = outStatus o) u ((u.setOutState o .stopping).setOutStep o .glide) :=
    setOutStep_quiet (setOutState_quiet (.refl (· = outStatus _) u) _ _ rfl) _ _
  have hst : ((u.setOutState o .stopping).setOutStep o .glide).outState o = .stopping :=
    (outState_updOut _ _ _ _).trans (outState_setOutState _ _ _)
  have hsp := outStep_setOutStep (u.setOutState o .stopping) o .glide
  have hg : ((u.setOutState o .stopping).setOutStep o .glide).gains = s.gains := by
    rw [gains_setOutStep, gains_setOutState, ← hu, setFld_gains]
  generalize (u.setOutState o .stopping).setOutStep o .glide = v at *
  have hw := mapOutGains_quiet hq o fun _ g => g.aim .mute 32
  refine ⟨?_, ?_, ?_, ?_, fun a ha => ?_⟩
  · refine (enable_trans hu hw).mono ?_
    rintro a (rfl | rfl)
    · exact outCtrl_page o
    · exact outStatus_page o
  · exact (flag_enable_of_status hw).trans (hu ▸ flag_enable s o false)
  · rw [outState_mapOutGains, hst]
  · rw [State.outStep, mapOutGains_outs]
    exact hsp
  · rw [gainAt_mapOutGains _ _ _ ha, gainAt_of_gains hg]

theorem outputDisable_starting {n : Fin 16} (hp : s.pageTakes (aoutPage n) = true) (he : s.flag (Fd.AOUT_CTRL_ENABLE n) = true)
    (hs : s.outState (.line n) = .starting) :
    After (exec (.outputDisable (.line n)) s) fun t =>
      t.flag (Fd.AOUT_CTRL_ENABLE n) = false ∧ t.outState (.line n) = .stopping ∧ t.outStep (.line n) = .down
      ∧ Quiet (fun a => a = Adr.AOUT_CTRL n ∨ a = Adr.AOUT_STATUS n) s t := by
  have e : s.outEnWrite (.line n) false
      = ((s.setFld (outEnableFld (.line n)) (bit false)).setOutState (.line n) .stopping).setOutStep (.line n) .down := by
    unfold State.outEnWrite
    rw [hs, if_neg (by decide), show s.flag (outEnableFld (.line n)) = true from he, if_neg (by decide)]
    dsimp only
    rw [outState_enable, hs]
  refine .of_eq ((next_pos hp).trans (next_eq e)) ?_
  generalize hu : s.setFld (outEnableFld (.line n)) (bit false) = u
  have hq : Quiet (· = outStatus (.line n)) u ((u.setOutState (.line n) .stopping).setOutStep (.line n) .down) :=
    setOutStep_quiet (setOutState_quiet (.refl (· = outStatus _) u) _ _ rfl) _ _
  refine ⟨?_, ?_, outStep_setOutStep _ _ _, enable_trans (o := .line n) hu hq⟩
  · exact (flag_enable_of_status hq).trans (hu ▸ flag_enable s _ false)
  · exact (outState_updOut _ _ _ _).trans (outState_setOutState _ _ _)

end Enable

end Sys2Proof.Machine
end

section
/-!
PROOFS. The charge pump, and the settling and the end of an output (09_line_headphone_jacks.md R218, R226).
-/
namespace Sys2Proof.Machine

section Rails
variable {s : State}

/-! ## The charge pump -/

theorem hpStatus_ne {h k : Fin 4} (e : h ≠ k) : Adr.HP_STATUS h ≠ Adr.HP_STATUS k := by
  have := fun x => e (Fin.ext x)
  grind

theorem setCpOk_quiet (s : State) (b : Bool) : Quiet (fun a => ∃ h : Fin 4, a = Adr.HP_STATUS h) s (s.setCpOk b) :=
  Quiet.foldl (fun _ h => .setFld (.refl _ _) _ ⟨h, rfl⟩) _ _

theorem setCpOk_outs (s : State) (b : Bool) : (s.setCpOk b).outs = s.outs :=
  foldl_same State.outs (fun _ _ => setFld_outs _ _ _) _ _

theorem setCpOk_flag (s : State) (b : Bool) (h : Fin 4) : (s.setCpOk b).flag (Fd.HP_STATUS_CP_OK h) = b := by
  refine foldl_reaches (Q := fun _ => True) (P := fun t => t.flag (Fd.HP_STATUS_CP_OK h) = b) (fun _ _ _ _ => trivial) ?_ ?_
    (List.nodup_finRange 4) (List.mem_finRange h) trivial
  · intro t _
    rw [State.flag, fld_setFld_same _ _ _ (by simp)]
    cases b <;> rfl
  · intro t k hk hf
    rw [State.flag, fld_setFld_addr _ _ (hpStatus_ne hk)]
    exact hf

theorem outState_setCpOk (s : State) (b : Bool) (h : Fin 4) : (s.setCpOk b).outState (.hp h) = s.outState (.hp h) :=
  foldl_same (fun t => t.outState (.hp h)) (fun _ _ => outState_setFld _ _ _ (by simp) (.inr (by simp [outStateFld]))) _ _

theorem chargePumpReady_after (hd : s.domOn Dm.HP = true) (hc : s.cpOn = true) (hk : s.flag (Fd.HP_STATUS_CP_OK 0) = false) :
    After (exec .chargePumpReady s) fun t => (∀ h : Fin 4, t.flag (Fd.HP_STATUS_CP_OK h) = true
      ∧ (s.outState (.hp h) = .starting → s.outStep (.hp h) = .ramp → t.outStep (.hp h) = .settle))
      ∧ Quiet (fun a => ∃ h : Fin 4, a = Adr.HP_STATUS h) s t := by
  refine .of_eq (next_pos (by rw [hd, hc, hk]; rfl)) ⟨fun h => ⟨?_, fun hs hp => ?_⟩, ?_⟩
  · refine Eq.trans (foldl_same (fun t => t.flag (Fd.HP_STATUS_CP_OK h)) (fun t k => ?_) _ _) (setCpOk_flag s true h)
    split
    · rw [State.flag, State.setOutStep, fld_updOut]
    · rfl
  · refine foldl_reaches (Q := fun t => t.outState (.hp h) = .starting ∧ t.outStep (.hp h) = .ramp)
      (P := fun t => t.outStep (.hp h) = .settle) ?_ ?_ ?_ (List.nodup_finRange 4) (List.mem_finRange h) ?_
    · rintro t k hk ⟨h1, h2⟩
      split
      · rw [outState_setOutStep, State.outStep, State.setOutStep, outs_updOut_ne _ _ (outIndex_hp_ne hk)]
        exact ⟨h1, h2⟩
      · exact ⟨h1, h2⟩
    · rintro t ht
      rw [if_pos ht, outStep_setOutStep]
    · rintro t k hk h1
      split
      · rw [State.outStep, State.setOutStep, outs_updOut_ne _ _ (outIndex_hp_ne hk)]
        exact h1
      · exact h1
    · rw [outState_setCpOk, State.outStep, setCpOk_outs]
      exact ⟨hs, hp⟩
  · refine .trans (setCpOk_quiet s true) (Quiet.foldl (fun t k => ?_) _ _)
    split
    · exact setOutStep_quiet (.refl _ t) _ _
    · exact .refl _ t

theorem chargePumpStop_eq (hc : s.cpOn = true) (hs : ∀ h : Fin 4, s.outState (.hp h) = .off) :
    exec .chargePumpStop s = .next ((s.setCpOk false).withCpOn false) := by
  refine next_pos ?_
  rw [hc, Bool.true_and, List.all_eq_true]
  exact fun h _ => by rw [hs h]; rfl

theorem fld_withCpOn (s : State) (x : Bool) (f : Fld) : (s.withCpOn x).fld f = s.fld f := fld_of_reg (reg_of_regs rfl _)

theorem chargePumpStop_after (hc : s.cpOn = true) (hs : ∀ h : Fin 4, s.outState (.hp h) = .off) :
    After (exec .chargePumpStop s) fun t => t.cpOn = false ∧ (∀ h : Fin 4, t.flag (Fd.HP_STATUS_CP_OK h) = false)
      ∧ Quiet (fun a => ∃ h : Fin 4, a = Adr.HP_STATUS h) s t := by
  refine .of_eq (chargePumpStop_eq hc hs) ⟨rfl, fun h => ?_, (setCpOk_quiet s false).withCpOn false⟩
  rw [State.flag, fld_withCpOn]
  exact setCpOk_flag s false h

/-! ## Settling (R218) -/

theorem outTarget_of_reg {t : State} {a : Nat} (h : t.reg a = s.reg a) : t.outTarget a = s.outTarget a := by
  rw [State.outTarget, h]

/-- The registers of a line output's gain and of a headphone output's, among those that settling leaves. -/
theorem line_apart {n : Fin 16} {a : Nat} (h : a = Adr.AOUT_GAIN n ∨ a = Adr.AOUT_GLIDE n) :
    ¬ (a = Adr.AOUT_STATUS n ∨ StatusOf [aoutPage n] a) := by
  rintro (g | ⟨q, hq, g⟩ | g | g) <;> grind

theorem hp_apart {h : Fin 4} {a : Nat} (ha : a = Adr.HP_GAIN h 0 ∨ a = Adr.HP_GAIN h 1 ∨ a = Adr.HP_GLIDE h) :
    ¬ (a = Adr.HP_STATUS h ∨ StatusOf [hpPage h] a) := by
  rintro (g | ⟨q, hq, g⟩ | g | g) <;> grind

theorem outGains_apart {o : OutId} {a : Nat} (ha : a ∈ outGains o) : ¬ (a = outStatus o ∨ StatusOf [outPage o] a) := by
  cases o with
  | line n => exact line_apart (.inl (List.mem_singleton.1 ha))
  | hp h => exact hp_apart ((List.mem_cons.1 ha).imp_right fun h => .inl (List.mem_singleton.1 h))

theorem outGlide_of_frame {o : OutId} {t : State} (h : Frame (fun a => a = outStatus o ∨ StatusOf [outPage o] a) s t) :
    t.outGlide o = s.outGlide o := by
  cases o with
  | line n => exact fld_of_reg (h.regs _ (line_apart (.inr rfl)))
  | hp k => exact fld_of_reg (h.regs _ (hp_apart (.inr (.inr rfl))))

/-- What an output is when it has settled: its gains glide from mute to their targets. -/
theorem settled_after (s : State) (o : OutId) {t u : State}
    (ht : ((s.setOutState o .ready).setOutStep o .none).raise (outPage o) OutEv.READY = t)
    (hu : (t.mapOutGains o fun a _ => muteGlide.aim (t.outTarget a) (t.outGlide o)) = u) :
    u.outState o = .ready ∧ u.outStep o = .none ∧ u.evt (outPage o) OutEv.READY = true
      ∧ (∀ a ∈ outGains o, u.gainAt a = muteGlide.aim (s.outTarget a) (s.outGlide o))
      ∧ Frame (fun a => a = outStatus o ∨ StatusOf [outPage o] a) s u := by
  have hf : Frame (fun a => a = outStatus o ∨ StatusOf [outPage o] a) s t :=
    ht ▸ .raise (setOutStep_quiet (setOutState_quiet (.refl _ s) _ _ (.inl rfl)) _ _).frame _ fun _ h => .inr h
  have hst : t.outState o = .ready := by rw [← ht, outState_raise, outState_setOutStep, outState_setOutState]
  have hsp : t.outStep o = .none := by rw [← ht, State.outStep, raise_outs, ← State.outStep, outStep_setOutStep]
  have hev : t.evt (outPage o) OutEv.READY = true := ht ▸ evt_raise _ _ (by decide)
  refine ⟨?_, ?_, ?_, fun a ha => ?_, ?_⟩
  · rw [← hu, outState_mapOutGains, hst]
  · rw [← hu, State.outStep, mapOutGains_outs]
    exact hsp
  · rw [← hu, State.evt, reg_mapOutGains]
    exact hev
  · rw [← hu, gainAt_mapOutGains _ _ _ ha, outTarget_of_reg (hf.regs _ (outGains_apart ha)), outGlide_of_frame hf]
  · exact hu ▸ hf.trans (mapOutGains_quiet (.refl _ t) _ _).frame

theorem outputSettleDone_line {n : Fin 16} (hu : s.outUp (.line n) = true) (hs : s.outState (.line n) = .starting)
    (hp : s.outStep (.line n) = .settle) :
    After (exec (.outputSettleDone (.line n)) s) fun t => t.outState (.line n) = .ready ∧ t.outStep (.line n) = .none
      ∧ t.evt (aoutPage n) OutEv.READY = true
      ∧ t.gainAt (Adr.AOUT_GAIN n) = muteGlide.aim (s.outTarget (Adr.AOUT_GAIN n)) (s.outGlide (.line n))
      ∧ Frame (fun a => a = Adr.AOUT_STATUS n ∨ StatusOf [aoutPage n] a) s t := by
  obtain ⟨h1, h2, h3, h4, h5⟩ := settled_after s (.line n) rfl rfl
  exact .of_eq (next_pos (by rw [hu, hs, hp]; rfl)) ⟨h1, h2, h3, h4 _ (List.mem_singleton.2 rfl), h5⟩

/-- `s` with another queue of the test DAC. -/
def State.withTdacQ (s : State) (q : List (Nat × TdacUser)) : State := { s with tdacQ := q }

/-- A load test that waits for its output joins the queue: outputs, gains and registers stay. -/
theorem loadQueue_cases (s : State) (h : Fin 4) {P : State → Prop} (h0 : P s)
    (h1 : ∀ f x, P ((s.updJack (hpJack h) f).tdacEnqueue x)) : P (s.loadQueue h) := by
  unfold State.loadQueue
  dsimp only
  split
  · split
    · exact h1 _ _
    · exact h0
  all_goals exact h0

theorem tdacEnqueue_cases (s : State) (x : TdacUser) {P : State → Prop} (h0 : P s) (h1 : ∀ q, P (s.withTdacQ q)) :
    P (s.tdacEnqueue x) := by
  unfold State.tdacEnqueue
  split
  · exact h0
  · exact h1 _

/-- Of registers, memory, outputs and gains, `t` is `s`. -/
def Aside (s t : State) : Prop := Quiet (fun _ => False) s t ∧ t.outs = s.outs ∧ t.gains = s.gains

theorem hpFade_cases (s : State) (h : Fin 4) {P : State → Prop} (h0 : P s)
    (h1 : P (s.updOut (.hp h) fun o => { o with phase := .out 32, level := o.level.aim .mute 32 })) : P (s.hpFade h) := by
  unfold State.hpFade
  split
  · split
    · exact h1
    · exact h1
    · exact h0
    · exact h0
  · exact h0

/-- What follows for a headphone output that is READY: a load test may join the queue and a fade may begin. -/
theorem hpReady_after (s : State) (h : Fin 4) : ((s.loadQueue h).hpFade h).outState (.hp h) = s.outState (.hp h)
    ∧ ((s.loadQueue h).hpFade h).outStep (.hp h) = s.outStep (.hp h) ∧ ((s.loadQueue h).hpFade h).gains = s.gains
    ∧ (∀ q b, ((s.loadQueue h).hpFade h).evt q b = s.evt q b) ∧ Quiet (fun _ => False) s ((s.loadQueue h).hpFade h) := by
  have hq : Aside s (s.loadQueue h) :=
    loadQueue_cases s h (P := Aside s) ⟨.refl _ s, rfl, rfl⟩ fun f x => tdacEnqueue_cases _ _ (P := Aside s)
      ⟨.same rfl rfl rfl, rfl, rfl⟩ fun q => ⟨.same rfl rfl rfl, rfl, rfl⟩
  obtain ⟨h1, h2, h3⟩ := hq
  generalize s.loadQueue h = t at *
  have hf : Quiet (fun _ => False) s (t.hpFade h) ∧ (t.hpFade h).outStep (.hp h) = t.outStep (.hp h) ∧ (t.hpFade h).gains = t.gains :=
    hpFade_cases t h (P := fun u => Quiet (fun _ => False) s u ∧ u.outStep (.hp h) = t.outStep (.hp h) ∧ u.gains = t.gains)
      ⟨h1, rfl, rfl⟩ ⟨h1.updOut _ _, by rw [State.outStep, outs_updOut_same], rfl⟩
  obtain ⟨g1, g2, g3⟩ := hf
  refine ⟨outState_of_reg (g1.regs _ id), ?_, g3.trans h3, fun q b => ?_, g1⟩
  · rw [g2, State.outStep, h2]
  · rw [State.evt, State.evt, g1.regs _ id]

theorem mem_outGains_hp : ∀ (h : Fin 4) (k : Fin 2), Adr.HP_GAIN h k ∈ outGains (.hp h) := by decide

theorem outputSettleDone_hp {h : Fin 4} (hu : s.outUp (.hp h) = true) (hs : s.outState (.hp h) = .starting)
    (hp : s.outStep (.hp h) = .settle) :
    After (exec (.outputSettleDone (.hp h)) s) fun t => t.outState (.hp h) = .ready ∧ t.outStep (.hp h) = .none
      ∧ t.evt (hpPage h) OutEv.READY = true ∧ (∀ k : Fin 2,
        t.gainAt (Adr.HP_GAIN h k) = muteGlide.aim (s.outTarget (Adr.HP_GAIN h k)) (s.outGlide (.hp h)))
      ∧ Frame (fun a => a = Adr.HP_STATUS h ∨ StatusOf [hpPage h] a) s t := by
  obtain ⟨h1, h2, h3, h4, h5⟩ := settled_after s (.hp h) rfl rfl
  refine .of_eq (next_pos (by rw [hu, hs, hp]; rfl)) ?_
  dsimp only
  obtain ⟨g1, g2, g3, g4, g5⟩ := hpReady_after (((((s.setOutState (.hp h) .ready).setOutStep (.hp h) .none).raise (outPage (.hp h))
    OutEv.READY)).mapOutGains (.hp h) fun a _ => muteGlide.aim ((((s.setOutState (.hp h) .ready).setOutStep (.hp h) .none).raise
    (outPage (.hp h)) OutEv.READY).outTarget a) ((((s.setOutState (.hp h) .ready).setOutStep (.hp h) .none).raise
    (outPage (.hp h)) OutEv.READY).outGlide (.hp h))) h
  refine ⟨g1.trans h1, g2.trans h2, (g4 _ _).trans h3, fun k => (gainAt_of_gains g3 _).trans (h4 _ (mem_outGains_hp h k)), h5.trans (g5.mono nofun).frame⟩
/-! ## The end of a stop (R226) -/

theorem outputStopGlideDone_line {n : Fin 16} (hs : s.outState (.line n) = .stopping) (hp : s.outStep (.line n) = .glide)
    (hg : (s.gainAt (Adr.AOUT_GAIN n)).left = 0) :
    exec (.outputStopGlideDone (.line n)) s = .next (s.updOut (.line n) fun q => { q with step := .down }) :=
  next_pos (by rw [hs, hp, State.gainFallen, outGains, List.all_cons, hg]; rfl)

theorem outputStopGlideDone_hp {h : Fin 4} (hs : s.outState (.hp h) = .stopping) (hp : s.outStep (.hp h) = .glide)
    (h0 : (s.gainAt (Adr.HP_GAIN h 0)).left = 0) (h1 : (s.gainAt (Adr.HP_GAIN h 1)).left = 0) :
    exec (.outputStopGlideDone (.hp h)) s = .next (s.outOff (.hp h)) :=
  next_pos (by rw [hs, hp, State.gainFallen, outGains, List.all_cons, List.all_cons, h0, h1]; rfl)

theorem cfgPend_mapOutGains (s : State) (o : OutId) (f : Nat → Glide → Glide) : (s.mapOutGains o f).cfgPend = s.cfgPend :=
  foldl_same State.cfgPend (f := fun t a => t.setGain a (f a (t.gainAt a))) (fun _ _ => rfl) _ _

/-- What an output holds at rest in OFF. -/
def Out.rest (q : Out) : Out :=
  { q with step := .none, phase := .opened, level := Glide.at (.db 0 1), a := 0, b := 0, servo := 0, dc := 0, ia := 0, ib := 0 }

theorem outRest_line (s : State) (n : Fin 16) : s.outRest (.line n)
    = (((s.setOutState (.line n) .off).updOut (.line n) Out.rest).mapOutGains (.line n) fun _ _ => muteGlide).outCfgApply n := rfl

theorem cfgPend_setOutState (s : State) (o : OutId) (st : OutState) : (s.setOutState o st).cfgPend = s.cfgPend := setFld_cfgPend _ _ _

theorem cfgPend_updOut (s : State) (o : OutId) (f : Out → Out) : (s.updOut o f).cfgPend = s.cfgPend := rfl

theorem outCfgApply_none {n : Fin 16} (h : s.holds (· == Adr.AOUT_CTRL n) = false) : s.outCfgApply n = s := by
  unfold State.outCfgApply
  rw [List.filter_eq_nil_iff.2 fun e he => List.any_eq_false.1 h e he]
  rfl

/-- A line output without a held CTRL at rest in OFF. -/
theorem outRest_after {n : Fin 16} (hh : s.holds (· == Adr.AOUT_CTRL n) = false) :
    (s.outRest (.line n)).outState (.line n) = .off ∧ (s.outRest (.line n)).gainAt (Adr.AOUT_GAIN n) = muteGlide
      ∧ Quiet (· = outStatus (.line n)) s (s.outRest (.line n)) := by
  have hq : Quiet (· = outStatus (.line n)) s ((s.setOutState (.line n) .off).updOut (.line n) Out.rest) :=
    (setOutState_quiet (.refl (· = outStatus (.line n)) s) _ .off rfl).updOut _ _
  rw [outRest_line, outCfgApply_none]
  · refine ⟨?_, gainAt_mapOutGains _ _ _ (List.mem_singleton.2 rfl), mapOutGains_quiet hq _ _⟩
    rw [outState_mapOutGains, outState_updOut, outState_setOutState]
  · rw [State.holds, cfgPend_mapOutGains, cfgPend_updOut, cfgPend_setOutState]
    exact hh

theorem lineRailDownDone_after {n : Fin 16} (hs : s.outState (.line n) = .stopping) (hp : s.outStep (.line n) = .down)
    (he : s.flag (Fd.AOUT_CTRL_ENABLE n) = false) (hh : s.holds (· == Adr.AOUT_CTRL n) = false) :
    After (exec (.lineRailDownDone n) s) fun t => t.outState (.line n) = .off ∧ t.evt (aoutPage n) OutEv.OFF = true
      ∧ t.gainAt (Adr.AOUT_GAIN n) = muteGlide ∧ Frame (fun a => a = Adr.AOUT_STATUS n ∨ StatusOf [aoutPage n] a) s t := by
  obtain ⟨h1, h2, h3⟩ := outRest_after hh
  have hen : ((s.outRest (.line n)).raise (aoutPage n) OutEv.OFF).flag (Fd.AOUT_CTRL_ENABLE n) = false := by
    rw [State.flag, fld_raise _ _ _ (by grind) (by grind) (by grind)]
    exact (flag_enable_of_status h3).trans he
  have e : s.outOff (.line n) = (s.outRest (.line n)).raise (aoutPage n) OutEv.OFF := by
    unfold State.outOff
    exact if_neg (by rw [outEnableFld]; exact Bool.eq_false_iff.1 hen)
  refine .of_eq (next_pos (by rw [hs, hp]; rfl)) ?_
  rw [e]
  refine ⟨?_, evt_raise _ _ (by decide), ?_, .raise (h3.mono fun _ h => .inl h).frame _ fun _ h => .inr h⟩
  · rw [outState_raise, h1]
  · rw [gainAt_of_gains (raise_gains _ _ _), h2]

end Rails

/-- Settles O15. -/
theorem outputStateCommands : Obligations.OutputStateCommands := by
  unfold Obligations.OutputStateCommands
  exact ⟨fun n s => outputEnable_line, fun h s => outputEnable_pump, fun h s => outputEnable_settles, fun o s => outputDisable_ready,
    fun n s => outputDisable_starting, fun n s hu hs hp => next_pos (by rw [hu, hs, hp]; rfl), fun s => chargePumpReady_after,
    fun n s => outputSettleDone_line, fun h s => outputSettleDone_hp, fun n s => outputStopGlideDone_line,
    fun h s => outputStopGlideDone_hp, fun n s => lineRailDownDone_after, fun s => chargePumpStop_after⟩

end Sys2Proof.Machine
end

section
/-!
PROOFS. Limits, faults, internal fades, the microphone route and the buttons of outputs (09_line_headphone_jacks.md R219–R225).
-/
namespace Sys2Proof.Machine

section Faults
variable {s : State}

/-! ## Faults (R220, R223) -/

theorem outputLimitTimeout_line {n : Fin 16} (hl : s.outLive (.line n) = true) :
    After (exec (.outputLimitTimeout (.line n)) s) fun t =>
    t.outState (.line n) = .fault ∧ t.evt (aoutPage n) OutEv.FAULT = true
      ∧ t.gainAt (Adr.AOUT_GAIN n) = (s.gainAt (Adr.AOUT_GAIN n)).aim .mute 32
      ∧ Frame (fun a => a = Adr.AOUT_STATUS n ∨ StatusOf [aoutPage n] a) s t := by
  generalize ht : (s.setOutState (.line n) .fault).setOutStep (.line n) .none = t
  have e : s.outFault (.line n) = (t.mapOutGains (.line n) fun _ g => g.aim .mute 32).raise (aoutPage n) OutEv.FAULT := by
    unfold State.outFault
    dsimp only
    rw [ht]
    rfl
  have hq : Quiet (· = outStatus (.line n)) s t :=
    ht ▸ setOutStep_quiet (setOutState_quiet (.refl (· = outStatus (.line n)) s) _ _ rfl) _ _
  have hst : t.outState (.line n) = .fault := by rw [← ht, outState_setOutStep, outState_setOutState]
  have hg : t.gains = s.gains := by rw [← ht, gains_setOutStep, gains_setOutState]
  refine .of_eq ((next_pos hl).trans (next_eq e)) ⟨?_, evt_raise _ _ (by decide), ?_, ?_⟩
  · rw [outState_raise, outState_mapOutGains, hst]
  · rw [gainAt_of_gains (raise_gains _ _ _), gainAt_mapOutGains _ _ _ (List.mem_singleton.2 rfl), gainAt_of_gains hg]
  · exact .raise ((mapOutGains_quiet hq _ _).mono fun _ h => .inl h).frame _ fun _ h => .inr h

theorem hpHeld_fault {h : Fin 4} (hs : s.outState (.hp h) = .fault) : s.hpHeld h = true := by
  rw [State.hpHeld, hs]
  simp

theorem outputLimitTimeout_hp {h : Fin 4} (hl : s.outLive (.hp h) = true) (hp : s.outs[outIndex (.hp h)].phase = .opened) :
    After (exec (.outputLimitTimeout (.hp h)) s) fun t => t.outState (.hp h) = .fault
      ∧ t.outs[outIndex (.hp h)].phase = .out 32 ∧ t.evt (hpPage h) OutEv.FAULT = true
      ∧ Frame (fun a => a = Adr.HP_STATUS h ∨ StatusOf [hpPage h] a) s t := by
  generalize ht : (s.setOutState (.hp h) .fault).setOutStep (.hp h) .none = t
  have hq : Quiet (· = outStatus (.hp h)) s t :=
    ht ▸ setOutStep_quiet (setOutState_quiet (.refl (· = outStatus (.hp h)) s) _ _ rfl) _ _
  have hst : t.outState (.hp h) = .fault := by rw [← ht, outState_setOutStep, outState_setOutState]
  have hph : t.outs[outIndex (.hp h)].phase = .opened := by
    rw [← ht, State.setOutStep, outs_updOut_same, State.setOutState, setFld_outs]
    exact hp
  have e : s.outFault (.hp h)
      = (t.updOut (.hp h) fun o => { o with phase := .out 32, level := o.level.aim .mute 32 }).raise (hpPage h) OutEv.FAULT := by
    unfold State.outFault
    dsimp only
    rw [ht, State.hpFade, if_pos (hpHeld_fault hst), hph]
    rfl
  refine .of_eq ((next_pos hl).trans (next_eq e)) ⟨?_, ?_, evt_raise _ _ (by decide), ?_⟩
  · rw [outState_raise, outState_updOut, hst]
  · rw [raise_outs, outs_updOut_same]
  · exact .raise ((hq.updOut _ _).mono fun _ h => .inl h).frame _ fun _ h => .inr h

/-- The correction at its limit: 50 mV of either sign (R219). -/
theorem servoLimit_eq {n : Fin 16} (hl : s.outLive (.line n) = true) : ∃ c : Int, (c = 5000 ∨ c = -5000) ∧
    exec (.servoLimit n) s = .next ((((s.free 2).2.updOut (.line n) fun q => { q with servo := c }).setSfld
      (Fd.AOUT_STATUS_SERVO n) c).raise (aoutPage n) OutEv.SERVO_LIMIT) := by
  refine ⟨_, ?_, next_pos hl⟩
  split
  · exact .inr rfl
  · split
    · exact .inl rfl
    · split
      · exact .inl rfl
      · exact .inr rfl

theorem sfld_servo (s : State) (n : Fin 16) {c : Int} (hc : c = 5000 ∨ c = -5000) :
    (s.setSfld (Fd.AOUT_STATUS_SERVO n) c).sfld (Fd.AOUT_STATUS_SERVO n) = c := by
  refine sfld_setSfld_same s _ (by simp) ?_ ?_
  · change -((2 ^ 15 : Nat) : Int) ≤ c
    omega
  · change c < ((2 ^ 15 : Nat) : Int)
    omega

theorem servoLimit_after {n : Fin 16} (hl : s.outLive (.line n) = true) : After (exec (.servoLimit n) s) fun t =>
    (t.sfld (Fd.AOUT_STATUS_SERVO n) = 5000 ∨ t.sfld (Fd.AOUT_STATUS_SERVO n) = -5000)
      ∧ t.evt (aoutPage n) OutEv.SERVO_LIMIT = true ∧ t.outState (.line n) = s.outState (.line n)
      ∧ Frame (fun a => a = Adr.AOUT_STATUS n ∨ StatusOf [aoutPage n] a) s t := by
  obtain ⟨c, hc, e⟩ := servoLimit_eq hl
  have hq : Quiet (fun _ => False) s ((s.free 2).2.updOut (.line n) fun q => { q with servo := c }) :=
    (Quiet.same (R := fun _ => False) rfl rfl rfl : Quiet _ s (s.free 2).2).updOut _ _
  generalize (s.free 2).2.updOut (.line n) _ = u at hq e
  refine .of_eq e ⟨?_, evt_raise _ _ (by decide), ?_, ?_⟩
  · rw [State.sfld, fld_raise _ _ _ (by grind) (by grind) (by grind), ← State.sfld, sfld_servo u n hc]
    exact hc
  · rw [outState_raise, State.setSfld, outState_setFld _ _ _ (by simp) (.inr (by simp [outStateFld])), outState_of_reg (hq.regs _ id)]
  · exact .raise (.setFld (hq.mono nofun).frame _ (.inl rfl)) _ fun _ h => .inr h

/-! ## A fault of the charge pump (R223) -/

/-- What a fault of the charge pump does to one headphone output. -/
def State.cpClamp (t : State) (h : Fin 4) : State :=
  if t.outState (.hp h) = .off then t
  else
    let u := ((t.setOutState (.hp h) .fault).setOutStep (.hp h) .none).updOut (.hp h)
      fun q => { q with phase := .silent, level := muteGlide, a := 0, b := 0 }
    (if t.outState (.hp h) = .fault then u else u.raise (hpPage h) OutEv.FAULT).raise (hpPage h) OutEv.CP_FAULT

theorem cpRailFault_eq (hc : s.cpOn = true) :
    exec .cpRailFault s = .next ((List.finRange 4).foldl State.cpClamp (s.setCpOk false)) := next_pos hc

/-- What holds once an output is clamped. -/
structure Clamped (h : Fin 4) (t : State) : Prop where
  state : t.outState (.hp h) = .fault
  phase : t.outs[outIndex (.hp h)].phase = .silent
  a : t.outs[outIndex (.hp h)].a = 0
  b : t.outs[outIndex (.hp h)].b = 0
  event : t.evt (hpPage h) OutEv.CP_FAULT = true

theorem cpClamp_off {t : State} {h : Fin 4} (hs : t.outState (.hp h) = .off) : t.cpClamp h = t := if_pos hs

/-- An output that is not OFF is clamped, with its events. -/
theorem cpClamp_cases (t : State) (h : Fin 4) {P : State → Prop} (h0 : t.outState (.hp h) = .off → P t)
    (h1 : ∀ u, t.outState (.hp h) ≠ .off → u = ((t.setOutState (.hp h) .fault).setOutStep (.hp h) .none).updOut (.hp h)
      (fun q => { q with phase := .silent, level := muteGlide, a := 0, b := 0 }) →
      P (u.raise (hpPage h) OutEv.CP_FAULT) ∧ P ((u.raise (hpPage h) OutEv.FAULT).raise (hpPage h) OutEv.CP_FAULT)) :
    P (t.cpClamp h) := by
  by_cases hs : t.outState (.hp h) = .off
  · rw [cpClamp_off hs]
    exact h0 hs
  · obtain ⟨g1, g2⟩ := h1 _ hs rfl
    unfold State.cpClamp
    rw [if_neg hs]
    dsimp only
    split
    · exact g1
    · exact g2

theorem clamped_raise {h : Fin 4} {t : State} (hs : t.outState (.hp h) = .fault) (hp : t.outs[outIndex (.hp h)].phase = .silent)
    (ha : t.outs[outIndex (.hp h)].a = 0) (hb : t.outs[outIndex (.hp h)].b = 0) : Clamped h (t.raise (hpPage h) OutEv.CP_FAULT) := by
  refine ⟨?_, ?_, ?_, ?_, evt_raise _ _ (by decide)⟩
  · rw [outState_raise, hs]
  all_goals rw [raise_outs]; assumption

theorem cpClamp_clamped {t : State} {h : Fin 4} (hs : t.outState (.hp h) ≠ .off) : Clamped h (t.cpClamp h) := by
  refine cpClamp_cases t h (fun h0 => absurd h0 hs) fun u _ hu => ?_
  have hst : u.outState (.hp h) = .fault := by rw [hu, outState_updOut, outState_setOutStep, outState_setOutState]
  have ho : u.outs[outIndex (.hp h)] = _ := hu ▸ outs_updOut_same _ (.hp h) _
  refine ⟨clamped_raise hst ?_ ?_ ?_, clamped_raise ?_ ?_ ?_ ?_⟩
  · rw [ho]
  · rw [ho]
  · rw [ho]
  · rw [outState_raise, hst]
  all_goals rw [raise_outs, ho]

/-- What the clamp of one output leaves of the others. -/
structure OtherHp (h : Fin 4) (t u : State) : Prop where
  state : u.outState (.hp h) = t.outState (.hp h)
  out : u.outs[outIndex (.hp h)] = t.outs[outIndex (.hp h)]
  rails : u.flag (Fd.HP_STATUS_CP_OK h) = t.flag (Fd.HP_STATUS_CP_OK h)
  events : ∀ b, t.evt (hpPage h) b = true → u.evt (hpPage h) b = true

theorem OtherHp.raise {h : Fin 4} {t u : State} (g : OtherHp h t u) (p b : Nat) : OtherHp h t (u.raise p b) := by
  refine ⟨(outState_raise _ _ _ _).trans g.state, ?_, ?_, fun b hb => evt_raise_of _ _ _ (g.events b hb)⟩
  · rw [raise_outs, g.out]
  · rw [State.flag, fld_raise _ _ _ (by grind) (by grind) (by grind)]
    exact g.rails

theorem clamp_other {h k : Fin 4} (hk : k ≠ h) (t : State) (f : Out → Out) :
    OtherHp h t (((t.setOutState (.hp k) .fault).setOutStep (.hp k) .none).updOut (.hp k) f) := by
  have hr : ∀ a, a ≠ Adr.HP_STATUS k → (((t.setOutState (.hp k) .fault).setOutStep (.hp k) .none).updOut (.hp k) f).reg a = t.reg a := by
    intro a ha
    exact (setOutStep_quiet (setOutState_quiet (.refl (· = outStatus (.hp k)) t) (.hp k) .fault rfl) (.hp k) .none
      |>.updOut (.hp k) f).regs a ha
  refine ⟨outState_of_reg (hr _ (hpStatus_ne hk.symm)), ?_, ?_, fun b hb => ?_⟩
  · rw [outs_updOut_ne _ _ (outIndex_hp_ne hk), State.setOutStep, outs_updOut_ne _ _ (outIndex_hp_ne hk), State.setOutState, setFld_outs]
  · rw [State.flag, fld_of_reg (hr _ (hpStatus_ne hk.symm))]
  · rw [State.evt, hr _ (by grind)]
    exact hb

theorem cpClamp_other {h k : Fin 4} (hk : k ≠ h) (t : State) : OtherHp h t (t.cpClamp k) := by
  refine cpClamp_cases t k (fun _ => ⟨rfl, rfl, rfl, fun _ => id⟩) fun u _ hu => ?_
  have g : OtherHp h t u := hu ▸ clamp_other hk t _
  exact ⟨g.raise _ _, (g.raise _ _).raise _ _⟩

theorem Clamped.of_other {h : Fin 4} {t u : State} (c : Clamped h t) (g : OtherHp h t u) : Clamped h u :=
  ⟨g.state.trans c.state, g.out ▸ c.phase, g.out ▸ c.a, g.out ▸ c.b, g.events _ c.event⟩

/-- CP_OK is no part of what a clamp writes. -/
theorem cpClamp_rails (t : State) (k h : Fin 4) : (t.cpClamp k).flag (Fd.HP_STATUS_CP_OK h) = t.flag (Fd.HP_STATUS_CP_OK h) := by
  by_cases hk : k = h
  · subst hk
    refine cpClamp_cases t k (P := fun u => u.flag (Fd.HP_STATUS_CP_OK k) = t.flag (Fd.HP_STATUS_CP_OK k)) (fun _ => rfl) fun u _ hu => ?_
    have hf : u.fld (Fd.HP_STATUS_CP_OK k) = t.fld (Fd.HP_STATUS_CP_OK k) := by
      rw [hu, fld_updOut, State.setOutStep, fld_updOut, State.setOutState, fld_setFld_bits _ _ (outStateFld_bits _) (by simp [outStateFld])]
    constructor
    · rw [State.flag, fld_raise _ _ _ (by grind) (by grind) (by grind), hf]
    · rw [State.flag, fld_raise _ _ _ (by grind) (by grind) (by grind), fld_raise _ _ _ (by grind) (by grind) (by grind), hf]
  · exact (cpClamp_other hk t).rails

theorem cpRailFault_after (hc : s.cpOn = true) : After (exec .cpRailFault s) fun t => ∀ h : Fin 4,
    t.flag (Fd.HP_STATUS_CP_OK h) = false ∧ (s.outState (.hp h) = .off → t.outState (.hp h) = .off)
      ∧ (s.outState (.hp h) ≠ .off → t.outState (.hp h) = .fault ∧ t.outs[outIndex (.hp h)].phase = .silent
        ∧ t.outs[outIndex (.hp h)].a = 0 ∧ t.outs[outIndex (.hp h)].b = 0 ∧ t.evt (hpPage h) OutEv.CP_FAULT = true) := by
  refine .of_eq (cpRailFault_eq hc) fun h => ⟨?_, fun hs => ?_, fun hs => ?_⟩
  · exact (foldl_same (fun t => t.flag (Fd.HP_STATUS_CP_OK h)) (fun t k => cpClamp_rails t k h) _ _).trans (setCpOk_flag s false h)
  · refine foldl_reaches (Q := fun t => t.outState (.hp h) = .off) (P := fun t => t.outState (.hp h) = .off)
      (fun t k hk ht => (cpClamp_other hk t).state.trans ht) (fun t ht => (cpClamp_off ht).symm ▸ ht)
      (fun t k hk ht => (cpClamp_other hk t).state.trans ht) (List.nodup_finRange 4) (List.mem_finRange h)
      ((outState_setCpOk s false h).trans hs)
  · obtain ⟨h1, h2, h3, h4, h5⟩ : Clamped h ((List.finRange 4).foldl State.cpClamp (s.setCpOk false)) :=
      foldl_reaches (Q := fun t => t.outState (.hp h) ≠ .off) (fun t k hk ht => (cpClamp_other hk t).state ▸ ht)
        (fun t ht => cpClamp_clamped ht) (fun t k hk ht => ht.of_other (cpClamp_other hk t)) (List.nodup_finRange 4)
        (List.mem_finRange h) (by rw [outState_setCpOk]; exact hs)
    exact ⟨h1, h2, h3, h4, h5⟩

/-! ## Internal fades, the microphone route and buttons (R222, R224, R225) -/

theorem hpUnfade_quiet {R : Nat → Prop} {t : State} (hq : Quiet R s t) (h : Fin 4) : Quiet R s (t.hpUnfade h) := by
  unfold State.hpUnfade
  split
  · exact hq.updOut _ _
  · exact hq

theorem internalFadeDone_out {h : Fin 4} (hp : s.outs[outIndex (.hp h)].phase = .out 0) :
    After (exec (.internalFadeDone h) s) fun t =>
    t.flag (Fd.HP_STATUS_POLE h) = s.outs[outIndex (.hp h)].pole ∧ Quiet (· = Adr.HP_STATUS h) s t := by
  generalize ht : s.updOut (.hp h) (fun q => { q with phase := .silent, level := muteGlide }) = t
  have e : exec (.internalFadeDone h) s = .next ((t.setFld (Fd.HP_STATUS_POLE h) (bit t.outs[outIndex (.hp h)].pole)).hpUnfade h) :=
    ht ▸ next_pos hp
  have hpole : t.outs[outIndex (.hp h)].pole = s.outs[outIndex (.hp h)].pole := by rw [← ht, outs_updOut_same]
  have hq : Quiet (· = Adr.HP_STATUS h) s t := ht ▸ (Quiet.refl (· = Adr.HP_STATUS h) s).updOut _ _
  rw [hpole] at e
  generalize s.outs[outIndex (.hp h)].pole = x at *
  refine .of_eq e ⟨?_, hpUnfade_quiet (hq.setFld (f := Fd.HP_STATUS_POLE h) _ rfl) h⟩
  rw [State.flag, fld_of_reg ((hpUnfade_quiet (R := fun _ => False) (.refl _ _) h).regs _ id), fld_setFld_same _ _ _ (by simp)]
  cases x <;> rfl

theorem micWrite_none {h : Fin 4} {i : Fin 16} (hm : s.flag (Fd.HP_CTRL_MIC_EN h) = false) :
    s.micWrite h false i = (s.setFld (Fd.HP_CTRL_MIC_EN h) 0).setFld (Fd.HP_CTRL_MIC_IN h) i := by
  have h0 : s.micWant h = none := by rw [State.micWant, hm]; rfl
  have h1 : ((s.setFld (Fd.HP_CTRL_MIC_EN h) 0).setFld (Fd.HP_CTRL_MIC_IN h) i).micWant h = none := by
    rw [State.micWant, State.flag, fld_setFld_bits _ _ (by simp) (by simp), fld_setFld_same _ _ _ (by simp)]
    rfl
  unfold State.micWrite
  exact if_pos (h1.trans h0.symm)

/-! ### Triggers of jack rules -/

theorem reg_trigger (s : State) (j : Fin 20) (k : TrigKind) (a : Nat) : (s.trigger j k).reg a = s.reg a := reg_of_regs rfl a

theorem fld_trigger (s : State) (j : Fin 20) (k : TrigKind) (f : Fld) : (s.trigger j k).fld f = s.fld f := fld_of_regs rfl f

theorem evt_trigger (s : State) (j : Fin 20) (k : TrigKind) (p b : Nat) : (s.trigger j k).evt p b = s.evt p b := by
  rw [State.evt, State.evt, reg_trigger]

theorem jackTrig_trigger (s : State) (j : Fin 20) (k : TrigKind) : (s.trigger j k).jackTrig = s.jackTrig ++ [(j, k)] := rfl

theorem Frame.trigger {R : Nat → Prop} {s t : State} (h : Frame R s t) (j : Fin 20) (k : TrigKind) : Frame R s (t.trigger j k) :=
  h.congr rfl rfl rfl

theorem pow_button (b : Fin 4) : 2 ^ b.val % 2 ^ 4 = 2 ^ b.val ∧ 2 ^ b.val ≠ 0 ∧ Nat.log2 (2 ^ b.val) = b.val := by
  revert b
  decide

theorem buttonPress_after {h b : Fin 4} (hu : s.outUp (.hp h) = true) (hm : s.flag (Fd.HP_CTRL_MIC_BIAS h) = true)
    (hj : s.flag (Fd.JACK_JSTAT_INSERTED (hpJack h)) = true) (hb : s.fld (Fd.HP_STATUS_BUTTON h) = 0) :
    After (exec (.buttonPress h b) s) fun t => t.fld (Fd.HP_STATUS_BUTTON h) = 2 ^ b.val
      ∧ t.evt (hpPage h) OutEv.BTN_PRESS = true ∧ t.jackTrig = s.jackTrig ++ [(hpJack h, .press b)]
      ∧ Frame (fun a => a = Adr.HP_STATUS h ∨ StatusOf [hpPage h] a) s t := by
  obtain ⟨p1, p2, -⟩ := pow_button b
  have hf : Frame (fun a => a = Adr.HP_STATUS h ∨ StatusOf [hpPage h] a) s
      ((s.setFld (Fd.HP_STATUS_BUTTON h) (2 ^ b.val)).raise (hpPage h) OutEv.BTN_PRESS) :=
    .raise (.setFld (.refl _ s) _ (.inl rfl)) _ fun _ h => .inr h
  refine .of_eq (next_pos (by rw [hu, hm, hj, hb, bne_iff_ne.2 p2.symm]; rfl)) ⟨?_, ?_, ?_, hf.trigger _ _⟩
  · rw [fld_trigger, fld_raise _ _ _ (by grind) (by grind) (by grind), fld_setFld_same _ _ _ (by simp)]
    exact p1
  · rw [evt_trigger]
    exact evt_raise _ _ (by decide)
  · rw [jackTrig_trigger, raise_jackTrig, setFld_jackTrig]

theorem buttonRelease_after {h b : Fin 4} (hb : s.fld (Fd.HP_STATUS_BUTTON h) = 2 ^ b.val) :
    After (exec (.buttonRelease h) s) fun t => t.fld (Fd.HP_STATUS_BUTTON h) = 0
      ∧ t.evt (hpPage h) OutEv.BTN_RELEASE = true ∧ t.jackTrig = s.jackTrig ++ [(hpJack h, .release b)]
      ∧ Frame (fun a => a = Adr.HP_STATUS h ∨ StatusOf [hpPage h] a) s t := by
  obtain ⟨-, p2, p3⟩ := pow_button b
  have hf : Frame (fun a => a = Adr.HP_STATUS h ∨ StatusOf [hpPage h] a) s
      ((s.setFld (Fd.HP_STATUS_BUTTON h) 0).raise (hpPage h) OutEv.BTN_RELEASE) :=
    .raise (.setFld (.refl _ s) _ (.inl rfl)) _ fun _ h => .inr h
  have e : exec (.buttonRelease h) s = .next (((s.setFld (Fd.HP_STATUS_BUTTON h) 0).raise (hpPage h) OutEv.BTN_RELEASE).trigger
      (hpJack h) (.release b)) := by
    refine next_eq ?_
    rw [hb, if_neg p2, p3]
  refine .of_eq e ⟨?_, ?_, ?_, hf.trigger _ _⟩
  · rw [fld_trigger, fld_raise _ _ _ (by grind) (by grind) (by grind), fld_setFld_same _ _ _ (by simp),
      Nat.zero_mod]
  · rw [evt_trigger]
    exact evt_raise _ _ (by decide)
  · rw [jackTrig_trigger, raise_jackTrig, setFld_jackTrig]

end Faults

/-- Settles O16. -/
theorem outputFaultCommands : Obligations.OutputFaultCommands := by
  unfold Obligations.OutputFaultCommands
  refine ⟨fun o s hl => next_pos hl, fun n s => outputLimitTimeout_line, fun h s => outputLimitTimeout_hp, fun n s => servoLimit_after,
    fun s => cpRailFault_after, fun h s => internalFadeDone_out, fun h s hp => next_eq ?_, fun h on i s hp => next_pos hp,
    fun h i s => micWrite_none, fun h b s => buttonPress_after, fun h b s => buttonRelease_after⟩
  rw [hp, if_neg (by decide), if_pos rfl]

end Sys2Proof.Machine
end

section
/-!
PROOFS. Jacks, their classification and their rules (09_line_headphone_jacks.md R228–R237), and what the pipeline core leaves alone
when it goes on (11_housekeeping_converter.md R272–R274).
-/
namespace Sys2Proof.Machine

/-! ## The pipeline core goes on -/

/-- `t` is `s` but for the cores of the HKA, their page and its events. -/
structure CoresOnly (s t : State) : Prop where
  frame : Frame (OfPages [hkseqPage]) s t
  jacks : t.jacks = s.jacks
  outs : t.outs = s.outs
  ains : t.ains = s.ains
  amps : t.amps = s.amps
  doms : t.doms = s.doms
  tdac : t.tdac = s.tdac
  tdacOwner : t.tdacOwner = s.tdacOwner
  tdacQ : t.tdacQ = s.tdacQ
  jackTrig : t.jackTrig = s.jackTrig
  urg : t.hka.urg = s.hka.urg
  gains : t.gains = s.gains
  cfgPend : t.cfgPend = s.cfgPend
  sag : t.sag = s.sag

namespace CoresOnly

theorem refl (s : State) : CoresOnly s s := ⟨.refl _ s, rfl, rfl, rfl, rfl, rfl, rfl, rfl, rfl, rfl, rfl, rfl, rfl, rfl⟩

variable {s t u : State}

theorem trans (h : CoresOnly s t) (g : CoresOnly t u) : CoresOnly s u :=
  ⟨h.frame.trans g.frame, g.jacks.trans h.jacks, g.outs.trans h.outs, g.ains.trans h.ains, g.amps.trans h.amps, g.doms.trans h.doms,
    g.tdac.trans h.tdac, g.tdacOwner.trans h.tdacOwner, g.tdacQ.trans h.tdacQ, g.jackTrig.trans h.jackTrig, g.urg.trans h.urg,
    g.gains.trans h.gains, g.cfgPend.trans h.cfgPend, g.sag.trans h.sag⟩

theorem setFld (h : CoresOnly s t) {f : Fld} (v : Nat) (hf : OfPages [hkseqPage] f.addr) : CoresOnly s (t.setFld f v) :=
  h.trans ⟨.setFld (.refl _ t) v hf, rfl, rfl, rfl, rfl, rfl, rfl, rfl, rfl, rfl, rfl, rfl, rfl, rfl⟩

theorem raise (h : CoresOnly s t) (b : Nat) : CoresOnly s (t.raise hkseqPage b) :=
  h.trans ⟨.raise (.refl _ t) b fun _ h => .of_status (by simp) h, raise_jacks _ _ _, raise_outs _ _ _, raise_ains _ _ _,
    raise_amps _ _ _, raise_doms _ _ _, raise_tdac _ _ _, raise_tdacOwner _ _ _, raise_tdacQ _ _ _, raise_jackTrig _ _ _,
    congrArg Hka.urg (raise_hka _ _ _), raise_gains _ _ _, raise_cfgPend _ _ _, raise_sag _ _ _⟩

theorem updSeq (h : CoresOnly s t) (x : Fin 3) (f : Seq → Seq) : CoresOnly s (t.updSeq x f) :=
  h.trans ⟨.congr (.refl _ t) rfl rfl rfl, rfl, rfl, rfl, rfl, rfl, rfl, rfl, rfl, rfl, rfl, rfl, rfl, rfl⟩

theorem withHka (h : CoresOnly s t) (x : Hka) (hx : x.urg = t.hka.urg) : CoresOnly s (t.withHka x) :=
  h.trans ⟨.withHka (.refl _ t) x, rfl, rfl, rfl, rfl, rfl, rfl, rfl, rfl, rfl, hx, rfl, rfl, rfl⟩

theorem domOn (h : CoresOnly s t) (d : Nat) : t.domOn d = s.domOn d := by
  rw [State.domOn, State.domOn, State.dom, State.dom, h.doms]

end CoresOnly

/-- The registers of a sequence lie in the page of the cores. -/
theorem seqRegs_page (x : Fin 3) : OfPages [hkseqPage] (Adr.HKSEQ_SEQ_STAT x) ∧ OfPages [hkseqPage] (Adr.HKSEQ_SEQ_CNT x) :=
  ⟨.of_page (p := hkseqPage) (by simp) (by grind), .of_page (p := hkseqPage) (by simp) (by grind)⟩

section Cores
variable (s : State)

theorem entryInput_cores (x : Fin 3) : CoresOnly s (s.entryInput x) := (CoresOnly.refl s).withHka { s.hka with pipe := _ } rfl

theorem entryStart_cores (x : Fin 3) (i : Nat) : CoresOnly s (s.entryStart x i) := by
  unfold State.entryStart
  extract_lets w t
  have h : CoresOnly s t := (CoresOnly.refl s).setFld _ (seqRegs_page x).1
  clear_value t
  split
  · exact h.updSeq _ _
  · split
    · exact h.updSeq _ _
    · exact (h.updSeq _ _).trans (entryInput_cores _ _)

theorem runEnd_cores (x : Fin 3) : CoresOnly s (s.runEnd x) :=
  (((CoresOnly.refl s).setFld _ (seqRegs_page x).1).setFld _ (seqRegs_page x).1).raise _

theorem runBegin_cores (x : Fin 3) : CoresOnly s (s.runBegin x) := by
  unfold State.runBegin
  split
  · exact entryStart_cores s x _
  · exact runEnd_cores s x

theorem seqServeOne_cores (mode : Nat) : CoresOnly s (s.seqServeOne mode) := by
  unfold State.seqServeOne
  split
  · exact .refl s
  · split
    · extract_lets q t u
      have h : CoresOnly s t := (CoresOnly.refl s).withHka _ rfl
      clear_value t
      exact ((h.setFld _ (seqRegs_page _).1).updSeq _ _).trans (runBegin_cores _ _)
    · exact .refl s

theorem seqServe_cores (mode : Nat) : CoresOnly s (s.seqServe mode) :=
  ((seqServeOne_cores s mode).trans (seqServeOne_cores _ mode)).trans (seqServeOne_cores _ mode)

theorem pipeResume_cores : CoresOnly s s.pipeResume := by
  unfold State.pipeResume
  split
  · exact .refl s
  · split
    · dsimp only
      split
      · split
        · exact entryStart_cores s _ _
        · exact (runEnd_cores s _).trans (seqServe_cores _ _)
      · split
        · exact ((CoresOnly.refl s).updSeq _ _).trans ((entryInput_cores _ _).setFld _ (seqRegs_page _).2)
        · exact .refl s
    · exact seqServe_cores s _

end Cores

/-! ## Updates of a jack -/

theorem jacks_updJack_same (s : State) (j : Fin 20) (f : Jack → Jack) : (s.updJack j f).jacks[j] = f s.jacks[j] :=
  getElem_set_same s.jacks j _

theorem Quiet.updJack {R : Nat → Prop} {s t : State} (h : Quiet R s t) (j : Fin 20) (f : Jack → Jack) : Quiet R s (t.updJack j f) :=
  h.congr rfl rfl rfl

theorem bitOf_putBits_one {x k w : Nat} (h : k < w) : bitOf (putBits x k 1 1 % 2 ^ w) k = true := by
  rw [bitOf_eq_testBit, Nat.testBit_mod_two_pow, testBit_putBits, if_pos ⟨Nat.le_refl k, Nat.lt_succ_self k⟩]
  simp [h]

/-! ## INSERT and REMOVE (R228–R233) -/

section Plug
variable {s : State} {j : Fin 20}

theorem doms_trigger (s : State) (j : Fin 20) (k : TrigKind) : (s.trigger j k).doms = s.doms := rfl

/-- An INSERT up to its classification. -/
def State.plugged (s : State) (j : Fin 20) : State :=
  (((s.setFld (Fd.JACK_JSTAT_INSERTED j) 1).setBit Fd.JACK_CHANGED_JACKS j true).raise jackPage JackEv.INSERT).trigger j .insert

theorem jackIn_eq (s : State) (j : Fin 20) : s.jackIn j
    = if !(s.plugged j).inService then (s.plugged j).setFld (Fd.JACK_JSTAT_CLASS j) 0xF
      else if (s.plugged j).flag (Fd.JACK_JCFG_CLS_EN j) then (s.plugged j).classStart j else (s.plugged j).classFinal j 1 := rfl

/-- What an INSERT leaves before the classification. -/
theorem plugged_after (s : State) (j : Fin 20) : (s.plugged j).flag (Fd.JACK_JSTAT_INSERTED j) = true
    ∧ bitOf ((s.plugged j).fld Fd.JACK_CHANGED_JACKS) j = true ∧ (s.plugged j).evt jackPage JackEv.INSERT = true
    ∧ (s.plugged j).jackTrig = s.jackTrig ++ [(j, .insert)] ∧ (s.plugged j).doms = s.doms
    ∧ Frame (fun a => a = Adr.JACK_JSTAT j ∨ a = Adr.JACK_CHANGED ∨ StatusOf [jackPage] a) s (s.plugged j) := by
  unfold State.plugged State.setBit
  refine ⟨?_, ?_, ?_, ?_, ?_, ?_⟩
  · rw [State.flag, fld_trigger, fld_raise _ _ _ (by grind) (by grind) (by grind), fld_setFld_addr _ _ (by grind),
      fld_setFld_same _ _ _ (by simp)]
    rfl
  · rw [fld_trigger, fld_raise _ _ _ (by grind) (by grind) (by grind), fld_setFld_same _ _ _ (by simp)]
    exact bitOf_putBits_one j.isLt
  · rw [evt_trigger]
    exact evt_raise _ _ (by decide)
  · rw [jackTrig_trigger, raise_jackTrig, setFld_jackTrig, setFld_jackTrig]
  · rw [doms_trigger, raise_doms, setFld_doms, setFld_doms]
  · exact .trigger (.raise (.setFld (.setFld (.refl _ s) _ (.inl rfl)) _ (.inr (.inl rfl))) _ fun _ h => .inr (.inr h)) _ _

/-- The registers that an INSERT reads are others. -/
theorem plugged_reads (j : Fin 20) {a : Nat} (h : a = Adr.SYS_MODE ∨ a = Adr.JACK_JCFG j) :
    ¬ (a = Adr.JACK_JSTAT j ∨ a = Adr.JACK_CHANGED ∨ StatusOf [jackPage] a) := by
  rintro (g | g | ⟨q, hq, g⟩ | g | g) <;> grind

theorem jackInsert_unserved (hs : s.jackSenses = true) (hi : s.flag (Fd.JACK_JSTAT_INSERTED j) = false) (hp : s.jackPresent j = true)
    (hv : s.inService = false) : After (exec (.jackInsert j) s) fun t => t.flag (Fd.JACK_JSTAT_INSERTED j) = true
      ∧ t.fld (Fd.JACK_JSTAT_CLASS j) = 0xF ∧ bitOf (t.fld Fd.JACK_CHANGED_JACKS) j = true
      ∧ t.evt jackPage JackEv.INSERT = true ∧ t.jackTrig = s.jackTrig ++ [(j, .insert)]
      ∧ Frame (fun a => a = Adr.JACK_JSTAT j ∨ a = Adr.JACK_CHANGED ∨ StatusOf [jackPage] a) s t := by
  obtain ⟨h1, h2, h3, h4, -, h6⟩ := plugged_after s j
  have hsv : (s.plugged j).inService = false := by
    rw [State.inService, fld_of_reg (h6.regs _ (plugged_reads j (.inl rfl)))]
    exact hv
  have e : s.jackIn j = (s.plugged j).setFld (Fd.JACK_JSTAT_CLASS j) 0xF := (jackIn_eq s j).trans (if_pos (by rw [hsv]; rfl))
  generalize s.plugged j = t at *
  refine .of_eq ((next_pos (by rw [hs, hi, hp]; rfl)).trans (next_eq e)) ⟨?_, ?_, ?_, ?_, ?_, h6.setFld _ (.inl rfl)⟩
  · rw [State.flag, fld_setFld_bits _ _ (by simp) (by simp)]
    exact h1
  · rw [fld_setFld_same _ _ _ (by simp)]
    rfl
  · rw [fld_setFld_addr _ _ (by grind), h2]
  · rw [State.evt, reg_setFld_ne _ _ _ (by grind)]
    exact h3
  · rw [setFld_jackTrig, h4]

theorem jackInsert_classified (hs : s.jackSenses = true) (hi : s.flag (Fd.JACK_JSTAT_INSERTED j) = false)
    (hp : s.jackPresent j = true) (hv : s.inService = true) (hu : s.svcUp = true) (hc : s.flag (Fd.JACK_JCFG_CLS_EN j) = true)
    (hj : 16 ≤ j.val) :
    After (exec (.jackInsert j) s) fun t => t.flag (Fd.JACK_JSTAT_INSERTED j) = true ∧ t.fld (Fd.JACK_JSTAT_CLASS j) = 0xE
      ∧ t.jacks[j].step = .poleWait ∧ ∃ e ∈ t.tdacQ, e.2 = .jack j := by
  obtain ⟨h1, -, -, -, h5, h6⟩ := plugged_after s j
  have hsv : (s.plugged j).inService = true := by
    rw [State.inService, fld_of_reg (h6.regs _ (plugged_reads j (.inl rfl)))]
    exact hv
  have hcl : (s.plugged j).flag (Fd.JACK_JCFG_CLS_EN j) = true := by
    rw [State.flag, fld_of_reg (h6.regs _ (plugged_reads j (.inr rfl)))]
    exact hc
  have hsu : (s.plugged j).svcUp = true := by
    rw [← hu]
    unfold State.svcUp State.domOn State.dom
    rw [h5]
  have e : s.jackIn j = (s.plugged j).classStart j := by rw [jackIn_eq, if_neg (by rw [hsv]; decide), if_pos hcl]
  generalize s.plugged j = t at *
  generalize hw : (t.setFld (Fd.JACK_JSTAT_CLASS j) 0xE).updJack j (fun q => { q with step := .poleWait }) = w
  have e2 : t.classStart j = w.tdacEnqueue (.jack j) := by
    unfold State.classStart
    dsimp only
    rw [if_neg (by rw [hsu]; decide), dif_neg (by omega), hw]
  refine .of_eq ((next_pos (by rw [hs, hi, hp]; rfl)).trans (next_eq (e.trans e2))) ⟨?_, ?_, ?_, mem_tdacEnqueue _ _⟩
  · rw [State.flag, fld_tdacEnqueue, ← hw, fld_updJack, fld_setFld_bits _ _ (by simp) (by simp)]
    exact h1
  · rw [fld_tdacEnqueue, ← hw, fld_updJack, fld_setFld_same _ _ _ (by simp)]
    rfl
  · have hk : (w.tdacEnqueue (.jack j)).jacks = w.jacks :=
      tdacEnqueue_cases w (.jack j) (P := fun u => u.jacks = w.jacks) rfl fun _ => rfl
    rw [hk, ← hw, jacks_updJack_same]

end Plug

end Sys2Proof.Machine
end

section
/-!
PROOFS. The end of a plug's classification, the tests of a headphone jack, and the jack rules (09_line_headphone_jacks.md R230–R237).
-/
namespace Sys2Proof.Machine

theorem jacks_trigger (s : State) (j : Fin 20) (k : TrigKind) : (s.trigger j k).jacks = s.jacks := rfl

theorem tdacOwner_trigger (s : State) (j : Fin 20) (k : TrigKind) : (s.trigger j k).tdacOwner = s.tdacOwner := rfl

theorem tdacOwner_updJack (s : State) (j : Fin 20) (f : Jack → Jack) : (s.updJack j f).tdacOwner = s.tdacOwner := rfl

theorem jackTrig_updJack (s : State) (j : Fin 20) (f : Jack → Jack) : (s.updJack j f).jackTrig = s.jackTrig := rfl

theorem Frame.updJack {R : Nat → Prop} {s t : State} (h : Frame R s t) (j : Fin 20) (f : Jack → Jack) : Frame R s (t.updJack j f) :=
  h.congr rfl rfl rfl

theorem jacks_updOut (s : State) (o : OutId) (f : Out → Out) : (s.updOut o f).jacks = s.jacks := rfl

theorem tdacOwner_updOut (s : State) (o : OutId) (f : Out → Out) : (s.updOut o f).tdacOwner = s.tdacOwner := rfl

section Classes
variable (s : State) (j : Fin 20)

/-! ## The classification ends -/

/-- `s` with another owner of the test DAC. -/
def State.withTdacOwner (s : State) (x : Option TdacUser) : State := { s with tdacOwner := x }

theorem Frame.withTdacOwner {R : Nat → Prop} {s t : State} (h : Frame R s t) (x : Option TdacUser) : Frame R s (t.withTdacOwner x) :=
  h.congr rfl rfl rfl

/-- What a classification that ends without a result leaves alone. -/
structure Dropped (s t : State) : Prop where
  quiet : Quiet (fun a => ∃ n : Fin 16, a = Adr.AIN_DIAG_RES n) s t
  jackTrig : t.jackTrig = s.jackTrig

theorem Dropped.updJack {s t : State} (h : Dropped s t) (j : Fin 20) (f : Jack → Jack) : Dropped s (t.updJack j f) :=
  ⟨h.quiet.updJack j f, h.jackTrig⟩

theorem diagForget_dropped (n : Fin 16) : Dropped s (s.diagForget n) := by
  unfold State.diagForget
  extract_lets t
  have h : Dropped s t := ⟨.same rfl rfl rfl, rfl⟩
  clear_value t
  split
  · exact h
  · exact ⟨h.quiet.setFld _ ⟨n, rfl⟩, (setFld_jackTrig _ _ _).trans h.jackTrig⟩

theorem classDrop_dropped : Dropped s (s.classDrop j) := by
  unfold State.classDrop
  extract_lets idle
  have h0 : Dropped s s := ⟨.refl _ s, rfl⟩
  have hi : ∀ t x, Dropped s t → Dropped s (idle t x) := fun t x h => h.updJack _ _
  clear_value idle
  split
  · exact hi _ _ h0
  · exact hi _ _ h0
  · exact hi _ _ h0
  · exact hi _ _ (diagForget_dropped s _)
  · exact hi _ _ ⟨.same rfl rfl rfl, rfl⟩
  · exact hi _ _ ⟨.same rfl rfl rfl, rfl⟩
  · exact hi _ _ h0
  · exact hi _ _ h0

theorem hpFade_quiet {R : Nat → Prop} {s t : State} (hq : Quiet R s t) (h : Fin 4) : Quiet R s (t.hpFade h) :=
  hpFade_cases t h (P := Quiet R s) hq (hq.updOut _ _)

/-- What the pole of a headphone output leaves alone when it follows. -/
theorem poleFollow_after (h : Fin 4) : Quiet (· = Adr.HP_STATUS h) s (s.poleFollow h) ∧ (s.poleFollow h).jacks = s.jacks
    ∧ (s.poleFollow h).tdacOwner = s.tdacOwner ∧ (s.poleFollow h).jackTrig = s.jackTrig := by
  unfold State.poleFollow
  extract_lets w t
  have h0 : Quiet (· = Adr.HP_STATUS h) s t ∧ t.jacks = s.jacks ∧ t.tdacOwner = s.tdacOwner ∧ t.jackTrig = s.jackTrig :=
    ⟨(Quiet.refl (· = Adr.HP_STATUS h) s).updOut _ _, rfl, rfl, rfl⟩
  clear_value t
  split
  · exact hpFade_cases t h (P := fun u => Quiet (· = Adr.HP_STATUS h) s u ∧ u.jacks = s.jacks ∧ u.tdacOwner = s.tdacOwner
      ∧ u.jackTrig = s.jackTrig) h0 ⟨h0.1.updOut _ _, h0.2⟩
  · exact ⟨h0.1.setFld _ rfl, h0.2⟩

/-- The final code of a classification, but for the pole that follows. -/
def State.classNow (s : State) (j : Fin 20) (code : Nat) : State :=
  ((((s.setFld (Fd.JACK_JSTAT_CLASS j) code).countWrap (Fd.JACK_JSTAT_SEQ j) 1).raise jackPage 2).updJack j
    fun q => { q with step := .idle }).trigger j (.classified code)

theorem classFinal_eq (code : Nat) : s.classFinal j code
    = if 16 ≤ j.val then (s.classNow j code).poleFollow (Fin.ofNat 4 (j.val - 16)) else s.classNow j code := rfl

theorem classNow_after (code : Nat) : (s.classNow j code).fld (Fd.JACK_JSTAT_CLASS j) = code % 2 ^ 4
    ∧ (s.classNow j code).flag (Fd.JACK_JSTAT_INSERTED j) = s.flag (Fd.JACK_JSTAT_INSERTED j)
    ∧ (s.classNow j code).jacks[j].step = .idle ∧ (s.classNow j code).tdacOwner = s.tdacOwner
    ∧ (s.classNow j code).jackTrig = s.jackTrig ++ [(j, .classified code)]
    ∧ (∀ b, s.evt jackPage b = true → (s.classNow j code).evt jackPage b = true)
    ∧ Frame (fun a => a = Adr.JACK_JSTAT j ∨ StatusOf [jackPage] a) s (s.classNow j code) := by
  unfold State.classNow State.countWrap
  refine ⟨?_, ?_, ?_, ?_, ?_, fun b hb => ?_, ?_⟩
  · rw [fld_trigger, fld_updJack, fld_raise _ _ _ (by grind) (by grind) (by grind), fld_setFld_bits _ _ (by simp) (by simp),
      fld_setFld_same _ _ _ (by simp)]
    rfl
  · rw [State.flag, fld_trigger, fld_updJack, fld_raise _ _ _ (by grind) (by grind) (by grind),
      fld_setFld_bits _ _ (by simp) (by simp), fld_setFld_bits _ _ (by simp) (by simp)]
  · rw [jacks_trigger, jacks_updJack_same]
  · rw [tdacOwner_trigger, tdacOwner_updJack, raise_tdacOwner, setFld_tdacOwner, setFld_tdacOwner]
  · rw [jackTrig_trigger, jackTrig_updJack, raise_jackTrig, setFld_jackTrig, setFld_jackTrig]
  · rw [evt_trigger, State.evt, reg_updJack]
    refine evt_raise_of _ _ _ ?_
    rw [State.evt, reg_setFld_ne _ _ _ (by grind), reg_setFld_ne _ _ _ (by grind)]
    exact hb
  · exact .trigger (.updJack (.raise (.setFld (.setFld (.refl _ s) _ (.inl rfl)) _ (.inl rfl)) _ fun _ h => .inr h) _ _) _ _

/-! ## REMOVE (R228, R230, R233) -/

/-- A REMOVE up to the end of its classification. -/
def State.unplugged (s : State) (j : Fin 20) : State :=
  (((s.setFld (Fd.JACK_JSTAT_INSERTED j) 0).setBit Fd.JACK_CHANGED_JACKS j true).raise jackPage JackEv.REMOVE).trigger j .remove

theorem unplugged_after : (s.unplugged j).flag (Fd.JACK_JSTAT_INSERTED j) = false
    ∧ (s.unplugged j).evt jackPage JackEv.REMOVE = true ∧ (s.unplugged j).jackTrig = s.jackTrig ++ [(j, .remove)] := by
  unfold State.unplugged State.setBit
  refine ⟨?_, ?_, ?_⟩
  · rw [State.flag, fld_trigger, fld_raise _ _ _ (by grind) (by grind) (by grind), fld_setFld_addr _ _ (by grind),
      fld_setFld_same _ _ _ (by simp)]
    rfl
  · rw [evt_trigger]
    exact evt_raise _ _ (by decide)
  · rw [jackTrig_trigger, raise_jackTrig, setFld_jackTrig, setFld_jackTrig]

variable {s j}

theorem jackOut_combo (hj : j.val < 16) : s.jackOut j = ((s.unplugged j).classDrop j).classNow j 0 := by
  have h16 : ¬ 16 ≤ j.val := by omega
  have e : s.jackOut j = (((s.unplugged j).buttonForget j).classDrop j).classFinal j 0 := rfl
  rw [e, State.buttonForget, if_neg h16, classFinal_eq, if_neg h16]

theorem jackRemove_combo (hs : s.jackSenses = true) (hi : s.flag (Fd.JACK_JSTAT_INSERTED j) = true) (hp : s.jackPresent j = false)
    (hj : j.val < 16) : After (exec (.jackRemove j) s) fun t => t.flag (Fd.JACK_JSTAT_INSERTED j) = false
      ∧ t.fld (Fd.JACK_JSTAT_CLASS j) = 0 ∧ t.jacks[j].step = .idle ∧ t.evt jackPage JackEv.REMOVE = true
      ∧ t.jackTrig = s.jackTrig ++ [(j, .remove), (j, .classified 0)] := by
  obtain ⟨h1, h2, h3⟩ := unplugged_after s j
  obtain ⟨hq, ht⟩ := classDrop_dropped (s.unplugged j) j
  obtain ⟨g1, g2, g3, -, g5, g6, -⟩ := classNow_after ((s.unplugged j).classDrop j) j 0
  refine .of_eq ((next_pos (by rw [hs, hi, hp]; rfl)).trans (next_eq (jackOut_combo hj))) ⟨?_, g1, g3, g6 _ ?_, ?_⟩
  · rw [g2, State.flag, fld_of_reg (hq.regs _ (by rintro ⟨n, h⟩; grind))]
    exact h1
  · rw [State.evt, hq.regs _ (by rintro ⟨n, h⟩; grind)]
    exact h2
  · rw [g5, ht, h3, List.append_assoc]
    rfl

/-! ## The tests of a headphone jack (R232) -/

/-- A jack gives the test DAC back, and the pipeline core goes on. -/
theorem jackRelease_after (s : State) : s.jackRelease.tdacOwner = none ∧ s.jackRelease.jacks = s.jacks ∧ s.jackRelease.outs = s.outs
    ∧ s.jackRelease.doms = s.doms ∧ Frame (fun a => a = Adr.TDAC_STATUS ∨ OfPages [hkseqPage] a) s s.jackRelease := by
  have e : s.jackRelease = ((s.withTdacOwner none).setFld Fd.TDAC_STATUS_ROUTE 0).pipeResume := rfl
  have h := pipeResume_cores ((s.withTdacOwner none).setFld Fd.TDAC_STATUS_ROUTE 0)
  rw [← e] at h
  refine ⟨?_, ?_, ?_, ?_, ?_⟩
  · rw [h.tdacOwner, setFld_tdacOwner]
    rfl
  · rw [h.jacks, setFld_jacks]
    rfl
  · rw [h.outs, setFld_outs]
    rfl
  · rw [h.doms, setFld_doms]
    rfl
  · exact .trans (.setFld (.withTdacOwner (.refl _ s) none) _ (.inl rfl)) (h.frame.mono fun _ h => .inr h)

theorem owner_ne {x : TdacUser} (h : s.tdacOwner = some x) : ¬ (s.tdacOwner != some x) = true := by
  rw [h]
  simp

theorem poleDone_eq {r : PoleReading} (ho : s.tdacOwner = some (.jack j)) (hs : s.jacks[j].step = .poleTest)
    (hn : s.jacks[j].stale = none) (hu : s.svcUp = true) :
    exec (.classifyPoleTestDone j r) s = .next (match poleKind r with
      | none => s.jackRelease.classFinal j 1
      | some k => (s.jackRelease.updJack j fun q => { q with step := .loadHold k }).loadQueue (Fin.ofNat 4 (j.val - 16))) := by
  refine next_eq ?_
  unfold State.poleDone
  rw [if_neg (owner_ne ho), if_neg (by rw [hn]; decide), if_pos hs]
  dsimp only
  rw [if_neg (by rw [hu]; decide)] <;> rfl

theorem loadClass_lt (k : PoleKind) (l r : Nat) : loadClass k l r % 2 ^ 4 = loadClass k l r := by
  refine Nat.mod_eq_of_lt ?_
  unfold loadClass
  repeat' split
  all_goals omega

/-- A silent output that fades back in. -/
theorem hpUnfade_cases (s : State) (h : Fin 4) {P : State → Prop} (h0 : P s) (h1 : ∀ f, P (s.updOut (.hp h) f)) : P (s.hpUnfade h) := by
  unfold State.hpUnfade
  split
  · exact h1 _
  · exact h0

/-- What the end of a load test writes of its jack and its output. -/
theorem classified_after {h : Fin 4} (hh : Fin.ofNat 4 (j.val - 16) = h) (hj : 16 ≤ j.val) (code : Nat) {u : State}
    (hu : (s.classFinal j code).hpUnfade h = u) : u.fld (Fd.JACK_JSTAT_CLASS j) = code % 2 ^ 4
      ∧ u.jacks[j].step = .idle ∧ u.tdacOwner = s.tdacOwner
      ∧ Frame (fun a => a = Adr.HP_STATUS h ∨ a = Adr.JACK_JSTAT j ∨ StatusOf [jackPage] a) s u := by
  obtain ⟨g1, -, g3, g4, -, -, g7⟩ := classNow_after s j code
  obtain ⟨p1, p2, p3, -⟩ := poleFollow_after (s.classNow j code) h
  rw [classFinal_eq, if_pos hj, hh] at hu
  generalize s.classNow j code = v at *
  generalize v.poleFollow h = w at *
  have hw : w.fld (Fd.JACK_JSTAT_CLASS j) = code % 2 ^ 4 ∧ w.jacks[j].step = .idle ∧ w.tdacOwner = s.tdacOwner
      ∧ Frame (fun a => a = Adr.HP_STATUS h ∨ a = Adr.JACK_JSTAT j ∨ StatusOf [jackPage] a) s w :=
    ⟨(fld_of_reg (p1.regs _ (by grind))).trans g1, p2 ▸ g3, p3.trans g4,
      (g7.mono fun _ h => .inr h).trans (p1.mono fun _ h => .inl h).frame⟩
  rw [← hu]
  exact hpUnfade_cases w h (P := fun u => u.fld (Fd.JACK_JSTAT_CLASS j) = code % 2 ^ 4 ∧ u.jacks[j].step = .idle
    ∧ u.tdacOwner = s.tdacOwner ∧ Frame (fun a => a = Adr.HP_STATUS h ∨ a = Adr.JACK_JSTAT j ∨ StatusOf [jackPage] a) s u) hw
    fun f => by
      rw [fld_updOut, jacks_updOut, tdacOwner_updOut]
      exact ⟨hw.1, hw.2.1, hw.2.2.1, hw.2.2.2.updOut _ _⟩

/-- The loads of an output as their registers hold them. -/
def State.withLoads (s : State) (h : Fin 4) (r : LoadReading) : State :=
  (s.setFld (Fd.HP_LOAD_OHMS h 0) (ohms r.l)).setFld (Fd.HP_LOAD_OHMS h 1) (ohms r.r)

theorem fld_withLoads (s : State) (h : Fin 4) (r : LoadReading) : (s.withLoads h r).fld (Fd.HP_LOAD_OHMS h 0) = min r.l 0xFFFFF
    ∧ (s.withLoads h r).fld (Fd.HP_LOAD_OHMS h 1) = min r.r 0xFFFFF := by
  unfold State.withLoads
  constructor
  · rw [fld_setFld_addr _ _ (by grind), fld_setFld_same _ _ _ (by simp)]
    exact Nat.mod_eq_of_lt (show min r.l 0xFFFFF < 2 ^ 20 by omega)
  · rw [fld_setFld_same _ _ _ (by simp)]
    exact Nat.mod_eq_of_lt (show min r.r 0xFFFFF < 2 ^ 20 by omega)

theorem loadDone_eq {r : LoadReading} {k : PoleKind} {h : Fin 4} (hh : Fin.ofNat 4 (j.val - 16) = h)
    (ho : s.tdacOwner = some (.jack j)) (hs : s.jacks[j].step = .loadTest k) (hn : s.jacks[j].stale = none) (hu : s.svcUp = true)
    (hr : s.outState (.hp h) = .ready) :
    s.loadDone j r = ((s.withLoads h r).jackRelease.classFinal j (loadClass k (ohms r.l) (ohms r.r))).hpUnfade h := by
  unfold State.loadDone
  dsimp only
  rw [hh, if_neg (owner_ne ho), if_neg (by rw [hn]; decide), hs]
  dsimp only
  rw [if_neg (by rw [hu]; decide), if_neg (by rw [hr]; decide)]
  rfl

theorem classifyLoadTestDone_after {r : LoadReading} {k : PoleKind} {h : Fin 4} (hh : Fin.ofNat 4 (j.val - 16) = h) (hj : 16 ≤ j.val)
    (hp : s.outs[outIndex (.hp h)].phase = .silent) (ho : s.tdacOwner = some (.jack j))
    (hs : s.jacks[j].step = .loadTest k) (hn : s.jacks[j].stale = none) (hu : s.svcUp = true) (hr : s.outState (.hp h) = .ready) :
    After (exec (.classifyLoadTestDone j r) s) fun t =>
      t.fld (Fd.JACK_JSTAT_CLASS j) = loadClass k (min r.l 0xFFFFF) (min r.r 0xFFFFF)
        ∧ t.fld (Fd.HP_LOAD_OHMS h 0) = min r.l 0xFFFFF ∧ t.fld (Fd.HP_LOAD_OHMS h 1) = min r.r 0xFFFFF
        ∧ t.tdacOwner = none ∧ t.jacks[j].step = .idle := by
  have e : exec (.classifyLoadTestDone j r) s = .next (s.loadDone j r) := next_pos (.inl (by subst hh; exact hp))
  rw [loadDone_eq hh ho hs hn hu hr] at e
  obtain ⟨l0, l1⟩ := fld_withLoads s h r
  obtain ⟨h1, -, -, -, h5⟩ := jackRelease_after (s.withLoads h r)
  generalize hw : ((s.withLoads h r).jackRelease.classFinal j (loadClass k (ohms r.l) (ohms r.r))).hpUnfade h = w at e
  obtain ⟨c1, c2, c3, c4⟩ := classified_after hh hj _ hw
  have hkept : ∀ i : Fin 2, w.fld (Fd.HP_LOAD_OHMS h i) = (s.withLoads h r).fld (Fd.HP_LOAD_OHMS h i) := fun i => by
    refine (fld_of_reg (c4.regs _ ?_)).trans (fld_of_reg (h5.regs _ ?_))
    · rintro (g | g | ⟨q, hq, g⟩ | g | g) <;> grind
    · rintro (g | ⟨q, hq, g⟩ | g | g) <;> grind
  refine .of_eq e ⟨?_, (hkept 0).trans l0, (hkept 1).trans l1, c3.trans h1, c2⟩
  rw [c1, loadClass_lt]

/-! ## Jack rules (R234–R237) -/

/-- `s` with other rules that have fired, or other pages that have changed, in the tick. -/
def State.withFired (s : State) (l : List Nat) : State := { s with jackFired := l }
def State.withJackPages (s : State) (l : List Nat) : State := { s with jackPages := l }

theorem fld_withFired (s : State) (l : List Nat) (f : Fld) : (s.withFired l).fld f = s.fld f := fld_of_regs rfl f

theorem jackFired_withFired (s : State) (l : List Nat) : (s.withFired l).jackFired = l := rfl
theorem jackPages_withFired (s : State) (l : List Nat) : (s.withFired l).jackPages = s.jackPages := rfl
theorem pageVers_withFired (s : State) (l : List Nat) : (s.withFired l).pageVers = s.pageVers := rfl
theorem jackFired_withJackPages (s : State) (l : List Nat) : (s.withJackPages l).jackFired = s.jackFired := rfl
theorem pageVer_withJackPages (s : State) (l : List Nat) (p : Nat) : (s.withJackPages l).pageVer p = s.pageVer p := rfl
theorem jackFired_bumpVer (s : State) (p : Nat) : (s.bumpVer p).jackFired = s.jackFired := rfl

theorem Frame.withFired {R : Nat → Prop} {s t : State} (h : Frame R s t) (l : List Nat) : Frame R s (t.withFired l) :=
  h.congr rfl rfl rfl

theorem fld_withJackPages (s : State) (l : List Nat) (f : Fld) : (s.withJackPages l).fld f = s.fld f := fld_of_regs rfl f

theorem ruleFire_eq {r : Fin 64} {a p : Nat} (ht : s.ruleTarget r = some (a, p)) : s.ruleFire r
    = if s.pageTakes p then (s.withFired (r.val :: s.jackFired)).ruleAct r a p else (s.withFired (r.val :: s.jackFired)).ruleSkip := by
  have e : s.ruleFire r = match (s.withFired (r.val :: s.jackFired)).ruleTarget r with
      | some (a, p) => if (s.withFired (r.val :: s.jackFired)).pageTakes p then (s.withFired (r.val :: s.jackFired)).ruleAct r a p
          else (s.withFired (r.val :: s.jackFired)).ruleSkip
      | none => (s.withFired (r.val :: s.jackFired)).ruleSkip := rfl
  have ht2 : (s.withFired (r.val :: s.jackFired)).ruleTarget r = some (a, p) := ht
  rw [e, ht2]
  rfl

/-- The target of a rule is no register of the jacks. -/
theorem ruleTarget_ne {r a p : Nat} (h : s.ruleTarget r = some (a, p)) : a ≠ Adr.JACK_CNT := by
  unfold State.ruleTarget at h
  dsimp only at h
  split at h
  · obtain ⟨rfl, -⟩ := Prod.mk.inj (Option.some.inj h)
    grind
  · split at h
    · obtain ⟨rfl, -⟩ := Prod.mk.inj (Option.some.inj h)
      grind
    · split at h
      · obtain ⟨rfl, -⟩ := Prod.mk.inj (Option.some.inj h)
        grind
      · cases h

theorem pageVer_bumpVer (s : State) (p : Nat) : (s.bumpVer p).pageVer p = (s.pageVer p + 1) % 2 ^ 32 := by
  rw [State.pageVer, State.bumpVer, sparseGet_set _ _ _ _ _ _ fun _ => rfl, if_pos rfl]

theorem ruleFire_acts {r : Fin 64} {a p : Nat} (hf : s.jackFired = []) (hg : s.jackPages = []) (ht : s.ruleTarget r = some (a, p))
    (hp : s.pageTakes p = true) (hv : s.fld ⟨a, 15, 0⟩ ≠ s.fld (Fd.JACK_RULE_B_GAIN r)) :
    (s.ruleFire r).fld ⟨a, 15, 0⟩ = s.fld (Fd.JACK_RULE_B_GAIN r)
      ∧ (s.ruleFire r).fld Fd.JACK_CNT_FIRED = satAdd 16 (s.fld Fd.JACK_CNT_FIRED) 1 ∧ (s.ruleFire r).jackFired = [r.val]
      ∧ (s.ruleFire r).pageVer p = (s.pageVer p + 1) % 2 ^ 32 := by
  have hne := ruleTarget_ne ht
  generalize hc : (s.withFired [r.val]).countSat Fd.JACK_CNT_FIRED 1 = t
  have hta : t.fld ⟨a, 15, 0⟩ = s.fld ⟨a, 15, 0⟩ := by rw [← hc, fld_countSat_ne _ _ hne.symm, fld_withFired]
  have htv : t.fld (Fd.JACK_RULE_B_GAIN r) = s.fld (Fd.JACK_RULE_B_GAIN r) := by
    rw [← hc, fld_countSat_ne _ _ (by grind), fld_withFired]
  have htc : t.fld Fd.JACK_CNT_FIRED = satAdd 16 (s.fld Fd.JACK_CNT_FIRED) 1 := by
    rw [← hc, fld_countSat_same _ _ _ (by simp), fld_withFired]
    rfl
  have htf : t.jackFired = [r.val] := by rw [← hc, State.countSat, setFld_jackFired, jackFired_withFired]
  have htp : t.jackPages = [] := by rw [← hc, State.countSat, setFld_jackPages, jackPages_withFired, hg]
  have htw : t.pageVer p = s.pageVer p := by
    rw [← hc, State.pageVer, State.countSat, setFld_pageVers, pageVers_withFired, State.pageVer]
  have e : s.ruleFire r = ((t.setFld ⟨a, 15, 0⟩ (s.fld (Fd.JACK_RULE_B_GAIN r))).bumpVer p).withJackPages [p] := by
    rw [ruleFire_eq ht, if_pos hp, hf]
    unfold State.ruleAct
    dsimp only
    rw [hc, htf, htv, hta, if_neg (by simp [hv])]
    rw [if_neg (by rw [setFld_jackPages, htp]; simp), setFld_jackPages, htp]
    rfl
  rw [e]
  refine ⟨?_, ?_, ?_, ?_⟩
  · rw [fld_withJackPages, fld_bumpVer, fld_setFld_same _ _ _ (by simp)]
    exact Nat.mod_eq_of_lt (fld_lt s (Fd.JACK_RULE_B_GAIN r))
  · rw [fld_withJackPages, fld_bumpVer, fld_setFld_addr _ _ hne, htc]
  · rw [jackFired_withJackPages, jackFired_bumpVer, setFld_jackFired, htf]
  · rw [pageVer_withJackPages, pageVer_bumpVer, State.pageVer, setFld_pageVers, ← State.pageVer, htw]

theorem ruleFire_skips {r : Fin 64} {a p : Nat} (ht : s.ruleTarget r = some (a, p)) (hp : s.pageOn p = false) :
    (s.ruleFire r).fld Fd.JACK_CNT_SKIPPED = satAdd 16 (s.fld Fd.JACK_CNT_SKIPPED) 1
      ∧ (s.ruleFire r).evt jackPage JackEv.RULE_SKIPPED = true
      ∧ Frame (fun x => x = Adr.JACK_CNT ∨ StatusOf [jackPage] x) s (s.ruleFire r) := by
  have e : s.ruleFire r = ((s.withFired (r.val :: s.jackFired)).countSat Fd.JACK_CNT_SKIPPED 1).raise jackPage JackEv.RULE_SKIPPED := by
    rw [ruleFire_eq ht, if_neg (by rw [State.pageTakes, hp]; simp)]
    rfl
  rw [e]
  refine ⟨?_, evt_raise _ _ (by decide), ?_⟩
  · rw [fld_raise _ _ _ (by grind) (by grind) (by grind), fld_countSat_same _ _ _ (by simp), fld_withFired]
    rfl
  · exact .raise (.countSat (.withFired (.refl _ s) _) _ (.inl rfl)) _ fun _ h => .inr h

end Classes

/-- Settles O17. -/
theorem jackCommands : Obligations.JackCommands := by
  unfold Obligations.JackCommands
  refine ⟨fun j high s => rfl, fun j s => jackInsert_unserved, fun j s => jackInsert_classified, fun j s => jackRemove_combo,
    fun j r s ho hs hn hu hk => ?_, fun j r k s ho hs hn hu hk => ?_, fun j r k s => classifyLoadTestDone_after rfl,
    fun r s he hf ha => ?_, fun r a p s => ruleFire_acts, fun r a p s => ruleFire_skips⟩
  · rw [poleDone_eq ho hs hn hu, hk]
  · rw [poleDone_eq ho hs hn hu, hk]
  · refine next_pos ?_
    rw [he, ha]
    simpa using hf

end Sys2Proof.Machine
end

section
/-!
PROOFS. Direct writes of a port that nothing holds back, and the start and stop of the fabric (07_fabric_schedule.md R161, R162).
-/
namespace Sys2Proof.Machine

/-! ## Direct writes and page versions -/

section Direct
variable {s : State} {p : Fin 4} {g a v : Nat} {f : State → State}

/-- A direct write that the page takes: its effect, and the page's next version. -/
theorem directWriteAt_takes (h : s.TakesWrite p g a) : s.directWriteAt p g a v f = (f s).bumpVer g := by
  obtain ⟨h1, h2, h3, h4⟩ := h
  rw [State.directWriteAt, h1, h2, State.directPage, h3, h4]
  rfl

theorem Quiet.bumpVer {R : Nat → Prop} {s t : State} (h : Quiet R s t) (g : Nat) : Quiet R s (t.bumpVer g) := h.congr rfl rfl rfl

theorem Frame.bumpVer {R : Nat → Prop} {s t : State} (h : Frame R s t) (g : Nat) : Frame R s (t.bumpVer g) := h.congr rfl rfl rfl

theorem pageVer_of_pageVers {s t : State} (h : t.pageVers = s.pageVers) (g : Nat) : t.pageVer g = s.pageVer g := by
  rw [State.pageVer, State.pageVer, h]

theorem Quiet.updFab {R : Nat → Prop} {s t : State} (h : Quiet R s t) (f : Fab → Fab) : Quiet R s (t.updFab f) := h.congr rfl rfl rfl

theorem Frame.updFab {R : Nat → Prop} {s t : State} (h : Frame R s t) (f : Fab → Fab) : Frame R s (t.updFab f) := h.congr rfl rfl rfl

theorem fab_updFab (s : State) (f : Fab → Fab) : (s.updFab f).fab = f s.fab := rfl

end Direct

/-! ## What an admission writes (R185) -/

theorem foldl_regsOnly {α : Type} {f : State → α → State} (h : ∀ t x, RegsOnly t (f t x)) (l : List α) (s : State) :
    RegsOnly s (l.foldl f s) := by
  induction l generalizing s with
  | nil => exact .refl s
  | cons x l ih =>
    have h1 := h s x
    have h2 := ih (f s x)
    rw [RegsOnly] at h1 h2 ⊢
    rw [List.foldl_cons, h2]
    rw [h1]

/-- The registers that an admission writes. -/
abbrev AdmitRegs (a : Nat) : Prop := a = Adr.FAB_CHECK_COST ∨ a = Adr.FAB_CROSSING ∨ ∃ k, k < 8 ∧ a = Adr.FAB_STAGE_COST k

theorem admitOut_regsOnly (s : State) (a : Option Admission) : RegsOnly s (s.admitOut a) := by
  have h : ∀ (g : Nat → Word) (t : State), RegsOnly s t →
      RegsOnly s ((List.range 8).foldl (fun t k => t.setReg (Adr.FAB_STAGE_COST k) (g k)) t) := by
    intro g t ht
    have h2 := foldl_regsOnly (f := fun t k => t.setReg (Adr.FAB_STAGE_COST k) (g k)) (fun t k => (RegsOnly.refl t).setReg _ _)
      (List.range 8) t
    rw [RegsOnly] at ht h2 ⊢
    rw [h2]
    rw [ht]
  unfold State.admitOut
  split
  · exact h (fun _ => 0) _ (((RegsOnly.refl s).setReg _ _).setReg _ _)
  · exact h _ _ (((RegsOnly.refl s).setReg _ _).setReg _ _)

theorem stageCosts_quiet {R : Nat → Prop} {s t : State} (h : Quiet R s t) (hR : ∀ a, AdmitRegs a → R a) (g : Nat → Word) :
    Quiet R s ((List.range 8).foldl (fun t k => t.setReg (Adr.FAB_STAGE_COST k) (g k)) t) := by
  have hl : ∀ k ∈ List.range 8, k < 8 := fun k => List.mem_range.1
  generalize List.range 8 = l at hl
  induction l generalizing t with
  | nil => exact h
  | cons k l ih =>
    exact ih (h.setReg _ (hR _ (.inr (.inr ⟨k, hl k (.head _), rfl⟩)))) fun i hi => hl i (.tail _ hi)

theorem admitOut_quiet (s : State) (a : Option Admission) : Quiet AdmitRegs s (s.admitOut a) := by
  unfold State.admitOut
  split
  · exact stageCosts_quiet (.setReg (.setReg (.refl _ s) _ (.inl rfl)) _ (.inr (.inl rfl))) (fun _ => id) fun _ => 0
  · exact stageCosts_quiet (.setReg (.setReg (.refl _ s) _ (.inl rfl)) _ (.inr (.inl rfl))) (fun _ => id) _

theorem admitRegs_page {a : Nat} (h : AdmitRegs a) : OfPages [fabPage] a := by
  refine .of_page (p := fabPage) (by simp) ?_
  obtain rfl | rfl | ⟨k, hk, rfl⟩ := h <;> grind

/-! ## Delay lines of a start -/

/-- `s` with other delay lines. -/
def State.withLines (s : State) (l : List DLine) : State := { s with dlines := l }

theorem Quiet.withLines {R : Nat → Prop} {s t : State} (h : Quiet R s t) (l : List DLine) : Quiet R s (t.withLines l) :=
  h.congr rfl rfl rfl

theorem Frame.withLines {R : Nat → Prop} {s t : State} (h : Frame R s t) (l : List DLine) : Frame R s (t.withLines l) :=
  h.congr rfl rfl rfl

theorem fab_withLines (s : State) (l : List DLine) : (s.withLines l).fab = s.fab := rfl

theorem pageVers_withLines (s : State) (l : List DLine) : (s.withLines l).pageVers = s.pageVers := rfl

theorem pageVers_updFab (s : State) (f : Fab → Fab) : (s.updFab f).pageVers = s.pageVers := rfl

/-- The allocation of lines changes the lines alone. -/
theorem allocLines_eq (l : List Nat) (s : State) : ∃ d, l.foldl State.allocLine s = s.withLines d := by
  induction l generalizing s with
  | nil => exact ⟨s.dlines, rfl⟩
  | cons i l ih =>
    have h : ∃ d, s.allocLine i = s.withLines d := by
      unfold State.allocLine
      split
      · exact ⟨s.dlines, rfl⟩
      · exact ⟨_, rfl⟩
    obtain ⟨d, hd⟩ := h
    obtain ⟨e, he⟩ := ih (s.allocLine i)
    exact ⟨e, by rw [List.foldl_cons, he, hd]; rfl⟩

/-! ## Start (R161) -/

section Start
variable {s : State} {p : Fin 4}

theorem fabState_of_reg {s t : State} (h : t.reg Adr.FAB_STAT = s.reg Adr.FAB_STAT) : t.fabState = s.fabState := by
  rw [State.fabState, State.fabState, fld_of_reg h]

theorem fabState_setFabState (s : State) (st : FabState) : (s.setFabState st).fabState = st := by
  rw [State.fabState, State.setFabState, fld_setFld_same _ _ _ (by simp)]
  cases st <;> rfl

/-- What the start of a piste reads stays while only CTRL and the registers of an admission change. -/
structure SameStart (s t : State) : Prop where
  regs : ∀ a, ¬ (a = Adr.FAB_CTRL ∨ AdmitRegs a) → t.reg a = s.reg a
  mem : t.mem = s.mem
  dlines : t.dlines = s.dlines
  grps : t.grps = s.grps
  txn : t.txn = s.txn

theorem SameStart.pisteIn {t : State} (h : SameStart s t) (b : Nat) : t.pisteIn b = s.pisteIn b := by
  unfold State.pisteIn State.memWord State.bytesAt State.byte
  rw [h.mem]

theorem SameStart.fld {t : State} (h : SameStart s t) {f : Fld} (hf : ¬ (f.addr = Adr.FAB_CTRL ∨ AdmitRegs f.addr)) :
    t.fld f = s.fld f := fld_of_reg (h.regs _ hf)

theorem SameStart.fabLimit {t : State} (h : SameStart s t) : t.fabLimit = s.fabLimit := by
  rw [State.fabLimit, State.fabLimit, h.fld (by rintro (e | e | e | ⟨k, hk, e⟩) <;> grind)]

theorem SameStart.linesNeed {t : State} (h : SameStart s t) (q : Piste) : t.linesNeed q = s.linesNeed q := by
  have hfc : t.fc = s.fc := by
    rw [State.fc, State.fc, State.fb, State.fb, State.flag, State.flag, h.fld (f := Fd.CLK_CORE_FAMILY)
      (by rintro (e | e | e | ⟨k, hk, e⟩) <;> grind), h.fld (f := Fd.CLK_CORE_MULT) (by rintro (e | e | e | ⟨k, hk, e⟩) <;> grind)]
  have htap : t.tapNeed = s.tapNeed := by
    funext i
    rw [State.tapNeed, State.tapNeed, State.tapMax, State.tapMax, hfc, h.fld (by rintro (e | e | e | ⟨k, hk, e⟩) <;> grind)]
  rw [State.linesNeed, State.linesNeed, htap, h.dlines]

theorem SameStart.granFree {t : State} (h : SameStart s t) : t.granFree = s.granFree := by
  rw [State.granFree, State.granFree, State.usedGranules, State.usedGranules, h.grps, h.dlines, h.txn]

/-- CTRL as a start command writes it while STOPPED. -/
def State.armStart (s : State) (b : Bool) : State :=
  (s.setFld Fd.FAB_CTRL_START_PISTE (bit b)).setFld Fd.FAB_CTRL_RUN 1

theorem armStart_same (s : State) (b : Bool) : SameStart s (s.armStart b) :=
  ⟨fun _ ha => (reg_setFld_ne _ _ _ fun e => ha (.inl e.symm)).trans (reg_setFld_ne _ _ _ fun e => ha (.inl e.symm)), rfl, rfl, rfl, rfl⟩

theorem armStart_fields (s : State) (b : Bool) : (s.armStart b).fld Fd.FAB_CTRL_START_PISTE = bit b
    ∧ (s.armStart b).flag Fd.FAB_CTRL_RUN = true := by
  unfold State.armStart
  constructor
  · rw [fld_setFld_bits _ _ (by simp) (by simp), fld_setFld_same _ _ _ (by simp)]
    cases b <;> rfl
  · rw [State.flag, fld_setFld_same _ _ _ (by simp)]
    rfl

theorem startWord (b : Bool) : bitOf (1 + 16 * bit b) 0 = true ∧ bitOf (1 + 16 * bit b) 4 = b := by
  cases b <;> decide

theorem fabricRun_eq {b : Bool} (h : s.TakesWrite p fabPage Adr.FAB_CTRL) (hs : s.fabState = .stopped) :
    exec (.fabricRun p b) s = .next (((s.armStart b).fabStart).bumpVer fabPage) := by
  obtain ⟨h0, h4⟩ := startWord b
  refine next_eq ((directWriteAt_takes h).trans ?_)
  rw [State.fabCtrlWrite, h0, h4, if_pos hs]
  rfl

/-- The fabric as an admitted start sets it. -/
def Fab.started (f : Fab) (q : Piste) : Fab :=
  { f with run := some q, old := none, crossing := [], xLen := 0, xDone := 0, glide := Glide.at .mute, ending := false, runNext := none,
           hard := [], misses := [] }

theorem Fab.started_run (f : Fab) (q : Piste) : (f.started q).run = some q := rfl

theorem fabStart_admitted {q : Piste} {b : Nat} (hb : s.fld Fd.FAB_CTRL_START_PISTE = b) (hm : s.fld Fd.SYS_MODE_MODE ≠ 2)
    (hq : s.pisteIn b = some q) (hc : (admission none q 0).cost ≤ s.fabLimit) (hl : s.linesNeed q ≤ s.granFree) :
    ∃ d, s.fabStart = (((((s.admitOut (some (admission none q 0))).updFab (·.started q)).withLines d).setFld Fd.FAB_STAT_RUN_PISTE b).setFld
      Fd.FAB_RUN_COST_COST (min (admission none q 0).cost 0xFFFF)).setFabState .starting := by
  obtain ⟨d, hd⟩ := allocLines_eq q.taps ((s.admitOut (some (admission none q 0))).updFab (·.started q))
  refine ⟨d, ?_⟩
  unfold State.fabStart
  dsimp only
  rw [hb, if_neg hm, hq]
  dsimp only
  rw [if_neg (by omega), if_neg (by omega), ← hd]
  rfl

theorem fabricRun_starts {b : Bool} {q : Piste} (h : s.TakesWrite p fabPage Adr.FAB_CTRL) (hs : s.fabState = .stopped)
    (hm : s.fld Fd.SYS_MODE_MODE ≠ 2) (hq : s.pisteIn (bit b) = some q)
    (hc : (admission none q 0).cost ≤ s.fabLimit) (hl : s.linesNeed q ≤ s.granFree) :
    After (exec (.fabricRun p b) s) fun t => t.fabState = .starting ∧ t.flag Fd.FAB_CTRL_RUN = true
      ∧ t.fld Fd.FAB_CTRL_START_PISTE = bit b ∧ t.runPiste = bit b ∧ t.fab.run = some q
      ∧ t.pageVer fabPage = (s.pageVer fabPage + 1) % 2 ^ 32
      ∧ Quiet (OfPages [fabPage]) s t := by
  have hu := armStart_same s b
  obtain ⟨hsp, hrun⟩ := armStart_fields s b
  have hver : (s.armStart b).pageVers = s.pageVers := by rw [State.armStart, setFld_pageVers, setFld_pageVers]
  have hquiet : Quiet (OfPages [fabPage]) s (s.armStart b) :=
    .setFld (.setFld (.refl _ s) _ (.of_page (p := fabPage) (by simp) (by grind))) _ (.of_page (p := fabPage) (by simp) (by grind))
  have e := fabricRun_eq (b := b) h hs
  generalize s.armStart b = u at *
  obtain ⟨d, hd⟩ := fabStart_admitted hsp (by rwa [hu.fld (by rintro (e | e | e | ⟨k, hk, e⟩) <;> grind)]) ((hu.pisteIn _).trans hq)
    (by rw [hu.fabLimit]; exact hc) (by rw [hu.linesNeed, hu.granFree]; exact hl)
  have ha := admitOut_quiet u (some (admission none q 0))
  have hr := (admitOut_regsOnly u (some (admission none q 0))).same State.pageVers fun _ => rfl
  rw [hd] at e
  generalize u.admitOut (some (admission none q 0)) = t at *
  have hwq := (ha.updFab (·.started q)).withLines d
  have hwv : ((t.updFab (·.started q)).withLines d).pageVers = u.pageVers := by rw [pageVers_withLines, pageVers_updFab, hr]
  have hwf : ((t.updFab (·.started q)).withLines d).fab.run = some q := by rw [fab_withLines, fab_updFab, Fab.started_run]
  generalize (t.updFab (·.started q)).withLines d = w at *
  have hctrl : ∀ f : Fld, f.addr = Adr.FAB_CTRL → w.fld f = u.fld f := fun f hf =>
    fld_of_reg (hwq.regs _ (by rintro (e | e | ⟨k, hk, e⟩) <;> grind))
  refine .of_eq e ⟨?_, ?_, ?_, ?_, ?_, ?_, ?_⟩
  · rw [fabState_of_reg (reg_bumpVer _ _ _), fabState_setFabState]
  · rw [State.flag, fld_bumpVer, State.setFabState, fld_setFld_addr _ _ (by grind), fld_setFld_addr _ _ (by grind),
      fld_setFld_addr _ _ (by grind), hctrl _ rfl]
    exact hrun
  · rw [fld_bumpVer, State.setFabState, fld_setFld_addr _ _ (by grind), fld_setFld_addr _ _ (by grind),
      fld_setFld_addr _ _ (by grind), hctrl _ rfl, hsp]
  · rw [State.runPiste, fld_bumpVer, State.setFabState, fld_setFld_bits _ _ (by simp) (by simp), fld_setFld_addr _ _ (by grind),
      fld_setFld_same _ _ _ (by simp)]
    cases b <;> rfl
  · rw [bumpVer_fab, State.setFabState, setFld_fab, setFld_fab, setFld_fab, hwf]
  · rw [pageVer_bumpVer, State.setFabState, pageVer_of_pageVers (setFld_pageVers _ _ _), pageVer_of_pageVers (setFld_pageVers _ _ _),
      pageVer_of_pageVers (setFld_pageVers _ _ _), pageVer_of_pageVers (hwv.trans hver)]
  · have hpg : ∀ a, a = Adr.FAB_STAT ∨ a = Adr.FAB_RUN_COST → OfPages [fabPage] a := fun a ha =>
      .of_page (p := fabPage) (by simp) (by grind)
    exact .bumpVer (.setFld (.setFld (.setFld (hquiet.trans (hwq.mono fun _ h => admitRegs_page h)) _ (hpg _ (.inl rfl))) _
      (hpg _ (.inr rfl))) _ (hpg _ (.inl rfl))) _

/-- A start that is refused: RUN stays 0, with its error. -/
def State.startRefused (s : State) : State := (s.setFld Fd.FAB_CTRL_RUN 0).setErr fabPage 0

theorem fabStart_invalid {b : Nat} (hb : s.fld Fd.FAB_CTRL_START_PISTE = b) (hq : s.pisteIn b = none) :
    s.fabStart = s.startRefused ∨ s.fabStart = (s.admitOut none).startRefused := by
  unfold State.fabStart
  dsimp only
  rw [hb, hq]
  split
  · exact .inl rfl
  · exact .inr rfl

theorem startRefused_after {t : State} (hq : Quiet (fun a => a = Adr.FAB_CTRL ∨ AdmitRegs a) s t) (hf : t.fab = s.fab) :
    t.startRefused.fabState = s.fabState ∧ t.startRefused.flag Fd.FAB_CTRL_RUN = false ∧ t.startRefused.err fabPage 0 = true
      ∧ t.startRefused.fab = s.fab ∧ Quiet (OfPages [fabPage]) s t.startRefused := by
  unfold State.startRefused
  have hpg : ∀ a, (a = Adr.FAB_CTRL ∨ AdmitRegs a) ∨ a = pageAddr fabPage 0x01C → OfPages [fabPage] a := by
    rintro a ((rfl | h) | rfl)
    · exact .of_page (p := fabPage) (by simp) (by grind)
    · exact admitRegs_page h
    · exact .of_page (p := fabPage) (by simp) (by grind)
  refine ⟨?_, ?_, err_setErr _ _ (by decide), ?_, ?_⟩
  · rw [State.setErr, fabState_of_reg (reg_setReg_ne _ _ (by grind)), fabState_of_reg (reg_setFld_ne _ _ _ (by grind)),
      fabState_of_reg (hq.regs _ (by rintro (e | e | e | ⟨k, hk, e⟩) <;> grind))]
  · rw [State.flag, State.setErr, fld_of_reg (reg_setReg_ne _ _ (by grind)), fld_setFld_same _ _ _ (by simp)]
    rfl
  · rw [State.setErr, setReg_fab, setFld_fab, hf]
  · exact .setReg (.setFld (hq.mono fun a h => hpg a (.inl h)) _ (hpg _ (.inl (.inl rfl)))) _ (hpg _ (.inr rfl))

theorem fabricRun_refused {b : Bool} (h : s.TakesWrite p fabPage Adr.FAB_CTRL) (hs : s.fabState = .stopped)
    (hq : s.pisteIn (bit b) = none) :
    After (exec (.fabricRun p b) s) fun t => t.fabState = .stopped ∧ t.flag Fd.FAB_CTRL_RUN = false
      ∧ t.err fabPage 0 = true ∧ t.fab = s.fab ∧ Quiet (OfPages [fabPage]) s t := by
  obtain ⟨hsp, -⟩ := armStart_fields s b
  have hu : Quiet (fun a => a = Adr.FAB_CTRL ∨ AdmitRegs a) s (s.armStart b) :=
    .setFld (.setFld (.refl _ s) _ (.inl rfl)) _ (.inl rfl)
  have huf : (s.armStart b).fab = s.fab := by rw [State.armStart, setFld_fab, setFld_fab]
  have hun := ((armStart_same s b).pisteIn (bit b)).trans hq
  have e := fabricRun_eq (b := b) h hs
  generalize s.armStart b = u at *
  have key : ∀ t : State, u.fabStart = t.startRefused → Quiet (fun a => a = Adr.FAB_CTRL ∨ AdmitRegs a) s t → t.fab = s.fab →
      After (exec (.fabricRun p b) s) fun t => t.fabState = .stopped ∧ t.flag Fd.FAB_CTRL_RUN = false
      ∧ t.err fabPage 0 = true ∧ t.fab = s.fab ∧ Quiet (OfPages [fabPage]) s t := by
    intro t ht htq htf
    obtain ⟨k1, k2, k3, k4, k5⟩ := startRefused_after htq htf
    rw [ht] at e
    refine .of_eq e ⟨?_, ?_, ?_, ?_, k5.bumpVer _⟩
    · rw [fabState_of_reg (reg_bumpVer _ _ _), k1, hs]
    · rw [State.flag, fld_bumpVer]
      exact k2
    · rw [State.err, reg_bumpVer]
      exact k3
    · rw [bumpVer_fab, k4]
  obtain ht | ht := fabStart_invalid hsp hun
  · exact key _ ht hu huf
  · exact key _ ht (hu.trans ((admitOut_quiet u none).mono fun _ h => .inr h))
      (((admitOut_regsOnly u none).same State.fab fun _ => rfl).trans huf)

end Start

end Sys2Proof.Machine
end

section
/-!
PROOFS. The stop of the fabric (07_fabric_schedule.md R162; 18_register_pages.md R410), and the settlement of the fabric's states.
-/
namespace Sys2Proof.Machine

section Stop
variable {s : State} {p : Fin 4}

theorem stopWord (n : Nat) : bitOf (16 * n) 0 = false := by
  rw [bitOf_eq_testBit, show 16 * n = n * 2 ^ 4 by omega, Nat.testBit_mul_two_pow]
  rfl

/-- `s` with the next RUN of the fabric. -/
def State.withRunNext (s : State) (r : Option Bool) : State := s.updFab fun f => { f with runNext := r }

theorem fab_withRunNext (s : State) (r : Option Bool) : (s.withRunNext r).fab = { s.fab with runNext := r } := rfl

theorem reg_withRunNext (s : State) (r : Option Bool) (a : Nat) : (s.withRunNext r).reg a = s.reg a := reg_updFab _ _ _

theorem pageVer_withRunNext (s : State) (r : Option Bool) (g : Nat) : (s.withRunNext r).pageVer g = s.pageVer g :=
  pageVer_of_pageVers rfl g

theorem Quiet.withRunNext {R : Nat → Prop} {s t : State} (h : Quiet R s t) (r : Option Bool) : Quiet R s (t.withRunNext r) :=
  h.updFab _

theorem fabCtrlWrite_stop {v : Nat} (hs : s.fabState ≠ .stopped) (hv : bitOf v 0 = false) :
    s.fabCtrlWrite v = s.withRunNext (some false) := by
  rw [State.fabCtrlWrite, if_neg hs, hv]
  rfl

theorem fabricStop_after (h : s.TakesWrite p fabPage Adr.FAB_CTRL) (hs : s.fabState ≠ .stopped) :
    After (exec (.fabricStop p) s) fun t => t.fabState = s.fabState ∧ t.fab = { s.fab with runNext := some false }
      ∧ t.pageVer fabPage = (s.pageVer fabPage + 1) % 2 ^ 32 ∧ Quiet (fun _ => False) s t := by
  have e : exec (.fabricStop p) s = .next ((s.withRunNext (some false)).bumpVer fabPage) :=
    next_eq ((directWriteAt_takes h).trans (by rw [fabCtrlWrite_stop hs (stopWord _)]))
  refine .of_eq e ⟨?_, ?_, ?_, .bumpVer (.withRunNext (.refl _ s) _) _⟩
  · rw [fabState_of_reg (reg_bumpVer _ _ _), fabState_of_reg (reg_withRunNext _ _ _)]
  · rw [bumpVer_fab, fab_withRunNext]
  · rw [pageVer_bumpVer, pageVer_withRunNext]

/-! ## What a tick takes of a written RUN -/

/-- `s` as the boundary takes RUN = 0. -/
def State.runTaken (s : State) : State := (s.withRunNext none).setFld Fd.FAB_CTRL_RUN 0

theorem takeRun_stop (h : s.fab.runNext = some false) : s.takeRun = s.runTaken := by
  rw [State.takeRun, h]
  rfl

theorem takeRun_none (h : s.fab.runNext = none) : s.takeRun = s := by rw [State.takeRun, h]

theorem runTaken_run (s : State) : s.runTaken.flag Fd.FAB_CTRL_RUN = false := by
  rw [State.flag, State.runTaken, fld_setFld_same _ _ _ (by simp)]
  rfl

theorem runTaken_reg (s : State) {a : Nat} (h : a ≠ Adr.FAB_CTRL) : s.runTaken.reg a = s.reg a := by
  rw [State.runTaken, reg_setFld_ne _ _ _ (by exact h.symm), reg_withRunNext]

theorem runTaken_fabState (s : State) : s.runTaken.fabState = s.fabState := fabState_of_reg (runTaken_reg s (by decide))

theorem runTaken_fab (s : State) : s.runTaken.fab = { s.fab with runNext := none } := by
  rw [State.runTaken, setFld_fab, fab_withRunNext]

theorem runTaken_tickWrites (s : State) : s.runTaken.tickWrites = s.tickWrites := rfl

/-- RUN = 0 taken while RUNNING begins the stop glide. -/
theorem stopDue_running (hr : s.fab.runNext = some false) (hs : s.fabState = .running) (hx : s.flag Fd.FAB_STAT_XOVER_ACTIVE = false) :
    s.stopDue.fabState = .stopping ∧ s.stopDue.flag Fd.FAB_CTRL_RUN = false ∧ s.stopDue.fab =
      { s.fab with glide := s.fab.glide.aim .mute (s.fld Fd.FAB_START_GLIDE_TICKS), ending := true, runNext := none }
      ∧ Quiet (fun a => a = Adr.FAB_STAT ∨ a = Adr.FAB_CTRL) s s.stopDue := by
  have hrun := runTaken_run s
  have hst := (runTaken_fabState s).trans hs
  have hreg := fun a (h : a ≠ Adr.FAB_CTRL) => runTaken_reg s h
  have hfab := runTaken_fab s
  have hq : Quiet (fun a => a = Adr.FAB_STAT ∨ a = Adr.FAB_CTRL) s s.runTaken := .setFld (.withRunNext (.refl _ s) _) _ (.inr rfl)
  have e : s.stopDue = s.runTaken.fabStopping := by
    rw [State.stopDue, takeRun_stop hr, hrun, hst]
    rfl
  generalize s.runTaken = t at *
  have hx2 : t.flag Fd.FAB_STAT_XOVER_ACTIVE = false := by
    rw [State.flag, fld_of_reg (hreg _ (by decide))]
    exact hx
  have hl : t.fld Fd.FAB_START_GLIDE_TICKS = s.fld Fd.FAB_START_GLIDE_TICKS := fld_of_reg (hreg _ (by decide))
  rw [e, State.fabStopping, hx2, if_neg (by decide), hl]
  refine ⟨fabState_setFabState _ _, ?_, ?_, ?_⟩
  · rw [State.flag, State.setFabState, fld_setFld_addr _ _ (by decide), fld_updFab]
    exact hrun
  · rw [State.setFabState, setFld_fab, fab_updFab, hfab]
  · exact .setFld (hq.updFab _) _ (.inl rfl)

/-! ## STOPPED -/

/-- `s` with nothing in the delay lines and at the inputs of sinks and converters. -/
def State.emptied (s : State) : State :=
  { s with dlines := [], portSink := s.portSink.map fun _ => Sample.zero,
           asrcs := s.asrcs.map fun (q : Asrc) => { q with input := Sample.zero } }

theorem emptied_dlines (s : State) : s.emptied.dlines = [] := rfl
theorem emptied_fab (s : State) : s.emptied.fab = s.fab := rfl
theorem emptied_reg (s : State) (a : Nat) : s.emptied.reg a = s.reg a := reg_of_regs rfl a

theorem Frame.emptied {R : Nat → Prop} {s t : State} (h : Frame R s t) : Frame R s t.emptied := h.congr rfl rfl rfl

/-- The fabric that stands. -/
def Fab.silent (f : Fab) : Fab :=
  { f with busOut := f.busOut.map fun _ => Sample.zero, genOut := f.genOut.map fun _ => Sample.zero, sinks := [],
           misses := [], hard := [], ending := false, glide := Glide.at .mute }

theorem Fab.silent_sinks (f : Fab) : f.silent.sinks = [] := rfl
theorem Fab.silent_glide (f : Fab) : f.silent.glide = Glide.at .mute := rfl

theorem flushParams_nil (h : s.tickWrites = []) : s.flushParams = s := by
  rw [State.flushParams, h, List.foldl_nil, ← h]

/-- The state of a fabric that has stopped, with nothing on its way. -/
def State.fabDown (s : State) : State := (((s.updFab Fab.silent).setFabState .stopped).emptied).raise fabPage FabEv.STOPPED

theorem fabDown_flag (s : State) : s.fabDown.flag Fd.FAB_CTRL_RUN = s.flag Fd.FAB_CTRL_RUN := by
  rw [State.flag, State.flag, State.fabDown, fld_raise _ _ _ (by decide) (by decide) (by decide), fld_of_reg (emptied_reg _ _), State.setFabState,
    fld_setFld_addr _ _ (by decide), fld_updFab]

theorem fabStopped_eq (hn : s.fab.runNext = none) (hr : s.flag Fd.FAB_CTRL_RUN = false) (hw : s.tickWrites = []) :
    s.fabStopped = s.fabDown := by
  have h := (fabDown_flag s).trans hr
  have e : s.fabStopped = if s.fabDown.flag Fd.FAB_CTRL_RUN then s.fabDown.fabStart else s.fabDown := by
    rw [State.fabStopped, flushParams_nil hw, takeRun_none hn]
    rfl
  rw [e, h, if_neg (by decide)]

theorem fabDown_after (s : State) : s.fabDown.fabState = .stopped ∧ s.fabDown.dlines = [] ∧ s.fabDown.fab.sinks = []
    ∧ s.fabDown.fab.glide = Glide.at .mute ∧ s.fabDown.evt fabPage FabEv.STOPPED = true
    ∧ Frame (fun a => a = Adr.FAB_STAT ∨ StatusOf [fabPage] a) s s.fabDown := by
  unfold State.fabDown
  have hf : (((s.updFab Fab.silent).setFabState .stopped).emptied).fab = s.fab.silent := by
    rw [emptied_fab, State.setFabState, setFld_fab, fab_updFab]
  have hs : (((s.updFab Fab.silent).setFabState .stopped).emptied).fabState = .stopped := by
    rw [fabState_of_reg (emptied_reg _ _), fabState_setFabState]
  have hq : Frame (fun a => a = Adr.FAB_STAT ∨ StatusOf [fabPage] a) s (((s.updFab Fab.silent).setFabState .stopped).emptied) :=
    .emptied (.setFld (.updFab (.refl _ s) _) _ (.inl rfl))
  have hd := emptied_dlines ((s.updFab Fab.silent).setFabState .stopped)
  generalize ((s.updFab Fab.silent).setFabState .stopped).emptied = t at *
  refine ⟨?_, ?_, ?_, ?_, evt_raise _ _ (by decide), hq.raise _ fun _ h => .inr h⟩
  · rw [State.fabState, fld_raise _ _ _ (by decide) (by decide) (by decide)]
    exact hs
  · rw [raise_dlines, hd]
  · rw [raise_fab, hf, Fab.silent_sinks]
  · rw [raise_fab, hf, Fab.silent_glide]

theorem stopDue_starting (hr : s.fab.runNext = some false) (hs : s.fabState = .starting) (hw : s.tickWrites = []) :
    s.stopDue.fabState = .stopped ∧ s.stopDue.flag Fd.FAB_CTRL_RUN = false ∧ s.stopDue.dlines = []
      ∧ s.stopDue.evt fabPage FabEv.STOPPED = true := by
  have hrun := runTaken_run s
  have hst := (runTaken_fabState s).trans hs
  have hn : s.runTaken.fab.runNext = none := by rw [runTaken_fab]
  have htw := (runTaken_tickWrites s).trans hw
  have ht := takeRun_stop hr
  generalize s.runTaken = t at *
  have e : s.stopDue = t.fabStopped := by
    rw [State.stopDue, ht, hrun, hst]
    generalize t.fabStopped = u
    exact if_neg (by decide)
  obtain ⟨h1, h2, -, -, h5, -⟩ := fabDown_after t
  have hf := (fabDown_flag t).trans hrun
  rw [e, fabStopped_eq hn hrun htw]
  exact ⟨h1, hf, h2, h5⟩

theorem fabricStopped_after (hs : s.fabState = .stopping) (hg : s.fab.glide.left = 0) (hr : s.flag Fd.FAB_CTRL_RUN = false)
    (hn : s.fab.runNext = none) (hw : s.tickWrites = []) :
    After (exec .fabricStopped s) fun t => t.fabState = .stopped ∧ t.dlines = [] ∧ t.fab.sinks = []
      ∧ t.fab.glide = Glide.at .mute ∧ t.evt fabPage FabEv.STOPPED = true
      ∧ Frame (fun a => a = Adr.FAB_STAT ∨ StatusOf [fabPage] a) s t :=
  .of_eq ((next_pos ⟨hs, hg⟩).trans (by rw [fabStopped_eq hn hr hw])) (fabDown_after s)

end Stop

/-- Settles O18. -/
theorem fabricStateCommands : Obligations.FabricStateCommands := by
  unfold Obligations.FabricStateCommands
  exact ⟨fun _ _ _ _ h hs _ hm hq hc hl => fabricRun_starts h hs hm hq hc hl, fun _ _ _ h hs _ hq => fabricRun_refused h hs hq,
    fun _ _ h hs => fabricStop_after h hs, fun _ hr hs hx => stopDue_running hr hs hx, fun _ hr hs hw => stopDue_starting hr hs hw,
    fun _ hs hg hr hn hw => fabricStopped_after hs hg hr hn hw⟩

end Sys2Proof.Machine
end

section
/-!
PROOFS. Pistes: writes, the copy, the check and the end of a crossover (07_fabric_schedule.md R165, R169, R178, R185).
-/
namespace Sys2Proof.Machine

/-! ## Reads of sparse data that is cut and moved -/

section Sparse
variable {β : Type} {d : β}

theorem sparseGet_append_right {l m : List (Nat × β)} {a : Nat} (h : ∀ e ∈ l, e.1 ≠ a) :
    sparseGet d (l ++ m) a = sparseGet d m a := by
  induction l with
  | nil => rfl
  | cons e l ih =>
    rw [List.cons_append, sparseGet, if_neg (h e (.head _)), ih fun x hx => h x (.tail _ hx)]

theorem sparseGet_none {m : List (Nat × β)} {a : Nat} (h : ∀ e ∈ m, e.1 ≠ a) : sparseGet d m a = d := by
  induction m with
  | nil => rfl
  | cons e l ih => rw [sparseGet, if_neg (h e (.head _)), ih fun x hx => h x (.tail _ hx)]

theorem sparseGet_append_left {l m : List (Nat × β)} {a : Nat} (h : ∀ e ∈ m, e.1 ≠ a) :
    sparseGet d (l ++ m) a = sparseGet d l a := by
  induction l with
  | nil => exact sparseGet_none h
  | cons e l ih =>
    rw [List.cons_append, sparseGet, sparseGet, ih]

theorem sparseGet_filter {l : List (Nat × β)} {c : Nat × β → Bool} {a : Nat} (h : ∀ v, c (a, v) = true) :
    sparseGet d (l.filter c) a = sparseGet d l a := by
  induction l with
  | nil => rfl
  | cons e l ih =>
    obtain ⟨k, v⟩ := e
    by_cases hk : k = a
    · rw [List.filter_cons_of_pos (hk ▸ h v), sparseGet, sparseGet, if_pos hk, if_pos hk]
    · by_cases hc : c (k, v) = true
      · rw [List.filter_cons_of_pos hc, sparseGet, sparseGet, if_neg hk, if_neg hk, ih]
      · rw [List.filter_cons_of_neg hc, sparseGet, if_neg hk, ih]

theorem sparseGet_map {l : List (Nat × β)} {g : Nat → Nat} {a : Nat} (h : ∀ e ∈ l, g e.1 = g a → e.1 = a) :
    sparseGet d (l.map fun e => (g e.1, e.2)) (g a) = sparseGet d l a := by
  induction l with
  | nil => rfl
  | cons e l ih =>
    rw [List.map_cons, sparseGet, sparseGet, ih fun x hx => h x (.tail _ hx)]
    by_cases he : e.1 = a
    · rw [if_pos he, if_pos (by rw [he])]
    · rw [if_neg he, if_neg fun h' => he (h e (.head _) h')]

end Sparse

/-! ## Writes of piste memory -/

theorem setBytes_regs (bs : List Byte) : ∀ (s : State) (a : Nat), (s.setBytes a bs).regs = s.regs := by
  induction bs with
  | nil => exact fun _ _ => rfl
  | cons b l ih => exact fun s a => (ih _ _).trans rfl

theorem ofBytesLE_word (w : Word) : ofBytesLE [w.extractLsb' 0 8, w.extractLsb' 8 8, w.extractLsb' 16 8, w.extractLsb' 24 8] = w.toNat := by
  simp only [ofBytesLE, BitVec.extractLsb'_toNat, Nat.shiftRight_eq_div_pow]
  omega

theorem bytesAt_four (s : State) (a : Nat) : s.bytesAt a 4 = [s.byte (a + 0), s.byte (a + 1), s.byte (a + 2), s.byte (a + 3)] := rfl

theorem memWord_setMemWord (s : State) (a : Nat) (v : Word) : (s.setMemWord a v).memWord a = v := by
  have h : ∀ i (hi : i < (bytesLE 4 v.toNat).length), (s.setMemWord a v).byte (a + i) = (bytesLE 4 v.toNat)[i] :=
    byte_setBytes _ s a
  have hb : (s.setMemWord a v).bytesAt a 4
      = [v.extractLsb' 0 8, v.extractLsb' 8 8, v.extractLsb' 16 8, v.extractLsb' 24 8] := by
    rw [bytesLE_four] at h
    rw [bytesAt_four, h 0 (by simp), h 1 (by simp), h 2 (by simp), h 3 (by simp)]
    rfl
  rw [State.memWord, hb, ofBytesLE_word]
  exact BitVec.eq_of_toNat_eq (by rw [word, BitVec.toNat_ofNat, Nat.mod_eq_of_lt v.isLt])

theorem byte_setMemWord_ne (s : State) {a b : Nat} (v : Word) (h : b < a ∨ a + 4 ≤ b) : (s.setMemWord a v).byte b = s.byte b :=
  byte_setBytes_ne _ s a b (by simpa [bytesLE] using h)

theorem reg_setMemWord (s : State) (a : Nat) (v : Word) (b : Nat) : (s.setMemWord a v).reg b = s.reg b :=
  reg_of_regs (setBytes_regs _ s a) b

section Pistes
variable {s : State} {p : Fin 4}

theorem pisteWrite_takes {addr v : Word} (h : s.TakesWrite p fabPage (addr.toNat / 4 * 4)) (h0 : 0x50000000 ≤ addr.toNat)
    (h1 : addr.toNat < 0x50040000) (hr : (addr.toNat - 0x50000000) / 0x20000 ≠ s.runPiste)
    (hl : s.flag Fd.FAB_STAT_IDLE_LOCK = false) :
    exec (.pisteWrite p addr v) s = .next (s.setMemWord (addr.toNat / 4 * 4) v) := by
  obtain ⟨hlive, hfree, hon, hown⟩ := h
  have hc : ¬ ((addr.toNat / 4 * 4 - 0x50000000) / 0x20000 = s.runPiste ∨ s.flag Fd.FAB_STAT_IDLE_LOCK = true) := by
    rw [hl, show (addr.toNat / 4 * 4 - 0x50000000) / 0x20000 = (addr.toNat - 0x50000000) / 0x20000 by omega]
    simpa using hr
  refine next_eq ?_
  rw [hlive, hfree, hon, hown, if_neg hc, if_pos (⟨by omega, by omega⟩ : 0x50000000 ≤ addr.toNat / 4 * 4 ∧ addr.toNat / 4 * 4 < 0x50040000)]
  rfl

theorem pisteWrite_locked {addr v : Word} (hon : s.pageOn fabPage = true) (hf : s.writeHeld p (addr.toNat / 4 * 4) = false)
    (hc : (addr.toNat / 4 * 4 - 0x50000000) / 0x20000 = s.runPiste ∨ s.flag Fd.FAB_STAT_IDLE_LOCK = true) :
    exec (.pisteWrite p addr v) s = .next s := by
  refine next_eq ?_
  rw [hon, hf, if_pos hc]
  cases s.portLive p <;> rfl

/-! ## The copy (R165) -/

theorem copyPiste_copied {i : Nat} (hi : i < 0x20000) :
    s.copyPiste.byte (pisteBase s.idlePiste + i) = s.byte (pisteBase s.runPiste + i) := by
  let g := fun k => k - pisteBase s.runPiste + pisteBase s.idlePiste
  have hg : pisteBase s.idlePiste + i = g (pisteBase s.runPiste + i) := by
    change _ = pisteBase s.runPiste + i - pisteBase s.runPiste + pisteBase s.idlePiste
    omega
  have hlo : ∀ e ∈ s.mem.filter (fun e => e.1 < pisteBase s.idlePiste), e.1 ≠ g (pisteBase s.runPiste + i) := by
    intro e he
    have := of_decide_eq_true (List.mem_filter.1 he).2
    omega
  have hhi : ∀ e ∈ s.mem.filter (fun e => pisteBase s.idlePiste + 0x20000 ≤ e.1), e.1 ≠ g (pisteBase s.runPiste + i) := by
    intro e he
    have := of_decide_eq_true (List.mem_filter.1 he).2
    omega
  rw [hg]
  refine (sparseGet_append_left hhi).trans ((sparseGet_append_right hlo).trans ((sparseGet_map (g := g) ?_).trans (sparseGet_filter ?_)))
  · intro e he h
    have := (List.mem_filter.1 he).2
    simp only [Bool.and_eq_true, decide_eq_true_eq] at this
    change e.1 - pisteBase s.runPiste + pisteBase s.idlePiste = pisteBase s.runPiste + i - pisteBase s.runPiste + pisteBase s.idlePiste at h
    omega
  · intro v
    simp only [Bool.and_eq_true, decide_eq_true_eq]
    omega

theorem copyPiste_kept {a : Nat} (h : a < pisteBase s.idlePiste ∨ pisteBase s.idlePiste + 0x20000 ≤ a) :
    s.copyPiste.byte a = s.byte a := by
  have hmid : ∀ e ∈ (s.mem.filter fun e => pisteBase s.runPiste ≤ e.1 && e.1 < pisteBase s.runPiste + 0x20000).map
      (fun e => (e.1 - pisteBase s.runPiste + pisteBase s.idlePiste, e.2)), e.1 ≠ a := by
    intro e he
    obtain ⟨x, hx, rfl⟩ := List.mem_map.1 he
    have := (List.mem_filter.1 hx).2
    simp only [Bool.and_eq_true, decide_eq_true_eq] at this
    change x.1 - pisteBase s.runPiste + pisteBase s.idlePiste ≠ a
    omega
  obtain h | h := h
  · have hhi : ∀ e ∈ s.mem.filter (fun e => pisteBase s.idlePiste + 0x20000 ≤ e.1), e.1 ≠ a := by
      intro e he
      have := of_decide_eq_true (List.mem_filter.1 he).2
      omega
    exact (sparseGet_append_left hhi).trans ((sparseGet_append_left hmid).trans (sparseGet_filter fun v => decide_eq_true h))
  · have hlo : ∀ e ∈ s.mem.filter (fun e => e.1 < pisteBase s.idlePiste), e.1 ≠ a := by
      intro e he
      have := of_decide_eq_true (List.mem_filter.1 he).2
      omega
    refine (sparseGet_append_right fun e he => ?_).trans (sparseGet_filter fun v => decide_eq_true h)
    exact (List.mem_append.1 he).elim (hlo e) (hmid e)

theorem reg_copyPiste (s : State) (a : Nat) : s.copyPiste.reg a = s.reg a := reg_of_regs rfl a

theorem fld_syncLock (s : State) {f : Fld} (h : Adr.FAB_STAT ≠ f.addr ∨ Fd.FAB_STAT_IDLE_LOCK.hi < f.lo ∨ f.hi < Fd.FAB_STAT_IDLE_LOCK.lo) :
    s.syncLock.fld f = s.fld f := by
  rw [State.syncLock, fld_setFld_other _ _ (by simp) h]

theorem pisteCopy_after (h : s.TakesWrite p fabPage Adr.FAB_COPY) (hl : s.flag Fd.FAB_STAT_IDLE_LOCK = false) :
    After (exec (.pisteCopy p) s) fun t =>
      t.flag Fd.FAB_STAT_COPY_BUSY = true ∧ t.flag Fd.FAB_STAT_IDLE_LOCK = true
      ∧ (∀ i, i < 0x20000 → t.byte (pisteBase s.idlePiste + i) = s.byte (pisteBase s.runPiste + i))
      ∧ (∀ a, a < pisteBase s.idlePiste ∨ pisteBase s.idlePiste + 0x20000 ≤ a → t.byte a = s.byte a)
      ∧ ∀ a, a ≠ Adr.FAB_STAT → t.reg a = s.reg a := by
  have e : exec (.pisteCopy p) s = .next (((s.copyPiste.setFld Fd.FAB_STAT_COPY_BUSY 1).syncLock).bumpVer fabPage) :=
    next_eq ((directWriteAt_takes h).trans (by rw [State.copyStart, hl, if_neg (by decide)]))
  have hi := fun i (hi : i < 0x20000) => copyPiste_copied (s := s) hi
  have hk := fun a h => copyPiste_kept (s := s) (a := a) h
  have hr := reg_copyPiste s
  generalize s.copyPiste = t at *
  have hb : (t.setFld Fd.FAB_STAT_COPY_BUSY 1).flag Fd.FAB_STAT_COPY_BUSY = true := by
    rw [State.flag, fld_setFld_same _ _ _ (by simp)]
    rfl
  have hq : Quiet (· = Adr.FAB_STAT) t (((t.setFld Fd.FAB_STAT_COPY_BUSY 1).syncLock).bumpVer fabPage) :=
    .bumpVer (.setFld (.setFld (.refl (· = Adr.FAB_STAT) t) _ rfl) _ rfl) _
  refine .of_eq e ⟨?_, ?_, ?_, ?_, ?_⟩
  · rw [State.flag, fld_bumpVer, State.syncLock, fld_setFld_bits _ _ (by simp) (by simp)]
    exact hb
  · rw [State.flag, fld_bumpVer, State.syncLock, hb, Bool.or_true, Bool.true_or, fld_setFld_same _ _ _ (by simp)]
    rfl
  · exact fun i h => (hq.bytes _).trans (hi i h)
  · exact fun a h => (hq.bytes _).trans (hk a h)
  · exact fun a h => (hq.regs a h).trans (hr a)

theorem pisteCopy_refused (h : s.TakesWrite p fabPage Adr.FAB_COPY) (hl : s.flag Fd.FAB_STAT_IDLE_LOCK = true) :
    exec (.pisteCopy p) s = .next ((s.setErr fabPage 3).bumpVer fabPage) :=
  next_eq ((directWriteAt_takes h).trans (by rw [State.copyStart, hl, if_pos rfl]))

theorem copyDone_eq (hd : s.domOn Dm.FAB = true) (hb : s.flag Fd.FAB_STAT_COPY_BUSY = true) :
    exec .copyDone s = .next (((s.setFld Fd.FAB_STAT_COPY_BUSY 0).syncLock).raise fabPage FabEv.COPY_DONE) :=
  next_pos (by rw [hd, hb]; rfl)

/-! ## The end of a crossover (R178) -/

/-- The fabric when its crossover has ended. -/
def Fab.crossed (f : Fab) : Fab := { f with old := none, crossing := [], xLen := 0, xDone := 0, biquadsOld := [], dynsOld := [] }

theorem Fab.crossed_old (f : Fab) : f.crossed.old = none := rfl
theorem Fab.crossed_crossing (f : Fab) : f.crossed.crossing = [] := rfl
theorem dlines_withLines (s : State) (l : List DLine) : (s.withLines l).dlines = l := rfl
theorem reg_withLines (s : State) (l : List DLine) (a : Nat) : (s.withLines l).reg a = s.reg a := reg_of_regs rfl a
theorem dlines_updFab (s : State) (f : Fab → Fab) : (s.updFab f).dlines = s.dlines := rfl

theorem endXover_eq (s : State) : s.endXover =
    ((((((s.updFab Fab.crossed).withLines (s.dlines.filter fun l => !l.draining)).setFld Fd.FAB_STAT_XOVER_ACTIVE 0).setFld
      Fd.FAB_STAT_XOVER_REMAIN 0).setFld Fd.FAB_RUN_COST_COST (min s.fab.costAfter 0xFFFF)).syncLock).raise fabPage FabEv.XOVER_DONE := rfl

theorem xoverEnd_after (ha : s.flag Fd.FAB_STAT_XOVER_ACTIVE = true) (hx : s.fab.xDone = s.fab.xLen) :
    After (exec .xoverEnd s) fun t => t.flag Fd.FAB_STAT_XOVER_ACTIVE = false ∧ t.fld Fd.FAB_STAT_XOVER_REMAIN = 0
      ∧ t.fld Fd.FAB_RUN_COST_COST = min s.fab.costAfter 0xFFFF ∧ t.fab.old = none ∧ t.fab.crossing = []
      ∧ t.dlines = s.dlines.filter (fun l => !l.draining) ∧ t.evt fabPage FabEv.XOVER_DONE = true
      ∧ Frame (fun a => a = Adr.FAB_STAT ∨ a = Adr.FAB_RUN_COST ∨ StatusOf [fabPage] a) s t := by
  refine .of_eq ((next_pos (by rw [ha, hx, Bool.true_and, beq_self_eq_true])).trans (congrArg _ (endXover_eq s))) ?_
  have hf : ((s.updFab Fab.crossed).withLines (s.dlines.filter fun l => !l.draining)).fab = s.fab.crossed := by
    rw [fab_withLines, fab_updFab]
  have hd := dlines_withLines (s.updFab Fab.crossed) (s.dlines.filter fun l => !l.draining)
  have hq : Frame (fun a => a = Adr.FAB_STAT ∨ a = Adr.FAB_RUN_COST ∨ StatusOf [fabPage] a) s
      ((s.updFab Fab.crossed).withLines (s.dlines.filter fun l => !l.draining)) := .withLines (.updFab (.refl _ s) _) _
  generalize (s.updFab Fab.crossed).withLines (s.dlines.filter fun l => !l.draining) = t at *
  have hc : min s.fab.costAfter 0xFFFF < 2 ^ 16 := by omega
  generalize min s.fab.costAfter 0xFFFF = c at *
  have hr : ∀ (u : State) (f : Fld), f.addr = Adr.FAB_STAT ∨ f.addr = Adr.FAB_RUN_COST →
      (u.raise fabPage FabEv.XOVER_DONE).fld f = u.fld f := fun u f h =>
    fld_raise _ _ _ (by grind) (by grind) (by grind)
  refine ⟨?_, ?_, ?_, ?_, ?_, ?_, evt_raise _ _ (by decide), ?_⟩
  · rw [State.flag, hr _ _ (by simp), fld_syncLock _ (by decide), fld_setFld_addr _ _ (by decide),
      fld_setFld_bits _ _ (by simp) (by simp), fld_setFld_same _ _ _ (by simp)]
    rfl
  · rw [hr _ _ (by simp), fld_syncLock _ (by decide), fld_setFld_addr _ _ (by decide), fld_setFld_same _ _ _ (by simp)]
    rfl
  · rw [hr _ _ (by simp), fld_syncLock _ (by decide), fld_setFld_same _ _ _ (by simp)]
    exact Nat.mod_eq_of_lt hc
  · rw [raise_fab, State.syncLock, setFld_fab, setFld_fab, setFld_fab, setFld_fab, hf, Fab.crossed_old]
  · rw [raise_fab, State.syncLock, setFld_fab, setFld_fab, setFld_fab, setFld_fab, hf, Fab.crossed_crossing]
  · rw [raise_dlines, State.syncLock, setFld_dlines, setFld_dlines, setFld_dlines, setFld_dlines, hd]
  · exact .raise (.setFld (.setFld (.setFld (.setFld hq _ (.inl rfl)) _ (.inl rfl)) _ (.inr (.inl rfl))) _ (.inl rfl)) _
      fun _ h => .inr (.inr h)

/-! ## The check (R185) -/

/-- `s` with the check's outcome to come. -/
def State.withCheck (s : State) (c : Option (Option Admission)) : State := s.updFab fun f => { f with check := c }

theorem check_withCheck (s : State) (c : Option (Option Admission)) : (s.withCheck c).fab.check = c := rfl
theorem reg_withCheck (s : State) (c : Option (Option Admission)) (a : Nat) : (s.withCheck c).reg a = s.reg a := reg_updFab _ _ _
theorem Quiet.withCheck {R : Nat → Prop} {s t : State} (h : Quiet R s t) (c : Option (Option Admission)) : Quiet R s (t.withCheck c) :=
  h.updFab _

theorem admissionCheck_after (h : s.TakesWrite p fabPage Adr.FAB_CHECK) :
    After (exec (.admissionCheck p) s) fun t => t.flag Fd.FAB_STAT_CHECK_BUSY = true ∧ t.fab.check =
      some ((s.pisteIn s.idlePiste).map fun q => admission s.fab.run q (s.xoverLen (s.fld Fd.FAB_XOVER_TICKS)))
      ∧ Quiet (· = Adr.FAB_STAT) s t := by
  generalize hc : (s.pisteIn s.idlePiste).map (fun q => admission s.fab.run q (s.xoverLen (s.fld Fd.FAB_XOVER_TICKS))) = c
  have e : exec (.admissionCheck p) s = .next (((s.withCheck (some c)).setFld Fd.FAB_STAT_CHECK_BUSY 1).bumpVer fabPage) :=
    next_eq ((directWriteAt_takes h).trans (by rw [State.checkStart, hc, State.withCheck]))
  refine .of_eq e ⟨?_, ?_, .bumpVer (.setFld (.withCheck (.refl (· = Adr.FAB_STAT) s) _) _ rfl) _⟩
  · rw [State.flag, fld_bumpVer, fld_setFld_same _ _ _ (by simp)]
    rfl
  · rw [bumpVer_fab, setFld_fab, check_withCheck]

theorem reg_stageCosts (g : Nat → Word) (t : State) {a : Nat} (ha : ∀ k, k < 8 → a ≠ Adr.FAB_STAGE_COST k) :
    ((List.range 8).foldl (fun t k => t.setReg (Adr.FAB_STAGE_COST k) (g k)) t).reg a = t.reg a := by
  have hl : ∀ k ∈ List.range 8, k < 8 := fun k => List.mem_range.1
  generalize List.range 8 = l at hl
  induction l generalizing t with
  | nil => rfl
  | cons k l ih =>
    rw [List.foldl_cons, ih _ fun i hi => hl i (.tail _ hi), reg_setReg_ne _ _ (ha k (hl k (.head _))).symm]

theorem admitOut_cost (s : State) (x : Admission) : (s.admitOut (some x)).fld Fd.FAB_CHECK_COST_COST = min x.cost 0xFFFF := by
  have hk : ∀ k, k < 8 → Adr.FAB_CHECK_COST ≠ Adr.FAB_STAGE_COST k := fun k hk => by grind
  rw [State.fld, State.admitOut]
  dsimp only
  rw [reg_stageCosts _ _ hk, reg_setReg_ne _ _ (by decide), reg_setReg_same]
  rw [show Fd.FAB_CHECK_COST_COST.width = 16 from rfl]
  simp only [bitsAt, word, BitVec.toNat_ofNat]
  generalize decide (s.fabLimit < x.cost) = b
  cases b <;> simp only [bit] <;> omega

theorem checkDone_after {a : Option Admission} (hd : s.domOn Dm.FAB = true) (hc : s.fab.check = some a) :
    After (exec .checkDone s) fun t =>
    t.flag Fd.FAB_STAT_CHECK_BUSY = false ∧ t.fab.check = none ∧ t.evt fabPage FabEv.CHECK_DONE = true
      ∧ (∀ x ∈ a, t.fld Fd.FAB_CHECK_COST_COST = min x.cost 0xFFFF) := by
  have e : exec .checkDone s
      = .next ((((s.admitOut a).withCheck none).setFld Fd.FAB_STAT_CHECK_BUSY 0).raise fabPage FabEv.CHECK_DONE) := by
    refine next_eq ?_
    rw [hc, hd]
    exact if_neg (by decide)
  refine .of_eq e ⟨?_, ?_, evt_raise _ _ (by decide), fun x hx => ?_⟩
  · rw [State.flag, fld_raise _ _ _ (by decide) (by decide) (by decide), fld_setFld_same _ _ _ (by simp)]
    rfl
  · rw [raise_fab, setFld_fab, check_withCheck]
  · rw [fld_raise _ _ _ (by decide) (by decide) (by decide), fld_setFld_addr _ _ (by decide), fld_of_reg (reg_withCheck _ _ _),
      Option.mem_def.1 hx, admitOut_cost]

end Pistes

/-- Settles O19. -/
theorem pisteCommands : Obligations.PisteCommands := by
  unfold Obligations.PisteCommands
  exact ⟨fun _ _ _ _ h h0 h1 hr hl => pisteWrite_takes h h0 h1 hr hl, fun _ _ _ _ hon hf hc => pisteWrite_locked hon hf hc,
    fun a v s => ⟨memWord_setMemWord s a v, fun _ h => byte_setMemWord_ne s v h, reg_setMemWord s a v⟩,
    fun _ _ h hl => pisteCopy_after h hl, fun _ _ h hl => pisteCopy_refused h hl, fun _ hd hb => copyDone_eq hd hb,
    fun _ ha hx => xoverEnd_after ha hx, fun _ _ h => admissionCheck_after h, fun _ _ hd hc => checkDone_after hd hc⟩

end Sys2Proof.Machine
end

section
/-!
PROOFS. Parameter words, gain targets, objects, delay lines and generators (08_mixing_and_processing.md R192, R195, R205, R206,
R212–R214).
-/
namespace Sys2Proof.Machine

section Parameters
variable {s : State}

/-! ## What a parameter word changes beside itself -/

theorem Quiet.markObject {R : Nat → Prop} {s t : State} (h : Quiet R s t) (b : Nat) : Quiet R s (t.markObject b) := h.updFab _

theorem Quiet.objectClear {R : Nat → Prop} {s t : State} (h : Quiet R s t) (b : Nat) : Quiet R s (t.objectClear b) := by
  unfold State.objectClear
  split
  · exact h.updFab _
  · exact h.updFab _

theorem Quiet.aimGain {R : Nat → Prop} {s t : State} (h : Quiet R s t) (a : Nat) : Quiet R s (t.aimGain a) := h.setGain _ _

theorem Quiet.genRestart {R : Nat → Prop} {s t : State} (h : Quiet R s t) (j : Nat) : Quiet R s (t.genRestart j) := h.updFab _

/-- Beside its word, a parameter write changes no register and no byte. -/
theorem paramApply_quiet {a : Nat} (v : Nat) (h : s.maxlenFixed a = false) :
    Quiet (fun _ => False) (s.store a v) (s.paramApply a v) := by
  unfold State.paramApply
  rw [h, if_neg (by decide)]
  generalize s.store a v = t
  have h0 : Quiet (fun _ => False) t t := .refl _ t
  cases objectOf a with
  | none =>
    dsimp only
    split
    · exact h0.aimGain _
    · split
      · exact h0.genRestart _
      · exact h0
  | some o =>
    dsimp only
    split
    · split
      · exact h0.markObject _
      · exact h0
    · split
      · exact h0
      · have h1 : Quiet (fun _ => False) t (if bitOf v 30 = true then t.objectClear o.1 else t) := by
          split
          · exact h0.objectClear _
          · exact h0
        split
        · exact h1.markObject _
        · exact h1

theorem paramApply_after {a : Nat} (v : Nat) (h : s.maxlenFixed a = false) :
    (s.paramApply a v).reg a = s.stored a v ∧ Quiet (· = a) s (s.paramApply a v) := by
  have hq := paramApply_quiet v h
  refine ⟨(hq.regs a id).trans (reg_setReg_same _ _ _), ?_⟩
  exact Quiet.trans (.setReg (.refl (· = a) s) _ rfl) (hq.mono fun _ => False.elim)

theorem maxlenFixed_of_not {a : Nat} (h : isMaxlen a = false) : s.maxlenFixed a = false := by
  rw [State.maxlenFixed, h, Bool.false_and]

/-! ## Parameter words (R192) -/

/-- `s` with other writes for its next tick. -/
def State.withTickWrites (s : State) (l : List (Nat × Nat)) : State := { s with tickWrites := l }

theorem tickWrites_withTickWrites (s : State) (l : List (Nat × Nat)) : (s.withTickWrites l).tickWrites = l := rfl
theorem tickWrites_bumpVer (s : State) (g : Nat) : (s.bumpVer g).tickWrites = s.tickWrites := rfl
theorem pageVers_withTickWrites (s : State) (l : List (Nat × Nat)) : (s.withTickWrites l).pageVers = s.pageVers := rfl

theorem Quiet.withTickWrites {R : Nat → Prop} {s t : State} (h : Quiet R s t) (l : List (Nat × Nat)) :
    Quiet R s (t.withTickWrites l) := h.congr rfl rfl rfl

theorem paramWrite_eq {p : Fin 4} {addr v : Word} {q : PoolRow} {r : RegRow} {a : Nat} (ha : addr.toNat / 4 * 4 = a)
    (h : s.TakesWrite p (paramPage a) a) (hp : poolReg a = some (q, r)) (hw : r.writable = true) (hm : s.maxlenFixed a = false) :
    exec (.paramWrite p addr v) s = .next ((s.paramWrite a v.toNat).bumpVer (paramPage a)) := by
  subst ha
  refine next_eq ?_
  rw [hp]
  dsimp only
  rw [hw, hm]
  exact directWriteAt_takes h

theorem paramWrite_kept {p : Fin 4} {addr v : Word} {q : PoolRow} {r : RegRow} {a : Nat} (ha : addr.toNat / 4 * 4 = a)
    (h : s.TakesWrite p (paramPage a) a) (hp : poolReg a = some (q, r)) (hw : r.writable = true) (hm : s.maxlenFixed a = false)
    (hs : s.fabState ≠ .stopped) : After (exec (.paramWrite p addr v) s) fun t =>
      t.tickWrites = s.tickWrites ++ [(a, v.toNat)] ∧ t.pageVer (paramPage a) = (s.pageVer (paramPage a) + 1) % 2 ^ 32
      ∧ Quiet (fun _ => False) s t := by
  have hk : s.paramWrite a v.toNat = s.withTickWrites (s.tickWrites ++ [(a, v.toNat)]) := by
    rw [State.paramWrite, if_neg hs, State.withTickWrites]
  refine .of_eq (paramWrite_eq ha h hp hw hm) ?_
  rw [hk]
  refine ⟨?_, ?_, .bumpVer (.withTickWrites (.refl _ s) _) _⟩
  · rw [tickWrites_bumpVer, tickWrites_withTickWrites]
  · rw [pageVer_bumpVer, pageVer_of_pageVers (pageVers_withTickWrites _ _)]

theorem paramWrite_applied {p : Fin 4} {addr v : Word} {q : PoolRow} {r : RegRow} {a : Nat} (ha : addr.toNat / 4 * 4 = a)
    (h : s.TakesWrite p (paramPage a) a) (hp : poolReg a = some (q, r)) (hw : r.writable = true) (hm : s.maxlenFixed a = false)
    (hs : s.fabState = .stopped) : After (exec (.paramWrite p addr v) s) fun t =>
      t.reg a = s.stored a v.toNat ∧ Quiet (· = a) s t := by
  obtain ⟨h1, h2⟩ := paramApply_after v.toNat hm
  refine .of_eq (paramWrite_eq ha h hp hw hm) ?_
  rw [State.paramWrite, if_pos hs]
  exact ⟨(reg_bumpVer _ _ _).trans h1, h2.bumpVer _⟩

/-! ## Gain targets, objects and delays (R195, R205, R206, R212) -/

theorem gainTargetWrite_after (slot : Fin 4096) (v : Word) (hd : s.domOn Dm.FAB = true) :
    After (exec (.gainTargetWrite slot v) s) fun t =>
    t.reg (slotAddr slot) = s.stored (slotAddr slot) v.toNat
      ∧ t.gainAt (slotAddr slot) = (s.gainAt (slotAddr slot)).request
          (Gain.ofCode (bitsAt (s.stored (slotAddr slot) v.toNat).toNat 0 16))
      ∧ (∀ a, a ≠ slotAddr slot → t.gainAt a = s.gainAt a) ∧ Quiet (· = slotAddr slot) s t := by
  refine .of_eq (next_pos hd) ?_
  generalize slotAddr slot = a
  have hr : (s.store a v.toNat).reg a = s.stored a v.toNat := reg_setReg_same _ _ _
  have hg : ∀ b, (s.store a v.toNat).gainAt b = s.gainAt b := gainAt_of_gains rfl
  have hq : Quiet (· = a) s (s.store a v.toNat) := .setReg (.refl (· = a) s) _ rfl
  generalize s.store a v.toNat = t at *
  dsimp only [State.aimGain]
  refine ⟨?_, ?_, ?_, hq.setGain _ _⟩
  · rw [reg_setGain, hr]
  · rw [gainAt_setGain, if_pos rfl, hr, hg]
  · intro b hb
    rw [gainAt_setGain, if_neg hb.symm, hg]

theorem objectWrite_after {addr : Word} (v : Word) (hd : s.domOn Dm.FAB = true) (ho : (objectOf (addr.toNat / 4 * 4)).isSome = true)
    (hm : s.maxlenFixed (addr.toNat / 4 * 4) = false) : After (exec (.objectWrite addr v) s) fun t =>
      t.reg (addr.toNat / 4 * 4) = s.stored (addr.toNat / 4 * 4) v.toNat ∧ Quiet (· = addr.toNat / 4 * 4) s t :=
  .of_eq (next_pos (by rw [hd, ho]; rfl)) (paramApply_after v.toNat hm)

theorem delayChange_after (l : Fin 512) (v : Word) (hd : s.domOn Dm.FAB = true) : After (exec (.delayChange l v) s) fun t =>
    t.reg (Adr.DELAY_DELAY l) = s.stored (Adr.DELAY_DELAY l) v.toNat ∧ Quiet (· = Adr.DELAY_DELAY l) s t :=
  .of_eq (next_pos hd) (paramApply_after v.toNat (maxlenFixed_of_not (by grind [isMaxlen])))

/-! ## A reset biquad -/

theorem objectOf_biquad {a : Nat} (h0 : 0x50048000 ≤ a) (h1 : a < 0x50050000) : objectOf a = some (a / 32 * 32, a / 32 * 32 + 20) := by
  rw [objectOf, if_pos ⟨h0, h1⟩]

theorem objectClear_biquad {b i : Nat} (h : b < 0x50050000) (hi : (b - 0x50048000) / 32 = i) :
    sparseGet Biquad.zero (s.objectClear b).fab.biquads i = Biquad.zero := by
  subst hi
  rw [State.objectClear, if_pos h, fab_updFab]
  exact sparseGet_erase_same _ _ _

theorem biquads_markObject (s : State) (b : Nat) : (s.markObject b).fab.biquads = s.fab.biquads := rfl

/-- A write of a biquad's control word with its reset bit clears the object. -/
theorem paramApply_reset {b v : Nat} (h0 : 0x50048000 ≤ b) (h1 : b < 0x50050000) (hb : b % 32 = 0) (hv : bitOf v 30 = true) :
    s.paramApply (b + 20) v = ((s.store (b + 20) v).objectClear b).markObject b := by
  have hm : s.maxlenFixed (b + 20) = false := maxlenFixed_of_not (by grind [isMaxlen])
  have ho : objectOf (b + 20) = some (b, b + 20) := by
    rw [objectOf_biquad (by omega) (by omega), show (b + 20) / 32 * 32 = b by omega]
  rw [State.paramApply, hm, if_neg (by decide), ho]
  dsimp only
  rw [if_neg (by simp), if_neg (by omega), hv, if_pos rfl, if_pos (by simp)]

theorem objectReset_after {addr : Word} (hd : s.domOn Dm.FAB = true) (h0 : 0x50048000 ≤ addr.toNat) (h1 : addr.toNat < 0x50050000) :
    After (exec (.objectReset addr) s) fun t =>
      sparseGet Biquad.zero t.fab.biquads ((addr.toNat - 0x50048000) / 32) = Biquad.zero
      ∧ Quiet (· = addr.toNat / 32 * 32 + 20) s t := by
  have hi : (addr.toNat / 32 * 32 - 0x50048000) / 32 = (addr.toNat - 0x50048000) / 32 := by omega
  have hb : addr.toNat / 32 * 32 < 0x50050000 := by omega
  have hb0 : 0x50048000 ≤ addr.toNat / 32 * 32 := by omega
  have hbm : addr.toNat / 32 * 32 % 32 = 0 := by omega
  have ho := objectOf_biquad h0 h1
  generalize hc : addr.toNat / 32 * 32 = b at *
  generalize hw : withBit (s.reg (b + 20)).toNat 30 = w
  have hv : bitOf w 30 = true := by rw [← hw, bitOf_withBit_same]
  have e : exec (.objectReset addr) s = .next (((s.store (b + 20) w).objectClear b).markObject b) := by
    refine next_eq ?_
    rw [ho, ← paramApply_reset hb0 hb hbm hv, ← hw]
    exact if_pos hd
  refine .of_eq e ⟨?_, ?_⟩
  · rw [biquads_markObject, objectClear_biquad hb hi]
  · exact .markObject (.objectClear (.setReg (.refl (· = b + 20) s) _ rfl) _) _

/-! ## Generators and lines (R213, R214) -/

theorem generatorRestart_after (g : Fin 16) (hd : s.domOn Dm.FAB = true) : After (exec (.generatorRestart g) s) fun t =>
    t.fab.gens[g] = ⟨0, 0, false, false, s.genSeed g, 0⟩ ∧ t = { s with fab := { s.fab with gens := t.fab.gens } }
      ∧ ∀ h : Fin 16, h ≠ g → t.fab.gens[h] = s.fab.gens[h] := by
  refine .of_eq (next_pos hd) ?_
  have hg : (s.genRestart g).fab.gens = s.fab.gens.set g ⟨0, 0, false, false, s.genSeed g, 0⟩ := by
    rw [State.genRestart, fab_updFab, upd_fin]
  refine ⟨?_, rfl, fun h hh => ?_⟩
  · rw [hg, getElem_set_same]
  · rw [hg, getElem_set_ne _ _ hh.symm]

theorem lineFilled_after {l : Fin 512} {d : DLine} (hd : d ∈ s.dlines) (ht : d.tap = l.val) (hn : d.told = false)
    (hf : d.delay < d.filled) : After (exec (.lineFilled l) s) fun t =>
      t.dlines = s.dlines.map (fun x => if x.tap = l.val then { x with told := true } else x)
      ∧ t.evt procPage 1 = true ∧ Frame (StatusOf [procPage]) s t := by
  have hany : (s.dlines.any fun (d : DLine) => d.tap == l.val && !d.told && decide (d.delay < d.filled)) = true :=
    List.any_eq_true.2 ⟨d, hd, by simp [ht, hn, hf]⟩
  have e : exec (.lineFilled l) s
      = .next ((s.withLines (s.dlines.map fun x => if x.tap = l.val then { x with told := true } else x)).raise procPage 1) :=
    next_pos hany
  refine .of_eq e ⟨?_, evt_raise _ _ (by decide), .raise (.withLines (.refl _ s) _) _ fun _ h => h⟩
  rw [raise_dlines, dlines_withLines]

/-- A generator at the end of its sweep, as the next tick finds it. -/
def Gen.pastEnd (q : Gen) (loop : Bool) : Gen := { q with atEnd := false, ended := q.ended && !loop, swept := if loop then 0 else q.swept }

/-- `s` with other generators. -/
def State.withGens (s : State) (v : Vector Gen 16) : State := s.updFab fun f => { f with gens := v }

theorem gens_withGens (s : State) (v : Vector Gen 16) : (s.withGens v).fab.gens = v := rfl

theorem sweepEnd_after {g : Fin 16} (h : s.fab.gens[g].atEnd = true) : After (exec (.sweepEnd g) s) fun t =>
    t.fab.gens[g].atEnd = false ∧ t.fab.gens[g].ended = (s.fab.gens[g].ended && !s.flag (Fd.GEN_CTL_LOOP g))
      ∧ t.fab.gens[g].swept = (if s.flag (Fd.GEN_CTL_LOOP g) then 0 else s.fab.gens[g].swept)
      ∧ t.evt procPage 0 = true ∧ Frame (StatusOf [procPage]) s t := by
  have e : exec (.sweepEnd g) s
      = .next ((s.withGens (s.fab.gens.set g (s.fab.gens[g].pastEnd (s.flag (Fd.GEN_CTL_LOOP g))))).raise procPage 0) := next_pos h
  refine .of_eq e ?_
  have hg : ((s.withGens (s.fab.gens.set g (s.fab.gens[g].pastEnd (s.flag (Fd.GEN_CTL_LOOP g))))).raise procPage 0).fab.gens[g]
      = s.fab.gens[g].pastEnd (s.flag (Fd.GEN_CTL_LOOP g)) := by
    rw [raise_fab, gens_withGens, getElem_set_same]
  rw [hg]
  exact ⟨rfl, rfl, rfl, evt_raise _ _ (by decide), .raise (.updFab (.refl _ s) _) _ fun _ h => h⟩

end Parameters

/-- Settles O20. -/
theorem parameterCommands : Obligations.ParameterCommands := by
  unfold Obligations.ParameterCommands
  exact ⟨fun _ _ _ _ _ _ _ h hp hw hm hs => paramWrite_kept rfl h hp hw hm hs,
    fun _ _ _ _ _ _ _ h hp hw hm hs => paramWrite_applied rfl h hp hw hm hs, fun slot v _ hd => gainTargetWrite_after slot v hd,
    fun _ v _ hd ho hm => objectWrite_after v hd ho hm, fun _ _ hd h0 h1 => objectReset_after hd h0 h1,
    fun l v _ hd => delayChange_after l v hd, fun g _ hd => generatorRestart_after g hd,
    fun _ _ _ hd ht hn hf => lineFilled_after hd ht hn hf, fun _ _ h => sweepEnd_after h⟩

end Sys2Proof.Machine
end

section
/-!
PROOFS. Start and stop of a speaker channel (10_speaker_amplifier.md R248, R253, Table 10.4).
-/
namespace Sys2Proof.Machine

/-! ## The state and the parts of a channel -/

section Parts
variable {s : State} {n : Fin 4}

theorem ampState_of_reg {s t : State} {n : Fin 4} (h : t.reg (Adr.AMP_STATUS n) = s.reg (Adr.AMP_STATUS n)) :
    t.ampState n = s.ampState n := by
  rw [State.ampState, State.ampState, fld_of_reg h]

/-- A write of a field that is not STATE leaves the channel's state. -/
theorem ampState_setFld (s : State) (n : Fin 4) {f : Fld} (v : Nat) (hf : f.lo ≤ f.hi ∧ f.hi < 32)
    (h : f.addr ≠ Adr.AMP_STATUS n ∨ f.hi < 29) : (s.setFld f v).ampState n = s.ampState n := by
  rw [State.ampState, State.ampState, fld_setFld_other _ _ hf (h.imp_right .inl)]

theorem ampState_setAmpState (s : State) (n : Fin 4) (a : AmpState) : (s.setAmpState n a).ampState n = a := by
  rw [State.ampState, State.setAmpState, fld_setFld_same _ _ _ (by simp)]
  cases a <;> rfl

/-- The status and count registers of a channel are not those of its page's events. -/
theorem ampRegs_raise (n : Fin 4) (b : Nat) (s : State) {a : Nat} (h : a ≠ pageAddr (ampPage n) 0x010) (h1 : a ≠ 0x4000C010)
    (h2 : a ≠ 0x4000C060) : (s.raise (ampPage n) b).reg a = s.reg a := reg_raise s _ b h h1 h2

theorem ampState_raise (s : State) (n : Fin 4) (b : Nat) : (s.raise (ampPage n) b).ampState n = s.ampState n :=
  ampState_of_reg (ampRegs_raise n b s (by grind) (by grind) (by grind))

theorem amps_updAmp_same (s : State) (n : Fin 4) (f : Amp → Amp) : (s.updAmp n f).amps[n] = f s.amps[n] :=
  getElem_set_same s.amps n _

theorem amps_updAmp_ne (s : State) {n m : Fin 4} (f : Amp → Amp) (h : n ≠ m) : (s.updAmp n f).amps[m] = s.amps[m] :=
  getElem_set_ne s.amps _ h

theorem Quiet.updAmp {R : Nat → Prop} {s t : State} (h : Quiet R s t) (n : Fin 4) (f : Amp → Amp) : Quiet R s (t.updAmp n f) :=
  h.congr rfl rfl rfl

theorem Frame.updAmp {R : Nat → Prop} {s t : State} (h : Frame R s t) (n : Fin 4) (f : Amp → Amp) : Frame R s (t.updAmp n f) :=
  h.congr rfl rfl rfl

theorem Frame.setGain {R : Nat → Prop} {s t : State} (h : Frame R s t) (a : Nat) (g : Glide) : Frame R s (t.setGain a g) :=
  h.congr rfl rfl rfl

theorem gains_updAmp (s : State) (n : Fin 4) (f : Amp → Amp) : (s.updAmp n f).gains = s.gains := rfl

theorem cfgPend_updAmp (s : State) (n : Fin 4) (f : Amp → Amp) : (s.updAmp n f).cfgPend = s.cfgPend := rfl

theorem amps_setGain (s : State) (a : Nat) (g : Glide) : (s.setGain a g).amps = s.amps := rfl

/-- The lead of a channel follows AMPSYS.CFG alone. -/
theorem ampLead_of_reg {s t : State} (n : Fin 4) (h : t.reg Adr.AMPSYS_CFG = s.reg Adr.AMPSYS_CFG) : t.ampLead n = s.ampLead n := by
  rw [State.ampLead, State.ampLead, State.paired, State.paired, State.flag, State.flag, State.flag, State.flag,
    fld_of_reg (f := Fd.AMPSYS_CFG_PAR01) h, fld_of_reg (f := Fd.AMPSYS_CFG_PAR23) h]

theorem ampMate_of_reg {s t : State} (n : Fin 4) (h : t.reg Adr.AMPSYS_CFG = s.reg Adr.AMPSYS_CFG) : t.ampMate n = s.ampMate n := by
  rw [State.ampMate, State.ampMate, State.paired, State.paired, State.flag, State.flag, State.flag, State.flag,
    fld_of_reg (f := Fd.AMPSYS_CFG_PAR01) h, fld_of_reg (f := Fd.AMPSYS_CFG_PAR23) h]

theorem domOn_of_doms {s t : State} (h : t.doms = s.doms) (d : Nat) : t.domOn d = s.domOn d := by
  rw [State.domOn, State.domOn, State.dom, State.dom, h]

theorem ampUp_congr {s t : State} (n : Fin 4) (h : t.reg Adr.AMPSYS_CFG = s.reg Adr.AMPSYS_CFG) (hd : t.doms = s.doms) :
    t.ampUp n = s.ampUp n := by
  rw [State.ampUp, State.ampUp, ampLead_of_reg n h, ampMate_of_reg n h, domOn_of_doms hd, domOn_of_doms hd]

/-- What keeps a channel from starting is read from AMPSYS, the supply, the domains and the temperatures. -/
theorem ampBlock_congr {s t : State} (n : Fin 4) (hc : t.reg Adr.AMPSYS_CFG = s.reg Adr.AMPSYS_CFG)
    (hs : t.reg Adr.AMPSYS_STATUS = s.reg Adr.AMPSYS_STATUS) (hg : t.sag = s.sag) (hd : t.doms = s.doms)
    (ht : ∀ k : Fin 4, t.amps[k].temp = s.amps[k].temp) : t.ampBlock n = s.ampBlock n := by
  have huv : t.flag Fd.AMPSYS_STATUS_UV = s.flag Fd.AMPSYS_STATUS_UV := by rw [State.flag, State.flag, fld_of_reg hs]
  have hov : t.flag Fd.AMPSYS_STATUS_OV = s.flag Fd.AMPSYS_STATUS_OV := by rw [State.flag, State.flag, fld_of_reg hs]
  unfold State.ampBlock
  simp only [huv, hov, hg, domOn_of_doms hd, ampLead_of_reg n hc, ampMate_of_reg n hc, ht]

/-! ## The pipeline when a pre-check begins -/

theorem pipePreempt_cores (s : State) (c : Option Nat) : CoresOnly s (s.pipePreempt c) := by
  unfold State.pipePreempt
  have h : CoresOnly s (if (c.isNone && s.hka.urg.isSome) = true then s else s.withHka { s.hka with pipe := c }) := by
    split
    · exact .refl s
    · exact (CoresOnly.refl s).withHka _ rfl
  dsimp only
  split
  · exact h.updSeq _ _
  · exact h

theorem pipePreempt_regs (s : State) (c : Option Nat) : (s.pipePreempt c).regs = s.regs ∧ (s.pipePreempt c).rings = s.rings
    ∧ (s.pipePreempt c).mem = s.mem := by
  unfold State.pipePreempt
  dsimp only
  split <;> split <;> exact ⟨rfl, rfl, rfl⟩

theorem Quiet.pipePreempt {R : Nat → Prop} {s t : State} (h : Quiet R s t) (c : Option Nat) : Quiet R s (t.pipePreempt c) := by
  obtain ⟨h1, h2, h3⟩ := pipePreempt_regs t c
  exact h.congr h1 h3 h2

/-- A pre-check begins: STARTING, and the channel's step. -/
theorem ampBegin_after (s : State) (n : Fin 4) : (s.ampBegin n).ampState n = .starting
    ∧ (s.ampBegin n).amps[n] = { s.amps[n] with step := .precheck } ∧ Quiet (· = Adr.AMP_STATUS n) s (s.ampBegin n) := by
  unfold State.ampBegin
  have ha : ((s.setAmpState n .starting).updAmp n fun a => { a with step := .precheck }).amps[n]
      = { s.amps[n] with step := .precheck } := by
    rw [amps_updAmp_same, State.setAmpState, setFld_amps]
  have hs : ((s.setAmpState n .starting).updAmp n fun a => { a with step := .precheck }).ampState n = .starting := by
    rw [ampState_of_reg (reg_updAmp _ _ _ _), ampState_setAmpState]
  have hq : Quiet (· = Adr.AMP_STATUS n) s ((s.setAmpState n .starting).updAmp n fun a => { a with step := .precheck }) :=
    .updAmp (.setFld (.refl (· = Adr.AMP_STATUS n) s) _ rfl) _ _
  generalize (s.setAmpState n .starting).updAmp n (fun a => { a with step := .precheck }) = t at *
  refine ⟨?_, ?_, hq.pipePreempt _⟩
  · rw [ampState_of_reg (reg_of_regs (pipePreempt_regs t none).1 _), hs]
  · rw [(pipePreempt_cores t none).amps, ha]

/-- The stage stands: its gain is muted. -/
theorem ampStill_after (s : State) (n : Fin 4) : (s.ampStill n).amps = s.amps.set n { s.amps[n] with step := .none, stopLeft := 0, out := 0 }
    ∧ (s.ampStill n).gainAt (Adr.AMP_GAIN n) = muteGlide ∧ (s.ampStill n).regs = s.regs ∧ (s.ampStill n).cfgPend = s.cfgPend := by
  refine ⟨rfl, ?_, rfl, rfl⟩
  rw [State.ampStill, gainAt_setGain, if_pos rfl]

theorem Quiet.ampStill {R : Nat → Prop} {s t : State} (h : Quiet R s t) (n : Fin 4) : Quiet R s (t.ampStill n) :=
  (h.updAmp _ _).setGain _ _

theorem Frame.ampStill {R : Nat → Prop} {s t : State} (h : Frame R s t) (n : Fin 4) : Frame R s (t.ampStill n) :=
  (h.updAmp _ _).setGain _ _

end Parts

/-! ## ENABLE (R248) -/

section Enable
variable {s : State} {n : Fin 4}

theorem ampEnWrite_on (he : s.flag (Fd.AMP_CTRL_ENABLE n) = false) (hl : s.ampLeads n = true) :
    s.ampEnWrite n true = (s.setFld (Fd.AMP_CTRL_ENABLE n) 1).ampTry n := by
  have h2 : (s.setFld (Fd.AMP_CTRL_ENABLE n) 1).ampLeads n = true := by
    rw [State.ampLeads, ampLead_of_reg n (reg_setFld_ne _ _ _ (by grind))]
    exact hl
  unfold State.ampEnWrite
  dsimp only
  rw [if_neg (by simp), he, if_neg (by decide), show bit true = 1 from rfl, h2, if_neg (by decide), if_pos rfl]

/-- `s` as a start of channel `n` finds it. -/
def State.ampFresh (s : State) (n : Fin 4) : State :=
  (s.setFld (Fd.AMP_CTRL_ENABLE n) 1).updAmp n fun a => { a with retry := false, due := false }

theorem ampFresh_amps (s : State) (n : Fin 4) : (s.ampFresh n).amps[n] = { s.amps[n] with retry := false, due := false } := by
  rw [State.ampFresh, amps_updAmp_same, setFld_amps]

theorem ampFresh_temp (s : State) (n k : Fin 4) : (s.ampFresh n).amps[k].temp = s.amps[k].temp := by
  by_cases h : n = k
  · subst h
    rw [ampFresh_amps]
  · rw [State.ampFresh, amps_updAmp_ne _ _ h, setFld_amps]

theorem ampFresh_flag (s : State) (n : Fin 4) : (s.ampFresh n).flag (Fd.AMP_CTRL_ENABLE n) = true := by
  rw [State.flag, State.ampFresh, fld_updAmp, fld_setFld_same _ _ _ (by simp)]
  rfl

theorem ampFresh_quiet (s : State) (n : Fin 4) : Quiet (· = Adr.AMP_CTRL n) s (s.ampFresh n) :=
  .updAmp (.setFld (.refl (· = Adr.AMP_CTRL n) s) _ rfl) _ _

theorem ampFresh_sag (s : State) (n : Fin 4) : (s.ampFresh n).sag = s.sag := rfl
theorem ampFresh_doms (s : State) (n : Fin 4) : (s.ampFresh n).doms = s.doms := rfl

theorem ampEnable_eq (hp : s.pageTakes (ampPage n) = true) (he : s.flag (Fd.AMP_CTRL_ENABLE n) = false) (hl : s.ampLeads n = true)
    (hu : s.ampUp n = true) (ho : s.ampState n = .off) : exec (.ampEnable n) s = .next ((s.ampFresh n).ampStart n) := by
  have hc : (s.setFld (Fd.AMP_CTRL_ENABLE n) 1).reg Adr.AMPSYS_CFG = s.reg Adr.AMPSYS_CFG := reg_setFld_ne _ _ _ (by grind)
  have h1 : (s.setFld (Fd.AMP_CTRL_ENABLE n) 1).ampLeads n = true := by
    rw [State.ampLeads, ampLead_of_reg n hc]
    exact hl
  have h2 : (s.setFld (Fd.AMP_CTRL_ENABLE n) 1).ampUp n = true := by rw [ampUp_congr n hc (setFld_doms _ _ _), hu]
  have h3 : (s.setFld (Fd.AMP_CTRL_ENABLE n) 1).ampState n = .off := by
    rw [ampState_of_reg (reg_setFld_ne _ _ _ (by grind)), ho]
  have h4 : (s.setFld (Fd.AMP_CTRL_ENABLE n) 1).flag (Fd.AMP_CTRL_ENABLE n) = true := by
    rw [State.flag, fld_setFld_same _ _ _ (by simp)]
    rfl
  refine (next_pos hp).trans (congrArg _ ?_)
  rw [ampEnWrite_on he hl, State.ampTry, h1, h2, h3, h4, if_pos (by decide), State.ampFresh]

theorem ampFresh_block (s : State) (n : Fin 4) : (s.ampFresh n).ampBlock n = s.ampBlock n :=
  ampBlock_congr n ((ampFresh_quiet s n).regs _ (by grind)) ((ampFresh_quiet s n).regs _ (by grind)) (ampFresh_sag s n)
    (ampFresh_doms s n) (ampFresh_temp s n)

theorem ampEnable_starts (hp : s.pageTakes (ampPage n) = true) (he : s.flag (Fd.AMP_CTRL_ENABLE n) = false)
    (hl : s.ampLeads n = true) (hu : s.ampUp n = true) (ho : s.ampState n = .off) (hb : s.ampBlock n = none) :
    After (exec (.ampEnable n) s) fun t =>
      t.ampState n = .starting ∧ t.flag (Fd.AMP_CTRL_ENABLE n) = true ∧ t.amps[n].step = .precheck
      ∧ Quiet (fun a => a = Adr.AMP_CTRL n ∨ a = Adr.AMP_STATUS n) s t := by
  have hf := ampFresh_flag s n
  have hq := ampFresh_quiet s n
  have hb2 := (ampFresh_block s n).trans hb
  have e := ampEnable_eq hp he hl hu ho
  generalize s.ampFresh n = u at *
  rw [State.ampStart, hb2] at e
  obtain ⟨h1, h2, h3⟩ := ampBegin_after u n
  refine .of_eq e ⟨h1, ?_, ?_, ?_⟩
  · rw [State.flag, fld_of_reg (h3.regs _ (by grind))]
    exact hf
  · rw [h2]
  · exact (hq.mono fun _ => .inl).trans (h3.mono fun _ => .inr)

theorem ampCause_code_lt (c : AmpCause) : c.code < 2 ^ 4 := by cases c <;> decide

/-- What a suspension before the start leaves. -/
def State.ampHeldBack (s : State) (n : Fin 4) (c : AmpCause) (b : Bool) : State :=
  (((s.ampStill n).setAmpState n .suspended).setFld (Fd.AMP_STATUS_CAUSE n) c.code).updAmp n fun a => { a with supplyWait := b }

theorem ampStart_held {c : AmpCause} {b : Bool} (h : s.ampBlock n = some (c, b)) :
    s.ampStart n = (s.ampHeldBack n c b).raise (ampPage n) AmpEv.SUSPENDED := by
  rw [State.ampStart, h]
  rfl

theorem ampHeldBack_after (s : State) (n : Fin 4) (c : AmpCause) (b : Bool) : (s.ampHeldBack n c b).ampState n = .suspended
    ∧ (s.ampHeldBack n c b).fld (Fd.AMP_STATUS_CAUSE n) = c.code ∧ (s.ampHeldBack n c b).amps[n].supplyWait = b
    ∧ Quiet (· = Adr.AMP_STATUS n) s (s.ampHeldBack n c b) := by
  unfold State.ampHeldBack
  refine ⟨?_, ?_, ?_, ?_⟩
  · rw [ampState_of_reg (reg_updAmp _ _ _ _), ampState_setFld _ _ _ (by simp) (by simp), ampState_setAmpState]
  · rw [fld_updAmp, fld_setFld_same _ _ _ (by simp)]
    exact Nat.mod_eq_of_lt (ampCause_code_lt c)
  · rw [amps_updAmp_same]
  · exact .updAmp (.setFld (.setFld (.ampStill (.refl (· = Adr.AMP_STATUS n) s) _) _ rfl) _ rfl) _ _

theorem ampEnable_suspends {c : AmpCause} {b : Bool} (hp : s.pageTakes (ampPage n) = true)
    (he : s.flag (Fd.AMP_CTRL_ENABLE n) = false) (hl : s.ampLeads n = true) (hu : s.ampUp n = true) (ho : s.ampState n = .off)
    (hb : s.ampBlock n = some (c, b)) : After (exec (.ampEnable n) s) fun t => t.ampState n = .suspended
      ∧ t.fld (Fd.AMP_STATUS_CAUSE n) = c.code ∧ t.amps[n].supplyWait = b ∧ t.evt (ampPage n) AmpEv.SUSPENDED = true
      ∧ Frame (fun a => a = Adr.AMP_CTRL n ∨ a = Adr.AMP_STATUS n ∨ StatusOf [ampPage n] a) s t := by
  have e := ampEnable_eq hp he hl hu ho
  rw [ampStart_held ((ampFresh_block s n).trans hb)] at e
  obtain ⟨h1, h2, h3, h4⟩ := ampHeldBack_after (s.ampFresh n) n c b
  have hq : Quiet (fun a => a = Adr.AMP_CTRL n ∨ a = Adr.AMP_STATUS n ∨ StatusOf [ampPage n] a) s ((s.ampFresh n).ampHeldBack n c b) :=
    ((ampFresh_quiet s n).mono fun _ => .inl).trans (h4.mono fun _ h => .inr (.inl h))
  generalize (s.ampFresh n).ampHeldBack n c b = t at *
  refine .of_eq e ⟨?_, ?_, ?_, evt_raise _ _ (by decide), hq.frame.raise _ fun _ h => .inr (.inr h)⟩
  · rw [ampState_raise, h1]
  · rw [fld_raise _ _ _ (by grind) (by grind) (by grind), h2]
  · rw [raise_amps, h3]

/-! ## Stop (R248) -/

theorem ampEnWrite_off (he : s.flag (Fd.AMP_CTRL_ENABLE n) = true) (hs : s.ampState n = .running ∨ s.ampState n = .stopping)
    (hl : s.ampLeads n = true) : s.ampEnWrite n false = match s.ampState n with
      | .running => (((s.setFld (Fd.AMP_CTRL_ENABLE n) 0).setAmpState n .stopping).updAmp n fun a => { a with step := .glide }).setGain
          (Adr.AMP_GAIN n) ((s.gainAt (Adr.AMP_GAIN n)).aim .mute (s.fld (Fd.AMP_GLIDE_TICKS n)))
      | _ => s.setFld (Fd.AMP_CTRL_ENABLE n) 0 := by
  have h2 : (s.setFld (Fd.AMP_CTRL_ENABLE n) 0).ampLeads n = true := by
    rw [State.ampLeads, ampLead_of_reg n (reg_setFld_ne _ _ _ (by grind))]
    exact hl
  have h3 : (s.setFld (Fd.AMP_CTRL_ENABLE n) 0).ampState n = s.ampState n := ampState_of_reg (reg_setFld_ne _ _ _ (by grind))
  have h4 : (s.setFld (Fd.AMP_CTRL_ENABLE n) 0).gainAt (Adr.AMP_GAIN n) = s.gainAt (Adr.AMP_GAIN n) := gainAt_of_gains rfl _
  have h5 : (s.setFld (Fd.AMP_CTRL_ENABLE n) 0).fld (Fd.AMP_GLIDE_TICKS n) = s.fld (Fd.AMP_GLIDE_TICKS n) :=
    fld_setFld_addr _ _ (by grind)
  unfold State.ampEnWrite
  dsimp only
  obtain hs | hs := hs
  · rw [hs, if_neg (by simp), he, if_neg (by decide), show bit false = 0 from rfl, h2, if_neg (by decide), if_neg (by decide), h3, hs,
      h4, h5]
  · rw [hs, if_neg (by simp), he, if_neg (by decide), show bit false = 0 from rfl, h2, if_neg (by decide), if_neg (by decide), h3, hs]

theorem ampDisable_running (hp : s.pageTakes (ampPage n) = true) (he : s.flag (Fd.AMP_CTRL_ENABLE n) = true)
    (hl : s.ampLeads n = true) (hs : s.ampState n = .running) : After (exec (.ampDisable n) s) fun t => t.ampState n = .stopping
      ∧ t.flag (Fd.AMP_CTRL_ENABLE n) = false ∧ t.amps[n].step = .glide
      ∧ t.gainAt (Adr.AMP_GAIN n) = (s.gainAt (Adr.AMP_GAIN n)).aim .mute (s.fld (Fd.AMP_GLIDE_TICKS n))
      ∧ Quiet (fun a => a = Adr.AMP_CTRL n ∨ a = Adr.AMP_STATUS n) s t := by
  refine .of_eq ((next_pos hp).trans (congrArg _ (ampEnWrite_off he (.inl hs) hl))) ?_
  rw [hs]
  dsimp only
  refine ⟨?_, ?_, ?_, ?_, ?_⟩
  · rw [ampState_of_reg (reg_setGain _ _ _ _), ampState_of_reg (reg_updAmp _ _ _ _), ampState_setAmpState]
  · rw [State.flag, fld_setGain, fld_updAmp, State.setAmpState, fld_setFld_addr _ _ (by grind), fld_setFld_same _ _ _ (by simp)]
    rfl
  · rw [amps_setGain, amps_updAmp_same]
  · rw [gainAt_setGain, if_pos rfl]
  · exact .setGain (.updAmp (.setFld (.setFld (.refl _ s) _ (.inl rfl)) _ (.inr rfl)) _ _) _ _

theorem ampDisable_stopping (hp : s.pageTakes (ampPage n) = true) (he : s.flag (Fd.AMP_CTRL_ENABLE n) = true)
    (hl : s.ampLeads n = true) (hs : s.ampState n = .stopping) :
    exec (.ampDisable n) s = .next (s.setFld (Fd.AMP_CTRL_ENABLE n) 0) :=
  (next_pos hp).trans (congrArg _ ((ampEnWrite_off he (.inr hs) hl).trans (by rw [hs])))

end Enable

/-! ## The steps of a start (R253, Table 10.4) -/

section Steps
variable {s : State} {n : Fin 4} {r : PrecheckReading}

theorem precheckRuns (hr : s.hkaRuns = true) (hs : s.ampState n = .starting) (hp : s.amps[n].step = .precheck) :
    (s.hkaRuns && s.ampState n == .starting && s.amps[n].step == .precheck) = true := by
  rw [hr, hs, hp]
  rfl

theorem coresPage_amp (n : Fin 4) : ¬ OfPages [hkseqPage] (Adr.AMP_STATUS n) ∧ ¬ OfPages [hkseqPage] (Adr.AMP_CTRL n)
    ∧ ¬ OfPages [hkseqPage] (Adr.AMP_CNT n) ∧ ¬ OfPages [hkseqPage] (Adr.AMP_OCP n)
    ∧ ¬ OfPages [hkseqPage] (pageAddr (ampPage n) 0x010) := by
  have h : ∀ a, 0x40068000 ≤ a → ¬ OfPages [hkseqPage] a := by
    rintro a ha (⟨p, hp, g⟩ | g)
    · rw [List.mem_singleton.1 hp] at g
      grind
    · grind
  exact ⟨h _ (by grind), h _ (by grind), h _ (by grind), h _ (by grind), h _ (by grind)⟩

theorem precheck_free (h1 : 100 < r.p) (h2 : 100 < r.n) (h3 : r.p < (s.pvdd : Int) - 100) (h4 : r.n < (s.pvdd : Int) - 100) :
    s.precheck r = (none, s) := by
  unfold State.precheck
  dsimp only
  rw [decide_eq_false (by omega), decide_eq_false (by omega), decide_eq_false (by omega), decide_eq_false (by omega)]
  rfl

theorem precheck_high (h : (s.pvdd : Int) - 100 ≤ r.p ∨ (s.pvdd : Int) - 100 ≤ r.n) (h1 : 100 < r.p) (h2 : 100 < r.n) :
    s.precheck r = (some .shortPvdd, s) := by
  have hh : (decide ((s.pvdd : Int) - 100 ≤ r.p) || decide ((s.pvdd : Int) - 100 ≤ r.n)) = true := by
    rw [Bool.or_eq_true, decide_eq_true_eq, decide_eq_true_eq]
    exact h
  unfold State.precheck
  dsimp only
  rw [hh, decide_eq_false (p := r.p ≤ 100) (by omega), decide_eq_false (p := r.n ≤ 100) (by omega)]
  rfl

theorem precheck_low (h : r.p ≤ 100 ∨ r.n ≤ 100) (h1 : r.p < (s.pvdd : Int) - 100) (h2 : r.n < (s.pvdd : Int) - 100) :
    s.precheck r = (some .shortGnd, s) := by
  have hh : (decide (r.p ≤ 100) || decide (r.n ≤ 100)) = true := by
    rw [Bool.or_eq_true, decide_eq_true_eq, decide_eq_true_eq]
    exact h
  unfold State.precheck
  dsimp only
  rw [hh, decide_eq_false (p := (s.pvdd : Int) - 100 ≤ r.p) (by omega), decide_eq_false (p := (s.pvdd : Int) - 100 ≤ r.n) (by omega)]
  rfl

theorem ampPrecheckDone_free (hr : s.hkaRuns = true) (hs : s.ampState n = .starting) (hp : s.amps[n].step = .precheck)
    (h1 : 100 < r.p) (h2 : 100 < r.n) (h3 : r.p < (s.pvdd : Int) - 100) (h4 : r.n < (s.pvdd : Int) - 100) :
    After (exec (.ampPrecheckDone n r) s) fun t => t.ampState n = .starting ∧ t.amps[n].step = .release
      ∧ Frame (OfPages [hkseqPage]) s t := by
  have e : exec (.ampPrecheckDone n r) s = .next ((s.updAmp n fun a => { a with step := .release }).pipeResume) :=
    (next_pos (precheckRuns hr hs hp)).trans (by rw [precheck_free h1 h2 h3 h4])
  have hs2 : (s.updAmp n fun a => { a with step := .release }).ampState n = .starting := by
    rw [ampState_of_reg (reg_updAmp _ _ _ _), hs]
  have ha : (s.updAmp n fun a => { a with step := .release }).amps[n].step = .release := by rw [amps_updAmp_same]
  have hf : Frame (OfPages [hkseqPage]) s (s.updAmp n fun a => { a with step := .release }) := .updAmp (.refl _ s) _ _
  generalize s.updAmp n (fun a => { a with step := .release }) = t at *
  have hc := pipeResume_cores t
  refine .of_eq e ⟨?_, ?_, hf.trans hc.frame⟩
  · rw [ampState_of_reg (hc.frame.regs _ (coresPage_amp n).1), hs2]
  · rw [hc.amps, ha]

theorem ampPrecheckDone_high (hr : s.hkaRuns = true) (hs : s.ampState n = .starting) (hp : s.amps[n].step = .precheck)
    (h : (s.pvdd : Int) - 100 ≤ r.p ∨ (s.pvdd : Int) - 100 ≤ r.n) (h1 : 100 < r.p) (h2 : 100 < r.n) :
    exec (.ampPrecheckDone n r) s = .next (s.ampShutdown n .shortPvdd) :=
  (next_pos (precheckRuns hr hs hp)).trans (by rw [precheck_high h h1 h2])

theorem ampPrecheckDone_low (hr : s.hkaRuns = true) (hs : s.ampState n = .starting) (hp : s.amps[n].step = .precheck)
    (h : r.p ≤ 100 ∨ r.n ≤ 100) (h1 : r.p < (s.pvdd : Int) - 100) (h2 : r.n < (s.pvdd : Int) - 100) :
    exec (.ampPrecheckDone n r) s = .next (s.ampShutdown n .shortGnd) :=
  (next_pos (precheckRuns hr hs hp)).trans (by rw [precheck_low h h1 h2])

theorem ampRelease_eq (hs : s.ampState n = .starting) (hp : s.amps[n].step = .release) :
    exec (.ampRelease n) s
      = .next ((s.updAmp n fun a => { a with step := .idle, hist := [] }).setFld (Fd.AMP_STATUS_LIMITING n) 0) :=
  next_pos (by rw [hs, hp]; rfl)

theorem ampRunning_after (hs : s.ampState n = .starting) (hp : s.amps[n].step = .idle) : After (exec (.ampRunning n) s) fun t =>
    t.ampState n = .running ∧ t.amps[n].step = .none
      ∧ t.gainAt (Adr.AMP_GAIN n) = muteGlide.aim (s.outTarget (Adr.AMP_GAIN n)) (s.fld (Fd.AMP_GLIDE_TICKS n))
      ∧ t.evt (ampPage n) AmpEv.STARTED = true ∧ Frame (fun a => a = Adr.AMP_STATUS n ∨ StatusOf [ampPage n] a) s t := by
  have hq : Quiet (· = Adr.AMP_STATUS n) s ((s.setAmpState n .running).updAmp n fun q => { q with step := .none }) :=
    .updAmp (.setFld (.refl (· = Adr.AMP_STATUS n) s) _ rfl) _ _
  have hst : ((s.setAmpState n .running).updAmp n fun q => { q with step := .none }).ampState n = .running := by
    rw [ampState_of_reg (reg_updAmp _ _ _ _), ampState_setAmpState]
  have ha : ((s.setAmpState n .running).updAmp n fun q => { q with step := .none }).amps[n].step = .none := by rw [amps_updAmp_same]
  have e : exec (.ampRunning n) s = .next ((((s.setAmpState n .running).updAmp n fun q => { q with step := .none }).setGain
      (Adr.AMP_GAIN n) (muteGlide.aim (((s.setAmpState n .running).updAmp n fun q => { q with step := .none }).outTarget (Adr.AMP_GAIN n))
      (((s.setAmpState n .running).updAmp n fun q => { q with step := .none }).fld (Fd.AMP_GLIDE_TICKS n)))).raise
      (ampPage n) AmpEv.STARTED) := next_pos (by rw [hs, hp]; rfl)
  generalize (s.setAmpState n .running).updAmp n (fun q => { q with step := .none }) = t at *
  refine .of_eq e ⟨?_, ?_, ?_, evt_raise _ _ (by decide), .raise (.setGain (hq.mono fun _ => .inl).frame _ _) _ fun _ h => .inr h⟩
  · rw [ampState_raise, ampState_of_reg (reg_setGain _ _ _ _), hst]
  · rw [raise_amps, amps_setGain, ha]
  · rw [gainAt_of_gains (raise_gains _ _ _), gainAt_setGain, if_pos rfl, State.outTarget, hq.regs _ (by grind),
      fld_of_reg (hq.regs _ (by grind))]

theorem ampStopGlideDone_eq (hs : s.ampState n = .stopping) (hp : s.amps[n].step = .glide) (hg : (s.gainAt (Adr.AMP_GAIN n)).left = 0) :
    exec (.ampStopGlideDone n) s = .next (s.updAmp n fun a => { a with step := .half }) :=
  next_pos (by rw [hs, hp, hg]; rfl)

/-! ## OFF (R247, R248) -/

theorem applyFld_nil (f : Fld) (h : s.cfgPend = []) : s.applyFld f = s := by rw [State.applyFld, h]; rfl

theorem ampCfgApply_nil (n : Fin 4) (h : s.cfgPend = []) : s.ampCfgApply n = s := by
  rw [State.ampCfgApply, applyFld_nil _ h, applyFld_nil _ h]

theorem ampsysApply_nil (h : s.cfgPend = []) : s.ampsysApply = s := by rw [State.ampsysApply, h]; rfl

theorem ampTry_disabled (k : Fin 4) (h : s.flag (Fd.AMP_CTRL_ENABLE k) = false) : s.ampTry k = s := by
  rw [State.ampTry, h, Bool.and_false, if_neg (by decide)]

theorem ampTry_all (h : ∀ k : Fin 4, s.flag (Fd.AMP_CTRL_ENABLE k) = false) : (List.finRange 4).foldl State.ampTry s = s :=
  List.foldl_fixed' (fun k => ampTry_disabled k (h k)) _

/-- A channel that enters OFF, before its event. -/
def State.ampDown (s : State) (n : Fin 4) : State :=
  (((s.ampStill n).setAmpState n .off).setFld (Fd.AMP_STATUS_CAUSE n) 0).updAmp n
    fun a => { a with retry := false, due := false, supplyWait := false }

theorem ampDown_after (s : State) (n : Fin 4) : (s.ampDown n).ampState n = .off ∧ (s.ampDown n).fld (Fd.AMP_STATUS_CAUSE n) = 0
    ∧ (s.ampDown n).amps[n].step = .none ∧ (s.ampDown n).gainAt (Adr.AMP_GAIN n) = muteGlide
    ∧ (s.ampDown n).cfgPend = s.cfgPend ∧ Quiet (· = Adr.AMP_STATUS n) s (s.ampDown n) := by
  obtain ⟨h1, h2, h3, h4⟩ := ampStill_after s n
  have hq : Quiet (· = Adr.AMP_STATUS n) s (s.ampStill n) := .ampStill (.refl _ s) _
  unfold State.ampDown
  generalize s.ampStill n = t at *
  refine ⟨?_, ?_, ?_, ?_, ?_, ?_⟩
  · rw [ampState_of_reg (reg_updAmp _ _ _ _), ampState_setFld _ _ _ (by simp) (by simp), ampState_setAmpState]
  · rw [fld_updAmp, fld_setFld_same _ _ _ (by simp)]
    rfl
  · rw [amps_updAmp_same, setFld_amps, State.setAmpState, setFld_amps, h1, getElem_set_same]
  · rw [gainAt_of_gains (gains_updAmp _ _ _), gainAt_of_gains (setFld_gains _ _ _), State.setAmpState,
      gainAt_of_gains (setFld_gains _ _ _), h2]
  · rw [cfgPend_updAmp, setFld_cfgPend, State.setAmpState, setFld_cfgPend, h4]
  · exact .updAmp (.setFld (.setFld hq _ rfl) _ rfl) _ _

theorem ampOff_eq (hc : s.cfgPend = []) (he : ∀ k : Fin 4, s.flag (Fd.AMP_CTRL_ENABLE k) = false) :
    s.ampOff n = ((s.ampDown n).raise (ampPage n) AmpEv.OFF).pipeResume := by
  obtain ⟨-, -, -, -, h5, h6⟩ := ampDown_after s n
  have hcfg : (((s.ampDown n).raise (ampPage n) AmpEv.OFF).pipeResume).cfgPend = [] := by
    rw [(pipeResume_cores _).cfgPend, raise_cfgPend, h5, hc]
  have hen : ∀ k : Fin 4, (((s.ampDown n).raise (ampPage n) AmpEv.OFF).pipeResume).flag (Fd.AMP_CTRL_ENABLE k) = false := fun k => by
    rw [State.flag, fld_of_reg ((pipeResume_cores _).frame.regs _ (coresPage_amp k).2.1),
      fld_raise _ _ _ (by grind) (by grind) (by grind), fld_of_reg (h6.regs _ (by grind))]
    exact he k
  have e : s.ampOff n = (List.finRange 4).foldl State.ampTry
      (((((s.ampDown n).ampCfgApply n).raise (ampPage n) AmpEv.OFF).pipeResume).ampsysApply) := rfl
  rw [e, ampCfgApply_nil n (h5.trans hc), ampsysApply_nil hcfg, ampTry_all hen]

theorem ampOff_after (hs : s.ampState n = .stopping) (hp : s.amps[n].step = .half) (hc : s.cfgPend = [])
    (he : ∀ k : Fin 4, s.flag (Fd.AMP_CTRL_ENABLE k) = false) : After (exec (.ampOff n) s) fun t =>
      t.ampState n = .off ∧ t.fld (Fd.AMP_STATUS_CAUSE n) = 0 ∧ t.amps[n].step = .none
      ∧ t.gainAt (Adr.AMP_GAIN n) = muteGlide ∧ t.evt (ampPage n) AmpEv.OFF = true
      ∧ Frame (fun a => a = Adr.AMP_STATUS n ∨ OfPages [hkseqPage] a ∨ StatusOf [ampPage n] a) s t := by
  obtain ⟨h1, h2, h3, h4, -, h6⟩ := ampDown_after s n
  have e : exec (.ampOff n) s = .next (((s.ampDown n).raise (ampPage n) AmpEv.OFF).pipeResume) :=
    (next_pos (by rw [hs, hp]; rfl)).trans (by rw [ampOff_eq hc he])
  generalize s.ampDown n = t at *
  have hev := evt_raise t (ampPage n) (b := AmpEv.OFF) (by decide)
  have hst := (ampState_raise t n AmpEv.OFF).trans h1
  have hcause : (t.raise (ampPage n) AmpEv.OFF).fld (Fd.AMP_STATUS_CAUSE n) = 0 := by
    rw [fld_raise _ _ _ (by grind) (by grind) (by grind), h2]
  have ha : (t.raise (ampPage n) AmpEv.OFF).amps[n].step = .none := by rw [raise_amps, h3]
  have hg : (t.raise (ampPage n) AmpEv.OFF).gainAt (Adr.AMP_GAIN n) = muteGlide := by
    rw [gainAt_of_gains (raise_gains _ _ _), h4]
  have hf : Frame (fun a => a = Adr.AMP_STATUS n ∨ OfPages [hkseqPage] a ∨ StatusOf [ampPage n] a) s (t.raise (ampPage n) AmpEv.OFF) :=
    .raise (h6.mono fun _ => .inl).frame _ fun _ h => .inr (.inr h)
  generalize t.raise (ampPage n) AmpEv.OFF = u at *
  obtain ⟨k1, -, -, -, k5⟩ := coresPage_amp n
  have hcore := pipeResume_cores u
  refine .of_eq e ⟨?_, ?_, ?_, ?_, ?_, hf.trans (hcore.frame.mono fun _ h => .inr (.inl h))⟩
  · rw [ampState_of_reg (hcore.frame.regs _ k1), hst]
  · rw [fld_of_reg (hcore.frame.regs _ k1), hcause]
  · rw [hcore.amps, ha]
  · rw [gainAt_of_gains hcore.gains, hg]
  · rw [State.evt, hcore.frame.regs _ k5]
    exact hev

end Steps

/-- Settles O22. -/
theorem ampStateCommands : Obligations.AmpStateCommands := by
  unfold Obligations.AmpStateCommands
  exact ⟨fun _ _ hp he hl hu ho hb => ampEnable_starts hp he hl hu ho hb,
    fun _ _ _ _ hp he hl hu ho hb => ampEnable_suspends hp he hl hu ho hb, fun _ _ hp he hl hs => ampDisable_running hp he hl hs,
    fun _ _ hp he hl hs => ampDisable_stopping hp he hl hs, fun _ _ _ hr hs hp h1 h2 h3 h4 => ampPrecheckDone_free hr hs hp h1 h2 h3 h4,
    fun _ _ _ hr hs hp h h1 h2 => ampPrecheckDone_high hr hs hp h h1 h2, fun _ _ _ hr hs hp h h1 h2 => ampPrecheckDone_low hr hs hp h h1 h2,
    fun _ _ hs hp => ampRelease_eq hs hp, fun _ _ hs hp => ampRunning_after hs hp, fun _ _ hs hp hg => ampStopGlideDone_eq hs hp hg,
    fun _ _ hs hp hc he => ampOff_after hs hp hc he⟩

end Sys2Proof.Machine
end

section
/-!
PROOFS. What shuts down, latches and retries a speaker channel (10_speaker_amplifier.md R250–R254).
-/
namespace Sys2Proof.Machine

/-! ## A shutdown (R251–R254) -/

section Shutdown
variable (s : State) (n : Fin 4) (c : AmpCause)

/-- A channel struck by `c`: it stands, with its cause and its counts. -/
def State.ampCounted : State := ((s.ampStill n).setFld (Fd.AMP_STATUS_CAUSE n) c.code).countSat (Fd.AMP_CNT_SHUTDOWNS n) 1

/-- The same, with the failed retry counted. -/
def State.ampStruck : State :=
  if s.amps[n].retry then (s.ampCounted n c).countSat (Fd.AMP_STATUS_RETRIES n) 1 else s.ampCounted n c

/-- What a shutdown of channel `n` may change before its state. -/
abbrev AmpCounts (n : Fin 4) (a : Nat) : Prop := a = Adr.AMP_STATUS n ∨ a = Adr.AMP_CNT n

theorem ampCounted_after : (s.ampCounted n c).fld (Fd.AMP_STATUS_CAUSE n) = c.code
    ∧ (s.ampCounted n c).fld (Fd.AMP_CNT_SHUTDOWNS n) = satAdd 8 (s.fld (Fd.AMP_CNT_SHUTDOWNS n)) 1
    ∧ (s.ampCounted n c).fld (Fd.AMP_STATUS_RETRIES n) = s.fld (Fd.AMP_STATUS_RETRIES n)
    ∧ (s.ampCounted n c).gainAt (Adr.AMP_GAIN n) = muteGlide ∧ (s.ampCounted n c).amps = (s.ampStill n).amps
    ∧ Quiet (AmpCounts n) s (s.ampCounted n c) := by
  obtain ⟨-, h2, h3, -⟩ := ampStill_after s n
  have hq : Quiet (AmpCounts n) s (s.ampStill n) := .ampStill (.refl _ s) _
  have hf := fld_of_regs h3
  unfold State.ampCounted
  generalize s.ampStill n = t at *
  have hc : (t.setFld (Fd.AMP_STATUS_CAUSE n) c.code).fld (Fd.AMP_CNT_SHUTDOWNS n) = s.fld (Fd.AMP_CNT_SHUTDOWNS n) := by
    rw [fld_setFld_addr _ _ (by grind), hf]
  refine ⟨?_, ?_, ?_, ?_, ?_, ?_⟩
  · rw [State.countSat, fld_setFld_addr _ _ (by grind), fld_setFld_same _ _ _ (by simp)]
    exact Nat.mod_eq_of_lt (ampCause_code_lt c)
  · rw [fld_countSat_same _ (Fd.AMP_CNT_SHUTDOWNS n) _ (by simp), hc]
    rfl
  · rw [State.countSat, fld_setFld_addr _ _ (by grind), fld_setFld_bits _ _ (by simp) (by simp), hf]
  · rw [State.countSat, gainAt_of_gains (setFld_gains _ _ _), gainAt_of_gains (setFld_gains _ _ _), h2]
  · rw [State.countSat, setFld_amps, setFld_amps]
  · exact .countSat (.setFld hq _ (.inl rfl)) _ (.inr rfl)

theorem ampStruck_after : (s.ampStruck n c).fld (Fd.AMP_STATUS_CAUSE n) = c.code
    ∧ (s.ampStruck n c).fld (Fd.AMP_CNT_SHUTDOWNS n) = satAdd 8 (s.fld (Fd.AMP_CNT_SHUTDOWNS n)) 1
    ∧ (s.ampStruck n c).fld (Fd.AMP_STATUS_RETRIES n)
        = (if s.amps[n].retry then satAdd 4 (s.fld (Fd.AMP_STATUS_RETRIES n)) 1 else s.fld (Fd.AMP_STATUS_RETRIES n))
    ∧ (s.ampStruck n c).gainAt (Adr.AMP_GAIN n) = muteGlide ∧ (s.ampStruck n c).amps = (s.ampStill n).amps
    ∧ Quiet (AmpCounts n) s (s.ampStruck n c) := by
  obtain ⟨h1, h2, h3, h4, h5, h6⟩ := ampCounted_after s n c
  unfold State.ampStruck
  generalize s.ampCounted n c = t at *
  cases s.amps[n].retry
  · exact ⟨h1, h2, h3, h4, h5, h6⟩
  · rw [if_pos rfl, if_pos rfl]
    refine ⟨?_, ?_, ?_, ?_, ?_, .countSat h6 _ (.inl rfl)⟩
    · rw [State.countSat, fld_setFld_bits _ _ (by simp) (by simp), h1]
    · rw [State.countSat, fld_setFld_addr _ _ (by grind), h2]
    · rw [fld_countSat_same _ (Fd.AMP_STATUS_RETRIES n) _ (by simp), h3]
      rfl
    · rw [State.countSat, gainAt_of_gains (setFld_gains _ _ _), h4]
    · rw [State.countSat, setFld_amps, h5]

/-- A struck channel, announced, that latches or waits. -/
def State.ampHalted (t : State) (n : Fin 4) : State :=
  if t.fld (Fd.AMP_OCP_RETRY_MAX n) ≤ t.fld (Fd.AMP_STATUS_RETRIES n)
    then (t.setAmpState n .latched).raise (ampPage n) AmpEv.LATCHED else t.setAmpState n .retryWait

theorem ampShutdown_eq : s.ampShutdown n c = (((s.ampStruck n c).raise (ampPage n) AmpEv.SHUTDOWN).ampHalted n).pipeResume := rfl

/-- What an announced channel keeps when it halts. -/
theorem ampHalted_after (t : State) (n : Fin 4) :
    (t.ampHalted n).fld (Fd.AMP_STATUS_CAUSE n) = t.fld (Fd.AMP_STATUS_CAUSE n)
    ∧ (t.ampHalted n).fld (Fd.AMP_STATUS_RETRIES n) = t.fld (Fd.AMP_STATUS_RETRIES n)
    ∧ (t.ampHalted n).fld (Fd.AMP_CNT_SHUTDOWNS n) = t.fld (Fd.AMP_CNT_SHUTDOWNS n)
    ∧ (t.ampHalted n).ampState n
        = (if t.fld (Fd.AMP_OCP_RETRY_MAX n) ≤ t.fld (Fd.AMP_STATUS_RETRIES n) then .latched else .retryWait)
    ∧ (t.ampHalted n).gains = t.gains ∧ (t.ampHalted n).amps = t.amps
    ∧ (t.evt (ampPage n) AmpEv.SHUTDOWN = true → (t.ampHalted n).evt (ampPage n) AmpEv.SHUTDOWN = true)
    ∧ Frame (fun a => a = Adr.AMP_STATUS n ∨ StatusOf [ampPage n] a) t (t.ampHalted n) := by
  have hset : ∀ (a : AmpState) (f : Fld), f = Fd.AMP_STATUS_CAUSE n ∨ f = Fd.AMP_STATUS_RETRIES n ∨ f = Fd.AMP_CNT_SHUTDOWNS n →
      (t.setAmpState n a).fld f = t.fld f := by
    rintro a f (rfl | rfl | rfl)
    · rw [State.setAmpState, fld_setFld_bits _ _ (by simp) (by simp)]
    · rw [State.setAmpState, fld_setFld_bits _ _ (by simp) (by simp)]
    · rw [State.setAmpState, fld_setFld_addr _ _ (by grind)]
  have hev : ∀ a, t.evt (ampPage n) AmpEv.SHUTDOWN = true → (t.setAmpState n a).evt (ampPage n) AmpEv.SHUTDOWN = true := fun a h => by
    rw [State.evt, State.setAmpState, reg_setFld_ne _ _ _ (by grind)]
    exact h
  have hq : ∀ a, Frame (fun a => a = Adr.AMP_STATUS n ∨ StatusOf [ampPage n] a) t (t.setAmpState n a) := fun a =>
    .setFld (.refl _ t) _ (.inl rfl)
  unfold State.ampHalted
  split
  · refine ⟨?_, ?_, ?_, ?_, ?_, ?_, fun h => evt_raise_of _ _ _ (hev _ h), (hq _).raise _ fun _ h => .inr h⟩
    · rw [fld_raise _ _ _ (by grind) (by grind) (by grind), hset _ _ (.inl rfl)]
    · rw [fld_raise _ _ _ (by grind) (by grind) (by grind), hset _ _ (.inr (.inl rfl))]
    · rw [fld_raise _ _ _ (by grind) (by grind) (by grind), hset _ _ (.inr (.inr rfl))]
    · rw [ampState_raise, ampState_setAmpState]
    · rw [raise_gains, State.setAmpState, setFld_gains]
    · rw [raise_amps, State.setAmpState, setFld_amps]
  · refine ⟨hset _ _ (.inl rfl), hset _ _ (.inr (.inl rfl)), hset _ _ (.inr (.inr rfl)), ?_, ?_, ?_, hev _, hq _⟩
    · rw [ampState_setAmpState]
    · rw [State.setAmpState, setFld_gains]
    · rw [State.setAmpState, setFld_amps]

/-- The stage of a channel that shuts down stands. -/
theorem amps_ampShutdown : (s.ampShutdown n c).amps = (s.ampStill n).amps := by
  obtain ⟨-, -, -, -, h, -⟩ := ampStruck_after s n c
  obtain ⟨-, -, -, -, -, h2, -⟩ := ampHalted_after ((s.ampStruck n c).raise (ampPage n) AmpEv.SHUTDOWN) n
  rw [ampShutdown_eq, (pipeResume_cores _).amps, h2, raise_amps, h]

theorem ampShutdown_after : (s.ampShutdown n c).fld (Fd.AMP_STATUS_CAUSE n) = c.code
    ∧ (s.ampShutdown n c).fld (Fd.AMP_CNT_SHUTDOWNS n) = satAdd 8 (s.fld (Fd.AMP_CNT_SHUTDOWNS n)) 1
    ∧ (s.ampShutdown n c).fld (Fd.AMP_STATUS_RETRIES n)
        = (if s.amps[n].retry then satAdd 4 (s.fld (Fd.AMP_STATUS_RETRIES n)) 1 else s.fld (Fd.AMP_STATUS_RETRIES n))
    ∧ (s.ampShutdown n c).ampState n
        = (if s.fld (Fd.AMP_OCP_RETRY_MAX n) ≤ (s.ampShutdown n c).fld (Fd.AMP_STATUS_RETRIES n) then .latched else .retryWait)
    ∧ (s.ampShutdown n c).gainAt (Adr.AMP_GAIN n) = muteGlide
    ∧ (s.ampShutdown n c).evt (ampPage n) AmpEv.SHUTDOWN = true
    ∧ Frame (fun a => a = Adr.AMP_STATUS n ∨ a = Adr.AMP_CNT n ∨ OfPages [hkseqPage] a ∨ StatusOf [ampPage n] a) s
        (s.ampShutdown n c) := by
  obtain ⟨h1, h2, h3, h4, -, h6⟩ := ampStruck_after s n c
  rw [ampShutdown_eq]
  generalize s.ampStruck n c = t at *
  have hr : ∀ f : Fld, f.addr = Adr.AMP_STATUS n ∨ f.addr = Adr.AMP_CNT n ∨ f.addr = Adr.AMP_OCP n →
      (t.raise (ampPage n) AmpEv.SHUTDOWN).fld f = t.fld f := fun f h => fld_raise _ _ _ (by grind) (by grind) (by grind)
  have hmax : (t.raise (ampPage n) AmpEv.SHUTDOWN).fld (Fd.AMP_OCP_RETRY_MAX n) = s.fld (Fd.AMP_OCP_RETRY_MAX n) := by
    rw [hr _ (.inr (.inr rfl)), fld_of_reg (h6.regs _ (by grind))]
  have hev := evt_raise t (ampPage n) (b := AmpEv.SHUTDOWN) (by decide)
  have hg : (t.raise (ampPage n) AmpEv.SHUTDOWN).gainAt (Adr.AMP_GAIN n) = muteGlide := by rw [gainAt_of_gains (raise_gains _ _ _), h4]
  have hf : Frame (fun a => a = Adr.AMP_STATUS n ∨ a = Adr.AMP_CNT n ∨ OfPages [hkseqPage] a ∨ StatusOf [ampPage n] a) s
      (t.raise (ampPage n) AmpEv.SHUTDOWN) :=
    .raise (h6.mono fun _ h => h.elim .inl fun h => .inr (.inl h)).frame _ fun _ h => .inr (.inr (.inr h))
  have e1 := (hr (Fd.AMP_STATUS_CAUSE n) (.inl rfl)).trans h1
  have e2 := (hr (Fd.AMP_CNT_SHUTDOWNS n) (.inr (.inl rfl))).trans h2
  have e3 := (hr (Fd.AMP_STATUS_RETRIES n) (.inl rfl)).trans h3
  generalize t.raise (ampPage n) AmpEv.SHUTDOWN = u at *
  obtain ⟨k1, k2, k3, k4, k5, -, k7, k8⟩ := ampHalted_after u n
  have hev2 := k7 hev
  have hf2 := hf.trans (k8.mono fun a h => h.elim (fun h => Or.inl h) fun h => .inr (.inr (.inr h)))
  have hg2 := (gainAt_of_gains k5 _).trans hg
  rw [hmax] at k4
  generalize u.ampHalted n = v at *
  obtain ⟨c1, -, c3, -, c5⟩ := coresPage_amp n
  have hc := pipeResume_cores v
  have d3 := (fld_of_reg (f := Fd.AMP_STATUS_RETRIES n) (hc.frame.regs _ c1)).trans k2
  refine ⟨?_, ?_, d3.trans e3, ?_, ?_, ?_, hf2.trans (hc.frame.mono fun _ h => .inr (.inr (.inl h)))⟩
  · rw [fld_of_reg (hc.frame.regs _ c1), k1, e1]
  · rw [fld_of_reg (hc.frame.regs _ c3), k3, e2]
  · rw [ampState_of_reg (hc.frame.regs _ c1), k4, d3]
  · rw [gainAt_of_gains hc.gains, hg2]
  · rw [State.evt, hc.frame.regs _ c5]
    exact hev2

end Shutdown

/-! ## A cycle of a half-channel (R250, R251) -/

section Cycle
variable {s : State} {n : Fin 4}

/-- The history of channel `n` and of its lead, with a cycle more. -/
def State.cycleKept (s : State) (n : Fin 4) (limited : Bool) : State :=
  if s.ampLead n = n then s.updAmp n fun a => { a with hist := (limited :: a.hist).take 32, limited := a.limited || limited }
  else (s.updAmp n fun a => { a with hist := (limited :: a.hist).take 32, limited := a.limited || limited }).updAmp (s.ampLead n)
    fun a => { a with limited := a.limited || limited }

theorem cycleKept_quiet (s : State) (n : Fin 4) (l : Bool) : Quiet (fun _ => False) s (s.cycleKept n l) := by
  unfold State.cycleKept
  split
  · exact .updAmp (.refl _ s) _ _
  · exact .updAmp (.updAmp (.refl _ s) _ _) _ _

theorem cycleKept_hist (s : State) (n : Fin 4) (l : Bool) : (s.cycleKept n l).amps[n].hist = (l :: s.amps[n].hist).take 32 := by
  unfold State.cycleKept
  split
  · rw [amps_updAmp_same]
  · next h => rw [amps_updAmp_ne _ _ h, amps_updAmp_same]

theorem cycleKept_step (s : State) (n k : Fin 4) (l : Bool) : (s.cycleKept n l).amps[k].step = s.amps[k].step
    ∧ (s.cycleKept n l).amps[k].stopLeft = s.amps[k].stopLeft := by
  have hk : ∀ (t : State) (m : Fin 4) (f : Amp → Amp), (∀ a, (f a).step = a.step ∧ (f a).stopLeft = a.stopLeft) →
      (t.updAmp m f).amps[k].step = t.amps[k].step ∧ (t.updAmp m f).amps[k].stopLeft = t.amps[k].stopLeft := by
    intro t m f hf
    by_cases h : m = k
    · subst h
      rw [amps_updAmp_same]
      exact hf _
    · rw [amps_updAmp_ne _ _ h]
      exact ⟨rfl, rfl⟩
  unfold State.cycleKept
  split
  · exact hk _ _ _ fun _ => ⟨rfl, rfl⟩
  · obtain ⟨h1, h2⟩ := hk s n (fun a => { a with hist := (l :: a.hist).take 32, limited := a.limited || l }) fun _ => ⟨rfl, rfl⟩
    obtain ⟨h3, h4⟩ := hk (s.updAmp n fun a => { a with hist := (l :: a.hist).take 32, limited := a.limited || l }) (s.ampLead n)
      (fun a => { a with limited := a.limited || l }) fun _ => ⟨rfl, rfl⟩
    exact ⟨h3.trans h1, h4.trans h2⟩

/-- What a counted cycle keeps: of the registers, LIMITING and the events of the lead may change. -/
theorem pwmCount_after (s : State) (n : Fin 4) (l : Bool) : (s.pwmCount n l).amps[n].hist = (l :: s.amps[n].hist).take 32
    ∧ (∀ k : Fin 4, (s.pwmCount n l).amps[k].step = s.amps[k].step ∧ (s.pwmCount n l).amps[k].stopLeft = s.amps[k].stopLeft)
    ∧ (s.pwmCount n l).ampState (s.ampLead n) = s.ampState (s.ampLead n)
    ∧ (l = false → Quiet (· = Adr.AMP_STATUS (s.ampLead n)) s (s.pwmCount n l)) := by
  have hh := cycleKept_hist s n l
  have hk := fun k => cycleKept_step s n k l
  have hq : Quiet (· = Adr.AMP_STATUS (s.ampLead n)) s (s.cycleKept n l) := (cycleKept_quiet s n l).mono fun _ => False.elim
  have hs : (s.cycleKept n l).ampState (s.ampLead n) = s.ampState (s.ampLead n) :=
    ampState_of_reg ((cycleKept_quiet s n l).regs _ id)
  have e : ∃ b c, s.pwmCount n l =
      if l && !c then (if !(s.cycleKept n l).domOn (Dm.AMP (s.ampLead n).val) then s.cycleKept n l
        else (s.cycleKept n l).setFld (Fd.AMP_STATUS_LIMITING (s.ampLead n)) b).raise (ampPage (s.ampLead n)) AmpEv.LIMITING
      else (if !(s.cycleKept n l).domOn (Dm.AMP (s.ampLead n).val) then s.cycleKept n l
        else (s.cycleKept n l).setFld (Fd.AMP_STATUS_LIMITING (s.ampLead n)) b) := ⟨_, _, rfl⟩
  obtain ⟨b, c, e⟩ := e
  generalize s.pwmCount n l = w at *
  generalize s.cycleKept n l = t at *
  generalize hv : (if !t.domOn (Dm.AMP (s.ampLead n).val) then t else t.setFld (Fd.AMP_STATUS_LIMITING (s.ampLead n)) b) = v
  have hva : v.amps = t.amps := by
    rw [← hv]
    split
    · rfl
    · rw [setFld_amps]
  have hvs : v.ampState (s.ampLead n) = s.ampState (s.ampLead n) := by
    rw [← hv]
    split
    · exact hs
    · rw [ampState_setFld _ _ _ (by simp) (by simp), hs]
  have hvq : Quiet (· = Adr.AMP_STATUS (s.ampLead n)) s v := by
    rw [← hv]
    split
    · exact hq
    · exact hq.setFld _ rfl
  rw [hv] at e
  clear hv
  have e2 : l = true ∧ w = v.raise (ampPage (s.ampLead n)) AmpEv.LIMITING ∨ w = v := by
    split at e
    · next h => exact .inl ⟨(Bool.and_eq_true_iff.1 h).1, e⟩
    · exact .inr e
  obtain ⟨h, rfl⟩ | rfl := e2
  · refine ⟨?_, fun k => ?_, ?_, fun hl => ?_⟩
    · rw [raise_amps, hva, hh]
    · rw [raise_amps, hva]
      exact hk k
    · rw [ampState_raise, hvs]
    · exact absurd (h.symm.trans hl) (by decide)
  · refine ⟨?_, fun k => ?_, hvs, fun _ => hvq⟩
    · rw [hva, hh]
    · rw [hva]
      exact hk k

theorem ampSwitches_congr {s t : State} {n : Fin 4} (h : t.ampState n = s.ampState n) (hs : t.amps[n].step = s.amps[n].step) :
    t.ampSwitches n = s.ampSwitches n := by
  rw [State.ampSwitches, State.ampSwitches, h, hs]

theorem pwmStop_idle (h : s.amps[n].stopLeft = 0) : s.pwmStop n = s := by rw [State.pwmStop, if_pos h]

theorem pwmCycle_eq (n : Fin 4) (pos neg : Nat) (s : State) {t : State}
    (ht : s.pwmCount n (s.ampSwitches (s.ampLead n) && decide (50 * s.fld (Fd.AMP_OCP_PEAK (s.ampLead n)) ≤ max pos neg)) = t) :
    exec (.pwmCycle n pos neg) s = .next (if s.ampLead n = n
      then (if (t.ampSwitches (s.ampLead n) && decide (16 ≤ (t.amps[n].hist.filter id).length)) = true
        then t.ampShutdown (s.ampLead n) .overcurrent else t).pwmStop n
      else if (t.ampSwitches (s.ampLead n) && decide (16 ≤ (t.amps[n].hist.filter id).length)) = true
        then t.ampShutdown (s.ampLead n) .overcurrent else t) := by
  subst ht
  rfl

theorem pwmCycle_still {pos neg : Nat} (h : s.ampSwitches (s.ampLead n) = false) (hl : s.amps[n].stopLeft = 0) :
    After (exec (.pwmCycle n pos neg) s) fun t => t.amps[n].hist = (false :: s.amps[n].hist).take 32
      ∧ t.ampState (s.ampLead n) = s.ampState (s.ampLead n) ∧ Quiet (· = Adr.AMP_STATUS (s.ampLead n)) s t := by
  obtain ⟨h1, h2, h3, h4⟩ := pwmCount_after s n false
  have e := pwmCycle_eq n pos neg s rfl
  rw [h, Bool.false_and] at e
  have hq := h4 rfl
  generalize s.pwmCount n false = t at *
  rw [(ampSwitches_congr h3 (h2 _).1).trans h, Bool.false_and, if_neg Bool.false_ne_true, pwmStop_idle ((h2 n).2.trans hl), ite_self] at e
  exact .of_eq e ⟨h1, h3, hq⟩

theorem ampShutdown_stopLeft (s : State) (n : Fin 4) (c : AmpCause) : (s.ampShutdown n c).amps[n].stopLeft = 0 := by
  rw [amps_ampShutdown, (ampStill_after s n).1, getElem_set_same]

theorem pwmCycle_overcurrent {pos neg : Nat} (h : s.ampSwitches (s.ampLead n) = true)
    (hp : 50 * s.fld (Fd.AMP_OCP_PEAK (s.ampLead n)) ≤ max pos neg)
    (hh : 16 ≤ ((true :: s.amps[n].hist).take 32 |>.filter id).length) :
    exec (.pwmCycle n pos neg) s = .next ((s.pwmCount n true).ampShutdown (s.ampLead n) .overcurrent) := by
  obtain ⟨h1, h2, h3, -⟩ := pwmCount_after s n true
  have e := pwmCycle_eq n pos neg s rfl
  rw [h, Bool.true_and, decide_eq_true hp] at e
  generalize s.pwmCount n true = t at *
  rw [(ampSwitches_congr h3 (h2 _).1).trans h, Bool.true_and, h1, decide_eq_true hh, if_pos rfl] at e
  rw [e]
  split
  · next hm => rw [hm, pwmStop_idle (ampShutdown_stopLeft _ _ _)]
  · rfl

end Cycle

/-! ## Retries and the DC fault (R252, R254) -/

section Retry
variable {s : State} {n : Fin 4}

theorem ampRetry_off (hs : s.ampState n = .retryWait) (he : s.flag (Fd.AMP_CTRL_ENABLE n) = false) :
    exec (.ampRetry n) s = .next (s.ampOff n) :=
  (next_pos (by rw [hs]; rfl)).trans (congrArg _ (if_pos (by rw [he]; rfl)))

theorem ampRetry_begins (hs : s.ampState n = .retryWait) (he : s.flag (Fd.AMP_CTRL_ENABLE n) = true) (hb : s.ampBlock n = none) :
    After (exec (.ampRetry n) s) fun t =>
    t.ampState n = .starting ∧ t.amps[n].step = .precheck ∧ t.amps[n].retry = true ∧ t.evt (ampPage n) AmpEv.RETRY = true
      ∧ Frame (fun a => a = Adr.AMP_STATUS n ∨ StatusOf [ampPage n] a) s t := by
  have e : exec (.ampRetry n) s
      = .next (((s.updAmp n fun a => { a with retry := true }).raise (ampPage n) AmpEv.RETRY).ampBegin n) :=
    (next_pos (by rw [hs]; rfl)).trans (congrArg _ ((if_neg (by rw [he]; decide)).trans (if_pos (by rw [hb]; rfl))))
  have hev := evt_raise (s.updAmp n fun a => { a with retry := true }) (ampPage n) (b := AmpEv.RETRY) (by decide)
  have ha : ((s.updAmp n fun a => { a with retry := true }).raise (ampPage n) AmpEv.RETRY).amps[n].retry = true := by
    rw [raise_amps, amps_updAmp_same]
  have hf : Frame (fun a => a = Adr.AMP_STATUS n ∨ StatusOf [ampPage n] a) s
      ((s.updAmp n fun a => { a with retry := true }).raise (ampPage n) AmpEv.RETRY) :=
    .raise (.updAmp (.refl _ s) _ _) _ fun _ h => .inr h
  generalize (s.updAmp n fun a => { a with retry := true }).raise (ampPage n) AmpEv.RETRY = t at *
  obtain ⟨h1, h2, h3⟩ := ampBegin_after t n
  refine .of_eq e ⟨h1, ?_, ?_, ?_, hf.trans (h3.mono fun _ => .inl).frame⟩
  · rw [h2]
  · rw [h2]
    exact ha
  · rw [State.evt, h3.regs _ (by grind)]
    exact hev

theorem ampRetriesClear_eq (hs : s.ampState n = .running) :
    exec (.ampRetriesClear n) s = .next ((s.setFld (Fd.AMP_STATUS_RETRIES n) 0).updAmp n fun a => { a with retry := false }) :=
  next_pos (by rw [hs]; rfl)

theorem ampDcStop_eq (s : State) (n : Fin 4) : s.ampDcStop n = (((s.ampStruck n .dc).setAmpState n .latched).raise (ampPage n)
    AmpEv.SHUTDOWN).raise (ampPage n) AmpEv.LATCHED := rfl

theorem ampDcFault_after (hl : s.ampLeads n = true) (hs : s.ampState n = .running ∨ s.ampState n = .stopping)
    (hd : s.ampDcHigh n = true) : After (exec (.ampDcFault n) s) fun t =>
    t.ampState n = .latched ∧ t.fld (Fd.AMP_STATUS_CAUSE n) = 4
      ∧ t.fld (Fd.AMP_STATUS_RETRIES n)
        = (if s.amps[n].retry then satAdd 4 (s.fld (Fd.AMP_STATUS_RETRIES n)) 1 else s.fld (Fd.AMP_STATUS_RETRIES n))
      ∧ t.fld (Fd.AMP_CNT_SHUTDOWNS n) = satAdd 8 (s.fld (Fd.AMP_CNT_SHUTDOWNS n)) 1
      ∧ t.gainAt (Adr.AMP_GAIN n) = muteGlide ∧ t.evt (ampPage n) AmpEv.SHUTDOWN = true ∧ t.evt (ampPage n) AmpEv.LATCHED = true
      ∧ Frame (fun a => a = Adr.AMP_STATUS n ∨ a = Adr.AMP_CNT n ∨ StatusOf [ampPage n] a) s t := by
  have hc : ((s.ampState n == .running || s.ampState n == .stopping) && s.ampDcHigh n) = true := by
    obtain hs | hs := hs <;> rw [hs, hd] <;> rfl
  have e : exec (.ampDcFault n) s = .next (s.ampDcStop n) := by
    refine next_eq ?_
    rw [show s.ampLead n = n from beq_iff_eq.1 hl]
    exact if_pos hc
  obtain ⟨h1, h2, h3, h4, -, h6⟩ := ampStruck_after s n .dc
  rw [ampDcStop_eq] at e
  generalize s.ampStruck n .dc = t at *
  have hr : ∀ (u : State) (f : Fld), f.addr = Adr.AMP_STATUS n ∨ f.addr = Adr.AMP_CNT n →
      ((u.raise (ampPage n) AmpEv.SHUTDOWN).raise (ampPage n) AmpEv.LATCHED).fld f = u.fld f := fun u f h => by
    rw [fld_raise _ _ _ (by grind) (by grind) (by grind), fld_raise _ _ _ (by grind) (by grind) (by grind)]
  refine .of_eq e ⟨?_, ?_, ?_, ?_, ?_, evt_raise_of _ _ _ (evt_raise _ _ (by decide)), evt_raise _ _ (by decide), ?_⟩
  · rw [ampState_raise, ampState_raise, ampState_setAmpState]
  · rw [hr _ _ (.inl rfl), State.setAmpState, fld_setFld_bits _ _ (by simp) (by simp), h1]
    rfl
  · rw [hr _ _ (.inl rfl), State.setAmpState, fld_setFld_bits _ _ (by simp) (by simp), h3]
  · rw [hr _ _ (.inr rfl), State.setAmpState, fld_setFld_addr _ _ (by grind), h2]
  · rw [gainAt_of_gains (raise_gains _ _ _), gainAt_of_gains (raise_gains _ _ _), State.setAmpState,
      gainAt_of_gains (setFld_gains _ _ _), h4]
  · exact .raise (.raise (.setFld (h6.mono fun _ h => h.elim .inl fun h => .inr (.inl h)).frame _ (.inl rfl)) _
      fun _ h => .inr (.inr h)) _ fun _ h => .inr (.inr h)

end Retry

/-- Settles O23. -/
theorem ampFaultCommands : Obligations.AmpFaultCommands := by
  unfold Obligations.AmpFaultCommands
  exact ⟨fun n c s => ampShutdown_after s n c, fun _ _ _ _ h hl => pwmCycle_still h hl, fun _ _ _ _ h hp hh => pwmCycle_overcurrent h hp hh,
    fun _ _ hs he => ampRetry_off hs he, fun _ _ hs he hb => ampRetry_begins hs he hb, fun _ _ hs => ampRetriesClear_eq hs,
    fun _ _ hl hs hd => ampDcFault_after hl hs hd⟩

end Sys2Proof.Machine
end

section
/-!
PROOFS. The supply and the fixed scan (10_speaker_amplifier.md R256–R258; 11_housekeeping_converter.md R264, R275, R285).
-/
namespace Sys2Proof.Machine

/-! ## A converted value (R264, R277) -/

section Converted
variable {s : State}

theorem judge_frame {R : Nat → Prop} {t : State} (h : Frame R s t) (hw : R Adr.HKA_WIN_STATE) (hs : ∀ a, StatusOf [hkaPage] a → R a)
    (k : Nat) (v : Int) : Frame R s (t.judge k v) := by
  unfold State.judge
  dsimp only
  split
  · exact .raise (.setFld h _ hw) _ hs
  · split
    · exact .setFld h _ hw
    · exact h

theorem judge_frame_if {R : Nat → Prop} {t : State} (h : Frame R s t) (hw : R Adr.HKA_WIN_STATE) (hs : ∀ a, StatusOf [hkaPage] a → R a)
    (b : Bool) (k : Nat) (v : Int) : Frame R s (if b then t.judge k v else t) := by
  cases b
  · exact h
  · exact judge_frame h hw hs k v

/-- Of registers, the comparators judge into WIN_STATE and the events of the HKA alone. -/
theorem judges_frame {R : Nat → Prop} {t : State} (h : Frame R s t) (hw : R Adr.HKA_WIN_STATE) (hs : ∀ a, StatusOf [hkaPage] a → R a)
    (c : Nat) (v : Int) : Frame R s ((List.range 16).foldl (fun u k => if u.watches k c then u.judge k v else u) t) :=
  List.foldlRecOn _ _ h fun _ hb _ _ => judge_frame_if hb hw hs _ _ _

theorem lastPlace {c : Nat} (hc : c < 61) : ¬ (Adr.HKA_LAST c = Adr.HKA_WIN_STATE ∨ StatusOf [hkaPage] (Adr.HKA_LAST c)) := by
  rintro (g | ⟨q, hq, g⟩ | g | g) <;> grind

theorem converted_after {c : Nat} (v : ConvReading) (b : Bool) (s : State) (hc : c < 61) :
    (s.converted c v b).reg (Adr.HKA_LAST c) =
        word (unsigned 24 (clampInt (-0x800000) 0x7FFFFF v.v) + 2 ^ 29 * bit b + 2 ^ 30 * bit (ConvReading.over_ v) + 2 ^ 31)
      ∧ Frame (fun a => a = Adr.HKA_LAST c ∨ a = Adr.HKA_WIN_STATE ∨ StatusOf [hkaPage] a) s (s.converted c v b) := by
  generalize hw : word (unsigned 24 (clampInt (-0x800000) 0x7FFFFF v.v) + 2 ^ 29 * bit b + 2 ^ 30 * bit (ConvReading.over_ v) + 2 ^ 31) = w
  have e : s.converted c v b = if b then s.setReg (Adr.HKA_LAST c) w
      else (List.range 16).foldl (fun u k => if u.watches k c then u.judge k (convValue v) else u) (s.setReg (Adr.HKA_LAST c) w) := by
    rw [← hw]
    rfl
  have h1 := reg_setReg_same s (Adr.HKA_LAST c) w
  have h2 : Frame (fun a => a = Adr.HKA_LAST c ∨ a = Adr.HKA_WIN_STATE ∨ StatusOf [hkaPage] a) s (s.setReg (Adr.HKA_LAST c) w) :=
    .setReg (.refl _ s) _ (.inl rfl)
  rw [e]
  generalize s.setReg (Adr.HKA_LAST c) w = t at *
  cases b
  · have h3 : Frame (fun a => a = Adr.HKA_WIN_STATE ∨ StatusOf [hkaPage] a) t
        ((List.range 16).foldl (fun u k => if u.watches k c then u.judge k (convValue v) else u) t) :=
      judges_frame (.refl _ t) (.inl rfl) (fun _ h => .inr h) c _
    rw [if_neg Bool.false_ne_true]
    exact ⟨(h3.regs _ (lastPlace hc)).trans h1, h2.trans (h3.mono fun _ => .inr)⟩
  · rw [if_pos rfl]
    exact ⟨h1, h2⟩

end Converted

/-! ## Samples of the supply (R256) -/

section Supply
variable {s : State}

theorem sagSample_taken {raw : Nat} (hr : s.hkaRuns = true) (he : s.flag Fd.AMPSYS_SAG_EN = true) (hm : raw ≤ 0x7FFFFF) :
    exec (.sagSample raw) s
      = .next (((s.pipePreempt (some 0x00)).converted 0x00 ⟨raw, false⟩ false).pipeResume.sagTake raw) := by
  have hv : convValue ⟨raw, false⟩ = raw := by
    simp only [convValue, clampInt]
    rw [if_neg (show ¬ (raw : Int) < -0x800000 by omega), if_neg (show ¬ (0x7FFFFF : Int) < raw by omega)]
  refine (next_pos (by rw [hr, he]; rfl)).trans ?_
  dsimp only
  rw [hv]

theorem sagSample_off {raw : Nat} (he : s.flag Fd.AMPSYS_SAG_EN = false) : exec (.sagSample raw) s = .next s :=
  next_neg (by rw [he, Bool.and_false]; decide)

theorem divFree_exact (s : State) {a b : Int} (h : a % b = 0) : s.divFree a b = (a / b, s) := by rw [State.divFree, if_pos h]

/-- `s` with a supply sample. -/
def State.withSag (s : State) (q : Sag) (mv : Nat) : State := { s with sag := q, pvdd := mv }

theorem sag_withSag (s : State) (q : Sag) (mv : Nat) : (s.withSag q mv).sag = q := rfl
theorem pvdd_withSag (s : State) (q : Sag) (mv : Nat) : (s.withSag q mv).pvdd = mv := rfl
theorem fld_withSag (s : State) (q : Sag) (mv : Nat) (f : Fld) : (s.withSag q mv).fld f = s.fld f := fld_of_regs rfl f

theorem reg_showCeilings (s : State) {a : Nat} (h : ∀ n : Fin 4, Adr.AMP_LIMIT n ≠ a) : s.showCeilings.reg a = s.reg a := by
  refine foldl_same (fun t => t.reg a) (fun t n => ?_) _ _
  split
  · exact reg_setFld_ne _ _ _ (h n)
  · rfl

theorem sag_showCeilings (s : State) : s.showCeilings.sag = s.sag := by
  refine foldl_same State.sag (fun t n => ?_) _ _
  split
  · exact setFld_sag _ _ _
  · rfl

theorem pvdd_showCeilings (s : State) : s.showCeilings.pvdd = s.pvdd := by
  refine foldl_same State.pvdd (fun t n => ?_) _ _
  split
  · exact setFld_pvdd _ _ _
  · rfl

theorem setSag_zero (h : s.sfld Fd.AMPSYS_PVDD_CEILING = 0) :
    s.setSag 0 = ((s.setSfld Fd.AMPSYS_PVDD_CEILING 0).setFld Fd.AMPSYS_STATUS_SAG 0).showCeilings := by
  unfold State.setSag
  dsimp only
  rw [h, if_neg (by decide), if_neg (by decide), if_neg (by decide), show bit (decide ((0 : Int) < 0)) = 0 from rfl]

theorem sagTake_eq {raw : Nat} (hd : raw % 2048 = 0) (hlo : 1740800 ≤ raw) (hhi : raw ≤ 5632000)
    (hk : s.fld Fd.AMPSYS_SAG_KNEE * 20480 ≤ raw) :
    s.sagTake raw = ((s.withSag ⟨true, 0, 0, raw⟩ (raw / 2048)).setFld Fd.AMPSYS_PVDD_V10MV (raw / 2048)).setSag 0 := by
  have hmv : (clampInt 0 65535 ((raw : Int) / 2048)).toNat = raw / 2048 := by
    simp only [clampInt]
    split
    · omega
    · split <;> omega
  have h1 : ¬ (raw : Int) < s.fld Fd.AMPSYS_SAG_KNEE * 20480 := by omega
  have h2 : ¬ (raw : Int) < 1740800 := by omega
  have h3 : ¬ (5632000 : Int) < raw := by omega
  unfold State.sagTake
  rw [divFree_exact s (show (raw : Int) % 2048 = 0 by omega)]
  simp only [hmv, h1, h2, h3, if_false]
  rw [if_neg (by simp), if_neg (by simp)]
  rfl

theorem sagTake_after {raw : Nat} (hd : raw % 2048 = 0) (hlo : 1740800 ≤ raw) (hhi : raw ≤ 5632000)
    (hk : s.fld Fd.AMPSYS_SAG_KNEE * 20480 ≤ raw) (hc : s.sfld Fd.AMPSYS_PVDD_CEILING = 0) : (s.sagTake raw).pvdd = raw / 2048
      ∧ (s.sagTake raw).fld Fd.AMPSYS_PVDD_V10MV = raw / 2048 ∧ (s.sagTake raw).sfld Fd.AMPSYS_PVDD_CEILING = 0
      ∧ (s.sagTake raw).sag = ⟨true, 0, 0, raw⟩ := by
  rw [sagTake_eq hd hlo hhi hk, setSag_zero (by rw [State.sfld, fld_setFld_bits _ _ (by simp) (by simp), fld_withSag]; exact hc)]
  have hp := pvdd_withSag s ⟨true, 0, 0, raw⟩ (raw / 2048)
  have hs := sag_withSag s ⟨true, 0, 0, raw⟩ (raw / 2048)
  generalize s.withSag ⟨true, 0, 0, raw⟩ (raw / 2048) = t at *
  have hreg : ∀ (u : State) (f : Fld), f.addr = Adr.AMPSYS_PVDD → u.showCeilings.fld f = u.fld f := fun u f h =>
    fld_of_reg (reg_showCeilings u fun n => by grind)
  refine ⟨?_, ?_, ?_, ?_⟩
  · rw [pvdd_showCeilings, setFld_pvdd, setFld_pvdd, setFld_pvdd, hp]
  · rw [hreg _ _ rfl, fld_setFld_addr _ _ (by decide), fld_setFld_bits _ _ (by simp) (by simp), fld_setFld_same _ _ _ (by simp)]
    exact Nat.mod_eq_of_lt (show raw / 2048 < 2 ^ 16 by omega)
  · rw [State.sfld, hreg _ _ rfl, fld_setFld_addr _ _ (by decide), ← State.sfld, sfld_setSfld_same _ _ (by simp) (by decide) (by decide)]
  · rw [sag_showCeilings, setFld_sag, setFld_sag, setFld_sag, hs]

/-! ## Supply stops (R258) -/

theorem supplyStop_off {high : Bool} (h : ∀ k : Fin 4, s.ampState k = .off) :
    (List.finRange 4).foldl (fun (u : State) (n : Fin 4) =>
      if u.ampSwitches n && !true then
        (if u.amps[n].stopLeft = 0 then u.updAmp n fun a => { a with stopLeft := 33, stopOver := high } else u)
      else match u.ampState n with
        | .starting | .running | .stopping => u.ampSuspend n (if high then .overvoltage else .undervoltage) true
        | .off | .retryWait | .latched | .suspended => u) s = s := by
  refine List.foldl_fixed' (fun k => ?_) _
  rw [if_neg (by simp), h k]

theorem supplyStop_uv (h : ∀ k : Fin 4, s.ampState k = .off) (hf : s.flag Fd.AMPSYS_STATUS_UV = false) :
    s.supplyStop false true = (s.setFld Fd.AMPSYS_STATUS_UV 1).raise ampsysPage AmpEv.UV := by
  have h2 : ∀ k : Fin 4, ((s.setFld Fd.AMPSYS_STATUS_UV 1).raise ampsysPage AmpEv.UV).ampState k = .off := fun k => by
    rw [ampState_of_reg (reg_raise _ _ _ (by grind) (by grind) (by grind)), ampState_of_reg (reg_setFld_ne _ _ _ (by grind)), h k]
  unfold State.supplyStop
  dsimp only
  rw [if_neg (show ¬ (s.flag (if false = true then Fd.AMPSYS_STATUS_OV else Fd.AMPSYS_STATUS_UV)) = true by
    rw [if_neg Bool.false_ne_true, hf]; decide), if_neg Bool.false_ne_true, if_neg Bool.false_ne_true]
  exact supplyStop_off (high := false) h2

theorem pvddHwStop_after (hd : s.domOn Dm.HKA = true) (h : ∀ k : Fin 4, s.ampState k = .off)
    (hf : s.flag Fd.AMPSYS_STATUS_UV = false) :
    After (exec .pvddHwStop s) fun t => t.flag Fd.AMPSYS_STATUS_UV = true ∧ t.evt ampsysPage AmpEv.UV = true
      ∧ Frame (fun a => a = Adr.AMPSYS_STATUS ∨ StatusOf [ampsysPage] a) s t := by
  refine .of_eq ((next_pos hd).trans (congrArg _ (supplyStop_uv h hf))) ⟨?_, evt_raise _ _ (by decide), ?_⟩
  · rw [State.flag, fld_raise _ _ _ (by decide) (by decide) (by decide), fld_setFld_same _ _ _ (by simp)]
    rfl
  · exact .raise (.setFld (.refl _ s) _ (.inl rfl)) _ fun _ h => .inr h

theorem ampsResume_none (h : ∀ k : Fin 4, s.ampState k ≠ .suspended) : s.ampsResume = s := by
  refine List.foldl_fixed' (fun k => ?_) _
  rw [State.ampResume, beq_eq_false_iff_ne.2 (h k), if_neg (by simp)]

/-- `s` with no channel waiting for the supply. -/
def State.supplied (s : State) (known : Bool) : State :=
  { s with sag := { s.sag with seen := known }, amps := s.amps.map fun (a : Amp) => { a with supplyWait := false } }

theorem supplied_wait (s : State) (b : Bool) (k : Fin 4) : (s.supplied b).amps[k].supplyWait = false := by
  simp [State.supplied]

theorem reg_supplied (s : State) (b : Bool) (a : Nat) : (s.supplied b).reg a = s.reg a := reg_of_regs rfl a

theorem Frame.supplied {R : Nat → Prop} {s t : State} (h : Frame R s t) (b : Bool) : Frame R s (t.supplied b) := h.congr rfl rfl rfl

theorem supplyOk_after (hd : s.domOn Dm.HKA = true) (hu : s.flag Fd.AMPSYS_STATUS_UV = true)
    (hlo : 1843200 ≤ s.sag.raw) (hhi : s.sag.raw ≤ 5427200) (hn : ∀ k : Fin 4, s.ampState k ≠ .suspended) :
    After (exec .supplyOk s) fun t => t.flag Fd.AMPSYS_STATUS_UV = false ∧ t.flag Fd.AMPSYS_STATUS_OV = false
      ∧ t.evt ampsysPage AmpEv.SUPPLY_OK = true ∧ (∀ k : Fin 4, t.amps[k].supplyWait = false)
      ∧ Frame (fun a => a = Adr.AMPSYS_STATUS ∨ StatusOf [ampsysPage] a) s t := by
  have e : exec .supplyOk s = .next (((((s.supplied (s.sag.seen && s.flag Fd.AMPSYS_SAG_EN)).setFld Fd.AMPSYS_STATUS_UV 0).setFld
      Fd.AMPSYS_STATUS_OV 0).raise ampsysPage AmpEv.SUPPLY_OK).ampsResume) :=
    next_pos (by rw [hd, hu, decide_eq_true hlo, decide_eq_true hhi]; simp)
  have hw := supplied_wait s (s.sag.seen && s.flag Fd.AMPSYS_SAG_EN)
  have hr := reg_supplied s (s.sag.seen && s.flag Fd.AMPSYS_SAG_EN)
  have hf : Frame (fun a => a = Adr.AMPSYS_STATUS ∨ StatusOf [ampsysPage] a) s (s.supplied (s.sag.seen && s.flag Fd.AMPSYS_SAG_EN)) :=
    .supplied (.refl _ s) _
  generalize s.supplied (s.sag.seen && s.flag Fd.AMPSYS_SAG_EN) = t at *
  rw [ampsResume_none fun k => by
    rw [ampState_of_reg (reg_raise _ _ _ (by grind) (by grind) (by grind)), ampState_of_reg (reg_setFld_ne _ _ _ (by grind)),
      ampState_of_reg (reg_setFld_ne _ _ _ (by grind)), ampState_of_reg (hr _)]
    exact hn k] at e
  refine .of_eq e ⟨?_, ?_, evt_raise _ _ (by decide), fun k => ?_, ?_⟩
  · rw [State.flag, fld_raise _ _ _ (by decide) (by decide) (by decide), fld_setFld_bits _ _ (by simp) (by simp),
      fld_setFld_same _ _ _ (by simp)]
    rfl
  · rw [State.flag, fld_raise _ _ _ (by decide) (by decide) (by decide), fld_setFld_same _ _ _ (by simp)]
    rfl
  · rw [raise_amps, setFld_amps, setFld_amps]
    exact hw k
  · exact .raise (.setFld (.setFld hf _ (.inl rfl)) _ (.inl rfl)) _ fun _ h => .inr h

/-! ## READY (R285) -/

theorem seqServe_idle (mode : Nat) (h : s.hka.ready = []) : s.seqServe mode = s := by
  have h1 : s.seqServeOne mode = s := by
    unfold State.seqServeOne
    rw [h]
    split
    · rfl
    · rfl
  rw [State.seqServe, h1, h1, h1]

theorem hkaReady_after (hd : s.domOn Dm.HKA = true) (hr : s.flag Fd.HKA_STATUS_READY = false) (hq : s.hka.ready = [])
    (hn : ∀ k : Fin 4, s.ampState k ≠ .suspended) : After (exec .hkaReady s) fun t => t.flag Fd.HKA_STATUS_READY = true
      ∧ t.fld Fd.HKA_STATUS_CAL_STAGE = (if s.flag Fd.HKA_STATUS_CAL_FAIL then 0xF else 0)
      ∧ t.flag Fd.HKA_STATUS_CAL_FAIL = s.flag Fd.HKA_STATUS_CAL_FAIL ∧ Quiet (· = Adr.HKA_STATUS) s t := by
  generalize hc : (if s.flag Fd.HKA_STATUS_CAL_FAIL then 0xF else 0) = c
  have hc4 : c < 2 ^ 4 := by
    rw [← hc]
    split <;> decide
  have e : exec .hkaReady s
      = .next (((s.setFld Fd.HKA_STATUS_READY 1).setFld Fd.HKA_STATUS_CAL_STAGE c).seqServeAll.ampsResume) := by
    rw [← hc]
    exact next_pos (by rw [hd, hr]; rfl)
  have hq2 : ((s.setFld Fd.HKA_STATUS_READY 1).setFld Fd.HKA_STATUS_CAL_STAGE c).hka.ready = [] := by
    rw [setFld_hka, setFld_hka, hq]
  rw [State.seqServeAll, seqServe_idle _ hq2, seqServe_idle _ hq2, ampsResume_none fun k => by
    rw [ampState_of_reg (reg_setFld_ne _ _ _ (by grind)), ampState_of_reg (reg_setFld_ne _ _ _ (by grind))]
    exact hn k] at e
  refine .of_eq e ⟨?_, ?_, ?_, .setFld (.setFld (.refl (· = Adr.HKA_STATUS) s) _ rfl) _ rfl⟩
  · rw [State.flag, fld_setFld_bits _ _ (by simp) (by simp), fld_setFld_same _ _ _ (by simp)]
    rfl
  · rw [fld_setFld_same _ _ _ (by simp)]
    exact Nat.mod_eq_of_lt hc4
  · rw [State.flag, State.flag, fld_setFld_bits _ _ (by simp) (by simp), fld_setFld_bits _ _ (by simp) (by simp)]

end Supply

/-- Settles O24. -/
theorem supplyCommands : Obligations.SupplyCommands := by
  unfold Obligations.SupplyCommands
  exact ⟨fun _ _ hr => next_pos hr, fun _ v b s hc => converted_after v b s hc, fun _ _ hr he hm => sagSample_taken hr he hm,
    fun _ _ _ he => sagSample_off he, fun _ _ hd hlo hhi hk hc => sagTake_after hd hlo hhi hk hc, fun _ hd h hf => pvddHwStop_after hd h hf,
    fun _ hd hu _ hlo hhi hn => supplyOk_after hd hu hlo hhi hn, fun _ hd hr hq hn => hkaReady_after hd hr hq hn⟩

end Sys2Proof.Machine
end

section
/-!
PROOFS. Sequences and the urgent request (11_housekeeping_converter.md R276): a pre-check that occupies the pipeline core while its
input stands at the channel of the request.
-/
namespace Sys2Proof.Machine

/-- `awake` with the HKA READY and a channel in its pre-check, while a sample has left the input of the pipeline core at channel 0. -/
def precheckAtChannel0 : State :=
  ((awake.setFld Fd.HKA_STATUS_READY 1).updAmp 0 fun a => { a with step := .precheck }).withHka
    { awake.hka with pipe := some 0, urg := none }

theorem precheckAtChannel0_takes : precheckAtChannel0.TakesWrite 3 hkaPage Adr.HKA_URGENT := by
  constructor <;> decide +kernel

/-- The request of channel 0 waits for the pre-check, and so its input is to be switched. -/
theorem urgentWrite_precheckAtChannel0 :
    ((precheckAtChannel0.urgentWrite 3 0x80000000).bumpVer hkaPage).hka.urg.map (fun u => u.2.2) = some true := by decide +kernel

/-- Refutes O26: the clause on `URGENT_START` leaves out a request that waits for a pre-check while the input already stands at its
channel; its conversion is marked as switched all the same. -/
theorem not_sequenceCommands : ¬ Obligations.SequenceCommands := by
  unfold Obligations.SequenceCommands
  rintro ⟨-, -, -, -, -, -, -, -, -, -, -, -, start, -⟩
  obtain ⟨t, ht, hu, -⟩ := start 3 0x80000000 precheckAtChannel0 precheckAtChannel0_takes (by decide) (by decide +kernel) (by decide)
  have e : exec (.urgentStart 3 0x80000000) precheckAtChannel0
      = .next ((precheckAtChannel0.urgentWrite 3 0x80000000).bumpVer hkaPage) := next_eq (directWriteAt_takes precheckAtChannel0_takes)
  have hm := urgentWrite_precheckAtChannel0
  rw [Host.Outcome.next.inj (e.symm.trans ht), hu] at hm
  exact absurd hm (by decide +kernel)

end Sys2Proof.Machine
end

section
/-!
PROOFS. The test DAC (11_housekeeping_converter.md R283): a host that has released it already, and whose ramp still runs.
-/
namespace Sys2Proof.Machine

/-- `awake` with a test DAC that the host of port 3 has released, and which ramps to 0 V on its way to route 5. -/
def releasedOnRoute : State := { awake with tdacOwner := some (.host 3), tdac := ⟨5, some true, 0, true⟩, tdacQ := [] }

theorem releasedOnRoute_takes : releasedOnRoute.TakesWrite 3 tdacPage Adr.TDAC_CTRL := by
  constructor <;> decide +kernel

/-- The host holds the test DAC no more, so that its second release changes nothing. -/
theorem tdacGiveUp_releasedOnRoute : (releasedOnRoute.tdacGiveUp 3).tdac.goal = 5 := by decide +kernel

/-- Refutes O27: the clause on `TDAC_HOST_RELEASE` leaves out an owner that has released the test DAC already. -/
theorem not_testDacCommands : ¬ Obligations.TestDacCommands := by
  unfold Obligations.TestDacCommands
  rintro ⟨-, -, -, -, release, -⟩
  obtain ⟨t, ht, htd, -⟩ := release 3 releasedOnRoute releasedOnRoute_takes rfl
  have e : exec (.tdacHostRelease 3) releasedOnRoute = .next ((releasedOnRoute.tdacGiveUp 3).bumpVer tdacPage) :=
    next_eq (directWriteAt_takes releasedOnRoute_takes)
  have hg : ((releasedOnRoute.tdacGiveUp 3).bumpVer tdacPage).tdac.goal = 5 := tdacGiveUp_releasedOnRoute
  rw [Host.Outcome.next.inj (e.symm.trans ht), htd] at hg
  cases hg

end Sys2Proof.Machine
end

section
/-!
PROOFS. Conversions, calibration and the mains (11_housekeeping_converter.md R264–R269, R278).
-/
namespace Sys2Proof.Machine

/-! ## What a record leaves of the HKA (R278, R279) -/

/-- `t` is `s` in the sequences and requests of the HKA, and in the registers that `R` does not name. -/
structure HkaKept (R : Nat → Prop) (s t : State) : Prop where
  regs : ∀ a, ¬ R a → t.reg a = s.reg a
  hka : t.hka = s.hka

namespace HkaKept
variable {R : Nat → Prop} {s t : State}

theorem refl (s : State) : HkaKept R s s := ⟨fun _ _ => rfl, rfl⟩

theorem setFld (h : HkaKept R s t) {f : Fld} (v : Nat) (hf : R f.addr) : HkaKept R s (t.setFld f v) :=
  ⟨fun a ha => (reg_setFld_ne _ _ _ fun e => ha (by rwa [← e])).trans (h.regs a ha), (setFld_hka _ _ _).trans h.hka⟩

theorem setReg (h : HkaKept R s t) {a : Nat} (w : Word) (hf : R a) : HkaKept R s (t.setReg a w) :=
  ⟨fun b hb => (reg_setReg_ne _ _ fun e => hb (by rwa [← e])).trans (h.regs b hb), (setReg_hka _ _ _).trans h.hka⟩

theorem raise (h : HkaKept R s t) {p : Nat} (b : Nat) (hp : ∀ a, StatusOf [p] a → R a) : HkaKept R s (t.raise p b) :=
  ⟨fun a ha => ((raise_events t p b).regs a fun e => ha (hp a e)).trans (h.regs a ha), (raise_hka _ _ _).trans h.hka⟩

theorem updRing (h : HkaKept R s t) (i : Nat) (f : Ring → Ring) : HkaKept R s (t.updRing i f) :=
  ⟨fun a ha => (reg_updRing _ _ _ _).trans (h.regs a ha), h.hka⟩

theorem setBytes (h : HkaKept R s t) (bs : List Byte) (a : Nat) : HkaKept R s (t.setBytes a bs) := by
  refine ⟨fun b hb => (reg_of_regs (setBytes_regs _ _ _) b).trans (h.regs b hb), ?_⟩
  rw [← h.hka]
  clear h
  induction bs generalizing t a with
  | nil => rfl
  | cons b l ih => exact (ih (t := t.setByte a b) (a + 1)).trans rfl

end HkaKept

theorem StatusOf.mono {ps qs : List Nat} (h : ∀ p ∈ ps, p ∈ qs) {a : Nat} (ha : StatusOf ps a) : StatusOf qs a :=
  ha.imp_left fun ⟨p, hp, e⟩ => ⟨p, h p hp, e⟩

/-- The registers that the records of the HKA may change. -/
abbrev RecordRegs (a : Nat) : Prop := (∃ k, k < 4 ∧ a = Adr.HKSEQ_LOST k) ∨ StatusOf [hkseqPage, 0x00C] a

theorem hkaKept_ringEnter {i : Nat} (h0 : 20 ≤ i) (h1 : i ≤ 23) (e : Bool → List Byte) (s : State) :
    HkaKept RecordRegs s (ringEnter i e s).1 := by
  have hl : HkaKept RecordRegs s (s.countLost i) := by
    rw [State.countLost, if_pos ⟨h0, h1⟩]
    exact ((HkaKept.refl s).setFld _ (.inl ⟨i - 20, by omega, rfl⟩)).updRing _ _
  have hu := ((HkaKept.refl (R := RecordRegs) s).setBytes (e (s.ring i).lostBefore) ((s.ring i).entryAddr i (s.ring i).prod)).updRing i
    fun q => { q with prod := q.prod + 1, lostBefore := false }
  unfold ringEnter
  dsimp only
  split
  · exact .refl s
  · split
    · exact hl
    · split
      · exact hu.setFld (f := Fd.RING_WM_STATUS_RINGS) _ (.inr (.inr (.inr rfl)))
      · exact hu

theorem hkaKept_ringPut {i : Nat} (h0 : 20 ≤ i) (h1 : i ≤ 23) (e : Bool → List Byte) (s : State) :
    HkaKept RecordRegs s (s.ringPut i e) := by
  have h := hkaKept_ringEnter h0 h1 e s
  unfold State.ringPut ringPutWith raiseAll
  exact List.foldlRecOn _ _ h fun t ht b _ => ht.raise b fun a ha => .inr (ha.mono (by simp))

theorem hkaKept_putRecord {q : Nat} (hq : q < 4) (b : List Byte) (s : State) : HkaKept RecordRegs s (s.putRecord q b) := by
  have h := hkaKept_ringPut (i := 20 + q) (by omega) (by omega) (fun _ => b) s
  unfold State.putRecord
  dsimp only
  split
  · exact h.raise _ fun a ha => .inr (ha.mono (by simp))
  · exact h

/-- The registers that a converted value may change. -/
abbrev ValueRegs (a : Nat) : Prop := (∃ c, c < 64 ∧ a = Adr.HKA_LAST c) ∨ a = Adr.HKA_WIN_STATE ∨ StatusOf [hkaPage] a

theorem hkaKept_judge {s t : State} (h : HkaKept ValueRegs s t) (k : Nat) (v : Int) : HkaKept ValueRegs s (t.judge k v) := by
  unfold State.judge
  dsimp only
  split
  · exact (h.setFld (f := Fd.HKA_WIN_STATE_OUTSIDE) _ (.inr (.inl rfl))).raise _ fun _ h => .inr (.inr h)
  · split
    · exact h.setFld (f := Fd.HKA_WIN_STATE_OUTSIDE) _ (.inr (.inl rfl))
    · exact h

theorem hkaKept_converted {c : Nat} (hc : c < 64) (v : ConvReading) (b : Bool) (s : State) : HkaKept ValueRegs s (s.converted c v b) := by
  unfold State.converted
  extract_lets x w t
  have ht : HkaKept ValueRegs s t := (HkaKept.refl s).setReg _ (.inl ⟨c, hc, rfl⟩)
  clear_value t
  cases b
  · refine List.foldlRecOn _ _ ht fun u hu k _ => ?_
    split
    · exact hkaKept_judge hu _ _
    · exact hu
  · exact ht

/-! ## The end of a conversion (R266, R272) -/

section Conversion
variable {s : State} {x : Fin 3} {v : ConvReading}

theorem conversionDone_seq (hr : s.hkaRuns = true) (ho : s.seqOn 0 = some x) (hd : s.hka.seqs[x].due = false) :
    exec (.conversionDone (.seq x) v) s = .next ((s.pipeStamp (entryAvg s.hka.seqs[x].word)).2.entryDone x v
      (s.hka.seqs[x].switched && !entrySkip s.hka.seqs[x].word) (s.pipeStamp (entryAvg s.hka.seqs[x].word)).1) :=
  next_pos (by rw [hr, ho, hd]; simp)

theorem integrationDone_eq (hr : s.hkaRuns = true) (ho : s.seqOn 1 = some x) :
    exec (.integrationDone v) s
      = .next ((s.integStamp s.hka.seqs[x].t).2.entryDone x v false (s.integStamp s.hka.seqs[x].t).1) := by
  refine (next_pos hr).trans ?_
  rw [ho]

/-- The registers of the sequences are not those that a value or its record changes. -/
theorem seqRegs_kept (x : Fin 3) : ∀ a, a = Adr.HKSEQ_SEQ_CFG x ∨ a = Adr.HKSEQ_SEQ_STAT x → ¬ ValueRegs a ∧ ¬ RecordRegs a := by
  intro a ha
  constructor
  · rintro (⟨c, hc, g⟩ | g | ⟨q, hq, g⟩ | g | g) <;> grind
  · rintro (⟨c, hc, g⟩ | ⟨q, hq, g⟩ | g | g) <;> grind

theorem entryFrom_end (h : s.fld (Fd.HKSEQ_SEQ_CFG_FIRST x) + s.fld (Fd.HKSEQ_SEQ_CFG_COUNT x) ≤ s.fld (Fd.HKSEQ_SEQ_STAT_ENTRY x) + 1) :
    s.entryFrom x (s.fld (Fd.HKSEQ_SEQ_STAT_ENTRY x) + 1) = none := by
  rw [State.entryFrom, List.find?_eq_none]
  intro k _
  rw [Bool.and_eq_true, Bool.and_eq_true, decide_eq_true_eq, decide_eq_true_eq]
  omega

/-- The run ends with its last entry, and with nothing that waits the cores stay free. -/
theorem entryEnd_last (hr : s.hka.ready = []) (he : s.hka.seqs[x].ending = false)
    (hl : s.fld (Fd.HKSEQ_SEQ_CFG_FIRST x) + s.fld (Fd.HKSEQ_SEQ_CFG_COUNT x) ≤ s.fld (Fd.HKSEQ_SEQ_STAT_ENTRY x) + 1) :
    s.entryEnd x = s.runEnd x := by
  have h : (s.runEnd x).hka.ready = [] := by rw [State.runEnd, raise_hka, State.countWrap, State.setSeqState, setFld_hka, setFld_hka, hr]
  rw [State.entryEnd, he, if_neg Bool.false_ne_true, entryFrom_end hl, State.seqServeAll, seqServe_idle _ h, seqServe_idle _ h]

theorem runEnd_after (s : State) (x : Fin 3) : (s.runEnd x).seqState x = seqArmed
    ∧ (s.runEnd x).fld (Fd.HKSEQ_SEQ_STAT_RUNS x) = (s.fld (Fd.HKSEQ_SEQ_STAT_RUNS x) + 1) % 65536
    ∧ (s.runEnd x).evt hkseqPage x = true := by
  have hx : ∀ (u : State) (f : Fld), f.addr = Adr.HKSEQ_SEQ_STAT x → (u.raise hkseqPage x).fld f = u.fld f := fun u f h =>
    fld_raise _ _ _ (by grind) (by grind) (by grind)
  unfold State.runEnd State.setSeqState State.countWrap
  refine ⟨?_, ?_, evt_raise _ _ (by omega)⟩
  · rw [State.seqState, hx _ _ rfl, fld_setFld_bits _ _ (by simp) (by simp), fld_setFld_same _ _ _ (by simp)]
    rfl
  · rw [hx _ _ rfl, fld_setFld_same _ _ _ (by simp), fld_setFld_bits _ _ (by simp) (by simp)]
    rfl

theorem entryDone_last {b : Bool} {k : Nat} (hr : s.hka.ready = []) (he : s.hka.seqs[x].ending = false)
    (hl : s.fld (Fd.HKSEQ_SEQ_CFG_FIRST x) + s.fld (Fd.HKSEQ_SEQ_CFG_COUNT x) ≤ s.fld (Fd.HKSEQ_SEQ_STAT_ENTRY x) + 1) :
    (s.entryDone x v b k).seqState x = seqArmed
      ∧ (s.entryDone x v b k).fld (Fd.HKSEQ_SEQ_STAT_RUNS x) = (s.fld (Fd.HKSEQ_SEQ_STAT_RUNS x) + 1) % 65536
      ∧ (s.entryDone x v b k).evt hkseqPage x = true := by
  unfold State.entryDone
  extract_lets c t bytes
  have h1 : HkaKept ValueRegs s t := hkaKept_converted (Nat.mod_lt _ (by decide)) v b s
  have h2 := hkaKept_putRecord (q := 1 + x) (by omega) bytes t
  have hf : ∀ f : Fld, f.addr = Adr.HKSEQ_SEQ_CFG x ∨ f.addr = Adr.HKSEQ_SEQ_STAT x → (t.putRecord (1 + x) bytes).fld f = s.fld f := by
    intro f h
    obtain ⟨hv, hc⟩ := seqRegs_kept x _ h
    rw [fld_of_reg (h2.regs _ hc), fld_of_reg (h1.regs _ hv)]
  have hh : (t.putRecord (1 + x) bytes).hka = s.hka := h2.hka.trans h1.hka
  clear_value c t bytes
  generalize t.putRecord (1 + x) bytes = u at *
  rw [entryEnd_last (by rw [hh, hr]) (by rw [hh, he]) (by rw [hf _ (.inl rfl), hf _ (.inl rfl), hf _ (.inr rfl)]; exact hl)]
  obtain ⟨r1, r2, r3⟩ := runEnd_after u x
  exact ⟨r1, by rw [r2, hf _ (.inr rfl)], r3⟩

/-! ## The urgent request (R276) -/

/-- The request's place is free, and the core goes on. -/
theorem urgentFreed_after {p : Nat} (t : State) (h : Hka) (hu : h.urg = none) (ht : t.evt hkaPage p = true) :
    ((t.withHka h).pipeResume).hka.urg = none ∧ ((t.withHka h).pipeResume).evt hkaPage p = true := by
  have hc := pipeResume_cores (t.withHka h)
  refine ⟨hc.urg.trans hu, ?_⟩
  rw [State.evt, hc.frame.regs _ (by rintro (⟨q, hq, g⟩ | g) <;> grind), reg_withHka]
  exact ht

theorem conversionDone_urgent {p : Fin 4} {w : Nat} {b : Bool} (hr : s.hkaRuns = true) (hu : s.hka.urg = some (p, w, b)) :
    After (exec (.conversionDone .urgent v) s) fun t => t.hka.urg = none ∧ t.evt hkaPage HkaEv.URG_DONE = true := by
  have e : ∃ (u : State) (h : Hka), h.urg = none ∧ s.urgentDone v = ((u.raise hkaPage HkaEv.URG_DONE).withHka h).pipeResume := by
    rw [State.urgentDone, hu]
    dsimp only
    rw [if_pos hr]
    exact ⟨_, _, rfl, rfl⟩
  obtain ⟨u, h, hh, e⟩ := e
  refine .of_eq (next_eq e) ?_
  exact urgentFreed_after _ h hh (evt_raise _ _ (by decide))

/-! ## Calibration and the mains (R267, R269) -/

theorem mainsMeasurementValid_after {us : BitVec 16} (hr : s.hkaRuns = true) (hs : s.fld Fd.HKA_MAINS_SEL = 2) (h0 : 14286 ≤ us.toNat)
    (h1 : us.toNat ≤ 25000) : After (exec (.mainsMeasurementValid us) s) fun t =>
    t.flag Fd.HKA_STATUS_MAINS_LOST = false ∧ t.fld Fd.HKA_MAINS_PERIOD = us.toNat
      ∧ Quiet (fun a => a = Adr.HKA_STATUS ∨ a = Adr.HKA_MAINS) s t := by
  have hu : us.toNat < 2 ^ 16 := us.isLt
  refine .of_eq (next_pos (by rw [hr, hs, decide_eq_true h0, decide_eq_true h1]; rfl)) ⟨?_, ?_, ?_⟩
  · rw [State.flag, fld_setFld_addr _ _ (by decide), fld_setFld_same _ _ _ (by simp)]
    rfl
  · rw [fld_setFld_same _ _ _ (by simp)]
    exact Nat.mod_eq_of_lt hu
  · exact .setFld (.setFld (.refl _ s) _ (.inl rfl)) _ (.inr rfl)

end Conversion

/-- Settles O25. -/
theorem conversionCommands : Obligations.ConversionCommands := by
  unfold Obligations.ConversionCommands
  exact ⟨fun _ _ _ hr ho hd => conversionDone_seq hr ho hd, fun _ _ _ _ _ _ hr he hl => entryDone_last hr he hl,
    fun _ _ _ _ _ hr hu => conversionDone_urgent hr hu, fun _ _ => rfl, fun _ _ _ hr ho => integrationDone_eq hr ho,
    fun _ hr hf => next_pos (by rw [hr, hf]; rfl), fun _ hr hf => next_pos (by rw [hr, hf]; rfl),
    fun _ hr hs hl => next_pos (by rw [hr, hs, hl]; rfl), fun _ _ hr hs h0 h1 => mainsMeasurementValid_after hr hs h0 h1⟩

end Sys2Proof.Machine
end

section
/-!
PROOFS. Image loads, the schuss path and the dump stream (17_boot_images_recovery.md R386–R402): three statements that fail.
-/
namespace Sys2Proof.Machine

/-! ## LOAD_ABORT while an operation waits -/

/-- `awake` with a load that port 3 has open, and a write of port 0 that is to be tried again. -/
def abortBeforeWrite : State :=
  { awake with boot := { awake.boot with owner := some 3, check := none } }.updPort 0 fun q =>
    { q with waiting := [⟨.wr 0 0x60000000 0 [1, 0, 0, 0], .retry, false, 0⟩] }

theorem abortBeforeWrite_takes : abortBeforeWrite.TakesWrite 3 bootPage Adr.BOOT_LOAD_CTRL := by
  constructor <;> decide +kernel

/-- The end of the load lets the waiting write go on. -/
theorem abortBeforeWrite_writes :
    (abortBeforeWrite.loadCtrlWrite 3 (128 + abortBeforeWrite.fld Fd.BOOT_LOAD_CTRL_KIND)).pump.byte 0x60000000 = 1
      ∧ abortBeforeWrite.byte 0x60000000 = 0 := by decide +kernel

/-- Refutes O41: the clause on `IMAGE_LOAD_ABORT` lacks the premise that nothing waits; a waiting write of memory then goes on. -/
theorem not_imageCommands : ¬ Obligations.ImageCommands := by
  unfold Obligations.ImageCommands
  rintro ⟨-, -, -, -, -, -, -, abort, -⟩
  obtain ⟨t, ht, -, -, hq⟩ := abort 3 abortBeforeWrite abortBeforeWrite_takes rfl rfl
  have e : exec (.imageLoadAbort 3) abortBeforeWrite
      = .next ((abortBeforeWrite.loadCtrlWrite 3 (128 + abortBeforeWrite.fld Fd.BOOT_LOAD_CTRL_KIND)).pump.bumpVer bootPage) :=
    next_eq (directWriteAt_takes abortBeforeWrite_takes)
  have hb := hq.bytes 0x60000000
  rw [← Host.Outcome.next.inj (e.symm.trans ht)] at hb
  obtain ⟨h1, h0⟩ := abortBeforeWrite_writes
  exact absurd (h1.symm.trans ((byte_of_mem rfl _).symm.trans (hb.trans h0))) (by decide)

/-! ## SCHUSS_END in RECOVERY -/

/-- `awake` in RECOVERY with the path's fuse blown, and a path whose glide-out has ended. -/
def endingInRecovery : State :=
  { (awake.setFld Fd.SYS_MODE_MODE 2).setFld Fd.DBG_CTRL_PDM_TEST 1 with
    fusesRead := 1#512 <<< Fuse.SCHUSS_EN, boot := { awake.boot with path := .ending, glide := Glide.at .mute } }

theorem endingInRecovery_boots : endingInRecovery.schussDone.mode = .recovery
    ∧ endingInRecovery.schussDone.fuse Fuse.SCHUSS_EN = true := by decide +kernel

theorem schussStart_path (s : State) : s.schussStart.boot.path = .active := rfl

theorem schussBoot_path {s : State} (h : s.fuse Fuse.SCHUSS_EN = true) : s.schussBoot.boot.path = .active := by
  rw [State.schussBoot, if_pos h, schussStart_path]

/-- Refutes O42: the clauses on `SCHUSS_END` leave out RECOVERY, where the supervisor starts the path again. -/
theorem not_bootCommands : ¬ Obligations.BootCommands := by
  unfold Obligations.BootCommands
  rintro ⟨-, -, -, -, schussEnd, -⟩
  obtain ⟨t, ht, hoff, -⟩ := schussEnd endingInRecovery rfl rfl
  obtain ⟨hm, hf⟩ := endingInRecovery_boots
  have e : exec .schussEnd endingInRecovery = .next endingInRecovery.schussDone.schussBoot :=
    (next_pos ⟨rfl, rfl⟩).trans (congrArg _ (if_pos hm))
  have hp := schussBoot_path hf
  rw [Host.Outcome.next.inj (e.symm.trans ht), hoff] at hp
  cases hp

/-! ## A chunk of the dump without CMEM -/

/-- `awake` with a stream and room in ring 27, while the domain of the rings' memory is OFF. -/
def streamWithoutCmem : State :=
  ((({ awake with boot := { awake.boot with stream := some 0 } }.updDom Dm.CMEM fun d => { d with phase := .off }).updRing 27 fun q =>
    { q with enable := true, wm := 0, prod := 0, cons := 0 }).setFld Fd.DUMP_LEN_BYTES 1000)

theorem streamWithoutCmem_chunk : (streamWithoutCmem.dumpChunk 0).ring 27 = streamWithoutCmem.ring 27
    ∧ (streamWithoutCmem.ring 27).prod = 0 := by decide +kernel

theorem dumpChunk_streamWithoutCmem : exec .dumpChunk streamWithoutCmem = .next (streamWithoutCmem.dumpChunk 0) := by
  have hc : (streamWithoutCmem.domOn Dm.SUP && streamWithoutCmem.domOn Dm.CORE && (streamWithoutCmem.ring 27).enable
    && decide ((streamWithoutCmem.ring 27).fill < (streamWithoutCmem.ring 27).size)) = true := by decide +kernel
  have hs : streamWithoutCmem.boot.stream = some 0 := rfl
  refine next_eq ?_
  rw [hs]
  exact if_pos hc

/-- Refutes O44: the clause on `DUMP_CHUNK` lacks the premise that CMEM is ON; the ring logic does not run without it. -/
theorem not_dumpCommands : ¬ Obligations.DumpCommands := by
  unfold Obligations.DumpCommands
  rintro ⟨-, -, -, -, -, -, -, -, chunk, -⟩
  obtain ⟨t, ht, -, hr, -⟩ := chunk 0 streamWithoutCmem rfl (by decide +kernel) (by decide +kernel) (by decide +kernel) (by decide +kernel)
    (by decide +kernel) (by decide +kernel)
  obtain ⟨h1, h0⟩ := streamWithoutCmem_chunk
  rw [← Host.Outcome.next.inj (dumpChunk_streamWithoutCmem.symm.trans ht), h1] at hr
  have hp := congrArg Ring.prod hr
  rw [h0] at hp
  exact absurd hp (by decide)

end Sys2Proof.Machine
end

section
/-!
PROOFS. Requests to the service image (17_boot_images_recovery.md R403, Tables 17.7, 17.8).
-/
namespace Sys2Proof.Machine

section Service
variable {s : State} {id sv port : Nat} {ps : List Byte}

/-! ## Requests -/

theorem serve_eq {f : State → List Byte → State × List Byte} (h : s.request = some (id, sv, port, ps)) (hm : s.mode = .service)
    (hc : s.domOn Dm.CORE = true) : s.serve sv f = (f s ps).1.reply id sv port 0 (f s ps).2 := by
  rw [State.serve, h]
  exact if_pos ⟨rfl, hm, hc⟩

theorem reclassify_plugged {j : Fin 20} (h : s.request = some (id, 2, port, ps)) (hm : s.mode = .service) (hc : s.domOn Dm.CORE = true)
    (hj : (ps.getD 0 0).toNat = j.val) (hi : s.flag (Fd.JACK_JSTAT_INSERTED j) = true) (he : s.flag (Fd.JACK_JCFG_CLS_EN j) = true) :
    exec .serviceReclassify s = .next ((s.reclassify j).reply id 2 port 0x00 []) := by
  obtain ⟨k, hk⟩ := j
  change (ps.getD 0 0).toNat = k at hj
  subst hj
  refine next_eq ((serve_eq h hm hc).trans ?_)
  dsimp only
  rw [dif_pos hk, hi, he]
  rfl

theorem reclassify_noJack (h : s.request = some (id, 2, port, ps)) (hm : s.mode = .service) (hc : s.domOn Dm.CORE = true)
    (hj : 20 ≤ (ps.getD 0 0).toNat) : exec .serviceReclassify s = .next (s.reply id 2 port 0x00 []) := by
  refine next_eq ((serve_eq h hm hc).trans ?_)
  dsimp only
  rw [dif_neg (by omega)]

theorem freeWords16_five (s : State) : ((s.freeWords16 5).1.length = 10) ∧ (s.freeWords16 5).2 = { s with fresh := s.fresh + 5 } :=
  ⟨by simp only [State.freeWords16, List.length_append, length_bytesLE, List.length_nil], rfl⟩

theorem thermal_reply (h : s.request = some (id, 3, port, ps)) (hm : s.mode = .service) (hc : s.domOn Dm.CORE = true) :
    ∃ data : List Byte, data.length = 10
      ∧ exec .serviceThermal s = .next ({ s with fresh := s.fresh + 5 }.reply id 3 port 0x00 data) := by
  obtain ⟨hl, hs⟩ := freeWords16_five s
  exact ⟨(s.freeWords16 5).1, hl, next_eq ((serve_eq h hm hc).trans (by dsimp only; rw [hs]))⟩

/-- One input of those that CALIBRATE names. -/
def State.calNamed (m : Nat) (s : State) (n : Fin 16) : State :=
  if bitOf m n.val && s.domOn (Dm.AIN (n.val / 4)) then s.calRestart n else s

theorem calibrate_eq (h : s.request = some (id, 4, port, ps)) (hm : s.mode = .service) (hc : s.domOn Dm.CORE = true) :
    exec .serviceCalibrate s
      = .next (((List.finRange 16).foldl (State.calNamed (ofBytesLE (ps.take 2))) s).reply id 4 port 0x00 []) :=
  next_eq (serve_eq h hm hc)

theorem calNamed_not {m : Nat} {n : Fin 16} (t : State) (h : bitOf m n.val = false) : t.calNamed m n = t := by
  rw [State.calNamed, h, Bool.false_and, if_neg Bool.false_ne_true]

theorem calNamed_none (t : State) : (List.finRange 16).foldl (State.calNamed 0) t = t :=
  List.foldl_fixed' (fun n => calNamed_not t (by rw [bitOf_eq_testBit, Nat.zero_testBit])) _

theorem calNamed_one {n : Fin 16} (hd : s.domOn (Dm.AIN (n.val / 4)) = true) :
    (List.finRange 16).foldl (State.calNamed (2 ^ n.val)) s = s.calRestart n := by
  have hne : ∀ k : Fin 16, k ≠ n → ∀ t : State, t.calNamed (2 ^ n.val) k = t := fun k hk t =>
    calNamed_not t (by rw [bitOf_eq_testBit, Nat.testBit_two_pow_of_ne fun e => hk (Fin.ext e.symm)])
  have hn : s.calNamed (2 ^ n.val) n = s.calRestart n := by
    rw [State.calNamed, bitOf_eq_testBit, Nat.testBit_two_pow_self, hd]
    rfl
  exact foldl_reaches (x := n) (Q := (· = s)) (P := (· = s.calRestart n)) (fun t k hk e => (hne k hk t).trans e)
    (fun t e => by rw [e, hn]) (fun t k hk e => (hne k hk t).trans e) (List.nodup_finRange 16) (List.mem_finRange n) rfl

theorem refused_reply (h : s.request = some (id, sv, port, ps)) (hs : s.domOn Dm.SUP = true) (hc : s.domOn Dm.CORE = true)
    (hm : s.mode ≠ .service ∨ sv = 0 ∨ 4 < sv) : exec .serviceRefused s = .next (s.reply id sv port 0x14 []) := by
  have hk : if s.mode = .service then sv = 0 ∨ 4 < sv else s.domOn Dm.SUP = true := by
    split
    · next e => exact hm.resolve_left fun h => h e
    · exact hs
  refine next_eq ?_
  rw [h]
  exact if_pos ⟨hc, hk⟩

/-! ## The reply (Table 17.8) -/

theorem ringTake_unmarked {i : Nat} (k : Nat) (h : (s.ring i).wm = 0) :
    s.ringTake i k = s.updRing i fun q => { q with cons := q.cons + BitVec.ofNat 32 k } := by
  unfold State.ringTake
  dsimp only
  rw [h, if_neg (by simp)]

theorem ringPut_unmarked {i : Nat} {e : Bool → List Byte} (hu : s.ringsUp = true) (he : (s.ring i).enable = true)
    (hf : (s.ring i).fill < (s.ring i).size) (hw : (s.ring i).wm = 0) : s.ringPut i e
      = (s.setBytes ((s.ring i).entryAddr i (s.ring i).prod) (e (s.ring i).lostBefore)).updRing i
        fun q => { q with prod := q.prod + 1, lostBefore := false } := by
  unfold State.ringPut ringPutWith ringEnter
  dsimp only
  rw [hu, he, if_neg (by decide), decide_eq_false (Nat.ne_of_lt hf), if_neg (by decide), hw, if_neg (by simp)]
  rfl

theorem rings_setBytes (bs : List Byte) : ∀ (s : State) (a : Nat), (s.setBytes a bs).rings = s.rings := by
  induction bs with
  | nil => exact fun _ _ => rfl
  | cons b l ih => exact fun s a => (ih _ _).trans rfl

theorem ring_setBytes (bs : List Byte) (s : State) (a i : Nat) : (s.setBytes a bs).ring i = s.ring i := by
  rw [State.ring, State.ring, rings_setBytes]

theorem bytesAt_setBytes_prefix (pre post : List Byte) (s : State) (a : Nat) : (s.setBytes a (pre ++ post)).bytesAt a pre.length = pre := by
  apply List.ext_getElem
  · simp [State.bytesAt]
  · intro i h1 h2
    simp only [State.bytesAt, List.getElem_map, List.getElem_range]
    rw [byte_setBytes _ _ _ i (by simp; omega), List.getElem_append_left h2]

theorem reply_after {st : Nat} {data : List Byte} (hu : s.ringsUp = true) (h24 : (s.ring 24).wm = 0) (he : (s.ring 25).enable = true)
    (hw : (s.ring 25).wm = 0) (hf : (s.ring 25).fill < (s.ring 25).size) :
    (s.reply id sv port st data).ring 24 = { s.ring 24 with cons := (s.ring 24).cons + 1 }
      ∧ (s.reply id sv port st data).bytesAt ((s.ring 25).entryAddr 25 (s.ring 25).prod) 8 =
          bytesLE 2 id ++ bytesLE 2 sv ++ [BitVec.ofNat 8 st, BitVec.ofNat 8 port] ++ bytesLE 2 data.length
      ∧ (s.reply id sv port st data).ring 25 = { s.ring 25 with prod := (s.ring 25).prod + 1, lostBefore := false } := by
  have h25 : (s.updRing 24 fun q => { q with cons := q.cons + BitVec.ofNat 32 1 }).ring 25 = s.ring 25 := ring_updRing_ne _ _ (by decide)
  have hr : (s.updRing 24 fun q => { q with cons := q.cons + BitVec.ofNat 32 1 }).ring 24 = { s.ring 24 with cons := (s.ring 24).cons + 1 } :=
    ring_updRing_same _ _ (by decide)
  have hu2 : (s.updRing 24 fun q => { q with cons := q.cons + BitVec.ofNat 32 1 }).ringsUp = true := hu
  unfold State.reply
  dsimp only
  rw [ringTake_unmarked 1 h24]
  generalize s.updRing 24 (fun q => { q with cons := q.cons + BitVec.ofNat 32 1 }) = t at *
  generalize hp : bytesLE 2 id ++ bytesLE 2 sv ++ [BitVec.ofNat 8 st, BitVec.ofNat 8 port] ++ bytesLE 2 data.length = pre
  have hl : pre.length = 8 := by
    rw [← hp]
    simp only [List.length_append, length_bytesLE, List.length_cons, List.length_nil]
  rw [ringPut_unmarked hu2 (by rw [h25, he]) (by rw [h25]; exact hf) (by rw [h25, hw]), h25, List.append_assoc]
  have hb := bytesAt_setBytes_prefix pre (data ++ List.replicate (64 - (pre ++ data).length) 0) t ((s.ring 25).entryAddr 25 (s.ring 25).prod)
  rw [hl] at hb
  have hs := ring_setBytes (pre ++ (data ++ List.replicate (64 - (pre ++ data).length) 0)) t ((s.ring 25).entryAddr 25 (s.ring 25).prod)
  generalize t.setBytes ((s.ring 25).entryAddr 25 (s.ring 25).prod) (pre ++ (data ++ List.replicate (64 - (pre ++ data).length) 0)) = u at *
  refine ⟨?_, hb, ?_⟩
  · rw [ring_updRing_ne _ _ (by decide), hs, hr]
  · rw [ring_updRing_same _ _ (by decide), hs, h25]

end Service

/-- Settles O43. -/
theorem serviceCommands : Obligations.ServiceCommands := by
  unfold Obligations.ServiceCommands
  refine ⟨fun _ _ _ _ h hm hc => next_eq (serve_eq h hm hc), fun _ _ _ _ _ h hm hc hj hi he => reclassify_plugged h hm hc hj hi he,
    fun _ _ _ _ h hm hc hj => reclassify_noJack h hm hc hj, fun _ _ _ _ h hm hc => thermal_reply h hm hc, fun _ _ _ _ h hm hc h0 => ?_,
    fun _ _ _ _ _ h hm hc h1 hd => ?_, fun _ _ _ _ _ h hs hc hm => refused_reply h hs hc hm,
    fun _ _ _ _ _ _ hu h24 he hw hf _ => reply_after hu h24 he hw hf⟩
  · rw [calibrate_eq h hm hc, h0, calNamed_none]
  · rw [calibrate_eq h hm hc, h1, calNamed_one hd]

end Sys2Proof.Machine
end

section
/-!
PROOFS. Descriptors, indices, forced and enabled events, and the books (16_rings_events_books.md R372, R373, R376, R381).
-/
namespace Sys2Proof.Machine

/-- A direct write that is taken at an address of its page. -/
theorem directWrite_takes {s : State} {p : Fin 4} {g a v : Nat} {f : State → State} (h : s.TakesWrite p g a) (hg : pageOf a = g) :
    s.directWrite p a v f = (f s).bumpVer g := by
  subst hg
  exact directWriteAt_takes h

theorem Frame.trans_events {R : Nat → Prop} {s t u : State} (h : Frame R s t) (g : EventsOnly R t u) : Frame R s u := h.trans g.frame

theorem rings_bumpVer (s : State) (g i : Nat) : (s.bumpVer g).ring i = s.ring i := rfl

/-! ## Descriptors (R372) -/

section Rings
variable {s : State} {p : Fin 4} {r : Fin 32} {v : Word}

theorem ringConfigWrite_eq (hr : 12 ≤ r.val) (h : s.TakesWrite p ringPage (Adr.RING_RING_CFG r)) :
    exec (.ringConfigWrite p r v) s = .next ((s.ringCfgWrite r v.toNat).bumpVer ringPage) :=
  next_eq ((if_neg (by omega)).trans (directWrite_takes h (by grind)))

/-- An enabled ring keeps its descriptor while ENABLE stays 1. -/
theorem ringCfgWrite_enabled (hr : 12 ≤ r.val) (hb : bitOf v.toNat 31 = true) (he : (s.ring r).enable = true) :
    s.ringCfgWrite r v.toNat = s := by rw [State.ringCfgWrite, if_neg (by omega), if_pos hb, if_pos he]

theorem ringCfgWrite_disable (hr : 12 ≤ r.val) (hb : bitOf v.toNat 31 = false) :
    s.ringCfgWrite r v.toNat = s.updRing r fun q => { q.layoutFrom r v.toNat with enable := false } := by
  rw [State.ringCfgWrite, if_neg (by omega), hb, if_neg Bool.false_ne_true]

theorem ringCfgWrite_start (hr : 12 ≤ r.val) (hb : bitOf v.toNat 31 = true) (he : (s.ring r).enable = false)
    (hk : (s.updRing r fun q => q.layoutFrom r v.toNat).ringBlocked r = false) :
    s.ringCfgWrite r v.toNat = (s.updRing r fun q => q.layoutFrom r v.toNat).ringStart r := by
  rw [State.ringCfgWrite, if_neg (by omega), if_pos hb, he, if_neg Bool.false_ne_true]
  dsimp only
  rw [hk, if_neg Bool.false_ne_true]

/-- The descriptor of a ring that starts empty. -/
def Ring.started (q : Ring) : Ring := { q with enable := true, prod := 0, cons := 0, lost := 0, lostBefore := false }

/-- A ring starts: its descriptor, and LOST of a ring of the HKA. -/
theorem ringStart_after (s : State) {i : Nat} (hi : i < 32) : (s.ringStart i).ring i = (s.ring i).started
    ∧ (∀ j, j ≠ i → (s.ringStart i).ring j = s.ring j)
    ∧ (∀ a, a ≠ Adr.HKSEQ_LOST (i - 20) → (s.ringStart i).reg a = s.reg a) ∧ ∀ a, (s.ringStart i).byte a = s.byte a := by
  have key : ∃ u : State, (u = s.updRing i Ring.started ∨ u = (s.updRing i Ring.started).setFld (Fd.HKSEQ_LOST_COUNT (i - 20)) 0)
      ∧ (s.ringStart i).rings = u.rings ∧ (s.ringStart i).regs = u.regs ∧ (s.ringStart i).mem = u.mem := by
    refine ⟨if 20 ≤ i ∧ i ≤ 23 then (s.updRing i Ring.started).setFld (Fd.HKSEQ_LOST_COUNT (i - 20)) 0 else s.updRing i Ring.started,
      ?_, ?_⟩
    · split
      · exact .inr rfl
      · exact .inl rfl
    · unfold State.ringStart Ring.started
      dsimp only
      generalize (if 20 ≤ i ∧ i ≤ 23 then _ else _ : State) = u
      split
      · exact ⟨rfl, rfl, rfl⟩
      · split <;> exact ⟨rfl, rfl, rfl⟩
  obtain ⟨u, hu, h1, h2, h3⟩ := key
  have hring : ∀ j, u.ring j = (s.updRing i Ring.started).ring j := by
    obtain rfl | rfl := hu <;> exact fun j => rfl
  have hreg : ∀ a, a ≠ Adr.HKSEQ_LOST (i - 20) → u.reg a = s.reg a := by
    intro a ha
    obtain rfl | rfl := hu
    · exact reg_updRing _ _ _ _
    · rw [reg_setFld_ne _ _ _ (by exact ha.symm), reg_updRing]
  have hmem : u.mem = s.mem := by obtain rfl | rfl := hu <;> rfl
  have e : ∀ j, (s.ringStart i).ring j = (s.updRing i Ring.started).ring j := fun j => by
    rw [← hring j, State.ring, State.ring, h1]
  refine ⟨?_, fun j hj => ?_, fun a ha => (reg_of_regs h2 a).trans (hreg a ha), fun a => byte_of_mem (h3.trans hmem) a⟩
  · rw [e, ring_updRing_same _ _ hi]
  · rw [e, ring_updRing_ne _ _ hj.symm]

theorem ringConfigWrite_start (hr : 12 ≤ r.val) (h : s.TakesWrite p ringPage (Adr.RING_RING_CFG r)) (hb : bitOf v.toNat 31 = true)
    (he : (s.ring r).enable = false) (hk : (s.updRing r fun q => q.layoutFrom r v.toNat).ringBlocked r = false) :
    After (exec (.ringConfigWrite p r v) s) fun t =>
      t.ring r = { (s.ring r).layoutFrom r v.toNat with enable := true, prod := 0, cons := 0, lost := 0, lostBefore := false }
      ∧ (∀ i, i ≠ r.val → t.ring i = s.ring i) ∧ (∀ a, a ≠ Adr.HKSEQ_LOST (r.val - 20) → t.reg a = s.reg a)
      ∧ ∀ a, t.byte a = s.byte a := by
  obtain ⟨h1, h2, h3, h4⟩ := ringStart_after (s.updRing r fun q => q.layoutFrom r v.toNat) r.isLt
  refine .of_eq ((ringConfigWrite_eq hr h).trans (by rw [ringCfgWrite_start hr hb he hk])) ⟨?_, fun i hi => ?_, fun a ha => ?_, fun a => ?_⟩
  · rw [rings_bumpVer, h1, ring_updRing_same _ _ r.isLt, Ring.started]
  · rw [rings_bumpVer, h2 i hi, ring_updRing_ne _ _ hi.symm]
  · rw [reg_bumpVer, h3 a ha, reg_updRing]
  · exact (h4 a).trans (byte_of_mem rfl a)

/-! ## Indices (R373) -/

theorem consWrite_eq (hd : ringDeviceProduced r = true) (h : s.TakesWrite p ringPage (Adr.RING_RING_CONS r)) :
    exec (.ringIndexWrite p r false v) s = .next ((s.ringIndexWrite p r false v).bumpVer ringPage) :=
  next_eq ((if_pos hd).trans (directWrite_takes h (by grind)))

theorem prodWrite_eq (hd : indexIsHost r true = true) (h : s.TakesWrite p ringPage (Adr.RING_RING_PROD r)) :
    exec (.ringIndexWrite p r true v) s = .next ((s.ringIndexWrite p r true v).bumpVer ringPage) :=
  next_eq ((if_pos hd).trans (directWrite_takes h (by grind)))

/-- An index advanced by the distance to its new value reads that value. -/
theorem add_ofNat_sub (x v : Word) : x + BitVec.ofNat 32 (v - x).toNat = v := by
  rw [BitVec.ofNat_toNat, BitVec.setWidth_eq, BitVec.add_comm, BitVec.sub_add_cancel]

theorem updRing_congr (s : State) {i : Nat} (f g : Ring → Ring) (h : f (s.ring i) = g (s.ring i)) :
    s.updRing i f = s.updRing i g := by
  rw [State.updRing, State.updRing]
  congr 1
  unfold upd
  split
  · next hi => rw [show s.rings[i] = s.ring i by simp [State.ring, at_, hi], h]
  · rfl

theorem consWrite_takes (hd : ringDeviceProduced r = true) (h : s.TakesWrite p ringPage (Adr.RING_RING_CONS r))
    (hv : (v - (s.ring r).cons).toNat ≤ (s.ring r).fill) :
    exec (.ringIndexWrite p r false v) s = .next ((s.updRing r fun q => { q with cons := v }).bumpVer ringPage) := by
  have e : s.ringIndexWrite p r false v = s.updRing r fun q => { q with cons := v } := by
    rw [State.ringIndexWrite, if_neg (by simp [indexIsHost, hd])]
    dsimp only
    rw [if_neg Bool.false_ne_true, if_pos hv, State.ringTake, hd, if_neg (by simp)]
    exact updRing_congr _ _ _ (by rw [add_ofNat_sub])
  rw [consWrite_eq hd h, e]

theorem consWrite_beyond (hd : ringDeviceProduced r = true) (h : s.TakesWrite p ringPage (Adr.RING_RING_CONS r))
    (hv : (s.ring r).fill < (v - (s.ring r).cons).toNat) :
    exec (.ringIndexWrite p r false v) s = .next ((s.setErr ringPage 1).bumpVer ringPage) := by
  have e : s.ringIndexWrite p r false v = s.setErr ringPage 1 := by
    rw [State.ringIndexWrite, if_neg (by simp [indexIsHost, hd])]
    dsimp only
    rw [if_neg Bool.false_ne_true, if_neg (Nat.not_le_of_lt hv)]
  rw [consWrite_eq hd h, e]

theorem prodWrite_takes (hr : r.val = 30 ∨ r.val = 31) (h : s.TakesWrite p ringPage (Adr.RING_RING_PROD r)) (he : (s.ring r).enable = true)
    (hv : (v - (s.ring r).prod).toNat ≤ (s.ring r).size - (s.ring r).fill) :
    exec (.ringIndexWrite p r true v) s = .next ((s.updRing r fun q => { q with prod := v }).bumpVer ringPage) := by
  have hd : indexIsHost r true = true := by obtain hr | hr := hr <;> rw [hr] <;> rfl
  have e : s.ringIndexWrite p r true v = s.updRing r fun q => { q with prod := v } := by
    rw [State.ringIndexWrite, hd, if_neg (by decide)]
    dsimp only
    rw [if_pos rfl, if_neg (Nat.not_lt_of_le hv), he, if_pos rfl, State.ringHostGive, if_neg (by omega), State.ringGive]
    exact updRing_congr _ _ _ (by rw [add_ofNat_sub])
  rw [prodWrite_eq hd h, e]

theorem hostRings (h : indexIsHost r true = true) : r.val = 24 ∨ r.val = 30 ∨ r.val = 31 := by
  simp only [indexIsHost, if_true, Bool.or_eq_true, decide_eq_true_eq] at h
  omega

theorem prodWrite_disabled (hd : indexIsHost r true = true) (h : s.TakesWrite p ringPage (Adr.RING_RING_PROD r))
    (he : (s.ring r).enable = false) (hn : v ≠ (s.ring r).prod)
    (hv : (v - (s.ring r).prod).toNat ≤ (s.ring r).size - (s.ring r).fill) :
    After (exec (.ringIndexWrite p r true v) s) fun t => t.ring r =
        { s.ring r with lost := satAdd 16 (s.ring r).lost (v - (s.ring r).prod).toNat, lostBefore := true }
      ∧ t.evt ringPage 1 = true := by
  have hr := hostRings hd
  have hk : (v - (s.ring r).prod).toNat ≠ 0 := fun h0 =>
    hn (by rw [← add_ofNat_sub (s.ring r).prod v, h0, BitVec.add_zero])
  have e : s.ringIndexWrite p r true v = (s.updRing r fun q =>
      { q with lost := satAdd 16 q.lost (v - (s.ring r).prod).toNat, lostBefore := true }).raise ringPage 1 := by
    rw [State.ringIndexWrite, hd, if_neg (by decide)]
    dsimp only
    rw [if_pos rfl, if_neg (Nat.not_lt_of_le hv), he, if_neg Bool.false_ne_true, State.ringLose, if_neg hk, State.countLost,
      if_neg (by omega)]
  refine .of_eq ((prodWrite_eq hd h).trans (by rw [e])) ⟨?_, ?_⟩
  · rw [rings_bumpVer, (raise_events _ _ _).others _ (by omega), ring_updRing_same _ _ r.isLt]
  · rw [State.evt, reg_bumpVer]
    exact evt_raise _ _ (by decide)

end Rings

/-! ## Events of a page (R376) -/

section Events
variable {s : State} {p : Fin 4} {g : Fin 108} {v : Word}

theorem bitsOf_mem {x b : Nat} : b ∈ bitsOf x ↔ b < 32 ∧ bitOf x b = true := by
  rw [bitsOf, List.mem_filter, List.mem_range]

/-- One forced event. -/
def State.forceOne (g : Nat) (t : State) (b : Nat) : State :=
  let st := (t.reg (pageAddr g 0x010)).toNat
  let outcome : Bool := g == txnPage && b ≤ 1
  let u := if outcome && !bitOf st b then
      { t with txn := if b = 0 then { t.txn with lastCommitted := none } else { t.txn with lastAborted := none } } else t
  raiseFuel 4 g .page b (if outcome then 0 else u.tickcnt) true u

theorem evtForce_eq (s : State) (g v : Nat) : s.evtForce g v = (bitsOf (v &&& evtMask g)).foldl (State.forceOne g) s := rfl

theorem forceOne_raised (g : Nat) (t : State) (b : Nat) : ∃ (u : State) (d : Nat), u.regs = t.regs ∧ u.mem = t.mem ∧ u.rings = t.rings
    ∧ t.forceOne g b = raiseFuel 4 g .page b d true u := by
  unfold State.forceOne
  extract_lets st outcome x u
  refine ⟨u, _, ?_, ?_, ?_, rfl⟩ <;> (unfold u; split <;> rfl)

theorem raiseFuel_status (f g : Nat) (b d : Nat) (fo : Bool) (s : State) : EventsOnly (StatusOf [g]) s (raiseFuel f g .page b d fo s) :=
  (raiseFuel_events f g .page b d fo s).mono fun _ h => h.imp_left fun h => ⟨g, .head _, h⟩

theorem forceOne_frame (g : Nat) (t : State) (b : Nat) : Frame (StatusOf [g]) t (t.forceOne g b) := by
  obtain ⟨u, d, h1, h2, h3, e⟩ := forceOne_raised g t b
  rw [e]
  exact (Quiet.same h1 h2 h3).frame.trans (raiseFuel_status 4 g b d true u).frame

theorem forceOne_bits (g : Nat) (t : State) (b : Nat) : (b < 32 → (t.forceOne g b).evt g b = true)
    ∧ ∀ c, t.evt g c = true → (t.forceOne g b).evt g c = true := by
  obtain ⟨u, d, h1, -, -, e⟩ := forceOne_raised g t b
  rw [e]
  refine ⟨fun hb => raiseFuel_bit 3 g .page b d true u hb, fun c hc => (raiseFuel_status 4 g b d true u).bits _ _ ?_⟩
  rw [reg_of_regs h1]
  exact hc

theorem force_all (g : Nat) : ∀ (l : List Nat) (t : State), (∀ b ∈ l, b < 32) →
    (∀ b, b ∈ l ∨ t.evt g b = true → (l.foldl (State.forceOne g) t).evt g b = true) := by
  intro l
  induction l with
  | nil => exact fun t _ b h => h.resolve_left (by simp)
  | cons x l ih =>
    intro t hl b h
    obtain ⟨h1, h2⟩ := forceOne_bits g t x
    refine ih _ (fun c hc => hl c (.tail _ hc)) b ?_
    obtain h | h := h
    · obtain rfl | h := List.mem_cons.1 h
      · exact .inr (h1 (hl b (.head _)))
      · exact .inl h
    · exact .inr (h2 b h)

theorem evtForceWrite_after (hm : evtMask g ≠ 0) (h : s.TakesWrite p g (pageAddr g 0x018)) :
    After (exec (.evtForceWrite p g v) s) fun t =>
      (∀ b, bitOf v.toNat b = true → bitOf (evtMask g) b = true → t.evt g b = true) ∧ Frame (StatusOf [g.val]) s t := by
  refine .of_eq (next_eq ((if_neg hm).trans (directWrite_takes h (by grind)))) ⟨fun b hb he => ?_, ?_⟩
  · have hb32 : b < 32 := by
      by_contra hc
      rw [bitOf_eq_testBit, Nat.testBit_lt_two_pow (Nat.lt_of_lt_of_le v.isLt (Nat.pow_le_pow_right (by decide) (by omega)))] at hb
      cases hb
    rw [State.evt, reg_bumpVer, evtForce_eq]
    refine force_all g _ s (fun c hc => (bitsOf_mem.1 hc).1) b (.inl (bitsOf_mem.2 ⟨hb32, ?_⟩))
    rw [bitOf_eq_testBit, Nat.testBit_and, ← bitOf_eq_testBit, ← bitOf_eq_testBit, hb, he]
    rfl
  · rw [evtForce_eq]
    refine .bumpVer ?_ _
    exact List.foldlRecOn _ _ (.refl _ s) fun t ht b _ => ht.trans (forceOne_frame g t b)

/-- The records of newly enabled events change the registers of rings alone. -/
theorem deliver_frame {R : Nat → Prop} {t : State} (h : Frame R s t) (hR : ∀ a, RingRegs a → R a) (e : EvtRec) :
    Frame R s (deliverWith raiseRing e t) := by
  refine h.trans ((deliverWith_events (A := RingRegs) (fun _ h => h) (fun k u => ?_) e t).frame.mono hR)
  refine (raise_events u 0x00C k).mono ?_
  rintro a (⟨q, hq, rfl⟩ | h)
  · rw [List.mem_singleton.1 hq]
    exact .inl rfl
  · exact h

theorem evtEnableWrite_after (hm : evtMask g ≠ 0) (h : s.TakesWrite p g (pageAddr g 0x014)) :
    After (exec (.evtEnableWrite p g v) s) fun t => t.reg (pageAddr g 0x014) = word (v.toNat &&& evtMask g)
      ∧ Frame (fun a => a = pageAddr g 0x014 ∨ RingRegs a) s t := by
  refine .of_eq (next_eq ((if_neg hm).trans (directWrite_takes h (by grind)))) ?_
  have h1 := reg_setReg_same s (pageAddr g 0x014) (word (v.toNat &&& evtMask g))
  have h2 : Frame (fun a => a = pageAddr g 0x014 ∨ RingRegs a) s (s.setReg (pageAddr g 0x014) (word (v.toNat &&& evtMask g))) :=
    .setReg (.refl _ s) _ (.inl rfl)
  unfold State.evtEnable EvtReg.enableAddr
  dsimp only
  generalize s.setReg (pageAddr g 0x014) (word (v.toNat &&& evtMask g)) = t at *
  generalize (bitsOf (v.toNat &&& evtMask g)).filter _ = l
  have hf : Frame RingRegs t (l.foldl (fun u b =>
      deliverWith raiseRing ⟨u.syscnt, u.coarse, false, EvtReg.page.code, g, b, u.causeDetail g .page b⟩ u) t) :=
    List.foldlRecOn _ _ (.refl _ t) fun u hu b _ => deliver_frame hu (fun _ h => h) _
  refine ⟨?_, .bumpVer (h2.trans (hf.mono fun _ => .inr)) _⟩
  rw [reg_bumpVer, hf.regs _ (by grind), h1]

end Events

/-! ## The books (R381) -/

theorem granARead_after {s : State} (h : s.pageOn ringPage = true) :
    After (exec .granARead s) fun t => t.bus = word (s.book.1 * 2 ^ 16 + s.book.2.1)
      ∧ t.reg Adr.RING_GRAN_B = word (s.book.2.2.1 * 2 ^ 13 + s.book.2.2.2.1) ∧ t.reg Adr.RING_GRAN_C = word s.book.2.2.2.2
      ∧ Quiet (fun a => a = Adr.RING_GRAN_B ∨ a = Adr.RING_GRAN_C) s t := by
  have e : exec .granARead s = .next (s.latchGran.answer ringPage (word s.granA)) := next_eq (by rw [h, if_pos rfl])
  have hon : s.latchGran.pageOn ringPage = true := (pageOn_congr (t := s.latchGran) rfl).trans h
  refine .of_eq e ⟨congrArg State.bus (answer_on hon _), ?_, ?_, ?_⟩
  · rw [reg_answer, State.latchGran, reg_setReg_ne _ _ (by decide), reg_setReg_same]
  · rw [reg_answer, State.latchGran, reg_setReg_same]
  · exact answer_quiet (((Quiet.refl _ s).setReg _ (.inl rfl)).setReg _ (.inr rfl)) _ _

/-- Settles O40. -/
theorem ringCommands : Obligations.RingCommands := by
  unfold Obligations.RingCommands
  refine ⟨fun _ _ _ _ hr => next_pos hr, fun _ _ _ _ hr h hb he => ?_, fun _ _ _ _ hr h hb he hk => ringConfigWrite_start hr h hb he hk,
    fun _ _ _ _ hr h hb => ?_, fun _ _ _ _ hd h hv => consWrite_takes hd h hv, fun _ _ _ _ hr h he hv => prodWrite_takes hr h he hv,
    fun _ _ _ _ hd h hv => consWrite_beyond hd h hv, fun _ _ _ _ hd h he hn hv => prodWrite_disabled hd h he hn hv,
    fun _ _ _ _ _ h => next_neg (by rw [h]; decide), fun _ _ _ _ hm h => evtForceWrite_after hm h,
    fun _ _ _ _ hm h => evtEnableWrite_after hm h, fun _ h => granARead_after h⟩
  · rw [ringConfigWrite_eq hr h, ringCfgWrite_enabled hr hb he]
  · rw [ringConfigWrite_eq hr h, ringCfgWrite_disable hr hb]

end Sys2Proof.Machine
end

section
/-!
PROOFS. Power changes and the low-power regulator (13_power_domains.md R305–R317): two statements that fail.
-/
namespace Sys2Proof.Machine

/-! ## The end of a wake for a transaction that is due at once -/

/-- `awake` while the wake of port group 0 ends for a transaction that has passed, names no time and writes the fabric alone, while the
fabric is STOPPED. -/
def wakingForFabric : State :=
  (({ awake with change := some ⟨.txn 1, .wake, [(9, 2)], [], [], [], [], [(9, false)], none, false⟩,
                 txn := { awake.txn with staging := [⟨0, 1, Adr.FAB_XOVER, 1, 64⟩] } }.updBib 5 fun _ =>
    { Bib.none_ with value := 1, state := .inFlight, port := 1 }).setDom 9 (.waking false))

theorem wakingForFabric_settled : wakingForFabric.Settled := by constructor <;> decide +kernel

/-- The transaction applies with the end of the wake (07_fabric_schedule.md R163). -/
theorem wakingForFabric_applies : (wakingForFabric.wakeDone.pump.bibAt 5).state = .committed := by decide +kernel

theorem wakingForFabric_wakes : wakingForFabric.wakingNow = some (9, false) ∧ wakingForFabric.domOn Dm.PLL = true
    ∧ (wakingForFabric.bibAt 5).state = .inFlight := by decide +kernel

/-- Refutes O34: the clause on `DOMAIN_WAKE_DONE` leaves out a transaction that is due at once, since it writes only the fabric, which is
STOPPED. -/
theorem not_powerChangeCommands : ¬ Obligations.PowerChangeCommands := by
  unfold Obligations.PowerChangeCommands
  rintro ⟨-, -, -, -, -, -, wakeDone, -⟩
  obtain ⟨hw, hp, hb⟩ := wakingForFabric_wakes
  have h := wakeDone ⟨.txn 1, .wake, [(9, 2)], [], [], [], [], [(9, false)], none, false⟩ 1 9 wakingForFabric rfl rfl rfl rfl hw
    (by decide) (by decide) (by decide) hp wakingForFabric_settled
  have e : exec .domainWakeDone wakingForFabric = .next wakingForFabric.wakeDone.pump := rfl
  have hs := wakingForFabric_applies
  rw [Host.Outcome.next.inj (e.symm.trans h)] at hs
  exact absurd (hb.symm.trans hs) (by decide)

/-! ## A brown-out while an amplifier is retained -/

/-- The low-power regulator runs, and amplifier channel 0 is retained with a register away from its value after reset. -/
def ampRetained : State :=
  ((({ awake with doms := Vector.replicate 27 ⟨.off, false⟩ }.setFld Fd.PWR_REG_LP_EN 1).setDom 21 .ret).setReg (Adr.AMP_CTRL 0) 0x100)

/-- The registers of the channel fall to their values after reset. -/
theorem ampRetained_loses : (ampRetained.brownout [21]).reg (Adr.AMP_CTRL 0) ≠ ampRetained.reg (Adr.AMP_CTRL 0) := by decide +kernel

theorem ampRetained_lowPower : ampRetained.lowPower = true ∧ ampRetained.dom 21 = .ret := by decide +kernel

theorem ampCtrl_beside : ¬ (Adr.AMP_CTRL 0 = Adr.PWR_REG ∨ Adr.AMP_CTRL 0 = Adr.PWR_REG_STAT ∨ Adr.AMP_CTRL 0 = Adr.PWR_DOM_STAT 21
    ∨ StatusOf [pwrPage] (Adr.AMP_CTRL 0)) := by
  rw [StatusOf]
  decide

/-- Refutes O36: the clause on `LP_BROWNOUT` with one lost domain leaves out the registers of an amplifier channel, which fall to their
values after reset with their domain. -/
theorem not_resetCommands : ¬ Obligations.ResetCommands := by
  unfold Obligations.ResetCommands
  rintro ⟨-, -, -, -, -, -, -, -, -, -, -, -, -, lost, -⟩
  obtain ⟨hl, hd⟩ := ampRetained_lowPower
  obtain ⟨t, ht, -, -, -, -, hf⟩ := lost 21 ampRetained hl (by decide) (by decide) (by decide) hd
  have e : exec (.lpBrownout [21]) ampRetained = .next (ampRetained.brownout [21]) := next_pos hl
  have hr := hf.regs (Adr.AMP_CTRL 0) ampCtrl_beside
  rw [← Host.Outcome.next.inj (e.symm.trans ht)] at hr
  exact ampRetained_loses hr

end Sys2Proof.Machine
end

section
/-!
PROOFS. An operation that comes in no frame, from its command to its result (14_control_ports.md R333, R334).
-/
namespace Sys2Proof.Machine

/-! ## Ports -/

section Ports
variable {s : State} {p : Fin 4} {f g : Port → Port}

theorem port_updPort_same (s : State) (p : Fin 4) (f : Port → Port) : (s.updPort p f).ports[p] = f s.ports[p] := by
  simp [State.updPort]

theorem port_updPort_ne (s : State) {p q : Fin 4} (f : Port → Port) (h : q ≠ p) : (s.updPort p f).ports[q] = s.ports[q] :=
  Vector.getElem_set_ne p.isLt q.isLt fun e => h (Fin.ext e.symm)

theorem updPort_congr (h : f s.ports[p] = g s.ports[p]) : s.updPort p f = s.updPort p g := by
  rw [State.updPort, State.updPort, h]

theorem updPort_updPort (s : State) (p : Fin 4) (f g : Port → Port) : (s.updPort p f).updPort p g = s.updPort p fun q => g (f q) := by
  simp [State.updPort]

theorem updPort_self (h : f s.ports[p] = s.ports[p]) : s.updPort p f = s := by
  rw [State.updPort, h]
  simp

end Ports

/-! ## Waiting work (R333) -/

/-- `s` with the operations `ws` of port `p` waiting. -/
def State.waits (s : State) (p : Fin 4) (ws : List WaitOp) : State := s.updPort p fun q => { q with waiting := ws }

theorem domOn_waits (s : State) (p : Fin 4) (ws : List WaitOp) (d : Nat) : (s.waits p ws).domOn d = s.domOn d := rfl

/-- Port `p` has the operation `w`, of no frame, and nothing else waits. -/
structure State.RunsAlone (s : State) (p : Fin 4) (w : WaitOp) : Prop where
  only : s.ports[p].waiting = [w]
  others : ∀ q : Fin 4, q ≠ p → s.ports[q].waiting = []
  unframed : s.ports[p].frames = []
  bibs : ∀ k : Fin 64, (s.bibAt k).waitsPage = false

section Pump
variable {s t u : State} {p : Fin 4} {w : WaitOp} {op : Instr} {c st : Nat} {data : List Byte}

theorem State.RunsAlone.congr (h : s.RunsAlone p w) (hp : t.ports = s.ports) (hb : t.txn.bibs = s.txn.bibs) : t.RunsAlone p w where
  only := by rw [hp, h.only]
  others q hq := by rw [hp, h.others q hq]
  unframed := by rw [hp, h.unframed]
  bibs k := by rw [State.bibAt, hb]; exact h.bibs k

theorem bibsGoOn_idle (h : ∀ k : Fin 64, (s.bibAt k).waitsPage = false) : s.bibsGoOn = s := by
  have hd : ((List.range 64).filterMap fun k => if (s.bibAt k).waitsPage then some ((s.bibAt k).serial, k) else none) = [] :=
    List.filterMap_eq_nil_iff.2 fun k hk => if_neg (by rw [h ⟨k, List.mem_range.1 hk⟩]; decide)
  simp only [State.bibsGoOn, hd, List.foldl_nil]

theorem turns_idle (h : ∀ q : Fin 4, s.ports[q].waiting = []) : s.turns = [] :=
  List.foldl_fixed' (fun q => by rw [h q]) _

theorem turns_alone (h : s.RunsAlone p w) : s.turns = [(w.turn, p.val)] := by
  obtain ⟨hw, ho, -, -⟩ := h
  have hall : List.finRange 4 = [0, 1, 2, 3] := by decide
  have h0 := ho 0
  have h1 := ho 1
  have h2 := ho 2
  have h3 := ho 3
  rw [State.turns, hall]
  fin_cases p <;> simp_all [insertSerial]

theorem pumpOnce_settled (h : s.Settled) : s.pumpOnce = s := by
  rw [State.pumpOnce, bibsGoOn_idle h.bibs, turns_idle h.ops]
  rfl

theorem pumpN_fixed (h : s.pumpOnce = s) : ∀ n, State.pumpN n s = s
  | 0 => rfl
  | n + 1 => by rw [State.pumpN, h, pumpN_fixed h n]

/-- When nothing waits, nothing goes on. -/
theorem pump_settled (h : s.Settled) : s.pump = s := by
  unfold State.pump
  split
  · exact pumpN_fixed (pumpOnce_settled h) _
  · rfl

/-- When a second pass over the waiting work would change nothing, the work ends with the first. -/
theorem pump_once (hc : s.domOn Dm.CORE = true) (h : s.pumpOnce = t) (ht : t.pumpOnce = t) : s.pump = t := by
  rw [State.pump, if_pos hc, Nat.add_comm, State.pumpN, h, pumpN_fixed ht]

theorem pumpOnce_alone (h : s.RunsAlone p w) : s.pumpOnce = State.resumePort p 4 s := by
  rw [State.pumpOnce, bibsGoOn_idle h.bibs, turns_alone h]
  have hp : ∀ q : Fin 4, q = p → State.resumePort q (3 * s.ports[q].waiting.length + 1) s = State.resumePort p 4 s := by
    rintro _ rfl
    rw [h.only]
    rfl
  exact hp _ (Fin.ofNat_val_eq_self p)

theorem resumePort_nil (h : s.ports[p].waiting = []) (n : Nat) : State.resumePort p n s = s := by
  cases n with
  | zero => rfl
  | succ n =>
    rw [State.resumePort, h]
    split <;> rfl

theorem opDone_unframed {r : OpResult} {l : List WaitOp} (hw : s.ports[p].waiting = w :: l) (hx : w.framed = false)
    (hf : s.ports[p].frames = []) (hr : r.op ≠ 0x02 ∨ r.data ≠ closeData) :
    s.opDone p r = s.updPort p fun q => { q with waiting := l, results := [r] } := by
  have hn : ((s.ports[p].waiting.head?.map (·.framed)).getD false) = false := by
    rw [hw]
    exact hx
  simp only [State.opDone, hn, Bool.false_eq_true, if_false, if_neg (not_and_or.2 hr)]
  exact updPort_congr (by rw [hw, hf]; rfl)

theorem State.Hears.alone (h : s.Hears p) (w : WaitOp) : (s.waits p [w]).RunsAlone p w where
  only := by rw [State.waits, port_updPort_same]
  others q hq := by rw [State.waits, port_updPort_ne _ _ hq, h.settled.ops q]
  unframed := by rw [State.waits, port_updPort_same]; exact h.unframed
  bibs := h.settled.bibs

theorem State.Hears.core (h : s.Hears p) : s.domOn Dm.CORE = true := by
  have hl := h.live
  rw [State.portLive, Bool.and_eq_true, Bool.and_eq_true] at hl
  exact hl.1.1

/-- An operation of no frame is run with nothing else that waits. -/
theorem submit_eq (h : s.Hears p) (op : Instr) : s.submit p op = (s.waits p [⟨op, .behind, false, s.nextTurn⟩]).pump := by
  rw [State.submit, h.unframed, if_pos List.isEmpty_nil, State.enqueue, if_pos h.live, State.waits]
  refine congrArg State.pump (updPort_congr ?_)
  rw [h.settled.ops p]
  rfl

/-- An operation that has its result at once gives it to its port, which then waits for nothing. -/
theorem submit_done (h : s.Hears p) (hop : opCode op = c) (hc : c ≠ 0x02 ∨ data ≠ closeData)
    (e : (s.waits p [⟨op, .behind, false, s.nextTurn⟩]).opBody p op none = (.done st data, u))
    (hu : u.RunsAlone p ⟨op, .behind, false, s.nextTurn⟩) :
    s.submit p op = u.updPort p fun q => { q with waiting := [], results := [⟨c, st, data⟩] } := by
  subst hop
  have hd := opDone_unframed (r := ⟨opCode op, st, data⟩) hu.only rfl hu.unframed hc
  have hw : (u.updPort p fun q => { q with waiting := [], results := [⟨opCode op, st, data⟩] }).ports[p].waiting = [] := by
    rw [port_updPort_same]
  have ha := h.alone ⟨op, .behind, false, s.nextTurn⟩
  rw [submit_eq h]
  refine pump_once h.core ((pumpOnce_alone ha).trans ?_) (pumpOnce_settled ⟨fun q => ?_, hu.bibs⟩)
  · rw [State.resumePort, if_neg (by rw [domOn_waits, h.core]; decide), ha.only]
    dsimp only
    rw [State.opRun, e]
    dsimp only [State.opSettle]
    rw [hd]
    exact (if_pos rfl).trans (resumePort_nil hw 3)
  · by_cases hq : q = p
    · rw [hq, hw]
    · rw [port_updPort_ne _ _ hq, hu.others q hq]

/-- The same where the operation changes no port. -/
theorem submit_gives (h : s.Hears p) (hop : opCode op = c) (hc : c ≠ 0x02 ∨ data ≠ closeData) (hp : t.ports = s.ports)
    (hb : ∀ k : Fin 64, (t.bibAt k).waitsPage = false)
    (e : ∀ ws, (s.waits p ws).opBody p op none = (.done st data, t.waits p ws)) :
    s.submit p op = t.gives p c st data := by
  have hu : (t.waits p [⟨op, .behind, false, s.nextTurn⟩]).RunsAlone p ⟨op, .behind, false, s.nextTurn⟩ :=
    { only := by rw [State.waits, port_updPort_same]
      others := fun q hq => by rw [State.waits, port_updPort_ne _ _ hq, hp, h.settled.ops q]
      unframed := by rw [State.waits, port_updPort_same, hp]; exact h.unframed
      bibs := hb }
  rw [submit_done h hop hc (e _) hu, State.waits, updPort_updPort]
  refine updPort_congr ?_
  rw [hp, ← h.settled.ops p]

/-! ## An operation that waits -/

theorem headWaits_waits (s : State) (p : Fin 4) (w : WaitOp) (l : List WaitOp) (x : Wait) :
    (s.waits p (w :: l)).headWaits p x = s.waits p ({ w with wait := x } :: l) := by
  rw [State.headWaits, State.waits, updPort_updPort]
  rfl

/-- The outcome that an operation waits for comes from elsewhere. -/
def Wait.held (x : Wait) : Prop := (∃ b, x = .outcome b) ∨ ∃ d, x = .power d

theorem resumePort_held (h : s.ports[p].waiting = [w]) (hx : w.wait.held) (n : Nat) : State.resumePort p n s = s := by
  cases n with
  | zero => rfl
  | succ n =>
    rw [State.resumePort, h]
    obtain ⟨b, hx⟩ | ⟨d, hx⟩ := hx <;> simp only [hx] <;> split <;> rfl

theorem pumpOnce_held (h : s.RunsAlone p w) (hx : w.wait.held) : s.pumpOnce = s :=
  (pumpOnce_alone h).trans (resumePort_held h.only hx 4)

/-- An operation whose bib is validated at once, and that then waits for the outcome. -/
theorem submit_waits {x : Wait} {k : Nat} (h : s.Hears p) (hx : x.held)
    (e : (s.waits p [⟨op, .behind, false, s.nextTurn⟩]).opBody p op none = (.waits x (some k), u.waits p [⟨op, .behind, false, s.nextTurn⟩]))
    (hv : (u.waits p [⟨op, x, false, s.nextTurn⟩]).validate k u.tickcnt u.boundary = t) (ht : t.RunsAlone p ⟨op, x, false, s.nextTurn⟩) :
    s.submit p op = t := by
  have ha := h.alone ⟨op, .behind, false, s.nextTurn⟩
  rw [submit_eq h]
  refine pump_once h.core ((pumpOnce_alone ha).trans ?_) (pumpOnce_held ht hx)
  rw [State.resumePort, if_neg (by rw [domOn_waits, h.core]; decide), ha.only]
  dsimp only
  rw [State.opRun, e]
  dsimp only [State.opSettle]
  rw [headWaits_waits]
  dsimp only
  refine (if_pos rfl).trans ?_
  have hv' : (u.waits p [⟨op, x, false, s.nextTurn⟩]).validate k (u.waits p [⟨op, x, false, s.nextTurn⟩]).tickcnt
      (u.waits p [⟨op, x, false, s.nextTurn⟩]).boundary = t := hv
  rw [hv']
  exact resumePort_held ht.only hx 3

end Pump

end Sys2Proof.Machine
end

section
/-!
PROOFS. The operations on rings (16_rings_events_books.md R374), and those on transactions and claims that have their result at
once (15_transactions_and_hosts.md R346–R349, R365).
-/
namespace Sys2Proof.Machine

/-! ## Rings (R374) -/

section Rings
variable {s : State} {p : Fin 4} {r : Byte} {n : BitVec 16} {bs : List Byte}

theorem pullAllowed_deviceProduced (h : pullAllowed p r.toNat = true) : ringDeviceProduced r.toNat = true := by
  simp only [pullAllowed, ringDeviceProduced, Bool.or_eq_true, Bool.and_eq_true, decide_eq_true_eq, bne_iff_ne] at h ⊢
  omega

theorem ringTake_deviceProduced {i : Nat} (h : ringDeviceProduced i = true) (s : State) (k : Nat) :
    s.ringTake i k = s.updRing i fun q => { q with cons := q.cons + BitVec.ofNat 32 k } := by
  rw [State.ringTake, h, if_neg (by simp)]

theorem updRing_id (s : State) (i : Nat) : s.updRing i id = s := by
  have hid : upd s.rings i id = s.rings := by
    unfold upd
    split <;> simp
  rw [State.updRing, hid]

theorem pullRun_allowed (h : pullAllowed p r.toNat = true) (s : State) (m : Nat) :
    s.pullRun p r.toNat m = (opOk (bytesLE 2 (if (s.ring r.toNat).enable then min m (s.ring r.toNat).fill else 0) ++ [0, 0]
        ++ s.ringEntries r.toNat (if (s.ring r.toNat).enable then min m (s.ring r.toNat).fill else 0)),
      s.updRing r.toNat fun q =>
        { q with cons := q.cons + BitVec.ofNat 32 (if (s.ring r.toNat).enable then min m (s.ring r.toNat).fill else 0) }) := by
  rw [State.pullRun, h, if_neg (by decide)]
  dsimp only
  rw [ringTake_deviceProduced (pullAllowed_deviceProduced h)]

theorem ringPull_enabled (h : s.Hears p) (ha : pullAllowed p r.toNat = true) (he : (s.ring r.toNat).enable = true) :
    exec (.ringPull p r n) s =
      .next ((s.updRing r.toNat fun q => { q with cons := q.cons + BitVec.ofNat 32 (min n.toNat (s.ring r.toNat).fill) }).gives p 0x40 0x00
        (bytesLE 2 (min n.toNat (s.ring r.toNat).fill) ++ [0, 0] ++ s.ringEntries r.toNat (min n.toNat (s.ring r.toNat).fill))) := by
  refine next_eq (submit_gives (op := .ringPull p r n) h rfl (.inl (by decide)) rfl h.settled.bibs fun ws => ?_)
  refine (pullRun_allowed ha (s.waits p ws) n.toNat).trans ?_
  have hw : ((s.waits p ws).ring r.toNat).enable = true := he
  rw [hw, if_pos rfl]
  rfl

theorem ringPull_disabled (h : s.Hears p) (ha : pullAllowed p r.toNat = true) (he : (s.ring r.toNat).enable = false) :
    exec (.ringPull p r n) s = .next (s.gives p 0x40 0x00 [0, 0, 0, 0]) := by
  refine next_eq (submit_gives (op := .ringPull p r n) h rfl (.inl (by decide)) rfl h.settled.bibs fun ws => ?_)
  refine (pullRun_allowed ha (s.waits p ws) n.toNat).trans ?_
  have hw : ((s.waits p ws).ring r.toNat).enable = false := he
  rw [hw, if_neg Bool.false_ne_true]
  refine Prod.ext rfl ((updRing_congr _ _ id ?_).trans (updRing_id _ _))
  rw [BitVec.add_zero]
  rfl

theorem ringPull_foreign (h : s.Hears p) (ha : pullAllowed p r.toNat = false) :
    exec (.ringPull p r n) s = .next (s.gives p 0x40 0x22 [0, 0, 0, 0]) :=
  next_eq (submit_gives (op := .ringPull p r n) h rfl (.inl (by decide)) rfl h.settled.bibs fun _ =>
    if_pos (by rw [ha]; rfl))

theorem ringPush_refused (h : s.Hears p) (h24 : r ≠ 24) (h30 : r ≠ 30) (h31 : r ≠ 31) :
    exec (.ringPush p r bs) s = .next (s.gives p 0x41 0x22 [0, 0, 0, 0]) :=
  next_eq (submit_gives (op := .ringPush p r bs) h rfl (.inl (by decide)) rfl h.settled.bibs fun _ =>
    if_pos (not_or.2 ⟨fun e => h24 (BitVec.eq_of_toNat_eq e), not_or.2 ⟨fun e => h30 (BitVec.eq_of_toNat_eq e),
      fun e => h31 (BitVec.eq_of_toNat_eq e)⟩⟩))

theorem setBytes_txn (bs : List Byte) : ∀ (s : State) (a : Nat), (s.setBytes a bs).txn = s.txn := by
  induction bs with
  | nil => exact fun _ _ => rfl
  | cons b bs ih => exact fun s a => ih (s.setByte a b) (a + 1)

theorem bytesAt_setBytes_all (bs : List Byte) (s : State) (a : Nat) : (s.setBytes a bs).bytesAt a bs.length = bs := by
  simpa only [List.append_nil] using bytesAt_setBytes_prefix bs [] s a

/-- A push of one entry to a ring of control words that has room. -/
theorem pushRun_one (hr : r.toNat = 30 ∨ r.toNat = 31) (he : (s.ring r.toNat).enable = true)
    (hl : bs.length = ringEsize r.toNat (s.ring r.toNat).pack) (hf : (s.ring r.toNat).fill < (s.ring r.toNat).size) :
    s.pushRun p r.toNat bs = (opOk [1, 0, 0, 0],
      (s.setBytes ((s.ring r.toNat).entryAddr r.toNat (s.ring r.toNat).prod) bs).updRing r.toNat fun q => { q with prod := q.prod + 1 }) := by
  have hpos : 0 < bs.length := by
    rw [hl]
    unfold ringEsize
    split_ifs <;> omega
  have hn : min (bs.length / bs.length) ((s.ring r.toNat).size - (s.ring r.toNat).fill) = 1 := by
    rw [Nat.div_self hpos]
    omega
  rw [State.pushRun, if_neg (not_not.2 (.inr hr))]
  dsimp only
  rw [← hl, he, if_neg (by decide), hn, Nat.div_self hpos, State.ringLose, if_pos (Nat.sub_self 1), State.ringHostGive, if_neg (by omega)]
  simp only [List.range_one, List.foldl_cons, List.foldl_nil, Nat.zero_mul, List.drop_zero, List.take_length, BitVec.add_zero]
  rfl

theorem entry_within {q : Ring} {i b n : Nat} (hn : 0 < q.size) (x : Word) (hb : ¬ q.stores i b) (hl : n = ringEsize i q.pack) :
    b < q.entryAddr i x ∨ q.entryAddr i x + n ≤ b := by
  have hm := Nat.mul_le_mul_right (ringEsize i q.pack) (Nat.succ_le_of_lt (Nat.mod_lt x.toNat hn))
  rw [Nat.succ_mul] at hm
  unfold Ring.stores at hb
  unfold Ring.entryAddr
  omega

theorem ringPush_one (h : s.Hears p) (hr : r = 30 ∨ r = 31) (he : (s.ring r.toNat).enable = true)
    (hl : bs.length = ringEsize r.toNat (s.ring r.toNat).pack) (hf : (s.ring r.toNat).fill < (s.ring r.toNat).size) :
    After (exec (.ringPush p r bs) s) fun t =>
      t.ring r.toNat = { s.ring r.toNat with prod := (s.ring r.toNat).prod + 1 }
      ∧ t.bytesAt ((s.ring r.toNat).entryAddr r.toNat (s.ring r.toNat).prod) bs.length = bs
      ∧ t.ports[p].results = [⟨0x41, 0x00, [1, 0, 0, 0]⟩]
      ∧ (∀ a, t.reg a = s.reg a) ∧ ∀ a, ¬ (s.ring r.toNat).stores r.toNat a → t.byte a = s.byte a := by
  have hr' : r.toNat = 30 ∨ r.toNat = 31 := by
    obtain rfl | rfl := hr
    · exact .inl rfl
    · exact .inr rfl
  have ha := h.alone ⟨.ringPush p r bs, .behind, false, s.nextTurn⟩
  have e := submit_done (op := .ringPush p r bs) (c := 0x41) h rfl (.inl (by decide)) (pushRun_one hr' he hl hf)
    (ha.congr (State_setBytes_ports _ _ _) (congrArg Txn.bibs (setBytes_txn _ _ _)))
  refine .of_eq (next_eq e) ⟨?_, ?_, ?_, fun a => ?_, fun a hs => ?_⟩
  · exact (ring_updRing_same _ _ (by omega)).trans (by rw [ring_setBytes]; rfl)
  · exact bytesAt_setBytes_all bs (s.waits p [⟨.ringPush p r bs, .behind, false, s.nextTurn⟩])
      ((s.ring r.toNat).entryAddr r.toNat (s.ring r.toNat).prod)
  · exact congrArg Port.results (port_updPort_same _ p _)
  · exact reg_of_regs (setBytes_regs bs (s.waits p _) _) a
  · exact (byte_setBytes_ne bs (s.waits p _) _ a (entry_within (by omega) _ hs hl)).trans rfl

end Rings

/-- Settles O31. -/
theorem ringOperations : Obligations.RingOperations := by
  unfold Obligations.RingOperations
  exact ⟨fun _ _ _ _ h ha he => ringPull_enabled h ha he, fun _ _ _ _ h ha he => ringPull_disabled h ha he,
    fun _ _ _ _ h ha => ringPull_foreign h ha, fun _ _ _ _ h hr he hl hf => ringPush_one h hr he hl hf,
    fun _ _ _ _ h h24 h30 h31 => ringPush_refused h h24 h30 h31⟩

end Sys2Proof.Machine
end

section
/-!
PROOFS. Operations on bibs and claims that have their result at once (15_transactions_and_hosts.md R346–R349, R357, R365).
-/
namespace Sys2Proof.Machine

section Bibs
variable {s t : State} {p : Fin 4} {k : Nat} {v : BitVec 16} {mode : Byte} {time : Count}

theorem takeBib_waits (s : State) (p q : Fin 4) (i : Bool) (ws : List WaitOp) :
    (s.waits p ws).takeBib q i = ((s.takeBib q i).1, (s.takeBib q i).2.waits p ws) := by
  unfold State.takeBib
  have h : (fun k => ((s.waits p ws).bibAt k).state == BibState.free) = fun k => (s.bibAt k).state == BibState.free := rfl
  rw [h]
  split <;> rfl

/-- No validation waits for a bib that is changed otherwise. -/
theorem updBib_idle {f : Bib → Bib} (h : ∀ j : Fin 64, (s.bibAt j).waitsPage = false) (hf : (f (s.bibAt k)).waitsPage = false)
    (j : Fin 64) : ((s.updBib k f).bibAt j).waitsPage = false := by
  by_cases hj : k = j.val
  · rw [hj, bibAt_updBib_same s f j.isLt, ← hj, hf]
  · rw [bibAt_updBib_ne s f hj, h j]

theorem ownBib_some (h : s.ownBib p v.toNat = some k) : k < 64 ∧ (s.bibAt k).value = v.toNat ∧ (s.bibAt k).port = p.val := by
  have hm := List.mem_of_find?_eq_some h
  have hp := List.find?_some h
  simp only [Bool.and_eq_true, beq_iff_eq] at hp
  exact ⟨List.mem_range.1 hm, hp.1.1, hp.1.2⟩

/-! ## TXN_OPEN (R346) -/

theorem takeBib_idle (h : ∀ j : Fin 64, (s.bibAt j).waitsPage = false) {i : Bool} (ht : s.takeBib p i = (some k, t)) :
    t.ports = s.ports ∧ ∀ j : Fin 64, (t.bibAt j).waitsPage = false := by
  obtain ⟨hk, -, e⟩ := takeBib_some ht
  refine ⟨by rw [e]; rfl, fun j => ?_⟩
  obtain ⟨h1, h2⟩ := bibAt_takeBib ht
  by_cases hj : j.val = k
  · rw [hj, h1]
    rfl
  · rw [h2 _ hj, h j]

theorem txnOpen_after (h : s.Hears p) (hm : s.mayOpen p = true) (ht : s.takeBib p false = (some k, t)) :
    exec (.txnOpen p) s = .next (t.gives p 0x20 0x00 (bytesLE 2 (t.bibAt k).value ++ [0, 0])) := by
  obtain ⟨hp, hb⟩ := takeBib_idle h.settled.bibs ht
  refine next_eq (submit_gives (op := .txnOpen p) h rfl (.inl (by decide)) hp hb fun ws => ?_)
  refine (if_pos hm).trans ?_
  rw [takeBib_waits, ht]
  rfl

theorem txnOpen_refused (h : s.Hears p) (hm : s.mayOpen p = false) : exec (.txnOpen p) s = .next (s.gives p 0x20 0x33 [0, 0, 0, 0]) :=
  next_eq (submit_gives (op := .txnOpen p) h rfl (.inl (by decide)) rfl h.settled.bibs fun ws =>
    if_neg (by rw [show (s.waits p ws).mayOpen p = s.mayOpen p from rfl, hm]; decide))

/-! ## TXN_COMMIT with a time, or of no bib (R357) -/

theorem timePassed_updBib (s : State) (k : Nat) (f : Bib → Bib) (m x : Nat) : (s.updBib k f).timePassed m x = s.timePassed m x := rfl

theorem commitRun_scheduled (h : s.ownBib p v.toNat = some k) (ho : (s.bibAt k).state = .opened) (hm : mode = 1 ∨ mode = 2)
    (ht : s.timePassed mode.toNat time.toNat = false) : s.commitRun p v.toNat mode.toNat time.toNat =
      (.done St.PENDING (s.bibAt k).report20, s.updBib k fun x => { x with state := .scheduled, mode := mode.toNat, time := time.toNat }) := by
  have hm' : mode.toNat = 1 ∨ mode.toNat = 2 := by
    obtain rfl | rfl := hm
    · exact .inl rfl
    · exact .inr rfl
  rw [State.commitRun, h]
  dsimp only
  rw [if_neg (not_not.2 ho), if_neg (by omega), if_neg (by omega)]
  exact congrArg (Prod.mk _) (if_neg (by rw [timePassed_updBib, ht]; decide))

theorem txnCommit_scheduled (h : s.Hears p) (hk : s.ownBib p v.toNat = some k) (ho : (s.bibAt k).state = .opened)
    (hm : mode = 1 ∨ mode = 2) (ht : s.timePassed mode.toNat time.toNat = false) : exec (.txnCommit p v mode time) s =
      .next ((s.updBib k fun x => { x with state := .scheduled, mode := mode.toNat, time := time.toNat }).gives p 0x21 0x01
        (s.bibAt k).report20) := by
  have hb := h.settled.bibs ⟨k, (ownBib_some hk).1⟩
  exact next_eq (submit_gives (op := .txnCommit p v mode time) h rfl (.inl (by decide)) rfl (updBib_idle h.settled.bibs hb)
    fun ws => commitRun_scheduled (s := s.waits p ws) hk ho hm ht)

theorem commitRun_unknown (h : s.ownBib p v.toNat = none) (m x : Nat) :
    s.commitRun p v.toNat m x = (.done St.UNKNOWN_BIB (unknown20 v.toNat), s) := by
  rw [State.commitRun, h]

theorem txnCommit_unknown (h : s.Hears p) (hk : s.ownBib p v.toNat = none) : exec (.txnCommit p v mode time) s =
    .next (s.gives p 0x21 0x37 (bytesLE 2 v.toNat ++ List.replicate 18 0)) :=
  next_eq (submit_gives (op := .txnCommit p v mode time) h rfl (.inl (by decide)) rfl h.settled.bibs fun ws =>
    commitRun_unknown (s := s.waits p ws) hk _ _)

/-! ## TXN_STATUS (R348, R349) -/

theorem statusRun_known (h : s.ownBib p v.toNat = some k) (r : Bool) : s.statusRun p v.toNat r =
    (.done (s.bibAt k).report (s.bibAt k).report20, if r && (s.bibAt k).retained then s.freeBib k else s) := by
  rw [State.statusRun, h]

/-- `s` with the transactions `x`. -/
def State.withTxn (s : State) (x : Txn) : State := { s with txn := x }

/-- The entries of the bib in slot `k` that have applied and count as used. -/
def State.spent (s : State) (k : Nat) : List Entry := s.txn.applied.filter fun e => e.bib == (s.bibAt k).value

/-- The transactions without them. -/
def State.unspent (s : State) (k : Nat) : Txn := { s.txn with applied := s.txn.applied.filter fun e => e.bib != (s.bibAt k).value }

theorem freeBib_eq (s : State) (k : Nat) :
    s.freeBib k = ((s.spent k).foldl State.entryClear (s.withTxn (s.unspent k))).updBib k fun _ => Bib.none_ := rfl

theorem withTxn_waits (s : State) (p : Fin 4) (ws : List WaitOp) (x : Txn) : (s.waits p ws).withTxn x = (s.withTxn x).waits p ws := rfl

theorem freeBib_waits (s : State) (p : Fin 4) (k : Nat) (ws : List WaitOp) : (s.waits p ws).freeBib k = (s.freeBib k).waits p ws := by
  have hc : ∀ (l : List Entry) (t : State), l.foldl State.entryClear (t.waits p ws) = (l.foldl State.entryClear t).waits p ws :=
    fun _ _ => List.foldl_hom (State.waits · p ws) fun _ _ => rfl
  rw [freeBib_eq, freeBib_eq, withTxn_waits]
  exact congrArg (State.updBib · k fun _ => Bib.none_) (hc _ _)

theorem foldl_entryClear (l : List Entry) (s : State) : (l.foldl State.entryClear s).ports = s.ports
    ∧ (l.foldl State.entryClear s).txn = s.txn := by
  exact List.foldlRecOn (motive := fun t : State => t.ports = s.ports ∧ t.txn = s.txn) l _ ⟨rfl, rfl⟩ fun t ht e _ => ht

theorem txnStatus_kept (h : s.Hears p) (hk : s.ownBib p v.toNat = some k) {r : Bool} (hr : r = false ∨ (s.bibAt k).retained = false) :
    exec (.txnStatus p v r) s = .next (s.gives p 0x23 (s.bibAt k).report (s.bibAt k).report20) := by
  have hn : (r && (s.bibAt k).retained) = false := by
    obtain hr | hr := hr <;> simp [hr]
  exact next_eq (submit_gives (op := .txnStatus p v r) h rfl (.inl (by decide)) rfl h.settled.bibs fun ws =>
    (statusRun_known (s := s.waits p ws) hk r).trans (congrArg (Prod.mk _) (if_neg (by
      rw [show ((s.waits p ws).bibAt k) = s.bibAt k from rfl, hn]
      decide))))

theorem txnStatus_retires (h : s.Hears p) (hk : s.ownBib p v.toNat = some k) (hr : (s.bibAt k).retained = true) :
    exec (.txnStatus p v true) s = .next ((s.freeBib k).gives p 0x23 (s.bibAt k).report (s.bibAt k).report20) := by
  refine next_eq (submit_gives (op := .txnStatus p v true) h rfl (.inl (by decide)) ?_ ?_ fun ws => ?_)
  · exact (foldl_entryClear _ _).1
  · refine updBib_idle (fun j => ?_) rfl
    rw [State.bibAt, (foldl_entryClear _ _).2]
    exact h.settled.bibs j
  · exact (statusRun_known (s := s.waits p ws) hk true).trans (congrArg (Prod.mk _) ((if_pos hr).trans (freeBib_waits s p k ws)))

/-! ## Claims (R365) -/

section Claims
variable {g : BitVec 16}

theorem claim_undefined (h : s.Hears p) (hg : pageDefined g.toNat = false) :
    exec (.claim p g) s = .next (s.gives p 0x30 0x23 []) ∧ exec (.release p g) s = .next (s.gives p 0x31 0x23 []) :=
  ⟨next_eq (submit_gives (op := .claim p g) h rfl (.inl (by decide)) rfl h.settled.bibs fun _ => if_pos (by rw [hg]; rfl)),
    next_eq (submit_gives (op := .release p g) h rfl (.inl (by decide)) rfl h.settled.bibs fun _ => if_pos (by rw [hg]; rfl))⟩

theorem claimRun_none (hg : pageDefined g.toNat = true) (hf : s.inFlight g.toNat = false) (hc : s.claimOf g.toNat = none) :
    s.claimRun p g.toNat = (opOk [], { s with claims := s.claims ++ [(g.toNat, p.val)] }) := by
  rw [State.claimRun, hg, if_neg (by decide), hf, if_neg Bool.false_ne_true, hc]

theorem claimRun_some {q : Nat} (hg : pageDefined g.toNat = true) (hf : s.inFlight g.toNat = false) (hc : s.claimOf g.toNat = some q) :
    s.claimRun p g.toNat = (.done (if q = p.val then St.OK else St.CLAIMED) [], s) := by
  rw [State.claimRun, hg, if_neg (by decide), hf, if_neg Bool.false_ne_true, hc]

theorem releaseRun_none (hg : pageDefined g.toNat = true) (hf : s.inFlight g.toNat = false) (hc : s.claimOf g.toNat = none) :
    s.releaseRun p g.toNat = (opOk [], s) := by
  rw [State.releaseRun, hg, if_neg (by decide), hf, if_neg Bool.false_ne_true, hc]

theorem releaseRun_some {q : Nat} (hg : pageDefined g.toNat = true) (hf : s.inFlight g.toNat = false) (hc : s.claimOf g.toNat = some q) :
    s.releaseRun p g.toNat = if q = p.val then (opOk [], { s with claims := s.claims.filter fun e => e.1 != g.toNat })
      else (.done St.CLAIMED [], s) := by
  rw [State.releaseRun, hg, if_neg (by decide), hf, if_neg Bool.false_ne_true, hc]

theorem claim_free (h : s.Hears p) (hg : pageDefined g.toNat = true) (hf : s.inFlight g.toNat = false) (hc : s.claimOf g.toNat = none) :
    exec (.claim p g) s = .next ({ s with claims := s.claims ++ [(g.toNat, p.val)] }.gives p 0x30 0x00 [])
      ∧ exec (.release p g) s = .next (s.gives p 0x31 0x00 []) :=
  ⟨next_eq (submit_gives (op := .claim p g) h rfl (.inl (by decide)) rfl h.settled.bibs fun ws =>
      claimRun_none (s := s.waits p ws) hg hf hc),
    next_eq (submit_gives (op := .release p g) h rfl (.inl (by decide)) rfl h.settled.bibs fun ws =>
      releaseRun_none (s := s.waits p ws) hg hf hc)⟩

theorem claim_own (h : s.Hears p) (hg : pageDefined g.toNat = true) (hf : s.inFlight g.toNat = false) (hc : s.claimOf g.toNat = some p.val) :
    exec (.claim p g) s = .next (s.gives p 0x30 0x00 [])
      ∧ exec (.release p g) s = .next ({ s with claims := s.claims.filter fun e => e.1 != g.toNat }.gives p 0x31 0x00 []) :=
  ⟨next_eq (submit_gives (op := .claim p g) h rfl (.inl (by decide)) rfl h.settled.bibs fun ws =>
      (claimRun_some (s := s.waits p ws) hg hf hc).trans (by rw [if_pos rfl])),
    next_eq (submit_gives (op := .release p g) h rfl (.inl (by decide)) rfl h.settled.bibs fun ws =>
      (releaseRun_some (s := s.waits p ws) hg hf hc).trans (if_pos rfl))⟩

theorem claim_foreign {q : Nat} (h : s.Hears p) (hg : pageDefined g.toNat = true) (hf : s.inFlight g.toNat = false)
    (hc : s.claimOf g.toNat = some q) (hq : q ≠ p.val) :
    exec (.claim p g) s = .next (s.gives p 0x30 0x21 []) ∧ exec (.release p g) s = .next (s.gives p 0x31 0x21 []) :=
  ⟨next_eq (submit_gives (op := .claim p g) h rfl (.inl (by decide)) rfl h.settled.bibs fun ws =>
      (claimRun_some (s := s.waits p ws) hg hf hc).trans (by rw [if_neg hq])),
    next_eq (submit_gives (op := .release p g) h rfl (.inl (by decide)) rfl h.settled.bibs fun ws =>
      (releaseRun_some (s := s.waits p ws) hg hf hc).trans (if_neg hq))⟩

end Claims

end Bibs

end Sys2Proof.Machine
end

section
/-!
PROOFS. The end of a transaction: an abort, and the count of later ends on its port (15_transactions_and_hosts.md R349, R352, R363).
-/
namespace Sys2Proof.Machine

variable {s t : State} {p : Fin 4} {k : Nat}

/-! ## Bibs after the end of one of their port (R349) -/

/-- A bib after the end of bib `b`, before those that the fourth later end has followed retire. -/
def Bib.endedBy (b x : Bib) : Bib :=
  if (x.live || x.retained) && x.port == b.port && x.serial < b.serial then { x with later := x.later + 1 } else x

/-- A bib that the fourth later end has followed retires. -/
def Bib.retire (x : Bib) : Bib := if x.retained && decide (4 ≤ x.later) then Bib.none_ else x

theorem retireAfter_eq (s : State) (k : Nat) :
    s.retireAfter k = s.withTxn { s.txn with bibs := (s.txn.bibs.map (s.bibAt k).endedBy).map Bib.retire } := rfl

theorem bibAt_retireAfter (s : State) (k : Nat) {j : Nat} (hj : j < 64) :
    (s.retireAfter k).bibAt j = ((s.bibAt k).endedBy (s.bibAt j)).retire := by
  rw [retireAfter_eq]
  simp [State.withTxn, State.bibAt, at_, hj]

theorem Bib.endedBy_self (b : Bib) : b.endedBy b = b := if_neg (by simp)

theorem Bib.retire_recent {x : Bib} (h : x.later < 4) : x.retire = x := if_neg (by simp [Nat.not_le.2 h])

/-- The bib that ends does not count its own end. -/
theorem bibAt_retireAfter_same (hk : k < 64) (hl : (s.bibAt k).later < 4) : (s.retireAfter k).bibAt k = s.bibAt k := by
  rw [bibAt_retireAfter s k hk, Bib.endedBy_self, Bib.retire_recent hl]

theorem Bib.waitsPage_endedBy (b x : Bib) : (b.endedBy x).waitsPage = x.waitsPage := by
  unfold Bib.endedBy
  split <;> rfl

theorem Bib.waitsPage_retire {x : Bib} (h : x.waitsPage = false) : x.retire.waitsPage = false := by
  unfold Bib.retire
  split
  · rfl
  · exact h

theorem retireAfter_idle (h : ∀ j : Fin 64, (s.bibAt j).waitsPage = false) (k : Nat) (j : Fin 64) :
    ((s.retireAfter k).bibAt j).waitsPage = false := by
  rw [bibAt_retireAfter s k j.isLt]
  exact Bib.waitsPage_retire ((Bib.waitsPage_endedBy _ _).trans (h j))

/-! ## The port that hears of the end -/

theorem waitOver_none {w : Wait → Option OpResult} (h : ∀ x ∈ s.ports[p].waiting, w x.wait = none) : s.waitOver p w = s := by
  refine updPort_self ?_
  have hm : (s.ports[p].waiting.map fun (x : WaitOp) => match w x.wait with
      | some r => { x with wait := .ready { r with op := opCode x.op } }
      | none => x) = s.ports[p].waiting := by
    conv_rhs => rw [← List.map_id s.ports[p].waiting]
    refine List.map_congr_left fun x hx => ?_
    rw [h x hx]
    rfl
  exact congrArg (fun l => ({ s.ports[p] with waiting := l } : Port)) hm

/-- Only an operation that waits for the outcome of the bib hears of it. -/
theorem tellOutcome_unheard (h : ∀ q : Fin 4, ∀ x ∈ s.ports[q].waiting, x.wait ≠ .outcome (s.bibAt k).value) : s.tellOutcome k = s := by
  unfold State.tellOutcome
  exact waitOver_none fun x hx => if_neg (h _ x hx)

/-! ## The abort (R352, R363) -/

/-- What an abort leaves of its bib. -/
def Bib.abortedWith (x : Bib) (status page : Nat) : Bib :=
  { x with state := .aborted, status := status, page := page, reserved := 0, waitsPage := false, versions := [] }

/-- The page that an abort reports. -/
def abortPage (status last : Nat) : Nat := if status = St.CLAIMED ∨ status = St.CONFLICT then last else 0

/-- An abort before it is counted. -/
def State.abortFreed (s : State) (k status last : Nat) : State :=
  (s.dropEntries (s.bibAt k).value).updBib k fun x => x.abortedWith status (abortPage status last)

/-- An abort counted and recorded. -/
def State.abortCounted (s : State) (k status last : Nat) : State :=
  let u := (s.abortFreed k status last).countSat Fd.TXN_ABORT_CNT_ALL 1
  let v := if status = St.CONFLICT then u.countSat Fd.TXN_ABORT_CNT_CONFLICT 1 else u
  (v.setReg Adr.TXN_LAST_ABORT (word ((s.bibAt k).value * 2 ^ 16 + status * 2 ^ 8 + (s.bibAt k).port * 2 ^ 4))).setFld Fd.TXN_LAST_PAGE_PAGE last

/-- An abort with its events. -/
def State.abortRaised (s : State) (k status last : Nat) : State :=
  let w := s.abortCounted k status last
  let d := outcomeDetail (s.bibAt k) status
  let x := (w.withTxn { w.txn with lastAborted := some d }).raiseWith txnPage TxnEv.ABORTED d
  if status = St.STAGING_FULL then x.raise txnPage TxnEv.STAGING_FULL else x

theorem abortBib_eq (h : (s.bibAt k).orphan = false) (status last : Nat) :
    s.abortBib k status last = ((s.abortRaised k status last).tellOutcome k).retireAfter k :=
  if_neg (by rw [h]; exact fun hc => Bool.false_ne_true hc.1)

theorem bibAt_dropEntries (s : State) (v j : Nat) : (s.dropEntries v).bibAt j = s.bibAt j := by
  rw [State.dropEntries, State.bibAt, (foldl_entryClear _ _).2]

theorem ports_dropEntries (s : State) (v : Nat) : (s.dropEntries v).ports = s.ports := (foldl_entryClear _ _).1

theorem dropEntries_none {v : Nat} (h : s.txn.entriesOf v = []) :
    s.dropEntries v = s.withTxn { s.txn with staging := s.txn.staging.filter fun e => e.bib != v } := by
  rw [State.dropEntries, h]
  rfl

theorem bibAt_abortFreed (s : State) (hk : k < 64) (status last : Nat) :
    (s.abortFreed k status last).bibAt k = (s.bibAt k).abortedWith status (abortPage status last) := by
  rw [State.abortFreed, bibAt_updBib_same _ _ hk, bibAt_dropEntries]

theorem abortFreed_idle (h : ∀ j : Fin 64, (s.bibAt j).waitsPage = false) (k status last : Nat) (j : Fin 64) :
    ((s.abortFreed k status last).bibAt j).waitsPage = false :=
  updBib_idle (fun i => by rw [bibAt_dropEntries, h i]) rfl j

theorem abortCounted_regsOnly (s : State) (k status last : Nat) : RegsOnly (s.abortFreed k status last) (s.abortCounted k status last) := by
  unfold State.abortCounted
  dsimp only
  split
  · exact ((((RegsOnly.refl _).setFld _ _).setFld _ _).setReg _ _).setFld _ _
  · exact (((RegsOnly.refl _).setFld _ _).setReg _ _).setFld _ _

/-- The abort's events leave its registers and its bib. -/
theorem abortRaised_events (s : State) (k status last : Nat) : EventsOf [txnPage]
    ((s.abortCounted k status last).withTxn { (s.abortCounted k status last).txn with lastAborted := some (outcomeDetail (s.bibAt k) status) })
    (s.abortRaised k status last) := by
  have h := raiseFuel_status 4 txnPage TxnEv.ABORTED (outcomeDetail (s.bibAt k) status) false
    ((s.abortCounted k status last).withTxn { (s.abortCounted k status last).txn with lastAborted := some (outcomeDetail (s.bibAt k) status) })
  unfold State.abortRaised
  dsimp only
  split
  · exact h.trans (raise_events _ _ _)
  · exact h

theorem EventsOnly.txn {A : Nat → Prop} (h : EventsOnly A s t) : t.txn = s.txn := by rw [h.rest]

theorem EventsOnly.ports {A : Nat → Prop} (h : EventsOnly A s t) : t.ports = s.ports := by rw [h.rest]

theorem abortRaised_bibs (s : State) (k status last : Nat) : (s.abortRaised k status last).txn.bibs = (s.abortFreed k status last).txn.bibs := by
  have h : (s.abortCounted k status last).txn.bibs = (s.abortFreed k status last).txn.bibs :=
    (abortCounted_regsOnly s k status last).same (fun t => t.txn.bibs) fun _ => rfl
  exact (congrArg Txn.bibs (abortRaised_events s k status last).txn).trans h

theorem abortRaised_ports (s : State) (k status last : Nat) : (s.abortRaised k status last).ports = s.ports := by
  have h : (s.abortCounted k status last).ports = (s.abortFreed k status last).ports :=
    (abortCounted_regsOnly s k status last).same State.ports fun _ => rfl
  exact (abortRaised_events s k status last).ports.trans (h.trans (ports_dropEntries s _))

/-- The bib of an abort, and the others. -/
theorem bibAt_abortRaised (s : State) (hk : k < 64) (status last : Nat) :
    (s.abortRaised k status last).bibAt k = (s.bibAt k).abortedWith status (abortPage status last) := by
  rw [State.bibAt, abortRaised_bibs]
  exact bibAt_abortFreed s hk status last

/-- The bib after its abort. -/
theorem bibAt_abortBib (hk : k < 64) (ho : (s.bibAt k).orphan = false) (hl : (s.bibAt k).later < 4) (status last : Nat) :
    (s.abortBib k status last).bibAt k = (s.bibAt k).abortedWith status (abortPage status last) := by
  have e : ((s.abortRaised k status last).tellOutcome k).bibAt k = (s.bibAt k).abortedWith status (abortPage status last) :=
    bibAt_abortRaised s hk status last
  rw [abortBib_eq ho, bibAt_retireAfter_same hk (by rw [e]; exact hl), e]

theorem abortBib_idle (ho : (s.bibAt k).orphan = false) (h : ∀ j : Fin 64, (s.bibAt j).waitsPage = false) (status last : Nat)
    (j : Fin 64) : ((s.abortBib k status last).bibAt j).waitsPage = false := by
  rw [abortBib_eq ho]
  refine retireAfter_idle (fun i => ?_) k j
  rw [show ((s.abortRaised k status last).tellOutcome k).bibAt i = (s.abortRaised k status last).bibAt i from rfl, State.bibAt, abortRaised_bibs]
  exact abortFreed_idle h k status last i

/-- Where no operation waits for the outcome, an abort leaves the ports. -/
theorem abortBib_ports (hk : k < 64) (ho : (s.bibAt k).orphan = false)
    (h : ∀ q : Fin 4, ∀ x ∈ s.ports[q].waiting, x.wait ≠ .outcome (s.bibAt k).value) (status last : Nat) :
    (s.abortBib k status last).ports = s.ports := by
  have hp := abortRaised_ports s k status last
  have hu : (s.abortRaised k status last).tellOutcome k = s.abortRaised k status last := tellOutcome_unheard fun q x hx => by
    rw [bibAt_abortRaised s hk]
    rw [hp] at hx
    exact h q x hx
  rw [abortBib_eq ho, hu]
  exact hp

/-! ## What an abort counts -/

/-- The registers of an abort. -/
def AbortRegs (a : Nat) : Prop := a = Adr.TXN_ABORT_CNT ∨ a = Adr.TXN_LAST_ABORT ∨ a = Adr.TXN_LAST_PAGE ∨ StatusOf [txnPage] a

theorem Frame.withTxn {R : Nat → Prop} (h : Frame R s t) (x : Txn) : Frame R s (t.withTxn x) := h.congr rfl rfl rfl

theorem abortCounted_frame (he : s.txn.entriesOf (s.bibAt k).value = []) (status last : Nat) :
    Frame AbortRegs s (s.abortCounted k status last) := by
  have hf : Frame AbortRegs s (s.abortFreed k status last) := by
    rw [State.abortFreed, dropEntries_none he]
    exact .congr (.refl _ s) rfl rfl rfl
  unfold State.abortCounted
  dsimp only
  generalize s.abortFreed k status last = t at *
  split
  · exact (((hf.countSat 1 (.inl rfl)).countSat 1 (.inl rfl)).setReg _ (.inr (.inl rfl))).setFld _ (.inr (.inr (.inl rfl)))
  · exact ((hf.countSat 1 (.inl rfl)).setReg _ (.inr (.inl rfl))).setFld _ (.inr (.inr (.inl rfl)))

theorem abortRaised_regs (s : State) (k status last : Nat) (a : Nat) (ha : ¬ StatusOf [txnPage] a) :
    (s.abortRaised k status last).reg a = (s.abortCounted k status last).reg a := (abortRaised_events s k status last).regs a ha

theorem abortCnt_beside : ¬ StatusOf [txnPage] Adr.TXN_ABORT_CNT := by
  rw [StatusOf]
  decide

theorem abortBib_fld (he : s.txn.entriesOf (s.bibAt k).value = []) (ho : (s.bibAt k).orphan = false) (status last : Nat) :
    (s.abortBib k status last).fld Fd.TXN_ABORT_CNT_ALL = satAdd 16 (s.fld Fd.TXN_ABORT_CNT_ALL) 1
    ∧ (s.abortBib k status last).fld Fd.TXN_ABORT_CNT_CONFLICT
        = (if status = 0x30 then satAdd 16 (s.fld Fd.TXN_ABORT_CNT_CONFLICT) 1 else s.fld Fd.TXN_ABORT_CNT_CONFLICT) := by
  have hr : (s.abortBib k status last).reg Adr.TXN_ABORT_CNT = (s.abortCounted k status last).reg Adr.TXN_ABORT_CNT := by
    rw [abortBib_eq ho]
    exact abortRaised_regs s k status last _ abortCnt_beside
  have h0 : (s.abortFreed k status last).regs = s.regs := by
    rw [State.abortFreed, dropEntries_none he]
    rfl
  have hall := fld_of_regs h0 Fd.TXN_ABORT_CNT_ALL
  have hcon := fld_of_regs h0 Fd.TXN_ABORT_CNT_CONFLICT
  rw [fld_of_reg (f := Fd.TXN_ABORT_CNT_ALL) hr, fld_of_reg (f := Fd.TXN_ABORT_CNT_CONFLICT) hr]
  unfold State.abortCounted
  dsimp only
  generalize s.abortFreed k status last = t at *
  rw [fld_setFld_addr _ _ (by decide), fld_setReg_ne _ _ (by decide), fld_setFld_addr _ _ (by decide), fld_setReg_ne _ _ (by decide)]
  split
  · rw [fld_countSat_bits _ 1 (by decide) (by decide), fld_countSat_same _ _ _ (by decide), hall, fld_countSat_same _ _ _ (by decide),
      fld_countSat_bits _ 1 (by decide) (by decide), hcon]
    exact ⟨rfl, rfl⟩
  · rw [fld_countSat_same _ _ _ (by decide), hall, fld_countSat_bits _ 1 (by decide) (by decide), hcon]
    exact ⟨rfl, rfl⟩

theorem abortBib_evt (ho : (s.bibAt k).orphan = false) (status last : Nat) :
    (s.abortBib k status last).evt txnPage TxnEv.ABORTED = true
      ∧ (status = 0x33 → (s.abortBib k status last).evt txnPage TxnEv.STAGING_FULL = true) := by
  rw [abortBib_eq ho]
  show (s.abortRaised k status last).evt txnPage TxnEv.ABORTED = true
      ∧ (status = 0x33 → (s.abortRaised k status last).evt txnPage TxnEv.STAGING_FULL = true)
  unfold State.abortRaised
  dsimp only
  generalize (s.abortCounted k status last).withTxn _ = w
  have h : (w.raiseWith txnPage TxnEv.ABORTED (outcomeDetail (s.bibAt k) status)).evt txnPage TxnEv.ABORTED = true :=
    raiseFuel_bit 3 txnPage .page TxnEv.ABORTED _ false w (by decide)
  split
  · exact ⟨evt_raise_of _ _ _ h, fun _ => evt_raise _ _ (by decide)⟩
  · next hs => exact ⟨h, fun hc => absurd hc hs⟩

theorem abortBib_frame (he : s.txn.entriesOf (s.bibAt k).value = []) (ho : (s.bibAt k).orphan = false) (status last : Nat) :
    Frame AbortRegs s (s.abortBib k status last) := by
  rw [abortBib_eq ho]
  refine .congr (t := s.abortRaised k status last) ?_ rfl rfl rfl
  refine ((abortCounted_frame he status last).withTxn { (s.abortCounted k status last).txn with
    lastAborted := some (outcomeDetail (s.bibAt k) status) }).trans ?_
  exact (abortRaised_events s k status last).frame.mono fun _ h => .inr (.inr (.inr h))

end Sys2Proof.Machine
end

section
/-!
PROOFS. The validation of a bib that passes (15_transactions_and_hosts.md R359), and the operations on bibs that lead to it.
-/
namespace Sys2Proof.Machine

variable {s t : State} {p : Fin 4} {k n : Nat} {v : BitVec 16}

/-! ## TXN_ABORT (R363) -/

theorem not_voted (h : s.change = none) (k : Nat) : s.voted k = false := by
  rw [State.voted, State.voting, h]
  rfl

theorem abortRun_pending (hk : s.ownBib p v.toNat = some k) (hc : s.change = none)
    (ho : (s.bibAt k).state = .opened ∨ (s.bibAt k).state = .scheduled) :
    s.abortRun p v.toNat = (opOk [], s.abortBib k St.ABORTED_BY_HOST 0) := by
  rw [State.abortRun, hk]
  dsimp only
  rw [not_voted hc, if_neg Bool.false_ne_true, if_pos ho]

theorem txnAbort_after (h : s.Hears p) (hc : s.change = none) (hk : s.ownBib p v.toNat = some k)
    (ho : (s.bibAt k).state = .opened ∨ (s.bibAt k).state = .scheduled) (hor : (s.bibAt k).orphan = false) (hl : (s.bibAt k).later < 4)
    (he : s.txn.entriesOf (s.bibAt k).value = []) : After (exec (.txnAbort p v) s) fun t =>
      (t.bibAt k).state = .aborted ∧ (t.bibAt k).status = 0x35 ∧ t.evt txnPage TxnEv.ABORTED = true
      ∧ t.ports[p].results = [⟨0x22, 0x00, []⟩]
      ∧ Frame (fun a => a = Adr.TXN_ABORT_CNT ∨ a = Adr.TXN_LAST_ABORT ∨ a = Adr.TXN_LAST_PAGE ∨ StatusOf [txnPage] a) s t := by
  obtain ⟨hk64, -, -⟩ := ownBib_some hk
  have ha := h.alone ⟨.txnAbort p v, .behind, false, s.nextTurn⟩
  generalize hw : s.waits p [⟨.txnAbort p v, .behind, false, s.nextTurn⟩] = w at ha
  have hq : ∀ q : Fin 4, ∀ x ∈ w.ports[q].waiting, x.wait ≠ .outcome (w.bibAt k).value := by
    intro q x hx
    by_cases hqp : q = p
    · rw [hqp, ha.only, List.mem_singleton] at hx
      rw [hx]
      exact fun hn => by cases hn
    · rw [ha.others q hqp] at hx
      cases hx
  have hwb : w.txn = s.txn ∧ w.change = s.change := by rw [← hw]; exact ⟨rfl, rfl⟩
  have hb : w.bibAt k = s.bibAt k := by rw [State.bibAt, hwb.1]
  have hor' : (w.bibAt k).orphan = false := by rw [hb, hor]
  have hrun : (s.waits p [⟨.txnAbort p v, .behind, false, s.nextTurn⟩]).abortRun p v.toNat
      = (opOk [], w.abortBib k St.ABORTED_BY_HOST 0) := by
    rw [hw]
    exact abortRun_pending (by rw [← hw]; exact hk) (by rw [hwb.2, hc]) (by rw [hb]; exact ho)
  have hp := abortBib_ports hk64 hor' hq St.ABORTED_BY_HOST 0
  have hu : (w.abortBib k St.ABORTED_BY_HOST 0).RunsAlone p ⟨.txnAbort p v, .behind, false, s.nextTurn⟩ :=
    { only := by rw [hp, ha.only]
      others := fun q hq => by rw [hp, ha.others q hq]
      unframed := by rw [hp, ha.unframed]
      bibs := abortBib_idle hor' ha.bibs _ _ }
  have hbib := bibAt_abortBib hk64 hor' (by rw [hb]; exact hl) St.ABORTED_BY_HOST 0
  refine .of_eq (next_eq (submit_done (op := .txnAbort p v) (c := 0x22) h rfl (.inl (by decide)) hrun hu)) ⟨?_, ?_, ?_, ?_, ?_⟩
  · exact congrArg Bib.state hbib
  · exact congrArg Bib.status hbib
  · exact (abortBib_evt hor' _ _).1
  · exact congrArg Port.results (port_updPort_same _ p _)
  · have hf := abortBib_frame (s := w) (k := k) (by rw [hb, hwb.1]; exact he) hor' St.ABORTED_BY_HOST 0
    have h0 : Frame AbortRegs s w := .congr (.refl _ s) (by rw [← hw]; rfl) (by rw [← hw]; rfl) (by rw [← hw]; rfl)
    exact .congr (h0.trans hf) rfl rfl rfl

/-! ## A validation that passes (R359) -/

/-- The bib of a transaction that passes as number `m`. -/
def Bib.passed (b : Bib) (reserved m : Nat) : Bib :=
  { b with reserved := reserved, state := .inFlight, status := St.IN_FLIGHT, validated := m, waitsPage := false, orphan := false }

/-- `s` with the granules that the bib in slot `k` reserves. -/
def State.reserves (s : State) (k n : Nat) : State := s.updBib k fun b => { b with reserved := n }

/-- `s` with the bib in slot `k` as the next to pass. -/
def State.numbered (s : State) (k : Nat) : State :=
  (s.withTxn { s.txn with order := s.txn.order + 1 }).updBib k fun b => b.pass (s.txn.order + 1)

/-- `s` with the bib in slot `k` passed, and the granules that it reserves. -/
def State.passes (s : State) (k n : Nat) : State := (s.reserves k n).numbered k

theorem bibAt_reserves (s : State) (hk : k < 64) (n : Nat) : (s.reserves k n).bibAt k = { s.bibAt k with reserved := n } :=
  bibAt_updBib_same s _ hk

theorem bibAt_numbered (s : State) (hk : k < 64) : (s.numbered k).bibAt k = (s.bibAt k).pass (s.txn.order + 1) :=
  bibAt_updBib_same (s.withTxn { s.txn with order := s.txn.order + 1 }) _ hk

theorem bibAt_passes (s : State) (hk : k < 64) (ho : (s.bibAt k).state = .opened ∨ (s.bibAt k).state = .scheduled) (n : Nat) :
    (s.passes k n).bibAt k = (s.bibAt k).passed n (s.txn.order + 1) := by
  rw [State.passes, bibAt_numbered _ hk, bibAt_reserves s hk]
  obtain ho | ho := ho <;> (unfold Bib.pass; dsimp only; rw [ho]; rfl)

theorem value_passes (s : State) (hk : k < 64) (n : Nat) : ((s.passes k n).bibAt k).value = (s.bibAt k).value := by
  rw [State.passes, bibAt_numbered _ hk, bibAt_reserves s hk]
  rfl

theorem bibAt_passes_ne (s : State) {j : Nat} (hj : k ≠ j) (n : Nat) : (s.passes k n).bibAt j = s.bibAt j :=
  (bibAt_updBib_ne ((s.reserves k n).withTxn { (s.reserves k n).txn with order := (s.reserves k n).txn.order + 1 }) _ hj).trans
    (bibAt_updBib_ne s _ hj)

theorem ports_passes (s : State) (k n : Nat) : (s.passes k n).ports = s.ports := rfl

theorem passes_quiet (s : State) (k n : Nat) : Quiet (fun _ => False) s (s.passes k n) := .congr (.refl _ s) rfl rfl rfl

theorem ownsChange_none (h : s.change = none) (k : Nat) : s.ownsChange k = false := by
  rw [State.ownsChange, h]

theorem bibPassed_still (h : s.change = none) (k : Nat) : s.bibPassed k = s.numbered k := by
  have ho : (s.numbered k).ownsChange k = false := ownsChange_none (s := s.numbered k) h k
  exact (if_neg (c := (s.numbered k).ownsChange k = true) (by rw [ho]; exact Bool.false_ne_true))

/-- It does not apply at once. -/
theorem applyAtOnce_waits (hp : s.domOn Dm.PLL = true) (hf : s.fabState ≠ .stopped ∨ s.txn.entriesOf (s.bibAt k).value = []) :
    s.applyAtOnce k = s := by
  rw [State.applyAtOnce, hp, if_neg (by simp)]
  refine if_neg fun ⟨h1, h2, _⟩ => ?_
  obtain hf | hf := hf
  · exact hf h1
  · rw [State.fabricOnly, State.pagesOf, hf] at h2
    simp at h2

theorem passed_stays (hc : s.change = none) (hp : s.domOn Dm.PLL = true)
    (hf : s.fabState ≠ .stopped ∨ s.txn.entriesOf (s.bibAt k).value = []) (n : Nat) (hk : k < 64) :
    ((s.reserves k n).bibPassed k).applyAtOnce k = s.passes k n := by
  rw [bibPassed_still (s := s.reserves k n) hc k]
  exact applyAtOnce_waits (s := s.passes k n) hp (hf.imp_right fun h => by rw [value_passes s hk]; exact h)

/-- The checks that find nothing. -/
theorem bibChecks_pass {now edge : Nat} (hk : k < 64) (hl : s.bibLate (s.bibAt k) now edge = false)
    (ht : s.targetChanges (s.opsOf k) = []) (hpf : s.pageFault k [] = none) (hs : s.swapStaged (s.opsOf k) = false)
    (hg : s.granulesNeeded (s.opsOf k) = some n) (hc : s.change = none) (hp : s.domOn Dm.PLL = true)
    (hf : s.fabState ≠ .stopped ∨ s.txn.entriesOf (s.bibAt k).value = []) : s.bibChecks k now edge = s.passes k n := by
  rw [State.bibChecks]
  dsimp only
  rw [hl, if_neg Bool.false_ne_true, ht, hpf]
  dsimp only
  rw [State.swapAdmit, hs, if_pos (by decide)]
  dsimp only
  rw [hg]
  exact passed_stays hc hp hf n hk

/-! ## A transaction without entries -/

theorem swapStaged_nil (s : State) : s.swapStaged [] = false := rfl

theorem targetChanges_nil (s : State) : s.targetChanges [] = [] := rfl

theorem groupsAhead_nil (s : State) : State.groupsAhead [] s = (false, s) := by
  refine List.foldl_fixed' (fun g => ?_) _
  have hg : s.grpStaged g [] = (false, s) := by
    rw [State.grpStaged]
    dsimp only [List.filter_nil, List.foldl_nil]
    exact if_neg (by simp)
  dsimp only [List.filter_nil, List.foldl_nil]
  rw [hg]
  rfl

theorem granulesNeeded_nil (s : State) : s.granulesNeeded [] = some 0 := by
  rw [State.granulesNeeded, groupsAhead_nil]
  dsimp only
  rw [swapStaged_nil, if_neg Bool.false_ne_true]
  simp [State.ahead]

theorem opsOf_none (h : s.txn.entriesOf (s.bibAt k).value = []) : s.opsOf k = [] := by
  rw [State.opsOf, h]
  rfl

theorem pagesOf_none (h : s.txn.entriesOf (s.bibAt k).value = []) : s.pagesOf k = [] := by
  rw [State.pagesOf, h]
  rfl

theorem bibBlocked_none (h : s.txn.entriesOf (s.bibAt k).value = []) (hc : s.change = none) : s.bibBlocked k = false := by
  rw [State.bibBlocked, opsOf_none h, pagesOf_none h, targetChanges_nil]
  have hv : s.voting = false := by
    rw [State.voting, hc]
  have ho : ∀ o : Option Nat, o.any ([] : List Nat).contains = false := fun o => by cases o <;> rfl
  rw [hv]
  simp [State.loweredBy, ho]

/-- `s` with no validation that waits for the bib in slot `k`. -/
def State.unwaited (s : State) (k : Nat) : State := s.updBib k fun b => { b with waitsPage := false }

theorem bibAt_unwaited (s : State) (hk : k < 64) : (s.unwaited k).bibAt k = { s.bibAt k with waitsPage := false } :=
  bibAt_updBib_same s _ hk

theorem bibAt_unwaited_ne (s : State) {j : Nat} (hj : k ≠ j) : (s.unwaited k).bibAt j = s.bibAt j := bibAt_updBib_ne s _ hj

theorem ports_unwaited (s : State) (k : Nat) : (s.unwaited k).ports = s.ports := rfl

theorem unwaited_quiet (s : State) (k : Nat) : Quiet (fun _ => False) s (s.unwaited k) := .congr (.refl _ s) rfl rfl rfl

theorem entriesOf_unwaited (s : State) (hk : k < 64) :
    (s.unwaited k).txn.entriesOf ((s.unwaited k).bibAt k).value = s.txn.entriesOf (s.bibAt k).value := by
  rw [bibAt_unwaited s hk]
  rfl

/-- A transaction without entries and without a time passes. -/
theorem validate_none {now edge : Nat} (hk : k < 64) (h : s.txn.entriesOf (s.bibAt k).value = []) (hc : s.change = none)
    (hp : s.domOn Dm.PLL = true) (hm : (s.bibAt k).mode = 0) : s.validate k now edge = (s.unwaited k).passes k 0 := by
  have he := (entriesOf_unwaited s hk).trans h
  have hmode : ((s.unwaited k).bibAt k).mode = 0 := by rw [bibAt_unwaited s hk]; exact hm
  rw [State.validate, bibBlocked_none h hc, if_neg Bool.false_ne_true]
  refine bibChecks_pass (s := s.unwaited k) hk ?_ ?_ ?_ ?_ ?_ hc hp (.inr he)
  · rw [State.bibLate, hmode]
    rfl
  · rw [opsOf_none he, targetChanges_nil]
  · rw [State.pageFault, pagesOf_none he]
    rfl
  · rw [opsOf_none he, swapStaged_nil]
  · rw [opsOf_none he, granulesNeeded_nil]

/-- The other bibs stay as they are. -/
theorem passed_idle (hk : k < 64) (ho : (s.bibAt k).state = .opened ∨ (s.bibAt k).state = .scheduled) (n : Nat)
    (h : ∀ j : Fin 64, (s.bibAt j).waitsPage = false) (j : Fin 64) : (((s.unwaited k).passes k n).bibAt j).waitsPage = false := by
  by_cases hj : k = j.val
  · rw [← hj, bibAt_passes _ hk (by rw [bibAt_unwaited s hk]; exact ho)]
    rfl
  · rw [bibAt_passes_ne _ hj, bibAt_unwaited_ne s hj, h j]

theorem State.RunsAlone.passed {w : WaitOp} (h : s.RunsAlone p w) (hk : k < 64)
    (ho : (s.bibAt k).state = .opened ∨ (s.bibAt k).state = .scheduled) (n : Nat) : ((s.unwaited k).passes k n).RunsAlone p w where
  only := by rw [ports_passes, ports_unwaited, h.only]
  others q hq := by rw [ports_passes, ports_unwaited, h.others q hq]
  unframed := by rw [ports_passes, ports_unwaited, h.unframed]
  bibs := passed_idle hk ho n h.bibs

/-! ## TXN_COMMIT without a time (R357) -/

theorem commitRun_now (h : s.ownBib p v.toNat = some k) (ho : (s.bibAt k).state = .opened) (x : Nat) :
    s.commitRun p v.toNat 0 x = (.waits (.outcome v.toNat) (some k), s) := by
  rw [State.commitRun, h]
  dsimp only
  rw [if_neg (not_not.2 ho), if_neg (by decide)]
  exact if_pos rfl

theorem txnCommit_now {time : Count} (h : s.Hears p) (hc : s.change = none) (hpl : s.domOn Dm.PLL = true)
    (hk : s.ownBib p v.toNat = some k) (ho : (s.bibAt k).state = .opened) (hm : (s.bibAt k).mode = 0)
    (he : s.txn.entriesOf (s.bibAt k).value = []) : After (exec (.txnCommit p v 0 time) s) fun t =>
      (t.bibAt k).state = .inFlight ∧ (t.bibAt k).value = (s.bibAt k).value
      ∧ t.ports[p].waiting.map (·.wait) = [.outcome v.toNat] ∧ Quiet (fun _ => False) s t := by
  obtain ⟨hk64, -, -⟩ := ownBib_some hk
  have ha := h.alone ⟨.txnCommit p v 0 time, .outcome v.toNat, false, s.nextTurn⟩
  have e := commitRun_now (s := s.waits p [⟨.txnCommit p v 0 time, .behind, false, s.nextTurn⟩]) hk ho time.toNat
  have hq : Quiet (fun _ => False) s (s.waits p [⟨.txnCommit p v 0 time, .outcome v.toNat, false, s.nextTurn⟩]) :=
    .congr (.refl _ s) rfl rfl rfl
  have hw : (s.waits p [⟨.txnCommit p v 0 time, .outcome v.toNat, false, s.nextTurn⟩]).txn = s.txn := rfl
  have hv := validate_none (s := s.waits p [⟨.txnCommit p v 0 time, .outcome v.toNat, false, s.nextTurn⟩]) (k := k) (now := s.tickcnt)
    (edge := s.boundary) hk64 he hc hpl hm
  have hs := fun hu => submit_waits (op := .txnCommit p v 0 time) (u := s) h (.inl ⟨_, rfl⟩) e hv hu
  generalize s.waits p [⟨.txnCommit p v 0 time, .outcome v.toNat, false, s.nextTurn⟩] = u at *
  have hb : u.bibAt k = s.bibAt k := by rw [State.bibAt, hw]
  have ho' : (u.bibAt k).state = .opened ∨ (u.bibAt k).state = .scheduled := .inl (by rw [hb, ho])
  have hu := ha.passed hk64 ho' 0
  have hbib : ((u.unwaited k).passes k 0).bibAt k = ((u.unwaited k).bibAt k).passed 0 ((u.unwaited k).txn.order + 1) :=
    bibAt_passes _ hk64 (by rw [bibAt_unwaited u hk64]; exact ho') 0
  refine .of_eq (next_eq (hs hu)) ⟨?_, ?_, ?_, ?_⟩
  · rw [hbib]
    rfl
  · rw [value_passes _ hk64, bibAt_unwaited u hk64, hb]
  · rw [hu.only]
    rfl
  · exact (hq.trans (unwaited_quiet u k)).trans (passes_quiet _ k 0)

/-- Settles O30. -/
theorem transactionOperations : Obligations.TransactionOperations := by
  unfold Obligations.TransactionOperations
  exact ⟨fun _ _ _ _ h hm ht => txnOpen_after h hm ht, fun _ _ h hm => txnOpen_refused h hm,
    fun _ _ _ _ _ _ h hk ho hm ht => txnCommit_scheduled h hk ho hm ht, fun _ _ _ _ _ h hc hp hk ho hm he => txnCommit_now h hc hp hk ho hm he,
    fun _ _ _ _ _ h hk => txnCommit_unknown h hk, fun _ _ _ _ h hc hk ho hor hl he => txnAbort_after h hc hk ho hor hl he,
    fun _ _ _ _ _ h hk hr => txnStatus_kept h hk hr, fun _ _ _ _ h hk hr => txnStatus_retires h hk hr,
    fun _ _ _ h hg => claim_undefined h hg, fun _ _ _ h hg hf hc => claim_free h hg hf hc,
    fun _ _ _ h hg hf hc => claim_own h hg hf hc, fun _ _ _ _ h hg hf hc hq => claim_foreign h hg hf hc hq⟩

end Sys2Proof.Machine
end

section
/-!
PROOFS. Reads and writes of one word (14_control_ports.md R334, R335; 18_register_pages.md R407–R409), and operations on bibs of other
ports (15_transactions_and_hosts.md R347).
-/
namespace Sys2Proof.Machine

variable {s t : State} {p : Fin 4} {k : Nat} {v : BitVec 16} {a : Word} {d : Nat}

/-! ## Words beside the waiting operations of a port -/

section Waits
variable (s : State) (p : Fin 4) (ws : List WaitOp)

theorem port_waits (q : Fin 4) : (s.waits p ws).ports[q] = s.ports[q] ∨ (s.waits p ws).ports[q] = { s.ports[q] with waiting := ws } := by
  by_cases h : q = p
  · rw [h, State.waits, port_updPort_same]
    exact .inr rfl
  · rw [State.waits, port_updPort_ne _ _ h]
    exact .inl rfl

theorem leaseMs_waits (k : Fin 4) : (s.waits p ws).leaseMs k = s.leaseMs k := by
  unfold State.leaseMs State.leaseNow
  obtain h | h := port_waits s p ws k <;> rw [h] <;> rfl

theorem cpWord_waits (k : Fin 4) (o w : Nat) : (s.waits p ws).cpWord k o w = s.cpWord k o w := by
  unfold State.cpWord
  rw [leaseMs_waits]
  obtain h | h := port_waits s p ws k <;> rw [h] <;> rfl

theorem claimWord_waits (g : Nat) : (s.waits p ws).claimWord g = s.claimWord g := by
  have hs : ∀ q, (at_ (s.waits p ws).ports q (Port.atReset 0)).session = (at_ s.ports q (Port.atReset 0)).session := by
    intro q
    unfold at_
    split
    · next hq =>
      obtain h | h := port_waits s p ws ⟨q, hq⟩
      · exact congrArg Port.session h
      · exact (congrArg Port.session h).trans rfl
    · rfl
  unfold State.claimWord
  simp only [hs]
  rfl

theorem headerWord_waits (g o : Nat) : (s.waits p ws).headerWord g o = s.headerWord g o := by
  unfold State.headerWord
  rw [claimWord_waits]
  rfl

theorem blockWord_waits (g o : Nat) : (s.waits p ws).blockWord g o = s.blockWord g o := by
  unfold State.blockWord
  dsimp only
  rw [cpWord_waits]
  rfl

theorem pageWord_waits (g o : Nat) : (s.waits p ws).pageWord g o = s.pageWord g o := by
  unfold State.pageWord
  rw [headerWord_waits, blockWord_waits]

theorem clearRc_waits (g o : Nat) : (s.waits p ws).clearRc g o = (s.clearRc g o).waits p ws := by
  unfold State.clearRc
  split
  · rfl
  · dsimp only
    split <;> rfl

theorem ring_waits (i : Nat) : (s.waits p ws).ring i = s.ring i := rfl

theorem headRecord_waits (q : Nat) : (s.waits p ws).headRecord q = s.headRecord q := rfl

theorem setReg_waits (x : Nat) (w : Word) : (s.waits p ws).setReg x w = (s.setReg x w).waits p ws := rfl

theorem setFld_waits (f : Fld) (v : Nat) : (s.waits p ws).setFld f v = (s.setFld f v).waits p ws := rfl

theorem latchCounts_waits (n : Fin 32) (k : Fin 2) : (s.waits p ws).latchCounts n k = (s.latchCounts n k).waits p ws := by
  unfold State.latchCounts
  rw [show (s.waits p ws).line n k = s.line n k from rfl]
  dsimp only
  rw [setFld_waits, setFld_waits, setFld_waits, setFld_waits]

theorem latchStamp_waits (n : Fin 32) : (s.waits p ws).latchStamp n = (s.latchStamp n).waits p ws := rfl

theorem latchCs_waits (n : Fin 32) : (s.waits p ws).latchCs n = (s.latchCs n).waits p ws := by
  have hput : ∀ (t : State) (base : Nat) (bs : List Byte) (l : List Nat),
      l.foldl (fun u i => u.setReg (base + 4 * i) (word (ofBytesLE ((bs.drop (4 * i)).take 4)))) (t.waits p ws)
        = (l.foldl (fun u i => u.setReg (base + 4 * i) (word (ofBytesLE ((bs.drop (4 * i)).take 4)))) t).waits p ws :=
    fun _ _ _ _ => List.foldl_hom (State.waits · p ws) fun u i => setReg_waits u p ws _ _
  unfold State.latchCs
  dsimp only
  rw [show (s.waits p ws).saps = s.saps from rfl, hput, hput]

/-- The records of a sequence are taken from its ring. -/
theorem ringTake_waits {i : Nat} (h : ringDeviceProduced i = true) (k : Nat) : (s.waits p ws).ringTake i k = (s.ringTake i k).waits p ws := by
  rw [ringTake_deviceProduced h, ringTake_deviceProduced h]
  rfl

/-- A read that shows something of its own each time. -/
def State.freshRead (t : State) : State := { t with fresh := t.fresh + 1 }

/-- A read of LOST counts afresh. -/
def State.lostRead (t : State) (i : Nat) : State := t.updRing i fun r => { r with lost := 0 }

/-- A read of the record at the head of sequence `q`, which is popped where `pop` says so. -/
def State.recordRead (t : State) (q x : Nat) (pop : Prop) [Decidable pop] : State :=
  if pop ∧ (t.ring (20 + q)).fill ≠ 0 then (t.setReg x (word (ofBytesLE ((t.headRecord q).drop 4)))).ringTake (20 + q) 1
  else t.setReg x (word (ofBytesLE ((t.headRecord q).drop 4)))

/-- A read of a register of a serial audio port. -/
def State.sapRead (t : State) (n : Fin 32) (o : Nat) : State :=
  if o = 0x058 then t.latchStamp n
  else if o = 0x080 then t.latchCounts n 0
  else if o = 0x0A0 then t.latchCounts n 1
  else if o = 0x120 ∧ 24 ≤ n.val then t.latchCs n
  else t

/-- What a read does after its RC fields are cleared. -/
def State.readDoes (t : State) (g o : Nat) : State :=
  if g = pwrPage ∧ o = 0x214 then t.freshRead
  else if g = timePage ∧ o = 0x040 then t.latchSys
  else if g = timePage ∧ o = 0x048 then t.latchTick
  else if 0x008 ≤ g ∧ g < 0x00C ∧ o = 0x050 then t.freshRead
  else if g = ringPage ∧ o = 0x040 then t.latchGran
  else if g = ringPage ∧ 0x100 ≤ o ∧ o % 16 = 12 then t.lostRead ((o - 0x100) / 16)
  else if g = hkseqPage ∧ 0x080 ≤ o ∧ o < 0x0C0 ∧ o % 8 = 0 then t.recordRead ((o - 0x080) / 16) (pageAddr g (o + 4)) (o % 16 = 0)
  else if 0x020 ≤ g ∧ g < 0x040 then t.sapRead (Fin.ofNat 32 (g - 0x020)) o
  else t

theorem pageRead_eq (g o : Nat) : s.pageRead g o = (s.clearRc g o).readDoes g o := rfl

theorem ite_waits {c : Prop} [Decidable c] (t u : State) :
    (if c then t else u).waits p ws = if c then t.waits p ws else u.waits p ws := by
  split <;> rfl

theorem recordRead_waits {q : Nat} (hq : q < 4) (x : Nat) (pop : Prop) [Decidable pop] :
    (s.waits p ws).recordRead q x pop = (s.recordRead q x pop).waits p ws := by
  have hd : ringDeviceProduced (20 + q) = true := by
    simp only [ringDeviceProduced, Bool.and_eq_true, decide_eq_true_eq, bne_iff_ne]
    omega
  unfold State.recordRead
  rw [ite_waits, ring_waits, headRecord_waits, setReg_waits, ringTake_waits _ _ _ hd]

theorem sapRead_waits (n : Fin 32) (o : Nat) : (s.waits p ws).sapRead n o = (s.sapRead n o).waits p ws := by
  unfold State.sapRead
  rw [ite_waits, ite_waits, ite_waits, ite_waits, latchCs_waits, latchCounts_waits, latchCounts_waits, latchStamp_waits]

theorem readDoes_waits (g o : Nat) : (s.waits p ws).readDoes g o = (s.readDoes g o).waits p ws := by
  unfold State.readDoes
  rw [ite_waits, ite_waits, ite_waits, ite_waits, ite_waits, ite_waits, ite_waits, ite_waits, sapRead_waits]
  by_cases h : g = hkseqPage ∧ 0x080 ≤ o ∧ o < 0x0C0 ∧ o % 8 = 0
  · rw [recordRead_waits _ _ _ (by omega)]
    rfl
  · rw [if_neg h, if_neg h]
    rfl

theorem pageRead_waits (g o : Nat) : (s.waits p ws).pageRead g o = (s.pageRead g o).waits p ws := by
  rw [pageRead_eq, clearRc_waits, readDoes_waits, pageRead_eq]

end Waits

/-! ## What a read leaves alone -/

/-- Ports and transactions stay. -/
def SameWork (s t : State) : Prop := t.ports = s.ports ∧ t.txn = s.txn

theorem SameWork.ite {c : Prop} [Decidable c] {u : State} (h : c → SameWork s t) (g : ¬ c → SameWork s u) :
    SameWork s (if c then t else u) := by
  split
  · exact h ‹_›
  · exact g ‹_›

theorem clearRc_same (s : State) (g o : Nat) : SameWork s (s.clearRc g o) := by
  unfold State.clearRc
  split
  · exact ⟨rfl, rfl⟩
  · exact .ite (fun _ => ⟨rfl, rfl⟩) fun _ => ⟨rfl, rfl⟩

theorem latchCs_same (s : State) (n : Fin 32) : SameWork s (s.latchCs n) := by
  have hput : ∀ (t : State) (base : Nat) (bs : List Byte) (l : List Nat), SameWork s t →
      SameWork s (l.foldl (fun u i => u.setReg (base + 4 * i) (word (ofBytesLE ((bs.drop (4 * i)).take 4)))) t) :=
    fun t base bs l ht => List.foldlRecOn (motive := SameWork s) l _ ht fun _ hu _ _ => hu
  exact hput _ _ _ _ (hput _ _ _ _ ⟨rfl, rfl⟩)

theorem sapRead_same (s : State) (n : Fin 32) (o : Nat) : SameWork s (s.sapRead n o) := by
  have hc : ∀ k, SameWork s (s.latchCounts n k) := fun k =>
    ⟨(latchCounts_regsOnly s n k).same State.ports fun _ => rfl, (latchCounts_regsOnly s n k).same State.txn fun _ => rfl⟩
  exact .ite (fun _ => ⟨rfl, rfl⟩) fun _ => .ite (fun _ => hc 0) fun _ => .ite (fun _ => hc 1) fun _ =>
    .ite (fun _ => latchCs_same s n) fun _ => ⟨rfl, rfl⟩

theorem recordRead_same (s : State) {q : Nat} (hq : q < 4) (x : Nat) (pop : Prop) [Decidable pop] : SameWork s (s.recordRead q x pop) := by
  have hd : ringDeviceProduced (20 + q) = true := by
    simp only [ringDeviceProduced, Bool.and_eq_true, decide_eq_true_eq, bne_iff_ne]
    omega
  refine .ite (fun _ => ?_) fun _ => ⟨rfl, rfl⟩
  rw [ringTake_deviceProduced hd]
  exact ⟨rfl, rfl⟩

theorem readDoes_same (s : State) (g o : Nat) : SameWork s (s.readDoes g o) :=
  .ite (fun _ => ⟨rfl, rfl⟩) fun _ => .ite (fun _ => ⟨rfl, rfl⟩) fun _ => .ite (fun _ => ⟨rfl, rfl⟩) fun _ => .ite (fun _ => ⟨rfl, rfl⟩)
    fun _ => .ite (fun _ => ⟨rfl, rfl⟩) fun _ => .ite (fun _ => ⟨rfl, rfl⟩) fun _ => .ite (fun h => recordRead_same s (by omega) _ _)
    fun _ => .ite (fun _ => sapRead_same s _ _) fun _ => ⟨rfl, rfl⟩

theorem pageRead_same (s : State) (g o : Nat) : SameWork s (s.pageRead g o) := by
  obtain ⟨h1, h2⟩ := clearRc_same s g o
  obtain ⟨h3, h4⟩ := readDoes_same (s.clearRc g o) g o
  rw [pageRead_eq]
  exact ⟨h3.trans h1, h4.trans h2⟩

/-! ## RD (R334) -/

theorem wakeWanted_on {x : Nat} (hd : addrDomain x = some d) (ho : s.domOn d = true) : s.wakeWanted x = none := by
  rw [State.wakeWanted, hd]
  dsimp only
  rw [ho]
  rfl

theorem rdRun_on {x w : Nat} {down : Option Nat} (ha : x % 4 = 0) (hd : addrDomain x = some d) (ho : s.domOn d = true)
    (hr : s.readWord p x = (St.OK, w, t)) : s.rdRun p x 4 down = (.done St.OK (bytesLE 4 w), t) := by
  have hw : (List.range (4 / 4)).findSome? (fun i => s.wakeWanted (x + 4 * i)) = none := by
    simp [wakeWanted_on hd ho]
  have hm : s.readWords p x (4 / 4) = (St.OK, bytesLE 4 w, t) := by
    simp [State.readWords, hr]
  unfold State.rdRun
  rw [if_neg (by omega), hw, hm]
  cases down <;> rfl

theorem readWord_page {x : Nat} (hd : addrDomain x = some d) (ho : s.domOn d = true) (hi : inPages x = true) :
    s.readWord p x = (St.OK, s.pageWord (pageOf x) (pageOff x), s.pageRead (pageOf x) (pageOff x)) := by
  rw [State.readWord, hd]
  dsimp only
  rw [ho, if_neg (by decide), if_pos hi]

theorem rd_bad {n : BitVec 16} (h : s.Hears p) (hb : a.toNat % 4 ≠ 0 ∨ n.toNat % 4 ≠ 0 ∨ n = 0) :
    exec (.rd p a n) s = .next (s.gives p 0x10 0x15 []) :=
  next_eq (submit_gives (op := .rd p a n) h rfl (.inl (by decide)) rfl h.settled.bibs fun _ =>
    if_pos (hb.imp_right fun h => h.imp_right fun e => congrArg BitVec.toNat e))

theorem rd_page (h : s.Hears p) (ha : a.toNat % 4 = 0) (hi : inPages a.toNat = true) (hd : addrDomain a.toNat = some d)
    (ho : s.domOn d = true) : exec (.rd p a 4) s =
      .next ((s.pageRead (pageOf a.toNat) (pageOff a.toNat)).gives p 0x10 0x00
        (bytesLE 4 (s.pageWord (pageOf a.toNat) (pageOff a.toNat)))) := by
  obtain ⟨hp, ht⟩ := pageRead_same s (pageOf a.toNat) (pageOff a.toNat)
  refine next_eq (submit_gives (op := .rd p a 4) h rfl (.inl (by decide)) hp (fun k => ?_) fun ws => ?_)
  · rw [State.bibAt, ht]
    exact h.settled.bibs k
  · refine rdRun_on (s := s.waits p ws) ha hd ho ?_
    rw [readWord_page (s := s.waits p ws) hd ho hi, pageWord_waits, pageRead_waits]

/-! ## Words of audio memory -/

theorem amem_plain {x : Nat} (h : 0x60000000 ≤ x ∧ x < 0x60100000) : inPages x = false ∧ inParams x = false ∧ inPistes x = false
    ∧ memNoAccess x = false ∧ memReadOnly x = false := by
  simp only [inPages, inParams, inPistes, memNoAccess, memReadOnly, Bool.and_eq_false_iff, Bool.or_eq_false_iff, decide_eq_false_iff_not]
  omega

theorem bytesLE_ofBytesLE (b0 b1 b2 b3 : Byte) : bytesLE 4 (word (ofBytesLE [b0, b1, b2, b3])).toNat = [b0, b1, b2, b3] := by
  have h0 := b0.isLt
  have h1 := b1.isLt
  have h2 := b2.isLt
  have h3 := b3.isLt
  have hx : ∀ (b : Byte) (i : Nat), (word (ofBytesLE [b0, b1, b2, b3])).toNat / 2 ^ i % 256 = b.toNat →
      (word (ofBytesLE [b0, b1, b2, b3])).extractLsb' i 8 = b := fun b i h => BitVec.eq_of_toNat_eq (by
    rw [BitVec.extractLsb'_toNat, Nat.shiftRight_eq_div_pow]
    exact h)
  have hw : (word (ofBytesLE [b0, b1, b2, b3])).toNat = b0.toNat + 256 * (b1.toNat + 256 * (b2.toNat + 256 * b3.toNat)) := by
    simp only [word, BitVec.toNat_ofNat, ofBytesLE]
    omega
  rw [bytesLE_four, hx b0 0 (by omega), hx b1 8 (by omega), hx b2 16 (by omega), hx b3 24 (by omega)]

theorem rd_amem (h : s.Hears p) (ha : a.toNat % 4 = 0) (h1 : 0x60000000 ≤ a.toNat) (h2 : a.toNat < 0x60100000)
    (hd : addrDomain a.toNat = some d) (ho : s.domOn d = true) : exec (.rd p a 4) s = .next (s.gives p 0x10 0x00 (s.bytesAt a.toNat 4)) := by
  obtain ⟨hi, hm, -, hn, -⟩ := amem_plain ⟨h1, h2⟩
  have hb : bytesLE 4 (s.memWord a.toNat).toNat = s.bytesAt a.toNat 4 := by
    rw [State.memWord, bytesAt_four, bytesLE_ofBytesLE]
  refine next_eq (submit_gives (op := .rd p a 4) h rfl (.inl (by decide)) rfl h.settled.bibs fun ws => ?_)
  rw [← hb]
  refine rdRun_on (s := s.waits p ws) ha hd ho ?_
  rw [State.readWord, hd]
  dsimp only
  rw [domOn_waits, ho, if_neg (by decide), hi, if_neg Bool.false_ne_true, hn, if_neg Bool.false_ne_true, hm, if_neg Bool.false_ne_true]
  rfl

/-! ## WR and RMW (R335) -/

theorem dataWords_one (x : Nat) (b0 b1 b2 b3 : Byte) :
    dataWords x [b0, b1, b2, b3] = [⟨x % 2 ^ 32, none, ofBytesLE [b0, b1, b2, b3]⟩] := by
  simp [dataWords]

theorem amem_unmapped {x : Nat} (h : 0x60000000 ≤ x ∧ x < 0x60100000) : claimPage x = none ∧ versionPage x = none ∧ grpCtrlOf x = none
    ∧ isFabParam x = false ∧ isTickWord x = false ∧ isCrcSetting x = false := by
  obtain ⟨hi, hm, hps, -, -⟩ := amem_plain h
  refine ⟨?_, ?_, ?_, ?_, ?_, ?_⟩
  · rw [claimPage, hi, hm, hps]
    rfl
  · rw [versionPage, hi, hm]
    rfl
  · exact if_neg (by simp only [Adr.TIME_GRP_CTRL]; omega)
  · rw [isFabParam, hm, hi]
    simp
  · simp only [isTickWord, Adr.HKSEQ_ENTRY, Adr.HKA_WIN_CFG, Bool.or_eq_false_iff, Bool.and_eq_false_iff, decide_eq_false_iff_not]
    omega
  · simp only [isCrcSetting, Adr.CRC_CFG, Adr.CRC_XOROUT, Bool.and_eq_false_iff, decide_eq_false_iff_not]
    omega

theorem wordBlocked_amem {x : Nat} (h : 0x60000000 ≤ x ∧ x < 0x60100000) (hc : s.change = none) (q : Option (Fin 4)) :
    s.wordBlocked q x = false := by
  obtain ⟨hi, hm, -⟩ := amem_plain h
  rw [State.wordBlocked, State.changeBlocks, State.heldFor, hc, hi, hm]
  rfl

theorem checkWord_amem {x : Nat} (h : 0x60000000 ≤ x ∧ x < 0x60100000) (hd : addrDomain x = some d) (ho : s.domOn d = true) :
    s.checkWord p false x = (St.OK, none) := by
  obtain ⟨hi, hm, hps, hna, hro⟩ := amem_plain h
  have hw : s.wordWritable x = true := by
    rw [State.wordWritable, hi, hm, hps, hna, hro]
    rfl
  rw [State.checkWord, hd]
  dsimp only
  rw [ho, hw, (amem_unmapped h).1]
  rfl

theorem setMemWord_waits (s : State) (p : Fin 4) (ws : List WaitOp) (x : Nat) (w : Word) :
    (s.waits p ws).setMemWord x w = (s.setMemWord x w).waits p ws := by
  have hb : ∀ (bs : List Byte) (t : State) (y : Nat), (t.waits p ws).setBytes y bs = (t.setBytes y bs).waits p ws := by
    intro bs
    induction bs with
    | nil => exact fun _ _ => rfl
    | cons b bs ih => exact fun t y => ih (t.setByte y b) (y + 1)
  exact hb _ _ _

/-- A direct write of one word of audio memory. -/
theorem directRun_amem {w : WordOp} {data : List Byte} (h : 0x60000000 ≤ w.addr ∧ w.addr < 0x60100000) (hc : s.change = none)
    (hd : addrDomain w.addr = some d) (ho : s.domOn d = true) (hdata : s.writeData [w] = (data, s)) (down : Option Nat) :
    s.directRun p [w] down = (opOk data, s.setMemWord w.addr (word (w.value s))) := by
  obtain ⟨hi, hm, -⟩ := amem_plain h
  obtain ⟨-, hv, hg, hf, htk, -⟩ := amem_unmapped h
  have himp : s.implicitWord w = false := by
    simp only [State.implicitWord, Adr.PWR_DOM_CTRL, Adr.FAB_SWAP, Bool.or_eq_false_iff, Bool.and_eq_false_iff, decide_eq_false_iff_not,
      beq_eq_false_iff_ne]
    omega
  have hap : s.applyDirect p w.addr (w.value s) = s.setMemWord w.addr (word (w.value s)) := by
    rw [State.applyDirect, if_neg (by simp only [Adr.FAB_SWAP]; omega), hf, if_neg Bool.false_ne_true, htk, if_neg Bool.false_ne_true,
      State.applyWrite, hi, if_neg Bool.false_ne_true, hm, if_neg Bool.false_ne_true]
  have hr : resetBegan s (s.setMemWord w.addr (word (w.value s))) = false := by
    rw [resetBegan, show (s.setMemWord w.addr (word (w.value s))).resetHold = s.resetHold from rfl]
    cases s.resetHold <;> rfl
  have hws : State.applyWords p [w] s = (false, s.setMemWord w.addr (word (w.value s))) := by
    rw [State.applyWords]
    dsimp only
    rw [State.grpShortAt, hg]
    dsimp only
    rw [if_neg Bool.false_ne_true, hap, hr, if_neg Bool.false_ne_true, State.applyWords]
  have hbump : ∀ t : State, t.bumpWords p [w] = t := by
    intro t
    rw [State.bumpWords]
    by_cases hfi : (!isCrcSetting w.addr || t.crcOwner == some (.host p)) = true
    · simp [hv, hfi]
    · simp [hfi]
  have hck : (s.setMemWord w.addr (word (w.value s))).boot.check = s.boot.check := rfl
  rw [State.directRun]
  simp only [List.any_cons, List.any_nil, Bool.or_false, wordBlocked_amem h hc, Bool.false_eq_true, if_false, State.firstBad,
    checkWord_amem h hd ho, if_true, himp, hdata, hws, hr, hck, hbump]
  refine if_neg ?_
  cases s.boot.check <;> simp

theorem wr_amem {b0 b1 b2 b3 : Byte} (h : s.Hears p) (hc : s.change = none) (ha : a.toNat % 4 = 0) (h1 : 0x60000000 ≤ a.toNat)
    (h2 : a.toNat < 0x60100000) (hd : addrDomain a.toNat = some d) (ho : s.domOn d = true) :
    exec (.wr p a 0 [b0, b1, b2, b3]) s = .next ((s.setBytes a.toNat [b0, b1, b2, b3]).gives p 0x11 0x00 []) := by
  have hm : a.toNat % 2 ^ 32 = a.toNat := Nat.mod_eq_of_lt a.isLt
  have hset : ∀ u : State, u.setMemWord a.toNat (word (ofBytesLE [b0, b1, b2, b3])) = u.setBytes a.toNat [b0, b1, b2, b3] := by
    intro u
    rw [State.setMemWord, bytesLE_ofBytesLE]
  refine next_eq (submit_gives (op := .wr p a 0 [b0, b1, b2, b3]) h rfl (.inl (by decide)) rfl h.settled.bibs fun ws => ?_)
  refine (if_neg (by simp [ha])).trans ?_
  rw [dataWords_one, hm, State.writeRun, if_pos (show (0 : BitVec 16).toNat = 0 from rfl), ← hset, ← setMemWord_waits]
  exact directRun_amem (s := s.waits p ws) (w := ⟨a.toNat, none, ofBytesLE [b0, b1, b2, b3]⟩) ⟨h1, h2⟩ hc hd ho rfl none

theorem masked_word (x m v : Word) :
    word (x.toNat - (x.toNat &&& m.toNat) + (v.toNat &&& m.toNat)) = (x &&& ~~~m) ||| (v &&& m) := by
  have h1 : (x &&& ~~~m) + (v &&& m) = (x &&& ~~~m) ||| (v &&& m) := BitVec.add_eq_or_of_and_eq_zero _ _ (by ext i; simp; grind)
  have hle : x.toNat &&& m.toNat ≤ x.toNat := Nat.and_le_left
  rw [← h1, ← bitVec_sub_and]
  refine BitVec.eq_of_toNat_eq ?_
  simp only [word, BitVec.toNat_ofNat, BitVec.toNat_add, BitVec.toNat_sub, BitVec.toNat_and]
  have := x.isLt
  omega

theorem wordNow_amem {x : Nat} (h : 0x60000000 ≤ x ∧ x < 0x60100000) (s : State) : s.wordNow x = (s.memWord x).toNat := by
  obtain ⟨hi, hm, -⟩ := amem_plain h
  rw [State.wordNow, hi, if_neg Bool.false_ne_true, hm, if_neg Bool.false_ne_true]

theorem appliedBytes_on {x : Nat} (hd : addrDomain x = some d) (ho : s.domOn d = true) : s.appliedBytes x = (bytesLE 4 (s.wordNow x), s) := by
  have hp : s.dom d = .on := by simpa [State.domOn] using ho
  rw [State.appliedBytes, hd, Option.map_some, hp]

theorem rmw_amem {m x : Word} (h : s.Hears p) (hc : s.change = none) (ha : a.toNat % 4 = 0) (h1 : 0x60000000 ≤ a.toNat)
    (h2 : a.toNat < 0x60100000) (hd : addrDomain a.toNat = some d) (ho : s.domOn d = true) :
    exec (.rmw p a 0 m x) s = .next ((s.setMemWord a.toNat ((s.memWord a.toNat &&& ~~~m) ||| (x &&& m))).gives p 0x12 0x00
      (bytesLE 4 (s.memWord a.toNat).toNat)) := by
  refine next_eq (submit_gives (op := .rmw p a 0 m x) h rfl (.inl (by decide)) rfl h.settled.bibs fun ws => ?_)
  refine (if_neg (not_not.2 ha)).trans ?_
  have hnow : (s.waits p ws).wordNow a.toNat = (s.memWord a.toNat).toNat := wordNow_amem ⟨h1, h2⟩ (s.waits p ws)
  have hdata : (s.waits p ws).writeData [⟨a.toNat, some m.toNat, x.toNat⟩] = (bytesLE 4 (s.memWord a.toNat).toNat, s.waits p ws) := by
    rw [← hnow]
    exact appliedBytes_on hd ho
  have hv : word (WordOp.value ⟨a.toNat, some m.toNat, x.toNat⟩ (s.waits p ws)) = (s.memWord a.toNat &&& ~~~m) ||| (x &&& m) := by
    rw [← masked_word, ← hnow]
    rfl
  rw [State.writeRun, if_pos (show (0 : BitVec 16).toNat = 0 from rfl), ← setMemWord_waits, ← hv]
  exact directRun_amem (s := s.waits p ws) (w := ⟨a.toNat, some m.toNat, x.toNat⟩) ⟨h1, h2⟩ hc hd ho hdata none

theorem wr_bad {bs : List Byte} (h : s.Hears p) (hb : a.toNat % 4 ≠ 0 ∨ bs.length % 4 ≠ 0 ∨ bs = []) :
    exec (.wr p a v bs) s = .next (s.gives p 0x11 0x15 []) :=
  next_eq (submit_gives (op := .wr p a v bs) h rfl (.inl (by decide)) rfl h.settled.bibs fun _ => if_pos hb)

/-! ## Bibs of other ports (R347) -/

theorem writeRun_unknown (hv : v ≠ 0) (ho : s.ownBib p v.toNat = none) (ws : List WordOp) (down : Option Nat) :
    s.writeRun p v.toNat ws down = s.writeRefused ws St.UNKNOWN_BIB := by
  have hn : v.toNat ≠ 0 := fun e => hv (BitVec.eq_of_toNat_eq e)
  rw [State.writeRun, if_neg hn, State.stagedRun, ho]

theorem dataWords_plain : ∀ (bs : List Byte) (x : Nat), ∀ w ∈ dataWords x bs, w.mask = none
  | b0 :: b1 :: b2 :: b3 :: bs, x, w, h => by
    rw [dataWords, List.mem_cons] at h
    obtain rfl | h := h
    · rfl
    · exact dataWords_plain bs (x + 4) w h
  | [], _, _, h => by simp [dataWords] at h
  | [_], _, _, h => by simp [dataWords] at h
  | [_, _], _, _, h => by simp [dataWords] at h
  | [_, _, _], _, _, h => by simp [dataWords] at h

/-- A plain write returns no data. -/
theorem writeRefused_plain {ws : List WordOp} (h : ∀ w ∈ ws, w.mask = none) (s : State) (st : Nat) : s.writeRefused ws st = (.done st [], s) := by
  have hd : s.writeData ws = ([], s) := by
    unfold State.writeData
    split
    · next heq => exact absurd (h _ (.head _)) (by simp)
    · rfl
  rw [State.writeRefused, hd]

theorem wr_unknown {bs : List Byte} (h : s.Hears p) (ha : a.toNat % 4 = 0) (hl : bs.length % 4 = 0) (hn : bs ≠ []) (hv : v ≠ 0)
    (ho : s.ownBib p v.toNat = none) : exec (.wr p a v bs) s = .next (s.gives p 0x11 0x37 []) := by
  refine next_eq (submit_gives (op := .wr p a v bs) h rfl (.inl (by decide)) rfl h.settled.bibs fun ws => ?_)
  refine (if_neg (by simp [ha, hl, hn])).trans ?_
  rw [writeRun_unknown (s := s.waits p ws) hv ho, writeRefused_plain (dataWords_plain bs a.toNat)]

theorem rmw_unknown {m x : Word} (h : s.Hears p) (ha : a.toNat % 4 = 0) (hv : v ≠ 0) (ho : s.ownBib p v.toNat = none)
    (hd : addrDomain a.toNat = some d) (hon : s.domOn d = true) :
    exec (.rmw p a v m x) s = .next (s.gives p 0x12 0x37 (bytesLE 4 (s.wordNow a.toNat))) := by
  refine next_eq (submit_gives (op := .rmw p a v m x) h rfl (.inl (by decide)) rfl h.settled.bibs fun ws => ?_)
  refine (if_neg (not_not.2 ha)).trans ?_
  have hnow : (s.waits p ws).wordNow a.toNat = s.wordNow a.toNat := by
    unfold State.wordNow
    rw [pageWord_waits]
    rfl
  have hb : (s.waits p ws).appliedBytes a.toNat = (bytesLE 4 (s.wordNow a.toNat), s.waits p ws) := by
    rw [appliedBytes_on (s := s.waits p ws) hd hon, hnow]
  rw [writeRun_unknown (s := s.waits p ws) hv ho, State.writeRefused]
  exact congrArg (fun x : List Byte × State => (OpEnd.done St.UNKNOWN_BIB x.1, x.2)) hb

theorem abortRun_unknown (h : s.ownBib p v.toNat = none) : s.abortRun p v.toNat = (.done St.UNKNOWN_BIB [], s) := by
  rw [State.abortRun, h]

theorem statusRun_unknown (h : s.ownBib p v.toNat = none) (r : Bool) : s.statusRun p v.toNat r = (.done St.UNKNOWN_BIB (unknown20 v.toNat), s) := by
  rw [State.statusRun, h]

theorem txn_unknown {mode : Byte} {time : Count} {r : Bool} (h : s.Hears p) (ho : s.ownBib p v.toNat = none) :
    exec (.txnCommit p v mode time) s = .next (s.gives p 0x21 0x37 (bytesLE 2 v.toNat ++ List.replicate 18 0))
      ∧ exec (.txnAbort p v) s = .next (s.gives p 0x22 0x37 [])
      ∧ exec (.txnStatus p v r) s = .next (s.gives p 0x23 0x37 (bytesLE 2 v.toNat ++ List.replicate 18 0)) :=
  ⟨txnCommit_unknown h ho,
    next_eq (submit_gives (op := .txnAbort p v) h rfl (.inl (by decide)) rfl h.settled.bibs fun ws => abortRun_unknown (s := s.waits p ws) ho),
    next_eq (submit_gives (op := .txnStatus p v r) h rfl (.inl (by decide)) rfl h.settled.bibs fun ws =>
      statusRun_unknown (s := s.waits p ws) ho r)⟩

theorem ownBib_foreign {x : Nat} (h : ∀ j : Fin 64, (s.bibAt j).value = x → (s.bibAt j).port ≠ p.val) : s.ownBib p x = none := by
  refine List.find?_eq_none.2 fun j hj => ?_
  have hf := h ⟨j, List.mem_range.1 hj⟩
  simp only [Bool.and_eq_true, beq_iff_eq, not_and]
  exact fun hc => absurd hc.2 (hf hc.1)

/-- Settles O54. -/
theorem foreignBib : Obligations.ForeignBib := by
  unfold Obligations.ForeignBib
  refine ⟨fun p k s t h hm ht => ⟨?_, ?_, txnOpen_after h hm ht⟩, fun _ _ _ h => ownBib_foreign h,
    fun _ _ _ _ _ h ha hl hn hv ho => wr_unknown h ha hl hn hv ho, fun _ _ _ _ _ _ _ h ha hv ho hd hon => rmw_unknown h ha hv ho hd hon,
    fun _ _ _ _ _ _ h ho => txn_unknown h ho⟩
  · rw [(bibAt_takeBib ht).1]
    rfl
  · rw [(bibAt_takeBib ht).1]
    rfl

/-! ## What a read of one word gives -/

theorem readWord_unmapped {x : Nat} (h : addrDomain x = none) : s.readWord p x = (0x23, 0, s.logAccess .unmapped p false x) := by
  rw [State.readWord, h]

theorem readWord_down {x : Nat} (hd : addrDomain x = some d) (ho : s.domOn d = false) :
    s.readWord p x = (0x20, (if inPages x then 0xD0FF0000 + pageOf x else 0xD0FF0800 + d), s.logAccess .domainDown p false x) := by
  rw [State.readWord, hd]
  dsimp only
  rw [ho, if_pos (by decide)]
  rfl

theorem readWord_closed {x : Nat} (hd : addrDomain x = some d) (ho : s.domOn d = true) (hi : inPages x = false) (hn : memNoAccess x = true) :
    s.readWord p x = (0x22, 0, s.logAccess .noAccess p false x) := by
  rw [State.readWord, hd]
  dsimp only
  rw [ho, if_neg (by decide), hi, if_neg Bool.false_ne_true, if_pos hn]

/-- Settles O29. -/
theorem accessOperations : Obligations.AccessOperations := by
  unfold Obligations.AccessOperations
  refine ⟨fun p s h => ?_, fun _ _ _ _ h hb => rd_bad h hb, fun _ _ _ _ h ha h1 h2 hd ho => rd_amem h ha h1 h2 hd ho,
    fun _ _ _ _ h ha hi hd ho => rd_page h ha hi hd ho, fun _ _ _ _ h ht => clearRc_after h ht,
    fun _ v _ _ s hr hf hv => ⟨bitsAt_stored hr s v hf hv, fun ha _ h1 h2 => bitOf_stored_cleared hr s v hf hv ha h1 h2,
      bitsAt_stored_kept hr s v hf hv⟩,
    fun _ v _ _ s hr hb hf => bitOf_stored_reserved hr s v hb hf, fun _ _ _ h => readWord_unmapped h,
    fun _ _ _ _ hd ho => readWord_down hd ho, fun _ _ _ _ hd ho hi hn => readWord_closed hd ho hi hn,
    fun _ _ _ _ _ _ _ _ h hc ha h1 h2 hd ho => wr_amem h hc ha h1 h2 hd ho, fun _ _ _ _ _ h hb => wr_bad h hb,
    fun _ _ _ _ _ _ h hc ha h1 h2 hd ho => rmw_amem h hc ha h1 h2 hd ho, fun _ _ _ _ _ _ _ _ h ha hv ho => ?_⟩
  · exact next_eq (submit_gives (op := .nop p) h rfl (.inl (by decide)) rfl h.settled.bibs fun _ => rfl)
  · exact wr_unknown h ha (by simp) (List.cons_ne_nil _ _) hv ho

end Sys2Proof.Machine
end

section
/-!
PROOFS. The end of a lease while frames of the port are still to run (14_control_ports.md R344): a statement that fails.
-/
namespace Sys2Proof.Machine

/-- `awake` with an OPEN session on port 0 whose frames get no response: the oldest, of no operation, is over, and the next is to claim
page 3. -/
def expiringWithFrames : State :=
  awake.updPort 0 fun q => { q with session := .opened, queued := 0, held := 16, inflight := 0,
                                    frames := [⟨0, [], true, 1⟩, ⟨1, [.claim 0 3], true, 2⟩] }

theorem expiringWithFrames_settled : expiringWithFrames.Settled := by constructor <;> decide +kernel

/-- The next frame starts with the expiry, and its operation runs. -/
theorem expiringWithFrames_claims : (expiringWithFrames.sessionExpire 0).pump.claims ≠ expiringWithFrames.claims := by decide +kernel

/-- Refutes O39: the clause on `LEASE_EXPIRY` leaves out frames of the port that are still to run; one of them may claim a page. -/
theorem not_sessionCommands : ¬ Obligations.SessionCommands := by
  unfold Obligations.SessionCommands
  rintro ⟨-, -, -, -, -, -, expiry, -⟩
  obtain ⟨t, ht, -, hc, -⟩ := expiry 0 expiringWithFrames rfl expiringWithFrames_settled rfl rfl rfl
  have e : exec (.leaseExpiry 0) expiringWithFrames = .next (expiringWithFrames.sessionExpire 0).pump := next_pos ⟨rfl, rfl, rfl⟩
  rw [← Host.Outcome.next.inj (e.symm.trans ht)] at hc
  exact expiringWithFrames_claims hc

end Sys2Proof.Machine
end

section
/-!
PROOFS. Frames: their checks, acceptance, responses and delivery (14_control_ports.md R325–R341).
-/
namespace Sys2Proof.Machine

variable {s t : State} {p q : Fin 4} {seq ack : Nat} {body bs : List Byte} {a : TargetAddr}

/-! ## The rings of commands and responses (R373) -/

theorem ringFrame_eq (s : State) (i : Nat) :
    s.ringFrame i = ((s.freeBytes 16).2.setBytes ((s.ring i).entryAddr i (s.ring i).prod) (s.freeBytes 16).1).ringGive i 1 := rfl

theorem regs_ringFrame (s : State) (i : Nat) : (s.ringFrame i).regs = s.regs := by
  rw [ringFrame_eq, State.ringGive]
  generalize (s.freeBytes 16).1 = bs
  exact setBytes_regs bs _ _

theorem syscnt_setBytes (bs : List Byte) : ∀ (s : State) (a : Nat), (s.setBytes a bs).syscnt = s.syscnt := by
  induction bs with
  | nil => exact fun _ _ => rfl
  | cons b l ih => exact fun s a => (ih _ _).trans rfl

theorem syscnt_ringFrame (s : State) (i : Nat) : (s.ringFrame i).syscnt = s.syscnt := by
  rw [ringFrame_eq, State.ringGive]
  generalize (s.freeBytes 16).1 = bs
  exact syscnt_setBytes bs _ _

theorem txn_ringFrame (s : State) (i : Nat) : (s.ringFrame i).txn = s.txn := by
  rw [ringFrame_eq, State.ringGive]
  generalize (s.freeBytes 16).1 = bs
  exact setBytes_txn bs _ _

theorem ring_ringFrame (s : State) {i : Nat} (h : i < 32) : (s.ringFrame i).ring i = { s.ring i with prod := (s.ring i).prod + 1 } := by
  rw [ringFrame_eq, State.ringGive, ring_updRing_same _ _ h, ring_setBytes]
  rfl

/-! ## Refusals (R341, Table 14.7) -/

theorem crcRun_regs (s : State) (i : Fin 26) (ds : List Byte) : (s.crcRun i ds).regs = s.regs := rfl

theorem seal_eq (s : State) (p : Fin 4) (seq st : Nat) (rs : List OpResult) : ∃ (i : Fin 26) (ds : List Byte),
    (s.seal p seq st rs).2 = s.crcRun i ds := ⟨_, _, rfl⟩

theorem seal_quiet (s : State) (p : Fin 4) (seq st : Nat) (rs : List OpResult) : Quiet (fun _ => False) s (s.seal p seq st rs).2 :=
  .congr (.refl _ s) rfl rfl rfl

theorem ports_seal (s : State) (p : Fin 4) (seq st : Nat) (rs : List OpResult) : (s.seal p seq st rs).2.ports = s.ports := rfl

theorem refuse_eq (s : State) (p : Fin 4) (seq st : Nat) {f : Fld} (h : refusalCount p st = some f) :
    s.refuse p seq st = ((s.countSat f 1).seal p seq st []).2.sendUncounted p ⟨seq, ((s.countSat f 1).seal p seq st []).1, false⟩ := by
  rw [State.refuse, h]

theorem uartOverlength_after (h : s.portLive 3 = true) : After (exec .uartOverlength s) fun t =>
    t.fld (Fd.CP_ERR_CNT2_BAD_LEN 3) = satAdd 8 (s.fld (Fd.CP_ERR_CNT2_BAD_LEN 3)) 1 ∧ t.ports[3].held = s.ports[3].held
      ∧ t.ports[3].queued = s.ports[3].queued ∧ t.ports[3].next = s.ports[3].next
      ∧ t.ports[3].out.length = (s.ports[3].out.filter (·.counted)).length + 1 ∧ Quiet (· = Adr.CP_ERR_CNT2 3) s t := by
  have hf : (s.freeBytes 0).2 = s := rfl
  obtain ⟨x, u, hx⟩ : ∃ x u, s.free 65536 = (x, u) := ⟨_, _, rfl⟩
  have hu : u = { s with fresh := s.fresh + 1 } := (congrArg Prod.snd hx).symm
  have e : exec .uartOverlength s = .next (u.refuse 3 x St.BAD_LEN) := next_eq ((if_pos h).trans (by
    rw [State.refuseRaw, State.seqOf, if_neg (by simp), hx]))
  have hq : Quiet (· = Adr.CP_ERR_CNT2 3) s u := .congr (.refl _ s) (by rw [hu]) (by rw [hu]) (by rw [hu])
  rw [refuse_eq u 3 x St.BAD_LEN (f := Fd.CP_ERR_CNT2_BAD_LEN 3) rfl] at e
  have hp : ((u.countSat (Fd.CP_ERR_CNT2_BAD_LEN 3) 1).seal 3 x St.BAD_LEN []).2.ports = s.ports := by
    rw [ports_seal]
    exact (show (u.countSat (Fd.CP_ERR_CNT2_BAD_LEN 3) 1).ports = u.ports from rfl).trans (by rw [hu])
  have hs : Quiet (· = Adr.CP_ERR_CNT2 3) s ((u.countSat (Fd.CP_ERR_CNT2_BAD_LEN 3) 1).seal 3 x St.BAD_LEN []).2 :=
    (hq.countSat 1 rfl).congr rfl rfl rfl
  have hfl : ((u.countSat (Fd.CP_ERR_CNT2_BAD_LEN 3) 1).seal 3 x St.BAD_LEN []).2.fld (Fd.CP_ERR_CNT2_BAD_LEN 3)
      = satAdd 8 (s.fld (Fd.CP_ERR_CNT2_BAD_LEN 3)) 1 :=
    (fld_countSat_same u (Fd.CP_ERR_CNT2_BAD_LEN 3) 1 (by decide)).trans (by rw [hu]; rfl)
  generalize ((u.countSat (Fd.CP_ERR_CNT2_BAD_LEN 3) 1).seal 3 x St.BAD_LEN []).2 = w at *
  have hq (o : List Response) : (w.updPort 3 fun q => { q with out := o }).ports[(3 : Fin 4)] = { s.ports[(3 : Fin 4)] with out := o } := by
    rw [port_updPort_same, hp]
  have ho : w.ports[(3 : Fin 4)].out = s.ports[(3 : Fin 4)].out := by rw [hp]
  rw [State.sendUncounted, updPort_congr (g := fun q => { q with out := (s.ports[(3 : Fin 4)].out.filter fun x => x.counted) ++ [_] }) (by rw [← ho])] at e
  refine .of_eq e ⟨hfl, ?_, ?_, ?_, ?_, hs.congr rfl rfl rfl⟩
  · exact (congrArg Port.held (hq _)).trans rfl
  · exact (congrArg Port.queued (hq _)).trans rfl
  · exact (congrArg Port.next (hq _)).trans rfl
  · exact (congrArg (fun q : Port => q.out.length) (hq _)).trans List.length_append

/-! ## The checks in order (Table 14.7) -/

theorem receive_whole (hd : bs.head? = some 0xD5) (hl : ofBytesLE ((bs.drop 6).take 2) ≤ 256)
    (hn : bs.length = 10 + ofBytesLE ((bs.drop 6).take 2)) (s : State) : s.receive 2 bs =
      if ofBytesLE (bs.drop (bs.length - 2)) ≠ (s.crcRun 2 (bs.take (bs.length - 2))).crcs[2].result then
        (s.crcRun 2 (bs.take (bs.length - 2))).refuseRaw 2 bs St.BAD_CRC
      else (s.crcRun 2 (bs.take (bs.length - 2))).wholeFrame 2 (ofBytesLE ((bs.drop 1).take 1)) (ofBytesLE ((bs.drop 2).take 2))
        (ofBytesLE ((bs.drop 4).take 2)) ((bs.drop 8).take (bs.length - 10)) := by
  generalize hlen : ofBytesLE ((bs.drop 6).take 2) = len at *
  have ht : trailerLen 2 = 2 := rfl
  have hm : maxBody 2 = 256 := rfl
  have hf : bs.take (8 + len + trailerLen 2) = bs := List.take_of_length_le (by omega)
  have h2 : bs.length - 2 = 8 + len := by omega
  have h10 : bs.length - 10 = len := by omega
  rw [State.receive, hlen]
  dsimp only
  rw [if_neg (show ¬ (2 : Fin 4) = 3 by decide), hf, if_neg (by omega), if_neg (by simp [ht, hd]; omega), h2, h10]
  rfl

theorem commandFrame_receives (hp : s.portLive 2 = true) (ha : s.answersTo 2 a = true) (h8 : 8 ≤ bs.length) (hb : bs.length ≤ 266) :
    exec (.commandFrame 2 bs a) s = .next (s.receive 2 bs).pump := by
  have hne : bs.isEmpty = false := by
    cases bs with
    | nil => simp at h8
    | cons b l => rfl
  refine (next_pos (by rw [hp, ha]; rfl)).trans ?_
  rw [State.transfer, if_neg (by decide), if_pos rfl, hne, if_neg Bool.false_ne_true, List.take_of_length_le hb]

theorem frameSteps_checked {ops : List BodyOp} (hl : s.ports[p].last ≠ some ⟨seq, body⟩) (hb : parseBody body.length body = some ops)
    (hh : isHello (some ops) = false) (hf : s.bodyFault p (some ops) = none) : s.frameSteps p seq body =
      if 32768 ≤ (seq + 65536 - s.ports[p].next) % 65536 then s.refuse p seq St.STALE
      else if (seq + 65536 - s.ports[p].next) % 65536 ≠ 0 then s.refuse p seq St.BAD_SEQ
      else if s.ports[p].held = 0 then s.refuse p seq St.BUSY
      else s.acceptFrame p seq body (ops.map fun o => o.instr p seq) := by
  rw [State.frameSteps]
  dsimp only
  rw [if_neg (fun h => hl h.2), hb, hf]
  dsimp only
  split
  · next heq =>
    rw [Option.some.inj heq] at hh
    exact absurd hh (by simp [isHello])
  · next heq => rw [Option.some.inj heq]
  · next heq => cases heq

/-! ## An accepted frame (R325, R339) -/

/-- A port with a frame more, at the end of its queue; one credit fewer is with the host. -/
def Port.takes (q : Port) (mark seq : Nat) (body : List Byte) (ops : List Instr) (turn : Nat) : Port :=
  { q with lease := q.lease, leaseMark := mark, leaseLeft := msCounts q.lease, leaseLow := false, held := q.held - 1, queued := q.queued + 1,
           next := (seq + 1) % 65536, last := some ⟨seq, body⟩, kept := none, replayDue := false,
           frames := q.frames ++ [⟨seq, ops, false, turn⟩] }

/-- A port whose first frame runs. -/
def Port.starts (q : Port) : Port :=
  match q.frames with
  | f :: _ => { q with results := [], waiting := q.waiting ++ f.ops.map fun op => ⟨op, .behind, true, f.turn⟩ }
  | [] => { q with results := [] }

theorem startFrame_eq (s : State) (p : Fin 4) : s.startFrame p = s.updPort p Port.starts := rfl

/-- The count of frames received and the entry of an accepted frame. -/
def State.framed (s : State) (p : Fin 4) : State := (s.countWrap (Fd.CP_RX_CNT_FRAMES p) 1).ringFrame p

theorem ports_framed (s : State) (p : Fin 4) : (s.framed p).ports = s.ports := by
  rw [State.framed, State_ringFrame_ports, State_countWrap_ports]

theorem syscnt_countWrap (s : State) (f : Fld) (k : Nat) : (s.countWrap f k).syscnt = s.syscnt := rfl

theorem ring_countWrap (s : State) (f : Fld) (k i : Nat) : (s.countWrap f k).ring i = s.ring i := rfl

theorem syscnt_framed (s : State) (p : Fin 4) : (s.framed p).syscnt = s.syscnt := by
  rw [State.framed, syscnt_ringFrame, syscnt_countWrap]

/-- A port with the lease that a frame starts again. -/
def Port.leased (q : Port) (mark ms : Nat) : Port :=
  { q with lease := ms, leaseMark := mark, leaseLeft := msCounts ms, leaseLow := false }

theorem leaseStart_eq (s : State) (p : Fin 4) (ms : Nat) : s.leaseStart p ms = s.updPort p (·.leased s.syscnt ms) := rfl

/-- A port with the frame that it accepts at the end of its queue. -/
def Port.enters (q : Port) (seq : Nat) (body : List Byte) (ops : List Instr) (turn : Nat) : Port :=
  { q with held := q.held - 1, queued := q.queued + 1, next := (seq + 1) % 65536, last := some ⟨seq, body⟩, kept := none,
           replayDue := false, frames := q.frames ++ [⟨seq, ops, false, turn⟩] }

theorem enters_leased (q : Port) (mark seq : Nat) (body : List Byte) (ops : List Instr) (turn : Nat) :
    (q.leased mark q.lease).enters seq body ops turn = q.takes mark seq body ops turn := rfl

theorem acceptFrame_steps (s : State) (p : Fin 4) (seq : Nat) (body : List Byte) (ops : List Instr) : s.acceptFrame p seq body ops =
    if s.ports[p].frames.isEmpty then
      (((s.framed p).leaseStart p s.ports[p].lease).updPort p (·.enters seq body ops s.nextTurn)).startFrame p
    else ((s.framed p).leaseStart p s.ports[p].lease).updPort p (·.enters seq body ops s.nextTurn) := rfl

theorem acceptFrame_eq (s : State) (p : Fin 4) (seq : Nat) (body : List Byte) (ops : List Instr) : s.acceptFrame p seq body ops =
    (s.framed p).updPort p fun q => if s.ports[p].frames.isEmpty then (q.takes s.syscnt seq body ops s.nextTurn).starts
      else q.takes s.syscnt seq body ops s.nextTurn := by
  have hu : ((s.framed p).leaseStart p s.ports[p].lease).updPort p (·.enters seq body ops s.nextTurn)
      = (s.framed p).updPort p fun q => q.takes s.syscnt seq body ops s.nextTurn := by
    rw [leaseStart_eq, updPort_updPort, syscnt_framed]
    refine updPort_congr ?_
    rw [ports_framed]
    exact enters_leased _ _ _ _ _ _
  rw [acceptFrame_steps, hu]
  split
  · rw [startFrame_eq, updPort_updPort]
  · rfl

theorem starts_frames (q : Port) : q.starts.frames = q.frames := by
  unfold Port.starts
  split <;> rfl

theorem starts_counts (q : Port) : q.starts.held = q.held ∧ q.starts.queued = q.queued ∧ q.starts.inflight = q.inflight
    ∧ q.starts.next = q.next := by
  unfold Port.starts
  split <;> exact ⟨rfl, rfl, rfl, rfl⟩

theorem starts_cons {q : Port} {f : CmdFrame} {fs : List CmdFrame} (h : q.frames = f :: fs) : q.starts =
    { q with results := [], waiting := q.waiting ++ f.ops.map fun op => ⟨op, .behind, true, f.turn⟩ } := by
  simp only [Port.starts, h]

theorem starts_nil {q : Port} (h : q.frames = []) : q.starts = { q with results := [] } := by
  simp only [Port.starts, h]

theorem ring_updPort (s : State) (p : Fin 4) (f : Port → Port) (i : Nat) : (s.updPort p f).ring i = s.ring i := rfl

theorem port_acceptFrame (s : State) (p : Fin 4) (seq : Nat) (body : List Byte) (ops : List Instr) :
    (s.acceptFrame p seq body ops).ports[p] = (if s.ports[p].frames.isEmpty then (s.ports[p].takes s.syscnt seq body ops s.nextTurn).starts
      else s.ports[p].takes s.syscnt seq body ops s.nextTurn) := by
  rw [acceptFrame_eq, port_updPort_same, ports_framed]

/-- What an accepted frame leaves in the counts of its port. -/
theorem acceptFrame_counts (s : State) (p : Fin 4) (seq : Nat) (body : List Byte) (ops : List Instr) :
    (s.acceptFrame p seq body ops).ports[p].held = s.ports[p].held - 1
      ∧ (s.acceptFrame p seq body ops).ports[p].queued = s.ports[p].queued + 1
      ∧ (s.acceptFrame p seq body ops).ports[p].inflight = s.ports[p].inflight
      ∧ (s.acceptFrame p seq body ops).ports[p].next = (seq + 1) % 65536
      ∧ (s.acceptFrame p seq body ops).ports[p].frames = s.ports[p].frames ++ [⟨seq, ops, false, s.nextTurn⟩] := by
  rw [port_acceptFrame]
  split
  · rw [starts_frames]
    obtain ⟨hh, hq, hi, hn⟩ := starts_counts (s.ports[p].takes s.syscnt seq body ops s.nextTurn)
    exact ⟨hh, hq, hi, hn, rfl⟩
  · exact ⟨rfl, rfl, rfl, rfl, rfl⟩

theorem acceptFrame_starts (s : State) (p : Fin 4) (seq : Nat) (body : List Byte) (ops : List Instr) (h : s.ports[p].frames = []) :
    (s.acceptFrame p seq body ops).ports[p].results = []
      ∧ (s.acceptFrame p seq body ops).ports[p].waiting = s.ports[p].waiting ++ ops.map fun op => ⟨op, .behind, true, s.nextTurn⟩ := by
  have hf : (s.ports[p].takes s.syscnt seq body ops s.nextTurn).frames = [⟨seq, ops, false, s.nextTurn⟩] := by
    rw [Port.takes, h]
    rfl
  rw [port_acceptFrame, h, if_pos List.isEmpty_nil, starts_cons hf]
  exact ⟨rfl, rfl⟩

theorem acceptFrame_regs (s : State) (p : Fin 4) (seq : Nat) (body : List Byte) (ops : List Instr) :
    (s.acceptFrame p seq body ops).regs = (s.countWrap (Fd.CP_RX_CNT_FRAMES p) 1).regs := by
  rw [acceptFrame_eq, updPort_regs, State.framed, regs_ringFrame]

theorem acceptFrame_ring (s : State) (p : Fin 4) (seq : Nat) (body : List Byte) (ops : List Instr) :
    (s.acceptFrame p seq body ops).ring p = { s.ring p with prod := (s.ring p).prod + 1 } := by
  rw [acceptFrame_eq, ring_updPort, State.framed, ring_ringFrame _ (by omega), ring_countWrap]

theorem acceptFrame_others (s : State) {p q : Fin 4} (seq : Nat) (body : List Byte) (ops : List Instr) (h : q ≠ p) :
    (s.acceptFrame p seq body ops).ports[q] = s.ports[q] := by
  rw [acceptFrame_eq, port_updPort_ne _ _ h, ports_framed]

theorem countWrap_word (s : State) (f : Fld) (h : f.lo = 0 ∧ f.hi = 31) : (s.countWrap f 1).fld f = (s.fld f + 1) % 2 ^ 32 := by
  rw [State.countWrap, fld_setFld_same _ _ _ (by omega), Fld.width, h.1, h.2]

theorem acceptFrame_after (s : State) (p : Fin 4) (seq : Nat) (body : List Byte) (ops : List Instr) :
    (s.acceptFrame p seq body ops).fld (Fd.CP_RX_CNT_FRAMES p) = (s.fld (Fd.CP_RX_CNT_FRAMES p) + 1) % 2 ^ 32
      ∧ ∀ a, a ≠ Adr.CP_RX_CNT p → (s.acceptFrame p seq body ops).reg a = s.reg a := by
  have hr (a : Nat) : (s.acceptFrame p seq body ops).reg a = (s.countWrap (Fd.CP_RX_CNT_FRAMES p) 1).reg a := by
    rw [State.reg, acceptFrame_regs]
    rfl
  exact ⟨(fld_of_reg (hr _)).trans (countWrap_word s _ ⟨rfl, rfl⟩), fun a ha => (hr a).trans (reg_setFld_ne _ _ _ (Ne.symm ha))⟩

end Sys2Proof.Machine
end

section
/-!
PROOFS. Responses and their delivery (14_control_ports.md R325–R341).
-/
namespace Sys2Proof.Machine

variable {s t : State} {p q : Fin 4} {a : TargetAddr} {f g : CmdFrame} {rs : List OpResult}

/-! ## Responses (R339) -/

/-- A port whose first frame is answered: a credit more is on its way to the host. -/
def Port.answered (q : Port) (seq : Nat) : Port :=
  { q with queued := q.queued - 1, inflight := q.inflight + 1, flying := q.flying ++ [seq] }

/-- The entries of an answered frame in the rings of its port, and its counts. -/
def State.answered (s : State) (p : Fin 4) (seq : Nat) : State :=
  ((s.updRing p fun r => { r with cons := r.cons + 1 }).ringFrame (4 + p)).updPort p (·.answered seq)

/-- `t` is `s` but for the lease, the responses and the due answer to a repeat of port `p`. -/
structure SentBy (p : Fin 4) (s t : State) : Prop where
  regs : t.regs = s.regs
  bibs : t.txn.bibs = s.txn.bibs
  change : t.change = s.change
  others : ∀ q : Fin 4, q ≠ p → t.ports[q] = s.ports[q]
  port : ∃ (o : List Response) (m l : Nat) (k : Option Response) (r : Bool),
    t.ports[p] = { s.ports[p] with out := o, leaseMark := m, leaseLeft := l, kept := k, replayDue := r }

theorem SentBy.refl (p : Fin 4) (s : State) : SentBy p s s := ⟨rfl, rfl, rfl, fun _ _ => rfl, _, _, _, _, _, rfl⟩

theorem SentBy.updPort (h : SentBy p s t) {f : Port → Port} (hf : ∃ (o : List Response) (m l : Nat) (k : Option Response) (r : Bool),
    f t.ports[p] = { t.ports[p] with out := o, leaseMark := m, leaseLeft := l, kept := k, replayDue := r }) : SentBy p s (t.updPort p f) := by
  obtain ⟨hr, hb, hc, ho, o, m, l, k, r, hp⟩ := h
  obtain ⟨o', m', l', k', r', hf⟩ := hf
  refine ⟨hr, hb, hc, fun q hq => (port_updPort_ne _ _ hq).trans (ho q hq), o', m', l', k', r', ?_⟩
  rw [port_updPort_same, hf, hp]

theorem SentBy.seal (h : SentBy p s t) (q : Fin 4) (seq st : Nat) (rs : List OpResult) : SentBy p s (t.seal q seq st rs).2 := by
  obtain ⟨hr, hb, hc, ho, hp⟩ := h
  exact ⟨hr, hb, hc, ho, hp⟩

/-- The lease of a session runs again when no frame waits for its response. -/
def State.rested (s : State) (p : Fin 4) : State := if s.ports[p].queued = 0 then s.leaseAt p s.ports[p].leaseLeft else s

/-- The response `r` goes out, once more where a repeat asked for it. -/
def State.said (s : State) (p : Fin 4) (r : Response) : State :=
  let t := s.updPort p fun q => { q with out := q.out ++ [r], kept := if q.queued = 0 then some r else q.kept }
  if t.ports[p].queued = 0 ∧ t.ports[p].replayDue then (t.updPort p fun q => { q with replayDue := false }).sendUncounted p r else t

theorem formCounted_eq (s : State) (p : Fin 4) (seq : Nat) (rs : List OpResult) : s.formCounted p seq rs =
    (((s.answered p seq).rested p).seal p seq St.OK rs).2.said p ⟨seq, (((s.answered p seq).rested p).seal p seq St.OK rs).1, true⟩ := rfl

theorem rested_sent (s : State) (p : Fin 4) : SentBy p s (s.rested p) := by
  unfold State.rested
  split
  · exact (SentBy.refl p s).updPort ⟨_, _, _, _, _, rfl⟩
  · exact .refl p s

theorem SentBy.said (h : SentBy p s t) (r : Response) : SentBy p s (t.said p r) := by
  have hu := h.updPort (f := fun q => { q with out := q.out ++ [r], kept := if q.queued = 0 then some r else q.kept }) ⟨_, _, _, _, _, rfl⟩
  unfold State.said
  generalize t.updPort p _ = u at *
  dsimp only
  split
  · exact (hu.updPort ⟨_, _, _, _, _, rfl⟩).updPort ⟨_, _, _, _, _, rfl⟩
  · exact hu

/-- What of port `p` a response leaves as it was. -/
theorem formCounted_sent (s : State) (p : Fin 4) (seq : Nat) (rs : List OpResult) : SentBy p (s.answered p seq) (s.formCounted p seq rs) := by
  rw [formCounted_eq]
  exact ((rested_sent _ p).seal p seq St.OK rs).said _

theorem rested_out (s : State) (p : Fin 4) : (s.rested p).ports[p].out = s.ports[p].out ∧ (s.rested p).ports[p].replayDue = s.ports[p].replayDue := by
  unfold State.rested
  split
  · rw [State.leaseAt, port_updPort_same]
    exact ⟨rfl, rfl⟩
  · exact ⟨rfl, rfl⟩

theorem said_out (r : Response) (h : s.ports[p].replayDue = false) : (s.said p r).ports[p].out = s.ports[p].out ++ [r] := by
  have hu := port_updPort_same s p fun q => { q with out := q.out ++ [r], kept := if q.queued = 0 then some r else q.kept }
  unfold State.said
  generalize s.updPort p _ = u at *
  dsimp only
  rw [if_neg (fun hd => by
    rw [hu] at hd
    exact Bool.noConfusion (hd.2.symm.trans h)), hu]

theorem port_answered (s : State) (p : Fin 4) (seq : Nat) : (s.answered p seq).ports[p] = s.ports[p].answered seq := by
  rw [State.answered, port_updPort_same, State_ringFrame_ports, updRing_ports]

theorem formCounted_out (seq : Nat) (rs : List OpResult) (h : s.ports[p].replayDue = false) :
    (s.formCounted p seq rs).ports[p].out.length = s.ports[p].out.length + 1 := by
  obtain ⟨ho, hd⟩ := rested_out (s.answered p seq) p
  rw [port_answered] at ho hd
  rw [formCounted_eq]
  have hp := ports_seal ((s.answered p seq).rested p) p seq St.OK rs
  generalize ((s.answered p seq).rested p).seal p seq St.OK rs = x at *
  rw [said_out _ (by rw [hp, hd]; exact h), hp, ho, List.length_append]
  rfl

theorem formCounted_port (s : State) (p : Fin 4) (seq : Nat) (rs : List OpResult) : ∃ (o : List Response) (m l : Nat) (k : Option Response) (r : Bool),
    (s.formCounted p seq rs).ports[p] =
      { s.ports[p] with queued := s.ports[p].queued - 1, inflight := s.ports[p].inflight + 1, flying := s.ports[p].flying ++ [seq],
                        out := o, leaseMark := m, leaseLeft := l, kept := k, replayDue := r } := by
  obtain ⟨o, m, l, k, r, hp⟩ := (formCounted_sent s p seq rs).port
  rw [port_answered] at hp
  exact ⟨o, m, l, k, r, hp⟩

theorem formCounted_others (s : State) (seq : Nat) (rs : List OpResult) (h : q ≠ p) : (s.formCounted p seq rs).ports[q] = s.ports[q] := by
  rw [(formCounted_sent s p seq rs).others q h, State.answered, port_updPort_ne _ _ h, State_ringFrame_ports, updRing_ports]

theorem formCounted_regs (s : State) (p : Fin 4) (seq : Nat) (rs : List OpResult) : (s.formCounted p seq rs).regs = s.regs := by
  rw [(formCounted_sent s p seq rs).regs, State.answered, updPort_regs, regs_ringFrame, updRing_regs]

theorem change_setBytes (bs : List Byte) : ∀ (s : State) (a : Nat), (s.setBytes a bs).change = s.change := by
  induction bs with
  | nil => exact fun _ _ => rfl
  | cons b l ih => exact fun s a => (ih _ _).trans rfl

theorem change_ringFrame (s : State) (i : Nat) : (s.ringFrame i).change = s.change := by
  rw [ringFrame_eq, State.ringGive]
  generalize (s.freeBytes 16).1 = bs
  exact change_setBytes bs _ _

theorem formCounted_change (s : State) (p : Fin 4) (seq : Nat) (rs : List OpResult) : (s.formCounted p seq rs).change = s.change := by
  rw [(formCounted_sent s p seq rs).change, State.answered, updPort_change, change_ringFrame, updRing_change]

theorem formCounted_bibs (s : State) (p : Fin 4) (seq : Nat) (rs : List OpResult) : (s.formCounted p seq rs).txn.bibs = s.txn.bibs := by
  rw [(formCounted_sent s p seq rs).bibs, State.answered, updPort_txn, txn_ringFrame, updRing_txn]

/-! ## The answer to the first frame of a port -/

/-- `s` with the frames of port `p` behind its first one. -/
def State.nextFrame (s : State) (p : Fin 4) (rest : List CmdFrame) : State := (s.updPort p fun q => { q with frames := rest }).startFrame p

theorem frameOver_of {q : Port} {rest : List CmdFrame} (hf : q.frames = f :: rest) (hl : f.ops.length ≤ q.results.length) :
    q.frameOver = true := by
  simp only [Port.frameOver, hf, hl, decide_true]

theorem respond_counted {rest : List CmdFrame} (hf : s.ports[p].frames = f :: rest) (hl : f.ops.length ≤ s.ports[p].results.length)
    (hv : f.void = false) (hc : closes s.ports[p].results = false) :
    s.respond p = (s.nextFrame p rest).formCounted p f.seq s.ports[p].results := by
  have ho : s.ports[p].frameOver = true := frameOver_of hf hl
  simp only [State.respond, hf, ho, hv, hc]
  rfl

theorem port_nextFrame (s : State) (p : Fin 4) (rest : List CmdFrame) : (s.nextFrame p rest).ports[p] = { s.ports[p] with frames := rest }.starts := by
  rw [State.nextFrame, startFrame_eq, port_updPort_same, port_updPort_same]

theorem Settled_updPort (h : s.Settled) {f : Port → Port} (hf : (f s.ports[p]).waiting = []) : (s.updPort p f).Settled where
  ops q := by
    by_cases hq : q = p
    · rw [hq, port_updPort_same]
      exact hf
    · rw [port_updPort_ne _ _ hq]
      exact h.ops q
  bibs := h.bibs

theorem responseFormed_after (hc : s.domOn Dm.CORE = true) (hs : s.Settled) (hf : s.ports[p].frames = [f])
    (hl : f.ops.length ≤ s.ports[p].results.length) (hv : f.void = false) (hx : closes s.ports[p].results = false)
    (hr : s.ports[p].replayDue = false) :
    After (exec (.responseFormed p) s) fun t => t.ports[p].held = s.ports[p].held ∧ t.ports[p].queued = s.ports[p].queued - 1
      ∧ t.ports[p].inflight = s.ports[p].inflight + 1 ∧ t.ports[p].frames = []
      ∧ t.ports[p].results = [] ∧ t.ports[p].flying = s.ports[p].flying ++ [f.seq]
      ∧ t.ports[p].out.length = s.ports[p].out.length + 1 ∧ ∀ a, t.reg a = s.reg a := by
  have hn : (s.nextFrame p []).ports[p] = { s.ports[p] with frames := [], results := [] } := by
    rw [port_nextFrame, starts_nil rfl]
  have hno (q : Fin 4) (hq : q ≠ p) : (s.nextFrame p []).ports[q] = s.ports[q] := by
    rw [State.nextFrame, startFrame_eq, port_updPort_ne _ _ hq, port_updPort_ne _ _ hq]
  have hout := formCounted_out f.seq s.ports[p].results (show (s.nextFrame p []).ports[p].replayDue = false by rw [hn]; exact hr)
  have hregs := formCounted_regs (s.nextFrame p []) p f.seq s.ports[p].results
  obtain ⟨o, m, l, k, r, hp⟩ := formCounted_port (s.nextFrame p []) p f.seq s.ports[p].results
  have hset : ((s.nextFrame p []).formCounted p f.seq s.ports[p].results).Settled :=
    { ops := fun q => by
        by_cases hq : q = p
        · rw [hq, hp, hn]
          exact hs.ops p
        · rw [formCounted_others _ _ _ hq, hno q hq]
          exact hs.ops q
      bibs := fun k => by
        rw [State.bibAt, formCounted_bibs]
        exact hs.bibs k }
  have e : exec (.responseFormed p) s = .next ((s.nextFrame p []).formCounted p f.seq s.ports[p].results) :=
    (next_pos hc).trans (next_eq (by rw [respond_counted hf hl hv hx, pump_settled hset]))
  rw [hn] at hp hout
  generalize (s.nextFrame p []).formCounted p f.seq s.ports[p].results = w at *
  have hreg (a : Nat) : w.reg a = s.reg a := by
    rw [State.reg, hregs]
    rfl
  exact .of_eq e ⟨(congrArg Port.held hp).trans rfl, (congrArg Port.queued hp).trans rfl, (congrArg Port.inflight hp).trans rfl,
    (congrArg Port.frames hp).trans rfl, (congrArg Port.results hp).trans rfl, (congrArg Port.flying hp).trans rfl, hout, hreg⟩

theorem respond_next {rest : List CmdFrame} (hf : s.ports[p].frames = f :: g :: rest) (hl : f.ops.length ≤ s.ports[p].results.length)
    (hv : f.void = false) (hc : closes s.ports[p].results = false) :
    (s.respond p).ports[p].frames = g :: rest ∧ (s.respond p).ports[p].results = []
      ∧ (s.respond p).ports[p].waiting = s.ports[p].waiting ++ (g.ops.map fun op => ⟨op, .behind, true, g.turn⟩)
      ∧ (s.respond p).ports[p].queued = s.ports[p].queued - 1 := by
  obtain ⟨o, m, l, k, r, hp⟩ := formCounted_port (s.nextFrame p (g :: rest)) p f.seq s.ports[p].results
  rw [port_nextFrame, starts_cons (f := g) (fs := rest) rfl] at hp
  rw [respond_counted hf hl hv hc]
  generalize (s.nextFrame p (g :: rest)).formCounted p f.seq s.ports[p].results = w at *
  exact ⟨(congrArg Port.frames hp).trans rfl, (congrArg Port.results hp).trans rfl, (congrArg Port.waiting hp).trans rfl,
    (congrArg Port.queued hp).trans rfl⟩

theorem submit_framed (h : s.ports[p].frames ≠ []) (op : Instr) : s.submit p op = s :=
  if_neg (by rwa [List.isEmpty_iff])

theorem responseFormed_unframed (hc : s.domOn Dm.CORE = true) (hs : s.Settled) (hf : s.ports[p].frames = []) :
    exec (.responseFormed p) s = .next s :=
  (next_pos hc).trans (next_eq (by
    have hr : s.respond p = s := by simp only [State.respond, hf]
    rw [hr, pump_settled hs]))

/-! ## Delivery (R327) -/

/-- `s` with the status byte of port `p` in its answer, but for CP3, which has none. -/
def State.shown (s : State) (p : Fin 4) : State := if p = 3 then s else s.showStatus p

theorem shown_ports (s : State) (p : Fin 4) : (s.shown p).ports = s.ports := by
  unfold State.shown
  split <;> rfl

theorem shown_change (s : State) (p : Fin 4) : (s.shown p).change = s.change := by
  unfold State.shown
  split <;> rfl

theorem shown_settled (h : s.Settled) (p : Fin 4) : (s.shown p).Settled := by
  unfold State.shown
  split
  · exact h
  · exact ⟨h.ops, h.bibs⟩

theorem delivered_eq (s : State) (p : Fin 4) : s.delivered p =
    match (s.shown p).ports[p].out with
    | [] => s.shown p
    | r :: rest =>
      match ((((s.shown p).updPort p fun q => { q with out := rest }).xportSettle p r)).change with
      | some c => if c.coreAfter = some (p, r.seq) then
          (((s.shown p).updPort p fun q => { q with out := rest }).xportSettle p r).coreGoesOn p
        else ((s.shown p).updPort p fun q => { q with out := rest }).xportSettle p r
      | none => ((s.shown p).updPort p fun q => { q with out := rest }).xportSettle p r := rfl

theorem delivered_nil (h : s.ports[p].out = []) : s.delivered p = s.shown p := by
  rw [delivered_eq, shown_ports, h]

theorem xportSettle_none (r : Response) (h : s.ports[p].xportPend = none) : s.xportSettle p r = s := by
  rw [State.xportSettle, h]

theorem delivered_cons {r : Response} {rest : List Response} (hc : s.change = none) (ho : s.ports[p].out = r :: rest)
    (hx : s.ports[p].xportPend = none) : s.delivered p = (s.shown p).updPort p fun q => { q with out := rest } := by
  have hs : ((s.shown p).updPort p fun q => { q with out := rest }).xportSettle p r = (s.shown p).updPort p fun q => { q with out := rest } :=
    xportSettle_none r (by rw [port_updPort_same, shown_ports]; exact hx)
  rw [delivered_eq, shown_ports, ho]
  dsimp only
  rw [hs, updPort_change, shown_change, hc]

theorem responseDelivered_runs (hl : s.portLive p = true) (ha : s.answersTo p a = true) :
    exec (.responseDelivered p a) s = .next (s.delivered p).pump := next_pos (by rw [hl, ha]; rfl)

theorem responseDelivered_next {r : Response} {rest : List Response} (hl : s.portLive p = true) (ha : s.answersTo p a = true)
    (hs : s.Settled) (hc : s.change = none) (ho : s.ports[p].out = r :: rest) (hx : s.ports[p].xportPend = none) :
    exec (.responseDelivered p a) s = .next ((s.shown p).updPort p fun q => { q with out := rest }) := by
  have hw : ((s.shown p).updPort p fun q => { q with out := rest }).Settled :=
    Settled_updPort (shown_settled hs p) (by rw [shown_ports]; exact hs.ops p)
  rw [responseDelivered_runs hl ha, delivered_cons hc ho hx, pump_settled hw]

theorem responseDelivered_empty (hl : s.portLive p = true) (ha : s.answersTo p a = true) (hs : s.Settled) (ho : s.ports[p].out = []) :
    exec (.responseDelivered p a) s = .next (s.shown p) := by
  rw [responseDelivered_runs hl ha, delivered_nil ho, pump_settled (shown_settled hs p)]

/-! ## The address of CP2 (R327) -/

theorem unheard (bs : List Byte) (h : targetHits a s.ports[2].xport s.index = false) :
    exec (.commandFrame 2 bs a) s = .next s ∧ exec (.responseDelivered 2 a) s = .next s := by
  have ha : s.answersTo 2 a = false := h
  exact ⟨next_neg (by rw [ha, Bool.and_false]; decide), next_neg (by rw [ha, Bool.and_false]; decide)⟩

theorem targetHits_seven (v : BitVec 7) (x index : Nat) : targetHits (.seven v) x index = true ↔ x / 128 % 2 = 1 ∧ v.toNat = x % 128 := by
  simp only [targetHits, bitOf, Bool.and_eq_true, beq_iff_eq, Nat.reducePow]

theorem targetHits_ten (v : BitVec 10) (x index : Nat) :
    targetHits (.ten v) x index = true ↔ v.toNat = 0x200 * (x / 1024 % 2) + index := by
  have hb : bit (bitOf x 10) = x / 1024 % 2 := by
    simp only [bitOf, Nat.reducePow]
    obtain h | h := Nat.mod_two_eq_zero_or_one (x / 1024) <;> rw [h] <;> rfl
  simp only [targetHits, beq_iff_eq, hb]

/-! ## The checks of a session (R330) -/

theorem wholeFrame_version {ver : Nat} (h : ver ≠ 1) (s : State) (p : Fin 4) (seq ack : Nat) (body : List Byte) :
    s.wholeFrame p ver seq ack body = s.refuse p seq St.BAD_OP := if_pos h

theorem wholeFrame_unopened {seq ack : Nat} {body : List Byte} (hs : s.ports[p].session ≠ .opened)
    (hh : isHello (parseBody body.length body) = false) : s.wholeFrame p 1 seq ack body = s.refuse p seq St.NO_SESSION := by
  rw [State.wholeFrame, if_neg (fun h => h rfl), hh]
  exact if_pos ⟨hs, rfl⟩

/-- Settles O38. -/
theorem frameCommands : Obligations.FrameCommands := by
  unfold Obligations.FrameCommands
  refine ⟨fun a bs s hl ha h8 hb hd hn hlen hc => ?_, fun a bs s hl ha h8 hb hd hn hlen hc => ?_,
    fun p ver seq ack body s hv => wholeFrame_version hv s p seq ack body, fun p seq ack body s hs hh => wholeFrame_unopened hs hh,
    fun p seq body ops s hl hb hh hf hd hheld => ?_, fun p seq body ops s hl hb hh hf hd => ?_,
    fun p seq body ops s hl hb hh hf hd hd' => ?_, fun p seq body ops s hl hb hh hf hd hheld => ?_,
    fun p seq body ops s => ?_, fun s => uartOverlength_after,
    fun p f s hc hs hf hl hv hx hr => responseFormed_after hc hs hf hl hv hx hr,
    fun p f g rest s hf hl hv hc => respond_next hf hl hv hc,
    fun p a n bib s hf => ⟨next_eq (submit_framed hf _), next_eq (submit_framed hf _), next_eq (submit_framed hf _),
      next_eq (submit_framed hf _)⟩,
    fun p s hc hs hf => responseFormed_unframed hc hs hf,
    fun a r rest s hl hs hc ho hx => responseDelivered_next hl rfl hs hc ho hx,
    fun p a r rest s hl ha hp hs hc ho hx => ?_, fun p a s hl ha hp hs ho => ?_, fun a bs s => unheard bs,
    targetHits_seven, targetHits_ten⟩
  · rw [commandFrame_receives hl ha h8 hb, receive_whole hd hn hlen, if_pos hc, State.refuseRaw, State.seqOf, if_pos (by omega)]
  · rw [commandFrame_receives hl ha h8 hb, receive_whole hd hn hlen, if_neg (fun h => h hc)]
  · rw [frameSteps_checked hl hb hh hf, hd, if_neg (by decide), if_neg (fun h => h rfl), if_neg hheld]
  · rw [frameSteps_checked hl hb hh hf, if_pos hd]
  · rw [frameSteps_checked hl hb hh hf, if_neg (by omega), if_pos hd]
  · rw [frameSteps_checked hl hb hh hf, hd, if_neg (by decide), if_neg (fun h => h rfl), if_pos hheld]
  · obtain ⟨hheld, hq, hi, hn, hf⟩ := acceptFrame_counts s p seq body ops
    obtain ⟨hc, hr⟩ := acceptFrame_after s p seq body ops
    exact ⟨hheld, hq, hi, hn, hf, acceptFrame_starts s p seq body ops, hc, acceptFrame_ring s p seq body ops, hr,
      fun q hq => acceptFrame_others s seq body ops hq⟩
  · rw [responseDelivered_next hl ha hs hc ho hx, State.shown, if_neg hp]
    rfl
  · rw [responseDelivered_empty hl ha hs ho, State.shown, if_neg hp]
    rfl

end Sys2Proof.Machine
end

section
/-!
PROOFS. Accesses that wait for a wake, and the lift (13_power_domains.md R313, R318).
-/
namespace Sys2Proof.Machine

variable {s t : State} {p : Fin 4} {a : TargetAddr} {d w : Nat}

/-! ## An access that its wake does not answer (R313) -/

theorem logAccess_frame (s : State) (k : AccessKind) (p : Fin 4) (wr : Bool) (x : Nat) : Frame (OfPages [sysPage]) s (s.logAccess k p wr x) := by
  have hp {y : Nat} (h : pageAddr sysPage 0 ≤ y ∧ y < pageAddr sysPage 0x1000) : OfPages [sysPage] y := .of_page (by simp) h
  unfold State.logAccess
  split
  · exact .refl _ s
  · refine Frame.raise ?_ _ fun _ h => .of_status (by simp) h
    exact ((((Frame.refl _ s).countSat 1 (hp (by decide))).setFld _ (hp (by decide))).setFld _ (hp (by decide))).setFld _ (hp (by decide))
      |>.setReg _ (hp (by decide))

theorem countSat_change (s : State) (f : Fld) (k : Nat) : (s.countSat f k).change = s.change := rfl

theorem countSat_ports (s : State) (f : Fld) (k : Nat) : (s.countSat f k).ports = s.ports := rfl

theorem countSat_txn (s : State) (f : Fld) (k : Nat) : (s.countSat f k).txn = s.txn := rfl

theorem logAccess_kept (s : State) (k : AccessKind) (p : Fin 4) (wr : Bool) (x : Nat) : (s.logAccess k p wr x).change = s.change
    ∧ (s.logAccess k p wr x).ports = s.ports ∧ (s.logAccess k p wr x).txn = s.txn := by
  unfold State.logAccess
  split
  · exact ⟨rfl, rfl, rfl⟩
  · refine ⟨?_, ?_, ?_⟩
    · rw [raise_change, setReg_change, setFld_change, setFld_change, setFld_change, countSat_change]
    · rw [raise_ports, setReg_ports, setFld_ports, setFld_ports, setFld_ports, countSat_ports]
    · rw [raise_txn, setReg_txn, setFld_txn, setFld_txn, setFld_txn, countSat_txn]

theorem rdRun_down {x : Nat} (ha : x % 4 = 0) (hd : addrDomain x = some d) (ho : s.domOn d = false) :
    s.rdRun p x 4 (some St.DOMAIN_DOWN) = (.done St.DOMAIN_DOWN (bytesLE 4 (downWord x d)), s.logAccess .domainDown p false x) := by
  have hr : s.readWord p x = (St.DOMAIN_DOWN, downWord x d, s.logAccess .domainDown p false x) := readWord_down hd ho
  generalize downWord x d = v at *
  have hm : s.readWords p x (4 / 4) = (St.DOMAIN_DOWN, bytesLE 4 v, s.logAccess .domainDown p false x) := by
    simp [State.readWords, hr]
  unfold State.rdRun
  rw [if_neg (by omega), hm]
  dsimp only
  rw [Option.getD_some, ite_self]

theorem autowakeTimeout_after {x : Word} (hc : s.domOn Dm.CORE = true) (hw : s.ports[p].waiting = [⟨.rd p x 4, .wake, false, w⟩])
    (hf : s.ports[p].frames = []) (ho : ∀ q : Fin 4, q ≠ p → s.ports[q].waiting = []) (hb : ∀ k : Fin 64, (s.bibAt k).waitsPage = false)
    (hx : x.toNat % 4 = 0) (hd : addrDomain x.toNat = some d) (hoff : s.domOn d = false) :
    After (exec (.autowakeTimeout p) s) fun t => t.ports[p].waiting = []
      ∧ t.ports[p].results = [⟨0x10, 0x20, bytesLE 4 (downWord x.toNat d)⟩] ∧ t.change = s.change ∧ Frame (OfPages [sysPage]) s t := by
  have hr : s.opBody p (.rd p x 4) (some St.DOMAIN_DOWN)
      = (.done St.DOMAIN_DOWN (bytesLE 4 (downWord x.toNat d)), s.logAccess .domainDown p false x.toNat) := rdRun_down hx hd hoff
  have hfr := logAccess_frame s .domainDown p false x.toNat
  obtain ⟨hch, hpo, htx⟩ := logAccess_kept s .domainDown p false x.toNat
  generalize s.logAccess .domainDown p false x.toNat = u at *
  have hdone : u.opDone p ⟨0x10, 0x20, bytesLE 4 (downWord x.toNat d)⟩
      = u.updPort p fun q => { q with waiting := [], results := [⟨0x10, 0x20, bytesLE 4 (downWord x.toNat d)⟩] } :=
    opDone_unframed (by rw [hpo, hw]) rfl (by rw [hpo, hf]) (.inl (show (0x10 : Nat) ≠ 0x02 by decide))
  generalize bytesLE 4 (downWord x.toNat d) = bs at *
  have hs : (u.updPort p fun q => { q with waiting := [], results := [⟨0x10, 0x20, bs⟩] }).Settled :=
    { ops := fun q => by
        by_cases hq : q = p
        · rw [hq, port_updPort_same]
        · rw [port_updPort_ne _ _ hq, hpo, ho q hq]
      bibs := fun k => by
        rw [State.bibAt, updPort_txn, htx]
        exact hb k }
  have e : exec (.autowakeTimeout p) s = .next (u.updPort p fun q => { q with waiting := [], results := [⟨0x10, 0x20, bs⟩] }) := by
    rw [show exec (.autowakeTimeout p) s = execAutowakeTimeout p s from rfl, execAutowakeTimeout, hw]
    refine (next_pos ⟨rfl, hc⟩).trans (next_eq ?_)
    rw [hr]
    exact (congrArg State.pump hdone).trans (pump_settled hs)
  have hp := port_updPort_same u p fun q => { q with waiting := [], results := [⟨0x10, 0x20, bs⟩] }
  exact .of_eq e ⟨(congrArg Port.waiting hp).trans rfl, (congrArg Port.results hp).trans rfl, hch, hfr.congr rfl rfl rfl⟩

theorem autowakeTimeout_none (hw : s.ports[p].waiting = []) : exec (.autowakeTimeout p) s = .next s := by
  rw [show exec (.autowakeTimeout p) s = execAutowakeTimeout p s from rfl, execAutowakeTimeout, hw]

/-! ## The lift (R318) -/

theorem liftMatch_not (h : targetHits a s.xportCopy s.index = false ∨ s.domOn Dm.CORE = true) : exec (.liftMatch a) s = .next s :=
  next_pos (by obtain h | h := h <;> simp only [h, Bool.not_false, Bool.true_or, Bool.or_true])

theorem liftMatch_low (h : targetHits a s.xportCopy s.index = true) (hc : s.domOn Dm.CORE = false) (hr : s.resetHold = none)
    (hv : s.pvdd < 850) : exec (.liftMatch a) s = .next ((s.countSat Fd.AON_LIFT_CNT_NACK 1).raise aonPage 1) :=
  (next_neg (by rw [h, hc, hr]; decide)).trans (next_eq (if_pos hv))

/-- `s` on the way of a lift, whose change is `c`. -/
def State.lifting (s : State) (c : Change) : State := { s with lift := true, change := some c }

theorem domOn_lifting (s : State) (c : Change) (d : Nat) : (s.lifting c).domOn d = s.domOn d := rfl

/-- The change of a lift that is to wake the core. -/
def coreLift : Change := ⟨.lift, .wake, [(Dm.CORE, 2)], [], [], [Dm.CORE], [], [], none, false⟩

theorem core_down (hc : s.domOn Dm.CORE = false) (hm : s.domOn Dm.CMEM = true) :
    (requiresAll Dm.CORE).filter (fun d => !s.domOn d) = [Dm.CORE] := by
  have hl : requiresAll Dm.CORE = [Dm.CMEM, Dm.CORE] ∨ requiresAll Dm.CORE = [Dm.CORE, Dm.CMEM] := by decide
  obtain hl | hl := hl <;> rw [hl] <;> simp only [List.filter_cons, List.filter_nil, hc, hm] <;> rfl

theorem wakeNext_core (hm : s.domOn Dm.CMEM = true) (hch : s.change = some coreLift) :
    s.wakeNext = (s.setDom Dm.CORE (.waking (s.dom Dm.CORE == .off))).updChange fun q =>
      { q with wakes := q.wakes.erase Dm.CORE, woken := q.woken ++ [(Dm.CORE, s.dom Dm.CORE == .off)] } := by
  have hn : coreLift.wakes.find? (fun d => (requires d).all fun r => s.domOn r) = some Dm.CORE := by
    have hr : requires Dm.CORE = [Dm.CMEM] := by decide
    simp only [coreLift, List.find?_cons, hr, List.all_cons, List.all_nil, hm, Bool.and_self]
  rw [State.wakeNext, hch]
  dsimp only
  rw [hn]

theorem dom_setDom (s : State) {d : Nat} (ph : DomPhase) (h : d < 27) : (s.setDom d ph).dom d = ph := by
  simp [State.dom, State.setDom, State.updDom, upd, h]

theorem liftMatch_lifts (h : targetHits a s.xportCopy s.index = true) (hc : s.domOn Dm.CORE = false) (hr : s.resetHold = none)
    (hv : 850 ≤ s.pvdd) (hch : s.change = none) (hm : s.domOn Dm.CMEM = true) :
    After (exec (.liftMatch a) s) fun t => t.lift = true ∧ t.dom Dm.CORE = .waking (s.dom Dm.CORE == .off)
      ∧ (∃ c, t.change = some c ∧ c.cause = .lift ∧ c.phase = .wake) ∧ Quiet (fun _ => False) s t := by
  have hl : { s with lift := true }.liftStart = (s.lifting coreLift).wakeNext := by
    have hg : ({ s with lift := true }.lift && { s with lift := true }.change.isNone && !{ s with lift := true }.domOn Dm.CORE) = true := by
      show (true && s.change.isNone && !s.domOn Dm.CORE) = true
      rw [hch, hc]
      rfl
    rw [State.liftStart, if_pos hg]
    show State.wakeNext { s with lift := true, change := some ⟨.lift, .wake, ((requiresAll Dm.CORE).filter fun d => !s.domOn d).map fun d => (d, 2),
      [], [], (requiresAll Dm.CORE).filter fun d => !s.domOn d, [], [], none, false⟩ } = _
    rw [core_down hc hm]
    rfl
  have e : exec (.liftMatch a) s = .next (s.lifting coreLift).wakeNext :=
    (next_neg (by rw [h, hc, hr]; decide)).trans (next_eq ((if_neg (by omega)).trans hl))
  rw [wakeNext_core (s := s.lifting coreLift) hm rfl] at e
  have hd := dom_setDom (s.lifting coreLift) (.waking (s.dom Dm.CORE == .off)) (d := Dm.CORE) (by decide)
  exact .of_eq e ⟨rfl, hd, ⟨_, rfl, rfl, rfl⟩, .congr (.refl _ s) rfl rfl rfl⟩

/-- `s` with its lift over. -/
def State.unlifted (s : State) : State := { s with lift := false }

theorem countSat_lift (s : State) (f : Fld) (k : Nat) : (s.countSat f k).lift = s.lift := rfl

theorem countSat_unlifted (s : State) (f : Fld) (k : Nat) (h : f.lo ≤ f.hi ∧ f.hi < 32) :
    (s.unlifted.countSat f k).fld f = satAdd f.width (s.fld f) k := fld_countSat_same s.unlifted f k h

/-- The end of a lift: its count and its event. -/
theorem liftEnd_after (f : Fld) {b : Nat} (hb : b < 32) (hf : f.addr = Adr.AON_LIFT_CNT) (hw : f.lo ≤ f.hi ∧ f.hi < 32) (w : Nat)
    (hwid : f.width = w) (s : State) :
    ((s.unlifted.countSat f 1).raise aonPage b).lift = false
      ∧ ((s.unlifted.countSat f 1).raise aonPage b).fld f = satAdd w (s.fld f) 1
      ∧ ((s.unlifted.countSat f 1).raise aonPage b).evt aonPage b = true
      ∧ Frame (fun x => x = Adr.AON_LIFT_CNT ∨ StatusOf [aonPage] x) s ((s.unlifted.countSat f 1).raise aonPage b) := by
  refine ⟨?_, ?_, evt_raise _ _ hb, ?_⟩
  · rw [raise_lift, countSat_lift]
    rfl
  · rw [fld_raise _ _ _ (by rw [hf]; decide) (by rw [hf]; decide) (by rw [hf]; decide), countSat_unlifted s f 1 hw, hwid]
  · have h0 : Frame (fun x => x = Adr.AON_LIFT_CNT ∨ StatusOf [aonPage] x) s s.unlifted := .congr (.refl _ s) rfl rfl rfl
    exact (h0.countSat 1 (.inl hf)).raise _ fun _ h => .inr h

/-- Settles O35. -/
theorem wakeCommands : Obligations.WakeCommands := by
  unfold Obligations.WakeCommands
  refine ⟨fun p x d w s hc hw hf ho hb hx hd hoff => autowakeTimeout_after hc hw hf ho hb hx hd hoff, fun p s => autowakeTimeout_none,
    fun a s => liftMatch_not, fun a s => liftMatch_low, fun a s => liftMatch_lifts, fun s hl hc => ?_, fun s hl => ?_⟩
  · exact .of_eq (next_pos (by rw [hl, hc]; rfl)) (liftEnd_after Fd.AON_LIFT_CNT_COUNT (by decide) rfl (by decide) 16 rfl s)
  · exact .of_eq (next_pos hl) (liftEnd_after Fd.AON_LIFT_CNT_NACK (by decide) rfl (by decide) 16 rfl s)

end Sys2Proof.Machine
end

section
/-!
PROOFS. A staged write (15_transactions_and_hosts.md R351–R356).
-/
namespace Sys2Proof.Machine

variable {s t u : State} {p : Fin 4} {k : Nat} {e : Entry}

/-! ## A free place (R356) -/

theorem freeGranulesFrom_free (used : List Nat) : ∀ (fuel i : Nat), (∃ j, i ≤ j ∧ j < i + fuel ∧ j ∉ used) →
    ∃ j, freeGranulesFrom used fuel i 1 = [j] ∧ j < i + fuel ∧ j ∉ used := by
  intro fuel
  induction fuel with
  | zero => exact fun i ⟨j, h1, h2, _⟩ => absurd h2 (by omega)
  | succ fuel ih =>
    intro i ⟨j, h1, h2, h3⟩
    by_cases hi : i ∈ used
    · obtain ⟨j', hf, hlt, hn⟩ := ih (i + 1) ⟨j, by
        have : i ≠ j := fun e => h3 (e ▸ hi)
        omega, by omega, h3⟩
      refine ⟨j', ?_, by omega, hn⟩
      rw [freeGranulesFrom, if_neg (by decide), if_pos (List.contains_iff_mem.2 hi), hf]
    · refine ⟨i, ?_, by omega, hi⟩
      rw [freeGranulesFrom, if_neg (by decide), if_neg (by rw [List.contains_iff_mem]; exact hi)]
      cases fuel <;> rfl

theorem exists_place {used : List Nat} {n : Nat} (h : used.length < n) : ∃ j < n, j ∉ used := by
  by_contra hn
  have hsub : List.range n ⊆ used := fun j hj => by
    by_contra hj'
    exact hn ⟨j, List.mem_range.1 hj, hj'⟩
  have hle := (List.nodup_range.subperm hsub).length_le
  rw [List.length_range] at hle
  omega

/-! ## The entry in memory -/

theorem setBytes_rest (bs : List Byte) : ∀ (s : State) (a : Nat), s.setBytes a bs = { s with mem := (s.setBytes a bs).mem } := by
  induction bs with
  | nil => exact fun _ _ => rfl
  | cons b bs ih => exact fun s a => (ih (s.setByte a b) (a + 1)).trans rfl

/-- `s` with the entry `e` behind its staged ones. -/
def State.withStaged (s : State) (e : Entry) : State := { s with txn := { s.txn with staging := s.txn.staging ++ [e] } }

theorem entryPut_rest (s : State) (e : Entry) : s.entryPut e = { s with mem := (s.entryPut e).mem } := by
  have h1 := setBytes_rest (bytesLE 4 (word (e.addr + e.kind)).toNat) s (0x20020000 + 8 * e.place)
  have h2 := setBytes_rest (bytesLE 4 (word e.data).toNat) (s.setMemWord (0x20020000 + 8 * e.place) (word (e.addr + e.kind)))
    (0x20020000 + 8 * e.place + 4)
  rw [State.entryPut]
  rw [← State.setMemWord] at h1 h2
  generalize s.setMemWord (0x20020000 + 8 * e.place) (word (e.addr + e.kind)) = u at *
  generalize u.setMemWord (0x20020000 + 8 * e.place + 4) (word e.data) = w at *
  rw [h2, h1]

theorem entryPut_byte {x : Nat} (h : x < 0x20020000 + 8 * e.place ∨ 0x20020000 + 8 * e.place + 8 ≤ x) : (s.entryPut e).byte x = s.byte x := by
  rw [State.entryPut, byte_setMemWord_ne _ _ (by omega), byte_setMemWord_ne _ _ (by omega)]

/-- What the staging of the entry `e` of bib `k` leaves. -/
structure StagedAs (k : Nat) (e : Entry) (s t : State) : Prop where
  rest : t = { s with mem := t.mem, txn := t.txn }
  staging : t.txn.staging = s.txn.staging ++ [e]
  bytes : ∀ x, x < 0x20020000 + 8 * e.place ∨ 0x20020000 + 8 * e.place + 8 ≤ x → t.byte x = s.byte x
  idle : (∀ j : Fin 64, (s.bibAt j).waitsPage = false) → ∀ j : Fin 64, (t.bibAt j).waitsPage = false

theorem stagedAs_updBib {f : Bib → Bib} (hf : ∀ b, (f b).waitsPage = b.waitsPage) (hk : k < 64) :
    StagedAs k e s (((s.withStaged e).entryPut e).updBib k f) := by
  have hr := entryPut_rest (s.withStaged e) e
  have hb {x : Nat} (h : x < 0x20020000 + 8 * e.place ∨ 0x20020000 + 8 * e.place + 8 ≤ x) : ((s.withStaged e).entryPut e).byte x = s.byte x :=
    entryPut_byte h
  generalize (s.withStaged e).entryPut e = u at *
  have htxn : u.txn = (s.withStaged e).txn := by rw [hr]
  refine ⟨?_, ?_, fun x h => hb h, fun h => updBib_idle (fun j => ?_) ?_⟩
  · rw [State.updBib, hr]
    rfl
  · rw [State.updBib, htxn]
    rfl
  · rw [State.bibAt, htxn]
    exact h j
  · rw [hf, State.bibAt, htxn]
    exact h ⟨k, hk⟩

/-- The entries of the words `all` of a bib of value `v`, each in a free place. -/
def State.entriesOf (s : State) (v : Nat) (all : List (Nat × Nat × Nat)) : List Entry :=
  ((freeGranulesFrom (s.txn.used.map (·.place)) 8192 0 all.length).zip all).map fun x => ⟨x.1, v, x.2.1, x.2.2.1, x.2.2.2⟩

/-- `s` with the entries `es` behind its staged ones, and in bib `k` the version of each of the pages `gs` that it held no version of. -/
def State.stageAll (s : State) (k : Nat) (es : List Entry) (gs : List Nat) : State :=
  let t := es.foldl State.entryPut { s with txn := { s.txn with staging := s.txn.staging ++ es } }
  t.updBib k fun b => { b with versions := b.versions ++ (gs.filter fun g => !b.versions.any (·.1 == g)).map fun g => (g, s.pageVer g) }

theorem stageWords_eq (s : State) (k : Nat) (ws : List WordOp) : s.stageWords k ws =
    s.stageAll k (s.entriesOf (s.bibAt k).value (ws.flatMap fun w => w.kinds.map fun e => (w.addr, e)))
      (ws.map fun w => governs w.addr).eraseDups := rfl

theorem entriesOf_one {i v a x : Nat} (h : freeGranulesFrom (s.txn.used.map (·.place)) 8192 0 1 = [i]) :
    s.entriesOf v [(a, 1, x)] = [⟨i, v, a, 1, x⟩] := by
  have hz : s.entriesOf v [(a, 1, x)] = ((freeGranulesFrom (s.txn.used.map (·.place)) 8192 0 1).zip [(a, 1, x)]).map
      fun y => ⟨y.1, v, y.2.1, y.2.2.1, y.2.2.2⟩ := rfl
  rw [hz, h]
  rfl

theorem stageAll_one (hk : k < 64) (gs : List Nat) : StagedAs k e s (s.stageAll k [e] gs) := stagedAs_updBib (fun _ => rfl) hk

theorem stageWords_one {i a x : Nat} (h : freeGranulesFrom (s.txn.used.map (·.place)) 8192 0 1 = [i]) (hk : k < 64) :
    StagedAs k ⟨i, (s.bibAt k).value, a, 1, x⟩ s (s.stageWords k [⟨a, none, x⟩]) := by
  have hall : ([⟨a, none, x⟩] : List WordOp).flatMap (fun w => w.kinds.map fun e => (w.addr, e)) = [(a, 1, x)] := rfl
  rw [stageWords_eq, hall, entriesOf_one h]
  exact stageAll_one hk _

/-! ## The write (R351–R353) -/

theorem stagedWords_one {a x : Nat} (h : stageable a = true) : stagedWords [⟨a, none, x⟩] = [⟨a, none, x⟩] := List.filter_cons_of_pos h

theorem plainWords_one {a x : Nat} (h : stageable a = true) : plainWords [⟨a, none, x⟩] = [] :=
  List.filter_cons_of_neg (by rw [h]; decide)

theorem writeInto_staged {a x : Nat} (h : stageable a = true) : s.writeInto p k [⟨a, none, x⟩] = s.stageWords k [⟨a, none, x⟩] := by
  rw [State.writeInto, stagedWords_one h, plainWords_one h]
  rfl

theorem firstBad_one {a x : Nat} (h : s.checkWord p true a = (0x00, none)) : s.firstBad p true [⟨a, none, x⟩] = none := by
  rw [State.firstBad, h]
  exact if_pos rfl

theorem stagedRun_one {v a x : Nat} {e : Entry} {down : Option Nat} (ho : s.ownBib p v = some k) (hs : (s.bibAt k).state = .opened)
    (ha : stageable a = true) (hc : s.checkWord p true a = (0x00, none)) (hu : s.txn.used.length < 8192)
    (hst : StagedAs k e s (s.stageWords k [⟨a, none, x⟩])) :
    s.stagedRun p v [⟨a, none, x⟩] down = (.done St.OK [], s.stageWords k [⟨a, none, x⟩]) := by
  have hshort : s.entriesShort [⟨a, none, x⟩] = false := by
    rw [State.entriesShort, stagedWords_one ha]
    exact decide_eq_false (by
      show ¬ 8192 < s.txn.used.length + 1
      omega)
  have hr : (s.stageWords k [⟨a, none, x⟩]).resetHold = s.resetHold := by rw [hst.rest]
  have hb : (s.stageWords k [⟨a, none, x⟩]).boot = s.boot := by rw [hst.rest]
  rw [State.stagedRun, ho]
  dsimp only
  rw [if_neg (fun h => h hs), plainWords_one ha, firstBad_one hc, List.any_nil, if_neg Bool.false_ne_true]
  dsimp only
  rw [hshort, if_neg Bool.false_ne_true, writeInto_staged ha]
  have hd : s.writeData [⟨a, none, x⟩] = ([], s) := rfl
  rw [hd]
  dsimp only
  rw [resetBegan, hr, hb, if_neg (by cases s.resetHold <;> simp), if_neg (by cases s.boot.check <;> simp)]

theorem checkWord_waits (ws : List WaitOp) (a : Nat) (b : Bool) : (s.waits p ws).checkWord p b a = s.checkWord p b a := rfl

theorem wr_staged {a : Word} {v : BitVec 16} {b0 b1 b2 b3 : Byte} (h : s.Hears p) (ha : a.toNat % 4 = 0) (hv : v ≠ 0)
    (ho : s.ownBib p v.toNat = some k) (hs : (s.bibAt k).state = .opened) (hst : stageable a.toNat = true)
    (hc : s.checkWord p true a.toNat = (0x00, none)) (hu : s.txn.used.length < 8192) :
    After (exec (.wr p a v [b0, b1, b2, b3]) s) fun t => (∃ e : Entry, e.place < 8192 ∧ (∀ x ∈ s.txn.used, x.place ≠ e.place)
        ∧ e.bib = v.toNat ∧ e.addr = a.toNat ∧ e.kind = 1 ∧ e.data = ofBytesLE [b0, b1, b2, b3]
        ∧ t.txn.staging = s.txn.staging ++ [e]
        ∧ (∀ x, x < 0x20020000 + 8 * e.place ∨ 0x20020000 + 8 * e.place + 8 ≤ x → t.byte x = s.byte x))
      ∧ t.ports[p].results = [⟨0x11, 0x00, []⟩] ∧ (∀ x, t.reg x = s.reg x)
      ∧ (∀ g, t.pageVer g = s.pageVer g) ∧ t.gains = s.gains := by
  obtain ⟨hk, hval, -⟩ := ownBib_some ho
  obtain ⟨j, hj, hjn⟩ := exists_place (used := s.txn.used.map (·.place)) (n := 8192) (by rw [List.length_map]; exact hu)
  obtain ⟨i, hfree, hi, hin⟩ := freeGranulesFrom_free (s.txn.used.map (·.place)) 8192 0 ⟨j, by omega, by omega, hjn⟩
  generalize hw : (⟨.wr p a v [b0, b1, b2, b3], .behind, false, s.nextTurn⟩ : WaitOp) = wt
  have hlone := h.alone wt
  have hsw : StagedAs k ⟨i, (s.bibAt k).value, a.toNat, 1, ofBytesLE [b0, b1, b2, b3]⟩ (s.waits p [wt])
      ((s.waits p [wt]).stageWords k [⟨a.toNat, none, ofBytesLE [b0, b1, b2, b3]⟩]) := stageWords_one (s := s.waits p [wt]) hfree hk
  have hrun := stagedRun_one (down := none) (s := s.waits p [wt]) ho hs hst hc hu hsw
  have hbody : (s.waits p [wt]).opBody p (.wr p a v [b0, b1, b2, b3]) none
      = (.done St.OK [], (s.waits p [wt]).stageWords k [⟨a.toNat, none, ofBytesLE [b0, b1, b2, b3]⟩]) := by
    rw [State.opBody, if_neg (by simp [ha]), dataWords_one, State.writeRun, if_neg (fun e => hv (BitVec.eq_of_toNat_eq (e.trans rfl))), Nat.mod_eq_of_lt a.isLt]
    exact hrun
  generalize (s.waits p [wt]).stageWords k [⟨a.toNat, none, ofBytesLE [b0, b1, b2, b3]⟩] = u at *
  have hports : u.ports = (s.waits p [wt]).ports := by rw [hsw.rest]
  have hua : u.RunsAlone p wt :=
    { only := by rw [hports, hlone.only]
      others := fun q hq => by rw [hports, hlone.others q hq]
      unframed := by rw [hports, hlone.unframed]
      bibs := hsw.idle hlone.bibs }
  subst hw
  have hsub := submit_done (c := 0x11) (data := []) h rfl (.inl (by decide)) hbody hua
  have hp := port_updPort_same u p fun q => { q with waiting := [], results := [⟨0x11, St.OK, []⟩] }
  refine .of_eq (next_eq hsub) ⟨⟨_, by omega, fun x hx e => hin (List.mem_map.2 ⟨x, hx, e⟩), hval, rfl, rfl, rfl, hsw.staging, hsw.bytes⟩,
    (congrArg Port.results hp).trans rfl, fun x => ?_, fun g => ?_, ?_⟩
  · have hregs : u.regs = (s.waits p [⟨.wr p a v [b0, b1, b2, b3], .behind, false, s.nextTurn⟩]).regs := by rw [hsw.rest]
    exact reg_of_regs hregs x
  · have hvers : u.pageVers = (s.waits p [⟨.wr p a v [b0, b1, b2, b3], .behind, false, s.nextTurn⟩]).pageVers := by rw [hsw.rest]
    exact (show u.pageVer g = s.pageVer g by rw [State.pageVer, hvers]; rfl)
  · have hg : u.gains = (s.waits p [⟨.wr p a v [b0, b1, b2, b3], .behind, false, s.nextTurn⟩]).gains := by rw [hsw.rest]
    exact hg

/-- Settles O55. -/
theorem stagedWrite : Obligations.StagedWrite := by
  unfold Obligations.StagedWrite
  exact fun p a v b0 b1 b2 b3 k s h ha hv ho hs hst hc hu => wr_staged h ha hv ho hs hst hc hu

end Sys2Proof.Machine
end

section
/-!
PROOFS. Words and checks beside a validation that waits (15_transactions_and_hosts.md R359).
-/
namespace Sys2Proof.Machine

variable {s t : State} {k n : Nat}

/-! ## Bibs but for their wait -/

/-- A bib but for the wait of its validation. -/
def Bib.still (b : Bib) : Bib := { b with waitsPage := false }

theorem still_fields {b c : Bib} (h : b.still = c.still) :
    b.value = c.value ∧ b.state = c.state ∧ b.port = c.port ∧ b.mode = c.mode ∧ b.report = c.report := by
  have hval := congrArg Bib.value h
  have hst := congrArg Bib.state h
  have hport := congrArg Bib.port h
  have hmode := congrArg Bib.mode h
  have hrep := congrArg Bib.report h
  exact ⟨hval, hst, hport, hmode, hrep⟩

section Lists
variable {l m : List Bib} (h : l.map Bib.still = m.map Bib.still)
include h

theorem filter_still {f : Bib → Bool} (hf : ∀ b : Bib, f b.still = f b) : (l.filter f).map Bib.still = (m.filter f).map Bib.still := by
  have hg (x : List Bib) : (x.filter f).map Bib.still = (x.map Bib.still).filter f := by
    rw [List.filter_map]
    exact congrArg _ (List.filter_congr fun b _ => (hf b).symm)
  rw [hg, hg, h]

theorem count_still {f : Bib → Bool} (hf : ∀ b : Bib, f b.still = f b) : (l.filter f).length = (m.filter f).length := by
  have := congrArg List.length (filter_still h hf)
  rwa [List.length_map, List.length_map] at this

theorem sum_still {f : Bib → Nat} (hf : ∀ b : Bib, f b.still = f b) : (l.map f).sum = (m.map f).sum := by
  have hg (x : List Bib) : x.map f = (x.map Bib.still).map f := by
    rw [List.map_map]
    exact List.map_congr_left fun b _ => (hf b).symm
  rw [hg l, hg m, h]

theorem newest_still (d : Bib) : (l.foldl (fun (m : Bib) b => if m.serial ≤ b.serial then b else m) d).value
    = (m.foldl (fun (m : Bib) b => if m.serial ≤ b.serial then b else m) d).value := by
  have hg (x : List Bib) : (x.foldl (fun (m : Bib) b => if m.serial ≤ b.serial then b else m) d).still
      = (x.map Bib.still).foldl (fun (m : Bib) b => if m.serial ≤ b.serial then b else m) d.still := by
    rw [List.foldl_map]
    exact (List.foldl_hom Bib.still fun a b => (apply_ite Bib.still _ _ _).symm).symm
  have hv := (hg l).trans ((congrArg _ h).trans (hg m).symm)
  have hval := congrArg Bib.value hv
  exact hval

end Lists

theorem bibs_unwaited (s : State) (k : Nat) : (s.unwaited k).txn.bibs.toList.map Bib.still = s.txn.bibs.toList.map Bib.still := by
  show (upd s.txn.bibs k fun b => { b with waitsPage := false }).toList.map Bib.still = _
  unfold upd
  split
  · next hk =>
    rw [Vector.toList_set, List.map_set]
    refine List.ext_getElem (by simp) fun i h1 h2 => ?_
    rw [List.getElem_set]
    split
    · next e =>
      subst e
      simp [Bib.still]
    · rfl
  · rfl

theorem still_bibAt_unwaited (s : State) (k j : Nat) : ((s.unwaited k).bibAt j).still = (s.bibAt j).still := by
  by_cases hk : k < 64
  · by_cases hj : k = j
    · rw [← hj, bibAt_unwaited s hk]
      rfl
    · rw [bibAt_unwaited_ne s hj]
  · have h : (s.unwaited k).txn.bibs = s.txn.bibs := dif_neg hk
    rw [State.bibAt, h]

/-! ## Words of registers -/

theorem txnPending_unwaited (s : State) (k g : Nat) : (s.unwaited k).txnPending g = s.txnPending g :=
  newest_still (filter_still (bibs_unwaited s k) fun _ => rfl) _

theorem txnWord_unwaited (s : State) (k o w : Nat) : (s.unwaited k).txnWord o w = s.txnWord o w := by
  have hc (f : Bib → Bool) (hf : ∀ b : Bib, f b.still = f b) :
      ((s.unwaited k).txn.bibs.toList.filter f).length = (s.txn.bibs.toList.filter f).length := count_still (bibs_unwaited s k) hf
  have hb := still_bibAt_unwaited s k ((o - 0x100) / 8)
  unfold State.txnWord
  dsimp only
  rw [hc _ fun _ => rfl, hc _ fun _ => rfl]
  generalize (s.unwaited k).bibAt ((o - 0x100) / 8) = b at *
  obtain ⟨hval, hst, hport, hmode, hrep⟩ := still_fields hb
  rw [hval, hst, hport, hmode, hrep]
  rfl

theorem headerWord_unwaited (s : State) (k g o : Nat) : (s.unwaited k).headerWord g o = s.headerWord g o := by
  unfold State.headerWord
  rw [txnPending_unwaited]
  rfl

theorem blockWord_unwaited (s : State) (k g o : Nat) : (s.unwaited k).blockWord g o = s.blockWord g o := by
  unfold State.blockWord
  dsimp only
  rw [txnWord_unwaited]
  rfl

theorem wordNow_unwaited (s : State) (k a : Nat) : (s.unwaited k).wordNow a = s.wordNow a := by
  have hp (g o : Nat) : (s.unwaited k).pageWord g o = s.pageWord g o := by
    unfold State.pageWord
    rw [headerWord_unwaited, blockWord_unwaited]
  unfold State.wordNow
  rw [hp]
  rfl

theorem value_unwaited (s : State) (k : Nat) (w : WordOp) : w.value (s.unwaited k) = w.value s := by
  unfold WordOp.value
  split
  · rfl
  · rw [wordNow_unwaited]

theorem granFree_unwaited (s : State) (k : Nat) : (s.unwaited k).granFree = s.granFree := by
  unfold State.granFree
  rw [sum_still (bibs_unwaited s k) fun _ => rfl]
  rfl

/-! ## What staged words would do -/

theorem store_unwaited (s : State) (k a v : Nat) : (s.unwaited k).store a v = (s.store a v).unwaited k := rfl

theorem ite_unwaited (k : Nat) (t u : State) (c : Prop) [Decidable c] :
    (if c then t.unwaited k else u.unwaited k) = (if c then t else u).unwaited k := (apply_ite (State.unwaited · k) c t u).symm

theorem ite_unwaited_snd (k : Nat) (x y : Bool × State) (c : Bool) :
    (if c then (x.1, x.2.unwaited k) else (y.1, y.2.unwaited k)) = ((if c then x else y).1, (if c then x else y).2.unwaited k) := by
  cases c <;> rfl

theorem domCtrlWrite_unwaited (s : State) (k d v : Nat) : (s.unwaited k).domCtrlWrite d v = (s.domCtrlWrite d v).unwaited k := by
  unfold State.domCtrlWrite
  split
  · rfl
  · rw [store_unwaited]
    exact ite_unwaited k ((s.store (Adr.PWR_DOM_CTRL d) v).setFld (Fd.PWR_DOM_CTRL_TARGET d) 0) (s.store (Adr.PWR_DOM_CTRL d) v)
      (bitsAt v 0 2 = 1 ∧ s.fld (Fd.PWR_DOM_CTRL_TARGET d) = 0)

/-- `t` with the target that the word `w` gives a domain. -/
def State.targets (t : State) (w : WordOp) : State :=
  match targetDomain w.addr with
  | some d => t.domCtrlWrite d (w.value t)
  | none => t

theorem targets_unwaited (s : State) (k : Nat) (w : WordOp) : (s.unwaited k).targets w = (s.targets w).unwaited k := by
  unfold State.targets
  split
  · rw [value_unwaited, domCtrlWrite_unwaited]
  · rfl

theorem targetChanges_eq (s : State) (ws : List WordOp) : s.targetChanges ws =
    if ws.any fun w => (targetDomain w.addr).isSome then
      (List.range 27).filterMap fun d =>
        if (ws.foldl State.targets s).fld (Fd.PWR_DOM_CTRL_TARGET d) = s.fld (Fd.PWR_DOM_CTRL_TARGET d) then none
        else some (d, (ws.foldl State.targets s).fld (Fd.PWR_DOM_CTRL_TARGET d))
    else [] := rfl

theorem targetChanges_unwaited (s : State) (k : Nat) (ws : List WordOp) : (s.unwaited k).targetChanges ws = s.targetChanges ws := by
  have hf : ws.foldl State.targets (s.unwaited k) = (ws.foldl State.targets s).unwaited k :=
    List.foldl_hom (f := (State.unwaited · k)) fun t w => targets_unwaited t k w
  rw [targetChanges_eq, targetChanges_eq, hf]
  rfl

theorem ahead_unwaited (s : State) (k : Nat) (p : Nat → Bool) (ws : List WordOp) : (s.unwaited k).ahead p ws = (s.ahead p ws).unwaited k :=
  List.foldl_hom (f := (State.unwaited · k)) fun t w => by rw [value_unwaited, store_unwaited]

theorem swapStaged_unwaited (s : State) (k : Nat) (ws : List WordOp) : (s.unwaited k).swapStaged ws = s.swapStaged ws := by
  unfold State.swapStaged
  rw [ahead_unwaited]
  rfl

theorem applyHeld_unwaited (s : State) (k : Nat) (sel : Nat → Bool) : (s.unwaited k).applyHeld sel = (s.applyHeld sel).unwaited k := by
  unfold State.applyHeld
  exact List.foldl_hom (f := (State.unwaited · k)) (init := { s with cfgPend := s.cfgPend.filter fun e => !sel e.1 })
    (g₁ := fun (t : State) (e : Nat × Nat) => t.store e.1 e.2) fun t e => store_unwaited t k e.1 e.2

theorem grpHold_unwaited (s : State) (k : Nat) (g : Fin 8) (w : WordOp) : State.grpHold g (s.unwaited k) w = (State.grpHold g s w).unwaited k := by
  have hm : (s.unwaited k).grpMayApply g = s.grpMayApply g := by
    unfold State.grpMayApply State.grpAhead
    rw [applyHeld_unwaited]
    rfl
  unfold State.grpHold
  rw [hm]
  split
  · rw [State.grpAhead, applyHeld_unwaited, value_unwaited]
    rfl
  · rw [value_unwaited]
    rfl

theorem grpNeeds_unwaited (s : State) (k : Nat) (g : Fin 8) : (s.unwaited k).grpNeeds g = s.grpNeeds g := by
  unfold State.grpNeeds State.grpAhead
  dsimp only
  rw [applyHeld_unwaited]
  refine List.map_congr_left fun i _ => ?_
  rw [applyHeld_unwaited]
  rfl

theorem reserveGrp_unwaited (s : State) (k : Nat) (g : Fin 8) : (s.unwaited k).reserveGrp g = (s.reserveGrp g).unwaited k := by
  unfold State.reserveGrp State.grpNeed
  dsimp only
  rw [grpNeeds_unwaited]
  rfl

theorem grpStaged_unwaited (s : State) (k : Nat) (g : Fin 8) (ws : List WordOp) :
    (s.unwaited k).grpStaged g ws = ((s.grpStaged g ws).1, (s.grpStaged g ws).2.unwaited k) := by
  have hf : (ws.filter fun w => isGrpCfg g w.addr).foldl (State.grpHold g) (s.unwaited k)
      = ((ws.filter fun w => isGrpCfg g w.addr).foldl (State.grpHold g) s).unwaited k :=
    List.foldl_hom (f := (State.unwaited · k)) fun t w => grpHold_unwaited t k g w
  unfold State.grpStaged
  dsimp only
  rw [hf]
  generalize (ws.filter fun w => isGrpCfg g w.addr).foldl (State.grpHold g) s = u
  have hn : (u.unwaited k).grpNeed g = u.grpNeed g := by
    unfold State.grpNeed
    rw [grpNeeds_unwaited]
  rw [State.grpAhead, State.grpAhead, State.grpAhead, State.grpAhead, applyHeld_unwaited, applyHeld_unwaited, granFree_unwaited, hn,
    reserveGrp_unwaited]
  exact ite_unwaited_snd k (decide (u.granFree < u.grpNeed g), u.reserveGrp g) (false, u)
    ((u.applyHeld (isGrpCfg g)).flag (Fd.TIME_GRP_CTRL_ENABLE g) && !(s.applyHeld (isGrpCfg g)).flag (Fd.TIME_GRP_CTRL_ENABLE g))

theorem groupsAhead_unwaited (s : State) (k : Nat) (ws : List WordOp) :
    State.groupsAhead ws (s.unwaited k) = ((State.groupsAhead ws s).1, (State.groupsAhead ws s).2.unwaited k) := by
  have hf : (ws.filter fun w => isCushReg w.addr).foldl (fun (t : State) w => t.hold w.addr (w.value t)) (s.unwaited k)
      = ((ws.filter fun w => isCushReg w.addr).foldl (fun (t : State) w => t.hold w.addr (w.value t)) s).unwaited k :=
    List.foldl_hom (f := (State.unwaited · k)) fun t w => by
      rw [value_unwaited]
      rfl
  unfold State.groupsAhead
  dsimp only
  rw [hf]
  generalize (ws.filter fun w => isCushReg w.addr).foldl (fun (t : State) w => t.hold w.addr (w.value t)) s = u
  refine List.foldl_hom (init := (false, u)) (fun x : Bool × State => (x.1, x.2.unwaited k)) fun x g => ?_
  dsimp only
  rw [grpStaged_unwaited]

theorem granulesNeeded_unwaited (s : State) (k : Nat) {ws : List WordOp} (h : s.swapStaged ws = false) :
    (s.unwaited k).granulesNeeded ws = s.granulesNeeded ws := by
  have hs : (s.unwaited k).swapStaged ws = false := (swapStaged_unwaited s k ws).trans h
  unfold State.granulesNeeded
  rw [groupsAhead_unwaited]
  dsimp only
  rw [hs, h, if_neg Bool.false_ne_true, if_neg Bool.false_ne_true, show (fun a => isMaxlen a && !(s.unwaited k).maxlenFixed a)
    = fun a => isMaxlen a && !s.maxlenFixed a from rfl, ahead_unwaited, granFree_unwaited, granFree_unwaited]

end Sys2Proof.Machine
end

section
/-!
PROOFS. The tick of transactions: what a validation decides (15_transactions_and_hosts.md R357–R363).
-/
namespace Sys2Proof.Machine

variable {s t : State} {k n now edge g : Nat} {before after : List Nat}

/-! ## Validations that fail (Table 15.3) -/

theorem pagesOf_unwaited (s : State) (hk : k < 64) : (s.unwaited k).pagesOf k = s.pagesOf k := by
  rw [State.pagesOf, entriesOf_unwaited s hk]
  rfl

theorem opsOf_unwaited (s : State) (hk : k < 64) : (s.unwaited k).opsOf k = s.opsOf k := by
  rw [State.opsOf, entriesOf_unwaited s hk]
  rfl

theorem validate_unblocked (h : s.bibBlocked k = false) : s.validate k now edge = (s.unwaited k).bibChecks k now edge :=
  if_neg (by rw [h]; exact Bool.false_ne_true)

theorem bibLate_unwaited (s : State) (hk : k < 64) : (s.unwaited k).bibLate ((s.unwaited k).bibAt k) now edge = s.bibLate (s.bibAt k) now edge := by
  rw [bibAt_unwaited s hk]
  rfl

/-- A bib that fails its validation with a page to report. -/
theorem failBib_after (hk : k < 64) (hi : (s.bibAt k).state ≠ .implicit) (ho : (s.bibAt k).orphan = false) (hl : (s.bibAt k).later < 4)
    (status last : Nat) : ((s.unwaited k).failBib k status last).bibAt k
      = ((s.unwaited k).bibAt k).abortedWith status (abortPage status last) := by
  have hb := bibAt_unwaited s hk
  have hi' : ((s.unwaited k).bibAt k).state ≠ .implicit := by rw [hb]; exact hi
  rw [State.failBib, if_neg hi', bibAt_abortBib hk (by rw [hb]; exact ho) (by rw [hb]; exact hl)]

theorem validate_late (hk : k < 64) (hb : s.bibBlocked k = false) (hi : (s.bibAt k).state ≠ .implicit) (ho : (s.bibAt k).orphan = false)
    (hl : (s.bibAt k).later < 4) (hlate : s.bibLate (s.bibAt k) now edge = true) :
    ((s.validate k now edge).bibAt k).state = .aborted ∧ ((s.validate k now edge).bibAt k).status = 0x36
      ∧ ((s.validate k now edge).bibAt k).page = 0 := by
  have hv : s.validate k now edge = (s.unwaited k).failBib k St.TOO_LATE 0 := by
    rw [validate_unblocked hb, State.bibChecks]
    exact if_pos ((bibLate_unwaited s hk).trans hlate)
  rw [hv, failBib_after hk hi ho hl]
  exact ⟨rfl, rfl, rfl⟩

/-- A page of the bib that fails. -/
theorem validate_fault {st : Nat} (hk : k < 64) (hb : s.bibBlocked k = false) (hi : (s.bibAt k).state ≠ .implicit)
    (ho : (s.bibAt k).orphan = false) (hl : (s.bibAt k).later < 4) (hlate : s.bibLate (s.bibAt k) now edge = false)
    (hp : ∀ chg, (s.unwaited k).pageFault k chg = some (st, g)) :
    ((s.validate k now edge).bibAt k).state = .aborted ∧ ((s.validate k now edge).bibAt k).status = st
      ∧ ((s.validate k now edge).bibAt k).page = abortPage st g := by
  have hv : s.validate k now edge = (s.unwaited k).failBib k st g := by
    rw [validate_unblocked hb, State.bibChecks]
    dsimp only
    rw [bibLate_unwaited s hk, hlate, if_neg Bool.false_ne_true, hp]
  rw [hv, failBib_after hk hi ho hl]
  exact ⟨rfl, rfl, rfl⟩

theorem find?_append_cons {p : Nat → Bool} (hb : ∀ h ∈ before, p h = false) (hg : p g = true) : (before ++ g :: after).find? p = some g := by
  rw [List.find?_append, List.find?_eq_none.2 fun h hh => by rw [hb h hh]; exact Bool.false_ne_true, Option.none_or, List.find?_cons_of_pos hg]

theorem pageFault_claimed (hk : k < 64) (hp : s.pagesOf k = before ++ g :: after)
    (hb : ∀ h ∈ before, s.claimedByOther (Fin.ofNat 4 (s.bibAt k).port) h = false)
    (hg : s.claimedByOther (Fin.ofNat 4 (s.bibAt k).port) g = true) (chg : List (Nat × Nat)) :
    (s.unwaited k).pageFault k chg = some (St.CLAIMED, g) := by
  have hsome : (before ++ g :: after).find? (fun g => (s.unwaited k).claimedByOther (Fin.ofNat 4 (s.bibAt k).port) g) = some g :=
    find?_append_cons hb hg
  rw [State.pageFault]
  dsimp only
  rw [pagesOf_unwaited s hk, hp, bibAt_unwaited s hk]
  dsimp only
  rw [hsome]

theorem pageFault_conflict {v : Nat} (hk : k < 64) (hp : s.pagesOf k = before ++ g :: after)
    (hc : ∀ h ∈ s.pagesOf k, s.claimedByOther (Fin.ofNat 4 (s.bibAt k).port) h = false)
    (hb : ∀ h ∈ before, (s.bibAt k).versions.find? (·.1 == h) = some (h, s.pageVer h))
    (hg : (s.bibAt k).versions.find? (·.1 == g) = some (g, v)) (hv : v ≠ s.pageVer g) (chg : List (Nat × Nat)) :
    (s.unwaited k).pageFault k chg = some (St.CONFLICT, g) := by
  have hnone : (s.pagesOf k).find? (fun g => (s.unwaited k).claimedByOther (Fin.ofNat 4 (s.bibAt k).port) g) = none :=
    List.find?_eq_none.2 fun h hh => by
      have := hc h hh
      exact fun e => Bool.false_ne_true (this.symm.trans e)
  have hsome : (s.pagesOf k).find? (fun g => (((s.bibAt k).versions.find? (·.1 == g)).map (·.2)).getD 0 != s.pageVer g) = some g := by
    rw [hp]
    refine find?_append_cons (fun h hh => ?_) ?_
    · rw [hb h hh]
      exact bne_self_eq_false _
    · rw [hg]
      exact bne_iff_ne.2 hv
  rw [State.pageFault]
  dsimp only
  rw [pagesOf_unwaited s hk, bibAt_unwaited s hk]
  dsimp only
  rw [hnone]
  dsimp only
  rw [show (s.unwaited k).pageVer = s.pageVer from rfl, hsome]

theorem pageFault_none (hk : k < 64) (hc : ∀ h ∈ s.pagesOf k, s.claimedByOther (Fin.ofNat 4 (s.bibAt k).port) h = false)
    (hv : ∀ h ∈ s.pagesOf k, (s.bibAt k).versions.find? (·.1 == h) = some (h, s.pageVer h)) (ho : ∀ h ∈ s.pagesOf k, s.pageOn h = true)
    (chg : List (Nat × Nat)) : (s.unwaited k).pageFault k chg = none := by
  have hnone : (s.pagesOf k).find? (fun g => (s.unwaited k).claimedByOther (Fin.ofNat 4 (s.bibAt k).port) g) = none :=
    List.find?_eq_none.2 fun h hh => by
      have := hc h hh
      exact fun e => Bool.false_ne_true (this.symm.trans e)
  have hver : (s.pagesOf k).find? (fun g => (((s.bibAt k).versions.find? (·.1 == g)).map (·.2)).getD 0 != s.pageVer g) = none :=
    List.find?_eq_none.2 fun h hh => by
      rw [hv h hh, Option.map_some, Option.getD_some, bne_self_eq_false]
      exact Bool.false_ne_true
  have hon : (s.pagesOf k).find? (fun g => !(pageDomain g).any fun d => (s.unwaited k).domOn d || chg.contains (d, 2)) = none :=
    List.find?_eq_none.2 fun h hh => by
      have hp := ho h hh
      unfold State.pageOn at hp
      cases hd : pageDomain h with
      | none => rw [hd] at hp; cases hp
      | some d =>
        rw [hd] at hp
        have hd : (s.unwaited k).domOn d = true := hp
        rw [Option.any_some, hd, Bool.true_or]
        exact Bool.false_ne_true
  rw [State.pageFault]
  dsimp only
  rw [pagesOf_unwaited s hk, bibAt_unwaited s hk]
  dsimp only
  rw [hnone]
  dsimp only
  rw [show (s.unwaited k).pageVer = s.pageVer from rfl, hver]
  dsimp only
  rw [hon]
  rfl

/-! ## A validation that passes (R359) -/

theorem validate_passes (hk : k < 64) (hb : s.bibBlocked k = false) (hlate : s.bibLate (s.bibAt k) now edge = false)
    (hc : ∀ h ∈ s.pagesOf k, s.claimedByOther (Fin.ofNat 4 (s.bibAt k).port) h = false)
    (hv : ∀ h ∈ s.pagesOf k, (s.bibAt k).versions.find? (·.1 == h) = some (h, s.pageVer h)) (ho : ∀ h ∈ s.pagesOf k, s.pageOn h = true)
    (hs : s.swapStaged (s.opsOf k) = false) (ht : s.targetChanges (s.opsOf k) = []) (hg : s.granulesNeeded (s.opsOf k) = some n)
    (hch : s.change = none) (hpll : s.domOn Dm.PLL = true) (hf : s.fabState ≠ .stopped) :
    s.validate k now edge = (s.unwaited k).passes k n := by
  have hops := opsOf_unwaited s hk
  rw [validate_unblocked hb]
  refine bibChecks_pass hk ((bibLate_unwaited s hk).trans hlate) ?_ (pageFault_none hk hc hv ho []) ?_ ?_ hch hpll (.inl hf)
  · rw [hops, targetChanges_unwaited, ht]
  · rw [hops, swapStaged_unwaited, hs]
  · rw [hops, granulesNeeded_unwaited s k hs, hg]

theorem validate_flies (hk : k < 64) (hst : (s.bibAt k).state = .opened ∨ (s.bibAt k).state = .scheduled)
    (hv : s.validate k now edge = (s.unwaited k).passes k n) :
    ((s.validate k now edge).bibAt k).state = .inFlight ∧ ((s.validate k now edge).bibAt k).status = 0x02
      ∧ ((s.validate k now edge).bibAt k).reserved = n ∧ ((s.validate k now edge).bibAt k).validated = s.txn.order + 1
      ∧ (s.validate k now edge).txn.order = s.txn.order + 1 ∧ Quiet (fun _ => False) s (s.validate k now edge) := by
  have hst' : ((s.unwaited k).bibAt k).state = .opened ∨ ((s.unwaited k).bibAt k).state = .scheduled := by
    rw [bibAt_unwaited s hk]
    exact hst
  rw [hv, bibAt_passes _ hk hst']
  exact ⟨rfl, rfl, rfl, rfl, rfl, (unwaited_quiet s k).trans (passes_quiet _ k n)⟩

theorem timedValidation_due {v : BitVec 16} (hv : s.slotOf v.toNat = some k) (hc : s.domOn Dm.CORE = true)
    (hs : (s.bibAt k).state = .scheduled) (hw : (s.bibAt k).waitsPage = false) (hvo : s.voted k = false)
    (hd : s.validationDue (s.bibAt k) = true) : exec (.timedValidation v) s = .next (s.validate k s.applyTick s.syscnt).pump := by
  rw [show exec (.timedValidation v) s = execTimedValidation v s from rfl, execTimedValidation, hv]
  exact next_pos (by rw [hc, hs, hw, hvo, hd]; rfl)

end Sys2Proof.Machine
end

section
/-!
PROOFS. The apply tick of a bib (15_transactions_and_hosts.md R361; Table 15.3).
-/
namespace Sys2Proof.Machine

variable {s t u : State} {k tick : Nat}

/-! ## Events in one cycle (R378) -/

/-- `s` with `o` as the records of the present cycle. -/
def State.withEvtNow (s : State) (o : Option (List EvtRec)) : State := { s with evtNow := o }

theorem deliver_events (e : EvtRec) (t : State) : EventsOnly RingRegs t (deliverWith raiseRing e t) := by
  refine deliverWith_events (fun _ h => h) (fun k u => ?_) e t
  refine (raise_events u 0x00C k).mono ?_
  rintro a (⟨q, hq, rfl⟩ | h)
  · rw [List.mem_singleton.1 hq]
    exact .inl rfl
  · exact h

/-- What happens in one cycle happens in the state whose records gather; its records follow. -/
theorem inOneCycle_events (s : State) (f : State → State) :
    ∃ l o, EventsOnly RingRegs ((f (s.withEvtNow (some l))).withEvtNow o) (s.inOneCycle f) := by
  cases h : s.evtNow with
  | some l =>
    have hs : s.withEvtNow (some l) = s := by rw [State.withEvtNow, ← h]
    have he : s.inOneCycle f = f s := by rw [State.inOneCycle, h]
    refine ⟨l, (f s).evtNow, ?_⟩
    rw [he, hs]
    exact .refl _ _
  | none =>
    refine ⟨[], none, ?_⟩
    rw [State.inOneCycle, h]
    exact EventsOnly.foldl _ (fun u e => deliver_events e u) _ _

/-! ## The lines that start at a tick -/

theorem startsIn_same (h : t.saps = s.saps) : s.startsIn t = t := by
  have hj (n : Fin 32) (j : Fin 2) : (if (t.line n j).live && !(s.line n j).live then
      t.updLine n j fun l => { l with startTick := l.startTick + 1 } else t) = t := by
    have hl : t.line n j = s.line n j := by rw [State.line, State.line, h]
    rw [hl, Bool.and_not_self]
    exact if_neg Bool.false_ne_true
  exact List.foldl_fixed' (fun n => List.foldl_fixed' (hj n) _) _

/-! ## The end of a bib that applied -/

/-- A bib that committed at `tick`. -/
def Bib.committedAt (b : Bib) (tick sys : Nat) : Bib :=
  { b with state := .committed, status := St.OK, tick := tick, sys := sys, versions := [] }

/-- `s` with the bib in slot `k` committed, and counted. -/
def State.counted (s : State) (k tick : Nat) : State :=
  (s.updBib k (·.committedAt tick s.syscnt)).countWrap Fd.TXN_COMMIT_CNT_COUNT 1

/-- `s` with the outcome of its last commit recorded. -/
def State.recorded (s : State) (d : Nat) : State := s.withTxn { s.txn with lastCommitted := some d }

/-- `s` with the commit of the bib in slot `k` counted and reported. -/
def State.reported (s : State) (k tick d : Nat) : State := ((s.counted k tick).recorded d).raiseWith txnPage TxnEv.COMMITTED d

theorem commitBib_eq (h : (s.bibAt k).state ≠ .implicit) :
    s.commitBib k tick = ((s.reported k tick (outcomeDetail (s.bibAt k) St.OK)).tellOutcome k).retireAfter k := if_neg h

/-- What the end of the bib in slot `k` leaves, when no operation waits for it. -/
structure CommittedAt (k tick : Nat) (s t : State) : Prop where
  bib : t.bibAt k = (s.bibAt k).committedAt tick s.syscnt
  idle : (∀ j : Fin 64, (s.bibAt j).waitsPage = false) → ∀ j : Fin 64, (t.bibAt j).waitsPage = false
  ports : t.ports = s.ports
  gains : t.gains = s.gains
  vers : t.pageVers = s.pageVers
  doms : t.doms = s.doms
  entries : t.txn.staging = s.txn.staging ∧ t.txn.applied = s.txn.applied
  count : t.fld Fd.TXN_COMMIT_CNT_COUNT = (s.fld Fd.TXN_COMMIT_CNT_COUNT + 1) % 2 ^ 32
  evt : t.evt txnPage TxnEv.COMMITTED = true
  frame : Frame (fun a => a = Adr.TXN_COMMIT_CNT ∨ StatusOf [txnPage] a) s t

theorem bibAt_counted (s : State) (hk : k < 64) : (s.counted k tick).bibAt k = (s.bibAt k).committedAt tick s.syscnt :=
  bibAt_updBib_same s _ hk

theorem counted_regsOnly (s : State) (k tick : Nat) : RegsOnly (s.updBib k (·.committedAt tick s.syscnt)) (s.counted k tick) :=
  (RegsOnly.refl _).setFld _ _

theorem counted_bibs (s : State) (k tick : Nat) : (s.counted k tick).txn = (s.updBib k (·.committedAt tick s.syscnt)).txn :=
  (counted_regsOnly s k tick).same State.txn fun _ => rfl

theorem counted_count (s : State) (k tick : Nat) :
    (s.counted k tick).fld Fd.TXN_COMMIT_CNT_COUNT = (s.fld Fd.TXN_COMMIT_CNT_COUNT + 1) % 2 ^ 32 := by
  rw [State.counted, countWrap_word _ _ ⟨rfl, rfl⟩, fld_updBib]

theorem counted_frame (s : State) (k tick : Nat) : Frame (fun a => a = Adr.TXN_COMMIT_CNT ∨ StatusOf [txnPage] a) s (s.counted k tick) := by
  have h : Frame (fun a => a = Adr.TXN_COMMIT_CNT ∨ StatusOf [txnPage] a) s (s.updBib k (·.committedAt tick s.syscnt)) :=
    .congr (.refl _ s) rfl rfl rfl
  rw [State.counted, State.countWrap]
  exact h.setFld _ (.inl rfl)

theorem reported_events (s : State) (k tick d : Nat) : EventsOf [txnPage] ((s.counted k tick).recorded d) (s.reported k tick d) :=
  raiseFuel_status 4 txnPage TxnEv.COMMITTED d false _

theorem reported_evt (s : State) (k tick d : Nat) : (s.reported k tick d).evt txnPage TxnEv.COMMITTED = true :=
  raiseFuel_bit 3 txnPage .page TxnEv.COMMITTED d false _ (by decide)

theorem EventsOnly.gains {A : Nat → Prop} (h : EventsOnly A s t) : t.gains = s.gains := by rw [h.rest]

theorem EventsOnly.pageVers {A : Nat → Prop} (h : EventsOnly A s t) : t.pageVers = s.pageVers := by rw [h.rest]

theorem EventsOnly.doms {A : Nat → Prop} (h : EventsOnly A s t) : t.doms = s.doms := by rw [h.rest]

theorem recorded_txn (s : State) (d : Nat) : (s.recorded d).txn.bibs = s.txn.bibs ∧ (s.recorded d).txn.staging = s.txn.staging
    ∧ (s.recorded d).txn.applied = s.txn.applied := ⟨rfl, rfl, rfl⟩

theorem recorded_kept (s : State) (d : Nat) : (s.recorded d).ports = s.ports ∧ (s.recorded d).gains = s.gains
    ∧ (s.recorded d).pageVers = s.pageVers ∧ (s.recorded d).doms = s.doms := ⟨rfl, rfl, rfl, rfl⟩

theorem reported_txn (s : State) (k tick d : Nat) : (s.reported k tick d).txn.bibs = (s.updBib k (·.committedAt tick s.syscnt)).txn.bibs
    ∧ (s.reported k tick d).txn.staging = s.txn.staging ∧ (s.reported k tick d).txn.applied = s.txn.applied := by
  have he := (reported_events s k tick d).txn
  have hc := counted_bibs s k tick
  generalize (s.reported k tick d).txn = x at *
  generalize s.counted k tick = u at *
  obtain ⟨h1, h2, h3⟩ := recorded_txn u d
  rw [he, h1, h2, h3, hc]
  exact ⟨rfl, rfl, rfl⟩

theorem updBib_kept (s : State) (k : Nat) (f : Bib → Bib) : (s.updBib k f).ports = s.ports ∧ (s.updBib k f).gains = s.gains
    ∧ (s.updBib k f).pageVers = s.pageVers ∧ (s.updBib k f).doms = s.doms := ⟨rfl, rfl, rfl, rfl⟩

theorem countWrap_kept (s : State) (f : Fld) (n : Nat) : (s.countWrap f n).ports = s.ports ∧ (s.countWrap f n).gains = s.gains
    ∧ (s.countWrap f n).pageVers = s.pageVers ∧ (s.countWrap f n).doms = s.doms := ⟨rfl, rfl, rfl, rfl⟩

theorem counted_kept (s : State) (k tick : Nat) : (s.counted k tick).ports = s.ports ∧ (s.counted k tick).gains = s.gains
    ∧ (s.counted k tick).pageVers = s.pageVers ∧ (s.counted k tick).doms = s.doms := by
  obtain ⟨h1, h2, h3, h4⟩ := countWrap_kept (s.updBib k (·.committedAt tick s.syscnt)) Fd.TXN_COMMIT_CNT_COUNT 1
  obtain ⟨g1, g2, g3, g4⟩ := updBib_kept s k (·.committedAt tick s.syscnt)
  exact ⟨h1.trans g1, h2.trans g2, h3.trans g3, h4.trans g4⟩

theorem reported_kept (s : State) (k tick d : Nat) : (s.reported k tick d).ports = s.ports ∧ (s.reported k tick d).gains = s.gains
    ∧ (s.reported k tick d).pageVers = s.pageVers ∧ (s.reported k tick d).doms = s.doms := by
  have h := reported_events s k tick d
  obtain ⟨h1, h2, h3, h4⟩ := recorded_kept (s.counted k tick) d
  obtain ⟨g1, g2, g3, g4⟩ := counted_kept s k tick
  exact ⟨h.ports.trans (h1.trans g1), h.gains.trans (h2.trans g2), h.pageVers.trans (h3.trans g3), h.doms.trans (h4.trans g4)⟩

theorem fld_recorded (s : State) (d : Nat) (f : Fld) : (s.recorded d).fld f = s.fld f := rfl

theorem Frame.recorded {R : Nat → Prop} (h : Frame R s t) (d : Nat) : Frame R s (t.recorded d) := h.withTxn _

theorem commitCnt_beside : ¬ StatusOf [txnPage] Adr.TXN_COMMIT_CNT := by
  rw [StatusOf]
  decide

/-- What a reported commit leaves. -/
structure ReportedAt (k tick : Nat) (s u : State) : Prop where
  bibs : u.txn.bibs = (s.updBib k (·.committedAt tick s.syscnt)).txn.bibs
  ports : u.ports = s.ports
  gains : u.gains = s.gains
  vers : u.pageVers = s.pageVers
  doms : u.doms = s.doms
  entries : u.txn.staging = s.txn.staging ∧ u.txn.applied = s.txn.applied
  count : u.fld Fd.TXN_COMMIT_CNT_COUNT = (s.fld Fd.TXN_COMMIT_CNT_COUNT + 1) % 2 ^ 32
  evt : u.evt txnPage TxnEv.COMMITTED = true
  frame : Frame (fun a => a = Adr.TXN_COMMIT_CNT ∨ StatusOf [txnPage] a) s u

theorem reported_after (s : State) (k tick d : Nat) : ReportedAt k tick s (s.reported k tick d) := by
  obtain ⟨hbibs, hstag, happ⟩ := reported_txn s k tick d
  obtain ⟨hports, hgains, hvers, hdoms⟩ := reported_kept s k tick d
  have hev := reported_events s k tick d
  refine ⟨hbibs, hports, hgains, hvers, hdoms, ⟨hstag, happ⟩, ?_, reported_evt s k tick d,
    ((counted_frame s k tick).recorded _).trans (hev.frame.mono fun _ h => .inr h)⟩
  rw [fld_of_reg (hev.regs _ commitCnt_beside), fld_recorded, counted_count]

theorem ReportedAt.retired (h : ReportedAt k tick s u) (hk : k < 64) (hl : (s.bibAt k).later < 4)
    (hw : ∀ q : Fin 4, s.ports[q].waiting = []) : CommittedAt k tick s ((u.tellOutcome k).retireAfter k) := by
  obtain ⟨hbibs, hports, hgains, hvers, hdoms, hent, hcnt, hevt, hfr⟩ := h
  have htell : u.tellOutcome k = u := tellOutcome_unheard fun q x hx => by
    rw [hports, hw q] at hx
    cases hx
  have hb : u.bibAt k = (s.bibAt k).committedAt tick s.syscnt := by
    rw [State.bibAt, hbibs]
    exact bibAt_updBib_same s _ hk
  rw [htell]
  refine ⟨?_, fun h => ?_, hports, hgains, hvers, hdoms, hent, hcnt, hevt, hfr.congr rfl rfl rfl⟩
  · rw [bibAt_retireAfter_same hk (by rw [hb]; exact hl), hb]
  · refine retireAfter_idle (fun j => ?_) k
    rw [State.bibAt, hbibs]
    exact updBib_idle (f := (·.committedAt tick s.syscnt)) h (h ⟨k, hk⟩) j

theorem commitBib_after (hk : k < 64) (hi : (s.bibAt k).state ≠ .implicit) (hl : (s.bibAt k).later < 4)
    (hw : ∀ q : Fin 4, s.ports[q].waiting = []) : CommittedAt k tick s (s.commitBib k tick) := by
  rw [commitBib_eq hi]
  exact (reported_after s k tick _).retired hk hl hw

/-! ## The apply tick (R361) -/

/-- `s` with what the bib in slot `k` reserved free. -/
def State.freed (s : State) (k : Nat) : State := s.updBib k fun b => { b with reserved := 0 }

/-- `s` with the words of the bib in slot `k` written, the versions of its pages counted, and its entries spent. -/
def State.written (s : State) (k : Nat) : State :=
  ((s.pagesOf k).foldl State.bumpVer ((s.freed k).startsIn ((s.freed k).applyEntries k))).spendEntries k

theorem applyBib_steps (s : State) (k : Nat) : ∃ f, s.applyBib k = s.inOneCycle f ∧
    ∀ u : State, u.change = none → (∀ g ∈ u.pagesOf k, u.pageOn g = true) → f u = (u.written k).commitBib k u.applyTick := by
  refine ⟨_, rfl, fun u hc hon => ?_⟩
  have hw : u.stillWaking k = false := by rw [State.stillWaking, hc]
  have hn : (u.pagesOf k).find? (fun g => !u.pageOn g) = none := List.find?_eq_none.2 fun g hg => by
    rw [hon g hg]
    decide
  rw [hw, if_neg Bool.false_ne_true, hn]
  dsimp only
  rw [ownsChange_none hc, if_neg Bool.false_ne_true]
  rfl

theorem txnApply_eq {v : BitVec 16} (hv : s.slotOf v.toNat = some k) (hn : s.applyNext k = true) (hw : s.tickWrites = [])
    (hs : (s.applyBib k).Settled) (hp : (s.applyBib k).domOn Dm.PLL = true) : exec (.txnApply v) s = .next (s.applyBib k) := by
  rw [show exec (.txnApply v) s = execTxnApply v s from rfl, execTxnApply, hv]
  refine (next_pos hn).trans (next_eq ?_)
  rw [State.applyNow, flushParams_nil hw]
  rw [hp, if_pos rfl, pump_settled hs]

theorem slotOf_lt {v : Nat} (h : s.slotOf v = some k) : k < 64 := List.mem_range.1 (List.mem_of_find?_eq_some h)

/-- What the writing of a bib leaves of ports, bibs, domains and the time. -/
structure WrittenAs (k : Nat) (s w : State) : Prop where
  bib : w.bibAt k = { s.bibAt k with reserved := 0 }
  idle : (∀ j : Fin 64, (s.bibAt j).waitsPage = false) → ∀ j : Fin 64, (w.bibAt j).waitsPage = false
  ports : w.ports = s.ports
  doms : w.doms = s.doms
  sys : w.syscnt = s.syscnt

theorem EventsOnly.settled {A : Nat → Prop} (h : EventsOnly A s t) (hs : s.Settled) : t.Settled where
  ops p := by
    rw [h.ports]
    exact hs.ops p
  bibs j := by
    rw [State.bibAt, h.txn]
    exact hs.bibs j

/-- An apply tick, but for its events: the words are written, and the bib commits. -/
theorem txnApply_runs {v : BitVec 16} (hv : s.slotOf v.toNat = some k) (hn : s.applyNext k = true) (htw : s.tickWrites = [])
    (hc : s.change = none) (hpll : s.domOn Dm.PLL = true) (hset : s.Settled) (hst : (s.bibAt k).state = .inFlight)
    (hl : (s.bibAt k).later < 4) (hon : ∀ g ∈ s.pagesOf k, s.pageOn g = true)
    (hwr : ∀ l, WrittenAs k s ((s.withEvtNow (some l)).written k)) :
    ∃ l o c, CommittedAt k s.applyTick ((s.withEvtNow (some l)).written k) c
      ∧ EventsOnly RingRegs (c.withEvtNow o) (s.applyBib k) ∧ exec (.txnApply v) s = .next (s.applyBib k) := by
  have hk := slotOf_lt hv
  obtain ⟨f, hf, hu⟩ := applyBib_steps s k
  obtain ⟨l, o, he⟩ := inOneCycle_events s f
  rw [← hf, hu (s.withEvtNow (some l)) hc hon] at he
  obtain ⟨hb, hid, hpo, hdo, -⟩ := hwr l
  have hcom : CommittedAt k s.applyTick ((s.withEvtNow (some l)).written k) (((s.withEvtNow (some l)).written k).commitBib k s.applyTick) :=
    commitBib_after hk (by rw [hb]; exact fun e => by rw [show ({ s.bibAt k with reserved := 0 } : Bib).state = _ from hst] at e; cases e)
      (by rw [hb]; exact hl) (fun q => by rw [hpo]; exact hset.ops q)
  have ht : (s.withEvtNow (some l)).applyTick = s.applyTick := rfl
  rw [ht] at he
  generalize ((s.withEvtNow (some l)).written k).commitBib k s.applyTick = c at *
  have hcs : (c.withEvtNow o).Settled :=
    { ops := fun q => (congrArg (fun x : Vector Port 4 => x[q].waiting) (hcom.ports.trans hpo)).trans (hset.ops q)
      bibs := hcom.idle (hid hset.bibs) }
  have hd : (s.applyBib k).domOn Dm.PLL = true := by
    have hdoms : (s.applyBib k).doms = s.doms := he.doms.trans (hcom.doms.trans hdo)
    rw [State.domOn, State.dom, hdoms]
    exact hpll
  exact ⟨l, o, c, hcom, he, txnApply_eq hv hn htw (he.settled hcs) hd⟩

/-! ## A bib without entries -/

theorem applyEntries_nil (h : s.opsOf k = []) : s.applyEntries k = s := by
  have hg : (List.finRange 8).foldl (fun (u : State) (g : Fin 8) =>
      if ([] : List WordOp).any fun w => isGrpCfg g w.addr then (u.grpStaged g []).2.grpApply g else u) s = s :=
    List.foldl_fixed' (fun _ => rfl) _
  have ho : applyOrder [] = [] := rfl
  unfold State.applyEntries
  rw [h]
  dsimp only
  rw [ho, List.filter_nil, List.foldl_nil, hg, swapStaged_nil, if_neg Bool.false_ne_true]
  rfl

theorem written_nil (h : s.txn.entriesOf (s.bibAt k).value = []) (hk : k < 64) : s.written k = (s.freed k).spendEntries k := by
  have hb : (s.freed k).bibAt k = { s.bibAt k with reserved := 0 } := bibAt_updBib_same s _ hk
  have ho : (s.freed k).opsOf k = [] := opsOf_none (by rw [hb]; exact h)
  rw [State.written, pagesOf_none h, List.foldl_nil, applyEntries_nil ho, startsIn_same rfl]

theorem bibAt_freed (s : State) (hk : k < 64) : (s.freed k).bibAt k = { s.bibAt k with reserved := 0 } := bibAt_updBib_same s _ hk

theorem freed_idle (hk : k < 64) (h : ∀ j : Fin 64, (s.bibAt j).waitsPage = false) : ∀ j : Fin 64, ((s.freed k).bibAt j).waitsPage = false :=
  updBib_idle (f := fun b => { b with reserved := 0 }) h (h ⟨k, hk⟩)

theorem commitCnt_noRing : ¬ RingRegs Adr.TXN_COMMIT_CNT := by
  rw [RingRegs]
  decide

theorem txnApply_none {v : BitVec 16} (hv : s.slotOf v.toNat = some k) (hn : s.applyNext k = true) (htw : s.tickWrites = [])
    (hc : s.change = none) (hpll : s.domOn Dm.PLL = true) (hset : s.Settled) (hst : (s.bibAt k).state = .inFlight)
    (hl : (s.bibAt k).later < 4) (he : s.txn.entriesOf (s.bibAt k).value = []) : After (exec (.txnApply v) s) fun t =>
      (t.bibAt k).state = .committed ∧ (t.bibAt k).status = 0x00 ∧ (t.bibAt k).sys = s.syscnt
      ∧ (t.bibAt k).tick = (if s.fabRuns then s.tickcnt + 1 else if s.startsNow then 0 else s.tickcnt)
      ∧ t.fld Fd.TXN_COMMIT_CNT_COUNT = (s.fld Fd.TXN_COMMIT_CNT_COUNT + 1) % 2 ^ 32 ∧ t.evt txnPage TxnEv.COMMITTED = true
      ∧ Frame (fun a => a = Adr.TXN_COMMIT_CNT ∨ StatusOf [txnPage] a) s t := by
  have hk := slotOf_lt hv
  have hwn (l : List EvtRec) : (s.withEvtNow (some l)).written k = ((s.withEvtNow (some l)).freed k).spendEntries k := written_nil he hk
  have hpages : s.pagesOf k = [] := pagesOf_none he
  have hwr (l : List EvtRec) : WrittenAs k s ((s.withEvtNow (some l)).written k) := by
    rw [hwn]
    exact ⟨bibAt_freed s hk, freed_idle hk, rfl, rfl, rfl⟩
  obtain ⟨l, o, c, hcom, hev, hex⟩ := txnApply_runs hv hn htw hc hpll hset hst hl (by rw [hpages]; simp) hwr
  have hq : Quiet (fun _ => False) s ((s.withEvtNow (some l)).written k) := by
    rw [hwn]
    exact .congr (.refl _ s) rfl rfl rfl
  have hwb := (hwr l).bib
  have hws := (hwr l).sys
  generalize (s.withEvtNow (some l)).written k = w at *
  have hb : (s.applyBib k).bibAt k = (w.bibAt k).committedAt s.applyTick w.syscnt := by
    rw [State.bibAt, hev.txn]
    exact hcom.bib
  refine .of_eq hex ⟨?_, ?_, ?_, ?_, ?_, ?_, ?_⟩
  · rw [hb]
    rfl
  · rw [hb]
    rfl
  · rw [hb, hws]
    rfl
  · rw [hb]
    rfl
  · rw [fld_of_reg (hev.regs _ commitCnt_noRing)]
    exact hcom.count.trans (by rw [fld_of_reg (hq.regs _ id)])
  · exact hev.bits _ _ hcom.evt
  · exact ((hq.mono fun _ => False.elim).frame.trans (hcom.frame.congr (u := c.withEvtNow o) rfl rfl rfl)).trans
      (hev.frame.mono fun _ h => .inr (.inr h))

/-- Settles O33. -/
theorem transactionTicks : Obligations.TransactionTicks := by
  unfold Obligations.TransactionTicks
  refine ⟨fun v k s hv hc hs hw hvo hd => timedValidation_due hv hc hs hw hvo hd,
    fun k now edge s hk hb hi ho hl hlate => validate_late hk hb hi ho hl hlate,
    fun k now edge g before after s hk hb hi ho hl hlate hp hbe hg => validate_fault hk hb hi ho hl hlate (pageFault_claimed hk hp hbe hg),
    fun k now edge g before after s hk hb hi ho hl hlate hp hc hbe ⟨v, hg, hv⟩ =>
      validate_fault hk hb hi ho hl hlate (pageFault_conflict hk hp hc hbe hg hv),
    fun k now edge n s hk hb hst hlate hc hv ho hs ht hg hch hpll hf =>
      validate_flies hk hst (validate_passes hk hb hlate hc hv ho hs ht hg hch hpll hf),
    fun v k s hv hn htw hc hpll hset hst hl he => txnApply_none hv hn htw hc hpll hset hst hl he, fun k status last s hk ho hl he => ?_⟩
  obtain ⟨hall, hcon⟩ := abortBib_fld he ho status last
  obtain ⟨hev, hfull⟩ := abortBib_evt ho status last
  have hb := bibAt_abortBib hk ho hl status last
  exact ⟨congrArg Bib.state hb, congrArg Bib.status hb, congrArg Bib.page hb, hall, hcon, hev, hfull, abortBib_frame he ho status last⟩

end Sys2Proof.Machine
end

section
/-!
PROOFS. The apply tick of a bib with one staged gain target (15_transactions_and_hosts.md R355, R361).
-/
namespace Sys2Proof.Machine

variable {s t u : State} {k : Nat} {slot : Fin 4096} {e : Entry}

/-! ## The address of a gain slot -/

theorem slotAddr_range (slot : Fin 4096) : 0x50040000 ≤ slotAddr slot ∧ slotAddr slot < 0x50048000 ∧ slotAddr slot % 8 = 0 := by
  have := slot.isLt
  dsimp only [slotAddr]
  omega

theorem governs_slot (slot : Fin 4096) : governs (slotAddr slot) = mixPage := by
  have ⟨h1, h2, _⟩ := slotAddr_range slot
  generalize slotAddr slot = a at *
  unfold governs paramPage
  rw [if_neg (by simp only [Bool.and_eq_true, decide_eq_true_eq]; omega), if_pos h2]

theorem applyRank_slot (slot : Fin 4096) : applyRank (slotAddr slot) = 0 := by
  have ⟨h1, h2, _⟩ := slotAddr_range slot
  generalize slotAddr slot = a at *
  have hs : (List.range 32).find? (fun n => a == Adr.SAP_CTRL n) = none := List.find?_eq_none.2 fun n hn => by
    have := List.mem_range.1 hn
    simp only [beq_iff_eq, Adr.SAP_CTRL]
    omega
  have hp : (List.range 16).find? (fun n => a == Adr.AIN_PHANTOM n) = none := List.find?_eq_none.2 fun n hn => by
    have := List.mem_range.1 hn
    simp only [beq_iff_eq, Adr.AIN_PHANTOM]
    omega
  have hg : isGrpReg a = false := by
    unfold isGrpReg
    simp only [Adr.TIME_GRP_CTRL, Bool.and_eq_false_iff, decide_eq_false_iff_not]
    omega
  unfold applyRank
  rw [hs, hp, hg]
  rfl

theorem paramApply_slot (s : State) (slot : Fin 4096) (v : Nat) : s.paramApply (slotAddr slot) v = (s.store (slotAddr slot) v).aimGain (slotAddr slot) := by
  have ⟨h1, h2, h3⟩ := slotAddr_range slot
  generalize slotAddr slot = a at *
  have hm : s.maxlenFixed a = false := maxlenFixed_of_not (by simp [isMaxlen]; omega)
  have ho : objectOf a = none := by
    unfold objectOf
    rw [if_neg (by omega), if_neg (by omega), if_neg (by omega)]
  have hg : isGainAddr a = true := by simp [isGainAddr]; omega
  rw [State.paramApply, hm, if_neg Bool.false_ne_true, ho]
  exact if_pos hg

theorem applyWrite_slot (s : State) (p : Fin 4) (slot : Fin 4096) (v : Nat) : s.applyWrite p (slotAddr slot) v = s.paramApply (slotAddr slot) v := by
  have ⟨h1, h2, _⟩ := slotAddr_range slot
  generalize slotAddr slot = a at *
  unfold State.applyWrite
  rw [if_neg (by simp only [Bool.and_eq_true, decide_eq_true_eq]; omega)]
  exact if_pos (by simp; omega)

/-! ## The words of the bib -/

theorem opsOf_one (h : s.txn.entriesOf (s.bibAt k).value = [e]) (he : e.kind = 1) : s.opsOf k = [⟨e.addr, none, e.data⟩] := by
  rw [State.opsOf, h, stagedOps, if_neg (by rw [he]; decide)]
  rfl

theorem pagesOf_slot (h : s.txn.entriesOf (s.bibAt k).value = [e]) (ha : e.addr = slotAddr slot) : s.pagesOf k = [mixPage] := by
  rw [State.pagesOf, h, List.map_cons, ha, governs_slot]
  decide

theorem applyOrder_slot {w : WordOp} (h : w.addr = slotAddr slot) : applyOrder [w] = [w] := by
  have hr : applyRank w.addr = 0 := by rw [h, applyRank_slot]
  have hf (r : Nat) : [w].filter (fun x => applyRank x.addr == r) = if 0 == r then [w] else [] := by
    rw [List.filter_cons, hr, List.filter_nil]
  unfold applyOrder
  simp only [hf]
  rfl

theorem not_grpCfg_slot (g : Fin 8) : isGrpCfg g (slotAddr slot) = false := by
  have ⟨h1, h2, _⟩ := slotAddr_range slot
  have hg := g.isLt
  generalize slotAddr slot = a at *
  simp only [isGrpCfg, Adr.TIME_GRP_CTRL, Adr.TIME_GRP_MEMBERS_LO, Adr.TIME_GRP_MEMBERS_HI, Adr.TIME_GRP_DELAY, Adr.TIME_GRP_SNOW,
    Bool.or_eq_false_iff, beq_eq_false_iff_ne]
  omega

theorem applyEntries_slot (h : s.opsOf k = [⟨slotAddr slot, none, e.data⟩]) : s.applyEntries k = s.paramApply (slotAddr slot) e.data := by
  have hne : (slotAddr slot != Adr.FAB_SWAP) = true := by
    have ⟨h1, _, _⟩ := slotAddr_range slot
    exact bne_iff_ne.2 (by simp only [Adr.FAB_SWAP]; omega)
  have hearly : (applyOrder [⟨slotAddr slot, none, e.data⟩]).filter (fun w => w.addr != Adr.FAB_SWAP && applyRank w.addr < 17)
      = [⟨slotAddr slot, none, e.data⟩] := by
    rw [applyOrder_slot rfl]
    exact List.filter_cons_of_pos (by rw [hne, applyRank_slot]; rfl)
  have hlate : ([⟨slotAddr slot, none, e.data⟩] : List WordOp).filter (fun w => applyRank w.addr == 18) = [] :=
    List.filter_cons_of_neg (by rw [applyRank_slot]; decide)
  have hgrp (v : State) : (List.finRange 8).foldl (fun (u : State) (g : Fin 8) =>
      if ([⟨slotAddr slot, none, e.data⟩] : List WordOp).any fun w => isGrpCfg g w.addr then
        (u.grpStaged g [⟨slotAddr slot, none, e.data⟩]).2.grpApply g else u) v = v :=
    List.foldl_fixed' (fun g => if_neg (by rw [List.any_cons, not_grpCfg_slot]; exact Bool.false_ne_true)) _
  have hswap : s.swapStaged [⟨slotAddr slot, none, e.data⟩] = false := by
    rw [State.swapStaged, List.any_cons, List.any_nil, beq_eq_false_iff_ne.2 (bne_iff_ne.1 hne)]
    rfl
  unfold State.applyEntries
  rw [h]
  dsimp only
  rw [hearly, hlate, List.foldl_cons, List.foldl_nil, hgrp, hswap, if_neg Bool.false_ne_true, List.foldl_nil]
  exact applyWrite_slot s _ slot _

/-! ## The state that its apply tick leaves -/

/-- `s` with the gain target `v` of `slot` written in the slot and its glide asked for. -/
def State.targeted (s : State) (slot : Fin 4096) (v : Nat) : State :=
  (s.store (slotAddr slot) v).setGain (slotAddr slot)
    (((s.store (slotAddr slot) v).gainAt (slotAddr slot)).request
      (Gain.ofCode (bitsAt ((s.store (slotAddr slot) v).reg (slotAddr slot)).toNat 0 16)))

theorem paramApply_targeted (s : State) (slot : Fin 4096) (v : Nat) : s.paramApply (slotAddr slot) v = s.targeted slot v := paramApply_slot s slot v

theorem targeted_kept (s : State) (slot : Fin 4096) (v : Nat) : (s.targeted slot v).txn = s.txn ∧ (s.targeted slot v).ports = s.ports
    ∧ (s.targeted slot v).doms = s.doms ∧ (s.targeted slot v).syscnt = s.syscnt ∧ (s.targeted slot v).saps = s.saps
    ∧ (s.targeted slot v).pageVers = s.pageVers := ⟨rfl, rfl, rfl, rfl, rfl, rfl⟩

theorem targeted_reg (s : State) (slot : Fin 4096) (v : Nat) : (s.targeted slot v).reg (slotAddr slot) = s.stored (slotAddr slot) v :=
  reg_setReg_same _ _ _

theorem targeted_gains (s : State) (slot : Fin 4096) (v : Nat) : (s.targeted slot v).gainAt (slotAddr slot)
      = (s.gainAt (slotAddr slot)).request (Gain.ofCode (bitsAt (s.stored (slotAddr slot) v).toNat 0 16))
    ∧ ∀ a, a ≠ slotAddr slot → (s.targeted slot v).gainAt a = s.gainAt a := by
  have hr : (s.store (slotAddr slot) v).reg (slotAddr slot) = s.stored (slotAddr slot) v := reg_setReg_same _ _ _
  have hg : ∀ b, (s.store (slotAddr slot) v).gainAt b = s.gainAt b := gainAt_of_gains rfl
  refine ⟨?_, fun a ha => ?_⟩
  · rw [State.targeted, gainAt_setGain, if_pos rfl, hr, hg]
  · rw [State.targeted, gainAt_setGain, if_neg ha.symm, hg]

theorem targeted_quiet (s : State) (slot : Fin 4096) (v : Nat) : Quiet (· = slotAddr slot) s (s.targeted slot v) :=
  (Quiet.setReg (.refl (· = slotAddr slot) s) _ rfl).setGain _ _

theorem written_slot (h : s.txn.entriesOf (s.bibAt k).value = [e]) (hk : k < 64) (he : e.kind = 1) (ha : e.addr = slotAddr slot) :
    s.written k = (((s.freed k).targeted slot e.data).bumpVer mixPage).spendEntries k := by
  have hf : (s.freed k).opsOf k = [⟨slotAddr slot, none, e.data⟩] := by
    rw [← ha]
    exact opsOf_one (by rw [bibAt_freed s hk]; exact h) he
  have hs : ((s.freed k).targeted slot e.data).saps = (s.freed k).saps := (targeted_kept _ slot e.data).2.2.2.2.1
  rw [State.written, pagesOf_slot h ha, applyEntries_slot hf, paramApply_targeted, startsIn_same hs, List.foldl_cons, List.foldl_nil]

theorem txn_bumpVer (s : State) (g : Nat) : (s.bumpVer g).txn = s.txn := rfl

/-- The entries of the bib count as applied. -/
theorem spendEntries_txn (s : State) (k : Nat) : (s.spendEntries k).txn.bibs = s.txn.bibs
    ∧ (s.spendEntries k).txn.staging = s.txn.staging.filter (fun x => x.bib != (s.bibAt k).value)
    ∧ (s.spendEntries k).txn.applied = s.txn.applied ++ s.txn.entriesOf (s.bibAt k).value := ⟨rfl, rfl, rfl⟩

/-- What the writing of one gain target leaves. -/
structure TargetAs (slot : Fin 4096) (e : Entry) (k : Nat) (s w : State) : Prop extends WrittenAs k s w where
  reg : w.reg (slotAddr slot) = s.stored (slotAddr slot) e.data
  gain : w.gainAt (slotAddr slot) = (s.gainAt (slotAddr slot)).request (Gain.ofCode (bitsAt (s.stored (slotAddr slot) e.data).toNat 0 16))
  gains : ∀ a, a ≠ slotAddr slot → w.gainAt a = s.gainAt a
  ver : w.pageVer mixPage = (s.pageVer mixPage + 1) % 2 ^ 32
  staging : w.txn.staging = s.txn.staging.filter (fun x => x.bib != (s.bibAt k).value)
  applied : w.txn.applied = s.txn.applied ++ [e]
  quiet : Quiet (· = slotAddr slot) s w

theorem TargetAs.of_freed (h : s.txn.entriesOf (s.bibAt k).value = [e]) (hk : k < 64) :
    TargetAs slot e k s ((((s.freed k).targeted slot e.data).bumpVer mixPage).spendEntries k) := by
  obtain ⟨htxn, hports, hdoms, hsys, -, hvers⟩ := targeted_kept (s.freed k) slot e.data
  have hreg := targeted_reg (s.freed k) slot e.data
  obtain ⟨hgain, hgains⟩ := targeted_gains (s.freed k) slot e.data
  have hq := targeted_quiet (s.freed k) slot e.data
  have hver : (((s.freed k).targeted slot e.data).bumpVer mixPage).pageVer mixPage = (s.pageVer mixPage + 1) % 2 ^ 32 := by
    rw [pageVer_bumpVer, pageVer_of_pageVers hvers]
    rfl
  generalize (s.freed k).targeted slot e.data = w at *
  obtain ⟨hbibs, hstag, happ⟩ := spendEntries_txn (w.bumpVer mixPage) k
  have hb : (w.bumpVer mixPage).bibAt k = { s.bibAt k with reserved := 0 } := by
    rw [State.bibAt, txn_bumpVer, htxn]
    exact bibAt_freed s hk
  refine ⟨⟨?_, fun hid j => ?_, hports, hdoms, hsys⟩, hreg, hgain, hgains, hver, ?_, ?_, ?_⟩
  · rw [State.bibAt, hbibs]
    exact hb
  · rw [State.bibAt, hbibs, txn_bumpVer, htxn]
    exact freed_idle hk hid j
  · rw [hstag, hb, txn_bumpVer, htxn]
    rfl
  · rw [happ, hb, txn_bumpVer, htxn]
    exact congrArg (s.txn.applied ++ ·) h
  · exact ((Quiet.congr (u := s.freed k) (.refl _ s) rfl rfl rfl).trans hq).congr rfl rfl rfl

theorem slotAddr_beside (slot : Fin 4096) : slotAddr slot ≠ Adr.TXN_COMMIT_CNT ∧ ¬ StatusOf [txnPage] (slotAddr slot) := by
  have ⟨h1, _, _⟩ := slotAddr_range slot
  generalize slotAddr slot = a at *
  simp only [StatusOf, RingRegs, Adr.TXN_COMMIT_CNT, pageAddr, txnPage, List.mem_singleton, exists_eq_left]
  omega

theorem TargetAs.of_now {w : State} {l : List EvtRec} (h : TargetAs slot e k (s.withEvtNow (some l)) w) : TargetAs slot e k s w := by
  obtain ⟨⟨hb, hid, hp, hd, hs⟩, hreg, hgain, hgains, hver, hstag, happ, hq⟩ := h
  exact ⟨⟨hb, hid, hp, hd, hs⟩, hreg, hgain, hgains, hver, hstag, happ, (Quiet.congr (u := s.withEvtNow (some l)) (.refl _ s) rfl rfl rfl).trans hq⟩

/-- What the commit and the events of an apply tick leave of its write. -/
theorem TargetAs.ends {w c : State} {tick : Nat} {o : Option (List EvtRec)} (h : TargetAs slot e k s w) (hc : CommittedAt k tick w c)
    (he : EventsOnly RingRegs (c.withEvtNow o) t) :
    t.reg (slotAddr slot) = s.stored (slotAddr slot) e.data
      ∧ t.gainAt (slotAddr slot) = (s.gainAt (slotAddr slot)).request (Gain.ofCode (bitsAt (t.reg (slotAddr slot)).toNat 0 16))
      ∧ (∀ a, a ≠ slotAddr slot → t.gainAt a = s.gainAt a)
      ∧ t.pageVer (paramPage (slotAddr slot)) = (s.pageVer (paramPage (slotAddr slot)) + 1) % 2 ^ 32
      ∧ (t.bibAt k).state = .committed ∧ t.txn.staging = s.txn.staging.filter (fun x => x.bib != (s.bibAt k).value)
      ∧ t.txn.applied = s.txn.applied ++ [e] ∧ t.evt txnPage TxnEv.COMMITTED = true
      ∧ Frame (fun a => a = slotAddr slot ∨ a = Adr.TXN_COMMIT_CNT ∨ StatusOf [txnPage] a) s t := by
  obtain ⟨hne, hns⟩ := slotAddr_beside slot
  have hgains : t.gains = w.gains := he.gains.trans hc.gains
  have hvers : t.pageVers = w.pageVers := he.pageVers.trans hc.vers
  have htxn : t.txn = c.txn := he.txn
  have hreg : t.reg (slotAddr slot) = s.stored (slotAddr slot) e.data := by
    rw [he.regs _ fun h => hns (.inr h), show (c.withEvtNow o).reg (slotAddr slot) = c.reg (slotAddr slot) from rfl,
      hc.frame.regs _ fun h => h.elim hne hns, h.reg]
  have hmix : paramPage (slotAddr slot) = mixPage := if_pos (slotAddr_range slot).2.1
  refine ⟨hreg, ?_, fun a ha => ?_, ?_, ?_, ?_, ?_, he.bits _ _ hc.evt, ?_⟩
  · rw [gainAt_of_gains hgains, h.gain, hreg]
  · rw [gainAt_of_gains hgains, h.gains a ha]
  · rw [hmix, pageVer_of_pageVers hvers, h.ver]
  · rw [State.bibAt, htxn]
    exact congrArg Bib.state hc.bib
  · rw [htxn, hc.entries.1, h.staging]
  · rw [htxn, hc.entries.2, h.applied]
  · exact ((h.quiet.mono fun _ h => .inl h).frame.trans ((hc.frame.congr (u := c.withEvtNow o) rfl rfl rfl).mono fun _ h => .inr h)).trans
      (he.frame.mono fun _ h => .inr (.inr (.inr h)))

/-- Settles O56. -/
theorem stagedApply : Obligations.StagedApply := by
  unfold Obligations.StagedApply
  intro slot e v k s hv hn htw hc hpll hfab hset hst hl he hkind ha
  have hk := slotOf_lt hv
  have hwr (l : List EvtRec) : TargetAs slot e k s ((s.withEvtNow (some l)).written k) := by
    refine TargetAs.of_now (l := l) ?_
    rw [written_slot (s := s.withEvtNow (some l)) he hk hkind ha]
    exact TargetAs.of_freed he hk
  have hon (g : Nat) (hg : g ∈ s.pagesOf k) : s.pageOn g = true := by
    rw [pagesOf_slot he ha, List.mem_singleton] at hg
    rw [hg]
    exact hfab
  obtain ⟨l, o, c, hcom, hev, hex⟩ := txnApply_runs hv hn htw hc hpll hset hst hl hon fun l => (hwr l).toWrittenAs
  exact .of_eq hex ((hwr l).ends hcom hev)

end Sys2Proof.Machine
end

section
/-!
PROOFS. The traffic of one port leaves the other ports alone (14_control_ports.md R323).
-/
namespace Sys2Proof.Machine

variable {s t u : State} {p q : Fin 4} {k : Nat}

/-! ## What is one port's own -/

/-- What ports, bibs and the change of power hold. -/
def State.work (s : State) : Vector Port 4 × Option Change × Vector Bib 64 := (s.ports, s.change, s.txn.bibs)

/-- `t` is `s` but for port `p`, where nothing of the other ports waits; nothing begins to wait that did not, but for a next frame. -/
structure Apart (p : Fin 4) (s t : State) : Prop where
  others : ∀ q : Fin 4, q ≠ p → s.ports[q].waiting = [] → t.ports[q] = s.ports[q]
  change : s.change = none → t.change = none
  bibs : (∀ j : Fin 64, (s.bibAt j).waitsPage = false) → ∀ j : Fin 64, (t.bibAt j).waitsPage = false
  own : s.ports[p].waiting = [] → s.ports[p].frames.length ≤ 1 → t.ports[p].waiting = [] ∧ t.ports[p].frames.length ≤ 1

theorem Apart.of_work (h : t.work = s.work) : Apart p s t := by
  have hp : t.ports = s.ports := congrArg Prod.fst h
  have hc : t.change = s.change := congrArg (·.2.1) h
  have hb : t.txn.bibs = s.txn.bibs := congrArg (·.2.2) h
  refine ⟨fun q _ _ => by rw [hp], fun h => by rw [hc, h], fun h j => ?_, fun h1 h2 => by rw [hp]; exact ⟨h1, h2⟩⟩
  rw [State.bibAt, hb]
  exact h j

theorem Apart.refl (p : Fin 4) (s : State) : Apart p s s := .of_work rfl

theorem Apart.trans (h : Apart p s t) (g : Apart p t u) : Apart p s u where
  others q hq hw := by
    have ht := h.others q hq hw
    rw [g.others q hq (by rw [ht]; exact hw), ht]
  change hc := g.change (h.change hc)
  bibs hb := g.bibs (h.bibs hb)
  own hw hf := by
    obtain ⟨h1, h2⟩ := h.own hw hf
    exact g.own h1 h2

theorem Apart.work (h : Apart p s t) (g : u.work = t.work) : Apart p s u := h.trans (.of_work g)

theorem Apart.ite {c : Prop} [Decidable c] (h : c → Apart p s t) (g : ¬ c → Apart p s u) : Apart p s (if c then t else u) := by
  split
  · next hc => exact h hc
  · next hc => exact g hc

theorem Apart.foldl {α : Type} {f : State → α → State} (hf : ∀ t x, Apart p t (f t x)) (l : List α) (s : State) : Apart p s (l.foldl f s) :=
  List.foldlRecOn (motive := fun t : State => Apart p s t) l f (.refl p s) fun t h x _ => h.trans (hf t x)

theorem Apart.settled (h : Apart p s t) (hs : s.Settled) (hf : s.ports[p].frames.length ≤ 1) : t.Settled where
  ops q := by
    by_cases hq : q = p
    · rw [hq]
      exact (h.own (hs.ops p) hf).1
    · rw [h.others q hq (hs.ops q)]
      exact hs.ops q
  bibs := h.bibs hs.bibs

/-! ## Registers, events and memory are no port's own -/

theorem work_setReg (s : State) (a : Nat) (w : Word) : (s.setReg a w).work = s.work := rfl

theorem work_setFld (s : State) (f : Fld) (v : Nat) : (s.setFld f v).work = s.work := rfl

theorem work_countSat (s : State) (f : Fld) (k : Nat) : (s.countSat f k).work = s.work := rfl

theorem work_updRing (s : State) (i : Nat) (f : Ring → Ring) : (s.updRing i f).work = s.work := rfl

theorem work_crcRun (s : State) (i : Fin 26) (bs : List Byte) : (s.crcRun i bs).work = s.work := rfl

theorem work_seal (s : State) (p : Fin 4) (seq st : Nat) (rs : List OpResult) : (s.seal p seq st rs).2.work = s.work := rfl

theorem EventsOnly.work {A : Nat → Prop} (h : EventsOnly A s t) : t.work = s.work := by
  rw [h.rest]
  rfl

theorem work_raise (s : State) (g b : Nat) : (s.raise g b).work = s.work := (raise_events s g b).work

theorem work_raiseWith (s : State) (g b d : Nat) : (s.raiseWith g b d).work = s.work := (raiseFuel_status 4 g b d false s).work

theorem work_withEvtNow (s : State) (o : Option (List EvtRec)) : (s.withEvtNow o).work = s.work := rfl

theorem Apart.inOneCycle {f : State → State} (h : ∀ u, Apart p u (f u)) (s : State) : Apart p s (s.inOneCycle f) := by
  obtain ⟨l, o, he⟩ := inOneCycle_events s f
  exact (((Apart.of_work (work_withEvtNow s (some l))).trans (h _)).work (work_withEvtNow _ o)).work he.work

/-! ## Ports -/

theorem Apart.updPort {f : Port → Port} (s : State)
    (hf : s.ports[p].waiting = [] → s.ports[p].frames.length ≤ 1 → (f s.ports[p]).waiting = [] ∧ (f s.ports[p]).frames.length ≤ 1) :
    Apart p s (s.updPort p f) where
  others q hq _ := port_updPort_ne s f hq
  change h := h
  bibs h := h
  own h1 h2 := by
    rw [port_updPort_same]
    exact hf h1 h2

/-- A port keeps its frames and its waiting operations. -/
theorem Apart.updPort_same {f : Port → Port} (s : State) (hw : (f s.ports[p]).waiting = s.ports[p].waiting)
    (hf : (f s.ports[p]).frames.length = s.ports[p].frames.length) : Apart p s (s.updPort p f) :=
  .updPort s fun h1 h2 => ⟨hw.trans h1, hf.trans_le h2⟩

theorem starts_last {x : Port} (h : x.frames = []) : x.starts.waiting = x.waiting ∧ x.starts.frames = [] := by
  rw [starts_nil h]
  exact ⟨rfl, h⟩

theorem Apart.nextFrame {f : CmdFrame} {rest : List CmdFrame} (h : s.ports[p].frames = f :: rest) : Apart p s (s.nextFrame p rest) := by
  rw [State.nextFrame, startFrame_eq, updPort_updPort]
  refine .updPort s fun h1 h2 => ?_
  have hr : rest = [] := by
    rw [h, List.length_cons] at h2
    exact List.length_eq_zero_iff.1 (by omega)
  obtain ⟨hw, hf⟩ := starts_last (x := { s.ports[p] with frames := rest }) hr
  exact ⟨hw.trans h1, by rw [hf]; exact Nat.zero_le _⟩

theorem Apart.waitOver (s : State) (q : Fin 4) (w : Wait → Option OpResult) : Apart p s (s.waitOver q w) := by
  have hn (r : Fin 4) (h : s.ports[r].waiting = []) : (s.waitOver q w).ports[r] = s.ports[r] := by
    by_cases hr : r = q
    · have hq : s.waitOver q w = s := waitOver_none fun x hx => by
        rw [← hr, h] at hx
        cases hx
      rw [hq]
    · exact port_updPort_ne s _ hr
  exact ⟨fun r _ h => hn r h, id, id, fun h1 h2 => by rw [hn p h1]; exact ⟨h1, h2⟩⟩

theorem Apart.voidNext (p : Fin 4) : ∀ (n : Nat) (s : State), Apart p s (State.voidNext p n s)
  | 0, s => .refl p s
  | n + 1, s => by
    rw [State.voidNext]
    split
    · next f rest h => exact .ite (fun _ => (Apart.nextFrame h).trans (voidNext p n _)) fun _ => .refl p s
    · exact .refl p s

/-! ## Bibs -/

theorem Apart.updBib {f : Bib → Bib} (s : State) (k : Nat) (hf : ∀ b : Bib, b.waitsPage = false → (f b).waitsPage = false) :
    Apart p s (s.updBib k f) where
  others _ _ _ := rfl
  change h := h
  bibs h j := by
    by_cases hj : k = j.val
    · rw [hj, bibAt_updBib_same s f j.isLt]
      exact hf _ (h j)
    · rw [bibAt_updBib_ne s f hj]
      exact h j
  own h1 h2 := ⟨h1, h2⟩

theorem work_entryClear (s : State) (e : Entry) : (s.entryClear e).work = s.work := rfl

theorem work_dropEntries (s : State) (v : Nat) : (s.dropEntries v).work = s.work := foldl_same State.work work_entryClear _ _

theorem Apart.freeBib (s : State) (k : Nat) : Apart p s (s.freeBib k) := by
  rw [freeBib_eq]
  have h : (s.withTxn (s.unspent k)).work = s.work := rfl
  exact ((Apart.of_work h).work (foldl_same State.work work_entryClear (s.spent k) _)).trans (.updBib (f := fun _ => Bib.none_) _ k fun _ _ => rfl)

theorem Apart.retireAfter (s : State) (k : Nat) : Apart p s (s.retireAfter k) where
  others _ _ _ := rfl
  change h := h
  bibs h := retireAfter_idle h k
  own h1 h2 := ⟨h1, h2⟩

theorem Apart.abortBib (s : State) (k status last : Nat) : Apart p s (s.abortBib k status last) := by
  have hf : Apart p s (s.abortFreed k status last) :=
    (Apart.of_work (work_dropEntries s _)).trans (.updBib (f := fun x => x.abortedWith status (abortPage status last)) _ k fun _ _ => rfl)
  have hc : (s.abortCounted k status last).work = (s.abortFreed k status last).work :=
    (abortCounted_regsOnly s k status last).same State.work fun _ => rfl
  have hr : Apart p s (s.abortRaised k status last) := (hf.work hc).work (abortRaised_events s k status last).work
  have ht : Apart p s (((s.abortRaised k status last).tellOutcome k).retireAfter k) := (hr.trans (.waitOver _ _ _)).trans (.retireAfter _ k)
  exact .ite (fun _ => ht.trans (.freeBib _ k)) fun _ => ht

theorem Apart.abortPending (s : State) (q : Fin 4) (status : Nat) : Apart p s (s.abortPending q status) :=
  .foldl (fun t k => .ite (fun _ => .abortBib t k status 0) fun _ => .refl p t) _ s

theorem Apart.retirePort (s : State) (q : Fin 4) : Apart p s (s.retirePort q) :=
  .foldl (fun t k => .ite (fun _ => .freeBib t k) fun _ =>
    .ite (fun _ => .updBib (f := fun x => { x with orphan := true }) t k fun _ h => h) fun _ => .refl p t) _ s

/-! ## The end of a session (R343, R344) -/

theorem Apart.claimsFree (s : State) (q : Fin 4) : Apart p s (s.claimsFree q) := .of_work rfl

theorem Apart.crcDrop (s : State) (a : CrcParty) : Apart p s (s.crcDrop a) := .ite (fun _ => .of_work rfl) fun _ => .refl p s

theorem work_withTdac (s : State) (x : Tdac) : (s.withTdac x).work = s.work := rfl

theorem work_tdacUnqueue (s : State) (x : TdacUser) : (s.tdacUnqueue x).work = s.work := rfl

theorem tdacGiveUp_eq (s : State) (q : Fin 4) : s.tdacGiveUp q =
    if s.tdacHost != some q then s
    else if (s.setFld Fd.TDAC_CTRL_HOST_REQ 0).tdacOwner = some (.host q) ∧ !(s.setFld Fd.TDAC_CTRL_HOST_REQ 0).tdac.releasing then
      ((s.setFld Fd.TDAC_CTRL_HOST_REQ 0).setFld Fd.TDAC_CTRL_ROUTE 0).withTdac
        { (s.setFld Fd.TDAC_CTRL_HOST_REQ 0).tdac with goal := 0, ramp := some true, releasing := true }
    else (s.setFld Fd.TDAC_CTRL_HOST_REQ 0).tdacUnqueue (.host q) := rfl

theorem Apart.tdacGiveUp (s : State) (q : Fin 4) : Apart p s (s.tdacGiveUp q) := by
  have h := Apart.of_work (p := p) (work_setFld s Fd.TDAC_CTRL_HOST_REQ 0)
  rw [tdacGiveUp_eq]
  exact .ite (fun _ => .refl p s) fun _ => .ite (fun _ => (h.work (work_setFld _ _ _)).work (work_withTdac _ _)) fun _ =>
    h.work (work_tdacUnqueue _ _)

/-- `s` with no image that a port loads. -/
def State.unloaded (s : State) : State := { s with boot := { s.boot with owner := none, check := none } }

theorem work_unloaded (s : State) : s.unloaded.work = s.work := rfl

theorem Apart.loadEnd (s : State) : Apart p s s.loadEnd := by
  rw [State.loadEnd]
  split
  · exact .refl p s
  · exact ((Apart.of_work (work_unloaded s)).work (work_setFld _ _ _)).trans (.waitOver _ _ _)

theorem Apart.sessionDrop (s : State) (q : Fin 4) : Apart p s (s.sessionDrop q) := by
  have h : Apart p s ((s.crcDrop (.host q)).tdacGiveUp q) := (Apart.crcDrop s _).trans (.tdacGiveUp _ q)
  exact .ite (fun _ => h.trans (.loadEnd _)) fun _ => h

theorem Apart.ringEmpty (s : State) (i : Nat) : Apart p s (s.ringEmpty i) := .of_work (work_updRing s i _)

/-- A port with the counts of a new session. -/
def Port.renewed (q : Port) : Port :=
  { q with held := 16, queued := 0, inflight := 0, flying := [], kept := none, last := none, replayDue := false,
           out := q.out.filter fun r => !r.counted, frames := q.frames.map fun (f : CmdFrame) => { f with void := true },
           xportPend := q.xportPend.map fun x => (x.1, none) }

theorem countsReset_eq (s : State) (p : Fin 4) :
    s.countsReset p = State.voidNext p s.ports[p].frames.length (((s.updPort p Port.renewed).ringEmpty p).ringEmpty (4 + p)) := rfl

theorem Apart.countsReset (s : State) : Apart p s (s.countsReset p) := by
  have h : Apart p s (s.updPort p Port.renewed) := .updPort_same s rfl (List.length_map _)
  rw [countsReset_eq]
  exact ((h.trans (.ringEmpty _ _)).trans (.ringEmpty _ _)).trans (.voidNext p _ _)

theorem Apart.sessionLeave (s : State) (x : Session) : Apart p s (s.sessionLeave p x) := .updPort_same s rfl rfl

theorem Apart.leaseAt (s : State) (n : Nat) : Apart p s (s.leaseAt p n) := .updPort_same s rfl rfl

theorem Apart.leaseStart (s : State) (n : Nat) : Apart p s (s.leaseStart p n) := .updPort_same s rfl rfl

theorem Apart.raise (h : Apart p s t) (g b : Nat) : Apart p s (t.raise g b) := h.work (work_raise t g b)

theorem Apart.sessionClose (s : State) : Apart p s (s.sessionClose p) :=
  .ite (fun _ => .inOneCycle (fun u => Apart.raise (((((Apart.abortPending u p _).trans (.claimsFree _ p)).trans (.sessionDrop _ p)).trans
    (.countsReset _)).trans (.sessionLeave _ _)) _ _) s) fun _ => .refl p s

theorem Apart.graceEnd (s : State) : Apart p s (s.graceEnd p) := ((Apart.claimsFree s p).trans (.sessionLeave _ _)).raise _ _

/-- Where no power change goes on, none waits for a response. -/
theorem coreGoesOn_none (h : s.change = none) (p : Fin 4) : s.coreGoesOn p = s := by
  rw [State.coreGoesOn, h]

end Sys2Proof.Machine
end

section
/-!
PROOFS. What a port receives, answers and delivers leaves the other ports alone (14_control_ports.md R323).
-/
namespace Sys2Proof.Machine

variable {s t u : State} {p q : Fin 4} {k seq : Nat} {body : List Byte}

/-! ## Refusals, repeats and acknowledgements -/

theorem Apart.seal (h : Apart p s t) (q : Fin 4) (seq st : Nat) (rs : List OpResult) : Apart p s (t.seal q seq st rs).2 :=
  h.work (work_seal t q seq st rs)

theorem Apart.sendUncounted (h : Apart p s t) (r : Response) : Apart p s (t.sendUncounted p r) := h.trans (.updPort_same t rfl rfl)

theorem Apart.refuse (h : Apart p s t) (seq st : Nat) : Apart p s (t.refuse p seq st) := by
  cases hf : refusalCount p st with
  | some f =>
    rw [refuse_eq t p seq st hf]
    exact ((h.work (work_countSat t f 1)).seal _ _ _ _).sendUncounted _
  | none =>
    rw [State.refuse, hf]
    exact (h.seal _ _ _ _).sendUncounted _

theorem Apart.refuseRaw (h : Apart p s t) (f : List Byte) (st : Nat) : Apart p s (t.refuseRaw p f st) := by
  have hw : (t.seqOf f).2.work = t.work := by
    unfold State.seqOf
    split <;> rfl
  exact (h.work hw).refuse _ _

theorem Apart.ackFrame (h : Apart p s t) (ack : Nat) : Apart p s (t.ackFrame p ack) := by
  rw [State.ackFrame]
  dsimp only
  split
  · exact h
  · exact .ite (fun _ => (h.trans (.updPort_same t rfl rfl)).work (work_updRing _ _ _)) fun _ => h

theorem frames_ite {c : Prop} [Decidable c] {l : List CmdFrame} (h : s.ports[p].frames = l) (g : t.ports[p].frames = l) :
    (if c then s else t).ports[p].frames = l := by
  split
  · exact h
  · exact g

theorem frames_updPort (s : State) {f : Port → Port} (i : Nat) (g : Ring → Ring) (hf : ∀ x, (f x).frames = x.frames) :
    ((s.updPort p f).updRing i g).ports[p].frames = s.ports[p].frames := by
  show (s.updPort p f).ports[p].frames = s.ports[p].frames
  rw [port_updPort_same, hf]

theorem ackFrame_frames (t : State) (ack : Nat) : (t.ackFrame p ack).ports[p].frames = t.ports[p].frames := by
  rw [State.ackFrame]
  dsimp only
  split
  · rfl
  · exact frames_ite (frames_updPort t _ _ fun _ => rfl) rfl

theorem Apart.replay (h : Apart p s t) : Apart p s (t.replay p) := by
  have hl : Apart p s ((t.countSat (Fd.CP_ERR_CNT2_REPLAY p) 1).leaseStart p t.ports[p].lease) :=
    (h.work (work_countSat _ _ _)).trans (.leaseStart _ _)
  rw [State.replay]
  split
  · exact hl.sendUncounted _
  · exact hl.trans (.updPort_same _ rfl rfl)

/-! ## What a port receives -/

section Receive
variable {M : State → Prop} (hrest : ∀ u, Apart p s u → M u)
  (hframe : ∀ u seq body ops, Apart p s u → u.ports[p].frames = s.ports[p].frames → M (u.acceptFrame p seq body ops))
  (hhello : ∀ u seq ms host body, Apart p s u → M (u.helloAccept p seq ms host body))
include hrest hframe hhello

theorem frameSteps_cases (h : Apart p s t) (hf : t.ports[p].frames = s.ports[p].frames) (seq : Nat) (body : List Byte) : M (t.frameSteps p seq body) := by
  unfold State.frameSteps
  dsimp only
  split
  · exact hrest _ h.replay
  · split
    · exact hrest _ (h.refuse _ _)
    · split
      · exact hhello _ _ _ _ _ h
      · split
        · exact hrest _ (h.refuse _ _)
        · split
          · exact hrest _ (h.refuse _ _)
          · split
            · exact hrest _ (h.refuse _ _)
            · exact hframe _ _ _ _ h hf
      · exact hrest _ h

theorem wholeFrame_cases (h : Apart p s t) (hf : t.ports[p].frames = s.ports[p].frames) (ver seq ack : Nat) (body : List Byte) : M (t.wholeFrame p ver seq ack body) := by
  unfold State.wholeFrame
  dsimp only
  split
  · exact hrest _ (h.refuse _ _)
  · split
    · exact hrest _ (h.refuse _ _)
    · split
      · exact frameSteps_cases hrest hframe hhello (h.ackFrame _) ((ackFrame_frames t _).trans hf) _ _
      · exact frameSteps_cases hrest hframe hhello h hf _ _

theorem receive_cases (h : Apart p s t) (hf : t.ports[p].frames = s.ports[p].frames) (bs : List Byte) : M (t.receive p bs) := by
  unfold State.receive
  dsimp only
  generalize (if p = 3 then bs else bs.take (8 + ofBytesLE ((bs.drop 6).take 2) + trailerLen p)) = f
  split
  · exact hrest _ (h.refuseRaw _ _)
  · split
    · exact hrest _ (h.refuseRaw _ _)
    · split
      · exact hrest _ ((h.work (work_crcRun t _ _)).refuseRaw _ _)
      · exact wholeFrame_cases hrest hframe hhello (h.work (work_crcRun t _ _)) hf _ _ _ _

/-- What a transfer does: it changes its own port, accepts a frame, or opens a session. -/
theorem transfer_cases (bs : List Byte) : M (s.transfer p bs) := by
  have h0 := Apart.refl p s
  have hs : Apart p s (s.showStatus p) := .of_work rfl
  unfold State.transfer
  dsimp only
  split
  · next hp =>
    subst hp
    split
    · exact hrest _ h0
    · split
      · exact hrest _ (h0.refuseRaw _ _)
      · split
        · exact receive_cases hrest hframe hhello h0 rfl _
        · exact hrest _ (h0.refuseRaw _ _)
  · split
    · next hp =>
      subst hp
      split
      · exact hrest _ h0
      · exact receive_cases hrest hframe hhello h0 rfl _
    · split
      · exact hrest _ hs
      · exact receive_cases hrest hframe hhello hs rfl _

end Receive

/-! ## What a port answers -/

theorem Apart.formCounted (s : State) (seq : Nat) (rs : List OpResult) : Apart p s (s.formCounted p seq rs) := by
  obtain ⟨o, m, l, k, r, hp⟩ := formCounted_port s p seq rs
  refine ⟨fun q hq _ => formCounted_others s seq rs hq, fun h => (formCounted_change s p seq rs).trans h, fun h j => ?_, fun h1 h2 => ?_⟩
  · rw [State.bibAt, formCounted_bibs]
    exact h j
  · rw [hp]
    exact ⟨h1, h2⟩

theorem Apart.goesOn (h : Apart p s t) (hc : s.change = none) (q : Fin 4) : Apart p s (t.coreGoesOn q) := by
  rwa [coreGoesOn_none (h.change hc)]

theorem Apart.respond (s : State) (hc : s.change = none) : Apart p s (s.respond p) := by
  unfold State.respond
  split
  · exact .refl p s
  · next f rest hf =>
    dsimp only
    split
    · exact .refl p s
    · have hn : Apart p s (s.nextFrame p rest) := .nextFrame hf
      change Apart p s (if f.void then s.nextFrame p rest else if closes s.ports[p].results then
        ((((s.nextFrame p rest).sessionClose p).seal p f.seq St.OK s.ports[p].results).2.sendUncounted p
          ⟨f.seq, (((s.nextFrame p rest).sessionClose p).seal p f.seq St.OK s.ports[p].results).1, false⟩).coreGoesOn p
        else (s.nextFrame p rest).formCounted p f.seq s.ports[p].results)
      generalize s.nextFrame p rest = t at *
      exact .ite (fun _ => hn) fun _ => .ite (fun _ => (((hn.trans (.sessionClose t)).seal _ _ _ _).sendUncounted _).goesOn hc _)
        fun _ => hn.trans (.formCounted _ _ _)

/-- A port keeps what waits and its frames when its transport settles. -/
theorem Apart.xportSettle (s : State) (r : Response) : Apart p s (s.xportSettle p r) := by
  have hx (x : Nat) : Apart p s (s.setXport p x) :=
    (Apart.updPort_same (f := fun q => { q with xport := x, xportPend := none }) s rfl rfl).work rfl
  rw [State.xportSettle]
  split
  · exact .ite (fun _ => hx _) fun _ => .refl p s
  · exact hx _
  · exact .refl p s

theorem Apart.delivered (s : State) (hc : s.change = none) : Apart p s (s.delivered p) := by
  have h0 : Apart p s (s.shown p) := by
    unfold State.shown
    split
    · exact .refl p s
    · exact .of_work rfl
  rw [delivered_eq]
  split
  · exact h0
  · next r rest _ =>
    have h1 : Apart p s (((s.shown p).updPort p fun q => { q with out := rest }).xportSettle p r) :=
      (h0.trans (.updPort_same _ rfl rfl)).trans (.xportSettle _ r)
    rw [h1.change hc]
    exact h1

end Sys2Proof.Machine
end

section
/-!
PROOFS. Frames, sessions and the work behind them leave the other ports alone (14_control_ports.md R323).
-/
namespace Sys2Proof.Machine

variable {s t u : State} {p q : Fin 4} {k seq : Nat} {body : List Byte} {ops : List Instr}

/-! ## A frame that begins -/

/-- Port `p` has no work, or a HELLO that begins; nothing else waits. -/
structure State.Greets (s : State) (p : Fin 4) : Prop where
  others : ∀ q : Fin 4, q ≠ p → s.ports[q].waiting = []
  bibs : ∀ j : Fin 64, (s.bibAt j).waitsPage = false
  own : s.ports[p].waiting = [] ∨ ∃ (n : BitVec 16) (ms host : Word) (f : CmdFrame) (l : List CmdFrame) (w : Nat),
    s.ports[p].waiting = [⟨.hello p n ms host, .behind, true, w⟩] ∧ s.ports[p].frames = f :: l ∧ f.void = false

theorem State.Greets.of_settled (h : s.Settled) (p : Fin 4) : s.Greets p := ⟨fun q _ => h.ops q, h.bibs, .inl (h.ops p)⟩

theorem framed_bibs (s : State) (p : Fin 4) : (s.framed p).txn.bibs = s.txn.bibs := by
  have h (f : Fld) : (s.countWrap f 1).txn = s.txn := rfl
  rw [State.framed, txn_ringFrame, h]

theorem framed_change (s : State) (p : Fin 4) : (s.framed p).change = s.change := by
  have h (f : Fld) : (s.countWrap f 1).change = s.change := rfl
  rw [State.framed, change_ringFrame, h]

/-- An accepted frame beside the other ports, the change of power and the bibs. -/
theorem acceptFrame_bibs (s : State) (p : Fin 4) (seq : Nat) (body : List Byte) (ops : List Instr) :
    (s.acceptFrame p seq body ops).txn.bibs = s.txn.bibs := by
  rw [acceptFrame_eq, updPort_txn, framed_bibs]

theorem acceptFrame_change (s : State) (p : Fin 4) (seq : Nat) (body : List Byte) (ops : List Instr) :
    (s.acceptFrame p seq body ops).change = s.change := by
  rw [acceptFrame_eq, updPort_change, framed_change]

theorem starts_waiting {x : Port} {f : CmdFrame} {l : List CmdFrame} (h : x.frames = f :: l) :
    x.starts.waiting = x.waiting ++ f.ops.map fun op => ⟨op, .behind, true, f.turn⟩ := by
  rw [starts_cons h]

/-- Behind a frame that is not over, an accepted frame only takes its place. -/
theorem acceptFrame_behind (h : s.ports[p].frames ≠ []) : (s.acceptFrame p seq body ops).ports[p].waiting = s.ports[p].waiting := by
  rw [port_acceptFrame, if_neg (by rwa [List.isEmpty_iff])]
  rfl

theorem acceptFrame_others_bibs (h : s.Settled) (hq : q ≠ p) : (s.acceptFrame p seq body ops).ports[q].waiting = [] := by
  rw [acceptFrame_others s seq body ops hq, h.ops q]

/-- Behind a frame, nothing begins. -/
theorem acceptFrame_settled (h : s.Settled) (hf : s.ports[p].frames ≠ []) : (s.acceptFrame p seq body ops).Settled where
  ops q := by
    by_cases hq : q = p
    · rw [hq, acceptFrame_behind hf, h.ops p]
    · exact acceptFrame_others_bibs h hq
  bibs j := by
    rw [State.bibAt, acceptFrame_bibs]
    exact h.bibs j

theorem acceptFrame_greets {n : BitVec 16} {ms host : Word} (h : s.Settled) : (s.acceptFrame p seq body [.hello p n ms host]).Greets p := by
  by_cases hf : s.ports[p].frames = []
  · obtain ⟨-, hw⟩ := acceptFrame_starts s p seq body [.hello p n ms host] hf
    obtain ⟨-, -, -, -, hfr⟩ := acceptFrame_counts s p seq body [.hello p n ms host]
    rw [h.ops p] at hw
    rw [hf] at hfr
    exact ⟨fun q hq => acceptFrame_others_bibs h hq, fun j => by rw [State.bibAt, acceptFrame_bibs]; exact h.bibs j,
      .inr ⟨n, ms, host, _, [], _, hw, hfr, rfl⟩⟩
  · exact .of_settled (acceptFrame_settled h hf) p

/-! ## The work behind a HELLO -/

theorem turns_one {w : WaitOp} (hw : s.ports[p].waiting = [w]) (ho : ∀ q : Fin 4, q ≠ p → s.ports[q].waiting = []) :
    s.turns = [(w.turn, p.val)] := by
  have hall : List.finRange 4 = [0, 1, 2, 3] := by decide
  have h0 := ho 0
  have h1 := ho 1
  have h2 := ho 2
  have h3 := ho 3
  rw [State.turns, hall]
  fin_cases p <;> simp_all [insertSerial]

theorem voidNext_first {f : CmdFrame} {l : List CmdFrame} (hf : s.ports[p].frames = f :: l) (hv : f.void = false) (n : Nat) :
    State.voidNext p n s = s := by
  cases n with
  | zero => rfl
  | succ n =>
    rw [State.voidNext, hf]
    dsimp only
    rw [hv, Bool.false_and, if_neg Bool.false_ne_true]

theorem opDone_framed {r : OpResult} {w : WaitOp} {f : CmdFrame} {l : List CmdFrame} (hw : s.ports[p].waiting = [w]) (hx : w.framed = true)
    (hf : s.ports[p].frames = f :: l) (hv : f.void = false) :
    s.opDone p r = s.updPort p fun q => { q with waiting := [], results := q.results ++ [r] } := by
  have hn : ((s.ports[p].waiting.head?.map (·.framed)).getD false) = true := by
    rw [hw]
    exact hx
  have hu : s.updPort p (fun x => { x with waiting := x.waiting.tail, results := x.results ++ [r] })
      = s.updPort p fun q => { q with waiting := [], results := q.results ++ [r] } := updPort_congr (by rw [hw]; rfl)
  have hp := port_updPort_same s p fun q => { q with waiting := [], results := q.results ++ [r] }
  have hfr : (s.updPort p fun q => { q with waiting := [], results := q.results ++ [r] }).ports[p].frames = f :: l := by
    rw [hp, ← hf]
  simp only [State.opDone, hn, if_true]
  rw [hu]
  exact voidNext_first hfr hv _

/-- The work that a HELLO leaves runs beside the other ports. -/
theorem State.Greets.pump (h : s.Greets p) (hq : q ≠ p) : s.pump.ports[q] = s.ports[q] := by
  obtain ⟨ho, hb, hw | ⟨n, ms, host, f, l, w, hw, hf, hv⟩⟩ := h
  · rw [pump_settled ⟨fun r => by
      by_cases hr : r = p
      · rw [hr, hw]
      · exact ho r hr, hb⟩]
  · by_cases hc : s.domOn Dm.CORE = true
    · generalize hr : (⟨0x01, St.OK, s.helloData p⟩ : OpResult) = r
      have hd := opDone_framed (r := r) hw rfl hf hv
      have hp := port_updPort_same s p fun q => { q with waiting := [], results := q.results ++ [r] }
      have hno := port_updPort_ne s (p := p) (fun q => { q with waiting := [], results := q.results ++ [r] }) hq
      have hwt : (s.updPort p fun q => { q with waiting := [], results := q.results ++ [r] }).ports[p].waiting = [] := by rw [hp]
      have hset : (s.updPort p fun q => { q with waiting := [], results := q.results ++ [r] }).Settled :=
        ⟨fun x => by
          by_cases hx : x = p
          · rw [hx, hwt]
          · rw [port_updPort_ne _ _ hx, ho x hx], hb⟩
      have hone : s.pumpOnce = s.updPort p fun q => { q with waiting := [], results := q.results ++ [r] } := by
        have hres : State.resumePort p 4 s = s.updPort p fun q => { q with waiting := [], results := q.results ++ [r] } := by
          rw [State.resumePort, if_neg (by rw [hc]; decide), hw]
          dsimp only
          have hrun : State.opSettle p (.hello p n ms host) (s.opRun p (.hello p n ms host)) = (true, s.opDone p r) := by
            rw [← hr]
            rfl
          rw [hrun]
          dsimp only
          rw [hd]
          exact (if_pos rfl).trans (resumePort_nil hwt 3)
        have hall : ∀ x : Fin 4, x = p → State.resumePort x (3 * s.ports[x].waiting.length + 1) s = State.resumePort p 4 s := by
          rintro _ rfl
          rw [hw]
          rfl
        rw [State.pumpOnce, bibsGoOn_idle hb, turns_one hw ho]
        exact (hall _ (Fin.ofNat_val_eq_self p)).trans hres
      rw [pump_once hc hone (pumpOnce_settled hset), hno]
    · rw [State.pump, if_neg hc]

end Sys2Proof.Machine
end

section
/-!
PROOFS. Commands of one port beside the other ports (14_control_ports.md R323).
-/
namespace Sys2Proof.Machine

variable {s t u : State} {p q : Fin 4} {k seq : Nat} {body : List Byte} {ops : List Instr}

/-! ## HELLO (R343) -/

/-- `s` with the session of port `p` that a HELLO opens, before its frame is accepted. -/
def State.reopened (s : State) (p : Fin 4) (ms host : Word) : State :=
  let same : Bool := host != 0 && host.toNat == s.ports[p].hostId
  let resumed : Bool := same && s.ports[p].session != .none
  let t := if s.ports[p].session = .opened then s.abortPending p St.ABORTED_BY_HOST else s
  let t := if same then t else t.retirePort p
  let t := if resumed then t else (t.claimsFree p).sessionDrop p
  let t := (t.countsReset p).updPort p fun x =>
    { x with session := .opened, hostId := host.toNat, resumed := resumed, lease := leaseAdjust ms.toNat }
  let t := if resumed then t else t.ringEmpty (8 + p)
  t.raise (cpPage p) (if resumed then CpEv.RESUMED else CpEv.OPENED)

theorem helloAccept_eq (s : State) (p : Fin 4) (seq : Nat) (ms host : Word) (body : List Byte) : s.helloAccept p seq ms host body =
    s.inOneCycle fun u => ((u.reopened p ms host).acceptFrame p seq body [.hello p (BitVec.ofNat 16 seq) ms host]).coreGoesOn p := rfl

theorem Apart.reopened (s : State) (ms host : Word) : Apart p s (s.reopened p ms host) := by
  unfold State.reopened
  dsimp only
  generalize (host != 0 && host.toNat == s.ports[p].hostId) = same
  generalize (same && s.ports[p].session != .none) = resumed
  have h1 : Apart p s (if s.ports[p].session = .opened then s.abortPending p St.ABORTED_BY_HOST else s) :=
    .ite (fun _ => .abortPending s p _) fun _ => .refl p s
  generalize (if s.ports[p].session = .opened then s.abortPending p St.ABORTED_BY_HOST else s) = t1 at *
  have h2 : Apart p s (if same then t1 else t1.retirePort p) := .ite (fun _ => h1) fun _ => h1.trans (.retirePort t1 p)
  generalize (if same then t1 else t1.retirePort p) = t2 at *
  have h3 : Apart p s (if resumed then t2 else (t2.claimsFree p).sessionDrop p) :=
    .ite (fun _ => h2) fun _ => (h2.trans (.claimsFree t2 p)).trans (.sessionDrop _ p)
  generalize (if resumed then t2 else (t2.claimsFree p).sessionDrop p) = t3 at *
  have h4 := (h3.trans (.countsReset t3)).trans (.updPort_same (f := fun x =>
    { x with session := .opened, hostId := host.toNat, resumed := resumed, lease := leaseAdjust ms.toNat }) _ rfl rfl)
  generalize (t3.countsReset p).updPort p _ = t4 at *
  exact Apart.raise (.ite (fun _ => h4) fun _ => h4.trans (.ringEmpty t4 _)) _ _

/-- A HELLO: the session opens, and its frame is accepted. -/
theorem helloAccept_steps (s : State) (p : Fin 4) (seq : Nat) (ms host : Word) (body : List Byte) (hc : s.change = none) :
    ∃ v, Apart p s v ∧ (s.helloAccept p seq ms host body).work = (v.acceptFrame p seq body [.hello p (BitVec.ofNat 16 seq) ms host]).work := by
  obtain ⟨l, o, he⟩ := inOneCycle_events s fun u =>
    ((u.reopened p ms host).acceptFrame p seq body [.hello p (BitVec.ofNat 16 seq) ms host]).coreGoesOn p
  rw [← helloAccept_eq] at he
  have hv : Apart p s ((s.withEvtNow (some l)).reopened p ms host) := (Apart.of_work (work_withEvtNow s (some l))).trans (.reopened _ ms host)
  rw [coreGoesOn_none (by rw [acceptFrame_change]; exact hv.change hc)] at he
  exact ⟨_, hv, he.work.trans (work_withEvtNow _ o)⟩

theorem State.Greets.of_work (h : s.Greets p) (hw : t.work = s.work) : t.Greets p := by
  have hp : t.ports = s.ports := congrArg Prod.fst hw
  have hb : t.txn.bibs = s.txn.bibs := congrArg (·.2.2) hw
  obtain ⟨ho, hbi, hown⟩ := h
  refine ⟨fun q hq => by rw [hp, ho q hq], fun j => ?_, by rw [hp]; exact hown⟩
  rw [State.bibAt, hb]
  exact hbi j

theorem helloAccept_apart {ms host : Word} (hs : s.Settled) (hc : s.change = none) (hq : q ≠ p) :
    (s.helloAccept p seq ms host body).ports[q] = s.ports[q] := by
  obtain ⟨v, hv, hw⟩ := helloAccept_steps s p seq ms host body hc
  have hp := congrArg (fun x => x.1[q]) hw
  exact hp.trans ((acceptFrame_others v _ _ _ hq).trans (hv.others q hq (hs.ops q)))

theorem helloAccept_greets {ms host : Word} (hs : s.Settled) (hc : s.change = none) (hf : s.ports[p].frames.length ≤ 1) :
    (s.helloAccept p seq ms host body).Greets p := by
  obtain ⟨v, hv, hw⟩ := helloAccept_steps s p seq ms host body hc
  exact (acceptFrame_greets (hv.settled hs hf)).of_work hw

/-! ## A transfer (R325) -/

theorem transfer_apart (hs : s.Settled) (hc : s.change = none) (hq : q ≠ p) (bs : List Byte) : (s.transfer p bs).ports[q] = s.ports[q] :=
  transfer_cases (M := fun t => t.ports[q] = s.ports[q]) (fun u hu => hu.others q hq (hs.ops q))
    (fun u seq body ops hu _ => (acceptFrame_others u seq body ops hq).trans (hu.others q hq (hs.ops q)))
    (fun u seq ms host body hu => by
      obtain ⟨v, hv, hw⟩ := helloAccept_steps u p seq ms host body (hu.change hc)
      have hp := congrArg (fun x => x.1[q]) hw
      exact hp.trans ((acceptFrame_others v _ _ _ hq).trans ((hu.trans hv).others q hq (hs.ops q)))) bs

theorem transfer_greets (hs : s.Settled) (hc : s.change = none) (hf : s.ports[p].frames.length = 1) (bs : List Byte) :
    (s.transfer p bs).Greets p :=
  transfer_cases (M := fun t => t.Greets p) (fun u hu => .of_settled (hu.settled hs hf.le) p)
    (fun u seq body ops hu hfr => .of_settled (acceptFrame_settled (hu.settled hs hf.le) fun hn => by
      rw [← hfr, hn] at hf
      exact absurd hf (by decide)) p)
    (fun u seq ms host body hu => helloAccept_greets (hu.settled hs hf.le) (hu.change hc) (hu.own (hs.ops p) hf.le).2) bs

/-! ## The end of an operation that has its result at once -/

/-- An operation of no frame whose result leaves nothing to wait for. -/
theorem submit_settles {op : Instr} {st : Nat} {data : List Byte} (h : s.Hears p)
    (e : (s.waits p [⟨op, .behind, false, s.nextTurn⟩]).opBody p op none = (.done st data, u))
    (hd : (u.opDone p ⟨opCode op, st, data⟩).Settled) : s.submit p op = u.opDone p ⟨opCode op, st, data⟩ := by
  have ha := h.alone ⟨op, .behind, false, s.nextTurn⟩
  rw [submit_eq h]
  refine pump_once h.core ((pumpOnce_alone ha).trans ?_) (pumpOnce_settled hd)
  rw [State.resumePort, if_neg (by rw [domOn_waits, h.core]; decide), ha.only]
  dsimp only
  rw [State.opRun, e]
  exact (if_pos rfl).trans (resumePort_nil (hd.ops p) 3)

/-- The result of an operation of no frame. -/
theorem Apart.opDone {r : OpResult} {w : WaitOp} (hw : s.ports[p].waiting = [w]) (hx : w.framed = false) (hf : s.ports[p].frames = [])
    (ho : ∀ q : Fin 4, q ≠ p → s.ports[q].waiting = []) (hb : ∀ j : Fin 64, (s.bibAt j).waitsPage = false) (hc : s.change = none) :
    (s.opDone p r).Settled ∧ ∀ q : Fin 4, q ≠ p → (s.opDone p r).ports[q] = s.ports[q] := by
  have hn : ((s.ports[p].waiting.head?.map (·.framed)).getD false) = false := by
    rw [hw]
    exact hx
  have hu : s.updPort p (fun x => { x with waiting := x.waiting.tail, results := if x.frames.isEmpty then [r] else x.results })
      = s.updPort p fun q => { q with waiting := [], results := [r] } := updPort_congr (by rw [hw, hf]; rfl)
  have hp := port_updPort_same s p fun q => { q with waiting := [], results := [r] }
  have hset : (s.updPort p fun q => { q with waiting := [], results := [r] }).Settled :=
    ⟨fun q => by
      by_cases hq : q = p
      · rw [hq, hp]
      · rw [port_updPort_ne _ _ hq, ho q hq], hb⟩
  have hno (q : Fin 4) (hq : q ≠ p) : (s.updPort p fun q => { q with waiting := [], results := [r] }).ports[q] = s.ports[q] :=
    port_updPort_ne s _ hq
  have hfr : (s.updPort p fun q => { q with waiting := [], results := [r] }).ports[p].frames.length ≤ 1 := by
    rw [hp]
    exact hf ▸ Nat.zero_le 1
  have hch : (s.updPort p fun q => { q with waiting := [], results := [r] }).change = none := hc
  have he : s.opDone p r = if r.op = 0x02 ∧ r.data = closeData then
      ((s.updPort p fun q => { q with waiting := [], results := [r] }).sessionClose p).coreGoesOn p
      else s.updPort p fun q => { q with waiting := [], results := [r] } := by
    rw [← hu]
    simp only [State.opDone, hn, Bool.false_eq_true, if_false]
  rw [he]
  generalize (s.updPort p fun q => { q with waiting := [], results := [r] }) = t at *
  split
  · have hcl := Apart.goesOn (Apart.sessionClose (p := p) t) hch p
    exact ⟨hcl.settled hset hfr, fun q hq => (hcl.others q hq (hset.ops q)).trans (hno q hq)⟩
  · exact ⟨hset, hno⟩

theorem leaseRun_done (s : State) (p : Fin 4) (ms : Nat) : ∃ data t, s.leaseRun p ms = (.done St.OK data, t) ∧ Apart p s t
    ∧ t.ports[p].waiting = s.ports[p].waiting ∧ t.ports[p].frames = s.ports[p].frames := by
  rw [State.leaseRun]
  split
  · exact ⟨_, _, rfl, .refl p s, rfl, rfl⟩
  · have hp := port_updPort_same s p fun q =>
      { q with lease := leaseAdjust ms, leaseMark := s.syscnt, leaseLeft := msCounts (leaseAdjust ms), leaseLow := false }
    exact ⟨_, _, rfl, .leaseStart s _, (congrArg Port.waiting hp).trans rfl, (congrArg Port.frames hp).trans rfl⟩

theorem lease_apart (hs : s.Settled) (hc : s.change = none) (hq : q ≠ p) (ms : Word) : (s.submit p (.lease p ms)).ports[q] = s.ports[q] := by
  by_cases hf : s.ports[p].frames = []
  · by_cases hl : s.portLive p = true
    · have h : s.Hears p := ⟨hl, hf, hs⟩
      have ha := h.alone ⟨.lease p ms, .behind, false, s.nextTurn⟩
      have hch : (s.waits p [⟨.lease p ms, .behind, false, s.nextTurn⟩]).change = none := hc
      have hno := port_updPort_ne s (p := p) (fun x => { x with waiting := [⟨.lease p ms, .behind, false, s.nextTurn⟩] }) hq
      change (s.waits p [⟨.lease p ms, .behind, false, s.nextTurn⟩]).ports[q] = s.ports[q] at hno
      have hsub := fun st data u => submit_settles (op := .lease p ms) (st := st) (data := data) (u := u) h
      generalize s.waits p [⟨.lease p ms, .behind, false, s.nextTurn⟩] = v at *
      obtain ⟨data, t, hr, hap, hwt, hft⟩ := leaseRun_done v p ms.toNat
      obtain ⟨hset, hap'⟩ := Apart.opDone (r := ⟨0x02, St.OK, data⟩) (hwt.trans ha.only) rfl (hft.trans ha.unframed)
        (fun x hx => by rw [hap.others x hx (ha.others x hx), ha.others x hx]) (hap.bibs ha.bibs) (hap.change hch)
      rw [hsub St.OK data t hr hset]
      exact (hap' q hq).trans ((hap.others q hq (ha.others q hq)).trans hno)
    · rw [State.submit, hf, if_pos List.isEmpty_nil, State.enqueue, if_neg hl]
  · rw [submit_framed hf]

/-! ## The commands -/

theorem commandFrame_apart (hs : s.Settled) (hc : s.change = none) (hq : q ≠ p) (hf : s.ports[p].frames.length = 1) (bs : List Byte)
    (a : TargetAddr) : After (exec (.commandFrame p bs a) s) fun t => t.ports[q] = s.ports[q] := by
  by_cases hl : (s.portLive p && s.answersTo p a) = true
  · exact .of_eq (next_pos hl) (((transfer_greets hs hc hf bs).pump hq).trans (transfer_apart hs hc hq bs))
  · exact .of_eq (next_neg hl) rfl

theorem uartOverlength_apart (hs : s.Settled) (hq : q ≠ 3) : After (exec .uartOverlength s) fun t => t.ports[q] = s.ports[q] := by
  by_cases hl : s.portLive 3 = true
  · exact .of_eq (next_pos hl) (((Apart.refl 3 s).refuseRaw [] _).others q hq (hs.ops q))
  · exact .of_eq (next_neg hl) rfl

theorem responseFormed_apart (hs : s.Settled) (hc : s.change = none) (hq : q ≠ p) (hf : s.ports[p].frames.length ≤ 1) :
    After (exec (.responseFormed p) s) fun t => t.ports[q] = s.ports[q] := by
  have h := Apart.respond (p := p) s hc
  by_cases hl : s.domOn Dm.CORE = true
  · refine .of_eq (next_pos hl) ?_
    rw [pump_settled (h.settled hs hf)]
    exact h.others q hq (hs.ops q)
  · exact .of_eq (next_neg hl) rfl

theorem xportSettle_waiting (r : Response) : (s.xportSettle p r).ports[p].waiting = s.ports[p].waiting := by
  have hx (x : Nat) : (s.setXport p x).ports[p].waiting = s.ports[p].waiting :=
    (congrArg Port.waiting (port_updPort_same s p fun q => { q with xport := x, xportPend := none })).trans rfl
  rw [State.xportSettle]
  split
  · split
    · exact hx _
    · rfl
  · exact hx _
  · rfl

theorem delivered_waiting (hc : s.change = none) : (s.delivered p).ports[p].waiting = s.ports[p].waiting := by
  have h0 : (s.shown p).ports[p].waiting = s.ports[p].waiting := by rw [shown_ports]
  rw [delivered_eq]
  split
  · exact h0
  · next r rest _ =>
    have h1 : Apart p (s.shown p) (((s.shown p).updPort p fun q => { q with out := rest }).xportSettle p r) :=
      (Apart.updPort_same (f := fun q => { q with out := rest }) _ rfl rfl).trans (.xportSettle _ r)
    rw [h1.change (by rw [shown_change, hc])]
    have hu := port_updPort_same (s.shown p) p fun q => { q with out := rest }
    exact (xportSettle_waiting r).trans ((congrArg Port.waiting hu).trans h0)

theorem responseDelivered_apart (hs : s.Settled) (hc : s.change = none) (hq : q ≠ p) (a : TargetAddr) :
    After (exec (.responseDelivered p a) s) fun t => t.ports[q] = s.ports[q] := by
  have h := Apart.delivered (p := p) s hc
  have hset : (s.delivered p).Settled :=
    ⟨fun r => by
      by_cases hr : r = p
      · rw [hr, delivered_waiting hc, hs.ops p]
      · rw [h.others r hr (hs.ops r), hs.ops r], h.bibs hs.bibs⟩
  by_cases hl : (s.portLive p && s.answersTo p a) = true
  · refine .of_eq (next_pos hl) ?_
    rw [pump_settled hset]
    exact h.others q hq (hs.ops q)
  · exact .of_eq (next_neg hl) rfl

theorem hello_apart (hs : s.Settled) (hc : s.change = none) (hq : q ≠ p) (hf : s.ports[p].frames.length ≤ 1) (seq : BitVec 16)
    (ms host : Word) : After (exec (.hello p seq ms host) s) fun t => t.ports[q] = s.ports[q] := by
  by_cases hl : (s.portLive p && !s.ports[p].helloRuns seq.toNat) = true
  · exact .of_eq (next_pos hl) (((helloAccept_greets hs hc hf).pump hq).trans (helloAccept_apart hs hc hq))
  · exact .of_eq (next_neg hl) rfl

theorem leaseWarning_apart (hq : q ≠ p) : After (exec (.leaseWarning p) s) fun t => t.ports[q] = s.ports[q] := by
  by_cases hl : s.domOn Dm.CORE ∧ s.ports[p].session = .opened ∧ s.ports[p].queued = 0
  · exact .of_eq (next_pos hl) ((port_updPort_ne _ _ hq).trans (port_updPort_ne s _ hq))
  · exact .of_eq (next_neg hl) rfl

/-- `s` with the session of port `p` in grace. -/
def State.inGrace (s : State) (p : Fin 4) : State :=
  (((s.abortPending p St.LEASE_EXPIRED).sessionDrop p).countsReset p).sessionLeave p .grace

/-- `s` with the session of port `p` in grace, its expiry counted and reported. -/
def State.expired (s : State) (p : Fin 4) : State :=
  (((s.inGrace p).leaseAt p (msCounts (s.inGrace p).ports[p].lease)).countSat (Fd.CP_SES_CNT_EXPIRED p) 1).raise (cpPage p) CpEv.EXPIRED

theorem sessionExpire_eq (s : State) (p : Fin 4) : s.sessionExpire p = s.inOneCycle fun u => (u.expired p).coreGoesOn p := rfl

theorem Apart.inGrace (s : State) : Apart p s (s.inGrace p) :=
  (((Apart.abortPending s p _).trans (.sessionDrop _ p)).trans (.countsReset _)).trans (.sessionLeave _ _)

theorem Apart.expired (s : State) : Apart p s (s.expired p) :=
  (((Apart.inGrace s).trans (.leaseAt _ _)).work (work_countSat _ _ _)).raise _ _

theorem Apart.sessionExpire (s : State) (hc : s.change = none) : Apart p s (s.sessionExpire p) := by
  obtain ⟨l, o, he⟩ := inOneCycle_events s fun u => (u.expired p).coreGoesOn p
  have hv := (Apart.of_work (p := p) (work_withEvtNow s (some l))).trans (.expired _)
  rw [← sessionExpire_eq, coreGoesOn_none (hv.change hc)] at he
  exact (hv.work (work_withEvtNow _ o)).work he.work

theorem leaseExpiry_apart (hs : s.Settled) (hc : s.change = none) (hq : q ≠ p) (hf : s.ports[p].frames.length ≤ 1) :
    After (exec (.leaseExpiry p) s) fun t => t.ports[q] = s.ports[q] := by
  have h := Apart.sessionExpire (p := p) s hc
  by_cases hl : s.domOn Dm.CORE ∧ s.ports[p].session = .opened ∧ s.ports[p].queued = 0
  · refine .of_eq (next_pos hl) ?_
    rw [pump_settled (h.settled hs hf)]
    exact h.others q hq (hs.ops q)
  · exact .of_eq (next_neg hl) rfl

theorem graceEnd_apart (hs : s.Settled) (hq : q ≠ p) (hf : s.ports[p].frames.length ≤ 1) :
    After (exec (.graceEnd p) s) fun t => t.ports[q] = s.ports[q] := by
  have h := Apart.graceEnd (p := p) s
  by_cases hl : s.domOn Dm.CORE ∧ s.ports[p].session = .grace
  · refine .of_eq (next_pos hl) ?_
    rw [pump_settled (h.settled hs hf)]
    exact h.others q hq (hs.ops q)
  · exact .of_eq (next_neg hl) rfl

/-- Settles O57. -/
theorem portIsolation : Obligations.PortIsolation := by
  unfold Obligations.PortIsolation
  exact ⟨fun p q bs s hq hs hc => transfer_apart hs hc hq bs, fun p q a bs s hq hs hc hf => commandFrame_apart hs hc hq hf bs a,
    fun q s hq hs _ => uartOverlength_apart hs hq, fun p q s hq hs hc => (Apart.respond s hc).others q hq (hs.ops q),
    fun p q s hq hs hc hf => responseFormed_apart hs hc hq hf, fun p q a s hq hs hc => responseDelivered_apart hs hc hq a,
    fun p q seq ms host s hq hs hc hf => ⟨hello_apart hs hc hq hf seq ms host, .next (lease_apart hs hc hq ms)⟩,
    fun p q s hq hs hc hf => ⟨leaseWarning_apart hq, leaseExpiry_apart hs hc hq hf, graceEnd_apart hs hq hf⟩⟩

end Sys2Proof.Machine
end

section
/-!
PROOFS. No command changes the queue of the commands behind it (98_reader.md): events, flags and the named operations over
    registers and memory.
-/
namespace Sys2Proof.Machine

/-! ## The rules

Each function of the model that gives a state gives one with the queue it was given: one lemma each, named after the
    function,
in the order of the definitions. -/

/-- A state written out has the queue written in it. It is no `rfl` lemma, so that `simp` rewrites with it: read as a
    definitional
equality it would have the kernel compare whole states. -/
theorem mk_pending (pending fresh bus regs mem pageVers cfgPend tickWrites syscnt coarse sysHold tickcnt tickSys ticks
    boundary mons pll ens addrPins index rings evtHeld evtNow irqHeld evtLog doms change lift pvdd resetHold ports claims
    txn saps grps portSrc portSink asrcs dlines crcs crcOwner ains ainOut tdacQ tdacOwner tdac fab gains senseOut injOut
    outs cpOn jacks jackTrig jackFired jackPages hka amps sag boot fuses fusesRead blow injs caps book irqCopy xportCopy vio
    esd) :
        (State.mk pending fresh bus regs mem pageVers cfgPend tickWrites syscnt coarse sysHold tickcnt tickSys ticks
    boundary mons pll ens addrPins index rings evtHeld evtNow irqHeld evtLog doms change lift pvdd resetHold ports claims
    txn saps grps portSrc portSink asrcs dlines crcs crcOwner ains ainOut tdacQ tdacOwner tdac fab gains senseOut injOut
    outs cpOn jacks jackTrig jackFired jackPages hka amps sag boot fuses fusesRead blow injs caps book irqCopy xportCopy vio
    esd).pending = pending :=
  rfl.trans rfl

theorem foldl_through {α β : Type} (st : β → State) (f : β → α → β) (hf : ∀ x a, (st (f x a)).pending = (st x).pending)
    (l : List α) (x : β) : (st (l.foldl f x)).pending = (st x).pending := by
  induction l generalizing x with
  | nil => rfl
  | cons a l ih => exact (ih _).trans (hf x a)

theorem foldl_pending {α : Type} (f : State → α → State) (hf : ∀ s x, (f s x).pending = s.pending) (l : List α) (s : State) :
    (l.foldl f s).pending = s.pending :=
  foldl_through id f hf l s

theorem snd_mk {α β : Type} (a : α) (b : β) : (a, b).2 = b := rfl

theorem fst_mk {α β : Type} (a : α) (b : β) : (a, b).1 = a := rfl

/-- The queue of `s` is `ql`, as a proposition of the state itself: the kernel then compares states, not their queues. -/
structure State.Queue (s : State) (ql : List Instr) : Prop where
  eq : s.pending = ql

theorem State.Queue.of {s t : State} {ql : List Instr} (h : s.Queue ql) (e : t.pending = s.pending) : t.Queue ql := ⟨e.trans
    h.eq⟩

theorem State.Queue.foldl {α : Type} {f : State → α → State} {ql : List Instr} (hf : ∀ {s : State} x, s.Queue ql → (f s
    x).Queue ql)
    {s : State} (hs : s.Queue ql) (l : List α) : (l.foldl f s).Queue ql := by
  induction l generalizing s with
  | nil => exact hs
  | cons x l ih => exact ih (hf x hs)

/-! ## Registers, memory, free values, domains and pages -/

theorem State.setReg_pending (s : State) (a : Nat) (w : Word) :
    (State.setReg s a w).pending = s.pending := mk_pending ..

theorem State.setFld_pending (s : State) (f : Fld) (v : Nat) :
    (State.setFld s f v).pending = s.pending := by
  simp only [State.setFld, ↓State.setReg_pending]

theorem State.setSfld_pending (s : State) (f : Fld) (i : Int) :
    (State.setSfld s f i).pending = s.pending := by
  simp only [↓State.setFld_pending]

theorem State.countSat_pending (s : State) (f : Fld) (k : Nat) :
    (State.countSat s f k).pending = s.pending := by
  simp only [State.countSat, ↓State.setFld_pending]

theorem State.countWrap_pending (s : State) (f : Fld) (k : Nat) :
    (State.countWrap s f k).pending = s.pending := by
  simp only [State.countWrap, ↓State.setFld_pending]

theorem State.setBit_pending (s : State) (f : Fld) (k : Nat) (b : Bool) :
    (State.setBit s f k b).pending = s.pending := by
  simp only [State.setBit, ↓State.setFld_pending]

theorem State.setByte_pending (s : State) (a : Nat) (b : Byte) :
    (State.setByte s a b).pending = s.pending := mk_pending ..

theorem State.setBytes_pending (s : State) (a : Nat) (bs : List Byte) : (s.setBytes a bs).pending = s.pending := by
  induction bs generalizing s a with
  | nil => rfl
  | cons b bs ih => exact (ih _ _).trans (State.setByte_pending ..)

theorem State.setMemWord_pending (s : State) (a : Nat) (w : Word) :
    (State.setMemWord s a w).pending = s.pending := by
  simp only [State.setMemWord, ↓State.setBytes_pending]

theorem State.clearMem_pending (s : State) (lo hi : Nat) :
    (State.clearMem s lo hi).pending = s.pending := mk_pending ..

theorem State.free_pending (s : State) (n : Nat) :
    (State.free s n).2.pending = s.pending := mk_pending ..

theorem State.freeInt_pending (s : State) (lo hi : Int) :
    (State.freeInt s lo hi).2.pending = s.pending := mk_pending ..

theorem State.freeBytes_pending (s : State) (n : Nat) :
    (State.freeBytes s n).2.pending = s.pending := mk_pending ..

theorem State.divFree_pending (s : State) (a b : Int) :
    (State.divFree s a b).2.pending = s.pending := by
  simp -proj only [State.divFree, ↓mk_pending, snd_mk, ↓apply_ite Prod.snd, ↓apply_ite
      State.pending, ite_self]

theorem State.bumpVer_pending (s : State) (p : Nat) :
    (State.bumpVer s p).pending = s.pending := mk_pending ..

theorem State.updPort_pending (s : State) (p : Fin 4) (f : Port → Port) :
    (State.updPort s p f).pending = s.pending := mk_pending ..

theorem State.waitOver_pending (s : State) (p : Fin 4) (w : Wait → Option OpResult) :
    (State.waitOver s p w).pending = s.pending := by
  simp only [State.waitOver, ↓State.updPort_pending]

/-! ## Events, errors and the event rings -/

theorem State.updRing_pending (s : State) (i : Nat) (f : Ring → Ring) :
    (State.updRing s i f).pending = s.pending := mk_pending ..

theorem State.countLost_pending (s : State) (i : Nat) (k : Nat) :
    (State.countLost s i k).pending = s.pending := by
  simp only [State.countLost, ↓State.updRing_pending, ↓State.countSat_pending, ↓apply_ite State.pending, ite_self]

theorem State.markWater_pending (s : State) (i : Nat) :
    (State.markWater s i).1.pending = s.pending := by
  simp only [State.markWater, ↓State.setBit_pending]

theorem raiseAll_pending (raise : Nat → State → State) (x : State × List Nat) (hraise : ∀ i s, (raise i s).pending =
    s.pending) :
    (raiseAll raise x).pending = x.1.pending := by
  simp -proj only [raiseAll, hraise, ↓foldl_pending, implies_true]

theorem ringEnter_pending (i : Nat) (entry : Bool → List Byte) (s : State) :
    (ringEnter i entry s).1.pending = s.pending := by
  simp -proj only [ringEnter, ↓State.countLost_pending, ↓State.updRing_pending, ↓State.setBytes_pending,
      ↓State.markWater_pending, fst_mk, ↓apply_ite Prod.fst, ↓apply_ite
      State.pending, ite_self]

theorem ringPutWith_pending (raise : Nat → State → State) (i : Nat) (entry : Bool → List Byte) (s : State)
    (hraise : ∀ i s, (raise i s).pending = s.pending) : (ringPutWith raise i entry s).pending = s.pending :=
  (raiseAll_pending raise _ hraise).trans (ringEnter_pending ..)

theorem hearRecord_pending (e : EvtRec) (x : State × List Nat) (p : Fin 4) :
    (hearRecord e x p).1.pending = x.1.pending := by
  simp -proj only [hearRecord, ↓ringEnter_pending, fst_mk, ↓apply_ite Prod.fst, ↓apply_ite State.pending, ite_self]

theorem recordWith_pending (raise : Nat → State → State) (e : EvtRec) (s : State)
    (hraise : ∀ i s, (raise i s).pending = s.pending) : (recordWith raise e s).pending = s.pending := by
  unfold recordWith
  exact (raiseAll_pending raise _ hraise).trans ((foldl_through (fun x : State × List Nat => x.1) _ (hearRecord_pending e) _
      _).trans
    ((mk_pending ..).trans (State.setBytes_pending ..)))

theorem deliverWith_pending (raise : Nat → State → State) (e : EvtRec) (s : State)
    (hraise : ∀ i s, (raise i s).pending = s.pending) : (deliverWith raise e s).pending = s.pending := by
  unfold deliverWith
  split
  · rfl
  · split
    · exact recordWith_pending raise e s hraise
    · rfl

theorem raiseFuel_pending (n g : Nat) (r : EvtReg) (m b : Nat) (f : Bool) (s : State) :
    (raiseFuel n g r m b f s).pending = s.pending := by
  induction n generalizing g r m b f s with
  | zero => rfl
  | succ n ih =>
    unfold raiseFuel
    dsimp only
    split
    · exact (deliverWith_pending _ _ _ fun k t => ih ..).trans (State.setReg_pending ..)
    · exact State.setReg_pending ..

theorem State.raise_pending (s : State) (p b : Nat) :
    (State.raise s p b).pending = s.pending := by
  simp only [State.raise, ↓raiseFuel_pending]

theorem State.raiseAes_pending (s : State) (n b : Nat) :
    (State.raiseAes s n b).pending = s.pending := by
  simp only [State.raiseAes, ↓raiseFuel_pending]

theorem State.raiseGrp_pending (s : State) (g b : Nat) :
    (State.raiseGrp s g b).pending = s.pending := by
  simp only [State.raiseGrp, ↓raiseFuel_pending]

theorem State.raiseWith_pending (s : State) (p b detail : Nat) :
    (State.raiseWith s p b detail).pending = s.pending := by
  simp only [State.raiseWith, ↓raiseFuel_pending]

theorem raiseRing_pending (b : Nat) (s : State) :
    (raiseRing b s).pending = s.pending := by
  simp only [↓State.raise_pending]

theorem State.ringPut_pending (s : State) (i : Nat) (entry : Bool → List Byte) :
    (s.ringPut i entry).pending = s.pending :=
  ringPutWith_pending raiseRing i entry s fun k t => State.raise_pending t 0x00C k

theorem State.flushEvents_pending (s : State) :
    (State.flushEvents s).pending = s.pending := by
  simp -proj only [State.flushEvents, ↓recordWith_pending, ↓raiseRing_pending, ↓mk_pending, ↓foldl_pending, implies_true]

theorem State.inOneCycle_pending (s : State) (f : State → State) (hf : ∀ s, (f s).pending = s.pending) :
    (State.inOneCycle s f).pending = s.pending := by
  unfold State.inOneCycle; split <;> simp -proj only [↓deliverWith_pending, ↓raiseRing_pending, hf, ↓mk_pending,
      ↓foldl_pending, implies_true]

theorem State.setErr_pending (s : State) (p b : Nat) :
    (State.setErr s p b).pending = s.pending := by
  simp only [State.setErr, ↓State.setReg_pending]

theorem State.ringTake_pending (s : State) (i k : Nat) : (s.ringTake i k).pending = s.pending := by
  unfold State.ringTake
  dsimp only
  split
  · exact (raiseAll_pending raiseRing _ fun k t => State.raise_pending t 0x00C k).trans
      ((State.markWater_pending ..).trans (State.updRing_pending ..))
  · exact State.updRing_pending ..

theorem State.ringLose_pending (s : State) (i k : Nat) :
    (State.ringLose s i k).pending = s.pending := by
  simp only [State.ringLose, ↓raiseRing_pending, ↓State.countLost_pending, ↓apply_ite State.pending, ite_self]

theorem State.ringGive_pending (s : State) (i k : Nat) :
    (State.ringGive s i k).pending = s.pending := by
  simp only [State.ringGive, ↓State.updRing_pending]

/-! ## How a written word is stored -/

theorem State.store_pending (s : State) (a v : Nat) :
    (State.store s a v).pending = s.pending := by
  simp only [State.store, ↓State.setReg_pending]

theorem State.answer_pending (s : State) (p : Nat) (w : Word) :
    (State.answer s p w).pending = s.pending := by
  simp only [State.answer]

theorem State.hold_pending (s : State) (a v : Nat) :
    (State.hold s a v).pending = s.pending := mk_pending ..

theorem State.applyHeld_pending (s : State) (sel : Nat → Bool) :
    (State.applyHeld s sel).pending = s.pending := by
  simp -proj only [State.applyHeld, ↓State.store_pending, ↓mk_pending, ↓foldl_pending, implies_true]

theorem State.dropHeld_pending (s : State) (sel : Nat → Bool) :
    (State.dropHeld s sel).pending = s.pending := mk_pending ..

end Sys2Proof.Machine
end

section
/-!
PROOFS. No command changes the queue of the commands behind it (98_reader.md): the serial audio ports, alignment and rate
    conversion.
-/
namespace Sys2Proof.Machine

/-! ## Serial audio ports -/

theorem State.updSap_pending (s : State) (n : Fin 32) (f : Sap → Sap) :
    (State.updSap s n f).pending = s.pending := mk_pending ..

theorem State.updLine_pending (s : State) (n : Fin 32) (k : Fin 2) (f : SapLine → SapLine) :
    (State.updLine s n k f).pending = s.pending := by
  simp only [State.updLine, ↓State.updSap_pending]

theorem State.updChan_pending (s : State) (n : Fin 32) (c : Fin 4) (f : SapChan → SapChan) :
    (State.updChan s n c f).pending = s.pending := by
  simp only [State.updChan, ↓State.updSap_pending]

theorem State.setSapState_pending (s : State) (n : Fin 32) (t : SapState) :
    (State.setSapState s n t).pending = s.pending := by
  simp only [State.setSapState, ↓State.setFld_pending]

theorem State.grpErrs_pending (s : State) (g : Fin 8) (bits : List Nat) :
    (State.grpErrs s g bits).pending = s.pending := by
  simp only [State.grpErrs, ↓State.setReg_pending]

theorem State.fifoPut_pending (s : State) (n : Fin 32) (k : Fin 2) (a b : Sample) :
    (State.fifoPut s n k a b).pending = s.pending := by
  simp only [State.fifoPut, ↓State.updLine_pending, ↓State.setBytes_pending]

theorem State.fifoDrop_pending (s : State) (n : Fin 32) (k : Fin 2) :
    (State.fifoDrop s n k).pending = s.pending := by
  simp only [State.fifoDrop, ↓State.updLine_pending]

theorem State.moveOne_pending (s : State) (g : Fin 8) (n : Fin 32) (k : Fin 2) :
    (State.moveOne s g n k).pending = s.pending := by
  simp only [State.moveOne, ↓State.fifoDrop_pending, ↓State.setBytes_pending, ↓State.updLine_pending]

theorem State.dropFront_pending (s : State) (n : Fin 32) (k : Fin 2) :
    (State.dropFront s n k).pending = s.pending := by
  unfold State.dropFront; split <;> simp -proj only [↓State.updLine_pending, ↓State.fifoDrop_pending, ↓apply_ite State.pending, ite_self]

theorem State.dropFronts_pending (s : State) (n : Fin 32) (k : Fin 2) (j : Nat) : (s.dropFronts n k j).pending = s.pending
    := by
  induction j generalizing s with
  | zero => rfl
  | succ j ih => exact (ih _).trans (State.dropFront_pending ..)

theorem State.fifoBack_pending (s : State) (n : Fin 32) (k : Fin 2) (a b : Sample) :
    (State.fifoBack s n k a b).pending = s.pending := by
  simp only [State.fifoBack, ↓State.updLine_pending, ↓State.setBytes_pending]

theorem State.pushFront_pending (s : State) (n : Fin 32) (k : Fin 2) (a b : Sample) :
    (State.pushFront s n k a b).pending = s.pending := by
  unfold State.pushFront; split <;> simp -proj only [↓State.updLine_pending, ↓State.setBytes_pending,
      ↓State.fifoBack_pending, ↓apply_ite State.pending, ite_self]

theorem State.splice_pending (s : State) (n : Fin 32) (k : Fin 2) :
    (State.splice s n k).pending = s.pending := by
  unfold State.splice; split <;> simp -proj only [↓State.dropFronts_pending, ↓State.pushFront_pending,
      ↓State.updLine_pending, ↓State.raiseGrp_pending, ↓foldl_pending, implies_true]

theorem State.syncZc_pending (s : State) (n : Fin 32) :
    (State.syncZc s n).pending = s.pending := by
  simp only [State.syncZc, ↓State.setFld_pending, ↓State.raise_pending, ↓State.updSap_pending, ↓apply_ite State.pending,
      ite_self]

theorem State.passLine_pending (s : State) (n : Fin 32) (k : Fin 2) (a b : Sample) :
    (State.passLine s n k a b).2.2.pending = s.pending := by
  simp only [State.passLine, ↓State.updChan_pending]

theorem State.underrun_pending (s : State) (n : Fin 32) (k : Fin 2) :
    (State.underrun s n k).pending = s.pending := by
  simp only [State.underrun, ↓State.raise_pending, ↓State.updLine_pending, ↓apply_ite State.pending, ite_self]

theorem State.overrun_pending (s : State) (n : Fin 32) (k : Fin 2) :
    (State.overrun s n k).pending = s.pending := by
  simp only [State.overrun, ↓State.raise_pending, ↓State.updLine_pending, ↓State.splice_pending, ↓apply_ite State.pending,
      ite_self]

theorem State.endEpisodes_pending (s : State) (n : Fin 32) (k : Fin 2) :
    (State.endEpisodes s n k).pending = s.pending := by
  simp only [State.endEpisodes, ↓State.updLine_pending]

theorem State.beginSnow_pending (s : State) (n : Fin 32) (k : Fin 2) :
    (State.beginSnow s n k).pending = s.pending := by
  simp only [State.beginSnow, ↓State.updLine_pending]

theorem State.snowMember_pending (s : State) (n : Fin 32) (k : Fin 2) :
    (State.snowMember s n k).pending = s.pending := by
  simp only [State.snowMember, ↓State.beginSnow_pending, ↓State.updLine_pending, ↓apply_ite State.pending, ite_self]

theorem State.startSnow_pending (s : State) (n : Fin 32) (k : Fin 2) :
    (State.startSnow s n k).pending = s.pending := by
  unfold State.startSnow; split <;> simp -proj only [↓State.beginSnow_pending, ↓State.snowMember_pending,
      ↓State.raiseGrp_pending, ↓mk_pending, ↓foldl_pending, implies_true, ↓apply_ite State.pending, ite_self]

theorem State.putSrc_pending (s : State) (n : Fin 32) (k : Fin 2) (a b : Sample) :
    (State.putSrc s n k a b).pending = s.pending := mk_pending ..

theorem State.countInserted_pending (s : State) (n : Fin 32) (k : Fin 2) :
    (State.countInserted s n k).pending = s.pending := by
  simp only [State.countInserted, ↓State.updLine_pending]

theorem State.insertSilence_pending (s : State) (n : Fin 32) (k : Fin 2) :
    (State.insertSilence s n k).pending = s.pending := by
  simp only [State.insertSilence, ↓State.putSrc_pending, ↓State.countInserted_pending]

theorem State.insertTail_pending (s : State) (n : Fin 32) (k : Fin 2) :
    (State.insertTail s n k).pending = s.pending := by
  simp only [State.insertTail, ↓State.putSrc_pending, ↓State.countInserted_pending]

theorem State.takeFrame_pending (s : State) (n : Fin 32) (k : Fin 2) :
    (State.takeFrame s n k).2.2.pending = s.pending := by
  simp only [State.takeFrame, ↓State.passLine_pending, ↓State.dropFront_pending, ↓State.updLine_pending]

theorem State.present_pending (s : State) (n : Fin 32) (k : Fin 2) (mark : Tag → Tag) :
    (State.present s n k mark).pending = s.pending := by
  simp only [State.present, ↓State.takeFrame_pending, ↓State.putSrc_pending]

theorem State.silentDue_pending (s : State) (n : Fin 32) (k : Fin 2) :
    (State.silentDue s n k).pending = s.pending := by
  unfold State.silentDue; split <;> simp -proj only [↓State.underrun_pending, ↓State.insertSilence_pending,
      ↓State.updLine_pending, ↓State.dropFront_pending, ↓State.raiseGrp_pending, ↓State.countSat_pending, ↓apply_ite State.pending, ite_self]

theorem State.playDue_pending (s : State) (n : Fin 32) (k : Fin 2) (mark : Tag → Tag) :
    (State.playDue s n k mark).pending = s.pending := by
  simp only [State.playDue, ↓State.underrun_pending, ↓State.startSnow_pending, ↓State.insertTail_pending,
      ↓State.updLine_pending, ↓State.insertSilence_pending, ↓State.present_pending, ↓apply_ite State.pending, ite_self]

theorem State.presentDue_pending (s : State) (n : Fin 32) (k : Fin 2) :
    (State.presentDue s n k).pending = s.pending := by
  simp -proj only [State.presentDue, ↓State.updLine_pending]
  split <;> simp -proj only [↓State.silentDue_pending, ↓State.updLine_pending, ↓State.present_pending,
      ↓State.insertSilence_pending, ↓State.underrun_pending, ↓State.insertTail_pending, ↓State.playDue_pending, ↓apply_ite State.pending, ite_self]

theorem State.presentMany_pending (s : State) (n : Fin 32) (k : Fin 2) (j : Nat) : (s.presentMany n k j).pending = s.pending
    := by
  induction j generalizing s with
  | zero => rfl
  | succ j ih => exact (ih _).trans (State.presentDue_pending ..)

theorem State.framesDue_pending (s : State) (n : Fin 32) (k : Fin 2) :
    (State.framesDue s n k).2.pending = s.pending := by
  simp -proj only [State.framesDue, ↓State.updLine_pending, snd_mk, ↓apply_ite
      Prod.snd, ↓apply_ite State.pending, ite_self]

theorem State.readyInput_pending (s : State) (n : Fin 32) (k : Fin 2) :
    (State.readyInput s n k).pending = s.pending := by
  simp only [State.readyInput, ↓State.updLine_pending, ↓State.startSnow_pending, ↓apply_ite State.pending, ite_self]

theorem State.insertMany_pending (s : State) (n : Fin 32) (k : Fin 2) :
    (State.insertMany s n k).pending = s.pending := by
  simp -proj only [State.insertMany, ↓State.framesDue_pending, ↓State.insertSilence_pending, ↓State.putSrc_pending,
      ↓foldl_pending, implies_true]

theorem State.dropStore_pending (s : State) (n : Fin 32) (k : Fin 2) :
    (State.dropStore s n k).pending = s.pending := by
  simp only [State.dropStore, ↓State.updLine_pending]

theorem State.tickInput_pending (s : State) (n : Fin 32) (k : Fin 2) :
    (State.tickInput s n k).pending = s.pending := by
  unfold State.tickInput; split <;> simp -proj only [↓State.putSrc_pending, ↓State.insertMany_pending,
      ↓State.dropStore_pending, ↓State.updLine_pending, ↓State.endEpisodes_pending, ↓State.presentMany_pending, ↓apply_ite State.pending, ite_self]

theorem State.sinkFrame_pending (s : State) (n : Fin 32) (k : Fin 2) :
    (State.sinkFrame s n k).pending = s.pending := by
  simp only [State.sinkFrame, ↓State.passLine_pending, ↓State.updLine_pending, ↓State.overrun_pending,
      ↓State.fifoPut_pending, ↓apply_ite State.pending, ite_self]

theorem State.tickOutput_pending (s : State) (n : Fin 32) (k : Fin 2) :
    (State.tickOutput s n k).pending = s.pending := by
  unfold State.tickOutput; split <;> simp -proj only [↓State.updLine_pending, ↓State.framesDue_pending,
      ↓State.sinkFrame_pending, ↓foldl_pending, implies_true, ↓apply_ite State.pending, ite_self]

theorem State.outputRejoin_pending (s : State) (n : Fin 32) (k : Fin 2) :
    (State.outputRejoin s n k).pending = s.pending := by
  simp only [State.outputRejoin, ↓State.updLine_pending, ↓apply_ite State.pending, ite_self]

theorem State.stampBlock_pending (s : State) (n : Fin 32) (k : Fin 2) :
    (State.stampBlock s n k).pending = s.pending := by
  simp only [State.stampBlock, ↓State.updSap_pending, ↓apply_ite State.pending, ite_self]

theorem State.writeTs_pending (s : State) (g : Fin 8) (n : Fin 32) (k : Fin 2) (stamp : Nat) (coarse : Bool) :
    (State.writeTs s g n k stamp coarse).pending = s.pending := by
  simp only [State.writeTs, ↓State.countSat_pending, ↓State.updLine_pending, ↓State.ringPut_pending, ↓apply_ite
      State.pending, ite_self]

theorem State.blockDone_pending (s : State) (n : Fin 32) (k : Fin 2) :
    (State.blockDone s n k).pending = s.pending := by
  unfold State.blockDone; split <;> simp -proj only [↓State.updLine_pending, ↓State.raiseGrp_pending,
      ↓State.writeTs_pending, ↓State.raise_pending, ↓State.setSapState_pending, ↓apply_ite State.pending,
      ite_self]

theorem State.enter_pending (s : State) (n : Fin 32) (k : Fin 2) (a b : Sample) :
    (State.enter s n k a b).pending = s.pending := by
  simp -proj only [State.enter, ↓State.updLine_pending, ↓State.stampBlock_pending, ↓State.fifoPut_pending, ↓State.blockDone_pending, ↓State.endEpisodes_pending, ↓apply_ite State.pending, ite_self]
  split <;> simp -proj only [↓State.updLine_pending, ↓State.overrun_pending, ↓State.moveOne_pending,
      ↓apply_ite State.pending, ite_self]

theorem State.moveBlocks_pending (s : State) (g : Fin 8) (n : Fin 32) (k : Fin 2) (j : Nat) :
    (s.moveBlocks g n k j).pending = s.pending := by
  induction j generalizing s with
  | zero => rfl
  | succ j ih =>
    unfold State.moveBlocks
    dsimp only
    split
    · rfl
    · exact (ih _).trans (State.moveOne_pending ..)

theorem State.endInput_pending (s : State) (n : Fin 32) (k : Fin 2) :
    (State.endInput s n k).pending = s.pending := by
  unfold State.endInput; split <;> simp -proj only [↓State.moveBlocks_pending, ↓State.startSnow_pending, ↓apply_ite State.pending, ite_self]

theorem State.wakeLines_pending (s : State) (n : Fin 32) :
    (State.wakeLines s n).pending = s.pending := by
  simp -proj only [State.wakeLines, ↓State.updLine_pending, ↓State.updChan_pending, ↓foldl_pending,
      implies_true, ↓apply_ite State.pending, ite_self]

theorem State.portEnd_pending (s : State) (n : Fin 32) :
    (State.portEnd s n).pending = s.pending := by
  unfold State.portEnd; split <;> simp -proj only [↓State.wakeLines_pending, ↓State.endInput_pending, ↓State.syncZc_pending,
      ↓State.updSap_pending, ↓foldl_pending, implies_true, ↓apply_ite State.pending, ite_self]

theorem State.checkMismatch_pending (s : State) (n : Fin 32) :
    (State.checkMismatch s n).pending = s.pending := by
  simp only [State.checkMismatch, ↓State.raise_pending, ↓apply_ite State.pending, ite_self]

theorem State.startAes_pending (s : State) (n : Fin 32) :
    (State.startAes s n).pending = s.pending := by
  simp only [State.startAes, ↓State.updSap_pending, ↓State.setFld_pending, ↓apply_ite State.pending, ite_self]

theorem State.enterStarting_pending (s : State) (n : Fin 32) :
    (State.enterStarting s n).pending = s.pending := by
  simp only [State.enterStarting, ↓State.updSap_pending, ↓State.syncZc_pending, ↓State.checkMismatch_pending,
      ↓State.wakeLines_pending, ↓State.startAes_pending, ↓State.setSapState_pending]

theorem State.startPort_pending (s : State) (n : Fin 32) :
    (State.startPort s n).pending = s.pending := by
  unfold State.startPort; (repeat' split) <;> simp -proj only [↓State.setFld_pending, ↓State.setErr_pending,
      ↓State.enterStarting_pending, ↓State.grpErrs_pending, ↓foldl_pending, implies_true]

theorem State.grpAhead_pending (s : State) (g : Fin 8) :
    (State.grpAhead s g).pending = s.pending := by
  simp only [↓State.applyHeld_pending]

theorem State.reserveGrp_pending (s : State) (g : Fin 8) :
    (State.reserveGrp s g).pending = s.pending := mk_pending ..

theorem State.grpApply_pending (s : State) (g : Fin 8) :
    (State.grpApply s g).pending = s.pending := by
  simp only [State.grpApply, ↓State.grpAhead_pending, ↓State.grpErrs_pending, ↓apply_ite State.pending, ite_self]

theorem State.grpWrite_pending (s : State) (g : Fin 8) (r : GrpReg) (v : Nat) :
    (State.grpWrite s g r v).pending = s.pending := by
  simp only [State.grpWrite, ↓State.hold_pending, ↓State.grpApply_pending,
      ↓State.reserveGrp_pending, ↓apply_ite State.pending, ite_self]

theorem State.enterStopped_pending (s : State) (n : Fin 32) :
    (State.enterStopped s n).pending = s.pending := by
  simp -proj only [State.enterStopped, ↓State.setSapState_pending, ↓State.dropStore_pending, ↓State.syncZc_pending,
      ↓State.updSap_pending, ↓State.applyHeld_pending, ↓State.raise_pending, ↓State.grpApply_pending,
      ↓State.startPort_pending, ↓foldl_pending, implies_true, ↓apply_ite State.pending, ite_self]

theorem State.stopPort_pending (s : State) (n : Fin 32) :
    (State.stopPort s n).pending = s.pending := by
  unfold State.stopPort; split <;> simp -proj only [↓State.enterStopped_pending, ↓State.syncZc_pending,
      ↓State.setSapState_pending, ↓State.updSap_pending]

theorem State.muteWrite_pending (s : State) (n : Fin 32) (mask : Nat) :
    (State.muteWrite s n mask).pending = s.pending := by
  simp -proj only [State.muteWrite, ↓State.setFld_pending, ↓State.updChan_pending, ↓State.syncZc_pending,
      ↓State.updSap_pending, ↓foldl_pending, implies_true, ↓apply_ite State.pending, ite_self]

theorem State.sapCtrlWrite_pending (s : State) (n : Fin 32) (v : Nat) :
    (State.sapCtrlWrite s n v).pending = s.pending := by
  simp only [State.sapCtrlWrite, ↓State.setFld_pending, ↓State.muteWrite_pending, ↓State.startPort_pending,
      ↓State.stopPort_pending, ↓apply_ite State.pending, ite_self]

theorem State.sapCfgWrite_pending (s : State) (n : Fin 32) (r : SapReg) (v : Nat) :
    (State.sapCfgWrite s n r v).pending = s.pending := by
  simp only [State.sapCfgWrite, ↓State.store_pending, ↓State.hold_pending, ↓apply_ite State.pending, ite_self]

theorem State.reanchor_pending (s : State) (n : Fin 32) (k : Fin 2) (told : Bool) :
    (State.reanchor s n k told).pending = s.pending := by
  unfold State.reanchor; split <;> simp -proj only [↓State.updLine_pending, ↓State.dropFronts_pending,
      ↓State.raiseGrp_pending]

theorem State.rateLine_pending (s : State) (n : Fin 32) (k : Fin 2) :
    (State.rateLine s n k).pending = s.pending := by
  simp only [State.rateLine, ↓State.reanchor_pending, ↓State.updLine_pending, ↓apply_ite State.pending, ite_self]

theorem State.outputLost_pending (s : State) (n : Fin 32) (k : Fin 2) :
    (State.outputLost s n k).pending = s.pending := by
  simp only [State.outputLost, ↓State.updLine_pending, ↓apply_ite State.pending, ite_self]

theorem State.aesTxLost_pending (s : State) (n : Fin 32) :
    (State.aesTxLost s n).pending = s.pending := by
  simp only [State.aesTxLost, ↓State.outputLost_pending, ↓State.updSap_pending]

theorem State.portRateChange_pending (s : State) (n : Fin 32) (code : Nat) :
    (State.portRateChange s n code).pending = s.pending := by
  simp only [State.portRateChange, ↓State.aesTxLost_pending, ↓State.rateLine_pending, ↓State.raise_pending,
      ↓State.setSapState_pending, ↓apply_ite State.pending, ite_self]

theorem State.portPresent_pending (s : State) (n : Fin 32) :
    (State.portPresent s n).pending = s.pending := by
  unfold State.portPresent; split <;> simp -proj only [↓State.syncZc_pending, ↓State.checkMismatch_pending,
      ↓State.wakeLines_pending, ↓State.updSap_pending, ↓apply_ite State.pending, ite_self]

theorem State.portLoss_pending (s : State) (n : Fin 32) :
    (State.portLoss s n).pending = s.pending := by
  simp only [State.portLoss, ↓State.aesTxLost_pending, ↓State.outputLost_pending, ↓apply_ite State.pending, ite_self]

/-! ## Alignment and rate conversion -/

theorem State.askIn_pending (s : State) (n : Fin 32) (k : Fin 2) :
    (State.askIn s n k).pending = s.pending := by
  simp -proj only [State.askIn, ↓State.updChan_pending, ↓foldl_pending, implies_true, ↓apply_ite State.pending,
      ite_self]

theorem State.memberStart_pending (s : State) (n : Fin 32) (k : Fin 2) :
    (State.memberStart s n k).pending = s.pending := by
  unfold State.memberStart; split <;> simp -proj only [↓State.syncZc_pending, ↓State.askIn_pending, ↓State.updLine_pending,
      ↓apply_ite State.pending, ite_self]

theorem State.snowSilent_pending (s : State) (n : Fin 32) (k : Fin 2) :
    (State.snowSilent s n k).pending = s.pending := by
  unfold State.snowSilent; (repeat' split) <;> simp -proj only [↓State.updLine_pending, ↓State.syncZc_pending,
      ↓State.updChan_pending, ↓State.raiseGrp_pending]

theorem State.dropLate_pending (s : State) (n : Fin 32) (k : Fin 2) :
    (State.dropLate s n k).pending = s.pending := by
  unfold State.dropLate; split <;> simp -proj only [↓State.updLine_pending, ↓State.dropFront_pending,
      ↓State.raiseGrp_pending, ↓State.countSat_pending]

theorem State.dropPassed_pending (s : State) (n : Fin 32) (k : Fin 2) (j : Nat) : (s.dropPassed n k j).pending = s.pending
    := by
  induction j generalizing s with
  | zero => rfl
  | succ j ih =>
    unfold State.dropPassed
    dsimp only
    split
    · exact (ih _).trans (State.dropLate_pending ..)
    · rfl

theorem State.rejoinLine_pending (s : State) (n : Fin 32) (k : Fin 2) :
    (State.rejoinLine s n k).pending = s.pending := by
  unfold State.rejoinLine; (repeat' split) <;> simp -proj only [↓State.reanchor_pending, ↓State.updLine_pending,
      ↓State.dropPassed_pending, ↓State.raiseGrp_pending]

theorem State.rejoin_pending (s : State) (n : Fin 32) (k : Fin 2) :
    (State.rejoin s n k).pending = s.pending := by
  unfold State.rejoin; (repeat' split) <;> simp -proj only [↓State.rejoinLine_pending, ↓foldl_pending,
      implies_true, ↓apply_ite State.pending, ite_self]

theorem State.lockReady_pending (s : State) (g : Fin 8) :
    (State.lockReady s g).pending = s.pending := by
  simp only [State.lockReady, ↓apply_ite State.pending, ite_self]

theorem State.updAsrc_pending (s : State) (i : Nat) (f : Asrc → Asrc) :
    (State.updAsrc s i f).pending = s.pending := mk_pending ..

theorem State.asrcEnter_pending (s : State) (i : Nat) (t : AsrcState) :
    (State.asrcEnter s i t).pending = s.pending := by
  refine State.Queue.eq ?_
  unfold State.asrcEnter
  dsimp -proj only
  split <;> exact ⟨by simp -proj only [↓State.setBit_pending, ↓State.setFld_pending, ↓State.raise_pending,
      ↓State.countSat_pending, ↓State.updAsrc_pending, ↓apply_ite State.pending, ite_self]⟩

theorem State.asrcShare_pending (s : State) (i : Nat) :
    (State.asrcShare s i).pending = s.pending := by
  simp only [State.asrcShare, ↓State.asrcEnter_pending, ↓apply_ite State.pending, ite_self]

theorem State.asrcEnable_pending (s : State) (i : Nat) :
    (State.asrcEnable s i).pending = s.pending := by
  simp only [State.asrcEnable, ↓State.updAsrc_pending, ↓State.setFld_pending, ↓State.asrcShare_pending,
      ↓State.asrcEnter_pending]

theorem State.asrcDisable_pending (s : State) (i : Nat) :
    (State.asrcDisable s i).pending = s.pending := by
  simp only [State.asrcDisable, ↓State.applyHeld_pending, ↓State.updAsrc_pending, ↓State.setFld_pending]

theorem State.asrcWrite_pending (s : State) (i : Nat) (v : Nat) :
    (State.asrcWrite s i v).pending = s.pending := by
  simp only [State.asrcWrite, ↓State.hold_pending, ↓State.store_pending, ↓State.asrcDisable_pending,
      ↓State.asrcEnable_pending, ↓apply_ite State.pending, ite_self]

theorem State.asrcClock_pending (s : State) (n : Fin 32) (lost : Bool) : (s.asrcClock n lost).pending = s.pending := by
  refine foldl_pending _ (fun t i => ?_) _ _
  split
  · split
    all_goals first
      | exact State.asrcEnter_pending ..
      | rfl
  · rfl

theorem State.asrcRelock_pending (s : State) (is : List Nat) :
    (State.asrcRelock s is).pending = s.pending := by
  simp -proj only [State.asrcRelock, ↓State.asrcEnter_pending, ↓foldl_pending, implies_true, ↓apply_ite
      State.pending, ite_self]

theorem State.asrcSnap_pending (s : State) :
    (State.asrcSnap s).pending = s.pending := by
  simp only [State.asrcSnap, ↓State.asrcRelock_pending]

theorem State.asrcMeasure_pending (s : State) :
    (State.asrcMeasure s).pending = s.pending := by
  simp -proj only [State.asrcMeasure, ↓State.setFld_pending, ↓foldl_pending, implies_true, ↓apply_ite
      State.pending, ite_self]

theorem State.asrcTick_pending (s : State) (i : Nat) :
    (State.asrcTick s i).pending = s.pending := by
  unfold State.asrcTick; split <;> simp -proj only [↓State.updAsrc_pending, ↓State.freeInt_pending]

end Sys2Proof.Machine
end

section
/-!
PROOFS. No command changes the queue of the commands behind it (98_reader.md): objects and gains, jacks and the test DAC,
    inputs, and AES3.
-/
namespace Sys2Proof.Machine

/-! ## Admission -/

theorem State.admitOut_pending (s : State) (a : Option Admission) :
    (State.admitOut s a).pending = s.pending := by
  refine State.Queue.eq ?_
  unfold State.admitOut
  dsimp -proj only
  split <;> exact ⟨by simp -proj only [↓State.setReg_pending, ↓foldl_pending, implies_true]⟩

/-! ## Objects, delay lines and generators -/

theorem State.toQ31_pending (s : State) (x : Int) :
    (State.toQ31 s x).2.2.pending = s.pending := by
  simp only [State.toQ31, ↓State.divFree_pending]

theorem State.setGain_pending (s : State) (a : Nat) (g : Glide) :
    (State.setGain s a g).pending = s.pending := mk_pending ..

theorem State.aimGain_pending (s : State) (a : Nat) :
    (State.aimGain s a).pending = s.pending := by
  simp only [State.aimGain, ↓State.setGain_pending]

theorem State.stepGain_pending (s : State) (a : Nat) :
    (State.stepGain s a).pending = s.pending := by
  simp only [State.stepGain, ↓State.setGain_pending]

theorem State.stepGains_pending (s : State) :
    (State.stepGains s).pending = s.pending := by
  simp -proj only [State.stepGains, ↓State.stepGain_pending, ↓foldl_pending, implies_true]

theorem State.updFab_pending (s : State) (f : Fab → Fab) :
    (State.updFab s f).pending = s.pending := mk_pending ..

theorem State.runBiquad_pending (s : State) (i : Nat) (shadow : Bool) (x : Int) :
    (State.runBiquad s i shadow x).2.2.pending = s.pending := by
  simp only [State.runBiquad, ↓State.updFab_pending, ↓State.toQ31_pending]

theorem State.runDyn_pending (s : State) (i sink : Nat) (shadow : Bool) (x : Int) :
    (State.runDyn s i sink shadow x).2.2.pending = s.pending := by
  simp only [State.runDyn, ↓State.divFree_pending, ↓State.updFab_pending, ↓State.setSfld_pending, ↓State.toQ31_pending,
      ↓apply_ite State.pending, ite_self]

theorem State.allocLine_pending (s : State) (i : Nat) :
    (State.allocLine s i).pending = s.pending := by
  simp only [State.allocLine, ↓apply_ite State.pending, ite_self]

theorem State.lineOut_pending (s : State) (l : DLine) (x : Sample) :
    (State.lineOut s l x).2.pending = s.pending := by
  simp -proj only [State.lineOut, ↓State.divFree_pending, snd_mk, ↓apply_ite
      Prod.snd, ↓apply_ite State.pending, ite_self]

theorem State.runTap_pending (s : State) (i : Nat) (x : Sample) (write : Bool) :
    (State.runTap s i x write).2.pending = s.pending := by
  unfold State.runTap; split <;> simp -proj only [↓State.lineOut_pending, ↓State.setBytes_pending, ↓mk_pending, snd_mk, ↓apply_ite Prod.snd, ↓apply_ite State.pending, ite_self]

theorem State.runScale_pending (s : State) (b n : Nat) (shadow : Bool) :
    (State.runScale s b n shadow).2.pending = s.pending := by
  simp only [State.runScale, ↓State.updFab_pending]

theorem Run.input_pending (r : Run) : r.input.2.s.pending = r.s.pending := State.toQ31_pending ..

theorem Run.item_pending (r : Run) (x : Item) : (r.item x).s.pending = r.s.pending := by
  have hi := r.input_pending
  cases x with
  | term src slot => unfold Run.item; dsimp only; split <;> rfl
  | biquad i =>
    unfold Run.item
    dsimp only
    split
    · rfl
    · exact (State.runBiquad_pending ..).trans hi
  | dynamics i =>
    unfold Run.item
    dsimp only
    split
    · rfl
    · exact (State.runDyn_pending ..).trans hi
  | delay i =>
    unfold Run.item
    generalize r.input = z at hi ⊢
    dsimp only
    split
    · exact hi
    · exact (State.runTap_pending ..).trans hi
  | scale => exact State.runScale_pending ..

theorem State.runProg_pending (s : State) (sink : Nat) (items : List Item) (old : Bool) (taps : List (Nat × Sample)) :
    (s.runProg sink items old taps).2.1.pending = s.pending :=
  (State.toQ31_pending ..).trans (foldl_through (fun r : Run => r.s) Run.item Run.item_pending items _)

theorem State.runGen_pending (s : State) (j : Nat) :
    (State.runGen s j).2.pending = s.pending := by
  simp only [State.runGen, ↓State.updFab_pending]

/-! ## Fades, classification and the test DAC -/

theorem State.setOutState_pending (s : State) (o : OutId) (t : OutState) :
    (State.setOutState s o t).pending = s.pending := by
  simp only [State.setOutState, ↓State.setFld_pending]

theorem State.updOut_pending (s : State) (o : OutId) (f : Out → Out) :
    (State.updOut s o f).pending = s.pending := mk_pending ..

theorem State.tdacEnqueue_pending (s : State) (x : TdacUser) :
    (State.tdacEnqueue s x).pending = s.pending := by
  simp only [State.tdacEnqueue, ↓apply_ite State.pending, ite_self]

theorem State.tdacUnqueue_pending (s : State) (x : TdacUser) :
    (State.tdacUnqueue s x).pending = s.pending := mk_pending ..

theorem State.setSeqState_pending (s : State) (x : Fin 3) (k : Nat) :
    (State.setSeqState s x k).pending = s.pending := by
  simp only [State.setSeqState, ↓State.setFld_pending]

theorem State.updSeq_pending (s : State) (x : Fin 3) (f : Seq → Seq) :
    (State.updSeq s x f).pending = s.pending := mk_pending ..

theorem State.pipePreempt_pending (s : State) (c : Option Nat) :
    (State.pipePreempt s c).pending = s.pending := by
  simp -proj only [State.pipePreempt]
  split <;> simp -proj only [↓State.updSeq_pending, ↓mk_pending, ↓apply_ite State.pending, ite_self]

theorem State.entryInput_pending (s : State) (x : Fin 3) :
    (State.entryInput s x).pending = s.pending := mk_pending ..

theorem State.entryStart_pending (s : State) (x : Fin 3) (i : Nat) :
    (State.entryStart s x i).pending = s.pending := by
  refine State.Queue.eq ?_
  unfold State.entryStart
  dsimp -proj only
  exact ⟨by simp -proj only [↓State.setFld_pending, ↓State.updSeq_pending, ↓State.entryInput_pending, ↓apply_ite State.pending, ite_self]⟩

theorem State.runEnd_pending (s : State) (x : Fin 3) :
    (State.runEnd s x).pending = s.pending := by
  simp only [State.runEnd, ↓State.raise_pending, ↓State.countWrap_pending, ↓State.setSeqState_pending]

theorem State.runBegin_pending (s : State) (x : Fin 3) :
    (State.runBegin s x).pending = s.pending := by
  unfold State.runBegin; split <;> simp -proj only [↓State.entryStart_pending, ↓State.runEnd_pending]

theorem State.seqServeOne_pending (s : State) (mode : Nat) :
    (State.seqServeOne s mode).pending = s.pending := by
  simp -proj only [State.seqServeOne, ↓apply_ite State.pending]; (repeat' split) <;> simp -proj only [↓State.updSeq_pending,
      ↓State.setSeqState_pending, ↓State.runBegin_pending, ↓mk_pending]

theorem State.seqServe_pending (s : State) (mode : Nat) :
    (State.seqServe s mode).pending = s.pending := by
  simp only [State.seqServe, ↓State.seqServeOne_pending]

theorem State.seqServeAll_pending (s : State) :
    (State.seqServeAll s).pending = s.pending := by
  simp only [State.seqServeAll, ↓State.seqServe_pending]

theorem State.pipeResume_pending (s : State) :
    (State.pipeResume s).pending = s.pending := by
  unfold State.pipeResume; (repeat' split) <;> simp -proj only [↓State.entryStart_pending, ↓State.seqServe_pending,
      ↓State.runEnd_pending, ↓State.countSat_pending, ↓State.entryInput_pending, ↓State.updSeq_pending, ↓apply_ite State.pending, ite_self]

theorem State.hpFade_pending (s : State) (h : Fin 4) :
    (State.hpFade s h).pending = s.pending := by
  unfold State.hpFade; (repeat' split) <;> simp -proj only [↓State.updOut_pending]

theorem State.hpUnfade_pending (s : State) (h : Fin 4) :
    (State.hpUnfade s h).pending = s.pending := by
  simp only [State.hpUnfade, ↓State.updOut_pending, ↓apply_ite State.pending, ite_self]

theorem State.poleFollow_pending (s : State) (h : Fin 4) :
    (State.poleFollow s h).pending = s.pending := by
  simp only [State.poleFollow, ↓State.updOut_pending, ↓State.hpFade_pending, ↓State.setFld_pending, ↓apply_ite
      State.pending, ite_self]

theorem State.trigger_pending (s : State) (j : Fin 20) (k : TrigKind) :
    (State.trigger s j k).pending = s.pending := mk_pending ..

theorem State.updJack_pending (s : State) (j : Fin 20) (f : Jack → Jack) :
    (State.updJack s j f).pending = s.pending := mk_pending ..

theorem State.classFinal_pending (s : State) (j : Fin 20) (code : Nat) :
    (State.classFinal s j code).pending = s.pending := by
  refine State.Queue.eq ?_
  unfold State.classFinal
  dsimp -proj only
  exact ⟨by simp -proj only [↓State.raise_pending, ↓State.countWrap_pending, ↓State.setFld_pending, ↓State.trigger_pending,
      ↓State.updJack_pending, ↓State.poleFollow_pending, ↓apply_ite State.pending, ite_self]⟩

theorem State.classDiag_pending (s : State) (n : Fin 16) (code : Nat) :
    (State.classDiag s n code).pending = s.pending := by
  simp only [State.classDiag, ↓State.updJack_pending, ↓State.classFinal_pending, ↓apply_ite State.pending, ite_self]

theorem State.loadQueue_pending (s : State) (h : Fin 4) :
    (State.loadQueue s h).pending = s.pending := by
  simp -proj only [State.loadQueue]
  split <;> simp -proj only [↓State.tdacEnqueue_pending, ↓State.updJack_pending, ↓apply_ite State.pending,
      ite_self]

/-! ## Inputs -/

theorem State.setAinState_pending (s : State) (n : Fin 16) (t : AinState) :
    (State.setAinState s n t).pending = s.pending := by
  simp only [State.setAinState, ↓State.setFld_pending]

theorem State.setPh_pending (s : State) (n : Fin 16) (t : PhState) :
    (State.setPh s n t).pending = s.pending := by
  simp only [State.setPh, ↓State.setFld_pending]

theorem State.updAin_pending (s : State) (n : Fin 16) (f : Ain → Ain) :
    (State.updAin s n f).pending = s.pending := mk_pending ..

theorem State.syncMuted_pending (s : State) (n : Fin 16) :
    (State.syncMuted s n).pending = s.pending := by
  simp only [State.syncMuted, ↓State.setFld_pending]

theorem State.muteCause_pending (s : State) (n : Fin 16) (c : MuteCause) :
    (State.muteCause s n c).pending = s.pending := by
  simp -proj only [State.muteCause, ↓State.updAin_pending, ↓State.syncMuted_pending, ↓apply_ite State.pending]; (repeat' split) <;> simp -proj only [↓State.updAin_pending]

theorem State.muteEnd_pending (s : State) (n : Fin 16) (c : MuteCause) :
    (State.muteEnd s n c).pending = s.pending := by
  simp only [State.muteEnd, ↓State.updAin_pending, ↓State.syncMuted_pending, ↓apply_ite State.pending, ite_self]

theorem State.takeStep_pending (s : State) (n : Fin 16) (mark : Bool) :
    (State.takeStep s n mark).pending = s.pending := by
  refine State.Queue.eq ?_
  unfold State.takeStep
  dsimp -proj only
  exact ⟨by simp -proj only [↓State.setFld_pending, ↓State.updAin_pending]⟩

theorem State.forceStep_pending (s : State) (n : Fin 16) :
    (State.forceStep s n).pending = s.pending := by
  simp only [State.forceStep, ↓State.raise_pending, ↓State.countSat_pending, ↓State.takeStep_pending]

theorem State.showGain_pending (s : State) (n : Fin 16) :
    (State.showGain s n).pending = s.pending := by
  simp only [State.showGain, ↓State.setFld_pending]

theorem State.gainAtOnce_pending (s : State) (n : Fin 16) :
    (State.gainAtOnce s n).pending = s.pending := by
  simp only [State.gainAtOnce, ↓State.showGain_pending, ↓State.takeStep_pending, ↓State.updAin_pending]

theorem State.preampApplied_pending (s : State) (n : Fin 16) :
    (State.preampApplied s n).pending = s.pending := by
  simp only [State.preampApplied, ↓State.gainAtOnce_pending, ↓State.updAin_pending, ↓apply_ite State.pending, ite_self]

theorem State.tickGain_pending (s : State) (n : Fin 16) (v : Int) :
    (State.tickGain s n v).pending = s.pending := by
  refine State.Queue.eq ?_
  unfold State.tickGain
  dsimp -proj only
  exact ⟨by simp -proj only [↓State.showGain_pending, ↓State.updAin_pending, ↓State.setFld_pending, ↓State.takeStep_pending,
      ↓State.forceStep_pending, ↓apply_ite State.pending, ite_self]⟩

theorem State.pathSample_pending (s : State) (n : Fin 16) (i : AinIn) :
    (State.pathSample s n i).2.pending = s.pending := by
  simp -proj only [State.pathSample, ↓State.updAin_pending, ↓State.setFld_pending, ↓State.freeInt_pending, snd_mk, ↓apply_ite Prod.snd, ↓apply_ite State.pending, ite_self]

theorem State.calTick_pending (s : State) (n : Fin 16) (i : AinIn) :
    (State.calTick s n i).pending = s.pending := by
  simp only [State.calTick, ↓State.updAin_pending, ↓apply_ite State.pending, ite_self]

theorem State.highPassed_pending (s : State) (n : Fin 16) (v : Int) :
    (State.highPassed s n v).2.pending = s.pending := by
  simp -proj only [State.highPassed, ↓State.updAin_pending, snd_mk, ↓apply_ite
      Prod.snd, ↓apply_ite State.pending, ite_self]

theorem State.ainSignal_pending (s : State) (n : Fin 16) (i : AinIn) :
    (State.ainSignal s n i).pending = s.pending := by
  simp only [State.ainSignal, ↓State.pathSample_pending, ↓State.calTick_pending, ↓State.highPassed_pending,
      ↓State.tickGain_pending, ↓State.raise_pending, ↓State.countSat_pending, ↓State.updAin_pending, ↓apply_ite
      State.pending, ite_self]

theorem State.openPins_pending (s : State) (i : AinIn) :
    (State.openPins s i).2.pending = s.pending := mk_pending ..

theorem State.ainTick_pending (s : State) (n : Fin 16) (i : AinIn) :
    (State.ainTick s n i).pending = s.pending := by
  simp -proj only [State.ainTick, ↓State.updAin_pending, ↓mk_pending,
      ↓apply_ite State.pending]; (repeat' split) <;> simp -proj only [↓State.openPins_pending,
      ↓State.updAin_pending, ↓State.ainSignal_pending, ↓mk_pending]

theorem State.diagEnd_pending (s : State) (n : Fin 16) (code : Nat) :
    (State.diagEnd s n code).pending = s.pending := by
  simp only [State.diagEnd, ↓State.setFld_pending, ↓State.raise_pending, ↓State.countWrap_pending, ↓State.updAin_pending,
      ↓State.pipeResume_pending, ↓State.classDiag_pending, ↓apply_ite State.pending, ite_self]

theorem State.diagAbort_pending (s : State) (n : Fin 16) :
    (State.diagAbort s n).pending = s.pending := by
  simp only [State.diagAbort, ↓State.diagEnd_pending, ↓apply_ite State.pending, ite_self]

theorem State.diagRequest_pending (s : State) (n : Fin 16) (cls : Bool) :
    (State.diagRequest s n cls).pending = s.pending := by
  simp only [State.diagRequest, ↓State.setFld_pending, ↓State.updAin_pending, ↓State.tdacEnqueue_pending, ↓apply_ite
      State.pending, ite_self]

theorem State.diagForget_pending (s : State) (n : Fin 16) :
    (State.diagForget s n).pending = s.pending := by
  simp only [State.diagForget, ↓State.tdacUnqueue_pending, ↓State.setFld_pending, ↓apply_ite State.pending, ite_self]

theorem State.diagBegin_pending (s : State) (n : Fin 16) (cls : Bool) :
    (State.diagBegin s n cls).pending = s.pending := by
  refine State.Queue.eq ?_
  unfold State.diagBegin
  dsimp -proj only
  exact ⟨by simp -proj only [↓State.pipePreempt_pending, ↓State.tdacUnqueue_pending, ↓State.setFld_pending,
      ↓State.updAin_pending, ↓State.muteCause_pending, ↓mk_pending, ↓apply_ite State.pending, ite_self]⟩

theorem State.diagResult_pending (s : State) (n : Fin 16) (e : Diag) (r : DiagReading) :
    (State.diagResult s n e r).pending = s.pending := by
  simp only [State.diagResult, ↓State.setFld_pending, ↓State.diagEnd_pending, ↓apply_ite State.pending, ite_self]

theorem State.diagPhase_pending (s : State) (n : Fin 16) (r : DiagReading) :
    (State.diagPhase s n r).pending = s.pending := by
  simp -proj only [State.diagPhase, ↓State.updAin_pending]; (repeat' split) <;> simp -proj only [↓State.setFld_pending, ↓State.diagResult_pending, ↓mk_pending]

theorem micMute_queue {u : State} {ql : List Instr} (x : Option (Fin 16)) (hu : u.Queue ql) : (match x with
    | some n => if u.ainState n == .ready then u.muteCause n .mode else u
    | none => u : State).Queue ql := by
  split
  · split
    · exact hu.of (State.muteCause_pending ..)
    · exact hu
  · exact hu

theorem State.micFollow_pending (s : State) (h : Fin 4) : (s.micFollow h).pending = s.pending := by
  refine State.Queue.eq ?_
  unfold State.micFollow
  extract_lets +onlyGivenNames t mute u
  have ht : t.Queue s.pending := ⟨State.setFld_pending ..⟩
  clear_value t
  have hu : u.Queue s.pending := micMute_queue _ (micMute_queue _ ht)
  clear_value u
  split
  · exact ht
  · split
    · exact hu.of (State.updOut_pending ..)
    · exact hu

theorem State.micAll_pending (s : State) :
    (State.micAll s).pending = s.pending := by
  simp -proj only [State.micAll, ↓State.micFollow_pending, ↓foldl_pending, implies_true]

theorem State.phCapacity_pending (s : State) (pvdd : Nat) :
    (State.phCapacity s pvdd).2.pending = s.pending := by
  simp -proj only [State.phCapacity, ↓State.divFree_pending, ↓State.free_pending, snd_mk, ↓apply_ite Prod.snd, ↓apply_ite State.pending, ite_self]

theorem State.storeFld_pending (s : State) (f : Fld) (v : Nat) :
    (State.storeFld s f v).pending = s.pending := by
  simp only [State.storeFld, ↓State.setFld_pending]

theorem State.applyFld_pending (s : State) (f : Fld) :
    (State.applyFld s f).pending = s.pending := by
  unfold State.applyFld; split <;> simp -proj only [↓State.dropHeld_pending, ↓State.storeFld_pending]

theorem State.phOff_pending (s : State) (n : Fin 16) :
    (State.phOff s n).pending = s.pending := by
  simp only [State.phOff, ↓State.micAll_pending, ↓State.applyFld_pending, ↓State.setPh_pending]

theorem State.phChange_pending (s : State) (n : Fin 16) :
    (State.phChange s n).pending = s.pending := by
  simp only [State.phChange, ↓State.updAin_pending, ↓State.muteCause_pending, ↓apply_ite State.pending, ite_self]

theorem State.phChangeEnd_pending (s : State) (n : Fin 16) :
    (State.phChangeEnd s n).pending = s.pending := by
  simp only [State.phChangeEnd, ↓State.muteEnd_pending, ↓State.updAin_pending]

theorem State.phAdmit_pending (s : State) (n : Fin 16) :
    (State.phAdmit s n).pending = s.pending := by
  simp only [State.phAdmit, ↓State.updAin_pending, ↓State.phChange_pending, ↓State.setPh_pending, ↓State.raise_pending,
      ↓State.countSat_pending, ↓apply_ite State.pending, ite_self]

theorem State.phAdmits_pending (s : State) :
    (State.phAdmits s).pending = s.pending := by
  simp -proj only [State.phAdmits, ↓State.phAdmit_pending, ↓foldl_pending, implies_true, ↓apply_ite
      State.pending, ite_self]

theorem rampUp_queue {s : State} {ql : List Instr} (hs : s.Queue ql) (n : Fin 16) (st : PhState) (f : Ain → Ain) :
    (((s.setPh n st).updAin n f).phChange n).Queue ql :=
  hs.of ((State.phChange_pending ..).trans ((State.updAin_pending ..).trans (State.setPh_pending ..)))

theorem State.phEnable_pending (s : State) (n : Fin 16) : (s.phEnable n).pending = s.pending := by
  have hs : s.Queue s.pending := ⟨rfl⟩
  refine State.Queue.eq ?_
  unfold State.phEnable
  split
  · split
    · exact hs.of (State.updAin_pending ..)
    · exact hs.of (State.phAdmit_pending ..)
  · exact rampUp_queue hs ..
  · split
    · exact hs
    · exact rampUp_queue hs ..
  all_goals exact hs

theorem State.phDisable_pending (s : State) (n : Fin 16) : (s.phDisable n).pending = s.pending := by
  have hs : s.Queue s.pending := ⟨rfl⟩
  have ho : ((s.phChangeEnd n).phOff n).Queue s.pending := hs.of ((State.phOff_pending ..).trans (State.phChangeEnd_pending
      ..))
  refine State.Queue.eq ?_
  unfold State.phDisable
  split
  · exact rampUp_queue hs ..
  · exact rampUp_queue hs ..
  · split
    · exact rampUp_queue hs ..
    · exact hs
  · exact ho
  · exact ho
  · exact ho
  · exact hs.of (State.updAin_pending ..)
  · exact hs

theorem State.phEnWrite_pending (s : State) (n : Fin 16) (on : Bool) :
    (State.phEnWrite s n on).pending = s.pending := by
  simp only [State.phEnWrite, ↓State.diagAbort_pending, ↓State.setFld_pending, ↓State.phEnable_pending,
      ↓State.phDisable_pending, ↓apply_ite State.pending, ite_self]

theorem State.phantomWrite_pending (s : State) (n : Fin 16) (v : Nat) :
    (State.phantomWrite s n v).pending = s.pending := by
  simp -proj only [State.phantomWrite, ↓State.phEnWrite_pending]
  split <;> simp -proj only [↓State.storeFld_pending, ↓State.hold_pending]

theorem State.phRemove_pending (s : State) (n : Fin 16) (to_ : PhState) (ev : Nat) :
    (State.phRemove s n to_ ev).pending = s.pending := by
  refine State.Queue.eq ?_
  unfold State.phRemove
  dsimp -proj only
  exact ⟨by simp -proj only [↓State.phChange_pending, ↓State.updAin_pending, ↓State.setPh_pending, ↓State.raise_pending,
      ↓State.diagAbort_pending]⟩

theorem State.ainOff_pending (s : State) (n : Fin 16) :
    (State.ainOff s n).pending = s.pending := by
  refine State.Queue.eq ?_
  unfold State.ainOff
  dsimp -proj only
  exact ⟨by simp -proj only [↓State.updAin_pending, ↓State.setAinState_pending, ↓State.raise_pending,
      ↓State.syncMuted_pending, ↓State.applyFld_pending]⟩

theorem State.ainEnWrite_pending (s : State) (n : Fin 16) (on : Bool) : (s.ainEnWrite n on).pending = s.pending := by
  refine State.Queue.eq ?_
  unfold State.ainEnWrite
  split
  · exact ⟨rfl⟩
  · extract_lets +onlyGivenNames t
    have ht : t.Queue s.pending := ⟨(State.diagAbort_pending ..).trans (State.setFld_pending ..)⟩
    clear_value t
    split
    · exact ht.of ((State.gainAtOnce_pending ..).trans ((State.updAin_pending ..).trans (State.setAinState_pending ..)))
    · exact ht.of ((State.gainAtOnce_pending ..).trans ((State.updAin_pending ..).trans (State.setAinState_pending ..)))
    · exact ht.of (State.ainOff_pending ..)
    · exact ht.of ((State.syncMuted_pending ..).trans ((State.gainAtOnce_pending ..).trans ((State.updAin_pending ..).trans
        (State.setAinState_pending ..))))
    all_goals exact ht

theorem State.modeWrite_pending (s : State) (n : Fin 16) (line : Bool) :
    (State.modeWrite s n line).pending = s.pending := by
  simp only [State.modeWrite, ↓State.diagAbort_pending, ↓State.setFld_pending, ↓State.muteCause_pending,
      ↓State.updAin_pending, ↓apply_ite State.pending, ite_self]

theorem State.calRestart_pending (s : State) (n : Fin 16) :
    (State.calRestart s n).pending = s.pending := by
  simp only [State.calRestart, ↓State.updAin_pending, ↓State.setFld_pending]

theorem State.modeChange_pending (s : State) (n : Fin 16) (line : Bool) :
    (State.modeChange s n line).pending = s.pending := by
  simp only [State.modeChange, ↓State.modeWrite_pending, ↓State.calRestart_pending, ↓apply_ite State.pending, ite_self]

theorem State.ainCtrlWrite_pending (s : State) (n : Fin 16) (v : Nat) :
    (State.ainCtrlWrite s n v).pending = s.pending := by
  simp only [State.ainCtrlWrite, ↓State.storeFld_pending, ↓State.ainEnWrite_pending, ↓State.modeChange_pending]

theorem State.filterWrite_pending (s : State) (n : Fin 16) (v : Nat) :
    (State.filterWrite s n v).pending = s.pending := by
  simp only [State.filterWrite, ↓State.storeFld_pending, ↓State.updAin_pending, ↓State.hold_pending, ↓apply_ite
      State.pending, ite_self]

theorem State.diagWrite_pending (s : State) (n : Fin 16) (v : Nat) :
    (State.diagWrite s n v).pending = s.pending := by
  simp only [State.diagWrite, ↓State.storeFld_pending, ↓State.calRestart_pending, ↓State.diagRequest_pending, ↓apply_ite
      State.pending, ite_self]

theorem State.gainWrite_pending (s : State) (n : Fin 16) (v : Nat) :
    (State.gainWrite s n v).pending = s.pending := by
  simp only [State.gainWrite, ↓State.store_pending, ↓State.preampApplied_pending, ↓apply_ite State.pending, ite_self]

theorem State.ainWrite_pending (s : State) (n : Fin 16) (o v : Nat) :
    (State.ainWrite s n o v).pending = s.pending := by
  simp only [State.ainWrite, ↓State.ainCtrlWrite_pending, ↓State.gainWrite_pending, ↓State.filterWrite_pending,
      ↓State.phantomWrite_pending, ↓State.diagWrite_pending, ↓State.store_pending, ↓apply_ite State.pending, ite_self]

/-! ## Direct writes to a page -/

theorem State.logAccess_pending (s : State) (k : AccessKind) (p : Fin 4) (write : Bool) (a : Nat) :
    (State.logAccess s k p write a).pending = s.pending := by
  refine State.Queue.eq ?_
  unfold State.logAccess
  dsimp -proj only
  exact ⟨by simp -proj only [↓State.countSat_pending, ↓State.setFld_pending, ↓State.raise_pending, ↓State.setReg_pending,
      ↓apply_ite State.pending, ite_self]⟩

theorem State.directPage_pending (s : State) (p : Fin 4) (g a : Nat) (f : State → State) (hf : ∀ s, (f s).pending =
    s.pending) :
    (State.directPage s p g a f).pending = s.pending := by
  simp only [State.directPage, ↓State.logAccess_pending, ↓State.bumpVer_pending, hf, ↓apply_ite State.pending, ite_self]

/-! ## Check-value engines -/

theorem State.updCrc_pending (s : State) (i : Fin 26) (f : Crc → Crc) :
    (State.updCrc s i f).pending = s.pending := mk_pending ..

theorem State.crcRun_pending (s : State) (i : Fin 26) (ds : List Byte) :
    (State.crcRun s i ds).pending = s.pending := by
  simp only [State.crcRun, ↓State.updCrc_pending]

theorem State.crcWrite_pending (s : State) (a : CrcParty) (i : Fin 26) (f : Crc → Crc) :
    (State.crcWrite s a i f).pending = s.pending := by
  simp only [State.crcWrite, ↓State.updCrc_pending, ↓State.setErr_pending, ↓apply_ite State.pending, ite_self]

theorem State.crcFeed_pending (s : State) (a : CrcParty) (i : Fin 26) (ds : List Byte) :
    (State.crcFeed s a i ds).pending = s.pending := by
  simp only [State.crcFeed, ↓State.crcWrite_pending]

theorem State.crcSet_pending (s : State) (a : CrcParty) (i : Fin 26) (r : CrcReg) (v : Nat) :
    (State.crcSet s a i r v).pending = s.pending := by
  simp only [State.crcSet, ↓State.crcWrite_pending]

theorem State.crcConfig_pending (s : State) (a : CrcParty) (i : Fin 26) (r : CrcReg) (v : Nat) :
    (State.crcConfig s a i r v).pending = s.pending := by
  simp only [State.crcConfig, ↓State.crcSet_pending, ↓State.bumpVer_pending, ↓apply_ite State.pending, ite_self]

theorem State.crcOwnRequest_pending (s : State) (a : CrcParty) :
    (State.crcOwnRequest s a).pending = s.pending := by
  unfold State.crcOwnRequest; (repeat' split) <;> simp -proj only [↓State.updCrc_pending, ↓State.setErr_pending,
      ↓mk_pending]

theorem State.crcOwnRelease_pending (s : State) (a : CrcParty) :
    (State.crcOwnRelease s a).pending = s.pending := by
  unfold State.crcOwnRelease; (repeat' split) <;> simp -proj only [↓State.setErr_pending, ↓mk_pending]

theorem State.crcDrop_pending (s : State) (a : CrcParty) :
    (State.crcDrop s a).pending = s.pending := by
  simp only [State.crcDrop, ↓apply_ite State.pending, ite_self]

/-! ## AES3 -/

theorem State.updAes_pending (s : State) (n : Fin 32) (f : Aes → Aes) :
    (State.updAes s n f).pending = s.pending := by
  simp only [State.updAes, ↓State.updSap_pending]

theorem State.aesEngine_pending (s : State) (i : Fin 26) (a b : Option Nat) :
    (State.aesEngine s i a b).pending = s.pending := by
  simp only [State.aesEngine, ↓State.free_pending, ↓State.updCrc_pending, ↓apply_ite State.pending, ite_self]

theorem State.aesErrors_pending (s : State) (n : Fin 32) (x : RxSub) :
    (State.aesErrors s n x).pending = s.pending := by
  simp only [State.aesErrors, ↓State.countSat_pending, ↓State.raiseAes_pending, ↓apply_ite State.pending, ite_self]

theorem State.csCrcc_pending (s : State) (n : Fin 32) (e : CsEnd) (okFld : Fld) :
    (State.csCrcc s n e okFld).pending = s.pending := by
  simp only [State.csCrcc, ↓State.setFld_pending, ↓State.raiseAes_pending, ↓State.countSat_pending, ↓apply_ite
      State.pending, ite_self]

theorem State.csBlockEnd_pending (s : State) (n : Fin 32) :
    (State.csBlockEnd s n).pending = s.pending := by
  simp only [State.csBlockEnd, ↓State.aesEngine_pending, ↓State.csCrcc_pending, ↓State.updAes_pending,
      ↓State.setFld_pending, ↓State.countWrap_pending, ↓State.raiseAes_pending, ↓apply_ite State.pending, ite_self]

theorem State.csFrame_pending (s : State) (n : Fin 32) (a b : RxSub) (z : Bool) :
    (State.csFrame s n a b z).pending = s.pending := by
  simp -proj only [State.csFrame]
  split <;> simp -proj only [↓State.updAes_pending, ↓State.raiseAes_pending, ↓State.countSat_pending,
      ↓State.csBlockEnd_pending, ↓apply_ite State.pending, ite_self]

theorem State.cutWord_pending (s : State) (v : Int) (keep : Nat) (dither : Bool) :
    (State.cutWord s v keep dither).2.pending = s.pending := by
  simp -proj only [State.cutWord, ↓State.freeInt_pending, fst_mk, snd_mk, ↓apply_ite Prod.fst, ↓apply_ite
      Prod.snd, ↓apply_ite State.pending, ite_self]

theorem State.aesSend_pending (s : State) (n : Fin 32) (a b : Sample) (madeA madeB : Bool) :
    (State.aesSend s n a b madeA madeB).pending = s.pending := by
  simp only [State.aesSend, ↓State.cutWord_pending, ↓State.updAes_pending, ↓State.updSap_pending, ↓State.aesEngine_pending,
      ↓State.raiseAes_pending, ↓apply_ite State.pending, ite_self]

theorem State.monEdge_pending (s : State) (m : Fin 43) :
    (State.monEdge s m).pending = s.pending := by
  simp only [State.monEdge, ↓State.setFld_pending, ↓State.raise_pending, ↓apply_ite State.pending, ite_self]

theorem State.aesLockTo_pending (s : State) (n : Fin 32) (code : Nat) :
    (State.aesLockTo s n code).pending = s.pending := by
  simp only [State.aesLockTo, ↓State.setFld_pending, ↓State.raiseAes_pending, ↓State.updAes_pending, ↓State.monEdge_pending,
      ↓apply_ite State.pending, ite_self]

theorem State.csCopy_pending (s : State) (n : Fin 32) :
    (State.csCopy s n).pending = s.pending := by
  simp only [State.csCopy, ↓State.updAes_pending]

end Sys2Proof.Machine
end

section
/-!
PROOFS. No command changes the queue of the commands behind it (98_reader.md): clocks, ensembles and the fabric.
-/
namespace Sys2Proof.Machine

/-! ## Clocks and ensembles -/

theorem State.setWord_pending (s : State) (w : Int) :
    (State.setWord s w).pending = s.pending := by
  simp only [State.setWord, ↓State.asrcMeasure_pending, ↓State.setSfld_pending]

theorem State.freeWord_pending (s : State) :
    (State.freeWord s).pending = s.pending := by
  simp only [State.freeWord, ↓State.freeInt_pending, ↓State.setWord_pending]

theorem State.pllTo_pending (s : State) (t : PllState) :
    (State.pllTo s t).pending = s.pending := by
  simp only [State.pllTo, ↓State.setFld_pending, ↓apply_ite State.pending, ite_self]

theorem State.lock_pending (s : State) :
    (State.lock s).pending = s.pending := by
  simp only [State.lock, ↓State.setWord_pending, ↓State.pllTo_pending]

theorem State.enterHoldover_pending (s : State) :
    (State.enterHoldover s).pending = s.pending := by
  simp only [State.enterHoldover, ↓State.pllTo_pending, ↓State.raise_pending, ↓State.countSat_pending]

theorem State.holdMean_pending (s : State) (span last : Nat) :
    (State.holdMean s span last).pending = s.pending := by
  simp only [State.holdMean, ↓State.divFree_pending, ↓State.setWord_pending, ↓State.freeInt_pending, ↓apply_ite
      State.pending, ite_self]

theorem State.slewOn_pending (s : State) :
    (State.slewOn s).pending = s.pending := by
  simp only [State.slewOn, ↓State.freeInt_pending, ↓State.divFree_pending, ↓State.setWord_pending, ↓apply_ite State.pending,
      ite_self]

theorem State.snapAim_pending (s : State) (g : Gain) (ticks : Nat) :
    (State.snapAim s g ticks).pending = s.pending := mk_pending ..

theorem State.snapReturn_pending (s : State) :
    (State.snapReturn s).pending = s.pending := by
  simp only [State.snapReturn, ↓State.pllTo_pending, ↓State.snapAim_pending]

theorem State.following_pending (s : State) :
    (State.following s).pending = s.pending := mk_pending ..

theorem State.refLost_pending (s : State) (span last : Nat) :
    (State.refLost s span last).pending = s.pending := by
  unfold State.refLost; split <;> simp -proj only [↓State.enterHoldover_pending, ↓State.holdMean_pending,
      ↓State.slewOn_pending, ↓State.snapReturn_pending, ↓State.setWord_pending, ↓mk_pending, ↓apply_ite State.pending,
      ite_self]

theorem State.refNone_pending (s : State) :
    (State.refNone s).pending = s.pending := by
  unfold State.refNone; split <;> simp -proj only [↓State.freeWord_pending, ↓State.pllTo_pending, ↓State.snapReturn_pending,
      ↓State.setWord_pending, ↓mk_pending]

theorem State.relock_pending (s : State) :
    (State.relock s).pending = s.pending := by
  simp only [State.relock, ↓State.pllTo_pending, ↓State.snapAim_pending, ↓State.raise_pending, ↓apply_ite State.pending,
      ite_self]

theorem State.refBack_pending (s : State) :
    (State.refBack s).pending = s.pending := by
  unfold State.refBack; (repeat' split) <;> simp -proj only [↓State.relock_pending, ↓State.slewOn_pending]

theorem State.refFollow_pending (s : State) :
    (State.refFollow s).pending = s.pending := by
  unfold State.refFollow; split <;> simp -proj only [↓State.setWord_pending, ↓apply_ite State.pending, ite_self]

theorem State.coreWrite_pending (s : State) (v : Nat) :
    (State.coreWrite s v).pending = s.pending := by
  simp only [State.coreWrite, ↓State.store_pending, ↓State.pllTo_pending, ↓State.setErr_pending, ↓apply_ite State.pending,
      ite_self]

theorem State.refSelWrite_pending (s : State) (v : Nat) :
    (State.refSelWrite s v).pending = s.pending := by
  simp -proj only [State.refSelWrite, ↓State.setErr_pending, ↓State.slewOn_pending, ↓State.store_pending,
      ↓State.refNone_pending, ↓State.refLost_pending, ↓mk_pending, ↓apply_ite
      State.pending, ite_self]; (repeat' split) <;> simp -proj only [↓State.relock_pending, ↓State.raise_pending, ↓mk_pending]

theorem State.monTo_pending (s : State) (m : Fin 43) (st : Nat) (mon : Mon) :
    (State.monTo s m st mon).pending = s.pending := by
  simp only [State.monTo, ↓State.raise_pending, ↓State.setFld_pending]

theorem State.monLoss_pending (s : State) (m : Fin 43) :
    (State.monLoss s m).pending = s.pending := by
  simp -proj only [State.monLoss, ↓State.countSat_pending, ↓State.setFld_pending, ↓State.monTo_pending,
      ↓State.asrcClock_pending, ↓State.portLoss_pending, ↓State.refLost_pending, ↓State.raise_pending, ↓mk_pending,
      ↓foldl_pending, implies_true, ↓apply_ite State.pending, ite_self]

theorem State.monGlitch_pending (s : State) (m : Fin 43) (gap : Nat) :
    (State.monGlitch s m gap).pending = s.pending := by
  refine State.Queue.eq ?_
  unfold State.monGlitch
  dsimp -proj only
  exact ⟨by simp -proj only [↓State.countSat_pending, ↓State.updSap_pending, ↓State.raise_pending, ↓State.monLoss_pending,
      ↓mk_pending, ↓foldl_pending, implies_true, ↓apply_ite State.pending, ite_self]⟩

theorem State.monPortsRate_pending (s : State) (m : Fin 43) (code : Nat) (changed : Bool) :
    (State.monPortsRate s m code changed).pending = s.pending := by
  simp -proj only [State.monPortsRate, ↓State.portRateChange_pending, ↓State.asrcClock_pending, ↓State.portPresent_pending,
      ↓foldl_pending, implies_true, ↓apply_ite State.pending, ite_self]

theorem State.monAdopt_pending (s : State) (m : Fin 43) (code : Nat) (ppm : Int) :
    (State.monAdopt s m code ppm).pending = s.pending := by
  simp only [State.monAdopt, ↓State.setFld_pending]

theorem State.monAverage_pending (s : State) (m : Fin 43) (ppm : Int) :
    (State.monAverage s m ppm).pending = s.pending := by
  simp only [State.monAverage, ↓State.monAdopt_pending, ↓State.free_pending, ↓State.setFld_pending, ↓apply_ite
      State.pending, ite_self]

theorem State.refBad_pending (s : State) :
    (State.refBad s).pending = s.pending := by
  unfold State.refBad; split <;> simp -proj only [↓State.raise_pending, ↓apply_ite State.pending, ite_self]

theorem State.refRate_pending (s : State) (was : Nat) (wasUsable : Bool) (span : Nat) :
    (State.refRate s was wasUsable span).pending = s.pending := by
  simp only [State.refRate, ↓State.raise_pending, ↓State.refBack_pending, ↓State.refBad_pending, ↓State.refLost_pending,
      ↓apply_ite State.pending, ite_self]

theorem State.monRate_pending (s : State) (m : Fin 43) (code : Nat) (ppm : Int) :
    (State.monRate s m code ppm).pending = s.pending := by
  simp only [State.monRate, ↓State.slewOn_pending, ↓State.monPortsRate_pending, ↓State.monAdopt_pending,
      ↓State.refRate_pending, ↓apply_ite State.pending, ite_self]

theorem State.monPresent_pending (s : State) (m : Fin 43) (code : Nat) (ppm : Int) :
    (State.monPresent s m code ppm).pending = s.pending := by
  simp only [State.monPresent, ↓State.monPortsRate_pending, ↓State.monAdopt_pending, ↓State.monTo_pending,
      ↓State.refRate_pending, ↓State.refBack_pending, ↓State.refBad_pending, ↓apply_ite State.pending, ite_self]

theorem State.monMeasure_pending (s : State) (m : Fin 43) (ppm : Int) :
    (State.monMeasure s m ppm).pending = s.pending := by
  simp only [State.monMeasure, ↓State.monAverage_pending, ↓State.slewOn_pending, ↓State.refFollow_pending,
      ↓State.raise_pending, ↓State.refLost_pending, ↓State.refBack_pending, ↓apply_ite State.pending, ite_self]

theorem State.monCfgWrite_pending (s : State) (m : Fin 43) (v : Nat) :
    (State.monCfgWrite s m v).pending = s.pending := by
  simp only [State.monCfgWrite, ↓State.slewOn_pending, ↓State.setReg_pending, ↓State.store_pending, ↓State.refLost_pending,
      ↓State.raise_pending, ↓apply_ite State.pending, ite_self]

theorem State.latchSys_pending (s : State) :
    (State.latchSys s).pending = s.pending := by
  simp only [State.latchSys, ↓State.setReg_pending]

theorem State.latchTick_pending (s : State) :
    (State.latchTick s).pending = s.pending := by
  simp only [State.latchTick, ↓State.setReg_pending]

theorem State.loseAgree_pending (s : State) :
    (State.loseAgree s).pending = s.pending := by
  simp only [State.loseAgree, ↓State.raise_pending, ↓State.setFld_pending, ↓apply_ite State.pending, ite_self]

theorem State.enterCoarse_pending (s : State) :
    (State.enterCoarse s).pending = s.pending := by
  simp only [State.enterCoarse, ↓State.raise_pending, ↓State.loseAgree_pending, ↓apply_ite State.pending, ite_self]

theorem State.leaveCoarse_pending (s : State) :
    (State.leaveCoarse s).pending = s.pending := by
  simp only [State.leaveCoarse, ↓State.raise_pending]

theorem State.agreeOn_pending (s : State) (err16 : Int) :
    (State.agreeOn s err16).pending = s.pending := by
  simp only [State.agreeOn, ↓State.raise_pending, ↓State.setFld_pending, ↓State.loseAgree_pending, ↓apply_ite State.pending,
      ite_self]

theorem State.setError_pending (s : State) (err16 : Int) :
    (State.setError s err16).pending = s.pending := by
  simp only [State.setError, ↓State.free_pending, ↓State.setFld_pending, ↓apply_ite State.pending,
      ite_self]

theorem State.ensJoin_pending (s : State) (lead16 : Int) :
    (State.ensJoin s lead16).pending = s.pending := by
  simp only [State.ensJoin, ↓State.divFree_pending, ↓State.setFld_pending]

theorem State.ensSteer_pending (s : State) (lead16 err16 : Int) :
    (State.ensSteer s lead16 err16).pending = s.pending := by
  simp only [State.ensSteer, ↓State.divFree_pending, ↓State.raise_pending, ↓apply_ite State.pending, ite_self]

theorem State.epochTake_pending (s : State) (f : BitVec 64) :
    (State.epochTake s f).pending = s.pending := by
  simp -proj only [State.epochTake]
  split <;> simp -proj only [↓State.raise_pending, ↓State.countSat_pending, ↓State.setFld_pending, ↓State.setError_pending,
      ↓State.agreeOn_pending, ↓State.ensJoin_pending, ↓State.ensSteer_pending, ↓mk_pending, ↓apply_ite State.pending,
      ite_self]

theorem State.ensCtrlWrite_pending (s : State) (v : Nat) :
    (State.ensCtrlWrite s v).pending = s.pending := by
  simp only [State.ensCtrlWrite, ↓State.store_pending, ↓State.setFld_pending, ↓apply_ite State.pending, ite_self]

/-! ## The fabric -/

theorem State.setFabState_pending (s : State) (t : FabState) :
    (State.setFabState s t).pending = s.pending := by
  simp only [State.setFabState, ↓State.setFld_pending]

theorem State.syncLock_pending (s : State) :
    (State.syncLock s).pending = s.pending := by
  simp only [State.syncLock, ↓State.setFld_pending]

theorem State.swapCheck_pending (s : State) (l : Nat) :
    (State.swapCheck s l).2.pending = s.pending := by
  unfold State.swapCheck; split <;> simp -proj only [↓State.setErr_pending, ↓State.admitOut_pending, snd_mk, ↓apply_ite Prod.snd, ↓apply_ite State.pending, ite_self]

theorem State.swapPend_pending (s : State) (p : Piste) (a : Admission) :
    (State.swapPend s p a).pending = s.pending := by
  simp only [State.swapPend, ↓State.syncLock_pending, ↓State.setFld_pending, ↓State.updFab_pending]

theorem State.swapDrop_pending (s : State) :
    (State.swapDrop s).pending = s.pending := by
  simp only [State.swapDrop, ↓State.syncLock_pending, ↓State.setFld_pending, ↓State.updFab_pending]

theorem State.dropLines_pending (s : State) (old : Option Piste) (new : Piste) (drain : Bool) :
    (State.dropLines s old new drain).pending = s.pending := by
  simp only [State.dropLines, ↓apply_ite State.pending, ite_self]

theorem State.swapApply_pending (s : State) :
    (State.swapApply s).pending = s.pending := by
  refine State.Queue.eq ?_
  unfold State.swapApply
  dsimp -proj only
  split <;> exact ⟨by simp -proj only [↓State.setFld_pending, ↓State.swapDrop_pending, ↓State.updFab_pending,
      ↓State.raise_pending, ↓State.allocLine_pending, ↓State.dropLines_pending, ↓State.syncLock_pending, ↓foldl_pending, implies_true, ↓apply_ite State.pending, ite_self]⟩

theorem State.endXover_pending (s : State) :
    (State.endXover s).pending = s.pending := by
  simp only [State.endXover, ↓State.updFab_pending, ↓State.raise_pending, ↓State.syncLock_pending, ↓State.setFld_pending]

theorem State.markObject_pending (s : State) (b : Nat) :
    (State.markObject s b).pending = s.pending := by
  simp only [State.markObject, ↓State.updFab_pending]

theorem State.objectClear_pending (s : State) (b : Nat) :
    (State.objectClear s b).pending = s.pending := by
  simp only [State.objectClear, ↓State.updFab_pending, ↓apply_ite State.pending, ite_self]

theorem State.genRestart_pending (s : State) (j : Nat) :
    (State.genRestart s j).pending = s.pending := by
  simp only [State.genRestart, ↓State.updFab_pending]

theorem State.paramApply_pending (s : State) (a v : Nat) :
    (State.paramApply s a v).pending = s.pending := by
  unfold State.paramApply; (repeat' split) <;> simp -proj only [↓State.store_pending, ↓State.markObject_pending,
      ↓State.objectClear_pending, ↓State.aimGain_pending, ↓State.genRestart_pending, ↓apply_ite State.pending,
      ite_self]

theorem State.flushParams_pending (s : State) :
    (State.flushParams s).pending = s.pending := by
  simp -proj only [State.flushParams, ↓State.paramApply_pending, ↓mk_pending, ↓foldl_pending, implies_true]

theorem State.paramWrite_pending (s : State) (a v : Nat) :
    (State.paramWrite s a v).pending = s.pending := by
  simp only [State.paramWrite, ↓State.paramApply_pending, ↓apply_ite State.pending, ite_self]

theorem State.fabStart_pending (s : State) : s.fabStart.pending = s.pending := by
  have hs : s.Queue s.pending := ⟨rfl⟩
  have refuse {t : State} (ht : t.Queue s.pending) : ((t.setFld Fd.FAB_CTRL_RUN 0).setErr fabPage 0).Queue s.pending :=
    ht.of ((State.setErr_pending ..).trans (State.setFld_pending ..))
  refine State.Queue.eq ?_
  unfold State.fabStart
  extract_lets +onlyGivenNames b no
  split
  · exact refuse hs
  · split
    · exact refuse (hs.of (State.admitOut_pending ..))
    · extract_lets +onlyGivenNames a t u
      have ht : t.Queue s.pending := hs.of (State.admitOut_pending ..)
      clear_value t
      have hu : u.Queue s.pending := ht.of (State.updFab_pending ..)
      clear_value u
      split
      · exact refuse ht
      · split
        · exact refuse (ht.of (State.setErr_pending ..))
        · exact hu.of ((State.setFabState_pending ..).trans ((State.setFld_pending ..).trans ((State.setFld_pending ..).trans
            (foldl_pending _ State.allocLine_pending _ _))))

theorem State.takeRun_pending (s : State) :
    (State.takeRun s).pending = s.pending := by
  unfold State.takeRun; split <;> simp -proj only [↓State.setFld_pending, ↓State.updFab_pending]

theorem State.fabStopped_pending (s : State) :
    (State.fabStopped s).pending = s.pending := by
  simp only [State.fabStopped, ↓State.setFabState_pending, ↓State.updFab_pending, ↓State.takeRun_pending,
      ↓State.flushParams_pending, ↓State.raise_pending, ↓State.fabStart_pending, ↓apply_ite State.pending, ite_self]

theorem State.fabStopping_pending (s : State) :
    (State.fabStopping s).pending = s.pending := by
  simp only [State.fabStopping, ↓State.endXover_pending, ↓State.setFabState_pending, ↓State.updFab_pending, ↓apply_ite
      State.pending, ite_self]

theorem State.stopDue_pending (s : State) :
    (State.stopDue s).pending = s.pending := by
  simp -proj only [State.stopDue, ↓State.takeRun_pending, ↓apply_ite State.pending]; (repeat' split) <;> simp -proj only [↓State.takeRun_pending,
      ↓State.fabStopping_pending, ↓State.fabStopped_pending]

theorem State.fabCtrlWrite_pending (s : State) (v : Nat) :
    (State.fabCtrlWrite s v).pending = s.pending := by
  simp only [State.fabCtrlWrite, ↓State.setFld_pending, ↓State.fabStart_pending, ↓State.setErr_pending,
      ↓State.updFab_pending, ↓apply_ite State.pending, ite_self]

theorem State.copyPiste_pending (s : State) :
    (State.copyPiste s).pending = s.pending := mk_pending ..

theorem State.copyStart_pending (s : State) :
    (State.copyStart s).pending = s.pending := by
  simp only [State.copyStart, ↓State.setErr_pending, ↓State.syncLock_pending, ↓State.setFld_pending,
      ↓State.copyPiste_pending, ↓apply_ite State.pending, ite_self]

theorem State.checkStart_pending (s : State) :
    (State.checkStart s).pending = s.pending := by
  simp only [State.checkStart, ↓State.setFld_pending, ↓State.updFab_pending]

theorem State.mixXover_pending (s : State) (i l : Nat) (law : Bool) (old new : Sample) :
    (State.mixXover s i l law old new).2.pending = s.pending := by
  simp -proj only [State.mixXover, ↓State.divFree_pending, fst_mk, snd_mk, ↓apply_ite Prod.fst, ↓apply_ite
      Prod.snd, ↓apply_ite State.pending, ite_self]

theorem State.clearIdle_pending (s : State) (p : Piste) :
    (State.clearIdle s p).pending = s.pending := by
  simp only [State.clearIdle, ↓State.updFab_pending]

theorem State.takeMarks_pending (s : State) :
    (State.takeMarks s).pending = s.pending := by
  refine State.Queue.eq ?_
  unfold State.takeMarks
  dsimp -proj only
  exact ⟨by simp -proj only [↓State.updFab_pending, ↓foldl_pending, implies_true]⟩

theorem State.busEvents_pending (s : State) (before : Vector BusScale 64) :
    (State.busEvents s before).pending = s.pending := by
  simp -proj only [State.busEvents, ↓State.raise_pending, ↓foldl_pending, implies_true, ↓apply_ite
      State.pending, ite_self]

theorem State.passScales_pending (s : State) (p : Piste) :
    (State.passScales s p).pending = s.pending := by
  simp only [State.passScales, ↓State.updFab_pending]

theorem State.gateMiss_pending (s : State) (m : GateMiss) :
    (State.gateMiss s m).pending = s.pending := by
  simp only [State.gateMiss, ↓State.setReg_pending, ↓State.countSat_pending, ↓State.setFld_pending, ↓State.raise_pending]

theorem State.endFabTick_pending (s : State) (r : TickRun) :
    (State.endFabTick s r).pending = s.pending := by
  simp -proj only [State.endFabTick, ↓State.setFld_pending, ↓State.updFab_pending, ↓apply_ite State.pending, ite_self]
  split <;> simp -proj only [↓State.setFld_pending, ↓State.gateMiss_pending]

theorem State.deliverSinks_pending (s : State) :
    (State.deliverSinks s).pending = s.pending := by
  simp only [State.deliverSinks]

theorem StageRun.prog_pending (r : TickRun) (x : StageRun) (p : Prog) : (StageRun.prog r x p).s.pending = x.s.pending := by
  unfold StageRun.prog
  split
  · split
    · rfl
    · exact State.runGen_pending ..
  · split
    · exact State.updFab_pending ..
    · have hr := State.runProg_pending x.s p.id p.items false []
      generalize x.s.runProg p.id p.items false [] = z at hr ⊢
      dsimp only
      split
      · refine (State.updFab_pending ..).trans ((State.mixXover_pending ..).trans ?_)
        split
        · exact (State.runProg_pending ..).trans hr
        · exact hr
      · exact (State.updFab_pending ..).trans hr

theorem StageRun.oldProg_pending (r : TickRun) (x : StageRun) (q : Prog) : (StageRun.oldProg r x q).s.pending = x.s.pending
    := by
  unfold StageRun.oldProg
  split
  · exact State.updFab_pending ..
  · exact (State.updFab_pending ..).trans ((State.mixXover_pending ..).trans (State.runProg_pending ..))

theorem StageRun.stage_pending (r : TickRun) (p : Piste) (x : StageRun) (k : Nat) : (x.stage r p k).s.pending = x.s.pending
    :=
  (State.updFab_pending ..).trans ((foldl_through (fun y : StageRun => y.s) _ (StageRun.oldProg_pending r) _ _).trans
    (foldl_through (fun y : StageRun => y.s) _ (StageRun.prog_pending r) _ _))

theorem State.fabTick_pending (s : State) (miss : Option GateMiss) : (s.fabTick miss).pending = s.pending := by
  unfold State.fabTick
  split
  · rfl
  · simp -proj only [↓State.deliverSinks_pending, ↓State.endFabTick_pending, ↓State.busEvents_pending,
      ↓State.passScales_pending,
      ↓State.updFab_pending]
    exact (foldl_through (fun y : StageRun => y.s) _ (fun x k => StageRun.stage_pending ..) _ _).trans
      ((State.clearIdle_pending ..).trans ((State.takeMarks_pending ..).trans ((State.stepGains_pending ..).trans
        ((State.updFab_pending ..).trans (mk_pending ..)))))

theorem State.fabFirst_pending (s : State) :
    (State.fabFirst s).pending = s.pending := by
  simp only [State.fabFirst, ↓State.raise_pending, ↓State.setFabState_pending, ↓State.updFab_pending]

end Sys2Proof.Machine
end

section
/-!
PROOFS. No command changes the queue of the commands behind it (98_reader.md): outputs, the housekeeping converter and the
    amplifier.
-/
namespace Sys2Proof.Machine

/-! ## Outputs and jacks -/

theorem State.setOutStep_pending (s : State) (o : OutId) (t : OutStep) :
    (State.setOutStep s o t).pending = s.pending := by
  simp only [State.setOutStep, ↓State.updOut_pending]

theorem State.mapOutGains_pending (s : State) (o : OutId) (f : Nat → Glide → Glide) :
    (State.mapOutGains s o f).pending = s.pending := by
  refine State.Queue.eq ?_
  unfold State.mapOutGains
  exact ⟨by simp -proj only [↓State.setGain_pending, ↓foldl_pending, implies_true]⟩

theorem State.outStart_pending (s : State) (o : OutId) :
    (State.outStart s o).pending = s.pending := by
  simp -proj only [State.outStart, ↓State.setOutState_pending, ↓State.setOutStep_pending]
  split <;> simp -proj only [↓State.setOutState_pending, ↓State.setOutStep_pending, ↓mk_pending, ↓apply_ite State.pending,
      ite_self]

theorem State.outCfgApply_pending (s : State) (n : Fin 16) :
    (State.outCfgApply s n).pending = s.pending := by
  unfold State.outCfgApply; split <;> simp -proj only [↓State.dropHeld_pending, ↓State.storeFld_pending]

theorem State.outRest_pending (s : State) (o : OutId) :
    (State.outRest s o).pending = s.pending := by
  refine State.Queue.eq ?_
  unfold State.outRest
  split <;> dsimp -proj only <;> exact ⟨by simp -proj only [↓State.updOut_pending, ↓State.setOutState_pending,
      ↓State.mapOutGains_pending, ↓State.outCfgApply_pending, ↓State.setFld_pending]⟩

theorem State.outOff_pending (s : State) (o : OutId) :
    (State.outOff s o).pending = s.pending := by
  simp only [State.outOff, ↓State.raise_pending, ↓State.outRest_pending, ↓State.outStart_pending, ↓apply_ite State.pending,
      ite_self]

theorem State.outEnWrite_pending (s : State) (o : OutId) (on : Bool) :
    (State.outEnWrite s o on).pending = s.pending := by
  simp -proj only [State.outEnWrite, ↓State.outOff_pending, ↓State.setFld_pending, ↓apply_ite
      State.pending]; (repeat' split) <;> simp -proj only [↓State.outOff_pending, ↓State.setFld_pending,
      ↓State.outStart_pending, ↓State.setOutStep_pending, ↓State.setOutState_pending, ↓State.mapOutGains_pending]

theorem State.outFault_pending (s : State) (o : OutId) :
    (State.outFault s o).pending = s.pending := by
  unfold State.outFault; split <;> simp -proj only [↓State.setOutStep_pending, ↓State.setOutState_pending,
      ↓State.mapOutGains_pending, ↓State.hpFade_pending, ↓State.raise_pending]

theorem State.setCpOk_pending (s : State) (b : Bool) :
    (State.setCpOk s b).pending = s.pending := by
  simp -proj only [State.setCpOk, ↓State.setFld_pending, ↓foldl_pending, implies_true]

theorem State.outSample_pending (s : State) (id a : Nat) :
    (State.outSample s id a).2.2.pending = s.pending := by
  simp only [State.outSample, ↓State.toQ31_pending]

theorem State.servoTick_pending (s : State) (n : Fin 16) (v : Int) :
    (State.servoTick s n v).pending = s.pending := by
  simp only [State.servoTick, ↓State.free_pending, ↓State.freeInt_pending, ↓State.setSfld_pending, ↓State.updOut_pending]

theorem State.lineDrive_pending (s : State) (n : Fin 16) :
    (State.lineDrive s n).pending = s.pending := by
  simp only [State.lineDrive, ↓State.outSample_pending, ↓State.raise_pending, ↓State.servoTick_pending,
      ↓State.updOut_pending, ↓apply_ite State.pending, ite_self]

theorem State.hpInject_pending (s : State) (h : Fin 4) :
    (State.hpInject s h).pending = s.pending := by
  simp only [State.hpInject, ↓State.updOut_pending, ↓apply_ite State.pending, ite_self]

theorem State.hpDrive_pending (s : State) (h : Fin 4) :
    (State.hpDrive s h).pending = s.pending := by
  simp only [State.hpDrive, ↓State.outSample_pending, ↓State.raise_pending, ↓State.updOut_pending, ↓apply_ite State.pending,
      ite_self]

theorem outDriven_queue {t quiet : State} {ql : List Instr} {st : OutState} (o : OutId) (ht : t.Queue ql) (hq : quiet.Queue
    ql) :
    (match o with
      | .line n => if st = .fault ∧ t.gainFallen o ∨ st = .stopping ∧ t.outStep o ≠ .glide then quiet else t.lineDrive n
      | .hp h => (t.hpDrive h).hpInject h : State).Queue ql := by
  split
  · split
    · exact hq
    · exact ht.of (State.lineDrive_pending ..)
  · exact ht.of ((State.hpInject_pending ..).trans (State.hpDrive_pending ..))

theorem State.outRun_pending (s : State) (o : OutId) : (s.outRun o).pending = s.pending := by
  refine State.Queue.eq ?_
  unfold State.outRun
  split
  · exact ⟨State.updOut_pending ..⟩
  · extract_lets +onlyGivenNames st t quiet
    have ht : t.Queue s.pending := ⟨State.mapOutGains_pending ..⟩
    clear_value t
    have hq : quiet.Queue s.pending := ht.of (State.updOut_pending ..)
    clear_value quiet
    clear_value st
    cases st with
    | off => exact hq
    | starting =>
      cases o with
      | line n =>
        dsimp -proj only
        split
        · exact hq.of ((State.setSfld_pending ..).trans (State.freeInt_pending quiet _ _))
        · exact hq
      | hp h => exact hq
    | ready => exact outDriven_queue o ht hq
    | stopping => exact outDriven_queue o ht hq
    | fault => exact outDriven_queue o ht hq

theorem State.outTick_pending (s : State) (o : OutId) :
    (State.outTick s o).pending = s.pending := by
  simp only [State.outTick, ↓State.updOut_pending, ↓State.outRun_pending, ↓apply_ite State.pending, ite_self]

theorem State.outsTick_pending (s : State) :
    (State.outsTick s).pending = s.pending := by
  simp -proj only [State.outsTick, ↓State.outTick_pending, ↓foldl_pending, implies_true]

theorem State.classStart_pending (s : State) (j : Fin 20) : (s.classStart j).pending = s.pending := by
  have ht := State.setFld_pending s (Fd.JACK_JSTAT_CLASS j) 0xE
  unfold State.classStart
  generalize s.setFld (Fd.JACK_JSTAT_CLASS j) 0xE = t at ht ⊢
  dsimp only
  split
  · exact (State.updJack_pending ..).trans ht
  · split
    · split
      · exact (State.classFinal_pending ..).trans ht
      · exact (State.updJack_pending ..).trans ((State.diagRequest_pending ..).trans ht)
    · exact (State.tdacEnqueue_pending ..).trans ((State.updJack_pending ..).trans ht)

theorem State.classDrop_pending (s : State) (j : Fin 20) :
    (State.classDrop s j).pending = s.pending := by
  unfold State.classDrop; split <;> simp -proj only [↓State.updJack_pending, ↓State.diagForget_pending,
      ↓State.tdacUnqueue_pending]

theorem State.jackIn_pending (s : State) (j : Fin 20) :
    (State.jackIn s j).pending = s.pending := by
  refine State.Queue.eq ?_
  unfold State.jackIn
  dsimp -proj only
  exact ⟨by simp -proj only [↓State.raise_pending, ↓State.setBit_pending, ↓State.setFld_pending, ↓State.trigger_pending,
      ↓State.classStart_pending, ↓State.classFinal_pending, ↓apply_ite State.pending, ite_self]⟩

theorem State.buttonForget_pending (s : State) (j : Fin 20) :
    (State.buttonForget s j).pending = s.pending := by
  simp only [State.buttonForget, ↓State.setFld_pending, ↓apply_ite State.pending, ite_self]

theorem State.jackOut_pending (s : State) (j : Fin 20) :
    (State.jackOut s j).pending = s.pending := by
  refine State.Queue.eq ?_
  unfold State.jackOut
  dsimp -proj only
  exact ⟨by simp -proj only [↓State.raise_pending, ↓State.setBit_pending, ↓State.setFld_pending, ↓State.classFinal_pending,
      ↓State.classDrop_pending, ↓State.buttonForget_pending, ↓State.trigger_pending]⟩

theorem State.reclassify_pending (s : State) (j : Fin 20) :
    (State.reclassify s j).pending = s.pending := by
  simp only [State.reclassify, ↓State.classStart_pending, ↓State.classDrop_pending]

theorem State.classifyAll_pending (s : State) :
    (State.classifyAll s).pending = s.pending := by
  simp -proj only [State.classifyAll, ↓State.reclassify_pending, ↓State.classFinal_pending, ↓foldl_pending,
      implies_true, ↓apply_ite State.pending, ite_self]

theorem State.svcWake_pending (s : State) :
    (State.svcWake s).pending = s.pending := by
  simp -proj only [State.svcWake, ↓State.classStart_pending, ↓foldl_pending, implies_true, ↓apply_ite
      State.pending, ite_self]

theorem State.jackRelease_pending (s : State) :
    (State.jackRelease s).pending = s.pending := by
  simp only [State.jackRelease, ↓State.pipeResume_pending, ↓State.setFld_pending]

theorem State.imageTdac_pending (s : State) :
    (State.imageTdac s).pending = s.pending := by
  unfold State.imageTdac; split <;> simp -proj only [↓State.jackRelease_pending, ↓State.updJack_pending,
      ↓State.hpUnfade_pending, ↓State.diagEnd_pending, ↓apply_ite State.pending, ite_self]

theorem State.classifyEnd_pending (s : State) :
    (State.classifyEnd s).pending = s.pending := by
  simp -proj only [State.classifyEnd, ↓State.imageTdac_pending, ↓State.classDrop_pending, ↓State.setFld_pending,
      ↓foldl_pending, implies_true, ↓apply_ite State.pending, ite_self]

theorem State.poleDone_pending (s : State) (j : Fin 20) (r : PoleReading) :
    (State.poleDone s j r).pending = s.pending := by
  unfold State.poleDone; (repeat' split) <;> simp -proj only [↓State.jackRelease_pending, ↓State.updJack_pending,
      ↓State.classFinal_pending, ↓State.loadQueue_pending]

theorem State.loadDone_pending (s : State) (j : Fin 20) (r : LoadReading) :
    (State.loadDone s j r).pending = s.pending := by
  unfold State.loadDone; (repeat' split) <;> simp -proj only [↓State.hpUnfade_pending, ↓State.jackRelease_pending,
      ↓State.updJack_pending, ↓State.setFld_pending, ↓State.classFinal_pending, ↓apply_ite State.pending,
      ite_self]

theorem State.ruleSkip_pending (s : State) :
    (State.ruleSkip s).pending = s.pending := by
  simp only [State.ruleSkip, ↓State.raise_pending, ↓State.countSat_pending]

theorem State.ruleAct_pending (s : State) (r : Fin 64) (a p : Nat) :
    (State.ruleAct s r a p).pending = s.pending := by
  refine State.Queue.eq ?_
  unfold State.ruleAct
  dsimp -proj only
  exact ⟨by simp -proj only [↓State.countSat_pending, ↓State.setFld_pending, ↓State.bumpVer_pending, ↓mk_pending, ↓apply_ite
      State.pending, ite_self]⟩

theorem State.ruleFire_pending (s : State) (r : Fin 64) :
    (State.ruleFire s r).pending = s.pending := by
  simp -proj only [State.ruleFire]
  split <;> simp -proj only [↓State.ruleAct_pending, ↓State.ruleSkip_pending, ↓mk_pending, ↓apply_ite State.pending,
      ite_self]

theorem State.lineCtrlWrite_pending (s : State) (n : Fin 16) (v : Nat) :
    (State.lineCtrlWrite s n v).pending = s.pending := by
  simp only [State.lineCtrlWrite, ↓State.storeFld_pending, ↓State.hold_pending, ↓State.outEnWrite_pending, ↓apply_ite
      State.pending, ite_self]

theorem State.lineWrite_pending (s : State) (n : Fin 16) (o v : Nat) :
    (State.lineWrite s n o v).pending = s.pending := by
  simp only [State.lineWrite, ↓State.lineCtrlWrite_pending, ↓State.store_pending, ↓apply_ite State.pending, ite_self]

theorem State.micWrite_pending (s : State) (h : Fin 4) (on : Bool) (i : Fin 16) :
    (State.micWrite s h on i).pending = s.pending := by
  simp -proj only [State.micWrite, ↓State.setFld_pending, ↓State.micAll_pending, ↓apply_ite State.pending]; (repeat' split) <;> simp -proj only [↓State.setFld_pending,
      ↓State.diagAbort_pending]

theorem State.biasWrite_pending (s : State) (h : Fin 4) (on : Bool) :
    (State.biasWrite s h on).pending = s.pending := by
  simp only [State.biasWrite, ↓State.setFld_pending, ↓apply_ite State.pending, ite_self]

theorem State.hpCtrlWrite_pending (s : State) (h : Fin 4) (v : Nat) :
    (State.hpCtrlWrite s h v).pending = s.pending := by
  simp only [State.hpCtrlWrite, ↓State.poleFollow_pending, ↓State.storeFld_pending, ↓State.outEnWrite_pending,
      ↓State.micWrite_pending, ↓State.biasWrite_pending]

theorem State.hpWrite_pending (s : State) (h : Fin 4) (o v : Nat) :
    (State.hpWrite s h o v).pending = s.pending := by
  simp only [State.hpWrite, ↓State.hpCtrlWrite_pending, ↓State.store_pending, ↓apply_ite State.pending, ite_self]

/-! ## The housekeeping converter -/

theorem State.judge_pending (s : State) (k : Nat) (v : Int) :
    (State.judge s k v).pending = s.pending := by
  simp only [State.judge, ↓State.raise_pending, ↓State.setBit_pending, ↓apply_ite State.pending, ite_self]

theorem State.converted_pending (s : State) (c : Nat) (v : Sys2Proof.ConvReading) (settling : Bool) :
    (State.converted s c v settling).pending = s.pending := by
  refine State.Queue.eq ?_
  unfold State.converted
  dsimp -proj only
  exact ⟨by simp -proj only [↓State.setReg_pending, ↓State.judge_pending, ↓foldl_pending, implies_true,
      ↓apply_ite State.pending, ite_self]⟩

theorem State.putRecord_pending (s : State) (q : Nat) (bytes : List Byte) :
    (State.putRecord s q bytes).pending = s.pending := by
  simp only [State.putRecord, ↓State.ringPut_pending, ↓State.raise_pending, ↓apply_ite State.pending, ite_self]

theorem State.pipeStamp_pending (s : State) (avg : Nat) :
    (State.pipeStamp s avg).2.pending = s.pending := by
  simp only [State.pipeStamp, ↓State.divFree_pending]

theorem State.integStamp_pending (s : State) (t : Option Nat) :
    (State.integStamp s t).2.pending = s.pending := by
  unfold State.integStamp; split <;> simp -proj only [↓State.divFree_pending, ↓State.free_pending, snd_mk]

theorem State.seqTrigger_pending (s : State) (x : Fin 3) :
    (State.seqTrigger s x).pending = s.pending := by
  simp only [State.seqTrigger, ↓State.setSeqState_pending, ↓State.raise_pending, ↓State.countSat_pending, ↓apply_ite
      State.pending, ite_self]

theorem State.seqArm_pending (s : State) (x : Fin 3) :
    (State.seqArm s x).pending = s.pending := by
  simp only [State.seqArm, ↓State.setSeqState_pending, ↓State.setErr_pending, ↓apply_ite State.pending, ite_self]

theorem State.seqApplyHeld_pending (s : State) (x : Fin 3) :
    (State.seqApplyHeld s x).pending = s.pending := by
  refine State.Queue.eq ?_
  unfold State.seqApplyHeld
  dsimp -proj only
  split <;> exact ⟨by simp -proj only [↓State.applyHeld_pending, ↓State.dropHeld_pending, ↓State.storeFld_pending]⟩

theorem State.seqEnWrite_pending (s : State) (x : Fin 3) (on : Bool) :
    (State.seqEnWrite s x on).pending = s.pending := by
  refine State.Queue.eq ?_
  unfold State.seqEnWrite
  dsimp -proj only
  exact ⟨by simp -proj only [↓State.setFld_pending, ↓State.seqArm_pending, ↓State.updSeq_pending, ↓State.setErr_pending,
      ↓State.seqApplyHeld_pending, ↓State.setSeqState_pending, ↓mk_pending, ↓apply_ite State.pending, ite_self]⟩

theorem State.seqCfgWrite_pending (s : State) (x : Fin 3) (v : Nat) :
    (State.seqCfgWrite s x v).pending = s.pending := by
  simp only [State.seqCfgWrite, ↓State.hold_pending, ↓State.storeFld_pending, ↓State.seqEnWrite_pending, ↓apply_ite
      State.pending, ite_self]

theorem State.seqTrigWrite_pending (s : State) (x : Fin 3) (v : Nat) :
    (State.seqTrigWrite s x v).pending = s.pending := by
  simp only [State.seqTrigWrite, ↓State.hold_pending, ↓State.store_pending, ↓apply_ite State.pending, ite_self]

theorem State.runStop_pending (s : State) (x : Fin 3) :
    (State.runStop s x).pending = s.pending := by
  refine State.Queue.eq ?_
  unfold State.runStop
  dsimp -proj only
  exact ⟨by simp -proj only [↓State.updSeq_pending, ↓State.setSeqState_pending]⟩

theorem State.entryEnd_pending (s : State) (x : Fin 3) :
    (State.entryEnd s x).pending = s.pending := by
  unfold State.entryEnd; (repeat' split) <;> simp -proj only [↓State.seqServeAll_pending, ↓State.runStop_pending,
      ↓State.entryStart_pending, ↓State.runEnd_pending]

theorem State.entryDone_pending (s : State) (x : Fin 3) (v : Sys2Proof.ConvReading) (settling : Bool) (stamp : Nat) :
    (State.entryDone s x v settling stamp).pending = s.pending := by
  simp only [State.entryDone, ↓State.converted_pending, ↓State.entryEnd_pending, ↓State.putRecord_pending]

theorem State.seqConv_pending (s : State) (x : Fin 3) (v : Sys2Proof.ConvReading) :
    (State.seqConv s x v).pending = s.pending := by
  simp only [State.seqConv, ↓State.pipeStamp_pending, ↓State.entryDone_pending, ↓apply_ite State.pending, ite_self]

theorem State.urgentWrite_pending (s : State) (p : Fin 4) (v : Nat) :
    (State.urgentWrite s p v).pending = s.pending := by
  simp only [State.urgentWrite, ↓State.store_pending, ↓State.setErr_pending, ↓State.pipePreempt_pending, ↓apply_ite
      State.pending, ite_self]

theorem State.urgentDone_pending (s : State) (v : Sys2Proof.ConvReading) :
    (State.urgentDone s v).pending = s.pending := by
  unfold State.urgentDone; split <;> simp -proj only [↓State.pipeStamp_pending, ↓State.converted_pending,
      ↓State.raise_pending, ↓State.putRecord_pending, ↓State.pipeResume_pending, ↓mk_pending, ↓apply_ite State.pending,
      ite_self]

theorem State.winCfgWrite_pending (s : State) (k v : Nat) :
    (State.winCfgWrite s k v).pending = s.pending := by
  simp only [State.winCfgWrite, ↓State.store_pending, ↓State.setBit_pending, ↓apply_ite State.pending, ite_self]

theorem State.mainsWrite_pending (s : State) (v : Nat) :
    (State.mainsWrite s v).pending = s.pending := by
  simp only [State.mainsWrite, ↓State.store_pending, ↓State.setFld_pending, ↓apply_ite State.pending, ite_self]

theorem State.nextTick_pending (s : State) (a v : Nat) :
    (State.nextTick s a v).pending = s.pending := by
  simp only [State.nextTick, ↓State.store_pending, ↓apply_ite State.pending, ite_self]

theorem State.hkaStart_pending (s : State) :
    (State.hkaStart s).pending = s.pending := by
  simp -proj only [State.hkaStart, ↓State.setFld_pending, ↓State.runStop_pending, ↓State.setSeqState_pending, ↓mk_pending,
      ↓foldl_pending, implies_true, ↓apply_ite State.pending, ite_self]

theorem State.tdacRequest_pending (s : State) (p : Fin 4) :
    (State.tdacRequest s p).pending = s.pending := by
  unfold State.tdacRequest; split <;> simp -proj only [↓State.setErr_pending, ↓State.tdacEnqueue_pending,
      ↓State.setFld_pending, ↓apply_ite State.pending, ite_self]

theorem State.tdacGiveUp_pending (s : State) (p : Fin 4) :
    (State.tdacGiveUp s p).pending = s.pending := by
  refine State.Queue.eq ?_
  unfold State.tdacGiveUp
  dsimp -proj only
  exact ⟨by simp -proj only [↓State.setFld_pending, ↓State.tdacUnqueue_pending, ↓mk_pending, ↓apply_ite State.pending,
      ite_self]⟩

theorem State.tdacLeaves_pending (s : State) :
    (State.tdacLeaves s).pending = s.pending := by
  unfold State.tdacLeaves; (repeat' split) <;> simp -proj only [↓State.setFld_pending, ↓State.hpUnfade_pending, ↓mk_pending]

theorem hpFades_queue {v : State} {ql : List Instr} (g : Nat) (hv : v.Queue ql) : (match routeHp g with
    | some h => v.hpFade h
    | none => v : State).Queue ql := by
  split
  · exact hv.of (State.hpFade_pending ..)
  · exact hv

theorem ainMutes_queue {v : State} {ql : List Instr} (g : Nat) (hv : v.Queue ql) : (match routeAin g with
    | some n => v.muteCause n .diag
    | none => v : State).Queue ql := by
  split
  · exact hv.of (State.muteCause_pending ..)
  · exact hv

theorem setTdac_queue {v : State} {ql : List Instr} (d : Tdac) (hv : v.Queue ql) : ({ v with tdac := d } : State).Queue ql :=
  hv.of rfl

theorem State.tdacRouteWrite_pending (s : State) (p : Fin 4) (r : Nat) : (s.tdacRouteWrite p r).pending = s.pending := by
  refine State.Queue.eq ?_
  have hs : s.Queue s.pending := ⟨rfl⟩
  have ht := hs.of (State.storeFld_pending s Fd.TDAC_CTRL_ROUTE r)
  unfold State.tdacRouteWrite
  split
  · exact hs.of (State.setErr_pending ..)
  · extract_lets +onlyGivenNames t g
    replace ht : t.Queue s.pending := ht
    clear_value t g
    split
    · exact ht
    · exact hpFades_queue g (ainMutes_queue g (setTdac_queue _ ht))

theorem State.tdacCodeWrite_pending (s : State) (p : Fin 4) (v : Nat) :
    (State.tdacCodeWrite s p v).pending = s.pending := by
  simp only [State.tdacCodeWrite, ↓State.setErr_pending, ↓State.store_pending, ↓apply_ite State.pending, ite_self]

theorem State.tdacCtrlWrite_pending (s : State) (p : Fin 4) (v : Nat) :
    (State.tdacCtrlWrite s p v).pending = s.pending := by
  simp only [State.tdacCtrlWrite, ↓State.tdacRouteWrite_pending, ↓State.tdacRequest_pending, ↓State.tdacGiveUp_pending,
      ↓apply_ite State.pending, ite_self]

theorem State.tdacServe_pending (s : State) :
    (State.tdacServe s).pending = s.pending := by
  simp -proj only [State.tdacServe, ↓State.tdacUnqueue_pending,
      ↓apply_ite State.pending]; (repeat' split) <;> simp -proj only [↓State.diagBegin_pending, ↓State.raise_pending,
      ↓State.tdacUnqueue_pending, ↓State.pipePreempt_pending, ↓State.updJack_pending, ↓State.hpFade_pending, ↓mk_pending]

theorem State.tdacRamped_pending (s : State) :
    (State.tdacRamped s).pending = s.pending := by
  simp -proj only [State.tdacRamped, ↓State.setFld_pending]; (repeat' split) <;> simp -proj only [↓State.hpUnfade_pending, ↓mk_pending]

theorem State.hkaWrite_pending (s : State) (p : Fin 4) (o v : Nat) :
    (State.hkaWrite s p o v).pending = s.pending := by
  simp only [State.hkaWrite, ↓State.mainsWrite_pending, ↓State.urgentWrite_pending, ↓State.winCfgWrite_pending,
      ↓State.store_pending, ↓apply_ite State.pending, ite_self]

theorem State.hkseqWrite_pending (s : State) (o v : Nat) :
    (State.hkseqWrite s o v).pending = s.pending := by
  simp -proj only [State.hkseqWrite, ↓State.seqCfgWrite_pending, ↓State.seqTrigWrite_pending, ↓State.store_pending,
      ↓State.seqTrigger_pending, ↓foldl_pending, implies_true, ↓apply_ite State.pending, ite_self]

theorem State.tdacWrite_pending (s : State) (p : Fin 4) (o v : Nat) :
    (State.tdacWrite s p o v).pending = s.pending := by
  simp only [State.tdacWrite, ↓State.tdacCtrlWrite_pending, ↓State.tdacCodeWrite_pending, ↓State.store_pending, ↓apply_ite
      State.pending, ite_self]

theorem State.seqYield_pending (s : State) (x : Fin 3) :
    (State.seqYield s x).pending = s.pending := by
  unfold State.seqYield; split <;> simp -proj only [↓State.setSeqState_pending, ↓mk_pending, ↓apply_ite State.pending,
      ite_self]

/-! ## The amplifier -/

theorem State.setAmpState_pending (s : State) (n : Fin 4) (t : AmpState) :
    (State.setAmpState s n t).pending = s.pending := by
  simp only [State.setAmpState, ↓State.setFld_pending]

theorem State.updAmp_pending (s : State) (n : Fin 4) (f : Amp → Amp) :
    (State.updAmp s n f).pending = s.pending := mk_pending ..

theorem State.ampsysFields_pending (s : State) (v : Nat) :
    (State.ampsysFields s v).pending = s.pending := by
  simp only [State.ampsysFields, ↓State.storeFld_pending, ↓apply_ite State.pending, ite_self]

theorem State.ampsysApply_pending (s : State) :
    (State.ampsysApply s).pending = s.pending := by
  unfold State.ampsysApply; split <;> simp -proj only [↓State.ampsysFields_pending, ↓State.dropHeld_pending, ↓apply_ite State.pending, ite_self]

theorem State.ampCfgApply_pending (s : State) (n : Fin 4) :
    (State.ampCfgApply s n).pending = s.pending := by
  simp only [State.ampCfgApply, ↓State.applyFld_pending]

theorem State.ampStill_pending (s : State) (n : Fin 4) :
    (State.ampStill s n).pending = s.pending := by
  simp only [State.ampStill, ↓State.setGain_pending, ↓State.updAmp_pending]

theorem State.ampBegin_pending (s : State) (n : Fin 4) :
    (State.ampBegin s n).pending = s.pending := by
  refine State.Queue.eq ?_
  unfold State.ampBegin
  exact ⟨by simp -proj only [↓State.pipePreempt_pending, ↓State.updAmp_pending, ↓State.setAmpState_pending]⟩

theorem State.ampStart_pending (s : State) (n : Fin 4) : (s.ampStart n).pending = s.pending := by
  have hs : s.Queue s.pending := ⟨rfl⟩
  refine State.Queue.eq ?_
  unfold State.ampStart
  split
  · exact hs.of ((State.raise_pending ..).trans ((State.updAmp_pending ..).trans ((State.setFld_pending ..).trans
      ((State.setAmpState_pending ..).trans (State.ampStill_pending ..)))))
  · exact hs.of (State.ampBegin_pending ..)

theorem State.ampTry_pending (s : State) (n : Fin 4) :
    (State.ampTry s n).pending = s.pending := by
  simp only [State.ampTry, ↓State.ampStart_pending, ↓State.updAmp_pending, ↓apply_ite State.pending, ite_self]

theorem State.ampOff_pending (s : State) (n : Fin 4) :
    (State.ampOff s n).pending = s.pending := by
  refine State.Queue.eq ?_
  unfold State.ampOff
  dsimp -proj only
  exact ⟨by simp -proj only [↓State.setFld_pending, ↓State.setAmpState_pending, ↓State.ampStill_pending,
      ↓State.ampCfgApply_pending, ↓State.updAmp_pending, ↓State.ampsysApply_pending, ↓State.pipeResume_pending,
      ↓State.raise_pending, ↓State.ampTry_pending, ↓foldl_pending, implies_true]⟩

theorem State.ampSuspend_pending (s : State) (n : Fin 4) (c : AmpCause) (supply : Bool) :
    (State.ampSuspend s n c supply).pending = s.pending := by
  refine State.Queue.eq ?_
  unfold State.ampSuspend
  dsimp -proj only
  exact ⟨by simp -proj only [↓State.setFld_pending, ↓State.setAmpState_pending, ↓State.ampStill_pending,
      ↓State.pipeResume_pending, ↓State.raise_pending, ↓State.updAmp_pending]⟩

theorem State.ampResume_pending (s : State) (n : Fin 4) :
    (State.ampResume s n).pending = s.pending := by
  simp only [State.ampResume, ↓State.ampOff_pending, ↓State.raise_pending, ↓State.ampBegin_pending, ↓State.updAmp_pending,
      ↓apply_ite State.pending, ite_self]

theorem State.ampsResume_pending (s : State) :
    (State.ampsResume s).pending = s.pending := by
  simp -proj only [State.ampsResume, ↓State.ampResume_pending, ↓foldl_pending, implies_true]

theorem State.ampEnWrite_pending (s : State) (n : Fin 4) (on : Bool) : (s.ampEnWrite n on).pending = s.pending := by
  have hs : s.Queue s.pending := ⟨rfl⟩
  refine State.Queue.eq ?_
  unfold State.ampEnWrite
  extract_lets +onlyGivenNames idle t
  have ht : t.Queue s.pending := hs.of (State.setFld_pending ..)
  clear_value t idle
  split
  · exact hs.of ((State.ampOff_pending ..).trans (State.setFld_pending ..))
  · split
    · exact hs
    · split
      · exact ht
      · split
        · exact ht.of (State.ampTry_pending ..)
        · split
          · exact ht.of ((State.setGain_pending ..).trans ((State.updAmp_pending ..).trans (State.setAmpState_pending ..)))
          · exact ht.of (State.ampOff_pending ..)
          all_goals exact ht

theorem State.ampShutdown_pending (s : State) (n : Fin 4) (c : AmpCause) :
    (State.ampShutdown s n c).pending = s.pending := by
  simp only [State.ampShutdown, ↓State.countSat_pending, ↓State.setFld_pending, ↓State.ampStill_pending,
      ↓State.raise_pending, ↓State.pipeResume_pending, ↓State.setAmpState_pending, ↓apply_ite State.pending, ite_self]

theorem State.supplyStop_pending (s : State) (high atOnce : Bool) : (s.supplyStop high atOnce).pending = s.pending := by
  unfold State.supplyStop
  refine (foldl_pending _ (fun u n => ?_) _ _).trans ?_
  · split
    · split
      · exact State.updAmp_pending ..
      · rfl
    · split
      all_goals first
        | exact State.ampSuspend_pending ..
        | rfl
  · simp -proj only [↓apply_ite State.pending, ↓State.raise_pending, ↓State.setFld_pending, ite_self]

theorem State.showCeilings_pending (s : State) :
    (State.showCeilings s).pending = s.pending := by
  simp -proj only [State.showCeilings, ↓State.setSfld_pending, ↓foldl_pending, implies_true, ↓apply_ite
      State.pending, ite_self]

theorem State.setSag_pending (s : State) (c : Int) :
    (State.setSag s c).pending = s.pending := by
  simp only [State.setSag, ↓State.setFld_pending, ↓State.raise_pending, ↓State.showCeilings_pending,
      ↓apply_ite State.pending, ite_self]

theorem State.sagTake_pending (s : State) (raw : Int) :
    (State.sagTake s raw).pending = s.pending := by
  simp only [State.sagTake, ↓State.divFree_pending, ↓State.setSag_pending, ↓State.setFld_pending, ↓State.supplyStop_pending,
      ↓apply_ite State.pending, ite_self]

theorem State.stageTemp_pending (s : State) (n : Fin 4) (v : Int) : (s.stageTemp n v).pending = s.pending := by
  unfold State.stageTemp
  split
  · rfl
  · have hd := State.divFree_pending s v 2048
    generalize s.divFree v 2048 = z at hd ⊢
    obtain ⟨d, t⟩ := z
    dsimp only at hd ⊢
    have hc : (if 2764800 < v then t.divFree (-(v - 2764800)) 160 else (0, t)).2.pending = s.pending := by
      split
      · exact (State.divFree_pending ..).trans hd
      · exact hd
    generalize (if 2764800 < v then t.divFree (-(v - 2764800)) 160 else (0, t)) = z at hc ⊢
    obtain ⟨c, u⟩ := z
    dsimp only at hc ⊢
    refine (State.ampResume_pending ..).trans ?_
    split <;> simp -proj only [↓apply_ite State.pending, ↓State.ampSuspend_pending, ↓State.countSat_pending,
        ↓State.raise_pending,
      ↓State.updAmp_pending, ↓State.setSfld_pending, hc, ite_self]

theorem State.scaled_pending (s : State) (v : Int) (a b : Nat) :
    (State.scaled s v a b).2.pending = s.pending := by
  simp only [State.scaled, ↓State.divFree_pending]

theorem State.phantomScan_pending (s : State) (r : Sys2Proof.ScanReading) :
    (State.phantomScan s r).pending = s.pending := by
  simp -proj only [State.phantomScan, ↓State.scaled_pending, ↓State.phCapacity_pending, ↓State.setFld_pending, ↓mk_pending,
      ↓foldl_pending, implies_true, ↓apply_ite State.pending, ite_self]

theorem scanEntry_queue {t : State} {ql : List Instr} (ht : t.Queue ql) : (match t.seqOn 0 with
    | some x => if t.hka.seqs[x].due then t
      else (t.updSeq x fun q => { q with switched := entryChan q.word != 0x1B }).entryInput x
    | none => t : State).Queue ql := by
  split
  · split
    · exact ht
    · exact ht.of ((State.entryInput_pending ..).trans (State.updSeq_pending ..))
  · exact ht

theorem setHka_queue {v : State} {ql : List Instr} (d : Hka) (hv : v.Queue ql) : ({ v with hka := d } : State).Queue ql :=
  hv.of rfl

theorem State.scan_pending (s : State) (r : Sys2Proof.ScanReading) : (s.scan r).pending = s.pending := by
  refine State.Queue.eq ?_
  unfold State.scan
  extract_lets +onlyGivenNames s1 s2 h s3 s4
  have h1 : s1.Queue s.pending := State.Queue.foldl (fun c ht => ht.of (State.converted_pending ..)) ⟨rfl⟩ _
  clear_value s1
  have h2 : s2.Queue s.pending := h1.of (State.phantomScan_pending ..)
  clear_value s2 h
  have h3 : s3.Queue s.pending := setHka_queue _ h2
  clear_value s3
  have h4 : s4.Queue s.pending := scanEntry_queue h3
  clear_value s4
  exact h4.of ((State.showCeilings_pending ..).trans (foldl_pending _ (fun t n => State.stageTemp_pending ..) _ _))

theorem State.ampDrive_pending (s : State) (n : Fin 4) (lost : Bool) :
    (State.ampDrive s n lost).pending = s.pending := by
  simp only [State.ampDrive, ↓State.toQ31_pending, ↓State.divFree_pending, ↓State.updAmp_pending, ↓State.setSfld_pending,
      ↓State.raise_pending, ↓State.countSat_pending, ↓apply_ite State.pending, ite_self]

theorem State.ampDc_pending (s : State) (n : Fin 4) (x : Sample) :
    (State.ampDc s n x).pending = s.pending := by
  simp only [State.ampDc, ↓State.divFree_pending, ↓State.setSfld_pending, ↓State.updAmp_pending]

theorem State.ampTick_pending (s : State) (n : Fin 4) (sense : BitVec 32) (lost : Bool) :
    (State.ampTick s n sense lost).pending = s.pending := by
  simp only [State.ampTick, ↓State.setGain_pending, ↓State.ampDrive_pending, ↓State.ampDc_pending, ↓apply_ite State.pending,
      ite_self]

theorem State.ampsTick_pending (s : State) (sense : Vector (BitVec 32) 4) (lost : List Nat) :
    (State.ampsTick s sense lost).pending = s.pending := by
  simp -proj only [State.ampsTick, ↓State.ampTick_pending, ↓mk_pending, ↓foldl_pending, implies_true]

theorem State.ampWrite_pending (s : State) (n : Fin 4) (o v : Nat) :
    (State.ampWrite s n o v).pending = s.pending := by
  simp only [State.ampWrite, ↓State.storeFld_pending, ↓State.hold_pending, ↓State.ampEnWrite_pending, ↓State.store_pending,
      ↓apply_ite State.pending, ite_self]

theorem State.ampsysWrite_pending (s : State) (o v : Nat) :
    (State.ampsysWrite s o v).pending = s.pending := by
  simp -proj only [State.ampsysWrite, ↓State.hold_pending, ↓State.dropHeld_pending, ↓State.ampTry_pending,
      ↓State.ampsysApply_pending, ↓State.store_pending, ↓State.setSag_pending, ↓foldl_pending, implies_true,
      ↓apply_ite State.pending, ite_self]

theorem State.precheck_pending (s : State) (r : Sys2Proof.PrecheckReading) :
    (State.precheck s r).2.pending = s.pending := by
  simp -proj only [State.precheck]
  split <;> simp -proj only [↓State.free_pending, snd_mk]

theorem State.pwmCount_pending (s : State) (n : Fin 4) (limited : Bool) :
    (State.pwmCount s n limited).pending = s.pending := by
  simp only [State.pwmCount, ↓State.updAmp_pending, ↓State.setFld_pending, ↓State.raise_pending, ↓apply_ite State.pending,
      ite_self]

theorem State.pwmStop_pending (s : State) (n : Fin 4) :
    (State.pwmStop s n).pending = s.pending := by
  simp only [State.pwmStop, ↓State.updAmp_pending, ↓State.ampSuspend_pending, ↓apply_ite State.pending, ite_self]

theorem State.ampDcStop_pending (s : State) (n : Fin 4) :
    (State.ampDcStop s n).pending = s.pending := by
  simp only [State.ampDcStop, ↓State.countSat_pending, ↓State.setFld_pending, ↓State.ampStill_pending, ↓State.raise_pending,
      ↓State.setAmpState_pending, ↓apply_ite State.pending, ite_self]

end Sys2Proof.Machine
end

section
/-!
PROOFS. No command changes the queue of the commands behind it (98_reader.md): rings, frames of the audio ports, images and
    domains.
-/
namespace Sys2Proof.Machine

/-! ## Rings, books and capture -/

theorem State.ringStart_pending (s : State) (i : Nat) :
    (State.ringStart s i).pending = s.pending := by
  simp only [State.ringStart, ↓State.updRing_pending, ↓State.setFld_pending, ↓apply_ite State.pending, ite_self]

theorem State.ringCfgWrite_pending (s : State) (i v : Nat) :
    (State.ringCfgWrite s i v).pending = s.pending := by
  simp only [State.ringCfgWrite, ↓State.updRing_pending, ↓State.setErr_pending, ↓State.ringStart_pending, ↓apply_ite
      State.pending, ite_self]

theorem State.stampRequests_pending (s : State) (p : Fin 4) (x : Word) (j : Nat) :
    (s.stampRequests p x j).pending = s.pending := by
  induction j generalizing s x with
  | zero => rfl
  | succ j ih => exact (ih _ _).trans (State.setByte_pending ..)

theorem State.ringHostGive_pending (s : State) (p : Fin 4) (i k : Nat) :
    (State.ringHostGive s p i k).pending = s.pending := by
  simp only [State.ringHostGive, ↓State.stampRequests_pending, ↓State.ringGive_pending, ↓apply_ite State.pending, ite_self]

theorem State.ringIndexWrite_pending (s : State) (p : Fin 4) (i : Nat) (producer : Bool) (v : Word) :
    (State.ringIndexWrite s p i producer v).pending = s.pending := by
  simp only [State.ringIndexWrite, ↓State.setErr_pending, ↓State.ringHostGive_pending, ↓State.ringLose_pending,
      ↓State.ringTake_pending, ↓apply_ite State.pending, ite_self]

theorem State.ringWmWrite_pending (s : State) (i v : Nat) :
    (State.ringWmWrite s i v).pending = s.pending := by
  simp only [State.ringWmWrite, ↓State.updRing_pending, ↓apply_ite State.pending, ite_self]

theorem State.evtEnable_pending (s : State) (p : Nat) (r : EvtReg) (mask v : Nat) :
    (State.evtEnable s p r mask v).pending = s.pending := by
  simp -proj only [State.evtEnable, ↓State.setReg_pending, ↓deliverWith_pending, ↓raiseRing_pending, ↓foldl_pending, implies_true]

theorem State.evtForce_pending (s : State) (p v : Nat) :
    (State.evtForce s p v).pending = s.pending := by
  simp -proj only [State.evtForce, ↓raiseFuel_pending, ↓mk_pending, ↓foldl_pending, implies_true, ↓apply_ite State.pending,
      ite_self]

theorem State.evtClear_pending (s : State) (p : Nat) (r : EvtReg) (v : Nat) :
    (State.evtClear s p r v).pending = s.pending := by
  simp only [State.evtClear, ↓State.setReg_pending, ↓apply_ite State.pending, ite_self]

theorem State.errClear_pending (s : State) (p v : Nat) :
    (State.errClear s p v).pending = s.pending := by
  simp only [State.errClear, ↓State.setReg_pending]

theorem State.bookNow_pending (s : State) :
    (State.bookNow s).pending = s.pending := mk_pending ..

theorem State.latchGran_pending (s : State) :
    (State.latchGran s).pending = s.pending := by
  simp only [State.latchGran, ↓State.setReg_pending]

theorem State.captureTap_pending (s : State) (k : Nat) :
    (State.captureTap s k).pending = s.pending := by
  simp only [State.captureTap, ↓State.setFld_pending, ↓State.ringPut_pending, ↓apply_ite State.pending, ite_self]

theorem State.capture_pending (s : State) :
    (State.capture s).pending = s.pending := by
  simp only [State.capture, ↓State.captureTap_pending]

theorem State.injTake_pending (s : State) (k : Nat) :
    (State.injTake s k).pending = s.pending := by
  simp only [State.injTake, ↓State.ringTake_pending]

theorem State.injSilent_pending (s : State) (k : Nat) :
    (State.injSilent s k).pending = s.pending := mk_pending ..

theorem State.injTick_pending (s : State) (k : Nat) :
    (State.injTick s k).pending = s.pending := by
  unfold State.injTick; split <;> simp -proj only [↓State.injTake_pending, ↓State.injSilent_pending, ↓State.raise_pending,
      ↓State.countSat_pending, ↓mk_pending, ↓apply_ite State.pending, ite_self]

theorem State.inject_pending (s : State) :
    (State.inject s).pending = s.pending := by
  simp only [State.inject, ↓State.injTick_pending]

/-! ## Frames at the pins -/

theorem State.rxLine_pending (s : State) (n : Fin 32) (k : Fin 2) (f : RxFrame) :
    (State.rxLine s n k f).pending = s.pending := by
  simp only [State.rxLine, ↓State.updLine_pending, ↓State.enter_pending, ↓apply_ite State.pending, ite_self]

theorem State.rxFrame_pending (s : State) (n : Fin 32) (f : RxFrame) :
    (State.rxFrame s n f).pending = s.pending := by
  simp only [State.rxFrame, ↓State.raise_pending, ↓State.countSat_pending, ↓State.csFrame_pending, ↓State.aesErrors_pending,
      ↓State.rxLine_pending, ↓State.updSap_pending, ↓apply_ite State.pending, ite_self]

theorem State.deafFrame_pending (s : State) (f : RxFrame) :
    (State.deafFrame s f).2.pending = s.pending := mk_pending ..

theorem State.frameReceived_pending (s : State) (n : Fin 32) (f : RxFrame) :
    (State.frameReceived s n f).pending = s.pending := by
  simp -proj only [State.frameReceived, ↓apply_ite State.pending]; (repeat' split) <;> simp -proj only
      [↓State.deafFrame_pending, ↓State.monEdge_pending, ↓State.rxFrame_pending, ↓State.updSap_pending]

theorem State.txStamp_pending (s : State) (n : Fin 32) (k : Fin 2) :
    (State.txStamp s n k).pending = s.pending := by
  simp only [State.txStamp, ↓State.stampBlock_pending, ↓State.updLine_pending, ↓apply_ite State.pending, ite_self]

theorem State.wireFrame_pending (s : State) (n : Fin 32) (k : Fin 2) (wa wb : Nat) :
    (State.wireFrame s n k wa wb).pending = s.pending := by
  simp only [State.wireFrame, ↓State.updSap_pending]

theorem State.txDisturb_pending (s : State) (n : Fin 32) (a b : Sample) :
    (State.txDisturb s n a b).2.pending = s.pending := by
  simp -proj only [State.txDisturb, ↓State.freeInt_pending, snd_mk, ↓apply_ite
      Prod.snd, ↓apply_ite State.pending, ite_self]

theorem State.txTake_pending (s : State) (n : Fin 32) (k : Fin 2) : (s.txTake n k).2.2.pending = s.pending :=
  (State.updLine_pending ..).trans (State.fifoDrop_pending ..)

theorem State.txZero_pending (s : State) (n : Fin 32) (k : Fin 2) : (s.txZero n k).2.2.pending = s.pending :=
  State.countInserted_pending ..

theorem State.txTail_pending (s : State) (n : Fin 32) (k : Fin 2) : (s.txTail n k).2.2.pending = s.pending :=
  State.countInserted_pending ..

theorem State.txNext_pending (s : State) (n : Fin 32) (k : Fin 2) : (s.txNext n k).2.2.pending = s.pending := by
  have hr := State.outputRejoin_pending s n k
  unfold State.txNext
  generalize s.outputRejoin n k = t at hr ⊢
  have hz := (State.txZero_pending t n k).trans hr
  have ht := (State.txTake_pending t n k).trans hr
  dsimp only
  split
  · exact hz
  · split
    · split
      · exact hz
      · exact ht
    · split
      · exact hz
      · split
        · split
          · exact hz
          · exact (State.txTail_pending ..).trans hr
        · exact hz
        · exact hz
        all_goals
          split
          · exact ht
          · exact (State.txTail_pending ..).trans ((State.updLine_pending ..).trans ((State.underrun_pending ..).trans
              ((State.beginSnow_pending ..).trans hr)))

theorem State.txLine_pending (s : State) (n : Fin 32) (k : Fin 2) : (s.txLine n k).pending = s.pending := by
  unfold State.txLine
  split
  · rfl
  · have ht := State.txNext_pending s n k
    generalize s.txNext n k = z at ht ⊢
    obtain ⟨⟨a0, b0⟩, ⟨ma, mb⟩, t⟩ := z
    dsimp only at ht ⊢
    have hu := (State.txDisturb_pending ((t.txStamp n k).endEpisodes n k) n a0 b0).trans
      ((State.endEpisodes_pending ..).trans ((State.txStamp_pending ..).trans ht))
    generalize ((t.txStamp n k).endEpisodes n k).txDisturb n a0 b0 = z at hu ⊢
    obtain ⟨⟨a, b⟩, u⟩ := z
    dsimp only at hu ⊢
    split
    · exact (State.aesSend_pending ..).trans hu
    · exact (State.wireFrame_pending ..).trans ((State.cutWord_pending ..).trans ((State.cutWord_pending ..).trans hu))

theorem State.frameTransmit_pending (s : State) (n : Fin 32) :
    (State.frameTransmit s n).pending = s.pending := by
  unfold State.frameTransmit; (repeat' split) <;> simp -proj only [↓State.txLine_pending, ↓State.updSap_pending]

theorem State.deliverLine_pending (s : State) (n : Fin 32) (k : Fin 2) :
    (State.deliverLine s n k).pending = s.pending := by
  simp only [State.deliverLine, ↓State.updSap_pending, ↓State.updLine_pending, ↓State.raise_pending,
      ↓State.setSapState_pending, ↓apply_ite State.pending, ite_self]

theorem State.sapCntClear_pending (s : State) (n : Fin 32) :
    (State.sapCntClear s n).pending = s.pending := by
  simp -proj only [State.sapCntClear, ↓State.updSap_pending, ↓State.setFld_pending, ↓State.setErr_pending, ↓foldl_pending, implies_true, ↓apply_ite State.pending, ite_self]

theorem State.latchCounts_pending (s : State) (n : Fin 32) (k : Fin 2) :
    (State.latchCounts s n k).pending = s.pending := by
  simp only [State.latchCounts, ↓State.setFld_pending]

theorem State.latchStamp_pending (s : State) (n : Fin 32) :
    (State.latchStamp s n).pending = s.pending := by
  simp only [State.latchStamp, ↓State.setReg_pending]

theorem State.latchCs_pending (s : State) (n : Fin 32) :
    (State.latchCs s n).pending = s.pending := by
  refine State.Queue.eq ?_
  unfold State.latchCs
  dsimp -proj only
  exact ⟨by simp -proj only [↓State.setReg_pending, ↓foldl_pending, implies_true]⟩

theorem State.swapRequest_pending (s : State) (n : Fin 32) :
    (State.swapRequest s n).pending = s.pending := by
  simp only [State.swapRequest, ↓State.updAes_pending, ↓State.setFld_pending]

/-! ## Images, the schuss path and fuses -/

theorem State.setMode_pending (s : State) (m : Mode) :
    (State.setMode s m).pending = s.pending := by
  simp only [State.setMode, ↓State.raise_pending, ↓State.setFld_pending, ↓State.classifyEnd_pending, ↓apply_ite
      State.pending, ite_self]

theorem State.syncUntested_pending (s : State) :
    (State.syncUntested s).pending = s.pending := by
  simp only [State.syncUntested, ↓State.setFld_pending]

theorem State.fuseProg_pending (s : State) (v : Nat) :
    (State.fuseProg s v).pending = s.pending := by
  simp only [State.fuseProg, ↓State.setErr_pending, ↓State.setFld_pending, ↓apply_ite State.pending, ite_self]

theorem State.fuseBlown_pending (s : State) :
    (State.fuseBlown s).pending = s.pending := by
  simp only [State.fuseBlown, ↓State.setFld_pending]

theorem State.enterPdm_pending (s : State) (n : Fin 32) (test : Bool) :
    (State.enterPdm s n test).pending = s.pending := by
  unfold State.enterPdm; split <;> simp -proj only [↓State.enterStopped_pending, ↓State.setFld_pending,
      ↓State.setSapState_pending]

theorem State.leavePdm_pending (s : State) (n : Fin 32) :
    (State.leavePdm s n).pending = s.pending := by
  simp only [State.leavePdm, ↓State.enterStopped_pending, ↓State.sapCntClear_pending, ↓State.setFld_pending,
      ↓State.setSapState_pending, ↓apply_ite State.pending, ite_self]

theorem State.pdmFollow_pending (s : State) :
    (State.pdmFollow s).pending = s.pending := by
  simp -proj only [State.pdmFollow, ↓State.enterPdm_pending, ↓State.leavePdm_pending, ↓foldl_pending,
      implies_true, ↓apply_ite State.pending, ite_self]

theorem State.pdmTest_pending (s : State) (on : Bool) :
    (State.pdmTest s on).pending = s.pending := by
  simp only [State.pdmTest, ↓State.setErr_pending, ↓State.setFld_pending, ↓State.pdmFollow_pending, ↓apply_ite
      State.pending, ite_self]

theorem State.schussStart_pending (s : State) :
    (State.schussStart s).pending = s.pending := by
  simp -proj only [State.schussStart, ↓State.enterPdm_pending, ↓State.outEnWrite_pending, ↓mk_pending, ↓foldl_pending,
      implies_true]

theorem State.schussFade_pending (s : State) :
    (State.schussFade s).pending = s.pending := by
  simp only [State.schussFade, ↓apply_ite State.pending, ite_self]

theorem State.endBootPhase_pending (s : State) :
    (State.endBootPhase s).pending = s.pending := by
  simp only [State.endBootPhase, ↓State.schussFade_pending, ↓State.setFld_pending, ↓apply_ite State.pending, ite_self]

theorem State.schussDone_pending (s : State) :
    (State.schussDone s).pending = s.pending := by
  simp only [State.schussDone, ↓State.raise_pending, ↓State.pdmFollow_pending, ↓apply_ite State.pending, ite_self]

theorem State.schussSum_pending (s : State) (pdm : Vector Sys2Proof.PdmIn 8) :
    (State.schussSum s pdm).2.pending = s.pending := by
  simp only [State.schussSum, ↓State.toQ31_pending]

theorem State.schussTick_pending (s : State) (pdm : Vector Sys2Proof.PdmIn 8) :
    (State.schussTick s pdm).pending = s.pending := by
  simp only [State.schussTick, ↓State.schussSum_pending, ↓apply_ite State.pending, ite_self]

theorem State.svcGone_pending (s : State) (st : Nat) :
    (State.svcGone s st).pending = s.pending := by
  simp only [State.svcGone, ↓State.crcDrop_pending, ↓State.syncUntested_pending, ↓State.setFld_pending]

theorem State.svcStopped_pending (s : State) :
    (State.svcStopped s).pending = s.pending := by
  simp only [State.svcStopped, ↓State.svcGone_pending, ↓State.raise_pending, ↓State.setMode_pending, ↓apply_ite
      State.pending, ite_self]

theorem State.suppRevert_pending (s : State) :
    (State.suppRevert s).pending = s.pending := by
  simp only [State.suppRevert, ↓State.syncUntested_pending, ↓State.setFld_pending]

theorem State.enterRecovery_pending (s : State) :
    (State.enterRecovery s).pending = s.pending := by
  simp only [State.enterRecovery, ↓State.endBootPhase_pending, ↓State.fabCtrlWrite_pending, ↓State.suppRevert_pending,
      ↓State.svcStopped_pending, ↓State.raise_pending, ↓State.setMode_pending, ↓apply_ite State.pending, ite_self]

theorem State.bootCtrlWrite_pending (recover : State → State) (v : Nat) (s : State) (hrecover : ∀ s, (recover s).pending =
    s.pending) :
    (State.bootCtrlWrite recover v s).pending = s.pending := by
  simp only [State.bootCtrlWrite, ↓State.setErr_pending, ↓State.svcStopped_pending, ↓State.endBootPhase_pending, hrecover,
      ↓apply_ite State.pending, ite_self]

theorem State.setLoad_pending (s : State) (st : Nat) :
    (State.setLoad s st).pending = s.pending := by
  simp only [↓State.setFld_pending]

theorem State.loadOpen_pending (s : State) (p : Fin 4) (kind : Nat) :
    (State.loadOpen s p kind).pending = s.pending := by
  simp only [State.loadOpen, ↓State.setErr_pending, ↓State.suppRevert_pending, ↓State.setFld_pending,
      ↓apply_ite State.pending, ite_self]

theorem State.windowWrite_pending (s : State) (p : Fin 4) (w v : Nat) :
    (State.windowWrite s p w v).pending = s.pending := by
  unfold State.windowWrite; split <;> simp -proj only [↓State.setErr_pending, ↓State.setMemWord_pending, ↓apply_ite State.pending, ite_self]

theorem State.loadEnd_pending (s : State) :
    (State.loadEnd s).pending = s.pending := by
  unfold State.loadEnd; split <;> simp -proj only [↓State.waitOver_pending, ↓State.setLoad_pending, ↓mk_pending]

theorem State.checkRequest_pending (s : State) (p : Fin 4) (start : Bool) :
    (State.checkRequest s p start).pending = s.pending := by
  simp only [State.checkRequest, ↓State.setErr_pending, ↓State.setFld_pending, ↓apply_ite
      State.pending, ite_self]

theorem State.loadCtrlWrite_pending (s : State) (p : Fin 4) (v : Nat) :
    (State.loadCtrlWrite s p v).pending = s.pending := by
  simp -proj only [State.loadCtrlWrite, ↓State.setFld_pending, ↓State.loadOpen_pending, ↓State.checkRequest_pending, ↓apply_ite State.pending, ite_self]; (repeat'
      split) <;> simp -proj only [↓State.setFld_pending, ↓State.loadEnd_pending, ↓State.setErr_pending]

theorem State.checkEnd_pending (s : State) (start : Bool) :
    (State.checkEnd s start).2.pending = s.pending := by
  simp -proj only [State.checkEnd, ↓State.raise_pending, ↓State.setFld_pending, ↓mk_pending]
  split <;> simp -proj only [↓State.raise_pending, ↓State.setFld_pending, ↓mk_pending, snd_mk, ↓apply_ite Prod.snd, ↓apply_ite State.pending, ite_self]

theorem State.untestedStart_pending (s : State) (i : Image) :
    (State.untestedStart s i).pending = s.pending := by
  simp only [State.untestedStart, ↓State.raise_pending, ↓State.syncUntested_pending, ↓apply_ite State.pending, ite_self]

theorem State.svcRun_pending (s : State) (i : Image) :
    (State.svcRun s i).pending = s.pending := by
  simp only [State.svcRun, ↓State.setFld_pending, ↓State.classifyAll_pending, ↓State.raise_pending,
      ↓State.setMode_pending, ↓State.untestedStart_pending]

theorem State.suppRun_pending (s : State) (i : Image) :
    (State.suppRun s i).pending = s.pending := by
  simp only [State.suppRun, ↓State.untestedStart_pending, ↓State.setFld_pending]

theorem State.reply_pending (s : State) (id service port status : Nat) (data : List Byte) :
    (State.reply s id service port status data).pending = s.pending := by
  simp only [State.reply, ↓State.ringPut_pending, ↓State.ringTake_pending]

theorem State.serve_pending (s : State) (service : Nat) (f : State → List Byte → State × List Byte)
    (hf : ∀ s bs, (f s bs).1.pending = s.pending) : (s.serve service f).pending = s.pending := by
  unfold State.serve
  split
  · split
    · exact (State.reply_pending ..).trans (hf ..)
    · rfl
  · rfl

theorem State.freeWords16_pending (s : State) (n : Nat) : (s.freeWords16 n).2.pending = s.pending := by
  induction n generalizing s with
  | zero => rfl
  | succ n ih => exact (ih _).trans (State.free_pending s 65536)

/-! ## Domains and resets -/

theorem State.updDom_pending (s : State) (d : Nat) (f : Dom → Dom) :
    (State.updDom s d f).pending = s.pending := mk_pending ..

theorem State.setDom_pending (s : State) (d : Nat) (p : DomPhase) :
    (State.setDom s d p).pending = s.pending := by
  simp only [↓State.updDom_pending]

theorem State.dropRange_pending (s : State) (lo hi : Nat) :
    (State.dropRange s lo hi).pending = s.pending := mk_pending ..

theorem State.dropPage_pending (s : State) (p : Nat) :
    (State.dropPage s p).pending = s.pending := by
  simp only [↓State.dropRange_pending]

theorem State.sessionDrop_pending (s : State) (p : Fin 4) :
    (State.sessionDrop s p).pending = s.pending := by
  simp only [State.sessionDrop, ↓State.tdacGiveUp_pending, ↓State.crcDrop_pending, ↓State.loadEnd_pending, ↓apply_ite
      State.pending, ite_self]

theorem State.protocolLost_pending (s : State) :
    (State.protocolLost s).pending = s.pending := by
  simp -proj only [State.protocolLost, ↓State.sessionDrop_pending, ↓State.swapDrop_pending, ↓mk_pending, ↓foldl_pending,
      implies_true, ↓apply_ite State.pending, ite_self]

theorem State.cmemLost_pending (s : State) :
    (State.cmemLost s).pending = s.pending := by
  simp only [State.cmemLost, ↓State.clearMem_pending, ↓State.protocolLost_pending, ↓State.setFld_pending]

theorem State.coreFresh_pending (s : State) :
    (State.coreFresh s).pending = s.pending := by
  simp -proj only [State.coreFresh, ↓State.protocolLost_pending, ↓State.setFld_pending, ↓mk_pending, ↓foldl_pending,
      implies_true]

theorem State.supFresh_pending (s : State) (phase : Bool) :
    (State.supFresh s phase).pending = s.pending := by
  simp only [State.supFresh, ↓State.setFld_pending]

theorem State.portgFresh_pending (s : State) (k : Nat) :
    (State.portgFresh s k).pending = s.pending := by
  simp only [State.portgFresh, ↓State.clearMem_pending, ↓apply_ite State.pending, ite_self]

theorem State.domFresh_pending (s : State) (d : Nat) :
    (State.domFresh s d).pending = s.pending := by
  simp -proj only [State.domFresh, ↓State.classifyEnd_pending, ↓State.dropPage_pending, ↓State.supFresh_pending,
      ↓State.coreFresh_pending, ↓State.dropRange_pending, ↓State.cmemLost_pending, ↓State.clearMem_pending,
      ↓State.portgFresh_pending, ↓mk_pending, ↓foldl_pending, implies_true, ↓apply_ite State.pending, ite_self]

theorem State.startLower_pending (s : State) (d : Nat) (off : Bool) :
    (State.startLower s d off).pending = s.pending := by
  simp only [State.startLower, ↓State.updDom_pending, ↓State.tdacLeaves_pending, ↓apply_ite State.pending, ite_self]

theorem State.endLower_pending (s : State) (d : Nat) (off : Bool) :
    (State.endLower s d off).pending = s.pending := by
  simp only [State.endLower, ↓State.setDom_pending, ↓State.domFresh_pending, ↓State.ampsysApply_pending,
      ↓State.enterCoarse_pending, ↓apply_ite State.pending, ite_self]

theorem State.reachOn_pending (s : State) (d : Nat) (fromOff : Bool) :
    (State.reachOn s d fromOff).pending = s.pending := by
  refine State.Queue.eq ?_
  unfold State.reachOn
  dsimp -proj only
  exact ⟨by simp -proj only [↓State.bumpVer_pending, ↓State.domFresh_pending, ↓State.setDom_pending,
      ↓State.ampsysApply_pending, ↓State.hkaStart_pending, ↓State.svcWake_pending, ↓State.flushEvents_pending,
      ↓State.pdmFollow_pending, ↓mk_pending, ↓foldl_pending, implies_true, ↓apply_ite State.pending, ite_self]⟩

theorem State.retLost_pending (s : State) (d : Nat) :
    (State.retLost s d).pending = s.pending := by
  refine State.Queue.eq ?_
  unfold State.retLost
  dsimp -proj only
  exact ⟨by simp -proj only [↓State.bumpVer_pending, ↓State.setFld_pending, ↓State.setDom_pending,
      ↓State.protocolLost_pending, ↓State.cmemLost_pending, ↓State.domFresh_pending, ↓foldl_pending,
      implies_true, ↓apply_ite State.pending, ite_self]⟩

theorem State.brownout_pending (s : State) (lost : List (Fin 27)) :
    (State.brownout s lost).pending = s.pending := by
  simp -proj only [State.brownout, ↓State.raise_pending, ↓State.countSat_pending, ↓State.setFld_pending,
      ↓State.retLost_pending, ↓foldl_pending, implies_true, ↓apply_ite State.pending, ite_self]

theorem State.takeFuses_pending (s : State) :
    (State.takeFuses s).pending = s.pending := by
  simp only [State.takeFuses, ↓State.setErr_pending, ↓apply_ite State.pending, ite_self]

theorem State.fullReset_pending (s : State) (src : ResetSource) :
    (State.fullReset s src).pending = s.pending := by
  simp only [State.fullReset, ↓State.setFld_pending]

theorem State.resetTargets_pending (s : State) :
    (State.resetTargets s).pending = s.pending := by
  simp -proj only [State.resetTargets, ↓State.setFld_pending, ↓foldl_pending, implies_true]

theorem State.hostReset_pending (s : State) (src : ResetSource) :
    (State.hostReset s src).pending = s.pending := by
  simp only [State.hostReset, ↓State.resetTargets_pending, ↓State.setBit_pending]

theorem State.deviceReset_pending (s : State) (src : ResetSource) :
    (State.deviceReset s src).pending = s.pending := by
  unfold State.deviceReset; split <;> simp -proj only [↓State.fullReset_pending, ↓State.hostReset_pending]

theorem State.schussBoot_pending (s : State) :
    (State.schussBoot s).pending = s.pending := by
  simp only [State.schussBoot, ↓State.setFld_pending, ↓State.reachOn_pending, ↓State.schussStart_pending, ↓apply_ite
      State.pending, ite_self]

theorem State.bootUp_pending (s0 : State) :
    (State.bootUp s0).pending = s0.pending := by
  simp only [State.bootUp, ↓State.takeFuses_pending, ↓State.flushEvents_pending, ↓State.hkaStart_pending,
      ↓State.leaveCoarse_pending, ↓State.schussBoot_pending, ↓State.setFld_pending, ↓apply_ite State.pending, ite_self]

theorem State.recover_pending (s : State) :
    (State.recover s).pending = s.pending := by
  simp -proj only [State.recover, ↓apply_ite
      State.pending]; (repeat' split) <;> simp -proj only [↓State.enterRecovery_pending,
      ↓State.schussBoot_pending]

theorem State.resetKey_pending (s : State) (key : Nat) :
    (State.resetKey s key).pending = s.pending := by
  simp only [State.resetKey, ↓State.deviceReset_pending, ↓State.setErr_pending, ↓apply_ite State.pending, ite_self]

theorem State.padRelease_pending (s : State) (v : Nat) :
    (State.padRelease s v).pending = s.pending := by
  simp -proj only [State.padRelease, ↓State.updDom_pending, ↓State.setErr_pending, ↓foldl_pending,
      implies_true, ↓apply_ite State.pending, ite_self]

end Sys2Proof.Machine
end

section
/-!
PROOFS. No command changes the queue of the commands behind it (98_reader.md): register writes and reads, power changes and
    transactions.
-/
namespace Sys2Proof.Machine

/-! ## Register writes -/

theorem State.headerWrite_pending (s : State) (g o v : Nat) :
    (State.headerWrite s g o v).pending = s.pending := by
  simp only [State.headerWrite, ↓State.evtClear_pending, ↓State.evtEnable_pending, ↓State.evtForce_pending,
      ↓State.errClear_pending, ↓apply_ite State.pending, ite_self]

theorem State.domCtrlWrite_pending (s : State) (d v : Nat) :
    (State.domCtrlWrite s d v).pending = s.pending := by
  simp only [State.domCtrlWrite, ↓State.store_pending, ↓State.setFld_pending, ↓apply_ite State.pending, ite_self]

theorem State.pwrWrite_pending (s : State) (o v : Nat) :
    (State.pwrWrite s o v).pending = s.pending := by
  simp only [State.pwrWrite, ↓State.domCtrlWrite_pending, ↓State.padRelease_pending, ↓State.store_pending, ↓apply_ite
      State.pending, ite_self]

theorem State.clkWrite_pending (s : State) (o v : Nat) :
    (State.clkWrite s o v).pending = s.pending := by
  simp only [State.clkWrite, ↓State.coreWrite_pending, ↓State.refSelWrite_pending, ↓State.monCfgWrite_pending,
      ↓State.store_pending, ↓apply_ite State.pending, ite_self]

theorem State.grpRegWrite_pending (s : State) (g : Fin 8) (o v : Nat) :
    (State.grpRegWrite s g o v).pending = s.pending := by
  simp only [State.grpRegWrite, ↓State.grpWrite_pending, ↓State.evtClear_pending, ↓State.evtEnable_pending,
      ↓State.store_pending, ↓apply_ite State.pending, ite_self]

theorem State.timeWrite_pending (s : State) (o v : Nat) :
    (State.timeWrite s o v).pending = s.pending := by
  simp only [State.timeWrite, ↓State.ensCtrlWrite_pending, ↓State.grpRegWrite_pending, ↓State.store_pending, ↓apply_ite
      State.pending, ite_self]

theorem State.bootWrite_pending (s : State) (p : Fin 4) (o v : Nat) : (s.bootWrite p o v).pending = s.pending := by
  unfold State.bootWrite
  split
  · split
    · rfl
    · exact State.store_pending ..
  · split
    · exact State.loadCtrlWrite_pending ..
    · split
      · exact State.bootCtrlWrite_pending _ _ _ State.recover_pending
      · split
        · exact State.windowWrite_pending ..
        · exact State.store_pending ..

theorem State.setXport_pending (s : State) (k : Fin 4) (x : Nat) :
    (State.setXport s k x).pending = s.pending := by
  simp only [State.setXport]

theorem State.cpWrite_pending (s : State) (p k : Fin 4) (o v : Nat) :
    (State.cpWrite s p k o v).pending = s.pending := by
  simp only [State.cpWrite, ↓State.store_pending, ↓State.setXport_pending, ↓apply_ite State.pending, ite_self]

theorem State.ringWrite_pending (s : State) (p : Fin 4) (o v : Nat) :
    (State.ringWrite s p o v).pending = s.pending := by
  simp only [State.ringWrite, ↓State.ringCfgWrite_pending, ↓State.ringIndexWrite_pending, ↓State.ringWmWrite_pending,
      ↓State.store_pending, ↓apply_ite State.pending, ite_self]

theorem State.crcRegWrite_pending (s : State) (p : Fin 4) (o v : Nat) :
    (State.crcRegWrite s p o v).pending = s.pending := by
  simp only [State.crcRegWrite, ↓State.crcSet_pending, ↓State.crcWrite_pending, ↓State.crcFeed_pending,
      ↓State.crcOwnRequest_pending, ↓State.crcOwnRelease_pending, ↓apply_ite State.pending, ite_self]

theorem State.dumpRelease_pending (s : State) :
    (State.dumpRelease s).pending = s.pending := by
  simp only [State.dumpRelease, ↓State.setFld_pending, ↓apply_ite State.pending, ite_self]

theorem State.dumpStream_pending (s : State) :
    (State.dumpStream s).pending = s.pending := by
  simp only [State.dumpStream, ↓apply_ite State.pending, ite_self]

theorem State.dumpCtrlWrite_pending (s : State) (v : Nat) :
    (State.dumpCtrlWrite s v).pending = s.pending := by
  simp only [State.dumpCtrlWrite, ↓State.dumpRelease_pending, ↓State.dumpStream_pending, ↓apply_ite State.pending, ite_self]

theorem State.fabWrite_pending (s : State) (o v : Nat) :
    (State.fabWrite s o v).pending = s.pending := by
  simp only [State.fabWrite, ↓State.fabCtrlWrite_pending, ↓State.swapApply_pending, ↓State.copyStart_pending,
      ↓State.checkStart_pending, ↓State.store_pending, ↓apply_ite State.pending, ite_self]

theorem State.asrcRegWrite_pending (s : State) (o v : Nat) :
    (State.asrcRegWrite s o v).pending = s.pending := by
  simp only [State.asrcRegWrite, ↓State.asrcWrite_pending, ↓State.store_pending, ↓apply_ite State.pending, ite_self]

theorem State.aesRegWrite_pending (s : State) (n : Fin 32) (o v : Nat) :
    (State.aesRegWrite s n o v).pending = s.pending := by
  simp only [State.aesRegWrite, ↓State.sapCfgWrite_pending, ↓State.setFld_pending, ↓State.swapRequest_pending,
      ↓State.evtClear_pending, ↓State.evtEnable_pending, ↓State.store_pending, ↓apply_ite State.pending, ite_self]

theorem State.sapRegWrite_pending (s : State) (n : Fin 32) (o v : Nat) :
    (State.sapRegWrite s n o v).pending = s.pending := by
  simp only [State.sapRegWrite, ↓State.sapCtrlWrite_pending, ↓State.sapCfgWrite_pending, ↓State.sapCntClear_pending,
      ↓State.aesRegWrite_pending, ↓apply_ite State.pending, ite_self]

theorem State.pageWrite_pending (s : State) (p : Fin 4) (g o v : Nat) :
    (State.pageWrite s p g o v).pending = s.pending := by
  simp only [State.pageWrite, ↓State.headerWrite_pending, ↓State.resetKey_pending, ↓State.store_pending,
      ↓State.pwrWrite_pending, ↓State.clkWrite_pending, ↓State.timeWrite_pending, ↓State.fuseProg_pending,
      ↓State.bootWrite_pending, ↓State.pdmTest_pending, ↓State.cpWrite_pending, ↓State.ringWrite_pending,
      ↓State.crcRegWrite_pending, ↓State.dumpCtrlWrite_pending, ↓State.fabWrite_pending, ↓State.asrcRegWrite_pending,
      ↓State.ampsysWrite_pending, ↓State.hkaWrite_pending, ↓State.hkseqWrite_pending, ↓State.tdacWrite_pending,
      ↓State.sapRegWrite_pending, ↓State.ainWrite_pending, ↓State.lineWrite_pending, ↓State.hpWrite_pending,
      ↓State.ampWrite_pending, ↓apply_ite State.pending, ite_self]

theorem State.applyWrite_pending (s : State) (p : Fin 4) (a v : Nat) :
    (State.applyWrite s p a v).pending = s.pending := by
  simp only [State.applyWrite, ↓State.pageWrite_pending, ↓State.paramApply_pending, ↓State.setMemWord_pending, ↓apply_ite
      State.pending, ite_self]

/-! ## Register reads -/

theorem State.clearRc_pending (s : State) (g o : Nat) :
    (State.clearRc s g o).pending = s.pending := by
  unfold State.clearRc; split <;> simp -proj only [↓State.setReg_pending, ↓apply_ite State.pending, ite_self]

theorem State.pageRead_pending (s : State) (g o : Nat) :
    (State.pageRead s g o).pending = s.pending := by
  simp only [State.pageRead, ↓State.clearRc_pending, ↓State.latchSys_pending, ↓State.latchTick_pending,
      ↓State.latchGran_pending, ↓State.updRing_pending, ↓State.setReg_pending, ↓State.ringTake_pending,
      ↓State.latchStamp_pending, ↓State.latchCounts_pending, ↓State.latchCs_pending, ↓apply_ite State.pending, ite_self]

theorem State.readWord_pending (s : State) (p : Fin 4) (a : Nat) :
    (State.readWord s p a).2.2.pending = s.pending := by
  unfold State.readWord; (repeat' split) <;> simp -proj only [↓State.logAccess_pending, ↓State.pageRead_pending,
      snd_mk]

theorem State.readWords_pending (s : State) (p : Fin 4) (a n : Nat) : (s.readWords p a n).2.2.pending = s.pending := by
  induction n generalizing s a with
  | zero => rfl
  | succ n ih => exact (ih _ _).trans (State.readWord_pending ..)

/-! ## The words of a write -/

theorem State.appliedBytes_pending (s : State) (a : Nat) :
    (State.appliedBytes s a).2.pending = s.pending := by
  unfold State.appliedBytes; split <;> simp -proj only [↓State.freeBytes_pending, snd_mk]

theorem State.applyDirect_pending (s : State) (p : Fin 4) (a v : Nat) :
    (State.applyDirect s p a v).pending = s.pending := by
  simp only [State.applyDirect, ↓State.paramWrite_pending, ↓State.nextTick_pending, ↓State.applyWrite_pending, ↓apply_ite
      State.pending, ite_self]

theorem State.applyWords_pending (p : Fin 4) (ws : List WordOp) (s : State) :
    (State.applyWords p ws s).2.pending = s.pending := by
  induction ws generalizing s with
  | nil => rfl
  | cons w ws ih =>
    unfold State.applyWords
    dsimp only
    split
    · rfl
    · split
      · exact State.applyDirect_pending ..
      · exact (ih _).trans (State.applyDirect_pending ..)

theorem State.bumpWords_pending (s : State) (p : Fin 4) (ws : List WordOp) :
    (State.bumpWords s p ws).pending = s.pending := by
  refine State.Queue.eq ?_
  unfold State.bumpWords
  exact ⟨by simp -proj only [↓State.bumpVer_pending, ↓foldl_pending, implies_true]⟩

/-! ## Power changes -/

theorem State.changeRefused_pending (s : State) (cause d : Nat) :
    (State.changeRefused s cause d).pending = s.pending := by
  simp only [State.changeRefused, ↓State.raise_pending, ↓State.setFld_pending, ↓State.countSat_pending]

theorem State.voteRecord_pending (s : State) (d g cause : Nat) :
    (State.voteRecord s d g cause).pending = s.pending := by
  simp only [State.voteRecord, ↓State.changeRefused_pending, ↓State.countSat_pending, ↓State.setFld_pending]

theorem State.updChange_pending (s : State) (f : Change → Change) :
    (State.updChange s f).pending = s.pending := mk_pending ..

theorem State.wakeNext_pending (s : State) :
    (State.wakeNext s).pending = s.pending := by
  unfold State.wakeNext; (repeat' split) <;> simp -proj only [↓State.updChange_pending, ↓State.setDom_pending]

theorem State.leasesStop_pending (s : State) :
    (State.leasesStop s).pending = s.pending := mk_pending ..

theorem State.lowerNext_pending (s : State) :
    (State.lowerNext s).pending = s.pending := by
  unfold State.lowerNext; (repeat' split) <;> simp -proj only [↓State.startLower_pending, ↓State.leasesStop_pending]

theorem State.liftStart_pending (s : State) :
    (State.liftStart s).pending = s.pending := by
  simp only [State.liftStart, ↓State.wakeNext_pending, ↓apply_ite State.pending, ite_self]

theorem State.wakersRetry_pending (s : State) :
    (State.wakersRetry s).pending = s.pending := by
  simp only [State.wakersRetry]

theorem State.changeEnd_pending (s : State) (done : Bool) :
    (State.changeEnd s done).pending = s.pending := by
  simp only [State.changeEnd, ↓State.wakersRetry_pending, ↓State.liftStart_pending, ↓State.raise_pending, ↓apply_ite
      State.pending, ite_self]

theorem State.lowerOn_pending (s : State) :
    (State.lowerOn s).pending = s.pending := by
  unfold State.lowerOn; (repeat' split) <;> simp -proj only [↓State.changeEnd_pending, ↓State.lowerNext_pending]

theorem State.lowerDone_pending (s : State) :
    (State.lowerDone s).pending = s.pending := by
  unfold State.lowerDone; split <;> simp -proj only [↓State.lowerOn_pending, ↓State.updChange_pending,
      ↓State.endLower_pending]

theorem State.wakesUndo_pending (s : State) :
    (State.wakesUndo s).pending = s.pending := by
  simp only [State.wakesUndo, ↓State.lowerOn_pending, ↓State.updChange_pending]

/-! ## Transactions -/

theorem State.updBib_pending (s : State) (k : Nat) (f : Bib → Bib) :
    (State.updBib s k f).pending = s.pending := mk_pending ..

theorem State.takeBib_pending (s : State) (p : Fin 4) (implicit : Bool) :
    (State.takeBib s p implicit).2.pending = s.pending := by
  unfold State.takeBib; split <;> simp -proj only [↓State.updBib_pending, ↓mk_pending, snd_mk]

theorem State.retireAfter_pending (s : State) (k : Nat) :
    (State.retireAfter s k).pending = s.pending := by
  simp only [State.retireAfter]

theorem State.entryPut_pending (s : State) (e : Entry) :
    (State.entryPut s e).pending = s.pending := by
  simp only [State.entryPut, ↓State.setMemWord_pending]

theorem State.entryClear_pending (s : State) (e : Entry) :
    (State.entryClear s e).pending = s.pending := by
  simp only [State.entryClear, ↓State.free_pending, ↓State.setMemWord_pending]

theorem State.freeBib_pending (s : State) (k : Nat) :
    (State.freeBib s k).pending = s.pending := by
  simp -proj only [State.freeBib, ↓State.updBib_pending, ↓State.entryClear_pending, ↓mk_pending, ↓foldl_pending,
      implies_true]

theorem State.dropEntries_pending (s : State) (v : Nat) :
    (State.dropEntries s v).pending = s.pending := by
  simp -proj only [State.dropEntries, ↓State.entryClear_pending, ↓mk_pending, ↓foldl_pending, implies_true]

theorem State.stageWords_pending (s : State) (k : Nat) (ws : List WordOp) :
    (State.stageWords s k ws).pending = s.pending := by
  simp -proj only [State.stageWords, ↓State.entryPut_pending, ↓State.updBib_pending, ↓mk_pending, ↓foldl_pending,
      implies_true]

theorem State.tellOutcome_pending (s : State) (k : Nat) :
    (State.tellOutcome s k).pending = s.pending := by
  simp only [State.tellOutcome, ↓State.waitOver_pending]

theorem State.abortBib_pending (s : State) (k status last : Nat) :
    (State.abortBib s k status last).pending = s.pending := by
  simp only [State.abortBib, ↓State.updBib_pending, ↓State.dropEntries_pending, ↓State.countSat_pending,
      ↓State.setFld_pending, ↓State.setReg_pending, ↓State.raiseWith_pending, ↓State.raise_pending,
      ↓State.retireAfter_pending, ↓State.tellOutcome_pending, ↓State.freeBib_pending, ↓apply_ite State.pending, ite_self]

theorem State.implicitTold_pending (s : State) (k status : Nat) :
    (State.implicitTold s k status).pending = s.pending := by
  simp only [State.implicitTold, ↓State.waitOver_pending]

theorem State.endImplicit_pending (s : State) (k status : Nat) :
    (State.endImplicit s k status).pending = s.pending := by
  simp only [State.endImplicit, ↓State.freeBib_pending, ↓State.dropEntries_pending, ↓State.implicitTold_pending]

theorem State.failBib_pending (s : State) (k status last : Nat) :
    (State.failBib s k status last).pending = s.pending := by
  simp only [State.failBib, ↓State.endImplicit_pending, ↓State.abortBib_pending, ↓apply_ite State.pending, ite_self]

theorem State.commitBib_pending (s : State) (k tick : Nat) :
    (State.commitBib s k tick).pending = s.pending := by
  simp only [State.commitBib, ↓State.updBib_pending, ↓State.implicitTold_pending, ↓State.countWrap_pending,
      ↓State.raiseWith_pending, ↓State.retireAfter_pending, ↓State.tellOutcome_pending, ↓apply_ite State.pending, ite_self]

theorem State.ahead_pending (s : State) (p : Nat → Bool) (ws : List WordOp) :
    (State.ahead s p ws).pending = s.pending := by
  simp -proj only [State.ahead, ↓State.store_pending, ↓foldl_pending, implies_true]

theorem State.swapAdmit_pending (s : State) (ws : List WordOp) : (s.swapAdmit ws).2.pending = s.pending := by
  have hc := State.swapCheck_pending s ((s.ahead (· == Adr.FAB_XOVER) ws).fld Fd.FAB_XOVER_TICKS)
  unfold State.swapAdmit
  generalize s.swapCheck ((s.ahead (· == Adr.FAB_XOVER) ws).fld Fd.FAB_XOVER_TICKS) = z at hc ⊢
  obtain ⟨c, t⟩ := z
  split
  · rfl
  · split
    · cases c with
      | refused => exact hc
      | overBudget => exact hc
      | good p a => exact (State.swapPend_pending ..).trans hc
    · cases c with
      | refused => exact hc
      | overBudget => exact hc
      | good p a => exact (State.swapPend_pending ..).trans hc
    all_goals rfl

theorem State.grpHold_pending (g : Fin 8) (s : State) (w : WordOp) :
    (State.grpHold g s w).pending = s.pending := by
  simp only [State.grpHold, ↓State.hold_pending]

theorem State.grpStaged_pending (s : State) (g : Fin 8) (ws : List WordOp) :
    (State.grpStaged s g ws).2.pending = s.pending := by
  simp -proj only [State.grpStaged, ↓State.grpHold_pending, ↓State.reserveGrp_pending, ↓foldl_pending, implies_true, snd_mk, ↓apply_ite Prod.snd, ↓apply_ite State.pending,
      ite_self]

theorem State.groupsAhead_pending (ws : List WordOp) (s : State) : (State.groupsAhead ws s).2.pending = s.pending := by
  unfold State.groupsAhead
  refine (foldl_through (fun x : Bool × State => x.2) _ (fun x g => ?_) _ _).trans (foldl_pending _ (fun t w => ?_) _ _)
  · exact State.grpStaged_pending x.2 g ws
  · exact State.hold_pending ..

theorem State.changeBegin_pending (s : State) (k : Nat) (chg : List (Nat × Nat)) :
    (State.changeBegin s k chg).pending = s.pending := by
  simp only [State.changeBegin]

theorem State.bibPassed_pending (s : State) (k : Nat) :
    (State.bibPassed s k).pending = s.pending := by
  simp only [State.bibPassed, ↓State.updBib_pending, ↓State.wakeNext_pending, ↓State.updChange_pending, ↓apply_ite
      State.pending, ite_self]

theorem State.bibFails_pending (s : State) (k status last : Nat) (swap : Bool) :
    (State.bibFails s k status last swap).pending = s.pending := by
  simp only [State.bibFails, ↓State.failBib_pending, ↓State.swapDrop_pending, ↓apply_ite State.pending, ite_self]

theorem State.startsIn_pending (s t : State) : (s.startsIn t).pending = t.pending :=
  foldl_pending _ (fun u n => foldl_pending _ (fun v k => by
    split
    · exact State.updLine_pending ..
    · rfl) _ _) _ _

theorem State.applyEntries_pending (s : State) (k : Nat) :
    (State.applyEntries s k).pending = s.pending := by
  simp -proj only [State.applyEntries, ↓State.applyWrite_pending, ↓State.grpApply_pending, ↓State.grpStaged_pending,
      ↓State.swapApply_pending, ↓foldl_pending, implies_true, ↓apply_ite State.pending, ite_self]

theorem State.spendEntries_pending (s : State) (k : Nat) :
    (State.spendEntries s k).pending = s.pending := mk_pending ..

theorem State.applyBib_pending (s : State) (k : Nat) : (s.applyBib k).pending = s.pending := by
  refine State.inOneCycle_pending _ _ fun s => ?_
  have hs : s.Queue s.pending := ⟨rfl⟩
  have hd : (if s.swapStaged (s.opsOf k) then s.swapDrop else s).Queue s.pending := by
    split
    · exact hs.of (State.swapDrop_pending ..)
    · exact hs
  refine State.Queue.eq ?_
  dsimp -proj only
  split
  · exact hd.of ((State.failBib_pending ..).trans (State.wakesUndo_pending ..))
  · split
    · refine State.Queue.of ?_ (State.failBib_pending ..)
      generalize (if s.swapStaged (s.opsOf k) then s.swapDrop else s) = t at hd ⊢
      split
      · exact hd.of (State.changeEnd_pending ..)
      · exact hd
    · have hu (g : Bib → Bib) : ((((s.pagesOf k).foldl State.bumpVer ((s.updBib k g).startsIn
          ((s.updBib k g).applyEntries k))).spendEntries k).commitBib k s.applyTick).Queue s.pending :=
        hs.of ((State.commitBib_pending ..).trans ((State.spendEntries_pending ..).trans ((foldl_pending _
            State.bumpVer_pending _ _).trans
          ((State.startsIn_pending ..).trans ((State.applyEntries_pending ..).trans (State.updBib_pending ..))))))
      split
      · exact (hu _).of (State.updChange_pending ..)
      · exact hu _

theorem State.tickClose_pending (s : State) :
    (State.tickClose s).pending = s.pending := by
  simp -proj only [State.tickClose, ↓State.entryClear_pending, ↓State.lowerOn_pending, ↓mk_pending, ↓foldl_pending,
      implies_true]

theorem State.applyAtOnce_pending (s : State) (k : Nat) :
    (State.applyAtOnce s k).pending = s.pending := by
  simp only [State.applyAtOnce, ↓State.tickClose_pending, ↓State.applyBib_pending, ↓State.flushParams_pending, ↓apply_ite
      State.pending, ite_self]

theorem State.voteWon_pending (s : State) (k : Nat) :
    (State.voteWon s k).pending = s.pending := by
  simp only [State.voteWon, ↓State.applyAtOnce_pending, ↓State.bibPassed_pending]

theorem State.bibChecks_pending (s : State) (k now edge : Nat) : (s.bibChecks k now edge).pending = s.pending := by
  unfold State.bibChecks
  dsimp only
  split
  · exact State.failBib_pending ..
  · split
    · exact State.failBib_pending ..
    · have ha := State.swapAdmit_pending s (s.opsOf k)
      generalize s.swapAdmit (s.opsOf k) = z at ha ⊢
      obtain ⟨st, t⟩ := z
      dsimp only at ha
      cases st with
      | some st => exact (State.failBib_pending ..).trans ha
      | none =>
        dsimp only
        split
        · exact (State.bibFails_pending ..).trans ha
        · have hu (f : Bib → Bib) := (State.updBib_pending t k f).trans ha
          split
          · exact (State.applyAtOnce_pending ..).trans ((State.bibPassed_pending ..).trans (hu _))
          · split
            · exact (State.bibFails_pending ..).trans ((State.changeRefused_pending ..).trans (hu _))
            · split
              · exact (State.voteWon_pending ..).trans ((State.changeBegin_pending ..).trans (hu _))
              · exact (State.changeBegin_pending ..).trans (hu _)

theorem State.validate_pending (s : State) (k now edge : Nat) :
    (State.validate s k now edge).pending = s.pending := by
  simp only [State.validate, ↓State.updBib_pending, ↓State.bibChecks_pending, ↓apply_ite State.pending, ite_self]

theorem State.abortPending_pending (s : State) (p : Fin 4) (status : Nat) :
    (State.abortPending s p status).pending = s.pending := by
  simp -proj only [State.abortPending, ↓State.abortBib_pending, ↓foldl_pending, implies_true, ↓apply_ite
      State.pending, ite_self]

theorem State.retirePort_pending (s : State) (p : Fin 4) :
    (State.retirePort s p).pending = s.pending := by
  simp -proj only [State.retirePort, ↓State.freeBib_pending, ↓State.updBib_pending, ↓foldl_pending,
      implies_true, ↓apply_ite State.pending, ite_self]

theorem State.voteLost_pending (s : State) (cause : Nat) :
    (State.voteLost s cause).pending = s.pending := by
  unfold State.voteLost; (repeat' split) <;> simp -proj only [↓State.liftStart_pending, ↓State.wakersRetry_pending,
      ↓State.bibFails_pending, ↓State.voteRecord_pending, ↓mk_pending]

theorem State.voteAnswer_pending (s : State) (arriving : Bool) :
    (State.voteAnswer s arriving).pending = s.pending := by
  unfold State.voteAnswer; (repeat' split) <;> simp -proj only [↓State.voteLost_pending, ↓State.updChange_pending,
      ↓State.voteWon_pending, ↓apply_ite State.pending, ite_self]

theorem State.targetsOn_pending (s : State) (ds : List Nat) :
    (State.targetsOn s ds).pending = s.pending := by
  simp -proj only [State.targetsOn, ↓State.bumpVer_pending, ↓State.setFld_pending, ↓foldl_pending, implies_true]

theorem State.wakesOver_pending (s : State) :
    (State.wakesOver s).pending = s.pending := by
  simp -proj only [State.wakesOver]; (repeat' split) <;> simp
      -proj only [↓State.updChange_pending, ↓State.changeEnd_pending, ↓State.targetsOn_pending, ↓State.wakersRetry_pending,
      ↓State.raise_pending, ↓State.applyAtOnce_pending]

theorem State.accessApply_pending (s : State) :
    (State.accessApply s).pending = s.pending := by
  simp -proj only [State.accessApply]; (repeat' split) <;> simp -proj only [↓State.changeEnd_pending, ↓State.targetsOn_pending,
      ↓State.freeBib_pending]

theorem State.missedValidations_pending (s : State) :
    (State.missedValidations s).pending = s.pending := by
  simp only [State.missedValidations]

theorem State.wakeDone_pending (s : State) :
    (State.wakeDone s).pending = s.pending := by
  unfold State.wakeDone; (repeat' split) <;> simp -proj only [↓State.missedValidations_pending, ↓State.reachOn_pending,
      ↓State.wakesOver_pending, ↓State.accessApply_pending, ↓State.wakeNext_pending, ↓apply_ite State.pending,
      ite_self]

end Sys2Proof.Machine
end

section
/-!
PROOFS. No command changes the queue of the commands behind it (98_reader.md): sessions, operations, frames and ticks.
-/
namespace Sys2Proof.Machine

/-! ## Sessions -/

theorem State.ringEmpty_pending (s : State) (i : Nat) :
    (State.ringEmpty s i).pending = s.pending := by
  simp only [State.ringEmpty, ↓State.updRing_pending]

theorem State.ringFrame_pending (s : State) (i : Nat) :
    (State.ringFrame s i).pending = s.pending := by
  simp only [State.ringFrame, ↓State.freeBytes_pending, ↓State.ringGive_pending, ↓State.setBytes_pending]

theorem State.coreGoesOn_pending (s : State) (p : Fin 4) :
    (State.coreGoesOn s p).pending = s.pending := by
  unfold State.coreGoesOn; (repeat' split) <;> simp -proj only [↓State.lowerOn_pending, ↓mk_pending]

theorem State.startFrame_pending (s : State) (p : Fin 4) :
    (State.startFrame s p).pending = s.pending := by
  simp only [State.startFrame, ↓State.updPort_pending]

theorem State.voidNext_pending (p : Fin 4) (n : Nat) (s : State) : (State.voidNext p n s).pending = s.pending := by
  induction n generalizing s with
  | zero => rfl
  | succ n ih =>
    unfold State.voidNext
    split
    · split
      · exact (ih _).trans ((State.startFrame_pending ..).trans (State.updPort_pending ..))
      · rfl
    · rfl

theorem State.countsReset_pending (s : State) (p : Fin 4) :
    (State.countsReset s p).pending = s.pending := by
  simp only [State.countsReset, ↓State.updPort_pending, ↓State.voidNext_pending, ↓State.ringEmpty_pending]

theorem State.leaseStart_pending (s : State) (p : Fin 4) (ms : Nat) :
    (State.leaseStart s p ms).pending = s.pending := by
  simp only [State.leaseStart, ↓State.updPort_pending]

theorem State.leaseAt_pending (s : State) (p : Fin 4) (left : Nat) :
    (State.leaseAt s p left).pending = s.pending := by
  simp only [State.leaseAt, ↓State.updPort_pending]

theorem State.claimsFree_pending (s : State) (p : Fin 4) :
    (State.claimsFree s p).pending = s.pending := mk_pending ..

theorem State.sessionLeave_pending (s : State) (p : Fin 4) (x : Session) :
    (State.sessionLeave s p x).pending = s.pending := by
  simp only [State.sessionLeave, ↓State.updPort_pending]

theorem State.sessionClose_pending (s : State) (p : Fin 4) : (s.sessionClose p).pending = s.pending := by
  unfold State.sessionClose
  split
  · exact State.inOneCycle_pending _ _ fun s => (State.raise_pending ..).trans ((State.sessionLeave_pending ..).trans
      ((State.countsReset_pending ..).trans ((State.sessionDrop_pending ..).trans ((State.claimsFree_pending ..).trans
        (State.abortPending_pending ..)))))
  · rfl

theorem State.sessionExpire_pending (s : State) (p : Fin 4) : (s.sessionExpire p).pending = s.pending :=
  State.inOneCycle_pending _ _ fun s => (State.coreGoesOn_pending ..).trans ((State.raise_pending ..).trans
    ((State.countSat_pending ..).trans ((State.leaseAt_pending ..).trans ((State.sessionLeave_pending ..).trans
      ((State.countsReset_pending ..).trans ((State.sessionDrop_pending ..).trans (State.abortPending_pending ..)))))))

theorem State.graceEnd_pending (s : State) (p : Fin 4) :
    (State.graceEnd s p).pending = s.pending := by
  simp only [State.graceEnd, ↓State.raise_pending, ↓State.sessionLeave_pending, ↓State.claimsFree_pending]

theorem State.acceptFrame_pending (s : State) (p : Fin 4) (seq : Nat) (body : List Byte) (ops : List Instr) :
    (State.acceptFrame s p seq body ops).pending = s.pending := by
  simp only [State.acceptFrame, ↓State.leaseStart_pending, ↓State.ringFrame_pending, ↓State.countWrap_pending,
      ↓State.updPort_pending, ↓State.startFrame_pending, ↓apply_ite State.pending, ite_self]

theorem State.helloAccept_pending (s : State) (p : Fin 4) (seq : Nat) (ms host : Word) (body : List Byte) :
    (s.helloAccept p seq ms host body).pending = s.pending := by
  refine State.inOneCycle_pending _ _ fun s => ?_
  simp -proj only [↓State.coreGoesOn_pending, ↓State.acceptFrame_pending, ↓State.raise_pending, ↓apply_ite State.pending,
    ↓State.ringEmpty_pending, ↓State.updPort_pending, ↓State.countsReset_pending, ↓State.sessionDrop_pending,
    ↓State.claimsFree_pending, ↓State.retirePort_pending, ↓State.abortPending_pending, ite_self]

/-! ## Operations -/

theorem State.wakeFor_pending (s : State) (p : Fin 4) (d : Nat) : (s.wakeFor p d).2.pending = s.pending := by
  unfold State.wakeFor
  dsimp only
  split
  · rfl
  · have hb := State.takeBib_pending s p true
    generalize s.takeBib p true = z at hb ⊢
    obtain ⟨k, t⟩ := z
    cases k with
    | none => exact State.changeRefused_pending ..
    | some k =>
      dsimp only at hb ⊢
      split
      · exact (State.changeRefused_pending ..).trans ((State.freeBib_pending ..).trans hb)
      · exact (State.wakeNext_pending ..).trans ((mk_pending ..).trans ((State.updBib_pending ..).trans hb))

theorem State.rdRun_pending (s : State) (p : Fin 4) (a n : Nat) (down : Option Nat) :
    (s.rdRun p a n down).2.pending = s.pending := by
  unfold State.rdRun
  split
  · rfl
  · split
    · rfl
    · exact State.readWords_pending ..

theorem State.writeData_pending (s : State) (ws : List WordOp) :
    (State.writeData s ws).2.pending = s.pending := by
  unfold State.writeData; split <;> simp -proj only [↓State.appliedBytes_pending, snd_mk]

theorem State.writeRefused_pending (s : State) (ws : List WordOp) (st : Nat) :
    (State.writeRefused s ws st).2.pending = s.pending := by
  simp only [State.writeRefused, ↓State.writeData_pending]

theorem State.crcForeign_pending (s : State) (p : Fin 4) (a st : Nat) :
    (State.crcForeign s p a st).pending = s.pending := by
  simp only [State.crcForeign, ↓State.setErr_pending, ↓apply_ite State.pending, ite_self]

theorem State.wordRefused_pending (s : State) (p : Fin 4) (ws : List WordOp) (down : Option Nat) (bad : Nat × Nat × Option
    AccessKind) :
    (State.wordRefused s p ws down bad).2.pending = s.pending := by
  unfold State.wordRefused; (repeat' split) <;> simp -proj only [↓State.writeRefused_pending, ↓State.crcForeign_pending,
      ↓State.logAccess_pending, snd_mk]

theorem State.writeInto_pending (s : State) (p : Fin 4) (k : Nat) (ws : List WordOp) :
    (State.writeInto s p k ws).pending = s.pending := by
  simp only [State.writeInto, ↓State.stageWords_pending, ↓State.bumpWords_pending, ↓State.applyWords_pending]

theorem State.implicitRun_pending (s : State) (p : Fin 4) (ws : List WordOp) : (s.implicitRun p ws).2.pending = s.pending :=
    by
  unfold State.implicitRun
  have hb := State.takeBib_pending s p true
  generalize s.takeBib p true = z at hb ⊢
  obtain ⟨k, t⟩ := z
  cases k with
  | none => exact State.writeRefused_pending ..
  | some k =>
    dsimp only at hb ⊢
    split
    · exact State.writeRefused_pending ..
    · exact (State.writeInto_pending ..).trans ((State.writeData_pending ..).trans hb)

theorem State.directRun_pending (s : State) (p : Fin 4) (ws : List WordOp) (down : Option Nat) :
    (State.directRun s p ws down).2.pending = s.pending := by
  simp -proj only [State.directRun, snd_mk,
      ↓apply_ite Prod.snd, ↓apply_ite State.pending]; (repeat' split) <;> simp -proj only
      [↓State.wordRefused_pending, ↓State.implicitRun_pending, ↓State.writeData_pending, ↓State.applyWords_pending,
      ↓State.writeRefused_pending, ↓State.bumpWords_pending, snd_mk]

theorem State.stagedRun_pending (s : State) (p : Fin 4) (v : Nat) (ws : List WordOp) (down : Option Nat) :
    (State.stagedRun s p v ws down).2.pending = s.pending := by
  simp -proj only [State.stagedRun]; (repeat' split) <;> simp -proj only [↓State.writeRefused_pending,
      ↓State.wordRefused_pending, ↓State.abortBib_pending, ↓State.writeData_pending, ↓State.writeInto_pending, snd_mk]

theorem State.writeRun_pending (s : State) (p : Fin 4) (v : Nat) (ws : List WordOp) (down : Option Nat) :
    (State.writeRun s p v ws down).2.pending = s.pending := by
  simp -proj only [State.writeRun, ↓State.directRun_pending, ↓State.stagedRun_pending, ↓apply_ite Prod.snd, ↓apply_ite State.pending, ite_self]

theorem State.openRun_pending (s : State) (p : Fin 4) : (s.openRun p).2.pending = s.pending := by
  unfold State.openRun
  split
  · have hb := State.takeBib_pending s p false
    generalize s.takeBib p false = z at hb ⊢
    obtain ⟨k, t⟩ := z
    cases k with
    | none => rfl
    | some k => exact hb
  · rfl

theorem State.commitRun_pending (s : State) (p : Fin 4) (v mode time : Nat) :
    (State.commitRun s p v mode time).2.pending = s.pending := by
  unfold State.commitRun; split <;> simp -proj only [↓State.updBib_pending, ↓State.validate_pending, snd_mk, ↓apply_ite Prod.snd, ↓apply_ite State.pending, ite_self]

theorem State.abortRun_pending (s : State) (p : Fin 4) (v : Nat) :
    (State.abortRun s p v).2.pending = s.pending := by
  unfold State.abortRun; split <;> simp -proj only [↓State.abortBib_pending, snd_mk, ↓apply_ite Prod.snd, ↓apply_ite State.pending, ite_self]

theorem State.statusRun_pending (s : State) (p : Fin 4) (v : Nat) (retire : Bool) :
    (State.statusRun s p v retire).2.pending = s.pending := by
  unfold State.statusRun; split <;> simp -proj only [↓State.freeBib_pending, snd_mk, ↓apply_ite State.pending, ite_self]

theorem State.claimRun_pending (s : State) (p : Fin 4) (g : Nat) :
    (State.claimRun s p g).2.pending = s.pending := by
  unfold State.claimRun; (repeat' split) <;> simp -proj only [↓mk_pending, snd_mk]

theorem State.releaseRun_pending (s : State) (p : Fin 4) (g : Nat) :
    (State.releaseRun s p g).2.pending = s.pending := by
  unfold State.releaseRun; (repeat' split) <;> simp -proj only [↓mk_pending, snd_mk]

theorem State.pullRun_pending (s : State) (p : Fin 4) (r max : Nat) :
    (State.pullRun s p r max).2.pending = s.pending := by
  simp -proj only [State.pullRun, ↓State.ringTake_pending, snd_mk, ↓apply_ite
      Prod.snd, ↓apply_ite State.pending, ite_self]

theorem State.pushRun_pending (s : State) (p : Fin 4) (r : Nat) (bs : List Byte) :
    (State.pushRun s p r bs).2.pending = s.pending := by
  simp -proj only [State.pushRun, ↓State.ringLose_pending, ↓State.setBytes_pending, ↓State.ringHostGive_pending,
      ↓foldl_pending, implies_true, snd_mk, ↓apply_ite Prod.snd, ↓apply_ite
      State.pending, ite_self]

theorem State.leaseRun_pending (s : State) (p : Fin 4) (ms : Nat) :
    (State.leaseRun s p ms).2.pending = s.pending := by
  simp -proj only [State.leaseRun, ↓State.leaseStart_pending, snd_mk, ↓apply_ite
      Prod.snd, ↓apply_ite State.pending, ite_self]

theorem State.opBody_pending (s : State) (p : Fin 4) (op : Instr) (down : Option Nat) :
    (State.opBody s p op down).2.pending = s.pending := by
  unfold State.opBody; split <;> simp -proj only [↓State.leaseRun_pending, ↓State.rdRun_pending, ↓State.writeRun_pending,
      ↓State.freeBytes_pending, ↓State.openRun_pending, ↓State.commitRun_pending, ↓State.abortRun_pending,
      ↓State.statusRun_pending, ↓State.claimRun_pending, ↓State.releaseRun_pending, ↓State.pullRun_pending,
      ↓State.pushRun_pending, ↓State.directRun_pending, snd_mk, ↓apply_ite
      Prod.snd, ↓apply_ite State.pending, ite_self]

theorem State.opRun_pending (s : State) (p : Fin 4) (op : Instr) : (s.opRun p op).2.pending = s.pending := by
  unfold State.opRun
  have hb := State.opBody_pending s p op none
  generalize s.opBody p op none = z at hb ⊢
  obtain ⟨e, t⟩ := z
  cases e with
  | wakes d =>
    have hw := (State.wakeFor_pending t p d).trans hb
    dsimp only
    generalize t.wakeFor p d = z at hw ⊢
    obtain ⟨b, u⟩ := z
    cases b with
    | true => exact hw
    | false => exact (State.opBody_pending ..).trans hw
  | done st data => exact hb
  | waits w k => exact hb
  | gone => exact hb

theorem State.opDone_pending (s : State) (p : Fin 4) (r : OpResult) :
    (State.opDone s p r).pending = s.pending := by
  simp only [State.opDone, ↓State.updPort_pending, ↓State.voidNext_pending, ↓State.coreGoesOn_pending,
      ↓State.sessionClose_pending, ↓apply_ite State.pending, ite_self]

theorem State.headWaits_pending (s : State) (p : Fin 4) (w : Wait) :
    (State.headWaits s p w).pending = s.pending := by
  simp only [State.headWaits, ↓State.updPort_pending]

theorem State.opSettle_pending (p : Fin 4) (op : Instr) (r : OpEnd × State) :
    (State.opSettle p op r).2.pending = r.2.pending := by
  obtain ⟨e, t⟩ := r
  cases e with
  | done st data => exact State.opDone_pending ..
  | waits w k =>
    cases k with
    | none => exact State.headWaits_pending ..
    | some k => exact (State.validate_pending ..).trans (State.headWaits_pending ..)
  | wakes d => rfl
  | gone => rfl

theorem State.resumePort_pending (p : Fin 4) (n : Nat) (s : State) : (State.resumePort p n s).pending = s.pending := by
  induction n generalizing s with
  | zero => rfl
  | succ n ih =>
    have hr (op : Instr) := (State.opSettle_pending p op (s.opRun p op)).trans (State.opRun_pending ..)
    unfold State.resumePort
    split
    · rfl
    · split
      · rfl
      · next x _ _ =>
        have hx := hr x.op
        generalize State.opSettle p x.op (s.opRun p x.op) = z at hx ⊢
        dsimp only
        split
        · exact (ih _).trans (State.opDone_pending ..)
        · split
          · exact (ih _).trans hx
          · exact hx
        · split
          · exact (ih _).trans hx
          · exact hx
        all_goals rfl

theorem State.bibsGoOn_pending (s : State) :
    (State.bibsGoOn s).pending = s.pending := by
  simp -proj only [State.bibsGoOn, ↓State.validate_pending, ↓foldl_pending, implies_true, ↓apply_ite
      State.pending, ite_self]

theorem State.pumpOnce_pending (s : State) :
    (State.pumpOnce s).pending = s.pending := by
  simp -proj only [State.pumpOnce, ↓State.bibsGoOn_pending, ↓State.resumePort_pending, ↓foldl_pending,
      implies_true]

theorem State.pumpN_pending (n : Nat) (s : State) : (State.pumpN n s).pending = s.pending := by
  induction n generalizing s with
  | zero => rfl
  | succ n ih => exact (ih _).trans (State.pumpOnce_pending s)

theorem State.pump_pending (s : State) :
    (State.pump s).pending = s.pending := by
  simp only [State.pump, ↓State.pumpN_pending, ↓apply_ite State.pending, ite_self]

theorem State.tickEnd_pending (s : State) :
    (State.tickEnd s).pending = s.pending := by
  simp only [State.tickEnd, ↓State.pump_pending, ↓State.tickClose_pending]

theorem State.enqueue_pending (s : State) (p : Fin 4) (op : Instr) :
    (State.enqueue s p op).pending = s.pending := by
  simp only [State.enqueue, ↓State.pump_pending, ↓State.updPort_pending, ↓apply_ite State.pending, ite_self]

theorem State.submit_pending (s : State) (p : Fin 4) (op : Instr) :
    (State.submit s p op).pending = s.pending := by
  simp only [State.submit, ↓State.enqueue_pending, ↓apply_ite State.pending, ite_self]

theorem State.writeNow_pending (s : State) (p : Fin 4) (a v : Nat) :
    (State.writeNow s p a v).pending = s.pending := by
  simp only [State.writeNow, ↓State.enqueue_pending]

theorem State.directWriteAt_pending (s : State) (p : Fin 4) (g a v : Nat) (f : State → State)
    (hf : ∀ s, (f s).pending = s.pending) : (s.directWriteAt p g a v f).pending = s.pending := by
  unfold State.directWriteAt
  split
  · rfl
  · split
    · exact State.writeNow_pending ..
    · exact State.directPage_pending s p g a f hf

theorem State.directWrite_pending (s : State) (p : Fin 4) (a v : Nat) (f : State → State)
    (hf : ∀ s, (f s).pending = s.pending) : (s.directWrite p a v f).pending = s.pending :=
  State.directWriteAt_pending s p _ a v f hf

theorem State.applyNow_pending (s : State) (k : Nat) :
    (State.applyNow s k).pending = s.pending := by
  simp only [State.applyNow, ↓State.applyBib_pending, ↓State.flushParams_pending, ↓State.pump_pending,
      ↓State.tickClose_pending, ↓apply_ite State.pending, ite_self]

theorem State.liftNack_pending (s : State) :
    (State.liftNack s).pending = s.pending := by
  simp only [State.liftNack, ↓State.raise_pending, ↓State.countSat_pending]

/-! ## Frames of the control ports -/

theorem State.seal_pending (s : State) (p : Fin 4) (seq fstatus : Nat) (rs : List OpResult) :
    (State.seal s p seq fstatus rs).2.pending = s.pending := by
  simp only [State.seal, ↓State.crcRun_pending]

theorem State.sendUncounted_pending (s : State) (p : Fin 4) (r : Response) :
    (State.sendUncounted s p r).pending = s.pending := by
  simp only [State.sendUncounted, ↓State.updPort_pending]

theorem State.refuse_pending (s : State) (p : Fin 4) (seq st : Nat) :
    (State.refuse s p seq st).pending = s.pending := by
  unfold State.refuse; split <;> simp -proj only [↓State.countSat_pending, ↓State.seal_pending,
      ↓State.sendUncounted_pending]

theorem State.seqOf_pending (s : State) (f : List Byte) :
    (State.seqOf s f).2.pending = s.pending := by
  simp -proj only [State.seqOf, ↓State.free_pending, snd_mk, ↓apply_ite Prod.snd,
      ↓apply_ite State.pending, ite_self]

theorem State.refuseRaw_pending (s : State) (p : Fin 4) (f : List Byte) (st : Nat) :
    (State.refuseRaw s p f st).pending = s.pending := by
  simp only [State.refuseRaw, ↓State.seqOf_pending, ↓State.refuse_pending]

theorem State.ackFrame_pending (s : State) (p : Fin 4) (ack : Nat) :
    (State.ackFrame s p ack).pending = s.pending := by
  simp -proj only [State.ackFrame]
  split <;> simp -proj only [↓State.updRing_pending, ↓State.updPort_pending, ↓apply_ite State.pending, ite_self]

theorem State.replay_pending (s : State) (p : Fin 4) :
    (State.replay s p).pending = s.pending := by
  refine State.Queue.eq ?_
  unfold State.replay
  split <;> dsimp -proj only <;> exact ⟨by simp -proj only [↓State.leaseStart_pending, ↓State.countSat_pending,
      ↓State.sendUncounted_pending, ↓State.updPort_pending]⟩

theorem State.frameSteps_pending (s : State) (p : Fin 4) (seq : Nat) (body : List Byte) :
    (State.frameSteps s p seq body).pending = s.pending := by
  simp -proj only [State.frameSteps, ↓State.replay_pending, ↓apply_ite State.pending]; (repeat' split) <;> simp -proj only
      [↓State.refuse_pending, ↓State.helloAccept_pending, ↓State.acceptFrame_pending]

theorem State.wholeFrame_pending (s : State) (p : Fin 4) (ver seq ack : Nat) (body : List Byte) :
    (State.wholeFrame s p ver seq ack body).pending = s.pending := by
  simp only [State.wholeFrame, ↓State.refuse_pending, ↓State.frameSteps_pending, ↓State.ackFrame_pending, ↓apply_ite
      State.pending, ite_self]

theorem State.receive_pending (s : State) (p : Fin 4) (bs : List Byte) :
    (State.receive s p bs).pending = s.pending := by
  simp only [State.receive, ↓State.refuseRaw_pending, ↓State.crcRun_pending, ↓State.wholeFrame_pending, ↓apply_ite
      State.pending, ite_self]

theorem State.showStatus_pending (s : State) (p : Fin 4) :
    (State.showStatus s p).pending = s.pending := mk_pending ..

theorem State.transfer_pending (s : State) (p : Fin 4) (bs : List Byte) :
    (State.transfer s p bs).pending = s.pending := by
  unfold State.transfer; (repeat' split) <;> simp -proj only [↓State.refuseRaw_pending, ↓State.receive_pending,
      ↓State.showStatus_pending]

theorem State.formCounted_pending (s : State) (p : Fin 4) (seq : Nat) (rs : List OpResult) :
    (State.formCounted s p seq rs).pending = s.pending := by
  simp only [State.formCounted, ↓State.ringFrame_pending, ↓State.updRing_pending, ↓State.updPort_pending,
      ↓State.leaseAt_pending, ↓State.seal_pending, ↓State.sendUncounted_pending, ↓apply_ite State.pending, ite_self]

theorem State.respond_pending (s : State) (p : Fin 4) :
    (State.respond s p).pending = s.pending := by
  unfold State.respond; split <;> simp -proj only [↓State.startFrame_pending, ↓State.updPort_pending, ↓State.seal_pending,
      ↓State.sessionClose_pending, ↓State.coreGoesOn_pending, ↓State.sendUncounted_pending, ↓State.formCounted_pending,
      ↓apply_ite State.pending, ite_self]

theorem State.xportSettle_pending (s : State) (p : Fin 4) (r : Response) :
    (State.xportSettle s p r).pending = s.pending := by
  unfold State.xportSettle; split <;> simp -proj only [↓State.setXport_pending, ↓apply_ite State.pending,
      ite_self]

theorem State.delivered_pending (s : State) (p : Fin 4) :
    (State.delivered s p).pending = s.pending := by
  simp -proj only [State.delivered]; (repeat' split) <;> simp -proj only
      [↓State.showStatus_pending, ↓State.xportSettle_pending, ↓State.updPort_pending, ↓State.coreGoesOn_pending]

/-! ## The crash dump -/

theorem State.dumpBegin_pending (s : State) (reason : Nat) :
    (State.dumpBegin s reason).pending = s.pending := by
  simp only [State.dumpBegin, ↓State.freeBytes_pending, ↓State.setFld_pending, ↓State.setBytes_pending]

theorem State.fatal_pending (s : State) (reason : Nat) :
    (State.fatal s reason).pending = s.pending := by
  simp only [State.fatal, ↓State.dumpBegin_pending, ↓State.countSat_pending, ↓State.svcGone_pending, ↓State.raise_pending,
      ↓State.setMode_pending, ↓apply_ite State.pending, ite_self]

theorem State.dumpFinish_pending (s : State) :
    (State.dumpFinish s).pending = s.pending := by
  simp only [State.dumpFinish, ↓State.freeBytes_pending, ↓State.crcRun_pending, ↓State.setBytes_pending,
      ↓State.raise_pending, ↓State.setFld_pending]

theorem State.dumpChunk_pending (s : State) (off : Nat) :
    (State.dumpChunk s off).pending = s.pending := by
  simp only [State.dumpChunk, ↓State.freeBytes_pending, ↓State.ringPut_pending, ↓State.raise_pending, ↓apply_ite
      State.pending, ite_self]

/-! ## The supply of the pins -/

theorem State.vioSelect_pending (s : State) (mv : Nat) :
    (State.vioSelect s mv).pending = s.pending := by
  simp only [State.vioSelect, ↓State.free_pending, ↓apply_ite State.pending, ite_self]

/-! ## The tick -/

theorem State.disturbIn_pending (s : State) :
    (State.disturbIn s).pending = s.pending := by
  simp only [State.disturbIn, ↓apply_ite State.pending, ite_self]

theorem State.disturbOut_pending (s : State) :
    (State.disturbOut s).pending = s.pending := by
  simp only [State.disturbOut, ↓apply_ite State.pending, ite_self]

theorem State.linesIn_pending (s : State) :
    (State.linesIn s).pending = s.pending := by
  simp -proj only [State.linesIn, ↓State.tickInput_pending, ↓State.putSrc_pending, ↓State.lockReady_pending,
      ↓State.readyInput_pending, ↓foldl_pending, implies_true, ↓apply_ite State.pending, ite_self]

theorem State.linesOut_pending (s : State) :
    (State.linesOut s).pending = s.pending := by
  simp -proj only [State.linesOut, ↓State.tickOutput_pending, ↓foldl_pending, implies_true, ↓apply_ite
      State.pending, ite_self]

theorem State.portsEnd_pending (s : State) :
    (State.portsEnd s).pending = s.pending := by
  simp -proj only [State.portsEnd, ↓State.portEnd_pending, ↓foldl_pending, implies_true]

theorem State.convertersTick_pending (s : State) (dev : List (Fin 64)) :
    (State.convertersTick s dev).pending = s.pending := by
  simp -proj only [State.convertersTick, ↓State.asrcTick_pending, ↓State.asrcRelock_pending, ↓foldl_pending,
      implies_true, ↓apply_ite State.pending, ite_self]

theorem State.ainsTick_pending (s : State) (v : Vector AinIn 16) :
    (State.ainsTick s v).pending = s.pending := by
  simp -proj only [State.ainsTick, ↓State.ainTick_pending, ↓foldl_pending, implies_true]

theorem State.tickCount_pending (s : State) :
    (State.tickCount s).pending = s.pending := by
  simp only [State.tickCount, ↓apply_ite State.pending, ite_self]

theorem State.tickBegin_pending (s : State) :
    (State.tickBegin s).pending = s.pending := by
  simp only [State.tickBegin, ↓State.endBootPhase_pending, ↓State.fabFirst_pending, ↓State.flushParams_pending,
      ↓State.tickCount_pending, ↓State.stopDue_pending, ↓apply_ite State.pending, ite_self]

theorem State.tickFabric_pending (s : State) (gate : Option GateMiss) :
    (State.tickFabric s gate).pending = s.pending := by
  simp only [State.tickFabric, ↓State.capture_pending, ↓State.fabTick_pending, ↓State.inject_pending, ↓apply_ite
      State.pending, ite_self]

theorem State.tickClear_pending (s : State) :
    (State.tickClear s).pending = s.pending := by
  simp only [State.tickClear, ↓State.bookNow_pending]

theorem State.tickClocks_pending (s : State) (edges : List (Fin 43)) (averages : List (Fin 43 × Int)) :
    (State.tickClocks s edges averages).pending = s.pending := by
  simp -proj only [State.tickClocks, ↓State.slewOn_pending, ↓State.monMeasure_pending, ↓State.monEdge_pending, ↓foldl_pending, implies_true]

theorem State.tickAll_pending (s : State) (i : TickIn) : (s.tickAll i).pending = s.pending := by
  refine State.inOneCycle_pending _ _ fun s => ?_
  simp -proj only [↓State.tickEnd_pending, ↓State.tickClear_pending, ↓State.disturbOut_pending, ↓State.ampsTick_pending,
    ↓State.outsTick_pending, ↓State.schussTick_pending, ↓State.portsEnd_pending, ↓State.linesOut_pending,
    ↓State.tickFabric_pending, ↓State.disturbIn_pending, ↓State.ainsTick_pending, ↓State.convertersTick_pending,
    ↓State.linesIn_pending, ↓State.phAdmits_pending, ↓State.tickBegin_pending, ↓State.tickClocks_pending]

end Sys2Proof.Machine
end

section
/-!
PROOFS. No command changes the queue of the commands behind it (98_reader.md): the commands.
-/
namespace Sys2Proof.Machine

theorem execTick_pending (i : TickIn) (s : State) :
    After (execTick i s) fun t => t.pending = s.pending :=
  ⟨_, rfl, by simp -proj only [↓State.tickAll_pending, ↓apply_ite State.pending, ite_self]⟩

theorem execClkCoreWrite_pending (v : Word) (s : State) :
    After (execClkCoreWrite v s) fun t => t.pending = s.pending :=
  ⟨_, rfl, by simp -proj only [↓State.coreWrite_pending, ↓apply_ite State.pending, ite_self]⟩

theorem execRefSelWrite_pending (v : Word) (s : State) :
    After (execRefSelWrite v s) fun t => t.pending = s.pending :=
  ⟨_, rfl, by simp -proj only [↓State.refSelWrite_pending, ↓apply_ite State.pending, ite_self]⟩

theorem execMonLoss_pending (m : Fin 43) (s : State) :
    After (execMonLoss m s) fun t => t.pending = s.pending :=
  ⟨_, rfl, by simp -proj only [↓State.monLoss_pending, ↓apply_ite State.pending, ite_self]⟩

theorem execMonGlitch_pending (m : Fin 43) (gap : Nat) (s : State) :
    After (execMonGlitch m gap s) fun t => t.pending = s.pending :=
  ⟨_, rfl, by simp -proj only [↓State.monGlitch_pending, ↓apply_ite State.pending, ite_self]⟩

theorem execMonRateChange_pending (m : Fin 43) (code : Fin 18) (ppm : Int) (s : State) :
    After (execMonRateChange m code ppm s) fun t => t.pending = s.pending :=
  ⟨_, rfl, by simp -proj only [↓State.monRate_pending, ↓apply_ite State.pending, ite_self]⟩

theorem execMonPresent_pending (m : Fin 43) (code : Fin 18) (ppm : Int) (s : State) :
    After (execMonPresent m code ppm s) fun t => t.pending = s.pending :=
  ⟨_, rfl, by simp -proj only [↓State.monEdge_pending, ↓State.monPresent_pending, ↓apply_ite State.pending,
      ite_self]⟩

theorem execMonAcquireTimeout_pending (m : Fin 43) (s : State) :
    After (execMonAcquireTimeout m s) fun t => t.pending = s.pending :=
  ⟨_, rfl, by simp -proj only [↓State.monTo_pending, ↓apply_ite State.pending, ite_self]⟩

theorem execPllAcquireDone_pending (s : State) :
    After (execPllAcquireDone s) fun t => t.pending = s.pending := by
  refine ⟨_, rfl, State.Queue.eq ?_⟩
  (repeat' split) <;> exact ⟨by simp -proj only [↓State.freeWord_pending, ↓State.pllTo_pending, ↓State.lock_pending,
      ↓State.refBad_pending, ↓State.enterHoldover_pending]⟩

theorem execPllSlewDone_pending (s : State) :
    After (execPllSlewDone s) fun t => t.pending = s.pending :=
  ⟨_, rfl, by simp -proj only [↓State.raise_pending, ↓State.lock_pending, ↓apply_ite State.pending, ite_self]⟩

theorem execSnapMuteDone_pending (s : State) :
    After (execSnapMuteDone s) fun t => t.pending = s.pending :=
  ⟨_, rfl, by simp -proj only [↓State.asrcSnap_pending, ↓State.pllTo_pending, ↓mk_pending, ↓apply_ite State.pending,
      ite_self]⟩

theorem execSnapRelockDone_pending (s : State) :
    After (execSnapRelockDone s) fun t => t.pending = s.pending :=
  ⟨_, rfl, by simp -proj only [↓State.following_pending, ↓State.snapReturn_pending, ↓State.setWord_pending, ↓apply_ite State.pending, ite_self]⟩

theorem execSnapReturnDone_pending (s : State) :
    After (execSnapReturnDone s) fun t => t.pending = s.pending :=
  ⟨_, rfl, by simp -proj only [↓State.freeWord_pending, ↓State.pllTo_pending, ↓State.raise_pending, ↓State.lock_pending,
      ↓State.enterHoldover_pending, ↓mk_pending, ↓apply_ite State.pending, ite_self]⟩

theorem execCoarseExit_pending (s : State) :
    After (execCoarseExit s) fun t => t.pending = s.pending :=
  ⟨_, rfl, by simp -proj only [↓State.leaveCoarse_pending, ↓apply_ite State.pending, ite_self]⟩

theorem execSyscntLoRead_pending (s : State) :
    After (execSyscntLoRead s) fun t => t.pending = s.pending :=
  ⟨_, rfl, by simp -proj only [↓State.answer_pending, ↓State.latchSys_pending]⟩

theorem execTickcntLoRead_pending (s : State) :
    After (execTickcntLoRead s) fun t => t.pending = s.pending :=
  ⟨_, rfl, by simp -proj only [↓State.answer_pending, ↓State.latchTick_pending]⟩

theorem execEpochFrameSend_pending (s : State) :
    After (execEpochFrameSend s) fun t => t.pending = s.pending :=
  ⟨_, rfl, by simp -proj only [↓mk_pending, ↓apply_ite State.pending, ite_self]⟩

theorem execEpochFrameReceive_pending (f : BitVec 64) (s : State) :
    After (execEpochFrameReceive f s) fun t => t.pending = s.pending :=
  ⟨_, rfl, by simp -proj only [↓State.epochTake_pending, ↓apply_ite State.pending, ite_self]⟩

theorem execEpochFrameRepeat_pending (s : State) :
    After (execEpochFrameRepeat s) fun t => t.pending = s.pending := by
  refine ⟨_, rfl, State.Queue.eq ?_⟩
  split <;> exact ⟨by simp -proj only [↓mk_pending, ↓apply_ite State.pending, ite_self]⟩

theorem execEnsLost_pending (s : State) :
    After (execEnsLost s) fun t => t.pending = s.pending :=
  ⟨_, rfl, by simp -proj only [↓State.setFld_pending, ↓State.loseAgree_pending, ↓mk_pending, ↓apply_ite State.pending,
      ite_self]⟩

theorem execEnsRejoin_pending (s : State) :
    After (execEnsRejoin s) fun t => t.pending = s.pending :=
  ⟨_, rfl, by simp -proj only [↓mk_pending, ↓apply_ite State.pending, ite_self]⟩

theorem execSapRunStart_pending (n : Fin 32) (s : State) :
    After (execSapRunStart n s) fun t => t.pending = s.pending :=
  ⟨_, rfl, by simp -proj only [↓State.sapCtrlWrite_pending, ↓apply_ite State.pending, ite_self]⟩

theorem execSapRunStop_pending (n : Fin 32) (s : State) :
    After (execSapRunStop n s) fun t => t.pending = s.pending :=
  ⟨_, rfl, by simp -proj only [↓State.sapCtrlWrite_pending, ↓apply_ite State.pending, ite_self]⟩

theorem execSapMuteRequest_pending (n : Fin 32) (mask : BitVec 4) (s : State) :
    After (execSapMuteRequest n mask s) fun t => t.pending = s.pending :=
  ⟨_, rfl, by simp -proj only [↓State.muteWrite_pending, ↓apply_ite State.pending, ite_self]⟩

theorem execSapConfigWrite_pending (n : Fin 32) (r : SapReg) (v : Word) (s : State) :
    After (execSapConfigWrite n r v s) fun t => t.pending = s.pending :=
  ⟨_, rfl, by simp -proj only [↓State.sapCfgWrite_pending, ↓apply_ite State.pending, ite_self]⟩

theorem execSapFrameReceived_pending (n : Fin 32) (f : RxFrame) (s : State) :
    After (execSapFrameReceived n f s) fun t => t.pending = s.pending :=
  ⟨_, rfl, by simp -proj only [↓State.frameReceived_pending]⟩

theorem execSapFrameTransmit_pending (n : Fin 32) (s : State) :
    After (execSapFrameTransmit n s) fun t => t.pending = s.pending :=
  ⟨_, rfl, by simp -proj only [↓State.frameTransmit_pending]⟩

theorem execSapDeliveryStart_pending (n : Fin 32) (s : State) :
    After (execSapDeliveryStart n s) fun t => t.pending = s.pending := by
  refine ⟨_, rfl, State.Queue.eq ?_⟩
  split <;> exact ⟨by simp -proj only [↓State.syncZc_pending, ↓State.deliverLine_pending]⟩

theorem execZcTimeout_pending (n : Fin 32) (ch : Fin 4) (s : State) :
    After (execZcTimeout n ch s) fun t => t.pending = s.pending := by
  refine ⟨_, rfl, State.Queue.eq ?_⟩
  split <;> exact ⟨by simp -proj only [↓State.raise_pending, ↓State.updChan_pending, ↓apply_ite State.pending,
      ite_self]⟩

theorem execZcGlideDone_pending (n : Fin 32) (ch : Fin 4) (s : State) :
    After (execZcGlideDone n ch s) fun t => t.pending = s.pending := by
  refine ⟨_, rfl, State.Queue.eq ?_⟩
  split <;> exact ⟨by simp -proj only [↓State.syncZc_pending, ↓State.updChan_pending]⟩

theorem execSapStopped_pending (n : Fin 32) (s : State) :
    After (execSapStopped n s) fun t => t.pending = s.pending :=
  ⟨_, rfl, by simp -proj only [↓State.enterStopped_pending, ↓apply_ite State.pending, ite_self]⟩

theorem execSapCntClear_pending (n : Fin 32) (s : State) :
    After (execSapCntClear n s) fun t => t.pending = s.pending :=
  ⟨_, rfl, by simp -proj only [↓State.sapCntClear_pending, ↓apply_ite State.pending, ite_self]⟩

theorem execFramesInRead_pending (n : Fin 32) (k : Fin 2) (s : State) :
    After (execFramesInRead n k s) fun t => t.pending = s.pending :=
  ⟨_, rfl, by simp -proj only [↓State.answer_pending, ↓State.latchCounts_pending, ↓apply_ite State.pending,
      ite_self]⟩

theorem execStampLoRead_pending (n : Fin 32) (s : State) :
    After (execStampLoRead n s) fun t => t.pending = s.pending :=
  ⟨_, rfl, by simp -proj only [↓State.answer_pending, ↓State.latchStamp_pending, ↓apply_ite State.pending,
      ite_self]⟩

theorem execAesRxLocked_pending (k : Fin 8) (s : State) :
    After (execAesRxLocked k s) fun t => t.pending = s.pending :=
  ⟨_, rfl, by simp -proj only [↓State.aesLockTo_pending, ↓apply_ite State.pending, ite_self]⟩

theorem execAesRxLockLost_pending (k : Fin 8) (s : State) :
    After (execAesRxLockLost k s) fun t => t.pending = s.pending :=
  ⟨_, rfl, by simp -proj only [↓State.aesLockTo_pending, ↓apply_ite State.pending, ite_self]⟩

theorem execAesRxCsRead_pending (k : Fin 8) (b : Bool) (s : State) :
    After (execAesRxCsRead k b s) fun t => t.pending = s.pending :=
  ⟨_, rfl, by simp -proj only [↓State.latchCs_pending, ↓State.answer_pending, ↓apply_ite State.pending,
      ite_self]⟩

theorem execAesTxSwap_pending (k : Fin 8) (s : State) :
    After (execAesTxSwap k s) fun t => t.pending = s.pending :=
  ⟨_, rfl, by simp -proj only [↓State.swapRequest_pending, ↓apply_ite State.pending, ite_self]⟩

theorem execAesCsSwapCopy_pending (k : Fin 8) (s : State) :
    After (execAesCsSwapCopy k s) fun t => t.pending = s.pending := by
  refine ⟨_, rfl, State.Queue.eq ?_⟩
  split <;> exact ⟨by simp -proj only [↓State.raiseAes_pending, ↓State.setFld_pending, ↓State.csCopy_pending, ↓apply_ite State.pending, ite_self]⟩

theorem execGrpConfigWrite_pending (g : Fin 8) (r : GrpReg) (v : Word) (s : State) :
    After (execGrpConfigWrite g r v s) fun t => t.pending = s.pending :=
  ⟨_, rfl, by simp -proj only [↓State.grpWrite_pending, ↓apply_ite State.pending, ite_self]⟩

theorem execMemberDeliveryStart_pending (n : Fin 32) (k : Fin 2) (s : State) :
    After (execMemberDeliveryStart n k s) fun t => t.pending = s.pending :=
  ⟨_, rfl, by simp -proj only [↓State.memberStart_pending]⟩

theorem execMemberStarved_pending (n : Fin 32) (k : Fin 2) (s : State) :
    After (execMemberStarved n k s) fun t => t.pending = s.pending :=
  ⟨_, rfl, by simp -proj only [↓State.updLine_pending, ↓apply_ite State.pending, ite_self]⟩

theorem execSnowploughSilent_pending (n : Fin 32) (k : Fin 2) (s : State) :
    After (execSnowploughSilent n k s) fun t => t.pending = s.pending :=
  ⟨_, rfl, by simp -proj only [↓State.snowSilent_pending]⟩

theorem execMemberRejoin_pending (n : Fin 32) (k : Fin 2) (s : State) :
    After (execMemberRejoin n k s) fun t => t.pending = s.pending :=
  ⟨_, rfl, by simp -proj only [↓State.rejoin_pending]⟩

theorem execRejoinGlideDone_pending (n : Fin 32) (k : Fin 2) (s : State) :
    After (execRejoinGlideDone n k s) fun t => t.pending = s.pending :=
  ⟨_, rfl, by simp -proj only [↓State.updLine_pending, ↓apply_ite State.pending, ite_self]⟩

theorem execAsrcConfigWrite_pending (i : Fin 64) (v : Word) (s : State) :
    After (execAsrcConfigWrite i v s) fun t => t.pending = s.pending :=
  ⟨_, rfl, by simp -proj only [↓State.asrcWrite_pending, ↓apply_ite State.pending, ite_self]⟩

theorem execAsrcEnable_pending (i : Fin 64) (s : State) :
    After (execAsrcEnable i s) fun t => t.pending = s.pending :=
  ⟨_, rfl, by simp -proj only [↓State.asrcEnable_pending, ↓apply_ite State.pending, ite_self]⟩

theorem execAsrcDisable_pending (i : Fin 64) (s : State) :
    After (execAsrcDisable i s) fun t => t.pending = s.pending :=
  ⟨_, rfl, by simp -proj only [↓State.asrcDisable_pending, ↓apply_ite State.pending, ite_self]⟩

theorem execAsrcOff_pending (i : Fin 64) (s : State) :
    After (execAsrcOff i s) fun t => t.pending = s.pending :=
  ⟨_, rfl, by simp -proj only [↓State.updAsrc_pending, ↓State.asrcEnter_pending, ↓apply_ite State.pending,
      ite_self]⟩

theorem execAsrcLocked_pending (i : Fin 64) (s : State) :
    After (execAsrcLocked i s) fun t => t.pending = s.pending :=
  ⟨_, rfl, by simp -proj only [↓State.asrcEnter_pending, ↓foldl_pending, implies_true, ↓apply_ite
      State.pending, ite_self]⟩

theorem execAinEnable_pending (n : Fin 16) (s : State) :
    After (execAinEnable n s) fun t => t.pending = s.pending :=
  ⟨_, rfl, by simp -proj only [↓State.ainEnWrite_pending, ↓apply_ite State.pending, ite_self]⟩

theorem execAinDisable_pending (n : Fin 16) (s : State) :
    After (execAinDisable n s) fun t => t.pending = s.pending :=
  ⟨_, rfl, by simp -proj only [↓State.ainEnWrite_pending, ↓apply_ite State.pending, ite_self]⟩

theorem execAinModeChange_pending (n : Fin 16) (s : State) :
    After (execAinModeChange n s) fun t => t.pending = s.pending :=
  ⟨_, rfl, by simp -proj only [↓State.modeChange_pending, ↓apply_ite State.pending, ite_self]⟩

theorem execServoSettled_pending (n : Fin 16) (s : State) :
    After (execServoSettled n s) fun t => t.pending = s.pending :=
  ⟨_, rfl, by simp -proj only [↓State.updAin_pending, ↓apply_ite State.pending, ite_self]⟩

theorem execAinReady_pending (n : Fin 16) (s : State) :
    After (execAinReady n s) fun t => t.pending = s.pending :=
  ⟨_, rfl, by simp -proj only [↓State.raise_pending, ↓State.setAinState_pending, ↓State.syncMuted_pending,
      ↓State.updAin_pending, ↓apply_ite State.pending, ite_self]⟩

theorem execAinOff_pending (n : Fin 16) (s : State) :
    After (execAinOff n s) fun t => t.pending = s.pending :=
  ⟨_, rfl, by simp -proj only [↓State.ainOff_pending, ↓apply_ite State.pending, ite_self]⟩

theorem execCmExcursionStart_pending (n : Fin 16) (s : State) :
    After (execCmExcursionStart n s) fun t => t.pending = s.pending :=
  ⟨_, rfl, by simp -proj only [↓State.raise_pending, ↓State.setFld_pending, ↓State.muteCause_pending, ↓apply_ite State.pending, ite_self]⟩

theorem execCmExcursionEnd_pending (n : Fin 16) (s : State) :
    After (execCmExcursionEnd n s) fun t => t.pending = s.pending :=
  ⟨_, rfl, by simp -proj only [↓State.muteEnd_pending, ↓State.setFld_pending, ↓apply_ite State.pending,
      ite_self]⟩

theorem execPhantomEnable_pending (n : Fin 16) (s : State) :
    After (execPhantomEnable n s) fun t => t.pending = s.pending :=
  ⟨_, rfl, by simp -proj only [↓State.phEnWrite_pending, ↓apply_ite State.pending, ite_self]⟩

theorem execPhantomDisable_pending (n : Fin 16) (s : State) :
    After (execPhantomDisable n s) fun t => t.pending = s.pending :=
  ⟨_, rfl, by simp -proj only [↓State.phEnWrite_pending, ↓apply_ite State.pending, ite_self]⟩

theorem execPhRampDone_pending (n : Fin 16) (s : State) :
    After (execPhRampDone n s) fun t => t.pending = s.pending := by
  refine ⟨_, rfl, State.Queue.eq ?_⟩
  split <;> exact ⟨by simp -proj only [↓State.setPh_pending, ↓State.phChangeEnd_pending, ↓apply_ite
      State.pending, ite_self]⟩

theorem execPhSettleDone_pending (n : Fin 16) (s : State) :
    After (execPhSettleDone n s) fun t => t.pending = s.pending := by
  refine ⟨_, rfl, State.Queue.eq ?_⟩
  split <;> exact ⟨by simp -proj only [↓State.raise_pending, ↓State.phChangeEnd_pending, ↓State.setPh_pending,
      ↓State.phOff_pending, ↓apply_ite State.pending, ite_self]⟩

theorem execPhLimitTimeout_pending (n : Fin 16) (s : State) :
    After (execPhLimitTimeout n s) fun t => t.pending = s.pending :=
  ⟨_, rfl, by simp -proj only [↓State.phRemove_pending, ↓apply_ite State.pending, ite_self]⟩

theorem execPhFoldback_pending (s : State) :
    After (execPhFoldback s) fun t => t.pending = s.pending := by
  refine ⟨_, rfl, State.Queue.eq ?_⟩
  split <;> exact ⟨by simp -proj only [↓State.countSat_pending, ↓State.phRemove_pending]⟩

theorem execAutomuteFadeDone_pending (n : Fin 16) (s : State) :
    After (execAutomuteFadeDone n s) fun t => t.pending = s.pending :=
  ⟨_, rfl, by simp -proj only [↓State.updAin_pending, ↓State.micAll_pending, ↓State.gainAtOnce_pending,
      ↓State.syncMuted_pending, ↓apply_ite State.pending, ite_self]⟩

theorem execAutomuteCauseEnd_pending (n : Fin 16) (c : MuteCause) (s : State) :
    After (execAutomuteCauseEnd n c s) fun t => t.pending = s.pending := by
  refine ⟨_, rfl, State.Queue.eq ?_⟩
  split <;> exact ⟨by simp -proj only [↓State.muteEnd_pending, ↓apply_ite State.pending, ite_self]⟩

theorem execAutomuteGlideDone_pending (n : Fin 16) (s : State) :
    After (execAutomuteGlideDone n s) fun t => t.pending = s.pending :=
  ⟨_, rfl, by simp -proj only [↓State.updAin_pending, ↓apply_ite State.pending, ite_self]⟩

theorem execPathReturn_pending (n : Fin 16) (s : State) :
    After (execPathReturn n s) fun t => t.pending = s.pending :=
  ⟨_, rfl, by simp -proj only [↓State.updAin_pending, ↓State.setFld_pending, ↓apply_ite State.pending,
      ite_self]⟩

theorem execCalRestart_pending (n : Fin 16) (s : State) :
    After (execCalRestart n s) fun t => t.pending = s.pending :=
  ⟨_, rfl, by simp -proj only [↓State.calRestart_pending, ↓apply_ite State.pending, ite_self]⟩

theorem execPreampGainWrite_pending (n : Fin 16) (v : Word) (s : State) :
    After (execPreampGainWrite n v s) fun t => t.pending = s.pending :=
  ⟨_, rfl, by simp -proj only [↓State.gainWrite_pending, ↓apply_ite State.pending, ite_self]⟩

theorem execStepForceTimeout_pending (n : Fin 16) (s : State) :
    After (execStepForceTimeout n s) fun t => t.pending = s.pending :=
  ⟨_, rfl, by simp -proj only [↓State.updAin_pending, ↓State.forceStep_pending, ↓apply_ite State.pending,
      ite_self]⟩

theorem execDiagStart_pending (n : Fin 16) (legs : BitVec 2) (s : State) :
    After (execDiagStart n legs s) fun t => t.pending = s.pending :=
  ⟨_, rfl, by simp -proj only [↓State.diagWrite_pending, ↓apply_ite State.pending, ite_self]⟩

theorem execDiagBegin_pending (n : Fin 16) (s : State) :
    After (execDiagBegin n s) fun t => t.pending = s.pending := by
  refine ⟨_, rfl, State.Queue.eq ?_⟩
  split <;> exact ⟨by simp -proj only [↓State.diagBegin_pending, ↓apply_ite State.pending, ite_self]⟩

theorem execDiagPhaseDone_pending (n : Fin 16) (r : DiagReading) (s : State) :
    After (execDiagPhaseDone n r s) fun t => t.pending = s.pending :=
  ⟨_, rfl, by simp -proj only [↓State.diagPhase_pending]⟩

theorem execFabricRun_pending (p : Fin 4) (piste : Bool) (s : State) :
    After (execFabricRun p piste s) fun t => t.pending = s.pending :=
  ⟨_, rfl, State.directWrite_pending _ _ _ _ _ fun t => State.fabCtrlWrite_pending ..⟩

theorem execFabricFirstTick_pending (i : TickIn) (s : State) :
    After (execFabricFirstTick i s) fun t => t.pending = s.pending :=
  ⟨_, rfl, by simp -proj only [↓State.tickAll_pending, ↓apply_ite State.pending, ite_self]⟩

theorem execFabricStop_pending (p : Fin 4) (s : State) :
    After (execFabricStop p s) fun t => t.pending = s.pending :=
  ⟨_, rfl, State.directWrite_pending _ _ _ _ _ fun t => State.fabCtrlWrite_pending ..⟩

theorem execFabricStopped_pending (s : State) :
    After (execFabricStopped s) fun t => t.pending = s.pending :=
  ⟨_, rfl, by simp -proj only [↓State.fabStopped_pending, ↓apply_ite State.pending, ite_self]⟩

theorem execPisteWrite_pending (p : Fin 4) (addr v : Word) (s : State) :
    After (execPisteWrite p addr v s) fun t => t.pending = s.pending :=
  ⟨_, rfl, by simp -proj only [↓State.writeNow_pending, ↓State.logAccess_pending, ↓State.setMemWord_pending, ↓apply_ite State.pending, ite_self]⟩

theorem execPisteCopy_pending (p : Fin 4) (s : State) :
    After (execPisteCopy p s) fun t => t.pending = s.pending :=
  ⟨_, rfl, State.directWrite_pending _ _ _ _ _ fun t => State.copyStart_pending ..⟩

theorem execCopyDone_pending (s : State) :
    After (execCopyDone s) fun t => t.pending = s.pending :=
  ⟨_, rfl, by simp -proj only [↓State.raise_pending, ↓State.syncLock_pending, ↓State.setFld_pending, ↓apply_ite
      State.pending, ite_self]⟩

theorem execPisteSwap_pending (p : Fin 4) (s : State) :
    After (execPisteSwap p s) fun t => t.pending = s.pending :=
  ⟨_, rfl, by simp -proj only [↓State.writeNow_pending]⟩

theorem execXoverEnd_pending (s : State) :
    After (execXoverEnd s) fun t => t.pending = s.pending :=
  ⟨_, rfl, by simp -proj only [↓State.endXover_pending, ↓apply_ite State.pending, ite_self]⟩

theorem execAdmissionCheck_pending (p : Fin 4) (s : State) :
    After (execAdmissionCheck p s) fun t => t.pending = s.pending :=
  ⟨_, rfl, State.directWrite_pending _ _ _ _ _ fun t => State.checkStart_pending ..⟩

theorem execCheckDone_pending (s : State) :
    After (execCheckDone s) fun t => t.pending = s.pending := by
  refine ⟨_, rfl, State.Queue.eq ?_⟩
  split <;> exact ⟨by simp -proj only [↓State.raise_pending, ↓State.setFld_pending, ↓State.updFab_pending,
      ↓State.admitOut_pending, ↓apply_ite State.pending, ite_self]⟩

theorem execParamWrite_pending (p : Fin 4) (addr v : Word) (s : State) :
    After (execParamWrite p addr v s) fun t => t.pending = s.pending := by
  refine ⟨_, rfl, State.Queue.eq ?_⟩
  split
  · split
    · exact ⟨State.directWriteAt_pending _ _ _ _ _ _ fun t => State.paramWrite_pending ..⟩
    · exact ⟨rfl⟩
  · exact ⟨rfl⟩

theorem execGainTargetWrite_pending (slot : Fin 4096) (v : Word) (s : State) :
    After (execGainTargetWrite slot v s) fun t => t.pending = s.pending :=
  ⟨_, rfl, by simp -proj only [↓State.store_pending, ↓State.aimGain_pending, ↓apply_ite State.pending,
      ite_self]⟩

theorem execObjectWrite_pending (addr v : Word) (s : State) :
    After (execObjectWrite addr v s) fun t => t.pending = s.pending :=
  ⟨_, rfl, by simp -proj only [↓State.paramApply_pending, ↓apply_ite State.pending, ite_self]⟩

theorem execObjectReset_pending (addr : Word) (s : State) :
    After (execObjectReset addr s) fun t => t.pending = s.pending := by
  refine ⟨_, rfl, State.Queue.eq ?_⟩
  split <;> exact ⟨by simp -proj only [↓State.paramApply_pending, ↓apply_ite State.pending, ite_self]⟩

theorem execDelayChange_pending (l : Fin 512) (v : Word) (s : State) :
    After (execDelayChange l v s) fun t => t.pending = s.pending :=
  ⟨_, rfl, by simp -proj only [↓State.paramApply_pending, ↓apply_ite State.pending, ite_self]⟩

theorem execGeneratorRestart_pending (g : Fin 16) (s : State) :
    After (execGeneratorRestart g s) fun t => t.pending = s.pending :=
  ⟨_, rfl, by simp -proj only [↓State.genRestart_pending, ↓apply_ite State.pending, ite_self]⟩

theorem execLineFilled_pending (l : Fin 512) (s : State) :
    After (execLineFilled l s) fun t => t.pending = s.pending :=
  ⟨_, rfl, by simp -proj only [↓State.raise_pending, ↓mk_pending, ↓apply_ite State.pending, ite_self]⟩

theorem execSweepEnd_pending (g : Fin 16) (s : State) :
    After (execSweepEnd g s) fun t => t.pending = s.pending :=
  ⟨_, rfl, by simp -proj only [↓State.raise_pending, ↓State.updFab_pending, ↓apply_ite State.pending, ite_self]⟩

theorem execOutputEnable_pending (o : OutId) (s : State) :
    After (execOutputEnable o s) fun t => t.pending = s.pending :=
  ⟨_, rfl, by simp -proj only [↓State.outEnWrite_pending, ↓apply_ite State.pending, ite_self]⟩

theorem execOutputDisable_pending (o : OutId) (s : State) :
    After (execOutputDisable o s) fun t => t.pending = s.pending :=
  ⟨_, rfl, by simp -proj only [↓State.outEnWrite_pending, ↓apply_ite State.pending, ite_self]⟩

theorem execLineRailRampDone_pending (n : Fin 16) (s : State) :
    After (execLineRailRampDone n s) fun t => t.pending = s.pending :=
  ⟨_, rfl, by simp -proj only [↓State.setOutStep_pending, ↓apply_ite State.pending, ite_self]⟩

theorem execChargePumpReady_pending (s : State) :
    After (execChargePumpReady s) fun t => t.pending = s.pending :=
  ⟨_, rfl, by simp -proj only [↓State.setOutStep_pending, ↓State.setCpOk_pending, ↓foldl_pending, implies_true,
      ↓apply_ite State.pending, ite_self]⟩

theorem execOutputSettleDone_pending (o : OutId) (s : State) :
    After (execOutputSettleDone o s) fun t => t.pending = s.pending := by
  refine ⟨_, rfl, State.Queue.eq ?_⟩
  dsimp -proj only
  (repeat' split) <;> exact ⟨by simp -proj only [↓State.raise_pending, ↓State.setOutStep_pending,
      ↓State.setOutState_pending, ↓State.mapOutGains_pending, ↓State.hpFade_pending, ↓State.loadQueue_pending]⟩

theorem execOutputStopGlideDone_pending (o : OutId) (s : State) :
    After (execOutputStopGlideDone o s) fun t => t.pending = s.pending := by
  refine ⟨_, rfl, State.Queue.eq ?_⟩
  (repeat' split) <;> exact ⟨by simp -proj only [↓State.setOutStep_pending, ↓State.outOff_pending]⟩

theorem execLineRailDownDone_pending (n : Fin 16) (s : State) :
    After (execLineRailDownDone n s) fun t => t.pending = s.pending :=
  ⟨_, rfl, by simp -proj only [↓State.outOff_pending, ↓apply_ite State.pending, ite_self]⟩

theorem execChargePumpStop_pending (s : State) :
    After (execChargePumpStop s) fun t => t.pending = s.pending :=
  ⟨_, rfl, by simp -proj only [↓State.setCpOk_pending, ↓mk_pending, ↓apply_ite State.pending, ite_self]⟩

theorem execOutputCurrentLimit_pending (o : OutId) (s : State) :
    After (execOutputCurrentLimit o s) fun t => t.pending = s.pending :=
  ⟨_, rfl, by simp -proj only [↓State.raise_pending, ↓apply_ite State.pending, ite_self]⟩

theorem execOutputLimitTimeout_pending (o : OutId) (s : State) :
    After (execOutputLimitTimeout o s) fun t => t.pending = s.pending :=
  ⟨_, rfl, by simp -proj only [↓State.outFault_pending, ↓apply_ite State.pending, ite_self]⟩

theorem execServoLimit_pending (n : Fin 16) (s : State) :
    After (execServoLimit n s) fun t => t.pending = s.pending :=
  ⟨_, rfl, by simp -proj only [↓State.free_pending, ↓State.raise_pending, ↓State.setSfld_pending, ↓State.updOut_pending,
      ↓apply_ite State.pending, ite_self]⟩

theorem execCpRailFault_pending (s : State) :
    After (execCpRailFault s) fun t => t.pending = s.pending :=
  ⟨_, rfl, by simp -proj only [↓State.updOut_pending, ↓State.setOutStep_pending, ↓State.setOutState_pending,
      ↓State.raise_pending, ↓State.setCpOk_pending, ↓foldl_pending, implies_true, ↓apply_ite State.pending,
      ite_self]⟩

theorem execInternalFadeDone_pending (h : Fin 4) (s : State) :
    After (execInternalFadeDone h s) fun t => t.pending = s.pending :=
  ⟨_, rfl, by simp -proj only [↓State.updOut_pending, ↓State.hpUnfade_pending, ↓State.setFld_pending, ↓apply_ite State.pending, ite_self]⟩

theorem execHpMicRoute_pending (h : Fin 4) (on : Bool) (input : Fin 16) (s : State) :
    After (execHpMicRoute h on input s) fun t => t.pending = s.pending :=
  ⟨_, rfl, by simp -proj only [↓State.micWrite_pending, ↓apply_ite State.pending, ite_self]⟩

theorem execButtonPress_pending (h b : Fin 4) (s : State) :
    After (execButtonPress h b s) fun t => t.pending = s.pending :=
  ⟨_, rfl, by simp -proj only [↓State.trigger_pending, ↓State.raise_pending, ↓State.setFld_pending, ↓apply_ite
      State.pending, ite_self]⟩

theorem execButtonRelease_pending (h : Fin 4) (s : State) :
    After (execButtonRelease h s) fun t => t.pending = s.pending :=
  ⟨_, rfl, by simp -proj only [↓State.trigger_pending, ↓State.raise_pending, ↓State.setFld_pending, ↓apply_ite
      State.pending, ite_self]⟩

theorem execJackLevelChange_pending (j : Fin 20) (high : Bool) (s : State) :
    After (execJackLevelChange j high s) fun t => t.pending = s.pending :=
  ⟨_, rfl, by simp -proj only [↓State.updJack_pending]⟩

theorem execJackInsert_pending (j : Fin 20) (s : State) :
    After (execJackInsert j s) fun t => t.pending = s.pending :=
  ⟨_, rfl, by simp -proj only [↓State.jackIn_pending, ↓apply_ite State.pending, ite_self]⟩

theorem execJackRemove_pending (j : Fin 20) (s : State) :
    After (execJackRemove j s) fun t => t.pending = s.pending :=
  ⟨_, rfl, by simp -proj only [↓State.jackOut_pending, ↓apply_ite State.pending, ite_self]⟩

theorem execClassifyPoleTestDone_pending (j : Fin 20) (r : PoleReading) (s : State) :
    After (execClassifyPoleTestDone j r s) fun t => t.pending = s.pending :=
  ⟨_, rfl, by simp -proj only [↓State.poleDone_pending]⟩

theorem execClassifyLoadTestDone_pending (j : Fin 20) (r : LoadReading) (s : State) :
    After (execClassifyLoadTestDone j r s) fun t => t.pending = s.pending :=
  ⟨_, rfl, by simp -proj only [↓State.loadDone_pending, ↓apply_ite State.pending, ite_self]⟩

theorem execJackRuleFire_pending (r : Fin 64) (s : State) :
    After (execJackRuleFire r s) fun t => t.pending = s.pending :=
  ⟨_, rfl, by simp -proj only [↓State.flushParams_pending, ↓State.ruleFire_pending, ↓apply_ite State.pending,
      ite_self]⟩

theorem execAmpEnable_pending (n : Fin 4) (s : State) :
    After (execAmpEnable n s) fun t => t.pending = s.pending :=
  ⟨_, rfl, by simp -proj only [↓State.ampEnWrite_pending, ↓apply_ite State.pending, ite_self]⟩

theorem execAmpDisable_pending (n : Fin 4) (s : State) :
    After (execAmpDisable n s) fun t => t.pending = s.pending :=
  ⟨_, rfl, by simp -proj only [↓State.ampEnWrite_pending, ↓apply_ite State.pending, ite_self]⟩

theorem execAmpPrecheckDone_pending (n : Fin 4) (r : Sys2Proof.PrecheckReading) (s : State) :
    After (execAmpPrecheckDone n r s) fun t => t.pending = s.pending := by
  have hp := State.precheck_pending s r
  refine ⟨_, rfl, State.Queue.eq ?_⟩
  split
  · generalize s.precheck r = z at hp ⊢
    obtain ⟨c, t⟩ := z
    cases c with
    | some c => exact ⟨(State.ampShutdown_pending ..).trans hp⟩
    | none => exact ⟨(State.pipeResume_pending ..).trans ((State.updAmp_pending ..).trans hp)⟩
  · exact ⟨rfl⟩

theorem execAmpRelease_pending (n : Fin 4) (s : State) :
    After (execAmpRelease n s) fun t => t.pending = s.pending :=
  ⟨_, rfl, by simp -proj only [↓State.setFld_pending, ↓State.updAmp_pending, ↓apply_ite State.pending,
      ite_self]⟩

theorem execAmpRunning_pending (n : Fin 4) (s : State) :
    After (execAmpRunning n s) fun t => t.pending = s.pending :=
  ⟨_, rfl, by simp -proj only [↓State.updAmp_pending, ↓State.setAmpState_pending, ↓State.raise_pending,
      ↓State.setGain_pending, ↓apply_ite State.pending, ite_self]⟩

theorem execAmpStopGlideDone_pending (n : Fin 4) (s : State) :
    After (execAmpStopGlideDone n s) fun t => t.pending = s.pending :=
  ⟨_, rfl, by simp -proj only [↓State.updAmp_pending, ↓apply_ite State.pending, ite_self]⟩

theorem execAmpOff_pending (n : Fin 4) (s : State) :
    After (execAmpOff n s) fun t => t.pending = s.pending :=
  ⟨_, rfl, by simp -proj only [↓State.ampOff_pending, ↓apply_ite State.pending, ite_self]⟩

theorem execPwmCycle_pending (n : Fin 4) (pos neg : Nat) (s : State) :
    After (execPwmCycle n pos neg s) fun t => t.pending = s.pending :=
  ⟨_, rfl, by simp -proj only [↓State.pwmCount_pending, ↓State.ampShutdown_pending, ↓State.pwmStop_pending, ↓apply_ite State.pending, ite_self]⟩

theorem execAmpRetry_pending (n : Fin 4) (s : State) :
    After (execAmpRetry n s) fun t => t.pending = s.pending :=
  ⟨_, rfl, by simp -proj only [↓State.ampOff_pending, ↓State.ampBegin_pending, ↓State.raise_pending, ↓State.updAmp_pending,
      ↓State.ampStart_pending, ↓apply_ite State.pending, ite_self]⟩

theorem execAmpRetriesClear_pending (n : Fin 4) (s : State) :
    After (execAmpRetriesClear n s) fun t => t.pending = s.pending :=
  ⟨_, rfl, by simp -proj only [↓State.updAmp_pending, ↓State.setFld_pending, ↓apply_ite State.pending,
      ite_self]⟩

theorem execAmpDcFault_pending (n : Fin 4) (s : State) :
    After (execAmpDcFault n s) fun t => t.pending = s.pending :=
  ⟨_, rfl, by simp -proj only [↓State.ampDcStop_pending, ↓apply_ite State.pending, ite_self]⟩

theorem execFixedScan_pending (r : Sys2Proof.ScanReading) (s : State) :
    After (execFixedScan r s) fun t => t.pending = s.pending :=
  ⟨_, rfl, by simp -proj only [↓State.scan_pending, ↓apply_ite State.pending, ite_self]⟩

theorem execSagSample_pending (raw : Nat) (s : State) :
    After (execSagSample raw s) fun t => t.pending = s.pending :=
  ⟨_, rfl, by simp -proj only [↓State.pipeResume_pending, ↓State.converted_pending, ↓State.pipePreempt_pending,
      ↓State.sagTake_pending, ↓apply_ite State.pending, ite_self]⟩

theorem execPvddHwStop_pending (s : State) :
    After (execPvddHwStop s) fun t => t.pending = s.pending :=
  ⟨_, rfl, by simp -proj only [↓State.supplyStop_pending, ↓apply_ite State.pending, ite_self]⟩

theorem execSupplyOk_pending (s : State) :
    After (execSupplyOk s) fun t => t.pending = s.pending :=
  ⟨_, rfl, by simp -proj only [↓State.ampsResume_pending, ↓State.raise_pending, ↓State.setFld_pending, ↓mk_pending,
      ↓apply_ite State.pending, ite_self]⟩

theorem execHkaReady_pending (s : State) :
    After (execHkaReady s) fun t => t.pending = s.pending :=
  ⟨_, rfl, by simp -proj only [↓State.ampsResume_pending, ↓State.seqServeAll_pending, ↓State.setFld_pending, ↓apply_ite State.pending, ite_self]⟩

theorem execConversionDone_pending (q : Sys2Proof.Requester) (v : Sys2Proof.ConvReading) (s : State) :
    After (execConversionDone q v s) fun t => t.pending = s.pending := by
  refine ⟨_, rfl, State.Queue.eq ?_⟩
  split <;> exact ⟨by simp -proj only [↓State.seqConv_pending, ↓State.urgentDone_pending]⟩

theorem execIntegrationDone_pending (v : Sys2Proof.ConvReading) (s : State) :
    After (execIntegrationDone v s) fun t => t.pending = s.pending := by
  refine ⟨_, rfl, State.Queue.eq ?_⟩
  (repeat' split) <;> exact ⟨by simp -proj only [↓State.integStamp_pending, ↓State.entryDone_pending]⟩

theorem execCalStageDone_pending (ok : Bool) (s : State) :
    After (execCalStageDone ok s) fun t => t.pending = s.pending :=
  ⟨_, rfl, by simp -proj only [↓State.setFld_pending, ↓State.raise_pending, ↓apply_ite State.pending, ite_self]⟩

theorem execMainsLost_pending (s : State) :
    After (execMainsLost s) fun t => t.pending = s.pending :=
  ⟨_, rfl, by simp -proj only [↓State.raise_pending, ↓State.setFld_pending, ↓apply_ite State.pending, ite_self]⟩

theorem execHkaTimerFire_pending (k : Fin 4) (s : State) :
    After (execHkaTimerFire k s) fun t => t.pending = s.pending :=
  ⟨_, rfl, by simp -proj only [↓State.seqTrigger_pending, ↓foldl_pending, implies_true, ↓apply_ite
      State.pending, ite_self]⟩

theorem execPwmTrigger_pending (x : Fin 3) (s : State) :
    After (execPwmTrigger x s) fun t => t.pending = s.pending :=
  ⟨_, rfl, by simp -proj only [↓State.seqTrigger_pending, ↓apply_ite State.pending, ite_self]⟩

theorem execSeqGo_pending (mask : BitVec 3) (s : State) :
    After (execSeqGo mask s) fun t => t.pending = s.pending :=
  ⟨_, rfl, by simp -proj only [↓State.hkseqWrite_pending, ↓apply_ite State.pending, ite_self]⟩

theorem execSeqEnable_pending (x : Fin 3) (s : State) :
    After (execSeqEnable x s) fun t => t.pending = s.pending :=
  ⟨_, rfl, by simp -proj only [↓State.seqEnWrite_pending, ↓apply_ite State.pending, ite_self]⟩

theorem execSeqDisable_pending (x : Fin 3) (s : State) :
    After (execSeqDisable x s) fun t => t.pending = s.pending :=
  ⟨_, rfl, by simp -proj only [↓State.seqEnWrite_pending, ↓apply_ite State.pending, ite_self]⟩

theorem execSeqDelayEnd_pending (x : Fin 3) (s : State) :
    After (execSeqDelayEnd x s) fun t => t.pending = s.pending :=
  ⟨_, rfl, by simp -proj only [↓State.seqServe_pending, ↓State.seqYield_pending, ↓mk_pending, ↓apply_ite State.pending,
      ite_self]⟩

theorem execUrgentStart_pending (p : Fin 4) (v : Word) (s : State) :
    After (execUrgentStart p v s) fun t => t.pending = s.pending :=
  ⟨_, rfl, State.directWrite_pending _ _ _ _ _ fun t => State.urgentWrite_pending ..⟩

theorem execHkaPop_pending (q : Fin 4) (s : State) :
    After (execHkaPop q s) fun t => t.pending = s.pending :=
  ⟨_, rfl, by simp -proj only [↓State.answer_pending, ↓State.setReg_pending, ↓State.ringTake_pending, ↓apply_ite State.pending, ite_self]⟩

theorem execHkaPeek_pending (q : Fin 4) (s : State) :
    After (execHkaPeek q s) fun t => t.pending = s.pending :=
  ⟨_, rfl, by simp -proj only [↓State.answer_pending, ↓State.setReg_pending, ↓apply_ite State.pending,
      ite_self]⟩

theorem execTdacHostRequest_pending (p : Fin 4) (s : State) :
    After (execTdacHostRequest p s) fun t => t.pending = s.pending :=
  ⟨_, rfl, State.directWrite_pending _ _ _ _ _ fun t => State.tdacRequest_pending ..⟩

theorem execTdacGrant_pending (s : State) :
    After (execTdacGrant s) fun t => t.pending = s.pending :=
  ⟨_, rfl, by simp -proj only [↓State.tdacServe_pending]⟩

theorem execTdacHostRelease_pending (p : Fin 4) (s : State) :
    After (execTdacHostRelease p s) fun t => t.pending = s.pending :=
  ⟨_, rfl, State.directWrite_pending _ _ _ _ _ fun t => State.tdacGiveUp_pending ..⟩

theorem execTdacRoute_pending (p : Fin 4) (v : Word) (s : State) :
    After (execTdacRoute p v s) fun t => t.pending = s.pending :=
  ⟨_, rfl, State.directWrite_pending _ _ _ _ _ fun t => State.tdacRouteWrite_pending ..⟩

theorem execTdacCode_pending (p : Fin 4) (v : Word) (s : State) :
    After (execTdacCode p v s) fun t => t.pending = s.pending :=
  ⟨_, rfl, State.directWrite_pending _ _ _ _ _ fun t => State.tdacCodeWrite_pending ..⟩

theorem execTdacRampDone_pending (s : State) :
    After (execTdacRampDone s) fun t => t.pending = s.pending :=
  ⟨_, rfl, by simp -proj only [↓State.tdacRamped_pending]⟩

theorem execCrcData8_pending (a : CrcParty) (i : Fin 26) (v : Byte) (s : State) :
    After (execCrcData8 a i v s) fun t => t.pending = s.pending :=
  ⟨_, rfl, by simp -proj only [↓State.crcFeed_pending]⟩

theorem execCrcData16_pending (a : CrcParty) (i : Fin 26) (v : BitVec 16) (s : State) :
    After (execCrcData16 a i v s) fun t => t.pending = s.pending :=
  ⟨_, rfl, by simp -proj only [↓State.crcFeed_pending]⟩

theorem execCrcData32_pending (a : CrcParty) (i : Fin 26) (v : Word) (s : State) :
    After (execCrcData32 a i v s) fun t => t.pending = s.pending :=
  ⟨_, rfl, by simp -proj only [↓State.crcFeed_pending]⟩

theorem execCrcReset_pending (a : CrcParty) (i : Fin 26) (s : State) :
    After (execCrcReset a i s) fun t => t.pending = s.pending :=
  ⟨_, rfl, by simp -proj only [↓State.crcWrite_pending]⟩

theorem execCrcConfigWrite_pending (a : CrcParty) (i : Fin 26) (r : CrcReg) (v : Word) (s : State) :
    After (execCrcConfigWrite a i r v s) fun t => t.pending = s.pending :=
  ⟨_, rfl, by simp -proj only [↓State.crcConfig_pending]⟩

theorem execCrcResultRead_pending (i : Fin 26) (s : State) :
    After (execCrcResultRead i s) fun t => t.pending = s.pending :=
  ⟨_, rfl, by simp -proj only [↓State.answer_pending]⟩

theorem execCrcRawRead_pending (i : Fin 26) (s : State) :
    After (execCrcRawRead i s) fun t => t.pending = s.pending :=
  ⟨_, rfl, by simp -proj only [↓State.answer_pending]⟩

theorem execCrcOwnRequest_pending (a : CrcParty) (s : State) :
    After (execCrcOwnRequest a s) fun t => t.pending = s.pending :=
  ⟨_, rfl, by simp -proj only [↓State.crcOwnRequest_pending]⟩

theorem execCrcOwnRelease_pending (a : CrcParty) (s : State) :
    After (execCrcOwnRelease a s) fun t => t.pending = s.pending :=
  ⟨_, rfl, by simp -proj only [↓State.crcOwnRelease_pending]⟩

theorem execPowerChange_pending (p : Fin 4) (ws : List (Fin 27 × Word)) (s : State) :
    After (execPowerChange p ws s) fun t => t.pending = s.pending :=
  ⟨_, rfl, by simp -proj only [↓State.enqueue_pending]⟩

theorem execVoteAnswer_pending (s : State) (arriving : Bool) :
    After (execVoteAnswer s arriving) fun t => t.pending = s.pending :=
  ⟨_, rfl, by simp -proj only [↓State.pump_pending, ↓State.voteAnswer_pending]⟩

theorem execVoteTimeout_pending (s : State) :
    After (execVoteTimeout s) fun t => t.pending = s.pending :=
  ⟨_, rfl, by simp -proj only [↓State.pump_pending, ↓State.voteLost_pending, ↓apply_ite State.pending,
      ite_self]⟩

theorem execDomainWakeDone_pending (s : State) :
    After (execDomainWakeDone s) fun t => t.pending = s.pending :=
  ⟨_, rfl, by simp -proj only [↓State.pump_pending, ↓State.wakeDone_pending]⟩

theorem execPowerApply_pending (s : State) :
    After (execPowerApply s) fun t => t.pending = s.pending := by
  refine ⟨_, rfl, State.Queue.eq ?_⟩
  (repeat' split) <;> exact ⟨by simp -proj only [↓State.pump_pending, ↓State.accessApply_pending, ↓State.applyNow_pending]⟩

theorem execDomainLowerDone_pending (s : State) :
    After (execDomainLowerDone s) fun t => t.pending = s.pending :=
  ⟨_, rfl, by simp -proj only [↓State.pump_pending, ↓State.lowerDone_pending]⟩

theorem execAutowakeTimeout_pending (p : Fin 4) (s : State) :
    After (execAutowakeTimeout p s) fun t => t.pending = s.pending := by
  refine ⟨_, rfl, State.Queue.eq ?_⟩
  split <;> exact ⟨by simp -proj only [↓State.pump_pending, ↓State.opSettle_pending, ↓State.opBody_pending, ↓apply_ite State.pending, ite_self]⟩

theorem execPadRelease_pending (p : Fin 4) (v : Word) (s : State) :
    After (execPadRelease p v s) fun t => t.pending = s.pending :=
  ⟨_, rfl, State.directWrite_pending _ _ _ _ _ fun t => State.padRelease_pending ..⟩

theorem execLpBrownout_pending (lost : List (Fin 27)) (s : State) :
    After (execLpBrownout lost s) fun t => t.pending = s.pending :=
  ⟨_, rfl, by simp -proj only [↓State.brownout_pending, ↓apply_ite State.pending, ite_self]⟩

theorem execLiftMatch_pending (s : State) (target : TargetAddr) :
    After (execLiftMatch s target) fun t => t.pending = s.pending :=
  ⟨_, rfl, by simp -proj only [↓State.liftNack_pending, ↓State.liftStart_pending, ↓mk_pending, ↓apply_ite State.pending,
      ite_self]⟩

theorem execLiftReady_pending (s : State) :
    After (execLiftReady s) fun t => t.pending = s.pending :=
  ⟨_, rfl, by simp -proj only [↓State.raise_pending, ↓State.countSat_pending, ↓mk_pending, ↓apply_ite State.pending,
      ite_self]⟩

theorem execLiftTimeout_pending (s : State) :
    After (execLiftTimeout s) fun t => t.pending = s.pending :=
  ⟨_, rfl, by simp -proj only [↓State.liftNack_pending, ↓mk_pending, ↓apply_ite State.pending, ite_self]⟩

theorem execPowerOnReset_pending (s : State) :
    After (execPowerOnReset s) fun t => t.pending = s.pending :=
  ⟨_, rfl, by simp -proj only [↓State.deviceReset_pending, ↓mk_pending]⟩

theorem execSupplyLoss_pending (s : State) :
    After (execSupplyLoss s) fun t => t.pending = s.pending :=
  ⟨_, rfl, by simp -proj only [↓State.deviceReset_pending, ↓mk_pending]⟩

theorem execRstNAssert_pending (s : State) :
    After (execRstNAssert s) fun t => t.pending = s.pending :=
  ⟨_, rfl, by simp -proj only [↓State.deviceReset_pending, ↓apply_ite State.pending, ite_self]⟩

theorem execHostReset_pending (key : Byte) (s : State) :
    After (execHostReset key s) fun t => t.pending = s.pending :=
  ⟨_, rfl, by simp -proj only [↓State.resetKey_pending, ↓apply_ite State.pending, ite_self]⟩

theorem execWatchdogReset_pending (s : State) :
    After (execWatchdogReset s) fun t => t.pending = s.pending :=
  ⟨_, rfl, by simp -proj only [↓State.deviceReset_pending, ↓apply_ite State.pending, ite_self]⟩

theorem execResetRelease_pending (s : State) :
    After (execResetRelease s) fun t => t.pending = s.pending := by
  refine ⟨_, rfl, State.Queue.eq ?_⟩
  split <;> exact ⟨by simp -proj only [↓State.bootUp_pending, ↓mk_pending]⟩

theorem execVioSelect_pending (mv : Nat) (s : State) :
    After (execVioSelect mv s) fun t => t.pending = s.pending :=
  ⟨_, rfl, by simp -proj only [↓State.vioSelect_pending, ↓apply_ite State.pending, ite_self]⟩

theorem execVioDrop_pending (s : State) :
    After (execVioDrop s) fun t => t.pending = s.pending :=
  ⟨_, rfl, by simp -proj only [↓mk_pending, ↓apply_ite State.pending, ite_self]⟩

theorem execEsdDischarge_pending (s : State) (pin : EsdPin) :
    After (execEsdDischarge s pin) fun t => t.pending = s.pending :=
  ⟨_, rfl, by simp -proj only [↓mk_pending]⟩

theorem execCommandFrame_pending (p : Fin 4) (bytes : List Byte) (s : State) (target : TargetAddr) :
    After (execCommandFrame p bytes s target) fun t => t.pending = s.pending :=
  ⟨_, rfl, by simp -proj only [↓State.pump_pending, ↓State.transfer_pending, ↓apply_ite State.pending,
      ite_self]⟩

theorem execUartOverlength_pending (s : State) :
    After (execUartOverlength s) fun t => t.pending = s.pending :=
  ⟨_, rfl, by simp -proj only [↓State.refuseRaw_pending, ↓apply_ite State.pending, ite_self]⟩

theorem execResponseFormed_pending (p : Fin 4) (s : State) :
    After (execResponseFormed p s) fun t => t.pending = s.pending :=
  ⟨_, rfl, by simp -proj only [↓State.pump_pending, ↓State.respond_pending, ↓apply_ite State.pending, ite_self]⟩

theorem execResponseDelivered_pending (p : Fin 4) (s : State) (target : TargetAddr) :
    After (execResponseDelivered p s target) fun t => t.pending = s.pending :=
  ⟨_, rfl, by simp -proj only [↓State.pump_pending, ↓State.delivered_pending, ↓apply_ite State.pending,
      ite_self]⟩

theorem execNop_pending (p : Fin 4) (s : State) :
    After (execNop p s) fun t => t.pending = s.pending :=
  ⟨_, rfl, by simp -proj only [↓State.submit_pending]⟩

theorem execHello_pending (p : Fin 4) (seq : BitVec 16) (leaseMs hostId : Word) (s : State) :
    After (execHello p seq leaseMs hostId s) fun t => t.pending = s.pending :=
  ⟨_, rfl, by simp -proj only [↓State.pump_pending, ↓State.helloAccept_pending, ↓apply_ite State.pending,
      ite_self]⟩

theorem execLease_pending (p : Fin 4) (leaseMs : Word) (s : State) :
    After (execLease p leaseMs s) fun t => t.pending = s.pending :=
  ⟨_, rfl, by simp -proj only [↓State.submit_pending]⟩

theorem execRd_pending (p : Fin 4) (addr : Word) (count : BitVec 16) (s : State) :
    After (execRd p addr count s) fun t => t.pending = s.pending :=
  ⟨_, rfl, by simp -proj only [↓State.submit_pending]⟩

theorem execWr_pending (p : Fin 4) (addr : Word) (bib : BitVec 16) (data : List Byte) (s : State) :
    After (execWr p addr bib data s) fun t => t.pending = s.pending :=
  ⟨_, rfl, by simp -proj only [↓State.submit_pending]⟩

theorem execRmw_pending (p : Fin 4) (addr : Word) (bib : BitVec 16) (mask value : Word) (s : State) :
    After (execRmw p addr bib mask value s) fun t => t.pending = s.pending :=
  ⟨_, rfl, by simp -proj only [↓State.submit_pending]⟩

theorem execTxnOpen_pending (p : Fin 4) (s : State) :
    After (execTxnOpen p s) fun t => t.pending = s.pending :=
  ⟨_, rfl, by simp -proj only [↓State.submit_pending]⟩

theorem execTxnCommit_pending (p : Fin 4) (bib : BitVec 16) (mode : Byte) (time : Sys2Proof.Count) (s : State) :
    After (execTxnCommit p bib mode time s) fun t => t.pending = s.pending :=
  ⟨_, rfl, by simp -proj only [↓State.submit_pending]⟩

theorem execTxnAbort_pending (p : Fin 4) (bib : BitVec 16) (s : State) :
    After (execTxnAbort p bib s) fun t => t.pending = s.pending :=
  ⟨_, rfl, by simp -proj only [↓State.submit_pending]⟩

theorem execTxnStatus_pending (p : Fin 4) (bib : BitVec 16) (retire : Bool) (s : State) :
    After (execTxnStatus p bib retire s) fun t => t.pending = s.pending :=
  ⟨_, rfl, by simp -proj only [↓State.submit_pending]⟩

theorem execClaim_pending (p : Fin 4) (page : BitVec 16) (s : State) :
    After (execClaim p page s) fun t => t.pending = s.pending :=
  ⟨_, rfl, by simp -proj only [↓State.submit_pending]⟩

theorem execRelease_pending (p : Fin 4) (page : BitVec 16) (s : State) :
    After (execRelease p page s) fun t => t.pending = s.pending :=
  ⟨_, rfl, by simp -proj only [↓State.submit_pending]⟩

theorem execRingPull_pending (p : Fin 4) (ring : Byte) (max : BitVec 16) (s : State) :
    After (execRingPull p ring max s) fun t => t.pending = s.pending :=
  ⟨_, rfl, by simp -proj only [↓State.submit_pending]⟩

theorem execRingPush_pending (p : Fin 4) (ring : Byte) (entries : List Byte) (s : State) :
    After (execRingPush p ring entries s) fun t => t.pending = s.pending :=
  ⟨_, rfl, by simp -proj only [↓State.submit_pending]⟩

theorem execLeaseWarning_pending (p : Fin 4) (s : State) :
    After (execLeaseWarning p s) fun t => t.pending = s.pending :=
  ⟨_, rfl, by simp -proj only [↓State.updPort_pending, ↓State.leaseAt_pending, ↓apply_ite State.pending,
      ite_self]⟩

theorem execLeaseExpiry_pending (p : Fin 4) (s : State) :
    After (execLeaseExpiry p s) fun t => t.pending = s.pending :=
  ⟨_, rfl, by simp -proj only [↓State.pump_pending, ↓State.sessionExpire_pending, ↓apply_ite State.pending,
      ite_self]⟩

theorem execGraceEnd_pending (p : Fin 4) (s : State) :
    After (execGraceEnd p s) fun t => t.pending = s.pending :=
  ⟨_, rfl, by simp -proj only [↓State.pump_pending, ↓State.graceEnd_pending, ↓apply_ite State.pending,
      ite_self]⟩

theorem execTimedValidation_pending (bib : BitVec 16) (s : State) :
    After (execTimedValidation bib s) fun t => t.pending = s.pending := by
  refine ⟨_, rfl, State.Queue.eq ?_⟩
  split <;> exact ⟨by simp -proj only [↓State.pump_pending, ↓State.validate_pending, ↓apply_ite State.pending,
      ite_self]⟩

theorem execTxnApply_pending (bib : BitVec 16) (s : State) :
    After (execTxnApply bib s) fun t => t.pending = s.pending := by
  refine ⟨_, rfl, State.Queue.eq ?_⟩
  split <;> exact ⟨by simp -proj only [↓State.applyNow_pending, ↓apply_ite State.pending, ite_self]⟩

theorem execRingConfigWrite_pending (p : Fin 4) (r : Fin 32) (v : Word) (s : State) :
    After (execRingConfigWrite p r v s) fun t => t.pending = s.pending := by
  refine ⟨_, rfl, State.Queue.eq ?_⟩
  split
  · exact ⟨rfl⟩
  · exact ⟨State.directWrite_pending _ _ _ _ _ fun t => State.ringCfgWrite_pending ..⟩

theorem execRingIndexWrite_pending (p : Fin 4) (r : Fin 32) (producer : Bool) (v : Word) (s : State) :
    After (execRingIndexWrite p r producer v s) fun t => t.pending = s.pending := by
  refine ⟨_, rfl, State.Queue.eq ?_⟩
  split
  · exact ⟨State.directWrite_pending _ _ _ _ _ fun t => State.ringIndexWrite_pending ..⟩
  · exact ⟨rfl⟩

theorem execEvtForceWrite_pending (p : Fin 4) (page : Fin 108) (v : Word) (s : State) :
    After (execEvtForceWrite p page v s) fun t => t.pending = s.pending := by
  refine ⟨_, rfl, State.Queue.eq ?_⟩
  split
  · exact ⟨rfl⟩
  · exact ⟨State.directWrite_pending _ _ _ _ _ fun t => State.evtForce_pending ..⟩

theorem execEvtEnableWrite_pending (p : Fin 4) (page : Fin 108) (v : Word) (s : State) :
    After (execEvtEnableWrite p page v s) fun t => t.pending = s.pending := by
  refine ⟨_, rfl, State.Queue.eq ?_⟩
  split
  · exact ⟨rfl⟩
  · exact ⟨State.directWrite_pending _ _ _ _ _ fun t => State.evtEnable_pending ..⟩

theorem execGranARead_pending (s : State) :
    After (execGranARead s) fun t => t.pending = s.pending :=
  ⟨_, rfl, by simp -proj only [↓State.answer_pending, ↓State.latchGran_pending, ↓apply_ite State.pending,
      ite_self]⟩

theorem execImageLoadOpen_pending (p : Fin 4) (kind : Fin 4) (s : State) :
    After (execImageLoadOpen p kind s) fun t => t.pending = s.pending :=
  ⟨_, rfl, State.directWrite_pending _ _ _ _ _ fun t => State.loadCtrlWrite_pending ..⟩

theorem execImageWindowWrite_pending (p : Fin 4) (off : Fin 512) (v : Word) (s : State) :
    After (execImageWindowWrite p off v s) fun t => t.pending = s.pending :=
  ⟨_, rfl, State.directWrite_pending _ _ _ _ _ fun t => State.windowWrite_pending ..⟩

theorem execImageCheck_pending (p : Fin 4) (s : State) :
    After (execImageCheck p s) fun t => t.pending = s.pending :=
  ⟨_, rfl, State.directWrite_pending _ _ _ _ _ fun t => State.loadCtrlWrite_pending ..⟩

theorem execImageStart_pending (p : Fin 4) (s : State) :
    After (execImageStart p s) fun t => t.pending = s.pending :=
  ⟨_, rfl, State.directWrite_pending _ _ _ _ _ fun t => State.loadCtrlWrite_pending ..⟩

theorem execImageLoadAbort_pending (p : Fin 4) (s : State) :
    After (execImageLoadAbort p s) fun t => t.pending = s.pending :=
  ⟨_, rfl, State.directWrite_pending _ _ _ _ _ fun t => (State.pump_pending ..).trans (State.loadCtrlWrite_pending ..)⟩

theorem execImageCheckDone_pending (s : State) :
    After (execImageCheckDone s) fun t => t.pending = s.pending := by
  refine ⟨_, rfl, State.Queue.eq ?_⟩
  split <;> exact ⟨by simp -proj only [↓State.checkEnd_pending, ↓State.pump_pending, ↓State.waitOver_pending]⟩

theorem execSvcStarted_pending (s : State) :
    After (execSvcStarted s) fun t => t.pending = s.pending := by
  refine ⟨_, rfl, State.Queue.eq ?_⟩
  split <;> exact ⟨by simp -proj only [↓State.svcRun_pending, ↓apply_ite State.pending, ite_self]⟩

theorem execSuppApplied_pending (s : State) :
    After (execSuppApplied s) fun t => t.pending = s.pending := by
  refine ⟨_, rfl, State.Queue.eq ?_⟩
  split <;> exact ⟨by simp -proj only [↓State.suppRun_pending, ↓apply_ite State.pending, ite_self]⟩

theorem execSvcFatalError_pending (reason : Byte) (s : State) :
    After (execSvcFatalError reason s) fun t => t.pending = s.pending :=
  ⟨_, rfl, by simp -proj only [↓State.fatal_pending]⟩

theorem execSvcHeartbeatTimeout_pending (s : State) :
    After (execSvcHeartbeatTimeout s) fun t => t.pending = s.pending :=
  ⟨_, rfl, by simp -proj only [↓State.fatal_pending]⟩

theorem execSvcStop_pending (s : State) :
    After (execSvcStop s) fun t => t.pending = s.pending :=
  ⟨_, rfl, by simp -proj only [↓State.svcStopped_pending, ↓apply_ite State.pending, ite_self]⟩

theorem execRecover_pending (s : State) :
    After (execRecover s) fun t => t.pending = s.pending :=
  ⟨_, rfl, by simp -proj only [↓State.recover_pending, ↓apply_ite State.pending, ite_self]⟩

theorem execSchussStop_pending (s : State) :
    After (execSchussStop s) fun t => t.pending = s.pending :=
  ⟨_, rfl, by simp -proj only [↓State.endBootPhase_pending, ↓apply_ite State.pending, ite_self]⟩

theorem execSchussEnd_pending (s : State) :
    After (execSchussEnd s) fun t => t.pending = s.pending :=
  ⟨_, rfl, by simp -proj only [↓State.schussDone_pending, ↓State.schussBoot_pending, ↓apply_ite State.pending,
      ite_self]⟩

theorem execFuseProg_pending (p : Fin 4) (v : Word) (s : State) :
    After (execFuseProg p v s) fun t => t.pending = s.pending :=
  ⟨_, rfl, State.directWrite_pending _ _ _ _ _ fun t => State.fuseProg_pending ..⟩

theorem execFuseBlowDone_pending (s : State) :
    After (execFuseBlowDone s) fun t => t.pending = s.pending :=
  ⟨_, rfl, by simp -proj only [↓State.fuseBlown_pending, ↓apply_ite State.pending, ite_self]⟩

theorem execPdmTestWrite_pending (p : Fin 4) (on : Bool) (s : State) :
    After (execPdmTestWrite p on s) fun t => t.pending = s.pending :=
  ⟨_, rfl, State.directWrite_pending _ _ _ _ _ fun t => State.pdmTest_pending ..⟩

theorem execDumpWritten_pending (s : State) :
    After (execDumpWritten s) fun t => t.pending = s.pending :=
  ⟨_, rfl, by simp -proj only [↓State.dumpFinish_pending, ↓apply_ite State.pending, ite_self]⟩

theorem execDumpRelease_pending (s : State) :
    After (execDumpRelease s) fun t => t.pending = s.pending :=
  ⟨_, rfl, by simp -proj only [↓State.dumpRelease_pending, ↓apply_ite State.pending, ite_self]⟩

theorem execDumpStream_pending (p : Fin 4) (s : State) :
    After (execDumpStream p s) fun t => t.pending = s.pending :=
  ⟨_, rfl, State.directWrite_pending _ _ _ _ _ fun t => State.dumpStream_pending ..⟩

theorem execDumpChunk_pending (s : State) :
    After (execDumpChunk s) fun t => t.pending = s.pending := by
  refine ⟨_, rfl, State.Queue.eq ?_⟩
  split <;> exact ⟨by simp -proj only [↓State.dumpChunk_pending, ↓apply_ite State.pending, ite_self]⟩

theorem execServiceVersion_pending (s : State) :
    After (execServiceVersion s) fun t => t.pending = s.pending :=
  ⟨_, rfl, State.serve_pending _ _ _ fun _ _ => rfl⟩

theorem execServiceReclassify_pending (s : State) :
    After (execServiceReclassify s) fun t => t.pending = s.pending := by
  refine ⟨_, rfl, State.serve_pending _ _ _ fun t ps => ?_⟩
  dsimp only
  split
  · split
    · exact State.reclassify_pending ..
    · rfl
  · rfl

theorem execServiceThermal_pending (s : State) :
    After (execServiceThermal s) fun t => t.pending = s.pending :=
  ⟨_, rfl, State.serve_pending _ _ _ fun t _ => State.freeWords16_pending t 5⟩

theorem execServiceCalibrate_pending (s : State) :
    After (execServiceCalibrate s) fun t => t.pending = s.pending := by
  refine ⟨_, rfl, State.serve_pending _ _ _ fun t ps => foldl_pending _ (fun u n => ?_) _ _⟩
  split
  · exact State.calRestart_pending ..
  · rfl

theorem execServiceRefused_pending (s : State) :
    After (execServiceRefused s) fun t => t.pending = s.pending := by
  refine ⟨_, rfl, State.Queue.eq ?_⟩
  split <;> exact ⟨by simp -proj only [↓State.reply_pending, ↓apply_ite State.pending, ite_self]⟩

theorem execRegisterWrite_pending (p : Fin 4) (addr v : Word) (s : State) :
    After (execRegisterWrite p addr v s) fun t => t.pending = s.pending :=
  ⟨_, rfl, by simp -proj only [↓State.writeNow_pending]⟩

theorem execAesRxAcquiring_pending (k : Fin 8) (s : State) :
    After (execAesRxAcquiring k s) fun t => t.pending = s.pending :=
  ⟨_, rfl, by simp -proj only [↓State.aesLockTo_pending, ↓apply_ite State.pending, ite_self]⟩

theorem execAesRxUnlocked_pending (k : Fin 8) (s : State) :
    After (execAesRxUnlocked k s) fun t => t.pending = s.pending :=
  ⟨_, rfl, by simp -proj only [↓State.aesLockTo_pending, ↓apply_ite State.pending, ite_self]⟩

theorem execRefUnusable_pending (ppm : Int) (s : State) :
    After (execRefUnusable ppm s) fun t => t.pending = s.pending := by
  refine ⟨_, rfl, State.Queue.eq ?_⟩
  split <;> exact ⟨by simp -proj only [↓State.monMeasure_pending, ↓apply_ite State.pending, ite_self]⟩

theorem execRefUsable_pending (ppm : Int) (s : State) :
    After (execRefUsable ppm s) fun t => t.pending = s.pending := by
  refine ⟨_, rfl, State.Queue.eq ?_⟩
  split <;> exact ⟨by simp -proj only [↓State.monMeasure_pending, ↓apply_ite State.pending, ite_self]⟩

theorem execMainsMeasurementValid_pending (s : State) (us : BitVec 16) :
    After (execMainsMeasurementValid s us) fun t => t.pending = s.pending :=
  ⟨_, rfl, by simp -proj only [↓State.setFld_pending, ↓apply_ite State.pending, ite_self]⟩

theorem execVioRestored_pending (s : State) :
    After (execVioRestored s) fun t => t.pending = s.pending :=
  ⟨_, rfl, by simp -proj only [↓mk_pending, ↓apply_ite State.pending, ite_self]⟩

theorem exec_pending (s : State) : ∀ c : Instr, After (exec c s) fun t => t.pending = s.pending
  | .tick idx => execTick_pending idx s
  | .clkCoreWrite v => execClkCoreWrite_pending v s
  | .refSelWrite v => execRefSelWrite_pending v s
  | .monLoss m => execMonLoss_pending m s
  | .monGlitch m gap => execMonGlitch_pending m gap s
  | .monRateChange m code ppm => execMonRateChange_pending m code ppm s
  | .monPresent m code ppm => execMonPresent_pending m code ppm s
  | .monAcquireTimeout m => execMonAcquireTimeout_pending m s
  | .pllAcquireDone => execPllAcquireDone_pending s
  | .pllSlewDone => execPllSlewDone_pending s
  | .snapMuteDone => execSnapMuteDone_pending s
  | .snapRelockDone => execSnapRelockDone_pending s
  | .snapReturnDone => execSnapReturnDone_pending s
  | .coarseExit => execCoarseExit_pending s
  | .syscntLoRead => execSyscntLoRead_pending s
  | .tickcntLoRead => execTickcntLoRead_pending s
  | .epochFrameSend => execEpochFrameSend_pending s
  | .epochFrameReceive f => execEpochFrameReceive_pending f s
  | .epochFrameRepeat => execEpochFrameRepeat_pending s
  | .ensLost => execEnsLost_pending s
  | .ensRejoin => execEnsRejoin_pending s
  | .sapRunStart n => execSapRunStart_pending n s
  | .sapRunStop n => execSapRunStop_pending n s
  | .sapMuteRequest n mask => execSapMuteRequest_pending n mask s
  | .sapConfigWrite n r v => execSapConfigWrite_pending n r v s
  | .sapFrameReceived n f => execSapFrameReceived_pending n f s
  | .sapFrameTransmit n => execSapFrameTransmit_pending n s
  | .sapDeliveryStart n => execSapDeliveryStart_pending n s
  | .zcTimeout n ch => execZcTimeout_pending n ch s
  | .zcGlideDone n ch => execZcGlideDone_pending n ch s
  | .sapStopped n => execSapStopped_pending n s
  | .sapCntClear n => execSapCntClear_pending n s
  | .framesInRead n k => execFramesInRead_pending n k s
  | .stampLoRead n => execStampLoRead_pending n s
  | .aesRxLocked k => execAesRxLocked_pending k s
  | .aesRxLockLost k => execAesRxLockLost_pending k s
  | .aesRxCsRead k b => execAesRxCsRead_pending k b s
  | .aesTxSwap k => execAesTxSwap_pending k s
  | .aesCsSwapCopy k => execAesCsSwapCopy_pending k s
  | .grpConfigWrite g r v => execGrpConfigWrite_pending g r v s
  | .memberDeliveryStart n k => execMemberDeliveryStart_pending n k s
  | .memberStarved n k => execMemberStarved_pending n k s
  | .snowploughSilent n k => execSnowploughSilent_pending n k s
  | .memberRejoin n k => execMemberRejoin_pending n k s
  | .rejoinGlideDone n k => execRejoinGlideDone_pending n k s
  | .asrcConfigWrite idx v => execAsrcConfigWrite_pending idx v s
  | .asrcEnable idx => execAsrcEnable_pending idx s
  | .asrcDisable idx => execAsrcDisable_pending idx s
  | .asrcOff idx => execAsrcOff_pending idx s
  | .asrcLocked idx => execAsrcLocked_pending idx s
  | .ainEnable n => execAinEnable_pending n s
  | .ainDisable n => execAinDisable_pending n s
  | .ainModeChange n => execAinModeChange_pending n s
  | .servoSettled n => execServoSettled_pending n s
  | .ainReady n => execAinReady_pending n s
  | .ainOff n => execAinOff_pending n s
  | .cmExcursionStart n => execCmExcursionStart_pending n s
  | .cmExcursionEnd n => execCmExcursionEnd_pending n s
  | .phantomEnable n => execPhantomEnable_pending n s
  | .phantomDisable n => execPhantomDisable_pending n s
  | .phRampDone n => execPhRampDone_pending n s
  | .phSettleDone n => execPhSettleDone_pending n s
  | .phLimitTimeout n => execPhLimitTimeout_pending n s
  | .phFoldback => execPhFoldback_pending s
  | .automuteFadeDone n => execAutomuteFadeDone_pending n s
  | .automuteCauseEnd n c => execAutomuteCauseEnd_pending n c s
  | .automuteGlideDone n => execAutomuteGlideDone_pending n s
  | .pathReturn n => execPathReturn_pending n s
  | .calRestart n => execCalRestart_pending n s
  | .preampGainWrite n v => execPreampGainWrite_pending n v s
  | .stepForceTimeout n => execStepForceTimeout_pending n s
  | .diagStart n legs => execDiagStart_pending n legs s
  | .diagBegin n => execDiagBegin_pending n s
  | .diagPhaseDone n r => execDiagPhaseDone_pending n r s
  | .fabricRun p piste => execFabricRun_pending p piste s
  | .fabricFirstTick idx => execFabricFirstTick_pending idx s
  | .fabricStop p => execFabricStop_pending p s
  | .fabricStopped => execFabricStopped_pending s
  | .pisteWrite p addr v => execPisteWrite_pending p addr v s
  | .pisteCopy p => execPisteCopy_pending p s
  | .copyDone => execCopyDone_pending s
  | .pisteSwap p => execPisteSwap_pending p s
  | .xoverEnd => execXoverEnd_pending s
  | .admissionCheck p => execAdmissionCheck_pending p s
  | .checkDone => execCheckDone_pending s
  | .paramWrite p addr v => execParamWrite_pending p addr v s
  | .gainTargetWrite slot v => execGainTargetWrite_pending slot v s
  | .objectWrite addr v => execObjectWrite_pending addr v s
  | .objectReset addr => execObjectReset_pending addr s
  | .delayChange l v => execDelayChange_pending l v s
  | .generatorRestart g => execGeneratorRestart_pending g s
  | .lineFilled l => execLineFilled_pending l s
  | .sweepEnd g => execSweepEnd_pending g s
  | .outputEnable o => execOutputEnable_pending o s
  | .outputDisable o => execOutputDisable_pending o s
  | .lineRailRampDone n => execLineRailRampDone_pending n s
  | .chargePumpReady => execChargePumpReady_pending s
  | .outputSettleDone o => execOutputSettleDone_pending o s
  | .outputStopGlideDone o => execOutputStopGlideDone_pending o s
  | .lineRailDownDone n => execLineRailDownDone_pending n s
  | .chargePumpStop => execChargePumpStop_pending s
  | .outputCurrentLimit o => execOutputCurrentLimit_pending o s
  | .outputLimitTimeout o => execOutputLimitTimeout_pending o s
  | .servoLimit n => execServoLimit_pending n s
  | .cpRailFault => execCpRailFault_pending s
  | .internalFadeDone h => execInternalFadeDone_pending h s
  | .hpMicRoute h on input => execHpMicRoute_pending h on input s
  | .buttonPress h b => execButtonPress_pending h b s
  | .buttonRelease h => execButtonRelease_pending h s
  | .jackLevelChange j high => execJackLevelChange_pending j high s
  | .jackInsert j => execJackInsert_pending j s
  | .jackRemove j => execJackRemove_pending j s
  | .classifyPoleTestDone j r => execClassifyPoleTestDone_pending j r s
  | .classifyLoadTestDone j r => execClassifyLoadTestDone_pending j r s
  | .jackRuleFire r => execJackRuleFire_pending r s
  | .ampEnable n => execAmpEnable_pending n s
  | .ampDisable n => execAmpDisable_pending n s
  | .ampPrecheckDone n r => execAmpPrecheckDone_pending n r s
  | .ampRelease n => execAmpRelease_pending n s
  | .ampRunning n => execAmpRunning_pending n s
  | .ampStopGlideDone n => execAmpStopGlideDone_pending n s
  | .ampOff n => execAmpOff_pending n s
  | .pwmCycle n pos neg => execPwmCycle_pending n pos neg s
  | .ampRetry n => execAmpRetry_pending n s
  | .ampRetriesClear n => execAmpRetriesClear_pending n s
  | .ampDcFault n => execAmpDcFault_pending n s
  | .fixedScan r => execFixedScan_pending r s
  | .sagSample raw => execSagSample_pending raw s
  | .pvddHwStop => execPvddHwStop_pending s
  | .supplyOk => execSupplyOk_pending s
  | .hkaReady => execHkaReady_pending s
  | .conversionDone q v => execConversionDone_pending q v s
  | .integrationDone v => execIntegrationDone_pending v s
  | .calStageDone ok => execCalStageDone_pending ok s
  | .mainsLost => execMainsLost_pending s
  | .hkaTimerFire k => execHkaTimerFire_pending k s
  | .pwmTrigger x => execPwmTrigger_pending x s
  | .seqGo mask => execSeqGo_pending mask s
  | .seqEnable x => execSeqEnable_pending x s
  | .seqDisable x => execSeqDisable_pending x s
  | .seqDelayEnd x => execSeqDelayEnd_pending x s
  | .urgentStart p v => execUrgentStart_pending p v s
  | .hkaPop q => execHkaPop_pending q s
  | .hkaPeek q => execHkaPeek_pending q s
  | .tdacHostRequest p => execTdacHostRequest_pending p s
  | .tdacGrant => execTdacGrant_pending s
  | .tdacHostRelease p => execTdacHostRelease_pending p s
  | .tdacRoute p v => execTdacRoute_pending p v s
  | .tdacCode p v => execTdacCode_pending p v s
  | .tdacRampDone => execTdacRampDone_pending s
  | .crcData8 a idx v => execCrcData8_pending a idx v s
  | .crcData16 a idx v => execCrcData16_pending a idx v s
  | .crcData32 a idx v => execCrcData32_pending a idx v s
  | .crcReset a idx => execCrcReset_pending a idx s
  | .crcConfigWrite a idx r v => execCrcConfigWrite_pending a idx r v s
  | .crcResultRead idx => execCrcResultRead_pending idx s
  | .crcRawRead idx => execCrcRawRead_pending idx s
  | .crcOwnRequest a => execCrcOwnRequest_pending a s
  | .crcOwnRelease a => execCrcOwnRelease_pending a s
  | .powerChange p ws => execPowerChange_pending p ws s
  | .voteAnswer arriving => execVoteAnswer_pending s arriving
  | .voteTimeout => execVoteTimeout_pending s
  | .domainWakeDone => execDomainWakeDone_pending s
  | .powerApply => execPowerApply_pending s
  | .domainLowerDone => execDomainLowerDone_pending s
  | .autowakeTimeout p => execAutowakeTimeout_pending p s
  | .padRelease p v => execPadRelease_pending p v s
  | .lpBrownout lost => execLpBrownout_pending lost s
  | .liftMatch target => execLiftMatch_pending s target
  | .liftReady => execLiftReady_pending s
  | .liftTimeout => execLiftTimeout_pending s
  | .powerOnReset => execPowerOnReset_pending s
  | .supplyLoss => execSupplyLoss_pending s
  | .rstNAssert => execRstNAssert_pending s
  | .hostReset key => execHostReset_pending key s
  | .watchdogReset => execWatchdogReset_pending s
  | .resetRelease => execResetRelease_pending s
  | .vioSelect mv => execVioSelect_pending mv s
  | .vioDrop => execVioDrop_pending s
  | .esdDischarge pin => execEsdDischarge_pending s pin
  | .commandFrame p bytes target => execCommandFrame_pending p bytes s target
  | .uartOverlength => execUartOverlength_pending s
  | .responseFormed p => execResponseFormed_pending p s
  | .responseDelivered p target => execResponseDelivered_pending p s target
  | .nop p => execNop_pending p s
  | .hello p seq leaseMs hostId => execHello_pending p seq leaseMs hostId s
  | .lease p leaseMs => execLease_pending p leaseMs s
  | .rd p addr count => execRd_pending p addr count s
  | .wr p addr bib data => execWr_pending p addr bib data s
  | .rmw p addr bib mask value => execRmw_pending p addr bib mask value s
  | .txnOpen p => execTxnOpen_pending p s
  | .txnCommit p bib mode time => execTxnCommit_pending p bib mode time s
  | .txnAbort p bib => execTxnAbort_pending p bib s
  | .txnStatus p bib retire => execTxnStatus_pending p bib retire s
  | .claim p page => execClaim_pending p page s
  | .release p page => execRelease_pending p page s
  | .ringPull p ring max => execRingPull_pending p ring max s
  | .ringPush p ring entries => execRingPush_pending p ring entries s
  | .leaseWarning p => execLeaseWarning_pending p s
  | .leaseExpiry p => execLeaseExpiry_pending p s
  | .graceEnd p => execGraceEnd_pending p s
  | .timedValidation bib => execTimedValidation_pending bib s
  | .txnApply bib => execTxnApply_pending bib s
  | .ringConfigWrite p r v => execRingConfigWrite_pending p r v s
  | .ringIndexWrite p r producer v => execRingIndexWrite_pending p r producer v s
  | .evtForceWrite p page v => execEvtForceWrite_pending p page v s
  | .evtEnableWrite p page v => execEvtEnableWrite_pending p page v s
  | .granARead => execGranARead_pending s
  | .imageLoadOpen p kind => execImageLoadOpen_pending p kind s
  | .imageWindowWrite p off v => execImageWindowWrite_pending p off v s
  | .imageCheck p => execImageCheck_pending p s
  | .imageStart p => execImageStart_pending p s
  | .imageLoadAbort p => execImageLoadAbort_pending p s
  | .imageCheckDone => execImageCheckDone_pending s
  | .svcStarted => execSvcStarted_pending s
  | .suppApplied => execSuppApplied_pending s
  | .svcFatalError reason => execSvcFatalError_pending reason s
  | .svcHeartbeatTimeout => execSvcHeartbeatTimeout_pending s
  | .svcStop => execSvcStop_pending s
  | .recover => execRecover_pending s
  | .schussStop => execSchussStop_pending s
  | .schussEnd => execSchussEnd_pending s
  | .fuseProg p v => execFuseProg_pending p v s
  | .fuseBlowDone => execFuseBlowDone_pending s
  | .pdmTestWrite p on => execPdmTestWrite_pending p on s
  | .dumpWritten => execDumpWritten_pending s
  | .dumpRelease => execDumpRelease_pending s
  | .dumpStream p => execDumpStream_pending p s
  | .dumpChunk => execDumpChunk_pending s
  | .serviceVersion => execServiceVersion_pending s
  | .serviceReclassify => execServiceReclassify_pending s
  | .serviceThermal => execServiceThermal_pending s
  | .serviceCalibrate => execServiceCalibrate_pending s
  | .serviceRefused => execServiceRefused_pending s
  | .registerWrite p addr v => execRegisterWrite_pending p addr v s
  | .aesRxAcquiring k => execAesRxAcquiring_pending k s
  | .aesRxUnlocked k => execAesRxUnlocked_pending k s
  | .refUnusable ppm => execRefUnusable_pending ppm s
  | .refUsable ppm => execRefUsable_pending ppm s
  | .mainsMeasurementValid us => execMainsMeasurementValid_pending s us
  | .vioRestored => execVioRestored_pending s

/-- Settles O50. -/
theorem queueUntouched : Obligations.QueueUntouched := by
  unfold Obligations.QueueUntouched
  intro c s t h
  obtain ⟨u, hu, hp⟩ := exec_pending s c
  rw [hu] at h
  cases h
  exact hp

end Sys2Proof.Machine
end
